-- ==== Sys2Proof/Word.lean ====
section
/-! DEFINITION. The words of the block: registers are 64 bits wide (the chapter "Scope and conventions"), memory is
addressed by the byte, lanes hold binary32 values, and a memory line is 128 bytes. -/
namespace Sys2Proof

/-- A register value: 64 bits. -/
abbrev Word := BitVec 64

/-- One byte of memory. -/
abbrev Byte := BitVec 8

/-- A binary32 bit pattern. -/
abbrev F32 := BitVec 32

/-- A binary64 bit pattern. -/
abbrev F64 := BitVec 64

/-- Sparse data by key: pairs of a key and a value. Its canonical form is stated in Machine/Ops.lean. -/
abbrev Sparse (α : Type) := List (Nat × α)

end Sys2Proof
end

