-- ==== Sys2Proof/Machine/Types.lean ====
section
/-! DEFINITION. The data that commands carry and that the state holds: identifiers, messages of other members,
frames, agreement views and decisions. The field names are the manual's. -/
namespace Sys2Proof.Machine

/-- A glade, 0 to 15 (R5). -/
abbrev GladeId := Fin 16
/-- A tile, 0 to 63 (R5). -/
abbrev TileId := Fin 64
/-- A link, 0 to 31 (R5). -/
abbrev LinkId := Fin 32
/-- A lane of a link, 0 to 7 (R236). -/
abbrev LaneId := Fin 8
/-- A memory port, 0 to 7 (R294). -/
abbrev PortId := Fin 8
/-- A command queue, 0 to 15 (R137). -/
abbrev QueueId := Fin 16
/-- A rollout image slot, 0 to 15 (R220). -/
abbrev ImageId := Fin 16
/-- A host injection interface, 0 to 7 (R272). -/
abbrev HostId := Fin 8
/-- A tile quadrant, 0 to 3 (R127). -/
abbrev QuadId := Fin 4

/-- A management bus (R370). -/
inductive BusId where
  | a | b
  deriving DecidableEq, Repr

/-- Who makes a register access: the register port, the management bus (R376), or Ranger's REGW record (R356). -/
inductive Via where
  | port | bus | config
  deriving DecidableEq, Repr

/-- The status of a memory-port response (R295, R422). -/
inductive MpStatus where
  | ok | corr | uncorr | addrErr
  deriving DecidableEq, Repr

/-- A step-program operand name: 0 to 15 are V0 to V15 and 16 to 31 are S0 to S15 (R96). -/
abbrev Operand := Fin 32

/-- One leaf's bytes as a survivor of a row answered them: its slot, its status word (R181) and its bytes.
(DESIGN CHOICE, assumption 9.) -/
structure RowAnswer where
  slot : Nat
  status : Word
  bytes : List Byte
  deriving DecidableEq, Repr

/-- A JOIN message (R358). -/
structure JoinMsg where
  lmn : Nat
  pnid : Nat
  hash : Word
  mode : Nat
  moments : Nat
  k : Nat
  m : Nat
  s : Nat
  spm : Nat
  d : Nat
  region4 : Nat
  ring : Nat
  deriving DecidableEq, Repr

/-- A partial verdict as it travels up the tree (R90, R91, R148): `acc` is the 640-bit square accumulator. -/
structure PartialVerdict where
  acc : BitVec 640
  nonfin : Nat
  missing : Nat
  skipReq : Bool
  strag : Bool
  loss : Bool
  carried : Nat
  ring : Nat
  epoch : Nat
  mode : Nat
  deriving DecidableEq, Repr

/-- A layer's pair of square accumulators in the trust-ratio reduction (R102). -/
structure LayerAcc where
  layer : Nat
  acc0 : BitVec 640
  acc1 : BitVec 640
  deriving DecidableEq, Repr

/-- A layer's two sums as the root returns them (R102): binary64. -/
structure LayerSum where
  layer : Nat
  w2 : F64
  u2 : F64
  deriving DecidableEq, Repr

/-- A (row, parity index) pair of a stale list (R107), under the current code or, while a window is open, the next one. -/
structure RowPar where
  next : Bool
  row : Nat
  pidx : Nat
  deriving DecidableEq, Repr

/-- A member's entry to a ring-start barrier (R52, R81, R205, R210): its code epoch, whether it has wrapped,
the digest of its loaded plan and whether it is ready for the switch. -/
structure StartEntry where
  epoch : Nat
  wrapped : Bool
  digest : Option (BitVec 384)
  ready : Bool
  deriving DecidableEq, Repr

/-- What a ring-start completion reports of an open plan (R205, R211, R214, R216). -/
inductive PlanOutcome where
  | none | opened | switched | deferred | aborted | filled | dissolved
  deriving DecidableEq, Repr

/-- What a child sends up the tree (R148). `crcOk` is false where the record's CRC is wrong (R149). -/
inductive TreePayload where
  | verdict (p : PartialVerdict)
  | trust (l : List LayerAcc)
  | ringClose (ring epoch : Nat) (stale : List RowPar)
  | ringStart (ring : Nat) (e : StartEntry)
  | hostBarrier (cid : Nat)
  deriving DecidableEq, Repr

/-- A probe result (R165). `spare` is true when `target` is an entry of the spare list, false for a suspect's slot. -/
structure ProbeResult where
  spare : Bool
  target : Nat
  reachable : Bool
  deriving DecidableEq, Repr

/-- A member's view in a witness agreement (R166). (DESIGN CHOICE, assumption 9.) -/
structure View where
  slot : Nat
  probes : List ProbeResult
  ring : Nat
  openRing : Nat
  stage : Nat
  closeEntered : Bool
  closeDone : Bool
  stale : List RowPar
  rootHolds : List Nat
  epoch : Nat
  deriving DecidableEq, Repr

/-- The decision of an agreement (R167, R168). `committed` carries the union of stale lists when a view reports
the barrier completion; `inWindow` says whether the loss falls inside the commit window (R88). -/
structure Decision where
  seq : Nat
  lostSlots : List Nat
  committed : Option (List RowPar)
  inWindow : Bool
  deriving DecidableEq, Repr

/-- A plan record as LOAD reads it from member memory (R201). -/
structure Plan where
  planId : Nat
  kind : Nat
  glade : Nat
  curEpoch : Nat
  defMax : Nat
  swRing : Nat
  layerHash : Word
  nk : Nat
  nm : Nat
  ns : Nat
  nshape : Nat
  nreg : List Word
  nspare : List Word
  map : List Word
  digest : BitVec 384
  reservedOk : Bool
  deriving DecidableEq, Repr

/-- TAKEOVER (R176): the code words are those of GRV_ROWCFG and GRV_NEXTCFG for the lost slot. `inWindow` says whether the
ring's commit window had opened (R88, R89), which DEC settled, and `plan` the plan in hand, which the stand-in takes over
(R215). -/
structure Takeover where
  lmn : Nat
  ring : Nat
  carried : Nat
  rowcfg : Word
  nextcfg : Word
  mapSeq : Nat
  inWindow : Bool
  plan : Option Plan
  deriving DecidableEq, Repr

/-- The MSG fields of a header block (R283). -/
structure MsgHdr where
  kind : Nat
  segIdx : Nat
  segLast : Nat
  dlmn : Nat
  offset : Nat
  txid : Nat
  dtr : Nat
  esc : Bool
  dl : Bool
  lw : Bool
  cache : Bool
  row : Bool
  inv : Bool
  nocache : Bool
  deriving DecidableEq, Repr

/-- A data frame between routers and endpoints (R247). `sealOk` is whether the tag verifies under the key that the
destination holds (R268, R332); it is read only when `enc` is true. -/
structure Frame where
  vc : Nat
  enc : Bool
  src : Nat
  dst : Nat
  glade : GladeId
  ttl : Nat
  msg : MsgHdr
  stream : Nat
  kph : Bool
  sealOk : Bool
  payload : List Byte
  deriving DecidableEq, Repr

/-- A data frame as a link receives it (R247, R250): its blocks, each 32 bytes, and whether the first block, or any
block, lies in an uncorrectable codeword. -/
structure RxFrame where
  firstBad : Bool
  anyBad : Bool
  bytes : List Byte
  deriving DecidableEq, Repr

/-- A marker on a lane (R241), as the receiver reads it; `pos` is the number of its first bit in the lane's bit stream. -/
structure Marker where
  pos : Nat
  wrongSync : Nat
  lane : Nat
  width : Nat
  wake : Bool
  cnt : Nat
  crcOk : Bool
  decodeOk : Bool
  skewNs : Nat
  deriving DecidableEq, Repr

/-- What flash discovery reads from the SFDP (R350). -/
structure Sfdp where
  signatureOk : Bool
  tableOk : Bool
  fastReadOk : Bool
  eraseOk : Bool
  addrOk : Bool
  log2Size : Nat
  log2Page : Nat
  deriving DecidableEq, Repr

/-- The body of a weight-publish record (R219). (DEDUCED, assumption 64.) -/
structure WpRecord where
  stream : Nat
  replace : Bool
  full : Bool
  ring : Nat
  arg : Nat
  body : List Byte
  deriving DecidableEq, Repr

/-- The answer to an image load (R222). -/
inductive LoadAnswer where
  | image (gen : Nat) (bytes : List Byte)
  | busy
  | aborted
  deriving DecidableEq, Repr

/-- The controller states that the CAN standard defines (R368, R383). -/
inductive CanState where
  | errorActive | errorPassive | busOff
  deriving DecidableEq, Repr

/-- What a memory-port access was made for (R453): the glade of the unit where it has one. -/
inductive MpUse where
  | staging (g : GladeId)
  | foldParity (g : GladeId) (p : Nat)
  | descriptor (q : QueueId)
  | rowRead (g : GladeId) (offset : Nat)
  | other
  deriving DecidableEq, Repr

end Sys2Proof.Machine
end

