-- ==== Sys2Proof/Syntax.lean ====
section
/-! DEFINITION. The commands of the block: one constructor per row of spec/opcode_table.json, in the table's order.
Where the table's row has no operands of its own (it gives none), the operands are those that the rule named by the row
gives the event: the glade, the message's fields, the register value written. An operand named `rows` or `others` carries
what other members answered, since the model holds one node. -/
namespace Sys2Proof

open Sys2Proof.Machine

/-- The commands and events that the block takes, in the order of spec/opcode_table.json. -/
inductive Instr where
  /-- REGISTER_WRITE (R7): A register-port or bus write to a register that has no row of its own sets, clears or ignores its fields by their access codes. -/
  | registerWrite (via : Via) (addr : BitVec 24) (be : Byte) (value : Word)
  /-- RC_FIELD_READ (R8): A read of a register with an RC field returns the value and then clears the field. -/
  | rcFieldRead (via : Via) (addr : BitVec 24) (be : Byte)
  /-- REGISTER_ACCESS_WITHDRAW (R425): A MAIN access not accepted within 100 µs is withdrawn and answered with an error. -/
  | registerAccessWithdraw (write : Bool) (addr : BitVec 24)
  /-- AO_RST_N_ASSERT (R344): Assertion of AO_RST_N resets both domains and silences pins and buses. -/
  | aoRstNAssert
  /-- AO_RST_N_RELEASE (R342): Release of AO_RST_N starts fuse sensing, flash discovery and strap sampling. -/
  | aoRstNRelease (straps : BitVec 6)
  /-- FUSE_SENSING_DONE (R321): Fuse sensing completes and sets LCS, key validity, the tile map and policy, or holds MAIN in reset. -/
  | fuseSensingDone
  /-- FLASH_DISCOVERY (R350): Flash discovery completes, reading SFDP and setting READY or a discovery error. -/
  | flashDiscovery (t : Sfdp)
  /-- RST_N_ASSERT (R345): An RST_N assertion of 1 µs or more puts MAIN into reset with PHY resets and dropped port requests. -/
  | rstNAssert (cycles : Nat)
  /-- RST_N_HELD (R346): RST_N held for 1 s sets HELD, writes a Warn record and sends a trail message. -/
  | rstNHeld
  /-- VDD_MAIN_LOSS (R429): VDD_MAIN falling out of range acts as an assertion of RST_N. -/
  | vddMainLoss
  /-- MAIN_START (R343): Once every reset condition clears, MAIN starts Ranger from ROM and runs the boot stages. -/
  | mainStart
  /-- HOLD_OUT_END (R348): The hold-out timer expires and MAIN starts with COUNT 1. -/
  | holdOutEnd
  /-- STORM_RESET (R348): 60 s of MAIN running without reset sets COUNT and LEVEL to 0. -/
  | stormReset
  /-- BOOT_WATCHDOG (R347): STAGE not reaching 5 or 6 within 100 ms resets MAIN and sets WDOG. -/
  | bootWatchdog
  /-- SWRST (R347): A write of SWRST with the right CONFIRM resets MAIN for 1 µs and sets CMD. -/
  | swrst (confirm : BitVec 32)
  /-- RSTIGN (R346): Setting RSTIGN while HELD = 1 starts MAIN despite the held RST_N. -/
  | rstign
  /-- HOCLR (R348): HOCLR ends a hold-out at once and sets LEVEL to 0. -/
  | hoclr
  /-- CLK_CORE_LOSS (R428): No CLK_CORE edge for 10 CLK_AO cycles puts MAIN into reset and writes a Fatal record. -/
  | clkCoreLoss
  /-- CLK_CORE_RESTART (R428): After CLK_CORE has run again for 10 µs, MAIN is released and the start is counted. -/
  | clkCoreRestart
  /-- ROOT_DERIVE (R327): The security unit finishes deriving DRK, d and Q and sets ROOT. -/
  | rootDerive
  /-- CONFIG_APPLY (R357): Once image and configuration are verified, the firmware loads programs, applies records, advances the SEAL epoch and enables links. -/
  | configApply
  /-- SEAL_EPOCH_PERSIST (R334): The record write of the new SEAL epoch completes and NOSEAL becomes 0. -/
  | sealEpochPersist
  /-- RECORD_WRITE (R363): The record engine writes one record-area entry in three programs. -/
  | recordWrite
  /-- COMPACTION (R364): The record engine copies the newest entry of each key into the other bank and switches banks. -/
  | compaction
  /-- NVM_READ (R366): NVM_CMD OP 0 reads flash bytes into NVM_BUF. -/
  | nvmRead (addr : BitVec 24) (lenM1 : Byte)
  /-- NVM_PROGRAM (R365): NVM_CMD OP 1 programs bytes from NVM_BUF after checking they only clear bits, then verifies. -/
  | nvmProgram (addr : BitVec 24) (lenM1 : Byte)
  /-- NVM_ERASE (R366): NVM_CMD OP 2 erases a 4 KiB sector unless the address is refused. -/
  | nvmErase (addr : BitVec 24)
  /-- NVM_DONE (R366): A flash command completes and sets RESULT. -/
  | nvmDone (good : Bool)
  /-- NVM_TIMEOUT (R366): A flash operation outlasting its SFDP maximum gives RESULT 5 and a Fault record. -/
  | nvmTimeout
  /-- PHASE_STROBE (R50): A strobe or PHS_ADV advance of the selected glade moves, repeats, wraps, regresses or is ignored. -/
  | phaseStrobe (value : BitVec 16)
  /-- PHS_ADV (R49): A write to PHS_ADV is one advance when SRC = 1, otherwise ignored and counted. -/
  | phsAdv (value : Word)
  /-- PHS_SEL_WRITE (R61): A write to PHS_SEL selects another glade from the next cycle, or sets BADSEL. -/
  | phsSelWrite (value : Word)
  /-- PHASE_TABLE_WRITE (R56): A write to a PHS_TBL entry or PHS_GSEG redoes matching for affected glades. -/
  | phaseTableWrite (segment : Bool) (index : Fin 64) (value : Word)
  /-- GLADE_ENABLE (R27): A write of 1 to GLD[g]_CTL EN validates the descriptor and layer table and activates the glade or records ENERR. -/
  | gladeEnable (g : GladeId)
  /-- GLADE_DISABLE (R26): A write of 0 to EN disables the glade, or is ignored while the member belongs to a grove. -/
  | gladeDisable (g : GladeId)
  /-- JOIN (R358): A JOIN message from a glade member is received and checked for grove join. -/
  | join (g : GladeId) (j : JoinMsg)
  /-- JOIN_RESEND (R358): Every 1 s while JOINs are missing, the member reports ABSENT and resends its JOIN. -/
  | joinResend (g : GladeId)
  /-- WRITE_WATCH_REPORT (R298): A controller's write-watch report is matched against watched regions. -/
  | writeWatchReport (q : PortId) (line : BitVec 34) (staged : Bool)
  /-- WATCH_OVERFLOW (R299): An overflow pair marks every watched unit in its range as hit. -/
  | watchOverflow (q : PortId) (lowest highest : BitVec 34)
  /-- REPAIR_WALK (R300): The repair walker repairs one unit awaiting repair under class 2. -/
  | repairWalk (q : PortId) (rows : List RowAnswer)
  /-- SKIPREQ (R85): Setting SKIPREQ requests a skip that the member's partial verdict takes up. -/
  | skipreq (g : GladeId)
  /-- CONTRIBUTION (R89): A block contribution arrives and is added, held, kept or discarded as late. -/
  | contribution (g : GladeId) (ringLo sidx layer block : Nat) (values : List F32)
  /-- END_OF_STEP_MARKER (R145): An end-of-step marker arrives at an owner, which answers with a marker receipt. -/
  | endOfStepMarker (g : GladeId) (ringLo sidx blocks : Nat)
  /-- MARKER_RECEIPT (R145): A marker receipt arrives at the source and may complete its LAST descriptor. -/
  | markerReceipt (g : GladeId) (owner ringLo sidx blocks : Nat)
  /-- MARKER_RESEND (R145): The source resends an unanswered end-of-step marker on its schedule. -/
  | markerResend (g : GladeId) (owner sidx : Nat)
  /-- READY_NOTICE (R145): In exact mode an owner receives a ready notice and pulls its blocks from the source. -/
  | readyNotice (g : GladeId) (ringLo sidx layer block src : Nat)
  /-- PULL_DONE (R145): A pull-done answer arrives at the source and may complete its RSGRAD. -/
  | pullDone (g : GladeId) (owner sidx layer count : Nat)
  /-- PARTIAL_VERDICT (R94): When all expected streams are complete, the member forms its partial verdict. -/
  | partialVerdict (g : GladeId)
  /-- STRAGGLER_DEADLINE (R94): The straggler deadline expires and the member forms its partial verdict with MISSING. -/
  | stragglerDeadline (g : GladeId)
  /-- VERDICT_RECEIPT (R93): A member receives the verdict record and applies, carries or skips. -/
  | verdictReceipt (g : GladeId) (record : List Byte)
  /-- APPLY_BLOCK (R105): A tile applies one block: stages leaves, runs the program, writes leaves and sends deltas. -/
  | applyBlock (g : GladeId) (t : Nat)
  /-- END (R96): Step-program instruction that ends the pass. -/
  | stepEnd
  /-- LD (R96): Step-program instruction that loads a class value as staged before the apply. -/
  | stepLd (d : Fin 16) (cls : Fin 4)
  /-- ST (R96): Step-program instruction that stores the new value of a class. -/
  | stepSt (cls : Fin 3) (a : Operand)
  /-- ADD (R96): Step-program binary32 addition. -/
  | stepAdd (d : Fin 16) (a b : Operand)
  /-- SUB (R96): Step-program binary32 subtraction. -/
  | stepSub (d : Fin 16) (a b : Operand)
  /-- MUL (R96): Step-program binary32 multiplication. -/
  | stepMul (d : Fin 16) (a b : Operand)
  /-- FMA (R96): Step-program fused multiply-add rounded once. -/
  | stepFma (d : Fin 16) (a b c : Operand)
  /-- FNMA (R96): Step-program fused negated multiply-add rounded once. -/
  | stepFnma (d : Fin 16) (a b c : Operand)
  /-- DIV (R96): Step-program binary32 division. -/
  | stepDiv (d : Fin 16) (a b : Operand)
  /-- SQRT (R96): Step-program binary32 square root. -/
  | stepSqrt (d : Fin 16) (a : Operand)
  /-- MAX (R96): Step-program maximum of two operands. -/
  | stepMax (d : Fin 16) (a b : Operand)
  /-- MIN (R96): Step-program minimum of two operands. -/
  | stepMin (d : Fin 16) (a b : Operand)
  /-- SIGN (R96): Step-program sign of an operand. -/
  | stepSign (d : Fin 16) (a : Operand)
  /-- SQACC0 (R96): Step-program exact square accumulation into acc0. -/
  | stepSqacc0 (a : Operand)
  /-- SQACC1 (R96): Step-program exact square accumulation into acc1. -/
  | stepSqacc1 (a : Operand)
  /-- MOV (R96): Step-program register copy. -/
  | stepMov (d : Fin 16) (a : Operand)
  /-- TRUST_RATIO_RESULT (R102): W2 and U2 arrive and the second apply sweep starts with the trust ratio. -/
  | trustRatioResult (g : GladeId) (sums : List LayerSum)
  /-- PROGRAM_SLOT_WRITE (R97): A write to STP_SLOT is checked and accepted or ignored with a Warn record. -/
  | programSlotWrite (slot : Fin 256) (value : Word)
  /-- PMEM_WRITE (R97): A write to STP_PMEM inside a valid pass or a named slot is ignored with a Warn record. -/
  | pmemWrite (w : Fin 1024) (value : Word)
  /-- DELTA_RECEIVE (R78): A holder checks an arriving delta and folds it or refuses it with a response code. -/
  | deltaReceive (sender : Nat) (msg : List Byte)
  /-- DELTA_ANSWER (R106): A holder's answer reaches the sender, which counts it, resends raw or marks the holder stale. -/
  | deltaAnswer (g : GladeId) (next : Bool) (row pidx code epoch : Nat)
  /-- DELTA_RESEND (R106): An unanswered scaled copy is resent on the schedule and counted in RETRIES. -/
  | deltaResend (g : GladeId) (next : Bool) (row pidx : Nat)
  /-- DELTA_STALE (R106): At 200 µs without an answer the holder is marked stale for the row. -/
  | deltaStale (g : GladeId) (next : Bool) (row pidx : Nat)
  /-- PARITY_FRAME_EVICT (R303): An evicted parity frame writes back its leaf and its holder-journal entry. -/
  | parityFrameEvict (g : GladeId) (p : Nat)
  /-- RING_CLOSE_COMPLETION (R107): A member receives the ring-close completion and commits the ring in one step. -/
  | ringCloseCompletion (g : GladeId) (ring : Nat) (stale : List RowPar)
  /-- RING_START_COMPLETION (R52): The ring-start barrier completes; the phase becomes 0, shadowed values apply and HOLD drops. -/
  | ringStartCompletion (g : GladeId) (ring : Nat) (evicted : List Nat) (outcome : PlanOutcome)
  /-- LAGGARD_EVICTION (R109): 1 ms after ring close, members without a ring-start entry are evicted. -/
  | laggardEviction (g : GladeId)
  /-- RNG_TEST_WRITE (R116): A write to TIL[t]_RNGIN starts a generator computation for the test counter and key. -/
  | rngTestWrite (t : TileId) (w : Fin 4) (value : Word)
  /-- RNG_OUTPUT_READY (R116): The test generator output becomes ready and waiting reads are answered. -/
  | rngOutputReady (t : TileId)
  /-- ACCESS_COMPLETE (R131): A parked context's access completes and the context becomes ready. -/
  | accessComplete (t : TileId) (ctx : Nat)
  /-- CONTEXT_TIMEOUT (R131): A context access not completed in 500 µs releases it, restarting or abandoning its unit. -/
  | contextTimeout (t : TileId) (ctx : Nat)
  /-- GANG_REQUEST (R128): Ranger requests a quadrant gang from the tiles of a quadrant. -/
  | gangRequest (quad : QuadId)
  /-- GANG_GRANT (R128): A tile finishes its array unit and grants the gang request. -/
  | gangGrant (t : TileId)
  /-- GANG_GRANT_TIMEOUT (R128): After 4,096 cycles the gang forms without tiles that have not granted. -/
  | gangGrantTimeout (quad : QuadId)
  /-- QUEUE_DOORBELL (R138): A write to CQ_QTAIL makes new descriptors available to the queue. -/
  | queueDoorbell (q : QueueId) (value : Word)
  /-- QUEUE_ENABLE (R138): Setting or clearing CQ_QCTL EN resumes or stops descriptor fetching. -/
  | queueEnable (q : QueueId) (en : Bool)
  /-- QUEUE_RESUME (R137): RESUME runs the halting descriptor again and leaves the halt. -/
  | queueResume (q : QueueId)
  /-- QUEUE_SKIP (R137): SKIP drops the halting descriptor without signalling and leaves the halt. -/
  | queueSkip (q : QueueId)
  /-- DESCRIPTOR_FETCH (R140): A descriptor fetch through the memory ports completes. -/
  | descriptorFetch (q : QueueId) (status : MpStatus)
  /-- DESCRIPTOR_START (R142): A descriptor whose token and fence waits are satisfied is checked and started. -/
  | descriptorStart (q : QueueId)
  /-- DESCRIPTOR_COMPLETE (R142): A descriptor's effect on this member is done; it signals its token and advances HEAD. -/
  | descriptorComplete (q : QueueId) (index : Nat)
  /-- MATCH_TIMEOUT (R143): LMN 0 finds a CID not issued by every member within TMO and halts it with CODE 6. -/
  | matchTimeout (g : GladeId) (cid : Nat)
  /-- NOP (R141): Descriptor operation that does nothing but wait and signal. -/
  | descNop (q : QueueId) (index : Nat)
  /-- ALLREDUCE (R141): Descriptor operation summing every member's buffer into DST. -/
  | descAllreduce (q : QueueId) (index : Nat) (others : List (List F32))
  /-- REDUCESCATTER (R141): Descriptor operation delivering segment i of the sum to member i. -/
  | descReducescatter (q : QueueId) (index : Nat) (others : List (List F32))
  /-- ALLGATHER (R141): Descriptor operation concatenating every member's buffer in LMN order. -/
  | descAllgather (q : QueueId) (index : Nat) (others : List (List Byte))
  /-- BROADCAST (R141): Descriptor operation copying ROOT's buffer to every member. -/
  | descBroadcast (q : QueueId) (index : Nat) (root : List Byte)
  /-- BARRIER (R141): Descriptor operation completing when every member has issued it. -/
  | descBarrier (q : QueueId) (index : Nat) (issued : List Nat)
  /-- PERMUTE (R141): Descriptor operation sending to PEER and receiving from whoever names this member. -/
  | descPermute (q : QueueId) (index : Nat) (received : Option (Nat × List Byte))
  /-- MCAST (R150): Descriptor operation multicasting along one dimension and direction. -/
  | descMcast (q : QueueId) (index : Nat)
  /-- RSGRAD (R145): Descriptor operation doing the per-layer gradient reduce-scatter from one local source. -/
  | descRsgrad (q : QueueId) (index : Nat)
  /-- VERDICT_REDUCTION (R148): Internal operation combining partial verdicts up the tree and returning the verdict. -/
  | verdictReduction (g : GladeId)
  /-- TRUST_RATIO_REDUCTION (R102): Internal operation combining per-layer square accumulators and returning W2 and U2. -/
  | trustRatioReduction (g : GladeId)
  /-- RING_CLOSE_BARRIER (R107): Internal operation in which fold-complete members enter with stale lists until the root completes. -/
  | ringCloseBarrier (g : GladeId)
  /-- RING_START_BARRIER (R52): Internal operation in which members enter the next ring, with epochs, wraps and plan readiness. -/
  | ringStartBarrier (g : GladeId)
  /-- TREE_ENTRY (R148): A child's tree result arrives and is combined, or refused and asked again. -/
  | treeEntry (g : GladeId) (child : Nat) (crcOk : Bool) (p : TreePayload)
  /-- MCAST_FALLBACK (R150): 8 µs after a multicast run, missing nodes are sent to by unicast. -/
  | mcastFallback (q : QueueId) (index : Nat) (missing : List Nat)
  /-- BEAT_TIMER (R161): Every 50 µs a member sends a grove beat if Ranger refreshed its watchdog. -/
  | beatTimer (g : GladeId)
  /-- GROVE_BEAT (R161): A grove beat arrives and records the slot's last beat time. -/
  | groveBeat (g : GladeId) (slot : Nat)
  /-- BEAT_SILENCE (R162): A slot's last beat passes 250 µs and the slot leaves sight. -/
  | beatSilence (g : GladeId) (slot : Nat)
  /-- SUSPICION_NOTICE (R162): A suspicion notice for a member arrives at a grove member. -/
  | suspicionNotice (g : GladeId) (lmn cause : Nat)
  /-- START (R164): An agreement START arrives; the member joins the agreement. -/
  | start (g : GladeId) (seq : Nat) (suspects : List Nat)
  /-- PROBE (R165): A member probes each suspect and spare on its schedule. -/
  | probe (g : GladeId)
  /-- PROBE_ANSWER (R165): A probe answer marks its suspect or spare reachable. -/
  | probeAnswer (g : GladeId) (spare : Bool) (target : Nat)
  /-- ROUND1_END (R165): Round 1 ends and the member sends its view. -/
  | round1End (g : GladeId)
  /-- VIEW (R166): A view or echoed view arrives and joins W. -/
  | view (g : GladeId) (v : View)
  /-- ROUND2_END (R171): Round 2 ends; the member forms W and fences itself without a majority. -/
  | round2End (g : GladeId)
  /-- DEC (R167): The decision arrives and is applied, settling lost slots and the ring. -/
  | dec (g : GladeId) (d : Decision)
  /-- DEC_DEADLINE (R170): No DEC by its deadline stops the agreement and starts SEQ + 1. -/
  | decDeadline (g : GladeId) (silent : List Nat)
  /-- FIREBREAK_SIGHT_TIMEOUT (R171): VIS below MAJ for 150 µs without a DEC naming the member fences it. -/
  | firebreakSightTimeout (g : GladeId)
  /-- FORCE (R174): A write of GRV_FENCE FORCE fences the member of a glade. -/
  | force (mask : BitVec 16)
  /-- FENCE_NOTICE (R174): A fence notice arrives and acts as detection source 8. -/
  | fenceNotice (g : GladeId) (lmn : Nat)
  /-- TAKEOVER (R176): A spare receives TAKEOVER, enables the glade and answers READY. -/
  | takeover (g : GladeId) (coord : Nat) (t : Takeover)
  /-- READY (R176): The coordinator receives READY and multicasts MAPUPDATE. -/
  | ready (g : GladeId) (lmn : Nat)
  /-- READY_TIMEOUT (R177): No READY within 80 µs skips the spare and tries the next. -/
  | readyTimeout (g : GladeId) (lmn : Nat)
  /-- MAPUPDATE (R178): A router applies a newer map update and drops traffic from the old PNID. -/
  | mapupdate (g : GladeId) (lmn pnid seq : Nat)
  /-- CLEARING_START (R184): The stand-in, once activated, starts serving the lost shard by reconstruction. -/
  | clearingStart (g : GladeId)
  /-- CLEARING_READ (R185): A read of a lost leaf is served by the stand-in from memory or by reconstruction. -/
  | clearingRead (g : GladeId) (lmn offset txid : Nat) (rows : List (List RowAnswer))
  /-- ROW_READ (R181): A member answers a row read with the line and its status word under the row lock. -/
  | rowRead (g : GladeId) (row line txid : Nat) (encode : Bool)
  /-- ROW_READ_ANSWER (R182): A row-read answer arrives and is used if consistent, or the read waits or changes survivor. -/
  | rowReadAnswer (g : GladeId) (unit : Nat) (a : RowAnswer)
  /-- ENCODE_PARITY (R183): A stale, unbuilt or rebuilt parity leaf is encoded from its row's data leaves. -/
  | encodeParity (g : GladeId) (p : Nat) (rows : List RowAnswer)
  /-- REBUILD_LEAF (R193): The stand-in rebuilds one leaf of its slot as a class 2 unit. -/
  | rebuildLeaf (g : GladeId) (parity : Bool) (index : Nat) (rows : List RowAnswer)
  /-- RECONCILE_SCAN (R190): A fold-complete surviving holder scans fold bits and reports rows to the stand-in. -/
  | reconcileScan (g : GladeId) (slot : Nat)
  /-- RECONCILE_REPORT (R191): The stand-in receives a holder's report and decides each row's ring. -/
  | reconcileReport (g : GladeId) (holder : Nat) (rows : List Nat)
  /-- RECONCILE_TIMEOUT (R190): A holder not reporting within 200 µs is taken as stale for those rows. -/
  | reconcileTimeout (g : GladeId) (holder : Nat)
  /-- DEADFALL_NOTICE (R197): A deadfall notice for a row arrives and affected members count it and act. -/
  | deadfallNotice (g : GladeId) (row : Nat)
  /-- REQUEST_RESEND (R234): An unanswered REQUEST is written again every 10 s. -/
  | requestResend (g : GladeId) (layer block : Nat)
  /-- PLAN_LOAD (R203): GRV_CPCMD LOAD reads, hashes and checks a Coppice plan. -/
  | planLoad (g : GladeId)
  /-- PLAN_ABORT (R214): GRV_CPCMD ABORT asks the plan leader to abort the glade's plan. -/
  | planAbort (g : GladeId)
  /-- BLOCK_COPY (R206): A current owner copies a block to its next owner under the row lock. -/
  | blockCopy (g : GladeId) (t : Nat)
  /-- COPY_ARRIVAL (R206): The next owner writes an arriving copy and rounds its working copy again. -/
  | copyArrival (g : GladeId) (sender layer block : Nat) (bytes : List Byte)
  /-- SHADOW (R207): A shadow of a copied block's change arrives and is applied at the next owner. -/
  | shadow (g : GladeId) (sender layer block : Nat) (bytes : List Byte)
  /-- SHADOW_END (R207): A shadow-end arrives at a next owner. -/
  | shadowEnd (g : GladeId) (sender : Nat)
  /-- NEXT_PARITY_BUILD (R209): A next-code parity leaf is built by encoding its row and held deltas are folded. -/
  | nextParityBuild (g : GladeId) (p : Nat) (rows : List RowAnswer)
  /-- SAPLING_PROBE (R215): The plan leader probes a suspected lost sapling and replaces or aborts. -/
  | saplingProbe (g : GladeId) (lmn : Nat) (answered ready : Bool)
  /-- PUBLISH_GO (R217): Setting GRV_WPCTL GO triggers a publish of the last committed ring. -/
  | publishGo (g : GladeId)
  /-- PUBLISH_START (R218): At the ring start after commit a publish sends START. -/
  | publishStart (g : GladeId)
  /-- PUBLISH_BLOCK (R218): A member sends one BLOCK record of a publish and updates its base. -/
  | publishBlock (g : GladeId) (t : Nat)
  /-- WP_START (R221): A receiver gets a publish START, relays it, clears the bitmap and sets STATE 2. -/
  | wpStart (r : WpRecord)
  /-- WP_BLOCK (R221): A receiver relays and applies a BLOCK record to its image. -/
  | wpBlock (r : WpRecord)
  /-- WP_END (R221): A receiver gets END; with all of them the image becomes current and DONE is set. -/
  | wpEnd (lmn : Nat) (r : WpRecord)
  /-- IMAGE_TIMEOUT (R221): Without all ENDs within 1 s of START the image becomes incomplete. -/
  | imageTimeout (img : ImageId)
  /-- IMAGE_ENABLE (R223): Setting GRV_WIMG EN allocates the image in the pool, evicting if needed. -/
  | imageEnable (img : ImageId)
  /-- IMAGE_LOAD (R222): GRV_WIMG LOAD sends LOADREQ for the stream to SRC. -/
  | imageLoad (img : ImageId)
  /-- LOADREQ (R222): SRC receives LOADREQ and sends its image or answers BUSY. -/
  | loadreq (requester stream : Nat)
  /-- IMAGE_ANSWER (R222): A loading receiver gets the image, BUSY or ABORTED. -/
  | imageAnswer (img : ImageId) (a : LoadAnswer)
  /-- LOAD_RETRY (R222): A refused load is retried after 1 ms, up to 8 times. -/
  | loadRetry (img : ImageId)
  /-- TOUCH (R220): GRV_WIMG TOUCH adds 1 to COUNT and stamps LAST. -/
  | touch (img : ImageId)
  /-- ORPHAN (R223): A receiver of ORPHAN sets its image to STATE 4. -/
  | orphan (stream : Nat)
  /-- SWEEP_START (R226): At the ring start after a due ring a Seedbank sweep starts or is skipped. -/
  | sweepStart (g : GladeId)
  /-- SWEEP_RECORD (R228): One BLOCK record of a sweep is written to the outgoing ring when room allows. -/
  | sweepRecord (g : GladeId)
  /-- RESTORE_RECORD (R232): Crioz consumes one record placed in the restore ring and checks and writes it. -/
  | restoreRecord (g : GladeId)
  /-- PERIOD_START (R239): Each lane starts a new period with an alignment marker, applying pending width changes. -/
  | periodStart (p : LinkId)
  /-- LANE_MARKER (R243): A marker on a lane advances hunt, candidate or locked state. -/
  | laneMarker (p : LinkId) (lane : LaneId) (m : Marker)
  /-- CDR_LOCK_LOSS (R244): RXCDRLOCK at 0 for 100 ns unlocks the lane. -/
  | cdrLockLoss (p : LinkId) (lane : LaneId)
  /-- DATA_FRAME (R250): A received data frame is checked and accepted, discarded or NAKed. -/
  | dataFrame (p : LinkId) (f : RxFrame)
  /-- IDLE (R246): IDLE control block received. -/
  | idle (p : LinkId)
  /-- PULSE (R257): A PULSE control block arrives and restarts the silence count. -/
  | pulse (p : LinkId) (pnid port counter : Nat)
  /-- ACK (R253): An ACK frees frames from the retry buffer. -/
  | ack (p : LinkId) (ackSeq : BitVec 16)
  /-- NAK (R255): A NAK makes the transmitter replay from E after 2 IDLE blocks. -/
  | nak (p : LinkId) (e : BitVec 16)
  /-- CREDIT (R275): A CREDIT control block returns router credits to their pools. -/
  | credit (p : LinkId) (reserved : List Nat) (shared : Nat)
  /-- WIDTH_REQ (R259): A WIDTH_REQ sets the lane mask the transmitter applies at its next period. -/
  | widthReq (p : LinkId) (mask : Byte) (attempt : Nat)
  /-- DOZE_REQ (R261): A DOZE_REQ is answered DOZE_ACK or DOZE_CANCEL. -/
  | dozeReq (p : LinkId)
  /-- DOZE_ACK (R261): A DOZE_ACK makes the requester idle its transmitters. -/
  | dozeAck (p : LinkId)
  /-- DOZE_CANCEL (R262): A DOZE_CANCEL keeps or returns the link active. -/
  | dozeCancel (p : LinkId)
  /-- TRAIN (R265): A TRAIN control block exchanges PNID, port, version and timestamps. -/
  | train (p : LinkId) (pnid port version : Nat) (locked : Byte) (stamp echo now : Nat)
  /-- ACK_TIMER (R254): 250 ns after an unreported acceptance, or 32 acceptances, an ACK is sent. -/
  | ackTimer (p : LinkId)
  /-- REPLAY_TIMEOUT (R255): No ACKSEQ advance for 4 µs replays from the oldest buffered frame. -/
  | replayTimeout (p : LinkId)
  /-- NAK_RESEND (R255): No frame E within 2 µs of a NAK sends the NAK again. -/
  | nakResend (p : LinkId)
  /-- PULSE_TIMER (R257): Every 2 µs an active direction sends a PULSE. -/
  | pulseTimer (p : LinkId)
  /-- LINK_SILENCE (R258): 32 µs without a valid PULSE declares link silence and notifies Ranger. -/
  | linkSilence (p : LinkId)
  /-- WIDTH_SWITCH_TIMEOUT (R259): No markers of the new width in 2 periods resends WIDTH_REQ or retrains. -/
  | widthSwitchTimeout (p : LinkId)
  /-- LANE_OFFER_BACK (R260): An excluded lane clean for 1 ms is offered back by WIDTH_REQ. -/
  | laneOfferBack (p : LinkId) (lane : LaneId)
  /-- DOZE_IDLE (R261): After IDLE µs of only control traffic a side sends DOZE_REQ. -/
  | dozeIdle (p : LinkId)
  /-- DOZE_REQ_TIMEOUT (R262): No answer within 2 µs of DOZE_REQ is taken as DOZE_CANCEL. -/
  | dozeReqTimeout (p : LinkId)
  /-- SIGNAL_LOSS (R261): The partner's signal falls on L_0 and the side enters doze. -/
  | signalLoss (p : LinkId)
  /-- WAKE_BURST (R263): A dozing side with traffic leaves idle and starts a wake burst. -/
  | wakeBurst (p : LinkId)
  /-- SIGNAL_DETECT (R263): RXSIGDET high for 512 ns in doze wakes the receiver. -/
  | signalDetect (p : LinkId)
  /-- FAST_RELOCK_TIMEOUT (R263): A lane not relocked within 2 µs of a wake starts a full relock. -/
  | fastRelockTimeout (p : LinkId) (lane : LaneId)
  /-- BEACON_TIMER (R264): Every 8 µs in doze a side sends a beacon on L_0. -/
  | beaconTimer (p : LinkId)
  /-- LINK_BEACON (R264): A short burst in doze is anchored as on time or a slip. -/
  | linkBeacon (p : LinkId) (timeNs : Nat)
  /-- BEACON_TIMEOUT (R264): 16.25 µs without a burst in doze wakes the link. -/
  | beaconTimeout (p : LinkId)
  /-- WAKE_TIMEOUT (R264): No wake burst answering within 4 µs declares link silence. -/
  | wakeTimeout (p : LinkId)
  /-- LINK_ENABLE (R265): A write of LNK EN = 1 starts training. -/
  | linkEnable (p : LinkId)
  /-- LINK_DOWN (R270): A write of LNK EN = 0 idles the transmitters and takes the link down. -/
  | linkDown (p : LinkId)
  /-- RETRAIN (R270): A write of RETRAIN starts training again. -/
  | retrain (p : LinkId)
  /-- TRAINING_TIMEOUT (R265): Training not active by 20 ms fails and schedules the next attempt. -/
  | trainingTimeout (p : LinkId)
  /-- TRAINING_RETRY (R265): The backoff after a failed training expires and training starts again. -/
  | trainingRetry (p : LinkId)
  /-- UNLOCK_TIMEOUT (R265): Every lane of a direction unlocked for 20 ms starts training. -/
  | unlockTimeout (p : LinkId)
  /-- LOAD_SAMPLE (R266): LOAD is measured over 1 ms and DUE set on entry to full load. -/
  | loadSample (p : LinkId) (slotsTx dataTx slotsRx dataRx : Nat)
  /-- TRIM_REQ (R267): A re-trim starts, taking one lane at a time. -/
  | trimReq (p : LinkId)
  /-- TRIM_DONE (R267): TRIMBUSY falls and the lane's 100 µs watch begins. -/
  | trimDone (p : LinkId)
  /-- TRIM_WATCH_END (R267): After 100 µs the lane is reverted if worse and offered back. -/
  | trimWatchEnd (p : LinkId) (before after : Nat)
  /-- MARGIN_CHECK (R420): Once per second each lane's counts are compared with thresholds and PRED set. -/
  | marginCheck (p : LinkId) (lane : LaneId) (corrected worst e4 e8 e12 : Nat)
  /-- ROUTE_FRAME (R276): The router delivers or forwards a frame to the best candidate port. -/
  | routeFrame (inPort : Fin 44) (f : Frame) (stomped : Bool)
  /-- ESCWAIT (R277): A frame waiting ESCWAIT cycles without credit takes the escape pair. -/
  | escwait (f : Frame)
  /-- CREDIT_TIMER (R275): 64 ns after an unreturned credit, a CREDIT block is sent. -/
  | creditTimer (p : LinkId)
  /-- LRD (R289): A line read arrives at its home and is served or refused. -/
  | lrd (f : Frame)
  /-- LRSP (R284): A read answer arrives at the requester. -/
  | lrsp (f : Frame)
  /-- ERR (R284): An error answer arrives at the requester. -/
  | err (f : Frame)
  /-- LWR (R289): A line write arrives at its home and is written or refused. -/
  | lwr (f : Frame)
  /-- LWACK (R284): A write acknowledgement arrives at the requester. -/
  | lwack (f : Frame)
  /-- INV (R290): An invalidation arrives, is delivered to host ports and answered INVACK. -/
  | inv (f : Frame)
  /-- INVACK (R291): An invalidation acknowledgement arrives at the home. -/
  | invack (f : Frame)
  /-- NOROUTE (R278): A NOROUTE arrives and raises detection source 3. -/
  | noroute (pnid : BitVec 16)
  /-- HMSG (R426): A host message is delivered unchanged to the named host interface. -/
  | hmsg (f : Frame)
  /-- REASM_TIMEOUT (R285): A message missing segments 500 µs after the first is discarded. -/
  | reasmTimeout (src txid : Nat)
  /-- INV_TIMEOUT (R291): An INVACK missing after 200 µs is abandoned and counted. -/
  | invTimeout (g : GladeId) (lmn txid : Nat)
  /-- PNID_WRITE (R274): A write of RTR_SELF PNID sets SET and lets waiting trainings start. -/
  | pnidWrite (value : Word)
  /-- HOST_FRAME (R426): A frame from host injection is completed and injected, or refused with ERR 5. -/
  | hostFrame (h : HostId) (f : Frame)
  /-- MP_RESPONSE (R295): A memory-port read or write response arrives with its tag and status. -/
  | mpResponse (q : PortId) (write : Bool) (tag : Nat) (line : BitVec 34) (use : MpUse) (status : MpStatus)
  /-- MP_TIMEOUT (R296): A request without a response in 100 µs is treated as UNCORR. -/
  | mpTimeout (q : PortId) (write : Bool) (tag : Nat) (line : BitVec 34) (use : MpUse)
  /-- PORT_DOWN (R296): Alive deassertion or repeated timeouts make the port DOWN. -/
  | portDown (q : PortId)
  /-- SRAM_PARITY_ERROR (R306): A failed SRAM word parity is counted and its lines settled. -/
  | sramParityError (t : TileId) (word : Fin 32768)
  /-- BUDGET_WINDOW (R310): Every 4,096 cycles the budget counters reset and set values latch. -/
  | budgetWindow
  /-- BUDGET_SET_WRITE (R311): A write to BGT_SET or BGT_TOTAL is checked and taken at the next window or ignored. -/
  | budgetSetWrite (total : Bool) (set : Fin 4) (cls : Fin 8) (value : Word)
  /-- SCRUB_LINE (R315): The scrubber reads one line and writes back a corrected one. -/
  | scrubLine (g : GladeId) (status : MpStatus) (line : List Byte)
  /-- AUDIT_START (R319): A write of BGT_AUDCTL EN = 1 starts an audit pass. -/
  | auditStart (value : Word)
  /-- AUDIT_UNIT (R316): The member audits one line of one row and repairs or re-encodes. -/
  | auditUnit (row line : Nat) (rows : List RowAnswer)
  /-- ENTER_MANUFACTURING (R323): FUS_LCCMD burns the transition from Blank to Manufacturing. -/
  | enterManufacturing (confirm : BitVec 32)
  /-- ENTER_PROVISIONED (R323): FUS_LCCMD burns DS and the transition to Provisioned. -/
  | enterProvisioned (confirm : BitVec 32)
  /-- ENTER_DEPLOYED (R323): FUS_LCCMD burns the transition from Provisioned to Deployed. -/
  | enterDeployed (confirm : BitVec 32)
  /-- ENTER_SCRAPPED (R323): FUS_LCCMD burns the transition to Scrapped. -/
  | enterScrapped (confirm : BitVec 32)
  /-- GROUP_BURN (R324): FUS_PCMD GO burns a fuse group and its CRC from memory. -/
  | groupBurn (group : Fin 4) (addr : BitVec 44)
  /-- BURN_DONE (R324): A fuse burn completes, clearing BUSY and setting RESULT. -/
  | burnDone
  /-- KEY_LOAD (R330): SEC_KLOAD GO checks a key blob and loads the key into its slot. -/
  | keyLoad (addr : BitVec 44)
  /-- DEBUG_UNLOCK (R340): An ACTION 1 token clears key slots, fences members and sets UNLOCK. -/
  | debugUnlock (addr : BitVec 44)
  /-- ENTER_RETURNED (R340): An ACTION 2 token burns the transition to Returned. -/
  | enterReturned (addr : BitVec 44)
  /-- REVOKE_IMAGE_KEY (R339): An ACTION 3 token burns the revocation of image key 0. -/
  | revokeImageKey (addr : BitVec 44)
  /-- BURN_IKH1 (R339): An ACTION 4 token burns group 2 with the given digest. -/
  | burnIkh1 (addr : BitVec 44)
  /-- PING (R374): Bus command returning GLB_ID, GLB_BOOT and SEC_DEVID. -/
  | busPing (bus : BusId) (pri : Fin 8) (seq : Byte) (payload : List Byte)
  /-- READ (R376): Bus command reading COUNT consecutive registers. -/
  | busRead (bus : BusId) (pri : Fin 8) (seq : Byte) (payload : List Byte)
  /-- WRITE (R377): Bus command writing one register unless closed to the bus. -/
  | busWrite (bus : BusId) (pri : Fin 8) (seq : Byte) (payload : List Byte)
  /-- EVREAD (R374): Bus command returning a recorder record by sequence number. -/
  | busEvread (bus : BusId) (pri : Fin 8) (seq : Byte) (payload : List Byte)
  /-- RESET (R379): Bus command resetting MAIN as SWRST. -/
  | busReset (bus : BusId) (pri : Fin 8) (seq : Byte) (payload : List Byte)
  /-- ISOLATE (R379): Bus command asserting FIREBREAK_OUT and holding MAIN in reset. -/
  | busIsolate (bus : BusId) (pri : Fin 8) (seq : Byte) (payload : List Byte)
  /-- RELEASE (R379): Bus command ending ISOLATE and letting MAIN start. -/
  | busRelease (bus : BusId) (pri : Fin 8) (seq : Byte) (payload : List Byte)
  /-- SUSPECT (R378): Bus command passing a glade and LMN to Ranger as detection source 7. -/
  | busSuspect (bus : BusId) (pri : Fin 8) (seq : Byte) (payload : List Byte)
  /-- DUPADDR (R371): A frame with DIR = 1 and the node's own address makes the bus SILENT. -/
  | dupaddr (bus : BusId)
  /-- NOTICE_SEND (R381): The highest-severity queued notice is sent when a token and a bus allow. -/
  | noticeSend
  /-- NOTICE_TOKEN_REFILL (R381): The notice token bucket refills at NRATE per second. -/
  | noticeTokenRefill
  /-- BUS_BEACON (R382): Every second each enabled bus carries a BEACON. -/
  | busBeacon
  /-- BUS_STATE_CHANGE (R383): The CAN controller changes fault-confinement state and the bus state follows. -/
  | busStateChange (bus : BusId) (can : CanState) (tec rec : Nat)
  /-- LONE (R384): A frame sent 16 times without acknowledgement is abandoned and the bus enters LONE. -/
  | lone (bus : BusId)
  /-- BENCHED_END (R383): After 10 s a benched controller rejoins. -/
  | benchedEnd (bus : BusId)
  /-- RESPONSE_HOLD_TIMEOUT (R385): A response held 2 ms without a usable bus is dropped. -/
  | responseHoldTimeout
  /-- RECORD_QUEUE (R391): The arbiter moves a record from a holding register into the ingress queue. -/
  | recordQueue
  /-- RECORD_STORE (R392): The store takes a record, assigns SEQ and may replace an older one. -/
  | recordStore
  /-- WINDOW_READ (R395): A register-port read of EVR_WIN latches the shown record. -/
  | windowRead (w : Fin 3)
  /-- WINDOW_ADVANCE (R395): A read of EVR_WIN[3] advances the cursor past the latched record. -/
  | windowAdvance
  /-- CURSOR_WRITE (R395): A write to EVR_CUR moves the cursor and drops the latch. -/
  | cursorWrite (value : Word)
  /-- ARM (R401): A write of ARM = 1 clears TAKEN and status and arms the waypoint. -/
  | arm (value : Word)
  /-- TRIG (R401): A write of TRIG is a waypoint trigger. -/
  | trig
  /-- WAYPOINT_IN (R401): A rising edge on WAYPOINT_IN is a waypoint trigger. -/
  | waypointIn
  /-- WAYPOINT_MESSAGE (R403): A waypoint message arrives and captures at once or at the target phase. -/
  | waypointMessage (g : GladeId) (origin : Nat) (target : Nat) (gphase : BitVec 16)
  /-- WAYPOINT_CAPTURE (R400): The snapshot slots capture their registers and WAYPOINT_OUT pulses. -/
  | waypointCapture
  /-- WAYPOINT_OUT_END (R401): WAYPOINT_OUT returns low 1 µs after a capture. -/
  | waypointOutEnd
  /-- HALT (R405): RGR_DCTL HALT fences joined members and halts Ranger, or waits for locks. -/
  | halt
  /-- FORCE_HALT (R405): RGR_DCTL FORCE halts Ranger and abandons its locks. -/
  | forceHalt (confirm : BitVec 32)
  /-- STEP (R405): RGR_DCTL STEP executes one Ranger instruction while halted. -/
  | rangerStep
  /-- RANGER_RESUME (R405): RGR_DCTL RESUME lets halted Ranger continue. -/
  | rangerResume
  /-- HALT_PROCEED (R405): A pending halt proceeds when LOCKS reaches 0. -/
  | haltProceed
  /-- HALT_PENDING_TIMEOUT (R405): A halt still pending after 1 ms writes a Warn record. -/
  | haltPendingTimeout
  /-- BREAKPOINT (R406): An enabled breakpoint halts Ranger before its instruction. -/
  | breakpoint (x : Fin 4)
  /-- DEBUG_MEMORY_ACCESS (R406): An access to RGR_DDATA reads or writes Ranger local memory, or errors while running. -/
  | debugMemoryAccess (write : Bool) (value : Word)
  /-- BIST_GO (R409): TST_CTL GO starts a logic BIST run or is refused with RESULT. -/
  | bistGo
  /-- BIST_DONE (R413): A BIST run ends; partitions are re-initialised and failures handled. -/
  | bistDone
  /-- LANE_TEST (R418): TST_LTEST GO starts a lane test of the selected links. -/
  | laneTest
  /-- LANE_TEST_DONE (R418): A lane test ends and sets NOPART and LFAIL. -/
  | laneTestDone (noPartner : BitVec 32) (failed : List (BitVec 8))
  /-- SITE_CHECK (R421): Once per second each sensor site compares droop and slack with thresholds. -/
  | siteCheck (x : Fin 8) (droops deepest slack leastSlack : Nat)
  /-- SRAM_READOUT (R415): A read of TST_SRDATA returns tile SRAM bytes, or errors when closed. -/
  | sramReadout
  /-- WS_BYPASS (R416): Wrapper instruction selecting the bypass register. -/
  | wsBypass
  /-- WS_EXTEST (R416): Wrapper instruction driving outputs and capturing inputs from the boundary register. -/
  | wsExtest
  /-- WS_PRELOAD (R416): Wrapper instruction loading the boundary register without driving. -/
  | wsPreload (cells : List Bool)
  /-- WS_CLAMP (R416): Wrapper instruction holding outputs at preloaded values. -/
  | wsClamp
  /-- WS_IDCODE (R417): Wrapper instruction selecting the identification register. -/
  | wsIdcode
  /-- WS_INTEST_SCAN (R416): Wrapper instruction connecting internal scan chains. -/
  | wsIntestScan
  /-- WS_BIST (R416): Wrapper instruction starting BIST as TST_CTL GO. -/
  | wsBist
  /-- DEPARTURE_NOTICE (R162): A departure notice from a member's Ranger arrives at a grove member and is taken as detection source 4. -/
  | departureNotice (g : GladeId) (lmn : Nat)
  /-- UNCORRECTABLE_CODEWORD (R244): A codeword on a lane fails to decode, is counted, spoils the frame it carries and may unlock the lane when 8 of the last 16 fail. -/
  | uncorrectableCodeword (p : LinkId) (lane : LaneId) (good : Nat)
  /-- HOST_CREDIT_RETURN (R275): Host compute returns VC2 or VC6 credits on HOUT_CRD_h, and waiting traffic toward the host may then proceed. -/
  | hostCreditReturn (h : HostId) (vc2 vc6 : Nat)
  /-- RST_N_RELEASE (R346): The deassertion of RST_N clears HELD and RSTIGN, and lets MAIN start when no other reset condition holds. -/
  | rstNRelease
  /-- COPY_ACK (R206): A next owner's acknowledgement of a block copy, shadow or shadow-end reaches the current owner, which releases the row lock and counts it toward readiness and fold-complete. -/
  | copyAck (g : GladeId) (sender layer block kind : Nat)
  deriving DecidableEq, Repr

end Sys2Proof
end

