-- ==== Sys2Proof/Config.lean ====
section
/-! DEFINITION. What the spec leaves open and what it takes from published standards: constants with no body, so that no
proof can see a value. `Config.freeWord` is applied to the counter `State.free`; the cryptographic functions are applied to
their operands. -/
namespace Sys2Proof

/-- A value that the spec does not state (see notes/assumptions/2.md). (DESIGN CHOICE, assumption 2.) -/
opaque Config.freeWord : Nat → Word

/-- A 384-bit value that the spec does not state: the entropy source's output (R323), among others. (DESIGN CHOICE, assumption 2.) -/
opaque Config.freeBits : Nat → BitVec 384

/-- SHA-384 (FIPS 180-4, R326). (PRESUMED, assumption 8.) -/
opaque Config.sha384 : List Byte → BitVec 384

/-- HMAC-SHA-384 of a message under a key (R326): the PRF of the KDF. (PRESUMED, assumption 8.) -/
opaque Config.hmacSha384 : List Byte → List Byte → BitVec 384

/-- AES-256-GCM encryption (R326): key, IV and plaintext to ciphertext. -/
opaque Config.gcmCrypt : BitVec 256 → BitVec 96 → List Byte → List Byte

/-- The AES-256-GCM tag (R326) of key, IV, authenticated data and ciphertext. -/
opaque Config.gcmTag : BitVec 256 → BitVec 96 → List Byte → List Byte → BitVec 128

/-- ECDSA P-384 verification with SHA-384 (R326): public key x ‖ y, message, signature r ‖ s. -/
opaque Config.ecdsaVerify : List Byte → List Byte → List Byte → Bool

/-- Whether 96 bytes x ‖ y are a P-384 point that R326 accepts. -/
opaque Config.p384Valid : List Byte → Bool

/-- The multiple d × G on P-384, as x ‖ y (R327). -/
opaque Config.p384Base : Nat → List Byte

/-- The x-coordinate of d × P on P-384, 48 bytes big-endian (R326). -/
opaque Config.p384Shared : Nat → List Byte → List Byte

/-- The order n of P-384 (R327, from FIPS 186-5): the constant of the standard, which the spec names and does not print. -/
opaque Config.p384Order : Nat

/-- The seed and expected signature of mask ROM for a partition kind (R410), at 2^PLOG patterns. -/
opaque Config.romSignature : Nat → Nat → Word

/-- The signature that a partition's scan chains give (R410): partition, seed, PLOG and the run's number.
(DESIGN CHOICE, assumption 63.) -/
opaque Config.bistSignature : Nat → Word → Nat → Nat → Word

end Sys2Proof
end

