-- ==== Sys2Proof/Machine/Regs.lean ====
section
/-! DEFINITION. The register map: every register of the 16 MiB window, its address, its fields with their
access codes (R7) and its reset value, from the chapter "Register index" (R433 to R451) and from the field
tables of the chapter that each register's docstring names. The names are the manual's own. -/
namespace Sys2Proof.Machine

/-- The access codes of R7; `rsv` marks a reserved field (R9). -/
inductive Acc where
  | ro | rw | wo | w1c | w1s | rc | rsv
  deriving DecidableEq, Repr

/-- A field of a register: its lowest bit and its width in bits. -/
structure Fld where
  lo : Nat
  width : Nat
  deriving DecidableEq, Repr

/-- One row of a field table. -/
structure FieldRow where
  lo : Nat
  width : Nat
  acc : Acc
  deriving DecidableEq, Repr

/-- One row of the register index. Instance (i, j) lies at `base + s1 * i + s2 * j`. -/
structure RegRow where
  base : Nat
  s1 : Nat
  n1 : Nat
  s2 : Nat
  n2 : Nat
  reset : Nat → Nat → Nat
  fields : List FieldRow

namespace R
/-- GLB_ID (R436). -/
def GLB_ID : Nat := 0x000000
/-- GLB_BOOT (R436). -/
def GLB_BOOT : Nat := 0x000008
/-- GLB_RSTCAUSE (R436). -/
def GLB_RSTCAUSE : Nat := 0x000010
/-- GLB_RSTCTL (R436). -/
def GLB_RSTCTL : Nat := 0x000018
/-- GLB_STORM (R436). -/
def GLB_STORM : Nat := 0x000020
/-- GLB_AOTIME (R436). -/
def GLB_AOTIME : Nat := 0x000028
/-- PHS_CTL (R437). -/
def PHS_CTL : Nat := 0x010000
/-- PHS_SEL (R437). -/
def PHS_SEL : Nat := 0x010008
/-- PHS_ADV (R437). -/
def PHS_ADV : Nat := 0x010010
/-- PHS_STATUS (R437). -/
def PHS_STATUS : Nat := 0x010018
/-- PHS_ERR (R437). -/
def PHS_ERR : Nat := 0x010020
/-- PHS_GSEG[g] (R437). -/
def PHS_GSEG (g : Nat) : Nat := 0x010100 + 0x8 * g
/-- PHS_GSTAT[g] (R437). -/
def PHS_GSTAT (g : Nat) : Nat := 0x010180 + 0x8 * g
/-- PHS_TBL[e] (R437). -/
def PHS_TBL (e : Nat) : Nat := 0x010800 + 0x8 * e
/-- GLD[g]_CTL (R438). -/
def GLD_CTL (g : Nat) : Nat := 0x020000 + 0x1000 * g
/-- GLD[g]_MEMBER (R438). -/
def GLD_MEMBER (g : Nat) : Nat := 0x020008 + 0x1000 * g
/-- GLD[g]_LAYERS (R438). -/
def GLD_LAYERS (g : Nat) : Nat := 0x020010 + 0x1000 * g
/-- GLD[g]_LAYERHASH (R438). -/
def GLD_LAYERHASH (g : Nat) : Nat := 0x020018 + 0x1000 * g
/-- GLD[g]_REGION[x] (R438). -/
def GLD_REGION (g : Nat) (x : Nat) : Nat := 0x020020 + 0x1000 * g + 0x8 * x
/-- GLD[g]_RING (R438). -/
def GLD_RING (g : Nat) : Nat := 0x020080 + 0x1000 * g
/-- GLD[g]_STATUS (R438). -/
def GLD_STATUS (g : Nat) : Nat := 0x020088 + 0x1000 * g
/-- GLD[g]_JHWM (R438). -/
def GLD_JHWM (g : Nat) : Nat := 0x020090 + 0x1000 * g
/-- GLD[g]_SIZE (R438). -/
def GLD_SIZE (g : Nat) : Nat := 0x020098 + 0x1000 * g
/-- GLD[g]_NREGION[x] (R438). -/
def GLD_NREGION (g : Nat) (x : Nat) : Nat := 0x0200A0 + 0x1000 * g + 0x8 * x
/-- GLD[g]_SBCTL (R438). -/
def GLD_SBCTL (g : Nat) : Nat := 0x020100 + 0x1000 * g
/-- GLD[g]_SBAT (R438). -/
def GLD_SBAT (g : Nat) : Nat := 0x020108 + 0x1000 * g
/-- GLD[g]_SBOUT (R438). -/
def GLD_SBOUT (g : Nat) : Nat := 0x020110 + 0x1000 * g
/-- GLD[g]_SBOPTR (R438). -/
def GLD_SBOPTR (g : Nat) : Nat := 0x020118 + 0x1000 * g
/-- GLD[g]_SBIN (R438). -/
def GLD_SBIN (g : Nat) : Nat := 0x020120 + 0x1000 * g
/-- GLD[g]_SBIPTR (R438). -/
def GLD_SBIPTR (g : Nat) : Nat := 0x020128 + 0x1000 * g
/-- GLD[g]_SBSTAT (R438). -/
def GLD_SBSTAT (g : Nat) : Nat := 0x020130 + 0x1000 * g
/-- GLD[g]_SBRING (R438). -/
def GLD_SBRING (g : Nat) : Nat := 0x020138 + 0x1000 * g
/-- GLD[g]_SBERR (R438). -/
def GLD_SBERR (g : Nat) : Nat := 0x020140 + 0x1000 * g
/-- GRV_ROWCFG[g] (R439). -/
def GRV_ROWCFG (g : Nat) : Nat := 0x040000 + 0x8 * g
/-- GRV_NEXTCFG[g] (R439). -/
def GRV_NEXTCFG (g : Nat) : Nat := 0x040080 + 0x8 * g
/-- GRV_FOLDSTAT[g] (R439). -/
def GRV_FOLDSTAT (g : Nat) : Nat := 0x040100 + 0x8 * g
/-- GRV_THIN[g] (R439). -/
def GRV_THIN (g : Nat) : Nat := 0x040180 + 0x8 * g
/-- GRV_WIT (R439). -/
def GRV_WIT : Nat := 0x040200
/-- GRV_FENCE (R439). -/
def GRV_FENCE : Nat := 0x040208
/-- GRV_CLRCNT (R439). -/
def GRV_CLRCNT : Nat := 0x040210
/-- GRV_MSTAT[g] (R439). -/
def GRV_MSTAT (g : Nat) : Nat := 0x040280 + 0x8 * g
/-- GRV_LOST[g] (R439). -/
def GRV_LOST (g : Nat) : Nat := 0x040300 + 0x8 * g
/-- GRV_RBLD[g] (R439). -/
def GRV_RBLD (g : Nat) : Nat := 0x040380 + 0x8 * g
/-- GRV_DEAD[g] (R439). -/
def GRV_DEAD (g : Nat) : Nat := 0x040400 + 0x8 * g
/-- GRV_SPAREV[g] (R439). -/
def GRV_SPAREV (g : Nat) : Nat := 0x040500 + 0x8 * g
/-- GRV_SPARE[g][x] (R439). -/
def GRV_SPARE (g : Nat) (x : Nat) : Nat := 0x040600 + 0x20 * g + 0x8 * x
/-- GRV_CPADDR (R439). -/
def GRV_CPADDR : Nat := 0x040800
/-- GRV_CPCMD (R439). -/
def GRV_CPCMD : Nat := 0x040808
/-- GRV_CPSTAT[g] (R439). -/
def GRV_CPSTAT (g : Nat) : Nat := 0x040840 + 0x8 * g
/-- GRV_CPRING[g] (R439). -/
def GRV_CPRING (g : Nat) : Nat := 0x0408C0 + 0x8 * g
/-- GRV_CPPROG[g] (R439). -/
def GRV_CPPROG (g : Nat) : Nat := 0x040940 + 0x8 * g
/-- GRV_WPCTL[g] (R439). -/
def GRV_WPCTL (g : Nat) : Nat := 0x041000 + 0x8 * g
/-- GRV_WPBASE[g] (R439). -/
def GRV_WPBASE (g : Nat) : Nat := 0x041080 + 0x8 * g
/-- GRV_WPKIDS[g] (R439). -/
def GRV_WPKIDS (g : Nat) : Nat := 0x041100 + 0x8 * g
/-- GRV_WPRING[g] (R439). -/
def GRV_WPRING (g : Nat) : Nat := 0x041180 + 0x8 * g
/-- GRV_WIMG[i]_CTL (R439). -/
def GRV_WIMG_CTL (i : Nat) : Nat := 0x041400 + 0x20 * i
/-- GRV_WIMG[i]_BASE (R439). -/
def GRV_WIMG_BASE (i : Nat) : Nat := 0x041408 + 0x20 * i
/-- GRV_WIMG[i]_GEN (R439). -/
def GRV_WIMG_GEN (i : Nat) : Nat := 0x041410 + 0x20 * i
/-- GRV_WIMG[i]_USE (R439). -/
def GRV_WIMG_USE (i : Nat) : Nat := 0x041418 + 0x20 * i
/-- GRV_WIMG[i]_KIDS (R439). -/
def GRV_WIMG_KIDS (i : Nat) : Nat := 0x041600 + 0x8 * i
/-- GRV_WPOOL (R439). -/
def GRV_WPOOL : Nat := 0x041680
/-- GRV_JOIN[g] (R439). -/
def GRV_JOIN (g : Nat) : Nat := 0x041700 + 0x8 * g
/-- STP_VSEL (R440). -/
def STP_VSEL : Nat := 0x080000
/-- STP_VREC[w] (R440). -/
def STP_VREC (w : Nat) : Nat := 0x080010 + 0x8 * w
/-- STP_GCTL[g] (R440). -/
def STP_GCTL (g : Nat) : Nat := 0x080100 + 0x8 * g
/-- STP_GSTAT[g] (R440). -/
def STP_GSTAT (g : Nat) : Nat := 0x080180 + 0x8 * g
/-- STP_SEEDLO[g] (R440). -/
def STP_SEEDLO (g : Nat) : Nat := 0x080200 + 0x8 * g
/-- STP_SEEDHI[g] (R440). -/
def STP_SEEDHI (g : Nat) : Nat := 0x080280 + 0x8 * g
/-- STP_CNT[g] (R440). -/
def STP_CNT (g : Nat) : Nat := 0x080300 + 0x8 * g
/-- STP_SCAL[g][x] (R440). -/
def STP_SCAL (g : Nat) (x : Nat) : Nat := 0x080400 + 0x40 * g + 0x8 * x
/-- STP_SLOT[s] (R440). -/
def STP_SLOT (s : Nat) : Nat := 0x080800 + 0x8 * s
/-- STP_PMEM[w] (R440). -/
def STP_PMEM (w : Nat) : Nat := 0x081000 + 0x8 * w
/-- CQ_CTL (R441). -/
def CQ_CTL : Nat := 0x0C0000
/-- CQ_STATUS (R441). -/
def CQ_STATUS : Nat := 0x0C0008
/-- CQ_ALGO (R441). -/
def CQ_ALGO : Nat := 0x0C0010
/-- CQ_VCWT[x] (R441). -/
def CQ_VCWT (x : Nat) : Nat := 0x0C0020 + 0x8 * x
/-- CQ_GSRC[g] (R441). -/
def CQ_GSRC (g : Nat) : Nat := 0x0C0100 + 0x8 * g
/-- CQ_GSHAPE[g] (R441). -/
def CQ_GSHAPE (g : Nat) : Nat := 0x0C0180 + 0x8 * g
/-- CQ_QBASE[q] (R441). -/
def CQ_QBASE (q : Nat) : Nat := 0x0C0200 + 0x20 * q
/-- CQ_QTAIL[q] (R441). -/
def CQ_QTAIL (q : Nat) : Nat := 0x0C0208 + 0x20 * q
/-- CQ_QSTAT[q] (R441). -/
def CQ_QSTAT (q : Nat) : Nat := 0x0C0210 + 0x20 * q
/-- CQ_QCTL[q] (R441). -/
def CQ_QCTL (q : Nat) : Nat := 0x0C0218 + 0x20 * q
/-- CQ_TOK[x] (R441). -/
def CQ_TOK (x : Nat) : Nat := 0x0C0400 + 0x8 * x
/-- TIL[t]_STATUS (R442). -/
def TIL_STATUS (t : Nat) : Nat := 0x100000 + 0x1000 * t
/-- TIL[t]_EXC (R442). -/
def TIL_EXC (t : Nat) : Nat := 0x100008 + 0x1000 * t
/-- TIL[t]_CTX (R442). -/
def TIL_CTX (t : Nat) : Nat := 0x100010 + 0x1000 * t
/-- TIL[t]_GANG (R442). -/
def TIL_GANG (t : Nat) : Nat := 0x100018 + 0x1000 * t
/-- TIL[t]_WORK (R442). -/
def TIL_WORK (t : Nat) : Nat := 0x100020 + 0x1000 * t
/-- TIL[t]_RNGIN[w] (R442). -/
def TIL_RNGIN (t : Nat) (w : Nat) : Nat := 0x100040 + 0x1000 * t + 0x8 * w
/-- TIL[t]_RNGOUT0 (R442). -/
def TIL_RNGOUT0 (t : Nat) : Nat := 0x100060 + 0x1000 * t
/-- TIL[t]_RNGOUT1 (R442). -/
def TIL_RNGOUT1 (t : Nat) : Nat := 0x100068 + 0x1000 * t
/-- TIL[t]_SRAMCFG (R442). -/
def TIL_SRAMCFG (t : Nat) : Nat := 0x100200 + 0x1000 * t
/-- TIL[t]_SRAMSTAT (R442). -/
def TIL_SRAMSTAT (t : Nat) : Nat := 0x100208 + 0x1000 * t
/-- TIL[t]_STAGE (R442). -/
def TIL_STAGE (t : Nat) : Nat := 0x100210 + 0x1000 * t
/-- TIL[t]_PERR (R442). -/
def TIL_PERR (t : Nat) : Nat := 0x100218 + 0x1000 * t
/-- TIL[t]_REMAP[x] (R442). -/
def TIL_REMAP (t : Nat) (x : Nat) : Nat := 0x100300 + 0x1000 * t + 0x8 * x
/-- RTR_SELF (R443). -/
def RTR_SELF : Nat := 0x140000
/-- RTR_SHAPE (R443). -/
def RTR_SHAPE : Nat := 0x140008
/-- RTR_CTL (R443). -/
def RTR_CTL : Nat := 0x140010
/-- RTR_THROT (R443). -/
def RTR_THROT : Nat := 0x140018
/-- RTR_PORTUP (R443). -/
def RTR_PORTUP : Nat := 0x140020
/-- RTR_DROP (R443). -/
def RTR_DROP : Nat := 0x140028
/-- RTR_XSTAT (R443). -/
def RTR_XSTAT : Nat := 0x140030
/-- RTR_MAPADDR (R443). -/
def RTR_MAPADDR : Nat := 0x140038
/-- RTR_MAPDATA (R443). -/
def RTR_MAPDATA : Nat := 0x140040
/-- RTR_MAPCFG[g] (R443). -/
def RTR_MAPCFG (g : Nat) : Nat := 0x140080 + 0x8 * g
/-- RTR_SPAN[g] (R443). -/
def RTR_SPAN (g : Nat) : Nat := 0x140100 + 0x8 * g
/-- LNK[p]_CTL (R444). -/
def LNK_CTL (p : Nat) : Nat := 0x180000 + 0x1000 * p
/-- LNK[p]_STATUS (R444). -/
def LNK_STATUS (p : Nat) : Nat := 0x180008 + 0x1000 * p
/-- LNK[p]_WIDTH (R444). -/
def LNK_WIDTH (p : Nat) : Nat := 0x180010 + 0x1000 * p
/-- LNK[p]_DOZE (R444). -/
def LNK_DOZE (p : Nat) : Nat := 0x180018 + 0x1000 * p
/-- LNK[p]_TRIM (R444). -/
def LNK_TRIM (p : Nat) : Nat := 0x180020 + 0x1000 * p
/-- LNK[p]_PEER (R444). -/
def LNK_PEER (p : Nat) : Nat := 0x180028 + 0x1000 * p
/-- LNK[p]_ERR (R444). -/
def LNK_ERR (p : Nat) : Nat := 0x180030 + 0x1000 * p
/-- LNK[p]_RETRY (R444). -/
def LNK_RETRY (p : Nat) : Nat := 0x180038 + 0x1000 * p
/-- LNK[p]_FEC (R444). -/
def LNK_FEC (p : Nat) : Nat := 0x180040 + 0x1000 * p
/-- LNK[p]_LMARG[i] (R444). -/
def LNK_LMARG (p : Nat) (i : Nat) : Nat := 0x180200 + 0x1000 * p + 0x10 * i
/-- LNK[p]_LHIST[i] (R444). -/
def LNK_LHIST (p : Nat) (i : Nat) : Nat := 0x180208 + 0x1000 * p + 0x10 * i
/-- MPT[q]_SIZE (R445). -/
def MPT_SIZE (q : Nat) : Nat := 0x1C0000 + 0x100 * q
/-- MPT[q]_STAT (R445). -/
def MPT_STAT (q : Nat) : Nat := 0x1C0008 + 0x100 * q
/-- MPT[q]_ERR (R445). -/
def MPT_ERR (q : Nat) : Nat := 0x1C0010 + 0x100 * q
/-- MPT[q]_WW (R445). -/
def MPT_WW (q : Nat) : Nat := 0x1C0018 + 0x100 * q
/-- MPT[q]_WWPEND (R445). -/
def MPT_WWPEND (q : Nat) : Nat := 0x1C0020 + 0x100 * q
/-- MPT_TOP (R445). -/
def MPT_TOP : Nat := 0x1C0800
/-- BGT_CTL (R445). -/
def BGT_CTL : Nat := 0x1C1000
/-- BGT_SET[s][c] (R445). -/
def BGT_SET (s : Nat) (c : Nat) : Nat := 0x1C1100 + 0x40 * s + 0x8 * c
/-- BGT_TOTAL[s] (R445). -/
def BGT_TOTAL (s : Nat) : Nat := 0x1C1200 + 0x8 * s
/-- BGT_USE[c] (R445). -/
def BGT_USE (c : Nat) : Nat := 0x1C1280 + 0x8 * c
/-- BGT_SHORT (R445). -/
def BGT_SHORT : Nat := 0x1C12C0
/-- BGT_SCRUB (R445). -/
def BGT_SCRUB : Nat := 0x1C1300
/-- BGT_AUDCTL (R445). -/
def BGT_AUDCTL : Nat := 0x1C1308
/-- BGT_AUDSUM[w] (R445). -/
def BGT_AUDSUM (w : Nat) : Nat := 0x1C1320 + 0x8 * w
/-- SEC_STATUS (R446). -/
def SEC_STATUS : Nat := 0x200000
/-- SEC_DEVID (R446). -/
def SEC_DEVID : Nat := 0x200008
/-- SEC_KLOAD (R446). -/
def SEC_KLOAD : Nat := 0x200010
/-- SEC_SEAL (R446). -/
def SEC_SEAL : Nat := 0x200018
/-- SEC_ERR (R446). -/
def SEC_ERR : Nat := 0x200020
/-- SEC_CHAL (R446). -/
def SEC_CHAL : Nat := 0x200028
/-- SEC_TOKEN (R446). -/
def SEC_TOKEN : Nat := 0x200030
/-- SEC_DEVPUB[w] (R446). -/
def SEC_DEVPUB (w : Nat) : Nat := 0x200040 + 0x8 * w
/-- SEC_KSLOT[x] (R446). -/
def SEC_KSLOT (x : Nat) : Nat := 0x200100 + 0x8 * x
/-- SEC_KSTRM[x] (R446). -/
def SEC_KSTRM (x : Nat) : Nat := 0x200200 + 0x8 * x
/-- FUS_LCS (R446). -/
def FUS_LCS : Nat := 0x201000
/-- FUS_LCCMD (R446). -/
def FUS_LCCMD : Nat := 0x201008
/-- FUS_TILEMAP (R446). -/
def FUS_TILEMAP : Nat := 0x201010
/-- FUS_POLICY (R446). -/
def FUS_POLICY : Nat := 0x201018
/-- FUS_IKREV (R446). -/
def FUS_IKREV : Nat := 0x201020
/-- FUS_PCMD (R446). -/
def FUS_PCMD : Nat := 0x201028
/-- FUS_IKH[w] (R446). -/
def FUS_IKH (w : Nat) : Nat := 0x201040 + 0x8 * w
/-- RGR_DCTL (R447). -/
def RGR_DCTL : Nat := 0x240000
/-- RGR_DSTAT (R447). -/
def RGR_DSTAT : Nat := 0x240008
/-- RGR_PC (R447). -/
def RGR_PC : Nat := 0x240010
/-- RGR_DADDR (R447). -/
def RGR_DADDR : Nat := 0x240018
/-- RGR_DDATA (R447). -/
def RGR_DDATA : Nat := 0x240020
/-- RGR_BKPT[x] (R447). -/
def RGR_BKPT (x : Nat) : Nat := 0x240040 + 0x8 * x
/-- NVM_STATUS (R448). -/
def NVM_STATUS : Nat := 0x280000
/-- NVM_CMD (R448). -/
def NVM_CMD : Nat := 0x280008
/-- NVM_REC (R448). -/
def NVM_REC : Nat := 0x280010
/-- NVM_ERR (R448). -/
def NVM_ERR : Nat := 0x280018
/-- NVM_BUF[w] (R448). -/
def NVM_BUF (w : Nat) : Nat := 0x280100 + 0x8 * w
/-- MGB_CTL (R449). -/
def MGB_CTL : Nat := 0x2C0000
/-- MGB_STATUS (R449). -/
def MGB_STATUS : Nat := 0x2C0008
/-- MGB_ERRA (R449). -/
def MGB_ERRA : Nat := 0x2C0010
/-- MGB_ERRB (R449). -/
def MGB_ERRB : Nat := 0x2C0018
/-- MGB_CNT (R449). -/
def MGB_CNT : Nat := 0x2C0020
/-- MGB_NOTE (R449). -/
def MGB_NOTE : Nat := 0x2C0028
/-- EVR_CTL (R450). -/
def EVR_CTL : Nat := 0x300000
/-- EVR_STATUS (R450). -/
def EVR_STATUS : Nat := 0x300008
/-- EVR_NEXT (R450). -/
def EVR_NEXT : Nat := 0x300010
/-- EVR_LOST (R450). -/
def EVR_LOST : Nat := 0x300018
/-- EVR_OVW (R450). -/
def EVR_OVW : Nat := 0x300020
/-- EVR_CUR (R450). -/
def EVR_CUR : Nat := 0x300028
/-- EVR_WIN[w] (R450). -/
def EVR_WIN (w : Nat) : Nat := 0x300030 + 0x8 * w
/-- EVR_LASTW[w] (R450). -/
def EVR_LASTW (w : Nat) : Nat := 0x300050 + 0x8 * w
/-- EVR_LASTST (R450). -/
def EVR_LASTST : Nat := 0x300068
/-- WPT_CTL (R450). -/
def WPT_CTL : Nat := 0x340000
/-- WPT_STAT (R450). -/
def WPT_STAT : Nat := 0x340008
/-- WPT_RING (R450). -/
def WPT_RING : Nat := 0x340010
/-- WPT_TIME (R450). -/
def WPT_TIME : Nat := 0x340018
/-- WPT_MAP[x] (R450). -/
def WPT_MAP (x : Nat) : Nat := 0x344000 + 0x8 * x
/-- WPT_SNAP[x] (R450). -/
def WPT_SNAP (x : Nat) : Nat := 0x348000 + 0x8 * x
/-- TST_CTL (R451). -/
def TST_CTL : Nat := 0x380000
/-- TST_STATUS (R451). -/
def TST_STATUS : Nat := 0x380008
/-- TST_SELT (R451). -/
def TST_SELT : Nat := 0x380010
/-- TST_SELX (R451). -/
def TST_SELX : Nat := 0x380018
/-- TST_SEED (R451). -/
def TST_SEED : Nat := 0x380020
/-- TST_EXP (R451). -/
def TST_EXP : Nat := 0x380028
/-- TST_FAILT (R451). -/
def TST_FAILT : Nat := 0x380030
/-- TST_FAILX (R451). -/
def TST_FAILX : Nat := 0x380038
/-- TST_SIG (R451). -/
def TST_SIG : Nat := 0x380040
/-- TST_LTEST (R451). -/
def TST_LTEST : Nat := 0x380048
/-- TST_MTHR (R451). -/
def TST_MTHR : Nat := 0x380050
/-- TST_SRADDR (R451). -/
def TST_SRADDR : Nat := 0x380058
/-- TST_SRDATA (R451). -/
def TST_SRDATA : Nat := 0x380060
/-- TST_SITE[x] (R451). -/
def TST_SITE (x : Nat) : Nat := 0x380100 + 0x8 * x
end R

namespace F
/-- R349. -/
def GLB_ID_PART : Fld := ⟨0, 16⟩
/-- R349. -/
def GLB_ID_STEP : Fld := ⟨16, 8⟩
/-- R349. -/
def GLB_ID_GRADE : Fld := ⟨24, 1⟩
/-- R349. -/
def GLB_BOOT_STAGE : Fld := ⟨0, 4⟩
/-- R349. -/
def GLB_BOOT_ERR : Fld := ⟨4, 8⟩
/-- R349. -/
def GLB_BOOT_SLOT : Fld := ⟨12, 1⟩
/-- R349. -/
def GLB_BOOT_CFGCOPY : Fld := ⟨13, 1⟩
/-- R349. -/
def GLB_BOOT_UNSIGNED : Fld := ⟨14, 1⟩
/-- R349. -/
def GLB_BOOT_LOADMS : Fld := ⟨16, 16⟩
/-- R349. -/
def GLB_BOOT_VERSION : Fld := ⟨32, 32⟩
/-- R349. -/
def GLB_RSTCAUSE_POR : Fld := ⟨0, 1⟩
/-- R349. -/
def GLB_RSTCAUSE_PIN : Fld := ⟨1, 1⟩
/-- R349. -/
def GLB_RSTCAUSE_WDOG : Fld := ⟨2, 1⟩
/-- R349. -/
def GLB_RSTCAUSE_CMD : Fld := ⟨3, 1⟩
/-- R349. -/
def GLB_RSTCAUSE_HELD : Fld := ⟨4, 1⟩
/-- R349. -/
def GLB_RSTCAUSE_GLITCH : Fld := ⟨8, 8⟩
/-- R349. -/
def GLB_RSTCAUSE_HELDMS : Fld := ⟨16, 32⟩
/-- R349. -/
def GLB_RSTCTL_RSTIGN : Fld := ⟨0, 1⟩
/-- R349. -/
def GLB_RSTCTL_SWRST : Fld := ⟨1, 1⟩
/-- R349. -/
def GLB_RSTCTL_HOCLR : Fld := ⟨2, 1⟩
/-- R349. -/
def GLB_RSTCTL_CONFIRM : Fld := ⟨32, 32⟩
/-- R349. -/
def GLB_STORM_COUNT : Fld := ⟨0, 8⟩
/-- R349. -/
def GLB_STORM_LEVEL : Fld := ⟨8, 4⟩
/-- R349. -/
def GLB_STORM_HOLD : Fld := ⟨12, 1⟩
/-- R349. -/
def GLB_STORM_HOLDLEFT : Fld := ⟨16, 16⟩
/-- R349. -/
def GLB_STORM_STARTS : Fld := ⟨32, 32⟩
/-- R349. -/
def GLB_AOTIME_US : Fld := ⟨0, 64⟩
/-- R47. -/
def PHS_CTL_SRC : Fld := ⟨0, 1⟩
/-- R47. -/
def PHS_SEL_GLADE : Fld := ⟨0, 4⟩
/-- R47. -/
def PHS_ADV_VALUE : Fld := ⟨0, 16⟩
/-- R48. -/
def PHS_STATUS_COPY : Fld := ⟨0, 24⟩
/-- R48. -/
def PHS_STATUS_GLADE : Fld := ⟨24, 4⟩
/-- R47. -/
def PHS_ERR_REGR : Fld := ⟨0, 16⟩
/-- R47. -/
def PHS_ERR_IGN : Fld := ⟨16, 16⟩
/-- R47. -/
def PHS_ERR_BADSEL : Fld := ⟨32, 1⟩
/-- R47. -/
def PHS_ERR_RINGEND : Fld := ⟨33, 1⟩
/-- R55. -/
def PHS_GSEG_BASE : Fld := ⟨0, 6⟩
/-- R55. -/
def PHS_GSEG_COUNT : Fld := ⟨8, 7⟩
/-- R55. -/
def PHS_GSEG_DFLCLS : Fld := ⟨16, 8⟩
/-- R55. -/
def PHS_GSEG_DFLSET : Fld := ⟨24, 2⟩
/-- R48. -/
def PHS_GSTAT_PHASE : Fld := ⟨0, 16⟩
/-- R48. -/
def PHS_GSTAT_ENTRY : Fld := ⟨16, 6⟩
/-- R48. -/
def PHS_GSTAT_NOMATCH : Fld := ⟨22, 1⟩
/-- R48. -/
def PHS_GSTAT_HOLD : Fld := ⟨23, 1⟩
/-- R55. -/
def PHS_TBL_START : Fld := ⟨0, 16⟩
/-- R55. -/
def PHS_TBL_END : Fld := ⟨16, 16⟩
/-- R55. -/
def PHS_TBL_CLASSES : Fld := ⟨32, 8⟩
/-- R55. -/
def PHS_TBL_BSET : Fld := ⟨40, 2⟩
/-- R55. -/
def PHS_TBL_VALID : Fld := ⟨42, 1⟩
/-- R55. -/
def PHS_TBL_WAYPT : Fld := ⟨43, 1⟩
/-- R23. -/
def GLD_CTL_EN : Fld := ⟨0, 1⟩
/-- R23. -/
def GLD_CTL_MODE : Fld := ⟨1, 1⟩
/-- R23. -/
def GLD_CTL_MOMENTS : Fld := ⟨2, 2⟩
/-- R23. -/
def GLD_CTL_WCFMT : Fld := ⟨4, 1⟩
/-- R23. -/
def GLD_CTL_K : Fld := ⟨8, 5⟩
/-- R23. -/
def GLD_CTL_M : Fld := ⟨13, 3⟩
/-- R24. -/
def GLD_MEMBER_LMN : Fld := ⟨0, 16⟩
/-- R24. -/
def GLD_MEMBER_SM1 : Fld := ⟨16, 16⟩
/-- R24. -/
def GLD_LAYERS_COUNT : Fld := ⟨0, 15⟩
/-- R25. -/
def GLD_LAYERHASH_HASH : Fld := ⟨0, 64⟩
/-- R24. -/
def GLD_REGION_BASE : Fld := ⟨0, 32⟩
/-- R24. -/
def GLD_REGION_SIZE : Fld := ⟨32, 32⟩
/-- R24. -/
def GLD_RING_RING : Fld := ⟨0, 64⟩
/-- R25. -/
def GLD_STATUS_ACTIVE : Fld := ⟨0, 1⟩
/-- R25. -/
def GLD_STATUS_ENERR : Fld := ⟨4, 4⟩
/-- R25. -/
def GLD_STATUS_JOVF : Fld := ⟨8, 1⟩
/-- R25. -/
def GLD_STATUS_UOVF : Fld := ⟨9, 1⟩
/-- R25. -/
def GLD_STATUS_WWHIT : Fld := ⟨10, 1⟩
/-- R25. -/
def GLD_JHWM_HJ_HWM : Fld := ⟨0, 32⟩
/-- R25. -/
def GLD_JHWM_UJ_HWM : Fld := ⟨32, 32⟩
/-- R25. -/
def GLD_SIZE_BLOCKS : Fld := ⟨0, 32⟩
/-- R25. -/
def GLD_SIZE_DLEAVES : Fld := ⟨32, 32⟩
/-- R202. -/
def GLD_NREGION_BASE : Fld := ⟨0, 32⟩
/-- R202. -/
def GLD_NREGION_SIZE : Fld := ⟨32, 32⟩
/-- R224. -/
def GLD_SBCTL_EN : Fld := ⟨0, 1⟩
/-- R224. -/
def GLD_SBCTL_FULLMOM : Fld := ⟨1, 1⟩
/-- R224. -/
def GLD_SBCTL_STRICT : Fld := ⟨2, 1⟩
/-- R224. -/
def GLD_SBCTL_LOADALL : Fld := ⟨3, 1⟩
/-- R224. -/
def GLD_SBCTL_EVERY : Fld := ⟨8, 16⟩
/-- R224. -/
def GLD_SBCTL_TARGET : Fld := ⟨24, 16⟩
/-- R224. -/
def GLD_SBAT_RING : Fld := ⟨0, 64⟩
/-- R224. -/
def GLD_SBOUT_BASE : Fld := ⟨0, 32⟩
/-- R224. -/
def GLD_SBOUT_SIZE : Fld := ⟨32, 32⟩
/-- R224. -/
def GLD_SBOPTR_WPTR : Fld := ⟨0, 32⟩
/-- R224. -/
def GLD_SBOPTR_RPTR : Fld := ⟨32, 32⟩
/-- R224. -/
def GLD_SBIN_BASE : Fld := ⟨0, 32⟩
/-- R224. -/
def GLD_SBIN_SIZE : Fld := ⟨32, 32⟩
/-- R224. -/
def GLD_SBIPTR_WPTR : Fld := ⟨0, 32⟩
/-- R224. -/
def GLD_SBIPTR_RPTR : Fld := ⟨32, 32⟩
/-- R224. -/
def GLD_SBSTAT_SWEEP : Fld := ⟨0, 1⟩
/-- R224. -/
def GLD_SBSTAT_RESTORE : Fld := ⟨1, 1⟩
/-- R224. -/
def GLD_SBSTAT_RAGGED : Fld := ⟨2, 1⟩
/-- R224. -/
def GLD_SBSTAT_FULL : Fld := ⟨3, 1⟩
/-- R224. -/
def GLD_SBSTAT_SKIPPED : Fld := ⟨4, 1⟩
/-- R224. -/
def GLD_SBSTAT_LEFT : Fld := ⟨32, 32⟩
/-- R224. -/
def GLD_SBRING_RING : Fld := ⟨0, 64⟩
/-- R224. -/
def GLD_SBERR_AUTH : Fld := ⟨0, 16⟩
/-- R224. -/
def GLD_SBERR_DROP : Fld := ⟨16, 16⟩
/-- R71. -/
def GRV_ROWCFG_EPOCH : Fld := ⟨0, 8⟩
/-- R71. -/
def GRV_ROWCFG_K : Fld := ⟨8, 5⟩
/-- R71. -/
def GRV_ROWCFG_M : Fld := ⟨13, 3⟩
/-- R71. -/
def GRV_ROWCFG_SLOT : Fld := ⟨16, 5⟩
/-- R71. -/
def GRV_ROWCFG_JOINED : Fld := ⟨21, 1⟩
/-- R71. -/
def GRV_ROWCFG_GROUPS : Fld := ⟨32, 32⟩
/-- R71. -/
def GRV_NEXTCFG_EPOCH : Fld := ⟨0, 8⟩
/-- R71. -/
def GRV_NEXTCFG_K : Fld := ⟨8, 5⟩
/-- R71. -/
def GRV_NEXTCFG_M : Fld := ⟨13, 3⟩
/-- R71. -/
def GRV_NEXTCFG_SLOT : Fld := ⟨16, 5⟩
/-- R71. -/
def GRV_NEXTCFG_VALID : Fld := ⟨21, 1⟩
/-- R71. -/
def GRV_NEXTCFG_GROUPS : Fld := ⟨32, 32⟩
/-- R72. -/
def GRV_FOLDSTAT_DUP : Fld := ⟨0, 16⟩
/-- R72. -/
def GRV_FOLDSTAT_EPNACK : Fld := ⟨16, 16⟩
/-- R72. -/
def GRV_FOLDSTAT_FMTNACK : Fld := ⟨32, 16⟩
/-- R72. -/
def GRV_FOLDSTAT_RAWRX : Fld := ⟨48, 16⟩
/-- R72. -/
def GRV_THIN_SENT : Fld := ⟨0, 32⟩
/-- R72. -/
def GRV_THIN_KIB : Fld := ⟨32, 32⟩
/-- R158. -/
def GRV_WIT_ROUNDS : Fld := ⟨0, 8⟩
/-- R158. -/
def GRV_WIT_LOSSES : Fld := ⟨8, 8⟩
/-- R158. -/
def GRV_WIT_ACTIVE : Fld := ⟨16, 1⟩
/-- R158. -/
def GRV_WIT_GLADE : Fld := ⟨17, 4⟩
/-- R158. -/
def GRV_WIT_LASTLMN : Fld := ⟨32, 16⟩
/-- R158. -/
def GRV_WIT_CAUSE : Fld := ⟨48, 4⟩
/-- R158. -/
def GRV_FENCE_FENCED : Fld := ⟨0, 16⟩
/-- R158. -/
def GRV_FENCE_PIN : Fld := ⟨16, 1⟩
/-- R158. -/
def GRV_FENCE_LASTG : Fld := ⟨17, 4⟩
/-- R158. -/
def GRV_FENCE_FORCE : Fld := ⟨32, 16⟩
/-- R158. -/
def GRV_FENCE_VIS : Fld := ⟨48, 8⟩
/-- R158. -/
def GRV_CLRCNT_READS : Fld := ⟨0, 32⟩
/-- R158. -/
def GRV_CLRCNT_ERRS : Fld := ⟨32, 16⟩
/-- R158. -/
def GRV_CLRCNT_WAITMAX : Fld := ⟨48, 16⟩
/-- R159. -/
def GRV_MSTAT_STATE : Fld := ⟨0, 3⟩
/-- R159. -/
def GRV_MSTAT_VIS : Fld := ⟨8, 8⟩
/-- R159. -/
def GRV_MSTAT_MAJ : Fld := ⟨16, 5⟩
/-- R159. -/
def GRV_MSTAT_ERAS : Fld := ⟨21, 3⟩
/-- R159. -/
def GRV_MSTAT_GROVE : Fld := ⟨32, 16⟩
/-- R159. -/
def GRV_MSTAT_COORD : Fld := ⟨48, 16⟩
/-- R159. -/
def GRV_LOST_LOST : Fld := ⟨0, 32⟩
/-- R159. -/
def GRV_LOST_STALE : Fld := ⟨32, 32⟩
/-- R159. -/
def GRV_RBLD_LEFT : Fld := ⟨0, 32⟩
/-- R159. -/
def GRV_RBLD_DONE : Fld := ⟨32, 32⟩
/-- R159. -/
def GRV_DEAD_ROWS : Fld := ⟨0, 32⟩
/-- R159. -/
def GRV_DEAD_RESTORED : Fld := ⟨32, 16⟩
/-- R159. -/
def GRV_DEAD_AGEMAX : Fld := ⟨48, 16⟩
/-- R159. -/
def GRV_SPAREV_VALID : Fld := ⟨0, 16⟩
/-- R159. -/
def GRV_SPARE_PNID0 : Fld := ⟨0, 16⟩
/-- R159. -/
def GRV_SPARE_PNID1 : Fld := ⟨16, 16⟩
/-- R159. -/
def GRV_SPARE_PNID2 : Fld := ⟨32, 16⟩
/-- R159. -/
def GRV_SPARE_PNID3 : Fld := ⟨48, 16⟩
/-- R202. -/
def GRV_CPADDR_BASE : Fld := ⟨12, 32⟩
/-- R202. -/
def GRV_CPCMD_GLADE : Fld := ⟨0, 4⟩
/-- R202. -/
def GRV_CPCMD_LOAD : Fld := ⟨4, 1⟩
/-- R202. -/
def GRV_CPCMD_ABORT : Fld := ⟨5, 1⟩
/-- R202. -/
def GRV_CPSTAT_STATE : Fld := ⟨0, 3⟩
/-- R202. -/
def GRV_CPSTAT_ERR : Fld := ⟨4, 4⟩
/-- R202. -/
def GRV_CPSTAT_DEFERS : Fld := ⟨8, 8⟩
/-- R202. -/
def GRV_CPSTAT_PLANID : Fld := ⟨32, 32⟩
/-- R202. -/
def GRV_CPRING_SWRING : Fld := ⟨0, 64⟩
/-- R202. -/
def GRV_CPPROG_COPYLEFT : Fld := ⟨0, 32⟩
/-- R202. -/
def GRV_CPPROG_ENCLEFT : Fld := ⟨32, 32⟩
/-- R217. -/
def GRV_WPCTL_EN : Fld := ⟨0, 1⟩
/-- R217. -/
def GRV_WPCTL_GO : Fld := ⟨1, 1⟩
/-- R217. -/
def GRV_WPCTL_FULL : Fld := ⟨2, 1⟩
/-- R217. -/
def GRV_WPCTL_BUSY : Fld := ⟨3, 1⟩
/-- R217. -/
def GRV_WPCTL_EVERY : Fld := ⟨4, 8⟩
/-- R217. -/
def GRV_WPCTL_KIDV : Fld := ⟨12, 4⟩
/-- R217. -/
def GRV_WPCTL_STREAM : Fld := ⟨16, 32⟩
/-- R217. -/
def GRV_WPBASE_BASE : Fld := ⟨0, 32⟩
/-- R217. -/
def GRV_WPBASE_SIZE : Fld := ⟨32, 32⟩
/-- R217. -/
def GRV_WPKIDS_KID0 : Fld := ⟨0, 16⟩
/-- R217. -/
def GRV_WPKIDS_KID1 : Fld := ⟨16, 16⟩
/-- R217. -/
def GRV_WPKIDS_KID2 : Fld := ⟨32, 16⟩
/-- R217. -/
def GRV_WPKIDS_KID3 : Fld := ⟨48, 16⟩
/-- R217. -/
def GRV_WPRING_RING : Fld := ⟨0, 64⟩
/-- R220. -/
def GRV_WIMG_CTL_EN : Fld := ⟨0, 1⟩
/-- R220. -/
def GRV_WIMG_CTL_PIN : Fld := ⟨1, 1⟩
/-- R220. -/
def GRV_WIMG_CTL_LOAD : Fld := ⟨2, 1⟩
/-- R220. -/
def GRV_WIMG_CTL_STATE : Fld := ⟨3, 3⟩
/-- R220. -/
def GRV_WIMG_CTL_DONE : Fld := ⟨6, 1⟩
/-- R220. -/
def GRV_WIMG_CTL_KIDV : Fld := ⟨7, 4⟩
/-- R220. -/
def GRV_WIMG_CTL_SRC : Fld := ⟨16, 16⟩
/-- R220. -/
def GRV_WIMG_CTL_STREAM : Fld := ⟨32, 32⟩
/-- R220. -/
def GRV_WIMG_BASE_BASE : Fld := ⟨0, 32⟩
/-- R220. -/
def GRV_WIMG_BASE_SIZE : Fld := ⟨32, 32⟩
/-- R220. -/
def GRV_WIMG_GEN_RING : Fld := ⟨0, 64⟩
/-- R220. -/
def GRV_WIMG_USE_COUNT : Fld := ⟨0, 16⟩
/-- R220. -/
def GRV_WIMG_USE_TOUCH : Fld := ⟨16, 1⟩
/-- R220. -/
def GRV_WIMG_USE_LAST : Fld := ⟨32, 32⟩
/-- R220. -/
def GRV_WIMG_KIDS_KID0 : Fld := ⟨0, 16⟩
/-- R220. -/
def GRV_WIMG_KIDS_KID1 : Fld := ⟨16, 16⟩
/-- R220. -/
def GRV_WIMG_KIDS_KID2 : Fld := ⟨32, 16⟩
/-- R220. -/
def GRV_WIMG_KIDS_KID3 : Fld := ⟨48, 16⟩
/-- R220. -/
def GRV_WPOOL_BASE : Fld := ⟨0, 32⟩
/-- R220. -/
def GRV_WPOOL_SIZE : Fld := ⟨32, 32⟩
/-- R361. -/
def GRV_JOIN_STATE : Fld := ⟨0, 3⟩
/-- R361. -/
def GRV_JOIN_CAUSE : Fld := ⟨4, 4⟩
/-- R361. -/
def GRV_JOIN_ABSENT : Fld := ⟨8, 16⟩
/-- R361. -/
def GRV_JOIN_ENCDONE : Fld := ⟨24, 1⟩
/-- R361. -/
def GRV_JOIN_ENCLEFT : Fld := ⟨32, 32⟩
/-- R85. -/
def STP_VSEL_GLADE : Fld := ⟨0, 4⟩
/-- R85. -/
def STP_VREC_BYTES : Fld := ⟨0, 64⟩
/-- R85. -/
def STP_GCTL_SKIPREQ : Fld := ⟨0, 1⟩
/-- R85. -/
def STP_GCTL_POLICY : Fld := ⟨1, 2⟩
/-- R85. -/
def STP_GCTL_CARRYMAX : Fld := ⟨4, 4⟩
/-- R85. -/
def STP_GCTL_DEADLINE : Fld := ⟨8, 16⟩
/-- R85. -/
def STP_GCTL_WCSR : Fld := ⟨24, 1⟩
/-- R86. -/
def STP_GSTAT_STAGE : Fld := ⟨0, 4⟩
/-- R86. -/
def STP_GSTAT_LASTAPPLY : Fld := ⟨4, 1⟩
/-- R86. -/
def STP_GSTAT_REPLAY : Fld := ⟨5, 1⟩
/-- R86. -/
def STP_GSTAT_EVICTED : Fld := ⟨6, 1⟩
/-- R86. -/
def STP_GSTAT_TORN : Fld := ⟨7, 1⟩
/-- R86. -/
def STP_GSTAT_CARRIED : Fld := ⟨8, 8⟩
/-- R86. -/
def STP_GSTAT_STALE : Fld := ⟨16, 16⟩
/-- R86. -/
def STP_GSTAT_LAGGED : Fld := ⟨32, 16⟩
/-- R86. -/
def STP_SEEDLO_KEY : Fld := ⟨0, 64⟩
/-- R86. -/
def STP_SEEDHI_KEY : Fld := ⟨0, 64⟩
/-- R85. -/
def STP_CNT_LATE : Fld := ⟨0, 16⟩
/-- R85. -/
def STP_CNT_SKIPS : Fld := ⟨16, 16⟩
/-- R85. -/
def STP_CNT_REPLAYS : Fld := ⟨32, 16⟩
/-- R85. -/
def STP_CNT_RETRIES : Fld := ⟨48, 16⟩
/-- R86. -/
def STP_SCAL_SLO : Fld := ⟨0, 32⟩
/-- R86. -/
def STP_SCAL_SHI : Fld := ⟨32, 32⟩
/-- R95. -/
def STP_SLOT_START1 : Fld := ⟨0, 11⟩
/-- R95. -/
def STP_SLOT_LEN1 : Fld := ⟨11, 6⟩
/-- R95. -/
def STP_SLOT_START2 : Fld := ⟨17, 11⟩
/-- R95. -/
def STP_SLOT_LEN2 : Fld := ⟨28, 6⟩
/-- R95. -/
def STP_SLOT_VALID : Fld := ⟨34, 1⟩
/-- R440. -/
def STP_PMEM_LOW : Fld := ⟨0, 32⟩
/-- R440. -/
def STP_PMEM_HIGH : Fld := ⟨32, 32⟩
/-- R136. -/
def CQ_CTL_TMO : Fld := ⟨0, 16⟩
/-- R136. -/
def CQ_STATUS_PROFILE : Fld := ⟨0, 2⟩
/-- R136. -/
def CQ_STATUS_IRQQ : Fld := ⟨16, 16⟩
/-- R136. -/
def CQ_ALGO_TREEMAX : Fld := ⟨0, 16⟩
/-- R136. -/
def CQ_ALGO_DIRMAX : Fld := ⟨16, 16⟩
/-- R153. -/
def CQ_VCWT_W3 : Fld := ⟨0, 8⟩
/-- R153. -/
def CQ_VCWT_W4 : Fld := ⟨8, 8⟩
/-- R153. -/
def CQ_VCWT_W5 : Fld := ⟨16, 8⟩
/-- R153. -/
def CQ_VCWT_W6 : Fld := ⟨24, 8⟩
/-- R153. -/
def CQ_VCWT_W7 : Fld := ⟨32, 8⟩
/-- R153. -/
def CQ_VCWT_CAP2 : Fld := ⟨40, 8⟩
/-- R136. -/
def CQ_GSRC_SPM : Fld := ⟨0, 5⟩
/-- R136. -/
def CQ_GSRC_N : Fld := ⟨32, 21⟩
/-- R136. -/
def CQ_GSHAPE_E0 : Fld := ⟨0, 8⟩
/-- R136. -/
def CQ_GSHAPE_E1 : Fld := ⟨8, 8⟩
/-- R136. -/
def CQ_GSHAPE_E2 : Fld := ⟨16, 8⟩
/-- R136. -/
def CQ_GSHAPE_E3 : Fld := ⟨24, 8⟩
/-- R136. -/
def CQ_GSHAPE_DENSE : Fld := ⟨32, 1⟩
/-- R137. -/
def CQ_QBASE_BASE : Fld := ⟨12, 32⟩
/-- R137. -/
def CQ_QBASE_LOG2N : Fld := ⟨48, 4⟩
/-- R137. -/
def CQ_QTAIL_TAIL : Fld := ⟨0, 16⟩
/-- R137. -/
def CQ_QSTAT_STATE : Fld := ⟨0, 2⟩
/-- R137. -/
def CQ_QSTAT_CODE : Fld := ⟨4, 4⟩
/-- R137. -/
def CQ_QSTAT_HEAD : Fld := ⟨16, 16⟩
/-- R137. -/
def CQ_QSTAT_TAG : Fld := ⟨32, 32⟩
/-- R137. -/
def CQ_QCTL_EN : Fld := ⟨0, 1⟩
/-- R137. -/
def CQ_QCTL_RESUME : Fld := ⟨1, 1⟩
/-- R137. -/
def CQ_QCTL_SKIP : Fld := ⟨2, 1⟩
/-- R137. -/
def CQ_TOK_COUNT : Fld := ⟨0, 32⟩
/-- R115. -/
def TIL_STATUS_PRESENT : Fld := ⟨0, 1⟩
/-- R115. -/
def TIL_STATUS_BUSY : Fld := ⟨1, 1⟩
/-- R115. -/
def TIL_STATUS_QUAD : Fld := ⟨2, 2⟩
/-- R115. -/
def TIL_EXC_IV : Fld := ⟨0, 1⟩
/-- R115. -/
def TIL_EXC_DZ : Fld := ⟨1, 1⟩
/-- R115. -/
def TIL_EXC_OF : Fld := ⟨2, 1⟩
/-- R115. -/
def TIL_EXC_UF : Fld := ⟨3, 1⟩
/-- R115. -/
def TIL_EXC_NFST : Fld := ⟨16, 16⟩
/-- R115. -/
def TIL_CTX_INUSE : Fld := ⟨0, 10⟩
/-- R115. -/
def TIL_CTX_HWM : Fld := ⟨10, 10⟩
/-- R115. -/
def TIL_CTX_TOUT : Fld := ⟨32, 16⟩
/-- R116. -/
def TIL_GANG_MODE : Fld := ⟨0, 2⟩
/-- R116. -/
def TIL_GANG_WIDTH : Fld := ⟨2, 5⟩
/-- R116. -/
def TIL_WORK_BLOCKS : Fld := ⟨0, 32⟩
/-- R116. -/
def TIL_WORK_GFKIB : Fld := ⟨32, 32⟩
/-- R116. -/
def TIL_RNGIN_DATA : Fld := ⟨0, 64⟩
/-- R116. -/
def TIL_RNGOUT0_OUTLO : Fld := ⟨0, 64⟩
/-- R116. -/
def TIL_RNGOUT1_OUTHI : Fld := ⟨0, 64⟩
/-- R304. -/
def TIL_SRAMCFG_PFRAMES : Fld := ⟨0, 8⟩
/-- R304. -/
def TIL_SRAMCFG_PFDEPTH : Fld := ⟨8, 4⟩
/-- R304. -/
def TIL_SRAMSTAT_FREE : Fld := ⟨0, 9⟩
/-- R304. -/
def TIL_SRAMSTAT_DIRTY : Fld := ⟨9, 9⟩
/-- R304. -/
def TIL_SRAMSTAT_RETFR : Fld := ⟨18, 6⟩
/-- R304. -/
def TIL_SRAMSTAT_RETIRED : Fld := ⟨24, 1⟩
/-- R304. -/
def TIL_SRAMSTAT_INITDONE : Fld := ⟨25, 1⟩
/-- R304. -/
def TIL_STAGE_HITS : Fld := ⟨0, 32⟩
/-- R304. -/
def TIL_STAGE_RESTAGE : Fld := ⟨32, 32⟩
/-- R304. -/
def TIL_PERR_PERR : Fld := ⟨0, 16⟩
/-- R304. -/
def TIL_PERR_LASTWORD : Fld := ⟨16, 15⟩
/-- R304. -/
def TIL_PERR_DIRTYLOSS : Fld := ⟨32, 16⟩
/-- R304. -/
def TIL_REMAP_WORD : Fld := ⟨0, 15⟩
/-- R304. -/
def TIL_REMAP_VALID : Fld := ⟨15, 1⟩
/-- R274. -/
def RTR_SELF_PNID : Fld := ⟨0, 16⟩
/-- R274. -/
def RTR_SELF_C0 : Fld := ⟨16, 8⟩
/-- R274. -/
def RTR_SELF_C1 : Fld := ⟨24, 8⟩
/-- R274. -/
def RTR_SELF_C2 : Fld := ⟨32, 8⟩
/-- R274. -/
def RTR_SELF_C3 : Fld := ⟨40, 8⟩
/-- R274. -/
def RTR_SELF_SET : Fld := ⟨48, 1⟩
/-- R274. -/
def RTR_SHAPE_X0 : Fld := ⟨0, 7⟩
/-- R274. -/
def RTR_SHAPE_X1 : Fld := ⟨8, 7⟩
/-- R274. -/
def RTR_SHAPE_X2 : Fld := ⟨16, 7⟩
/-- R274. -/
def RTR_SHAPE_X3 : Fld := ⟨24, 7⟩
/-- R274. -/
def RTR_SHAPE_SW3 : Fld := ⟨32, 1⟩
/-- R274. -/
def RTR_CTL_ESCWAIT : Fld := ⟨0, 8⟩
/-- R274. -/
def RTR_THROT_HI : Fld := ⟨0, 16⟩
/-- R274. -/
def RTR_THROT_LO : Fld := ⟨16, 16⟩
/-- R274. -/
def RTR_THROT_GAP : Fld := ⟨32, 8⟩
/-- R274. -/
def RTR_PORTUP_UP : Fld := ⟨0, 44⟩
/-- R293. -/
def RTR_DROP_TTL : Fld := ⟨0, 16⟩
/-- R293. -/
def RTR_DROP_NOROUTE : Fld := ⟨16, 16⟩
/-- R293. -/
def RTR_DROP_TAG : Fld := ⟨32, 16⟩
/-- R293. -/
def RTR_DROP_MAPSTALE : Fld := ⟨48, 16⟩
/-- R293. -/
def RTR_XSTAT_BAD : Fld := ⟨0, 16⟩
/-- R293. -/
def RTR_XSTAT_REASM : Fld := ⟨16, 16⟩
/-- R293. -/
def RTR_XSTAT_INVTMO : Fld := ⟨32, 16⟩
/-- R293. -/
def RTR_XSTAT_THROTCYC : Fld := ⟨48, 16⟩
/-- R287. -/
def RTR_MAPADDR_INDEX : Fld := ⟨0, 16⟩
/-- R287. -/
def RTR_MAPDATA_PNID : Fld := ⟨0, 16⟩
/-- R287. -/
def RTR_MAPDATA_VALID : Fld := ⟨16, 1⟩
/-- R287. -/
def RTR_MAPCFG_BASE : Fld := ⟨0, 16⟩
/-- R287. -/
def RTR_MAPCFG_SEQ : Fld := ⟨16, 16⟩
/-- R287. -/
def RTR_MAPCFG_COUNT : Fld := ⟨32, 17⟩
/-- R287. -/
def RTR_SPAN_BASE : Fld := ⟨0, 16⟩
/-- R287. -/
def RTR_SPAN_COUNT : Fld := ⟨16, 8⟩
/-- R287. -/
def RTR_SPAN_AUTO : Fld := ⟨24, 1⟩
/-- R270. -/
def LNK_CTL_EN : Fld := ⟨0, 1⟩
/-- R270. -/
def LNK_CTL_RETRAIN : Fld := ⟨1, 1⟩
/-- R270. -/
def LNK_CTL_LANEMASK : Fld := ⟨2, 8⟩
/-- R270. -/
def LNK_CTL_DOZEEN : Fld := ⟨10, 1⟩
/-- R270. -/
def LNK_CTL_TRIMAUTO : Fld := ⟨11, 1⟩
/-- R270. -/
def LNK_STATUS_STATE : Fld := ⟨0, 3⟩
/-- R270. -/
def LNK_STATUS_SILENT : Fld := ⟨3, 1⟩
/-- R270. -/
def LNK_STATUS_NODOZE : Fld := ⟨4, 1⟩
/-- R270. -/
def LNK_STATUS_FAILS : Fld := ⟨8, 8⟩
/-- R270. -/
def LNK_WIDTH_RXMASK : Fld := ⟨0, 8⟩
/-- R270. -/
def LNK_WIDTH_TXMASK : Fld := ⟨8, 8⟩
/-- R270. -/
def LNK_WIDTH_LOCKED : Fld := ⟨16, 8⟩
/-- R270. -/
def LNK_WIDTH_CHANGES : Fld := ⟨32, 16⟩
/-- R270. -/
def LNK_DOZE_IDLE : Fld := ⟨0, 16⟩
/-- R270. -/
def LNK_DOZE_DOZES : Fld := ⟨16, 16⟩
/-- R270. -/
def LNK_DOZE_SLIP : Fld := ⟨32, 8⟩
/-- R270. -/
def LNK_DOZE_WAKEFAIL : Fld := ⟨40, 8⟩
/-- R271. -/
def LNK_TRIM_REQ : Fld := ⟨0, 1⟩
/-- R271. -/
def LNK_TRIM_BUSY : Fld := ⟨1, 1⟩
/-- R271. -/
def LNK_TRIM_DUE : Fld := ⟨2, 1⟩
/-- R271. -/
def LNK_TRIM_LASTLOAD : Fld := ⟨4, 7⟩
/-- R271. -/
def LNK_TRIM_LOAD : Fld := ⟨11, 7⟩
/-- R271. -/
def LNK_TRIM_AGE : Fld := ⟨32, 32⟩
/-- R271. -/
def LNK_PEER_PNID : Fld := ⟨0, 16⟩
/-- R271. -/
def LNK_PEER_PORT : Fld := ⟨16, 5⟩
/-- R271. -/
def LNK_PEER_VALID : Fld := ⟨21, 1⟩
/-- R271. -/
def LNK_PEER_RTT : Fld := ⟨32, 16⟩
/-- R271. -/
def LNK_ERR_HCRC : Fld := ⟨0, 16⟩
/-- R271. -/
def LNK_ERR_FCRC : Fld := ⟨16, 16⟩
/-- R271. -/
def LNK_ERR_CCRC : Fld := ⟨32, 8⟩
/-- R271. -/
def LNK_ERR_MALF : Fld := ⟨40, 8⟩
/-- R271. -/
def LNK_ERR_STOMP : Fld := ⟨48, 8⟩
/-- R271. -/
def LNK_ERR_TXREF : Fld := ⟨56, 8⟩
/-- R271. -/
def LNK_RETRY_NAKS : Fld := ⟨0, 16⟩
/-- R271. -/
def LNK_RETRY_REPLAYS : Fld := ⟨16, 16⟩
/-- R271. -/
def LNK_RETRY_TMO : Fld := ⟨32, 8⟩
/-- R271. -/
def LNK_RETRY_MAXREP : Fld := ⟨40, 8⟩
/-- R271. -/
def LNK_RETRY_DROPPED : Fld := ⟨48, 8⟩
/-- R271. -/
def LNK_FEC_CORR : Fld := ⟨0, 32⟩
/-- R271. -/
def LNK_FEC_UNCORR : Fld := ⟨32, 16⟩
/-- R271. -/
def LNK_FEC_AUTH : Fld := ⟨48, 16⟩
/-- R419. -/
def LNK_LMARG_CORR : Fld := ⟨0, 40⟩
/-- R419. -/
def LNK_LMARG_WORST : Fld := ⟨40, 4⟩
/-- R419. -/
def LNK_LMARG_PRED : Fld := ⟨44, 1⟩
/-- R419. -/
def LNK_LHIST_E4 : Fld := ⟨0, 16⟩
/-- R419. -/
def LNK_LHIST_E8 : Fld := ⟨16, 16⟩
/-- R419. -/
def LNK_LHIST_E12 : Fld := ⟨32, 16⟩
/-- R419. -/
def LNK_LHIST_UNC : Fld := ⟨48, 16⟩
/-- R297. -/
def MPT_SIZE_SIZE : Fld := ⟨0, 32⟩
/-- R297. -/
def MPT_STAT_OUTRD : Fld := ⟨0, 10⟩
/-- R297. -/
def MPT_STAT_OUTWR : Fld := ⟨16, 9⟩
/-- R297. -/
def MPT_STAT_DOWN : Fld := ⟨32, 1⟩
/-- R297. -/
def MPT_ERR_UNCORR : Fld := ⟨0, 16⟩
/-- R297. -/
def MPT_ERR_WERR : Fld := ⟨16, 16⟩
/-- R297. -/
def MPT_ERR_TMO : Fld := ⟨32, 16⟩
/-- R297. -/
def MPT_ERR_CORR : Fld := ⟨48, 16⟩
/-- R297. -/
def MPT_WW_REPORTS : Fld := ⟨0, 32⟩
/-- R297. -/
def MPT_WW_HITS : Fld := ⟨32, 16⟩
/-- R297. -/
def MPT_WW_OVF : Fld := ⟨48, 16⟩
/-- R297. -/
def MPT_WWPEND_RANGES : Fld := ⟨0, 3⟩
/-- R297. -/
def MPT_WWPEND_UNITS : Fld := ⟨32, 32⟩
/-- R297. -/
def MPT_TOP_MEMTOP : Fld := ⟨0, 32⟩
/-- R312. -/
def BGT_CTL_SET : Fld := ⟨0, 2⟩
/-- R312. -/
def BGT_SET_FLOOR : Fld := ⟨0, 9⟩
/-- R312. -/
def BGT_SET_CEIL : Fld := ⟨16, 9⟩
/-- R312. -/
def BGT_TOTAL_TOTAL : Fld := ⟨0, 9⟩
/-- R312. -/
def BGT_TOTAL_UFLOOR : Fld := ⟨16, 9⟩
/-- R312. -/
def BGT_TOTAL_UCEIL : Fld := ⟨32, 9⟩
/-- R312. -/
def BGT_USE_LINES : Fld := ⟨0, 32⟩
/-- R312. -/
def BGT_USE_BLOCKS : Fld := ⟨32, 32⟩
/-- R312. -/
def BGT_SHORT_SHORT : Fld := ⟨0, 8⟩
/-- R312. -/
def BGT_SHORT_USHORT : Fld := ⟨8, 1⟩
/-- R319. -/
def BGT_SCRUB_EN : Fld := ⟨0, 1⟩
/-- R319. -/
def BGT_SCRUB_RATE : Fld := ⟨8, 8⟩
/-- R319. -/
def BGT_SCRUB_PASSES : Fld := ⟨32, 32⟩
/-- R319. -/
def BGT_AUDCTL_EN : Fld := ⟨0, 1⟩
/-- R319. -/
def BGT_AUDCTL_GLADE : Fld := ⟨4, 4⟩
/-- R319. -/
def BGT_AUDCTL_RATE : Fld := ⟨8, 8⟩
/-- R319. -/
def BGT_AUDCTL_DONE : Fld := ⟨16, 1⟩
/-- R319. -/
def BGT_AUDSUM_BYTES : Fld := ⟨0, 64⟩
/-- R341. -/
def SEC_STATUS_ROOT : Fld := ⟨0, 1⟩
/-- R341. -/
def SEC_STATUS_UNLOCK : Fld := ⟨1, 1⟩
/-- R341. -/
def SEC_STATUS_NOSEAL : Fld := ⟨2, 1⟩
/-- R341. -/
def SEC_DEVID_DEVID : Fld := ⟨0, 64⟩
/-- R341. -/
def SEC_KLOAD_GO : Fld := ⟨0, 1⟩
/-- R341. -/
def SEC_KLOAD_ADDR : Fld := ⟨6, 38⟩
/-- R341. -/
def SEC_KLOAD_RESULT : Fld := ⟨48, 4⟩
/-- R341. -/
def SEC_KLOAD_BUSY : Fld := ⟨52, 1⟩
/-- R341. -/
def SEC_SEAL_EPOCH : Fld := ⟨0, 24⟩
/-- R341. -/
def SEC_SEAL_COUNTHI : Fld := ⟨32, 32⟩
/-- R341. -/
def SEC_ERR_ISO : Fld := ⟨0, 16⟩
/-- R341. -/
def SEC_ERR_KREF : Fld := ⟨16, 16⟩
/-- R341. -/
def SEC_ERR_UNSEALED : Fld := ⟨32, 16⟩
/-- R341. -/
def SEC_CHAL_CHAL : Fld := ⟨0, 64⟩
/-- R341. -/
def SEC_TOKEN_GO : Fld := ⟨0, 1⟩
/-- R341. -/
def SEC_TOKEN_ADDR : Fld := ⟨6, 38⟩
/-- R341. -/
def SEC_TOKEN_RESULT : Fld := ⟨48, 4⟩
/-- R341. -/
def SEC_TOKEN_BUSY : Fld := ⟨52, 1⟩
/-- R341. -/
def SEC_DEVPUB_PUB : Fld := ⟨0, 64⟩
/-- R341. -/
def SEC_KSLOT_KGEN : Fld := ⟨0, 32⟩
/-- R341. -/
def SEC_KSLOT_VALID : Fld := ⟨32, 1⟩
/-- R341. -/
def SEC_KSLOT_KPH : Fld := ⟨33, 1⟩
/-- R341. -/
def SEC_KSLOT_NEXT : Fld := ⟨34, 1⟩
/-- R341. -/
def SEC_KSLOT_PREV : Fld := ⟨35, 1⟩
/-- R341. -/
def SEC_KSTRM_STREAM : Fld := ⟨0, 32⟩
/-- R325. -/
def FUS_LCS_STATE : Fld := ⟨0, 3⟩
/-- R325. -/
def FUS_LCS_TARGET : Fld := ⟨3, 3⟩
/-- R325. -/
def FUS_LCS_PEND : Fld := ⟨6, 1⟩
/-- R325. -/
def FUS_LCS_BUSY : Fld := ⟨7, 1⟩
/-- R325. -/
def FUS_LCS_FERR : Fld := ⟨8, 4⟩
/-- R325. -/
def FUS_LCCMD_TARGET : Fld := ⟨0, 3⟩
/-- R325. -/
def FUS_LCCMD_CONFIRM : Fld := ⟨32, 32⟩
/-- R325. -/
def FUS_TILEMAP_DISABLE : Fld := ⟨0, 64⟩
/-- R325. -/
def FUS_POLICY_GRADE : Fld := ⟨0, 1⟩
/-- R325. -/
def FUS_POLICY_GMAX : Fld := ⟨1, 5⟩
/-- R325. -/
def FUS_POLICY_XTENANT : Fld := ⟨6, 1⟩
/-- R325. -/
def FUS_POLICY_SEALALL : Fld := ⟨7, 1⟩
/-- R325. -/
def FUS_POLICY_HOSTSEAL : Fld := ⟨8, 1⟩
/-- R325. -/
def FUS_POLICY_NODBG : Fld := ⟨9, 1⟩
/-- R325. -/
def FUS_IKREV_REVOKE : Fld := ⟨0, 2⟩
/-- R325. -/
def FUS_IKREV_VALID : Fld := ⟨2, 2⟩
/-- R325. -/
def FUS_PCMD_GO : Fld := ⟨0, 1⟩
/-- R325. -/
def FUS_PCMD_GROUP : Fld := ⟨1, 2⟩
/-- R325. -/
def FUS_PCMD_ADDR : Fld := ⟨6, 38⟩
/-- R325. -/
def FUS_PCMD_RESULT : Fld := ⟨48, 3⟩
/-- R325. -/
def FUS_IKH_DIGEST : Fld := ⟨0, 64⟩
/-- R407. -/
def RGR_DCTL_HALT : Fld := ⟨0, 1⟩
/-- R407. -/
def RGR_DCTL_FORCE : Fld := ⟨1, 1⟩
/-- R407. -/
def RGR_DCTL_RESUME : Fld := ⟨2, 1⟩
/-- R407. -/
def RGR_DCTL_STEP : Fld := ⟨3, 1⟩
/-- R407. -/
def RGR_DCTL_CONFIRM : Fld := ⟨32, 32⟩
/-- R407. -/
def RGR_DSTAT_STATE : Fld := ⟨0, 2⟩
/-- R407. -/
def RGR_DSTAT_CAUSE : Fld := ⟨2, 3⟩
/-- R407. -/
def RGR_DSTAT_REFUSED : Fld := ⟨5, 1⟩
/-- R407. -/
def RGR_DSTAT_LOCKS : Fld := ⟨16, 16⟩
/-- R407. -/
def RGR_PC_PC : Fld := ⟨0, 32⟩
/-- R407. -/
def RGR_DADDR_ADDR : Fld := ⟨3, 18⟩
/-- R407. -/
def RGR_DDATA_DATA : Fld := ⟨0, 64⟩
/-- R407. -/
def RGR_BKPT_EN : Fld := ⟨0, 1⟩
/-- R407. -/
def RGR_BKPT_ADDR : Fld := ⟨2, 30⟩
/-- R367. -/
def NVM_STATUS_READY : Fld := ⟨0, 1⟩
/-- R367. -/
def NVM_STATUS_DERR : Fld := ⟨1, 4⟩
/-- R367. -/
def NVM_STATUS_LOG2SIZE : Fld := ⟨8, 5⟩
/-- R367. -/
def NVM_STATUS_BUSY : Fld := ⟨13, 1⟩
/-- R367. -/
def NVM_STATUS_RESULT : Fld := ⟨16, 3⟩
/-- R367. -/
def NVM_STATUS_LOG2PAGE : Fld := ⟨24, 5⟩
/-- R367. -/
def NVM_CMD_OP : Fld := ⟨0, 2⟩
/-- R367. -/
def NVM_CMD_GO : Fld := ⟨2, 1⟩
/-- R367. -/
def NVM_CMD_LENM1 : Fld := ⟨8, 8⟩
/-- R367. -/
def NVM_CMD_ADDR : Fld := ⟨32, 24⟩
/-- R367. -/
def NVM_REC_BANK : Fld := ⟨0, 1⟩
/-- R367. -/
def NVM_REC_COMPACT : Fld := ⟨1, 1⟩
/-- R367. -/
def NVM_REC_FREE : Fld := ⟨2, 13⟩
/-- R367. -/
def NVM_REC_BANKSEQ : Fld := ⟨16, 32⟩
/-- R367. -/
def NVM_ERR_REFUSED : Fld := ⟨0, 16⟩
/-- R367. -/
def NVM_ERR_TORN : Fld := ⟨16, 16⟩
/-- R367. -/
def NVM_ERR_CRCBAD : Fld := ⟨32, 16⟩
/-- R367. -/
def NVM_ERR_VERIFY : Fld := ⟨48, 16⟩
/-- R448. -/
def NVM_BUF_BYTES : Fld := ⟨0, 64⟩
/-- R387. -/
def MGB_CTL_ENA : Fld := ⟨0, 1⟩
/-- R387. -/
def MGB_CTL_ENB : Fld := ⟨1, 1⟩
/-- R387. -/
def MGB_CTL_PREF : Fld := ⟨2, 1⟩
/-- R387. -/
def MGB_CTL_NOTEEN : Fld := ⟨3, 1⟩
/-- R387. -/
def MGB_CTL_NRATE : Fld := ⟨4, 8⟩
/-- R387. -/
def MGB_STATUS_ADDR : Fld := ⟨0, 6⟩
/-- R387. -/
def MGB_STATUS_STATEA : Fld := ⟨6, 3⟩
/-- R387. -/
def MGB_STATUS_STATEB : Fld := ⟨9, 3⟩
/-- R387. -/
def MGB_STATUS_DUPADDR : Fld := ⟨12, 1⟩
/-- R387. -/
def MGB_STATUS_ISOLATED : Fld := ⟨13, 1⟩
/-- R387. -/
def MGB_STATUS_QFILL : Fld := ⟨14, 6⟩
/-- R387. -/
def MGB_ERRA_TEC : Fld := ⟨0, 8⟩
/-- R387. -/
def MGB_ERRA_REC : Fld := ⟨8, 8⟩
/-- R387. -/
def MGB_ERRA_BUSOFFS : Fld := ⟨16, 16⟩
/-- R387. -/
def MGB_ERRA_NOACK : Fld := ⟨32, 16⟩
/-- R387. -/
def MGB_ERRA_RXERR : Fld := ⟨48, 16⟩
/-- R387. -/
def MGB_ERRB_TEC : Fld := ⟨0, 8⟩
/-- R387. -/
def MGB_ERRB_REC : Fld := ⟨8, 8⟩
/-- R387. -/
def MGB_ERRB_BUSOFFS : Fld := ⟨16, 16⟩
/-- R387. -/
def MGB_ERRB_NOACK : Fld := ⟨32, 16⟩
/-- R387. -/
def MGB_ERRB_RXERR : Fld := ⟨48, 16⟩
/-- R387. -/
def MGB_CNT_CMDS : Fld := ⟨0, 16⟩
/-- R387. -/
def MGB_CNT_BADCMD : Fld := ⟨16, 16⟩
/-- R387. -/
def MGB_CNT_DROPPED : Fld := ⟨32, 16⟩
/-- R387. -/
def MGB_CNT_DUPS : Fld := ⟨48, 16⟩
/-- R387. -/
def MGB_NOTE_NSEQ : Fld := ⟨0, 32⟩
/-- R399. -/
def EVR_CTL_IRQEN : Fld := ⟨0, 4⟩
/-- R399. -/
def EVR_CTL_LWEN : Fld := ⟨4, 1⟩
/-- R399. -/
def EVR_STATUS_HELD : Fld := ⟨0, 14⟩
/-- R399. -/
def EVR_STATUS_QFILL : Fld := ⟨16, 7⟩
/-- R399. -/
def EVR_STATUS_IRQ : Fld := ⟨24, 4⟩
/-- R399. -/
def EVR_STATUS_BADCRC : Fld := ⟨32, 16⟩
/-- R399. -/
def EVR_NEXT_NEXTSEQ : Fld := ⟨0, 32⟩
/-- R399. -/
def EVR_NEXT_OLDEST : Fld := ⟨32, 32⟩
/-- R399. -/
def EVR_LOST_LOSTN : Fld := ⟨0, 16⟩
/-- R399. -/
def EVR_LOST_LOSTW : Fld := ⟨16, 16⟩
/-- R399. -/
def EVR_LOST_LOSTF : Fld := ⟨32, 16⟩
/-- R399. -/
def EVR_LOST_LOSTX : Fld := ⟨48, 16⟩
/-- R399. -/
def EVR_OVW_OVW : Fld := ⟨0, 32⟩
/-- R399. -/
def EVR_OVW_DROPST : Fld := ⟨32, 16⟩
/-- R399. -/
def EVR_OVW_LWSKIP : Fld := ⟨48, 16⟩
/-- R399. -/
def EVR_CUR_SEQ : Fld := ⟨0, 32⟩
/-- R399. -/
def EVR_CUR_EMPTY : Fld := ⟨32, 1⟩
/-- R399. -/
def EVR_CUR_SKIPPED : Fld := ⟨48, 16⟩
/-- R399. -/
def EVR_WIN_BYTES : Fld := ⟨0, 64⟩
/-- R399. -/
def EVR_LASTW_BYTES : Fld := ⟨0, 64⟩
/-- R399. -/
def EVR_LASTST_VALID : Fld := ⟨0, 1⟩
/-- R404. -/
def WPT_CTL_ARM : Fld := ⟨0, 1⟩
/-- R404. -/
def WPT_CTL_TRIG : Fld := ⟨1, 1⟩
/-- R404. -/
def WPT_CTL_SCOPE : Fld := ⟨2, 2⟩
/-- R404. -/
def WPT_CTL_GLADE : Fld := ⟨4, 4⟩
/-- R404. -/
def WPT_CTL_SRCEN : Fld := ⟨8, 4⟩
/-- R404. -/
def WPT_CTL_SEV : Fld := ⟨12, 2⟩
/-- R404. -/
def WPT_CTL_GPHASE : Fld := ⟨16, 16⟩
/-- R404. -/
def WPT_STAT_TAKEN : Fld := ⟨0, 1⟩
/-- R404. -/
def WPT_STAT_CAUSE : Fld := ⟨1, 3⟩
/-- R404. -/
def WPT_STAT_LATE : Fld := ⟨4, 1⟩
/-- R404. -/
def WPT_STAT_MAINOFF : Fld := ⟨5, 1⟩
/-- R404. -/
def WPT_STAT_PHASE : Fld := ⟨16, 16⟩
/-- R404. -/
def WPT_STAT_MISSED : Fld := ⟨32, 16⟩
/-- R404. -/
def WPT_STAT_ORIGIN : Fld := ⟨48, 16⟩
/-- R404. -/
def WPT_RING_RING : Fld := ⟨0, 64⟩
/-- R404. -/
def WPT_TIME_US : Fld := ⟨0, 64⟩
/-- R404. -/
def WPT_MAP_VALID : Fld := ⟨0, 1⟩
/-- R404. -/
def WPT_MAP_ADDR : Fld := ⟨3, 21⟩
/-- R404. -/
def WPT_SNAP_VALUE : Fld := ⟨0, 64⟩
/-- R415. -/
def TST_CTL_GO : Fld := ⟨0, 1⟩
/-- R415. -/
def TST_CTL_SEEDSEL : Fld := ⟨1, 1⟩
/-- R415. -/
def TST_CTL_BOOTBIST : Fld := ⟨2, 1⟩
/-- R415. -/
def TST_CTL_PLOG : Fld := ⟨8, 4⟩
/-- R415. -/
def TST_CTL_SIGSEL : Fld := ⟨16, 7⟩
/-- R415. -/
def TST_STATUS_BUSY : Fld := ⟨0, 1⟩
/-- R415. -/
def TST_STATUS_DONE : Fld := ⟨1, 1⟩
/-- R415. -/
def TST_STATUS_RESULT : Fld := ⟨2, 3⟩
/-- R415. -/
def TST_SELT_TILES : Fld := ⟨0, 64⟩
/-- R415. -/
def TST_SELX_OTHERS : Fld := ⟨0, 13⟩
/-- R415. -/
def TST_SEED_SEED : Fld := ⟨0, 64⟩
/-- R415. -/
def TST_EXP_EXP : Fld := ⟨0, 64⟩
/-- R415. -/
def TST_FAILT_TILES : Fld := ⟨0, 64⟩
/-- R415. -/
def TST_FAILX_OTHERS : Fld := ⟨0, 13⟩
/-- R415. -/
def TST_SIG_SIG : Fld := ⟨0, 64⟩
/-- R418. -/
def TST_LTEST_GO : Fld := ⟨0, 1⟩
/-- R418. -/
def TST_LTEST_BUSY : Fld := ⟨1, 1⟩
/-- R418. -/
def TST_LTEST_DWELL : Fld := ⟨16, 8⟩
/-- R421. -/
def TST_MTHR_CTHR : Fld := ⟨0, 16⟩
/-- R421. -/
def TST_MTHR_TTHR : Fld := ⟨16, 8⟩
/-- R421. -/
def TST_MTHR_DTHR : Fld := ⟨24, 8⟩
/-- R421. -/
def TST_MTHR_DCWARN : Fld := ⟨32, 8⟩
/-- R421. -/
def TST_MTHR_SWARN : Fld := ⟨40, 8⟩
/-- R421. -/
def TST_MTHR_SFAULT : Fld := ⟨48, 8⟩
/-- R415. -/
def TST_SRADDR_TILE : Fld := ⟨0, 6⟩
/-- R415. -/
def TST_SRADDR_WORD : Fld := ⟨6, 15⟩
/-- R415. -/
def TST_SRADDR_QTR : Fld := ⟨21, 2⟩
/-- R415. -/
def TST_SRDATA_DATA : Fld := ⟨0, 64⟩
/-- R421. -/
def TST_SITE_DCNT : Fld := ⟨0, 16⟩
/-- R421. -/
def TST_SITE_DMAX : Fld := ⟨16, 8⟩
/-- R421. -/
def TST_SITE_SLK : Fld := ⟨24, 8⟩
/-- R421. -/
def TST_SITE_SLKMIN : Fld := ⟨32, 8⟩
end F

/-- The reset values of R313, by class. -/
def bgtSetReset (c : Nat) : Nat :=
  match c with
  | 0 => 0x00C00030
  | 1 => 0x00C00018
  | 2 => 0x00C00010
  | 3 => 0x00C00010
  | 4 => 0x00C00008
  | 5 => 0x00200002
  | _ => 0x00400004

/-- The reset values of R153, by profile. -/
def vcwtReset (x : Nat) : Nat :=
  match x with
  | 0 => 0x0000200208080408
  | 1 => 0x0000400801010204
  | 2 => 0x0000201001010101
  | _ => 0x0000400104021008

/-- GLB_ID: R436, fields R349. -/
def row_GLB_ID : RegRow :=
  ⟨0x000000, 0x8, 1, 0x8, 1, fun _ _ => 0xB00C64,
   [⟨0, 16, .ro⟩, ⟨16, 8, .ro⟩, ⟨24, 1, .ro⟩, ⟨25, 39, .rsv⟩]⟩

/-- GLB_BOOT: R436, fields R349. -/
def row_GLB_BOOT : RegRow :=
  ⟨0x000008, 0x8, 1, 0x8, 1, fun _ _ => 0x0,
   [⟨0, 4, .ro⟩, ⟨4, 8, .ro⟩, ⟨12, 1, .ro⟩, ⟨13, 1, .ro⟩, ⟨14, 1, .ro⟩, ⟨15, 1, .rsv⟩, ⟨16, 16, .ro⟩, ⟨32, 32, .ro⟩]⟩

/-- GLB_RSTCAUSE: R436, fields R349. -/
def row_GLB_RSTCAUSE : RegRow :=
  ⟨0x000010, 0x8, 1, 0x8, 1, fun _ _ => 0x1,
   [⟨0, 1, .w1c⟩, ⟨1, 1, .w1c⟩, ⟨2, 1, .w1c⟩, ⟨3, 1, .w1c⟩, ⟨4, 1, .ro⟩, ⟨5, 3, .rsv⟩, ⟨8, 8, .rc⟩, ⟨16, 32, .ro⟩, ⟨48, 16, .rsv⟩]⟩

/-- GLB_RSTCTL: R436, fields R349. -/
def row_GLB_RSTCTL : RegRow :=
  ⟨0x000018, 0x8, 1, 0x8, 1, fun _ _ => 0x0,
   [⟨0, 1, .w1s⟩, ⟨1, 1, .wo⟩, ⟨2, 1, .wo⟩, ⟨3, 29, .rsv⟩, ⟨32, 32, .wo⟩]⟩

/-- GLB_STORM: R436, fields R349. -/
def row_GLB_STORM : RegRow :=
  ⟨0x000020, 0x8, 1, 0x8, 1, fun _ _ => 0x0,
   [⟨0, 8, .ro⟩, ⟨8, 4, .ro⟩, ⟨12, 1, .ro⟩, ⟨13, 3, .rsv⟩, ⟨16, 16, .ro⟩, ⟨32, 32, .rc⟩]⟩

/-- GLB_AOTIME: R436, fields R349. -/
def row_GLB_AOTIME : RegRow :=
  ⟨0x000028, 0x8, 1, 0x8, 1, fun _ _ => 0x0,
   [⟨0, 64, .ro⟩]⟩

/-- Every register of the block GLB. -/
def block_GLB : List RegRow :=
  [row_GLB_ID, row_GLB_BOOT, row_GLB_RSTCAUSE, row_GLB_RSTCTL, row_GLB_STORM, row_GLB_AOTIME]

/-- PHS_CTL: R437, fields R47. -/
def row_PHS_CTL : RegRow :=
  ⟨0x010000, 0x8, 1, 0x8, 1, fun _ _ => 0x0,
   [⟨0, 1, .rw⟩, ⟨1, 63, .rsv⟩]⟩

/-- PHS_SEL: R437, fields R47. -/
def row_PHS_SEL : RegRow :=
  ⟨0x010008, 0x8, 1, 0x8, 1, fun _ _ => 0x0,
   [⟨0, 4, .rw⟩, ⟨4, 60, .rsv⟩]⟩

/-- PHS_ADV: R437, fields R47. -/
def row_PHS_ADV : RegRow :=
  ⟨0x010010, 0x8, 1, 0x8, 1, fun _ _ => 0x0,
   [⟨0, 16, .wo⟩, ⟨16, 48, .rsv⟩]⟩

/-- PHS_STATUS: R437, fields R48. -/
def row_PHS_STATUS : RegRow :=
  ⟨0x010018, 0x8, 1, 0x8, 1, fun _ _ => 0xC00000,
   [⟨0, 24, .ro⟩, ⟨24, 4, .ro⟩, ⟨28, 36, .rsv⟩]⟩

/-- PHS_ERR: R437, fields R47. -/
def row_PHS_ERR : RegRow :=
  ⟨0x010020, 0x8, 1, 0x8, 1, fun _ _ => 0x0,
   [⟨0, 16, .rc⟩, ⟨16, 16, .rc⟩, ⟨32, 1, .w1c⟩, ⟨33, 1, .w1c⟩, ⟨34, 30, .rsv⟩]⟩

/-- PHS_GSEG[g]: R437, fields R55. -/
def row_PHS_GSEG : RegRow :=
  ⟨0x010100, 0x8, 16, 0x8, 1, fun _ _ => 0x40000,
   [⟨0, 6, .rw⟩, ⟨6, 2, .rsv⟩, ⟨8, 7, .rw⟩, ⟨15, 1, .rsv⟩, ⟨16, 8, .rw⟩, ⟨24, 2, .rw⟩, ⟨26, 38, .rsv⟩]⟩

/-- PHS_GSTAT[g]: R437, fields R48. -/
def row_PHS_GSTAT : RegRow :=
  ⟨0x010180, 0x8, 16, 0x8, 1, fun _ _ => 0xC00000,
   [⟨0, 16, .ro⟩, ⟨16, 6, .ro⟩, ⟨22, 1, .ro⟩, ⟨23, 1, .ro⟩, ⟨24, 40, .rsv⟩]⟩

/-- PHS_TBL[e]: R437, fields R55. -/
def row_PHS_TBL : RegRow :=
  ⟨0x010800, 0x8, 64, 0x8, 1, fun _ _ => 0x0,
   [⟨0, 16, .rw⟩, ⟨16, 16, .rw⟩, ⟨32, 8, .rw⟩, ⟨40, 2, .rw⟩, ⟨42, 1, .rw⟩, ⟨43, 1, .rw⟩, ⟨44, 20, .rsv⟩]⟩

/-- Every register of the block PHS. -/
def block_PHS : List RegRow :=
  [row_PHS_CTL, row_PHS_SEL, row_PHS_ADV, row_PHS_STATUS, row_PHS_ERR, row_PHS_GSEG, row_PHS_GSTAT, row_PHS_TBL]

/-- GLD[g]_CTL: R438, fields R23. -/
def row_GLD_CTL : RegRow :=
  ⟨0x020000, 0x1000, 16, 0x8, 1, fun _ _ => 0x0,
   [⟨0, 1, .rw⟩, ⟨1, 1, .rw⟩, ⟨2, 2, .rw⟩, ⟨4, 1, .rw⟩, ⟨5, 3, .rsv⟩, ⟨8, 5, .rw⟩, ⟨13, 3, .rw⟩, ⟨16, 48, .rsv⟩]⟩

/-- GLD[g]_MEMBER: R438, fields R24. -/
def row_GLD_MEMBER : RegRow :=
  ⟨0x020008, 0x1000, 16, 0x8, 1, fun _ _ => 0x0,
   [⟨0, 16, .rw⟩, ⟨16, 16, .rw⟩, ⟨32, 32, .rsv⟩]⟩

/-- GLD[g]_LAYERS: R438, fields R24. -/
def row_GLD_LAYERS : RegRow :=
  ⟨0x020010, 0x1000, 16, 0x8, 1, fun _ _ => 0x0,
   [⟨0, 15, .rw⟩, ⟨15, 49, .rsv⟩]⟩

/-- GLD[g]_LAYERHASH: R438, fields R25. -/
def row_GLD_LAYERHASH : RegRow :=
  ⟨0x020018, 0x1000, 16, 0x8, 1, fun _ _ => 0x0,
   [⟨0, 64, .ro⟩]⟩

/-- GLD[g]_REGION[x]: R438, fields R24. -/
def row_GLD_REGION : RegRow :=
  ⟨0x020020, 0x1000, 16, 0x8, 10, fun _ _ => 0x0,
   [⟨0, 32, .rw⟩, ⟨32, 32, .rw⟩]⟩

/-- GLD[g]_RING: R438, fields R24. -/
def row_GLD_RING : RegRow :=
  ⟨0x020080, 0x1000, 16, 0x8, 1, fun _ _ => 0x0,
   [⟨0, 64, .rw⟩]⟩

/-- GLD[g]_STATUS: R438, fields R25. -/
def row_GLD_STATUS : RegRow :=
  ⟨0x020088, 0x1000, 16, 0x8, 1, fun _ _ => 0x0,
   [⟨0, 1, .ro⟩, ⟨1, 3, .rsv⟩, ⟨4, 4, .ro⟩, ⟨8, 1, .w1c⟩, ⟨9, 1, .w1c⟩, ⟨10, 1, .w1c⟩, ⟨11, 53, .rsv⟩]⟩

/-- GLD[g]_JHWM: R438, fields R25. -/
def row_GLD_JHWM : RegRow :=
  ⟨0x020090, 0x1000, 16, 0x8, 1, fun _ _ => 0x0,
   [⟨0, 32, .rc⟩, ⟨32, 32, .rc⟩]⟩

/-- GLD[g]_SIZE: R438, fields R25. -/
def row_GLD_SIZE : RegRow :=
  ⟨0x020098, 0x1000, 16, 0x8, 1, fun _ _ => 0x0,
   [⟨0, 32, .ro⟩, ⟨32, 32, .ro⟩]⟩

/-- GLD[g]_NREGION[x]: R438, fields R202. -/
def row_GLD_NREGION : RegRow :=
  ⟨0x0200A0, 0x1000, 16, 0x8, 10, fun _ _ => 0x0,
   [⟨0, 32, .ro⟩, ⟨32, 32, .ro⟩]⟩

/-- GLD[g]_SBCTL: R438, fields R224. -/
def row_GLD_SBCTL : RegRow :=
  ⟨0x020100, 0x1000, 16, 0x8, 1, fun _ _ => 0x4,
   [⟨0, 1, .rw⟩, ⟨1, 1, .rw⟩, ⟨2, 1, .rw⟩, ⟨3, 1, .rw⟩, ⟨4, 4, .rsv⟩, ⟨8, 16, .rw⟩, ⟨24, 16, .rw⟩, ⟨40, 24, .rsv⟩]⟩

/-- GLD[g]_SBAT: R438, fields R224. -/
def row_GLD_SBAT : RegRow :=
  ⟨0x020108, 0x1000, 16, 0x8, 1, fun _ _ => 0x0,
   [⟨0, 64, .rw⟩]⟩

/-- GLD[g]_SBOUT: R438, fields R224. -/
def row_GLD_SBOUT : RegRow :=
  ⟨0x020110, 0x1000, 16, 0x8, 1, fun _ _ => 0x0,
   [⟨0, 32, .rw⟩, ⟨32, 32, .rw⟩]⟩

/-- GLD[g]_SBOPTR: R438, fields R224. -/
def row_GLD_SBOPTR : RegRow :=
  ⟨0x020118, 0x1000, 16, 0x8, 1, fun _ _ => 0x0,
   [⟨0, 32, .ro⟩, ⟨32, 32, .rw⟩]⟩

/-- GLD[g]_SBIN: R438, fields R224. -/
def row_GLD_SBIN : RegRow :=
  ⟨0x020120, 0x1000, 16, 0x8, 1, fun _ _ => 0x0,
   [⟨0, 32, .rw⟩, ⟨32, 32, .rw⟩]⟩

/-- GLD[g]_SBIPTR: R438, fields R224. -/
def row_GLD_SBIPTR : RegRow :=
  ⟨0x020128, 0x1000, 16, 0x8, 1, fun _ _ => 0x0,
   [⟨0, 32, .rw⟩, ⟨32, 32, .ro⟩]⟩

/-- GLD[g]_SBSTAT: R438, fields R224. -/
def row_GLD_SBSTAT : RegRow :=
  ⟨0x020130, 0x1000, 16, 0x8, 1, fun _ _ => 0x0,
   [⟨0, 1, .ro⟩, ⟨1, 1, .ro⟩, ⟨2, 1, .w1c⟩, ⟨3, 1, .w1c⟩, ⟨4, 1, .w1c⟩, ⟨5, 27, .rsv⟩, ⟨32, 32, .ro⟩]⟩

/-- GLD[g]_SBRING: R438, fields R224. -/
def row_GLD_SBRING : RegRow :=
  ⟨0x020138, 0x1000, 16, 0x8, 1, fun _ _ => 0x0,
   [⟨0, 64, .ro⟩]⟩

/-- GLD[g]_SBERR: R438, fields R224. -/
def row_GLD_SBERR : RegRow :=
  ⟨0x020140, 0x1000, 16, 0x8, 1, fun _ _ => 0x0,
   [⟨0, 16, .rc⟩, ⟨16, 16, .rc⟩, ⟨32, 32, .rsv⟩]⟩

/-- Every register of the block GLD. -/
def block_GLD : List RegRow :=
  [row_GLD_CTL, row_GLD_MEMBER, row_GLD_LAYERS, row_GLD_LAYERHASH, row_GLD_REGION, row_GLD_RING, row_GLD_STATUS, row_GLD_JHWM, row_GLD_SIZE, row_GLD_NREGION, row_GLD_SBCTL, row_GLD_SBAT] ++
  [row_GLD_SBOUT, row_GLD_SBOPTR, row_GLD_SBIN, row_GLD_SBIPTR, row_GLD_SBSTAT, row_GLD_SBRING, row_GLD_SBERR]

/-- GRV_ROWCFG[g]: R439, fields R71. -/
def row_GRV_ROWCFG : RegRow :=
  ⟨0x040000, 0x8, 16, 0x8, 1, fun _ _ => 0x0,
   [⟨0, 8, .ro⟩, ⟨8, 5, .ro⟩, ⟨13, 3, .ro⟩, ⟨16, 5, .ro⟩, ⟨21, 1, .ro⟩, ⟨22, 10, .rsv⟩, ⟨32, 32, .ro⟩]⟩

/-- GRV_NEXTCFG[g]: R439, fields R71. -/
def row_GRV_NEXTCFG : RegRow :=
  ⟨0x040080, 0x8, 16, 0x8, 1, fun _ _ => 0x0,
   [⟨0, 8, .ro⟩, ⟨8, 5, .ro⟩, ⟨13, 3, .ro⟩, ⟨16, 5, .ro⟩, ⟨21, 1, .ro⟩, ⟨22, 10, .rsv⟩, ⟨32, 32, .ro⟩]⟩

/-- GRV_FOLDSTAT[g]: R439, fields R72. -/
def row_GRV_FOLDSTAT : RegRow :=
  ⟨0x040100, 0x8, 16, 0x8, 1, fun _ _ => 0x0,
   [⟨0, 16, .rc⟩, ⟨16, 16, .rc⟩, ⟨32, 16, .rc⟩, ⟨48, 16, .rc⟩]⟩

/-- GRV_THIN[g]: R439, fields R72. -/
def row_GRV_THIN : RegRow :=
  ⟨0x040180, 0x8, 16, 0x8, 1, fun _ _ => 0x0,
   [⟨0, 32, .rc⟩, ⟨32, 32, .rc⟩]⟩

/-- GRV_WIT: R439, fields R158. -/
def row_GRV_WIT : RegRow :=
  ⟨0x040200, 0x8, 1, 0x8, 1, fun _ _ => 0x0,
   [⟨0, 8, .rc⟩, ⟨8, 8, .rc⟩, ⟨16, 1, .ro⟩, ⟨17, 4, .ro⟩, ⟨21, 11, .rsv⟩, ⟨32, 16, .ro⟩, ⟨48, 4, .ro⟩, ⟨52, 12, .rsv⟩]⟩

/-- GRV_FENCE: R439, fields R158. -/
def row_GRV_FENCE : RegRow :=
  ⟨0x040208, 0x8, 1, 0x8, 1, fun _ _ => 0x0,
   [⟨0, 16, .ro⟩, ⟨16, 1, .ro⟩, ⟨17, 4, .ro⟩, ⟨21, 11, .rsv⟩, ⟨32, 16, .wo⟩, ⟨48, 8, .ro⟩, ⟨56, 8, .rsv⟩]⟩

/-- GRV_CLRCNT: R439, fields R158. -/
def row_GRV_CLRCNT : RegRow :=
  ⟨0x040210, 0x8, 1, 0x8, 1, fun _ _ => 0x0,
   [⟨0, 32, .rc⟩, ⟨32, 16, .rc⟩, ⟨48, 16, .rc⟩]⟩

/-- GRV_MSTAT[g]: R439, fields R159. -/
def row_GRV_MSTAT : RegRow :=
  ⟨0x040280, 0x8, 16, 0x8, 1, fun _ _ => 0x0,
   [⟨0, 3, .ro⟩, ⟨3, 5, .rsv⟩, ⟨8, 8, .ro⟩, ⟨16, 5, .ro⟩, ⟨21, 3, .ro⟩, ⟨24, 8, .rsv⟩, ⟨32, 16, .ro⟩, ⟨48, 16, .ro⟩]⟩

/-- GRV_LOST[g]: R439, fields R159. -/
def row_GRV_LOST : RegRow :=
  ⟨0x040300, 0x8, 16, 0x8, 1, fun _ _ => 0x0,
   [⟨0, 32, .ro⟩, ⟨32, 32, .ro⟩]⟩

/-- GRV_RBLD[g]: R439, fields R159. -/
def row_GRV_RBLD : RegRow :=
  ⟨0x040380, 0x8, 16, 0x8, 1, fun _ _ => 0x0,
   [⟨0, 32, .ro⟩, ⟨32, 32, .rc⟩]⟩

/-- GRV_DEAD[g]: R439, fields R159. -/
def row_GRV_DEAD : RegRow :=
  ⟨0x040400, 0x8, 16, 0x8, 1, fun _ _ => 0x0,
   [⟨0, 32, .ro⟩, ⟨32, 16, .rc⟩, ⟨48, 16, .rc⟩]⟩

/-- GRV_SPAREV[g]: R439, fields R159. -/
def row_GRV_SPAREV : RegRow :=
  ⟨0x040500, 0x8, 16, 0x8, 1, fun _ _ => 0x0,
   [⟨0, 16, .rw⟩, ⟨16, 48, .rsv⟩]⟩

/-- GRV_SPARE[g][x]: R439, fields R159. -/
def row_GRV_SPARE : RegRow :=
  ⟨0x040600, 0x20, 16, 0x8, 4, fun _ _ => 0xFFFFFFFFFFFFFFFF,
   [⟨0, 16, .rw⟩, ⟨16, 16, .rw⟩, ⟨32, 16, .rw⟩, ⟨48, 16, .rw⟩]⟩

/-- GRV_CPADDR: R439, fields R202. -/
def row_GRV_CPADDR : RegRow :=
  ⟨0x040800, 0x8, 1, 0x8, 1, fun _ _ => 0x0,
   [⟨0, 12, .rsv⟩, ⟨12, 32, .rw⟩, ⟨44, 20, .rsv⟩]⟩

/-- GRV_CPCMD: R439, fields R202. -/
def row_GRV_CPCMD : RegRow :=
  ⟨0x040808, 0x8, 1, 0x8, 1, fun _ _ => 0x0,
   [⟨0, 4, .rw⟩, ⟨4, 1, .wo⟩, ⟨5, 1, .wo⟩, ⟨6, 58, .rsv⟩]⟩

/-- GRV_CPSTAT[g]: R439, fields R202. -/
def row_GRV_CPSTAT : RegRow :=
  ⟨0x040840, 0x8, 16, 0x8, 1, fun _ _ => 0x0,
   [⟨0, 3, .ro⟩, ⟨3, 1, .rsv⟩, ⟨4, 4, .ro⟩, ⟨8, 8, .ro⟩, ⟨16, 16, .rsv⟩, ⟨32, 32, .ro⟩]⟩

/-- GRV_CPRING[g]: R439, fields R202. -/
def row_GRV_CPRING : RegRow :=
  ⟨0x0408C0, 0x8, 16, 0x8, 1, fun _ _ => 0x0,
   [⟨0, 64, .ro⟩]⟩

/-- GRV_CPPROG[g]: R439, fields R202. -/
def row_GRV_CPPROG : RegRow :=
  ⟨0x040940, 0x8, 16, 0x8, 1, fun _ _ => 0x0,
   [⟨0, 32, .ro⟩, ⟨32, 32, .ro⟩]⟩

/-- GRV_WPCTL[g]: R439, fields R217. -/
def row_GRV_WPCTL : RegRow :=
  ⟨0x041000, 0x8, 16, 0x8, 1, fun _ _ => 0x0,
   [⟨0, 1, .rw⟩, ⟨1, 1, .w1s⟩, ⟨2, 1, .w1s⟩, ⟨3, 1, .ro⟩, ⟨4, 8, .rw⟩, ⟨12, 4, .rw⟩, ⟨16, 32, .rw⟩, ⟨48, 16, .rsv⟩]⟩

/-- GRV_WPBASE[g]: R439, fields R217. -/
def row_GRV_WPBASE : RegRow :=
  ⟨0x041080, 0x8, 16, 0x8, 1, fun _ _ => 0x0,
   [⟨0, 32, .rw⟩, ⟨32, 32, .rw⟩]⟩

/-- GRV_WPKIDS[g]: R439, fields R217. -/
def row_GRV_WPKIDS : RegRow :=
  ⟨0x041100, 0x8, 16, 0x8, 1, fun _ _ => 0xFFFFFFFFFFFFFFFF,
   [⟨0, 16, .rw⟩, ⟨16, 16, .rw⟩, ⟨32, 16, .rw⟩, ⟨48, 16, .rw⟩]⟩

/-- GRV_WPRING[g]: R439, fields R217. -/
def row_GRV_WPRING : RegRow :=
  ⟨0x041180, 0x8, 16, 0x8, 1, fun _ _ => 0x0,
   [⟨0, 64, .ro⟩]⟩

/-- GRV_WIMG[i]_CTL: R439, fields R220. -/
def row_GRV_WIMG_CTL : RegRow :=
  ⟨0x041400, 0x20, 16, 0x8, 1, fun _ _ => 0xFFFF0000,
   [⟨0, 1, .rw⟩, ⟨1, 1, .rw⟩, ⟨2, 1, .wo⟩, ⟨3, 3, .ro⟩, ⟨6, 1, .w1c⟩, ⟨7, 4, .rw⟩, ⟨11, 5, .rsv⟩, ⟨16, 16, .rw⟩, ⟨32, 32, .rw⟩]⟩

/-- GRV_WIMG[i]_BASE: R439, fields R220. -/
def row_GRV_WIMG_BASE : RegRow :=
  ⟨0x041408, 0x20, 16, 0x8, 1, fun _ _ => 0x0,
   [⟨0, 32, .ro⟩, ⟨32, 32, .rw⟩]⟩

/-- GRV_WIMG[i]_GEN: R439, fields R220. -/
def row_GRV_WIMG_GEN : RegRow :=
  ⟨0x041410, 0x20, 16, 0x8, 1, fun _ _ => 0x0,
   [⟨0, 64, .ro⟩]⟩

/-- GRV_WIMG[i]_USE: R439, fields R220. -/
def row_GRV_WIMG_USE : RegRow :=
  ⟨0x041418, 0x20, 16, 0x8, 1, fun _ _ => 0x0,
   [⟨0, 16, .ro⟩, ⟨16, 1, .wo⟩, ⟨17, 15, .rsv⟩, ⟨32, 32, .ro⟩]⟩

/-- GRV_WIMG[i]_KIDS: R439, fields R220. -/
def row_GRV_WIMG_KIDS : RegRow :=
  ⟨0x041600, 0x8, 16, 0x8, 1, fun _ _ => 0xFFFFFFFFFFFFFFFF,
   [⟨0, 16, .rw⟩, ⟨16, 16, .rw⟩, ⟨32, 16, .rw⟩, ⟨48, 16, .rw⟩]⟩

/-- GRV_WPOOL: R439, fields R220. -/
def row_GRV_WPOOL : RegRow :=
  ⟨0x041680, 0x8, 1, 0x8, 1, fun _ _ => 0x0,
   [⟨0, 32, .rw⟩, ⟨32, 32, .rw⟩]⟩

/-- GRV_JOIN[g]: R439, fields R361. -/
def row_GRV_JOIN : RegRow :=
  ⟨0x041700, 0x8, 16, 0x8, 1, fun _ _ => 0x0,
   [⟨0, 3, .ro⟩, ⟨3, 1, .rsv⟩, ⟨4, 4, .ro⟩, ⟨8, 16, .ro⟩, ⟨24, 1, .ro⟩, ⟨25, 7, .rsv⟩, ⟨32, 32, .ro⟩]⟩

/-- Every register of the block GRV. -/
def block_GRV : List RegRow :=
  [row_GRV_ROWCFG, row_GRV_NEXTCFG, row_GRV_FOLDSTAT, row_GRV_THIN, row_GRV_WIT, row_GRV_FENCE, row_GRV_CLRCNT, row_GRV_MSTAT, row_GRV_LOST, row_GRV_RBLD, row_GRV_DEAD, row_GRV_SPAREV] ++
  [row_GRV_SPARE, row_GRV_CPADDR, row_GRV_CPCMD, row_GRV_CPSTAT, row_GRV_CPRING, row_GRV_CPPROG, row_GRV_WPCTL, row_GRV_WPBASE, row_GRV_WPKIDS, row_GRV_WPRING, row_GRV_WIMG_CTL, row_GRV_WIMG_BASE] ++
  [row_GRV_WIMG_GEN, row_GRV_WIMG_USE, row_GRV_WIMG_KIDS, row_GRV_WPOOL, row_GRV_JOIN]

/-- STP_VSEL: R440, fields R85. -/
def row_STP_VSEL : RegRow :=
  ⟨0x080000, 0x8, 1, 0x8, 1, fun _ _ => 0x0,
   [⟨0, 4, .rw⟩, ⟨4, 60, .rsv⟩]⟩

/-- STP_VREC[w]: R440, fields R85. -/
def row_STP_VREC : RegRow :=
  ⟨0x080010, 0x8, 4, 0x8, 1, fun _ _ => 0x0,
   [⟨0, 64, .ro⟩]⟩

/-- STP_GCTL[g]: R440, fields R85. -/
def row_STP_GCTL : RegRow :=
  ⟨0x080100, 0x8, 16, 0x8, 1, fun _ _ => 0x0,
   [⟨0, 1, .w1s⟩, ⟨1, 2, .rw⟩, ⟨3, 1, .rsv⟩, ⟨4, 4, .rw⟩, ⟨8, 16, .rw⟩, ⟨24, 1, .rw⟩, ⟨25, 39, .rsv⟩]⟩

/-- STP_GSTAT[g]: R440, fields R86. -/
def row_STP_GSTAT : RegRow :=
  ⟨0x080180, 0x8, 16, 0x8, 1, fun _ _ => 0x0,
   [⟨0, 4, .ro⟩, ⟨4, 1, .ro⟩, ⟨5, 1, .w1c⟩, ⟨6, 1, .ro⟩, ⟨7, 1, .w1c⟩, ⟨8, 8, .ro⟩, ⟨16, 16, .rc⟩, ⟨32, 16, .rc⟩, ⟨48, 16, .rsv⟩]⟩

/-- STP_SEEDLO[g]: R440, fields R86. -/
def row_STP_SEEDLO : RegRow :=
  ⟨0x080200, 0x8, 16, 0x8, 1, fun _ _ => 0x0,
   [⟨0, 64, .rw⟩]⟩

/-- STP_SEEDHI[g]: R440, fields R86. -/
def row_STP_SEEDHI : RegRow :=
  ⟨0x080280, 0x8, 16, 0x8, 1, fun _ _ => 0x0,
   [⟨0, 64, .rw⟩]⟩

/-- STP_CNT[g]: R440, fields R85. -/
def row_STP_CNT : RegRow :=
  ⟨0x080300, 0x8, 16, 0x8, 1, fun _ _ => 0x0,
   [⟨0, 16, .rc⟩, ⟨16, 16, .rc⟩, ⟨32, 16, .rc⟩, ⟨48, 16, .rc⟩]⟩

/-- STP_SCAL[g][x]: R440, fields R86. -/
def row_STP_SCAL : RegRow :=
  ⟨0x080400, 0x40, 16, 0x8, 8, fun _ _ => 0x0,
   [⟨0, 32, .rw⟩, ⟨32, 32, .rw⟩]⟩

/-- STP_SLOT[s]: R440, fields R95. -/
def row_STP_SLOT : RegRow :=
  ⟨0x080800, 0x8, 256, 0x8, 1, fun _ _ => 0x0,
   [⟨0, 11, .rw⟩, ⟨11, 6, .rw⟩, ⟨17, 11, .rw⟩, ⟨28, 6, .rw⟩, ⟨34, 1, .rw⟩, ⟨35, 29, .rsv⟩]⟩

/-- STP_PMEM[w]: R440, fields R440. -/
def row_STP_PMEM : RegRow :=
  ⟨0x081000, 0x8, 1024, 0x8, 1, fun _ _ => 0x0,
   [⟨0, 32, .rw⟩, ⟨32, 32, .rw⟩]⟩

/-- Every register of the block STP. -/
def block_STP : List RegRow :=
  [row_STP_VSEL, row_STP_VREC, row_STP_GCTL, row_STP_GSTAT, row_STP_SEEDLO, row_STP_SEEDHI, row_STP_CNT, row_STP_SCAL, row_STP_SLOT, row_STP_PMEM]

/-- CQ_CTL: R441, fields R136. -/
def row_CQ_CTL : RegRow :=
  ⟨0x0C0000, 0x8, 1, 0x8, 1, fun _ _ => 0x64,
   [⟨0, 16, .rw⟩, ⟨16, 48, .rsv⟩]⟩

/-- CQ_STATUS: R441, fields R136. -/
def row_CQ_STATUS : RegRow :=
  ⟨0x0C0008, 0x8, 1, 0x8, 1, fun _ _ => 0x1,
   [⟨0, 2, .ro⟩, ⟨2, 14, .rsv⟩, ⟨16, 16, .w1c⟩, ⟨32, 32, .rsv⟩]⟩

/-- CQ_ALGO: R441, fields R136. -/
def row_CQ_ALGO : RegRow :=
  ⟨0x0C0010, 0x8, 1, 0x8, 1, fun _ _ => 0x1000010,
   [⟨0, 16, .rw⟩, ⟨16, 16, .rw⟩, ⟨32, 32, .rsv⟩]⟩

/-- CQ_VCWT[x]: R441, fields R153. -/
def row_CQ_VCWT : RegRow :=
  ⟨0x0C0020, 0x8, 4, 0x8, 1, fun x _ => vcwtReset x,
   [⟨0, 8, .rw⟩, ⟨8, 8, .rw⟩, ⟨16, 8, .rw⟩, ⟨24, 8, .rw⟩, ⟨32, 8, .rw⟩, ⟨40, 8, .rw⟩, ⟨48, 16, .rsv⟩]⟩

/-- CQ_GSRC[g]: R441, fields R136. -/
def row_CQ_GSRC : RegRow :=
  ⟨0x0C0100, 0x8, 16, 0x8, 1, fun _ _ => 0x1,
   [⟨0, 5, .rw⟩, ⟨5, 27, .rsv⟩, ⟨32, 21, .ro⟩, ⟨53, 11, .rsv⟩]⟩

/-- CQ_GSHAPE[g]: R441, fields R136. -/
def row_CQ_GSHAPE : RegRow :=
  ⟨0x0C0180, 0x8, 16, 0x8, 1, fun _ _ => 0x0,
   [⟨0, 8, .ro⟩, ⟨8, 8, .ro⟩, ⟨16, 8, .ro⟩, ⟨24, 8, .ro⟩, ⟨32, 1, .ro⟩, ⟨33, 31, .rsv⟩]⟩

/-- CQ_QBASE[q]: R441, fields R137. -/
def row_CQ_QBASE : RegRow :=
  ⟨0x0C0200, 0x20, 16, 0x8, 1, fun _ _ => 0x4000000000000,
   [⟨0, 12, .rsv⟩, ⟨12, 32, .rw⟩, ⟨44, 4, .rsv⟩, ⟨48, 4, .rw⟩, ⟨52, 12, .rsv⟩]⟩

/-- CQ_QTAIL[q]: R441, fields R137. -/
def row_CQ_QTAIL : RegRow :=
  ⟨0x0C0208, 0x20, 16, 0x8, 1, fun _ _ => 0x0,
   [⟨0, 16, .rw⟩, ⟨16, 48, .rsv⟩]⟩

/-- CQ_QSTAT[q]: R441, fields R137. -/
def row_CQ_QSTAT : RegRow :=
  ⟨0x0C0210, 0x20, 16, 0x8, 1, fun _ _ => 0x0,
   [⟨0, 2, .ro⟩, ⟨2, 2, .rsv⟩, ⟨4, 4, .ro⟩, ⟨8, 8, .rsv⟩, ⟨16, 16, .ro⟩, ⟨32, 32, .ro⟩]⟩

/-- CQ_QCTL[q]: R441, fields R137. -/
def row_CQ_QCTL : RegRow :=
  ⟨0x0C0218, 0x20, 16, 0x8, 1, fun _ _ => 0x0,
   [⟨0, 1, .rw⟩, ⟨1, 1, .wo⟩, ⟨2, 1, .wo⟩, ⟨3, 61, .rsv⟩]⟩

/-- CQ_TOK[x]: R441, fields R137. -/
def row_CQ_TOK : RegRow :=
  ⟨0x0C0400, 0x8, 256, 0x8, 1, fun _ _ => 0x0,
   [⟨0, 32, .rw⟩, ⟨32, 32, .rsv⟩]⟩

/-- Every register of the block CQ. -/
def block_CQ : List RegRow :=
  [row_CQ_CTL, row_CQ_STATUS, row_CQ_ALGO, row_CQ_VCWT, row_CQ_GSRC, row_CQ_GSHAPE, row_CQ_QBASE, row_CQ_QTAIL, row_CQ_QSTAT, row_CQ_QCTL, row_CQ_TOK]

/-- TIL[t]_STATUS: R442, fields R115. -/
def row_TIL_STATUS : RegRow :=
  ⟨0x100000, 0x1000, 64, 0x8, 1, fun t _ => 1 + 4 * (t / 16),
   [⟨0, 1, .ro⟩, ⟨1, 1, .ro⟩, ⟨2, 2, .ro⟩, ⟨4, 60, .rsv⟩]⟩

/-- TIL[t]_EXC: R442, fields R115. -/
def row_TIL_EXC : RegRow :=
  ⟨0x100008, 0x1000, 64, 0x8, 1, fun _ _ => 0x0,
   [⟨0, 1, .w1c⟩, ⟨1, 1, .w1c⟩, ⟨2, 1, .w1c⟩, ⟨3, 1, .w1c⟩, ⟨4, 12, .rsv⟩, ⟨16, 16, .rc⟩, ⟨32, 32, .rsv⟩]⟩

/-- TIL[t]_CTX: R442, fields R115. -/
def row_TIL_CTX : RegRow :=
  ⟨0x100010, 0x1000, 64, 0x8, 1, fun _ _ => 0x0,
   [⟨0, 10, .ro⟩, ⟨10, 10, .rc⟩, ⟨20, 12, .rsv⟩, ⟨32, 16, .rc⟩, ⟨48, 16, .rsv⟩]⟩

/-- TIL[t]_GANG: R442, fields R116. -/
def row_TIL_GANG : RegRow :=
  ⟨0x100018, 0x1000, 64, 0x8, 1, fun _ _ => 0x0,
   [⟨0, 2, .ro⟩, ⟨2, 5, .ro⟩, ⟨7, 57, .rsv⟩]⟩

/-- TIL[t]_WORK: R442, fields R116. -/
def row_TIL_WORK : RegRow :=
  ⟨0x100020, 0x1000, 64, 0x8, 1, fun _ _ => 0x0,
   [⟨0, 32, .rc⟩, ⟨32, 32, .rc⟩]⟩

/-- TIL[t]_RNGIN[w]: R442, fields R116. -/
def row_TIL_RNGIN : RegRow :=
  ⟨0x100040, 0x1000, 64, 0x8, 4, fun _ _ => 0x0,
   [⟨0, 64, .rw⟩]⟩

/-- TIL[t]_RNGOUT0: R442, fields R116. -/
def row_TIL_RNGOUT0 : RegRow :=
  ⟨0x100060, 0x1000, 64, 0x8, 1, fun _ _ => 0x0,
   [⟨0, 64, .ro⟩]⟩

/-- TIL[t]_RNGOUT1: R442, fields R116. -/
def row_TIL_RNGOUT1 : RegRow :=
  ⟨0x100068, 0x1000, 64, 0x8, 1, fun _ _ => 0x0,
   [⟨0, 64, .ro⟩]⟩

/-- TIL[t]_SRAMCFG: R442, fields R304. -/
def row_TIL_SRAMCFG : RegRow :=
  ⟨0x100200, 0x1000, 64, 0x8, 1, fun _ _ => 0x440,
   [⟨0, 8, .rw⟩, ⟨8, 4, .rw⟩, ⟨12, 52, .rsv⟩]⟩

/-- TIL[t]_SRAMSTAT: R442, fields R304. -/
def row_TIL_SRAMSTAT : RegRow :=
  ⟨0x100208, 0x1000, 64, 0x8, 1, fun _ _ => 0x0,
   [⟨0, 9, .ro⟩, ⟨9, 9, .ro⟩, ⟨18, 6, .ro⟩, ⟨24, 1, .ro⟩, ⟨25, 1, .ro⟩, ⟨26, 38, .rsv⟩]⟩

/-- TIL[t]_STAGE: R442, fields R304. -/
def row_TIL_STAGE : RegRow :=
  ⟨0x100210, 0x1000, 64, 0x8, 1, fun _ _ => 0x0,
   [⟨0, 32, .rc⟩, ⟨32, 32, .rc⟩]⟩

/-- TIL[t]_PERR: R442, fields R304. -/
def row_TIL_PERR : RegRow :=
  ⟨0x100218, 0x1000, 64, 0x8, 1, fun _ _ => 0x0,
   [⟨0, 16, .rc⟩, ⟨16, 15, .ro⟩, ⟨31, 1, .rsv⟩, ⟨32, 16, .rc⟩, ⟨48, 16, .rsv⟩]⟩

/-- TIL[t]_REMAP[x]: R442, fields R304. -/
def row_TIL_REMAP : RegRow :=
  ⟨0x100300, 0x1000, 64, 0x8, 16, fun _ _ => 0x0,
   [⟨0, 15, .ro⟩, ⟨15, 1, .ro⟩, ⟨16, 48, .rsv⟩]⟩

/-- Every register of the block TIL. -/
def block_TIL : List RegRow :=
  [row_TIL_STATUS, row_TIL_EXC, row_TIL_CTX, row_TIL_GANG, row_TIL_WORK, row_TIL_RNGIN, row_TIL_RNGOUT0, row_TIL_RNGOUT1, row_TIL_SRAMCFG, row_TIL_SRAMSTAT, row_TIL_STAGE, row_TIL_PERR] ++
  [row_TIL_REMAP]

/-- RTR_SELF: R443, fields R274. -/
def row_RTR_SELF : RegRow :=
  ⟨0x140000, 0x8, 1, 0x8, 1, fun _ _ => 0xFFFF,
   [⟨0, 16, .rw⟩, ⟨16, 8, .ro⟩, ⟨24, 8, .ro⟩, ⟨32, 8, .ro⟩, ⟨40, 8, .ro⟩, ⟨48, 1, .ro⟩, ⟨49, 15, .rsv⟩]⟩

/-- RTR_SHAPE: R443, fields R274. -/
def row_RTR_SHAPE : RegRow :=
  ⟨0x140008, 0x8, 1, 0x8, 1, fun _ _ => 0x0,
   [⟨0, 7, .rw⟩, ⟨8, 7, .rw⟩, ⟨16, 7, .rw⟩, ⟨24, 7, .rw⟩, ⟨32, 1, .rw⟩, ⟨33, 31, .rsv⟩]⟩

/-- RTR_CTL: R443, fields R274. -/
def row_RTR_CTL : RegRow :=
  ⟨0x140010, 0x8, 1, 0x8, 1, fun _ _ => 0x40,
   [⟨0, 8, .rw⟩, ⟨8, 56, .rsv⟩]⟩

/-- RTR_THROT: R443, fields R274. -/
def row_RTR_THROT : RegRow :=
  ⟨0x140018, 0x8, 1, 0x8, 1, fun _ _ => 0x2008001000,
   [⟨0, 16, .rw⟩, ⟨16, 16, .rw⟩, ⟨32, 8, .rw⟩, ⟨40, 24, .rsv⟩]⟩

/-- RTR_PORTUP: R443, fields R274. -/
def row_RTR_PORTUP : RegRow :=
  ⟨0x140020, 0x8, 1, 0x8, 1, fun _ _ => 0x0,
   [⟨0, 44, .ro⟩, ⟨44, 20, .rsv⟩]⟩

/-- RTR_DROP: R443, fields R293. -/
def row_RTR_DROP : RegRow :=
  ⟨0x140028, 0x8, 1, 0x8, 1, fun _ _ => 0x0,
   [⟨0, 16, .rc⟩, ⟨16, 16, .rc⟩, ⟨32, 16, .rc⟩, ⟨48, 16, .rc⟩]⟩

/-- RTR_XSTAT: R443, fields R293. -/
def row_RTR_XSTAT : RegRow :=
  ⟨0x140030, 0x8, 1, 0x8, 1, fun _ _ => 0x0,
   [⟨0, 16, .rc⟩, ⟨16, 16, .rc⟩, ⟨32, 16, .rc⟩, ⟨48, 16, .rc⟩]⟩

/-- RTR_MAPADDR: R443, fields R287. -/
def row_RTR_MAPADDR : RegRow :=
  ⟨0x140038, 0x8, 1, 0x8, 1, fun _ _ => 0x0,
   [⟨0, 16, .rw⟩, ⟨16, 48, .rsv⟩]⟩

/-- RTR_MAPDATA: R443, fields R287. -/
def row_RTR_MAPDATA : RegRow :=
  ⟨0x140040, 0x8, 1, 0x8, 1, fun _ _ => 0xFFFF,
   [⟨0, 16, .rw⟩, ⟨16, 1, .rw⟩, ⟨17, 47, .rsv⟩]⟩

/-- RTR_MAPCFG[g]: R443, fields R287. -/
def row_RTR_MAPCFG : RegRow :=
  ⟨0x140080, 0x8, 16, 0x8, 1, fun _ _ => 0x0,
   [⟨0, 16, .rw⟩, ⟨16, 16, .ro⟩, ⟨32, 17, .rw⟩, ⟨49, 15, .rsv⟩]⟩

/-- RTR_SPAN[g]: R443, fields R287. -/
def row_RTR_SPAN : RegRow :=
  ⟨0x140100, 0x8, 16, 0x8, 1, fun _ _ => 0x0,
   [⟨0, 16, .rw⟩, ⟨16, 8, .rw⟩, ⟨24, 1, .rw⟩, ⟨25, 39, .rsv⟩]⟩

/-- Every register of the block RTR. -/
def block_RTR : List RegRow :=
  [row_RTR_SELF, row_RTR_SHAPE, row_RTR_CTL, row_RTR_THROT, row_RTR_PORTUP, row_RTR_DROP, row_RTR_XSTAT, row_RTR_MAPADDR, row_RTR_MAPDATA, row_RTR_MAPCFG, row_RTR_SPAN]

/-- LNK[p]_CTL: R444, fields R270. -/
def row_LNK_CTL : RegRow :=
  ⟨0x180000, 0x1000, 32, 0x8, 1, fun _ _ => 0xFFC,
   [⟨0, 1, .rw⟩, ⟨1, 1, .wo⟩, ⟨2, 8, .rw⟩, ⟨10, 1, .rw⟩, ⟨11, 1, .rw⟩, ⟨12, 52, .rsv⟩]⟩

/-- LNK[p]_STATUS: R444, fields R270. -/
def row_LNK_STATUS : RegRow :=
  ⟨0x180008, 0x1000, 32, 0x8, 1, fun _ _ => 0x0,
   [⟨0, 3, .ro⟩, ⟨3, 1, .ro⟩, ⟨4, 1, .ro⟩, ⟨5, 3, .rsv⟩, ⟨8, 8, .rc⟩, ⟨16, 48, .rsv⟩]⟩

/-- LNK[p]_WIDTH: R444, fields R270. -/
def row_LNK_WIDTH : RegRow :=
  ⟨0x180010, 0x1000, 32, 0x8, 1, fun _ _ => 0x0,
   [⟨0, 8, .ro⟩, ⟨8, 8, .ro⟩, ⟨16, 8, .ro⟩, ⟨24, 8, .rsv⟩, ⟨32, 16, .rc⟩, ⟨48, 16, .rsv⟩]⟩

/-- LNK[p]_DOZE: R444, fields R270. -/
def row_LNK_DOZE : RegRow :=
  ⟨0x180018, 0x1000, 32, 0x8, 1, fun _ _ => 0x32,
   [⟨0, 16, .rw⟩, ⟨16, 16, .rc⟩, ⟨32, 8, .rc⟩, ⟨40, 8, .rc⟩, ⟨48, 16, .rsv⟩]⟩

/-- LNK[p]_TRIM: R444, fields R271. -/
def row_LNK_TRIM : RegRow :=
  ⟨0x180020, 0x1000, 32, 0x8, 1, fun _ _ => 0x0,
   [⟨0, 1, .wo⟩, ⟨1, 1, .ro⟩, ⟨2, 1, .ro⟩, ⟨3, 1, .rsv⟩, ⟨4, 7, .ro⟩, ⟨11, 7, .ro⟩, ⟨18, 14, .rsv⟩, ⟨32, 32, .ro⟩]⟩

/-- LNK[p]_PEER: R444, fields R271. -/
def row_LNK_PEER : RegRow :=
  ⟨0x180028, 0x1000, 32, 0x8, 1, fun _ _ => 0xFFFF,
   [⟨0, 16, .ro⟩, ⟨16, 5, .ro⟩, ⟨21, 1, .ro⟩, ⟨22, 10, .rsv⟩, ⟨32, 16, .ro⟩, ⟨48, 16, .rsv⟩]⟩

/-- LNK[p]_ERR: R444, fields R271. -/
def row_LNK_ERR : RegRow :=
  ⟨0x180030, 0x1000, 32, 0x8, 1, fun _ _ => 0x0,
   [⟨0, 16, .rc⟩, ⟨16, 16, .rc⟩, ⟨32, 8, .rc⟩, ⟨40, 8, .rc⟩, ⟨48, 8, .rc⟩, ⟨56, 8, .rc⟩]⟩

/-- LNK[p]_RETRY: R444, fields R271. -/
def row_LNK_RETRY : RegRow :=
  ⟨0x180038, 0x1000, 32, 0x8, 1, fun _ _ => 0x0,
   [⟨0, 16, .rc⟩, ⟨16, 16, .rc⟩, ⟨32, 8, .rc⟩, ⟨40, 8, .rc⟩, ⟨48, 8, .rc⟩, ⟨56, 8, .rsv⟩]⟩

/-- LNK[p]_FEC: R444, fields R271. -/
def row_LNK_FEC : RegRow :=
  ⟨0x180040, 0x1000, 32, 0x8, 1, fun _ _ => 0x0,
   [⟨0, 32, .rc⟩, ⟨32, 16, .rc⟩, ⟨48, 16, .rc⟩]⟩

/-- LNK[p]_LMARG[i]: R444, fields R419. -/
def row_LNK_LMARG : RegRow :=
  ⟨0x180200, 0x1000, 32, 0x10, 8, fun _ _ => 0x0,
   [⟨0, 40, .rc⟩, ⟨40, 4, .rc⟩, ⟨44, 1, .w1c⟩, ⟨45, 19, .rsv⟩]⟩

/-- LNK[p]_LHIST[i]: R444, fields R419. -/
def row_LNK_LHIST : RegRow :=
  ⟨0x180208, 0x1000, 32, 0x10, 8, fun _ _ => 0x0,
   [⟨0, 16, .rc⟩, ⟨16, 16, .rc⟩, ⟨32, 16, .rc⟩, ⟨48, 16, .rc⟩]⟩

/-- Every register of the block LNK. -/
def block_LNK : List RegRow :=
  [row_LNK_CTL, row_LNK_STATUS, row_LNK_WIDTH, row_LNK_DOZE, row_LNK_TRIM, row_LNK_PEER, row_LNK_ERR, row_LNK_RETRY, row_LNK_FEC, row_LNK_LMARG, row_LNK_LHIST]

/-- MPT[q]_SIZE: R445, fields R297. -/
def row_MPT_SIZE : RegRow :=
  ⟨0x1C0000, 0x100, 8, 0x8, 1, fun _ _ => 0x0,
   [⟨0, 32, .rw⟩, ⟨32, 32, .rsv⟩]⟩

/-- MPT[q]_STAT: R445, fields R297. -/
def row_MPT_STAT : RegRow :=
  ⟨0x1C0008, 0x100, 8, 0x8, 1, fun _ _ => 0x0,
   [⟨0, 10, .ro⟩, ⟨10, 6, .rsv⟩, ⟨16, 9, .ro⟩, ⟨25, 7, .rsv⟩, ⟨32, 1, .ro⟩, ⟨33, 31, .rsv⟩]⟩

/-- MPT[q]_ERR: R445, fields R297. -/
def row_MPT_ERR : RegRow :=
  ⟨0x1C0010, 0x100, 8, 0x8, 1, fun _ _ => 0x0,
   [⟨0, 16, .rc⟩, ⟨16, 16, .rc⟩, ⟨32, 16, .rc⟩, ⟨48, 16, .rc⟩]⟩

/-- MPT[q]_WW: R445, fields R297. -/
def row_MPT_WW : RegRow :=
  ⟨0x1C0018, 0x100, 8, 0x8, 1, fun _ _ => 0x0,
   [⟨0, 32, .rc⟩, ⟨32, 16, .rc⟩, ⟨48, 16, .rc⟩]⟩

/-- MPT[q]_WWPEND: R445, fields R297. -/
def row_MPT_WWPEND : RegRow :=
  ⟨0x1C0020, 0x100, 8, 0x8, 1, fun _ _ => 0x0,
   [⟨0, 3, .ro⟩, ⟨3, 29, .rsv⟩, ⟨32, 32, .ro⟩]⟩

/-- MPT_TOP: R445, fields R297. -/
def row_MPT_TOP : RegRow :=
  ⟨0x1C0800, 0x8, 1, 0x8, 1, fun _ _ => 0x0,
   [⟨0, 32, .ro⟩, ⟨32, 32, .rsv⟩]⟩

/-- BGT_CTL: R445, fields R312. -/
def row_BGT_CTL : RegRow :=
  ⟨0x1C1000, 0x8, 1, 0x8, 1, fun _ _ => 0x0,
   [⟨0, 2, .ro⟩, ⟨2, 62, .rsv⟩]⟩

/-- BGT_SET[s][c]: R445, fields R312. -/
def row_BGT_SET : RegRow :=
  ⟨0x1C1100, 0x40, 4, 0x8, 8, fun _ c => bgtSetReset c,
   [⟨0, 9, .rw⟩, ⟨9, 7, .rsv⟩, ⟨16, 9, .rw⟩, ⟨25, 39, .rsv⟩]⟩

/-- BGT_TOTAL[s]: R445, fields R312. -/
def row_BGT_TOTAL : RegRow :=
  ⟨0x1C1200, 0x8, 4, 0x8, 1, fun _ _ => 0x80001000C0,
   [⟨0, 9, .rw⟩, ⟨9, 7, .rsv⟩, ⟨16, 9, .rw⟩, ⟨25, 7, .rsv⟩, ⟨32, 9, .rw⟩, ⟨41, 23, .rsv⟩]⟩

/-- BGT_USE[c]: R445, fields R312. -/
def row_BGT_USE : RegRow :=
  ⟨0x1C1280, 0x8, 8, 0x8, 1, fun _ _ => 0x0,
   [⟨0, 32, .rc⟩, ⟨32, 32, .rc⟩]⟩

/-- BGT_SHORT: R445, fields R312. -/
def row_BGT_SHORT : RegRow :=
  ⟨0x1C12C0, 0x8, 1, 0x8, 1, fun _ _ => 0x0,
   [⟨0, 8, .w1c⟩, ⟨8, 1, .w1c⟩, ⟨9, 55, .rsv⟩]⟩

/-- BGT_SCRUB: R445, fields R319. -/
def row_BGT_SCRUB : RegRow :=
  ⟨0x1C1300, 0x8, 1, 0x8, 1, fun _ _ => 0x1000,
   [⟨0, 1, .rw⟩, ⟨1, 7, .rsv⟩, ⟨8, 8, .rw⟩, ⟨16, 16, .rsv⟩, ⟨32, 32, .rc⟩]⟩

/-- BGT_AUDCTL: R445, fields R319. -/
def row_BGT_AUDCTL : RegRow :=
  ⟨0x1C1308, 0x8, 1, 0x8, 1, fun _ _ => 0x800,
   [⟨0, 1, .rw⟩, ⟨1, 3, .rsv⟩, ⟨4, 4, .rw⟩, ⟨8, 8, .rw⟩, ⟨16, 1, .w1c⟩, ⟨17, 47, .rsv⟩]⟩

/-- BGT_AUDSUM[w]: R445, fields R319. -/
def row_BGT_AUDSUM : RegRow :=
  ⟨0x1C1320, 0x8, 4, 0x8, 1, fun _ _ => 0x0,
   [⟨0, 64, .ro⟩]⟩

/-- Every register of the block MPTBGT. -/
def block_MPTBGT : List RegRow :=
  [row_MPT_SIZE, row_MPT_STAT, row_MPT_ERR, row_MPT_WW, row_MPT_WWPEND, row_MPT_TOP, row_BGT_CTL, row_BGT_SET, row_BGT_TOTAL, row_BGT_USE, row_BGT_SHORT, row_BGT_SCRUB] ++
  [row_BGT_AUDCTL, row_BGT_AUDSUM]

/-- SEC_STATUS: R446, fields R341. -/
def row_SEC_STATUS : RegRow :=
  ⟨0x200000, 0x8, 1, 0x8, 1, fun _ _ => 0x4,
   [⟨0, 1, .ro⟩, ⟨1, 1, .ro⟩, ⟨2, 1, .ro⟩, ⟨3, 61, .rsv⟩]⟩

/-- SEC_DEVID: R446, fields R341. -/
def row_SEC_DEVID : RegRow :=
  ⟨0x200008, 0x8, 1, 0x8, 1, fun _ _ => 0x0,
   [⟨0, 64, .ro⟩]⟩

/-- SEC_KLOAD: R446, fields R341. -/
def row_SEC_KLOAD : RegRow :=
  ⟨0x200010, 0x8, 1, 0x8, 1, fun _ _ => 0x0,
   [⟨0, 1, .wo⟩, ⟨1, 5, .rsv⟩, ⟨6, 38, .rw⟩, ⟨44, 4, .rsv⟩, ⟨48, 4, .ro⟩, ⟨52, 1, .ro⟩, ⟨53, 11, .rsv⟩]⟩

/-- SEC_SEAL: R446, fields R341. -/
def row_SEC_SEAL : RegRow :=
  ⟨0x200018, 0x8, 1, 0x8, 1, fun _ _ => 0x0,
   [⟨0, 24, .ro⟩, ⟨24, 8, .rsv⟩, ⟨32, 32, .ro⟩]⟩

/-- SEC_ERR: R446, fields R341. -/
def row_SEC_ERR : RegRow :=
  ⟨0x200020, 0x8, 1, 0x8, 1, fun _ _ => 0x0,
   [⟨0, 16, .rc⟩, ⟨16, 16, .rc⟩, ⟨32, 16, .rc⟩, ⟨48, 16, .rsv⟩]⟩

/-- SEC_CHAL: R446, fields R341. -/
def row_SEC_CHAL : RegRow :=
  ⟨0x200028, 0x8, 1, 0x8, 1, fun _ _ => 0x0,
   [⟨0, 64, .ro⟩]⟩

/-- SEC_TOKEN: R446, fields R341. -/
def row_SEC_TOKEN : RegRow :=
  ⟨0x200030, 0x8, 1, 0x8, 1, fun _ _ => 0x0,
   [⟨0, 1, .wo⟩, ⟨1, 5, .rsv⟩, ⟨6, 38, .rw⟩, ⟨44, 4, .rsv⟩, ⟨48, 4, .ro⟩, ⟨52, 1, .ro⟩, ⟨53, 11, .rsv⟩]⟩

/-- SEC_DEVPUB[w]: R446, fields R341. -/
def row_SEC_DEVPUB : RegRow :=
  ⟨0x200040, 0x8, 12, 0x8, 1, fun _ _ => 0x0,
   [⟨0, 64, .ro⟩]⟩

/-- SEC_KSLOT[x]: R446, fields R341. -/
def row_SEC_KSLOT : RegRow :=
  ⟨0x200100, 0x8, 32, 0x8, 1, fun _ _ => 0x0,
   [⟨0, 32, .ro⟩, ⟨32, 1, .ro⟩, ⟨33, 1, .ro⟩, ⟨34, 1, .ro⟩, ⟨35, 1, .ro⟩, ⟨36, 28, .rsv⟩]⟩

/-- SEC_KSTRM[x]: R446, fields R341. -/
def row_SEC_KSTRM : RegRow :=
  ⟨0x200200, 0x8, 16, 0x8, 1, fun _ _ => 0x0,
   [⟨0, 32, .ro⟩, ⟨32, 32, .rsv⟩]⟩

/-- FUS_LCS: R446, fields R325. -/
def row_FUS_LCS : RegRow :=
  ⟨0x201000, 0x8, 1, 0x8, 1, fun _ _ => 0x0,
   [⟨0, 3, .ro⟩, ⟨3, 3, .ro⟩, ⟨6, 1, .ro⟩, ⟨7, 1, .ro⟩, ⟨8, 4, .ro⟩, ⟨12, 52, .rsv⟩]⟩

/-- FUS_LCCMD: R446, fields R325. -/
def row_FUS_LCCMD : RegRow :=
  ⟨0x201008, 0x8, 1, 0x8, 1, fun _ _ => 0x0,
   [⟨0, 3, .wo⟩, ⟨3, 29, .rsv⟩, ⟨32, 32, .wo⟩]⟩

/-- FUS_TILEMAP: R446, fields R325. -/
def row_FUS_TILEMAP : RegRow :=
  ⟨0x201010, 0x8, 1, 0x8, 1, fun _ _ => 0x0,
   [⟨0, 64, .ro⟩]⟩

/-- FUS_POLICY: R446, fields R325. -/
def row_FUS_POLICY : RegRow :=
  ⟨0x201018, 0x8, 1, 0x8, 1, fun _ _ => 0x0,
   [⟨0, 1, .ro⟩, ⟨1, 5, .ro⟩, ⟨6, 1, .ro⟩, ⟨7, 1, .ro⟩, ⟨8, 1, .ro⟩, ⟨9, 1, .ro⟩, ⟨10, 54, .rsv⟩]⟩

/-- FUS_IKREV: R446, fields R325. -/
def row_FUS_IKREV : RegRow :=
  ⟨0x201020, 0x8, 1, 0x8, 1, fun _ _ => 0x0,
   [⟨0, 2, .ro⟩, ⟨2, 2, .ro⟩, ⟨4, 60, .rsv⟩]⟩

/-- FUS_PCMD: R446, fields R325. -/
def row_FUS_PCMD : RegRow :=
  ⟨0x201028, 0x8, 1, 0x8, 1, fun _ _ => 0x0,
   [⟨0, 1, .wo⟩, ⟨1, 2, .rw⟩, ⟨3, 3, .rsv⟩, ⟨6, 38, .rw⟩, ⟨44, 4, .rsv⟩, ⟨48, 3, .ro⟩, ⟨51, 13, .rsv⟩]⟩

/-- FUS_IKH[w]: R446, fields R325. -/
def row_FUS_IKH : RegRow :=
  ⟨0x201040, 0x8, 12, 0x8, 1, fun _ _ => 0x0,
   [⟨0, 64, .ro⟩]⟩

/-- Every register of the block SECFUS. -/
def block_SECFUS : List RegRow :=
  [row_SEC_STATUS, row_SEC_DEVID, row_SEC_KLOAD, row_SEC_SEAL, row_SEC_ERR, row_SEC_CHAL, row_SEC_TOKEN, row_SEC_DEVPUB, row_SEC_KSLOT, row_SEC_KSTRM, row_FUS_LCS, row_FUS_LCCMD] ++
  [row_FUS_TILEMAP, row_FUS_POLICY, row_FUS_IKREV, row_FUS_PCMD, row_FUS_IKH]

/-- RGR_DCTL: R447, fields R407. -/
def row_RGR_DCTL : RegRow :=
  ⟨0x240000, 0x8, 1, 0x8, 1, fun _ _ => 0x0,
   [⟨0, 1, .wo⟩, ⟨1, 1, .wo⟩, ⟨2, 1, .wo⟩, ⟨3, 1, .wo⟩, ⟨4, 28, .rsv⟩, ⟨32, 32, .wo⟩]⟩

/-- RGR_DSTAT: R447, fields R407. -/
def row_RGR_DSTAT : RegRow :=
  ⟨0x240008, 0x8, 1, 0x8, 1, fun _ _ => 0x0,
   [⟨0, 2, .ro⟩, ⟨2, 3, .ro⟩, ⟨5, 1, .w1c⟩, ⟨6, 10, .rsv⟩, ⟨16, 16, .ro⟩, ⟨32, 32, .rsv⟩]⟩

/-- RGR_PC: R447, fields R407. -/
def row_RGR_PC : RegRow :=
  ⟨0x240010, 0x8, 1, 0x8, 1, fun _ _ => 0x0,
   [⟨0, 32, .ro⟩, ⟨32, 32, .rsv⟩]⟩

/-- RGR_DADDR: R447, fields R407. -/
def row_RGR_DADDR : RegRow :=
  ⟨0x240018, 0x8, 1, 0x8, 1, fun _ _ => 0x0,
   [⟨3, 18, .rw⟩]⟩

/-- RGR_DDATA: R447, fields R407. -/
def row_RGR_DDATA : RegRow :=
  ⟨0x240020, 0x8, 1, 0x8, 1, fun _ _ => 0x0,
   [⟨0, 64, .rw⟩]⟩

/-- RGR_BKPT[x]: R447, fields R407. -/
def row_RGR_BKPT : RegRow :=
  ⟨0x240040, 0x8, 4, 0x8, 1, fun _ _ => 0x0,
   [⟨0, 1, .rw⟩, ⟨1, 1, .rsv⟩, ⟨2, 30, .rw⟩, ⟨32, 32, .rsv⟩]⟩

/-- Every register of the block RGR. -/
def block_RGR : List RegRow :=
  [row_RGR_DCTL, row_RGR_DSTAT, row_RGR_PC, row_RGR_DADDR, row_RGR_DDATA, row_RGR_BKPT]

/-- NVM_STATUS: R448, fields R367. -/
def row_NVM_STATUS : RegRow :=
  ⟨0x280000, 0x8, 1, 0x8, 1, fun _ _ => 0x0,
   [⟨0, 1, .ro⟩, ⟨1, 4, .ro⟩, ⟨5, 3, .rsv⟩, ⟨8, 5, .ro⟩, ⟨13, 1, .ro⟩, ⟨14, 2, .rsv⟩, ⟨16, 3, .ro⟩, ⟨19, 5, .rsv⟩, ⟨24, 5, .ro⟩, ⟨29, 35, .rsv⟩]⟩

/-- NVM_CMD: R448, fields R367. -/
def row_NVM_CMD : RegRow :=
  ⟨0x280008, 0x8, 1, 0x8, 1, fun _ _ => 0x0,
   [⟨0, 2, .rw⟩, ⟨2, 1, .wo⟩, ⟨3, 5, .rsv⟩, ⟨8, 8, .rw⟩, ⟨16, 16, .rsv⟩, ⟨32, 24, .rw⟩, ⟨56, 8, .rsv⟩]⟩

/-- NVM_REC: R448, fields R367. -/
def row_NVM_REC : RegRow :=
  ⟨0x280010, 0x8, 1, 0x8, 1, fun _ _ => 0x0,
   [⟨0, 1, .ro⟩, ⟨1, 1, .ro⟩, ⟨2, 13, .ro⟩, ⟨15, 1, .rsv⟩, ⟨16, 32, .ro⟩, ⟨48, 16, .rsv⟩]⟩

/-- NVM_ERR: R448, fields R367. -/
def row_NVM_ERR : RegRow :=
  ⟨0x280018, 0x8, 1, 0x8, 1, fun _ _ => 0x0,
   [⟨0, 16, .rc⟩, ⟨16, 16, .rc⟩, ⟨32, 16, .rc⟩, ⟨48, 16, .rc⟩]⟩

/-- NVM_BUF[w]: R448, fields R448. -/
def row_NVM_BUF : RegRow :=
  ⟨0x280100, 0x8, 32, 0x8, 1, fun _ _ => 0x0,
   [⟨0, 64, .rw⟩]⟩

/-- Every register of the block NVM. -/
def block_NVM : List RegRow :=
  [row_NVM_STATUS, row_NVM_CMD, row_NVM_REC, row_NVM_ERR, row_NVM_BUF]

/-- MGB_CTL: R449, fields R387. -/
def row_MGB_CTL : RegRow :=
  ⟨0x2C0000, 0x8, 1, 0x8, 1, fun _ _ => 0x32B,
   [⟨0, 1, .rw⟩, ⟨1, 1, .rw⟩, ⟨2, 1, .rw⟩, ⟨3, 1, .rw⟩, ⟨4, 8, .rw⟩, ⟨12, 52, .rsv⟩]⟩

/-- MGB_STATUS: R449, fields R387. -/
def row_MGB_STATUS : RegRow :=
  ⟨0x2C0008, 0x8, 1, 0x8, 1, fun _ _ => 0x0,
   [⟨0, 6, .ro⟩, ⟨6, 3, .ro⟩, ⟨9, 3, .ro⟩, ⟨12, 1, .ro⟩, ⟨13, 1, .ro⟩, ⟨14, 6, .ro⟩, ⟨20, 44, .rsv⟩]⟩

/-- MGB_ERRA: R449, fields R387. -/
def row_MGB_ERRA : RegRow :=
  ⟨0x2C0010, 0x8, 1, 0x8, 1, fun _ _ => 0x0,
   [⟨0, 8, .ro⟩, ⟨8, 8, .ro⟩, ⟨16, 16, .rc⟩, ⟨32, 16, .rc⟩, ⟨48, 16, .rc⟩]⟩

/-- MGB_ERRB: R449, fields R387. -/
def row_MGB_ERRB : RegRow :=
  ⟨0x2C0018, 0x8, 1, 0x8, 1, fun _ _ => 0x0,
   [⟨0, 8, .ro⟩, ⟨8, 8, .ro⟩, ⟨16, 16, .rc⟩, ⟨32, 16, .rc⟩, ⟨48, 16, .rc⟩]⟩

/-- MGB_CNT: R449, fields R387. -/
def row_MGB_CNT : RegRow :=
  ⟨0x2C0020, 0x8, 1, 0x8, 1, fun _ _ => 0x0,
   [⟨0, 16, .rc⟩, ⟨16, 16, .rc⟩, ⟨32, 16, .rc⟩, ⟨48, 16, .rc⟩]⟩

/-- MGB_NOTE: R449, fields R387. -/
def row_MGB_NOTE : RegRow :=
  ⟨0x2C0028, 0x8, 1, 0x8, 1, fun _ _ => 0x0,
   [⟨0, 32, .ro⟩, ⟨32, 32, .rsv⟩]⟩

/-- Every register of the block MGB. -/
def block_MGB : List RegRow :=
  [row_MGB_CTL, row_MGB_STATUS, row_MGB_ERRA, row_MGB_ERRB, row_MGB_CNT, row_MGB_NOTE]

/-- EVR_CTL: R450, fields R399. -/
def row_EVR_CTL : RegRow :=
  ⟨0x300000, 0x8, 1, 0x8, 1, fun _ _ => 0x1C,
   [⟨0, 4, .rw⟩, ⟨4, 1, .rw⟩, ⟨5, 59, .rsv⟩]⟩

/-- EVR_STATUS: R450, fields R399. -/
def row_EVR_STATUS : RegRow :=
  ⟨0x300008, 0x8, 1, 0x8, 1, fun _ _ => 0x0,
   [⟨0, 14, .ro⟩, ⟨14, 2, .rsv⟩, ⟨16, 7, .ro⟩, ⟨23, 1, .rsv⟩, ⟨24, 4, .w1c⟩, ⟨28, 4, .rsv⟩, ⟨32, 16, .rc⟩, ⟨48, 16, .rsv⟩]⟩

/-- EVR_NEXT: R450, fields R399. -/
def row_EVR_NEXT : RegRow :=
  ⟨0x300010, 0x8, 1, 0x8, 1, fun _ _ => 0x0,
   [⟨0, 32, .ro⟩, ⟨32, 32, .ro⟩]⟩

/-- EVR_LOST: R450, fields R399. -/
def row_EVR_LOST : RegRow :=
  ⟨0x300018, 0x8, 1, 0x8, 1, fun _ _ => 0x0,
   [⟨0, 16, .rc⟩, ⟨16, 16, .rc⟩, ⟨32, 16, .rc⟩, ⟨48, 16, .rc⟩]⟩

/-- EVR_OVW: R450, fields R399. -/
def row_EVR_OVW : RegRow :=
  ⟨0x300020, 0x8, 1, 0x8, 1, fun _ _ => 0x0,
   [⟨0, 32, .rc⟩, ⟨32, 16, .rc⟩, ⟨48, 16, .rc⟩]⟩

/-- EVR_CUR: R450, fields R399. -/
def row_EVR_CUR : RegRow :=
  ⟨0x300028, 0x8, 1, 0x8, 1, fun _ _ => 0x100000000,
   [⟨0, 32, .rw⟩, ⟨32, 1, .ro⟩, ⟨33, 15, .rsv⟩, ⟨48, 16, .rc⟩]⟩

/-- EVR_WIN[w]: R450, fields R399. -/
def row_EVR_WIN : RegRow :=
  ⟨0x300030, 0x8, 4, 0x8, 1, fun _ _ => 0x0,
   [⟨0, 64, .ro⟩]⟩

/-- EVR_LASTW[w]: R450, fields R399. -/
def row_EVR_LASTW : RegRow :=
  ⟨0x300050, 0x8, 3, 0x8, 1, fun _ _ => 0x0,
   [⟨0, 64, .ro⟩]⟩

/-- EVR_LASTST: R450, fields R399. -/
def row_EVR_LASTST : RegRow :=
  ⟨0x300068, 0x8, 1, 0x8, 1, fun _ _ => 0x0,
   [⟨0, 1, .ro⟩, ⟨1, 63, .rsv⟩]⟩

/-- Every register of the block EVR. -/
def block_EVR : List RegRow :=
  [row_EVR_CTL, row_EVR_STATUS, row_EVR_NEXT, row_EVR_LOST, row_EVR_OVW, row_EVR_CUR, row_EVR_WIN, row_EVR_LASTW, row_EVR_LASTST]

/-- WPT_CTL: R450, fields R404. -/
def row_WPT_CTL : RegRow :=
  ⟨0x340000, 0x8, 1, 0x8, 1, fun _ _ => 0xFFFF3B00,
   [⟨0, 1, .rw⟩, ⟨1, 1, .wo⟩, ⟨2, 2, .rw⟩, ⟨4, 4, .rw⟩, ⟨8, 4, .rw⟩, ⟨12, 2, .rw⟩, ⟨14, 2, .rsv⟩, ⟨16, 16, .rw⟩, ⟨32, 32, .rsv⟩]⟩

/-- WPT_STAT: R450, fields R404. -/
def row_WPT_STAT : RegRow :=
  ⟨0x340008, 0x8, 1, 0x8, 1, fun _ _ => 0x0,
   [⟨0, 1, .ro⟩, ⟨1, 3, .ro⟩, ⟨4, 1, .ro⟩, ⟨5, 1, .ro⟩, ⟨6, 10, .rsv⟩, ⟨16, 16, .ro⟩, ⟨32, 16, .rc⟩, ⟨48, 16, .ro⟩]⟩

/-- WPT_RING: R450, fields R404. -/
def row_WPT_RING : RegRow :=
  ⟨0x340010, 0x8, 1, 0x8, 1, fun _ _ => 0x0,
   [⟨0, 64, .ro⟩]⟩

/-- WPT_TIME: R450, fields R404. -/
def row_WPT_TIME : RegRow :=
  ⟨0x340018, 0x8, 1, 0x8, 1, fun _ _ => 0x0,
   [⟨0, 64, .ro⟩]⟩

/-- WPT_MAP[x]: R450, fields R404. -/
def row_WPT_MAP : RegRow :=
  ⟨0x344000, 0x8, 2048, 0x8, 1, fun _ _ => 0x0,
   [⟨0, 1, .rw⟩, ⟨1, 2, .rsv⟩, ⟨3, 21, .rw⟩, ⟨24, 40, .rsv⟩]⟩

/-- WPT_SNAP[x]: R450, fields R404. -/
def row_WPT_SNAP : RegRow :=
  ⟨0x348000, 0x8, 2048, 0x8, 1, fun _ _ => 0x0,
   [⟨0, 64, .ro⟩]⟩

/-- Every register of the block WPT. -/
def block_WPT : List RegRow :=
  [row_WPT_CTL, row_WPT_STAT, row_WPT_RING, row_WPT_TIME, row_WPT_MAP, row_WPT_SNAP]

/-- TST_CTL: R451, fields R415. -/
def row_TST_CTL : RegRow :=
  ⟨0x380000, 0x8, 1, 0x8, 1, fun _ _ => 0xD00,
   [⟨0, 1, .wo⟩, ⟨1, 1, .rw⟩, ⟨2, 1, .rw⟩, ⟨3, 5, .rsv⟩, ⟨8, 4, .rw⟩, ⟨12, 4, .rsv⟩, ⟨16, 7, .rw⟩, ⟨23, 41, .rsv⟩]⟩

/-- TST_STATUS: R451, fields R415. -/
def row_TST_STATUS : RegRow :=
  ⟨0x380008, 0x8, 1, 0x8, 1, fun _ _ => 0x0,
   [⟨0, 1, .ro⟩, ⟨1, 1, .w1c⟩, ⟨2, 3, .ro⟩, ⟨5, 59, .rsv⟩]⟩

/-- TST_SELT: R451, fields R415. -/
def row_TST_SELT : RegRow :=
  ⟨0x380010, 0x8, 1, 0x8, 1, fun _ _ => 0x0,
   [⟨0, 64, .rw⟩]⟩

/-- TST_SELX: R451, fields R415. -/
def row_TST_SELX : RegRow :=
  ⟨0x380018, 0x8, 1, 0x8, 1, fun _ _ => 0x0,
   [⟨0, 13, .rw⟩, ⟨13, 51, .rsv⟩]⟩

/-- TST_SEED: R451, fields R415. -/
def row_TST_SEED : RegRow :=
  ⟨0x380020, 0x8, 1, 0x8, 1, fun _ _ => 0x0,
   [⟨0, 64, .rw⟩]⟩

/-- TST_EXP: R451, fields R415. -/
def row_TST_EXP : RegRow :=
  ⟨0x380028, 0x8, 1, 0x8, 1, fun _ _ => 0x0,
   [⟨0, 64, .rw⟩]⟩

/-- TST_FAILT: R451, fields R415. -/
def row_TST_FAILT : RegRow :=
  ⟨0x380030, 0x8, 1, 0x8, 1, fun _ _ => 0x0,
   [⟨0, 64, .w1c⟩]⟩

/-- TST_FAILX: R451, fields R415. -/
def row_TST_FAILX : RegRow :=
  ⟨0x380038, 0x8, 1, 0x8, 1, fun _ _ => 0x0,
   [⟨0, 13, .w1c⟩, ⟨13, 51, .rsv⟩]⟩

/-- TST_SIG: R451, fields R415. -/
def row_TST_SIG : RegRow :=
  ⟨0x380040, 0x8, 1, 0x8, 1, fun _ _ => 0x0,
   [⟨0, 64, .ro⟩]⟩

/-- TST_LTEST: R451, fields R418. -/
def row_TST_LTEST : RegRow :=
  ⟨0x380048, 0x8, 1, 0x8, 1, fun _ _ => 0xA0000,
   [⟨0, 1, .wo⟩, ⟨1, 1, .ro⟩, ⟨2, 14, .rsv⟩, ⟨16, 8, .rw⟩, ⟨24, 40, .rsv⟩]⟩

/-- TST_MTHR: R451, fields R421. -/
def row_TST_MTHR : RegRow :=
  ⟨0x380050, 0x8, 1, 0x8, 1, fun _ _ => 0x2084006010144,
   [⟨0, 16, .rw⟩, ⟨16, 8, .rw⟩, ⟨24, 8, .rw⟩, ⟨32, 8, .rw⟩, ⟨40, 8, .rw⟩, ⟨48, 8, .rw⟩, ⟨56, 8, .rsv⟩]⟩

/-- TST_SRADDR: R451, fields R415. -/
def row_TST_SRADDR : RegRow :=
  ⟨0x380058, 0x8, 1, 0x8, 1, fun _ _ => 0x0,
   [⟨0, 6, .rw⟩, ⟨6, 15, .rw⟩, ⟨21, 2, .rw⟩, ⟨23, 41, .rsv⟩]⟩

/-- TST_SRDATA: R451, fields R415. -/
def row_TST_SRDATA : RegRow :=
  ⟨0x380060, 0x8, 1, 0x8, 1, fun _ _ => 0x0,
   [⟨0, 64, .ro⟩]⟩

/-- TST_SITE[x]: R451, fields R421. -/
def row_TST_SITE : RegRow :=
  ⟨0x380100, 0x8, 8, 0x8, 1, fun _ _ => 0xFF00000000,
   [⟨0, 16, .rc⟩, ⟨16, 8, .rc⟩, ⟨24, 8, .ro⟩, ⟨32, 8, .rc⟩, ⟨40, 24, .rsv⟩]⟩

/-- Every register of the block TST. -/
def block_TST : List RegRow :=
  [row_TST_CTL, row_TST_STATUS, row_TST_SELT, row_TST_SELX, row_TST_SEED, row_TST_EXP, row_TST_FAILT, row_TST_FAILX, row_TST_SIG, row_TST_LTEST, row_TST_MTHR, row_TST_SRADDR] ++
  [row_TST_SRDATA, row_TST_SITE]

/-- The rows of the block that an address lies in: the block bases of R5 and R436 to R451. -/
def blockRows (a : Nat) : List RegRow :=
  if a < 0x010000 then block_GLB
  else if a < 0x020000 then block_PHS
  else if a < 0x040000 then block_GLD
  else if a < 0x080000 then block_GRV
  else if a < 0x0C0000 then block_STP
  else if a < 0x100000 then block_CQ
  else if a < 0x140000 then block_TIL
  else if a < 0x180000 then block_RTR
  else if a < 0x1C0000 then block_LNK
  else if a < 0x200000 then block_MPTBGT
  else if a < 0x240000 then block_SECFUS
  else if a < 0x280000 then block_RGR
  else if a < 0x2C0000 then block_NVM
  else if a < 0x300000 then block_MGB
  else if a < 0x340000 then block_EVR
  else if a < 0x380000 then block_WPT
  else if a < 0x3C0000 then block_TST
  else []

/-- The instance of a row that an address names, if it names one. -/
def RegRow.inst (r : RegRow) (a : Nat) : Option (Nat × Nat) :=
  if a < r.base then none
  else
    let o := a - r.base
    let i := o / r.s1
    let j := o % r.s1 / r.s2
    if i < r.n1 && j < r.n2 && o % r.s1 % r.s2 == 0 then some (i, j) else none

/-- The row and the instance at an address: `none` where the window holds no register (R434). -/
def findReg (a : Nat) : Option (RegRow × Nat × Nat) :=
  (blockRows a).findSome? fun r => (r.inst a).map fun ij => (r, ij.1, ij.2)

/-- Whether an address holds a register (R434). -/
def isReg (a : Nat) : Bool := (findReg a).isSome

/-- The value that the register at an address holds after the reset of its domain (R433). -/
def resetWord (a : Nat) : Word :=
  match findReg a with
  | some (r, i, j) => BitVec.ofNat 64 (r.reset i j)
  | none => 0

/-- The fields of the register at an address. -/
def fieldsAt (a : Nat) : List FieldRow :=
  match findReg a with
  | some (r, _, _) => r.fields
  | none => []

/-- Whether an address lies in a block of the AO domain: GLB, FUS, NVM, MGB, EVR, WPT and TST (R12). -/
def isAoAddr (a : Nat) : Bool :=
  a < 0x010000 || (0x201000 ≤ a && a < 0x240000) || 0x280000 ≤ a

end Sys2Proof.Machine
end

