-- ==== Sys2Proof/Machine/State.lean ====
section
/-! DEFINITION. The state of the block as plain data. `regs` holds every register of the 16 MiB window, keyed by address,
in the canonical form of Machine/Ops.lean: an unlisted register holds its reset value. The other fields hold the state that
the rules give the block beside its registers: memories, engines, queues, links and pins. -/
namespace Sys2Proof.Machine

/-- Why the block stops with a fault. No command of the spec stops the block: every access is answered (R6, R15, R295). -/
inductive Fault where
  /-- Raised by no meaning: the spec answers every access, an address outside member memory included (ADDRERR, R295).
  Safe: nothing stops. -/
  | accessUnanswered
  deriving DecidableEq, Repr

/-- Why a command has no meaning. -/
inductive Refusal where
  /-- Raised by Machine/Dispatch.lean for a command that is not modelled yet, by its mnemonic. Safe: the run stops. -/
  | notModelled (mnemonic : String)
  deriving DecidableEq, Repr

/-! ## The recorder -/

/-- An event record (R388). CRC is computed when the record is read. -/
structure Record where
  seq : Nat
  sev : Nat
  source : Nat
  fw : Bool
  glade : Option Nat
  code : Nat
  time : Nat
  reps : Nat
  lost : Nat
  unit : Nat
  reg : Nat
  bit : Nat
  detail : Nat
  deriving DecidableEq, Repr

/-- The recorder (R390 to R397): one holding register per source instance, the ingress queue, the store in SEQ order,
the LOST count that the next stored record takes, the window's latch, the time of the last LASTWORDS write, the source
instance that the arbiter served last at each severity, and SEQ + 1 of the newest stored record of each source instance. -/
structure Recorder where
  holding : List Record
  queue : List Record
  store : List Record
  nextSeq : Nat
  lostPending : Nat
  latch : Option Record
  lastWordsAt : Option Nat
  rr : List Nat
  newest : Sparse Nat
  deriving DecidableEq, Repr

/-! ## Pins, resets and the register front end -/

/-- The pins and the reset state of the AO domain (R13 to R18, R342 to R348, R428, R429): `rstN` says that RST_N is asserted,
since `assertedAt`; `startedAt` is the time of the last MAIN start and `holdUntil` the end of a hold-out. `failed`
lists the partitions that failed their last logic BIST run (R413). -/
structure AoState where
  aoReset : Bool
  rstN : Bool
  vddMain : Bool
  clkCore : Bool
  fuseSensed : Bool
  fuseBad : Bool
  mainRun : Bool
  wdogArmed : Bool
  startedAt : Option Nat
  assertedAt : Option Nat
  holdUntil : Option Nat
  firebreak : Bool
  waypointOut : Bool
  phyReset : BitVec 32
  failed : List Nat
  rspData : Word
  rspErr : Bool
  deriving DecidableEq, Repr

/-! ## Flash, fuses and keys -/

/-- A flash command in progress (R366): 0 read, 1 program, 2 erase. -/
structure FlashOp where
  op : Nat
  addr : Nat
  len : Nat
  deriving DecidableEq, Repr

/-- An entry that waits for the record engine (R362, R396): its TYPE and its 20 payload bytes. -/
structure RecEntry where
  type : Nat
  payload : List Byte
  deriving DecidableEq, Repr

/-- The NVM controller and the record engine (R350 to R367), with the running image's VERSION and whether a grove join has
still to write it as MINVER (R353). `config` is the configuration copy in use (R355), `configDue` says that the firmware has still to
apply it (R357), and `areaBad` that a record write has failed since AO_RST_N, so that the record area cannot be written (R354). -/
structure NvmState where
  op : Option FlashOp
  recQueue : List RecEntry
  writePtr : Nat
  entrySeq : Nat
  bankValid : Bool
  version : Nat
  commit : Bool
  config : Option Nat
  configDue : Bool
  areaBad : Bool
  deriving DecidableEq, Repr

/-- What a fuse burn in progress sets (R324): the (word, bit) pairs in the order in which they are burnt, the life-cycle state
that it leads to, and whether it is a group burn of FUS_PCMD. -/
structure Burn where
  bits : List (Nat × Nat)
  target : Option Nat
  isGroup : Bool
  deriving DecidableEq, Repr

/-- One generation of a key (R331). -/
structure KeyGen where
  kgen : Nat
  key : BitVec 256
  phase : Bool
  swRing : Nat
  deriving DecidableEq, Repr

/-- A key slot (R328, R331). -/
structure KeySlot where
  cur : Option KeyGen
  prev : Option KeyGen
  next : Option KeyGen
  stream : Nat
  deriving DecidableEq, Repr

/-- The security unit (R327, R333, R334, R339): DRK, the agreement scalar, the seal count, the count of token checks. -/
structure SecState where
  drk : BitVec 384
  scalar : Nat
  sealCount : Nat
  chalCount : Nat
  burn : Option Burn
  sealPending : Bool
  deriving DecidableEq, Repr

/-! ## The glade engines -/

/-- The values of the shadowed fields that are in force for the open ring (R87). -/
structure InForce where
  policy : Nat
  carryMax : Nat
  deadline : Nat
  wcsr : Bool
  scal : List F32
  deriving DecidableEq, Repr

/-- A contributor stream at its owner (R145). -/
structure Stream where
  sidx : Nat
  marker : Option Nat
  added : Nat
  deriving DecidableEq, Repr

/-- A gradient contribution that waits (R89). -/
structure Contribution where
  ringLo : Nat
  sidx : Nat
  layer : Nat
  block : Nat
  values : List F32
  deriving DecidableEq, Repr

/-- A marker that a source sent and that has no receipt yet (R145). -/
structure MarkerOut where
  owner : Nat
  sidx : Nat
  blocks : Nat
  ringLo : Nat
  deriving DecidableEq, Repr

/-- A ready notice whose range the owner has still to pull (R145, exact mode). -/
structure PullRange where
  sidx : Nat
  layer : Nat
  block : Nat
  src : Nat
  ringLo : Nat
  deriving DecidableEq, Repr

/-- A scaled copy of a delta that the sender keeps until it is answered (R106). -/
structure Copy where
  next : Bool
  row : Nat
  pidx : Nat
  holder : Nat
  bytes : List Byte
  rawBytes : List Byte
  rawTried : Bool
  resends : Nat
  deriving DecidableEq, Repr

/-- A parity leaf's open-ring state at its holder (R79, R80): the fold bits, the net change, whether the leaf is
staged in tile SRAM, where its journal reservation starts and where its newest entry lies, as offsets in region 7. -/
structure Fold where
  next : Bool
  p : Nat
  bits : Nat
  net : List Byte
  staged : Bool
  resv : Option Nat
  entry : Option Nat
  deriving DecidableEq, Repr

/-- An undo entry of the open ring (R111): the local leaf index, the entry's place in region 8 (in next region 8 for a
shadow, R207), its length and the leaf's xor delta. -/
structure Undo where
  next : Bool
  q : Nat
  off : Nat
  len : Nat
  delta : List Byte
  deriving DecidableEq, Repr

/-- A witness agreement in progress (R164 to R168). -/
structure Agreement where
  seq : Nat
  suspects : List Nat
  probes : List ProbeResult
  probeRounds : Nat
  views : List View
  round : Nat
  startedByCause : Nat
  deriving DecidableEq, Repr

/-- A grove slot as the beat unit sees it (R161). -/
structure Beat where
  slot : Nat
  atTime : Nat
  deriving DecidableEq, Repr

/-- An LMN that the coordinator serves: the spare entry that has TAKEOVER (none for a sapling of a FILL plan), its PNID,
the entries still to try, and whether the loss falls inside the commit window (R88, R175 to R177, R216). -/
structure Serving where
  lmn : Nat
  spare : Option Nat
  pnid : Nat
  left : List Nat
  inWindow : Bool
  deriving DecidableEq, Repr

/-- This node's work as stand-in (R184 to R193): its leaves still to rebuild, the leaves moved to the head of the order,
the holders whose reconciliation reports have come, and the row decisions. -/
structure StandIn where
  slot : Nat
  clearing : Bool
  dataLeft : List Nat
  parityLeft : List Nat
  front : List Nat
  reports : List (Nat × List Nat)
  staleHolders : List Nat
  deriving DecidableEq, Repr

/-- A row-read unit of a clearing read in flight (R182, R185): the row and line that it reconstructs, the line that was
asked for, when it began and the answers that have come. `lmn` is the LMN whose shard is read: this member's own, or one that it
hosts (R179). -/
structure ReadUnit where
  id : Nat
  lmn : Nat
  row : Nat
  line : Nat
  offset : Nat
  txid : Nat
  atTime : Nat
  answers : List RowAnswer
  restarted : Bool
  deriving DecidableEq, Repr

/-- A block that waits for a Seedbank record (R199, R232, R234). -/
structure Wanted where
  layer : Nat
  block : Nat
  row : Option Nat
  deriving DecidableEq, Repr

/-- A Seedbank sweep in progress (R226 to R229): its ring, the open ring at its start, the blocks that could not be recorded
before their apply, the blocks recorded, the BLOCK records written, whether START is written, whether only END with PARTIAL
is left, whether a record was ragged, the latched mode, and the pacing of the open ring. -/
structure Sweep where
  ring : Nat
  startedAt : Nat
  later : List Nat
  done : List Nat
  seq : Nat
  startDone : Bool
  partialEnd : Bool
  ragged : Bool
  strict : Bool
  narrow : Bool
  target : Nat
  leftAt : Nat
  quotaUsed : Nat
  fullWarned : Bool
  deriving DecidableEq, Repr

/-- A weight publish in progress (R218): the blocks already sent. -/
structure Publish where
  ring : Nat
  full : Bool
  sent : List Nat
  deriving DecidableEq, Repr

/-- A copy or shadow that waits for its acknowledgement (R206, R207): kind 0 copy, 1 shadow, 2 shadow-end. -/
structure Handover where
  kind : Nat
  layer : Nat
  block : Nat
  dst : Nat
  deriving DecidableEq, Repr

/-- A sapling of the plan in hand as LMN 0 knows it (R205, R211, R215): its next LMN, how many probes it has answered with
the plan's digest, how many it has missed since, and whether it is ready. -/
structure Sapling where
  lmn : Nat
  answers : Nat
  misses : Nat
  ready : Bool
  deriving DecidableEq, Repr

/-- The hidden state of one glade's engines on this node. -/
structure GladeState where
  wrapPending : Bool
  ringOpen : Bool
  started : Bool
  inForce : InForce
  skipTaken : Bool
  -- accumulation and verdict
  streams : List Stream
  gone : List Nat
  held : List Contribution
  pulls : List PullRange
  markersOut : List MarkerOut
  lastSent : List Nat
  sentBlocks : List ((Nat × Nat) × Nat)
  noticesOut : List (Nat × Nat × Nat)
  lateStreams : List (Nat × Stream)
  summed : List (Nat × Nat × Nat × Nat)
  takenIn : Bool
  partialV : Option PartialVerdict
  childV : List (Nat × PartialVerdict)
  childT : List (Nat × List LayerAcc)
  childC : List (Nat × List RowPar)
  childS : List (Nat × StartEntry)
  childB : List (Nat × Nat)
  wrongOnce : List Nat
  lossInRing : Bool
  verdict : List Byte
  verdictDone : Bool
  -- apply
  pass1 : List Nat
  applied : List Nat
  notApplied : List Nat
  ledgerOld : List (Nat × List Byte)
  ledgerSent : List Nat
  layerAccs : List LayerAcc
  trust : List LayerSum
  trustDone : Bool
  nfWarned : Bool
  noUndoFrom : Option Nat
  noUndo : List Nat
  undo : List Undo
  undoUsed : Nat
  undoTip : Nat
  nextUndoUsed : Nat
  nextUndoTip : Nat
  -- deltas and parity
  copies : List Copy
  staleSent : List RowPar
  lastStale : List RowPar
  closeEntered : Bool
  startEntered : Bool
  folds : List Fold
  foldUsed : Nat
  foldTip : Nat
  nextFoldUsed : Nat
  nextFoldTip : Nat
  stalePar : List Nat
  unbuilt : List Nat
  nextUnbuilt : List Nat
  building : List (Bool × Nat)
  heldDeltas : List (Nat × List Byte)
  repair : List Nat
  thinRest : Nat
  -- membership
  joins : List (Nat × JoinMsg)
  agreement : Option Agreement
  lastSeq : Nat
  nextSuspects : List Nat
  beats : List Beat
  sightLow : Bool
  serving : List Serving
  awaited : List Nat
  hosting : List Nat
  standIn : Option StandIn
  reads : List ReadUnit
  nextUnit : Nat
  clearWaits : List (Nat × Nat)
  deadRows : List Nat
  wanted : List Wanted
  restored : List (Nat × Nat × Nat)
  -- Coppice
  plan : Option Plan
  abortAsked : Bool
  copied : List Nat
  handovers : List Handover
  shadowsIn : List (Nat × Nat × Nat)
  nextLedgerOld : List (Nat × List Byte)
  nextFlushed : Bool
  epochWait : Bool
  shadowEndsIn : List Nat
  endsSent : Bool
  saplings : List Sapling
  rowLocks : List Nat
  arrived : List (Nat × Nat)
  -- Seedbank and publishing
  sweep : Option Sweep
  sweepDue : Bool
  restoreInexact : Bool
  ledgerLater : List (Nat × List Byte)
  ledgerFix : List (Nat × Bool)
  publishDue : Bool
  publish : Option Publish
  publishHeld : Bool
  lacksBase : List Nat
  baseRing : Option Nat
  replayWait : Bool
  dissolved : Bool
  deriving DecidableEq, Repr

/-! ## Queues, tiles, links, ports -/

/-- A descriptor as fetched (R140): its eight words, and whether it has started, its effect on this member is done, and it
has completed. -/
structure Desc where
  index : Nat
  words : List Word
  started : Bool
  done : Bool
  completed : Bool
  deriving DecidableEq, Repr

/-- A queue (R142): the fetched descriptors from HEAD on, the index that is fetched next, and, for a halted fast-mode RSGRAD,
the block that RESUME goes on with (R143). -/
structure QueueState where
  descs : List Desc
  next : Nat
  resumeAt : Option Nat
  deriving DecidableEq, Repr

/-- A context (R131): its number on its tile, the glade, what its unit is (0 a unit of a clearing read, 1 the encoding of a
parity leaf, 2 the rebuild of a data leaf, 3 the build of a next-code parity leaf) and which one. -/
structure Context where
  id : Nat
  glade : Nat
  kind : Nat
  unit : Nat
  clearing : Bool
  parked : Bool
  restarted : Bool
  deriving DecidableEq, Repr

/-- The hidden state of a tile (R116, R128, R131, R306, R307); `pframes` is the parity pool's size in force (R304), and
`used` says that the tile has worked since its SRAM was initialised (R305). -/
structure TileState where
  gfRest : Nat
  rngPending : Bool
  rngWaiting : Nat
  contexts : List Context
  gangAsked : Bool
  gangGranted : Bool
  errors : List (Nat × Nat)
  retiring : Bool
  pframes : Nat
  used : Bool
  deriving DecidableEq, Repr

/-- A staged frame of a tile's SRAM (R301): its tag and its dirty lines. -/
structure Frame4K where
  tile : Nat
  glade : Nat
  region : Nat
  unit : Nat
  dirty : BitVec 32
  deriving DecidableEq, Repr

/-- A position that a hunting lane tracks (R243): the bit at which its last marker began, what that marker carried, and the
confirmations so far. -/
structure Candidate where
  pos : Nat
  lane : Nat
  width : Nat
  cnt : Nat
  hits : Nat
  deriving DecidableEq, Repr

/-- A receive lane's lock state (R243): `state` 0 hunt, 1 locked, 2 waiting for the first marker after a wake (R263). `pos`,
`lane`, `width` and `cnt` are those of the last marker; `candidates` are the positions that a hunt tracks; `uncs` counts the
uncorrectable codewords of the second that runs (R420); `pred` says that the lane has set PRED, and `trimmedAt` when its trim
after that completed. -/
structure LaneState where
  state : Nat
  pos : Nat
  lane : Nat
  width : Nat
  cnt : Nat
  candidates : List Candidate
  badMarkers : Nat
  history : List Bool
  uncs : Nat
  pred : Bool
  trimmedAt : Option Nat
  deriving DecidableEq, Repr

/-- A frame in a retry buffer (R253): its sequence number, whether it has been sent, how often it was replayed, whether it ends
with a stomped FCRC (R252), and the frame. -/
structure Buffered where
  seq : Nat
  out : Bool
  replays : Nat
  stomped : Bool
  frame : Frame
  deriving DecidableEq, Repr

/-- The hidden state of a link (R239 to R268). `doze`: 0 not dozing, 1 DOZE_REQ sent, 2 DOZE_ACK sent, 3 transmitters idle, 4 in
doze, 5 waking. `reqMask` is the transmit mask that waits for the next period start, `peerMask` the mask that the partner asked
for last, `askedMask` the one that this receiver asked for. `ignoring`: frames are ignored until the width switch (R259).
`trimStep`: 0 none, 1 the lane is being excluded, 2 adapting, 3 watched, 4 being offered back (R267). `usedReserved` and
`usedShared` are the credits of the partner's buffer in use, `oweReserved` and `oweShared` those to be returned to it (R275). -/
structure LinkState where
  waitSet : Bool
  txSeq : Nat
  rxExpected : Nat
  accepted : Bool
  unreported : Nat
  nakOut : Bool
  resync : Bool
  ignoring : Bool
  switching : Bool
  buffer : List Buffered
  replayFrom : Option Nat
  lanes : Sparse LaneState
  cntTx : Nat
  reqMask : Option Nat
  peerMask : Nat
  askedMask : Nat
  widthTries : Nat
  widenedAt : Option Nat
  doze : Nat
  wakeAnswered : Bool
  anchor : Option Nat
  slips : List Nat
  slipWarned : Bool
  wakeFirst : Bool
  fails : Nat
  peerStamp : Nat
  pulseTx : Nat
  lastData : Nat
  atFull : Bool
  trimStep : Nat
  trimQueue : List Nat
  trimFull : Bool
  trimLoad : Nat
  trimmedAt : Option Nat
  usedReserved : Sparse Nat
  usedShared : Nat
  oweReserved : Sparse Nat
  oweShared : Nat
  deriving DecidableEq, Repr

/-- The hidden state of a memory port (R296, R300): writes issued again, recent timeouts, the single units and the
ranges that await repair. -/
structure PortState where
  retried : List Nat
  timeouts : List Nat
  singles : List Nat
  ranges : List (Nat × Nat)
  deriving DecidableEq, Repr

/-- A rollout image's hidden state (R221, R222). -/
structure ImageState where
  ends : List (Nat × Nat)
  size : Nat
  blocks : Nat
  seen : List Nat
  ring : Nat
  missedStart : Option Nat
  retries : Nat
  deriving DecidableEq, Repr

/-! ## The router -/

/-- A member-map entry (R286). -/
structure MapEntry where
  pnid : Nat
  valid : Bool
  deriving DecidableEq, Repr

/-- An outstanding access of this node (R288): kind 1 read, 4 write. -/
structure Access where
  kind : Nat
  glade : Nat
  lmn : Nat
  offset : Nat
  txid : Nat
  host : Option Nat
  cache : Bool
  marked : Bool
  waiting : Bool
  deriving DecidableEq, Repr

/-- A message in reassembly (R285). -/
structure Reasm where
  port : Nat
  src : Nat
  txid : Nat
  segLast : Nat
  segs : List (Nat × List Byte)
  deriving DecidableEq, Repr

/-- INVs that wait for their INVACKs, and the LWR that waits on them (R291). -/
structure InvWait where
  glade : Nat
  txid : Nat
  requester : Nat
  targets : List Nat
  answer : Bool
  deriving DecidableEq, Repr

/-- A frame that waits in the router for credit or for room, with the port it came in by, whether it ends with a stomped FCRC
(R252), and the host port to which it goes, for a frame that has been delivered (R276, R426). -/
structure WaitingFrame where
  inPort : Nat
  frame : Frame
  stomped : Bool
  host : Option Nat
  deriving DecidableEq, Repr

/-- The router (R275 to R293), and what the fabric profile in force follows from (R154): whether start-up is still in
force and the glades in recovery. `hostUsed` holds the credits of the host interfaces in use, by 8 × h + VC; `throtRest` the
throttled CLK_CORE cycles that THROTCYC does not count yet. -/
structure RouterState where
  accesses : List Access
  reasm : List Reasm
  invs : List InvWait
  waiting : List WaitingFrame
  throttled : Bool
  throtRest : Nat
  noRouteAt : List (Nat × Nat)
  txid : Nat
  hostUsed : Sparse Nat
  startup : Bool
  recovering : List Nat
  deriving DecidableEq, Repr

/-! ## Budgets, audit, tests, waypoints and the management bus -/

/-- An account's use in the current window (R308, R309): 0 to 7 the classes, 8 account U. -/
structure Account where
  rd : Nat
  wr : Nat
  blk : Nat
  waiting : Bool
  deriving DecidableEq, Repr

/-- The grove audit's pass (R316 to R318): beside the summary's counts, the (row, slot) pairs of the leaves repaired, the
rows whose parity was encoded again, and whether the last row has been read once. -/
structure AuditPass where
  glade : Nat
  startRing : Nat
  epoch : Nat
  rows : Nat
  bad : Nat
  repaired : Nat
  unres : Nat
  deferred : List Nat
  deferredTwice : Nat
  leaves : List (Nat × Nat)
  encoded : List Nat
  lastDone : Bool
  deriving DecidableEq, Repr

/-- The budget unit, the scrubber and the audit. -/
structure BudgetState where
  accounts : Sparse Account
  latched : Sparse Word
  scrubAt : Nat
  audit : Option AuditPass
  sramAt : Nat
  deriving DecidableEq, Repr

/-- Self-test (R408 to R418): the partitions of the run in progress, its PLOG, whether it takes the ROM's seeds and whether it is
the run of a MAIN start (R414), the signatures, whether the last test was a lane
test, its links and its lane results, and the wrapper's instruction and boundary registers (R416). -/
structure TestState where
  running : List Nat
  plog : Nat
  rom : Bool
  boot : Bool
  sigs : Sparse Word
  laneView : Bool
  laneFails : List (BitVec 8)
  wir : Nat
  boundary : List Bool
  links : Nat
  deriving DecidableEq, Repr

/-- A waypoint trigger that has not captured yet (R401, R403): whether its instant has come, and otherwise its target
ring and phase; its cause, its origin and whether the instant had passed. -/
structure WaypointPending where
  due : Bool
  ring : Nat
  phase : Nat
  cause : Nat
  origin : Nat
  late : Bool
  deriving DecidableEq, Repr

/-- A queued notice (R380). -/
structure Notice where
  kind : Nat
  sev : Nat
  nseq : Nat
  body : List Byte
  time : Nat
  deriving DecidableEq, Repr

/-- A command that the bus engine executed, with its kept response (R376). -/
structure Kept where
  type : Nat
  seq : Nat
  crc : BitVec 32
  response : List Byte
  atTime : Nat
  deriving DecidableEq, Repr

/-- A response that waits for a usable bus (R385). -/
structure HeldResponse where
  bus : BusId
  id : Nat
  bytes : List Byte
  deriving DecidableEq, Repr

/-- The bus engine (R376 to R385). -/
structure BusState where
  notices : List Notice
  lost : Nat
  tokens : Nat
  kept : List Kept
  held : List HeldResponse
  offsA : List Nat
  offsB : List Nat
  deriving DecidableEq, Repr

/-! ## What the block sends -/

/-- What the block sends, in the order in which it sends it: to the fabric, to a link partner, to the host and on the
management buses. Numbers are LMNs for `toMember` and PNIDs for `toNode`. (DESIGN CHOICE, assumption 4.) -/
inductive Sent where
  /-- A message of the glade's engines and membership logic to the member with this LMN. -/
  | toMember (g : Nat) (lmn : Nat) (name : String) (args : List Nat) (data : List Byte)
  /-- A message to a node by PNID. -/
  | toNode (pnid : Nat) (name : String) (args : List Nat) (data : List Byte)
  /-- An answer to the requester of a transaction of glade g (R285): its transaction number, a name, operands and data. -/
  | answer (g txid : Nat) (name : String) (args : List Nat) (data : List Byte)
  /-- A result that LMN 0 distributes to every member (R148). -/
  | toAll (g : Nat) (name : String) (args : List Nat) (data : List Byte)
  /-- A frame that the router hands to an output port, on a virtual channel (R276, R277). -/
  | frame (port vc : Nat) (f : Frame)
  /-- A control block of a link (R246): its OP and its operands. -/
  | control (p : Nat) (op : Nat) (args : List Nat)
  /-- A data frame of a link (R247), sent or replayed. -/
  | data (p : Nat) (seq : Nat)
  /-- A burst, a beacon or an idle of a link's transmitters (R261 to R264), or a PHY request (R236). -/
  | lane (p : Nat) (name : String) (args : List Nat)
  /-- An answer to a host interface (R426). -/
  | host (h : Nat) (name : String) (args : List Nat) (data : List Byte)
  /-- A trail message on a management bus: identifier and payload (R372). -/
  | trail (bus : BusId) (id : Nat) (bytes : List Byte)
  /-- A line write to a memory controller that is issued again (R296). -/
  | port (q : Nat) (name : String) (args : List Nat)
  /-- The wrapper's identification register on WSO (R417). -/
  | wso (value : Nat)
  deriving DecidableEq, Repr

/-- The lane on which step-program instructions run (R96, R99): V0 to V15, S0 to S15, the staged values of the four
classes, the stored values, the two square accumulators, the exception bits IV, DZ, OF, UF (R115), whether the lane is a
padding lane and whether the pass has ended. -/
structure LaneContext where
  v : List F32
  s : List F32
  staged : List F32
  stored : List (Option F32)
  acc0 : BitVec 640
  acc1 : BitVec 640
  exc : BitVec 4
  nonfinite : Nat
  padding : Bool
  ended : Bool
  deriving DecidableEq, Repr

/-- The state of the block. -/
structure State where
  /-- Every register that does not hold its reset value, by address. -/
  regs : Sparse Word
  /-- Member memory, by member offset. -/
  mem : Sparse Byte
  /-- The NOR flash, by flash offset. -/
  flash : Sparse Byte
  /-- The fuse words (R320). -/
  fuses : Sparse Word
  /-- The member map, by entry index (R286). -/
  nodeMap : Sparse MapEntry
  /-- Ranger's local memory, by word index (R406). -/
  rangerMem : Sparse Word
  glades : Sparse GladeState
  queues : Sparse QueueState
  tiles : Sparse TileState
  frames : List Frame4K
  links : Sparse LinkState
  ports : Sparse PortState
  images : Sparse ImageState
  keys : Sparse KeySlot
  ao : AoState
  evr : Recorder
  nvm : NvmState
  sec : SecState
  router : RouterState
  budget : BudgetState
  test : TestState
  waypoint : Option WaypointPending
  bus : BusState
  lane : LaneContext
  sent : List Sent
  /-- The model's own counter of free values (not the spec's). -/
  free : Nat
  /-- The commands that wait, first in, first out. -/
  pending : List Instr
  deriving DecidableEq, Repr

/-! ## Reset -/

/-- A glade's engines at reset: no member of any grove (R328, R348). -/
def GladeState.reset : GladeState where
  wrapPending := false
  ringOpen := false
  started := false
  inForce := ⟨0, 0, 0, false, List.replicate 12 0⟩
  skipTaken := false
  streams := []
  gone := []
  held := []
  pulls := []
  markersOut := []
  lastSent := []
  sentBlocks := []
  noticesOut := []
  lateStreams := []
  summed := []
  takenIn := false
  partialV := none
  childV := []
  childT := []
  childC := []
  childS := []
  childB := []
  wrongOnce := []
  lossInRing := false
  verdict := List.replicate 32 0
  verdictDone := false
  pass1 := []
  applied := []
  notApplied := []
  ledgerOld := []
  ledgerSent := []
  layerAccs := []
  trust := []
  trustDone := false
  nfWarned := false
  noUndoFrom := none
  noUndo := []
  undo := []
  undoUsed := 0
  undoTip := 0
  nextUndoUsed := 0
  nextUndoTip := 0
  copies := []
  staleSent := []
  lastStale := []
  closeEntered := false
  startEntered := false
  folds := []
  foldUsed := 0
  foldTip := 0
  nextFoldUsed := 0
  nextFoldTip := 0
  stalePar := []
  unbuilt := []
  nextUnbuilt := []
  building := []
  heldDeltas := []
  repair := []
  thinRest := 0
  joins := []
  agreement := none
  lastSeq := 0
  nextSuspects := []
  beats := []
  sightLow := false
  serving := []
  awaited := []
  hosting := []
  standIn := none
  reads := []
  nextUnit := 0
  clearWaits := []
  deadRows := []
  wanted := []
  restored := []
  plan := none
  abortAsked := false
  copied := []
  handovers := []
  shadowsIn := []
  nextLedgerOld := []
  nextFlushed := false
  epochWait := false
  shadowEndsIn := []
  endsSent := false
  saplings := []
  rowLocks := []
  arrived := []
  sweep := none
  sweepDue := false
  restoreInexact := false
  ledgerLater := []
  ledgerFix := []
  publishDue := false
  publish := none
  publishHeld := false
  lacksBase := []
  baseRing := none
  replayWait := false
  dissolved := false

/-- A queue at reset. -/
def QueueState.reset : QueueState := ⟨[], 0, none⟩

/-- A tile at reset. -/
def TileState.reset : TileState := ⟨0, false, 0, [], false, false, [], false, 64, false⟩

/-- A lane at reset: hunting. -/
def LaneState.reset : LaneState := ⟨0, 0, 0, 0, 0, [], 0, [], 0, false, none⟩

/-- A link at reset: down, with no credit in use (R275). -/
def LinkState.reset : LinkState where
  waitSet := false
  txSeq := 0
  rxExpected := 0
  accepted := false
  unreported := 0
  nakOut := false
  resync := false
  ignoring := false
  switching := false
  buffer := []
  replayFrom := none
  lanes := []
  cntTx := 0
  reqMask := none
  peerMask := 0
  askedMask := 0
  widthTries := 0
  widenedAt := none
  doze := 0
  wakeAnswered := false
  anchor := none
  slips := []
  slipWarned := false
  wakeFirst := false
  fails := 0
  peerStamp := 0
  pulseTx := 0
  lastData := 0
  atFull := false
  trimStep := 0
  trimQueue := []
  trimFull := false
  trimLoad := 0
  trimmedAt := none
  usedReserved := []
  usedShared := 0
  oweReserved := []
  oweShared := 0

/-- A memory port at reset. -/
def PortState.reset : PortState := ⟨[], [], [], []⟩

/-- An image at reset. -/
def ImageState.reset : ImageState := ⟨[], 0, 0, [], 0, none, 0⟩

/-- A key slot at reset: empty (R328). -/
def KeySlot.reset : KeySlot := ⟨none, none, none, 0⟩

/-- A map entry at reset (R443): PNID 0xFFFF, VALID 0. -/
def MapEntry.reset : MapEntry := ⟨0xFFFF, false⟩

/-- An account at a window start (R310). -/
def Account.reset : Account := ⟨0, 0, 0, false⟩

/-- The step-program lane before any pass (R99): V0 to V15 are +0.0. S0 to S15 are 0, as STP_SCAL resets (R86). -/
def LaneContext.reset : LaneContext :=
  ⟨List.replicate 16 0, List.replicate 16 0, List.replicate 4 0, List.replicate 3 none, 0, 0, 0, 0, false, false⟩

/-- The pins after AO_RST_N is released: fuse sensing has still to complete, so MAIN is in reset (R13). (DESIGN CHOICE, assumption 7.) -/
def AoState.reset : AoState where
  aoReset := false
  rstN := false
  vddMain := true
  clkCore := true
  fuseSensed := false
  fuseBad := false
  mainRun := false
  wdogArmed := false
  startedAt := none
  assertedAt := none
  holdUntil := none
  firebreak := false
  waypointOut := false
  phyReset := BitVec.allOnes 32
  failed := []
  rspData := 0
  rspErr := false

/-- The recorder after AO_RST_N (R392, R393). -/
def Recorder.reset : Recorder := ⟨[], [], [], 0, 0, none, none, [0, 0, 0, 0], []⟩

/-- The NVM controller after AO_RST_N. -/
def NvmState.reset : NvmState := ⟨none, [], 0, 0, false, 0, false, none, false, false⟩

/-- The security unit after RST_N. -/
def SecState.reset : SecState := ⟨0, 0, 0, 0, none, false⟩

/-- The router after RST_N: nothing outstanding, nothing queued. -/
def RouterState.reset : RouterState := ⟨[], [], [], [], false, 0, [], 0, [], true, []⟩

/-- The budget unit after RST_N. -/
def BudgetState.reset : BudgetState := ⟨[], [], 0, none, 0⟩

/-- Self-test after AO_RST_N: the wrapper holds WS_BYPASS. -/
def TestState.reset : TestState := ⟨[], 13, true, false, [], false, [], 0, [], 0⟩

/-- The bus engine after AO_RST_N: the notice bucket holds its depth of 8 tokens (R381). -/
def BusState.reset : BusState := ⟨[], 0, 8, [], [], [], []⟩

/-- The block right after AO_RST_N is released: every register at its reset value, MAIN in reset until fuse sensing has
completed and MAIN_START has run, nothing in memory, flash or fuses, and no command waiting. (DESIGN CHOICE, assumption 7.) -/
def State.reset : State where
  regs := []
  mem := []
  flash := []
  fuses := []
  nodeMap := []
  rangerMem := []
  glades := []
  queues := []
  tiles := []
  frames := []
  links := []
  ports := []
  images := []
  keys := []
  ao := AoState.reset
  evr := Recorder.reset
  nvm := NvmState.reset
  sec := SecState.reset
  router := RouterState.reset
  budget := BudgetState.reset
  test := TestState.reset
  waypoint := none
  bus := BusState.reset
  lane := LaneContext.reset
  sent := []
  free := 0
  pending := []

end Sys2Proof.Machine
end

