-- ==== Sys2Proof/Machine/Ops.lean ====
section
/-! DEFINITION. The named operations over the state: sparse maps in canonical form, registers and their fields, counters,
member memory, the recorder's entry (R388 to R391), what the block sends, and the per-instance engine states. -/
namespace Sys2Proof.Machine

/-! ## Sparse maps

A sparse map lists its keys strictly rising and lists no key at its default value. -/

/-- The value at a key: the default where the map lists none. -/
def sget {α : Type} (d : Nat → α) (m : Sparse α) (k : Nat) : α :=
  match m with
  | [] => d k
  | c :: r => if c.1 = k then c.2 else sget d r k

/-- Puts a pair before the first larger key. -/
def sput {α : Type} (m : Sparse α) (k : Nat) (v : α) : Sparse α :=
  match m with
  | [] => [(k, v)]
  | c :: r => if k < c.1 then (k, v) :: c :: r else c :: sput r k v

/-- Sets a key: a value equal to the default removes the entry. -/
def sset {α : Type} [DecidableEq α] (d : Nat → α) (m : Sparse α) (k : Nat) (v : α) : Sparse α :=
  let r := m.filter fun c => c.1 != k
  if v = d k then r else sput r k v

/-- Keys strictly rise from `lo` on, and no entry is at its default. -/
def swfFrom {α : Type} [DecidableEq α] (d : Nat → α) (lo : Nat) : Sparse α → Bool
  | [] => true
  | c :: r => lo ≤ c.1 && c.2 != d c.1 && swfFrom d (c.1 + 1) r

/-- The canonical form. -/
def swf {α : Type} [DecidableEq α] (d : Nat → α) (m : Sparse α) : Bool := swfFrom d 0 m

/-! ## Bytes and bit fields -/

/-- The bits of `w` from `lo` on, `n` of them. -/
def bitsOf (w lo n : Nat) : Nat := w / 2 ^ lo % 2 ^ n

/-- Whether bit `i` of `w` is 1. -/
def bitAt (w i : Nat) : Bool := w / 2 ^ i % 2 == 1

/-- The little-endian value of a list of bytes. -/
def leNat : List Byte → Nat
  | [] => 0
  | b :: r => b.toNat + 256 * leNat r

/-- The `n` low bytes of a number, little-endian. -/
def leBytes : Nat → Nat → List Byte
  | 0, _ => []
  | n + 1, v => BitVec.ofNat 8 v :: leBytes n (v / 256)

/-- The big-endian value of a list of bytes. -/
def beNat (l : List Byte) : Nat := leNat l.reverse

/-- The `n` low bytes of a number, big-endian. -/
def beBytes (n v : Nat) : List Byte := (leBytes n v).reverse

/-- `n` bytes from index `i`; bytes past the end read as zero. -/
def slice (l : List Byte) (i n : Nat) : List Byte :=
  let r := (l.drop i).take n
  r ++ List.replicate (n - r.length) 0

/-- The little-endian field of `n` bytes at index `i`. -/
def leAt (l : List Byte) (i n : Nat) : Nat := leNat (slice l i n)

/-- The bitwise exclusive-or of two byte strings of one length. -/
def xorBytes (a b : List Byte) : List Byte := List.zipWith (· ^^^ ·) a b

/-- Cuts a list into pieces of `n` elements, at most `fuel` pieces. -/
def chunks {α : Type} (n : Nat) : Nat → List α → List (List α)
  | 0, _ => []
  | f + 1, l => if l.isEmpty then [] else l.take n :: chunks n f (l.drop n)

/-! ## CRCs (R246 to R248) -/

/-- One bit of a reflected CRC. -/
def crcBit (poly c : Nat) : Nat := if c % 2 = 1 then (c / 2) ^^^ poly else c / 2

/-- The eight bits of one byte of a reflected CRC. -/
def crcByte (poly c : Nat) (b : Byte) : Nat :=
  (List.range 8).foldl (fun c _ => crcBit poly c) (c ^^^ b.toNat)

/-- CRC-32C, as the table of the chapter "Gravik link" gives it. -/
def crc32c (l : List Byte) : Nat := (l.foldl (crcByte 0x82F63B78) 0xFFFFFFFF) ^^^ 0xFFFFFFFF

/-! ## Registers and their fields -/

/-- The value of a field in a word. -/
def fget (w : Word) (f : Fld) : Nat := w.toNat / 2 ^ f.lo % 2 ^ f.width

/-- The bits that a field covers. -/
def fmask (f : Fld) : Word := BitVec.ofNat 64 ((2 ^ f.width - 1) * 2 ^ f.lo)

/-- A word with a field set to the low bits of a number. -/
def fput (w : Word) (f : Fld) (n : Nat) : Word :=
  (w &&& ~~~(fmask f)) ||| BitVec.ofNat 64 (n % 2 ^ f.width * 2 ^ f.lo)

/-- The value that a register holds. -/
def State.reg (s : State) (a : Nat) : Word := sget resetWord s.regs a

/-- Sets a register. -/
def State.setReg (s : State) (a : Nat) (v : Word) : State := { s with regs := sset resetWord s.regs a v }

/-- Returns a register to its reset value. -/
def State.resetReg (s : State) (a : Nat) : State := s.setReg a (resetWord a)

/-- A field of a register. -/
def State.rd (s : State) (a : Nat) (f : Fld) : Nat := fget (s.reg a) f

/-- Whether a field of a register is not zero. -/
def State.on (s : State) (a : Nat) (f : Fld) : Bool := s.rd a f != 0

/-- Sets a field of a register. -/
def State.wr (s : State) (a : Nat) (f : Fld) (n : Nat) : State := s.setReg a (fput (s.reg a) f n)

/-- Sets a one-bit field to a Bool. -/
def State.flag (s : State) (a : Nat) (f : Fld) (b : Bool) : State := s.wr a f (if b then 1 else 0)

/-- Adds to a counter field, which saturates at its maximum (R399 and the like). -/
def State.add (s : State) (a : Nat) (f : Fld) (n : Nat) : State :=
  s.wr a f (min (s.rd a f + n) (2 ^ f.width - 1))

/-- Adds one to a saturating counter field. -/
def State.inc (s : State) (a : Nat) (f : Fld) : State := s.add a f 1

/-- Raises a field to a value if it is below it. -/
def State.raise (s : State) (a : Nat) (f : Fld) (n : Nat) : State := s.wr a f (max (s.rd a f) n)

/-- GLB_AOTIME: the time since AO_RST_N, in µs (R349). -/
def State.now (s : State) : Nat := s.rd R.GLB_AOTIME F.GLB_AOTIME_US

/-- THROTCYC counts the 2,000 CLK_CORE cycles of a throttled microsecond, in units of 4,096 (R280, R293). -/
def State.throttleTick (s : State) : State :=
  if !s.ao.mainRun || !s.router.throttled then s
  else
    let n := s.router.throtRest + 2000
    State.add { s with router := { s.router with throtRest := n % 4096 } } R.RTR_XSTAT F.RTR_XSTAT_THROTCYC (n / 4096)

/-- GLB_AOTIME counts one microsecond (R349). It stands still while AO_RST_N is asserted. (DESIGN CHOICE, assumption 3.) -/
def State.tick (s : State) : State :=
  if s.ao.aoReset then s
  else (s.wr R.GLB_AOTIME F.GLB_AOTIME_US ((s.now + 1) % 2 ^ F.GLB_AOTIME_US.width)).throttleTick

/-- Applies a state change when a condition holds. -/
def State.when (s : State) (c : Bool) (f : State → State) : State := if c then f s else s

/-- Applies a state change for each element of a list, in order. -/
def State.each {α : Type} (s : State) (l : List α) (f : State → α → State) : State := l.foldl f s

/-! ## Free values -/

/-- The next free value (DESIGN CHOICE, assumption 2): a value that the spec does not state. -/
def State.freeVal (s : State) : Word := Config.freeWord s.free

/-- Moves on to the next free value. -/
def State.useFree (s : State) : State := { s with free := s.free + 1 }

/-! ## Records (R388 to R391) -/

namespace Sev
/-- Note. -/
def note : Nat := 0
/-- Warn. -/
def warn : Nat := 1
/-- Fault. -/
def fault : Nat := 2
/-- Fatal. -/
def fatal : Nat := 3
end Sev

namespace Src
/-- GLB (R389). -/
def glb : Nat := 0
/-- PHS (R389). -/
def phs : Nat := 1
/-- GLD (R389). -/
def gld : Nat := 2
/-- GRV (R389). -/
def grv : Nat := 3
/-- STP (R389). -/
def stp : Nat := 4
/-- CQ (R389). -/
def cq : Nat := 5
/-- TIL (R389). -/
def til : Nat := 6
/-- RTR (R389). -/
def rtr : Nat := 7
/-- LNK (R389). -/
def lnk : Nat := 8
/-- MPT (R389). -/
def mpt : Nat := 9
/-- BGT (R389). -/
def bgt : Nat := 10
/-- SEC (R389). -/
def sec : Nat := 11
/-- FUS (R389). -/
def fus : Nat := 12
/-- Ranger firmware (R389). -/
def fw : Nat := 13
/-- NVM (R389). -/
def nvm : Nat := 14
/-- MGB (R389). -/
def mgb : Nat := 15
/-- EVR (R389). -/
def evr : Nat := 16
/-- WPT (R389). -/
def wpt : Nat := 17
/-- TST (R389). -/
def tst : Nat := 18
end Src

/-- The base address of a source's block, or of its instance for a replicated block (R388). -/
def srcBase (src unit : Nat) : Nat :=
  if src = Src.phs then 0x010000
  else if src = Src.gld then 0x020000 + 0x1000 * unit
  else if src = Src.grv then 0x040000
  else if src = Src.stp then 0x080000
  else if src = Src.cq then 0x0C0000
  else if src = Src.til then 0x100000 + 0x1000 * unit
  else if src = Src.rtr then 0x140000
  else if src = Src.lnk then 0x180000 + 0x1000 * unit
  else if src = Src.mpt then 0x1C0000 + 0x100 * unit
  else if src = Src.bgt then 0x1C1000
  else if src = Src.sec then 0x200000
  else if src = Src.fus then 0x201000
  else if src = Src.fw then 0x240000
  else if src = Src.nvm then 0x280000
  else if src = Src.mgb then 0x2C0000
  else if src = Src.evr then 0x300000
  else if src = Src.wpt then 0x340000
  else if src = Src.tst then 0x380000
  else 0

/-- An event as a rule raises it, before it becomes a record. -/
structure Ev where
  sev : Nat
  src : Nat
  unit : Nat
  reg : Nat
  bit : Nat
  code : Nat
  detail : Nat
  glade : Option Nat
  fw : Bool
  deriving DecidableEq, Repr

/-- An event of a source instance that sets no register field: REG is the block's base and BIT is 63 (R388). The blocks
PHS, GLD, GRV and STP have the glade as their instance (R389), so their records concern that glade. -/
def ev (sev src unit : Nat) : Ev :=
  ⟨sev, src, unit, srcBase src unit, 63, 1, 0, if 1 ≤ src && src ≤ 4 then some unit else none, false⟩

/-- The event sets, counts or refuses a field of a register. -/
def Ev.field (e : Ev) (a : Nat) (f : Fld) : Ev := { e with reg := a, bit := f.lo }

/-- The event's subject (R389): the low 32 bits. -/
def Ev.about (e : Ev) (d : Nat) : Ev := { e with detail := d % 2 ^ 32 }

/-- A record that Ranger firmware writes, on an event that sets no register field (R388, R389): FW is 1, and UNIT, CODE and
DETAIL are the firmware's own, so they are free (DESIGN CHOICE, assumption 2). -/
def State.fwEv (s : State) (sev : Nat) : Ev :=
  let v := s.freeVal.toNat
  { ev sev Src.fw (v % 2 ^ 8) with code := v / 2 ^ 8 % 2 ^ 16, detail := v / 2 ^ 32, fw := true }

/-- The value that a code field holds after the event (R388). -/
def Ev.coded (e : Ev) (c : Nat) : Ev := { e with code := c % 2 ^ 16 }

/-- The glade that the event concerns. -/
def Ev.ofGlade (e : Ev) (g : Nat) : Ev := { e with glade := some g }

/-- The severity of an event. -/
def Ev.withSev (e : Ev) (n : Nat) : Ev := { e with sev := n }

/-- Whether two records are identical in the sense of R390. -/
def Record.identical (x y : Record) : Bool :=
  x.sev == y.sev && x.source == y.source && x.fw == y.fw && x.glade == y.glade && x.code == y.code &&
  x.unit == y.unit && x.reg == y.reg && x.bit == y.bit && x.detail == y.detail

/-- Whether a time lies less than 1 s after a record's TIME (R390). -/
def Record.within (x : Record) (now : Nat) : Bool := (now + 2 ^ 48 - x.time) % 2 ^ 48 < 1000000

/-- One more occurrence merged into a record (R390). -/
def Record.merged (x : Record) : Record := { x with reps := min (x.reps + 1) 0xFFFF }

/-- The field of EVR_LOST of a severity (R399). -/
def lostField (sev : Nat) : Fld := ⟨16 * sev, 16⟩

/-- The key of a source instance. -/
def srcKey (source unit : Nat) : Nat := 256 * source + unit

/-- Replaces the first element that satisfies a condition. -/
def mapFirst {α : Type} (p : α → Bool) (f : α → α) : List α → List α
  | [] => []
  | a :: r => if p a then f a :: r else a :: mapFirst p f r

/-- An event is recorded (R388 to R391): it merges into an identical record that waits or is the newest stored one of its
source instance, within 1 s; otherwise it enters the holding register of its source instance; a further record that finds
the register full is lost and counted. (DEDUCED, assumption 44.) (DEDUCED, assumption 67.) -/
def State.record (s : State) (e : Ev) : State :=
  let now := s.now % 2 ^ 48
  let r : Record := ⟨0, e.sev, e.src, e.fw, e.glade, e.code, now, 0, 0, e.unit, e.reg, e.bit, e.detail⟩
  let here := fun x : Record => x.identical r && x.within now
  let newest := sget (fun _ => 0) s.evr.newest (srcKey e.src e.unit)
  let top := fun x : Record => here x && x.seq + 1 == newest
  if s.evr.holding.any here then
    { s with evr := { s.evr with holding := mapFirst here Record.merged s.evr.holding } }
  else if s.evr.queue.any here then
    { s with evr := { s.evr with queue := mapFirst here Record.merged s.evr.queue } }
  else if s.evr.store.any top then
    { s with evr := { s.evr with store := mapFirst top Record.merged s.evr.store } }
  else if s.evr.holding.any (fun x => x.source == e.src && x.unit == e.unit) then
    State.inc { s with evr := { s.evr with lostPending := min (s.evr.lostPending + 1) 0xFFFF } }
      R.EVR_LOST (lostField e.sev)
  else { s with evr := { s.evr with holding := s.evr.holding ++ [r] } }

/-! ## What the block sends -/

/-- Sends one thing. (DESIGN CHOICE, assumption 4.) -/
def State.send (s : State) (x : Sent) : State := { s with sent := s.sent ++ [x] }

/-- A membership or engine message of glade g to a member. -/
def State.toMember (s : State) (g lmn : Nat) (name : String) (args : List Nat) (data : List Byte := []) : State :=
  s.send (.toMember g lmn name args data)

/-- The same message to each of a list of members. -/
def State.toMembers (s : State) (g : Nat) (l : List Nat) (name : String) (args : List Nat) (data : List Byte := []) :
    State :=
  s.each l fun s m => s.toMember g m name args data

/-- A message to a node by PNID. -/
def State.toNode (s : State) (pnid : Nat) (name : String) (args : List Nat) (data : List Byte := []) : State :=
  s.send (.toNode pnid name args data)

/-- A result that goes to every member of glade g. -/
def State.toAll (s : State) (g : Nat) (name : String) (args : List Nat) (data : List Byte := []) : State :=
  s.send (.toAll g name args data)

/-! ## Engine states by instance -/

/-- The engines of glade g. -/
def State.gl (s : State) (g : Nat) : GladeState := sget (fun _ => GladeState.reset) s.glades g

/-- Changes the engines of glade g. -/
def State.updGl (s : State) (g : Nat) (f : GladeState → GladeState) : State :=
  { s with glades := sset (fun _ => GladeState.reset) s.glades g (f (s.gl g)) }

/-- Queue q. -/
def State.qu (s : State) (q : Nat) : QueueState := sget (fun _ => QueueState.reset) s.queues q

/-- Changes queue q. -/
def State.updQu (s : State) (q : Nat) (f : QueueState → QueueState) : State :=
  { s with queues := sset (fun _ => QueueState.reset) s.queues q (f (s.qu q)) }

/-- Tile t. -/
def State.tl (s : State) (t : Nat) : TileState := sget (fun _ => TileState.reset) s.tiles t

/-- Changes tile t. -/
def State.updTl (s : State) (t : Nat) (f : TileState → TileState) : State :=
  { s with tiles := sset (fun _ => TileState.reset) s.tiles t (f (s.tl t)) }

/-- Link p. -/
def State.lk (s : State) (p : Nat) : LinkState := sget (fun _ => LinkState.reset) s.links p

/-- Changes link p. -/
def State.updLk (s : State) (p : Nat) (f : LinkState → LinkState) : State :=
  { s with links := sset (fun _ => LinkState.reset) s.links p (f (s.lk p)) }

/-- Lane i of a link. -/
def LinkState.lane (l : LinkState) (i : Nat) : LaneState := sget (fun _ => LaneState.reset) l.lanes i

/-- Changes lane i of link p. -/
def State.updLane (s : State) (p i : Nat) (f : LaneState → LaneState) : State :=
  s.updLk p fun l => { l with lanes := sset (fun _ => LaneState.reset) l.lanes i (f (l.lane i)) }

/-- Memory port q. -/
def State.pt (s : State) (q : Nat) : PortState := sget (fun _ => PortState.reset) s.ports q

/-- Changes memory port q. -/
def State.updPt (s : State) (q : Nat) (f : PortState → PortState) : State :=
  { s with ports := sset (fun _ => PortState.reset) s.ports q (f (s.pt q)) }

/-- Image i. -/
def State.im (s : State) (i : Nat) : ImageState := sget (fun _ => ImageState.reset) s.images i

/-- Changes image i. -/
def State.updIm (s : State) (i : Nat) (f : ImageState → ImageState) : State :=
  { s with images := sset (fun _ => ImageState.reset) s.images i (f (s.im i)) }

/-- Key slot x. -/
def State.ks (s : State) (x : Nat) : KeySlot := sget (fun _ => KeySlot.reset) s.keys x

/-- Changes key slot x. -/
def State.updKs (s : State) (x : Nat) (f : KeySlot → KeySlot) : State :=
  { s with keys := sset (fun _ => KeySlot.reset) s.keys x (f (s.ks x)) }

/-- Entry i of the member map (R286). -/
def State.mapEntry (s : State) (i : Nat) : MapEntry := sget (fun _ => MapEntry.reset) s.nodeMap i

/-- Sets entry i of the member map. -/
def State.setMapEntry (s : State) (i : Nat) (e : MapEntry) : State :=
  { s with nodeMap := sset (fun _ => MapEntry.reset) s.nodeMap i e }

/-- A fuse word; an unburnt word is zero (R320). (PRESUMED, assumption 6.) -/
def State.fuse (s : State) (w : Nat) : Word := sget (fun _ => 0) s.fuses w

/-- Sets bits of a fuse word: a burn only sets bits (R324). -/
def State.burnFuse (s : State) (w : Nat) (v : Word) : State :=
  { s with fuses := sset (fun _ => 0) s.fuses w (s.fuse w ||| v) }

/-- A flash byte; a byte never written is erased (0xFF). (PRESUMED, assumption 6.) -/
def State.flashByte (s : State) (a : Nat) : Byte := sget (fun _ => 0xFF) s.flash a

/-- `n` flash bytes. -/
def State.flashBytes (s : State) (a n : Nat) : List Byte := (List.range n).map fun i => s.flashByte (a + i)

/-- Sets a flash byte. -/
def State.setFlashByte (s : State) (a : Nat) (b : Byte) : State :=
  { s with flash := sset (fun _ => 0xFF) s.flash a b }

/-- Sets successive flash bytes. -/
def State.setFlashBytes (s : State) (a : Nat) : List Byte → State
  | [] => s
  | b :: r => (s.setFlashByte a b).setFlashBytes (a + 1) r

/-! ## Member memory

A byte that nothing has written reads as zero (DESIGN CHOICE, assumption 5). -/

/-- What an unwritten byte of member memory reads as. (DESIGN CHOICE, assumption 5.) -/
def memDefault (_ : Nat) : Byte := 0

/-- One byte of member memory. (DESIGN CHOICE, assumption 5.) -/
def State.readByte (s : State) (a : Nat) : Byte := sget memDefault s.mem a

/-- `n` bytes of member memory. -/
def State.readBytes (s : State) (a n : Nat) : List Byte := (List.range n).map fun i => s.readByte (a + i)

/-- Writes one byte. -/
def State.writeByte (s : State) (a : Nat) (b : Byte) : State := { s with mem := sset memDefault s.mem a b }

/-- Writes successive bytes. -/
def State.writeBytes (s : State) (a : Nat) : List Byte → State
  | [] => s
  | b :: r => (s.writeByte a b).writeBytes (a + 1) r

/-- Member memory in canonical form. -/
def Memory.wf (m : Sparse Byte) : Bool := swf memDefault m

/-- MEMTOP (R294): 2,048 × the smallest MPT[q]_SIZE, in 4 KiB units. (DEDUCED, assumption 66.) -/
def State.memTop (s : State) : Nat :=
  2048 * ((List.range 8).map fun q => s.rd (R.MPT_SIZE q) F.MPT_SIZE_SIZE).foldl min (2 ^ 32)

/-- The port of a member offset (R294). -/
def portOf (o : Nat) : Nat := bitsOf o 7 3

/-- The controller line address of a member offset (R294). -/
def lineOf (o : Nat) : Nat := o / 1024

/-- The member offset of a controller line address on a port (R294). -/
def offsetOfLine (q a : Nat) : Nat := a * 1024 + q * 128

/-- Whether one access at an offset can be served: inside member memory (else ADDRERR, R295) and on a port that is not DOWN
(else UNCORR, R296). (DESIGN CHOICE, assumption 65.) -/
def State.lineServed (s : State) (o : Nat) : Bool :=
  o / 4096 < s.memTop && !(s.on (R.MPT_STAT (portOf o)) F.MPT_STAT_DOWN)

/-- Whether every line of a range can be served. (DESIGN CHOICE, assumption 65.) (DEDUCED, assumption 66.) -/
def State.served (s : State) (o n : Nat) : Bool :=
  (List.range ((o % 128 + n + 127) / 128)).all fun i => s.lineServed (o + 128 * i)

/-! ## Accounts (R308 to R310) -/

/-- Account c: 0 to 7 the classes, 8 account U. -/
def State.account (s : State) (c : Nat) : Account := sget (fun _ => Account.reset) s.budget.accounts c

/-- Charges lines read, lines written and blocks injected to an account and counts them in BGT_USE (R308, R312). -/
def State.charge (s : State) (c rd wr blk : Nat) : State :=
  let a := s.account c
  let a := { a with rd := a.rd + rd, wr := a.wr + wr, blk := a.blk + blk }
  let m := sset (fun _ => Account.reset) s.budget.accounts c a
  let s := { s with budget := { s.budget with accounts := m } }
  if c < 8 then (s.add (R.BGT_USE c) F.BGT_USE_LINES (rd + wr)).add (R.BGT_USE c) F.BGT_USE_BLOCKS blk else s

/-- How many 128-byte lines a range touches. -/
def linesIn (o n : Nat) : Nat := if n = 0 then 0 else (o % 128 + n + 127) / 128

/-! ## Pins -/

/-- Whether MAIN runs: released from reset (R13). -/
def State.mainUp (s : State) : Bool := s.ao.mainRun

/-- The life-cycle state in force (R322). -/
def State.lcs (s : State) : Nat := s.rd R.FUS_LCS F.FUS_LCS_STATE

/-- Whether IRQ_N is asserted (R394). -/
def State.irq (s : State) : Bool :=
  s.on R.EVR_STATUS F.EVR_STATUS_IRQ || s.on R.CQ_STATUS F.CQ_STATUS_IRQQ ||
  (List.range 16).any (fun g => s.on (R.STP_GSTAT g) F.STP_GSTAT_REPLAY) ||
  (List.range 16).any (fun i => s.on (R.GRV_WIMG_CTL i) F.GRV_WIMG_CTL_DONE)

/-- This node's PNID. -/
def State.pnid (s : State) : Nat := s.rd R.RTR_SELF F.RTR_SELF_PNID

/-- Whether a tile is disabled (R2). -/
def State.tileDisabled (s : State) (t : Nat) : Bool := bitAt (s.reg R.FUS_TILEMAP).toNat t

/-- Whether a tile has left E: it is retired, and a ring start has followed (R301, R307). -/
def State.tileRetired (s : State) (t : Nat) : Bool :=
  s.on (R.TIL_SRAMSTAT t) F.TIL_SRAMSTAT_RETIRED && !(s.tl t).retiring

/-- The enabled tiles that are not retired, in increasing order (R301). -/
def State.tilesUp (s : State) : List Nat :=
  (List.range 64).filter fun t => !s.tileDisabled t && !s.tileRetired t

end Sys2Proof.Machine
end

