-- ==== Sys2Proof/Machine/Flags.lean ====
section
/-! DEFINITION. The exception flags of tile arithmetic (R115, R117) and the one rounding step that every binary32 and
binary64 result takes: to nearest with ties to even, with overflow, and with underflow detected after rounding. -/
namespace Sys2Proof.Machine

/-- The exceptions of TIL[t]_EXC: bit 0 IV, bit 1 DZ, bit 2 OF, bit 3 UF (R115). -/
abbrev Exc := BitVec 4

namespace Exc
/-- Invalid operation. -/
def iv : Exc := 1
/-- Division of a non-zero finite value by zero. -/
def dz : Exc := 2
/-- Overflow. -/
def ovf : Exc := 4
/-- Underflow: a tiny inexact result. -/
def unf : Exc := 8
end Exc

/-- An exception when a condition holds. -/
def excIf (b : Bool) (e : Exc) : Exc := if b then e else 0

/-- A binary format: exponent bits and fraction bits. -/
structure Fmt where
  eb : Nat
  fb : Nat
  deriving DecidableEq, Repr

/-- IEEE 754 binary32. -/
def b32 : Fmt := ⟨8, 23⟩
/-- IEEE 754 binary64. -/
def b64 : Fmt := ⟨11, 52⟩
/-- IEEE 754 binary16. -/
def b16 : Fmt := ⟨5, 10⟩
/-- bfloat16. -/
def bf16 : Fmt := ⟨8, 7⟩

/-- The exponent bias. -/
def Fmt.bias (f : Fmt) : Nat := 2 ^ (f.eb - 1) - 1

/-- The exponent of the least significant bit of a subnormal. -/
def Fmt.qmin (f : Fmt) : Int := 1 - (f.bias : Int) - (f.fb : Int)

/-- The exponent of the smallest normal magnitude. -/
def Fmt.emin (f : Fmt) : Int := 1 - (f.bias : Int)

/-- The encoding of +∞. -/
def Fmt.inf (f : Fmt) : Nat := (2 ^ f.eb - 1) * 2 ^ f.fb

/-- The sign bit's weight. -/
def Fmt.signBit (f : Fmt) : Nat := 2 ^ (f.eb + f.fb)

/-- The default quiet NaN. -/
def Fmt.nan (f : Fmt) : Nat := f.inf + 2 ^ (f.fb - 1)

/-- A sign as its bit. -/
def Fmt.sign (f : Fmt) (neg : Bool) : Nat := if neg then f.signBit else 0

/-- A number: a NaN (its bits without the sign, and whether it is signalling), an infinity, or a finite value m × 2^e. -/
inductive Num where
  | nan (neg : Bool) (bits : Nat) (signalling : Bool)
  | inf (neg : Bool)
  | fin (neg : Bool) (m : Nat) (e : Int)
  deriving DecidableEq, Repr

/-- The number that an encoding spells. -/
def Fmt.num (f : Fmt) (x : Nat) : Num :=
  let neg := bitAt x (f.eb + f.fb)
  let mag := x % f.signBit
  let ex := mag / 2 ^ f.fb
  let frac := mag % 2 ^ f.fb
  if ex = 2 ^ f.eb - 1 then
    if frac = 0 then .inf neg else .nan neg mag (!(bitAt mag (f.fb - 1)))
  else if ex = 0 then .fin neg frac f.qmin
  else .fin neg (2 ^ f.fb + frac) (f.qmin + ex - 1)

/-- m × 2^e in units of 2^q, rounded to nearest with ties to even, and whether that is exact. -/
def roundAt (m : Nat) (e q : Int) : Nat × Bool :=
  if q ≤ e then (m * 2 ^ (e - q).toNat, true)
  else
    let s := (q - e).toNat
    let n := m / 2 ^ s
    let r := m % 2 ^ s
    let up := r > 2 ^ (s - 1) || (r == 2 ^ (s - 1) && n % 2 == 1)
    (if up then n + 1 else n, r == 0)

/-- The rounding of an exact value m × 2^e (R117): its encoding and the flags OF and UF. -/
def Fmt.round (f : Fmt) (neg : Bool) (m : Nat) (e : Int) : Nat × Exc :=
  if m = 0 then (f.sign neg, 0)
  else
    let q : Int := (Nat.log2 m : Int) + e - f.fb
    let qb := max q f.qmin
    let (n, exact) := roundAt m e qb
    let enc := n + (qb - f.qmin).toNat * 2 ^ f.fb
    if f.inf ≤ enc then (f.sign neg + f.inf, Exc.ovf)
    else
      let (nu, _) := roundAt m e q
      let tiny := q < f.qmin && !(nu == 2 ^ (f.fb + 1) && q + 1 == f.qmin)
      (f.sign neg + enc, excIf (tiny && !exact) Exc.unf)

end Sys2Proof.Machine
end

