-- ==== Sys2Proof/Machine/Float.lean ====
section
/-! DEFINITION. Tile arithmetic: the lane operations (R117), the scalar unit (R123), the narrow formats (R103, R120 to
R122), square accumulators (R91) and the counter generator (R130). Values are exact integers until one rounding. -/
namespace Sys2Proof.Machine

/-! ## NaNs -/

/-- A NaN made quiet, its sign and payload kept (R117). -/
def Fmt.quiet (f : Fmt) (neg : Bool) (bits : Nat) : Nat := f.sign neg + (bits ||| 2 ^ (f.fb - 1))

/-- Whether an encoding is a signalling NaN. -/
def Fmt.isSnan (f : Fmt) (x : Nat) : Bool :=
  match f.num x with
  | .nan _ _ s => s
  | _ => false

/-- The first NaN among the operands, quiet, with IV if any operand is a signalling NaN (R117). -/
def Fmt.firstNan (f : Fmt) (l : List Nat) : Option (Nat × Exc) :=
  (l.findSome? fun x => match f.num x with
    | .nan n b _ => some (f.quiet n b)
    | _ => none).map fun q => (q, excIf (l.any f.isSnan) Exc.iv)

/-- The default NaN of an invalid operation. -/
def Fmt.invalid (f : Fmt) : Nat × Exc := (f.nan, Exc.iv)

/-! ## Arithmetic (R117, R123) -/

/-- A signed integer weighed by 2^e, rounded; an exact zero takes the given sign. -/
def Fmt.ofInt (f : Fmt) (zeroNeg : Bool) (v : Int) (e : Int) : Nat × Exc :=
  if v = 0 then (f.sign zeroNeg, 0) else f.round (v < 0) v.natAbs e

/-- The signed integer of a finite magnitude. -/
def signed (neg : Bool) (m : Nat) : Int := if neg then -(m : Int) else m

/-- The exact sum of two finite values, rounded. A sum of zeros of one sign keeps it; every other exact zero is +0. -/
def Fmt.sumFin (f : Fmt) (n1 : Bool) (m1 : Nat) (e1 : Int) (n2 : Bool) (m2 : Nat) (e2 : Int) : Nat × Exc :=
  let e := min e1 e2
  let v := signed n1 (m1 * 2 ^ (e1 - e).toNat) + signed n2 (m2 * 2 ^ (e2 - e).toNat)
  f.ofInt (n1 && n2) v e

/-- The sum of two numbers that are no NaNs. -/
def Fmt.sum (f : Fmt) (a b : Num) : Nat × Exc :=
  match a, b with
  | .inf x, .inf y => if x = y then (f.sign x + f.inf, 0) else f.invalid
  | .inf x, _ => (f.sign x + f.inf, 0)
  | _, .inf y => (f.sign y + f.inf, 0)
  | .fin n1 m1 e1, .fin n2 m2 e2 => f.sumFin n1 m1 e1 n2 m2 e2
  | _, _ => f.invalid

/-- The sign of a number changed. -/
def Num.neg : Num → Num
  | .nan n b s => .nan (!n) b s
  | .inf n => .inf (!n)
  | .fin n m e => .fin (!n) m e

/-- The exact product of two numbers that are no NaNs: `none` for 0 × ∞. -/
def Num.mul (a b : Num) : Option Num :=
  match a, b with
  | .fin n1 m1 e1, .fin n2 m2 e2 => some (.fin (n1 != n2) (m1 * m2) (e1 + e2))
  | .inf n1, .inf n2 => some (.inf (n1 != n2))
  | .inf n1, .fin n2 m2 _ => if m2 = 0 then none else some (.inf (n1 != n2))
  | .fin n1 m1 _, .inf n2 => if m1 = 0 then none else some (.inf (n1 != n2))
  | _, _ => none

/-- A number that is no NaN, rounded. -/
def Fmt.pack (f : Fmt) (a : Num) : Nat × Exc :=
  match a with
  | .inf n => (f.sign n + f.inf, 0)
  | .fin n m e => f.round n m e
  | .nan n b _ => (f.quiet n b, 0)

/-- A + B. -/
def Fmt.add (f : Fmt) (a b : Nat) : Nat × Exc :=
  (f.firstNan [a, b]).getD (f.sum (f.num a) (f.num b))

/-- A − B. -/
def Fmt.sub (f : Fmt) (a b : Nat) : Nat × Exc :=
  (f.firstNan [a, b]).getD (f.sum (f.num a) (f.num b).neg)

/-- A × B. -/
def Fmt.mul (f : Fmt) (a b : Nat) : Nat × Exc :=
  (f.firstNan [a, b]).getD (((f.num a).mul (f.num b)).elim f.invalid f.pack)

/-- A × B + C, or C − A × B, rounded once. With a product 0 × ∞ the result is C when C is a NaN, and IV is set. -/
def Fmt.fma (f : Fmt) (negate : Bool) (a b c : Nat) : Nat × Exc :=
  match f.firstNan [a, b, c] with
  | some (q, e) =>
    let bad := (f.firstNan [a, b]).isNone && ((f.num a).mul (f.num b)).isNone
    (q, e ||| excIf bad Exc.iv)
  | none => ((f.num a).mul (f.num b)).elim f.invalid fun p => f.sum (if negate then p.neg else p) (f.num c)

/-- The quotient of two finite non-zero magnitudes with three extra bits and a sticky bit. -/
def divMag (p m1 m2 : Nat) (e1 e2 : Int) : Nat × Int :=
  let k := p + 4 + (Nat.log2 m2 + 1)
  let q := m1 * 2 ^ k / m2
  let r := m1 * 2 ^ k % m2
  (2 * q + (if r = 0 then 0 else 1), e1 - e2 - (k : Int) - 1)

/-- A / B. -/
def Fmt.div (f : Fmt) (a b : Nat) : Nat × Exc :=
  (f.firstNan [a, b]).getD (match f.num a, f.num b with
    | .inf _, .inf _ => f.invalid
    | .inf x, .fin y _ _ => (f.sign (x != y) + f.inf, 0)
    | .fin x _ _, .inf y => (f.sign (x != y), 0)
    | .fin x m1 e1, .fin y m2 e2 =>
      if m2 = 0 then (if m1 = 0 then f.invalid else (f.sign (x != y) + f.inf, Exc.dz))
      else if m1 = 0 then (f.sign (x != y), 0)
      else
        let (q, e) := divMag f.fb m1 m2 e1 e2
        f.round (x != y) q e
    | _, _ => f.invalid)

/-- The integer square root, bit by bit from bit `n − 1` down. -/
def isqrtGo (v : Nat) : Nat → Nat → Nat
  | 0, r => r
  | n + 1, r => let t := r + 2 ^ n; isqrtGo v n (if t * t ≤ v then t else r)

/-- The integer square root. -/
def isqrt (v : Nat) : Nat := isqrtGo v (Nat.log2 v / 2 + 1) 0

/-- The square root of A. -/
def Fmt.sqrt (f : Fmt) (a : Nat) : Nat × Exc :=
  (f.firstNan [a]).getD (match f.num a with
    | .inf n => if n then f.invalid else (f.inf, 0)
    | .fin n m e =>
      if m = 0 then (f.sign n, 0)
      else if n then f.invalid
      else
        let k := 2 * (f.fb + 4) + (if e % 2 = 0 then 0 else 1)
        let v := m * 2 ^ k
        let r := isqrt v
        f.round false (2 * r + (if r * r = v then 0 else 1)) ((e - k) / 2 - 1)
    | .nan _ _ _ => f.invalid)

/-- The order of two encodings that are no NaNs: negative, zero or positive as a − b, with −0 below +0. -/
def Fmt.key (f : Fmt) (a : Nat) : Int :=
  let mag := a % f.signBit
  if bitAt a (f.eb + f.fb) then -(mag : Int) - 1 else mag

/-- The maximum of A and B: +0 above −0, A where they are equal. -/
def Fmt.maxOp (f : Fmt) (a b : Nat) : Nat × Exc :=
  (f.firstNan [a, b]).getD (if f.key a < f.key b then (b, 0) else (a, 0))

/-- The minimum of A and B. -/
def Fmt.minOp (f : Fmt) (a b : Nat) : Nat × Exc :=
  (f.firstNan [a, b]).getD (if f.key b < f.key a then (b, 0) else (a, 0))

/-- SIGN: ±1.0, +0.0 or a quiet NaN (R96, R117). -/
def Fmt.signOf (f : Fmt) (a : Nat) : Nat × Exc :=
  (f.firstNan [a]).getD (
    if a % f.signBit = 0 then (0, 0)
    else (f.sign (bitAt a (f.eb + f.fb)) + f.bias * 2 ^ f.fb, 0))

/-! ## Conversions (R120 to R123) -/

/-- binary32 to binary64: exact (R123). -/
def toB64 (x : Nat) : Nat × Exc :=
  match b32.num x with
  | .nan n b s => (b64.sign n + b64.inf + (b % 2 ^ 23 * 2 ^ 29 ||| 2 ^ 51), excIf s Exc.iv)
  | .inf n => (b64.sign n + b64.inf, 0)
  | .fin n m e => b64.round n m e

/-- binary64 to binary32, rounded to nearest (R123). -/
def toB32 (x : Nat) : Nat × Exc :=
  match b64.num x with
  | .nan n b s => (b32.sign n + b32.inf + (b % 2 ^ 52 / 2 ^ 29 ||| 2 ^ 22), excIf s Exc.iv)
  | .inf n => (b32.sign n + b32.inf, 0)
  | .fin n m e => b32.round n m e

/-- An unsigned integer of up to 53 bits to binary64 (R123). -/
def natB64 (n : Nat) : Nat := (b64.round false n 0).1

/-- bfloat16 to binary32 (R120). -/
def widenBf16 (x : Nat) : Nat := x % 2 ^ 16 * 2 ^ 16

/-- binary16 to binary32 (R120). -/
def widenF16 (x : Nat) : Nat × Exc :=
  match b16.num x with
  | .nan n b s => (b32.sign n + b32.inf + (b % 2 ^ 10 * 2 ^ 13 ||| 2 ^ 22), excIf s Exc.iv)
  | .inf n => (b32.sign n + b32.inf, 0)
  | .fin n m e => b32.round n m e

/-- Whether dropping the low `d` bits `t` of a magnitude with truncated value `n` rounds up: to nearest with ties to even,
or by the stochastic draw (R121). -/
def roundsUp (d t n : Nat) (draw : Option Nat) : Bool :=
  match draw with
  | none => decide (2 ^ d < 2 * t) || (2 * t == 2 ^ d && n % 2 == 1 && d != 0)
  | some r =>
    if d > 32 then 2 ^ 32 ≤ t / 2 ^ (d - 32) + r % 2 ^ 32
    else 2 ^ d ≤ t + r % 2 ^ d

/-- A finite binary32 magnitude m × 2^e narrowed to a format (R121, R122): the encoding without a sign, and OF and UF. -/
def Fmt.narrowFin (f : Fmt) (m : Nat) (e : Int) (draw : Option Nat) : Nat × Exc :=
  if m = 0 then (0, 0)
  else
    let q : Int := (Nat.log2 m : Int) + e - f.fb
    let qb := max q f.qmin
    let cut := fun (q : Int) =>
      if q ≤ e then (m * 2 ^ (e - q).toNat, true)
      else
        let d := (q - e).toNat
        let n := m / 2 ^ d
        let t := m % 2 ^ d
        (if roundsUp d t n draw then n + 1 else n, t == 0)
    let (n, exact) := cut qb
    let enc := n + (qb - f.qmin).toNat * 2 ^ f.fb
    let (nu, _) := cut q
    let tiny := q < f.qmin && !(nu == 2 ^ (f.fb + 1) && q + 1 == f.qmin)
    let uf := excIf (tiny && !exact) Exc.unf
    if f.inf ≤ enc then (f.inf - 1, Exc.ovf ||| uf) else (enc, uf)

/-- Narrowing from binary32 (R103, R121, R122); `draw` is the generator output under stochastic rounding. -/
def Fmt.narrow (f : Fmt) (x : Nat) (draw : Option Nat) : Nat × Exc :=
  match b32.num x with
  | .nan n _ s => (f.sign n + f.nan, excIf s Exc.iv)
  | .inf n => (f.sign n + f.inf, 0)
  | .fin n m e =>
    let (r, ex) := f.narrowFin m e draw
    (f.sign n + r, ex)

/-! ## Square accumulators (R91) -/

/-- The sum held in a square accumulator. -/
def accSum (a : BitVec 640) : Nat := a.toNat % 2 ^ 610

/-- The flag of a square accumulator. -/
def accFlag (a : BitVec 640) : Bool := bitAt a.toNat 639

/-- An accumulator of a sum and a flag. -/
def accOf (sum : Nat) (flag : Bool) : BitVec 640 :=
  BitVec.ofNat 640 (sum % 2 ^ 610 + if flag then 2 ^ 639 else 0)

/-- Adding two accumulators adds their sums and ORs their flags. -/
def accAdd (a b : BitVec 640) : BitVec 640 := accOf (accSum a + accSum b) (accFlag a || accFlag b)

/-- The square of a binary32 value as an accumulator: exact, in units of 2^−298; a non-finite square sets the flag. -/
def accSquare (x : F32) : BitVec 640 :=
  match b32.num x.toNat with
  | .fin _ m e => accOf (m * m * 2 ^ (2 * e + 298).toNat) false
  | _ => accOf 0 true

/-- Whether a binary32 value is finite. -/
def isFinite32 (x : F32) : Bool := x.toNat % 2 ^ 31 < 0x7F800000

/-- An accumulator rounded once to binary64; a flagged accumulator rounds to +∞. -/
def accRound (a : BitVec 640) : F64 :=
  if accFlag a then BitVec.ofNat 64 b64.inf else BitVec.ofNat 64 (b64.round false (accSum a) (-298)).1

/-! ## The counter generator (R130) -/

/-- The rounds that are left, from round `r` on. -/
def genGo : Nat → Nat → Nat → Nat → Nat × Nat × Nat × Nat → Nat × Nat × Nat × Nat
  | 0, _, _, _, x => x
  | n + 1, r, k0, k1, (x0, x1, x2, x3) =>
    let u := (k0 + r * 0x9A3C6E57) % 2 ^ 32
    let v := (k1 + r * 0xB46D2A91) % 2 ^ 32
    let p := x0 * 0xD3A56B1D
    let q := x2 * 0xC91E2F47
    genGo n (r + 1) k0 k1
      ((q / 2 ^ 32) ^^^ x1 ^^^ u, q % 2 ^ 32, (p / 2 ^ 32) ^^^ x3 ^^^ v, p % 2 ^ 32)

/-- The generator's 128-bit output for a counter and a key. -/
def gen (ctr key : Nat) : Nat :=
  let w := fun (x i : Nat) => bitsOf x (32 * i) 32
  let (x0, x1, x2, x3) := genGo 10 0 (w key 0) (w key 1)
    (w ctr 0 ^^^ w key 2, w ctr 1, w ctr 2 ^^^ w key 3, w ctr 3)
  x0 + 2 ^ 32 * x1 + 2 ^ 64 * x2 + 2 ^ 96 * x3

end Sys2Proof.Machine
end

