-- ==== Sys2Proof/Machine/Gf.lean ====
section
/-! DEFINITION. Grove coding as arithmetic: GF(2⁸) (R63), the coefficients (R64), encoding (R70), reconstruction (R83) and
the delta format (R74 to R77). -/
namespace Sys2Proof.Machine

/-! ## The field (R63) -/

/-- The steps of gmul that are left: product so far, a and b. -/
def gmulGo : Nat → Nat → Nat → Nat → Nat
  | 0, p, _, _ => p
  | n + 1, p, a, b =>
    let p := if b % 2 = 1 then p ^^^ a else p
    let a := 2 * a
    gmulGo n p (if a ≥ 256 then a ^^^ 0x11D else a) (b / 2)

/-- Multiplication in GF(2⁸) (R63). -/
def gmul (a b : Byte) : Byte := BitVec.ofNat 8 (gmulGo 8 0 a.toNat b.toNat)

/-- A power in GF(2⁸). -/
def gpow (a : Byte) : Nat → Byte
  | 0 => 1
  | n + 1 => gmul a (gpow a n)

/-- The multiplicative inverse: a to the power 254 (R63). -/
def ginv (a : Byte) : Byte := gpow a 254

/-- The coefficient c[j][i] (R64). -/
def coef (j i : Nat) : Byte :=
  gmul (BitVec.ofNat 8 (32 + i)) (ginv (BitVec.ofNat 8 j ^^^ BitVec.ofNat 8 (32 + i)))

/-- Every byte of a string multiplied by one element. -/
def gscale (c : Byte) (l : List Byte) : List Byte := l.map (gmul c)

/-- Zero bytes. -/
def zeros (n : Nat) : List Byte := List.replicate n 0

/-- Parity j of k data strings of `len` bytes, in data-index order (R70). -/
def encodeParityBytes (len j : Nat) (data : List (List Byte)) : List Byte :=
  (data.zipIdx).foldl (fun p d => xorBytes p (gscale (coef j d.2) d.1)) (zeros len)

/-! ## Slots, rows and placement (R66 to R68) -/

/-- A code: k, m, its epoch, this member's slot and GROUPS (R71). -/
structure Code where
  k : Nat
  m : Nat
  epoch : Nat
  slot : Nat
  groups : Nat
  deriving DecidableEq, Repr

/-- n = k + m. -/
def Code.n (c : Code) : Nat := c.k + c.m

/-- The number of rows (R66). -/
def Code.rows (c : Code) : Nat := c.n * c.groups

/-- The slot of parity j in a row (R67). -/
def Code.paritySlot (c : Code) (row j : Nat) : Nat := (row + j) % c.n

/-- The parity index that a slot holds in a row, if it holds parity there (R67). -/
def Code.parityIndex (c : Code) (row slot : Nat) : Option Nat :=
  let j := (slot + c.n - row % c.n) % c.n
  if j < c.m then some j else none

/-- The data index that a slot holds in a row, if it holds data there (R67). -/
def Code.dataIndex (c : Code) (row slot : Nat) : Option Nat :=
  let u := row % c.n
  if (c.parityIndex row slot).isSome then none
  else if u + c.m ≤ c.n then some (if slot < u then slot else slot - c.m)
  else some (slot - (u + c.m - c.n))

/-- The slot of a data index in a row (R67). -/
def Code.dataSlot (c : Code) (row i : Nat) : Nat :=
  let u := row % c.n
  if u + c.m ≤ c.n then (if i < u then i else i + c.m) else i + (u + c.m - c.n)

/-- The row of local data leaf q of a slot (R68). -/
def Code.rowOfLeaf (c : Code) (slot q : Nat) : Nat := c.n * (q / c.k) + (slot + 1 + q % c.k) % c.n

/-- The local data leaf of a slot in a row (R68). -/
def Code.leafOfRow (c : Code) (slot row : Nat) : Nat := c.k * (row / c.n) + (row % c.n + 2 * c.n - slot - 1) % c.n

/-- The row of parity leaf p of a slot (R68). -/
def Code.rowOfParity (c : Code) (slot p : Nat) : Nat := c.n * (p / c.m) + (slot + c.n - p % c.m) % c.n

/-- The parity leaf index of parity j in a row (R68). -/
def Code.parityLeaf (c : Code) (row j : Nat) : Nat := c.m * (row / c.n) + j

/-! ## Reconstruction (R83) -/

/-- A row of a linear system: its coefficients and its right-hand side, a byte string. -/
abbrev GfRow := List Byte × List Byte

/-- A row scaled by an element. -/
def GfRow.scale (c : Byte) (r : GfRow) : GfRow := (gscale c r.1, gscale c r.2)

/-- A row with the multiple of a pivot row taken away that clears column `col`. -/
def GfRow.clear (col : Nat) (p r : GfRow) : GfRow :=
  let q := p.scale (r.1.getD col 0)
  (xorBytes r.1 q.1, xorBytes r.2 q.2)

/-- Gauss-Jordan elimination, one column at a time; the pivot rows come out in column order. -/
def gauss : Nat → Nat → List GfRow → List GfRow → List GfRow
  | 0, _, done, _ => done
  | f + 1, col, done, rest =>
    match rest.find? (fun r => r.1.getD col 0 != 0) with
    | none => done
    | some r =>
      let p := r.scale (ginv (r.1.getD col 0))
      gauss f (col + 1) (done.map (p.clear col) ++ [p]) ((rest.erase r).map (p.clear col))

/-- The erased data strings of a row (R83): `data i` is a surviving data string, `parity` lists the chosen parity indices
with their strings, and `erased` lists the erased data indices. -/
def reconstruct (k len : Nat) (data : Nat → Option (List Byte)) (parity : List (Nat × List Byte))
    (erased : List Nat) : List (List Byte) :=
  let syndrome := fun (jp : Nat × List Byte) =>
    (List.range k).foldl (fun s i => match data i with
      | some d => if erased.contains i then s else xorBytes s (gscale (coef jp.1 i) d)
      | none => s) jp.2
  let system : List GfRow := parity.map fun jp => (erased.map (coef jp.1 ·), slice (syndrome jp) 0 len)
  (gauss erased.length 0 [] system).map (·.2)

/-! ## The delta format (R74 to R77) -/

/-- A delta's header (R74). -/
structure DeltaHdr where
  form : Nat
  scaled : Bool
  didx : Nat
  pidx : Nat
  glade : Nat
  epoch : Nat
  ringLo : Nat
  row : Nat
  deriving DecidableEq, Repr

/-- The header's 64-bit value (R74). -/
def DeltaHdr.word (h : DeltaHdr) : Nat :=
  h.form % 4 + (if h.scaled then 4 else 0) + 8 * (h.didx % 32) + 2 ^ 8 * (h.pidx % 4) + 2 ^ 10 * (h.glade % 16) +
  2 ^ 16 * (h.epoch % 256) + 2 ^ 24 * (h.ringLo % 256) + 2 ^ 32 * (h.row % 2 ^ 32)

/-- The header that a 64-bit value spells. -/
def DeltaHdr.ofWord (w : Nat) : DeltaHdr :=
  ⟨bitsOf w 0 2, bitAt w 2, bitsOf w 3 5, bitsOf w 8 2, bitsOf w 10 4, bitsOf w 16 8, bitsOf w 24 8, bitsOf w 32 32⟩

/-- The mask of the non-zero elements of a list: bit i for element i. -/
def maskOf (l : List Bool) : Nat := l.foldr (fun b m => 2 * m + (if b then 1 else 0)) 0

/-- The 64 chunks of 64 bytes of a 4,096-byte delta. -/
def deltaChunks (d : List Byte) : List (List Byte) := (List.range 64).map fun c => slice d (64 * c) 64

/-- Whether a chunk holds a non-zero byte. -/
def nonZero (l : List Byte) : Bool := l.any (· != 0)

/-- The thinned body of a 4,096-byte delta (R75). -/
def thinBody (d : List Byte) : List Byte :=
  let cs := deltaChunks d
  leBytes 8 (maskOf (cs.map nonZero)) ++
    (cs.filter nonZero).flatMap fun c => leBytes 8 (maskOf (c.map (· != 0))) ++ c.filter (· != 0)

/-- The thinned form's size (R75). -/
def thinSize (d : List Byte) : Nat := 8 + (thinBody d).length

/-- A delta in the thinned form, or in the raw form when the thinned form is larger than 4,112 bytes (R75, R76), or in
the raw form when `raw` asks for it (R78, order 1). -/
def encodeDelta (raw : Bool) (h : DeltaHdr) (d : List Byte) : List Byte :=
  if raw || thinSize d > 4112 then
    leBytes 8 { h with form := 1 }.word ++ leBytes 8 (2 ^ 64 - 1) ++ slice d 0 4096
  else leBytes 8 { h with form := 0 }.word ++ thinBody d

/-- Spreads the non-zero bytes of a chunk over the positions that its mask marks: the chunk, the rest of the input and
whether every marked byte is there and not zero. -/
def unmask : Nat → Nat → List Byte → List Byte × List Byte × Bool
  | 0, _, rest => ([], rest, true)
  | n + 1, mask, rest =>
    if mask % 2 = 1 then
      match rest with
      | [] => ([], [], false)
      | b :: r =>
        let (c, r, ok) := unmask n (mask / 2) r
        (b :: c, r, ok && b != 0)
    else
      let (c, r, ok) := unmask n (mask / 2) rest
      (0 :: c, r, ok)

/-- The chunks of a thinned body after its map: the delta's bytes, the rest and whether the body is well formed. -/
def unthin : Nat → Nat → List Byte → List Byte × List Byte × Bool
  | 0, _, rest => ([], rest, true)
  | n + 1, map, rest =>
    if map % 2 = 1 then
      let mask := leAt rest 0 8
      let (c, r, ok) := unmask 64 mask (rest.drop 8)
      let (d, r, ok') := unthin n (map / 2) r
      (c ++ d, r, ok && ok' && mask != 0 && 8 ≤ rest.length)
    else
      let (d, r, ok) := unthin n (map / 2) rest
      (zeros 64 ++ d, r, ok)

/-- Reads a delta message; `none` when it is malformed (R77). `scaled` is what SCALED must be. -/
def parseDelta (scaled : Bool) (msg : List Byte) : Option (DeltaHdr × List Byte) :=
  let w := leAt msg 0 8
  let h := DeltaHdr.ofWord w
  if msg.length < 16 || bitsOf w 14 2 != 0 || h.scaled != scaled then none
  else if h.form = 1 then
    if msg.length = 4112 && leAt msg 8 8 == 2 ^ 64 - 1 then some (h, msg.drop 16) else none
  else if h.form = 0 then
    let (d, r, ok) := unthin 64 (leAt msg 8 8) (msg.drop 16)
    if ok && r.isEmpty && msg.length ≤ 4112 then some (h, d) else none
  else none

/-! ## Journal entries (R79) -/

/-- A journal length rounded up to a multiple of 8. -/
def pad8 (n : Nat) : Nat := (n + 7) / 8 * 8

/-- A holder-journal entry (R79): the prefix, the net change as a delta, and padding. -/
def holderEntry (fold ringLo : Nat) (h : DeltaHdr) (net : List Byte) : List Byte :=
  let d := encodeDelta false h net
  let len := pad8 (8 + d.length)
  leBytes 8 (fold % 2 ^ 28 + 2 ^ 32 * (ringLo % 256) + 2 ^ 40 * (h.epoch % 256) + 2 ^ 48 * len) ++ d ++
    zeros (len - 8 - d.length)

end Sys2Proof.Machine
end

