-- ==== Sys2Proof/Machine/Shape.lean ====
section
/-! DEFINITION. The glade's shape as this node knows it: the code in force, the grove's members, the layer table and the
places of leaves in member memory (R24 to R42, R66, R71). -/
namespace Sys2Proof.Machine

/-- Member count S of glade g (R24). -/
def State.members (s : State) (g : Nat) : Nat := s.rd (R.GLD_MEMBER g) F.GLD_MEMBER_SM1 + 1

/-- This node's LMN in glade g. -/
def State.lmn (s : State) (g : Nat) : Nat := s.rd (R.GLD_MEMBER g) F.GLD_MEMBER_LMN

/-- Whether glade g is ACTIVE (R25). -/
def State.active (s : State) (g : Nat) : Bool := s.on (R.GLD_STATUS g) F.GLD_STATUS_ACTIVE

/-- Whether glade g runs in exact mode (R23). -/
def State.exact (s : State) (g : Nat) : Bool := s.on (R.GLD_CTL g) F.GLD_CTL_MODE

/-- The number of moment classes μ. -/
def State.moments (s : State) (g : Nat) : Nat := s.rd (R.GLD_CTL g) F.GLD_CTL_MOMENTS

/-- The last committed ring of glade g. -/
def State.ring (s : State) (g : Nat) : Nat := (s.reg (R.GLD_RING g)).toNat

/-- The open ring of glade g: one above the last committed ring (R74). -/
def State.openRing (s : State) (g : Nat) : Nat := (s.ring g + 1) % 2 ^ 64

/-- The code in force (R71). -/
def State.code (s : State) (g : Nat) : Code :=
  ⟨s.rd (R.GRV_ROWCFG g) F.GRV_ROWCFG_K, s.rd (R.GRV_ROWCFG g) F.GRV_ROWCFG_M,
   s.rd (R.GRV_ROWCFG g) F.GRV_ROWCFG_EPOCH, s.rd (R.GRV_ROWCFG g) F.GRV_ROWCFG_SLOT,
   s.rd (R.GRV_ROWCFG g) F.GRV_ROWCFG_GROUPS⟩

/-- The next code while a window is open (R71). -/
def State.nextCode (s : State) (g : Nat) : Code :=
  ⟨s.rd (R.GRV_NEXTCFG g) F.GRV_NEXTCFG_K, s.rd (R.GRV_NEXTCFG g) F.GRV_NEXTCFG_M,
   s.rd (R.GRV_NEXTCFG g) F.GRV_NEXTCFG_EPOCH, s.rd (R.GRV_NEXTCFG g) F.GRV_NEXTCFG_SLOT,
   s.rd (R.GRV_NEXTCFG g) F.GRV_NEXTCFG_GROUPS⟩

/-- Whether a dual-coding window is open. -/
def State.windowOpen (s : State) (g : Nat) : Bool := s.on (R.GRV_NEXTCFG g) F.GRV_NEXTCFG_VALID

/-- Whether this member has joined its grove. -/
def State.joined (s : State) (g : Nat) : Bool := s.on (R.GRV_ROWCFG g) F.GRV_ROWCFG_JOINED

/-- GRV_MSTAT STATE (R159). -/
def State.mstate (s : State) (g : Nat) : Nat := s.rd (R.GRV_MSTAT g) F.GRV_MSTAT_STATE

/-- Sets GRV_MSTAT STATE. -/
def State.setMstate (s : State) (g n : Nat) : State := s.wr (R.GRV_MSTAT g) F.GRV_MSTAT_STATE n

/-- Whether this node's member of glade g is fenced (R172). -/
def State.fenced (s : State) (g : Nat) : Bool := bitAt (s.rd R.GRV_FENCE F.GRV_FENCE_FENCED) g

/-- Whether the member belongs to a grove: GRV_MSTAT STATE 1, 2, 3, 4 or 7 (R159, R173). -/
def State.inGrove (s : State) (g : Nat) : Bool := [1, 2, 3, 4, 7].contains (s.mstate g)

/-- n of the code in force; 1 stands in while no code is in force, so that division is defined. -/
def State.groveN (s : State) (g : Nat) : Nat := max 1 (s.code g).n

/-- The LMN of a slot of this member's grove (R66). -/
def State.lmnOfSlot (s : State) (g slot : Nat) : Nat := s.lmn g / s.groveN g * s.groveN g + slot

/-- The slots of the grove. -/
def State.slots (s : State) (g : Nat) : List Nat := List.range (s.groveN g)

/-- The LMNs of the other members of this member's grove. -/
def State.grovePeers (s : State) (g : Nat) : List Nat :=
  ((s.slots g).map (s.lmnOfSlot g)).filter (· != s.lmn g)

/-- Every other member of the glade. -/
def State.otherMembers (s : State) (g : Nat) : List Nat := (List.range (s.members g)).filter (· != s.lmn g)

/-- The slots that are lost and not yet wholly rebuilt (R159). -/
def State.lostSlots (s : State) (g : Nat) : List Nat :=
  (s.slots g).filter fun x => bitAt (s.rd (R.GRV_LOST g) F.GRV_LOST_LOST) x

/-- Sets one bit of a bit-mask field. -/
def State.setMask (s : State) (a : Nat) (f : Fld) (i : Nat) : State := s.wr a f (s.rd a f ||| 2 ^ i)

/-- Clears one bit of a bit-mask field. -/
def State.clearMask (s : State) (a : Nat) (f : Fld) (i : Nat) : State :=
  s.wr a f (if bitAt (s.rd a f) i then s.rd a f - 2 ^ i else s.rd a f)

/-! ## Regions -/

/-- The base of region x, as a member offset (R24). -/
def State.regionBase (s : State) (g x : Nat) : Nat := 4096 * s.rd (R.GLD_REGION g x) F.GLD_REGION_BASE

/-- The size of region x in 4 KiB units. -/
def State.regionSize (s : State) (g x : Nat) : Nat := s.rd (R.GLD_REGION g x) F.GLD_REGION_SIZE

/-- The base of next region x (R204). -/
def State.nextBase (s : State) (g x : Nat) : Nat := 4096 * s.rd (R.GLD_NREGION g x) F.GLD_NREGION_BASE

/-- The size of next region x. -/
def State.nextSize (s : State) (g x : Nat) : Nat := s.rd (R.GLD_NREGION g x) F.GLD_NREGION_SIZE

/-! ## The layer table (R29 to R32) -/

/-- The number of layers. -/
def State.layers (s : State) (g : Nat) : Nat := s.rd (R.GLD_LAYERS g) F.GLD_LAYERS_COUNT

/-- Layer entry l (R29). -/
def State.layerWord (s : State) (g l : Nat) : Nat := leNat (s.readBytes (s.regionBase g 9 + 8 * l) 8)

/-- P_l (R29). -/
def State.layerParams (s : State) (g l : Nat) : Nat := bitsOf (s.layerWord g l) 0 40

/-- The step-program slot of layer l (R29). -/
def State.layerProg (s : State) (g l : Nat) : Nat := bitsOf (s.layerWord g l) 40 8

/-- NODECAY of layer l (R29). -/
def State.noDecay (s : State) (g l : Nat) : Bool := bitAt (s.layerWord g l) 48

/-- B_l (R30). -/
def State.layerBlocks (s : State) (g l : Nat) : Nat := (s.layerParams g l + 1023) / 1024

/-- lo(i, l) (R31) for a glade of `sz` members. -/
def State.blockLo (s : State) (g sz i l : Nat) : Nat := i * s.layerBlocks g l / sz

/-- The blocks of layer l that member i of `sz` owns (R31). -/
def State.ownedBlocks (s : State) (g sz i l : Nat) : Nat := s.blockLo g sz (i + 1) l - s.blockLo g sz i l

/-- Bloc of member i of `sz` (R32). -/
def State.blocOf (s : State) (g sz i : Nat) : Nat :=
  ((List.range (s.layers g)).map fun l => s.ownedBlocks g sz i l).sum

/-- Bloc of this member, as computed at enable (R25). -/
def State.bloc (s : State) (g : Nat) : Nat := s.rd (R.GLD_SIZE g) F.GLD_SIZE_BLOCKS

/-- D from Bloc (R32). -/
def leavesOf (mu bloc : Nat) : Nat := (1 + mu) * bloc + (bloc + 255) / 256

/-- D of member i of `sz`. -/
def State.leavesOfMember (s : State) (g sz i : Nat) : Nat := leavesOf (s.moments g) (s.blocOf g sz i)

/-- D of the member at a slot of this grove under the code in force. -/
def State.leavesOfSlot (s : State) (g slot : Nat) : Nat :=
  s.leavesOfMember g (s.members g) (s.lmnOfSlot g slot)

/-- Layer and block of local block t of member i of `sz` (R32), searching from layer l with `f` layers left. -/
def State.locateFrom (s : State) (g sz i : Nat) : Nat → Nat → Nat → Option (Nat × Nat)
  | 0, _, _ => none
  | f + 1, l, t =>
    let c := s.ownedBlocks g sz i l
    if t < c then some (l, s.blockLo g sz i l + t) else s.locateFrom g sz i f (l + 1) (t - c)

/-- Layer and block of local block t of this member. -/
def State.locate (s : State) (g t : Nat) : Option (Nat × Nat) :=
  s.locateFrom g (s.members g) (s.lmn g) (s.layers g) 0 t

/-- The owner of a block among `sz` members (R31). -/
def State.ownerOf (s : State) (g sz l b : Nat) : Nat :=
  ((List.range sz).find? fun i => s.blockLo g sz i l ≤ b && b < s.blockLo g sz (i + 1) l).getD 0

/-- The local block index of a block at member i of `sz` (R32). -/
def State.localBlock (s : State) (g sz i l b : Nat) : Nat :=
  ((List.range l).map fun x => s.ownedBlocks g sz i x).sum + (b - s.blockLo g sz i l)

/-- The number of lanes of a block that are not padding lanes (R30). -/
def State.lanesOf (s : State) (g l b : Nat) : Nat := min 1024 (s.layerParams g l - 1024 * b)

/-! ## Leaves in memory (R34 to R37) -/

/-- Where local data leaf q lies for a shard of `bloc` blocks with the given region bases: class c of block t, or a ledger
leaf (R32, R34). -/
def leafPlace (mu bloc q : Nat) (base : Nat → Nat) : Nat :=
  if q < (1 + mu) * bloc then base (q % (1 + mu)) + 4096 * (q / (1 + mu))
  else base 3 + 4096 * (q - (1 + mu) * bloc)

/-- The member offset of local data leaf q of this member. -/
def State.leafAddr (s : State) (g q : Nat) : Nat := leafPlace (s.moments g) (s.bloc g) q (s.regionBase g)

/-- The member offset of parity leaf p (R68). -/
def State.parityAddr (s : State) (g p : Nat) : Nat := s.regionBase g 4 + 4096 * p

/-- The local leaf of class c of block t (R32). -/
def State.valueLeaf (s : State) (g t c : Nat) : Nat := (1 + s.moments g) * t + c

/-- The local leaf of the ledger leaf of block t. -/
def State.ledgerLeaf (s : State) (g t : Nat) : Nat := (1 + s.moments g) * s.bloc g + t / 256

/-- The ledger entry's offset in member memory (R35). -/
def State.ledgerAddr (s : State) (g t : Nat) : Nat := s.regionBase g 3 + 4096 * (t / 256) + 16 * (t % 256)

/-- The value in lane i of a byte-plane leaf (R34). -/
def planeValue (leaf : List Byte) (i : Nat) : F32 :=
  BitVec.ofNat 32 (leNat ((List.range 4).map fun b => leaf.getD (1024 * b + i) 0))

/-- The 1,024 values of a byte-plane leaf. -/
def planeValues (leaf : List Byte) : List F32 := (List.range 1024).map (planeValue leaf)

/-- A byte-plane leaf of 1,024 values. -/
def planeLeaf (v : List F32) : List Byte :=
  (List.range 4).flatMap fun b => (List.range 1024).map fun i => BitVec.ofNat 8 ((v.getD i 0).toNat / 2 ^ (8 * b))

/-- A ledger entry's fields (R35). -/
structure Ledger where
  ring : Nat
  steps : Nat
  lanes : Nat
  lag : Bool
  deriving DecidableEq, Repr

/-- The entry that 16 bytes spell. -/
def Ledger.ofBytes (l : List Byte) : Ledger :=
  ⟨leAt l 0 8, leAt l 8 4, bitsOf (leAt l 12 4) 0 10, bitAt (leAt l 12 4) 10⟩

/-- The 16 bytes of an entry. -/
def Ledger.bytes (l : Ledger) : List Byte :=
  leBytes 8 l.ring ++ leBytes 4 l.steps ++ leBytes 4 (l.lanes % 1024 + (if l.lag then 1024 else 0))

/-- The ledger entry of block t. -/
def State.ledger (s : State) (g t : Nat) : Ledger := Ledger.ofBytes (s.readBytes (s.ledgerAddr g t) 16)

/-- A virtual data position: its local leaf index is not below its member's D (R69). -/
def State.isVirtual (s : State) (g : Nat) (slot row : Nat) : Bool :=
  s.leavesOfSlot g slot ≤ (s.code g).leafOfRow slot row

/-- The number of this member's parity leaves (R68). -/
def State.parityLeaves (s : State) (g : Nat) : Nat := (s.code g).m * (s.code g).groups

/-- The bytes of the leaf that this member holds in a row: its data leaf (virtual: zeros) or its parity leaf. -/
def State.ownLeaf (s : State) (g row : Nat) : List Byte :=
  let c := s.code g
  match c.parityIndex row c.slot with
  | some j => s.readBytes (s.parityAddr g (c.parityLeaf row j)) 4096
  | none => if s.isVirtual g c.slot row then zeros 4096 else s.readBytes (s.leafAddr g (c.leafOfRow c.slot row)) 4096

/-- Dmax of the grove of member i among `sz` members under an n (R40). -/
def State.dmaxOf (s : State) (g sz i n : Nat) : Nat :=
  ((List.range n).map fun x => s.leavesOfMember g sz (i / n * n + x)).foldl max 0

/-- The units from `a` on, `n` of them, against units from `b` on, `k` of them. -/
def overlaps (a n b k : Nat) : Bool := 0 < n && 0 < k && a < b + k && b < a + n

end Sys2Proof.Machine
end

