-- ==== Sys2Proof/Machine/Peek.lean ====
section
/-! DEFINITION. What a register read returns, with no read side effect (R10): the held value, with the fields that follow
live state computed from it. -/
namespace Sys2Proof.Machine

/-! ## The recorder's window (R388, R395) -/

/-- The 28 bytes of a record before its CRC (R388). -/
def Record.body (r : Record) : List Byte :=
  leBytes 4 r.seq ++ [BitVec.ofNat 8 (r.sev % 4 + 4 * (r.source % 32) + (if r.fw then 128 else 0))] ++
  [BitVec.ofNat 8 (match r.glade with
    | some g => g % 16 + 16
    | none => 0)] ++
  leBytes 2 r.code ++ leBytes 6 r.time ++ leBytes 2 r.reps ++ leBytes 2 r.lost ++
  leBytes 1 r.unit ++ [0] ++ leBytes 3 r.reg ++ leBytes 1 (r.bit % 64) ++ leBytes 4 r.detail

/-- The 32 bytes of a record (R388). -/
def Record.bytes (r : Record) : List Byte := r.body ++ leBytes 4 (crc32c r.body)

/-- SEQ of the oldest held record: NEXTSEQ while none is held (R399). -/
def State.oldestSeq (s : State) : Nat := (s.evr.store.head?.map (·.seq)).getD s.evr.nextSeq

/-- The distance of a sequence number from OLDEST, modulo 2³² (R392). -/
def State.seqDist (s : State) (q : Nat) : Nat := (q + 2 ^ 32 - s.oldestSeq) % 2 ^ 32

/-- The held record that a cursor shows (R395). -/
def State.shownAt (s : State) (c : Nat) : Option Record :=
  if s.seqDist c ≤ s.seqDist s.evr.nextSeq then s.evr.store.find? fun r => s.seqDist c ≤ s.seqDist r.seq
  else s.evr.store.head?

/-- The record that the window shows. -/
def State.shown (s : State) : Option Record := s.shownAt (s.rd R.EVR_CUR F.EVR_CUR_SEQ)

/-- Bytes 8w to 8w + 7 of a record. -/
def Record.word (r : Option Record) (w : Nat) : Word :=
  match r with
  | some r => BitVec.ofNat 64 (leAt r.bytes (8 * w) 8)
  | none => 0

/-! ## Values that follow live state -/

/-- Sets several fields of a word. -/
def putAll (w : Word) (l : List (Fld × Nat)) : Word := l.foldl (fun w f => fput w f.1 f.2) w

/-- 1 for true. -/
def bit (b : Bool) : Nat := if b then 1 else 0

/-- Whether Ranger is halted (R407). (DEDUCED, assumption 15.) -/
def State.rangerHalted (s : State) : Bool := 2 ≤ s.rd R.RGR_DSTAT F.RGR_DSTAT_STATE

/-- The fabric profile in force (R154): test, then recovery, then start-up, then normal. -/
def State.profile (s : State) : Nat :=
  if s.on R.TST_STATUS F.TST_STATUS_BUSY || s.on R.TST_LTEST F.TST_LTEST_BUSY then 2
  else if !s.router.recovering.isEmpty then 3
  else if s.router.startup then 1
  else 0

/-- The budget set in force: BSET of the selected glade's matched entry, or its DFLSET (R62). -/
def State.budgetSet (s : State) : Nat :=
  let g := s.rd R.PHS_SEL F.PHS_SEL_GLADE
  if s.on (R.PHS_GSTAT g) F.PHS_GSTAT_NOMATCH then s.rd (R.PHS_GSEG g) F.PHS_GSEG_DFLSET
  else s.rd (R.PHS_TBL (s.rd (R.PHS_GSTAT g) F.PHS_GSTAT_ENTRY)) F.PHS_TBL_BSET

/-- Whether a router port is up (R272). -/
def State.portUp (s : State) (x : Nat) : Bool :=
  if x < 32 then
    let st := s.rd (R.LNK_STATUS x) F.LNK_STATUS_STATE
    (st == 2 || st == 3) && !s.on (R.LNK_STATUS x) F.LNK_STATUS_SILENT
  else s.mainUp

/-- Extent d of the torus (R273). -/
def State.extent (s : State) (d : Nat) : Nat := bitsOf (s.reg R.RTR_SHAPE).toNat (8 * d) 7 + 1

/-- Coordinate d of a PNID (R273). -/
def State.coord (s : State) (pnid d : Nat) : Nat :=
  match d with
  | 0 => pnid % s.extent 0
  | 1 => pnid / s.extent 0 % s.extent 1
  | 2 => pnid / (s.extent 0 * s.extent 1) % s.extent 2
  | _ => pnid / (s.extent 0 * s.extent 1 * s.extent 2) % s.extent 3

/-- The SEAL epoch in use (R334). -/
def State.sealEpoch (s : State) : Nat := s.rd R.SEC_SEAL F.SEC_SEAL_EPOCH

/-- The pool of SRAM frames of a tile: retired frames count against the shared pool (R301). -/
def State.framesOf (s : State) (t : Nat) : List Frame4K := s.frames.filter (·.tile == t)

/-- PFRAMES as R304 takes it. -/
def State.pframes (s : State) (t : Nat) : Nat := (s.tl t).pframes

/-- The frames of a tile that hold parity leaves. -/
def State.parityFrames (s : State) (t : Nat) : List Frame4K := (s.framesOf t).filter fun f => f.region == 4 || f.region == 10

/-- The eight bytes of tile SRAM that TST_SRADDR names (R415): zero after the initialisation (R305), and a free value once the tile
has worked, since no rule says which word holds what (DESIGN CHOICE, assumption 2). A disabled tile reads as zero (R2). -/
def State.sramQuarter (s : State) : Word :=
  let t := s.rd R.TST_SRADDR F.TST_SRADDR_TILE
  if (s.tl t).used && !s.tileDisabled t then s.freeVal else 0

/-- Whether tile SRAM readout is open (R338). -/
def State.sramOpen (s : State) : Bool :=
  let l := s.lcs
  l == 0 || l == 1 || l == 4 || (l == 3 && s.on R.SEC_STATUS F.SEC_STATUS_UNLOCK)

/-- Whether Ranger halt, step and local-memory access are open (R338). -/
def State.haltOpen (s : State) : Bool :=
  let l := s.lcs
  l == 0 || l == 1 || l == 2 || l == 4 || (l == 3 && s.on R.SEC_STATUS F.SEC_STATUS_UNLOCK)

/-- The signature that TST_SIG shows (R415), or the lane results of a link group after a lane test (R418). -/
def State.sigWord (s : State) : Word :=
  let x := s.rd R.TST_CTL F.TST_CTL_SIGSEL
  if s.test.laneView then
    BitVec.ofNat 64 (leNat ((List.range 4).map fun i =>
      if 65 ≤ x ∧ x ≤ 72 then s.test.laneFails.getD (4 * (x - 65) + i) 0 else 0))
  else sget (fun _ => 0) s.test.sigs x

/-- The grove locks that Ranger holds (R405): from an agreement's START until DEC is applied, and while it activates a
*stand-in*. -/
def State.locks (s : State) : Nat :=
  maskOf ((List.range 16).map fun g => (s.gl g).agreement.isSome || !(s.gl g).serving.isEmpty)

/-- The recorder's fields that follow its store and queue (R399). -/
def State.liveEvr (s : State) (a : Nat) (w : Word) : Word :=
  if a = R.EVR_STATUS then
    putAll w [(F.EVR_STATUS_HELD, s.evr.store.length), (F.EVR_STATUS_QFILL, s.evr.queue.length)]
  else if a = R.EVR_NEXT then
    putAll w [(F.EVR_NEXT_NEXTSEQ, s.evr.nextSeq), (F.EVR_NEXT_OLDEST, s.oldestSeq)]
  else if a = R.EVR_CUR then putAll w [(F.EVR_CUR_EMPTY, bit s.shown.isNone)]
  else if R.EVR_WIN 0 ≤ a ∧ a ≤ R.EVR_WIN 3 then Record.word s.shown ((a - R.EVR_WIN 0) / 8)
  else w

/-- The other AO fields that follow live state. (DESIGN CHOICE, assumption 58.) -/
def State.liveAo (s : State) (a : Nat) (w : Word) : Word :=
  if a = R.GLB_RSTCAUSE then
    match s.ao.assertedAt with
    | some t => putAll w [(F.GLB_RSTCAUSE_HELDMS, min ((s.now - t) / 1000) 0xFFFFFFFF)]
    | none => w
  else if a = R.GLB_STORM then
    match s.ao.holdUntil with
    | some t => putAll w [(F.GLB_STORM_HOLDLEFT, (t - s.now) / 1000)]
    | none => w
  else if a = R.MGB_STATUS then putAll w [(F.MGB_STATUS_QFILL, s.bus.notices.length)]
  else if a = R.NVM_REC then
    putAll w [(F.NVM_REC_FREE, if s.nvm.bankValid then 4095 - s.nvm.writePtr else 0)]
  else if a = R.TST_SIG then (if s.mainUp then s.sigWord else 0)
  else if a = R.TST_SRDATA then (if s.mainUp && s.sramOpen then s.sramQuarter else 0)
  else if R.TST_SITE 0 ≤ a ∧ a ≤ R.TST_SITE 7 then (if s.mainUp then w else 0)
  else if 0x300000 ≤ a ∧ a < 0x340000 then s.liveEvr a w
  else w

/-- The output of tile t's generator for its test counter and key (R116, R130). (DEDUCED, assumption 54.) -/
def State.rngOut (s : State) (t : Nat) : Nat :=
  let r := fun w => (s.reg (R.TIL_RNGIN t w)).toNat
  gen (r 0 + 2 ^ 64 * r 1) (r 2 + 2 ^ 64 * r 3)

/-- The MAIN fields that follow live state. A read of a generator output that is not ready is answered once it is (R116), so the
peek alias shows the output to come (R10). (DESIGN CHOICE, assumption 58.) -/
def State.liveMain (s : State) (a : Nat) (w : Word) : Word :=
  if a = R.PHS_STATUS then
    let g := s.rd R.PHS_SEL F.PHS_SEL_GLADE
    BitVec.ofNat 64 ((s.reg (R.PHS_GSTAT g)).toNat % 2 ^ 24 + 2 ^ 24 * g)
  else if a = R.GRV_FENCE then putAll w [(F.GRV_FENCE_PIN, bit s.ao.firebreak)]
  else if a = R.CQ_STATUS then putAll w [(F.CQ_STATUS_PROFILE, s.profile)]
  else if a = R.BGT_CTL then putAll w [(F.BGT_CTL_SET, s.budgetSet)]
  else if a = R.MPT_TOP then BitVec.ofNat 64 (s.memTop % 2 ^ 32)
  else if a = R.RTR_SELF then
    putAll w [(F.RTR_SELF_C0, s.coord s.pnid 0), (F.RTR_SELF_C1, s.coord s.pnid 1),
      (F.RTR_SELF_C2, s.coord s.pnid 2), (F.RTR_SELF_C3, s.coord s.pnid 3)]
  else if a = R.RTR_PORTUP then
    BitVec.ofNat 64 (maskOf ((List.range 44).map s.portUp))
  else if a = R.RTR_MAPDATA then
    let e := s.mapEntry (s.rd R.RTR_MAPADDR F.RTR_MAPADDR_INDEX)
    BitVec.ofNat 64 (e.pnid % 2 ^ 16 + 2 ^ 16 * bit e.valid)
  else if R.STP_VREC 0 ≤ a ∧ a ≤ R.STP_VREC 3 then
    BitVec.ofNat 64 (leAt (s.gl (s.rd R.STP_VSEL F.STP_VSEL_GLADE)).verdict (a - R.STP_VREC 0) 8)
  else if a = R.SEC_SEAL then putAll w [(F.SEC_SEAL_COUNTHI, s.sec.sealCount / 2 ^ 16)]
  else if a = R.SEC_CHAL then BitVec.ofNat 64 (s.sealEpoch * 2 ^ 40 + s.sec.chalCount % 2 ^ 40)
  else if R.SEC_KSLOT 0 ≤ a ∧ a ≤ R.SEC_KSLOT 31 then
    let k := s.ks ((a - R.SEC_KSLOT 0) / 8)
    match k.cur with
    | some c => putAll 0 [(F.SEC_KSLOT_KGEN, c.kgen), (F.SEC_KSLOT_VALID, 1), (F.SEC_KSLOT_KPH, bit c.phase),
        (F.SEC_KSLOT_NEXT, bit k.next.isSome), (F.SEC_KSLOT_PREV, bit k.prev.isSome)]
    | none => 0
  else if R.SEC_KSTRM 0 ≤ a ∧ a ≤ R.SEC_KSTRM 15 then
    putAll 0 [(F.SEC_KSTRM_STREAM, (s.ks (16 + (a - R.SEC_KSTRM 0) / 8)).stream)]
  else if a = R.RGR_DSTAT then putAll w [(F.RGR_DSTAT_LOCKS, s.locks)]
  else if a = R.RGR_DDATA then
    (if s.rangerHalted then sget (fun _ => 0) s.rangerMem (s.rd R.RGR_DADDR F.RGR_DADDR_ADDR) else 0)
  else if 0x1C0000 ≤ a ∧ a < 0x1C0800 ∧ a % 0x100 = 0x20 then
    let q := (a - 0x1C0000) / 0x100
    let p := s.pt q
    putAll w [(F.MPT_WWPEND_RANGES, p.ranges.length),
      (F.MPT_WWPEND_UNITS, p.singles.length + (p.ranges.map fun r => r.2 + 1 - r.1).sum)]
  else if 0x180000 ≤ a ∧ a < 0x1A0000 ∧ a % 0x1000 = 0x20 then
    match (s.lk ((a - 0x180000) / 0x1000)).trimmedAt with
    | some t => putAll w [(F.LNK_TRIM_AGE, min ((s.now - t) / 1000) 0xFFFFFFFF)]
    | none => w
  else if 0x100000 ≤ a ∧ a < 0x140000 ∧ a % 0x1000 = 0 then
    putAll w [(F.TIL_STATUS_BUSY, bit !(s.tl ((a - 0x100000) / 0x1000)).contexts.isEmpty)]
  else if 0x100000 ≤ a ∧ a < 0x140000 ∧ a % 0x1000 = R.TIL_CTX 0 % 0x1000 then
    putAll w [(F.TIL_CTX_INUSE, (s.tl ((a - 0x100000) / 0x1000)).contexts.length)]
  else if 0x100000 ≤ a ∧ a < 0x140000 ∧ a % 0x1000 = R.TIL_RNGOUT0 0 % 0x1000 then
    let t := (a - 0x100000) / 0x1000
    (if (s.tl t).rngPending then BitVec.ofNat 64 (s.rngOut t) else w)
  else if 0x100000 ≤ a ∧ a < 0x140000 ∧ a % 0x1000 = R.TIL_RNGOUT1 0 % 0x1000 then
    let t := (a - 0x100000) / 0x1000
    (if (s.tl t).rngPending then BitVec.ofNat 64 (s.rngOut t / 2 ^ 64) else w)
  else if 0x100000 ≤ a ∧ a < 0x140000 ∧ a % 0x1000 = R.TIL_SRAMSTAT 0 % 0x1000 then
    let t := (a - 0x100000) / 0x1000
    let shared := (s.framesOf t).length - (s.parityFrames t).length
    putAll w [(F.TIL_SRAMSTAT_FREE, 256 - 32 - s.pframes t - fget w F.TIL_SRAMSTAT_RETFR - shared),
      (F.TIL_SRAMSTAT_DIRTY, ((s.framesOf t).filter (·.dirty != 0)).length)]
  else w

/-- The partition of R408 that an address's register block belongs to, if it is one under test. -/
def partitionOf (a : Nat) : Option Nat :=
  if 0x100000 ≤ a ∧ a < 0x140000 then some ((a - 0x100000) / 0x1000)
  else if 0x140000 ≤ a ∧ a < 0x180000 then some 64
  else if 0x180000 ≤ a ∧ a < 0x1C0000 then some (65 + (a - 0x180000) / 0x4000)
  else if 0x1C0000 ≤ a ∧ a < 0x200000 then some 73
  else if 0x010000 ≤ a ∧ a < 0x100000 then some 74
  else if 0x200000 ≤ a ∧ a < 0x201000 then some 75
  else if 0x240000 ≤ a ∧ a < 0x280000 then some 76
  else none

/-- Whether the block at an address answers: an AO block always; a MAIN block while MAIN runs and its partition is not
under test (R15, R411). -/
def State.answers (s : State) (a : Nat) : Bool :=
  isAoAddr a ||
  (s.mainUp && match partitionOf a with
    | some x => !s.test.running.contains x
    | none => true)

/-- The tile whose register block holds an address. -/
def tileOfAddr (a : Nat) : Option Nat :=
  if 0x100000 ≤ a ∧ a < 0x140000 then some ((a - 0x100000) / 0x1000) else none

/-- Whether an address names the register block of a disabled tile (R2). -/
def State.deadTile (s : State) (a : Nat) : Bool :=
  match tileOfAddr a with
  | some t => s.tileDisabled t
  | none => false

/-- The bits of a register that a write of ones never shows: its WO fields read as zero (R7) and so do its reserved
fields (R9). -/
def readMask (a : Nat) : Word :=
  (fieldsAt a).foldl (fun m f => match f.acc with
    | .wo => m
    | .rsv => m
    | _ => m ||| fmask ⟨f.lo, f.width⟩) 0

/-- What a read of a register below the peek alias returns, with every side effect suppressed: `none` for an error response
(R6, R15). -/
def State.peek (s : State) (a : Nat) : Option Word :=
  if a % 8 != 0 || !isReg a || !s.answers a then none
  else if s.deadTile a then some 0
  else if a = R.RGR_DDATA && !(s.rangerHalted && s.haltOpen) then none
  else if a = R.TST_SRDATA && !s.sramOpen then none
  else
    let w := s.reg a &&& readMask a
    some (if isAoAddr a then s.liveAo a w else s.liveMain a w)

/-- The value alone: zero where the read gets an error response. -/
def State.peekVal (s : State) (a : Nat) : Word := (s.peek a).getD 0

end Sys2Proof.Machine
end

