-- ==== Sys2Proof/Machine/Waypoint.lean ====
section
/-! DEFINITION. The rows ARM, TRIG, WAYPOINT_IN, WAYPOINT_MESSAGE, WAYPOINT_CAPTURE and WAYPOINT_OUT_END: waypoint triggers,
their messages and the capture (R400 to R404). -/
namespace Sys2Proof.Machine

/-- Applies a change to the AO domain's state while AO_RST_N is released (R344). (DESIGN CHOICE, assumption 10.) -/
def State.inAo (s : State) (f : State → State) : State := if s.ao.aoReset then s else f s

/-- Applies a change that only a running MAIN domain makes (R13). (DESIGN CHOICE, assumption 10.) -/
def State.inMain (s : State) (f : State → State) : State := if s.mainUp then f s else s

/-- Answers an access: the data, or an error response with zero data (R6, R425). -/
def State.respond (s : State) (r : Option Word) : State :=
  { s with ao := { s.ao with rspData := r.getD 0, rspErr := r.isNone } }

/-- The current phase of glade g (R48). -/
def State.phase (s : State) (g : Nat) : Nat := s.rd (R.PHS_GSTAT g) F.PHS_GSTAT_PHASE

/-- The waypoint glade (R404). -/
def State.wptGlade (s : State) : Nat := s.rd R.WPT_CTL F.WPT_CTL_GLADE

/-- ARM = 1 and TAKEN = 0. -/
def State.wptReady (s : State) : Bool := s.on R.WPT_CTL F.WPT_CTL_ARM && !s.on R.WPT_STAT F.WPT_STAT_TAKEN

/-- A trigger whose instant has come waits for the capture cycle: of the triggers of one cycle the lowest CAUSE counts
(R401). -/
def State.wptDue (s : State) (cause origin : Nat) (late : Bool) : State :=
  match s.waypoint with
  | some p =>
    if p.due && p.cause ≤ cause then s
    else { s with waypoint := some ⟨true, p.ring, p.phase, cause, origin, late⟩ }
  | none => { s with waypoint := some ⟨true, 0, 0, cause, origin, late⟩ }

/-- A trigger that waits for phase `phase` of ring `ring` (R403); a trigger that waits already stays. -/
def State.wptWait (s : State) (ring phase cause origin : Nat) : State :=
  match s.waypoint with
  | some _ => s
  | none => { s with waypoint := some ⟨false, ring, phase, cause, origin, false⟩ }

/-- The receivers of a waypoint message: the grove under SCOPE 1, every member under SCOPE 2 and 3 (R402). -/
def State.wptReceivers (s : State) (g : Nat) : List Nat :=
  if s.rd R.WPT_CTL F.WPT_CTL_SCOPE = 1 then s.grovePeers g else s.otherMembers g

/-- A waypoint trigger other than a message, of the given CAUSE (R401 to R403). -/
def State.wptTrigger (s : State) (cause : Nat) : State :=
  if s.on R.WPT_STAT F.WPT_STAT_TAKEN then s.inc R.WPT_STAT F.WPT_STAT_MISSED
  else if !s.on R.WPT_CTL F.WPT_CTL_ARM then s
  else if s.rd R.WPT_CTL F.WPT_CTL_SCOPE = 0 || !s.mainUp then s.wptDue cause s.pnid false
  else
    let g := s.wptGlade
    let t := s.openRing g + 1
    let ph := s.rd R.WPT_CTL F.WPT_CTL_GPHASE
    let s := s.toMembers g (s.wptReceivers g) "WAYPOINT" [g, s.pnid, t, ph]
    if ph = 0xFFFF then s.wptDue cause s.pnid false else s.wptWait t ph cause s.pnid

/-- A trigger from an enabled source: SRCEN bit `b` (R401). -/
def State.wptSource (s : State) (b cause : Nat) : State :=
  if bitAt (s.rd R.WPT_CTL F.WPT_CTL_SRCEN) b then s.wptTrigger cause else s

/-- A waiting capture whose target ring and phase have come, or whose ring has committed, becomes due (R403). -/
def State.wptPoll (s : State) : State :=
  match s.waypoint with
  | none => s
  | some p =>
    if p.due then s
    else
      let g := s.wptGlade
      if s.openRing g > p.ring then { s with waypoint := some { p with due := true, late := true } }
      else if s.openRing g = p.ring ∧ p.phase ≤ s.phase g then { s with waypoint := some { p with due := true } }
      else s

/-- The register addresses of the slots that capture: slot and address (R400). -/
def State.wptSlots (s : State) : List (Nat × Nat) :=
  (s.regs.filter fun c => R.WPT_MAP 0 ≤ c.1 && c.1 ≤ R.WPT_MAP 2047 && c.1 % 8 == 0 && fget c.2 F.WPT_MAP_VALID == 1).map
    fun c => ((c.1 - R.WPT_MAP 0) / 8, 8 * fget c.2 F.WPT_MAP_ADDR)

/-- The capture cycle (R400, R401): every slot takes its register's value as the peek alias reads it, a slot that does not
capture reads zero, and the status is set. -/
def State.wptCapture (s : State) (p : WaypointPending) : State :=
  let g := s.wptGlade
  let slots := s.wptSlots
  let off := !s.mainUp && slots.any fun x => isReg x.2 && !isAoAddr x.2
  let blank := { s with regs := s.regs.filter fun c => !(R.WPT_SNAP 0 ≤ c.1 && c.1 ≤ R.WPT_SNAP 2047) }
  let t := blank.each slots fun t x => t.setReg (R.WPT_SNAP x.1) (s.peekVal x.2)
  let t := (((t.wr R.WPT_STAT F.WPT_STAT_TAKEN 1).wr R.WPT_STAT F.WPT_STAT_CAUSE p.cause).flag
    R.WPT_STAT F.WPT_STAT_LATE p.late).flag R.WPT_STAT F.WPT_STAT_MAINOFF off
  let t := (t.wr R.WPT_STAT F.WPT_STAT_PHASE (s.phase g)).wr R.WPT_STAT F.WPT_STAT_ORIGIN p.origin
  let t := (t.setReg R.WPT_RING (BitVec.ofNat 64 (s.openRing g))).setReg R.WPT_TIME (BitVec.ofNat 64 s.now)
  let t := { t with waypoint := none, ao := { t.ao with waypointOut := true } }
  t.record (((ev Sev.note Src.wpt 0).field R.WPT_STAT F.WPT_STAT_TAKEN).about
    (if p.cause = 5 then p.origin else 0))

/-- A write of WPT_CTL (R401, R403, R404): the RW fields take their values; ARM = 1 clears the status; ARM = 0 cancels a
capture that waits; TRIG is a trigger under the new settings. -/
def State.writeWptCtl (s : State) (v : Word) : State :=
  let s := s.setReg R.WPT_CTL (v &&& readMask R.WPT_CTL)
  let s :=
    if s.on R.WPT_CTL F.WPT_CTL_ARM then
      s.setReg R.WPT_STAT (putAll (s.reg R.WPT_STAT) [(F.WPT_STAT_TAKEN, 0), (F.WPT_STAT_LATE, 0),
        (F.WPT_STAT_MAINOFF, 0), (F.WPT_STAT_CAUSE, 0)])
    else { s with waypoint := none }
  if fget v F.WPT_CTL_TRIG = 1 then s.wptTrigger 1 else s

/-- A write of WPT_MAP[x]: ignored and recorded while a capture is pending (R400, R452). -/
def State.writeWptMap (s : State) (a : Nat) (v : Word) : State :=
  let w := v &&& readMask a
  if w = s.reg a then s
  else if s.wptReady then
    s.record ((ev Sev.warn Src.wpt 0).field a
      (if fget w F.WPT_MAP_VALID = fget (s.reg a) F.WPT_MAP_VALID then F.WPT_MAP_ADDR else F.WPT_MAP_VALID))
  else s.setReg a w

/-- ARM: a write of WPT_CTL with ARM = 1 (R401). -/
def execArm (value : Word) (s : State) : Host.Outcome State Fault Refusal :=
  .next (s.inAo fun s => s.writeWptCtl (value ||| 1))

/-- TRIG: a write of TRIG with the other fields unchanged (R401). -/
def execTrig (s : State) : Host.Outcome State Fault Refusal :=
  .next (s.inAo fun s => s.wptTrigger 1)

/-- WAYPOINT_IN: a rising edge on the pin (R401, R424). -/
def execWaypointIn (s : State) : Host.Outcome State Fault Refusal :=
  .next (s.inAo fun s => s.wptSource 1 2)

/-- WAYPOINT_MESSAGE: a receiver that is armed for the message's glade captures on receipt or at the target (R403). -/
def execWaypointMessage (g : GladeId) (origin target : Nat) (gphase : BitVec 16) (s : State) :
    Host.Outcome State Fault Refusal :=
  .next (s.inMain fun s =>
    if s.wptGlade ≠ g.val ∨ bitAt (s.rd R.WPT_CTL F.WPT_CTL_SRCEN) 3 = false then s
    else if s.on R.WPT_STAT F.WPT_STAT_TAKEN then s.inc R.WPT_STAT F.WPT_STAT_MISSED
    else if !s.on R.WPT_CTL F.WPT_CTL_ARM then s
    else if gphase = 0xFFFF then s.wptDue 5 origin false
    else if s.openRing g.val > target ∨ s.openRing g.val = target ∧ gphase.toNat ≤ s.phase g.val then
      s.wptDue 5 origin true
    else s.wptWait target gphase.toNat 5 origin)

/-- WAYPOINT_CAPTURE: the capture cycle of a trigger that is due (R400). -/
def execWaypointCapture (s : State) : Host.Outcome State Fault Refusal :=
  .next (s.inAo fun s => match s.waypoint with
    | some p => if p.due && s.wptReady then s.wptCapture p else s
    | none => s)

/-- WAYPOINT_OUT_END: the output returns low 1 µs after the capture (R401). -/
def execWaypointOutEnd (s : State) : Host.Outcome State Fault Refusal :=
  .next (s.inAo fun s => { s with ao := { s.ao with waypointOut := false } })

end Sys2Proof.Machine
end

