-- ==== Sys2Proof/Machine/Recorder.lean ====
section
/-! DEFINITION. The rows RECORD_QUEUE, RECORD_STORE, WINDOW_READ, WINDOW_ADVANCE and CURSOR_WRITE: the recorder's arbiter,
its store, the cursor window, last words and notices (R380, R381, R390 to R399). -/
namespace Sys2Proof.Machine

/-! ## Notices (R380, R381) -/

/-- Whether a notice of Fault or Fatal severity. -/
def Notice.high (n : Notice) : Bool := Sev.fault ≤ n.sev

/-- Drops the first element that satisfies a condition. -/
def dropFirst {α : Type} (p : α → Bool) : List α → List α
  | [] => []
  | a :: r => if p a then r else a :: dropFirst p r

/-- Queues a notice (R381): 8 of the 32 entries are kept for Fault and Fatal; a notice that finds its part full replaces
the oldest queued notice of lower severity, and is dropped when there is none. NSEQ counts every notice. (DEDUCED, assumption 44.) -/
def State.notice (s : State) (kind sev : Nat) (body : List Byte) : State :=
  let n : Notice := ⟨kind, sev, s.rd R.MGB_NOTE F.MGB_NOTE_NSEQ, body, s.now⟩
  let s := s.wr R.MGB_NOTE F.MGB_NOTE_NSEQ (n.nseq + 1)
  let drop := fun s : State => State.inc { s with bus := { s.bus with lost := min (s.bus.lost + 1) 0xFFFF } }
    R.MGB_CNT F.MGB_CNT_DROPPED
  let q := s.bus.notices
  let hi := (q.filter Notice.high).length
  let lo := q.length - hi
  let room := if n.high then q.length < 32 else lo + (hi - 8) < 24
  if !s.on R.MGB_CTL F.MGB_CTL_NOTEEN then drop s
  else if room then { s with bus := { s.bus with notices := q ++ [n] } }
  else if q.any (·.sev < sev) then
    drop { s with bus := { s.bus with notices := dropFirst (·.sev < sev) q ++ [n] } }
  else drop s

/-! ## Last words (R396, R397) -/

/-- The payload of a LASTWORDS entry (R396). -/
def Record.lastWords (r : Record) : List Byte :=
  slice r.bytes 0 8 ++ slice r.bytes 8 6 ++ [BitVec.ofNat 8 r.unit, 0] ++ leBytes 4 r.detail

/-- A stored Fatal record is queued for the record area ahead of every waiting entry, unless last words are off or the last
LASTWORDS write lies less than 10 s back. -/
def State.lastWords (s : State) (r : Record) : State :=
  if r.sev ≠ Sev.fatal ∨ !s.on R.EVR_CTL F.EVR_CTL_LWEN then s
  else
    let soon : Bool := match s.evr.lastWordsAt with
      | some t => decide (s.now < t + 10000000)
      | none => false
    if soon then s.inc R.EVR_OVW F.EVR_OVW_LWSKIP
    else { s with nvm := { s.nvm with recQueue := ⟨6, r.lastWords⟩ :: s.nvm.recQueue },
                  evr := { s.evr with lastWordsAt := some s.now } }

/-! ## The arbiter and the store -/

/-- The record that the arbiter takes next at a severity: round robin over the source instances (R391). (DEDUCED, assumption 11.) -/
def State.arbiterPick (s : State) (sev : Nat) : Option Record :=
  let l := s.evr.holding.filter (·.sev == sev)
  let key := fun r : Record => srcKey r.source r.unit + 1
  let last := s.evr.rr.getD sev 0
  let least := fun (l : List Record) => l.foldl (fun m r => match m with
    | some x => if key r < key x then some r else some x
    | none => some r) none
  match least (l.filter fun r => last < key r) with
  | some r => some r
  | none => least l

/-- Whether the ingress queue has an entry that a record may use (R391). -/
def State.queueRoom (s : State) (r : Record) : Bool :=
  if r.sev = Sev.fatal then s.evr.queue.length < 64
  else s.evr.queue.length < 64 && (s.evr.queue.filter (·.sev != Sev.fatal)).length < 48

/-- The record that the arbiter moves: Fatal first, then Fault, Warn and Note (R391). (DEDUCED, assumption 11.) -/
def State.arbiterNext (s : State) : Option Record :=
  [Sev.fatal, Sev.fault, Sev.warn, Sev.note].findSome? fun v =>
    match s.arbiterPick v with
    | some r => if s.queueRoom r then some r else none
    | none => none

/-- RECORD_QUEUE: the arbiter moves one record from its holding register into the ingress queue. -/
def State.moveRecord (s : State) : State :=
  match s.arbiterNext with
  | none => s
  | some r => { s with evr := { s.evr with
      holding := s.evr.holding.erase r,
      queue := s.evr.queue ++ [r],
      rr := s.evr.rr.set r.sev (srcKey r.source r.unit + 1) } }

/-- The lowest severity that the store holds. -/
def State.leastSev (s : State) : Nat := (s.evr.store.map (·.sev)).foldl min Sev.fatal

/-- What follows a stored record: its IRQ bit (R394), its notice (R380), last words (R396) and the waypoint trigger of its
severity (R401). -/
def State.afterStore (s : State) (r : Record) : State :=
  let s := if bitAt (s.rd R.EVR_CTL F.EVR_CTL_IRQEN) r.sev then s.setMask R.EVR_STATUS F.EVR_STATUS_IRQ r.sev else s
  let s := (s.notice 0 r.sev r.bytes).lastWords r
  if s.rd R.WPT_CTL F.WPT_CTL_SEV ≤ r.sev then s.wptSource 2 4 else s

/-- Puts a record at the end of the store with the next SEQ (R392). -/
def State.appendRecord (s : State) (r : Record) : State :=
  let r := { r with seq := s.evr.nextSeq, lost := s.evr.lostPending }
  let s := { s with evr := { s.evr with
    store := s.evr.store ++ [r], nextSeq := (s.evr.nextSeq + 1) % 2 ^ 32, lostPending := 0,
    newest := sset (fun _ => 0) s.evr.newest (srcKey r.source r.unit) (r.seq + 1) } }
  s.afterStore r

/-- RECORD_STORE: the store takes the head of the ingress queue. A full store gives up its oldest record of the lowest
severity present, if that is no higher than the new record's; otherwise the new record is dropped (R392). -/
def State.storeRecord (s : State) : State :=
  match s.evr.queue with
  | [] => s
  | r :: rest =>
    let s := { s with evr := { s.evr with queue := rest } }
    if s.evr.store.length < 8192 then s.appendRecord r
    else
      let low := s.leastSev
      if low ≤ r.sev then
        let s := s.inc R.EVR_OVW F.EVR_OVW_OVW
        State.appendRecord { s with evr := { s.evr with store := dropFirst (·.sev == low) s.evr.store } } r
      else s.inc R.EVR_OVW F.EVR_OVW_DROPST

/-! ## The cursor window (R395) -/

/-- Latches the shown record when none is latched. -/
def State.latchShown (s : State) : State :=
  match s.evr.latch with
  | some _ => s
  | none => { s with evr := { s.evr with latch := s.shown } }

/-- A read of EVR_WIN[0] to [2] through the register port or the bus. -/
def State.readWin (s : State) (w : Nat) : State :=
  let s := if w = 0 then { s with evr := { s.evr with latch := s.shown } } else s.latchShown
  s.respond (some (Record.word s.evr.latch w))

/-- A read of EVR_WIN[3]: the latched record's last bytes, then the advance. -/
def State.readWin3 (s : State) : State :=
  let empty := s.shown.isNone
  let s := s.latchShown
  match s.evr.latch with
  | none => s.respond (some 0)
  | some r =>
    let c := s.rd R.EVR_CUR F.EVR_CUR_SEQ
    let t := s.respond (some (Record.word (some r) 3))
    if empty then t
    else
      let t := t.wr R.EVR_CUR F.EVR_CUR_SEQ ((r.seq + 1) % 2 ^ 32)
      State.add { t with evr := { t.evr with latch := none } } R.EVR_CUR F.EVR_CUR_SKIPPED
        ((r.seq + 2 ^ 32 - c) % 2 ^ 32)

/-- A write of EVR_CUR: the cursor moves and the latch drops. -/
def State.writeCursor (s : State) (v : Word) : State :=
  let s := s.wr R.EVR_CUR F.EVR_CUR_SEQ (fget v F.EVR_CUR_SEQ)
  { s with evr := { s.evr with latch := none } }

/-- RECORD_QUEUE (R391). -/
def execRecordQueue (s : State) : Host.Outcome State Fault Refusal := .next (s.inAo State.moveRecord)

/-- WINDOW_READ: a read of EVR_WIN[w] (R395). -/
def execWindowRead (w : Fin 3) (s : State) : Host.Outcome State Fault Refusal :=
  .next (s.inAo fun s => s.readWin w.val)

/-- WINDOW_ADVANCE: a read of EVR_WIN[3] (R395). -/
def execWindowAdvance (s : State) : Host.Outcome State Fault Refusal := .next (s.inAo State.readWin3)

/-- CURSOR_WRITE: a write of EVR_CUR (R395). -/
def execCursorWrite (value : Word) (s : State) : Host.Outcome State Fault Refusal :=
  .next (s.inAo fun s => s.writeCursor value)

end Sys2Proof.Machine
end

