-- ==== Sys2Proof/Machine/Phase.lean ====
section
/-! DEFINITION. The rows PHASE_STROBE, PHS_ADV, PHS_SEL_WRITE and PHASE_TABLE_WRITE: advancing the phase, matching the phase
table and what a window permits (R47 to R62). -/
namespace Sys2Proof.Machine

/-- Whether glade g holds (R48). -/
def State.hold (s : State) (g : Nat) : Bool := s.on (R.PHS_GSTAT g) F.PHS_GSTAT_HOLD

/-- Sets HOLD. -/
def State.setHold (s : State) (g : Nat) (b : Bool) : State := s.flag (R.PHS_GSTAT g) F.PHS_GSTAT_HOLD b

/-- The selected glade (R47). -/
def State.selected (s : State) : Nat := s.rd R.PHS_SEL F.PHS_SEL_GLADE

/-- Whether PHASE_HOLD is asserted: the HOLD of the selected glade (R48, R61). -/
def State.phaseHold (s : State) : Bool := s.hold s.selected

/-- Whether an entry matches a phase (R56). -/
def State.entryMatches (s : State) (e ph : Nat) : Bool :=
  let a := R.PHS_TBL e
  s.on a F.PHS_TBL_VALID && s.rd a F.PHS_TBL_START ≤ ph && ph ≤ s.rd a F.PHS_TBL_END

/-- The entries of glade g's segment (R55, R56). -/
def State.segment (s : State) (g : Nat) : List Nat :=
  let base := s.rd (R.PHS_GSEG g) F.PHS_GSEG_BASE
  let last := min (base + min 64 (s.rd (R.PHS_GSEG g) F.PHS_GSEG_COUNT)) 64
  (List.range last).filter (base ≤ ·)

/-- The first matching entry for glade g's phase (R56). -/
def State.matchEntry (s : State) (g : Nat) : Option Nat :=
  (s.segment g).find? fun e => s.entryMatches e (s.phase g)

/-- Redoes the matching of glade g (R56). A WAYPT entry fires when it becomes the matched entry, and again after a wrap
(R57). -/
def State.rematch (s : State) (g : Nat) (wrapped : Bool) : State :=
  let old := if s.on (R.PHS_GSTAT g) F.PHS_GSTAT_NOMATCH then none else some (s.rd (R.PHS_GSTAT g) F.PHS_GSTAT_ENTRY)
  let new := s.matchEntry g
  let s := (s.wr (R.PHS_GSTAT g) F.PHS_GSTAT_ENTRY (new.getD 0)).flag (R.PHS_GSTAT g) F.PHS_GSTAT_NOMATCH new.isNone
  match new with
  | none => s
  | some e =>
    if (wrapped || old != some e) && s.on (R.PHS_TBL e) F.PHS_TBL_WAYPT && s.wptGlade == g then s.wptSource 1 3 else s

/-- Sets the phase of glade g, matches again and serves a waiting waypoint (R50, R403). -/
def State.setPhase (s : State) (g v : Nat) (wrapped : Bool) : State :=
  ((s.wr (R.PHS_GSTAT g) F.PHS_GSTAT_PHASE v).rematch g wrapped).wptPoll

/-- Whether class c of glade g may start a unit (R58, R60). -/
def State.permits (s : State) (g c : Nat) : Bool :=
  let cls := if s.on (R.PHS_GSTAT g) F.PHS_GSTAT_NOMATCH then s.rd (R.PHS_GSEG g) F.PHS_GSEG_DFLCLS
    else s.rd (R.PHS_TBL (s.rd (R.PHS_GSTAT g) F.PHS_GSTAT_ENTRY)) F.PHS_TBL_CLASSES
  bitAt cls c || ((s.gl g).wrapPending && s.hold g && [0, 1, 3, 4].contains c)

/-- A wrap on glade g (R52 step 1, R53). The later steps of R52 are the rows RING_CLOSE_COMPLETION, RING_START_BARRIER and
RING_START_COMPLETION. -/
def State.wrap (s : State) (g : Nat) : State :=
  let s := s.setHold g true
  if s.ring g = 2 ^ 64 - 1 then
    (s.wr R.PHS_ERR F.PHS_ERR_RINGEND 1).record ((ev Sev.fault Src.phs g).field R.PHS_ERR F.PHS_ERR_RINGEND)
  else s.updGl g fun x => { x with wrapPending := true }

/-- One advance of the selected glade with value v (R50, R51). -/
def State.advance (s : State) (v : Nat) : State :=
  let g := s.selected
  let c := s.phase g
  if !s.active g then s.inc R.PHS_ERR F.PHS_ERR_IGN
  else if v = c then s
  else if s.hold g then
    let s := s.inc R.PHS_ERR F.PHS_ERR_IGN
    if v = 0 then s else s.record (((ev Sev.warn Src.phs g).field R.PHS_ERR F.PHS_ERR_IGN).about v)
  else if c < v then s.setPhase g v false
  else if v = 0 then s.wrap g
  else (s.inc R.PHS_ERR F.PHS_ERR_REGR).record (((ev Sev.warn Src.phs g).field R.PHS_ERR F.PHS_ERR_REGR).about v)

/-- A write of PHS_ADV: one advance when SRC = 1, otherwise ignored, counted and recorded (R49). The record of the ignored
register write names PHS_ADV (R388). -/
def State.writePhsAdv (s : State) (v : Word) : State :=
  let n := fget v F.PHS_ADV_VALUE
  if s.on R.PHS_CTL F.PHS_CTL_SRC then s.advance n
  else (s.inc R.PHS_ERR F.PHS_ERR_IGN).record
    (((ev Sev.warn Src.phs s.selected).field R.PHS_ADV F.PHS_ADV_VALUE).about n)

/-- A write of PHS_SEL (R61, R452). -/
def State.writePhsSel (s : State) (v : Word) : State :=
  let g := fget v F.PHS_SEL_GLADE
  if g = s.selected then s
  else if !s.active g then
    (s.wr R.PHS_ERR F.PHS_ERR_BADSEL 1).record ((ev Sev.warn Src.phs g).field R.PHS_ERR F.PHS_ERR_BADSEL)
  else (s.wr R.PHS_SEL F.PHS_SEL_GLADE g).rematch g false

/-- A write of PHS_TBL[e]: every glade whose segment holds the entry matches again (R56). -/
def State.writePhsTbl (s : State) (e : Nat) (v : Word) : State :=
  let s := s.setReg (R.PHS_TBL e) (v &&& readMask (R.PHS_TBL e))
  s.each ((List.range 16).filter fun g => (s.segment g).contains e) fun s g => s.rematch g false

/-- A write of PHS_GSEG[g]: the glade matches again (R56). -/
def State.writePhsGseg (s : State) (g : Nat) (v : Word) : State :=
  (s.setReg (R.PHS_GSEG g) (v &&& readMask (R.PHS_GSEG g))).rematch g false

/-- The phase context of a glade that is disabled or becomes active: phase 0, HOLD 1 (R53). -/
def State.resetPhase (s : State) (g : Nat) : State :=
  ((s.setHold g true).updGl g fun x => { x with wrapPending := false }).setPhase g 0 false

/-- PHASE_STROBE: a strobe on the port is one advance when SRC = 0, otherwise ignored and counted (R49, R50). -/
def execPhaseStrobe (value : BitVec 16) (s : State) : Host.Outcome State Fault Refusal :=
  .next (s.inMain fun s =>
    if s.on R.PHS_CTL F.PHS_CTL_SRC then s.inc R.PHS_ERR F.PHS_ERR_IGN else s.advance value.toNat)

/-- PHS_ADV: a write to PHS_ADV (R49). -/
def execPhsAdv (value : Word) (s : State) : Host.Outcome State Fault Refusal :=
  .next (s.inMain fun s => s.writePhsAdv value)

/-- PHS_SEL_WRITE: a write to PHS_SEL (R61). -/
def execPhsSelWrite (value : Word) (s : State) : Host.Outcome State Fault Refusal :=
  .next (s.inMain fun s => s.writePhsSel value)

/-- PHASE_TABLE_WRITE: a write to PHS_GSEG or PHS_TBL (R56). PHS_GSEG has 16 registers; a segment write with a higher index
names no register. -/
def execPhaseTableWrite (segment : Bool) (index : Fin 64) (value : Word) (s : State) :
    Host.Outcome State Fault Refusal :=
  .next (s.inMain fun s =>
    if segment then (if index.val < 16 then s.writePhsGseg index.val value else s)
    else s.writePhsTbl index.val value)

end Sys2Proof.Machine
end

