-- ==== Sys2Proof/Machine/Operands.lean ====
section
/-! DEFINITION. The operand forms: the registers and classes that a step-program instruction names (R96, R99), and register
writes by access code (R7), with the Warn record of an ignored write (R388, R452). -/
namespace Sys2Proof.Machine

/-! ## Step-program operands -/

/-- The value that an operand name holds: V0 to V15, then S0 to S15 (R96). -/
def LaneContext.operand (l : LaneContext) (a : Operand) : F32 :=
  if a.val < 16 then l.v.getD a.val 0 else l.s.getD (a.val - 16) 0

/-- Writes a vector register. -/
def LaneContext.setV (l : LaneContext) (d : Fin 16) (x : F32) : LaneContext := { l with v := l.v.set d.val x }

/-- The value of a class as staged before the apply; +0.0 in a padding lane (R96, R99). -/
def LaneContext.load (l : LaneContext) (cls : Fin 4) : F32 := if l.padding then 0 else l.staged.getD cls.val 0

/-- Stores the new value of a class; zero in a padding lane (R99). A non-finite value is counted (R118). -/
def LaneContext.store (l : LaneContext) (cls : Fin 3) (x : F32) : LaneContext :=
  let x := if l.padding then 0 else x
  { l with stored := l.stored.set cls.val (some x),
           nonfinite := if isFinite32 x then l.nonfinite else l.nonfinite + 1 }

/-- Raises exceptions. -/
def LaneContext.raise (l : LaneContext) (e : Exc) : LaneContext := { l with exc := l.exc ||| e }

/-- The result of a binary32 operation into a vector register, with its exceptions (R117). -/
def LaneContext.result (l : LaneContext) (d : Fin 16) (r : Nat × Exc) : LaneContext :=
  (l.setV d (BitVec.ofNat 32 r.1)).raise r.2

/-- The start of a pass: V0 to V15 are +0.0 and the accumulators are zero (R99). -/
def LaneContext.begin (l : LaneContext) : LaneContext :=
  { l with v := List.replicate 16 0, acc0 := 0, acc1 := 0, stored := List.replicate 3 none, ended := false }

/-! ## Register writes -/

/-- The bits of a register that a write sets to the written value: its RW fields (R7, R9). -/
def rwMask (a : Nat) : Word :=
  (fieldsAt a).foldl (fun m f => if f.acc = .rw then m ||| fmask ⟨f.lo, f.width⟩ else m) 0

/-- The W1C bits of a register. -/
def w1cMask (a : Nat) : Word :=
  (fieldsAt a).foldl (fun m f => if f.acc = .w1c then m ||| fmask ⟨f.lo, f.width⟩ else m) 0

/-- The W1S bits of a register. -/
def w1sMask (a : Nat) : Word :=
  (fieldsAt a).foldl (fun m f => if f.acc = .w1s then m ||| fmask ⟨f.lo, f.width⟩ else m) 0

/-- The RC bits of a register. (DEDUCED, assumption 59.) -/
def rcMask (a : Nat) : Word :=
  (fieldsAt a).foldl (fun m f => if f.acc = .rc then m ||| fmask ⟨f.lo, f.width⟩ else m) 0

/-- What a register holds after a write, by its access codes (R7): RW fields take the value, a 1 clears a W1C bit and sets
a W1S bit, and every other field keeps its value. -/
def writeByCode (a : Nat) (old v : Word) : Word :=
  (((old &&& ~~~(rwMask a)) ||| (v &&& rwMask a)) &&& ~~~(v &&& w1cMask a)) ||| (v &&& w1sMask a)

/-- What a register holds after a read: its RC fields are cleared (R7), each to its reset value, which is 0 but for SLKMIN
(R421). (DEDUCED, assumption 59.) -/
def readByCode (a : Nat) (old : Word) : Word := (old &&& ~~~(rcMask a)) ||| (resetWord a &&& rcMask a)

/-- A register write with no effect beyond its access codes (R7). -/
def State.plainWrite (s : State) (a : Nat) (v : Word) : State := s.setReg a (writeByCode a (s.reg a) v)

/-- The lowest bit of the first field that a write would change (R388). -/
def firstChanged (a : Nat) (old new : Word) : Nat :=
  (((fieldsAt a).find? fun f => fget old ⟨f.lo, f.width⟩ != fget new ⟨f.lo, f.width⟩).map (·.lo)).getD 63

/-- The Warn record of an ignored write (R388): the written register and the first field that it would have changed.
A record about a program slot or the program memory concerns no glade. -/
def State.warnWrite (s : State) (src unit a : Nat) (v : Word) : State :=
  let e := ev Sev.warn src unit
  s.record { e with reg := a, bit := firstChanged a (s.reg a) (writeByCode a (s.reg a) v),
                    glade := if 0x080800 ≤ a ∧ a < 0x0C0000 then none else e.glade }

/-- A write whose fields all follow one rule: while `closed` holds, a write that would change the register is ignored and
recorded; a write of the current value is nothing (R452). -/
def State.guardedWrite (s : State) (closed : Bool) (src unit a : Nat) (v : Word) : State :=
  if writeByCode a (s.reg a) v = s.reg a then s
  else if closed then s.warnWrite src unit a v
  else s.plainWrite a v

end Sys2Proof.Machine
end

