-- ==== Sys2Proof/Machine/Seal.lean ====
section
/-! DEFINITION. Keys and seal counts as the engines use them: derived keys (R326, R327), the generations of a slot (R331),
the SEAL epoch and the seal count (R333, R334), and the opening of sealed records. -/
namespace Sys2Proof.Machine

/-- The ASCII bytes of a label (R327). -/
def ascii (l : String) : List Byte := l.toList.map fun c => BitVec.ofNat 8 c.toNat

/-- The bytes of a 384-bit digest, first byte first. -/
def digestBytes (d : BitVec 384) : List Byte := beBytes 48 d.toNat

/-- The KDF of R326: counter mode, PRF HMAC-SHA-384, output of `bits` bits. -/
def kdf (key label ctx : List Byte) (bits : Nat) : List Byte :=
  let fixed := label ++ [0] ++ ctx ++ beBytes 4 bits
  ((List.range ((bits + 383) / 384)).flatMap fun i =>
    digestBytes (Config.hmacSha384 key (beBytes 4 (i + 1) ++ fixed))).take (bits / 8)

/-- A 256-bit key from 32 bytes, first byte most significant. -/
def keyOf (l : List Byte) : BitVec 256 := BitVec.ofNat 256 (beNat l)

/-- The 32 bytes of a key. -/
def keyBytes (k : BitVec 256) : List Byte := beBytes 32 k.toNat

/-- The link key of glade g under a master key (R327). -/
def linkKey (k : BitVec 256) (g : Nat) : BitVec 256 := keyOf (kdf (keyBytes k) (ascii "CZ64-LINK") (leBytes 1 g) 256)

/-- The Seedbank key of glade g under a master key (R327). -/
def seedKey (k : BitVec 256) (g : Nat) : BitVec 256 := keyOf (kdf (keyBytes k) (ascii "CZ64-SEED") (leBytes 1 g) 256)

/-- The stream key of a stream under a master key (R327). -/
def streamKey (k : BitVec 256) (stream : Nat) : BitVec 256 :=
  keyOf (kdf (keyBytes k) (ascii "CZ64-STREAM") (leBytes 4 stream) 256)

/-- The current generation of a slot (R331). -/
def State.keyCur (s : State) (x : Nat) : Option KeyGen := (s.ks x).cur

/-- The generations of a slot in the order in which a record tries them: current, PREV, NEXT (R335). -/
def State.keyGens (s : State) (x : Nat) : List KeyGen :=
  [(s.ks x).cur, (s.ks x).prev, (s.ks x).next].filterMap id

/-- The generation of a phase (R331). -/
def State.keyPhase (s : State) (x : Nat) (ph : Bool) : Option KeyGen := (s.keyGens x).find? (·.phase == ph)

/-- The slot that holds a stream, if one does (R328). -/
def State.streamSlot (s : State) (stream : Nat) : Option Nat :=
  (List.range' 16 16).find? fun x => (s.ks x).stream == stream && (s.ks x).cur.isSome

/-- Whether NOSEAL is 0, so that frames are sealed (R334). -/
def State.sealReady (s : State) : Bool := !s.on R.SEC_STATUS F.SEC_STATUS_NOSEAL

/-- The SEAL epoch advances: the new epoch waits for its record write, and NOSEAL is 1 until it is persisted. An epoch of
0xFF_FFFF is never used: the node then seals nothing and writes a Fault record (R334). -/
def State.advanceEpoch (s : State) : State :=
  let e := s.sealEpoch + 1
  let s := s.wr R.SEC_STATUS F.SEC_STATUS_NOSEAL 1
  if 0xFFFFFF ≤ e then
    (s.wr R.SEC_SEAL F.SEC_SEAL_EPOCH 0xFFFFFF).record
      ((ev Sev.fault Src.sec 0).field R.SEC_STATUS F.SEC_STATUS_NOSEAL)
  else
    let s := s.wr R.SEC_SEAL F.SEC_SEAL_EPOCH e
    { s with sec := { s.sec with sealCount := 0, sealPending := true },
             nvm := { s.nvm with recQueue := s.nvm.recQueue ++ [⟨1, leBytes 3 e ++ zeros 17⟩] } }

/-- The seal count that the next sealed item takes (R333). -/
def State.sealNext (s : State) : Nat := s.sec.sealCount

/-- Moves on to the next seal count; a wrap of the count advances the epoch (R334). -/
def State.tookSeal (s : State) : State :=
  if s.sec.sealCount + 1 = 2 ^ 48 then s.advanceEpoch
  else { s with sec := { s.sec with sealCount := s.sec.sealCount + 1 } }

/-- The GCM IV of a sealed frame (R333). -/
def frameIv (src : Nat) (kph : Bool) (epoch count : Nat) : BitVec 96 :=
  BitVec.ofNat 96 (src % 2 ^ 16 + 2 ^ 16 * bit kph + 2 ^ 24 * (epoch % 2 ^ 24) + 2 ^ 48 * count)

/-! ## Seedbank records (R230, R231, R335) -/

/-- A record's header (R230). -/
structure SeedHdr where
  kind : Nat
  narrow : Bool
  ragged : Bool
  part : Bool
  moments : Nat
  glade : Nat
  sweep : Nat
  layer : Nat
  block : Nat
  lmn : Nat
  sm1 : Nat
  epoch : Nat
  seq : Nat
  hash : Word
  arg : Nat
  vring : Nat
  deriving DecidableEq, Repr

/-- A record's length for a body of n bytes: header, tag and padding included (R230). -/
def seedLen (n : Nat) : Nat := (64 + n + 16 + 63) / 64 * 64

/-- The 64 bytes of a header whose record is `len` bytes long. -/
def SeedHdr.bytes (h : SeedHdr) (len : Nat) : List Byte :=
  leBytes 2 (len / 64) ++ leBytes 1 h.kind ++
  leBytes 1 (bit h.narrow + 2 * bit h.ragged + 4 * bit h.part + 8 * (h.moments % 4)) ++ leBytes 1 (h.glade % 16) ++ zeros 3 ++
  leBytes 8 h.sweep ++ leBytes 4 (h.layer % 2 ^ 15) ++ leBytes 4 h.block ++ leBytes 2 h.lmn ++ leBytes 2 h.sm1 ++
  leBytes 1 h.epoch ++ zeros 3 ++ leBytes 8 h.seq ++ leBytes 8 h.hash.toNat ++ leBytes 8 h.arg ++ leBytes 8 h.vring

/-- The header that 64 bytes spell. -/
def SeedHdr.ofBytes (l : List Byte) : SeedHdr :=
  let f := leAt l 3 1
  ⟨leAt l 2 1, bitAt f 0, bitAt f 1, bitAt f 2, bitsOf f 3 2, bitsOf (leAt l 4 1) 0 4, leAt l 8 8, bitsOf (leAt l 16 4) 0 15,
   leAt l 20 4, leAt l 24 2, leAt l 26 2, leAt l 28 1, leAt l 32 8, BitVec.ofNat 64 (leAt l 40 8), leAt l 48 8, leAt l 56 8⟩

/-- The IV of a record (R335): a REQUEST takes it from ARG and SEQ, the other kinds from LMN, SEQ and SWEEP. -/
def SeedHdr.iv (h : SeedHdr) : BitVec 96 :=
  if h.kind = 4 then
    BitVec.ofNat 96 (h.arg % 2 ^ 16 + 2 ^ 16 * 4 + 2 ^ 24 * bitsOf h.arg 16 24 + 2 ^ 48 * (h.seq % 2 ^ 48))
  else BitVec.ofNat 96 (h.lmn % 2 ^ 16 + 2 ^ 16 * (h.kind % 256) + 2 ^ 24 * (h.seq % 2 ^ 32) + 2 ^ 56 * (h.sweep % 2 ^ 40))

/-- A sealed record (R231): header, encrypted body, tag and padding. -/
def SeedHdr.seal (h : SeedHdr) (key : BitVec 256) (body : List Byte) : List Byte :=
  let len := seedLen body.length
  let hd := h.bytes len
  let c := Config.gcmCrypt key h.iv body
  let tag := leBytes 16 (Config.gcmTag key h.iv hd c).toNat
  hd ++ slice c 0 body.length ++ tag ++ zeros (len - 64 - body.length - 16)

/-- The body length that a header implies (R230). -/
def SeedHdr.bodyLen (h : SeedHdr) : Nat :=
  if h.kind = 2 then 16 + 4096 + h.moments * (if h.narrow then 2048 else 4096) else 0

/-- Opens a sealed record under a key: the body when the tag verifies. (DEDUCED, assumption 64.) -/
def SeedHdr.open (h : SeedHdr) (key : BitVec 256) (rec : List Byte) : Option (List Byte) :=
  let n := h.bodyLen
  let c := slice rec 64 n
  if slice rec (64 + n) 16 = leBytes 16 (Config.gcmTag key h.iv (slice rec 0 64) c).toNat then
    some (slice (Config.gcmCrypt key h.iv c) 0 n)
  else none

end Sys2Proof.Machine
end

