-- ==== Sys2Proof/Machine/Rows.lean ====
section
/-! DEFINITION. Rows as this member knows them: memory accesses through the ports (R295, R296), erasures (R195), row-read
answers (R181) and the choice of survivors (R182, R83), leaves that await repair (R43, R44), stale parity leaves (R38),
deadfall (R197), requests to Seedbank (R234) and the rounding of a working copy (R36, R103, R104). -/
namespace Sys2Proof.Machine

/-! ## Tiles -/

/-- The home tile of index x (R301). (DESIGN CHOICE, assumption 31.) -/
def State.homeTile (s : State) (x : Nat) : Nat := s.tilesUp.getD (x % max 1 s.tilesUp.length) 0

/-- Raises exceptions in TIL[t]_EXC (R115). -/
def State.raiseExc (s : State) (t : Nat) (e : Exc) : State :=
  s.setReg (R.TIL_EXC t) (s.reg (R.TIL_EXC t) ||| BitVec.ofNat 64 e.toNat)

/-- Adds an element to a list that has no repeats. -/
def addOnce {α : Type} [DecidableEq α] (l : List α) (a : α) : List α := if a ∈ l then l else l ++ [a]

/-- One block pass of a step program has been completed on tile t (R116). -/
def State.countPass (s : State) (t : Nat) : State :=
  (s.inc (R.TIL_WORK t) F.TIL_WORK_BLOCKS).updTl t fun x => { x with used := true }

/-- GF(2⁸) output of tile t, counted in whole KiB (R116). (DEDUCED, assumption 32.) -/
def State.countGf (s : State) (t n : Nat) : State :=
  let n := n + (s.tl t).gfRest
  (s.add (R.TIL_WORK t) F.TIL_WORK_GFKIB (n / 1024)).updTl t fun x => { x with gfRest := n % 1024, used := true }

/-! ## Contexts (R131, R133) -/

/-- Whether tile t has a context for a unit: 32 of its 512 are kept for clearing reads (R133). -/
def State.contextFree (s : State) (t : Nat) (clearing : Bool) : Bool :=
  (s.tl t).contexts.length < if clearing then 512 else 480

/-- A unit takes a context on tile t and parks on its first access. (DEDUCED, assumption 32.) -/
def State.openContext (s : State) (t g kind unit : Nat) (clearing : Bool) : State :=
  let l := (s.tl t).contexts
  let id := ((List.range (l.length + 1)).find? fun i => !l.any fun c => c.id == i).getD 0
  let s := s.updTl t fun x =>
    { x with contexts := l ++ [⟨id, g, kind, unit, clearing, true, false⟩], used := true }
  s.raise (R.TIL_CTX t) F.TIL_CTX_HWM (l.length + 1)

/-- A unit is done: its context is free. -/
def State.closeContext (s : State) (g kind unit : Nat) : State :=
  let mine := fun c : Context => c.glade == g && c.kind == kind && c.unit == unit
  s.each ((List.range 64).filter fun t => (s.tl t).contexts.any mine) fun s t =>
    s.updTl t fun x => { x with contexts := x.contexts.filter (!mine ·) }

/-! ## The regions of a member offset -/

/-- Whether region x is watched (R40). -/
def watchedRegion (x : Nat) : Bool := x ≤ 4 || x = 7 || x = 8

/-- The glades with ACTIVE = 1. -/
def State.activeGlades (s : State) : List Nat := (List.range 16).filter s.active

/-- The active glade and region whose present region holds a 4 KiB unit. -/
def State.regionOfUnit (s : State) (u : Nat) : Option (Nat × Nat) :=
  (s.activeGlades.flatMap fun g => (List.range 10).map fun x => (g, x)).find? fun gx =>
    let b := s.regionBase gx.1 gx.2 / 4096
    b ≤ u && u < b + s.regionSize gx.1 gx.2

/-! ## Units that await repair (R44, R300) -/

/-- The number of units that lie strictly between two ranges (R300). -/
def rangeGap (a b : Nat × Nat) : Nat :=
  if a.2 < b.1 then b.1 - a.2 - 1 else if b.2 < a.1 then a.1 - b.2 - 1 else 0

/-- Opens a range; a fifth range is merged into the nearest open one, on a tie the one with the lower first unit (R300). -/
def PortState.addRange (p : PortState) (r : Nat × Nat) : PortState :=
  if p.ranges.length < 4 then { p with ranges := p.ranges ++ [r] }
  else
    let best := p.ranges.foldl (fun (m : Option (Nat × Nat)) x => match m with
      | none => some x
      | some y => if rangeGap x r < rangeGap y r ∨ (rangeGap x r = rangeGap y r ∧ x.1 < y.1) then some x else m) none
    match best with
    | none => p
    | some b => { p with ranges := mapFirst (· == b) (fun b => (min b.1 r.1, max b.2 r.2)) p.ranges }

/-- Adds one unit: to the single list, or as a range when that is full (R300). -/
def PortState.addUnit (p : PortState) (u : Nat) : PortState :=
  if p.singles.contains u || p.ranges.any (fun r => r.1 ≤ u && u ≤ r.2) then p
  else if p.singles.length < 64 then { p with singles := p.singles ++ [u] }
  else p.addRange (u, u)

/-- Sets the STALE bit of this member's slot from its stale leaves (R159). -/
def State.refreshStale (s : State) (g : Nat) : State :=
  let sl := (s.code g).slot
  if (s.gl g).stalePar.isEmpty then s.clearMask (R.GRV_LOST g) F.GRV_LOST_STALE sl
  else s.setMask (R.GRV_LOST g) F.GRV_LOST_STALE sl

/-- Marks a parity leaf that this member holds as stale (R38). -/
def State.markStale (s : State) (g p : Nat) : State :=
  (s.updGl g fun x => { x with stalePar := addOnce x.stalePar p }).refreshStale g

/-- The unit of a parity leaf of the code in force, or of the next code. -/
def State.parityUnit (s : State) (g : Nat) (next : Bool) (p : Nat) : Nat :=
  (if next then s.nextBase g 4 else s.regionBase g 4) / 4096 + p

/-- The region number under which a parity leaf is staged: 4, and 10 for the next code's. -/
def parityRegion (next : Bool) : Nat := if next then 10 else 4

/-- Drops the staged frame of a parity leaf. -/
def State.dropFrame (s : State) (g : Nat) (next : Bool) (p : Nat) : State :=
  { s with frames := s.frames.filter fun f =>
      !(f.glade == g && f.region == parityRegion next && f.unit == s.parityUnit g next p) }

/-- Drops the fold of a parity leaf, its net change included, and its staged frame (R306). -/
def State.dropFold (s : State) (g : Nat) (next : Bool) (p : Nat) : State :=
  (s.dropFrame g next p).updGl g fun x => { x with folds := x.folds.filter fun f => !(f.next == next && f.p == p) }

/-- What a hit on a unit of a watched region leaves to repair (R43): a data leaf awaits repair, a parity leaf is to be
encoded again, the leaves with a journal entry in the unit become stale, and an undo entry in the unit is gone. A unit that
holds nothing leaves nothing to repair. -/
def State.spoilUnit (s : State) (g x u : Nat) : State :=
  let i := u - s.regionBase g x / 4096
  let mu := s.moments g
  if x < 3 then
    if x ≤ mu && i < s.bloc g then s.updGl g fun e => { e with repair := addOnce e.repair (s.valueLeaf g i x) } else s
  else if x = 3 then
    if i < (s.bloc g + 255) / 256 then
      s.updGl g fun e => { e with repair := addOnce e.repair ((1 + mu) * s.bloc g + i) }
    else s
  else if x = 4 then
    if i < s.parityLeaves g then
      (s.dropFold g false i).updGl g fun e => { e with unbuilt := addOnce e.unbuilt i }
    else s
  else if x = 7 then
    let hit := (s.gl g).folds.filter fun f => !f.next && match f.entry with
      | some o => o / 4096 ≤ i && i ≤ (o + 4119) / 4096
      | none => false
    s.each hit fun s f => s.markStale g f.p
  else if x = 8 then
    let hit := fun v : Undo => !v.next && v.off / 4096 ≤ i && i ≤ (v.off + v.len - 1) / 4096
    s.updGl g fun e => { e with
      undo := e.undo.filter fun v => !hit v, noUndo := e.noUndo ++ (e.undo.filter hit).map (·.q) }
  else s

/-- Whether a hit on a unit of a region leaves something to repair by the walker: a coded leaf. -/
def State.unitHolds (s : State) (g x u : Nat) : Bool :=
  let i := u - s.regionBase g x / 4096
  (x < 3 && x ≤ s.moments g && i < s.bloc g) || (x == 3 && i < (s.bloc g + 255) / 256) ||
  (x == 4 && i < s.parityLeaves g)

/-- A unit of a watched region awaits repair at a port. -/
def State.awaitUnit (s : State) (q g x u : Nat) : State :=
  let s := s.spoilUnit g x u
  if s.unitHolds g x u then s.updPt q fun p => p.addUnit u else s

/-- The unit of local data leaf v. -/
def State.unitOfLeaf (s : State) (g v : Nat) : Nat := s.leafAddr g v / 4096

/-- A data leaf awaits repair (R44), its unit at port 0. -/
def State.awaitLeaf (s : State) (g v : Nat) : State :=
  (s.updGl g fun e => { e with repair := addOnce e.repair v }).updPt 0 fun p => p.addUnit (s.unitOfLeaf g v)

/-! ## The working copy (R36, R103, R104) -/

/-- The working copy of the values of block b of layer l as the apply of a ring rounds it, with the exceptions raised. -/
def State.roundCopy (s : State) (g l b ring : Nat) (v : List F32) : List Byte × Exc :=
  let f := if s.on (R.GLD_CTL g) F.GLD_CTL_WCFMT then b16 else bf16
  let key := (s.reg (R.STP_SEEDLO g)).toNat + 2 ^ 64 * (s.reg (R.STP_SEEDHI g)).toNat
  let sr := (s.gl g).inForce.wcsr
  let n := s.lanesOf g l b
  (List.range 1024).foldl (fun (r : List Byte × Exc) i =>
    if n ≤ i then (r.1 ++ [0, 0], r.2)
    else
      let draw := if sr then some (gen (ring % 2 ^ 64 + 2 ^ 64 * ((1024 * b + i) % 2 ^ 40) + 2 ^ 104 * (l % 2 ^ 14)) key)
        else none
      let x := f.narrow (v.getD i 0).toNat draw
      (r.1 ++ leBytes 2 x.1, r.2 ||| x.2)) ([], 0)

/-- The member offset of the working copy of local block t. -/
def State.copyAddr (s : State) (g t : Nat) : Nat := s.regionBase g 5 + 2048 * t

/-- Writes a block's working copy again from its master, with its ledger RING. -/
def State.roundAgain (s : State) (g t : Nat) : State :=
  match s.locate g t with
  | none => s
  | some (l, b) =>
    let m := planeValues (s.readBytes (s.regionBase g 0 + 4096 * t) 4096)
    s.writeBytes (s.copyAddr g t) (s.roundCopy g l b (s.ledger g t).ring m).1

/-! ## Failed accesses (R296, R306, R453) -/

/-- Keeps a ledger leaf as it stood before its first change in the ring. -/
def State.rememberLedger (s : State) (g e : Nat) : State :=
  if (s.gl g).ledgerOld.any fun x => x.1 == e then s
  else s.updGl g fun x => { x with ledgerOld := x.ledgerOld ++ [(e, s.readBytes (s.regionBase g 3 + 4096 * e) 4096)] }

/-- A block that misses the ring's apply takes LAG = 1 (R110). -/
def State.setLag (s : State) (g t : Nat) : State :=
  let s := s.rememberLedger g (t / 256)
  let l : Ledger := { s.ledger g t with lag := true }
  (s.writeBytes (s.ledgerAddr g t) l.bytes).inc (R.STP_GSTAT g) F.STP_GSTAT_LAGGED

/-- A lost reduction buffer (R306): before the verdict the member requests a skip; after it the block is not applied and
takes LAG = 1, and in exact mode a Warn record says that the glade is no longer bit-identical. -/
def State.bufferLost (s : State) (g t : Nat) : State :=
  let e := s.gl g
  if !e.verdictDone then s.wr (R.STP_GCTL g) F.STP_GCTL_SKIPREQ 1
  else if e.applied.contains t || e.notApplied.contains t || !s.on (R.STP_GSTAT g) F.STP_GSTAT_LASTAPPLY then s
  else
    let s := (s.updGl g fun x => { x with notApplied := x.notApplied ++ [t] }).setLag g t
    if s.exact g then s.record ((ev Sev.warn Src.stp g).about t) else s

/-- The outcome of a read that failed with UNCORR or ADDRERR, by the region of its line (R296). -/
def State.lineFailed (s : State) (q o : Nat) : State :=
  let u := o / 4096
  match s.regionOfUnit u with
  | some (g, x) =>
    if watchedRegion x then
      (s.awaitUnit q g x u).record
        ({ ev Sev.warn Src.gld g with reg := R.MPT_ERR q, bit := F.MPT_ERR_UNCORR.lo }.about u)
    else if x = 5 then s.roundAgain g ((o - s.regionBase g 5) / 2048)
    else if x = 6 then s.bufferLost g ((o - s.regionBase g 6) / 4096)
    else s.record (((ev Sev.fault Src.mpt q).field (R.MPT_ERR q) F.MPT_ERR_UNCORR).about (lineOf o))
  | none => s.record (((ev Sev.fault Src.mpt q).field (R.MPT_ERR q) F.MPT_ERR_UNCORR).about (lineOf o))

/-- A failed read of the line at an offset is counted and has its outcome. -/
def State.readFailed (s : State) (o : Nat) : State :=
  (s.inc (R.MPT_ERR (portOf o)) F.MPT_ERR_UNCORR).lineFailed (portOf o) o

/-- The lines of a range, by their first offsets. -/
def linesOf (o n : Nat) : List Nat := (List.range (linesIn o n)).map fun i => o / 128 * 128 + 128 * i

/-- Crioz's own read of a range: every line that is not served fails (R453). -/
def State.readCheck (s : State) (o n : Nat) : State :=
  s.each ((linesOf o n).filter fun a => !s.lineServed a) fun s a => s.readFailed a

/-- A line write that fails, and fails again when it is issued once more (R296). -/
def State.writeFailed (s : State) (o : Nat) : State :=
  let a := R.MPT_ERR (portOf o)
  ((s.add a F.MPT_ERR_WERR 2).add a F.MPT_ERR_UNCORR 2).lineFailed (portOf o) o

/-- Writes a range through the ports: the lines that are served take their bytes, the others fail. -/
def State.store (s : State) (o : Nat) (l : List Byte) : State :=
  if s.served o l.length then s.writeBytes o l
  else
    s.each (linesOf o l.length) fun s a =>
      let lo := max a o
      let hi := min (a + 128) (o + l.length)
      if s.lineServed a then s.writeBytes lo (slice l (lo - o) (hi - lo)) else s.writeFailed a

/-! ## Erasures (R195) -/

/-- Whether this member's own leaf in a row is an erasure: not yet rebuilt, stale, unbuilt or awaiting repair. -/
def State.ownErased (s : State) (g row : Nat) : Bool :=
  let c := s.code g
  let e := s.gl g
  match c.parityIndex row c.slot with
  | some j =>
    let p := c.parityLeaf row j
    e.stalePar.contains p || e.unbuilt.contains p ||
      (match e.standIn with
       | some r => r.parityLeft.contains p
       | none => false)
  | none =>
    let v := c.leafOfRow c.slot row
    !s.isVirtual g c.slot row && (e.repair.contains v ||
      (match e.standIn with
       | some r => r.dataLeft.contains v
       | none => false))

/-- Whether a slot's leaf in a row is an erasure that this member knows of: its slot is lost, or its own row reads have
returned STALE or ERASED. A virtual zero leaf never is (R69). -/
def State.slotErased (s : State) (g row slot : Nat) : Bool :=
  let c := s.code g
  if slot = c.slot then s.ownErased g row
  else
    let lost := bitAt (s.rd (R.GRV_LOST g) F.GRV_LOST_LOST) slot
    let told := (s.gl g).reads.any fun r => r.row == row &&
      r.answers.any fun a => a.slot == slot && (bitAt a.status.toNat 29 || bitAt a.status.toNat 30)
    (lost || told) && ((c.parityIndex row slot).isSome || !s.isVirtual g slot row)

/-- The slots whose leaves of a row are erasures. -/
def State.erasures (s : State) (g row : Nat) : List Nat := (s.slots g).filter (s.slotErased g row)

/-- ERAS: the largest number of erasures in any row that this member knows of, up to 7 (R159). -/
def State.refreshEras (s : State) (g : Nat) : State :=
  s.wr (R.GRV_MSTAT g) F.GRV_MSTAT_ERAS
    (min 7 (((List.range (s.code g).rows).map fun r => (s.erasures g r).length).foldl max 0))

/-! ## Row reads (R181 to R183) -/

/-- Whether a data leaf of this member has been written by an apply of the open ring (R181). -/
def State.leafNew (s : State) (g v : Nat) : Bool :=
  let mu := s.moments g
  let n := (1 + mu) * s.bloc g
  let ap := (s.gl g).applied
  if v < n then ap.contains (v / (1 + mu)) else ap.any fun t => t / 256 == v - n

/-- The fold of a parity leaf in the open ring, if it has one. -/
def State.fold (s : State) (g : Nat) (next : Bool) (p : Nat) : Option Fold :=
  (s.gl g).folds.find? fun f => f.next == next && f.p == p

/-- The fold bits of a parity leaf. -/
def State.foldBits (s : State) (g : Nat) (next : Bool) (p : Nat) : Nat :=
  match s.fold g next p with
  | some f => f.bits
  | none => 0

/-- The status word of this member's leaf in a row (R181). -/
def State.statusWord (s : State) (g row : Nat) (busy : Bool) : Word :=
  let c := s.code g
  let er := s.ownErased g row
  let (fold, nw, st) := match c.parityIndex row c.slot with
    | some j =>
      let p := c.parityLeaf row j
      (s.foldBits g false p, false, (s.gl g).stalePar.contains p)
    | none => (0, !s.isVirtual g c.slot row && s.leafNew g (c.leafOfRow c.slot row), false)
  BitVec.ofNat 64 (fold % 2 ^ 28 + 2 ^ 28 * bit nw + 2 ^ 29 * bit st + 2 ^ 30 * bit (er && !st) + 2 ^ 31 * bit busy +
    2 ^ 32 * (s.openRing g % 256) + 2 ^ 40 * (c.epoch % 256))

/-- What this member answers to a row read of a whole leaf: its slot, its status word and the leaf. (DEDUCED, assumption 20.) -/
def State.ownAnswer (s : State) (g row : Nat) : RowAnswer :=
  ⟨(s.code g).slot, s.statusWord g row false, s.ownLeaf g row⟩

/-- The FOLD field of an answer. -/
def RowAnswer.fold (a : RowAnswer) : Nat := bitsOf a.status.toNat 0 28
/-- The NEW bit. -/
def RowAnswer.isNew (a : RowAnswer) : Bool := bitAt a.status.toNat 28
/-- The STALE bit. -/
def RowAnswer.isStale (a : RowAnswer) : Bool := bitAt a.status.toNat 29
/-- The ERASED bit. -/
def RowAnswer.isErased (a : RowAnswer) : Bool := bitAt a.status.toNat 30
/-- The BUSY bit. -/
def RowAnswer.isBusy (a : RowAnswer) : Bool := bitAt a.status.toNat 31
/-- The EPOCH field. -/
def RowAnswer.epoch (a : RowAnswer) : Nat := bitsOf a.status.toNat 40 8

/-- An answer that counts as a survivor: neither STALE nor ERASED, under the code's epoch (R181, R82). -/
def RowAnswer.survives (a : RowAnswer) (c : Code) : Bool := !a.isStale && !a.isErased && !a.isBusy && a.epoch == c.epoch

/-- The survivor that answers for a slot, if one does. -/
def survivorOf (c : Code) (answers : List RowAnswer) (slot : Nat) : Option RowAnswer :=
  answers.find? fun a => a.slot == slot && a.survives c

/-- The data strings of a row that survive, by data index: a virtual zero leaf always does (R69). -/
def State.dataOf (s : State) (g row len : Nat) (answers : List RowAnswer) (i : Nat) : Option (List Byte × Bool) :=
  let c := s.code g
  let sl := c.dataSlot row i
  if s.isVirtual g sl row then some (zeros len, false)
  else (survivorOf c answers sl).map fun a => (slice a.bytes 0 len, a.isNew)

/-- The lost data indices whose fold bit the reconciliation has decided as set in a row (R191). -/
def State.decidedSet (s : State) (g row : Nat) : Bool :=
  match (s.gl g).standIn with
  | some r => r.reports.any fun x => x.2.contains row
  | none => false

/-- Whether a data leaf of this member awaits repair and is none that a stand-in has still to rebuild: its ring is known. -/
def State.repairing (s : State) (g v : Nat) : Bool :=
  (s.gl g).repair.contains v && (match (s.gl g).standIn with
    | some r => !r.dataLeft.contains v
    | none => true)

/-- The strings of a row from its survivors (R83, R182): every surviving data string and then consistent parity, in
increasing parity index. A parity leaf is consistent when its fold bits are the surviving data indices with NEW = 1, this
member's own among them while its leaf awaits repair (R44); on the lost indices it must agree with the decision of R191, and
before a decision with the first parity leaf chosen. `none` when fewer than k consistent survivors are there. -/
def State.solveRow (s : State) (g row len : Nat) (answers : List RowAnswer) : Option (List (List Byte)) :=
  let c := s.code g
  let d := fun i => s.dataOf g row len answers i
  let idx := List.range c.k
  let erased := idx.filter fun i => (d i).isNone
  let newMask := maskOf (idx.map fun i => match d i with
    | some x => x.2
    | none => false)
  let lostMask := maskOf (idx.map fun i => (d i).isNone)
  let mine := match c.dataIndex row c.slot with
    | some i => if (d i).isNone && s.repairing g (c.leafOfRow c.slot row) then 2 ^ i else 0
    | none => 0
  let newMask := if s.leafNew g (c.leafOfRow c.slot row) then newMask ||| mine else newMask
  let lostMask := lostMask &&& (2 ^ 28 - 1 - mine)
  let par := (List.range c.m).filterMap fun j =>
    (survivorOf c answers (c.paritySlot row j)).bind fun a =>
      if a.fold &&& (2 ^ 28 - 1 - lostMask) = newMask then some (j, a.fold &&& lostMask, slice a.bytes 0 len) else none
  let want := if s.decidedSet g row then lostMask else ((par.head?).map (·.2.1)).getD 0
  let par := (par.filter fun x => x.2.1 == want).map fun x => (x.1, x.2.2)
  if par.length < erased.length then none
  else
    let solved := reconstruct c.k len (fun i => (d i).map (·.1)) (par.take erased.length) erased
    some (idx.map fun i => match d i with
      | some x => x.1
      | none => solved.getD (erased.idxOf i) (zeros len))

/-- Whether every data leaf of a row answers, none of them written in the open ring: what an encoding needs (R183). -/
def State.encodable (s : State) (g row len : Nat) (answers : List RowAnswer) : Bool :=
  (List.range (s.code g).k).all fun i => match s.dataOf g row len answers i with
    | some x => !x.2
    | none => false

/-! ## Seedbank's outgoing ring (R225) -/

/-- The size of the outgoing ring in bytes. -/
def State.seedSize (s : State) (g : Nat) : Nat := 4096 * s.rd (R.GLD_SBOUT g) F.GLD_SBOUT_SIZE

/-- The free bytes of the outgoing ring: the writer never fills the last 64. -/
def State.seedFree (s : State) (g : Nat) : Nat :=
  let n := s.seedSize g
  let w := s.rd (R.GLD_SBOPTR g) F.GLD_SBOPTR_WPTR
  let r := s.rd (R.GLD_SBOPTR g) F.GLD_SBOPTR_RPTR
  if n = 0 then 0 else n - (w + n - r % n) % n - 64

/-- What a record of `len` bytes takes from the ring: a PAD first when it would pass the end (R230). -/
def State.seedNeed (s : State) (g len : Nat) : Nat :=
  let w := s.rd (R.GLD_SBOPTR g) F.GLD_SBOPTR_WPTR
  if w + len ≤ s.seedSize g then len else s.seedSize g - w + len

/-- Whether the ring has room for a record. -/
def State.seedRoom (s : State) (g len : Nat) : Bool := s.seedNeed g len ≤ s.seedFree g

/-- Writes a record at WPTR, after a PAD where it would pass the end, and charges class 6. -/
def State.seedWrite (s : State) (g : Nat) (rec : List Byte) : State :=
  let n := s.seedSize g
  let base := 4096 * s.rd (R.GLD_SBOUT g) F.GLD_SBOUT_BASE
  let w := s.rd (R.GLD_SBOPTR g) F.GLD_SBOPTR_WPTR
  let wrap := n < w + rec.length
  let s := if wrap then s.store (base + w) (leBytes 2 ((n - w) / 64) ++ zeros 62) else s
  let w := if wrap then 0 else w
  let s := (s.store (base + w) rec).charge 6 0 (linesIn (base + w) rec.length) 0
  s.wr (R.GLD_SBOPTR g) F.GLD_SBOPTR_WPTR ((w + rec.length) % max 1 n)

/-- Writes a REQUEST record for a block (R234, R335): it takes the next seal count. Without a key or before the SEAL epoch
is persisted nothing is sealed, and without room nothing is written; the request is then written at its next resend. -/
def State.seedRequest (s : State) (g l b : Nat) : State :=
  match s.keyCur g with
  | none => s
  | some k =>
    if !s.sealReady || !s.seedRoom g (seedLen 0) then s
    else
      let h : SeedHdr := ⟨4, false, false, false, s.moments g, g, s.openRing g, l, b, s.lmn g, s.members g - 1,
        (s.code g).epoch, s.sealNext, s.reg (R.GLD_LAYERHASH g), s.pnid + 2 ^ 16 * s.sealEpoch, 0⟩
      (s.seedWrite g (h.seal (seedKey k.key g) [])).tookSeal

/-! ## Deadfall (R197 to R199) -/

/-- Whether a row is deadfall by this member's knowledge: more than m erasures, a data leaf among them. -/
def State.rowDead (s : State) (g row : Nat) : Bool :=
  let c := s.code g
  let er := s.erasures g row
  c.m < er.length && er.any fun x => (c.parityIndex row x).isNone

/-- The LMNs whose shard this node serves: its own and those it hosts. -/
def State.heldLmns (s : State) (g : Nat) : List Nat := s.lmn g :: (s.gl g).hosting

/-- The erased data leaves of a row that this node holds, stands in for or hosts: LMN and local leaf. -/
def State.heldErased (s : State) (g row : Nat) : List (Nat × Nat) :=
  let c := s.code g
  (s.heldLmns g).filterMap fun i =>
    let sl := i % s.groveN g
    if (c.parityIndex row sl).isNone && s.slotErased g row sl then some (i, c.leafOfRow sl row) else none

/-- The blocks (layer, block) of member i whose state a local leaf holds. -/
def State.blocksOfLeaf (s : State) (g i v : Nat) : List (Nat × Nat) :=
  let sz := s.members g
  let bl := s.blocOf g sz i
  let n := (1 + s.moments g) * bl
  let ts := if v < n then [v / (1 + s.moments g)]
    else (List.range 256).filterMap fun x => if 256 * (v - n) + x < bl then some (256 * (v - n) + x) else none
  ts.filterMap fun t => s.locateFrom g sz i (s.layers g) 0 t

/-- Asks Seedbank for a block of a deadfall row, once. -/
def State.wantBlock (s : State) (g row : Nat) (lb : Nat × Nat) : State :=
  let w : Wanted := ⟨lb.1, lb.2, some row⟩
  if (s.gl g).wanted.contains w then s
  else
    let s := s.updGl g fun e => { e with wanted := e.wanted ++ [w] }
    (s.wr (R.GLD_SBSTAT g) F.GLD_SBSTAT_RESTORE 1).seedRequest g lb.1 lb.2

/-- Counts a row as deadfall at this node and requests the erased data that it holds (R197, R199). -/
def State.countDead (s : State) (g row : Nat) : State :=
  if (s.gl g).deadRows.contains row then s
  else
    let s := s.updGl g fun e => { e with deadRows := e.deadRows ++ [row] }
    let s := s.inc (R.GRV_DEAD g) F.GRV_DEAD_ROWS
    s.each ((s.heldErased g row).flatMap fun x => s.blocksOfLeaf g x.1 x.2) fun s lb => s.wantBlock g row lb

/-- This member finds a row deadfall (R197): Fault record, count, notice to the grove, requests. -/
def State.findDead (s : State) (g row : Nat) : State :=
  if (s.gl g).deadRows.contains row then s
  else
    let s := s.record (((ev Sev.fault Src.grv g).field (R.GRV_DEAD g) F.GRV_DEAD_ROWS).about row)
    (s.countDead g row).toMembers g (s.grovePeers g) "DEADFALL" [g, row]

/-- Looks at a row after its erasures have grown (R197). -/
def State.checkRow (s : State) (g row : Nat) : State := if s.rowDead g row then s.findDead g row else s

/-- Whether a block's leaves, its ledger leaf included, lie in deadfall rows as erasures of this member (R198). -/
def State.blockDead (s : State) (g t : Nat) : Bool :=
  let c := s.code g
  ((List.range (1 + s.moments g)).map (s.valueLeaf g t) ++ [s.ledgerLeaf g t]).any fun v =>
    let row := c.rowOfLeaf c.slot v
    (s.gl g).deadRows.contains row && s.ownErased g row

end Sys2Proof.Machine
end

