-- ==== Sys2Proof/Machine/StepProgram.lean ====
section
/-! DEFINITION. The rows of the step-program instructions (END to MOV, R96), and PROGRAM_SLOT_WRITE and PMEM_WRITE: what an
instruction does to a lane, the check of a program (R97, R98), the shipped programs (R101) and the engine's scalars
(R100, R102). -/
namespace Sys2Proof.Machine

/-- A step-program instruction (R96). -/
inductive LaneOp where
  | fin
  | ld (d : Fin 16) (cls : Fin 4)
  | st (cls : Fin 3) (a : Operand)
  | add (d : Fin 16) (a b : Operand)
  | sub (d : Fin 16) (a b : Operand)
  | mul (d : Fin 16) (a b : Operand)
  | fma (d : Fin 16) (a b c : Operand)
  | fnma (d : Fin 16) (a b c : Operand)
  | div (d : Fin 16) (a b : Operand)
  | sqrt (d : Fin 16) (a : Operand)
  | max (d : Fin 16) (a b : Operand)
  | min (d : Fin 16) (a b : Operand)
  | sign (d : Fin 16) (a : Operand)
  | sqacc0 (a : Operand)
  | sqacc1 (a : Operand)
  | mov (d : Fin 16) (a : Operand)
  deriving DecidableEq, Repr

/-- A binary32 operation of two operands into D. -/
def LaneContext.op2 (l : LaneContext) (f : Nat → Nat → Nat × Exc) (d : Fin 16) (a b : Operand) : LaneContext :=
  l.result d (f (l.operand a).toNat (l.operand b).toNat)

/-- A fused operation of three operands into D. -/
def LaneContext.op3 (l : LaneContext) (negate : Bool) (d : Fin 16) (a b c : Operand) : LaneContext :=
  l.result d (b32.fma negate (l.operand a).toNat (l.operand b).toNat (l.operand c).toNat)

/-- What an instruction does to a lane whose pass has begun (R96, R99, R117). (DEDUCED, assumption 60.) -/
def LaneOp.run (o : LaneOp) (l : LaneContext) : LaneContext :=
  match o with
  | .fin => { l with ended := true }
  | .ld d cls => l.setV d (l.load cls)
  | .st cls a => l.store cls (l.operand a)
  | .add d a b => l.op2 b32.add d a b
  | .sub d a b => l.op2 b32.sub d a b
  | .mul d a b => l.op2 b32.mul d a b
  | .fma d a b c => l.op3 false d a b c
  | .fnma d a b c => l.op3 true d a b c
  | .div d a b => l.op2 b32.div d a b
  | .sqrt d a => l.result d (b32.sqrt (l.operand a).toNat)
  | .max d a b => l.op2 b32.maxOp d a b
  | .min d a b => l.op2 b32.minOp d a b
  | .sign d a => l.result d (b32.signOf (l.operand a).toNat)
  | .sqacc0 a => if l.padding then l else { l with acc0 := accAdd l.acc0 (accSquare (l.operand a)) }
  | .sqacc1 a => if l.padding then l else { l with acc1 := accAdd l.acc1 (accSquare (l.operand a)) }
  | .mov d a => l.setV d (l.operand a)

/-- An instruction on the lane of the state: the first instruction after an END begins a pass (R99). -/
def LaneContext.next (l : LaneContext) (o : LaneOp) : LaneContext := o.run (if l.ended then l.begin else l)

/-- Runs an instruction on the lane of the state while MAIN runs. (DEDUCED, assumption 60.) -/
def State.laneStep (s : State) (o : LaneOp) : State := s.inMain fun s => { s with lane := s.lane.next o }

/-! ## Encodings (R96) -/

/-- A number as an index below 16. -/
def fin16 (n : Nat) : Fin 16 := ⟨n % 16, Nat.mod_lt _ (by decide)⟩
/-- A number as an operand name. -/
def fin32 (n : Nat) : Operand := ⟨n % 32, Nat.mod_lt _ (by decide)⟩

/-- The instruction that a word encodes: `none` for an undefined opcode, a non-zero unused field, a class out of range or a
D that names no V register (R96, R97). -/
def LaneOp.ofWord (w : Nat) : Option LaneOp :=
  let op := bitsOf w 26 6
  let d := bitsOf w 21 5
  let a := bitsOf w 16 5
  let b := bitsOf w 11 5
  let c := bitsOf w 6 5
  let z := bitsOf w 0 6
  let v := d < 16
  if z ≠ 0 then none
  else match op with
    | 0x00 => if d = 0 ∧ a = 0 ∧ b = 0 ∧ c = 0 then some .fin else none
    | 0x01 => if v ∧ a < 4 ∧ b = 0 ∧ c = 0 then some (.ld (fin16 d) ⟨a % 4, Nat.mod_lt _ (by decide)⟩) else none
    | 0x02 => if d < 3 ∧ b = 0 ∧ c = 0 then some (.st ⟨d % 3, Nat.mod_lt _ (by decide)⟩ (fin32 a)) else none
    | 0x03 => if v ∧ c = 0 then some (.add (fin16 d) (fin32 a) (fin32 b)) else none
    | 0x04 => if v ∧ c = 0 then some (.sub (fin16 d) (fin32 a) (fin32 b)) else none
    | 0x05 => if v ∧ c = 0 then some (.mul (fin16 d) (fin32 a) (fin32 b)) else none
    | 0x06 => if v then some (.fma (fin16 d) (fin32 a) (fin32 b) (fin32 c)) else none
    | 0x07 => if v then some (.fnma (fin16 d) (fin32 a) (fin32 b) (fin32 c)) else none
    | 0x08 => if v ∧ c = 0 then some (.div (fin16 d) (fin32 a) (fin32 b)) else none
    | 0x09 => if v ∧ b = 0 ∧ c = 0 then some (.sqrt (fin16 d) (fin32 a)) else none
    | 0x0A => if v ∧ c = 0 then some (.max (fin16 d) (fin32 a) (fin32 b)) else none
    | 0x0B => if v ∧ c = 0 then some (.min (fin16 d) (fin32 a) (fin32 b)) else none
    | 0x0C => if v ∧ b = 0 ∧ c = 0 then some (.sign (fin16 d) (fin32 a)) else none
    | 0x0D => if d = 0 ∧ b = 0 ∧ c = 0 then some (.sqacc0 (fin32 a)) else none
    | 0x0E => if d = 0 ∧ b = 0 ∧ c = 0 then some (.sqacc1 (fin32 a)) else none
    | 0x0F => if v ∧ b = 0 ∧ c = 0 then some (.mov (fin16 d) (fin32 a)) else none
    | _ => none

/-- A word of the four fields D, A, B, C under an opcode. -/
def laneWord (op d a b c : Nat) : Nat := op * 2 ^ 26 + d * 2 ^ 21 + a * 2 ^ 16 + b * 2 ^ 11 + c * 2 ^ 6

/-- The word of an instruction (R96). -/
def LaneOp.word : LaneOp → Nat
  | .fin => 0
  | .ld d cls => laneWord 0x01 d.val cls.val 0 0
  | .st cls a => laneWord 0x02 cls.val a.val 0 0
  | .add d a b => laneWord 0x03 d.val a.val b.val 0
  | .sub d a b => laneWord 0x04 d.val a.val b.val 0
  | .mul d a b => laneWord 0x05 d.val a.val b.val 0
  | .fma d a b c => laneWord 0x06 d.val a.val b.val c.val
  | .fnma d a b c => laneWord 0x07 d.val a.val b.val c.val
  | .div d a b => laneWord 0x08 d.val a.val b.val 0
  | .sqrt d a => laneWord 0x09 d.val a.val 0 0
  | .max d a b => laneWord 0x0A d.val a.val b.val 0
  | .min d a b => laneWord 0x0B d.val a.val b.val 0
  | .sign d a => laneWord 0x0C d.val a.val 0 0
  | .sqacc0 a => laneWord 0x0D 0 a.val 0 0
  | .sqacc1 a => laneWord 0x0E 0 a.val 0 0
  | .mov d a => laneWord 0x0F d.val a.val 0 0

/-! ## Programs (R95, R97, R98) -/

/-- A pass: its first instruction and its length. -/
abbrev Pass := Nat × Nat

/-- Pass 1 of a slot value (R95). -/
def slotPass1 (v : Word) : Pass := (fget v F.STP_SLOT_START1, fget v F.STP_SLOT_LEN1)

/-- Pass 2 of a slot value. -/
def slotPass2 (v : Word) : Pass := (fget v F.STP_SLOT_START2, fget v F.STP_SLOT_LEN2)

/-- Whether a slot value describes a two-pass program. -/
def slotTwoPass (v : Word) : Bool := (slotPass2 v).2 != 0

/-- Instruction word i of STP_PMEM (R95). -/
def State.instrWord (s : State) (i : Nat) : Nat := bitsOf (s.reg (R.STP_PMEM (i / 2))).toNat (32 * (i % 2)) 32

/-- The instructions of a pass. -/
def State.passOps (s : State) (p : Pass) : List (Option LaneOp) :=
  (List.range p.2).map fun i => LaneOp.ofWord (s.instrWord (p.1 + i))

/-- The classes that a pass stores. -/
def storesOf (l : List (Option LaneOp)) : List Nat :=
  l.filterMap fun o => match o with
    | some (.st cls _) => some cls.val
    | _ => none

/-- The classes that a pass loads. -/
def loadsOf (l : List (Option LaneOp)) : List Nat :=
  l.filterMap fun o => match o with
    | some (.ld _ cls) => some cls.val
    | _ => none

/-- Whether a pass holds SQACC0 or SQACC1. -/
def hasSqacc (l : List (Option LaneOp)) : Bool :=
  l.any fun o => match o with
    | some (.sqacc0 _) => true
    | some (.sqacc1 _) => true
    | _ => false

/-- Whether a pass is well formed on its own (R97): it lies below index 2,048, every instruction decodes, and END stands
last and nowhere else. -/
def State.passOk (s : State) (p : Pass) : Bool :=
  let l := s.passOps p
  p.1 + p.2 ≤ 2048 && l.all Option.isSome && l.getLast? == some (some .fin) && !(l.dropLast.contains (some .fin))

/-- Whether a slot value passes the check of R97. -/
def State.programOk (s : State) (v : Word) : Bool :=
  let p1 := slotPass1 v
  let p2 := slotPass2 v
  let two := slotTwoPass v
  let l1 := s.passOps p1
  let l2 := s.passOps p2
  p1.2 != 0 && s.passOk p1 && (!two || s.passOk p2) &&
  (storesOf l1 ++ storesOf l2).Nodup &&
  !(two && !(storesOf l1).isEmpty) &&
  !hasSqacc (if two then l2 else l1)

/-- Whether a slot holds a program for glade g: VALID, and it uses no moment that the glade lacks (R29, R98). -/
def State.slotHolds (s : State) (g slot : Nat) : Bool :=
  let v := s.reg (R.STP_SLOT slot)
  let l := s.passOps (slotPass1 v) ++ s.passOps (slotPass2 v)
  let used := loadsOf l ++ storesOf l
  fget v F.STP_SLOT_VALID == 1 && !(used.contains 1 && s.moments g < 1) && !(used.contains 2 && s.moments g < 2)

/-- Whether the layer table of an active glade names a slot (R97). -/
def State.slotInUse (s : State) (slot : Nat) : Bool :=
  (List.range 16).any fun g => s.active g && (List.range (s.layers g)).any fun l => s.layerProg g l == slot

/-- Whether an STP_PMEM word lies inside a pass. -/
def wordInPass (w : Nat) (p : Pass) : Bool := p.2 != 0 && p.1 ≤ 2 * w + 1 && 2 * w < p.1 + p.2

/-- Whether an STP_PMEM word lies inside the passes of a valid slot (R97). -/
def State.pmemInUse (s : State) (w : Nat) : Bool :=
  (List.range 256).any fun x =>
    let v := s.reg (R.STP_SLOT x)
    fget v F.STP_SLOT_VALID == 1 && (wordInPass w (slotPass1 v) || wordInPass w (slotPass2 v))

/-- A write of STP_SLOT (R97). The block's own records name no glade. -/
def State.writeSlot (s : State) (slot : Nat) (v : Word) : State :=
  let a := R.STP_SLOT slot
  let w := writeByCode a (s.reg a) v
  s.guardedWrite (s.slotInUse slot || (fget w F.STP_SLOT_VALID == 1 && !s.programOk w)) Src.stp 0 a v

/-- A write of STP_PMEM (R97). -/
def State.writePmem (s : State) (w : Nat) (v : Word) : State :=
  s.guardedWrite (s.pmemInUse w) Src.stp 0 (R.STP_PMEM w) v

/-! ## The shipped programs (R101) -/

/-- AdamW, at indices 0 to 20. -/
def adamW : List Nat :=
  [0x04030000, 0x1400E000, 0x04210000, 0x14218800, 0x1820B040, 0x08210000, 0x04420000, 0x14429000, 0x14600000, 0x1843B880,
   0x08420000, 0x1482F000, 0x24840000, 0x0C849800, 0x14A1E800, 0x20A52000, 0x04C00000, 0x18A6A140, 0x1CC58180, 0x08060000,
   0x00000000]

/-- Operand S(n). -/
def opS (n : Nat) : Operand := fin32 (16 + n)

/-- SGD with momentum, at indices 32 to 41. -/
def sgdMomentum : List LaneOp :=
  [.ld 0 3, .mul 0 0 (opS 12), .ld 6 0, .fma 0 6 (opS 4) 0, .ld 1 1, .fma 1 1 (opS 1) 0, .st 1 1,
   .fnma 6 1 (opS 0) 6, .st 0 6, .fin]

/-- The Lion-style sign update, at indices 48 to 61. -/
def lionSign : List LaneOp :=
  [.ld 0 3, .mul 0 0 (opS 12), .ld 1 1, .mul 2 1 (opS 1), .fma 2 0 (opS 6) 2, .sign 2 2, .ld 6 0,
   .fma 2 6 (opS 4) 2, .fnma 6 2 (opS 0) 6, .st 0 6, .mul 1 1 (opS 2), .fma 1 0 (opS 7) 1, .st 1 1, .fin]

/-- Pass 1 of the trust-ratio program, at indices 64 to 82. -/
def trustPass1 : List Nat :=
  adamW.take 5 ++ (adamW.drop 6).take 4 ++ (adamW.drop 11).take 7 ++ [0x34060000, 0x38050000, 0]

/-- Pass 2 of the trust-ratio program, at indices 96 to 117. -/
def trustPass2 : List Nat := adamW.take 18 ++ [0x14A5F800] ++ adamW.drop 18

/-- The shipped instruction words by index. -/
def shippedWords : List (Nat × Nat) :=
  let at' := fun (base : Nat) (l : List Nat) => l.zipIdx.map fun x => (base + x.2, x.1)
  at' 0 adamW ++ at' 32 (sgdMomentum.map LaneOp.word) ++ at' 48 (lionSign.map LaneOp.word) ++
  at' 64 trustPass1 ++ at' 96 trustPass2

/-- The shipped slot values. -/
def shippedSlots : List (Nat × Nat) :=
  [(0, 0x000000040000A800), (1, 0x0000000400005020), (2, 0x0000000400007030), (3, 0x0000000560C09840)]

/-- Ranger firmware loads the shipped programs (R101, R357). -/
def State.loadPrograms (s : State) : State :=
  let s := s.each shippedWords fun s x =>
    let a := R.STP_PMEM (x.1 / 2)
    s.setReg a (fput (s.reg a) ⟨32 * (x.1 % 2), 32⟩ x.2)
  s.each shippedSlots fun s x => s.setReg (R.STP_SLOT x.1) (BitVec.ofNat 64 x.2)

/-! ## The engine's scalars (R100, R102) -/

/-- A binary64 value with the exceptions raised so far. -/
abbrev Fx := Nat × Exc

/-- A binary64 operation on values with exceptions. -/
def fx2 (f : Nat → Nat → Nat × Exc) (a b : Fx) : Fx := ((f a.1 b.1).1, (f a.1 b.1).2 ||| a.2 ||| b.2)

/-- The rounding of a value with exceptions to binary32 (R100). -/
def fxTo32 (a : Fx) : F32 × Exc := (BitVec.ofNat 32 (toB32 a.1).1, (toB32 a.1).2 ||| a.2)

/-- A whole number in binary64. -/
def fxNat (n : Nat) : Fx := (natB64 n, 0)

/-- A binary32 value in binary64. -/
def fxOf32 (x : F32) : Fx := toB64 x.toNat

/-- A binary64 square root of a value with exceptions. -/
def fxSqrt (a : Fx) : Fx := ((b64.sqrt a.1).1, (b64.sqrt a.1).2 ||| a.2)

/-- The loop of R100 for βᵗ over the bits of t. -/
def powGo : Nat → Nat → Fx → Fx → Fx
  | 0, _, _, r => r
  | n + 1, t, pw, r =>
    if t = 0 then r
    else
      let r := if t % 2 = 1 then fx2 b64.mul r pw else r
      if t / 2 = 0 then r else powGo n (t / 2) (fx2 b64.mul pw pw) r

/-- βᵗ (R100). -/
def powB (beta : F32) (t : Nat) : Fx := powGo 64 t (fxOf32 beta) (fxNat 1)

/-- S12, CLIP (R100). -/
def scalarClip (s5 : F32) (sumsq : F64) (c : Nat) : F32 × Exc :=
  let c1 := fxNat (c + 1)
  if s5.toNat % 2 ^ 31 = 0 ∨ sumsq.toNat % 2 ^ 63 = 0 then fxTo32 (fx2 b64.div (fxNat 1) c1)
  else
    let a := fx2 b64.div (fxSqrt (sumsq.toNat, 0)) c1
    fxTo32 (fx2 b64.div (fx2 b64.minOp (fxNat 1) (fx2 b64.div (fxOf32 s5) a)) c1)

/-- S13 and S14, the bias corrections (R100). -/
def scalarBias (beta : F32) (t : Nat) : F32 × Exc :=
  let d := fx2 b64.sub (fxNat 1) (powB beta t)
  if d.1 % 2 ^ 63 = 0 then (BitVec.ofNat 32 (toB32 (natB64 1)).1, d.2)
  else fxTo32 (fx2 b64.div (fxNat 1) d)

/-- Whether a binary64 value is above zero and finite. -/
def posFinite (x : F64) : Bool := 0 < x.toNat && x.toNat < b64.inf

/-- The trust ratio of a layer (R102). -/
def trustRatio (w2 u2 : F64) (s8 : F32) : F32 × Exc :=
  if posFinite w2 && posFinite u2 then
    let tr := fx2 b64.div (fxSqrt (w2.toNat, 0)) (fxSqrt (u2.toNat, 0))
    let above := 0 < s8.toNat && s8.toNat ≤ b32.inf
    fxTo32 (if above then fx2 b64.minOp tr (fxOf32 s8) else tr)
  else (BitVec.ofNat 32 (toB32 (natB64 1)).1, 0)

/-! ## The rows -/

/-- END (R96). -/
def execStepEnd (s : State) : Host.Outcome State Fault Refusal := .next (s.laneStep .fin)
/-- LD (R96). -/
def execStepLd (d : Fin 16) (cls : Fin 4) (s : State) : Host.Outcome State Fault Refusal := .next (s.laneStep (.ld d cls))
/-- ST (R96, R118). -/
def execStepSt (cls : Fin 3) (a : Operand) (s : State) : Host.Outcome State Fault Refusal :=
  .next (s.laneStep (.st cls a))
/-- ADD (R96, R117). -/
def execStepAdd (d : Fin 16) (a b : Operand) (s : State) : Host.Outcome State Fault Refusal :=
  .next (s.laneStep (.add d a b))
/-- SUB (R96, R117). -/
def execStepSub (d : Fin 16) (a b : Operand) (s : State) : Host.Outcome State Fault Refusal :=
  .next (s.laneStep (.sub d a b))
/-- MUL (R96, R117). -/
def execStepMul (d : Fin 16) (a b : Operand) (s : State) : Host.Outcome State Fault Refusal :=
  .next (s.laneStep (.mul d a b))
/-- FMA (R96, R117). -/
def execStepFma (d : Fin 16) (a b c : Operand) (s : State) : Host.Outcome State Fault Refusal :=
  .next (s.laneStep (.fma d a b c))
/-- FNMA (R96, R117). -/
def execStepFnma (d : Fin 16) (a b c : Operand) (s : State) : Host.Outcome State Fault Refusal :=
  .next (s.laneStep (.fnma d a b c))
/-- DIV (R96, R117). -/
def execStepDiv (d : Fin 16) (a b : Operand) (s : State) : Host.Outcome State Fault Refusal :=
  .next (s.laneStep (.div d a b))
/-- SQRT (R96, R117). -/
def execStepSqrt (d : Fin 16) (a : Operand) (s : State) : Host.Outcome State Fault Refusal :=
  .next (s.laneStep (.sqrt d a))
/-- MAX (R96, R117). -/
def execStepMax (d : Fin 16) (a b : Operand) (s : State) : Host.Outcome State Fault Refusal :=
  .next (s.laneStep (.max d a b))
/-- MIN (R96, R117). -/
def execStepMin (d : Fin 16) (a b : Operand) (s : State) : Host.Outcome State Fault Refusal :=
  .next (s.laneStep (.min d a b))
/-- SIGN (R96, R117). -/
def execStepSign (d : Fin 16) (a : Operand) (s : State) : Host.Outcome State Fault Refusal :=
  .next (s.laneStep (.sign d a))
/-- SQACC0 (R91, R96). -/
def execStepSqacc0 (a : Operand) (s : State) : Host.Outcome State Fault Refusal := .next (s.laneStep (.sqacc0 a))
/-- SQACC1 (R91, R96). -/
def execStepSqacc1 (a : Operand) (s : State) : Host.Outcome State Fault Refusal := .next (s.laneStep (.sqacc1 a))
/-- MOV (R96, R117). -/
def execStepMov (d : Fin 16) (a : Operand) (s : State) : Host.Outcome State Fault Refusal :=
  .next (s.laneStep (.mov d a))

/-- PROGRAM_SLOT_WRITE: a write to STP_SLOT (R97). -/
def execProgramSlotWrite (slot : Fin 256) (value : Word) (s : State) : Host.Outcome State Fault Refusal :=
  .next (s.inMain fun s => s.writeSlot slot.val value)

/-- PMEM_WRITE: a write to STP_PMEM (R97). -/
def execPmemWrite (w : Fin 1024) (value : Word) (s : State) : Host.Outcome State Fault Refusal :=
  .next (s.inMain fun s => s.writePmem w.val value)

end Sys2Proof.Machine
end

