-- ==== Sys2Proof/Machine/Glade.lean ====
section
/-! DEFINITION. The rows GLADE_ENABLE, GLADE_DISABLE, JOIN and JOIN_RESEND: the enable checks (R27, R40, R41), the policy
(R337), the disable (R26), grove join (R358, R359); and the fence as one operation (R172). -/
namespace Sys2Proof.Machine

/-! ## The enable checks (R27) -/

/-- The minimum size of region x that R40 requires, in 4 KiB units; 0 for a region that is not required, for region 4 and
for region 9, which have their own checks. -/
def State.minRegion (s : State) (g x bloc : Nat) : Nat :=
  let mu := s.moments g
  match x with
  | 0 => bloc
  | 1 => if 1 ≤ mu then bloc else 0
  | 2 => if mu = 2 then bloc else 0
  | 3 => (bloc + 255) / 256
  | 5 => (bloc + 1) / 2
  | 6 => bloc
  | 7 => 2
  | 8 => if s.exact g then 2 else 0
  | _ => 0

/-- The present regions of glade g as (base, size) in 4 KiB units, by region number. -/
def State.presentRegions (s : State) (g : Nat) : List (Nat × Nat × Nat) :=
  ((List.range 10).map fun x => (x, s.regionBase g x / 4096, s.regionSize g x)).filter fun r => r.2.2 != 0

/-- Whether two regions of this glade overlap, or one overlaps a region of another active glade. -/
def State.regionsClash (s : State) (g : Nat) : Bool :=
  let own := s.presentRegions g
  let others := (s.activeGlades.filter (· != g)).flatMap s.presentRegions
  own.any fun r =>
    own.any (fun o => r.1 != o.1 && overlaps r.2.1 r.2.2 o.2.1 o.2.2) ||
    others.any (fun o => overlaps r.2.1 r.2.2 o.2.1 o.2.2)

/-- Whether an entry of the layer table is invalid (R29, R98). -/
def State.badLayer (s : State) (g l : Nat) : Bool :=
  s.layerParams g l == 0 || bitsOf (s.layerWord g l) 49 15 != 0 || !s.slotHolds g (s.layerProg g l)

/-- Whether the layer table cannot be read whole or holds an invalid entry: check 6. A table that a memory port cannot
read counts as one that cannot be read (DEDUCED, assumption 21). -/
def State.badTable (s : State) (g : Nat) : Bool :=
  let n := s.layers g
  n == 0 || 16384 < n || s.regionSize g 9 < (n + 511) / 512 || !s.served (s.regionBase g 9) (8 * n) ||
  (List.range n).any (s.badLayer g)

/-- The code of the first failing check, 0 when every check passes, in the order of R27. (DEDUCED, assumption 21.) -/
def State.enableErr (s : State) (g : Nat) : Nat :=
  let k := s.rd (R.GLD_CTL g) F.GLD_CTL_K
  let m := s.rd (R.GLD_CTL g) F.GLD_CTL_M
  let present := s.presentRegions g
  if k < 2 || 28 < k || m < 1 || 4 < m || 32 < k + m then 1
  else if s.moments g = 3 then 2
  else if s.members g ≤ s.lmn g then 3
  else if present.any fun r => s.memTop < r.2.1 + r.2.2 then 5
  else if s.regionsClash g then 6
  else if s.badTable g then 7
  else
    let bloc := s.blocOf g (s.members g) (s.lmn g)
    let short := fun x => s.regionSize g x < s.minRegion g x bloc
    if (List.range 9).any fun x => s.regionSize g x == 0 && short x then 4
    else if (List.range 9).any short then 8
    else 0

/-- SPM of glade g as R136 takes it. -/
def State.spm (s : State) (g : Nat) : Nat := max 1 (min 16 (s.rd (R.CQ_GSRC g) F.CQ_GSRC_SPM))

/-- A field of the Warn record about a policy (R337). -/
def State.policyWarn (s : State) (g : Nat) (f : Fld) : State :=
  s.record ((ev Sev.warn Src.gld g).field R.FUS_POLICY f)

/-- The bits that R27 gives the descriptor when the enable passes: ACTIVE, HASH, BLOCKS, DLEAVES, ENERR 0, and N of R136;
the phase context is reset (R53) and the engines of the glade start empty. -/
def State.activate (s : State) (g : Nat) : State :=
  let bloc := s.blocOf g (s.members g) (s.lmn g)
  let table := s.readBytes (s.regionBase g 9) (8 * s.layers g)
  let s := s.wr (R.GLD_CTL g) F.GLD_CTL_EN 1
  let s := (s.wr (R.GLD_STATUS g) F.GLD_STATUS_ACTIVE 1).wr (R.GLD_STATUS g) F.GLD_STATUS_ENERR 0
  let s := s.setReg (R.GLD_LAYERHASH g) (BitVec.ofNat 64 (leNat ((digestBytes (Config.sha384 table)).take 8)))
  let s := (s.wr (R.GLD_SIZE g) F.GLD_SIZE_BLOCKS bloc).wr (R.GLD_SIZE g) F.GLD_SIZE_DLEAVES (leavesOf (s.moments g) bloc)
  let s := s.wr (R.CQ_GSRC g) F.CQ_GSRC_N (s.members g * s.spm g)
  (s.updGl g fun _ => GladeState.reset).resetPhase g

/-- Validates a glade and activates it, or records the refusal (R27). -/
def State.validate (s : State) (g : Nat) : State :=
  let e := s.enableErr g
  if e = 0 then s.activate g
  else (s.wr (R.GLD_STATUS g) F.GLD_STATUS_ENERR e).record
    (((ev Sev.warn Src.gld g).field (R.GLD_STATUS g) F.GLD_STATUS_ENERR).coded e)

/-! ## Grove join (R358, R359) -/

/-- The JOIN of this member. -/
def State.ownJoin (s : State) (g : Nat) : JoinMsg where
  lmn := s.lmn g
  pnid := s.pnid
  hash := s.reg (R.GLD_LAYERHASH g)
  mode := bit (s.exact g)
  moments := s.moments g
  k := s.rd (R.GLD_CTL g) F.GLD_CTL_K
  m := s.rd (R.GLD_CTL g) F.GLD_CTL_M
  s := s.members g
  spm := s.spm g
  d := s.rd (R.GLD_SIZE g) F.GLD_SIZE_DLEAVES
  region4 := s.regionSize g 4
  ring := s.ring g

/-- The operands of a JOIN message. -/
def JoinMsg.args (j : JoinMsg) : List Nat :=
  [j.lmn, j.pnid, j.hash.toNat, j.mode, j.moments, j.k, j.m, j.s, j.spm, j.d, j.region4, j.ring]

/-- Whether a link is active. -/
def State.linkActive (s : State) (p : Nat) : Bool :=
  let st := s.rd (R.LNK_STATUS p) F.LNK_STATUS_STATE
  st == 2 || st == 3

/-- The conditions of R358 that are missing: 1 no key, 2 sealing waits, 3 no active link. -/
def State.joinLacks (s : State) (g : Nat) : List Nat :=
  (if (s.keyCur g).isNone then [1] else []) ++ (if s.sealReady then [] else [2]) ++
  (if (List.range 32).any s.linkActive then [] else [3])

/-- The register field that names a missing condition. -/
def lackField (g c : Nat) : Nat × Fld :=
  if c = 1 then (R.SEC_KSLOT g, F.SEC_KSLOT_VALID)
  else if c = 2 then (R.SEC_STATUS, F.SEC_STATUS_NOSEAL)
  else (R.LNK_STATUS 0, F.LNK_STATUS_STATE)

/-- The members whose JOIN has not come. -/
def State.absentJoins (s : State) (g : Nat) : List Nat :=
  (List.range (s.members g)).filter fun i => !(s.gl g).joins.any fun j => j.1 == i

/-- ABSENT follows the JOINs that are held. -/
def State.refreshAbsent (s : State) (g : Nat) : State :=
  s.wr (R.GRV_JOIN g) F.GRV_JOIN_ABSENT (s.absentJoins g).length

/-- Sends this member's JOIN to a list of members. -/
def State.sendJoin (s : State) (g : Nat) (l : List Nat) : State := s.toMembers g l "JOIN" (s.ownJoin g).args

/-- The member map's entry of an LMN of glade g (R286). -/
def State.memberEntry (s : State) (g lmn : Nat) : MapEntry :=
  s.mapEntry ((s.rd (R.RTR_MAPCFG g) F.RTR_MAPCFG_BASE + lmn) % 65536)

/-- The first failing check of R359 of a JOIN against the JOIN of LMN 0, 0 when it passes. -/
def State.joinCause (s : State) (g : Nat) (z j : JoinMsg) : Nat :=
  let n := j.k + j.m
  let least := j.m * ((s.dmaxOf g j.s j.lmn n + j.k - 1) / j.k)
  let e := s.memberEntry g j.lmn
  if j.hash ≠ z.hash then 1
  else if j.mode ≠ z.mode ∨ j.moments ≠ z.moments ∨ j.k ≠ z.k ∨ j.m ≠ z.m ∨ j.ring ≠ z.ring then 2
  else if j.s ≠ z.s ∨ j.s % n ≠ 0 then 3
  else if j.region4 < least then 4
  else if e.pnid ≠ j.pnid ∨ e.valid = false ∨ (s.gl g).joins.any (fun x => x.2.lmn == j.lmn && x.2.pnid != j.pnid) then 5
  else if j.spm ≠ z.spm then 6
  else 0

/-- This member is refused: STATE 3, CAUSE and a Fault record. -/
def State.refuseSelf (s : State) (g cause : Nat) : State :=
  let s := (s.wr (R.GRV_JOIN g) F.GRV_JOIN_STATE 3).wr (R.GRV_JOIN g) F.GRV_JOIN_CAUSE cause
  s.record ((((ev Sev.fault Src.grv g).field (R.GRV_JOIN g) F.GRV_JOIN_CAUSE).coded cause).about (s.lmn g))

/-- Checks every held JOIN once that of LMN 0 is there: a JOIN of another member that fails is dropped, and this member's
own failure refuses it. -/
def State.checkJoins (s : State) (g : Nat) : State :=
  match (s.gl g).joins.find? fun j => j.1 == 0 with
  | none => s.refreshAbsent g
  | some z =>
    let own := s.joinCause g z.2 (s.ownJoin g)
    let mine := s.lmn g
    let s := s.updGl g fun e => { e with joins := e.joins.filter fun j => j.1 == mine || s.joinCause g z.2 j.2 == 0 }
    let s := s.refreshAbsent g
    if own ≠ 0 ∧ (s.gl g).joins.any (fun j => j.1 == mine) then s.refuseSelf g own else s

/-- Starts or retries the join of an enabled glade: STATE 1 and a Warn record for each missing condition; when none is
missing the JOIN goes to every other member (R358). -/
def State.startJoin (s : State) (g : Nat) : State :=
  let s := s.wr (R.GRV_JOIN g) F.GRV_JOIN_STATE 1
  let lacks := s.joinLacks g
  let s := s.each lacks fun s c => s.record (((ev Sev.warn Src.grv g).field (lackField g c).1 (lackField g c).2))
  if lacks.isEmpty then
    let own := s.ownJoin g
    let s := s.updGl g fun e => { e with joins := (e.joins.filter fun j => j.1 != own.lmn) ++ [(own.lmn, own)] }
    (s.sendJoin g (s.otherMembers g)).checkJoins g
  else s.refreshAbsent g

/-- An enable by a write of EN (R27, R337, R413): what the policy or a failed step partition forbids is ignored; otherwise
the glade is validated, an empty key slot is warned of (R328), and the glade loads its shard (R233) or joins. -/
def State.gladeEnable (s : State) (g : Nat) : State :=
  let gmax := s.rd R.FUS_POLICY F.FUS_POLICY_GMAX
  let gmax := if gmax = 0 then 16 else gmax
  let n := s.activeGlades.length
  if s.on (R.GLD_CTL g) F.GLD_CTL_EN then s
  else if s.ao.failed.contains 74 then s.record ((ev Sev.warn Src.gld g).field R.TST_FAILX F.TST_FAILX_OTHERS)
  else if s.on R.FUS_POLICY F.FUS_POLICY_XTENANT && 1 ≤ n then s.policyWarn g F.FUS_POLICY_XTENANT
  else if gmax ≤ n then s.policyWarn g F.FUS_POLICY_GMAX
  else
    let s := s.validate g
    if !s.active g then s
    else
      let s := if (s.keyCur g).isNone then s.record ((ev Sev.warn Src.gld g).field (R.SEC_KSLOT g) F.SEC_KSLOT_VALID) else s
      if s.on (R.GLD_SBCTL g) F.GLD_SBCTL_LOADALL then
        let s := s.wr (R.GLD_SBSTAT g) F.GLD_SBSTAT_LEFT (s.bloc g)
        if s.bloc g = 0 then (s.wr (R.GLD_SBCTL g) F.GLD_SBCTL_LOADALL 0).startJoin g
        else s.wr (R.GLD_SBSTAT g) F.GLD_SBSTAT_RESTORE 1
      else s.startJoin g

/-- A disable by a write of EN = 0 (R26): ignored and recorded while the member belongs to a grove. -/
def State.gladeDisable (s : State) (g : Nat) : State :=
  if !s.on (R.GLD_CTL g) F.GLD_CTL_EN then s
  else if s.inGrove g && !s.on (R.STP_GSTAT g) F.STP_GSTAT_EVICTED && !(s.gl g).dissolved then
    s.record ((ev Sev.warn Src.gld g).field (R.GLD_CTL g) F.GLD_CTL_EN)
  else
    let s := (s.wr (R.GLD_CTL g) F.GLD_CTL_EN 0).wr (R.GLD_STATUS g) F.GLD_STATUS_ACTIVE 0
    let s := (s.resetReg (R.GRV_JOIN g)).updGl g fun _ => GladeState.reset
    { s.resetPhase g with frames := s.frames.filter fun f => f.glade != g }

/-- GLADE_ENABLE: a write of 1 to EN with the other fields unchanged (R27). -/
def execGladeEnable (g : GladeId) (s : State) : Host.Outcome State Fault Refusal :=
  .next (s.inMain fun s => s.gladeEnable g.val)

/-- GLADE_DISABLE: a write of 0 to EN with the other fields unchanged (R26). -/
def execGladeDisable (g : GladeId) (s : State) : Host.Outcome State Fault Refusal :=
  .next (s.inMain fun s => s.gladeDisable g.val)

/-- JOIN: a JOIN for a glade that is not enabled is discarded; a JOIN that is already held is answered with this member's
own; any other is kept and checked (R358, R359). -/
def execJoin (g : GladeId) (j : JoinMsg) (s : State) : Host.Outcome State Fault Refusal :=
  .next (s.inMain fun s =>
    if !s.on (R.GLD_CTL g.val) F.GLD_CTL_EN then s
    else if (s.gl g.val).joins.contains (j.lmn, j) then s.sendJoin g.val [j.lmn]
    else if s.rd (R.GRV_JOIN g.val) F.GRV_JOIN_STATE = 2 ∨ s.members g.val ≤ j.lmn then s
    else (s.updGl g.val fun e => { e with joins := e.joins ++ [(j.lmn, j)] }).checkJoins g.val)

/-- JOIN_RESEND: every second while the join waits, the missing conditions or the missing members are reported and the
JOIN goes again to every member whose JOIN has not come (R358). -/
def execJoinResend (g : GladeId) (s : State) : Host.Outcome State Fault Refusal :=
  .next (s.inMain fun s =>
    if s.rd (R.GRV_JOIN g.val) F.GRV_JOIN_STATE ≠ 1 then s
    else if !(s.gl g.val).joins.any (fun j => j.1 == s.lmn g.val) then s.startJoin g.val
    else
      let l := s.absentJoins g.val
      if l.isEmpty then s
      else
        let s := s.record (((ev Sev.warn Src.grv g.val).field (R.GRV_JOIN g.val) F.GRV_JOIN_ABSENT))
        s.sendJoin g.val l)

/-! ## The fence (R172) -/

/-- Halts a queue at a descriptor (R137, R143): STATE 3, CODE, HEAD, TAG, and its IRQQ bit. -/
def State.haltQueue (s : State) (q index code tag : Nat) : State :=
  let w := putAll (s.reg (R.CQ_QSTAT q)) [(F.CQ_QSTAT_STATE, 3), (F.CQ_QSTAT_CODE, code), (F.CQ_QSTAT_HEAD, index),
    (F.CQ_QSTAT_TAG, tag)]
  (s.setReg (R.CQ_QSTAT q) w).setMask R.CQ_STATUS F.CQ_STATUS_IRQQ q

/-- The glade of a fetched descriptor. -/
def Desc.glade (d : Desc) : Nat := bitsOf (d.words.getD 0 0).toNat 12 4

/-- The software tag of a fetched descriptor. -/
def Desc.tag (d : Desc) : Nat := bitsOf (d.words.getD 7 0).toNat 0 32

/-- Halts every queue that has a started descriptor of glade g, with CODE 5 (R157). -/
def State.haltGladeQueues (s : State) (g : Nat) : State :=
  s.each (List.range 16) fun s q =>
    match (s.qu q).descs.find? fun d => d.started && !d.completed && d.glade == g with
    | some d => s.haltQueue q d.index 5 d.tag
    | none => s

/-- Drops a plan's next shape on this member (R214): VALID 0, every next-code leaf and journal entry discarded, STATE 4. -/
def State.dropNextShape (s : State) (g : Nat) : State :=
  if (s.gl g).plan.isNone then s
  else
    let s := { s with frames := s.frames.filter fun f => !(f.glade == g && f.region == 10) }
    let s := s.wr (R.GRV_NEXTCFG g) F.GRV_NEXTCFG_VALID 0
    let s := (s.wr (R.GRV_CPSTAT g) F.GRV_CPSTAT_STATE 4).resetReg (R.GRV_CPPROG g)
    s.updGl g fun e => { e with
      plan := none, abortAsked := false, copied := [], handovers := [], shadowsIn := [], shadowEndsIn := [], endsSent := false, saplings := [],
      rowLocks := [], arrived := [], nextUnbuilt := [], nextFoldUsed := 0, nextUndoUsed := 0,
      building := [], heldDeltas := [], nextLedgerOld := [], nextFlushed := false, nextFoldTip := 0, nextUndoTip := 0,
      staleSent := e.staleSent.filter (!·.next),
      folds := e.folds.filter (!·.next), undo := e.undo.filter (!·.next), copies := e.copies.filter (!·.next) }

/-- The fence of this node's member of glade g (R172): its queues halt, HOLD = 1, FENCED, STATE 6, FIREBREAK_OUT, a Fault
record and the fence notices. Memory stays as it stands. -/
def State.fence (s : State) (g : Nat) : State :=
  if s.fenced g then s
  else
    let peers := s.grovePeers g
    let vis := s.rd (R.GRV_MSTAT g) F.GRV_MSTAT_VIS
    let s := s.toMembers g peers "FENCE" [g, s.lmn g]
    let s := ((s.haltGladeQueues g).setHold g true).setMstate g 6
    let s := s.setMask R.GRV_FENCE F.GRV_FENCE_FENCED g
    let s := (s.wr R.GRV_FENCE F.GRV_FENCE_LASTG g).wr R.GRV_FENCE F.GRV_FENCE_VIS vis
    let s := { s with ao := { s.ao with firebreak := true } }
    let s := if (s.gl g).agreement.isSome then s.wr R.GRV_WIT F.GRV_WIT_ACTIVE 0 else s
    let s := s.wr (R.GLD_SBSTAT g) F.GLD_SBSTAT_SWEEP 0
    let s := (s.updGl g fun e => { e with
      agreement := none, sweep := none, wrapPending := false, serving := [], standIn := none, reads := [],
      clearWaits := [] }).dropNextShape g
    s.record ((ev Sev.fault Src.grv g).field R.GRV_FENCE F.GRV_FENCE_FENCED)

end Sys2Proof.Machine
end

