-- ==== Sys2Proof/Machine/Memory.lean ====
section
/-! DEFINITION. The rows of the memory ports: MP_RESPONSE, MP_TIMEOUT, PORT_DOWN, WRITE_WATCH_REPORT, WATCH_OVERFLOW,
REPAIR_WALK and SRAM_PARITY_ERROR (R295 to R307, R453), with the encoding of a parity leaf that repairs share (R183). -/
namespace Sys2Proof.Machine

/-! ## Port responses (R295, R296, R453) -/

/-- One request less is outstanding. -/
def State.portDone (s : State) (q : Nat) (write : Bool) : State :=
  let f := if write then F.MPT_STAT_OUTWR else F.MPT_STAT_OUTRD
  s.wr (R.MPT_STAT q) f (s.rd (R.MPT_STAT q) f - 1)

/-- Halts a queue whose read failed, at its oldest started descriptor, or at HEAD with TAG zero where none has started
(R143 code 10). -/
def State.queueReadFailed (s : State) (q : Nat) : State :=
  match (s.qu q).descs.find? fun d => d.started && !d.completed with
  | some d => s.haltQueue q d.index 10 d.tag
  | none => s.haltQueue q (s.rd (R.CQ_QSTAT q) F.CQ_QSTAT_HEAD) 10 0

/-- What the unit that made a failed read does (R453), beside the outcome by region. -/
def State.useFailed (s : State) (u : MpUse) : State :=
  match u with
  | .foldParity g p => (s.dropFold g.val false p).markStale g.val p
  | .descriptor q => s.queueReadFailed q.val
  | .staging _ => s
  | .rowRead _ _ => s
  | .other => s

/-- A failed access at a port (R296): a read has the outcome of its region and of its unit; a write is issued once more,
and a second failure is an UNCORR read of the line. -/
def State.accessFailed (s : State) (q : Nat) (write : Bool) (line : Nat) (u : MpUse) : State :=
  let o := offsetOfLine q line
  if write then
    let s := s.inc (R.MPT_ERR q) F.MPT_ERR_WERR
    if (s.pt q).retried.contains line then
      (s.updPt q fun p => { p with retried := p.retried.erase line }).lineFailed q o
    else (s.updPt q fun p => { p with retried := p.retried ++ [line] }).send (.port q "WRITE" [line])
  else (s.lineFailed q o).useFailed u

/-- A response (R295): counted by its status. -/
def State.mpResponse (s : State) (q : Nat) (write : Bool) (line : Nat) (u : MpUse) (st : MpStatus) : State :=
  let s := s.portDone q write
  match st with
  | .ok => if write then s.updPt q fun p => { p with retried := p.retried.erase line } else s
  | .corr =>
    let s := s.inc (R.MPT_ERR q) F.MPT_ERR_CORR
    if write then s.updPt q fun p => { p with retried := p.retried.erase line } else s
  | .uncorr => (s.inc (R.MPT_ERR q) F.MPT_ERR_UNCORR).accessFailed q write line u
  | .addrErr => (s.inc (R.MPT_ERR q) F.MPT_ERR_UNCORR).accessFailed q write line u

/-- The port becomes DOWN, and Ranger announces the departure of this node's members (R296, R162 source 4). -/
def State.portDown (s : State) (q : Nat) : State :=
  if s.on (R.MPT_STAT q) F.MPT_STAT_DOWN then s
  else
    let s := s.wr (R.MPT_STAT q) F.MPT_STAT_DOWN 1
    s.each ((List.range 16).filter s.inGrove) fun s g => s.toMembers g (s.grovePeers g) "DEPARTURE" [g, s.lmn g]

/-- A request without a response in 100 µs (R296). -/
def State.mpTimeout (s : State) (q : Nat) (write : Bool) (line : Nat) (u : MpUse) : State :=
  let s := (s.portDone q write).inc (R.MPT_ERR q) F.MPT_ERR_TMO
  let s := s.record (((ev Sev.fault Src.mpt q).field (R.MPT_ERR q) F.MPT_ERR_TMO).about line)
  let recent := ((s.pt q).timeouts ++ [s.now]).filter fun t => s.now < t + 1000
  let s := (s.updPt q fun p => { p with timeouts := recent }).accessFailed q write line u
  if 16 ≤ recent.length then s.portDown q else s

/-- MP_RESPONSE (R295, R296, R453). -/
def execMpResponse (q : PortId) (write : Bool) (_tag : Nat) (line : BitVec 34) (use : MpUse) (status : MpStatus)
    (s : State) : Host.Outcome State Fault Refusal :=
  .next (s.inMain fun s => s.mpResponse q.val write line.toNat use status)

/-- MP_TIMEOUT (R296). -/
def execMpTimeout (q : PortId) (write : Bool) (_tag : Nat) (line : BitVec 34) (use : MpUse) (s : State) :
    Host.Outcome State Fault Refusal :=
  .next (s.inMain fun s => s.mpTimeout q.val write line.toNat use)

/-- PORT_DOWN: the controller's alive signal falls, or the timeouts say so (R296). -/
def execPortDown (q : PortId) (s : State) : Host.Outcome State Fault Refusal :=
  .next (s.inMain fun s => s.portDown q.val)

/-! ## Write watch (R298 to R300) -/

/-- A hit on a watched unit (R43): WWHIT, a Warn record with the unit, and the repair. A leaf that is staged in tile SRAM is
written back from there (R45), so that nothing awaits repair. -/
def State.watchHit (s : State) (q g x u : Nat) (staged : Bool) : State :=
  let s := (s.wr (R.GLD_STATUS g) F.GLD_STATUS_WWHIT 1).record
    (((ev Sev.warn Src.gld g).field (R.GLD_STATUS g) F.GLD_STATUS_WWHIT).about u)
  if staged then s.charge 2 0 32 0 else s.awaitUnit q g x u

/-- A report of one host write (R298). -/
def State.watchReport (s : State) (q line : Nat) (staged : Bool) : State :=
  let s := s.inc (R.MPT_WW q) F.MPT_WW_REPORTS
  let u := offsetOfLine q line / 4096
  match s.regionOfUnit u with
  | some (g, x) => if watchedRegion x then (s.inc (R.MPT_WW q) F.MPT_WW_HITS).watchHit q g x u staged else s
  | none => s

/-- The watched units between two unit numbers, as (glade, region, first, last), one entry per region. -/
def State.watchedIn (s : State) (a b : Nat) : List (Nat × Nat × Nat × Nat) :=
  s.activeGlades.flatMap fun g => (s.presentRegions g).filterMap fun r =>
    let lo := max a r.2.1
    let hi := min b (r.2.1 + r.2.2 - 1)
    if watchedRegion r.1 && lo ≤ hi then some (g, r.1, lo, hi) else none

/-- An overflow pair (R299): OVF, the two Warn records, and every watched unit of the range is treated as hit: each awaits
repair, the port keeping one range for them (R300). -/
def State.watchOverflow (s : State) (q lo hi : Nat) : State :=
  let s := s.inc (R.MPT_WW q) F.MPT_WW_OVF
  let e := (ev Sev.warn Src.mpt q).field (R.MPT_WW q) F.MPT_WW_OVF
  let a := lo / 4
  let b := hi / 4
  let s := (s.record ((e.coded 1).about a)).record ((e.coded 2).about b)
  let hits := s.watchedIn a b
  let s := s.each hits fun s h =>
    let s := s.wr (R.GLD_STATUS h.1) F.GLD_STATUS_WWHIT 1
    s.each (List.range' h.2.2.1 (h.2.2.2 + 1 - h.2.2.1)) fun s u => s.spoilUnit h.1 h.2.1 u
  if hits.isEmpty then s else s.updPt q fun p => p.addRange (a, b)

/-- WRITE_WATCH_REPORT (R298, R43, R45). -/
def execWriteWatchReport (q : PortId) (line : BitVec 34) (staged : Bool) (s : State) : Host.Outcome State Fault Refusal :=
  .next (s.inMain fun s => s.watchReport q.val line.toNat staged)

/-- WATCH_OVERFLOW (R299). -/
def execWatchOverflow (q : PortId) (lowest highest : BitVec 34) (s : State) : Host.Outcome State Fault Refusal :=
  .next (s.inMain fun s => s.watchOverflow q.val lowest.toNat highest.toNat)

/-! ## Encoding a parity leaf (R70, R183) -/

/-- Parity leaf p of this member takes the encoding of its row's data strings: it is written, and is neither stale nor
unbuilt nor awaiting rebuild any more; its fold bits are 0 (R183). -/
def State.encodeFrom (s : State) (g p : Nat) (data : List (List Byte)) : State :=
  let c := s.code g
  let j := p % max 1 c.m
  let s := (s.store (s.parityAddr g p) (encodeParityBytes 4096 j data)).charge 2 0 32 0 |>.countGf (s.homeTile p) 4096
  let s := (s.dropFold g false p).updGl g fun e => { e with
    stalePar := e.stalePar.erase p, unbuilt := e.unbuilt.erase p, building := e.building.erase (false, p),
    standIn := e.standIn.map fun r => { r with parityLeft := r.parityLeft.erase p } }
  (s.refreshStale g).refreshEras g

/-- The data strings of a row for an encoding: every data leaf answers, and none was written in the open ring. -/
def State.encodeData (s : State) (g row : Nat) (answers : List RowAnswer) : Option (List (List Byte)) :=
  if s.encodable g row 4096 answers then s.solveRow g row 4096 answers else none

/-! ## The repair walker (R300, R43, R44) -/

/-- The lowest unit that awaits repair at a port. -/
def PortState.lowest (p : PortState) : Option Nat := (p.singles ++ p.ranges.map (·.1)).min?

/-- A unit has been repaired: it leaves the single list, and a range that begins with it starts one unit later. -/
def PortState.passed (p : PortState) (u : Nat) : PortState :=
  { p with singles := p.singles.erase u,
           ranges := (p.ranges.map fun r => if r.1 == u then (r.1 + 1, r.2) else r).filter fun r => r.1 ≤ r.2 }

/-- Reconstructs a data leaf of this member from its row and writes it back (R43, R44); without k survivors the row is
deadfall (R46). -/
def State.repairData (s : State) (g v : Nat) (answers : List RowAnswer) : State :=
  let c := s.code g
  let row := c.rowOfLeaf c.slot v
  match s.solveRow g row 4096 (answers.filter fun a => a.slot != c.slot), c.dataIndex row c.slot with
  | some d, some i =>
    let s := (s.store (s.leafAddr g v) (d.getD i (zeros 4096))).charge 2 0 32 0
    (s.updGl g fun e => { e with repair := e.repair.erase v }).refreshEras g
  | _, _ => s.findDead g row

/-- Repairs one unit of a region: a data leaf is reconstructed, a parity leaf encoded again. An encoding that R183 refuses
leaves the unit waiting. -/
def State.repairUnit (s : State) (q g x u : Nat) (answers : List RowAnswer) : State :=
  let i := u - s.regionBase g x / 4096
  let done := fun s : State => s.updPt q fun p => p.passed u
  if !s.unitHolds g x u then done s
  else if x = 4 then
    let c := s.code g
    match s.encodeData g (c.rowOfParity c.slot i) answers with
    | some d => done (s.encodeFrom g i d)
    | none => s
  else
    let v := if x = 3 then (1 + s.moments g) * s.bloc g + i else s.valueLeaf g i x
    if (s.gl g).repair.contains v then done (s.repairData g v answers) else done s

/-- REPAIR_WALK: the walker repairs the lowest waiting unit of a port under class 2, which never gates a repair (R58,
R300). -/
def execRepairWalk (q : PortId) (rows : List RowAnswer) (s : State) : Host.Outcome State Fault Refusal :=
  .next (s.inMain fun s =>
    match (s.pt q.val).lowest with
    | none => s
    | some u => match s.regionOfUnit u with
      | some (g, x) => s.repairUnit q.val g x u rows
      | none => s.updPt q.val fun p => p.passed u)

/-! ## SRAM parity (R306, R307) -/

/-- Queues an entry for the record area (R362). -/
def State.queueEntry (s : State) (type : Nat) (payload : List Byte) : State :=
  { s with nvm := { s.nvm with recQueue := s.nvm.recQueue ++ [⟨type, slice payload 0 20⟩] } }

/-- What a dirty line's loss does to the leaf that the frame stages (R306). (DEDUCED, assumption 13.) -/
def State.dirtyLoss (s : State) (f : Frame4K) : State :=
  let s := { s with frames := s.frames.filter (· != f) }
  let i := f.unit - s.regionBase f.glade f.region / 4096
  if f.region = 4 then (s.dropFold f.glade false i).markStale f.glade i
  else if f.region = 10 then
    let i := f.unit - s.nextBase f.glade 4 / 4096
    (s.dropFold f.glade true i).updGl f.glade fun e => { e with nextUnbuilt := addOnce e.nextUnbuilt i }
  else if f.region = 5 then (s.roundAgain f.glade (2 * i)).roundAgain f.glade (2 * i + 1)
  else if f.region = 6 then s.bufferLost f.glade i
  else if watchedRegion f.region then s.awaitUnit 0 f.glade f.region f.unit
  else s

/-- A word that fails again within an hour is remapped to a free spare; without one its frame is retired, and the 33rd
retirement retires the tile (R307). (PRESUMED, assumption 12.) -/
def State.remapWord (s : State) (t w : Nat) : State :=
  match (List.range 16).find? fun x => !s.on (R.TIL_REMAP t x) F.TIL_REMAP_VALID with
  | some x =>
    let s := (s.wr (R.TIL_REMAP t x) F.TIL_REMAP_WORD w).wr (R.TIL_REMAP t x) F.TIL_REMAP_VALID 1
    let s := s.record (((ev Sev.note Src.til t).field (R.TIL_REMAP t x) F.TIL_REMAP_VALID).about w)
    s.queueEntry 2 (leBytes 1 t ++ leBytes 1 x ++ leBytes 2 w)
  | none =>
    if s.rd (R.TIL_SRAMSTAT t) F.TIL_SRAMSTAT_RETFR < 32 then
      let s := s.inc (R.TIL_SRAMSTAT t) F.TIL_SRAMSTAT_RETFR
      let s := s.record (((ev Sev.warn Src.til t).field (R.TIL_SRAMSTAT t) F.TIL_SRAMSTAT_RETFR).about w)
      s.queueEntry 3 (leBytes 1 t ++ leBytes 2 (w / 128))
    else
      let s := (s.wr (R.TIL_SRAMSTAT t) F.TIL_SRAMSTAT_RETIRED 1).updTl t fun x => { x with retiring := true }
      let s := s.record (((ev Sev.fault Src.til t).field (R.TIL_SRAMSTAT t) F.TIL_SRAMSTAT_RETIRED).about w)
      s.queueEntry 4 (leBytes 1 t)

/-- A word whose parity fails (R306, R307). (DEDUCED, assumption 13.) -/
def State.sramError (s : State) (t w : Nat) : State :=
  let s := (s.inc (R.TIL_PERR t) F.TIL_PERR_PERR).wr (R.TIL_PERR t) F.TIL_PERR_LASTWORD w
  let s := match (s.framesOf t)[w / 128]? with
    | some f =>
      if bitAt f.dirty.toNat (w % 128 / 4) then
        let s := (s.inc (R.TIL_PERR t) F.TIL_PERR_DIRTYLOSS).record
          (((ev Sev.warn Src.til t).field (R.TIL_PERR t) F.TIL_PERR_DIRTYLOSS).about w)
        s.dirtyLoss f
      else s
    | none => s
  let again := (s.tl t).errors.any fun e => e.1 == w && s.now < e.2 + 3600000000
  let s := s.updTl t fun x => { x with errors := (x.errors.filter fun e => e.1 != w) ++ [(w, s.now)] }
  if again then s.remapWord t w else s

/-- SRAM_PARITY_ERROR (R306, R307). A disabled or retired tile has no words in use. -/
def execSramParityError (t : TileId) (word : Fin 32768) (s : State) : Host.Outcome State Fault Refusal :=
  .next (s.inMain fun s => if s.tileDisabled t.val || s.tileRetired t.val then s else s.sramError t.val word.val)

end Sys2Proof.Machine
end

