-- ==== Sys2Proof/Machine/Budget.lean ====
section
/-! DEFINITION. The rows BUDGET_WINDOW, BUDGET_SET_WRITE, SCRUB_LINE, AUDIT_START and AUDIT_UNIT: the budget window (R308 to
R312), the scrubber (R315) and the grove audit (R316 to R319). -/
namespace Sys2Proof.Machine

/-! ## Budgets (R308 to R312) -/

/-- A share as R310 takes it: values above 256 count as 256. -/
def share (x : Nat) : Nat := min x 256

/-- A ceiling as R310 takes it: 0 counts as 1. -/
def ceiling (x : Nat) : Nat := max 1 (share x)

/-- A budget register's value as latched at the last window start (R310). -/
def State.latchedReg (s : State) (a : Nat) : Word := sget resetWord s.budget.latched a

/-- Floor of account c, 8 being account U, in a set, in 1/256. -/
def floorOf (w : Word) (c : Nat) : Nat := share (fget w (if c < 8 then F.BGT_SET_FLOOR else F.BGT_TOTAL_UFLOOR))

/-- The register that holds an account's limits in a set. -/
def limitReg (set c : Nat) : Nat := if c < 8 then R.BGT_SET set c else R.BGT_TOTAL set

/-- The floor in force of account c (R309, R310). -/
def State.floorNow (s : State) (c : Nat) : Nat := floorOf (s.latchedReg (limitReg s.budgetSet c)) c

/-- Whether a glade's apply has blocks left in the open ring (class 0). (DESIGN CHOICE, assumption 22.) -/
def State.applyWaits (s : State) (g : Nat) : Bool :=
  let st := s.rd (R.STP_GSTAT g) F.STP_GSTAT_STAGE
  (st == 3 || st == 4) && (s.gl g).applied.length + (s.gl g).notApplied.length < s.bloc g

/-- Whether account c has work waiting, as the state shows it (DESIGN CHOICE, assumption 22): the applies, deltas held for a build, repairs
and rebuilds, contributions and pulls, descriptors in progress, scrub and audit, sweeps and requests, publishes. -/
def State.workWaiting (s : State) (c : Nat) : Bool :=
  let gs := s.activeGlades
  match c with
  | 0 => gs.any s.applyWaits
  | 1 => gs.any fun g => !(s.gl g).heldDeltas.isEmpty
  | 2 => gs.any fun g =>
      let e := s.gl g
      !e.repair.isEmpty || !e.stalePar.isEmpty || !e.unbuilt.isEmpty ||
        (match e.standIn with
         | some r => !r.dataLeft.isEmpty || !r.parityLeft.isEmpty
         | none => false)
  | 3 => gs.any fun g => !(s.gl g).held.isEmpty || !(s.gl g).pulls.isEmpty
  | 4 => (List.range 16).any fun q => (s.qu q).descs.any fun d => d.started && !d.completed
  | 5 => (s.on R.BGT_SCRUB F.BGT_SCRUB_EN && !gs.isEmpty) || s.budget.audit.isSome
  | 6 => gs.any fun g => (s.gl g).sweep.isSome || !(s.gl g).wanted.isEmpty
  | 7 => gs.any fun g => (s.gl g).publish.isSome
  | _ => false

/-- The resources that an account's work needs (R308): read lines, write lines, router blocks. -/
def needs (c : Nat) : Bool × Bool × Bool :=
  match c with
  | 5 => (true, false, false)
  | 6 => (true, true, false)
  | _ => (true, true, true)

/-- Whether account c fell short of its floor of some resource in the window that ends (R312). -/
def State.fellShort (s : State) (c : Nat) : Bool :=
  let fl := s.floorNow c
  let a := s.account c
  let n := needs c
  s.workWaiting c &&
    ((n.1 && a.rd < fl * 32768 / 256) || (n.2.1 && a.wr < fl * 32768 / 256) || (n.2.2 && a.blk < fl * 65536 / 256))

/-- A window ends and the next starts (R309, R310): the accounts that fell short are flagged, the counters return to zero,
and the values of all four sets are latched. -/
def State.newWindow (s : State) : State :=
  let short := (List.range 8).filter s.fellShort
  let u := s.fellShort 8
  let s := s.each short fun s c => s.setMask R.BGT_SHORT F.BGT_SHORT_SHORT c
  let s := if u then s.wr R.BGT_SHORT F.BGT_SHORT_USHORT 1 else s
  { s with budget := { s.budget with
      accounts := [], latched := s.regs.filter fun c => R.BGT_SET 0 0 ≤ c.1 && c.1 ≤ R.BGT_TOTAL 3 } }

/-- Whether a set whose registers are read through `r` breaks R311. -/
def setBroken (r : Nat → Word) (set : Nat) : Bool :=
  let t := r (R.BGT_TOTAL set)
  let fl := (List.range 9).map fun c => floorOf (r (limitReg set c)) c
  (List.range 8).any (fun c => ceiling (fget (r (R.BGT_SET set c)) F.BGT_SET_CEIL) < floorOf (r (R.BGT_SET set c)) c) ||
  ceiling (fget t F.BGT_TOTAL_UCEIL) < floorOf t 8 || share (fget t F.BGT_TOTAL_TOTAL) < fl.sum

/-- A write of BGT_SET or BGT_TOTAL of a set: ignored and recorded when it would break R311. -/
def State.writeBudget (s : State) (set a : Nat) (v : Word) : State :=
  let w := writeByCode a (s.reg a) v
  s.guardedWrite (setBroken (fun x => if x = a then w else s.reg x) set) Src.bgt 0 a v

/-- BUDGET_WINDOW (R310). -/
def execBudgetWindow (s : State) : Host.Outcome State Fault Refusal := .next (s.inMain State.newWindow)

/-- BUDGET_SET_WRITE: a write to BGT_TOTAL of a set, or to BGT_SET of a set and class (R311). -/
def execBudgetSetWrite (total : Bool) (set : Fin 4) (cls : Fin 8) (value : Word) (s : State) :
    Host.Outcome State Fault Refusal :=
  .next (s.inMain fun s =>
    s.writeBudget set.val (if total then R.BGT_TOTAL set.val else R.BGT_SET set.val cls.val) value)

/-! ## The scrubber (R315) -/

/-- The byte ranges of regions 0 to 4 of every active glade. -/
def State.scrubRanges (s : State) : List (Nat × Nat) :=
  s.activeGlades.flatMap fun g => ((s.presentRegions g).filter fun r => r.1 ≤ 4).map fun r =>
    (4096 * r.2.1, 4096 * (r.2.1 + r.2.2))

/-- The first line to scrub from an offset on. -/
def State.scrubNext (s : State) (from' : Nat) : Option Nat :=
  (s.scrubRanges.filterMap fun r => if max from' r.1 < r.2 then some (max from' r.1) else none).min?

/-- Whether a line lies in a staged frame. -/
def State.lineStaged (s : State) (o : Nat) : Bool :=
  s.frames.any fun f => f.unit == o / 4096

/-- Moves the scrubber past a line; past the last one a pass has ended. -/
def State.scrubPast (s : State) (o : Nat) : State :=
  match s.scrubNext (o + 128) with
  | some n => { s with budget := { s.budget with scrubAt := n } }
  | none => State.inc { s with budget := { s.budget with scrubAt := 0 } } R.BGT_SCRUB F.BGT_SCRUB_PASSES

/-- Reads one line and acts on its status: a corrected line is written back, a failed one follows R296. -/
def State.scrub (s : State) (st : MpStatus) (line : List Byte) : State :=
  match s.scrubNext s.budget.scrubAt with
  | none => s
  | some o =>
    let s := s.scrubPast o
    if s.lineStaged o then s
    else
      let s := s.charge 5 1 0 0
      match st with
      | .ok => s
      | .corr => ((s.inc (R.MPT_ERR (portOf o)) F.MPT_ERR_CORR).store o (slice line 0 128)).charge 5 0 1 0
      | .uncorr => s.readFailed o
      | .addrErr => s.readFailed o

/-- SCRUB_LINE: the scrubber, for a glade that permits class 5, reads its next line (R315). -/
def execScrubLine (g : GladeId) (status : MpStatus) (line : List Byte) (s : State) : Host.Outcome State Fault Refusal :=
  .next (s.inMain fun s =>
    if s.on R.BGT_SCRUB F.BGT_SCRUB_EN && s.active g.val && s.permits g.val 5 then s.scrub status line else s)

/-! ## The grove audit (R316 to R319) -/

/-- The 28 bytes of a summary before its CRC (R318). -/
def State.auditBody (s : State) (a : AuditPass) : List Byte :=
  let g := a.glade
  [1] ++ leBytes 1 (g % 16) ++ leBytes 2 (s.lmn g / s.groveN g) ++ leBytes 4 a.rows ++ leBytes 4 a.bad ++
  leBytes 2 a.repaired ++ leBytes 2 a.unres ++ leBytes 4 a.startRing ++ leBytes 4 (s.openRing g + 2 ^ 64 - a.startRing) ++
  leBytes 2 a.deferredTwice ++ leBytes 1 a.epoch ++ leBytes 1 (s.code g).slot

/-- A pass ends: the summary is stored, recorded and sent as a trail message, and DONE is set (R318, R319). -/
def State.auditEnd (s : State) (a : AuditPass) : State :=
  let b := s.auditBody a
  let sum := b ++ leBytes 4 (crc32c b)
  let s := s.each (List.range 4) fun s w => s.setReg (R.BGT_AUDSUM w) (BitVec.ofNat 64 (leAt sum (8 * w) 8))
  let sev := if a.repaired = 0 ∧ a.unres = 0 then Sev.note else Sev.warn
  let s := (s.wr R.BGT_AUDCTL F.BGT_AUDCTL_DONE 1).record
    ((((ev sev Src.bgt 0).field R.BGT_AUDCTL F.BGT_AUDCTL_DONE).about (s.lmn a.glade / s.groveN a.glade)).ofGlade a.glade)
  let s := s.notice 1 sev sum
  { s with budget := { s.budget with audit := none } }

/-- Starts a pass of the glade that AUDCTL names (R319). -/
def State.auditStart (s : State) : State :=
  let g := s.rd R.BGT_AUDCTL F.BGT_AUDCTL_GLADE
  { s with budget := { s.budget with
      audit := some ⟨g, s.openRing g, (s.code g).epoch, 0, 0, 0, 0, [], 0, [], [], false⟩ } }

/-- A write of BGT_AUDCTL (R319): a write of EN = 1 starts a pass, EN = 0 ends the audit. -/
def State.writeAudctl (s : State) (v : Word) : State :=
  let s := s.plainWrite R.BGT_AUDCTL v
  if s.on R.BGT_AUDCTL F.BGT_AUDCTL_EN then s.auditStart else { s with budget := { s.budget with audit := none } }

/-- The syndromes of a line of a row: for each parity its line xor the encoding of the data lines (R316). -/
def State.syndromes (s : State) (g row : Nat) (answers : List RowAnswer) : List (List Byte) :=
  let c := s.code g
  let d := (List.range c.k).map fun i => ((s.dataOf g row 128 answers i).map (·.1)).getD (zeros 128)
  (List.range c.m).map fun j =>
    let p := ((survivorOf c answers (c.paritySlot row j)).map fun a => slice a.bytes 0 128).getD (zeros 128)
    xorBytes p (encodeParityBytes 128 j d)

/-- Whether data index i explains every offset with a non-zero syndrome (R317). -/
def dataExplains (syn : List (List Byte)) (i : Nat) : Bool :=
  (List.range 128).all fun o =>
    let s0 := (syn.getD 0 []).getD o 0
    let col := syn.map fun l => l.getD o 0
    col.all (· == 0) || (s0 != 0 && (col.zipIdx).all fun x => x.1 == gmul (coef x.2 i) s0)

/-- Whether parity j explains every offset with a non-zero syndrome. -/
def parityExplains (syn : List (List Byte)) (j : Nat) : Bool :=
  (syn.zipIdx).all fun x => x.2 == j || x.1.all (· == 0)

/-- The slots of the leaves that explain a line on their own (R317); virtual zero leaves are never candidates. -/
def State.explainers (s : State) (g row : Nat) (syn : List (List Byte)) : List Nat :=
  let c := s.code g
  ((List.range c.k).filter fun i => !s.isVirtual g (c.dataSlot row i) row && dataExplains syn i).map (c.dataSlot row) ++
  ((List.range c.m).filter (parityExplains syn)).map (c.paritySlot row)

/-- A leaf of a row is to be repaired (R317): this member's own awaits repair, another member is told. -/
def State.auditRepair (s : State) (g row slot : Nat) : State :=
  let c := s.code g
  if slot ≠ c.slot then s.toMember g (s.lmnOfSlot g slot) "AUDIT_REPAIR" [g, row]
  else match c.parityIndex row slot with
    | some j => s.updGl g fun e => { e with unbuilt := addOnce e.unbuilt (c.parityLeaf row j) }
    | none => s.awaitLeaf g (c.leafOfRow slot row)

/-- Every parity leaf of a row is to be encoded again (R317). -/
def State.auditEncode (s : State) (g row : Nat) : State :=
  s.each (List.range (s.code g).m) fun s j => s.auditRepair g row ((s.code g).paritySlot row j)

/-- The finding of one bad line (R317): exactly one leaf explains it and m ≥ 2, or the row's parity is encoded again. -/
def State.auditFinding (s : State) (a : AuditPass) (row : Nat) (syn : List (List Byte)) : State × AuditPass :=
  let g := a.glade
  let e := (ev Sev.warn Src.bgt 0).field (R.BGT_AUDSUM 1) ⟨32, 16⟩
  let grove := s.lmn g / s.groveN g
  match s.explainers g row syn with
  | [x] =>
    if 2 ≤ (s.code g).m then
      if a.leaves.contains (row, x) then (s, a)
      else ((s.auditRepair g row x).record ((e.about grove).ofGlade g),
        { a with repaired := min (a.repaired + 1) 0xFFFF, leaves := a.leaves ++ [(row, x)] })
    else if a.encoded.contains row then (s, a)
    else ((s.auditEncode g row).record (((e.withSev Sev.fault).about grove).ofGlade g),
      { a with unres := min (a.unres + 1) 0xFFFF, encoded := a.encoded ++ [row] })
  | _ =>
    if a.encoded.contains row then (s, a)
    else ((s.auditEncode g row).record (((e.withSev Sev.fault).about grove).ofGlade g),
      { a with unres := min (a.unres + 1) 0xFFFF, encoded := a.encoded ++ [row] })

/-- Whether an answer defers its row (R316): NEW, a non-zero FOLD, STALE, ERASED or BUSY. -/
def RowAnswer.defers (a : RowAnswer) : Bool := a.isNew || a.fold != 0 || a.isStale || a.isErased || a.isBusy

/-- The last row of this member's pass. -/
def State.auditLast (s : State) (g : Nat) : Nat := (s.code g).slot + s.groveN g * ((s.code g).groups - 1)

/-- After one unit: the pass goes on, or ends once its last row and every deferred row are done. -/
def State.auditNext (s : State) (a : AuditPass) : State :=
  if a.lastDone && a.deferred.isEmpty then s.auditEnd a
  else { s with budget := { s.budget with audit := some a } }

/-- One line of one row (R316): read, deferred, or judged by its syndromes. -/
def State.auditUnit (s : State) (a : AuditPass) (row line : Nat) (answers : List RowAnswer) : State :=
  let g := a.glade
  let s := s.charge 5 1 0 0
  let own := s.ownAnswer g row
  let all := ⟨own.slot, own.status, slice own.bytes (128 * line) 128⟩ :: answers
  let again := a.deferred.contains row
  let last := a.lastDone || row == s.auditLast g && line == 31
  if all.any RowAnswer.defers then
    if again then s.auditNext { a with deferred := a.deferred.erase row, deferredTwice := min (a.deferredTwice + 1) 0xFFFF }
    else s.auditNext { a with deferred := a.deferred ++ [row], lastDone := last || row == s.auditLast g }
  else
    let syn := s.syndromes g row all
    let a := if line = 31 then { a with rows := a.rows + 1, deferred := a.deferred.erase row, lastDone := last } else a
    if syn.all fun l => l.all (· == 0) then s.auditNext a
    else
      let r := s.auditFinding { a with bad := a.bad + 1 } row syn
      r.1.auditNext r.2

/-- AUDIT_START: a write of BGT_AUDCTL with EN = 1 (R319). -/
def execAuditStart (value : Word) (s : State) : Host.Outcome State Fault Refusal :=
  .next (s.inMain fun s => s.writeAudctl (value ||| 1))

/-- AUDIT_UNIT: one line of a row in which this member holds parity 0, where class 5 is permitted (R316). `rows` holds what
the other members of the row answered. A row put off waits for the end of the pass, and after the last row only those are left. -/
def execAuditUnit (row line : Nat) (rows : List RowAnswer) (s : State) : Host.Outcome State Fault Refusal :=
  .next (s.inMain fun s => match s.budget.audit with
    | some a =>
      if s.joined a.glade && s.permits a.glade 5 && row % s.groveN a.glade == (s.code a.glade).slot &&
          row < (s.code a.glade).rows && line < 32 && a.deferred.contains row == a.lastDone then s.auditUnit a row line rows
      else s
    | none => s)

end Sys2Proof.Machine
end

