-- ==== Sys2Proof/Machine/Queue.lean ====
section
/-! DEFINITION. The rows of the command queues (R137 to R143): QUEUE_DOORBELL, QUEUE_ENABLE, QUEUE_RESUME, QUEUE_SKIP,
DESCRIPTOR_FETCH, DESCRIPTOR_START, DESCRIPTOR_COMPLETE and MATCH_TIMEOUT. -/
namespace Sys2Proof.Machine

/-! ## Descriptors (R140) -/

/-- Word w of a descriptor. -/
def Desc.word (d : Desc) (w : Nat) : Nat := (d.words.getD w 0).toNat

/-- A field of a descriptor: word, lowest bit and width. -/
def Desc.fld (d : Desc) (w lo n : Nat) : Nat := bitsOf (d.word w) lo n

/-- OP (R141). -/
def Desc.op (d : Desc) : Nat := d.fld 0 0 8
/-- ALGO. -/
def Desc.algo (d : Desc) : Nat := d.fld 0 8 4
/-- FENCE. -/
def Desc.fence (d : Desc) : Bool := bitAt (d.word 0) 16
/-- LAST. -/
def Desc.last (d : Desc) : Bool := bitAt (d.word 0) 17
/-- ORDER. -/
def Desc.order (d : Desc) : Bool := bitAt (d.word 0) 18
/-- IRQ. -/
def Desc.irq (d : Desc) : Bool := bitAt (d.word 0) 19
/-- WTOK. -/
def Desc.wtok (d : Desc) : Nat := d.fld 0 32 8
/-- WEN. -/
def Desc.wen (d : Desc) : Bool := bitAt (d.word 0) 40
/-- STOK. -/
def Desc.stok (d : Desc) : Nat := d.fld 0 48 8
/-- SEN. -/
def Desc.sen (d : Desc) : Bool := bitAt (d.word 0) 56
/-- WVAL. -/
def Desc.wval (d : Desc) : Nat := d.fld 1 0 32
/-- CID. -/
def Desc.cid (d : Desc) : Nat := d.fld 1 32 32
/-- COUNT. -/
def Desc.count (d : Desc) : Nat := d.fld 2 0 40
/-- SRC. -/
def Desc.src (d : Desc) : Nat := d.fld 3 0 44
/-- DST. -/
def Desc.dst (d : Desc) : Nat := d.fld 4 0 44
/-- LAYER. -/
def Desc.layer (d : Desc) : Nat := d.fld 5 0 15
/-- SRCJ. -/
def Desc.srcj (d : Desc) : Nat := d.fld 5 16 4
/-- ROOT. -/
def Desc.root (d : Desc) : Nat := d.fld 5 32 16
/-- PEER. -/
def Desc.peer (d : Desc) : Nat := d.fld 5 48 16
/-- DIM. -/
def Desc.dim (d : Desc) : Nat := d.fld 6 0 2
/-- DIR. -/
def Desc.dir (d : Desc) : Nat := d.fld 6 2 1
/-- HOPS. -/
def Desc.hops (d : Desc) : Nat := d.fld 6 3 7

/-- The operations that host compute may name (R141). -/
def opDefined (op : Nat) : Bool := op ≤ 7 || op == 0x10

/-- Whether a reserved bit of a descriptor is set (R140). -/
def Desc.reservedSet (d : Desc) : Bool :=
  bitsOf (d.word 0) 20 12 != 0 || bitsOf (d.word 0) 41 7 != 0 || bitsOf (d.word 0) 57 7 != 0 || bitsOf (d.word 2) 40 24 != 0 ||
  bitsOf (d.word 3) 44 20 != 0 || bitsOf (d.word 4) 44 20 != 0 || bitsOf (d.word 5) 15 1 != 0 || bitsOf (d.word 5) 20 12 != 0 ||
  bitsOf (d.word 6) 10 54 != 0 || bitsOf (d.word 7) 32 32 != 0

/-- The forced algorithms that R146 allows for an operation. -/
def algoAllowed (op algo : Nat) : Bool :=
  algo == 0 || (match op with
    | 0x01 => [2, 3, 4].contains algo
    | 0x02 => [1, 2, 3, 4].contains algo
    | 0x03 => [1, 3, 4].contains algo
    | 0x04 => [2, 3].contains algo
    | 0x05 => algo == 2
    | _ => false)

/-- DENSE of glade g (R136). -/
def State.dense (s : State) (g : Nat) : Bool := s.on (R.CQ_GSHAPE g) F.CQ_GSHAPE_DENSE

/-- The bytes that a descriptor writes in this member's memory, or names in a peer's. -/
def State.descWrites (s : State) (d : Desc) : Nat :=
  match d.op with
  | 0x01 => d.count
  | 0x02 => d.count / max 1 (s.members d.glade)
  | 0x03 => d.count * s.members d.glade
  | 0x04 => d.count
  | 0x06 => d.count
  | 0x07 => d.count
  | _ => 0

/-- Whether a byte range overlaps a present watched region of any active glade (R143 code 9). -/
def State.hitsWatched (s : State) (o n : Nat) : Bool :=
  s.activeGlades.any fun g => (s.presentRegions g).any fun r =>
    watchedRegion r.1 && overlaps o n (4096 * r.2.1) (4096 * r.2.2)

/-- Code 7 of R143. -/
def State.badExtent (s : State) (d : Desc) : Bool :=
  let top := 4096 * s.memTop
  let uses := d.op != 0x00 && d.op != 0x05
  let dst := uses && d.op != 0x10
  (uses && (d.src % 128 != 0 || d.count % 128 != 0 || top < d.src + d.count)) ||
  (dst && (d.dst % 128 != 0 || top < d.dst + d.count)) ||
  (d.op == 0x02 && d.count % (4 * s.members d.glade) != 0) ||
  (d.op == 0x07 && (d.hops == 0 || s.extent d.dim - 1 < d.hops)) ||
  (d.op == 0x06 && s.members d.glade ≤ d.peer)

/-- The source index of a local source (R144). -/
def State.sidx (s : State) (g j : Nat) : Nat := s.spm g * s.lmn g + j

/-- Code 8 of R143. -/
def State.badRsgrad (s : State) (d : Desc) : Bool :=
  let g := d.glade
  d.op == 0x10 && (s.layers g ≤ d.layer || s.spm g ≤ d.srcj || d.count != 4096 * s.layerBlocks g d.layer ||
    (s.gl g).lastSent.contains (s.sidx g d.srcj))

/-- The first failing check of R143 when a descriptor starts, 0 when every check passes. -/
def State.descErr (s : State) (d : Desc) : Nat :=
  if d.reservedSet || !opDefined d.op then 1
  else if !s.active d.glade || !s.inGrove d.glade && d.op != 0x05 then 2
  else if !algoAllowed d.op d.algo || (d.algo == 3 && !s.dense d.glade) then 4
  else if s.badExtent d then 7
  else if s.badRsgrad d then 8
  else if s.hitsWatched d.dst (s.descWrites d) then 9
  else 0

/-! ## Queue state (R137, R138) -/

/-- log2 of a queue's capacity as R137 takes it. -/
def State.log2n (s : State) (q : Nat) : Nat := max 4 (min 15 (s.rd (R.CQ_QBASE q) F.CQ_QBASE_LOG2N))

/-- An index modulo a queue's capacity. -/
def State.qmod (s : State) (q i : Nat) : Nat := i % 2 ^ s.log2n q

/-- TAIL as an index. -/
def State.qtail (s : State) (q : Nat) : Nat := s.qmod q (s.rd (R.CQ_QTAIL q) F.CQ_QTAIL_TAIL)

/-- Whether a queue is halted. -/
def State.halted (s : State) (q : Nat) : Bool := s.rd (R.CQ_QSTAT q) F.CQ_QSTAT_STATE == 3

/-- The index of the oldest descriptor that has not completed. -/
def State.oldest (s : State) (q : Nat) : Nat := ((s.qu q).descs.head?.map (·.index)).getD (s.qu q).next

/-- HEAD and STATE follow the descriptors of a queue that is not halted: idle at HEAD = TAIL, waiting when `wait`. -/
def State.refreshQueue (s : State) (q : Nat) (wait : Bool) : State :=
  if s.halted q then s
  else
    let h := s.oldest q
    let st := if h = s.qtail q then 0 else if wait then 2 else 1
    s.setReg (R.CQ_QSTAT q) (putAll (s.reg (R.CQ_QSTAT q)) [(F.CQ_QSTAT_STATE, st), (F.CQ_QSTAT_CODE, 0), (F.CQ_QSTAT_HEAD, h)])

/-- Changes the descriptor at an index. -/
def State.updDesc (s : State) (q i : Nat) (f : Desc → Desc) : State :=
  s.updQu q fun x => { x with descs := mapFirst (fun d => d.index == i) f x.descs }

/-- Drops the completed descriptors at the front: HEAD moves in index order (R142). -/
def State.popDone (s : State) (q : Nat) : State :=
  s.updQu q fun x => { x with descs := x.descs.dropWhile (·.completed) }

/-- A completion (R142): the token is signalled, IRQQ set where IRQ = 1, TAG taken and HEAD updated. -/
def State.completeDesc (s : State) (q : Nat) (d : Desc) : State :=
  let s := if d.sen then
      s.wr (R.CQ_TOK d.stok) F.CQ_TOK_COUNT ((s.rd (R.CQ_TOK d.stok) F.CQ_TOK_COUNT + 1) % 2 ^ 32) else s
  let s := if d.irq then s.setMask R.CQ_STATUS F.CQ_STATUS_IRQQ q else s
  let s := (s.updDesc q d.index fun d => { d with completed := true }).popDone q
  let s := if s.halted q then s else s.wr (R.CQ_QSTAT q) F.CQ_QSTAT_TAG d.tag
  s.refreshQueue q false

/-- The descriptor at an index, when it has started and not completed. -/
def State.runningDesc (s : State) (q i : Nat) : Option Desc :=
  (s.qu q).descs.find? fun d => d.index == i && d.started && !d.completed

/-- The effect of a descriptor on this member is done. -/
def State.descDone (s : State) (q i : Nat) : State := s.updDesc q i fun d => { d with done := true }

/-- A descriptor halts its queue with a code; it has not run, so that RESUME runs it again (R137, R143). -/
def State.haltDesc (s : State) (q : Nat) (d : Desc) (code : Nat) : State :=
  (s.updDesc q d.index fun d => { d with started := false, done := false }).haltQueue q d.index code d.tag

/-- A failed read of SRC (R143 code 10): counted and settled by region, and the queue halts. -/
def State.srcFailed (s : State) (q : Nat) (d : Desc) (o n : Nat) : State := (s.readCheck o n).haltDesc q d 10

/-- A write of CQ_QTAIL (R137): the doorbell. Queues 12 to 15 ignore it. -/
def State.writeQtail (s : State) (q : Nat) (v : Word) : State :=
  if 12 ≤ q then s else (s.plainWrite (R.CQ_QTAIL q) v).refreshQueue q false

/-- EN of a queue takes a value (R138). -/
def State.setQen (s : State) (q : Nat) (en : Bool) : State :=
  if 12 ≤ q then s else s.flag (R.CQ_QCTL q) F.CQ_QCTL_EN en

/-- RESUME (R137): a halted queue leaves the halt and runs the halting descriptor again. -/
def State.resumeQueue (s : State) (q : Nat) : State :=
  if 12 ≤ q || !s.halted q then s
  else (s.wr (R.CQ_QSTAT q) F.CQ_QSTAT_STATE 1).refreshQueue q false

/-- SKIP (R137): a halted queue drops the halting descriptor, without its signal, and leaves the halt. -/
def State.skipQueue (s : State) (q : Nat) : State :=
  if 12 ≤ q || !s.halted q then s
  else
    let h := s.rd (R.CQ_QSTAT q) F.CQ_QSTAT_HEAD
    let s := if (s.qu q).descs.any fun d => d.index == h then
        (s.updDesc q h fun d => { d with completed := true }).popDone q
      else s.updQu q fun x => { x with next := s.qmod q (x.next + 1) }
    let s := s.updQu q fun x => { x with resumeAt := none }
    (s.wr (R.CQ_QSTAT q) F.CQ_QSTAT_STATE 1).refreshQueue q false

/-- A write of CQ_QCTL (R137): EN by its own rule, then RESUME or SKIP; a write that sets both is ignored as far as those
two go and recorded. -/
def State.writeQctl (s : State) (q : Nat) (v : Word) : State :=
  if 12 ≤ q then s
  else
    let r := fget v F.CQ_QCTL_RESUME == 1
    let k := fget v F.CQ_QCTL_SKIP == 1
    let s := s.setQen q (fget v F.CQ_QCTL_EN == 1)
    if r && k then s.record ((ev Sev.warn Src.cq q).field (R.CQ_QCTL q) F.CQ_QCTL_RESUME)
    else if r then s.resumeQueue q
    else if k then s.skipQueue q
    else s

/-- A write of CQ_QBASE (R138): ignored and recorded while EN = 1. -/
def State.writeQbase (s : State) (q : Nat) (v : Word) : State :=
  if 12 ≤ q then s else s.guardedWrite (s.on (R.CQ_QCTL q) F.CQ_QCTL_EN) Src.cq q (R.CQ_QBASE q) v

/-! ## Fetching and starting (R140, R142, R154) -/

/-- Whether the fabric profile lets a queue fetch: profile 2 stops queues 0 to 11 (R154). -/
def State.mayFetch (s : State) (q : Nat) : Bool :=
  q < 12 && s.on (R.CQ_QCTL q) F.CQ_QCTL_EN && !s.halted q && s.profile != 2 && (s.qu q).next != s.qtail q &&
  (s.qu q).descs.length < 2 ^ s.log2n q

/-- Fetches the next descriptor: its eight words come from the queue ring; a failed fetch halts the queue with CODE 10 and
TAG zero. -/
def State.fetchDesc (s : State) (q : Nat) (st : MpStatus) : State :=
  let i := (s.qu q).next
  let o := 4096 * s.rd (R.CQ_QBASE q) F.CQ_QBASE_BASE + 64 * i
  let s := s.charge 4 1 0 0
  let failed := !s.served o 64 || st == .uncorr || st == .addrErr
  if failed then (s.readFailed o).haltQueue q i 10 0
  else
    let w := (List.range 8).map fun k => BitVec.ofNat 64 (leNat (s.readBytes (o + 8 * k) 8))
    let s := s.updQu q fun x => { x with descs := x.descs ++ [⟨i, w, false, false, false⟩], next := s.qmod q (i + 1) }
    s.refreshQueue q false

/-- Whether a descriptor's glade lets it start under the profile in force (R154): before the glade's first ring-start
barrier, and with HOLD = 1 in start-up, only a BARRIER starts; in recovery the descriptors of affected glades wait. -/
def State.profileAllows (s : State) (d : Desc) : Bool :=
  let g := d.glade
  (d.op == 0x05 || !s.active g || (s.gl g).started && !(s.profile == 1 && s.hold g)) &&
  !(s.profile == 3 && s.router.recovering.contains g) && s.profile != 2

/-- Whether class 4 lets a collective start (R58); NOP and RSGRAD belong to no gated class. -/
def State.classAllows (s : State) (d : Desc) : Bool :=
  d.op == 0x00 || d.op == 0x10 || !s.active d.glade || s.permits d.glade 4

/-- Whether a token has reached the value awaited (R142). -/
def State.tokenReached (s : State) (d : Desc) : Bool :=
  !d.wen || (s.rd (R.CQ_TOK d.wtok) F.CQ_TOK_COUNT + 2 ^ 32 - d.wval) % 2 ^ 32 < 2 ^ 31

/-- Starts the first descriptor that has not started (R142, R143): it waits for its token and its fence; a failing check
halts the queue. -/
def State.startDesc (s : State) (q : Nat) : State :=
  let ds := (s.qu q).descs
  match ds.find? fun d => !d.started with
  | none => s
  | some d =>
    let running := ds.filter fun d => d.started && !d.completed
    if s.halted q || !s.on (R.CQ_QCTL q) F.CQ_QCTL_EN || 8 ≤ running.length then s
    else if !s.tokenReached d || d.fence && !running.isEmpty then s.refreshQueue q true
    else if !s.profileAllows d || !s.classAllows d then s
    else
      let e := s.descErr d
      if e ≠ 0 then s.haltDesc q d e
      else (s.updDesc q d.index fun d => { d with started := true }).refreshQueue q false

/-- QUEUE_DOORBELL (R137). -/
def execQueueDoorbell (q : QueueId) (value : Word) (s : State) : Host.Outcome State Fault Refusal :=
  .next (s.inMain fun s => s.writeQtail q.val value)

/-- QUEUE_ENABLE (R138). -/
def execQueueEnable (q : QueueId) (en : Bool) (s : State) : Host.Outcome State Fault Refusal :=
  .next (s.inMain fun s => s.setQen q.val en)

/-- QUEUE_RESUME (R137). -/
def execQueueResume (q : QueueId) (s : State) : Host.Outcome State Fault Refusal :=
  .next (s.inMain fun s => s.resumeQueue q.val)

/-- QUEUE_SKIP (R137). -/
def execQueueSkip (q : QueueId) (s : State) : Host.Outcome State Fault Refusal :=
  .next (s.inMain fun s => s.skipQueue q.val)

/-- DESCRIPTOR_FETCH (R140). -/
def execDescriptorFetch (q : QueueId) (status : MpStatus) (s : State) : Host.Outcome State Fault Refusal :=
  .next (s.inMain fun s => if s.mayFetch q.val then s.fetchDesc q.val status else s)

/-- DESCRIPTOR_START (R142, R143). -/
def execDescriptorStart (q : QueueId) (s : State) : Host.Outcome State Fault Refusal :=
  .next (s.inMain fun s => s.startDesc q.val)

/-- DESCRIPTOR_COMPLETE: a descriptor whose effect is done completes (R142). -/
def execDescriptorComplete (q : QueueId) (index : Nat) (s : State) : Host.Outcome State Fault Refusal :=
  .next (s.inMain fun s => match s.runningDesc q.val index with
    | some d => if d.done then s.completeDesc q.val d else s
    | none => s)

/-- The queues with a running descriptor of glade g under a CID. -/
def State.cidRunning (s : State) (g cid : Nat) : List (Nat × Desc) :=
  (List.range 12).filterMap fun q =>
    ((s.qu q).descs.find? fun d => d.started && !d.done && d.glade == g && d.cid == cid).map fun d => (q, d)

/-- MATCH_TIMEOUT: at LMN 0 the code goes to every member; on each of them a running descriptor of the CID halts with
CODE 6 (R143). -/
def execMatchTimeout (g : GladeId) (cid : Nat) (s : State) : Host.Outcome State Fault Refusal :=
  .next (s.inMain fun s =>
    if s.rd R.CQ_CTL F.CQ_CTL_TMO = 0 then s
    else
      let s := if s.lmn g.val = 0 then s.toMembers g.val (s.otherMembers g.val) "MATCH" [g.val, cid, 6] else s
      s.each (s.cidRunning g.val cid) fun s x => s.haltDesc x.1 x.2 6)

end Sys2Proof.Machine
end

