-- ==== Sys2Proof/Machine/Collective.lean ====
section
/-! DEFINITION. The rows of the descriptor operations (R141): NOP, ALLREDUCE, REDUCESCATTER, ALLGATHER, BROADCAST, BARRIER,
PERMUTE, MCAST with MCAST_FALLBACK (R150), and RSGRAD (R144, R145). A row performs the effect of a started descriptor; the
row DESCRIPTOR_COMPLETE then completes it. The operand `others` holds the other members' buffers: in LMN order where the
result depends on it, and otherwise in the order in which their values are added (R147). -/
namespace Sys2Proof.Machine

/-- The binary32 values of a byte string, in plain order. -/
def f32s (l : List Byte) : List F32 := (List.range (l.length / 4)).map fun i => BitVec.ofNat 32 (leAt l (4 * i) 4)

/-- The bytes of binary32 values, in plain order. -/
def f32Bytes (v : List F32) : List Byte := v.flatMap fun x => leBytes 4 x.toNat

/-- An element-wise sum with the exceptions raised (R117). -/
def addLists (a b : List F32) : List F32 × Exc :=
  (List.zip a b).foldl (fun (r : List F32 × Exc) x =>
    let y := b32.add x.1.toNat x.2.toNat
    (r.1 ++ [BitVec.ofNat 32 y.1], r.2 ||| y.2)) ([], 0)

/-- Values with the exceptions raised so far. -/
abbrev SumX := List F32 × Exc

/-- One more operand is added. -/
def SumX.add (a : SumX) (b : List F32) : SumX :=
  let r := addLists a.1 b
  (r.1, r.2 ||| a.2)

/-! ## The tree (R148) -/

/-- The subtrees of the children of LMN lo in the range lo to hi − 1: up to 8 contiguous parts whose sizes differ by at most
1, the larger first, each as (root, end). -/
def treeParts (lo hi : Nat) : List (Nat × Nat) :=
  let n := hi - lo - 1
  let k := min 8 n
  let big := if k = 0 then 0 else n % k
  let size := if k = 0 then 0 else n / k
  (List.range k).map fun i =>
    let a := lo + 1 + i * size + min i big
    (a, a + size + (if i < big then 1 else 0))

/-- The range of LMNs of the subtree rooted at LMN x, searched from the subtree lo to hi − 1. (DEDUCED, assumption 61.) -/
def subtreeFrom : Nat → Nat → Nat → Nat → Option (Nat × Nat)
  | 0, _, _, _ => none
  | f + 1, lo, hi, x =>
    if x = lo then some (lo, hi)
    else ((treeParts lo hi).find? fun p => p.1 ≤ x && x < p.2).bind fun p => subtreeFrom f p.1 p.2 x

/-- The children of LMN x in the tree of S members. -/
def treeChildren (sz x : Nat) : List Nat :=
  match subtreeFrom sz 0 sz x with
  | some r => (treeParts r.1 r.2).map (·.1)
  | none => []

/-- The parent of LMN x, searched from the subtree lo to hi − 1. -/
def parentFrom : Nat → Nat → Nat → Nat → Option Nat
  | 0, _, _, _ => none
  | f + 1, lo, hi, x =>
    ((treeParts lo hi).find? fun p => p.1 ≤ x && x < p.2).bind fun p =>
      if x = p.1 then some lo else parentFrom f p.1 p.2 x

/-- The parent of LMN x in the tree of S members. -/
def treeParent (sz x : Nat) : Option Nat := parentFrom sz 0 sz x

/-- The sum over the subtree lo to hi − 1 in the combine order of R148. (DEDUCED, assumption 61.) -/
def treeSum (val : Nat → List F32) : Nat → Nat → Nat → SumX
  | 0, lo, _ => (val lo, 0)
  | f + 1, lo, hi =>
    (treeParts lo hi).foldl (fun (a : SumX) p =>
      let c := treeSum val f p.1 p.2
      let r := a.add c.1
      (r.1, r.2 ||| c.2)) (val lo, 0)

/-- The algorithm of a descriptor: forced, or the automatic choice of R146. -/
def State.algoOf (s : State) (d : Desc) : Nat :=
  let order := d.order
  let dense := s.dense d.glade
  let small := fun (f : Fld) (n : Nat) => let v := s.rd R.CQ_ALGO f; v != 0 && n ≤ 1024 * v
  if d.algo ≠ 0 then d.algo
  else match d.op with
    | 0x01 => if small F.CQ_ALGO_TREEMAX d.count || order then 2 else if dense then 3 else 4
    | 0x02 =>
      if !order && small F.CQ_ALGO_DIRMAX (d.count / max 1 (s.members d.glade)) then 1
      else if dense && !order then 3 else if order then 2 else 4
    | 0x03 =>
      if !order && small F.CQ_ALGO_DIRMAX (d.count / max 1 (s.members d.glade)) then 1
      else if dense && !order then 3 else 4
    | 0x04 => if dense then 3 else 2
    | 0x05 => 2
    | _ => 0

/-- The value at an LMN, from this member's own and the others' in LMN order. -/
def byLmn {α : Type} (mine : Nat) (own : α) (others : List α) (i : Nat) : α :=
  if i = mine then own else others.getD (if i < mine then i else i - 1) own

/-- The sum of every member's buffer: in tree order for TREE and for ORDER = 1 (R148, R151), otherwise in the order in
which `others` lists the operands. -/
def State.sumAll (s : State) (d : Desc) (own : List F32) (others : List (List F32)) : SumX :=
  let sz := s.members d.glade
  if s.algoOf d = 2 || d.order then treeSum (byLmn (s.lmn d.glade) own others) sz 0 sz
  else others.foldl SumX.add (own, 0)

/-- Runs a data-moving operation: SRC must be readable (else CODE 10), and COUNT = 0 moves nothing (R143). -/
def State.withSrc (s : State) (q : Nat) (d : Desc) (f : State → List Byte → State) : State :=
  if d.count = 0 then s.descDone q d.index
  else if !s.served d.src d.count then s.srcFailed q d d.src d.count
  else
    let b := s.readBytes d.src d.count
    (f (s.charge 4 (linesIn d.src d.count) 0 (d.count / 32)) b).descDone q d.index

/-- Writes a collective's result, charged to class 4. -/
def State.putDst (s : State) (o : Nat) (l : List Byte) : State := (s.store o l).charge 4 0 (linesIn o l.length) 0

/-- Whether the other members' operands fit the descriptor: one from each of them, each of the right length. Otherwise the
members issued the CID with different fields, and the queue halts with CODE 3. -/
def State.matched {α : Type} (s : State) (d : Desc) (n : Nat) (others : List (List α)) : Bool :=
  others.length + 1 == s.members d.glade && others.all fun l => l.length == n

/-- Runs a row of an operation on a started descriptor of that operation. -/
def State.runOp (s : State) (q i op : Nat) (f : State → Desc → State) : State :=
  match s.runningDesc q i with
  | some d => if d.op = op ∧ d.done = false then f s d else s
  | none => s

/-- ALLREDUCE: DST receives the element-wise sum (R141). -/
def State.allreduce (s : State) (q : Nat) (d : Desc) (others : List (List F32)) : State :=
  if !s.matched d (d.count / 4) others then s.haltDesc q d 3
  else s.withSrc q d fun s b =>
    let r := s.sumAll d (f32s b) others
    (s.raiseExc (s.homeTile 0) r.2).putDst d.dst (f32Bytes r.1)

/-- REDUCESCATTER: DST receives this member's segment of the sum (R141). -/
def State.reducescatter (s : State) (q : Nat) (d : Desc) (others : List (List F32)) : State :=
  if !s.matched d (d.count / 4) others then s.haltDesc q d 3
  else s.withSrc q d fun s b =>
    let sz := s.members d.glade
    let i := s.lmn d.glade
    let lo := i * (d.count / 4) / sz
    let hi := (i + 1) * (d.count / 4) / sz
    let seg := fun (v : List F32) => (v.drop lo).take (hi - lo)
    let r := s.sumAll d (seg (f32s b)) (others.map seg)
    (s.raiseExc (s.homeTile 0) r.2).putDst d.dst (f32Bytes r.1)

/-- ALLGATHER: DST receives the concatenation in LMN order (R141). -/
def State.allgather (s : State) (q : Nat) (d : Desc) (others : List (List Byte)) : State :=
  if !s.matched d d.count others then s.haltDesc q d 3
  else s.withSrc q d fun s b =>
    let all := (List.range (s.members d.glade)).map (byLmn (s.lmn d.glade) b others)
    s.putDst d.dst all.flatten

/-- BROADCAST: DST receives the bytes of ROOT (R141). -/
def State.broadcast (s : State) (q : Nat) (d : Desc) (root : List Byte) : State :=
  if s.lmn d.glade = d.root then
    s.withSrc q d fun s b => (s.toMembers d.glade (s.otherMembers d.glade) "BROADCAST" [d.glade, d.cid] b).putDst d.dst b
  else if d.count = 0 then s.descDone q d.index
  else if root.length ≠ d.count then s.haltDesc q d 3
  else (s.putDst d.dst root).descDone q d.index

/-- PERMUTE: sends to PEER, and writes what the member that names this one sent, at the offset that it names (R141). -/
def State.permute (s : State) (q : Nat) (d : Desc) (received : Option (Nat × List Byte)) : State :=
  s.withSrc q d fun s b =>
    let s := s.toMember d.glade d.peer "PERMUTE" [d.glade, d.cid, d.dst] b
    match received with
    | some r => s.putDst r.1 r.2
    | none => s

/-- The pieces of a transfer of at most 4,096 bytes each: offset and bytes (R150). -/
def runsOf (b : List Byte) : List (Nat × List Byte) :=
  ((chunks 4096 (b.length / 4096 + 1) b).zipIdx).map fun x => (4096 * x.2, x.1)

/-- MCAST: runs along DIM in direction DIR to HOPS nodes (R150). -/
def State.mcast (s : State) (q : Nat) (d : Desc) : State :=
  s.withSrc q d fun s b =>
    s.each (runsOf b) fun s r => s.toNode s.pnid "MCAST" [d.glade, d.dim, d.dir, d.hops, d.dst + r.1] r.2

/-- The unicast fallback of a multicast run: each missing node is sent to on its own (R150). -/
def State.mcastMissing (s : State) (d : Desc) (missing : List Nat) : State :=
  let b := s.readBytes d.src d.count
  s.each missing fun s x => s.each (runsOf b) fun s r => s.toNode x "MCAST" [d.glade, d.dst + r.1] r.2

/-! ## RSGRAD (R144, R145) -/

/-- Sets STP_GSTAT STAGE (R86). -/
def State.setStage (s : State) (g n : Nat) : State := s.wr (R.STP_GSTAT g) F.STP_GSTAT_STAGE n

/-- STAGE. -/
def State.stage (s : State) (g : Nat) : Nat := s.rd (R.STP_GSTAT g) F.STP_GSTAT_STAGE

/-- The ring's first contribution, as this member sees it: accumulation begins (STAGE 1, R86, R88). -/
def State.openWindow (s : State) (g : Nat) : State :=
  if s.stage g == 0 && (s.gl g).ringOpen then s.setStage g 1 else s

/-- The owners of a layer's blocks and their ranges: (owner, first block, count). -/
def State.ownersOf (s : State) (g l : Nat) : List (Nat × Nat × Nat) :=
  let sz := s.members g
  ((List.range sz).map fun i => (i, s.blockLo g sz i l, s.ownedBlocks g sz i l)).filter fun x => x.2.2 != 0

/-- Counts blocks that a source's stream sent to, or published for, an owner in the ring. -/
def GladeState.sentMore (e : GladeState) (sidx owner n : Nat) : GladeState :=
  let k := (sidx, owner)
  let old := ((e.sentBlocks.find? fun x => x.1 == k).map (·.2)).getD 0
  { e with sentBlocks := (e.sentBlocks.filter fun x => x.1 != k) ++ [(k, old + n)] }

/-- How many blocks a source's stream has sent to an owner. -/
def GladeState.sentTo (e : GladeState) (sidx owner : Nat) : Nat :=
  ((e.sentBlocks.find? fun x => x.1 == (sidx, owner)).map (·.2)).getD 0

/-- Sends one block of a fast-mode push to its owner (KIND 0). -/
def State.pushBlock (s : State) (g sidx l b src : Nat) : State :=
  let o := src + 4096 * b
  let own := s.ownerOf g (s.members g) l b
  let s := ((s.openWindow g).charge 3 32 0 129).updGl g fun e => e.sentMore sidx own 1
  s.toMember g own "CONTRIBUTION" [g, s.openRing g % 256, sidx, l, b] (s.readBytes o 4096)

/-- Pushes the blocks from b on; a block that cannot be read stops the push there. -/
def State.pushFrom (s : State) (g sidx l src : Nat) : Nat → Nat → State × Option Nat
  | 0, _ => (s, none)
  | f + 1, b =>
    if s.layerBlocks g l ≤ b then (s, none)
    else if !s.served (src + 4096 * b) 4096 then (s.readCheck (src + 4096 * b) 4096, some b)
    else (s.pushBlock g sidx l b src).pushFrom g sidx l src f (b + 1)

/-- The end-of-step markers of a source, to every owner whose Bloc is not zero (KIND 1). -/
def State.sendMarkers (s : State) (g sidx : Nat) : State :=
  let sz := s.members g
  let ring := s.openRing g % 256
  let s := s.updGl g fun e => { e with lastSent := addOnce e.lastSent sidx }
  s.each ((List.range sz).filter fun i => s.blocOf g sz i != 0) fun s i =>
    let n := (s.gl g).sentTo sidx i
    let s := s.updGl g fun e => { e with markersOut := e.markersOut ++ [⟨i, sidx, n, ring⟩] }
    s.toMember g i "MARKER" [g, ring, sidx, n]

/-- Whether an RSGRAD is done on this member: in exact mode every owner has answered pull-done, and a LAST descriptor has
every marker receipt (R145). -/
def State.rsgradDone (s : State) (d : Desc) : Bool :=
  let g := d.glade
  let sidx := s.sidx g d.srcj
  !(s.gl g).noticesOut.any (fun x => x.1 == sidx && x.2.1 == d.layer) &&
  !(d.last && (s.gl g).markersOut.any fun m => m.sidx == sidx)

/-- RSGRAD in fast mode: the blocks are pushed, from the block where a failed read had stopped it (R143 code 10). -/
def State.rsgradFast (s : State) (q : Nat) (d : Desc) : State :=
  let g := d.glade
  let sidx := s.sidx g d.srcj
  let start := (s.qu q).resumeAt.getD 0
  let r := s.pushFrom g sidx d.layer d.src (s.layerBlocks g d.layer) start
  match r.2 with
  | some b => (r.1.updQu q fun x => { x with resumeAt := some b }).haltDesc q d 10
  | none =>
    let s := r.1.updQu q fun x => { x with resumeAt := none }
    let s := if d.last then s.sendMarkers g sidx else s
    if s.rsgradDone d then s.descDone q d.index else s

/-- RSGRAD in exact mode: one ready notice per owner of the layer (KIND 2). -/
def State.rsgradExact (s : State) (q : Nat) (d : Desc) : State :=
  let g := d.glade
  let sidx := s.sidx g d.srcj
  let s := (s.openWindow g).each (s.ownersOf g d.layer) fun s x =>
    let s := s.updGl g fun e => { e.sentMore sidx x.1 x.2.2 with noticesOut := e.noticesOut ++ [(sidx, d.layer, x.1)] }
    s.toMember g x.1 "READY_NOTICE" [g, s.openRing g % 256, sidx, d.layer, x.2.1, d.src]
  let s := if d.last then s.sendMarkers g sidx else s
  if s.rsgradDone d then s.descDone q d.index else s

/-- The RSGRAD descriptors that an answer has finished complete at once (R145). -/
def State.settleRsgrad (s : State) (g : Nat) : State :=
  s.each (List.range 12) fun s q =>
    s.each (s.qu q).descs fun s d =>
      if d.started && !d.completed && d.op == 0x10 && d.glade == g && !d.done && s.rsgradDone d then
        s.completeDesc q d
      else s

/-! ## The rows -/

/-- NOP (R141). -/
def execDescNop (q : QueueId) (index : Nat) (s : State) : Host.Outcome State Fault Refusal :=
  .next (s.inMain fun s => s.runOp q.val index 0x00 fun s d => s.descDone q.val d.index)

/-- ALLREDUCE (R141). -/
def execDescAllreduce (q : QueueId) (index : Nat) (others : List (List F32)) (s : State) :
    Host.Outcome State Fault Refusal :=
  .next (s.inMain fun s => s.runOp q.val index 0x01 fun s d => s.allreduce q.val d others)

/-- REDUCESCATTER (R141). -/
def execDescReducescatter (q : QueueId) (index : Nat) (others : List (List F32)) (s : State) :
    Host.Outcome State Fault Refusal :=
  .next (s.inMain fun s => s.runOp q.val index 0x02 fun s d => s.reducescatter q.val d others)

/-- ALLGATHER (R141). -/
def execDescAllgather (q : QueueId) (index : Nat) (others : List (List Byte)) (s : State) :
    Host.Outcome State Fault Refusal :=
  .next (s.inMain fun s => s.runOp q.val index 0x03 fun s d => s.allgather q.val d others)

/-- BROADCAST (R141). -/
def execDescBroadcast (q : QueueId) (index : Nat) (root : List Byte) (s : State) : Host.Outcome State Fault Refusal :=
  .next (s.inMain fun s => s.runOp q.val index 0x04 fun s d => s.broadcast q.val d root)

/-- A host barrier (R141, R148): done when every other member is known to have issued it. Otherwise, once every child of the
tree has entered, the entry goes up, and LMN 0 completes the barrier for every member. -/
def State.hostBarrier (s : State) (q : Nat) (d : Desc) (issued : List Nat) : State :=
  let g := d.glade
  let below := (treeChildren (s.members g) (s.lmn g)).all fun c => (s.gl g).childB.contains (d.cid, c)
  if (s.otherMembers g).all issued.contains then s.descDone q d.index
  else if !below then s
  else match treeParent (s.members g) (s.lmn g) with
    | some p => s.toMember g p "BARRIER_UP" [g, s.lmn g, d.cid]
    | none => (s.toAll g "BARRIER_DONE" [g, d.cid]).descDone q d.index

/-- BARRIER (R141); `issued` lists the other members that have issued it. -/
def execDescBarrier (q : QueueId) (index : Nat) (issued : List Nat) (s : State) : Host.Outcome State Fault Refusal :=
  .next (s.inMain fun s => s.runOp q.val index 0x05 fun s d => s.hostBarrier q.val d issued)

/-- PERMUTE (R141). -/
def execDescPermute (q : QueueId) (index : Nat) (received : Option (Nat × List Byte)) (s : State) :
    Host.Outcome State Fault Refusal :=
  .next (s.inMain fun s => s.runOp q.val index 0x06 fun s d => s.permute q.val d received)

/-- MCAST (R150). -/
def execDescMcast (q : QueueId) (index : Nat) (s : State) : Host.Outcome State Fault Refusal :=
  .next (s.inMain fun s => s.runOp q.val index 0x07 fun s d => s.mcast q.val d)

/-- MCAST_FALLBACK: the nodes that a run missed are sent to by unicast (R150). -/
def execMcastFallback (q : QueueId) (index : Nat) (missing : List Nat) (s : State) : Host.Outcome State Fault Refusal :=
  .next (s.inMain fun s => match s.runningDesc q.val index with
    | some d => if d.op = 0x07 ∨ d.op = 0x04 then s.mcastMissing d missing else s
    | none => s)

/-- RSGRAD (R145): a push in fast mode, ready notices in exact mode. -/
def execDescRsgrad (q : QueueId) (index : Nat) (s : State) : Host.Outcome State Fault Refusal :=
  .next (s.inMain fun s => s.runOp q.val index 0x10 fun s d =>
    if s.exact d.glade then s.rsgradExact q.val d else s.rsgradFast q.val d)

end Sys2Proof.Machine
end

