-- ==== Sys2Proof/Machine/Accum.lean ====
section
/-! DEFINITION. Accumulation and the verdict: SKIPREQ, CONTRIBUTION, END_OF_STEP_MARKER, MARKER_RECEIPT, MARKER_RESEND,
READY_NOTICE, PULL_DONE, PARTIAL_VERDICT, STRAGGLER_DEADLINE, VERDICT_REDUCTION, VERDICT_RECEIPT, TRUST_RATIO_REDUCTION and
TRUST_RATIO_RESULT (R85 to R94, R102, R145, R148, R151). -/
namespace Sys2Proof.Machine

/-! ## The ring -/

/-- CARRIED (R86). -/
def State.carried (s : State) (g : Nat) : Nat := s.rd (R.STP_GSTAT g) F.STP_GSTAT_CARRIED

/-- The low byte of the open ring. -/
def State.openLo (s : State) (g : Nat) : Nat := s.openRing g % 256

/-! ## Verdict records (R90) -/

/-- Byte fields of a verdict record. -/
def verdictFlag (v : List Byte) (i : Nat) : Bool := bitAt (leAt v 14 1) i

/-- APPLY of a verdict. -/
def verdictApply (v : List Byte) : Bool := verdictFlag v 1
/-- CARRY of a verdict. -/
def verdictCarry (v : List Byte) : Bool := verdictFlag v 4
/-- CARRIED of a verdict. -/
def verdictCarried (v : List Byte) : Nat := leAt v 15 1
/-- SUMSQ of a verdict. -/
def verdictSumsq (v : List Byte) : F64 := BitVec.ofNat 64 (leAt v 0 8)

/-- The 28 bytes of a verdict before its CRC. -/
def verdictBody (p : PartialVerdict) (g : Nat) (apply carry : Bool) : List Byte :=
  leBytes 8 (accRound p.acc).toNat ++ leBytes 4 p.nonfin ++ leBytes 2 p.missing ++
  leBytes 1 (bit p.skipReq + 2 * bit apply + 4 * bit p.strag + 8 * bit p.loss + 16 * bit carry) ++ leBytes 1 p.carried ++
  leBytes 8 p.ring ++ leBytes 4 (p.epoch % 256 + 256 * (g % 16) + 4096 * (p.mode % 2))

/-- A verdict with its CRC. -/
def verdictRecord (p : PartialVerdict) (g : Nat) (apply carry : Bool) : List Byte :=
  verdictBody p g apply carry ++ leBytes 4 (crc32c (verdictBody p g apply carry))

/-- Whether a record's CRC is correct. -/
def verdictCrcOk (v : List Byte) : Bool := leAt v 28 4 == crc32c (slice v 0 28)

/-! ## Contributor streams (R145) -/

/-- The sources that this owner expects in the open ring: all N, less those of members whose loss was accepted (R155). -/
def State.expectedSources (s : State) (g : Nat) : List Nat :=
  let n := s.spm g
  (List.range (s.members g * n)).filter fun x => !(s.gl g).gone.contains (x / n)

/-- The stream of a source in a ring, given the open ring's low byte. -/
def GladeState.stream (e : GladeState) (openLo ringLo sidx : Nat) : Stream :=
  (if ringLo = openLo then e.streams.find? fun x => x.sidx == sidx
   else (e.lateStreams.find? fun x => x.1 == ringLo && x.2.sidx == sidx).map (·.2)).getD ⟨sidx, none, 0⟩

/-- Changes the stream of a source in a ring. -/
def GladeState.updStream (e : GladeState) (openLo ringLo sidx : Nat) (f : Stream → Stream) : GladeState :=
  let x := f (e.stream openLo ringLo sidx)
  if ringLo = openLo then { e with streams := (e.streams.filter fun y => y.sidx != sidx) ++ [x] }
  else { e with lateStreams := (e.lateStreams.filter fun y => !(y.1 == ringLo && y.2.sidx == sidx)) ++ [(ringLo, x)] }

/-- A complete stream: its marker has arrived and as many blocks have been added as it names. -/
def Stream.complete (x : Stream) : Bool := x.marker == some x.added

/-- The expected streams of the open ring that are incomplete: none at an owner of no block. -/
def State.incomplete (s : State) (g : Nat) : List Nat :=
  if s.bloc g = 0 then []
  else (s.expectedSources g).filter fun x => !((s.gl g).stream (s.openLo g) (s.openLo g) x).complete

/-- How many rings back a contribution's ring lies: 0 for the open ring, k for a carried ring whose sums the buffers keep,
`none` for any other (R89). -/
def State.ringBack (s : State) (g ringLo : Nat) : Option Nat :=
  let back := (s.openLo g + 256 - ringLo % 256) % 256
  let kept := if (s.gl g).verdictDone && verdictCarry (s.gl g).verdict then s.carried g - 1 else s.carried g
  if back ≤ kept then some back else none

/-- A contribution is discarded as late (R89). -/
def State.late (s : State) (g : Nat) : State := s.inc (R.STP_CNT g) F.STP_CNT_LATE

/-- The member offset of the reduction buffer of local block t (R37). -/
def State.bufferAddr (s : State) (g t : Nat) : Nat := s.regionBase g 6 + 4096 * t

/-- Whether this member owns a block. -/
def State.ownsBlock (s : State) (g l b : Nat) : Bool :=
  l < s.layers g && b < s.layerBlocks g l && s.ownerOf g (s.members g) l b == s.lmn g

/-- Adds a contribution into its block's reduction buffer and counts it in its stream (R145). -/
def State.addBlock (s : State) (g : Nat) (c : Contribution) : State :=
  let t := s.localBlock g (s.members g) (s.lmn g) c.layer c.block
  let o := s.bufferAddr g t
  let s := (s.readCheck o 4096).charge 3 32 32 0
  let r := addLists (f32s (s.readBytes o 4096)) c.values
  let s := (s.raiseExc (s.homeTile t) r.2).store o (f32Bytes r.1)
  s.updGl g fun e =>
    { e.updStream (s.openLo g) c.ringLo c.sidx (fun x => { x with added := x.added + 1 }) with
      summed := e.summed ++ [(c.ringLo, c.layer, c.block, c.sidx)] }

/-! ## Fixed order in exact mode (R151) -/

/-- Whether a ready notice of a source covers a layer in a ring. -/
def GladeState.covers (e : GladeState) (ringLo sidx layer : Nat) : Bool :=
  e.pulls.any fun p => p.ringLo == ringLo && p.sidx == sidx && p.layer == layer

/-- Whether nothing more of a source is to be added to a block in a ring: its block is added, or its marker has come, every
notice that the marker counts has come, and none covers the layer. -/
def State.settled (s : State) (g ringLo l b sidx : Nat) : Bool :=
  let e := s.gl g
  let counted := ((e.pulls.filter fun p => p.ringLo == ringLo && p.sidx == sidx).map fun p =>
    s.ownedBlocks g (s.members g) (s.lmn g) p.layer).sum
  e.summed.contains (ringLo, l, b, sidx) ||
  ((e.stream (s.openLo g) ringLo sidx).marker == some counted && !e.covers ringLo sidx l)

/-- The sources whose streams of a ring this owner follows. -/
def State.sourcesOf (s : State) (g ringLo : Nat) : List Nat :=
  if ringLo = s.openLo g then s.expectedSources g
  else ((s.gl g).lateStreams.filter fun x => x.1 == ringLo).map (·.2.sidx)

/-- Whether a contribution's turn has come: the older carried rings are wholly added to its block, and so is every lower
source of its own ring. -/
def State.turn (s : State) (g : Nat) (c : Contribution) : Bool :=
  let back := (s.openLo g + 256 - c.ringLo % 256) % 256
  let older := (List.range (s.carried g + 1)).filterMap fun k =>
    if back < k then some ((s.openLo g + 256 - k % 256) % 256) else none
  (older.all fun r => (s.sourcesOf g r).all fun x => s.settled g r c.layer c.block x) &&
  ((s.sourcesOf g c.ringLo).filter (· < c.sidx)).all fun x => s.settled g c.ringLo c.layer c.block x

/-- Adds the held contributions whose turn has come, at most `fuel` of them. -/
def State.drain (s : State) (g : Nat) : Nat → State
  | 0 => s
  | n + 1 =>
    match (s.gl g).held.find? fun c => !s.exact g || s.turn g c with
    | none => s
    | some c => State.drain ((s.updGl g fun e => { e with held := e.held.erase c }).addBlock g c) g n

/-- Whether contributions may enter the buffers: no verdict has measured them (R89). -/
def State.mayAdd (s : State) (g : Nat) : Bool :=
  let e := s.gl g
  if e.verdictDone then verdictCarry e.verdict else e.partialV.isNone

/-- Adds what may be added. -/
def State.drainHeld (s : State) (g : Nat) : State :=
  if s.mayAdd g then s.drain g (s.gl g).held.length else s

/-- The blocks of a pulled range: first block and count. -/
def State.rangeBlocks (s : State) (g : Nat) (p : PullRange) : List Nat :=
  List.range' p.block (s.ownedBlocks g (s.members g) (s.lmn g) p.layer)

/-- Whether every block of a range has been read. -/
def State.rangeRead (s : State) (g : Nat) (p : PullRange) : Bool :=
  (s.rangeBlocks g p).all fun b =>
    (s.gl g).summed.contains (p.ringLo, p.layer, b, p.sidx) ||
    (s.gl g).held.any fun c => c.ringLo == p.ringLo && c.layer == p.layer && c.block == b && c.sidx == p.sidx

/-- Answers pull-done to a source whose range has been read (KIND 3). (DEDUCED, assumption 23.) -/
def State.answerPull (s : State) (g : Nat) (c : Contribution) : State :=
  match (s.gl g).pulls.find? fun p => p.ringLo == c.ringLo && p.sidx == c.sidx && p.layer == c.layer with
  | some p =>
    if s.rangeRead g p then
      s.toMember g p.src "PULL_DONE" [g, s.lmn g, p.sidx, p.layer, p.block, (s.rangeBlocks g p).length]
    else s
  | none => s

/-- Whether a pulled block is expected: a notice covers it and it has not been read yet. -/
def State.pullExpected (s : State) (g : Nat) (c : Contribution) : Bool :=
  let e := s.gl g
  e.covers c.ringLo c.sidx c.layer && !e.summed.contains (c.ringLo, c.layer, c.block, c.sidx) &&
  !e.held.any fun x => x.ringLo == c.ringLo && x.layer == c.layer && x.block == c.block && x.sidx == c.sidx

/-- A contribution arrives at its owner (R89, R145): pushed in fast mode, or one pulled block in exact mode. -/
def State.contribute (s : State) (g : Nat) (c : Contribution) : State :=
  if !s.active g || !s.ownsBlock g c.layer c.block then s
  else if s.exact g && !s.pullExpected g c then s
  else if (s.gl g).takenIn then s
  else match s.ringBack g c.ringLo with
    | none => s.late g
    | some _ =>
      if (s.gl g).verdictDone && !verdictCarry (s.gl g).verdict then s.late g
      else
        let s := (s.openWindow g).updGl g fun e => { e with held := e.held ++ [c] }
        let s := if s.exact g then s.answerPull g c else s
        s.drainHeld g

/-- SKIPREQ: sets the request (R85). -/
def execSkipreq (g : GladeId) (s : State) : Host.Outcome State Fault Refusal :=
  .next (s.inMain fun s => s.wr (R.STP_GCTL g.val) F.STP_GCTL_SKIPREQ 1)

/-- CONTRIBUTION (R37, R89, R145, R151). -/
def execContribution (g : GladeId) (ringLo sidx layer block : Nat) (values : List F32) (s : State) :
    Host.Outcome State Fault Refusal :=
  .next (s.inMain fun s => s.contribute g.val ⟨ringLo % 256, sidx, layer, block, values⟩)

/-- END_OF_STEP_MARKER: counted once and answered each time with a marker receipt (R145). -/
def execEndOfStepMarker (g : GladeId) (ringLo sidx blocks : Nat) (s : State) : Host.Outcome State Fault Refusal :=
  .next (s.inMain fun s =>
    if !s.active g.val then s
    else
      let lo := ringLo % 256
      let s := s.toMember g.val (sidx / s.spm g.val) "MARKER_RECEIPT" [g.val, s.lmn g.val, lo, sidx, blocks]
      match s.ringBack g.val lo with
      | none => s
      | some _ =>
        let s := s.updGl g.val fun e => e.updStream (s.openLo g.val) lo sidx fun x =>
          if x.marker.isSome then x else { x with marker := some blocks }
        s.drainHeld g.val)

/-- MARKER_RECEIPT: the source has its answer; a LAST descriptor that waited only for it is done (R145). -/
def execMarkerReceipt (g : GladeId) (owner ringLo sidx blocks : Nat) (s : State) : Host.Outcome State Fault Refusal :=
  .next (s.inMain fun s =>
    (s.updGl g.val fun e => { e with markersOut := e.markersOut.filter fun m =>
      !(m.owner == owner && m.sidx == sidx && m.ringLo == ringLo % 256 && m.blocks == blocks) }).settleRsgrad g.val)

/-- MARKER_RESEND: a marker without a receipt is sent again (R145). -/
def execMarkerResend (g : GladeId) (owner sidx : Nat) (s : State) : Host.Outcome State Fault Refusal :=
  .next (s.inMain fun s =>
    s.each ((s.gl g.val).markersOut.filter fun m => m.owner == owner && m.sidx == sidx) fun s m =>
      s.toMember g.val owner "MARKER" [g.val, m.ringLo, m.sidx, m.blocks])

/-- READY_NOTICE: the owner pulls its range of the layer with remote line reads (R145). A notice of a ring whose
contributions it would discard is answered pull-done with no block read (DEDUCED, assumption 23). -/
def execReadyNotice (g : GladeId) (ringLo sidx layer block src : Nat) (s : State) : Host.Outcome State Fault Refusal :=
  .next (s.inMain fun s =>
    let lmn := sidx / s.spm g.val
    let lo := ringLo % 256
    if !s.active g.val || !s.exact g.val || !s.ownsBlock g.val layer block then s
    else if (s.gl g.val).covers lo sidx layer then s
    else if (s.ringBack g.val lo).isNone || (s.gl g.val).takenIn ||
        (s.gl g.val).verdictDone && !verdictCarry (s.gl g.val).verdict then
      s.toMember g.val lmn "PULL_DONE" [g.val, s.lmn g.val, sidx, layer, block, 0]
    else
      let p : PullRange := ⟨sidx, layer, block, lmn, lo⟩
      let s := (s.openWindow g.val).updGl g.val fun e => { e with pulls := e.pulls ++ [p] }
      s.each (s.rangeBlocks g.val p) fun s b => s.toMember g.val lmn "LRD" [g.val, src + 4096 * b, 4096])

/-- PULL_DONE: an owner has read its range; an RSGRAD that waited only for it is done (R145). -/
def execPullDone (g : GladeId) (owner sidx layer _count : Nat) (s : State) : Host.Outcome State Fault Refusal :=
  .next (s.inMain fun s =>
    (s.updGl g.val fun e => { e with noticesOut := e.noticesOut.filter (· != (sidx, layer, owner)) }).settleRsgrad g.val)

/-! ## The partial verdict (R90, R91, R94) -/

/-- The squares and the non-finite count of the lanes of one block's buffer. -/
def squares (acc : BitVec 640 × Nat) (v : List F32) : BitVec 640 × Nat :=
  v.foldl (fun a x => if isFinite32 x then (accAdd a.1 (accSquare x), a.2) else (a.1, min (a.2 + 1) 0xFFFFFFFF)) acc

/-- The measure of every owned block whose buffer can be read. -/
def State.measure (s : State) (g : Nat) : BitVec 640 × Nat :=
  (List.range (s.bloc g)).foldl (fun a t => match s.locate g t with
    | some (l, b) =>
      if s.served (s.bufferAddr g t) 4096 then
        squares a ((f32s (s.readBytes (s.bufferAddr g t) 4096)).take (s.lanesOf g l b))
      else a
    | none => a) (0, 0)

/-- Forms the partial verdict with a MISSING count (R90, R91). A stand-in that took its LMN after the commit window opened
enters with an empty one (R113, R156). A buffer that cannot be read requests a skip first (R306); the squares of its lanes
are then not stated, and the accumulator is a free value. -/
def State.formPartial (s : State) (g missing : Nat) : State :=
  let p : PartialVerdict := ⟨0, 0, 0, false, false, (s.gl g).lossInRing, s.carried g, s.openRing g, (s.code g).epoch,
    bit (s.exact g)⟩
  if (s.gl g).takenIn then (s.updGl g fun e => { e with partialV := some p }).setStage g 2
  else
    let s := s.readCheck (s.regionBase g 6) (4096 * s.bloc g)
    let whole := s.served (s.regionBase g 6) (4096 * s.bloc g)
    let m := s.measure g
    let acc := if whole then m.1 else accOf s.freeVal.toNat false
    let s := if whole then s else s.useFree
    let skip := s.on (R.STP_GCTL g) F.STP_GCTL_SKIPREQ
    let p := { p with acc := acc, nonfin := m.2, missing := min missing 0xFFFF, skipReq := skip, strag := missing != 0 }
    let s := s.charge 3 (32 * s.bloc g) 0 0
    (s.updGl g fun e => { e with partialV := some p, skipTaken := e.skipTaken || skip }).setStage g 2

/-- Whether the member still has to form its partial verdict of the open ring. -/
def State.verdictOpen (s : State) (g : Nat) : Bool :=
  s.active g && s.joined g && (s.gl g).partialV.isNone && !(s.gl g).verdictDone && (s.gl g).ringOpen && !s.fenced g

/-- PARTIAL_VERDICT: every expected contribution has arrived, and class 3 permits the reduction (R58, R90, R91). -/
def execPartialVerdict (g : GladeId) (s : State) : Host.Outcome State Fault Refusal :=
  .next (s.inMain fun s =>
    if s.verdictOpen g.val && s.permits g.val 3 && ((s.gl g.val).takenIn || (s.incomplete g.val).isEmpty) then
      s.formPartial g.val 0
    else s)

/-- STRAGGLER_DEADLINE: the member forms its partial verdict as it stands, except under policy 0 or with DEADLINE = 0
(R94). -/
def execStragglerDeadline (g : GladeId) (s : State) : Host.Outcome State Fault Refusal :=
  .next (s.inMain fun s =>
    let f := (s.gl g.val).inForce
    if s.verdictOpen g.val && f.policy != 0 && f.deadline != 0 then s.formPartial g.val (s.incomplete g.val).length else s)

/-! ## The verdict (R92, R93, R148) -/

/-- Two partial verdicts combined (R148). -/
def PartialVerdict.combine (a b : PartialVerdict) : PartialVerdict :=
  { a with acc := accAdd a.acc b.acc, nonfin := min (a.nonfin + b.nonfin) 0xFFFFFFFF,
           missing := min (a.missing + b.missing) 0xFFFF, skipReq := a.skipReq || b.skipReq,
           strag := a.strag || b.strag, loss := a.loss || b.loss }

/-- The children of LMN x that a node does not hold; those of a held child stand in its place. -/
def outerKids (sz : Nat) (held : List Nat) : Nat → Nat → List Nat
  | 0, _ => []
  | f + 1, x => (treeChildren sz x).flatMap fun c => if held.contains c then outerKids sz held f c else [c]

/-- The highest held LMN above LMN x that held LMNs join to it. -/
def climb (sz : Nat) (held : List Nat) : Nat → Nat → Nat
  | 0, x => x
  | f + 1, x => match treeParent sz x with
    | some p => if held.contains p then climb sz held f p else x
    | none => x

/-- The place in the glade's tree from which this member's entries go up: its own LMN, or a hosted one above it (R148, R179).
(DEDUCED, assumption 62.) -/
def State.treeRoot (s : State) (g : Nat) : Nat := climb (s.members g) (s.heldLmns g) (s.members g) (s.lmn g)

/-- The children of this member in the glade's tree. (DEDUCED, assumption 62.) -/
def State.children (s : State) (g : Nat) : List Nat := outerKids (s.members g) (s.heldLmns g) (s.members g) (s.treeRoot g)

/-- The parent of this member in the glade's tree; `none` at LMN 0. -/
def State.parent (s : State) (g : Nat) : Option Nat := treeParent (s.members g) (s.treeRoot g)

/-- The hosted places of the tree that hang apart from this member's own, each with its children: the hosting member enters for
them with nothing of its own (R179). -/
def State.sides (s : State) (g : Nat) : List (Nat × List Nat) :=
  let sz := s.members g
  let held := s.heldLmns g
  (((((s.gl g).hosting.map (climb sz held sz)).eraseDups).filter (· != s.treeRoot g)).map fun x => (x, outerKids sz held sz x))

/-- Every tree child of this node, those of its hosted places included. -/
def State.allKids (s : State) (g : Nat) : List Nat := s.children g ++ (s.sides g).flatMap (·.2)

/-- The entries of every child in increasing LMN, when all have come. -/
def allChildren {α : Type} (kids : List Nat) (l : List (Nat × α)) : Option (List α) :=
  let got := kids.filterMap fun c => (l.find? fun x => x.1 == c).map (·.2)
  if got.length = kids.length then some got else none

/-- Distributes a result of LMN 0 (R148): to every member by multicast relay when DENSE = 1, else to the children. -/
def State.distribute (s : State) (g : Nat) (name : String) (args : List Nat) (data : List Byte := []) : State :=
  if s.dense g then s.toAll g name args data else s.toMembers g (s.allKids g) name args data

/-- A result that came down the tree goes on to the children. -/
def State.passOn (s : State) (g : Nat) (name : String) (args : List Nat) (data : List Byte := []) : State :=
  if s.dense g || s.treeRoot g == 0 then s else s.toMembers g (s.allKids g) name args data

/-- CARRYMAX as the root takes it: 0 in the last ring before a switch that changes S (R210). -/
def State.carryMax (s : State) (g : Nat) : Nat :=
  match (s.gl g).plan with
  | some p =>
    if p.kind = 0 ∧ p.ns ≠ s.members g ∧ s.windowOpen g ∧ s.rd (R.GRV_CPRING g) F.GRV_CPRING_SWRING ≤ s.openRing g + 1 then 0
    else (s.gl g).inForce.carryMax
  | none => (s.gl g).inForce.carryMax

/-- APPLY and CARRY of R92. -/
def State.judge (s : State) (g : Nat) (p : PartialVerdict) : Bool × Bool :=
  let strag := p.missing != 0
  let apply := p.nonfin == 0 && !p.skipReq && !strag
  let carry := !apply && strag && p.nonfin == 0 && !p.skipReq && (s.gl g).inForce.policy == 1 && p.carried < s.carryMax g
  (apply, carry)

/-- Zeroes every reduction buffer under class 0 (R92). -/
def State.zeroBuffers (s : State) (g : Nat) : State :=
  s.each (List.range (s.bloc g)) fun s t => (s.store (s.bufferAddr g t) (zeros 4096)).charge 0 0 32 0

/-- The contributions that wait are discarded as late (R89). -/
def State.discardHeld (s : State) (g : Nat) : State :=
  let n := (s.gl g).held.length
  (s.add (R.STP_CNT g) F.STP_CNT_LATE n).updGl g fun e => { e with held := [] }

/-- The member acts on the verdict of its open ring (R89, R92). -/
def State.takeVerdict (s : State) (g : Nat) (v : List Byte) : State :=
  let s := s.updGl g fun e => { e with verdict := v, verdictDone := true }
  let a := R.STP_GSTAT g
  if verdictApply v then
    let stage := if (s.gl g).takenIn || s.bloc g == 0 then 5 else 3
    (((s.wr a F.STP_GSTAT_LASTAPPLY 1).wr a F.STP_GSTAT_CARRIED 0).discardHeld g).setStage g stage
  else
    let s := ((s.wr a F.STP_GSTAT_LASTAPPLY 0).inc (R.STP_CNT g) F.STP_CNT_SKIPS).setStage g 5
    if verdictCarry v then (s.wr a F.STP_GSTAT_CARRIED (verdictCarried v + 1)).drainHeld g
    else ((s.wr a F.STP_GSTAT_CARRIED 0).discardHeld g).zeroBuffers g

/-- The 80 bytes of a square accumulator (R91). -/
def accBytes (a : BitVec 640) : List Byte := leBytes 80 a.toNat

/-- A combined partial verdict goes up the tree from a place. -/
def State.sendVerdictUp (s : State) (g parent place : Nat) (p : PartialVerdict) : State :=
  s.toMember g parent "VERDICT_UP"
    [g, place, p.nonfin, p.missing, bit p.skipReq + 4 * bit p.strag + 8 * bit p.loss, p.carried, p.ring, p.epoch, p.mode]
    (accBytes p.acc)

/-- Sends up what the children of each hosted place have entered, once all have: `f` combines and sends (R179). -/
def State.eachSide {α : Type} (s : State) (g : Nat) (l : List (Nat × α)) (f : State → Nat → Nat → List α → State) : State :=
  s.each (s.sides g) fun s x => match allChildren x.2 l, treeParent (s.members g) x.1 with
    | some k, some p => f s p x.1 k
    | _, _ => s

/-- Combines this member's partial verdict with those of its children; at LMN 0 the verdict is decided and distributed, and
elsewhere the combined one goes to the parent (R148). -/
def State.reduceVerdict (s : State) (g : Nat) : State :=
  let e := s.gl g
  let s := match e.partialV with
    | some p => s.eachSide g e.childV fun s x place k =>
        s.sendVerdictUp g x place (k.foldl PartialVerdict.combine { p with
          acc := 0, nonfin := 0, missing := 0, skipReq := false, strag := false, loss := false })
    | none => s
  match e.partialV, allChildren (s.children g) e.childV with
  | some p, some l =>
    let p := l.foldl PartialVerdict.combine p
    match s.parent g with
    | some x => s.sendVerdictUp g x (s.treeRoot g) p
    | none =>
      let d := s.judge g p
      let v := verdictRecord p g d.1 d.2
      (s.distribute g "VERDICT" [g] v).takeVerdict g v
  | _, _ => s

/-- VERDICT_REDUCTION (R91, R92, R148): a descriptor of class 3. -/
def execVerdictReduction (g : GladeId) (s : State) : Host.Outcome State Fault Refusal :=
  .next (s.inMain fun s =>
    if s.active g.val && !s.fenced g.val && !(s.gl g.val).verdictDone && s.permits g.val 3 then s.reduceVerdict g.val else s)

/-- VERDICT_RECEIPT (R93): a record whose CRC is wrong or whose RING is not the open ring is discarded, recorded and
requested again from the reduction. -/
def execVerdictReceipt (g : GladeId) (record : List Byte) (s : State) : Host.Outcome State Fault Refusal :=
  .next (s.inMain fun s =>
    if !s.active g.val || s.fenced g.val || (s.gl g.val).verdictDone then s
    else if !verdictCrcOk record || record.length != 32 || leAt record 16 8 != s.openRing g.val then
      let s := s.record (ev Sev.warn Src.stp g.val)
      match s.parent g.val with
      | some x => s.toMember g.val x "VERDICT_REQUEST" [g.val, s.lmn g.val]
      | none => s
    else (s.passOn g.val "VERDICT" [g.val] record).takeVerdict g.val record)

/-! ## The trust-ratio reduction (R102, R148) -/

/-- Whether a layer's program has two passes. -/
def State.twoPass (s : State) (g l : Nat) : Bool := slotTwoPass (s.reg (R.STP_SLOT (s.layerProg g l)))

/-- The layers of glade g whose program has two passes. -/
def State.twoPassLayers (s : State) (g : Nat) : List Nat := (List.range (s.layers g)).filter (s.twoPass g)

/-- The owned blocks of the first sweep, in order (R102). -/
def State.firstSweep (s : State) (g : Nat) : List Nat :=
  (List.range (s.bloc g)).filter fun t => match s.locate g t with
    | some x => s.twoPass g x.1
    | none => false

/-- The pair of accumulators of a layer; zero where this member has none. -/
def layerAcc (l : List LayerAcc) (layer : Nat) : LayerAcc := (l.find? fun x => x.layer == layer).getD ⟨layer, 0, 0⟩

/-- The pairs of every two-pass layer, a place's own and its children's added exactly. -/
def State.trustSums (s : State) (g : Nat) (own : List LayerAcc) (kids : List (List LayerAcc)) : List LayerAcc :=
  (s.twoPassLayers g).map fun l =>
    kids.foldl (fun a k => ⟨l, accAdd a.acc0 (layerAcc k l).acc0, accAdd a.acc1 (layerAcc k l).acc1⟩) (layerAcc own l)

/-- Takes layer sums that the root returned; once every two-pass layer has its own, the second sweep begins (STAGE 4). -/
def State.takeTrust (s : State) (g : Nat) (l : List LayerSum) : State :=
  let s := s.updGl g fun e => { e with trust := (e.trust.filter fun x => !l.any fun y => y.layer == x.layer) ++ l }
  if (s.twoPassLayers g).all fun x => (s.gl g).trust.any fun y => y.layer == x then
    (s.updGl g fun e => { e with trustDone := true }).setStage g 4
  else s

/-- The bytes of a record up the tree: 160 per layer. -/
def trustUpBytes (l : List LayerAcc) : List Byte := l.flatMap fun x => accBytes x.acc0 ++ accBytes x.acc1

/-- The bytes of a result: 16 per layer. -/
def trustDownBytes (l : List LayerSum) : List Byte := l.flatMap fun x => leBytes 8 x.w2.toNat ++ leBytes 8 x.u2.toNat

/-- One step of the trust-ratio reduction at this member (R102, R148): messages of 25 layers up the tree, and of 256 layers
down. -/
def State.reduceTrust (s : State) (g : Nat) : State :=
  let up := fun (s : State) (x place : Nat) (sums : List LayerAcc) => s.each (chunks 25 (sums.length + 1) sums) fun s c =>
    s.toMember g x "TRUST_UP" ([g, place] ++ c.map (·.layer)) (trustUpBytes c)
  let whole := (s.gl g).childT.filter fun x => (s.twoPassLayers g).all fun l => x.2.any fun a => a.layer == l
  let s := s.eachSide g whole fun s x place k => up s x place (s.trustSums g [] k)
  match allChildren (s.children g) whole with
  | none => s
  | some kids =>
    let sums := s.trustSums g (s.gl g).layerAccs kids
    match s.parent g with
    | some x => up s x (s.treeRoot g) sums
    | none =>
      let l := sums.map fun x => (⟨x.layer, accRound x.acc0, accRound x.acc1⟩ : LayerSum)
      let s := s.each (chunks 256 (l.length + 1) l) fun s c =>
        s.distribute g "TRUST" (g :: c.map (·.layer)) (trustDownBytes c)
      s.takeTrust g l

/-- Whether the ring applies here: the verdict says so, and this member is not a stand-in taken in after the window opened. -/
def State.applying (s : State) (g : Nat) : Bool :=
  (s.gl g).verdictDone && verdictApply (s.gl g).verdict && !(s.gl g).takenIn

/-- Whether this member has run its first sweep: a member that applies nothing has none. -/
def State.firstDone (s : State) (g : Nat) : Bool :=
  !s.applying g || (s.firstSweep g).all fun t => (s.gl g).pass1.contains t || (s.gl g).notApplied.contains t

/-- TRUST_RATIO_REDUCTION (R102): a descriptor of class 3, once the first sweep is done. -/
def execTrustRatioReduction (g : GladeId) (s : State) : Host.Outcome State Fault Refusal :=
  .next (s.inMain fun s =>
    if s.active g.val && !s.fenced g.val && (s.gl g.val).verdictDone && verdictApply (s.gl g.val).verdict &&
        !(s.gl g.val).trustDone && !(s.twoPassLayers g.val).isEmpty && s.firstDone g.val && s.permits g.val 3 then
      s.reduceTrust g.val
    else s)

/-- TRUST_RATIO_RESULT: W2 and U2 of some layers come down the tree (R102, R148). -/
def execTrustRatioResult (g : GladeId) (sums : List LayerSum) (s : State) : Host.Outcome State Fault Refusal :=
  .next (s.inMain fun s =>
    if !s.active g.val || !(s.gl g.val).verdictDone || (s.gl g.val).trustDone then s
    else (s.passOn g.val "TRUST" (g.val :: sums.map (·.layer)) (trustDownBytes sums)).takeTrust g.val sums)

end Sys2Proof.Machine
end

