-- ==== Sys2Proof/Machine/Delta.lean ====
section
/-! DEFINITION. Deltas: scaled copies and their answers at the sender (R73 to R78, R81, R105, R106), folding, the holder
journal and the staged parity frames at the holder (R78 to R80, R301 to R303), undo entries (R39, R111), the next code's
deltas while a dual-coding window is open (R207 to R209); rows DELTA_RECEIVE, DELTA_ANSWER, DELTA_RESEND, DELTA_STALE and
PARITY_FRAME_EVICT. -/
namespace Sys2Proof.Machine

/-! ## The two codes -/

/-- The code in force or the next code. -/
def State.codeOf (s : State) (g : Nat) (next : Bool) : Code := if next then s.nextCode g else s.code g

/-- Member count S′ of the plan in hand. -/
def State.nextMembers (s : State) (g : Nat) : Nat :=
  match (s.gl g).plan with
  | some p => p.ns
  | none => s.members g

/-- The PNID behind a next LMN (R201). -/
def State.nextPnid (s : State) (g lmn : Nat) : Nat :=
  match (s.gl g).plan with
  | some p => (p.map.getD lmn 0).toNat % 2 ^ 16
  | none => (s.memberEntry g lmn).pnid

/-- This node's LMN under the next shape, if it is in MAP. -/
def State.nextLmn (s : State) (g : Nat) : Option Nat :=
  (List.range (s.nextMembers g)).find? fun i => s.nextPnid g i == s.pnid

/-- This node's LMN under a code. -/
def State.lmnIn (s : State) (g : Nat) (next : Bool) : Nat := if next then (s.nextLmn g).getD 0 else s.lmn g

/-- The LMN of a slot of this node's grove under a code. -/
def State.slotLmn (s : State) (g : Nat) (next : Bool) (slot : Nat) : Nat :=
  let n := max 1 (s.codeOf g next).n
  s.lmnIn g next / n * n + slot

/-- Sends a message to an LMN of the shape that a code belongs to. -/
def State.sendLmn (s : State) (g : Nat) (next : Bool) (lmn : Nat) (name : String) (args : List Nat) (data : List Byte := []) :
    State :=
  if next then s.toNode (s.nextPnid g lmn) name args data else s.toMember g lmn name args data

/-! ## Sending (R73, R76, R105) -/

/-- The blocks that a message of `n` bytes takes in the fabric. -/
def msgBlocks (n : Nat) : Nat := (n + 31) / 32 + 1

/-- One scaled copy for the holder of parity j: kept until it is answered. -/
def State.sendCopy (s : State) (g : Nat) (next : Bool) (row didx : Nat) (delta : List Byte) (j : Nat) : State :=
  let c := s.codeOf g next
  let h : DeltaHdr := ⟨0, true, didx, j, g, c.epoch, s.openLo g, row⟩
  let scaled := gscale (coef j didx) delta
  let msg := encodeDelta false h scaled
  let holder := s.slotLmn g next (c.paritySlot row j)
  let s := s.updGl g fun e =>
    { e with copies := e.copies ++ [⟨next, row, j, holder, msg, encodeDelta true h scaled, false, 0⟩] }
  let out := if coef j didx = 1 then 0 else ((delta.filter (· != 0)).length + 255) / 256 * 256
  ((s.countGf (s.homeTile (row / max 1 c.n)) out).charge 0 0 0 (msgBlocks msg.length)).sendLmn g next holder "DELTA"
    [s.lmnIn g next] msg

/-- The m copies of the delta of a data leaf under a code. -/
def State.sendCopies (s : State) (g : Nat) (next : Bool) (q : Nat) (delta : List Byte) : State :=
  let c := s.codeOf g next
  let row := c.rowOfLeaf c.slot q
  match c.dataIndex row c.slot with
  | none => s
  | some didx => s.each (List.range c.m) fun s j => s.sendCopy g next row didx delta j

/-- Counts a delta formed once before scaling (R72). -/
def State.countDelta (s : State) (g : Nat) (delta : List Byte) : State :=
  let n := (encodeDelta false ⟨0, false, 0, 0, 0, 0, 0, 0⟩ delta).length + (s.gl g).thinRest
  let s := (s.inc (R.GRV_THIN g) F.GRV_THIN_SENT).add (R.GRV_THIN g) F.GRV_THIN_KIB (n / 1024)
  s.updGl g fun e => { e with thinRest := n % 1024 }

/-- The delta of a data leaf leaves for its holders under the code in force (R73). -/
def State.sendDelta (s : State) (g q : Nat) (delta : List Byte) : State := (s.countDelta g delta).sendCopies g false q delta

/-! ## The undo journal (R39, R111) -/

/-- The place of an entry in a byte ring: its start and what it takes, the bytes skipped at the end included (R79). -/
def ringPlace (tip len size : Nat) : Nat × Nat := if tip + len ≤ size then (tip, len) else (0, len + (size - tip))

/-- An undo entry (R111): the prefix, the unscaled delta and padding. -/
def undoEntry (q ringLo : Nat) (h : DeltaHdr) (delta : List Byte) : List Byte :=
  let d := encodeDelta false h delta
  let len := pad8 (8 + d.length)
  leBytes 8 (q % 2 ^ 32 + 2 ^ 32 * (ringLo % 256) + 2 ^ 40 * (h.epoch % 256) + 2 ^ 48 * len) ++ d ++ zeros (len - 8 - d.length)

/-- The undo entry of a leaf under a code. -/
def State.undoBytes (s : State) (g : Nat) (next : Bool) (q : Nat) (delta : List Byte) : List Byte :=
  let c := s.codeOf g next
  let row := c.rowOfLeaf c.slot q
  undoEntry q (s.openLo g) ⟨0, false, (c.dataIndex row c.slot).getD 0, 0, g, c.epoch, s.openLo g, row⟩ delta

/-- Region 8, or next region 8: base and size in bytes. -/
def State.undoRegion (s : State) (g : Nat) (next : Bool) : Nat × Nat :=
  if next then (s.nextBase g 8, 4096 * s.nextSize g 8) else (s.regionBase g 8, 4096 * s.regionSize g 8)

/-- Where the next undo entry of `len` bytes lies, if it fits. -/
def State.undoFits (s : State) (g : Nat) (next : Bool) (len : Nat) : Option (Nat × Nat) :=
  let e := s.gl g
  let size := (s.undoRegion g next).2
  let r := ringPlace (if next then e.nextUndoTip else e.undoTip) len size
  if (if next then e.nextUndoUsed else e.undoUsed) + r.2 ≤ size && len ≤ size then some r else none

/-- Writes an undo entry where it fits; `none` where it does not. -/
def State.writeUndo (s : State) (g : Nat) (next : Bool) (q : Nat) (delta : List Byte) : Option State :=
  let b := s.undoBytes g next q delta
  match s.undoFits g next b.length with
  | none => none
  | some (off, need) =>
    let s := (s.store ((s.undoRegion g next).1 + off) b).charge 0 0 (linesIn off b.length) 0
    let s := s.updGl g fun e =>
      let e : GladeState := { e with undo := e.undo ++ [⟨next, q, off, b.length, delta⟩] }
      if next then { e with nextUndoUsed := e.nextUndoUsed + need, nextUndoTip := off + b.length }
      else { e with undoUsed := e.undoUsed + need, undoTip := off + b.length }
    let used := if next then (s.gl g).nextUndoUsed else (s.gl g).undoUsed
    some (if next then s else s.raise (R.GLD_JHWM g) F.GLD_JHWM_UJ_HWM ((used + 4095) / 4096))

/-- An undo entry that does not fit (R39): the block's own entries are dropped, and it and every later block of the ring
apply without entries; UOVF and a Warn record that names the block. -/
def State.undoFull (s : State) (g t : Nat) (leaves : List Nat) : State :=
  let s := s.updGl g fun e =>
    { e with
      noUndoFrom := some (min t (e.noUndoFrom.getD t)), noUndo := e.noUndo ++ leaves,
      undo := e.undo.filter fun u => u.next || !leaves.contains u.q }
  (s.wr (R.GLD_STATUS g) F.GLD_STATUS_UOVF 1).record
    (((ev Sev.warn Src.stp g).field (R.GLD_STATUS g) F.GLD_STATUS_UOVF).about t)

/-! ## The ledger leaf's single delta (R105, R111) -/

/-- Keeps a ledger leaf of the next shape as it stood before its first change in the ring. -/
def State.rememberNext (s : State) (g e : Nat) : State :=
  if (s.gl g).nextLedgerOld.any fun x => x.1 == e then s
  else s.updGl g fun x => { x with nextLedgerOld := x.nextLedgerOld ++ [(e, s.readBytes (s.nextBase g 3 + 4096 * e) 4096)] }

/-- The local leaf of ledger leaf e. -/
def State.ledgerQ (s : State) (g e : Nat) : Nat := (1 + s.moments g) * s.bloc g + e

/-- Whether every block of a ledger leaf has applied in the ring, or does not apply in it. -/
def State.ledgerLeafDone (s : State) (g e : Nat) : Bool :=
  ((s.gl g).verdictDone && !s.applying g) || (List.range (min 256 (s.bloc g - 256 * e))).all fun i =>
    (s.gl g).applied.contains (256 * e + i) || (s.gl g).notApplied.contains (256 * e + i)

/-- The ledger leaf's delta, with its undo entry in exact mode unless the leaf holds a block applied without entries. -/
def State.sendLedger (s : State) (g e : Nat) : State :=
  let q := s.ledgerQ g e
  let old := (((s.gl g).ledgerOld.find? fun x => x.1 == e).map (·.2)).getD (zeros 4096)
  let delta := xorBytes old (s.readBytes (s.regionBase g 3 + 4096 * e) 4096)
  let bare := match (s.gl g).noUndoFrom with
    | some t => (s.gl g).applied.any fun b => t ≤ b && b / 256 == e
    | none => false
  let s := if s.exact g && !bare then
      match s.writeUndo g false q delta with
      | some s => s
      | none => s.undoFull g (256 * e) [q]
    else s
  (s.sendDelta g q delta).updGl g fun x => { x with ledgerSent := addOnce x.ledgerSent e }

/-- Sends the deltas of the changed ledger leaves whose last block has applied, once each in the ring. -/
def State.flushLedgers (s : State) (g : Nat) : State :=
  let due := ((s.gl g).ledgerOld.map (·.1)).filter fun e => !(s.gl g).ledgerSent.contains e && s.ledgerLeafDone g e
  s.each due fun s e => s.sendLedger g e

/-! ## The next shape at its owner (R207, R208) -/

/-- Bloc of this node under the next shape. -/
def State.nextBloc (s : State) (g : Nat) : Nat :=
  match s.nextLmn g with
  | some i => s.blocOf g (s.nextMembers g) i
  | none => 0

/-- The owner of a block under the next shape, as a next LMN. -/
def State.nextOwner (s : State) (g l b : Nat) : Nat := s.ownerOf g (s.nextMembers g) l b

/-- The local block index of a block of this node under the next shape. -/
def State.nextLocal (s : State) (g l b : Nat) : Nat := s.localBlock g (s.nextMembers g) (s.lmnIn g true) l b

/-- Whether a block stays with its owner's node under the next shape. -/
def State.staysHere (s : State) (g l b : Nat) : Bool := s.nextLmn g == some (s.nextOwner g l b)

/-- The member offset of a leaf of this node under the next shape. -/
def State.nextLeafAddr (s : State) (g q : Nat) : Nat := leafPlace (s.moments g) (s.nextBloc g) q (s.nextBase g)

/-- Whether the next shape names the current region of a class as its own (R204). -/
def State.reusesClass (s : State) (g x : Nat) : Bool := s.nextBase g x == s.regionBase g x

/-- Whether a block that stays with its node is already in place under the next shape: no region of its leaves, its ledger
entry or its working copy is a new one (R204, R206). -/
def State.inPlace (s : State) (g : Nat) : Bool :=
  (List.range (1 + s.moments g) ++ [3, 5]).all (s.reusesClass g)

/-- The undo entry of a next-code leaf in exact mode; one that does not fit is left out, with UOVF. -/
def State.nextUndo (s : State) (g q : Nat) (delta : List Byte) : State :=
  if !s.exact g then s
  else match s.writeUndo g true q delta with
    | some s => s
    | none => s.wr (R.GLD_STATUS g) F.GLD_STATUS_UOVF 1

/-- One value leaf of a block changes under the next shape: the xor delta enters the next leaf, unless it is the current leaf
itself, and the copies leave under the next code. -/
def State.nextLeaf (s : State) (g t' : Nat) (x : Nat × List Byte) : State :=
  let q := (1 + s.moments g) * t' + x.1
  let o := s.nextLeafAddr g q
  let s := if s.reusesClass g x.1 then s
    else (s.nextUndo g q x.2).store o (xorBytes (s.readBytes o 4096) x.2)
  s.sendCopies g true q x.2

/-- Rounds the working copy of a block of the next shape from its next master. -/
def State.nextRound (s : State) (g l b t' ring : Nat) : State :=
  let m := planeValues (s.readBytes (s.nextBase g 0 + 4096 * t') 4096)
  s.store (s.nextBase g 5 + 2048 * t') (s.roundCopy g l b ring m).1

/-- A block's change under the next shape at its next owner (R207, R208): the deltas by class, and the new ledger entry. -/
def State.nextChange (s : State) (g l b : Nat) (deltas : List (Nat × List Byte)) (entry : List Byte) : State :=
  let t' := s.nextLocal g l b
  let s := s.rememberNext g (t' / 256)
  let s := s.each deltas fun s x => s.nextLeaf g t' x
  let s := if s.reusesClass g 3 then s else s.store (s.nextBase g 3 + 4096 * (t' / 256) + 16 * (t' % 256)) entry
  if s.reusesClass g 5 then s else s.nextRound g l b t' (Ledger.ofBytes entry).ring

/-- The next code's ledger-leaf deltas of the ring. -/
def State.flushNextLedgers (s : State) (g : Nat) : State :=
  let s := s.each (s.gl g).nextLedgerOld fun s x =>
    let q := (1 + s.moments g) * s.nextBloc g + x.1
    let delta := xorBytes x.2 (s.readBytes (s.nextBase g 3 + 4096 * x.1) 4096)
    (if s.reusesClass g 3 then s else s.nextUndo g q delta).sendCopies g true q delta
  s.updGl g fun e => { e with nextLedgerOld := [], nextFlushed := true }

/-! ## When the apply stage and the fold wait end (R86, R106, R207) -/

/-- Whether every owned block has been settled in the open ring: applied, or not applied in it; a block whose copies are
still being invalidated is not done (R291). -/
def State.applyDone (s : State) (g : Nat) : Bool :=
  (s.gl g).verdictDone && !(s.router.invs.any fun w => w.glade == g && !w.answer) && (!s.applying g ||
    (List.range (s.bloc g)).all fun t => (s.gl g).applied.contains t || (s.gl g).notApplied.contains t)

/-- The current owners that have copied a block to this node, as LMNs. -/
def State.copySources (s : State) (g : Nat) : List Nat :=
  ((s.gl g).arrived.map fun x => s.ownerOf g (s.members g) x.1 x.2).filter (· != s.lmn g) |>.eraseDups

/-- The next owners that this member has copied a block to. -/
def State.copyTargets (s : State) (g : Nat) : List Nat :=
  ((s.gl g).copied.filterMap fun t => (s.locate g t).bind fun x =>
    if s.staysHere g x.1 x.2 then none else some (s.nextOwner g x.1 x.2)).eraseDups

/-- Whether every shadow-end that this node expects has arrived. -/
def State.endsArrived (s : State) (g : Nat) : Bool := (s.copySources g).all (s.gl g).shadowEndsIn.contains

/-- The rows of a block's value leaves under the next code. -/
def State.nextRows (s : State) (g l b : Nat) : List Nat :=
  let c := s.nextCode g
  (List.range (1 + s.moments g)).map fun x => c.rowOfLeaf c.slot ((1 + s.moments g) * s.nextLocal g l b + x)

/-- Answers the shadows whose next-code deltas have been folded, and the shadow-ends once all have arrived and the next code's
ledger-leaf deltas are answered (R207). -/
def State.settleShadows (s : State) (g : Nat) : State :=
  let open' := fun (s : State) (x : Nat × Nat × Nat) =>
    (s.gl g).copies.any fun c => c.next && (s.nextRows g x.2.1 x.2.2).contains c.row
  let done := (s.gl g).shadowsIn.filter fun x => !open' s x
  let s := s.each done fun s x => s.toMember g x.1 "COPY_ACK" [g, x.2.1, x.2.2, 1]
  let s := s.updGl g fun e => { e with shadowsIn := e.shadowsIn.filter fun x => !done.contains x }
  let e := s.gl g
  if !s.windowOpen g || (s.active g && !s.applyDone g) || !e.shadowsIn.isEmpty || !s.endsArrived g then s
  else
    let s := if e.nextFlushed then s else s.flushNextLedgers g
    if (s.gl g).copies.any (·.next) then s
    else
      let s := s.each (s.gl g).shadowEndsIn fun s x => s.toMember g x "COPY_ACK" [g, 0, 0, 2]
      s.updGl g fun e => { e with shadowEndsIn := [] }

/-- After its last apply of the ring a current owner sends a shadow-end to every next owner that it has copied to (R207). -/
def State.sendEnds (s : State) (g : Nat) : State :=
  if !s.windowOpen g || (s.gl g).endsSent || !s.applyDone g || !verdictApply (s.gl g).verdict then s
  else
    let s := s.updGl g fun e => { e with endsSent := true }
    s.each (s.copyTargets g) fun s x =>
      (s.updGl g fun e => { e with handovers := e.handovers ++ [⟨2, 0, 0, x⟩] }).sendLmn g true x "SHADOW_END" [g, s.lmn g]

/-- Whether the member is fold-complete (R106, R207): every block settled, every ledger leaf sent, every copy answered or its
holder stale, and every shadow and shadow-end answered. -/
def State.foldComplete (s : State) (g : Nat) : Bool :=
  let e := s.gl g
  s.applyDone g && (e.ledgerOld.all fun x => e.ledgerSent.contains x.1) && e.copies.isEmpty &&
  (e.handovers.all (·.kind == 0)) && e.nextLedgerOld.isEmpty

/-- After a block, an answer or a shadow: the ledger leaves that are due leave, and the fold wait begins once every block is
settled (STAGE 5). -/
def State.settleApply (s : State) (g : Nat) : State :=
  let s := ((s.flushLedgers g).sendEnds g).settleShadows g
  if s.applyDone g && (s.stage g == 3 || s.stage g == 4) then s.setStage g 5 else s

/-! ## Answers at the sender (R78, R81, R106) -/

/-- Marks a holder stale for a row in the open ring. -/
def State.holderStale (s : State) (g : Nat) (next : Bool) (row pidx : Nat) (warn : Bool) : State :=
  let s := s.updGl g fun e => { e with
    copies := e.copies.filter fun c => !(c.next == next && c.row == row && c.pidx == pidx),
    staleSent := addOnce e.staleSent ⟨next, row, pidx⟩ }
  let s := s.inc (R.STP_GSTAT g) F.STP_GSTAT_STALE
  if warn then s.record (((ev Sev.warn Src.grv g).field (R.STP_GSTAT g) F.STP_GSTAT_STALE).about row) else s

/-- A copy is answered. -/
def State.copyDone (s : State) (g : Nat) (next : Bool) (row pidx : Nat) : State :=
  s.updGl g fun e => { e with copies := e.copies.filter fun c => !(c.next == next && c.row == row && c.pidx == pidx) }

/-- A Fault record of the sender about a row. -/
def State.deltaFault (s : State) (g row : Nat) : State :=
  s.record (((ev Sev.fault Src.grv g).field (R.STP_GSTAT g) F.STP_GSTAT_STALE).about row)

/-- Sends a kept copy again and counts it in RETRIES. -/
def State.resendCopy (s : State) (g : Nat) (c : Copy) : State :=
  (s.inc (R.STP_CNT g) F.STP_CNT_RETRIES).sendLmn g c.next c.holder "DELTA" [s.lmnIn g c.next]
    (if c.rawTried then c.rawBytes else c.bytes)

/-- The outcome of a response 4 by the epoch that the holder reports (R81). -/
def State.epochAnswer (s : State) (g : Nat) (c : Copy) (epoch : Nat) : State :=
  let own := (s.codeOf g c.next).epoch
  if (epoch + 1) % 256 = own then s.holderStale g c.next c.row c.pidx false
  else if epoch = (own + 1) % 256 then s.updGl g fun e => { e with epochWait := true }
  else (s.deltaFault g c.row).holderStale g c.next c.row c.pidx false

/-- A holder's answer to a copy (R78, R106). An answer to a copy that is no longer kept changes nothing. -/
def State.deltaAnswer (s : State) (g : Nat) (next : Bool) (row pidx code epoch : Nat) : State :=
  match (s.gl g).copies.find? fun c => c.next == next && c.row == row && c.pidx == pidx with
  | none => s
  | some c =>
    let s := match code with
      | 0 => s.copyDone g next row pidx
      | 1 => s.copyDone g next row pidx
      | 8 => s.copyDone g next row pidx
      | 2 =>
        if c.rawTried then s.holderStale g next row pidx false
        else
          let c' := { c with rawTried := true }
          (s.updGl g fun e => { e with copies := mapFirst (· == c) (fun _ => c') e.copies }).resendCopy g c'
      | 4 => s.epochAnswer g c epoch
      | 5 => (s.deltaFault g row).holderStale g next row pidx false
      | 7 => s.holderStale g next row pidx true
      | _ => s.holderStale g next row pidx false
    s.settleApply g

/-- DELTA_ANSWER (R78, R81, R106). -/
def execDeltaAnswer (g : GladeId) (next : Bool) (row pidx code epoch : Nat) (s : State) :
    Host.Outcome State Fault Refusal :=
  .next (s.inMain fun s => s.deltaAnswer g.val next row pidx code epoch)

/-- DELTA_RESEND: a copy that has no answer is sent again (R106). -/
def execDeltaResend (g : GladeId) (next : Bool) (row pidx : Nat) (s : State) : Host.Outcome State Fault Refusal :=
  .next (s.inMain fun s =>
    match (s.gl g.val).copies.find? fun c => c.next == next && c.row == row && c.pidx == pidx with
    | none => s
    | some c =>
      let c' := { c with resends := c.resends + 1 }
      (s.updGl g.val fun e => { e with copies := mapFirst (· == c) (fun _ => c') e.copies }).resendCopy g.val c')

/-- DELTA_STALE: 200 µs without an answer (R106). -/
def execDeltaStale (g : GladeId) (next : Bool) (row pidx : Nat) (s : State) : Host.Outcome State Fault Refusal :=
  .next (s.inMain fun s =>
    if (s.gl g.val).copies.any fun c => c.next == next && c.row == row && c.pidx == pidx then
      (s.holderStale g.val next row pidx true).settleApply g.val
    else s)

/-! ## The holder journal and the staged frames (R79, R80, R303) -/

/-- Region 7, or next region 7: base and size in bytes. -/
def State.journal (s : State) (g : Nat) (next : Bool) : Nat × Nat :=
  if next then (s.nextBase g 7, 4096 * s.nextSize g 7) else (s.regionBase g 7, 4096 * s.regionSize g 7)

/-- Reserves 4,120 B of the journal: the start, if it fits. -/
def State.reserve (s : State) (g : Nat) (next : Bool) : Option (Nat × State) :=
  let e := s.gl g
  let size := (s.journal g next).2
  let r := ringPlace (if next then e.nextFoldTip else e.foldTip) 4120 size
  let used := (if next then e.nextFoldUsed else e.foldUsed) + r.2
  if size < used ∨ size < 4120 then none
  else
    let s := s.updGl g fun e =>
      if next then { e with nextFoldUsed := used, nextFoldTip := r.1 + 4120 }
      else { e with foldUsed := used, foldTip := r.1 + 4120 }
    some (r.1, if next then s else s.raise (R.GLD_JHWM g) F.GLD_JHWM_HJ_HWM ((used + 4095) / 4096))

/-- Changes the fold of a parity leaf. -/
def State.setFold (s : State) (g : Nat) (f : Fold) : State :=
  s.updGl g fun e => { e with folds := (e.folds.filter fun x => !(x.next == f.next && x.p == f.p)) ++ [f] }

/-- A parity leaf leaves SRAM: its entry is written at the start of its reservation, whose unused part is returned when
nothing follows it in the ring (R80). -/
def State.evictParity (s : State) (g : Nat) (next : Bool) (p : Nat) : State :=
  let s := s.dropFrame g next p
  match s.fold g next p with
  | none => s
  | some f => match f.resv with
    | none => s.setFold g { f with staged := false }
    | some off =>
      let c := s.codeOf g next
      let row := c.rowOfParity c.slot p
      let b := holderEntry f.bits (s.openLo g) ⟨0, true, 31, p % max 1 c.m, g, c.epoch, s.openLo g, row⟩ f.net
      let s := s.setFold g { f with staged := false, resv := none, entry := some off }
      let s := s.updGl g fun e =>
        if next then
          (if e.nextFoldTip = off + 4120 then
            { e with nextFoldTip := off + b.length, nextFoldUsed := e.nextFoldUsed - (4120 - b.length) } else e)
        else
          (if e.foldTip = off + 4120 then
            { e with foldTip := off + b.length, foldUsed := e.foldUsed - (4120 - b.length) } else e)
      (s.store ((s.journal g next).1 + off) b).charge 1 0 (linesIn off b.length) 0

/-- The parity leaf that a frame stages. -/
def State.frameLeaf (s : State) (f : Frame4K) : Nat × Bool × Nat :=
  let next := f.region == 10
  (f.glade, next, f.unit - s.parityUnit f.glade next 0)

/-- Stages a parity leaf in its home tile, with the lines that a delta dirties: a full pool first evicts a frame, a clean one
before a dirty one, and the least recently used first (R303). -/
def State.stageParity (s : State) (g : Nat) (next : Bool) (p : Nat) (again : Bool) (lines : Nat) : State :=
  let t := s.homeTile p
  let u := s.parityUnit g next p
  let mine := fun f : Frame4K => f.glade == g && f.region == parityRegion next && f.unit == u
  match s.frames.find? mine with
  | some f =>
    let f' := { f with dirty := f.dirty ||| BitVec.ofNat 32 lines }
    (s.add (R.TIL_STAGE t) F.TIL_STAGE_HITS 1) |> fun s => { s with frames := (s.frames.filter fun x => !mine x) ++ [f'] }
  | none =>
    let pool := s.parityFrames t
    let s := if pool.length < s.pframes t then s
      else match (pool.find? fun f => f.dirty == 0).or pool.head? with
        | some f => let x := s.frameLeaf f; s.evictParity x.1 x.2.1 x.2.2
        | none => s
    let s := if again then s.inc (R.TIL_STAGE t) F.TIL_STAGE_RESTAGE else s
    let s := s.updTl t fun x => { x with used := true }
    { s with frames := s.frames ++ [⟨t, g, parityRegion next, u, BitVec.ofNat 32 lines⟩] }

/-- The lines of a leaf that a delta changes. -/
def dirtyLines (delta : List Byte) : Nat := maskOf ((List.range 32).map fun i => nonZero (slice delta (128 * i) 128))

/-! ## Folding (R78) -/

/-- Answers a delta. -/
def State.answerDelta (s : State) (h : DeltaHdr) (next : Bool) (sender code epoch : Nat) : State :=
  s.sendLmn h.glade next sender "DELTA_ANSWER" [h.glade, bit next, h.row, h.pidx, code, epoch]

/-- Refuses a delta with a record and a count of GRV_FOLDSTAT. -/
def State.refuseDelta (s : State) (h : DeltaHdr) (next : Bool) (sender code sev : Nat) : State :=
  let g := h.glade
  let f := if code = 4 then F.GRV_FOLDSTAT_EPNACK else F.GRV_FOLDSTAT_FMTNACK
  let s := (s.inc (R.GRV_FOLDSTAT g) f).record (((ev sev Src.grv g).field (R.GRV_FOLDSTAT g) f).about h.row)
  s.answerDelta h next sender code (s.code g).epoch

/-- A duplicate is acknowledged without folding. -/
def State.duplicate (s : State) (h : DeltaHdr) (next : Bool) (sender : Nat) : State :=
  (s.inc (R.GRV_FOLDSTAT h.glade) F.GRV_FOLDSTAT_DUP).answerDelta h next sender 1 (s.code h.glade).epoch

/-- No journal space can be reserved (R38). -/
def State.journalFull (s : State) (h : DeltaHdr) (next : Bool) (sender : Nat) : State :=
  let s := (s.wr (R.GLD_STATUS h.glade) F.GLD_STATUS_JOVF 1).record
    (((ev Sev.warn Src.grv h.glade).field (R.GLD_STATUS h.glade) F.GLD_STATUS_JOVF).about h.row)
  s.answerDelta h next sender 7 (s.code h.glade).epoch

/-- Folds a delta's bytes into parity leaf p and its net change, and sets the fold bit (R73, R78, R80). -/
def State.foldInto (s : State) (g : Nat) (next : Bool) (p didx : Nat) (f : Fold) (resv : Nat) (d : List Byte) : State :=
  let o := 4096 * s.parityUnit g next p
  let again := f.entry.isSome && !f.staged
  let s := s.setFold g { f with bits := f.bits ||| 2 ^ didx, net := xorBytes f.net d, staged := true, resv := some resv }
  let s := s.stageParity g next p again (dirtyLines d)
  (s.store o (xorBytes (s.readBytes o 4096) d)).charge 1 32 32 0

/-- Orders 5 to 9 of R78 for a built parity leaf. -/
def State.foldDelta (s : State) (h : DeltaHdr) (next : Bool) (sender p : Nat) (d : List Byte) : State :=
  let g := h.glade
  let f := (s.fold g next p).getD ⟨next, p, 0, zeros 4096, false, none, none⟩
  if h.ringLo = s.ring g % 256 then s.duplicate h next sender
  else if h.ringLo ≠ s.openLo g then s.refuseDelta h next sender 6 Sev.warn
  else if bitAt f.bits h.didx then s.duplicate h next sender
  else if !s.served (4096 * s.parityUnit g next p) 4096 then
    let s := (s.readCheck (4096 * s.parityUnit g next p) 4096).dropFold g next p
    let s := if next then s.updGl g fun e => { e with nextUnbuilt := addOnce e.nextUnbuilt p } else s.markStale g p
    s.answerDelta h next sender 8 (s.code g).epoch
  else
    match f.resv with
    | some r => (s.foldInto g next p h.didx f r d).answerDelta h next sender 0 (s.code g).epoch
    | none => match s.reserve g next with
      | some (r, s) => (s.foldInto g next p h.didx f r d).answerDelta h next sender 0 (s.code g).epoch
      | none => s.journalFull h next sender

/-- Whether a parity leaf of this node has not been built or rebuilt (R180, R209, R360). -/
def State.notBuilt (s : State) (g : Nat) (next : Bool) (p : Nat) : Bool :=
  let e := s.gl g
  if next then e.nextUnbuilt.contains p
  else e.unbuilt.contains p || (match e.standIn with
    | some r => r.parityLeft.contains p
    | none => false)

/-- Order 4 of R78 fails: the place that the delta names is not this holder's, or not the sender's. -/
def State.misplaced (s : State) (h : DeltaHdr) (next : Bool) (sender slot : Nat) : Bool :=
  let c := s.codeOf h.glade next
  let n := max 1 c.n
  c.rows ≤ h.row || c.m ≤ h.pidx || c.paritySlot h.row h.pidx != slot || c.k ≤ h.didx ||
  c.dataSlot h.row h.didx != sender % n || sender / n != s.lmnIn h.glade next / n

/-- The slots that this node answers for under a code: its own and, under the code in force, those it hosts. -/
def State.heldSlots (s : State) (g : Nat) (next : Bool) : List Nat :=
  let c := s.codeOf g next
  c.slot :: (if next then [] else (s.gl g).hosting.map (· % max 1 c.n))

/-- Checks 1 to 4 of R78, and the code that a delta belongs to: an answer code with its severity, or the code. -/
def State.checkDelta (s : State) (h : DeltaHdr) (sender : Nat) : Sum (Nat × Nat) (Bool × Nat) :=
  let g := h.glade
  let next := s.windowOpen g && h.epoch == (s.nextCode g).epoch
  if !next && (!s.active g || !s.inGrove g) then .inl (3, Sev.fault)
  else if h.epoch ≠ (s.code g).epoch ∧ next = false then .inl (4, Sev.warn)
  else match (s.heldSlots g next).find? fun x => !s.misplaced h next sender x with
    | none => .inl (5, Sev.fault)
    | some slot => .inr (next, slot)

/-- An arriving delta (R78), once class 1 permits a fold. `sender` is the sender's LMN under the shape of the delta's
epoch. A delta for a leaf whose build is in progress is held (R209, R360). -/
def State.receiveDelta (s : State) (sender : Nat) (msg : List Byte) : State :=
  let h := DeltaHdr.ofWord (leAt msg 0 8)
  let g := h.glade
  let early := s.windowOpen g && h.epoch == (s.nextCode g).epoch
  let s := if h.form = 1 then s.inc (R.GRV_FOLDSTAT g) F.GRV_FOLDSTAT_RAWRX else s
  match parseDelta true msg with
  | none => s.refuseDelta h early sender 2 Sev.fault
  | some (h, d) => match s.checkDelta h sender with
    | .inl (code, sev) => s.refuseDelta h early sender code sev
    | .inr (next, slot) =>
      let c := s.codeOf g next
      let p := c.parityLeaf h.row h.pidx
      if slot ≠ c.slot then s.answerDelta h next sender 8 (s.code g).epoch
      else if (s.gl g).building.contains (next, p) then
        s.updGl g fun e => { e with heldDeltas := e.heldDeltas ++ [(sender, msg)] }
      else if s.notBuilt g next p then s.answerDelta h next sender 8 (s.code g).epoch
      else s.foldDelta h next sender p d

/-- Takes up the deltas that wait in a glade's input queue. -/
def State.takeHeld (s : State) (g : Nat) : State :=
  let l := (s.gl g).heldDeltas
  s.each l fun s x => State.receiveDelta (s.updGl g fun e => { e with heldDeltas := e.heldDeltas.erase x }) x.1 x.2

/-- Whether a received delta may be folded now: class 1 gates the start of a fold only (R58, R60). -/
def State.foldPermitted (s : State) (g : Nat) : Bool := !s.active g || s.permits g 1

/-- A delta arrives: without permission for class 1 it waits in the input queue. -/
def State.arriveDelta (s : State) (sender : Nat) (msg : List Byte) : State :=
  let g := (DeltaHdr.ofWord (leAt msg 0 8)).glade
  if s.foldPermitted g then (s.takeHeld g).receiveDelta sender msg
  else s.updGl g fun e => { e with heldDeltas := e.heldDeltas ++ [(sender, msg)] }

/-- DELTA_RECEIVE (R38, R73, R77 to R82, R180, R209, R360). -/
def execDeltaReceive (sender : Nat) (msg : List Byte) (s : State) : Host.Outcome State Fault Refusal :=
  .next (s.inMain fun s => s.arriveDelta sender msg)

/-- PARITY_FRAME_EVICT: a staged parity leaf of the code in force leaves SRAM (R79, R80, R303). -/
def execParityFrameEvict (g : GladeId) (p : Nat) (s : State) : Host.Outcome State Fault Refusal :=
  .next (s.inMain fun s =>
    if s.frames.any fun f => f.glade == g.val && f.region == 4 && f.unit == s.parityUnit g.val false p then
      s.evictParity g.val false p
    else s)

end Sys2Proof.Machine
end

