-- ==== Sys2Proof/Machine/Seedbank.lean ====
section
/-! DEFINITION. Seedbank: SWEEP_START, SWEEP_RECORD, RESTORE_RECORD and REQUEST_RESEND (R199, R224 to R235, R335). -/
namespace Sys2Proof.Machine

/-! ## Sweeps (R226 to R231) -/

/-- Whether a sweep of ring R falls due (R226). -/
def State.sweepFalls (s : State) (g r : Nat) : Bool :=
  let every := s.rd (R.GLD_SBCTL g) F.GLD_SBCTL_EVERY
  let at' := s.rd (R.GLD_SBAT g) F.GLD_SBAT_RING
  (every != 0 && r % every == 0) || (at' != 0 && r == at')

/-- The header of a sweep's record. -/
def State.sweepHdr (s : State) (g : Nat) (w : Sweep) (kind seq l b arg vring : Nat) (ragged part : Bool) : SeedHdr :=
  ⟨kind, w.narrow, ragged, part, s.moments g, g, w.ring, l, b, s.lmn g, s.members g - 1, (s.code g).epoch, seq,
   s.reg (R.GLD_LAYERHASH g), arg, vring⟩

/-- Writes a sweep's record where a key and room are there; `none` where it must wait. -/
def State.sweepWrite (s : State) (g : Nat) (h : SeedHdr) (body : List Byte) : Option State :=
  match s.keyCur g with
  | none => none
  | some k => if s.seedRoom g (seedLen body.length) then some (s.seedWrite g (h.seal (seedKey k.key g) body)) else none

/-- Changes the running sweep. -/
def State.updSweep (s : State) (g : Nat) (f : Sweep → Sweep) : State :=
  s.updGl g fun e => { e with sweep := e.sweep.map f }

/-- A record found no space: FULL, and one Warn record per sweep (R228). -/
def State.sweepFull (s : State) (g : Nat) (w : Sweep) : State :=
  let s := s.wr (R.GLD_SBSTAT g) F.GLD_SBSTAT_FULL 1
  if w.fullWarned then s
  else
    let s := s.record ((ev Sev.warn Src.gld g).field (R.GLD_SBSTAT g) F.GLD_SBSTAT_FULL)
    s.updSweep g fun w => { w with fullWarned := true }

/-- Writes START where it can be written. -/
def State.sweepBegin (s : State) (g : Nat) (w : Sweep) : State :=
  match s.sweepWrite g (s.sweepHdr g w 1 0 0 0 (s.bloc g) 0 false false) [] with
  | some s => s.updSweep g fun w => { w with startDone := true }
  | none => s.sweepFull g w

/-- A due sweep starts, or is skipped (R226). -/
def State.startSweep (s : State) (g : Nat) : State :=
  if !(s.gl g).sweepDue then s
  else
    let c := R.GLD_SBCTL g
    let r := s.ring g
    let s := s.updGl g fun e => { e with sweepDue := false }
    let s := if s.rd (R.GLD_SBAT g) F.GLD_SBAT_RING = r then s.wr (R.GLD_SBAT g) F.GLD_SBAT_RING 0 else s
    if (s.gl g).sweep.isSome || s.seedSize g == 0 || !s.on c F.GLD_SBCTL_EN then
      (s.wr (R.GLD_SBSTAT g) F.GLD_SBSTAT_SKIPPED 1).record
        ((ev Sev.note Src.gld g).field (R.GLD_SBSTAT g) F.GLD_SBSTAT_SKIPPED)
    else
      let w : Sweep := ⟨r, s.openRing g, [], [], 0, false, false, false, s.on c F.GLD_SBCTL_STRICT,
        !s.on c F.GLD_SBCTL_FULLMOM, s.rd c F.GLD_SBCTL_TARGET, s.bloc g, 0, false⟩
      let s := s.updGl g fun e => { e with sweep := some w }
      ((s.wr (R.GLD_SBSTAT g) F.GLD_SBSTAT_SWEEP 1).wr (R.GLD_SBSTAT g) F.GLD_SBSTAT_LEFT (s.bloc g)).sweepBegin g w

/-- The body of a BLOCK record (R230): ledger entry, master, and the moments whole or as planes 2 and 3. -/
def State.blockBody (s : State) (g t : Nat) (narrow : Bool) : List Byte :=
  let leaf := fun x => s.readBytes (s.regionBase g x + 4096 * t) 4096
  s.readBytes (s.ledgerAddr g t) 16 ++ leaf 0 ++
  (List.range (s.moments g)).flatMap fun i => if narrow then (leaf (i + 1)).drop 2048 else leaf (i + 1)

/-- Writes the BLOCK record of local block t where it can be written (R227, R230). -/
def State.recordBlock (s : State) (g : Nat) (w : Sweep) (t : Nat) : Option State :=
  match s.locate g t with
  | none => none
  | some (l, b) =>
    let ragged := w.strict && w.later.contains t
    let vring := if w.strict && !ragged then w.ring else s.ring g
    match s.sweepWrite g (s.sweepHdr g w 2 (w.seq + 1) l b 0 vring ragged false) (s.blockBody g t w.narrow) with
    | none => none
    | some s =>
      let s := if ragged then s.wr (R.GLD_SBSTAT g) F.GLD_SBSTAT_RAGGED 1 else s
      let s := s.wr (R.GLD_SBSTAT g) F.GLD_SBSTAT_LEFT (s.rd (R.GLD_SBSTAT g) F.GLD_SBSTAT_LEFT - 1)
      some (s.updSweep g fun w => { w with seq := w.seq + 1, done := w.done ++ [t], ragged := w.ragged || ragged })

/-- Writes END where it can be written, and ends the sweep (R229). -/
def State.sweepFinish (s : State) (g : Nat) (w : Sweep) : State :=
  match s.sweepWrite g (s.sweepHdr g w 3 (w.seq + 1) 0 0 w.seq 0 false w.partialEnd) [] with
  | none => s.sweepFull g w
  | some s =>
    let s := (s.wr (R.GLD_SBSTAT g) F.GLD_SBSTAT_SWEEP 0).wr (R.GLD_SBSTAT g) F.GLD_SBSTAT_LEFT 0
    let s := if w.ragged || w.partialEnd then s else s.wr (R.GLD_SBRING g) F.GLD_SBRING_RING w.ring
    s.updGl g fun e => { e with sweep := none }

/-- A sweep that ends early by a switch or by a write of EN = 0: END with PARTIAL (R229). -/
def State.sweepPartial (s : State) (g : Nat) : State :=
  match (s.gl g).sweep with
  | none => s
  | some w =>
    let w := { w with partialEnd := true }
    (s.updGl g fun e => { e with sweep := some w }).sweepFinish g w

/-- The record that the first apply of a block writes before it (R227). -/
def State.sweepBefore (s : State) (g t : Nat) : State :=
  match (s.gl g).sweep with
  | none => s
  | some w =>
    if !w.strict || w.partialEnd || w.done.contains t || w.later.contains t then s
    else match s.recordBlock g w t with
      | some s => s
      | none => (s.updSweep g fun w => { w with later := w.later ++ [t] }).sweepFull g w

/-- Whether the pacing of R228 allows another ordinary record in the open ring. -/
def State.sweepPaced (s : State) (g : Nat) (w : Sweep) : Bool :=
  let e := (s.openRing g + 2 ^ 64 - w.startedAt) % 2 ^ 64
  w.target = 0 || w.target ≤ e || w.quotaUsed < (w.leftAt + (w.target - e) - 1) / (w.target - e)

/-- One ordinary record of the running sweep: START if it is not written, the next block whose values are committed, or
END. -/
def State.sweepStep (s : State) (g : Nat) (w : Sweep) : State :=
  if w.partialEnd then s.sweepFinish g w
  else if !w.startDone then s.sweepBegin g w
  else match (List.range (s.bloc g)).find? fun t => !w.done.contains t with
    | none => s.sweepFinish g w
    | some t =>
      if !s.sweepPaced g w || (s.gl g).applied.contains t then s
      else match s.recordBlock g w t with
        | none => s.sweepFull g w
        | some s =>
          let s := s.updSweep g fun w => { w with quotaUsed := w.quotaUsed + 1 }
          match (s.gl g).sweep with
          | some w => if s.bloc g ≤ w.done.length then s.sweepFinish g w else s
          | none => s

/-- SWEEP_START (R226). -/
def execSweepStart (g : GladeId) (s : State) : Host.Outcome State Fault Refusal :=
  .next (s.inMain fun s => s.startSweep g.val)

/-- SWEEP_RECORD (R227 to R231): a unit of class 6 (R58). -/
def execSweepRecord (g : GladeId) (s : State) : Host.Outcome State Fault Refusal :=
  .next (s.inMain fun s => match (s.gl g.val).sweep with
    | some w => if s.active g.val && s.permits g.val 6 then s.sweepStep g.val w else s
    | none => s)

/-- A write of GLD_SBCTL (R224, R225): LOADALL is kept while EN of the glade is 1; clearing EN ends a running sweep (R229). -/
def State.writeSbctl (s : State) (g : Nat) (v : Word) : State :=
  let a := R.GLD_SBCTL g
  let closed := s.on (R.GLD_CTL g) F.GLD_CTL_EN && fget v F.GLD_SBCTL_LOADALL != s.rd a F.GLD_SBCTL_LOADALL
  let s := if closed then s.record ((ev Sev.warn Src.gld g).field a F.GLD_SBCTL_LOADALL) else s
  let was := s.on a F.GLD_SBCTL_EN
  let s := s.plainWrite a (if closed then fput v F.GLD_SBCTL_LOADALL (s.rd a F.GLD_SBCTL_LOADALL) else v)
  if was && !s.on a F.GLD_SBCTL_EN then s.sweepPartial g else s

/-! ## Restore (R232, R233, R235) -/

/-- The bytes of the restore ring from a byte offset on, past its end to its start. -/
def State.restoreBytes (s : State) (g o n : Nat) : List Byte :=
  let base := 4096 * s.rd (R.GLD_SBIN g) F.GLD_SBIN_BASE
  let size := max 1 (4096 * s.rd (R.GLD_SBIN g) F.GLD_SBIN_SIZE)
  (List.range n).map fun i => s.readByte (base + (o + i) % size)

/-- Opens a record under current, PREV, NEXT in that order (R335). -/
def State.openRecord (s : State) (g : Nat) (h : SeedHdr) (rec : List Byte) : Option (List Byte) :=
  (s.keyGens g).findSome? fun k => h.open (seedKey k.key g) rec

/-- Whether a full restore is open: LOADALL, with the glade active. -/
def State.fullRestore (s : State) (g : Nat) : Bool := s.active g && s.on (R.GLD_SBCTL g) F.GLD_SBCTL_LOADALL

/-- Whether a restore waits for a block (R232 check 4). -/
def State.restoreWants (s : State) (g l b : Nat) : Bool :=
  s.ownsBlock g l b && (s.fullRestore g || (s.gl g).wanted.any fun w => w.layer == l && w.block == b)

/-- The checks 2 to 6 of R232. -/
def State.restoreOk (s : State) (g : Nat) (h : SeedHdr) : Bool :=
  h.kind == 2 && h.glade == g && h.hash == s.reg (R.GLD_LAYERHASH g) && h.moments == s.moments g &&
  s.restoreWants g h.layer h.block && h.vring ≤ s.ring g &&
  !(s.gl g).restored.any fun x => x.1 == h.layer && x.2.1 == h.block && h.vring ≤ x.2.2

/-- The leaf of class c in a record's body: a narrow moment has zero planes 0 and 1 (R232). -/
def recordLeaf (narrow : Bool) (body : List Byte) (c : Nat) : List Byte :=
  if c = 0 then slice body 16 4096
  else if narrow then zeros 2048 ++ slice body (4112 + 2048 * (c - 1)) 2048
  else slice body (4112 + 4096 * (c - 1)) 4096

/-- The ledger entry of a restored block: RING and STEPS of the record, with a LAG. -/
def recordEntry (body : List Byte) (lag : Bool) : Ledger := { Ledger.ofBytes (slice body 0 16) with lag := lag }

/-- Counts blocks set to LAG = 1. -/
def State.countLag (s : State) (g : Nat) (lag : Bool) : State :=
  if lag then s.inc (R.STP_GSTAT g) F.STP_GSTAT_LAGGED else s

/-- Remembers that a block was restored from a record of a ring. -/
def State.noteRestored (s : State) (g : Nat) (h : SeedHdr) : State :=
  s.updGl g fun e => { e with
    restored := (e.restored.filter fun x => !(x.1 == h.layer && x.2.1 == h.block)) ++ [(h.layer, h.block, h.vring)] }

/-- The full restore ends: LOADALL is cleared, a restore that is not exact is recorded, and the join starts (R233). -/
def State.restoreEnd (s : State) (g : Nat) : State :=
  let s := s.wr (R.GLD_SBCTL g) F.GLD_SBCTL_LOADALL 0
  let s := s.wr (R.GLD_SBSTAT g) F.GLD_SBSTAT_RESTORE 0
  let s := if (s.gl g).restoreInexact then s.record (ev Sev.warn Src.gld g) else s
  (s.updGl g fun e => { e with restoreInexact := false }).startJoin g

/-- A block of a full restore is written (R233). -/
def State.restoreBlock (s : State) (g t : Nat) (h : SeedHdr) (body : List Byte) : State :=
  let lag := h.vring < s.ring g
  let first := !(s.gl g).restored.any fun x => x.1 == h.layer && x.2.1 == h.block
  let s := s.each (List.range (1 + s.moments g)) fun s c =>
    s.store (s.regionBase g c + 4096 * t) (recordLeaf h.narrow body c)
  let s := (s.store (s.ledgerAddr g t) (recordEntry body lag).bytes).store (s.bufferAddr g t) (zeros 4096)
  let s := ((s.roundAgain g t).countLag g lag).noteRestored g h
  let s := s.updGl g fun e => { e with restoreInexact := e.restoreInexact || (s.exact g && (h.narrow || lag)) }
  if !first then s
  else
    let left := s.rd (R.GLD_SBSTAT g) F.GLD_SBSTAT_LEFT - 1
    let s := s.wr (R.GLD_SBSTAT g) F.GLD_SBSTAT_LEFT left
    if left = 0 then s.restoreEnd g else s

/-- A leaf of this member is rebuilt or written whole: it is no erasure any more. -/
def State.leafThere (s : State) (g q : Nat) : State :=
  s.updGl g fun e => { e with
    repair := e.repair.erase q,
    standIn := e.standIn.map fun r => { r with dataLeft := r.dataLeft.erase q, front := r.front.erase q } }

/-- Every parity leaf of a row is to be encoded again: this member's own, and by message the others'. -/
def State.encodeAgain (s : State) (g row : Nat) : State :=
  let c := s.code g
  s.each (List.range c.m) fun s j =>
    let sl := c.paritySlot row j
    if sl = c.slot then s.updGl g fun e => { e with unbuilt := addOnce e.unbuilt (c.parityLeaf row j) }
    else s.toMember g (s.lmnOfSlot g sl) "ENCODE_AGAIN" [g, row]

/-- A leaf takes a restored value as a change of the open ring (R235): in a row that is whole its delta leaves at once, with
its undo entry in exact mode; an erased leaf is followed by the encoding of its row's parity. -/
def State.restoreLeaf (s : State) (g q : Nat) (new : List Byte) : State :=
  let c := s.code g
  let row := c.rowOfLeaf c.slot q
  let o := s.leafAddr g q
  if s.ownErased g row then ((s.store o new).leafThere g q).encodeAgain g row
  else
    let delta := xorBytes (s.readBytes o 4096) new
    let s := if s.exact g && (s.gl g).noUndoFrom.isNone then
        match s.writeUndo g false q delta with
        | some s => s
        | none => s.undoFull g 0 [q]
      else s
    (s.store o new).sendDelta g q delta

/-- The ledger entry of a restored block (R235): with the leaf's single delta of the ring if that has not left, else in the
next ring. A ledger leaf that is erased itself is written at once, and its row encoded again. -/
def State.restoreEntry (s : State) (g t : Nat) (entry : List Byte) : State :=
  let e := t / 256
  let row := (s.code g).rowOfLeaf (s.code g).slot (s.ledgerQ g e)
  if s.ownErased g row then (s.store (s.ledgerAddr g t) entry).encodeAgain g row
  else if (s.gl g).ledgerSent.contains e then s.updGl g fun x => { x with ledgerLater := x.ledgerLater ++ [(t, entry)] }
  else (s.rememberLedger g e).store (s.ledgerAddr g t) entry

/-- A row leaves deadfall (R199): RESTORED, AGEMAX and a Warn record with its age. -/
def State.rowRestored (s : State) (g row vring : Nat) : State :=
  let age := min (s.openRing g - vring) 0xFFFF
  let s := s.updGl g fun e => { e with deadRows := e.deadRows.erase row }
  let s := s.wr (R.GRV_DEAD g) F.GRV_DEAD_ROWS (s.rd (R.GRV_DEAD g) F.GRV_DEAD_ROWS - 1)
  let s := (s.inc (R.GRV_DEAD g) F.GRV_DEAD_RESTORED).raise (R.GRV_DEAD g) F.GRV_DEAD_AGEMAX age
  s.record ((((ev Sev.warn Src.grv g).field (R.GRV_DEAD g) F.GRV_DEAD_AGEMAX).coded age).about row)

/-- A block that a deadfall row asked for is written (R199, R235). -/
def State.restoreDead (s : State) (g t : Nat) (h : SeedHdr) (body : List Byte) : State :=
  let rows := ((s.gl g).wanted.filter fun w => w.layer == h.layer && w.block == h.block).filterMap (·.row)
  let entry := (recordEntry body true).bytes
  let s := s.each (List.range (1 + s.moments g)) fun s c => s.restoreLeaf g (s.valueLeaf g t c) (recordLeaf h.narrow body c)
  let s := ((s.restoreEntry g t entry).roundAgain g t).countLag g true
  let s := (s.noteRestored g h).updGl g fun e => { e with
    wanted := e.wanted.filter fun w => !(w.layer == h.layer && w.block == h.block),
    notApplied := if e.applied.contains t then e.notApplied else addOnce e.notApplied t }
  let back := rows.filter fun r => (s.gl g).deadRows.contains r && !(s.gl g).wanted.any fun w => w.row == some r
  let s := s.each back fun s r => s.rowRestored g r h.vring
  let s := if s.exact g && !back.isEmpty then s.record (ev Sev.warn Src.gld g) else s
  let s := if (s.gl g).wanted.isEmpty then s.wr (R.GLD_SBSTAT g) F.GLD_SBSTAT_RESTORE 0 else s
  s.settleApply g

/-- A refused record of the restore ring is counted. -/
def State.restoreDrop (s : State) (g : Nat) : State := s.inc (R.GLD_SBERR g) F.GLD_SBERR_DROP

/-- Consumes the record at RPTR (R225, R232). A record whose LEN is not that of its header's body fails its tag. -/
def State.restoreNext (s : State) (g : Nat) : State :=
  let a := R.GLD_SBIPTR g
  let r := s.rd a F.GLD_SBIPTR_RPTR
  let size := 4096 * s.rd (R.GLD_SBIN g) F.GLD_SBIN_SIZE
  if size = 0 ∨ r = s.rd a F.GLD_SBIPTR_WPTR then s
  else
    let hd := s.restoreBytes g r 64
    let h := SeedHdr.ofBytes hd
    let len := 64 * max 1 (leAt hd 0 2)
    let rec' := s.restoreBytes g r len
    let s := (s.charge 6 (linesIn r len) 0 0).wr a F.GLD_SBIPTR_RPTR ((r + len) % size)
    if h.kind = 0 then s
    else match if len = seedLen h.bodyLen then s.openRecord g h rec' else none with
      | none => (s.inc (R.GLD_SBERR g) F.GLD_SBERR_AUTH).record
          ((ev Sev.warn Src.gld g).field (R.GLD_SBERR g) F.GLD_SBERR_AUTH)
      | some body =>
        if !s.restoreOk g h then s.restoreDrop g
        else
          let t := s.localBlock g (s.members g) (s.lmn g) h.layer h.block
          if s.fullRestore g then s.restoreBlock g t h body else s.restoreDead g t h body

/-- RESTORE_RECORD (R232 to R235). -/
def execRestoreRecord (g : GladeId) (s : State) : Host.Outcome State Fault Refusal :=
  .next (s.inMain fun s => s.restoreNext g.val)

/-- REQUEST_RESEND: a request without an answer in 10 s is written again, with a Warn record (R234). -/
def execRequestResend (g : GladeId) (layer block : Nat) (s : State) : Host.Outcome State Fault Refusal :=
  .next (s.inMain fun s =>
    if (s.gl g.val).wanted.any fun w => w.layer == layer && w.block == block then
      (s.record ((ev Sev.warn Src.gld g.val).field (R.GLD_SBSTAT g.val) F.GLD_SBSTAT_RESTORE)).seedRequest g.val layer block
    else s)

end Sys2Proof.Machine
end

