-- ==== Sys2Proof/Machine/Publish.lean ====
section
/-! DEFINITION. Weight publishing and rollout images: PUBLISH_GO, PUBLISH_START, PUBLISH_BLOCK, WP_START, WP_BLOCK, WP_END,
IMAGE_TIMEOUT, IMAGE_ENABLE, IMAGE_LOAD, LOADREQ, IMAGE_ANSWER, LOAD_RETRY, TOUCH and ORPHAN (R217 to R223). -/
namespace Sys2Proof.Machine

/-! ## Records (R219) -/

/-- The PNIDs of a KIDS register whose KIDV bit is 1. -/
def kidsOf (kids : Word) (kidv : Nat) : List Nat :=
  (List.range 4).filterMap fun j => if bitAt kidv j then some (bitsOf kids.toNat (16 * j) 16) else none

/-- A body over 2,048 bytes: thinned, or raw where the thinned form would exceed 2,064 B. -/
def wpBody (d : List Byte) : List Byte := if 2064 < thinSize d then leBytes 8 (2 ^ 64 - 1) ++ slice d 0 2048 else thinBody d

/-- The 2,048 bytes that a body spells; `none` where it is malformed. -/
def wpUnbody (b : List Byte) : Option (List Byte) :=
  let map := leAt b 0 8
  if map = 2 ^ 64 - 1 then (if b.length = 2056 then some (b.drop 8) else none)
  else if 2 ^ 32 ≤ map then none
  else
    let r := unthin 32 map (b.drop 8)
    if r.2.2 && r.2.1.isEmpty && 8 ≤ b.length then some r.1 else none

/-- The bytes of a record of a KIND. -/
def WpRecord.bytes (r : WpRecord) (kind : Nat) : List Byte :=
  leBytes 4 r.stream ++ leBytes 1 (kind + 4 * bit r.replace + 8 * bit r.full) ++ zeros 3 ++ leBytes 8 r.ring ++
  leBytes 8 r.arg ++ r.body

/-! ## The publisher (R217, R218) -/

/-- The stream of glade g. -/
def State.wpStream (s : State) (g : Nat) : Nat := s.rd (R.GRV_WPCTL g) F.GRV_WPCTL_STREAM

/-- Sends a record of glade g's publish to its KIDS. -/
def State.wpSend (s : State) (g kind : Nat) (r : WpRecord) : State :=
  let b := r.bytes kind
  let kids := kidsOf (s.reg (R.GRV_WPKIDS g)) (s.rd (R.GRV_WPCTL g) F.GRV_WPCTL_KIDV)
  s.each kids fun s k => (s.charge 7 0 0 (msgBlocks b.length)).toNode k "WEIGHTS" [r.stream, kind] b

/-- A stream slot moves to its next generation at the first START whose RING is at least SWRING (R331). -/
def State.switchStream (s : State) (x ring : Nat) : State :=
  s.updKs x fun k => match k.next with
    | some n => if n.swRing ≤ ring then { k with cur := some n, prev := k.cur, next := none } else k
    | none => k

/-- The base copy of local block t. -/
def State.wpBaseAddr (s : State) (g t : Nat) : Nat := 4096 * s.rd (R.GRV_WPBASE g) F.GRV_WPBASE_BASE + 2048 * t

/-- Whether the base region holds block t. -/
def State.wpBaseHolds (s : State) (g t : Nat) : Bool := 2048 * (t + 1) ≤ 4096 * s.rd (R.GRV_WPBASE g) F.GRV_WPBASE_SIZE

/-- The global index of a block: the blocks of the lower layers, then b (R219). -/
def State.globalBlock (s : State) (g l b : Nat) : Nat := ((List.range l).map (s.layerBlocks g)).sum + b

/-- Ends a publish whose blocks have all been sent: END, BUSY and RING. -/
def State.publishEnd (s : State) (g : Nat) (p : Publish) : State :=
  if p.sent.length < s.bloc g then s
  else
    let s := s.wpSend g 2 ⟨s.wpStream g, false, false, p.ring, p.sent.length, []⟩
    let s := (s.wr (R.GRV_WPCTL g) F.GRV_WPCTL_BUSY 0).wr (R.GRV_WPRING g) F.GRV_WPRING_RING p.ring
    s.updGl g fun e => { e with publish := none, lacksBase := [], baseRing := some p.ring }

/-- Sends the BLOCK record of a block and writes its working copy into the base (R218, R219). -/
def State.publishOne (s : State) (g t : Nat) (p : Publish) : State :=
  match s.locate g t with
  | none => s
  | some (l, b) =>
    let copy := s.readBytes (s.copyAddr g t) 2048
    let e := s.gl g
    let replace := p.full || e.baseRing.isNone || e.lacksBase.contains t || !s.wpBaseHolds g t
    let body := if replace then copy else xorBytes (s.readBytes (s.wpBaseAddr g t) 2048) copy
    let s := s.wpSend g 1 ⟨s.wpStream g, replace, false, p.ring, s.globalBlock g l b, wpBody body⟩
    let s := if s.wpBaseHolds g t then (s.store (s.wpBaseAddr g t) copy).charge 7 16 16 0 else s.charge 7 16 0 0
    let p := { p with sent := p.sent ++ [t] }
    (s.updGl g fun e => { e with publish := some p }).publishEnd g p

/-- The record that the apply of a block not yet published sends before it (R218). -/
def State.publishBefore (s : State) (g t : Nat) : State :=
  match (s.gl g).publish with
  | some p => if p.sent.contains t then s else s.publishOne g t p
  | none => s

/-- A due publish starts: START goes out, with GO and FULL taken up. Without a key slot of the stream nothing is sent, and a
Warn record says so (R328). -/
def State.startPublish (s : State) (g : Nat) : State :=
  if !(s.gl g).publishDue then s
  else
    let a := R.GRV_WPCTL g
    let s := s.updGl g fun e => { e with publishDue := false }
    if (s.gl g).publish.isSome then s.updGl g fun e => { e with publishHeld := true }
    else
      let full := s.on a F.GRV_WPCTL_FULL
      let s := ((s.wr a F.GRV_WPCTL_GO 0).wr a F.GRV_WPCTL_FULL 0).updGl g fun e => { e with publishHeld := false }
      match s.streamSlot (s.wpStream g) with
      | none => s.record ((ev Sev.warn Src.grv g).field a F.GRV_WPCTL_STREAM)
      | some x =>
        let p : Publish := ⟨s.ring g, full, []⟩
        let total := ((List.range (s.layers g)).map (s.layerBlocks g)).sum
        let s := (s.wr a F.GRV_WPCTL_BUSY 1).switchStream x p.ring
        let s := s.wpSend g 0 ⟨s.wpStream g, false, full, p.ring, s.members g + 2 ^ 16 * total, []⟩
        (s.updGl g fun e => { e with publish := some p }).publishEnd g p

/-- Whether a publish falls due at the ring start after the commit of ring r: EN, and GO, a held trigger or the EVERY-th
commit. -/
def State.publishFalls (s : State) (g r : Nat) : Bool :=
  let a := R.GRV_WPCTL g
  let every := s.rd a F.GRV_WPCTL_EVERY
  s.on a F.GRV_WPCTL_EN && (s.on a F.GRV_WPCTL_GO || (s.gl g).publishHeld || every != 0 && r % every == 0)

/-- PUBLISH_GO: sets GO; the publish starts at the next ring start (R217, R218). -/
def execPublishGo (g : GladeId) (s : State) : Host.Outcome State Fault Refusal :=
  .next (s.inMain fun s => s.wr (R.GRV_WPCTL g.val) F.GRV_WPCTL_GO 1)

/-- PUBLISH_START (R218). -/
def execPublishStart (g : GladeId) (s : State) : Host.Outcome State Fault Refusal :=
  .next (s.inMain fun s => s.startPublish g.val)

/-- PUBLISH_BLOCK: one BLOCK record, a unit of class 7 (R58, R218). -/
def execPublishBlock (g : GladeId) (t : Nat) (s : State) : Host.Outcome State Fault Refusal :=
  .next (s.inMain fun s => match (s.gl g.val).publish with
    | some p =>
      if t < s.bloc g.val && !p.sent.contains t && s.permits g.val 7 then s.publishOne g.val t p else s
    | none => s)

/-! ## Receivers (R220, R221) -/

/-- STATE of an image. -/
def State.imgState (s : State) (i : Nat) : Nat := s.rd (R.GRV_WIMG_CTL i) F.GRV_WIMG_CTL_STATE

/-- Sets STATE of an image. -/
def State.setImg (s : State) (i n : Nat) : State := s.wr (R.GRV_WIMG_CTL i) F.GRV_WIMG_CTL_STATE n

/-- The image slot that holds a stream. -/
def State.imgOf (s : State) (stream : Nat) : Option Nat :=
  (List.range 16).find? fun i => s.on (R.GRV_WIMG_CTL i) F.GRV_WIMG_CTL_EN &&
    s.rd (R.GRV_WIMG_CTL i) F.GRV_WIMG_CTL_STREAM == stream

/-- The member offset of an image. -/
def State.imgBase (s : State) (i : Nat) : Nat := 4096 * s.rd (R.GRV_WIMG_BASE i) F.GRV_WIMG_BASE_BASE

/-- The KIDS of an image. -/
def State.imgKids (s : State) (i : Nat) : List Nat :=
  kidsOf (s.reg (R.GRV_WIMG_KIDS i)) (s.rd (R.GRV_WIMG_CTL i) F.GRV_WIMG_CTL_KIDV)

/-- Relays an accepted record unchanged, before it is applied (R221). -/
def State.relay (s : State) (i kind : Nat) (r : WpRecord) : State :=
  let b := r.bytes kind
  s.each (s.imgKids i) fun s k => (s.charge 7 0 0 (msgBlocks b.length)).toNode k "WEIGHTS" [r.stream, kind] b

/-- The bitmap of an image: its offset and its length in bytes. -/
def State.imgBitmap (s : State) (i : Nat) : Nat × Nat :=
  (s.imgBase i + 2048 * (s.im i).blocks, ((s.im i).blocks + 7) / 8)

/-- START at a receiver (R221). A loading receiver drops it and remembers its ring (R222). -/
def State.wpStart (s : State) (i : Nat) (r : WpRecord) : State :=
  if s.imgState i = 3 then
    s.updIm i fun m => { m with missedStart := some (max r.ring (m.missedStart.getD 0)) }
  else
    let s := (s.relay i 0 r).updIm i fun m =>
      { m with ends := [], size := r.arg % 2 ^ 16, blocks := bitsOf r.arg 16 32, seen := [], ring := r.ring }
    let bm := s.imgBitmap i
    (s.store bm.1 (zeros bm.2)).setImg i 2

/-- A BLOCK at a receiver: xored in, or written with its bit set; a delta for a block whose bit is set is dropped (R221). -/
def State.wpBlock (s : State) (i : Nat) (r : WpRecord) : State :=
  let m := s.im i
  match wpUnbody r.body with
  | none => s
  | some d =>
    if s.imgState i ≠ 2 ∨ r.ring ≠ m.ring ∨ m.blocks ≤ r.arg then s
    else
      let s := (s.relay i 1 r).updIm i fun m => { m with seen := m.seen ++ [r.arg] }
      let o := s.imgBase i + 2048 * r.arg
      let bo := (s.imgBitmap i).1 + r.arg / 8
      let old := (s.readByte bo).toNat
      let s := s.charge 7 16 16 0
      if r.replace then (s.store o d).store bo [BitVec.ofNat 8 (old ||| 2 ^ (r.arg % 8))]
      else if bitAt old (r.arg % 8) then s
      else s.store o (xorBytes (s.readBytes o 2048) d)

/-- Whether every END has come with counts that match the blocks received. -/
def ImageState.whole (m : ImageState) : Bool :=
  m.ends.length == m.size && (m.ends.map (·.2)).sum == m.seen.length

/-- END of one member at a receiver; with all of them the image is current (R221). -/
def State.wpEnd (s : State) (i lmn : Nat) (r : WpRecord) : State :=
  if s.imgState i ≠ 2 ∨ r.ring ≠ (s.im i).ring then s
  else
    let s := (s.relay i 2 r).updIm i fun m => { m with ends := (m.ends.filter fun x => x.1 != lmn) ++ [(lmn, r.arg)] }
    if (s.im i).whole then
      let s := (s.wr (R.GRV_WIMG_GEN i) F.GRV_WIMG_GEN_RING r.ring).setImg i 1
      (s.wr (R.GRV_WIMG_CTL i) F.GRV_WIMG_CTL_DONE 1).record
        { (ev Sev.note Src.grv 0).field (R.GRV_WIMG_CTL i) F.GRV_WIMG_CTL_DONE with glade := none }
    else s

/-- Runs a receiver's rule for the image of a stream; a stream that the node does not hold is dropped. -/
def State.onImage (s : State) (stream : Nat) (f : State → Nat → State) : State :=
  match s.imgOf stream with
  | some i => f s i
  | none => s

/-- WP_START (R221). -/
def execWpStart (r : WpRecord) (s : State) : Host.Outcome State Fault Refusal :=
  .next (s.inMain fun s => s.onImage r.stream fun s i => s.wpStart i r)

/-- WP_BLOCK (R221). -/
def execWpBlock (r : WpRecord) (s : State) : Host.Outcome State Fault Refusal :=
  .next (s.inMain fun s => s.onImage r.stream fun s i => s.wpBlock i r)

/-- WP_END (R221). -/
def execWpEnd (lmn : Nat) (r : WpRecord) (s : State) : Host.Outcome State Fault Refusal :=
  .next (s.inMain fun s => s.onImage r.stream fun s i => s.wpEnd i lmn r)

/-- IMAGE_TIMEOUT: without every END within 1 s the image is incomplete (R221). -/
def execImageTimeout (i : ImageId) (s : State) : Host.Outcome State Fault Refusal :=
  .next (s.inMain fun s => if s.imgState i.val = 2 then s.setImg i.val 4 else s)

/-! ## The pool (R223) -/

/-- The units that an image needs. -/
def State.imgSize (s : State) (i : Nat) : Nat := s.rd (R.GRV_WIMG_BASE i) F.GRV_WIMG_BASE_SIZE

/-- The other images in the pool as (base, size) in units. -/
def State.imgOthers (s : State) (i : Nat) : List (Nat × Nat) :=
  ((List.range 16).filter fun x => x != i && s.on (R.GRV_WIMG_CTL x) F.GRV_WIMG_CTL_EN).map fun x =>
    (s.rd (R.GRV_WIMG_BASE x) F.GRV_WIMG_BASE_BASE, s.imgSize x)

/-- Whether an image fits at a unit of the pool. -/
def State.imgFits (s : State) (i u : Nat) : Bool :=
  let p := s.rd R.GRV_WPOOL F.GRV_WPOOL_BASE
  let n := s.imgSize i
  p ≤ u && u + n ≤ p + s.rd R.GRV_WPOOL F.GRV_WPOOL_SIZE &&
  !(s.imgOthers i).any fun o => overlaps u n o.1 o.2

/-- A place for an image in the pool: the lowest free one (DESIGN CHOICE, assumption 24). -/
def State.imgPlace (s : State) (i : Nat) : Option Nat :=
  (s.rd R.GRV_WPOOL F.GRV_WPOOL_BASE :: (s.imgOthers i).map fun o => o.1 + o.2).filter (s.imgFits i) |>.min?

/-- Whether an image may be evicted for slot i. -/
def State.imgEvictable (s : State) (i x : Nat) : Bool :=
  x != i && s.on (R.GRV_WIMG_CTL x) F.GRV_WIMG_CTL_EN && !s.on (R.GRV_WIMG_CTL x) F.GRV_WIMG_CTL_PIN &&
  s.imgState x != 2 && s.imgState x != 3

/-- COUNT and LAST of an image as one key: the lowest COUNT, then the lowest LAST. -/
def State.imgKey (s : State) (x : Nat) : Nat :=
  2 ^ 32 * s.rd (R.GRV_WIMG_USE x) F.GRV_WIMG_USE_COUNT + s.rd (R.GRV_WIMG_USE x) F.GRV_WIMG_USE_LAST

/-- The image that Ranger evicts for slot i. -/
def State.imgVictim (s : State) (i : Nat) : Option Nat :=
  ((List.range 16).filter (s.imgEvictable i)).foldl (fun (m : Option Nat) x => match m with
    | none => some x
    | some y => if s.imgKey x < s.imgKey y then some x else m) none

/-- Evicts an image: ORPHAN to its KIDS, the slot cleared, a Note record, and every remaining COUNT halved. -/
def State.imgEvict (s : State) (x : Nat) : State :=
  let stream := s.rd (R.GRV_WIMG_CTL x) F.GRV_WIMG_CTL_STREAM
  let s := s.each (s.imgKids x) fun s k => s.toNode k "ORPHAN" [stream]
  let s := (((s.resetReg (R.GRV_WIMG_CTL x)).resetReg (R.GRV_WIMG_BASE x)).resetReg (R.GRV_WIMG_GEN x)).resetReg
    (R.GRV_WIMG_USE x)
  let s := (s.resetReg (R.GRV_WIMG_KIDS x)).updIm x fun _ => ImageState.reset
  let s := s.record { (ev Sev.note Src.grv 0).field (R.GRV_WIMG_CTL x) F.GRV_WIMG_CTL_EN with glade := none }
  s.each ((List.range 16).filter (· != x)) fun s y =>
    s.wr (R.GRV_WIMG_USE y) F.GRV_WIMG_USE_COUNT (s.rd (R.GRV_WIMG_USE y) F.GRV_WIMG_USE_COUNT / 2)

/-- Gives an image a place, evicting until it fits; `false` where no further image can be evicted. (DESIGN CHOICE, assumption 24.) -/
def State.imgAllocate (s : State) (i : Nat) : Nat → State × Bool
  | 0 => (s, false)
  | n + 1 =>
    match s.imgPlace i with
    | some u => (s.wr (R.GRV_WIMG_BASE i) F.GRV_WIMG_BASE_BASE u, true)
    | none => match s.imgVictim i with
      | some x => (s.imgEvict x).imgAllocate i n
      | none => (s, false)

/-- A request for which the pool has no room is refused with a Warn record (R223). -/
def State.imgRefuse (s : State) (i : Nat) : State :=
  s.record { (ev Sev.warn Src.grv 0).field (R.GRV_WIMG_CTL i) F.GRV_WIMG_CTL_EN with glade := none }

/-- EN of an image slot is set: it is allocated, or the request is refused with a Warn record (R223). -/
def State.imageEnable (s : State) (i : Nat) : State :=
  let a := R.GRV_WIMG_CTL i
  if s.on a F.GRV_WIMG_CTL_EN then s
  else
    let r := s.imgAllocate i 17
    if r.2 then ((r.1.wr a F.GRV_WIMG_CTL_EN 1).setImg i 0).updIm i fun _ => ImageState.reset else r.1.imgRefuse i

/-- EN of an image slot is cleared: the slot is not in use and holds no image. -/
def State.imageDisable (s : State) (i : Nat) : State :=
  ((s.wr (R.GRV_WIMG_CTL i) F.GRV_WIMG_CTL_EN 0).setImg i 0).updIm i fun _ => ImageState.reset

/-! ## Loads (R222) -/

/-- Sends LOADREQ to SRC. -/
def State.sendLoadreq (s : State) (i : Nat) : State :=
  s.toNode (s.rd (R.GRV_WIMG_CTL i) F.GRV_WIMG_CTL_SRC) "LOADREQ"
    [s.pnid, s.rd (R.GRV_WIMG_CTL i) F.GRV_WIMG_CTL_STREAM]

/-- LOAD of an image slot in use: STATE 3 and LOADREQ. A slot that no longer fits its place is allocated again first; without room the load is refused. -/
def State.imageLoad (s : State) (i : Nat) : State :=
  let a := R.GRV_WIMG_CTL i
  let go := fun s : State =>
    (((s.setImg i 3).updIm i fun m => { m with missedStart := none, retries := 0 })).sendLoadreq i
  if !s.on a F.GRV_WIMG_CTL_EN then s
  else if s.imgFits i (s.rd (R.GRV_WIMG_BASE i) F.GRV_WIMG_BASE_BASE) then go s
  else
    let r := s.imgAllocate i 17
    if r.2 then go r.1 else r.1.imgRefuse i

/-- One more use of an image: COUNT and LAST (R220). -/
def State.imgUse (s : State) (i : Nat) : State :=
  (s.inc (R.GRV_WIMG_USE i) F.GRV_WIMG_USE_COUNT).wr (R.GRV_WIMG_USE i) F.GRV_WIMG_USE_LAST (s.now / 1000)

/-- A load that is given up: a Warn record and STATE 4. -/
def State.loadFailed (s : State) (i : Nat) : State :=
  (s.setImg i 4).record { (ev Sev.warn Src.grv 0).field (R.GRV_WIMG_CTL i) F.GRV_WIMG_CTL_STATE with glade := none }

/-- IMAGE_ENABLE (R220, R223). -/
def execImageEnable (i : ImageId) (s : State) : Host.Outcome State Fault Refusal :=
  .next (s.inMain fun s => s.imageEnable i.val)

/-- IMAGE_LOAD (R222). -/
def execImageLoad (i : ImageId) (s : State) : Host.Outcome State Fault Refusal :=
  .next (s.inMain fun s => s.imageLoad i.val)

/-- LOADREQ at SRC (R222): a current image is sent and used; any other state is answered BUSY. Without the stream's key
nothing can be sent (R332). -/
def execLoadreq (requester stream : Nat) (s : State) : Host.Outcome State Fault Refusal :=
  .next (s.inMain fun s =>
    if (s.streamSlot stream).isNone then s
    else match s.imgOf stream with
      | none => s.toNode requester "LOAD_BUSY" [stream]
      | some i =>
        if s.imgState i = 1 then
          let n := 2048 * (s.im i).blocks
          let b := s.readBytes (s.imgBase i) n
          ((s.imgUse i).charge 7 (linesIn (s.imgBase i) n) 0 (msgBlocks n)).toNode requester "LOAD_IMAGE"
            [stream, (s.reg (R.GRV_WIMG_GEN i)).toNat] b
        else s.toNode requester "LOAD_BUSY" [stream])

/-- IMAGE_ANSWER (R222): the image is written, and loaded again where a newer START was dropped; a refusal waits for
LOAD_RETRY or, after the eighth retry, ends the load. -/
def execImageAnswer (i : ImageId) (a : LoadAnswer) (s : State) : Host.Outcome State Fault Refusal :=
  .next (s.inMain fun s =>
    let m := s.im i.val
    if s.imgState i.val ≠ 3 then s
    else match a with
      | .image gen b =>
        let s := (s.store (s.imgBase i.val) b).charge 7 0 (linesIn (s.imgBase i.val) b.length) 0
        let s := s.wr (R.GRV_WIMG_GEN i.val) F.GRV_WIMG_GEN_RING gen
        let s := s.updIm i.val fun m => { m with blocks := b.length / 2048, ends := [], seen := [], ring := gen }
        if gen < m.missedStart.getD 0 then s.imageLoad i.val else s.setImg i.val 1
      | .busy => if 8 ≤ m.retries then s.loadFailed i.val else s
      | .aborted => if 8 ≤ m.retries then s.loadFailed i.val else s)

/-- LOAD_RETRY: a refused load is asked for again after 1 ms, up to 8 times (R222). -/
def execLoadRetry (i : ImageId) (s : State) : Host.Outcome State Fault Refusal :=
  .next (s.inMain fun s =>
    if s.imgState i.val ≠ 3 then s
    else if 8 ≤ (s.im i.val).retries then s.loadFailed i.val
    else (s.updIm i.val fun m => { m with retries := m.retries + 1 }).sendLoadreq i.val)

/-- TOUCH (R220). -/
def execTouch (i : ImageId) (s : State) : Host.Outcome State Fault Refusal :=
  .next (s.inMain fun s => s.imgUse i.val)

/-- ORPHAN: the image of the stream becomes incomplete (R223). -/
def execOrphan (stream : Nat) (s : State) : Host.Outcome State Fault Refusal :=
  .next (s.inMain fun s => s.onImage stream fun s i => s.setImg i 4)

/-- A write of GRV_WIMG[i]_CTL (R220): the plain fields, then EN, then LOAD. -/
def State.writeWimgCtl (s : State) (i : Nat) (v : Word) : State :=
  let a := R.GRV_WIMG_CTL i
  let was := s.rd a F.GRV_WIMG_CTL_EN
  let en := fget v F.GRV_WIMG_CTL_EN == 1
  let s := s.plainWrite a (fput v F.GRV_WIMG_CTL_EN was)
  let s := if en then s.imageEnable i else if was = 1 then s.imageDisable i else s
  if fget v F.GRV_WIMG_CTL_LOAD = 1 then s.imageLoad i else s

end Sys2Proof.Machine
end

