-- ==== Sys2Proof/Machine/Apply.lean ====
section
/-! DEFINITION. The row APPLY_BLOCK: one pass of a step program over one owned block (R95 to R105, R118), with the undo
entries (R111), the working copy (R103, R104), the deltas (R105), the invalidation of kept copies (R291) and the shadow of a
block that has moved (R207, R208). -/
namespace Sys2Proof.Machine

/-! ## Invalidation (R290, R291) -/

/-- The LMNs that an invalidation of glade g reaches. -/
def State.spanOf (s : State) (g : Nat) : List Nat :=
  let a := R.RTR_SPAN g
  ((List.range (min 128 (s.rd a F.RTR_SPAN_COUNT))).map (s.rd a F.RTR_SPAN_BASE + ·)).filter (· != s.lmn g)

/-- Sends INV for a range of lines to the span; the answers are awaited under the transaction `txid` of `requester`. An empty
span sends nothing. -/
def State.invalidate (s : State) (g o n requester txid : Nat) (answer : Bool) : State :=
  let l := s.spanOf g
  if l.isEmpty then s
  else
    let w : InvWait := ⟨g, txid, requester, l, answer⟩
    let s := { s with router := { s.router with invs := s.router.invs ++ [w] } }
    s.toMembers g l "INV" [g, o, linesIn o n, txid, s.lmn g]

/-- Takes the next transaction number of this node. -/
def State.nextTxid (s : State) : Nat × State :=
  (s.router.txid, { s with router := { s.router with txid := (s.router.txid + 1) % 2 ^ 16 } })

/-- A write by Crioz to an unwatched region of a glade with AUTO = 1 (R291). -/
def State.autoInv (s : State) (g o n : Nat) : State :=
  if !s.on (R.RTR_SPAN g) F.RTR_SPAN_AUTO then s
  else
    let r := s.nextTxid
    r.2.invalidate g o n (s.lmn g) r.1 false

/-! ## One pass over a block (R99, R100, R102) -/

/-- Runs the instructions of a pass on one lane, from the start of the pass. -/
def runLane (ops : List (Option LaneOp)) (l : LaneContext) : LaneContext :=
  ops.foldl (fun l o => match o with
    | some o => if l.ended then l else o.run l
    | none => l) l.begin

/-- The values of the four classes of a block as staged: master, m1, m2 and gradient; a moment that the glade lacks is 0. -/
def State.stagedOf (s : State) (g t : Nat) : List (List F32) :=
  let leaf := fun x => planeValues (s.readBytes (s.regionBase g x + 4096 * t) 4096)
  let none' := List.replicate 1024 (0 : F32)
  [leaf 0, if 1 ≤ s.moments g then leaf 1 else none', if 2 ≤ s.moments g then leaf 2 else none',
   f32s (s.readBytes (s.bufferAddr g t) 4096)]

/-- The 1,024 lanes of a block after a pass with the scalars S0 to S15. -/
def State.runBlock (s : State) (g t lanes : Nat) (ops : List (Option LaneOp)) (scal : List F32) : List LaneContext :=
  let st := s.stagedOf g t
  (List.range 1024).map fun i =>
    runLane ops { LaneContext.reset with
      s := scal, staged := st.map fun v => v.getD i 0, padding := Nat.ble lanes i }

/-- The exceptions of a block's lanes. -/
def lanesExc (l : List LaneContext) : Exc := l.foldl (fun e x => e ||| x.exc) 0

/-- The scalars S0 to S15 of a block in a pass, with the exceptions of the scalar unit (R99, R100, R102): t is STEPS after the
apply. -/
def State.blockScalars (s : State) (g t layer : Nat) (second : Bool) : List F32 × Exc :=
  let e := s.gl g
  let sc := if s.noDecay g layer then e.inForce.scal.set 4 0 else e.inForce.scal
  let steps := min ((s.ledger g t).steps + 1) (2 ^ 32 - 1)
  let clip := scalarClip (sc.getD 5 0) (verdictSumsq e.verdict) (verdictCarried e.verdict)
  let b1 := scalarBias (sc.getD 1 0) steps
  let b2 := scalarBias (sc.getD 2 0) steps
  let sums := (e.trust.find? fun x => x.layer == layer).getD ⟨layer, 0, 0⟩
  let tr := if second then trustRatio sums.w2 sums.u2 (sc.getD 8 0) else trustRatio 0 0 0
  (sc.take 12 ++ [clip.1, b1.1, b2.1, tr.1], clip.2 ||| b1.2 ||| b2.2 ||| tr.2)

/-- STP_SCAL[g][6] and [7] show the last S12 to S15 that the engine used (R99). -/
def State.showScalars (s : State) (g : Nat) (sc : List F32) : State :=
  let put := fun (s : State) (x i : Nat) =>
    (s.wr (R.STP_SCAL g x) F.STP_SCAL_SLO (sc.getD i 0).toNat).wr (R.STP_SCAL g x) F.STP_SCAL_SHI (sc.getD (i + 1) 0).toNat
  put (put s 6 12) 7 14

/-! ## When a block may run (R102, R105, R186, R198, R206) -/

/-- The coded leaves of a block: its value leaves and its ledger leaf. -/
def State.blockLeaves (s : State) (g t : Nat) : List Nat :=
  (List.range (1 + s.moments g)).map (s.valueLeaf g t) ++ [s.ledgerLeaf g t]

/-- The leaves of a block that are erasures: not yet rebuilt, or awaiting repair. -/
def State.blockErased (s : State) (g t : Nat) : List Nat :=
  let c := s.code g
  (s.blockLeaves g t).filter fun q => s.ownErased g (c.rowOfLeaf c.slot q)

/-- The ranges of member memory that the apply of a block reads: leaves and buffer. -/
def State.blockReads (s : State) (g t : Nat) : List (Nat × Nat) :=
  (s.blockLeaves g t).map (fun q => (s.leafAddr g q, 4096)) ++ [(s.bufferAddr g t, 4096)]

/-- Whether a block waits: for a row lock that a copy holds, for a leaf, or for a line that cannot be read. -/
def State.blockWaits (s : State) (g t : Nat) : Bool :=
  (s.gl g).rowLocks.contains t || !(s.blockErased g t).isEmpty || (s.blockReads g t).any fun r => !s.served r.1 r.2

/-- Whether a block has been settled in the sweep of a pass: pass 1, or the storing pass. -/
def State.blockSettled (s : State) (g t : Nat) (first : Bool) : Bool :=
  let e := s.gl g
  e.notApplied.contains t || (if first then e.pass1.contains t || !(s.firstSweep g).contains t else e.applied.contains t)

/-- Whether block t is the next of its sweep: every lower block is settled or waits (R105). -/
def State.blockTurn (s : State) (g t : Nat) (first : Bool) : Bool :=
  !s.blockSettled g t first && (List.range t).all fun x => s.blockSettled g x first || s.blockWaits g x

/-- Whether the apply stage of glade g is open to units (R58, R81, R89). -/
def State.applyOpen (s : State) (g : Nat) : Bool :=
  s.active g && !s.fenced g && s.applying g && (s.stage g == 3 || s.stage g == 4) && !(s.gl g).epochWait && s.permits g 0

/-! ## The storing pass (R105, R111, R118) -/

/-- Writes the undo entries of a block's changed value leaves; `none` where one does not fit (R39, R111). -/
def State.undoLeaves (s : State) (g t : Nat) : List (Nat × List Byte) → Option State
  | [] => some s
  | x :: r =>
    if !nonZero x.2 then s.undoLeaves g t r
    else match s.writeUndo g false (s.valueLeaf g t x.1) x.2 with
      | some s => s.undoLeaves g t r
      | none => none

/-- The undo entries of a block in exact mode, unless the ring goes on without entries (R39). (DEDUCED, assumption 25.) -/
def State.undoBlock (s : State) (g t : Nat) (deltas : List (Nat × List Byte)) : State :=
  if !s.exact g || (s.gl g).noUndoFrom.isSome then s
  else match s.undoLeaves g t deltas with
    | some s => s
    | none => s.undoFull g t (deltas.map fun x => s.valueLeaf g t x.1)

/-- Non-finite values stored by a step program are counted, and the first block of the ring with one is recorded (R118). -/
def State.countNonfinite (s : State) (g t n : Nat) : State :=
  if n = 0 then s
  else
    let a := R.TIL_EXC (s.homeTile t)
    let s := s.add a F.TIL_EXC_NFST n
    if (s.gl g).nfWarned then s
    else
      let e : Ev := { (ev Sev.warn Src.stp g).about t with reg := a, bit := F.TIL_EXC_NFST.lo }
      (s.updGl g fun x => { x with nfWarned := true }).record e

/-- The ledger entry of a block after its apply (R35, R105). -/
def State.appliedEntry (s : State) (g t layer b : Nat) : Ledger :=
  ⟨s.openRing g, min ((s.ledger g t).steps + 1) (2 ^ 32 - 1), s.lanesOf g layer b - 1, false⟩

/-- The bytes of a shadow (R207): the xor delta of each value leaf in the undo format, and the new ledger entry. -/
def State.shadowBytes (s : State) (g t : Nat) (deltas : List (Nat × List Byte)) (entry : List Byte) : List Byte :=
  deltas.flatMap (fun x => s.undoBytes g false (s.valueLeaf g t x.1) x.2) ++ entry

/-- What an apply does to the next shape while a window is open (R207, R208). -/
def State.applyNext (s : State) (g t l b : Nat) (deltas : List (Nat × List Byte)) (entry : List Byte) : State :=
  let moved := (s.gl g).copied.contains t
  if !s.windowOpen g then s
  else if s.staysHere g l b then
    (if moved || s.inPlace g then s.nextChange g l b deltas entry else s)
  else if moved then
    let x := s.nextOwner g l b
    (s.updGl g fun e => { e with handovers := e.handovers ++ [⟨1, l, b, x⟩] }).sendLmn g true x "SHADOW"
      [g, s.lmn g, l, b] (s.shadowBytes g t deltas entry)
  else s

/-- The new bytes of a block's value leaves by class: a class that the pass does not store keeps its leaf. -/
def State.newLeaves (s : State) (g t : Nat) (lanes : List LaneContext) : List (Nat × List Byte) :=
  (List.range (1 + s.moments g)).map fun c =>
    let o := s.readBytes (s.regionBase g c + 4096 * t) 4096
    (c, if lanes.any fun x => (x.stored.getD c none).isSome then
          planeLeaf (lanes.map fun x => (x.stored.getD c none).getD 0)
        else o)

/-- Writes a block's working copy from its new master, with the exceptions of the rounding (R36, R103, R104). -/
def State.applyCopy (s : State) (g t l b : Nat) (master : List Byte) : State :=
  let r := s.roundCopy g l b (s.openRing g) (planeValues master)
  ((s.raiseExc (s.homeTile t) r.2).store (s.copyAddr g t) r.1).autoInv g (s.copyAddr g t) 2048

/-- The pass that stores, on block t (R105). -/
def State.applyStore (s : State) (g t l b : Nat) (ops : List (Option LaneOp)) (second : Bool) : State :=
  let s := ((((s.startSweep g).startPublish g).sweepBefore g t).publishBefore g t)
  let sc := s.blockScalars g t l second
  let lanes := s.runBlock g t (s.lanesOf g l b) ops sc.1
  let new := s.newLeaves g t lanes
  let deltas := new.map fun x => (x.1, xorBytes (s.readBytes (s.regionBase g x.1 + 4096 * t) 4096) x.2)
  let entry := (s.appliedEntry g t l b).bytes
  let s := (s.showScalars g sc.1).raiseExc (s.homeTile t) (sc.2 ||| lanesExc lanes)
  let s := s.countNonfinite g t ((lanes.map (·.nonfinite)).sum)
  let s := s.undoBlock g t deltas
  let s := s.rememberLedger g (t / 256)
  let s := if s.windowOpen g && s.staysHere g l b && s.reusesClass g 3 then s.rememberNext g (s.nextLocal g l b / 256) else s
  let s := s.each new fun s x => s.store (s.regionBase g x.1 + 4096 * t) x.2
  let s := s.applyCopy g t l b ((new.getD 0 (0, [])).2)
  let s := (s.store (s.bufferAddr g t) (zeros 4096)).store (s.ledgerAddr g t) entry
  let s := s.each deltas fun s x => s.sendDelta g (s.valueLeaf g t x.1) x.2
  let s := s.applyNext g t l b deltas entry
  let n := 32 * (1 + s.moments g)
  let s := ((s.countPass (s.homeTile t)).charge 0 (n + 32) (n + 48) 0).updGl g fun e => { e with applied := e.applied ++ [t] }
  s.settleApply g

/-- Pass 1 of a two-pass program on block t: it stores nothing, and its square sums enter the layer's pair (R102). -/
def State.applyFirst (s : State) (g t l b : Nat) (ops : List (Option LaneOp)) : State :=
  let sc := s.blockScalars g t l false
  let lanes := s.runBlock g t (s.lanesOf g l b) ops sc.1
  let old := layerAcc (s.gl g).layerAccs l
  let acc := lanes.foldl (fun a x => ⟨l, accAdd a.acc0 x.acc0, accAdd a.acc1 x.acc1⟩) old
  let s := (s.showScalars g sc.1).raiseExc (s.homeTile t) (sc.2 ||| lanesExc lanes)
  let s := (s.countPass (s.homeTile t)).charge 0 (32 * (2 + s.moments g)) 0 0
  s.updGl g fun e => { e with
    pass1 := e.pass1 ++ [t], layerAccs := (e.layerAccs.filter fun x => x.layer != l) ++ [acc] }

/-- Leaves that a block still lacks are rebuilt first (R186): they move to the head of the rebuild order. -/
def State.wantLeaves (s : State) (g : Nat) (l : List Nat) : State :=
  s.updGl g fun e => { e with standIn := e.standIn.map fun r => { r with
    front := r.front ++ l.filter fun q => r.dataLeft.contains q && !r.front.contains q } }

/-- One unit of the apply on block t: a block of a deadfall row is not applied (R198); a block that waits does not run, its
leaves being asked for and its lines that cannot be read being counted; otherwise its pass runs. -/
def State.applyUnit (s : State) (g t : Nat) (first : Bool) : State :=
  match s.locate g t with
  | none => s
  | some (l, b) =>
    let v := s.reg (R.STP_SLOT (s.layerProg g l))
    if s.blockDead g t then
      (s.updGl g fun e => { e with notApplied := addOnce e.notApplied t }).settleApply g
    else if s.blockWaits g t then
      let s := s.wantLeaves g (s.blockErased g t)
      (s.each ((s.blockReads g t).filter fun r => !s.served r.1 r.2) fun s r => s.readCheck r.1 r.2).settleApply g
    else if first then s.applyFirst g t l b (s.passOps (slotPass1 v))
    else s.applyStore g t l b (s.passOps (if slotTwoPass v then slotPass2 v else slotPass1 v)) (slotTwoPass v)

/-- Whether the first sweep of R102 is still under way. -/
def State.firstOpen (s : State) (g : Nat) : Bool := !(s.twoPassLayers g).isEmpty && !(s.gl g).trustDone

/-- APPLY_BLOCK (R105). -/
def execApplyBlock (g : GladeId) (t : Nat) (s : State) : Host.Outcome State Fault Refusal :=
  .next (s.inMain fun s =>
    let first := s.firstOpen g.val
    if s.applyOpen g.val && t < s.bloc g.val && s.blockTurn g.val t first then s.applyUnit g.val t first else s)

end Sys2Proof.Machine
end

