-- ==== Sys2Proof/Machine/Close.lean ====
section
/-! DEFINITION. The ring close: RING_CLOSE_BARRIER and RING_CLOSE_COMPLETION, and the commit of a ring as one operation
(R74, R107, R108). -/
namespace Sys2Proof.Machine

/-! ## The commit (R107) -/

/-- What the accumulation keeps over a commit: after a verdict with CARRY the streams of the ring, its sums and its pulls
stay; otherwise nothing does (R89, R92). -/
def GladeState.nextStreams (e : GladeState) (openLo : Nat) : GladeState :=
  if e.verdictDone && verdictCarry e.verdict then
    { e with lateStreams := e.lateStreams ++ e.streams.map fun x => (openLo, x), streams := [] }
  else { e with lateStreams := [], streams := [], summed := [], pulls := [], held := [] }

/-- The engines of a glade once its open ring has committed: nothing of that ring is left but what nextStreams keeps. -/
def GladeState.closeRing (e : GladeState) (openLo : Nat) : GladeState :=
  let e : GladeState := e.nextStreams openLo
  { e with
    ringOpen := false, gone := [], lastSent := [], sentBlocks := [], takenIn := false, partialV := none,
    childV := [], childT := [], childC := [], wrongOnce := [], lossInRing := false, verdictDone := false,
    pass1 := [], applied := [], notApplied := [], ledgerOld := [], ledgerSent := [], layerAccs := [], trust := [],
    trustDone := false, nfWarned := false, noUndoFrom := none, noUndo := [], undo := [], undoUsed := 0, nextUndoUsed := 0, copies := [],
    staleSent := [], closeEntered := false, folds := [], foldUsed := 0, nextFoldUsed := 0, nextLedgerOld := [],
    nextFlushed := false, endsSent := false, shadowEndsIn := [], replayWait := false,
    standIn := e.standIn.map fun r => { r with reports := [], staleHolders := [] } }

/-- The LMNs that this node's member map shows as hosted: they share their PNID with another LMN (R179). Their streams stay
out of the expected count over a commit. -/
def State.hostedLmns (s : State) (g : Nat) : List Nat :=
  (s.gl g).gone.filter fun i => (List.range (s.members g)).any fun j => j != i &&
    (s.memberEntry g j).pnid == (s.memberEntry g i).pnid

/-- A parity leaf of the stale list becomes stale at its holder; one of the next code is to be built again (R107, R209). -/
def State.listedStale (s : State) (g : Nat) (x : RowPar) : State :=
  let c := s.codeOf g x.next
  if c.paritySlot x.row x.pidx ≠ c.slot ∨ c.m ≤ x.pidx ∨ c.rows ≤ x.row then s
  else
    let p := c.parityLeaf x.row x.pidx
    if !x.next then s.markStale g p
    else if (s.gl g).nextUnbuilt.contains p || !s.windowOpen g then s
    else
      (s.updGl g fun e => { e with nextUnbuilt := e.nextUnbuilt ++ [p] }).add (R.GRV_CPPROG g) F.GRV_CPPROG_ENCLEFT 1

/-- The members that a unit of a clearing read asks: those of the grove whose slots are not lost. -/
def State.asked (s : State) (g : Nat) : List Nat :=
  (s.grovePeers g).filter fun i => !bitAt (s.rd (R.GRV_LOST g) F.GRV_LOST_LOST) (i % s.groveN g)

/-- Reads a line of a row for a unit of a clearing read. -/
def State.askLine (s : State) (g row line unit : Nat) : State := s.toMembers g (s.asked g) "ROW_READ" [g, row, line, unit]

/-- The clearing reads that wait for the commit, a data leaf of their row having been written in the ring, ask again (R185). -/
def State.askAgain (s : State) (g : Nat) : State :=
  s.each ((s.gl g).reads.filter fun u => u.answers.any (·.isNew)) fun s u => s.askLine g u.row u.line u.id

/-- The open ring commits on this member (R107). -/
def State.commitRing (s : State) (g : Nat) (stale : List RowPar) : State :=
  let lo := s.openLo g
  let s := s.setReg (R.GLD_RING g) (BitVec.ofNat 64 (s.openRing g))
  let s := s.updGl g fun e => { e.closeRing lo with gone := s.hostedLmns g, lastStale := stale }
  let s := s.each stale fun s x => s.listedStale g x
  (((s.refreshEras g).setStage g 0).askAgain g).wptPoll

/-! ## The barrier (R107, R148) -/

/-- A stale list as message operands. -/
def staleArgs (l : List RowPar) : List Nat := l.flatMap fun x => [bit x.next, x.row, x.pidx]

/-- The surviving holders of the grove whose reconciliation reports a stand-in needs before it closes its ring: in fast mode
after a loss in the ring that it took over (R110, R190). -/
def State.reportsDue (s : State) (g : Nat) : List Nat :=
  match (s.gl g).standIn with
  | some r =>
    if s.exact g || !(s.gl g).takenIn then []
    else (s.grovePeers g).filter fun i =>
      !(s.lostSlots g).contains (i % s.groveN g) && !r.staleHolders.contains i && !r.reports.any fun x => x.1 == i
  | none => []

/-- Combines the stale lists of this member and its children once all have entered: up the tree, or at LMN 0 to every member
as the completion. -/
def State.reduceClose (s : State) (g : Nat) : State :=
  let up := fun (s : State) (x place : Nat) (l : List RowPar) =>
    s.toMember g x "RING_CLOSE_UP" ([g, place, s.openRing g, (s.code g).epoch] ++ staleArgs l)
  if !(s.gl g).closeEntered then s
  else
    let s := s.eachSide g (s.gl g).childC fun s x place k => up s x place k.flatten.eraseDups
    match allChildren (s.children g) (s.gl g).childC with
    | none => s
    | some l =>
      let stale := ((s.gl g).staleSent ++ l.flatten).eraseDups
      match s.parent g with
      | some x => up s x (s.treeRoot g) stale
      | none => (s.distribute g "RING_CLOSE" ([g, s.openRing g] ++ staleArgs stale)).commitRing g stale

/-- Whether the member may enter the ring-close barrier: fold-complete, with the reports of a stand-in, and class 4. -/
def State.mayClose (s : State) (g : Nat) : Bool :=
  s.active g && !s.fenced g && (s.gl g).ringOpen && !(s.gl g).closeEntered && s.foldComplete g &&
  (s.reportsDue g).isEmpty && s.permits g 4

/-- RING_CLOSE_BARRIER: a fold-complete member enters (R107), a descriptor of class 4 (R58, R60). -/
def execRingCloseBarrier (g : GladeId) (s : State) : Host.Outcome State Fault Refusal :=
  .next (s.inMain fun s =>
    if s.mayClose g.val then
      ((s.updGl g.val fun e => { e with closeEntered := true }).setStage g.val 6).reduceClose g.val
    else s)

/-- RING_CLOSE_COMPLETION: the completion of the open ring goes on down the tree, and the ring commits (R107, R148). -/
def execRingCloseCompletion (g : GladeId) (ring : Nat) (stale : List RowPar) (s : State) :
    Host.Outcome State Fault Refusal :=
  .next (s.inMain fun s =>
    if s.active g.val && !s.fenced g.val && (s.gl g.val).ringOpen && ring == s.openRing g.val then
      (s.passOn g.val "RING_CLOSE" ([g.val, ring] ++ staleArgs stale)).commitRing g.val stale
    else s)

end Sys2Proof.Machine
end

