-- ==== Sys2Proof/Machine/Loss.lean ====
section
/-! DEFINITION. Detection and witness agreement: BEAT_TIMER, GROVE_BEAT, BEAT_SILENCE, SUSPICION_NOTICE, FENCE_NOTICE,
DEPARTURE_NOTICE, START, PROBE, PROBE_ANSWER, ROUND1_END, VIEW, ROUND2_END, DEC, DEC_DEADLINE, FIREBREAK_SIGHT_TIMEOUT, FORCE,
READY and READY_TIMEOUT (R161 to R179), with the replay of an exact-mode ring (R112) and what a loss does to an open plan
(R215). -/
namespace Sys2Proof.Machine

/-! ## Beats and sight (R161, R171) -/

/-- The majority of the grove, n / 2 + 1 (R159). -/
def State.majority (s : State) (g : Nat) : Nat := s.groveN g / 2 + 1

/-- VIS follows the slots in sight, this member among them; while it is below the majority the sight timer runs (R161,
R171). -/
def State.refreshVis (s : State) (g : Nat) : State :=
  let v := 1 + (s.gl g).beats.length
  (s.wr (R.GRV_MSTAT g) F.GRV_MSTAT_VIS v).updGl g fun e => { e with sightLow := decide (v < s.majority g) }

/-- BEAT_TIMER: a beat to every other member of the grove, while Ranger runs and so refreshes its beat watchdog (R161).
(DEDUCED, assumption 15.) -/
def execBeatTimer (g : GladeId) (s : State) : Host.Outcome State Fault Refusal :=
  .next (s.inMain fun s =>
    if s.inGrove g.val && !s.fenced g.val && !s.rangerHalted then
      s.toMembers g.val (s.grovePeers g.val) "BEAT" [g.val, (s.code g.val).slot]
    else s)

/-- GROVE_BEAT: the slot's last beat is recorded, and the slot is in sight (R161). -/
def execGroveBeat (g : GladeId) (slot : Nat) (s : State) : Host.Outcome State Fault Refusal :=
  .next (s.inMain fun s =>
    if s.inGrove g.val && !s.fenced g.val && slot < s.groveN g.val && slot != (s.code g.val).slot then
      (s.updGl g.val fun e => { e with beats := (e.beats.filter fun b => b.slot != slot) ++ [⟨slot, s.now⟩] }).refreshVis g.val
    else s)

/-! ## Starting an agreement (R163, R164, R170) -/

/-- The spare entries of glade g that hold a spare, in list order (R159, R160). -/
def State.spareEntries (s : State) (g : Nat) : List Nat :=
  (List.range 16).filter fun x => bitAt (s.rd (R.GRV_SPAREV g) F.GRV_SPAREV_VALID) x

/-- The PNID of a spare entry. -/
def State.sparePnid (s : State) (g x : Nat) : Nat := bitsOf (s.reg (R.GRV_SPARE g (x / 4))).toNat (16 * (x % 4)) 16

/-- This node joins an agreement: STATE 2, GRV_WIT, and recovery profile 3 (R154, R158, R163, R164). -/
def State.joinAgreement (s : State) (g seq : Nat) (suspects : List Nat) (cause : Option Nat) : State :=
  let s := s.updGl g fun e => { e with
    agreement := some ⟨seq, suspects, [], 0, [], 1, cause.getD 0⟩, lastSeq := seq, nextSuspects := [] }
  let s := ((s.setMstate g 2).wr R.GRV_WIT F.GRV_WIT_ACTIVE 1).wr R.GRV_WIT F.GRV_WIT_GLADE g
  let s := s.inc R.GRV_WIT F.GRV_WIT_ROUNDS
  let s := match cause with
    | some c => s.wr R.GRV_WIT F.GRV_WIT_CAUSE c
    | none => s
  { s with router := { s.router with recovering := addOnce s.router.recovering g } }

/-- Starts an agreement over suspected slots: START goes to every other member of the grove (R164). -/
def State.startAgreement (s : State) (g seq : Nat) (suspects : List Nat) (cause : Option Nat) : State :=
  (s.joinAgreement g seq suspects cause).toMembers g (s.grovePeers g) "START" ([g, seq] ++ suspects)

/-- The agreement takes more suspects: they are merged, and START with the same SEQ tells the grove (R163, R164). -/
def State.addSuspects (s : State) (g : Nat) (l : List Nat) : State :=
  s.updGl g fun e => { e with agreement := e.agreement.map fun a => { a with suspects := (a.suspects ++ l).eraseDups } }

/-- A member accepts a detection (R162, R163): it starts an agreement for its grove, adds its suspect to the one in round 1,
or keeps the suspect for the next. -/
def State.detect (s : State) (g lmn cause : Nat) : State :=
  let slot := lmn % s.groveN g
  if !s.inGrove g || s.fenced g || lmn == s.lmn g || s.lmnOfSlot g slot != lmn then s
  else match (s.gl g).agreement with
    | none => s.startAgreement g ((s.gl g).lastSeq + 1) [slot] (some cause)
    | some a =>
      if a.suspects.contains slot then s
      else if a.round = 1 then
        (s.addSuspects g [slot]).toMembers g (s.grovePeers g) "START" [g, a.seq, slot]
      else s.updGl g fun e => { e with nextSuspects := addOnce e.nextSuspects slot }

/-- BEAT_SILENCE: a slot leaves sight, detection source 2 (R161, R162). -/
def execBeatSilence (g : GladeId) (slot : Nat) (s : State) : Host.Outcome State Fault Refusal :=
  .next (s.inMain fun s =>
    if (s.gl g.val).beats.any fun b => b.slot == slot && b.atTime + 250 ≤ s.now then
      ((s.updGl g.val fun e => { e with beats := e.beats.filter fun b => b.slot != slot }).refreshVis g.val).detect g.val
        (s.lmnOfSlot g.val slot) 2
    else s)

/-- SUSPICION_NOTICE (R162, R163). -/
def execSuspicionNotice (g : GladeId) (lmn cause : Nat) (s : State) : Host.Outcome State Fault Refusal :=
  .next (s.inMain fun s => s.detect g.val lmn cause)

/-- FENCE_NOTICE: detection source 8 (R162, R174). -/
def execFenceNotice (g : GladeId) (lmn : Nat) (s : State) : Host.Outcome State Fault Refusal :=
  .next (s.inMain fun s => s.detect g.val lmn 8)

/-- DEPARTURE_NOTICE: detection source 4 (R162). -/
def execDepartureNotice (g : GladeId) (lmn : Nat) (s : State) : Host.Outcome State Fault Refusal :=
  .next (s.inMain fun s => s.detect g.val lmn 4)

/-- START: the member joins the agreement, or merges its suspects; a later SEQ ends the running one (R164, R170). -/
def execStart (g : GladeId) (seq : Nat) (suspects : List Nat) (s : State) : Host.Outcome State Fault Refusal :=
  .next (s.inMain fun s =>
    if !s.inGrove g.val || s.fenced g.val then s
    else match (s.gl g.val).agreement with
      | some a =>
        if a.seq = seq then s.addSuspects g.val suspects
        else if a.seq < seq then s.joinAgreement g.val seq suspects none
        else s
      | none => if (s.gl g.val).lastSeq < seq then s.joinAgreement g.val seq suspects none else s)

/-! ## The rounds (R165 to R167) -/

/-- PROBE: one of the two probes of every suspect and every spare (R165). -/
def execProbe (g : GladeId) (s : State) : Host.Outcome State Fault Refusal :=
  .next (s.inMain fun s => match (s.gl g.val).agreement with
    | some a =>
      if 2 ≤ a.probeRounds ∨ a.round ≠ 1 then s
      else
        let s := s.updGl g.val fun e => { e with agreement := some { a with probeRounds := a.probeRounds + 1 } }
        let s := s.each (a.suspects.filter (· != (s.code g.val).slot)) fun s x =>
          s.toMember g.val (s.lmnOfSlot g.val x) "PROBE" [g.val, a.seq, a.probeRounds]
        s.each (s.spareEntries g.val) fun s x => s.toNode (s.sparePnid g.val x) "PROBE" [g.val, a.seq, a.probeRounds]
    | none => s)

/-- PROBE_ANSWER: the suspect's slot, or the spare entry, is reachable (R165). -/
def execProbeAnswer (g : GladeId) (spare : Bool) (target : Nat) (s : State) : Host.Outcome State Fault Refusal :=
  .next (s.inMain fun s => match (s.gl g.val).agreement with
    | some a =>
      if a.round ≠ 1 then s
      else
        let a := { a with probes := addOnce a.probes ⟨spare, target, true⟩ }
        s.updGl g.val fun e => { e with agreement := some a }
    | none => s)

/-- Whether an agreement's own probes reached a target. -/
def Agreement.reached (a : Agreement) (spare : Bool) (x : Nat) : Bool :=
  a.probes.any fun p => p.spare == spare && p.target == x && p.reachable

/-- The LMNs whose ring-close entries LMN 0 holds: its own, and those of the subtrees of the children that have entered
(R148, R166). -/
def State.rootHolds (s : State) (g : Nat) : List Nat :=
  if s.treeRoot g ≠ 0 then []
  else
    let sz := s.members g
    (if (s.gl g).closeEntered then s.heldLmns g else []) ++
    (s.gl g).childC.flatMap fun c => match subtreeFrom sz 0 sz c.1 with
      | some r => List.range' r.1 (r.2 - r.1)
      | none => []

/-- Whether this member has received the ring-close completion and has not started the next ring. -/
def State.closeDone (s : State) (g : Nat) : Bool := (s.gl g).started && !(s.gl g).ringOpen && !(s.gl g).replayWait

/-- This member's view (R166). -/
def State.ownView (s : State) (g : Nat) (a : Agreement) : View where
  slot := (s.code g).slot
  probes := a.suspects.map (fun x => ⟨false, x, x == (s.code g).slot || a.reached false x⟩) ++
    (s.spareEntries g).map fun x => ⟨true, x, a.reached true x⟩
  ring := s.ring g
  openRing := s.openRing g
  stage := s.stage g
  closeEntered := (s.gl g).closeEntered
  closeDone := s.closeDone g
  stale := if s.closeDone g then (s.gl g).lastStale else []
  rootHolds := s.rootHolds g
  epoch := (s.code g).epoch

/-- A view as message operands. -/
def View.args (v : View) : List Nat :=
  [v.slot, v.ring, v.openRing, v.stage, bit v.closeEntered, bit v.closeDone, v.epoch, v.probes.length] ++
  v.probes.flatMap (fun p => [bit p.spare, p.target, bit p.reachable]) ++ v.rootHolds.length :: v.rootHolds ++
  staleArgs v.stale

/-- Sends a view to every other member of the grove. (DEDUCED, assumption 14.) -/
def State.sendView (s : State) (g seq : Nat) (v : View) : State :=
  s.toMembers g (s.grovePeers g) "VIEW" ([g, seq] ++ v.args)

/-- Holds a view, one for each slot. -/
def Agreement.hold (a : Agreement) (v : View) : Agreement :=
  { a with views := (a.views.filter fun x => x.slot != v.slot) ++ [v] }

/-- ROUND1_END: the member sends its view; the views that it already holds follow, since round 2 has begun (R165). -/
def execRound1End (g : GladeId) (s : State) : Host.Outcome State Fault Refusal :=
  .next (s.inMain fun s => match (s.gl g.val).agreement with
    | some a =>
      if a.round ≠ 1 then s
      else
        let v := s.ownView g.val a
        let s := s.each (v :: a.views) fun s v => s.sendView g.val a.seq v
        s.updGl g.val fun e => { e with agreement := some { a.hold v with round := 2 } }
    | none => s)

/-- VIEW: a view, direct or echoed, joins W until round 2 ends; in round 2 it is echoed once (R165, R167). (DEDUCED, assumption 14.) -/
def execView (g : GladeId) (v : View) (s : State) : Host.Outcome State Fault Refusal :=
  .next (s.inMain fun s => match (s.gl g.val).agreement with
    | some a =>
      if a.round = 3 || a.views.any (fun x => x.slot == v.slot) || v.slot == (s.code g.val).slot then s
      else
        let s := if a.round = 2 then s.sendView g.val a.seq v else s
        s.updGl g.val fun e => { e with agreement := some (a.hold v) }
    | none => s)

/-- How many views of W report a slot reachable: its own view does (R167). -/
def Agreement.votes (a : Agreement) (x : Nat) : Nat :=
  (a.views.filter fun v => v.slot == x || v.probes.any fun p => !p.spare && p.target == x && p.reachable).length

/-- The slots that W declares lost (R167). -/
def State.votedLost (s : State) (g : Nat) (a : Agreement) : List Nat :=
  a.suspects.filter fun x => a.votes x < s.majority g

/-- The coordinator: the lowest slot in W that is not lost (R167). (DEDUCED, assumption 29.) -/
def coordinatorOf (a : Agreement) (lost : List Nat) : Option Nat :=
  ((a.views.map (·.slot)).filter fun x => !lost.contains x).min?

/-- Whether the loss of a member falls inside the commit window, by the views (R88, R168): the window has opened, no view
has received the completion, and the root's view does not hold the member's ring-close entry. (DEDUCED, assumption 16.) -/
def Agreement.lostInside (a : Agreement) (lmn : Nat) : Bool :=
  a.views.any (fun v => v.stage != 0 && v.stage != 9) && !a.views.any (·.closeDone) &&
  !a.views.any fun v => v.rootHolds.contains lmn

/-- The decision that the views give (R167, R168). (DEDUCED, assumption 16.) -/
def State.formDecision (s : State) (g : Nat) (a : Agreement) : Decision :=
  let lost := s.votedLost g a
  let ahead := a.views.find? fun v => v.closeDone && a.views.any fun w => w.ring < v.ring
  ⟨a.seq, lost, ahead.map (·.stale), lost.any fun x => a.lostInside (s.lmnOfSlot g x)⟩

/-! ## Replay (R112) -/

/-- The local data leaves of the open ring that were changed and have no undo entry (R39, R112). -/
def State.bareLeaves (s : State) (g : Nat) : List Nat :=
  let e := s.gl g
  let late := match e.noUndoFrom with
    | some t => (e.applied.filter (t ≤ ·)).flatMap fun b => (List.range (1 + s.moments g)).map (s.valueLeaf g b)
    | none => []
  let ledgers := (e.ledgerSent.map (s.ledgerQ g)).filter fun q => (s.gl g).noUndo.contains q || e.noUndoFrom.isSome
  ((e.noUndo ++ late ++ ledgers).filter fun q => !e.undo.any fun u => !u.next && u.q == q).eraseDups

/-- Xors every undo entry of the ring into its leaf, under both codes. -/
def State.undoAll (s : State) (g : Nat) : State :=
  let s := s.each (s.gl g).undo fun s u =>
    let o := if u.next then s.nextLeafAddr g u.q else s.leafAddr g u.q
    s.store o (xorBytes (s.readBytes o 4096) u.delta)
  let s := s.each (s.gl g).ledgerOld fun s x =>
    if (s.gl g).ledgerSent.contains x.1 then s else s.store (s.regionBase g 3 + 4096 * x.1) x.2
  if s.reusesClass g 3 then s
  else s.each (s.gl g).nextLedgerOld fun s x => s.store (s.nextBase g 3 + 4096 * x.1) x.2

/-- Xors every holder-journal entry, staged or written, into its parity leaf and clears the fold bits. -/
def State.unfoldAll (s : State) (g : Nat) : State :=
  let s := s.each (s.gl g).folds fun s f =>
    let o := 4096 * s.parityUnit g f.next f.p
    s.store o (xorBytes (s.readBytes o 4096) f.net)
  s.updGl g fun e => { e with folds := [] }

/-- A replay of the open ring (R112): the leaves go back to the last committed ring, what has no undo entry awaits repair, the
buffers are zeroed, the verdict is discarded, and the member waits with phase 0 and HOLD for the ring to open again. -/
def State.replay (s : State) (g : Nat) : State :=
  let a := R.STP_GSTAT g
  let bare := s.bareLeaves g
  let s := if (s.gl g).replayWait then s
    else (((s.wr a F.STP_GSTAT_REPLAY 1).inc (R.STP_CNT g) F.STP_CNT_REPLAYS).record
      ((ev Sev.warn Src.stp g).field a F.STP_GSTAT_REPLAY)).setStage g 7
  let s := (s.undoAll g).unfoldAll g
  let s := s.each bare fun s q => s.awaitLeaf g q
  let s := (s.zeroBuffers g).wr a F.STP_GSTAT_CARRIED 0
  let s := s.updGl g fun e =>
    let e : GladeState := { e with verdictDone := false }
    { e.closeRing 0 with replayWait := true, wrapPending := true, heldDeltas := [], lastStale := e.lastStale }
  ((s.setPhase g 0 false).setHold g true).setStage g 8

/-! ## What a loss does to an open plan (R215) -/

/-- The rows of the next code that hold next data of a slot of this node's next grove: the parity leaves of this node in them
are to be built again. -/
def State.nextSlotLost (s : State) (g slot : Nat) : State :=
  let c := s.nextCode g
  let ps := (List.range (c.m * c.groups)).filter fun p => (c.dataIndex (c.rowOfParity c.slot p) slot).isSome
  let new := ps.filter fun p => !(s.gl g).nextUnbuilt.contains p
  (s.updGl g fun e => { e with nextUnbuilt := e.nextUnbuilt ++ new }).add (R.GRV_CPPROG g) F.GRV_CPPROG_ENCLEFT new.length

/-- The next shape loses the node behind a next LMN: copies made to it are sent again, and parity that codes its data is
built again. -/
def State.nextLmnLost (s : State) (g i : Nat) : State :=
  let goes := fun t => match s.locate g t with
    | some x => s.nextOwner g x.1 x.2 == i
    | none => false
  let n := max 1 (s.nextCode g).n
  let s := s.updGl g fun e => { e with
    copied := e.copied.filter fun t => !goes t, rowLocks := e.rowLocks.filter fun t => !goes t,
    handovers := e.handovers.filter fun h => h.dst != i }
  if (s.nextLmn g).isSome && i / n == s.lmnIn g true / n then s.nextSlotLost g (i % n) else s

/-- A current member is lost while a window is open: the copies that it had sent are discarded, and where it is also in MAP
its next slot starts again. -/
def State.planLoss (s : State) (g lmn : Nat) : State :=
  if !s.windowOpen g then s
  else
    let pn := (s.memberEntry g lmn).pnid
    let gone := (s.gl g).arrived.filter fun x => s.ownerOf g (s.members g) x.1 x.2 == lmn
    let s := (s.updGl g fun e => { e with
      arrived := e.arrived.filter (!gone.contains ·), shadowsIn := e.shadowsIn.filter fun x => x.1 != lmn,
      shadowEndsIn := e.shadowEndsIn.erase lmn }).add (R.GRV_CPPROG g) F.GRV_CPPROG_COPYLEFT gone.length
    match (List.range (s.nextMembers g)).find? fun i => s.nextPnid g i == pn with
    | some i => s.nextLmnLost g i
    | none => s

/-! ## The stand-in's choice (R175 to R179) -/

/-- Sends TAKEOVER to a spare entry for a lost LMN (R176). -/
def State.sendTakeover (s : State) (g pnid lmn : Nat) (inWindow : Bool) : State :=
  let c := s.code g
  let slot := lmn % s.groveN g
  let row := fput (fput (s.reg (R.GRV_ROWCFG g)) F.GRV_ROWCFG_SLOT slot) F.GRV_ROWCFG_JOINED 1
  s.toNode pnid "TAKEOVER" [g, s.lmn g, lmn, s.ring g, s.carried g, row.toNat, (s.reg (R.GRV_NEXTCFG g)).toNat,
    s.rd (R.RTR_MAPCFG g) F.RTR_MAPCFG_SEQ, bit inWindow, c.epoch, ((s.gl g).plan.map (·.planId)).getD 0]

/-- Whether a spare entry may take an LMN now: it holds a spare that is no member of the glade and serves no other LMN. -/
def State.spareFree (s : State) (g x : Nat) : Bool :=
  (s.spareEntries g).contains x && !((s.gl g).serving.any fun v => v.spare == some x) &&
  !(List.range (s.members g)).any fun i => s.memberEntry g i == ⟨s.sparePnid g x, true⟩

/-- The update of the member map goes to every other member of the glade (R176, R178). (DEDUCED, assumption 17.) -/
def State.sendMapUpdate (s : State) (g lmn pnid seq : Nat) : State :=
  s.toMembers g (s.otherMembers g) "MAPUPDATE" [g, lmn, pnid, seq]

/-- The next map sequence number (R178). -/
def State.nextMapSeq (s : State) (g : Nat) : Nat := (s.rd (R.RTR_MAPCFG g) F.RTR_MAPCFG_SEQ + 1) % 2 ^ 16

/-- A map update is applied (R178): the entry takes its PNID, the installed spare's entry is emptied, an access that waits
for the update is issued again (R288), and a hosting member gives the LMN up (R216). -/
def State.applyMap (s : State) (g lmn pnid seq : Nat) : State :=
  let old := (s.memberEntry g lmn).pnid
  let i := (s.rd (R.RTR_MAPCFG g) F.RTR_MAPCFG_BASE + lmn) % 65536
  let s := (s.setMapEntry i ⟨pnid, true⟩).wr (R.RTR_MAPCFG g) F.RTR_MAPCFG_SEQ seq
  let s := s.each ((s.spareEntries g).filter fun x => s.sparePnid g x == pnid) fun s x =>
    s.clearMask (R.GRV_SPAREV g) F.GRV_SPAREV_VALID x
  let swap := fun w : Word => if w.toNat % 2 ^ 16 = old then fput w ⟨0, 16⟩ pnid else w
  let s := s.updGl g fun e => { e with
    awaited := e.awaited.erase lmn, gone := addOnce e.gone lmn,
    hosting := if pnid = s.pnid then e.hosting else e.hosting.erase lmn,
    plan := e.plan.map fun p => if p.kind = 0 then { p with map := p.map.map swap } else p }
  let mine := s.router.accesses.filter fun a => a.glade == g && a.lmn == lmn && a.host.isNone
  let s := s.each mine fun s a =>
    s.toMember g lmn (if a.kind = 4 then "LWR" else "LRD") [g, a.offset, a.txid]
  let s := if s.mstate g = 7 ∧ (s.gl g).hosting.isEmpty then s.setMstate g 1 else s
  { s with router := { s.router with
      accesses := s.router.accesses.map fun a => if mine.contains a then { a with waiting := false } else a } }

/-- The coordinator hosts a lost LMN (R179): STATE 7, a Fault record, and the map update that names this node. (DEDUCED, assumption 17.) -/
def State.hostLmn (s : State) (g lmn : Nat) : State :=
  let s := s.updGl g fun e => { e with
    hosting := addOnce e.hosting lmn, serving := e.serving.filter fun v => v.lmn != lmn }
  let s := (s.setMstate g 7).record (((ev Sev.fault Src.grv g).field (R.GRV_MSTAT g) F.GRV_MSTAT_STATE).about lmn)
  let seq := s.nextMapSeq g
  (s.sendMapUpdate g lmn s.pnid seq).applyMap g lmn s.pnid seq

/-- Serves a lost LMN from its candidates: the first free one has TAKEOVER; without one the coordinator hosts (R175, R177,
R179). -/
def State.serve (s : State) (g lmn : Nat) (cands : List Nat) (inWindow : Bool) : State :=
  let s := s.updGl g fun e => { e with serving := e.serving.filter fun v => v.lmn != lmn }
  match cands.find? (s.spareFree g) with
  | some x =>
    let left := cands.filter (x < ·)
    (s.updGl g fun e => { e with serving := e.serving ++ [⟨lmn, some x, s.sparePnid g x, left, inWindow⟩] }).sendTakeover g (s.sparePnid g x)
      lmn inWindow
  | none => s.hostLmn g lmn

/-! ## The decision (R155 to R157, R167 to R170) -/

/-- The STATE that a member returns to when an agreement ends: 4 or 3 as stand-in, 7 while it hosts, else 1. -/
def State.restState (s : State) (g : Nat) : Nat :=
  match (s.gl g).standIn with
  | some r => if r.clearing then 4 else 3
  | none => if (s.gl g).hosting.isEmpty then 1 else 7

/-- The agreement ends on this member: STATE and ACTIVE. Suspects that came too late start the next one (R163, R164). -/
def State.endAgreement (s : State) (g : Nat) : State :=
  let next := (s.gl g).nextSuspects
  let s := (s.updGl g fun e => { e with agreement := none, nextSuspects := [] }).wr R.GRV_WIT F.GRV_WIT_ACTIVE 0
  let s := s.setMstate g (s.restState g)
  if next.isEmpty then s else s.startAgreement g ((s.gl g).lastSeq + 1) next none

/-- Recovery ends for a glade when no agreement runs and every lost member has its successor (R154, R169). -/
def State.settleProfile (s : State) (g : Nat) : State :=
  if (s.gl g).agreement.isSome || !(s.gl g).awaited.isEmpty then s
  else { s with router := { s.router with recovering := s.router.recovering.erase g } }

/-- Host collectives of the glade in which a participant is lost end with CODE 5 (R156). -/
def State.failCollectives (s : State) (g : Nat) : State :=
  s.each (List.range 16) fun s q =>
    match (s.qu q).descs.find? fun d => d.started && !d.completed && d.glade == g && 1 ≤ d.op && d.op ≤ 7 with
    | some d => s.haltDesc q d 5
    | none => s

/-- A member of the glade is lost: its streams leave the expected count, its entries are void, what waits for its answers waits
no longer, and LOSS is reported (R155). -/
def State.dropMember (s : State) (g lmn : Nat) : State :=
  let s := s.updGl g fun e => { e with
    gone := addOnce e.gone lmn, lossInRing := e.lossInRing || e.ringOpen,
    markersOut := e.markersOut.filter fun m => m.owner != lmn,
    noticesOut := e.noticesOut.filter fun x => x.2.2 != lmn,
    held := e.held.filter fun c => c.sidx / s.spm g != lmn, pulls := e.pulls.filter fun p => p.src != lmn }
  (s.settleRsgrad g).drainHeld g

/-- Looks for deadfall in every row of the grove (R197). -/
def State.checkRows (s : State) (g : Nat) : State := s.each (List.range (s.code g).rows) fun s r => s.checkRow g r

/-- A lost slot as every survivor of the grove takes it. -/
def State.loseSlot (s : State) (g x : Nat) : State :=
  let i := s.lmnOfSlot g x
  let s := (s.setMask (R.GRV_LOST g) F.GRV_LOST_LOST x).wr R.GRV_WIT F.GRV_WIT_LASTLMN i
  let s := s.updGl g fun e => { e with beats := e.beats.filter fun b => b.slot != x, awaited := addOnce e.awaited i }
  ((s.refreshVis g).planLoss g i).dropMember g i

/-- The coordinator's part of a decision: each lost slot is counted and named, and its LMN is served, in increasing order
(R167, R175). -/
def State.serveLost (s : State) (g : Nat) (d : Decision) (a : Agreement) : State :=
  let cands := (s.spareEntries g).filter (a.reached true)
  s.each (d.lostSlots.mergeSort (· ≤ ·)) fun s x =>
    let i := s.lmnOfSlot g x
    let s := (s.inc R.GRV_WIT F.GRV_WIT_LOSSES).record
      (((ev Sev.fault Src.grv g).field R.GRV_WIT F.GRV_WIT_LOSSES).about i)
    s.serve g i cands (d.inWindow && a.lostInside i)

/-- Applies a decision (R167 to R169, R108). -/
def State.applyDec (s : State) (g : Nat) (d : Decision) : State :=
  let slot := (s.code g).slot
  let a := ((s.gl g).agreement).getD ⟨d.seq, d.lostSlots, [], 0, [], 3, 0⟩
  let own := s.votedLost g a
  let differs := a.round = 3 && (own.any (!d.lostSlots.contains ·) || d.lostSlots.any (!own.contains ·))
  let s := if differs then s.record ((ev Sev.warn Src.grv g).field R.GRV_WIT F.GRV_WIT_LOSSES) else s
  let s := s.updGl g fun e => { e with lastSeq := max e.lastSeq d.seq }
  if d.lostSlots.contains slot then s.endAgreement g
  else
    let c := (coordinatorOf a d.lostSlots).getD slot
    let s := s.updGl g fun e => { e with sightLow := false }
    let s := if d.lostSlots.isEmpty then s else s.wr (R.GRV_MSTAT g) F.GRV_MSTAT_COORD (s.lmnOfSlot g c)
    let s := s.each d.lostSlots fun s x => s.loseSlot g x
    let s := match d.committed with
      | some stale => if (s.gl g).ringOpen && (s.gl g).closeEntered then s.commitRing g stale else s
      | none => s
    let s := if d.lostSlots.isEmpty then s else s.failCollectives g
    let s := if d.inWindow && s.exact g && (s.gl g).ringOpen || d.inWindow && (s.gl g).replayWait then s.replay g else s
    let s := if c = slot then s.serveLost g d a else s
    let s := if d.lostSlots.isEmpty then s else (s.refreshEras g).checkRows g
    ((s.endAgreement g).settleProfile g).settleApply g

/-- A decision as message operands. -/
def Decision.args (d : Decision) : List Nat :=
  [d.seq, d.lostSlots.length] ++ d.lostSlots ++ [bit d.inWindow, bit d.committed.isSome] ++ staleArgs (d.committed.getD [])

/-- The members of the grove that take no part in an agreement that they should: no suspects, not lost, and no view. -/
def State.absentViews (s : State) (g : Nat) (a : Agreement) : List Nat :=
  (s.slots g).filter fun x => !a.views.any (fun v => v.slot == x) && !a.suspects.contains x && !(s.lostSlots g).contains x

/-- DEC_DEADLINE: the agreement stops, and SEQ + 1 starts with the silent participants among its suspects (R170). -/
def execDecDeadline (g : GladeId) (silent : List Nat) (s : State) : Host.Outcome State Fault Refusal :=
  .next (s.inMain fun s => match (s.gl g.val).agreement with
    | some a =>
      let coord := (coordinatorOf a (s.votedLost g.val a)).toList
      s.startAgreement g.val (a.seq + 1) ((a.suspects ++ silent ++ if silent.isEmpty then coord else []).eraseDups) none
    | none => s)

/-- FIREBREAK_SIGHT_TIMEOUT: VIS has stayed below the majority for 150 µs, and no DEC has named the member a survivor
(R171). -/
def execFirebreakSightTimeout (g : GladeId) (s : State) : Host.Outcome State Fault Refusal :=
  .next (s.inMain fun s =>
    if s.inGrove g.val && (s.gl g.val).sightLow && s.rd (R.GRV_MSTAT g.val) F.GRV_MSTAT_VIS < s.majority g.val then
      s.fence g.val
    else s)

/-- FORCE: every member of this node that the mask names is fenced (R174). -/
def State.forceFence (s : State) (mask : Nat) : State :=
  s.each ((List.range 16).filter fun g => bitAt mask g && s.inGrove g) fun s g => s.fence g

/-- FORCE (R174). -/
def execForce (mask : BitVec 16) (s : State) : Host.Outcome State Fault Refusal :=
  .next (s.inMain fun s => s.forceFence mask.toNat)

/-- READY: the coordinator multicasts the map update and applies it (R176). -/
def execReady (g : GladeId) (lmn : Nat) (s : State) : Host.Outcome State Fault Refusal :=
  .next (s.inMain fun s => match (s.gl g.val).serving.find? fun v => v.lmn == lmn with
    | some v =>
      let seq := s.nextMapSeq g.val
      let s := s.updGl g.val fun e => { e with serving := e.serving.filter fun v => v.lmn != lmn }
      ((s.sendMapUpdate g.val lmn v.pnid seq).applyMap g.val lmn v.pnid seq).settleProfile g.val
    | none => s)

/-- READY_TIMEOUT: the spare is skipped and its entry emptied; the next one has TAKEOVER (R177). -/
def execReadyTimeout (g : GladeId) (lmn : Nat) (s : State) : Host.Outcome State Fault Refusal :=
  .next (s.inMain fun s => match (s.gl g.val).serving.find? fun v => v.lmn == lmn with
    | some v =>
      let s := match v.spare with
        | some x => s.clearMask (R.GRV_SPAREV g.val) F.GRV_SPAREV_VALID x
        | none => s
      (s.serve g.val lmn v.left v.inWindow).settleProfile g.val
    | none => s)

/-! ## Wrong tree entries (R149) -/

/-- A child's entry that is not combined: it is asked for once more, and a second wrong one is detection source 5: in this
member's grove a detection, elsewhere a suspicion notice to the child's grove. -/
def State.wrongEntry (s : State) (g child : Nat) : State :=
  if (s.gl g).wrongOnce.contains child then
    if child / s.groveN g = s.lmn g / s.groveN g then s.detect g child 5
    else
      let l := (List.range (s.groveN g)).map fun x => child / s.groveN g * s.groveN g + x
      s.toMembers g (l.filter (· != child)) "SUSPICION" [g, child, 5]
  else
    let s := s.updGl g fun e => { e with wrongOnce := e.wrongOnce ++ [child] }
    (s.record ((ev Sev.warn Src.grv g).about child)).toMember g child "ENTRY_REQUEST" [g, s.lmn g]

end Sys2Proof.Machine
end

