-- ==== Sys2Proof/Machine/Rebuild.lean ====
section
/-! DEFINITION. The stand-in and its rows: MAPUPDATE, CLEARING_START, CLEARING_READ, ROW_READ, ROW_READ_ANSWER,
ENCODE_PARITY, REBUILD_LEAF, RECONCILE_SCAN, RECONCILE_REPORT, RECONCILE_TIMEOUT and DEADFALL_NOTICE (R38, R110, R176 to R199,
R360). -/
namespace Sys2Proof.Machine

/-! ## Activation (R176, R178, R184) -/

/-- The values of the shadowed fields as the registers hold them (R87). -/
def State.shadowed (s : State) (g : Nat) : InForce :=
  let a := R.STP_GCTL g
  ⟨s.rd a F.STP_GCTL_POLICY, s.rd a F.STP_GCTL_CARRYMAX, s.rd a F.STP_GCTL_DEADLINE, s.on a F.STP_GCTL_WCSR,
   (List.range 12).map fun i =>
    BitVec.ofNat 32 (bitsOf (s.reg (R.STP_SCAL g (i / 2))).toNat (32 * (i % 2)) 32)⟩

/-- The leaves that a stand-in has to rebuild: every data leaf that is not a virtual zero leaf, and every parity leaf (R192). -/
def State.standInFor (s : State) (g : Nat) : StandIn :=
  let c := s.code g
  ⟨c.slot, false, (List.range (c.k * c.groups)).filter (· < s.leavesOfSlot g c.slot), List.range (s.parityLeaves g), [], [], []⟩

/-- GRV_MSTAT of a member that belongs to its grove (R159). -/
def State.showGrove (s : State) (g st : Nat) : State :=
  let a := R.GRV_MSTAT g
  let n := s.groveN g
  (((s.setMstate g st).wr a F.GRV_MSTAT_MAJ (s.majority g)).wr a F.GRV_MSTAT_GROVE (s.lmn g / n)).refreshVis g

/-- LEFT of GRV_RBLD follows the leaves that are left. -/
def State.refreshLeft (s : State) (g : Nat) : State :=
  match (s.gl g).standIn with
  | some r => s.wr (R.GRV_RBLD g) F.GRV_RBLD_LEFT (r.dataLeft.length + r.parityLeft.length)
  | none => s.wr (R.GRV_RBLD g) F.GRV_RBLD_LEFT 0

/-- A node that was fenced and disabled is a member again: its FENCED bit clears, and FIREBREAK_OUT with the last one (R173,
R216). -/
def State.endFence (s : State) (g : Nat) : State :=
  if !s.fenced g then s
  else
    let s := s.clearMask R.GRV_FENCE F.GRV_FENCE_FENCED g
    { s with ao := { s.ao with firebreak := s.on R.GRV_FENCE F.GRV_FENCE_FENCED } }

/-- The spare takes the lost LMN (R176): descriptor, enable, code, ring and CARRIED; it answers READY. A refused enable answers
nothing (R177). The ring of the takeover is open for it, and it has no phase of its own to finish: it waits with HOLD for the
next ring start. (DEDUCED, assumption 18.) -/
def State.takeOver (s : State) (g coord : Nat) (t : Takeover) : State :=
  let s := (s.wr (R.GLD_MEMBER g) F.GLD_MEMBER_LMN t.lmn).setReg (R.GLD_RING g) (BitVec.ofNat 64 t.ring)
  let s := s.validate g
  if !s.active g then s
  else
    let s := s.endFence g
    let s := (s.setReg (R.GRV_ROWCFG g) t.rowcfg).wr (R.GRV_ROWCFG g) F.GRV_ROWCFG_JOINED 1
    let s := s.setReg (R.GRV_NEXTCFG g) t.nextcfg
    let s := (s.wr (R.GRV_JOIN g) F.GRV_JOIN_STATE 2).wr (R.STP_GSTAT g) F.STP_GSTAT_CARRIED t.carried
    let s := s.wr (R.RTR_MAPCFG g) F.RTR_MAPCFG_SEQ t.mapSeq
    let s := (s.showGrove g 3).wr (R.GRV_MSTAT g) F.GRV_MSTAT_COORD coord
    let s := s.setMask (R.GRV_LOST g) F.GRV_LOST_LOST (s.code g).slot
    let s := s.updGl g fun e => { e with
      ringOpen := true, started := true, wrapPending := true, takenIn := t.inWindow, lossInRing := t.inWindow,
      gone := [t.lmn], inForce := s.shadowed g, standIn := some (s.standInFor g) }
    ((s.refreshLeft g).refreshEras g).toMember g coord "READY" [g, t.lmn]

/-- Whether a map sequence is newer than the held one (R178). -/
def State.mapNewer (s : State) (g seq : Nat) : Bool :=
  let d := (seq + 2 ^ 16 - s.rd (R.RTR_MAPCFG g) F.RTR_MAPCFG_SEQ) % 2 ^ 16
  1 ≤ d && d ≤ 32767

/-- MAPUPDATE (R155, R178, R184, R288). -/
def execMapupdate (g : GladeId) (lmn pnid seq : Nat) (s : State) : Host.Outcome State Fault Refusal :=
  .next (s.inMain fun s =>
    if !s.mapNewer g.val seq then s
    else
      let g := g.val
      let s := s.applyMap g lmn pnid seq
      let slot := lmn % s.groveN g
      let grove := s.inGrove g && s.lmnOfSlot g slot == lmn
      if lmn = s.lmn g ∧ pnid = s.pnid then
        (if s.mstate g = 3 then s.setMstate g 4 else s).settleProfile g
      else
        let s := if grove then s.setMask (R.GRV_LOST g) F.GRV_LOST_LOST slot else s
        let s := if s.active g && !grove then s.dropMember g lmn else s
        ((s.refreshEras g).settleProfile g).settleApply g)

/-! ## Row reads (R181 to R183) -/

/-- ROW_READ: the line and its status word, under the row lock; an encoding read of a leaf written in the open ring is
refused with BUSY, and a fenced member answers with an error (R172, R181, R183, R289). (DEDUCED, assumption 20.) -/
def execRowRead (g : GladeId) (row line txid : Nat) (encode : Bool) (s : State) : Host.Outcome State Fault Refusal :=
  .next (s.inMain fun s =>
    let g := g.val
    if s.fenced g then s.send (.answer g txid "ERR" [2] [])
    else if !s.active g || !s.joined g || (s.code g).rows ≤ row || 32 ≤ line then s.send (.answer g txid "ERR" [5] [])
    else
      let w := s.statusWord g row false
      let busy := encode && bitAt w.toNat 28
      let b := slice (s.ownLeaf g row) (128 * line) 128
      (s.charge 2 1 0 5).send (.answer g txid "ROW" [(s.code g).slot, row, line, (s.statusWord g row busy).toNat] b))

/-- Whether a row has more than m erasures, a data leaf among them, by this member's knowledge and a list of answers (R182,
R197). -/
def State.rowDeadBy (s : State) (g row : Nat) (answers : List RowAnswer) : Bool :=
  let c := s.code g
  let er := (s.slots g).filter fun x => s.slotErased g row x ||
    answers.any fun a => a.slot == x && (a.isStale || a.isErased)
  c.m < er.length && er.any fun x => (c.parityIndex row x).isNone

/-- The answers of the other members of a row. -/
def State.others (s : State) (g : Nat) (answers : List RowAnswer) : List RowAnswer :=
  answers.filter fun a => a.slot != (s.code g).slot

/-- Asks the holders of a row's leaves for a whole leaf each. -/
def State.askRow (s : State) (g row : Nat) (encode : Bool) : State :=
  let c := s.code g
  let slots := (s.slots g).filter fun x => x != c.slot &&
    (if encode then (c.parityIndex row x).isNone && !s.isVirtual g x row
     else !bitAt (s.rd (R.GRV_LOST g) F.GRV_LOST_LOST) x)
  s.each slots fun s x => s.toMember g (s.lmnOfSlot g x) "ROW_READ" [g, row, bit encode]

/-! ## Encoding a parity leaf (R38, R183, R360) -/

/-- Whether a parity leaf of this member is to be encoded. -/
def State.toEncode (s : State) (g p : Nat) : Bool :=
  let e := s.gl g
  e.stalePar.contains p || e.unbuilt.contains p || (match e.standIn with
    | some r => r.parityLeft.contains p
    | none => false)

/-- The initial encoding counts down to ENCDONE (R360). -/
def State.countEncoded (s : State) (g : Nat) : State :=
  let a := R.GRV_JOIN g
  if s.on a F.GRV_JOIN_ENCDONE || s.rd a F.GRV_JOIN_ENCLEFT = 0 then s
  else
    let n := s.rd a F.GRV_JOIN_ENCLEFT - 1
    let s := s.wr a F.GRV_JOIN_ENCLEFT n
    if n = 0 then
      (s.wr a F.GRV_JOIN_ENCDONE 1).record ((ev Sev.note Src.grv g).field a F.GRV_JOIN_ENCDONE)
    else s

/-- The last leaf of a stand-in's slot has been written (R193): LOST clears, STATE 1, a Note record. (DESIGN CHOICE, assumption 19.) -/
def State.rebuilt (s : State) (g : Nat) : State :=
  match (s.gl g).standIn with
  | some r =>
    if !r.dataLeft.isEmpty || !r.parityLeft.isEmpty then s.refreshLeft g
    else
      let s := (s.clearMask (R.GRV_LOST g) F.GRV_LOST_LOST r.slot).toMembers g (s.grovePeers g) "REBUILT" [g, r.slot]
      let s := s.updGl g fun e => { e with standIn := none }
      let s := if s.mstate g = 3 ∨ s.mstate g = 4 then s.setMstate g (s.restState g) else s
      ((s.refreshLeft g).refreshEras g).record (((ev Sev.note Src.grv g).field (R.GRV_RBLD g) F.GRV_RBLD_LEFT).about
        (s.lmn g))
  | none => s

/-- One more leaf of the stand-in is there. -/
def State.leafRebuilt (s : State) (g : Nat) : State := (s.inc (R.GRV_RBLD g) F.GRV_RBLD_DONE).rebuilt g

/-- The encoding of parity leaf p from the answers of its row: done, or abandoned until the ring commits (R183); a row that
has too few survivors is deadfall (R197). The deltas that waited for the build are taken up either way (R209, R360). -/
def State.encodeLeaf (s : State) (g p : Nat) (answers : List RowAnswer) : State :=
  let c := s.code g
  let row := c.rowOfParity c.slot p
  let first := (s.gl g).unbuilt.contains p
  let mine := match (s.gl g).standIn with
    | some r => r.parityLeft.contains p
    | none => false
  match s.encodeData g row (s.others g answers) with
  | some d =>
    let s := s.encodeFrom g p d
    let s := if first then s.countEncoded g else s
    (if mine then s.leafRebuilt g else s).takeHeld g
  | none =>
    let s := s.updGl g fun e => { e with building := e.building.erase (false, p) }
    (if s.rowDeadBy g row (s.others g answers) then s.findDead g row else s).takeHeld g

/-- The encoding of parity leaf p begins: it takes a context, and its row is read; while no context is free it waits (R133). -/
def State.beginEncode (s : State) (g p : Nat) : State :=
  let c := s.code g
  if (s.gl g).building.contains (false, p) || !s.contextFree (s.homeTile p) false then s
  else ((s.openContext (s.homeTile p) g 1 p false).updGl g fun e => { e with building := e.building ++ [(false, p)] }).askRow g
    (c.rowOfParity c.slot p) true

/-- The index of the home tile of a data leaf: its block, or its ledger leaf (R301). -/
def State.leafIndex (s : State) (g q : Nat) : Nat :=
  let n := (1 + s.moments g) * s.bloc g
  if q < n then q / (1 + s.moments g) else q - n

/-- The rebuild of data leaf q begins: it takes a context, and its row is read. -/
def State.beginRebuild (s : State) (g q : Nat) : State :=
  let c := s.code g
  let t := s.homeTile (s.leafIndex g q)
  if (s.tl t).contexts.any (fun x => x.glade == g && x.kind == 2 && x.unit == q) || !s.contextFree t false then s
  else (s.openContext t g 2 q false).askRow g (c.rowOfLeaf c.slot q) false

/-- ENCODE_PARITY: a stale, unbuilt or lost parity leaf of this member, under class 2 (R58, R183): without answers the reads
leave, with them the leaf is encoded. -/
def execEncodeParity (g : GladeId) (p : Nat) (rows : List RowAnswer) (s : State) : Host.Outcome State Fault Refusal :=
  .next (s.inMain fun s =>
    let g := g.val
    if !s.active g || s.fenced g || !s.toEncode g p || !s.permits g 2 then s
    else if rows.isEmpty then s.beginEncode g p
    else (s.closeContext g 1 p).encodeLeaf g p rows)

/-! ## Rebuild (R186, R192 to R194) -/

/-- Whether a data leaf of this member is in its memory. -/
def State.leafHere (s : State) (g q : Nat) : Bool :=
  !(s.gl g).repair.contains q && (match (s.gl g).standIn with
    | some r => !r.dataLeft.contains q
    | none => true)

/-- Rounds the working copy of a rebuilt block once its master and its ledger entry are there (R104). -/
def State.copyBack (s : State) (g t : Nat) : State :=
  if s.leafHere g (s.valueLeaf g t 0) && s.leafHere g (s.ledgerLeaf g t) then
    (s.roundAgain g t).autoInv g (s.copyAddr g t) 2048
  else s

/-- Changes a lost block's ledger entry to the ring of its master (R110). `new` says that the master is at the open ring.
(DEDUCED, assumption 25.) -/
def State.fixEntry (s : State) (g t : Nat) (new : Bool) (ring : Nat) : State :=
  let l := s.ledger g t
  let l' : Ledger := if new then (if l.ring = ring then l else { l with ring := ring, steps := l.steps + 1, lag := false })
    else if l.ring = ring then { l with ring := ring - 1, steps := l.steps - 1, lag := true }
    else { l with lag := true }
  (s.store (s.ledgerAddr g t) l'.bytes).countLag g (!new)

/-- The ledger entries of a rebuilt ledger leaf that the reconciliation has still to settle; the leaf's row is then encoded
again. -/
def State.fixLedger (s : State) (g e : Nat) : State :=
  let due := (s.gl g).ledgerFix.filter fun x => x.1 / 256 == e
  if due.isEmpty || !s.leafHere g (s.ledgerQ g e) then s
  else
    let ring := if (s.gl g).ringOpen then s.openRing g else s.ring g
    let s := s.each due fun s x => s.fixEntry g x.1 x.2 ring
    let s := s.updGl g fun x => { x with ledgerFix := x.ledgerFix.filter (!due.contains ·) }
    let c := s.code g
    s.encodeAgain g (c.rowOfLeaf c.slot (s.ledgerQ g e))

/-- What follows a rebuilt data leaf: ledger entries are settled and working copies rounded again. -/
def State.afterLeaf (s : State) (g q : Nat) : State :=
  let n := (1 + s.moments g) * s.bloc g
  if q < n then (if q % (1 + s.moments g) = 0 then s.copyBack g (q / (1 + s.moments g)) else s)
  else
    let e := q - n
    (s.fixLedger g e).each ((List.range 256).filter fun i => 256 * e + i < s.bloc g) fun s i => s.copyBack g (256 * e + i)

/-- A data leaf of the stand-in is rebuilt from its row (R193); a row with too few survivors is deadfall (R194). -/
def State.rebuildData (s : State) (g q : Nat) (answers : List RowAnswer) : State :=
  let c := s.code g
  let row := c.rowOfLeaf c.slot q
  let l := s.others g answers
  match s.solveRow g row 4096 l, c.dataIndex row c.slot with
  | some d, some i =>
    let s := ((s.store (s.leafAddr g q) (d.getD i (zeros 4096))).charge 2 0 32 0).countGf (s.homeTile (s.leafIndex g q)) 4096
    (((s.leafThere g q).afterLeaf g q).leafRebuilt g).settleApply g
  | _, _ => if s.rowDeadBy g row l then s.findDead g row else s

/-- REBUILD_LEAF: one leaf of the stand-in's slot, under class 2 (R192, R193); parity leaves follow the data leaves. An apply's
own rebuild does not wait for class 2 (R58). -/
def execRebuildLeaf (g : GladeId) (parity : Bool) (index : Nat) (rows : List RowAnswer) (s : State) :
    Host.Outcome State Fault Refusal :=
  .next (s.inMain fun s =>
    let g := g.val
    match (s.gl g).standIn with
    | none => s
    | some r =>
      let c := s.code g
      let there := if parity then r.parityLeft.contains index && r.dataLeft.all fun q =>
          (s.gl g).deadRows.contains (c.rowOfLeaf c.slot q) else r.dataLeft.contains index
      if !s.active g || s.fenced g || !there || !(s.permits g 2 || (!parity && r.front.contains index)) then s
      else if rows.isEmpty then (if parity then s.beginEncode g index else s.beginRebuild g index)
      else if parity then (s.closeContext g 1 index).encodeLeaf g index rows
      else (s.closeContext g 2 index).rebuildData g index rows)

/-! ## Clearing reads (R184 to R187) -/

/-- The region of glade g that holds an offset. -/
def State.regionAt (s : State) (g o : Nat) : Option Nat :=
  (List.range 10).find? fun x => s.regionBase g x ≤ o && o < s.regionBase g x + 4096 * s.regionSize g x

/-- The rows and lines that a line of the shard of an LMN is reconstructed from, as (row, line), and its data leaf, if it is a
line of one; nothing for a line that no row codes. A hosted shard lies at the offsets of this member's own regions. (DEDUCED,
assumption 68.) -/
def State.clearNeeds (s : State) (g lmn o : Nat) : Option (Option Nat × List (Nat × Nat)) :=
  let c := s.code g
  let sl := lmn % s.groveN g
  let bl := s.blocOf g (s.members g) lmn
  let mu := s.moments g
  let line := o % 4096 / 128
  match s.regionAt g o with
  | none => none
  | some x =>
    let i := (o - s.regionBase g x) / 4096
    let led := fun e => (1 + mu) * bl + e
    if x < 3 then
      let q := s.valueLeaf g i x
      if x ≤ mu && i < bl then some (some q, [(c.rowOfLeaf sl q, line)]) else none
    else if x = 3 then (if i < (bl + 255) / 256 then some (some (led i), [(c.rowOfLeaf sl (led i), line)]) else none)
    else if x = 4 then (if i < c.m * c.groups then some (none, [(c.rowOfParity sl i, line)]) else none)
    else if x = 5 then
      let w := o - s.regionBase g 5
      let t := w / 2048
      let q := s.valueLeaf g t 0
      let row := c.rowOfLeaf sl q
      if t < bl then some (some q, ((List.range 4).map fun b => (row, 8 * b + w % 2048 / 256)) ++
        if (s.gl g).inForce.wcsr then [(c.rowOfLeaf sl (led (t / 256)), t % 256 / 8)] else [])
      else none
    else none

/-- Whether a line of this member's own shard is to be reconstructed: its leaf awaits repair, is not yet rebuilt, or is a parity
leaf that is not there; the working copy of a block whose master, or whose RING under WCSR, is not yet rebuilt; and the
reduction buffer of a shard in clearing (R44, R184, R185). -/
def State.lineAway (s : State) (g o : Nat) : Bool :=
  let left := fun q => match (s.gl g).standIn with
    | some r => r.dataLeft.contains q
    | none => false
  match s.regionAt g o with
  | none => false
  | some x =>
    if x = 4 then
      let p := (o - s.regionBase g 4) / 4096
      (s.gl g).unbuilt.contains p || (match (s.gl g).standIn with
        | some r => r.parityLeft.contains p
        | none => false)
    else if x = 5 then
      let t := (o - s.regionBase g 5) / 2048
      left (s.valueLeaf g t 0) || ((s.gl g).inForce.wcsr && left (s.ledgerLeaf g t))
    else if x = 6 then (s.gl g).standIn.isSome
    else match s.clearNeeds g (s.lmn g) o with
      | some (some q, _) => !s.leafHere g q
      | _ => false

/-- The answer to a clearing read (R187): the line, or an error with a code of R284. -/
def State.clearAnswer (s : State) (g txid : Nat) (r : Option (List Byte)) (code : Nat := 3) : State :=
  match r with
  | some b => (s.inc R.GRV_CLRCNT F.GRV_CLRCNT_READS).send (.answer g txid "LINE" [] b)
  | none => (s.inc R.GRV_CLRCNT F.GRV_CLRCNT_ERRS).send (.answer g txid "ERR" [code] [])

/-- The working-copy line that four planes of master lines spell; that of the own shard is written to region 5 (R185). -/
def State.clearCopy (s : State) (g lmn o : Nat) (lines : List (List Byte)) : List Byte × State :=
  let w := o - s.regionBase g 5
  let t := w / 2048
  let lane := w % 2048 / 2
  match s.locateFrom g (s.members g) lmn (s.layers g) 0 t with
  | none => ([], s)
  | some (l, b) =>
    let v := (List.range 1024).map fun i =>
      if lane ≤ i ∧ i < lane + 64 then
        (BitVec.ofNat 32 (leNat ((List.range 4).map fun p => (lines.getD p []).getD (i % 128) 0)) : F32) else 0
    let ring := if (s.gl g).inForce.wcsr then leAt (lines.getD 4 []) (16 * (t % 8)) 8 else 0
    let bytes := slice (s.roundCopy g l b ring v).1 (2 * lane) 128
    (bytes, if lmn = s.lmn g then (s.store o bytes).autoInv g o 128 else s)

/-- Serves a clearing read from the reconstructed lines. -/
def State.clearServe (s : State) (g lmn o txid : Nat) (lines : List (List Byte)) : State :=
  if s.regionBase g 5 ≤ o && o < s.regionBase g 5 + 4096 * s.regionSize g 5 && 4 ≤ lines.length then
    let r := s.clearCopy g lmn o lines
    r.2.clearAnswer g txid (some r.1)
  else s.clearAnswer g txid lines.head?

/-- The survivors' answers to a read of a line for an LMN, this member's own among them when another slot is read. -/
def State.clearFrom (s : State) (g lmn row line : Nat) (answers : List RowAnswer) : List RowAnswer :=
  let me := (s.code g).slot
  let sl := lmn % s.groveN g
  let own := s.ownAnswer g row
  (answers.filter fun a => a.slot != sl && a.slot != me) ++
    if sl = me then [] else [{ own with bytes := slice own.bytes (128 * line) 128 }]

/-- The reconstructed line of an LMN's slot in a row, from answers that hold that line: a data line from the survivors (R83, R182),
a parity line encoded from its data lines, of which none may be written in the open ring (R185). -/
def State.clearLine (s : State) (g lmn row line : Nat) (answers : List RowAnswer) : Option (List Byte) :=
  let c := s.code g
  let sl := lmn % s.groveN g
  let l := s.clearFrom g lmn row line answers
  match c.parityIndex row sl, c.dataIndex row sl with
  | some j, _ => if s.encodable g row 128 l then (s.solveRow g row 128 l).map (encodeParityBytes 128 j) else none
  | none, some i => (s.solveRow g row 128 l).map fun d => d.getD i (zeros 128)
  | none, none => none

/-- The units of a clearing read that wait for answers, each with a context of the leaf's home tile. -/
def State.addUnits (s : State) (g lmn o txid t : Nat) (l : List ((Nat × Nat) × List RowAnswer)) : State :=
  s.each l fun s x =>
    let n := (s.gl g).nextUnit
    let s := if s.contextFree t true then s.openContext t g 0 n true else s
    (s.updGl g fun e => { e with
      reads := e.reads ++ [⟨n, lmn, x.1.1, x.1.2, o, txid, s.now, x.2, false⟩], nextUnit := n + 1 }).askLine g x.1.1 x.1.2 n

/-- The home tile of a line of an LMN's shard (R301). -/
def State.clearTile (s : State) (g lmn o : Nat) (q : Option Nat) : Nat :=
  let n := (1 + s.moments g) * s.blocOf g (s.members g) lmn
  match q with
  | some q => s.homeTile (if q < n then q / (1 + s.moments g) else q - n)
  | none => s.homeTile ((o - s.regionBase g 4) / 4096)

/-- A clearing read that is reconstructed (R184 to R187): from the answers of its rows; it waits where they are not yet consistent
(R182) or a parity line's data is written in the open ring (R185), and is answered deadfall where too few are left (R198). A
line that no row codes has an error (R185). -/
def State.clearRead (s : State) (g lmn o txid : Nat) (rows : List (List RowAnswer)) : State :=
  match s.clearNeeds g lmn o with
  | none => s.clearAnswer g txid none 5
  | some (q, needs) =>
    if needs.any fun x => (s.gl g).deadRows.contains x.1 then s.clearAnswer g txid none
    else
      let s := if lmn = s.lmn g then s.wantLeaves g q.toList else s
      let work := needs.zipIdx.map fun x => (x.1, rows.getD x.2 [])
      let lines := work.map fun x => s.clearLine g lmn x.1.1 x.1.2 x.2
      if lines.all Option.isSome then s.clearServe g lmn o txid (lines.map fun x => x.getD [])
      else match work.find? fun x => s.rowDeadBy g x.1.1 (s.clearFrom g lmn x.1.1 x.1.2 x.2) with
        | some x => (s.findDead g x.1.1).clearAnswer g txid none
        | none => s.addUnits g lmn o txid (s.clearTile g lmn o q) work

/-- A read of a line of the shard of an LMN (R44, R179, R184, R189): a line of a hosted LMN is reconstructed; so is a line of this
member's own shard whose leaf is not there. A read of the lost shard waits until clearing has started, and a rebuilt leaf is
answered from memory. Any other line has its ordinary answer. -/
def State.readShard (s : State) (g lmn o txid : Nat) (rows : List (List RowAnswer)) (ordinary : State) : State :=
  if lmn ≠ s.lmn g ∧ (s.gl g).hosting.contains lmn then s.clearRead g lmn o txid rows
  else if (s.regionAt g o).isNone then ordinary
  else match (s.gl g).standIn with
    | some r =>
      if !r.clearing then s.updGl g fun e => { e with clearWaits := e.clearWaits ++ [(o, txid)] }
      else if s.lineAway g o then s.clearRead g (s.lmn g) o txid rows
      else s.clearAnswer g txid (some (s.readBytes o 128))
    | none => if s.lineAway g o then s.clearRead g (s.lmn g) o txid rows else ordinary

/-- CLEARING_READ (R184 to R187); a fenced member answers with an error (R172). -/
def execClearingRead (g : GladeId) (lmn offset txid : Nat) (rows : List (List RowAnswer)) (s : State) :
    Host.Outcome State Fault Refusal :=
  .next (s.inMain fun s =>
    if s.fenced g.val then s.send (.answer g.val txid "ERR" [2] [])
    else s.readShard g.val lmn offset txid rows (s.send (.answer g.val txid "LINE" [] (s.readBytes offset 128))))

/-- CLEARING_START: the stand-in serves the lost shard from now on, the reads that have waited first, and recovery ends for it
(R154, R184, R189). -/
def execClearingStart (g : GladeId) (s : State) : Host.Outcome State Fault Refusal :=
  .next (s.inMain fun s => match (s.gl g.val).standIn with
    | some r =>
      if s.mstate g.val = 4 then
        let waits := (s.gl g.val).clearWaits
        let s := (s.updGl g.val fun e => { e with
          standIn := some { r with clearing := true }, awaited := [], clearWaits := [] }).setMask (R.GRV_LOST g.val) F.GRV_LOST_LOST r.slot
        (s.each waits fun s x => s.readShard g.val (s.lmn g.val) x.1 x.2 [] s).settleProfile g.val
      else s
    | none => s)

/-- WAITMAX keeps the longest wait of a clearing read (R158, R182). -/
def State.noteWait (s : State) (began : Nat) : State :=
  s.raise R.GRV_CLRCNT F.GRV_CLRCNT_WAITMAX (min (s.now - began) 0xFFFF)

/-- Drops every unit of a clearing read, with their contexts. -/
def State.dropRead (s : State) (g : Nat) (u : ReadUnit) : State :=
  let mine := (s.gl g).reads.filter fun x => x.txid == u.txid && x.offset == u.offset && x.lmn == u.lmn
  (s.each mine fun s x => s.closeContext g 0 x.id).updGl g fun e => { e with reads := e.reads.filter (!mine.contains ·) }

/-- Answers a clearing read whose units are all solved; one whose row has too few survivors is deadfall. -/
def State.clearSettle (s : State) (g : Nat) (u : ReadUnit) : State :=
  let mine := (s.gl g).reads.filter fun x => x.txid == u.txid && x.offset == u.offset && x.lmn == u.lmn
  let drop := fun s : State => s.dropRead g u
  let lines := mine.map fun x => s.clearLine g x.lmn x.row x.line x.answers
  if lines.all Option.isSome then
    ((drop s).noteWait u.atTime).clearServe g u.lmn u.offset u.txid (lines.map fun x => x.getD [])
  else if s.rowDeadBy g u.row (s.clearFrom g u.lmn u.row u.line u.answers) then ((drop s).findDead g u.row).clearAnswer g u.txid none
  else s

/-- ROW_READ_ANSWER (R182): a later answer of a slot replaces its earlier one; STALE and ERASED count as erasures (R195). -/
def execRowReadAnswer (g : GladeId) (unit : Nat) (a : RowAnswer) (s : State) : Host.Outcome State Fault Refusal :=
  .next (s.inMain fun s => match (s.gl g.val).reads.find? fun u => u.id == unit with
    | some u =>
      let u := { u with answers := (u.answers.filter fun x => x.slot != a.slot) ++ [a] }
      let s := s.updGl g.val fun e => { e with reads := e.reads.map fun x => if x.id == unit then u else x }
      (s.refreshEras g.val).clearSettle g.val u
    | none => s)

/-! ## Reconciliation (R110, R190, R191) -/

/-- RECONCILE_SCAN: a fold-complete holder reports the rows in which the lost data index is folded (R190); the scan never waits
for class 2. -/
def execReconcileScan (g : GladeId) (slot : Nat) (s : State) : Host.Outcome State Fault Refusal :=
  .next (s.inMain fun s =>
    let g := g.val
    if !s.active g || s.fenced g || s.exact g || !s.foldComplete g || slot == (s.code g).slot then s
    else
      let c := s.code g
      let rows := (s.gl g).folds.filterMap fun f =>
        let row := c.rowOfParity c.slot f.p
        if f.next then none
        else match c.dataIndex row slot with
          | some i => if bitAt f.bits i then some row else none
          | none => none
      (s.charge 2 (s.parityLeaves g) 0 0).toMember g (s.lmnOfSlot g slot) "RECONCILE_REPORT" ([g, s.lmn g] ++ rows))

/-- The surviving holders of a row that have reported: parity index and LMN. -/
def State.holdersOf (s : State) (g row : Nat) (r : StandIn) : List (Nat × Nat) :=
  let c := s.code g
  ((List.range c.m).map fun j => (j, s.lmnOfSlot g (c.paritySlot row j))).filter fun x =>
    x.2 != s.lmn g && !r.staleHolders.contains x.2 && r.reports.any fun y => y.1 == x.2

/-- Whether a holder's report lists a row. -/
def StandIn.folded (r : StandIn) (row i : Nat) : Bool := r.reports.any fun y => y.1 == i && y.2.contains row

/-- Decides one row of the lost slot (R191): whether its leaf is at R + 1, and the parity leaves that become stale. -/
def State.decideRow (s : State) (g row : Nat) (r : StandIn) : Bool × List RowPar :=
  let h := s.holdersOf g row r
  let set := h.filter fun x => r.folded row x.2
  let out := (List.range (s.code g).m).filter fun j => r.staleHolders.contains (s.lmnOfSlot g ((s.code g).paritySlot row j))
  (!set.isEmpty,
   (if set.isEmpty then [] else (h.filter fun x => !r.folded row x.2).map fun x => ⟨false, row, x.1⟩) ++
   out.map fun j => ⟨false, row, j⟩)

/-- Whether a local data leaf of the lost slot is decided at R + 1. -/
def State.leafAtNew (s : State) (g q : Nat) (r : StandIn) : Bool :=
  let c := s.code g
  (s.decideRow g (c.rowOfLeaf c.slot q) r).1

/-- The outcome of one lost block (R110): LAG by its master, and TORN where a moment ended at another ring. -/
def State.settleBlock (s : State) (g t : Nat) (r : StandIn) : State :=
  let m := s.leafAtNew g (s.valueLeaf g t 0) r
  let torn := (List.range (s.moments g)).any fun i => s.leafAtNew g (s.valueLeaf g t (i + 1)) r != m
  let s := s.updGl g fun e => { e with ledgerFix := e.ledgerFix ++ [(t, m)] }
  if torn then
    (s.wr (R.STP_GSTAT g) F.STP_GSTAT_TORN 1).record
      (((ev Sev.note Src.stp g).field (R.STP_GSTAT g) F.STP_GSTAT_TORN).about t)
  else s

/-- Settles the lost shard once every surviving holder has reported or is taken as stale (R110, R191). -/
def State.reconcile (s : State) (g : Nat) : State :=
  match (s.gl g).standIn with
  | none => s
  | some r =>
    if !(s.reportsDue g).isEmpty || !(s.gl g).takenIn || s.exact g then s
    else
      let c := s.code g
      let rows := ((List.range (s.leavesOfSlot g c.slot)).map (c.rowOfLeaf c.slot)).eraseDups
      let stale := rows.flatMap fun row => (s.decideRow g row r).2
      let s := s.updGl g fun e => { e with staleSent := (e.staleSent ++ stale).eraseDups }
      if !((s.gl g).verdictDone && verdictApply (s.gl g).verdict) then s
      else
        let s := s.each (List.range (s.bloc g)) fun s t => s.settleBlock g t r
        s.each (List.range ((s.bloc g + 255) / 256)) fun s e => s.fixLedger g e

/-- RECONCILE_REPORT (R190, R191). -/
def execReconcileReport (g : GladeId) (holder : Nat) (rows : List Nat) (s : State) : Host.Outcome State Fault Refusal :=
  .next (s.inMain fun s => match (s.gl g.val).standIn with
    | some r =>
      if r.staleHolders.contains holder || (s.reportsDue g.val).isEmpty then s
      else (s.updGl g.val fun e => { e with standIn := some { r with
        reports := (r.reports.filter fun x => x.1 != holder) ++ [(holder, rows)] } }).reconcile g.val
    | none => s)

/-- RECONCILE_TIMEOUT: a holder that has not reported is taken as stale (R190). -/
def execReconcileTimeout (g : GladeId) (holder : Nat) (s : State) : Host.Outcome State Fault Refusal :=
  .next (s.inMain fun s => match (s.gl g.val).standIn with
    | some r =>
      if !(s.reportsDue g.val).contains holder then s
      else (s.updGl g.val fun e => { e with standIn := some { r with
        staleHolders := addOnce r.staleHolders holder } }).reconcile g.val
    | none => s)

/-- DEADFALL_NOTICE: a member that holds, stands in for or hosts an erased data leaf of the row counts it (R197 to R199). -/
def execDeadfallNotice (g : GladeId) (row : Nat) (s : State) : Host.Outcome State Fault Refusal :=
  .next (s.inMain fun s =>
    if s.active g.val && !(s.heldErased g.val row).isEmpty then s.countDead g.val row else s)

end Sys2Proof.Machine
end

