-- ==== Sys2Proof/Machine/Coppice.lean ====
section
/-! DEFINITION. Coppice: PLAN_LOAD, PLAN_ABORT, BLOCK_COPY, COPY_ARRIVAL, COPY_ACK, SHADOW, SHADOW_END, NEXT_PARITY_BUILD and
SAPLING_PROBE (R200 to R216), and the outcomes of a plan at a ring start: the window opens, the switch, the deferral, the
abort, the fill and the dissolution. -/
namespace Sys2Proof.Machine

/-! ## Loading a plan (R201 to R204) -/

/-- The plan record at a member offset, its digest included (R201, R203). `reservedOk` says that KIND is not 3, PLANID is not 0
and every reserved bit is 0. -/
def State.readPlan (s : State) (o : Nat) : Plan :=
  let h := s.readBytes o 248
  let ns := leAt h 26 2
  let rec' := s.readBytes o (248 + 8 * ns)
  let kind := leAt h 4 1
  let nspare := (List.range 16).map fun x => BitVec.ofNat 64 (leAt h (120 + 8 * x) 8)
  let map := (List.range ns).map fun i => BitVec.ofNat 64 (leAt rec' (248 + 8 * i) 8)
  let top := if kind = 1 then 32 else 16
  let ok := kind < 3 && leAt h 0 4 != 0 && leAt h 5 1 < 16 && leAt h 28 5 < 2 ^ 33 && !(slice h 33 7).any (· != 0) &&
    nspare.all (fun w => w.toNat < 2 ^ 17) && map.all (fun w => w.toNat < 2 ^ top)
  ⟨leAt h 0 4, kind, leAt h 5 1, leAt h 6 1, leAt h 7 1, leAt h 8 8, BitVec.ofNat 64 (leAt h 16 8), leAt h 24 1, leAt h 25 1,
   ns, leAt h 28 5, (List.range 10).map fun x => BitVec.ofNat 64 (leAt h (40 + 8 * x) 8), nspare, map, Config.sha384 rec', ok⟩

/-- The PNID of a MAP entry. -/
def mapPnid (w : Word) : Nat := bitsOf w.toNat 0 16

/-- The LMN that a FILL entry names. -/
def mapFills (w : Word) : Nat := bitsOf w.toNat 16 16

/-- Whether this node is a current member of glade g, by its member map. -/
def State.isMember (s : State) (g : Nat) : Bool :=
  (List.range (s.members g)).any fun i => s.memberEntry g i == ⟨s.pnid, true⟩

/-- The layer hash that a plan must name: a sapling computes that of its own table. -/
def State.tableHash (s : State) (g : Nat) : Word :=
  if s.active g then s.reg (R.GLD_LAYERHASH g)
  else BitVec.ofNat 64 (leNat ((digestBytes (Config.sha384 (s.readBytes (s.regionBase g 9) (8 * s.layers g)))).take 8))

/-- Whether this node owns the same blocks as a member of two shapes (R204). -/
def State.sameBlocks (s : State) (g ns : Nat) (p : Plan) : Bool :=
  match p.map.findIdx? fun w => mapPnid w == s.pnid with
  | none => false
  | some i => (List.range (s.layers g)).all fun l =>
      s.blockLo g (s.members g) (s.lmn g) l == s.blockLo g ns i l &&
      s.blockLo g (s.members g) (s.lmn g + 1) l == s.blockLo g ns (i + 1) l

/-- The minimum size of next region x for the largest next shard (R40). -/
def State.nextMin (s : State) (g x : Nat) (p : Plan) : Nat :=
  let most := ((List.range p.ns).map fun i => s.blocOf g p.ns i).foldl max 0
  if x = 4 then p.nm * ((leavesOf (s.moments g) most + p.nk - 1) / max 1 p.nk)
  else if x = 9 then (s.layers g + 511) / 512
  else s.minRegion g x most

/-- Check 6 (R203, R204): a next region that is too small, that overlaps another next region, or that overlaps a region of an
active glade other than a current region of its own class that R204 lets it reuse. -/
def State.nextRegionBad (s : State) (g : Nat) (p : Plan) : Bool :=
  let reg := fun x => ((p.nreg.getD x 0).toNat % 2 ^ 32, (p.nreg.getD x 0).toNat / 2 ^ 32)
  let same := s.sameBlocks g p.ns p
  let hits := fun x (o : Nat × Nat × Nat) (h : Nat) =>
    overlaps (reg x).1 (reg x).2 o.2.1 o.2.2 && !(h == g && o.1 == x && x != 4 && x != 7 && same && o.2.1 == (reg x).1)
  (List.range 10).any fun x =>
    (reg x).2 < s.nextMin g x p ||
    (List.range 10).any (fun y => y != x && overlaps (reg x).1 (reg x).2 (reg y).1 (reg y).2) ||
    s.activeGlades.any fun h => (s.presentRegions h).any fun o => hits x o h

/-- Whether a plan changes nothing (R201). -/
def State.emptyPlan (s : State) (g : Nat) (p : Plan) : Bool :=
  p.kind == 0 && p.nk == (s.code g).k && p.nm == (s.code g).m && p.ns == s.members g &&
  p.nshape == (s.reg (R.CQ_GSHAPE g)).toNat % 2 ^ 33 &&
  (List.range p.ns).all fun i => s.memberEntry g i == ⟨mapPnid (p.map.getD i 0), true⟩

/-- Whether this member knows that an LMN is neither hosted nor lost: one of its own grove with LOST clear, or one of its map
that no host shares (R179, R203). -/
def State.notFillable (s : State) (g lmn : Nat) : Bool :=
  let shared := (List.range (s.members g)).any fun j => j != lmn && (s.memberEntry g j).pnid == (s.memberEntry g lmn).pnid
  s.members g ≤ lmn || (s.joined g && lmn / s.groveN g == s.lmn g / s.groveN g && !shared &&
    !bitAt (s.rd (R.GRV_LOST g) F.GRV_LOST_LOST) (lmn % s.groveN g))

/-- The code of the first failing check of a load, 0 when every check passes (R203). (DEDUCED, assumption 26.) -/
def State.planErr (s : State) (g : Nat) (p : Plan) : Nat :=
  let st := s.rd (R.GRV_CPSTAT g) F.GRV_CPSTAT_STATE
  let pns := p.map.map mapPnid
  if (1 ≤ st && st ≤ 3 && (s.gl g).plan.isSome) || (s.isMember g && !s.active g) then 1
  else if !p.reservedOk || p.glade != g then 2
  else if (s.active g && p.curEpoch != (s.code g).epoch) || p.layerHash != s.tableHash g then 3
  else if p.nk < 2 || 28 < p.nk || p.nm < 1 || 4 < p.nm || 32 < p.nk + p.nm ||
      (p.kind != 2 && p.ns == 0) || (p.kind == 0 && p.ns % (p.nk + p.nm) != 0) then 4
  else if s.active g && p.swRing ≤ s.ring g + 1 then 5
  else if p.kind == 0 && s.nextRegionBad g p then 6
  else if s.emptyPlan g p || !decide pns.Nodup || (p.kind == 1 && p.map.any fun w => s.notFillable g (mapFills w)) then 7
  else if s.windowOpen g then 8
  else 0

/-- A refused load or abort: ERR and a Warn record (R203). -/
def State.refusePlan (s : State) (g err : Nat) : State :=
  (s.wr (R.GRV_CPSTAT g) F.GRV_CPSTAT_ERR err).record
    (((ev Sev.warn Src.grv g).field (R.GRV_CPSTAT g) F.GRV_CPSTAT_ERR).coded err)

/-- The saplings of a plan as next LMNs, for a FILL plan as the LMNs that they fill (R201, R205). -/
def State.planSaplings (s : State) (g : Nat) (p : Plan) : List Nat :=
  if p.kind = 1 then p.map.map mapFills
  else (List.range p.ns).filter fun i => !(List.range (s.members g)).any fun j =>
    s.memberEntry g j == ⟨mapPnid (p.map.getD i 0), true⟩

/-- LOAD (R203): reads the record at BASE, checks it and holds it. (DEDUCED, assumption 26.) -/
def State.planLoad (s : State) (g : Nat) : State :=
  let o := 4096 * s.rd R.GRV_CPADDR F.GRV_CPADDR_BASE
  let p := s.readPlan o
  let n := 248 + 8 * p.ns
  if !s.served o n then (s.readCheck o n).refusePlan g 2
  else
    let e := s.planErr g p
    if e ≠ 0 then s.refusePlan g e
    else
      let a := R.GRV_CPSTAT g
      let s := s.setReg a (putAll (s.reg a) [(F.GRV_CPSTAT_STATE, 1), (F.GRV_CPSTAT_DEFERS, 0),
        (F.GRV_CPSTAT_PLANID, p.planId)])
      let s := s.wr (R.GRV_CPRING g) F.GRV_CPRING_SWRING p.swRing
      let sap := if s.lmn g = 0 then (s.planSaplings g p).map fun i => (⟨i, 0, 0, false⟩ : Sapling) else []
      s.updGl g fun e => { e with plan := some p, abortAsked := false, saplings := sap }

/-- PLAN_LOAD (R203). -/
def execPlanLoad (g : GladeId) (s : State) : Host.Outcome State Fault Refusal :=
  .next (s.inMain fun s => s.planLoad g.val)

/-- ABORT (R214): it goes to the plan leader, LMN 0; without a plan or after the switch it is refused with ERR 9. -/
def State.planAbort (s : State) (g : Nat) : State :=
  let st := s.rd (R.GRV_CPSTAT g) F.GRV_CPSTAT_STATE
  if (s.gl g).plan.isNone || st = 0 || 3 ≤ st then s.refusePlan g 9
  else if s.active g && s.lmn g = 0 then s.updGl g fun e => { e with abortAsked := true }
  else s.toMember g 0 "PLAN_ABORT" [g]

/-- PLAN_ABORT (R214). -/
def execPlanAbort (g : GladeId) (s : State) : Host.Outcome State Fault Refusal :=
  .next (s.inMain fun s => s.planAbort g.val)

/-! ## Copies (R206) -/

/-- Whether this node is a fenced member: one whose glade firmware has disabled may be a sapling (R173). -/
def State.fencedHere (s : State) (g : Nat) : Bool := s.fenced g && s.active g

/-- The bytes of a block's copy: its value leaves and its ledger entry. -/
def State.copyBytes (s : State) (g t : Nat) : List Byte :=
  (List.range (1 + s.moments g)).flatMap (fun c => s.readBytes (s.regionBase g c + 4096 * t) 4096) ++
  s.readBytes (s.ledgerAddr g t) 16

/-- Writes a block's leaves, its ledger entry and its working copy at its next local index. -/
def State.placeNext (s : State) (g l b : Nat) (bytes : List Byte) : State :=
  let t' := s.nextLocal g l b
  let entry := slice bytes (4096 * (1 + s.moments g)) 16
  let s := s.each (List.range (1 + s.moments g)) fun s c =>
    if s.reusesClass g c && s.staysHere g l b then s else s.store (s.nextBase g c + 4096 * t') (slice bytes (4096 * c) 4096)
  let s := if s.reusesClass g 3 && s.staysHere g l b then s
    else s.store (s.nextBase g 3 + 4096 * (t' / 256) + 16 * (t' % 256)) entry
  let s := if s.reusesClass g 5 && s.staysHere g l b then s else s.nextRound g l b t' (Ledger.ofBytes entry).ring
  s.charge 4 0 (32 * (1 + s.moments g) + 17) 0

/-- One block less has to arrive. -/
def State.blockHere (s : State) (g : Nat) : State :=
  s.wr (R.GRV_CPPROG g) F.GRV_CPPROG_COPYLEFT (s.rd (R.GRV_CPPROG g) F.GRV_CPPROG_COPYLEFT - 1)

/-- Whether this node may do class 4 work for a glade: a sapling has no glade that gates it (R58, R205). -/
def State.permitsPlan (s : State) (g : Nat) : Bool := !s.active g || s.permits g 4

/-- A current owner copies block t to its next owner, or moves it inside the member (R206): the row lock is taken before the
read, and a copy to another member keeps it until its acknowledgement. A leaf that is still to be rebuilt moves to the head of
the rebuild order. -/
def State.copyBlock (s : State) (g t : Nat) : State :=
  let e := s.gl g
  if !s.active g || s.fenced g || !s.windowOpen g || s.bloc g ≤ t || e.copied.contains t || e.rowLocks.contains t ||
    !s.permits g 4 then s
  else match s.locate g t with
    | none => s
    | some (l, b) =>
      if s.staysHere g l b && s.inPlace g then s
      else if !(s.blockErased g t).isEmpty then s.wantLeaves g (s.blockErased g t)
      else
        let bytes := s.copyBytes g t
        let s := s.charge 4 (32 * (1 + s.moments g) + 1) 0 0
        if s.staysHere g l b then
          ((s.placeNext g l b bytes).blockHere g).updGl g fun e => { e with copied := e.copied ++ [t] }
        else
          let x := s.nextOwner g l b
          let s := s.updGl g fun e => { e with
            rowLocks := e.rowLocks ++ [t], handovers := e.handovers ++ [⟨0, l, b, x⟩] }
          (s.charge 4 0 0 (msgBlocks bytes.length)).sendLmn g true x "COPY" [g, s.lmn g, l, b] bytes

/-- BLOCK_COPY (R206). -/
def execBlockCopy (g : GladeId) (t : Nat) (s : State) : Host.Outcome State Fault Refusal :=
  .next (s.inMain fun s => s.copyBlock g.val t)

/-- A copy arrives (R206). One that has already arrived is acknowledged only. -/
def State.copyArrive (s : State) (g sender l b : Nat) (bytes : List Byte) : State :=
  if !s.windowOpen g || s.fencedHere g || !s.staysHere g l b then s
  else
    let s := if (s.gl g).arrived.contains (l, b) then s
      else ((s.placeNext g l b bytes).blockHere g).updGl g fun e => { e with arrived := e.arrived ++ [(l, b)] }
    s.toMember g sender "COPY_ACK" [g, l, b, 0]

/-- COPY_ARRIVAL (R206). -/
def execCopyArrival (g : GladeId) (sender layer block : Nat) (bytes : List Byte) (s : State) :
    Host.Outcome State Fault Refusal :=
  .next (s.inMain fun s => s.copyArrive g.val sender layer block bytes)

/-- The acknowledgement of a copy (kind 0), a shadow (1) or a shadow-end (2): the lock is released, the block counts as copied,
and the answers count toward fold-complete (R206, R207). An answer to nothing that waits changes nothing. -/
def State.copyAck (s : State) (g sender l b kind : Nat) : State :=
  let h : Handover := ⟨kind, if kind = 2 then 0 else l, if kind = 2 then 0 else b, sender⟩
  if !(s.gl g).handovers.contains h then s
  else
    let s := s.updGl g fun e => { e with handovers := e.handovers.erase h }
    let s := if kind = 0 then
        let t := s.localBlock g (s.members g) (s.lmn g) l b
        s.updGl g fun e => { e with rowLocks := e.rowLocks.erase t, copied := addOnce e.copied t }
      else s
    s.settleApply g

/-- COPY_ACK (R206, R207). `sender` is the next owner's next LMN. -/
def execCopyAck (g : GladeId) (sender layer block kind : Nat) (s : State) : Host.Outcome State Fault Refusal :=
  .next (s.inMain fun s => s.copyAck g.val sender layer block kind)

/-! ## Shadows (R207, R208) -/

/-- The xor deltas by class and the ledger entry that a shadow's bytes spell; `none` where an entry is malformed. -/
def parseShadow (n : Nat) : List Byte → Option (List (List Byte) × List Byte)
  | bytes =>
    (List.range n).foldl (fun r _ => match r with
      | none => none
      | some (ds, rest) =>
        let len := leAt rest 6 2
        if len < 16 || rest.length < len then none
        else (parseDelta false (thinPart (rest.take len))).map fun d => (ds ++ [d.2], rest.drop len)) (some ([], bytes))
where
  /-- The delta inside an undo entry: its prefix and its padding removed (R111). -/
  thinPart (e : List Byte) : List Byte :=
    let d := e.drop 8
    let r := unthin 64 (leAt d 8 8) (d.drop 16)
    d.take (d.length - r.2.1.length)

/-- A shadow arrives (R207): the deltas enter the copies under the next code, and the answer waits for their folds. -/
def State.shadowArrive (s : State) (g sender l b : Nat) (bytes : List Byte) : State :=
  if !s.windowOpen g || s.fencedHere g || !(s.gl g).arrived.contains (l, b) then s
  else match parseShadow (1 + s.moments g) bytes with
    | none => s
    | some (ds, entry) =>
      let s := s.nextChange g l b (ds.zipIdx.map fun x => (x.2, x.1)) (slice entry 0 16)
      (s.updGl g fun e => { e with shadowsIn := e.shadowsIn ++ [(sender, l, b)] }).settleShadows g

/-- SHADOW (R207). -/
def execShadow (g : GladeId) (sender layer block : Nat) (bytes : List Byte) (s : State) : Host.Outcome State Fault Refusal :=
  .next (s.inMain fun s => s.shadowArrive g.val sender layer block bytes)

/-- SHADOW_END: the answer waits until every shadow-end that this node expects has arrived and the next code's ledger-leaf
deltas are answered (R207). -/
def execShadowEnd (g : GladeId) (sender : Nat) (s : State) : Host.Outcome State Fault Refusal :=
  .next (s.inMain fun s =>
    if !s.windowOpen g.val || s.fencedHere g.val then s
    else (s.updGl g.val fun e => { e with shadowEndsIn := addOnce e.shadowEndsIn sender }).settleApply g.val)

/-! ## Building next-code parity (R209) -/

/-- Whether the data leaf of a slot of the next grove in a row of the next code is a virtual zero leaf. -/
def State.nextVirtual (s : State) (g slot row : Nat) : Bool :=
  s.leavesOfMember g (s.nextMembers g) (s.slotLmn g true slot) ≤ (s.nextCode g).leafOfRow slot row

/-- The data leaves of a row of the next code, once each has answered under the next epoch with nothing written in the open
ring (R183, R209). -/
def State.nextData (s : State) (g row : Nat) (answers : List RowAnswer) : Option (List (List Byte)) :=
  let c := s.nextCode g
  (List.range c.k).foldr (fun i r => r.bind fun l =>
    let sl := c.dataSlot row i
    if s.nextVirtual g sl row then some (zeros 4096 :: l)
    else match survivorOf c answers sl with
      | some a => if a.isNew then none else some (slice a.bytes 0 4096 :: l)
      | none => none) (some [])

/-- Asks the holders of a next row's data leaves for them. -/
def State.askNext (s : State) (g row : Nat) : State :=
  let c := s.nextCode g
  let slots := ((List.range c.k).map (c.dataSlot row)).filter fun x => !s.nextVirtual g x row
  s.each slots fun s x => s.sendLmn g true (s.slotLmn g true x) "ROW_READ" [g, row, 1, c.epoch]

/-- The build of next-code parity leaf p: begun by asking for its row, done or abandoned by the answers; the deltas that waited
for it are then taken up. -/
def State.buildNext (s : State) (g p : Nat) (answers : List RowAnswer) : State :=
  let c := s.nextCode g
  let row := c.rowOfParity c.slot p
  if answers.isEmpty then
    if (s.gl g).building.contains (true, p) || !s.contextFree (s.homeTile p) false then s
    else ((s.openContext (s.homeTile p) g 3 p false).updGl g fun e => { e with building := e.building ++ [(true, p)] }).askNext g row
  else
    let s := (s.closeContext g 3 p).updGl g fun e => { e with building := e.building.erase (true, p) }
    let s := match s.nextData g row answers with
      | none => s
      | some d =>
        let s := (s.store (4096 * s.parityUnit g true p) (encodeParityBytes 4096 (p % max 1 c.m) d)).charge 4 0 32 0 |>.countGf (s.homeTile p) 4096
        let s := (s.dropFold g true p).updGl g fun e => { e with nextUnbuilt := e.nextUnbuilt.erase p }
        s.wr (R.GRV_CPPROG g) F.GRV_CPPROG_ENCLEFT (s.rd (R.GRV_CPPROG g) F.GRV_CPPROG_ENCLEFT - 1)
    s.takeHeld g

/-- NEXT_PARITY_BUILD (R209). -/
def execNextParityBuild (g : GladeId) (p : Nat) (rows : List RowAnswer) (s : State) : Host.Outcome State Fault Refusal :=
  .next (s.inMain fun s =>
    if !s.windowOpen g.val || s.fencedHere g.val || !(s.gl g.val).nextUnbuilt.contains p || !s.permitsPlan g.val then s
    else s.buildNext g.val p rows)

/-! ## Saplings at the plan leader (R205, R215) -/

/-- The first spare that may take a sapling's place: a free one that MAP does not name (R175, R215). -/
def State.freshSpare (s : State) (g : Nat) (p : Plan) : Option Nat :=
  ((s.spareEntries g).find? fun x => s.spareFree g x && !p.map.any fun w => mapPnid w == s.sparePnid g x).map (s.sparePnid g)

/-- A sapling that has missed two probes: the first qualifying spare takes its place in MAP, or the plan aborts.
(DESIGN CHOICE, assumption 19.) -/
def State.replaceSapling (s : State) (g lmn : Nat) (p : Plan) : State :=
  match s.freshSpare g p with
  | none => s.updGl g fun e => { e with abortAsked := true }
  | some pn =>
    let map := p.map.zipIdx.map fun x =>
      if (if p.kind = 1 then mapFills x.1 else x.2) = lmn then fput x.1 ⟨0, 16⟩ pn else x.1
    let s := s.updGl g fun e => { e with
      plan := some { p with map := map }
      saplings := e.saplings.map fun x => if x.lmn = lmn then ⟨lmn, 0, 0, false⟩ else x }
    let s := s.toAll g "SAPLING" [g, lmn, pn]
    if s.windowOpen g then s.nextLmnLost g lmn else s

/-- SAPLING_PROBE: a probe of a sapling by the plan leader is answered with the plan's digest and with the sapling's readiness,
or it is missed (R205, R211, R215). -/
def execSaplingProbe (g : GladeId) (lmn : Nat) (answered ready : Bool) (s : State) : Host.Outcome State Fault Refusal :=
  .next (s.inMain fun s =>
    let g := g.val
    match (s.gl g).plan, (s.gl g).saplings.find? fun x => x.lmn == lmn with
    | some p, some x =>
      let x' : Sapling := if answered then ⟨lmn, min 2 (x.answers + 1), 0, ready⟩ else { x with misses := x.misses + 1 }
      let s := s.updGl g fun e => { e with saplings := e.saplings.map fun y => if y.lmn = lmn then x' else y }
      if 2 ≤ x'.misses then s.replaceSapling g lmn p else s
    | _, _ => s)

/-! ## The outcomes of a ring start (R205, R210 to R216) -/

/-- The window opens (R205): the next code, the next regions, STATE 2, and the work that is left. A leaver takes slot 0 of no
row: it has no next leaves. -/
def State.planOpen (s : State) (g : Nat) : State :=
  match (s.gl g).plan with
  | none => s
  | some p =>
    let n := max 1 (p.nk + p.nm)
    let (slot, groups) := match s.nextLmn g with
      | some i => (i % n, (s.dmaxOf g p.ns i n + p.nk - 1) / max 1 p.nk)
      | none => (0, 0)
    let a := R.GRV_NEXTCFG g
    let s := s.setReg a (putAll (s.reg a) [(F.GRV_NEXTCFG_EPOCH, (p.curEpoch + 1) % 256), (F.GRV_NEXTCFG_K, p.nk),
      (F.GRV_NEXTCFG_M, p.nm), (F.GRV_NEXTCFG_SLOT, slot), (F.GRV_NEXTCFG_GROUPS, groups), (F.GRV_NEXTCFG_VALID, 1)])
    let s := s.each (List.range 10) fun s x => s.setReg (R.GLD_NREGION g x) (p.nreg.getD x 0)
    let s := s.wr (R.GRV_CPSTAT g) F.GRV_CPSTAT_STATE 2
    let stay := ((List.range (s.bloc g)).filter fun t => match s.locate g t with
      | some x => s.staysHere g x.1 x.2
      | none => false).length
    let left := if s.inPlace g then s.nextBloc g - stay else s.nextBloc g
    let s := (s.wr (R.GRV_CPPROG g) F.GRV_CPPROG_COPYLEFT left).wr (R.GRV_CPPROG g) F.GRV_CPPROG_ENCLEFT (p.nm * groups)
    s.updGl g fun e => { e with nextUnbuilt := List.range (p.nm * groups), copied := [], arrived := [] }

/-- A stand-in takes over the plan in hand with both slots of the lost member (R215): its window, where one is open, starts
from nothing. (DEDUCED, assumption 28.) -/
def State.takePlan (s : State) (g lmn : Nat) (p : Plan) : State :=
  let old := (s.memberEntry g lmn).pnid
  let p := if p.kind = 0 then { p with map := p.map.map fun w => if mapPnid w = old then fput w ⟨0, 16⟩ s.pnid else w } else p
  let a := R.GRV_CPSTAT g
  let s := s.setReg a (putAll (s.reg a) [(F.GRV_CPSTAT_STATE, 1), (F.GRV_CPSTAT_PLANID, p.planId)])
  let s := s.wr (R.GRV_CPRING g) F.GRV_CPRING_SWRING p.swRing
  let sap := if lmn = 0 then (s.planSaplings g p).map fun i => (⟨i, 0, 0, false⟩ : Sapling) else []
  let s := s.updGl g fun e => { e with plan := some p, saplings := sap }
  if s.windowOpen g then s.planOpen g else s

/-- Whether this member is ready for the switch (R210); a leaver is when every copy that it sent is acknowledged. -/
def State.planReady (s : State) (g : Nat) : Bool :=
  let e := s.gl g
  let a := R.GRV_CPPROG g
  let sent := !s.active g || (List.range (s.bloc g)).all fun t => match s.locate g t with
    | some x => s.staysHere g x.1 x.2 || e.copied.contains t
    | none => true
  if (s.nextLmn g).isNone then sent && e.handovers.isEmpty
  else s.rd a F.GRV_CPPROG_COPYLEFT = 0 && s.rd a F.GRV_CPPROG_ENCLEFT = 0 && e.handovers.all (·.kind == 0) && !e.epochWait

/-- The plan is over on this node: nothing of it is left but STATE and PLANID. -/
def State.planDone (s : State) (g st : Nat) : State :=
  (((s.wr (R.GRV_NEXTCFG g) F.GRV_NEXTCFG_VALID 0).wr (R.GRV_CPSTAT g) F.GRV_CPSTAT_STATE st).resetReg (R.GRV_CPPROG g)).updGl g fun e => { e with
    plan := none, abortAsked := false, copied := [], handovers := [], shadowsIn := [], nextLedgerOld := [], nextFlushed := false,
    shadowEndsIn := [], endsSent := false, saplings := [], rowLocks := [], arrived := [], nextUnbuilt := [],
    building := e.building.filter (!·.1), nextFoldUsed := 0, nextFoldTip := 0, nextUndoUsed := 0, nextUndoTip := 0 }

/-- A member leaves its grove by a plan (R200, R212): JOINED clears, HOLD stays, its memory stays as it is. (DEDUCED, assumption 27.) -/
def State.leaveGrove (s : State) (g : Nat) : State :=
  let s := (((s.sweepPartial g).wr (R.GRV_ROWCFG g) F.GRV_ROWCFG_JOINED 0).setMstate g 0).setHold g true
  let s := s.updGl g fun e => { e with
    dissolved := true, wrapPending := false, startEntered := false, beats := [], sightLow := false, agreement := none,
    nextSuspects := [], serving := [], standIn := none, hosting := [] }
  { s with router := { s.router with recovering := s.router.recovering.erase g } }

/-- The next member map, in the router: its entries and their COUNT (R212, R286). -/
def State.nextMap (s : State) (g : Nat) (p : Plan) (old : Nat) : State :=
  let base := s.rd (R.RTR_MAPCFG g) F.RTR_MAPCFG_BASE
  let s := s.each (List.range p.ns) fun s i => s.setMapEntry ((base + i) % 65536) ⟨mapPnid (p.map.getD i 0), true⟩
  let s := s.each ((List.range old).filter (p.ns ≤ ·)) fun s i =>
    s.setMapEntry ((base + i) % 65536) { s.mapEntry ((base + i) % 65536) with valid := false }
  s.wr (R.RTR_MAPCFG g) F.RTR_MAPCFG_COUNT p.ns

/-- The registers of the next shape (R212, steps 1 to 3). -/
def State.nextRegs (s : State) (g : Nat) (p : Plan) (i : Nat) : State :=
  let s := s.setReg (R.GRV_ROWCFG g) (putAll 0 [(F.GRV_ROWCFG_EPOCH, (s.nextCode g).epoch), (F.GRV_ROWCFG_K, p.nk),
    (F.GRV_ROWCFG_M, p.nm), (F.GRV_ROWCFG_SLOT, (s.nextCode g).slot), (F.GRV_ROWCFG_GROUPS, (s.nextCode g).groups),
    (F.GRV_ROWCFG_JOINED, 1)])
  let s := s.each (List.range 10) fun s x => s.setReg (R.GLD_REGION g x) (s.reg (R.GLD_NREGION g x))
  let s := s.setReg (R.GLD_MEMBER g) (putAll 0 [(F.GLD_MEMBER_LMN, i), (F.GLD_MEMBER_SM1, p.ns - 1)])
  let pn := fun x => (p.nspare.getD x 0).toNat % 2 ^ 16
  let s := s.each (List.range 4) fun s x => s.setReg (R.GRV_SPARE g x)
    (BitVec.ofNat 64 (pn (4 * x) + 2 ^ 16 * pn (4 * x + 1) + 2 ^ 32 * pn (4 * x + 2) + 2 ^ 48 * pn (4 * x + 3)))
  let s := s.wr (R.GRV_SPAREV g) F.GRV_SPAREV_VALID (maskOf (p.nspare.map fun w => bitAt w.toNat 16))
  s.setReg (R.CQ_GSHAPE g) (BitVec.ofNat 64 p.nshape)

/-- The staged frames of next-code parity become those of the parity in force. -/
def State.turnFrames (s : State) (g : Nat) : State :=
  { s with frames := s.frames.map fun f => if f.glade = g ∧ f.region = 10 then { f with region := 4 } else f }

/-- A Coppice switch ends the audit's pass of the glade early, with the old epoch (R318). -/
def State.auditSwitch (s : State) (g : Nat) : State :=
  match s.budget.audit with
  | some a => if a.glade = g then s.auditEnd a else s
  | none => s

/-- What belongs to the old shape goes: parity and its faults, losses, the base of a publish unless the member keeps its blocks
(R38, R82, R212). -/
def State.dropOldShape (s : State) (g : Nat) (same : Bool) : State :=
  let s := State.turnFrames { s with frames := s.frames.filter fun f => !(f.glade == g && f.region == 4) } g
  let s := (s.resetReg (R.GRV_LOST g)).wr (R.GRV_DEAD g) F.GRV_DEAD_ROWS 0
  let s := s.updGl g fun e => { e with
    folds := [], undo := [], stalePar := [], unbuilt := e.nextUnbuilt, standIn := none, hosting := [], deadRows := [],
    reads := [], clearWaits := [], ledgerFix := [], heldDeltas := [], beats := [], sightLow := false, awaited := [], gone := [], staleSent := [],
    lastStale := [], serving := [], foldUsed := 0, foldTip := e.nextFoldTip, undoUsed := 0, undoTip := e.nextUndoTip,
    repair := if same then e.repair else [], wanted := e.wanted.filter (·.row.isNone),
    publish := none, baseRing := if same then e.baseRing else none }
  let s := s.wr (R.GRV_WPCTL g) F.GRV_WPCTL_BUSY 0
  { s with router := { s.router with recovering := s.router.recovering.erase g } }

/-- The sizes that follow from the new shape (R25, R136), and the reduction buffers of a new region 6, which are zero: they are
never copied (R206). -/
def State.resize (s : State) (g : Nat) (moved : Bool) : State :=
  let bl := s.blocOf g (s.members g) (s.lmn g)
  let s := (s.wr (R.GLD_SIZE g) F.GLD_SIZE_BLOCKS bl).wr (R.GLD_SIZE g) F.GLD_SIZE_DLEAVES (leavesOf (s.moments g) bl)
  let s := s.wr (R.CQ_GSRC g) F.CQ_GSRC_N (s.members g * s.spm g)
  if moved then s.zeroBuffers g else s

/-- The switch on one node (R212). The layer table goes with a region 9 that the next shape moves. A sapling enables the glade with
the ring that has committed, and becomes a member; a leaver leaves. (DEDUCED, assumption 27.) -/
def State.planSwitch (s : State) (g ring : Nat) : State :=
  match (s.gl g).plan with
  | none => s
  | some p =>
    match s.nextLmn g with
    | none => (s.leaveGrove g).planDone g 3
    | some i =>
      let same := s.active g && s.sameBlocks g p.ns p
      let moved := !s.reusesClass g 6
      let old := s.members g
      let table := s.readBytes (s.regionBase g 9) (8 * s.layers g)
      let s := (s.sweepPartial g).auditSwitch g
      let s := if s.reusesClass g 9 then s else s.store (s.nextBase g 9) table
      let s := ((s.nextRegs g p i).nextMap g p old)
      let s := if s.active g then s.dropOldShape g same
        else
          let left := (s.gl g).nextUnbuilt
          let s := ((s.turnFrames g).setReg (R.GLD_RING g) (BitVec.ofNat 64 (ring + 2 ^ 64 - 1))).validate g
          ((s.endFence g).wr (R.GRV_JOIN g) F.GRV_JOIN_STATE 2).updGl g fun e => { e with started := true, unbuilt := left }
      if !s.active g then s.planDone g 3
      else
        let s := ((s.resize g moved).showGrove g 1).wr (R.GRV_MSTAT g) F.GRV_MSTAT_COORD (s.lmnOfSlot g 0)
        s.planDone g 3

/-- A FILL plan installs its saplings (R216): the coordinator of the grove sends each its TAKEOVER. (DEDUCED, assumption 28.) -/
def State.planFill (s : State) (g : Nat) : State :=
  match (s.gl g).plan with
  | none => s
  | some p =>
    let s := s.planDone g 3
    if !s.active g || s.rd (R.GRV_MSTAT g) F.GRV_MSTAT_COORD ≠ s.lmn g then s
    else
      let mine := p.map.filter fun w => mapFills w / s.groveN g == s.lmn g / s.groveN g
      s.each mine fun s w =>
        (s.updGl g fun e => { e with
          serving := (e.serving.filter fun v => v.lmn != mapFills w) ++ [⟨mapFills w, none, mapPnid w, [], false⟩] }).sendTakeover
            g (mapPnid w) (mapFills w) false

/-- The switch is put off by one ring (R211). -/
def State.planDefer (s : State) (g : Nat) : State :=
  if (s.gl g).plan.isNone then s
  else (s.inc (R.GRV_CPSTAT g) F.GRV_CPSTAT_DEFERS).wr (R.GRV_CPRING g) F.GRV_CPRING_SWRING
    (s.rd (R.GRV_CPRING g) F.GRV_CPRING_SWRING + 1)

/-- The abort on one node (R214): the next shape is dropped, and a sapling is a spare again. -/
def State.planDrop (s : State) (g : Nat) : State :=
  let sap := (s.gl g).plan.isSome && !s.active g
  let s := s.dropNextShape g
  if sap then s.setMstate g 5 else s

/-- The outcome of a plan that a ring-start completion reports, on this node (R205, R211 to R216). -/
def State.planOutcome (s : State) (g ring : Nat) (o : PlanOutcome) : State :=
  match o with
  | .none => s
  | .opened => s.planOpen g
  | .switched => s.planSwitch g ring
  | .deferred => s.planDefer g
  | .aborted => s.planDrop g
  | .filled => s.planFill g
  | .dissolved => if (s.gl g).plan.isSome then (s.leaveGrove g).planDone g 3 else s

end Sys2Proof.Machine
end

