-- ==== Sys2Proof/Machine/Ring.lean ====
section
/-! DEFINITION. The ring start and what depends on it: RING_START_BARRIER, RING_START_COMPLETION, LAGGARD_EVICTION (R52, R53,
R87, R109, R148, R205, R211, R358), TREE_ENTRY (R148, R149), TAKEOVER (R176), the rows that end an agreement, ROUND2_END and DEC
(R165, R167, R168, R213), and RECORD_STORE with the departure notice of a Fatal record (R162, R392). -/
namespace Sys2Proof.Machine

/-! ## Entering the barrier (R52, R81, R148) -/

/-- This member's entry: its code epoch, its wrap, the digest of its plan and its readiness (R81, R205, R210). -/
def State.ownStart (s : State) (g : Nat) : StartEntry :=
  let e := s.gl g
  ⟨(s.code g).epoch, true, e.plan.map (·.digest), match e.plan with
    | some p => if p.kind = 0 && s.windowOpen g then s.planReady g else true
    | none => true⟩

/-- Two entries combined. -/
def StartEntry.combine (a b : StartEntry) : StartEntry :=
  ⟨a.epoch, a.wrapped && b.wrapped, if a.digest = b.digest then a.digest else none, a.ready && b.ready⟩

/-- Whether the glade waits for its first ring start: every JOIN is there (R358). -/
def State.joinWhole (s : State) (g : Nat) : Bool :=
  s.rd (R.GRV_JOIN g) F.GRV_JOIN_STATE = 1 && (s.absentJoins g).isEmpty

/-- Whether this member may enter the ring-start barrier: at the join, or after its wrap once the open ring has closed, and in
a replay once no leaf awaits repair (R52, R112, R358). -/
def State.mayStart (s : State) (g : Nat) : Bool :=
  let e := s.gl g
  s.active g && !s.fenced g && !e.dissolved && !e.startEntered && !e.ringOpen &&
  !s.on (R.STP_GSTAT g) F.STP_GSTAT_EVICTED &&
  (if e.started then e.wrapPending && s.permits g 4 && (!e.replayWait || e.repair.isEmpty) else s.joinWhole g)

/-- What a ring start makes of the plan at the root (R205, R211, R214, R216). -/
def State.decidePlan (s : State) (g : Nat) (e : StartEntry) : PlanOutcome :=
  let st := s.rd (R.GRV_CPSTAT g) F.GRV_CPSTAT_STATE
  let sap := (s.gl g).saplings
  match (s.gl g).plan with
  | none => .none
  | some p =>
    if (s.gl g).abortAsked then .aborted
    else if st = 1 then
      if e.digest = some p.digest && sap.all (2 ≤ ·.answers) then
        (if p.kind = 0 then .opened else if p.kind = 1 then .filled else .dissolved)
      else .none
    else if st = 2 && s.rd (R.GRV_CPRING g) F.GRV_CPRING_SWRING ≤ s.openRing g then
      if e.ready && sap.all (·.ready) then .switched
      else if s.rd (R.GRV_CPSTAT g) F.GRV_CPSTAT_DEFERS < p.defMax then .deferred
      else .aborted
    else .none

/-- The number by which a completion carries an outcome. -/
def PlanOutcome.code : PlanOutcome → Nat
  | .none => 0
  | .opened => 1
  | .switched => 2
  | .deferred => 3
  | .aborted => 4
  | .filled => 5
  | .dissolved => 6

/-! ## A ring starts (R52, R53, R87, R226, R331, R358) -/

/-- Whether every active glade of the node has joined: start-up ends (R154, R358). -/
def State.allJoined (s : State) : Bool := s.activeGlades.all fun g => s.rd (R.GRV_JOIN g) F.GRV_JOIN_STATE = 2

/-- The first ring start of a glade at grove join (R71, R173, R348, R353, R358, R360). (DEDUCED, assumption 29.) -/
def State.joinGrove (s : State) (g : Nat) : State :=
  let k := s.rd (R.GLD_CTL g) F.GLD_CTL_K
  let m := s.rd (R.GLD_CTL g) F.GLD_CTL_M
  let n := max 1 (k + m)
  let groups := (s.dmaxOf g (s.members g) (s.lmn g) n + k - 1) / max 1 k
  let s := s.setReg (R.GRV_ROWCFG g) (putAll 0 [(F.GRV_ROWCFG_EPOCH, 0), (F.GRV_ROWCFG_K, k), (F.GRV_ROWCFG_M, m),
    (F.GRV_ROWCFG_SLOT, s.lmn g % n), (F.GRV_ROWCFG_GROUPS, groups), (F.GRV_ROWCFG_JOINED, 1)])
  let s := (s.showGrove g 1).wr (R.GRV_MSTAT g) F.GRV_MSTAT_COORD (s.lmnOfSlot g 0)
  let a := R.GRV_JOIN g
  let left := m * groups
  let s := ((s.wr a F.GRV_JOIN_STATE 2).wr a F.GRV_JOIN_ENCLEFT left).updGl g fun e => { e with unbuilt := List.range left }
  let s := if left = 0 then
      (s.wr a F.GRV_JOIN_ENCDONE 1).record ((ev Sev.note Src.grv g).field a F.GRV_JOIN_ENCDONE)
    else s
  let s := (s.wr R.GLB_STORM F.GLB_STORM_COUNT 0).wr R.GLB_STORM F.GLB_STORM_LEVEL 0
  let s := { s with ao := { s.ao with firebreak := s.on R.GRV_FENCE F.GRV_FENCE_FENCED } }
  let s := if s.nvm.commit then
      State.queueEntry { s with nvm := { s.nvm with commit := false } } 5 (leBytes 8 s.nvm.version)
    else s
  if s.allJoined then { s with router := { s.router with startup := false } } else s

/-- The ledger entries that Seedbank restored after their leaf's delta had left enter in the new ring (R234). -/
def State.lateLedgers (s : State) (g : Nat) : State :=
  let l := (s.gl g).ledgerLater
  let s := s.updGl g fun e => { e with ledgerLater := [] }
  s.each l fun s x => (s.rememberLedger g (x.1 / 256)).store (s.ledgerAddr g x.1) x.2

/-- The tiles' pools and their set take the values that a ring start brings into force (R301, R304). -/
def State.refreshTiles (s : State) : State :=
  s.each (List.range 64) fun s t => s.updTl t fun x =>
    { x with retiring := false, pframes := max 8 (min 128 (s.rd (R.TIL_SRAMCFG t) F.TIL_SRAMCFG_PFRAMES)) }

/-- The next ring opens on this member: the phase becomes 0, the shadowed values take effect, and HOLD drops.
The first opening after the join, and that of a replayed ring, is no wrap: it fires no waypoint flag of an entry that was matched
already (R57). -/
def State.beginRing (s : State) (g : Nat) : State :=
  let s := if (s.gl g).started then s else s.joinGrove g
  let r := s.ring g
  let e := s.gl g
  let s := if e.skipTaken then s.wr (R.STP_GCTL g) F.STP_GCTL_SKIPREQ 0 else s
  let again := e.replayWait
  let s := s.updGl g fun e => { e with
    wrapPending := false, startEntered := false, childS := [], ringOpen := true, started := true, replayWait := false,
    epochWait := false, skipTaken := false, inForce := s.shadowed g
    sweepDue := if again then e.sweepDue else s.sweepFalls g r
    publishDue := if again then e.publishDue else s.publishFalls g r
    sweep := e.sweep.map fun w => { w with leftAt := s.rd (R.GLD_SBSTAT g) F.GLD_SBSTAT_LEFT, quotaUsed := 0 } }
  let s := ((s.lateLedgers g).refreshTiles).switchStream g (s.openRing g)
  let s := if s.exact g && !(s.gl g).hosting.isEmpty then
      s.record ((ev Sev.warn Src.grv g).field (R.GRV_MSTAT g) F.GRV_MSTAT_STATE)
    else s
  ((s.setStage g 0).setHold g false).setPhase g 0 (e.started && !again)

/-- This member is evicted (R109). -/
def State.evictSelf (s : State) (g : Nat) : State :=
  let a := R.STP_GSTAT g
  let s := (((s.wr a F.STP_GSTAT_EVICTED 1).setStage g 9).setHold g true).setMstate g 0
  let s := (s.updGl g fun e => { e with
    wrapPending := false, startEntered := false, agreement := none, standIn := none, serving := [] }).dropNextShape g
  s.record ((ev Sev.fault Src.stp g).field a F.STP_GSTAT_EVICTED)

/-- A completion of the ring-start barrier on this member: evicted members are lost to their grove, the plan has its outcome,
and the ring opens unless this member has left. -/
def State.startRing (s : State) (g ring : Nat) (evicted : List Nat) (o : PlanOutcome) : State :=
  if evicted.contains (s.lmn g) then s.evictSelf g
  else
    let s := s.planOutcome g ring o
    if (s.gl g).dissolved || !s.active g then s
    else (s.beginRing g).each evicted fun s i => s.detect g i 6

/-- At LMN 0 the barrier is complete: the completion goes to every member and to the saplings, and the ring starts here. -/
def State.completeStart (s : State) (g : Nat) (evicted : List Nat) (e : StartEntry) : State :=
  let o := s.decidePlan g e
  let r := s.openRing g
  let args := [g, r, o.code] ++ evicted
  let s := s.distribute g "RING_START" args
  let s := s.each (s.gl g).saplings fun s x => s.toNode (s.nextPnid g x.lmn) "RING_START" args
  s.startRing g r evicted o

/-- An entry as message operands: the digest stands in the data. -/
def State.sendStartUp (s : State) (g parent place : Nat) (e : StartEntry) : State :=
  s.toMember g parent "RING_START_UP" [g, place, s.openRing g, e.epoch, bit e.wrapped, bit e.ready]
    ((e.digest.map digestBytes).getD [])

/-- Combines this member's entry with those of its children once all are there: up the tree, or at LMN 0 the completion. -/
def State.reduceStart (s : State) (g : Nat) : State :=
  if !(s.gl g).startEntered then s
  else
    let own := s.ownStart g
    let s := s.eachSide g (s.gl g).childS fun s x place k => s.sendStartUp g x place (k.foldl StartEntry.combine own)
    match allChildren (s.children g) (s.gl g).childS with
    | none => s
    | some l =>
      let e := l.foldl StartEntry.combine own
      match s.parent g with
      | some x => s.sendStartUp g x (s.treeRoot g) e
      | none => s.completeStart g [] e

/-- RING_START_BARRIER (R52, R358): the member enters. -/
def execRingStartBarrier (g : GladeId) (s : State) : Host.Outcome State Fault Refusal :=
  .next (s.inMain fun s =>
    if s.mayStart g.val then (s.updGl g.val fun e => { e with startEntered := true }).reduceStart g.val else s)

/-- RING_START_COMPLETION: the completion of the ring that opens goes on down the tree and is acted on; a sapling takes the plan's
outcome from it and keeps the ring (R52, R109, R205, R211, R212). -/
def execRingStartCompletion (g : GladeId) (ring : Nat) (evicted : List Nat) (outcome : PlanOutcome) (s : State) :
    Host.Outcome State Fault Refusal :=
  .next (s.inMain fun s =>
    let g := g.val
    if s.fencedHere g then s
    else if s.active g then
      if (s.gl g).ringOpen || ring != s.openRing g || !((s.gl g).startEntered || evicted.contains (s.lmn g)) then s
      else (s.passOn g "RING_START" ([g, ring, outcome.code] ++ evicted)).startRing g ring evicted outcome
    else if (s.gl g).plan.isNone then s
    else
      let s := s.planOutcome g ring outcome
      if s.active g then s.beginRing g
      else if s.windowOpen g then
        (s.setReg (R.GLD_RING g) (BitVec.ofNat 64 (ring + 2 ^ 64 - 1))).updGl g fun e => { e with
          folds := e.folds.filter (!·.next), nextFoldUsed := 0, nextUndoUsed := 0, nextFlushed := false }
      else s)

/-- The LMNs whose ring-start entry has not reached LMN 0 (R109). -/
def State.laggards (s : State) (g : Nat) : List Nat :=
  let sz := s.members g
  let late := (s.allKids g).filter fun c => !(s.gl g).childS.any fun x => x.1 == c
  (if (s.gl g).startEntered then [] else [s.lmn g]) ++ late.flatMap fun c => match subtreeFrom sz 0 sz c with
    | some r => (List.range' r.1 (r.2 - r.1)).filter fun i => !(s.heldLmns g).contains i
    | none => []

/-- LAGGARD_EVICTION: 1 ms after it completed the ring-close barrier the root completes the ring start without the members whose
entries have not come (R109). A switch then waits, since not every entry is ready. -/
def execLaggardEviction (g : GladeId) (s : State) : Host.Outcome State Fault Refusal :=
  .next (s.inMain fun s =>
    let g := g.val
    let e := s.gl g
    let late := s.laggards g
    if !s.active g || s.fenced g || s.treeRoot g != 0 || e.ringOpen || !e.started || e.replayWait || late.isEmpty then s
    else s.completeStart g late { (e.childS.map (·.2)).foldl StartEntry.combine (s.ownStart g) with digest := none, ready := false })

/-! ## Tree entries (R148, R149) -/

/-- Keeps a child's entry in place of an earlier one. -/
def putChild {α : Type} (l : List (Nat × α)) (c : Nat) (x : α) : List (Nat × α) := (l.filter fun y => y.1 != c) ++ [(c, x)]

/-- The ring that a ring-start entry names: the one that opens next. -/
def State.startsRing (s : State) (g : Nat) : Nat := if (s.gl g).ringOpen then (s.openRing g + 1) % 2 ^ 64 else s.openRing g

/-- A child's partial verdict: RING, epoch, mode and CARRIED must be this member's own. -/
def State.verdictEntry (s : State) (g child : Nat) (p : PartialVerdict) : State :=
  if p.ring != s.openRing g || p.epoch != (s.code g).epoch || p.mode != bit (s.exact g) || p.carried != s.carried g then
    s.wrongEntry g child
  else if (s.gl g).verdictDone then s
  else
    let s := s.updGl g fun e => { e with childV := putChild e.childV child p }
    if s.permits g 3 then s.reduceVerdict g else s

/-- A child's layer pairs join those that it has sent before; a reduction that has begun goes on. -/
def State.trustEntry (s : State) (g child : Nat) (l : List LayerAcc) : State :=
  if (s.gl g).trustDone || !(s.gl g).verdictDone then s
  else
    let old := (((s.gl g).childT.find? fun x => x.1 == child).map (·.2)).getD []
    let all := (old.filter fun x => !l.any fun y => y.layer == x.layer) ++ l
    let s := s.updGl g fun e => { e with childT := putChild e.childT child all }
    if verdictApply (s.gl g).verdict && !(s.twoPassLayers g).isEmpty && s.firstDone g && s.permits g 3 then s.reduceTrust g else s

/-- TREE_ENTRY (R148, R149): a child's entry is kept and combined, or refused and asked for again. An entry of a node that is no
child in the tree changes nothing. -/
def State.treeEntry (s : State) (g child : Nat) (crcOk : Bool) (p : TreePayload) : State :=
  if !s.active g || s.fenced g || !(s.allKids g).contains child then s
  else if !crcOk then s.wrongEntry g child
  else match p with
    | .verdict v => s.verdictEntry g child v
    | .trust l => s.trustEntry g child l
    | .ringClose ring epoch stale =>
      if ring != s.openRing g || epoch != (s.code g).epoch then s.wrongEntry g child
      else (s.updGl g fun e => { e with childC := putChild e.childC child stale }).reduceClose g
    | .ringStart ring e =>
      if ring != s.startsRing g || e.epoch != (s.code g).epoch then s.wrongEntry g child
      else (s.updGl g fun x => { x with childS := putChild x.childS child e }).reduceStart g
    | .hostBarrier cid => s.updGl g fun e => { e with childB := addOnce e.childB (cid, child) }

/-- TREE_ENTRY (R148, R149). -/
def execTreeEntry (g : GladeId) (child : Nat) (crcOk : Bool) (p : TreePayload) (s : State) :
    Host.Outcome State Fault Refusal :=
  .next (s.inMain fun s => s.treeEntry g.val child crcOk p)

/-! ## Takeover and decisions -/

/-- TAKEOVER (R176, R215): a node that is no member of the glade takes the lost LMN, and the plan in hand with it. -/
def execTakeover (g : GladeId) (coord : Nat) (t : Takeover) (s : State) : Host.Outcome State Fault Refusal :=
  .next (s.inMain fun s =>
    if s.inGrove g.val || s.on (R.GLD_CTL g.val) F.GLD_CTL_EN then s
    else
      let s := s.takeOver g.val coord t
      match t.plan with
      | some p => if s.active g.val then s.takePlan g.val t.lmn p else s
      | none => s)

/-- Whether a view of the agreement shows that its member has switched while this one waits for the completion (R213). -/
def State.othersSwitched (s : State) (g : Nat) (d : Decision) : Bool :=
  s.windowOpen g && (s.gl g).startEntered && !d.lostSlots.isEmpty && match (s.gl g).agreement with
    | some a => a.views.any fun v => v.epoch == (s.nextCode g).epoch
    | none => false

/-- A decision; if any survivor has switched, every survivor switches (R213). -/
def State.decision (s : State) (g : Nat) (d : Decision) : State :=
  let switch := s.othersSwitched g d
  let s := s.applyDec g d
  if switch then s.startRing g (s.openRing g) [] .switched else s

/-- DEC (R167, R168, R213). -/
def execDec (g : GladeId) (d : Decision) (s : State) : Host.Outcome State Fault Refusal :=
  .next (s.inMain fun s =>
    if !s.inGrove g.val || s.fenced g.val then s
    else match (s.gl g.val).agreement with
      | some a => if a.seq = d.seq then s.decision g.val d else s
      | none => if (s.gl g.val).lastSeq < d.seq then s.decision g.val d else s)

/-- ROUND2_END (R165, R167, R170, R171): without a majority the member is fenced; a participant that stopped answering makes
the next agreement; otherwise the coordinator decides. -/
def execRound2End (g : GladeId) (s : State) : Host.Outcome State Fault Refusal :=
  .next (s.inMain fun s => match (s.gl g.val).agreement with
    | some a =>
      if a.round ≠ 2 then s
      else if a.views.length < s.majority g.val then s.fence g.val
      else
        let absent := s.absentViews g.val a
        if !absent.isEmpty then
          s.startAgreement g.val (a.seq + 1) ((a.suspects ++ absent).eraseDups) none
        else
          let s := s.updGl g.val fun e => { e with agreement := some { a with round := 3 } }
          let d := s.formDecision g.val a
          if coordinatorOf a d.lostSlots = some (s.code g.val).slot then
            (s.toMembers g.val (s.grovePeers g.val) "DEC" (g.val :: d.args)).decision g.val d
          else s
    | none => s)

/-! ## Departure (R162) -/

/-- This member's Ranger announces its own departure to every grove that it belongs to. -/
def State.depart (s : State) : State :=
  if !s.mainUp || s.rangerHalted then s
  else s.each ((List.range 16).filter s.inGrove) fun s g => s.toMembers g (s.grovePeers g) "DEPARTURE" [g, s.lmn g]

/-- RECORD_STORE: the store takes a record, and a Fatal one makes the node depart (R162, R392). -/
def execRecordStore (s : State) : Host.Outcome State Fault Refusal :=
  .next (s.inAo fun s =>
    let fatal := (s.evr.queue.head?.map (·.sev)) == some Sev.fatal
    let s := s.storeRecord
    if fatal then s.depart else s)

end Sys2Proof.Machine
end

