-- ==== Sys2Proof/Machine/Tile.lean ====
section
/-! DEFINITION. The tiles' own rows: RNG_TEST_WRITE, RNG_OUTPUT_READY, ACCESS_COMPLETE, CONTEXT_TIMEOUT, GANG_REQUEST, GANG_GRANT
and GANG_GRANT_TIMEOUT (R116, R128, R130, R131). -/
namespace Sys2Proof.Machine

/-! ## The test registers of the generator (R116, R130) -/

/-- A write of TIL[t]_RNGIN[w]: the generator starts on the test counter and key. -/
def State.writeRngin (s : State) (t w : Nat) (v : Word) : State :=
  if s.tileDisabled t then s
  else (s.setReg (R.TIL_RNGIN t w) v).updTl t fun x => { x with rngPending := true }

/-- The generator's output for the test counter and key is there. -/
def State.rngDone (s : State) (t : Nat) : State :=
  let out := s.rngOut t
  let s := (s.setReg (R.TIL_RNGOUT0 t) (BitVec.ofNat 64 out)).setReg (R.TIL_RNGOUT1 t) (BitVec.ofNat 64 (out / 2 ^ 64))
  s.updTl t fun x => { x with rngPending := false }

/-- RNG_TEST_WRITE (R116). -/
def execRngTestWrite (t : TileId) (w : Fin 4) (value : Word) (s : State) : Host.Outcome State Fault Refusal :=
  .next (s.inMain fun s => s.writeRngin t.val w.val value)

/-- RNG_OUTPUT_READY: the output is ready, and a read that waits for it is answered (R116). `rngWaiting` is 1 for a read of
RNGOUT0 and 2 for one of RNGOUT1. -/
def execRngOutputReady (t : TileId) (s : State) : Host.Outcome State Fault Refusal :=
  .next (s.inMain fun s =>
    let x := s.tl t.val
    if !x.rngPending then s
    else
      let s := (s.rngDone t.val).updTl t.val fun x => { x with rngWaiting := 0 }
      if x.rngWaiting = 1 then s.respond (some (s.reg (R.TIL_RNGOUT0 t.val)))
      else if x.rngWaiting = 2 then s.respond (some (s.reg (R.TIL_RNGOUT1 t.val)))
      else s)

/-! ## Contexts (R131) -/

/-- ACCESS_COMPLETE: the context's access has completed, and it is ready (R131). -/
def execAccessComplete (t : TileId) (ctx : Nat) (s : State) : Host.Outcome State Fault Refusal :=
  .next (s.inMain fun s => s.updTl t.val fun x => { x with
    contexts := x.contexts.map fun c => if c.id = ctx then { c with parked := false } else c })

/-- Restarts a unit from the beginning; the members that a clearing read still waits for are reported (R131, R162 source 9). -/
def State.restartUnit (s : State) (c : Context) : State :=
  let g := c.glade
  let k := s.code g
  match c.kind with
  | 0 => match (s.gl g).reads.find? fun u => u.id == c.unit with
    | some u =>
      let silent := (s.asked g).filter fun i => !u.answers.any fun a => a.slot == i % s.groveN g
      let s := s.updGl g fun e => { e with
        reads := e.reads.map fun x => if x.id = u.id then { x with answers := [], restarted := true } else x }
      (s.askLine g u.row u.line u.id).each silent fun s i => s.detect g i 9
    | none => s
  | 1 => s.askRow g (k.rowOfParity k.slot c.unit) true
  | 2 => s.askRow g (k.rowOfLeaf k.slot c.unit) false
  | 3 => s.askNext g ((s.nextCode g).rowOfParity (s.nextCode g).slot c.unit)
  | _ => s

/-- Settles an abandoned unit: a clearing read gets an error response, a build ends, a rebuild is scheduled again (R131). -/
def State.abandonUnit (s : State) (c : Context) : State :=
  let g := c.glade
  match c.kind with
  | 0 => match (s.gl g).reads.find? fun u => u.id == c.unit with
    | some u => (s.dropRead g u).clearAnswer g u.txid none 6
    | none => s
  | 1 => (s.updGl g fun e => { e with building := e.building.erase (false, c.unit) }).takeHeld g
  | 3 => (s.updGl g fun e => { e with building := e.building.erase (true, c.unit) }).takeHeld g
  | _ => s

/-- CONTEXT_TIMEOUT: 500 µs after its access was issued the context is released; its unit is restarted once, and a second timeout
abandons it, in TOUT and a Fault record (R131). -/
def execContextTimeout (t : TileId) (ctx : Nat) (s : State) : Host.Outcome State Fault Refusal :=
  .next (s.inMain fun s => match (s.tl t.val).contexts.find? fun c => c.id == ctx && c.parked with
    | none => s
    | some c =>
      if !c.restarted then
        (s.updTl t.val fun x => { x with
          contexts := x.contexts.map fun y => if y.id = ctx then { y with restarted := true } else y }).restartUnit c
      else
        let s := s.updTl t.val fun x => { x with contexts := x.contexts.filter fun y => y.id != ctx }
        let a := R.TIL_CTX t.val
        let s := (s.inc a F.TIL_CTX_TOUT).record
          ((((ev Sev.fault Src.til t.val).field a F.TIL_CTX_TOUT).about c.unit).ofGlade c.glade)
        s.abandonUnit c)

/-! ## Quadrant gangs (R127, R128) -/

/-- The enabled tiles of a quadrant. -/
def State.quadTiles (s : State) (q : Nat) : List Nat := ((List.range 16).map (16 * q + ·)).filter fun t => !s.tileDisabled t

/-- The gang forms with the tiles that have granted; the request ends for every tile of the quadrant. (DEDUCED, assumption 33.) -/
def State.formGang (s : State) (q : Nat) : State :=
  let l := (s.quadTiles q).filter fun t => (s.tl t).gangGranted
  let s := s.each (s.quadTiles q) fun s t => s.updTl t fun x => { x with gangAsked := false, gangGranted := false }
  s.each l fun s t => (s.wr (R.TIL_GANG t) F.TIL_GANG_MODE 2).wr (R.TIL_GANG t) F.TIL_GANG_WIDTH l.length

/-- GANG_REQUEST: Ranger asks the enabled tiles of the quadrant for a gang; one that its tiles still form has worked through its
leaf and is released (R128). (DEDUCED, assumption 33.) -/
def execGangRequest (quad : QuadId) (s : State) : Host.Outcome State Fault Refusal :=
  .next (s.inMain fun s => s.each (s.quadTiles quad.val) fun s t =>
    (s.resetReg (R.TIL_GANG t)).updTl t fun x => { x with gangAsked := true, gangGranted := false })

/-- GANG_GRANT: the tile has finished its array unit and grants; the gang forms when every tile that was asked has granted
(R128). -/
def execGangGrant (t : TileId) (s : State) : Host.Outcome State Fault Refusal :=
  .next (s.inMain fun s =>
    if !(s.tl t.val).gangAsked then s
    else
      let s := s.updTl t.val fun x => { x with gangGranted := true }
      if (s.quadTiles (t.val / 16)).all fun i => !(s.tl i).gangAsked || (s.tl i).gangGranted then s.formGang (t.val / 16) else s)

/-- GANG_GRANT_TIMEOUT: the gang forms without the tiles that have not granted (R128). -/
def execGangGrantTimeout (quad : QuadId) (s : State) : Host.Outcome State Fault Refusal :=
  .next (s.inMain fun s =>
    if (s.quadTiles quad.val).any fun t => (s.tl t).gangAsked then s.formGang quad.val else s)

end Sys2Proof.Machine
end

