-- ==== Sys2Proof/Machine/Link.lean ====
section
/-! DEFINITION. The link as its rows share it: masks and widths (R242, R259, R260), what a link sends (R246), its retry buffer
(R253 to R256), training (R265), doze and wake (R261 to R264), trims (R267), silence (R257, R258), credits (R275), and the
lane's lock (R243 to R245). -/
namespace Sys2Proof.Machine

/-! ## Masks and records -/

/-- The lanes of a mask. -/
def lanesOfMask (m : Nat) : List Nat := (List.range 8).filter (bitAt m)

/-- The mask of a list of lanes. -/
def maskOfLanes (l : List Nat) : Nat := maskOf ((List.range 8).map l.contains)

/-- The population count of a mask: the width. -/
def widthOf (m : Nat) : Nat := (lanesOfMask m).length

/-- Whether every lane of a mask lies in another. -/
def within (a b : Nat) : Bool := (lanesOfMask a).all (bitAt b)

/-- The intersection of two masks. -/
def meet (a b : Nat) : Nat := maskOfLanes ((lanesOfMask a).filter (bitAt b))

/-- STATE of link p. -/
def State.lnkState (s : State) (p : Nat) : Nat := s.rd (R.LNK_STATUS p) F.LNK_STATUS_STATE

/-- Sets STATE of link p. -/
def State.setLnk (s : State) (p n : Nat) : State := s.wr (R.LNK_STATUS p) F.LNK_STATUS_STATE n

/-- RXMASK. -/
def State.rxMask (s : State) (p : Nat) : Nat := s.rd (R.LNK_WIDTH p) F.LNK_WIDTH_RXMASK
/-- TXMASK. -/
def State.txMask (s : State) (p : Nat) : Nat := s.rd (R.LNK_WIDTH p) F.LNK_WIDTH_TXMASK
/-- LOCKED. -/
def State.lockedMask (s : State) (p : Nat) : Nat := s.rd (R.LNK_WIDTH p) F.LNK_WIDTH_LOCKED
/-- LANEMASK. -/
def State.laneMask (s : State) (p : Nat) : Nat := s.rd (R.LNK_CTL p) F.LNK_CTL_LANEMASK
/-- The partner's PNID (R271). -/
def State.peer (s : State) (p : Nat) : Nat := s.rd (R.LNK_PEER p) F.LNK_PEER_PNID

/-- A record of link p about its partner (R389). -/
def State.lnkRecord (s : State) (sev p a : Nat) (f : Fld) : State :=
  s.record (((ev sev Src.lnk p).field a f).about (s.peer p))

/-! ## What a link sends (R246) -/

/-- Sends a control block. -/
def State.control (s : State) (p op : Nat) (args : List Nat := []) : State := s.send (.control p op args)

/-- What stands in the ACKSEQ of a header or an ACK: the last sequence number accepted, 0xFFFF before the first (R247). -/
def LinkState.ackSeq (l : LinkState) : Nat := if l.accepted then (l.rxExpected + 0xFFFF) % 2 ^ 16 else 0xFFFF

/-- Sends an ACK; the acceptances are reported (R254). -/
def State.sendAck (s : State) (p : Nat) : State :=
  (s.control p 0x02 [(s.lk p).ackSeq]).updLk p fun l => { l with unreported := 0 }

/-- Sends NAK of E (R250, R255). -/
def State.sendNak (s : State) (p : Nat) : State :=
  ((s.control p 0x03 [(s.lk p).rxExpected]).updLk p fun l => { l with nakOut := true }).inc
    (R.LNK_RETRY p) F.LNK_RETRY_NAKS

/-- The payload blocks of a frame (R249). -/
def Frame.len (f : Frame) : Nat := (f.payload.length + 31) / 32

/-- The blocks of a frame: header, payload and trailer. -/
def Frame.blocks (f : Frame) : Nat := f.len + 2

/-- The bytes that a retry buffer holds. -/
def LinkState.held (l : LinkState) : Nat := (l.buffer.map fun b => 32 * b.frame.blocks).sum

/-- Whether the retry buffer has room for a frame (R253). -/
def State.bufferRoom (s : State) (p : Nat) (f : Frame) : Bool :=
  let l := s.lk p
  l.buffer.length < 4096 && l.held + 32 * f.blocks ≤ 524288

/-- Whether the transmitter may send data frames: active, not in a doze handshake, and with no width switch before it (R259,
R261). -/
def State.mayTransmit (s : State) (p : Nat) : Bool :=
  s.lnkState p == 2 && (s.lk p).doze == 0 && (s.lk p).reqMask.isNone

/-- Sends the frames of the retry buffer that have not been sent; a header reports the acceptances (R254). -/
def State.flush (s : State) (p : Nat) : State :=
  if !s.mayTransmit p then s
  else
    let new := (s.lk p).buffer.filter fun b => !b.out
    if new.isEmpty then s
    else
      let s := s.each new fun s b => s.send (.data p b.seq)
      s.updLk p fun l => { l with
        buffer := l.buffer.map fun b => { b with out := true }, unreported := 0, lastData := s.now }

/-- The frames of the retry buffer are discarded and counted in DROPPED (R256). -/
def State.dropBuffer (s : State) (p : Nat) : State :=
  (s.add (R.LNK_RETRY p) F.LNK_RETRY_DROPPED (s.lk p).buffer.length).updLk p fun l => { l with buffer := [] }

/-! ## Training (R265) -/

/-- TRAIN goes out, with the lanes locked, this side's time in CLK_CORE cycles and the last timestamp received (R246).
(DEDUCED, assumption 37.) -/
def State.sendTrain (s : State) (p now : Nat) : State :=
  s.control p 0x09 [s.pnid, p, 1, s.lockedMask p, now, (s.lk p).peerStamp]

/-- A link's transmitters and its retry, doze and trim machinery start afresh, and every lane hunts; the waits of EN, the
period counter, the count of consecutive failures and the trims' time stay. -/
def LinkState.fresh (l : LinkState) : LinkState := { LinkState.reset with
  waitSet := l.waitSet, cntTx := l.cntTx, fails := l.fails, trimmedAt := l.trimmedAt, widenedAt := l.widenedAt,
  pulseTx := l.pulseTx, lastData := l.lastData }

/-- Training starts (R265): what the retry buffer holds is discarded (R256), PHYRST is asserted for 1 µs, SEQ, ACKSEQ and the
credits restart (R253, R275), NODOZE clears (R264). While RTR_SELF SET = 0 training waits (R274). -/
def State.train (s : State) (p : Nat) : State :=
  if !s.on (R.LNK_CTL p) F.LNK_CTL_EN then s
  else if !s.on R.RTR_SELF F.RTR_SELF_SET then s.updLk p fun l => { l with waitSet := true }
  else
    let s := (s.dropBuffer p).updLk p LinkState.fresh
    let s := s.updLk p fun l => { l with waitSet := false }
    let s := ((s.send (.lane p "PHYRST" [1])).send (.lane p "PHYRST" [0])).setLnk p 1
    let s := { s with ao := { s.ao with phyReset := s.ao.phyReset &&& ~~~(BitVec.ofNat 32 (2 ^ p)) } }
    let s := s.setReg (R.LNK_WIDTH p) (putAll (s.reg (R.LNK_WIDTH p)) [(F.LNK_WIDTH_RXMASK, 0), (F.LNK_WIDTH_TXMASK, 0),
      (F.LNK_WIDTH_LOCKED, 0)])
    (s.wr (R.LNK_STATUS p) F.LNK_STATUS_NODOZE 0).wr (R.LNK_TRIM p) F.LNK_TRIM_BUSY 0

/-- A training attempt fails: FAILS, a Warn record and STATE 5; the next attempt starts after 20 ms × 2^(f − 1), at most 1 s. -/
def State.trainFailed (s : State) (p : Nat) : State :=
  let f := (s.lk p).fails + 1
  let s := ((s.updLk p fun l => { l with fails := f }).inc (R.LNK_STATUS p) F.LNK_STATUS_FAILS).setLnk p 5
  (s.lnkRecord Sev.warn p (R.LNK_STATUS p) F.LNK_STATUS_FAILS).send (.lane p "RETRY" [min 1000 (20 * 2 ^ (f - 1))])

/-- The link becomes active: pulses start and the router is offered the link (R265). -/
def State.trained (s : State) (p : Nat) : State :=
  let s := s.setLnk p 2
  let s := (s.wr (R.LNK_PEER p) F.LNK_PEER_VALID 1).wr (R.LNK_TRIM p) F.LNK_TRIM_LASTLOAD 0
  let s := s.updLk p fun l => { l with
    fails := 0, trimStep := 0, trimQueue := [], trimmedAt := some s.now, atFull := false, lastData := s.now }
  s.flush p

/-! ## Silence (R257, R258) -/

/-- The node behind a link or a route is suspected: a detection in this member's grove, a suspicion notice to the grove of every
other LMN that the PNID holds (R162). -/
def State.suspectNode (s : State) (pnid cause : Nat) : State :=
  s.each s.activeGlades fun s g =>
    let l := (List.range (s.members g)).filter fun i =>
      (s.memberEntry g i).valid && (s.memberEntry g i).pnid == pnid && i != s.lmn g
    s.each l fun s i =>
      let n := s.groveN g
      if i / n = s.lmn g / n then s.detect g i cause
      else
        let grove := (List.range n).map (i / n * n + ·)
        s.toMembers g (grove.filter (· != i)) "SUSPICION" [g, i, cause]

/-- Link silence is declared: SILENT, a Fault record, and Ranger learns of it (R258, R162 source 1). -/
def State.silence (s : State) (p : Nat) : State :=
  if s.on (R.LNK_STATUS p) F.LNK_STATUS_SILENT then s
  else
    let s := (s.wr (R.LNK_STATUS p) F.LNK_STATUS_SILENT 1).lnkRecord Sev.fault p (R.LNK_STATUS p) F.LNK_STATUS_SILENT
    if s.on (R.LNK_PEER p) F.LNK_PEER_VALID then s.suspectNode (s.peer p) 1 else s

/-! ## Replay (R255) -/

/-- Replays the buffered frames from E on. A frame that is replayed for the 8th time makes the link retrain. -/
def State.replayFrames (s : State) (p e : Nat) : State :=
  let late := fun b : Buffered => b.out && (b.seq + 2 ^ 16 - e) % 2 ^ 16 < 2 ^ 15
  let again := (s.lk p).buffer.filter late
  if again.isEmpty then s.flush p
  else
    let s := s.each again fun s b => s.send (.data p b.seq)
    let s := s.updLk p fun l => { l with
      buffer := l.buffer.map fun b => if late b then { b with replays := b.replays + 1 } else b,
      replayFrom := none, unreported := 0 }
    let most := ((s.lk p).buffer.map (·.replays)).foldl max 0
    let a := R.LNK_RETRY p
    let s := (s.add a F.LNK_RETRY_REPLAYS again.length).raise a F.LNK_RETRY_MAXREP (min most 255)
    if 8 ≤ most then s.train p else s.flush p

/-- A replay that a NAK or the timeout asks for: 2 IDLE blocks go first, and until a width switch only control frames go
(R255, R259). -/
def State.replayLink (s : State) (p e : Nat) : State :=
  if s.mayTransmit p then (((s.control p 0x00).control p 0x00)).replayFrames p e
  else s.updLk p fun l => { l with replayFrom := some e }

/-- An ACKSEQ frees the frames that it covers (R253). -/
def State.ackFrames (s : State) (p ack : Nat) : State :=
  s.updLk p fun l => { l with
    buffer := l.buffer.filter fun b => 2 ^ 15 ≤ (ack + 2 ^ 16 - b.seq) % 2 ^ 16 || !b.out }

/-! ## Width renegotiation (R259, R260) -/

/-- Asks the partner for a mask (R259): WIDTH_REQ with the attempt's number. -/
def State.askWidth (s : State) (p mask tries : Nat) : State :=
  (s.control p 0x05 [mask, tries]).updLk p fun l => { l with switching := true, askedMask := mask, widthTries := tries }

/-- A full relock (R245): STATE 4, and every receive lane hunts from the start. -/
def State.fullRelock (s : State) (p : Nat) : State :=
  let s := s.each (List.range 8) fun s i => s.updLane p i fun x => { x with state := 0, candidates := [], badMarkers := 0, history := [] }
  let s := s.updLk p fun l => { l with
    switching := false, ignoring := true, doze := 0, wakeAnswered := false, trimStep := 0, trimQueue := [] }
  ((s.wr (R.LNK_WIDTH p) F.LNK_WIDTH_LOCKED 0).wr (R.LNK_TRIM p) F.LNK_TRIM_BUSY 0).setLnk p 4

/-- A lane in use is lost, by its lock or by its skew (R259): NAK of E, and WIDTH_REQ with the lanes that are locked and enabled;
with none, the direction starts a full relock. Frames are ignored until the switch. -/
def State.renegotiate (s : State) (p keep : Nat) : State :=
  let m := meet (meet (s.lockedMask p) (s.laneMask p)) keep
  let m := if (s.lk p).trimStep = 1 then maskOfLanes ((lanesOfMask m).filter fun i => (s.lk p).trimQueue.head? != some i) else m
  let s := s.sendNak p
  if m = 0 then s.fullRelock p else (s.askWidth p m 1).updLk p fun l => { l with ignoring := true }

/-- A width change of either direction: CHANGES and a Note record (R260). -/
def State.widthChanged (s : State) (p : Nat) : State :=
  (s.inc (R.LNK_WIDTH p) F.LNK_WIDTH_CHANGES).lnkRecord Sev.note p (R.LNK_WIDTH p) F.LNK_WIDTH_CHANGES

/-! ## Doze and wake (R261 to R264) -/

/-- Whether this side's conditions for doze hold, but for the time that it has sent no data (R261). -/
def State.dozeReady (s : State) (p : Nat) : Bool :=
  s.on (R.LNK_CTL p) F.LNK_CTL_DOZEEN && !s.on (R.LNK_STATUS p) F.LNK_STATUS_NODOZE && s.lnkState p == 2 &&
  (s.lk p).buffer.isEmpty && !(s.lk p).switching && (s.lk p).reqMask.isNone && (s.lk p).trimStep == 0 &&
  !s.router.waiting.any fun w => w.host.isNone

/-- The link wakes (R263): its transmitters leave idle, the first period has WAKE = 1, and every lane in use waits for the
partner's first marker. -/
def State.wakeLink (s : State) (p : Nat) : State :=
  let s := s.send (.lane p "WAKE" [(s.lk p).cntTx])
  let s := s.each (lanesOfMask (s.rxMask p)) fun s i => s.updLane p i fun x => { x with state := 2, badMarkers := 0, candidates := [] }
  let s := s.wr (R.LNK_WIDTH p) F.LNK_WIDTH_LOCKED 0
  s.updLk p fun l => { l with doze := 5, wakeFirst := true, wakeAnswered := false }

/-- The link is active again after a wake or a full relock: the frames that wait for it are sent. After a relock NAK of E
brings back what was lost (R259). -/
def State.linkUp (s : State) (p : Nat) (relocked : Bool) : State :=
  let s := (s.setLnk p 2).updLk p fun l => { l with doze := 0, ignoring := false, lastData := s.now }
  let s := if relocked then s.sendNak p else s
  match (s.lk p).replayFrom with
  | some e => s.replayLink p e
  | none => s.flush p

/-- DOZE_CANCEL goes out, and the side stays active (R262). -/
def State.cancelDoze (s : State) (p : Nat) : State :=
  ((s.control p 0x08).updLk p fun l => { l with doze := 0, lastData := s.now }).flush p

/-! ## Taking a frame from the router (R249, R253, R262) -/

/-- The link takes a frame of the router into its retry buffer with the next SEQ and sends it as soon as it may; traffic ends a
doze handshake. A frame of 0 or more than 4,096 payload bytes is refused (R249). -/
def State.linkSend (s : State) (p : Nat) (f : Frame) (stomped : Bool) : State :=
  if f.payload.isEmpty || 4096 < f.payload.length then
    (s.inc (R.LNK_ERR p) F.LNK_ERR_TXREF).record
      (((ev Sev.fault Src.lnk p).field (R.LNK_ERR p) F.LNK_ERR_TXREF).about f.src)
  else
    let q := (s.lk p).txSeq
    let s := s.updLk p fun l => { l with
      txSeq := (q + 1) % 2 ^ 16, buffer := l.buffer ++ [⟨q, false, 0, stomped, f⟩] }
    let s := s.send (.frame p f.vc f)
    if (s.lk p).doze = 1 || (s.lk p).doze = 2 then s.cancelDoze p else s.flush p

/-! ## Credits (R275)

A frame takes its blocks from the reserved pool of its VC first and from the shared pool after that (DESIGN CHOICE, assumption 30). -/

/-- The blocks of a VC's reserved pool. (DESIGN CHOICE, assumption 30.) -/
def reservedPool : Nat := 256
/-- The blocks of the shared pool of VC2 to VC7. -/
def sharedPool : Nat := 6144

/-- A count by VC. -/
def vcCount (m : Sparse Nat) (vc : Nat) : Nat := sget (fun _ => 0) m vc

/-- Sets a count by VC. -/
def vcSet (m : Sparse Nat) (vc n : Nat) : Sparse Nat := sset (fun _ => 0) m vc n

/-- The free credits of a link's output on a VC; VC0 and VC1 have only their reserved blocks. -/
def State.credits (s : State) (p vc : Nat) : Nat :=
  let l := s.lk p
  (reservedPool - vcCount l.usedReserved vc) + (if vc < 2 then 0 else sharedPool - l.usedShared)

/-- Takes credits for a frame of n blocks. (DESIGN CHOICE, assumption 30.) -/
def State.takeCredits (s : State) (p vc n : Nat) : State :=
  s.updLk p fun l =>
    let r := min n (reservedPool - vcCount l.usedReserved vc)
    { l with usedReserved := vcSet l.usedReserved vc (vcCount l.usedReserved vc + r),
             usedShared := min sharedPool (l.usedShared + (n - r)) }

/-- Returns every credit that is owed, in one CREDIT block. -/
def State.sendCredits (s : State) (p : Nat) : State :=
  let l := s.lk p
  (s.control p 0x04 (((List.range 8).map (vcCount l.oweReserved)) ++ [l.oweShared])).updLk p fun l =>
    { l with oweReserved := [], oweShared := 0 }

/-- Whether any credit is owed. -/
def LinkState.owes (l : LinkState) : Bool := !l.oweReserved.isEmpty || l.oweShared != 0

/-- A frame of n blocks has left the input buffer of a link: its credits are owed, and go back at once when a count reaches
16. -/
def State.oweCredits (s : State) (p vc n : Nat) : State :=
  let s := s.updLk p fun l =>
    let r := if vc < 2 then n else min n (reservedPool - vcCount l.oweReserved vc)
    { l with oweReserved := vcSet l.oweReserved vc (vcCount l.oweReserved vc + r), oweShared := l.oweShared + (n - r) }
  let l := s.lk p
  if 16 ≤ l.oweShared || (List.range 8).any fun v => 16 ≤ vcCount l.oweReserved v then s.sendCredits p else s

/-! ## Trims (R265, R267, R420) -/

/-- Raises TRIMREQ of a lane. -/
def State.trimLane (s : State) (p i : Nat) : State :=
  (s.send (.lane p "TRIMREQ" [i])).updLk p fun l => { l with trimStep := 2 }

/-- The re-trim ends: BUSY, and for one of all lanes DUE, AGE and LASTLOAD (R266, R267). (DEDUCED, assumption 38.) -/
def State.trimEnd (s : State) (p : Nat) : State :=
  let a := R.LNK_TRIM p
  let full := (s.lk p).trimFull
  let s := s.wr a F.LNK_TRIM_BUSY 0
  let s := if full then (s.wr a F.LNK_TRIM_DUE 0).wr a F.LNK_TRIM_LASTLOAD (s.lk p).trimLoad else s
  s.updLk p fun l => { l with
    trimStep := 0, trimQueue := [], trimmedAt := if full then some s.now else l.trimmedAt }

/-- The next lane of a re-trim that is in use is excluded by width renegotiation; a direction at width 1 is not trimmed
(R267). -/
def State.trimNext (s : State) (p : Nat) : State :=
  let s := s.updLk p fun l => { l with trimQueue := l.trimQueue.dropWhile fun i => !bitAt (s.rxMask p) i }
  match (s.lk p).trimQueue with
  | i :: _ =>
    if widthOf (s.rxMask p) ≤ 1 then s.trimEnd p
    else
      (s.askWidth p (maskOfLanes ((lanesOfMask (s.rxMask p)).filter (· != i))) 1).updLk p fun l => { l with trimStep := 1 }
  | [] => s.trimEnd p

/-- A re-trim starts over a list of lanes: of all lanes in use (`full`), or of a single one (R267, R420). -/
def State.startTrim (s : State) (p : Nat) (l : List Nat) (full : Bool) : State :=
  let a := R.LNK_TRIM p
  if s.lnkState p ≠ 2 || s.on a F.LNK_TRIM_BUSY || widthOf (s.rxMask p) ≤ 1 then s
  else
    let s := (s.wr a F.LNK_TRIM_BUSY 1).updLk p fun x => { x with
      trimQueue := l, trimFull := full, trimLoad := s.rd a F.LNK_TRIM_LOAD }
    s.trimNext p

/-- The lanes in use are trimmed in increasing order (R267). (DEDUCED, assumption 38.) -/
def State.retrim (s : State) (p : Nat) : State := s.startTrim p (lanesOfMask (s.rxMask p)) true

/-! ## Lanes (R243 to R245) -/

/-- LOCKED of lane i. -/
def State.setLocked (s : State) (p i : Nat) (b : Bool) : State :=
  if b then s.setMask (R.LNK_WIDTH p) F.LNK_WIDTH_LOCKED i else s.clearMask (R.LNK_WIDTH p) F.LNK_WIDTH_LOCKED i

/-- A locked lane returns to hunt (R244); a lane in use of an active link is renegotiated (R259). In a doze handshake a fall of
the partner's signal is no loss of lock (R261). -/
def State.laneUnlocked (s : State) (p i : Nat) : State :=
  if ((s.lk p).lane i).state != 1 then s
  else if 1 ≤ (s.lk p).doze && (s.lk p).doze ≤ 4 then s
  else
    let s := (s.updLane p i fun x => { x with state := 0, candidates := [], badMarkers := 0, history := [] }).setLocked p i false
    if bitAt (s.rxMask p) i && s.lnkState p == 2 then s.renegotiate p (s.rxMask p) else s

/-- The width switch is complete at the receiver when the markers of the lanes that are locked show it: as many lanes of the
mask asked for carry a WIDTH as that WIDTH says, and they are not the lanes in use before (R259). (DEDUCED, assumption 36.) -/
def State.switchedMask (s : State) (p w : Nat) : Option Nat :=
  let l := (lanesOfMask (s.lockedMask p)).filter fun i => ((s.lk p).lane i).width == w
  let m := maskOfLanes l
  if (s.lk p).switching && w != 0 && l.length == w && within m (s.lk p).askedMask && m != s.rxMask p then some m else none

/-- The receiver uses the new mask (R259, R260): frames are taken again, and a re-trim goes on with its next step (R267). A lane
that returns from a trim does not count as the one widening in 100 ms. (DEDUCED, assumption 36.) -/
def State.switchDone (s : State) (p m : Nat) : State :=
  let wider := widthOf (s.rxMask p) < widthOf m
  let step := (s.lk p).trimStep
  let s := (s.wr (R.LNK_WIDTH p) F.LNK_WIDTH_RXMASK m).widthChanged p
  let s := s.updLk p fun l => { l with
    switching := false, ignoring := false, resync := false,
    widenedAt := if wider && step != 4 then some s.now else l.widenedAt }
  match step, (s.lk p).trimQueue with
  | 1, i :: _ => s.trimLane p i
  | 4, _ :: r => (s.updLk p fun l => { l with trimQueue := r }).trimNext p
  | _, _ => s

/-- A lane has locked: LOCKED, and what it completes: in training TRAIN tells the partner (R265); a wake or a full relock ends
when every lane in use is locked (R245, R263). -/
def State.laneLocked (s : State) (p i : Nat) : State :=
  let s := s.setLocked p i true
  let all := within (s.rxMask p) (s.lockedMask p)
  if s.lnkState p = 1 then s.sendTrain p (2000 * s.now)
  else if (s.lk p).doze = 5 && all then s.linkUp p false
  else if s.lnkState p = 4 && all && s.rxMask p != 0 then s.linkUp p true
  else s

/-- The bits of a lane period: a marker and 256 codewords (R239). -/
def lanePeriod : Nat := 1392768

/-- Whether a window is a match of the hunt (R243): SYNC matches exactly and CRC8 is correct. -/
def Marker.hunts (m : Marker) : Bool := m.wrongSync == 0 && m.crcOk

/-- Whether a marker confirms a candidate (R243): one lane period later, with the same LANE and WIDTH, CNT + 1 and a correct
CRC8, followed by 4 codewords that decode. (DEDUCED, assumption 34.) -/
def Candidate.confirms (c : Candidate) (m : Marker) : Bool :=
  m.hunts && m.decodeOk && m.lane == c.lane && m.width == c.width && m.cnt == (c.cnt + 1) % 2 ^ 16

/-- The candidates whose confirmation point has not passed; one whose point has passed without a marker is discarded. -/
def LaneState.tracked (x : LaneState) (m : Marker) : List Candidate :=
  x.candidates.filter fun c => decide (m.pos ≤ c.pos + lanePeriod)

/-- The candidate whose confirmation point a marker lies at. -/
def LaneState.atPoint (x : LaneState) (m : Marker) : Option Candidate :=
  (x.tracked m).find? fun c => m.pos == c.pos + lanePeriod

/-- A lane that locks on a marker (R243, R263). -/
def LaneState.lockOn (x : LaneState) (m : Marker) : LaneState :=
  { x with state := 1, pos := m.pos, lane := m.lane, width := m.width, cnt := m.cnt, candidates := [], badMarkers := 0, history := [] }

/-- Whether a marker is the second confirmation of a candidate: the lane locks (R243). -/
def LaneState.locks (x : LaneState) (m : Marker) : Bool :=
  match x.atPoint m with
  | some c => c.confirms m && c.hits == 1
  | none => false

/-- A window in the hunt (R243): a candidate is confirmed or discarded, and a match becomes a candidate while fewer than 8 are
tracked. -/
def LaneState.hunt (x : LaneState) (m : Marker) : LaneState :=
  let live := x.tracked m
  let add := fun l : List Candidate =>
    if m.hunts && l.length < 8 then l ++ [⟨m.pos, m.lane, m.width, m.cnt, 0⟩] else l
  match x.atPoint m with
  | some c =>
    if c.confirms m then { x with candidates := live.erase c ++ [{ c with pos := m.pos, cnt := m.cnt, hits := c.hits + 1 }] }
    else { x with candidates := add (live.erase c) }
  | none => { x with candidates := add live }

/-- Whether a marker lies at the expected position of a locked lane; elsewhere the receiver does not search (R243). -/
def LaneState.expects (x : LaneState) (m : Marker) : Bool := m.pos % lanePeriod == x.pos % lanePeriod

/-- A marker arrives on a lane (R243 to R245, R263). -/
def State.laneMarker (s : State) (p i : Nat) (m : Marker) : State :=
  let x := (s.lk p).lane i
  match x.state with
  | 1 =>
    let cnt := (x.cnt + 1) % 2 ^ 16
    if !x.expects m then s
    else if m.wrongSync ≤ 8 && m.crcOk && m.cnt == cnt then
      let s := s.updLane p i fun x => { x with badMarkers := 0, pos := m.pos, cnt := cnt, lane := m.lane, width := m.width }
      if 256 < m.skewNs && bitAt (s.rxMask p) i && s.lnkState p == 2 && (s.lk p).doze == 0 then
        let s := s.lnkRecord Sev.warn p (R.LNK_WIDTH p) F.LNK_WIDTH_RXMASK
        if (s.lk p).switching then s else s.renegotiate p (maskOfLanes ((lanesOfMask (s.rxMask p)).filter (· != i)))
      else match s.switchedMask p m.width with
        | some w => s.switchDone p w
        | none => s
    else
      let s := s.updLane p i fun x => { x with badMarkers := x.badMarkers + 1, pos := m.pos, cnt := cnt }
      if 4 ≤ x.badMarkers + 1 then s.laneUnlocked p i else s
  | 2 =>
    let s := s.updLk p fun l => { l with wakeAnswered := true }
    if m.wake && m.crcOk && m.decodeOk && m.lane == x.lane && m.width == x.width && m.cnt == (x.cnt + 1) % 2 ^ 16 then
      (s.updLane p i fun x => x.lockOn m).laneLocked p i
    else s
  | _ => if x.locks m then (s.updLane p i fun x => x.lockOn m).laneLocked p i else s.updLane p i fun x => x.hunt m

end Sys2Proof.Machine
end

