-- ==== Sys2Proof/Machine/Router.lean ====
section
/-! DEFINITION. The router as its rows share it: coordinates and productive ports (R272, R273, R276), the escape pair (R277),
detours (R278), TTL (R279), throttling (R280), the switched dimension (R281), reassembly (R285), the checks of the destination
(R284, R292, R332), delivery toward the host (R426), and the frames that wait. -/
namespace Sys2Proof.Machine

/-! ## Kinds (R284) -/

/-- Whether a kind is known at a destination. -/
def knownKind (k : Nat) : Bool := (1 ≤ k && k ≤ 9) || (0x10 ≤ k && k ≤ 0x57) || k == 0x58

/-- Whether a kind carries weight-publish records or loads. -/
def weightKind (k : Nat) : Bool := 0x50 ≤ k && k ≤ 0x57

/-- Whether a kind asks for an answer, so that a refusal is answered ERR. -/
def requestKind (k : Nat) : Bool := k == 1 || k == 4

/-- The adaptive VC of a frame that leaves the escape pair after a detour: that of its kind (R152, R284). -/
def vcOfKind (k : Nat) : Nat :=
  if k = 6 || k = 7 || k = 8 || (0x40 ≤ k && k ≤ 0x4F) then 2
  else if k = 9 then 6
  else if 0x50 ≤ k then 7
  else 4

/-! ## Directions (R272, R273, R276, R281) -/

/-- A direction of a dimension: true is increasing. -/
abbrev Dir := Nat × Bool

/-- Whether D3 is switched (R281). -/
def State.switched (s : State) (d : Nat) : Bool := d == 3 && s.on R.RTR_SHAPE F.RTR_SHAPE_SW3

/-- The ports of a direction (R272); of a switched D3, ports 24 to 31. -/
def State.portsOf (s : State) (x : Dir) : List Nat :=
  if s.switched x.1 then (List.range 8).map (24 + ·)
  else (List.range 4).map (8 * x.1 + (if x.2 then 0 else 4) + ·)

/-- The up ports of a direction. -/
def State.upPorts (s : State) (x : Dir) : List Nat := (s.portsOf x).filter s.portUp

/-- The steps to a destination in the increasing direction of a dimension. -/
def State.stepsUp (s : State) (dst d : Nat) : Nat :=
  let e := s.extent d
  (s.coord dst d % e + e - s.coord s.pnid d % e) % e

/-- Whether a dimension has a difference left. -/
def State.differs (s : State) (dst d : Nat) : Bool := s.stepsUp dst d != 0

/-- The productive directions of a dimension: the shorter one, and both when the distances are equal. -/
def State.productiveIn (s : State) (dst d : Nat) : List Dir :=
  let u := s.stepsUp dst d
  let e := s.extent d
  if u = 0 then []
  else if s.switched d || 2 * u < e then [(d, true)]
  else if e < 2 * u then [(d, false)]
  else [(d, true), (d, false)]

/-- The candidate ports of an adaptive frame: every up port of every productive direction (R276). -/
def State.candidates (s : State) (dst : Nat) : List Nat :=
  ((List.range 4).flatMap (s.productiveIn dst)).flatMap s.upPorts

/-- Whether a PNID names a node (R273). -/
def State.namesNode (s : State) (pnid : Nat) : Bool :=
  pnid < s.extent 0 * s.extent 1 * s.extent 2 * s.extent 3

/-- Whether a link output holds the credit and the room that a frame needs. -/
def State.outputFree (s : State) (p vc : Nat) (f : Frame) : Bool := f.blocks ≤ s.credits p vc && s.bufferRoom p f

/-- The port with the most free credits on the frame's VC, the lowest-numbered on equal counts (R276). -/
def State.bestPort (s : State) (vc : Nat) (l : List Nat) : Option Nat :=
  l.foldl (fun m p => match m with
    | none => some p
    | some q => if s.credits q vc < s.credits p vc || (s.credits q vc == s.credits p vc && p < q) then some p else m) none

/-! ## What becomes of a frame -/

/-- The outcome of routing: a port with the frame as it leaves, a wait with the frame as it waits, or a drop with NOROUTE. -/
inductive Hop where
  | go (p vc : Nat) (f : Frame)
  | wait (f : Frame)
  | drop
  deriving DecidableEq, Repr

/-- A frame with its ROUTE byte set (R283). -/
def Frame.route (f : Frame) (dtr : Nat) (esc dl lw : Bool) : Frame :=
  { f with msg := { f.msg with dtr := dtr, esc := esc, dl := dl, lw := lw } }

/-- Sends a frame to a port that is free, or lets `kept` wait. -/
def State.hopTo (s : State) (p vc : Nat) (f kept : Frame) : Hop :=
  if s.outputFree p vc f then .go p vc { f with vc := vc } else .wait kept

/-- A detour (R278): one hop in the increasing direction of the lowest dimension that has an up port and no difference left; the
frame is adaptive again. Without such a dimension, and with DTR = 3, the frame is dropped. (DEDUCED, assumption 40.) -/
def State.detour (s : State) (f : Frame) : Hop :=
  if 3 ≤ f.msg.dtr then .drop
  else match (List.range 4).find? fun d => !s.differs f.dst d && !(s.upPorts (d, true)).isEmpty with
    | none => .drop
    | some d =>
      let vc := if f.vc < 2 then vcOfKind f.msg.kind else f.vc
      match s.bestPort vc (s.upPorts (d, true)) with
      | some p => s.hopTo p vc (f.route (f.msg.dtr + 1) false false false) f
      | none => .drop

/-- Whether the next hop in a direction crosses the dimension's dateline (R277); a switched D3 has none (R281). -/
def State.crosses (s : State) (x : Dir) : Bool :=
  let c := s.coord s.pnid x.1 % s.extent x.1
  !s.switched x.1 && (if x.2 then c + 1 == s.extent x.1 else c == 0)

/-- A frame on the escape pair (R277, R278): dimension order, the shorter direction, the lowest-numbered up link; the long way
where that direction has no up port; VC1 once the dateline of the dimension has been crossed. (DEDUCED, assumption 40.) -/
def State.escapeHop (s : State) (inPort : Nat) (f : Frame) : Hop :=
  match (List.range 4).find? (s.differs f.dst) with
  | none => .drop
  | some d =>
    -- DL and LW belong to the dimension that the frame has been travelling in
    let same := f.msg.esc && inPort < 32 && inPort / 8 == d
    let lw := same && f.msg.lw
    let dl := same && f.msg.dl
    let short : Dir := ((s.productiveIn f.dst d).head?).getD (d, true)
    let way : Dir := if lw then (d, !short.2) else short
    let take := fun (way : Dir) (lw : Bool) (p : Nat) =>
      let dl := dl || s.crosses way
      s.hopTo p (if dl then 1 else 0) (f.route f.msg.dtr true dl lw) (f.route f.msg.dtr true f.msg.dl f.msg.lw)
    match s.upPorts way with
    | p :: _ => take way lw p
    | [] =>
      if lw then s.detour f
      else match s.upPorts (d, !short.2) with
        | p :: _ => if s.switched d then s.detour f else take (d, !short.2) true p
        | [] => s.detour f

/-- An adaptive frame (R276, R278). -/
def State.adaptiveHop (s : State) (f : Frame) : Hop :=
  let l := s.candidates f.dst
  if l.isEmpty then s.detour f
  else match s.bestPort f.vc (l.filter fun p => s.outputFree p f.vc f) with
    | some p => .go p f.vc f
    | none => .wait f

/-- Whether the destination is a link partner whose every link to this router is silent or down (R278). -/
def State.partnerGone (s : State) (dst : Nat) : Bool :=
  let l := (List.range 32).filter fun p => s.on (R.LNK_PEER p) F.LNK_PEER_VALID && s.peer p == dst
  !l.isEmpty && !l.any s.portUp

/-- Where a frame for another node goes. -/
def State.nextHop (s : State) (inPort : Nat) (f : Frame) : Hop :=
  if !s.namesNode f.dst || s.partnerGone f.dst then .drop
  else if f.msg.esc then s.escapeHop inPort f
  else s.adaptiveHop f

/-! ## Throttling (R280) -/

/-- The blocks queued for the link outputs on VC3 to VC7. -/
def State.queuedBlocks (s : State) : Nat :=
  (s.router.waiting.map fun w => if w.host.isNone && 3 ≤ w.frame.vc then w.frame.blocks else 0).sum

/-- Throttling starts at HI and ends at LO. -/
def State.throttle (s : State) : State :=
  let q := s.queuedBlocks
  let b := if s.router.throttled then !(decide (q ≤ s.rd R.RTR_THROT F.RTR_THROT_LO))
    else decide (s.rd R.RTR_THROT F.RTR_THROT_HI ≤ q)
  { s with router := { s.router with throttled := b } }

/-- A frame waits in the router. -/
def State.waitFrame (s : State) (inPort : Nat) (f : Frame) (stomped : Bool) (host : Option Nat) : State :=
  State.throttle { s with router := { s.router with waiting := s.router.waiting ++ [⟨inPort, f, stomped, host⟩] } }

/-! ## Toward the host (R275, R426) -/

/-- The blocks of a host port's buffer for each VC. -/
def hostPool : Nat := 512

/-- Hands a frame to host port h under its credits, or lets it wait. -/
def State.hostSend (s : State) (h : Nat) (f : Frame) : State :=
  let k := 8 * h + f.vc
  let used := vcCount s.router.hostUsed k
  if used + f.blocks ≤ hostPool then
    let s := { s with router := { s.router with hostUsed := vcSet s.router.hostUsed k (used + f.blocks) } }
    s.send (.frame (32 + h) f.vc f)
  else s.waitFrame (32 + h) f false (some h)

/-! ## The destination's checks (R292, R332, R269) -/

/-- Whether this node takes frames of glade g: a member, a spare, or a sapling of a loaded plan. (DEDUCED, assumption 39.) -/
def State.takesGlade (s : State) (g : Nat) : Bool :=
  s.active g || (s.spareEntries g).any (fun x => s.sparePnid g x == s.pnid) ||
  (match (s.gl g).plan with
   | some p => p.map.any fun w => mapPnid w == s.pnid
   | none => false)

/-- Whether a PNID lies in glade g's map segment, its spare list or the MAP of a loaded plan. (DEDUCED, assumption 39.) -/
def State.knowsSource (s : State) (g pnid : Nat) : Bool :=
  let base := s.rd (R.RTR_MAPCFG g) F.RTR_MAPCFG_BASE
  let n := s.rd (R.RTR_MAPCFG g) F.RTR_MAPCFG_COUNT
  s.nodeMap.any (fun c => c.2.valid && c.2.pnid == pnid && (c.1 + 65536 - base) % 65536 < n) ||
  (s.spareEntries g).any (fun x => s.sparePnid g x == pnid) ||
  (match (s.gl g).plan with
   | some p => p.map.any fun w => mapPnid w == pnid
   | none => false)

/-- Whether an offset lies in `n` units of 4 KiB from unit `b` on. -/
def inUnits (o b n : Nat) : Bool := 4096 * b ≤ o && o < 4096 * (b + n)

/-- Whether the line at an offset lies in a region of glade g: its regions, its next regions while a window is open, its
Seedbank staging rings and its base-image region (R336). -/
def State.lineOfGlade (s : State) (g o : Nat) : Bool :=
  s.active g &&
  ((s.presentRegions g).any (fun r => inUnits o r.2.1 r.2.2) ||
  (s.windowOpen g && (List.range 10).any fun x => inUnits o (s.nextBase g x / 4096) (s.nextSize g x)) ||
  inUnits o (s.rd (R.GLD_SBOUT g) F.GLD_SBOUT_BASE) (s.rd (R.GLD_SBOUT g) F.GLD_SBOUT_SIZE) ||
  inUnits o (s.rd (R.GLD_SBIN g) F.GLD_SBIN_BASE) (s.rd (R.GLD_SBIN g) F.GLD_SBIN_SIZE) ||
  inUnits o (s.rd (R.GRV_WPBASE g) F.GRV_WPBASE_BASE) (s.rd (R.GRV_WPBASE g) F.GRV_WPBASE_SIZE))

/-- Whether a frame that has come needs a seal (R332). -/
def State.needsSeal (s : State) (f : Frame) : Bool :=
  let k := f.msg.kind
  if 0x10 ≤ k && k ≤ 0x57 then true
  else if k = 2 || k = 4 then s.lineOfGlade f.glade.val f.msg.offset || s.on R.FUS_POLICY F.FUS_POLICY_SEALALL
  else if k = 1 || k = 3 || k = 5 || k = 6 || k = 7 then s.on R.FUS_POLICY F.FUS_POLICY_SEALALL
  else if k = 9 then s.on R.FUS_POLICY F.FUS_POLICY_HOSTSEAL
  else false

/-- Whether the slot that the frame's key lies in holds the generation of its phase (R331). -/
def State.holdsKey (s : State) (f : Frame) : Bool :=
  if weightKind f.msg.kind then
    match s.streamSlot (f.msg.offset % 2 ^ 32) with
    | some x => (s.keyPhase x f.kph).isSome
    | none => false
  else (s.keyPhase f.glade.val f.kph).isSome

/-- A refused frame is counted in TAG; a request is answered ERR 4 (R292). -/
def State.refuseFrame (s : State) (f : Frame) : State :=
  let s := s.inc R.RTR_DROP F.RTR_DROP_TAG
  if requestKind f.msg.kind then s.toNode f.src "ERR" [f.glade.val, f.msg.txid, 4] else s

/-- A frame whose tag fails is counted in AUTH of its link, and a Fault record names glade and SRC (R269). (DEDUCED, assumption 41.) -/
def State.authFailed (s : State) (inPort : Nat) (f : Frame) : State :=
  if inPort < 32 then
    let a := R.LNK_FEC inPort
    (s.inc a F.LNK_FEC_AUTH).record ((((ev Sev.fault Src.lnk inPort).field a F.LNK_FEC_AUTH).about f.src).ofGlade f.glade.val)
  else s

/-- The internal port of the quadrant that serves a frame: that of the home tile of its 4 KiB unit (DESIGN CHOICE, assumption 31). -/
def State.servingPort (s : State) (f : Frame) : Nat := 40 + s.homeTile (f.msg.offset / 4096) / 16

/-- A message that has passed the checks leaves by its port: HMSG and a host's answer by the host port, INV by its own row, any
other by the internal port (R276, R426). -/
def State.handOver (s : State) (f : Frame) : State :=
  s.send (.frame (s.servingPort f) f.vc f)

/-- A segment of a longer message joins its slot; the whole message is handed over (R285). -/
def State.reassemble (s : State) (f : Frame) : State :=
  let here := fun r : Reasm => r.src == f.src && r.txid == f.msg.txid
  match s.router.reasm.find? here with
  | none => { s with router := { s.router with
      reasm := s.router.reasm ++ [⟨s.servingPort f, f.src, f.msg.txid, f.msg.segLast, [(f.msg.segIdx, f.payload)]⟩] } }
  | some r =>
    let segs := (r.segs.filter fun x => x.1 != f.msg.segIdx) ++ [(f.msg.segIdx, f.payload)]
    if (List.range (r.segLast + 1)).all fun i => segs.any fun x => x.1 == i then
      let bytes := (List.range (r.segLast + 1)).flatMap fun i => ((segs.find? fun x => x.1 == i).map (·.2)).getD []
      let s := { s with router := { s.router with reasm := s.router.reasm.filter fun x => !here x } }
      s.handOver { f with payload := bytes }
    else { s with router := { s.router with
      reasm := s.router.reasm.map fun x => if here x then { x with segs := segs } else x } }

/-- Whether a frame names a glade of this node and a source of that glade, or a stream that the node holds (R292). -/
def State.frameKnown (s : State) (f : Frame) : Bool :=
  if weightKind f.msg.kind then (s.imgOf (f.msg.offset % 2 ^ 32)).isSome
  else s.takesGlade f.glade.val && s.knowsSource f.glade.val f.src

/-- A frame at its destination: the checks of R284, R292 and R332 in order, then reassembly or delivery. -/
def State.deliver (s : State) (inPort : Nat) (f : Frame) : State :=
  let k := f.msg.kind
  if !knownKind k then s.inc R.RTR_XSTAT F.RTR_XSTAT_BAD
  else if k = 0x58 then (if s.profile = 2 then s.handOver f else s.inc R.RTR_DROP F.RTR_DROP_TAG)
  else if k = 8 then s.handOver f
  else if !s.frameKnown f then s.refuseFrame f
  else if s.needsSeal f && !f.enc then (s.inc R.SEC_ERR F.SEC_ERR_UNSEALED).refuseFrame f
  else if f.enc && !(f.sealOk && s.holdsKey f) then (s.authFailed inPort f).refuseFrame f
  else if f.msg.segLast = 0 then s.handOver f
  else s.reassemble f

/-- Whether a frame is the first segment of a new message that finds no reassembly slot: it waits in its input buffer, under
router credits (R285). -/
def State.slotWaits (s : State) (f : Frame) : Bool :=
  knownKind f.msg.kind && f.msg.kind != 8 && f.msg.kind != 0x58 && f.msg.segLast != 0 && s.frameKnown f &&
  (if f.enc then f.sealOk && s.holdsKey f else !s.needsSeal f) &&
  !(s.router.reasm.any fun r => r.src == f.src && r.txid == f.msg.txid) &&
  decide (64 ≤ (s.router.reasm.filter fun r => r.port == s.servingPort f).length)

/-! ## The frame's way through the router -/

/-- The input buffer of a link port is free of a frame: its credits are owed (R275). -/
def State.leaveInput (s : State) (inPort vc n : Nat) : State := if inPort < 32 then s.oweCredits inPort vc n else s

/-- NOROUTE goes to SRC (R278). -/
def State.dropNoRoute (s : State) (f : Frame) : State :=
  let s := s.inc R.RTR_DROP F.RTR_DROP_NOROUTE
  if f.src = s.pnid then s.send (.frame 40 2 { f with
      vc := 2, dst := f.src, enc := false, msg := { f.msg with kind := 8 }, payload := leBytes 8 f.dst })
  else s.toNode f.src "NOROUTE" [f.dst]

/-- A frame is forwarded onto a link: TTL is decremented and credits are taken (R275, R279). (DESIGN CHOICE, assumption 35.) -/
def State.forward (s : State) (p vc : Nat) (f : Frame) (stomped : Bool) : State :=
  (s.takeCredits p vc f.blocks).linkSend p { f with ttl := f.ttl - 1 } stomped

/-- Whether a frame injected at this node waits for the SEAL epoch (R334). -/
def State.sealWaits (s : State) (inPort : Nat) (f : Frame) : Bool := 32 ≤ inPort && f.enc && !s.sealReady

/-- A frame that is sealed here takes the next seal count (R333). -/
def State.sealFrame (s : State) (inPort : Nat) (f : Frame) : State := if 32 ≤ inPort && f.enc then s.tookSeal else s

/-- Routes a frame (R276 to R279): to this node, onto a link, into the queue of those that wait, or nowhere. A stomped frame
that ends here is not delivered: the upstream link sends it again (R252). (DESIGN CHOICE, assumption 35.) -/
def State.routeFrame (s : State) (inPort : Nat) (f : Frame) (stomped : Bool) : State :=
  if s.sealWaits inPort f then s.waitFrame inPort f stomped none
  else if f.dst = s.pnid && !stomped && s.slotWaits f then s.waitFrame inPort f stomped none
  else if f.dst = s.pnid then
    let s := (s.sealFrame inPort f).leaveInput inPort f.vc f.blocks
    if stomped then s else s.deliver inPort f
  else if inPort < 32 && f.ttl = 0 then
    ((s.inc R.RTR_DROP F.RTR_DROP_TTL).record
      (((ev Sev.fault Src.rtr inPort).field R.RTR_DROP F.RTR_DROP_TTL).about f.dst)).leaveInput inPort f.vc f.blocks
  else
    let f' : Frame := if 32 ≤ inPort then { f with ttl := 255 } else f
    match s.nextHop inPort f' with
    | .go p vc h => ((s.sealFrame inPort f).forward p vc h stomped).leaveInput inPort f.vc f.blocks
    | .wait h => s.waitFrame inPort { h with vc := f.vc } stomped none
    | .drop => (s.dropNoRoute f).leaveInput inPort f.vc f.blocks

/-- Lets every waiting frame try again, in order of arrival. (DESIGN CHOICE, assumption 57.) -/
def State.pump (s : State) : State :=
  let l := s.router.waiting
  let s := { s with router := { s.router with waiting := [] } }
  State.throttle (s.each l fun s w => match w.host with
    | some h => s.hostSend h w.frame
    | none => s.routeFrame w.inPort w.frame w.stomped)

end Sys2Proof.Machine
end

