-- ==== Sys2Proof/Machine/LinkRows.lean ====
section
/-! DEFINITION. The rows of a link: periods and markers, data frames (R250 to R252), the control blocks of R246, retry and pulse
timers, width renegotiation, doze and wake, training, trims and margins (R239 to R271, R419, R420). -/
namespace Sys2Proof.Machine

/-! ## Control blocks (R246, R251) -/

/-- A correct control block ends resync (R251). -/
def State.ctl (s : State) (p : Nat) : State := s.updLk p fun l => { l with resync := false }

/-- Whether a link receives: training, active, in doze or in full relock. -/
def State.lnkHears (s : State) (p : Nat) : Bool := [1, 2, 3, 4].contains (s.lnkState p)

/-- PULSE (R257, R258): the partner's PNID ends silence; another PNID is silence, and the link retrains. A link in full relock
whose lanes in use are locked is active again. -/
def State.pulse (s : State) (p pnid : Nat) : State :=
  let s := s.ctl p
  if !s.on (R.LNK_PEER p) F.LNK_PEER_VALID || !(s.lnkState p == 2 || s.lnkState p == 4) then s
  else if pnid ≠ s.peer p then (s.silence p).train p
  else
    let s := s.wr (R.LNK_STATUS p) F.LNK_STATUS_SILENT 0
    if s.lnkState p = 4 && s.rxMask p != 0 && within (s.rxMask p) (s.lockedMask p) then s.linkUp p true else s

/-- ACK: frames are freed, and what waited for room goes on (R253). -/
def State.ackRow (s : State) (p ack : Nat) : State := ((s.ctl p).ackFrames p ack).pump

/-- NAK of E: every buffered frame from E on is sent again (R255). -/
def State.nakRow (s : State) (p e : Nat) : State :=
  let s := s.ctl p
  if s.lnkState p = 2 then s.replayLink p e else s

/-- CREDIT: the credits return to the pools that they were taken from (R275). -/
def State.creditRow (s : State) (p : Nat) (reserved : List Nat) (shared : Nat) : State :=
  let s := (s.ctl p).updLk p fun l => { l with
    usedReserved := (List.range 8).foldl (fun m v => vcSet m v (vcCount m v - reserved.getD v 0)) l.usedReserved,
    usedShared := l.usedShared - shared }
  s.pump

/-- WIDTH_REQ: the mask within this side's LANEMASK waits for the next period start; an empty one starts a full relock (R259). -/
def State.widthReq (s : State) (p mask : Nat) : State :=
  let s := s.ctl p
  let m := meet mask (s.laneMask p)
  if s.lnkState p ≠ 2 && s.lnkState p ≠ 4 then s
  else if m = 0 then s.fullRelock p
  else s.updLk p fun l => { l with reqMask := some m, peerMask := mask }

/-- The transmitters go to electrical idle (R261). -/
def State.txIdle (s : State) (p : Nat) : State := (s.send (.lane p "TXIDLE" [1])).updLk p fun l => { l with doze := 3 }

/-- DOZE_REQ: crossing requests are each other's DOZE_ACK; otherwise the conditions decide between DOZE_ACK and DOZE_CANCEL
(R261, R262). -/
def State.dozeReq (s : State) (p : Nat) : State :=
  let s := s.ctl p
  let l := s.lk p
  if l.doze = 1 then s.txIdle p
  else if l.doze = 0 && s.dozeReady p && l.lastData + s.rd (R.LNK_DOZE p) F.LNK_DOZE_IDLE ≤ s.now then
    (((s.control p 0x07).control p 0x00).control p 0x00).updLk p fun l => { l with doze := 2 }
  else if l.doze = 0 && s.lnkState p == 2 then s.control p 0x08
  else s

/-- DOZE_ACK (R261, R262). -/
def State.dozeAck (s : State) (p : Nat) : State :=
  let s := s.ctl p
  if (s.lk p).doze = 1 then s.txIdle p else s

/-- DOZE_CANCEL: the side stays active (R262). -/
def State.dozeCancel (s : State) (p : Nat) : State :=
  let s := s.ctl p
  let d := (s.lk p).doze
  if d = 1 || d = 2 || d = 3 then
    let s := if d = 3 then s.send (.lane p "TXIDLE" [0]) else s
    (s.updLk p fun l => { l with doze := 0 }).flush p
  else s

/-- TRAIN (R265): another protocol version makes the training fail, with a Fault record (R11). Otherwise PNID, port, masks and,
once a timestamp has come back, the round trip are taken, and the lanes in use are trimmed in turn. (DEDUCED, assumption 37.) -/
def State.trainRow (s : State) (p pnid port version locked stamp echo now : Nat) : State :=
  let s := s.ctl p
  let a := R.LNK_PEER p
  if s.lnkState p ≠ 1 || (s.lk p).trimStep ≠ 0 then s
  else if version ≠ 1 then s.record (((ev Sev.fault Src.lnk p).field a F.LNK_PEER_VALID).about pnid)
  else
    let rx := meet (s.lockedMask p) (s.laneMask p)
    let tx := meet locked (s.laneMask p)
    let s := ((s.wr a F.LNK_PEER_PNID pnid).wr a F.LNK_PEER_PORT port).updLk p fun l => { l with
      peerStamp := stamp, peerMask := locked }
    let s := s.sendTrain p now
    if echo = 0 || rx = 0 || tx = 0 then s
    else
      let rtt := (now - echo) / 2
      let s := s.wr a F.LNK_PEER_RTT (min rtt 0xFFFF)
      let s := if 2610 < rtt then s.lnkRecord Sev.warn p a F.LNK_PEER_RTT else s
      let s := (s.wr (R.LNK_WIDTH p) F.LNK_WIDTH_RXMASK rx).wr (R.LNK_WIDTH p) F.LNK_WIDTH_TXMASK tx
      let s := s.updLk p fun l => { l with trimQueue := lanesOfMask rx }
      match lanesOfMask rx with
      | i :: _ => s.trimLane p i
      | [] => s

/-- IDLE: nothing but the end of resync (R246, R251). -/
def execIdle (p : LinkId) (s : State) : Host.Outcome State Fault Refusal := .next (s.inMain fun s => s.ctl p.val)

/-- PULSE (R257). -/
def execPulse (p : LinkId) (pnid _port _counter : Nat) (s : State) : Host.Outcome State Fault Refusal :=
  .next (s.inMain fun s => (s.pulse p.val pnid).pump)

/-- ACK (R253). -/
def execAck (p : LinkId) (ackSeq : BitVec 16) (s : State) : Host.Outcome State Fault Refusal :=
  .next (s.inMain fun s => s.ackRow p.val ackSeq.toNat)

/-- NAK (R255). -/
def execNak (p : LinkId) (e : BitVec 16) (s : State) : Host.Outcome State Fault Refusal :=
  .next (s.inMain fun s => (s.nakRow p.val e.toNat).pump)

/-- CREDIT (R275). -/
def execCredit (p : LinkId) (reserved : List Nat) (shared : Nat) (s : State) : Host.Outcome State Fault Refusal :=
  .next (s.inMain fun s => s.creditRow p.val reserved shared)

/-- WIDTH_REQ (R259). -/
def execWidthReq (p : LinkId) (mask : Byte) (_attempt : Nat) (s : State) : Host.Outcome State Fault Refusal :=
  .next (s.inMain fun s => s.widthReq p.val mask.toNat)

/-- DOZE_REQ (R261, R262). -/
def execDozeReq (p : LinkId) (s : State) : Host.Outcome State Fault Refusal := .next (s.inMain fun s => s.dozeReq p.val)

/-- DOZE_ACK (R261). -/
def execDozeAck (p : LinkId) (s : State) : Host.Outcome State Fault Refusal := .next (s.inMain fun s => s.dozeAck p.val)

/-- DOZE_CANCEL (R262). -/
def execDozeCancel (p : LinkId) (s : State) : Host.Outcome State Fault Refusal :=
  .next (s.inMain fun s => (s.dozeCancel p.val).pump)

/-- TRAIN (R265). -/
def execTrain (p : LinkId) (pnid port version : Nat) (locked : Byte) (stamp echo now : Nat) (s : State) :
    Host.Outcome State Fault Refusal :=
  .next (s.inMain fun s => s.trainRow p.val pnid port version locked.toNat stamp echo now)

/-! ## Data frames (R250 to R254) -/

/-- One bit of the CRC-16 of R248. -/
def crc16Bit (c : Nat) : Nat := if 32768 ≤ c then ((2 * c) % 65536) ^^^ 0x1021 else 2 * c

/-- CRC-16 (R248): polynomial 0x1021, initial value 0xFFFF, no reflection. -/
def crc16 (l : List Byte) : Nat :=
  l.foldl (fun c b => (List.range 8).foldl (fun c _ => crc16Bit c) (c ^^^ (256 * b.toNat))) 0xFFFF

/-- The receiver loses the delineation: resync and NAK of E (R250, R251). -/
def State.lostFrame (s : State) (p : Nat) : State := (s.updLk p fun l => { l with resync := true }).sendNak p

/-- A frame takes its sequence number, and an ACK goes out after 32 of them (R254); a duplicate is acknowledged again (R250). -/
def State.acceptSeq (s : State) (p seq : Nat) : State :=
  if (s.lk p).rxExpected ≠ seq then
    if ((s.lk p).rxExpected + 2 ^ 16 - seq) % 2 ^ 16 ≤ 2 ^ 15 then s.sendAck p else s
  else
    let s := s.updLk p fun l => { l with
      rxExpected := (seq + 1) % 2 ^ 16, accepted := true, nakOut := false, unreported := l.unreported + 1 }
    if 32 ≤ (s.lk p).unreported then s.sendAck p else s

/-- Whether a control block is well formed (R250): LEN 0, a known OP, and zero reserved bytes for its operation. -/
def controlOk (b : List Byte) : Bool :=
  let op := leAt b 1 1
  let zero := fun (i n : Nat) => leAt b i n == 0
  zero 2 2 && (match op with
    | 0x00 => zero 4 24
    | 0x01 => zero 7 1 && zero 12 16
    | 0x02 => zero 6 22
    | 0x03 => zero 6 22
    | 0x04 => zero 24 4
    | 0x05 => zero 6 22
    | 0x06 => zero 4 24
    | 0x07 => zero 4 24
    | 0x08 => zero 4 24
    | 0x09 => zero 9 3
    | _ => false)

/-- A control block that comes in the place of a frame's first block. -/
def State.controlBlock (s : State) (p : Nat) (b : List Byte) : State :=
  match leAt b 1 1 with
  | 0x01 => s.pulse p (leAt b 4 2)
  | 0x02 => s.ackRow p (leAt b 4 2)
  | 0x03 => s.nakRow p (leAt b 4 2)
  | 0x04 => s.creditRow p ((List.range 8).map fun v => leAt b (4 + 2 * v) 2) (leAt b 20 4)
  | 0x05 => s.widthReq p (leAt b 4 1)
  | 0x06 => s.dozeReq p
  | 0x07 => s.dozeAck p
  | 0x08 => s.dozeCancel p
  | 0x09 => s.trainRow p (leAt b 4 2) (leAt b 6 1) (leAt b 7 1) (leAt b 8 1) (leAt b 12 8) (leAt b 20 8) (2000 * s.now)
  | _ => s.ctl p

/-- Whether a frame with a correct FCRC is malformed (R250): a reserved bit, a padding byte or a trailer byte that is not zero,
or a TAG without ENC. -/
def frameMalformed (b : List Byte) (len : Nat) : Bool :=
  let vc := leAt b 1 1
  let pad := leAt b 3 1
  let tr := 32 * (len + 1)
  16 ≤ vc || 32 ≤ pad || 16 ≤ leAt b 12 1 || leAt b (tr - pad) pad != 0 || leAt b (tr + 16) 12 != 0 ||
  (vc / 8 % 2 == 0 && leAt b tr 16 != 0) ||
  16 ≤ leAt b 23 1 || 32 ≤ leAt b 28 1 || 16 ≤ leAt b 29 1

/-- A received frame, through the conditions of R250 in order. The frame that is accepted comes to the router by ROUTE_FRAME. -/
def State.dataFrame (s : State) (p : Nat) (f : RxFrame) : State :=
  let b := f.bytes
  let e := R.LNK_ERR p
  let kind := leAt b 0 1
  let len := leAt b 2 1
  if f.firstBad || (kind != 0x1E && kind != 0x2D) then s.lostFrame p
  else if kind = 0x2D then
    if leAt b 28 4 ≠ crc32c (slice b 0 28) then s.inc e F.LNK_ERR_CCRC
    else if !controlOk b then (s.ctl p).inc e F.LNK_ERR_MALF
    else s.controlBlock p b
  else if leAt b 30 2 ≠ crc16 (slice b 0 30) then (s.inc e F.LNK_ERR_HCRC).lostFrame p
  else if len = 0 || 128 < len then (s.inc e F.LNK_ERR_MALF).lostFrame p
  else
    let seq := leAt b 4 2
    let s := s.ackFrames p (leAt b 6 2)
    let tr := 32 * (len + 1)
    let good := crc32c (slice b 0 (tr + 28))
    let fcrc := leAt b (tr + 28) 4
    if fcrc = good ^^^ 0xFFFFFFFF then ((s.inc e F.LNK_ERR_STOMP).acceptSeq p seq)
    else if fcrc ≠ good || f.anyBad then (s.inc e F.LNK_ERR_FCRC).sendNak p
    else if frameMalformed b len then
      ((s.inc e F.LNK_ERR_MALF).acceptSeq p seq).record
        (((ev Sev.fault Src.lnk p).field e F.LNK_ERR_MALF).about (leAt b 10 2))
    else
      let d := ((s.lk p).rxExpected + 2 ^ 16 - seq) % 2 ^ 16
      if d = 0 then s.acceptSeq p seq
      else if d ≤ 2 ^ 15 then s.sendAck p
      else if (s.lk p).nakOut then s
      else s.sendNak p

/-- DATA_FRAME (R250): ignored while the link is not active, while a width switch is awaited (R259) and in resync (R251), except
that a correct control block ends resync. -/
def execDataFrame (p : LinkId) (f : RxFrame) (s : State) : Host.Outcome State Fault Refusal :=
  .next (s.inMain fun s =>
    let p := p.val
    let l := s.lk p
    let ctl := leAt f.bytes 0 1 == 0x2D && !f.firstBad && leAt f.bytes 28 4 == crc32c (slice f.bytes 0 28)
    if !s.lnkHears p then s
    else if l.resync && !ctl then s
    else if !ctl && (s.lnkState p != 2 || l.ignoring) then s
    else (s.dataFrame p f).pump)

/-! ## Periods and lanes (R239 to R245, R259) -/

/-- PERIOD_START: the period counter advances, the markers go out, and a width change that waits takes effect, with the replay
that it held back (R239, R241, R259, R263). -/
def execPeriodStart (p : LinkId) (s : State) : Host.Outcome State Fault Refusal :=
  .next (s.inMain fun s =>
    let p := p.val
    if !s.lnkHears p || 3 ≤ (s.lk p).doze && (s.lk p).doze ≤ 4 then s
    else
      let s := match (s.lk p).reqMask with
        | none => s
        | some m =>
          let s := if m = s.txMask p then s else (s.wr (R.LNK_WIDTH p) F.LNK_WIDTH_TXMASK m).widthChanged p
          s.updLk p fun l => { l with reqMask := none }
      let l := s.lk p
      let s := s.send (.lane p "MARKER" [(l.cntTx + 1) % 2 ^ 16, widthOf (s.txMask p), bit l.wakeFirst])
      let s := s.updLk p fun l => { l with cntTx := (l.cntTx + 1) % 2 ^ 16, wakeFirst := false }
      match l.replayFrom with
      | some e => (s.replayLink p e).pump
      | none => (s.flush p).pump)

/-- LANE_MARKER (R243 to R245). -/
def execLaneMarker (p : LinkId) (i : LaneId) (m : Marker) (s : State) : Host.Outcome State Fault Refusal :=
  .next (s.inMain fun s => if s.lnkHears p.val then (s.laneMarker p.val i.val m).pump else s)

/-- CDR_LOCK_LOSS (R244). -/
def execCdrLockLoss (p : LinkId) (i : LaneId) (s : State) : Host.Outcome State Fault Refusal :=
  .next (s.inMain fun s => s.laneUnlocked p.val i.val)

/-- UNCORRECTABLE_CODEWORD: counted for the link, and for the lane while it is in use; `good` codewords came since the last
one. 8 of the last 16 unlock the lane (R244, R271, R419). -/
def execUncorrectableCodeword (p : LinkId) (i : LaneId) (good : Nat) (s : State) : Host.Outcome State Fault Refusal :=
  .next (s.inMain fun s =>
    let p := p.val
    let i := i.val
    if !s.lnkHears p then s
    else
      let s := s.inc (R.LNK_FEC p) F.LNK_FEC_UNCORR
      let s := if bitAt (s.rxMask p) i then
          (s.inc (R.LNK_LHIST p i) F.LNK_LHIST_UNC).updLane p i fun x => { x with uncs := x.uncs + 1 }
        else s
      let s := s.updLane p i fun x => { x with
        history := ((true :: List.replicate (min good 16) false) ++ x.history).take 16 }
      if 8 ≤ (((s.lk p).lane i).history.filter (·)).length then s.laneUnlocked p i else s)

/-- WIDTH_SWITCH_TIMEOUT: WIDTH_REQ goes again, up to 4 times, and then the link retrains (R259). -/
def execWidthSwitchTimeout (p : LinkId) (s : State) : Host.Outcome State Fault Refusal :=
  .next (s.inMain fun s =>
    let l := s.lk p.val
    if !l.switching then s
    else if l.widthTries ≤ 4 then s.askWidth p.val l.askedMask (l.widthTries + 1)
    else s.train p.val)

/-- LANE_OFFER_BACK: an excluded lane that is locked and enabled is added to the mask, unless the direction has widened in the
last 100 ms (R260). -/
def execLaneOfferBack (p : LinkId) (i : LaneId) (s : State) : Host.Outcome State Fault Refusal :=
  .next (s.inMain fun s =>
    let p := p.val
    let i := i.val
    let l := s.lk p
    let soon : Bool := match l.widenedAt with
      | some t => decide (s.now < t + 100000)
      | none => false
    let ready := s.lnkState p == 2 && l.doze == 0 && !l.switching && l.trimStep == 0 && bitAt (s.lockedMask p) i &&
      bitAt (s.laneMask p) i && !bitAt (s.rxMask p) i && !soon
    if ready then s.askWidth p (maskOfLanes (i :: lanesOfMask (s.rxMask p))) 1 else s)

/-! ## Timers of retry and pulse (R254 to R258) -/

/-- ACK_TIMER (R254). -/
def execAckTimer (p : LinkId) (s : State) : Host.Outcome State Fault Refusal :=
  .next (s.inMain fun s => if 0 < (s.lk p.val).unreported then s.sendAck p.val else s)

/-- REPLAY_TIMEOUT: a replay from the oldest buffered frame, counted in TMO (R255). -/
def execReplayTimeout (p : LinkId) (s : State) : Host.Outcome State Fault Refusal :=
  .next (s.inMain fun s =>
    match (s.lk p.val).buffer with
    | b :: _ =>
      if s.lnkState p.val ≠ 2 then s
      else ((s.inc (R.LNK_RETRY p.val) F.LNK_RETRY_TMO).replayLink p.val b.seq).pump
    | [] => s)

/-- NAK_RESEND (R255). -/
def execNakResend (p : LinkId) (s : State) : Host.Outcome State Fault Refusal :=
  .next (s.inMain fun s => if (s.lk p.val).nakOut && s.lnkState p.val == 2 then s.sendNak p.val else s)

/-- PULSE_TIMER: an active direction sends a PULSE with its PNID, port and counter (R257). -/
def execPulseTimer (p : LinkId) (s : State) : Host.Outcome State Fault Refusal :=
  .next (s.inMain fun s =>
    let p := p.val
    if s.lnkState p = 2 && (s.lk p).doze < 3 then
      let n := (s.lk p).pulseTx
      (s.control p 0x01 [s.pnid, p, n]).updLk p fun l => { l with pulseTx := (n + 1) % 2 ^ 32 }
    else s)

/-- LINK_SILENCE: 32 µs without a valid PULSE; the count is held in doze (R257, R258). -/
def execLinkSilence (p : LinkId) (s : State) : Host.Outcome State Fault Refusal :=
  .next (s.inMain fun s =>
    if [1, 2, 4].contains (s.lnkState p.val) && (s.lk p.val).doze < 3 then (s.silence p.val).pump else s)

/-! ## Doze and wake (R261 to R264) -/

/-- DOZE_IDLE: a side whose conditions hold requests doze; IDLE = 0 never does (R261). -/
def execDozeIdle (p : LinkId) (s : State) : Host.Outcome State Fault Refusal :=
  .next (s.inMain fun s =>
    let p := p.val
    if s.dozeReady p && (s.lk p).doze == 0 && s.on (R.LNK_DOZE p) F.LNK_DOZE_IDLE then
      (s.control p 0x06).updLk p fun l => { l with doze := 1 }
    else s)

/-- DOZE_REQ_TIMEOUT: taken as DOZE_CANCEL (R262). -/
def execDozeReqTimeout (p : LinkId) (s : State) : Host.Outcome State Fault Refusal :=
  .next (s.inMain fun s =>
    if (s.lk p.val).doze = 1 then (s.updLk p.val fun l => { l with doze := 0 }).flush p.val else s)

/-- SIGNAL_LOSS: the partner's signal falls on L_0, and a side whose transmitters are idle is in doze; those of a side that has
answered DOZE_ACK idle after the 2 IDLE blocks that it sent (R261). -/
def execSignalLoss (p : LinkId) (s : State) : Host.Outcome State Fault Refusal :=
  .next (s.inMain fun s =>
    let p := p.val
    if (s.lk p).doze = 2 || (s.lk p).doze = 3 then
      let s := if (s.lk p).doze = 2 then s.send (.lane p "TXIDLE" [1]) else s
      ((s.setLnk p 3).inc (R.LNK_DOZE p) F.LNK_DOZE_DOZES).updLk p fun l => { l with
        doze := 4, anchor := none, slips := [], slipWarned := false }
    else s)

/-- WAKE_BURST: a side with idle transmitters starts a wake burst (R262, R263). -/
def execWakeBurst (p : LinkId) (s : State) : Host.Outcome State Fault Refusal :=
  .next (s.inMain fun s =>
    if 2 ≤ (s.lk p.val).doze && (s.lk p.val).doze ≤ 4 then s.wakeLink p.val else s)

/-- SIGNAL_DETECT: the partner's signal has been there for 512 ns; the side wakes, or its own burst is answered (R262 to
R264). -/
def execSignalDetect (p : LinkId) (s : State) : Host.Outcome State Fault Refusal :=
  .next (s.inMain fun s =>
    let d := (s.lk p.val).doze
    let answered := fun s : State => s.updLk p.val fun l => { l with wakeAnswered := true }
    if 2 ≤ d && d ≤ 4 then answered (s.wakeLink p.val)
    else if d = 5 then answered s
    else s)

/-- FAST_RELOCK_TIMEOUT: a lane not locked 2 µs after a wake starts a full relock, counted in WAKEFAIL (R263). -/
def execFastRelockTimeout (p : LinkId) (i : LaneId) (s : State) : Host.Outcome State Fault Refusal :=
  .next (s.inMain fun s =>
    let p := p.val
    if (s.lk p).doze = 5 && bitAt (s.rxMask p) i.val && !bitAt (s.lockedMask p) i.val then
      (s.inc (R.LNK_DOZE p) F.LNK_DOZE_WAKEFAIL).fullRelock p
    else s)

/-- BEACON_TIMER: 128 ns out of idle on L_0 (R264). -/
def execBeaconTimer (p : LinkId) (s : State) : Host.Outcome State Fault Refusal :=
  .next (s.inMain fun s => if (s.lk p.val).doze = 4 then s.send (.lane p.val "BEACON" []) else s)

/-- LINK_BEACON: a burst of less than 512 ns at `timeNs`: the first anchor, on time, or a slip. The fourth slip in 1 ms wakes the
link and sets NODOZE (R264). -/
def execLinkBeacon (p : LinkId) (timeNs : Nat) (s : State) : Host.Outcome State Fault Refusal :=
  .next (s.inMain fun s =>
    let p := p.val
    let l := s.lk p
    if l.doze ≠ 4 then s
    else
      let s := s.updLk p fun l => { l with anchor := some timeNs }
      match l.anchor with
      | none => s
      | some a =>
        let d := timeNs - a
        if 7750 ≤ d && d ≤ 8250 then s
        else
          let s := s.inc (R.LNK_DOZE p) F.LNK_DOZE_SLIP
          let s := if l.slipWarned then s else s.lnkRecord Sev.warn p (R.LNK_DOZE p) F.LNK_DOZE_SLIP
          let slips := (l.slips ++ [timeNs]).filter fun t => timeNs ≤ t + 1000000
          let s := s.updLk p fun l => { l with slips := slips, slipWarned := true }
          if 4 ≤ slips.length then
            ((s.wakeLink p).wr (R.LNK_STATUS p) F.LNK_STATUS_NODOZE 1).lnkRecord Sev.warn p (R.LNK_STATUS p)
              F.LNK_STATUS_NODOZE
          else s)

/-- BEACON_TIMEOUT: 16.25 µs without a burst wake the link (R264). -/
def execBeaconTimeout (p : LinkId) (s : State) : Host.Outcome State Fault Refusal :=
  .next (s.inMain fun s => if (s.lk p.val).doze = 4 then s.wakeLink p.val else s)

/-- WAKE_TIMEOUT: no wake burst has answered in 4 µs: link silence (R264). The link keeps trying to lock (R258). -/
def execWakeTimeout (p : LinkId) (s : State) : Host.Outcome State Fault Refusal :=
  .next (s.inMain fun s =>
    if (s.lk p.val).doze = 5 && !(s.lk p.val).wakeAnswered then ((s.fullRelock p.val).silence p.val).pump else s)

/-! ## Training (R265, R270) -/

/-- Whether a failed partition holds a link with EN = 0: its link group, the router or the memory (R413). -/
def State.linkHeld (s : State) (p : Nat) : Bool :=
  s.ao.failed.contains 64 || s.ao.failed.contains 73 || s.ao.failed.contains (65 + p / 4)

/-- A write of EN = 1 to a link whose EN is 0. -/
def State.linkEnable (s : State) (p : Nat) : State :=
  if s.on (R.LNK_CTL p) F.LNK_CTL_EN || s.linkHeld p then s else (s.wr (R.LNK_CTL p) F.LNK_CTL_EN 1).train p

/-- A write of EN = 0: the transmitters idle and the link is down (R256, R270). -/
def State.linkDown (s : State) (p : Nat) : State :=
  if !s.on (R.LNK_CTL p) F.LNK_CTL_EN then s
  else
    let s := ((s.wr (R.LNK_CTL p) F.LNK_CTL_EN 0).dropBuffer p).updLk p LinkState.fresh
    let s := (s.updLk p fun l => { l with waitSet := false }).send (.lane p "TXIDLE" [1])
    let s := s.setReg (R.LNK_WIDTH p) (putAll (s.reg (R.LNK_WIDTH p)) [(F.LNK_WIDTH_RXMASK, 0), (F.LNK_WIDTH_TXMASK, 0),
      (F.LNK_WIDTH_LOCKED, 0)])
    ((s.setLnk p 0).wr (R.LNK_STATUS p) F.LNK_STATUS_NODOZE 0).wr (R.LNK_TRIM p) F.LNK_TRIM_BUSY 0

/-- A change of LANEMASK takes effect by renegotiation of both directions (R270); the transmitter takes the partner's last mask
within the new one. -/
def State.laneMaskChanged (s : State) (p : Nat) : State :=
  if s.lnkState p ≠ 2 then s
  else
    let rx := meet (s.lockedMask p) (s.laneMask p)
    let s := if rx = s.rxMask p then s else if rx = 0 then s.fullRelock p else s.askWidth p rx 1
    let tx := meet (s.lk p).peerMask (s.laneMask p)
    if tx = s.txMask p then s
    else if tx = 0 then s.fullRelock p
    else s.updLk p fun l => { l with reqMask := some tx }

/-- A write of LNK[p]_CTL (R270): a LANEMASK of 0 is ignored and recorded as a Warn record; EN, then RETRAIN. -/
def State.writeLnkCtl (s : State) (p : Nat) (v : Word) : State :=
  let a := R.LNK_CTL p
  let en := fget v F.LNK_CTL_EN
  let mask := fget v F.LNK_CTL_LANEMASK
  let old := s.laneMask p
  let s := (s.wr a F.LNK_CTL_DOZEEN (fget v F.LNK_CTL_DOZEEN)).wr a F.LNK_CTL_TRIMAUTO (fget v F.LNK_CTL_TRIMAUTO)
  let s := if mask = 0 then s.record ((ev Sev.warn Src.lnk p).field a F.LNK_CTL_LANEMASK)
    else if mask = old then s
    else (s.wr a F.LNK_CTL_LANEMASK mask).laneMaskChanged p
  let s := if en = 1 then s.linkEnable p else s.linkDown p
  if en = 1 && fget v F.LNK_CTL_RETRAIN = 1 && !(s.lk p).waitSet then s.train p else s

/-- LINK_ENABLE: a write of EN = 1 with the other fields unchanged (R265, R274). -/
def execLinkEnable (p : LinkId) (s : State) : Host.Outcome State Fault Refusal :=
  .next (s.inMain fun s => s.linkEnable p.val)

/-- LINK_DOWN: a write of EN = 0 with the other fields unchanged (R270). -/
def execLinkDown (p : LinkId) (s : State) : Host.Outcome State Fault Refusal :=
  .next (s.inMain fun s => (s.linkDown p.val).pump)

/-- RETRAIN (R265, R270). -/
def execRetrain (p : LinkId) (s : State) : Host.Outcome State Fault Refusal :=
  .next (s.inMain fun s => if (s.lk p.val).waitSet then s else (s.train p.val).pump)

/-- TRAINING_TIMEOUT (R265). -/
def execTrainingTimeout (p : LinkId) (s : State) : Host.Outcome State Fault Refusal :=
  .next (s.inMain fun s => if s.lnkState p.val = 1 then s.trainFailed p.val else s)

/-- TRAINING_RETRY (R265). -/
def execTrainingRetry (p : LinkId) (s : State) : Host.Outcome State Fault Refusal :=
  .next (s.inMain fun s => if s.lnkState p.val = 5 then s.train p.val else s)

/-- UNLOCK_TIMEOUT: every lane of a direction has stayed unlocked for 20 ms (R265). -/
def execUnlockTimeout (p : LinkId) (s : State) : Host.Outcome State Fault Refusal :=
  .next (s.inMain fun s =>
    if (s.lnkState p.val = 2 || s.lnkState p.val = 4) && s.lockedMask p.val = 0 && (s.lk p.val).doze = 0 then
      (s.train p.val).pump
    else s)

/-! ## Load, trims and margins (R266, R267, R419, R420) -/

/-- LOAD_SAMPLE: LOAD of the last 1 ms in the busier direction; entering full load with LASTLOAD below 75 sets DUE, and with
TRIMAUTO = 1 the re-trim starts (R266). -/
def execLoadSample (p : LinkId) (slotsTx dataTx slotsRx dataRx : Nat) (s : State) : Host.Outcome State Fault Refusal :=
  .next (s.inMain fun s =>
    let p := p.val
    let a := R.LNK_TRIM p
    if s.lnkState p ≠ 2 && s.lnkState p ≠ 3 then s
    else
      let load := min 100 (max (100 * dataTx / max 1 slotsTx) (100 * dataRx / max 1 slotsRx))
      let entered := 75 ≤ load && !(s.lk p).atFull
      let s := (s.wr a F.LNK_TRIM_LOAD load).updLk p fun l => { l with atFull := decide (75 ≤ load) }
      if entered && s.rd a F.LNK_TRIM_LASTLOAD < 75 then
        let s := s.wr a F.LNK_TRIM_DUE 1
        if s.on (R.LNK_CTL p) F.LNK_CTL_TRIMAUTO then s.retrim p else s
      else s)

/-- TRIM_REQ: a write of REQ; ignored while BUSY = 1 (R267, R271). -/
def execTrimReq (p : LinkId) (s : State) : Host.Outcome State Fault Refusal :=
  .next (s.inMain fun s => s.retrim p.val)

/-- TRIM_DONE: TRIMBUSY falls. In training the next lane follows, and after the last one the link is active (R265); in a re-trim
the lane is watched for 100 µs (R267). -/
def execTrimDone (p : LinkId) (s : State) : Host.Outcome State Fault Refusal :=
  .next (s.inMain fun s =>
    let p := p.val
    if (s.lk p).trimStep ≠ 2 then s
    else if s.lnkState p = 1 then
      let s := s.updLk p fun l => { l with trimQueue := l.trimQueue.drop 1 }
      match (s.lk p).trimQueue with
      | i :: _ => s.trimLane p i
      | [] => (s.trained p).pump
    else s.updLk p fun l => { l with trimStep := 3 })

/-- TRIM_WATCH_END: a lane whose corrected symbols exceed twice its rate before the trim is reverted, with a Warn record; the
lane is offered back (R267). `before` and `after` are the corrected symbols of 100 µs. -/
def execTrimWatchEnd (p : LinkId) (before after : Nat) (s : State) : Host.Outcome State Fault Refusal :=
  .next (s.inMain fun s =>
    let p := p.val
    match (s.lk p).trimStep, (s.lk p).trimQueue with
    | 3, i :: _ =>
      let s := if 2 * before < after then
          (s.send (.lane p "TRIMREVERT" [i])).lnkRecord Sev.warn p (R.LNK_TRIM p) F.LNK_TRIM_BUSY
        else s
      let s := s.updLane p i fun x => { x with trimmedAt := if x.pred then some s.now else x.trimmedAt }
      (s.askWidth p (maskOfLanes (i :: lanesOfMask (s.rxMask p))) 1).updLk p fun l => { l with trimStep := 4 }
    | _, _ => s)

/-- MARGIN_CHECK: the second's counts of a lane in use join its margin registers; a lane over a threshold sets PRED with a Warn
record and is trimmed, or taken in the trim that runs. PRED again within 1 s of its trim writes a Fault record and sends a trail
message, which is the notice of that record (R419, R420). -/
def execMarginCheck (p : LinkId) (i : LaneId) (corrected worst e4 e8 e12 : Nat) (s : State) :
    Host.Outcome State Fault Refusal :=
  .next (s.inMain fun s =>
    let p := p.val
    let i := i.val
    if !bitAt (s.rxMask p) i then s
    else
      let x := (s.lk p).lane i
      let m := R.LNK_LMARG p i
      let h := R.LNK_LHIST p i
      let s := ((s.add (R.LNK_FEC p) F.LNK_FEC_CORR corrected).add m F.LNK_LMARG_CORR corrected).raise m F.LNK_LMARG_WORST
        (min worst 15)
      let s := ((s.add h F.LNK_LHIST_E4 e4).add h F.LNK_LHIST_E8 e8).add h F.LNK_LHIST_E12 e12
      let s := s.updLane p i fun x => { x with uncs := 0 }
      if corrected ≤ 65536 * s.rd R.TST_MTHR F.TST_MTHR_CTHR && e12 + x.uncs ≤ s.rd R.TST_MTHR F.TST_MTHR_TTHR then s
      else
        let soon : Bool := match x.trimmedAt with
          | some t => decide (s.now ≤ t + 1000000)
          | none => false
        let s := (s.wr m F.LNK_LMARG_PRED 1).lnkRecord Sev.warn p m F.LNK_LMARG_PRED
        let s := if soon then s.lnkRecord Sev.fault p m F.LNK_LMARG_PRED else s
        let s := s.updLane p i fun x => { x with pred := true, trimmedAt := none }
        if !s.on (R.LNK_CTL p) F.LNK_CTL_TRIMAUTO then s
        else if s.on (R.LNK_TRIM p) F.LNK_TRIM_BUSY then
          s.updLk p fun l => { l with trimQueue := if l.trimQueue.contains i then l.trimQueue else l.trimQueue ++ [i] }
        else s.startTrim p [i] false)

end Sys2Proof.Machine
end

