-- ==== Sys2Proof/Machine/RouterRows.lean ====
section
/-! DEFINITION. The rows of the router and of remote access: ROUTE_FRAME, ESCWAIT, CREDIT_TIMER, HOST_FRAME, HOST_CREDIT_RETURN,
LRD, LRSP, ERR, LWR, LWACK, INV, INVACK, INV_TIMEOUT, NOROUTE, HMSG, REASM_TIMEOUT and PNID_WRITE (R273 to R293, R336, R426). -/
namespace Sys2Proof.Machine

/-- ROUTE_FRAME: a frame at a port of the router; `stomped` says that it ends with a stomped FCRC or in an uncorrectable codeword
after it was taken on the strength of its header (R252, R276 to R281, R292). -/
def execRouteFrame (inPort : Fin 44) (f : Frame) (stomped : Bool) (s : State) : Host.Outcome State Fault Refusal :=
  .next (s.inMain fun s => (s.routeFrame inPort.val f stomped).throttle)

/-- ESCWAIT: a frame that waits for a link takes the escape pair at this router (R277). -/
def execEscwait (f : Frame) (s : State) : Host.Outcome State Fault Refusal :=
  .next (s.inMain fun s =>
    match s.router.waiting.find? fun w => w.frame == f && w.host.isNone && f.dst != s.pnid with
    | none => s
    | some w =>
      let s := { s with router := { s.router with waiting := s.router.waiting.erase w } }
      (s.routeFrame w.inPort (f.route f.msg.dtr true (f.msg.esc && f.msg.dl) (f.msg.esc && f.msg.lw)) w.stomped).throttle)

/-- CREDIT_TIMER: 64 ns after the first unreturned credit (R275). -/
def execCreditTimer (p : LinkId) (s : State) : Host.Outcome State Fault Refusal :=
  .next (s.inMain fun s => if (s.lk p.val).owes then s.sendCredits p.val else s)

/-! ## Host injection (R286, R289, R426) -/

/-- An error answer on host interface h. -/
def State.hostErr (s : State) (h : Nat) (f : Frame) (code : Nat) : State := s.send (.host h "ERR" [f.msg.txid, code] [])

/-- Whether a host frame is refused as R426 states: its KIND, its LEN, a reserved field, or a seal that HOSTSEAL asks for. -/
def State.hostRefused (s : State) (f : Frame) : Bool :=
  let k := f.msg.kind
  !(k == 1 || k == 4 || k == 9) || f.len = 0 || 128 < f.len ||
  (k == 9 && 8 ≤ f.msg.offset) || (k != 9 && 2 ^ 44 ≤ f.msg.offset) ||
  (s.on R.FUS_POLICY F.FUS_POLICY_HOSTSEAL && !f.enc)

/-- A host's frame as it is injected: sealed under the glade's current generation where the host asks for it or R332 requires it. -/
def State.hostSeal (s : State) (f : Frame) : Frame :=
  if f.enc || s.needsSeal f then
    { f with enc := true, sealOk := true, kph := ((s.keyCur f.glade.val).map (·.phase)).getD false }
  else f

/-- HOST_FRAME: the frame is refused with ERR 5, or completed (DST, SRC, TTL, ROUTE), sealed and routed on VC6; a line access is
kept until its answer comes (R286, R288, R289, R332, R426). -/
def execHostFrame (h : HostId) (f : Frame) (s : State) : Host.Outcome State Fault Refusal :=
  .next (s.inMain fun s =>
    let g := f.glade.val
    if s.hostRefused f then (s.inc R.RTR_XSTAT F.RTR_XSTAT_BAD).hostErr h.val f 5
    else
      let e := s.memberEntry g f.msg.dlmn
      if s.rd (R.RTR_MAPCFG g) F.RTR_MAPCFG_COUNT ≤ f.msg.dlmn || !e.valid || (f.msg.kind != 9 && f.msg.offset % 128 != 0) then
        s.hostErr h.val f 5
      else
        let f : Frame := { f with vc := 6, src := s.pnid, dst := e.pnid, ttl := 255 }
        let f := f.route 0 false false false
        let a : Access := ⟨f.msg.kind, g, f.msg.dlmn, f.msg.offset, f.msg.txid, some h.val, f.msg.cache, false, false⟩
        let s := if f.msg.kind = 9 then s
          else { s with router := { s.router with accesses := s.router.accesses ++ [a] } }
        (s.routeFrame (32 + h.val) (s.hostSeal f) false).throttle)

/-- HOST_CREDIT_RETURN: credits of VC2 and VC6 come back from the host, and what waits toward it goes on (R275). -/
def execHostCreditReturn (h : HostId) (vc2 vc6 : Nat) (s : State) : Host.Outcome State Fault Refusal :=
  .next (s.inMain fun s =>
    let give := fun (m : Sparse Nat) (v n : Nat) => vcSet m (8 * h.val + v) (vcCount m (8 * h.val + v) - n)
    let m := give (give s.router.hostUsed 2 vc2) 6 vc6
    State.pump { s with router := { s.router with hostUsed := m } })

/-! ## The home (R289 to R291, R336) -/

/-- The answer of the home to a requester. -/
def State.homeAnswer (s : State) (f : Frame) (name : String) (args : List Nat) (data : List Byte) : State :=
  s.toNode f.src name ([f.glade.val, f.msg.offset, f.msg.txid] ++ args) data

/-- An error answer of the home. -/
def State.homeErr (s : State) (f : Frame) (code : Nat) : State := s.homeAnswer f "ERR" [code] []

/-- Whether a line lies in a region of another glade, or in the image pool (R336). -/
def State.foreignLine (s : State) (g o : Nat) : Bool :=
  !s.lineOfGlade g o &&
  ((List.range 16).any (fun x => x != g && s.lineOfGlade x o) ||
    inUnits o (s.rd R.GRV_WPOOL F.GRV_WPOOL_BASE) (s.rd R.GRV_WPOOL F.GRV_WPOOL_SIZE))

/-- The error that a remote line access meets at its home before it is served: fenced, address, or another glade's line (R289,
R336). -/
def State.homeRefusal (s : State) (f : Frame) : Option Nat :=
  let o := f.msg.offset
  if s.fenced f.glade.val then some 2
  else if o % 128 ≠ 0 ∨ s.memTop ≤ o / 4096 then some 5
  else if s.foreignLine f.glade.val o then some 4
  else none

/-- The row of the leaf that a line of the shard of an LMN lies in, if a row codes it. -/
def State.rowOfLine (s : State) (g lmn o : Nat) : Option Nat :=
  if !s.joined g || s.regionAt g o == some 5 then none
  else (s.clearNeeds g lmn o).bind fun x => x.2.head?.map (·.1)

/-- The status word of a leaf of a hosted LMN: lost at this node (R179, R181). -/
def State.hostedStatus (s : State) (g : Nat) : Word :=
  BitVec.ofNat 64 (2 ^ 30 + 2 ^ 32 * (s.openRing g % 256) + 2 ^ 40 * ((s.code g).epoch % 256))

/-- A line read at its home (R289). With ROW the status word of the line's row follows the line; the line of an erased hosted leaf
is a free value (R181). Otherwise a line that is in clearing, awaits repair or belongs to an LMN that this node hosts is read as
a clearing read. A line that the port cannot read has the outcome of R296. (DEDUCED, assumption 41.) -/
def State.readLine (s : State) (f : Frame) : State :=
  let g := f.glade.val
  let o := f.msg.offset
  if f.msg.row then
    if f.msg.dlmn ≠ s.lmn g ∧ (s.gl g).hosting.contains f.msg.dlmn then
      s.useFree.homeAnswer f "LRSP" [(s.hostedStatus g).toNat] (List.replicate 16 (leBytes 8 s.freeVal.toNat)).flatten
    else if !s.lineServed o then (s.readFailed o).homeErr f 5
    else
      let w : Word := match s.rowOfLine g (s.lmn g) o with
        | some r => s.statusWord g r false
        | none => 0
      s.homeAnswer f "LRSP" [w.toNat] (s.readBytes o 128)
  else s.readShard g f.msg.dlmn o f.msg.txid [] (
    if !s.lineServed o then (s.readFailed o).homeErr f 5 else s.homeAnswer f "LRSP" [] (s.readBytes o 128))

/-- LRD (R289, R336). -/
def execLrd (f : Frame) (s : State) : Host.Outcome State Fault Refusal :=
  .next (s.inMain fun s => match s.homeRefusal f with
    | some 4 => (s.inc R.SEC_ERR F.SEC_ERR_ISO).homeErr f 4
    | some c => s.homeErr f c
    | none => s.readLine f)

/-- Whether a line lies in a watched region of any glade (R40, R289). -/
def State.watchedLine (s : State) (o : Nat) : Bool :=
  match s.regionOfUnit (o / 4096) with
  | some (_, x) => watchedRegion x
  | none => false

/-- LWR (R289, R291, R336): a line of a watched region, or of a shard that this node hosts and does not hold, is refused with ERR 5.
(DEDUCED, assumption 68.) Otherwise the line is written, and LWACK follows,
after the INVACKs when INV asks for them. -/
def execLwr (f : Frame) (s : State) : Host.Outcome State Fault Refusal :=
  .next (s.inMain fun s => match s.homeRefusal f with
    | some 4 => (s.inc R.SEC_ERR F.SEC_ERR_ISO).homeErr f 4
    | some c => s.homeErr f c
    | none =>
      let o := f.msg.offset
      let g := f.glade.val
      if s.watchedLine o || (f.msg.dlmn != s.lmn g && (s.gl g).hosting.contains f.msg.dlmn) then s.homeErr f 5
      else if !s.lineServed o then (s.writeFailed o).homeErr f 5
      else
        let s := s.writeBytes o (slice f.payload 0 128)
        if f.msg.inv && !(s.spanOf g).isEmpty then s.invalidate g o 128 f.src f.msg.txid true
        else s.homeAnswer f "LWACK" [] [])

/-- The wait for a transaction's INVACKs loses a target; when none is left the LWR is answered, or the apply goes on (R291). -/
def State.invTarget (s : State) (g lmn txid : Nat) : State :=
  match s.router.invs.find? fun w => w.glade == g && w.txid == txid && w.targets.contains lmn with
  | none => s
  | some w =>
    let left := w.targets.erase lmn
    if left.isEmpty then
      let s := { s with router := { s.router with invs := s.router.invs.erase w } }
      if w.answer then s.toNode w.requester "LWACK" [g, txid] else s.settleApply g
    else { s with router := { s.router with
      invs := s.router.invs.map fun x => if x = w then { x with targets := left } else x } }

/-- The LMN of glade g that a PNID holds. -/
def State.lmnOfPnid (s : State) (g pnid : Nat) : Option Nat :=
  (List.range (s.members g)).find? fun i => (s.memberEntry g i).valid && (s.memberEntry g i).pnid == pnid

/-- INVACK (R291). -/
def execInvack (f : Frame) (s : State) : Host.Outcome State Fault Refusal :=
  .next (s.inMain fun s => match s.lmnOfPnid f.glade.val f.src with
    | some i => s.invTarget f.glade.val i f.msg.txid
    | none => s)

/-- INV_TIMEOUT: the target is abandoned, in INVTMO and a Warn record, and the home proceeds (R291). -/
def execInvTimeout (g : GladeId) (lmn txid : Nat) (s : State) : Host.Outcome State Fault Refusal :=
  .next (s.inMain fun s =>
    if s.router.invs.any fun w => w.glade == g.val && w.txid == txid && w.targets.contains lmn then
      let s := (s.inc R.RTR_XSTAT F.RTR_XSTAT_INVTMO).record
        ((((ev Sev.warn Src.rtr 0).field R.RTR_XSTAT F.RTR_XSTAT_INVTMO).about (s.memberEntry g.val lmn).pnid).ofGlade g.val)
      s.invTarget g.val lmn txid
    else s)

/-- The lines of an INV (R290): OFFSET and up to 64 consecutive lines. -/
def Frame.invLines (f : Frame) : Nat := leAt f.payload 0 1 % 64 + 1

/-- INV: delivered to every host injection port and answered INVACK; the answer of a CACHE read of a named line that is
outstanding is marked NOCACHE (R290). -/
def execInv (f : Frame) (s : State) : Host.Outcome State Fault Refusal :=
  .next (s.inMain fun s =>
    let hit := fun a : Access => a.cache && a.kind == 1 && a.glade == f.glade.val && f.msg.dlmn == a.lmn &&
      f.msg.offset ≤ a.offset && a.offset < f.msg.offset + 128 * f.invLines
    let s := { s with router := { s.router with
      accesses := s.router.accesses.map fun a => if hit a then { a with marked := true } else a } }
    let s := s.each (List.range 8) fun s h => s.hostSend h { f with vc := 2 }
    s.homeAnswer f "INVACK" [] [])

/-! ## The requester (R284, R288) -/

/-- The access that an answer ends: its transaction, and the node that now holds its LMN. -/
def State.accessOf (s : State) (f : Frame) : Option Access :=
  s.router.accesses.find? fun a => a.glade == f.glade.val && a.txid == f.msg.txid && a.offset == f.msg.offset

/-- Whether the answer comes from the node that the map now names for the LMN. -/
def State.fromHolder (s : State) (a : Access) (f : Frame) : Bool := (s.memberEntry a.glade a.lmn).pnid == f.src

/-- An answer from an old PNID is dropped and counted (R288); otherwise the access ends with `k`. -/
def State.answered (s : State) (f : Frame) (k : State → Access → State) : State :=
  match s.accessOf f with
  | none => s
  | some a =>
    if s.fromHolder a f then k s a else s.inc R.RTR_DROP F.RTR_DROP_MAPSTALE

/-- The access is over. -/
def State.endAccess (s : State) (a : Access) : State :=
  { s with router := { s.router with accesses := s.router.accesses.erase a } }

/-- A host's answer leaves by its interface (R426); an access of a context is handed to the internal port. -/
def State.toRequester (s : State) (a : Access) (f : Frame) : State :=
  let f := { f with msg := { f.msg with nocache := f.msg.nocache || a.marked } }
  match a.host with
  | some h => s.hostSend h f
  | none => s.handOver f

/-- LRSP (R284, R288). -/
def execLrsp (f : Frame) (s : State) : Host.Outcome State Fault Refusal :=
  .next (s.inMain fun s => s.answered f fun s a => (s.endAccess a).toRequester a f)

/-- LWACK (R284, R288). -/
def execLwack (f : Frame) (s : State) : Host.Outcome State Fault Refusal :=
  .next (s.inMain fun s => s.answered f fun s a => (s.endAccess a).toRequester a f)

/-- ERR: a context access that fails with ERR 1 or 2 waits for the map update; any other access ends with the error (R284,
R288). -/
def execErr (f : Frame) (s : State) : Host.Outcome State Fault Refusal :=
  .next (s.inMain fun s => s.answered f fun s a =>
    let code := leAt f.payload 0 1
    if a.host.isNone && (code == 1 || code == 2) then
      { s with router := { s.router with
        accesses := s.router.accesses.map fun x => if x = a then { x with waiting := true } else x } }
    else (s.endAccess a).toRequester a f)

/-- NOROUTE: detection source 3 for every glade in which the PNID holds an LMN, at most once in 32 µs for each PNID (R278). -/
def execNoroute (pnid : BitVec 16) (s : State) : Host.Outcome State Fault Refusal :=
  .next (s.inMain fun s =>
    let p := pnid.toNat
    if s.router.noRouteAt.any fun x => x.1 == p && s.now < x.2 + 32 then s
    else
      let l := (s.router.noRouteAt.filter fun x => x.1 != p) ++ [(p, s.now)]
      State.suspectNode { s with router := { s.router with noRouteAt := l } } p 3)

/-- HMSG: delivered unchanged by the host port that OFFSET names (R426). -/
def execHmsg (f : Frame) (s : State) : Host.Outcome State Fault Refusal :=
  .next (s.inMain fun s => s.hostSend (f.msg.offset % 8) f)

/-- REASM_TIMEOUT (R285). -/
def execReasmTimeout (src txid : Nat) (s : State) : Host.Outcome State Fault Refusal :=
  .next (s.inMain fun s =>
    let here := fun r : Reasm => r.src == src && r.txid == txid
    if s.router.reasm.any here then
      (State.inc { s with router := { s.router with reasm := s.router.reasm.filter fun r => !here r } }
        R.RTR_XSTAT F.RTR_XSTAT_REASM).pump
    else s)

/-! ## PNID and shape (R274) -/

/-- Whether any link has a STATE other than 0. -/
def State.anyLinkUp (s : State) : Bool := (List.range 32).any fun p => s.lnkState p != 0

/-- A write of RTR_SELF (R274): PNID, SET, and the trainings that wait; ignored and recorded while a link is not down. -/
def State.writeRtrSelf (s : State) (v : Word) : State :=
  let n := fget v F.RTR_SELF_PNID
  if s.anyLinkUp then (if n = s.pnid then s else s.warnWrite Src.rtr 0 R.RTR_SELF v)
  else
    let s := (s.wr R.RTR_SELF F.RTR_SELF_PNID n).wr R.RTR_SELF F.RTR_SELF_SET 1
    s.each ((List.range 32).filter fun p => (s.lk p).waitSet) fun s p => s.train p

/-- A write of RTR_SHAPE (R274): ignored and recorded while a link is not down, and when the extents multiply to more than
65,536. -/
def State.writeRtrShape (s : State) (v : Word) : State :=
  let e := fun d => bitsOf v.toNat (8 * d) 7 + 1
  s.guardedWrite (s.anyLinkUp || decide (65536 < e 0 * e 1 * e 2 * e 3)) Src.rtr 0 R.RTR_SHAPE v

/-- PNID_WRITE (R274). -/
def execPnidWrite (value : Word) (s : State) : Host.Outcome State Fault Refusal :=
  .next (s.inMain fun s => s.writeRtrSelf value)

end Sys2Proof.Machine
end

