-- ==== Sys2Proof/Machine/Security.lean ====
section
/-! DEFINITION. Fuses and the security unit: fuse sensing and the life cycle (R320 to R325), burns, ROOT_DERIVE (R327), KEY_LOAD
(R329 to R331) and tokens (R339, R340). -/
namespace Sys2Proof.Machine

/-! ## Fuse contents (R320 to R322) -/

/-- The bytes of fuse words. -/
def State.fuseBytes (s : State) (w n : Nat) : List Byte := (List.range n).flatMap fun i => leBytes 8 (s.fuse (w + i)).toNat

/-- The code of a life-cycle state (R322). -/
def lcsCode (st : Nat) : Nat := 2 ^ min st 5 - 1

/-- The state that LCS bits spell; bits that form no code are Scrapped (R321). -/
def lcsOfCode (c : Nat) : Nat := ((List.range 6).find? fun st => lcsCode st == c).getD 5

/-- The LCS bits by majority of the three copies (R321). -/
def State.sensedLcs (s : State) : Nat :=
  let w := (s.fuse 0).toNat
  let vote := fun i => 2 ≤ bit (bitAt w i) + bit (bitAt w (8 + i)) + bit (bitAt w (16 + i))
  lcsOfCode (maskOf ((List.range 5).map vote))

/-- The burnt CRC of a group: 1, 2, 3, or 0 for DS (R320). -/
def State.groupCrc (s : State) (grp : Nat) : Nat :=
  match grp with
  | 1 => bitsOf (s.fuse 20).toNat 0 32
  | 2 => bitsOf (s.fuse 20).toNat 32 32
  | 3 => bitsOf (s.fuse 21).toNat 32 32
  | _ => bitsOf (s.fuse 21).toNat 0 32

/-- The first word and the number of words of a group, DS being 0. -/
def groupWords (grp : Nat) : Nat × Nat :=
  match grp with
  | 1 => (1, 6)
  | 2 => (7, 6)
  | 3 => (18, 2)
  | _ => (14, 4)

/-- Whether a group is burnt: its CRC field is not zero (R320). -/
def State.groupBurnt (s : State) (grp : Nat) : Bool := s.groupCrc grp != 0

/-- Whether the CRC of a burnt group is right. -/
def State.groupCrcOk (s : State) (grp : Nat) : Bool :=
  crc32c (s.fuseBytes (groupWords grp).1 (groupWords grp).2) == s.groupCrc grp

/-- Whether a group is burnt with the right CRC. -/
def State.groupValid (s : State) (grp : Nat) : Bool := s.groupBurnt grp && s.groupCrcOk grp

/-- The population count of a word. -/
def popWord (w : Word) : Nat := ((List.range 64).filter (bitAt w.toNat)).length

/-- Whether group 3 keeps MAIN in reset (R321). -/
def State.group3Bad (s : State) (lcs : Nat) : Bool :=
  if !s.groupBurnt 3 then lcs != 0
  else
    let grade := bitsOf (s.fuse 19).toNat 0 1
    !s.groupCrcOk 3 || (grade == 0 && s.fuse 18 != 0) || (grade == 1 && popWord (s.fuse 18) != 8)

/-- Fuse sensing (R321): the FUS registers, the grade in GLB_ID, and whether MAIN may start. (DEDUCED, assumption 43.) -/
def State.senseFuses (s : State) : State :=
  let lcs := s.sensedLcs
  let bad := s.group3Bad lcs
  let ds := (lcs == 2 || lcs == 3) && !s.groupValid 0
  let err := maskOf [s.groupBurnt 1 && !s.groupCrcOk 1, s.groupBurnt 2 && !s.groupCrcOk 2, ds, bad]
  let rev := bitsOf (s.fuse 13).toNat 0 2
  let valid := maskOf [s.groupValid 1 && !bitAt rev 0, s.groupValid 2 && !bitAt rev 1]
  let open3 := lcs == 0 && !s.groupBurnt 3
  let map : Word := if open3 then 0 else s.fuse 18
  let pol : Word := if open3 then 0 else s.fuse 19 &&& readMask R.FUS_POLICY
  let s := s.setReg R.FUS_LCS (putAll 0 [(F.FUS_LCS_STATE, lcs), (F.FUS_LCS_FERR, err)])
  let s := (s.setReg R.FUS_TILEMAP map).setReg R.FUS_POLICY pol
  let s := s.setReg R.FUS_IKREV (putAll 0 [(F.FUS_IKREV_REVOKE, rev), (F.FUS_IKREV_VALID, valid)])
  let s := s.each (List.range 12) fun s w => s.setReg (R.FUS_IKH w) (s.fuse (1 + w))
  let s := s.wr R.GLB_ID F.GLB_ID_GRADE (fget pol F.FUS_POLICY_GRADE)
  { s with ao := { s.ao with fuseSensed := true, fuseBad := bad } }

/-! ## Burns (R323, R324) -/

/-- The bits of a word, in increasing order, that a value sets and that are not burnt. -/
def State.newBits (s : State) (w : Nat) (v : Word) : List (Nat × Nat) :=
  ((List.range 64).filter fun i => bitAt v.toNat i && !bitAt (s.fuse w).toNat i).map fun i => (w, i)

/-- The burn of a byte string into successive words. -/
def State.bytesBits (s : State) (w : Nat) (l : List Byte) : List (Nat × Nat) :=
  (List.range ((l.length + 7) / 8)).flatMap fun i => s.newBits (w + i) (BitVec.ofNat 64 (leAt l (8 * i) 8))

/-- The burn of a group's CRC field. -/
def State.crcBits (s : State) (grp : Nat) (crc : Nat) : List (Nat × Nat) :=
  match grp with
  | 1 => s.newBits 20 (BitVec.ofNat 64 crc)
  | 2 => s.newBits 20 (BitVec.ofNat 64 (2 ^ 32 * crc))
  | 3 => s.newBits 21 (BitVec.ofNat 64 (2 ^ 32 * crc))
  | _ => s.newBits 21 (BitVec.ofNat 64 crc)

/-- The burn of a group: its bytes, then its CRC. -/
def State.groupBits (s : State) (grp : Nat) (l : List Byte) : List (Nat × Nat) :=
  s.bytesBits (groupWords grp).1 l ++ s.crcBits grp (crc32c l)

/-- The burn of a life-cycle code: copy by copy, in increasing bit order within a copy (R324). -/
def State.lcsBits (s : State) (target : Nat) : List (Nat × Nat) :=
  [0, 8, 16].flatMap fun c => s.newBits 0 (BitVec.ofNat 64 (2 ^ c * lcsCode target))

/-- Starts a burn. -/
def State.startBurn (s : State) (b : Burn) : State :=
  State.wr { s with sec := { s.sec with burn := some b } } R.FUS_LCS F.FUS_LCS_BUSY 1

/-- Burns bits. -/
def State.burnBits (s : State) (l : List (Nat × Nat)) : State :=
  s.each l fun s x => s.burnFuse x.1 (BitVec.ofNat 64 (2 ^ x.2))

/-- Whether no burn runs and no transition is pending (R324). -/
def State.lcsFree (s : State) : Bool := !s.on R.FUS_LCS F.FUS_LCS_PEND && !s.on R.FUS_LCS F.FUS_LCS_BUSY

/-- Whether FUS_LCCMD may lead to a state (R323). -/
def State.lcsAllowed (s : State) (target : Nat) : Bool :=
  s.lcsFree &&
  (match s.lcs, target with
   | 0, 1 => true
   | 1, 2 => s.groupValid 1 && s.groupValid 3
   | 2, 3 => true
   | from', 5 => from' != 5
   | _, _ => false)

/-- A write of FUS_LCCMD (R323, R325): another CONFIRM is ignored; a transition that no row of R323 allows is refused with a Warn
record. The entry to Provisioned burns DS, drawn from the entropy source (DESIGN CHOICE, assumption 2), and its CRC first. -/
def State.lifeCycle (s : State) (target confirm : Nat) : State :=
  if confirm ≠ 0x0C5A0000 + target then s
  else if !s.lcsAllowed target then s.record ((ev Sev.warn Src.fus 0).field R.FUS_LCS F.FUS_LCS_PEND)
  else
    let ds := leBytes 32 (Config.freeBits s.free).toNat
    let first := if target = 2 then s.groupBits 0 ds else []
    let s' := if target = 2 then s.useFree else s
    s'.startBurn ⟨first ++ s.lcsBits target, some target, false⟩

/-- A GO of FUS_PCMD (R324): ignored while BUSY = 1; refused with RESULT 1, 2 or 3. -/
def State.groupBurn (s : State) (grp addr : Nat) : State :=
  let a := R.FUS_PCMD
  let s := (s.wr a F.FUS_PCMD_GROUP grp).wr a F.FUS_PCMD_ADDR (addr / 64)
  let o := addr / 64 * 64
  let n := 8 * (groupWords grp).2
  let lcs := s.lcs
  if s.on R.FUS_LCS F.FUS_LCS_BUSY then s
  else if !((lcs == 0 && grp == 3) || (lcs == 1 && 1 ≤ grp)) then s.wr a F.FUS_PCMD_RESULT 1
  else if s.groupBurnt grp then s.wr a F.FUS_PCMD_RESULT 2
  else if !s.mainUp || !s.served o n then (if s.mainUp then s.readCheck o n else s).wr a F.FUS_PCMD_RESULT 3
  else s.startBurn ⟨s.groupBits grp (s.readBytes o n), none, true⟩

/-- A burn completes (R324): BUSY clears, a group burn gives RESULT 0, and a transition is pending. -/
def State.burnDone (s : State) : State :=
  match s.sec.burn with
  | none => s
  | some b =>
    let s := s.burnBits b.bits
    let s := State.wr { s with sec := { s.sec with burn := none } } R.FUS_LCS F.FUS_LCS_BUSY 0
    let s := if b.isGroup then s.wr R.FUS_PCMD F.FUS_PCMD_RESULT 0 else s
    match b.target with
    | some t => (s.wr R.FUS_LCS F.FUS_LCS_PEND 1).wr R.FUS_LCS F.FUS_LCS_TARGET t
    | none => s

/-- A burn that AO_RST_N cuts off leaves the bits that it had reached, an open number of them (R324, R344, assumption 2). -/
def State.burnCut (s : State) : State :=
  match s.sec.burn with
  | none => s
  | some b =>
    let n := s.freeVal.toNat % (b.bits.length + 1)
    let s := (s.burnBits (b.bits.take n)).useFree
    { s with sec := { s.sec with burn := none } }

/-- ENTER_MANUFACTURING (R323). -/
def execEnterManufacturing (confirm : BitVec 32) (s : State) : Host.Outcome State Fault Refusal :=
  .next (s.inAo fun s => s.lifeCycle 1 confirm.toNat)

/-- ENTER_PROVISIONED (R323). -/
def execEnterProvisioned (confirm : BitVec 32) (s : State) : Host.Outcome State Fault Refusal :=
  .next (s.inAo fun s => s.lifeCycle 2 confirm.toNat)

/-- ENTER_DEPLOYED (R323). -/
def execEnterDeployed (confirm : BitVec 32) (s : State) : Host.Outcome State Fault Refusal :=
  .next (s.inAo fun s => s.lifeCycle 3 confirm.toNat)

/-- ENTER_SCRAPPED (R323). -/
def execEnterScrapped (confirm : BitVec 32) (s : State) : Host.Outcome State Fault Refusal :=
  .next (s.inAo fun s => s.lifeCycle 5 confirm.toNat)

/-- GROUP_BURN (R324). -/
def execGroupBurn (group : Fin 4) (addr : BitVec 44) (s : State) : Host.Outcome State Fault Refusal :=
  .next (s.inAo fun s => s.groupBurn group.val addr.toNat)

/-- BURN_DONE (R324). -/
def execBurnDone (s : State) : Host.Outcome State Fault Refusal := .next (s.inAo State.burnDone)

/-! ## The device root (R327) -/

/-- The device root DRK, as bytes, and the agreement scalar d (R327). -/
def State.deviceRoot (s : State) : List Byte × Nat :=
  let drk := kdf (s.fuseBytes 14 4) (ascii "CZ64-ROOT") [] 384
  let seed := beNat (kdf drk (ascii "CZ64-AGREE") [] 448)
  (drk, seed % (Config.p384Order - 1) + 1)

/-- The device public key Q, as x ‖ y. -/
def State.devicePub (s : State) : List Byte := slice (Config.p384Base s.deviceRoot.2) 0 96

/-- The device identity: bytes 0 to 7 of the digest of Q. -/
def State.deviceId (s : State) : Nat := leAt (digestBytes (Config.sha384 s.devicePub)) 0 8

/-- Whether a device root may be formed: in Provisioned and Deployed, with a good DS, and while the security partition has not
failed its test (R321, R327, R413). -/
def State.rootAllowed (s : State) : Bool :=
  (s.lcs == 2 || s.lcs == 3) && s.groupValid 0 && !bitAt (s.rd R.FUS_LCS F.FUS_LCS_FERR) 2 && !s.ao.failed.contains 75

/-- ROOT_DERIVE: DRK, the agreement scalar and the device key; SEC_DEVPUB, SEC_DEVID and ROOT (R321, R327). -/
def execRootDerive (s : State) : Host.Outcome State Fault Refusal :=
  .next (s.inMain fun s =>
    if s.rootAllowed then
      let r := s.deviceRoot
      let q := s.devicePub
      let id := s.deviceId
      let s := s.each (List.range 12) fun s w => s.setReg (R.SEC_DEVPUB w) (BitVec.ofNat 64 (leAt q (8 * w) 8))
      let s := (s.setReg R.SEC_DEVID (BitVec.ofNat 64 id)).wr R.SEC_STATUS F.SEC_STATUS_ROOT 1
      { s with sec := { s.sec with drk := BitVec.ofNat 384 (beNat r.1), scalar := r.2 } }
    else s)

/-! ## Keys (R328 to R331) -/

/-- Whether a stream is in use: a publish or an image of it is in progress (R331). -/
def State.streamBusy (s : State) (stream : Nat) : Bool :=
  (List.range 16).any (fun g => (s.gl g).publish.isSome && s.rd (R.GRV_WPCTL g) F.GRV_WPCTL_STREAM == stream) ||
  (match s.imgOf stream with
   | some i => s.imgState i == 2 || s.imgState i == 3
   | none => false)

/-- Whether the slot is in use: its glade is ACTIVE, or its stream is in use. -/
def State.slotBusy (s : State) (x : Nat) : Bool :=
  if x < 16 then s.active x else (s.ks x).cur.isSome && s.streamBusy (s.ks x).stream

/-- A loaded generation takes its place (R331): current at once in an idle slot, else NEXT in the other phase, and PREV goes. -/
def KeySlot.take (k : KeySlot) (busy : Bool) (kgen : Nat) (key : BitVec 256) (swRing stream : Nat) : KeySlot :=
  let ph := match k.cur with
    | some c => !c.phase
    | none => false
  let n : KeyGen := ⟨kgen, key, ph, swRing⟩
  if busy then { k with next := some n, prev := none, stream := stream }
  else { cur := some n, prev := k.cur, next := none, stream := stream }

/-- A blob of 192 bytes (R329). -/
abbrev Blob := List Byte

/-- The wrapping key KEK of a blob (R327): the 48 bytes of the shared secret are the KDF's key. -/
def State.kek (s : State) (b : Blob) : BitVec 256 :=
  keyOf (kdf (slice (Config.p384Shared s.sec.scalar (slice b 32 96)) 0 48) (ascii "CZ64-WRAP")
    (slice b 0 32 ++ leBytes 8 (s.reg R.SEC_DEVID).toNat) 256)

/-- The first failing check of R330, 0 when all pass. The blob's bytes are read between the first check and the second.
(DEDUCED, assumption 42.) -/
def State.blobResult (s : State) (b : Blob) (readable : Bool) : Nat :=
  let slot := leAt b 1 1
  let kgen := leAt b 4 4
  let stream := leAt b 16 4
  let sw := leAt b 24 8
  let k := s.ks slot
  let tag := Config.gcmTag (s.kek b) (BitVec.ofNat 96 (leAt b 128 12)) (slice b 0 32) (slice b 144 32)
  if !(s.lcs == 2 || s.lcs == 3) || !s.on R.SEC_STATUS F.SEC_STATUS_ROOT || s.on R.SEC_STATUS F.SEC_STATUS_UNLOCK then 1
  else if !readable then 10
  else if leAt b 0 1 ≠ 1 || 32 ≤ slot || leAt b 2 2 ≠ 0 || leAt b 20 4 ≠ 0 || leAt b 140 4 ≠ 0 then 2
  else if leAt b 8 8 ≠ (s.reg R.SEC_DEVID).toNat then 3
  else if !Config.p384Valid (slice b 32 96) then 4
  else if leBytes 16 tag.toNat ≠ slice b 176 16 then 5
  else if s.slotBusy slot && (kgen ≤ ((k.cur.map (·.kgen)).getD 0) && k.cur.isSome || k.next.isSome) then 6
  else if slot < 16 && s.active slot && sw ≤ s.ring slot + 1 then 7
  else if 16 ≤ slot && (stream == 0 || (List.range' 16 16).any fun x =>
      x != slot && (s.ks x).cur.isSome && (s.ks x).stream == stream) then 8
  else if slot < 16 && s.on R.FUS_POLICY F.FUS_POLICY_XTENANT &&
      (List.range 16).any (fun x => x != slot && (s.ks x).cur.isSome) then 9
  else 0

/-- A GO of SEC_KLOAD (R330): the first failure sets RESULT, is counted in KREF and recorded. (DEDUCED, assumption 42.) -/
def State.keyLoad (s : State) (addr : Nat) : State :=
  let a := R.SEC_KLOAD
  let s := s.wr a F.SEC_KLOAD_ADDR (addr / 64)
  let o := addr / 64 * 64
  let ok := s.served o 192
  let b := if ok then s.readBytes o 192 else zeros 192
  let r := s.blobResult b ok
  let slot := leAt b 1 1 % 32
  let s := s.wr a F.SEC_KLOAD_RESULT r
  if r = 0 then
    let key := keyOf (slice (Config.gcmCrypt (s.kek b) (BitVec.ofNat 96 (leAt b 128 12)) (slice b 144 32)) 0 32)
    s.updKs slot fun k => k.take (s.slotBusy slot) (leAt b 4 4) key (leAt b 24 8) (if slot < 16 then 0 else leAt b 16 4)
  else
    let s := if r = 10 then s.readCheck o 192 else s
    (s.inc R.SEC_ERR F.SEC_ERR_KREF).record
      ((((ev Sev.warn Src.sec slot).field a F.SEC_KLOAD_RESULT).coded r).about (leAt b 4 4))

/-- KEY_LOAD (R330). -/
def execKeyLoad (addr : BitVec 44) (s : State) : Host.Outcome State Fault Refusal :=
  .next (s.inMain fun s => s.keyLoad addr.toNat)

/-! ## Tokens (R339, R340) -/

/-- The image key whose digest a signer's key has, among those that FUS_IKREV marks VALID. -/
def State.signerKey (s : State) (pub : List Byte) : Option Nat :=
  let d := digestBytes (Config.sha384 pub)
  [0, 1].find? fun i => bitAt (s.rd R.FUS_IKREV F.FUS_IKREV_VALID) i &&
    (List.range 6).all fun w => (s.reg (R.FUS_IKH (6 * i + w))).toNat == leAt d (8 * w) 8

/-- Whether the state and the policy allow an action (R323, R338 to R340). -/
def State.actionAllowed (s : State) (action : Nat) : Bool :=
  let used := s.lcs == 2 || s.lcs == 3
  match action with
  | 1 => s.lcs == 3 && !s.on R.FUS_POLICY F.FUS_POLICY_NODBG
  | 2 => used && s.lcsFree
  | 3 => !s.on R.FUS_LCS F.FUS_LCS_BUSY
  | 4 => !s.on R.FUS_LCS F.FUS_LCS_BUSY && !s.groupBurnt 2
  | _ => false

/-- The RESULT of a token (R339, R341): 0 when the action may be done. -/
def State.tokenResult (s : State) (b : List Byte) (readable : Bool) : Nat :=
  let action := leAt b 1 1
  let pub := slice b 72 96
  if !readable then 6
  else if s.lcs ≤ 1 then 5
  else if leAt b 0 1 ≠ 1 || action = 0 || 4 < action || leAt b 2 6 ≠ 0 || (action != 4 && leAt b 24 48 != 0) then 1
  else if leAt b 8 8 ≠ (s.reg R.SEC_DEVID).toNat || leAt b 16 8 ≠ (s.peekVal R.SEC_CHAL).toNat then 2
  else match s.signerKey pub with
    | none => 3
    | some i =>
      if action = 3 && i ≠ 1 then 3
      else if !Config.ecdsaVerify pub (slice b 0 168) (slice b 168 96) then 4
      else if !s.actionAllowed action then 5
      else 0

/-- A debug unlock (R340): every key slot is cleared, every active member is fenced, and UNLOCK is set. -/
def State.debugUnlock (s : State) : State :=
  State.wr (({ s with keys := [] } : State).forceFence 0xFFFF) R.SEC_STATUS F.SEC_STATUS_UNLOCK 1

/-- A GO of SEC_TOKEN: the check replaces SEC_CHAL, and the action follows (R339, R340). (DEDUCED, assumption 43.) -/
def State.token (s : State) (addr : Nat) : State :=
  let a := R.SEC_TOKEN
  let s := s.wr a F.SEC_TOKEN_ADDR (addr / 64)
  let o := addr / 64 * 64
  let ok := s.served o 264
  let b := if ok then s.readBytes o 264 else zeros 264
  let r := s.tokenResult b ok
  let s := State.wr { s with sec := { s.sec with chalCount := (s.sec.chalCount + 1) % 2 ^ 40 } } a F.SEC_TOKEN_RESULT r
  let s := if ok then s else s.readCheck o 264
  let action := leAt b 1 1
  if r = 5 && action = 2 && 2 ≤ s.lcs then s.record ((ev Sev.warn Src.fus 0).field R.FUS_LCS F.FUS_LCS_PEND)
  else if r ≠ 0 then s
  else match action with
    | 1 => s.debugUnlock
    | 2 => s.startBurn ⟨s.lcsBits 4, some 4, false⟩
    | 3 => s.startBurn ⟨s.newBits 13 1, none, false⟩
    | _ => s.startBurn ⟨s.groupBits 2 (slice b 24 48), none, false⟩

/-- DEBUG_UNLOCK: a token with ACTION 1 (R339, R340). -/
def execDebugUnlock (addr : BitVec 44) (s : State) : Host.Outcome State Fault Refusal :=
  .next (s.inMain fun s => s.token addr.toNat)

/-- ENTER_RETURNED: a token with ACTION 2 (R323, R340). -/
def execEnterReturned (addr : BitVec 44) (s : State) : Host.Outcome State Fault Refusal :=
  .next (s.inMain fun s => s.token addr.toNat)

/-- REVOKE_IMAGE_KEY: a token with ACTION 3 (R339). -/
def execRevokeImageKey (addr : BitVec 44) (s : State) : Host.Outcome State Fault Refusal :=
  .next (s.inMain fun s => s.token addr.toNat)

/-- BURN_IKH1: a token with ACTION 4 (R339). -/
def execBurnIkh1 (addr : BitVec 44) (s : State) : Host.Outcome State Fault Refusal :=
  .next (s.inMain fun s => s.token addr.toNat)

end Sys2Proof.Machine
end

