-- ==== Sys2Proof/Machine/Nvm.lean ====
section
/-! DEFINITION. The NVM controller and the record engine: flash discovery (R350), flash commands (R365 to R367) and the record
area (R362 to R364), with the persisting of the SEAL epoch (R334). -/
namespace Sys2Proof.Machine

/-! ## Flash bytes -/

/-- Erases flash bytes: they read as 0xFF. -/
def State.eraseFlash (s : State) (a n : Nat) : State :=
  { s with flash := s.flash.filter fun c => c.1 < a || a + n ≤ c.1 }

/-- Programs flash bytes: each byte becomes old AND new (R365). -/
def State.programFlash (s : State) (a : Nat) : List Byte → State
  | [] => s
  | b :: r => (s.setFlashByte a (s.flashByte a &&& b)).programFlash (a + 1) r

/-- Leaves flash bytes at free values (DESIGN CHOICE, assumption 2): what a cut or an overlong operation leaves in the bytes it was working on. -/
def State.spoilFlash (s : State) (a n : Nat) : State :=
  s.each (List.range n) fun s i => (s.setFlashByte (a + i) (s.freeVal.setWidth 8)).useFree

/-! ## The record area (R362) -/

/-- Where a record bank begins (R351). -/
def bankBase (b : Nat) : Nat := 0x500000 + 0x20000 * b

/-- Where entry i of a bank lies. -/
def entryAddr (b i : Nat) : Nat := bankBase b + 32 * (i + 1)

/-- The header of a bank with a BANKSEQ. -/
def bankHeader (seq : Nat) : List Byte :=
  let h := leBytes 4 0x41525A43 ++ leBytes 4 seq ++ zeros 20
  h ++ leBytes 4 (crc32c h)

/-- The BANKSEQ of a bank whose header is valid. -/
def State.bankSeq (s : State) (b : Nat) : Option Nat :=
  let h := s.flashBytes (bankBase b) 32
  if h = bankHeader (leAt h 4 4) then some (leAt h 4 4) else none

/-- The active bank: the one with a valid header and the higher BANKSEQ. (DEDUCED, assumption 49.) -/
def State.activeBank (s : State) : Option (Nat × Nat) :=
  match s.bankSeq 0, s.bankSeq 1 with
  | some x, some y => if x < y then some (1, y) else some (0, x)
  | some x, none => some (0, x)
  | none, some y => some (1, y)
  | none, none => none

/-- The indices of the entries of a bank whose STATE is not 0xFF, in increasing order. -/
def State.usedEntries (s : State) (b : Nat) : List Nat :=
  (s.flash.filter fun c => entryAddr b 0 ≤ c.1 && c.1 < entryAddr b 4095 && c.1 % 32 == 0).map fun c =>
    (c.1 - entryAddr b 0) / 32

/-- The 32 bytes of an entry. -/
def State.entryBytes (s : State) (b i : Nat) : List Byte := s.flashBytes (entryAddr b i) 32

/-- STATE of an entry. -/
def entryState (e : List Byte) : Nat := leAt e 0 1
/-- TYPE of an entry. -/
def entryType (e : List Byte) : Nat := leAt e 1 1
/-- SEQ of an entry. -/
def entrySeqNo (e : List Byte) : Nat := leAt e 4 4
/-- The payload of an entry. -/
def entryPayload (e : List Byte) : List Byte := slice e 8 20

/-- Whether an entry's CRC is right: the CRC-32C of bytes 1 to 27. -/
def entryCrcOk (e : List Byte) : Bool := crc32c (slice e 1 27) == leAt e 28 4

/-- The key of an entry: TYPE, with the tile, the spare or the frame for types 2 to 4. -/
def entryKey (type : Nat) (payload : List Byte) : Nat × Nat :=
  (type, match type with
    | 2 => leAt payload 0 2
    | 3 => leAt payload 0 3
    | 4 => leAt payload 0 1
    | _ => 0)

/-- The valid entries of a bank with the right CRC, in increasing order. -/
def State.validEntries (s : State) (b : Nat) : List (List Byte) :=
  ((s.usedEntries b).map (s.entryBytes b)).filter fun e => entryState e == 0xFC && entryCrcOk e

/-- Keeps the newest entry of each key, by SEQ. -/
def keepNewest : List (List Byte) → List (List Byte)
  | [] => []
  | e :: r =>
    let l := keepNewest r
    let same := fun x => entryKey (entryType x) (entryPayload x) == entryKey (entryType e) (entryPayload e)
    if l.any fun x => same x && entrySeqNo e ≤ entrySeqNo x then l else e :: l.filter fun x => !same x

/-- The entries that count. -/
def State.liveEntries (s : State) (b : Nat) : List (List Byte) := keepNewest (s.validEntries b)

/-- The payload of the entry that counts for a type without a further key. -/
def State.liveEntry (s : State) (b type : Nat) : Option (List Byte) :=
  ((s.liveEntries b).find? fun e => entryType e == type).map entryPayload

/-- The number of the active bank. -/
def State.recBank (s : State) : Nat := s.rd R.NVM_REC F.NVM_REC_BANK

/-- The engine keeps the sector after the write pointer erased (R363). -/
def State.eraseAhead (s : State) : State :=
  let sector := entryAddr s.recBank s.nvm.writePtr / 4096 + 1
  if sector * 4096 < bankBase s.recBank + 0x20000 then s.eraseFlash (sector * 4096) 4096 else s

/-- A compaction starts when the active bank has fewer than 1,024 free entries (R364). -/
def State.compactDue (s : State) : State :=
  s.flag R.NVM_REC F.NVM_REC_COMPACT (s.nvm.bankValid && 4095 < s.nvm.writePtr + 1024)

/-- Whether no flash operation runs, so that the next in order may (R366). -/
def State.flashIdle (s : State) : Bool := s.nvm.op.isNone && s.on R.NVM_STATUS F.NVM_STATUS_READY

/-- Bytes 1 to 31 of an entry. -/
def recTail (seq : Nat) (e : RecEntry) : List Byte :=
  let body := leBytes 1 e.type ++ zeros 2 ++ leBytes 4 seq ++ slice e.payload 0 20
  body ++ leBytes 4 (crc32c body)

/-- The three programs of one entry at the write pointer; the entry that it replaces is then superseded (R363). -/
def State.writeEntry (s : State) (e : RecEntry) : State :=
  let b := s.recBank
  let a := entryAddr b s.nvm.writePtr
  let old := (s.usedEntries b).filter fun i =>
    let x := s.entryBytes b i
    entryState x == 0xFC && entryKey (entryType x) (entryPayload x) == entryKey e.type e.payload
  let seq := (s.nvm.entrySeq + 1) % 2 ^ 32
  let s := ((s.programFlash a [0xFE]).programFlash (a + 1) (recTail seq e)).programFlash a [0xFC]
  let s := s.each old fun s i => s.programFlash (entryAddr b i) [0xF8]
  let s := State.eraseAhead { s with nvm := { s.nvm with writePtr := s.nvm.writePtr + 1, entrySeq := seq } }
  s.compactDue

/-- Whether the record engine can write the next entry: a full bank waits for the compaction (R364). -/
def State.recordDue (s : State) : Bool :=
  s.flashIdle && s.nvm.bankValid && !s.nvm.recQueue.isEmpty && s.nvm.writePtr < 4095

/-- RECORD_WRITE: the record engine writes the entry at the head of its queue (R363). -/
def execRecordWrite (s : State) : Host.Outcome State Fault Refusal :=
  .next (s.inAo fun s =>
    match s.nvm.recQueue with
    | [] => s
    | e :: r => if s.recordDue then State.writeEntry { s with nvm := { s.nvm with recQueue := r } } e else s)

/-- Compaction (R364): the newest valid entry of each key goes into the other bank with its SEQ, and the header comes last. -/
def State.compact (s : State) : State :=
  let b := s.recBank
  let n := 1 - b
  let l := s.liveEntries b
  let seq := s.rd R.NVM_REC F.NVM_REC_BANKSEQ + 1
  let s := s.eraseFlash (bankBase n) 0x20000
  let s := s.each (List.zip (List.range l.length) l) fun s x => s.programFlash (entryAddr n x.1) x.2
  let s := s.programFlash (bankBase n) (bankHeader (seq % 2 ^ 32))
  let s := (s.wr R.NVM_REC F.NVM_REC_BANK n).wr R.NVM_REC F.NVM_REC_BANKSEQ seq
  State.compactDue { s with nvm := { s.nvm with writePtr := l.length } }

/-- COMPACTION (R364). -/
def execCompaction (s : State) : Host.Outcome State Fault Refusal :=
  .next (s.inAo fun s => if s.flashIdle && s.nvm.bankValid && s.on R.NVM_REC F.NVM_REC_COMPACT then s.compact else s)

/-- SEAL_EPOCH_PERSIST: the record write of the new epoch has completed, NOSEAL becomes 0, and the frames that waited for a seal go
on (R334). -/
def execSealEpochPersist (s : State) : Host.Outcome State Fault Refusal :=
  .next (s.inMain fun s =>
    if s.sec.sealPending && s.nvm.bankValid && !s.nvm.recQueue.any (·.type == 1) then
      let s := s.wr R.SEC_STATUS F.SEC_STATUS_NOSEAL 0
      State.pump { s with sec := { s.sec with sealPending := false } }
    else s)

/-! ## Flash commands (R365 to R367) -/

/-- The device size that commands may address: at most 16 MiB. -/
def State.flashSize (s : State) : Nat := min (2 ^ s.rd R.NVM_STATUS F.NVM_STATUS_LOG2SIZE) (2 ^ 24)

/-- Whether a range of flash touches another. -/
def rangesMeet (a n b k : Nat) : Bool := a < b + k && b < a + n

/-- Whether a command names the record banks, or programs or erases the slot of the running image while MAIN runs firmware. -/
def State.flashProtected (s : State) (op a n : Nat) : Bool :=
  rangesMeet a n 0x500000 0x40000 ||
  (op != 0 && s.mainUp && s.rd R.GLB_BOOT F.GLB_BOOT_STAGE == 5 &&
    rangesMeet a n (0x200000 * s.rd R.GLB_BOOT F.GLB_BOOT_SLOT) 0x200000)

/-- Whether a command's arguments are bad: OP 3, a program across a page, an erase that is not aligned, or an address out of
range. -/
def State.flashArgsBad (s : State) (op a n : Nat) : Bool :=
  let page := 2 ^ s.rd R.NVM_STATUS F.NVM_STATUS_LOG2PAGE
  op == 3 || (op == 1 && a / page != (a + n - 1) / page) || (op == 2 && a % 4096 != 0) || s.flashSize < a + n

/-- A refused command. (DEDUCED, assumption 48.) -/
def State.flashRefuse (s : State) (result : Nat) : State :=
  (s.wr R.NVM_STATUS F.NVM_STATUS_RESULT result).when (result != 6) fun s => s.inc R.NVM_ERR F.NVM_ERR_REFUSED

/-- A GO of NVM_CMD: ignored while BUSY = 1; refused with RESULT 6, 3 or 4; otherwise the operation starts. -/
def State.flashGo (s : State) (op a lenM1 : Nat) : State :=
  let s := ((s.wr R.NVM_CMD F.NVM_CMD_OP op).wr R.NVM_CMD F.NVM_CMD_ADDR a).wr R.NVM_CMD F.NVM_CMD_LENM1 lenM1
  let n := if op = 2 then 4096 else lenM1 + 1
  if s.on R.NVM_STATUS F.NVM_STATUS_BUSY then s
  else if !s.on R.NVM_STATUS F.NVM_STATUS_READY then s.flashRefuse 6
  else if s.flashProtected op a n then s.flashRefuse 3
  else if s.flashArgsBad op a n then s.flashRefuse 4
  else State.wr { s with nvm := { s.nvm with op := some ⟨op, a, n⟩ } } R.NVM_STATUS F.NVM_STATUS_BUSY 1

/-- NVM_READ (R366). -/
def execNvmRead (addr : BitVec 24) (lenM1 : Byte) (s : State) : Host.Outcome State Fault Refusal :=
  .next (s.inAo fun s => s.flashGo 0 addr.toNat lenM1.toNat)

/-- NVM_PROGRAM (R365, R366). -/
def execNvmProgram (addr : BitVec 24) (lenM1 : Byte) (s : State) : Host.Outcome State Fault Refusal :=
  .next (s.inAo fun s => s.flashGo 1 addr.toNat lenM1.toNat)

/-- NVM_ERASE (R366): an erase takes no length, and LENM1 keeps its value. -/
def execNvmErase (addr : BitVec 24) (s : State) : Host.Outcome State Fault Refusal :=
  .next (s.inAo fun s => s.flashGo 2 addr.toNat (s.rd R.NVM_CMD F.NVM_CMD_LENM1))

/-- The operation ends with a RESULT. -/
def State.flashEnd (s : State) (result : Nat) : State :=
  let s := { s with nvm := { s.nvm with op := none } }
  (s.wr R.NVM_STATUS F.NVM_STATUS_BUSY 0).wr R.NVM_STATUS F.NVM_STATUS_RESULT result

/-- The bytes of NVM_BUF. -/
def State.flashBuf (s : State) : List Byte := (List.range 32).flatMap fun w => leBytes 8 (s.reg (R.NVM_BUF w)).toNat

/-- Bytes read into NVM_BUF; the bytes past the length keep their value. -/
def State.fillBuf (s : State) (l : List Byte) : State :=
  let l := l ++ s.flashBuf.drop l.length
  s.each (List.range 32) fun s w => s.setReg (R.NVM_BUF w) (BitVec.ofNat 64 (leAt l (8 * w) 8))

/-- A program completes (R365): bytes that would set a bit refuse it with RESULT 1. Bytes that read back differently give RESULT
2, and hold free values (DESIGN CHOICE, assumption 2). (DEDUCED, assumption 48.) -/
def State.programDone (s : State) (o : FlashOp) (good : Bool) : State :=
  let new := s.flashBuf.take o.len
  let clears := (List.zip (s.flashBytes o.addr o.len) new).all fun x => x.1 &&& x.2 == x.2
  let result := (ev Sev.warn Src.nvm 0).field R.NVM_STATUS F.NVM_STATUS_RESULT
  if !clears then
    ((s.flashEnd 1).inc R.NVM_ERR F.NVM_ERR_REFUSED).record ((result.coded 1).about o.addr)
  else if good then (s.programFlash o.addr new).flashEnd 0
  else
    (((s.spoilFlash o.addr o.len).flashEnd 2).inc R.NVM_ERR F.NVM_ERR_VERIFY).record
      (((result.withSev Sev.fault).coded 2).about o.addr)

/-- NVM_DONE: the command in progress completes; `good` says whether a program's bytes read back right (R365, R366). -/
def execNvmDone (good : Bool) (s : State) : Host.Outcome State Fault Refusal :=
  .next (s.inAo fun s =>
    match s.nvm.op with
    | none => s
    | some o =>
      if o.op = 0 then (s.fillBuf (s.flashBytes o.addr o.len)).flashEnd 0
      else if o.op = 1 then s.programDone o good
      else (s.eraseFlash o.addr o.len).flashEnd 0)

/-- The Fault record of a timeout (R366). -/
def State.flashTimedOut (s : State) (a : Nat) : State :=
  (s.flashEnd 5).record
    ((((ev Sev.fault Src.nvm 0).field R.NVM_STATUS F.NVM_STATUS_RESULT).coded 5).about a)

/-- NVM_TIMEOUT: the operation in progress outlasts its maximum (R366). The bytes that a program or an erase was working on hold
free values (DESIGN CHOICE, assumption 2). With no command in progress it is the record write that is due: its entry is torn, and the record area
counts as one that cannot be written (R334, R354). -/
def execNvmTimeout (s : State) : Host.Outcome State Fault Refusal :=
  .next (s.inAo fun s =>
    match s.nvm.op with
    | some o => ((if o.op = 0 then s else s.spoilFlash o.addr o.len).flashTimedOut o.addr)
    | none =>
      if s.recordDue then
        let a := entryAddr s.recBank s.nvm.writePtr
        let s := ((s.programFlash a [0xFE]).spoilFlash (a + 1) 31).flashTimedOut a
        { s with nvm := { s.nvm with areaBad := true, bankValid := false, writePtr := s.nvm.writePtr + 1 } }
      else s)

/-- AO_RST_N cuts off a program or an erase in progress (R344): the bytes that it was working on hold free values (assumption
2). -/
def State.flashCut (s : State) : State :=
  match s.nvm.op with
  | some o => if o.op = 0 then s else s.spoilFlash o.addr o.len
  | none => s

end Sys2Proof.Machine
end

