-- ==== Sys2Proof/Machine/Reset.lean ====
section
/-! DEFINITION. The resets of MAIN (R13, R345 to R348, R428, R429), the start storm's counts, and the start of a logic BIST run (R408 to
R411), as operations. -/
namespace Sys2Proof.Machine

/-! ## MAIN enters reset -/

/-- The source instances that lie in the AO domain: their records reach the queue through a MAIN reset (R17). -/
def aoSource (src : Nat) : Bool := [Src.glb, Src.fus, Src.nvm, Src.mgb, Src.evr, Src.wpt, Src.tst].contains src

/-- Sets the cause of the last MAIN reset: PIN, WDOG, CMD or none (R349, R428). (DEDUCED, assumption 46.) -/
def State.resetCause (s : State) (f : Option Fld) : State :=
  let a := R.GLB_RSTCAUSE
  let s := ((s.wr a F.GLB_RSTCAUSE_PIN 0).wr a F.GLB_RSTCAUSE_WDOG 0).wr a F.GLB_RSTCAUSE_CMD 0
  match f with
  | some f => s.wr a f 1
  | none => s

/-- The ports that stay DOWN through a reset that does not come from RST_N (R297). (DEDUCED, assumption 46.) -/
def State.downPorts (s : State) (pin : Bool) : List Nat :=
  (List.range 8).filter fun q => !pin && s.on (R.MPT_STAT q) F.MPT_STAT_DOWN

/-- MAIN enters reset with the effects of R345: every MAIN register, engine, queue and buffer returns to reset, every PHYRST_p is
asserted, and the records that had not entered the recorder's queue are lost (R17). Member memory, the flash, the fuses, Ranger's local
memory and the AO domain keep their state. -/
def State.mainReset (s : State) (pin : Bool) : State :=
  let down := s.downPorts pin
  let s := { s with
    regs := s.regs.filter fun c => isAoAddr c.1
    nodeMap := [], glades := [], queues := [], tiles := [], frames := [], links := [], ports := [], images := [],
    keys := [], router := RouterState.reset, budget := BudgetState.reset, lane := LaneContext.reset,
    sec := { SecState.reset with burn := s.sec.burn },
    nvm := { s.nvm with configDue := false, commit := false },
    evr := { s.evr with holding := s.evr.holding.filter fun r => aoSource r.source },
    ao := { s.ao with mainRun := false, wdogArmed := false, phyReset := BitVec.allOnes 32 } }
  let s := s.each down fun s q => s.wr (R.MPT_STAT q) F.MPT_STAT_DOWN 1
  s.wr R.GLB_BOOT F.GLB_BOOT_STAGE (if s.on R.GLB_STORM F.GLB_STORM_HOLD then 7 else 0)

/-- Whether every reset condition of MAIN is clear (R13, R321, R322, R346, R379, R413, R428). -/
def State.canStart (s : State) : Bool :=
  !s.ao.aoReset && !s.ao.mainRun && (!s.ao.rstN || s.on R.GLB_RSTCTL F.GLB_RSTCTL_RSTIGN) && s.ao.vddMain && s.ao.clkCore &&
  s.ao.fuseSensed && !s.ao.fuseBad && s.lcs != 5 && !s.on R.GLB_STORM F.GLB_STORM_HOLD &&
  !s.on R.MGB_STATUS F.MGB_STATUS_ISOLATED && !s.ao.failed.contains 76

/-! ## The start storm (R348) -/

/-- What COUNT becomes at a start. -/
def State.startCount (s : State) : Nat :=
  match s.ao.startedAt with
  | some t => if t + 10000000 < s.now then 1 else s.rd R.GLB_STORM F.GLB_STORM_COUNT + 1
  | none => s.rd R.GLB_STORM F.GLB_STORM_COUNT + 1

/-- A hold-out of 2^LEVEL s: STAGE shows 7, a Fault record is written, and LEVEL rises, up to 6. -/
def State.holdOut (s : State) : State :=
  let l := s.rd R.GLB_STORM F.GLB_STORM_LEVEL
  let s := { s with ao := { s.ao with holdUntil := some (s.now + 1000000 * 2 ^ l) } }
  let s := (s.wr R.GLB_STORM F.GLB_STORM_HOLD 1).wr R.GLB_STORM F.GLB_STORM_LEVEL (min (l + 1) 6)
  (s.wr R.GLB_BOOT F.GLB_BOOT_STAGE 7).record ((ev Sev.fault Src.glb 0).field R.GLB_STORM F.GLB_STORM_HOLD)

/-- A hold-out ends; the next start has COUNT 1. -/
def State.holdEnd (s : State) : State :=
  let s := (s.wr R.GLB_STORM F.GLB_STORM_HOLD 0).wr R.GLB_STORM F.GLB_STORM_COUNT 0
  State.wr { s with ao := { s.ao with holdUntil := none } } R.GLB_BOOT F.GLB_BOOT_STAGE 0

/-! ## Logic BIST (R408 to R411) -/

/-- The kind of a partition. -/
def partKind (x : Nat) : Nat :=
  if x < 64 then 0 else if x = 64 then 1 else if x ≤ 72 then 2 else x - 70

/-- The partitions that TST_SELT and TST_SELX select; a disabled tile's selection is ignored. -/
def State.selection (s : State) : List Nat :=
  (List.range 64).filter (fun t => bitAt (s.reg R.TST_SELT).toNat t && !s.tileDisabled t) ++
  ((List.range 13).filter fun x => bitAt (s.reg R.TST_SELX).toNat x).map (64 + ·)

/-- Whether a test is in progress. -/
def State.testing (s : State) : Bool := s.on R.TST_STATUS F.TST_STATUS_BUSY || s.on R.TST_LTEST F.TST_LTEST_BUSY

/-- PLOG, within its limits. -/
def State.plog (s : State) : Nat := max 8 (s.rd R.TST_CTL F.TST_CTL_PLOG)

/-- A run starts over partitions; before the security unit is tested every key slot is cleared (R411). -/
def State.startRun (s : State) (l : List Nat) (plog : Nat) (rom boot : Bool) : State :=
  let s := s.wr R.TST_STATUS F.TST_STATUS_BUSY 1
  let s := if l.contains 75 then { s with keys := [] } else s
  { s with test := { s.test with running := l, plog := plog, rom := rom, boot := boot, laneView := false } }

/-- The first refusal of a run (R409), 0 when it is accepted. -/
def State.runRefusal (s : State) : Nat :=
  let l := s.selection
  let own := s.on R.TST_CTL F.TST_CTL_SEEDSEL
  if s.lcs = 5 then 1
  else if (List.range 16).any s.inGrove then 2
  else if own && (s.reg R.TST_SEED == 0 || l.any fun x => partKind x != partKind (l.headD 0)) then 3
  else if s.testing then 4
  else if l.isEmpty then 5
  else 0

/-- A GO of TST_CTL. -/
def State.bistGo (s : State) : State :=
  let r := s.runRefusal
  let s := s.wr R.TST_STATUS F.TST_STATUS_RESULT r
  if r ≠ 0 then s else s.startRun s.selection s.plog (!s.on R.TST_CTL F.TST_CTL_SEEDSEL) false

/-- Whether a partition's signature equals the expected one, and the signature (R410). The numbers of mask ROM and of the scan chains
are constants without a body (DESIGN CHOICE, assumption 2). (DESIGN CHOICE, assumption 63.) -/
def State.signature (s : State) (x plog : Nat) (rom : Bool) : Bool × Word :=
  let seed := if rom then Config.romSignature (partKind x) 0 else s.reg R.TST_SEED
  let want := if rom then Config.romSignature (partKind x) plog else s.reg R.TST_EXP
  let got := Config.bistSignature x seed plog s.free
  (got == want, got)

end Sys2Proof.Machine
end

