-- ==== Sys2Proof/Machine/Boot.lean ====
section
/-! DEFINITION. The boot of MAIN: the record area at a MAIN start (R362, R363, R398), the images (R352 to R354), the configuration
copies (R355, R356), and the rows AO_RST_N_ASSERT to CLK_CORE_RESTART. -/
namespace Sys2Proof.Machine

/-! ## The record area at a MAIN start (R305, R363, R398, R414) -/

/-- No bank is valid: Ranger erases sector 0 of bank 0 and writes a header with BANKSEQ 1. (DEDUCED, assumption 49.) -/
def State.newBank (s : State) : State :=
  let s := (s.eraseFlash (bankBase 0) 4096).programFlash (bankBase 0) (bankHeader 1)
  let s := (s.wr R.NVM_REC F.NVM_REC_BANK 0).wr R.NVM_REC F.NVM_REC_BANKSEQ 1
  let s := State.eraseAhead { s with nvm := { s.nvm with bankValid := true, writePtr := 0, entrySeq := 0 } }
  s.record (((ev Sev.note Src.nvm 0).field R.NVM_REC F.NVM_REC_BANKSEQ).about (bankBase 0))

/-- What Ranger does with an entry that counts. (PRESUMED, assumption 12.) -/
def State.loadEntry (s : State) (e : List Byte) : State :=
  let p := entryPayload e
  let t := leAt p 0 1 % 64
  match entryType e with
  | 1 => s.wr R.SEC_SEAL F.SEC_SEAL_EPOCH (leAt p 0 3)
  | 2 =>
    let a := R.TIL_REMAP t (leAt p 1 1 % 16)
    (s.wr a F.TIL_REMAP_WORD (leAt p 2 2)).wr a F.TIL_REMAP_VALID 1
  | 3 => s.inc (R.TIL_SRAMSTAT t) F.TIL_SRAMSTAT_RETFR
  | 4 => s.wr (R.TIL_SRAMSTAT t) F.TIL_SRAMSTAT_RETIRED 1
  | 6 =>
    let s := s.each (List.range 3) fun s w => s.setReg (R.EVR_LASTW w) (BitVec.ofNat 64 (leAt p (8 * w) 8))
    s.wr R.EVR_LASTST F.EVR_LASTST_VALID 1
  | _ => s

/-- The active bank is read: torn entries are counted, entries with a wrong CRC counted and recorded, and the entries that count are
loaded. -/
def State.loadBank (s : State) (b seq : Nat) : State :=
  let used := s.usedEntries b
  let raw := used.map fun i => (i, s.entryBytes b i)
  let torn := (raw.filter fun x => entryState x.2 == 0xFE).length
  let bad := raw.filter fun x => entryState x.2 == 0xFC && !entryCrcOk x.2
  let seqs := (raw.filter fun x => (entryState x.2 == 0xFC || entryState x.2 == 0xF8) && entryCrcOk x.2).map
    fun x => entrySeqNo x.2
  let live := s.liveEntries b
  let s := s.add R.NVM_ERR F.NVM_ERR_TORN torn
  let s := s.each bad fun s x => (s.inc R.NVM_ERR F.NVM_ERR_CRCBAD).record
    (((ev Sev.warn Src.nvm 0).field R.NVM_ERR F.NVM_ERR_CRCBAD).about (entryAddr b x.1))
  let s := (s.wr R.NVM_REC F.NVM_REC_BANK b).wr R.NVM_REC F.NVM_REC_BANKSEQ seq
  let s := { s with nvm := { s.nvm with bankValid := true, writePtr := (used.map (· + 1)).foldl max 0,
                                        entrySeq := seqs.foldl max 0 } }
  (s.each live State.loadEntry).eraseAhead.compactDue

/-- A Fault record of a boot error, with its code (R354). -/
def State.bootError (s : State) (err : Nat) : State :=
  (s.wr R.GLB_BOOT F.GLB_BOOT_ERR err).record
    (((ev Sev.fault Src.glb 0).field R.GLB_BOOT F.GLB_BOOT_ERR).coded err)

/-- The record area at a MAIN start. -/
def State.loadArea (s : State) : State :=
  if s.nvm.areaBad then State.bootError { s with nvm := { s.nvm with bankValid := false } } 9
  else match s.activeBank with
    | some (b, seq) => s.loadBank b seq
    | none => s.newBank

/-- Each enabled tile initialises its SRAM (R305), and each retired one is tested again (R414). -/
def State.initTiles (s : State) : State :=
  s.each ((List.range 64).filter fun t => !s.tileDisabled t) fun s t =>
    let s := s.wr (R.TIL_SRAMSTAT t) F.TIL_SRAMSTAT_INITDONE 1
    if s.on (R.TIL_SRAMSTAT t) F.TIL_SRAMSTAT_RETIRED then
      let pass := (s.signature t 13 true).1
      s.useFree.record ((ev (if pass then Sev.note else Sev.fault) Src.tst t).about t)
    else s

/-! ## Images (R352, R353) -/

/-- Where an image slot begins. -/
def slotBase (x : Nat) : Nat := 0x200000 * x

/-- The header of an image or a configuration copy. -/
def State.headerAt (s : State) (base : Nat) : List Byte := s.flashBytes base 512

/-- Whether bytes are all zero. -/
def allZero (l : List Byte) : Bool := l.all (· == 0)

/-- LENGTH of a header. -/
def hdrLength (h : List Byte) : Nat := leAt h 16 4
/-- KEYIDX of a header. -/
def hdrKey (h : List Byte) : Nat := leAt h 5 1
/-- VERSION of an image header, SEQ of a configuration header. -/
def hdrVersion (h : List Byte) : Nat := leAt h 8 8

/-- The payload behind a header. -/
def State.payloadAt (s : State) (base : Nat) : List Byte := s.flashBytes (base + 512) (hdrLength (s.headerAt base))

/-- Whether the digest of the payload is the header's. -/
def State.digestOk (s : State) (base : Nat) : Bool :=
  digestBytes (Config.sha384 (s.payloadAt base)) == slice (s.headerAt base) 32 48

/-- The zero fields that images and configuration copies share. -/
def sharedZeros (h : List Byte) : Bool :=
  allZero (slice h 272 240) && (hdrKey h != 0xFF || allZero (slice h 80 192))

/-- Check 4 of R353: a key that FUS_IKREV marks VALID and whose digest is the burnt one, or no key in Blank and Manufacturing. -/
def State.keyAccepted (s : State) (h : List Byte) : Bool :=
  if hdrKey h = 0xFF then s.lcs ≤ 1
  else hdrKey h ≤ 1 && bitAt (s.rd R.FUS_IKREV F.FUS_IKREV_VALID) (hdrKey h) &&
    s.signerKey (slice h 80 96) == some (hdrKey h)

/-- Check 5 of R353. -/
def sigAccepted (h : List Byte) : Bool := hdrKey h == 0xFF || Config.ecdsaVerify (slice h 80 96) (slice h 0 176) (slice h 176 96)

/-- The first check of R353 that an image slot fails, 0 when it is a candidate. -/
def State.imageCheck (s : State) (slot minver : Nat) : Nat :=
  let h := s.headerAt (slotBase slot)
  let grades := leAt h 7 1
  if leAt h 0 4 ≠ 0x4D495A43 || leAt h 4 1 ≠ 1 || 4 ≤ grades || 2 ≤ leAt h 24 1 || !allZero (slice h 25 7) ||
    !sharedZeros h || hdrLength h = 0 || 1572352 < hdrLength h then 1
  else if leAt h 6 1 ≠ 0xB0 || !bitAt grades (s.rd R.GLB_ID F.GLB_ID_GRADE) then 2
  else if hdrVersion h < minver then 3
  else if !s.keyAccepted h then 4
  else if !sigAccepted h then 5
  else 0

/-- The Warn record that names a slot and the check that it fails; 6 is the digest. (DEDUCED, assumption 50.) -/
def State.slotWarn (s : State) (slot check : Nat) : State :=
  s.record (((ev Sev.warn Src.nvm 0).coded check).about (slotBase slot))

/-- The candidates, in the order in which the ROM takes them. -/
def State.imageCandidates (s : State) (minver : Nat) : List Nat :=
  let v := fun x => hdrVersion (s.headerAt (slotBase x))
  (if v 0 < v 1 then [1, 0] else [0, 1]).filter fun x => s.imageCheck x minver == 0

/-- The first candidate whose digest matches; a mismatch writes a Warn record. -/
def State.takeImage (s : State) : List Nat → State × Option Nat
  | [] => (s, none)
  | x :: r => if s.digestOk (slotBase x) then (s, some x) else (s.slotWarn x 6).takeImage r

/-- Ranger's local memory takes an image's payload from address 0. -/
def State.loadLocal (s : State) (l : List Byte) : State :=
  s.each (List.range ((l.length + 7) / 8)) fun s i =>
    let old := (sget (fun _ => 0) s.rangerMem i).toNat
    let n := min 8 (l.length - 8 * i)
    let w : Word := BitVec.ofNat 64 (leAt l (8 * i) n + old / 2 ^ (8 * n) * 2 ^ (8 * n))
    { s with rangerMem := sset (fun _ => 0) s.rangerMem i w }

/-- An image is loaded: SLOT, UNSIGNED, VERSION and the first program address. -/
def State.loadImage (s : State) (slot : Nat) : State :=
  let h := s.headerAt (slotBase slot)
  let a := R.GLB_BOOT
  let s := s.loadLocal (s.payloadAt (slotBase slot))
  let s := ((s.wr a F.GLB_BOOT_SLOT slot).wr a F.GLB_BOOT_UNSIGNED (bit (hdrKey h == 0xFF))).wr a F.GLB_BOOT_VERSION (hdrVersion h)
  let s := s.wr R.RGR_PC F.RGR_PC_PC (leAt h 20 4)
  { s with nvm := { s.nvm with version := hdrVersion h, commit := leAt h 24 1 == 1 } }

/-! ## Configuration (R355, R356) -/

/-- Where a configuration copy begins. -/
def copyBase (c : Nat) : Nat := 0x400000 + 0x80000 * c

/-- Whether a configuration copy is valid (R355). -/
def State.copyValid (s : State) (c : Nat) : Bool :=
  let h := s.headerAt (copyBase c)
  let dev := leAt h 24 8
  leAt h 0 4 == 0x46435A43 && leAt h 4 1 == 1 && allZero (slice h 6 2) && sharedZeros h && hdrLength h ≤ 523776 &&
  s.keyAccepted h && sigAccepted h && s.digestOk (copyBase c) &&
  (if dev = 0 then decide (s.lcs ≤ 1) else s.rootAllowed && dev == s.deviceId)

/-- The valid copy with the higher SEQ, copy 0 when they are equal. -/
def State.pickCopy (s : State) : Option Nat :=
  let v := fun c => hdrVersion (s.headerAt (copyBase c))
  ((if v 0 < v 1 then [1, 0] else [0, 1]).filter s.copyValid).head?

/-- A configuration record: its TYPE and its value. -/
structure CfgRec where
  type : Nat
  value : List Byte
  deriving DecidableEq, Repr

/-- The records up to END, each padded to a multiple of 8 bytes, and whether one runs past the end (R356). -/
def cfgRecords : Nat → List Byte → List CfgRec × Bool
  | 0, _ => ([], false)
  | f + 1, l =>
    if l.isEmpty then ([], false)
    else if l.length < 4 || l.length < 4 + leAt l 2 2 then ([], true)
    else if leAt l 0 2 = 0 then ([], false)
    else
      let n := leAt l 2 2
      let r := cfgRecords f (l.drop ((4 + n + 7) / 8 * 8))
      (⟨leAt l 0 2, slice l 4 n⟩ :: r.1, r.2)

/-- The records of the copy in use. -/
def State.cfg (s : State) : List CfgRec × Bool :=
  match s.nvm.config with
  | some c =>
    let l := s.payloadAt (copyBase c)
    cfgRecords (l.length / 8 + 1) l
  | none => ([], false)

/-- The NODE record in force: a second one replaces the first. -/
def State.nodeRec (s : State) : Option (List Byte) :=
  ((s.cfg.1.filter fun r => r.type == 1 && r.value.length == 12).getLast?).map (·.value)

/-- LINKEN of the configuration in use. -/
def State.linkEn (s : State) : Nat :=
  match s.nodeRec with
  | some v => leAt v 8 4
  | none => 0

/-- A NODE record sets the PNID and bits [39:0] of the shape, as register writes. -/
def State.applyNode (s : State) (v : List Byte) : State :=
  (s.writeRtrSelf (BitVec.ofNat 64 (leAt v 0 2))).writeRtrShape (BitVec.ofNat 64 (leAt v 2 5))

/-! ## The boot stages (R343, R354, R357) -/

/-- A boot that cannot continue: STAGE 6 (R354). (DEDUCED, assumption 50.) -/
def State.bootFail (s : State) (err : Nat) : State := (s.bootError err).wr R.GLB_BOOT F.GLB_BOOT_STAGE 6

/-- STAGE 5: the firmware starts at ENTRY, the boot watchdog is disarmed, and LOADMS is fixed: a free value within the limit of
R343 (DESIGN CHOICE, assumption 2). -/
def State.startFirmware (s : State) : State :=
  let s := s.wr R.GLB_BOOT F.GLB_BOOT_LOADMS (s.freeVal.toNat % 41)
  let s := s.useFree.wr R.GLB_BOOT F.GLB_BOOT_STAGE 5
  { s with ao := { s.ao with wdogArmed := false }, nvm := { s.nvm with configDue := true } }

/-- The image is loaded; the configuration copy follows. -/
def State.bootConfig (s : State) : State :=
  match s.pickCopy with
  | some c =>
    let s := s.wr R.GLB_BOOT F.GLB_BOOT_CFGCOPY c
    State.startFirmware { s with nvm := { s.nvm with config := some c } }
  | none => State.startFirmware (State.bootError { s with nvm := { s.nvm with config := none } } 8)

/-- The stages from the record area on: the boot waits at STAGE 1 while flash discovery has not completed. -/
def State.runBoot (s : State) : State :=
  let derr := s.rd R.NVM_STATUS F.NVM_STATUS_DERR
  if derr ≠ 0 then s.bootFail derr
  else if !s.on R.NVM_STATUS F.NVM_STATUS_READY then s
  else
    let s := s.loadArea.initTiles
    let minver := if s.nvm.bankValid then leAt ((s.liveEntry s.recBank 5).getD []) 0 8 else 0
    let s := s.each [0, 1] fun s x =>
      if s.imageCheck x minver = 0 then s else s.slotWarn x (s.imageCheck x minver)
    match s.takeImage (s.imageCandidates minver) with
    | (s, some x) => (s.loadImage x).bootConfig
    | (s, none) => s.bootFail 7

/-- The partitions that are enabled. -/
def State.enabledParts (s : State) : List Nat := (List.range 77).filter fun x => 64 ≤ x || !s.tileDisabled x

/-- In Blank and Manufacturing every key slot holds the test key of 32 zero bytes (R328). (PRESUMED, assumption 45.) -/
def State.testKeys (s : State) : State :=
  if 1 < s.lcs then s
  else s.each (List.range 32) fun s x => s.updKs x fun k => { k with cur := some ⟨0, 0, false, 0⟩ }

/-- MAIN is released: STARTS counts the start, the boot watchdog is armed, and Ranger starts from mask ROM, after a run of logic BIST
when BOOTBIST = 1 (R343, R347, R414). -/
def State.releaseMain (s : State) : State :=
  let s := { s with ao := { s.ao with mainRun := true, wdogArmed := true, startedAt := some s.now } }
  let s := ((s.inc R.GLB_STORM F.GLB_STORM_STARTS).wr R.GLB_BOOT F.GLB_BOOT_STAGE 1).testKeys
  if s.on R.TST_CTL F.TST_CTL_BOOTBIST && !s.testing then s.startRun s.enabledParts 13 true true else s.runBoot

/-- MAIN starts once every reset condition is clear; a start that would make COUNT 9 becomes a hold-out (R348).
(DEDUCED, assumption 51.) -/
def State.tryStart (s : State) : State :=
  if !s.canStart then s
  else if 9 ≤ s.startCount then s.holdOut
  else (s.wr R.GLB_STORM F.GLB_STORM_COUNT s.startCount).releaseMain

/-- MAIN_START (R343). -/
def execMainStart (s : State) : Host.Outcome State Fault Refusal := .next (s.inAo State.tryStart)

/-- The DERR of what the SFDP says (R350), 0 when the device passes. -/
def sfdpError (t : Sfdp) : Nat :=
  if !t.signatureOk then 1
  else if !t.tableOk then 2
  else if !t.fastReadOk then 3
  else if !t.eraseOk then 4
  else if !t.addrOk then 5
  else if t.log2Size < 23 then 6
  else 0

/-- FLASH_DISCOVERY: once per release of AO_RST_N; a boot that waits for it goes on (R350, R354). -/
def execFlashDiscovery (t : Sfdp) (s : State) : Host.Outcome State Fault Refusal :=
  .next (s.inAo fun s =>
    let a := R.NVM_STATUS
    if s.on a F.NVM_STATUS_READY || s.on a F.NVM_STATUS_DERR then s
    else
      let e := sfdpError t
      let s := if e = 0 then
          ((s.wr a F.NVM_STATUS_READY 1).wr a F.NVM_STATUS_LOG2SIZE t.log2Size).wr a F.NVM_STATUS_LOG2PAGE t.log2Page
        else s.wr a F.NVM_STATUS_DERR e
      if s.mainUp && s.rd R.GLB_BOOT F.GLB_BOOT_STAGE = 1 && s.test.running.isEmpty then s.runBoot else s)

/-! ## Resets and pins (R342 to R348, R428, R429) -/

/-- AO_RST_N_ASSERT: both domains are in reset and every output is silent (R344). A burn, a program and an erase in progress are cut
off (R324). -/
def execAoRstNAssert (s : State) : Host.Outcome State Fault Refusal :=
  .next (s.inAo fun s =>
    let s := s.burnCut.flashCut
    { State.reset with
      mem := s.mem, flash := s.flash, fuses := s.fuses, rangerMem := s.rangerMem,
      sent := s.sent, free := s.free, pending := s.pending,
      ao := { AoState.reset with aoReset := true, rstN := s.ao.rstN, vddMain := s.ao.vddMain, clkCore := s.ao.clkCore,
                                 assertedAt := if s.ao.rstN then some 0 else none } })

/-- AO_RST_N_RELEASE: fuse sensing and flash discovery start, and the straps are sampled (R342, R370). -/
def execAoRstNRelease (straps : BitVec 6) (s : State) : Host.Outcome State Fault Refusal :=
  .next (if s.ao.aoReset || !s.ao.fuseSensed then
      State.wr { s with ao := { s.ao with aoReset := false } } R.MGB_STATUS F.MGB_STATUS_ADDR straps.toNat
    else s)

/-- FUSE_SENSING_DONE: once per release of AO_RST_N (R321). -/
def execFuseSensingDone (s : State) : Host.Outcome State Fault Refusal :=
  .next (s.inAo fun s => if s.ao.fuseSensed then s else s.senseFuses)

/-- An assertion of RST_N (R345). -/
def State.assertRst (s : State) : State :=
  let s := (s.mainReset true).resetCause (some F.GLB_RSTCAUSE_PIN)
  { s with ao := { s.ao with rstN := true, assertedAt := some s.now } }

/-- RST_N_ASSERT: a low pulse of fewer than 100 CLK_AO cycles is ignored and counted in GLITCH (R345). -/
def execRstNAssert (cycles : Nat) (s : State) : Host.Outcome State Fault Refusal :=
  .next (s.inAo fun s =>
    if s.ao.rstN then s
    else if cycles < 100 then s.inc R.GLB_RSTCAUSE F.GLB_RSTCAUSE_GLITCH
    else s.assertRst)

/-- RST_N_HELD (R346). -/
def execRstNHeld (s : State) : Host.Outcome State Fault Refusal :=
  .next (s.inAo fun s =>
    if s.ao.rstN && !s.on R.GLB_RSTCAUSE F.GLB_RSTCAUSE_HELD then
      (s.wr R.GLB_RSTCAUSE F.GLB_RSTCAUSE_HELD 1).record ((ev Sev.warn Src.glb 0).field R.GLB_RSTCAUSE F.GLB_RSTCAUSE_HELD)
    else s)

/-- RST_N_RELEASE: HELD and RSTIGN clear, and MAIN may start when no other reset condition holds (R346). A release with the supply
back in range also ends what VDD_MAIN_LOSS began (R14, R429). (DEDUCED, assumption 51.) -/
def execRstNRelease (s : State) : Host.Outcome State Fault Refusal :=
  .next (s.inAo fun s =>
    let s := (s.wr R.GLB_RSTCAUSE F.GLB_RSTCAUSE_HELD 0).wr R.GLB_RSTCTL F.GLB_RSTCTL_RSTIGN 0
    { s with ao := { s.ao with rstN := false, assertedAt := none, vddMain := true } })

/-- VDD_MAIN_LOSS: a fall of VDD_MAIN out of range acts as an assertion of RST_N while RST_N is released (R13, R429). -/
def execVddMainLoss (s : State) : Host.Outcome State Fault Refusal :=
  .next (s.inAo fun s =>
    let s := { s with ao := { s.ao with vddMain := false } }
    if s.ao.rstN then s.mainReset true else s.assertRst)

/-- HOLD_OUT_END: MAIN starts with COUNT 1, provided that nothing else holds it in reset (R348). -/
def execHoldOutEnd (s : State) : Host.Outcome State Fault Refusal :=
  .next (s.inAo fun s => if s.on R.GLB_STORM F.GLB_STORM_HOLD then s.holdEnd.tryStart else s)

/-- STORM_RESET: 60 s of MAIN running without a reset (R348). -/
def execStormReset (s : State) : Host.Outcome State Fault Refusal :=
  .next (s.inMain fun s => (s.wr R.GLB_STORM F.GLB_STORM_COUNT 0).wr R.GLB_STORM F.GLB_STORM_LEVEL 0)

/-- BOOT_WATCHDOG: STAGE has not reached 5 or 6 within 100 ms; the watchdog is paused while Ranger is halted (R347, R405). -/
def execBootWatchdog (s : State) : Host.Outcome State Fault Refusal :=
  .next (s.inMain fun s =>
    let st := s.rd R.GLB_BOOT F.GLB_BOOT_STAGE
    if s.ao.wdogArmed && st ≠ 5 && st ≠ 6 && !s.rangerHalted then
      ((s.mainReset false).resetCause (some F.GLB_RSTCAUSE_WDOG)).record
        ((ev Sev.fault Src.glb 0).field R.GLB_RSTCAUSE F.GLB_RSTCAUSE_WDOG)
    else s)

/-- A software reset of MAIN (R347). -/
def State.softReset (s : State) : State := (s.mainReset false).resetCause (some F.GLB_RSTCAUSE_CMD)

/-- A write of SWRST with a CONFIRM value; any other value has no effect. -/
def State.writeSwrst (s : State) (confirm : Nat) : State := if confirm = 0x0C5A0100 then s.softReset else s

/-- SWRST (R347). -/
def execSwrst (confirm : BitVec 32) (s : State) : Host.Outcome State Fault Refusal :=
  .next (s.inAo fun s => s.writeSwrst confirm.toNat)

/-- A write of RSTIGN: ignored while HELD = 0; otherwise MAIN starts as if RST_N had been released (R346). -/
def State.writeRstign (s : State) : State :=
  if s.on R.GLB_RSTCAUSE F.GLB_RSTCAUSE_HELD then (s.wr R.GLB_RSTCTL F.GLB_RSTCTL_RSTIGN 1).tryStart else s

/-- RSTIGN (R346). -/
def execRstign (s : State) : Host.Outcome State Fault Refusal := .next (s.inAo State.writeRstign)

/-- A write of HOCLR: a hold-out ends at once, and LEVEL becomes 0 (R348). -/
def State.writeHoclr (s : State) : State :=
  let s := s.wr R.GLB_STORM F.GLB_STORM_LEVEL 0
  if s.on R.GLB_STORM F.GLB_STORM_HOLD then s.holdEnd.tryStart else s

/-- HOCLR (R348). -/
def execHoclr (s : State) : Host.Outcome State Fault Refusal := .next (s.inAo State.writeHoclr)

/-- CLK_CORE_LOSS: while MAIN is released, it enters reset, and a Fatal record with SOURCE 0 and CODE 1 is written (R428). -/
def execClkCoreLoss (s : State) : Host.Outcome State Fault Refusal :=
  .next (s.inMain fun s =>
    let s := (s.mainReset false).resetCause none
    State.record { s with ao := { s.ao with clkCore := false } } (ev Sev.fatal Src.glb 0))

/-- CLK_CORE_RESTART: CLK_CORE has run again for 10 µs, so MAIN is released, and the start is counted (R428). -/
def execClkCoreRestart (s : State) : Host.Outcome State Fault Refusal :=
  .next (s.inAo fun s =>
    if s.ao.clkCore then s else State.tryStart { s with ao := { s.ao with clkCore := true } })

end Sys2Proof.Machine
end

