-- ==== Sys2Proof/Machine/Debug.lean ====
section
/-! DEFINITION. Halting Ranger (R338, R405 to R407): the rows HALT to DEBUG_MEMORY_ACCESS. Ranger's own instruction set is not in the
spec, so the address at which it halts and what a step executes are free values (DESIGN CHOICE, assumption 2). -/
namespace Sys2Proof.Machine

/-- A request made while halt, force and step are closed: ignored, REFUSED and a Warn record (R405). -/
def State.haltRefused (s : State) : State :=
  (s.wr R.RGR_DSTAT F.RGR_DSTAT_REFUSED 1).record ((ev Sev.warn Src.fw 0).field R.RGR_DSTAT F.RGR_DSTAT_REFUSED)

/-- Sets RGR_PC to an address that the spec does not give. -/
def State.freePc (s : State) : State := (s.wr R.RGR_PC F.RGR_PC_PC s.freeVal.toNat).useFree

/-- Ranger halts: every joined member of the node is fenced first, as FORCE does (R405). -/
def State.haltNow (s : State) (cause state : Nat) : State :=
  let s := s.forceFence 0xFFFF
  ((s.wr R.RGR_DSTAT F.RGR_DSTAT_STATE state).wr R.RGR_DSTAT F.RGR_DSTAT_CAUSE cause).freePc

/-- A halt that waits for LOCKS to reach 0. -/
def State.haltPend (s : State) (cause : Nat) : State :=
  (s.wr R.RGR_DSTAT F.RGR_DSTAT_STATE 1).wr R.RGR_DSTAT F.RGR_DSTAT_CAUSE cause

/-- A request to halt with a cause; a halted or halting Ranger takes no second one. -/
def State.haltRequest (s : State) (cause : Nat) : State :=
  if !s.haltOpen then s.haltRefused
  else if s.rd R.RGR_DSTAT F.RGR_DSTAT_STATE ≠ 0 then s
  else if s.locks = 0 then s.haltNow cause 2
  else s.haltPend cause

/-- A write of FORCE with a CONFIRM value; another value does not act. With locks held they are abandoned, and a Warn record names
their glades (R405). -/
def State.forceHalt (s : State) (confirm : Nat) : State :=
  if confirm ≠ 0x0C5A0400 then s
  else if !s.haltOpen then s.haltRefused
  else if s.rangerHalted then s
  else
    let l := s.locks
    if l = 0 then s.haltNow 2 2
    else
      let s := s.haltNow 2 3
      let s := s.each ((List.range 16).filter (bitAt l)) fun s g => s.updGl g fun e =>
        { e with agreement := none, serving := [] }
      s.record (((ev Sev.warn Src.fw 0).field R.RGR_DSTAT F.RGR_DSTAT_LOCKS).about l)

/-- A write of STEP: while halted, Ranger executes one instruction. (PRESUMED, assumption 52.) -/
def State.rangerStep (s : State) : State :=
  if !s.haltOpen then s.haltRefused
  else if s.rangerHalted then (s.wr R.RGR_DSTAT F.RGR_DSTAT_CAUSE 4).freePc
  else s

/-- A write of RESUME: a halted Ranger continues; fenced members stay fenced. (PRESUMED, assumption 52.) -/
def State.rangerResume (s : State) : State :=
  if s.rangerHalted then (s.wr R.RGR_DSTAT F.RGR_DSTAT_STATE 0).wr R.RGR_DSTAT F.RGR_DSTAT_CAUSE 0 else s

/-- HALT (R405). -/
def execHalt (s : State) : Host.Outcome State Fault Refusal := .next (s.inMain fun s => s.haltRequest 1)

/-- FORCE_HALT (R405). -/
def execForceHalt (confirm : BitVec 32) (s : State) : Host.Outcome State Fault Refusal :=
  .next (s.inMain fun s => s.forceHalt confirm.toNat)

/-- STEP (R405). -/
def execRangerStep (s : State) : Host.Outcome State Fault Refusal := .next (s.inMain State.rangerStep)

/-- RANGER_RESUME (R405). -/
def execRangerResume (s : State) : Host.Outcome State Fault Refusal := .next (s.inMain State.rangerResume)

/-- HALT_PROCEED: LOCKS has reached 0, and a pending halt proceeds (R405). -/
def execHaltProceed (s : State) : Host.Outcome State Fault Refusal :=
  .next (s.inMain fun s =>
    if s.rd R.RGR_DSTAT F.RGR_DSTAT_STATE = 1 && s.locks == 0 then s.haltNow (s.rd R.RGR_DSTAT F.RGR_DSTAT_CAUSE) 2 else s)

/-- HALT_PENDING_TIMEOUT: a halt still pending after 1 ms writes a Warn record and stays pending (R405). -/
def execHaltPendingTimeout (s : State) : Host.Outcome State Fault Refusal :=
  .next (s.inMain fun s =>
    if s.rd R.RGR_DSTAT F.RGR_DSTAT_STATE = 1 then
      s.record (((ev Sev.warn Src.fw 0).field R.RGR_DSTAT F.RGR_DSTAT_STATE).coded 1)
    else s)

/-- BREAKPOINT: Ranger comes to the address of breakpoint x; with EN = 1 it halts before that instruction (R406). -/
def execBreakpoint (x : Fin 4) (s : State) : Host.Outcome State Fault Refusal :=
  .next (s.inMain fun s =>
    let b := R.RGR_BKPT x.val
    if s.on b F.RGR_BKPT_EN && !s.rangerHalted then
      let s := s.haltRequest 3
      if s.rangerHalted then s.wr R.RGR_PC F.RGR_PC_PC (4 * s.rd b F.RGR_BKPT_ADDR) else s
    else s)

/-- Writes RGR_DDATA: the word of local memory at RGR_DADDR (R406). -/
def State.writeLocal (s : State) (v : Word) : State :=
  { s with rangerMem := sset (fun _ => 0) s.rangerMem (s.rd R.RGR_DADDR F.RGR_DADDR_ADDR) v }

/-- DEBUG_MEMORY_ACCESS: an access to RGR_DDATA through the register port; while Ranger runs it gets an error response (R406). -/
def execDebugMemoryAccess (write : Bool) (value : Word) (s : State) : Host.Outcome State Fault Refusal :=
  .next (s.inAo fun s =>
    match s.peek R.RGR_DDATA with
    | none => s.respond none
    | some v => if write then (s.writeLocal value).respond (some 0) else s.respond (some v))

end Sys2Proof.Machine
end

