-- ==== Sys2Proof/Machine/SelfTest.lean ====
section
/-! DEFINITION. Self-test (R408 to R418, R421): logic BIST runs, lane tests, the sensor sites, SRAM readout and the IEEE 1500
wrapper. -/
namespace Sys2Proof.Machine

/-! ## The end of a run (R410, R412, R413) -/

/-- The SRAM, contexts and staged frames of a tile after its test. -/
def State.freshTile (s : State) (t : Nat) : State :=
  let s := { s with frames := s.frames.filter fun f => f.tile != t }
  s.updTl t fun x => { x with contexts := [], gangAsked := false, gangGranted := false, rngPending := false, rngWaiting := 0, used := false }

/-- The PNID and the shape, loaded again from the configuration. -/
def State.reloadNode (s : State) : State :=
  match s.nodeRec with
  | some v =>
    let s := (s.wr R.RTR_SELF F.RTR_SELF_PNID (leAt v 0 2)).wr R.RTR_SELF F.RTR_SELF_SET 1
    s.setReg R.RTR_SHAPE (BitVec.ofNat 64 (leAt v 2 5) &&& rwMask R.RTR_SHAPE)
  | none => s

/-- The router after its test: buffers empty, credits, member map and registers at reset. -/
def State.freshRouter (s : State) : State :=
  let s := { s with
    regs := s.regs.filter fun c => c.1 < 0x140000 || 0x180000 ≤ c.1
    nodeMap := []
    router := { RouterState.reset with startup := s.router.startup, recovering := s.router.recovering, txid := s.router.txid } }
  let s := s.each (List.range 32) fun s p => s.updLk p fun l =>
    { l with usedReserved := [], usedShared := 0, oweReserved := [], oweShared := 0 }
  s.reloadNode

/-- The links of link group x go down, and those in LINKEN train again unless they are held. -/
def State.freshGroup (s : State) (x : Nat) : State :=
  s.each (List.range' (4 * (x - 65)) 4) fun s p =>
    let s := s.linkDown p
    if bitAt s.linkEn p then s.linkEnable p else s

/-- The memory ports and the budget unit after their test. -/
def State.freshMemory (s : State) : State :=
  let s := s.each (List.range 8) fun s q =>
    ((s.wr (R.MPT_STAT q) F.MPT_STAT_OUTRD 0).wr (R.MPT_STAT q) F.MPT_STAT_OUTWR 0).updPt q fun p => { p with retried := [] }
  { s with regs := s.regs.filter (fun c => c.1 < 0x1C1000 || 0x200000 ≤ c.1), budget := { s.budget with accounts := [], latched := [] } }

/-- A tested partition is reset and initialised again (R412); the reset of MAIN for partitions 74 to 76 follows the run. -/
def State.freshPart (s : State) (x : Nat) : State :=
  if !s.mainUp then s
  else if x < 64 then s.freshTile x
  else if x = 64 then s.freshRouter
  else if x ≤ 72 then s.freshGroup x
  else if x = 73 then s.freshMemory
  else s

/-- The register and field that show a partition's failure. -/
def failPlace (x : Nat) : Nat × Fld := if x < 64 then (R.TST_FAILT, F.TST_FAILT_TILES) else (R.TST_FAILX, F.TST_FAILX_OTHERS)

/-- A partition that fails (R413). (DEDUCED, assumption 47.) -/
def State.partFailed (s : State) (x : Nat) : State :=
  let p := failPlace x
  let s := s.setMask p.1 p.2 (x % 64)
  let sev := if x < 64 || (65 ≤ x && x ≤ 72) then Sev.fault else Sev.fatal
  let s := s.record (((ev sev Src.tst x).field p.1 p.2).about x)
  let s := { s with ao := { s.ao with failed := addOnce s.ao.failed x } }
  if x < 64 && s.mainUp then
    ((s.wr (R.TIL_SRAMSTAT x) F.TIL_SRAMSTAT_RETIRED 1).updTl x fun t => { t with retiring := true }).queueEntry 4 (leBytes 1 x)
  else if x = 64 || x = 73 then s.each (List.range 32) fun s q => s.linkDown q
  else s

/-- A partition that passes: its bit and what an earlier failure held are cleared. (DEDUCED, assumption 47.) -/
def State.partPassed (s : State) (x : Nat) : State :=
  let p := failPlace x
  let s := s.clearMask p.1 p.2 (x % 64)
  { s with ao := { s.ao with failed := s.ao.failed.filter (· != x) } }

/-- One partition of a run ends. -/
def State.partDone (s : State) (x : Nat) : State :=
  let r := s.signature x s.test.plog s.test.rom
  let s := s.useFree
  let s := { s with test := { s.test with sigs := sset (fun _ => 0) s.test.sigs x r.2 } }
  let s := if r.1 then s.partPassed x else s.partFailed x
  s.freshPart x

/-- The end of a run: a MAIN start goes on after its own run; a run that tested partition 74, 75 or 76 resets MAIN; a failed Ranger
keeps MAIN in reset (R412 to R414). -/
def State.runEnds (s : State) (l : List Nat) (boot : Bool) : State :=
  if boot then
    if s.ao.failed.contains 76 then s.mainReset false
    else if s.mainUp && s.rd R.GLB_BOOT F.GLB_BOOT_STAGE = 1 then s.runBoot
    else s
  else if l.any (74 ≤ ·) then (s.mainReset false).resetCause none
  else s

/-- BIST_GO: a write of GO to TST_CTL (R409). -/
def execBistGo (s : State) : Host.Outcome State Fault Refusal := .next (s.inAo State.bistGo)

/-- BIST_DONE (R410 to R414). -/
def execBistDone (s : State) : Host.Outcome State Fault Refusal :=
  .next (s.inAo fun s =>
    if !s.on R.TST_STATUS F.TST_STATUS_BUSY then s
    else
      let l := s.test.running
      let s := s.each l State.partDone
      let s := (s.wr R.TST_STATUS F.TST_STATUS_BUSY 0).wr R.TST_STATUS F.TST_STATUS_DONE 1
      State.runEnds { s with test := { s.test with running := [], boot := false } } l s.test.boot)

/-! ## Lane tests (R418) -/

/-- A GO of TST_LTEST: refused as codes 1, 2 and 4 of R409 state; otherwise the links of TST_SELT bits [31:0] are tested. -/
def State.laneTest (s : State) : State :=
  let r := if s.lcs = 5 then 1 else if (List.range 16).any s.inGrove then 2 else if s.testing then 4 else 0
  let s := s.wr R.TST_STATUS F.TST_STATUS_RESULT r
  if r ≠ 0 then s
  else
    let s := s.wr R.TST_LTEST F.TST_LTEST_BUSY 1
    { s with test := { s.test with links := (s.reg R.TST_SELT).toNat % 2 ^ 32 } }

/-- LANE_TEST (R418). -/
def execLaneTest (s : State) : Host.Outcome State Fault Refusal := .next (s.inAo State.laneTest)

/-- LANE_TEST_DONE: NOPART for the tested links without a partner, and the lane results of the others (R418). -/
def execLaneTestDone (noPartner : BitVec 32) (failed : List (BitVec 8)) (s : State) : Host.Outcome State Fault Refusal :=
  .next (s.inAo fun s =>
    if !s.on R.TST_LTEST F.TST_LTEST_BUSY then s
    else
      let no := noPartner.toNat &&& s.test.links
      let s := (s.wr R.TST_LTEST F.TST_LTEST_BUSY 0).wr R.TST_FAILT ⟨0, 32⟩ no
      let res := (List.range 32).map fun p =>
        if bitAt s.test.links p && !bitAt no p then failed.getD p 0 else 0
      { s with test := { s.test with laneView := true, laneFails := res } })

/-! ## Supply droop and timing replicas (R421) -/

/-- The severity of a site's record for one second, if it writes one. -/
def State.siteSev (s : State) (droops least : Nat) : Option Nat :=
  if least = 0 then some Sev.fatal
  else if least ≤ s.rd R.TST_MTHR F.TST_MTHR_SFAULT then some Sev.fault
  else if s.rd R.TST_MTHR F.TST_MTHR_DCWARN < droops || least ≤ s.rd R.TST_MTHR F.TST_MTHR_SWARN then some Sev.warn
  else none

/-- SITE_CHECK: one second of site x: its droop events, the deepest, the replica's slack and the least slack (R421). A failed capture
makes Ranger announce the node's departure. -/
def execSiteCheck (x : Fin 8) (droops deepest slack leastSlack : Nat) (s : State) : Host.Outcome State Fault Refusal :=
  .next (s.inMain fun s =>
    let a := R.TST_SITE x.val
    let least := min slack leastSlack
    let s := (s.add a F.TST_SITE_DCNT droops).raise a F.TST_SITE_DMAX (min deepest 255)
    let s := (s.wr a F.TST_SITE_SLK (min slack 255)).wr a F.TST_SITE_SLKMIN (min least (s.rd a F.TST_SITE_SLKMIN))
    let s := match s.siteSev droops least with
      | some v => s.record ((ev v Src.tst (128 + x.val)).field a (if s.rd R.TST_MTHR F.TST_MTHR_SWARN < least then F.TST_SITE_DCNT
          else F.TST_SITE_SLKMIN))
      | none => s
    if least = 0 then s.depart else s)

/-! ## SRAM readout (R338, R415) -/

/-- A read of TST_SRDATA: while readout is closed it returns zero with an error response and writes a Warn record. -/
def State.sramRead (s : State) : Option Word × State :=
  if !s.sramOpen then (none, s.record ((ev Sev.warn Src.tst 0).field R.TST_SRDATA F.TST_SRDATA_DATA))
  else (s.peek R.TST_SRDATA, s.useFree)

/-- SRAM_READOUT (R415). -/
def execSramReadout (s : State) : Host.Outcome State Fault Refusal :=
  .next (s.inAo fun s => s.sramRead.2.respond s.sramRead.1)

/-! ## The IEEE 1500 wrapper (R416, R417) -/

/-- The opcodes of the wrapper's instructions. -/
def wirOpen (lcs : Nat) (op : Nat) : Bool :=
  if op = 1 || op = 3 then lcs != 5
  else if op = 5 then lcs == 0 || lcs == 1 || lcs == 4
  else true

/-- The wrapper leaves its present instruction: after WS_EXTEST and WS_CLAMP MAIN goes into reset as R345 does. -/
def State.wirLeave (s : State) : State := if s.test.wir = 1 || s.test.wir = 3 then s.mainReset false else s

/-- The wrapper loads an instruction; a closed one loads WS_BYPASS and writes a Warn record. -/
def State.loadWir (s : State) (op : Nat) : State :=
  let s := if s.test.wir = op then s else s.wirLeave
  if wirOpen s.lcs op then { s with test := { s.test with wir := op } }
  else State.record { s with test := { s.test with wir := 0 } } (ev Sev.warn Src.tst 0)

/-- WS_BYPASS (R416). -/
def execWsBypass (s : State) : Host.Outcome State Fault Refusal := .next (s.inAo fun s => s.loadWir 0)

/-- WS_EXTEST (R416): the boundary register drives the outputs, and the core is isolated. -/
def execWsExtest (s : State) : Host.Outcome State Fault Refusal := .next (s.inAo fun s => s.loadWir 1)

/-- WS_PRELOAD (R416): the boundary register takes the cells shifted in. -/
def execWsPreload (cells : List Bool) (s : State) : Host.Outcome State Fault Refusal :=
  .next (s.inAo fun s =>
    let s := s.loadWir 2
    { s with test := { s.test with boundary := cells } })

/-- WS_CLAMP (R416): the outputs hold the preloaded values, with bypass selected. -/
def execWsClamp (s : State) : Host.Outcome State Fault Refusal := .next (s.inAo fun s => s.loadWir 3)

/-- The identification register (R417). -/
def idcode : BitVec 32 := 0x0C64BB4B

/-- WS_IDCODE (R416, R417): the identification register is what the wrapper then shifts out. -/
def execWsIdcode (s : State) : Host.Outcome State Fault Refusal :=
  .next (s.inAo fun s => (s.loadWir 4).send (.wso idcode.toNat))

/-- WS_INTEST_SCAN (R416): the scan chains are on WSI and WSO where R338 opens scan. -/
def execWsIntestScan (s : State) : Host.Outcome State Fault Refusal := .next (s.inAo fun s => s.loadWir 5)

/-- WS_BIST (R416): GO of TST_CTL with the current TST settings. -/
def execWsBist (s : State) : Host.Outcome State Fault Refusal := .next (s.inAo fun s => (s.loadWir 6).bistGo)

end Sys2Proof.Machine
end

