-- ==== Sys2Proof/Machine/Bus.lean ====
section
/-! DEFINITION. The management bus below its commands (R371 to R373, R380 to R385): bus states, identifiers, frames, notices and
beacons, and the rows DUPADDR to RESPONSE_HOLD_TIMEOUT. -/
namespace Sys2Proof.Machine

/-! ## Bus states (R383) -/

/-- The number of a bus: 0 for A, 1 for B. -/
def BusId.num : BusId → Nat
  | .a => 0
  | .b => 1

/-- The other bus. -/
def BusId.other : BusId → BusId
  | .a => .b
  | .b => .a

/-- The state field of a bus in MGB_STATUS. -/
def BusId.stateFld : BusId → Fld
  | .a => F.MGB_STATUS_STATEA
  | .b => F.MGB_STATUS_STATEB

/-- The enable bit of a bus in MGB_CTL. -/
def BusId.enFld : BusId → Fld
  | .a => F.MGB_CTL_ENA
  | .b => F.MGB_CTL_ENB

/-- The error register of a bus; MGB_ERRB has the fields of MGB_ERRA (R387). -/
def BusId.errReg : BusId → Nat
  | .a => R.MGB_ERRA
  | .b => R.MGB_ERRB

/-- The state of a bus: 0 OK, 1 PASSIVE, 2 LONE, 3 OFF, 4 BENCHED, 5 DISABLED, 6 SILENT. -/
def State.busState (s : State) (w : BusId) : Nat := s.rd R.MGB_STATUS w.stateFld

/-- Whether a bus is OK or PASSIVE. -/
def State.busUsable (s : State) (w : BusId) : Bool := s.busState w ≤ 1

/-- Sends a trail message on a bus. -/
def State.trail (s : State) (w : BusId) (id : Nat) (bytes : List Byte) : State := s.send (.trail w id bytes)

/-- An identifier with its BUS bit set for a bus (R372). -/
def idOn (w : BusId) (id : Nat) : Nat := id / 32 * 32 + 16 * w.num

/-- Responses that waited for a usable bus are sent on it (R385). -/
def State.flushHeld (s : State) : State :=
  match [BusId.a, BusId.b].find? s.busUsable with
  | none => s
  | some x =>
    let pick := fun h : HeldResponse => if s.busUsable h.bus then h.bus else x
    let s' := s.each s.bus.held fun s h => s.trail (pick h) (idOn (pick h) h.id) h.bytes
    { s' with bus := { s'.bus with held := [] } }

/-- A bus changes state: a Warn record, or a Note record on return to OK (R383). (DEDUCED, assumption 67.) -/
def State.setBusState (s : State) (w : BusId) (st : Nat) : State :=
  if s.busState w = st then s
  else
    let s := s.wr R.MGB_STATUS w.stateFld st
    let sev := if st = 0 then Sev.note else Sev.warn
    (s.record (((ev sev Src.mgb w.num).field R.MGB_STATUS w.stateFld).coded st)).flushHeld

/-- The state that a controller's fault confinement gives (R383). -/
def CanState.code : CanState → Nat
  | .errorActive => 0
  | .errorPassive => 1
  | .busOff => 3

/-- The bus-off times of the last second of a bus, the present one included. -/
def State.busOffs (s : State) (w : BusId) : List Nat :=
  let l := match w with
    | .a => s.bus.offsA
    | .b => s.bus.offsB
  l.filter (fun t => s.now < t + 1000000) ++ [s.now]

/-- A bus-off: counted; the fourth within 1 s benches the controller. -/
def State.busOff (s : State) (w : BusId) : State :=
  let l := s.busOffs w
  let s := s.inc w.errReg F.MGB_ERRA_BUSOFFS
  let s := match w with
    | .a => { s with bus := { s.bus with offsA := l } }
    | .b => { s with bus := { s.bus with offsB := l } }
  s.setBusState w (if 4 ≤ l.length then 4 else 3)

/-- BUS_STATE_CHANGE: the controller's fault confinement changes, and the bus state follows (R383). In LONE only a controller that is
error active again shows that a transmission has been acknowledged; BENCHED, DISABLED and SILENT end by their own rules.
(DEDUCED, assumption 53.) -/
def execBusStateChange (bus : BusId) (can : CanState) (tec rec : Nat) (s : State) : Host.Outcome State Fault Refusal :=
  .next (s.inAo fun s =>
    let s := (s.wr bus.errReg F.MGB_ERRA_TEC (min tec 255)).wr bus.errReg F.MGB_ERRA_REC (min rec 255)
    if 4 ≤ s.busState bus then s
    else match can with
      | .busOff => if s.busState bus = 3 then s else s.busOff bus
      | .errorPassive => if s.busState bus = 2 then s else s.setBusState bus 1
      | .errorActive => s.setBusState bus 0)

/-- BENCHED_END: after 10 s the controller rejoins as after recovery (R383). -/
def execBenchedEnd (bus : BusId) (s : State) : Host.Outcome State Fault Refusal :=
  .next (s.inAo fun s =>
    if s.busState bus = 4 then
      ((s.wr bus.errReg F.MGB_ERRA_TEC 0).wr bus.errReg F.MGB_ERRA_REC 0).setBusState bus 0
    else s)

/-- DUPADDR: a frame with DIR = 1 and the node's own address came in (R371). A bus that is DISABLED or SILENT receives nothing
(R384). -/
def execDupaddr (bus : BusId) (s : State) : Host.Outcome State Fault Refusal :=
  .next (s.inAo fun s =>
    if 5 ≤ s.busState bus then s
    else
      let s := (s.wr R.MGB_STATUS F.MGB_STATUS_DUPADDR 1).record
        ((ev Sev.fault Src.mgb bus.num).field R.MGB_STATUS F.MGB_STATUS_DUPADDR)
      s.setBusState bus 6)

/-- A write of MGB_CTL: a bus whose enable bit is 0 is DISABLED, and one whose bit is set again is OK (R383). -/
def State.writeMgbCtl (s : State) (v : Word) : State :=
  let s := s.plainWrite R.MGB_CTL v
  s.each [BusId.a, BusId.b] fun s w =>
    if s.busState w = 6 then s
    else if !s.on R.MGB_CTL w.enFld then s.setBusState w 5
    else if s.busState w = 5 then s.setBusState w 0
    else s

/-! ## Identifiers and lengths (R368, R372, R373) -/

/-- The identifier of a message from this node. -/
def State.trailId (s : State) (pri type seq : Nat) (w : BusId) : Nat :=
  2 ^ 26 * pri + 2 ^ 25 + 2 ^ 19 * s.rd R.MGB_STATUS F.MGB_STATUS_ADDR + 2 ^ 13 * type + 2 ^ 5 * seq + 16 * w.num

/-- The data lengths of CAN FD. -/
def dataLengths : List Nat := [0, 1, 2, 3, 4, 5, 6, 7, 8, 12, 16, 20, 24, 32, 48, 64]

/-- A message padded with zero bytes to the next length that R368 allows. -/
def padTrail (l : List Byte) : List Byte := slice l 0 ((dataLengths.find? (l.length ≤ ·)).getD l.length)

/-- A response goes on the bus of its command, else on the other, else it is held (R385). -/
def State.sendResponse (s : State) (w : BusId) (pri type seq : Nat) (bytes : List Byte) : State :=
  let bytes := padTrail bytes
  let id := s.trailId pri type seq
  if s.busUsable w then s.trail w (id w) bytes
  else if s.busUsable w.other then s.trail w.other (id w.other) bytes
  else { s with bus := { s.bus with held := s.bus.held ++ [⟨w, id w, bytes⟩] } }

/-- RESPONSE_HOLD_TIMEOUT: the response held longest is dropped after 2 ms (R385). -/
def execResponseHoldTimeout (s : State) : Host.Outcome State Fault Refusal :=
  .next (s.inAo fun s => { s with bus := { s.bus with held := s.bus.held.drop 1 } })

/-- LONE: a frame sent 16 times without an acknowledgement is abandoned and counted. A response or a notice is sent once on the other
bus where that is OK or PASSIVE; a notice is otherwise counted as dropped (R384). (DEDUCED, assumption 53.) -/
def execLone (bus : BusId) (s : State) : Host.Outcome State Fault Refusal :=
  .next (s.inAo fun s =>
    if !s.busUsable bus then s
    else
      let last := s.sent.reverse.findSome? fun x => match x with
        | .trail w id bytes => if w = bus then some (id, bytes) else none
        | _ => none
      let s := (s.inc bus.errReg F.MGB_ERRA_NOACK).setBusState bus 2
      match last with
      | none => s
      | some (id, bytes) =>
        let type := bitsOf id 13 6
        if type = 0x21 then s
        else if s.busUsable bus.other then s.trail bus.other (idOn bus.other id) bytes
        else if type = 0x20 then
          State.inc { s with bus := { s.bus with lost := min (s.bus.lost + 1) 0xFFFF } } R.MGB_CNT F.MGB_CNT_DROPPED
        else s)

/-! ## Notices (R380, R381, R385) -/

/-- The 48 bytes of a notice. -/
def Notice.bytes (n : Notice) (lost : Nat) : List Byte :=
  leBytes 1 1 ++ leBytes 1 n.kind ++ leBytes 2 lost ++ leBytes 4 n.nseq ++ slice n.body 0 32 ++ leBytes 8 n.time

/-- The notice that is sent next: highest severity first, and oldest first within a severity. -/
def State.nextNotice (s : State) : Option Notice :=
  [Sev.fatal, Sev.fault, Sev.warn, Sev.note].findSome? fun v => s.bus.notices.find? (·.sev == v)

/-- The bus of a notice: the first of PREF and the other that is OK, failing that the first that is PASSIVE. -/
def State.noticeBus (s : State) : Option BusId :=
  let l := if s.on R.MGB_CTL F.MGB_CTL_PREF then [BusId.b, BusId.a] else [BusId.a, BusId.b]
  (l.find? fun w => s.busState w == 0).or (l.find? fun w => s.busState w == 1)

/-- NOTICE_SEND (R380, R381). -/
def execNoticeSend (s : State) : Host.Outcome State Fault Refusal :=
  .next (s.inAo fun s =>
    match s.nextNotice, s.noticeBus with
    | some n, some w =>
      if s.bus.tokens = 0 then s
      else
        let s := s.trail w (s.trailId (7 - n.sev) 0x20 0 w) (n.bytes s.bus.lost)
        { s with bus := { s.bus with notices := s.bus.notices.erase n, lost := 0, tokens := s.bus.tokens - 1 } }
    | _, _ => s)

/-- NOTICE_TOKEN_REFILL: one token, up to the bucket's depth of 8 (R381). -/
def execNoticeTokenRefill (s : State) : Host.Outcome State Fault Refusal :=
  .next (s.inAo fun s => { s with bus := { s.bus with tokens := min 8 (s.bus.tokens + 1) } })

/-! ## Beacons (R382) -/

/-- The 16 bytes of a beacon. -/
def State.beaconBytes (s : State) : List Byte :=
  let g := fun a f => s.rd a f
  let named := s.mainUp && s.on R.RTR_SELF F.RTR_SELF_SET
  let state := g R.GLB_BOOT F.GLB_BOOT_STAGE + 16 * s.lcs + 128 * g R.GLB_ID F.GLB_ID_GRADE
  let flags := maskOf [s.on R.MGB_STATUS F.MGB_STATUS_ISOLATED, s.on R.GLB_STORM F.GLB_STORM_HOLD,
    s.on R.GLB_RSTCAUSE F.GLB_RSTCAUSE_HELD, s.ao.firebreak, s.irq, named]
  leBytes 1 1 ++ leBytes 1 state ++ leBytes 1 flags ++ leBytes 1 (s.busState .a + 8 * s.busState .b) ++
  leBytes 2 (if named then s.pnid else 0xFFFF) ++ leBytes 2 s.bus.notices.length ++ leBytes 8 s.now

/-- BUS_BEACON: each enabled bus that is not SILENT carries a beacon (R382); a controller that is bus-off or benched sends
nothing (R368, R383). -/
def execBusBeacon (s : State) : Host.Outcome State Fault Refusal :=
  .next (s.inAo fun s =>
    let bytes := s.beaconBytes
    s.each ([BusId.a, BusId.b].filter fun w => s.busState w ≤ 2) fun s w => s.trail w (s.trailId 6 0x21 0 w) bytes)

end Sys2Proof.Machine
end

