-- ==== Sys2Proof/Machine/Registers.lean ====
section
/-! DEFINITION. The register front end (R6 to R10, R15, R425): what a write and a read of every register do, shared by the register
port, the management bus and Ranger's configuration records, and the rows REGISTER_WRITE, RC_FIELD_READ and
REGISTER_ACCESS_WITHDRAW. -/
namespace Sys2Proof.Machine

/-- The index of an address in an array of registers. -/
def idxIn (a base stride n : Nat) : Option Nat :=
  if base ≤ a && (a - base) % stride == 0 && (a - base) / stride < n then some ((a - base) / stride) else none

/-- Whether EN of glade g is 1. -/
def State.gldEn (s : State) (g : Nat) : Bool := s.on (R.GLD_CTL g) F.GLD_CTL_EN

/-! ## Writes, block by block -/

/-- A write of GLB_RSTCTL (R346 to R348): SWRST, then RSTIGN, then HOCLR. -/
def State.writeRstctl (s : State) (v : Word) : State :=
  let s := if fget v F.GLB_RSTCTL_SWRST = 1 then s.writeSwrst (fget v F.GLB_RSTCTL_CONFIRM) else s
  let s := if fget v F.GLB_RSTCTL_RSTIGN = 1 then s.writeRstign else s
  if fget v F.GLB_RSTCTL_HOCLR = 1 then s.writeHoclr else s

/-- A write in the PHS block (R47 to R61). -/
def State.writePhs (s : State) (a : Nat) (v : Word) : State :=
  if a = R.PHS_ADV then s.writePhsAdv v
  else if a = R.PHS_SEL then s.writePhsSel v
  else match idxIn a (R.PHS_GSEG 0) 8 16, idxIn a (R.PHS_TBL 0) 8 64 with
    | some g, _ => s.writePhsGseg g v
    | none, some e => s.writePhsTbl e v
    | none, none => s.plainWrite a v

/-- A write of GLD[g]_CTL (R23, R26, R27): the fields that EN = 1 guards, then EN. -/
def State.writeGldCtl (s : State) (g : Nat) (v : Word) : State :=
  let a := R.GLD_CTL g
  let was := s.gldEn g
  let s := s.guardedWrite was Src.gld g a (fput v F.GLD_CTL_EN (if was then 1 else 0))
  if fget v F.GLD_CTL_EN = 1 then s.gladeEnable g else s.gladeDisable g

/-- A write in the block GLD[g] (R24 to R26, R224, R225); `o` is the offset in the block. -/
def State.writeGld (s : State) (g o a : Nat) (v : Word) : State :=
  if o = 0 then s.writeGldCtl g v
  else if o = 0x008 || o = 0x010 || (0x020 ≤ o && o < 0x080) || o = 0x110 || o = 0x120 then s.guardedWrite (s.gldEn g) Src.gld g a v
  else if o = 0x080 then (if s.gldEn g then s else s.plainWrite a v)
  else if o = 0x100 then s.writeSbctl g v
  else s.plainWrite a v

/-- A node whose own PNID is a valid entry of its own spare list for a glade that it is no member of shows spare state 5 (R159,
R160). (DEDUCED, assumption 56.) -/
def State.refreshSpare (s : State) (g : Nat) : State :=
  let named := (List.range 16).any fun x =>
    bitAt (s.rd (R.GRV_SPAREV g) F.GRV_SPAREV_VALID) x && bitsOf (s.reg (R.GRV_SPARE g (x / 4))).toNat (16 * (x % 4)) 16 == s.pnid
  let st := s.mstate g
  if s.gldEn g || (st != 0 && st != 5) then s
  else s.setMstate g (if named && s.on R.RTR_SELF F.RTR_SELF_SET then 5 else 0)

/-- A write of GRV_CPCMD (R202): GLADE, then LOAD, then ABORT. -/
def State.writeCpcmd (s : State) (v : Word) : State :=
  let s := s.plainWrite R.GRV_CPCMD v
  let g := s.rd R.GRV_CPCMD F.GRV_CPCMD_GLADE
  let s := if fget v F.GRV_CPCMD_LOAD = 1 then s.planLoad g else s
  if fget v F.GRV_CPCMD_ABORT = 1 then s.planAbort g else s

/-- A write in the GRV block (R159, R172, R202, R217, R220). -/
def State.writeGrv (s : State) (a : Nat) (v : Word) : State :=
  if a = R.GRV_FENCE then s.forceFence (fget v F.GRV_FENCE_FORCE)
  else if a = R.GRV_CPCMD then s.writeCpcmd v
  else if 0x040500 ≤ a && a < 0x040580 then (s.plainWrite a v).refreshSpare ((a - 0x040500) / 8)
  else if 0x040600 ≤ a && a < 0x040800 then (s.plainWrite a v).refreshSpare ((a - 0x040600) / 32)
  else match idxIn a (R.GRV_WIMG_CTL 0) 32 16, idxIn a (R.GRV_WIMG_USE 0) 32 16 with
    | some i, _ => s.writeWimgCtl i v
    | none, some i => if fget v F.GRV_WIMG_USE_TOUCH = 1 then s.imgUse i else s
    | none, none => s.plainWrite a v

/-- A write of STP_GCTL[g] (R86): POLICY 3 is ignored and recorded. -/
def State.writeGctl (s : State) (g : Nat) (v : Word) : State :=
  let a := R.STP_GCTL g
  if fget v F.STP_GCTL_POLICY = 3 then
    (s.record ((ev Sev.warn Src.stp g).field a F.STP_GCTL_POLICY)).plainWrite a
      (fput v F.STP_GCTL_POLICY (s.rd a F.STP_GCTL_POLICY))
  else s.plainWrite a v

/-- A write in the STP block (R86, R87, R97). -/
def State.writeStp (s : State) (a : Nat) (v : Word) : State :=
  match idxIn a (R.STP_GCTL 0) 8 16, idxIn a (R.STP_SEEDLO 0) 8 16, idxIn a (R.STP_SEEDHI 0) 8 16,
    idxIn a (R.STP_SLOT 0) 8 256, idxIn a (R.STP_PMEM 0) 8 1024 with
  | some g, _, _, _, _ => s.writeGctl g v
  | _, some g, _, _, _ => s.guardedWrite (s.gldEn g) Src.stp g a v
  | _, _, some g, _, _ => s.guardedWrite (s.gldEn g) Src.stp g a v
  | _, _, _, some x, _ => s.writeSlot x v
  | _, _, _, _, some w => s.writePmem w v
  | _, _, _, _, _ => s.plainWrite a v

/-- A write in the CQ block (R136 to R139). -/
def State.writeCq (s : State) (a : Nat) (v : Word) : State :=
  match idxIn a (R.CQ_GSRC 0) 8 16, idxIn a (R.CQ_QBASE 0) 32 16, idxIn a (R.CQ_QTAIL 0) 32 16, idxIn a (R.CQ_QCTL 0) 32 16 with
  | some g, _, _, _ => (s.guardedWrite (s.gldEn g) Src.cq 0 a v)
  | _, some q, _, _ => s.writeQbase q v
  | _, _, some q, _ => s.writeQtail q v
  | _, _, _, some q => s.writeQctl q v
  | _, _, _, _ => s.plainWrite a v

/-- A write in the block TIL[t] (R116, R304): a disabled tile ignores it (R2). -/
def State.writeTil (s : State) (t a : Nat) (v : Word) : State :=
  if s.tileDisabled t then s
  else match idxIn a (R.TIL_RNGIN t 0) 8 4 with
    | some w => s.writeRngin t w v
    | none => s.plainWrite a v

/-- Whether a map entry lies in the segment of an active glade (R287). -/
def State.entryClosed (s : State) (i : Nat) : Bool :=
  s.activeGlades.any fun g =>
    (i + 65536 - s.rd (R.RTR_MAPCFG g) F.RTR_MAPCFG_BASE) % 65536 < s.rd (R.RTR_MAPCFG g) F.RTR_MAPCFG_COUNT

/-- A write of RTR_MAPDATA (R287). -/
def State.writeMapdata (s : State) (v : Word) : State :=
  let i := s.rd R.RTR_MAPADDR F.RTR_MAPADDR_INDEX
  let e : MapEntry := ⟨fget v F.RTR_MAPDATA_PNID, fget v F.RTR_MAPDATA_VALID == 1⟩
  if e = s.mapEntry i then s
  else if s.entryClosed i then
    s.record ((ev Sev.warn Src.rtr 0).field R.RTR_MAPDATA
      (if e.pnid = (s.mapEntry i).pnid then F.RTR_MAPDATA_VALID else F.RTR_MAPDATA_PNID))
  else s.setMapEntry i e

/-- A write in the RTR block (R274, R287). -/
def State.writeRtr (s : State) (a : Nat) (v : Word) : State :=
  if a = R.RTR_SELF then s.writeRtrSelf v
  else if a = R.RTR_SHAPE then s.writeRtrShape v
  else if a = R.RTR_MAPDATA then s.writeMapdata v
  else match idxIn a (R.RTR_MAPCFG 0) 8 16 with
    | some g => s.guardedWrite (s.active g) Src.rtr 0 a v
    | none => s.plainWrite a v

/-- A write in the block LNK[p] (R267, R270). -/
def State.writeLnk (s : State) (p o a : Nat) (v : Word) : State :=
  if o = 0 then (s.writeLnkCtl p v).pump
  else if o = 0x020 then (if fget v F.LNK_TRIM_REQ = 1 then s.retrim p else s)
  else s.plainWrite a v

/-- A write in the MPT and BGT blocks (R297, R311, R319). -/
def State.writeMptBgt (s : State) (a : Nat) (v : Word) : State :=
  if a < 0x1C0800 && a % 0x100 = 0 then
    s.guardedWrite (!s.activeGlades.isEmpty) Src.mpt ((a - 0x1C0000) / 0x100) a v
  else if 0x1C1100 ≤ a && a < 0x1C1200 then s.writeBudget ((a - 0x1C1100) / 64) a v
  else if 0x1C1200 ≤ a && a < 0x1C1220 then s.writeBudget ((a - 0x1C1200) / 8) a v
  else if a = R.BGT_AUDCTL then s.writeAudctl v
  else s.plainWrite a v

/-- A write in the SEC block (R330, R339): a write without GO only sets ADDR. -/
def State.writeSec (s : State) (a : Nat) (v : Word) : State :=
  if a = R.SEC_KLOAD && fget v F.SEC_KLOAD_GO = 1 then s.keyLoad (64 * fget v F.SEC_KLOAD_ADDR)
  else if a = R.SEC_TOKEN && fget v F.SEC_TOKEN_GO = 1 then s.token (64 * fget v F.SEC_TOKEN_ADDR)
  else s.plainWrite a v

/-- A write in the FUS block (R323 to R325). -/
def State.writeFus (s : State) (a : Nat) (v : Word) : State :=
  if a = R.FUS_LCCMD then s.lifeCycle (fget v F.FUS_LCCMD_TARGET) (fget v F.FUS_LCCMD_CONFIRM)
  else if a = R.FUS_PCMD && fget v F.FUS_PCMD_GO = 1 then
    s.groupBurn (fget v F.FUS_PCMD_GROUP) (64 * fget v F.FUS_PCMD_ADDR)
  else s.plainWrite a v

/-- A write of RGR_DCTL (R405): FORCE, then HALT, then STEP, then RESUME. -/
def State.writeDctl (s : State) (v : Word) : State :=
  let s := if fget v F.RGR_DCTL_FORCE = 1 then s.forceHalt (fget v F.RGR_DCTL_CONFIRM) else s
  let s := if fget v F.RGR_DCTL_HALT = 1 then s.haltRequest 1 else s
  let s := if fget v F.RGR_DCTL_STEP = 1 then s.rangerStep else s
  if fget v F.RGR_DCTL_RESUME = 1 then s.rangerResume else s

/-- A write in the RGR block (R406, R407). -/
def State.writeRgr (s : State) (a : Nat) (v : Word) : State :=
  if a = R.RGR_DCTL then s.writeDctl v
  else if a = R.RGR_DDATA then s.writeLocal v
  else s.plainWrite a v

/-- A write in the NVM block (R366, R367). -/
def State.writeNvm (s : State) (a : Nat) (v : Word) : State :=
  if a = R.NVM_CMD && fget v F.NVM_CMD_GO = 1 then
    s.flashGo (fget v F.NVM_CMD_OP) (fget v F.NVM_CMD_ADDR) (fget v F.NVM_CMD_LENM1)
  else s.plainWrite a v

/-- A write in the WPT block (R400 to R404). -/
def State.writeWpt (s : State) (a : Nat) (v : Word) : State :=
  if a = R.WPT_CTL then s.writeWptCtl v
  else if 0x344000 ≤ a && a < 0x348000 then s.writeWptMap a v
  else s.plainWrite a v

/-- A write in the TST block (R409, R415, R418): the RW fields, then GO. -/
def State.writeTst (s : State) (a : Nat) (v : Word) : State :=
  let s := s.plainWrite a v
  if a = R.TST_CTL && fget v F.TST_CTL_GO = 1 then s.bistGo
  else if a = R.TST_LTEST && fget v F.TST_LTEST_GO = 1 then s.laneTest
  else s

/-- A write of a register of an AO block. -/
def State.writeAo (s : State) (a : Nat) (v : Word) : State :=
  if a = R.GLB_RSTCTL then s.writeRstctl v
  else if a < 0x010000 then s.plainWrite a v
  else if a < 0x240000 then s.writeFus a v
  else if a < 0x2C0000 then s.writeNvm a v
  else if a = R.MGB_CTL then s.writeMgbCtl v
  else if a = R.EVR_CUR then s.writeCursor v
  else if 0x340000 ≤ a && a < 0x380000 then s.writeWpt a v
  else if 0x380000 ≤ a then s.writeTst a v
  else s.plainWrite a v

/-- A write of a register of a MAIN block. -/
def State.writeMain (s : State) (a : Nat) (v : Word) : State :=
  if a < 0x020000 then s.writePhs a v
  else if a < 0x040000 then s.writeGld ((a - 0x020000) / 0x1000) (a % 0x1000) a v
  else if a < 0x080000 then s.writeGrv a v
  else if a < 0x0C0000 then s.writeStp a v
  else if a < 0x100000 then s.writeCq a v
  else if a < 0x140000 then s.writeTil ((a - 0x100000) / 0x1000) a v
  else if a < 0x180000 then s.writeRtr a v
  else if a < 0x1C0000 then s.writeLnk ((a - 0x180000) / 0x1000) (a % 0x1000) a v
  else if a < 0x200000 then s.writeMptBgt a v
  else if a < 0x201000 then s.writeSec a v
  else s.writeRgr a v

/-! ## One access (R6, R7, R10, R15) -/

/-- Whether a write gets an error response: a misaligned address, one that holds no register, the peek alias, a block that does not
answer, or Ranger's local memory while it is closed. -/
def State.writeErr (s : State) (a : Nat) : Bool :=
  a % 8 != 0 || !isReg a || !s.answers a || (a == R.RGR_DDATA && !(s.rangerHalted && s.haltOpen))

/-- A write of a register: whether it is answered without an error, and its effect. -/
def State.writeReg (s : State) (a : Nat) (v : Word) : Bool × State :=
  if s.writeErr a then (false, s)
  else (true, if isAoAddr a then s.writeAo a v else s.writeMain a v)

/-- The generator's output for a read that does not wait on the port (R116). (DEDUCED, assumption 54.) -/
def State.rngSettle (s : State) (a : Nat) : State :=
  match tileOfAddr a with
  | some t => if s.answers a && (a = R.TIL_RNGOUT0 t || a = R.TIL_RNGOUT1 t) && (s.tl t).rngPending then s.rngDone t else s
  | none => s

/-- A read of a register: its value, `none` for an error response, and its side effects. -/
def State.readReg (s : State) (a : Nat) : Option Word × State :=
  if 0x800000 ≤ a then (s.peek (a - 0x800000), s)
  else if a = R.TST_SRDATA then s.sramRead
  else
    let s := s.rngSettle a
    match s.peek a with
    | none => (none, s)
    | some w =>
      if R.EVR_WIN 0 ≤ a && a ≤ R.EVR_WIN 3 then
        let s := if a = R.EVR_WIN 3 then s.readWin3 else s.readWin ((a - R.EVR_WIN 0) / 8)
        (some s.ao.rspData, s)
      else (some w, s.setReg a (readByCode a (s.reg a)))

/-- Whether a write is closed to the management bus (R377): keys, tokens, fuse burns, and an MGB_CTL that would disable both
buses. -/
def busClosed (a : Nat) (v : Word) : Bool :=
  a == R.SEC_KLOAD || a == R.SEC_TOKEN || a == R.FUS_LCCMD || a == R.FUS_PCMD || 0x800000 ≤ a ||
  (a == R.MGB_CTL && fget v F.MGB_CTL_ENA == 0 && fget v F.MGB_CTL_ENB == 0)

/-- Ranger firmware writes a record (R356). -/
def State.fwRecord (s : State) (e : Ev) : State := s.useFree.record e

/-- Whether a write is closed to a REGW record (R356): SEC, FUS, NVM, TST, GLB_RSTCTL, the peek alias and every GLD[g]_CTL. -/
def cfgClosed (a : Nat) : Bool :=
  (0x200000 ≤ a && a < 0x240000) || (0x280000 ≤ a && a < 0x2C0000) || (0x380000 ≤ a && a < 0x3C0000) || a == R.GLB_RSTCTL ||
  (0x800000 ≤ a && a < 0x1000000) || (0x020000 ≤ a && a < 0x030000 && a % 0x1000 == 0)

/-- A REGW record's write: a closed one is skipped with a Warn record (R356), which names the written register (R388). -/
def State.cfgWrite (s : State) (a : Nat) (v : Word) : State :=
  if cfgClosed a then s.fwRecord { s.fwEv Sev.warn with reg := a, bit := firstChanged a (s.reg a) (writeByCode a (s.reg a) v) }
  else (s.writeReg a v).2

/-- A write by one of the front end's users. The register port is answered; the bus's answer is the command's (R374). -/
def State.accessWrite (s : State) (via : Via) (a : Nat) (be : Byte) (v : Word) : State :=
  match via with
  | .port =>
    if be ≠ 0xFF then s.respond none
    else
      let r := s.writeReg a v
      r.2.respond (if r.1 then some 0 else none)
  | .bus => if busClosed a v then s else (s.writeReg a v).2
  | .config => s.cfgWrite a v

/-- A read by one of the front end's users. A read of a generator's output through the port waits for it (R116). -/
def State.accessRead (s : State) (via : Via) (a : Nat) (be : Byte) : State :=
  match via with
  | .port =>
    if be ≠ 0xFF then s.respond none
    else match tileOfAddr a with
      | some t =>
        if s.answers a && (s.tl t).rngPending && (a = R.TIL_RNGOUT0 t || a = R.TIL_RNGOUT1 t) then
          s.updTl t fun x => { x with rngWaiting := if a = R.TIL_RNGOUT0 t then 1 else 2 }
        else
          let r := s.readReg a
          r.2.respond r.1
      | none =>
        let r := s.readReg a
        r.2.respond r.1
  | _ => (s.readReg a).2

/-- REGISTER_WRITE (R7). While AO_RST_N is asserted nothing is answered. -/
def execRegisterWrite (via : Via) (addr : BitVec 24) (be : Byte) (value : Word) (s : State) :
    Host.Outcome State Fault Refusal :=
  .next (s.inAo fun s => s.accessWrite via addr.toNat be value)

/-- RC_FIELD_READ: a read of a register (R8). -/
def execRcFieldRead (via : Via) (addr : BitVec 24) (be : Byte) (s : State) : Host.Outcome State Fault Refusal :=
  .next (s.inAo fun s => s.accessRead via addr.toNat be)

/-- REGISTER_ACCESS_WITHDRAW: a MAIN access that was not accepted within 100 µs never takes effect and gets an error response
(R425). -/
def execRegisterAccessWithdraw (write : Bool) (addr : BitVec 24) (s : State) : Host.Outcome State Fault Refusal :=
  .next (s.inAo fun s =>
    let a := addr.toNat
    if isAoAddr a then s
    else
      let s := match tileOfAddr a with
        | some t => if write then s else s.updTl t fun x => { x with rngWaiting := 0 }
        | none => s
      s.respond none)

/-! ## The configuration (R356, R357) -/

/-- Pairs of a register address and a value. -/
def regPairs : Nat → List Byte → List (Nat × Word)
  | 0, _ => []
  | f + 1, l => if l.isEmpty then [] else (leAt l 0 8, BitVec.ofNat 64 (leAt l 8 8)) :: regPairs f (l.drop 16)

/-- One configuration record (R356): applied in order, so a second NODE replaces the first. -/
def State.applyRec (s : State) (r : CfgRec) : State :=
  if r.type = 1 then
    (if r.value.length ≠ 12 then s.fwRecord (s.fwEv Sev.warn) else s.applyNode r.value)
  else if r.type = 2 then
    (if r.value.length % 16 ≠ 0 then s.fwRecord (s.fwEv Sev.warn)
     else s.each (regPairs (r.value.length / 16 + 1) r.value) fun s p => s.cfgWrite p.1 p.2)
  else s.fwRecord (s.fwEv Sev.note)

/-- CONFIG_APPLY: once per boot, the firmware loads the shipped programs, applies the records, advances the SEAL epoch and enables the
links of LINKEN (R357). -/
def execConfigApply (s : State) : Host.Outcome State Fault Refusal :=
  .next (s.inMain fun s =>
    if s.rd R.GLB_BOOT F.GLB_BOOT_STAGE = 5 && s.nvm.configDue then
      let s := { s with nvm := { s.nvm with configDue := false } }
      let cfg := s.cfg
      let linken := s.linkEn
      let s := s.loadPrograms.each cfg.1 State.applyRec
      let s := if cfg.2 then s.fwRecord (s.fwEv Sev.warn) else s
      let s := s.advanceEpoch
      s.each ((List.range 32).filter (bitAt linken)) fun s p => s.linkEnable p
    else s)

end Sys2Proof.Machine
end

