-- ==== Sys2Proof/Machine/Trail.lean ====
section
/-! DEFINITION. The commands of the management bus (R374 to R379): what each does and answers, and the rows PING, READ, WRITE, EVREAD,
RESET, ISOLATE, RELEASE and SUSPECT. -/
namespace Sys2Proof.Machine

/-- What a command answers: its STATUS, the bytes 4 to 7 of the header, and the data after the header (R374, R375). -/
structure Answer where
  status : Nat
  header : Nat
  data : List Byte
  deriving DecidableEq, Repr

/-- An answer of a status alone. -/
def Answer.just (status : Nat) : Answer := ⟨status, 0, []⟩

/-- The payload of a response: the status header and the data. -/
def Answer.bytes (r : Answer) : List Byte := leBytes 1 r.status ++ leBytes 3 0 ++ leBytes 4 r.header ++ r.data

/-- The executed command that a new one repeats: the same TYPE, SEQ and payload within 1 s (R376). (DEDUCED, assumption 55.) -/
def State.repeated (s : State) (type : Nat) (seq : Byte) (payload : List Byte) : Option Kept :=
  s.bus.kept.find? fun k =>
    k.type == type && k.seq == seq.toNat && k.crc.toNat == crc32c payload && s.now < k.atTime + 1000000

/-- Answers an executed command: the counts, the kept response of the last four, and the response (R374 to R376). -/
def State.complete (s : State) (bus : BusId) (pri : Fin 8) (type : Nat) (seq : Byte) (payload : List Byte) (r : Answer) : State :=
  let s := s.inc R.MGB_CNT F.MGB_CNT_CMDS
  let s := if 2 ≤ r.status && r.status ≤ 5 then s.inc R.MGB_CNT F.MGB_CNT_BADCMD else s
  let kept := (s.bus.kept ++ [⟨type, seq.toNat, BitVec.ofNat 32 (crc32c payload), r.bytes, s.now⟩])
  State.sendResponse { s with bus := { s.bus with kept := kept.drop (kept.length - 4) } } bus pri.val type seq.toNat r.bytes

/-- A command of the management bus. A repeated one is answered with the kept response; a short one is answered BADLEN; any other
is executed by `run`. A bus that is DISABLED or SILENT receives nothing (R374 to R376, R384). (DEDUCED, assumption 55.) -/
def State.command (s : State) (bus : BusId) (pri : Fin 8) (type len : Nat) (seq : Byte) (payload : List Byte)
    (run : State → List Byte → Answer × State) : State :=
  s.inAo fun s =>
    if 5 ≤ s.busState bus then s
    else match s.repeated type seq payload with
      | some k => (s.inc R.MGB_CNT F.MGB_CNT_DUPS).sendResponse bus pri.val type seq.toNat k.response
      | none =>
        if payload.length < len then s.complete bus pri type seq payload (Answer.just 3)
        else
          let r := run s (payload.take len)
          r.2.complete bus pri type seq payload r.1

/-- PING: GLB_ID, GLB_BOOT and SEC_DEVID, the last zero while MAIN is in reset or ROOT = 0. -/
def State.ping (s : State) (_ : List Byte) : Answer × State :=
  let dev := if s.mainUp && s.on R.SEC_STATUS F.SEC_STATUS_ROOT then s.peekVal R.SEC_DEVID else 0
  (⟨0, 0, leBytes 8 (s.peekVal R.GLB_ID).toNat ++ leBytes 8 (s.peekVal R.GLB_BOOT).toNat ++ leBytes 8 dev.toNat⟩, s)

/-- Whether the bytes from i on of a payload are zero. -/
def zeroFrom (p : List Byte) (i n : Nat) : Bool := allZero (slice p i n)

/-- Reads of n registers from consecutive addresses, up to the first error response: the values, the state after, and whether all were
answered without an error. -/
def State.busReads (s : State) (a : Nat) : Nat → List Byte × State × Bool
  | 0 => ([], s, true)
  | n + 1 =>
    let r := s.readReg a
    match r.1 with
    | none => (zeros (8 * (n + 1)), r.2, false)
    | some w =>
      let t := r.2.busReads (a + 8) n
      (leBytes 8 w.toNat ++ t.1, t.2.1, t.2.2)

/-- Whether a register address of a command is badly formed. -/
def badAddr (a : Nat) : Bool := a % 8 != 0 || 0x1000000 ≤ a

/-- READ: COUNT separate accesses with their side effects. -/
def State.busRead (s : State) (p : List Byte) : Answer × State :=
  let a := leAt p 0 4
  let n := leAt p 4 1
  if badAddr a || n == 0 || 7 < n || !zeroFrom p 5 3 then (Answer.just 4, s)
  else
    let r := s.busReads a n
    (⟨if r.2.2 then 0 else 6, 0, r.1⟩, r.2.1)

/-- WRITE: one access, unless the register is closed to the bus. -/
def State.busWrite (s : State) (p : List Byte) : Answer × State :=
  let a := leAt p 0 4
  let v := BitVec.ofNat 64 (leAt p 8 8)
  if badAddr a || !zeroFrom p 4 4 then (Answer.just 4, s)
  else if busClosed a v then (Answer.just 5, s)
  else
    let r := s.writeReg a v
    (Answer.just (if r.1 then 0 else 6), r.2)

/-- The sequence number of the held record after one, NEXTSEQ where there is none. -/
def State.seqAfter (s : State) (q : Nat) : Nat :=
  ((s.evr.store.find? fun r => s.seqDist q < s.seqDist r.seq).map (·.seq)).getD s.evr.nextSeq

/-- EVREAD: the record with a sequence number, or the oldest newer one still held, neither using nor moving the cursor. -/
def State.evread (s : State) (p : List Byte) : Answer × State :=
  if !zeroFrom p 4 4 then (Answer.just 4, s)
  else match s.shownAt (leAt p 0 4) with
    | none => (⟨0, s.evr.nextSeq, zeros 40⟩, s)
    | some r => (⟨0, s.seqAfter r.seq, r.bytes ++ zeros 8⟩, s)

/-- RESET: as SWRST, refused while ISOLATED = 1, in a hold-out and while RST_N is asserted. -/
def State.busReset (s : State) (p : List Byte) : Answer × State :=
  if !zeroFrom p 4 4 then (Answer.just 4, s)
  else if leAt p 0 4 ≠ 0x0C5A0100 || s.on R.MGB_STATUS F.MGB_STATUS_ISOLATED || s.on R.GLB_STORM F.GLB_STORM_HOLD || s.ao.rstN then
    (Answer.just 5, s)
  else (Answer.just 0, s.softReset)

/-- ISOLATE: FIREBREAK_OUT is asserted, and MAIN enters reset and stays there until RELEASE. -/
def State.isolate (s : State) (p : List Byte) : Answer × State :=
  if !zeroFrom p 4 4 then (Answer.just 4, s)
  else if leAt p 0 4 ≠ 0x0C5A0200 || s.on R.MGB_STATUS F.MGB_STATUS_ISOLATED then (Answer.just 5, s)
  else
    let s := State.softReset { s with ao := { s.ao with firebreak := true } }
    (Answer.just 0, s.wr R.MGB_STATUS F.MGB_STATUS_ISOLATED 1)

/-- RELEASE: ISOLATED clears, and MAIN starts when nothing else holds it; FIREBREAK_OUT follows R173. -/
def State.release (s : State) (p : List Byte) : Answer × State :=
  if !zeroFrom p 4 4 then (Answer.just 4, s)
  else if leAt p 0 4 ≠ 0x0C5A0300 || !s.on R.MGB_STATUS F.MGB_STATUS_ISOLATED then (Answer.just 5, s)
  else (Answer.just 0, (s.wr R.MGB_STATUS F.MGB_STATUS_ISOLATED 0).tryStart)

/-- SUSPECT: the glade and the LMN go to Ranger as detection source 7. A halted Ranger does not take them within 1 ms. -/
def State.suspect (s : State) (p : List Byte) : Answer × State :=
  let g := leAt p 0 1
  let lmn := leAt p 2 2
  if 15 < g || !zeroFrom p 1 1 || !zeroFrom p 4 4 then (Answer.just 4, s)
  else if s.rd R.GLB_BOOT F.GLB_BOOT_STAGE ≠ 5 then (Answer.just 8, s)
  else if s.rangerHalted then (Answer.just 7, s)
  else if !s.inGrove g then (Answer.just 0, s.record ((ev Sev.warn Src.grv g).about lmn))
  else (Answer.just 0, s.detect g lmn 7)

/-- PING (R374). -/
def execBusPing (bus : BusId) (pri : Fin 8) (seq : Byte) (payload : List Byte) (s : State) : Host.Outcome State Fault Refusal :=
  .next (s.command bus pri 0x01 0 seq payload State.ping)

/-- READ (R374, R376). -/
def execBusRead (bus : BusId) (pri : Fin 8) (seq : Byte) (payload : List Byte) (s : State) : Host.Outcome State Fault Refusal :=
  .next (s.command bus pri 0x02 8 seq payload State.busRead)

/-- WRITE (R374, R377). -/
def execBusWrite (bus : BusId) (pri : Fin 8) (seq : Byte) (payload : List Byte) (s : State) : Host.Outcome State Fault Refusal :=
  .next (s.command bus pri 0x03 16 seq payload State.busWrite)

/-- EVREAD (R374, R395). -/
def execBusEvread (bus : BusId) (pri : Fin 8) (seq : Byte) (payload : List Byte) (s : State) : Host.Outcome State Fault Refusal :=
  .next (s.command bus pri 0x04 8 seq payload State.evread)

/-- RESET (R379). -/
def execBusReset (bus : BusId) (pri : Fin 8) (seq : Byte) (payload : List Byte) (s : State) : Host.Outcome State Fault Refusal :=
  .next (s.command bus pri 0x05 8 seq payload State.busReset)

/-- ISOLATE (R379). -/
def execBusIsolate (bus : BusId) (pri : Fin 8) (seq : Byte) (payload : List Byte) (s : State) : Host.Outcome State Fault Refusal :=
  .next (s.command bus pri 0x06 8 seq payload State.isolate)

/-- RELEASE (R379). -/
def execBusRelease (bus : BusId) (pri : Fin 8) (seq : Byte) (payload : List Byte) (s : State) : Host.Outcome State Fault Refusal :=
  .next (s.command bus pri 0x07 8 seq payload State.release)

/-- SUSPECT (R378). -/
def execBusSuspect (bus : BusId) (pri : Fin 8) (seq : Byte) (payload : List Byte) (s : State) : Host.Outcome State Fault Refusal :=
  .next (s.command bus pri 0x08 8 seq payload State.suspect)

end Sys2Proof.Machine
end

