-- ==== Sys2Proof/Machine/Dispatch.lean ====
section
/-! DEFINITION. One arm per command: each calls its own meaning. -/
namespace Sys2Proof.Machine

/-- The effect of a command on everything but the queue. -/
def exec (i : Instr) (s : State) : Host.Outcome State Fault Refusal :=
  match i with
  | .registerWrite via addr be value => Sys2Proof.Machine.execRegisterWrite via addr be value s
  | .rcFieldRead via addr be => Sys2Proof.Machine.execRcFieldRead via addr be s
  | .registerAccessWithdraw write addr => Sys2Proof.Machine.execRegisterAccessWithdraw write addr s
  | .aoRstNAssert => Sys2Proof.Machine.execAoRstNAssert s
  | .aoRstNRelease straps => Sys2Proof.Machine.execAoRstNRelease straps s
  | .fuseSensingDone => Sys2Proof.Machine.execFuseSensingDone s
  | .flashDiscovery t => Sys2Proof.Machine.execFlashDiscovery t s
  | .rstNAssert cycles => Sys2Proof.Machine.execRstNAssert cycles s
  | .rstNHeld => Sys2Proof.Machine.execRstNHeld s
  | .vddMainLoss => Sys2Proof.Machine.execVddMainLoss s
  | .mainStart => Sys2Proof.Machine.execMainStart s
  | .holdOutEnd => Sys2Proof.Machine.execHoldOutEnd s
  | .stormReset => Sys2Proof.Machine.execStormReset s
  | .bootWatchdog => Sys2Proof.Machine.execBootWatchdog s
  | .swrst confirm => Sys2Proof.Machine.execSwrst confirm s
  | .rstign => Sys2Proof.Machine.execRstign s
  | .hoclr => Sys2Proof.Machine.execHoclr s
  | .clkCoreLoss => Sys2Proof.Machine.execClkCoreLoss s
  | .clkCoreRestart => Sys2Proof.Machine.execClkCoreRestart s
  | .rootDerive => Sys2Proof.Machine.execRootDerive s
  | .configApply => Sys2Proof.Machine.execConfigApply s
  | .sealEpochPersist => Sys2Proof.Machine.execSealEpochPersist s
  | .recordWrite => Sys2Proof.Machine.execRecordWrite s
  | .compaction => Sys2Proof.Machine.execCompaction s
  | .nvmRead addr lenM1 => Sys2Proof.Machine.execNvmRead addr lenM1 s
  | .nvmProgram addr lenM1 => Sys2Proof.Machine.execNvmProgram addr lenM1 s
  | .nvmErase addr => Sys2Proof.Machine.execNvmErase addr s
  | .nvmDone good => Sys2Proof.Machine.execNvmDone good s
  | .nvmTimeout => Sys2Proof.Machine.execNvmTimeout s
  | .phaseStrobe value => Sys2Proof.Machine.execPhaseStrobe value s
  | .phsAdv value => Sys2Proof.Machine.execPhsAdv value s
  | .phsSelWrite value => Sys2Proof.Machine.execPhsSelWrite value s
  | .phaseTableWrite segment index value => Sys2Proof.Machine.execPhaseTableWrite segment index value s
  | .gladeEnable g => Sys2Proof.Machine.execGladeEnable g s
  | .gladeDisable g => Sys2Proof.Machine.execGladeDisable g s
  | .join g j => Sys2Proof.Machine.execJoin g j s
  | .joinResend g => Sys2Proof.Machine.execJoinResend g s
  | .writeWatchReport q line staged => Sys2Proof.Machine.execWriteWatchReport q line staged s
  | .watchOverflow q lowest highest => Sys2Proof.Machine.execWatchOverflow q lowest highest s
  | .repairWalk q rows => Sys2Proof.Machine.execRepairWalk q rows s
  | .skipreq g => Sys2Proof.Machine.execSkipreq g s
  | .contribution g ringLo sidx layer block values => Sys2Proof.Machine.execContribution g ringLo sidx layer block values s
  | .endOfStepMarker g ringLo sidx blocks => Sys2Proof.Machine.execEndOfStepMarker g ringLo sidx blocks s
  | .markerReceipt g owner ringLo sidx blocks => Sys2Proof.Machine.execMarkerReceipt g owner ringLo sidx blocks s
  | .markerResend g owner sidx => Sys2Proof.Machine.execMarkerResend g owner sidx s
  | .readyNotice g ringLo sidx layer block src => Sys2Proof.Machine.execReadyNotice g ringLo sidx layer block src s
  | .pullDone g owner sidx layer count => Sys2Proof.Machine.execPullDone g owner sidx layer count s
  | .partialVerdict g => Sys2Proof.Machine.execPartialVerdict g s
  | .stragglerDeadline g => Sys2Proof.Machine.execStragglerDeadline g s
  | .verdictReceipt g record => Sys2Proof.Machine.execVerdictReceipt g record s
  | .applyBlock g t => Sys2Proof.Machine.execApplyBlock g t s
  | .stepEnd => Sys2Proof.Machine.execStepEnd s
  | .stepLd d cls => Sys2Proof.Machine.execStepLd d cls s
  | .stepSt cls a => Sys2Proof.Machine.execStepSt cls a s
  | .stepAdd d a b => Sys2Proof.Machine.execStepAdd d a b s
  | .stepSub d a b => Sys2Proof.Machine.execStepSub d a b s
  | .stepMul d a b => Sys2Proof.Machine.execStepMul d a b s
  | .stepFma d a b c => Sys2Proof.Machine.execStepFma d a b c s
  | .stepFnma d a b c => Sys2Proof.Machine.execStepFnma d a b c s
  | .stepDiv d a b => Sys2Proof.Machine.execStepDiv d a b s
  | .stepSqrt d a => Sys2Proof.Machine.execStepSqrt d a s
  | .stepMax d a b => Sys2Proof.Machine.execStepMax d a b s
  | .stepMin d a b => Sys2Proof.Machine.execStepMin d a b s
  | .stepSign d a => Sys2Proof.Machine.execStepSign d a s
  | .stepSqacc0 a => Sys2Proof.Machine.execStepSqacc0 a s
  | .stepSqacc1 a => Sys2Proof.Machine.execStepSqacc1 a s
  | .stepMov d a => Sys2Proof.Machine.execStepMov d a s
  | .trustRatioResult g sums => Sys2Proof.Machine.execTrustRatioResult g sums s
  | .programSlotWrite slot value => Sys2Proof.Machine.execProgramSlotWrite slot value s
  | .pmemWrite w value => Sys2Proof.Machine.execPmemWrite w value s
  | .deltaReceive sender msg => Sys2Proof.Machine.execDeltaReceive sender msg s
  | .deltaAnswer g next row pidx code epoch => Sys2Proof.Machine.execDeltaAnswer g next row pidx code epoch s
  | .deltaResend g next row pidx => Sys2Proof.Machine.execDeltaResend g next row pidx s
  | .deltaStale g next row pidx => Sys2Proof.Machine.execDeltaStale g next row pidx s
  | .parityFrameEvict g p => Sys2Proof.Machine.execParityFrameEvict g p s
  | .ringCloseCompletion g ring stale => Sys2Proof.Machine.execRingCloseCompletion g ring stale s
  | .ringStartCompletion g ring evicted outcome => Sys2Proof.Machine.execRingStartCompletion g ring evicted outcome s
  | .laggardEviction g => Sys2Proof.Machine.execLaggardEviction g s
  | .rngTestWrite t w value => Sys2Proof.Machine.execRngTestWrite t w value s
  | .rngOutputReady t => Sys2Proof.Machine.execRngOutputReady t s
  | .accessComplete t ctx => Sys2Proof.Machine.execAccessComplete t ctx s
  | .contextTimeout t ctx => Sys2Proof.Machine.execContextTimeout t ctx s
  | .gangRequest quad => Sys2Proof.Machine.execGangRequest quad s
  | .gangGrant t => Sys2Proof.Machine.execGangGrant t s
  | .gangGrantTimeout quad => Sys2Proof.Machine.execGangGrantTimeout quad s
  | .queueDoorbell q value => Sys2Proof.Machine.execQueueDoorbell q value s
  | .queueEnable q en => Sys2Proof.Machine.execQueueEnable q en s
  | .queueResume q => Sys2Proof.Machine.execQueueResume q s
  | .queueSkip q => Sys2Proof.Machine.execQueueSkip q s
  | .descriptorFetch q status => Sys2Proof.Machine.execDescriptorFetch q status s
  | .descriptorStart q => Sys2Proof.Machine.execDescriptorStart q s
  | .descriptorComplete q index => Sys2Proof.Machine.execDescriptorComplete q index s
  | .matchTimeout g cid => Sys2Proof.Machine.execMatchTimeout g cid s
  | .descNop q index => Sys2Proof.Machine.execDescNop q index s
  | .descAllreduce q index others => Sys2Proof.Machine.execDescAllreduce q index others s
  | .descReducescatter q index others => Sys2Proof.Machine.execDescReducescatter q index others s
  | .descAllgather q index others => Sys2Proof.Machine.execDescAllgather q index others s
  | .descBroadcast q index root => Sys2Proof.Machine.execDescBroadcast q index root s
  | .descBarrier q index issued => Sys2Proof.Machine.execDescBarrier q index issued s
  | .descPermute q index received => Sys2Proof.Machine.execDescPermute q index received s
  | .descMcast q index => Sys2Proof.Machine.execDescMcast q index s
  | .descRsgrad q index => Sys2Proof.Machine.execDescRsgrad q index s
  | .verdictReduction g => Sys2Proof.Machine.execVerdictReduction g s
  | .trustRatioReduction g => Sys2Proof.Machine.execTrustRatioReduction g s
  | .ringCloseBarrier g => Sys2Proof.Machine.execRingCloseBarrier g s
  | .ringStartBarrier g => Sys2Proof.Machine.execRingStartBarrier g s
  | .treeEntry g child crcOk p => Sys2Proof.Machine.execTreeEntry g child crcOk p s
  | .mcastFallback q index missing => Sys2Proof.Machine.execMcastFallback q index missing s
  | .beatTimer g => Sys2Proof.Machine.execBeatTimer g s
  | .groveBeat g slot => Sys2Proof.Machine.execGroveBeat g slot s
  | .beatSilence g slot => Sys2Proof.Machine.execBeatSilence g slot s
  | .suspicionNotice g lmn cause => Sys2Proof.Machine.execSuspicionNotice g lmn cause s
  | .start g seq suspects => Sys2Proof.Machine.execStart g seq suspects s
  | .probe g => Sys2Proof.Machine.execProbe g s
  | .probeAnswer g spare target => Sys2Proof.Machine.execProbeAnswer g spare target s
  | .round1End g => Sys2Proof.Machine.execRound1End g s
  | .view g v => Sys2Proof.Machine.execView g v s
  | .round2End g => Sys2Proof.Machine.execRound2End g s
  | .dec g d => Sys2Proof.Machine.execDec g d s
  | .decDeadline g silent => Sys2Proof.Machine.execDecDeadline g silent s
  | .firebreakSightTimeout g => Sys2Proof.Machine.execFirebreakSightTimeout g s
  | .force mask => Sys2Proof.Machine.execForce mask s
  | .fenceNotice g lmn => Sys2Proof.Machine.execFenceNotice g lmn s
  | .takeover g coord t => Sys2Proof.Machine.execTakeover g coord t s
  | .ready g lmn => Sys2Proof.Machine.execReady g lmn s
  | .readyTimeout g lmn => Sys2Proof.Machine.execReadyTimeout g lmn s
  | .mapupdate g lmn pnid seq => Sys2Proof.Machine.execMapupdate g lmn pnid seq s
  | .clearingStart g => Sys2Proof.Machine.execClearingStart g s
  | .clearingRead g lmn offset txid rows => Sys2Proof.Machine.execClearingRead g lmn offset txid rows s
  | .rowRead g row line txid encode => Sys2Proof.Machine.execRowRead g row line txid encode s
  | .rowReadAnswer g unit a => Sys2Proof.Machine.execRowReadAnswer g unit a s
  | .encodeParity g p rows => Sys2Proof.Machine.execEncodeParity g p rows s
  | .rebuildLeaf g parity index rows => Sys2Proof.Machine.execRebuildLeaf g parity index rows s
  | .reconcileScan g slot => Sys2Proof.Machine.execReconcileScan g slot s
  | .reconcileReport g holder rows => Sys2Proof.Machine.execReconcileReport g holder rows s
  | .reconcileTimeout g holder => Sys2Proof.Machine.execReconcileTimeout g holder s
  | .deadfallNotice g row => Sys2Proof.Machine.execDeadfallNotice g row s
  | .requestResend g layer block => Sys2Proof.Machine.execRequestResend g layer block s
  | .planLoad g => Sys2Proof.Machine.execPlanLoad g s
  | .planAbort g => Sys2Proof.Machine.execPlanAbort g s
  | .blockCopy g t => Sys2Proof.Machine.execBlockCopy g t s
  | .copyArrival g sender layer block bytes => Sys2Proof.Machine.execCopyArrival g sender layer block bytes s
  | .shadow g sender layer block bytes => Sys2Proof.Machine.execShadow g sender layer block bytes s
  | .shadowEnd g sender => Sys2Proof.Machine.execShadowEnd g sender s
  | .nextParityBuild g p rows => Sys2Proof.Machine.execNextParityBuild g p rows s
  | .saplingProbe g lmn answered ready => Sys2Proof.Machine.execSaplingProbe g lmn answered ready s
  | .publishGo g => Sys2Proof.Machine.execPublishGo g s
  | .publishStart g => Sys2Proof.Machine.execPublishStart g s
  | .publishBlock g t => Sys2Proof.Machine.execPublishBlock g t s
  | .wpStart r => Sys2Proof.Machine.execWpStart r s
  | .wpBlock r => Sys2Proof.Machine.execWpBlock r s
  | .wpEnd lmn r => Sys2Proof.Machine.execWpEnd lmn r s
  | .imageTimeout img => Sys2Proof.Machine.execImageTimeout img s
  | .imageEnable img => Sys2Proof.Machine.execImageEnable img s
  | .imageLoad img => Sys2Proof.Machine.execImageLoad img s
  | .loadreq requester stream => Sys2Proof.Machine.execLoadreq requester stream s
  | .imageAnswer img a => Sys2Proof.Machine.execImageAnswer img a s
  | .loadRetry img => Sys2Proof.Machine.execLoadRetry img s
  | .touch img => Sys2Proof.Machine.execTouch img s
  | .orphan stream => Sys2Proof.Machine.execOrphan stream s
  | .sweepStart g => Sys2Proof.Machine.execSweepStart g s
  | .sweepRecord g => Sys2Proof.Machine.execSweepRecord g s
  | .restoreRecord g => Sys2Proof.Machine.execRestoreRecord g s
  | .periodStart p => Sys2Proof.Machine.execPeriodStart p s
  | .laneMarker p lane m => Sys2Proof.Machine.execLaneMarker p lane m s
  | .cdrLockLoss p lane => Sys2Proof.Machine.execCdrLockLoss p lane s
  | .dataFrame p f => Sys2Proof.Machine.execDataFrame p f s
  | .idle p => Sys2Proof.Machine.execIdle p s
  | .pulse p pnid port counter => Sys2Proof.Machine.execPulse p pnid port counter s
  | .ack p ackSeq => Sys2Proof.Machine.execAck p ackSeq s
  | .nak p e => Sys2Proof.Machine.execNak p e s
  | .credit p reserved shared => Sys2Proof.Machine.execCredit p reserved shared s
  | .widthReq p mask attempt => Sys2Proof.Machine.execWidthReq p mask attempt s
  | .dozeReq p => Sys2Proof.Machine.execDozeReq p s
  | .dozeAck p => Sys2Proof.Machine.execDozeAck p s
  | .dozeCancel p => Sys2Proof.Machine.execDozeCancel p s
  | .train p pnid port version locked stamp echo now => Sys2Proof.Machine.execTrain p pnid port version locked stamp echo now s
  | .ackTimer p => Sys2Proof.Machine.execAckTimer p s
  | .replayTimeout p => Sys2Proof.Machine.execReplayTimeout p s
  | .nakResend p => Sys2Proof.Machine.execNakResend p s
  | .pulseTimer p => Sys2Proof.Machine.execPulseTimer p s
  | .linkSilence p => Sys2Proof.Machine.execLinkSilence p s
  | .widthSwitchTimeout p => Sys2Proof.Machine.execWidthSwitchTimeout p s
  | .laneOfferBack p lane => Sys2Proof.Machine.execLaneOfferBack p lane s
  | .dozeIdle p => Sys2Proof.Machine.execDozeIdle p s
  | .dozeReqTimeout p => Sys2Proof.Machine.execDozeReqTimeout p s
  | .signalLoss p => Sys2Proof.Machine.execSignalLoss p s
  | .wakeBurst p => Sys2Proof.Machine.execWakeBurst p s
  | .signalDetect p => Sys2Proof.Machine.execSignalDetect p s
  | .fastRelockTimeout p lane => Sys2Proof.Machine.execFastRelockTimeout p lane s
  | .beaconTimer p => Sys2Proof.Machine.execBeaconTimer p s
  | .linkBeacon p timeNs => Sys2Proof.Machine.execLinkBeacon p timeNs s
  | .beaconTimeout p => Sys2Proof.Machine.execBeaconTimeout p s
  | .wakeTimeout p => Sys2Proof.Machine.execWakeTimeout p s
  | .linkEnable p => Sys2Proof.Machine.execLinkEnable p s
  | .linkDown p => Sys2Proof.Machine.execLinkDown p s
  | .retrain p => Sys2Proof.Machine.execRetrain p s
  | .trainingTimeout p => Sys2Proof.Machine.execTrainingTimeout p s
  | .trainingRetry p => Sys2Proof.Machine.execTrainingRetry p s
  | .unlockTimeout p => Sys2Proof.Machine.execUnlockTimeout p s
  | .loadSample p slotsTx dataTx slotsRx dataRx => Sys2Proof.Machine.execLoadSample p slotsTx dataTx slotsRx dataRx s
  | .trimReq p => Sys2Proof.Machine.execTrimReq p s
  | .trimDone p => Sys2Proof.Machine.execTrimDone p s
  | .trimWatchEnd p before after => Sys2Proof.Machine.execTrimWatchEnd p before after s
  | .marginCheck p lane corrected worst e4 e8 e12 => Sys2Proof.Machine.execMarginCheck p lane corrected worst e4 e8 e12 s
  | .routeFrame inPort f stomped => Sys2Proof.Machine.execRouteFrame inPort f stomped s
  | .escwait f => Sys2Proof.Machine.execEscwait f s
  | .creditTimer p => Sys2Proof.Machine.execCreditTimer p s
  | .lrd f => Sys2Proof.Machine.execLrd f s
  | .lrsp f => Sys2Proof.Machine.execLrsp f s
  | .err f => Sys2Proof.Machine.execErr f s
  | .lwr f => Sys2Proof.Machine.execLwr f s
  | .lwack f => Sys2Proof.Machine.execLwack f s
  | .inv f => Sys2Proof.Machine.execInv f s
  | .invack f => Sys2Proof.Machine.execInvack f s
  | .noroute pnid => Sys2Proof.Machine.execNoroute pnid s
  | .hmsg f => Sys2Proof.Machine.execHmsg f s
  | .reasmTimeout src txid => Sys2Proof.Machine.execReasmTimeout src txid s
  | .invTimeout g lmn txid => Sys2Proof.Machine.execInvTimeout g lmn txid s
  | .pnidWrite value => Sys2Proof.Machine.execPnidWrite value s
  | .hostFrame h f => Sys2Proof.Machine.execHostFrame h f s
  | .mpResponse q write tag line use status => Sys2Proof.Machine.execMpResponse q write tag line use status s
  | .mpTimeout q write tag line use => Sys2Proof.Machine.execMpTimeout q write tag line use s
  | .portDown q => Sys2Proof.Machine.execPortDown q s
  | .sramParityError t word => Sys2Proof.Machine.execSramParityError t word s
  | .budgetWindow => Sys2Proof.Machine.execBudgetWindow s
  | .budgetSetWrite total set cls value => Sys2Proof.Machine.execBudgetSetWrite total set cls value s
  | .scrubLine g status line => Sys2Proof.Machine.execScrubLine g status line s
  | .auditStart value => Sys2Proof.Machine.execAuditStart value s
  | .auditUnit row line rows => Sys2Proof.Machine.execAuditUnit row line rows s
  | .enterManufacturing confirm => Sys2Proof.Machine.execEnterManufacturing confirm s
  | .enterProvisioned confirm => Sys2Proof.Machine.execEnterProvisioned confirm s
  | .enterDeployed confirm => Sys2Proof.Machine.execEnterDeployed confirm s
  | .enterScrapped confirm => Sys2Proof.Machine.execEnterScrapped confirm s
  | .groupBurn group addr => Sys2Proof.Machine.execGroupBurn group addr s
  | .burnDone => Sys2Proof.Machine.execBurnDone s
  | .keyLoad addr => Sys2Proof.Machine.execKeyLoad addr s
  | .debugUnlock addr => Sys2Proof.Machine.execDebugUnlock addr s
  | .enterReturned addr => Sys2Proof.Machine.execEnterReturned addr s
  | .revokeImageKey addr => Sys2Proof.Machine.execRevokeImageKey addr s
  | .burnIkh1 addr => Sys2Proof.Machine.execBurnIkh1 addr s
  | .busPing bus pri seq payload => Sys2Proof.Machine.execBusPing bus pri seq payload s
  | .busRead bus pri seq payload => Sys2Proof.Machine.execBusRead bus pri seq payload s
  | .busWrite bus pri seq payload => Sys2Proof.Machine.execBusWrite bus pri seq payload s
  | .busEvread bus pri seq payload => Sys2Proof.Machine.execBusEvread bus pri seq payload s
  | .busReset bus pri seq payload => Sys2Proof.Machine.execBusReset bus pri seq payload s
  | .busIsolate bus pri seq payload => Sys2Proof.Machine.execBusIsolate bus pri seq payload s
  | .busRelease bus pri seq payload => Sys2Proof.Machine.execBusRelease bus pri seq payload s
  | .busSuspect bus pri seq payload => Sys2Proof.Machine.execBusSuspect bus pri seq payload s
  | .dupaddr bus => Sys2Proof.Machine.execDupaddr bus s
  | .noticeSend => Sys2Proof.Machine.execNoticeSend s
  | .noticeTokenRefill => Sys2Proof.Machine.execNoticeTokenRefill s
  | .busBeacon => Sys2Proof.Machine.execBusBeacon s
  | .busStateChange bus can tec rec => Sys2Proof.Machine.execBusStateChange bus can tec rec s
  | .lone bus => Sys2Proof.Machine.execLone bus s
  | .benchedEnd bus => Sys2Proof.Machine.execBenchedEnd bus s
  | .responseHoldTimeout => Sys2Proof.Machine.execResponseHoldTimeout s
  | .recordQueue => Sys2Proof.Machine.execRecordQueue s
  | .recordStore => Sys2Proof.Machine.execRecordStore s
  | .windowRead w => Sys2Proof.Machine.execWindowRead w s
  | .windowAdvance => Sys2Proof.Machine.execWindowAdvance s
  | .cursorWrite value => Sys2Proof.Machine.execCursorWrite value s
  | .arm value => Sys2Proof.Machine.execArm value s
  | .trig => Sys2Proof.Machine.execTrig s
  | .waypointIn => Sys2Proof.Machine.execWaypointIn s
  | .waypointMessage g origin target gphase => Sys2Proof.Machine.execWaypointMessage g origin target gphase s
  | .waypointCapture => Sys2Proof.Machine.execWaypointCapture s
  | .waypointOutEnd => Sys2Proof.Machine.execWaypointOutEnd s
  | .halt => Sys2Proof.Machine.execHalt s
  | .forceHalt confirm => Sys2Proof.Machine.execForceHalt confirm s
  | .rangerStep => Sys2Proof.Machine.execRangerStep s
  | .rangerResume => Sys2Proof.Machine.execRangerResume s
  | .haltProceed => Sys2Proof.Machine.execHaltProceed s
  | .haltPendingTimeout => Sys2Proof.Machine.execHaltPendingTimeout s
  | .breakpoint x => Sys2Proof.Machine.execBreakpoint x s
  | .debugMemoryAccess write value => Sys2Proof.Machine.execDebugMemoryAccess write value s
  | .bistGo => Sys2Proof.Machine.execBistGo s
  | .bistDone => Sys2Proof.Machine.execBistDone s
  | .laneTest => Sys2Proof.Machine.execLaneTest s
  | .laneTestDone noPartner failed => Sys2Proof.Machine.execLaneTestDone noPartner failed s
  | .siteCheck x droops deepest slack leastSlack => Sys2Proof.Machine.execSiteCheck x droops deepest slack leastSlack s
  | .sramReadout => Sys2Proof.Machine.execSramReadout s
  | .wsBypass => Sys2Proof.Machine.execWsBypass s
  | .wsExtest => Sys2Proof.Machine.execWsExtest s
  | .wsPreload cells => Sys2Proof.Machine.execWsPreload cells s
  | .wsClamp => Sys2Proof.Machine.execWsClamp s
  | .wsIdcode => Sys2Proof.Machine.execWsIdcode s
  | .wsIntestScan => Sys2Proof.Machine.execWsIntestScan s
  | .wsBist => Sys2Proof.Machine.execWsBist s
  | .departureNotice g lmn => Sys2Proof.Machine.execDepartureNotice g lmn s
  | .uncorrectableCodeword p lane good => Sys2Proof.Machine.execUncorrectableCodeword p lane good s
  | .hostCreditReturn h vc2 vc6 => Sys2Proof.Machine.execHostCreditReturn h vc2 vc6 s
  | .rstNRelease => Sys2Proof.Machine.execRstNRelease s
  | .copyAck g sender layer block kind => Sys2Proof.Machine.execCopyAck g sender layer block kind s

end Sys2Proof.Machine
end

