-- ==== Sys2Proof/Machine/Step.lean ====
section
/-! DEFINITION. One step of the block: the command at the front of the queue, run with the queue's rest (DESIGN CHOICE, assumption 1). -/
namespace Sys2Proof.Machine

/-- An empty queue: the block idles for 1 µs of GLB_AOTIME (R349, assumption 3). (DESIGN CHOICE, assumption 57.) -/
def idle (s : State) : State := s.tick

/-- One step. (DESIGN CHOICE, assumption 1.) -/
def step (s : State) : Host.Outcome State Fault Refusal :=
  match s.pending with
  | [] => .next (idle s)
  | c :: rest => exec c { s with pending := rest }

/-- The state with the command that a word spells put at the front of the queue; the table gives no row any bits, so no
word spells a command and the state stays. (DESIGN CHOICE, assumption 1.) -/
def State.withFetchWord (s : State) (nbits w : Nat) : State :=
  match Sys2Proof.decodeTableWord nbits w with
  | some c => { s with pending := c :: s.pending }
  | none => s

end Sys2Proof.Machine
end

