-- ==== Sys2Proof/Safety.lean ====
section
/-! DEFINITION. The terms in which claims about the block are made: when a domain runs, which state is in canonical form, and which
commands may write member memory, the flash and the fuses. -/
namespace Sys2Proof.Machine

/-- The always-on domain runs: AO_RST_N is released (R13). -/
def State.aoUp (s : State) : Prop := s.ao.aoReset = false

/-- MAIN runs: it is released from reset (R13). -/
def State.up (s : State) : Prop := s.ao.mainRun = true

/-- Member memory, the flash, the fuses and the registers are listed in canonical form, so that equal contents are equal data. -/
def State.canonical (s : State) : Prop :=
  Memory.wf s.mem = true ∧ swf (fun _ => (0xFF : Byte)) s.flash = true ∧ swf (fun _ => (0 : Word)) s.fuses = true ∧
    swf resetWord s.regs = true

/-- Every register but the listed ones reads as before. -/
def State.sameRegsBut (l : List Nat) (s t : State) : Prop := ∀ a, a ∉ l → t.reg a = s.reg a

/-- Every byte of member memory reads as before. -/
def State.sameMemory (s t : State) : Prop := ∀ a, t.readByte a = s.readByte a

/-- Exactly the bytes from an offset on have been stored: the range reads as they are, and every other byte reads as before. -/
def State.stores (s : State) (o : Nat) (l : List Byte) (t : State) : Prop :=
  (∀ i, i < l.length → t.readByte (o + i) = l.getD i 0) ∧ ∀ a, a < o ∨ o + l.length ≤ a → t.readByte a = s.readByte a

/-- Whether a command may write member memory. -/
def mayStore : Instr → Bool
  | .registerWrite .. | .configApply | .repairWalk .. | .contribution .. | .endOfStepMarker .. | .partialVerdict ..
  | .stragglerDeadline .. | .verdictReceipt .. | .applyBlock .. | .deltaReceive .. | .deltaAnswer .. | .deltaStale ..
  | .parityFrameEvict .. | .ringStartCompletion .. | .laggardEviction .. | .contextTimeout .. | .descriptorFetch ..
  | .descAllreduce .. | .descReducescatter .. | .descAllgather .. | .descBroadcast .. | .descPermute .. | .descMcast ..
  | .descRsgrad .. | .verdictReduction .. | .ringStartBarrier .. | .treeEntry .. | .round2End .. | .dec ..
  | .mapupdate .. | .clearingRead .. | .rowReadAnswer .. | .encodeParity .. | .rebuildLeaf .. | .reconcileReport ..
  | .reconcileTimeout .. | .deadfallNotice .. | .requestResend .. | .planLoad .. | .blockCopy .. | .copyArrival ..
  | .shadow .. | .shadowEnd .. | .nextParityBuild .. | .publishBlock .. | .wpStart .. | .wpBlock .. | .imageAnswer ..
  | .sweepStart .. | .sweepRecord .. | .restoreRecord .. | .lrd .. | .lwr .. | .invack .. | .invTimeout ..
  | .mpResponse .. | .mpTimeout .. | .sramParityError .. | .scrubLine .. | .groupBurn .. | .keyLoad ..
  | .debugUnlock .. | .enterReturned .. | .revokeImageKey .. | .burnIkh1 .. | .busWrite .. | .copyAck .. => true
  | _ => false

/-- Whether a command may write the flash. -/
def mayWriteFlash : Instr → Bool
  | .registerWrite .. | .aoRstNAssert | .flashDiscovery .. | .mainStart | .holdOutEnd | .rstign | .hoclr
  | .clkCoreRestart | .configApply | .recordWrite | .compaction | .nvmDone .. | .nvmTimeout | .busWrite ..
  | .busRelease .. | .bistDone => true
  | _ => false

/-- Whether a command may burn fuses: the end of a burn, and AO_RST_N, which cuts one off (R324). -/
def mayBurn : Instr → Bool
  | .aoRstNAssert | .burnDone => true
  | _ => false

end Sys2Proof.Machine
end

