-- ==== Sys2Proof/Certificates/Slice0/Obligations.lean ====
section
/-! DEFINITION. The statements about the block, one definition each: what every command does, by the numbered rules of the spec.
A statement says for each command on which states it answers which next state, and what it leaves as it was. -/

open Sys2Proof Sys2Proof.Machine

/-- The block takes the command at the front of its queue: one step is that command on the rest of the queue, and with nothing queued the
block idles for one microsecond of GLB_AOTIME (R349; assumption 3 for the microsecond). It rests on the model's choices in assumptions 1
and 3. -/
def Obligations.StepRunsTheFrontCommand : Prop :=
  (∀ (c : Instr) (rest : List Instr) (s : State), step { s with pending := c :: rest } = exec c { s with pending := rest }) ∧
  (∀ s : State, s.pending = [] → s.aoUp → ∃ t, step s = .next t ∧
    t.now = (s.now + 1) % 2 ^ F.GLB_AOTIME_US.width)

/-- Every command answers a next state and leaves the queue of waiting commands alone. The commands that may not store leave every byte of
member memory as it is, the ones that may not write the flash leave the flash, and only the end of a burn and AO_RST_N change a fuse.
R324: a burn only sets bits. No step of the block, whatever the command, ever clears a burnt fuse bit. -/
def Obligations.EveryCommandAnswersWithinItsFrame : Prop :=
  (∀ (c : Instr) (s : State), ∃ t, exec c s = .next t ∧ t.pending = s.pending) ∧
  (∀ (c : Instr) (s t : State), exec c s = .next t →
    (mayStore c = false → s.sameMemory t) ∧ (mayWriteFlash c = false → t.flash = s.flash) ∧ (mayBurn c = false → t.fuses = s.fuses)) ∧
  (∀ (s t : State) (w i : Nat), step s = .next t → (s.fuse w).getLsbD i = true → (t.fuse w).getLsbD i = true)

/-- No step leaves the canonical form of member memory, the flash, the fuses and the registers. -/
def Obligations.StepKeepsCanonicalForm : Prop :=
  ∀ s t : State, s.canonical → step s = .next t → t.canonical

/-- The state after reset is in canonical form, with nothing in memory and no command waiting. It rests on the model's choices in assumptions
1, 5 and 7. -/
def Obligations.ResetIsCanonical : Prop :=
  State.reset.canonical ∧ State.reset.mem = [] ∧ State.reset.pending = []

/-- R7: what a read and a write do to each field of a register, by its access code. A read returns the current value of every field but a WO
field, which reads as zero, and then clears an RC field (to its reset value). A write sets an RW field, clears the bits of a W1C field and
sets those of a W1S field where it has a 1, and is ignored by every other field. -/
def Obligations.FieldsFollowAccessCodes : Prop :=
  (∀ (a : Nat) (old v : Word) (f : FieldRow) (i : Nat), f ∈ fieldsAt a → f.lo ≤ i → i < f.lo + f.width →
    (writeByCode a old v).getLsbD i =
      match f.acc with
      | .rw => v.getLsbD i
      | .w1c => old.getLsbD i && !v.getLsbD i
      | .w1s => old.getLsbD i || v.getLsbD i
      | _ => old.getLsbD i) ∧
  (∀ (a : Nat) (old : Word) (f : FieldRow) (i : Nat), f ∈ fieldsAt a → f.lo ≤ i → i < f.lo + f.width →
    (readByCode a old).getLsbD i = (if f.acc = .rc then (resetWord a).getLsbD i else old.getLsbD i)) ∧
  (∀ (a : Nat) (old : Word) (f : FieldRow) (i : Nat), f ∈ fieldsAt a → f.lo ≤ i → i < f.lo + f.width →
    (old &&& readMask a).getLsbD i = (if f.acc = .wo ∨ f.acc = .rsv then false else old.getLsbD i)) ∧
  (∀ (s : State) (v : Word), s.aoUp → ∃ t, exec (.registerWrite .port (BitVec.ofNat 24 R.EVR_CTL) 0xFF v) s = .next t ∧
    t.reg R.EVR_CTL = writeByCode R.EVR_CTL (s.reg R.EVR_CTL) v ∧ t.ao.rspErr = false ∧ s.sameRegsBut [R.EVR_CTL] t ∧ t.mem = s.mem) ∧
  (∀ s : State, s.aoUp → ∃ t, exec (.rcFieldRead .port (BitVec.ofNat 24 R.EVR_LOST) 0xFF) s = .next t ∧
    t.ao.rspData = s.reg R.EVR_LOST &&& readMask R.EVR_LOST ∧ t.reg R.EVR_LOST = readByCode R.EVR_LOST (s.reg R.EVR_LOST) ∧
    t.ao.rspErr = false ∧ s.sameRegsBut [R.EVR_LOST] t ∧ t.mem = s.mem)

/-- R6: an access on the register port that is not a full 64-bit access at an 8-byte-aligned address, or whose address inside the window holds
no register, is answered with an error response and zero data, and changes nothing else of the block. -/
def Obligations.RefusedPortAccesses : Prop :=
  (∀ (s : State) (a : BitVec 24) (be : Byte) (v : Word), s.aoUp → be ≠ 0xFF ∨ a.toNat % 8 ≠ 0 →
    exec (.registerWrite .port a be v) s = .next { s with ao := { s.ao with rspErr := true, rspData := 0 } } ∧
    exec (.rcFieldRead .port a be) s = .next { s with ao := { s.ao with rspErr := true, rspData := 0 } }) ∧
  (∀ (s : State) (a : BitVec 24) (v : Word), s.aoUp → a.toNat < 0x800000 → isReg a.toNat = false →
    exec (.registerWrite .port a 0xFF v) s = .next { s with ao := { s.ao with rspErr := true, rspData := 0 } } ∧
    exec (.rcFieldRead .port a 0xFF) s = .next { s with ao := { s.ao with rspErr := true, rspData := 0 } }) ∧
  (∀ (s : State) (a : BitVec 24), s.aoUp → 0x800000 ≤ a.toNat → isReg (a.toNat - 0x800000) = false →
    exec (.rcFieldRead .port a 0xFF) s = .next { s with ao := { s.ao with rspErr := true, rspData := 0 } })

/-- REGISTER_WRITE, RC_FIELD_READ and REGISTER_ACCESS_WITHDRAW. A write of EVR_CTL, TST_SEED or TST_EXP is answered without an error and does
what the access codes say (R7). A read through the peek alias answers what the register shows and changes nothing but the response, and a
write through it gets an error response (R10). While MAIN is in reset its blocks answer with an error and no effect (R15), and the
registers of a disabled tile read zero and ignore writes (R2). A withdrawn access to a MAIN block gets an error response (R425). It rests
on the model's choices in assumption 10. -/
def Obligations.RegisterAccess : Prop :=
  (∀ (s : State) (a : BitVec 24) (v : Word), s.aoUp → a.toNat ∈ [R.EVR_CTL, R.TST_SEED, R.TST_EXP] →
    ∃ t, exec (.registerWrite .port a 0xFF v) s = .next t ∧ t.ao.rspErr = false ∧
      t.reg a.toNat = writeByCode a.toNat (s.reg a.toNat) v ∧ s.sameRegsBut [a.toNat] t ∧ t.mem = s.mem) ∧
  (∀ (s : State) (a : BitVec 24) (w : Word), s.aoUp → 0x800000 ≤ a.toNat → s.peek (a.toNat - 0x800000) = some w →
    exec (.rcFieldRead .port a 0xFF) s = .next { s with ao := { s.ao with rspErr := false, rspData := w } }) ∧
  (∀ (s : State) (a : BitVec 24) (v : Word), s.aoUp → 0x800000 ≤ a.toNat →
    exec (.registerWrite .port a 0xFF v) s = .next { s with ao := { s.ao with rspErr := true, rspData := 0 } }) ∧
  (∀ (s : State) (a : BitVec 24) (v : Word), s.aoUp → ¬s.up → a.toNat < 0x800000 → isAoAddr a.toNat = false →
    exec (.registerWrite .port a 0xFF v) s = .next { s with ao := { s.ao with rspErr := true, rspData := 0 } } ∧
    ∃ t, exec (.rcFieldRead .port a 0xFF) s = .next t ∧ t.ao.rspErr = true ∧ t.ao.rspData = 0 ∧ t.mem = s.mem) ∧
  (∀ (s : State) (a : BitVec 24) (v : Word) (k : Nat), s.aoUp → s.up → a.toNat % 8 = 0 → isReg a.toNat = true →
    s.answers a.toNat = true → tileOfAddr a.toNat = some k → s.tileDisabled k = true → (s.tl k).rngPending = false →
    exec (.registerWrite .port a 0xFF v) s = .next { s with ao := { s.ao with rspErr := false, rspData := 0 } } ∧
    ∃ t, exec (.rcFieldRead .port a 0xFF) s = .next t ∧ t.ao.rspErr = false ∧ t.ao.rspData = 0 ∧ t.mem = s.mem) ∧
  (∀ (s : State) (w : Bool) (a : BitVec 24), s.aoUp → isAoAddr a.toNat = false →
    ∃ t, exec (.registerAccessWithdraw w a) s = .next t ∧ t.ao.rspErr = true ∧ t.regs = s.regs ∧ t.mem = s.mem)

/-- AO_RST_N_ASSERT and AO_RST_N_RELEASE (R13, R344, R370). The assertion holds both domains in reset, returns every register to its reset
value and keeps member memory; the release samples the straps into ADDR and changes no other register. RST_N_ASSERT, RST_N_HELD and
RST_N_RELEASE (R345, R346). A low pulse of fewer than 100 CLK_AO cycles is ignored and counted in GLITCH; a longer one puts MAIN in reset
with PIN set and every PHYRST asserted. An assertion of 1 s sets HELD. The release clears HELD and RSTIGN. Member memory keeps its
contents throughout. It rests on the model's choices in assumptions 7 and 46. -/
def Obligations.ResetPins : Prop :=
  (∀ s : State, s.aoUp → ∃ t, exec .aoRstNAssert s = .next t ∧ ¬t.aoUp ∧ ¬t.up ∧ (∀ a, t.reg a = resetWord a) ∧ t.mem = s.mem) ∧
  (∀ (s : State) (straps : BitVec 6), ¬s.aoUp → ∃ t, exec (.aoRstNRelease straps) s = .next t ∧ t.aoUp ∧
    t.rd R.MGB_STATUS F.MGB_STATUS_ADDR = straps.toNat ∧ s.sameRegsBut [R.MGB_STATUS] t ∧ t.mem = s.mem) ∧
  (∀ (s : State) (n : Nat), s.aoUp → s.ao.rstN = false → n < 100 → ∃ t, exec (.rstNAssert n) s = .next t ∧
    t.rd R.GLB_RSTCAUSE F.GLB_RSTCAUSE_GLITCH = min (s.rd R.GLB_RSTCAUSE F.GLB_RSTCAUSE_GLITCH + 1) 255 ∧ t.ao = s.ao ∧
    s.sameRegsBut [R.GLB_RSTCAUSE] t ∧ t.mem = s.mem) ∧
  (∀ (s : State) (n : Nat), s.aoUp → s.ao.rstN = false → 100 ≤ n → ∃ t, exec (.rstNAssert n) s = .next t ∧
    ¬t.up ∧ t.ao.rstN = true ∧ t.ao.phyReset = BitVec.allOnes 32 ∧ t.rd R.GLB_RSTCAUSE F.GLB_RSTCAUSE_PIN = 1 ∧
    (∀ a, isAoAddr a = false → t.reg a = resetWord a) ∧ t.mem = s.mem) ∧
  (∀ s : State, s.aoUp → s.ao.rstN = true → s.rd R.GLB_RSTCAUSE F.GLB_RSTCAUSE_HELD = 0 → ∃ t, exec .rstNHeld s = .next t ∧
    t.rd R.GLB_RSTCAUSE F.GLB_RSTCAUSE_HELD = 1 ∧ s.sameRegsBut [R.GLB_RSTCAUSE, R.EVR_LOST] t ∧ t.mem = s.mem) ∧
  (∀ s : State, s.aoUp → ∃ t, exec .rstNRelease s = .next t ∧ t.ao.rstN = false ∧
    t.rd R.GLB_RSTCAUSE F.GLB_RSTCAUSE_HELD = 0 ∧ t.rd R.GLB_RSTCTL F.GLB_RSTCTL_RSTIGN = 0 ∧
    s.sameRegsBut [R.GLB_RSTCAUSE, R.GLB_RSTCTL] t ∧ t.mem = s.mem)

/-- VDD_MAIN_LOSS, CLK_CORE_LOSS, SWRST and BOOT_WATCHDOG put MAIN in reset and keep member memory (R347, R428, R429): a SWRST with the
CONFIRM value sets CMD and with any other value changes nothing; the boot watchdog sets WDOG, and not while Ranger is halted. It rests on
the model's choices in assumption 46. -/
def Obligations.OtherMainResets : Prop :=
  (∀ s : State, s.aoUp → ∃ t, exec .vddMainLoss s = .next t ∧ ¬t.up ∧ t.ao.vddMain = false ∧ t.mem = s.mem) ∧
  (∀ s : State, s.up → ∃ t, exec .clkCoreLoss s = .next t ∧ ¬t.up ∧ t.ao.clkCore = false ∧ t.mem = s.mem) ∧
  (∀ s : State, s.aoUp → ∃ t, exec (.swrst 0x0C5A0100) s = .next t ∧ ¬t.up ∧ t.rd R.GLB_RSTCAUSE F.GLB_RSTCAUSE_CMD = 1 ∧
    t.mem = s.mem) ∧
  (∀ (s : State) (c : BitVec 32), s.aoUp → c ≠ 0x0C5A0100 → exec (.swrst c) s = .next s) ∧
  (∀ s : State, s.up → s.ao.wdogArmed = true → s.rd R.GLB_BOOT F.GLB_BOOT_STAGE < 5 → s.rangerHalted = false →
    ∃ t, exec .bootWatchdog s = .next t ∧ ¬t.up ∧ t.rd R.GLB_RSTCAUSE F.GLB_RSTCAUSE_WDOG = 1 ∧ t.mem = s.mem)

/-- MAIN_START, HOLD_OUT_END, RSTIGN and CLK_CORE_RESTART release MAIN when every reset condition is clear, and the start arms the boot
watchdog's time (R343, R346, R348, R428). A start that would make COUNT 9 becomes a hold-out of 2^LEVEL s, shown by HOLD and STAGE 7.
HOCLR makes LEVEL 0 and ends a hold-out. STORM_RESET clears COUNT and LEVEL after 60 s of running. R379: MAIN stays in reset, whatever
starts it otherwise, until RELEASE: while ISOLATED = 1, none of MAIN_START, HOLD_OUT_END, RSTIGN, HOCLR, CLK_CORE_RESTART and
RST_N_RELEASE releases it. It rests on the model's choices in assumption 51. -/
def Obligations.MainStarts : Prop :=
  (∀ s : State, s.aoUp → s.canStart = true → s.startCount < 9 → ∃ t, exec .mainStart s = .next t ∧ t.up ∧
    t.ao.startedAt = some s.now ∧ t.mem = s.mem) ∧
  (∀ s : State, s.aoUp → s.canStart = true → 9 ≤ s.startCount → ∃ t, exec .mainStart s = .next t ∧ ¬t.up ∧
    t.rd R.GLB_STORM F.GLB_STORM_HOLD = 1 ∧ t.rd R.GLB_BOOT F.GLB_BOOT_STAGE = 7 ∧
    t.ao.holdUntil = some (s.now + 1000000 * 2 ^ s.rd R.GLB_STORM F.GLB_STORM_LEVEL) ∧ t.mem = s.mem) ∧
  (∀ s : State, s.aoUp → s.rd R.GLB_STORM F.GLB_STORM_HOLD = 1 → s.holdEnd.canStart = true →
    ∃ t, exec .holdOutEnd s = .next t ∧ t.up ∧ t.ao.holdUntil = none ∧ t.mem = s.mem) ∧
  (∀ s : State, s.aoUp → s.rd R.GLB_RSTCAUSE F.GLB_RSTCAUSE_HELD = 1 →
    (s.wr R.GLB_RSTCTL F.GLB_RSTCTL_RSTIGN 1).canStart = true → s.startCount < 9 →
    ∃ t, exec .rstign s = .next t ∧ t.up ∧ t.mem = s.mem) ∧
  (∀ s : State, s.aoUp → s.rd R.GLB_STORM F.GLB_STORM_HOLD = 0 → ∃ t, exec .hoclr s = .next t ∧
    t.rd R.GLB_STORM F.GLB_STORM_LEVEL = 0 ∧ s.sameRegsBut [R.GLB_STORM] t ∧ t.ao = s.ao ∧ t.mem = s.mem) ∧
  (∀ s : State, s.aoUp → s.rd R.GLB_STORM F.GLB_STORM_HOLD = 1 → ∃ t, exec .hoclr s = .next t ∧ t.ao.holdUntil = none ∧ t.mem = s.mem) ∧
  (∀ s : State, s.aoUp → s.ao.clkCore = false → State.canStart { s with ao := { s.ao with clkCore := true } } = true → s.startCount < 9 →
    ∃ t, exec .clkCoreRestart s = .next t ∧ t.ao.clkCore = true ∧ t.up ∧ t.mem = s.mem) ∧
  (∀ s : State, s.up → ∃ t, exec .stormReset s = .next t ∧ t.rd R.GLB_STORM F.GLB_STORM_COUNT = 0 ∧
    t.rd R.GLB_STORM F.GLB_STORM_LEVEL = 0 ∧ s.sameRegsBut [R.GLB_STORM] t ∧ t.ao = s.ao ∧ t.mem = s.mem) ∧
  (∀ (c : Instr) (s t : State), c ∈ [.mainStart, .holdOutEnd, .rstign, .hoclr, .clkCoreRestart, .rstNRelease] →
    s.rd R.MGB_STATUS F.MGB_STATUS_ISOLATED = 1 → ¬s.up → exec c s = .next t → ¬t.up)

/-- FUSE_SENSING_DONE and FLASH_DISCOVERY (R321, R350). Sensing shows the life cycle and the two image-key hashes' words as the fuses hold
them. Discovery gives READY with the device size, or the reason of the failure, and a second one changes nothing. RECORD_WRITE, COMPACTION
and SEAL_EPOCH_PERSIST (R334, R363, R364). A record write takes the entry at the head of the queue and moves the write pointer on, and on
erased flash the entry stands there valid, with the next SEQ. A compaction makes the other bank the active one with BANKSEQ one higher and
as many entries as count. Once its record write is done, the SEAL epoch's NOSEAL becomes 0. ROOT_DERIVE and CONFIG_APPLY (R321, R327,
R357). The derivation sets ROOT and shows the device identity, and holds the root and the agreement scalar. The firmware's configuration
is applied once per boot: with no record and no link to enable, it advances the SEAL epoch by one, with NOSEAL 1 until that is persisted;
a second one changes nothing. It rests on the model's choices in assumptions 49 and 50. -/
def Obligations.SensingRecordsAndConfiguration : Prop :=
  (∀ s : State, s.aoUp → s.ao.fuseSensed = false → ∃ t, exec .fuseSensingDone s = .next t ∧ t.ao.fuseSensed = true ∧
    t.rd R.FUS_LCS F.FUS_LCS_STATE = s.sensedLcs % 8 ∧ t.fuses = s.fuses ∧ t.mem = s.mem) ∧
  (∀ (s : State) (d : Sfdp), s.aoUp → ¬s.up → s.rd R.NVM_STATUS F.NVM_STATUS_READY = 0 → s.rd R.NVM_STATUS F.NVM_STATUS_DERR = 0 →
    sfdpError d = 0 → d.log2Size < 32 → ∃ t, exec (.flashDiscovery d) s = .next t ∧ t.rd R.NVM_STATUS F.NVM_STATUS_READY = 1 ∧
      t.rd R.NVM_STATUS F.NVM_STATUS_LOG2SIZE = d.log2Size ∧ s.sameRegsBut [R.NVM_STATUS] t ∧ t.flash = s.flash ∧ t.mem = s.mem) ∧
  (∀ (s : State) (d : Sfdp), s.aoUp → ¬s.up → s.rd R.NVM_STATUS F.NVM_STATUS_READY = 0 → s.rd R.NVM_STATUS F.NVM_STATUS_DERR = 0 →
    sfdpError d ≠ 0 → ∃ t, exec (.flashDiscovery d) s = .next t ∧ t.rd R.NVM_STATUS F.NVM_STATUS_READY = 0 ∧
      t.rd R.NVM_STATUS F.NVM_STATUS_DERR = sfdpError d ∧ s.sameRegsBut [R.NVM_STATUS] t ∧ t.flash = s.flash ∧ t.mem = s.mem) ∧
  (∀ (s : State) (d : Sfdp), s.rd R.NVM_STATUS F.NVM_STATUS_READY = 1 → exec (.flashDiscovery d) s = .next s) ∧
  (∀ (s : State) (e : RecEntry) (r : List RecEntry), s.aoUp → s.nvm.recQueue = e :: r → s.recordDue = true →
    (∀ i, i < 32 → s.flashByte (entryAddr s.recBank s.nvm.writePtr + i) = 0xFF) → ∃ t, exec .recordWrite s = .next t ∧
      t.nvm.recQueue = r ∧ t.nvm.writePtr = s.nvm.writePtr + 1 ∧ t.nvm.entrySeq = (s.nvm.entrySeq + 1) % 2 ^ 32 ∧
      t.entryBytes s.recBank s.nvm.writePtr = 0xFC :: recTail ((s.nvm.entrySeq + 1) % 2 ^ 32) e ∧
      s.sameRegsBut [R.NVM_REC] t ∧ t.mem = s.mem) ∧
  (∀ s : State, s.aoUp → s.flashIdle = true → s.nvm.bankValid = true → s.rd R.NVM_REC F.NVM_REC_COMPACT = 1 →
    ∃ t, exec .compaction s = .next t ∧ t.recBank = 1 - s.recBank ∧
      t.rd R.NVM_REC F.NVM_REC_BANKSEQ = (s.rd R.NVM_REC F.NVM_REC_BANKSEQ + 1) % 2 ^ 32 ∧
      t.nvm.writePtr = (s.liveEntries s.recBank).length ∧ s.sameRegsBut [R.NVM_REC] t ∧ t.mem = s.mem) ∧
  (∀ s : State, s.up → s.sec.sealPending = true → s.nvm.bankValid = true → s.nvm.recQueue = [] → s.router.waiting = [] →
    ∃ t, exec .sealEpochPersist s = .next t ∧ t.sec.sealPending = false ∧ t.rd R.SEC_STATUS F.SEC_STATUS_NOSEAL = 0 ∧
      s.sameRegsBut [R.SEC_STATUS] t ∧ t.mem = s.mem) ∧
  (∀ s : State, s.up → s.rootAllowed = true → ∃ t, exec .rootDerive s = .next t ∧ t.rd R.SEC_STATUS F.SEC_STATUS_ROOT = 1 ∧
    t.reg R.SEC_DEVID = BitVec.ofNat 64 s.deviceId ∧ t.sec.scalar = s.deviceRoot.2 ∧ t.mem = s.mem) ∧
  (∀ s : State, s.up → s.rd R.GLB_BOOT F.GLB_BOOT_STAGE = 5 → s.nvm.configDue = true → s.cfg = ([], false) → s.linkEn = 0 →
    s.sealEpoch + 1 < 0xFFFFFF → ∃ t, exec .configApply s = .next t ∧ t.nvm.configDue = false ∧ t.sealEpoch = s.sealEpoch + 1 ∧
      t.rd R.SEC_STATUS F.SEC_STATUS_NOSEAL = 1 ∧ t.sec.sealPending = true ∧ t.mem = s.mem) ∧
  (∀ s : State, s.up → s.nvm.configDue = false → exec .configApply s = .next s)

/-- NVM_READ, NVM_PROGRAM and NVM_ERASE (R366): a command that nothing refuses sets BUSY and waits as the operation in progress, with the
flash and member memory as they were; with READY = 0 it is refused with RESULT 6; while BUSY = 1 it only sets its operands. NVM_DONE and
NVM_TIMEOUT (R365, R366). A read fills NVM_BUF and leaves the flash. A program that reads back right makes each byte old AND new and
leaves every other byte; one that would set a bit is refused with RESULT 1 and changes no byte. An erase makes the 4,096 bytes 0xFF and
leaves every other byte. An operation that outlasts its time ends with RESULT 5, and no byte outside its range changes. Each ends the
operation and clears BUSY. It rests on the model's choices in assumptions 2 and 48. -/
def Obligations.FlashCommands : Prop :=
  (∀ (s : State) (a : BitVec 24) (n : Byte), s.aoUp → s.rd R.NVM_STATUS F.NVM_STATUS_BUSY = 0 →
    s.rd R.NVM_STATUS F.NVM_STATUS_READY = 1 → s.flashProtected 0 a.toNat (n.toNat + 1) = false →
    s.flashArgsBad 0 a.toNat (n.toNat + 1) = false → ∃ t, exec (.nvmRead a n) s = .next t ∧
      t.nvm.op = some ⟨0, a.toNat, n.toNat + 1⟩ ∧ t.rd R.NVM_STATUS F.NVM_STATUS_BUSY = 1 ∧
      s.sameRegsBut [R.NVM_CMD, R.NVM_STATUS] t ∧ t.flash = s.flash ∧ t.mem = s.mem) ∧
  (∀ (s : State) (a : BitVec 24) (n : Byte), s.aoUp → s.rd R.NVM_STATUS F.NVM_STATUS_BUSY = 0 →
    s.rd R.NVM_STATUS F.NVM_STATUS_READY = 1 → s.flashProtected 1 a.toNat (n.toNat + 1) = false →
    s.flashArgsBad 1 a.toNat (n.toNat + 1) = false → ∃ t, exec (.nvmProgram a n) s = .next t ∧
      t.nvm.op = some ⟨1, a.toNat, n.toNat + 1⟩ ∧ t.rd R.NVM_STATUS F.NVM_STATUS_BUSY = 1 ∧
      s.sameRegsBut [R.NVM_CMD, R.NVM_STATUS] t ∧ t.flash = s.flash ∧ t.mem = s.mem) ∧
  (∀ (s : State) (a : BitVec 24), s.aoUp → s.rd R.NVM_STATUS F.NVM_STATUS_BUSY = 0 →
    s.rd R.NVM_STATUS F.NVM_STATUS_READY = 1 → s.flashProtected 2 a.toNat 4096 = false →
    s.flashArgsBad 2 a.toNat 4096 = false → ∃ t, exec (.nvmErase a) s = .next t ∧
      t.nvm.op = some ⟨2, a.toNat, 4096⟩ ∧ t.rd R.NVM_STATUS F.NVM_STATUS_BUSY = 1 ∧
      s.sameRegsBut [R.NVM_CMD, R.NVM_STATUS] t ∧ t.flash = s.flash ∧ t.mem = s.mem) ∧
  (∀ (s : State) (a : BitVec 24) (n : Byte) (c : Instr), s.aoUp → c ∈ [.nvmRead a n, .nvmProgram a n, .nvmErase a] →
    s.rd R.NVM_STATUS F.NVM_STATUS_BUSY = 0 → s.rd R.NVM_STATUS F.NVM_STATUS_READY = 0 → ∃ t, exec c s = .next t ∧
      t.nvm = s.nvm ∧ t.rd R.NVM_STATUS F.NVM_STATUS_RESULT = 6 ∧ s.sameRegsBut [R.NVM_CMD, R.NVM_STATUS] t) ∧
  (∀ (s : State) (a : BitVec 24) (n : Byte) (c : Instr), s.aoUp → c ∈ [.nvmRead a n, .nvmProgram a n, .nvmErase a] →
    s.rd R.NVM_STATUS F.NVM_STATUS_BUSY = 1 → ∃ t, exec c s = .next t ∧ t.nvm = s.nvm ∧ s.sameRegsBut [R.NVM_CMD] t) ∧
  (∀ (s : State) (g : Bool) (a n : Nat), s.aoUp → s.nvm.op = some ⟨0, a, n⟩ → n ≤ 256 → ∃ t, exec (.nvmDone g) s = .next t ∧
    t.nvm.op = none ∧ t.rd R.NVM_STATUS F.NVM_STATUS_BUSY = 0 ∧ t.rd R.NVM_STATUS F.NVM_STATUS_RESULT = 0 ∧
    (∀ i, i < n → t.flashBuf.getD i 0 = s.flashByte (a + i)) ∧ t.flash = s.flash ∧ t.mem = s.mem) ∧
  (∀ (s : State) (a n : Nat), s.aoUp → s.nvm.op = some ⟨1, a, n⟩ → n ≤ 256 →
    (∀ i, i < n → s.flashByte (a + i) &&& s.flashBuf.getD i 0 = s.flashBuf.getD i 0) → ∃ t, exec (.nvmDone true) s = .next t ∧
      t.nvm.op = none ∧ t.rd R.NVM_STATUS F.NVM_STATUS_BUSY = 0 ∧ t.rd R.NVM_STATUS F.NVM_STATUS_RESULT = 0 ∧
      (∀ i, i < n → t.flashByte (a + i) = s.flashByte (a + i) &&& s.flashBuf.getD i 0) ∧
      (∀ x, x < a ∨ a + n ≤ x → t.flashByte x = s.flashByte x) ∧ s.sameRegsBut [R.NVM_STATUS] t ∧ t.mem = s.mem) ∧
  (∀ (s : State) (g : Bool) (a n i : Nat), s.aoUp → s.nvm.op = some ⟨1, a, n⟩ → n ≤ 256 → i < n →
    s.flashByte (a + i) &&& s.flashBuf.getD i 0 ≠ s.flashBuf.getD i 0 → ∃ t, exec (.nvmDone g) s = .next t ∧
      t.nvm.op = none ∧ t.rd R.NVM_STATUS F.NVM_STATUS_RESULT = 1 ∧ t.flash = s.flash ∧ t.mem = s.mem) ∧
  (∀ (s : State) (g : Bool) (a n : Nat), s.aoUp → s.nvm.op = some ⟨2, a, n⟩ → ∃ t, exec (.nvmDone g) s = .next t ∧
    t.nvm.op = none ∧ t.rd R.NVM_STATUS F.NVM_STATUS_BUSY = 0 ∧ t.rd R.NVM_STATUS F.NVM_STATUS_RESULT = 0 ∧
    (∀ x, t.flashByte x = if a ≤ x ∧ x < a + n then 0xFF else s.flashByte x) ∧ s.sameRegsBut [R.NVM_STATUS] t ∧ t.mem = s.mem) ∧
  (∀ (s : State) (op a n : Nat), s.aoUp → s.nvm.op = some ⟨op, a, n⟩ → ∃ t, exec .nvmTimeout s = .next t ∧
    t.nvm.op = none ∧ t.rd R.NVM_STATUS F.NVM_STATUS_BUSY = 0 ∧ t.rd R.NVM_STATUS F.NVM_STATUS_RESULT = 5 ∧
    (∀ x, x < a ∨ a + n ≤ x → t.flashByte x = s.flashByte x) ∧ s.sameRegsBut [R.NVM_STATUS, R.EVR_LOST] t ∧ t.mem = s.mem)

/-- PHASE_STROBE and PHS_ADV (R49 to R53): an advance of the selected active glade, by the port while SRC = 0 and by the register while SRC =
1. A higher phase is taken; a return to phase 0 sets HOLD and makes a wrap pending; a lower phase other than 0 is counted in REGR and
refused; an advance while HOLD = 1 is ignored and counted; the wrong source is ignored and counted. PHS_SEL_WRITE and PHASE_TABLE_WRITE
(R56, R61): selecting an active glade makes it the selected one and selecting an inactive one sets BADSEL and changes nothing else; a
segment or a table entry takes the written bits. -/
def Obligations.PhaseMovesAndSelection : Prop :=
  (∀ (s : State) (v : BitVec 16), s.up → s.rd R.PHS_CTL F.PHS_CTL_SRC = 0 → s.active s.selected = true →
    s.hold s.selected = false → s.phase s.selected < v.toNat → ∃ t, exec (.phaseStrobe v) s = .next t ∧
      t.phase s.selected = v.toNat ∧ t.hold s.selected = false ∧ t.mem = s.mem) ∧
  (∀ (s : State) (v : Word), s.up → s.rd R.PHS_CTL F.PHS_CTL_SRC = 1 → s.active s.selected = true →
    s.hold s.selected = false → s.phase s.selected < fget v F.PHS_ADV_VALUE → ∃ t, exec (.phsAdv v) s = .next t ∧
      t.phase s.selected = fget v F.PHS_ADV_VALUE ∧ t.hold s.selected = false ∧ t.mem = s.mem) ∧
  (∀ s : State, s.up → s.rd R.PHS_CTL F.PHS_CTL_SRC = 0 → s.active s.selected = true → s.hold s.selected = false →
    0 < s.phase s.selected → s.ring s.selected ≠ 2 ^ 64 - 1 → ∃ t, exec (.phaseStrobe 0) s = .next t ∧
      t.hold s.selected = true ∧ (t.gl s.selected).wrapPending = true ∧ t.phase s.selected = s.phase s.selected ∧ t.mem = s.mem) ∧
  (∀ (s : State) (v : BitVec 16), s.up → s.rd R.PHS_CTL F.PHS_CTL_SRC = 0 → s.active s.selected = true →
    s.hold s.selected = false → 0 < v.toNat → v.toNat < s.phase s.selected → ∃ t, exec (.phaseStrobe v) s = .next t ∧
      t.rd R.PHS_ERR F.PHS_ERR_REGR = min (s.rd R.PHS_ERR F.PHS_ERR_REGR + 1) (2 ^ F.PHS_ERR_REGR.width - 1) ∧
      s.sameRegsBut [R.PHS_ERR, R.EVR_LOST] t ∧ t.glades = s.glades ∧ t.mem = s.mem) ∧
  (∀ (s : State) (v : BitVec 16), s.up → s.rd R.PHS_CTL F.PHS_CTL_SRC = 1 → ∃ t, exec (.phaseStrobe v) s = .next t ∧
    t.rd R.PHS_ERR F.PHS_ERR_IGN = min (s.rd R.PHS_ERR F.PHS_ERR_IGN + 1) (2 ^ F.PHS_ERR_IGN.width - 1) ∧
    s.sameRegsBut [R.PHS_ERR] t ∧ t.glades = s.glades ∧ t.mem = s.mem) ∧
  (∀ (s : State) (v : Word), s.up → s.active (fget v F.PHS_SEL_GLADE) = true → ∃ t, exec (.phsSelWrite v) s = .next t ∧
    t.selected = fget v F.PHS_SEL_GLADE ∧ t.mem = s.mem) ∧
  (∀ (s : State) (v : Word), s.up → s.active (fget v F.PHS_SEL_GLADE) = false → fget v F.PHS_SEL_GLADE ≠ s.selected →
    ∃ t, exec (.phsSelWrite v) s = .next t ∧ t.selected = s.selected ∧ t.rd R.PHS_ERR F.PHS_ERR_BADSEL = 1 ∧
      s.sameRegsBut [R.PHS_ERR, R.EVR_LOST] t ∧ t.mem = s.mem) ∧
  (∀ (s : State) (x : Fin 64) (v : Word), s.up → x.val < 16 → ∃ t, exec (.phaseTableWrite true x v) s = .next t ∧
    t.reg (R.PHS_GSEG x.val) = v &&& readMask (R.PHS_GSEG x.val) ∧ t.mem = s.mem) ∧
  (∀ (s : State) (x : Fin 64) (v : Word), s.up → ∃ t, exec (.phaseTableWrite false x v) s = .next t ∧
    t.reg (R.PHS_TBL x.val) = v &&& readMask (R.PHS_TBL x.val) ∧ t.mem = s.mem)

/-- GLADE_ENABLE and GLADE_DISABLE (R26, R27, R53, R337). An enable that passes every check sets EN and ACTIVE, with the glade at phase 0 and
HOLD = 1; one that fails gives the code of the first failing check in ENERR and leaves EN at 0. A disable of a member that belongs to no
grove clears EN and ACTIVE and empties the glade's engines. JOIN and JOIN_RESEND (R358): before the JOIN of LMN 0 is there, another
member's JOIN is kept; one that is held already is answered with this member's own; and while the join waits, the own JOIN goes again to
every member whose JOIN has not come. It rests on the model's choices in assumption 4. -/
def Obligations.GladesAndJoins : Prop :=
  (∀ (s : State) (g : GladeId), s.up → s.rd (R.GLD_CTL g.val) F.GLD_CTL_EN = 0 → s.ao.failed.contains 74 = false →
    s.activeGlades = [] → s.enableErr g.val = 0 → ∃ t, exec (.gladeEnable g) s = .next t ∧
      t.rd (R.GLD_CTL g.val) F.GLD_CTL_EN = 1 ∧ t.rd (R.GLD_STATUS g.val) F.GLD_STATUS_ACTIVE = 1 ∧
      t.rd (R.GLD_STATUS g.val) F.GLD_STATUS_ENERR = 0 ∧ t.phase g.val = 0 ∧ t.hold g.val = true ∧ t.mem = s.mem) ∧
  (∀ (s : State) (g : GladeId), s.up → s.rd (R.GLD_CTL g.val) F.GLD_CTL_EN = 0 → s.ao.failed.contains 74 = false →
    s.activeGlades = [] → s.enableErr g.val ≠ 0 → ∃ t, exec (.gladeEnable g) s = .next t ∧
      t.rd (R.GLD_CTL g.val) F.GLD_CTL_EN = 0 ∧ t.rd (R.GLD_STATUS g.val) F.GLD_STATUS_ENERR = s.enableErr g.val ∧
      s.sameRegsBut [R.GLD_STATUS g.val, R.EVR_LOST] t ∧ t.mem = s.mem) ∧
  (∀ (s : State) (g : GladeId), s.up → s.rd (R.GLD_CTL g.val) F.GLD_CTL_EN = 1 → s.inGrove g.val = false →
    ∃ t, exec (.gladeDisable g) s = .next t ∧ t.rd (R.GLD_CTL g.val) F.GLD_CTL_EN = 0 ∧
      t.rd (R.GLD_STATUS g.val) F.GLD_STATUS_ACTIVE = 0 ∧ t.gl g.val = GladeState.reset ∧ t.mem = s.mem) ∧
  (∀ (s : State) (g : GladeId) (j : JoinMsg), s.up → s.rd (R.GLD_CTL g.val) F.GLD_CTL_EN = 1 →
    s.rd (R.GRV_JOIN g.val) F.GRV_JOIN_STATE ≠ 2 → j.lmn < s.members g.val → j.lmn ≠ 0 →
    ((s.gl g.val).joins.any fun x => x.1 == 0) = false → ¬(j.lmn, j) ∈ (s.gl g.val).joins →
    ∃ t, exec (.join g j) s = .next t ∧ (t.gl g.val).joins = (s.gl g.val).joins ++ [(j.lmn, j)] ∧
      s.sameRegsBut [R.GRV_JOIN g.val] t ∧ t.mem = s.mem) ∧
  (∀ (s : State) (g : GladeId) (j : JoinMsg), s.up → s.rd (R.GLD_CTL g.val) F.GLD_CTL_EN = 1 → (j.lmn, j) ∈ (s.gl g.val).joins →
    ∃ t, exec (.join g j) s = .next t ∧ t.sent = s.sent ++ [.toMember g.val j.lmn "JOIN" (s.ownJoin g.val).args []] ∧
      t.regs = s.regs ∧ t.glades = s.glades ∧ t.mem = s.mem) ∧
  (∀ (s : State) (g : GladeId), s.up → s.rd (R.GRV_JOIN g.val) F.GRV_JOIN_STATE = 1 →
    ((s.gl g.val).joins.any fun x => x.1 == s.lmn g.val) = true → s.absentJoins g.val ≠ [] → ∃ t, exec (.joinResend g) s = .next t ∧
      t.sent = s.sent ++ (s.absentJoins g.val).map (fun i => .toMember g.val i "JOIN" (s.ownJoin g.val).args []) ∧
      s.sameRegsBut [R.EVR_LOST] t ∧ t.glades = s.glades ∧ t.mem = s.mem)

/-- WRITE_WATCH_REPORT and WATCH_OVERFLOW (R298, R299, R43, R45). A report is counted; one outside the watched regions changes nothing else; a
hit is counted and sets WWHIT, and with the unit's leaf staged in tile SRAM nothing awaits repair. An overflow over no watched unit only
counts OVF. MP_RESPONSE, MP_TIMEOUT and PORT_DOWN (R295, R296). A response ends one request; OK counts nothing more, CORR counts CORR; a
write that fails for the first time counts UNCORR and WERR and is issued once more. A request without a response counts TMO. A port that
goes down shows DOWN and announces the departure of every member of this node that is in a grove; one that is down already changes
nothing. It rests on the model's choices in assumptions 4 and 66. -/
def Obligations.MemoryPorts : Prop :=
  (∀ (s : State) (q : PortId) (l : BitVec 34) (st : Bool), s.up → s.regionOfUnit (offsetOfLine q.val l.toNat / 4096) = none →
    ∃ t, exec (.writeWatchReport q l st) s = .next t ∧
      t.rd (R.MPT_WW q.val) F.MPT_WW_REPORTS = min (s.rd (R.MPT_WW q.val) F.MPT_WW_REPORTS + 1) (2 ^ F.MPT_WW_REPORTS.width - 1) ∧
      s.sameRegsBut [R.MPT_WW q.val] t ∧ t.ports = s.ports ∧ t.glades = s.glades ∧ t.mem = s.mem) ∧
  (∀ (s : State) (q : PortId) (l : BitVec 34) (g x : Nat), s.up →
    s.regionOfUnit (offsetOfLine q.val l.toNat / 4096) = some (g, x) → watchedRegion x = true →
    ∃ t, exec (.writeWatchReport q l true) s = .next t ∧ t.rd (R.GLD_STATUS g) F.GLD_STATUS_WWHIT = 1 ∧
      t.rd (R.MPT_WW q.val) F.MPT_WW_HITS = min (s.rd (R.MPT_WW q.val) F.MPT_WW_HITS + 1) (2 ^ F.MPT_WW_HITS.width - 1) ∧
      s.sameRegsBut [R.MPT_WW q.val, R.GLD_STATUS g, R.EVR_LOST, R.BGT_USE 2] t ∧ t.ports = s.ports ∧ t.glades = s.glades ∧
      t.mem = s.mem) ∧
  (∀ (s : State) (q : PortId) (l : BitVec 34) (g : Nat), s.up →
    s.regionOfUnit (offsetOfLine q.val l.toNat / 4096) = some (g, 0) → s.unitHolds g 0 (offsetOfLine q.val l.toNat / 4096) = true →
    ∃ t, exec (.writeWatchReport q l false) s = .next t ∧ t.rd (R.GLD_STATUS g) F.GLD_STATUS_WWHIT = 1 ∧
      s.valueLeaf g (offsetOfLine q.val l.toNat / 4096 - s.regionBase g 0 / 4096) 0 ∈ (t.gl g).repair ∧
      s.sameRegsBut [R.MPT_WW q.val, R.GLD_STATUS g, R.EVR_LOST] t ∧ t.mem = s.mem) ∧
  (∀ (s : State) (q : PortId) (lo hi : BitVec 34), s.up → s.watchedIn (lo.toNat / 4) (hi.toNat / 4) = [] →
    ∃ t, exec (.watchOverflow q lo hi) s = .next t ∧
      t.rd (R.MPT_WW q.val) F.MPT_WW_OVF = min (s.rd (R.MPT_WW q.val) F.MPT_WW_OVF + 1) (2 ^ F.MPT_WW_OVF.width - 1) ∧
      s.sameRegsBut [R.MPT_WW q.val, R.EVR_LOST] t ∧ t.ports = s.ports ∧ t.glades = s.glades ∧ t.mem = s.mem) ∧
  (∀ (s : State) (q : PortId) (lo hi : BitVec 34) (h : Nat × Nat × Nat × Nat), s.up →
    h ∈ s.watchedIn (lo.toNat / 4) (hi.toNat / 4) → h.1 < 16 →
    ∃ t, exec (.watchOverflow q lo hi) s = .next t ∧ t.rd (R.GLD_STATUS h.1) F.GLD_STATUS_WWHIT = 1 ∧ t.mem = s.mem) ∧
  (∀ (s : State) (q : PortId) (tag : Nat) (l : BitVec 34) (u : MpUse), s.up → ∃ t, exec (.mpResponse q false tag l u .ok) s = .next t ∧
    t.rd (R.MPT_STAT q.val) F.MPT_STAT_OUTRD = s.rd (R.MPT_STAT q.val) F.MPT_STAT_OUTRD - 1 ∧
    s.sameRegsBut [R.MPT_STAT q.val] t ∧ t.ports = s.ports ∧ t.mem = s.mem) ∧
  (∀ (s : State) (q : PortId) (tag : Nat) (l : BitVec 34) (u : MpUse), s.up → ∃ t, exec (.mpResponse q false tag l u .corr) s = .next t ∧
    t.rd (R.MPT_STAT q.val) F.MPT_STAT_OUTRD = s.rd (R.MPT_STAT q.val) F.MPT_STAT_OUTRD - 1 ∧
    t.rd (R.MPT_ERR q.val) F.MPT_ERR_CORR = min (s.rd (R.MPT_ERR q.val) F.MPT_ERR_CORR + 1) (2 ^ F.MPT_ERR_CORR.width - 1) ∧
    s.sameRegsBut [R.MPT_STAT q.val, R.MPT_ERR q.val] t ∧ t.ports = s.ports ∧ t.mem = s.mem) ∧
  (∀ (s : State) (q : PortId) (tag : Nat) (l : BitVec 34) (u : MpUse), s.up → (s.pt q.val).retried.contains l.toNat = false →
    ∃ t, exec (.mpResponse q true tag l u .uncorr) s = .next t ∧
      t.rd (R.MPT_STAT q.val) F.MPT_STAT_OUTWR = s.rd (R.MPT_STAT q.val) F.MPT_STAT_OUTWR - 1 ∧
      t.rd (R.MPT_ERR q.val) F.MPT_ERR_UNCORR =
        min (s.rd (R.MPT_ERR q.val) F.MPT_ERR_UNCORR + 1) (2 ^ F.MPT_ERR_UNCORR.width - 1) ∧
      t.rd (R.MPT_ERR q.val) F.MPT_ERR_WERR = min (s.rd (R.MPT_ERR q.val) F.MPT_ERR_WERR + 1) (2 ^ F.MPT_ERR_WERR.width - 1) ∧
      (t.pt q.val).retried = (s.pt q.val).retried ++ [l.toNat] ∧ t.sent = s.sent ++ [.port q.val "WRITE" [l.toNat]] ∧
      s.sameRegsBut [R.MPT_STAT q.val, R.MPT_ERR q.val] t ∧ t.mem = s.mem) ∧
  (∀ (s : State) (q : PortId) (tag : Nat) (l : BitVec 34) (u : MpUse), s.up → (s.pt q.val).retried.contains l.toNat = false →
    (s.pt q.val).timeouts = [] → ∃ t, exec (.mpTimeout q true tag l u) s = .next t ∧
      t.rd (R.MPT_ERR q.val) F.MPT_ERR_TMO = min (s.rd (R.MPT_ERR q.val) F.MPT_ERR_TMO + 1) (2 ^ F.MPT_ERR_TMO.width - 1) ∧
      (t.pt q.val).retried = (s.pt q.val).retried ++ [l.toNat] ∧ t.sent = s.sent ++ [.port q.val "WRITE" [l.toNat]] ∧
      s.sameRegsBut [R.MPT_STAT q.val, R.MPT_ERR q.val, R.EVR_LOST] t ∧ t.mem = s.mem) ∧
  (∀ (s : State) (q : PortId), s.up → s.rd (R.MPT_STAT q.val) F.MPT_STAT_DOWN = 0 → ∃ t, exec (.portDown q) s = .next t ∧
    t.rd (R.MPT_STAT q.val) F.MPT_STAT_DOWN = 1 ∧ s.sameRegsBut [R.MPT_STAT q.val] t ∧
    (∀ g m, g < 16 → s.inGrove g = true → m ∈ s.grovePeers g → Sent.toMember g m "DEPARTURE" [g, s.lmn g] [] ∈ t.sent) ∧
    t.glades = s.glades ∧ t.mem = s.mem) ∧
  (∀ (s : State) (q : PortId), s.rd (R.MPT_STAT q.val) F.MPT_STAT_DOWN = 1 → exec (.portDown q) s = .next s)

/-- REPAIR_WALK and SRAM_PARITY_ERROR (R300, R306, R307). The walker passes a unit that holds nothing to repair; it encodes a waiting parity
leaf again from its row's data, storing exactly the leaf's 4,096 bytes. A parity error is counted with its word; an error of the same word
within an hour takes the first free spare; nothing happens in a tile that is disabled or retired. -/
def Obligations.RepairAndSramParity : Prop :=
  (∀ (s : State) (q : PortId) (rows : List RowAnswer), s.up → (s.pt q.val).lowest = none →
    exec (.repairWalk q rows) s = .next s) ∧
  (∀ (s : State) (q : PortId) (rows : List RowAnswer) (u g x : Nat), s.up → (s.pt q.val).lowest = some u →
    s.regionOfUnit u = some (g, x) → s.unitHolds g x u = false → ∃ t, exec (.repairWalk q rows) s = .next t ∧
      t.pt q.val = (s.pt q.val).passed u ∧ t.regs = s.regs ∧ t.mem = s.mem) ∧
  (∀ (s : State) (q : PortId) (rows : List RowAnswer) (u g : Nat) (d : List (List Byte)), s.up → (s.pt q.val).lowest = some u →
    s.regionOfUnit u = some (g, 4) → s.unitHolds g 4 u = true →
    s.encodeData g ((s.code g).rowOfParity (s.code g).slot (u - s.regionBase g 4 / 4096)) rows = some d →
    s.served (s.parityAddr g (u - s.regionBase g 4 / 4096)) 4096 = true →
    ∃ t, exec (.repairWalk q rows) s = .next t ∧ t.pt q.val = (s.pt q.val).passed u ∧
      s.stores (s.parityAddr g (u - s.regionBase g 4 / 4096))
        (encodeParityBytes 4096 ((u - s.regionBase g 4 / 4096) % max 1 (s.code g).m) d) t) ∧
  (∀ (s : State) (k : TileId) (w : Fin 32768), s.up → s.tileDisabled k.val = false → s.tileRetired k.val = false →
    s.framesOf k.val = [] → (s.tl k.val).errors = [] → ∃ t, exec (.sramParityError k w) s = .next t ∧
      t.rd (R.TIL_PERR k.val) F.TIL_PERR_PERR = min (s.rd (R.TIL_PERR k.val) F.TIL_PERR_PERR + 1) (2 ^ F.TIL_PERR_PERR.width - 1) ∧
      t.rd (R.TIL_PERR k.val) F.TIL_PERR_LASTWORD = w.val ∧ s.sameRegsBut [R.TIL_PERR k.val] t ∧ t.mem = s.mem) ∧
  (∀ (s : State) (k : TileId) (w : Fin 32768) (time : Nat), s.up → s.tileDisabled k.val = false → s.tileRetired k.val = false →
    s.framesOf k.val = [] → (s.tl k.val).errors = [(w.val, time)] → s.now < time + 3600000000 →
    s.rd (R.TIL_REMAP k.val 0) F.TIL_REMAP_VALID = 0 → ∃ t, exec (.sramParityError k w) s = .next t ∧
      t.rd (R.TIL_REMAP k.val 0) F.TIL_REMAP_VALID = 1 ∧ t.rd (R.TIL_REMAP k.val 0) F.TIL_REMAP_WORD = w.val ∧
      s.sameRegsBut [R.TIL_PERR k.val, R.TIL_REMAP k.val 0, R.EVR_LOST] t ∧ t.mem = s.mem) ∧
  (∀ (s : State) (k : TileId) (w : Fin 32768), s.tileDisabled k.val = true ∨ s.tileRetired k.val = true →
    exec (.sramParityError k w) s = .next s)

/-- BUDGET_WINDOW, BUDGET_SET_WRITE and SCRUB_LINE (R310 to R312, R315). A window's start returns every account to zero and latches the budget
registers. A write that keeps the set consistent follows the access codes; one that would break it changes nothing but the recorder. The
scrubber reads the next line when the glade permits class 5; a corrected line is written back, and after the last line the pass is
counted. AUDIT_START and AUDIT_UNIT (R316, R319). A write with EN = 1 starts a pass of the glade that the register names, from the open
ring and the code epoch. A row with an answer that defers it is put off the first time it is met; a line whose syndromes are all zero
finds nothing bad, and line 31 counts the row. A unit that is not this member's to audit changes nothing. It rests on the model's choices
in assumption 22. -/
def Obligations.BudgetsScrubAndAudit : Prop :=
  (∀ s : State, s.up → ∃ t, exec .budgetWindow s = .next t ∧ (∀ c, t.account c = Account.reset) ∧
    (∀ set c, set < 4 → c < 8 → t.latchedReg (R.BGT_SET set c) = t.reg (R.BGT_SET set c) ∧
      t.latchedReg (R.BGT_TOTAL set) = t.reg (R.BGT_TOTAL set)) ∧ s.sameRegsBut [R.BGT_SHORT] t ∧ t.mem = s.mem) ∧
  (∀ (s : State) (set : Fin 4) (cls : Fin 8) (v : Word), s.up →
    setBroken (fun x => if x = R.BGT_SET set.val cls.val then writeByCode x (s.reg x) v else s.reg x) set.val = false →
    ∃ t, exec (.budgetSetWrite false set cls v) s = .next t ∧
      t.reg (R.BGT_SET set.val cls.val) = writeByCode (R.BGT_SET set.val cls.val) (s.reg (R.BGT_SET set.val cls.val)) v ∧
      s.sameRegsBut [R.BGT_SET set.val cls.val] t ∧ t.budget = s.budget ∧ t.mem = s.mem) ∧
  (∀ (s : State) (set : Fin 4) (cls : Fin 8) (v : Word), s.up →
    setBroken (fun x => if x = R.BGT_TOTAL set.val then writeByCode x (s.reg x) v else s.reg x) set.val = false →
    ∃ t, exec (.budgetSetWrite true set cls v) s = .next t ∧
      t.reg (R.BGT_TOTAL set.val) = writeByCode (R.BGT_TOTAL set.val) (s.reg (R.BGT_TOTAL set.val)) v ∧
      s.sameRegsBut [R.BGT_TOTAL set.val] t ∧ t.budget = s.budget ∧ t.mem = s.mem) ∧
  (∀ (s : State) (set : Fin 4) (cls : Fin 8) (v : Word), s.up →
    setBroken (fun x => if x = R.BGT_TOTAL set.val then writeByCode x (s.reg x) v else s.reg x) set.val = true →
    ∃ t, exec (.budgetSetWrite true set cls v) s = .next t ∧ s.sameRegsBut [R.EVR_LOST] t ∧ t.budget = s.budget ∧ t.mem = s.mem) ∧
  (∀ (s : State) (g : GladeId) (line : List Byte) (o : Nat), s.up → s.rd R.BGT_SCRUB F.BGT_SCRUB_EN = 1 → s.active g.val = true →
    s.permits g.val 5 = true → s.scrubNext s.budget.scrubAt = some o → s.lineStaged o = false →
    ∃ t, exec (.scrubLine g .ok line) s = .next t ∧ t.budget.scrubAt = (s.scrubNext (o + 128)).getD 0 ∧
      (t.account 5).rd = (s.account 5).rd + 1 ∧ s.sameRegsBut [R.BGT_SCRUB, R.BGT_USE 5] t ∧ t.mem = s.mem) ∧
  (∀ (s : State) (g : GladeId) (line : List Byte) (o : Nat), s.up → s.rd R.BGT_SCRUB F.BGT_SCRUB_EN = 1 → s.active g.val = true →
    s.permits g.val 5 = true → s.scrubNext s.budget.scrubAt = some o → s.lineStaged o = false → line.length = 128 → s.served o 128 = true →
    ∃ t, exec (.scrubLine g .corr line) s = .next t ∧ s.stores o line t ∧
      s.sameRegsBut [R.BGT_SCRUB, R.BGT_USE 5, R.MPT_ERR (portOf o)] t) ∧
  (∀ (s : State) (v : Word), s.up → ∃ t a, exec (.auditStart v) s = .next t ∧ t.budget.audit = some a ∧
    a.glade = t.rd R.BGT_AUDCTL F.BGT_AUDCTL_GLADE ∧ a.startRing = s.openRing a.glade ∧ a.epoch = (s.code a.glade).epoch ∧
    a.rows = 0 ∧ a.bad = 0 ∧ a.repaired = 0 ∧ a.unres = 0 ∧
    t.reg R.BGT_AUDCTL = writeByCode R.BGT_AUDCTL (s.reg R.BGT_AUDCTL) (v ||| 1) ∧ s.sameRegsBut [R.BGT_AUDCTL] t ∧
    t.mem = s.mem) ∧
  (∀ (s : State) (a : AuditPass) (row line : Nat) (rows : List RowAnswer), s.up → s.budget.audit = some a → s.joined a.glade = true →
    s.permits a.glade 5 = true → row % s.groveN a.glade = (s.code a.glade).slot → row < (s.code a.glade).rows → line < 32 →
    rows.any RowAnswer.defers = true → a.lastDone = false → a.deferred.contains row = false → ∃ t, exec (.auditUnit row line rows) s = .next t ∧
      t.budget.audit = some { a with
        deferred := a.deferred ++ [row],
        lastDone := a.lastDone || row == s.auditLast a.glade } ∧
      s.sameRegsBut [R.BGT_USE 5] t ∧ t.mem = s.mem) ∧
  (∀ (s : State) (row line : Nat) (rows : List RowAnswer), s.up → s.budget.audit = none →
    exec (.auditUnit row line rows) s = .next s)

/-- SKIPREQ, CONTRIBUTION, END_OF_STEP_MARKER, MARKER_RECEIPT and MARKER_RESEND (R85, R89, R145). The skip request sets SKIPREQ. A
contribution of the open or a carried ring is added lane by lane into its block's reduction buffer and counted in its stream; one of any
other ring is counted late and added nowhere. A marker is answered with a receipt each time and counted once. A receipt ends the wait of
its marker, and a marker without one goes out again. It rests on the model's choices in assumption 4. -/
def Obligations.ContributionsAndMarkers : Prop :=
  (∀ (s : State) (g : GladeId), s.up → ∃ t, exec (.skipreq g) s = .next t ∧ t.rd (R.STP_GCTL g.val) F.STP_GCTL_SKIPREQ = 1 ∧
    s.sameRegsBut [R.STP_GCTL g.val] t ∧ t.glades = s.glades ∧ t.mem = s.mem) ∧
  (∀ (s : State) (g : GladeId) (lo sidx l b : Nat) (v : List F32), s.up → s.active g.val = true → s.exact g.val = false →
    s.ownsBlock g.val l b = true → (s.gl g.val).takenIn = false → (s.ringBack g.val (lo % 256)).isSome = true →
    (s.gl g.val).verdictDone = false → (s.gl g.val).partialV = none → (s.gl g.val).held = [] → v.length = 1024 →
    s.served (s.bufferAddr g.val (s.localBlock g.val (s.members g.val) (s.lmn g.val) l b)) 4096 = true →
    ∃ t, exec (.contribution g lo sidx l b v) s = .next t ∧
      s.stores (s.bufferAddr g.val (s.localBlock g.val (s.members g.val) (s.lmn g.val) l b))
        (f32Bytes (addLists (f32s (s.readBytes (s.bufferAddr g.val
          (s.localBlock g.val (s.members g.val) (s.lmn g.val) l b)) 4096)) v).1) t ∧
      (lo % 256, l, b, sidx) ∈ (t.gl g.val).summed ∧ (t.gl g.val).held = [] ∧
      ((t.gl g.val).stream (s.openLo g.val) (lo % 256) sidx).added =
        ((s.gl g.val).stream (s.openLo g.val) (lo % 256) sidx).added + 1) ∧
  (∀ (s : State) (g : GladeId) (lo sidx l b : Nat) (v : List F32), s.up → s.active g.val = true → s.exact g.val = false →
    s.ownsBlock g.val l b = true → (s.gl g.val).takenIn = false → s.ringBack g.val (lo % 256) = none →
    ∃ t, exec (.contribution g lo sidx l b v) s = .next t ∧
      t.rd (R.STP_CNT g.val) F.STP_CNT_LATE = min (s.rd (R.STP_CNT g.val) F.STP_CNT_LATE + 1) (2 ^ F.STP_CNT_LATE.width - 1) ∧
      s.sameRegsBut [R.STP_CNT g.val] t ∧ t.glades = s.glades ∧ t.mem = s.mem) ∧
  (∀ (s : State) (g : GladeId) (lo sidx n : Nat), s.up → s.active g.val = true → (s.gl g.val).held = [] →
    (s.ringBack g.val (lo % 256)).isSome = true → ((s.gl g.val).stream (s.openLo g.val) (lo % 256) sidx).marker = none →
    ∃ t, exec (.endOfStepMarker g lo sidx n) s = .next t ∧
      ((t.gl g.val).stream (s.openLo g.val) (lo % 256) sidx).marker = some n ∧
      t.sent = s.sent ++ [.toMember g.val (sidx / s.spm g.val) "MARKER_RECEIPT" [g.val, s.lmn g.val, lo % 256, sidx, n] []] ∧
      t.regs = s.regs ∧ t.mem = s.mem) ∧
  (∀ (s : State) (g : GladeId) (lo sidx n : Nat), s.up → s.active g.val = true → s.ringBack g.val (lo % 256) = none →
    ∃ t, exec (.endOfStepMarker g lo sidx n) s = .next t ∧
      t.sent = s.sent ++ [.toMember g.val (sidx / s.spm g.val) "MARKER_RECEIPT" [g.val, s.lmn g.val, lo % 256, sidx, n] []] ∧
      t.regs = s.regs ∧ t.glades = s.glades ∧ t.mem = s.mem) ∧
  (∀ (s : State) (g : GladeId) (owner lo sidx n : Nat), s.up → (∀ q, q < 12 → (s.qu q).descs = []) →
    ∃ t, exec (.markerReceipt g owner lo sidx n) s = .next t ∧
      (∀ m, m ∈ (t.gl g.val).markersOut ↔ m ∈ (s.gl g.val).markersOut ∧ m ≠ ⟨owner, sidx, n, lo % 256⟩) ∧
      t.regs = s.regs ∧ t.sent = s.sent ∧ t.mem = s.mem) ∧
  (∀ (s : State) (g : GladeId) (owner sidx : Nat) (m : MarkerOut), s.up → m ∈ (s.gl g.val).markersOut → m.owner = owner → m.sidx = sidx →
    ∃ t, exec (.markerResend g owner sidx) s = .next t ∧
      .toMember g.val owner "MARKER" [g.val, m.ringLo, m.sidx, m.blocks] [] ∈ t.sent ∧ t.regs = s.regs ∧ t.glades = s.glades ∧
      t.mem = s.mem)

/-- READY_NOTICE, PULL_DONE, PARTIAL_VERDICT, STRAGGLER_DEADLINE and VERDICT_RECEIPT (R89 to R94, R145). A ready notice starts a pull of the
owner's range with remote line reads; pull-done ends the wait of its notice. Once every stream is complete the member forms its partial
verdict and enters STAGE 2; at the deadline it forms it as it stands, counting the incomplete streams, except under policy 0 or DEADLINE
0. A verdict with APPLY starts the apply; one with neither APPLY nor CARRY skips the ring and zeroes the buffers; one with CARRY counts
CARRIED; a record with a wrong CRC is not taken. It rests on the model's choices in assumption 4. -/
def Obligations.PullsAndVerdicts : Prop :=
  (∀ (s : State) (g : GladeId) (lo sidx l b src : Nat), s.up → s.active g.val = true → s.exact g.val = true →
    s.ownsBlock g.val l b = true → (s.gl g.val).covers (lo % 256) sidx l = false → (s.ringBack g.val (lo % 256)).isSome = true →
    (s.gl g.val).takenIn = false → (s.gl g.val).verdictDone = false → ∃ t, exec (.readyNotice g lo sidx l b src) s = .next t ∧
      (t.gl g.val).pulls = (s.gl g.val).pulls ++ [⟨sidx, l, b, sidx / s.spm g.val, lo % 256⟩] ∧
      t.sent = s.sent ++ (List.range' b (s.ownedBlocks g.val (s.members g.val) (s.lmn g.val) l)).map
        (fun x => .toMember g.val (sidx / s.spm g.val) "LRD" [g.val, src + 4096 * x, 4096] []) ∧
      s.sameRegsBut [R.STP_GSTAT g.val] t ∧ t.mem = s.mem) ∧
  (∀ (s : State) (g : GladeId) (owner sidx l n : Nat), s.up → (∀ q, q < 12 → (s.qu q).descs = []) →
    ∃ t, exec (.pullDone g owner sidx l n) s = .next t ∧ (sidx, l, owner) ∉ (t.gl g.val).noticesOut ∧
      t.regs = s.regs ∧ t.sent = s.sent ∧ t.mem = s.mem) ∧
  (∀ (s : State) (g : GladeId), s.up → s.verdictOpen g.val = true → s.permits g.val 3 = true → (s.gl g.val).takenIn = false →
    s.incomplete g.val = [] → s.served (s.regionBase g.val 6) (4096 * s.bloc g.val) = true →
    ∃ t p, exec (.partialVerdict g) s = .next t ∧ (t.gl g.val).partialV = some p ∧ p.missing = 0 ∧ p.strag = false ∧
      (p.acc, p.nonfin) = s.measure g.val ∧ p.ring = s.openRing g.val ∧ t.stage g.val = 2 ∧
      s.sameRegsBut [R.STP_GSTAT g.val, R.BGT_USE 3] t ∧ t.mem = s.mem) ∧
  (∀ (s : State) (g : GladeId), s.up → s.verdictOpen g.val = true → (s.gl g.val).inForce.policy ≠ 0 →
    (s.gl g.val).inForce.deadline ≠ 0 → (s.gl g.val).takenIn = false →
    s.served (s.regionBase g.val 6) (4096 * s.bloc g.val) = true →
    ∃ t p, exec (.stragglerDeadline g) s = .next t ∧ (t.gl g.val).partialV = some p ∧
      p.missing = min (s.incomplete g.val).length 0xFFFF ∧ (p.strag = true ↔ s.incomplete g.val ≠ []) ∧
      (p.acc, p.nonfin) = s.measure g.val ∧ t.stage g.val = 2 ∧ t.mem = s.mem) ∧
  (∀ (s : State) (g : GladeId), (s.gl g.val).inForce.policy = 0 ∨ (s.gl g.val).inForce.deadline = 0 →
    exec (.stragglerDeadline g) s = .next s) ∧
  (∀ (s : State) (g : GladeId) (r : List Byte), s.up → s.active g.val = true → s.fenced g.val = false →
    (s.gl g.val).verdictDone = false → verdictCrcOk r = false → ∃ t, exec (.verdictReceipt g r) s = .next t ∧
      s.sameRegsBut [R.EVR_LOST] t ∧ t.glades = s.glades ∧ t.mem = s.mem) ∧
  (∀ (s : State) (g : GladeId) (r : List Byte), s.up → s.active g.val = true → s.fenced g.val = false →
    (s.gl g.val).verdictDone = false → verdictCrcOk r = true → r.length = 32 → leAt r 16 8 = s.openRing g.val →
    verdictApply r = true → (s.gl g.val).takenIn = false → s.bloc g.val ≠ 0 → ∃ t, exec (.verdictReceipt g r) s = .next t ∧
      (t.gl g.val).verdict = r ∧ (t.gl g.val).verdictDone = true ∧ t.stage g.val = 3 ∧
      t.rd (R.STP_GSTAT g.val) F.STP_GSTAT_LASTAPPLY = 1 ∧ t.rd (R.STP_GSTAT g.val) F.STP_GSTAT_CARRIED = 0 ∧
      s.sameRegsBut [R.STP_GSTAT g.val, R.STP_CNT g.val] t ∧ t.mem = s.mem) ∧
  (∀ (s : State) (g : GladeId) (r : List Byte), s.up → s.active g.val = true → s.fenced g.val = false →
    (s.gl g.val).verdictDone = false → verdictCrcOk r = true → r.length = 32 → leAt r 16 8 = s.openRing g.val →
    verdictApply r = false → verdictCarry r = false → s.served (s.regionBase g.val 6) (4096 * s.bloc g.val) = true →
    ∃ t, exec (.verdictReceipt g r) s = .next t ∧ t.stage g.val = 5 ∧ t.rd (R.STP_GSTAT g.val) F.STP_GSTAT_LASTAPPLY = 0 ∧
      t.rd (R.STP_CNT g.val) F.STP_CNT_SKIPS = min (s.rd (R.STP_CNT g.val) F.STP_CNT_SKIPS + 1) (2 ^ F.STP_CNT_SKIPS.width - 1) ∧
      (t.gl g.val).held = [] ∧
      (∀ a, t.readByte a = if s.regionBase g.val 6 ≤ a ∧ a < s.regionBase g.val 6 + 4096 * s.bloc g.val then 0 else s.readByte a)) ∧
  (∀ (s : State) (g : GladeId) (r : List Byte), s.up → s.active g.val = true → s.fenced g.val = false →
    (s.gl g.val).verdictDone = false → verdictCrcOk r = true → r.length = 32 → leAt r 16 8 = s.openRing g.val →
    verdictApply r = false → verdictCarry r = true → (s.gl g.val).held = [] →
    ∃ t, exec (.verdictReceipt g r) s = .next t ∧ t.stage g.val = 5 ∧
      t.carried g.val = (verdictCarried r + 1) % 2 ^ F.STP_GSTAT_CARRIED.width ∧
      s.sameRegsBut [R.STP_GSTAT g.val, R.STP_CNT g.val] t ∧ t.mem = s.mem)

/-- END, LD, ST, MOV, SQACC0 and SQACC1 (R96, R99, R117, R118): each changes the lane and nothing else of the block. END ends the pass; the
next instruction begins one. LD takes the staged value of its class, ST stores it and counts a non-finite one, MOV copies; in a padding
lane LD gives +0.0, ST stores zero, and SQACC adds nothing. ADD, SUB, MUL, FMA, FNMA, DIV, SQRT, MAX, MIN and SIGN (R96, R117): D takes
the rounded result and the lane's exceptions gain those that it raises; nothing else of the block changes. It rests on the model's choices
in assumption 60. -/
def Obligations.LaneInstructions : Prop :=
  (∀ s : State, s.up → s.lane.ended = false → exec .stepEnd s = .next { s with lane := { s.lane with ended := true } }) ∧
  (∀ (s : State) (d : Fin 16) (cls : Fin 4), s.up → s.lane.ended = false → exec (.stepLd d cls) s = .next { s with
    lane := { s.lane with v := s.lane.v.set d.val (if s.lane.padding then 0 else s.lane.staged.getD cls.val 0) } }) ∧
  (∀ (s : State) (d : Fin 16) (a : Operand), s.up → s.lane.ended = false → exec (.stepMov d a) s = .next { s with
    lane := { s.lane with v := s.lane.v.set d.val (s.lane.operand a) } }) ∧
  (∀ (s : State) (cls : Fin 3) (a : Operand), s.up → s.lane.ended = false → s.lane.padding = false →
    exec (.stepSt cls a) s = .next { s with lane := { s.lane with
      stored := s.lane.stored.set cls.val (some (s.lane.operand a)),
      nonfinite := if isFinite32 (s.lane.operand a) then s.lane.nonfinite else s.lane.nonfinite + 1 } }) ∧
  (∀ (s : State) (cls : Fin 3) (a : Operand), s.up → s.lane.ended = false → s.lane.padding = true →
    exec (.stepSt cls a) s = .next { s with lane := { s.lane with stored := s.lane.stored.set cls.val (some 0) } }) ∧
  (∀ (s : State) (a : Operand), s.up → s.lane.ended = false → s.lane.padding = false →
    exec (.stepSqacc0 a) s = .next { s with lane := { s.lane with acc0 := accAdd s.lane.acc0 (accSquare (s.lane.operand a)) } } ∧
    exec (.stepSqacc1 a) s = .next { s with lane := { s.lane with acc1 := accAdd s.lane.acc1 (accSquare (s.lane.operand a)) } }) ∧
  (∀ (s : State) (a : Operand), s.up → s.lane.ended = false → s.lane.padding = true →
    exec (.stepSqacc0 a) s = .next s ∧ exec (.stepSqacc1 a) s = .next s) ∧
  (∀ (s : State) (d : Fin 16) (x : Fin 3) (y : Fin 4) (a b c : Operand) (i : Instr), s.up → s.lane.ended = true →
    i ∈ [.stepEnd, .stepLd d y, .stepSt x a, .stepAdd d a b, .stepSub d a b, .stepMul d a b, .stepFma d a b c, .stepFnma d a b c,
      .stepDiv d a b, .stepSqrt d a, .stepMax d a b, .stepMin d a b, .stepSign d a, .stepSqacc0 a, .stepSqacc1 a, .stepMov d a] →
    exec i s = exec i { s with
      lane := { s.lane with v := List.replicate 16 0, acc0 := 0, acc1 := 0, stored := List.replicate 3 none, ended := false } }) ∧
  (∀ (s : State) (d : Fin 16) (a b c : Operand) (i : Instr) (r : Nat × Exc), s.up → s.lane.ended = false →
    (i, r) ∈ [
      (.stepAdd d a b, b32.add (s.lane.operand a).toNat (s.lane.operand b).toNat),
      (.stepSub d a b, b32.sub (s.lane.operand a).toNat (s.lane.operand b).toNat),
      (.stepMul d a b, b32.mul (s.lane.operand a).toNat (s.lane.operand b).toNat),
      (.stepFma d a b c, b32.fma false (s.lane.operand a).toNat (s.lane.operand b).toNat (s.lane.operand c).toNat),
      (.stepFnma d a b c, b32.fma true (s.lane.operand a).toNat (s.lane.operand b).toNat (s.lane.operand c).toNat),
      (.stepDiv d a b, b32.div (s.lane.operand a).toNat (s.lane.operand b).toNat),
      (.stepSqrt d a, b32.sqrt (s.lane.operand a).toNat),
      (.stepMax d a b, b32.maxOp (s.lane.operand a).toNat (s.lane.operand b).toNat),
      (.stepMin d a b, b32.minOp (s.lane.operand a).toNat (s.lane.operand b).toNat),
      (.stepSign d a, b32.signOf (s.lane.operand a).toNat)] →
    exec i s = .next { s with lane := { s.lane with v := s.lane.v.set d.val (BitVec.ofNat 32 r.1), exc := s.lane.exc ||| r.2 } })

/-- R117: the special cases of lane arithmetic. With a NaN operand the result is the first NaN with bit 22 set, and IV is raised exactly when
an operand is signalling; ∞ − ∞, 0 × ∞ and ∞ / ∞ give the default NaN with IV; a non-zero finite value divided by a zero gives an infinity
of the usual sign with DZ; MAX and MIN order −0 below +0. -/
def Obligations.LaneSpecialCases : Prop :=
  (∀ (f : Nat → Nat → Nat × Exc) (a b : BitVec 32), f ∈ [b32.add, b32.sub, b32.mul, b32.div, b32.maxOp, b32.minOp] →
    0x7F800000 < a.toNat % 2 ^ 31 →
    f a.toNat b.toNat = ((a ||| 0x400000).toNat, if b32.isSnan a.toNat || b32.isSnan b.toNat then Exc.iv else 0)) ∧
  (∀ (f : Nat → Nat → Nat × Exc) (a b : BitVec 32), f ∈ [b32.add, b32.sub, b32.mul, b32.div, b32.maxOp, b32.minOp] →
    a.toNat % 2 ^ 31 ≤ 0x7F800000 → 0x7F800000 < b.toNat % 2 ^ 31 →
    f a.toNat b.toNat = ((b ||| 0x400000).toNat, if b32.isSnan b.toNat then Exc.iv else 0)) ∧
  (∀ a : BitVec 32, b32.isSnan a.toNat = true ↔ 0x7F800000 < a.toNat % 2 ^ 31 ∧ a.getLsbD 22 = false) ∧
  b32.add 0x7F800000 0xFF800000 = (0x7FC00000, Exc.iv) ∧ b32.sub 0x7F800000 0x7F800000 = (0x7FC00000, Exc.iv) ∧
  (∀ z y : Nat, z ∈ [0, 0x80000000] → y ∈ [0x7F800000, 0xFF800000] →
    b32.mul z y = (0x7FC00000, Exc.iv) ∧ b32.mul y z = (0x7FC00000, Exc.iv) ∧ b32.div y y = (0x7FC00000, Exc.iv)) ∧
  (∀ a b : BitVec 32, 0 < a.toNat % 2 ^ 31 → a.toNat % 2 ^ 31 < 0x7F800000 → b.toNat % 2 ^ 31 = 0 →
    b32.div a.toNat b.toNat = ((0x7F800000 ||| ((a ^^^ b) &&& 0x80000000)).toNat, Exc.dz)) ∧
  (∀ a b : BitVec 32, a.toNat % 2 ^ 31 < 0x7F800000 → b.toNat % 2 ^ 31 < 0x7F800000 →
    b32.add a.toNat b.toNat = b32.add b.toNat a.toNat ∧ b32.mul a.toNat b.toNat = b32.mul b.toNat a.toNat) ∧
  b32.maxOp 0x80000000 0 = (0, 0) ∧ b32.maxOp 0 0x80000000 = (0, 0) ∧ b32.minOp 0x80000000 0 = (0x80000000, 0) ∧
  b32.minOp 0 0x80000000 = (0x80000000, 0) ∧ b32.sqrt 0x80000000 = (0x80000000, 0)

/-- R96: a step-program instruction and its word determine each other: the word of every instruction decodes to it, and a word that decodes is
the word of what it decodes to. No bit of the encoding is dropped, and no undefined word decodes. -/
def Obligations.StepProgramEncoding : Prop :=
  (∀ o : LaneOp, LaneOp.ofWord o.word = some o ∧ o.word < 2 ^ 32) ∧
  (∀ (w : Nat) (o : LaneOp), w < 2 ^ 32 → LaneOp.ofWord w = some o → o.word = w)

/-- APPLY_BLOCK, TRUST_RATIO_RESULT, PROGRAM_SLOT_WRITE and PMEM_WRITE (R97, R102, R105). A block whose turn has come is applied once its
leaves are there, or takes its first pass; a block that does not exist changes nothing. The sums of a layer are taken. A slot takes a
program that passes the check and no other, and a program word takes a write unless a valid slot's pass holds it. -/
def Obligations.ApplyAndPrograms : Prop :=
  (∀ (s : State) (g : GladeId) (k l b : Nat), s.up → s.applyOpen g.val = true → k < s.bloc g.val → s.firstOpen g.val = false →
    s.blockTurn g.val k false = true → s.locate g.val k = some (l, b) → s.blockDead g.val k = false → s.blockWaits g.val k = false →
    ∃ t, exec (.applyBlock g k) s = .next t ∧ k ∈ (t.gl g.val).applied) ∧
  (∀ (s : State) (g : GladeId) (k l b : Nat), s.up → s.applyOpen g.val = true → k < s.bloc g.val → s.firstOpen g.val = true →
    s.blockTurn g.val k true = true → s.locate g.val k = some (l, b) → s.blockDead g.val k = false → s.blockWaits g.val k = false →
    ∃ t, exec (.applyBlock g k) s = .next t ∧ k ∈ (t.gl g.val).pass1 ∧ t.mem = s.mem) ∧
  (∀ (s : State) (g : GladeId) (k : Nat), s.bloc g.val ≤ k → exec (.applyBlock g k) s = .next s) ∧
  (∀ (s : State) (g : GladeId) (l : List LayerSum) (x : LayerSum), s.up → s.active g.val = true → (s.gl g.val).verdictDone = true →
    (s.gl g.val).trustDone = false → x ∈ l → ∃ t, exec (.trustRatioResult g l) s = .next t ∧ x ∈ (t.gl g.val).trust ∧
      s.sameRegsBut [R.STP_GSTAT g.val] t ∧ t.mem = s.mem) ∧
  (∀ (s : State) (k : Fin 256) (v : Word), s.up → s.slotInUse k.val = false →
    s.programOk (writeByCode (R.STP_SLOT k.val) (s.reg (R.STP_SLOT k.val)) v) = true →
    ∃ t, exec (.programSlotWrite k v) s = .next t ∧
      t.reg (R.STP_SLOT k.val) = writeByCode (R.STP_SLOT k.val) (s.reg (R.STP_SLOT k.val)) v ∧
      s.sameRegsBut [R.STP_SLOT k.val] t ∧ t.mem = s.mem) ∧
  (∀ (s : State) (k : Fin 256) (v : Word), s.up →
    fget (writeByCode (R.STP_SLOT k.val) (s.reg (R.STP_SLOT k.val)) v) F.STP_SLOT_VALID = 1 →
    s.programOk (writeByCode (R.STP_SLOT k.val) (s.reg (R.STP_SLOT k.val)) v) = false →
    ∃ t, exec (.programSlotWrite k v) s = .next t ∧ s.sameRegsBut [R.EVR_LOST] t ∧ t.mem = s.mem) ∧
  (∀ (s : State) (w : Fin 1024) (v : Word), s.up → s.pmemInUse w.val = false → ∃ t, exec (.pmemWrite w v) s = .next t ∧
    t.reg (R.STP_PMEM w.val) = v ∧ s.sameRegsBut [R.STP_PMEM w.val] t ∧ t.mem = s.mem) ∧
  (∀ (s : State) (w : Fin 1024) (v : Word), s.up → s.pmemInUse w.val = true → ∃ t, exec (.pmemWrite w v) s = .next t ∧
    s.sameRegsBut [R.EVR_LOST] t ∧ t.mem = s.mem)

/-- DELTA_RECEIVE and PARITY_FRAME_EVICT (R73, R77 to R80, R303). A delta of the open ring for a staged leaf with a reservation is folded: the
parity leaf takes the exclusive-or of its bytes and the delta's and no other byte changes, the fold bit of its data index is set, and the
answer is 0; with its bit set already it is answered 1 and nothing is folded; a malformed one is counted in FMTNACK and answered 2. A
staged leaf that has taken no delta leaves its frame and nothing else changes; one that has writes its journal entry at its reservation.
DELTA_ANSWER, DELTA_RESEND and DELTA_STALE (R78, R106): an answer 0, 1 or 8 settles its copy; no answer makes the holder stale for the row
in the open ring; a resend sends the kept copy again and counts it. It rests on the model's choices in assumption 4. -/
def Obligations.DeltasAndAnswers : Prop :=
  (∀ (s : State) (sender : Nat) (msg : List Byte) (h : DeltaHdr) (d : List Byte) (f : Fold) (r : Nat), s.up →
    parseDelta true msg = some (h, d) → h.glade < 16 → s.foldPermitted h.glade = true → (s.gl h.glade).heldDeltas = [] →
    s.checkDelta h sender = .inr (false, (s.code h.glade).slot) →
    (s.gl h.glade).building.contains (false, (s.code h.glade).parityLeaf h.row h.pidx) = false →
    s.notBuilt h.glade false ((s.code h.glade).parityLeaf h.row h.pidx) = false → h.ringLo = s.openLo h.glade →
    s.fold h.glade false ((s.code h.glade).parityLeaf h.row h.pidx) = some f → f.resv = some r → bitAt f.bits h.didx = false →
    (s.frames.any fun x => x.glade == h.glade && x.region == 4 &&
      x.unit == s.parityUnit h.glade false ((s.code h.glade).parityLeaf h.row h.pidx)) = true → d.length = 4096 →
    s.served (4096 * s.parityUnit h.glade false ((s.code h.glade).parityLeaf h.row h.pidx)) 4096 = true →
    ∃ t f', exec (.deltaReceive sender msg) s = .next t ∧
      s.stores (4096 * s.parityUnit h.glade false ((s.code h.glade).parityLeaf h.row h.pidx))
        (xorBytes (s.readBytes (4096 * s.parityUnit h.glade false ((s.code h.glade).parityLeaf h.row h.pidx)) 4096) d) t ∧
      t.fold h.glade false ((s.code h.glade).parityLeaf h.row h.pidx) = some f' ∧ f'.bits = f.bits ||| 2 ^ h.didx ∧
      t.sent = s.sent ++ [.toMember h.glade sender "DELTA_ANSWER" [h.glade, 0, h.row, h.pidx, 0, (s.code h.glade).epoch] []]) ∧
  (∀ (s : State) (sender : Nat) (msg : List Byte) (h : DeltaHdr) (d : List Byte) (f : Fold), s.up →
    parseDelta true msg = some (h, d) → h.glade < 16 → s.foldPermitted h.glade = true → (s.gl h.glade).heldDeltas = [] →
    s.checkDelta h sender = .inr (false, (s.code h.glade).slot) →
    (s.gl h.glade).building.contains (false, (s.code h.glade).parityLeaf h.row h.pidx) = false →
    s.notBuilt h.glade false ((s.code h.glade).parityLeaf h.row h.pidx) = false → h.ringLo = s.openLo h.glade →
    s.fold h.glade false ((s.code h.glade).parityLeaf h.row h.pidx) = some f → bitAt f.bits h.didx = true →
    ∃ t, exec (.deltaReceive sender msg) s = .next t ∧
      t.rd (R.GRV_FOLDSTAT h.glade) F.GRV_FOLDSTAT_DUP =
        min (s.rd (R.GRV_FOLDSTAT h.glade) F.GRV_FOLDSTAT_DUP + 1) (2 ^ F.GRV_FOLDSTAT_DUP.width - 1) ∧
      t.sent = s.sent ++ [.toMember h.glade sender "DELTA_ANSWER" [h.glade, 0, h.row, h.pidx, 1, (s.code h.glade).epoch] []] ∧
      s.sameRegsBut [R.GRV_FOLDSTAT h.glade] t ∧ t.glades = s.glades ∧ t.mem = s.mem) ∧
  (∀ (s : State) (sender : Nat) (msg : List Byte) (h : DeltaHdr), s.up → h = DeltaHdr.ofWord (leAt msg 0 8) →
    parseDelta true msg = none → s.foldPermitted h.glade = true → (s.gl h.glade).heldDeltas = [] → s.windowOpen h.glade = false →
    ∃ t, exec (.deltaReceive sender msg) s = .next t ∧
      t.rd (R.GRV_FOLDSTAT h.glade) F.GRV_FOLDSTAT_FMTNACK =
        min (s.rd (R.GRV_FOLDSTAT h.glade) F.GRV_FOLDSTAT_FMTNACK + 1) (2 ^ F.GRV_FOLDSTAT_FMTNACK.width - 1) ∧
      t.sent = s.sent ++ [.toMember h.glade sender "DELTA_ANSWER" [h.glade, 0, h.row, h.pidx, 2, (s.code h.glade).epoch] []] ∧
      s.sameRegsBut [R.GRV_FOLDSTAT h.glade, R.EVR_LOST] t ∧ t.mem = s.mem) ∧
  (∀ (s : State) (g : GladeId) (p : Nat), s.up →
    (s.frames.any fun f => f.glade == g.val && f.region == 4 && f.unit == s.parityUnit g.val false p) = true →
    s.fold g.val false p = none → ∃ t, exec (.parityFrameEvict g p) s = .next t ∧
      (t.frames.any fun f => f.glade == g.val && f.region == 4 && f.unit == s.parityUnit g.val false p) = false ∧
      t.regs = s.regs ∧ t.glades = s.glades ∧ t.mem = s.mem) ∧
  (∀ (s : State) (g : GladeId) (p off : Nat) (f : Fold) (b : List Byte), s.up →
    (s.frames.any fun f => f.glade == g.val && f.region == 4 && f.unit == s.parityUnit g.val false p) = true →
    s.fold g.val false p = some f → f.resv = some off →
    b = holderEntry f.bits (s.openLo g.val) ⟨0, true, 31, p % max 1 (s.code g.val).m, g.val, (s.code g.val).epoch, s.openLo g.val,
      (s.code g.val).rowOfParity (s.code g.val).slot p⟩ f.net →
    s.served (s.regionBase g.val 7 + off) b.length = true → ∃ t, exec (.parityFrameEvict g p) s = .next t ∧
      s.stores (s.regionBase g.val 7 + off) b t ∧
      s.sameRegsBut [R.BGT_USE 1] t) ∧
  (∀ (s : State) (g : GladeId) (row pidx code epoch : Nat), s.up → code ∈ [0, 1, 8] → (s.gl g.val).ledgerOld = [] →
    s.windowOpen g.val = false → (s.gl g.val).shadowsIn = [] →
    ((s.gl g.val).copies.any fun c => c.next == false && c.row == row && c.pidx == pidx) = true →
    ∃ t, exec (.deltaAnswer g false row pidx code epoch) s = .next t ∧
      (∀ c, c ∈ (t.gl g.val).copies ↔ c ∈ (s.gl g.val).copies ∧ ¬(c.next = false ∧ c.row = row ∧ c.pidx = pidx)) ∧
      (t.gl g.val).staleSent = (s.gl g.val).staleSent ∧ s.sameRegsBut [R.STP_GSTAT g.val] t ∧ t.mem = s.mem) ∧
  (∀ (s : State) (g : GladeId) (row pidx : Nat), s.up → (s.gl g.val).ledgerOld = [] → s.windowOpen g.val = false →
    (s.gl g.val).shadowsIn = [] → ((s.gl g.val).copies.any fun c => c.next == false && c.row == row && c.pidx == pidx) = true →
    ∃ t, exec (.deltaStale g false row pidx) s = .next t ∧ ⟨false, row, pidx⟩ ∈ (t.gl g.val).staleSent ∧
      ((t.gl g.val).copies.any fun c => c.next == false && c.row == row && c.pidx == pidx) = false ∧
      t.rd (R.STP_GSTAT g.val) F.STP_GSTAT_STALE =
        min (s.rd (R.STP_GSTAT g.val) F.STP_GSTAT_STALE + 1) (2 ^ F.STP_GSTAT_STALE.width - 1) ∧
      s.sameRegsBut [R.STP_GSTAT g.val, R.EVR_LOST] t ∧ t.mem = s.mem) ∧
  (∀ (s : State) (g : GladeId) (next : Bool) (row pidx : Nat), s.up →
    ((s.gl g.val).copies.any fun c => c.next == next && c.row == row && c.pidx == pidx) = true →
    ∃ t, exec (.deltaResend g next row pidx) s = .next t ∧
      t.rd (R.STP_CNT g.val) F.STP_CNT_RETRIES =
        min (s.rd (R.STP_CNT g.val) F.STP_CNT_RETRIES + 1) (2 ^ F.STP_CNT_RETRIES.width - 1) ∧
      t.sent.length = s.sent.length + 1 ∧ s.sameRegsBut [R.STP_CNT g.val] t ∧ t.mem = s.mem)

/-- R74 to R77: a holder reads out of a scaled copy what its sender put in, whatever the delta: the header's fields and all 4,096 bytes, in
the thinned form and in the raw one. -/
def Obligations.DeltaRoundTrip : Prop :=
  ∀ (raw : Bool) (h : DeltaHdr) (d : List Byte), h.scaled = true → h.didx < 32 → h.pidx < 4 → h.glade < 16 → h.epoch < 256 →
    h.ringLo < 256 → h.row < 2 ^ 32 → d.length = 4096 →
    parseDelta true (encodeDelta raw h d) = some ({ h with form := if raw ∨ 4112 < thinSize d then 1 else 0 }, d)

/-- R83: with one data string of a row erased, its parity and the other data strings give it back, whatever the data. R63, R64: GF(2⁸)
multiplication is commutative and associative and distributes over exclusive-or, every non-zero element has an inverse, and no coefficient
is zero. -/
def Obligations.CodingRecoversErasures : Prop :=
  (∀ (k len j e : Nat) (data : Nat → List Byte), k ≤ 28 → e < k → j < 4 → (∀ i, i < k → (data i).length = len) →
    reconstruct k len (fun i => if i = e then none else some (data i))
      [(j, encodeParityBytes len j ((List.range k).map data))] [e] = [data e]) ∧
  (∀ a b c : Byte, gmul a b = gmul b a ∧ gmul a (gmul b c) = gmul (gmul a b) c ∧ gmul a (b ^^^ c) = gmul a b ^^^ gmul a c) ∧
  (∀ a : Byte, a ≠ 0 → gmul a (ginv a) = 1) ∧
  (∀ j i : Nat, j < 4 → i < 28 → coef j i ≠ 0)

/-- R67: in row r parity j is held by slot (r + j) mod n, and the k remaining slots hold the data indices 0 to k − 1 in increasing slot order;
slot and index determine one another. R68: so do the row and the local leaf of a slot, for data and for parity. -/
def Obligations.PlacementIsOneToOne : Prop :=
  ∀ (c : Code), 1 ≤ c.k → 1 ≤ c.m →
    (∀ row j, j < c.m → c.paritySlot row j = (row + j) % c.n ∧ c.parityIndex row (c.paritySlot row j) = some j ∧
      c.dataIndex row (c.paritySlot row j) = none) ∧
    (∀ row i, i < c.k → c.dataSlot row i < c.n ∧ c.parityIndex row (c.dataSlot row i) = none ∧
      c.dataIndex row (c.dataSlot row i) = some i) ∧
    (∀ row i j, i < j → j < c.k → c.dataSlot row i < c.dataSlot row j) ∧
    (∀ slot q, slot < c.n → c.leafOfRow slot (c.rowOfLeaf slot q) = q ∧ c.parityIndex (c.rowOfLeaf slot q) slot = none) ∧
    (∀ slot p, slot < c.n → c.parityIndex (c.rowOfParity slot p) slot = some (p % c.m) ∧
      c.parityLeaf (c.rowOfParity slot p) (p % c.m) = p)

/-- RING_CLOSE_COMPLETION, RING_START_COMPLETION and LAGGARD_EVICTION (R52, R107, R109). The completion of the open ring commits it: GLD_RING
becomes the open ring and the member waits for the next start. A ring start opens the next ring at phase 0 with HOLD = 0; a member that it
evicts shows EVICTED and holds. The root starts the ring without the members whose entries have not come. It rests on the model's choices
in assumptions 4 and 29. -/
def Obligations.RingCloseAndStart : Prop :=
  (∀ (s : State) (g : GladeId) (stale : List RowPar), s.up → s.active g.val = true → s.fenced g.val = false →
    (s.gl g.val).ringOpen = true → ∃ t, exec (.ringCloseCompletion g (s.openRing g.val) stale) s = .next t ∧
      t.ring g.val = s.openRing g.val ∧ (t.gl g.val).ringOpen = false ∧ (t.gl g.val).lastStale = stale ∧
      (t.gl g.val).copies = [] ∧ (t.gl g.val).verdictDone = false ∧ t.stage g.val = 0 ∧ t.mem = s.mem) ∧
  (∀ (s : State) (g : GladeId) (r : Nat) (stale : List RowPar), r ≠ s.openRing g.val →
    exec (.ringCloseCompletion g r stale) s = .next s) ∧
  (∀ (s : State) (g : GladeId), s.up → s.active g.val = true → s.fenced g.val = false → (s.gl g.val).ringOpen = false →
    (s.gl g.val).startEntered = true → (s.gl g.val).started = true → (s.gl g.val).dissolved = false → (s.gl g.val).ledgerLater = [] →
    ∃ t, exec (.ringStartCompletion g (s.openRing g.val) [] .none) s = .next t ∧ (t.gl g.val).ringOpen = true ∧
      (t.gl g.val).wrapPending = false ∧ (t.gl g.val).inForce = s.shadowed g.val ∧ t.phase g.val = 0 ∧ t.hold g.val = false ∧
      t.stage g.val = 0 ∧ t.ring g.val = s.ring g.val ∧ t.mem = s.mem) ∧
  (∀ (s : State) (g : GladeId) (ev : List Nat) (o : PlanOutcome), s.up → s.active g.val = true → s.fenced g.val = false →
    (s.gl g.val).ringOpen = false → s.lmn g.val ∈ ev → (s.gl g.val).plan = none →
    ∃ t, exec (.ringStartCompletion g (s.openRing g.val) ev o) s = .next t ∧
      t.rd (R.STP_GSTAT g.val) F.STP_GSTAT_EVICTED = 1 ∧ t.stage g.val = 9 ∧ t.hold g.val = true ∧ t.mstate g.val = 0 ∧
      s.sameRegsBut [R.STP_GSTAT g.val, R.PHS_GSTAT g.val, R.GRV_MSTAT g.val, R.EVR_LOST] t ∧ t.mem = s.mem) ∧
  (∀ (s : State) (g : GladeId), s.up → s.active g.val = true → s.fenced g.val = false → s.treeRoot g.val = 0 → s.dense g.val = true →
    (s.gl g.val).ringOpen = false → (s.gl g.val).started = true → (s.gl g.val).replayWait = false → (s.gl g.val).plan = none →
    (s.gl g.val).dissolved = false → s.laggards g.val ≠ [] → s.lmn g.val ∉ s.laggards g.val → ∃ t, exec (.laggardEviction g) s = .next t ∧
      .toAll g.val "RING_START" ([g.val, s.openRing g.val, 0] ++ s.laggards g.val) [] ∈ t.sent ∧ t.phase g.val = 0)

/-- RNG_TEST_WRITE and RNG_OUTPUT_READY (R116, R130): a write sets the test register, and once the output is ready RNGOUT0 and RNGOUT1 hold
the generator's output for the test counter and key. ACCESS_COMPLETE and CONTEXT_TIMEOUT (R131): a completed access makes its context
ready; the first timeout restarts its unit and the second releases it and counts it. GANG_REQUEST, GANG_GRANT and GANG_GRANT_TIMEOUT
(R128): a request asks every enabled tile of the quadrant; the gang forms of the tiles that have granted, with their number as WIDTH, at
the last grant or at the timeout. It rests on the model's choices in assumption 33. -/
def Obligations.TilesAndGangs : Prop :=
  (∀ (s : State) (k : TileId) (w : Fin 4) (v : Word), s.up → s.tileDisabled k.val = false →
    ∃ t, exec (.rngTestWrite k w v) s = .next t ∧ t.reg (R.TIL_RNGIN k.val w.val) = v ∧ (t.tl k.val).rngPending = true ∧
      s.sameRegsBut [R.TIL_RNGIN k.val w.val] t ∧ t.mem = s.mem) ∧
  (∀ (s : State) (k : TileId), s.up → (s.tl k.val).rngPending = true → (s.tl k.val).rngWaiting = 0 →
    ∃ t, exec (.rngOutputReady k) s = .next t ∧ (t.tl k.val).rngPending = false ∧
      (t.reg (R.TIL_RNGOUT0 k.val)).toNat + 2 ^ 64 * (t.reg (R.TIL_RNGOUT1 k.val)).toNat =
        gen ((s.reg (R.TIL_RNGIN k.val 0)).toNat + 2 ^ 64 * (s.reg (R.TIL_RNGIN k.val 1)).toNat)
          ((s.reg (R.TIL_RNGIN k.val 2)).toNat + 2 ^ 64 * (s.reg (R.TIL_RNGIN k.val 3)).toNat) % 2 ^ 128 ∧
      s.sameRegsBut [R.TIL_RNGOUT0 k.val, R.TIL_RNGOUT1 k.val] t ∧ t.mem = s.mem) ∧
  (∀ (s : State) (k : TileId) (x : Nat), s.up → ∃ t, exec (.accessComplete k x) s = .next t ∧
    (t.tl k.val).contexts = (s.tl k.val).contexts.map (fun c => if c.id = x then { c with parked := false } else c) ∧
    t.regs = s.regs ∧ t.mem = s.mem) ∧
  (∀ (s : State) (k : TileId) (c : Context), s.up → (s.tl k.val).contexts = [c] → c.parked = true → c.restarted = false →
    c.kind ∈ [1, 2] → ∃ t, exec (.contextTimeout k c.id) s = .next t ∧ (t.tl k.val).contexts = [{ c with restarted := true }] ∧
      t.regs = s.regs ∧ t.glades = s.glades ∧ t.mem = s.mem) ∧
  (∀ (s : State) (k : TileId) (c : Context), s.up → (s.tl k.val).contexts = [c] → c.parked = true → c.restarted = true → c.kind = 2 →
    ∃ t, exec (.contextTimeout k c.id) s = .next t ∧ (t.tl k.val).contexts = [] ∧
      t.rd (R.TIL_CTX k.val) F.TIL_CTX_TOUT = min (s.rd (R.TIL_CTX k.val) F.TIL_CTX_TOUT + 1) (2 ^ F.TIL_CTX_TOUT.width - 1) ∧
      s.sameRegsBut [R.TIL_CTX k.val, R.EVR_LOST] t ∧ t.mem = s.mem) ∧
  (∀ (s : State) (q : QuadId), s.up → ∃ t, exec (.gangRequest q) s = .next t ∧
    (∀ k, k ∈ s.quadTiles q.val → (t.tl k).gangAsked = true ∧ (t.tl k).gangGranted = false ∧
      t.reg (R.TIL_GANG k) = resetWord (R.TIL_GANG k)) ∧
    (∀ k, k ∉ s.quadTiles q.val → t.tl k = s.tl k) ∧ t.mem = s.mem) ∧
  (∀ (s : State) (k : TileId) (i : Nat), s.up → (s.tl k.val).gangAsked = true → i ∈ s.quadTiles (k.val / 16) → i ≠ k.val →
    (s.tl i).gangAsked = true → (s.tl i).gangGranted = false → ∃ t, exec (.gangGrant k) s = .next t ∧
      (t.tl k.val).gangGranted = true ∧ t.regs = s.regs ∧ t.mem = s.mem) ∧
  (∀ (s : State) (k : TileId), s.up → (s.tl k.val).gangAsked = true → k.val ∈ s.quadTiles (k.val / 16) →
    (∀ i, i ∈ s.quadTiles (k.val / 16) → i ≠ k.val → (s.tl i).gangGranted = true) → ∃ t, exec (.gangGrant k) s = .next t ∧
      (∀ i, i ∈ s.quadTiles (k.val / 16) → t.rd (R.TIL_GANG i) F.TIL_GANG_MODE = 2 ∧
        t.rd (R.TIL_GANG i) F.TIL_GANG_WIDTH = (s.quadTiles (k.val / 16)).length ∧ (t.tl i).gangAsked = false) ∧ t.mem = s.mem) ∧
  (∀ (s : State) (q : QuadId) (k : Nat), s.up → k ∈ s.quadTiles q.val → (s.tl k).gangAsked = true →
    ∃ t, exec (.gangGrantTimeout q) s = .next t ∧
      (∀ i, i ∈ s.quadTiles q.val → (t.tl i).gangAsked = false ∧ ((s.tl i).gangGranted = true →
        t.rd (R.TIL_GANG i) F.TIL_GANG_MODE = 2 ∧ t.rd (R.TIL_GANG i) F.TIL_GANG_WIDTH =
          ((s.quadTiles q.val).filter fun x => (s.tl x).gangGranted).length)) ∧ t.mem = s.mem)

/-- QUEUE_DOORBELL, QUEUE_ENABLE, QUEUE_RESUME and QUEUE_SKIP (R137, R138). A doorbell sets TAIL, and a queue that is not halted is idle at
HEAD = TAIL and else running; EN takes its value; RESUME leaves the halt with the halting descriptor in place, SKIP drops it without a
signal. Queues 12 to 15 ignore all four. DESCRIPTOR_FETCH, DESCRIPTOR_START, DESCRIPTOR_COMPLETE and MATCH_TIMEOUT (R140, R142, R143). A
fetch takes the eight words at the queue's next index; a failed one halts the queue with CODE 10. A start whose checks pass starts the
descriptor; one whose check fails halts the queue with its code. A done descriptor completes: its token counts one up, and HEAD passes it.
A mismatch halts with CODE 6. -/
def Obligations.QueuesAndDescriptors : Prop :=
  (∀ (s : State) (q : QueueId) (v : Word), s.up → q.val < 12 → s.halted q.val = false → ∃ t, exec (.queueDoorbell q v) s = .next t ∧
    t.reg (R.CQ_QTAIL q.val) = writeByCode (R.CQ_QTAIL q.val) (s.reg (R.CQ_QTAIL q.val)) v ∧
    t.rd (R.CQ_QSTAT q.val) F.CQ_QSTAT_STATE = (if s.oldest q.val = t.qtail q.val then 0 else 1) ∧
    t.rd (R.CQ_QSTAT q.val) F.CQ_QSTAT_HEAD = s.oldest q.val % 2 ^ F.CQ_QSTAT_HEAD.width ∧
    s.sameRegsBut [R.CQ_QTAIL q.val, R.CQ_QSTAT q.val] t ∧ t.queues = s.queues ∧ t.mem = s.mem) ∧
  (∀ (s : State) (q : QueueId) (en : Bool), s.up → q.val < 12 → ∃ t, exec (.queueEnable q en) s = .next t ∧
    t.on (R.CQ_QCTL q.val) F.CQ_QCTL_EN = en ∧ s.sameRegsBut [R.CQ_QCTL q.val] t ∧ t.queues = s.queues ∧ t.mem = s.mem) ∧
  (∀ (s : State) (q : QueueId), s.up → q.val < 12 → s.halted q.val = true → ∃ t, exec (.queueResume q) s = .next t ∧
    t.halted q.val = false ∧ t.rd (R.CQ_QSTAT q.val) F.CQ_QSTAT_CODE = 0 ∧ t.queues = s.queues ∧
    s.sameRegsBut [R.CQ_QSTAT q.val] t ∧ t.mem = s.mem) ∧
  (∀ (s : State) (q : QueueId) (d : Desc), s.up → q.val < 12 → s.halted q.val = true → (s.qu q.val).descs = [d] →
    d.index = s.rd (R.CQ_QSTAT q.val) F.CQ_QSTAT_HEAD → ∃ t, exec (.queueSkip q) s = .next t ∧ (t.qu q.val).descs = [] ∧
      t.halted q.val = false ∧ t.rd (R.CQ_QSTAT q.val) F.CQ_QSTAT_CODE = 0 ∧ s.sameRegsBut [R.CQ_QSTAT q.val] t ∧ t.mem = s.mem) ∧
  (∀ (s : State) (q : QueueId) (v : Word) (en : Bool) (c : Instr), 12 ≤ q.val →
    c ∈ [.queueDoorbell q v, .queueEnable q en, .queueResume q, .queueSkip q] → exec c s = .next s) ∧
  (∀ (s : State) (q : QueueId), s.up → s.mayFetch q.val = true →
    s.served (4096 * s.rd (R.CQ_QBASE q.val) F.CQ_QBASE_BASE + 64 * (s.qu q.val).next) 64 = true →
    ∃ t, exec (.descriptorFetch q .ok) s = .next t ∧ (t.qu q.val).descs = (s.qu q.val).descs ++
        [⟨(s.qu q.val).next, (List.range 8).map fun k => BitVec.ofNat 64 (leNat (s.readBytes
          (4096 * s.rd (R.CQ_QBASE q.val) F.CQ_QBASE_BASE + 64 * (s.qu q.val).next + 8 * k) 8)), false, false, false⟩] ∧
      (t.qu q.val).next = ((s.qu q.val).next + 1) % 2 ^ s.log2n q.val ∧ s.sameRegsBut [R.CQ_QSTAT q.val, R.BGT_USE 4] t ∧
      t.mem = s.mem) ∧
  (∀ (s : State) (q : QueueId), s.up → s.mayFetch q.val = true → s.activeGlades = [] → ∃ t, exec (.descriptorFetch q .uncorr) s = .next t ∧
    t.halted q.val = true ∧ t.rd (R.CQ_QSTAT q.val) F.CQ_QSTAT_CODE = 10 ∧ t.rd (R.CQ_QSTAT q.val) F.CQ_QSTAT_TAG = 0 ∧
    t.queues = s.queues ∧ t.mem = s.mem) ∧
  (∀ (s : State) (q : QueueId) (d : Desc), s.up → (s.qu q.val).descs = [d] → d.started = false → s.halted q.val = false →
    s.rd (R.CQ_QCTL q.val) F.CQ_QCTL_EN = 1 → s.tokenReached d = true → s.profileAllows d = true → s.classAllows d = true →
    s.descErr d = 0 → ∃ t, exec (.descriptorStart q) s = .next t ∧ (t.qu q.val).descs = [{ d with started := true }] ∧
      s.sameRegsBut [R.CQ_QSTAT q.val] t ∧ t.mem = s.mem) ∧
  (∀ (s : State) (q : QueueId) (d : Desc), s.up → (s.qu q.val).descs = [d] → d.started = false → s.halted q.val = false →
    s.rd (R.CQ_QCTL q.val) F.CQ_QCTL_EN = 1 → s.tokenReached d = true → s.profileAllows d = true → s.classAllows d = true →
    s.descErr d ≠ 0 → ∃ t, exec (.descriptorStart q) s = .next t ∧ t.halted q.val = true ∧
      t.rd (R.CQ_QSTAT q.val) F.CQ_QSTAT_CODE = s.descErr d ∧ t.rd (R.CQ_QSTAT q.val) F.CQ_QSTAT_TAG = d.tag ∧
      s.sameRegsBut [R.CQ_QSTAT q.val, R.CQ_STATUS] t ∧ t.mem = s.mem) ∧
  (∀ (s : State) (q : QueueId) (d : Desc), s.up → (s.qu q.val).descs = [d] → d.started = true → d.completed = false → d.done = true →
    d.sen = true → d.irq = false → s.halted q.val = false → ∃ t, exec (.descriptorComplete q d.index) s = .next t ∧
      (t.qu q.val).descs = [] ∧ t.rd (R.CQ_QSTAT q.val) F.CQ_QSTAT_TAG = d.tag ∧
      t.rd (R.CQ_TOK d.stok) F.CQ_TOK_COUNT = (s.rd (R.CQ_TOK d.stok) F.CQ_TOK_COUNT + 1) % 2 ^ 32 ∧
      s.sameRegsBut [R.CQ_QSTAT q.val, R.CQ_TOK d.stok] t ∧ t.mem = s.mem) ∧
  (∀ (s : State) (g : GladeId) (cid q : Nat) (d : Desc), s.up → s.rd R.CQ_CTL F.CQ_CTL_TMO ≠ 0 → s.cidRunning g.val cid = [(q, d)] →
    ∃ t, exec (.matchTimeout g cid) s = .next t ∧ t.halted q = true ∧ t.rd (R.CQ_QSTAT q) F.CQ_QSTAT_CODE = 6 ∧
      s.sameRegsBut [R.CQ_QSTAT q, R.CQ_STATUS] t ∧ t.mem = s.mem)

/-- NOP, ALLREDUCE, REDUCESCATTER, ALLGATHER, BROADCAST and PERMUTE (R141, R143, R147): the effect of a started descriptor, after which it is
done. DST receives the sum, this member's segment of it, the concatenation in LMN order, the root's bytes, or what the peer that names
this member sent, and no other byte of memory changes. Operands that do not fit halt the queue with CODE 3. It rests on the model's
choices in assumptions 4 and 61. -/
def Obligations.CollectiveData : Prop :=
  (∀ (s : State) (q : QueueId) (d : Desc), s.up → (s.qu q.val).descs = [d] → d.started = true → d.completed = false → d.done = false →
    d.op = 0 → ∃ t, exec (.descNop q d.index) s = .next t ∧ (t.qu q.val).descs = [{ d with done := true }] ∧ t.regs = s.regs ∧
      t.mem = s.mem) ∧
  (∀ (s : State) (q : QueueId) (d : Desc) (o : List (List F32)) (l : List Byte), s.up → (s.qu q.val).descs = [d] → d.started = true →
    d.completed = false → d.done = false → d.op = 1 → s.matched d (d.count / 4) o = true → d.count ≠ 0 →
    s.served d.src d.count = true → l = f32Bytes (s.sumAll d (f32s (s.readBytes d.src d.count)) o).1 → s.served d.dst l.length = true →
    ∃ t, exec (.descAllreduce q d.index o) s = .next t ∧ (t.qu q.val).descs = [{ d with done := true }] ∧ s.stores d.dst l t) ∧
  (∀ (s : State) (q : QueueId) (d : Desc) (o : List (List F32)), s.up → (s.qu q.val).descs = [d] → d.started = true →
    d.completed = false → d.done = false → d.op = 1 → s.matched d (d.count / 4) o = false →
    ∃ t, exec (.descAllreduce q d.index o) s = .next t ∧ t.halted q.val = true ∧ t.rd (R.CQ_QSTAT q.val) F.CQ_QSTAT_CODE = 3 ∧
      s.sameRegsBut [R.CQ_QSTAT q.val, R.CQ_STATUS] t ∧ t.mem = s.mem) ∧
  (∀ (s : State) (q : QueueId) (d : Desc) (o : List (List F32)) (lo hi : Nat) (l : List Byte), s.up → (s.qu q.val).descs = [d] →
    d.started = true → d.completed = false → d.done = false → d.op = 2 → s.matched d (d.count / 4) o = true → d.count ≠ 0 →
    s.served d.src d.count = true → lo = s.lmn d.glade * (d.count / 4) / s.members d.glade →
    hi = (s.lmn d.glade + 1) * (d.count / 4) / s.members d.glade →
    l = f32Bytes (s.sumAll d (((f32s (s.readBytes d.src d.count)).drop lo).take (hi - lo))
      (o.map fun v => (v.drop lo).take (hi - lo))).1 → s.served d.dst l.length = true →
    ∃ t, exec (.descReducescatter q d.index o) s = .next t ∧ (t.qu q.val).descs = [{ d with done := true }] ∧ s.stores d.dst l t) ∧
  (∀ (s : State) (q : QueueId) (d : Desc) (o : List (List Byte)) (l : List Byte), s.up → (s.qu q.val).descs = [d] → d.started = true →
    d.completed = false → d.done = false → d.op = 3 → s.matched d d.count o = true → d.count ≠ 0 → s.served d.src d.count = true →
    l = ((List.range (s.members d.glade)).map (byLmn (s.lmn d.glade) (s.readBytes d.src d.count) o)).flatten →
    s.served d.dst l.length = true → ∃ t, exec (.descAllgather q d.index o) s = .next t ∧
      (t.qu q.val).descs = [{ d with done := true }] ∧ s.stores d.dst l t) ∧
  (∀ (s : State) (q : QueueId) (d : Desc) (l : List Byte), s.up → (s.qu q.val).descs = [d] → d.started = true → d.completed = false →
    d.done = false → d.op = 4 → s.lmn d.glade ≠ d.root → d.count ≠ 0 → l.length = d.count → s.served d.dst l.length = true →
    ∃ t, exec (.descBroadcast q d.index l) s = .next t ∧ (t.qu q.val).descs = [{ d with done := true }] ∧ s.stores d.dst l t) ∧
  (∀ (s : State) (q : QueueId) (d : Desc) (o : Nat) (l : List Byte), s.up → (s.qu q.val).descs = [d] → d.started = true →
    d.completed = false → d.done = false → d.op = 6 → d.count ≠ 0 → s.served d.src d.count = true → s.served o l.length = true →
    ∃ t, exec (.descPermute q d.index (some (o, l))) s = .next t ∧ (t.qu q.val).descs = [{ d with done := true }] ∧
      s.stores o l t ∧ .toMember d.glade d.peer "PERMUTE" [d.glade, d.cid, d.dst] (s.readBytes d.src d.count) ∈ t.sent)

/-- BARRIER, MCAST, MCAST_FALLBACK and RSGRAD (R141, R144, R145, R150). A barrier is done when every other member has issued it. A multicast
run leaves in pieces of 4,096 bytes, and the nodes that it missed are sent to one by one. RSGRAD in fast mode pushes every block of the
layer to its owner; in exact mode it sends each owner one ready notice. It rests on the model's choices in assumption 4. -/
def Obligations.CollectiveMessages : Prop :=
  (∀ (s : State) (q : QueueId) (d : Desc) (l : List Nat), s.up → (s.qu q.val).descs = [d] → d.started = true → d.completed = false →
    d.done = false → d.op = 5 → (s.otherMembers d.glade).all l.contains = true → ∃ t, exec (.descBarrier q d.index l) s = .next t ∧
      (t.qu q.val).descs = [{ d with done := true }] ∧ t.regs = s.regs ∧ t.mem = s.mem) ∧
  (∀ (s : State) (q : QueueId) (d : Desc), s.up → (s.qu q.val).descs = [d] → d.started = true → d.completed = false →
    d.done = false → d.op = 7 → d.count ≠ 0 → s.served d.src d.count = true → ∃ t, exec (.descMcast q d.index) s = .next t ∧
      (t.qu q.val).descs = [{ d with done := true }] ∧ s.sameRegsBut [R.BGT_USE 4] t ∧ t.mem = s.mem ∧
      (∀ r, r ∈ runsOf (s.readBytes d.src d.count) →
        .toNode s.pnid "MCAST" [d.glade, d.dim, d.dir, d.hops, d.dst + r.1] r.2 ∈ t.sent)) ∧
  (∀ (s : State) (q : QueueId) (d : Desc) (l : List Nat), s.up → (s.qu q.val).descs = [d] → d.started = true → d.completed = false →
    d.op = 7 → ∃ t, exec (.mcastFallback q d.index l) s = .next t ∧ t.regs = s.regs ∧ t.queues = s.queues ∧ t.mem = s.mem ∧
      (∀ x r, x ∈ l → r ∈ runsOf (s.readBytes d.src d.count) → .toNode x "MCAST" [d.glade, d.dst + r.1] r.2 ∈ t.sent)) ∧
  (∀ (s : State) (q : QueueId) (d : Desc), s.up → (s.qu q.val).descs = [d] → d.started = true → d.completed = false → d.done = false →
    d.op = 0x10 → d.last = false → s.exact d.glade = false → (s.gl d.glade).noticesOut = [] → (s.qu q.val).resumeAt = none →
    (∀ b, b < s.layerBlocks d.glade d.layer → s.served (d.src + 4096 * b) 4096 = true) → ∃ t, exec (.descRsgrad q d.index) s = .next t ∧
      (t.qu q.val).descs = [{ d with done := true }] ∧ t.mem = s.mem ∧
      (∀ b, b < s.layerBlocks d.glade d.layer → .toMember d.glade (s.ownerOf d.glade (s.members d.glade) d.layer b) "CONTRIBUTION"
        [d.glade, s.openRing d.glade % 256, s.sidx d.glade d.srcj, d.layer, b] (s.readBytes (d.src + 4096 * b) 4096) ∈ t.sent)) ∧
  (∀ (s : State) (q : QueueId) (d : Desc), s.up → (s.qu q.val).descs = [d] → d.started = true → d.completed = false → d.done = false →
    d.op = 0x10 → d.last = false → s.exact d.glade = true → ∃ t, exec (.descRsgrad q d.index) s = .next t ∧
      s.sameRegsBut [R.STP_GSTAT d.glade] t ∧ t.mem = s.mem ∧
      (∀ x, x ∈ s.ownersOf d.glade d.layer → (s.sidx d.glade d.srcj, d.layer, x.1) ∈ (t.gl d.glade).noticesOut ∧
        .toMember d.glade x.1 "READY_NOTICE" [d.glade, s.openRing d.glade % 256, s.sidx d.glade d.srcj, d.layer, x.2.1, d.src] [] ∈
          t.sent))

/-- R148: the tree of a glade's members. A member's parent is the member whose child it is, and LMN 0 has none. VERDICT_REDUCTION,
TRUST_RATIO_REDUCTION, RING_CLOSE_BARRIER, RING_START_BARRIER and TREE_ENTRY (R92, R102, R107, R148, R149). At the root, with its
children's entries there, the verdict and the layer sums are decided and the ring commits; a member whose children's entries have not come
enters and waits. A child's entry is kept; one with a wrong CRC is asked for again. It rests on the model's choices in assumptions 4 and
62. -/
def Obligations.TreesAndReductions : Prop :=
  (∀ sz x c : Nat, x < sz → (c ∈ treeChildren sz x ↔ c < sz ∧ treeParent sz c = some x)) ∧
  (∀ sz c : Nat, c < sz → (treeParent sz c = none ↔ c = 0)) ∧
  (∀ (s : State) (g : GladeId) (p : PartialVerdict) (l : List PartialVerdict), s.up → s.active g.val = true → s.fenced g.val = false →
    (s.gl g.val).verdictDone = false → s.permits g.val 3 = true → s.sides g.val = [] → (s.gl g.val).partialV = some p →
    allChildren (s.children g.val) (s.gl g.val).childV = some l → s.parent g.val = none →
    ∃ t, exec (.verdictReduction g) s = .next t ∧ (t.gl g.val).verdictDone = true ∧
      (t.gl g.val).verdict = verdictRecord (l.foldl PartialVerdict.combine p) g.val
        (s.judge g.val (l.foldl PartialVerdict.combine p)).1 (s.judge g.val (l.foldl PartialVerdict.combine p)).2) ∧
  (∀ (s : State) (g : GladeId) (p : PartialVerdict) (l : List PartialVerdict) (x : Nat), s.up → s.active g.val = true →
    s.fenced g.val = false → (s.gl g.val).verdictDone = false → s.permits g.val 3 = true → s.sides g.val = [] →
    (s.gl g.val).partialV = some p → allChildren (s.children g.val) (s.gl g.val).childV = some l → s.parent g.val = some x →
    ∃ t, exec (.verdictReduction g) s = .next t ∧ t = s.sendVerdictUp g.val x (s.treeRoot g.val) (l.foldl PartialVerdict.combine p)) ∧
  (∀ (s : State) (g : GladeId), s.up → s.active g.val = true → s.fenced g.val = false → (s.gl g.val).verdictDone = true →
    verdictApply (s.gl g.val).verdict = true → (s.gl g.val).trustDone = false → s.twoPassLayers g.val ≠ [] → s.firstDone g.val = true →
    s.permits g.val 3 = true → s.sides g.val = [] → s.children g.val = [] → s.parent g.val = none →
    ∃ t, exec (.trustRatioReduction g) s = .next t ∧ (t.gl g.val).trustDone = true ∧ t.stage g.val = 4 ∧
      (∀ l, l ∈ s.twoPassLayers g.val → ⟨l, accRound (layerAcc (s.gl g.val).layerAccs l).acc0,
        accRound (layerAcc (s.gl g.val).layerAccs l).acc1⟩ ∈ (t.gl g.val).trust) ∧
      s.sameRegsBut [R.STP_GSTAT g.val] t ∧ t.mem = s.mem) ∧
  (∀ (s : State) (g : GladeId), s.up → s.mayClose g.val = true → s.sides g.val = [] →
    allChildren (s.children g.val) (s.gl g.val).childC = none → ∃ t, exec (.ringCloseBarrier g) s = .next t ∧
      (t.gl g.val).closeEntered = true ∧ t.stage g.val = 6 ∧ s.sameRegsBut [R.STP_GSTAT g.val] t ∧ t.sent = s.sent ∧ t.mem = s.mem) ∧
  (∀ (s : State) (g : GladeId), s.up → s.mayClose g.val = true → s.sides g.val = [] → s.children g.val = [] → s.parent g.val = none →
    ∃ t, exec (.ringCloseBarrier g) s = .next t ∧ t.ring g.val = s.openRing g.val ∧ (t.gl g.val).ringOpen = false ∧ t.mem = s.mem) ∧
  (∀ (s : State) (g : GladeId), s.up → s.mayStart g.val = true → s.sides g.val = [] →
    allChildren (s.children g.val) (s.gl g.val).childS = none → ∃ t, exec (.ringStartBarrier g) s = .next t ∧
      (t.gl g.val).startEntered = true ∧ t.regs = s.regs ∧ t.sent = s.sent ∧ t.mem = s.mem) ∧
  (∀ (s : State) (g : GladeId) (c : Nat) (stale : List RowPar), s.up → s.active g.val = true → s.fenced g.val = false →
    c ∈ s.allKids g.val → (s.gl g.val).closeEntered = false → ∃ t,
      exec (.treeEntry g c true (.ringClose (s.openRing g.val) (s.code g.val).epoch stale)) s = .next t ∧
      (c, stale) ∈ (t.gl g.val).childC ∧ t.regs = s.regs ∧ t.mem = s.mem) ∧
  (∀ (s : State) (g : GladeId) (c : Nat) (p : TreePayload), s.up → s.active g.val = true → s.fenced g.val = false →
    c ∈ s.allKids g.val → c ∉ (s.gl g.val).wrongOnce → ∃ t, exec (.treeEntry g c false p) s = .next t ∧
      c ∈ (t.gl g.val).wrongOnce ∧ .toMember g.val c "ENTRY_REQUEST" [g.val, s.lmn g.val] [] ∈ t.sent ∧
      s.sameRegsBut [R.EVR_LOST] t ∧ t.mem = s.mem)

/-- BEAT_TIMER, GROVE_BEAT, BEAT_SILENCE, SUSPICION_NOTICE, FENCE_NOTICE and DEPARTURE_NOTICE (R161 to R164). A beat goes to every other
member of the grove; a beat that arrives puts its slot in sight; a slot that falls silent leaves sight and, like a suspicion, a fence
notice and a departure, starts an agreement over it, with the source as CAUSE, when none runs. START, PROBE, PROBE_ANSWER, ROUND1_END and
VIEW (R164 to R167). A START of a later SEQ is joined; one of an earlier SEQ changes nothing. Each of the two probes goes to every
suspect; an answer is noted in round 1. Round 1 ends with the member's own view sent and held; a view joins W, and in round 2 it is
echoed. It rests on the model's choices in assumptions 4, 9, 14 and 15. -/
def Obligations.DetectionsAndAgreement : Prop :=
  (∀ (s : State) (g : GladeId), s.up → s.inGrove g.val = true → s.fenced g.val = false → s.rangerHalted = false →
    ∃ t, exec (.beatTimer g) s = .next t ∧
      t.sent = s.sent ++ (s.grovePeers g.val).map (fun i => .toMember g.val i "BEAT" [g.val, (s.code g.val).slot] []) ∧
      t.regs = s.regs ∧ t.glades = s.glades ∧ t.mem = s.mem) ∧
  (∀ (s : State) (g : GladeId) (x : Nat), s.up → s.inGrove g.val = true → s.fenced g.val = false → x < s.groveN g.val →
    x ≠ (s.code g.val).slot → ∃ t, exec (.groveBeat g x) s = .next t ∧ ⟨x, s.now⟩ ∈ (t.gl g.val).beats ∧
      t.rd (R.GRV_MSTAT g.val) F.GRV_MSTAT_VIS = (1 + (t.gl g.val).beats.length) % 2 ^ F.GRV_MSTAT_VIS.width ∧
      s.sameRegsBut [R.GRV_MSTAT g.val] t ∧ t.sent = s.sent ∧ t.mem = s.mem) ∧
  (∀ (s : State) (g : GladeId) (x : Nat) (b : Beat), s.up → s.inGrove g.val = true → s.fenced g.val = false → x < s.groveN g.val →
    s.lmnOfSlot g.val x ≠ s.lmn g.val → (s.gl g.val).agreement = none → b ∈ (s.gl g.val).beats → b.slot = x → b.atTime + 250 ≤ s.now →
    ∃ t a, exec (.beatSilence g x) s = .next t ∧ (∀ y, y ∈ (t.gl g.val).beats → y.slot ≠ x) ∧ (t.gl g.val).agreement = some a ∧
      a.seq = (s.gl g.val).lastSeq + 1 ∧ a.suspects = [x] ∧ a.round = 1 ∧ t.mstate g.val = 2 ∧ t.rd R.GRV_WIT F.GRV_WIT_CAUSE = 2 ∧
      s.sameRegsBut [R.GRV_MSTAT g.val, R.GRV_WIT] t ∧ t.mem = s.mem) ∧
  (∀ (s : State) (g : GladeId) (x k cause : Nat) (c : Instr), s.up → s.inGrove g.val = true → s.fenced g.val = false →
    x < s.groveN g.val → s.lmnOfSlot g.val x ≠ s.lmn g.val → (s.gl g.val).agreement = none → k < 16 →
    (c, cause) ∈ [(.suspicionNotice g (s.lmnOfSlot g.val x) k, k), (.fenceNotice g (s.lmnOfSlot g.val x), 8),
      (.departureNotice g (s.lmnOfSlot g.val x), 4)] → ∃ t a, exec c s = .next t ∧ (t.gl g.val).agreement = some a ∧
      a.seq = (s.gl g.val).lastSeq + 1 ∧ a.suspects = [x] ∧ a.round = 1 ∧ t.mstate g.val = 2 ∧
      t.rd R.GRV_WIT F.GRV_WIT_CAUSE = cause ∧ t.rd R.GRV_WIT F.GRV_WIT_ACTIVE = 1 ∧
      t.sent = s.sent ++ (s.grovePeers g.val).map (fun i => .toMember g.val i "START" [g.val, (s.gl g.val).lastSeq + 1, x] []) ∧
      s.sameRegsBut [R.GRV_MSTAT g.val, R.GRV_WIT] t ∧ t.mem = s.mem) ∧
  (∀ (s : State) (g : GladeId) (q : Nat) (l : List Nat), s.up → s.inGrove g.val = true → s.fenced g.val = false →
    (s.gl g.val).agreement = none → (s.gl g.val).lastSeq < q → ∃ t a, exec (.start g q l) s = .next t ∧
      (t.gl g.val).agreement = some a ∧ a.seq = q ∧ a.suspects = l ∧ a.round = 1 ∧ (t.gl g.val).lastSeq = q ∧ t.mstate g.val = 2 ∧
      s.sameRegsBut [R.GRV_MSTAT g.val, R.GRV_WIT] t ∧ t.sent = s.sent ∧ t.mem = s.mem) ∧
  (∀ (s : State) (g : GladeId) (q : Nat) (l : List Nat), (s.gl g.val).agreement = none → q ≤ (s.gl g.val).lastSeq →
    exec (.start g q l) s = .next s) ∧
  (∀ (s : State) (g : GladeId) (a : Agreement), s.up → (s.gl g.val).agreement = some a → a.round = 1 → a.probeRounds < 2 →
    ∃ t, exec (.probe g) s = .next t ∧ (t.gl g.val).agreement = some { a with probeRounds := a.probeRounds + 1 } ∧
      (∀ x, x ∈ a.suspects → x ≠ (s.code g.val).slot →
        .toMember g.val (s.lmnOfSlot g.val x) "PROBE" [g.val, a.seq, a.probeRounds] [] ∈ t.sent) ∧
      (∀ x, x ∈ s.spareEntries g.val → .toNode (s.sparePnid g.val x) "PROBE" [g.val, a.seq, a.probeRounds] [] ∈ t.sent) ∧
      t.regs = s.regs ∧ t.mem = s.mem) ∧
  (∀ (s : State) (g : GladeId) (a : Agreement) (sp : Bool) (x : Nat), s.up → (s.gl g.val).agreement = some a → a.round = 1 →
    ∃ t a', exec (.probeAnswer g sp x) s = .next t ∧ (t.gl g.val).agreement = some a' ∧ a'.reached sp x = true ∧
      a'.suspects = a.suspects ∧ t.regs = s.regs ∧ t.sent = s.sent ∧ t.mem = s.mem) ∧
  (∀ (s : State) (g : GladeId) (a : Agreement), s.up → (s.gl g.val).agreement = some a → a.round = 1 →
    ∃ t a', exec (.round1End g) s = .next t ∧ (t.gl g.val).agreement = some a' ∧ a'.round = 2 ∧ s.ownView g.val a ∈ a'.views ∧
      (∀ i, i ∈ s.grovePeers g.val → .toMember g.val i "VIEW" ([g.val, a.seq] ++ (s.ownView g.val a).args) [] ∈ t.sent) ∧
      t.regs = s.regs ∧ t.mem = s.mem) ∧
  (∀ (s : State) (g : GladeId) (a : Agreement) (v : View), s.up → (s.gl g.val).agreement = some a → a.round = 2 →
    (∀ x, x ∈ a.views → x.slot ≠ v.slot) → v.slot ≠ (s.code g.val).slot → ∃ t a', exec (.view g v) s = .next t ∧
      (t.gl g.val).agreement = some a' ∧ v ∈ a'.views ∧ a'.round = 2 ∧
      t.sent = s.sent ++ (s.grovePeers g.val).map (fun i => .toMember g.val i "VIEW" ([g.val, a.seq] ++ v.args) []) ∧
      t.regs = s.regs ∧ t.mem = s.mem)

/-- ROUND2_END, DEC, DEC_DEADLINE, FIREBREAK_SIGHT_TIMEOUT and FORCE (R165, R168, R170 to R174). Without a majority of views the member is
fenced, as it is when it stays below the majority in sight or firmware forces it: FENCED, HOLD, STATE 6 and FIREBREAK_OUT, with memory as
it was. A decision ends the agreement, and a slot that it declares lost shows in LOST. When it does not come, the next agreement starts
with the silent participants among its suspects. It rests on the model's choices in assumptions 16 and 17. -/
def Obligations.DecisionsAndFences : Prop :=
  (∀ (s : State) (g : GladeId) (a : Agreement), s.up → (s.gl g.val).agreement = some a → a.round = 2 →
    a.views.length < s.majority g.val → s.fenced g.val = false → ∃ t, exec (.round2End g) s = .next t ∧ t.fenced g.val = true ∧
      t.hold g.val = true ∧ t.mstate g.val = 6 ∧ t.ao.firebreak = true ∧ (t.gl g.val).agreement = none ∧ t.mem = s.mem) ∧
  (∀ (s : State) (g : GladeId) (d : Decision) (a : Agreement), s.up → s.inGrove g.val = true → s.fenced g.val = false →
    (s.gl g.val).agreement = some a → a.seq = d.seq → a.round ≠ 3 → d.lostSlots = [] → d.committed = none → d.inWindow = false →
    (s.gl g.val).nextSuspects = [] → ∃ t, exec (.dec g d) s = .next t ∧ (t.gl g.val).agreement = none ∧
      t.mstate g.val = s.restState g.val ∧ t.rd R.GRV_WIT F.GRV_WIT_ACTIVE = 0) ∧
  (∀ (s : State) (g : GladeId) (d : Decision) (a : Agreement) (x : Nat), s.up → s.inGrove g.val = true → s.fenced g.val = false →
    (s.gl g.val).agreement = some a → a.seq = d.seq → x < s.groveN g.val → x < 32 → x ≠ (s.code g.val).slot → d.lostSlots = [x] →
    d.committed = none → d.inWindow = false → s.windowOpen g.val = false → ∃ t, exec (.dec g d) s = .next t ∧
      bitAt (t.rd (R.GRV_LOST g.val) F.GRV_LOST_LOST) x = true ∧ s.lmnOfSlot g.val x ∈ (t.gl g.val).gone) ∧
  (∀ (s : State) (g : GladeId) (a : Agreement) (l : List Nat), s.up → (s.gl g.val).agreement = some a → l ≠ [] →
    ∃ t a', exec (.decDeadline g l) s = .next t ∧ (t.gl g.val).agreement = some a' ∧ a'.seq = a.seq + 1 ∧ a'.round = 1 ∧
      (∀ x, x ∈ a'.suspects ↔ x ∈ a.suspects ∨ x ∈ l) ∧ s.sameRegsBut [R.GRV_MSTAT g.val, R.GRV_WIT] t ∧ t.mem = s.mem) ∧
  (∀ (s : State) (g : GladeId), s.up → s.inGrove g.val = true → (s.gl g.val).sightLow = true →
    s.rd (R.GRV_MSTAT g.val) F.GRV_MSTAT_VIS < s.majority g.val → s.fenced g.val = false →
    ∃ t, exec (.firebreakSightTimeout g) s = .next t ∧ t.fenced g.val = true ∧ t.hold g.val = true ∧ t.mstate g.val = 6 ∧
      t.ao.firebreak = true ∧ t.mem = s.mem) ∧
  (∀ (s : State) (m : BitVec 16), s.up → ∃ t, exec (.force m) s = .next t ∧
    (∀ g, g < 16 → m.getLsbD g = true → s.inGrove g = true → t.fenced g = true) ∧
    (∀ g, g < 16 → m.getLsbD g = false → t.fenced g = s.fenced g) ∧ t.mem = s.mem)

/-- TAKEOVER, READY, READY_TIMEOUT and MAPUPDATE (R176 to R179). A spare whose enable passes becomes the stand-in of the lost LMN and answers
READY; the coordinator then tells the glade the LMN's new place, and without another spare it hosts the LMN. A newer map update gives the
LMN its PNID; an older one changes nothing. It rests on the model's choices in assumptions 4, 17 and 18. -/
def Obligations.StandInPlacement : Prop :=
  (∀ (s : State) (g : GladeId) (c : Nat) (k : Takeover), s.up → s.inGrove g.val = false → s.rd (R.GLD_CTL g.val) F.GLD_CTL_EN = 0 →
    k.plan = none → State.enableErr ((s.wr (R.GLD_MEMBER g.val) F.GLD_MEMBER_LMN k.lmn).setReg (R.GLD_RING g.val)
      (BitVec.ofNat 64 k.ring)) g.val = 0 → ∃ t, exec (.takeover g c k) s = .next t ∧ t.active g.val = true ∧ t.mstate g.val = 3 ∧
      t.lmn g.val = k.lmn % 2 ^ F.GLD_MEMBER_LMN.width ∧ t.ring g.val = k.ring % 2 ^ 64 ∧ (t.gl g.val).standIn.isSome = true ∧
      .toMember g.val c "READY" [g.val, k.lmn] [] ∈ t.sent ∧ t.mem = s.mem) ∧
  (∀ (s : State) (g : GladeId) (l : Nat) (v : Serving), s.up → (s.gl g.val).serving = [v] → v.lmn = l →
    ∃ t, exec (.ready g l) s = .next t ∧ (t.gl g.val).serving = [] ∧ t.memberEntry g.val l = ⟨v.pnid, true⟩ ∧
      (∀ i, i ∈ s.otherMembers g.val → .toMember g.val i "MAPUPDATE" [g.val, l, v.pnid, s.nextMapSeq g.val] [] ∈ t.sent) ∧
      t.mem = s.mem) ∧
  (∀ (s : State) (g : GladeId) (l x : Nat) (v : Serving), s.up → (s.gl g.val).serving = [v] → v.lmn = l → v.spare = some x → v.left = [] →
    x < 16 → ∃ t, exec (.readyTimeout g l) s = .next t ∧ l ∈ (t.gl g.val).hosting ∧ t.mstate g.val = 7 ∧
      bitAt (t.rd (R.GRV_SPAREV g.val) F.GRV_SPAREV_VALID) x = false ∧ t.mem = s.mem) ∧
  (∀ (s : State) (g : GladeId) (l pn q : Nat), s.up → s.mapNewer g.val q = true → q < 2 ^ 16 → ∃ t, exec (.mapupdate g l pn q) s = .next t ∧
    t.memberEntry g.val l = ⟨pn, true⟩ ∧ t.rd (R.RTR_MAPCFG g.val) F.RTR_MAPCFG_SEQ = q) ∧
  (∀ (s : State) (g : GladeId) (l pn q : Nat), s.mapNewer g.val q = false → exec (.mapupdate g l pn q) s = .next s)

/-- CLEARING_START, CLEARING_READ, ROW_READ and ROW_READ_ANSWER (R44, R172, R179, R181 to R187, R189). Clearing starts in STATE 4. A read of a
line that no loss or repair touches, or of a leaf that the stand-in holds again, is answered from memory; before clearing starts a read of
the lost shard waits; a line of a hosted shard, or of a leaf of this member that awaits repair, is reconstructed from the survivors of its
row, and without enough answers it waits for them. A fenced member answers a clearing read and a row read with an error. A row read
answers this member's line with its status word. The last answer that a clearing read needs settles it with the reconstructed line. It
rests on the model's choices in assumptions 4, 20 and 68. -/
def Obligations.ClearingReads : Prop :=
  (∀ (s : State) (g : GladeId) (r : StandIn), s.up → (s.gl g.val).standIn = some r → s.mstate g.val = 4 → r.slot < 32 →
    (s.gl g.val).clearWaits = [] →
    ∃ t, exec (.clearingStart g) s = .next t ∧ (t.gl g.val).standIn = some { r with clearing := true } ∧
      (t.gl g.val).awaited = [] ∧ bitAt (t.rd (R.GRV_LOST g.val) F.GRV_LOST_LOST) r.slot = true ∧
      s.sameRegsBut [R.GRV_LOST g.val] t ∧ t.mem = s.mem) ∧
  (∀ (s : State) (g : GladeId) (i o x : Nat) (l : List (List RowAnswer)), s.up → s.fenced g.val = false → (s.gl g.val).standIn = none →
    (s.gl g.val).hosting = [] → s.lineAway g.val o = false → ∃ t, exec (.clearingRead g i o x l) s = .next t ∧
      t.sent = s.sent ++ [.answer g.val x "LINE" [] (s.readBytes o 128)] ∧ t.regs = s.regs ∧ t.mem = s.mem) ∧
  (∀ (s : State) (g : GladeId) (i o x : Nat) (q : Option Nat) (n : Nat × Nat) (l : List RowAnswer) (b : List Byte), s.up →
    s.fenced g.val = false → (i ≠ s.lmn g.val ∧ i ∈ (s.gl g.val).hosting ∨
      i = s.lmn g.val ∧ (s.gl g.val).standIn = none ∧ s.lineAway g.val o = true) →
    s.clearNeeds g.val i o = some (q, [n]) → n.1 ∉ (s.gl g.val).deadRows → s.clearLine g.val i n.1 n.2 l = some b →
    (o < s.regionBase g.val 5 ∨ s.regionBase g.val 5 + 4096 * s.regionSize g.val 5 ≤ o) →
    ∃ t, exec (.clearingRead g i o x [l]) s = .next t ∧ t.sent = s.sent ++ [.answer g.val x "LINE" [] b] ∧
      t.rd R.GRV_CLRCNT F.GRV_CLRCNT_READS = min (s.rd R.GRV_CLRCNT F.GRV_CLRCNT_READS + 1) (2 ^ F.GRV_CLRCNT_READS.width - 1) ∧
      s.sameRegsBut [R.GRV_CLRCNT] t ∧ t.mem = s.mem) ∧
  (∀ (s : State) (g : GladeId) (i o x : Nat) (q : Option Nat) (n : Nat × Nat) (l : List RowAnswer), s.up → s.fenced g.val = false →
    i ≠ s.lmn g.val → i ∈ (s.gl g.val).hosting → s.clearNeeds g.val i o = some (q, [n]) → n.1 ∉ (s.gl g.val).deadRows →
    s.clearLine g.val i n.1 n.2 l = none → s.rowDeadBy g.val n.1 (s.clearFrom g.val i n.1 n.2 l) = false →
    ∃ t, exec (.clearingRead g i o x [l]) s = .next t ∧
      (t.gl g.val).reads = (s.gl g.val).reads ++ [⟨(s.gl g.val).nextUnit, i, n.1, n.2, o, x, s.now, l, false⟩] ∧
      (∀ j, j ∈ s.asked g.val → .toMember g.val j "ROW_READ" [g.val, n.1, n.2, (s.gl g.val).nextUnit] [] ∈ t.sent) ∧
      t.mem = s.mem) ∧
  (∀ (s : State) (g : GladeId) (o x : Nat) (r : StandIn) (l : List (List RowAnswer)), s.up → s.fenced g.val = false →
    (s.gl g.val).standIn = some r → r.clearing = true → (s.regionAt g.val o).isSome = true → s.lineAway g.val o = false →
    ∃ t, exec (.clearingRead g (s.lmn g.val) o x l) s = .next t ∧ t.sent = s.sent ++ [.answer g.val x "LINE" [] (s.readBytes o 128)] ∧
      t.rd R.GRV_CLRCNT F.GRV_CLRCNT_READS = min (s.rd R.GRV_CLRCNT F.GRV_CLRCNT_READS + 1) (2 ^ F.GRV_CLRCNT_READS.width - 1) ∧
      s.sameRegsBut [R.GRV_CLRCNT] t ∧ t.mem = s.mem) ∧
  (∀ (s : State) (g : GladeId) (o x : Nat) (r : StandIn) (l : List (List RowAnswer)), s.up → s.fenced g.val = false →
    (s.gl g.val).standIn = some r → r.clearing = false → (s.regionAt g.val o).isSome = true →
    ∃ t, exec (.clearingRead g (s.lmn g.val) o x l) s = .next t ∧ (t.gl g.val).clearWaits = (s.gl g.val).clearWaits ++ [(o, x)] ∧
      t.sent = s.sent ∧ t.regs = s.regs ∧ t.mem = s.mem) ∧
  (∀ (s : State) (g : GladeId) (i o x : Nat) (l : List (List RowAnswer)), s.up → s.fenced g.val = true →
    ∃ t, exec (.clearingRead g i o x l) s = .next t ∧ t.sent = s.sent ++ [.answer g.val x "ERR" [2] []] ∧ t.regs = s.regs ∧
      t.mem = s.mem) ∧
  (∀ (s : State) (g : GladeId) (row line x : Nat), s.up → s.fenced g.val = false → s.active g.val = true → s.joined g.val = true →
    row < (s.code g.val).rows → line < 32 → ∃ t, exec (.rowRead g row line x false) s = .next t ∧
      t.sent = s.sent ++ [.answer g.val x "ROW" [(s.code g.val).slot, row, line, (s.statusWord g.val row false).toNat]
        (slice (s.ownLeaf g.val row) (128 * line) 128)] ∧ s.sameRegsBut [R.BGT_USE 2] t ∧ t.glades = s.glades ∧ t.mem = s.mem) ∧
  (∀ (s : State) (g : GladeId) (row line x : Nat) (e : Bool), s.up → s.fenced g.val = true →
    ∃ t, exec (.rowRead g row line x e) s = .next t ∧ t.sent = s.sent ++ [.answer g.val x "ERR" [2] []] ∧ t.regs = s.regs ∧
      t.mem = s.mem) ∧
  (∀ (s : State) (g : GladeId) (u : ReadUnit) (a : RowAnswer) (b : List Byte), s.up → (s.gl g.val).reads = [u] →
    s.clearLine g.val u.lmn u.row u.line ((u.answers.filter fun x => x.slot != a.slot) ++ [a]) = some b →
    (u.offset < s.regionBase g.val 5 ∨ s.regionBase g.val 5 + 4096 * s.regionSize g.val 5 ≤ u.offset) →
    ∃ t, exec (.rowReadAnswer g u.id a) s = .next t ∧ (t.gl g.val).reads = [] ∧
      t.sent = s.sent ++ [.answer g.val u.txid "LINE" [] b] ∧ t.mem = s.mem)

/-- ENCODE_PARITY and REBUILD_LEAF (R183, R186, R192, R193). Without answers the reads of the row leave, in a context of the leaf's home tile.
With the data of its row a parity leaf is encoded into its place; with enough survivors a lost moment leaf is reconstructed into its place
and counted; no other byte of memory changes. It rests on the model's choices in assumptions 25 and 32. -/
def Obligations.ParityAndRebuild : Prop :=
  (∀ (s : State) (g : GladeId) (p : Nat), s.up → s.active g.val = true → s.fenced g.val = false → s.toEncode g.val p = true →
    s.permits g.val 2 = true → (s.gl g.val).building.contains (false, p) = false → s.contextFree (s.homeTile p) false = true →
    ∃ t, exec (.encodeParity g p []) s = .next t ∧ (false, p) ∈ (t.gl g.val).building ∧
      ((t.tl (s.homeTile p)).contexts.any fun c => c.glade == g.val && c.kind == 1 && c.unit == p && c.parked) = true ∧
      s.sameRegsBut [R.TIL_CTX (s.homeTile p)] t ∧ t.mem = s.mem) ∧
  (∀ (s : State) (g : GladeId) (p : Nat) (l : List RowAnswer) (d : List (List Byte)), s.up → s.active g.val = true →
    s.fenced g.val = false → s.toEncode g.val p = true → s.permits g.val 2 = true → l ≠ [] → (s.gl g.val).heldDeltas = [] →
    s.encodeData g.val ((s.code g.val).rowOfParity (s.code g.val).slot p) (s.others g.val l) = some d →
    s.served (s.parityAddr g.val p) 4096 = true → ∃ t, exec (.encodeParity g p l) s = .next t ∧
      s.stores (s.parityAddr g.val p) (encodeParityBytes 4096 (p % max 1 (s.code g.val).m) d) t ∧
      (t.gl g.val).unbuilt = (s.gl g.val).unbuilt.erase p ∧ (t.gl g.val).stalePar = (s.gl g.val).stalePar.erase p) ∧
  (∀ (s : State) (g : GladeId) (q : Nat) (r : StandIn), s.up → (s.gl g.val).standIn = some r → q ∈ r.dataLeft → s.active g.val = true →
    s.fenced g.val = false → s.permits g.val 2 = true → s.contextFree (s.homeTile (s.leafIndex g.val q)) false = true →
    ((s.tl (s.homeTile (s.leafIndex g.val q))).contexts.any fun x => x.glade == g.val && x.kind == 2 && x.unit == q) = false →
    ∃ t, exec (.rebuildLeaf g false q []) s = .next t ∧
      ((t.tl (s.homeTile (s.leafIndex g.val q))).contexts.any fun c => c.glade == g.val && c.kind == 2 && c.unit == q && c.parked) =
        true ∧ t.mem = s.mem) ∧
  (∀ (s : State) (g : GladeId) (q i : Nat) (r : StandIn) (l : List RowAnswer) (d : List (List Byte)), s.up →
    (s.gl g.val).standIn = some r → q ∈ r.dataLeft → s.active g.val = true → s.fenced g.val = false → s.permits g.val 2 = true →
    l ≠ [] → q < (1 + s.moments g.val) * s.bloc g.val → q % (1 + s.moments g.val) ≠ 0 → (s.gl g.val).ledgerOld = [] →
    s.windowOpen g.val = false → s.solveRow g.val ((s.code g.val).rowOfLeaf (s.code g.val).slot q) 4096 (s.others g.val l) = some d →
    (s.code g.val).dataIndex ((s.code g.val).rowOfLeaf (s.code g.val).slot q) (s.code g.val).slot = some i →
    s.served (s.leafAddr g.val q) (d.getD i (zeros 4096)).length = true → ∃ t, exec (.rebuildLeaf g false q l) s = .next t ∧
      s.stores (s.leafAddr g.val q) (d.getD i (zeros 4096)) t ∧
      t.rd (R.GRV_RBLD g.val) F.GRV_RBLD_DONE =
        min (s.rd (R.GRV_RBLD g.val) F.GRV_RBLD_DONE + 1) (2 ^ F.GRV_RBLD_DONE.width - 1))

/-- RECONCILE_SCAN, RECONCILE_REPORT, RECONCILE_TIMEOUT, DEADFALL_NOTICE and REQUEST_RESEND (R190, R191, R197, R199, R234). A fold-complete
holder reports exactly the rows in which the lost data index is folded; a report is kept, and a holder that does not report counts as
stale. A member that holds an erased leaf of a deadfall row counts the row. A request that is still open is written again. It rests on the
model's choices in assumption 4. -/
def Obligations.ReconciliationAndDeadfall : Prop :=
  (∀ (s : State) (g : GladeId) (x : Nat), s.up → s.active g.val = true → s.fenced g.val = false → s.exact g.val = false →
    s.foldComplete g.val = true → x ≠ (s.code g.val).slot → ∃ t rows, exec (.reconcileScan g x) s = .next t ∧
      t.sent = s.sent ++ [.toMember g.val (s.lmnOfSlot g.val x) "RECONCILE_REPORT" ([g.val, s.lmn g.val] ++ rows) []] ∧
      (∀ row, row ∈ rows ↔ ∃ f i, f ∈ (s.gl g.val).folds ∧ f.next = false ∧ row = (s.code g.val).rowOfParity (s.code g.val).slot f.p ∧
        (s.code g.val).dataIndex row x = some i ∧ bitAt f.bits i = true) ∧
      s.sameRegsBut [R.BGT_USE 2] t ∧ t.glades = s.glades ∧ t.mem = s.mem) ∧
  (∀ (s : State) (g : GladeId) (h i : Nat) (rows : List Nat) (r : StandIn), s.up → (s.gl g.val).standIn = some r →
    r.staleHolders.contains h = false → i ∈ s.reportsDue g.val → i ≠ h → ∃ t, exec (.reconcileReport g h rows) s = .next t ∧
      (t.gl g.val).standIn = some { r with reports := (r.reports.filter fun x => x.1 != h) ++ [(h, rows)] } ∧ t.regs = s.regs ∧
      t.mem = s.mem) ∧
  (∀ (s : State) (g : GladeId) (h i : Nat) (r : StandIn), s.up → (s.gl g.val).standIn = some r → h ∈ s.reportsDue g.val →
    i ∈ s.reportsDue g.val → i ≠ h → ∃ t, exec (.reconcileTimeout g h) s = .next t ∧
      (t.gl g.val).standIn = some { r with staleHolders := addOnce r.staleHolders h } ∧ t.regs = s.regs ∧ t.mem = s.mem) ∧
  (∀ (s : State) (g : GladeId) (row : Nat), s.up → s.active g.val = true → s.heldErased g.val row ≠ [] →
    (s.gl g.val).deadRows.contains row = false → ∃ t, exec (.deadfallNotice g row) s = .next t ∧ row ∈ (t.gl g.val).deadRows ∧
      t.rd (R.GRV_DEAD g.val) F.GRV_DEAD_ROWS = min (s.rd (R.GRV_DEAD g.val) F.GRV_DEAD_ROWS + 1) (2 ^ F.GRV_DEAD_ROWS.width - 1)) ∧
  (∀ (s : State) (g : GladeId) (l b : Nat) (k : KeyGen), s.up →
    ((s.gl g.val).wanted.any fun w => w.layer == l && w.block == b) = true → s.keyCur g.val = some k → s.sealReady = true →
    s.seedRoom g.val 128 = true → s.rd (R.GLD_SBOPTR g.val) F.GLD_SBOPTR_WPTR + 128 ≤ s.seedSize g.val →
    s.served (4096 * s.rd (R.GLD_SBOUT g.val) F.GLD_SBOUT_BASE + s.rd (R.GLD_SBOPTR g.val) F.GLD_SBOPTR_WPTR) 128 = true →
    ∃ t rec, exec (.requestResend g l b) s = .next t ∧ rec.length = 128 ∧ leAt rec 2 1 = 4 ∧ leAt rec 16 4 = l % 2 ^ 15 ∧
      leAt rec 20 4 = b % 2 ^ 32 ∧
      s.stores (4096 * s.rd (R.GLD_SBOUT g.val) F.GLD_SBOUT_BASE + s.rd (R.GLD_SBOPTR g.val) F.GLD_SBOPTR_WPTR) rec t) ∧
  (∀ (s : State) (g : GladeId) (l b : Nat), ((s.gl g.val).wanted.any fun w => w.layer == l && w.block == b) = false →
    exec (.requestResend g l b) s = .next s)

/-- PLAN_LOAD and PLAN_ABORT (R203, R214). A plan record that passes every check is held, with STATE 1 and its PLANID and SWRING; a refused
one sets ERR to the first failing check and changes nothing else. The plan leader notes an abort, another node sends it to the leader, and
after the switch it is refused with ERR 9. BLOCK_COPY, COPY_ARRIVAL and COPY_ACK (R206). A block goes to its next owner under its row
lock; a copy that arrives takes its place once and is acknowledged each time, with the ledger entry in the next region 3; the
acknowledgement releases the lock and counts the block as copied, and one that nothing waits for changes nothing. It rests on the model's
choices in assumptions 4 and 26. -/
def Obligations.PlansAndBlockCopies : Prop :=
  (∀ (s : State) (g : GladeId) (p : Plan), s.up → p = s.readPlan (4096 * s.rd R.GRV_CPADDR F.GRV_CPADDR_BASE) →
    s.served (4096 * s.rd R.GRV_CPADDR F.GRV_CPADDR_BASE) (248 + 8 * p.ns) = true → s.planErr g.val p = 0 →
    ∃ t, exec (.planLoad g) s = .next t ∧ (t.gl g.val).plan = some p ∧ t.rd (R.GRV_CPSTAT g.val) F.GRV_CPSTAT_STATE = 1 ∧
      t.rd (R.GRV_CPSTAT g.val) F.GRV_CPSTAT_ERR = s.rd (R.GRV_CPSTAT g.val) F.GRV_CPSTAT_ERR ∧ t.rd (R.GRV_CPSTAT g.val) F.GRV_CPSTAT_DEFERS = 0 ∧
      t.rd (R.GRV_CPSTAT g.val) F.GRV_CPSTAT_PLANID = p.planId % 2 ^ F.GRV_CPSTAT_PLANID.width ∧
      t.rd (R.GRV_CPRING g.val) F.GRV_CPRING_SWRING = p.swRing % 2 ^ F.GRV_CPRING_SWRING.width ∧
      s.sameRegsBut [R.GRV_CPSTAT g.val, R.GRV_CPRING g.val] t ∧ t.sent = s.sent ∧ t.mem = s.mem) ∧
  (∀ (s : State) (g : GladeId) (p : Plan), s.up → p = s.readPlan (4096 * s.rd R.GRV_CPADDR F.GRV_CPADDR_BASE) →
    s.served (4096 * s.rd R.GRV_CPADDR F.GRV_CPADDR_BASE) (248 + 8 * p.ns) = true → s.planErr g.val p ≠ 0 →
    ∃ t, exec (.planLoad g) s = .next t ∧ t.rd (R.GRV_CPSTAT g.val) F.GRV_CPSTAT_ERR = s.planErr g.val p ∧ t.glades = s.glades ∧
      t.rd (R.GRV_CPSTAT g.val) F.GRV_CPSTAT_STATE = s.rd (R.GRV_CPSTAT g.val) F.GRV_CPSTAT_STATE ∧
      s.sameRegsBut [R.GRV_CPSTAT g.val, R.EVR_LOST] t ∧ t.sent = s.sent ∧ t.mem = s.mem) ∧
  (∀ (s : State) (g : GladeId) (n : Nat), s.up → (s.gl g.val).plan.isSome = true →
    s.rd (R.GRV_CPSTAT g.val) F.GRV_CPSTAT_STATE = n → 0 < n → n < 3 → s.active g.val = true → s.lmn g.val = 0 →
    ∃ t, exec (.planAbort g) s = .next t ∧ (t.gl g.val).abortAsked = true ∧ t.regs = s.regs ∧ t.sent = s.sent ∧ t.mem = s.mem) ∧
  (∀ (s : State) (g : GladeId) (n : Nat), s.up → (s.gl g.val).plan.isSome = true →
    s.rd (R.GRV_CPSTAT g.val) F.GRV_CPSTAT_STATE = n → 0 < n → n < 3 → s.lmn g.val ≠ 0 →
    ∃ t, exec (.planAbort g) s = .next t ∧ t.sent = s.sent ++ [.toMember g.val 0 "PLAN_ABORT" [g.val] []] ∧ t.regs = s.regs ∧
      t.glades = s.glades ∧ t.mem = s.mem) ∧
  (∀ (s : State) (g : GladeId), s.up → 3 ≤ s.rd (R.GRV_CPSTAT g.val) F.GRV_CPSTAT_STATE → ∃ t, exec (.planAbort g) s = .next t ∧
    t.rd (R.GRV_CPSTAT g.val) F.GRV_CPSTAT_ERR = 9 ∧ s.sameRegsBut [R.GRV_CPSTAT g.val, R.EVR_LOST] t ∧ t.glades = s.glades ∧
    t.sent = s.sent ∧ t.mem = s.mem) ∧
  (∀ (s : State) (g : GladeId) (u l b : Nat), s.up → s.active g.val = true → s.fenced g.val = false → s.windowOpen g.val = true →
    u < s.bloc g.val → (s.gl g.val).copied.contains u = false → (s.gl g.val).rowLocks.contains u = false → s.permits g.val 4 = true →
    s.locate g.val u = some (l, b) → s.staysHere g.val l b = false → s.blockErased g.val u = [] →
    ∃ t, exec (.blockCopy g u) s = .next t ∧ (t.gl g.val).rowLocks = (s.gl g.val).rowLocks ++ [u] ∧
      (t.gl g.val).handovers = (s.gl g.val).handovers ++ [⟨0, l, b, s.nextOwner g.val l b⟩] ∧
      t.sent = s.sent ++ [.toNode (s.nextPnid g.val (s.nextOwner g.val l b)) "COPY" [g.val, s.lmn g.val, l, b] (s.copyBytes g.val u)] ∧
      s.sameRegsBut [R.BGT_USE 4] t ∧ t.mem = s.mem) ∧
  (∀ (s : State) (g : GladeId) (u l b : Nat), s.up → s.active g.val = true → s.fenced g.val = false → s.windowOpen g.val = true →
    u < s.bloc g.val → (s.gl g.val).copied.contains u = false → (s.gl g.val).rowLocks.contains u = false → s.permits g.val 4 = true →
    s.locate g.val u = some (l, b) → s.staysHere g.val l b = true → s.inPlace g.val = false → s.blockErased g.val u = [] →
    ∃ t, exec (.blockCopy g u) s = .next t ∧ u ∈ (t.gl g.val).copied) ∧
  (∀ (s : State) (g : GladeId) (x l b : Nat) (d : List Byte), s.up → s.windowOpen g.val = true → s.fencedHere g.val = false →
    s.staysHere g.val l b = true → (s.gl g.val).arrived.contains (l, b) = true → ∃ t, exec (.copyArrival g x l b d) s = .next t ∧
      t.sent = s.sent ++ [.toMember g.val x "COPY_ACK" [g.val, l, b, 0] []] ∧ t.regs = s.regs ∧ t.glades = s.glades ∧ t.mem = s.mem) ∧
  (∀ (s : State) (g : GladeId) (x l b u : Nat) (d : List Byte), s.up → s.windowOpen g.val = true → s.fencedHere g.val = false →
    s.staysHere g.val l b = true → (s.gl g.val).arrived.contains (l, b) = false → u = s.nextLocal g.val l b →
    s.reusesClass g.val 3 = false → s.reusesClass g.val 5 = true →
    (∀ c, c < 1 + s.moments g.val → s.served (s.nextBase g.val c + 4096 * u) 4096 = true) →
    s.served (s.nextBase g.val 3 + 4096 * (u / 256) + 16 * (u % 256)) 16 = true →
    ∃ t, exec (.copyArrival g x l b d) s = .next t ∧ (l, b) ∈ (t.gl g.val).arrived ∧
      t.readBytes (s.nextBase g.val 3 + 4096 * (u / 256) + 16 * (u % 256)) 16 = slice d (4096 * (1 + s.moments g.val)) 16 ∧
      t.rd (R.GRV_CPPROG g.val) F.GRV_CPPROG_COPYLEFT = s.rd (R.GRV_CPPROG g.val) F.GRV_CPPROG_COPYLEFT - 1 ∧
      t.sent = s.sent ++ [.toMember g.val x "COPY_ACK" [g.val, l, b, 0] []] ∧
      s.sameRegsBut [R.GRV_CPPROG g.val, R.BGT_USE 4] t) ∧
  (∀ (s : State) (g : GladeId) (x l b u : Nat), s.up → (s.gl g.val).handovers.contains ⟨0, l, b, x⟩ = true →
    u = s.localBlock g.val (s.members g.val) (s.lmn g.val) l b → (s.gl g.val).rowLocks = [u] →
    ∃ t, exec (.copyAck g x l b 0) s = .next t ∧ u ∈ (t.gl g.val).copied ∧ (t.gl g.val).rowLocks = []) ∧
  (∀ (s : State) (g : GladeId) (x l b k : Nat),
    (s.gl g.val).handovers.contains ⟨k, if k = 2 then 0 else l, if k = 2 then 0 else b, x⟩ = false →
    exec (.copyAck g x l b k) s = .next s)

/-- SHADOW, SHADOW_END, NEXT_PARITY_BUILD and SAPLING_PROBE (R205, R207, R209, R215). A shadow is answered, or its answer waits for its folds;
a shadow-end is answered only when all of them have come. A build of next-code parity asks for its row and then writes the leaf and
nothing else. A sapling that misses two probes is replaced, or the plan aborts. It rests on the model's choices in assumptions 4 and 19. -/
def Obligations.ShadowsBuildsAndSaplings : Prop :=
  (∀ (s : State) (g : GladeId) (x l b : Nat) (d : List Byte), s.up → s.windowOpen g.val = true → s.fencedHere g.val = false →
    (s.gl g.val).arrived.contains (l, b) = true → (parseShadow (1 + s.moments g.val) d).isSome = true →
    ∃ t, exec (.shadow g x l b d) s = .next t ∧
      (((x, l, b) ∈ (t.gl g.val).shadowsIn ∧ ((t.gl g.val).copies.any fun c => c.next) = true) ∨
        .toMember g.val x "COPY_ACK" [g.val, l, b, 1] [] ∈ t.sent)) ∧
  (∀ (s : State) (g : GladeId) (x : Nat), s.up → s.windowOpen g.val = true → s.fencedHere g.val = false → s.active g.val = true →
    s.applyDone g.val = false → (s.gl g.val).ledgerOld = [] → (s.gl g.val).shadowsIn = [] →
    ∃ t, exec (.shadowEnd g x) s = .next t ∧ (t.gl g.val).shadowEndsIn = addOnce (s.gl g.val).shadowEndsIn x ∧ t.regs = s.regs ∧
      t.sent = s.sent ∧ t.mem = s.mem) ∧
  (∀ (s : State) (g : GladeId) (x : Nat), s.up → s.windowOpen g.val = true → s.active g.val = false → (s.gl g.val).ledgerOld = [] →
    (s.gl g.val).shadowsIn = [] → (s.gl g.val).nextFlushed = true → (s.gl g.val).copies = [] →
    (∀ y, y ∈ s.copySources g.val → y = x ∨ y ∈ (s.gl g.val).shadowEndsIn) →
    ∃ t, exec (.shadowEnd g x) s = .next t ∧ .toMember g.val x "COPY_ACK" [g.val, 0, 0, 2] [] ∈ t.sent ∧
      (t.gl g.val).shadowEndsIn = [] ∧ t.mem = s.mem) ∧
  (∀ (s : State) (g : GladeId) (p row : Nat), s.up → s.windowOpen g.val = true → s.fencedHere g.val = false →
    (s.gl g.val).nextUnbuilt.contains p = true → s.permitsPlan g.val = true → (s.gl g.val).building.contains (true, p) = false →
    s.contextFree (s.homeTile p) false = true → row = (s.nextCode g.val).rowOfParity (s.nextCode g.val).slot p →
    ∃ t, exec (.nextParityBuild g p []) s = .next t ∧ (true, p) ∈ (t.gl g.val).building ∧
      (∀ i, i < (s.nextCode g.val).k → s.nextVirtual g.val ((s.nextCode g.val).dataSlot row i) row = false →
        .toNode (s.nextPnid g.val (s.slotLmn g.val true ((s.nextCode g.val).dataSlot row i))) "ROW_READ"
          [g.val, row, 1, (s.nextCode g.val).epoch] [] ∈ t.sent) ∧
      s.sameRegsBut [R.TIL_CTX (s.homeTile p)] t ∧ t.mem = s.mem) ∧
  (∀ (s : State) (g : GladeId) (p : Nat) (l : List RowAnswer) (d : List (List Byte)), s.up → s.windowOpen g.val = true →
    s.fencedHere g.val = false → (s.gl g.val).nextUnbuilt.contains p = true → s.permitsPlan g.val = true → l ≠ [] →
    (s.gl g.val).heldDeltas = [] → s.nextData g.val ((s.nextCode g.val).rowOfParity (s.nextCode g.val).slot p) l = some d →
    s.served (4096 * s.parityUnit g.val true p) 4096 = true → ∃ t, exec (.nextParityBuild g p l) s = .next t ∧
      s.stores (4096 * s.parityUnit g.val true p) (encodeParityBytes 4096 (p % max 1 (s.nextCode g.val).m) d) t ∧
      (t.gl g.val).nextUnbuilt = (s.gl g.val).nextUnbuilt.erase p ∧
      t.rd (R.GRV_CPPROG g.val) F.GRV_CPPROG_ENCLEFT = s.rd (R.GRV_CPPROG g.val) F.GRV_CPPROG_ENCLEFT - 1) ∧
  (∀ (s : State) (g : GladeId) (l : Nat) (a r : Bool) (p : Plan) (x : Sapling), s.up → (s.gl g.val).plan = some p →
    ((s.gl g.val).saplings.find? fun y => y.lmn == l) = some x → a = true ∨ x.misses = 0 →
    ∃ t, exec (.saplingProbe g l a r) s = .next t ∧ t.regs = s.regs ∧ t.sent = s.sent ∧ t.mem = s.mem ∧
      (t.gl g.val).saplings = (s.gl g.val).saplings.map fun y => if y.lmn = l then
        (if a then ⟨l, min 2 (x.answers + 1), 0, r⟩ else { x with misses := 1 }) else y) ∧
  (∀ (s : State) (g : GladeId) (l : Nat) (r : Bool) (p : Plan) (x : Sapling), s.up → (s.gl g.val).plan = some p →
    ((s.gl g.val).saplings.find? fun y => y.lmn == l) = some x → 0 < x.misses → s.freshSpare g.val p = none →
    ∃ t, exec (.saplingProbe g l false r) s = .next t ∧ (t.gl g.val).abortAsked = true ∧ t.regs = s.regs ∧ t.sent = s.sent ∧
      t.mem = s.mem) ∧
  (∀ (s : State) (g : GladeId) (l pn : Nat) (r : Bool) (p : Plan) (x : Sapling), s.up → (s.gl g.val).plan = some p →
    ((s.gl g.val).saplings.find? fun y => y.lmn == l) = some x → 0 < x.misses → s.freshSpare g.val p = some pn →
    s.windowOpen g.val = false → ∃ t, exec (.saplingProbe g l false r) s = .next t ∧
      t.sent = s.sent ++ [.toAll g.val "SAPLING" [g.val, l, pn] []] ∧ t.regs = s.regs ∧ t.mem = s.mem)

/-- PUBLISH_GO, PUBLISH_START and PUBLISH_BLOCK (R217, R218, R219). GO is taken up with FULL at the next ring start, which sends START to the
KIDS; without a key of the stream nothing is sent. A BLOCK record carries the working copy, or its change against the base, and writes the
working copy into the base; the last one is followed by END. It rests on the model's choices in assumption 4. -/
def Obligations.Publishing : Prop :=
  (∀ (s : State) (g : GladeId), s.up → ∃ t, exec (.publishGo g) s = .next t ∧ t.rd (R.GRV_WPCTL g.val) F.GRV_WPCTL_GO = 1 ∧
    s.sameRegsBut [R.GRV_WPCTL g.val] t ∧ t.glades = s.glades ∧ t.sent = s.sent ∧ t.mem = s.mem) ∧
  (∀ (s : State) (g : GladeId) (x k : Nat), s.up → (s.gl g.val).publishDue = true → (s.gl g.val).publish = none →
    s.streamSlot (s.wpStream g.val) = some x → 0 < s.bloc g.val →
    k ∈ kidsOf (s.reg (R.GRV_WPKIDS g.val)) (s.rd (R.GRV_WPCTL g.val) F.GRV_WPCTL_KIDV) → ∃ t, exec (.publishStart g) s = .next t ∧
      (t.gl g.val).publish = some ⟨s.ring g.val, s.on (R.GRV_WPCTL g.val) F.GRV_WPCTL_FULL, []⟩ ∧
      t.rd (R.GRV_WPCTL g.val) F.GRV_WPCTL_GO = 0 ∧ t.rd (R.GRV_WPCTL g.val) F.GRV_WPCTL_FULL = 0 ∧
      t.rd (R.GRV_WPCTL g.val) F.GRV_WPCTL_BUSY = 1 ∧
      .toNode k "WEIGHTS" [s.wpStream g.val, 0] (WpRecord.bytes ⟨s.wpStream g.val, false, s.on (R.GRV_WPCTL g.val) F.GRV_WPCTL_FULL,
        s.ring g.val, s.members g.val + 2 ^ 16 * ((List.range (s.layers g.val)).map (s.layerBlocks g.val)).sum, []⟩ 0) ∈ t.sent ∧
      s.sameRegsBut [R.GRV_WPCTL g.val, R.BGT_USE 7] t ∧ t.mem = s.mem) ∧
  (∀ (s : State) (g : GladeId), s.up → (s.gl g.val).publishDue = true → (s.gl g.val).publish = none →
    s.streamSlot (s.wpStream g.val) = none → ∃ t, exec (.publishStart g) s = .next t ∧ (t.gl g.val).publish = none ∧
      t.rd (R.GRV_WPCTL g.val) F.GRV_WPCTL_GO = 0 ∧ s.sameRegsBut [R.GRV_WPCTL g.val, R.EVR_LOST] t ∧ t.sent = s.sent ∧
      t.mem = s.mem) ∧
  (∀ (s : State) (g : GladeId) (u l b : Nat) (p : Publish) (d : List Byte), s.up → (s.gl g.val).publish = some p → u < s.bloc g.val →
    p.sent.contains u = false → s.permits g.val 7 = true → s.locate g.val u = some (l, b) → s.wpBaseHolds g.val u = true →
    s.served (s.wpBaseAddr g.val u) 2048 = true → p.sent.length + 1 < s.bloc g.val →
    d = s.readBytes (s.copyAddr g.val u) 2048 → p.full = false → (s.gl g.val).baseRing.isSome = true →
    (s.gl g.val).lacksBase.contains u = false → ∃ t, exec (.publishBlock g u) s = .next t ∧
      s.stores (s.wpBaseAddr g.val u) d t ∧ (t.gl g.val).publish = some { p with sent := p.sent ++ [u] } ∧
      (∀ k, k ∈ kidsOf (s.reg (R.GRV_WPKIDS g.val)) (s.rd (R.GRV_WPCTL g.val) F.GRV_WPCTL_KIDV) →
        .toNode k "WEIGHTS" [s.wpStream g.val, 1] (WpRecord.bytes ⟨s.wpStream g.val, false, false, p.ring, s.globalBlock g.val l b,
          wpBody (xorBytes (s.readBytes (s.wpBaseAddr g.val u) 2048) d)⟩ 1) ∈ t.sent) ∧ s.sameRegsBut [R.BGT_USE 7] t) ∧
  (∀ (s : State) (g : GladeId) (u l b : Nat) (p : Publish), s.up → (s.gl g.val).publish = some p → u < s.bloc g.val →
    p.sent.contains u = false → s.permits g.val 7 = true → s.locate g.val u = some (l, b) → s.wpBaseHolds g.val u = false →
    p.sent.length + 1 = s.bloc g.val → ∃ t, exec (.publishBlock g u) s = .next t ∧ (t.gl g.val).publish = none ∧
      (t.gl g.val).baseRing = some p.ring ∧ t.rd (R.GRV_WPCTL g.val) F.GRV_WPCTL_BUSY = 0 ∧
      t.rd (R.GRV_WPRING g.val) F.GRV_WPRING_RING = p.ring % 2 ^ 64 ∧
      (∀ k, k ∈ kidsOf (s.reg (R.GRV_WPKIDS g.val)) (s.rd (R.GRV_WPCTL g.val) F.GRV_WPCTL_KIDV) →
        .toNode k "WEIGHTS" [s.wpStream g.val, 1] (WpRecord.bytes ⟨s.wpStream g.val, true, false, p.ring, s.globalBlock g.val l b,
          wpBody (s.readBytes (s.copyAddr g.val u) 2048)⟩ 1) ∈ t.sent ∧
        .toNode k "WEIGHTS" [s.wpStream g.val, 2] (WpRecord.bytes ⟨s.wpStream g.val, false, false, p.ring, s.bloc g.val, []⟩ 2) ∈
          t.sent) ∧ s.sameRegsBut [R.GRV_WPCTL g.val, R.GRV_WPRING g.val, R.BGT_USE 7] t ∧ t.mem = s.mem)

/-- WP_START, WP_BLOCK, WP_END, IMAGE_TIMEOUT and ORPHAN (R219, R221, R223). A START is relayed, clears the bitmap and makes the image
incoming; a block is written with its bit set, or xored in unless its bit is set; the END that makes the image whole makes it current.
Without it the image is incomplete, as it is when its source is evicted. Each image keeps the others as they were. It rests on the model's
choices in assumption 4. -/
def Obligations.ImageReceipt : Prop :=
  (∀ (s : State) (r : WpRecord) (i k : Nat), s.up → s.imgOf r.stream = some i → s.imgState i ≠ 3 → k ∈ s.imgKids i →
    s.served (s.imgBase i + 2048 * bitsOf r.arg 16 32) ((bitsOf r.arg 16 32 + 7) / 8) = true → ∃ t, exec (.wpStart r) s = .next t ∧
      t.imgState i = 2 ∧ (t.im i).ring = r.ring ∧ (t.im i).size = r.arg % 2 ^ 16 ∧ (t.im i).blocks = bitsOf r.arg 16 32 ∧
      (t.im i).ends = [] ∧ (t.im i).seen = [] ∧ .toNode k "WEIGHTS" [r.stream, 0] (r.bytes 0) ∈ t.sent ∧
      s.stores (s.imgBase i + 2048 * bitsOf r.arg 16 32) (zeros ((bitsOf r.arg 16 32 + 7) / 8)) t ∧
      s.sameRegsBut [R.GRV_WIMG_CTL i, R.BGT_USE 7] t) ∧
  (∀ (s : State) (r : WpRecord) (i : Nat), s.up → s.imgOf r.stream = some i → s.imgState i = 3 → ∃ t, exec (.wpStart r) s = .next t ∧
    t.im i = { s.im i with missedStart := some (max r.ring ((s.im i).missedStart.getD 0)) } ∧ t.regs = s.regs ∧ t.sent = s.sent ∧
    t.mem = s.mem) ∧
  (∀ (s : State) (r : WpRecord) (i o q : Nat) (d : List Byte), s.up → s.imgOf r.stream = some i → s.imgState i = 2 →
    r.ring = (s.im i).ring → r.arg < (s.im i).blocks → wpUnbody r.body = some d → r.replace = true → o = s.imgBase i + 2048 * r.arg →
    q = s.imgBase i + 2048 * (s.im i).blocks + r.arg / 8 → s.served o 2048 = true → s.served q 1 = true →
    ∃ t, exec (.wpBlock r) s = .next t ∧ (∀ x, x < 2048 → t.readByte (o + x) = d.getD x 0) ∧ (t.readByte q).getLsbD (r.arg % 8) = true ∧
      (∀ x, (x < o ∨ o + 2048 ≤ x) → x ≠ q → t.readByte x = s.readByte x) ∧ (t.im i).seen = (s.im i).seen ++ [r.arg] ∧
      (∀ k, k ∈ s.imgKids i → .toNode k "WEIGHTS" [r.stream, 1] (r.bytes 1) ∈ t.sent) ∧ s.sameRegsBut [R.BGT_USE 7] t) ∧
  (∀ (s : State) (r : WpRecord) (i o q : Nat) (d : List Byte), s.up → s.imgOf r.stream = some i → s.imgState i = 2 →
    r.ring = (s.im i).ring → r.arg < (s.im i).blocks → wpUnbody r.body = some d → r.replace = false → o = s.imgBase i + 2048 * r.arg →
    q = s.imgBase i + 2048 * (s.im i).blocks + r.arg / 8 → s.served o 2048 = true → ∃ t, exec (.wpBlock r) s = .next t ∧
      ((s.readByte q).getLsbD (r.arg % 8) = true → t.mem = s.mem) ∧
      ((s.readByte q).getLsbD (r.arg % 8) = false → s.stores o (xorBytes (s.readBytes o 2048) d) t) ∧
      (t.im i).seen = (s.im i).seen ++ [r.arg] ∧ s.sameRegsBut [R.BGT_USE 7] t) ∧
  (∀ (s : State) (r : WpRecord) (i l : Nat) (e : List (Nat × Nat)), s.up → s.imgOf r.stream = some i → s.imgState i = 2 →
    r.ring = (s.im i).ring → e = ((s.im i).ends.filter fun x => x.1 != l) ++ [(l, r.arg)] → ∃ t, exec (.wpEnd l r) s = .next t ∧
      (t.im i).ends = e ∧ (∀ k, k ∈ s.imgKids i → .toNode k "WEIGHTS" [r.stream, 2] (r.bytes 2) ∈ t.sent) ∧
      (e.length = (s.im i).size → (e.map (·.2)).sum = (s.im i).seen.length → t.imgState i = 1 ∧
        t.rd (R.GRV_WIMG_GEN i) F.GRV_WIMG_GEN_RING = r.ring % 2 ^ 64 ∧ t.rd (R.GRV_WIMG_CTL i) F.GRV_WIMG_CTL_DONE = 1) ∧
      (e.length ≠ (s.im i).size → s.sameRegsBut [R.BGT_USE 7] t) ∧
      s.sameRegsBut [R.GRV_WIMG_CTL i, R.GRV_WIMG_GEN i, R.BGT_USE 7, R.EVR_LOST] t ∧ t.mem = s.mem) ∧
  (∀ (s : State) (i : ImageId), s.up → s.imgState i.val = 2 → ∃ t, exec (.imageTimeout i) s = .next t ∧ t.imgState i.val = 4 ∧
    s.sameRegsBut [R.GRV_WIMG_CTL i.val] t ∧ t.images = s.images ∧ t.sent = s.sent ∧ t.mem = s.mem) ∧
  (∀ (s : State) (x i : Nat), s.up → s.imgOf x = some i → ∃ t, exec (.orphan x) s = .next t ∧ t.imgState i = 4 ∧
    s.sameRegsBut [R.GRV_WIMG_CTL i] t ∧ t.images = s.images ∧ t.sent = s.sent ∧ t.mem = s.mem)

/-- IMAGE_ENABLE, IMAGE_LOAD, LOADREQ, IMAGE_ANSWER, LOAD_RETRY and TOUCH (R220, R222, R223). An image takes the place that the pool has for
it, or an evicted image's, or is refused; a load asks SRC, which sends a current image and answers BUSY otherwise; the image that arrives
is written and current; a refused load is retried, and the ninth refusal ends it. It rests on the model's choices in assumptions 4 and 24. -/
def Obligations.ImagePool : Prop :=
  (∀ (s : State) (i : ImageId) (u : Nat), s.up → s.on (R.GRV_WIMG_CTL i.val) F.GRV_WIMG_CTL_EN = false → s.imgPlace i.val = some u →
    u < 2 ^ 32 → ∃ t, exec (.imageEnable i) s = .next t ∧ t.rd (R.GRV_WIMG_CTL i.val) F.GRV_WIMG_CTL_EN = 1 ∧ t.imgState i.val = 0 ∧
      t.rd (R.GRV_WIMG_BASE i.val) F.GRV_WIMG_BASE_BASE = u ∧ s.sameRegsBut [R.GRV_WIMG_CTL i.val, R.GRV_WIMG_BASE i.val] t ∧
      t.sent = s.sent ∧ t.mem = s.mem) ∧
  (∀ (s : State) (i : ImageId) (x u : Nat), s.up → s.on (R.GRV_WIMG_CTL i.val) F.GRV_WIMG_CTL_EN = false → s.imgPlace i.val = none →
    s.imgVictim i.val = some x → (s.imgEvict x).imgPlace i.val = some u → ∃ t, exec (.imageEnable i) s = .next t ∧
      t.rd (R.GRV_WIMG_CTL i.val) F.GRV_WIMG_CTL_EN = 1 ∧ t.rd (R.GRV_WIMG_CTL x) F.GRV_WIMG_CTL_EN = 0 ∧
      (∀ k, k ∈ s.imgKids x → .toNode k "ORPHAN" [s.rd (R.GRV_WIMG_CTL x) F.GRV_WIMG_CTL_STREAM] [] ∈ t.sent) ∧ t.mem = s.mem) ∧
  (∀ (s : State) (i : ImageId), s.up → s.on (R.GRV_WIMG_CTL i.val) F.GRV_WIMG_CTL_EN = false → s.imgPlace i.val = none →
    s.imgVictim i.val = none → ∃ t, exec (.imageEnable i) s = .next t ∧ s.sameRegsBut [R.EVR_LOST] t ∧ t.images = s.images ∧
      t.sent = s.sent ∧ t.mem = s.mem) ∧
  (∀ (s : State) (i : ImageId), s.up → s.on (R.GRV_WIMG_CTL i.val) F.GRV_WIMG_CTL_EN = true →
    s.imgFits i.val (s.rd (R.GRV_WIMG_BASE i.val) F.GRV_WIMG_BASE_BASE) = true → ∃ t, exec (.imageLoad i) s = .next t ∧
      t.imgState i.val = 3 ∧ t.sent = s.sent ++ [.toNode (s.rd (R.GRV_WIMG_CTL i.val) F.GRV_WIMG_CTL_SRC) "LOADREQ"
        [s.pnid, s.rd (R.GRV_WIMG_CTL i.val) F.GRV_WIMG_CTL_STREAM] []] ∧ s.sameRegsBut [R.GRV_WIMG_CTL i.val] t ∧ t.mem = s.mem) ∧
  (∀ (s : State) (x n i : Nat), s.up → (s.streamSlot n).isSome = true → s.imgOf n = some i → s.imgState i = 1 →
    ∃ t, exec (.loadreq x n) s = .next t ∧ t.sent = s.sent ++ [.toNode x "LOAD_IMAGE" [n, (s.reg (R.GRV_WIMG_GEN i)).toNat]
      (s.readBytes (s.imgBase i) (2048 * (s.im i).blocks))] ∧
      t.rd (R.GRV_WIMG_USE i) F.GRV_WIMG_USE_COUNT = min (s.rd (R.GRV_WIMG_USE i) F.GRV_WIMG_USE_COUNT + 1) (2 ^ 16 - 1) ∧
      s.sameRegsBut [R.GRV_WIMG_USE i, R.BGT_USE 7] t ∧ t.mem = s.mem) ∧
  (∀ (s : State) (x n : Nat), s.up → (s.streamSlot n).isSome = true → (∀ i, s.imgOf n = some i → s.imgState i ≠ 1) →
    ∃ t, exec (.loadreq x n) s = .next t ∧ t.sent = s.sent ++ [.toNode x "LOAD_BUSY" [n] []] ∧ t.regs = s.regs ∧ t.mem = s.mem) ∧
  (∀ (s : State) (i : ImageId) (q : Nat) (b : List Byte), s.up → s.imgState i.val = 3 → (s.im i.val).missedStart.getD 0 ≤ q →
    s.served (s.imgBase i.val) b.length = true → ∃ t, exec (.imageAnswer i (.image q b)) s = .next t ∧ t.imgState i.val = 1 ∧
      t.rd (R.GRV_WIMG_GEN i.val) F.GRV_WIMG_GEN_RING = q % 2 ^ 64 ∧ (t.im i.val).blocks = b.length / 2048 ∧
      s.stores (s.imgBase i.val) b t ∧ s.sameRegsBut [R.GRV_WIMG_CTL i.val, R.GRV_WIMG_GEN i.val, R.BGT_USE 7] t ∧ t.sent = s.sent) ∧
  (∀ (s : State) (i : ImageId) (a : LoadAnswer), s.up → s.imgState i.val = 3 → a = .busy ∨ a = .aborted →
    ∃ t, exec (.imageAnswer i a) s = .next t ∧ t.imgState i.val = (if 8 ≤ (s.im i.val).retries then 4 else 3) ∧
      s.sameRegsBut [R.GRV_WIMG_CTL i.val, R.EVR_LOST] t ∧ t.mem = s.mem) ∧
  (∀ (s : State) (i : ImageId), s.up → s.imgState i.val = 3 → (s.im i.val).retries < 8 → ∃ t, exec (.loadRetry i) s = .next t ∧
    t.im i.val = { s.im i.val with retries := (s.im i.val).retries + 1 } ∧
    t.sent = s.sent ++ [.toNode (s.rd (R.GRV_WIMG_CTL i.val) F.GRV_WIMG_CTL_SRC) "LOADREQ"
      [s.pnid, s.rd (R.GRV_WIMG_CTL i.val) F.GRV_WIMG_CTL_STREAM] []] ∧ t.regs = s.regs ∧ t.mem = s.mem) ∧
  (∀ (s : State) (i : ImageId), s.up → ∃ t, exec (.touch i) s = .next t ∧
    t.rd (R.GRV_WIMG_USE i.val) F.GRV_WIMG_USE_COUNT = min (s.rd (R.GRV_WIMG_USE i.val) F.GRV_WIMG_USE_COUNT + 1) (2 ^ 16 - 1) ∧
    t.rd (R.GRV_WIMG_USE i.val) F.GRV_WIMG_USE_LAST = s.now / 1000 % 2 ^ 32 ∧ s.sameRegsBut [R.GRV_WIMG_USE i.val] t ∧
    t.sent = s.sent ∧ t.mem = s.mem)

/-- SWEEP_START, SWEEP_RECORD and RESTORE_RECORD (R225 to R233). A due sweep starts with LEFT blocks, or is skipped. Its next record is sealed
at WPTR, and LEFT falls. A record of the restore ring is consumed: padding, one that does not open and one that a check refuses change
nothing but RPTR and their counter, and an accepted block is restored. -/
def Obligations.SweepsAndRestores : Prop :=
  (∀ (s : State) (g : GladeId), s.up → (s.gl g.val).sweepDue = true → (s.gl g.val).sweep = none → s.seedSize g.val ≠ 0 →
    s.on (R.GLD_SBCTL g.val) F.GLD_SBCTL_EN = true → s.keyCur g.val = none → ∃ t w, exec (.sweepStart g) s = .next t ∧
      (t.gl g.val).sweep = some w ∧ w.ring = s.ring g.val ∧ w.done = [] ∧ w.startDone = false ∧ (t.gl g.val).sweepDue = false ∧
      t.rd (R.GLD_SBSTAT g.val) F.GLD_SBSTAT_SWEEP = 1 ∧ t.rd (R.GLD_SBSTAT g.val) F.GLD_SBSTAT_LEFT = s.bloc g.val % 2 ^ 32 ∧
      t.rd (R.GLD_SBSTAT g.val) F.GLD_SBSTAT_FULL = 1 ∧ s.sameRegsBut [R.GLD_SBSTAT g.val, R.GLD_SBAT g.val, R.EVR_LOST] t ∧
      t.mem = s.mem) ∧
  (∀ (s : State) (g : GladeId) (k : KeyGen) (o : Nat), s.up → (s.gl g.val).sweepDue = true → (s.gl g.val).sweep = none →
    s.seedSize g.val ≠ 0 → s.on (R.GLD_SBCTL g.val) F.GLD_SBCTL_EN = true → s.keyCur g.val = some k → s.seedRoom g.val 128 = true →
    s.rd (R.GLD_SBOPTR g.val) F.GLD_SBOPTR_WPTR + 128 ≤ s.seedSize g.val →
    o = 4096 * s.rd (R.GLD_SBOUT g.val) F.GLD_SBOUT_BASE + s.rd (R.GLD_SBOPTR g.val) F.GLD_SBOPTR_WPTR → s.served o 128 = true →
    ∃ t w rec, exec (.sweepStart g) s = .next t ∧ (t.gl g.val).sweep = some w ∧ w.ring = s.ring g.val ∧ w.done = [] ∧
      w.startDone = true ∧ rec.length = 128 ∧ leAt rec 2 1 = 1 ∧ s.stores o rec t ∧
      t.rd (R.GLD_SBSTAT g.val) F.GLD_SBSTAT_SWEEP = 1 ∧ t.rd (R.GLD_SBSTAT g.val) F.GLD_SBSTAT_LEFT = s.bloc g.val % 2 ^ 32 ∧
      s.sameRegsBut [R.GLD_SBSTAT g.val, R.GLD_SBAT g.val, R.GLD_SBOPTR g.val, R.BGT_USE 6] t) ∧
  (∀ (s : State) (g : GladeId), s.up → (s.gl g.val).sweepDue = true → (s.gl g.val).sweep.isSome = true →
    ∃ t, exec (.sweepStart g) s = .next t ∧ (t.gl g.val).sweep = (s.gl g.val).sweep ∧
      t.rd (R.GLD_SBSTAT g.val) F.GLD_SBSTAT_SKIPPED = 1 ∧
      s.sameRegsBut [R.GLD_SBSTAT g.val, R.GLD_SBAT g.val, R.EVR_LOST] t ∧ t.mem = s.mem) ∧
  (∀ (s : State) (g : GladeId) (w : Sweep) (u l b : Nat) (k : KeyGen) (o n : Nat), s.up → (s.gl g.val).sweep = some w → s.active g.val = true →
    s.permits g.val 6 = true → w.partialEnd = false → w.startDone = true → w.strict = false →
    ((List.range (s.bloc g.val)).find? fun x => !w.done.contains x) = some u → s.sweepPaced g.val w = true →
    (s.gl g.val).applied.contains u = false → s.locate g.val u = some (l, b) → s.keyCur g.val = some k →
    n = seedLen (s.blockBody g.val u w.narrow).length → s.seedRoom g.val n = true → w.done.length + 1 < s.bloc g.val →
    s.rd (R.GLD_SBOPTR g.val) F.GLD_SBOPTR_WPTR + n ≤ s.seedSize g.val →
    o = 4096 * s.rd (R.GLD_SBOUT g.val) F.GLD_SBOUT_BASE + s.rd (R.GLD_SBOPTR g.val) F.GLD_SBOPTR_WPTR → s.served o n = true →
    ∃ t rec, exec (.sweepRecord g) s = .next t ∧ rec.length = n ∧ leAt rec 2 1 = 2 ∧ leAt rec 16 4 = l % 2 ^ 15 ∧
      leAt rec 20 4 = b % 2 ^ 32 ∧ s.stores o rec t ∧
      (t.gl g.val).sweep = some { w with seq := w.seq + 1, done := w.done ++ [u], quotaUsed := w.quotaUsed + 1 } ∧
      t.rd (R.GLD_SBSTAT g.val) F.GLD_SBSTAT_LEFT = s.rd (R.GLD_SBSTAT g.val) F.GLD_SBSTAT_LEFT - 1 ∧
      s.sameRegsBut [R.GLD_SBSTAT g.val, R.GLD_SBOPTR g.val, R.BGT_USE 6] t ∧ t.sent = s.sent) ∧
  (∀ (s : State) (g : GladeId) (r n : Nat) (h : SeedHdr), s.up → r = s.rd (R.GLD_SBIPTR g.val) F.GLD_SBIPTR_RPTR →
    r ≠ s.rd (R.GLD_SBIPTR g.val) F.GLD_SBIPTR_WPTR → 0 < s.rd (R.GLD_SBIN g.val) F.GLD_SBIN_SIZE →
    h = SeedHdr.ofBytes (s.restoreBytes g.val r 64) → n = 64 * max 1 (leAt (s.restoreBytes g.val r 64) 0 2) → h.kind ≠ 0 →
    (n = seedLen h.bodyLen → s.openRecord g.val h (s.restoreBytes g.val r n) = none) → ∃ t, exec (.restoreRecord g) s = .next t ∧
      t.rd (R.GLD_SBIPTR g.val) F.GLD_SBIPTR_RPTR =
        (r + n) % (4096 * s.rd (R.GLD_SBIN g.val) F.GLD_SBIN_SIZE) % 2 ^ F.GLD_SBIPTR_RPTR.width ∧
      t.rd (R.GLD_SBERR g.val) F.GLD_SBERR_AUTH =
        min (s.rd (R.GLD_SBERR g.val) F.GLD_SBERR_AUTH + 1) (2 ^ F.GLD_SBERR_AUTH.width - 1) ∧
      s.sameRegsBut [R.GLD_SBIPTR g.val, R.GLD_SBERR g.val, R.BGT_USE 6, R.EVR_LOST] t ∧ t.glades = s.glades ∧ t.mem = s.mem) ∧
  (∀ (s : State) (g : GladeId) (r n u : Nat) (h : SeedHdr), s.up → r = s.rd (R.GLD_SBIPTR g.val) F.GLD_SBIPTR_RPTR →
    r ≠ s.rd (R.GLD_SBIPTR g.val) F.GLD_SBIPTR_WPTR → 0 < s.rd (R.GLD_SBIN g.val) F.GLD_SBIN_SIZE →
    h = SeedHdr.ofBytes (s.restoreBytes g.val r 64) → n = 64 * max 1 (leAt (s.restoreBytes g.val r 64) 0 2) → h.kind ≠ 0 →
    n = seedLen h.bodyLen → u = s.localBlock g.val (s.members g.val) (s.lmn g.val) h.layer h.block →
    (∀ c, c < 1 + s.moments g.val → s.served (s.regionBase g.val c + 4096 * u) 4096 = true) →
    s.served (s.ledgerAddr g.val u) 16 = true → s.served (s.bufferAddr g.val u) 4096 = true → ∃ t, exec (.restoreRecord g) s = .next t ∧
      ((s.openRecord g.val h (s.restoreBytes g.val r n)).isSome = true → s.restoreOk g.val h = false →
        t.rd (R.GLD_SBERR g.val) F.GLD_SBERR_DROP =
          min (s.rd (R.GLD_SBERR g.val) F.GLD_SBERR_DROP + 1) (2 ^ F.GLD_SBERR_DROP.width - 1) ∧
        s.sameRegsBut [R.GLD_SBIPTR g.val, R.GLD_SBERR g.val, R.BGT_USE 6] t ∧ t.glades = s.glades ∧ t.mem = s.mem) ∧
      ((s.openRecord g.val h (s.restoreBytes g.val r n)).isSome = true → s.restoreOk g.val h = true → s.fullRestore g.val = true →
        1 < s.rd (R.GLD_SBSTAT g.val) F.GLD_SBSTAT_LEFT →
        (h.layer, h.block, h.vring) ∈ (t.gl g.val).restored ∧
        t.rd (R.GLD_SBIPTR g.val) F.GLD_SBIPTR_RPTR =
          (r + n) % (4096 * s.rd (R.GLD_SBIN g.val) F.GLD_SBIN_SIZE) % 2 ^ F.GLD_SBIPTR_RPTR.width ∧
        s.sameRegsBut [R.GLD_SBIPTR g.val, R.GLD_SBSTAT g.val, R.STP_GSTAT g.val, R.BGT_USE 6] t ∧
        (∀ x, (∀ c, c < 1 + s.moments g.val → x < s.regionBase g.val c + 4096 * u ∨ s.regionBase g.val c + 4096 * u + 4096 ≤ x) →
          (x < s.ledgerAddr g.val u ∨ s.ledgerAddr g.val u + 16 ≤ x) →
          (x < s.bufferAddr g.val u ∨ s.bufferAddr g.val u + 4096 ≤ x) →
          (x < s.copyAddr g.val u ∨ s.copyAddr g.val u + 2048 ≤ x) → t.readByte x = s.readByte x)))

/-- LINK_ENABLE, LINK_DOWN, RETRAIN, TRAINING_TIMEOUT, TRAINING_RETRY, UNLOCK_TIMEOUT, TRAIN and TRIM_DONE in training (R256, R265, R270,
R274). Training starts with the retry buffer dropped, PHYRST pulsed and no lane in use, or waits for RTR_SELF SET; an attempt that fails
waits in STATE 5; TRAIN takes the partner and the masks; the last lane's trim makes the link active. It rests on the model's choices in
assumptions 4, 37 and 38. -/
def Obligations.LinkTraining : Prop :=
  (∀ (s : State) (p : LinkId) (c : Instr), s.up → s.on R.RTR_SELF F.RTR_SELF_SET = true → s.router.waiting = [] →
    (c = .linkEnable p ∧ s.on (R.LNK_CTL p.val) F.LNK_CTL_EN = false ∧ s.linkHeld p.val = false) ∨
    (s.on (R.LNK_CTL p.val) F.LNK_CTL_EN = true ∧ ((c = .retrain p ∧ (s.lk p.val).waitSet = false) ∨
      (c = .trainingRetry p ∧ s.lnkState p.val = 5) ∨
      (c = .unlockTimeout p ∧ s.lnkState p.val = 2 ∧ s.lockedMask p.val = 0 ∧ (s.lk p.val).doze = 0))) →
    ∃ t, exec c s = .next t ∧ t.lnkState p.val = 1 ∧ t.on (R.LNK_CTL p.val) F.LNK_CTL_EN = true ∧ t.rxMask p.val = 0 ∧
      t.txMask p.val = 0 ∧ t.lockedMask p.val = 0 ∧ (t.lk p.val).buffer = [] ∧ (t.lk p.val).txSeq = 0 ∧ (t.lk p.val).accepted = false ∧
      t.rd (R.LNK_RETRY p.val) F.LNK_RETRY_DROPPED = min (s.rd (R.LNK_RETRY p.val) F.LNK_RETRY_DROPPED + (s.lk p.val).buffer.length)
        (2 ^ F.LNK_RETRY_DROPPED.width - 1) ∧
      t.sent = s.sent ++ [.lane p.val "PHYRST" [1], .lane p.val "PHYRST" [0]] ∧
      s.sameRegsBut [R.LNK_CTL p.val, R.LNK_STATUS p.val, R.LNK_WIDTH p.val, R.LNK_RETRY p.val, R.LNK_TRIM p.val] t ∧ t.mem = s.mem) ∧
  (∀ (s : State) (p : LinkId), s.up → s.on R.RTR_SELF F.RTR_SELF_SET = false → s.on (R.LNK_CTL p.val) F.LNK_CTL_EN = false →
    s.linkHeld p.val = false → ∃ t, exec (.linkEnable p) s = .next t ∧ t.on (R.LNK_CTL p.val) F.LNK_CTL_EN = true ∧
      (t.lk p.val).waitSet = true ∧ s.sameRegsBut [R.LNK_CTL p.val] t ∧ t.sent = s.sent ∧ t.mem = s.mem) ∧
  (∀ (s : State) (p : LinkId), s.up → s.on (R.LNK_CTL p.val) F.LNK_CTL_EN = true → s.router.waiting = [] →
    ∃ t, exec (.linkDown p) s = .next t ∧ t.lnkState p.val = 0 ∧ t.on (R.LNK_CTL p.val) F.LNK_CTL_EN = false ∧
      t.rxMask p.val = 0 ∧ t.txMask p.val = 0 ∧ t.lockedMask p.val = 0 ∧ (t.lk p.val).buffer = [] ∧ (t.lk p.val).waitSet = false ∧
      t.sent = s.sent ++ [.lane p.val "TXIDLE" [1]] ∧
      s.sameRegsBut [R.LNK_CTL p.val, R.LNK_STATUS p.val, R.LNK_WIDTH p.val, R.LNK_RETRY p.val, R.LNK_TRIM p.val] t ∧ t.mem = s.mem) ∧
  (∀ (s : State) (p : LinkId), s.up → s.lnkState p.val = 1 → ∃ t, exec (.trainingTimeout p) s = .next t ∧ t.lnkState p.val = 5 ∧
    t.rd (R.LNK_STATUS p.val) F.LNK_STATUS_FAILS =
      min (s.rd (R.LNK_STATUS p.val) F.LNK_STATUS_FAILS + 1) (2 ^ F.LNK_STATUS_FAILS.width - 1) ∧
    t.sent = s.sent ++ [.lane p.val "RETRY" [min 1000 (20 * 2 ^ (s.lk p.val).fails)]] ∧
    s.sameRegsBut [R.LNK_STATUS p.val, R.EVR_LOST] t ∧ t.mem = s.mem) ∧
  (∀ (s : State) (p : LinkId) (pn po st now : Nat) (l : Byte), s.up → s.lnkState p.val = 1 → (s.lk p.val).trimStep = 0 → pn < 2 ^ 16 →
    po < 2 ^ F.LNK_PEER_PORT.width → ∃ t, exec (.train p pn po 1 l st 0 now) s = .next t ∧ t.peer p.val = pn ∧
      t.rd (R.LNK_PEER p.val) F.LNK_PEER_PORT = po ∧ (t.lk p.val).peerStamp = st ∧ (t.lk p.val).peerMask = l.toNat ∧
      t.sent = s.sent ++ [.control p.val 0x09 [s.pnid, p.val, 1, s.lockedMask p.val, now, st]] ∧
      s.sameRegsBut [R.LNK_PEER p.val] t ∧ t.mem = s.mem) ∧
  (∀ (s : State) (p : LinkId) (pn po st ec now rx i : Nat) (r : List Nat) (l : Byte), s.up → s.lnkState p.val = 1 →
    (s.lk p.val).trimStep = 0 → ec ≠ 0 → rx = meet (s.lockedMask p.val) (s.laneMask p.val) → lanesOfMask rx = i :: r →
    meet l.toNat (s.laneMask p.val) ≠ 0 → ∃ t, exec (.train p pn po 1 l st ec now) s = .next t ∧ t.rxMask p.val = rx ∧
      t.txMask p.val = meet l.toNat (s.laneMask p.val) ∧
      t.rd (R.LNK_PEER p.val) F.LNK_PEER_RTT = min ((now - ec) / 2) 0xFFFF ∧ (t.lk p.val).trimStep = 2 ∧
      (t.lk p.val).trimQueue = i :: r ∧ .lane p.val "TRIMREQ" [i] ∈ t.sent ∧ t.lnkState p.val = 1 ∧ t.mem = s.mem) ∧
  (∀ (s : State) (p : LinkId) (pn po v st ec now : Nat) (l : Byte), s.up → s.lnkState p.val = 1 → (s.lk p.val).trimStep = 0 → v ≠ 1 →
    ∃ t, exec (.train p pn po v l st ec now) s = .next t ∧ s.sameRegsBut [R.EVR_LOST] t ∧ t.sent = s.sent ∧ t.mem = s.mem) ∧
  (∀ (s : State) (p : LinkId) (i : Nat), s.up → s.lnkState p.val = 1 → (s.lk p.val).trimStep = 2 → (s.lk p.val).trimQueue = [i] →
    s.router.waiting = [] → (s.lk p.val).buffer = [] → ∃ t, exec (.trimDone p) s = .next t ∧ t.lnkState p.val = 2 ∧
      t.rd (R.LNK_PEER p.val) F.LNK_PEER_VALID = 1 ∧ (t.lk p.val).trimStep = 0 ∧ (t.lk p.val).fails = 0 ∧
      s.sameRegsBut [R.LNK_STATUS p.val, R.LNK_PEER p.val, R.LNK_TRIM p.val] t ∧ t.sent = s.sent ∧ t.mem = s.mem)

/-- PERIOD_START, LANE_MARKER, CDR_LOCK_LOSS and UNCORRECTABLE_CODEWORD (R239 to R244, R259, R419). Each period sends the next marker, and a
width change that waits takes effect with it. A hunting lane tracks up to 8 candidates and locks on the one that is confirmed twice; it
loses its lock by its fourth bad marker in a row or by the loss of its clock, and then an active link sends NAK and asks for the lanes
that are left. It rests on the model's choices in assumptions 4, 34 and 36. -/
def Obligations.LanesAndPeriods : Prop :=
  (∀ (s : State) (p : LinkId), s.up → s.lnkHears p.val = true → (s.lk p.val).doze = 0 → (s.lk p.val).reqMask = none →
    (s.lk p.val).replayFrom = none → (s.lk p.val).buffer = [] → s.router.waiting = [] → ∃ t, exec (.periodStart p) s = .next t ∧
      t.sent = s.sent ++ [.lane p.val "MARKER" [((s.lk p.val).cntTx + 1) % 2 ^ 16, widthOf (s.txMask p.val), bit (s.lk p.val).wakeFirst]] ∧
      t.lk p.val = { s.lk p.val with cntTx := ((s.lk p.val).cntTx + 1) % 2 ^ 16, wakeFirst := false } ∧ t.regs = s.regs ∧
      t.mem = s.mem) ∧
  (∀ (s : State) (p : LinkId) (m : Nat), s.up → s.lnkHears p.val = true → (s.lk p.val).doze = 0 → (s.lk p.val).reqMask = some m →
    m < 256 → m ≠ s.txMask p.val → (s.lk p.val).replayFrom = none → (s.lk p.val).buffer = [] → s.router.waiting = [] →
    ∃ t, exec (.periodStart p) s = .next t ∧ t.txMask p.val = m ∧ (t.lk p.val).reqMask = none ∧
      t.rd (R.LNK_WIDTH p.val) F.LNK_WIDTH_CHANGES =
        min (s.rd (R.LNK_WIDTH p.val) F.LNK_WIDTH_CHANGES + 1) (2 ^ F.LNK_WIDTH_CHANGES.width - 1) ∧
      t.sent = s.sent ++ [.lane p.val "MARKER" [((s.lk p.val).cntTx + 1) % 2 ^ 16, widthOf m, bit (s.lk p.val).wakeFirst]] ∧
      s.sameRegsBut [R.LNK_WIDTH p.val, R.EVR_LOST] t ∧ t.mem = s.mem) ∧
  (∀ (s : State) (p : LinkId) (i : LaneId) (m : Marker) (x : LaneState), s.up → s.lnkHears p.val = true → s.router.waiting = [] →
    x = (s.lk p.val).lane i.val → x.state = 0 → x.atPoint m = none → ∃ t, exec (.laneMarker p i m) s = .next t ∧
      (t.lk p.val).lane i.val = { x with
        candidates := (if m.hunts = true ∧ (x.tracked m).length < 8
          then x.tracked m ++ [⟨m.pos, m.lane, m.width, m.cnt, 0⟩] else x.tracked m) } ∧
      t.regs = s.regs ∧ t.sent = s.sent ∧ t.mem = s.mem) ∧
  (∀ (s : State) (p : LinkId) (i : LaneId) (m : Marker) (x : LaneState) (d : Candidate), s.up → s.lnkHears p.val = true →
    s.router.waiting = [] → x = (s.lk p.val).lane i.val → x.state = 0 → x.candidates = [d] → m.pos = d.pos + 1392768 →
    d.hits = 0 ∨ d.confirms m = false → ∃ t, exec (.laneMarker p i m) s = .next t ∧
      (t.lk p.val).lane i.val = { x with
        candidates := (if d.confirms m = true then [⟨m.pos, d.lane, d.width, m.cnt, 1⟩]
          else if m.hunts = true then [⟨m.pos, m.lane, m.width, m.cnt, 0⟩] else []) } ∧
      t.regs = s.regs ∧ t.sent = s.sent ∧ t.mem = s.mem) ∧
  (∀ (s : State) (p : LinkId) (i : LaneId) (m : Marker) (x : LaneState) (d : Candidate), s.up → s.lnkState p.val = 1 →
    s.router.waiting = [] → x = (s.lk p.val).lane i.val → x.state = 0 → x.candidates = [d] → m.pos = d.pos + 1392768 →
    d.hits = 1 → d.confirms m = true → ∃ t, exec (.laneMarker p i m) s = .next t ∧
      ((t.lk p.val).lane i.val).state = 1 ∧ bitAt (t.lockedMask p.val) i.val = true ∧
      t.sent = s.sent ++ [.control p.val 0x09 [s.pnid, p.val, 1, t.lockedMask p.val, 2000 * s.now, (s.lk p.val).peerStamp]] ∧
      s.sameRegsBut [R.LNK_WIDTH p.val] t ∧ t.mem = s.mem) ∧
  (∀ (s : State) (p : LinkId) (i : LaneId) (m : Marker) (j : Nat) (c : Instr), s.up → s.lnkState p.val = 2 → s.router.waiting = [] →
    ((s.lk p.val).lane i.val).state = 1 → (s.lk p.val).doze = 0 → (s.lk p.val).trimStep = 0 → bitAt (s.rxMask p.val) i.val = true →
    c = .cdrLockLoss p i ∨ (c = .laneMarker p i m ∧ ((s.lk p.val).lane i.val).expects m = true ∧
      ((s.lk p.val).lane i.val).badMarkers = 3 ∧ m.crcOk = false) →
    j < 8 → j ≠ i.val → bitAt (s.rxMask p.val) j = true → bitAt (s.lockedMask p.val) j = true → bitAt (s.laneMask p.val) j = true →
    ∃ t, exec c s = .next t ∧ ((t.lk p.val).lane i.val).state = 0 ∧
      (∀ k, k < 8 → bitAt (t.lockedMask p.val) k = (bitAt (s.lockedMask p.val) k && k != i.val)) ∧
      t.sent = s.sent ++ [.control p.val 0x03 [(s.lk p.val).rxExpected],
        .control p.val 0x05 [meet (meet (t.lockedMask p.val) (s.laneMask p.val)) (s.rxMask p.val), 1]] ∧
      (t.lk p.val).ignoring = true ∧ (t.lk p.val).switching = true ∧ (t.lk p.val).nakOut = true ∧
      s.sameRegsBut [R.LNK_WIDTH p.val, R.LNK_RETRY p.val] t ∧ t.mem = s.mem) ∧
  (∀ (s : State) (p : LinkId) (i : LaneId) (n : Nat), s.up → s.lnkHears p.val = true → bitAt (s.rxMask p.val) i.val = true →
    ((((true :: List.replicate (min n 16) false) ++ ((s.lk p.val).lane i.val).history).take 16).filter (·)).length < 8 →
    ∃ t, exec (.uncorrectableCodeword p i n) s = .next t ∧
      t.rd (R.LNK_FEC p.val) F.LNK_FEC_UNCORR =
        min (s.rd (R.LNK_FEC p.val) F.LNK_FEC_UNCORR + 1) (2 ^ F.LNK_FEC_UNCORR.width - 1) ∧
      t.rd (R.LNK_LHIST p.val i.val) F.LNK_LHIST_UNC =
        min (s.rd (R.LNK_LHIST p.val i.val) F.LNK_LHIST_UNC + 1) (2 ^ F.LNK_LHIST_UNC.width - 1) ∧
      ((t.lk p.val).lane i.val).uncs = ((s.lk p.val).lane i.val).uncs + 1 ∧
      s.sameRegsBut [R.LNK_FEC p.val, R.LNK_LHIST p.val i.val] t ∧ t.sent = s.sent ∧ t.mem = s.mem)

/-- DATA_FRAME, IDLE, PULSE, ACK, NAK, CREDIT and the timers ACK_TIMER, REPLAY_TIMEOUT, NAK_RESEND, PULSE_TIMER and LINK_SILENCE (R246, R250
to R258, R275). A correct frame in order advances E; a bad header loses the delineation; a frame seen before is acknowledged again. A
replay sends 2 IDLE blocks and the frames from E on, and the eighth replay of a frame makes the link retrain. It rests on the model's
choices in assumptions 4, 30 and 35. -/
def Obligations.LinkTraffic : Prop :=
  (∀ (s : State) (p : LinkId) (f : RxFrame) (n q : Nat), s.up → s.lnkState p.val = 2 → (s.lk p.val).ignoring = false →
    (s.lk p.val).resync = false → s.router.waiting = [] → f.firstBad = false → f.anyBad = false → leAt f.bytes 0 1 = 0x1E →
    leAt f.bytes 30 2 = crc16 (slice f.bytes 0 30) → n = leAt f.bytes 2 1 → 0 < n → n ≤ 128 →
    leAt f.bytes (32 * (n + 1) + 28) 4 = crc32c (slice f.bytes 0 (32 * (n + 1) + 28)) → frameMalformed f.bytes n = false →
    q = leAt f.bytes 4 2 → ∃ t, exec (.dataFrame p f) s = .next t ∧ t.mem = s.mem ∧
      (t.lk p.val).buffer = ((s.lk p.val).buffer.filter fun b => 2 ^ 15 ≤ (leAt f.bytes 6 2 + 2 ^ 16 - b.seq) % 2 ^ 16 || !b.out) ∧
      (q = (s.lk p.val).rxExpected → (s.lk p.val).unreported < 31 → (t.lk p.val).rxExpected = (q + 1) % 2 ^ 16 ∧
        (t.lk p.val).accepted = true ∧ (t.lk p.val).nakOut = false ∧ (t.lk p.val).unreported = (s.lk p.val).unreported + 1 ∧
        t.sent = s.sent ∧ t.regs = s.regs) ∧
      (q + 1 = (s.lk p.val).rxExpected → (t.lk p.val).rxExpected = (s.lk p.val).rxExpected ∧
        t.sent = s.sent ++ [.control p.val 0x02 [(s.lk p.val).ackSeq]] ∧ t.regs = s.regs)) ∧
  (∀ (s : State) (p : LinkId) (f : RxFrame), s.up → s.lnkState p.val = 2 → (s.lk p.val).ignoring = false →
    (s.lk p.val).resync = false → s.router.waiting = [] → f.firstBad = false → leAt f.bytes 0 1 = 0x1E →
    leAt f.bytes 30 2 ≠ crc16 (slice f.bytes 0 30) → ∃ t, exec (.dataFrame p f) s = .next t ∧ (t.lk p.val).resync = true ∧
      (t.lk p.val).nakOut = true ∧ (t.lk p.val).rxExpected = (s.lk p.val).rxExpected ∧
      t.sent = s.sent ++ [.control p.val 0x03 [(s.lk p.val).rxExpected]] ∧
      t.rd (R.LNK_ERR p.val) F.LNK_ERR_HCRC = min (s.rd (R.LNK_ERR p.val) F.LNK_ERR_HCRC + 1) (2 ^ F.LNK_ERR_HCRC.width - 1) ∧
      s.sameRegsBut [R.LNK_ERR p.val, R.LNK_RETRY p.val] t ∧ t.mem = s.mem) ∧
  (∀ (s : State) (p : LinkId), s.up → ∃ t, exec (.idle p) s = .next t ∧ t.lk p.val = { s.lk p.val with resync := false } ∧
    t.regs = s.regs ∧ t.sent = s.sent ∧ t.mem = s.mem) ∧
  (∀ (s : State) (p : LinkId) (po n : Nat), s.up → s.on (R.LNK_PEER p.val) F.LNK_PEER_VALID = true → s.lnkState p.val = 2 →
    s.router.waiting = [] → ∃ t, exec (.pulse p (s.peer p.val) po n) s = .next t ∧
      t.rd (R.LNK_STATUS p.val) F.LNK_STATUS_SILENT = 0 ∧ (t.lk p.val).resync = false ∧ s.sameRegsBut [R.LNK_STATUS p.val] t ∧
      t.sent = s.sent ∧ t.mem = s.mem) ∧
  (∀ (s : State) (p : LinkId) (x po n : Nat), s.up → s.on (R.LNK_PEER p.val) F.LNK_PEER_VALID = true → s.lnkState p.val = 2 →
    s.router.waiting = [] → x ≠ s.peer p.val → s.on (R.LNK_STATUS p.val) F.LNK_STATUS_SILENT = true →
    s.on (R.LNK_CTL p.val) F.LNK_CTL_EN = true → s.on R.RTR_SELF F.RTR_SELF_SET = true → ∃ t, exec (.pulse p x po n) s = .next t ∧
      t.lnkState p.val = 1 ∧ t.mem = s.mem) ∧
  (∀ (s : State) (p : LinkId) (a : BitVec 16), s.up → s.router.waiting = [] → ∃ t, exec (.ack p a) s = .next t ∧
    t.lk p.val = { s.lk p.val with resync := false, buffer := (s.lk p.val).buffer.filter fun b =>
      2 ^ 15 ≤ (a.toNat + 2 ^ 16 - b.seq) % 2 ^ 16 || !b.out } ∧ t.regs = s.regs ∧ t.sent = s.sent ∧ t.mem = s.mem) ∧
  (∀ (s : State) (p : LinkId) (e : BitVec 16) (b : Buffered) (c : Instr), s.up → s.lnkState p.val = 2 → (s.lk p.val).doze = 0 →
    (s.lk p.val).reqMask = none → s.router.waiting = [] → (s.lk p.val).buffer = [b] → b.out = true → b.seq = e.toNat → b.replays < 7 →
    c = .nak p e ∨ c = .replayTimeout p → ∃ t, exec c s = .next t ∧
      (t.lk p.val).buffer = [{ b with replays := b.replays + 1 }] ∧ (t.lk p.val).unreported = 0 ∧
      t.sent = s.sent ++ [.control p.val 0x00 [], .control p.val 0x00 [], .data p.val b.seq] ∧
      t.rd (R.LNK_RETRY p.val) F.LNK_RETRY_REPLAYS =
        min (s.rd (R.LNK_RETRY p.val) F.LNK_RETRY_REPLAYS + 1) (2 ^ F.LNK_RETRY_REPLAYS.width - 1) ∧
      (c = .replayTimeout p → t.rd (R.LNK_RETRY p.val) F.LNK_RETRY_TMO =
        min (s.rd (R.LNK_RETRY p.val) F.LNK_RETRY_TMO + 1) (2 ^ F.LNK_RETRY_TMO.width - 1)) ∧
      s.sameRegsBut [R.LNK_RETRY p.val] t ∧ t.mem = s.mem) ∧
  (∀ (s : State) (p : LinkId) (e : BitVec 16) (b : Buffered), s.up → s.lnkState p.val = 2 → (s.lk p.val).doze = 0 →
    (s.lk p.val).reqMask = none → s.router.waiting = [] → (s.lk p.val).buffer = [b] → b.out = true → b.seq = e.toNat → b.replays = 7 →
    s.on (R.LNK_CTL p.val) F.LNK_CTL_EN = true → s.on R.RTR_SELF F.RTR_SELF_SET = true → ∃ t, exec (.nak p e) s = .next t ∧
      t.lnkState p.val = 1 ∧ (t.lk p.val).buffer = [] ∧ t.mem = s.mem) ∧
  (∀ (s : State) (p : LinkId) (l : List Nat) (n : Nat), s.up → s.router.waiting = [] → ∃ t, exec (.credit p l n) s = .next t ∧
    (∀ v, v < 8 → vcCount (t.lk p.val).usedReserved v = vcCount (s.lk p.val).usedReserved v - l.getD v 0) ∧
    (t.lk p.val).usedShared = (s.lk p.val).usedShared - n ∧ t.regs = s.regs ∧ t.sent = s.sent ∧ t.mem = s.mem) ∧
  (∀ (s : State) (p : LinkId), s.up → 0 < (s.lk p.val).unreported → ∃ t, exec (.ackTimer p) s = .next t ∧
    t.sent = s.sent ++ [.control p.val 0x02 [(s.lk p.val).ackSeq]] ∧ t.lk p.val = { s.lk p.val with unreported := 0 } ∧
    t.regs = s.regs ∧ t.mem = s.mem) ∧
  (∀ (s : State) (p : LinkId), s.up → (s.lk p.val).nakOut = true → s.lnkState p.val = 2 → ∃ t, exec (.nakResend p) s = .next t ∧
    t.sent = s.sent ++ [.control p.val 0x03 [(s.lk p.val).rxExpected]] ∧
    t.rd (R.LNK_RETRY p.val) F.LNK_RETRY_NAKS = min (s.rd (R.LNK_RETRY p.val) F.LNK_RETRY_NAKS + 1) (2 ^ F.LNK_RETRY_NAKS.width - 1) ∧
    s.sameRegsBut [R.LNK_RETRY p.val] t ∧ t.mem = s.mem) ∧
  (∀ (s : State) (p : LinkId), s.up → s.lnkState p.val = 2 → (s.lk p.val).doze < 3 → ∃ t, exec (.pulseTimer p) s = .next t ∧
    t.sent = s.sent ++ [.control p.val 0x01 [s.pnid, p.val, (s.lk p.val).pulseTx]] ∧
    t.lk p.val = { s.lk p.val with pulseTx := ((s.lk p.val).pulseTx + 1) % 2 ^ 32 } ∧ t.regs = s.regs ∧ t.mem = s.mem) ∧
  (∀ (s : State) (p : LinkId), s.up → s.lnkState p.val = 2 → (s.lk p.val).doze < 3 → s.router.waiting = [] → s.activeGlades = [] →
    ∃ t, exec (.linkSilence p) s = .next t ∧ t.rd (R.LNK_STATUS p.val) F.LNK_STATUS_SILENT = 1 ∧
      s.sameRegsBut [R.LNK_STATUS p.val, R.EVR_LOST] t ∧ t.sent = s.sent ∧ t.mem = s.mem)

/-- WIDTH_REQ, WIDTH_SWITCH_TIMEOUT, LANE_OFFER_BACK, LOAD_SAMPLE, TRIM_REQ, TRIM_DONE, TRIM_WATCH_END and MARGIN_CHECK (R259, R260, R266,
R267, R420). A mask asked for waits for the next period, an empty one starts a full relock; a request unanswered goes again and then the
link retrains. A re-trim excludes its lanes one at a time and offers each back; a lane beyond its margins sets PRED. It rests on the
model's choices in assumptions 4, 36 and 38. -/
def Obligations.LinkWidthAndTrims : Prop :=
  (∀ (s : State) (p : LinkId) (m : Byte) (n : Nat), s.up → s.lnkState p.val = 2 → meet m.toNat (s.laneMask p.val) ≠ 0 →
    ∃ t, exec (.widthReq p m n) s = .next t ∧ t.lk p.val =
      { s.lk p.val with resync := false, peerMask := m.toNat, reqMask := some (meet m.toNat (s.laneMask p.val)) } ∧ t.regs = s.regs ∧ t.sent = s.sent ∧ t.mem = s.mem) ∧
  (∀ (s : State) (p : LinkId) (m : Byte) (n : Nat), s.up → s.lnkState p.val = 2 → meet m.toNat (s.laneMask p.val) = 0 →
    ∃ t, exec (.widthReq p m n) s = .next t ∧ t.lnkState p.val = 4 ∧ t.lockedMask p.val = 0 ∧ (t.lk p.val).ignoring = true ∧
      (∀ i, i < 8 → ((t.lk p.val).lane i).state = 0) ∧
      s.sameRegsBut [R.LNK_WIDTH p.val, R.LNK_STATUS p.val, R.LNK_TRIM p.val] t ∧ t.sent = s.sent ∧ t.mem = s.mem) ∧
  (∀ (s : State) (p : LinkId), s.up → (s.lk p.val).switching = true → (s.lk p.val).widthTries ≤ 4 →
    ∃ t, exec (.widthSwitchTimeout p) s = .next t ∧
      t.sent = s.sent ++ [.control p.val 0x05 [(s.lk p.val).askedMask, (s.lk p.val).widthTries + 1]] ∧
      (t.lk p.val).widthTries = (s.lk p.val).widthTries + 1 ∧ t.regs = s.regs ∧ t.mem = s.mem) ∧
  (∀ (s : State) (p : LinkId), s.up → (s.lk p.val).switching = true → 4 < (s.lk p.val).widthTries →
    s.on (R.LNK_CTL p.val) F.LNK_CTL_EN = true → s.on R.RTR_SELF F.RTR_SELF_SET = true →
    ∃ t, exec (.widthSwitchTimeout p) s = .next t ∧ t.lnkState p.val = 1 ∧ t.mem = s.mem) ∧
  (∀ (s : State) (p : LinkId) (i : LaneId), s.up → s.lnkState p.val = 2 → (s.lk p.val).doze = 0 → (s.lk p.val).switching = false →
    (s.lk p.val).trimStep = 0 → bitAt (s.lockedMask p.val) i.val = true → bitAt (s.laneMask p.val) i.val = true →
    bitAt (s.rxMask p.val) i.val = false → (∀ w, (s.lk p.val).widenedAt = some w → w + 100000 ≤ s.now) →
    ∃ t, exec (.laneOfferBack p i) s = .next t ∧
      t.sent = s.sent ++ [.control p.val 0x05 [maskOfLanes (i.val :: lanesOfMask (s.rxMask p.val)), 1]] ∧
      (t.lk p.val).switching = true ∧ t.regs = s.regs ∧ t.mem = s.mem) ∧
  (∀ (s : State) (p : LinkId) (a b c d n : Nat), s.up → s.lnkState p.val = 2 → s.on (R.LNK_CTL p.val) F.LNK_CTL_TRIMAUTO = false →
    n = min 100 (max (100 * b / max 1 a) (100 * d / max 1 c)) → ∃ t, exec (.loadSample p a b c d) s = .next t ∧
      t.rd (R.LNK_TRIM p.val) F.LNK_TRIM_LOAD = n ∧ (t.lk p.val).atFull = decide (75 ≤ n) ∧
      t.rd (R.LNK_TRIM p.val) F.LNK_TRIM_DUE = (if 75 ≤ n ∧ (s.lk p.val).atFull = false ∧
        s.rd (R.LNK_TRIM p.val) F.LNK_TRIM_LASTLOAD < 75 then 1 else s.rd (R.LNK_TRIM p.val) F.LNK_TRIM_DUE) ∧
      s.sameRegsBut [R.LNK_TRIM p.val] t ∧ t.sent = s.sent ∧ t.mem = s.mem) ∧
  (∀ (s : State) (p : LinkId) (i j : Nat) (r : List Nat), s.up → s.lnkState p.val = 2 →
    s.on (R.LNK_TRIM p.val) F.LNK_TRIM_BUSY = false → lanesOfMask (s.rxMask p.val) = i :: j :: r →
    ∃ t, exec (.trimReq p) s = .next t ∧ t.rd (R.LNK_TRIM p.val) F.LNK_TRIM_BUSY = 1 ∧ (t.lk p.val).trimStep = 1 ∧
      (t.lk p.val).trimQueue = i :: j :: r ∧ t.sent = s.sent ++ [.control p.val 0x05 [maskOfLanes (j :: r), 1]] ∧
      s.sameRegsBut [R.LNK_TRIM p.val] t ∧ t.mem = s.mem) ∧
  (∀ (s : State) (p : LinkId), s.up → s.lnkState p.val = 2 → (s.lk p.val).trimStep = 2 → ∃ t, exec (.trimDone p) s = .next t ∧
    t.lk p.val = { s.lk p.val with trimStep := 3 } ∧ t.regs = s.regs ∧ t.sent = s.sent ∧ t.mem = s.mem) ∧
  (∀ (s : State) (p : LinkId) (b a i : Nat) (r : List Nat), s.up → (s.lk p.val).trimStep = 3 → (s.lk p.val).trimQueue = i :: r →
    ∃ t, exec (.trimWatchEnd p b a) s = .next t ∧ (t.lk p.val).trimStep = 4 ∧ (t.lk p.val).switching = true ∧
      t.sent = s.sent ++ (if 2 * b < a then [.lane p.val "TRIMREVERT" [i]] else []) ++
        [.control p.val 0x05 [maskOfLanes (i :: lanesOfMask (s.rxMask p.val)), 1]] ∧ s.sameRegsBut [R.EVR_LOST] t ∧ t.mem = s.mem) ∧
  (∀ (s : State) (p : LinkId) (i : LaneId) (n w e4 e8 e12 : Nat), s.up → bitAt (s.rxMask p.val) i.val = true →
    s.on (R.LNK_CTL p.val) F.LNK_CTL_TRIMAUTO = false → ∃ t, exec (.marginCheck p i n w e4 e8 e12) s = .next t ∧
      t.rd (R.LNK_LMARG p.val i.val) F.LNK_LMARG_CORR =
        min (s.rd (R.LNK_LMARG p.val i.val) F.LNK_LMARG_CORR + n) (2 ^ F.LNK_LMARG_CORR.width - 1) ∧
      t.rd (R.LNK_LMARG p.val i.val) F.LNK_LMARG_WORST = max (s.rd (R.LNK_LMARG p.val i.val) F.LNK_LMARG_WORST) (min w 15) ∧
      t.rd (R.LNK_LMARG p.val i.val) F.LNK_LMARG_PRED = (if n ≤ 65536 * s.rd R.TST_MTHR F.TST_MTHR_CTHR ∧
        e12 + ((s.lk p.val).lane i.val).uncs ≤ s.rd R.TST_MTHR F.TST_MTHR_TTHR
        then s.rd (R.LNK_LMARG p.val i.val) F.LNK_LMARG_PRED else 1) ∧
      s.sameRegsBut [R.LNK_FEC p.val, R.LNK_LMARG p.val i.val, R.LNK_LHIST p.val i.val, R.EVR_LOST] t ∧ t.sent = s.sent ∧
      t.mem = s.mem)

/-- DOZE_IDLE, DOZE_REQ, DOZE_ACK, DOZE_CANCEL, DOZE_REQ_TIMEOUT, SIGNAL_LOSS, WAKE_BURST, SIGNAL_DETECT, FAST_RELOCK_TIMEOUT, BEACON_TIMER,
LINK_BEACON, BEACON_TIMEOUT and WAKE_TIMEOUT (R261 to R264). Two sides whose conditions hold agree on doze and idle their transmitters; a
link in doze wakes by a burst, a missing beacon or its fourth slip; a wake that does not relock or is not answered ends in a full relock.
It rests on the model's choices in assumption 4. -/
def Obligations.DozeAndWake : Prop :=
  (∀ (s : State) (p : LinkId), s.up → s.dozeReady p.val = true → (s.lk p.val).doze = 0 →
    s.on (R.LNK_DOZE p.val) F.LNK_DOZE_IDLE = true → ∃ t, exec (.dozeIdle p) s = .next t ∧
      t.sent = s.sent ++ [.control p.val 0x06 []] ∧ t.lk p.val = { s.lk p.val with doze := 1 } ∧ t.regs = s.regs ∧ t.mem = s.mem) ∧
  (∀ (s : State) (p : LinkId) (c : Instr), s.up → (s.lk p.val).doze = 1 → c = .dozeReq p ∨ c = .dozeAck p →
    ∃ t, exec c s = .next t ∧ t.sent = s.sent ++ [.lane p.val "TXIDLE" [1]] ∧
      t.lk p.val = { s.lk p.val with resync := false, doze := 3 } ∧ t.regs = s.regs ∧ t.mem = s.mem) ∧
  (∀ (s : State) (p : LinkId), s.up → s.dozeReady p.val = true → (s.lk p.val).doze = 0 →
    (s.lk p.val).lastData + s.rd (R.LNK_DOZE p.val) F.LNK_DOZE_IDLE ≤ s.now → ∃ t, exec (.dozeReq p) s = .next t ∧
      t.sent = s.sent ++ [.control p.val 0x07 [], .control p.val 0x00 [], .control p.val 0x00 []] ∧
      t.lk p.val = { s.lk p.val with resync := false, doze := 2 } ∧ t.regs = s.regs ∧ t.mem = s.mem) ∧
  (∀ (s : State) (p : LinkId), s.up → s.dozeReady p.val = false → (s.lk p.val).doze = 0 → s.lnkState p.val = 2 →
    ∃ t, exec (.dozeReq p) s = .next t ∧ t.sent = s.sent ++ [.control p.val 0x08 []] ∧
      t.lk p.val = { s.lk p.val with resync := false } ∧ t.regs = s.regs ∧ t.mem = s.mem) ∧
  (∀ (s : State) (p : LinkId) (c : Instr), s.up → (s.lk p.val).buffer = [] → s.router.waiting = [] →
    (c = .dozeCancel p ∧ ((s.lk p.val).doze = 1 ∨ (s.lk p.val).doze = 2)) ∨ (c = .dozeReqTimeout p ∧ (s.lk p.val).doze = 1) →
    ∃ t, exec c s = .next t ∧ (t.lk p.val).doze = 0 ∧ t.regs = s.regs ∧ t.sent = s.sent ∧ t.mem = s.mem) ∧
  (∀ (s : State) (p : LinkId), s.up → (s.lk p.val).doze = 2 ∨ (s.lk p.val).doze = 3 → ∃ t, exec (.signalLoss p) s = .next t ∧
    t.lnkState p.val = 3 ∧ t.lk p.val = { s.lk p.val with doze := 4, anchor := none, slips := [], slipWarned := false } ∧
    t.rd (R.LNK_DOZE p.val) F.LNK_DOZE_DOZES = min (s.rd (R.LNK_DOZE p.val) F.LNK_DOZE_DOZES + 1) (2 ^ F.LNK_DOZE_DOZES.width - 1) ∧
    s.sameRegsBut [R.LNK_STATUS p.val, R.LNK_DOZE p.val] t ∧ t.mem = s.mem ∧
    t.sent = s.sent ++ (if (s.lk p.val).doze = 2 then [.lane p.val "TXIDLE" [1]] else [])) ∧
  (∀ (s : State) (p : LinkId) (c : Instr), s.up → (s.lk p.val).doze = 4 → c ∈ [.wakeBurst p, .signalDetect p, .beaconTimeout p] →
    ∃ t, exec c s = .next t ∧ (t.lk p.val).doze = 5 ∧ (t.lk p.val).wakeFirst = true ∧
      (t.lk p.val).wakeAnswered = decide (c = .signalDetect p) ∧
      (∀ i, i < 8 → bitAt (s.rxMask p.val) i = true → ((t.lk p.val).lane i).state = 2) ∧ t.lockedMask p.val = 0 ∧
      t.sent = s.sent ++ [.lane p.val "WAKE" [(s.lk p.val).cntTx]] ∧ s.sameRegsBut [R.LNK_WIDTH p.val] t ∧ t.mem = s.mem) ∧
  (∀ (s : State) (p : LinkId) (i : LaneId), s.up → (s.lk p.val).doze = 5 → bitAt (s.rxMask p.val) i.val = true →
    bitAt (s.lockedMask p.val) i.val = false → ∃ t, exec (.fastRelockTimeout p i) s = .next t ∧ t.lnkState p.val = 4 ∧
      (t.lk p.val).doze = 0 ∧ t.lockedMask p.val = 0 ∧
      t.rd (R.LNK_DOZE p.val) F.LNK_DOZE_WAKEFAIL =
        min (s.rd (R.LNK_DOZE p.val) F.LNK_DOZE_WAKEFAIL + 1) (2 ^ F.LNK_DOZE_WAKEFAIL.width - 1) ∧
      s.sameRegsBut [R.LNK_DOZE p.val, R.LNK_WIDTH p.val, R.LNK_TRIM p.val, R.LNK_STATUS p.val] t ∧ t.sent = s.sent ∧ t.mem = s.mem) ∧
  (∀ (s : State) (p : LinkId), s.up → (s.lk p.val).doze = 4 → ∃ t, exec (.beaconTimer p) s = .next t ∧
    t.sent = s.sent ++ [.lane p.val "BEACON" []] ∧ t.regs = s.regs ∧ t.links = s.links ∧ t.mem = s.mem) ∧
  (∀ (s : State) (p : LinkId) (n : Nat), s.up → (s.lk p.val).doze = 4 →
    (∀ a, (s.lk p.val).anchor = some a → 7750 ≤ n - a ∧ n - a ≤ 8250) → ∃ t, exec (.linkBeacon p n) s = .next t ∧
      t.lk p.val = { s.lk p.val with anchor := some n } ∧ t.regs = s.regs ∧ t.sent = s.sent ∧ t.mem = s.mem) ∧
  (∀ (s : State) (p : LinkId) (n a : Nat), s.up → (s.lk p.val).doze = 4 → (s.lk p.val).anchor = some a → n - a < 7750 →
    ((s.lk p.val).slips.filter fun x => n ≤ x + 1000000).length < 3 → ∃ t, exec (.linkBeacon p n) s = .next t ∧
      (t.lk p.val).doze = 4 ∧ (t.lk p.val).anchor = some n ∧
      t.rd (R.LNK_DOZE p.val) F.LNK_DOZE_SLIP = min (s.rd (R.LNK_DOZE p.val) F.LNK_DOZE_SLIP + 1) (2 ^ F.LNK_DOZE_SLIP.width - 1) ∧
      s.sameRegsBut [R.LNK_DOZE p.val, R.EVR_LOST] t ∧ t.sent = s.sent ∧ t.mem = s.mem) ∧
  (∀ (s : State) (p : LinkId) (n a : Nat), s.up → (s.lk p.val).doze = 4 → (s.lk p.val).anchor = some a → n - a < 7750 →
    3 ≤ ((s.lk p.val).slips.filter fun x => n ≤ x + 1000000).length → ∃ t, exec (.linkBeacon p n) s = .next t ∧
      (t.lk p.val).doze = 5 ∧ t.rd (R.LNK_STATUS p.val) F.LNK_STATUS_NODOZE = 1 ∧
      t.sent = s.sent ++ [.lane p.val "WAKE" [(s.lk p.val).cntTx]] ∧ t.mem = s.mem) ∧
  (∀ (s : State) (p : LinkId), s.up → (s.lk p.val).doze = 5 → (s.lk p.val).wakeAnswered = false → s.router.waiting = [] →
    s.activeGlades = [] → ∃ t, exec (.wakeTimeout p) s = .next t ∧ t.lnkState p.val = 4 ∧ (t.lk p.val).doze = 0 ∧
      t.rd (R.LNK_STATUS p.val) F.LNK_STATUS_SILENT = 1 ∧
      s.sameRegsBut [R.LNK_STATUS p.val, R.LNK_WIDTH p.val, R.LNK_TRIM p.val, R.EVR_LOST] t ∧ t.sent = s.sent ∧ t.mem = s.mem)

/-- ROUTE_FRAME and ESCWAIT (R252, R269, R276 to R279, R292, R332). A frame for this node that needs no seal is handed over; one whose tag
fails is refused and counted. Another is forwarded, with TTL less 1, by the free candidate with the most credits, or waits; without TTL or
a route it is dropped and counted. A frame that waits may take the escape pair, in dimension order. CREDIT_TIMER, HOST_FRAME,
HOST_CREDIT_RETURN, NOROUTE, HMSG, REASM_TIMEOUT and PNID_WRITE (R274, R275, R278, R285, R426). What is owed goes back in one CREDIT
block. A host frame is refused with ERR 5, or completed and routed, with its access kept. NOROUTE counts once in 32 µs for each PNID. The
PNID changes only while every link is down. It rests on the model's choices in assumptions 4, 31, 39, 40 and 41. -/
def Obligations.RoutingAndRouterEdges : Prop :=
  (∀ (s : State) (x : Fin 44) (f : Frame), s.up → f.dst = s.pnid → f.enc = false → f.msg.segLast = 0 → knownKind f.msg.kind = true →
    f.msg.kind ≠ 0x58 → weightKind f.msg.kind = false → s.takesGlade f.glade.val = true → s.knowsSource f.glade.val f.src = true →
    s.needsSeal f = false → ∃ t, exec (.routeFrame x f false) s = .next t ∧ .frame (s.servingPort f) f.vc f ∈ t.sent ∧
      t.regs = s.regs ∧ t.router.waiting = s.router.waiting ∧ t.mem = s.mem) ∧
  (∀ (s : State) (x : Fin 44) (f : Frame), s.up → x.val < 32 → f.dst = s.pnid → f.enc = true → f.sealOk = false →
    knownKind f.msg.kind = true → f.msg.kind ≠ 0x58 → f.msg.kind ≠ 8 → weightKind f.msg.kind = false →
    s.takesGlade f.glade.val = true → s.knowsSource f.glade.val f.src = true → ∃ t, exec (.routeFrame x f false) s = .next t ∧
      t.rd (R.LNK_FEC x.val) F.LNK_FEC_AUTH = min (s.rd (R.LNK_FEC x.val) F.LNK_FEC_AUTH + 1) (2 ^ F.LNK_FEC_AUTH.width - 1) ∧
      t.rd R.RTR_DROP F.RTR_DROP_TAG = min (s.rd R.RTR_DROP F.RTR_DROP_TAG + 1) (2 ^ 16 - 1) ∧
      (requestKind f.msg.kind = true → .toNode f.src "ERR" [f.glade.val, f.msg.txid, 4] [] ∈ t.sent) ∧
      s.sameRegsBut [R.LNK_FEC x.val, R.RTR_DROP, R.EVR_LOST] t ∧ t.mem = s.mem) ∧
  (∀ (s : State) (x : Fin 44) (f : Frame) (b : Bool), s.up → x.val < 32 → f.dst ≠ s.pnid → f.ttl = 0 →
    ∃ t, exec (.routeFrame x f b) s = .next t ∧ t.rd R.RTR_DROP F.RTR_DROP_TTL = min (s.rd R.RTR_DROP F.RTR_DROP_TTL + 1) (2 ^ 16 - 1) ∧
      t.router.waiting = s.router.waiting ∧ s.sameRegsBut [R.RTR_DROP, R.EVR_LOST] t ∧ t.mem = s.mem) ∧
  (∀ (s : State) (x : Fin 44) (f : Frame) (b : Bool) (p : Nat), s.up → x.val < 32 → f.dst ≠ s.pnid → 0 < f.ttl → f.msg.esc = false →
    s.namesNode f.dst = true → s.partnerGone f.dst = false → 0 < f.payload.length → f.payload.length ≤ 4096 →
    s.bestPort f.vc ((s.candidates f.dst).filter fun q => s.outputFree q f.vc f) = some p →
    ∃ t, exec (.routeFrame x f b) s = .next t ∧ .frame p f.vc { f with ttl := f.ttl - 1 } ∈ t.sent ∧
      (∃ u, u ∈ (t.lk p).buffer ∧ u.seq = (s.lk p).txSeq ∧ u.frame = { f with ttl := f.ttl - 1 } ∧ u.stomped = b) ∧
      (t.lk p).txSeq = ((s.lk p).txSeq + 1) % 2 ^ 16 ∧ t.regs = s.regs ∧ t.router.waiting = s.router.waiting ∧ t.mem = s.mem) ∧
  (∀ (s : State) (x : Fin 44) (f : Frame) (b : Bool), s.up → x.val < 32 → f.dst ≠ s.pnid → 0 < f.ttl → f.msg.esc = false →
    s.namesNode f.dst = true → s.partnerGone f.dst = false → s.candidates f.dst ≠ [] →
    (∀ q, q ∈ s.candidates f.dst → s.outputFree q f.vc f = false) → ∃ t, exec (.routeFrame x f b) s = .next t ∧
      t.router.waiting = s.router.waiting ++ [⟨x.val, f, b, none⟩] ∧ t.regs = s.regs ∧ t.sent = s.sent ∧ t.mem = s.mem) ∧
  (∀ (s : State) (x : Fin 44) (f : Frame) (b : Bool), s.up → f.dst ≠ s.pnid → f.src ≠ s.pnid → f.enc = false →
    (32 ≤ x.val ∨ 0 < f.ttl) → s.namesNode f.dst = false ∨ s.partnerGone f.dst = true → ∃ t, exec (.routeFrame x f b) s = .next t ∧
      t.rd R.RTR_DROP F.RTR_DROP_NOROUTE = min (s.rd R.RTR_DROP F.RTR_DROP_NOROUTE + 1) (2 ^ 16 - 1) ∧
      .toNode f.src "NOROUTE" [f.dst] [] ∈ t.sent ∧ s.sameRegsBut [R.RTR_DROP] t ∧ t.mem = s.mem) ∧
  (∀ (s : State) (w : WaitingFrame) (f : Frame) (d p : Nat) (y : Nat × Bool) (r : List Nat), s.up → s.router.waiting = [w] → w.frame = f →
    w.host = none → w.inPort < 32 → f.dst ≠ s.pnid → 0 < f.ttl → f.msg.esc = false → s.namesNode f.dst = true →
    s.partnerGone f.dst = false → (List.range 4).find? (s.differs f.dst) = some d → w.inPort / 8 ≠ d →
    (s.productiveIn f.dst d).head? = some y → s.upPorts y = p :: r → s.crosses y = false → s.outputFree p 0 f = true →
    0 < f.payload.length → f.payload.length ≤ 4096 → ∃ t, exec (.escwait f) s = .next t ∧ t.router.waiting = [] ∧
      .frame p 0 { f.route f.msg.dtr true false false with vc := 0, ttl := f.ttl - 1 } ∈ t.sent ∧ t.regs = s.regs ∧ t.mem = s.mem) ∧
  (∀ (s : State) (p : LinkId), s.up → (s.lk p.val).owes = true → ∃ t, exec (.creditTimer p) s = .next t ∧
    t.sent = s.sent ++ [.control p.val 0x04 ((List.range 8).map (vcCount (s.lk p.val).oweReserved) ++ [(s.lk p.val).oweShared])] ∧
    t.lk p.val = { s.lk p.val with oweReserved := [], oweShared := 0 } ∧ t.regs = s.regs ∧ t.mem = s.mem) ∧
  (∀ (s : State) (h : HostId) (f : Frame), s.up → s.hostRefused f = true → ∃ t, exec (.hostFrame h f) s = .next t ∧
    t.sent = s.sent ++ [.host h.val "ERR" [f.msg.txid, 5] []] ∧
    t.rd R.RTR_XSTAT F.RTR_XSTAT_BAD = min (s.rd R.RTR_XSTAT F.RTR_XSTAT_BAD + 1) (2 ^ 16 - 1) ∧
    s.sameRegsBut [R.RTR_XSTAT] t ∧ t.router = s.router ∧ t.mem = s.mem) ∧
  (∀ (s : State) (h : HostId) (f : Frame), s.up → s.hostRefused f = false →
    s.rd (R.RTR_MAPCFG f.glade.val) F.RTR_MAPCFG_COUNT ≤ f.msg.dlmn ∨ (s.memberEntry f.glade.val f.msg.dlmn).valid = false ∨
      (f.msg.kind ≠ 9 ∧ f.msg.offset % 128 ≠ 0) → ∃ t, exec (.hostFrame h f) s = .next t ∧
      t.sent = s.sent ++ [.host h.val "ERR" [f.msg.txid, 5] []] ∧ t.regs = s.regs ∧ t.router = s.router ∧ t.mem = s.mem) ∧
  (∀ (s : State) (h : HostId) (f k : Frame) (p n : Nat), s.up → s.hostRefused f = false → f.enc = false → s.needsSeal f = false → f.msg.kind ≠ 9 →
    f.msg.dlmn < s.rd (R.RTR_MAPCFG f.glade.val) F.RTR_MAPCFG_COUNT → s.memberEntry f.glade.val f.msg.dlmn = ⟨n, true⟩ →
    f.msg.offset % 128 = 0 → n ≠ s.pnid → s.namesNode n = true → s.partnerGone n = false → 0 < f.payload.length →
    f.payload.length ≤ 4096 → k = { f.route 0 false false false with vc := 6, src := s.pnid, dst := n, ttl := 254 } →
    s.bestPort 6 ((s.candidates n).filter fun q => s.outputFree q 6 f) = some p → ∃ t, exec (.hostFrame h f) s = .next t ∧
      .frame p 6 k ∈ t.sent ∧ t.router.accesses = s.router.accesses ++
        [⟨f.msg.kind, f.glade.val, f.msg.dlmn, f.msg.offset, f.msg.txid, some h.val, f.msg.cache, false, false⟩] ∧
      t.regs = s.regs ∧ t.mem = s.mem) ∧
  (∀ (s : State) (h : HostId) (a b : Nat), s.up → s.router.waiting = [] → ∃ t, exec (.hostCreditReturn h a b) s = .next t ∧
    vcCount t.router.hostUsed (8 * h.val + 2) = vcCount s.router.hostUsed (8 * h.val + 2) - a ∧
    vcCount t.router.hostUsed (8 * h.val + 6) = vcCount s.router.hostUsed (8 * h.val + 6) - b ∧
    (∀ k, k ≠ 8 * h.val + 2 → k ≠ 8 * h.val + 6 → vcCount t.router.hostUsed k = vcCount s.router.hostUsed k) ∧ t.regs = s.regs ∧
    t.sent = s.sent ∧ t.mem = s.mem) ∧
  (∀ (s : State) (n : BitVec 16) (x : Nat), (n.toNat, x) ∈ s.router.noRouteAt → s.now < x + 32 → exec (.noroute n) s = .next s) ∧
  (∀ (s : State) (n : BitVec 16) (g i : Nat), s.up → (∀ x, x ∈ s.router.noRouteAt → x.1 ≠ n.toNat) → s.activeGlades = [g] →
    (∀ j, j < s.members g → (s.memberEntry g j = ⟨n.toNat, true⟩ ↔ j = i)) → i < s.members g → i ≠ s.lmn g →
    i / s.groveN g ≠ s.lmn g / s.groveN g → ∃ t, exec (.noroute n) s = .next t ∧ (n.toNat, s.now) ∈ t.router.noRouteAt ∧
      (∀ j, j < s.groveN g → i / s.groveN g * s.groveN g + j ≠ i →
        .toMember g (i / s.groveN g * s.groveN g + j) "SUSPICION" [g, i, 3] [] ∈ t.sent) ∧ t.regs = s.regs ∧ t.mem = s.mem) ∧
  (∀ (s : State) (f : Frame) (k : Nat), s.up → k = f.msg.offset % 8 →
    vcCount s.router.hostUsed (8 * k + f.vc) + f.blocks ≤ 512 → ∃ t, exec (.hmsg f) s = .next t ∧
      t.sent = s.sent ++ [.frame (32 + k) f.vc f] ∧
      vcCount t.router.hostUsed (8 * k + f.vc) = vcCount s.router.hostUsed (8 * k + f.vc) + f.blocks ∧ t.regs = s.regs ∧ t.mem = s.mem) ∧
  (∀ (s : State) (a b : Nat) (r : Reasm), s.up → s.router.waiting = [] → r ∈ s.router.reasm → r.src = a → r.txid = b →
    ∃ t, exec (.reasmTimeout a b) s = .next t ∧ t.router.reasm = (s.router.reasm.filter fun x => !(x.src == a && x.txid == b)) ∧
      t.rd R.RTR_XSTAT F.RTR_XSTAT_REASM = min (s.rd R.RTR_XSTAT F.RTR_XSTAT_REASM + 1) (2 ^ 16 - 1) ∧
      s.sameRegsBut [R.RTR_XSTAT] t ∧ t.sent = s.sent ∧ t.mem = s.mem) ∧
  (∀ (s : State) (v : Word), s.up → s.anyLinkUp = false → (∀ p, p < 32 → (s.lk p).waitSet = false) →
    ∃ t, exec (.pnidWrite v) s = .next t ∧ t.pnid = fget v F.RTR_SELF_PNID ∧ t.rd R.RTR_SELF F.RTR_SELF_SET = 1 ∧
      s.sameRegsBut [R.RTR_SELF] t ∧ t.sent = s.sent ∧ t.mem = s.mem) ∧
  (∀ (s : State) (v : Word), s.up → s.anyLinkUp = true → ∃ t, exec (.pnidWrite v) s = .next t ∧ t.pnid = s.pnid ∧
    s.sameRegsBut [R.EVR_LOST] t ∧ t.sent = s.sent ∧ t.mem = s.mem)

/-- LRD, LRSP, ERR, LWR, LWACK, INV, INVACK and INV_TIMEOUT (R284, R288 to R291, R336, R426). A home that is fenced answers ERR 2, a line of
another glade is refused with ERR 4 and counted. A read of a line that is lost, to be repaired or of a hosted shard is a clearing read;
with ROW, a hosted shard answers its status. Otherwise a read answers the line and a write stores the 128 bytes and nothing else, unless
the line is watched or hosted. An answer ends its access, from the node that holds the LMN only; the last INVACK lets the home go on. It
rests on the model's choices in assumptions 4 and 41. -/
def Obligations.RemoteAccess : Prop :=
  (∀ (s : State) (f : Frame) (c : Instr) (n : Nat), s.up → s.homeRefusal f = some n → c = .lrd f ∨ c = .lwr f →
    ∃ t, exec c s = .next t ∧ t.sent = s.sent ++ [.toNode f.src "ERR" [f.glade.val, f.msg.offset, f.msg.txid, n] []] ∧
      (n = 4 → t.rd R.SEC_ERR F.SEC_ERR_ISO = min (s.rd R.SEC_ERR F.SEC_ERR_ISO + 1) (2 ^ 16 - 1)) ∧
      (n ≠ 4 → t.regs = s.regs) ∧ s.sameRegsBut [R.SEC_ERR] t ∧ t.mem = s.mem) ∧
  (∀ (s : State) (f : Frame), s.up → s.homeRefusal f = none → f.msg.dlmn = s.lmn f.glade.val → (s.gl f.glade.val).standIn = none →
    s.lineAway f.glade.val f.msg.offset = false → f.msg.row = false → s.lineServed f.msg.offset = true → ∃ t, exec (.lrd f) s = .next t ∧
      t.sent = s.sent ++ [.toNode f.src "LRSP" [f.glade.val, f.msg.offset, f.msg.txid] (s.readBytes f.msg.offset 128)] ∧
      t.regs = s.regs ∧ t.mem = s.mem) ∧
  (∀ (s : State) (f : Frame), s.up → s.homeRefusal f = none → f.msg.dlmn ≠ s.lmn f.glade.val →
    (s.gl f.glade.val).hosting.contains f.msg.dlmn = true → f.msg.row = true → ∃ t d, exec (.lrd f) s = .next t ∧ d.length = 128 ∧
      t.sent = s.sent ++ [.toNode f.src "LRSP" [f.glade.val, f.msg.offset, f.msg.txid, (s.hostedStatus f.glade.val).toNat] d] ∧
      t.regs = s.regs ∧ t.mem = s.mem) ∧
  (∀ (s : State) (f : Frame), s.up → s.homeRefusal f = none → f.msg.row = false →
    (f.msg.dlmn ≠ s.lmn f.glade.val ∧ (s.gl f.glade.val).hosting.contains f.msg.dlmn = true) ∨
      (f.msg.dlmn = s.lmn f.glade.val ∧ (s.regionAt f.glade.val f.msg.offset).isSome = true ∧
        ((s.gl f.glade.val).standIn.isSome = true ∨ s.lineAway f.glade.val f.msg.offset = true)) →
    exec (.lrd f) s = exec (.clearingRead f.glade f.msg.dlmn f.msg.offset f.msg.txid []) s) ∧
  (∀ (s : State) (f : Frame), s.up → s.homeRefusal f = none → s.watchedLine f.msg.offset = true ∨
    (f.msg.dlmn ≠ s.lmn f.glade.val ∧ (s.gl f.glade.val).hosting.contains f.msg.dlmn = true) → ∃ t, exec (.lwr f) s = .next t ∧
    t.sent = s.sent ++ [.toNode f.src "ERR" [f.glade.val, f.msg.offset, f.msg.txid, 5] []] ∧ t.regs = s.regs ∧ t.mem = s.mem) ∧
  (∀ (s : State) (f : Frame), s.up → s.homeRefusal f = none → s.watchedLine f.msg.offset = false → s.lineServed f.msg.offset = true →
    (s.gl f.glade.val).hosting.contains f.msg.dlmn = false → ∃ t, exec (.lwr f) s = .next t ∧ s.stores f.msg.offset (slice f.payload 0 128) t ∧ t.regs = s.regs ∧
      (f.msg.inv = false ∨ s.spanOf f.glade.val = [] →
        t.sent = s.sent ++ [.toNode f.src "LWACK" [f.glade.val, f.msg.offset, f.msg.txid] []] ∧ t.router = s.router) ∧
      (f.msg.inv = true → s.spanOf f.glade.val ≠ [] →
        t.router.invs = s.router.invs ++ [⟨f.glade.val, f.msg.txid, f.src, s.spanOf f.glade.val, true⟩] ∧
        t.sent = s.sent ++ (s.spanOf f.glade.val).map fun i =>
          .toMember f.glade.val i "INV" [f.glade.val, f.msg.offset, 1, f.msg.txid, s.lmn f.glade.val] [])) ∧
  (∀ (s : State) (f : Frame) (a : Access) (h : Nat) (c : Instr), s.up → s.accessOf f = some a → s.fromHolder a f = true →
    a.host = some h → vcCount s.router.hostUsed (8 * h + f.vc) + f.blocks ≤ 512 → c = .lrsp f ∨ c = .lwack f ∨ c = .err f →
    ∃ t, exec c s = .next t ∧ t.router.accesses = s.router.accesses.erase a ∧
      t.sent = s.sent ++ [.frame (32 + h) f.vc { f with msg := { f.msg with nocache := f.msg.nocache || a.marked } }] ∧
      t.regs = s.regs ∧ t.mem = s.mem) ∧
  (∀ (s : State) (f : Frame) (a : Access) (c : Instr), s.up → s.accessOf f = some a → s.fromHolder a f = false →
    c = .lrsp f ∨ c = .lwack f ∨ c = .err f → ∃ t, exec c s = .next t ∧ t.router = s.router ∧
      t.rd R.RTR_DROP F.RTR_DROP_MAPSTALE = min (s.rd R.RTR_DROP F.RTR_DROP_MAPSTALE + 1) (2 ^ 16 - 1) ∧
      s.sameRegsBut [R.RTR_DROP] t ∧ t.sent = s.sent ∧ t.mem = s.mem) ∧
  (∀ (s : State) (f : Frame) (a : Access), s.up → s.accessOf f = some a → s.fromHolder a f = true → a.host = none →
    leAt f.payload 0 1 = 1 ∨ leAt f.payload 0 1 = 2 → ∃ t, exec (.err f) s = .next t ∧ { a with waiting := true } ∈ t.router.accesses ∧
      t.regs = s.regs ∧ t.sent = s.sent ∧ t.mem = s.mem) ∧
  (∀ (s : State) (f : Frame), s.up → s.router.hostUsed = [] → f.blocks ≤ 512 → ∃ t, exec (.inv f) s = .next t ∧
    t.sent = s.sent ++ (List.range 8).map (fun h => .frame (32 + h) 2 { f with vc := 2 }) ++
      [.toNode f.src "INVACK" [f.glade.val, f.msg.offset, f.msg.txid] []] ∧
    (∀ a, a ∈ s.router.accesses → a.cache = true → a.kind = 1 → a.glade = f.glade.val → a.lmn = f.msg.dlmn →
      f.msg.offset ≤ a.offset → a.offset < f.msg.offset + 128 * f.invLines → { a with marked := true } ∈ t.router.accesses) ∧
    t.regs = s.regs ∧ t.mem = s.mem) ∧
  (∀ (s : State) (f : Frame) (w : InvWait) (i : Nat), s.up → s.lmnOfPnid f.glade.val f.src = some i → s.router.invs = [w] →
    w.glade = f.glade.val → w.txid = f.msg.txid → w.targets = [i] → w.answer = true → ∃ t, exec (.invack f) s = .next t ∧
      t.router.invs = [] ∧ t.sent = s.sent ++ [.toNode w.requester "LWACK" [f.glade.val, f.msg.txid] []] ∧ t.regs = s.regs ∧
      t.mem = s.mem) ∧
  (∀ (s : State) (g : GladeId) (i j x : Nat) (w : InvWait), s.up → s.router.invs = [w] → w.glade = g.val → w.txid = x →
    w.targets = [i, j] → i ≠ j → ∃ t, exec (.invTimeout g i x) s = .next t ∧ t.router.invs = [{ w with targets := [j] }] ∧
      t.rd R.RTR_XSTAT F.RTR_XSTAT_INVTMO = min (s.rd R.RTR_XSTAT F.RTR_XSTAT_INVTMO + 1) (2 ^ 16 - 1) ∧
      s.sameRegsBut [R.RTR_XSTAT, R.EVR_LOST] t ∧ t.sent = s.sent ∧ t.mem = s.mem)

/-- ENTER_MANUFACTURING, ENTER_PROVISIONED, ENTER_DEPLOYED, ENTER_SCRAPPED, GROUP_BURN and BURN_DONE (R320, R323, R324). Another CONFIRM does
nothing, and a transition that R323 does not allow is recorded. A burn starts with BUSY and burns nothing until it is done; then exactly
its bits are set, and a life-cycle target shows as pending. A group burn is refused with RESULT 1, 2 or 3. It rests on the model's choices
in assumption 42. -/
def Obligations.LifeCycleAndBurns : Prop :=
  (∀ (s : State) (n : Nat) (k : BitVec 32) (c : Instr), s.aoUp →
    (c, n) ∈ [(.enterManufacturing k, 1), (.enterProvisioned k, 2), (.enterDeployed k, 3), (.enterScrapped k, 5)] →
    (k.toNat ≠ 0x0C5A0000 + n → exec c s = .next s) ∧
    (k.toNat = 0x0C5A0000 + n → s.lcsAllowed n = false → ∃ t, exec c s = .next t ∧ s.sameRegsBut [R.EVR_LOST] t ∧
      t.sec = s.sec ∧ t.fuses = s.fuses ∧ t.mem = s.mem) ∧
    (k.toNat = 0x0C5A0000 + n → s.lcsAllowed n = true → ∃ t b, exec c s = .next t ∧ t.sec.burn = some b ∧ b.target = some n ∧
      b.isGroup = false ∧ (∀ x, x ∈ s.lcsBits n → x ∈ b.bits) ∧ (n ≠ 2 → b.bits = s.lcsBits n) ∧
      t.rd R.FUS_LCS F.FUS_LCS_BUSY = 1 ∧ s.sameRegsBut [R.FUS_LCS] t ∧ t.fuses = s.fuses ∧ t.mem = s.mem)) ∧
  (∀ (s : State) (g : Fin 4) (a : BitVec 44) (r o : Nat), s.up → s.aoUp → s.on R.FUS_LCS F.FUS_LCS_BUSY = false →
    o = a.toNat / 64 * 64 → r = (if ¬((s.lcs = 0 ∧ g = 3) ∨ (s.lcs = 1 ∧ 1 ≤ g.val)) then 1 else if s.groupBurnt g.val then 2 else 0) →
    s.served o (8 * (groupWords g.val).2) = true → ∃ t, exec (.groupBurn g a) s = .next t ∧ t.fuses = s.fuses ∧ t.mem = s.mem ∧
      (r ≠ 0 → t.rd R.FUS_PCMD F.FUS_PCMD_RESULT = r ∧ t.sec = s.sec ∧ s.sameRegsBut [R.FUS_PCMD] t) ∧
      (r = 0 → t.sec.burn = some ⟨s.groupBits g.val (s.readBytes o (8 * (groupWords g.val).2)), none, true⟩ ∧
        t.rd R.FUS_LCS F.FUS_LCS_BUSY = 1 ∧ s.sameRegsBut [R.FUS_PCMD, R.FUS_LCS] t)) ∧
  (∀ (s : State) (b : Burn), s.aoUp → s.sec.burn = some b → ∃ t, exec .burnDone s = .next t ∧ t.sec.burn = none ∧
    (∀ w i, i < 64 → (t.fuse w).getLsbD i = ((s.fuse w).getLsbD i || b.bits.contains (w, i))) ∧
    t.rd R.FUS_LCS F.FUS_LCS_BUSY = 0 ∧ (b.isGroup = true → t.rd R.FUS_PCMD F.FUS_PCMD_RESULT = 0) ∧
    (∀ n, b.target = some n → n < 8 → t.rd R.FUS_LCS F.FUS_LCS_PEND = 1 ∧ t.rd R.FUS_LCS F.FUS_LCS_TARGET = n) ∧
    (b.target = none → t.rd R.FUS_LCS F.FUS_LCS_PEND = s.rd R.FUS_LCS F.FUS_LCS_PEND) ∧
    s.sameRegsBut [R.FUS_LCS, R.FUS_PCMD] t ∧ t.mem = s.mem)

/-- KEY_LOAD and the tokens DEBUG_UNLOCK, ENTER_RETURNED, REVOKE_IMAGE_KEY and BURN_IKH1 (R329 to R331, R339, R340). A blob that passes every
check becomes the slot's current generation, or NEXT where the slot is in use; one that fails sets RESULT, is counted and changes no key.
A token that passes does its action: it clears every key and fences every member, or starts its burn; any other changes no fuse or key. It
rests on the model's choices in assumptions 42 and 43. -/
def Obligations.KeysAndTokens : Prop :=
  (∀ (s : State) (a : BitVec 44) (o q r : Nat) (b : List Byte), s.up → o = a.toNat / 64 * 64 → s.served o 192 = true →
    b = s.readBytes o 192 → r = s.blobResult b true → q = leAt b 1 1 % 32 → ∃ t, exec (.keyLoad a) s = .next t ∧
      t.rd R.SEC_KLOAD F.SEC_KLOAD_RESULT = r ∧ (∀ x, x ≠ q → t.ks x = s.ks x) ∧ t.sent = s.sent ∧ t.mem = s.mem ∧
      (r = 0 → s.sameRegsBut [R.SEC_KLOAD] t ∧ ∃ n : KeyGen, n.kgen = leAt b 4 4 ∧
        (s.slotBusy q = false → (t.ks q).cur = some n ∧ (t.ks q).prev = (s.ks q).cur ∧ (t.ks q).next = none) ∧
        (s.slotBusy q = true → (t.ks q).cur = (s.ks q).cur ∧ (t.ks q).prev = none ∧ (t.ks q).next = some n)) ∧
      (r ≠ 0 → t.keys = s.keys ∧
        t.rd R.SEC_ERR F.SEC_ERR_KREF = min (s.rd R.SEC_ERR F.SEC_ERR_KREF + 1) (2 ^ 16 - 1) ∧
        s.sameRegsBut [R.SEC_KLOAD, R.SEC_ERR, R.EVR_LOST] t)) ∧
  (∀ (s : State) (a : BitVec 44) (c : Instr) (o r : Nat) (b : List Byte), s.up →
    c ∈ [.debugUnlock a, .enterReturned a, .revokeImageKey a, .burnIkh1 a] → o = a.toNat / 64 * 64 → s.served o 264 = true →
    b = s.readBytes o 264 → r = s.tokenResult b true → ∃ t, exec c s = .next t ∧ t.rd R.SEC_TOKEN F.SEC_TOKEN_RESULT = r ∧
      t.sec.chalCount = (s.sec.chalCount + 1) % 2 ^ 40 ∧ t.fuses = s.fuses ∧ t.mem = s.mem ∧
      (r ≠ 0 → t.keys = s.keys ∧ t.sec.burn = s.sec.burn ∧ s.sameRegsBut [R.SEC_TOKEN, R.EVR_LOST] t) ∧
      (r = 0 → leAt b 1 1 = 1 → t.keys = [] ∧ t.rd R.SEC_STATUS F.SEC_STATUS_UNLOCK = 1 ∧
        ∀ g, g < 16 → s.inGrove g = true → t.fenced g = true) ∧
      (r = 0 → leAt b 1 1 ≠ 1 → t.keys = s.keys ∧ t.rd R.FUS_LCS F.FUS_LCS_BUSY = 1 ∧
        s.sameRegsBut [R.SEC_TOKEN, R.FUS_LCS] t) ∧
      (r = 0 → leAt b 1 1 = 2 → t.sec.burn = some ⟨s.lcsBits 4, some 4, false⟩) ∧
      (r = 0 → leAt b 1 1 = 3 → t.sec.burn = some ⟨s.newBits 13 1, none, false⟩) ∧
      (r = 0 → leAt b 1 1 = 4 → t.sec.burn = some ⟨s.groupBits 2 (slice b 24 48), none, false⟩))

/-- PING, READ, WRITE and EVREAD (R374 to R377, R384, R395). A bus that is DISABLED or SILENT receives nothing; a repeated command is answered
with the kept response and not executed; a short one is BADLEN, a malformed one BADARG. PING answers GLB_ID, GLB_BOOT and the device
identity; READ a register's value; WRITE has the effect of a register write, unless the register is closed to the bus; EVREAD answers the
record that a cursor would show and moves no cursor. It rests on the model's choices in assumptions 4 and 55. -/
def Obligations.BusCommands : Prop :=
  (∀ (s : State) (w : BusId) (p : Fin 8) (q : Byte) (l : List Byte) (c : Instr),
    c ∈ [.busPing w p q l, .busRead w p q l, .busWrite w p q l, .busEvread w p q l, .busReset w p q l, .busIsolate w p q l,
      .busRelease w p q l, .busSuspect w p q l] → 5 ≤ s.busState w → exec c s = .next s) ∧
  (∀ (s : State) (w : BusId) (p : Fin 8) (q : Byte) (l : List Byte) (c : Instr) (n : Nat) (k : Kept), s.aoUp →
    (c, n) ∈ [(.busPing w p q l, 1), (.busRead w p q l, 2), (.busWrite w p q l, 3), (.busEvread w p q l, 4), (.busReset w p q l, 5),
      (.busIsolate w p q l, 6), (.busRelease w p q l, 7), (.busSuspect w p q l, 8)] → s.busUsable w = true →
    s.repeated n q l = some k → ∃ t, exec c s = .next t ∧
      t.sent = s.sent ++ [.trail w (s.trailId p.val n q.toNat w) (padTrail k.response)] ∧
      t.rd R.MGB_CNT F.MGB_CNT_DUPS = min (s.rd R.MGB_CNT F.MGB_CNT_DUPS + 1) (2 ^ F.MGB_CNT_DUPS.width - 1) ∧
      s.sameRegsBut [R.MGB_CNT] t ∧ t.bus = s.bus ∧ t.mem = s.mem) ∧
  (∀ (s : State) (w : BusId) (p : Fin 8) (q : Byte) (l : List Byte) (c : Instr) (n : Nat), s.aoUp →
    (c, n) ∈ [(.busRead w p q l, 2), (.busEvread w p q l, 4), (.busReset w p q l, 5), (.busIsolate w p q l, 6),
      (.busRelease w p q l, 7), (.busSuspect w p q l, 8)] → s.busUsable w = true → s.repeated n q l = none → l.length < 8 →
    ∃ t, exec c s = .next t ∧ t.sent = s.sent ++ [.trail w (s.trailId p.val n q.toNat w) [3, 0, 0, 0, 0, 0, 0, 0]] ∧
      t.rd R.MGB_CNT F.MGB_CNT_BADCMD = min (s.rd R.MGB_CNT F.MGB_CNT_BADCMD + 1) (2 ^ F.MGB_CNT_BADCMD.width - 1) ∧
      s.sameRegsBut [R.MGB_CNT] t ∧ t.mem = s.mem) ∧
  (∀ (s : State) (w : BusId) (p : Fin 8) (q : Byte) (l : List Byte), s.aoUp → s.busUsable w = true → s.repeated 1 q l = none →
    ∃ t, exec (.busPing w p q l) s = .next t ∧ t.sent = s.sent ++ [.trail w (s.trailId p.val 1 q.toNat w)
      (zeros 8 ++ leBytes 8 (s.peekVal R.GLB_ID).toNat ++ leBytes 8 (s.peekVal R.GLB_BOOT).toNat ++
        leBytes 8 (if s.mainUp && s.on R.SEC_STATUS F.SEC_STATUS_ROOT then s.peekVal R.SEC_DEVID else 0).toNat)] ∧
      s.sameRegsBut [R.MGB_CNT] t ∧ t.mem = s.mem) ∧
  (∀ (s : State) (w : BusId) (p : Fin 8) (q : Byte) (l : List Byte) (v : Word), s.aoUp → s.busUsable w = true →
    s.repeated 2 q l = none → 8 ≤ l.length → leAt l 0 4 ∈ [R.GLB_ID, R.GLB_BOOT, R.MGB_STATUS] → leAt l 4 1 = 1 →
    slice l 5 3 = zeros 3 → s.peek (leAt l 0 4) = some v → ∃ t, exec (.busRead w p q l) s = .next t ∧
      t.sent = s.sent ++ [.trail w (s.trailId p.val 2 q.toNat w) (zeros 8 ++ leBytes 8 v.toNat)] ∧ s.sameRegsBut [R.MGB_CNT] t ∧
      t.mem = s.mem) ∧
  (∀ (s : State) (w : BusId) (p : Fin 8) (q : Byte) (l : List Byte) (a : Nat) (v : Word), s.aoUp → s.busUsable w = true →
    s.repeated 3 q l = none → 16 ≤ l.length → a = leAt l 0 4 → v = BitVec.ofNat 64 (leAt l 8 8) → a % 8 = 0 → a < 0x1000000 →
    slice l 4 4 = zeros 4 → ∃ t, exec (.busWrite w p q l) s = .next t ∧
      (busClosed a v = true → t.sent = s.sent ++ [.trail w (s.trailId p.val 3 q.toNat w) [5, 0, 0, 0, 0, 0, 0, 0]] ∧
        s.sameRegsBut [R.MGB_CNT] t ∧ t.mem = s.mem) ∧
      (busClosed a v = false → (s.writeReg a v).2.sameRegsBut [R.MGB_CNT] t ∧ t.mem = (s.writeReg a v).2.mem)) ∧
  (∀ (s : State) (w : BusId) (p : Fin 8) (q : Byte) (l : List Byte) (r : Record), s.aoUp → s.busUsable w = true →
    s.repeated 4 q l = none → 8 ≤ l.length → slice l 4 4 = zeros 4 → s.shownAt (leAt l 0 4) = some r →
    ∃ t, exec (.busEvread w p q l) s = .next t ∧ t.sent = s.sent ++ [.trail w (s.trailId p.val 4 q.toNat w)
      (zeros 4 ++ leBytes 4 (s.seqAfter r.seq) ++ r.bytes ++ zeros 8)] ∧ t.evr = s.evr ∧ s.sameRegsBut [R.MGB_CNT] t ∧ t.mem = s.mem)

/-- RESET, ISOLATE, RELEASE and SUSPECT (R378, R379). RESET puts MAIN in reset as SWRST does; ISOLATE keeps it there with FIREBREAK_OUT until
RELEASE, after which it starts when nothing else holds it; each is refused without its CONFIRM value and changes nothing then. SUSPECT is
a detection of source 7, refused before Operational and while Ranger is halted. Member memory keeps its contents. DUPADDR, NOTICE_SEND,
NOTICE_TOKEN_REFILL, BUS_BEACON, BUS_STATE_CHANGE, LONE, BENCHED_END and RESPONSE_HOLD_TIMEOUT (R371, R380 to R385). A node that hears its
own address falls silent on that bus. A notice takes a token, the highest severity first. The fourth bus-off of a second benches the
controller, for 10 s. It rests on the model's choices in assumptions 4 and 53. -/
def Obligations.BusControlAndEvents : Prop :=
  (∀ (s : State) (w : BusId) (p : Fin 8) (q : Byte) (l : List Byte), s.aoUp → s.busState w < 5 → s.repeated 5 q l = none →
    8 ≤ l.length → slice l 4 4 = zeros 4 → leAt l 0 4 = 0x0C5A0100 → s.on R.MGB_STATUS F.MGB_STATUS_ISOLATED = false →
    s.on R.GLB_STORM F.GLB_STORM_HOLD = false → s.ao.rstN = false → ∃ t, exec (.busReset w p q l) s = .next t ∧ ¬t.up ∧
      t.rd R.GLB_RSTCAUSE F.GLB_RSTCAUSE_CMD = 1 ∧ (∀ a, isAoAddr a = false → (∀ i, i < 8 → a ≠ R.MPT_STAT i) → t.reg a = resetWord a) ∧ t.mem = s.mem) ∧
  (∀ (s : State) (w : BusId) (p : Fin 8) (q : Byte) (l : List Byte), s.aoUp → s.busState w < 5 → s.repeated 6 q l = none →
    8 ≤ l.length → slice l 4 4 = zeros 4 → leAt l 0 4 = 0x0C5A0200 → s.on R.MGB_STATUS F.MGB_STATUS_ISOLATED = false →
    ∃ t, exec (.busIsolate w p q l) s = .next t ∧ ¬t.up ∧ t.rd R.MGB_STATUS F.MGB_STATUS_ISOLATED = 1 ∧ t.ao.firebreak = true ∧
      t.mem = s.mem) ∧
  (∀ (s : State) (w : BusId) (p : Fin 8) (q : Byte) (l : List Byte), s.aoUp → s.busState w < 5 → s.repeated 7 q l = none →
    8 ≤ l.length → slice l 4 4 = zeros 4 → leAt l 0 4 = 0x0C5A0300 → s.on R.MGB_STATUS F.MGB_STATUS_ISOLATED = true →
    (s.wr R.MGB_STATUS F.MGB_STATUS_ISOLATED 0).canStart = true → s.startCount < 9 → ∃ t, exec (.busRelease w p q l) s = .next t ∧ t.up ∧
      t.rd R.MGB_STATUS F.MGB_STATUS_ISOLATED = 0 ∧ t.mem = s.mem) ∧
  (∀ (s : State) (w : BusId) (p : Fin 8) (q : Byte) (l : List Byte) (c : Instr) (n k : Nat), s.aoUp → s.busUsable w = true →
    (c, n, k) ∈ [(.busReset w p q l, 5, 0x0C5A0100), (.busIsolate w p q l, 6, 0x0C5A0200), (.busRelease w p q l, 7, 0x0C5A0300)] →
    s.repeated n q l = none → 8 ≤ l.length → slice l 4 4 = zeros 4 → leAt l 0 4 ≠ k → ∃ t, exec c s = .next t ∧
      t.sent = s.sent ++ [.trail w (s.trailId p.val n q.toNat w) [5, 0, 0, 0, 0, 0, 0, 0]] ∧ t.ao = s.ao ∧
      s.sameRegsBut [R.MGB_CNT] t ∧ t.mem = s.mem) ∧
  (∀ (s : State) (w : BusId) (p : Fin 8) (q : Byte) (l : List Byte) (n : Byte), s.aoUp → s.busUsable w = true →
    s.repeated 8 q l = none → 8 ≤ l.length → leAt l 0 1 < 16 → slice l 1 1 = [0] → slice l 4 4 = zeros 4 →
    (n = 8 ∧ s.rd R.GLB_BOOT F.GLB_BOOT_STAGE ≠ 5) ∨ (n = 7 ∧ s.rd R.GLB_BOOT F.GLB_BOOT_STAGE = 5 ∧ s.rangerHalted = true) →
    ∃ t, exec (.busSuspect w p q l) s = .next t ∧
      t.sent = s.sent ++ [.trail w (s.trailId p.val 8 q.toNat w) [n, 0, 0, 0, 0, 0, 0, 0]] ∧ t.glades = s.glades ∧
      s.sameRegsBut [R.MGB_CNT] t ∧ t.mem = s.mem) ∧
  (∀ (s : State) (w : BusId) (p : Fin 8) (q : Byte) (l : List Byte) (g m : Nat), s.aoUp → s.busUsable w = true →
    s.repeated 8 q l = none → 8 ≤ l.length → g = leAt l 0 1 → m = leAt l 2 2 → g < 16 → slice l 1 1 = [0] → slice l 4 4 = zeros 4 →
    s.rd R.GLB_BOOT F.GLB_BOOT_STAGE = 5 → s.rangerHalted = false → s.inGrove g = true → s.fenced g = false → m ≠ s.lmn g →
    s.lmnOfSlot g (m % s.groveN g) = m → (s.gl g).agreement = none → ∃ t a, exec (.busSuspect w p q l) s = .next t ∧
      (t.gl g).agreement = some a ∧ a.suspects = [m % s.groveN g] ∧ a.round = 1 ∧ t.rd R.GRV_WIT F.GRV_WIT_CAUSE = 7 ∧
      s.sameRegsBut [R.GRV_MSTAT g, R.GRV_WIT, R.MGB_CNT] t ∧ t.mem = s.mem) ∧
  (∀ (s : State) (w : BusId), s.aoUp → s.busState w < 5 → s.bus.held = [] → ∃ t, exec (.dupaddr w) s = .next t ∧ t.busState w = 6 ∧
    t.rd R.MGB_STATUS F.MGB_STATUS_DUPADDR = 1 ∧ t.busState w.other = s.busState w.other ∧
    s.sameRegsBut [R.MGB_STATUS, R.EVR_LOST] t ∧ t.sent = s.sent ∧ t.mem = s.mem) ∧
  (∀ (s : State) (n : Notice) (w : BusId), s.aoUp → s.nextNotice = some n → s.noticeBus = some w → 0 < s.bus.tokens →
    ∃ t, exec .noticeSend s = .next t ∧ t.sent = s.sent ++ [.trail w (s.trailId (7 - n.sev) 0x20 0 w) (n.bytes s.bus.lost)] ∧
      t.bus = { s.bus with notices := s.bus.notices.erase n, lost := 0, tokens := s.bus.tokens - 1 } ∧
      (∀ m, m ∈ s.bus.notices → m.sev ≤ 3 → m.sev ≤ n.sev) ∧ t.regs = s.regs ∧ t.mem = s.mem) ∧
  (∀ s : State, s.bus.tokens = 0 → exec .noticeSend s = .next s) ∧
  (∀ s : State, s.aoUp → ∃ t, exec .noticeTokenRefill s = .next t ∧ t.bus = { s.bus with tokens := min 8 (s.bus.tokens + 1) } ∧
    t.regs = s.regs ∧ t.sent = s.sent ∧ t.mem = s.mem) ∧
  (∀ s : State, s.aoUp → ∃ t, exec .busBeacon s = .next t ∧ t.sent = s.sent ++
    ([BusId.a, BusId.b].filter fun w => s.busState w ≤ 2).map (fun w => .trail w (s.trailId 6 0x21 0 w) s.beaconBytes) ∧
    t.regs = s.regs ∧ t.bus = s.bus ∧ t.mem = s.mem) ∧
  (∀ (s : State) (w : BusId) (e r : Nat), s.aoUp → s.bus.held = [] → s.busState w < 3 → ∃ t, exec (.busStateChange w .busOff e r) s = .next t ∧
    t.busState w = (if 4 ≤ (s.busOffs w).length then 4 else 3) ∧
    t.rd w.errReg F.MGB_ERRA_BUSOFFS = min (s.rd w.errReg F.MGB_ERRA_BUSOFFS + 1) (2 ^ F.MGB_ERRA_BUSOFFS.width - 1) ∧
    t.rd w.errReg F.MGB_ERRA_TEC = min e 255 ∧ t.rd w.errReg F.MGB_ERRA_REC = min r 255 ∧
    s.sameRegsBut [w.errReg, R.MGB_STATUS, R.EVR_LOST] t ∧ t.sent = s.sent ∧ t.mem = s.mem) ∧
  (∀ (s : State) (w : BusId) (e r : Nat), s.aoUp → s.bus.held = [] → s.busState w < 4 →
    ∃ t, exec (.busStateChange w .errorActive e r) s = .next t ∧ t.busState w = 0 ∧
      s.sameRegsBut [w.errReg, R.MGB_STATUS, R.EVR_LOST] t ∧ t.sent = s.sent ∧ t.mem = s.mem) ∧
  (∀ (s : State) (w : BusId), s.aoUp → s.busUsable w = true → s.bus.held = [] → s.sent = [] → ∃ t, exec (.lone w) s = .next t ∧
    t.busState w = 2 ∧ t.rd w.errReg F.MGB_ERRA_NOACK = min (s.rd w.errReg F.MGB_ERRA_NOACK + 1) (2 ^ F.MGB_ERRA_NOACK.width - 1) ∧
    s.sameRegsBut [w.errReg, R.MGB_STATUS, R.EVR_LOST] t ∧ t.sent = [] ∧ t.mem = s.mem) ∧
  (∀ (s : State) (w : BusId) (n : Nat) (l : List Byte), s.aoUp → s.busUsable w = true → s.busUsable w.other = true → s.bus.held = [] →
    s.sent = [.trail w n l] → bitsOf n 13 6 ≠ 0x20 → bitsOf n 13 6 ≠ 0x21 → ∃ t, exec (.lone w) s = .next t ∧ t.busState w = 2 ∧
      t.sent = [.trail w n l, .trail w.other (idOn w.other n) l] ∧ s.sameRegsBut [w.errReg, R.MGB_STATUS, R.EVR_LOST] t ∧
      t.mem = s.mem) ∧
  (∀ (s : State) (w : BusId), s.aoUp → s.busState w = 4 → s.bus.held = [] → ∃ t, exec (.benchedEnd w) s = .next t ∧ t.busState w = 0 ∧
    t.rd w.errReg F.MGB_ERRA_TEC = 0 ∧ t.rd w.errReg F.MGB_ERRA_REC = 0 ∧ s.sameRegsBut [w.errReg, R.MGB_STATUS, R.EVR_LOST] t ∧
    t.sent = s.sent ∧ t.mem = s.mem) ∧
  (∀ (s : State) (h : HeldResponse) (r : List HeldResponse), s.aoUp → s.bus.held = h :: r → ∃ t, exec .responseHoldTimeout s = .next t ∧
    t.bus = { s.bus with held := r } ∧ t.regs = s.regs ∧ t.sent = s.sent ∧ t.mem = s.mem)

/-- RECORD_QUEUE, RECORD_STORE, WINDOW_READ, WINDOW_ADVANCE and CURSOR_WRITE (R391, R392, R395). The arbiter moves a record of the highest
severity that has room; the store gives it the next SEQ, and a full store gives up its oldest record of the lowest severity, or drops the
new one. Reading the window latches the shown record; its last word moves the cursor past it. It rests on the model's choices in
assumption 11. -/
def Obligations.Recorder : Prop :=
  (∀ (s : State) (r : Record), s.aoUp → s.arbiterNext = some r → ∃ t, exec .recordQueue s = .next t ∧
    t.evr.holding = s.evr.holding.erase r ∧ t.evr.queue = s.evr.queue ++ [r] ∧ t.evr.queue.length ≤ 64 ∧
    (∀ x, x ∈ s.evr.holding → x.sev ≤ 3 → r.sev < x.sev → s.queueRoom x = false) ∧ t.evr.store = s.evr.store ∧ t.regs = s.regs ∧
    t.sent = s.sent ∧ t.mem = s.mem) ∧
  (∀ (s : State) (r : Record) (l : List Record), s.aoUp → s.evr.queue = r :: l → s.evr.store.length < 8192 →
    ∃ t, exec .recordStore s = .next t ∧ t.evr.queue = l ∧
      t.evr.store = s.evr.store ++ [{ r with seq := s.evr.nextSeq, lost := s.evr.lostPending }] ∧
      t.evr.nextSeq = (s.evr.nextSeq + 1) % 2 ^ 32 ∧ t.evr.lostPending = 0 ∧ t.mem = s.mem) ∧
  (∀ (s : State) (r : Record) (l : List Record), s.aoUp → s.evr.queue = r :: l → s.evr.store.length = 8192 → s.leastSev ≤ r.sev →
    (∀ x, x ∈ s.evr.store → x.sev ≤ 3) →
    ∃ t, exec .recordStore s = .next t ∧ t.evr.queue = l ∧ t.evr.store.length = 8192 ∧
      { r with seq := s.evr.nextSeq, lost := s.evr.lostPending } ∈ t.evr.store ∧ t.mem = s.mem) ∧
  (∀ (s : State) (r : Record) (l : List Record), s.aoUp → s.evr.queue = r :: l → 8192 ≤ s.evr.store.length → r.sev < s.leastSev →
    ∃ t, exec .recordStore s = .next t ∧ t.evr = { s.evr with queue := l } ∧
      t.rd R.EVR_OVW F.EVR_OVW_DROPST = min (s.rd R.EVR_OVW F.EVR_OVW_DROPST + 1) (2 ^ F.EVR_OVW_DROPST.width - 1) ∧
      s.sameRegsBut [R.EVR_OVW] t ∧ t.mem = s.mem) ∧
  (∀ (s : State) (w : Fin 3) (r : Option Record), s.aoUp → r = (if w = 0 ∨ s.evr.latch = none then s.shown else s.evr.latch) →
    ∃ t, exec (.windowRead w) s = .next t ∧ t.ao.rspErr = false ∧ t.ao.rspData = Record.word r w.val ∧ t.evr.latch = r ∧
      t.evr.store = s.evr.store ∧ t.regs = s.regs ∧ t.mem = s.mem) ∧
  (∀ (s : State) (r : Record), s.aoUp → s.shown.isSome = true → (if s.evr.latch = none then s.shown else s.evr.latch) = some r →
    ∃ t, exec .windowAdvance s = .next t ∧ t.ao.rspErr = false ∧ t.ao.rspData = Record.word (some r) 3 ∧ t.evr.latch = none ∧
      t.rd R.EVR_CUR F.EVR_CUR_SEQ = (r.seq + 1) % 2 ^ 32 ∧ t.evr.store = s.evr.store ∧ s.sameRegsBut [R.EVR_CUR] t ∧ t.mem = s.mem) ∧
  (∀ (s : State) (v : Word), s.aoUp → ∃ t, exec (.cursorWrite v) s = .next t ∧
    t.rd R.EVR_CUR F.EVR_CUR_SEQ = fget v F.EVR_CUR_SEQ ∧ t.evr = { s.evr with latch := none } ∧ s.sameRegsBut [R.EVR_CUR] t ∧
    t.sent = s.sent ∧ t.mem = s.mem)

/-- ARM, TRIG, WAYPOINT_IN, WAYPOINT_MESSAGE, WAYPOINT_CAPTURE and WAYPOINT_OUT_END (R400 to R404). Arming clears the status; a trigger of an
armed unit waits for the capture cycle, and one after the capture counts in MISSED; with a scope it tells the other members. The capture
takes every selected register as the peek alias reads it, and zero in every other slot. It rests on the model's choices in assumption 4. -/
def Obligations.Waypoints : Prop :=
  (∀ (s : State) (v : Word), s.aoUp → fget v F.WPT_CTL_TRIG = 0 → ∃ t, exec (.arm v) s = .next t ∧
    t.reg R.WPT_CTL = (v ||| 1) &&& readMask R.WPT_CTL ∧ t.on R.WPT_CTL F.WPT_CTL_ARM = true ∧
    t.rd R.WPT_STAT F.WPT_STAT_TAKEN = 0 ∧ t.rd R.WPT_STAT F.WPT_STAT_CAUSE = 0 ∧ t.rd R.WPT_STAT F.WPT_STAT_LATE = 0 ∧
    s.sameRegsBut [R.WPT_CTL, R.WPT_STAT] t ∧ t.sent = s.sent ∧ t.mem = s.mem) ∧
  (∀ (s : State) (c : Instr) (n : Nat), s.aoUp → (c, n) ∈ [(.trig, 1), (.waypointIn, 2)] →
    n = 1 ∨ bitAt (s.rd R.WPT_CTL F.WPT_CTL_SRCEN) 1 = true → s.on R.WPT_STAT F.WPT_STAT_TAKEN = true → ∃ t, exec c s = .next t ∧
      t.rd R.WPT_STAT F.WPT_STAT_MISSED = min (s.rd R.WPT_STAT F.WPT_STAT_MISSED + 1) (2 ^ F.WPT_STAT_MISSED.width - 1) ∧
      t.waypoint = s.waypoint ∧ s.sameRegsBut [R.WPT_STAT] t ∧ t.sent = s.sent ∧ t.mem = s.mem) ∧
  (∀ (s : State) (c : Instr) (n : Nat), s.aoUp → (c, n) ∈ [(.trig, 1), (.waypointIn, 2)] →
    n = 1 ∨ bitAt (s.rd R.WPT_CTL F.WPT_CTL_SRCEN) 1 = true → s.on R.WPT_STAT F.WPT_STAT_TAKEN = false →
    s.on R.WPT_CTL F.WPT_CTL_ARM = true → s.waypoint = none → s.rd R.WPT_CTL F.WPT_CTL_SCOPE = 0 → ∃ t, exec c s = .next t ∧
      t.waypoint = some ⟨true, 0, 0, n, s.pnid, false⟩ ∧ t.regs = s.regs ∧ t.sent = s.sent ∧ t.mem = s.mem) ∧
  (∀ (s : State) (c : Instr) (n : Nat), s.up → s.aoUp → (c, n) ∈ [(.trig, 1), (.waypointIn, 2)] →
    n = 1 ∨ bitAt (s.rd R.WPT_CTL F.WPT_CTL_SRCEN) 1 = true → s.on R.WPT_STAT F.WPT_STAT_TAKEN = false →
    s.on R.WPT_CTL F.WPT_CTL_ARM = true → s.waypoint = none → s.rd R.WPT_CTL F.WPT_CTL_SCOPE ≠ 0 →
    s.rd R.WPT_CTL F.WPT_CTL_GPHASE ≠ 0xFFFF → ∃ t, exec c s = .next t ∧
      t.waypoint = some ⟨false, s.openRing s.wptGlade + 1, s.rd R.WPT_CTL F.WPT_CTL_GPHASE, n, s.pnid, false⟩ ∧
      t.sent = s.sent ++ (s.wptReceivers s.wptGlade).map (fun i => .toMember s.wptGlade i "WAYPOINT"
        [s.wptGlade, s.pnid, s.openRing s.wptGlade + 1, s.rd R.WPT_CTL F.WPT_CTL_GPHASE] []) ∧ t.regs = s.regs ∧ t.mem = s.mem) ∧
  (∀ (s : State) (g : GladeId) (o q : Nat) (f : BitVec 16), s.up → s.wptGlade = g.val →
    bitAt (s.rd R.WPT_CTL F.WPT_CTL_SRCEN) 3 = true → s.on R.WPT_STAT F.WPT_STAT_TAKEN = false →
    s.on R.WPT_CTL F.WPT_CTL_ARM = true → s.waypoint = none → ∃ t, exec (.waypointMessage g o q f) s = .next t ∧
      (f = 0xFFFF → t.waypoint = some ⟨true, 0, 0, 5, o, false⟩) ∧
      (f ≠ 0xFFFF → s.openRing g.val > q → t.waypoint = some ⟨true, 0, 0, 5, o, true⟩) ∧
      (f ≠ 0xFFFF → s.openRing g.val < q → t.waypoint = some ⟨false, q, f.toNat, 5, o, false⟩) ∧ t.regs = s.regs ∧ t.sent = s.sent ∧
      t.mem = s.mem) ∧
  (∀ (s : State) (p : WaypointPending), s.aoUp → s.canonical → s.waypoint = some p → p.due = true → s.wptReady = true → p.cause < 8 →
    ∃ t, exec .waypointCapture s = .next t ∧ t.waypoint = none ∧ t.ao.waypointOut = true ∧ t.rd R.WPT_STAT F.WPT_STAT_TAKEN = 1 ∧
      t.rd R.WPT_STAT F.WPT_STAT_CAUSE = p.cause ∧ t.reg R.WPT_TIME = BitVec.ofNat 64 s.now ∧
      (∀ x, x < 2048 → t.reg (R.WPT_SNAP x) = (if fget (s.reg (R.WPT_MAP x)) F.WPT_MAP_VALID = 1
        then s.peekVal (8 * fget (s.reg (R.WPT_MAP x)) F.WPT_MAP_ADDR) else 0)) ∧ t.sent = s.sent ∧ t.mem = s.mem) ∧
  (∀ s : State, s.aoUp → ∃ t, exec .waypointOutEnd s = .next t ∧ t.ao = { s.ao with waypointOut := false } ∧ t.regs = s.regs ∧
    t.sent = s.sent ∧ t.mem = s.mem)

/-- HALT, FORCE_HALT, STEP, RANGER_RESUME, HALT_PROCEED, HALT_PENDING_TIMEOUT, BREAKPOINT and DEBUG_MEMORY_ACCESS (R338, R405, R406). A halt
without locks fences every joined member first; with locks it is pending until they are free; where halt is closed it is refused. A step
changes no register but the cause and the PC, whose value the spec leaves open. Local memory answers only while Ranger is halted. It rests
on the model's choices in assumptions 2 and 52. -/
def Obligations.RangerDebug : Prop :=
  (∀ (s : State) (c : Instr) (n : Nat), s.up → s.haltOpen = true → s.locks = 0 →
    (c = .halt ∧ n = 1 ∧ s.rd R.RGR_DSTAT F.RGR_DSTAT_STATE = 0) ∨
    (c = .forceHalt 0x0C5A0400 ∧ n = 2 ∧ s.rd R.RGR_DSTAT F.RGR_DSTAT_STATE < 2) ∨
    (c = .haltProceed ∧ n = s.rd R.RGR_DSTAT F.RGR_DSTAT_CAUSE ∧ s.rd R.RGR_DSTAT F.RGR_DSTAT_STATE = 1) →
    ∃ t, exec c s = .next t ∧ t.rd R.RGR_DSTAT F.RGR_DSTAT_STATE = 2 ∧ t.rd R.RGR_DSTAT F.RGR_DSTAT_CAUSE = n ∧
      t.rangerHalted = true ∧ (∀ g, g < 16 → s.inGrove g = true → t.fenced g = true) ∧ t.mem = s.mem) ∧
  (∀ s : State, s.up → s.haltOpen = true → s.locks ≠ 0 → s.rd R.RGR_DSTAT F.RGR_DSTAT_STATE = 0 → ∃ t, exec .halt s = .next t ∧
    t.rd R.RGR_DSTAT F.RGR_DSTAT_STATE = 1 ∧ t.rd R.RGR_DSTAT F.RGR_DSTAT_CAUSE = 1 ∧ s.sameRegsBut [R.RGR_DSTAT] t ∧ t.sent = s.sent ∧
    t.mem = s.mem) ∧
  (∀ s : State, s.up → s.haltOpen = true → s.locks ≠ 0 → s.rangerHalted = false → ∃ t, exec (.forceHalt 0x0C5A0400) s = .next t ∧
    t.rd R.RGR_DSTAT F.RGR_DSTAT_STATE = 3 ∧ t.rd R.RGR_DSTAT F.RGR_DSTAT_CAUSE = 2 ∧ t.locks = 0 ∧ t.mem = s.mem) ∧
  (∀ (s : State) (c : Instr), s.up → s.haltOpen = false → c ∈ [.halt, .forceHalt 0x0C5A0400, .rangerStep] → ∃ t, exec c s = .next t ∧
    t.rd R.RGR_DSTAT F.RGR_DSTAT_REFUSED = 1 ∧ s.sameRegsBut [R.RGR_DSTAT, R.EVR_LOST] t ∧ t.sent = s.sent ∧ t.mem = s.mem) ∧
  (∀ (s : State) (k : BitVec 32), k.toNat ≠ 0x0C5A0400 → exec (.forceHalt k) s = .next s) ∧
  (∀ s : State, s.up → s.haltOpen = true → s.rangerHalted = true → ∃ t, exec .rangerStep s = .next t ∧
    t.rd R.RGR_DSTAT F.RGR_DSTAT_CAUSE = 4 ∧ t.rangerHalted = true ∧ t.rangerMem = s.rangerMem ∧
    s.sameRegsBut [R.RGR_DSTAT, R.RGR_PC] t ∧ t.sent = s.sent ∧ t.mem = s.mem) ∧
  (∀ s : State, s.up → s.rangerHalted = true → ∃ t, exec .rangerResume s = .next t ∧ t.rangerHalted = false ∧
    s.sameRegsBut [R.RGR_DSTAT] t ∧ (∀ g, t.fenced g = s.fenced g) ∧ t.sent = s.sent ∧ t.mem = s.mem) ∧
  (∀ s : State, s.up → s.rd R.RGR_DSTAT F.RGR_DSTAT_STATE = 1 → ∃ t, exec .haltPendingTimeout s = .next t ∧
    t.rd R.RGR_DSTAT F.RGR_DSTAT_STATE = 1 ∧ s.sameRegsBut [R.EVR_LOST] t ∧ t.sent = s.sent ∧ t.mem = s.mem) ∧
  (∀ (s : State) (x : Fin 4), s.up → s.haltOpen = true → s.locks = 0 → s.rd R.RGR_DSTAT F.RGR_DSTAT_STATE = 0 →
    s.on (R.RGR_BKPT x.val) F.RGR_BKPT_EN = true → ∃ t, exec (.breakpoint x) s = .next t ∧ t.rangerHalted = true ∧
      t.rd R.RGR_DSTAT F.RGR_DSTAT_CAUSE = 3 ∧
      t.rd R.RGR_PC F.RGR_PC_PC = 4 * s.rd (R.RGR_BKPT x.val) F.RGR_BKPT_ADDR % 2 ^ F.RGR_PC_PC.width ∧ t.mem = s.mem) ∧
  (∀ (s : State) (w : Bool) (v x : Word), s.aoUp → s.peek R.RGR_DDATA = some x → ∃ t, exec (.debugMemoryAccess w v) s = .next t ∧
    t.ao.rspErr = false ∧ (w = false → t.ao.rspData = x ∧ t.rangerMem = s.rangerMem) ∧
    (w = true → ∀ a, sget (fun _ => 0) t.rangerMem a =
      (if a = s.rd R.RGR_DADDR F.RGR_DADDR_ADDR then v else sget (fun _ => 0) s.rangerMem a)) ∧ t.regs = s.regs ∧ t.mem = s.mem) ∧
  (∀ (s : State) (w : Bool) (v : Word), s.aoUp → s.rangerHalted = false → ∃ t, exec (.debugMemoryAccess w v) s = .next t ∧
    t.ao.rspErr = true ∧ t.ao.rspData = 0 ∧ t.rangerMem = s.rangerMem ∧ t.regs = s.regs ∧ t.mem = s.mem)

/-- BIST_GO, BIST_DONE, LANE_TEST, LANE_TEST_DONE, SITE_CHECK, SRAM_READOUT and the wrapper rows WS_BYPASS, WS_EXTEST, WS_PRELOAD, WS_CLAMP,
WS_IDCODE, WS_INTEST_SCAN and WS_BIST (R409 to R418, R421). A run that is refused sets RESULT only; one that is accepted ends with DONE
and the failure bit of each partition. A closed wrapper instruction loads WS_BYPASS; leaving WS_EXTEST or WS_CLAMP puts MAIN in reset. It
rests on the model's choices in assumptions 4, 47 and 63. -/
def Obligations.SelfTest : Prop :=
  (∀ (s : State) (c : Instr), s.aoUp → s.runRefusal = 0 → c = .bistGo ∨ (c = .wsBist ∧ s.test.wir = 6) → ∃ t, exec c s = .next t ∧
    t.rd R.TST_STATUS F.TST_STATUS_RESULT = 0 ∧ t.rd R.TST_STATUS F.TST_STATUS_BUSY = 1 ∧ t.test.running = s.selection ∧
    t.test.plog = s.plog ∧ s.sameRegsBut [R.TST_STATUS] t ∧ t.sent = s.sent ∧ t.mem = s.mem) ∧
  (∀ (s : State) (c : Instr), s.aoUp → s.runRefusal ≠ 0 → c = .bistGo ∨ (c = .wsBist ∧ s.test.wir = 6) → ∃ t, exec c s = .next t ∧
    t.rd R.TST_STATUS F.TST_STATUS_RESULT = s.runRefusal ∧ t.test = s.test ∧ s.sameRegsBut [R.TST_STATUS] t ∧ t.sent = s.sent ∧
    t.mem = s.mem) ∧
  (∀ (s : State) (x : Nat), s.aoUp → s.on R.TST_STATUS F.TST_STATUS_BUSY = true → s.test.running = [x] → s.test.boot = false → x < 64 →
    ∃ t, exec .bistDone s = .next t ∧ t.rd R.TST_STATUS F.TST_STATUS_BUSY = 0 ∧ t.rd R.TST_STATUS F.TST_STATUS_DONE = 1 ∧
      t.test.running = [] ∧
      bitAt (t.rd R.TST_FAILT F.TST_FAILT_TILES) x = !(s.signature x s.test.plog s.test.rom).1 ∧
      (t.up ↔ s.up) ∧ t.mem = s.mem) ∧
  (∀ s : State, s.aoUp → s.lcs ≠ 5 → (∀ g, g < 16 → s.inGrove g = false) → s.testing = false → ∃ t, exec .laneTest s = .next t ∧
    t.rd R.TST_STATUS F.TST_STATUS_RESULT = 0 ∧ t.rd R.TST_LTEST F.TST_LTEST_BUSY = 1 ∧
    t.test.links = (s.reg R.TST_SELT).toNat % 2 ^ 32 ∧ s.sameRegsBut [R.TST_STATUS, R.TST_LTEST] t ∧ t.sent = s.sent ∧ t.mem = s.mem) ∧
  (∀ (s : State) (n : BitVec 32) (l : List (BitVec 8)), s.aoUp → s.on R.TST_LTEST F.TST_LTEST_BUSY = true →
    ∃ t, exec (.laneTestDone n l) s = .next t ∧ t.rd R.TST_LTEST F.TST_LTEST_BUSY = 0 ∧ t.test.laneView = true ∧
      (∀ p, p < 32 → t.test.laneFails.getD p 0 =
        (if bitAt s.test.links p && !bitAt (n.toNat &&& s.test.links) p then l.getD p 0 else 0)) ∧
      s.sameRegsBut [R.TST_LTEST, R.TST_FAILT] t ∧ t.sent = s.sent ∧ t.mem = s.mem) ∧
  (∀ (s : State) (x : Fin 8) (d m k l : Nat), s.up → 0 < min k l → ∃ t, exec (.siteCheck x d m k l) s = .next t ∧
    t.rd (R.TST_SITE x.val) F.TST_SITE_DCNT = min (s.rd (R.TST_SITE x.val) F.TST_SITE_DCNT + d) (2 ^ F.TST_SITE_DCNT.width - 1) ∧
    t.rd (R.TST_SITE x.val) F.TST_SITE_SLK = min k 255 ∧
    t.rd (R.TST_SITE x.val) F.TST_SITE_SLKMIN = min (min k l) (s.rd (R.TST_SITE x.val) F.TST_SITE_SLKMIN) ∧
    s.sameRegsBut [R.TST_SITE x.val, R.EVR_LOST] t ∧ t.sent = s.sent ∧ t.mem = s.mem) ∧
  (∀ s : State, s.aoUp → s.sramOpen = false → ∃ t, exec .sramReadout s = .next t ∧ t.ao.rspErr = true ∧ t.ao.rspData = 0 ∧
    s.sameRegsBut [R.EVR_LOST] t ∧ t.sent = s.sent ∧ t.mem = s.mem) ∧
  (∀ (s : State) (v : Word), s.aoUp → s.sramOpen = true → s.peek R.TST_SRDATA = some v → ∃ t, exec .sramReadout s = .next t ∧
    t.ao.rspErr = false ∧ t.ao.rspData = v ∧ t.regs = s.regs ∧ t.sent = s.sent ∧ t.mem = s.mem) ∧
  (∀ (s : State) (c : Instr) (l : List Bool) (n : Nat), s.aoUp →
    (c, n) ∈ [(.wsBypass, 0), (.wsExtest, 1), (.wsPreload l, 2), (.wsClamp, 3), (.wsIdcode, 4), (.wsIntestScan, 5)] →
    ∃ t, exec c s = .next t ∧ t.test.wir = (if wirOpen s.lcs n then n else 0) ∧ (c = .wsPreload l → t.test.boundary = l) ∧
      (c = .wsIdcode → t.sent = s.sent ++ [.wso 0x0C64BB4B]) ∧ (c ≠ .wsIdcode → t.sent = s.sent) ∧
      (s.test.wir = n ∨ (s.test.wir ≠ 1 ∧ s.test.wir ≠ 3) → s.sameRegsBut [R.EVR_LOST] t ∧ (t.up ↔ s.up)) ∧
      ((s.test.wir = 1 ∨ s.test.wir = 3) → s.test.wir ≠ n → ¬t.up) ∧ t.mem = s.mem)
end

