-- ==== Sys2Proof/Laws/Map.lean ====
section
/-! SUPPORT. Sparse maps: a read after a write, and the canonical form that every write keeps. -/
namespace Sys2Proof.Machine

variable {α : Type}

theorem sget_sput_same (d : Nat → α) (m : Sparse α) (k : Nat) (v : α) (h : ∀ c ∈ m, c.1 ≠ k) :
    sget d (sput m k v) k = v := by
  induction m with
  | nil => simp [sput, sget]
  | cons c r ih =>
    have hc := h c (by simp)
    simp only [sput]
    split
    · simp [sget]
    · simpa [sget, hc] using ih fun x hx => h x (by simp [hx])

theorem sget_sput_other (d : Nat → α) (m : Sparse α) (k j : Nat) (v : α) (h : j ≠ k) :
    sget d (sput m k v) j = sget d m j := by
  induction m with
  | nil => simp [sput, sget, h.symm]
  | cons c r ih =>
    simp only [sput]
    split
    · simp [sget, h.symm]
    · by_cases hc : c.1 = j <;> simp [sget, hc, ih]

theorem sget_filter_other (d : Nat → α) (m : Sparse α) (k j : Nat) (h : j ≠ k) :
    sget d (m.filter fun c => c.1 != k) j = sget d m j := by
  induction m with
  | nil => rfl
  | cons c r ih =>
    by_cases hk : c.1 = k
    · have hj : c.1 ≠ j := fun e => h (e ▸ hk)
      simp [hk, sget, ih, h.symm]
    · by_cases hj : c.1 = j
      · simp [sget, hj, h]
      · simp [hk, sget, hj, ih]

theorem sget_filter_same (d : Nat → α) (m : Sparse α) (k : Nat) :
    sget d (m.filter fun c => c.1 != k) k = d k := by
  induction m with
  | nil => rfl
  | cons c r ih => by_cases hk : c.1 = k <;> simp [hk, sget, ih]

/-- A key reads back what was written to it. -/
@[simp] theorem sget_sset_same [DecidableEq α] (d : Nat → α) (m : Sparse α) (k : Nat) (v : α) :
    sget d (sset d m k v) k = v := by
  by_cases hv : v = d k
  · simp only [sset, hv, if_true]; exact sget_filter_same d m k
  · simp only [sset, hv, if_false]
    exact sget_sput_same d _ k v (by simp)

/-- A write leaves every other key alone. -/
theorem sget_sset_other [DecidableEq α] (d : Nat → α) (m : Sparse α) {k j : Nat} (v : α) (h : j ≠ k) :
    sget d (sset d m k v) j = sget d m j := by
  by_cases hv : v = d k
  · simp only [sset, hv, if_true]; exact sget_filter_other d m k j h
  · simp only [sset, hv, if_false]
    rw [sget_sput_other d _ k j v h, sget_filter_other d m k j h]

theorem sget_sset [DecidableEq α] (d : Nat → α) (m : Sparse α) (k j : Nat) (v : α) :
    sget d (sset d m k v) j = if j = k then v else sget d m j := by
  by_cases h : j = k
  · subst h; simp
  · simp [h, sget_sset_other]

theorem swfFrom_mono [DecidableEq α] {d : Nat → α} {a e : Nat} {m : Sparse α} (h : swfFrom d e m = true) (hle : a ≤ e) :
    swfFrom d a m = true := by
  cases m with
  | nil => rfl
  | cons c r => simp only [swfFrom, Bool.and_eq_true, decide_eq_true_eq] at h ⊢; exact ⟨⟨by omega, h.1.2⟩, h.2⟩

theorem swfFrom_filter [DecidableEq α] {d : Nat → α} {m : Sparse α} (p : Nat × α → Bool) {e : Nat}
    (h : swfFrom d e m = true) : swfFrom d e (m.filter p) = true := by
  induction m generalizing e with
  | nil => rfl
  | cons c r ih =>
    simp only [swfFrom, Bool.and_eq_true, decide_eq_true_eq] at h
    by_cases hp : p c
    · simp only [List.filter, hp, swfFrom, Bool.and_eq_true, decide_eq_true_eq]; exact ⟨h.1, ih h.2⟩
    · simp only [List.filter, hp]; exact swfFrom_mono (ih h.2) (by omega)

theorem swfFrom_sput [DecidableEq α] {d : Nat → α} {m : Sparse α} {e k : Nat} {v : α} (h : swfFrom d e m = true)
    (he : e ≤ k) (hv : v ≠ d k) (hn : ∀ c ∈ m, c.1 ≠ k) : swfFrom d e (sput m k v) = true := by
  induction m generalizing e with
  | nil => simp [sput, swfFrom, he, hv]
  | cons c r ih =>
    simp only [swfFrom, Bool.and_eq_true, decide_eq_true_eq] at h
    have hc := hn c (by simp)
    simp only [sput]
    split
    · simp only [swfFrom, Bool.and_eq_true, decide_eq_true_eq, bne_iff_ne]
      exact ⟨⟨he, hv⟩, ⟨by omega, by simpa using h.1.2⟩, h.2⟩
    · simp only [swfFrom, Bool.and_eq_true, decide_eq_true_eq]
      exact ⟨h.1, ih h.2 (by omega) fun x hx => hn x (by simp [hx])⟩

/-- Every write keeps the canonical form. -/
theorem swf_sset [DecidableEq α] {d : Nat → α} {m : Sparse α} (k : Nat) (v : α) (h : swf d m = true) :
    swf d (sset d m k v) = true := by
  by_cases hv : v = d k
  · simp only [sset, hv, if_true]; exact swfFrom_filter _ h
  · simp only [sset, hv, if_false]
    exact swfFrom_sput (swfFrom_filter _ h) (Nat.zero_le k) hv (by simp)

/-- Leaving entries out keeps the canonical form. -/
theorem swf_filter [DecidableEq α] {d : Nat → α} {m : Sparse α} (p : Nat × α → Bool) (h : swf d m = true) :
    swf d (m.filter p) = true := swfFrom_filter p h

end Sys2Proof.Machine
end

