-- ==== Sys2Proof/Laws/Bits.lean ====
section
/-! SUPPORT. Fields of words: a field reads back what was put into it, and every other field stays. -/
namespace Sys2Proof.Machine

/-- A field lies inside the 64 bits of a word. -/
def Fld.ok (f : Fld) : Bool := f.lo + f.width ≤ 64

/-- Two fields share no bit. -/
def Fld.apart (f g : Fld) : Bool := f.lo + f.width ≤ g.lo || g.lo + g.width ≤ f.lo

theorem testBit_fget (w : Word) (f : Fld) (i : Nat) :
    (fget w f).testBit i = (decide (i < f.width) && w.getLsbD (f.lo + i)) := by
  unfold fget
  rw [Nat.testBit_mod_two_pow, Nat.testBit_div_two_pow, Nat.add_comm i f.lo]
  rfl

theorem getLsbD_fmask (f : Fld) (i : Nat) :
    (fmask f).getLsbD i = (decide (i < 64) && decide (f.lo ≤ i) && decide (i < f.lo + f.width)) := by
  unfold fmask
  rw [BitVec.getLsbD_ofNat, Nat.testBit_mul_two_pow, Nat.testBit_two_pow_sub_one]
  by_cases h1 : i < 64 <;> by_cases h2 : f.lo ≤ i <;> simp [h1, h2]
  omega

theorem getLsbD_fput (w : Word) (f : Fld) (n i : Nat) :
    (fput w f n).getLsbD i =
      (decide (i < 64) && if f.lo ≤ i ∧ i < f.lo + f.width then n.testBit (i - f.lo) else w.getLsbD i) := by
  unfold fput
  rw [BitVec.getLsbD_or, BitVec.getLsbD_and, BitVec.getLsbD_not, getLsbD_fmask, BitVec.getLsbD_ofNat,
    Nat.testBit_mul_two_pow, Nat.testBit_mod_two_pow]
  by_cases h1 : i < 64 <;> by_cases h2 : f.lo ≤ i <;> by_cases h3 : i < f.lo + f.width <;> simp [h1, h2, h3]
  · exact fun _ => by omega
  · omega

/-- A field reads back what was put into it. -/
theorem fget_fput_same (w : Word) (f : Fld) (n : Nat) (h : f.ok = true) : fget (fput w f n) f = n % 2 ^ f.width := by
  apply Nat.eq_of_testBit_eq
  intro i
  rw [testBit_fget, getLsbD_fput, Nat.testBit_mod_two_pow]
  simp only [Fld.ok, decide_eq_true_eq] at h
  by_cases hi : i < f.width
  · have : f.lo + i < 64 := by omega
    simp [hi, this]
  · simp [hi]

/-- A field keeps its value when another one is written. -/
theorem fget_fput_apart (w : Word) (f g : Fld) (n : Nat) (h : f.apart g = true) (hg : g.ok = true) :
    fget (fput w f n) g = fget w g := by
  apply Nat.eq_of_testBit_eq
  intro i
  rw [testBit_fget, testBit_fget, getLsbD_fput]
  simp only [Fld.ok, Fld.apart, Bool.or_eq_true, decide_eq_true_eq] at h hg
  by_cases hi : i < g.width
  · have h1 : g.lo + i < 64 := by omega
    have h2 : ¬(f.lo ≤ g.lo + i ∧ g.lo + i < f.lo + f.width) := by omega
    simp [hi, h1, h2]
  · simp [hi]

end Sys2Proof.Machine
end

