-- ==== Sys2Proof/Laws/Keeps.lean ====
section
/-! SUPPORT. What every operation of the model leaves alone, as one relation between the state before and after. -/
namespace Sys2Proof.Machine

/-- What a change of state keeps: the queue always; member memory, the flash and the fuses unless `m`, `f`, `u` say that the change may
write them; the canonical form of each map; and every burnt fuse bit. -/
structure Keeps (m f u : Bool) (s t : State) : Prop where
  pending : t.pending = s.pending
  mem : m = false → t.mem = s.mem
  flash : f = false → t.flash = s.flash
  fuses : u = false → t.fuses = s.fuses
  memWf : Memory.wf s.mem = true → Memory.wf t.mem = true
  flashWf : swf (fun _ => (0xFF : Byte)) s.flash = true → swf (fun _ => (0xFF : Byte)) t.flash = true
  fusesWf : swf (fun _ => (0 : Word)) s.fuses = true → swf (fun _ => (0 : Word)) t.fuses = true
  regsWf : swf resetWord s.regs = true → swf resetWord t.regs = true
  burnt : ∀ w i, (s.fuse w).getLsbD i = true → (t.fuse w).getLsbD i = true

namespace Keeps
variable {m f u : Bool} {s t t' : State}

theorem refl (s : State) : Keeps m f u s s :=
  ⟨rfl, fun _ => rfl, fun _ => rfl, fun _ => rfl, id, id, id, id, fun _ _ => id⟩

/-- A further change that touches none of the framed fields. -/
theorem upd (h : Keeps m f u s t) (hp : t'.pending = t.pending) (hm : t'.mem = t.mem) (hf : t'.flash = t.flash)
    (hu : t'.fuses = t.fuses) (hr : t'.regs = t.regs) : Keeps m f u s t' := by
  constructor
  · rw [hp, h.pending]
  · intro e; rw [hm, h.mem e]
  · intro e; rw [hf, h.flash e]
  · intro e; rw [hu, h.fuses e]
  · intro e; rw [hm]; exact h.memWf e
  · intro e; rw [hf]; exact h.flashWf e
  · intro e; rw [hu]; exact h.fusesWf e
  · intro e; rw [hr]; exact h.regsWf e
  · intro w i e; have := h.burnt w i e; simpa [State.fuse, hu] using this

/-- A further change of the registers alone that keeps their canonical form. -/
theorem updRegs (h : Keeps m f u s t) (hp : t'.pending = t.pending) (hm : t'.mem = t.mem) (hf : t'.flash = t.flash)
    (hu : t'.fuses = t.fuses) (hr : swf resetWord t.regs = true → swf resetWord t'.regs = true) : Keeps m f u s t' := by
  constructor
  · rw [hp, h.pending]
  · intro e; rw [hm, h.mem e]
  · intro e; rw [hf, h.flash e]
  · intro e; rw [hu, h.fuses e]
  · intro e; rw [hm]; exact h.memWf e
  · intro e; rw [hf]; exact h.flashWf e
  · intro e; rw [hu]; exact h.fusesWf e
  · intro e; exact hr (h.regsWf e)
  · intro w i e; have := h.burnt w i e; simpa [State.fuse, hu] using this

/-- A record update that leaves the framed fields alone. -/
theorem fields (h : Keeps m f u s t) x_nodeMap x_rangerMem x_glades x_queues x_tiles x_frames x_links x_ports x_images
    x_keys x_ao x_evr x_nvm x_sec x_router x_budget x_test x_waypoint x_bus x_lane x_sent x_free :
    Keeps m f u s (State.mk t.regs t.mem t.flash t.fuses x_nodeMap x_rangerMem x_glades x_queues x_tiles x_frames
    x_links x_ports x_images x_keys x_ao x_evr x_nvm x_sec x_router x_budget x_test x_waypoint x_bus x_lane x_sent x_free
    t.pending) :=
  h.upd rfl rfl rfl rfl rfl

/-- A record update that changes the registers and keeps their canonical form. -/
theorem fieldsRegs (h : Keeps m f u s t) x_nodeMap x_rangerMem x_glades x_queues x_tiles x_frames x_links x_ports
    x_images x_keys x_ao x_evr x_nvm x_sec x_router x_budget x_test x_waypoint x_bus x_lane x_sent x_free x_regs (hr : swf
    resetWord t.regs = true → swf resetWord x_regs = true) :
    Keeps m f u s (State.mk x_regs t.mem t.flash t.fuses x_nodeMap x_rangerMem x_glades x_queues x_tiles x_frames
    x_links x_ports x_images x_keys x_ao x_evr x_nvm x_sec x_router x_budget x_test x_waypoint x_bus x_lane x_sent x_free
    t.pending) :=
  h.updRegs rfl rfl rfl rfl hr

/-- The state of a pair that a function answers. -/
theorem fst {α : Type} {r : State × α} {v : State} {x : α} (e : r = (v, x)) (h : Keeps m f u s r.1) : Keeps m f u s v := by
  rw [e] at h; exact h

theorem ite {c : Prop} [Decidable c] {a e : State} (ha : Keeps m f u s a) (he : Keeps m f u s e) :
    Keeps m f u s (if c then a else e) := by split <;> assumption

theorem each {α : Type} {g : State → α → State} (h : Keeps m f u s t) (l : List α)
    (hg : ∀ v x, Keeps m f u s v → Keeps m f u s (g v x)) : Keeps m f u s (t.each l g) := by
  unfold State.each
  induction l generalizing t with
  | nil => exact h
  | cons x r ih => exact ih (hg _ _ h)

theorem when {g : State → State} (h : Keeps m f u s t) (c : Bool)
    (hg : ∀ v, Keeps m f u s v → Keeps m f u s (g v)) : Keeps m f u s (t.when c g) := by
  unfold State.when; exact ite (hg _ h) h

theorem inMain {g : State → State} (h : Keeps m f u s t)
    (hg : ∀ v, Keeps m f u s v → Keeps m f u s (g v)) : Keeps m f u s (t.inMain g) := by
  unfold State.inMain; exact ite (hg _ h) h

theorem inAo {g : State → State} (h : Keeps m f u s t)
    (hg : ∀ v, Keeps m f u s v → Keeps m f u s (g v)) : Keeps m f u s (t.inAo g) := by
  unfold State.inAo; exact ite h (hg _ h)

theorem setReg (h : Keeps m f u s t) (a : Nat) (v : Word) : Keeps m f u s (t.setReg a v) :=
  h.updRegs rfl rfl rfl rfl (swf_sset a v)

theorem writeByte (h : Keeps true f u s t) (a : Nat) (v : Byte) : Keeps true f u s (t.writeByte a v) :=
  ⟨h.pending, nofun, h.flash, h.fuses, fun e => swf_sset a v (h.memWf e), h.flashWf, h.fusesWf, h.regsWf, h.burnt⟩

theorem writeBytes (h : Keeps true f u s t) (a : Nat) (l : List Byte) : Keeps true f u s (t.writeBytes a l) := by
  induction l generalizing t a with
  | nil => exact h
  | cons v r ih => exact ih (h.writeByte a v) (a + 1)

theorem setFlashByte (h : Keeps m true u s t) (a : Nat) (v : Byte) : Keeps m true u s (t.setFlashByte a v) :=
  ⟨h.pending, h.mem, nofun, h.fuses, h.memWf, fun e => swf_sset a v (h.flashWf e), h.fusesWf, h.regsWf, h.burnt⟩

theorem setFlashBytes (h : Keeps m true u s t) (a : Nat) (l : List Byte) : Keeps m true u s (t.setFlashBytes a l) := by
  induction l generalizing t a with
  | nil => exact h
  | cons v r ih => exact ih (h.setFlashByte a v) (a + 1)

theorem burnFuse (h : Keeps m f true s t) (a : Nat) (v : Word) : Keeps m f true s (t.burnFuse a v) := by
  refine ⟨h.pending, h.mem, h.flash, nofun, h.memWf, h.flashWf, fun e => swf_sset a _ (h.fusesWf e), h.regsWf, ?_⟩
  intro w i e
  have := h.burnt w i e
  by_cases hw : w = a
  · subst hw; simp [State.burnFuse, State.fuse] at this ⊢; simp [this]
  · simpa [State.burnFuse, State.fuse, sget_sset_other, hw] using this

end Keeps

/-- What an outcome keeps: the frame of its next state. -/
def OutKeeps (m f u : Bool) (s : State) (r : Host.Outcome State Fault Refusal) : Prop :=
  match r with
  | .next t => Keeps m f u s t
  | _ => True

theorem OutKeeps.next {m f u : Bool} {s t : State} (h : Keeps m f u s t) : OutKeeps m f u s (.next t) := h

theorem OutKeeps.ite {m f u : Bool} {s : State} {c : Prop} [Decidable c] {a e : Host.Outcome State Fault Refusal}
    (ha : OutKeeps m f u s a) (he : OutKeeps m f u s e) : OutKeeps m f u s (if c then a else e) := by split <;> assumption

end Sys2Proof.Machine
end

