-- ==== Sys2Proof/Laws/KeepsOps.lean ====
section
/-! SUPPORT. What the operations of Machine/Ops.lean keep (the relation Keeps). -/
set_option linter.unusedTactic false
set_option linter.unreachableTactic false
set_option linter.unusedVariables false
namespace Sys2Proof.Machine

theorem State.resetReg_keeps {km kf ku : Bool} {s₀ : State} (s : State) (a : Nat) (hk : Keeps km kf ku s₀ s) :
    Keeps km kf ku s₀ (State.resetReg s a) := by
  unfold State.resetReg
  repeat' (
    first
    | with_reducible assumption | with_reducible apply Keeps.setReg | with_reducible apply Keeps.ite | intro _ _ _ _ _
    | intro _ _ _ _ | intro _ _ _ | intro _ _ | split | with_reducible apply Keeps.fields)

theorem State.wr_keeps {km kf ku : Bool} {s₀ : State} (s : State) (a : Nat) (f : Fld) (n : Nat) (hk : Keeps km kf ku s₀ s) :
    Keeps km kf ku s₀ (State.wr s a f n) := by
  unfold State.wr
  repeat' (
    first
    | with_reducible assumption | with_reducible apply Keeps.setReg | with_reducible apply Keeps.ite | intro _ _ _ _ _
    | intro _ _ _ _ | intro _ _ _ | intro _ _ | split | with_reducible apply Keeps.fields)

theorem State.flag_keeps {km kf ku : Bool} {s₀ : State} (s : State) (a : Nat) (f : Fld) (b : Bool) (hk : Keeps km kf ku s₀ s) :
    Keeps km kf ku s₀ (State.flag s a f b) := by
  unfold State.flag
  repeat' (
    first
    | with_reducible assumption | with_reducible apply State.wr_keeps | with_reducible apply Keeps.ite | intro _ _ _ _ _
    | intro _ _ _ _ | intro _ _ _ | intro _ _ | split | with_reducible apply Keeps.fields)

theorem State.add_keeps {km kf ku : Bool} {s₀ : State} (s : State) (a : Nat) (f : Fld) (n : Nat) (hk : Keeps km kf ku s₀ s) :
    Keeps km kf ku s₀ (State.add s a f n) := by
  unfold State.add
  repeat' (
    first
    | with_reducible assumption | with_reducible apply State.wr_keeps | with_reducible apply Keeps.ite | intro _ _ _ _ _
    | intro _ _ _ _ | intro _ _ _ | intro _ _ | split | with_reducible apply Keeps.fields)

theorem State.inc_keeps {km kf ku : Bool} {s₀ : State} (s : State) (a : Nat) (f : Fld) (hk : Keeps km kf ku s₀ s) :
    Keeps km kf ku s₀ (State.inc s a f) := by
  unfold State.inc
  repeat' (
    first
    | with_reducible assumption | with_reducible apply State.add_keeps | with_reducible apply Keeps.ite | intro _ _ _ _ _
    | intro _ _ _ _ | intro _ _ _ | intro _ _ | split | with_reducible apply Keeps.fields)

theorem State.raise_keeps {km kf ku : Bool} {s₀ : State} (s : State) (a : Nat) (f : Fld) (n : Nat) (hk : Keeps km kf ku s₀ s) :
    Keeps km kf ku s₀ (State.raise s a f n) := by
  unfold State.raise
  repeat' (
    first
    | with_reducible assumption | with_reducible apply State.wr_keeps | with_reducible apply Keeps.ite | intro _ _ _ _ _
    | intro _ _ _ _ | intro _ _ _ | intro _ _ | split | with_reducible apply Keeps.fields)

theorem State.throttleTick_keeps {km kf ku : Bool} {s₀ : State} (s : State) (hk : Keeps km kf ku s₀ s) :
    Keeps km kf ku s₀ (State.throttleTick s) := by
  unfold State.throttleTick
  repeat' (
    first
    | with_reducible assumption | with_reducible apply State.add_keeps | with_reducible apply Keeps.ite | intro _ _ _ _ _
    | intro _ _ _ _ | intro _ _ _ | intro _ _ | split | with_reducible apply Keeps.fields)

theorem State.tick_keeps {km kf ku : Bool} {s₀ : State} (s : State) (hk : Keeps km kf ku s₀ s) :
    Keeps km kf ku s₀ (State.tick s) := by
  unfold State.tick
  repeat' (
    first
    | with_reducible assumption | with_reducible apply State.throttleTick_keeps | with_reducible apply State.wr_keeps
    | with_reducible apply Keeps.ite | intro _ _ _ _ _ | intro _ _ _ _ | intro _ _ _ | intro _ _ | split
    | with_reducible apply Keeps.fields)

theorem State.useFree_keeps {km kf ku : Bool} {s₀ : State} (s : State) (hk : Keeps km kf ku s₀ s) :
    Keeps km kf ku s₀ (State.useFree s) := by
  unfold State.useFree
  repeat' (
    first
    | with_reducible assumption | with_reducible apply Keeps.ite | intro _ _ _ _ _ | intro _ _ _ _ | intro _ _ _ | intro _ _
    | split | with_reducible apply Keeps.fields)

theorem State.record_keeps {km kf ku : Bool} {s₀ : State} (s : State) (e : Ev) (hk : Keeps km kf ku s₀ s) :
    Keeps km kf ku s₀ (State.record s e) := by
  unfold State.record
  repeat' (
    first
    | with_reducible assumption | with_reducible apply State.inc_keeps | with_reducible apply Keeps.ite | intro _ _ _ _ _
    | intro _ _ _ _ | intro _ _ _ | intro _ _ | split | with_reducible apply Keeps.fields)

theorem State.send_keeps {km kf ku : Bool} {s₀ : State} (s : State) (x : Sent) (hk : Keeps km kf ku s₀ s) :
    Keeps km kf ku s₀ (State.send s x) := by
  unfold State.send
  repeat' (
    first
    | with_reducible assumption | with_reducible apply Keeps.ite | intro _ _ _ _ _ | intro _ _ _ _ | intro _ _ _ | intro _ _
    | split | with_reducible apply Keeps.fields)

theorem State.toMember_keeps {km kf ku : Bool} {s₀ : State} (s : State) (g lmn : Nat) (name : String) (args : List Nat) (data : List Byte) (hk : Keeps km kf ku s₀ s) :
    Keeps km kf ku s₀ (State.toMember s g lmn name args data) := by
  unfold State.toMember
  repeat' (
    first
    | with_reducible assumption | with_reducible apply State.send_keeps | with_reducible apply Keeps.ite | intro _ _ _ _ _
    | intro _ _ _ _ | intro _ _ _ | intro _ _ | split | with_reducible apply Keeps.fields)

theorem State.toMembers_keeps {km kf ku : Bool} {s₀ : State} (s : State) (g : Nat) (l : List Nat) (name : String) (args : List Nat) (data : List Byte) (hk : Keeps km kf ku s₀ s) :
    Keeps km kf ku s₀ (State.toMembers s g l name args data) := by
  unfold State.toMembers
  repeat' (
    first
    | with_reducible assumption | with_reducible apply State.toMember_keeps | with_reducible apply Keeps.each
    | with_reducible apply Keeps.ite | intro _ _ _ _ _ | intro _ _ _ _ | intro _ _ _ | intro _ _ | split
    | with_reducible apply Keeps.fields)

theorem State.toNode_keeps {km kf ku : Bool} {s₀ : State} (s : State) (pnid : Nat) (name : String) (args : List Nat) (data : List Byte) (hk : Keeps km kf ku s₀ s) :
    Keeps km kf ku s₀ (State.toNode s pnid name args data) := by
  unfold State.toNode
  repeat' (
    first
    | with_reducible assumption | with_reducible apply State.send_keeps | with_reducible apply Keeps.ite | intro _ _ _ _ _
    | intro _ _ _ _ | intro _ _ _ | intro _ _ | split | with_reducible apply Keeps.fields)

theorem State.toAll_keeps {km kf ku : Bool} {s₀ : State} (s : State) (g : Nat) (name : String) (args : List Nat) (data : List Byte) (hk : Keeps km kf ku s₀ s) :
    Keeps km kf ku s₀ (State.toAll s g name args data) := by
  unfold State.toAll
  repeat' (
    first
    | with_reducible assumption | with_reducible apply State.send_keeps | with_reducible apply Keeps.ite | intro _ _ _ _ _
    | intro _ _ _ _ | intro _ _ _ | intro _ _ | split | with_reducible apply Keeps.fields)

theorem State.updGl_keeps {km kf ku : Bool} {s₀ : State} (s : State) (g : Nat) (f : GladeState → GladeState) (hk : Keeps km kf ku s₀ s) :
    Keeps km kf ku s₀ (State.updGl s g f) := by
  unfold State.updGl
  repeat' (
    first
    | with_reducible assumption | with_reducible apply Keeps.ite | intro _ _ _ _ _ | intro _ _ _ _ | intro _ _ _ | intro _ _
    | split | with_reducible apply Keeps.fields)

theorem State.updQu_keeps {km kf ku : Bool} {s₀ : State} (s : State) (q : Nat) (f : QueueState → QueueState) (hk : Keeps km kf ku s₀ s) :
    Keeps km kf ku s₀ (State.updQu s q f) := by
  unfold State.updQu
  repeat' (
    first
    | with_reducible assumption | with_reducible apply Keeps.ite | intro _ _ _ _ _ | intro _ _ _ _ | intro _ _ _ | intro _ _
    | split | with_reducible apply Keeps.fields)

theorem State.updTl_keeps {km kf ku : Bool} {s₀ : State} (s : State) (t : Nat) (f : TileState → TileState) (hk : Keeps km kf ku s₀ s) :
    Keeps km kf ku s₀ (State.updTl s t f) := by
  unfold State.updTl
  repeat' (
    first
    | with_reducible assumption | with_reducible apply Keeps.ite | intro _ _ _ _ _ | intro _ _ _ _ | intro _ _ _ | intro _ _
    | split | with_reducible apply Keeps.fields)

theorem State.updLk_keeps {km kf ku : Bool} {s₀ : State} (s : State) (p : Nat) (f : LinkState → LinkState) (hk : Keeps km kf ku s₀ s) :
    Keeps km kf ku s₀ (State.updLk s p f) := by
  unfold State.updLk
  repeat' (
    first
    | with_reducible assumption | with_reducible apply Keeps.ite | intro _ _ _ _ _ | intro _ _ _ _ | intro _ _ _ | intro _ _
    | split | with_reducible apply Keeps.fields)

theorem State.updLane_keeps {km kf ku : Bool} {s₀ : State} (s : State) (p i : Nat) (f : LaneState → LaneState) (hk : Keeps km kf ku s₀ s) :
    Keeps km kf ku s₀ (State.updLane s p i f) := by
  unfold State.updLane
  repeat' (
    first
    | with_reducible assumption | with_reducible apply State.updLk_keeps | with_reducible apply Keeps.ite | intro _ _ _ _ _
    | intro _ _ _ _ | intro _ _ _ | intro _ _ | split | with_reducible apply Keeps.fields)

theorem State.updPt_keeps {km kf ku : Bool} {s₀ : State} (s : State) (q : Nat) (f : PortState → PortState) (hk : Keeps km kf ku s₀ s) :
    Keeps km kf ku s₀ (State.updPt s q f) := by
  unfold State.updPt
  repeat' (
    first
    | with_reducible assumption | with_reducible apply Keeps.ite | intro _ _ _ _ _ | intro _ _ _ _ | intro _ _ _ | intro _ _
    | split | with_reducible apply Keeps.fields)

theorem State.updIm_keeps {km kf ku : Bool} {s₀ : State} (s : State) (i : Nat) (f : ImageState → ImageState) (hk : Keeps km kf ku s₀ s) :
    Keeps km kf ku s₀ (State.updIm s i f) := by
  unfold State.updIm
  repeat' (
    first
    | with_reducible assumption | with_reducible apply Keeps.ite | intro _ _ _ _ _ | intro _ _ _ _ | intro _ _ _ | intro _ _
    | split | with_reducible apply Keeps.fields)

theorem State.updKs_keeps {km kf ku : Bool} {s₀ : State} (s : State) (x : Nat) (f : KeySlot → KeySlot) (hk : Keeps km kf ku s₀ s) :
    Keeps km kf ku s₀ (State.updKs s x f) := by
  unfold State.updKs
  repeat' (
    first
    | with_reducible assumption | with_reducible apply Keeps.ite | intro _ _ _ _ _ | intro _ _ _ _ | intro _ _ _ | intro _ _
    | split | with_reducible apply Keeps.fields)

theorem State.setMapEntry_keeps {km kf ku : Bool} {s₀ : State} (s : State) (i : Nat) (e : MapEntry) (hk : Keeps km kf ku s₀ s) :
    Keeps km kf ku s₀ (State.setMapEntry s i e) := by
  unfold State.setMapEntry
  repeat' (
    first
    | with_reducible assumption | with_reducible apply Keeps.ite | intro _ _ _ _ _ | intro _ _ _ _ | intro _ _ _ | intro _ _
    | split | with_reducible apply Keeps.fields)

theorem State.charge_keeps {km kf ku : Bool} {s₀ : State} (s : State) (c rd wr blk : Nat) (hk : Keeps km kf ku s₀ s) :
    Keeps km kf ku s₀ (State.charge s c rd wr blk) := by
  unfold State.charge
  repeat' (
    first
    | with_reducible assumption | with_reducible apply State.add_keeps | with_reducible apply Keeps.ite | intro _ _ _ _ _
    | intro _ _ _ _ | intro _ _ _ | intro _ _ | split | with_reducible apply Keeps.fields)

end Sys2Proof.Machine
end

