-- ==== Sys2Proof/Laws/KeepsShape.lean ====
section
/-! SUPPORT. What the operations of Machine/Shape.lean keep (the relation Keeps). -/
set_option linter.unusedTactic false
set_option linter.unreachableTactic false
set_option linter.unusedVariables false
namespace Sys2Proof.Machine

theorem State.setMstate_keeps {km kf ku : Bool} {s₀ : State} (s : State) (g n : Nat) (hk : Keeps km kf ku s₀ s) :
    Keeps km kf ku s₀ (State.setMstate s g n) := by
  unfold State.setMstate
  repeat' (
    first
    | with_reducible assumption | with_reducible apply State.wr_keeps | with_reducible apply Keeps.ite | intro _ _ _ _ _
    | intro _ _ _ _ | intro _ _ _ | intro _ _ | split | with_reducible apply Keeps.fields)

theorem State.setMask_keeps {km kf ku : Bool} {s₀ : State} (s : State) (a : Nat) (f : Fld) (i : Nat) (hk : Keeps km kf ku s₀ s) :
    Keeps km kf ku s₀ (State.setMask s a f i) := by
  unfold State.setMask
  repeat' (
    first
    | with_reducible assumption | with_reducible apply State.wr_keeps | with_reducible apply Keeps.ite | intro _ _ _ _ _
    | intro _ _ _ _ | intro _ _ _ | intro _ _ | split | with_reducible apply Keeps.fields)

theorem State.clearMask_keeps {km kf ku : Bool} {s₀ : State} (s : State) (a : Nat) (f : Fld) (i : Nat) (hk : Keeps km kf ku s₀ s) :
    Keeps km kf ku s₀ (State.clearMask s a f i) := by
  unfold State.clearMask
  repeat' (
    first
    | with_reducible assumption | with_reducible apply State.wr_keeps | with_reducible apply Keeps.ite | intro _ _ _ _ _
    | intro _ _ _ _ | intro _ _ _ | intro _ _ | split | with_reducible apply Keeps.fields)

end Sys2Proof.Machine
end

