-- ==== Sys2Proof/Laws/KeepsWaypoint.lean ====
section
/-! SUPPORT. What the operations of Machine/Waypoint.lean keep (the relation Keeps). -/
set_option linter.unusedTactic false
set_option linter.unreachableTactic false
set_option linter.unusedVariables false
namespace Sys2Proof.Machine

theorem State.respond_keeps {km kf ku : Bool} {s₀ : State} (s : State) (r : Option Word) (hk : Keeps km kf ku s₀ s) :
    Keeps km kf ku s₀ (State.respond s r) := by
  unfold State.respond
  repeat' (
    first
    | with_reducible assumption | with_reducible apply Keeps.ite | intro _ _ _ _ _ | intro _ _ _ _ | intro _ _ _ | intro _ _
    | split | with_reducible apply Keeps.fields)

theorem State.wptDue_keeps {km kf ku : Bool} {s₀ : State} (s : State) (cause origin : Nat) (late : Bool) (hk : Keeps km kf ku s₀ s) :
    Keeps km kf ku s₀ (State.wptDue s cause origin late) := by
  unfold State.wptDue
  repeat' (
    first
    | with_reducible assumption | with_reducible apply Keeps.ite | intro _ _ _ _ _ | intro _ _ _ _ | intro _ _ _ | intro _ _
    | split | with_reducible apply Keeps.fields)

theorem State.wptWait_keeps {km kf ku : Bool} {s₀ : State} (s : State) (ring phase cause origin : Nat) (hk : Keeps km kf ku s₀ s) :
    Keeps km kf ku s₀ (State.wptWait s ring phase cause origin) := by
  unfold State.wptWait
  repeat' (
    first
    | with_reducible assumption | with_reducible apply Keeps.ite | intro _ _ _ _ _ | intro _ _ _ _ | intro _ _ _ | intro _ _
    | split | with_reducible apply Keeps.fields)

theorem State.wptTrigger_keeps {km kf ku : Bool} {s₀ : State} (s : State) (cause : Nat) (hk : Keeps km kf ku s₀ s) :
    Keeps km kf ku s₀ (State.wptTrigger s cause) := by
  unfold State.wptTrigger
  repeat' (
    first
    | with_reducible assumption | with_reducible apply State.inc_keeps | with_reducible apply State.toMembers_keeps
    | with_reducible apply State.wptDue_keeps | with_reducible apply State.wptWait_keeps | with_reducible apply Keeps.ite
    | intro _ _ _ _ _ | intro _ _ _ _ | intro _ _ _ | intro _ _ | split | with_reducible apply Keeps.fields)

theorem State.wptSource_keeps {km kf ku : Bool} {s₀ : State} (s : State) (b cause : Nat) (hk : Keeps km kf ku s₀ s) :
    Keeps km kf ku s₀ (State.wptSource s b cause) := by
  unfold State.wptSource
  repeat' (
    first
    | with_reducible assumption | with_reducible apply State.wptTrigger_keeps | with_reducible apply Keeps.ite | intro _ _ _ _ _
    | intro _ _ _ _ | intro _ _ _ | intro _ _ | split | with_reducible apply Keeps.fields)

theorem State.wptPoll_keeps {km kf ku : Bool} {s₀ : State} (s : State) (hk : Keeps km kf ku s₀ s) :
    Keeps km kf ku s₀ (State.wptPoll s) := by
  unfold State.wptPoll
  repeat' (
    first
    | with_reducible assumption | with_reducible apply Keeps.ite | intro _ _ _ _ _ | intro _ _ _ _ | intro _ _ _ | intro _ _
    | split | with_reducible apply Keeps.fields)

theorem State.wptCapture_keeps {km kf ku : Bool} {s₀ : State} (s : State) (p : WaypointPending) (hk : Keeps km kf ku s₀ s) :
    Keeps km kf ku s₀ (State.wptCapture s p) := by
  unfold State.wptCapture
  repeat' (
    first
    | with_reducible assumption | with_reducible apply State.flag_keeps | with_reducible apply State.record_keeps
    | with_reducible apply Keeps.setReg | with_reducible apply State.wr_keeps | with_reducible apply Keeps.each
    | with_reducible apply Keeps.ite | intro _ _ _ _ _ | intro _ _ _ _ | intro _ _ _ | intro _ _ | split | exact swf_filter _
    | exact id | with_reducible apply Keeps.fieldsRegs)

theorem State.writeWptCtl_keeps {km kf ku : Bool} {s₀ : State} (s : State) (v : Word) (hk : Keeps km kf ku s₀ s) :
    Keeps km kf ku s₀ (State.writeWptCtl s v) := by
  unfold State.writeWptCtl
  repeat' (
    first
    | with_reducible assumption | with_reducible apply Keeps.setReg | with_reducible apply State.wptTrigger_keeps
    | with_reducible apply Keeps.ite | intro _ _ _ _ _ | intro _ _ _ _ | intro _ _ _ | intro _ _ | split
    | with_reducible apply Keeps.fields)

theorem State.writeWptMap_keeps {km kf ku : Bool} {s₀ : State} (s : State) (a : Nat) (v : Word) (hk : Keeps km kf ku s₀ s) :
    Keeps km kf ku s₀ (State.writeWptMap s a v) := by
  unfold State.writeWptMap
  repeat' (
    first
    | with_reducible assumption | with_reducible apply State.record_keeps | with_reducible apply Keeps.setReg
    | with_reducible apply Keeps.ite | intro _ _ _ _ _ | intro _ _ _ _ | intro _ _ _ | intro _ _ | split
    | with_reducible apply Keeps.fields)

theorem execArm_keeps {km kf ku : Bool} (value : Word) (s : State) : OutKeeps km kf ku s (execArm value s) := by
  unfold execArm
  repeat' (
    first
    | with_reducible assumption | with_reducible exact Keeps.refl _ | with_reducible apply OutKeeps.next
    | with_reducible apply OutKeeps.ite | with_reducible apply State.writeWptCtl_keeps | with_reducible apply Keeps.inAo
    | with_reducible apply Keeps.ite | intro _ _ _ _ _ | intro _ _ _ _ | intro _ _ _ | intro _ _ | split
    | with_reducible apply Keeps.fields)

theorem execTrig_keeps {km kf ku : Bool} (s : State) : OutKeeps km kf ku s (execTrig s) := by
  unfold execTrig
  repeat' (
    first
    | with_reducible assumption | with_reducible exact Keeps.refl _ | with_reducible apply OutKeeps.next
    | with_reducible apply OutKeeps.ite | with_reducible apply State.wptTrigger_keeps | with_reducible apply Keeps.inAo
    | with_reducible apply Keeps.ite | intro _ _ _ _ _ | intro _ _ _ _ | intro _ _ _ | intro _ _ | split
    | with_reducible apply Keeps.fields)

theorem execWaypointIn_keeps {km kf ku : Bool} (s : State) : OutKeeps km kf ku s (execWaypointIn s) := by
  unfold execWaypointIn
  repeat' (
    first
    | with_reducible assumption | with_reducible exact Keeps.refl _ | with_reducible apply OutKeeps.next
    | with_reducible apply OutKeeps.ite | with_reducible apply State.wptSource_keeps | with_reducible apply Keeps.inAo
    | with_reducible apply Keeps.ite | intro _ _ _ _ _ | intro _ _ _ _ | intro _ _ _ | intro _ _ | split
    | with_reducible apply Keeps.fields)

theorem execWaypointMessage_keeps {km kf ku : Bool} (g : GladeId) (origin target : Nat) (gphase : BitVec 16) (s : State) :
    OutKeeps km kf ku s (execWaypointMessage g origin target gphase s) := by
  unfold execWaypointMessage
  repeat' (
    first
    | with_reducible assumption | with_reducible exact Keeps.refl _ | with_reducible apply OutKeeps.next
    | with_reducible apply OutKeeps.ite | with_reducible apply State.inc_keeps | with_reducible apply State.wptDue_keeps
    | with_reducible apply State.wptWait_keeps | with_reducible apply Keeps.inMain | with_reducible apply Keeps.ite
    | intro _ _ _ _ _ | intro _ _ _ _ | intro _ _ _ | intro _ _ | split | with_reducible apply Keeps.fields)

theorem execWaypointCapture_keeps {km kf ku : Bool} (s : State) : OutKeeps km kf ku s (execWaypointCapture s) := by
  unfold execWaypointCapture
  repeat' (
    first
    | with_reducible assumption | with_reducible exact Keeps.refl _ | with_reducible apply OutKeeps.next
    | with_reducible apply OutKeeps.ite | with_reducible apply State.wptCapture_keeps | with_reducible apply Keeps.inAo
    | with_reducible apply Keeps.ite | intro _ _ _ _ _ | intro _ _ _ _ | intro _ _ _ | intro _ _ | split
    | with_reducible apply Keeps.fields)

theorem execWaypointOutEnd_keeps {km kf ku : Bool} (s : State) : OutKeeps km kf ku s (execWaypointOutEnd s) := by
  unfold execWaypointOutEnd
  repeat' (
    first
    | with_reducible assumption | with_reducible exact Keeps.refl _ | with_reducible apply OutKeeps.next
    | with_reducible apply OutKeeps.ite | with_reducible apply Keeps.inAo | with_reducible apply Keeps.ite | intro _ _ _ _ _
    | intro _ _ _ _ | intro _ _ _ | intro _ _ | split | with_reducible apply Keeps.fields)

end Sys2Proof.Machine
end

