-- ==== Sys2Proof/Laws/KeepsRecorder.lean ====
section
/-! SUPPORT. What the operations of Machine/Recorder.lean keep (the relation Keeps). -/
set_option linter.unusedTactic false
set_option linter.unreachableTactic false
set_option linter.unusedVariables false
namespace Sys2Proof.Machine

theorem State.notice_keeps {km kf ku : Bool} {s₀ : State} (s : State) (kind sev : Nat) (body : List Byte) (hk : Keeps km kf ku s₀ s) :
    Keeps km kf ku s₀ (State.notice s kind sev body) := by
  unfold State.notice
  repeat' (
    first
    | with_reducible assumption | with_reducible apply State.inc_keeps | with_reducible apply State.wr_keeps
    | with_reducible apply Keeps.ite | intro _ _ _ _ _ | intro _ _ _ _ | intro _ _ _ | intro _ _ | split
    | with_reducible apply Keeps.fields)

theorem State.lastWords_keeps {km kf ku : Bool} {s₀ : State} (s : State) (r : Record) (hk : Keeps km kf ku s₀ s) :
    Keeps km kf ku s₀ (State.lastWords s r) := by
  unfold State.lastWords
  repeat' (
    first
    | with_reducible assumption | with_reducible apply State.inc_keeps | with_reducible apply Keeps.ite | intro _ _ _ _ _
    | intro _ _ _ _ | intro _ _ _ | intro _ _ | split | with_reducible apply Keeps.fields)

theorem State.moveRecord_keeps {km kf ku : Bool} {s₀ : State} (s : State) (hk : Keeps km kf ku s₀ s) :
    Keeps km kf ku s₀ (State.moveRecord s) := by
  unfold State.moveRecord
  repeat' (
    first
    | with_reducible assumption | with_reducible apply Keeps.ite | intro _ _ _ _ _ | intro _ _ _ _ | intro _ _ _ | intro _ _
    | split | with_reducible apply Keeps.fields)

theorem State.afterStore_keeps {km kf ku : Bool} {s₀ : State} (s : State) (r : Record) (hk : Keeps km kf ku s₀ s) :
    Keeps km kf ku s₀ (State.afterStore s r) := by
  unfold State.afterStore
  repeat' (
    first
    | with_reducible assumption | with_reducible apply State.lastWords_keeps | with_reducible apply State.notice_keeps
    | with_reducible apply State.setMask_keeps | with_reducible apply State.wptSource_keeps | with_reducible apply Keeps.ite
    | intro _ _ _ _ _ | intro _ _ _ _ | intro _ _ _ | intro _ _ | split | with_reducible apply Keeps.fields)

theorem State.appendRecord_keeps {km kf ku : Bool} {s₀ : State} (s : State) (r : Record) (hk : Keeps km kf ku s₀ s) :
    Keeps km kf ku s₀ (State.appendRecord s r) := by
  unfold State.appendRecord
  repeat' (
    first
    | with_reducible assumption | with_reducible apply State.afterStore_keeps | with_reducible apply Keeps.ite | intro _ _ _ _ _
    | intro _ _ _ _ | intro _ _ _ | intro _ _ | split | with_reducible apply Keeps.fields)

theorem State.storeRecord_keeps {km kf ku : Bool} {s₀ : State} (s : State) (hk : Keeps km kf ku s₀ s) :
    Keeps km kf ku s₀ (State.storeRecord s) := by
  unfold State.storeRecord
  repeat' (
    first
    | with_reducible assumption | with_reducible apply State.appendRecord_keeps | with_reducible apply State.inc_keeps
    | with_reducible apply Keeps.ite | intro _ _ _ _ _ | intro _ _ _ _ | intro _ _ _ | intro _ _ | split
    | with_reducible apply Keeps.fields)

theorem State.latchShown_keeps {km kf ku : Bool} {s₀ : State} (s : State) (hk : Keeps km kf ku s₀ s) :
    Keeps km kf ku s₀ (State.latchShown s) := by
  unfold State.latchShown
  repeat' (
    first
    | with_reducible assumption | with_reducible apply Keeps.ite | intro _ _ _ _ _ | intro _ _ _ _ | intro _ _ _ | intro _ _
    | split | with_reducible apply Keeps.fields)

theorem State.readWin_keeps {km kf ku : Bool} {s₀ : State} (s : State) (w : Nat) (hk : Keeps km kf ku s₀ s) :
    Keeps km kf ku s₀ (State.readWin s w) := by
  unfold State.readWin
  repeat' (
    first
    | with_reducible assumption | with_reducible apply State.latchShown_keeps | with_reducible apply State.respond_keeps
    | with_reducible apply Keeps.ite | intro _ _ _ _ _ | intro _ _ _ _ | intro _ _ _ | intro _ _ | split
    | with_reducible apply Keeps.fields)

theorem State.readWin3_keeps {km kf ku : Bool} {s₀ : State} (s : State) (hk : Keeps km kf ku s₀ s) :
    Keeps km kf ku s₀ (State.readWin3 s) := by
  unfold State.readWin3
  repeat' (
    first
    | with_reducible assumption | with_reducible apply State.add_keeps | with_reducible apply State.latchShown_keeps
    | with_reducible apply State.respond_keeps | with_reducible apply State.wr_keeps | with_reducible apply Keeps.ite
    | intro _ _ _ _ _ | intro _ _ _ _ | intro _ _ _ | intro _ _ | split | with_reducible apply Keeps.fields)

theorem State.writeCursor_keeps {km kf ku : Bool} {s₀ : State} (s : State) (v : Word) (hk : Keeps km kf ku s₀ s) :
    Keeps km kf ku s₀ (State.writeCursor s v) := by
  unfold State.writeCursor
  repeat' (
    first
    | with_reducible assumption | with_reducible apply State.wr_keeps | with_reducible apply Keeps.ite | intro _ _ _ _ _
    | intro _ _ _ _ | intro _ _ _ | intro _ _ | split | with_reducible apply Keeps.fields)

theorem execRecordQueue_keeps {km kf ku : Bool} (s : State) : OutKeeps km kf ku s (execRecordQueue s) := by
  unfold execRecordQueue
  repeat' (
    first
    | with_reducible assumption | with_reducible exact Keeps.refl _ | with_reducible apply OutKeeps.next
    | with_reducible apply OutKeeps.ite | with_reducible apply State.moveRecord_keeps | with_reducible apply Keeps.inAo
    | with_reducible apply Keeps.ite | intro _ _ _ _ _ | intro _ _ _ _ | intro _ _ _ | intro _ _ | split
    | with_reducible apply Keeps.fields)

theorem execWindowRead_keeps {km kf ku : Bool} (w : Fin 3) (s : State) : OutKeeps km kf ku s (execWindowRead w s) := by
  unfold execWindowRead
  repeat' (
    first
    | with_reducible assumption | with_reducible exact Keeps.refl _ | with_reducible apply OutKeeps.next
    | with_reducible apply OutKeeps.ite | with_reducible apply State.readWin_keeps | with_reducible apply Keeps.inAo
    | with_reducible apply Keeps.ite | intro _ _ _ _ _ | intro _ _ _ _ | intro _ _ _ | intro _ _ | split
    | with_reducible apply Keeps.fields)

theorem execWindowAdvance_keeps {km kf ku : Bool} (s : State) : OutKeeps km kf ku s (execWindowAdvance s) := by
  unfold execWindowAdvance
  repeat' (
    first
    | with_reducible assumption | with_reducible exact Keeps.refl _ | with_reducible apply OutKeeps.next
    | with_reducible apply OutKeeps.ite | with_reducible apply State.readWin3_keeps | with_reducible apply Keeps.inAo
    | with_reducible apply Keeps.ite | intro _ _ _ _ _ | intro _ _ _ _ | intro _ _ _ | intro _ _ | split
    | with_reducible apply Keeps.fields)

theorem execCursorWrite_keeps {km kf ku : Bool} (value : Word) (s : State) : OutKeeps km kf ku s (execCursorWrite value s) := by
  unfold execCursorWrite
  repeat' (
    first
    | with_reducible assumption | with_reducible exact Keeps.refl _ | with_reducible apply OutKeeps.next
    | with_reducible apply OutKeeps.ite | with_reducible apply State.writeCursor_keeps | with_reducible apply Keeps.inAo
    | with_reducible apply Keeps.ite | intro _ _ _ _ _ | intro _ _ _ _ | intro _ _ _ | intro _ _ | split
    | with_reducible apply Keeps.fields)

end Sys2Proof.Machine
end

