-- ==== Sys2Proof/Laws/KeepsPhase.lean ====
section
/-! SUPPORT. What the operations of Machine/Phase.lean keep (the relation Keeps). -/
set_option linter.unusedTactic false
set_option linter.unreachableTactic false
set_option linter.unusedVariables false
namespace Sys2Proof.Machine

theorem State.setHold_keeps {km kf ku : Bool} {s₀ : State} (s : State) (g : Nat) (b : Bool) (hk : Keeps km kf ku s₀ s) :
    Keeps km kf ku s₀ (State.setHold s g b) := by
  unfold State.setHold
  repeat' (
    first
    | with_reducible assumption | with_reducible apply State.flag_keeps | with_reducible apply Keeps.ite | intro _ _ _ _ _
    | intro _ _ _ _ | intro _ _ _ | intro _ _ | split | with_reducible apply Keeps.fields)

theorem State.rematch_keeps {km kf ku : Bool} {s₀ : State} (s : State) (g : Nat) (wrapped : Bool) (hk : Keeps km kf ku s₀ s) :
    Keeps km kf ku s₀ (State.rematch s g wrapped) := by
  unfold State.rematch
  repeat' (
    first
    | with_reducible assumption | with_reducible apply State.flag_keeps | with_reducible apply State.wptSource_keeps
    | with_reducible apply State.wr_keeps | with_reducible apply Keeps.ite | intro _ _ _ _ _ | intro _ _ _ _ | intro _ _ _
    | intro _ _ | split | with_reducible apply Keeps.fields)

theorem State.setPhase_keeps {km kf ku : Bool} {s₀ : State} (s : State) (g v : Nat) (wrapped : Bool) (hk : Keeps km kf ku s₀ s) :
    Keeps km kf ku s₀ (State.setPhase s g v wrapped) := by
  unfold State.setPhase
  repeat' (
    first
    | with_reducible assumption | with_reducible apply State.rematch_keeps | with_reducible apply State.wptPoll_keeps
    | with_reducible apply State.wr_keeps | with_reducible apply Keeps.ite | intro _ _ _ _ _ | intro _ _ _ _ | intro _ _ _
    | intro _ _ | split | with_reducible apply Keeps.fields)

theorem State.wrap_keeps {km kf ku : Bool} {s₀ : State} (s : State) (g : Nat) (hk : Keeps km kf ku s₀ s) :
    Keeps km kf ku s₀ (State.wrap s g) := by
  unfold State.wrap
  repeat' (
    first
    | with_reducible assumption | with_reducible apply State.record_keeps | with_reducible apply State.setHold_keeps
    | with_reducible apply State.updGl_keeps | with_reducible apply State.wr_keeps | with_reducible apply Keeps.ite
    | intro _ _ _ _ _ | intro _ _ _ _ | intro _ _ _ | intro _ _ | split | with_reducible apply Keeps.fields)

theorem State.advance_keeps {km kf ku : Bool} {s₀ : State} (s : State) (v : Nat) (hk : Keeps km kf ku s₀ s) :
    Keeps km kf ku s₀ (State.advance s v) := by
  unfold State.advance
  repeat' (
    first
    | with_reducible assumption | with_reducible apply State.inc_keeps | with_reducible apply State.record_keeps
    | with_reducible apply State.setPhase_keeps | with_reducible apply State.wrap_keeps | with_reducible apply Keeps.ite
    | intro _ _ _ _ _ | intro _ _ _ _ | intro _ _ _ | intro _ _ | split | with_reducible apply Keeps.fields)

theorem State.writePhsAdv_keeps {km kf ku : Bool} {s₀ : State} (s : State) (v : Word) (hk : Keeps km kf ku s₀ s) :
    Keeps km kf ku s₀ (State.writePhsAdv s v) := by
  unfold State.writePhsAdv
  repeat' (
    first
    | with_reducible assumption | with_reducible apply State.advance_keeps | with_reducible apply State.inc_keeps
    | with_reducible apply State.record_keeps | with_reducible apply Keeps.ite | intro _ _ _ _ _ | intro _ _ _ _ | intro _ _ _
    | intro _ _ | split | with_reducible apply Keeps.fields)

theorem State.writePhsSel_keeps {km kf ku : Bool} {s₀ : State} (s : State) (v : Word) (hk : Keeps km kf ku s₀ s) :
    Keeps km kf ku s₀ (State.writePhsSel s v) := by
  unfold State.writePhsSel
  repeat' (
    first
    | with_reducible assumption | with_reducible apply State.record_keeps | with_reducible apply State.rematch_keeps
    | with_reducible apply State.wr_keeps | with_reducible apply Keeps.ite | intro _ _ _ _ _ | intro _ _ _ _ | intro _ _ _
    | intro _ _ | split | with_reducible apply Keeps.fields)

theorem State.writePhsTbl_keeps {km kf ku : Bool} {s₀ : State} (s : State) (e : Nat) (v : Word) (hk : Keeps km kf ku s₀ s) :
    Keeps km kf ku s₀ (State.writePhsTbl s e v) := by
  unfold State.writePhsTbl
  repeat' (
    first
    | with_reducible assumption | with_reducible apply State.rematch_keeps | with_reducible apply Keeps.setReg
    | with_reducible apply Keeps.each | with_reducible apply Keeps.ite | intro _ _ _ _ _ | intro _ _ _ _ | intro _ _ _
    | intro _ _ | split | with_reducible apply Keeps.fields)

theorem State.writePhsGseg_keeps {km kf ku : Bool} {s₀ : State} (s : State) (g : Nat) (v : Word) (hk : Keeps km kf ku s₀ s) :
    Keeps km kf ku s₀ (State.writePhsGseg s g v) := by
  unfold State.writePhsGseg
  repeat' (
    first
    | with_reducible assumption | with_reducible apply State.rematch_keeps | with_reducible apply Keeps.setReg
    | with_reducible apply Keeps.ite | intro _ _ _ _ _ | intro _ _ _ _ | intro _ _ _ | intro _ _ | split
    | with_reducible apply Keeps.fields)

theorem State.resetPhase_keeps {km kf ku : Bool} {s₀ : State} (s : State) (g : Nat) (hk : Keeps km kf ku s₀ s) :
    Keeps km kf ku s₀ (State.resetPhase s g) := by
  unfold State.resetPhase
  repeat' (
    first
    | with_reducible assumption | with_reducible apply State.setHold_keeps | with_reducible apply State.setPhase_keeps
    | with_reducible apply State.updGl_keeps | with_reducible apply Keeps.ite | intro _ _ _ _ _ | intro _ _ _ _ | intro _ _ _
    | intro _ _ | split | with_reducible apply Keeps.fields)

theorem execPhaseStrobe_keeps {km kf ku : Bool} (value : BitVec 16) (s : State) :
    OutKeeps km kf ku s (execPhaseStrobe value s) := by
  unfold execPhaseStrobe
  repeat' (
    first
    | with_reducible assumption | with_reducible exact Keeps.refl _ | with_reducible apply OutKeeps.next
    | with_reducible apply OutKeeps.ite | with_reducible apply State.advance_keeps | with_reducible apply State.inc_keeps
    | with_reducible apply Keeps.inMain | with_reducible apply Keeps.ite | intro _ _ _ _ _ | intro _ _ _ _ | intro _ _ _
    | intro _ _ | split | with_reducible apply Keeps.fields)

theorem execPhsAdv_keeps {km kf ku : Bool} (value : Word) (s : State) : OutKeeps km kf ku s (execPhsAdv value s) := by
  unfold execPhsAdv
  repeat' (
    first
    | with_reducible assumption | with_reducible exact Keeps.refl _ | with_reducible apply OutKeeps.next
    | with_reducible apply OutKeeps.ite | with_reducible apply State.writePhsAdv_keeps | with_reducible apply Keeps.inMain
    | with_reducible apply Keeps.ite | intro _ _ _ _ _ | intro _ _ _ _ | intro _ _ _ | intro _ _ | split
    | with_reducible apply Keeps.fields)

theorem execPhsSelWrite_keeps {km kf ku : Bool} (value : Word) (s : State) : OutKeeps km kf ku s (execPhsSelWrite value s) := by
  unfold execPhsSelWrite
  repeat' (
    first
    | with_reducible assumption | with_reducible exact Keeps.refl _ | with_reducible apply OutKeeps.next
    | with_reducible apply OutKeeps.ite | with_reducible apply State.writePhsSel_keeps | with_reducible apply Keeps.inMain
    | with_reducible apply Keeps.ite | intro _ _ _ _ _ | intro _ _ _ _ | intro _ _ _ | intro _ _ | split
    | with_reducible apply Keeps.fields)

theorem execPhaseTableWrite_keeps {km kf ku : Bool} (segment : Bool) (index : Fin 64) (value : Word) (s : State) :
    OutKeeps km kf ku s (execPhaseTableWrite segment index value s) := by
  unfold execPhaseTableWrite
  repeat' (
    first
    | with_reducible assumption | with_reducible exact Keeps.refl _ | with_reducible apply OutKeeps.next
    | with_reducible apply OutKeeps.ite | with_reducible apply State.writePhsGseg_keeps
    | with_reducible apply State.writePhsTbl_keeps | with_reducible apply Keeps.inMain | with_reducible apply Keeps.ite
    | intro _ _ _ _ _ | intro _ _ _ _ | intro _ _ _ | intro _ _ | split | with_reducible apply Keeps.fields)

end Sys2Proof.Machine
end

