-- ==== Sys2Proof/Laws/KeepsOperands.lean ====
section
/-! SUPPORT. What the operations of Machine/Operands.lean keep (the relation Keeps). -/
set_option linter.unusedTactic false
set_option linter.unreachableTactic false
set_option linter.unusedVariables false
namespace Sys2Proof.Machine

theorem State.plainWrite_keeps {km kf ku : Bool} {s₀ : State} (s : State) (a : Nat) (v : Word) (hk : Keeps km kf ku s₀ s) :
    Keeps km kf ku s₀ (State.plainWrite s a v) := by
  unfold State.plainWrite
  repeat' (
    first
    | with_reducible assumption | with_reducible apply Keeps.setReg | with_reducible apply Keeps.ite | intro _ _ _ _ _
    | intro _ _ _ _ | intro _ _ _ | intro _ _ | split | with_reducible apply Keeps.fields)

theorem State.warnWrite_keeps {km kf ku : Bool} {s₀ : State} (s : State) (src unit a : Nat) (v : Word) (hk : Keeps km kf ku s₀ s) :
    Keeps km kf ku s₀ (State.warnWrite s src unit a v) := by
  unfold State.warnWrite
  repeat' (
    first
    | with_reducible assumption | with_reducible apply State.record_keeps | with_reducible apply Keeps.ite | intro _ _ _ _ _
    | intro _ _ _ _ | intro _ _ _ | intro _ _ | split | with_reducible apply Keeps.fields)

theorem State.guardedWrite_keeps {km kf ku : Bool} {s₀ : State} (s : State) (closed : Bool) (src unit a : Nat) (v : Word) (hk : Keeps km kf ku s₀ s) :
    Keeps km kf ku s₀ (State.guardedWrite s closed src unit a v) := by
  unfold State.guardedWrite
  repeat' (
    first
    | with_reducible assumption | with_reducible apply State.plainWrite_keeps | with_reducible apply State.warnWrite_keeps
    | with_reducible apply Keeps.ite | intro _ _ _ _ _ | intro _ _ _ _ | intro _ _ _ | intro _ _ | split
    | with_reducible apply Keeps.fields)

end Sys2Proof.Machine
end

