-- ==== Sys2Proof/Laws/KeepsSeal.lean ====
section
/-! SUPPORT. What the operations of Machine/Seal.lean keep (the relation Keeps). -/
set_option linter.unusedTactic false
set_option linter.unreachableTactic false
set_option linter.unusedVariables false
namespace Sys2Proof.Machine

theorem State.advanceEpoch_keeps {km kf ku : Bool} {s₀ : State} (s : State) (hk : Keeps km kf ku s₀ s) :
    Keeps km kf ku s₀ (State.advanceEpoch s) := by
  unfold State.advanceEpoch
  repeat' (
    first
    | with_reducible assumption | with_reducible apply State.record_keeps | with_reducible apply State.wr_keeps
    | with_reducible apply Keeps.ite | intro _ _ _ _ _ | intro _ _ _ _ | intro _ _ _ | intro _ _ | split
    | with_reducible apply Keeps.fields)

theorem State.tookSeal_keeps {km kf ku : Bool} {s₀ : State} (s : State) (hk : Keeps km kf ku s₀ s) :
    Keeps km kf ku s₀ (State.tookSeal s) := by
  unfold State.tookSeal
  repeat' (
    first
    | with_reducible assumption | with_reducible apply State.advanceEpoch_keeps | with_reducible apply Keeps.ite
    | intro _ _ _ _ _ | intro _ _ _ _ | intro _ _ _ | intro _ _ | split | with_reducible apply Keeps.fields)

end Sys2Proof.Machine
end

