-- ==== Sys2Proof/Laws/KeepsRows.lean ====
section
/-! SUPPORT. What the operations of Machine/Rows.lean keep (the relation Keeps). -/
set_option linter.unusedTactic false
set_option linter.unreachableTactic false
set_option linter.unusedVariables false
namespace Sys2Proof.Machine

theorem State.raiseExc_keeps {km kf ku : Bool} {s₀ : State} (s : State) (t : Nat) (e : Exc) (hk : Keeps km kf ku s₀ s) :
    Keeps km kf ku s₀ (State.raiseExc s t e) := by
  unfold State.raiseExc
  repeat' (
    first
    | with_reducible assumption | with_reducible apply Keeps.setReg | with_reducible apply Keeps.ite | intro _ _ _ _ _
    | intro _ _ _ _ | intro _ _ _ | intro _ _ | split | with_reducible apply Keeps.fields)

theorem State.countPass_keeps {km kf ku : Bool} {s₀ : State} (s : State) (t : Nat) (hk : Keeps km kf ku s₀ s) :
    Keeps km kf ku s₀ (State.countPass s t) := by
  unfold State.countPass
  repeat' (
    first
    | with_reducible assumption | with_reducible apply State.inc_keeps | with_reducible apply State.updTl_keeps
    | with_reducible apply Keeps.ite | intro _ _ _ _ _ | intro _ _ _ _ | intro _ _ _ | intro _ _ | split
    | with_reducible apply Keeps.fields)

theorem State.countGf_keeps {km kf ku : Bool} {s₀ : State} (s : State) (t n : Nat) (hk : Keeps km kf ku s₀ s) :
    Keeps km kf ku s₀ (State.countGf s t n) := by
  unfold State.countGf
  repeat' (
    first
    | with_reducible assumption | with_reducible apply State.add_keeps | with_reducible apply State.updTl_keeps
    | with_reducible apply Keeps.ite | intro _ _ _ _ _ | intro _ _ _ _ | intro _ _ _ | intro _ _ | split
    | with_reducible apply Keeps.fields)

theorem State.openContext_keeps {km kf ku : Bool} {s₀ : State} (s : State) (t g kind unit : Nat) (clearing : Bool) (hk : Keeps km kf ku s₀ s) :
    Keeps km kf ku s₀ (State.openContext s t g kind unit clearing) := by
  unfold State.openContext
  repeat' (
    first
    | with_reducible assumption | with_reducible apply State.raise_keeps | with_reducible apply State.updTl_keeps
    | with_reducible apply Keeps.ite | intro _ _ _ _ _ | intro _ _ _ _ | intro _ _ _ | intro _ _ | split
    | with_reducible apply Keeps.fields)

theorem State.closeContext_keeps {km kf ku : Bool} {s₀ : State} (s : State) (g kind unit : Nat) (hk : Keeps km kf ku s₀ s) :
    Keeps km kf ku s₀ (State.closeContext s g kind unit) := by
  unfold State.closeContext
  repeat' (
    first
    | with_reducible assumption | with_reducible apply State.updTl_keeps | with_reducible apply Keeps.each
    | with_reducible apply Keeps.ite | intro _ _ _ _ _ | intro _ _ _ _ | intro _ _ _ | intro _ _ | split
    | with_reducible apply Keeps.fields)

theorem State.refreshStale_keeps {km kf ku : Bool} {s₀ : State} (s : State) (g : Nat) (hk : Keeps km kf ku s₀ s) :
    Keeps km kf ku s₀ (State.refreshStale s g) := by
  unfold State.refreshStale
  repeat' (
    first
    | with_reducible assumption | with_reducible apply State.clearMask_keeps | with_reducible apply State.setMask_keeps
    | with_reducible apply Keeps.ite | intro _ _ _ _ _ | intro _ _ _ _ | intro _ _ _ | intro _ _ | split
    | with_reducible apply Keeps.fields)

theorem State.markStale_keeps {km kf ku : Bool} {s₀ : State} (s : State) (g p : Nat) (hk : Keeps km kf ku s₀ s) :
    Keeps km kf ku s₀ (State.markStale s g p) := by
  unfold State.markStale
  repeat' (
    first
    | with_reducible assumption | with_reducible apply State.refreshStale_keeps | with_reducible apply State.updGl_keeps
    | with_reducible apply Keeps.ite | intro _ _ _ _ _ | intro _ _ _ _ | intro _ _ _ | intro _ _ | split
    | with_reducible apply Keeps.fields)

theorem State.dropFrame_keeps {km kf ku : Bool} {s₀ : State} (s : State) (g : Nat) (next : Bool) (p : Nat) (hk : Keeps km kf ku s₀ s) :
    Keeps km kf ku s₀ (State.dropFrame s g next p) := by
  unfold State.dropFrame
  repeat' (
    first
    | with_reducible assumption | with_reducible apply Keeps.ite | intro _ _ _ _ _ | intro _ _ _ _ | intro _ _ _ | intro _ _
    | split | with_reducible apply Keeps.fields)

theorem State.dropFold_keeps {km kf ku : Bool} {s₀ : State} (s : State) (g : Nat) (next : Bool) (p : Nat) (hk : Keeps km kf ku s₀ s) :
    Keeps km kf ku s₀ (State.dropFold s g next p) := by
  unfold State.dropFold
  repeat' (
    first
    | with_reducible assumption | with_reducible apply State.dropFrame_keeps | with_reducible apply State.updGl_keeps
    | with_reducible apply Keeps.ite | intro _ _ _ _ _ | intro _ _ _ _ | intro _ _ _ | intro _ _ | split
    | with_reducible apply Keeps.fields)

theorem State.spoilUnit_keeps {km kf ku : Bool} {s₀ : State} (s : State) (g x u : Nat) (hk : Keeps km kf ku s₀ s) :
    Keeps km kf ku s₀ (State.spoilUnit s g x u) := by
  unfold State.spoilUnit
  repeat' (
    first
    | with_reducible assumption | with_reducible apply State.dropFold_keeps | with_reducible apply State.markStale_keeps
    | with_reducible apply State.updGl_keeps | with_reducible apply Keeps.each | with_reducible apply Keeps.ite
    | intro _ _ _ _ _ | intro _ _ _ _ | intro _ _ _ | intro _ _ | split | with_reducible apply Keeps.fields)

theorem State.awaitUnit_keeps {km kf ku : Bool} {s₀ : State} (s : State) (q g x u : Nat) (hk : Keeps km kf ku s₀ s) :
    Keeps km kf ku s₀ (State.awaitUnit s q g x u) := by
  unfold State.awaitUnit
  repeat' (
    first
    | with_reducible assumption | with_reducible apply State.spoilUnit_keeps | with_reducible apply State.updPt_keeps
    | with_reducible apply Keeps.ite | intro _ _ _ _ _ | intro _ _ _ _ | intro _ _ _ | intro _ _ | split
    | with_reducible apply Keeps.fields)

theorem State.awaitLeaf_keeps {km kf ku : Bool} {s₀ : State} (s : State) (g v : Nat) (hk : Keeps km kf ku s₀ s) :
    Keeps km kf ku s₀ (State.awaitLeaf s g v) := by
  unfold State.awaitLeaf
  repeat' (
    first
    | with_reducible assumption | with_reducible apply State.updGl_keeps | with_reducible apply State.updPt_keeps
    | with_reducible apply Keeps.ite | intro _ _ _ _ _ | intro _ _ _ _ | intro _ _ _ | intro _ _ | split
    | with_reducible apply Keeps.fields)

theorem State.roundAgain_keeps {kf ku : Bool} {s₀ : State} (s : State) (g t : Nat) (hk : Keeps true kf ku s₀ s) :
    Keeps true kf ku s₀ (State.roundAgain s g t) := by
  unfold State.roundAgain
  repeat' (
    first
    | with_reducible assumption | with_reducible apply Keeps.writeBytes | with_reducible apply Keeps.ite | intro _ _ _ _ _
    | intro _ _ _ _ | intro _ _ _ | intro _ _ | split | with_reducible apply Keeps.fields)

theorem State.rememberLedger_keeps {km kf ku : Bool} {s₀ : State} (s : State) (g e : Nat) (hk : Keeps km kf ku s₀ s) :
    Keeps km kf ku s₀ (State.rememberLedger s g e) := by
  unfold State.rememberLedger
  repeat' (
    first
    | with_reducible assumption | with_reducible apply State.updGl_keeps | with_reducible apply Keeps.ite | intro _ _ _ _ _
    | intro _ _ _ _ | intro _ _ _ | intro _ _ | split | with_reducible apply Keeps.fields)

theorem State.setLag_keeps {kf ku : Bool} {s₀ : State} (s : State) (g t : Nat) (hk : Keeps true kf ku s₀ s) :
    Keeps true kf ku s₀ (State.setLag s g t) := by
  unfold State.setLag
  repeat' (
    first
    | with_reducible assumption | with_reducible apply State.inc_keeps | with_reducible apply State.rememberLedger_keeps
    | with_reducible apply Keeps.writeBytes | with_reducible apply Keeps.ite | intro _ _ _ _ _ | intro _ _ _ _ | intro _ _ _
    | intro _ _ | split | with_reducible apply Keeps.fields)

theorem State.bufferLost_keeps {kf ku : Bool} {s₀ : State} (s : State) (g t : Nat) (hk : Keeps true kf ku s₀ s) :
    Keeps true kf ku s₀ (State.bufferLost s g t) := by
  unfold State.bufferLost
  repeat' (
    first
    | with_reducible assumption | with_reducible apply State.record_keeps | with_reducible apply State.setLag_keeps
    | with_reducible apply State.updGl_keeps | with_reducible apply State.wr_keeps | with_reducible apply Keeps.ite
    | intro _ _ _ _ _ | intro _ _ _ _ | intro _ _ _ | intro _ _ | split | with_reducible apply Keeps.fields)

theorem State.lineFailed_keeps {kf ku : Bool} {s₀ : State} (s : State) (q o : Nat) (hk : Keeps true kf ku s₀ s) :
    Keeps true kf ku s₀ (State.lineFailed s q o) := by
  unfold State.lineFailed
  repeat' (
    first
    | with_reducible assumption | with_reducible apply State.awaitUnit_keeps | with_reducible apply State.bufferLost_keeps
    | with_reducible apply State.record_keeps | with_reducible apply State.roundAgain_keeps | with_reducible apply Keeps.ite
    | intro _ _ _ _ _ | intro _ _ _ _ | intro _ _ _ | intro _ _ | split | with_reducible apply Keeps.fields)

theorem State.readFailed_keeps {kf ku : Bool} {s₀ : State} (s : State) (o : Nat) (hk : Keeps true kf ku s₀ s) :
    Keeps true kf ku s₀ (State.readFailed s o) := by
  unfold State.readFailed
  repeat' (
    first
    | with_reducible assumption | with_reducible apply State.inc_keeps | with_reducible apply State.lineFailed_keeps
    | with_reducible apply Keeps.ite | intro _ _ _ _ _ | intro _ _ _ _ | intro _ _ _ | intro _ _ | split
    | with_reducible apply Keeps.fields)

theorem State.readCheck_keeps {kf ku : Bool} {s₀ : State} (s : State) (o n : Nat) (hk : Keeps true kf ku s₀ s) :
    Keeps true kf ku s₀ (State.readCheck s o n) := by
  unfold State.readCheck
  repeat' (
    first
    | with_reducible assumption | with_reducible apply State.readFailed_keeps | with_reducible apply Keeps.each
    | with_reducible apply Keeps.ite | intro _ _ _ _ _ | intro _ _ _ _ | intro _ _ _ | intro _ _ | split
    | with_reducible apply Keeps.fields)

theorem State.writeFailed_keeps {kf ku : Bool} {s₀ : State} (s : State) (o : Nat) (hk : Keeps true kf ku s₀ s) :
    Keeps true kf ku s₀ (State.writeFailed s o) := by
  unfold State.writeFailed
  repeat' (
    first
    | with_reducible assumption | with_reducible apply State.add_keeps | with_reducible apply State.lineFailed_keeps
    | with_reducible apply Keeps.ite | intro _ _ _ _ _ | intro _ _ _ _ | intro _ _ _ | intro _ _ | split
    | with_reducible apply Keeps.fields)

theorem State.store_keeps {kf ku : Bool} {s₀ : State} (s : State) (o : Nat) (l : List Byte) (hk : Keeps true kf ku s₀ s) :
    Keeps true kf ku s₀ (State.store s o l) := by
  unfold State.store
  repeat' (
    first
    | with_reducible assumption | with_reducible apply Keeps.writeBytes | with_reducible apply State.writeFailed_keeps
    | with_reducible apply Keeps.each | with_reducible apply Keeps.ite | intro _ _ _ _ _ | intro _ _ _ _ | intro _ _ _
    | intro _ _ | split | with_reducible apply Keeps.fields)

theorem State.refreshEras_keeps {km kf ku : Bool} {s₀ : State} (s : State) (g : Nat) (hk : Keeps km kf ku s₀ s) :
    Keeps km kf ku s₀ (State.refreshEras s g) := by
  unfold State.refreshEras
  repeat' (
    first
    | with_reducible assumption | with_reducible apply State.wr_keeps | with_reducible apply Keeps.ite | intro _ _ _ _ _
    | intro _ _ _ _ | intro _ _ _ | intro _ _ | split | with_reducible apply Keeps.fields)

theorem State.seedWrite_keeps {kf ku : Bool} {s₀ : State} (s : State) (g : Nat) (rec : List Byte) (hk : Keeps true kf ku s₀ s) :
    Keeps true kf ku s₀ (State.seedWrite s g rec) := by
  unfold State.seedWrite
  repeat' (
    first
    | with_reducible assumption | with_reducible apply State.charge_keeps | with_reducible apply State.store_keeps
    | with_reducible apply State.wr_keeps | with_reducible apply Keeps.ite | intro _ _ _ _ _ | intro _ _ _ _ | intro _ _ _
    | intro _ _ | split | with_reducible apply Keeps.fields)

theorem State.seedRequest_keeps {kf ku : Bool} {s₀ : State} (s : State) (g l b : Nat) (hk : Keeps true kf ku s₀ s) :
    Keeps true kf ku s₀ (State.seedRequest s g l b) := by
  unfold State.seedRequest
  repeat' (
    first
    | with_reducible assumption | with_reducible apply State.seedWrite_keeps | with_reducible apply State.tookSeal_keeps
    | with_reducible apply Keeps.ite | intro _ _ _ _ _ | intro _ _ _ _ | intro _ _ _ | intro _ _ | split
    | with_reducible apply Keeps.fields)

theorem State.wantBlock_keeps {kf ku : Bool} {s₀ : State} (s : State) (g row : Nat) (lb : Nat × Nat) (hk : Keeps true kf ku s₀ s) :
    Keeps true kf ku s₀ (State.wantBlock s g row lb) := by
  unfold State.wantBlock
  repeat' (
    first
    | with_reducible assumption | with_reducible apply State.seedRequest_keeps | with_reducible apply State.updGl_keeps
    | with_reducible apply State.wr_keeps | with_reducible apply Keeps.ite | intro _ _ _ _ _ | intro _ _ _ _ | intro _ _ _
    | intro _ _ | split | with_reducible apply Keeps.fields)

theorem State.countDead_keeps {kf ku : Bool} {s₀ : State} (s : State) (g row : Nat) (hk : Keeps true kf ku s₀ s) :
    Keeps true kf ku s₀ (State.countDead s g row) := by
  unfold State.countDead
  repeat' (
    first
    | with_reducible assumption | with_reducible apply State.inc_keeps | with_reducible apply State.updGl_keeps
    | with_reducible apply State.wantBlock_keeps | with_reducible apply Keeps.each | with_reducible apply Keeps.ite
    | intro _ _ _ _ _ | intro _ _ _ _ | intro _ _ _ | intro _ _ | split | with_reducible apply Keeps.fields)

theorem State.findDead_keeps {kf ku : Bool} {s₀ : State} (s : State) (g row : Nat) (hk : Keeps true kf ku s₀ s) :
    Keeps true kf ku s₀ (State.findDead s g row) := by
  unfold State.findDead
  repeat' (
    first
    | with_reducible assumption | with_reducible apply State.countDead_keeps | with_reducible apply State.record_keeps
    | with_reducible apply State.toMembers_keeps | with_reducible apply Keeps.ite | intro _ _ _ _ _ | intro _ _ _ _
    | intro _ _ _ | intro _ _ | split | with_reducible apply Keeps.fields)

theorem State.checkRow_keeps {kf ku : Bool} {s₀ : State} (s : State) (g row : Nat) (hk : Keeps true kf ku s₀ s) :
    Keeps true kf ku s₀ (State.checkRow s g row) := by
  unfold State.checkRow
  repeat' (
    first
    | with_reducible assumption | with_reducible apply State.findDead_keeps | with_reducible apply Keeps.ite | intro _ _ _ _ _
    | intro _ _ _ _ | intro _ _ _ | intro _ _ | split | with_reducible apply Keeps.fields)

end Sys2Proof.Machine
end

