-- ==== Sys2Proof/Laws/KeepsStepProgram.lean ====
section
/-! SUPPORT. What the operations of Machine/StepProgram.lean keep (the relation Keeps). -/
set_option linter.unusedTactic false
set_option linter.unreachableTactic false
set_option linter.unusedVariables false
namespace Sys2Proof.Machine

theorem State.laneStep_keeps {km kf ku : Bool} {s₀ : State} (s : State) (o : LaneOp) (hk : Keeps km kf ku s₀ s) :
    Keeps km kf ku s₀ (State.laneStep s o) := by
  unfold State.laneStep
  repeat' (
    first
    | with_reducible assumption | with_reducible apply Keeps.inMain | with_reducible apply Keeps.ite | intro _ _ _ _ _
    | intro _ _ _ _ | intro _ _ _ | intro _ _ | split | with_reducible apply Keeps.fields)

theorem State.writeSlot_keeps {km kf ku : Bool} {s₀ : State} (s : State) (slot : Nat) (v : Word) (hk : Keeps km kf ku s₀ s) :
    Keeps km kf ku s₀ (State.writeSlot s slot v) := by
  unfold State.writeSlot
  repeat' (
    first
    | with_reducible assumption | with_reducible apply State.guardedWrite_keeps | with_reducible apply Keeps.ite
    | intro _ _ _ _ _ | intro _ _ _ _ | intro _ _ _ | intro _ _ | split | with_reducible apply Keeps.fields)

theorem State.writePmem_keeps {km kf ku : Bool} {s₀ : State} (s : State) (w : Nat) (v : Word) (hk : Keeps km kf ku s₀ s) :
    Keeps km kf ku s₀ (State.writePmem s w v) := by
  unfold State.writePmem
  repeat' (
    first
    | with_reducible assumption | with_reducible apply State.guardedWrite_keeps | with_reducible apply Keeps.ite
    | intro _ _ _ _ _ | intro _ _ _ _ | intro _ _ _ | intro _ _ | split | with_reducible apply Keeps.fields)

theorem State.loadPrograms_keeps {km kf ku : Bool} {s₀ : State} (s : State) (hk : Keeps km kf ku s₀ s) :
    Keeps km kf ku s₀ (State.loadPrograms s) := by
  unfold State.loadPrograms
  repeat' (
    first
    | with_reducible assumption | with_reducible apply Keeps.setReg | with_reducible apply Keeps.each
    | with_reducible apply Keeps.ite | intro _ _ _ _ _ | intro _ _ _ _ | intro _ _ _ | intro _ _ | split
    | with_reducible apply Keeps.fields)

theorem execStepEnd_keeps {km kf ku : Bool} (s : State) : OutKeeps km kf ku s (execStepEnd s) := by
  unfold execStepEnd
  repeat' (
    first
    | with_reducible assumption | with_reducible exact Keeps.refl _ | with_reducible apply OutKeeps.next
    | with_reducible apply OutKeeps.ite | with_reducible apply State.laneStep_keeps | with_reducible apply Keeps.ite
    | intro _ _ _ _ _ | intro _ _ _ _ | intro _ _ _ | intro _ _ | split | with_reducible apply Keeps.fields)

theorem execStepLd_keeps {km kf ku : Bool} (d : Fin 16) (cls : Fin 4) (s : State) :
    OutKeeps km kf ku s (execStepLd d cls s) := by
  unfold execStepLd
  repeat' (
    first
    | with_reducible assumption | with_reducible exact Keeps.refl _ | with_reducible apply OutKeeps.next
    | with_reducible apply OutKeeps.ite | with_reducible apply State.laneStep_keeps | with_reducible apply Keeps.ite
    | intro _ _ _ _ _ | intro _ _ _ _ | intro _ _ _ | intro _ _ | split | with_reducible apply Keeps.fields)

theorem execStepSt_keeps {km kf ku : Bool} (cls : Fin 3) (a : Operand) (s : State) :
    OutKeeps km kf ku s (execStepSt cls a s) := by
  unfold execStepSt
  repeat' (
    first
    | with_reducible assumption | with_reducible exact Keeps.refl _ | with_reducible apply OutKeeps.next
    | with_reducible apply OutKeeps.ite | with_reducible apply State.laneStep_keeps | with_reducible apply Keeps.ite
    | intro _ _ _ _ _ | intro _ _ _ _ | intro _ _ _ | intro _ _ | split | with_reducible apply Keeps.fields)

theorem execStepAdd_keeps {km kf ku : Bool} (d : Fin 16) (a b : Operand) (s : State) :
    OutKeeps km kf ku s (execStepAdd d a b s) := by
  unfold execStepAdd
  repeat' (
    first
    | with_reducible assumption | with_reducible exact Keeps.refl _ | with_reducible apply OutKeeps.next
    | with_reducible apply OutKeeps.ite | with_reducible apply State.laneStep_keeps | with_reducible apply Keeps.ite
    | intro _ _ _ _ _ | intro _ _ _ _ | intro _ _ _ | intro _ _ | split | with_reducible apply Keeps.fields)

theorem execStepSub_keeps {km kf ku : Bool} (d : Fin 16) (a b : Operand) (s : State) :
    OutKeeps km kf ku s (execStepSub d a b s) := by
  unfold execStepSub
  repeat' (
    first
    | with_reducible assumption | with_reducible exact Keeps.refl _ | with_reducible apply OutKeeps.next
    | with_reducible apply OutKeeps.ite | with_reducible apply State.laneStep_keeps | with_reducible apply Keeps.ite
    | intro _ _ _ _ _ | intro _ _ _ _ | intro _ _ _ | intro _ _ | split | with_reducible apply Keeps.fields)

theorem execStepMul_keeps {km kf ku : Bool} (d : Fin 16) (a b : Operand) (s : State) :
    OutKeeps km kf ku s (execStepMul d a b s) := by
  unfold execStepMul
  repeat' (
    first
    | with_reducible assumption | with_reducible exact Keeps.refl _ | with_reducible apply OutKeeps.next
    | with_reducible apply OutKeeps.ite | with_reducible apply State.laneStep_keeps | with_reducible apply Keeps.ite
    | intro _ _ _ _ _ | intro _ _ _ _ | intro _ _ _ | intro _ _ | split | with_reducible apply Keeps.fields)

theorem execStepFma_keeps {km kf ku : Bool} (d : Fin 16) (a b c : Operand) (s : State) :
    OutKeeps km kf ku s (execStepFma d a b c s) := by
  unfold execStepFma
  repeat' (
    first
    | with_reducible assumption | with_reducible exact Keeps.refl _ | with_reducible apply OutKeeps.next
    | with_reducible apply OutKeeps.ite | with_reducible apply State.laneStep_keeps | with_reducible apply Keeps.ite
    | intro _ _ _ _ _ | intro _ _ _ _ | intro _ _ _ | intro _ _ | split | with_reducible apply Keeps.fields)

theorem execStepFnma_keeps {km kf ku : Bool} (d : Fin 16) (a b c : Operand) (s : State) :
    OutKeeps km kf ku s (execStepFnma d a b c s) := by
  unfold execStepFnma
  repeat' (
    first
    | with_reducible assumption | with_reducible exact Keeps.refl _ | with_reducible apply OutKeeps.next
    | with_reducible apply OutKeeps.ite | with_reducible apply State.laneStep_keeps | with_reducible apply Keeps.ite
    | intro _ _ _ _ _ | intro _ _ _ _ | intro _ _ _ | intro _ _ | split | with_reducible apply Keeps.fields)

theorem execStepDiv_keeps {km kf ku : Bool} (d : Fin 16) (a b : Operand) (s : State) :
    OutKeeps km kf ku s (execStepDiv d a b s) := by
  unfold execStepDiv
  repeat' (
    first
    | with_reducible assumption | with_reducible exact Keeps.refl _ | with_reducible apply OutKeeps.next
    | with_reducible apply OutKeeps.ite | with_reducible apply State.laneStep_keeps | with_reducible apply Keeps.ite
    | intro _ _ _ _ _ | intro _ _ _ _ | intro _ _ _ | intro _ _ | split | with_reducible apply Keeps.fields)

theorem execStepSqrt_keeps {km kf ku : Bool} (d : Fin 16) (a : Operand) (s : State) :
    OutKeeps km kf ku s (execStepSqrt d a s) := by
  unfold execStepSqrt
  repeat' (
    first
    | with_reducible assumption | with_reducible exact Keeps.refl _ | with_reducible apply OutKeeps.next
    | with_reducible apply OutKeeps.ite | with_reducible apply State.laneStep_keeps | with_reducible apply Keeps.ite
    | intro _ _ _ _ _ | intro _ _ _ _ | intro _ _ _ | intro _ _ | split | with_reducible apply Keeps.fields)

theorem execStepMax_keeps {km kf ku : Bool} (d : Fin 16) (a b : Operand) (s : State) :
    OutKeeps km kf ku s (execStepMax d a b s) := by
  unfold execStepMax
  repeat' (
    first
    | with_reducible assumption | with_reducible exact Keeps.refl _ | with_reducible apply OutKeeps.next
    | with_reducible apply OutKeeps.ite | with_reducible apply State.laneStep_keeps | with_reducible apply Keeps.ite
    | intro _ _ _ _ _ | intro _ _ _ _ | intro _ _ _ | intro _ _ | split | with_reducible apply Keeps.fields)

theorem execStepMin_keeps {km kf ku : Bool} (d : Fin 16) (a b : Operand) (s : State) :
    OutKeeps km kf ku s (execStepMin d a b s) := by
  unfold execStepMin
  repeat' (
    first
    | with_reducible assumption | with_reducible exact Keeps.refl _ | with_reducible apply OutKeeps.next
    | with_reducible apply OutKeeps.ite | with_reducible apply State.laneStep_keeps | with_reducible apply Keeps.ite
    | intro _ _ _ _ _ | intro _ _ _ _ | intro _ _ _ | intro _ _ | split | with_reducible apply Keeps.fields)

theorem execStepSign_keeps {km kf ku : Bool} (d : Fin 16) (a : Operand) (s : State) :
    OutKeeps km kf ku s (execStepSign d a s) := by
  unfold execStepSign
  repeat' (
    first
    | with_reducible assumption | with_reducible exact Keeps.refl _ | with_reducible apply OutKeeps.next
    | with_reducible apply OutKeeps.ite | with_reducible apply State.laneStep_keeps | with_reducible apply Keeps.ite
    | intro _ _ _ _ _ | intro _ _ _ _ | intro _ _ _ | intro _ _ | split | with_reducible apply Keeps.fields)

theorem execStepSqacc0_keeps {km kf ku : Bool} (a : Operand) (s : State) : OutKeeps km kf ku s (execStepSqacc0 a s) := by
  unfold execStepSqacc0
  repeat' (
    first
    | with_reducible assumption | with_reducible exact Keeps.refl _ | with_reducible apply OutKeeps.next
    | with_reducible apply OutKeeps.ite | with_reducible apply State.laneStep_keeps | with_reducible apply Keeps.ite
    | intro _ _ _ _ _ | intro _ _ _ _ | intro _ _ _ | intro _ _ | split | with_reducible apply Keeps.fields)

theorem execStepSqacc1_keeps {km kf ku : Bool} (a : Operand) (s : State) : OutKeeps km kf ku s (execStepSqacc1 a s) := by
  unfold execStepSqacc1
  repeat' (
    first
    | with_reducible assumption | with_reducible exact Keeps.refl _ | with_reducible apply OutKeeps.next
    | with_reducible apply OutKeeps.ite | with_reducible apply State.laneStep_keeps | with_reducible apply Keeps.ite
    | intro _ _ _ _ _ | intro _ _ _ _ | intro _ _ _ | intro _ _ | split | with_reducible apply Keeps.fields)

theorem execStepMov_keeps {km kf ku : Bool} (d : Fin 16) (a : Operand) (s : State) :
    OutKeeps km kf ku s (execStepMov d a s) := by
  unfold execStepMov
  repeat' (
    first
    | with_reducible assumption | with_reducible exact Keeps.refl _ | with_reducible apply OutKeeps.next
    | with_reducible apply OutKeeps.ite | with_reducible apply State.laneStep_keeps | with_reducible apply Keeps.ite
    | intro _ _ _ _ _ | intro _ _ _ _ | intro _ _ _ | intro _ _ | split | with_reducible apply Keeps.fields)

theorem execProgramSlotWrite_keeps {km kf ku : Bool} (slot : Fin 256) (value : Word) (s : State) :
    OutKeeps km kf ku s (execProgramSlotWrite slot value s) := by
  unfold execProgramSlotWrite
  repeat' (
    first
    | with_reducible assumption | with_reducible exact Keeps.refl _ | with_reducible apply OutKeeps.next
    | with_reducible apply OutKeeps.ite | with_reducible apply State.writeSlot_keeps | with_reducible apply Keeps.inMain
    | with_reducible apply Keeps.ite | intro _ _ _ _ _ | intro _ _ _ _ | intro _ _ _ | intro _ _ | split
    | with_reducible apply Keeps.fields)

theorem execPmemWrite_keeps {km kf ku : Bool} (w : Fin 1024) (value : Word) (s : State) :
    OutKeeps km kf ku s (execPmemWrite w value s) := by
  unfold execPmemWrite
  repeat' (
    first
    | with_reducible assumption | with_reducible exact Keeps.refl _ | with_reducible apply OutKeeps.next
    | with_reducible apply OutKeeps.ite | with_reducible apply State.writePmem_keeps | with_reducible apply Keeps.inMain
    | with_reducible apply Keeps.ite | intro _ _ _ _ _ | intro _ _ _ _ | intro _ _ _ | intro _ _ | split
    | with_reducible apply Keeps.fields)

end Sys2Proof.Machine
end

