-- ==== Sys2Proof/Laws/KeepsGlade.lean ====
section
/-! SUPPORT. What the operations of Machine/Glade.lean keep (the relation Keeps). -/
set_option linter.unusedTactic false
set_option linter.unreachableTactic false
set_option linter.unusedVariables false
namespace Sys2Proof.Machine

theorem State.policyWarn_keeps {km kf ku : Bool} {s₀ : State} (s : State) (g : Nat) (f : Fld) (hk : Keeps km kf ku s₀ s) :
    Keeps km kf ku s₀ (State.policyWarn s g f) := by
  unfold State.policyWarn
  repeat' (
    first
    | with_reducible assumption | with_reducible apply State.record_keeps | with_reducible apply Keeps.ite | intro _ _ _ _ _
    | intro _ _ _ _ | intro _ _ _ | intro _ _ | split | with_reducible apply Keeps.fields)

theorem State.activate_keeps {km kf ku : Bool} {s₀ : State} (s : State) (g : Nat) (hk : Keeps km kf ku s₀ s) :
    Keeps km kf ku s₀ (State.activate s g) := by
  unfold State.activate
  repeat' (
    first
    | with_reducible assumption | with_reducible apply State.resetPhase_keeps | with_reducible apply Keeps.setReg
    | with_reducible apply State.updGl_keeps | with_reducible apply State.wr_keeps | with_reducible apply Keeps.ite
    | intro _ _ _ _ _ | intro _ _ _ _ | intro _ _ _ | intro _ _ | split | with_reducible apply Keeps.fields)

theorem State.validate_keeps {km kf ku : Bool} {s₀ : State} (s : State) (g : Nat) (hk : Keeps km kf ku s₀ s) :
    Keeps km kf ku s₀ (State.validate s g) := by
  unfold State.validate
  repeat' (
    first
    | with_reducible assumption | with_reducible apply State.activate_keeps | with_reducible apply State.record_keeps
    | with_reducible apply State.wr_keeps | with_reducible apply Keeps.ite | intro _ _ _ _ _ | intro _ _ _ _ | intro _ _ _
    | intro _ _ | split | with_reducible apply Keeps.fields)

theorem State.refreshAbsent_keeps {km kf ku : Bool} {s₀ : State} (s : State) (g : Nat) (hk : Keeps km kf ku s₀ s) :
    Keeps km kf ku s₀ (State.refreshAbsent s g) := by
  unfold State.refreshAbsent
  repeat' (
    first
    | with_reducible assumption | with_reducible apply State.wr_keeps | with_reducible apply Keeps.ite | intro _ _ _ _ _
    | intro _ _ _ _ | intro _ _ _ | intro _ _ | split | with_reducible apply Keeps.fields)

theorem State.sendJoin_keeps {km kf ku : Bool} {s₀ : State} (s : State) (g : Nat) (l : List Nat) (hk : Keeps km kf ku s₀ s) :
    Keeps km kf ku s₀ (State.sendJoin s g l) := by
  unfold State.sendJoin
  repeat' (
    first
    | with_reducible assumption | with_reducible apply State.toMembers_keeps | with_reducible apply Keeps.ite | intro _ _ _ _ _
    | intro _ _ _ _ | intro _ _ _ | intro _ _ | split | with_reducible apply Keeps.fields)

theorem State.refuseSelf_keeps {km kf ku : Bool} {s₀ : State} (s : State) (g cause : Nat) (hk : Keeps km kf ku s₀ s) :
    Keeps km kf ku s₀ (State.refuseSelf s g cause) := by
  unfold State.refuseSelf
  repeat' (
    first
    | with_reducible assumption | with_reducible apply State.record_keeps | with_reducible apply State.wr_keeps
    | with_reducible apply Keeps.ite | intro _ _ _ _ _ | intro _ _ _ _ | intro _ _ _ | intro _ _ | split
    | with_reducible apply Keeps.fields)

theorem State.checkJoins_keeps {km kf ku : Bool} {s₀ : State} (s : State) (g : Nat) (hk : Keeps km kf ku s₀ s) :
    Keeps km kf ku s₀ (State.checkJoins s g) := by
  unfold State.checkJoins
  repeat' (
    first
    | with_reducible assumption | with_reducible apply State.refreshAbsent_keeps | with_reducible apply State.refuseSelf_keeps
    | with_reducible apply State.updGl_keeps | with_reducible apply Keeps.ite | intro _ _ _ _ _ | intro _ _ _ _ | intro _ _ _
    | intro _ _ | split | with_reducible apply Keeps.fields)

theorem State.startJoin_keeps {km kf ku : Bool} {s₀ : State} (s : State) (g : Nat) (hk : Keeps km kf ku s₀ s) :
    Keeps km kf ku s₀ (State.startJoin s g) := by
  unfold State.startJoin
  repeat' (
    first
    | with_reducible assumption | with_reducible apply State.checkJoins_keeps | with_reducible apply State.record_keeps
    | with_reducible apply State.refreshAbsent_keeps | with_reducible apply State.sendJoin_keeps
    | with_reducible apply State.updGl_keeps | with_reducible apply State.wr_keeps | with_reducible apply Keeps.each
    | with_reducible apply Keeps.ite | intro _ _ _ _ _ | intro _ _ _ _ | intro _ _ _ | intro _ _ | split
    | with_reducible apply Keeps.fields)

theorem State.gladeEnable_keeps {km kf ku : Bool} {s₀ : State} (s : State) (g : Nat) (hk : Keeps km kf ku s₀ s) :
    Keeps km kf ku s₀ (State.gladeEnable s g) := by
  unfold State.gladeEnable
  repeat' (
    first
    | with_reducible assumption | with_reducible apply State.policyWarn_keeps | with_reducible apply State.record_keeps
    | with_reducible apply State.startJoin_keeps | with_reducible apply State.validate_keeps
    | with_reducible apply State.wr_keeps | with_reducible apply Keeps.ite | intro _ _ _ _ _ | intro _ _ _ _ | intro _ _ _
    | intro _ _ | split | with_reducible apply Keeps.fields)

theorem State.gladeDisable_keeps {km kf ku : Bool} {s₀ : State} (s : State) (g : Nat) (hk : Keeps km kf ku s₀ s) :
    Keeps km kf ku s₀ (State.gladeDisable s g) := by
  unfold State.gladeDisable
  repeat' (
    first
    | with_reducible assumption | with_reducible apply State.record_keeps | with_reducible apply State.resetPhase_keeps
    | with_reducible apply State.resetReg_keeps | with_reducible apply State.updGl_keeps | with_reducible apply State.wr_keeps
    | with_reducible apply Keeps.ite | intro _ _ _ _ _ | intro _ _ _ _ | intro _ _ _ | intro _ _ | split
    | with_reducible apply Keeps.fields)

theorem execGladeEnable_keeps {km kf ku : Bool} (g : GladeId) (s : State) : OutKeeps km kf ku s (execGladeEnable g s) := by
  unfold execGladeEnable
  repeat' (
    first
    | with_reducible assumption | with_reducible exact Keeps.refl _ | with_reducible apply OutKeeps.next
    | with_reducible apply OutKeeps.ite | with_reducible apply State.gladeEnable_keeps | with_reducible apply Keeps.inMain
    | with_reducible apply Keeps.ite | intro _ _ _ _ _ | intro _ _ _ _ | intro _ _ _ | intro _ _ | split
    | with_reducible apply Keeps.fields)

theorem execGladeDisable_keeps {km kf ku : Bool} (g : GladeId) (s : State) : OutKeeps km kf ku s (execGladeDisable g s) := by
  unfold execGladeDisable
  repeat' (
    first
    | with_reducible assumption | with_reducible exact Keeps.refl _ | with_reducible apply OutKeeps.next
    | with_reducible apply OutKeeps.ite | with_reducible apply State.gladeDisable_keeps | with_reducible apply Keeps.inMain
    | with_reducible apply Keeps.ite | intro _ _ _ _ _ | intro _ _ _ _ | intro _ _ _ | intro _ _ | split
    | with_reducible apply Keeps.fields)

theorem execJoin_keeps {km kf ku : Bool} (g : GladeId) (j : JoinMsg) (s : State) : OutKeeps km kf ku s (execJoin g j s) := by
  unfold execJoin
  repeat' (
    first
    | with_reducible assumption | with_reducible exact Keeps.refl _ | with_reducible apply OutKeeps.next
    | with_reducible apply OutKeeps.ite | with_reducible apply State.checkJoins_keeps
    | with_reducible apply State.sendJoin_keeps | with_reducible apply State.updGl_keeps | with_reducible apply Keeps.inMain
    | with_reducible apply Keeps.ite | intro _ _ _ _ _ | intro _ _ _ _ | intro _ _ _ | intro _ _ | split
    | with_reducible apply Keeps.fields)

theorem execJoinResend_keeps {km kf ku : Bool} (g : GladeId) (s : State) : OutKeeps km kf ku s (execJoinResend g s) := by
  unfold execJoinResend
  repeat' (
    first
    | with_reducible assumption | with_reducible exact Keeps.refl _ | with_reducible apply OutKeeps.next
    | with_reducible apply OutKeeps.ite | with_reducible apply State.record_keeps | with_reducible apply State.sendJoin_keeps
    | with_reducible apply State.startJoin_keeps | with_reducible apply Keeps.inMain | with_reducible apply Keeps.ite
    | intro _ _ _ _ _ | intro _ _ _ _ | intro _ _ _ | intro _ _ | split | with_reducible apply Keeps.fields)

theorem State.haltQueue_keeps {km kf ku : Bool} {s₀ : State} (s : State) (q index code tag : Nat) (hk : Keeps km kf ku s₀ s) :
    Keeps km kf ku s₀ (State.haltQueue s q index code tag) := by
  unfold State.haltQueue
  repeat' (
    first
    | with_reducible assumption | with_reducible apply State.setMask_keeps | with_reducible apply Keeps.setReg
    | with_reducible apply Keeps.ite | intro _ _ _ _ _ | intro _ _ _ _ | intro _ _ _ | intro _ _ | split
    | with_reducible apply Keeps.fields)

theorem State.haltGladeQueues_keeps {km kf ku : Bool} {s₀ : State} (s : State) (g : Nat) (hk : Keeps km kf ku s₀ s) :
    Keeps km kf ku s₀ (State.haltGladeQueues s g) := by
  unfold State.haltGladeQueues
  repeat' (
    first
    | with_reducible assumption | with_reducible apply State.haltQueue_keeps | with_reducible apply Keeps.each
    | with_reducible apply Keeps.ite | intro _ _ _ _ _ | intro _ _ _ _ | intro _ _ _ | intro _ _ | split
    | with_reducible apply Keeps.fields)

theorem State.dropNextShape_keeps {km kf ku : Bool} {s₀ : State} (s : State) (g : Nat) (hk : Keeps km kf ku s₀ s) :
    Keeps km kf ku s₀ (State.dropNextShape s g) := by
  unfold State.dropNextShape
  repeat' (
    first
    | with_reducible assumption | with_reducible apply State.resetReg_keeps | with_reducible apply State.updGl_keeps
    | with_reducible apply State.wr_keeps | with_reducible apply Keeps.ite | intro _ _ _ _ _ | intro _ _ _ _ | intro _ _ _
    | intro _ _ | split | with_reducible apply Keeps.fields)

theorem State.fence_keeps {km kf ku : Bool} {s₀ : State} (s : State) (g : Nat) (hk : Keeps km kf ku s₀ s) :
    Keeps km kf ku s₀ (State.fence s g) := by
  unfold State.fence
  repeat' (
    first
    | with_reducible assumption | with_reducible apply State.dropNextShape_keeps
    | with_reducible apply State.haltGladeQueues_keeps | with_reducible apply State.record_keeps
    | with_reducible apply State.setHold_keeps | with_reducible apply State.setMask_keeps
    | with_reducible apply State.setMstate_keeps | with_reducible apply State.toMembers_keeps
    | with_reducible apply State.updGl_keeps | with_reducible apply State.wr_keeps | with_reducible apply Keeps.ite
    | intro _ _ _ _ _ | intro _ _ _ _ | intro _ _ _ | intro _ _ | split | with_reducible apply Keeps.fields)

end Sys2Proof.Machine
end

