-- ==== Sys2Proof/Laws/KeepsMemory.lean ====
section
/-! SUPPORT. What the operations of Machine/Memory.lean keep (the relation Keeps). -/
set_option linter.unusedTactic false
set_option linter.unreachableTactic false
set_option linter.unusedVariables false
namespace Sys2Proof.Machine

theorem State.portDone_keeps {km kf ku : Bool} {s₀ : State} (s : State) (q : Nat) (write : Bool) (hk : Keeps km kf ku s₀ s) :
    Keeps km kf ku s₀ (State.portDone s q write) := by
  unfold State.portDone
  repeat' (
    first
    | with_reducible assumption | with_reducible apply State.wr_keeps | with_reducible apply Keeps.ite | intro _ _ _ _ _
    | intro _ _ _ _ | intro _ _ _ | intro _ _ | split | with_reducible apply Keeps.fields)

theorem State.queueReadFailed_keeps {km kf ku : Bool} {s₀ : State} (s : State) (q : Nat) (hk : Keeps km kf ku s₀ s) :
    Keeps km kf ku s₀ (State.queueReadFailed s q) := by
  unfold State.queueReadFailed
  repeat' (
    first
    | with_reducible assumption | with_reducible apply State.haltQueue_keeps | with_reducible apply Keeps.ite | intro _ _ _ _ _
    | intro _ _ _ _ | intro _ _ _ | intro _ _ | split | with_reducible apply Keeps.fields)

theorem State.useFailed_keeps {km kf ku : Bool} {s₀ : State} (s : State) (u : MpUse) (hk : Keeps km kf ku s₀ s) :
    Keeps km kf ku s₀ (State.useFailed s u) := by
  unfold State.useFailed
  repeat' (
    first
    | with_reducible assumption | with_reducible apply State.dropFold_keeps | with_reducible apply State.markStale_keeps
    | with_reducible apply State.queueReadFailed_keeps | with_reducible apply Keeps.ite | intro _ _ _ _ _ | intro _ _ _ _
    | intro _ _ _ | intro _ _ | split | with_reducible apply Keeps.fields)

theorem State.accessFailed_keeps {kf ku : Bool} {s₀ : State} (s : State) (q : Nat) (write : Bool) (line : Nat) (u : MpUse) (hk : Keeps true kf ku s₀ s) :
    Keeps true kf ku s₀ (State.accessFailed s q write line u) := by
  unfold State.accessFailed
  repeat' (
    first
    | with_reducible assumption | with_reducible apply State.inc_keeps | with_reducible apply State.lineFailed_keeps
    | with_reducible apply State.send_keeps | with_reducible apply State.updPt_keeps
    | with_reducible apply State.useFailed_keeps | with_reducible apply Keeps.ite | intro _ _ _ _ _ | intro _ _ _ _
    | intro _ _ _ | intro _ _ | split | with_reducible apply Keeps.fields)

theorem State.mpResponse_keeps {kf ku : Bool} {s₀ : State} (s : State) (q : Nat) (write : Bool) (line : Nat) (u : MpUse) (st : MpStatus) (hk : Keeps true kf ku s₀ s) :
    Keeps true kf ku s₀ (State.mpResponse s q write line u st) := by
  unfold State.mpResponse
  repeat' (
    first
    | with_reducible assumption | with_reducible apply State.accessFailed_keeps | with_reducible apply State.inc_keeps
    | with_reducible apply State.portDone_keeps | with_reducible apply State.updPt_keeps | with_reducible apply Keeps.ite
    | intro _ _ _ _ _ | intro _ _ _ _ | intro _ _ _ | intro _ _ | split | with_reducible apply Keeps.fields)

theorem State.portDown_keeps {km kf ku : Bool} {s₀ : State} (s : State) (q : Nat) (hk : Keeps km kf ku s₀ s) :
    Keeps km kf ku s₀ (State.portDown s q) := by
  unfold State.portDown
  repeat' (
    first
    | with_reducible assumption | with_reducible apply State.toMembers_keeps | with_reducible apply State.wr_keeps
    | with_reducible apply Keeps.each | with_reducible apply Keeps.ite | intro _ _ _ _ _ | intro _ _ _ _ | intro _ _ _
    | intro _ _ | split | with_reducible apply Keeps.fields)

theorem State.mpTimeout_keeps {kf ku : Bool} {s₀ : State} (s : State) (q : Nat) (write : Bool) (line : Nat) (u : MpUse) (hk : Keeps true kf ku s₀ s) :
    Keeps true kf ku s₀ (State.mpTimeout s q write line u) := by
  unfold State.mpTimeout
  repeat' (
    first
    | with_reducible assumption | with_reducible apply State.accessFailed_keeps | with_reducible apply State.inc_keeps
    | with_reducible apply State.portDone_keeps | with_reducible apply State.portDown_keeps
    | with_reducible apply State.record_keeps | with_reducible apply State.updPt_keeps | with_reducible apply Keeps.ite
    | intro _ _ _ _ _ | intro _ _ _ _ | intro _ _ _ | intro _ _ | split | with_reducible apply Keeps.fields)

theorem execMpResponse_keeps {kf ku : Bool} (q : PortId) (write : Bool) (_tag : Nat) (line : BitVec 34) (use : MpUse) (status : MpStatus) (s : State) :
    OutKeeps true kf ku s (execMpResponse q write _tag line use status s) := by
  unfold execMpResponse
  repeat' (
    first
    | with_reducible assumption | with_reducible exact Keeps.refl _ | with_reducible apply OutKeeps.next
    | with_reducible apply OutKeeps.ite | with_reducible apply State.mpResponse_keeps | with_reducible apply Keeps.inMain
    | with_reducible apply Keeps.ite | intro _ _ _ _ _ | intro _ _ _ _ | intro _ _ _ | intro _ _ | split
    | with_reducible apply Keeps.fields)

theorem execMpTimeout_keeps {kf ku : Bool} (q : PortId) (write : Bool) (_tag : Nat) (line : BitVec 34) (use : MpUse) (s : State) :
    OutKeeps true kf ku s (execMpTimeout q write _tag line use s) := by
  unfold execMpTimeout
  repeat' (
    first
    | with_reducible assumption | with_reducible exact Keeps.refl _ | with_reducible apply OutKeeps.next
    | with_reducible apply OutKeeps.ite | with_reducible apply State.mpTimeout_keeps | with_reducible apply Keeps.inMain
    | with_reducible apply Keeps.ite | intro _ _ _ _ _ | intro _ _ _ _ | intro _ _ _ | intro _ _ | split
    | with_reducible apply Keeps.fields)

theorem execPortDown_keeps {km kf ku : Bool} (q : PortId) (s : State) : OutKeeps km kf ku s (execPortDown q s) := by
  unfold execPortDown
  repeat' (
    first
    | with_reducible assumption | with_reducible exact Keeps.refl _ | with_reducible apply OutKeeps.next
    | with_reducible apply OutKeeps.ite | with_reducible apply State.portDown_keeps | with_reducible apply Keeps.inMain
    | with_reducible apply Keeps.ite | intro _ _ _ _ _ | intro _ _ _ _ | intro _ _ _ | intro _ _ | split
    | with_reducible apply Keeps.fields)

theorem State.watchHit_keeps {km kf ku : Bool} {s₀ : State} (s : State) (q g x u : Nat) (staged : Bool) (hk : Keeps km kf ku s₀ s) :
    Keeps km kf ku s₀ (State.watchHit s q g x u staged) := by
  unfold State.watchHit
  repeat' (
    first
    | with_reducible assumption | with_reducible apply State.awaitUnit_keeps | with_reducible apply State.charge_keeps
    | with_reducible apply State.record_keeps | with_reducible apply State.wr_keeps | with_reducible apply Keeps.ite
    | intro _ _ _ _ _ | intro _ _ _ _ | intro _ _ _ | intro _ _ | split | with_reducible apply Keeps.fields)

theorem State.watchReport_keeps {km kf ku : Bool} {s₀ : State} (s : State) (q line : Nat) (staged : Bool) (hk : Keeps km kf ku s₀ s) :
    Keeps km kf ku s₀ (State.watchReport s q line staged) := by
  unfold State.watchReport
  repeat' (
    first
    | with_reducible assumption | with_reducible apply State.inc_keeps | with_reducible apply State.watchHit_keeps
    | with_reducible apply Keeps.ite | intro _ _ _ _ _ | intro _ _ _ _ | intro _ _ _ | intro _ _ | split
    | with_reducible apply Keeps.fields)

theorem State.watchOverflow_keeps {km kf ku : Bool} {s₀ : State} (s : State) (q lo hi : Nat) (hk : Keeps km kf ku s₀ s) :
    Keeps km kf ku s₀ (State.watchOverflow s q lo hi) := by
  unfold State.watchOverflow
  repeat' (
    first
    | with_reducible assumption | with_reducible apply State.inc_keeps | with_reducible apply State.record_keeps
    | with_reducible apply State.spoilUnit_keeps | with_reducible apply State.updPt_keeps | with_reducible apply State.wr_keeps
    | with_reducible apply Keeps.each | with_reducible apply Keeps.ite | intro _ _ _ _ _ | intro _ _ _ _ | intro _ _ _
    | intro _ _ | split | with_reducible apply Keeps.fields)

theorem execWriteWatchReport_keeps {km kf ku : Bool} (q : PortId) (line : BitVec 34) (staged : Bool) (s : State) :
    OutKeeps km kf ku s (execWriteWatchReport q line staged s) := by
  unfold execWriteWatchReport
  repeat' (
    first
    | with_reducible assumption | with_reducible exact Keeps.refl _ | with_reducible apply OutKeeps.next
    | with_reducible apply OutKeeps.ite | with_reducible apply State.watchReport_keeps | with_reducible apply Keeps.inMain
    | with_reducible apply Keeps.ite | intro _ _ _ _ _ | intro _ _ _ _ | intro _ _ _ | intro _ _ | split
    | with_reducible apply Keeps.fields)

theorem execWatchOverflow_keeps {km kf ku : Bool} (q : PortId) (lowest highest : BitVec 34) (s : State) :
    OutKeeps km kf ku s (execWatchOverflow q lowest highest s) := by
  unfold execWatchOverflow
  repeat' (
    first
    | with_reducible assumption | with_reducible exact Keeps.refl _ | with_reducible apply OutKeeps.next
    | with_reducible apply OutKeeps.ite | with_reducible apply State.watchOverflow_keeps | with_reducible apply Keeps.inMain
    | with_reducible apply Keeps.ite | intro _ _ _ _ _ | intro _ _ _ _ | intro _ _ _ | intro _ _ | split
    | with_reducible apply Keeps.fields)

theorem State.encodeFrom_keeps {kf ku : Bool} {s₀ : State} (s : State) (g p : Nat) (data : List (List Byte)) (hk : Keeps true kf ku s₀ s) :
    Keeps true kf ku s₀ (State.encodeFrom s g p data) := by
  unfold State.encodeFrom
  repeat' (
    first
    | with_reducible assumption | with_reducible apply State.charge_keeps | with_reducible apply State.countGf_keeps
    | with_reducible apply State.dropFold_keeps | with_reducible apply State.refreshEras_keeps
    | with_reducible apply State.refreshStale_keeps | with_reducible apply State.store_keeps
    | with_reducible apply State.updGl_keeps | with_reducible apply Keeps.ite | intro _ _ _ _ _ | intro _ _ _ _ | intro _ _ _
    | intro _ _ | split | with_reducible apply Keeps.fields)

theorem State.repairData_keeps {kf ku : Bool} {s₀ : State} (s : State) (g v : Nat) (answers : List RowAnswer) (hk : Keeps true kf ku s₀ s) :
    Keeps true kf ku s₀ (State.repairData s g v answers) := by
  unfold State.repairData
  repeat' (
    first
    | with_reducible assumption | with_reducible apply State.charge_keeps | with_reducible apply State.findDead_keeps
    | with_reducible apply State.refreshEras_keeps | with_reducible apply State.store_keeps
    | with_reducible apply State.updGl_keeps | with_reducible apply Keeps.ite | intro _ _ _ _ _ | intro _ _ _ _ | intro _ _ _
    | intro _ _ | split | with_reducible apply Keeps.fields)

theorem State.repairUnit_keeps {kf ku : Bool} {s₀ : State} (s : State) (q g x u : Nat) (answers : List RowAnswer) (hk : Keeps true kf ku s₀ s) :
    Keeps true kf ku s₀ (State.repairUnit s q g x u answers) := by
  unfold State.repairUnit
  repeat' (
    first
    | with_reducible assumption | with_reducible apply State.encodeFrom_keeps | with_reducible apply State.repairData_keeps
    | with_reducible apply State.updPt_keeps | with_reducible apply Keeps.ite | intro _ _ _ _ _ | intro _ _ _ _ | intro _ _ _
    | intro _ _ | split | with_reducible apply Keeps.fields)

theorem execRepairWalk_keeps {kf ku : Bool} (q : PortId) (rows : List RowAnswer) (s : State) :
    OutKeeps true kf ku s (execRepairWalk q rows s) := by
  unfold execRepairWalk
  repeat' (
    first
    | with_reducible assumption | with_reducible exact Keeps.refl _ | with_reducible apply OutKeeps.next
    | with_reducible apply OutKeeps.ite | with_reducible apply State.repairUnit_keeps | with_reducible apply State.updPt_keeps
    | with_reducible apply Keeps.inMain | with_reducible apply Keeps.ite | intro _ _ _ _ _ | intro _ _ _ _ | intro _ _ _
    | intro _ _ | split | with_reducible apply Keeps.fields)

theorem State.queueEntry_keeps {km kf ku : Bool} {s₀ : State} (s : State) (type : Nat) (payload : List Byte) (hk : Keeps km kf ku s₀ s) :
    Keeps km kf ku s₀ (State.queueEntry s type payload) := by
  unfold State.queueEntry
  repeat' (
    first
    | with_reducible assumption | with_reducible apply Keeps.ite | intro _ _ _ _ _ | intro _ _ _ _ | intro _ _ _ | intro _ _
    | split | with_reducible apply Keeps.fields)

theorem State.dirtyLoss_keeps {kf ku : Bool} {s₀ : State} (s : State) (f : Frame4K) (hk : Keeps true kf ku s₀ s) :
    Keeps true kf ku s₀ (State.dirtyLoss s f) := by
  unfold State.dirtyLoss
  repeat' (
    first
    | with_reducible assumption | with_reducible apply State.awaitUnit_keeps | with_reducible apply State.bufferLost_keeps
    | with_reducible apply State.dropFold_keeps | with_reducible apply State.markStale_keeps
    | with_reducible apply State.roundAgain_keeps | with_reducible apply State.updGl_keeps | with_reducible apply Keeps.ite
    | intro _ _ _ _ _ | intro _ _ _ _ | intro _ _ _ | intro _ _ | split | with_reducible apply Keeps.fields)

theorem State.remapWord_keeps {km kf ku : Bool} {s₀ : State} (s : State) (t w : Nat) (hk : Keeps km kf ku s₀ s) :
    Keeps km kf ku s₀ (State.remapWord s t w) := by
  unfold State.remapWord
  repeat' (
    first
    | with_reducible assumption | with_reducible apply State.inc_keeps | with_reducible apply State.queueEntry_keeps
    | with_reducible apply State.record_keeps | with_reducible apply State.updTl_keeps | with_reducible apply State.wr_keeps
    | with_reducible apply Keeps.ite | intro _ _ _ _ _ | intro _ _ _ _ | intro _ _ _ | intro _ _ | split
    | with_reducible apply Keeps.fields)

theorem State.sramError_keeps {kf ku : Bool} {s₀ : State} (s : State) (t w : Nat) (hk : Keeps true kf ku s₀ s) :
    Keeps true kf ku s₀ (State.sramError s t w) := by
  unfold State.sramError
  repeat' (
    first
    | with_reducible assumption | with_reducible apply State.dirtyLoss_keeps | with_reducible apply State.inc_keeps
    | with_reducible apply State.record_keeps | with_reducible apply State.remapWord_keeps
    | with_reducible apply State.updTl_keeps | with_reducible apply State.wr_keeps | with_reducible apply Keeps.ite
    | intro _ _ _ _ _ | intro _ _ _ _ | intro _ _ _ | intro _ _ | split | with_reducible apply Keeps.fields)

theorem execSramParityError_keeps {kf ku : Bool} (t : TileId) (word : Fin 32768) (s : State) :
    OutKeeps true kf ku s (execSramParityError t word s) := by
  unfold execSramParityError
  repeat' (
    first
    | with_reducible assumption | with_reducible exact Keeps.refl _ | with_reducible apply OutKeeps.next
    | with_reducible apply OutKeeps.ite | with_reducible apply State.sramError_keeps | with_reducible apply Keeps.inMain
    | with_reducible apply Keeps.ite | intro _ _ _ _ _ | intro _ _ _ _ | intro _ _ _ | intro _ _ | split
    | with_reducible apply Keeps.fields)

end Sys2Proof.Machine
end

