-- ==== Sys2Proof/Laws/KeepsBudget.lean ====
section
/-! SUPPORT. What the operations of Machine/Budget.lean keep (the relation Keeps). -/
set_option linter.unusedTactic false
set_option linter.unreachableTactic false
set_option linter.unusedVariables false
namespace Sys2Proof.Machine

theorem State.newWindow_keeps {km kf ku : Bool} {s₀ : State} (s : State) (hk : Keeps km kf ku s₀ s) :
    Keeps km kf ku s₀ (State.newWindow s) := by
  unfold State.newWindow
  repeat' (
    first
    | with_reducible assumption | with_reducible apply State.setMask_keeps | with_reducible apply State.wr_keeps
    | with_reducible apply Keeps.each | with_reducible apply Keeps.ite | intro _ _ _ _ _ | intro _ _ _ _ | intro _ _ _
    | intro _ _ | split | with_reducible apply Keeps.fields)

theorem State.writeBudget_keeps {km kf ku : Bool} {s₀ : State} (s : State) (set a : Nat) (v : Word) (hk : Keeps km kf ku s₀ s) :
    Keeps km kf ku s₀ (State.writeBudget s set a v) := by
  unfold State.writeBudget
  repeat' (
    first
    | with_reducible assumption | with_reducible apply State.guardedWrite_keeps | with_reducible apply Keeps.ite
    | intro _ _ _ _ _ | intro _ _ _ _ | intro _ _ _ | intro _ _ | split | with_reducible apply Keeps.fields)

theorem execBudgetWindow_keeps {km kf ku : Bool} (s : State) : OutKeeps km kf ku s (execBudgetWindow s) := by
  unfold execBudgetWindow
  repeat' (
    first
    | with_reducible assumption | with_reducible exact Keeps.refl _ | with_reducible apply OutKeeps.next
    | with_reducible apply OutKeeps.ite | with_reducible apply State.newWindow_keeps | with_reducible apply Keeps.inMain
    | with_reducible apply Keeps.ite | intro _ _ _ _ _ | intro _ _ _ _ | intro _ _ _ | intro _ _ | split
    | with_reducible apply Keeps.fields)

theorem execBudgetSetWrite_keeps {km kf ku : Bool} (total : Bool) (set : Fin 4) (cls : Fin 8) (value : Word) (s : State) :
    OutKeeps km kf ku s (execBudgetSetWrite total set cls value s) := by
  unfold execBudgetSetWrite
  repeat' (
    first
    | with_reducible assumption | with_reducible exact Keeps.refl _ | with_reducible apply OutKeeps.next
    | with_reducible apply OutKeeps.ite | with_reducible apply State.writeBudget_keeps | with_reducible apply Keeps.inMain
    | with_reducible apply Keeps.ite | intro _ _ _ _ _ | intro _ _ _ _ | intro _ _ _ | intro _ _ | split
    | with_reducible apply Keeps.fields)

theorem State.scrubPast_keeps {km kf ku : Bool} {s₀ : State} (s : State) (o : Nat) (hk : Keeps km kf ku s₀ s) :
    Keeps km kf ku s₀ (State.scrubPast s o) := by
  unfold State.scrubPast
  repeat' (
    first
    | with_reducible assumption | with_reducible apply State.inc_keeps | with_reducible apply Keeps.ite | intro _ _ _ _ _
    | intro _ _ _ _ | intro _ _ _ | intro _ _ | split | with_reducible apply Keeps.fields)

theorem State.scrub_keeps {kf ku : Bool} {s₀ : State} (s : State) (st : MpStatus) (line : List Byte) (hk : Keeps true kf ku s₀ s) :
    Keeps true kf ku s₀ (State.scrub s st line) := by
  unfold State.scrub
  repeat' (
    first
    | with_reducible assumption | with_reducible apply State.charge_keeps | with_reducible apply State.inc_keeps
    | with_reducible apply State.readFailed_keeps | with_reducible apply State.scrubPast_keeps
    | with_reducible apply State.store_keeps | with_reducible apply Keeps.ite | intro _ _ _ _ _ | intro _ _ _ _ | intro _ _ _
    | intro _ _ | split | with_reducible apply Keeps.fields)

theorem execScrubLine_keeps {kf ku : Bool} (g : GladeId) (status : MpStatus) (line : List Byte) (s : State) :
    OutKeeps true kf ku s (execScrubLine g status line s) := by
  unfold execScrubLine
  repeat' (
    first
    | with_reducible assumption | with_reducible exact Keeps.refl _ | with_reducible apply OutKeeps.next
    | with_reducible apply OutKeeps.ite | with_reducible apply State.scrub_keeps | with_reducible apply Keeps.inMain
    | with_reducible apply Keeps.ite | intro _ _ _ _ _ | intro _ _ _ _ | intro _ _ _ | intro _ _ | split
    | with_reducible apply Keeps.fields)

theorem State.auditEnd_keeps {km kf ku : Bool} {s₀ : State} (s : State) (a : AuditPass) (hk : Keeps km kf ku s₀ s) :
    Keeps km kf ku s₀ (State.auditEnd s a) := by
  unfold State.auditEnd
  repeat' (
    first
    | with_reducible assumption | with_reducible apply State.notice_keeps | with_reducible apply State.record_keeps
    | with_reducible apply Keeps.setReg | with_reducible apply State.wr_keeps | with_reducible apply Keeps.each
    | with_reducible apply Keeps.ite | intro _ _ _ _ _ | intro _ _ _ _ | intro _ _ _ | intro _ _ | split
    | with_reducible apply Keeps.fields)

theorem State.auditStart_keeps {km kf ku : Bool} {s₀ : State} (s : State) (hk : Keeps km kf ku s₀ s) :
    Keeps km kf ku s₀ (State.auditStart s) := by
  unfold State.auditStart
  repeat' (
    first
    | with_reducible assumption | with_reducible apply Keeps.ite | intro _ _ _ _ _ | intro _ _ _ _ | intro _ _ _ | intro _ _
    | split | with_reducible apply Keeps.fields)

theorem State.writeAudctl_keeps {km kf ku : Bool} {s₀ : State} (s : State) (v : Word) (hk : Keeps km kf ku s₀ s) :
    Keeps km kf ku s₀ (State.writeAudctl s v) := by
  unfold State.writeAudctl
  repeat' (
    first
    | with_reducible assumption | with_reducible apply State.auditStart_keeps | with_reducible apply State.plainWrite_keeps
    | with_reducible apply Keeps.ite | intro _ _ _ _ _ | intro _ _ _ _ | intro _ _ _ | intro _ _ | split
    | with_reducible apply Keeps.fields)

theorem State.auditRepair_keeps {km kf ku : Bool} {s₀ : State} (s : State) (g row slot : Nat) (hk : Keeps km kf ku s₀ s) :
    Keeps km kf ku s₀ (State.auditRepair s g row slot) := by
  unfold State.auditRepair
  repeat' (
    first
    | with_reducible assumption | with_reducible apply State.awaitLeaf_keeps | with_reducible apply State.toMember_keeps
    | with_reducible apply State.updGl_keeps | with_reducible apply Keeps.ite | intro _ _ _ _ _ | intro _ _ _ _ | intro _ _ _
    | intro _ _ | split | with_reducible apply Keeps.fields)

theorem State.auditEncode_keeps {km kf ku : Bool} {s₀ : State} (s : State) (g row : Nat) (hk : Keeps km kf ku s₀ s) :
    Keeps km kf ku s₀ (State.auditEncode s g row) := by
  unfold State.auditEncode
  repeat' (
    first
    | with_reducible assumption | with_reducible apply State.auditRepair_keeps | with_reducible apply Keeps.each
    | with_reducible apply Keeps.ite | intro _ _ _ _ _ | intro _ _ _ _ | intro _ _ _ | intro _ _ | split
    | with_reducible apply Keeps.fields)

theorem State.auditFinding_keeps {km kf ku : Bool} {s₀ : State} (s : State) (a : AuditPass) (row : Nat) (syn : List (List Byte)) (hk : Keeps km kf ku s₀ s) :
    Keeps km kf ku s₀ (State.auditFinding s a row syn).1 := by
  unfold State.auditFinding
  try dsimp only
  repeat' (
    first
    | with_reducible assumption | with_reducible apply State.auditEncode_keeps | with_reducible apply State.auditRepair_keeps
    | with_reducible apply State.record_keeps | with_reducible apply Keeps.ite | intro _ _ _ _ _ | intro _ _ _ _ | intro _ _ _
    | intro _ _ | split | with_reducible apply Keeps.fields)

theorem State.auditNext_keeps {km kf ku : Bool} {s₀ : State} (s : State) (a : AuditPass) (hk : Keeps km kf ku s₀ s) :
    Keeps km kf ku s₀ (State.auditNext s a) := by
  unfold State.auditNext
  repeat' (
    first
    | with_reducible assumption | with_reducible apply State.auditEnd_keeps | with_reducible apply Keeps.ite | intro _ _ _ _ _
    | intro _ _ _ _ | intro _ _ _ | intro _ _ | split | with_reducible apply Keeps.fields)

theorem State.auditUnit_keeps {km kf ku : Bool} {s₀ : State} (s : State) (a : AuditPass) (row line : Nat) (answers : List RowAnswer) (hk : Keeps km kf ku s₀ s) :
    Keeps km kf ku s₀ (State.auditUnit s a row line answers) := by
  unfold State.auditUnit
  repeat' (
    first
    | with_reducible assumption | with_reducible apply State.auditFinding_keeps | with_reducible apply State.auditNext_keeps
    | with_reducible apply State.charge_keeps | with_reducible apply Keeps.ite | intro _ _ _ _ _ | intro _ _ _ _ | intro _ _ _
    | intro _ _ | split | with_reducible apply Keeps.fields)

theorem execAuditStart_keeps {km kf ku : Bool} (value : Word) (s : State) : OutKeeps km kf ku s (execAuditStart value s) := by
  unfold execAuditStart
  repeat' (
    first
    | with_reducible assumption | with_reducible exact Keeps.refl _ | with_reducible apply OutKeeps.next
    | with_reducible apply OutKeeps.ite | with_reducible apply State.writeAudctl_keeps | with_reducible apply Keeps.inMain
    | with_reducible apply Keeps.ite | intro _ _ _ _ _ | intro _ _ _ _ | intro _ _ _ | intro _ _ | split
    | with_reducible apply Keeps.fields)

theorem execAuditUnit_keeps {km kf ku : Bool} (row line : Nat) (rows : List RowAnswer) (s : State) :
    OutKeeps km kf ku s (execAuditUnit row line rows s) := by
  unfold execAuditUnit
  repeat' (
    first
    | with_reducible assumption | with_reducible exact Keeps.refl _ | with_reducible apply OutKeeps.next
    | with_reducible apply OutKeeps.ite | with_reducible apply State.auditUnit_keeps | with_reducible apply Keeps.inMain
    | with_reducible apply Keeps.ite | intro _ _ _ _ _ | intro _ _ _ _ | intro _ _ _ | intro _ _ | split
    | with_reducible apply Keeps.fields)

end Sys2Proof.Machine
end

