-- ==== Sys2Proof/Laws/KeepsQueue.lean ====
section
/-! SUPPORT. What the operations of Machine/Queue.lean keep (the relation Keeps). -/
set_option linter.unusedTactic false
set_option linter.unreachableTactic false
set_option linter.unusedVariables false
namespace Sys2Proof.Machine

theorem State.refreshQueue_keeps {km kf ku : Bool} {s₀ : State} (s : State) (q : Nat) (wait : Bool) (hk : Keeps km kf ku s₀ s) :
    Keeps km kf ku s₀ (State.refreshQueue s q wait) := by
  unfold State.refreshQueue
  repeat' (
    first
    | with_reducible assumption | with_reducible apply Keeps.setReg | with_reducible apply Keeps.ite | intro _ _ _ _ _
    | intro _ _ _ _ | intro _ _ _ | intro _ _ | split | with_reducible apply Keeps.fields)

theorem State.updDesc_keeps {km kf ku : Bool} {s₀ : State} (s : State) (q i : Nat) (f : Desc → Desc) (hk : Keeps km kf ku s₀ s) :
    Keeps km kf ku s₀ (State.updDesc s q i f) := by
  unfold State.updDesc
  repeat' (
    first
    | with_reducible assumption | with_reducible apply State.updQu_keeps | with_reducible apply Keeps.ite | intro _ _ _ _ _
    | intro _ _ _ _ | intro _ _ _ | intro _ _ | split | with_reducible apply Keeps.fields)

theorem State.popDone_keeps {km kf ku : Bool} {s₀ : State} (s : State) (q : Nat) (hk : Keeps km kf ku s₀ s) :
    Keeps km kf ku s₀ (State.popDone s q) := by
  unfold State.popDone
  repeat' (
    first
    | with_reducible assumption | with_reducible apply State.updQu_keeps | with_reducible apply Keeps.ite | intro _ _ _ _ _
    | intro _ _ _ _ | intro _ _ _ | intro _ _ | split | with_reducible apply Keeps.fields)

theorem State.completeDesc_keeps {km kf ku : Bool} {s₀ : State} (s : State) (q : Nat) (d : Desc) (hk : Keeps km kf ku s₀ s) :
    Keeps km kf ku s₀ (State.completeDesc s q d) := by
  unfold State.completeDesc
  repeat' (
    first
    | with_reducible assumption | with_reducible apply State.popDone_keeps | with_reducible apply State.refreshQueue_keeps
    | with_reducible apply State.setMask_keeps | with_reducible apply State.updDesc_keeps | with_reducible apply State.wr_keeps
    | with_reducible apply Keeps.ite | intro _ _ _ _ _ | intro _ _ _ _ | intro _ _ _ | intro _ _ | split
    | with_reducible apply Keeps.fields)

theorem State.descDone_keeps {km kf ku : Bool} {s₀ : State} (s : State) (q i : Nat) (hk : Keeps km kf ku s₀ s) :
    Keeps km kf ku s₀ (State.descDone s q i) := by
  unfold State.descDone
  repeat' (
    first
    | with_reducible assumption | with_reducible apply State.updDesc_keeps | with_reducible apply Keeps.ite | intro _ _ _ _ _
    | intro _ _ _ _ | intro _ _ _ | intro _ _ | split | with_reducible apply Keeps.fields)

theorem State.haltDesc_keeps {km kf ku : Bool} {s₀ : State} (s : State) (q : Nat) (d : Desc) (code : Nat) (hk : Keeps km kf ku s₀ s) :
    Keeps km kf ku s₀ (State.haltDesc s q d code) := by
  unfold State.haltDesc
  repeat' (
    first
    | with_reducible assumption | with_reducible apply State.haltQueue_keeps | with_reducible apply State.updDesc_keeps
    | with_reducible apply Keeps.ite | intro _ _ _ _ _ | intro _ _ _ _ | intro _ _ _ | intro _ _ | split
    | with_reducible apply Keeps.fields)

theorem State.srcFailed_keeps {kf ku : Bool} {s₀ : State} (s : State) (q : Nat) (d : Desc) (o n : Nat) (hk : Keeps true kf ku s₀ s) :
    Keeps true kf ku s₀ (State.srcFailed s q d o n) := by
  unfold State.srcFailed
  repeat' (
    first
    | with_reducible assumption | with_reducible apply State.haltDesc_keeps | with_reducible apply State.readCheck_keeps
    | with_reducible apply Keeps.ite | intro _ _ _ _ _ | intro _ _ _ _ | intro _ _ _ | intro _ _ | split
    | with_reducible apply Keeps.fields)

theorem State.writeQtail_keeps {km kf ku : Bool} {s₀ : State} (s : State) (q : Nat) (v : Word) (hk : Keeps km kf ku s₀ s) :
    Keeps km kf ku s₀ (State.writeQtail s q v) := by
  unfold State.writeQtail
  repeat' (
    first
    | with_reducible assumption | with_reducible apply State.plainWrite_keeps | with_reducible apply State.refreshQueue_keeps
    | with_reducible apply Keeps.ite | intro _ _ _ _ _ | intro _ _ _ _ | intro _ _ _ | intro _ _ | split
    | with_reducible apply Keeps.fields)

theorem State.setQen_keeps {km kf ku : Bool} {s₀ : State} (s : State) (q : Nat) (en : Bool) (hk : Keeps km kf ku s₀ s) :
    Keeps km kf ku s₀ (State.setQen s q en) := by
  unfold State.setQen
  repeat' (
    first
    | with_reducible assumption | with_reducible apply State.flag_keeps | with_reducible apply Keeps.ite | intro _ _ _ _ _
    | intro _ _ _ _ | intro _ _ _ | intro _ _ | split | with_reducible apply Keeps.fields)

theorem State.resumeQueue_keeps {km kf ku : Bool} {s₀ : State} (s : State) (q : Nat) (hk : Keeps km kf ku s₀ s) :
    Keeps km kf ku s₀ (State.resumeQueue s q) := by
  unfold State.resumeQueue
  repeat' (
    first
    | with_reducible assumption | with_reducible apply State.refreshQueue_keeps | with_reducible apply State.wr_keeps
    | with_reducible apply Keeps.ite | intro _ _ _ _ _ | intro _ _ _ _ | intro _ _ _ | intro _ _ | split
    | with_reducible apply Keeps.fields)

theorem State.skipQueue_keeps {km kf ku : Bool} {s₀ : State} (s : State) (q : Nat) (hk : Keeps km kf ku s₀ s) :
    Keeps km kf ku s₀ (State.skipQueue s q) := by
  unfold State.skipQueue
  repeat' (
    first
    | with_reducible assumption | with_reducible apply State.popDone_keeps | with_reducible apply State.refreshQueue_keeps
    | with_reducible apply State.updDesc_keeps | with_reducible apply State.updQu_keeps | with_reducible apply State.wr_keeps
    | with_reducible apply Keeps.ite | intro _ _ _ _ _ | intro _ _ _ _ | intro _ _ _ | intro _ _ | split
    | with_reducible apply Keeps.fields)

theorem State.writeQctl_keeps {km kf ku : Bool} {s₀ : State} (s : State) (q : Nat) (v : Word) (hk : Keeps km kf ku s₀ s) :
    Keeps km kf ku s₀ (State.writeQctl s q v) := by
  unfold State.writeQctl
  repeat' (
    first
    | with_reducible assumption | with_reducible apply State.record_keeps | with_reducible apply State.resumeQueue_keeps
    | with_reducible apply State.setQen_keeps | with_reducible apply State.skipQueue_keeps | with_reducible apply Keeps.ite
    | intro _ _ _ _ _ | intro _ _ _ _ | intro _ _ _ | intro _ _ | split | with_reducible apply Keeps.fields)

theorem State.writeQbase_keeps {km kf ku : Bool} {s₀ : State} (s : State) (q : Nat) (v : Word) (hk : Keeps km kf ku s₀ s) :
    Keeps km kf ku s₀ (State.writeQbase s q v) := by
  unfold State.writeQbase
  repeat' (
    first
    | with_reducible assumption | with_reducible apply State.guardedWrite_keeps | with_reducible apply Keeps.ite
    | intro _ _ _ _ _ | intro _ _ _ _ | intro _ _ _ | intro _ _ | split | with_reducible apply Keeps.fields)

theorem State.fetchDesc_keeps {kf ku : Bool} {s₀ : State} (s : State) (q : Nat) (st : MpStatus) (hk : Keeps true kf ku s₀ s) :
    Keeps true kf ku s₀ (State.fetchDesc s q st) := by
  unfold State.fetchDesc
  repeat' (
    first
    | with_reducible assumption | with_reducible apply State.charge_keeps | with_reducible apply State.haltQueue_keeps
    | with_reducible apply State.readFailed_keeps | with_reducible apply State.refreshQueue_keeps
    | with_reducible apply State.updQu_keeps | with_reducible apply Keeps.ite | intro _ _ _ _ _ | intro _ _ _ _ | intro _ _ _
    | intro _ _ | split | with_reducible apply Keeps.fields)

theorem State.startDesc_keeps {km kf ku : Bool} {s₀ : State} (s : State) (q : Nat) (hk : Keeps km kf ku s₀ s) :
    Keeps km kf ku s₀ (State.startDesc s q) := by
  unfold State.startDesc
  repeat' (
    first
    | with_reducible assumption | with_reducible apply State.haltDesc_keeps | with_reducible apply State.refreshQueue_keeps
    | with_reducible apply State.updDesc_keeps | with_reducible apply Keeps.ite | intro _ _ _ _ _ | intro _ _ _ _ | intro _ _ _
    | intro _ _ | split | with_reducible apply Keeps.fields)

theorem execQueueDoorbell_keeps {km kf ku : Bool} (q : QueueId) (value : Word) (s : State) :
    OutKeeps km kf ku s (execQueueDoorbell q value s) := by
  unfold execQueueDoorbell
  repeat' (
    first
    | with_reducible assumption | with_reducible exact Keeps.refl _ | with_reducible apply OutKeeps.next
    | with_reducible apply OutKeeps.ite | with_reducible apply State.writeQtail_keeps | with_reducible apply Keeps.inMain
    | with_reducible apply Keeps.ite | intro _ _ _ _ _ | intro _ _ _ _ | intro _ _ _ | intro _ _ | split
    | with_reducible apply Keeps.fields)

theorem execQueueEnable_keeps {km kf ku : Bool} (q : QueueId) (en : Bool) (s : State) :
    OutKeeps km kf ku s (execQueueEnable q en s) := by
  unfold execQueueEnable
  repeat' (
    first
    | with_reducible assumption | with_reducible exact Keeps.refl _ | with_reducible apply OutKeeps.next
    | with_reducible apply OutKeeps.ite | with_reducible apply State.setQen_keeps | with_reducible apply Keeps.inMain
    | with_reducible apply Keeps.ite | intro _ _ _ _ _ | intro _ _ _ _ | intro _ _ _ | intro _ _ | split
    | with_reducible apply Keeps.fields)

theorem execQueueResume_keeps {km kf ku : Bool} (q : QueueId) (s : State) : OutKeeps km kf ku s (execQueueResume q s) := by
  unfold execQueueResume
  repeat' (
    first
    | with_reducible assumption | with_reducible exact Keeps.refl _ | with_reducible apply OutKeeps.next
    | with_reducible apply OutKeeps.ite | with_reducible apply State.resumeQueue_keeps | with_reducible apply Keeps.inMain
    | with_reducible apply Keeps.ite | intro _ _ _ _ _ | intro _ _ _ _ | intro _ _ _ | intro _ _ | split
    | with_reducible apply Keeps.fields)

theorem execQueueSkip_keeps {km kf ku : Bool} (q : QueueId) (s : State) : OutKeeps km kf ku s (execQueueSkip q s) := by
  unfold execQueueSkip
  repeat' (
    first
    | with_reducible assumption | with_reducible exact Keeps.refl _ | with_reducible apply OutKeeps.next
    | with_reducible apply OutKeeps.ite | with_reducible apply State.skipQueue_keeps | with_reducible apply Keeps.inMain
    | with_reducible apply Keeps.ite | intro _ _ _ _ _ | intro _ _ _ _ | intro _ _ _ | intro _ _ | split
    | with_reducible apply Keeps.fields)

theorem execDescriptorFetch_keeps {kf ku : Bool} (q : QueueId) (status : MpStatus) (s : State) :
    OutKeeps true kf ku s (execDescriptorFetch q status s) := by
  unfold execDescriptorFetch
  repeat' (
    first
    | with_reducible assumption | with_reducible exact Keeps.refl _ | with_reducible apply OutKeeps.next
    | with_reducible apply OutKeeps.ite | with_reducible apply State.fetchDesc_keeps | with_reducible apply Keeps.inMain
    | with_reducible apply Keeps.ite | intro _ _ _ _ _ | intro _ _ _ _ | intro _ _ _ | intro _ _ | split
    | with_reducible apply Keeps.fields)

theorem execDescriptorStart_keeps {km kf ku : Bool} (q : QueueId) (s : State) :
    OutKeeps km kf ku s (execDescriptorStart q s) := by
  unfold execDescriptorStart
  repeat' (
    first
    | with_reducible assumption | with_reducible exact Keeps.refl _ | with_reducible apply OutKeeps.next
    | with_reducible apply OutKeeps.ite | with_reducible apply State.startDesc_keeps | with_reducible apply Keeps.inMain
    | with_reducible apply Keeps.ite | intro _ _ _ _ _ | intro _ _ _ _ | intro _ _ _ | intro _ _ | split
    | with_reducible apply Keeps.fields)

theorem execDescriptorComplete_keeps {km kf ku : Bool} (q : QueueId) (index : Nat) (s : State) :
    OutKeeps km kf ku s (execDescriptorComplete q index s) := by
  unfold execDescriptorComplete
  repeat' (
    first
    | with_reducible assumption | with_reducible exact Keeps.refl _ | with_reducible apply OutKeeps.next
    | with_reducible apply OutKeeps.ite | with_reducible apply State.completeDesc_keeps | with_reducible apply Keeps.inMain
    | with_reducible apply Keeps.ite | intro _ _ _ _ _ | intro _ _ _ _ | intro _ _ _ | intro _ _ | split
    | with_reducible apply Keeps.fields)

theorem execMatchTimeout_keeps {km kf ku : Bool} (g : GladeId) (cid : Nat) (s : State) :
    OutKeeps km kf ku s (execMatchTimeout g cid s) := by
  unfold execMatchTimeout
  repeat' (
    first
    | with_reducible assumption | with_reducible exact Keeps.refl _ | with_reducible apply OutKeeps.next
    | with_reducible apply OutKeeps.ite | with_reducible apply State.haltDesc_keeps | with_reducible apply State.toMembers_keeps
    | with_reducible apply Keeps.each | with_reducible apply Keeps.inMain | with_reducible apply Keeps.ite | intro _ _ _ _ _
    | intro _ _ _ _ | intro _ _ _ | intro _ _ | split | with_reducible apply Keeps.fields)

end Sys2Proof.Machine
end

