-- ==== Sys2Proof/Laws/KeepsCollective.lean ====
section
/-! SUPPORT. What the operations of Machine/Collective.lean keep (the relation Keeps). -/
set_option linter.unusedTactic false
set_option linter.unreachableTactic false
set_option linter.unusedVariables false
namespace Sys2Proof.Machine

theorem State.withSrc_keeps {kf ku : Bool} {s₀ : State} (s : State) (q : Nat) (d : Desc) (f : State → List Byte → State) (hk : Keeps true kf ku s₀ s) (hf : ∀ v x0, Keeps true kf ku s₀ v → Keeps true kf ku s₀ (f v x0)) :
    Keeps true kf ku s₀ (State.withSrc s q d f) := by
  unfold State.withSrc
  repeat' (
    first
    | with_reducible assumption | with_reducible apply State.charge_keeps | with_reducible apply State.descDone_keeps
    | with_reducible apply State.srcFailed_keeps | with_reducible apply hf | with_reducible apply Keeps.ite | intro _ _ _ _ _
    | intro _ _ _ _ | intro _ _ _ | intro _ _ | split | with_reducible apply Keeps.fields)

theorem State.putDst_keeps {kf ku : Bool} {s₀ : State} (s : State) (o : Nat) (l : List Byte) (hk : Keeps true kf ku s₀ s) :
    Keeps true kf ku s₀ (State.putDst s o l) := by
  unfold State.putDst
  repeat' (
    first
    | with_reducible assumption | with_reducible apply State.charge_keeps | with_reducible apply State.store_keeps
    | with_reducible apply Keeps.ite | intro _ _ _ _ _ | intro _ _ _ _ | intro _ _ _ | intro _ _ | split
    | with_reducible apply Keeps.fields)

theorem State.runOp_keeps {km kf ku : Bool} {s₀ : State} (s : State) (q i op : Nat) (f : State → Desc → State) (hk : Keeps km kf ku s₀ s) (hf : ∀ v x0, Keeps km kf ku s₀ v → Keeps km kf ku s₀ (f v x0)) :
    Keeps km kf ku s₀ (State.runOp s q i op f) := by
  unfold State.runOp
  repeat' (
    first
    | with_reducible assumption | with_reducible apply hf | with_reducible apply Keeps.ite | intro _ _ _ _ _ | intro _ _ _ _
    | intro _ _ _ | intro _ _ | split | with_reducible apply Keeps.fields)

theorem State.allreduce_keeps {kf ku : Bool} {s₀ : State} (s : State) (q : Nat) (d : Desc) (others : List (List F32)) (hk : Keeps true kf ku s₀ s) :
    Keeps true kf ku s₀ (State.allreduce s q d others) := by
  unfold State.allreduce
  repeat' (
    first
    | with_reducible assumption | with_reducible apply State.haltDesc_keeps | with_reducible apply State.putDst_keeps
    | with_reducible apply State.raiseExc_keeps | with_reducible apply State.withSrc_keeps | with_reducible apply Keeps.ite
    | intro _ _ _ _ _ | intro _ _ _ _ | intro _ _ _ | intro _ _ | split | with_reducible apply Keeps.fields)

theorem State.reducescatter_keeps {kf ku : Bool} {s₀ : State} (s : State) (q : Nat) (d : Desc) (others : List (List F32)) (hk : Keeps true kf ku s₀ s) :
    Keeps true kf ku s₀ (State.reducescatter s q d others) := by
  unfold State.reducescatter
  repeat' (
    first
    | with_reducible assumption | with_reducible apply State.haltDesc_keeps | with_reducible apply State.putDst_keeps
    | with_reducible apply State.raiseExc_keeps | with_reducible apply State.withSrc_keeps | with_reducible apply Keeps.ite
    | intro _ _ _ _ _ | intro _ _ _ _ | intro _ _ _ | intro _ _ | split | with_reducible apply Keeps.fields)

theorem State.allgather_keeps {kf ku : Bool} {s₀ : State} (s : State) (q : Nat) (d : Desc) (others : List (List Byte)) (hk : Keeps true kf ku s₀ s) :
    Keeps true kf ku s₀ (State.allgather s q d others) := by
  unfold State.allgather
  repeat' (
    first
    | with_reducible assumption | with_reducible apply State.haltDesc_keeps | with_reducible apply State.putDst_keeps
    | with_reducible apply State.withSrc_keeps | with_reducible apply Keeps.ite | intro _ _ _ _ _ | intro _ _ _ _ | intro _ _ _
    | intro _ _ | split | with_reducible apply Keeps.fields)

theorem State.broadcast_keeps {kf ku : Bool} {s₀ : State} (s : State) (q : Nat) (d : Desc) (root : List Byte) (hk : Keeps true kf ku s₀ s) :
    Keeps true kf ku s₀ (State.broadcast s q d root) := by
  unfold State.broadcast
  repeat' (
    first
    | with_reducible assumption | with_reducible apply State.descDone_keeps | with_reducible apply State.haltDesc_keeps
    | with_reducible apply State.putDst_keeps | with_reducible apply State.toMembers_keeps
    | with_reducible apply State.withSrc_keeps | with_reducible apply Keeps.ite | intro _ _ _ _ _ | intro _ _ _ _ | intro _ _ _
    | intro _ _ | split | with_reducible apply Keeps.fields)

theorem State.permute_keeps {kf ku : Bool} {s₀ : State} (s : State) (q : Nat) (d : Desc) (received : Option (Nat × List Byte)) (hk : Keeps true kf ku s₀ s) :
    Keeps true kf ku s₀ (State.permute s q d received) := by
  unfold State.permute
  repeat' (
    first
    | with_reducible assumption | with_reducible apply State.putDst_keeps | with_reducible apply State.toMember_keeps
    | with_reducible apply State.withSrc_keeps | with_reducible apply Keeps.ite | intro _ _ _ _ _ | intro _ _ _ _ | intro _ _ _
    | intro _ _ | split | with_reducible apply Keeps.fields)

theorem State.mcast_keeps {kf ku : Bool} {s₀ : State} (s : State) (q : Nat) (d : Desc) (hk : Keeps true kf ku s₀ s) :
    Keeps true kf ku s₀ (State.mcast s q d) := by
  unfold State.mcast
  repeat' (
    first
    | with_reducible assumption | with_reducible apply State.toNode_keeps | with_reducible apply State.withSrc_keeps
    | with_reducible apply Keeps.each | with_reducible apply Keeps.ite | intro _ _ _ _ _ | intro _ _ _ _ | intro _ _ _
    | intro _ _ | split | with_reducible apply Keeps.fields)

theorem State.mcastMissing_keeps {km kf ku : Bool} {s₀ : State} (s : State) (d : Desc) (missing : List Nat) (hk : Keeps km kf ku s₀ s) :
    Keeps km kf ku s₀ (State.mcastMissing s d missing) := by
  unfold State.mcastMissing
  repeat' (
    first
    | with_reducible assumption | with_reducible apply State.toNode_keeps | with_reducible apply Keeps.each
    | with_reducible apply Keeps.ite | intro _ _ _ _ _ | intro _ _ _ _ | intro _ _ _ | intro _ _ | split
    | with_reducible apply Keeps.fields)

theorem State.setStage_keeps {km kf ku : Bool} {s₀ : State} (s : State) (g n : Nat) (hk : Keeps km kf ku s₀ s) :
    Keeps km kf ku s₀ (State.setStage s g n) := by
  unfold State.setStage
  repeat' (
    first
    | with_reducible assumption | with_reducible apply State.wr_keeps | with_reducible apply Keeps.ite | intro _ _ _ _ _
    | intro _ _ _ _ | intro _ _ _ | intro _ _ | split | with_reducible apply Keeps.fields)

theorem State.openWindow_keeps {km kf ku : Bool} {s₀ : State} (s : State) (g : Nat) (hk : Keeps km kf ku s₀ s) :
    Keeps km kf ku s₀ (State.openWindow s g) := by
  unfold State.openWindow
  repeat' (
    first
    | with_reducible assumption | with_reducible apply State.setStage_keeps | with_reducible apply Keeps.ite | intro _ _ _ _ _
    | intro _ _ _ _ | intro _ _ _ | intro _ _ | split | with_reducible apply Keeps.fields)

theorem State.pushBlock_keeps {km kf ku : Bool} {s₀ : State} (s : State) (g sidx l b src : Nat) (hk : Keeps km kf ku s₀ s) :
    Keeps km kf ku s₀ (State.pushBlock s g sidx l b src) := by
  unfold State.pushBlock
  repeat' (
    first
    | with_reducible assumption | with_reducible apply State.charge_keeps | with_reducible apply State.openWindow_keeps
    | with_reducible apply State.toMember_keeps | with_reducible apply State.updGl_keeps | with_reducible apply Keeps.ite
    | intro _ _ _ _ _ | intro _ _ _ _ | intro _ _ _ | intro _ _ | split | with_reducible apply Keeps.fields)

theorem State.pushFrom_keeps {kf ku : Bool} {s₀ : State} (s : State) (g sidx l src n b : Nat) (h : Keeps true kf ku s₀ s) :
    Keeps true kf ku s₀ (State.pushFrom s g sidx l src n b).1 := by
  induction n generalizing s b with
  | zero => exact h
  | succ n ih =>
    unfold State.pushFrom
    split
    · exact h
    · split
      · exact State.readCheck_keeps _ _ _ h
      · exact ih _ _ (State.pushBlock_keeps _ _ _ _ _ _ h)

theorem State.sendMarkers_keeps {km kf ku : Bool} {s₀ : State} (s : State) (g sidx : Nat) (hk : Keeps km kf ku s₀ s) :
    Keeps km kf ku s₀ (State.sendMarkers s g sidx) := by
  unfold State.sendMarkers
  repeat' (
    first
    | with_reducible assumption | with_reducible apply State.toMember_keeps | with_reducible apply State.updGl_keeps
    | with_reducible apply Keeps.each | with_reducible apply Keeps.ite | intro _ _ _ _ _ | intro _ _ _ _ | intro _ _ _
    | intro _ _ | split | with_reducible apply Keeps.fields)

theorem State.rsgradFast_keeps {kf ku : Bool} {s₀ : State} (s : State) (q : Nat) (d : Desc) (hk : Keeps true kf ku s₀ s) :
    Keeps true kf ku s₀ (State.rsgradFast s q d) := by
  unfold State.rsgradFast
  repeat' (
    first
    | with_reducible assumption | with_reducible apply State.descDone_keeps | with_reducible apply State.haltDesc_keeps
    | with_reducible apply State.pushFrom_keeps | with_reducible apply State.sendMarkers_keeps
    | with_reducible apply State.updQu_keeps | with_reducible apply Keeps.ite | intro _ _ _ _ _ | intro _ _ _ _ | intro _ _ _
    | intro _ _ | split | with_reducible apply Keeps.fields)

theorem State.rsgradExact_keeps {km kf ku : Bool} {s₀ : State} (s : State) (q : Nat) (d : Desc) (hk : Keeps km kf ku s₀ s) :
    Keeps km kf ku s₀ (State.rsgradExact s q d) := by
  unfold State.rsgradExact
  repeat' (
    first
    | with_reducible assumption | with_reducible apply State.descDone_keeps | with_reducible apply State.openWindow_keeps
    | with_reducible apply State.sendMarkers_keeps | with_reducible apply State.toMember_keeps
    | with_reducible apply State.updGl_keeps | with_reducible apply Keeps.each | with_reducible apply Keeps.ite
    | intro _ _ _ _ _ | intro _ _ _ _ | intro _ _ _ | intro _ _ | split | with_reducible apply Keeps.fields)

theorem State.settleRsgrad_keeps {km kf ku : Bool} {s₀ : State} (s : State) (g : Nat) (hk : Keeps km kf ku s₀ s) :
    Keeps km kf ku s₀ (State.settleRsgrad s g) := by
  unfold State.settleRsgrad
  repeat' (
    first
    | with_reducible assumption | with_reducible apply State.completeDesc_keeps | with_reducible apply Keeps.each
    | with_reducible apply Keeps.ite | intro _ _ _ _ _ | intro _ _ _ _ | intro _ _ _ | intro _ _ | split
    | with_reducible apply Keeps.fields)

theorem execDescNop_keeps {km kf ku : Bool} (q : QueueId) (index : Nat) (s : State) :
    OutKeeps km kf ku s (execDescNop q index s) := by
  unfold execDescNop
  repeat' (
    first
    | with_reducible assumption | with_reducible exact Keeps.refl _ | with_reducible apply OutKeeps.next
    | with_reducible apply OutKeeps.ite | with_reducible apply State.descDone_keeps | with_reducible apply State.runOp_keeps
    | with_reducible apply Keeps.inMain | with_reducible apply Keeps.ite | intro _ _ _ _ _ | intro _ _ _ _ | intro _ _ _
    | intro _ _ | split | with_reducible apply Keeps.fields)

theorem execDescAllreduce_keeps {kf ku : Bool} (q : QueueId) (index : Nat) (others : List (List F32)) (s : State) :
    OutKeeps true kf ku s (execDescAllreduce q index others s) := by
  unfold execDescAllreduce
  repeat' (
    first
    | with_reducible assumption | with_reducible exact Keeps.refl _ | with_reducible apply OutKeeps.next
    | with_reducible apply OutKeeps.ite | with_reducible apply State.allreduce_keeps | with_reducible apply State.runOp_keeps
    | with_reducible apply Keeps.inMain | with_reducible apply Keeps.ite | intro _ _ _ _ _ | intro _ _ _ _ | intro _ _ _
    | intro _ _ | split | with_reducible apply Keeps.fields)

theorem execDescReducescatter_keeps {kf ku : Bool} (q : QueueId) (index : Nat) (others : List (List F32)) (s : State) :
    OutKeeps true kf ku s (execDescReducescatter q index others s) := by
  unfold execDescReducescatter
  repeat' (
    first
    | with_reducible assumption | with_reducible exact Keeps.refl _ | with_reducible apply OutKeeps.next
    | with_reducible apply OutKeeps.ite | with_reducible apply State.reducescatter_keeps
    | with_reducible apply State.runOp_keeps | with_reducible apply Keeps.inMain | with_reducible apply Keeps.ite
    | intro _ _ _ _ _ | intro _ _ _ _ | intro _ _ _ | intro _ _ | split | with_reducible apply Keeps.fields)

theorem execDescAllgather_keeps {kf ku : Bool} (q : QueueId) (index : Nat) (others : List (List Byte)) (s : State) :
    OutKeeps true kf ku s (execDescAllgather q index others s) := by
  unfold execDescAllgather
  repeat' (
    first
    | with_reducible assumption | with_reducible exact Keeps.refl _ | with_reducible apply OutKeeps.next
    | with_reducible apply OutKeeps.ite | with_reducible apply State.allgather_keeps | with_reducible apply State.runOp_keeps
    | with_reducible apply Keeps.inMain | with_reducible apply Keeps.ite | intro _ _ _ _ _ | intro _ _ _ _ | intro _ _ _
    | intro _ _ | split | with_reducible apply Keeps.fields)

theorem execDescBroadcast_keeps {kf ku : Bool} (q : QueueId) (index : Nat) (root : List Byte) (s : State) :
    OutKeeps true kf ku s (execDescBroadcast q index root s) := by
  unfold execDescBroadcast
  repeat' (
    first
    | with_reducible assumption | with_reducible exact Keeps.refl _ | with_reducible apply OutKeeps.next
    | with_reducible apply OutKeeps.ite | with_reducible apply State.broadcast_keeps | with_reducible apply State.runOp_keeps
    | with_reducible apply Keeps.inMain | with_reducible apply Keeps.ite | intro _ _ _ _ _ | intro _ _ _ _ | intro _ _ _
    | intro _ _ | split | with_reducible apply Keeps.fields)

theorem State.hostBarrier_keeps {km kf ku : Bool} {s₀ : State} (s : State) (q : Nat) (d : Desc) (issued : List Nat) (hk : Keeps km kf ku s₀ s) :
    Keeps km kf ku s₀ (State.hostBarrier s q d issued) := by
  unfold State.hostBarrier
  repeat' (
    first
    | with_reducible assumption | with_reducible apply State.descDone_keeps | with_reducible apply State.toAll_keeps
    | with_reducible apply State.toMember_keeps | with_reducible apply Keeps.ite | intro _ _ _ _ _ | intro _ _ _ _ | intro _ _ _
    | intro _ _ | split | with_reducible apply Keeps.fields)

theorem execDescBarrier_keeps {km kf ku : Bool} (q : QueueId) (index : Nat) (issued : List Nat) (s : State) :
    OutKeeps km kf ku s (execDescBarrier q index issued s) := by
  unfold execDescBarrier
  repeat' (
    first
    | with_reducible assumption | with_reducible exact Keeps.refl _ | with_reducible apply OutKeeps.next
    | with_reducible apply OutKeeps.ite | with_reducible apply State.hostBarrier_keeps | with_reducible apply State.runOp_keeps
    | with_reducible apply Keeps.inMain | with_reducible apply Keeps.ite | intro _ _ _ _ _ | intro _ _ _ _ | intro _ _ _
    | intro _ _ | split | with_reducible apply Keeps.fields)

theorem execDescPermute_keeps {kf ku : Bool} (q : QueueId) (index : Nat) (received : Option (Nat × List Byte)) (s : State) :
    OutKeeps true kf ku s (execDescPermute q index received s) := by
  unfold execDescPermute
  repeat' (
    first
    | with_reducible assumption | with_reducible exact Keeps.refl _ | with_reducible apply OutKeeps.next
    | with_reducible apply OutKeeps.ite | with_reducible apply State.permute_keeps | with_reducible apply State.runOp_keeps
    | with_reducible apply Keeps.inMain | with_reducible apply Keeps.ite | intro _ _ _ _ _ | intro _ _ _ _ | intro _ _ _
    | intro _ _ | split | with_reducible apply Keeps.fields)

theorem execDescMcast_keeps {kf ku : Bool} (q : QueueId) (index : Nat) (s : State) :
    OutKeeps true kf ku s (execDescMcast q index s) := by
  unfold execDescMcast
  repeat' (
    first
    | with_reducible assumption | with_reducible exact Keeps.refl _ | with_reducible apply OutKeeps.next
    | with_reducible apply OutKeeps.ite | with_reducible apply State.mcast_keeps | with_reducible apply State.runOp_keeps
    | with_reducible apply Keeps.inMain | with_reducible apply Keeps.ite | intro _ _ _ _ _ | intro _ _ _ _ | intro _ _ _
    | intro _ _ | split | with_reducible apply Keeps.fields)

theorem execMcastFallback_keeps {km kf ku : Bool} (q : QueueId) (index : Nat) (missing : List Nat) (s : State) :
    OutKeeps km kf ku s (execMcastFallback q index missing s) := by
  unfold execMcastFallback
  repeat' (
    first
    | with_reducible assumption | with_reducible exact Keeps.refl _ | with_reducible apply OutKeeps.next
    | with_reducible apply OutKeeps.ite | with_reducible apply State.mcastMissing_keeps | with_reducible apply Keeps.inMain
    | with_reducible apply Keeps.ite | intro _ _ _ _ _ | intro _ _ _ _ | intro _ _ _ | intro _ _ | split
    | with_reducible apply Keeps.fields)

theorem execDescRsgrad_keeps {kf ku : Bool} (q : QueueId) (index : Nat) (s : State) :
    OutKeeps true kf ku s (execDescRsgrad q index s) := by
  unfold execDescRsgrad
  repeat' (
    first
    | with_reducible assumption | with_reducible exact Keeps.refl _ | with_reducible apply OutKeeps.next
    | with_reducible apply OutKeeps.ite | with_reducible apply State.rsgradExact_keeps
    | with_reducible apply State.rsgradFast_keeps | with_reducible apply State.runOp_keeps | with_reducible apply Keeps.inMain
    | with_reducible apply Keeps.ite | intro _ _ _ _ _ | intro _ _ _ _ | intro _ _ _ | intro _ _ | split
    | with_reducible apply Keeps.fields)

end Sys2Proof.Machine
end

