-- ==== Sys2Proof/Laws/KeepsAccum.lean ====
section
/-! SUPPORT. What the operations of Machine/Accum.lean keep (the relation Keeps). -/
set_option linter.unusedTactic false
set_option linter.unreachableTactic false
set_option linter.unusedVariables false
namespace Sys2Proof.Machine

theorem State.late_keeps {km kf ku : Bool} {s₀ : State} (s : State) (g : Nat) (hk : Keeps km kf ku s₀ s) :
    Keeps km kf ku s₀ (State.late s g) := by
  unfold State.late
  repeat' (
    first
    | with_reducible assumption | with_reducible apply State.inc_keeps | with_reducible apply Keeps.ite | intro _ _ _ _ _
    | intro _ _ _ _ | intro _ _ _ | intro _ _ | split | with_reducible apply Keeps.fields)

theorem State.addBlock_keeps {kf ku : Bool} {s₀ : State} (s : State) (g : Nat) (c : Contribution) (hk : Keeps true kf ku s₀ s) :
    Keeps true kf ku s₀ (State.addBlock s g c) := by
  unfold State.addBlock
  repeat' (
    first
    | with_reducible assumption | with_reducible apply State.charge_keeps | with_reducible apply State.raiseExc_keeps
    | with_reducible apply State.readCheck_keeps | with_reducible apply State.store_keeps
    | with_reducible apply State.updGl_keeps | with_reducible apply Keeps.ite | intro _ _ _ _ _ | intro _ _ _ _ | intro _ _ _
    | intro _ _ | split | with_reducible apply Keeps.fields)

theorem State.drain_keeps {kf ku : Bool} {s₀ : State} (s : State) (g n : Nat) (h : Keeps true kf ku s₀ s) :
    Keeps true kf ku s₀ (State.drain s g n) := by
  induction n generalizing s with
  | zero => exact h
  | succ n ih =>
    unfold State.drain
    split
    · exact h
    · exact ih _ (State.addBlock_keeps _ _ _ (State.updGl_keeps _ _ _ h))

theorem State.drainHeld_keeps {kf ku : Bool} {s₀ : State} (s : State) (g : Nat) (hk : Keeps true kf ku s₀ s) :
    Keeps true kf ku s₀ (State.drainHeld s g) := by
  unfold State.drainHeld
  repeat' (
    first
    | with_reducible assumption | with_reducible apply State.drain_keeps | with_reducible apply Keeps.ite | intro _ _ _ _ _
    | intro _ _ _ _ | intro _ _ _ | intro _ _ | split | with_reducible apply Keeps.fields)

theorem State.answerPull_keeps {km kf ku : Bool} {s₀ : State} (s : State) (g : Nat) (c : Contribution) (hk : Keeps km kf ku s₀ s) :
    Keeps km kf ku s₀ (State.answerPull s g c) := by
  unfold State.answerPull
  repeat' (
    first
    | with_reducible assumption | with_reducible apply State.toMember_keeps | with_reducible apply Keeps.ite | intro _ _ _ _ _
    | intro _ _ _ _ | intro _ _ _ | intro _ _ | split | with_reducible apply Keeps.fields)

theorem State.contribute_keeps {kf ku : Bool} {s₀ : State} (s : State) (g : Nat) (c : Contribution) (hk : Keeps true kf ku s₀ s) :
    Keeps true kf ku s₀ (State.contribute s g c) := by
  unfold State.contribute
  repeat' (
    first
    | with_reducible assumption | with_reducible apply State.answerPull_keeps | with_reducible apply State.drainHeld_keeps
    | with_reducible apply State.late_keeps | with_reducible apply State.openWindow_keeps
    | with_reducible apply State.updGl_keeps | with_reducible apply Keeps.ite | intro _ _ _ _ _ | intro _ _ _ _ | intro _ _ _
    | intro _ _ | split | with_reducible apply Keeps.fields)

theorem execSkipreq_keeps {km kf ku : Bool} (g : GladeId) (s : State) : OutKeeps km kf ku s (execSkipreq g s) := by
  unfold execSkipreq
  repeat' (
    first
    | with_reducible assumption | with_reducible exact Keeps.refl _ | with_reducible apply OutKeeps.next
    | with_reducible apply OutKeeps.ite | with_reducible apply State.wr_keeps | with_reducible apply Keeps.inMain
    | with_reducible apply Keeps.ite | intro _ _ _ _ _ | intro _ _ _ _ | intro _ _ _ | intro _ _ | split
    | with_reducible apply Keeps.fields)

theorem execContribution_keeps {kf ku : Bool} (g : GladeId) (ringLo sidx layer block : Nat) (values : List F32) (s : State) :
    OutKeeps true kf ku s (execContribution g ringLo sidx layer block values s) := by
  unfold execContribution
  repeat' (
    first
    | with_reducible assumption | with_reducible exact Keeps.refl _ | with_reducible apply OutKeeps.next
    | with_reducible apply OutKeeps.ite | with_reducible apply State.contribute_keeps | with_reducible apply Keeps.inMain
    | with_reducible apply Keeps.ite | intro _ _ _ _ _ | intro _ _ _ _ | intro _ _ _ | intro _ _ | split
    | with_reducible apply Keeps.fields)

theorem execEndOfStepMarker_keeps {kf ku : Bool} (g : GladeId) (ringLo sidx blocks : Nat) (s : State) :
    OutKeeps true kf ku s (execEndOfStepMarker g ringLo sidx blocks s) := by
  unfold execEndOfStepMarker
  repeat' (
    first
    | with_reducible assumption | with_reducible exact Keeps.refl _ | with_reducible apply OutKeeps.next
    | with_reducible apply OutKeeps.ite | with_reducible apply State.drainHeld_keeps | with_reducible apply State.toMember_keeps
    | with_reducible apply State.updGl_keeps | with_reducible apply Keeps.inMain | with_reducible apply Keeps.ite
    | intro _ _ _ _ _ | intro _ _ _ _ | intro _ _ _ | intro _ _ | split | with_reducible apply Keeps.fields)

theorem execMarkerReceipt_keeps {km kf ku : Bool} (g : GladeId) (owner ringLo sidx blocks : Nat) (s : State) :
    OutKeeps km kf ku s (execMarkerReceipt g owner ringLo sidx blocks s) := by
  unfold execMarkerReceipt
  repeat' (
    first
    | with_reducible assumption | with_reducible exact Keeps.refl _ | with_reducible apply OutKeeps.next
    | with_reducible apply OutKeeps.ite | with_reducible apply State.settleRsgrad_keeps | with_reducible apply State.updGl_keeps
    | with_reducible apply Keeps.inMain | with_reducible apply Keeps.ite | intro _ _ _ _ _ | intro _ _ _ _ | intro _ _ _
    | intro _ _ | split | with_reducible apply Keeps.fields)

theorem execMarkerResend_keeps {km kf ku : Bool} (g : GladeId) (owner sidx : Nat) (s : State) :
    OutKeeps km kf ku s (execMarkerResend g owner sidx s) := by
  unfold execMarkerResend
  repeat' (
    first
    | with_reducible assumption | with_reducible exact Keeps.refl _ | with_reducible apply OutKeeps.next
    | with_reducible apply OutKeeps.ite | with_reducible apply State.toMember_keeps | with_reducible apply Keeps.each
    | with_reducible apply Keeps.inMain | with_reducible apply Keeps.ite | intro _ _ _ _ _ | intro _ _ _ _ | intro _ _ _
    | intro _ _ | split | with_reducible apply Keeps.fields)

theorem execReadyNotice_keeps {km kf ku : Bool} (g : GladeId) (ringLo sidx layer block src : Nat) (s : State) :
    OutKeeps km kf ku s (execReadyNotice g ringLo sidx layer block src s) := by
  unfold execReadyNotice
  repeat' (
    first
    | with_reducible assumption | with_reducible exact Keeps.refl _ | with_reducible apply OutKeeps.next
    | with_reducible apply OutKeeps.ite | with_reducible apply State.openWindow_keeps
    | with_reducible apply State.toMember_keeps | with_reducible apply State.updGl_keeps | with_reducible apply Keeps.each
    | with_reducible apply Keeps.inMain | with_reducible apply Keeps.ite | intro _ _ _ _ _ | intro _ _ _ _ | intro _ _ _
    | intro _ _ | split | with_reducible apply Keeps.fields)

theorem execPullDone_keeps {km kf ku : Bool} (g : GladeId) (owner sidx layer _count : Nat) (s : State) :
    OutKeeps km kf ku s (execPullDone g owner sidx layer _count s) := by
  unfold execPullDone
  repeat' (
    first
    | with_reducible assumption | with_reducible exact Keeps.refl _ | with_reducible apply OutKeeps.next
    | with_reducible apply OutKeeps.ite | with_reducible apply State.settleRsgrad_keeps | with_reducible apply State.updGl_keeps
    | with_reducible apply Keeps.inMain | with_reducible apply Keeps.ite | intro _ _ _ _ _ | intro _ _ _ _ | intro _ _ _
    | intro _ _ | split | with_reducible apply Keeps.fields)

theorem State.formPartial_keeps {kf ku : Bool} {s₀ : State} (s : State) (g missing : Nat) (hk : Keeps true kf ku s₀ s) :
    Keeps true kf ku s₀ (State.formPartial s g missing) := by
  unfold State.formPartial
  repeat' (
    first
    | with_reducible assumption | with_reducible apply State.charge_keeps | with_reducible apply State.readCheck_keeps
    | with_reducible apply State.setStage_keeps | with_reducible apply State.updGl_keeps
    | with_reducible apply State.useFree_keeps | with_reducible apply Keeps.ite | intro _ _ _ _ _ | intro _ _ _ _ | intro _ _ _
    | intro _ _ | split | with_reducible apply Keeps.fields)

theorem execPartialVerdict_keeps {kf ku : Bool} (g : GladeId) (s : State) : OutKeeps true kf ku s (execPartialVerdict g s) := by
  unfold execPartialVerdict
  repeat' (
    first
    | with_reducible assumption | with_reducible exact Keeps.refl _ | with_reducible apply OutKeeps.next
    | with_reducible apply OutKeeps.ite | with_reducible apply State.formPartial_keeps | with_reducible apply Keeps.inMain
    | with_reducible apply Keeps.ite | intro _ _ _ _ _ | intro _ _ _ _ | intro _ _ _ | intro _ _ | split
    | with_reducible apply Keeps.fields)

theorem execStragglerDeadline_keeps {kf ku : Bool} (g : GladeId) (s : State) :
    OutKeeps true kf ku s (execStragglerDeadline g s) := by
  unfold execStragglerDeadline
  repeat' (
    first
    | with_reducible assumption | with_reducible exact Keeps.refl _ | with_reducible apply OutKeeps.next
    | with_reducible apply OutKeeps.ite | with_reducible apply State.formPartial_keeps | with_reducible apply Keeps.inMain
    | with_reducible apply Keeps.ite | intro _ _ _ _ _ | intro _ _ _ _ | intro _ _ _ | intro _ _ | split
    | with_reducible apply Keeps.fields)

theorem State.distribute_keeps {km kf ku : Bool} {s₀ : State} (s : State) (g : Nat) (name : String) (args : List Nat) (data : List Byte) (hk : Keeps km kf ku s₀ s) :
    Keeps km kf ku s₀ (State.distribute s g name args data) := by
  unfold State.distribute
  repeat' (
    first
    | with_reducible assumption | with_reducible apply State.toAll_keeps | with_reducible apply State.toMembers_keeps
    | with_reducible apply Keeps.ite | intro _ _ _ _ _ | intro _ _ _ _ | intro _ _ _ | intro _ _ | split
    | with_reducible apply Keeps.fields)

theorem State.passOn_keeps {km kf ku : Bool} {s₀ : State} (s : State) (g : Nat) (name : String) (args : List Nat) (data : List Byte) (hk : Keeps km kf ku s₀ s) :
    Keeps km kf ku s₀ (State.passOn s g name args data) := by
  unfold State.passOn
  repeat' (
    first
    | with_reducible assumption | with_reducible apply State.toMembers_keeps | with_reducible apply Keeps.ite | intro _ _ _ _ _
    | intro _ _ _ _ | intro _ _ _ | intro _ _ | split | with_reducible apply Keeps.fields)

theorem State.zeroBuffers_keeps {kf ku : Bool} {s₀ : State} (s : State) (g : Nat) (hk : Keeps true kf ku s₀ s) :
    Keeps true kf ku s₀ (State.zeroBuffers s g) := by
  unfold State.zeroBuffers
  repeat' (
    first
    | with_reducible assumption | with_reducible apply State.charge_keeps | with_reducible apply State.store_keeps
    | with_reducible apply Keeps.each | with_reducible apply Keeps.ite | intro _ _ _ _ _ | intro _ _ _ _ | intro _ _ _
    | intro _ _ | split | with_reducible apply Keeps.fields)

theorem State.discardHeld_keeps {km kf ku : Bool} {s₀ : State} (s : State) (g : Nat) (hk : Keeps km kf ku s₀ s) :
    Keeps km kf ku s₀ (State.discardHeld s g) := by
  unfold State.discardHeld
  repeat' (
    first
    | with_reducible assumption | with_reducible apply State.add_keeps | with_reducible apply State.updGl_keeps
    | with_reducible apply Keeps.ite | intro _ _ _ _ _ | intro _ _ _ _ | intro _ _ _ | intro _ _ | split
    | with_reducible apply Keeps.fields)

theorem State.takeVerdict_keeps {kf ku : Bool} {s₀ : State} (s : State) (g : Nat) (v : List Byte) (hk : Keeps true kf ku s₀ s) :
    Keeps true kf ku s₀ (State.takeVerdict s g v) := by
  unfold State.takeVerdict
  repeat' (
    first
    | with_reducible assumption | with_reducible apply State.discardHeld_keeps | with_reducible apply State.drainHeld_keeps
    | with_reducible apply State.inc_keeps | with_reducible apply State.setStage_keeps | with_reducible apply State.updGl_keeps
    | with_reducible apply State.wr_keeps | with_reducible apply State.zeroBuffers_keeps | with_reducible apply Keeps.ite
    | intro _ _ _ _ _ | intro _ _ _ _ | intro _ _ _ | intro _ _ | split | with_reducible apply Keeps.fields)

theorem State.sendVerdictUp_keeps {km kf ku : Bool} {s₀ : State} (s : State) (g parent place : Nat) (p : PartialVerdict) (hk : Keeps km kf ku s₀ s) :
    Keeps km kf ku s₀ (State.sendVerdictUp s g parent place p) := by
  unfold State.sendVerdictUp
  repeat' (
    first
    | with_reducible assumption | with_reducible apply State.toMember_keeps | with_reducible apply Keeps.ite | intro _ _ _ _ _
    | intro _ _ _ _ | intro _ _ _ | intro _ _ | split | with_reducible apply Keeps.fields)

theorem State.eachSide_keeps {km kf ku : Bool} {s₀ : State} {α : Type} (s : State) (g : Nat) (l : List (Nat × α)) (f : State → Nat → Nat → List α → State) (hk : Keeps km kf ku s₀ s) (hf : ∀ v x0 x1 x2, Keeps km kf ku s₀ v → Keeps km kf ku s₀ (f v x0 x1 x2)) :
    Keeps km kf ku s₀ (State.eachSide s g l f) := by
  unfold State.eachSide
  repeat' (
    first
    | with_reducible assumption | with_reducible apply hf | with_reducible apply Keeps.each | with_reducible apply Keeps.ite
    | intro _ _ _ _ _ | intro _ _ _ _ | intro _ _ _ | intro _ _ | split | with_reducible apply Keeps.fields)

theorem State.reduceVerdict_keeps {kf ku : Bool} {s₀ : State} (s : State) (g : Nat) (hk : Keeps true kf ku s₀ s) :
    Keeps true kf ku s₀ (State.reduceVerdict s g) := by
  unfold State.reduceVerdict
  repeat' (
    first
    | with_reducible assumption | with_reducible apply State.distribute_keeps | with_reducible apply State.eachSide_keeps
    | with_reducible apply State.sendVerdictUp_keeps | with_reducible apply State.takeVerdict_keeps
    | with_reducible apply Keeps.ite | intro _ _ _ _ _ | intro _ _ _ _ | intro _ _ _ | intro _ _ | split
    | with_reducible apply Keeps.fields)

theorem execVerdictReduction_keeps {kf ku : Bool} (g : GladeId) (s : State) :
    OutKeeps true kf ku s (execVerdictReduction g s) := by
  unfold execVerdictReduction
  repeat' (
    first
    | with_reducible assumption | with_reducible exact Keeps.refl _ | with_reducible apply OutKeeps.next
    | with_reducible apply OutKeeps.ite | with_reducible apply State.reduceVerdict_keeps | with_reducible apply Keeps.inMain
    | with_reducible apply Keeps.ite | intro _ _ _ _ _ | intro _ _ _ _ | intro _ _ _ | intro _ _ | split
    | with_reducible apply Keeps.fields)

theorem execVerdictReceipt_keeps {kf ku : Bool} (g : GladeId) (record : List Byte) (s : State) :
    OutKeeps true kf ku s (execVerdictReceipt g record s) := by
  unfold execVerdictReceipt
  repeat' (
    first
    | with_reducible assumption | with_reducible exact Keeps.refl _ | with_reducible apply OutKeeps.next
    | with_reducible apply OutKeeps.ite | with_reducible apply State.passOn_keeps | with_reducible apply State.record_keeps
    | with_reducible apply State.takeVerdict_keeps | with_reducible apply State.toMember_keeps
    | with_reducible apply Keeps.inMain | with_reducible apply Keeps.ite | intro _ _ _ _ _ | intro _ _ _ _ | intro _ _ _
    | intro _ _ | split | with_reducible apply Keeps.fields)

theorem State.takeTrust_keeps {km kf ku : Bool} {s₀ : State} (s : State) (g : Nat) (l : List LayerSum) (hk : Keeps km kf ku s₀ s) :
    Keeps km kf ku s₀ (State.takeTrust s g l) := by
  unfold State.takeTrust
  repeat' (
    first
    | with_reducible assumption | with_reducible apply State.setStage_keeps | with_reducible apply State.updGl_keeps
    | with_reducible apply Keeps.ite | intro _ _ _ _ _ | intro _ _ _ _ | intro _ _ _ | intro _ _ | split
    | with_reducible apply Keeps.fields)

theorem State.reduceTrust_keeps {km kf ku : Bool} {s₀ : State} (s : State) (g : Nat) (hk : Keeps km kf ku s₀ s) :
    Keeps km kf ku s₀ (State.reduceTrust s g) := by
  unfold State.reduceTrust
  repeat' (
    first
    | with_reducible assumption | with_reducible apply State.distribute_keeps | with_reducible apply State.eachSide_keeps
    | with_reducible apply State.takeTrust_keeps | with_reducible apply State.toMember_keeps | with_reducible apply Keeps.each
    | with_reducible apply Keeps.ite | intro _ _ _ _ _ | intro _ _ _ _ | intro _ _ _ | intro _ _ | split
    | with_reducible apply Keeps.fields)

theorem execTrustRatioReduction_keeps {km kf ku : Bool} (g : GladeId) (s : State) :
    OutKeeps km kf ku s (execTrustRatioReduction g s) := by
  unfold execTrustRatioReduction
  repeat' (
    first
    | with_reducible assumption | with_reducible exact Keeps.refl _ | with_reducible apply OutKeeps.next
    | with_reducible apply OutKeeps.ite | with_reducible apply State.reduceTrust_keeps | with_reducible apply Keeps.inMain
    | with_reducible apply Keeps.ite | intro _ _ _ _ _ | intro _ _ _ _ | intro _ _ _ | intro _ _ | split
    | with_reducible apply Keeps.fields)

theorem execTrustRatioResult_keeps {km kf ku : Bool} (g : GladeId) (sums : List LayerSum) (s : State) :
    OutKeeps km kf ku s (execTrustRatioResult g sums s) := by
  unfold execTrustRatioResult
  repeat' (
    first
    | with_reducible assumption | with_reducible exact Keeps.refl _ | with_reducible apply OutKeeps.next
    | with_reducible apply OutKeeps.ite | with_reducible apply State.passOn_keeps | with_reducible apply State.takeTrust_keeps
    | with_reducible apply Keeps.inMain | with_reducible apply Keeps.ite | intro _ _ _ _ _ | intro _ _ _ _ | intro _ _ _
    | intro _ _ | split | with_reducible apply Keeps.fields)

end Sys2Proof.Machine
end

