-- ==== Sys2Proof/Laws/KeepsDelta.lean ====
section
/-! SUPPORT. What the operations of Machine/Delta.lean keep (the relation Keeps). -/
set_option linter.unusedTactic false
set_option linter.unreachableTactic false
set_option linter.unusedVariables false
namespace Sys2Proof.Machine

theorem State.sendLmn_keeps {km kf ku : Bool} {s₀ : State} (s : State) (g : Nat) (next : Bool) (lmn : Nat) (name : String) (args : List Nat) (data : List Byte) (hk : Keeps km kf ku s₀ s) :
    Keeps km kf ku s₀ (State.sendLmn s g next lmn name args data) := by
  unfold State.sendLmn
  repeat' (
    first
    | with_reducible assumption | with_reducible apply State.toMember_keeps | with_reducible apply State.toNode_keeps
    | with_reducible apply Keeps.ite | intro _ _ _ _ _ | intro _ _ _ _ | intro _ _ _ | intro _ _ | split
    | with_reducible apply Keeps.fields)

theorem State.sendCopy_keeps {km kf ku : Bool} {s₀ : State} (s : State) (g : Nat) (next : Bool) (row didx : Nat) (delta : List Byte) (j : Nat) (hk : Keeps km kf ku s₀ s) :
    Keeps km kf ku s₀ (State.sendCopy s g next row didx delta j) := by
  unfold State.sendCopy
  repeat' (
    first
    | with_reducible assumption | with_reducible apply State.charge_keeps | with_reducible apply State.countGf_keeps
    | with_reducible apply State.sendLmn_keeps | with_reducible apply State.updGl_keeps | with_reducible apply Keeps.ite
    | intro _ _ _ _ _ | intro _ _ _ _ | intro _ _ _ | intro _ _ | split | with_reducible apply Keeps.fields)

theorem State.sendCopies_keeps {km kf ku : Bool} {s₀ : State} (s : State) (g : Nat) (next : Bool) (q : Nat) (delta : List Byte) (hk : Keeps km kf ku s₀ s) :
    Keeps km kf ku s₀ (State.sendCopies s g next q delta) := by
  unfold State.sendCopies
  repeat' (
    first
    | with_reducible assumption | with_reducible apply State.sendCopy_keeps | with_reducible apply Keeps.each
    | with_reducible apply Keeps.ite | intro _ _ _ _ _ | intro _ _ _ _ | intro _ _ _ | intro _ _ | split
    | with_reducible apply Keeps.fields)

theorem State.countDelta_keeps {km kf ku : Bool} {s₀ : State} (s : State) (g : Nat) (delta : List Byte) (hk : Keeps km kf ku s₀ s) :
    Keeps km kf ku s₀ (State.countDelta s g delta) := by
  unfold State.countDelta
  repeat' (
    first
    | with_reducible assumption | with_reducible apply State.add_keeps | with_reducible apply State.inc_keeps
    | with_reducible apply State.updGl_keeps | with_reducible apply Keeps.ite | intro _ _ _ _ _ | intro _ _ _ _ | intro _ _ _
    | intro _ _ | split | with_reducible apply Keeps.fields)

theorem State.sendDelta_keeps {km kf ku : Bool} {s₀ : State} (s : State) (g q : Nat) (delta : List Byte) (hk : Keeps km kf ku s₀ s) :
    Keeps km kf ku s₀ (State.sendDelta s g q delta) := by
  unfold State.sendDelta
  repeat' (
    first
    | with_reducible assumption | with_reducible apply State.countDelta_keeps | with_reducible apply State.sendCopies_keeps
    | with_reducible apply Keeps.ite | intro _ _ _ _ _ | intro _ _ _ _ | intro _ _ _ | intro _ _ | split
    | with_reducible apply Keeps.fields)

theorem State.writeUndo_keeps {kf ku : Bool} {s₀ : State} {s : State} {g : Nat} {next : Bool} {q : Nat} {delta : List Byte} {t : State}
    (ht : State.writeUndo s g next q delta = some t) (h : Keeps true kf ku s₀ s) : Keeps true kf ku s₀ t := by
  unfold State.writeUndo at ht
  dsimp only at ht
  split at ht
  · cases ht
  · simp only [Option.some.injEq] at ht
    subst ht
    apply Keeps.ite
    · exact State.updGl_keeps _ _ _ (State.charge_keeps _ _ _ _ _ (State.store_keeps _ _ _ h))
    · exact State.raise_keeps _ _ _ _ (State.updGl_keeps _ _ _ (State.charge_keeps _ _ _ _ _ (State.store_keeps _ _ _ h)))

theorem State.undoFull_keeps {km kf ku : Bool} {s₀ : State} (s : State) (g t : Nat) (leaves : List Nat) (hk : Keeps km kf ku s₀ s) :
    Keeps km kf ku s₀ (State.undoFull s g t leaves) := by
  unfold State.undoFull
  repeat' (
    first
    | with_reducible assumption | with_reducible apply State.record_keeps | with_reducible apply State.updGl_keeps
    | with_reducible apply State.wr_keeps | with_reducible apply Keeps.ite | intro _ _ _ _ _ | intro _ _ _ _ | intro _ _ _
    | intro _ _ | split | with_reducible apply Keeps.fields)

theorem State.rememberNext_keeps {km kf ku : Bool} {s₀ : State} (s : State) (g e : Nat) (hk : Keeps km kf ku s₀ s) :
    Keeps km kf ku s₀ (State.rememberNext s g e) := by
  unfold State.rememberNext
  repeat' (
    first
    | with_reducible assumption | with_reducible apply State.updGl_keeps | with_reducible apply Keeps.ite | intro _ _ _ _ _
    | intro _ _ _ _ | intro _ _ _ | intro _ _ | split | with_reducible apply Keeps.fields)

theorem State.sendLedger_keeps {kf ku : Bool} {s₀ : State} (s : State) (g e : Nat) (hk : Keeps true kf ku s₀ s) :
    Keeps true kf ku s₀ (State.sendLedger s g e) := by
  unfold State.sendLedger
  repeat' (
    first
    | with_reducible assumption | with_reducible refine State.writeUndo_keeps (by assumption) ?_
    | with_reducible apply State.sendDelta_keeps | with_reducible apply State.undoFull_keeps
    | with_reducible apply State.updGl_keeps | with_reducible apply Keeps.ite | intro _ _ _ _ _ | intro _ _ _ _ | intro _ _ _
    | intro _ _ | split | with_reducible apply Keeps.fields)

theorem State.flushLedgers_keeps {kf ku : Bool} {s₀ : State} (s : State) (g : Nat) (hk : Keeps true kf ku s₀ s) :
    Keeps true kf ku s₀ (State.flushLedgers s g) := by
  unfold State.flushLedgers
  repeat' (
    first
    | with_reducible assumption | with_reducible apply State.sendLedger_keeps | with_reducible apply Keeps.each
    | with_reducible apply Keeps.ite | intro _ _ _ _ _ | intro _ _ _ _ | intro _ _ _ | intro _ _ | split
    | with_reducible apply Keeps.fields)

theorem State.nextUndo_keeps {kf ku : Bool} {s₀ : State} (s : State) (g q : Nat) (delta : List Byte) (hk : Keeps true kf ku s₀ s) :
    Keeps true kf ku s₀ (State.nextUndo s g q delta) := by
  unfold State.nextUndo
  repeat' (
    first
    | with_reducible assumption | with_reducible refine State.writeUndo_keeps (by assumption) ?_
    | with_reducible apply State.wr_keeps | with_reducible apply Keeps.ite | intro _ _ _ _ _ | intro _ _ _ _ | intro _ _ _
    | intro _ _ | split | with_reducible apply Keeps.fields)

theorem State.nextLeaf_keeps {kf ku : Bool} {s₀ : State} (s : State) (g t' : Nat) (x : Nat × List Byte) (hk : Keeps true kf ku s₀ s) :
    Keeps true kf ku s₀ (State.nextLeaf s g t' x) := by
  unfold State.nextLeaf
  repeat' (
    first
    | with_reducible assumption | with_reducible apply State.nextUndo_keeps | with_reducible apply State.sendCopies_keeps
    | with_reducible apply State.store_keeps | with_reducible apply Keeps.ite | intro _ _ _ _ _ | intro _ _ _ _ | intro _ _ _
    | intro _ _ | split | with_reducible apply Keeps.fields)

theorem State.nextRound_keeps {kf ku : Bool} {s₀ : State} (s : State) (g l b t' ring : Nat) (hk : Keeps true kf ku s₀ s) :
    Keeps true kf ku s₀ (State.nextRound s g l b t' ring) := by
  unfold State.nextRound
  repeat' (
    first
    | with_reducible assumption | with_reducible apply State.store_keeps | with_reducible apply Keeps.ite | intro _ _ _ _ _
    | intro _ _ _ _ | intro _ _ _ | intro _ _ | split | with_reducible apply Keeps.fields)

theorem State.nextChange_keeps {kf ku : Bool} {s₀ : State} (s : State) (g l b : Nat) (deltas : List (Nat × List Byte)) (entry : List Byte) (hk : Keeps true kf ku s₀ s) :
    Keeps true kf ku s₀ (State.nextChange s g l b deltas entry) := by
  unfold State.nextChange
  repeat' (
    first
    | with_reducible assumption | with_reducible apply State.nextLeaf_keeps | with_reducible apply State.nextRound_keeps
    | with_reducible apply State.rememberNext_keeps | with_reducible apply State.store_keeps | with_reducible apply Keeps.each
    | with_reducible apply Keeps.ite | intro _ _ _ _ _ | intro _ _ _ _ | intro _ _ _ | intro _ _ | split
    | with_reducible apply Keeps.fields)

theorem State.flushNextLedgers_keeps {kf ku : Bool} {s₀ : State} (s : State) (g : Nat) (hk : Keeps true kf ku s₀ s) :
    Keeps true kf ku s₀ (State.flushNextLedgers s g) := by
  unfold State.flushNextLedgers
  repeat' (
    first
    | with_reducible assumption | with_reducible apply State.nextUndo_keeps | with_reducible apply State.sendCopies_keeps
    | with_reducible apply State.updGl_keeps | with_reducible apply Keeps.each | with_reducible apply Keeps.ite
    | intro _ _ _ _ _ | intro _ _ _ _ | intro _ _ _ | intro _ _ | split | with_reducible apply Keeps.fields)

theorem State.settleShadows_keeps {kf ku : Bool} {s₀ : State} (s : State) (g : Nat) (hk : Keeps true kf ku s₀ s) :
    Keeps true kf ku s₀ (State.settleShadows s g) := by
  unfold State.settleShadows
  repeat' (
    first
    | with_reducible assumption | with_reducible apply State.flushNextLedgers_keeps | with_reducible apply State.toMember_keeps
    | with_reducible apply State.updGl_keeps | with_reducible apply Keeps.each | with_reducible apply Keeps.ite
    | intro _ _ _ _ _ | intro _ _ _ _ | intro _ _ _ | intro _ _ | split | with_reducible apply Keeps.fields)

theorem State.sendEnds_keeps {km kf ku : Bool} {s₀ : State} (s : State) (g : Nat) (hk : Keeps km kf ku s₀ s) :
    Keeps km kf ku s₀ (State.sendEnds s g) := by
  unfold State.sendEnds
  repeat' (
    first
    | with_reducible assumption | with_reducible apply State.sendLmn_keeps | with_reducible apply State.updGl_keeps
    | with_reducible apply Keeps.each | with_reducible apply Keeps.ite | intro _ _ _ _ _ | intro _ _ _ _ | intro _ _ _
    | intro _ _ | split | with_reducible apply Keeps.fields)

theorem State.settleApply_keeps {kf ku : Bool} {s₀ : State} (s : State) (g : Nat) (hk : Keeps true kf ku s₀ s) :
    Keeps true kf ku s₀ (State.settleApply s g) := by
  unfold State.settleApply
  repeat' (
    first
    | with_reducible assumption | with_reducible apply State.flushLedgers_keeps | with_reducible apply State.sendEnds_keeps
    | with_reducible apply State.setStage_keeps | with_reducible apply State.settleShadows_keeps
    | with_reducible apply Keeps.ite | intro _ _ _ _ _ | intro _ _ _ _ | intro _ _ _ | intro _ _ | split
    | with_reducible apply Keeps.fields)

theorem State.holderStale_keeps {km kf ku : Bool} {s₀ : State} (s : State) (g : Nat) (next : Bool) (row pidx : Nat) (warn : Bool) (hk : Keeps km kf ku s₀ s) :
    Keeps km kf ku s₀ (State.holderStale s g next row pidx warn) := by
  unfold State.holderStale
  repeat' (
    first
    | with_reducible assumption | with_reducible apply State.inc_keeps | with_reducible apply State.record_keeps
    | with_reducible apply State.updGl_keeps | with_reducible apply Keeps.ite | intro _ _ _ _ _ | intro _ _ _ _ | intro _ _ _
    | intro _ _ | split | with_reducible apply Keeps.fields)

theorem State.copyDone_keeps {km kf ku : Bool} {s₀ : State} (s : State) (g : Nat) (next : Bool) (row pidx : Nat) (hk : Keeps km kf ku s₀ s) :
    Keeps km kf ku s₀ (State.copyDone s g next row pidx) := by
  unfold State.copyDone
  repeat' (
    first
    | with_reducible assumption | with_reducible apply State.updGl_keeps | with_reducible apply Keeps.ite | intro _ _ _ _ _
    | intro _ _ _ _ | intro _ _ _ | intro _ _ | split | with_reducible apply Keeps.fields)

theorem State.deltaFault_keeps {km kf ku : Bool} {s₀ : State} (s : State) (g row : Nat) (hk : Keeps km kf ku s₀ s) :
    Keeps km kf ku s₀ (State.deltaFault s g row) := by
  unfold State.deltaFault
  repeat' (
    first
    | with_reducible assumption | with_reducible apply State.record_keeps | with_reducible apply Keeps.ite | intro _ _ _ _ _
    | intro _ _ _ _ | intro _ _ _ | intro _ _ | split | with_reducible apply Keeps.fields)

theorem State.resendCopy_keeps {km kf ku : Bool} {s₀ : State} (s : State) (g : Nat) (c : Copy) (hk : Keeps km kf ku s₀ s) :
    Keeps km kf ku s₀ (State.resendCopy s g c) := by
  unfold State.resendCopy
  repeat' (
    first
    | with_reducible assumption | with_reducible apply State.inc_keeps | with_reducible apply State.sendLmn_keeps
    | with_reducible apply Keeps.ite | intro _ _ _ _ _ | intro _ _ _ _ | intro _ _ _ | intro _ _ | split
    | with_reducible apply Keeps.fields)

theorem State.epochAnswer_keeps {km kf ku : Bool} {s₀ : State} (s : State) (g : Nat) (c : Copy) (epoch : Nat) (hk : Keeps km kf ku s₀ s) :
    Keeps km kf ku s₀ (State.epochAnswer s g c epoch) := by
  unfold State.epochAnswer
  repeat' (
    first
    | with_reducible assumption | with_reducible apply State.deltaFault_keeps | with_reducible apply State.holderStale_keeps
    | with_reducible apply State.updGl_keeps | with_reducible apply Keeps.ite | intro _ _ _ _ _ | intro _ _ _ _ | intro _ _ _
    | intro _ _ | split | with_reducible apply Keeps.fields)

theorem State.deltaAnswer_keeps {kf ku : Bool} {s₀ : State} (s : State) (g : Nat) (next : Bool) (row pidx code epoch : Nat) (hk : Keeps true kf ku s₀ s) :
    Keeps true kf ku s₀ (State.deltaAnswer s g next row pidx code epoch) := by
  unfold State.deltaAnswer
  repeat' (
    first
    | with_reducible assumption | with_reducible apply State.copyDone_keeps | with_reducible apply State.deltaFault_keeps
    | with_reducible apply State.epochAnswer_keeps | with_reducible apply State.holderStale_keeps
    | with_reducible apply State.resendCopy_keeps | with_reducible apply State.settleApply_keeps
    | with_reducible apply State.updGl_keeps | with_reducible apply Keeps.ite | intro _ _ _ _ _ | intro _ _ _ _ | intro _ _ _
    | intro _ _ | split | with_reducible apply Keeps.fields)

theorem execDeltaAnswer_keeps {kf ku : Bool} (g : GladeId) (next : Bool) (row pidx code epoch : Nat) (s : State) :
    OutKeeps true kf ku s (execDeltaAnswer g next row pidx code epoch s) := by
  unfold execDeltaAnswer
  repeat' (
    first
    | with_reducible assumption | with_reducible exact Keeps.refl _ | with_reducible apply OutKeeps.next
    | with_reducible apply OutKeeps.ite | with_reducible apply State.deltaAnswer_keeps | with_reducible apply Keeps.inMain
    | with_reducible apply Keeps.ite | intro _ _ _ _ _ | intro _ _ _ _ | intro _ _ _ | intro _ _ | split
    | with_reducible apply Keeps.fields)

theorem execDeltaResend_keeps {km kf ku : Bool} (g : GladeId) (next : Bool) (row pidx : Nat) (s : State) :
    OutKeeps km kf ku s (execDeltaResend g next row pidx s) := by
  unfold execDeltaResend
  repeat' (
    first
    | with_reducible assumption | with_reducible exact Keeps.refl _ | with_reducible apply OutKeeps.next
    | with_reducible apply OutKeeps.ite | with_reducible apply State.resendCopy_keeps | with_reducible apply State.updGl_keeps
    | with_reducible apply Keeps.inMain | with_reducible apply Keeps.ite | intro _ _ _ _ _ | intro _ _ _ _ | intro _ _ _
    | intro _ _ | split | with_reducible apply Keeps.fields)

theorem execDeltaStale_keeps {kf ku : Bool} (g : GladeId) (next : Bool) (row pidx : Nat) (s : State) :
    OutKeeps true kf ku s (execDeltaStale g next row pidx s) := by
  unfold execDeltaStale
  repeat' (
    first
    | with_reducible assumption | with_reducible exact Keeps.refl _ | with_reducible apply OutKeeps.next
    | with_reducible apply OutKeeps.ite | with_reducible apply State.holderStale_keeps
    | with_reducible apply State.settleApply_keeps | with_reducible apply Keeps.inMain | with_reducible apply Keeps.ite
    | intro _ _ _ _ _ | intro _ _ _ _ | intro _ _ _ | intro _ _ | split | with_reducible apply Keeps.fields)

theorem State.reserve_keeps {km kf ku : Bool} {s₀ : State} {s : State} {g : Nat} {next : Bool} {n : Nat} {t : State}
    (ht : State.reserve s g next = some (n, t)) (h : Keeps km kf ku s₀ s) : Keeps km kf ku s₀ t := by
  unfold State.reserve at ht
  dsimp only at ht
  obtain ⟨_, ht⟩ | ⟨_, ht⟩ := ite_eq_iff.mp ht
  · cases ht
  · simp only [Option.some.injEq, Prod.mk.injEq] at ht
    rw [← ht.2]
    apply Keeps.ite
    · exact State.updGl_keeps _ _ _ h
    · exact State.raise_keeps _ _ _ _ (State.updGl_keeps _ _ _ h)

theorem State.setFold_keeps {km kf ku : Bool} {s₀ : State} (s : State) (g : Nat) (f : Fold) (hk : Keeps km kf ku s₀ s) :
    Keeps km kf ku s₀ (State.setFold s g f) := by
  unfold State.setFold
  repeat' (
    first
    | with_reducible assumption | with_reducible apply State.updGl_keeps | with_reducible apply Keeps.ite | intro _ _ _ _ _
    | intro _ _ _ _ | intro _ _ _ | intro _ _ | split | with_reducible apply Keeps.fields)

theorem State.evictParity_keeps {kf ku : Bool} {s₀ : State} (s : State) (g : Nat) (next : Bool) (p : Nat) (hk : Keeps true kf ku s₀ s) :
    Keeps true kf ku s₀ (State.evictParity s g next p) := by
  unfold State.evictParity
  repeat' (
    first
    | with_reducible assumption | with_reducible apply State.charge_keeps | with_reducible apply State.dropFrame_keeps
    | with_reducible apply State.setFold_keeps | with_reducible apply State.store_keeps | with_reducible apply State.updGl_keeps
    | with_reducible apply Keeps.ite | intro _ _ _ _ _ | intro _ _ _ _ | intro _ _ _ | intro _ _ | split
    | with_reducible apply Keeps.fields)

theorem State.stageParity_keeps {kf ku : Bool} {s₀ : State} (s : State) (g : Nat) (next : Bool) (p : Nat) (again : Bool) (lines : Nat) (hk : Keeps true kf ku s₀ s) :
    Keeps true kf ku s₀ (State.stageParity s g next p again lines) := by
  unfold State.stageParity
  repeat' (
    first
    | with_reducible assumption | with_reducible apply State.add_keeps | with_reducible apply State.evictParity_keeps
    | with_reducible apply State.inc_keeps | with_reducible apply State.updTl_keeps | with_reducible apply Keeps.ite
    | intro _ _ _ _ _ | intro _ _ _ _ | intro _ _ _ | intro _ _ | split | with_reducible apply Keeps.fields)

theorem State.answerDelta_keeps {km kf ku : Bool} {s₀ : State} (s : State) (h : DeltaHdr) (next : Bool) (sender code epoch : Nat) (hk : Keeps km kf ku s₀ s) :
    Keeps km kf ku s₀ (State.answerDelta s h next sender code epoch) := by
  unfold State.answerDelta
  repeat' (
    first
    | with_reducible assumption | with_reducible apply State.sendLmn_keeps | with_reducible apply Keeps.ite | intro _ _ _ _ _
    | intro _ _ _ _ | intro _ _ _ | intro _ _ | split | with_reducible apply Keeps.fields)

theorem State.refuseDelta_keeps {km kf ku : Bool} {s₀ : State} (s : State) (h : DeltaHdr) (next : Bool) (sender code sev : Nat) (hk : Keeps km kf ku s₀ s) :
    Keeps km kf ku s₀ (State.refuseDelta s h next sender code sev) := by
  unfold State.refuseDelta
  repeat' (
    first
    | with_reducible assumption | with_reducible apply State.answerDelta_keeps | with_reducible apply State.inc_keeps
    | with_reducible apply State.record_keeps | with_reducible apply Keeps.ite | intro _ _ _ _ _ | intro _ _ _ _ | intro _ _ _
    | intro _ _ | split | with_reducible apply Keeps.fields)

theorem State.duplicate_keeps {km kf ku : Bool} {s₀ : State} (s : State) (h : DeltaHdr) (next : Bool) (sender : Nat) (hk : Keeps km kf ku s₀ s) :
    Keeps km kf ku s₀ (State.duplicate s h next sender) := by
  unfold State.duplicate
  repeat' (
    first
    | with_reducible assumption | with_reducible apply State.answerDelta_keeps | with_reducible apply State.inc_keeps
    | with_reducible apply Keeps.ite | intro _ _ _ _ _ | intro _ _ _ _ | intro _ _ _ | intro _ _ | split
    | with_reducible apply Keeps.fields)

theorem State.journalFull_keeps {km kf ku : Bool} {s₀ : State} (s : State) (h : DeltaHdr) (next : Bool) (sender : Nat) (hk : Keeps km kf ku s₀ s) :
    Keeps km kf ku s₀ (State.journalFull s h next sender) := by
  unfold State.journalFull
  repeat' (
    first
    | with_reducible assumption | with_reducible apply State.answerDelta_keeps | with_reducible apply State.record_keeps
    | with_reducible apply State.wr_keeps | with_reducible apply Keeps.ite | intro _ _ _ _ _ | intro _ _ _ _ | intro _ _ _
    | intro _ _ | split | with_reducible apply Keeps.fields)

theorem State.foldInto_keeps {kf ku : Bool} {s₀ : State} (s : State) (g : Nat) (next : Bool) (p didx : Nat) (f : Fold) (resv : Nat) (d : List Byte) (hk : Keeps true kf ku s₀ s) :
    Keeps true kf ku s₀ (State.foldInto s g next p didx f resv d) := by
  unfold State.foldInto
  repeat' (
    first
    | with_reducible assumption | with_reducible apply State.charge_keeps | with_reducible apply State.setFold_keeps
    | with_reducible apply State.stageParity_keeps | with_reducible apply State.store_keeps | with_reducible apply Keeps.ite
    | intro _ _ _ _ _ | intro _ _ _ _ | intro _ _ _ | intro _ _ | split | with_reducible apply Keeps.fields)

theorem State.foldDelta_keeps {kf ku : Bool} {s₀ : State} (s : State) (h : DeltaHdr) (next : Bool) (sender p : Nat) (d : List Byte) (hk : Keeps true kf ku s₀ s) :
    Keeps true kf ku s₀ (State.foldDelta s h next sender p d) := by
  unfold State.foldDelta
  repeat' (
    first
    | with_reducible assumption | with_reducible refine State.reserve_keeps (by assumption) ?_
    | with_reducible apply State.answerDelta_keeps | with_reducible apply State.dropFold_keeps
    | with_reducible apply State.duplicate_keeps | with_reducible apply State.foldInto_keeps
    | with_reducible apply State.journalFull_keeps | with_reducible apply State.markStale_keeps
    | with_reducible apply State.readCheck_keeps | with_reducible apply State.refuseDelta_keeps
    | with_reducible apply State.updGl_keeps | with_reducible apply Keeps.ite | intro _ _ _ _ _ | intro _ _ _ _ | intro _ _ _
    | intro _ _ | split | with_reducible apply Keeps.fields)

theorem State.receiveDelta_keeps {kf ku : Bool} {s₀ : State} (s : State) (sender : Nat) (msg : List Byte) (hk : Keeps true kf ku s₀ s) :
    Keeps true kf ku s₀ (State.receiveDelta s sender msg) := by
  unfold State.receiveDelta
  repeat' (
    first
    | with_reducible assumption | with_reducible apply State.answerDelta_keeps | with_reducible apply State.foldDelta_keeps
    | with_reducible apply State.inc_keeps | with_reducible apply State.refuseDelta_keeps
    | with_reducible apply State.updGl_keeps | with_reducible apply Keeps.ite | intro _ _ _ _ _ | intro _ _ _ _ | intro _ _ _
    | intro _ _ | split | with_reducible apply Keeps.fields)

theorem State.takeHeld_keeps {kf ku : Bool} {s₀ : State} (s : State) (g : Nat) (hk : Keeps true kf ku s₀ s) :
    Keeps true kf ku s₀ (State.takeHeld s g) := by
  unfold State.takeHeld
  repeat' (
    first
    | with_reducible assumption | with_reducible apply State.receiveDelta_keeps | with_reducible apply State.updGl_keeps
    | with_reducible apply Keeps.each | with_reducible apply Keeps.ite | intro _ _ _ _ _ | intro _ _ _ _ | intro _ _ _
    | intro _ _ | split | with_reducible apply Keeps.fields)

theorem State.arriveDelta_keeps {kf ku : Bool} {s₀ : State} (s : State) (sender : Nat) (msg : List Byte) (hk : Keeps true kf ku s₀ s) :
    Keeps true kf ku s₀ (State.arriveDelta s sender msg) := by
  unfold State.arriveDelta
  repeat' (
    first
    | with_reducible assumption | with_reducible apply State.receiveDelta_keeps | with_reducible apply State.takeHeld_keeps
    | with_reducible apply State.updGl_keeps | with_reducible apply Keeps.ite | intro _ _ _ _ _ | intro _ _ _ _ | intro _ _ _
    | intro _ _ | split | with_reducible apply Keeps.fields)

theorem execDeltaReceive_keeps {kf ku : Bool} (sender : Nat) (msg : List Byte) (s : State) :
    OutKeeps true kf ku s (execDeltaReceive sender msg s) := by
  unfold execDeltaReceive
  repeat' (
    first
    | with_reducible assumption | with_reducible exact Keeps.refl _ | with_reducible apply OutKeeps.next
    | with_reducible apply OutKeeps.ite | with_reducible apply State.arriveDelta_keeps | with_reducible apply Keeps.inMain
    | with_reducible apply Keeps.ite | intro _ _ _ _ _ | intro _ _ _ _ | intro _ _ _ | intro _ _ | split
    | with_reducible apply Keeps.fields)

theorem execParityFrameEvict_keeps {kf ku : Bool} (g : GladeId) (p : Nat) (s : State) :
    OutKeeps true kf ku s (execParityFrameEvict g p s) := by
  unfold execParityFrameEvict
  repeat' (
    first
    | with_reducible assumption | with_reducible exact Keeps.refl _ | with_reducible apply OutKeeps.next
    | with_reducible apply OutKeeps.ite | with_reducible apply State.evictParity_keeps | with_reducible apply Keeps.inMain
    | with_reducible apply Keeps.ite | intro _ _ _ _ _ | intro _ _ _ _ | intro _ _ _ | intro _ _ | split
    | with_reducible apply Keeps.fields)

end Sys2Proof.Machine
end

