-- ==== Sys2Proof/Laws/KeepsSeedbank.lean ====
section
/-! SUPPORT. What the operations of Machine/Seedbank.lean keep (the relation Keeps). -/
set_option linter.unusedTactic false
set_option linter.unreachableTactic false
set_option linter.unusedVariables false
namespace Sys2Proof.Machine

theorem State.sweepWrite_keeps {kf ku : Bool} {s₀ : State} {s : State} {g : Nat} {x : SeedHdr} {body : List Byte} {t : State}
    (ht : State.sweepWrite s g x body = some t) (h : Keeps true kf ku s₀ s) : Keeps true kf ku s₀ t := by
  unfold State.sweepWrite at ht
  split at ht
  · cases ht
  · split at ht
    · simp only [Option.some.injEq] at ht
      rw [← ht]
      exact State.seedWrite_keeps _ _ _ h
    · cases ht

theorem State.updSweep_keeps {km kf ku : Bool} {s₀ : State} (s : State) (g : Nat) (f : Sweep → Sweep) (hk : Keeps km kf ku s₀ s) :
    Keeps km kf ku s₀ (State.updSweep s g f) := by
  unfold State.updSweep
  repeat' (
    first
    | with_reducible assumption | with_reducible apply State.updGl_keeps | with_reducible apply Keeps.ite | intro _ _ _ _ _
    | intro _ _ _ _ | intro _ _ _ | intro _ _ | split | with_reducible apply Keeps.fields)

theorem State.sweepFull_keeps {km kf ku : Bool} {s₀ : State} (s : State) (g : Nat) (w : Sweep) (hk : Keeps km kf ku s₀ s) :
    Keeps km kf ku s₀ (State.sweepFull s g w) := by
  unfold State.sweepFull
  repeat' (
    first
    | with_reducible assumption | with_reducible apply State.record_keeps | with_reducible apply State.updSweep_keeps
    | with_reducible apply State.wr_keeps | with_reducible apply Keeps.ite | intro _ _ _ _ _ | intro _ _ _ _ | intro _ _ _
    | intro _ _ | split | with_reducible apply Keeps.fields)

theorem State.sweepBegin_keeps {kf ku : Bool} {s₀ : State} (s : State) (g : Nat) (w : Sweep) (hk : Keeps true kf ku s₀ s) :
    Keeps true kf ku s₀ (State.sweepBegin s g w) := by
  unfold State.sweepBegin
  repeat' (
    first
    | with_reducible assumption | with_reducible refine State.sweepWrite_keeps (by assumption) ?_
    | with_reducible apply State.sweepFull_keeps | with_reducible apply State.updSweep_keeps | with_reducible apply Keeps.ite
    | intro _ _ _ _ _ | intro _ _ _ _ | intro _ _ _ | intro _ _ | split | with_reducible apply Keeps.fields)

theorem State.startSweep_keeps {kf ku : Bool} {s₀ : State} (s : State) (g : Nat) (hk : Keeps true kf ku s₀ s) :
    Keeps true kf ku s₀ (State.startSweep s g) := by
  unfold State.startSweep
  repeat' (
    first
    | with_reducible assumption | with_reducible apply State.record_keeps | with_reducible apply State.sweepBegin_keeps
    | with_reducible apply State.updGl_keeps | with_reducible apply State.wr_keeps | with_reducible apply Keeps.ite
    | intro _ _ _ _ _ | intro _ _ _ _ | intro _ _ _ | intro _ _ | split | with_reducible apply Keeps.fields)

theorem State.recordBlock_keeps {kf ku : Bool} {s₀ : State} {s : State} {g : Nat} {w : Sweep} {x : Nat} {t : State}
    (ht : State.recordBlock s g w x = some t) (h : Keeps true kf ku s₀ s) : Keeps true kf ku s₀ t := by
  unfold State.recordBlock at ht
  split at ht
  · cases ht
  · dsimp only at ht
    split at ht
    · cases ht
    · rename_i hw
      simp only [Option.some.injEq] at ht
      rw [← ht]
      refine State.updSweep_keeps _ _ _ (State.wr_keeps _ _ _ _ (Keeps.ite (State.wr_keeps _ _ _ _ ?_) ?_)) <;>
        exact State.sweepWrite_keeps hw h

theorem State.sweepFinish_keeps {kf ku : Bool} {s₀ : State} (s : State) (g : Nat) (w : Sweep) (hk : Keeps true kf ku s₀ s) :
    Keeps true kf ku s₀ (State.sweepFinish s g w) := by
  unfold State.sweepFinish
  repeat' (
    first
    | with_reducible assumption | with_reducible refine State.sweepWrite_keeps (by assumption) ?_
    | with_reducible apply State.sweepFull_keeps | with_reducible apply State.updGl_keeps | with_reducible apply State.wr_keeps
    | with_reducible apply Keeps.ite | intro _ _ _ _ _ | intro _ _ _ _ | intro _ _ _ | intro _ _ | split
    | with_reducible apply Keeps.fields)

theorem State.sweepPartial_keeps {kf ku : Bool} {s₀ : State} (s : State) (g : Nat) (hk : Keeps true kf ku s₀ s) :
    Keeps true kf ku s₀ (State.sweepPartial s g) := by
  unfold State.sweepPartial
  repeat' (
    first
    | with_reducible assumption | with_reducible apply State.sweepFinish_keeps | with_reducible apply State.updGl_keeps
    | with_reducible apply Keeps.ite | intro _ _ _ _ _ | intro _ _ _ _ | intro _ _ _ | intro _ _ | split
    | with_reducible apply Keeps.fields)

theorem State.sweepBefore_keeps {kf ku : Bool} {s₀ : State} (s : State) (g t : Nat) (hk : Keeps true kf ku s₀ s) :
    Keeps true kf ku s₀ (State.sweepBefore s g t) := by
  unfold State.sweepBefore
  repeat' (
    first
    | with_reducible assumption | with_reducible refine State.recordBlock_keeps (by assumption) ?_
    | with_reducible apply State.sweepFull_keeps | with_reducible apply State.updSweep_keeps | with_reducible apply Keeps.ite
    | intro _ _ _ _ _ | intro _ _ _ _ | intro _ _ _ | intro _ _ | split | with_reducible apply Keeps.fields)

theorem State.sweepStep_keeps {kf ku : Bool} {s₀ : State} (s : State) (g : Nat) (w : Sweep) (hk : Keeps true kf ku s₀ s) :
    Keeps true kf ku s₀ (State.sweepStep s g w) := by
  unfold State.sweepStep
  repeat' (
    first
    | with_reducible assumption | with_reducible refine State.recordBlock_keeps (by assumption) ?_
    | with_reducible apply State.sweepBegin_keeps | with_reducible apply State.sweepFinish_keeps
    | with_reducible apply State.sweepFull_keeps | with_reducible apply State.updSweep_keeps | with_reducible apply Keeps.ite
    | intro _ _ _ _ _ | intro _ _ _ _ | intro _ _ _ | intro _ _ | split | with_reducible apply Keeps.fields)

theorem execSweepStart_keeps {kf ku : Bool} (g : GladeId) (s : State) : OutKeeps true kf ku s (execSweepStart g s) := by
  unfold execSweepStart
  repeat' (
    first
    | with_reducible assumption | with_reducible exact Keeps.refl _ | with_reducible apply OutKeeps.next
    | with_reducible apply OutKeeps.ite | with_reducible apply State.startSweep_keeps | with_reducible apply Keeps.inMain
    | with_reducible apply Keeps.ite | intro _ _ _ _ _ | intro _ _ _ _ | intro _ _ _ | intro _ _ | split
    | with_reducible apply Keeps.fields)

theorem execSweepRecord_keeps {kf ku : Bool} (g : GladeId) (s : State) : OutKeeps true kf ku s (execSweepRecord g s) := by
  unfold execSweepRecord
  repeat' (
    first
    | with_reducible assumption | with_reducible exact Keeps.refl _ | with_reducible apply OutKeeps.next
    | with_reducible apply OutKeeps.ite | with_reducible apply State.sweepStep_keeps | with_reducible apply Keeps.inMain
    | with_reducible apply Keeps.ite | intro _ _ _ _ _ | intro _ _ _ _ | intro _ _ _ | intro _ _ | split
    | with_reducible apply Keeps.fields)

theorem State.writeSbctl_keeps {kf ku : Bool} {s₀ : State} (s : State) (g : Nat) (v : Word) (hk : Keeps true kf ku s₀ s) :
    Keeps true kf ku s₀ (State.writeSbctl s g v) := by
  unfold State.writeSbctl
  repeat' (
    first
    | with_reducible assumption | with_reducible apply State.plainWrite_keeps | with_reducible apply State.record_keeps
    | with_reducible apply State.sweepPartial_keeps | with_reducible apply Keeps.ite | intro _ _ _ _ _ | intro _ _ _ _
    | intro _ _ _ | intro _ _ | split | with_reducible apply Keeps.fields)

theorem State.countLag_keeps {km kf ku : Bool} {s₀ : State} (s : State) (g : Nat) (lag : Bool) (hk : Keeps km kf ku s₀ s) :
    Keeps km kf ku s₀ (State.countLag s g lag) := by
  unfold State.countLag
  repeat' (
    first
    | with_reducible assumption | with_reducible apply State.inc_keeps | with_reducible apply Keeps.ite | intro _ _ _ _ _
    | intro _ _ _ _ | intro _ _ _ | intro _ _ | split | with_reducible apply Keeps.fields)

theorem State.noteRestored_keeps {km kf ku : Bool} {s₀ : State} (s : State) (g : Nat) (h : SeedHdr) (hk : Keeps km kf ku s₀ s) :
    Keeps km kf ku s₀ (State.noteRestored s g h) := by
  unfold State.noteRestored
  repeat' (
    first
    | with_reducible assumption | with_reducible apply State.updGl_keeps | with_reducible apply Keeps.ite | intro _ _ _ _ _
    | intro _ _ _ _ | intro _ _ _ | intro _ _ | split | with_reducible apply Keeps.fields)

theorem State.restoreEnd_keeps {km kf ku : Bool} {s₀ : State} (s : State) (g : Nat) (hk : Keeps km kf ku s₀ s) :
    Keeps km kf ku s₀ (State.restoreEnd s g) := by
  unfold State.restoreEnd
  repeat' (
    first
    | with_reducible assumption | with_reducible apply State.record_keeps | with_reducible apply State.startJoin_keeps
    | with_reducible apply State.updGl_keeps | with_reducible apply State.wr_keeps | with_reducible apply Keeps.ite
    | intro _ _ _ _ _ | intro _ _ _ _ | intro _ _ _ | intro _ _ | split | with_reducible apply Keeps.fields)

theorem State.restoreBlock_keeps {kf ku : Bool} {s₀ : State} (s : State) (g t : Nat) (h : SeedHdr) (body : List Byte) (hk : Keeps true kf ku s₀ s) :
    Keeps true kf ku s₀ (State.restoreBlock s g t h body) := by
  unfold State.restoreBlock
  repeat' (
    first
    | with_reducible assumption | with_reducible apply State.countLag_keeps | with_reducible apply State.noteRestored_keeps
    | with_reducible apply State.restoreEnd_keeps | with_reducible apply State.roundAgain_keeps
    | with_reducible apply State.store_keeps | with_reducible apply State.updGl_keeps | with_reducible apply State.wr_keeps
    | with_reducible apply Keeps.each | with_reducible apply Keeps.ite | intro _ _ _ _ _ | intro _ _ _ _ | intro _ _ _
    | intro _ _ | split | with_reducible apply Keeps.fields)

theorem State.leafThere_keeps {km kf ku : Bool} {s₀ : State} (s : State) (g q : Nat) (hk : Keeps km kf ku s₀ s) :
    Keeps km kf ku s₀ (State.leafThere s g q) := by
  unfold State.leafThere
  repeat' (
    first
    | with_reducible assumption | with_reducible apply State.updGl_keeps | with_reducible apply Keeps.ite | intro _ _ _ _ _
    | intro _ _ _ _ | intro _ _ _ | intro _ _ | split | with_reducible apply Keeps.fields)

theorem State.encodeAgain_keeps {km kf ku : Bool} {s₀ : State} (s : State) (g row : Nat) (hk : Keeps km kf ku s₀ s) :
    Keeps km kf ku s₀ (State.encodeAgain s g row) := by
  unfold State.encodeAgain
  repeat' (
    first
    | with_reducible assumption | with_reducible apply State.toMember_keeps | with_reducible apply State.updGl_keeps
    | with_reducible apply Keeps.each | with_reducible apply Keeps.ite | intro _ _ _ _ _ | intro _ _ _ _ | intro _ _ _
    | intro _ _ | split | with_reducible apply Keeps.fields)

theorem State.restoreLeaf_keeps {kf ku : Bool} {s₀ : State} (s : State) (g q : Nat) (new : List Byte) (hk : Keeps true kf ku s₀ s) :
    Keeps true kf ku s₀ (State.restoreLeaf s g q new) := by
  unfold State.restoreLeaf
  repeat' (
    first
    | with_reducible assumption | with_reducible refine State.writeUndo_keeps (by assumption) ?_
    | with_reducible apply State.encodeAgain_keeps | with_reducible apply State.leafThere_keeps
    | with_reducible apply State.sendDelta_keeps | with_reducible apply State.store_keeps
    | with_reducible apply State.undoFull_keeps | with_reducible apply Keeps.ite | intro _ _ _ _ _ | intro _ _ _ _ | intro _ _ _
    | intro _ _ | split | with_reducible apply Keeps.fields)

theorem State.restoreEntry_keeps {kf ku : Bool} {s₀ : State} (s : State) (g t : Nat) (entry : List Byte) (hk : Keeps true kf ku s₀ s) :
    Keeps true kf ku s₀ (State.restoreEntry s g t entry) := by
  unfold State.restoreEntry
  repeat' (
    first
    | with_reducible assumption | with_reducible apply State.encodeAgain_keeps | with_reducible apply State.rememberLedger_keeps
    | with_reducible apply State.store_keeps | with_reducible apply State.updGl_keeps | with_reducible apply Keeps.ite
    | intro _ _ _ _ _ | intro _ _ _ _ | intro _ _ _ | intro _ _ | split | with_reducible apply Keeps.fields)

theorem State.rowRestored_keeps {km kf ku : Bool} {s₀ : State} (s : State) (g row vring : Nat) (hk : Keeps km kf ku s₀ s) :
    Keeps km kf ku s₀ (State.rowRestored s g row vring) := by
  unfold State.rowRestored
  repeat' (
    first
    | with_reducible assumption | with_reducible apply State.inc_keeps | with_reducible apply State.raise_keeps
    | with_reducible apply State.record_keeps | with_reducible apply State.updGl_keeps | with_reducible apply State.wr_keeps
    | with_reducible apply Keeps.ite | intro _ _ _ _ _ | intro _ _ _ _ | intro _ _ _ | intro _ _ | split
    | with_reducible apply Keeps.fields)

theorem State.restoreDead_keeps {kf ku : Bool} {s₀ : State} (s : State) (g t : Nat) (h : SeedHdr) (body : List Byte) (hk : Keeps true kf ku s₀ s) :
    Keeps true kf ku s₀ (State.restoreDead s g t h body) := by
  unfold State.restoreDead
  repeat' (
    first
    | with_reducible assumption | with_reducible apply State.countLag_keeps | with_reducible apply State.noteRestored_keeps
    | with_reducible apply State.record_keeps | with_reducible apply State.restoreEntry_keeps
    | with_reducible apply State.restoreLeaf_keeps | with_reducible apply State.roundAgain_keeps
    | with_reducible apply State.rowRestored_keeps | with_reducible apply State.settleApply_keeps
    | with_reducible apply State.updGl_keeps | with_reducible apply State.wr_keeps | with_reducible apply Keeps.each
    | with_reducible apply Keeps.ite | intro _ _ _ _ _ | intro _ _ _ _ | intro _ _ _ | intro _ _ | split
    | with_reducible apply Keeps.fields)

theorem State.restoreDrop_keeps {km kf ku : Bool} {s₀ : State} (s : State) (g : Nat) (hk : Keeps km kf ku s₀ s) :
    Keeps km kf ku s₀ (State.restoreDrop s g) := by
  unfold State.restoreDrop
  repeat' (
    first
    | with_reducible assumption | with_reducible apply State.inc_keeps | with_reducible apply Keeps.ite | intro _ _ _ _ _
    | intro _ _ _ _ | intro _ _ _ | intro _ _ | split | with_reducible apply Keeps.fields)

theorem State.restoreNext_keeps {kf ku : Bool} {s₀ : State} (s : State) (g : Nat) (hk : Keeps true kf ku s₀ s) :
    Keeps true kf ku s₀ (State.restoreNext s g) := by
  unfold State.restoreNext
  repeat' (
    first
    | with_reducible assumption | with_reducible apply State.charge_keeps | with_reducible apply State.inc_keeps
    | with_reducible apply State.record_keeps | with_reducible apply State.restoreBlock_keeps
    | with_reducible apply State.restoreDead_keeps | with_reducible apply State.restoreDrop_keeps
    | with_reducible apply State.wr_keeps | with_reducible apply Keeps.ite | intro _ _ _ _ _ | intro _ _ _ _ | intro _ _ _
    | intro _ _ | split | with_reducible apply Keeps.fields)

theorem execRestoreRecord_keeps {kf ku : Bool} (g : GladeId) (s : State) : OutKeeps true kf ku s (execRestoreRecord g s) := by
  unfold execRestoreRecord
  repeat' (
    first
    | with_reducible assumption | with_reducible exact Keeps.refl _ | with_reducible apply OutKeeps.next
    | with_reducible apply OutKeeps.ite | with_reducible apply State.restoreNext_keeps | with_reducible apply Keeps.inMain
    | with_reducible apply Keeps.ite | intro _ _ _ _ _ | intro _ _ _ _ | intro _ _ _ | intro _ _ | split
    | with_reducible apply Keeps.fields)

theorem execRequestResend_keeps {kf ku : Bool} (g : GladeId) (layer block : Nat) (s : State) :
    OutKeeps true kf ku s (execRequestResend g layer block s) := by
  unfold execRequestResend
  repeat' (
    first
    | with_reducible assumption | with_reducible exact Keeps.refl _ | with_reducible apply OutKeeps.next
    | with_reducible apply OutKeeps.ite | with_reducible apply State.record_keeps | with_reducible apply State.seedRequest_keeps
    | with_reducible apply Keeps.inMain | with_reducible apply Keeps.ite | intro _ _ _ _ _ | intro _ _ _ _ | intro _ _ _
    | intro _ _ | split | with_reducible apply Keeps.fields)

end Sys2Proof.Machine
end

