-- ==== Sys2Proof/Laws/KeepsPublish.lean ====
section
/-! SUPPORT. What the operations of Machine/Publish.lean keep (the relation Keeps). -/
set_option linter.unusedTactic false
set_option linter.unreachableTactic false
set_option linter.unusedVariables false
namespace Sys2Proof.Machine

theorem State.wpSend_keeps {km kf ku : Bool} {s₀ : State} (s : State) (g kind : Nat) (r : WpRecord) (hk : Keeps km kf ku s₀ s) :
    Keeps km kf ku s₀ (State.wpSend s g kind r) := by
  unfold State.wpSend
  repeat' (
    first
    | with_reducible assumption | with_reducible apply State.charge_keeps | with_reducible apply State.toNode_keeps
    | with_reducible apply Keeps.each | with_reducible apply Keeps.ite | intro _ _ _ _ _ | intro _ _ _ _ | intro _ _ _
    | intro _ _ | split | with_reducible apply Keeps.fields)

theorem State.switchStream_keeps {km kf ku : Bool} {s₀ : State} (s : State) (x ring : Nat) (hk : Keeps km kf ku s₀ s) :
    Keeps km kf ku s₀ (State.switchStream s x ring) := by
  unfold State.switchStream
  repeat' (
    first
    | with_reducible assumption | with_reducible apply State.updKs_keeps | with_reducible apply Keeps.ite | intro _ _ _ _ _
    | intro _ _ _ _ | intro _ _ _ | intro _ _ | split | with_reducible apply Keeps.fields)

theorem State.publishEnd_keeps {km kf ku : Bool} {s₀ : State} (s : State) (g : Nat) (p : Publish) (hk : Keeps km kf ku s₀ s) :
    Keeps km kf ku s₀ (State.publishEnd s g p) := by
  unfold State.publishEnd
  repeat' (
    first
    | with_reducible assumption | with_reducible apply State.updGl_keeps | with_reducible apply State.wpSend_keeps
    | with_reducible apply State.wr_keeps | with_reducible apply Keeps.ite | intro _ _ _ _ _ | intro _ _ _ _ | intro _ _ _
    | intro _ _ | split | with_reducible apply Keeps.fields)

theorem State.publishOne_keeps {kf ku : Bool} {s₀ : State} (s : State) (g t : Nat) (p : Publish) (hk : Keeps true kf ku s₀ s) :
    Keeps true kf ku s₀ (State.publishOne s g t p) := by
  unfold State.publishOne
  repeat' (
    first
    | with_reducible assumption | with_reducible apply State.charge_keeps | with_reducible apply State.publishEnd_keeps
    | with_reducible apply State.store_keeps | with_reducible apply State.updGl_keeps | with_reducible apply State.wpSend_keeps
    | with_reducible apply Keeps.ite | intro _ _ _ _ _ | intro _ _ _ _ | intro _ _ _ | intro _ _ | split
    | with_reducible apply Keeps.fields)

theorem State.publishBefore_keeps {kf ku : Bool} {s₀ : State} (s : State) (g t : Nat) (hk : Keeps true kf ku s₀ s) :
    Keeps true kf ku s₀ (State.publishBefore s g t) := by
  unfold State.publishBefore
  repeat' (
    first
    | with_reducible assumption | with_reducible apply State.publishOne_keeps | with_reducible apply Keeps.ite | intro _ _ _ _ _
    | intro _ _ _ _ | intro _ _ _ | intro _ _ | split | with_reducible apply Keeps.fields)

theorem State.startPublish_keeps {km kf ku : Bool} {s₀ : State} (s : State) (g : Nat) (hk : Keeps km kf ku s₀ s) :
    Keeps km kf ku s₀ (State.startPublish s g) := by
  unfold State.startPublish
  repeat' (
    first
    | with_reducible assumption | with_reducible apply State.publishEnd_keeps | with_reducible apply State.record_keeps
    | with_reducible apply State.switchStream_keeps | with_reducible apply State.updGl_keeps
    | with_reducible apply State.wpSend_keeps | with_reducible apply State.wr_keeps | with_reducible apply Keeps.ite
    | intro _ _ _ _ _ | intro _ _ _ _ | intro _ _ _ | intro _ _ | split | with_reducible apply Keeps.fields)

theorem execPublishGo_keeps {km kf ku : Bool} (g : GladeId) (s : State) : OutKeeps km kf ku s (execPublishGo g s) := by
  unfold execPublishGo
  repeat' (
    first
    | with_reducible assumption | with_reducible exact Keeps.refl _ | with_reducible apply OutKeeps.next
    | with_reducible apply OutKeeps.ite | with_reducible apply State.wr_keeps | with_reducible apply Keeps.inMain
    | with_reducible apply Keeps.ite | intro _ _ _ _ _ | intro _ _ _ _ | intro _ _ _ | intro _ _ | split
    | with_reducible apply Keeps.fields)

theorem execPublishStart_keeps {km kf ku : Bool} (g : GladeId) (s : State) : OutKeeps km kf ku s (execPublishStart g s) := by
  unfold execPublishStart
  repeat' (
    first
    | with_reducible assumption | with_reducible exact Keeps.refl _ | with_reducible apply OutKeeps.next
    | with_reducible apply OutKeeps.ite | with_reducible apply State.startPublish_keeps | with_reducible apply Keeps.inMain
    | with_reducible apply Keeps.ite | intro _ _ _ _ _ | intro _ _ _ _ | intro _ _ _ | intro _ _ | split
    | with_reducible apply Keeps.fields)

theorem execPublishBlock_keeps {kf ku : Bool} (g : GladeId) (t : Nat) (s : State) :
    OutKeeps true kf ku s (execPublishBlock g t s) := by
  unfold execPublishBlock
  repeat' (
    first
    | with_reducible assumption | with_reducible exact Keeps.refl _ | with_reducible apply OutKeeps.next
    | with_reducible apply OutKeeps.ite | with_reducible apply State.publishOne_keeps | with_reducible apply Keeps.inMain
    | with_reducible apply Keeps.ite | intro _ _ _ _ _ | intro _ _ _ _ | intro _ _ _ | intro _ _ | split
    | with_reducible apply Keeps.fields)

theorem State.setImg_keeps {km kf ku : Bool} {s₀ : State} (s : State) (i n : Nat) (hk : Keeps km kf ku s₀ s) :
    Keeps km kf ku s₀ (State.setImg s i n) := by
  unfold State.setImg
  repeat' (
    first
    | with_reducible assumption | with_reducible apply State.wr_keeps | with_reducible apply Keeps.ite | intro _ _ _ _ _
    | intro _ _ _ _ | intro _ _ _ | intro _ _ | split | with_reducible apply Keeps.fields)

theorem State.relay_keeps {km kf ku : Bool} {s₀ : State} (s : State) (i kind : Nat) (r : WpRecord) (hk : Keeps km kf ku s₀ s) :
    Keeps km kf ku s₀ (State.relay s i kind r) := by
  unfold State.relay
  repeat' (
    first
    | with_reducible assumption | with_reducible apply State.charge_keeps | with_reducible apply State.toNode_keeps
    | with_reducible apply Keeps.each | with_reducible apply Keeps.ite | intro _ _ _ _ _ | intro _ _ _ _ | intro _ _ _
    | intro _ _ | split | with_reducible apply Keeps.fields)

theorem State.wpStart_keeps {kf ku : Bool} {s₀ : State} (s : State) (i : Nat) (r : WpRecord) (hk : Keeps true kf ku s₀ s) :
    Keeps true kf ku s₀ (State.wpStart s i r) := by
  unfold State.wpStart
  repeat' (
    first
    | with_reducible assumption | with_reducible apply State.relay_keeps | with_reducible apply State.setImg_keeps
    | with_reducible apply State.store_keeps | with_reducible apply State.updIm_keeps | with_reducible apply Keeps.ite
    | intro _ _ _ _ _ | intro _ _ _ _ | intro _ _ _ | intro _ _ | split | with_reducible apply Keeps.fields)

theorem State.wpBlock_keeps {kf ku : Bool} {s₀ : State} (s : State) (i : Nat) (r : WpRecord) (hk : Keeps true kf ku s₀ s) :
    Keeps true kf ku s₀ (State.wpBlock s i r) := by
  unfold State.wpBlock
  repeat' (
    first
    | with_reducible assumption | with_reducible apply State.charge_keeps | with_reducible apply State.relay_keeps
    | with_reducible apply State.store_keeps | with_reducible apply State.updIm_keeps | with_reducible apply Keeps.ite
    | intro _ _ _ _ _ | intro _ _ _ _ | intro _ _ _ | intro _ _ | split | with_reducible apply Keeps.fields)

theorem State.wpEnd_keeps {km kf ku : Bool} {s₀ : State} (s : State) (i lmn : Nat) (r : WpRecord) (hk : Keeps km kf ku s₀ s) :
    Keeps km kf ku s₀ (State.wpEnd s i lmn r) := by
  unfold State.wpEnd
  repeat' (
    first
    | with_reducible assumption | with_reducible apply State.record_keeps | with_reducible apply State.relay_keeps
    | with_reducible apply State.setImg_keeps | with_reducible apply State.updIm_keeps | with_reducible apply State.wr_keeps
    | with_reducible apply Keeps.ite | intro _ _ _ _ _ | intro _ _ _ _ | intro _ _ _ | intro _ _ | split
    | with_reducible apply Keeps.fields)

theorem State.onImage_keeps {km kf ku : Bool} {s₀ : State} (s : State) (stream : Nat) (f : State → Nat → State) (hk : Keeps km kf ku s₀ s) (hf : ∀ v x0, Keeps km kf ku s₀ v → Keeps km kf ku s₀ (f v x0)) :
    Keeps km kf ku s₀ (State.onImage s stream f) := by
  unfold State.onImage
  repeat' (
    first
    | with_reducible assumption | with_reducible apply hf | with_reducible apply Keeps.ite | intro _ _ _ _ _ | intro _ _ _ _
    | intro _ _ _ | intro _ _ | split | with_reducible apply Keeps.fields)

theorem execWpStart_keeps {kf ku : Bool} (r : WpRecord) (s : State) : OutKeeps true kf ku s (execWpStart r s) := by
  unfold execWpStart
  repeat' (
    first
    | with_reducible assumption | with_reducible exact Keeps.refl _ | with_reducible apply OutKeeps.next
    | with_reducible apply OutKeeps.ite | with_reducible apply State.onImage_keeps | with_reducible apply State.wpStart_keeps
    | with_reducible apply Keeps.inMain | with_reducible apply Keeps.ite | intro _ _ _ _ _ | intro _ _ _ _ | intro _ _ _
    | intro _ _ | split | with_reducible apply Keeps.fields)

theorem execWpBlock_keeps {kf ku : Bool} (r : WpRecord) (s : State) : OutKeeps true kf ku s (execWpBlock r s) := by
  unfold execWpBlock
  repeat' (
    first
    | with_reducible assumption | with_reducible exact Keeps.refl _ | with_reducible apply OutKeeps.next
    | with_reducible apply OutKeeps.ite | with_reducible apply State.onImage_keeps | with_reducible apply State.wpBlock_keeps
    | with_reducible apply Keeps.inMain | with_reducible apply Keeps.ite | intro _ _ _ _ _ | intro _ _ _ _ | intro _ _ _
    | intro _ _ | split | with_reducible apply Keeps.fields)

theorem execWpEnd_keeps {km kf ku : Bool} (lmn : Nat) (r : WpRecord) (s : State) : OutKeeps km kf ku s (execWpEnd lmn r s) := by
  unfold execWpEnd
  repeat' (
    first
    | with_reducible assumption | with_reducible exact Keeps.refl _ | with_reducible apply OutKeeps.next
    | with_reducible apply OutKeeps.ite | with_reducible apply State.onImage_keeps | with_reducible apply State.wpEnd_keeps
    | with_reducible apply Keeps.inMain | with_reducible apply Keeps.ite | intro _ _ _ _ _ | intro _ _ _ _ | intro _ _ _
    | intro _ _ | split | with_reducible apply Keeps.fields)

theorem execImageTimeout_keeps {km kf ku : Bool} (i : ImageId) (s : State) : OutKeeps km kf ku s (execImageTimeout i s) := by
  unfold execImageTimeout
  repeat' (
    first
    | with_reducible assumption | with_reducible exact Keeps.refl _ | with_reducible apply OutKeeps.next
    | with_reducible apply OutKeeps.ite | with_reducible apply State.setImg_keeps | with_reducible apply Keeps.inMain
    | with_reducible apply Keeps.ite | intro _ _ _ _ _ | intro _ _ _ _ | intro _ _ _ | intro _ _ | split
    | with_reducible apply Keeps.fields)

theorem State.imgEvict_keeps {km kf ku : Bool} {s₀ : State} (s : State) (x : Nat) (hk : Keeps km kf ku s₀ s) :
    Keeps km kf ku s₀ (State.imgEvict s x) := by
  unfold State.imgEvict
  repeat' (
    first
    | with_reducible assumption | with_reducible apply State.record_keeps | with_reducible apply State.resetReg_keeps
    | with_reducible apply State.toNode_keeps | with_reducible apply State.updIm_keeps | with_reducible apply State.wr_keeps
    | with_reducible apply Keeps.each | with_reducible apply Keeps.ite | intro _ _ _ _ _ | intro _ _ _ _ | intro _ _ _
    | intro _ _ | split | with_reducible apply Keeps.fields)

theorem State.imgAllocate_keeps {km kf ku : Bool} {s₀ : State} (s : State) (i n : Nat) (h : Keeps km kf ku s₀ s) :
    Keeps km kf ku s₀ (State.imgAllocate s i n).1 := by
  induction n generalizing s with
  | zero => exact h
  | succ n ih =>
    unfold State.imgAllocate
    split
    · exact State.wr_keeps _ _ _ _ h
    · split
      · exact ih _ (State.imgEvict_keeps _ _ h)
      · exact h

theorem State.imgRefuse_keeps {km kf ku : Bool} {s₀ : State} (s : State) (i : Nat) (hk : Keeps km kf ku s₀ s) :
    Keeps km kf ku s₀ (State.imgRefuse s i) := by
  unfold State.imgRefuse
  repeat' (
    first
    | with_reducible assumption | with_reducible apply State.record_keeps | with_reducible apply Keeps.ite | intro _ _ _ _ _
    | intro _ _ _ _ | intro _ _ _ | intro _ _ | split | with_reducible apply Keeps.fields)

theorem State.imageEnable_keeps {km kf ku : Bool} {s₀ : State} (s : State) (i : Nat) (hk : Keeps km kf ku s₀ s) :
    Keeps km kf ku s₀ (State.imageEnable s i) := by
  unfold State.imageEnable
  repeat' (
    first
    | with_reducible assumption | with_reducible apply State.imgAllocate_keeps | with_reducible apply State.imgRefuse_keeps
    | with_reducible apply State.setImg_keeps | with_reducible apply State.updIm_keeps | with_reducible apply State.wr_keeps
    | with_reducible apply Keeps.ite | intro _ _ _ _ _ | intro _ _ _ _ | intro _ _ _ | intro _ _ | split
    | with_reducible apply Keeps.fields)

theorem State.imageDisable_keeps {km kf ku : Bool} {s₀ : State} (s : State) (i : Nat) (hk : Keeps km kf ku s₀ s) :
    Keeps km kf ku s₀ (State.imageDisable s i) := by
  unfold State.imageDisable
  repeat' (
    first
    | with_reducible assumption | with_reducible apply State.setImg_keeps | with_reducible apply State.updIm_keeps
    | with_reducible apply State.wr_keeps | with_reducible apply Keeps.ite | intro _ _ _ _ _ | intro _ _ _ _ | intro _ _ _
    | intro _ _ | split | with_reducible apply Keeps.fields)

theorem State.sendLoadreq_keeps {km kf ku : Bool} {s₀ : State} (s : State) (i : Nat) (hk : Keeps km kf ku s₀ s) :
    Keeps km kf ku s₀ (State.sendLoadreq s i) := by
  unfold State.sendLoadreq
  repeat' (
    first
    | with_reducible assumption | with_reducible apply State.toNode_keeps | with_reducible apply Keeps.ite | intro _ _ _ _ _
    | intro _ _ _ _ | intro _ _ _ | intro _ _ | split | with_reducible apply Keeps.fields)

theorem State.imageLoad_keeps {km kf ku : Bool} {s₀ : State} (s : State) (i : Nat) (hk : Keeps km kf ku s₀ s) :
    Keeps km kf ku s₀ (State.imageLoad s i) := by
  unfold State.imageLoad
  repeat' (
    first
    | with_reducible assumption | with_reducible apply State.imgAllocate_keeps | with_reducible apply State.imgRefuse_keeps
    | with_reducible apply State.sendLoadreq_keeps | with_reducible apply State.setImg_keeps
    | with_reducible apply State.updIm_keeps | with_reducible apply Keeps.ite | intro _ _ _ _ _ | intro _ _ _ _ | intro _ _ _
    | intro _ _ | split | with_reducible apply Keeps.fields)

theorem State.imgUse_keeps {km kf ku : Bool} {s₀ : State} (s : State) (i : Nat) (hk : Keeps km kf ku s₀ s) :
    Keeps km kf ku s₀ (State.imgUse s i) := by
  unfold State.imgUse
  repeat' (
    first
    | with_reducible assumption | with_reducible apply State.inc_keeps | with_reducible apply State.wr_keeps
    | with_reducible apply Keeps.ite | intro _ _ _ _ _ | intro _ _ _ _ | intro _ _ _ | intro _ _ | split
    | with_reducible apply Keeps.fields)

theorem State.loadFailed_keeps {km kf ku : Bool} {s₀ : State} (s : State) (i : Nat) (hk : Keeps km kf ku s₀ s) :
    Keeps km kf ku s₀ (State.loadFailed s i) := by
  unfold State.loadFailed
  repeat' (
    first
    | with_reducible assumption | with_reducible apply State.record_keeps | with_reducible apply State.setImg_keeps
    | with_reducible apply Keeps.ite | intro _ _ _ _ _ | intro _ _ _ _ | intro _ _ _ | intro _ _ | split
    | with_reducible apply Keeps.fields)

theorem execImageEnable_keeps {km kf ku : Bool} (i : ImageId) (s : State) : OutKeeps km kf ku s (execImageEnable i s) := by
  unfold execImageEnable
  repeat' (
    first
    | with_reducible assumption | with_reducible exact Keeps.refl _ | with_reducible apply OutKeeps.next
    | with_reducible apply OutKeeps.ite | with_reducible apply State.imageEnable_keeps | with_reducible apply Keeps.inMain
    | with_reducible apply Keeps.ite | intro _ _ _ _ _ | intro _ _ _ _ | intro _ _ _ | intro _ _ | split
    | with_reducible apply Keeps.fields)

theorem execImageLoad_keeps {km kf ku : Bool} (i : ImageId) (s : State) : OutKeeps km kf ku s (execImageLoad i s) := by
  unfold execImageLoad
  repeat' (
    first
    | with_reducible assumption | with_reducible exact Keeps.refl _ | with_reducible apply OutKeeps.next
    | with_reducible apply OutKeeps.ite | with_reducible apply State.imageLoad_keeps | with_reducible apply Keeps.inMain
    | with_reducible apply Keeps.ite | intro _ _ _ _ _ | intro _ _ _ _ | intro _ _ _ | intro _ _ | split
    | with_reducible apply Keeps.fields)

theorem execLoadreq_keeps {km kf ku : Bool} (requester stream : Nat) (s : State) :
    OutKeeps km kf ku s (execLoadreq requester stream s) := by
  unfold execLoadreq
  repeat' (
    first
    | with_reducible assumption | with_reducible exact Keeps.refl _ | with_reducible apply OutKeeps.next
    | with_reducible apply OutKeeps.ite | with_reducible apply State.charge_keeps | with_reducible apply State.imgUse_keeps
    | with_reducible apply State.toNode_keeps | with_reducible apply Keeps.inMain | with_reducible apply Keeps.ite
    | intro _ _ _ _ _ | intro _ _ _ _ | intro _ _ _ | intro _ _ | split | with_reducible apply Keeps.fields)

theorem execImageAnswer_keeps {kf ku : Bool} (i : ImageId) (a : LoadAnswer) (s : State) :
    OutKeeps true kf ku s (execImageAnswer i a s) := by
  unfold execImageAnswer
  repeat' (
    first
    | with_reducible assumption | with_reducible exact Keeps.refl _ | with_reducible apply OutKeeps.next
    | with_reducible apply OutKeeps.ite | with_reducible apply State.charge_keeps | with_reducible apply State.imageLoad_keeps
    | with_reducible apply State.loadFailed_keeps | with_reducible apply State.setImg_keeps
    | with_reducible apply State.store_keeps | with_reducible apply State.updIm_keeps | with_reducible apply State.wr_keeps
    | with_reducible apply Keeps.inMain | with_reducible apply Keeps.ite | intro _ _ _ _ _ | intro _ _ _ _ | intro _ _ _
    | intro _ _ | split | with_reducible apply Keeps.fields)

theorem execLoadRetry_keeps {km kf ku : Bool} (i : ImageId) (s : State) : OutKeeps km kf ku s (execLoadRetry i s) := by
  unfold execLoadRetry
  repeat' (
    first
    | with_reducible assumption | with_reducible exact Keeps.refl _ | with_reducible apply OutKeeps.next
    | with_reducible apply OutKeeps.ite | with_reducible apply State.loadFailed_keeps
    | with_reducible apply State.sendLoadreq_keeps | with_reducible apply State.updIm_keeps | with_reducible apply Keeps.inMain
    | with_reducible apply Keeps.ite | intro _ _ _ _ _ | intro _ _ _ _ | intro _ _ _ | intro _ _ | split
    | with_reducible apply Keeps.fields)

theorem execTouch_keeps {km kf ku : Bool} (i : ImageId) (s : State) : OutKeeps km kf ku s (execTouch i s) := by
  unfold execTouch
  repeat' (
    first
    | with_reducible assumption | with_reducible exact Keeps.refl _ | with_reducible apply OutKeeps.next
    | with_reducible apply OutKeeps.ite | with_reducible apply State.imgUse_keeps | with_reducible apply Keeps.inMain
    | with_reducible apply Keeps.ite | intro _ _ _ _ _ | intro _ _ _ _ | intro _ _ _ | intro _ _ | split
    | with_reducible apply Keeps.fields)

theorem execOrphan_keeps {km kf ku : Bool} (stream : Nat) (s : State) : OutKeeps km kf ku s (execOrphan stream s) := by
  unfold execOrphan
  repeat' (
    first
    | with_reducible assumption | with_reducible exact Keeps.refl _ | with_reducible apply OutKeeps.next
    | with_reducible apply OutKeeps.ite | with_reducible apply State.onImage_keeps | with_reducible apply State.setImg_keeps
    | with_reducible apply Keeps.inMain | with_reducible apply Keeps.ite | intro _ _ _ _ _ | intro _ _ _ _ | intro _ _ _
    | intro _ _ | split | with_reducible apply Keeps.fields)

theorem State.writeWimgCtl_keeps {km kf ku : Bool} {s₀ : State} (s : State) (i : Nat) (v : Word) (hk : Keeps km kf ku s₀ s) :
    Keeps km kf ku s₀ (State.writeWimgCtl s i v) := by
  unfold State.writeWimgCtl
  repeat' (
    first
    | with_reducible assumption | with_reducible apply State.imageDisable_keeps | with_reducible apply State.imageEnable_keeps
    | with_reducible apply State.imageLoad_keeps | with_reducible apply State.plainWrite_keeps | with_reducible apply Keeps.ite
    | intro _ _ _ _ _ | intro _ _ _ _ | intro _ _ _ | intro _ _ | split | with_reducible apply Keeps.fields)

end Sys2Proof.Machine
end

