-- ==== Sys2Proof/Laws/KeepsApply.lean ====
section
/-! SUPPORT. What the operations of Machine/Apply.lean keep (the relation Keeps). -/
set_option linter.unusedTactic false
set_option linter.unreachableTactic false
set_option linter.unusedVariables false
namespace Sys2Proof.Machine

theorem State.invalidate_keeps {km kf ku : Bool} {s₀ : State} (s : State) (g o n requester txid : Nat) (answer : Bool) (hk : Keeps km kf ku s₀ s) :
    Keeps km kf ku s₀ (State.invalidate s g o n requester txid answer) := by
  unfold State.invalidate
  repeat' (
    first
    | with_reducible assumption | with_reducible apply State.toMembers_keeps | with_reducible apply Keeps.ite | intro _ _ _ _ _
    | intro _ _ _ _ | intro _ _ _ | intro _ _ | split | with_reducible apply Keeps.fields)

theorem State.nextTxid_keeps {km kf ku : Bool} {s₀ : State} (s : State) (hk : Keeps km kf ku s₀ s) :
    Keeps km kf ku s₀ (State.nextTxid s).2 := by
  unfold State.nextTxid
  try dsimp only
  repeat' (
    first
    | with_reducible assumption | with_reducible apply Keeps.ite | intro _ _ _ _ _ | intro _ _ _ _ | intro _ _ _ | intro _ _
    | split | with_reducible apply Keeps.fields)

theorem State.autoInv_keeps {km kf ku : Bool} {s₀ : State} (s : State) (g o n : Nat) (hk : Keeps km kf ku s₀ s) :
    Keeps km kf ku s₀ (State.autoInv s g o n) := by
  unfold State.autoInv
  repeat' (
    first
    | with_reducible assumption | with_reducible apply State.invalidate_keeps | with_reducible apply State.nextTxid_keeps
    | with_reducible apply Keeps.ite | intro _ _ _ _ _ | intro _ _ _ _ | intro _ _ _ | intro _ _ | split
    | with_reducible apply Keeps.fields)

theorem State.showScalars_keeps {km kf ku : Bool} {s₀ : State} (s : State) (g : Nat) (sc : List F32) (hk : Keeps km kf ku s₀ s) :
    Keeps km kf ku s₀ (State.showScalars s g sc) := by
  unfold State.showScalars
  repeat' (
    first
    | with_reducible assumption | with_reducible apply State.wr_keeps | with_reducible apply Keeps.ite | intro _ _ _ _ _
    | intro _ _ _ _ | intro _ _ _ | intro _ _ | split | with_reducible apply Keeps.fields)

theorem State.undoLeaves_keeps {kf ku : Bool} {s₀ : State} {s : State} {g x : Nat} {l : List (Nat × List Byte)} {t : State}
    (ht : State.undoLeaves s g x l = some t) (h : Keeps true kf ku s₀ s) : Keeps true kf ku s₀ t := by
  induction l generalizing s with
  | nil =>
    simp only [State.undoLeaves, Option.some.injEq] at ht
    rw [← ht]; exact h
  | cons y r ih =>
    unfold State.undoLeaves at ht
    split at ht
    · exact ih ht h
    · split at ht
      · rename_i hw
        exact ih ht (State.writeUndo_keeps hw h)
      · cases ht

theorem State.undoBlock_keeps {kf ku : Bool} {s₀ : State} (s : State) (g t : Nat) (deltas : List (Nat × List Byte)) (hk : Keeps true kf ku s₀ s) :
    Keeps true kf ku s₀ (State.undoBlock s g t deltas) := by
  unfold State.undoBlock
  repeat' (
    first
    | with_reducible assumption | with_reducible refine State.undoLeaves_keeps (by assumption) ?_
    | with_reducible apply State.undoFull_keeps | with_reducible apply Keeps.ite | intro _ _ _ _ _ | intro _ _ _ _ | intro _ _ _
    | intro _ _ | split | with_reducible apply Keeps.fields)

theorem State.countNonfinite_keeps {km kf ku : Bool} {s₀ : State} (s : State) (g t n : Nat) (hk : Keeps km kf ku s₀ s) :
    Keeps km kf ku s₀ (State.countNonfinite s g t n) := by
  unfold State.countNonfinite
  repeat' (
    first
    | with_reducible assumption | with_reducible apply State.add_keeps | with_reducible apply State.record_keeps
    | with_reducible apply State.updGl_keeps | with_reducible apply Keeps.ite | intro _ _ _ _ _ | intro _ _ _ _ | intro _ _ _
    | intro _ _ | split | with_reducible apply Keeps.fields)

theorem State.applyNext_keeps {kf ku : Bool} {s₀ : State} (s : State) (g t l b : Nat) (deltas : List (Nat × List Byte)) (entry : List Byte) (hk : Keeps true kf ku s₀ s) :
    Keeps true kf ku s₀ (State.applyNext s g t l b deltas entry) := by
  unfold State.applyNext
  repeat' (
    first
    | with_reducible assumption | with_reducible apply State.nextChange_keeps | with_reducible apply State.sendLmn_keeps
    | with_reducible apply State.updGl_keeps | with_reducible apply Keeps.ite | intro _ _ _ _ _ | intro _ _ _ _ | intro _ _ _
    | intro _ _ | split | with_reducible apply Keeps.fields)

theorem State.applyCopy_keeps {kf ku : Bool} {s₀ : State} (s : State) (g t l b : Nat) (master : List Byte) (hk : Keeps true kf ku s₀ s) :
    Keeps true kf ku s₀ (State.applyCopy s g t l b master) := by
  unfold State.applyCopy
  repeat' (
    first
    | with_reducible assumption | with_reducible apply State.autoInv_keeps | with_reducible apply State.raiseExc_keeps
    | with_reducible apply State.store_keeps | with_reducible apply Keeps.ite | intro _ _ _ _ _ | intro _ _ _ _ | intro _ _ _
    | intro _ _ | split | with_reducible apply Keeps.fields)

theorem State.applyStore_keeps {kf ku : Bool} {s₀ : State} (s : State) (g t l b : Nat) (ops : List (Option LaneOp)) (second : Bool) (hk : Keeps true kf ku s₀ s) :
    Keeps true kf ku s₀ (State.applyStore s g t l b ops second) := by
  unfold State.applyStore
  repeat' (
    first
    | with_reducible assumption | with_reducible apply State.applyCopy_keeps | with_reducible apply State.applyNext_keeps
    | with_reducible apply State.charge_keeps | with_reducible apply State.countNonfinite_keeps
    | with_reducible apply State.countPass_keeps | with_reducible apply State.publishBefore_keeps
    | with_reducible apply State.raiseExc_keeps | with_reducible apply State.rememberLedger_keeps
    | with_reducible apply State.rememberNext_keeps | with_reducible apply State.sendDelta_keeps
    | with_reducible apply State.settleApply_keeps | with_reducible apply State.showScalars_keeps
    | with_reducible apply State.startPublish_keeps | with_reducible apply State.startSweep_keeps
    | with_reducible apply State.store_keeps | with_reducible apply State.sweepBefore_keeps
    | with_reducible apply State.undoBlock_keeps | with_reducible apply State.updGl_keeps | with_reducible apply Keeps.each
    | with_reducible apply Keeps.ite | intro _ _ _ _ _ | intro _ _ _ _ | intro _ _ _ | intro _ _ | split
    | with_reducible apply Keeps.fields)

theorem State.applyFirst_keeps {km kf ku : Bool} {s₀ : State} (s : State) (g t l b : Nat) (ops : List (Option LaneOp)) (hk : Keeps km kf ku s₀ s) :
    Keeps km kf ku s₀ (State.applyFirst s g t l b ops) := by
  unfold State.applyFirst
  repeat' (
    first
    | with_reducible assumption | with_reducible apply State.charge_keeps | with_reducible apply State.countPass_keeps
    | with_reducible apply State.raiseExc_keeps | with_reducible apply State.showScalars_keeps
    | with_reducible apply State.updGl_keeps | with_reducible apply Keeps.ite | intro _ _ _ _ _ | intro _ _ _ _ | intro _ _ _
    | intro _ _ | split | with_reducible apply Keeps.fields)

theorem State.wantLeaves_keeps {km kf ku : Bool} {s₀ : State} (s : State) (g : Nat) (l : List Nat) (hk : Keeps km kf ku s₀ s) :
    Keeps km kf ku s₀ (State.wantLeaves s g l) := by
  unfold State.wantLeaves
  repeat' (
    first
    | with_reducible assumption | with_reducible apply State.updGl_keeps | with_reducible apply Keeps.ite | intro _ _ _ _ _
    | intro _ _ _ _ | intro _ _ _ | intro _ _ | split | with_reducible apply Keeps.fields)

theorem State.applyUnit_keeps {kf ku : Bool} {s₀ : State} (s : State) (g t : Nat) (first : Bool) (hk : Keeps true kf ku s₀ s) :
    Keeps true kf ku s₀ (State.applyUnit s g t first) := by
  unfold State.applyUnit
  repeat' (
    first
    | with_reducible assumption | with_reducible apply State.applyFirst_keeps | with_reducible apply State.applyStore_keeps
    | with_reducible apply State.readCheck_keeps | with_reducible apply State.settleApply_keeps
    | with_reducible apply State.updGl_keeps | with_reducible apply State.wantLeaves_keeps | with_reducible apply Keeps.each
    | with_reducible apply Keeps.ite | intro _ _ _ _ _ | intro _ _ _ _ | intro _ _ _ | intro _ _ | split
    | with_reducible apply Keeps.fields)

theorem execApplyBlock_keeps {kf ku : Bool} (g : GladeId) (t : Nat) (s : State) :
    OutKeeps true kf ku s (execApplyBlock g t s) := by
  unfold execApplyBlock
  repeat' (
    first
    | with_reducible assumption | with_reducible exact Keeps.refl _ | with_reducible apply OutKeeps.next
    | with_reducible apply OutKeeps.ite | with_reducible apply State.applyUnit_keeps | with_reducible apply Keeps.inMain
    | with_reducible apply Keeps.ite | intro _ _ _ _ _ | intro _ _ _ _ | intro _ _ _ | intro _ _ | split
    | with_reducible apply Keeps.fields)

end Sys2Proof.Machine
end

