-- ==== Sys2Proof/Laws/KeepsClose.lean ====
section
/-! SUPPORT. What the operations of Machine/Close.lean keep (the relation Keeps). -/
set_option linter.unusedTactic false
set_option linter.unreachableTactic false
set_option linter.unusedVariables false
namespace Sys2Proof.Machine

theorem State.listedStale_keeps {km kf ku : Bool} {s₀ : State} (s : State) (g : Nat) (x : RowPar) (hk : Keeps km kf ku s₀ s) :
    Keeps km kf ku s₀ (State.listedStale s g x) := by
  unfold State.listedStale
  repeat' (
    first
    | with_reducible assumption | with_reducible apply State.add_keeps | with_reducible apply State.markStale_keeps
    | with_reducible apply State.updGl_keeps | with_reducible apply Keeps.ite | intro _ _ _ _ _ | intro _ _ _ _ | intro _ _ _
    | intro _ _ | split | with_reducible apply Keeps.fields)

theorem State.askLine_keeps {km kf ku : Bool} {s₀ : State} (s : State) (g row line unit : Nat) (hk : Keeps km kf ku s₀ s) :
    Keeps km kf ku s₀ (State.askLine s g row line unit) := by
  unfold State.askLine
  repeat' (
    first
    | with_reducible assumption | with_reducible apply State.toMembers_keeps | with_reducible apply Keeps.ite | intro _ _ _ _ _
    | intro _ _ _ _ | intro _ _ _ | intro _ _ | split | with_reducible apply Keeps.fields)

theorem State.askAgain_keeps {km kf ku : Bool} {s₀ : State} (s : State) (g : Nat) (hk : Keeps km kf ku s₀ s) :
    Keeps km kf ku s₀ (State.askAgain s g) := by
  unfold State.askAgain
  repeat' (
    first
    | with_reducible assumption | with_reducible apply State.askLine_keeps | with_reducible apply Keeps.each
    | with_reducible apply Keeps.ite | intro _ _ _ _ _ | intro _ _ _ _ | intro _ _ _ | intro _ _ | split
    | with_reducible apply Keeps.fields)

theorem State.commitRing_keeps {km kf ku : Bool} {s₀ : State} (s : State) (g : Nat) (stale : List RowPar) (hk : Keeps km kf ku s₀ s) :
    Keeps km kf ku s₀ (State.commitRing s g stale) := by
  unfold State.commitRing
  repeat' (
    first
    | with_reducible assumption | with_reducible apply State.askAgain_keeps | with_reducible apply State.listedStale_keeps
    | with_reducible apply State.refreshEras_keeps | with_reducible apply Keeps.setReg
    | with_reducible apply State.setStage_keeps | with_reducible apply State.updGl_keeps
    | with_reducible apply State.wptPoll_keeps | with_reducible apply Keeps.each | with_reducible apply Keeps.ite
    | intro _ _ _ _ _ | intro _ _ _ _ | intro _ _ _ | intro _ _ | split | with_reducible apply Keeps.fields)

theorem State.reduceClose_keeps {km kf ku : Bool} {s₀ : State} (s : State) (g : Nat) (hk : Keeps km kf ku s₀ s) :
    Keeps km kf ku s₀ (State.reduceClose s g) := by
  unfold State.reduceClose
  repeat' (
    first
    | with_reducible assumption | with_reducible apply State.commitRing_keeps | with_reducible apply State.distribute_keeps
    | with_reducible apply State.eachSide_keeps | with_reducible apply State.toMember_keeps | with_reducible apply Keeps.ite
    | intro _ _ _ _ _ | intro _ _ _ _ | intro _ _ _ | intro _ _ | split | with_reducible apply Keeps.fields)

theorem execRingCloseBarrier_keeps {km kf ku : Bool} (g : GladeId) (s : State) :
    OutKeeps km kf ku s (execRingCloseBarrier g s) := by
  unfold execRingCloseBarrier
  repeat' (
    first
    | with_reducible assumption | with_reducible exact Keeps.refl _ | with_reducible apply OutKeeps.next
    | with_reducible apply OutKeeps.ite | with_reducible apply State.reduceClose_keeps
    | with_reducible apply State.setStage_keeps | with_reducible apply State.updGl_keeps | with_reducible apply Keeps.inMain
    | with_reducible apply Keeps.ite | intro _ _ _ _ _ | intro _ _ _ _ | intro _ _ _ | intro _ _ | split
    | with_reducible apply Keeps.fields)

theorem execRingCloseCompletion_keeps {km kf ku : Bool} (g : GladeId) (ring : Nat) (stale : List RowPar) (s : State) :
    OutKeeps km kf ku s (execRingCloseCompletion g ring stale s) := by
  unfold execRingCloseCompletion
  repeat' (
    first
    | with_reducible assumption | with_reducible exact Keeps.refl _ | with_reducible apply OutKeeps.next
    | with_reducible apply OutKeeps.ite | with_reducible apply State.commitRing_keeps | with_reducible apply State.passOn_keeps
    | with_reducible apply Keeps.inMain | with_reducible apply Keeps.ite | intro _ _ _ _ _ | intro _ _ _ _ | intro _ _ _
    | intro _ _ | split | with_reducible apply Keeps.fields)

end Sys2Proof.Machine
end

