-- ==== Sys2Proof/Laws/KeepsLoss.lean ====
section
/-! SUPPORT. What the operations of Machine/Loss.lean keep (the relation Keeps). -/
set_option linter.unusedTactic false
set_option linter.unreachableTactic false
set_option linter.unusedVariables false
namespace Sys2Proof.Machine

theorem State.refreshVis_keeps {km kf ku : Bool} {s₀ : State} (s : State) (g : Nat) (hk : Keeps km kf ku s₀ s) :
    Keeps km kf ku s₀ (State.refreshVis s g) := by
  unfold State.refreshVis
  repeat' (
    first
    | with_reducible assumption | with_reducible apply State.updGl_keeps | with_reducible apply State.wr_keeps
    | with_reducible apply Keeps.ite | intro _ _ _ _ _ | intro _ _ _ _ | intro _ _ _ | intro _ _ | split
    | with_reducible apply Keeps.fields)

theorem execBeatTimer_keeps {km kf ku : Bool} (g : GladeId) (s : State) : OutKeeps km kf ku s (execBeatTimer g s) := by
  unfold execBeatTimer
  repeat' (
    first
    | with_reducible assumption | with_reducible exact Keeps.refl _ | with_reducible apply OutKeeps.next
    | with_reducible apply OutKeeps.ite | with_reducible apply State.toMembers_keeps | with_reducible apply Keeps.inMain
    | with_reducible apply Keeps.ite | intro _ _ _ _ _ | intro _ _ _ _ | intro _ _ _ | intro _ _ | split
    | with_reducible apply Keeps.fields)

theorem execGroveBeat_keeps {km kf ku : Bool} (g : GladeId) (slot : Nat) (s : State) :
    OutKeeps km kf ku s (execGroveBeat g slot s) := by
  unfold execGroveBeat
  repeat' (
    first
    | with_reducible assumption | with_reducible exact Keeps.refl _ | with_reducible apply OutKeeps.next
    | with_reducible apply OutKeeps.ite | with_reducible apply State.refreshVis_keeps | with_reducible apply State.updGl_keeps
    | with_reducible apply Keeps.inMain | with_reducible apply Keeps.ite | intro _ _ _ _ _ | intro _ _ _ _ | intro _ _ _
    | intro _ _ | split | with_reducible apply Keeps.fields)

theorem State.joinAgreement_keeps {km kf ku : Bool} {s₀ : State} (s : State) (g seq : Nat) (suspects : List Nat) (cause : Option Nat) (hk : Keeps km kf ku s₀ s) :
    Keeps km kf ku s₀ (State.joinAgreement s g seq suspects cause) := by
  unfold State.joinAgreement
  repeat' (
    first
    | with_reducible assumption | with_reducible apply State.inc_keeps | with_reducible apply State.setMstate_keeps
    | with_reducible apply State.updGl_keeps | with_reducible apply State.wr_keeps | with_reducible apply Keeps.ite
    | intro _ _ _ _ _ | intro _ _ _ _ | intro _ _ _ | intro _ _ | split | with_reducible apply Keeps.fields)

theorem State.startAgreement_keeps {km kf ku : Bool} {s₀ : State} (s : State) (g seq : Nat) (suspects : List Nat) (cause : Option Nat) (hk : Keeps km kf ku s₀ s) :
    Keeps km kf ku s₀ (State.startAgreement s g seq suspects cause) := by
  unfold State.startAgreement
  repeat' (
    first
    | with_reducible assumption | with_reducible apply State.joinAgreement_keeps | with_reducible apply State.toMembers_keeps
    | with_reducible apply Keeps.ite | intro _ _ _ _ _ | intro _ _ _ _ | intro _ _ _ | intro _ _ | split
    | with_reducible apply Keeps.fields)

theorem State.addSuspects_keeps {km kf ku : Bool} {s₀ : State} (s : State) (g : Nat) (l : List Nat) (hk : Keeps km kf ku s₀ s) :
    Keeps km kf ku s₀ (State.addSuspects s g l) := by
  unfold State.addSuspects
  repeat' (
    first
    | with_reducible assumption | with_reducible apply State.updGl_keeps | with_reducible apply Keeps.ite | intro _ _ _ _ _
    | intro _ _ _ _ | intro _ _ _ | intro _ _ | split | with_reducible apply Keeps.fields)

theorem State.detect_keeps {km kf ku : Bool} {s₀ : State} (s : State) (g lmn cause : Nat) (hk : Keeps km kf ku s₀ s) :
    Keeps km kf ku s₀ (State.detect s g lmn cause) := by
  unfold State.detect
  repeat' (
    first
    | with_reducible assumption | with_reducible apply State.addSuspects_keeps | with_reducible apply State.startAgreement_keeps
    | with_reducible apply State.toMembers_keeps | with_reducible apply State.updGl_keeps | with_reducible apply Keeps.ite
    | intro _ _ _ _ _ | intro _ _ _ _ | intro _ _ _ | intro _ _ | split | with_reducible apply Keeps.fields)

theorem execBeatSilence_keeps {km kf ku : Bool} (g : GladeId) (slot : Nat) (s : State) :
    OutKeeps km kf ku s (execBeatSilence g slot s) := by
  unfold execBeatSilence
  repeat' (
    first
    | with_reducible assumption | with_reducible exact Keeps.refl _ | with_reducible apply OutKeeps.next
    | with_reducible apply OutKeeps.ite | with_reducible apply State.detect_keeps | with_reducible apply State.refreshVis_keeps
    | with_reducible apply State.updGl_keeps | with_reducible apply Keeps.inMain | with_reducible apply Keeps.ite
    | intro _ _ _ _ _ | intro _ _ _ _ | intro _ _ _ | intro _ _ | split | with_reducible apply Keeps.fields)

theorem execSuspicionNotice_keeps {km kf ku : Bool} (g : GladeId) (lmn cause : Nat) (s : State) :
    OutKeeps km kf ku s (execSuspicionNotice g lmn cause s) := by
  unfold execSuspicionNotice
  repeat' (
    first
    | with_reducible assumption | with_reducible exact Keeps.refl _ | with_reducible apply OutKeeps.next
    | with_reducible apply OutKeeps.ite | with_reducible apply State.detect_keeps | with_reducible apply Keeps.inMain
    | with_reducible apply Keeps.ite | intro _ _ _ _ _ | intro _ _ _ _ | intro _ _ _ | intro _ _ | split
    | with_reducible apply Keeps.fields)

theorem execFenceNotice_keeps {km kf ku : Bool} (g : GladeId) (lmn : Nat) (s : State) :
    OutKeeps km kf ku s (execFenceNotice g lmn s) := by
  unfold execFenceNotice
  repeat' (
    first
    | with_reducible assumption | with_reducible exact Keeps.refl _ | with_reducible apply OutKeeps.next
    | with_reducible apply OutKeeps.ite | with_reducible apply State.detect_keeps | with_reducible apply Keeps.inMain
    | with_reducible apply Keeps.ite | intro _ _ _ _ _ | intro _ _ _ _ | intro _ _ _ | intro _ _ | split
    | with_reducible apply Keeps.fields)

theorem execDepartureNotice_keeps {km kf ku : Bool} (g : GladeId) (lmn : Nat) (s : State) :
    OutKeeps km kf ku s (execDepartureNotice g lmn s) := by
  unfold execDepartureNotice
  repeat' (
    first
    | with_reducible assumption | with_reducible exact Keeps.refl _ | with_reducible apply OutKeeps.next
    | with_reducible apply OutKeeps.ite | with_reducible apply State.detect_keeps | with_reducible apply Keeps.inMain
    | with_reducible apply Keeps.ite | intro _ _ _ _ _ | intro _ _ _ _ | intro _ _ _ | intro _ _ | split
    | with_reducible apply Keeps.fields)

theorem execStart_keeps {km kf ku : Bool} (g : GladeId) (seq : Nat) (suspects : List Nat) (s : State) :
    OutKeeps km kf ku s (execStart g seq suspects s) := by
  unfold execStart
  repeat' (
    first
    | with_reducible assumption | with_reducible exact Keeps.refl _ | with_reducible apply OutKeeps.next
    | with_reducible apply OutKeeps.ite | with_reducible apply State.addSuspects_keeps
    | with_reducible apply State.joinAgreement_keeps | with_reducible apply Keeps.inMain | with_reducible apply Keeps.ite
    | intro _ _ _ _ _ | intro _ _ _ _ | intro _ _ _ | intro _ _ | split | with_reducible apply Keeps.fields)

theorem execProbe_keeps {km kf ku : Bool} (g : GladeId) (s : State) : OutKeeps km kf ku s (execProbe g s) := by
  unfold execProbe
  repeat' (
    first
    | with_reducible assumption | with_reducible exact Keeps.refl _ | with_reducible apply OutKeeps.next
    | with_reducible apply OutKeeps.ite | with_reducible apply State.toMember_keeps | with_reducible apply State.toNode_keeps
    | with_reducible apply State.updGl_keeps | with_reducible apply Keeps.each | with_reducible apply Keeps.inMain
    | with_reducible apply Keeps.ite | intro _ _ _ _ _ | intro _ _ _ _ | intro _ _ _ | intro _ _ | split
    | with_reducible apply Keeps.fields)

theorem execProbeAnswer_keeps {km kf ku : Bool} (g : GladeId) (spare : Bool) (target : Nat) (s : State) :
    OutKeeps km kf ku s (execProbeAnswer g spare target s) := by
  unfold execProbeAnswer
  repeat' (
    first
    | with_reducible assumption | with_reducible exact Keeps.refl _ | with_reducible apply OutKeeps.next
    | with_reducible apply OutKeeps.ite | with_reducible apply State.updGl_keeps | with_reducible apply Keeps.inMain
    | with_reducible apply Keeps.ite | intro _ _ _ _ _ | intro _ _ _ _ | intro _ _ _ | intro _ _ | split
    | with_reducible apply Keeps.fields)

theorem State.sendView_keeps {km kf ku : Bool} {s₀ : State} (s : State) (g seq : Nat) (v : View) (hk : Keeps km kf ku s₀ s) :
    Keeps km kf ku s₀ (State.sendView s g seq v) := by
  unfold State.sendView
  repeat' (
    first
    | with_reducible assumption | with_reducible apply State.toMembers_keeps | with_reducible apply Keeps.ite | intro _ _ _ _ _
    | intro _ _ _ _ | intro _ _ _ | intro _ _ | split | with_reducible apply Keeps.fields)

theorem execRound1End_keeps {km kf ku : Bool} (g : GladeId) (s : State) : OutKeeps km kf ku s (execRound1End g s) := by
  unfold execRound1End
  repeat' (
    first
    | with_reducible assumption | with_reducible exact Keeps.refl _ | with_reducible apply OutKeeps.next
    | with_reducible apply OutKeeps.ite | with_reducible apply State.sendView_keeps | with_reducible apply State.updGl_keeps
    | with_reducible apply Keeps.each | with_reducible apply Keeps.inMain | with_reducible apply Keeps.ite | intro _ _ _ _ _
    | intro _ _ _ _ | intro _ _ _ | intro _ _ | split | with_reducible apply Keeps.fields)

theorem execView_keeps {km kf ku : Bool} (g : GladeId) (v : View) (s : State) : OutKeeps km kf ku s (execView g v s) := by
  unfold execView
  repeat' (
    first
    | with_reducible assumption | with_reducible exact Keeps.refl _ | with_reducible apply OutKeeps.next
    | with_reducible apply OutKeeps.ite | with_reducible apply State.sendView_keeps | with_reducible apply State.updGl_keeps
    | with_reducible apply Keeps.inMain | with_reducible apply Keeps.ite | intro _ _ _ _ _ | intro _ _ _ _ | intro _ _ _
    | intro _ _ | split | with_reducible apply Keeps.fields)

theorem State.undoAll_keeps {kf ku : Bool} {s₀ : State} (s : State) (g : Nat) (hk : Keeps true kf ku s₀ s) :
    Keeps true kf ku s₀ (State.undoAll s g) := by
  unfold State.undoAll
  repeat' (
    first
    | with_reducible assumption | with_reducible apply State.store_keeps | with_reducible apply Keeps.each
    | with_reducible apply Keeps.ite | intro _ _ _ _ _ | intro _ _ _ _ | intro _ _ _ | intro _ _ | split
    | with_reducible apply Keeps.fields)

theorem State.unfoldAll_keeps {kf ku : Bool} {s₀ : State} (s : State) (g : Nat) (hk : Keeps true kf ku s₀ s) :
    Keeps true kf ku s₀ (State.unfoldAll s g) := by
  unfold State.unfoldAll
  repeat' (
    first
    | with_reducible assumption | with_reducible apply State.store_keeps | with_reducible apply State.updGl_keeps
    | with_reducible apply Keeps.each | with_reducible apply Keeps.ite | intro _ _ _ _ _ | intro _ _ _ _ | intro _ _ _
    | intro _ _ | split | with_reducible apply Keeps.fields)

theorem State.replay_keeps {kf ku : Bool} {s₀ : State} (s : State) (g : Nat) (hk : Keeps true kf ku s₀ s) :
    Keeps true kf ku s₀ (State.replay s g) := by
  unfold State.replay
  repeat' (
    first
    | with_reducible assumption | with_reducible apply State.awaitLeaf_keeps | with_reducible apply State.inc_keeps
    | with_reducible apply State.record_keeps | with_reducible apply State.setHold_keeps
    | with_reducible apply State.setPhase_keeps | with_reducible apply State.setStage_keeps
    | with_reducible apply State.undoAll_keeps | with_reducible apply State.unfoldAll_keeps
    | with_reducible apply State.updGl_keeps | with_reducible apply State.wr_keeps
    | with_reducible apply State.zeroBuffers_keeps | with_reducible apply Keeps.each | with_reducible apply Keeps.ite
    | intro _ _ _ _ _ | intro _ _ _ _ | intro _ _ _ | intro _ _ | split | with_reducible apply Keeps.fields)

theorem State.nextSlotLost_keeps {km kf ku : Bool} {s₀ : State} (s : State) (g slot : Nat) (hk : Keeps km kf ku s₀ s) :
    Keeps km kf ku s₀ (State.nextSlotLost s g slot) := by
  unfold State.nextSlotLost
  repeat' (
    first
    | with_reducible assumption | with_reducible apply State.add_keeps | with_reducible apply State.updGl_keeps
    | with_reducible apply Keeps.ite | intro _ _ _ _ _ | intro _ _ _ _ | intro _ _ _ | intro _ _ | split
    | with_reducible apply Keeps.fields)

theorem State.nextLmnLost_keeps {km kf ku : Bool} {s₀ : State} (s : State) (g i : Nat) (hk : Keeps km kf ku s₀ s) :
    Keeps km kf ku s₀ (State.nextLmnLost s g i) := by
  unfold State.nextLmnLost
  repeat' (
    first
    | with_reducible assumption | with_reducible apply State.nextSlotLost_keeps | with_reducible apply State.updGl_keeps
    | with_reducible apply Keeps.ite | intro _ _ _ _ _ | intro _ _ _ _ | intro _ _ _ | intro _ _ | split
    | with_reducible apply Keeps.fields)

theorem State.planLoss_keeps {km kf ku : Bool} {s₀ : State} (s : State) (g lmn : Nat) (hk : Keeps km kf ku s₀ s) :
    Keeps km kf ku s₀ (State.planLoss s g lmn) := by
  unfold State.planLoss
  repeat' (
    first
    | with_reducible assumption | with_reducible apply State.add_keeps | with_reducible apply State.nextLmnLost_keeps
    | with_reducible apply State.updGl_keeps | with_reducible apply Keeps.ite | intro _ _ _ _ _ | intro _ _ _ _ | intro _ _ _
    | intro _ _ | split | with_reducible apply Keeps.fields)

theorem State.sendTakeover_keeps {km kf ku : Bool} {s₀ : State} (s : State) (g pnid lmn : Nat) (inWindow : Bool) (hk : Keeps km kf ku s₀ s) :
    Keeps km kf ku s₀ (State.sendTakeover s g pnid lmn inWindow) := by
  unfold State.sendTakeover
  repeat' (
    first
    | with_reducible assumption | with_reducible apply State.toNode_keeps | with_reducible apply Keeps.ite | intro _ _ _ _ _
    | intro _ _ _ _ | intro _ _ _ | intro _ _ | split | with_reducible apply Keeps.fields)

theorem State.sendMapUpdate_keeps {km kf ku : Bool} {s₀ : State} (s : State) (g lmn pnid seq : Nat) (hk : Keeps km kf ku s₀ s) :
    Keeps km kf ku s₀ (State.sendMapUpdate s g lmn pnid seq) := by
  unfold State.sendMapUpdate
  repeat' (
    first
    | with_reducible assumption | with_reducible apply State.toMembers_keeps | with_reducible apply Keeps.ite | intro _ _ _ _ _
    | intro _ _ _ _ | intro _ _ _ | intro _ _ | split | with_reducible apply Keeps.fields)

theorem State.applyMap_keeps {km kf ku : Bool} {s₀ : State} (s : State) (g lmn pnid seq : Nat) (hk : Keeps km kf ku s₀ s) :
    Keeps km kf ku s₀ (State.applyMap s g lmn pnid seq) := by
  unfold State.applyMap
  repeat' (
    first
    | with_reducible assumption | with_reducible apply State.clearMask_keeps | with_reducible apply State.setMapEntry_keeps
    | with_reducible apply State.setMstate_keeps | with_reducible apply State.toMember_keeps
    | with_reducible apply State.updGl_keeps | with_reducible apply State.wr_keeps | with_reducible apply Keeps.each
    | with_reducible apply Keeps.ite | intro _ _ _ _ _ | intro _ _ _ _ | intro _ _ _ | intro _ _ | split
    | with_reducible apply Keeps.fields)

theorem State.hostLmn_keeps {km kf ku : Bool} {s₀ : State} (s : State) (g lmn : Nat) (hk : Keeps km kf ku s₀ s) :
    Keeps km kf ku s₀ (State.hostLmn s g lmn) := by
  unfold State.hostLmn
  repeat' (
    first
    | with_reducible assumption | with_reducible apply State.applyMap_keeps | with_reducible apply State.record_keeps
    | with_reducible apply State.sendMapUpdate_keeps | with_reducible apply State.setMstate_keeps
    | with_reducible apply State.updGl_keeps | with_reducible apply Keeps.ite | intro _ _ _ _ _ | intro _ _ _ _ | intro _ _ _
    | intro _ _ | split | with_reducible apply Keeps.fields)

theorem State.serve_keeps {km kf ku : Bool} {s₀ : State} (s : State) (g lmn : Nat) (cands : List Nat) (inWindow : Bool) (hk : Keeps km kf ku s₀ s) :
    Keeps km kf ku s₀ (State.serve s g lmn cands inWindow) := by
  unfold State.serve
  repeat' (
    first
    | with_reducible assumption | with_reducible apply State.hostLmn_keeps | with_reducible apply State.sendTakeover_keeps
    | with_reducible apply State.updGl_keeps | with_reducible apply Keeps.ite | intro _ _ _ _ _ | intro _ _ _ _ | intro _ _ _
    | intro _ _ | split | with_reducible apply Keeps.fields)

theorem State.endAgreement_keeps {km kf ku : Bool} {s₀ : State} (s : State) (g : Nat) (hk : Keeps km kf ku s₀ s) :
    Keeps km kf ku s₀ (State.endAgreement s g) := by
  unfold State.endAgreement
  repeat' (
    first
    | with_reducible assumption | with_reducible apply State.setMstate_keeps | with_reducible apply State.startAgreement_keeps
    | with_reducible apply State.updGl_keeps | with_reducible apply State.wr_keeps | with_reducible apply Keeps.ite
    | intro _ _ _ _ _ | intro _ _ _ _ | intro _ _ _ | intro _ _ | split | with_reducible apply Keeps.fields)

theorem State.settleProfile_keeps {km kf ku : Bool} {s₀ : State} (s : State) (g : Nat) (hk : Keeps km kf ku s₀ s) :
    Keeps km kf ku s₀ (State.settleProfile s g) := by
  unfold State.settleProfile
  repeat' (
    first
    | with_reducible assumption | with_reducible apply Keeps.ite | intro _ _ _ _ _ | intro _ _ _ _ | intro _ _ _ | intro _ _
    | split | with_reducible apply Keeps.fields)

theorem State.failCollectives_keeps {km kf ku : Bool} {s₀ : State} (s : State) (g : Nat) (hk : Keeps km kf ku s₀ s) :
    Keeps km kf ku s₀ (State.failCollectives s g) := by
  unfold State.failCollectives
  repeat' (
    first
    | with_reducible assumption | with_reducible apply State.haltDesc_keeps | with_reducible apply Keeps.each
    | with_reducible apply Keeps.ite | intro _ _ _ _ _ | intro _ _ _ _ | intro _ _ _ | intro _ _ | split
    | with_reducible apply Keeps.fields)

theorem State.dropMember_keeps {kf ku : Bool} {s₀ : State} (s : State) (g lmn : Nat) (hk : Keeps true kf ku s₀ s) :
    Keeps true kf ku s₀ (State.dropMember s g lmn) := by
  unfold State.dropMember
  repeat' (
    first
    | with_reducible assumption | with_reducible apply State.drainHeld_keeps | with_reducible apply State.settleRsgrad_keeps
    | with_reducible apply State.updGl_keeps | with_reducible apply Keeps.ite | intro _ _ _ _ _ | intro _ _ _ _ | intro _ _ _
    | intro _ _ | split | with_reducible apply Keeps.fields)

theorem State.checkRows_keeps {kf ku : Bool} {s₀ : State} (s : State) (g : Nat) (hk : Keeps true kf ku s₀ s) :
    Keeps true kf ku s₀ (State.checkRows s g) := by
  unfold State.checkRows
  repeat' (
    first
    | with_reducible assumption | with_reducible apply State.checkRow_keeps | with_reducible apply Keeps.each
    | with_reducible apply Keeps.ite | intro _ _ _ _ _ | intro _ _ _ _ | intro _ _ _ | intro _ _ | split
    | with_reducible apply Keeps.fields)

theorem State.loseSlot_keeps {kf ku : Bool} {s₀ : State} (s : State) (g x : Nat) (hk : Keeps true kf ku s₀ s) :
    Keeps true kf ku s₀ (State.loseSlot s g x) := by
  unfold State.loseSlot
  repeat' (
    first
    | with_reducible assumption | with_reducible apply State.dropMember_keeps | with_reducible apply State.planLoss_keeps
    | with_reducible apply State.refreshVis_keeps | with_reducible apply State.setMask_keeps
    | with_reducible apply State.updGl_keeps | with_reducible apply State.wr_keeps | with_reducible apply Keeps.ite
    | intro _ _ _ _ _ | intro _ _ _ _ | intro _ _ _ | intro _ _ | split | with_reducible apply Keeps.fields)

theorem State.serveLost_keeps {km kf ku : Bool} {s₀ : State} (s : State) (g : Nat) (d : Decision) (a : Agreement) (hk : Keeps km kf ku s₀ s) :
    Keeps km kf ku s₀ (State.serveLost s g d a) := by
  unfold State.serveLost
  repeat' (
    first
    | with_reducible assumption | with_reducible apply State.inc_keeps | with_reducible apply State.record_keeps
    | with_reducible apply State.serve_keeps | with_reducible apply Keeps.each | with_reducible apply Keeps.ite
    | intro _ _ _ _ _ | intro _ _ _ _ | intro _ _ _ | intro _ _ | split | with_reducible apply Keeps.fields)

theorem State.applyDec_keeps {kf ku : Bool} {s₀ : State} (s : State) (g : Nat) (d : Decision) (hk : Keeps true kf ku s₀ s) :
    Keeps true kf ku s₀ (State.applyDec s g d) := by
  unfold State.applyDec
  repeat' (
    first
    | with_reducible assumption | with_reducible apply State.checkRows_keeps | with_reducible apply State.commitRing_keeps
    | with_reducible apply State.endAgreement_keeps | with_reducible apply State.failCollectives_keeps
    | with_reducible apply State.loseSlot_keeps | with_reducible apply State.record_keeps
    | with_reducible apply State.refreshEras_keeps | with_reducible apply State.replay_keeps
    | with_reducible apply State.serveLost_keeps | with_reducible apply State.settleApply_keeps
    | with_reducible apply State.settleProfile_keeps | with_reducible apply State.updGl_keeps
    | with_reducible apply State.wr_keeps | with_reducible apply Keeps.each | with_reducible apply Keeps.ite | intro _ _ _ _ _
    | intro _ _ _ _ | intro _ _ _ | intro _ _ | split | with_reducible apply Keeps.fields)

theorem execDecDeadline_keeps {km kf ku : Bool} (g : GladeId) (silent : List Nat) (s : State) :
    OutKeeps km kf ku s (execDecDeadline g silent s) := by
  unfold execDecDeadline
  repeat' (
    first
    | with_reducible assumption | with_reducible exact Keeps.refl _ | with_reducible apply OutKeeps.next
    | with_reducible apply OutKeeps.ite | with_reducible apply State.startAgreement_keeps | with_reducible apply Keeps.inMain
    | with_reducible apply Keeps.ite | intro _ _ _ _ _ | intro _ _ _ _ | intro _ _ _ | intro _ _ | split
    | with_reducible apply Keeps.fields)

theorem execFirebreakSightTimeout_keeps {km kf ku : Bool} (g : GladeId) (s : State) :
    OutKeeps km kf ku s (execFirebreakSightTimeout g s) := by
  unfold execFirebreakSightTimeout
  repeat' (
    first
    | with_reducible assumption | with_reducible exact Keeps.refl _ | with_reducible apply OutKeeps.next
    | with_reducible apply OutKeeps.ite | with_reducible apply State.fence_keeps | with_reducible apply Keeps.inMain
    | with_reducible apply Keeps.ite | intro _ _ _ _ _ | intro _ _ _ _ | intro _ _ _ | intro _ _ | split
    | with_reducible apply Keeps.fields)

theorem State.forceFence_keeps {km kf ku : Bool} {s₀ : State} (s : State) (mask : Nat) (hk : Keeps km kf ku s₀ s) :
    Keeps km kf ku s₀ (State.forceFence s mask) := by
  unfold State.forceFence
  repeat' (
    first
    | with_reducible assumption | with_reducible apply State.fence_keeps | with_reducible apply Keeps.each
    | with_reducible apply Keeps.ite | intro _ _ _ _ _ | intro _ _ _ _ | intro _ _ _ | intro _ _ | split
    | with_reducible apply Keeps.fields)

theorem execForce_keeps {km kf ku : Bool} (mask : BitVec 16) (s : State) : OutKeeps km kf ku s (execForce mask s) := by
  unfold execForce
  repeat' (
    first
    | with_reducible assumption | with_reducible exact Keeps.refl _ | with_reducible apply OutKeeps.next
    | with_reducible apply OutKeeps.ite | with_reducible apply State.forceFence_keeps | with_reducible apply Keeps.inMain
    | with_reducible apply Keeps.ite | intro _ _ _ _ _ | intro _ _ _ _ | intro _ _ _ | intro _ _ | split
    | with_reducible apply Keeps.fields)

theorem execReady_keeps {km kf ku : Bool} (g : GladeId) (lmn : Nat) (s : State) : OutKeeps km kf ku s (execReady g lmn s) := by
  unfold execReady
  repeat' (
    first
    | with_reducible assumption | with_reducible exact Keeps.refl _ | with_reducible apply OutKeeps.next
    | with_reducible apply OutKeeps.ite | with_reducible apply State.applyMap_keeps
    | with_reducible apply State.sendMapUpdate_keeps | with_reducible apply State.settleProfile_keeps
    | with_reducible apply State.updGl_keeps | with_reducible apply Keeps.inMain | with_reducible apply Keeps.ite
    | intro _ _ _ _ _ | intro _ _ _ _ | intro _ _ _ | intro _ _ | split | with_reducible apply Keeps.fields)

theorem execReadyTimeout_keeps {km kf ku : Bool} (g : GladeId) (lmn : Nat) (s : State) :
    OutKeeps km kf ku s (execReadyTimeout g lmn s) := by
  unfold execReadyTimeout
  repeat' (
    first
    | with_reducible assumption | with_reducible exact Keeps.refl _ | with_reducible apply OutKeeps.next
    | with_reducible apply OutKeeps.ite | with_reducible apply State.clearMask_keeps | with_reducible apply State.serve_keeps
    | with_reducible apply State.settleProfile_keeps | with_reducible apply Keeps.inMain | with_reducible apply Keeps.ite
    | intro _ _ _ _ _ | intro _ _ _ _ | intro _ _ _ | intro _ _ | split | with_reducible apply Keeps.fields)

theorem State.wrongEntry_keeps {km kf ku : Bool} {s₀ : State} (s : State) (g child : Nat) (hk : Keeps km kf ku s₀ s) :
    Keeps km kf ku s₀ (State.wrongEntry s g child) := by
  unfold State.wrongEntry
  repeat' (
    first
    | with_reducible assumption | with_reducible apply State.detect_keeps | with_reducible apply State.record_keeps
    | with_reducible apply State.toMember_keeps | with_reducible apply State.toMembers_keeps
    | with_reducible apply State.updGl_keeps | with_reducible apply Keeps.ite | intro _ _ _ _ _ | intro _ _ _ _ | intro _ _ _
    | intro _ _ | split | with_reducible apply Keeps.fields)

end Sys2Proof.Machine
end

