-- ==== Sys2Proof/Laws/KeepsRebuild.lean ====
section
/-! SUPPORT. What the operations of Machine/Rebuild.lean keep (the relation Keeps). -/
set_option linter.unusedTactic false
set_option linter.unreachableTactic false
set_option linter.unusedVariables false
namespace Sys2Proof.Machine

theorem State.showGrove_keeps {km kf ku : Bool} {s₀ : State} (s : State) (g st : Nat) (hk : Keeps km kf ku s₀ s) :
    Keeps km kf ku s₀ (State.showGrove s g st) := by
  unfold State.showGrove
  repeat' (
    first
    | with_reducible assumption | with_reducible apply State.refreshVis_keeps | with_reducible apply State.setMstate_keeps
    | with_reducible apply State.wr_keeps | with_reducible apply Keeps.ite | intro _ _ _ _ _ | intro _ _ _ _ | intro _ _ _
    | intro _ _ | split | with_reducible apply Keeps.fields)

theorem State.refreshLeft_keeps {km kf ku : Bool} {s₀ : State} (s : State) (g : Nat) (hk : Keeps km kf ku s₀ s) :
    Keeps km kf ku s₀ (State.refreshLeft s g) := by
  unfold State.refreshLeft
  repeat' (
    first
    | with_reducible assumption | with_reducible apply State.wr_keeps | with_reducible apply Keeps.ite | intro _ _ _ _ _
    | intro _ _ _ _ | intro _ _ _ | intro _ _ | split | with_reducible apply Keeps.fields)

theorem State.endFence_keeps {km kf ku : Bool} {s₀ : State} (s : State) (g : Nat) (hk : Keeps km kf ku s₀ s) :
    Keeps km kf ku s₀ (State.endFence s g) := by
  unfold State.endFence
  repeat' (
    first
    | with_reducible assumption | with_reducible apply State.clearMask_keeps | with_reducible apply Keeps.ite | intro _ _ _ _ _
    | intro _ _ _ _ | intro _ _ _ | intro _ _ | split | with_reducible apply Keeps.fields)

theorem State.takeOver_keeps {km kf ku : Bool} {s₀ : State} (s : State) (g coord : Nat) (t : Takeover) (hk : Keeps km kf ku s₀ s) :
    Keeps km kf ku s₀ (State.takeOver s g coord t) := by
  unfold State.takeOver
  repeat' (
    first
    | with_reducible assumption | with_reducible apply State.endFence_keeps | with_reducible apply State.refreshEras_keeps
    | with_reducible apply State.refreshLeft_keeps | with_reducible apply State.setMask_keeps
    | with_reducible apply Keeps.setReg | with_reducible apply State.showGrove_keeps | with_reducible apply State.toMember_keeps
    | with_reducible apply State.updGl_keeps | with_reducible apply State.validate_keeps | with_reducible apply State.wr_keeps
    | with_reducible apply Keeps.ite | intro _ _ _ _ _ | intro _ _ _ _ | intro _ _ _ | intro _ _ | split
    | with_reducible apply Keeps.fields)

theorem execMapupdate_keeps {kf ku : Bool} (g : GladeId) (lmn pnid seq : Nat) (s : State) :
    OutKeeps true kf ku s (execMapupdate g lmn pnid seq s) := by
  unfold execMapupdate
  repeat' (
    first
    | with_reducible assumption | with_reducible exact Keeps.refl _ | with_reducible apply OutKeeps.next
    | with_reducible apply OutKeeps.ite | with_reducible apply State.applyMap_keeps
    | with_reducible apply State.dropMember_keeps | with_reducible apply State.refreshEras_keeps
    | with_reducible apply State.setMask_keeps | with_reducible apply State.setMstate_keeps
    | with_reducible apply State.settleApply_keeps | with_reducible apply State.settleProfile_keeps
    | with_reducible apply Keeps.inMain | with_reducible apply Keeps.ite | intro _ _ _ _ _ | intro _ _ _ _ | intro _ _ _
    | intro _ _ | split | with_reducible apply Keeps.fields)

theorem execRowRead_keeps {km kf ku : Bool} (g : GladeId) (row line txid : Nat) (encode : Bool) (s : State) :
    OutKeeps km kf ku s (execRowRead g row line txid encode s) := by
  unfold execRowRead
  repeat' (
    first
    | with_reducible assumption | with_reducible exact Keeps.refl _ | with_reducible apply OutKeeps.next
    | with_reducible apply OutKeeps.ite | with_reducible apply State.charge_keeps | with_reducible apply State.send_keeps
    | with_reducible apply Keeps.inMain | with_reducible apply Keeps.ite | intro _ _ _ _ _ | intro _ _ _ _ | intro _ _ _
    | intro _ _ | split | with_reducible apply Keeps.fields)

theorem State.askRow_keeps {km kf ku : Bool} {s₀ : State} (s : State) (g row : Nat) (encode : Bool) (hk : Keeps km kf ku s₀ s) :
    Keeps km kf ku s₀ (State.askRow s g row encode) := by
  unfold State.askRow
  repeat' (
    first
    | with_reducible assumption | with_reducible apply State.toMember_keeps | with_reducible apply Keeps.each
    | with_reducible apply Keeps.ite | intro _ _ _ _ _ | intro _ _ _ _ | intro _ _ _ | intro _ _ | split
    | with_reducible apply Keeps.fields)

theorem State.countEncoded_keeps {km kf ku : Bool} {s₀ : State} (s : State) (g : Nat) (hk : Keeps km kf ku s₀ s) :
    Keeps km kf ku s₀ (State.countEncoded s g) := by
  unfold State.countEncoded
  repeat' (
    first
    | with_reducible assumption | with_reducible apply State.record_keeps | with_reducible apply State.wr_keeps
    | with_reducible apply Keeps.ite | intro _ _ _ _ _ | intro _ _ _ _ | intro _ _ _ | intro _ _ | split
    | with_reducible apply Keeps.fields)

theorem State.rebuilt_keeps {km kf ku : Bool} {s₀ : State} (s : State) (g : Nat) (hk : Keeps km kf ku s₀ s) :
    Keeps km kf ku s₀ (State.rebuilt s g) := by
  unfold State.rebuilt
  repeat' (
    first
    | with_reducible assumption | with_reducible apply State.clearMask_keeps | with_reducible apply State.record_keeps
    | with_reducible apply State.refreshEras_keeps | with_reducible apply State.refreshLeft_keeps
    | with_reducible apply State.setMstate_keeps | with_reducible apply State.toMembers_keeps
    | with_reducible apply State.updGl_keeps | with_reducible apply Keeps.ite | intro _ _ _ _ _ | intro _ _ _ _ | intro _ _ _
    | intro _ _ | split | with_reducible apply Keeps.fields)

theorem State.leafRebuilt_keeps {km kf ku : Bool} {s₀ : State} (s : State) (g : Nat) (hk : Keeps km kf ku s₀ s) :
    Keeps km kf ku s₀ (State.leafRebuilt s g) := by
  unfold State.leafRebuilt
  repeat' (
    first
    | with_reducible assumption | with_reducible apply State.inc_keeps | with_reducible apply State.rebuilt_keeps
    | with_reducible apply Keeps.ite | intro _ _ _ _ _ | intro _ _ _ _ | intro _ _ _ | intro _ _ | split
    | with_reducible apply Keeps.fields)

theorem State.encodeLeaf_keeps {kf ku : Bool} {s₀ : State} (s : State) (g p : Nat) (answers : List RowAnswer) (hk : Keeps true kf ku s₀ s) :
    Keeps true kf ku s₀ (State.encodeLeaf s g p answers) := by
  unfold State.encodeLeaf
  repeat' (
    first
    | with_reducible assumption | with_reducible apply State.countEncoded_keeps | with_reducible apply State.encodeFrom_keeps
    | with_reducible apply State.findDead_keeps | with_reducible apply State.leafRebuilt_keeps
    | with_reducible apply State.takeHeld_keeps | with_reducible apply State.updGl_keeps | with_reducible apply Keeps.ite
    | intro _ _ _ _ _ | intro _ _ _ _ | intro _ _ _ | intro _ _ | split | with_reducible apply Keeps.fields)

theorem State.beginEncode_keeps {km kf ku : Bool} {s₀ : State} (s : State) (g p : Nat) (hk : Keeps km kf ku s₀ s) :
    Keeps km kf ku s₀ (State.beginEncode s g p) := by
  unfold State.beginEncode
  repeat' (
    first
    | with_reducible assumption | with_reducible apply State.askRow_keeps | with_reducible apply State.openContext_keeps
    | with_reducible apply State.updGl_keeps | with_reducible apply Keeps.ite | intro _ _ _ _ _ | intro _ _ _ _ | intro _ _ _
    | intro _ _ | split | with_reducible apply Keeps.fields)

theorem State.beginRebuild_keeps {km kf ku : Bool} {s₀ : State} (s : State) (g q : Nat) (hk : Keeps km kf ku s₀ s) :
    Keeps km kf ku s₀ (State.beginRebuild s g q) := by
  unfold State.beginRebuild
  repeat' (
    first
    | with_reducible assumption | with_reducible apply State.askRow_keeps | with_reducible apply State.openContext_keeps
    | with_reducible apply Keeps.ite | intro _ _ _ _ _ | intro _ _ _ _ | intro _ _ _ | intro _ _ | split
    | with_reducible apply Keeps.fields)

theorem execEncodeParity_keeps {kf ku : Bool} (g : GladeId) (p : Nat) (rows : List RowAnswer) (s : State) :
    OutKeeps true kf ku s (execEncodeParity g p rows s) := by
  unfold execEncodeParity
  repeat' (
    first
    | with_reducible assumption | with_reducible exact Keeps.refl _ | with_reducible apply OutKeeps.next
    | with_reducible apply OutKeeps.ite | with_reducible apply State.beginEncode_keeps
    | with_reducible apply State.closeContext_keeps | with_reducible apply State.encodeLeaf_keeps
    | with_reducible apply Keeps.inMain | with_reducible apply Keeps.ite | intro _ _ _ _ _ | intro _ _ _ _ | intro _ _ _
    | intro _ _ | split | with_reducible apply Keeps.fields)

theorem State.copyBack_keeps {kf ku : Bool} {s₀ : State} (s : State) (g t : Nat) (hk : Keeps true kf ku s₀ s) :
    Keeps true kf ku s₀ (State.copyBack s g t) := by
  unfold State.copyBack
  repeat' (
    first
    | with_reducible assumption | with_reducible apply State.autoInv_keeps | with_reducible apply State.roundAgain_keeps
    | with_reducible apply Keeps.ite | intro _ _ _ _ _ | intro _ _ _ _ | intro _ _ _ | intro _ _ | split
    | with_reducible apply Keeps.fields)

theorem State.fixEntry_keeps {kf ku : Bool} {s₀ : State} (s : State) (g t : Nat) (new : Bool) (ring : Nat) (hk : Keeps true kf ku s₀ s) :
    Keeps true kf ku s₀ (State.fixEntry s g t new ring) := by
  unfold State.fixEntry
  repeat' (
    first
    | with_reducible assumption | with_reducible apply State.countLag_keeps | with_reducible apply State.store_keeps
    | with_reducible apply Keeps.ite | intro _ _ _ _ _ | intro _ _ _ _ | intro _ _ _ | intro _ _ | split
    | with_reducible apply Keeps.fields)

theorem State.fixLedger_keeps {kf ku : Bool} {s₀ : State} (s : State) (g e : Nat) (hk : Keeps true kf ku s₀ s) :
    Keeps true kf ku s₀ (State.fixLedger s g e) := by
  unfold State.fixLedger
  repeat' (
    first
    | with_reducible assumption | with_reducible apply State.encodeAgain_keeps | with_reducible apply State.fixEntry_keeps
    | with_reducible apply State.updGl_keeps | with_reducible apply Keeps.each | with_reducible apply Keeps.ite
    | intro _ _ _ _ _ | intro _ _ _ _ | intro _ _ _ | intro _ _ | split | with_reducible apply Keeps.fields)

theorem State.afterLeaf_keeps {kf ku : Bool} {s₀ : State} (s : State) (g q : Nat) (hk : Keeps true kf ku s₀ s) :
    Keeps true kf ku s₀ (State.afterLeaf s g q) := by
  unfold State.afterLeaf
  repeat' (
    first
    | with_reducible assumption | with_reducible apply State.copyBack_keeps | with_reducible apply State.fixLedger_keeps
    | with_reducible apply Keeps.each | with_reducible apply Keeps.ite | intro _ _ _ _ _ | intro _ _ _ _ | intro _ _ _
    | intro _ _ | split | with_reducible apply Keeps.fields)

theorem State.rebuildData_keeps {kf ku : Bool} {s₀ : State} (s : State) (g q : Nat) (answers : List RowAnswer) (hk : Keeps true kf ku s₀ s) :
    Keeps true kf ku s₀ (State.rebuildData s g q answers) := by
  unfold State.rebuildData
  repeat' (
    first
    | with_reducible assumption | with_reducible apply State.afterLeaf_keeps | with_reducible apply State.charge_keeps
    | with_reducible apply State.countGf_keeps | with_reducible apply State.findDead_keeps
    | with_reducible apply State.leafRebuilt_keeps | with_reducible apply State.leafThere_keeps
    | with_reducible apply State.settleApply_keeps | with_reducible apply State.store_keeps | with_reducible apply Keeps.ite
    | intro _ _ _ _ _ | intro _ _ _ _ | intro _ _ _ | intro _ _ | split | with_reducible apply Keeps.fields)

theorem execRebuildLeaf_keeps {kf ku : Bool} (g : GladeId) (parity : Bool) (index : Nat) (rows : List RowAnswer) (s : State) :
    OutKeeps true kf ku s (execRebuildLeaf g parity index rows s) := by
  unfold execRebuildLeaf
  repeat' (
    first
    | with_reducible assumption | with_reducible exact Keeps.refl _ | with_reducible apply OutKeeps.next
    | with_reducible apply OutKeeps.ite | with_reducible apply State.beginEncode_keeps
    | with_reducible apply State.beginRebuild_keeps | with_reducible apply State.closeContext_keeps
    | with_reducible apply State.encodeLeaf_keeps | with_reducible apply State.rebuildData_keeps
    | with_reducible apply Keeps.inMain | with_reducible apply Keeps.ite | intro _ _ _ _ _ | intro _ _ _ _ | intro _ _ _
    | intro _ _ | split | with_reducible apply Keeps.fields)

theorem State.clearAnswer_keeps {km kf ku : Bool} {s₀ : State} (s : State) (g txid : Nat) (r : Option (List Byte)) (code : Nat) (hk : Keeps km kf ku s₀ s) :
    Keeps km kf ku s₀ (State.clearAnswer s g txid r code) := by
  unfold State.clearAnswer
  repeat' (
    first
    | with_reducible assumption | with_reducible apply State.inc_keeps | with_reducible apply State.send_keeps
    | with_reducible apply Keeps.ite | intro _ _ _ _ _ | intro _ _ _ _ | intro _ _ _ | intro _ _ | split
    | with_reducible apply Keeps.fields)

theorem State.clearCopy_keeps {kf ku : Bool} {s₀ : State} (s : State) (g lmn o : Nat) (lines : List (List Byte)) (hk : Keeps true kf ku s₀ s) :
    Keeps true kf ku s₀ (State.clearCopy s g lmn o lines).2 := by
  unfold State.clearCopy
  try dsimp only
  repeat' (
    first
    | with_reducible assumption | with_reducible apply State.autoInv_keeps | with_reducible apply State.store_keeps
    | with_reducible apply Keeps.ite | intro _ _ _ _ _ | intro _ _ _ _ | intro _ _ _ | intro _ _ | split
    | with_reducible apply Keeps.fields)

theorem State.clearServe_keeps {kf ku : Bool} {s₀ : State} (s : State) (g lmn o txid : Nat) (lines : List (List Byte)) (hk : Keeps true kf ku s₀ s) :
    Keeps true kf ku s₀ (State.clearServe s g lmn o txid lines) := by
  unfold State.clearServe
  repeat' (
    first
    | with_reducible assumption | with_reducible apply State.clearAnswer_keeps | with_reducible apply State.clearCopy_keeps
    | with_reducible apply Keeps.ite | intro _ _ _ _ _ | intro _ _ _ _ | intro _ _ _ | intro _ _ | split
    | with_reducible apply Keeps.fields)

theorem State.addUnits_keeps {km kf ku : Bool} {s₀ : State} (s : State) (g lmn o txid t : Nat) (l : List ((Nat × Nat) × List RowAnswer)) (hk : Keeps km kf ku s₀ s) :
    Keeps km kf ku s₀ (State.addUnits s g lmn o txid t l) := by
  unfold State.addUnits
  repeat' (
    first
    | with_reducible assumption | with_reducible apply State.askLine_keeps | with_reducible apply State.openContext_keeps
    | with_reducible apply State.updGl_keeps | with_reducible apply Keeps.each | with_reducible apply Keeps.ite
    | intro _ _ _ _ _ | intro _ _ _ _ | intro _ _ _ | intro _ _ | split | with_reducible apply Keeps.fields)

theorem State.clearRead_keeps {kf ku : Bool} {s₀ : State} (s : State) (g lmn o txid : Nat) (rows : List (List RowAnswer)) (hk : Keeps true kf ku s₀ s) :
    Keeps true kf ku s₀ (State.clearRead s g lmn o txid rows) := by
  unfold State.clearRead
  repeat' (
    first
    | with_reducible assumption | with_reducible apply State.addUnits_keeps | with_reducible apply State.clearAnswer_keeps
    | with_reducible apply State.clearServe_keeps | with_reducible apply State.findDead_keeps
    | with_reducible apply State.wantLeaves_keeps | with_reducible apply Keeps.ite | intro _ _ _ _ _ | intro _ _ _ _
    | intro _ _ _ | intro _ _ | split | with_reducible apply Keeps.fields)

theorem State.readShard_keeps {kf ku : Bool} {s₀ : State} (s : State) (g lmn o txid : Nat) (rows : List (List RowAnswer))
    (ordinary : State) (hk : Keeps true kf ku s₀ s) (ho : Keeps true kf ku s₀ ordinary) :
    Keeps true kf ku s₀ (State.readShard s g lmn o txid rows ordinary) := by
  unfold State.readShard
  repeat' (
    first
    | with_reducible assumption | with_reducible apply State.clearRead_keeps | with_reducible apply State.clearAnswer_keeps
    | with_reducible apply State.updGl_keeps | with_reducible apply Keeps.ite | intro _ _ _ | intro _ _ | split)

theorem execClearingRead_keeps {kf ku : Bool} (g : GladeId) (lmn offset txid : Nat) (rows : List (List RowAnswer)) (s : State) :
    OutKeeps true kf ku s (execClearingRead g lmn offset txid rows s) := by
  unfold execClearingRead
  repeat' (
    first
    | with_reducible assumption | with_reducible exact Keeps.refl _ | with_reducible apply OutKeeps.next
    | with_reducible apply OutKeeps.ite | with_reducible apply State.readShard_keeps | with_reducible apply State.send_keeps
    | with_reducible apply Keeps.inMain | with_reducible apply Keeps.ite | intro _ _ _ _ _ | intro _ _ _ _ | intro _ _ _
    | intro _ _ | split | with_reducible apply Keeps.fields)

theorem execClearingStart_keeps {kf ku : Bool} (g : GladeId) (s : State) : OutKeeps true kf ku s (execClearingStart g s) := by
  unfold execClearingStart
  repeat' (
    first
    | with_reducible assumption | with_reducible exact Keeps.refl _ | with_reducible apply OutKeeps.next
    | with_reducible apply OutKeeps.ite | with_reducible apply State.readShard_keeps | with_reducible apply State.setMask_keeps
    | with_reducible apply State.settleProfile_keeps | with_reducible apply State.updGl_keeps | with_reducible apply Keeps.each
    | with_reducible apply Keeps.inMain | with_reducible apply Keeps.ite | intro _ _ _ _ _ | intro _ _ _ _ | intro _ _ _
    | intro _ _ | split | with_reducible apply Keeps.fields)

theorem State.noteWait_keeps {km kf ku : Bool} {s₀ : State} (s : State) (began : Nat) (hk : Keeps km kf ku s₀ s) :
    Keeps km kf ku s₀ (State.noteWait s began) := by
  unfold State.noteWait
  repeat' (
    first
    | with_reducible assumption | with_reducible apply State.raise_keeps | with_reducible apply Keeps.ite | intro _ _ _ _ _
    | intro _ _ _ _ | intro _ _ _ | intro _ _ | split | with_reducible apply Keeps.fields)

theorem State.dropRead_keeps {km kf ku : Bool} {s₀ : State} (s : State) (g : Nat) (u : ReadUnit) (hk : Keeps km kf ku s₀ s) :
    Keeps km kf ku s₀ (State.dropRead s g u) := by
  unfold State.dropRead
  repeat' (
    first
    | with_reducible assumption | with_reducible apply State.closeContext_keeps | with_reducible apply State.updGl_keeps
    | with_reducible apply Keeps.each | with_reducible apply Keeps.ite | intro _ _ _ _ _ | intro _ _ _ _ | intro _ _ _
    | intro _ _ | split | with_reducible apply Keeps.fields)

theorem State.clearSettle_keeps {kf ku : Bool} {s₀ : State} (s : State) (g : Nat) (u : ReadUnit) (hk : Keeps true kf ku s₀ s) :
    Keeps true kf ku s₀ (State.clearSettle s g u) := by
  unfold State.clearSettle
  repeat' (
    first
    | with_reducible assumption | with_reducible apply State.clearAnswer_keeps | with_reducible apply State.clearServe_keeps
    | with_reducible apply State.dropRead_keeps | with_reducible apply State.findDead_keeps
    | with_reducible apply State.noteWait_keeps | with_reducible apply Keeps.ite | intro _ _ _ _ _ | intro _ _ _ _ | intro _ _ _
    | intro _ _ | split | with_reducible apply Keeps.fields)

theorem execRowReadAnswer_keeps {kf ku : Bool} (g : GladeId) (unit : Nat) (a : RowAnswer) (s : State) :
    OutKeeps true kf ku s (execRowReadAnswer g unit a s) := by
  unfold execRowReadAnswer
  repeat' (
    first
    | with_reducible assumption | with_reducible exact Keeps.refl _ | with_reducible apply OutKeeps.next
    | with_reducible apply OutKeeps.ite | with_reducible apply State.clearSettle_keeps
    | with_reducible apply State.refreshEras_keeps | with_reducible apply State.updGl_keeps | with_reducible apply Keeps.inMain
    | with_reducible apply Keeps.ite | intro _ _ _ _ _ | intro _ _ _ _ | intro _ _ _ | intro _ _ | split
    | with_reducible apply Keeps.fields)

theorem execReconcileScan_keeps {km kf ku : Bool} (g : GladeId) (slot : Nat) (s : State) :
    OutKeeps km kf ku s (execReconcileScan g slot s) := by
  unfold execReconcileScan
  repeat' (
    first
    | with_reducible assumption | with_reducible exact Keeps.refl _ | with_reducible apply OutKeeps.next
    | with_reducible apply OutKeeps.ite | with_reducible apply State.charge_keeps | with_reducible apply State.toMember_keeps
    | with_reducible apply Keeps.inMain | with_reducible apply Keeps.ite | intro _ _ _ _ _ | intro _ _ _ _ | intro _ _ _
    | intro _ _ | split | with_reducible apply Keeps.fields)

theorem State.settleBlock_keeps {km kf ku : Bool} {s₀ : State} (s : State) (g t : Nat) (r : StandIn) (hk : Keeps km kf ku s₀ s) :
    Keeps km kf ku s₀ (State.settleBlock s g t r) := by
  unfold State.settleBlock
  repeat' (
    first
    | with_reducible assumption | with_reducible apply State.record_keeps | with_reducible apply State.updGl_keeps
    | with_reducible apply State.wr_keeps | with_reducible apply Keeps.ite | intro _ _ _ _ _ | intro _ _ _ _ | intro _ _ _
    | intro _ _ | split | with_reducible apply Keeps.fields)

theorem State.reconcile_keeps {kf ku : Bool} {s₀ : State} (s : State) (g : Nat) (hk : Keeps true kf ku s₀ s) :
    Keeps true kf ku s₀ (State.reconcile s g) := by
  unfold State.reconcile
  repeat' (
    first
    | with_reducible assumption | with_reducible apply State.fixLedger_keeps | with_reducible apply State.settleBlock_keeps
    | with_reducible apply State.updGl_keeps | with_reducible apply Keeps.each | with_reducible apply Keeps.ite
    | intro _ _ _ _ _ | intro _ _ _ _ | intro _ _ _ | intro _ _ | split | with_reducible apply Keeps.fields)

theorem execReconcileReport_keeps {kf ku : Bool} (g : GladeId) (holder : Nat) (rows : List Nat) (s : State) :
    OutKeeps true kf ku s (execReconcileReport g holder rows s) := by
  unfold execReconcileReport
  repeat' (
    first
    | with_reducible assumption | with_reducible exact Keeps.refl _ | with_reducible apply OutKeeps.next
    | with_reducible apply OutKeeps.ite | with_reducible apply State.reconcile_keeps | with_reducible apply State.updGl_keeps
    | with_reducible apply Keeps.inMain | with_reducible apply Keeps.ite | intro _ _ _ _ _ | intro _ _ _ _ | intro _ _ _
    | intro _ _ | split | with_reducible apply Keeps.fields)

theorem execReconcileTimeout_keeps {kf ku : Bool} (g : GladeId) (holder : Nat) (s : State) :
    OutKeeps true kf ku s (execReconcileTimeout g holder s) := by
  unfold execReconcileTimeout
  repeat' (
    first
    | with_reducible assumption | with_reducible exact Keeps.refl _ | with_reducible apply OutKeeps.next
    | with_reducible apply OutKeeps.ite | with_reducible apply State.reconcile_keeps | with_reducible apply State.updGl_keeps
    | with_reducible apply Keeps.inMain | with_reducible apply Keeps.ite | intro _ _ _ _ _ | intro _ _ _ _ | intro _ _ _
    | intro _ _ | split | with_reducible apply Keeps.fields)

theorem execDeadfallNotice_keeps {kf ku : Bool} (g : GladeId) (row : Nat) (s : State) :
    OutKeeps true kf ku s (execDeadfallNotice g row s) := by
  unfold execDeadfallNotice
  repeat' (
    first
    | with_reducible assumption | with_reducible exact Keeps.refl _ | with_reducible apply OutKeeps.next
    | with_reducible apply OutKeeps.ite | with_reducible apply State.countDead_keeps | with_reducible apply Keeps.inMain
    | with_reducible apply Keeps.ite | intro _ _ _ _ _ | intro _ _ _ _ | intro _ _ _ | intro _ _ | split
    | with_reducible apply Keeps.fields)

end Sys2Proof.Machine
end

