-- ==== Sys2Proof/Laws/KeepsCoppice.lean ====
section
/-! SUPPORT. What the operations of Machine/Coppice.lean keep (the relation Keeps). -/
set_option linter.unusedTactic false
set_option linter.unreachableTactic false
set_option linter.unusedVariables false
namespace Sys2Proof.Machine

theorem State.refusePlan_keeps {km kf ku : Bool} {s₀ : State} (s : State) (g err : Nat) (hk : Keeps km kf ku s₀ s) :
    Keeps km kf ku s₀ (State.refusePlan s g err) := by
  unfold State.refusePlan
  repeat' (
    first
    | with_reducible assumption | with_reducible apply State.record_keeps | with_reducible apply State.wr_keeps
    | with_reducible apply Keeps.ite | intro _ _ _ _ _ | intro _ _ _ _ | intro _ _ _ | intro _ _ | split
    | with_reducible apply Keeps.fields)

theorem State.planLoad_keeps {kf ku : Bool} {s₀ : State} (s : State) (g : Nat) (hk : Keeps true kf ku s₀ s) :
    Keeps true kf ku s₀ (State.planLoad s g) := by
  unfold State.planLoad
  repeat' (
    first
    | with_reducible assumption | with_reducible apply State.readCheck_keeps | with_reducible apply State.refusePlan_keeps
    | with_reducible apply Keeps.setReg | with_reducible apply State.updGl_keeps | with_reducible apply State.wr_keeps
    | with_reducible apply Keeps.ite | intro _ _ _ _ _ | intro _ _ _ _ | intro _ _ _ | intro _ _ | split
    | with_reducible apply Keeps.fields)

theorem execPlanLoad_keeps {kf ku : Bool} (g : GladeId) (s : State) : OutKeeps true kf ku s (execPlanLoad g s) := by
  unfold execPlanLoad
  repeat' (
    first
    | with_reducible assumption | with_reducible exact Keeps.refl _ | with_reducible apply OutKeeps.next
    | with_reducible apply OutKeeps.ite | with_reducible apply State.planLoad_keeps | with_reducible apply Keeps.inMain
    | with_reducible apply Keeps.ite | intro _ _ _ _ _ | intro _ _ _ _ | intro _ _ _ | intro _ _ | split
    | with_reducible apply Keeps.fields)

theorem State.planAbort_keeps {km kf ku : Bool} {s₀ : State} (s : State) (g : Nat) (hk : Keeps km kf ku s₀ s) :
    Keeps km kf ku s₀ (State.planAbort s g) := by
  unfold State.planAbort
  repeat' (
    first
    | with_reducible assumption | with_reducible apply State.refusePlan_keeps | with_reducible apply State.toMember_keeps
    | with_reducible apply State.updGl_keeps | with_reducible apply Keeps.ite | intro _ _ _ _ _ | intro _ _ _ _ | intro _ _ _
    | intro _ _ | split | with_reducible apply Keeps.fields)

theorem execPlanAbort_keeps {km kf ku : Bool} (g : GladeId) (s : State) : OutKeeps km kf ku s (execPlanAbort g s) := by
  unfold execPlanAbort
  repeat' (
    first
    | with_reducible assumption | with_reducible exact Keeps.refl _ | with_reducible apply OutKeeps.next
    | with_reducible apply OutKeeps.ite | with_reducible apply State.planAbort_keeps | with_reducible apply Keeps.inMain
    | with_reducible apply Keeps.ite | intro _ _ _ _ _ | intro _ _ _ _ | intro _ _ _ | intro _ _ | split
    | with_reducible apply Keeps.fields)

theorem State.placeNext_keeps {kf ku : Bool} {s₀ : State} (s : State) (g l b : Nat) (bytes : List Byte) (hk : Keeps true kf ku s₀ s) :
    Keeps true kf ku s₀ (State.placeNext s g l b bytes) := by
  unfold State.placeNext
  repeat' (
    first
    | with_reducible assumption | with_reducible apply State.charge_keeps | with_reducible apply State.nextRound_keeps
    | with_reducible apply State.store_keeps | with_reducible apply Keeps.each | with_reducible apply Keeps.ite
    | intro _ _ _ _ _ | intro _ _ _ _ | intro _ _ _ | intro _ _ | split | with_reducible apply Keeps.fields)

theorem State.blockHere_keeps {km kf ku : Bool} {s₀ : State} (s : State) (g : Nat) (hk : Keeps km kf ku s₀ s) :
    Keeps km kf ku s₀ (State.blockHere s g) := by
  unfold State.blockHere
  repeat' (
    first
    | with_reducible assumption | with_reducible apply State.wr_keeps | with_reducible apply Keeps.ite | intro _ _ _ _ _
    | intro _ _ _ _ | intro _ _ _ | intro _ _ | split | with_reducible apply Keeps.fields)

theorem State.copyBlock_keeps {kf ku : Bool} {s₀ : State} (s : State) (g t : Nat) (hk : Keeps true kf ku s₀ s) :
    Keeps true kf ku s₀ (State.copyBlock s g t) := by
  unfold State.copyBlock
  repeat' (
    first
    | with_reducible assumption | with_reducible apply State.blockHere_keeps | with_reducible apply State.charge_keeps
    | with_reducible apply State.placeNext_keeps | with_reducible apply State.sendLmn_keeps
    | with_reducible apply State.updGl_keeps | with_reducible apply State.wantLeaves_keeps | with_reducible apply Keeps.ite
    | intro _ _ _ _ _ | intro _ _ _ _ | intro _ _ _ | intro _ _ | split | with_reducible apply Keeps.fields)

theorem execBlockCopy_keeps {kf ku : Bool} (g : GladeId) (t : Nat) (s : State) :
    OutKeeps true kf ku s (execBlockCopy g t s) := by
  unfold execBlockCopy
  repeat' (
    first
    | with_reducible assumption | with_reducible exact Keeps.refl _ | with_reducible apply OutKeeps.next
    | with_reducible apply OutKeeps.ite | with_reducible apply State.copyBlock_keeps | with_reducible apply Keeps.inMain
    | with_reducible apply Keeps.ite | intro _ _ _ _ _ | intro _ _ _ _ | intro _ _ _ | intro _ _ | split
    | with_reducible apply Keeps.fields)

theorem State.copyArrive_keeps {kf ku : Bool} {s₀ : State} (s : State) (g sender l b : Nat) (bytes : List Byte) (hk : Keeps true kf ku s₀ s) :
    Keeps true kf ku s₀ (State.copyArrive s g sender l b bytes) := by
  unfold State.copyArrive
  repeat' (
    first
    | with_reducible assumption | with_reducible apply State.blockHere_keeps | with_reducible apply State.placeNext_keeps
    | with_reducible apply State.toMember_keeps | with_reducible apply State.updGl_keeps | with_reducible apply Keeps.ite
    | intro _ _ _ _ _ | intro _ _ _ _ | intro _ _ _ | intro _ _ | split | with_reducible apply Keeps.fields)

theorem execCopyArrival_keeps {kf ku : Bool} (g : GladeId) (sender layer block : Nat) (bytes : List Byte) (s : State) :
    OutKeeps true kf ku s (execCopyArrival g sender layer block bytes s) := by
  unfold execCopyArrival
  repeat' (
    first
    | with_reducible assumption | with_reducible exact Keeps.refl _ | with_reducible apply OutKeeps.next
    | with_reducible apply OutKeeps.ite | with_reducible apply State.copyArrive_keeps | with_reducible apply Keeps.inMain
    | with_reducible apply Keeps.ite | intro _ _ _ _ _ | intro _ _ _ _ | intro _ _ _ | intro _ _ | split
    | with_reducible apply Keeps.fields)

theorem State.copyAck_keeps {kf ku : Bool} {s₀ : State} (s : State) (g sender l b kind : Nat) (hk : Keeps true kf ku s₀ s) :
    Keeps true kf ku s₀ (State.copyAck s g sender l b kind) := by
  unfold State.copyAck
  repeat' (
    first
    | with_reducible assumption | with_reducible apply State.settleApply_keeps | with_reducible apply State.updGl_keeps
    | with_reducible apply Keeps.ite | intro _ _ _ _ _ | intro _ _ _ _ | intro _ _ _ | intro _ _ | split
    | with_reducible apply Keeps.fields)

theorem execCopyAck_keeps {kf ku : Bool} (g : GladeId) (sender layer block kind : Nat) (s : State) :
    OutKeeps true kf ku s (execCopyAck g sender layer block kind s) := by
  unfold execCopyAck
  repeat' (
    first
    | with_reducible assumption | with_reducible exact Keeps.refl _ | with_reducible apply OutKeeps.next
    | with_reducible apply OutKeeps.ite | with_reducible apply State.copyAck_keeps | with_reducible apply Keeps.inMain
    | with_reducible apply Keeps.ite | intro _ _ _ _ _ | intro _ _ _ _ | intro _ _ _ | intro _ _ | split
    | with_reducible apply Keeps.fields)

theorem State.shadowArrive_keeps {kf ku : Bool} {s₀ : State} (s : State) (g sender l b : Nat) (bytes : List Byte) (hk : Keeps true kf ku s₀ s) :
    Keeps true kf ku s₀ (State.shadowArrive s g sender l b bytes) := by
  unfold State.shadowArrive
  repeat' (
    first
    | with_reducible assumption | with_reducible apply State.nextChange_keeps | with_reducible apply State.settleShadows_keeps
    | with_reducible apply State.updGl_keeps | with_reducible apply Keeps.ite | intro _ _ _ _ _ | intro _ _ _ _ | intro _ _ _
    | intro _ _ | split | with_reducible apply Keeps.fields)

theorem execShadow_keeps {kf ku : Bool} (g : GladeId) (sender layer block : Nat) (bytes : List Byte) (s : State) :
    OutKeeps true kf ku s (execShadow g sender layer block bytes s) := by
  unfold execShadow
  repeat' (
    first
    | with_reducible assumption | with_reducible exact Keeps.refl _ | with_reducible apply OutKeeps.next
    | with_reducible apply OutKeeps.ite | with_reducible apply State.shadowArrive_keeps | with_reducible apply Keeps.inMain
    | with_reducible apply Keeps.ite | intro _ _ _ _ _ | intro _ _ _ _ | intro _ _ _ | intro _ _ | split
    | with_reducible apply Keeps.fields)

theorem execShadowEnd_keeps {kf ku : Bool} (g : GladeId) (sender : Nat) (s : State) :
    OutKeeps true kf ku s (execShadowEnd g sender s) := by
  unfold execShadowEnd
  repeat' (
    first
    | with_reducible assumption | with_reducible exact Keeps.refl _ | with_reducible apply OutKeeps.next
    | with_reducible apply OutKeeps.ite | with_reducible apply State.settleApply_keeps | with_reducible apply State.updGl_keeps
    | with_reducible apply Keeps.inMain | with_reducible apply Keeps.ite | intro _ _ _ _ _ | intro _ _ _ _ | intro _ _ _
    | intro _ _ | split | with_reducible apply Keeps.fields)

theorem State.askNext_keeps {km kf ku : Bool} {s₀ : State} (s : State) (g row : Nat) (hk : Keeps km kf ku s₀ s) :
    Keeps km kf ku s₀ (State.askNext s g row) := by
  unfold State.askNext
  repeat' (
    first
    | with_reducible assumption | with_reducible apply State.sendLmn_keeps | with_reducible apply Keeps.each
    | with_reducible apply Keeps.ite | intro _ _ _ _ _ | intro _ _ _ _ | intro _ _ _ | intro _ _ | split
    | with_reducible apply Keeps.fields)

theorem State.buildNext_keeps {kf ku : Bool} {s₀ : State} (s : State) (g p : Nat) (answers : List RowAnswer) (hk : Keeps true kf ku s₀ s) :
    Keeps true kf ku s₀ (State.buildNext s g p answers) := by
  unfold State.buildNext
  repeat' (
    first
    | with_reducible assumption | with_reducible apply State.askNext_keeps | with_reducible apply State.charge_keeps
    | with_reducible apply State.closeContext_keeps | with_reducible apply State.countGf_keeps
    | with_reducible apply State.dropFold_keeps | with_reducible apply State.openContext_keeps
    | with_reducible apply State.store_keeps | with_reducible apply State.takeHeld_keeps
    | with_reducible apply State.updGl_keeps | with_reducible apply State.wr_keeps | with_reducible apply Keeps.ite
    | intro _ _ _ _ _ | intro _ _ _ _ | intro _ _ _ | intro _ _ | split | with_reducible apply Keeps.fields)

theorem execNextParityBuild_keeps {kf ku : Bool} (g : GladeId) (p : Nat) (rows : List RowAnswer) (s : State) :
    OutKeeps true kf ku s (execNextParityBuild g p rows s) := by
  unfold execNextParityBuild
  repeat' (
    first
    | with_reducible assumption | with_reducible exact Keeps.refl _ | with_reducible apply OutKeeps.next
    | with_reducible apply OutKeeps.ite | with_reducible apply State.buildNext_keeps | with_reducible apply Keeps.inMain
    | with_reducible apply Keeps.ite | intro _ _ _ _ _ | intro _ _ _ _ | intro _ _ _ | intro _ _ | split
    | with_reducible apply Keeps.fields)

theorem State.replaceSapling_keeps {km kf ku : Bool} {s₀ : State} (s : State) (g lmn : Nat) (p : Plan) (hk : Keeps km kf ku s₀ s) :
    Keeps km kf ku s₀ (State.replaceSapling s g lmn p) := by
  unfold State.replaceSapling
  repeat' (
    first
    | with_reducible assumption | with_reducible apply State.nextLmnLost_keeps | with_reducible apply State.toAll_keeps
    | with_reducible apply State.updGl_keeps | with_reducible apply Keeps.ite | intro _ _ _ _ _ | intro _ _ _ _ | intro _ _ _
    | intro _ _ | split | with_reducible apply Keeps.fields)

theorem execSaplingProbe_keeps {km kf ku : Bool} (g : GladeId) (lmn : Nat) (answered ready : Bool) (s : State) :
    OutKeeps km kf ku s (execSaplingProbe g lmn answered ready s) := by
  unfold execSaplingProbe
  repeat' (
    first
    | with_reducible assumption | with_reducible exact Keeps.refl _ | with_reducible apply OutKeeps.next
    | with_reducible apply OutKeeps.ite | with_reducible apply State.replaceSapling_keeps
    | with_reducible apply State.updGl_keeps | with_reducible apply Keeps.inMain | with_reducible apply Keeps.ite
    | intro _ _ _ _ _ | intro _ _ _ _ | intro _ _ _ | intro _ _ | split | with_reducible apply Keeps.fields)

theorem State.planOpen_keeps {km kf ku : Bool} {s₀ : State} (s : State) (g : Nat) (hk : Keeps km kf ku s₀ s) :
    Keeps km kf ku s₀ (State.planOpen s g) := by
  unfold State.planOpen
  repeat' (
    first
    | with_reducible assumption | with_reducible apply Keeps.setReg | with_reducible apply State.updGl_keeps
    | with_reducible apply State.wr_keeps | with_reducible apply Keeps.each | with_reducible apply Keeps.ite | intro _ _ _ _ _
    | intro _ _ _ _ | intro _ _ _ | intro _ _ | split | with_reducible apply Keeps.fields)

theorem State.takePlan_keeps {km kf ku : Bool} {s₀ : State} (s : State) (g lmn : Nat) (p : Plan) (hk : Keeps km kf ku s₀ s) :
    Keeps km kf ku s₀ (State.takePlan s g lmn p) := by
  unfold State.takePlan
  repeat' (
    first
    | with_reducible assumption | with_reducible apply State.planOpen_keeps | with_reducible apply Keeps.setReg
    | with_reducible apply State.updGl_keeps | with_reducible apply State.wr_keeps | with_reducible apply Keeps.ite
    | intro _ _ _ _ _ | intro _ _ _ _ | intro _ _ _ | intro _ _ | split | with_reducible apply Keeps.fields)

theorem State.planDone_keeps {km kf ku : Bool} {s₀ : State} (s : State) (g st : Nat) (hk : Keeps km kf ku s₀ s) :
    Keeps km kf ku s₀ (State.planDone s g st) := by
  unfold State.planDone
  repeat' (
    first
    | with_reducible assumption | with_reducible apply State.resetReg_keeps | with_reducible apply State.updGl_keeps
    | with_reducible apply State.wr_keeps | with_reducible apply Keeps.ite | intro _ _ _ _ _ | intro _ _ _ _ | intro _ _ _
    | intro _ _ | split | with_reducible apply Keeps.fields)

theorem State.leaveGrove_keeps {kf ku : Bool} {s₀ : State} (s : State) (g : Nat) (hk : Keeps true kf ku s₀ s) :
    Keeps true kf ku s₀ (State.leaveGrove s g) := by
  unfold State.leaveGrove
  repeat' (
    first
    | with_reducible assumption | with_reducible apply State.setHold_keeps | with_reducible apply State.setMstate_keeps
    | with_reducible apply State.sweepPartial_keeps | with_reducible apply State.updGl_keeps
    | with_reducible apply State.wr_keeps | with_reducible apply Keeps.ite | intro _ _ _ _ _ | intro _ _ _ _ | intro _ _ _
    | intro _ _ | split | with_reducible apply Keeps.fields)

theorem State.nextMap_keeps {km kf ku : Bool} {s₀ : State} (s : State) (g : Nat) (p : Plan) (old : Nat) (hk : Keeps km kf ku s₀ s) :
    Keeps km kf ku s₀ (State.nextMap s g p old) := by
  unfold State.nextMap
  repeat' (
    first
    | with_reducible assumption | with_reducible apply State.setMapEntry_keeps | with_reducible apply State.wr_keeps
    | with_reducible apply Keeps.each | with_reducible apply Keeps.ite | intro _ _ _ _ _ | intro _ _ _ _ | intro _ _ _
    | intro _ _ | split | with_reducible apply Keeps.fields)

theorem State.nextRegs_keeps {km kf ku : Bool} {s₀ : State} (s : State) (g : Nat) (p : Plan) (i : Nat) (hk : Keeps km kf ku s₀ s) :
    Keeps km kf ku s₀ (State.nextRegs s g p i) := by
  unfold State.nextRegs
  repeat' (
    first
    | with_reducible assumption | with_reducible apply Keeps.setReg | with_reducible apply State.wr_keeps
    | with_reducible apply Keeps.each | with_reducible apply Keeps.ite | intro _ _ _ _ _ | intro _ _ _ _ | intro _ _ _
    | intro _ _ | split | with_reducible apply Keeps.fields)

theorem State.turnFrames_keeps {km kf ku : Bool} {s₀ : State} (s : State) (g : Nat) (hk : Keeps km kf ku s₀ s) :
    Keeps km kf ku s₀ (State.turnFrames s g) := by
  unfold State.turnFrames
  repeat' (
    first
    | with_reducible assumption | with_reducible apply Keeps.ite | intro _ _ _ _ _ | intro _ _ _ _ | intro _ _ _ | intro _ _
    | split | with_reducible apply Keeps.fields)

theorem State.auditSwitch_keeps {km kf ku : Bool} {s₀ : State} (s : State) (g : Nat) (hk : Keeps km kf ku s₀ s) :
    Keeps km kf ku s₀ (State.auditSwitch s g) := by
  unfold State.auditSwitch
  repeat' (
    first
    | with_reducible assumption | with_reducible apply State.auditEnd_keeps | with_reducible apply Keeps.ite | intro _ _ _ _ _
    | intro _ _ _ _ | intro _ _ _ | intro _ _ | split | with_reducible apply Keeps.fields)

theorem State.dropOldShape_keeps {km kf ku : Bool} {s₀ : State} (s : State) (g : Nat) (same : Bool) (hk : Keeps km kf ku s₀ s) :
    Keeps km kf ku s₀ (State.dropOldShape s g same) := by
  unfold State.dropOldShape
  repeat' (
    first
    | with_reducible assumption | with_reducible apply State.resetReg_keeps | with_reducible apply State.turnFrames_keeps
    | with_reducible apply State.updGl_keeps | with_reducible apply State.wr_keeps | with_reducible apply Keeps.ite
    | intro _ _ _ _ _ | intro _ _ _ _ | intro _ _ _ | intro _ _ | split | with_reducible apply Keeps.fields)

theorem State.resize_keeps {kf ku : Bool} {s₀ : State} (s : State) (g : Nat) (moved : Bool) (hk : Keeps true kf ku s₀ s) :
    Keeps true kf ku s₀ (State.resize s g moved) := by
  unfold State.resize
  repeat' (
    first
    | with_reducible assumption | with_reducible apply State.wr_keeps | with_reducible apply State.zeroBuffers_keeps
    | with_reducible apply Keeps.ite | intro _ _ _ _ _ | intro _ _ _ _ | intro _ _ _ | intro _ _ | split
    | with_reducible apply Keeps.fields)

theorem State.planSwitch_keeps {kf ku : Bool} {s₀ : State} (s : State) (g ring : Nat) (hk : Keeps true kf ku s₀ s) :
    Keeps true kf ku s₀ (State.planSwitch s g ring) := by
  unfold State.planSwitch
  repeat' (
    first
    | with_reducible assumption | with_reducible apply State.auditSwitch_keeps | with_reducible apply State.dropOldShape_keeps
    | with_reducible apply State.endFence_keeps | with_reducible apply State.leaveGrove_keeps
    | with_reducible apply State.nextMap_keeps | with_reducible apply State.nextRegs_keeps
    | with_reducible apply State.planDone_keeps | with_reducible apply State.resize_keeps | with_reducible apply Keeps.setReg
    | with_reducible apply State.showGrove_keeps | with_reducible apply State.store_keeps
    | with_reducible apply State.sweepPartial_keeps | with_reducible apply State.turnFrames_keeps
    | with_reducible apply State.updGl_keeps | with_reducible apply State.validate_keeps | with_reducible apply State.wr_keeps
    | with_reducible apply Keeps.ite | intro _ _ _ _ _ | intro _ _ _ _ | intro _ _ _ | intro _ _ | split
    | with_reducible apply Keeps.fields)

theorem State.planFill_keeps {km kf ku : Bool} {s₀ : State} (s : State) (g : Nat) (hk : Keeps km kf ku s₀ s) :
    Keeps km kf ku s₀ (State.planFill s g) := by
  unfold State.planFill
  repeat' (
    first
    | with_reducible assumption | with_reducible apply State.planDone_keeps | with_reducible apply State.sendTakeover_keeps
    | with_reducible apply State.updGl_keeps | with_reducible apply Keeps.each | with_reducible apply Keeps.ite
    | intro _ _ _ _ _ | intro _ _ _ _ | intro _ _ _ | intro _ _ | split | with_reducible apply Keeps.fields)

theorem State.planDefer_keeps {km kf ku : Bool} {s₀ : State} (s : State) (g : Nat) (hk : Keeps km kf ku s₀ s) :
    Keeps km kf ku s₀ (State.planDefer s g) := by
  unfold State.planDefer
  repeat' (
    first
    | with_reducible assumption | with_reducible apply State.inc_keeps | with_reducible apply State.wr_keeps
    | with_reducible apply Keeps.ite | intro _ _ _ _ _ | intro _ _ _ _ | intro _ _ _ | intro _ _ | split
    | with_reducible apply Keeps.fields)

theorem State.planDrop_keeps {km kf ku : Bool} {s₀ : State} (s : State) (g : Nat) (hk : Keeps km kf ku s₀ s) :
    Keeps km kf ku s₀ (State.planDrop s g) := by
  unfold State.planDrop
  repeat' (
    first
    | with_reducible assumption | with_reducible apply State.dropNextShape_keeps | with_reducible apply State.setMstate_keeps
    | with_reducible apply Keeps.ite | intro _ _ _ _ _ | intro _ _ _ _ | intro _ _ _ | intro _ _ | split
    | with_reducible apply Keeps.fields)

theorem State.planOutcome_keeps {kf ku : Bool} {s₀ : State} (s : State) (g ring : Nat) (o : PlanOutcome) (hk : Keeps true kf ku s₀ s) :
    Keeps true kf ku s₀ (State.planOutcome s g ring o) := by
  unfold State.planOutcome
  repeat' (
    first
    | with_reducible assumption | with_reducible apply State.leaveGrove_keeps | with_reducible apply State.planDefer_keeps
    | with_reducible apply State.planDone_keeps | with_reducible apply State.planDrop_keeps
    | with_reducible apply State.planFill_keeps | with_reducible apply State.planOpen_keeps
    | with_reducible apply State.planSwitch_keeps | with_reducible apply Keeps.ite | intro _ _ _ _ _ | intro _ _ _ _
    | intro _ _ _ | intro _ _ | split | with_reducible apply Keeps.fields)

end Sys2Proof.Machine
end

