-- ==== Sys2Proof/Laws/KeepsRing.lean ====
section
/-! SUPPORT. What the operations of Machine/Ring.lean keep (the relation Keeps). -/
set_option linter.unusedTactic false
set_option linter.unreachableTactic false
set_option linter.unusedVariables false
namespace Sys2Proof.Machine

theorem State.joinGrove_keeps {km kf ku : Bool} {s₀ : State} (s : State) (g : Nat) (hk : Keeps km kf ku s₀ s) :
    Keeps km kf ku s₀ (State.joinGrove s g) := by
  unfold State.joinGrove
  repeat' (
    first
    | with_reducible assumption | with_reducible apply State.queueEntry_keeps | with_reducible apply State.record_keeps
    | with_reducible apply Keeps.setReg | with_reducible apply State.showGrove_keeps | with_reducible apply State.updGl_keeps
    | with_reducible apply State.wr_keeps | with_reducible apply Keeps.ite | intro _ _ _ _ _ | intro _ _ _ _ | intro _ _ _
    | intro _ _ | split | with_reducible apply Keeps.fields)

theorem State.lateLedgers_keeps {kf ku : Bool} {s₀ : State} (s : State) (g : Nat) (hk : Keeps true kf ku s₀ s) :
    Keeps true kf ku s₀ (State.lateLedgers s g) := by
  unfold State.lateLedgers
  repeat' (
    first
    | with_reducible assumption | with_reducible apply State.rememberLedger_keeps | with_reducible apply State.store_keeps
    | with_reducible apply State.updGl_keeps | with_reducible apply Keeps.each | with_reducible apply Keeps.ite
    | intro _ _ _ _ _ | intro _ _ _ _ | intro _ _ _ | intro _ _ | split | with_reducible apply Keeps.fields)

theorem State.refreshTiles_keeps {km kf ku : Bool} {s₀ : State} (s : State) (hk : Keeps km kf ku s₀ s) :
    Keeps km kf ku s₀ (State.refreshTiles s) := by
  unfold State.refreshTiles
  repeat' (
    first
    | with_reducible assumption | with_reducible apply State.updTl_keeps | with_reducible apply Keeps.each
    | with_reducible apply Keeps.ite | intro _ _ _ _ _ | intro _ _ _ _ | intro _ _ _ | intro _ _ | split
    | with_reducible apply Keeps.fields)

theorem State.beginRing_keeps {kf ku : Bool} {s₀ : State} (s : State) (g : Nat) (hk : Keeps true kf ku s₀ s) :
    Keeps true kf ku s₀ (State.beginRing s g) := by
  unfold State.beginRing
  repeat' (
    first
    | with_reducible assumption | with_reducible apply State.joinGrove_keeps | with_reducible apply State.lateLedgers_keeps
    | with_reducible apply State.record_keeps | with_reducible apply State.refreshTiles_keeps
    | with_reducible apply State.setHold_keeps | with_reducible apply State.setPhase_keeps
    | with_reducible apply State.setStage_keeps | with_reducible apply State.switchStream_keeps
    | with_reducible apply State.updGl_keeps | with_reducible apply State.wr_keeps | with_reducible apply Keeps.ite
    | intro _ _ _ _ _ | intro _ _ _ _ | intro _ _ _ | intro _ _ | split | with_reducible apply Keeps.fields)

theorem State.evictSelf_keeps {km kf ku : Bool} {s₀ : State} (s : State) (g : Nat) (hk : Keeps km kf ku s₀ s) :
    Keeps km kf ku s₀ (State.evictSelf s g) := by
  unfold State.evictSelf
  repeat' (
    first
    | with_reducible assumption | with_reducible apply State.dropNextShape_keeps | with_reducible apply State.record_keeps
    | with_reducible apply State.setHold_keeps | with_reducible apply State.setMstate_keeps
    | with_reducible apply State.setStage_keeps | with_reducible apply State.updGl_keeps | with_reducible apply State.wr_keeps
    | with_reducible apply Keeps.ite | intro _ _ _ _ _ | intro _ _ _ _ | intro _ _ _ | intro _ _ | split
    | with_reducible apply Keeps.fields)

theorem State.startRing_keeps {kf ku : Bool} {s₀ : State} (s : State) (g ring : Nat) (evicted : List Nat) (o : PlanOutcome) (hk : Keeps true kf ku s₀ s) :
    Keeps true kf ku s₀ (State.startRing s g ring evicted o) := by
  unfold State.startRing
  repeat' (
    first
    | with_reducible assumption | with_reducible apply State.beginRing_keeps | with_reducible apply State.detect_keeps
    | with_reducible apply State.evictSelf_keeps | with_reducible apply State.planOutcome_keeps
    | with_reducible apply Keeps.each | with_reducible apply Keeps.ite | intro _ _ _ _ _ | intro _ _ _ _ | intro _ _ _
    | intro _ _ | split | with_reducible apply Keeps.fields)

theorem State.completeStart_keeps {kf ku : Bool} {s₀ : State} (s : State) (g : Nat) (evicted : List Nat) (e : StartEntry) (hk : Keeps true kf ku s₀ s) :
    Keeps true kf ku s₀ (State.completeStart s g evicted e) := by
  unfold State.completeStart
  repeat' (
    first
    | with_reducible assumption | with_reducible apply State.distribute_keeps | with_reducible apply State.startRing_keeps
    | with_reducible apply State.toNode_keeps | with_reducible apply Keeps.each | with_reducible apply Keeps.ite
    | intro _ _ _ _ _ | intro _ _ _ _ | intro _ _ _ | intro _ _ | split | with_reducible apply Keeps.fields)

theorem State.sendStartUp_keeps {km kf ku : Bool} {s₀ : State} (s : State) (g parent place : Nat) (e : StartEntry) (hk : Keeps km kf ku s₀ s) :
    Keeps km kf ku s₀ (State.sendStartUp s g parent place e) := by
  unfold State.sendStartUp
  repeat' (
    first
    | with_reducible assumption | with_reducible apply State.toMember_keeps | with_reducible apply Keeps.ite | intro _ _ _ _ _
    | intro _ _ _ _ | intro _ _ _ | intro _ _ | split | with_reducible apply Keeps.fields)

theorem State.reduceStart_keeps {kf ku : Bool} {s₀ : State} (s : State) (g : Nat) (hk : Keeps true kf ku s₀ s) :
    Keeps true kf ku s₀ (State.reduceStart s g) := by
  unfold State.reduceStart
  repeat' (
    first
    | with_reducible assumption | with_reducible apply State.completeStart_keeps | with_reducible apply State.eachSide_keeps
    | with_reducible apply State.sendStartUp_keeps | with_reducible apply Keeps.ite | intro _ _ _ _ _ | intro _ _ _ _
    | intro _ _ _ | intro _ _ | split | with_reducible apply Keeps.fields)

theorem execRingStartBarrier_keeps {kf ku : Bool} (g : GladeId) (s : State) :
    OutKeeps true kf ku s (execRingStartBarrier g s) := by
  unfold execRingStartBarrier
  repeat' (
    first
    | with_reducible assumption | with_reducible exact Keeps.refl _ | with_reducible apply OutKeeps.next
    | with_reducible apply OutKeeps.ite | with_reducible apply State.reduceStart_keeps | with_reducible apply State.updGl_keeps
    | with_reducible apply Keeps.inMain | with_reducible apply Keeps.ite | intro _ _ _ _ _ | intro _ _ _ _ | intro _ _ _
    | intro _ _ | split | with_reducible apply Keeps.fields)

theorem execRingStartCompletion_keeps {kf ku : Bool} (g : GladeId) (ring : Nat) (evicted : List Nat) (outcome : PlanOutcome) (s : State) :
    OutKeeps true kf ku s (execRingStartCompletion g ring evicted outcome s) := by
  unfold execRingStartCompletion
  repeat' (
    first
    | with_reducible assumption | with_reducible exact Keeps.refl _ | with_reducible apply OutKeeps.next
    | with_reducible apply OutKeeps.ite | with_reducible apply State.beginRing_keeps | with_reducible apply State.passOn_keeps
    | with_reducible apply State.planOutcome_keeps | with_reducible apply Keeps.setReg
    | with_reducible apply State.startRing_keeps | with_reducible apply State.updGl_keeps | with_reducible apply Keeps.inMain
    | with_reducible apply Keeps.ite | intro _ _ _ _ _ | intro _ _ _ _ | intro _ _ _ | intro _ _ | split
    | with_reducible apply Keeps.fields)

theorem execLaggardEviction_keeps {kf ku : Bool} (g : GladeId) (s : State) :
    OutKeeps true kf ku s (execLaggardEviction g s) := by
  unfold execLaggardEviction
  repeat' (
    first
    | with_reducible assumption | with_reducible exact Keeps.refl _ | with_reducible apply OutKeeps.next
    | with_reducible apply OutKeeps.ite | with_reducible apply State.completeStart_keeps | with_reducible apply Keeps.inMain
    | with_reducible apply Keeps.ite | intro _ _ _ _ _ | intro _ _ _ _ | intro _ _ _ | intro _ _ | split
    | with_reducible apply Keeps.fields)

theorem State.verdictEntry_keeps {kf ku : Bool} {s₀ : State} (s : State) (g child : Nat) (p : PartialVerdict) (hk : Keeps true kf ku s₀ s) :
    Keeps true kf ku s₀ (State.verdictEntry s g child p) := by
  unfold State.verdictEntry
  repeat' (
    first
    | with_reducible assumption | with_reducible apply State.reduceVerdict_keeps | with_reducible apply State.updGl_keeps
    | with_reducible apply State.wrongEntry_keeps | with_reducible apply Keeps.ite | intro _ _ _ _ _ | intro _ _ _ _
    | intro _ _ _ | intro _ _ | split | with_reducible apply Keeps.fields)

theorem State.trustEntry_keeps {km kf ku : Bool} {s₀ : State} (s : State) (g child : Nat) (l : List LayerAcc) (hk : Keeps km kf ku s₀ s) :
    Keeps km kf ku s₀ (State.trustEntry s g child l) := by
  unfold State.trustEntry
  repeat' (
    first
    | with_reducible assumption | with_reducible apply State.reduceTrust_keeps | with_reducible apply State.updGl_keeps
    | with_reducible apply Keeps.ite | intro _ _ _ _ _ | intro _ _ _ _ | intro _ _ _ | intro _ _ | split
    | with_reducible apply Keeps.fields)

theorem State.treeEntry_keeps {kf ku : Bool} {s₀ : State} (s : State) (g child : Nat) (crcOk : Bool) (p : TreePayload) (hk : Keeps true kf ku s₀ s) :
    Keeps true kf ku s₀ (State.treeEntry s g child crcOk p) := by
  unfold State.treeEntry
  repeat' (
    first
    | with_reducible assumption | with_reducible apply State.reduceClose_keeps | with_reducible apply State.reduceStart_keeps
    | with_reducible apply State.trustEntry_keeps | with_reducible apply State.updGl_keeps
    | with_reducible apply State.verdictEntry_keeps | with_reducible apply State.wrongEntry_keeps
    | with_reducible apply Keeps.ite | intro _ _ _ _ _ | intro _ _ _ _ | intro _ _ _ | intro _ _ | split
    | with_reducible apply Keeps.fields)

theorem execTreeEntry_keeps {kf ku : Bool} (g : GladeId) (child : Nat) (crcOk : Bool) (p : TreePayload) (s : State) :
    OutKeeps true kf ku s (execTreeEntry g child crcOk p s) := by
  unfold execTreeEntry
  repeat' (
    first
    | with_reducible assumption | with_reducible exact Keeps.refl _ | with_reducible apply OutKeeps.next
    | with_reducible apply OutKeeps.ite | with_reducible apply State.treeEntry_keeps | with_reducible apply Keeps.inMain
    | with_reducible apply Keeps.ite | intro _ _ _ _ _ | intro _ _ _ _ | intro _ _ _ | intro _ _ | split
    | with_reducible apply Keeps.fields)

theorem execTakeover_keeps {km kf ku : Bool} (g : GladeId) (coord : Nat) (t : Takeover) (s : State) :
    OutKeeps km kf ku s (execTakeover g coord t s) := by
  unfold execTakeover
  repeat' (
    first
    | with_reducible assumption | with_reducible exact Keeps.refl _ | with_reducible apply OutKeeps.next
    | with_reducible apply OutKeeps.ite | with_reducible apply State.takeOver_keeps | with_reducible apply State.takePlan_keeps
    | with_reducible apply Keeps.inMain | with_reducible apply Keeps.ite | intro _ _ _ _ _ | intro _ _ _ _ | intro _ _ _
    | intro _ _ | split | with_reducible apply Keeps.fields)

theorem State.decision_keeps {kf ku : Bool} {s₀ : State} (s : State) (g : Nat) (d : Decision) (hk : Keeps true kf ku s₀ s) :
    Keeps true kf ku s₀ (State.decision s g d) := by
  unfold State.decision
  repeat' (
    first
    | with_reducible assumption | with_reducible apply State.applyDec_keeps | with_reducible apply State.startRing_keeps
    | with_reducible apply Keeps.ite | intro _ _ _ _ _ | intro _ _ _ _ | intro _ _ _ | intro _ _ | split
    | with_reducible apply Keeps.fields)

theorem execDec_keeps {kf ku : Bool} (g : GladeId) (d : Decision) (s : State) : OutKeeps true kf ku s (execDec g d s) := by
  unfold execDec
  repeat' (
    first
    | with_reducible assumption | with_reducible exact Keeps.refl _ | with_reducible apply OutKeeps.next
    | with_reducible apply OutKeeps.ite | with_reducible apply State.decision_keeps | with_reducible apply Keeps.inMain
    | with_reducible apply Keeps.ite | intro _ _ _ _ _ | intro _ _ _ _ | intro _ _ _ | intro _ _ | split
    | with_reducible apply Keeps.fields)

theorem execRound2End_keeps {kf ku : Bool} (g : GladeId) (s : State) : OutKeeps true kf ku s (execRound2End g s) := by
  unfold execRound2End
  repeat' (
    first
    | with_reducible assumption | with_reducible exact Keeps.refl _ | with_reducible apply OutKeeps.next
    | with_reducible apply OutKeeps.ite | with_reducible apply State.decision_keeps | with_reducible apply State.fence_keeps
    | with_reducible apply State.startAgreement_keeps | with_reducible apply State.toMembers_keeps
    | with_reducible apply State.updGl_keeps | with_reducible apply Keeps.inMain | with_reducible apply Keeps.ite
    | intro _ _ _ _ _ | intro _ _ _ _ | intro _ _ _ | intro _ _ | split | with_reducible apply Keeps.fields)

theorem State.depart_keeps {km kf ku : Bool} {s₀ : State} (s : State) (hk : Keeps km kf ku s₀ s) :
    Keeps km kf ku s₀ (State.depart s) := by
  unfold State.depart
  repeat' (
    first
    | with_reducible assumption | with_reducible apply State.toMembers_keeps | with_reducible apply Keeps.each
    | with_reducible apply Keeps.ite | intro _ _ _ _ _ | intro _ _ _ _ | intro _ _ _ | intro _ _ | split
    | with_reducible apply Keeps.fields)

theorem execRecordStore_keeps {km kf ku : Bool} (s : State) : OutKeeps km kf ku s (execRecordStore s) := by
  unfold execRecordStore
  repeat' (
    first
    | with_reducible assumption | with_reducible exact Keeps.refl _ | with_reducible apply OutKeeps.next
    | with_reducible apply OutKeeps.ite | with_reducible apply State.depart_keeps | with_reducible apply State.storeRecord_keeps
    | with_reducible apply Keeps.inAo | with_reducible apply Keeps.ite | intro _ _ _ _ _ | intro _ _ _ _ | intro _ _ _
    | intro _ _ | split | with_reducible apply Keeps.fields)

end Sys2Proof.Machine
end

