-- ==== Sys2Proof/Laws/KeepsTile.lean ====
section
/-! SUPPORT. What the operations of Machine/Tile.lean keep (the relation Keeps). -/
set_option linter.unusedTactic false
set_option linter.unreachableTactic false
set_option linter.unusedVariables false
namespace Sys2Proof.Machine

theorem State.writeRngin_keeps {km kf ku : Bool} {s₀ : State} (s : State) (t w : Nat) (v : Word) (hk : Keeps km kf ku s₀ s) :
    Keeps km kf ku s₀ (State.writeRngin s t w v) := by
  unfold State.writeRngin
  repeat' (
    first
    | with_reducible assumption | with_reducible apply Keeps.setReg | with_reducible apply State.updTl_keeps
    | with_reducible apply Keeps.ite | intro _ _ _ _ _ | intro _ _ _ _ | intro _ _ _ | intro _ _ | split
    | with_reducible apply Keeps.fields)

theorem State.rngDone_keeps {km kf ku : Bool} {s₀ : State} (s : State) (t : Nat) (hk : Keeps km kf ku s₀ s) :
    Keeps km kf ku s₀ (State.rngDone s t) := by
  unfold State.rngDone
  repeat' (
    first
    | with_reducible assumption | with_reducible apply Keeps.setReg | with_reducible apply State.updTl_keeps
    | with_reducible apply Keeps.ite | intro _ _ _ _ _ | intro _ _ _ _ | intro _ _ _ | intro _ _ | split
    | with_reducible apply Keeps.fields)

theorem execRngTestWrite_keeps {km kf ku : Bool} (t : TileId) (w : Fin 4) (value : Word) (s : State) :
    OutKeeps km kf ku s (execRngTestWrite t w value s) := by
  unfold execRngTestWrite
  repeat' (
    first
    | with_reducible assumption | with_reducible exact Keeps.refl _ | with_reducible apply OutKeeps.next
    | with_reducible apply OutKeeps.ite | with_reducible apply State.writeRngin_keeps | with_reducible apply Keeps.inMain
    | with_reducible apply Keeps.ite | intro _ _ _ _ _ | intro _ _ _ _ | intro _ _ _ | intro _ _ | split
    | with_reducible apply Keeps.fields)

theorem execRngOutputReady_keeps {km kf ku : Bool} (t : TileId) (s : State) : OutKeeps km kf ku s (execRngOutputReady t s) := by
  unfold execRngOutputReady
  repeat' (
    first
    | with_reducible assumption | with_reducible exact Keeps.refl _ | with_reducible apply OutKeeps.next
    | with_reducible apply OutKeeps.ite | with_reducible apply State.respond_keeps | with_reducible apply State.rngDone_keeps
    | with_reducible apply State.updTl_keeps | with_reducible apply Keeps.inMain | with_reducible apply Keeps.ite
    | intro _ _ _ _ _ | intro _ _ _ _ | intro _ _ _ | intro _ _ | split | with_reducible apply Keeps.fields)

theorem execAccessComplete_keeps {km kf ku : Bool} (t : TileId) (ctx : Nat) (s : State) :
    OutKeeps km kf ku s (execAccessComplete t ctx s) := by
  unfold execAccessComplete
  repeat' (
    first
    | with_reducible assumption | with_reducible exact Keeps.refl _ | with_reducible apply OutKeeps.next
    | with_reducible apply OutKeeps.ite | with_reducible apply State.updTl_keeps | with_reducible apply Keeps.inMain
    | with_reducible apply Keeps.ite | intro _ _ _ _ _ | intro _ _ _ _ | intro _ _ _ | intro _ _ | split
    | with_reducible apply Keeps.fields)

theorem State.restartUnit_keeps {km kf ku : Bool} {s₀ : State} (s : State) (c : Context) (hk : Keeps km kf ku s₀ s) :
    Keeps km kf ku s₀ (State.restartUnit s c) := by
  unfold State.restartUnit
  repeat' (
    first
    | with_reducible assumption | with_reducible apply State.askLine_keeps | with_reducible apply State.askNext_keeps
    | with_reducible apply State.askRow_keeps | with_reducible apply State.detect_keeps | with_reducible apply State.updGl_keeps
    | with_reducible apply Keeps.each | with_reducible apply Keeps.ite | intro _ _ _ _ _ | intro _ _ _ _ | intro _ _ _
    | intro _ _ | split | with_reducible apply Keeps.fields)

theorem State.abandonUnit_keeps {kf ku : Bool} {s₀ : State} (s : State) (c : Context) (hk : Keeps true kf ku s₀ s) :
    Keeps true kf ku s₀ (State.abandonUnit s c) := by
  unfold State.abandonUnit
  repeat' (
    first
    | with_reducible assumption | with_reducible apply State.clearAnswer_keeps | with_reducible apply State.dropRead_keeps
    | with_reducible apply State.takeHeld_keeps | with_reducible apply State.updGl_keeps | with_reducible apply Keeps.ite
    | intro _ _ _ _ _ | intro _ _ _ _ | intro _ _ _ | intro _ _ | split | with_reducible apply Keeps.fields)

theorem execContextTimeout_keeps {kf ku : Bool} (t : TileId) (ctx : Nat) (s : State) :
    OutKeeps true kf ku s (execContextTimeout t ctx s) := by
  unfold execContextTimeout
  repeat' (
    first
    | with_reducible assumption | with_reducible exact Keeps.refl _ | with_reducible apply OutKeeps.next
    | with_reducible apply OutKeeps.ite | with_reducible apply State.abandonUnit_keeps | with_reducible apply State.inc_keeps
    | with_reducible apply State.record_keeps | with_reducible apply State.restartUnit_keeps
    | with_reducible apply State.updTl_keeps | with_reducible apply Keeps.inMain | with_reducible apply Keeps.ite
    | intro _ _ _ _ _ | intro _ _ _ _ | intro _ _ _ | intro _ _ | split | with_reducible apply Keeps.fields)

theorem State.formGang_keeps {km kf ku : Bool} {s₀ : State} (s : State) (q : Nat) (hk : Keeps km kf ku s₀ s) :
    Keeps km kf ku s₀ (State.formGang s q) := by
  unfold State.formGang
  repeat' (
    first
    | with_reducible assumption | with_reducible apply State.updTl_keeps | with_reducible apply State.wr_keeps
    | with_reducible apply Keeps.each | with_reducible apply Keeps.ite | intro _ _ _ _ _ | intro _ _ _ _ | intro _ _ _
    | intro _ _ | split | with_reducible apply Keeps.fields)

theorem execGangRequest_keeps {km kf ku : Bool} (quad : QuadId) (s : State) : OutKeeps km kf ku s (execGangRequest quad s) := by
  unfold execGangRequest
  repeat' (
    first
    | with_reducible assumption | with_reducible exact Keeps.refl _ | with_reducible apply OutKeeps.next
    | with_reducible apply OutKeeps.ite | with_reducible apply State.resetReg_keeps | with_reducible apply State.updTl_keeps
    | with_reducible apply Keeps.each | with_reducible apply Keeps.inMain | with_reducible apply Keeps.ite | intro _ _ _ _ _
    | intro _ _ _ _ | intro _ _ _ | intro _ _ | split | with_reducible apply Keeps.fields)

theorem execGangGrant_keeps {km kf ku : Bool} (t : TileId) (s : State) : OutKeeps km kf ku s (execGangGrant t s) := by
  unfold execGangGrant
  repeat' (
    first
    | with_reducible assumption | with_reducible exact Keeps.refl _ | with_reducible apply OutKeeps.next
    | with_reducible apply OutKeeps.ite | with_reducible apply State.formGang_keeps | with_reducible apply State.updTl_keeps
    | with_reducible apply Keeps.inMain | with_reducible apply Keeps.ite | intro _ _ _ _ _ | intro _ _ _ _ | intro _ _ _
    | intro _ _ | split | with_reducible apply Keeps.fields)

theorem execGangGrantTimeout_keeps {km kf ku : Bool} (quad : QuadId) (s : State) :
    OutKeeps km kf ku s (execGangGrantTimeout quad s) := by
  unfold execGangGrantTimeout
  repeat' (
    first
    | with_reducible assumption | with_reducible exact Keeps.refl _ | with_reducible apply OutKeeps.next
    | with_reducible apply OutKeeps.ite | with_reducible apply State.formGang_keeps | with_reducible apply Keeps.inMain
    | with_reducible apply Keeps.ite | intro _ _ _ _ _ | intro _ _ _ _ | intro _ _ _ | intro _ _ | split
    | with_reducible apply Keeps.fields)

end Sys2Proof.Machine
end

