-- ==== Sys2Proof/Laws/KeepsLink.lean ====
section
/-! SUPPORT. What the operations of Machine/Link.lean keep (the relation Keeps). -/
set_option linter.unusedTactic false
set_option linter.unreachableTactic false
set_option linter.unusedVariables false
namespace Sys2Proof.Machine

theorem State.setLnk_keeps {km kf ku : Bool} {s₀ : State} (s : State) (p n : Nat) (hk : Keeps km kf ku s₀ s) :
    Keeps km kf ku s₀ (State.setLnk s p n) := by
  unfold State.setLnk
  repeat' (
    first
    | with_reducible assumption | with_reducible apply State.wr_keeps | with_reducible apply Keeps.ite | intro _ _ _ _ _
    | intro _ _ _ _ | intro _ _ _ | intro _ _ | split | with_reducible apply Keeps.fields)

theorem State.lnkRecord_keeps {km kf ku : Bool} {s₀ : State} (s : State) (sev p a : Nat) (f : Fld) (hk : Keeps km kf ku s₀ s) :
    Keeps km kf ku s₀ (State.lnkRecord s sev p a f) := by
  unfold State.lnkRecord
  repeat' (
    first
    | with_reducible assumption | with_reducible apply State.record_keeps | with_reducible apply Keeps.ite | intro _ _ _ _ _
    | intro _ _ _ _ | intro _ _ _ | intro _ _ | split | with_reducible apply Keeps.fields)

theorem State.control_keeps {km kf ku : Bool} {s₀ : State} (s : State) (p op : Nat) (args : List Nat) (hk : Keeps km kf ku s₀ s) :
    Keeps km kf ku s₀ (State.control s p op args) := by
  unfold State.control
  repeat' (
    first
    | with_reducible assumption | with_reducible apply State.send_keeps | with_reducible apply Keeps.ite | intro _ _ _ _ _
    | intro _ _ _ _ | intro _ _ _ | intro _ _ | split | with_reducible apply Keeps.fields)

theorem State.sendAck_keeps {km kf ku : Bool} {s₀ : State} (s : State) (p : Nat) (hk : Keeps km kf ku s₀ s) :
    Keeps km kf ku s₀ (State.sendAck s p) := by
  unfold State.sendAck
  repeat' (
    first
    | with_reducible assumption | with_reducible apply State.control_keeps | with_reducible apply State.updLk_keeps
    | with_reducible apply Keeps.ite | intro _ _ _ _ _ | intro _ _ _ _ | intro _ _ _ | intro _ _ | split
    | with_reducible apply Keeps.fields)

theorem State.sendNak_keeps {km kf ku : Bool} {s₀ : State} (s : State) (p : Nat) (hk : Keeps km kf ku s₀ s) :
    Keeps km kf ku s₀ (State.sendNak s p) := by
  unfold State.sendNak
  repeat' (
    first
    | with_reducible assumption | with_reducible apply State.control_keeps | with_reducible apply State.inc_keeps
    | with_reducible apply State.updLk_keeps | with_reducible apply Keeps.ite | intro _ _ _ _ _ | intro _ _ _ _ | intro _ _ _
    | intro _ _ | split | with_reducible apply Keeps.fields)

theorem State.flush_keeps {km kf ku : Bool} {s₀ : State} (s : State) (p : Nat) (hk : Keeps km kf ku s₀ s) :
    Keeps km kf ku s₀ (State.flush s p) := by
  unfold State.flush
  repeat' (
    first
    | with_reducible assumption | with_reducible apply State.send_keeps | with_reducible apply State.updLk_keeps
    | with_reducible apply Keeps.each | with_reducible apply Keeps.ite | intro _ _ _ _ _ | intro _ _ _ _ | intro _ _ _
    | intro _ _ | split | with_reducible apply Keeps.fields)

theorem State.dropBuffer_keeps {km kf ku : Bool} {s₀ : State} (s : State) (p : Nat) (hk : Keeps km kf ku s₀ s) :
    Keeps km kf ku s₀ (State.dropBuffer s p) := by
  unfold State.dropBuffer
  repeat' (
    first
    | with_reducible assumption | with_reducible apply State.add_keeps | with_reducible apply State.updLk_keeps
    | with_reducible apply Keeps.ite | intro _ _ _ _ _ | intro _ _ _ _ | intro _ _ _ | intro _ _ | split
    | with_reducible apply Keeps.fields)

theorem State.sendTrain_keeps {km kf ku : Bool} {s₀ : State} (s : State) (p now : Nat) (hk : Keeps km kf ku s₀ s) :
    Keeps km kf ku s₀ (State.sendTrain s p now) := by
  unfold State.sendTrain
  repeat' (
    first
    | with_reducible assumption | with_reducible apply State.control_keeps | with_reducible apply Keeps.ite | intro _ _ _ _ _
    | intro _ _ _ _ | intro _ _ _ | intro _ _ | split | with_reducible apply Keeps.fields)

theorem State.train_keeps {km kf ku : Bool} {s₀ : State} (s : State) (p : Nat) (hk : Keeps km kf ku s₀ s) :
    Keeps km kf ku s₀ (State.train s p) := by
  unfold State.train
  repeat' (
    first
    | with_reducible assumption | with_reducible apply State.dropBuffer_keeps | with_reducible apply State.send_keeps
    | with_reducible apply State.setLnk_keeps | with_reducible apply Keeps.setReg | with_reducible apply State.updLk_keeps
    | with_reducible apply State.wr_keeps | with_reducible apply Keeps.ite | intro _ _ _ _ _ | intro _ _ _ _ | intro _ _ _
    | intro _ _ | split | with_reducible apply Keeps.fields)

theorem State.trainFailed_keeps {km kf ku : Bool} {s₀ : State} (s : State) (p : Nat) (hk : Keeps km kf ku s₀ s) :
    Keeps km kf ku s₀ (State.trainFailed s p) := by
  unfold State.trainFailed
  repeat' (
    first
    | with_reducible assumption | with_reducible apply State.inc_keeps | with_reducible apply State.lnkRecord_keeps
    | with_reducible apply State.send_keeps | with_reducible apply State.setLnk_keeps | with_reducible apply State.updLk_keeps
    | with_reducible apply Keeps.ite | intro _ _ _ _ _ | intro _ _ _ _ | intro _ _ _ | intro _ _ | split
    | with_reducible apply Keeps.fields)

theorem State.trained_keeps {km kf ku : Bool} {s₀ : State} (s : State) (p : Nat) (hk : Keeps km kf ku s₀ s) :
    Keeps km kf ku s₀ (State.trained s p) := by
  unfold State.trained
  repeat' (
    first
    | with_reducible assumption | with_reducible apply State.flush_keeps | with_reducible apply State.setLnk_keeps
    | with_reducible apply State.updLk_keeps | with_reducible apply State.wr_keeps | with_reducible apply Keeps.ite
    | intro _ _ _ _ _ | intro _ _ _ _ | intro _ _ _ | intro _ _ | split | with_reducible apply Keeps.fields)

theorem State.suspectNode_keeps {km kf ku : Bool} {s₀ : State} (s : State) (pnid cause : Nat) (hk : Keeps km kf ku s₀ s) :
    Keeps km kf ku s₀ (State.suspectNode s pnid cause) := by
  unfold State.suspectNode
  repeat' (
    first
    | with_reducible assumption | with_reducible apply State.detect_keeps | with_reducible apply State.toMembers_keeps
    | with_reducible apply Keeps.each | with_reducible apply Keeps.ite | intro _ _ _ _ _ | intro _ _ _ _ | intro _ _ _
    | intro _ _ | split | with_reducible apply Keeps.fields)

theorem State.silence_keeps {km kf ku : Bool} {s₀ : State} (s : State) (p : Nat) (hk : Keeps km kf ku s₀ s) :
    Keeps km kf ku s₀ (State.silence s p) := by
  unfold State.silence
  repeat' (
    first
    | with_reducible assumption | with_reducible apply State.lnkRecord_keeps | with_reducible apply State.suspectNode_keeps
    | with_reducible apply State.wr_keeps | with_reducible apply Keeps.ite | intro _ _ _ _ _ | intro _ _ _ _ | intro _ _ _
    | intro _ _ | split | with_reducible apply Keeps.fields)

theorem State.replayFrames_keeps {km kf ku : Bool} {s₀ : State} (s : State) (p e : Nat) (hk : Keeps km kf ku s₀ s) :
    Keeps km kf ku s₀ (State.replayFrames s p e) := by
  unfold State.replayFrames
  repeat' (
    first
    | with_reducible assumption | with_reducible apply State.add_keeps | with_reducible apply State.flush_keeps
    | with_reducible apply State.raise_keeps | with_reducible apply State.send_keeps | with_reducible apply State.train_keeps
    | with_reducible apply State.updLk_keeps | with_reducible apply Keeps.each | with_reducible apply Keeps.ite
    | intro _ _ _ _ _ | intro _ _ _ _ | intro _ _ _ | intro _ _ | split | with_reducible apply Keeps.fields)

theorem State.replayLink_keeps {km kf ku : Bool} {s₀ : State} (s : State) (p e : Nat) (hk : Keeps km kf ku s₀ s) :
    Keeps km kf ku s₀ (State.replayLink s p e) := by
  unfold State.replayLink
  repeat' (
    first
    | with_reducible assumption | with_reducible apply State.control_keeps | with_reducible apply State.replayFrames_keeps
    | with_reducible apply State.updLk_keeps | with_reducible apply Keeps.ite | intro _ _ _ _ _ | intro _ _ _ _ | intro _ _ _
    | intro _ _ | split | with_reducible apply Keeps.fields)

theorem State.ackFrames_keeps {km kf ku : Bool} {s₀ : State} (s : State) (p ack : Nat) (hk : Keeps km kf ku s₀ s) :
    Keeps km kf ku s₀ (State.ackFrames s p ack) := by
  unfold State.ackFrames
  repeat' (
    first
    | with_reducible assumption | with_reducible apply State.updLk_keeps | with_reducible apply Keeps.ite | intro _ _ _ _ _
    | intro _ _ _ _ | intro _ _ _ | intro _ _ | split | with_reducible apply Keeps.fields)

theorem State.askWidth_keeps {km kf ku : Bool} {s₀ : State} (s : State) (p mask tries : Nat) (hk : Keeps km kf ku s₀ s) :
    Keeps km kf ku s₀ (State.askWidth s p mask tries) := by
  unfold State.askWidth
  repeat' (
    first
    | with_reducible assumption | with_reducible apply State.control_keeps | with_reducible apply State.updLk_keeps
    | with_reducible apply Keeps.ite | intro _ _ _ _ _ | intro _ _ _ _ | intro _ _ _ | intro _ _ | split
    | with_reducible apply Keeps.fields)

theorem State.fullRelock_keeps {km kf ku : Bool} {s₀ : State} (s : State) (p : Nat) (hk : Keeps km kf ku s₀ s) :
    Keeps km kf ku s₀ (State.fullRelock s p) := by
  unfold State.fullRelock
  repeat' (
    first
    | with_reducible assumption | with_reducible apply State.setLnk_keeps | with_reducible apply State.updLane_keeps
    | with_reducible apply State.updLk_keeps | with_reducible apply State.wr_keeps | with_reducible apply Keeps.each
    | with_reducible apply Keeps.ite | intro _ _ _ _ _ | intro _ _ _ _ | intro _ _ _ | intro _ _ | split
    | with_reducible apply Keeps.fields)

theorem State.renegotiate_keeps {km kf ku : Bool} {s₀ : State} (s : State) (p keep : Nat) (hk : Keeps km kf ku s₀ s) :
    Keeps km kf ku s₀ (State.renegotiate s p keep) := by
  unfold State.renegotiate
  repeat' (
    first
    | with_reducible assumption | with_reducible apply State.askWidth_keeps | with_reducible apply State.fullRelock_keeps
    | with_reducible apply State.sendNak_keeps | with_reducible apply State.updLk_keeps | with_reducible apply Keeps.ite
    | intro _ _ _ _ _ | intro _ _ _ _ | intro _ _ _ | intro _ _ | split | with_reducible apply Keeps.fields)

theorem State.widthChanged_keeps {km kf ku : Bool} {s₀ : State} (s : State) (p : Nat) (hk : Keeps km kf ku s₀ s) :
    Keeps km kf ku s₀ (State.widthChanged s p) := by
  unfold State.widthChanged
  repeat' (
    first
    | with_reducible assumption | with_reducible apply State.inc_keeps | with_reducible apply State.lnkRecord_keeps
    | with_reducible apply Keeps.ite | intro _ _ _ _ _ | intro _ _ _ _ | intro _ _ _ | intro _ _ | split
    | with_reducible apply Keeps.fields)

theorem State.wakeLink_keeps {km kf ku : Bool} {s₀ : State} (s : State) (p : Nat) (hk : Keeps km kf ku s₀ s) :
    Keeps km kf ku s₀ (State.wakeLink s p) := by
  unfold State.wakeLink
  repeat' (
    first
    | with_reducible assumption | with_reducible apply State.send_keeps | with_reducible apply State.updLane_keeps
    | with_reducible apply State.updLk_keeps | with_reducible apply State.wr_keeps | with_reducible apply Keeps.each
    | with_reducible apply Keeps.ite | intro _ _ _ _ _ | intro _ _ _ _ | intro _ _ _ | intro _ _ | split
    | with_reducible apply Keeps.fields)

theorem State.linkUp_keeps {km kf ku : Bool} {s₀ : State} (s : State) (p : Nat) (relocked : Bool) (hk : Keeps km kf ku s₀ s) :
    Keeps km kf ku s₀ (State.linkUp s p relocked) := by
  unfold State.linkUp
  repeat' (
    first
    | with_reducible assumption | with_reducible apply State.flush_keeps | with_reducible apply State.replayLink_keeps
    | with_reducible apply State.sendNak_keeps | with_reducible apply State.setLnk_keeps
    | with_reducible apply State.updLk_keeps | with_reducible apply Keeps.ite | intro _ _ _ _ _ | intro _ _ _ _ | intro _ _ _
    | intro _ _ | split | with_reducible apply Keeps.fields)

theorem State.cancelDoze_keeps {km kf ku : Bool} {s₀ : State} (s : State) (p : Nat) (hk : Keeps km kf ku s₀ s) :
    Keeps km kf ku s₀ (State.cancelDoze s p) := by
  unfold State.cancelDoze
  repeat' (
    first
    | with_reducible assumption | with_reducible apply State.control_keeps | with_reducible apply State.flush_keeps
    | with_reducible apply State.updLk_keeps | with_reducible apply Keeps.ite | intro _ _ _ _ _ | intro _ _ _ _ | intro _ _ _
    | intro _ _ | split | with_reducible apply Keeps.fields)

theorem State.linkSend_keeps {km kf ku : Bool} {s₀ : State} (s : State) (p : Nat) (f : Frame) (stomped : Bool) (hk : Keeps km kf ku s₀ s) :
    Keeps km kf ku s₀ (State.linkSend s p f stomped) := by
  unfold State.linkSend
  repeat' (
    first
    | with_reducible assumption | with_reducible apply State.cancelDoze_keeps | with_reducible apply State.flush_keeps
    | with_reducible apply State.inc_keeps | with_reducible apply State.record_keeps | with_reducible apply State.send_keeps
    | with_reducible apply State.updLk_keeps | with_reducible apply Keeps.ite | intro _ _ _ _ _ | intro _ _ _ _ | intro _ _ _
    | intro _ _ | split | with_reducible apply Keeps.fields)

theorem State.takeCredits_keeps {km kf ku : Bool} {s₀ : State} (s : State) (p vc n : Nat) (hk : Keeps km kf ku s₀ s) :
    Keeps km kf ku s₀ (State.takeCredits s p vc n) := by
  unfold State.takeCredits
  repeat' (
    first
    | with_reducible assumption | with_reducible apply State.updLk_keeps | with_reducible apply Keeps.ite | intro _ _ _ _ _
    | intro _ _ _ _ | intro _ _ _ | intro _ _ | split | with_reducible apply Keeps.fields)

theorem State.sendCredits_keeps {km kf ku : Bool} {s₀ : State} (s : State) (p : Nat) (hk : Keeps km kf ku s₀ s) :
    Keeps km kf ku s₀ (State.sendCredits s p) := by
  unfold State.sendCredits
  repeat' (
    first
    | with_reducible assumption | with_reducible apply State.control_keeps | with_reducible apply State.updLk_keeps
    | with_reducible apply Keeps.ite | intro _ _ _ _ _ | intro _ _ _ _ | intro _ _ _ | intro _ _ | split
    | with_reducible apply Keeps.fields)

theorem State.oweCredits_keeps {km kf ku : Bool} {s₀ : State} (s : State) (p vc n : Nat) (hk : Keeps km kf ku s₀ s) :
    Keeps km kf ku s₀ (State.oweCredits s p vc n) := by
  unfold State.oweCredits
  repeat' (
    first
    | with_reducible assumption | with_reducible apply State.sendCredits_keeps | with_reducible apply State.updLk_keeps
    | with_reducible apply Keeps.ite | intro _ _ _ _ _ | intro _ _ _ _ | intro _ _ _ | intro _ _ | split
    | with_reducible apply Keeps.fields)

theorem State.trimLane_keeps {km kf ku : Bool} {s₀ : State} (s : State) (p i : Nat) (hk : Keeps km kf ku s₀ s) :
    Keeps km kf ku s₀ (State.trimLane s p i) := by
  unfold State.trimLane
  repeat' (
    first
    | with_reducible assumption | with_reducible apply State.send_keeps | with_reducible apply State.updLk_keeps
    | with_reducible apply Keeps.ite | intro _ _ _ _ _ | intro _ _ _ _ | intro _ _ _ | intro _ _ | split
    | with_reducible apply Keeps.fields)

theorem State.trimEnd_keeps {km kf ku : Bool} {s₀ : State} (s : State) (p : Nat) (hk : Keeps km kf ku s₀ s) :
    Keeps km kf ku s₀ (State.trimEnd s p) := by
  unfold State.trimEnd
  repeat' (
    first
    | with_reducible assumption | with_reducible apply State.updLk_keeps | with_reducible apply State.wr_keeps
    | with_reducible apply Keeps.ite | intro _ _ _ _ _ | intro _ _ _ _ | intro _ _ _ | intro _ _ | split
    | with_reducible apply Keeps.fields)

theorem State.trimNext_keeps {km kf ku : Bool} {s₀ : State} (s : State) (p : Nat) (hk : Keeps km kf ku s₀ s) :
    Keeps km kf ku s₀ (State.trimNext s p) := by
  unfold State.trimNext
  repeat' (
    first
    | with_reducible assumption | with_reducible apply State.askWidth_keeps | with_reducible apply State.trimEnd_keeps
    | with_reducible apply State.updLk_keeps | with_reducible apply Keeps.ite | intro _ _ _ _ _ | intro _ _ _ _ | intro _ _ _
    | intro _ _ | split | with_reducible apply Keeps.fields)

theorem State.startTrim_keeps {km kf ku : Bool} {s₀ : State} (s : State) (p : Nat) (l : List Nat) (full : Bool) (hk : Keeps km kf ku s₀ s) :
    Keeps km kf ku s₀ (State.startTrim s p l full) := by
  unfold State.startTrim
  repeat' (
    first
    | with_reducible assumption | with_reducible apply State.trimNext_keeps | with_reducible apply State.updLk_keeps
    | with_reducible apply State.wr_keeps | with_reducible apply Keeps.ite | intro _ _ _ _ _ | intro _ _ _ _ | intro _ _ _
    | intro _ _ | split | with_reducible apply Keeps.fields)

theorem State.retrim_keeps {km kf ku : Bool} {s₀ : State} (s : State) (p : Nat) (hk : Keeps km kf ku s₀ s) :
    Keeps km kf ku s₀ (State.retrim s p) := by
  unfold State.retrim
  repeat' (
    first
    | with_reducible assumption | with_reducible apply State.startTrim_keeps | with_reducible apply Keeps.ite | intro _ _ _ _ _
    | intro _ _ _ _ | intro _ _ _ | intro _ _ | split | with_reducible apply Keeps.fields)

theorem State.setLocked_keeps {km kf ku : Bool} {s₀ : State} (s : State) (p i : Nat) (b : Bool) (hk : Keeps km kf ku s₀ s) :
    Keeps km kf ku s₀ (State.setLocked s p i b) := by
  unfold State.setLocked
  repeat' (
    first
    | with_reducible assumption | with_reducible apply State.clearMask_keeps | with_reducible apply State.setMask_keeps
    | with_reducible apply Keeps.ite | intro _ _ _ _ _ | intro _ _ _ _ | intro _ _ _ | intro _ _ | split
    | with_reducible apply Keeps.fields)

theorem State.laneUnlocked_keeps {km kf ku : Bool} {s₀ : State} (s : State) (p i : Nat) (hk : Keeps km kf ku s₀ s) :
    Keeps km kf ku s₀ (State.laneUnlocked s p i) := by
  unfold State.laneUnlocked
  repeat' (
    first
    | with_reducible assumption | with_reducible apply State.renegotiate_keeps | with_reducible apply State.setLocked_keeps
    | with_reducible apply State.updLane_keeps | with_reducible apply Keeps.ite | intro _ _ _ _ _ | intro _ _ _ _ | intro _ _ _
    | intro _ _ | split | with_reducible apply Keeps.fields)

theorem State.switchDone_keeps {km kf ku : Bool} {s₀ : State} (s : State) (p m : Nat) (hk : Keeps km kf ku s₀ s) :
    Keeps km kf ku s₀ (State.switchDone s p m) := by
  unfold State.switchDone
  repeat' (
    first
    | with_reducible assumption | with_reducible apply State.trimLane_keeps | with_reducible apply State.trimNext_keeps
    | with_reducible apply State.updLk_keeps | with_reducible apply State.widthChanged_keeps
    | with_reducible apply State.wr_keeps | with_reducible apply Keeps.ite | intro _ _ _ _ _ | intro _ _ _ _ | intro _ _ _
    | intro _ _ | split | with_reducible apply Keeps.fields)

theorem State.laneLocked_keeps {km kf ku : Bool} {s₀ : State} (s : State) (p i : Nat) (hk : Keeps km kf ku s₀ s) :
    Keeps km kf ku s₀ (State.laneLocked s p i) := by
  unfold State.laneLocked
  repeat' (
    first
    | with_reducible assumption | with_reducible apply State.linkUp_keeps | with_reducible apply State.sendTrain_keeps
    | with_reducible apply State.setLocked_keeps | with_reducible apply Keeps.ite | intro _ _ _ _ _ | intro _ _ _ _
    | intro _ _ _ | intro _ _ | split | with_reducible apply Keeps.fields)

theorem State.laneMarker_keeps {km kf ku : Bool} {s₀ : State} (s : State) (p i : Nat) (m : Marker) (hk : Keeps km kf ku s₀ s) :
    Keeps km kf ku s₀ (State.laneMarker s p i m) := by
  unfold State.laneMarker
  repeat' (
    first
    | with_reducible assumption | with_reducible apply State.laneLocked_keeps | with_reducible apply State.laneUnlocked_keeps
    | with_reducible apply State.lnkRecord_keeps | with_reducible apply State.renegotiate_keeps
    | with_reducible apply State.switchDone_keeps | with_reducible apply State.updLane_keeps
    | with_reducible apply State.updLk_keeps | with_reducible apply Keeps.ite | intro _ _ _ _ _ | intro _ _ _ _ | intro _ _ _
    | intro _ _ | split | with_reducible apply Keeps.fields)

end Sys2Proof.Machine
end

