-- ==== Sys2Proof/Laws/KeepsRouter.lean ====
section
/-! SUPPORT. What the operations of Machine/Router.lean keep (the relation Keeps). -/
set_option linter.unusedTactic false
set_option linter.unreachableTactic false
set_option linter.unusedVariables false
namespace Sys2Proof.Machine

theorem State.throttle_keeps {km kf ku : Bool} {s₀ : State} (s : State) (hk : Keeps km kf ku s₀ s) :
    Keeps km kf ku s₀ (State.throttle s) := by
  unfold State.throttle
  repeat' (
    first
    | with_reducible assumption | with_reducible apply Keeps.ite | intro _ _ _ _ _ | intro _ _ _ _ | intro _ _ _ | intro _ _
    | split | with_reducible apply Keeps.fields)

theorem State.waitFrame_keeps {km kf ku : Bool} {s₀ : State} (s : State) (inPort : Nat) (f : Frame) (stomped : Bool) (host : Option Nat) (hk : Keeps km kf ku s₀ s) :
    Keeps km kf ku s₀ (State.waitFrame s inPort f stomped host) := by
  unfold State.waitFrame
  repeat' (
    first
    | with_reducible assumption | with_reducible apply State.throttle_keeps | with_reducible apply Keeps.ite | intro _ _ _ _ _
    | intro _ _ _ _ | intro _ _ _ | intro _ _ | split | with_reducible apply Keeps.fields)

theorem State.hostSend_keeps {km kf ku : Bool} {s₀ : State} (s : State) (h : Nat) (f : Frame) (hk : Keeps km kf ku s₀ s) :
    Keeps km kf ku s₀ (State.hostSend s h f) := by
  unfold State.hostSend
  repeat' (
    first
    | with_reducible assumption | with_reducible apply State.send_keeps | with_reducible apply State.waitFrame_keeps
    | with_reducible apply Keeps.ite | intro _ _ _ _ _ | intro _ _ _ _ | intro _ _ _ | intro _ _ | split
    | with_reducible apply Keeps.fields)

theorem State.refuseFrame_keeps {km kf ku : Bool} {s₀ : State} (s : State) (f : Frame) (hk : Keeps km kf ku s₀ s) :
    Keeps km kf ku s₀ (State.refuseFrame s f) := by
  unfold State.refuseFrame
  repeat' (
    first
    | with_reducible assumption | with_reducible apply State.inc_keeps | with_reducible apply State.toNode_keeps
    | with_reducible apply Keeps.ite | intro _ _ _ _ _ | intro _ _ _ _ | intro _ _ _ | intro _ _ | split
    | with_reducible apply Keeps.fields)

theorem State.authFailed_keeps {km kf ku : Bool} {s₀ : State} (s : State) (inPort : Nat) (f : Frame) (hk : Keeps km kf ku s₀ s) :
    Keeps km kf ku s₀ (State.authFailed s inPort f) := by
  unfold State.authFailed
  repeat' (
    first
    | with_reducible assumption | with_reducible apply State.inc_keeps | with_reducible apply State.record_keeps
    | with_reducible apply Keeps.ite | intro _ _ _ _ _ | intro _ _ _ _ | intro _ _ _ | intro _ _ | split
    | with_reducible apply Keeps.fields)

theorem State.handOver_keeps {km kf ku : Bool} {s₀ : State} (s : State) (f : Frame) (hk : Keeps km kf ku s₀ s) :
    Keeps km kf ku s₀ (State.handOver s f) := by
  unfold State.handOver
  repeat' (
    first
    | with_reducible assumption | with_reducible apply State.send_keeps | with_reducible apply Keeps.ite | intro _ _ _ _ _
    | intro _ _ _ _ | intro _ _ _ | intro _ _ | split | with_reducible apply Keeps.fields)

theorem State.reassemble_keeps {km kf ku : Bool} {s₀ : State} (s : State) (f : Frame) (hk : Keeps km kf ku s₀ s) :
    Keeps km kf ku s₀ (State.reassemble s f) := by
  unfold State.reassemble
  repeat' (
    first
    | with_reducible assumption | with_reducible apply State.handOver_keeps | with_reducible apply Keeps.ite | intro _ _ _ _ _
    | intro _ _ _ _ | intro _ _ _ | intro _ _ | split | with_reducible apply Keeps.fields)

theorem State.deliver_keeps {km kf ku : Bool} {s₀ : State} (s : State) (inPort : Nat) (f : Frame) (hk : Keeps km kf ku s₀ s) :
    Keeps km kf ku s₀ (State.deliver s inPort f) := by
  unfold State.deliver
  repeat' (
    first
    | with_reducible assumption | with_reducible apply State.authFailed_keeps | with_reducible apply State.handOver_keeps
    | with_reducible apply State.inc_keeps | with_reducible apply State.reassemble_keeps
    | with_reducible apply State.refuseFrame_keeps | with_reducible apply Keeps.ite | intro _ _ _ _ _ | intro _ _ _ _
    | intro _ _ _ | intro _ _ | split | with_reducible apply Keeps.fields)

theorem State.leaveInput_keeps {km kf ku : Bool} {s₀ : State} (s : State) (inPort vc n : Nat) (hk : Keeps km kf ku s₀ s) :
    Keeps km kf ku s₀ (State.leaveInput s inPort vc n) := by
  unfold State.leaveInput
  repeat' (
    first
    | with_reducible assumption | with_reducible apply State.oweCredits_keeps | with_reducible apply Keeps.ite | intro _ _ _ _ _
    | intro _ _ _ _ | intro _ _ _ | intro _ _ | split | with_reducible apply Keeps.fields)

theorem State.dropNoRoute_keeps {km kf ku : Bool} {s₀ : State} (s : State) (f : Frame) (hk : Keeps km kf ku s₀ s) :
    Keeps km kf ku s₀ (State.dropNoRoute s f) := by
  unfold State.dropNoRoute
  repeat' (
    first
    | with_reducible assumption | with_reducible apply State.inc_keeps | with_reducible apply State.send_keeps
    | with_reducible apply State.toNode_keeps | with_reducible apply Keeps.ite | intro _ _ _ _ _ | intro _ _ _ _ | intro _ _ _
    | intro _ _ | split | with_reducible apply Keeps.fields)

theorem State.forward_keeps {km kf ku : Bool} {s₀ : State} (s : State) (p vc : Nat) (f : Frame) (stomped : Bool) (hk : Keeps km kf ku s₀ s) :
    Keeps km kf ku s₀ (State.forward s p vc f stomped) := by
  unfold State.forward
  repeat' (
    first
    | with_reducible assumption | with_reducible apply State.linkSend_keeps | with_reducible apply State.takeCredits_keeps
    | with_reducible apply Keeps.ite | intro _ _ _ _ _ | intro _ _ _ _ | intro _ _ _ | intro _ _ | split
    | with_reducible apply Keeps.fields)

theorem State.sealFrame_keeps {km kf ku : Bool} {s₀ : State} (s : State) (inPort : Nat) (f : Frame) (hk : Keeps km kf ku s₀ s) :
    Keeps km kf ku s₀ (State.sealFrame s inPort f) := by
  unfold State.sealFrame
  repeat' (
    first
    | with_reducible assumption | with_reducible apply State.tookSeal_keeps | with_reducible apply Keeps.ite | intro _ _ _ _ _
    | intro _ _ _ _ | intro _ _ _ | intro _ _ | split | with_reducible apply Keeps.fields)

theorem State.routeFrame_keeps {km kf ku : Bool} {s₀ : State} (s : State) (inPort : Nat) (f : Frame) (stomped : Bool) (hk : Keeps km kf ku s₀ s) :
    Keeps km kf ku s₀ (State.routeFrame s inPort f stomped) := by
  unfold State.routeFrame
  repeat' (
    first
    | with_reducible assumption | with_reducible apply State.deliver_keeps | with_reducible apply State.dropNoRoute_keeps
    | with_reducible apply State.forward_keeps | with_reducible apply State.inc_keeps
    | with_reducible apply State.leaveInput_keeps | with_reducible apply State.record_keeps
    | with_reducible apply State.sealFrame_keeps | with_reducible apply State.waitFrame_keeps | with_reducible apply Keeps.ite
    | intro _ _ _ _ _ | intro _ _ _ _ | intro _ _ _ | intro _ _ | split | with_reducible apply Keeps.fields)

theorem State.pump_keeps {km kf ku : Bool} {s₀ : State} (s : State) (hk : Keeps km kf ku s₀ s) :
    Keeps km kf ku s₀ (State.pump s) := by
  unfold State.pump
  repeat' (
    first
    | with_reducible assumption | with_reducible apply State.hostSend_keeps | with_reducible apply State.routeFrame_keeps
    | with_reducible apply State.throttle_keeps | with_reducible apply Keeps.each | with_reducible apply Keeps.ite
    | intro _ _ _ _ _ | intro _ _ _ _ | intro _ _ _ | intro _ _ | split | with_reducible apply Keeps.fields)

end Sys2Proof.Machine
end

