-- ==== Sys2Proof/Laws/KeepsLinkRows.lean ====
section
/-! SUPPORT. What the operations of Machine/LinkRows.lean keep (the relation Keeps). -/
set_option linter.unusedTactic false
set_option linter.unreachableTactic false
set_option linter.unusedVariables false
namespace Sys2Proof.Machine

theorem State.ctl_keeps {km kf ku : Bool} {s₀ : State} (s : State) (p : Nat) (hk : Keeps km kf ku s₀ s) :
    Keeps km kf ku s₀ (State.ctl s p) := by
  unfold State.ctl
  repeat' (
    first
    | with_reducible assumption | with_reducible apply State.updLk_keeps | with_reducible apply Keeps.ite | intro _ _ _ _ _
    | intro _ _ _ _ | intro _ _ _ | intro _ _ | split | with_reducible apply Keeps.fields)

theorem State.pulse_keeps {km kf ku : Bool} {s₀ : State} (s : State) (p pnid : Nat) (hk : Keeps km kf ku s₀ s) :
    Keeps km kf ku s₀ (State.pulse s p pnid) := by
  unfold State.pulse
  repeat' (
    first
    | with_reducible assumption | with_reducible apply State.ctl_keeps | with_reducible apply State.linkUp_keeps
    | with_reducible apply State.silence_keeps | with_reducible apply State.train_keeps | with_reducible apply State.wr_keeps
    | with_reducible apply Keeps.ite | intro _ _ _ _ _ | intro _ _ _ _ | intro _ _ _ | intro _ _ | split
    | with_reducible apply Keeps.fields)

theorem State.ackRow_keeps {km kf ku : Bool} {s₀ : State} (s : State) (p ack : Nat) (hk : Keeps km kf ku s₀ s) :
    Keeps km kf ku s₀ (State.ackRow s p ack) := by
  unfold State.ackRow
  repeat' (
    first
    | with_reducible assumption | with_reducible apply State.ackFrames_keeps | with_reducible apply State.ctl_keeps
    | with_reducible apply State.pump_keeps | with_reducible apply Keeps.ite | intro _ _ _ _ _ | intro _ _ _ _ | intro _ _ _
    | intro _ _ | split | with_reducible apply Keeps.fields)

theorem State.nakRow_keeps {km kf ku : Bool} {s₀ : State} (s : State) (p e : Nat) (hk : Keeps km kf ku s₀ s) :
    Keeps km kf ku s₀ (State.nakRow s p e) := by
  unfold State.nakRow
  repeat' (
    first
    | with_reducible assumption | with_reducible apply State.ctl_keeps | with_reducible apply State.replayLink_keeps
    | with_reducible apply Keeps.ite | intro _ _ _ _ _ | intro _ _ _ _ | intro _ _ _ | intro _ _ | split
    | with_reducible apply Keeps.fields)

theorem State.creditRow_keeps {km kf ku : Bool} {s₀ : State} (s : State) (p : Nat) (reserved : List Nat) (shared : Nat) (hk : Keeps km kf ku s₀ s) :
    Keeps km kf ku s₀ (State.creditRow s p reserved shared) := by
  unfold State.creditRow
  repeat' (
    first
    | with_reducible assumption | with_reducible apply State.ctl_keeps | with_reducible apply State.pump_keeps
    | with_reducible apply State.updLk_keeps | with_reducible apply Keeps.ite | intro _ _ _ _ _ | intro _ _ _ _ | intro _ _ _
    | intro _ _ | split | with_reducible apply Keeps.fields)

theorem State.widthReq_keeps {km kf ku : Bool} {s₀ : State} (s : State) (p mask : Nat) (hk : Keeps km kf ku s₀ s) :
    Keeps km kf ku s₀ (State.widthReq s p mask) := by
  unfold State.widthReq
  repeat' (
    first
    | with_reducible assumption | with_reducible apply State.ctl_keeps | with_reducible apply State.fullRelock_keeps
    | with_reducible apply State.updLk_keeps | with_reducible apply Keeps.ite | intro _ _ _ _ _ | intro _ _ _ _ | intro _ _ _
    | intro _ _ | split | with_reducible apply Keeps.fields)

theorem State.txIdle_keeps {km kf ku : Bool} {s₀ : State} (s : State) (p : Nat) (hk : Keeps km kf ku s₀ s) :
    Keeps km kf ku s₀ (State.txIdle s p) := by
  unfold State.txIdle
  repeat' (
    first
    | with_reducible assumption | with_reducible apply State.send_keeps | with_reducible apply State.updLk_keeps
    | with_reducible apply Keeps.ite | intro _ _ _ _ _ | intro _ _ _ _ | intro _ _ _ | intro _ _ | split
    | with_reducible apply Keeps.fields)

theorem State.dozeReq_keeps {km kf ku : Bool} {s₀ : State} (s : State) (p : Nat) (hk : Keeps km kf ku s₀ s) :
    Keeps km kf ku s₀ (State.dozeReq s p) := by
  unfold State.dozeReq
  repeat' (
    first
    | with_reducible assumption | with_reducible apply State.control_keeps | with_reducible apply State.ctl_keeps
    | with_reducible apply State.txIdle_keeps | with_reducible apply State.updLk_keeps | with_reducible apply Keeps.ite
    | intro _ _ _ _ _ | intro _ _ _ _ | intro _ _ _ | intro _ _ | split | with_reducible apply Keeps.fields)

theorem State.dozeAck_keeps {km kf ku : Bool} {s₀ : State} (s : State) (p : Nat) (hk : Keeps km kf ku s₀ s) :
    Keeps km kf ku s₀ (State.dozeAck s p) := by
  unfold State.dozeAck
  repeat' (
    first
    | with_reducible assumption | with_reducible apply State.ctl_keeps | with_reducible apply State.txIdle_keeps
    | with_reducible apply Keeps.ite | intro _ _ _ _ _ | intro _ _ _ _ | intro _ _ _ | intro _ _ | split
    | with_reducible apply Keeps.fields)

theorem State.dozeCancel_keeps {km kf ku : Bool} {s₀ : State} (s : State) (p : Nat) (hk : Keeps km kf ku s₀ s) :
    Keeps km kf ku s₀ (State.dozeCancel s p) := by
  unfold State.dozeCancel
  repeat' (
    first
    | with_reducible assumption | with_reducible apply State.ctl_keeps | with_reducible apply State.flush_keeps
    | with_reducible apply State.send_keeps | with_reducible apply State.updLk_keeps | with_reducible apply Keeps.ite
    | intro _ _ _ _ _ | intro _ _ _ _ | intro _ _ _ | intro _ _ | split | with_reducible apply Keeps.fields)

theorem State.trainRow_keeps {km kf ku : Bool} {s₀ : State} (s : State) (p pnid port version locked stamp echo now : Nat) (hk : Keeps km kf ku s₀ s) :
    Keeps km kf ku s₀ (State.trainRow s p pnid port version locked stamp echo now) := by
  unfold State.trainRow
  repeat' (
    first
    | with_reducible assumption | with_reducible apply State.ctl_keeps | with_reducible apply State.lnkRecord_keeps
    | with_reducible apply State.record_keeps | with_reducible apply State.sendTrain_keeps
    | with_reducible apply State.trimLane_keeps | with_reducible apply State.updLk_keeps | with_reducible apply State.wr_keeps
    | with_reducible apply Keeps.ite | intro _ _ _ _ _ | intro _ _ _ _ | intro _ _ _ | intro _ _ | split
    | with_reducible apply Keeps.fields)

theorem execIdle_keeps {km kf ku : Bool} (p : LinkId) (s : State) : OutKeeps km kf ku s (execIdle p s) := by
  unfold execIdle
  repeat' (
    first
    | with_reducible assumption | with_reducible exact Keeps.refl _ | with_reducible apply OutKeeps.next
    | with_reducible apply OutKeeps.ite | with_reducible apply State.ctl_keeps | with_reducible apply Keeps.inMain
    | with_reducible apply Keeps.ite | intro _ _ _ _ _ | intro _ _ _ _ | intro _ _ _ | intro _ _ | split
    | with_reducible apply Keeps.fields)

theorem execPulse_keeps {km kf ku : Bool} (p : LinkId) (pnid _port _counter : Nat) (s : State) :
    OutKeeps km kf ku s (execPulse p pnid _port _counter s) := by
  unfold execPulse
  repeat' (
    first
    | with_reducible assumption | with_reducible exact Keeps.refl _ | with_reducible apply OutKeeps.next
    | with_reducible apply OutKeeps.ite | with_reducible apply State.pulse_keeps | with_reducible apply State.pump_keeps
    | with_reducible apply Keeps.inMain | with_reducible apply Keeps.ite | intro _ _ _ _ _ | intro _ _ _ _ | intro _ _ _
    | intro _ _ | split | with_reducible apply Keeps.fields)

theorem execAck_keeps {km kf ku : Bool} (p : LinkId) (ackSeq : BitVec 16) (s : State) :
    OutKeeps km kf ku s (execAck p ackSeq s) := by
  unfold execAck
  repeat' (
    first
    | with_reducible assumption | with_reducible exact Keeps.refl _ | with_reducible apply OutKeeps.next
    | with_reducible apply OutKeeps.ite | with_reducible apply State.ackRow_keeps | with_reducible apply Keeps.inMain
    | with_reducible apply Keeps.ite | intro _ _ _ _ _ | intro _ _ _ _ | intro _ _ _ | intro _ _ | split
    | with_reducible apply Keeps.fields)

theorem execNak_keeps {km kf ku : Bool} (p : LinkId) (e : BitVec 16) (s : State) : OutKeeps km kf ku s (execNak p e s) := by
  unfold execNak
  repeat' (
    first
    | with_reducible assumption | with_reducible exact Keeps.refl _ | with_reducible apply OutKeeps.next
    | with_reducible apply OutKeeps.ite | with_reducible apply State.nakRow_keeps | with_reducible apply State.pump_keeps
    | with_reducible apply Keeps.inMain | with_reducible apply Keeps.ite | intro _ _ _ _ _ | intro _ _ _ _ | intro _ _ _
    | intro _ _ | split | with_reducible apply Keeps.fields)

theorem execCredit_keeps {km kf ku : Bool} (p : LinkId) (reserved : List Nat) (shared : Nat) (s : State) :
    OutKeeps km kf ku s (execCredit p reserved shared s) := by
  unfold execCredit
  repeat' (
    first
    | with_reducible assumption | with_reducible exact Keeps.refl _ | with_reducible apply OutKeeps.next
    | with_reducible apply OutKeeps.ite | with_reducible apply State.creditRow_keeps | with_reducible apply Keeps.inMain
    | with_reducible apply Keeps.ite | intro _ _ _ _ _ | intro _ _ _ _ | intro _ _ _ | intro _ _ | split
    | with_reducible apply Keeps.fields)

theorem execWidthReq_keeps {km kf ku : Bool} (p : LinkId) (mask : Byte) (_attempt : Nat) (s : State) :
    OutKeeps km kf ku s (execWidthReq p mask _attempt s) := by
  unfold execWidthReq
  repeat' (
    first
    | with_reducible assumption | with_reducible exact Keeps.refl _ | with_reducible apply OutKeeps.next
    | with_reducible apply OutKeeps.ite | with_reducible apply State.widthReq_keeps | with_reducible apply Keeps.inMain
    | with_reducible apply Keeps.ite | intro _ _ _ _ _ | intro _ _ _ _ | intro _ _ _ | intro _ _ | split
    | with_reducible apply Keeps.fields)

theorem execDozeReq_keeps {km kf ku : Bool} (p : LinkId) (s : State) : OutKeeps km kf ku s (execDozeReq p s) := by
  unfold execDozeReq
  repeat' (
    first
    | with_reducible assumption | with_reducible exact Keeps.refl _ | with_reducible apply OutKeeps.next
    | with_reducible apply OutKeeps.ite | with_reducible apply State.dozeReq_keeps | with_reducible apply Keeps.inMain
    | with_reducible apply Keeps.ite | intro _ _ _ _ _ | intro _ _ _ _ | intro _ _ _ | intro _ _ | split
    | with_reducible apply Keeps.fields)

theorem execDozeAck_keeps {km kf ku : Bool} (p : LinkId) (s : State) : OutKeeps km kf ku s (execDozeAck p s) := by
  unfold execDozeAck
  repeat' (
    first
    | with_reducible assumption | with_reducible exact Keeps.refl _ | with_reducible apply OutKeeps.next
    | with_reducible apply OutKeeps.ite | with_reducible apply State.dozeAck_keeps | with_reducible apply Keeps.inMain
    | with_reducible apply Keeps.ite | intro _ _ _ _ _ | intro _ _ _ _ | intro _ _ _ | intro _ _ | split
    | with_reducible apply Keeps.fields)

theorem execDozeCancel_keeps {km kf ku : Bool} (p : LinkId) (s : State) : OutKeeps km kf ku s (execDozeCancel p s) := by
  unfold execDozeCancel
  repeat' (
    first
    | with_reducible assumption | with_reducible exact Keeps.refl _ | with_reducible apply OutKeeps.next
    | with_reducible apply OutKeeps.ite | with_reducible apply State.dozeCancel_keeps | with_reducible apply State.pump_keeps
    | with_reducible apply Keeps.inMain | with_reducible apply Keeps.ite | intro _ _ _ _ _ | intro _ _ _ _ | intro _ _ _
    | intro _ _ | split | with_reducible apply Keeps.fields)

theorem execTrain_keeps {km kf ku : Bool} (p : LinkId) (pnid port version : Nat) (locked : Byte) (stamp echo now : Nat) (s : State) :
    OutKeeps km kf ku s (execTrain p pnid port version locked stamp echo now s) := by
  unfold execTrain
  repeat' (
    first
    | with_reducible assumption | with_reducible exact Keeps.refl _ | with_reducible apply OutKeeps.next
    | with_reducible apply OutKeeps.ite | with_reducible apply State.trainRow_keeps | with_reducible apply Keeps.inMain
    | with_reducible apply Keeps.ite | intro _ _ _ _ _ | intro _ _ _ _ | intro _ _ _ | intro _ _ | split
    | with_reducible apply Keeps.fields)

theorem State.lostFrame_keeps {km kf ku : Bool} {s₀ : State} (s : State) (p : Nat) (hk : Keeps km kf ku s₀ s) :
    Keeps km kf ku s₀ (State.lostFrame s p) := by
  unfold State.lostFrame
  repeat' (
    first
    | with_reducible assumption | with_reducible apply State.sendNak_keeps | with_reducible apply State.updLk_keeps
    | with_reducible apply Keeps.ite | intro _ _ _ _ _ | intro _ _ _ _ | intro _ _ _ | intro _ _ | split
    | with_reducible apply Keeps.fields)

theorem State.acceptSeq_keeps {km kf ku : Bool} {s₀ : State} (s : State) (p seq : Nat) (hk : Keeps km kf ku s₀ s) :
    Keeps km kf ku s₀ (State.acceptSeq s p seq) := by
  unfold State.acceptSeq
  repeat' (
    first
    | with_reducible assumption | with_reducible apply State.sendAck_keeps | with_reducible apply State.updLk_keeps
    | with_reducible apply Keeps.ite | intro _ _ _ _ _ | intro _ _ _ _ | intro _ _ _ | intro _ _ | split
    | with_reducible apply Keeps.fields)

theorem State.controlBlock_keeps {km kf ku : Bool} {s₀ : State} (s : State) (p : Nat) (b : List Byte) (hk : Keeps km kf ku s₀ s) :
    Keeps km kf ku s₀ (State.controlBlock s p b) := by
  unfold State.controlBlock
  repeat' (
    first
    | with_reducible assumption | with_reducible apply State.ackRow_keeps | with_reducible apply State.creditRow_keeps
    | with_reducible apply State.ctl_keeps | with_reducible apply State.dozeAck_keeps
    | with_reducible apply State.dozeCancel_keeps | with_reducible apply State.dozeReq_keeps
    | with_reducible apply State.nakRow_keeps | with_reducible apply State.pulse_keeps
    | with_reducible apply State.trainRow_keeps | with_reducible apply State.widthReq_keeps | with_reducible apply Keeps.ite
    | intro _ _ _ _ _ | intro _ _ _ _ | intro _ _ _ | intro _ _ | split | with_reducible apply Keeps.fields)

theorem State.dataFrame_keeps {km kf ku : Bool} {s₀ : State} (s : State) (p : Nat) (f : RxFrame) (hk : Keeps km kf ku s₀ s) :
    Keeps km kf ku s₀ (State.dataFrame s p f) := by
  unfold State.dataFrame
  repeat' (
    first
    | with_reducible assumption | with_reducible apply State.acceptSeq_keeps | with_reducible apply State.ackFrames_keeps
    | with_reducible apply State.controlBlock_keeps | with_reducible apply State.ctl_keeps
    | with_reducible apply State.inc_keeps | with_reducible apply State.lostFrame_keeps
    | with_reducible apply State.record_keeps | with_reducible apply State.sendAck_keeps
    | with_reducible apply State.sendNak_keeps | with_reducible apply Keeps.ite | intro _ _ _ _ _ | intro _ _ _ _ | intro _ _ _
    | intro _ _ | split | with_reducible apply Keeps.fields)

theorem execDataFrame_keeps {km kf ku : Bool} (p : LinkId) (f : RxFrame) (s : State) :
    OutKeeps km kf ku s (execDataFrame p f s) := by
  unfold execDataFrame
  repeat' (
    first
    | with_reducible assumption | with_reducible exact Keeps.refl _ | with_reducible apply OutKeeps.next
    | with_reducible apply OutKeeps.ite | with_reducible apply State.dataFrame_keeps | with_reducible apply State.pump_keeps
    | with_reducible apply Keeps.inMain | with_reducible apply Keeps.ite | intro _ _ _ _ _ | intro _ _ _ _ | intro _ _ _
    | intro _ _ | split | with_reducible apply Keeps.fields)

theorem execPeriodStart_keeps {km kf ku : Bool} (p : LinkId) (s : State) : OutKeeps km kf ku s (execPeriodStart p s) := by
  unfold execPeriodStart
  repeat' (
    first
    | with_reducible assumption | with_reducible exact Keeps.refl _ | with_reducible apply OutKeeps.next
    | with_reducible apply OutKeeps.ite | with_reducible apply State.flush_keeps | with_reducible apply State.pump_keeps
    | with_reducible apply State.replayLink_keeps | with_reducible apply State.send_keeps
    | with_reducible apply State.updLk_keeps | with_reducible apply State.widthChanged_keeps
    | with_reducible apply State.wr_keeps | with_reducible apply Keeps.inMain | with_reducible apply Keeps.ite | intro _ _ _ _ _
    | intro _ _ _ _ | intro _ _ _ | intro _ _ | split | with_reducible apply Keeps.fields)

theorem execLaneMarker_keeps {km kf ku : Bool} (p : LinkId) (i : LaneId) (m : Marker) (s : State) :
    OutKeeps km kf ku s (execLaneMarker p i m s) := by
  unfold execLaneMarker
  repeat' (
    first
    | with_reducible assumption | with_reducible exact Keeps.refl _ | with_reducible apply OutKeeps.next
    | with_reducible apply OutKeeps.ite | with_reducible apply State.laneMarker_keeps | with_reducible apply State.pump_keeps
    | with_reducible apply Keeps.inMain | with_reducible apply Keeps.ite | intro _ _ _ _ _ | intro _ _ _ _ | intro _ _ _
    | intro _ _ | split | with_reducible apply Keeps.fields)

theorem execCdrLockLoss_keeps {km kf ku : Bool} (p : LinkId) (i : LaneId) (s : State) :
    OutKeeps km kf ku s (execCdrLockLoss p i s) := by
  unfold execCdrLockLoss
  repeat' (
    first
    | with_reducible assumption | with_reducible exact Keeps.refl _ | with_reducible apply OutKeeps.next
    | with_reducible apply OutKeeps.ite | with_reducible apply State.laneUnlocked_keeps | with_reducible apply Keeps.inMain
    | with_reducible apply Keeps.ite | intro _ _ _ _ _ | intro _ _ _ _ | intro _ _ _ | intro _ _ | split
    | with_reducible apply Keeps.fields)

theorem execUncorrectableCodeword_keeps {km kf ku : Bool} (p : LinkId) (i : LaneId) (good : Nat) (s : State) :
    OutKeeps km kf ku s (execUncorrectableCodeword p i good s) := by
  unfold execUncorrectableCodeword
  repeat' (
    first
    | with_reducible assumption | with_reducible exact Keeps.refl _ | with_reducible apply OutKeeps.next
    | with_reducible apply OutKeeps.ite | with_reducible apply State.inc_keeps | with_reducible apply State.laneUnlocked_keeps
    | with_reducible apply State.updLane_keeps | with_reducible apply Keeps.inMain | with_reducible apply Keeps.ite
    | intro _ _ _ _ _ | intro _ _ _ _ | intro _ _ _ | intro _ _ | split | with_reducible apply Keeps.fields)

theorem execWidthSwitchTimeout_keeps {km kf ku : Bool} (p : LinkId) (s : State) :
    OutKeeps km kf ku s (execWidthSwitchTimeout p s) := by
  unfold execWidthSwitchTimeout
  repeat' (
    first
    | with_reducible assumption | with_reducible exact Keeps.refl _ | with_reducible apply OutKeeps.next
    | with_reducible apply OutKeeps.ite | with_reducible apply State.askWidth_keeps | with_reducible apply State.train_keeps
    | with_reducible apply Keeps.inMain | with_reducible apply Keeps.ite | intro _ _ _ _ _ | intro _ _ _ _ | intro _ _ _
    | intro _ _ | split | with_reducible apply Keeps.fields)

theorem execLaneOfferBack_keeps {km kf ku : Bool} (p : LinkId) (i : LaneId) (s : State) :
    OutKeeps km kf ku s (execLaneOfferBack p i s) := by
  unfold execLaneOfferBack
  repeat' (
    first
    | with_reducible assumption | with_reducible exact Keeps.refl _ | with_reducible apply OutKeeps.next
    | with_reducible apply OutKeeps.ite | with_reducible apply State.askWidth_keeps | with_reducible apply Keeps.inMain
    | with_reducible apply Keeps.ite | intro _ _ _ _ _ | intro _ _ _ _ | intro _ _ _ | intro _ _ | split
    | with_reducible apply Keeps.fields)

theorem execAckTimer_keeps {km kf ku : Bool} (p : LinkId) (s : State) : OutKeeps km kf ku s (execAckTimer p s) := by
  unfold execAckTimer
  repeat' (
    first
    | with_reducible assumption | with_reducible exact Keeps.refl _ | with_reducible apply OutKeeps.next
    | with_reducible apply OutKeeps.ite | with_reducible apply State.sendAck_keeps | with_reducible apply Keeps.inMain
    | with_reducible apply Keeps.ite | intro _ _ _ _ _ | intro _ _ _ _ | intro _ _ _ | intro _ _ | split
    | with_reducible apply Keeps.fields)

theorem execReplayTimeout_keeps {km kf ku : Bool} (p : LinkId) (s : State) : OutKeeps km kf ku s (execReplayTimeout p s) := by
  unfold execReplayTimeout
  repeat' (
    first
    | with_reducible assumption | with_reducible exact Keeps.refl _ | with_reducible apply OutKeeps.next
    | with_reducible apply OutKeeps.ite | with_reducible apply State.inc_keeps | with_reducible apply State.pump_keeps
    | with_reducible apply State.replayLink_keeps | with_reducible apply Keeps.inMain | with_reducible apply Keeps.ite
    | intro _ _ _ _ _ | intro _ _ _ _ | intro _ _ _ | intro _ _ | split | with_reducible apply Keeps.fields)

theorem execNakResend_keeps {km kf ku : Bool} (p : LinkId) (s : State) : OutKeeps km kf ku s (execNakResend p s) := by
  unfold execNakResend
  repeat' (
    first
    | with_reducible assumption | with_reducible exact Keeps.refl _ | with_reducible apply OutKeeps.next
    | with_reducible apply OutKeeps.ite | with_reducible apply State.sendNak_keeps | with_reducible apply Keeps.inMain
    | with_reducible apply Keeps.ite | intro _ _ _ _ _ | intro _ _ _ _ | intro _ _ _ | intro _ _ | split
    | with_reducible apply Keeps.fields)

theorem execPulseTimer_keeps {km kf ku : Bool} (p : LinkId) (s : State) : OutKeeps km kf ku s (execPulseTimer p s) := by
  unfold execPulseTimer
  repeat' (
    first
    | with_reducible assumption | with_reducible exact Keeps.refl _ | with_reducible apply OutKeeps.next
    | with_reducible apply OutKeeps.ite | with_reducible apply State.control_keeps | with_reducible apply State.updLk_keeps
    | with_reducible apply Keeps.inMain | with_reducible apply Keeps.ite | intro _ _ _ _ _ | intro _ _ _ _ | intro _ _ _
    | intro _ _ | split | with_reducible apply Keeps.fields)

theorem execLinkSilence_keeps {km kf ku : Bool} (p : LinkId) (s : State) : OutKeeps km kf ku s (execLinkSilence p s) := by
  unfold execLinkSilence
  repeat' (
    first
    | with_reducible assumption | with_reducible exact Keeps.refl _ | with_reducible apply OutKeeps.next
    | with_reducible apply OutKeeps.ite | with_reducible apply State.pump_keeps | with_reducible apply State.silence_keeps
    | with_reducible apply Keeps.inMain | with_reducible apply Keeps.ite | intro _ _ _ _ _ | intro _ _ _ _ | intro _ _ _
    | intro _ _ | split | with_reducible apply Keeps.fields)

theorem execDozeIdle_keeps {km kf ku : Bool} (p : LinkId) (s : State) : OutKeeps km kf ku s (execDozeIdle p s) := by
  unfold execDozeIdle
  repeat' (
    first
    | with_reducible assumption | with_reducible exact Keeps.refl _ | with_reducible apply OutKeeps.next
    | with_reducible apply OutKeeps.ite | with_reducible apply State.control_keeps | with_reducible apply State.updLk_keeps
    | with_reducible apply Keeps.inMain | with_reducible apply Keeps.ite | intro _ _ _ _ _ | intro _ _ _ _ | intro _ _ _
    | intro _ _ | split | with_reducible apply Keeps.fields)

theorem execDozeReqTimeout_keeps {km kf ku : Bool} (p : LinkId) (s : State) : OutKeeps km kf ku s (execDozeReqTimeout p s) := by
  unfold execDozeReqTimeout
  repeat' (
    first
    | with_reducible assumption | with_reducible exact Keeps.refl _ | with_reducible apply OutKeeps.next
    | with_reducible apply OutKeeps.ite | with_reducible apply State.flush_keeps | with_reducible apply State.updLk_keeps
    | with_reducible apply Keeps.inMain | with_reducible apply Keeps.ite | intro _ _ _ _ _ | intro _ _ _ _ | intro _ _ _
    | intro _ _ | split | with_reducible apply Keeps.fields)

theorem execSignalLoss_keeps {km kf ku : Bool} (p : LinkId) (s : State) : OutKeeps km kf ku s (execSignalLoss p s) := by
  unfold execSignalLoss
  repeat' (
    first
    | with_reducible assumption | with_reducible exact Keeps.refl _ | with_reducible apply OutKeeps.next
    | with_reducible apply OutKeeps.ite | with_reducible apply State.inc_keeps | with_reducible apply State.send_keeps
    | with_reducible apply State.setLnk_keeps | with_reducible apply State.updLk_keeps | with_reducible apply Keeps.inMain
    | with_reducible apply Keeps.ite | intro _ _ _ _ _ | intro _ _ _ _ | intro _ _ _ | intro _ _ | split
    | with_reducible apply Keeps.fields)

theorem execWakeBurst_keeps {km kf ku : Bool} (p : LinkId) (s : State) : OutKeeps km kf ku s (execWakeBurst p s) := by
  unfold execWakeBurst
  repeat' (
    first
    | with_reducible assumption | with_reducible exact Keeps.refl _ | with_reducible apply OutKeeps.next
    | with_reducible apply OutKeeps.ite | with_reducible apply State.wakeLink_keeps | with_reducible apply Keeps.inMain
    | with_reducible apply Keeps.ite | intro _ _ _ _ _ | intro _ _ _ _ | intro _ _ _ | intro _ _ | split
    | with_reducible apply Keeps.fields)

theorem execSignalDetect_keeps {km kf ku : Bool} (p : LinkId) (s : State) : OutKeeps km kf ku s (execSignalDetect p s) := by
  unfold execSignalDetect
  repeat' (
    first
    | with_reducible assumption | with_reducible exact Keeps.refl _ | with_reducible apply OutKeeps.next
    | with_reducible apply OutKeeps.ite | with_reducible apply State.updLk_keeps | with_reducible apply State.wakeLink_keeps
    | with_reducible apply Keeps.inMain | with_reducible apply Keeps.ite | intro _ _ _ _ _ | intro _ _ _ _ | intro _ _ _
    | intro _ _ | split | with_reducible apply Keeps.fields)

theorem execFastRelockTimeout_keeps {km kf ku : Bool} (p : LinkId) (i : LaneId) (s : State) :
    OutKeeps km kf ku s (execFastRelockTimeout p i s) := by
  unfold execFastRelockTimeout
  repeat' (
    first
    | with_reducible assumption | with_reducible exact Keeps.refl _ | with_reducible apply OutKeeps.next
    | with_reducible apply OutKeeps.ite | with_reducible apply State.fullRelock_keeps | with_reducible apply State.inc_keeps
    | with_reducible apply Keeps.inMain | with_reducible apply Keeps.ite | intro _ _ _ _ _ | intro _ _ _ _ | intro _ _ _
    | intro _ _ | split | with_reducible apply Keeps.fields)

theorem execBeaconTimer_keeps {km kf ku : Bool} (p : LinkId) (s : State) : OutKeeps km kf ku s (execBeaconTimer p s) := by
  unfold execBeaconTimer
  repeat' (
    first
    | with_reducible assumption | with_reducible exact Keeps.refl _ | with_reducible apply OutKeeps.next
    | with_reducible apply OutKeeps.ite | with_reducible apply State.send_keeps | with_reducible apply Keeps.inMain
    | with_reducible apply Keeps.ite | intro _ _ _ _ _ | intro _ _ _ _ | intro _ _ _ | intro _ _ | split
    | with_reducible apply Keeps.fields)

theorem execLinkBeacon_keeps {km kf ku : Bool} (p : LinkId) (timeNs : Nat) (s : State) :
    OutKeeps km kf ku s (execLinkBeacon p timeNs s) := by
  unfold execLinkBeacon
  repeat' (
    first
    | with_reducible assumption | with_reducible exact Keeps.refl _ | with_reducible apply OutKeeps.next
    | with_reducible apply OutKeeps.ite | with_reducible apply State.inc_keeps | with_reducible apply State.lnkRecord_keeps
    | with_reducible apply State.updLk_keeps | with_reducible apply State.wakeLink_keeps | with_reducible apply State.wr_keeps
    | with_reducible apply Keeps.inMain | with_reducible apply Keeps.ite | intro _ _ _ _ _ | intro _ _ _ _ | intro _ _ _
    | intro _ _ | split | with_reducible apply Keeps.fields)

theorem execBeaconTimeout_keeps {km kf ku : Bool} (p : LinkId) (s : State) : OutKeeps km kf ku s (execBeaconTimeout p s) := by
  unfold execBeaconTimeout
  repeat' (
    first
    | with_reducible assumption | with_reducible exact Keeps.refl _ | with_reducible apply OutKeeps.next
    | with_reducible apply OutKeeps.ite | with_reducible apply State.wakeLink_keeps | with_reducible apply Keeps.inMain
    | with_reducible apply Keeps.ite | intro _ _ _ _ _ | intro _ _ _ _ | intro _ _ _ | intro _ _ | split
    | with_reducible apply Keeps.fields)

theorem execWakeTimeout_keeps {km kf ku : Bool} (p : LinkId) (s : State) : OutKeeps km kf ku s (execWakeTimeout p s) := by
  unfold execWakeTimeout
  repeat' (
    first
    | with_reducible assumption | with_reducible exact Keeps.refl _ | with_reducible apply OutKeeps.next
    | with_reducible apply OutKeeps.ite | with_reducible apply State.fullRelock_keeps | with_reducible apply State.pump_keeps
    | with_reducible apply State.silence_keeps | with_reducible apply Keeps.inMain | with_reducible apply Keeps.ite
    | intro _ _ _ _ _ | intro _ _ _ _ | intro _ _ _ | intro _ _ | split | with_reducible apply Keeps.fields)

theorem State.linkEnable_keeps {km kf ku : Bool} {s₀ : State} (s : State) (p : Nat) (hk : Keeps km kf ku s₀ s) :
    Keeps km kf ku s₀ (State.linkEnable s p) := by
  unfold State.linkEnable
  repeat' (
    first
    | with_reducible assumption | with_reducible apply State.train_keeps | with_reducible apply State.wr_keeps
    | with_reducible apply Keeps.ite | intro _ _ _ _ _ | intro _ _ _ _ | intro _ _ _ | intro _ _ | split
    | with_reducible apply Keeps.fields)

theorem State.linkDown_keeps {km kf ku : Bool} {s₀ : State} (s : State) (p : Nat) (hk : Keeps km kf ku s₀ s) :
    Keeps km kf ku s₀ (State.linkDown s p) := by
  unfold State.linkDown
  repeat' (
    first
    | with_reducible assumption | with_reducible apply State.dropBuffer_keeps | with_reducible apply State.send_keeps
    | with_reducible apply State.setLnk_keeps | with_reducible apply Keeps.setReg | with_reducible apply State.updLk_keeps
    | with_reducible apply State.wr_keeps | with_reducible apply Keeps.ite | intro _ _ _ _ _ | intro _ _ _ _ | intro _ _ _
    | intro _ _ | split | with_reducible apply Keeps.fields)

theorem State.laneMaskChanged_keeps {km kf ku : Bool} {s₀ : State} (s : State) (p : Nat) (hk : Keeps km kf ku s₀ s) :
    Keeps km kf ku s₀ (State.laneMaskChanged s p) := by
  unfold State.laneMaskChanged
  repeat' (
    first
    | with_reducible assumption | with_reducible apply State.askWidth_keeps | with_reducible apply State.fullRelock_keeps
    | with_reducible apply State.updLk_keeps | with_reducible apply Keeps.ite | intro _ _ _ _ _ | intro _ _ _ _ | intro _ _ _
    | intro _ _ | split | with_reducible apply Keeps.fields)

theorem State.writeLnkCtl_keeps {km kf ku : Bool} {s₀ : State} (s : State) (p : Nat) (v : Word) (hk : Keeps km kf ku s₀ s) :
    Keeps km kf ku s₀ (State.writeLnkCtl s p v) := by
  unfold State.writeLnkCtl
  repeat' (
    first
    | with_reducible assumption | with_reducible apply State.laneMaskChanged_keeps | with_reducible apply State.linkDown_keeps
    | with_reducible apply State.linkEnable_keeps | with_reducible apply State.record_keeps
    | with_reducible apply State.train_keeps | with_reducible apply State.wr_keeps | with_reducible apply Keeps.ite
    | intro _ _ _ _ _ | intro _ _ _ _ | intro _ _ _ | intro _ _ | split | with_reducible apply Keeps.fields)

theorem execLinkEnable_keeps {km kf ku : Bool} (p : LinkId) (s : State) : OutKeeps km kf ku s (execLinkEnable p s) := by
  unfold execLinkEnable
  repeat' (
    first
    | with_reducible assumption | with_reducible exact Keeps.refl _ | with_reducible apply OutKeeps.next
    | with_reducible apply OutKeeps.ite | with_reducible apply State.linkEnable_keeps | with_reducible apply Keeps.inMain
    | with_reducible apply Keeps.ite | intro _ _ _ _ _ | intro _ _ _ _ | intro _ _ _ | intro _ _ | split
    | with_reducible apply Keeps.fields)

theorem execLinkDown_keeps {km kf ku : Bool} (p : LinkId) (s : State) : OutKeeps km kf ku s (execLinkDown p s) := by
  unfold execLinkDown
  repeat' (
    first
    | with_reducible assumption | with_reducible exact Keeps.refl _ | with_reducible apply OutKeeps.next
    | with_reducible apply OutKeeps.ite | with_reducible apply State.linkDown_keeps | with_reducible apply State.pump_keeps
    | with_reducible apply Keeps.inMain | with_reducible apply Keeps.ite | intro _ _ _ _ _ | intro _ _ _ _ | intro _ _ _
    | intro _ _ | split | with_reducible apply Keeps.fields)

theorem execRetrain_keeps {km kf ku : Bool} (p : LinkId) (s : State) : OutKeeps km kf ku s (execRetrain p s) := by
  unfold execRetrain
  repeat' (
    first
    | with_reducible assumption | with_reducible exact Keeps.refl _ | with_reducible apply OutKeeps.next
    | with_reducible apply OutKeeps.ite | with_reducible apply State.pump_keeps | with_reducible apply State.train_keeps
    | with_reducible apply Keeps.inMain | with_reducible apply Keeps.ite | intro _ _ _ _ _ | intro _ _ _ _ | intro _ _ _
    | intro _ _ | split | with_reducible apply Keeps.fields)

theorem execTrainingTimeout_keeps {km kf ku : Bool} (p : LinkId) (s : State) :
    OutKeeps km kf ku s (execTrainingTimeout p s) := by
  unfold execTrainingTimeout
  repeat' (
    first
    | with_reducible assumption | with_reducible exact Keeps.refl _ | with_reducible apply OutKeeps.next
    | with_reducible apply OutKeeps.ite | with_reducible apply State.trainFailed_keeps | with_reducible apply Keeps.inMain
    | with_reducible apply Keeps.ite | intro _ _ _ _ _ | intro _ _ _ _ | intro _ _ _ | intro _ _ | split
    | with_reducible apply Keeps.fields)

theorem execTrainingRetry_keeps {km kf ku : Bool} (p : LinkId) (s : State) : OutKeeps km kf ku s (execTrainingRetry p s) := by
  unfold execTrainingRetry
  repeat' (
    first
    | with_reducible assumption | with_reducible exact Keeps.refl _ | with_reducible apply OutKeeps.next
    | with_reducible apply OutKeeps.ite | with_reducible apply State.train_keeps | with_reducible apply Keeps.inMain
    | with_reducible apply Keeps.ite | intro _ _ _ _ _ | intro _ _ _ _ | intro _ _ _ | intro _ _ | split
    | with_reducible apply Keeps.fields)

theorem execUnlockTimeout_keeps {km kf ku : Bool} (p : LinkId) (s : State) : OutKeeps km kf ku s (execUnlockTimeout p s) := by
  unfold execUnlockTimeout
  repeat' (
    first
    | with_reducible assumption | with_reducible exact Keeps.refl _ | with_reducible apply OutKeeps.next
    | with_reducible apply OutKeeps.ite | with_reducible apply State.pump_keeps | with_reducible apply State.train_keeps
    | with_reducible apply Keeps.inMain | with_reducible apply Keeps.ite | intro _ _ _ _ _ | intro _ _ _ _ | intro _ _ _
    | intro _ _ | split | with_reducible apply Keeps.fields)

theorem execLoadSample_keeps {km kf ku : Bool} (p : LinkId) (slotsTx dataTx slotsRx dataRx : Nat) (s : State) :
    OutKeeps km kf ku s (execLoadSample p slotsTx dataTx slotsRx dataRx s) := by
  unfold execLoadSample
  repeat' (
    first
    | with_reducible assumption | with_reducible exact Keeps.refl _ | with_reducible apply OutKeeps.next
    | with_reducible apply OutKeeps.ite | with_reducible apply State.retrim_keeps | with_reducible apply State.updLk_keeps
    | with_reducible apply State.wr_keeps | with_reducible apply Keeps.inMain | with_reducible apply Keeps.ite | intro _ _ _ _ _
    | intro _ _ _ _ | intro _ _ _ | intro _ _ | split | with_reducible apply Keeps.fields)

theorem execTrimReq_keeps {km kf ku : Bool} (p : LinkId) (s : State) : OutKeeps km kf ku s (execTrimReq p s) := by
  unfold execTrimReq
  repeat' (
    first
    | with_reducible assumption | with_reducible exact Keeps.refl _ | with_reducible apply OutKeeps.next
    | with_reducible apply OutKeeps.ite | with_reducible apply State.retrim_keeps | with_reducible apply Keeps.inMain
    | with_reducible apply Keeps.ite | intro _ _ _ _ _ | intro _ _ _ _ | intro _ _ _ | intro _ _ | split
    | with_reducible apply Keeps.fields)

theorem execTrimDone_keeps {km kf ku : Bool} (p : LinkId) (s : State) : OutKeeps km kf ku s (execTrimDone p s) := by
  unfold execTrimDone
  repeat' (
    first
    | with_reducible assumption | with_reducible exact Keeps.refl _ | with_reducible apply OutKeeps.next
    | with_reducible apply OutKeeps.ite | with_reducible apply State.pump_keeps | with_reducible apply State.trained_keeps
    | with_reducible apply State.trimLane_keeps | with_reducible apply State.updLk_keeps | with_reducible apply Keeps.inMain
    | with_reducible apply Keeps.ite | intro _ _ _ _ _ | intro _ _ _ _ | intro _ _ _ | intro _ _ | split
    | with_reducible apply Keeps.fields)

theorem execTrimWatchEnd_keeps {km kf ku : Bool} (p : LinkId) (before after : Nat) (s : State) :
    OutKeeps km kf ku s (execTrimWatchEnd p before after s) := by
  unfold execTrimWatchEnd
  repeat' (
    first
    | with_reducible assumption | with_reducible exact Keeps.refl _ | with_reducible apply OutKeeps.next
    | with_reducible apply OutKeeps.ite | with_reducible apply State.askWidth_keeps | with_reducible apply State.lnkRecord_keeps
    | with_reducible apply State.send_keeps | with_reducible apply State.updLane_keeps | with_reducible apply State.updLk_keeps
    | with_reducible apply Keeps.inMain | with_reducible apply Keeps.ite | intro _ _ _ _ _ | intro _ _ _ _ | intro _ _ _
    | intro _ _ | split | with_reducible apply Keeps.fields)

theorem execMarginCheck_keeps {km kf ku : Bool} (p : LinkId) (i : LaneId) (corrected worst e4 e8 e12 : Nat) (s : State) :
    OutKeeps km kf ku s (execMarginCheck p i corrected worst e4 e8 e12 s) := by
  unfold execMarginCheck
  repeat' (
    first
    | with_reducible assumption | with_reducible exact Keeps.refl _ | with_reducible apply OutKeeps.next
    | with_reducible apply OutKeeps.ite | with_reducible apply State.add_keeps | with_reducible apply State.lnkRecord_keeps
    | with_reducible apply State.raise_keeps | with_reducible apply State.startTrim_keeps
    | with_reducible apply State.updLane_keeps | with_reducible apply State.updLk_keeps | with_reducible apply State.wr_keeps
    | with_reducible apply Keeps.inMain | with_reducible apply Keeps.ite | intro _ _ _ _ _ | intro _ _ _ _ | intro _ _ _
    | intro _ _ | split | with_reducible apply Keeps.fields)

end Sys2Proof.Machine
end

