-- ==== Sys2Proof/Laws/KeepsRouterRows.lean ====
section
/-! SUPPORT. What the operations of Machine/RouterRows.lean keep (the relation Keeps). -/
set_option linter.unusedTactic false
set_option linter.unreachableTactic false
set_option linter.unusedVariables false
namespace Sys2Proof.Machine

theorem execRouteFrame_keeps {km kf ku : Bool} (inPort : Fin 44) (f : Frame) (stomped : Bool) (s : State) :
    OutKeeps km kf ku s (execRouteFrame inPort f stomped s) := by
  unfold execRouteFrame
  repeat' (
    first
    | with_reducible assumption | with_reducible exact Keeps.refl _ | with_reducible apply OutKeeps.next
    | with_reducible apply OutKeeps.ite | with_reducible apply State.routeFrame_keeps
    | with_reducible apply State.throttle_keeps | with_reducible apply Keeps.inMain | with_reducible apply Keeps.ite
    | intro _ _ _ _ _ | intro _ _ _ _ | intro _ _ _ | intro _ _ | split | with_reducible apply Keeps.fields)

theorem execEscwait_keeps {km kf ku : Bool} (f : Frame) (s : State) : OutKeeps km kf ku s (execEscwait f s) := by
  unfold execEscwait
  repeat' (
    first
    | with_reducible assumption | with_reducible exact Keeps.refl _ | with_reducible apply OutKeeps.next
    | with_reducible apply OutKeeps.ite | with_reducible apply State.routeFrame_keeps
    | with_reducible apply State.throttle_keeps | with_reducible apply Keeps.inMain | with_reducible apply Keeps.ite
    | intro _ _ _ _ _ | intro _ _ _ _ | intro _ _ _ | intro _ _ | split | with_reducible apply Keeps.fields)

theorem execCreditTimer_keeps {km kf ku : Bool} (p : LinkId) (s : State) : OutKeeps km kf ku s (execCreditTimer p s) := by
  unfold execCreditTimer
  repeat' (
    first
    | with_reducible assumption | with_reducible exact Keeps.refl _ | with_reducible apply OutKeeps.next
    | with_reducible apply OutKeeps.ite | with_reducible apply State.sendCredits_keeps | with_reducible apply Keeps.inMain
    | with_reducible apply Keeps.ite | intro _ _ _ _ _ | intro _ _ _ _ | intro _ _ _ | intro _ _ | split
    | with_reducible apply Keeps.fields)

theorem State.hostErr_keeps {km kf ku : Bool} {s₀ : State} (s : State) (h : Nat) (f : Frame) (code : Nat) (hk : Keeps km kf ku s₀ s) :
    Keeps km kf ku s₀ (State.hostErr s h f code) := by
  unfold State.hostErr
  repeat' (
    first
    | with_reducible assumption | with_reducible apply State.send_keeps | with_reducible apply Keeps.ite | intro _ _ _ _ _
    | intro _ _ _ _ | intro _ _ _ | intro _ _ | split | with_reducible apply Keeps.fields)

theorem execHostFrame_keeps {km kf ku : Bool} (h : HostId) (f : Frame) (s : State) :
    OutKeeps km kf ku s (execHostFrame h f s) := by
  unfold execHostFrame
  repeat' (
    first
    | with_reducible assumption | with_reducible exact Keeps.refl _ | with_reducible apply OutKeeps.next
    | with_reducible apply OutKeeps.ite | with_reducible apply State.hostErr_keeps | with_reducible apply State.inc_keeps
    | with_reducible apply State.routeFrame_keeps | with_reducible apply State.throttle_keeps
    | with_reducible apply Keeps.inMain | with_reducible apply Keeps.ite | intro _ _ _ _ _ | intro _ _ _ _ | intro _ _ _
    | intro _ _ | split | with_reducible apply Keeps.fields)

theorem execHostCreditReturn_keeps {km kf ku : Bool} (h : HostId) (vc2 vc6 : Nat) (s : State) :
    OutKeeps km kf ku s (execHostCreditReturn h vc2 vc6 s) := by
  unfold execHostCreditReturn
  repeat' (
    first
    | with_reducible assumption | with_reducible exact Keeps.refl _ | with_reducible apply OutKeeps.next
    | with_reducible apply OutKeeps.ite | with_reducible apply State.pump_keeps | with_reducible apply Keeps.inMain
    | with_reducible apply Keeps.ite | intro _ _ _ _ _ | intro _ _ _ _ | intro _ _ _ | intro _ _ | split
    | with_reducible apply Keeps.fields)

theorem State.homeAnswer_keeps {km kf ku : Bool} {s₀ : State} (s : State) (f : Frame) (name : String) (args : List Nat) (data : List Byte) (hk : Keeps km kf ku s₀ s) :
    Keeps km kf ku s₀ (State.homeAnswer s f name args data) := by
  unfold State.homeAnswer
  repeat' (
    first
    | with_reducible assumption | with_reducible apply State.toNode_keeps | with_reducible apply Keeps.ite | intro _ _ _ _ _
    | intro _ _ _ _ | intro _ _ _ | intro _ _ | split | with_reducible apply Keeps.fields)

theorem State.homeErr_keeps {km kf ku : Bool} {s₀ : State} (s : State) (f : Frame) (code : Nat) (hk : Keeps km kf ku s₀ s) :
    Keeps km kf ku s₀ (State.homeErr s f code) := by
  unfold State.homeErr
  repeat' (
    first
    | with_reducible assumption | with_reducible apply State.homeAnswer_keeps | with_reducible apply Keeps.ite | intro _ _ _ _ _
    | intro _ _ _ _ | intro _ _ _ | intro _ _ | split | with_reducible apply Keeps.fields)

theorem State.readLine_keeps {kf ku : Bool} {s₀ : State} (s : State) (f : Frame) (hk : Keeps true kf ku s₀ s) :
    Keeps true kf ku s₀ (State.readLine s f) := by
  unfold State.readLine
  repeat' (
    first
    | with_reducible assumption | with_reducible apply State.homeAnswer_keeps | with_reducible apply State.homeErr_keeps
    | with_reducible apply State.readFailed_keeps | with_reducible apply State.readShard_keeps
    | with_reducible apply State.useFree_keeps | with_reducible apply Keeps.ite | intro _ _ _ _ _ | intro _ _ _ _ | intro _ _ _
    | intro _ _ | split | with_reducible apply Keeps.fields)

theorem execLrd_keeps {kf ku : Bool} (f : Frame) (s : State) : OutKeeps true kf ku s (execLrd f s) := by
  unfold execLrd
  repeat' (
    first
    | with_reducible assumption | with_reducible exact Keeps.refl _ | with_reducible apply OutKeeps.next
    | with_reducible apply OutKeeps.ite | with_reducible apply State.homeErr_keeps | with_reducible apply State.inc_keeps
    | with_reducible apply State.readLine_keeps | with_reducible apply Keeps.inMain | with_reducible apply Keeps.ite
    | intro _ _ _ _ _ | intro _ _ _ _ | intro _ _ _ | intro _ _ | split | with_reducible apply Keeps.fields)

theorem execLwr_keeps {kf ku : Bool} (f : Frame) (s : State) : OutKeeps true kf ku s (execLwr f s) := by
  unfold execLwr
  repeat' (
    first
    | with_reducible assumption | with_reducible exact Keeps.refl _ | with_reducible apply OutKeeps.next
    | with_reducible apply OutKeeps.ite | with_reducible apply State.homeAnswer_keeps | with_reducible apply State.homeErr_keeps
    | with_reducible apply State.inc_keeps | with_reducible apply State.invalidate_keeps | with_reducible apply Keeps.writeBytes
    | with_reducible apply State.writeFailed_keeps | with_reducible apply Keeps.inMain | with_reducible apply Keeps.ite
    | intro _ _ _ _ _ | intro _ _ _ _ | intro _ _ _ | intro _ _ | split | with_reducible apply Keeps.fields)

theorem State.invTarget_keeps {kf ku : Bool} {s₀ : State} (s : State) (g lmn txid : Nat) (hk : Keeps true kf ku s₀ s) :
    Keeps true kf ku s₀ (State.invTarget s g lmn txid) := by
  unfold State.invTarget
  repeat' (
    first
    | with_reducible assumption | with_reducible apply State.settleApply_keeps | with_reducible apply State.toNode_keeps
    | with_reducible apply Keeps.ite | intro _ _ _ _ _ | intro _ _ _ _ | intro _ _ _ | intro _ _ | split
    | with_reducible apply Keeps.fields)

theorem execInvack_keeps {kf ku : Bool} (f : Frame) (s : State) : OutKeeps true kf ku s (execInvack f s) := by
  unfold execInvack
  repeat' (
    first
    | with_reducible assumption | with_reducible exact Keeps.refl _ | with_reducible apply OutKeeps.next
    | with_reducible apply OutKeeps.ite | with_reducible apply State.invTarget_keeps | with_reducible apply Keeps.inMain
    | with_reducible apply Keeps.ite | intro _ _ _ _ _ | intro _ _ _ _ | intro _ _ _ | intro _ _ | split
    | with_reducible apply Keeps.fields)

theorem execInvTimeout_keeps {kf ku : Bool} (g : GladeId) (lmn txid : Nat) (s : State) :
    OutKeeps true kf ku s (execInvTimeout g lmn txid s) := by
  unfold execInvTimeout
  repeat' (
    first
    | with_reducible assumption | with_reducible exact Keeps.refl _ | with_reducible apply OutKeeps.next
    | with_reducible apply OutKeeps.ite | with_reducible apply State.inc_keeps | with_reducible apply State.invTarget_keeps
    | with_reducible apply State.record_keeps | with_reducible apply Keeps.inMain | with_reducible apply Keeps.ite
    | intro _ _ _ _ _ | intro _ _ _ _ | intro _ _ _ | intro _ _ | split | with_reducible apply Keeps.fields)

theorem execInv_keeps {km kf ku : Bool} (f : Frame) (s : State) : OutKeeps km kf ku s (execInv f s) := by
  unfold execInv
  repeat' (
    first
    | with_reducible assumption | with_reducible exact Keeps.refl _ | with_reducible apply OutKeeps.next
    | with_reducible apply OutKeeps.ite | with_reducible apply State.homeAnswer_keeps
    | with_reducible apply State.hostSend_keeps | with_reducible apply Keeps.each | with_reducible apply Keeps.inMain
    | with_reducible apply Keeps.ite | intro _ _ _ _ _ | intro _ _ _ _ | intro _ _ _ | intro _ _ | split
    | with_reducible apply Keeps.fields)

theorem State.answered_keeps {km kf ku : Bool} {s₀ : State} (s : State) (f : Frame) (k : State → Access → State) (hk : Keeps km kf ku s₀ s) (hf : ∀ v x0, Keeps km kf ku s₀ v → Keeps km kf ku s₀ (k v x0)) :
    Keeps km kf ku s₀ (State.answered s f k) := by
  unfold State.answered
  repeat' (
    first
    | with_reducible assumption | with_reducible apply State.inc_keeps | with_reducible apply hf
    | with_reducible apply Keeps.ite | intro _ _ _ _ _ | intro _ _ _ _ | intro _ _ _ | intro _ _ | split
    | with_reducible apply Keeps.fields)

theorem State.endAccess_keeps {km kf ku : Bool} {s₀ : State} (s : State) (a : Access) (hk : Keeps km kf ku s₀ s) :
    Keeps km kf ku s₀ (State.endAccess s a) := by
  unfold State.endAccess
  repeat' (
    first
    | with_reducible assumption | with_reducible apply Keeps.ite | intro _ _ _ _ _ | intro _ _ _ _ | intro _ _ _ | intro _ _
    | split | with_reducible apply Keeps.fields)

theorem State.toRequester_keeps {km kf ku : Bool} {s₀ : State} (s : State) (a : Access) (f : Frame) (hk : Keeps km kf ku s₀ s) :
    Keeps km kf ku s₀ (State.toRequester s a f) := by
  unfold State.toRequester
  repeat' (
    first
    | with_reducible assumption | with_reducible apply State.handOver_keeps | with_reducible apply State.hostSend_keeps
    | with_reducible apply Keeps.ite | intro _ _ _ _ _ | intro _ _ _ _ | intro _ _ _ | intro _ _ | split
    | with_reducible apply Keeps.fields)

theorem execLrsp_keeps {km kf ku : Bool} (f : Frame) (s : State) : OutKeeps km kf ku s (execLrsp f s) := by
  unfold execLrsp
  repeat' (
    first
    | with_reducible assumption | with_reducible exact Keeps.refl _ | with_reducible apply OutKeeps.next
    | with_reducible apply OutKeeps.ite | with_reducible apply State.answered_keeps | with_reducible apply State.endAccess_keeps
    | with_reducible apply State.toRequester_keeps | with_reducible apply Keeps.inMain | with_reducible apply Keeps.ite
    | intro _ _ _ _ _ | intro _ _ _ _ | intro _ _ _ | intro _ _ | split | with_reducible apply Keeps.fields)

theorem execLwack_keeps {km kf ku : Bool} (f : Frame) (s : State) : OutKeeps km kf ku s (execLwack f s) := by
  unfold execLwack
  repeat' (
    first
    | with_reducible assumption | with_reducible exact Keeps.refl _ | with_reducible apply OutKeeps.next
    | with_reducible apply OutKeeps.ite | with_reducible apply State.answered_keeps | with_reducible apply State.endAccess_keeps
    | with_reducible apply State.toRequester_keeps | with_reducible apply Keeps.inMain | with_reducible apply Keeps.ite
    | intro _ _ _ _ _ | intro _ _ _ _ | intro _ _ _ | intro _ _ | split | with_reducible apply Keeps.fields)

theorem execErr_keeps {km kf ku : Bool} (f : Frame) (s : State) : OutKeeps km kf ku s (execErr f s) := by
  unfold execErr
  repeat' (
    first
    | with_reducible assumption | with_reducible exact Keeps.refl _ | with_reducible apply OutKeeps.next
    | with_reducible apply OutKeeps.ite | with_reducible apply State.answered_keeps | with_reducible apply State.endAccess_keeps
    | with_reducible apply State.toRequester_keeps | with_reducible apply Keeps.inMain | with_reducible apply Keeps.ite
    | intro _ _ _ _ _ | intro _ _ _ _ | intro _ _ _ | intro _ _ | split | with_reducible apply Keeps.fields)

theorem execNoroute_keeps {km kf ku : Bool} (pnid : BitVec 16) (s : State) : OutKeeps km kf ku s (execNoroute pnid s) := by
  unfold execNoroute
  repeat' (
    first
    | with_reducible assumption | with_reducible exact Keeps.refl _ | with_reducible apply OutKeeps.next
    | with_reducible apply OutKeeps.ite | with_reducible apply State.suspectNode_keeps | with_reducible apply Keeps.inMain
    | with_reducible apply Keeps.ite | intro _ _ _ _ _ | intro _ _ _ _ | intro _ _ _ | intro _ _ | split
    | with_reducible apply Keeps.fields)

theorem execHmsg_keeps {km kf ku : Bool} (f : Frame) (s : State) : OutKeeps km kf ku s (execHmsg f s) := by
  unfold execHmsg
  repeat' (
    first
    | with_reducible assumption | with_reducible exact Keeps.refl _ | with_reducible apply OutKeeps.next
    | with_reducible apply OutKeeps.ite | with_reducible apply State.hostSend_keeps | with_reducible apply Keeps.inMain
    | with_reducible apply Keeps.ite | intro _ _ _ _ _ | intro _ _ _ _ | intro _ _ _ | intro _ _ | split
    | with_reducible apply Keeps.fields)

theorem execReasmTimeout_keeps {km kf ku : Bool} (src txid : Nat) (s : State) :
    OutKeeps km kf ku s (execReasmTimeout src txid s) := by
  unfold execReasmTimeout
  repeat' (
    first
    | with_reducible assumption | with_reducible exact Keeps.refl _ | with_reducible apply OutKeeps.next
    | with_reducible apply OutKeeps.ite | with_reducible apply State.inc_keeps | with_reducible apply State.pump_keeps
    | with_reducible apply Keeps.inMain | with_reducible apply Keeps.ite | intro _ _ _ _ _ | intro _ _ _ _ | intro _ _ _
    | intro _ _ | split | with_reducible apply Keeps.fields)

theorem State.writeRtrSelf_keeps {km kf ku : Bool} {s₀ : State} (s : State) (v : Word) (hk : Keeps km kf ku s₀ s) :
    Keeps km kf ku s₀ (State.writeRtrSelf s v) := by
  unfold State.writeRtrSelf
  repeat' (
    first
    | with_reducible assumption | with_reducible apply State.train_keeps | with_reducible apply State.warnWrite_keeps
    | with_reducible apply State.wr_keeps | with_reducible apply Keeps.each | with_reducible apply Keeps.ite | intro _ _ _ _ _
    | intro _ _ _ _ | intro _ _ _ | intro _ _ | split | with_reducible apply Keeps.fields)

theorem State.writeRtrShape_keeps {km kf ku : Bool} {s₀ : State} (s : State) (v : Word) (hk : Keeps km kf ku s₀ s) :
    Keeps km kf ku s₀ (State.writeRtrShape s v) := by
  unfold State.writeRtrShape
  repeat' (
    first
    | with_reducible assumption | with_reducible apply State.guardedWrite_keeps | with_reducible apply Keeps.ite
    | intro _ _ _ _ _ | intro _ _ _ _ | intro _ _ _ | intro _ _ | split | with_reducible apply Keeps.fields)

theorem execPnidWrite_keeps {km kf ku : Bool} (value : Word) (s : State) : OutKeeps km kf ku s (execPnidWrite value s) := by
  unfold execPnidWrite
  repeat' (
    first
    | with_reducible assumption | with_reducible exact Keeps.refl _ | with_reducible apply OutKeeps.next
    | with_reducible apply OutKeeps.ite | with_reducible apply State.writeRtrSelf_keeps | with_reducible apply Keeps.inMain
    | with_reducible apply Keeps.ite | intro _ _ _ _ _ | intro _ _ _ _ | intro _ _ _ | intro _ _ | split
    | with_reducible apply Keeps.fields)

end Sys2Proof.Machine
end

