-- ==== Sys2Proof/Laws/KeepsSecurity.lean ====
section
/-! SUPPORT. What the operations of Machine/Security.lean keep (the relation Keeps). -/
set_option linter.unusedTactic false
set_option linter.unreachableTactic false
set_option linter.unusedVariables false
namespace Sys2Proof.Machine

theorem State.senseFuses_keeps {km kf ku : Bool} {s₀ : State} (s : State) (hk : Keeps km kf ku s₀ s) :
    Keeps km kf ku s₀ (State.senseFuses s) := by
  unfold State.senseFuses
  repeat' (
    first
    | with_reducible assumption | with_reducible apply Keeps.setReg | with_reducible apply State.wr_keeps
    | with_reducible apply Keeps.each | with_reducible apply Keeps.ite | intro _ _ _ _ _ | intro _ _ _ _ | intro _ _ _
    | intro _ _ | split | with_reducible apply Keeps.fields)

theorem State.startBurn_keeps {km kf ku : Bool} {s₀ : State} (s : State) (b : Burn) (hk : Keeps km kf ku s₀ s) :
    Keeps km kf ku s₀ (State.startBurn s b) := by
  unfold State.startBurn
  repeat' (
    first
    | with_reducible assumption | with_reducible apply State.wr_keeps | with_reducible apply Keeps.ite | intro _ _ _ _ _
    | intro _ _ _ _ | intro _ _ _ | intro _ _ | split | with_reducible apply Keeps.fields)

theorem State.burnBits_keeps {km kf : Bool} {s₀ : State} (s : State) (l : List (Nat × Nat)) (hk : Keeps km kf true s₀ s) :
    Keeps km kf true s₀ (State.burnBits s l) := by
  unfold State.burnBits
  repeat' (
    first
    | with_reducible assumption | with_reducible apply Keeps.burnFuse | with_reducible apply Keeps.each
    | with_reducible apply Keeps.ite | intro _ _ _ _ _ | intro _ _ _ _ | intro _ _ _ | intro _ _ | split
    | with_reducible apply Keeps.fields)

theorem State.lifeCycle_keeps {km kf ku : Bool} {s₀ : State} (s : State) (target confirm : Nat) (hk : Keeps km kf ku s₀ s) :
    Keeps km kf ku s₀ (State.lifeCycle s target confirm) := by
  unfold State.lifeCycle
  repeat' (
    first
    | with_reducible assumption | with_reducible apply State.record_keeps | with_reducible apply State.startBurn_keeps
    | with_reducible apply State.useFree_keeps | with_reducible apply Keeps.ite | intro _ _ _ _ _ | intro _ _ _ _ | intro _ _ _
    | intro _ _ | split | with_reducible apply Keeps.fields)

theorem State.groupBurn_keeps {kf ku : Bool} {s₀ : State} (s : State) (grp addr : Nat) (hk : Keeps true kf ku s₀ s) :
    Keeps true kf ku s₀ (State.groupBurn s grp addr) := by
  unfold State.groupBurn
  repeat' (
    first
    | with_reducible assumption | with_reducible apply State.readCheck_keeps | with_reducible apply State.startBurn_keeps
    | with_reducible apply State.wr_keeps | with_reducible apply Keeps.ite | intro _ _ _ _ _ | intro _ _ _ _ | intro _ _ _
    | intro _ _ | split | with_reducible apply Keeps.fields)

theorem State.burnDone_keeps {km kf : Bool} {s₀ : State} (s : State) (hk : Keeps km kf true s₀ s) :
    Keeps km kf true s₀ (State.burnDone s) := by
  unfold State.burnDone
  repeat' (
    first
    | with_reducible assumption | with_reducible apply State.burnBits_keeps | with_reducible apply State.wr_keeps
    | with_reducible apply Keeps.ite | intro _ _ _ _ _ | intro _ _ _ _ | intro _ _ _ | intro _ _ | split
    | with_reducible apply Keeps.fields)

theorem State.burnCut_keeps {km kf : Bool} {s₀ : State} (s : State) (hk : Keeps km kf true s₀ s) :
    Keeps km kf true s₀ (State.burnCut s) := by
  unfold State.burnCut
  repeat' (
    first
    | with_reducible assumption | with_reducible apply State.burnBits_keeps | with_reducible apply State.useFree_keeps
    | with_reducible apply Keeps.ite | intro _ _ _ _ _ | intro _ _ _ _ | intro _ _ _ | intro _ _ | split
    | with_reducible apply Keeps.fields)

theorem execEnterManufacturing_keeps {km kf ku : Bool} (confirm : BitVec 32) (s : State) :
    OutKeeps km kf ku s (execEnterManufacturing confirm s) := by
  unfold execEnterManufacturing
  repeat' (
    first
    | with_reducible assumption | with_reducible exact Keeps.refl _ | with_reducible apply OutKeeps.next
    | with_reducible apply OutKeeps.ite | with_reducible apply State.lifeCycle_keeps | with_reducible apply Keeps.inAo
    | with_reducible apply Keeps.ite | intro _ _ _ _ _ | intro _ _ _ _ | intro _ _ _ | intro _ _ | split
    | with_reducible apply Keeps.fields)

theorem execEnterProvisioned_keeps {km kf ku : Bool} (confirm : BitVec 32) (s : State) :
    OutKeeps km kf ku s (execEnterProvisioned confirm s) := by
  unfold execEnterProvisioned
  repeat' (
    first
    | with_reducible assumption | with_reducible exact Keeps.refl _ | with_reducible apply OutKeeps.next
    | with_reducible apply OutKeeps.ite | with_reducible apply State.lifeCycle_keeps | with_reducible apply Keeps.inAo
    | with_reducible apply Keeps.ite | intro _ _ _ _ _ | intro _ _ _ _ | intro _ _ _ | intro _ _ | split
    | with_reducible apply Keeps.fields)

theorem execEnterDeployed_keeps {km kf ku : Bool} (confirm : BitVec 32) (s : State) :
    OutKeeps km kf ku s (execEnterDeployed confirm s) := by
  unfold execEnterDeployed
  repeat' (
    first
    | with_reducible assumption | with_reducible exact Keeps.refl _ | with_reducible apply OutKeeps.next
    | with_reducible apply OutKeeps.ite | with_reducible apply State.lifeCycle_keeps | with_reducible apply Keeps.inAo
    | with_reducible apply Keeps.ite | intro _ _ _ _ _ | intro _ _ _ _ | intro _ _ _ | intro _ _ | split
    | with_reducible apply Keeps.fields)

theorem execEnterScrapped_keeps {km kf ku : Bool} (confirm : BitVec 32) (s : State) :
    OutKeeps km kf ku s (execEnterScrapped confirm s) := by
  unfold execEnterScrapped
  repeat' (
    first
    | with_reducible assumption | with_reducible exact Keeps.refl _ | with_reducible apply OutKeeps.next
    | with_reducible apply OutKeeps.ite | with_reducible apply State.lifeCycle_keeps | with_reducible apply Keeps.inAo
    | with_reducible apply Keeps.ite | intro _ _ _ _ _ | intro _ _ _ _ | intro _ _ _ | intro _ _ | split
    | with_reducible apply Keeps.fields)

theorem execGroupBurn_keeps {kf ku : Bool} (group : Fin 4) (addr : BitVec 44) (s : State) :
    OutKeeps true kf ku s (execGroupBurn group addr s) := by
  unfold execGroupBurn
  repeat' (
    first
    | with_reducible assumption | with_reducible exact Keeps.refl _ | with_reducible apply OutKeeps.next
    | with_reducible apply OutKeeps.ite | with_reducible apply State.groupBurn_keeps | with_reducible apply Keeps.inAo
    | with_reducible apply Keeps.ite | intro _ _ _ _ _ | intro _ _ _ _ | intro _ _ _ | intro _ _ | split
    | with_reducible apply Keeps.fields)

theorem execBurnDone_keeps {km kf : Bool} (s : State) : OutKeeps km kf true s (execBurnDone s) := by
  unfold execBurnDone
  repeat' (
    first
    | with_reducible assumption | with_reducible exact Keeps.refl _ | with_reducible apply OutKeeps.next
    | with_reducible apply OutKeeps.ite | with_reducible apply State.burnDone_keeps | with_reducible apply Keeps.inAo
    | with_reducible apply Keeps.ite | intro _ _ _ _ _ | intro _ _ _ _ | intro _ _ _ | intro _ _ | split
    | with_reducible apply Keeps.fields)

theorem execRootDerive_keeps {km kf ku : Bool} (s : State) : OutKeeps km kf ku s (execRootDerive s) := by
  unfold execRootDerive
  repeat' (
    first
    | with_reducible assumption | with_reducible exact Keeps.refl _ | with_reducible apply OutKeeps.next
    | with_reducible apply OutKeeps.ite | with_reducible apply Keeps.setReg | with_reducible apply State.wr_keeps
    | with_reducible apply Keeps.each | with_reducible apply Keeps.inMain | with_reducible apply Keeps.ite | intro _ _ _ _ _
    | intro _ _ _ _ | intro _ _ _ | intro _ _ | split | with_reducible apply Keeps.fields)

theorem State.keyLoad_keeps {kf ku : Bool} {s₀ : State} (s : State) (addr : Nat) (hk : Keeps true kf ku s₀ s) :
    Keeps true kf ku s₀ (State.keyLoad s addr) := by
  unfold State.keyLoad
  repeat' (
    first
    | with_reducible assumption | with_reducible apply State.inc_keeps | with_reducible apply State.readCheck_keeps
    | with_reducible apply State.record_keeps | with_reducible apply State.updKs_keeps | with_reducible apply State.wr_keeps
    | with_reducible apply Keeps.ite | intro _ _ _ _ _ | intro _ _ _ _ | intro _ _ _ | intro _ _ | split
    | with_reducible apply Keeps.fields)

theorem execKeyLoad_keeps {kf ku : Bool} (addr : BitVec 44) (s : State) : OutKeeps true kf ku s (execKeyLoad addr s) := by
  unfold execKeyLoad
  repeat' (
    first
    | with_reducible assumption | with_reducible exact Keeps.refl _ | with_reducible apply OutKeeps.next
    | with_reducible apply OutKeeps.ite | with_reducible apply State.keyLoad_keeps | with_reducible apply Keeps.inMain
    | with_reducible apply Keeps.ite | intro _ _ _ _ _ | intro _ _ _ _ | intro _ _ _ | intro _ _ | split
    | with_reducible apply Keeps.fields)

theorem State.debugUnlock_keeps {km kf ku : Bool} {s₀ : State} (s : State) (hk : Keeps km kf ku s₀ s) :
    Keeps km kf ku s₀ (State.debugUnlock s) := by
  unfold State.debugUnlock
  repeat' (
    first
    | with_reducible assumption | with_reducible apply State.forceFence_keeps | with_reducible apply State.wr_keeps
    | with_reducible apply Keeps.ite | intro _ _ _ _ _ | intro _ _ _ _ | intro _ _ _ | intro _ _ | split
    | with_reducible apply Keeps.fields)

theorem State.token_keeps {kf ku : Bool} {s₀ : State} (s : State) (addr : Nat) (hk : Keeps true kf ku s₀ s) :
    Keeps true kf ku s₀ (State.token s addr) := by
  unfold State.token
  repeat' (
    first
    | with_reducible assumption | with_reducible apply State.debugUnlock_keeps | with_reducible apply State.readCheck_keeps
    | with_reducible apply State.record_keeps | with_reducible apply State.startBurn_keeps | with_reducible apply State.wr_keeps
    | with_reducible apply Keeps.ite | intro _ _ _ _ _ | intro _ _ _ _ | intro _ _ _ | intro _ _ | split
    | with_reducible apply Keeps.fields)

theorem execDebugUnlock_keeps {kf ku : Bool} (addr : BitVec 44) (s : State) :
    OutKeeps true kf ku s (execDebugUnlock addr s) := by
  unfold execDebugUnlock
  repeat' (
    first
    | with_reducible assumption | with_reducible exact Keeps.refl _ | with_reducible apply OutKeeps.next
    | with_reducible apply OutKeeps.ite | with_reducible apply State.token_keeps | with_reducible apply Keeps.inMain
    | with_reducible apply Keeps.ite | intro _ _ _ _ _ | intro _ _ _ _ | intro _ _ _ | intro _ _ | split
    | with_reducible apply Keeps.fields)

theorem execEnterReturned_keeps {kf ku : Bool} (addr : BitVec 44) (s : State) :
    OutKeeps true kf ku s (execEnterReturned addr s) := by
  unfold execEnterReturned
  repeat' (
    first
    | with_reducible assumption | with_reducible exact Keeps.refl _ | with_reducible apply OutKeeps.next
    | with_reducible apply OutKeeps.ite | with_reducible apply State.token_keeps | with_reducible apply Keeps.inMain
    | with_reducible apply Keeps.ite | intro _ _ _ _ _ | intro _ _ _ _ | intro _ _ _ | intro _ _ | split
    | with_reducible apply Keeps.fields)

theorem execRevokeImageKey_keeps {kf ku : Bool} (addr : BitVec 44) (s : State) :
    OutKeeps true kf ku s (execRevokeImageKey addr s) := by
  unfold execRevokeImageKey
  repeat' (
    first
    | with_reducible assumption | with_reducible exact Keeps.refl _ | with_reducible apply OutKeeps.next
    | with_reducible apply OutKeeps.ite | with_reducible apply State.token_keeps | with_reducible apply Keeps.inMain
    | with_reducible apply Keeps.ite | intro _ _ _ _ _ | intro _ _ _ _ | intro _ _ _ | intro _ _ | split
    | with_reducible apply Keeps.fields)

theorem execBurnIkh1_keeps {kf ku : Bool} (addr : BitVec 44) (s : State) : OutKeeps true kf ku s (execBurnIkh1 addr s) := by
  unfold execBurnIkh1
  repeat' (
    first
    | with_reducible assumption | with_reducible exact Keeps.refl _ | with_reducible apply OutKeeps.next
    | with_reducible apply OutKeeps.ite | with_reducible apply State.token_keeps | with_reducible apply Keeps.inMain
    | with_reducible apply Keeps.ite | intro _ _ _ _ _ | intro _ _ _ _ | intro _ _ _ | intro _ _ | split
    | with_reducible apply Keeps.fields)

end Sys2Proof.Machine
end

