-- ==== Sys2Proof/Laws/KeepsNvm.lean ====
section
/-! SUPPORT. What the operations of Machine/Nvm.lean keep (the relation Keeps). -/
set_option linter.unusedTactic false
set_option linter.unreachableTactic false
set_option linter.unusedVariables false
namespace Sys2Proof.Machine

theorem State.eraseFlash_keeps {km ku : Bool} {s₀ : State} (s : State) (a n : Nat) (h : Keeps km true ku s₀ s) :
    Keeps km true ku s₀ (State.eraseFlash s a n) :=
  ⟨h.pending, h.mem, nofun, h.fuses, h.memWf, fun e => swf_filter _ (h.flashWf e), h.fusesWf, h.regsWf, h.burnt⟩

theorem State.programFlash_keeps {km ku : Bool} {s₀ : State} (s : State) (a : Nat) (l : List Byte) (h : Keeps km true ku s₀ s) :
    Keeps km true ku s₀ (State.programFlash s a l) := by
  induction l generalizing s a with
  | nil => exact h
  | cons b r ih => exact ih _ _ (Keeps.setFlashByte h _ _)

theorem State.spoilFlash_keeps {km ku : Bool} {s₀ : State} (s : State) (a n : Nat) (hk : Keeps km true ku s₀ s) :
    Keeps km true ku s₀ (State.spoilFlash s a n) := by
  unfold State.spoilFlash
  repeat' (
    first
    | with_reducible assumption | with_reducible apply Keeps.setFlashByte | with_reducible apply State.useFree_keeps
    | with_reducible apply Keeps.each | with_reducible apply Keeps.ite | intro _ _ _ _ _ | intro _ _ _ _ | intro _ _ _
    | intro _ _ | split | with_reducible apply Keeps.fields)

theorem State.eraseAhead_keeps {km ku : Bool} {s₀ : State} (s : State) (hk : Keeps km true ku s₀ s) :
    Keeps km true ku s₀ (State.eraseAhead s) := by
  unfold State.eraseAhead
  repeat' (
    first
    | with_reducible assumption | with_reducible apply State.eraseFlash_keeps | with_reducible apply Keeps.ite | intro _ _ _ _ _
    | intro _ _ _ _ | intro _ _ _ | intro _ _ | split | with_reducible apply Keeps.fields)

theorem State.compactDue_keeps {km kf ku : Bool} {s₀ : State} (s : State) (hk : Keeps km kf ku s₀ s) :
    Keeps km kf ku s₀ (State.compactDue s) := by
  unfold State.compactDue
  repeat' (
    first
    | with_reducible assumption | with_reducible apply State.flag_keeps | with_reducible apply Keeps.ite | intro _ _ _ _ _
    | intro _ _ _ _ | intro _ _ _ | intro _ _ | split | with_reducible apply Keeps.fields)

theorem State.writeEntry_keeps {km ku : Bool} {s₀ : State} (s : State) (e : RecEntry) (hk : Keeps km true ku s₀ s) :
    Keeps km true ku s₀ (State.writeEntry s e) := by
  unfold State.writeEntry
  repeat' (
    first
    | with_reducible assumption | with_reducible apply State.compactDue_keeps | with_reducible apply State.eraseAhead_keeps
    | with_reducible apply State.programFlash_keeps | with_reducible apply Keeps.each | with_reducible apply Keeps.ite
    | intro _ _ _ _ _ | intro _ _ _ _ | intro _ _ _ | intro _ _ | split | with_reducible apply Keeps.fields)

theorem execRecordWrite_keeps {km ku : Bool} (s : State) : OutKeeps km true ku s (execRecordWrite s) := by
  unfold execRecordWrite
  repeat' (
    first
    | with_reducible assumption | with_reducible exact Keeps.refl _ | with_reducible apply OutKeeps.next
    | with_reducible apply OutKeeps.ite | with_reducible apply State.writeEntry_keeps | with_reducible apply Keeps.inAo
    | with_reducible apply Keeps.ite | intro _ _ _ _ _ | intro _ _ _ _ | intro _ _ _ | intro _ _ | split
    | with_reducible apply Keeps.fields)

theorem State.compact_keeps {km ku : Bool} {s₀ : State} (s : State) (hk : Keeps km true ku s₀ s) :
    Keeps km true ku s₀ (State.compact s) := by
  unfold State.compact
  repeat' (
    first
    | with_reducible assumption | with_reducible apply State.compactDue_keeps | with_reducible apply State.eraseFlash_keeps
    | with_reducible apply State.programFlash_keeps | with_reducible apply State.wr_keeps | with_reducible apply Keeps.each
    | with_reducible apply Keeps.ite | intro _ _ _ _ _ | intro _ _ _ _ | intro _ _ _ | intro _ _ | split
    | with_reducible apply Keeps.fields)

theorem execCompaction_keeps {km ku : Bool} (s : State) : OutKeeps km true ku s (execCompaction s) := by
  unfold execCompaction
  repeat' (
    first
    | with_reducible assumption | with_reducible exact Keeps.refl _ | with_reducible apply OutKeeps.next
    | with_reducible apply OutKeeps.ite | with_reducible apply State.compact_keeps | with_reducible apply Keeps.inAo
    | with_reducible apply Keeps.ite | intro _ _ _ _ _ | intro _ _ _ _ | intro _ _ _ | intro _ _ | split
    | with_reducible apply Keeps.fields)

theorem execSealEpochPersist_keeps {km kf ku : Bool} (s : State) : OutKeeps km kf ku s (execSealEpochPersist s) := by
  unfold execSealEpochPersist
  repeat' (
    first
    | with_reducible assumption | with_reducible exact Keeps.refl _ | with_reducible apply OutKeeps.next
    | with_reducible apply OutKeeps.ite | with_reducible apply State.pump_keeps | with_reducible apply State.wr_keeps
    | with_reducible apply Keeps.inMain | with_reducible apply Keeps.ite | intro _ _ _ _ _ | intro _ _ _ _ | intro _ _ _
    | intro _ _ | split | with_reducible apply Keeps.fields)

theorem State.flashRefuse_keeps {km kf ku : Bool} {s₀ : State} (s : State) (result : Nat) (hk : Keeps km kf ku s₀ s) :
    Keeps km kf ku s₀ (State.flashRefuse s result) := by
  unfold State.flashRefuse
  repeat' (
    first
    | with_reducible assumption | with_reducible apply State.inc_keeps | with_reducible apply State.wr_keeps
    | with_reducible apply Keeps.when | with_reducible apply Keeps.ite | intro _ _ _ _ _ | intro _ _ _ _ | intro _ _ _
    | intro _ _ | split | with_reducible apply Keeps.fields)

theorem State.flashGo_keeps {km kf ku : Bool} {s₀ : State} (s : State) (op a lenM1 : Nat) (hk : Keeps km kf ku s₀ s) :
    Keeps km kf ku s₀ (State.flashGo s op a lenM1) := by
  unfold State.flashGo
  repeat' (
    first
    | with_reducible assumption | with_reducible apply State.flashRefuse_keeps | with_reducible apply State.wr_keeps
    | with_reducible apply Keeps.ite | intro _ _ _ _ _ | intro _ _ _ _ | intro _ _ _ | intro _ _ | split
    | with_reducible apply Keeps.fields)

theorem execNvmRead_keeps {km kf ku : Bool} (addr : BitVec 24) (lenM1 : Byte) (s : State) :
    OutKeeps km kf ku s (execNvmRead addr lenM1 s) := by
  unfold execNvmRead
  repeat' (
    first
    | with_reducible assumption | with_reducible exact Keeps.refl _ | with_reducible apply OutKeeps.next
    | with_reducible apply OutKeeps.ite | with_reducible apply State.flashGo_keeps | with_reducible apply Keeps.inAo
    | with_reducible apply Keeps.ite | intro _ _ _ _ _ | intro _ _ _ _ | intro _ _ _ | intro _ _ | split
    | with_reducible apply Keeps.fields)

theorem execNvmProgram_keeps {km kf ku : Bool} (addr : BitVec 24) (lenM1 : Byte) (s : State) :
    OutKeeps km kf ku s (execNvmProgram addr lenM1 s) := by
  unfold execNvmProgram
  repeat' (
    first
    | with_reducible assumption | with_reducible exact Keeps.refl _ | with_reducible apply OutKeeps.next
    | with_reducible apply OutKeeps.ite | with_reducible apply State.flashGo_keeps | with_reducible apply Keeps.inAo
    | with_reducible apply Keeps.ite | intro _ _ _ _ _ | intro _ _ _ _ | intro _ _ _ | intro _ _ | split
    | with_reducible apply Keeps.fields)

theorem execNvmErase_keeps {km kf ku : Bool} (addr : BitVec 24) (s : State) : OutKeeps km kf ku s (execNvmErase addr s) := by
  unfold execNvmErase
  repeat' (
    first
    | with_reducible assumption | with_reducible exact Keeps.refl _ | with_reducible apply OutKeeps.next
    | with_reducible apply OutKeeps.ite | with_reducible apply State.flashGo_keeps | with_reducible apply Keeps.inAo
    | with_reducible apply Keeps.ite | intro _ _ _ _ _ | intro _ _ _ _ | intro _ _ _ | intro _ _ | split
    | with_reducible apply Keeps.fields)

theorem State.flashEnd_keeps {km kf ku : Bool} {s₀ : State} (s : State) (result : Nat) (hk : Keeps km kf ku s₀ s) :
    Keeps km kf ku s₀ (State.flashEnd s result) := by
  unfold State.flashEnd
  repeat' (
    first
    | with_reducible assumption | with_reducible apply State.wr_keeps | with_reducible apply Keeps.ite | intro _ _ _ _ _
    | intro _ _ _ _ | intro _ _ _ | intro _ _ | split | with_reducible apply Keeps.fields)

theorem State.fillBuf_keeps {km kf ku : Bool} {s₀ : State} (s : State) (l : List Byte) (hk : Keeps km kf ku s₀ s) :
    Keeps km kf ku s₀ (State.fillBuf s l) := by
  unfold State.fillBuf
  repeat' (
    first
    | with_reducible assumption | with_reducible apply Keeps.setReg | with_reducible apply Keeps.each
    | with_reducible apply Keeps.ite | intro _ _ _ _ _ | intro _ _ _ _ | intro _ _ _ | intro _ _ | split
    | with_reducible apply Keeps.fields)

theorem State.programDone_keeps {km ku : Bool} {s₀ : State} (s : State) (o : FlashOp) (good : Bool) (hk : Keeps km true ku s₀ s) :
    Keeps km true ku s₀ (State.programDone s o good) := by
  unfold State.programDone
  repeat' (
    first
    | with_reducible assumption | with_reducible apply State.flashEnd_keeps | with_reducible apply State.inc_keeps
    | with_reducible apply State.programFlash_keeps | with_reducible apply State.record_keeps
    | with_reducible apply State.spoilFlash_keeps | with_reducible apply Keeps.ite | intro _ _ _ _ _ | intro _ _ _ _
    | intro _ _ _ | intro _ _ | split | with_reducible apply Keeps.fields)

theorem execNvmDone_keeps {km ku : Bool} (good : Bool) (s : State) : OutKeeps km true ku s (execNvmDone good s) := by
  unfold execNvmDone
  repeat' (
    first
    | with_reducible assumption | with_reducible exact Keeps.refl _ | with_reducible apply OutKeeps.next
    | with_reducible apply OutKeeps.ite | with_reducible apply State.eraseFlash_keeps | with_reducible apply State.fillBuf_keeps
    | with_reducible apply State.flashEnd_keeps | with_reducible apply State.programDone_keeps | with_reducible apply Keeps.inAo
    | with_reducible apply Keeps.ite | intro _ _ _ _ _ | intro _ _ _ _ | intro _ _ _ | intro _ _ | split
    | with_reducible apply Keeps.fields)

theorem State.flashTimedOut_keeps {km kf ku : Bool} {s₀ : State} (s : State) (a : Nat) (hk : Keeps km kf ku s₀ s) :
    Keeps km kf ku s₀ (State.flashTimedOut s a) := by
  unfold State.flashTimedOut
  repeat' (
    first
    | with_reducible assumption | with_reducible apply State.flashEnd_keeps | with_reducible apply State.record_keeps
    | with_reducible apply Keeps.ite | intro _ _ _ _ _ | intro _ _ _ _ | intro _ _ _ | intro _ _ | split
    | with_reducible apply Keeps.fields)

theorem execNvmTimeout_keeps {km ku : Bool} (s : State) : OutKeeps km true ku s (execNvmTimeout s) := by
  unfold execNvmTimeout
  repeat' (
    first
    | with_reducible assumption | with_reducible exact Keeps.refl _ | with_reducible apply OutKeeps.next
    | with_reducible apply OutKeeps.ite | with_reducible apply State.flashTimedOut_keeps
    | with_reducible apply State.programFlash_keeps | with_reducible apply State.spoilFlash_keeps
    | with_reducible apply Keeps.inAo | with_reducible apply Keeps.ite | intro _ _ _ _ _ | intro _ _ _ _ | intro _ _ _
    | intro _ _ | split | with_reducible apply Keeps.fields)

theorem State.flashCut_keeps {km ku : Bool} {s₀ : State} (s : State) (hk : Keeps km true ku s₀ s) :
    Keeps km true ku s₀ (State.flashCut s) := by
  unfold State.flashCut
  repeat' (
    first
    | with_reducible assumption | with_reducible apply State.spoilFlash_keeps | with_reducible apply Keeps.ite | intro _ _ _ _ _
    | intro _ _ _ _ | intro _ _ _ | intro _ _ | split | with_reducible apply Keeps.fields)

end Sys2Proof.Machine
end

