-- ==== Sys2Proof/Laws/KeepsReset.lean ====
section
/-! SUPPORT. What the operations of Machine/Reset.lean keep (the relation Keeps). -/
set_option linter.unusedTactic false
set_option linter.unreachableTactic false
set_option linter.unusedVariables false
namespace Sys2Proof.Machine

theorem State.resetCause_keeps {km kf ku : Bool} {s₀ : State} (s : State) (f : Option Fld) (hk : Keeps km kf ku s₀ s) :
    Keeps km kf ku s₀ (State.resetCause s f) := by
  unfold State.resetCause
  repeat' (
    first
    | with_reducible assumption | with_reducible apply State.wr_keeps | with_reducible apply Keeps.ite | intro _ _ _ _ _
    | intro _ _ _ _ | intro _ _ _ | intro _ _ | split | with_reducible apply Keeps.fields)

theorem State.mainReset_keeps {km kf ku : Bool} {s₀ : State} (s : State) (pin : Bool) (hk : Keeps km kf ku s₀ s) :
    Keeps km kf ku s₀ (State.mainReset s pin) := by
  unfold State.mainReset
  repeat' (
    first
    | with_reducible assumption | with_reducible apply State.wr_keeps | with_reducible apply Keeps.each
    | with_reducible apply Keeps.ite | intro _ _ _ _ _ | intro _ _ _ _ | intro _ _ _ | intro _ _ | split | exact swf_filter _
    | exact id | with_reducible apply Keeps.fieldsRegs)

theorem State.holdOut_keeps {km kf ku : Bool} {s₀ : State} (s : State) (hk : Keeps km kf ku s₀ s) :
    Keeps km kf ku s₀ (State.holdOut s) := by
  unfold State.holdOut
  repeat' (
    first
    | with_reducible assumption | with_reducible apply State.record_keeps | with_reducible apply State.wr_keeps
    | with_reducible apply Keeps.ite | intro _ _ _ _ _ | intro _ _ _ _ | intro _ _ _ | intro _ _ | split
    | with_reducible apply Keeps.fields)

theorem State.holdEnd_keeps {km kf ku : Bool} {s₀ : State} (s : State) (hk : Keeps km kf ku s₀ s) :
    Keeps km kf ku s₀ (State.holdEnd s) := by
  unfold State.holdEnd
  repeat' (
    first
    | with_reducible assumption | with_reducible apply State.wr_keeps | with_reducible apply Keeps.ite | intro _ _ _ _ _
    | intro _ _ _ _ | intro _ _ _ | intro _ _ | split | with_reducible apply Keeps.fields)

theorem State.startRun_keeps {km kf ku : Bool} {s₀ : State} (s : State) (l : List Nat) (plog : Nat) (rom boot : Bool) (hk : Keeps km kf ku s₀ s) :
    Keeps km kf ku s₀ (State.startRun s l plog rom boot) := by
  unfold State.startRun
  repeat' (
    first
    | with_reducible assumption | with_reducible apply State.wr_keeps | with_reducible apply Keeps.ite | intro _ _ _ _ _
    | intro _ _ _ _ | intro _ _ _ | intro _ _ | split | with_reducible apply Keeps.fields)

theorem State.bistGo_keeps {km kf ku : Bool} {s₀ : State} (s : State) (hk : Keeps km kf ku s₀ s) :
    Keeps km kf ku s₀ (State.bistGo s) := by
  unfold State.bistGo
  repeat' (
    first
    | with_reducible assumption | with_reducible apply State.startRun_keeps | with_reducible apply State.wr_keeps
    | with_reducible apply Keeps.ite | intro _ _ _ _ _ | intro _ _ _ _ | intro _ _ _ | intro _ _ | split
    | with_reducible apply Keeps.fields)

end Sys2Proof.Machine
end

