-- ==== Sys2Proof/Laws/KeepsBoot.lean ====
section
/-! SUPPORT. What the operations of Machine/Boot.lean keep (the relation Keeps). -/
set_option linter.unusedTactic false
set_option linter.unreachableTactic false
set_option linter.unusedVariables false
namespace Sys2Proof.Machine

theorem State.newBank_keeps {km ku : Bool} {s₀ : State} (s : State) (hk : Keeps km true ku s₀ s) :
    Keeps km true ku s₀ (State.newBank s) := by
  unfold State.newBank
  repeat' (
    first
    | with_reducible assumption | with_reducible apply State.eraseAhead_keeps | with_reducible apply State.eraseFlash_keeps
    | with_reducible apply State.programFlash_keeps | with_reducible apply State.record_keeps
    | with_reducible apply State.wr_keeps | with_reducible apply Keeps.ite | intro _ _ _ _ _ | intro _ _ _ _ | intro _ _ _
    | intro _ _ | split | with_reducible apply Keeps.fields)

theorem State.loadEntry_keeps {km kf ku : Bool} {s₀ : State} (s : State) (e : List Byte) (hk : Keeps km kf ku s₀ s) :
    Keeps km kf ku s₀ (State.loadEntry s e) := by
  unfold State.loadEntry
  repeat' (
    first
    | with_reducible assumption | with_reducible apply State.inc_keeps | with_reducible apply Keeps.setReg
    | with_reducible apply State.wr_keeps | with_reducible apply Keeps.each | with_reducible apply Keeps.ite | intro _ _ _ _ _
    | intro _ _ _ _ | intro _ _ _ | intro _ _ | split | with_reducible apply Keeps.fields)

theorem State.loadBank_keeps {km ku : Bool} {s₀ : State} (s : State) (b seq : Nat) (hk : Keeps km true ku s₀ s) :
    Keeps km true ku s₀ (State.loadBank s b seq) := by
  unfold State.loadBank
  repeat' (
    first
    | with_reducible assumption | with_reducible apply State.add_keeps | with_reducible apply State.compactDue_keeps
    | with_reducible apply State.eraseAhead_keeps | with_reducible apply State.inc_keeps
    | with_reducible apply State.loadEntry_keeps | with_reducible apply State.record_keeps | with_reducible apply State.wr_keeps
    | with_reducible apply Keeps.each | with_reducible apply Keeps.ite | intro _ _ _ _ _ | intro _ _ _ _ | intro _ _ _
    | intro _ _ | split | with_reducible apply Keeps.fields)

theorem State.bootError_keeps {km kf ku : Bool} {s₀ : State} (s : State) (err : Nat) (hk : Keeps km kf ku s₀ s) :
    Keeps km kf ku s₀ (State.bootError s err) := by
  unfold State.bootError
  repeat' (
    first
    | with_reducible assumption | with_reducible apply State.record_keeps | with_reducible apply State.wr_keeps
    | with_reducible apply Keeps.ite | intro _ _ _ _ _ | intro _ _ _ _ | intro _ _ _ | intro _ _ | split
    | with_reducible apply Keeps.fields)

theorem State.loadArea_keeps {km ku : Bool} {s₀ : State} (s : State) (hk : Keeps km true ku s₀ s) :
    Keeps km true ku s₀ (State.loadArea s) := by
  unfold State.loadArea
  repeat' (
    first
    | with_reducible assumption | with_reducible apply State.bootError_keeps | with_reducible apply State.loadBank_keeps
    | with_reducible apply State.newBank_keeps | with_reducible apply Keeps.ite | intro _ _ _ _ _ | intro _ _ _ _ | intro _ _ _
    | intro _ _ | split | with_reducible apply Keeps.fields)

theorem State.initTiles_keeps {km kf ku : Bool} {s₀ : State} (s : State) (hk : Keeps km kf ku s₀ s) :
    Keeps km kf ku s₀ (State.initTiles s) := by
  unfold State.initTiles
  repeat' (
    first
    | with_reducible assumption | with_reducible apply State.record_keeps | with_reducible apply State.useFree_keeps
    | with_reducible apply State.wr_keeps | with_reducible apply Keeps.each | with_reducible apply Keeps.ite | intro _ _ _ _ _
    | intro _ _ _ _ | intro _ _ _ | intro _ _ | split | with_reducible apply Keeps.fields)

theorem State.slotWarn_keeps {km kf ku : Bool} {s₀ : State} (s : State) (slot check : Nat) (hk : Keeps km kf ku s₀ s) :
    Keeps km kf ku s₀ (State.slotWarn s slot check) := by
  unfold State.slotWarn
  repeat' (
    first
    | with_reducible assumption | with_reducible apply State.record_keeps | with_reducible apply Keeps.ite | intro _ _ _ _ _
    | intro _ _ _ _ | intro _ _ _ | intro _ _ | split | with_reducible apply Keeps.fields)

theorem State.takeImage_keeps {km kf ku : Bool} {s₀ : State} (s : State) (l : List Nat) (h : Keeps km kf ku s₀ s) :
    Keeps km kf ku s₀ (State.takeImage s l).1 := by
  induction l generalizing s with
  | nil => exact h
  | cons x r ih =>
    unfold State.takeImage
    split
    · exact h
    · exact ih _ (State.slotWarn_keeps _ _ _ h)

theorem State.loadLocal_keeps {km kf ku : Bool} {s₀ : State} (s : State) (l : List Byte) (hk : Keeps km kf ku s₀ s) :
    Keeps km kf ku s₀ (State.loadLocal s l) := by
  unfold State.loadLocal
  repeat' (
    first
    | with_reducible assumption | with_reducible apply Keeps.each | with_reducible apply Keeps.ite | intro _ _ _ _ _
    | intro _ _ _ _ | intro _ _ _ | intro _ _ | split | with_reducible apply Keeps.fields)

theorem State.loadImage_keeps {km kf ku : Bool} {s₀ : State} (s : State) (slot : Nat) (hk : Keeps km kf ku s₀ s) :
    Keeps km kf ku s₀ (State.loadImage s slot) := by
  unfold State.loadImage
  repeat' (
    first
    | with_reducible assumption | with_reducible apply State.loadLocal_keeps | with_reducible apply State.wr_keeps
    | with_reducible apply Keeps.ite | intro _ _ _ _ _ | intro _ _ _ _ | intro _ _ _ | intro _ _ | split
    | with_reducible apply Keeps.fields)

theorem State.applyNode_keeps {km kf ku : Bool} {s₀ : State} (s : State) (v : List Byte) (hk : Keeps km kf ku s₀ s) :
    Keeps km kf ku s₀ (State.applyNode s v) := by
  unfold State.applyNode
  repeat' (
    first
    | with_reducible assumption | with_reducible apply State.writeRtrSelf_keeps | with_reducible apply State.writeRtrShape_keeps
    | with_reducible apply Keeps.ite | intro _ _ _ _ _ | intro _ _ _ _ | intro _ _ _ | intro _ _ | split
    | with_reducible apply Keeps.fields)

theorem State.bootFail_keeps {km kf ku : Bool} {s₀ : State} (s : State) (err : Nat) (hk : Keeps km kf ku s₀ s) :
    Keeps km kf ku s₀ (State.bootFail s err) := by
  unfold State.bootFail
  repeat' (
    first
    | with_reducible assumption | with_reducible apply State.bootError_keeps | with_reducible apply State.wr_keeps
    | with_reducible apply Keeps.ite | intro _ _ _ _ _ | intro _ _ _ _ | intro _ _ _ | intro _ _ | split
    | with_reducible apply Keeps.fields)

theorem State.startFirmware_keeps {km kf ku : Bool} {s₀ : State} (s : State) (hk : Keeps km kf ku s₀ s) :
    Keeps km kf ku s₀ (State.startFirmware s) := by
  unfold State.startFirmware
  repeat' (
    first
    | with_reducible assumption | with_reducible apply State.useFree_keeps | with_reducible apply State.wr_keeps
    | with_reducible apply Keeps.ite | intro _ _ _ _ _ | intro _ _ _ _ | intro _ _ _ | intro _ _ | split
    | with_reducible apply Keeps.fields)

theorem State.bootConfig_keeps {km kf ku : Bool} {s₀ : State} (s : State) (hk : Keeps km kf ku s₀ s) :
    Keeps km kf ku s₀ (State.bootConfig s) := by
  unfold State.bootConfig
  repeat' (
    first
    | with_reducible assumption | with_reducible apply State.bootError_keeps | with_reducible apply State.startFirmware_keeps
    | with_reducible apply State.wr_keeps | with_reducible apply Keeps.ite | intro _ _ _ _ _ | intro _ _ _ _ | intro _ _ _
    | intro _ _ | split | with_reducible apply Keeps.fields)

theorem State.runBoot_keeps {km ku : Bool} {s₀ : State} (s : State) (hk : Keeps km true ku s₀ s) :
    Keeps km true ku s₀ (State.runBoot s) := by
  unfold State.runBoot
  dsimp only
  refine Keeps.ite (State.bootFail_keeps _ _ hk) (Keeps.ite hk ?_)
  have h1 := State.initTiles_keeps _ (State.loadArea_keeps _ hk)
  have hw : ∀ (l : List Nat) (g : State → Nat → Nat), Keeps km true ku s₀ (State.each s.loadArea.initTiles l fun s x =>
      if g s x = 0 then s else s.slotWarn x (g s x)) := fun l g =>
    Keeps.each h1 l fun v x hv => Keeps.ite hv (State.slotWarn_keeps _ _ _ hv)
  split
  · rename_i he
    exact State.bootConfig_keeps _ (State.loadImage_keeps _ _ (Keeps.fst he (State.takeImage_keeps _ _ (hw _ _))))
  · rename_i he
    exact State.bootFail_keeps _ _ (Keeps.fst he (State.takeImage_keeps _ _ (hw _ _)))

theorem State.testKeys_keeps {km kf ku : Bool} {s₀ : State} (s : State) (hk : Keeps km kf ku s₀ s) :
    Keeps km kf ku s₀ (State.testKeys s) := by
  unfold State.testKeys
  repeat' (
    first
    | with_reducible assumption | with_reducible apply State.updKs_keeps | with_reducible apply Keeps.each
    | with_reducible apply Keeps.ite | intro _ _ _ _ _ | intro _ _ _ _ | intro _ _ _ | intro _ _ | split
    | with_reducible apply Keeps.fields)

theorem State.releaseMain_keeps {km ku : Bool} {s₀ : State} (s : State) (hk : Keeps km true ku s₀ s) :
    Keeps km true ku s₀ (State.releaseMain s) := by
  unfold State.releaseMain
  repeat' (
    first
    | with_reducible assumption | with_reducible apply State.inc_keeps | with_reducible apply State.runBoot_keeps
    | with_reducible apply State.startRun_keeps | with_reducible apply State.testKeys_keeps
    | with_reducible apply State.wr_keeps | with_reducible apply Keeps.ite | intro _ _ _ _ _ | intro _ _ _ _ | intro _ _ _
    | intro _ _ | split | with_reducible apply Keeps.fields)

theorem State.tryStart_keeps {km ku : Bool} {s₀ : State} (s : State) (hk : Keeps km true ku s₀ s) :
    Keeps km true ku s₀ (State.tryStart s) := by
  unfold State.tryStart
  repeat' (
    first
    | with_reducible assumption | with_reducible apply State.holdOut_keeps | with_reducible apply State.releaseMain_keeps
    | with_reducible apply State.wr_keeps | with_reducible apply Keeps.ite | intro _ _ _ _ _ | intro _ _ _ _ | intro _ _ _
    | intro _ _ | split | with_reducible apply Keeps.fields)

theorem execMainStart_keeps {km ku : Bool} (s : State) : OutKeeps km true ku s (execMainStart s) := by
  unfold execMainStart
  repeat' (
    first
    | with_reducible assumption | with_reducible exact Keeps.refl _ | with_reducible apply OutKeeps.next
    | with_reducible apply OutKeeps.ite | with_reducible apply State.tryStart_keeps | with_reducible apply Keeps.inAo
    | with_reducible apply Keeps.ite | intro _ _ _ _ _ | intro _ _ _ _ | intro _ _ _ | intro _ _ | split
    | with_reducible apply Keeps.fields)

theorem execFlashDiscovery_keeps {km ku : Bool} (t : Sfdp) (s : State) : OutKeeps km true ku s (execFlashDiscovery t s) := by
  unfold execFlashDiscovery
  repeat' (
    first
    | with_reducible assumption | with_reducible exact Keeps.refl _ | with_reducible apply OutKeeps.next
    | with_reducible apply OutKeeps.ite | with_reducible apply State.runBoot_keeps | with_reducible apply State.wr_keeps
    | with_reducible apply Keeps.inAo | with_reducible apply Keeps.ite | intro _ _ _ _ _ | intro _ _ _ _ | intro _ _ _
    | intro _ _ | split | with_reducible apply Keeps.fields)

theorem execAoRstNAssert_keeps {km : Bool} (s : State) : OutKeeps km true true s (execAoRstNAssert s) := by
  unfold execAoRstNAssert
  refine OutKeeps.next (Keeps.inAo (Keeps.refl s) fun v hv => ?_)
  have h := State.flashCut_keeps _ (State.burnCut_keeps _ hv)
  exact ⟨h.pending, h.mem, h.flash, h.fuses, h.memWf, h.flashWf, h.fusesWf, fun _ => rfl, h.burnt⟩

theorem execAoRstNRelease_keeps {km kf ku : Bool} (straps : BitVec 6) (s : State) :
    OutKeeps km kf ku s (execAoRstNRelease straps s) := by
  unfold execAoRstNRelease
  repeat' (
    first
    | with_reducible assumption | with_reducible exact Keeps.refl _ | with_reducible apply OutKeeps.next
    | with_reducible apply OutKeeps.ite | with_reducible apply State.wr_keeps | with_reducible apply Keeps.ite | intro _ _ _ _ _
    | intro _ _ _ _ | intro _ _ _ | intro _ _ | split | with_reducible apply Keeps.fields)

theorem execFuseSensingDone_keeps {km kf ku : Bool} (s : State) : OutKeeps km kf ku s (execFuseSensingDone s) := by
  unfold execFuseSensingDone
  repeat' (
    first
    | with_reducible assumption | with_reducible exact Keeps.refl _ | with_reducible apply OutKeeps.next
    | with_reducible apply OutKeeps.ite | with_reducible apply State.senseFuses_keeps | with_reducible apply Keeps.inAo
    | with_reducible apply Keeps.ite | intro _ _ _ _ _ | intro _ _ _ _ | intro _ _ _ | intro _ _ | split
    | with_reducible apply Keeps.fields)

theorem State.assertRst_keeps {km kf ku : Bool} {s₀ : State} (s : State) (hk : Keeps km kf ku s₀ s) :
    Keeps km kf ku s₀ (State.assertRst s) := by
  unfold State.assertRst
  repeat' (
    first
    | with_reducible assumption | with_reducible apply State.mainReset_keeps | with_reducible apply State.resetCause_keeps
    | with_reducible apply Keeps.ite | intro _ _ _ _ _ | intro _ _ _ _ | intro _ _ _ | intro _ _ | split
    | with_reducible apply Keeps.fields)

theorem execRstNAssert_keeps {km kf ku : Bool} (cycles : Nat) (s : State) : OutKeeps km kf ku s (execRstNAssert cycles s) := by
  unfold execRstNAssert
  repeat' (
    first
    | with_reducible assumption | with_reducible exact Keeps.refl _ | with_reducible apply OutKeeps.next
    | with_reducible apply OutKeeps.ite | with_reducible apply State.assertRst_keeps | with_reducible apply State.inc_keeps
    | with_reducible apply Keeps.inAo | with_reducible apply Keeps.ite | intro _ _ _ _ _ | intro _ _ _ _ | intro _ _ _
    | intro _ _ | split | with_reducible apply Keeps.fields)

theorem execRstNHeld_keeps {km kf ku : Bool} (s : State) : OutKeeps km kf ku s (execRstNHeld s) := by
  unfold execRstNHeld
  repeat' (
    first
    | with_reducible assumption | with_reducible exact Keeps.refl _ | with_reducible apply OutKeeps.next
    | with_reducible apply OutKeeps.ite | with_reducible apply State.record_keeps | with_reducible apply State.wr_keeps
    | with_reducible apply Keeps.inAo | with_reducible apply Keeps.ite | intro _ _ _ _ _ | intro _ _ _ _ | intro _ _ _
    | intro _ _ | split | with_reducible apply Keeps.fields)

theorem execRstNRelease_keeps {km kf ku : Bool} (s : State) : OutKeeps km kf ku s (execRstNRelease s) := by
  unfold execRstNRelease
  repeat' (
    first
    | with_reducible assumption | with_reducible exact Keeps.refl _ | with_reducible apply OutKeeps.next
    | with_reducible apply OutKeeps.ite | with_reducible apply State.wr_keeps | with_reducible apply Keeps.inAo
    | with_reducible apply Keeps.ite | intro _ _ _ _ _ | intro _ _ _ _ | intro _ _ _ | intro _ _ | split
    | with_reducible apply Keeps.fields)

theorem execVddMainLoss_keeps {km kf ku : Bool} (s : State) : OutKeeps km kf ku s (execVddMainLoss s) := by
  unfold execVddMainLoss
  repeat' (
    first
    | with_reducible assumption | with_reducible exact Keeps.refl _ | with_reducible apply OutKeeps.next
    | with_reducible apply OutKeeps.ite | with_reducible apply State.assertRst_keeps
    | with_reducible apply State.mainReset_keeps | with_reducible apply Keeps.inAo | with_reducible apply Keeps.ite
    | intro _ _ _ _ _ | intro _ _ _ _ | intro _ _ _ | intro _ _ | split | with_reducible apply Keeps.fields)

theorem execHoldOutEnd_keeps {km ku : Bool} (s : State) : OutKeeps km true ku s (execHoldOutEnd s) := by
  unfold execHoldOutEnd
  repeat' (
    first
    | with_reducible assumption | with_reducible exact Keeps.refl _ | with_reducible apply OutKeeps.next
    | with_reducible apply OutKeeps.ite | with_reducible apply State.holdEnd_keeps | with_reducible apply State.tryStart_keeps
    | with_reducible apply Keeps.inAo | with_reducible apply Keeps.ite | intro _ _ _ _ _ | intro _ _ _ _ | intro _ _ _
    | intro _ _ | split | with_reducible apply Keeps.fields)

theorem execStormReset_keeps {km kf ku : Bool} (s : State) : OutKeeps km kf ku s (execStormReset s) := by
  unfold execStormReset
  repeat' (
    first
    | with_reducible assumption | with_reducible exact Keeps.refl _ | with_reducible apply OutKeeps.next
    | with_reducible apply OutKeeps.ite | with_reducible apply State.wr_keeps | with_reducible apply Keeps.inMain
    | with_reducible apply Keeps.ite | intro _ _ _ _ _ | intro _ _ _ _ | intro _ _ _ | intro _ _ | split
    | with_reducible apply Keeps.fields)

theorem execBootWatchdog_keeps {km kf ku : Bool} (s : State) : OutKeeps km kf ku s (execBootWatchdog s) := by
  unfold execBootWatchdog
  repeat' (
    first
    | with_reducible assumption | with_reducible exact Keeps.refl _ | with_reducible apply OutKeeps.next
    | with_reducible apply OutKeeps.ite | with_reducible apply State.mainReset_keeps | with_reducible apply State.record_keeps
    | with_reducible apply State.resetCause_keeps | with_reducible apply Keeps.inMain | with_reducible apply Keeps.ite
    | intro _ _ _ _ _ | intro _ _ _ _ | intro _ _ _ | intro _ _ | split | with_reducible apply Keeps.fields)

theorem State.softReset_keeps {km kf ku : Bool} {s₀ : State} (s : State) (hk : Keeps km kf ku s₀ s) :
    Keeps km kf ku s₀ (State.softReset s) := by
  unfold State.softReset
  repeat' (
    first
    | with_reducible assumption | with_reducible apply State.mainReset_keeps | with_reducible apply State.resetCause_keeps
    | with_reducible apply Keeps.ite | intro _ _ _ _ _ | intro _ _ _ _ | intro _ _ _ | intro _ _ | split
    | with_reducible apply Keeps.fields)

theorem State.writeSwrst_keeps {km kf ku : Bool} {s₀ : State} (s : State) (confirm : Nat) (hk : Keeps km kf ku s₀ s) :
    Keeps km kf ku s₀ (State.writeSwrst s confirm) := by
  unfold State.writeSwrst
  repeat' (
    first
    | with_reducible assumption | with_reducible apply State.softReset_keeps | with_reducible apply Keeps.ite | intro _ _ _ _ _
    | intro _ _ _ _ | intro _ _ _ | intro _ _ | split | with_reducible apply Keeps.fields)

theorem execSwrst_keeps {km kf ku : Bool} (confirm : BitVec 32) (s : State) : OutKeeps km kf ku s (execSwrst confirm s) := by
  unfold execSwrst
  repeat' (
    first
    | with_reducible assumption | with_reducible exact Keeps.refl _ | with_reducible apply OutKeeps.next
    | with_reducible apply OutKeeps.ite | with_reducible apply State.writeSwrst_keeps | with_reducible apply Keeps.inAo
    | with_reducible apply Keeps.ite | intro _ _ _ _ _ | intro _ _ _ _ | intro _ _ _ | intro _ _ | split
    | with_reducible apply Keeps.fields)

theorem State.writeRstign_keeps {km ku : Bool} {s₀ : State} (s : State) (hk : Keeps km true ku s₀ s) :
    Keeps km true ku s₀ (State.writeRstign s) := by
  unfold State.writeRstign
  repeat' (
    first
    | with_reducible assumption | with_reducible apply State.tryStart_keeps | with_reducible apply State.wr_keeps
    | with_reducible apply Keeps.ite | intro _ _ _ _ _ | intro _ _ _ _ | intro _ _ _ | intro _ _ | split
    | with_reducible apply Keeps.fields)

theorem execRstign_keeps {km ku : Bool} (s : State) : OutKeeps km true ku s (execRstign s) := by
  unfold execRstign
  repeat' (
    first
    | with_reducible assumption | with_reducible exact Keeps.refl _ | with_reducible apply OutKeeps.next
    | with_reducible apply OutKeeps.ite | with_reducible apply State.writeRstign_keeps | with_reducible apply Keeps.inAo
    | with_reducible apply Keeps.ite | intro _ _ _ _ _ | intro _ _ _ _ | intro _ _ _ | intro _ _ | split
    | with_reducible apply Keeps.fields)

theorem State.writeHoclr_keeps {km ku : Bool} {s₀ : State} (s : State) (hk : Keeps km true ku s₀ s) :
    Keeps km true ku s₀ (State.writeHoclr s) := by
  unfold State.writeHoclr
  repeat' (
    first
    | with_reducible assumption | with_reducible apply State.holdEnd_keeps | with_reducible apply State.tryStart_keeps
    | with_reducible apply State.wr_keeps | with_reducible apply Keeps.ite | intro _ _ _ _ _ | intro _ _ _ _ | intro _ _ _
    | intro _ _ | split | with_reducible apply Keeps.fields)

theorem execHoclr_keeps {km ku : Bool} (s : State) : OutKeeps km true ku s (execHoclr s) := by
  unfold execHoclr
  repeat' (
    first
    | with_reducible assumption | with_reducible exact Keeps.refl _ | with_reducible apply OutKeeps.next
    | with_reducible apply OutKeeps.ite | with_reducible apply State.writeHoclr_keeps | with_reducible apply Keeps.inAo
    | with_reducible apply Keeps.ite | intro _ _ _ _ _ | intro _ _ _ _ | intro _ _ _ | intro _ _ | split
    | with_reducible apply Keeps.fields)

theorem execClkCoreLoss_keeps {km kf ku : Bool} (s : State) : OutKeeps km kf ku s (execClkCoreLoss s) := by
  unfold execClkCoreLoss
  repeat' (
    first
    | with_reducible assumption | with_reducible exact Keeps.refl _ | with_reducible apply OutKeeps.next
    | with_reducible apply OutKeeps.ite | with_reducible apply State.mainReset_keeps | with_reducible apply State.record_keeps
    | with_reducible apply State.resetCause_keeps | with_reducible apply Keeps.inMain | with_reducible apply Keeps.ite
    | intro _ _ _ _ _ | intro _ _ _ _ | intro _ _ _ | intro _ _ | split | with_reducible apply Keeps.fields)

theorem execClkCoreRestart_keeps {km ku : Bool} (s : State) : OutKeeps km true ku s (execClkCoreRestart s) := by
  unfold execClkCoreRestart
  repeat' (
    first
    | with_reducible assumption | with_reducible exact Keeps.refl _ | with_reducible apply OutKeeps.next
    | with_reducible apply OutKeeps.ite | with_reducible apply State.tryStart_keeps | with_reducible apply Keeps.inAo
    | with_reducible apply Keeps.ite | intro _ _ _ _ _ | intro _ _ _ _ | intro _ _ _ | intro _ _ | split
    | with_reducible apply Keeps.fields)

end Sys2Proof.Machine
end

