-- ==== Sys2Proof/Laws/KeepsDebug.lean ====
section
/-! SUPPORT. What the operations of Machine/Debug.lean keep (the relation Keeps). -/
set_option linter.unusedTactic false
set_option linter.unreachableTactic false
set_option linter.unusedVariables false
namespace Sys2Proof.Machine

theorem State.haltRefused_keeps {km kf ku : Bool} {s₀ : State} (s : State) (hk : Keeps km kf ku s₀ s) :
    Keeps km kf ku s₀ (State.haltRefused s) := by
  unfold State.haltRefused
  repeat' (
    first
    | with_reducible assumption | with_reducible apply State.record_keeps | with_reducible apply State.wr_keeps
    | with_reducible apply Keeps.ite | intro _ _ _ _ _ | intro _ _ _ _ | intro _ _ _ | intro _ _ | split
    | with_reducible apply Keeps.fields)

theorem State.freePc_keeps {km kf ku : Bool} {s₀ : State} (s : State) (hk : Keeps km kf ku s₀ s) :
    Keeps km kf ku s₀ (State.freePc s) := by
  unfold State.freePc
  repeat' (
    first
    | with_reducible assumption | with_reducible apply State.useFree_keeps | with_reducible apply State.wr_keeps
    | with_reducible apply Keeps.ite | intro _ _ _ _ _ | intro _ _ _ _ | intro _ _ _ | intro _ _ | split
    | with_reducible apply Keeps.fields)

theorem State.haltNow_keeps {km kf ku : Bool} {s₀ : State} (s : State) (cause state : Nat) (hk : Keeps km kf ku s₀ s) :
    Keeps km kf ku s₀ (State.haltNow s cause state) := by
  unfold State.haltNow
  repeat' (
    first
    | with_reducible assumption | with_reducible apply State.forceFence_keeps | with_reducible apply State.freePc_keeps
    | with_reducible apply State.wr_keeps | with_reducible apply Keeps.ite | intro _ _ _ _ _ | intro _ _ _ _ | intro _ _ _
    | intro _ _ | split | with_reducible apply Keeps.fields)

theorem State.haltPend_keeps {km kf ku : Bool} {s₀ : State} (s : State) (cause : Nat) (hk : Keeps km kf ku s₀ s) :
    Keeps km kf ku s₀ (State.haltPend s cause) := by
  unfold State.haltPend
  repeat' (
    first
    | with_reducible assumption | with_reducible apply State.wr_keeps | with_reducible apply Keeps.ite | intro _ _ _ _ _
    | intro _ _ _ _ | intro _ _ _ | intro _ _ | split | with_reducible apply Keeps.fields)

theorem State.haltRequest_keeps {km kf ku : Bool} {s₀ : State} (s : State) (cause : Nat) (hk : Keeps km kf ku s₀ s) :
    Keeps km kf ku s₀ (State.haltRequest s cause) := by
  unfold State.haltRequest
  repeat' (
    first
    | with_reducible assumption | with_reducible apply State.haltNow_keeps | with_reducible apply State.haltPend_keeps
    | with_reducible apply State.haltRefused_keeps | with_reducible apply Keeps.ite | intro _ _ _ _ _ | intro _ _ _ _
    | intro _ _ _ | intro _ _ | split | with_reducible apply Keeps.fields)

theorem State.forceHalt_keeps {km kf ku : Bool} {s₀ : State} (s : State) (confirm : Nat) (hk : Keeps km kf ku s₀ s) :
    Keeps km kf ku s₀ (State.forceHalt s confirm) := by
  unfold State.forceHalt
  repeat' (
    first
    | with_reducible assumption | with_reducible apply State.haltNow_keeps | with_reducible apply State.haltRefused_keeps
    | with_reducible apply State.record_keeps | with_reducible apply State.updGl_keeps | with_reducible apply Keeps.each
    | with_reducible apply Keeps.ite | intro _ _ _ _ _ | intro _ _ _ _ | intro _ _ _ | intro _ _ | split
    | with_reducible apply Keeps.fields)

theorem State.rangerStep_keeps {km kf ku : Bool} {s₀ : State} (s : State) (hk : Keeps km kf ku s₀ s) :
    Keeps km kf ku s₀ (State.rangerStep s) := by
  unfold State.rangerStep
  repeat' (
    first
    | with_reducible assumption | with_reducible apply State.freePc_keeps | with_reducible apply State.haltRefused_keeps
    | with_reducible apply State.wr_keeps | with_reducible apply Keeps.ite | intro _ _ _ _ _ | intro _ _ _ _ | intro _ _ _
    | intro _ _ | split | with_reducible apply Keeps.fields)

theorem State.rangerResume_keeps {km kf ku : Bool} {s₀ : State} (s : State) (hk : Keeps km kf ku s₀ s) :
    Keeps km kf ku s₀ (State.rangerResume s) := by
  unfold State.rangerResume
  repeat' (
    first
    | with_reducible assumption | with_reducible apply State.wr_keeps | with_reducible apply Keeps.ite | intro _ _ _ _ _
    | intro _ _ _ _ | intro _ _ _ | intro _ _ | split | with_reducible apply Keeps.fields)

theorem execHalt_keeps {km kf ku : Bool} (s : State) : OutKeeps km kf ku s (execHalt s) := by
  unfold execHalt
  repeat' (
    first
    | with_reducible assumption | with_reducible exact Keeps.refl _ | with_reducible apply OutKeeps.next
    | with_reducible apply OutKeeps.ite | with_reducible apply State.haltRequest_keeps | with_reducible apply Keeps.inMain
    | with_reducible apply Keeps.ite | intro _ _ _ _ _ | intro _ _ _ _ | intro _ _ _ | intro _ _ | split
    | with_reducible apply Keeps.fields)

theorem execForceHalt_keeps {km kf ku : Bool} (confirm : BitVec 32) (s : State) :
    OutKeeps km kf ku s (execForceHalt confirm s) := by
  unfold execForceHalt
  repeat' (
    first
    | with_reducible assumption | with_reducible exact Keeps.refl _ | with_reducible apply OutKeeps.next
    | with_reducible apply OutKeeps.ite | with_reducible apply State.forceHalt_keeps | with_reducible apply Keeps.inMain
    | with_reducible apply Keeps.ite | intro _ _ _ _ _ | intro _ _ _ _ | intro _ _ _ | intro _ _ | split
    | with_reducible apply Keeps.fields)

theorem execRangerStep_keeps {km kf ku : Bool} (s : State) : OutKeeps km kf ku s (execRangerStep s) := by
  unfold execRangerStep
  repeat' (
    first
    | with_reducible assumption | with_reducible exact Keeps.refl _ | with_reducible apply OutKeeps.next
    | with_reducible apply OutKeeps.ite | with_reducible apply State.rangerStep_keeps | with_reducible apply Keeps.inMain
    | with_reducible apply Keeps.ite | intro _ _ _ _ _ | intro _ _ _ _ | intro _ _ _ | intro _ _ | split
    | with_reducible apply Keeps.fields)

theorem execRangerResume_keeps {km kf ku : Bool} (s : State) : OutKeeps km kf ku s (execRangerResume s) := by
  unfold execRangerResume
  repeat' (
    first
    | with_reducible assumption | with_reducible exact Keeps.refl _ | with_reducible apply OutKeeps.next
    | with_reducible apply OutKeeps.ite | with_reducible apply State.rangerResume_keeps | with_reducible apply Keeps.inMain
    | with_reducible apply Keeps.ite | intro _ _ _ _ _ | intro _ _ _ _ | intro _ _ _ | intro _ _ | split
    | with_reducible apply Keeps.fields)

theorem execHaltProceed_keeps {km kf ku : Bool} (s : State) : OutKeeps km kf ku s (execHaltProceed s) := by
  unfold execHaltProceed
  repeat' (
    first
    | with_reducible assumption | with_reducible exact Keeps.refl _ | with_reducible apply OutKeeps.next
    | with_reducible apply OutKeeps.ite | with_reducible apply State.haltNow_keeps | with_reducible apply Keeps.inMain
    | with_reducible apply Keeps.ite | intro _ _ _ _ _ | intro _ _ _ _ | intro _ _ _ | intro _ _ | split
    | with_reducible apply Keeps.fields)

theorem execHaltPendingTimeout_keeps {km kf ku : Bool} (s : State) : OutKeeps km kf ku s (execHaltPendingTimeout s) := by
  unfold execHaltPendingTimeout
  repeat' (
    first
    | with_reducible assumption | with_reducible exact Keeps.refl _ | with_reducible apply OutKeeps.next
    | with_reducible apply OutKeeps.ite | with_reducible apply State.record_keeps | with_reducible apply Keeps.inMain
    | with_reducible apply Keeps.ite | intro _ _ _ _ _ | intro _ _ _ _ | intro _ _ _ | intro _ _ | split
    | with_reducible apply Keeps.fields)

theorem execBreakpoint_keeps {km kf ku : Bool} (x : Fin 4) (s : State) : OutKeeps km kf ku s (execBreakpoint x s) := by
  unfold execBreakpoint
  repeat' (
    first
    | with_reducible assumption | with_reducible exact Keeps.refl _ | with_reducible apply OutKeeps.next
    | with_reducible apply OutKeeps.ite | with_reducible apply State.haltRequest_keeps | with_reducible apply State.wr_keeps
    | with_reducible apply Keeps.inMain | with_reducible apply Keeps.ite | intro _ _ _ _ _ | intro _ _ _ _ | intro _ _ _
    | intro _ _ | split | with_reducible apply Keeps.fields)

theorem State.writeLocal_keeps {km kf ku : Bool} {s₀ : State} (s : State) (v : Word) (hk : Keeps km kf ku s₀ s) :
    Keeps km kf ku s₀ (State.writeLocal s v) := by
  unfold State.writeLocal
  repeat' (
    first
    | with_reducible assumption | with_reducible apply Keeps.ite | intro _ _ _ _ _ | intro _ _ _ _ | intro _ _ _ | intro _ _
    | split | with_reducible apply Keeps.fields)

theorem execDebugMemoryAccess_keeps {km kf ku : Bool} (write : Bool) (value : Word) (s : State) :
    OutKeeps km kf ku s (execDebugMemoryAccess write value s) := by
  unfold execDebugMemoryAccess
  repeat' (
    first
    | with_reducible assumption | with_reducible exact Keeps.refl _ | with_reducible apply OutKeeps.next
    | with_reducible apply OutKeeps.ite | with_reducible apply State.respond_keeps | with_reducible apply State.writeLocal_keeps
    | with_reducible apply Keeps.inAo | with_reducible apply Keeps.ite | intro _ _ _ _ _ | intro _ _ _ _ | intro _ _ _
    | intro _ _ | split | with_reducible apply Keeps.fields)

end Sys2Proof.Machine
end

