-- ==== Sys2Proof/Laws/KeepsSelfTest.lean ====
section
/-! SUPPORT. What the operations of Machine/SelfTest.lean keep (the relation Keeps). -/
set_option linter.unusedTactic false
set_option linter.unreachableTactic false
set_option linter.unusedVariables false
namespace Sys2Proof.Machine

theorem State.freshTile_keeps {km kf ku : Bool} {s₀ : State} (s : State) (t : Nat) (hk : Keeps km kf ku s₀ s) :
    Keeps km kf ku s₀ (State.freshTile s t) := by
  unfold State.freshTile
  repeat' (
    first
    | with_reducible assumption | with_reducible apply State.updTl_keeps | with_reducible apply Keeps.ite | intro _ _ _ _ _
    | intro _ _ _ _ | intro _ _ _ | intro _ _ | split | with_reducible apply Keeps.fields)

theorem State.reloadNode_keeps {km kf ku : Bool} {s₀ : State} (s : State) (hk : Keeps km kf ku s₀ s) :
    Keeps km kf ku s₀ (State.reloadNode s) := by
  unfold State.reloadNode
  repeat' (
    first
    | with_reducible assumption | with_reducible apply Keeps.setReg | with_reducible apply State.wr_keeps
    | with_reducible apply Keeps.ite | intro _ _ _ _ _ | intro _ _ _ _ | intro _ _ _ | intro _ _ | split
    | with_reducible apply Keeps.fields)

theorem State.freshRouter_keeps {km kf ku : Bool} {s₀ : State} (s : State) (hk : Keeps km kf ku s₀ s) :
    Keeps km kf ku s₀ (State.freshRouter s) := by
  unfold State.freshRouter
  repeat' (
    first
    | with_reducible assumption | with_reducible apply State.reloadNode_keeps | with_reducible apply State.updLk_keeps
    | with_reducible apply Keeps.each | with_reducible apply Keeps.ite | intro _ _ _ _ _ | intro _ _ _ _ | intro _ _ _
    | intro _ _ | split | exact swf_filter _ | exact id | with_reducible apply Keeps.fieldsRegs)

theorem State.freshGroup_keeps {km kf ku : Bool} {s₀ : State} (s : State) (x : Nat) (hk : Keeps km kf ku s₀ s) :
    Keeps km kf ku s₀ (State.freshGroup s x) := by
  unfold State.freshGroup
  repeat' (
    first
    | with_reducible assumption | with_reducible apply State.linkDown_keeps | with_reducible apply State.linkEnable_keeps
    | with_reducible apply Keeps.each | with_reducible apply Keeps.ite | intro _ _ _ _ _ | intro _ _ _ _ | intro _ _ _
    | intro _ _ | split | with_reducible apply Keeps.fields)

theorem State.freshMemory_keeps {km kf ku : Bool} {s₀ : State} (s : State) (hk : Keeps km kf ku s₀ s) :
    Keeps km kf ku s₀ (State.freshMemory s) := by
  unfold State.freshMemory
  repeat' (
    first
    | with_reducible assumption | with_reducible apply State.updPt_keeps | with_reducible apply State.wr_keeps
    | with_reducible apply Keeps.each | with_reducible apply Keeps.ite | intro _ _ _ _ _ | intro _ _ _ _ | intro _ _ _
    | intro _ _ | split | exact swf_filter _ | exact id | with_reducible apply Keeps.fieldsRegs)

theorem State.freshPart_keeps {km kf ku : Bool} {s₀ : State} (s : State) (x : Nat) (hk : Keeps km kf ku s₀ s) :
    Keeps km kf ku s₀ (State.freshPart s x) := by
  unfold State.freshPart
  repeat' (
    first
    | with_reducible assumption | with_reducible apply State.freshGroup_keeps | with_reducible apply State.freshMemory_keeps
    | with_reducible apply State.freshRouter_keeps | with_reducible apply State.freshTile_keeps | with_reducible apply Keeps.ite
    | intro _ _ _ _ _ | intro _ _ _ _ | intro _ _ _ | intro _ _ | split | with_reducible apply Keeps.fields)

theorem State.partFailed_keeps {km kf ku : Bool} {s₀ : State} (s : State) (x : Nat) (hk : Keeps km kf ku s₀ s) :
    Keeps km kf ku s₀ (State.partFailed s x) := by
  unfold State.partFailed
  repeat' (
    first
    | with_reducible assumption | with_reducible apply State.linkDown_keeps | with_reducible apply State.queueEntry_keeps
    | with_reducible apply State.record_keeps | with_reducible apply State.setMask_keeps
    | with_reducible apply State.updTl_keeps | with_reducible apply State.wr_keeps | with_reducible apply Keeps.each
    | with_reducible apply Keeps.ite | intro _ _ _ _ _ | intro _ _ _ _ | intro _ _ _ | intro _ _ | split
    | with_reducible apply Keeps.fields)

theorem State.partPassed_keeps {km kf ku : Bool} {s₀ : State} (s : State) (x : Nat) (hk : Keeps km kf ku s₀ s) :
    Keeps km kf ku s₀ (State.partPassed s x) := by
  unfold State.partPassed
  repeat' (
    first
    | with_reducible assumption | with_reducible apply State.clearMask_keeps | with_reducible apply Keeps.ite | intro _ _ _ _ _
    | intro _ _ _ _ | intro _ _ _ | intro _ _ | split | with_reducible apply Keeps.fields)

theorem State.partDone_keeps {km kf ku : Bool} {s₀ : State} (s : State) (x : Nat) (hk : Keeps km kf ku s₀ s) :
    Keeps km kf ku s₀ (State.partDone s x) := by
  unfold State.partDone
  repeat' (
    first
    | with_reducible assumption | with_reducible apply State.freshPart_keeps | with_reducible apply State.partFailed_keeps
    | with_reducible apply State.partPassed_keeps | with_reducible apply State.useFree_keeps | with_reducible apply Keeps.ite
    | intro _ _ _ _ _ | intro _ _ _ _ | intro _ _ _ | intro _ _ | split | with_reducible apply Keeps.fields)

theorem State.runEnds_keeps {km ku : Bool} {s₀ : State} (s : State) (l : List Nat) (boot : Bool) (hk : Keeps km true ku s₀ s) :
    Keeps km true ku s₀ (State.runEnds s l boot) := by
  unfold State.runEnds
  repeat' (
    first
    | with_reducible assumption | with_reducible apply State.mainReset_keeps | with_reducible apply State.resetCause_keeps
    | with_reducible apply State.runBoot_keeps | with_reducible apply Keeps.ite | intro _ _ _ _ _ | intro _ _ _ _ | intro _ _ _
    | intro _ _ | split | with_reducible apply Keeps.fields)

theorem execBistGo_keeps {km kf ku : Bool} (s : State) : OutKeeps km kf ku s (execBistGo s) := by
  unfold execBistGo
  repeat' (
    first
    | with_reducible assumption | with_reducible exact Keeps.refl _ | with_reducible apply OutKeeps.next
    | with_reducible apply OutKeeps.ite | with_reducible apply State.bistGo_keeps | with_reducible apply Keeps.inAo
    | with_reducible apply Keeps.ite | intro _ _ _ _ _ | intro _ _ _ _ | intro _ _ _ | intro _ _ | split
    | with_reducible apply Keeps.fields)

theorem execBistDone_keeps {km ku : Bool} (s : State) : OutKeeps km true ku s (execBistDone s) := by
  unfold execBistDone
  repeat' (
    first
    | with_reducible assumption | with_reducible exact Keeps.refl _ | with_reducible apply OutKeeps.next
    | with_reducible apply OutKeeps.ite | with_reducible apply State.partDone_keeps | with_reducible apply State.runEnds_keeps
    | with_reducible apply State.wr_keeps | with_reducible apply Keeps.each | with_reducible apply Keeps.inAo
    | with_reducible apply Keeps.ite | intro _ _ _ _ _ | intro _ _ _ _ | intro _ _ _ | intro _ _ | split
    | with_reducible apply Keeps.fields)

theorem State.laneTest_keeps {km kf ku : Bool} {s₀ : State} (s : State) (hk : Keeps km kf ku s₀ s) :
    Keeps km kf ku s₀ (State.laneTest s) := by
  unfold State.laneTest
  repeat' (
    first
    | with_reducible assumption | with_reducible apply State.wr_keeps | with_reducible apply Keeps.ite | intro _ _ _ _ _
    | intro _ _ _ _ | intro _ _ _ | intro _ _ | split | with_reducible apply Keeps.fields)

theorem execLaneTest_keeps {km kf ku : Bool} (s : State) : OutKeeps km kf ku s (execLaneTest s) := by
  unfold execLaneTest
  repeat' (
    first
    | with_reducible assumption | with_reducible exact Keeps.refl _ | with_reducible apply OutKeeps.next
    | with_reducible apply OutKeeps.ite | with_reducible apply State.laneTest_keeps | with_reducible apply Keeps.inAo
    | with_reducible apply Keeps.ite | intro _ _ _ _ _ | intro _ _ _ _ | intro _ _ _ | intro _ _ | split
    | with_reducible apply Keeps.fields)

theorem execLaneTestDone_keeps {km kf ku : Bool} (noPartner : BitVec 32) (failed : List (BitVec 8)) (s : State) :
    OutKeeps km kf ku s (execLaneTestDone noPartner failed s) := by
  unfold execLaneTestDone
  repeat' (
    first
    | with_reducible assumption | with_reducible exact Keeps.refl _ | with_reducible apply OutKeeps.next
    | with_reducible apply OutKeeps.ite | with_reducible apply State.wr_keeps | with_reducible apply Keeps.inAo
    | with_reducible apply Keeps.ite | intro _ _ _ _ _ | intro _ _ _ _ | intro _ _ _ | intro _ _ | split
    | with_reducible apply Keeps.fields)

theorem execSiteCheck_keeps {km kf ku : Bool} (x : Fin 8) (droops deepest slack leastSlack : Nat) (s : State) :
    OutKeeps km kf ku s (execSiteCheck x droops deepest slack leastSlack s) := by
  unfold execSiteCheck
  repeat' (
    first
    | with_reducible assumption | with_reducible exact Keeps.refl _ | with_reducible apply OutKeeps.next
    | with_reducible apply OutKeeps.ite | with_reducible apply State.add_keeps | with_reducible apply State.depart_keeps
    | with_reducible apply State.raise_keeps | with_reducible apply State.record_keeps | with_reducible apply State.wr_keeps
    | with_reducible apply Keeps.inMain | with_reducible apply Keeps.ite | intro _ _ _ _ _ | intro _ _ _ _ | intro _ _ _
    | intro _ _ | split | with_reducible apply Keeps.fields)

theorem State.sramRead_keeps {km kf ku : Bool} {s₀ : State} (s : State) (hk : Keeps km kf ku s₀ s) :
    Keeps km kf ku s₀ (State.sramRead s).2 := by
  unfold State.sramRead
  try dsimp only
  repeat' (
    first
    | with_reducible assumption | with_reducible apply State.record_keeps | with_reducible apply State.useFree_keeps
    | with_reducible apply Keeps.ite | intro _ _ _ _ _ | intro _ _ _ _ | intro _ _ _ | intro _ _ | split
    | with_reducible apply Keeps.fields)

theorem execSramReadout_keeps {km kf ku : Bool} (s : State) : OutKeeps km kf ku s (execSramReadout s) := by
  unfold execSramReadout
  repeat' (
    first
    | with_reducible assumption | with_reducible exact Keeps.refl _ | with_reducible apply OutKeeps.next
    | with_reducible apply OutKeeps.ite | with_reducible apply State.respond_keeps | with_reducible apply State.sramRead_keeps
    | with_reducible apply Keeps.inAo | with_reducible apply Keeps.ite | intro _ _ _ _ _ | intro _ _ _ _ | intro _ _ _
    | intro _ _ | split | with_reducible apply Keeps.fields)

theorem State.wirLeave_keeps {km kf ku : Bool} {s₀ : State} (s : State) (hk : Keeps km kf ku s₀ s) :
    Keeps km kf ku s₀ (State.wirLeave s) := by
  unfold State.wirLeave
  repeat' (
    first
    | with_reducible assumption | with_reducible apply State.mainReset_keeps | with_reducible apply Keeps.ite | intro _ _ _ _ _
    | intro _ _ _ _ | intro _ _ _ | intro _ _ | split | with_reducible apply Keeps.fields)

theorem State.loadWir_keeps {km kf ku : Bool} {s₀ : State} (s : State) (op : Nat) (hk : Keeps km kf ku s₀ s) :
    Keeps km kf ku s₀ (State.loadWir s op) := by
  unfold State.loadWir
  repeat' (
    first
    | with_reducible assumption | with_reducible apply State.record_keeps | with_reducible apply State.wirLeave_keeps
    | with_reducible apply Keeps.ite | intro _ _ _ _ _ | intro _ _ _ _ | intro _ _ _ | intro _ _ | split
    | with_reducible apply Keeps.fields)

theorem execWsBypass_keeps {km kf ku : Bool} (s : State) : OutKeeps km kf ku s (execWsBypass s) := by
  unfold execWsBypass
  repeat' (
    first
    | with_reducible assumption | with_reducible exact Keeps.refl _ | with_reducible apply OutKeeps.next
    | with_reducible apply OutKeeps.ite | with_reducible apply State.loadWir_keeps | with_reducible apply Keeps.inAo
    | with_reducible apply Keeps.ite | intro _ _ _ _ _ | intro _ _ _ _ | intro _ _ _ | intro _ _ | split
    | with_reducible apply Keeps.fields)

theorem execWsExtest_keeps {km kf ku : Bool} (s : State) : OutKeeps km kf ku s (execWsExtest s) := by
  unfold execWsExtest
  repeat' (
    first
    | with_reducible assumption | with_reducible exact Keeps.refl _ | with_reducible apply OutKeeps.next
    | with_reducible apply OutKeeps.ite | with_reducible apply State.loadWir_keeps | with_reducible apply Keeps.inAo
    | with_reducible apply Keeps.ite | intro _ _ _ _ _ | intro _ _ _ _ | intro _ _ _ | intro _ _ | split
    | with_reducible apply Keeps.fields)

theorem execWsPreload_keeps {km kf ku : Bool} (cells : List Bool) (s : State) :
    OutKeeps km kf ku s (execWsPreload cells s) := by
  unfold execWsPreload
  repeat' (
    first
    | with_reducible assumption | with_reducible exact Keeps.refl _ | with_reducible apply OutKeeps.next
    | with_reducible apply OutKeeps.ite | with_reducible apply State.loadWir_keeps | with_reducible apply Keeps.inAo
    | with_reducible apply Keeps.ite | intro _ _ _ _ _ | intro _ _ _ _ | intro _ _ _ | intro _ _ | split
    | with_reducible apply Keeps.fields)

theorem execWsClamp_keeps {km kf ku : Bool} (s : State) : OutKeeps km kf ku s (execWsClamp s) := by
  unfold execWsClamp
  repeat' (
    first
    | with_reducible assumption | with_reducible exact Keeps.refl _ | with_reducible apply OutKeeps.next
    | with_reducible apply OutKeeps.ite | with_reducible apply State.loadWir_keeps | with_reducible apply Keeps.inAo
    | with_reducible apply Keeps.ite | intro _ _ _ _ _ | intro _ _ _ _ | intro _ _ _ | intro _ _ | split
    | with_reducible apply Keeps.fields)

theorem execWsIdcode_keeps {km kf ku : Bool} (s : State) : OutKeeps km kf ku s (execWsIdcode s) := by
  unfold execWsIdcode
  repeat' (
    first
    | with_reducible assumption | with_reducible exact Keeps.refl _ | with_reducible apply OutKeeps.next
    | with_reducible apply OutKeeps.ite | with_reducible apply State.loadWir_keeps | with_reducible apply State.send_keeps
    | with_reducible apply Keeps.inAo | with_reducible apply Keeps.ite | intro _ _ _ _ _ | intro _ _ _ _ | intro _ _ _
    | intro _ _ | split | with_reducible apply Keeps.fields)

theorem execWsIntestScan_keeps {km kf ku : Bool} (s : State) : OutKeeps km kf ku s (execWsIntestScan s) := by
  unfold execWsIntestScan
  repeat' (
    first
    | with_reducible assumption | with_reducible exact Keeps.refl _ | with_reducible apply OutKeeps.next
    | with_reducible apply OutKeeps.ite | with_reducible apply State.loadWir_keeps | with_reducible apply Keeps.inAo
    | with_reducible apply Keeps.ite | intro _ _ _ _ _ | intro _ _ _ _ | intro _ _ _ | intro _ _ | split
    | with_reducible apply Keeps.fields)

theorem execWsBist_keeps {km kf ku : Bool} (s : State) : OutKeeps km kf ku s (execWsBist s) := by
  unfold execWsBist
  repeat' (
    first
    | with_reducible assumption | with_reducible exact Keeps.refl _ | with_reducible apply OutKeeps.next
    | with_reducible apply OutKeeps.ite | with_reducible apply State.bistGo_keeps | with_reducible apply State.loadWir_keeps
    | with_reducible apply Keeps.inAo | with_reducible apply Keeps.ite | intro _ _ _ _ _ | intro _ _ _ _ | intro _ _ _
    | intro _ _ | split | with_reducible apply Keeps.fields)

end Sys2Proof.Machine
end

