-- ==== Sys2Proof/Laws/KeepsBus.lean ====
section
/-! SUPPORT. What the operations of Machine/Bus.lean keep (the relation Keeps). -/
set_option linter.unusedTactic false
set_option linter.unreachableTactic false
set_option linter.unusedVariables false
namespace Sys2Proof.Machine

theorem State.trail_keeps {km kf ku : Bool} {s₀ : State} (s : State) (w : BusId) (id : Nat) (bytes : List Byte) (hk : Keeps km kf ku s₀ s) :
    Keeps km kf ku s₀ (State.trail s w id bytes) := by
  unfold State.trail
  repeat' (
    first
    | with_reducible assumption | with_reducible apply State.send_keeps | with_reducible apply Keeps.ite | intro _ _ _ _ _
    | intro _ _ _ _ | intro _ _ _ | intro _ _ | split | with_reducible apply Keeps.fields)

theorem State.flushHeld_keeps {km kf ku : Bool} {s₀ : State} (s : State) (hk : Keeps km kf ku s₀ s) :
    Keeps km kf ku s₀ (State.flushHeld s) := by
  unfold State.flushHeld
  repeat' (
    first
    | with_reducible assumption | with_reducible apply State.trail_keeps | with_reducible apply Keeps.each
    | with_reducible apply Keeps.ite | intro _ _ _ _ _ | intro _ _ _ _ | intro _ _ _ | intro _ _ | split
    | with_reducible apply Keeps.fields)

theorem State.setBusState_keeps {km kf ku : Bool} {s₀ : State} (s : State) (w : BusId) (st : Nat) (hk : Keeps km kf ku s₀ s) :
    Keeps km kf ku s₀ (State.setBusState s w st) := by
  unfold State.setBusState
  repeat' (
    first
    | with_reducible assumption | with_reducible apply State.flushHeld_keeps | with_reducible apply State.record_keeps
    | with_reducible apply State.wr_keeps | with_reducible apply Keeps.ite | intro _ _ _ _ _ | intro _ _ _ _ | intro _ _ _
    | intro _ _ | split | with_reducible apply Keeps.fields)

theorem State.busOff_keeps {km kf ku : Bool} {s₀ : State} (s : State) (w : BusId) (hk : Keeps km kf ku s₀ s) :
    Keeps km kf ku s₀ (State.busOff s w) := by
  unfold State.busOff
  repeat' (
    first
    | with_reducible assumption | with_reducible apply State.inc_keeps | with_reducible apply State.setBusState_keeps
    | with_reducible apply Keeps.ite | intro _ _ _ _ _ | intro _ _ _ _ | intro _ _ _ | intro _ _ | split
    | with_reducible apply Keeps.fields)

theorem execBusStateChange_keeps {km kf ku : Bool} (bus : BusId) (can : CanState) (tec rec : Nat) (s : State) :
    OutKeeps km kf ku s (execBusStateChange bus can tec rec s) := by
  unfold execBusStateChange
  repeat' (
    first
    | with_reducible assumption | with_reducible exact Keeps.refl _ | with_reducible apply OutKeeps.next
    | with_reducible apply OutKeeps.ite | with_reducible apply State.busOff_keeps | with_reducible apply State.setBusState_keeps
    | with_reducible apply State.wr_keeps | with_reducible apply Keeps.inAo | with_reducible apply Keeps.ite | intro _ _ _ _ _
    | intro _ _ _ _ | intro _ _ _ | intro _ _ | split | with_reducible apply Keeps.fields)

theorem execBenchedEnd_keeps {km kf ku : Bool} (bus : BusId) (s : State) : OutKeeps km kf ku s (execBenchedEnd bus s) := by
  unfold execBenchedEnd
  repeat' (
    first
    | with_reducible assumption | with_reducible exact Keeps.refl _ | with_reducible apply OutKeeps.next
    | with_reducible apply OutKeeps.ite | with_reducible apply State.setBusState_keeps | with_reducible apply State.wr_keeps
    | with_reducible apply Keeps.inAo | with_reducible apply Keeps.ite | intro _ _ _ _ _ | intro _ _ _ _ | intro _ _ _
    | intro _ _ | split | with_reducible apply Keeps.fields)

theorem execDupaddr_keeps {km kf ku : Bool} (bus : BusId) (s : State) : OutKeeps km kf ku s (execDupaddr bus s) := by
  unfold execDupaddr
  repeat' (
    first
    | with_reducible assumption | with_reducible exact Keeps.refl _ | with_reducible apply OutKeeps.next
    | with_reducible apply OutKeeps.ite | with_reducible apply State.record_keeps | with_reducible apply State.setBusState_keeps
    | with_reducible apply State.wr_keeps | with_reducible apply Keeps.inAo | with_reducible apply Keeps.ite | intro _ _ _ _ _
    | intro _ _ _ _ | intro _ _ _ | intro _ _ | split | with_reducible apply Keeps.fields)

theorem State.writeMgbCtl_keeps {km kf ku : Bool} {s₀ : State} (s : State) (v : Word) (hk : Keeps km kf ku s₀ s) :
    Keeps km kf ku s₀ (State.writeMgbCtl s v) := by
  unfold State.writeMgbCtl
  repeat' (
    first
    | with_reducible assumption | with_reducible apply State.plainWrite_keeps | with_reducible apply State.setBusState_keeps
    | with_reducible apply Keeps.each | with_reducible apply Keeps.ite | intro _ _ _ _ _ | intro _ _ _ _ | intro _ _ _
    | intro _ _ | split | with_reducible apply Keeps.fields)

theorem State.sendResponse_keeps {km kf ku : Bool} {s₀ : State} (s : State) (w : BusId) (pri type seq : Nat) (bytes : List Byte) (hk : Keeps km kf ku s₀ s) :
    Keeps km kf ku s₀ (State.sendResponse s w pri type seq bytes) := by
  unfold State.sendResponse
  repeat' (
    first
    | with_reducible assumption | with_reducible apply State.trail_keeps | with_reducible apply Keeps.ite | intro _ _ _ _ _
    | intro _ _ _ _ | intro _ _ _ | intro _ _ | split | with_reducible apply Keeps.fields)

theorem execResponseHoldTimeout_keeps {km kf ku : Bool} (s : State) : OutKeeps km kf ku s (execResponseHoldTimeout s) := by
  unfold execResponseHoldTimeout
  repeat' (
    first
    | with_reducible assumption | with_reducible exact Keeps.refl _ | with_reducible apply OutKeeps.next
    | with_reducible apply OutKeeps.ite | with_reducible apply Keeps.inAo | with_reducible apply Keeps.ite | intro _ _ _ _ _
    | intro _ _ _ _ | intro _ _ _ | intro _ _ | split | with_reducible apply Keeps.fields)

theorem execLone_keeps {km kf ku : Bool} (bus : BusId) (s : State) : OutKeeps km kf ku s (execLone bus s) := by
  unfold execLone
  repeat' (
    first
    | with_reducible assumption | with_reducible exact Keeps.refl _ | with_reducible apply OutKeeps.next
    | with_reducible apply OutKeeps.ite | with_reducible apply State.inc_keeps | with_reducible apply State.setBusState_keeps
    | with_reducible apply State.trail_keeps | with_reducible apply Keeps.inAo | with_reducible apply Keeps.ite
    | intro _ _ _ _ _ | intro _ _ _ _ | intro _ _ _ | intro _ _ | split | with_reducible apply Keeps.fields)

theorem execNoticeSend_keeps {km kf ku : Bool} (s : State) : OutKeeps km kf ku s (execNoticeSend s) := by
  unfold execNoticeSend
  repeat' (
    first
    | with_reducible assumption | with_reducible exact Keeps.refl _ | with_reducible apply OutKeeps.next
    | with_reducible apply OutKeeps.ite | with_reducible apply State.trail_keeps | with_reducible apply Keeps.inAo
    | with_reducible apply Keeps.ite | intro _ _ _ _ _ | intro _ _ _ _ | intro _ _ _ | intro _ _ | split
    | with_reducible apply Keeps.fields)

theorem execNoticeTokenRefill_keeps {km kf ku : Bool} (s : State) : OutKeeps km kf ku s (execNoticeTokenRefill s) := by
  unfold execNoticeTokenRefill
  repeat' (
    first
    | with_reducible assumption | with_reducible exact Keeps.refl _ | with_reducible apply OutKeeps.next
    | with_reducible apply OutKeeps.ite | with_reducible apply Keeps.inAo | with_reducible apply Keeps.ite | intro _ _ _ _ _
    | intro _ _ _ _ | intro _ _ _ | intro _ _ | split | with_reducible apply Keeps.fields)

theorem execBusBeacon_keeps {km kf ku : Bool} (s : State) : OutKeeps km kf ku s (execBusBeacon s) := by
  unfold execBusBeacon
  repeat' (
    first
    | with_reducible assumption | with_reducible exact Keeps.refl _ | with_reducible apply OutKeeps.next
    | with_reducible apply OutKeeps.ite | with_reducible apply State.trail_keeps | with_reducible apply Keeps.each
    | with_reducible apply Keeps.inAo | with_reducible apply Keeps.ite | intro _ _ _ _ _ | intro _ _ _ _ | intro _ _ _
    | intro _ _ | split | with_reducible apply Keeps.fields)

end Sys2Proof.Machine
end

