-- ==== Sys2Proof/Laws/KeepsRegisters.lean ====
section
/-! SUPPORT. What the operations of Machine/Registers.lean keep (the relation Keeps). -/
set_option linter.unusedTactic false
set_option linter.unreachableTactic false
set_option linter.unusedVariables false
namespace Sys2Proof.Machine

theorem State.writeRstctl_keeps {km ku : Bool} {s₀ : State} (s : State) (v : Word) (hk : Keeps km true ku s₀ s) :
    Keeps km true ku s₀ (State.writeRstctl s v) := by
  unfold State.writeRstctl
  repeat' (
    first
    | with_reducible assumption | with_reducible apply State.writeHoclr_keeps | with_reducible apply State.writeRstign_keeps
    | with_reducible apply State.writeSwrst_keeps | with_reducible apply Keeps.ite | intro _ _ _ _ _ | intro _ _ _ _
    | intro _ _ _ | intro _ _ | split | with_reducible apply Keeps.fields)

theorem State.writePhs_keeps {km kf ku : Bool} {s₀ : State} (s : State) (a : Nat) (v : Word) (hk : Keeps km kf ku s₀ s) :
    Keeps km kf ku s₀ (State.writePhs s a v) := by
  unfold State.writePhs
  repeat' (
    first
    | with_reducible assumption | with_reducible apply State.plainWrite_keeps | with_reducible apply State.writePhsAdv_keeps
    | with_reducible apply State.writePhsGseg_keeps | with_reducible apply State.writePhsSel_keeps
    | with_reducible apply State.writePhsTbl_keeps | with_reducible apply Keeps.ite | intro _ _ _ _ _ | intro _ _ _ _
    | intro _ _ _ | intro _ _ | split | with_reducible apply Keeps.fields)

theorem State.writeGldCtl_keeps {km kf ku : Bool} {s₀ : State} (s : State) (g : Nat) (v : Word) (hk : Keeps km kf ku s₀ s) :
    Keeps km kf ku s₀ (State.writeGldCtl s g v) := by
  unfold State.writeGldCtl
  repeat' (
    first
    | with_reducible assumption | with_reducible apply State.gladeDisable_keeps | with_reducible apply State.gladeEnable_keeps
    | with_reducible apply State.guardedWrite_keeps | with_reducible apply Keeps.ite | intro _ _ _ _ _ | intro _ _ _ _
    | intro _ _ _ | intro _ _ | split | with_reducible apply Keeps.fields)

theorem State.writeGld_keeps {kf ku : Bool} {s₀ : State} (s : State) (g o a : Nat) (v : Word) (hk : Keeps true kf ku s₀ s) :
    Keeps true kf ku s₀ (State.writeGld s g o a v) := by
  unfold State.writeGld
  repeat' (
    first
    | with_reducible assumption | with_reducible apply State.guardedWrite_keeps | with_reducible apply State.plainWrite_keeps
    | with_reducible apply State.writeGldCtl_keeps | with_reducible apply State.writeSbctl_keeps
    | with_reducible apply Keeps.ite | intro _ _ _ _ _ | intro _ _ _ _ | intro _ _ _ | intro _ _ | split
    | with_reducible apply Keeps.fields)

theorem State.refreshSpare_keeps {km kf ku : Bool} {s₀ : State} (s : State) (g : Nat) (hk : Keeps km kf ku s₀ s) :
    Keeps km kf ku s₀ (State.refreshSpare s g) := by
  unfold State.refreshSpare
  repeat' (
    first
    | with_reducible assumption | with_reducible apply State.setMstate_keeps | with_reducible apply Keeps.ite | intro _ _ _ _ _
    | intro _ _ _ _ | intro _ _ _ | intro _ _ | split | with_reducible apply Keeps.fields)

theorem State.writeCpcmd_keeps {kf ku : Bool} {s₀ : State} (s : State) (v : Word) (hk : Keeps true kf ku s₀ s) :
    Keeps true kf ku s₀ (State.writeCpcmd s v) := by
  unfold State.writeCpcmd
  repeat' (
    first
    | with_reducible assumption | with_reducible apply State.plainWrite_keeps | with_reducible apply State.planAbort_keeps
    | with_reducible apply State.planLoad_keeps | with_reducible apply Keeps.ite | intro _ _ _ _ _ | intro _ _ _ _ | intro _ _ _
    | intro _ _ | split | with_reducible apply Keeps.fields)

theorem State.writeGrv_keeps {kf ku : Bool} {s₀ : State} (s : State) (a : Nat) (v : Word) (hk : Keeps true kf ku s₀ s) :
    Keeps true kf ku s₀ (State.writeGrv s a v) := by
  unfold State.writeGrv
  repeat' (
    first
    | with_reducible assumption | with_reducible apply State.forceFence_keeps | with_reducible apply State.imgUse_keeps
    | with_reducible apply State.plainWrite_keeps | with_reducible apply State.refreshSpare_keeps
    | with_reducible apply State.writeCpcmd_keeps | with_reducible apply State.writeWimgCtl_keeps
    | with_reducible apply Keeps.ite | intro _ _ _ _ _ | intro _ _ _ _ | intro _ _ _ | intro _ _ | split
    | with_reducible apply Keeps.fields)

theorem State.writeGctl_keeps {km kf ku : Bool} {s₀ : State} (s : State) (g : Nat) (v : Word) (hk : Keeps km kf ku s₀ s) :
    Keeps km kf ku s₀ (State.writeGctl s g v) := by
  unfold State.writeGctl
  repeat' (
    first
    | with_reducible assumption | with_reducible apply State.plainWrite_keeps | with_reducible apply State.record_keeps
    | with_reducible apply Keeps.ite | intro _ _ _ _ _ | intro _ _ _ _ | intro _ _ _ | intro _ _ | split
    | with_reducible apply Keeps.fields)

theorem State.writeStp_keeps {km kf ku : Bool} {s₀ : State} (s : State) (a : Nat) (v : Word) (hk : Keeps km kf ku s₀ s) :
    Keeps km kf ku s₀ (State.writeStp s a v) := by
  unfold State.writeStp
  repeat' (
    first
    | with_reducible assumption | with_reducible apply State.guardedWrite_keeps | with_reducible apply State.plainWrite_keeps
    | with_reducible apply State.writeGctl_keeps | with_reducible apply State.writePmem_keeps
    | with_reducible apply State.writeSlot_keeps | with_reducible apply Keeps.ite | intro _ _ _ _ _ | intro _ _ _ _
    | intro _ _ _ | intro _ _ | split | with_reducible apply Keeps.fields)

theorem State.writeCq_keeps {km kf ku : Bool} {s₀ : State} (s : State) (a : Nat) (v : Word) (hk : Keeps km kf ku s₀ s) :
    Keeps km kf ku s₀ (State.writeCq s a v) := by
  unfold State.writeCq
  repeat' (
    first
    | with_reducible assumption | with_reducible apply State.guardedWrite_keeps | with_reducible apply State.plainWrite_keeps
    | with_reducible apply State.writeQbase_keeps | with_reducible apply State.writeQctl_keeps
    | with_reducible apply State.writeQtail_keeps | with_reducible apply Keeps.ite | intro _ _ _ _ _ | intro _ _ _ _
    | intro _ _ _ | intro _ _ | split | with_reducible apply Keeps.fields)

theorem State.writeTil_keeps {km kf ku : Bool} {s₀ : State} (s : State) (t a : Nat) (v : Word) (hk : Keeps km kf ku s₀ s) :
    Keeps km kf ku s₀ (State.writeTil s t a v) := by
  unfold State.writeTil
  repeat' (
    first
    | with_reducible assumption | with_reducible apply State.plainWrite_keeps | with_reducible apply State.writeRngin_keeps
    | with_reducible apply Keeps.ite | intro _ _ _ _ _ | intro _ _ _ _ | intro _ _ _ | intro _ _ | split
    | with_reducible apply Keeps.fields)

theorem State.writeMapdata_keeps {km kf ku : Bool} {s₀ : State} (s : State) (v : Word) (hk : Keeps km kf ku s₀ s) :
    Keeps km kf ku s₀ (State.writeMapdata s v) := by
  unfold State.writeMapdata
  repeat' (
    first
    | with_reducible assumption | with_reducible apply State.record_keeps | with_reducible apply State.setMapEntry_keeps
    | with_reducible apply Keeps.ite | intro _ _ _ _ _ | intro _ _ _ _ | intro _ _ _ | intro _ _ | split
    | with_reducible apply Keeps.fields)

theorem State.writeRtr_keeps {km kf ku : Bool} {s₀ : State} (s : State) (a : Nat) (v : Word) (hk : Keeps km kf ku s₀ s) :
    Keeps km kf ku s₀ (State.writeRtr s a v) := by
  unfold State.writeRtr
  repeat' (
    first
    | with_reducible assumption | with_reducible apply State.guardedWrite_keeps | with_reducible apply State.plainWrite_keeps
    | with_reducible apply State.writeMapdata_keeps | with_reducible apply State.writeRtrSelf_keeps
    | with_reducible apply State.writeRtrShape_keeps | with_reducible apply Keeps.ite | intro _ _ _ _ _ | intro _ _ _ _
    | intro _ _ _ | intro _ _ | split | with_reducible apply Keeps.fields)

theorem State.writeLnk_keeps {km kf ku : Bool} {s₀ : State} (s : State) (p o a : Nat) (v : Word) (hk : Keeps km kf ku s₀ s) :
    Keeps km kf ku s₀ (State.writeLnk s p o a v) := by
  unfold State.writeLnk
  repeat' (
    first
    | with_reducible assumption | with_reducible apply State.plainWrite_keeps | with_reducible apply State.pump_keeps
    | with_reducible apply State.retrim_keeps | with_reducible apply State.writeLnkCtl_keeps | with_reducible apply Keeps.ite
    | intro _ _ _ _ _ | intro _ _ _ _ | intro _ _ _ | intro _ _ | split | with_reducible apply Keeps.fields)

theorem State.writeMptBgt_keeps {km kf ku : Bool} {s₀ : State} (s : State) (a : Nat) (v : Word) (hk : Keeps km kf ku s₀ s) :
    Keeps km kf ku s₀ (State.writeMptBgt s a v) := by
  unfold State.writeMptBgt
  repeat' (
    first
    | with_reducible assumption | with_reducible apply State.guardedWrite_keeps | with_reducible apply State.plainWrite_keeps
    | with_reducible apply State.writeAudctl_keeps | with_reducible apply State.writeBudget_keeps
    | with_reducible apply Keeps.ite | intro _ _ _ _ _ | intro _ _ _ _ | intro _ _ _ | intro _ _ | split
    | with_reducible apply Keeps.fields)

theorem State.writeSec_keeps {kf ku : Bool} {s₀ : State} (s : State) (a : Nat) (v : Word) (hk : Keeps true kf ku s₀ s) :
    Keeps true kf ku s₀ (State.writeSec s a v) := by
  unfold State.writeSec
  repeat' (
    first
    | with_reducible assumption | with_reducible apply State.keyLoad_keeps | with_reducible apply State.plainWrite_keeps
    | with_reducible apply State.token_keeps | with_reducible apply Keeps.ite | intro _ _ _ _ _ | intro _ _ _ _ | intro _ _ _
    | intro _ _ | split | with_reducible apply Keeps.fields)

theorem State.writeFus_keeps {kf ku : Bool} {s₀ : State} (s : State) (a : Nat) (v : Word) (hk : Keeps true kf ku s₀ s) :
    Keeps true kf ku s₀ (State.writeFus s a v) := by
  unfold State.writeFus
  repeat' (
    first
    | with_reducible assumption | with_reducible apply State.groupBurn_keeps | with_reducible apply State.lifeCycle_keeps
    | with_reducible apply State.plainWrite_keeps | with_reducible apply Keeps.ite | intro _ _ _ _ _ | intro _ _ _ _
    | intro _ _ _ | intro _ _ | split | with_reducible apply Keeps.fields)

theorem State.writeDctl_keeps {km kf ku : Bool} {s₀ : State} (s : State) (v : Word) (hk : Keeps km kf ku s₀ s) :
    Keeps km kf ku s₀ (State.writeDctl s v) := by
  unfold State.writeDctl
  repeat' (
    first
    | with_reducible assumption | with_reducible apply State.forceHalt_keeps | with_reducible apply State.haltRequest_keeps
    | with_reducible apply State.rangerResume_keeps | with_reducible apply State.rangerStep_keeps
    | with_reducible apply Keeps.ite | intro _ _ _ _ _ | intro _ _ _ _ | intro _ _ _ | intro _ _ | split
    | with_reducible apply Keeps.fields)

theorem State.writeRgr_keeps {km kf ku : Bool} {s₀ : State} (s : State) (a : Nat) (v : Word) (hk : Keeps km kf ku s₀ s) :
    Keeps km kf ku s₀ (State.writeRgr s a v) := by
  unfold State.writeRgr
  repeat' (
    first
    | with_reducible assumption | with_reducible apply State.plainWrite_keeps | with_reducible apply State.writeDctl_keeps
    | with_reducible apply State.writeLocal_keeps | with_reducible apply Keeps.ite | intro _ _ _ _ _ | intro _ _ _ _
    | intro _ _ _ | intro _ _ | split | with_reducible apply Keeps.fields)

theorem State.writeNvm_keeps {km kf ku : Bool} {s₀ : State} (s : State) (a : Nat) (v : Word) (hk : Keeps km kf ku s₀ s) :
    Keeps km kf ku s₀ (State.writeNvm s a v) := by
  unfold State.writeNvm
  repeat' (
    first
    | with_reducible assumption | with_reducible apply State.flashGo_keeps | with_reducible apply State.plainWrite_keeps
    | with_reducible apply Keeps.ite | intro _ _ _ _ _ | intro _ _ _ _ | intro _ _ _ | intro _ _ | split
    | with_reducible apply Keeps.fields)

theorem State.writeWpt_keeps {km kf ku : Bool} {s₀ : State} (s : State) (a : Nat) (v : Word) (hk : Keeps km kf ku s₀ s) :
    Keeps km kf ku s₀ (State.writeWpt s a v) := by
  unfold State.writeWpt
  repeat' (
    first
    | with_reducible assumption | with_reducible apply State.plainWrite_keeps | with_reducible apply State.writeWptCtl_keeps
    | with_reducible apply State.writeWptMap_keeps | with_reducible apply Keeps.ite | intro _ _ _ _ _ | intro _ _ _ _
    | intro _ _ _ | intro _ _ | split | with_reducible apply Keeps.fields)

theorem State.writeTst_keeps {km kf ku : Bool} {s₀ : State} (s : State) (a : Nat) (v : Word) (hk : Keeps km kf ku s₀ s) :
    Keeps km kf ku s₀ (State.writeTst s a v) := by
  unfold State.writeTst
  repeat' (
    first
    | with_reducible assumption | with_reducible apply State.bistGo_keeps | with_reducible apply State.laneTest_keeps
    | with_reducible apply State.plainWrite_keeps | with_reducible apply Keeps.ite | intro _ _ _ _ _ | intro _ _ _ _
    | intro _ _ _ | intro _ _ | split | with_reducible apply Keeps.fields)

theorem State.writeAo_keeps {ku : Bool} {s₀ : State} (s : State) (a : Nat) (v : Word) (hk : Keeps true true ku s₀ s) :
    Keeps true true ku s₀ (State.writeAo s a v) := by
  unfold State.writeAo
  repeat' (
    first
    | with_reducible assumption | with_reducible apply State.plainWrite_keeps | with_reducible apply State.writeCursor_keeps
    | with_reducible apply State.writeFus_keeps | with_reducible apply State.writeMgbCtl_keeps
    | with_reducible apply State.writeNvm_keeps | with_reducible apply State.writeRstctl_keeps
    | with_reducible apply State.writeTst_keeps | with_reducible apply State.writeWpt_keeps | with_reducible apply Keeps.ite
    | intro _ _ _ _ _ | intro _ _ _ _ | intro _ _ _ | intro _ _ | split | with_reducible apply Keeps.fields)

theorem State.writeMain_keeps {kf ku : Bool} {s₀ : State} (s : State) (a : Nat) (v : Word) (hk : Keeps true kf ku s₀ s) :
    Keeps true kf ku s₀ (State.writeMain s a v) := by
  unfold State.writeMain
  repeat' (
    first
    | with_reducible assumption | with_reducible apply State.writeCq_keeps | with_reducible apply State.writeGld_keeps
    | with_reducible apply State.writeGrv_keeps | with_reducible apply State.writeLnk_keeps
    | with_reducible apply State.writeMptBgt_keeps | with_reducible apply State.writePhs_keeps
    | with_reducible apply State.writeRgr_keeps | with_reducible apply State.writeRtr_keeps
    | with_reducible apply State.writeSec_keeps | with_reducible apply State.writeStp_keeps
    | with_reducible apply State.writeTil_keeps | with_reducible apply Keeps.ite | intro _ _ _ _ _ | intro _ _ _ _ | intro _ _ _
    | intro _ _ | split | with_reducible apply Keeps.fields)

theorem State.writeReg_keeps {ku : Bool} {s₀ : State} (s : State) (a : Nat) (v : Word) (hk : Keeps true true ku s₀ s) :
    Keeps true true ku s₀ (State.writeReg s a v).2 := by
  unfold State.writeReg
  try dsimp only
  repeat' (
    first
    | with_reducible assumption | with_reducible apply State.writeAo_keeps | with_reducible apply State.writeMain_keeps
    | with_reducible apply Keeps.ite | intro _ _ _ _ _ | intro _ _ _ _ | intro _ _ _ | intro _ _ | split
    | with_reducible apply Keeps.fields)

theorem State.rngSettle_keeps {km kf ku : Bool} {s₀ : State} (s : State) (a : Nat) (hk : Keeps km kf ku s₀ s) :
    Keeps km kf ku s₀ (State.rngSettle s a) := by
  unfold State.rngSettle
  repeat' (
    first
    | with_reducible assumption | with_reducible apply State.rngDone_keeps | with_reducible apply Keeps.ite | intro _ _ _ _ _
    | intro _ _ _ _ | intro _ _ _ | intro _ _ | split | with_reducible apply Keeps.fields)

theorem State.readReg_keeps {km kf ku : Bool} {s₀ : State} (s : State) (a : Nat) (hk : Keeps km kf ku s₀ s) :
    Keeps km kf ku s₀ (State.readReg s a).2 := by
  unfold State.readReg
  try dsimp only
  repeat' (
    first
    | with_reducible assumption | with_reducible apply State.readWin_keeps | with_reducible apply State.readWin3_keeps
    | with_reducible apply State.rngSettle_keeps | with_reducible apply Keeps.setReg | with_reducible apply State.sramRead_keeps
    | with_reducible apply Keeps.ite | intro _ _ _ _ _ | intro _ _ _ _ | intro _ _ _ | intro _ _ | split
    | with_reducible apply Keeps.fields)

theorem State.fwRecord_keeps {km kf ku : Bool} {s₀ : State} (s : State) (e : Ev) (hk : Keeps km kf ku s₀ s) :
    Keeps km kf ku s₀ (State.fwRecord s e) := by
  unfold State.fwRecord
  repeat' (
    first
    | with_reducible assumption | with_reducible apply State.record_keeps | with_reducible apply State.useFree_keeps
    | with_reducible apply Keeps.ite | intro _ _ _ _ _ | intro _ _ _ _ | intro _ _ _ | intro _ _ | split
    | with_reducible apply Keeps.fields)

theorem State.cfgWrite_keeps {ku : Bool} {s₀ : State} (s : State) (a : Nat) (v : Word) (hk : Keeps true true ku s₀ s) :
    Keeps true true ku s₀ (State.cfgWrite s a v) := by
  unfold State.cfgWrite
  repeat' (
    first
    | with_reducible assumption | with_reducible apply State.fwRecord_keeps | with_reducible apply State.writeReg_keeps
    | with_reducible apply Keeps.ite | intro _ _ _ _ _ | intro _ _ _ _ | intro _ _ _ | intro _ _ | split
    | with_reducible apply Keeps.fields)

theorem State.accessWrite_keeps {ku : Bool} {s₀ : State} (s : State) (via : Via) (a : Nat) (be : Byte) (v : Word) (hk : Keeps true true ku s₀ s) :
    Keeps true true ku s₀ (State.accessWrite s via a be v) := by
  unfold State.accessWrite
  repeat' (
    first
    | with_reducible assumption | with_reducible apply State.cfgWrite_keeps | with_reducible apply State.respond_keeps
    | with_reducible apply State.writeReg_keeps | with_reducible apply Keeps.ite | intro _ _ _ _ _ | intro _ _ _ _ | intro _ _ _
    | intro _ _ | split | with_reducible apply Keeps.fields)

theorem State.accessRead_keeps {km kf ku : Bool} {s₀ : State} (s : State) (via : Via) (a : Nat) (be : Byte) (hk : Keeps km kf ku s₀ s) :
    Keeps km kf ku s₀ (State.accessRead s via a be) := by
  unfold State.accessRead
  repeat' (
    first
    | with_reducible assumption | with_reducible apply State.readReg_keeps | with_reducible apply State.respond_keeps
    | with_reducible apply State.updTl_keeps | with_reducible apply Keeps.ite | intro _ _ _ _ _ | intro _ _ _ _ | intro _ _ _
    | intro _ _ | split | with_reducible apply Keeps.fields)

theorem execRegisterWrite_keeps {ku : Bool} (via : Via) (addr : BitVec 24) (be : Byte) (value : Word) (s : State) :
    OutKeeps true true ku s (execRegisterWrite via addr be value s) := by
  unfold execRegisterWrite
  repeat' (
    first
    | with_reducible assumption | with_reducible exact Keeps.refl _ | with_reducible apply OutKeeps.next
    | with_reducible apply OutKeeps.ite | with_reducible apply State.accessWrite_keeps | with_reducible apply Keeps.inAo
    | with_reducible apply Keeps.ite | intro _ _ _ _ _ | intro _ _ _ _ | intro _ _ _ | intro _ _ | split
    | with_reducible apply Keeps.fields)

theorem execRcFieldRead_keeps {km kf ku : Bool} (via : Via) (addr : BitVec 24) (be : Byte) (s : State) :
    OutKeeps km kf ku s (execRcFieldRead via addr be s) := by
  unfold execRcFieldRead
  repeat' (
    first
    | with_reducible assumption | with_reducible exact Keeps.refl _ | with_reducible apply OutKeeps.next
    | with_reducible apply OutKeeps.ite | with_reducible apply State.accessRead_keeps | with_reducible apply Keeps.inAo
    | with_reducible apply Keeps.ite | intro _ _ _ _ _ | intro _ _ _ _ | intro _ _ _ | intro _ _ | split
    | with_reducible apply Keeps.fields)

theorem execRegisterAccessWithdraw_keeps {km kf ku : Bool} (write : Bool) (addr : BitVec 24) (s : State) :
    OutKeeps km kf ku s (execRegisterAccessWithdraw write addr s) := by
  unfold execRegisterAccessWithdraw
  repeat' (
    first
    | with_reducible assumption | with_reducible exact Keeps.refl _ | with_reducible apply OutKeeps.next
    | with_reducible apply OutKeeps.ite | with_reducible apply State.respond_keeps | with_reducible apply State.updTl_keeps
    | with_reducible apply Keeps.inAo | with_reducible apply Keeps.ite | intro _ _ _ _ _ | intro _ _ _ _ | intro _ _ _
    | intro _ _ | split | with_reducible apply Keeps.fields)

theorem State.applyRec_keeps {ku : Bool} {s₀ : State} (s : State) (r : CfgRec) (hk : Keeps true true ku s₀ s) :
    Keeps true true ku s₀ (State.applyRec s r) := by
  unfold State.applyRec
  repeat' (
    first
    | with_reducible assumption | with_reducible apply State.applyNode_keeps | with_reducible apply State.cfgWrite_keeps
    | with_reducible apply State.fwRecord_keeps | with_reducible apply Keeps.each | with_reducible apply Keeps.ite
    | intro _ _ _ _ _ | intro _ _ _ _ | intro _ _ _ | intro _ _ | split | with_reducible apply Keeps.fields)

theorem execConfigApply_keeps {ku : Bool} (s : State) : OutKeeps true true ku s (execConfigApply s) := by
  unfold execConfigApply
  repeat' (
    first
    | with_reducible assumption | with_reducible exact Keeps.refl _ | with_reducible apply OutKeeps.next
    | with_reducible apply OutKeeps.ite | with_reducible apply State.advanceEpoch_keeps
    | with_reducible apply State.applyRec_keeps | with_reducible apply State.fwRecord_keeps
    | with_reducible apply State.linkEnable_keeps | with_reducible apply State.loadPrograms_keeps
    | with_reducible apply Keeps.each | with_reducible apply Keeps.inMain | with_reducible apply Keeps.ite | intro _ _ _ _ _
    | intro _ _ _ _ | intro _ _ _ | intro _ _ | split | with_reducible apply Keeps.fields)

end Sys2Proof.Machine
end

