-- ==== Sys2Proof/Laws/KeepsTrail.lean ====
section
/-! SUPPORT. What the operations of Machine/Trail.lean keep (the relation Keeps). -/
set_option linter.unusedTactic false
set_option linter.unreachableTactic false
set_option linter.unusedVariables false
namespace Sys2Proof.Machine

theorem State.complete_keeps {km kf ku : Bool} {s₀ : State} (s : State) (bus : BusId) (pri : Fin 8) (type : Nat) (seq : Byte) (payload : List Byte) (r : Answer) (hk : Keeps km kf ku s₀ s) :
    Keeps km kf ku s₀ (State.complete s bus pri type seq payload r) := by
  unfold State.complete
  repeat' (
    first
    | with_reducible assumption | with_reducible apply State.inc_keeps | with_reducible apply State.sendResponse_keeps
    | with_reducible apply Keeps.ite | intro _ _ _ _ _ | intro _ _ _ _ | intro _ _ _ | intro _ _ | split
    | with_reducible apply Keeps.fields)

theorem State.command_keeps {km kf ku : Bool} {s₀ : State} (s : State) (bus : BusId) (pri : Fin 8) (type len : Nat) (seq : Byte) (payload : List Byte) (run : State → List Byte → Answer × State) (hk : Keeps km kf ku s₀ s) (hf : ∀ v x0, Keeps km kf ku s₀ v → Keeps km kf ku s₀ (run v x0).2) :
    Keeps km kf ku s₀ (State.command s bus pri type len seq payload run) := by
  unfold State.command
  repeat' (
    first
    | with_reducible assumption | with_reducible apply State.complete_keeps | with_reducible apply State.inc_keeps
    | with_reducible apply State.sendResponse_keeps | with_reducible apply hf | with_reducible apply Keeps.inAo
    | with_reducible apply Keeps.ite | intro _ _ _ _ _ | intro _ _ _ _ | intro _ _ _ | intro _ _ | split
    | with_reducible apply Keeps.fields)

theorem State.ping_keeps {km kf ku : Bool} {s₀ : State} (s : State) (p : List Byte) (hk : Keeps km kf ku s₀ s) :
    Keeps km kf ku s₀ (State.ping s p).2 := hk

theorem State.busReads_keeps {km kf ku : Bool} {s₀ : State} (s : State) (a n : Nat) (h : Keeps km kf ku s₀ s) :
    Keeps km kf ku s₀ (State.busReads s a n).2.1 := by
  induction n generalizing s a with
  | zero => exact h
  | succ n ih =>
    unfold State.busReads
    dsimp only
    split
    · exact State.readReg_keeps _ _ h
    · exact ih _ _ (State.readReg_keeps _ _ h)

theorem State.busRead_keeps {km kf ku : Bool} {s₀ : State} (s : State) (p : List Byte) (hk : Keeps km kf ku s₀ s) :
    Keeps km kf ku s₀ (State.busRead s p).2 := by
  unfold State.busRead
  try dsimp only
  repeat' (
    first
    | with_reducible assumption | with_reducible apply State.busReads_keeps | with_reducible apply Keeps.ite | intro _ _ _ _ _
    | intro _ _ _ _ | intro _ _ _ | intro _ _ | split | with_reducible apply Keeps.fields)

theorem State.busWrite_keeps {ku : Bool} {s₀ : State} (s : State) (p : List Byte) (hk : Keeps true true ku s₀ s) :
    Keeps true true ku s₀ (State.busWrite s p).2 := by
  unfold State.busWrite
  try dsimp only
  repeat' (
    first
    | with_reducible assumption | with_reducible apply State.writeReg_keeps | with_reducible apply Keeps.ite | intro _ _ _ _ _
    | intro _ _ _ _ | intro _ _ _ | intro _ _ | split | with_reducible apply Keeps.fields)

theorem State.evread_keeps {km kf ku : Bool} {s₀ : State} (s : State) (p : List Byte) (hk : Keeps km kf ku s₀ s) :
    Keeps km kf ku s₀ (State.evread s p).2 := by
  unfold State.evread
  try dsimp only
  repeat' (
    first
    | with_reducible assumption | with_reducible apply Keeps.ite | intro _ _ _ _ _ | intro _ _ _ _ | intro _ _ _ | intro _ _
    | split | with_reducible apply Keeps.fields)

theorem State.busReset_keeps {km kf ku : Bool} {s₀ : State} (s : State) (p : List Byte) (hk : Keeps km kf ku s₀ s) :
    Keeps km kf ku s₀ (State.busReset s p).2 := by
  unfold State.busReset
  try dsimp only
  repeat' (
    first
    | with_reducible assumption | with_reducible apply State.softReset_keeps | with_reducible apply Keeps.ite | intro _ _ _ _ _
    | intro _ _ _ _ | intro _ _ _ | intro _ _ | split | with_reducible apply Keeps.fields)

theorem State.isolate_keeps {km kf ku : Bool} {s₀ : State} (s : State) (p : List Byte) (hk : Keeps km kf ku s₀ s) :
    Keeps km kf ku s₀ (State.isolate s p).2 := by
  unfold State.isolate
  try dsimp only
  repeat' (
    first
    | with_reducible assumption | with_reducible apply State.softReset_keeps | with_reducible apply State.wr_keeps
    | with_reducible apply Keeps.ite | intro _ _ _ _ _ | intro _ _ _ _ | intro _ _ _ | intro _ _ | split
    | with_reducible apply Keeps.fields)

theorem State.release_keeps {km ku : Bool} {s₀ : State} (s : State) (p : List Byte) (hk : Keeps km true ku s₀ s) :
    Keeps km true ku s₀ (State.release s p).2 := by
  unfold State.release
  try dsimp only
  repeat' (
    first
    | with_reducible assumption | with_reducible apply State.tryStart_keeps | with_reducible apply State.wr_keeps
    | with_reducible apply Keeps.ite | intro _ _ _ _ _ | intro _ _ _ _ | intro _ _ _ | intro _ _ | split
    | with_reducible apply Keeps.fields)

theorem State.suspect_keeps {km kf ku : Bool} {s₀ : State} (s : State) (p : List Byte) (hk : Keeps km kf ku s₀ s) :
    Keeps km kf ku s₀ (State.suspect s p).2 := by
  unfold State.suspect
  try dsimp only
  repeat' (
    first
    | with_reducible assumption | with_reducible apply State.detect_keeps | with_reducible apply State.record_keeps
    | with_reducible apply Keeps.ite | intro _ _ _ _ _ | intro _ _ _ _ | intro _ _ _ | intro _ _ | split
    | with_reducible apply Keeps.fields)

theorem execBusPing_keeps {km kf ku : Bool} (bus : BusId) (pri : Fin 8) (seq : Byte) (payload : List Byte) (s : State) :
    OutKeeps km kf ku s (execBusPing bus pri seq payload s) := by
  unfold execBusPing
  repeat' (
    first
    | with_reducible assumption | with_reducible exact Keeps.refl _ | with_reducible apply OutKeeps.next
    | with_reducible apply OutKeeps.ite | with_reducible apply State.command_keeps | with_reducible apply State.ping_keeps
    | with_reducible apply Keeps.ite | intro _ _ _ _ _ | intro _ _ _ _ | intro _ _ _ | intro _ _ | split
    | with_reducible apply Keeps.fields)

theorem execBusRead_keeps {km kf ku : Bool} (bus : BusId) (pri : Fin 8) (seq : Byte) (payload : List Byte) (s : State) :
    OutKeeps km kf ku s (execBusRead bus pri seq payload s) := by
  unfold execBusRead
  repeat' (
    first
    | with_reducible assumption | with_reducible exact Keeps.refl _ | with_reducible apply OutKeeps.next
    | with_reducible apply OutKeeps.ite | with_reducible apply State.busRead_keeps | with_reducible apply State.command_keeps
    | with_reducible apply Keeps.ite | intro _ _ _ _ _ | intro _ _ _ _ | intro _ _ _ | intro _ _ | split
    | with_reducible apply Keeps.fields)

theorem execBusWrite_keeps {ku : Bool} (bus : BusId) (pri : Fin 8) (seq : Byte) (payload : List Byte) (s : State) :
    OutKeeps true true ku s (execBusWrite bus pri seq payload s) := by
  unfold execBusWrite
  repeat' (
    first
    | with_reducible assumption | with_reducible exact Keeps.refl _ | with_reducible apply OutKeeps.next
    | with_reducible apply OutKeeps.ite | with_reducible apply State.busWrite_keeps | with_reducible apply State.command_keeps
    | with_reducible apply Keeps.ite | intro _ _ _ _ _ | intro _ _ _ _ | intro _ _ _ | intro _ _ | split
    | with_reducible apply Keeps.fields)

theorem execBusEvread_keeps {km kf ku : Bool} (bus : BusId) (pri : Fin 8) (seq : Byte) (payload : List Byte) (s : State) :
    OutKeeps km kf ku s (execBusEvread bus pri seq payload s) := by
  unfold execBusEvread
  repeat' (
    first
    | with_reducible assumption | with_reducible exact Keeps.refl _ | with_reducible apply OutKeeps.next
    | with_reducible apply OutKeeps.ite | with_reducible apply State.command_keeps | with_reducible apply State.evread_keeps
    | with_reducible apply Keeps.ite | intro _ _ _ _ _ | intro _ _ _ _ | intro _ _ _ | intro _ _ | split
    | with_reducible apply Keeps.fields)

theorem execBusReset_keeps {km kf ku : Bool} (bus : BusId) (pri : Fin 8) (seq : Byte) (payload : List Byte) (s : State) :
    OutKeeps km kf ku s (execBusReset bus pri seq payload s) := by
  unfold execBusReset
  repeat' (
    first
    | with_reducible assumption | with_reducible exact Keeps.refl _ | with_reducible apply OutKeeps.next
    | with_reducible apply OutKeeps.ite | with_reducible apply State.busReset_keeps | with_reducible apply State.command_keeps
    | with_reducible apply Keeps.ite | intro _ _ _ _ _ | intro _ _ _ _ | intro _ _ _ | intro _ _ | split
    | with_reducible apply Keeps.fields)

theorem execBusIsolate_keeps {km kf ku : Bool} (bus : BusId) (pri : Fin 8) (seq : Byte) (payload : List Byte) (s : State) :
    OutKeeps km kf ku s (execBusIsolate bus pri seq payload s) := by
  unfold execBusIsolate
  repeat' (
    first
    | with_reducible assumption | with_reducible exact Keeps.refl _ | with_reducible apply OutKeeps.next
    | with_reducible apply OutKeeps.ite | with_reducible apply State.command_keeps | with_reducible apply State.isolate_keeps
    | with_reducible apply Keeps.ite | intro _ _ _ _ _ | intro _ _ _ _ | intro _ _ _ | intro _ _ | split
    | with_reducible apply Keeps.fields)

theorem execBusRelease_keeps {km ku : Bool} (bus : BusId) (pri : Fin 8) (seq : Byte) (payload : List Byte) (s : State) :
    OutKeeps km true ku s (execBusRelease bus pri seq payload s) := by
  unfold execBusRelease
  repeat' (
    first
    | with_reducible assumption | with_reducible exact Keeps.refl _ | with_reducible apply OutKeeps.next
    | with_reducible apply OutKeeps.ite | with_reducible apply State.command_keeps | with_reducible apply State.release_keeps
    | with_reducible apply Keeps.ite | intro _ _ _ _ _ | intro _ _ _ _ | intro _ _ _ | intro _ _ | split
    | with_reducible apply Keeps.fields)

theorem execBusSuspect_keeps {km kf ku : Bool} (bus : BusId) (pri : Fin 8) (seq : Byte) (payload : List Byte) (s : State) :
    OutKeeps km kf ku s (execBusSuspect bus pri seq payload s) := by
  unfold execBusSuspect
  repeat' (
    first
    | with_reducible assumption | with_reducible exact Keeps.refl _ | with_reducible apply OutKeeps.next
    | with_reducible apply OutKeeps.ite | with_reducible apply State.command_keeps | with_reducible apply State.suspect_keeps
    | with_reducible apply Keeps.ite | intro _ _ _ _ _ | intro _ _ _ _ | intro _ _ _ | intro _ _ | split
    | with_reducible apply Keeps.fields)

end Sys2Proof.Machine
end

