-- ==== Sys2Proof/Laws/State.lean ====
section
/-! SUPPORT. What each update of the state leaves alone, field by field: every lemma holds by rfl. -/
namespace Sys2Proof.Machine.State

variable (s : State)

@[simp] theorem setReg_mem (a : Nat) (v : Word) : (s.setReg a v).mem = s.mem := rfl
@[simp] theorem setReg_flash (a : Nat) (v : Word) : (s.setReg a v).flash = s.flash := rfl
@[simp] theorem setReg_fuses (a : Nat) (v : Word) : (s.setReg a v).fuses = s.fuses := rfl
@[simp] theorem setReg_nodeMap (a : Nat) (v : Word) : (s.setReg a v).nodeMap = s.nodeMap := rfl
@[simp] theorem setReg_rangerMem (a : Nat) (v : Word) : (s.setReg a v).rangerMem = s.rangerMem := rfl
@[simp] theorem setReg_glades (a : Nat) (v : Word) : (s.setReg a v).glades = s.glades := rfl
@[simp] theorem setReg_queues (a : Nat) (v : Word) : (s.setReg a v).queues = s.queues := rfl
@[simp] theorem setReg_tiles (a : Nat) (v : Word) : (s.setReg a v).tiles = s.tiles := rfl
@[simp] theorem setReg_frames (a : Nat) (v : Word) : (s.setReg a v).frames = s.frames := rfl
@[simp] theorem setReg_links (a : Nat) (v : Word) : (s.setReg a v).links = s.links := rfl
@[simp] theorem setReg_ports (a : Nat) (v : Word) : (s.setReg a v).ports = s.ports := rfl
@[simp] theorem setReg_images (a : Nat) (v : Word) : (s.setReg a v).images = s.images := rfl
@[simp] theorem setReg_keys (a : Nat) (v : Word) : (s.setReg a v).keys = s.keys := rfl
@[simp] theorem setReg_ao (a : Nat) (v : Word) : (s.setReg a v).ao = s.ao := rfl
@[simp] theorem setReg_evr (a : Nat) (v : Word) : (s.setReg a v).evr = s.evr := rfl
@[simp] theorem setReg_nvm (a : Nat) (v : Word) : (s.setReg a v).nvm = s.nvm := rfl
@[simp] theorem setReg_sec (a : Nat) (v : Word) : (s.setReg a v).sec = s.sec := rfl
@[simp] theorem setReg_router (a : Nat) (v : Word) : (s.setReg a v).router = s.router := rfl
@[simp] theorem setReg_budget (a : Nat) (v : Word) : (s.setReg a v).budget = s.budget := rfl
@[simp] theorem setReg_test (a : Nat) (v : Word) : (s.setReg a v).test = s.test := rfl
@[simp] theorem setReg_waypoint (a : Nat) (v : Word) : (s.setReg a v).waypoint = s.waypoint := rfl
@[simp] theorem setReg_bus (a : Nat) (v : Word) : (s.setReg a v).bus = s.bus := rfl
@[simp] theorem setReg_lane (a : Nat) (v : Word) : (s.setReg a v).lane = s.lane := rfl
@[simp] theorem setReg_sent (a : Nat) (v : Word) : (s.setReg a v).sent = s.sent := rfl
@[simp] theorem setReg_free (a : Nat) (v : Word) : (s.setReg a v).free = s.free := rfl
@[simp] theorem setReg_pending (a : Nat) (v : Word) : (s.setReg a v).pending = s.pending := rfl

@[simp] theorem wr_mem (a : Nat) (f : Fld) (n : Nat) : (s.wr a f n).mem = s.mem := rfl
@[simp] theorem wr_flash (a : Nat) (f : Fld) (n : Nat) : (s.wr a f n).flash = s.flash := rfl
@[simp] theorem wr_fuses (a : Nat) (f : Fld) (n : Nat) : (s.wr a f n).fuses = s.fuses := rfl
@[simp] theorem wr_nodeMap (a : Nat) (f : Fld) (n : Nat) : (s.wr a f n).nodeMap = s.nodeMap := rfl
@[simp] theorem wr_rangerMem (a : Nat) (f : Fld) (n : Nat) : (s.wr a f n).rangerMem = s.rangerMem := rfl
@[simp] theorem wr_glades (a : Nat) (f : Fld) (n : Nat) : (s.wr a f n).glades = s.glades := rfl
@[simp] theorem wr_queues (a : Nat) (f : Fld) (n : Nat) : (s.wr a f n).queues = s.queues := rfl
@[simp] theorem wr_tiles (a : Nat) (f : Fld) (n : Nat) : (s.wr a f n).tiles = s.tiles := rfl
@[simp] theorem wr_frames (a : Nat) (f : Fld) (n : Nat) : (s.wr a f n).frames = s.frames := rfl
@[simp] theorem wr_links (a : Nat) (f : Fld) (n : Nat) : (s.wr a f n).links = s.links := rfl
@[simp] theorem wr_ports (a : Nat) (f : Fld) (n : Nat) : (s.wr a f n).ports = s.ports := rfl
@[simp] theorem wr_images (a : Nat) (f : Fld) (n : Nat) : (s.wr a f n).images = s.images := rfl
@[simp] theorem wr_keys (a : Nat) (f : Fld) (n : Nat) : (s.wr a f n).keys = s.keys := rfl
@[simp] theorem wr_ao (a : Nat) (f : Fld) (n : Nat) : (s.wr a f n).ao = s.ao := rfl
@[simp] theorem wr_evr (a : Nat) (f : Fld) (n : Nat) : (s.wr a f n).evr = s.evr := rfl
@[simp] theorem wr_nvm (a : Nat) (f : Fld) (n : Nat) : (s.wr a f n).nvm = s.nvm := rfl
@[simp] theorem wr_sec (a : Nat) (f : Fld) (n : Nat) : (s.wr a f n).sec = s.sec := rfl
@[simp] theorem wr_router (a : Nat) (f : Fld) (n : Nat) : (s.wr a f n).router = s.router := rfl
@[simp] theorem wr_budget (a : Nat) (f : Fld) (n : Nat) : (s.wr a f n).budget = s.budget := rfl
@[simp] theorem wr_test (a : Nat) (f : Fld) (n : Nat) : (s.wr a f n).test = s.test := rfl
@[simp] theorem wr_waypoint (a : Nat) (f : Fld) (n : Nat) : (s.wr a f n).waypoint = s.waypoint := rfl
@[simp] theorem wr_bus (a : Nat) (f : Fld) (n : Nat) : (s.wr a f n).bus = s.bus := rfl
@[simp] theorem wr_lane (a : Nat) (f : Fld) (n : Nat) : (s.wr a f n).lane = s.lane := rfl
@[simp] theorem wr_sent (a : Nat) (f : Fld) (n : Nat) : (s.wr a f n).sent = s.sent := rfl
@[simp] theorem wr_free (a : Nat) (f : Fld) (n : Nat) : (s.wr a f n).free = s.free := rfl
@[simp] theorem wr_pending (a : Nat) (f : Fld) (n : Nat) : (s.wr a f n).pending = s.pending := rfl

@[simp] theorem flag_mem (a : Nat) (f : Fld) (c : Bool) : (s.flag a f c).mem = s.mem := rfl
@[simp] theorem flag_flash (a : Nat) (f : Fld) (c : Bool) : (s.flag a f c).flash = s.flash := rfl
@[simp] theorem flag_fuses (a : Nat) (f : Fld) (c : Bool) : (s.flag a f c).fuses = s.fuses := rfl
@[simp] theorem flag_nodeMap (a : Nat) (f : Fld) (c : Bool) : (s.flag a f c).nodeMap = s.nodeMap := rfl
@[simp] theorem flag_rangerMem (a : Nat) (f : Fld) (c : Bool) : (s.flag a f c).rangerMem = s.rangerMem := rfl
@[simp] theorem flag_glades (a : Nat) (f : Fld) (c : Bool) : (s.flag a f c).glades = s.glades := rfl
@[simp] theorem flag_queues (a : Nat) (f : Fld) (c : Bool) : (s.flag a f c).queues = s.queues := rfl
@[simp] theorem flag_tiles (a : Nat) (f : Fld) (c : Bool) : (s.flag a f c).tiles = s.tiles := rfl
@[simp] theorem flag_frames (a : Nat) (f : Fld) (c : Bool) : (s.flag a f c).frames = s.frames := rfl
@[simp] theorem flag_links (a : Nat) (f : Fld) (c : Bool) : (s.flag a f c).links = s.links := rfl
@[simp] theorem flag_ports (a : Nat) (f : Fld) (c : Bool) : (s.flag a f c).ports = s.ports := rfl
@[simp] theorem flag_images (a : Nat) (f : Fld) (c : Bool) : (s.flag a f c).images = s.images := rfl
@[simp] theorem flag_keys (a : Nat) (f : Fld) (c : Bool) : (s.flag a f c).keys = s.keys := rfl
@[simp] theorem flag_ao (a : Nat) (f : Fld) (c : Bool) : (s.flag a f c).ao = s.ao := rfl
@[simp] theorem flag_evr (a : Nat) (f : Fld) (c : Bool) : (s.flag a f c).evr = s.evr := rfl
@[simp] theorem flag_nvm (a : Nat) (f : Fld) (c : Bool) : (s.flag a f c).nvm = s.nvm := rfl
@[simp] theorem flag_sec (a : Nat) (f : Fld) (c : Bool) : (s.flag a f c).sec = s.sec := rfl
@[simp] theorem flag_router (a : Nat) (f : Fld) (c : Bool) : (s.flag a f c).router = s.router := rfl
@[simp] theorem flag_budget (a : Nat) (f : Fld) (c : Bool) : (s.flag a f c).budget = s.budget := rfl
@[simp] theorem flag_test (a : Nat) (f : Fld) (c : Bool) : (s.flag a f c).test = s.test := rfl
@[simp] theorem flag_waypoint (a : Nat) (f : Fld) (c : Bool) : (s.flag a f c).waypoint = s.waypoint := rfl
@[simp] theorem flag_bus (a : Nat) (f : Fld) (c : Bool) : (s.flag a f c).bus = s.bus := rfl
@[simp] theorem flag_lane (a : Nat) (f : Fld) (c : Bool) : (s.flag a f c).lane = s.lane := rfl
@[simp] theorem flag_sent (a : Nat) (f : Fld) (c : Bool) : (s.flag a f c).sent = s.sent := rfl
@[simp] theorem flag_free (a : Nat) (f : Fld) (c : Bool) : (s.flag a f c).free = s.free := rfl
@[simp] theorem flag_pending (a : Nat) (f : Fld) (c : Bool) : (s.flag a f c).pending = s.pending := rfl

@[simp] theorem add_mem (a : Nat) (f : Fld) (n : Nat) : (s.add a f n).mem = s.mem := rfl
@[simp] theorem add_flash (a : Nat) (f : Fld) (n : Nat) : (s.add a f n).flash = s.flash := rfl
@[simp] theorem add_fuses (a : Nat) (f : Fld) (n : Nat) : (s.add a f n).fuses = s.fuses := rfl
@[simp] theorem add_nodeMap (a : Nat) (f : Fld) (n : Nat) : (s.add a f n).nodeMap = s.nodeMap := rfl
@[simp] theorem add_rangerMem (a : Nat) (f : Fld) (n : Nat) : (s.add a f n).rangerMem = s.rangerMem := rfl
@[simp] theorem add_glades (a : Nat) (f : Fld) (n : Nat) : (s.add a f n).glades = s.glades := rfl
@[simp] theorem add_queues (a : Nat) (f : Fld) (n : Nat) : (s.add a f n).queues = s.queues := rfl
@[simp] theorem add_tiles (a : Nat) (f : Fld) (n : Nat) : (s.add a f n).tiles = s.tiles := rfl
@[simp] theorem add_frames (a : Nat) (f : Fld) (n : Nat) : (s.add a f n).frames = s.frames := rfl
@[simp] theorem add_links (a : Nat) (f : Fld) (n : Nat) : (s.add a f n).links = s.links := rfl
@[simp] theorem add_ports (a : Nat) (f : Fld) (n : Nat) : (s.add a f n).ports = s.ports := rfl
@[simp] theorem add_images (a : Nat) (f : Fld) (n : Nat) : (s.add a f n).images = s.images := rfl
@[simp] theorem add_keys (a : Nat) (f : Fld) (n : Nat) : (s.add a f n).keys = s.keys := rfl
@[simp] theorem add_ao (a : Nat) (f : Fld) (n : Nat) : (s.add a f n).ao = s.ao := rfl
@[simp] theorem add_evr (a : Nat) (f : Fld) (n : Nat) : (s.add a f n).evr = s.evr := rfl
@[simp] theorem add_nvm (a : Nat) (f : Fld) (n : Nat) : (s.add a f n).nvm = s.nvm := rfl
@[simp] theorem add_sec (a : Nat) (f : Fld) (n : Nat) : (s.add a f n).sec = s.sec := rfl
@[simp] theorem add_router (a : Nat) (f : Fld) (n : Nat) : (s.add a f n).router = s.router := rfl
@[simp] theorem add_budget (a : Nat) (f : Fld) (n : Nat) : (s.add a f n).budget = s.budget := rfl
@[simp] theorem add_test (a : Nat) (f : Fld) (n : Nat) : (s.add a f n).test = s.test := rfl
@[simp] theorem add_waypoint (a : Nat) (f : Fld) (n : Nat) : (s.add a f n).waypoint = s.waypoint := rfl
@[simp] theorem add_bus (a : Nat) (f : Fld) (n : Nat) : (s.add a f n).bus = s.bus := rfl
@[simp] theorem add_lane (a : Nat) (f : Fld) (n : Nat) : (s.add a f n).lane = s.lane := rfl
@[simp] theorem add_sent (a : Nat) (f : Fld) (n : Nat) : (s.add a f n).sent = s.sent := rfl
@[simp] theorem add_free (a : Nat) (f : Fld) (n : Nat) : (s.add a f n).free = s.free := rfl
@[simp] theorem add_pending (a : Nat) (f : Fld) (n : Nat) : (s.add a f n).pending = s.pending := rfl

@[simp] theorem inc_mem (a : Nat) (f : Fld) : (s.inc a f).mem = s.mem := rfl
@[simp] theorem inc_flash (a : Nat) (f : Fld) : (s.inc a f).flash = s.flash := rfl
@[simp] theorem inc_fuses (a : Nat) (f : Fld) : (s.inc a f).fuses = s.fuses := rfl
@[simp] theorem inc_nodeMap (a : Nat) (f : Fld) : (s.inc a f).nodeMap = s.nodeMap := rfl
@[simp] theorem inc_rangerMem (a : Nat) (f : Fld) : (s.inc a f).rangerMem = s.rangerMem := rfl
@[simp] theorem inc_glades (a : Nat) (f : Fld) : (s.inc a f).glades = s.glades := rfl
@[simp] theorem inc_queues (a : Nat) (f : Fld) : (s.inc a f).queues = s.queues := rfl
@[simp] theorem inc_tiles (a : Nat) (f : Fld) : (s.inc a f).tiles = s.tiles := rfl
@[simp] theorem inc_frames (a : Nat) (f : Fld) : (s.inc a f).frames = s.frames := rfl
@[simp] theorem inc_links (a : Nat) (f : Fld) : (s.inc a f).links = s.links := rfl
@[simp] theorem inc_ports (a : Nat) (f : Fld) : (s.inc a f).ports = s.ports := rfl
@[simp] theorem inc_images (a : Nat) (f : Fld) : (s.inc a f).images = s.images := rfl
@[simp] theorem inc_keys (a : Nat) (f : Fld) : (s.inc a f).keys = s.keys := rfl
@[simp] theorem inc_ao (a : Nat) (f : Fld) : (s.inc a f).ao = s.ao := rfl
@[simp] theorem inc_evr (a : Nat) (f : Fld) : (s.inc a f).evr = s.evr := rfl
@[simp] theorem inc_nvm (a : Nat) (f : Fld) : (s.inc a f).nvm = s.nvm := rfl
@[simp] theorem inc_sec (a : Nat) (f : Fld) : (s.inc a f).sec = s.sec := rfl
@[simp] theorem inc_router (a : Nat) (f : Fld) : (s.inc a f).router = s.router := rfl
@[simp] theorem inc_budget (a : Nat) (f : Fld) : (s.inc a f).budget = s.budget := rfl
@[simp] theorem inc_test (a : Nat) (f : Fld) : (s.inc a f).test = s.test := rfl
@[simp] theorem inc_waypoint (a : Nat) (f : Fld) : (s.inc a f).waypoint = s.waypoint := rfl
@[simp] theorem inc_bus (a : Nat) (f : Fld) : (s.inc a f).bus = s.bus := rfl
@[simp] theorem inc_lane (a : Nat) (f : Fld) : (s.inc a f).lane = s.lane := rfl
@[simp] theorem inc_sent (a : Nat) (f : Fld) : (s.inc a f).sent = s.sent := rfl
@[simp] theorem inc_free (a : Nat) (f : Fld) : (s.inc a f).free = s.free := rfl
@[simp] theorem inc_pending (a : Nat) (f : Fld) : (s.inc a f).pending = s.pending := rfl

@[simp] theorem raise_mem (a : Nat) (f : Fld) (n : Nat) : (s.raise a f n).mem = s.mem := rfl
@[simp] theorem raise_flash (a : Nat) (f : Fld) (n : Nat) : (s.raise a f n).flash = s.flash := rfl
@[simp] theorem raise_fuses (a : Nat) (f : Fld) (n : Nat) : (s.raise a f n).fuses = s.fuses := rfl
@[simp] theorem raise_nodeMap (a : Nat) (f : Fld) (n : Nat) : (s.raise a f n).nodeMap = s.nodeMap := rfl
@[simp] theorem raise_rangerMem (a : Nat) (f : Fld) (n : Nat) : (s.raise a f n).rangerMem = s.rangerMem := rfl
@[simp] theorem raise_glades (a : Nat) (f : Fld) (n : Nat) : (s.raise a f n).glades = s.glades := rfl
@[simp] theorem raise_queues (a : Nat) (f : Fld) (n : Nat) : (s.raise a f n).queues = s.queues := rfl
@[simp] theorem raise_tiles (a : Nat) (f : Fld) (n : Nat) : (s.raise a f n).tiles = s.tiles := rfl
@[simp] theorem raise_frames (a : Nat) (f : Fld) (n : Nat) : (s.raise a f n).frames = s.frames := rfl
@[simp] theorem raise_links (a : Nat) (f : Fld) (n : Nat) : (s.raise a f n).links = s.links := rfl
@[simp] theorem raise_ports (a : Nat) (f : Fld) (n : Nat) : (s.raise a f n).ports = s.ports := rfl
@[simp] theorem raise_images (a : Nat) (f : Fld) (n : Nat) : (s.raise a f n).images = s.images := rfl
@[simp] theorem raise_keys (a : Nat) (f : Fld) (n : Nat) : (s.raise a f n).keys = s.keys := rfl
@[simp] theorem raise_ao (a : Nat) (f : Fld) (n : Nat) : (s.raise a f n).ao = s.ao := rfl
@[simp] theorem raise_evr (a : Nat) (f : Fld) (n : Nat) : (s.raise a f n).evr = s.evr := rfl
@[simp] theorem raise_nvm (a : Nat) (f : Fld) (n : Nat) : (s.raise a f n).nvm = s.nvm := rfl
@[simp] theorem raise_sec (a : Nat) (f : Fld) (n : Nat) : (s.raise a f n).sec = s.sec := rfl
@[simp] theorem raise_router (a : Nat) (f : Fld) (n : Nat) : (s.raise a f n).router = s.router := rfl
@[simp] theorem raise_budget (a : Nat) (f : Fld) (n : Nat) : (s.raise a f n).budget = s.budget := rfl
@[simp] theorem raise_test (a : Nat) (f : Fld) (n : Nat) : (s.raise a f n).test = s.test := rfl
@[simp] theorem raise_waypoint (a : Nat) (f : Fld) (n : Nat) : (s.raise a f n).waypoint = s.waypoint := rfl
@[simp] theorem raise_bus (a : Nat) (f : Fld) (n : Nat) : (s.raise a f n).bus = s.bus := rfl
@[simp] theorem raise_lane (a : Nat) (f : Fld) (n : Nat) : (s.raise a f n).lane = s.lane := rfl
@[simp] theorem raise_sent (a : Nat) (f : Fld) (n : Nat) : (s.raise a f n).sent = s.sent := rfl
@[simp] theorem raise_free (a : Nat) (f : Fld) (n : Nat) : (s.raise a f n).free = s.free := rfl
@[simp] theorem raise_pending (a : Nat) (f : Fld) (n : Nat) : (s.raise a f n).pending = s.pending := rfl

@[simp] theorem resetReg_mem (a : Nat) : (s.resetReg a).mem = s.mem := rfl
@[simp] theorem resetReg_flash (a : Nat) : (s.resetReg a).flash = s.flash := rfl
@[simp] theorem resetReg_fuses (a : Nat) : (s.resetReg a).fuses = s.fuses := rfl
@[simp] theorem resetReg_nodeMap (a : Nat) : (s.resetReg a).nodeMap = s.nodeMap := rfl
@[simp] theorem resetReg_rangerMem (a : Nat) : (s.resetReg a).rangerMem = s.rangerMem := rfl
@[simp] theorem resetReg_glades (a : Nat) : (s.resetReg a).glades = s.glades := rfl
@[simp] theorem resetReg_queues (a : Nat) : (s.resetReg a).queues = s.queues := rfl
@[simp] theorem resetReg_tiles (a : Nat) : (s.resetReg a).tiles = s.tiles := rfl
@[simp] theorem resetReg_frames (a : Nat) : (s.resetReg a).frames = s.frames := rfl
@[simp] theorem resetReg_links (a : Nat) : (s.resetReg a).links = s.links := rfl
@[simp] theorem resetReg_ports (a : Nat) : (s.resetReg a).ports = s.ports := rfl
@[simp] theorem resetReg_images (a : Nat) : (s.resetReg a).images = s.images := rfl
@[simp] theorem resetReg_keys (a : Nat) : (s.resetReg a).keys = s.keys := rfl
@[simp] theorem resetReg_ao (a : Nat) : (s.resetReg a).ao = s.ao := rfl
@[simp] theorem resetReg_evr (a : Nat) : (s.resetReg a).evr = s.evr := rfl
@[simp] theorem resetReg_nvm (a : Nat) : (s.resetReg a).nvm = s.nvm := rfl
@[simp] theorem resetReg_sec (a : Nat) : (s.resetReg a).sec = s.sec := rfl
@[simp] theorem resetReg_router (a : Nat) : (s.resetReg a).router = s.router := rfl
@[simp] theorem resetReg_budget (a : Nat) : (s.resetReg a).budget = s.budget := rfl
@[simp] theorem resetReg_test (a : Nat) : (s.resetReg a).test = s.test := rfl
@[simp] theorem resetReg_waypoint (a : Nat) : (s.resetReg a).waypoint = s.waypoint := rfl
@[simp] theorem resetReg_bus (a : Nat) : (s.resetReg a).bus = s.bus := rfl
@[simp] theorem resetReg_lane (a : Nat) : (s.resetReg a).lane = s.lane := rfl
@[simp] theorem resetReg_sent (a : Nat) : (s.resetReg a).sent = s.sent := rfl
@[simp] theorem resetReg_free (a : Nat) : (s.resetReg a).free = s.free := rfl
@[simp] theorem resetReg_pending (a : Nat) : (s.resetReg a).pending = s.pending := rfl

@[simp] theorem writeByte_regs (a : Nat) (v : Byte) : (s.writeByte a v).regs = s.regs := rfl
@[simp] theorem writeByte_flash (a : Nat) (v : Byte) : (s.writeByte a v).flash = s.flash := rfl
@[simp] theorem writeByte_fuses (a : Nat) (v : Byte) : (s.writeByte a v).fuses = s.fuses := rfl
@[simp] theorem writeByte_nodeMap (a : Nat) (v : Byte) : (s.writeByte a v).nodeMap = s.nodeMap := rfl
@[simp] theorem writeByte_rangerMem (a : Nat) (v : Byte) : (s.writeByte a v).rangerMem = s.rangerMem := rfl
@[simp] theorem writeByte_glades (a : Nat) (v : Byte) : (s.writeByte a v).glades = s.glades := rfl
@[simp] theorem writeByte_queues (a : Nat) (v : Byte) : (s.writeByte a v).queues = s.queues := rfl
@[simp] theorem writeByte_tiles (a : Nat) (v : Byte) : (s.writeByte a v).tiles = s.tiles := rfl
@[simp] theorem writeByte_frames (a : Nat) (v : Byte) : (s.writeByte a v).frames = s.frames := rfl
@[simp] theorem writeByte_links (a : Nat) (v : Byte) : (s.writeByte a v).links = s.links := rfl
@[simp] theorem writeByte_ports (a : Nat) (v : Byte) : (s.writeByte a v).ports = s.ports := rfl
@[simp] theorem writeByte_images (a : Nat) (v : Byte) : (s.writeByte a v).images = s.images := rfl
@[simp] theorem writeByte_keys (a : Nat) (v : Byte) : (s.writeByte a v).keys = s.keys := rfl
@[simp] theorem writeByte_ao (a : Nat) (v : Byte) : (s.writeByte a v).ao = s.ao := rfl
@[simp] theorem writeByte_evr (a : Nat) (v : Byte) : (s.writeByte a v).evr = s.evr := rfl
@[simp] theorem writeByte_nvm (a : Nat) (v : Byte) : (s.writeByte a v).nvm = s.nvm := rfl
@[simp] theorem writeByte_sec (a : Nat) (v : Byte) : (s.writeByte a v).sec = s.sec := rfl
@[simp] theorem writeByte_router (a : Nat) (v : Byte) : (s.writeByte a v).router = s.router := rfl
@[simp] theorem writeByte_budget (a : Nat) (v : Byte) : (s.writeByte a v).budget = s.budget := rfl
@[simp] theorem writeByte_test (a : Nat) (v : Byte) : (s.writeByte a v).test = s.test := rfl
@[simp] theorem writeByte_waypoint (a : Nat) (v : Byte) : (s.writeByte a v).waypoint = s.waypoint := rfl
@[simp] theorem writeByte_bus (a : Nat) (v : Byte) : (s.writeByte a v).bus = s.bus := rfl
@[simp] theorem writeByte_lane (a : Nat) (v : Byte) : (s.writeByte a v).lane = s.lane := rfl
@[simp] theorem writeByte_sent (a : Nat) (v : Byte) : (s.writeByte a v).sent = s.sent := rfl
@[simp] theorem writeByte_free (a : Nat) (v : Byte) : (s.writeByte a v).free = s.free := rfl
@[simp] theorem writeByte_pending (a : Nat) (v : Byte) : (s.writeByte a v).pending = s.pending := rfl

@[simp] theorem setFlashByte_regs (a : Nat) (v : Byte) : (s.setFlashByte a v).regs = s.regs := rfl
@[simp] theorem setFlashByte_mem (a : Nat) (v : Byte) : (s.setFlashByte a v).mem = s.mem := rfl
@[simp] theorem setFlashByte_fuses (a : Nat) (v : Byte) : (s.setFlashByte a v).fuses = s.fuses := rfl
@[simp] theorem setFlashByte_nodeMap (a : Nat) (v : Byte) : (s.setFlashByte a v).nodeMap = s.nodeMap := rfl
@[simp] theorem setFlashByte_rangerMem (a : Nat) (v : Byte) : (s.setFlashByte a v).rangerMem = s.rangerMem := rfl
@[simp] theorem setFlashByte_glades (a : Nat) (v : Byte) : (s.setFlashByte a v).glades = s.glades := rfl
@[simp] theorem setFlashByte_queues (a : Nat) (v : Byte) : (s.setFlashByte a v).queues = s.queues := rfl
@[simp] theorem setFlashByte_tiles (a : Nat) (v : Byte) : (s.setFlashByte a v).tiles = s.tiles := rfl
@[simp] theorem setFlashByte_frames (a : Nat) (v : Byte) : (s.setFlashByte a v).frames = s.frames := rfl
@[simp] theorem setFlashByte_links (a : Nat) (v : Byte) : (s.setFlashByte a v).links = s.links := rfl
@[simp] theorem setFlashByte_ports (a : Nat) (v : Byte) : (s.setFlashByte a v).ports = s.ports := rfl
@[simp] theorem setFlashByte_images (a : Nat) (v : Byte) : (s.setFlashByte a v).images = s.images := rfl
@[simp] theorem setFlashByte_keys (a : Nat) (v : Byte) : (s.setFlashByte a v).keys = s.keys := rfl
@[simp] theorem setFlashByte_ao (a : Nat) (v : Byte) : (s.setFlashByte a v).ao = s.ao := rfl
@[simp] theorem setFlashByte_evr (a : Nat) (v : Byte) : (s.setFlashByte a v).evr = s.evr := rfl
@[simp] theorem setFlashByte_nvm (a : Nat) (v : Byte) : (s.setFlashByte a v).nvm = s.nvm := rfl
@[simp] theorem setFlashByte_sec (a : Nat) (v : Byte) : (s.setFlashByte a v).sec = s.sec := rfl
@[simp] theorem setFlashByte_router (a : Nat) (v : Byte) : (s.setFlashByte a v).router = s.router := rfl
@[simp] theorem setFlashByte_budget (a : Nat) (v : Byte) : (s.setFlashByte a v).budget = s.budget := rfl
@[simp] theorem setFlashByte_test (a : Nat) (v : Byte) : (s.setFlashByte a v).test = s.test := rfl
@[simp] theorem setFlashByte_waypoint (a : Nat) (v : Byte) : (s.setFlashByte a v).waypoint = s.waypoint := rfl
@[simp] theorem setFlashByte_bus (a : Nat) (v : Byte) : (s.setFlashByte a v).bus = s.bus := rfl
@[simp] theorem setFlashByte_lane (a : Nat) (v : Byte) : (s.setFlashByte a v).lane = s.lane := rfl
@[simp] theorem setFlashByte_sent (a : Nat) (v : Byte) : (s.setFlashByte a v).sent = s.sent := rfl
@[simp] theorem setFlashByte_free (a : Nat) (v : Byte) : (s.setFlashByte a v).free = s.free := rfl
@[simp] theorem setFlashByte_pending (a : Nat) (v : Byte) : (s.setFlashByte a v).pending = s.pending := rfl

@[simp] theorem burnFuse_regs (w : Nat) (v : Word) : (s.burnFuse w v).regs = s.regs := rfl
@[simp] theorem burnFuse_mem (w : Nat) (v : Word) : (s.burnFuse w v).mem = s.mem := rfl
@[simp] theorem burnFuse_flash (w : Nat) (v : Word) : (s.burnFuse w v).flash = s.flash := rfl
@[simp] theorem burnFuse_nodeMap (w : Nat) (v : Word) : (s.burnFuse w v).nodeMap = s.nodeMap := rfl
@[simp] theorem burnFuse_rangerMem (w : Nat) (v : Word) : (s.burnFuse w v).rangerMem = s.rangerMem := rfl
@[simp] theorem burnFuse_glades (w : Nat) (v : Word) : (s.burnFuse w v).glades = s.glades := rfl
@[simp] theorem burnFuse_queues (w : Nat) (v : Word) : (s.burnFuse w v).queues = s.queues := rfl
@[simp] theorem burnFuse_tiles (w : Nat) (v : Word) : (s.burnFuse w v).tiles = s.tiles := rfl
@[simp] theorem burnFuse_frames (w : Nat) (v : Word) : (s.burnFuse w v).frames = s.frames := rfl
@[simp] theorem burnFuse_links (w : Nat) (v : Word) : (s.burnFuse w v).links = s.links := rfl
@[simp] theorem burnFuse_ports (w : Nat) (v : Word) : (s.burnFuse w v).ports = s.ports := rfl
@[simp] theorem burnFuse_images (w : Nat) (v : Word) : (s.burnFuse w v).images = s.images := rfl
@[simp] theorem burnFuse_keys (w : Nat) (v : Word) : (s.burnFuse w v).keys = s.keys := rfl
@[simp] theorem burnFuse_ao (w : Nat) (v : Word) : (s.burnFuse w v).ao = s.ao := rfl
@[simp] theorem burnFuse_evr (w : Nat) (v : Word) : (s.burnFuse w v).evr = s.evr := rfl
@[simp] theorem burnFuse_nvm (w : Nat) (v : Word) : (s.burnFuse w v).nvm = s.nvm := rfl
@[simp] theorem burnFuse_sec (w : Nat) (v : Word) : (s.burnFuse w v).sec = s.sec := rfl
@[simp] theorem burnFuse_router (w : Nat) (v : Word) : (s.burnFuse w v).router = s.router := rfl
@[simp] theorem burnFuse_budget (w : Nat) (v : Word) : (s.burnFuse w v).budget = s.budget := rfl
@[simp] theorem burnFuse_test (w : Nat) (v : Word) : (s.burnFuse w v).test = s.test := rfl
@[simp] theorem burnFuse_waypoint (w : Nat) (v : Word) : (s.burnFuse w v).waypoint = s.waypoint := rfl
@[simp] theorem burnFuse_bus (w : Nat) (v : Word) : (s.burnFuse w v).bus = s.bus := rfl
@[simp] theorem burnFuse_lane (w : Nat) (v : Word) : (s.burnFuse w v).lane = s.lane := rfl
@[simp] theorem burnFuse_sent (w : Nat) (v : Word) : (s.burnFuse w v).sent = s.sent := rfl
@[simp] theorem burnFuse_free (w : Nat) (v : Word) : (s.burnFuse w v).free = s.free := rfl
@[simp] theorem burnFuse_pending (w : Nat) (v : Word) : (s.burnFuse w v).pending = s.pending := rfl

@[simp] theorem setMapEntry_regs (i : Nat) (e : MapEntry) : (s.setMapEntry i e).regs = s.regs := rfl
@[simp] theorem setMapEntry_mem (i : Nat) (e : MapEntry) : (s.setMapEntry i e).mem = s.mem := rfl
@[simp] theorem setMapEntry_flash (i : Nat) (e : MapEntry) : (s.setMapEntry i e).flash = s.flash := rfl
@[simp] theorem setMapEntry_fuses (i : Nat) (e : MapEntry) : (s.setMapEntry i e).fuses = s.fuses := rfl
@[simp] theorem setMapEntry_rangerMem (i : Nat) (e : MapEntry) : (s.setMapEntry i e).rangerMem = s.rangerMem := rfl
@[simp] theorem setMapEntry_glades (i : Nat) (e : MapEntry) : (s.setMapEntry i e).glades = s.glades := rfl
@[simp] theorem setMapEntry_queues (i : Nat) (e : MapEntry) : (s.setMapEntry i e).queues = s.queues := rfl
@[simp] theorem setMapEntry_tiles (i : Nat) (e : MapEntry) : (s.setMapEntry i e).tiles = s.tiles := rfl
@[simp] theorem setMapEntry_frames (i : Nat) (e : MapEntry) : (s.setMapEntry i e).frames = s.frames := rfl
@[simp] theorem setMapEntry_links (i : Nat) (e : MapEntry) : (s.setMapEntry i e).links = s.links := rfl
@[simp] theorem setMapEntry_ports (i : Nat) (e : MapEntry) : (s.setMapEntry i e).ports = s.ports := rfl
@[simp] theorem setMapEntry_images (i : Nat) (e : MapEntry) : (s.setMapEntry i e).images = s.images := rfl
@[simp] theorem setMapEntry_keys (i : Nat) (e : MapEntry) : (s.setMapEntry i e).keys = s.keys := rfl
@[simp] theorem setMapEntry_ao (i : Nat) (e : MapEntry) : (s.setMapEntry i e).ao = s.ao := rfl
@[simp] theorem setMapEntry_evr (i : Nat) (e : MapEntry) : (s.setMapEntry i e).evr = s.evr := rfl
@[simp] theorem setMapEntry_nvm (i : Nat) (e : MapEntry) : (s.setMapEntry i e).nvm = s.nvm := rfl
@[simp] theorem setMapEntry_sec (i : Nat) (e : MapEntry) : (s.setMapEntry i e).sec = s.sec := rfl
@[simp] theorem setMapEntry_router (i : Nat) (e : MapEntry) : (s.setMapEntry i e).router = s.router := rfl
@[simp] theorem setMapEntry_budget (i : Nat) (e : MapEntry) : (s.setMapEntry i e).budget = s.budget := rfl
@[simp] theorem setMapEntry_test (i : Nat) (e : MapEntry) : (s.setMapEntry i e).test = s.test := rfl
@[simp] theorem setMapEntry_waypoint (i : Nat) (e : MapEntry) : (s.setMapEntry i e).waypoint = s.waypoint := rfl
@[simp] theorem setMapEntry_bus (i : Nat) (e : MapEntry) : (s.setMapEntry i e).bus = s.bus := rfl
@[simp] theorem setMapEntry_lane (i : Nat) (e : MapEntry) : (s.setMapEntry i e).lane = s.lane := rfl
@[simp] theorem setMapEntry_sent (i : Nat) (e : MapEntry) : (s.setMapEntry i e).sent = s.sent := rfl
@[simp] theorem setMapEntry_free (i : Nat) (e : MapEntry) : (s.setMapEntry i e).free = s.free := rfl
@[simp] theorem setMapEntry_pending (i : Nat) (e : MapEntry) : (s.setMapEntry i e).pending = s.pending := rfl

@[simp] theorem updGl_regs (g : Nat) (f : GladeState → GladeState) : (s.updGl g f).regs = s.regs := rfl
@[simp] theorem updGl_mem (g : Nat) (f : GladeState → GladeState) : (s.updGl g f).mem = s.mem := rfl
@[simp] theorem updGl_flash (g : Nat) (f : GladeState → GladeState) : (s.updGl g f).flash = s.flash := rfl
@[simp] theorem updGl_fuses (g : Nat) (f : GladeState → GladeState) : (s.updGl g f).fuses = s.fuses := rfl
@[simp] theorem updGl_nodeMap (g : Nat) (f : GladeState → GladeState) : (s.updGl g f).nodeMap = s.nodeMap := rfl
@[simp] theorem updGl_rangerMem (g : Nat) (f : GladeState → GladeState) : (s.updGl g f).rangerMem = s.rangerMem := rfl
@[simp] theorem updGl_queues (g : Nat) (f : GladeState → GladeState) : (s.updGl g f).queues = s.queues := rfl
@[simp] theorem updGl_tiles (g : Nat) (f : GladeState → GladeState) : (s.updGl g f).tiles = s.tiles := rfl
@[simp] theorem updGl_frames (g : Nat) (f : GladeState → GladeState) : (s.updGl g f).frames = s.frames := rfl
@[simp] theorem updGl_links (g : Nat) (f : GladeState → GladeState) : (s.updGl g f).links = s.links := rfl
@[simp] theorem updGl_ports (g : Nat) (f : GladeState → GladeState) : (s.updGl g f).ports = s.ports := rfl
@[simp] theorem updGl_images (g : Nat) (f : GladeState → GladeState) : (s.updGl g f).images = s.images := rfl
@[simp] theorem updGl_keys (g : Nat) (f : GladeState → GladeState) : (s.updGl g f).keys = s.keys := rfl
@[simp] theorem updGl_ao (g : Nat) (f : GladeState → GladeState) : (s.updGl g f).ao = s.ao := rfl
@[simp] theorem updGl_evr (g : Nat) (f : GladeState → GladeState) : (s.updGl g f).evr = s.evr := rfl
@[simp] theorem updGl_nvm (g : Nat) (f : GladeState → GladeState) : (s.updGl g f).nvm = s.nvm := rfl
@[simp] theorem updGl_sec (g : Nat) (f : GladeState → GladeState) : (s.updGl g f).sec = s.sec := rfl
@[simp] theorem updGl_router (g : Nat) (f : GladeState → GladeState) : (s.updGl g f).router = s.router := rfl
@[simp] theorem updGl_budget (g : Nat) (f : GladeState → GladeState) : (s.updGl g f).budget = s.budget := rfl
@[simp] theorem updGl_test (g : Nat) (f : GladeState → GladeState) : (s.updGl g f).test = s.test := rfl
@[simp] theorem updGl_waypoint (g : Nat) (f : GladeState → GladeState) : (s.updGl g f).waypoint = s.waypoint := rfl
@[simp] theorem updGl_bus (g : Nat) (f : GladeState → GladeState) : (s.updGl g f).bus = s.bus := rfl
@[simp] theorem updGl_lane (g : Nat) (f : GladeState → GladeState) : (s.updGl g f).lane = s.lane := rfl
@[simp] theorem updGl_sent (g : Nat) (f : GladeState → GladeState) : (s.updGl g f).sent = s.sent := rfl
@[simp] theorem updGl_free (g : Nat) (f : GladeState → GladeState) : (s.updGl g f).free = s.free := rfl
@[simp] theorem updGl_pending (g : Nat) (f : GladeState → GladeState) : (s.updGl g f).pending = s.pending := rfl

@[simp] theorem updQu_regs (q : Nat) (f : QueueState → QueueState) : (s.updQu q f).regs = s.regs := rfl
@[simp] theorem updQu_mem (q : Nat) (f : QueueState → QueueState) : (s.updQu q f).mem = s.mem := rfl
@[simp] theorem updQu_flash (q : Nat) (f : QueueState → QueueState) : (s.updQu q f).flash = s.flash := rfl
@[simp] theorem updQu_fuses (q : Nat) (f : QueueState → QueueState) : (s.updQu q f).fuses = s.fuses := rfl
@[simp] theorem updQu_nodeMap (q : Nat) (f : QueueState → QueueState) : (s.updQu q f).nodeMap = s.nodeMap := rfl
@[simp] theorem updQu_rangerMem (q : Nat) (f : QueueState → QueueState) : (s.updQu q f).rangerMem = s.rangerMem := rfl
@[simp] theorem updQu_glades (q : Nat) (f : QueueState → QueueState) : (s.updQu q f).glades = s.glades := rfl
@[simp] theorem updQu_tiles (q : Nat) (f : QueueState → QueueState) : (s.updQu q f).tiles = s.tiles := rfl
@[simp] theorem updQu_frames (q : Nat) (f : QueueState → QueueState) : (s.updQu q f).frames = s.frames := rfl
@[simp] theorem updQu_links (q : Nat) (f : QueueState → QueueState) : (s.updQu q f).links = s.links := rfl
@[simp] theorem updQu_ports (q : Nat) (f : QueueState → QueueState) : (s.updQu q f).ports = s.ports := rfl
@[simp] theorem updQu_images (q : Nat) (f : QueueState → QueueState) : (s.updQu q f).images = s.images := rfl
@[simp] theorem updQu_keys (q : Nat) (f : QueueState → QueueState) : (s.updQu q f).keys = s.keys := rfl
@[simp] theorem updQu_ao (q : Nat) (f : QueueState → QueueState) : (s.updQu q f).ao = s.ao := rfl
@[simp] theorem updQu_evr (q : Nat) (f : QueueState → QueueState) : (s.updQu q f).evr = s.evr := rfl
@[simp] theorem updQu_nvm (q : Nat) (f : QueueState → QueueState) : (s.updQu q f).nvm = s.nvm := rfl
@[simp] theorem updQu_sec (q : Nat) (f : QueueState → QueueState) : (s.updQu q f).sec = s.sec := rfl
@[simp] theorem updQu_router (q : Nat) (f : QueueState → QueueState) : (s.updQu q f).router = s.router := rfl
@[simp] theorem updQu_budget (q : Nat) (f : QueueState → QueueState) : (s.updQu q f).budget = s.budget := rfl
@[simp] theorem updQu_test (q : Nat) (f : QueueState → QueueState) : (s.updQu q f).test = s.test := rfl
@[simp] theorem updQu_waypoint (q : Nat) (f : QueueState → QueueState) : (s.updQu q f).waypoint = s.waypoint := rfl
@[simp] theorem updQu_bus (q : Nat) (f : QueueState → QueueState) : (s.updQu q f).bus = s.bus := rfl
@[simp] theorem updQu_lane (q : Nat) (f : QueueState → QueueState) : (s.updQu q f).lane = s.lane := rfl
@[simp] theorem updQu_sent (q : Nat) (f : QueueState → QueueState) : (s.updQu q f).sent = s.sent := rfl
@[simp] theorem updQu_free (q : Nat) (f : QueueState → QueueState) : (s.updQu q f).free = s.free := rfl
@[simp] theorem updQu_pending (q : Nat) (f : QueueState → QueueState) : (s.updQu q f).pending = s.pending := rfl

@[simp] theorem updTl_regs (t : Nat) (f : TileState → TileState) : (s.updTl t f).regs = s.regs := rfl
@[simp] theorem updTl_mem (t : Nat) (f : TileState → TileState) : (s.updTl t f).mem = s.mem := rfl
@[simp] theorem updTl_flash (t : Nat) (f : TileState → TileState) : (s.updTl t f).flash = s.flash := rfl
@[simp] theorem updTl_fuses (t : Nat) (f : TileState → TileState) : (s.updTl t f).fuses = s.fuses := rfl
@[simp] theorem updTl_nodeMap (t : Nat) (f : TileState → TileState) : (s.updTl t f).nodeMap = s.nodeMap := rfl
@[simp] theorem updTl_rangerMem (t : Nat) (f : TileState → TileState) : (s.updTl t f).rangerMem = s.rangerMem := rfl
@[simp] theorem updTl_glades (t : Nat) (f : TileState → TileState) : (s.updTl t f).glades = s.glades := rfl
@[simp] theorem updTl_queues (t : Nat) (f : TileState → TileState) : (s.updTl t f).queues = s.queues := rfl
@[simp] theorem updTl_frames (t : Nat) (f : TileState → TileState) : (s.updTl t f).frames = s.frames := rfl
@[simp] theorem updTl_links (t : Nat) (f : TileState → TileState) : (s.updTl t f).links = s.links := rfl
@[simp] theorem updTl_ports (t : Nat) (f : TileState → TileState) : (s.updTl t f).ports = s.ports := rfl
@[simp] theorem updTl_images (t : Nat) (f : TileState → TileState) : (s.updTl t f).images = s.images := rfl
@[simp] theorem updTl_keys (t : Nat) (f : TileState → TileState) : (s.updTl t f).keys = s.keys := rfl
@[simp] theorem updTl_ao (t : Nat) (f : TileState → TileState) : (s.updTl t f).ao = s.ao := rfl
@[simp] theorem updTl_evr (t : Nat) (f : TileState → TileState) : (s.updTl t f).evr = s.evr := rfl
@[simp] theorem updTl_nvm (t : Nat) (f : TileState → TileState) : (s.updTl t f).nvm = s.nvm := rfl
@[simp] theorem updTl_sec (t : Nat) (f : TileState → TileState) : (s.updTl t f).sec = s.sec := rfl
@[simp] theorem updTl_router (t : Nat) (f : TileState → TileState) : (s.updTl t f).router = s.router := rfl
@[simp] theorem updTl_budget (t : Nat) (f : TileState → TileState) : (s.updTl t f).budget = s.budget := rfl
@[simp] theorem updTl_test (t : Nat) (f : TileState → TileState) : (s.updTl t f).test = s.test := rfl
@[simp] theorem updTl_waypoint (t : Nat) (f : TileState → TileState) : (s.updTl t f).waypoint = s.waypoint := rfl
@[simp] theorem updTl_bus (t : Nat) (f : TileState → TileState) : (s.updTl t f).bus = s.bus := rfl
@[simp] theorem updTl_lane (t : Nat) (f : TileState → TileState) : (s.updTl t f).lane = s.lane := rfl
@[simp] theorem updTl_sent (t : Nat) (f : TileState → TileState) : (s.updTl t f).sent = s.sent := rfl
@[simp] theorem updTl_free (t : Nat) (f : TileState → TileState) : (s.updTl t f).free = s.free := rfl
@[simp] theorem updTl_pending (t : Nat) (f : TileState → TileState) : (s.updTl t f).pending = s.pending := rfl

@[simp] theorem updLk_regs (p : Nat) (f : LinkState → LinkState) : (s.updLk p f).regs = s.regs := rfl
@[simp] theorem updLk_mem (p : Nat) (f : LinkState → LinkState) : (s.updLk p f).mem = s.mem := rfl
@[simp] theorem updLk_flash (p : Nat) (f : LinkState → LinkState) : (s.updLk p f).flash = s.flash := rfl
@[simp] theorem updLk_fuses (p : Nat) (f : LinkState → LinkState) : (s.updLk p f).fuses = s.fuses := rfl
@[simp] theorem updLk_nodeMap (p : Nat) (f : LinkState → LinkState) : (s.updLk p f).nodeMap = s.nodeMap := rfl
@[simp] theorem updLk_rangerMem (p : Nat) (f : LinkState → LinkState) : (s.updLk p f).rangerMem = s.rangerMem := rfl
@[simp] theorem updLk_glades (p : Nat) (f : LinkState → LinkState) : (s.updLk p f).glades = s.glades := rfl
@[simp] theorem updLk_queues (p : Nat) (f : LinkState → LinkState) : (s.updLk p f).queues = s.queues := rfl
@[simp] theorem updLk_tiles (p : Nat) (f : LinkState → LinkState) : (s.updLk p f).tiles = s.tiles := rfl
@[simp] theorem updLk_frames (p : Nat) (f : LinkState → LinkState) : (s.updLk p f).frames = s.frames := rfl
@[simp] theorem updLk_ports (p : Nat) (f : LinkState → LinkState) : (s.updLk p f).ports = s.ports := rfl
@[simp] theorem updLk_images (p : Nat) (f : LinkState → LinkState) : (s.updLk p f).images = s.images := rfl
@[simp] theorem updLk_keys (p : Nat) (f : LinkState → LinkState) : (s.updLk p f).keys = s.keys := rfl
@[simp] theorem updLk_ao (p : Nat) (f : LinkState → LinkState) : (s.updLk p f).ao = s.ao := rfl
@[simp] theorem updLk_evr (p : Nat) (f : LinkState → LinkState) : (s.updLk p f).evr = s.evr := rfl
@[simp] theorem updLk_nvm (p : Nat) (f : LinkState → LinkState) : (s.updLk p f).nvm = s.nvm := rfl
@[simp] theorem updLk_sec (p : Nat) (f : LinkState → LinkState) : (s.updLk p f).sec = s.sec := rfl
@[simp] theorem updLk_router (p : Nat) (f : LinkState → LinkState) : (s.updLk p f).router = s.router := rfl
@[simp] theorem updLk_budget (p : Nat) (f : LinkState → LinkState) : (s.updLk p f).budget = s.budget := rfl
@[simp] theorem updLk_test (p : Nat) (f : LinkState → LinkState) : (s.updLk p f).test = s.test := rfl
@[simp] theorem updLk_waypoint (p : Nat) (f : LinkState → LinkState) : (s.updLk p f).waypoint = s.waypoint := rfl
@[simp] theorem updLk_bus (p : Nat) (f : LinkState → LinkState) : (s.updLk p f).bus = s.bus := rfl
@[simp] theorem updLk_lane (p : Nat) (f : LinkState → LinkState) : (s.updLk p f).lane = s.lane := rfl
@[simp] theorem updLk_sent (p : Nat) (f : LinkState → LinkState) : (s.updLk p f).sent = s.sent := rfl
@[simp] theorem updLk_free (p : Nat) (f : LinkState → LinkState) : (s.updLk p f).free = s.free := rfl
@[simp] theorem updLk_pending (p : Nat) (f : LinkState → LinkState) : (s.updLk p f).pending = s.pending := rfl

@[simp] theorem updPt_regs (q : Nat) (f : PortState → PortState) : (s.updPt q f).regs = s.regs := rfl
@[simp] theorem updPt_mem (q : Nat) (f : PortState → PortState) : (s.updPt q f).mem = s.mem := rfl
@[simp] theorem updPt_flash (q : Nat) (f : PortState → PortState) : (s.updPt q f).flash = s.flash := rfl
@[simp] theorem updPt_fuses (q : Nat) (f : PortState → PortState) : (s.updPt q f).fuses = s.fuses := rfl
@[simp] theorem updPt_nodeMap (q : Nat) (f : PortState → PortState) : (s.updPt q f).nodeMap = s.nodeMap := rfl
@[simp] theorem updPt_rangerMem (q : Nat) (f : PortState → PortState) : (s.updPt q f).rangerMem = s.rangerMem := rfl
@[simp] theorem updPt_glades (q : Nat) (f : PortState → PortState) : (s.updPt q f).glades = s.glades := rfl
@[simp] theorem updPt_queues (q : Nat) (f : PortState → PortState) : (s.updPt q f).queues = s.queues := rfl
@[simp] theorem updPt_tiles (q : Nat) (f : PortState → PortState) : (s.updPt q f).tiles = s.tiles := rfl
@[simp] theorem updPt_frames (q : Nat) (f : PortState → PortState) : (s.updPt q f).frames = s.frames := rfl
@[simp] theorem updPt_links (q : Nat) (f : PortState → PortState) : (s.updPt q f).links = s.links := rfl
@[simp] theorem updPt_images (q : Nat) (f : PortState → PortState) : (s.updPt q f).images = s.images := rfl
@[simp] theorem updPt_keys (q : Nat) (f : PortState → PortState) : (s.updPt q f).keys = s.keys := rfl
@[simp] theorem updPt_ao (q : Nat) (f : PortState → PortState) : (s.updPt q f).ao = s.ao := rfl
@[simp] theorem updPt_evr (q : Nat) (f : PortState → PortState) : (s.updPt q f).evr = s.evr := rfl
@[simp] theorem updPt_nvm (q : Nat) (f : PortState → PortState) : (s.updPt q f).nvm = s.nvm := rfl
@[simp] theorem updPt_sec (q : Nat) (f : PortState → PortState) : (s.updPt q f).sec = s.sec := rfl
@[simp] theorem updPt_router (q : Nat) (f : PortState → PortState) : (s.updPt q f).router = s.router := rfl
@[simp] theorem updPt_budget (q : Nat) (f : PortState → PortState) : (s.updPt q f).budget = s.budget := rfl
@[simp] theorem updPt_test (q : Nat) (f : PortState → PortState) : (s.updPt q f).test = s.test := rfl
@[simp] theorem updPt_waypoint (q : Nat) (f : PortState → PortState) : (s.updPt q f).waypoint = s.waypoint := rfl
@[simp] theorem updPt_bus (q : Nat) (f : PortState → PortState) : (s.updPt q f).bus = s.bus := rfl
@[simp] theorem updPt_lane (q : Nat) (f : PortState → PortState) : (s.updPt q f).lane = s.lane := rfl
@[simp] theorem updPt_sent (q : Nat) (f : PortState → PortState) : (s.updPt q f).sent = s.sent := rfl
@[simp] theorem updPt_free (q : Nat) (f : PortState → PortState) : (s.updPt q f).free = s.free := rfl
@[simp] theorem updPt_pending (q : Nat) (f : PortState → PortState) : (s.updPt q f).pending = s.pending := rfl

@[simp] theorem updIm_regs (i : Nat) (f : ImageState → ImageState) : (s.updIm i f).regs = s.regs := rfl
@[simp] theorem updIm_mem (i : Nat) (f : ImageState → ImageState) : (s.updIm i f).mem = s.mem := rfl
@[simp] theorem updIm_flash (i : Nat) (f : ImageState → ImageState) : (s.updIm i f).flash = s.flash := rfl
@[simp] theorem updIm_fuses (i : Nat) (f : ImageState → ImageState) : (s.updIm i f).fuses = s.fuses := rfl
@[simp] theorem updIm_nodeMap (i : Nat) (f : ImageState → ImageState) : (s.updIm i f).nodeMap = s.nodeMap := rfl
@[simp] theorem updIm_rangerMem (i : Nat) (f : ImageState → ImageState) : (s.updIm i f).rangerMem = s.rangerMem := rfl
@[simp] theorem updIm_glades (i : Nat) (f : ImageState → ImageState) : (s.updIm i f).glades = s.glades := rfl
@[simp] theorem updIm_queues (i : Nat) (f : ImageState → ImageState) : (s.updIm i f).queues = s.queues := rfl
@[simp] theorem updIm_tiles (i : Nat) (f : ImageState → ImageState) : (s.updIm i f).tiles = s.tiles := rfl
@[simp] theorem updIm_frames (i : Nat) (f : ImageState → ImageState) : (s.updIm i f).frames = s.frames := rfl
@[simp] theorem updIm_links (i : Nat) (f : ImageState → ImageState) : (s.updIm i f).links = s.links := rfl
@[simp] theorem updIm_ports (i : Nat) (f : ImageState → ImageState) : (s.updIm i f).ports = s.ports := rfl
@[simp] theorem updIm_keys (i : Nat) (f : ImageState → ImageState) : (s.updIm i f).keys = s.keys := rfl
@[simp] theorem updIm_ao (i : Nat) (f : ImageState → ImageState) : (s.updIm i f).ao = s.ao := rfl
@[simp] theorem updIm_evr (i : Nat) (f : ImageState → ImageState) : (s.updIm i f).evr = s.evr := rfl
@[simp] theorem updIm_nvm (i : Nat) (f : ImageState → ImageState) : (s.updIm i f).nvm = s.nvm := rfl
@[simp] theorem updIm_sec (i : Nat) (f : ImageState → ImageState) : (s.updIm i f).sec = s.sec := rfl
@[simp] theorem updIm_router (i : Nat) (f : ImageState → ImageState) : (s.updIm i f).router = s.router := rfl
@[simp] theorem updIm_budget (i : Nat) (f : ImageState → ImageState) : (s.updIm i f).budget = s.budget := rfl
@[simp] theorem updIm_test (i : Nat) (f : ImageState → ImageState) : (s.updIm i f).test = s.test := rfl
@[simp] theorem updIm_waypoint (i : Nat) (f : ImageState → ImageState) : (s.updIm i f).waypoint = s.waypoint := rfl
@[simp] theorem updIm_bus (i : Nat) (f : ImageState → ImageState) : (s.updIm i f).bus = s.bus := rfl
@[simp] theorem updIm_lane (i : Nat) (f : ImageState → ImageState) : (s.updIm i f).lane = s.lane := rfl
@[simp] theorem updIm_sent (i : Nat) (f : ImageState → ImageState) : (s.updIm i f).sent = s.sent := rfl
@[simp] theorem updIm_free (i : Nat) (f : ImageState → ImageState) : (s.updIm i f).free = s.free := rfl
@[simp] theorem updIm_pending (i : Nat) (f : ImageState → ImageState) : (s.updIm i f).pending = s.pending := rfl

@[simp] theorem updKs_regs (x : Nat) (f : KeySlot → KeySlot) : (s.updKs x f).regs = s.regs := rfl
@[simp] theorem updKs_mem (x : Nat) (f : KeySlot → KeySlot) : (s.updKs x f).mem = s.mem := rfl
@[simp] theorem updKs_flash (x : Nat) (f : KeySlot → KeySlot) : (s.updKs x f).flash = s.flash := rfl
@[simp] theorem updKs_fuses (x : Nat) (f : KeySlot → KeySlot) : (s.updKs x f).fuses = s.fuses := rfl
@[simp] theorem updKs_nodeMap (x : Nat) (f : KeySlot → KeySlot) : (s.updKs x f).nodeMap = s.nodeMap := rfl
@[simp] theorem updKs_rangerMem (x : Nat) (f : KeySlot → KeySlot) : (s.updKs x f).rangerMem = s.rangerMem := rfl
@[simp] theorem updKs_glades (x : Nat) (f : KeySlot → KeySlot) : (s.updKs x f).glades = s.glades := rfl
@[simp] theorem updKs_queues (x : Nat) (f : KeySlot → KeySlot) : (s.updKs x f).queues = s.queues := rfl
@[simp] theorem updKs_tiles (x : Nat) (f : KeySlot → KeySlot) : (s.updKs x f).tiles = s.tiles := rfl
@[simp] theorem updKs_frames (x : Nat) (f : KeySlot → KeySlot) : (s.updKs x f).frames = s.frames := rfl
@[simp] theorem updKs_links (x : Nat) (f : KeySlot → KeySlot) : (s.updKs x f).links = s.links := rfl
@[simp] theorem updKs_ports (x : Nat) (f : KeySlot → KeySlot) : (s.updKs x f).ports = s.ports := rfl
@[simp] theorem updKs_images (x : Nat) (f : KeySlot → KeySlot) : (s.updKs x f).images = s.images := rfl
@[simp] theorem updKs_ao (x : Nat) (f : KeySlot → KeySlot) : (s.updKs x f).ao = s.ao := rfl
@[simp] theorem updKs_evr (x : Nat) (f : KeySlot → KeySlot) : (s.updKs x f).evr = s.evr := rfl
@[simp] theorem updKs_nvm (x : Nat) (f : KeySlot → KeySlot) : (s.updKs x f).nvm = s.nvm := rfl
@[simp] theorem updKs_sec (x : Nat) (f : KeySlot → KeySlot) : (s.updKs x f).sec = s.sec := rfl
@[simp] theorem updKs_router (x : Nat) (f : KeySlot → KeySlot) : (s.updKs x f).router = s.router := rfl
@[simp] theorem updKs_budget (x : Nat) (f : KeySlot → KeySlot) : (s.updKs x f).budget = s.budget := rfl
@[simp] theorem updKs_test (x : Nat) (f : KeySlot → KeySlot) : (s.updKs x f).test = s.test := rfl
@[simp] theorem updKs_waypoint (x : Nat) (f : KeySlot → KeySlot) : (s.updKs x f).waypoint = s.waypoint := rfl
@[simp] theorem updKs_bus (x : Nat) (f : KeySlot → KeySlot) : (s.updKs x f).bus = s.bus := rfl
@[simp] theorem updKs_lane (x : Nat) (f : KeySlot → KeySlot) : (s.updKs x f).lane = s.lane := rfl
@[simp] theorem updKs_sent (x : Nat) (f : KeySlot → KeySlot) : (s.updKs x f).sent = s.sent := rfl
@[simp] theorem updKs_free (x : Nat) (f : KeySlot → KeySlot) : (s.updKs x f).free = s.free := rfl
@[simp] theorem updKs_pending (x : Nat) (f : KeySlot → KeySlot) : (s.updKs x f).pending = s.pending := rfl

@[simp] theorem send_regs (x : Sent) : (s.send x).regs = s.regs := rfl
@[simp] theorem send_mem (x : Sent) : (s.send x).mem = s.mem := rfl
@[simp] theorem send_flash (x : Sent) : (s.send x).flash = s.flash := rfl
@[simp] theorem send_fuses (x : Sent) : (s.send x).fuses = s.fuses := rfl
@[simp] theorem send_nodeMap (x : Sent) : (s.send x).nodeMap = s.nodeMap := rfl
@[simp] theorem send_rangerMem (x : Sent) : (s.send x).rangerMem = s.rangerMem := rfl
@[simp] theorem send_glades (x : Sent) : (s.send x).glades = s.glades := rfl
@[simp] theorem send_queues (x : Sent) : (s.send x).queues = s.queues := rfl
@[simp] theorem send_tiles (x : Sent) : (s.send x).tiles = s.tiles := rfl
@[simp] theorem send_frames (x : Sent) : (s.send x).frames = s.frames := rfl
@[simp] theorem send_links (x : Sent) : (s.send x).links = s.links := rfl
@[simp] theorem send_ports (x : Sent) : (s.send x).ports = s.ports := rfl
@[simp] theorem send_images (x : Sent) : (s.send x).images = s.images := rfl
@[simp] theorem send_keys (x : Sent) : (s.send x).keys = s.keys := rfl
@[simp] theorem send_ao (x : Sent) : (s.send x).ao = s.ao := rfl
@[simp] theorem send_evr (x : Sent) : (s.send x).evr = s.evr := rfl
@[simp] theorem send_nvm (x : Sent) : (s.send x).nvm = s.nvm := rfl
@[simp] theorem send_sec (x : Sent) : (s.send x).sec = s.sec := rfl
@[simp] theorem send_router (x : Sent) : (s.send x).router = s.router := rfl
@[simp] theorem send_budget (x : Sent) : (s.send x).budget = s.budget := rfl
@[simp] theorem send_test (x : Sent) : (s.send x).test = s.test := rfl
@[simp] theorem send_waypoint (x : Sent) : (s.send x).waypoint = s.waypoint := rfl
@[simp] theorem send_bus (x : Sent) : (s.send x).bus = s.bus := rfl
@[simp] theorem send_lane (x : Sent) : (s.send x).lane = s.lane := rfl
@[simp] theorem send_free (x : Sent) : (s.send x).free = s.free := rfl
@[simp] theorem send_pending (x : Sent) : (s.send x).pending = s.pending := rfl

@[simp] theorem respond_regs (r : Option Word) : (s.respond r).regs = s.regs := rfl
@[simp] theorem respond_mem (r : Option Word) : (s.respond r).mem = s.mem := rfl
@[simp] theorem respond_flash (r : Option Word) : (s.respond r).flash = s.flash := rfl
@[simp] theorem respond_fuses (r : Option Word) : (s.respond r).fuses = s.fuses := rfl
@[simp] theorem respond_nodeMap (r : Option Word) : (s.respond r).nodeMap = s.nodeMap := rfl
@[simp] theorem respond_rangerMem (r : Option Word) : (s.respond r).rangerMem = s.rangerMem := rfl
@[simp] theorem respond_glades (r : Option Word) : (s.respond r).glades = s.glades := rfl
@[simp] theorem respond_queues (r : Option Word) : (s.respond r).queues = s.queues := rfl
@[simp] theorem respond_tiles (r : Option Word) : (s.respond r).tiles = s.tiles := rfl
@[simp] theorem respond_frames (r : Option Word) : (s.respond r).frames = s.frames := rfl
@[simp] theorem respond_links (r : Option Word) : (s.respond r).links = s.links := rfl
@[simp] theorem respond_ports (r : Option Word) : (s.respond r).ports = s.ports := rfl
@[simp] theorem respond_images (r : Option Word) : (s.respond r).images = s.images := rfl
@[simp] theorem respond_keys (r : Option Word) : (s.respond r).keys = s.keys := rfl
@[simp] theorem respond_evr (r : Option Word) : (s.respond r).evr = s.evr := rfl
@[simp] theorem respond_nvm (r : Option Word) : (s.respond r).nvm = s.nvm := rfl
@[simp] theorem respond_sec (r : Option Word) : (s.respond r).sec = s.sec := rfl
@[simp] theorem respond_router (r : Option Word) : (s.respond r).router = s.router := rfl
@[simp] theorem respond_budget (r : Option Word) : (s.respond r).budget = s.budget := rfl
@[simp] theorem respond_test (r : Option Word) : (s.respond r).test = s.test := rfl
@[simp] theorem respond_waypoint (r : Option Word) : (s.respond r).waypoint = s.waypoint := rfl
@[simp] theorem respond_bus (r : Option Word) : (s.respond r).bus = s.bus := rfl
@[simp] theorem respond_lane (r : Option Word) : (s.respond r).lane = s.lane := rfl
@[simp] theorem respond_sent (r : Option Word) : (s.respond r).sent = s.sent := rfl
@[simp] theorem respond_free (r : Option Word) : (s.respond r).free = s.free := rfl
@[simp] theorem respond_pending (r : Option Word) : (s.respond r).pending = s.pending := rfl

@[simp] theorem useFree_regs : s.useFree.regs = s.regs := rfl
@[simp] theorem useFree_mem : s.useFree.mem = s.mem := rfl
@[simp] theorem useFree_flash : s.useFree.flash = s.flash := rfl
@[simp] theorem useFree_fuses : s.useFree.fuses = s.fuses := rfl
@[simp] theorem useFree_nodeMap : s.useFree.nodeMap = s.nodeMap := rfl
@[simp] theorem useFree_rangerMem : s.useFree.rangerMem = s.rangerMem := rfl
@[simp] theorem useFree_glades : s.useFree.glades = s.glades := rfl
@[simp] theorem useFree_queues : s.useFree.queues = s.queues := rfl
@[simp] theorem useFree_tiles : s.useFree.tiles = s.tiles := rfl
@[simp] theorem useFree_frames : s.useFree.frames = s.frames := rfl
@[simp] theorem useFree_links : s.useFree.links = s.links := rfl
@[simp] theorem useFree_ports : s.useFree.ports = s.ports := rfl
@[simp] theorem useFree_images : s.useFree.images = s.images := rfl
@[simp] theorem useFree_keys : s.useFree.keys = s.keys := rfl
@[simp] theorem useFree_ao : s.useFree.ao = s.ao := rfl
@[simp] theorem useFree_evr : s.useFree.evr = s.evr := rfl
@[simp] theorem useFree_nvm : s.useFree.nvm = s.nvm := rfl
@[simp] theorem useFree_sec : s.useFree.sec = s.sec := rfl
@[simp] theorem useFree_router : s.useFree.router = s.router := rfl
@[simp] theorem useFree_budget : s.useFree.budget = s.budget := rfl
@[simp] theorem useFree_test : s.useFree.test = s.test := rfl
@[simp] theorem useFree_waypoint : s.useFree.waypoint = s.waypoint := rfl
@[simp] theorem useFree_bus : s.useFree.bus = s.bus := rfl
@[simp] theorem useFree_lane : s.useFree.lane = s.lane := rfl
@[simp] theorem useFree_sent : s.useFree.sent = s.sent := rfl
@[simp] theorem useFree_pending : s.useFree.pending = s.pending := rfl

end Sys2Proof.Machine.State
end

