-- ==== Sys2Proof/Laws/Regs.lean ====
section
/-! SUPPORT. Registers, memory and the engines: a read after a write. -/
namespace Sys2Proof.Machine.State

variable (s : State)

@[simp] theorem reg_setReg (a c : Nat) (v : Word) : (s.setReg a v).reg c = if c = a then v else s.reg c := by
  simp [reg, setReg, sget_sset]

theorem reg_wr (a c : Nat) (f : Fld) (n : Nat) : (s.wr a f n).reg c = if c = a then fput (s.reg a) f n else s.reg c := by
  simp [wr]

/-- A write of one register leaves the others alone. -/
theorem reg_wr_other {a c : Nat} (h : c ≠ a) (f : Fld) (n : Nat) : (s.wr a f n).reg c = s.reg c := by simp [reg_wr, h]

theorem rd_wr_other {a c : Nat} (h : c ≠ a) (f g : Fld) (n : Nat) : (s.wr a f n).rd c g = s.rd c g := by
  simp [rd, reg_wr, h]

theorem rd_wr_same (a : Nat) {f : Fld} (h : f.ok = true) (n : Nat) : (s.wr a f n).rd a f = n % 2 ^ f.width := by
  simp [rd, reg_wr, fget_fput_same _ _ _ h]

theorem rd_wr_apart (a : Nat) {f g : Fld} (h : f.apart g = true) (hg : g.ok = true) (n : Nat) :
    (s.wr a f n).rd a g = s.rd a g := by
  simp [rd, reg_wr, fget_fput_apart _ _ _ _ h hg]

theorem fget_lt (w : Word) (f : Fld) : fget w f < 2 ^ f.width := Nat.mod_lt _ (Nat.two_pow_pos _)

theorem rd_lt (a : Nat) (f : Fld) : s.rd a f < 2 ^ f.width := fget_lt _ _

/-- A saturating count: it rises, and stops at its maximum. -/
theorem rd_add_same (a : Nat) {f : Fld} (h : f.ok = true) (n : Nat) :
    (s.add a f n).rd a f = min (s.rd a f + n) (2 ^ f.width - 1) := by
  have := Nat.two_pow_pos f.width
  rw [add, rd_wr_same s a h, Nat.mod_eq_of_lt (by omega)]

theorem rd_inc_same (a : Nat) {f : Fld} (h : f.ok = true) : (s.inc a f).rd a f = min (s.rd a f + 1) (2 ^ f.width - 1) :=
  rd_add_same s a h 1

theorem rd_add_other {a c : Nat} (h : c ≠ a) (f g : Fld) (n : Nat) : (s.add a f n).rd c g = s.rd c g := rd_wr_other s h _ _ _

theorem rd_inc_other {a c : Nat} (h : c ≠ a) (f g : Fld) : (s.inc a f).rd c g = s.rd c g := rd_wr_other s h _ _ _

theorem reg_add_other {a c : Nat} (h : c ≠ a) (f : Fld) (n : Nat) : (s.add a f n).reg c = s.reg c := reg_wr_other s h _ _

theorem reg_inc_other {a c : Nat} (h : c ≠ a) (f : Fld) : (s.inc a f).reg c = s.reg c := reg_wr_other s h _ _

theorem reg_flag (a c : Nat) (f : Fld) (b : Bool) :
    (s.flag a f b).reg c = if c = a then fput (s.reg a) f (if b then 1 else 0) else s.reg c := reg_wr s a c f _

/-- A byte of member memory reads back what was written, and every other byte stays. -/
@[simp] theorem readByte_writeByte (a c : Nat) (v : Byte) :
    (s.writeByte a v).readByte c = if c = a then v else s.readByte c := by
  simp [readByte, writeByte, sget_sset]

/-- Bytes outside a stored range stay. -/
theorem readByte_writeBytes_out (a c : Nat) (l : List Byte) (h : c < a ∨ a + l.length ≤ c) :
    (s.writeBytes a l).readByte c = s.readByte c := by
  induction l generalizing s a with
  | nil => rfl
  | cons v r ih =>
    simp only [List.length_cons] at h
    rw [writeBytes, ih _ _ (by omega)]
    simp [show c ≠ a by omega]

/-- A stored range reads back the bytes stored. -/
theorem readByte_writeBytes_in (a i : Nat) (l : List Byte) (h : i < l.length) :
    (s.writeBytes a l).readByte (a + i) = l[i] := by
  induction l generalizing s a i with
  | nil => simp at h
  | cons v r ih =>
    rw [writeBytes]
    cases i with
    | zero => rw [Nat.add_zero, readByte_writeBytes_out _ _ _ _ (by omega)]; simp
    | succ i =>
      have := ih (s.writeByte a v) (a + 1) i (by simpa using h)
      simpa [Nat.add_assoc, Nat.add_comm 1 i] using this

@[simp] theorem gl_updGl (g x : Nat) (f : GladeState → GladeState) :
    (s.updGl g f).gl x = if x = g then f (s.gl g) else s.gl x := by simp [gl, updGl, sget_sset]

@[simp] theorem qu_updQu (g x : Nat) (f : QueueState → QueueState) :
    (s.updQu g f).qu x = if x = g then f (s.qu g) else s.qu x := by simp [qu, updQu, sget_sset]

@[simp] theorem tl_updTl (g x : Nat) (f : TileState → TileState) :
    (s.updTl g f).tl x = if x = g then f (s.tl g) else s.tl x := by simp [tl, updTl, sget_sset]

@[simp] theorem lk_updLk (g x : Nat) (f : LinkState → LinkState) :
    (s.updLk g f).lk x = if x = g then f (s.lk g) else s.lk x := by simp [lk, updLk, sget_sset]

@[simp] theorem pt_updPt (g x : Nat) (f : PortState → PortState) :
    (s.updPt g f).pt x = if x = g then f (s.pt g) else s.pt x := by simp [pt, updPt, sget_sset]

@[simp] theorem im_updIm (g x : Nat) (f : ImageState → ImageState) :
    (s.updIm g f).im x = if x = g then f (s.im g) else s.im x := by simp [im, updIm, sget_sset]

@[simp] theorem ks_updKs (g x : Nat) (f : KeySlot → KeySlot) :
    (s.updKs g f).ks x = if x = g then f (s.ks g) else s.ks x := by simp [ks, updKs, sget_sset]

@[simp] theorem mapEntry_setMapEntry (i x : Nat) (e : MapEntry) :
    (s.setMapEntry i e).mapEntry x = if x = i then e else s.mapEntry x := by simp [mapEntry, setMapEntry, sget_sset]

/-- The registers read the same in states that hold the same registers. -/
theorem reg_congr {s t : State} (h : t.regs = s.regs) (a : Nat) : t.reg a = s.reg a := by simp [reg, h]

theorem rd_congr {s t : State} (h : t.regs = s.regs) (a : Nat) (f : Fld) : t.rd a f = s.rd a f := by simp [rd, reg, h]

/-- A record leaves every register but EVR_LOST alone (R391). -/
theorem reg_record (e : Ev) {a : Nat} (h : a ≠ R.EVR_LOST) : (s.record e).reg a = s.reg a := by
  unfold record
  dsimp only
  repeat' split
  all_goals first
    | rfl
    | (rw [reg_inc_other _ h]; rfl)

theorem rd_record (e : Ev) {a : Nat} (h : a ≠ R.EVR_LOST) (f : Fld) : (s.record e).rd a f = s.rd a f := by
  simp [rd, reg_record s e h]

/-- A record changes the recorder and the registers alone. -/
theorem record_fields (e : Ev) : ∃ r v, s.record e = { s with regs := r, evr := v } := by
  unfold record
  dsimp only
  repeat' split
  all_goals exact ⟨_, _, rfl⟩

@[simp] theorem record_mem (e : Ev) : (s.record e).mem = s.mem := by obtain ⟨r, v, h⟩ := record_fields s e; rw [h]
@[simp] theorem record_glades (e : Ev) : (s.record e).glades = s.glades := by obtain ⟨r, v, h⟩ := record_fields s e; rw [h]
@[simp] theorem record_queues (e : Ev) : (s.record e).queues = s.queues := by obtain ⟨r, v, h⟩ := record_fields s e; rw [h]
@[simp] theorem record_tiles (e : Ev) : (s.record e).tiles = s.tiles := by obtain ⟨r, v, h⟩ := record_fields s e; rw [h]
@[simp] theorem record_links (e : Ev) : (s.record e).links = s.links := by obtain ⟨r, v, h⟩ := record_fields s e; rw [h]
@[simp] theorem record_ports (e : Ev) : (s.record e).ports = s.ports := by obtain ⟨r, v, h⟩ := record_fields s e; rw [h]
@[simp] theorem record_images (e : Ev) : (s.record e).images = s.images := by obtain ⟨r, v, h⟩ := record_fields s e; rw [h]
@[simp] theorem record_keys (e : Ev) : (s.record e).keys = s.keys := by obtain ⟨r, v, h⟩ := record_fields s e; rw [h]
@[simp] theorem record_ao (e : Ev) : (s.record e).ao = s.ao := by obtain ⟨r, v, h⟩ := record_fields s e; rw [h]
@[simp] theorem record_nvm (e : Ev) : (s.record e).nvm = s.nvm := by obtain ⟨r, v, h⟩ := record_fields s e; rw [h]
@[simp] theorem record_sec (e : Ev) : (s.record e).sec = s.sec := by obtain ⟨r, v, h⟩ := record_fields s e; rw [h]
@[simp] theorem record_router (e : Ev) : (s.record e).router = s.router := by obtain ⟨r, v, h⟩ := record_fields s e; rw [h]
@[simp] theorem record_budget (e : Ev) : (s.record e).budget = s.budget := by obtain ⟨r, v, h⟩ := record_fields s e; rw [h]
@[simp] theorem record_test (e : Ev) : (s.record e).test = s.test := by obtain ⟨r, v, h⟩ := record_fields s e; rw [h]
@[simp] theorem record_bus (e : Ev) : (s.record e).bus = s.bus := by obtain ⟨r, v, h⟩ := record_fields s e; rw [h]
@[simp] theorem record_sent (e : Ev) : (s.record e).sent = s.sent := by obtain ⟨r, v, h⟩ := record_fields s e; rw [h]

end Sys2Proof.Machine.State
end

