-- ==== Sys2Proof/WellFormed.lean ====
section
/-! DEFINITION. Which commands are well formed: an operand that stands for a field of a message, a record or a frame fits the width
that the spec gives the field. The meanings are total, so they answer on ill-formed commands too; a sender that follows the spec sends
none. -/
namespace Sys2Proof

open Sys2Proof.Machine

/-- A member's LMN fits GLD_MEMBER LMN, 16 bits (R24). -/
def lmnOk (n : Nat) : Bool := decide (n < 2 ^ 16)

/-- A PNID has 16 bits (R247, R274). -/
def pnidOk (n : Nat) : Bool := decide (n < 2 ^ 16)

/-- A code slot: GRV_LOST LOST has one bit for each of at most 32. -/
def slotOk (n : Nat) : Bool := decide (n < 32)

/-- A ring number has 64 bits (R28). -/
def ringOk (n : Nat) : Bool := decide (n < 2 ^ 64)

/-- The low byte of a ring number that a contribution, a marker or a notice carries (R89, R145). -/
def ringLoOk (n : Nat) : Bool := decide (n < 2 ^ 8)

/-- A row answer names a slot and carries a line of 128 bytes or a leaf of 4,096 (R181). -/
def answerOk (a : RowAnswer) : Bool := slotOk a.slot && (a.bytes.length == 128 || a.bytes.length == 4096)

/-- The fields of a data frame fit its header, and it carries 1 to 128 payload blocks (R247, R283). -/
def frameOk (f : Frame) : Bool :=
  decide (f.vc < 8) && pnidOk f.src && pnidOk f.dst && decide (f.ttl < 256) && decide (f.msg.kind < 256) &&
    decide (f.msg.segIdx < 16) && decide (f.msg.segLast < 16) && lmnOk f.msg.dlmn && decide (f.msg.offset < 2 ^ 44) &&
    decide (f.msg.txid < 2 ^ 32) && decide (f.msg.dtr < 4) && decide (f.payload.length ≤ 4096)

/-- A view names slots of the stripe (R166). -/
def viewOk (v : View) : Bool :=
  slotOk v.slot && ringOk v.ring && ringOk v.openRing && decide (v.stage < 8) && v.rootHolds.all lmnOk

/-- A weight-publish record names a stream of 32 bits, and its body is at most the raw form (R219). -/
def wpOk (r : WpRecord) : Bool := decide (r.stream < 2 ^ 32) && ringOk r.ring && decide (r.body.length ≤ 2064)

/-- The payload of a management bus command fits a CAN FD frame (R368). -/
def busPayloadOk (l : List Byte) : Bool := decide (l.length ≤ 64)

/-- A command whose operands fit the fields that they stand for. -/
def Instr.wf : Instr → Bool
  | .rstNAssert n => decide (0 < n)
  | .flashDiscovery t => decide (t.log2Size < 64 ∧ t.log2Page < 64)
  | .join _ j => lmnOk j.lmn && pnidOk j.pnid && ringOk j.ring
  | .repairWalk _ rows | .encodeParity _ _ rows | .nextParityBuild _ _ rows | .auditUnit _ _ rows | .rebuildLeaf _ _ _ rows =>
    rows.all answerOk
  | .clearingRead _ _ o _ rows => decide (o < 2 ^ 44) && rows.all fun l => l.all answerOk
  | .rowReadAnswer _ _ a => answerOk a
  | .contribution _ lo _ _ _ v => ringLoOk lo && v.length == 1024
  | .endOfStepMarker _ lo _ _ | .readyNotice _ lo .. => ringLoOk lo
  | .markerReceipt _ owner lo _ _ => lmnOk owner && ringLoOk lo
  | .markerResend _ owner _ | .pullDone _ owner .. => lmnOk owner
  | .verdictReceipt _ r => r.length == 32
  | .deltaReceive sender _ => lmnOk sender
  | .ringCloseCompletion _ r _ => ringOk r
  | .ringStartCompletion _ r l _ => ringOk r && l.all lmnOk
  | .treeEntry _ child _ _ => lmnOk child
  | .groveBeat _ slot | .beatSilence _ slot | .reconcileScan _ slot => slotOk slot
  | .suspicionNotice _ l _ | .fenceNotice _ l | .departureNotice _ l | .ready _ l | .readyTimeout _ l | .saplingProbe _ l _ _ =>
    lmnOk l
  | .view _ v => viewOk v
  | .dec _ d => d.lostSlots.all slotOk
  | .start _ _ l | .decDeadline _ l => l.all slotOk
  | .takeover _ c t => lmnOk c && lmnOk t.lmn && ringOk t.ring
  | .mapupdate _ l p q => lmnOk l && pnidOk p && decide (q < 2 ^ 16)
  | .reconcileReport _ h _ | .reconcileTimeout _ h => lmnOk h
  | .copyArrival _ x _ _ _ | .shadow _ x _ _ _ | .shadowEnd _ x | .copyAck _ x _ _ _ => lmnOk x
  | .wpStart r | .wpBlock r => wpOk r
  | .wpEnd l r => lmnOk l && wpOk r
  | .loadreq r stream => pnidOk r && decide (stream < 2 ^ 32)
  | .laneMarker _ _ m => decide (m.lane < 8 ∧ m.width ≤ 8)
  | .dataFrame _ f => f.bytes.length % 32 == 0
  | .pulse _ p q _ => pnidOk p && decide (q < 256)
  | .train _ p q .. => pnidOk p && decide (q < 256)
  | .routeFrame _ f _ | .escwait f | .lrd f | .lrsp f | .err f | .lwr f | .lwack f | .inv f | .invack f | .hmsg f | .hostFrame _ f =>
    frameOk f
  | .reasmTimeout src txid => pnidOk src && decide (txid < 2 ^ 32)
  | .invTimeout _ l txid => lmnOk l && decide (txid < 2 ^ 32)
  | .mpResponse _ _ tag .. | .mpTimeout _ _ tag .. => decide (tag < 1024)
  | .scrubLine _ _ l => l.length == 128
  | .busPing _ _ _ l | .busRead _ _ _ l | .busWrite _ _ _ l | .busEvread _ _ _ l | .busReset _ _ _ l | .busIsolate _ _ _ l
  | .busRelease _ _ _ l | .busSuspect _ _ _ l => busPayloadOk l
  | .busStateChange _ _ tec rec => decide (tec < 512 ∧ rec < 256)
  | .laneTestDone _ l => l.length == 32
  | .waypointMessage _ o q _ => pnidOk o && ringOk q
  | .uncorrectableCodeword _ _ good => decide (good ≤ 16)
  | _ => true

end Sys2Proof
end

