-- ==== Sys2Proof/Tests/Slice0.lean ====
section
/-! SUPPORT. The model's own tests: ill-formed commands, a few single steps, and for every statement with hypotheses states and
operands that meet them. -/
set_option Elab.async false
set_option linter.unusedVariables false

namespace Sys2Proof.Machine

/-! ## States for the tests -/

namespace W

/-- The state that an outcome holds. -/
def out : Host.Outcome State Fault Refusal → State
  | .next t => t
  | _ => State.reset

/-- MAIN runs, nothing else is set. -/
def u : State := { State.reset with ao := { State.reset.ao with aoReset := false, mainRun := true, vddMain := true, clkCore := true, fuseSensed := true } }
/-- registers written one field at a time -/
def wrs (s : State) (l : List (Nat × Fld × Nat)) : State := l.foldl (fun s x => s.wr x.1 x.2.1 x.2.2) s
def a0 : State := State.reset
def st0 : State := { a0.wr R.NVM_STATUS F.NVM_STATUS_READY 1 with ao := { State.reset.ao with fuseSensed := true } }
def nv : State := u.wr R.NVM_STATUS F.NVM_STATUS_READY 1 |>.wr R.NVM_STATUS F.NVM_STATUS_LOG2SIZE 24 |>.wr R.NVM_STATUS F.NVM_STATUS_LOG2PAGE 8
/-- a configured glade 0 of three members with one block each, not enabled -/
def cfg0 : State :=
  let s := wrs u ([(R.GLD_CTL 0, F.GLD_CTL_K, 2), (R.GLD_CTL 0, F.GLD_CTL_M, 1), (R.GLD_MEMBER 0, F.GLD_MEMBER_SM1, 2),
    (R.GLD_LAYERS 0, F.GLD_LAYERS_COUNT, 1), (R.GLD_SIZE 0, F.GLD_SIZE_BLOCKS, 1), (R.RTR_SELF, F.RTR_SELF_PNID, 7),
    (R.RTR_MAPCFG 0, F.RTR_MAPCFG_BASE, 0), (R.RTR_MAPCFG 0, F.RTR_MAPCFG_COUNT, 3)] ++
    (List.range 8).map (fun q => (R.MPT_SIZE q, F.MPT_SIZE_SIZE, 1)) ++
    (List.range 10).flatMap fun x => [(R.GLD_REGION 0 x, F.GLD_REGION_BASE, 0x100 + 0x10 * x), (R.GLD_REGION 0 x, F.GLD_REGION_SIZE, 0x10)])
  let s := ((s.setMapEntry 0 ⟨7, true⟩).setMapEntry 1 ⟨8, true⟩).setMapEntry 2 ⟨9, true⟩
  (s.wr (R.STP_SLOT 0) F.STP_SLOT_VALID 1).writeBytes (s.regionBase 0 9) (leBytes 8 3072)
/-- enabled, joined grove of three, this member slot 0 -/
def gv : State :=
  wrs cfg0 [(R.PHS_GSTAT 0, F.PHS_GSTAT_HOLD, 0), (R.GLD_CTL 0, F.GLD_CTL_EN, 1), (R.GLD_STATUS 0, F.GLD_STATUS_ACTIVE, 1), (R.GRV_ROWCFG 0, F.GRV_ROWCFG_K, 2),
    (R.GRV_ROWCFG 0, F.GRV_ROWCFG_M, 1), (R.GRV_ROWCFG 0, F.GRV_ROWCFG_GROUPS, 1), (R.GRV_ROWCFG 0, F.GRV_ROWCFG_JOINED, 1),
    (R.GRV_MSTAT 0, F.GRV_MSTAT_STATE, 1), (R.GRV_JOIN 0, F.GRV_JOIN_STATE, 2)]
/-- glade 0's engines changed -/
def gl0 (s : State) (f : GladeState → GladeState) : State := s.updGl 0 f
def ga : State := wrs cfg0 [(R.PHS_GSTAT 0, F.PHS_GSTAT_HOLD, 0), (R.GLD_CTL 0, F.GLD_CTL_EN, 1), (R.GLD_STATUS 0, F.GLD_STATUS_ACTIVE, 1)]
def perm (s : State) : State := wrs s [(R.PHS_GSTAT 0, F.PHS_GSTAT_NOMATCH, 1), (R.PHS_GSEG 0, F.PHS_GSEG_DFLCLS, 255)]
def rowA : List RowAnswer := [⟨1, 0, List.replicate 4096 3⟩, ⟨2, 0, List.replicate 4096 5⟩]
def pv : PartialVerdict := ⟨0, 0, 0, false, false, false, 0, 1, 0, 0⟩
def vrec (a c : Bool) : List Byte := verdictRecord pv 0 a c
def lay (f : LaneContext → LaneContext) : State := { u with lane := f { u.lane with ended := false } }
/-- the ring of the grove applies, stage 3 -/
def ap (s : State) : State := gl0 ((perm s).wr (R.STP_GSTAT 0) F.STP_GSTAT_STAGE 3) fun x => { x with verdict := vrec true false, verdictDone := true }
def prog1 (s : State) : State := wrs s [(R.STP_SLOT 0, F.STP_SLOT_LEN1, 1)]
def prog2 (s : State) : State := wrs (prog1 s) [(R.STP_SLOT 0, F.STP_SLOT_LEN2, 1)]
/-- a descriptor from its eight words -/
def dsc (w : List Nat) (st dn : Bool) : Desc := ⟨0, w.map (BitVec.ofNat 64), st, dn, false⟩
def dOp (op count : Nat) : Desc := dsc [op, 0, count, 0x500000, 0x600000, 0, 0, 77] true false
def qd (s : State) (d : Desc) : State := s.updQu 0 fun q => { q with descs := [d] }
def qon (s : State) : State := wrs s [(R.CQ_QCTL 0, F.CQ_QCTL_EN, 1), (R.CQ_QSTAT 0, F.CQ_QSTAT_STATE, 1)]
def halt0 (s : State) : State := wrs s [(R.CQ_QSTAT 0, F.CQ_QSTAT_STATE, 3), (R.CQ_QSTAT 0, F.CQ_QSTAT_CODE, 4)]
def fr0 : Frame4K := ⟨4, 0, 4, 0x140, 0⟩
def fold0 : Fold := ⟨false, 0, 0, [], true, some 0, none⟩
def hdr0 : DeltaHdr := ⟨0, true, 0, 0, 0, 0, 1, 0⟩
def del0 : List Byte := List.replicate 4096 9
def gfold (f : Fold) : State := { gl0 (perm gv) (fun x => { x with folds := [f] }) with frames := [fr0] }
def copy0 : Copy := ⟨false, 1, 0, 1, [1,2], [1,2], false, 0⟩
def gcopy : State := gl0 gv fun x => { x with copies := [copy0, { copy0 with row := 4 }] }
def tgang (f : Nat → TileState → TileState) : State := (List.range 16).foldl (fun s k => s.updTl k (f k)) u
def agr (s : State) (a : Agreement) : State := gl0 s fun x => { x with agreement := some a }
def ag0 : Agreement := ⟨3, [1], [], 0, [], 1, 2⟩
def view1 : View := ⟨1, [], 0, 1, 0, false, false, [], [], 0⟩
def wit1 (s : State) : State := wrs s [(R.GRV_WIT, F.GRV_WIT_ACTIVE, 1)]
/-- the grove with one moment class: three leaves in each member, two groups -/
def gm : State := wrs gv [(R.GLD_CTL 0, F.GLD_CTL_MOMENTS, 1), (R.GRV_ROWCFG 0, F.GRV_ROWCFG_GROUPS, 2)]
def sin0 : StandIn := ⟨0, false, [1], [0], [], [], []⟩
def gsi (s : State) (r : StandIn) : State := gl0 (perm s) fun x => { x with standIn := some r }
def rows2 : List RowAnswer := [⟨1, 0, List.replicate 4096 3⟩, ⟨2, 0, List.replicate 4096 5⟩]
def planBytes : List Byte :=
  leBytes 4 1 ++ leBytes 1 0 ++ leBytes 1 0 ++ leBytes 1 0 ++ leBytes 1 3 ++ leBytes 8 5 ++ leBytes 8 0 ++ leBytes 1 2 ++ leBytes 1 1 ++
  leBytes 2 3 ++ leBytes 5 0 ++ zeros 7 ++ (List.range 10).flatMap (fun x => leBytes 8 ((gv.reg (R.GLD_REGION 0 x)).toNat + if x = 4 ∨ x = 7 then 0x100 else 0)) ++ zeros 128 ++
  leBytes 8 7 ++ leBytes 8 8 ++ leBytes 8 10
def gplan : State := (gv.wr R.GRV_CPADDR F.GRV_CPADDR_BASE 0x300).writeBytes 0x300000 planBytes
/-- the plan that these bytes hold, its digest left out -/
def plan0 : Plan where
  planId := 1
  kind := 0
  glade := 0
  curEpoch := 0
  defMax := 3
  swRing := 5
  layerHash := 0
  nk := 2
  nm := 1
  ns := 3
  nshape := 0
  nreg := [68719476992, 68719477008, 68719477024, 68719477040, 68719477312, 68719477072, 68719477088, 68719477360, 68719477120,
    68719477136]
  nspare := List.replicate 16 0
  map := [7, 8, 10]
  digest := 0
  reservedOk := true
/-- a window is open over the same shape, with a new place for region 4 -/
def gw : State := perm (gl0 (wrs gv ([(R.GRV_CPADDR, F.GRV_CPADDR_BASE, 0x300), (R.GRV_NEXTCFG 0, F.GRV_NEXTCFG_VALID, 1), (R.GRV_NEXTCFG 0, F.GRV_NEXTCFG_K, 2),
  (R.GRV_NEXTCFG 0, F.GRV_NEXTCFG_M, 1), (R.GRV_NEXTCFG 0, F.GRV_NEXTCFG_EPOCH, 1), (R.GRV_NEXTCFG 0, F.GRV_NEXTCFG_GROUPS, 1),
  (R.GRV_CPSTAT 0, F.GRV_CPSTAT_STATE, 2)] ++
  (List.range 10).flatMap fun x => [(R.GLD_NREGION 0 x, F.GLD_NREGION_BASE, 0x200 + 0x10 * x), (R.GLD_NREGION 0 x, F.GLD_NREGION_SIZE, 0x10)]))
  fun x => { x with plan := some plan0, nextUnbuilt := [0] })
def shd0 : List Byte :=
  let d := encodeDelta false { hdr0 with scaled := false } (5 :: zeros 4095)
  leBytes 8 (2 ^ 48 * pad8 (8 + d.length)) ++ d ++ zeros (pad8 (8 + d.length) - 8 - d.length) ++ zeros 16
def key0 : KeyGen := ⟨1, 5, false, 0⟩
def rowsN : List RowAnswer := rowA.map fun a => { a with status := 2 ^ 40 }
def wsl (s : State) : State := { s with keys := [(16, ⟨some key0, none, none, 6⟩)] }
def gpub : State := wsl (perm (gl0 (wrs gv [(R.GRV_WPCTL 0, F.GRV_WPCTL_GO, 1), (R.GRV_WPCTL 0, F.GRV_WPCTL_STREAM, 6),
  (R.GRV_WPCTL 0, F.GRV_WPCTL_KIDV, 2), (R.GRV_WPKIDS 0, F.GRV_WPKIDS_KID1, 33)]) fun x => { x with publishDue := true }))
def gim (st : Nat) : State := wsl (wrs gv [(R.GRV_WPOOL, F.GRV_WPOOL_BASE, 0x400), (R.GRV_WPOOL, F.GRV_WPOOL_SIZE, 0x20),
  (R.GRV_WIMG_CTL 2, F.GRV_WIMG_CTL_EN, 1), (R.GRV_WIMG_CTL 2, F.GRV_WIMG_CTL_STREAM, 6), (R.GRV_WIMG_CTL 2, F.GRV_WIMG_CTL_STATE, st),
  (R.GRV_WIMG_CTL 2, F.GRV_WIMG_CTL_KIDV, 2), (R.GRV_WIMG_KIDS 2, F.GRV_WIMG_KIDS_KID1, 33), (R.GRV_WIMG_BASE 2, F.GRV_WIMG_BASE_BASE, 0x400),
  (R.GRV_WIMG_BASE 2, F.GRV_WIMG_BASE_SIZE, 0x18), (R.GRV_WIMG_BASE 3, F.GRV_WIMG_BASE_SIZE, 4), (R.GRV_WIMG_CTL 3, F.GRV_WIMG_CTL_STREAM, 7)])
def gimr (st : Nat) : State := (gim st).updIm 2 fun x => { x with ring := 9, size := 2, blocks := 5 }
def seed0 (s : State) : State := gl0 (wrs s [(R.SEC_STATUS, F.SEC_STATUS_NOSEAL, 0), (R.GLD_SBOUT 0, F.GLD_SBOUT_BASE, 0x300),
  (R.GLD_SBOUT 0, F.GLD_SBOUT_SIZE, 4), (R.GLD_SBCTL 0, F.GLD_SBCTL_EN, 1), (R.GLD_SBOPTR 0, F.GLD_SBOPTR_WPTR, 128),
  (R.GLD_SBOPTR 0, F.GLD_SBOPTR_RPTR, 128)]) fun x => { x with sweepDue := true }
def gkey (s : State) : State := { s with keys := [(0, ⟨some key0, none, none, 0⟩)] }
def sw0 : Sweep := ⟨0, 1, [], [], 2, true, false, false, false, false, 0, 1, 0, false⟩
def gre (kind len : Nat) : State := (wrs gv [(R.GLD_SBIN 0, F.GLD_SBIN_BASE, 0x300), (R.GLD_SBIN 0, F.GLD_SBIN_SIZE, 8),
  (R.GLD_SBIPTR 0, F.GLD_SBIPTR_WPTR, 0x4000), (R.GLD_SBCTL 0, F.GLD_SBCTL_LOADALL, 1), (R.GLD_SBSTAT 0, F.GLD_SBSTAT_LEFT, 3),
  (R.GLD_SBSTAT 0, F.GLD_SBSTAT_RESTORE, 1)]).writeBytes
  0x300000 ((leBytes 2 (seedLen len / 64) ++ leBytes 1 kind ++ zeros 61))
/-- link 0 active on all lanes -/
def lk (st : Nat) (f : LinkState → LinkState) : State := (wrs gv [(R.RTR_SELF, F.RTR_SELF_SET, 1), (R.LNK_CTL 0, F.LNK_CTL_EN, 1),
  (R.LNK_CTL 0, F.LNK_CTL_LANEMASK, 255), (R.LNK_CTL 0, F.LNK_CTL_TRIMAUTO, 0), (R.LNK_STATUS 0, F.LNK_STATUS_STATE, st),
  (R.LNK_WIDTH 0, F.LNK_WIDTH_RXMASK, 255), (R.LNK_WIDTH 0, F.LNK_WIDTH_TXMASK, 255), (R.LNK_WIDTH 0, F.LNK_WIDTH_LOCKED, 255),
  (R.LNK_PEER 0, F.LNK_PEER_VALID, 1), (R.LNK_PEER 0, F.LNK_PEER_PNID, 8), (R.LNK_CTL 0, F.LNK_CTL_DOZEEN, 1)]).updLk 0 fun x =>
  f { x with lanes := (List.range 8).map fun i => (i, { x.lane i with state := 1, lane := i, width := 8 }) }
def frm0 : Frame := ⟨0, false, 8, 7, 0, 5, ⟨6, 0, 0, 0, 0, 1, 0, false, false, false, false, false, false, false⟩, 0, false, false, []⟩
def buf0 (r : Nat) : Buffered := ⟨5, true, r, false, frm0⟩
/-- a data frame of one block -/
def rx (q : Nat) (bad : Nat) : RxFrame :=
  let h := leBytes 1 0x1E ++ leBytes 1 0 ++ leBytes 1 1 ++ leBytes 1 0 ++ leBytes 2 q ++ leBytes 2 3 ++ zeros 22
  let h := h ++ leBytes 2 (crc16 h ^^^ bad)
  let b := h ++ zeros 32 ++ zeros 28
  ⟨false, false, b ++ leBytes 4 (crc32c b)⟩
def mk0 (cnt : Nat) (ok : Bool) : Marker := ⟨0, 0, 3, 8, false, cnt, ok, true, 0⟩
/-- a ring of 32 nodes with link 0 up -/
def rt : State := (lk 2 id).wr R.RTR_SHAPE F.RTR_SHAPE_X0 31
def fr (dst kind : Nat) : Frame := ⟨2, false, 8, dst, 0, 5, ⟨kind, 0, 0, 0, 0x900000, 1, 0, false, false, false, false, false, false, false⟩, 0, false, false, zeros 16⟩
def frm (f : Frame) (g : MsgHdr → MsgHdr) : Frame := { f with msg := g f.msg }
def acc0 (h : Option Nat) : Access := ⟨1, 0, 1, 0x900000, 1, h, true, false, false⟩
def rtr (f : RouterState → RouterState) : State := { rt with router := f rt.router }
def rec0 (v : Nat) : Record := ⟨0, v, 4, false, none, 7, 0, 0, 0, 0, 0, 0, 0⟩
def evs (f : Recorder → Recorder) : State := { u with evr := f u.evr }
def not0 (v : Nat) : Notice := ⟨1, v, 3, zeros 8, 9⟩
def bs (f : BusState → BusState) : State := { u with bus := f u.bus }
def kept0 (n : Nat) : Kept := ⟨n, 7, BitVec.ofNat 32 (crc32c [1,2]), [0,1], 0⟩
def l32 (n : Nat) : List Byte := leBytes 4 n ++ zeros 4
def wp (l : List (Nat × Fld × Nat)) : State := wrs gv ([(R.WPT_CTL, F.WPT_CTL_ARM, 1), (R.WPT_CTL, F.WPT_CTL_SRCEN, 15)] ++ l)
def bst (v : Nat) : State := u.wr R.MGB_STATUS (BusId.a).stateFld v
def dbg (l : List (Nat × Fld × Nat)) : State := wrs gv ((R.FUS_LCS, F.FUS_LCS_STATE, 2) :: l)
def tst (l : List (Nat × Fld × Nat)) (f : TestState → TestState) : State := let s := wrs u l; { s with test := f s.test }
/-- The least of a value and many copies of another. -/
theorem foldl_min_replicate (n a v : Nat) : (List.replicate (n + 1) v).foldl min a = min a v := by
  induction n generalizing a with
  | zero => rfl
  | succ n ih => rw [List.replicate_succ, List.foldl_cons, ih]; omega

/-- A full store of one severity. -/
theorem leastSev_full (s : State) (v : Nat) (h : s.evr.store = List.replicate 8192 (rec0 v)) : s.leastSev = min 3 v := by
  unfold State.leastSev
  rw [h, List.map_replicate]
  exact foldl_min_replicate 8191 3 v

end W

open W

/-! ## Ill-formed commands -/

theorem test_wf_refuses_pulse_of_no_time : (Instr.rstNAssert 0).wf = false := by decide +kernel
theorem test_wf_refuses_large_sfdp : (Instr.flashDiscovery ⟨true, true, true, true, true, 64, 8⟩).wf = false := by decide +kernel
theorem test_wf_refuses_short_line : (Instr.scrubLine 0 .ok []).wf = false ∧ (Instr.rowReadAnswer 0 0 ⟨0, 0, []⟩).wf = false ∧
    (Instr.encodeParity 0 0 [⟨32, 0, List.replicate 128 0⟩]).wf = false := by decide +kernel
theorem test_wf_refuses_wide_numbers : (Instr.departureNotice 0 0x10000).wf = false ∧ (Instr.groveBeat 0 32).wf = false ∧
    (Instr.mapupdate 0 0 0x10000 0).wf = false ∧ (Instr.ringCloseCompletion 0 (2 ^ 64) []).wf = false ∧
    (Instr.endOfStepMarker 0 256 0 0).wf = false ∧ (Instr.reasmTimeout 0 (2 ^ 32)).wf = false ∧
    (Instr.mpTimeout 0 false 1024 0 .other).wf = false ∧ (Instr.uncorrectableCodeword 0 0 17).wf = false := by decide +kernel
theorem test_wf_refuses_wrong_lengths : (Instr.verdictReceipt 0 []).wf = false ∧ (Instr.contribution 0 0 0 0 0 []).wf = false ∧
    (Instr.laneTestDone 0 []).wf = false ∧ (Instr.dataFrame 0 ⟨false, false, [0]⟩).wf = false ∧
    (Instr.busPing .a 0 0 (List.replicate 65 0)).wf = false := by decide +kernel
theorem test_wf_refuses_wide_fields : (Instr.lrd { frm0 with vc := 8 }).wf = false ∧ (Instr.lrd { frm0 with ttl := 256 }).wf = false ∧
    (Instr.wpStart ⟨2 ^ 32, false, false, 0, 0, []⟩).wf = false ∧ (Instr.laneMarker 0 0 ⟨0, 0, 8, 8, false, 0, true, true, 0⟩).wf = false ∧
    (Instr.busStateChange .a .busOff 512 0).wf = false ∧ (Instr.view 0 { view1 with slot := 32 }).wf = false := by decide +kernel
theorem test_wf_admits : (Instr.rstNAssert 100).wf = true ∧ (Instr.lrd frm0).wf = true ∧ (Instr.view 0 view1).wf = true ∧
    (Instr.verdictReceipt 0 (vrec true false)).wf = true := by decide +kernel

/-! ## The queue -/

/-- The front command runs, and the rest of the queue stays (assumption 1). -/
theorem test_step_runs_front : (out (step { u with pending := [.mainStart, .halt] })).pending = [.halt] := by decide +kernel

/-- No row of the table has bits, so no word spells a command. -/
theorem test_no_word_spells_a_command : decodeTableWord 32 5 = none ∧ State.reset.withFetchWord 32 5 = State.reset := by
  exact ⟨rfl, rfl⟩

/-! ## The spec's worked examples -/

/-- "Grove coding": parity 1 of row 7 at offset 3,072 of the worked example. -/
theorem test_parity_example : encodeParityBytes 4 1 [[0x3C, 0x3D, 0x00, 0xBC], [0x3D, 0xBD, 0x3C, 0x3C], [0xBC, 0x3C, 0x3D, 0x3C],
    [0x3F, 0x00, 0xBE, 0x3D]] = [0x88, 0x0E, 0xBD, 0xED] := by decide +kernel

/-- "Grove coding": the coefficients of row 1 that the worked example names. -/
theorem test_coefficients : [0, 1, 2, 3].map (coef 1) = [0xEC, 0x6D, 0x50, 0x38] ∧ ginv 0x55 = 0x1A := by decide +kernel

/-- "Grove coding": data 1 and data 3 come back from the four survivors of the worked example. -/
theorem test_reconstruct_example : reconstruct 4 4
    (fun i => if i = 0 then some [0x3C, 0x3D, 0x00, 0xBC] else if i = 2 then some [0xBD, 0x3C, 0x3D, 0x3B] else none)
    [(0, [0x83, 0xBC, 0xBF, 0x86]), (1, [0xD8, 0x0E, 0xBD, 0x40])] [1, 3] =
      [[0x3D, 0xBD, 0x3C, 0x3C], [0x3F, 0x00, 0xBE, 0x3D]] := by decide +kernel

/-- "Grove coding": the placement of row 7 at (4,2), slots 0, 3, 4 and 5 with local leaves 4, 7, 6 and 5. -/
theorem test_placement_example : let c : Code := ⟨4, 2, 3, 0, 2⟩
    (c.paritySlot 7 0, c.paritySlot 7 1) = (1, 2) ∧ [0, 1, 2, 3].map (c.dataSlot 7) = [0, 3, 4, 5] ∧
    [0, 3, 4, 5].map (fun x => c.leafOfRow x 7) = [4, 7, 6, 5] ∧ (c.parityLeaf 7 0, c.parityLeaf 7 1) = (2, 3) := by decide +kernel

/-- "Grove coding": the delta to the parity 1 holder, 26 bytes. -/
theorem test_delta_example :
    encodeDelta false ⟨0, true, 2, 1, 0, 3, 0x40, 7⟩
      ((List.replicate 4096 (0 : Byte)).set 3072 0x50 |>.set 3075 0xAD) =
    leBytes 8 0x0000000740030114 ++ leBytes 8 0x0001000000000000 ++ leBytes 8 9 ++ [0x50, 0xAD] := by decide +kernel

/-- "Tile arithmetic": the narrowing examples of R121 and R122, and the rounding example of "Step engine". -/
theorem test_narrow_examples : (bf16.narrow 0x7F7FFFFF none).1 = 0x7F7F ∧ (bf16.narrow 0x00008001 none).1 = 0x0001 ∧
    (b16.narrow 0x477FF000 none).1 = 0x7BFF ∧ (b16.narrow 0x33000000 none).1 = 0 ∧ (b16.narrow 0x33000000 (some 0x800000)).1 = 1 ∧
    (bf16.narrow 0x3F400A3C none).1 = 0x3F40 ∧ (bf16.narrow 0x3F400A3C (some 62916)).1 = 0x3F41 ∧
    (bf16.narrow 0x3F400A3C (some 62915)).1 = 0x3F40 := by decide +kernel

/-- R96: the first words of the shipped AdamW program, `LD V0, M`, `MUL` and the END that closes it. -/
theorem test_program_words : LaneOp.ofWord 0x04030000 = some (.ld 0 3) ∧ LaneOp.ofWord 0 = some .fin ∧
    (LaneOp.ofWord 0xFC000000) = none := by decide +kernel

/-! ## Single steps -/

/-- R347: SWRST with the CONFIRM value resets MAIN and sets CMD. -/
theorem test_swrst : (out (exec (.swrst 0x0C5A0100) gv)).ao.mainRun = false ∧
    (out (exec (.swrst 0x0C5A0101) gv)).ao.mainRun = true := by decide +kernel

/-- R6: a write with one byte enable off gets an error response. -/
theorem test_partial_write_refused : (out (exec (.registerWrite .port 0x28 0x7F 1) u)).ao.rspErr = true := by decide +kernel

/-- R7: a W1C bit is cleared by a 1, and a 0 leaves the others. -/
theorem test_write_one_clears : writeByCode (R.GLD_STATUS 0) 0x700 0x400 = 0x300 := by decide +kernel

/-- R96, R117: 1.0 + 2.0 = 3.0 in the lane, the source registers being the destination too. -/
theorem test_step_add : ((out (exec (.stepAdd 3 3 4) (lay fun l => { l with v := (l.v.set 3 0x3F800000).set 4 0x40000000 }))).lane.v).getD 3 0 =
    0x40400000 := by decide +kernel

/-- R401: WAYPOINT_OUT falls at the end of its microsecond. -/
theorem test_waypoint_out_end : (out (exec .waypointOutEnd { u with ao := { u.ao with waypointOut := true } })).ao.waypointOut = false := by
  decide +kernel

/-! ## Witnesses -/

/-- States and operands that meet the hypotheses of each clause of StepRunsTheFrontCommand. -/
theorem test_witness_StepRunsTheFrontCommand :
    (∃ (s : State), s.pending = [] ∧ s.aoUp) :=
  ⟨u, by decide +kernel, rfl⟩

/-- States and operands that meet the hypotheses of each clause of EveryCommandAnswersWithinItsFrame. -/
theorem test_witness_EveryCommandAnswersWithinItsFrame :
    (∃ (s t : State) (w i : Nat), step s = .next t ∧ (s.fuse w).getLsbD i = true) :=
  ⟨{ u with fuses := [(0, 1)] }, State.tick { u with fuses := [(0, 1)] }, 0, 0, rfl, by decide +kernel⟩

/-- States and operands that meet the hypotheses of each clause of StepKeepsCanonicalForm. -/
theorem test_witness_StepKeepsCanonicalForm :
    (∃ (s t : State), s.canonical ∧ step s = .next t) :=
  ⟨gv, gv.tick, by unfold State.canonical; decide +kernel, rfl⟩

/-- States and operands that meet the hypotheses of each clause of FieldsFollowAccessCodes. -/
theorem test_witness_FieldsFollowAccessCodes :
    (∃ (a : Nat) (old v : Word) (f : FieldRow) (i : Nat), f ∈ fieldsAt a ∧ f.lo ≤ i ∧ i < f.lo + f.width) ∧
    (∃ (a : Nat) (old : Word) (f : FieldRow) (i : Nat), f ∈ fieldsAt a ∧ f.lo ≤ i ∧ i < f.lo + f.width) ∧
    (∃ (a : Nat) (old : Word) (f : FieldRow) (i : Nat), f ∈ fieldsAt a ∧ f.lo ≤ i ∧ i < f.lo + f.width) ∧
    (∃ (s : State) (v : Word), s.aoUp) ∧
    (∃ (s : State), s.aoUp) :=
  ⟨⟨R.GLB_RSTCAUSE, 0, 0xFFFFFFFFFFFFFFFF, (fieldsAt R.GLB_RSTCAUSE).getD 0 ⟨0, 0, .ro⟩, 0, by decide +kernel⟩,
   ⟨R.EVR_LOST, 5, (fieldsAt R.EVR_LOST).getD 0 ⟨0, 0, .ro⟩, 0, by decide +kernel⟩,
   ⟨R.EVR_LOST, 5, (fieldsAt R.EVR_LOST).getD 0 ⟨0, 0, .ro⟩, 0, by decide +kernel⟩,
   ⟨u, 0xFFFFFFFFFFFFFFFF, rfl⟩,
   ⟨u.wr R.EVR_LOST ⟨0, 32⟩ 7, rfl⟩⟩

/-- States and operands that meet the hypotheses of each clause of RefusedPortAccesses. -/
theorem test_witness_RefusedPortAccesses :
    (∃ (s : State) (a : BitVec 24) (be : Byte) (v : Word), s.aoUp ∧ (be ≠ 0xFF ∨ a.toNat % 8 ≠ 0)) ∧
    (∃ (s : State) (a : BitVec 24) (v : Word), s.aoUp ∧ a.toNat < 0x800000 ∧ isReg a.toNat = false) ∧
    (∃ (s : State) (a : BitVec 24), s.aoUp ∧ 0x800000 ≤ a.toNat ∧ isReg (a.toNat - 0x800000) = false) :=
  ⟨⟨u, 3, 0xFF, 7, rfl, by decide +kernel⟩,
   ⟨u, 0x7FFFF8, 7, rfl, by decide +kernel⟩,
   ⟨u, 0xFFFFF8, rfl, by decide +kernel⟩⟩

/-- States and operands that meet the hypotheses of each clause of RegisterAccess. -/
theorem test_witness_RegisterAccess :
    (∃ (s : State) (a : BitVec 24) (v : Word), s.aoUp ∧ a.toNat ∈ [R.EVR_CTL, R.TST_SEED, R.TST_EXP]) ∧
    (∃ (s : State) (a : BitVec 24) (w : Word), s.aoUp ∧ 0x800000 ≤ a.toNat ∧ s.peek (a.toNat - 0x800000) = some w) ∧
    (∃ (s : State) (a : BitVec 24) (v : Word), s.aoUp ∧ 0x800000 ≤ a.toNat) ∧
    (∃ (s : State) (a : BitVec 24) (v : Word), s.aoUp ∧ ¬s.up ∧ a.toNat < 0x800000 ∧ isAoAddr a.toNat = false) ∧
    (∃ (s : State) (a : BitVec 24) (v : Word) (k : Nat), s.aoUp ∧ s.up ∧ a.toNat % 8 = 0 ∧ isReg a.toNat = true ∧ s.answers a.toNat =
      true ∧ tileOfAddr a.toNat = some k ∧ s.tileDisabled k = true ∧ (s.tl k).rngPending = false) ∧
    (∃ (s : State) (w : Bool) (a : BitVec 24), s.aoUp ∧ isAoAddr a.toNat = false) :=
  ⟨⟨u, BitVec.ofNat 24 R.TST_SEED, 0xFFFFFFFFFFFFFFFF, rfl, by decide +kernel⟩,
   ⟨u, 0x800028, (u.peek 0x28).getD 0, rfl, by decide +kernel⟩,
   ⟨u, 0x800028, 7, rfl, by decide +kernel⟩,
   ⟨State.reset, 0x100000, 7, rfl, by unfold State.up; decide +kernel, by decide +kernel⟩,
   ⟨u.setReg R.FUS_TILEMAP 8, 0x103000, 7, 3, rfl, rfl, by decide +kernel⟩,
   ⟨gv, true, BitVec.ofNat 24 (R.STP_SLOT 0), rfl, by decide +kernel⟩⟩

/-- States and operands that meet the hypotheses of each clause of ResetPins. -/
theorem test_witness_ResetPins :
    (∃ (s : State), s.aoUp) ∧
    (∃ (s : State) (straps : BitVec 6), ¬s.aoUp) ∧
    (∃ (s : State) (n : Nat), s.aoUp ∧ s.ao.rstN = false ∧ n < 100) ∧
    (∃ (s : State) (n : Nat), s.aoUp ∧ s.ao.rstN = false ∧ 100 ≤ n) ∧
    (∃ (s : State), s.aoUp ∧ s.ao.rstN = true ∧ s.rd R.GLB_RSTCAUSE F.GLB_RSTCAUSE_HELD = 0) ∧
    (∃ (s : State), s.aoUp) :=
  ⟨⟨u, rfl⟩,
   ⟨{ a0 with ao := { a0.ao with aoReset := true } }, 5, by unfold State.aoUp; decide +kernel⟩,
   ⟨u, 5, rfl, by decide +kernel⟩,
   ⟨u, 100, rfl, by decide +kernel⟩,
   ⟨{ u with ao := { u.ao with rstN := true, mainRun := false } }, rfl, by decide +kernel⟩,
   ⟨u, rfl⟩⟩

/-- States and operands that meet the hypotheses of each clause of OtherMainResets. -/
theorem test_witness_OtherMainResets :
    (∃ (s : State), s.aoUp) ∧
    (∃ (s : State), s.up) ∧
    (∃ (s : State), s.aoUp) ∧
    (∃ (s : State) (c : BitVec 32), s.aoUp ∧ c ≠ 0x0C5A0100) ∧
    (∃ (s : State), s.up ∧ s.ao.wdogArmed = true ∧ s.rd R.GLB_BOOT F.GLB_BOOT_STAGE < 5 ∧ s.rangerHalted = false) :=
  ⟨⟨u, rfl⟩,
   ⟨u, rfl⟩,
   ⟨u, rfl⟩,
   ⟨u, 0, rfl, by decide +kernel⟩,
   ⟨{ u with ao := { u.ao with wdogArmed := true } }, rfl, by decide +kernel⟩⟩

/-- States and operands that meet the hypotheses of each clause of MainStarts. -/
theorem test_witness_MainStarts :
    (∃ (s : State), s.aoUp ∧ s.canStart = true ∧ s.startCount < 9) ∧
    (∃ (s : State), s.aoUp ∧ s.canStart = true ∧ 9 ≤ s.startCount) ∧
    (∃ (s : State), s.aoUp ∧ s.rd R.GLB_STORM F.GLB_STORM_HOLD = 1 ∧ s.holdEnd.canStart = true) ∧
    (∃ (s : State), s.aoUp ∧ s.rd R.GLB_RSTCAUSE F.GLB_RSTCAUSE_HELD = 1 ∧ (s.wr R.GLB_RSTCTL F.GLB_RSTCTL_RSTIGN 1).canStart = true ∧
      s.startCount < 9) ∧
    (∃ (s : State), s.aoUp ∧ s.rd R.GLB_STORM F.GLB_STORM_HOLD = 0) ∧
    (∃ (s : State), s.aoUp ∧ s.rd R.GLB_STORM F.GLB_STORM_HOLD = 1) ∧
    (∃ (s : State), s.aoUp ∧ s.ao.clkCore = false ∧ State.canStart { s with ao := { s.ao with clkCore := true } } = true ∧
      s.startCount < 9) ∧
    (∃ (s : State), s.up) ∧
    (∃ (c : Instr) (s t : State), c ∈ [.mainStart, .holdOutEnd, .rstign, .hoclr, .clkCoreRestart, .rstNRelease] ∧ s.rd R.MGB_STATUS
      F.MGB_STATUS_ISOLATED = 1 ∧ ¬s.up) :=
  ⟨⟨st0, rfl, by decide +kernel⟩,
   ⟨(st0.wr R.GLB_STORM F.GLB_STORM_COUNT 8), rfl, by decide +kernel⟩,
   ⟨(st0.wr R.GLB_STORM F.GLB_STORM_HOLD 1), rfl, by decide +kernel⟩,
   ⟨{ (st0.wr R.GLB_RSTCAUSE F.GLB_RSTCAUSE_HELD 1) with ao := { st0.ao with rstN := true } }, rfl, by decide +kernel⟩,
   ⟨u, rfl, by decide +kernel⟩,
   ⟨(st0.wr R.GLB_STORM F.GLB_STORM_HOLD 1), rfl, by decide +kernel⟩,
   ⟨{ st0 with ao := { st0.ao with clkCore := false } }, rfl, by decide +kernel⟩,
   ⟨u.wr R.GLB_STORM F.GLB_STORM_COUNT 3, rfl⟩,
   ⟨.mainStart, a0.wr R.MGB_STATUS F.MGB_STATUS_ISOLATED 1, out (exec .mainStart (a0.wr R.MGB_STATUS F.MGB_STATUS_ISOLATED 1)),
      by simp <;> decide +kernel, by decide +kernel, by unfold State.up; decide +kernel⟩⟩

/-- States and operands that meet the hypotheses of each clause of SensingRecordsAndConfiguration. -/
theorem test_witness_SensingRecordsAndConfiguration :
    (∃ (s : State), s.aoUp ∧ s.ao.fuseSensed = false) ∧
    (∃ (s : State) (d : Sfdp), s.aoUp ∧ ¬s.up ∧ s.rd R.NVM_STATUS F.NVM_STATUS_READY = 0 ∧ s.rd R.NVM_STATUS F.NVM_STATUS_DERR = 0 ∧
      sfdpError d = 0 ∧ d.log2Size < 32) ∧
    (∃ (s : State) (d : Sfdp), s.aoUp ∧ ¬s.up ∧ s.rd R.NVM_STATUS F.NVM_STATUS_READY = 0 ∧ s.rd R.NVM_STATUS F.NVM_STATUS_DERR = 0 ∧
      sfdpError d ≠ 0) ∧
    (∃ (s : State) (d : Sfdp), s.rd R.NVM_STATUS F.NVM_STATUS_READY = 1) ∧
    (∃ (s : State) (e : RecEntry) (r : List RecEntry), s.aoUp ∧ s.nvm.recQueue = e :: r ∧ s.recordDue = true ∧ (∀ i, i < 32 →
      s.flashByte (entryAddr s.recBank s.nvm.writePtr + i) = 0xFF)) ∧
    (∃ (s : State), s.aoUp ∧ s.flashIdle = true ∧ s.nvm.bankValid = true ∧ s.rd R.NVM_REC F.NVM_REC_COMPACT = 1) ∧
    (∃ (s : State), s.up ∧ s.sec.sealPending = true ∧ s.nvm.bankValid = true ∧ s.nvm.recQueue = [] ∧ s.router.waiting = []) ∧
    (∃ (s : State), s.up ∧ s.rootAllowed = true) ∧
    (∃ (s : State), s.up ∧ s.rd R.GLB_BOOT F.GLB_BOOT_STAGE = 5 ∧ s.nvm.configDue = true ∧ s.cfg = ([], false) ∧ s.linkEn = 0 ∧
      s.sealEpoch + 1 < 0xFFFFFF) ∧
    (∃ (s : State), s.up ∧ s.nvm.configDue = false) :=
  ⟨⟨a0, rfl, by decide +kernel⟩,
   ⟨a0, ⟨true, true, true, true, true, 24, 8⟩, rfl, by unfold State.up; decide +kernel, by decide +kernel⟩,
   ⟨a0, ⟨true, true, false, true, true, 24, 8⟩, rfl, by unfold State.up; decide +kernel, by decide +kernel⟩,
   ⟨st0, ⟨true, true, false, true, true, 24, 8⟩, by decide +kernel⟩,
   ⟨{ nv with nvm := { nv.nvm with bankValid := true, recQueue := [⟨2, [1,2,3]⟩] } }, ⟨2, [1,2,3]⟩, [], rfl, by decide +kernel⟩,
   ⟨{ nv.wr R.NVM_REC F.NVM_REC_COMPACT 1 with nvm := { nv.nvm with bankValid := true } }, rfl, by decide +kernel⟩,
   ⟨{ u.wr R.SEC_STATUS F.SEC_STATUS_NOSEAL 1 with sec := { u.sec with sealPending := true }, nvm := { u.nvm with bankValid := true}
      }, rfl, by decide +kernel⟩,
   ⟨{ (u.wr R.FUS_LCS F.FUS_LCS_STATE 3) with fuses := [(21, 2324772522)] }, rfl, by decide +kernel⟩,
   ⟨{ u.wr R.GLB_BOOT F.GLB_BOOT_STAGE 5 with nvm := { u.nvm with configDue := true } }, rfl, by decide +kernel⟩,
   ⟨u, rfl, by decide +kernel⟩⟩

/-- States and operands that meet the hypotheses of each clause of FlashCommands. -/
theorem test_witness_FlashCommands :
    (∃ (s : State) (a : BitVec 24) (n : Byte), s.aoUp ∧ s.rd R.NVM_STATUS F.NVM_STATUS_BUSY = 0 ∧ s.rd R.NVM_STATUS F.NVM_STATUS_READY
      = 1 ∧ s.flashProtected 0 a.toNat (n.toNat + 1) = false ∧ s.flashArgsBad 0 a.toNat (n.toNat + 1) = false) ∧
    (∃ (s : State) (a : BitVec 24) (n : Byte), s.aoUp ∧ s.rd R.NVM_STATUS F.NVM_STATUS_BUSY = 0 ∧ s.rd R.NVM_STATUS F.NVM_STATUS_READY
      = 1 ∧ s.flashProtected 1 a.toNat (n.toNat + 1) = false ∧ s.flashArgsBad 1 a.toNat (n.toNat + 1) = false) ∧
    (∃ (s : State) (a : BitVec 24), s.aoUp ∧ s.rd R.NVM_STATUS F.NVM_STATUS_BUSY = 0 ∧ s.rd R.NVM_STATUS F.NVM_STATUS_READY = 1 ∧
      s.flashProtected 2 a.toNat 4096 = false ∧ s.flashArgsBad 2 a.toNat 4096 = false) ∧
    (∃ (s : State) (a : BitVec 24) (n : Byte) (c : Instr), s.aoUp ∧ c ∈ [.nvmRead a n, .nvmProgram a n, .nvmErase a] ∧ s.rd
      R.NVM_STATUS F.NVM_STATUS_BUSY = 0 ∧ s.rd R.NVM_STATUS F.NVM_STATUS_READY = 0) ∧
    (∃ (s : State) (a : BitVec 24) (n : Byte) (c : Instr), s.aoUp ∧ c ∈ [.nvmRead a n, .nvmProgram a n, .nvmErase a] ∧ s.rd
      R.NVM_STATUS F.NVM_STATUS_BUSY = 1) ∧
    (∃ (s : State) (g : Bool) (a n : Nat), s.aoUp ∧ s.nvm.op = some ⟨0, a, n⟩ ∧ n ≤ 256) ∧
    (∃ (s : State) (a n : Nat), s.aoUp ∧ s.nvm.op = some ⟨1, a, n⟩ ∧ n ≤ 256 ∧ (∀ i, i < n → s.flashByte (a + i) &&& s.flashBuf.getD i
      0 = s.flashBuf.getD i 0)) ∧
    (∃ (s : State) (g : Bool) (a n i : Nat), s.aoUp ∧ s.nvm.op = some ⟨1, a, n⟩ ∧ n ≤ 256 ∧ i < n ∧ s.flashByte (a + i) &&&
      s.flashBuf.getD i 0 ≠ s.flashBuf.getD i 0) ∧
    (∃ (s : State) (g : Bool) (a n : Nat), s.aoUp ∧ s.nvm.op = some ⟨2, a, n⟩) ∧
    (∃ (s : State) (op a n : Nat), s.aoUp ∧ s.nvm.op = some ⟨op, a, n⟩) :=
  ⟨⟨nv, 0x300000, 3, rfl, by decide +kernel⟩,
   ⟨nv, 0x200000, 3, rfl, by decide +kernel⟩,
   ⟨nv, 0x300000, rfl, by decide +kernel⟩,
   ⟨u, 0, 0, .nvmErase 0, rfl, by simp <;> decide +kernel, by decide +kernel⟩,
   ⟨(nv.wr R.NVM_STATUS F.NVM_STATUS_BUSY 1), 0, 0, .nvmErase 0, rfl, by simp <;> decide +kernel, by decide +kernel⟩,
   ⟨{ nv with nvm := { nv.nvm with op := some ⟨0, 0x300000, 5⟩ } }, true, 0x300000, 5, rfl, by decide +kernel⟩,
   ⟨{ nv with nvm := { nv.nvm with op := some ⟨1, 0x300000, 5⟩ } }, 0x300000, 5, rfl, by decide +kernel⟩,
   ⟨{ (nv.setFlashByte 0x300000 3).setReg (R.NVM_BUF 0) 0xFFFF with nvm := { nv.nvm with op := some ⟨1, 0x300000, 5⟩ } }, true,
      0x300000, 5, 0, rfl, by decide +kernel⟩,
   ⟨{ (nv.setFlashByte 0x300000 3) with nvm := { nv.nvm with op := some ⟨2, 0x300000, 4096⟩ } }, true, 0x300000, 4096, rfl,
      by decide +kernel⟩,
   ⟨{ (nv.setFlashByte 0x300000 3) with nvm := { nv.nvm with op := some ⟨1, 0x300000, 5⟩ } }, 1, 0x300000, 5, rfl, by decide +kernel⟩⟩

/-- States and operands that meet the hypotheses of each clause of PhaseMovesAndSelection. -/
theorem test_witness_PhaseMovesAndSelection :
    (∃ (s : State) (v : BitVec 16), s.up ∧ s.rd R.PHS_CTL F.PHS_CTL_SRC = 0 ∧ s.active s.selected = true ∧ s.hold s.selected = false ∧
      s.phase s.selected < v.toNat) ∧
    (∃ (s : State) (v : Word), s.up ∧ s.rd R.PHS_CTL F.PHS_CTL_SRC = 1 ∧ s.active s.selected = true ∧ s.hold s.selected = false ∧
      s.phase s.selected < fget v F.PHS_ADV_VALUE) ∧
    (∃ (s : State), s.up ∧ s.rd R.PHS_CTL F.PHS_CTL_SRC = 0 ∧ s.active s.selected = true ∧ s.hold s.selected = false ∧ 0 < s.phase
      s.selected ∧ s.ring s.selected ≠ 2 ^ 64 - 1) ∧
    (∃ (s : State) (v : BitVec 16), s.up ∧ s.rd R.PHS_CTL F.PHS_CTL_SRC = 0 ∧ s.active s.selected = true ∧ s.hold s.selected = false ∧
      0 < v.toNat ∧ v.toNat < s.phase s.selected) ∧
    (∃ (s : State) (v : BitVec 16), s.up ∧ s.rd R.PHS_CTL F.PHS_CTL_SRC = 1) ∧
    (∃ (s : State) (v : Word), s.up ∧ s.active (fget v F.PHS_SEL_GLADE) = true) ∧
    (∃ (s : State) (v : Word), s.up ∧ s.active (fget v F.PHS_SEL_GLADE) = false ∧ fget v F.PHS_SEL_GLADE ≠ s.selected) ∧
    (∃ (s : State) (x : Fin 64) (v : Word), s.up ∧ x.val < 16) ∧
    (∃ (s : State) (x : Fin 64) (v : Word), s.up) :=
  ⟨⟨ga, 5, rfl, by decide +kernel⟩,
   ⟨ga.wr R.PHS_CTL F.PHS_CTL_SRC 1, 5, rfl, by decide +kernel⟩,
   ⟨ga.wr (R.PHS_GSTAT 0) F.PHS_GSTAT_PHASE 4, rfl, by decide +kernel⟩,
   ⟨(ga.wr (R.PHS_GSTAT 0) F.PHS_GSTAT_PHASE 4), 2, rfl, by decide +kernel⟩,
   ⟨(ga.wr R.PHS_CTL F.PHS_CTL_SRC 1), 2, rfl, by decide +kernel⟩,
   ⟨ga, 0, rfl, by decide +kernel⟩,
   ⟨ga, 5, rfl, by decide +kernel⟩,
   ⟨ga, 5, 0xFFFFFFFFFFFFFFFF, rfl, by decide +kernel⟩,
   ⟨ga, 63, 0xFFFFFFFFFFFFFFFF, rfl⟩⟩

/-- States and operands that meet the hypotheses of each clause of GladesAndJoins. -/
theorem test_witness_GladesAndJoins :
    (∃ (s : State) (g : GladeId), s.up ∧ s.rd (R.GLD_CTL g.val) F.GLD_CTL_EN = 0 ∧ s.ao.failed.contains 74 = false ∧ s.activeGlades =
      [] ∧ s.enableErr g.val = 0) ∧
    (∃ (s : State) (g : GladeId), s.up ∧ s.rd (R.GLD_CTL g.val) F.GLD_CTL_EN = 0 ∧ s.ao.failed.contains 74 = false ∧ s.activeGlades =
      [] ∧ s.enableErr g.val ≠ 0) ∧
    (∃ (s : State) (g : GladeId), s.up ∧ s.rd (R.GLD_CTL g.val) F.GLD_CTL_EN = 1 ∧ s.inGrove g.val = false) ∧
    (∃ (s : State) (g : GladeId) (j : JoinMsg), s.up ∧ s.rd (R.GLD_CTL g.val) F.GLD_CTL_EN = 1 ∧ s.rd (R.GRV_JOIN g.val)
      F.GRV_JOIN_STATE ≠ 2 ∧ j.lmn < s.members g.val ∧ j.lmn ≠ 0 ∧ ((s.gl g.val).joins.any fun x => x.1 == 0) = false ∧ ¬(j.lmn, j) ∈
      (s.gl g.val).joins) ∧
    (∃ (s : State) (g : GladeId) (j : JoinMsg), s.up ∧ s.rd (R.GLD_CTL g.val) F.GLD_CTL_EN = 1 ∧ (j.lmn, j) ∈ (s.gl g.val).joins) ∧
    (∃ (s : State) (g : GladeId), s.up ∧ s.rd (R.GRV_JOIN g.val) F.GRV_JOIN_STATE = 1 ∧ ((s.gl g.val).joins.any fun x => x.1 == s.lmn
      g.val) = true ∧ s.absentJoins g.val ≠ []) :=
  ⟨⟨cfg0, 0, rfl, by decide +kernel⟩,
   ⟨u, 0, rfl, by decide +kernel⟩,
   ⟨ga, 0, rfl, by decide +kernel⟩,
   ⟨ga, 0, ⟨1, 8, 0, 0, 0, 2, 1, 3, 0, 0, 0, 0⟩, rfl, by decide +kernel⟩,
   ⟨gl0 ga (fun x => { x with joins := [(1, ⟨1, 8, 0, 0, 0, 2, 1, 3, 0, 0, 0, 0⟩)] }), 0, ⟨1, 8, 0, 0, 0, 2, 1, 3, 0, 0, 0, 0⟩, rfl,
      by decide +kernel⟩,
   ⟨gl0 (ga.wr (R.GRV_JOIN 0) F.GRV_JOIN_STATE 1) (fun x => { x with joins := [(0, ga.ownJoin 0)] }), 0, rfl, by decide +kernel⟩⟩

/-- States and operands that meet the hypotheses of each clause of MemoryPorts. -/
theorem test_witness_MemoryPorts :
    (∃ (s : State) (q : PortId) (l : BitVec 34) (st : Bool), s.up ∧ s.regionOfUnit (offsetOfLine q.val l.toNat / 4096) = none) ∧
    (∃ (s : State) (q : PortId) (l : BitVec 34) (g x : Nat), s.up ∧ s.regionOfUnit (offsetOfLine q.val l.toNat / 4096) = some (g, x) ∧
      watchedRegion x = true) ∧
    (∃ (s : State) (q : PortId) (l : BitVec 34) (g : Nat), s.up ∧ s.regionOfUnit (offsetOfLine q.val l.toNat / 4096) = some (g, 0) ∧
      s.unitHolds g 0 (offsetOfLine q.val l.toNat / 4096) = true) ∧
    (∃ (s : State) (q : PortId) (lo hi : BitVec 34), s.up ∧ s.watchedIn (lo.toNat / 4) (hi.toNat / 4) = []) ∧
    (∃ (s : State) (q : PortId) (lo hi : BitVec 34) (h : Nat × Nat × Nat × Nat), s.up ∧ h ∈ s.watchedIn (lo.toNat / 4) (hi.toNat / 4)
      ∧ h.1 < 16) ∧
    (∃ (s : State) (q : PortId) (tag : Nat) (l : BitVec 34) (u : MpUse), s.up) ∧
    (∃ (s : State) (q : PortId) (tag : Nat) (l : BitVec 34) (u : MpUse), s.up) ∧
    (∃ (s : State) (q : PortId) (tag : Nat) (l : BitVec 34) (u : MpUse), s.up ∧ (s.pt q.val).retried.contains l.toNat = false) ∧
    (∃ (s : State) (q : PortId) (tag : Nat) (l : BitVec 34) (u : MpUse), s.up ∧ (s.pt q.val).retried.contains l.toNat = false ∧ (s.pt
      q.val).timeouts = []) ∧
    (∃ (s : State) (q : PortId), s.up ∧ s.rd (R.MPT_STAT q.val) F.MPT_STAT_DOWN = 0) ∧
    (∃ (s : State) (q : PortId), s.rd (R.MPT_STAT q.val) F.MPT_STAT_DOWN = 1) :=
  ⟨⟨gv, 0, 0, false, rfl, by decide +kernel⟩,
   ⟨gv, 0, 0x400, 0, 0, rfl, by decide +kernel⟩,
   ⟨gv, 0, 0x400, 0, rfl, by decide +kernel⟩,
   ⟨gv, 0, 0, 3, rfl, by decide +kernel⟩,
   ⟨gv, 0, 0x400, 0x404, (0, 0, 0x100, 0x101), rfl, by decide +kernel⟩,
   ⟨gv.wr (R.MPT_STAT 0) F.MPT_STAT_OUTRD 2, 0, 1, 2, .other, rfl⟩,
   ⟨gv.wr (R.MPT_STAT 0) F.MPT_STAT_OUTRD 2, 0, 1, 2, .other, rfl⟩,
   ⟨gv.wr (R.MPT_STAT 0) F.MPT_STAT_OUTWR 2, 0, 1, 2, .other, rfl, by decide +kernel⟩,
   ⟨gv.wr (R.MPT_STAT 0) F.MPT_STAT_OUTWR 2, 0, 1, 2, .other, rfl, by decide +kernel⟩,
   ⟨gv, 3, rfl, by decide +kernel⟩,
   ⟨gv.wr (R.MPT_STAT 0) F.MPT_STAT_DOWN 1, 0, by decide +kernel⟩⟩

set_option maxRecDepth 200000 in
/-- States and operands that meet the hypotheses of each clause of RepairAndSramParity. -/
theorem test_witness_RepairAndSramParity :
    (∃ (s : State) (q : PortId) (rows : List RowAnswer), s.up ∧ (s.pt q.val).lowest = none) ∧
    (∃ (s : State) (q : PortId) (rows : List RowAnswer) (u g x : Nat), s.up ∧ (s.pt q.val).lowest = some u ∧ s.regionOfUnit u = some
      (g, x) ∧ s.unitHolds g x u = false) ∧
    (∃ (s : State) (q : PortId) (rows : List RowAnswer) (u g : Nat) (d : List (List Byte)), s.up ∧ (s.pt q.val).lowest = some u ∧
      s.regionOfUnit u = some (g, 4) ∧ s.unitHolds g 4 u = true ∧ s.encodeData g ((s.code g).rowOfParity (s.code g).slot (u -
      s.regionBase g 4 / 4096)) rows = some d ∧ s.served (s.parityAddr g (u - s.regionBase g 4 / 4096)) 4096 = true) ∧
    (∃ (s : State) (k : TileId) (w : Fin 32768), s.up ∧ s.tileDisabled k.val = false ∧ s.tileRetired k.val = false ∧ s.framesOf k.val
      = [] ∧ (s.tl k.val).errors = []) ∧
    (∃ (s : State) (k : TileId) (w : Fin 32768) (time : Nat), s.up ∧ s.tileDisabled k.val = false ∧ s.tileRetired k.val = false ∧
      s.framesOf k.val = [] ∧ (s.tl k.val).errors = [(w.val, time)] ∧ s.now < time + 3600000000 ∧ s.rd (R.TIL_REMAP k.val 0)
      F.TIL_REMAP_VALID = 0) ∧
    (∃ (s : State) (k : TileId) (w : Fin 32768), (s.tileDisabled k.val = true ∨ s.tileRetired k.val = true)) :=
  ⟨⟨gv, 0, [], rfl, by decide +kernel⟩,
   ⟨{ gv with ports := [(0, ⟨[], [], [0x101], []⟩)] }, 0, [], 0x101, 0, 0, rfl, by decide +kernel⟩,
   ⟨{ gv with ports := [(0, ⟨[], [], [0x140], []⟩)] }, 0, rowA, 0x140, 0, (gv.encodeData 0 0 rowA).getD [], rfl, by decide +kernel⟩,
   ⟨u, 3, 5, rfl, by decide +kernel⟩,
   ⟨{ u with tiles := [(3, { u.tl 3 with errors := [(5, 0)] })] }, 3, 5, 0, rfl, by decide +kernel⟩,
   ⟨u.setReg R.FUS_TILEMAP 8, 3, 5, by decide +kernel⟩⟩

/-- States and operands that meet the hypotheses of each clause of BudgetsScrubAndAudit. -/
theorem test_witness_BudgetsScrubAndAudit :
    (∃ (s : State), s.up) ∧
    (∃ (s : State) (set : Fin 4) (cls : Fin 8) (v : Word), s.up ∧ setBroken (fun x => if x = R.BGT_SET set.val cls.val then
      writeByCode x (s.reg x) v else s.reg x) set.val = false) ∧
    (∃ (s : State) (set : Fin 4) (cls : Fin 8) (v : Word), s.up ∧ setBroken (fun x => if x = R.BGT_TOTAL set.val then writeByCode x
      (s.reg x) v else s.reg x) set.val = false) ∧
    (∃ (s : State) (set : Fin 4) (cls : Fin 8) (v : Word), s.up ∧ setBroken (fun x => if x = R.BGT_TOTAL set.val then writeByCode x
      (s.reg x) v else s.reg x) set.val = true) ∧
    (∃ (s : State) (g : GladeId) (line : List Byte) (o : Nat), s.up ∧ s.rd R.BGT_SCRUB F.BGT_SCRUB_EN = 1 ∧ s.active g.val = true ∧
      s.permits g.val 5 = true ∧ s.scrubNext s.budget.scrubAt = some o ∧ s.lineStaged o = false) ∧
    (∃ (s : State) (g : GladeId) (line : List Byte) (o : Nat), s.up ∧ s.rd R.BGT_SCRUB F.BGT_SCRUB_EN = 1 ∧ s.active g.val = true ∧
      s.permits g.val 5 = true ∧ s.scrubNext s.budget.scrubAt = some o ∧ s.lineStaged o = false ∧ line.length = 128 ∧ s.served o 128 =
      true) ∧
    (∃ (s : State) (v : Word), s.up) ∧
    (∃ (s : State) (a : AuditPass) (row line : Nat) (rows : List RowAnswer), s.up ∧ s.budget.audit = some a ∧ s.joined a.glade = true
      ∧ s.permits a.glade 5 = true ∧ row % s.groveN a.glade = (s.code a.glade).slot ∧ row < (s.code a.glade).rows ∧ line < 32 ∧ rows.any
      RowAnswer.defers = true ∧ a.lastDone = false ∧ a.deferred.contains row = false) ∧
    (∃ (s : State) (row line : Nat) (rows : List RowAnswer), s.up ∧ s.budget.audit = none) :=
  ⟨⟨u, rfl⟩,
   ⟨u, 0, 0, 0, rfl, by decide +kernel⟩,
   ⟨u, 0, 0, 256, rfl, by decide +kernel⟩,
   ⟨u.wr (R.BGT_SET 0 0) F.BGT_SET_FLOOR 200, 0, 0, 1, rfl, by decide +kernel⟩,
   ⟨(perm gv).wr R.BGT_SCRUB F.BGT_SCRUB_EN 1, 0, [], (gv.scrubNext 0).getD 0, rfl, by decide +kernel⟩,
   ⟨(perm gv).wr R.BGT_SCRUB F.BGT_SCRUB_EN 1, 0, List.replicate 128 7, (gv.scrubNext 0).getD 0, rfl, by decide +kernel⟩,
   ⟨gv, 1, rfl⟩,
   ⟨{ perm gv with budget := { gv.budget with audit := some ⟨0, 1, 0, 0, 0, 0, 0, [], 0, [], [], false⟩ } }, ⟨0, 1, 0, 0, 0, 0, 0,
      [], 0, [], [], false⟩, 0, 0, [⟨1, 2 ^ 28, []⟩], rfl, by decide +kernel⟩,
   ⟨gv, 0, 0, [], rfl, by decide +kernel⟩⟩

/-- States and operands that meet the hypotheses of each clause of ContributionsAndMarkers. -/
theorem test_witness_ContributionsAndMarkers :
    (∃ (s : State) (g : GladeId), s.up) ∧
    (∃ (s : State) (g : GladeId) (lo sidx l b : Nat) (v : List F32), s.up ∧ s.active g.val = true ∧ s.exact g.val = false ∧
      s.ownsBlock g.val l b = true ∧ (s.gl g.val).takenIn = false ∧ (s.ringBack g.val (lo % 256)).isSome = true ∧ (s.gl
      g.val).verdictDone = false ∧ (s.gl g.val).partialV = none ∧ (s.gl g.val).held = [] ∧ v.length = 1024 ∧ s.served (s.bufferAddr
      g.val (s.localBlock g.val (s.members g.val) (s.lmn g.val) l b)) 4096 = true) ∧
    (∃ (s : State) (g : GladeId) (lo sidx l b : Nat) (v : List F32), s.up ∧ s.active g.val = true ∧ s.exact g.val = false ∧
      s.ownsBlock g.val l b = true ∧ (s.gl g.val).takenIn = false ∧ s.ringBack g.val (lo % 256) = none) ∧
    (∃ (s : State) (g : GladeId) (lo sidx n : Nat), s.up ∧ s.active g.val = true ∧ (s.gl g.val).held = [] ∧ (s.ringBack g.val (lo %
      256)).isSome = true ∧ ((s.gl g.val).stream (s.openLo g.val) (lo % 256) sidx).marker = none) ∧
    (∃ (s : State) (g : GladeId) (lo sidx n : Nat), s.up ∧ s.active g.val = true ∧ s.ringBack g.val (lo % 256) = none) ∧
    (∃ (s : State) (g : GladeId) (owner lo sidx n : Nat), s.up ∧ (∀ q, q < 12 → (s.qu q).descs = [])) ∧
    (∃ (s : State) (g : GladeId) (owner sidx : Nat) (m : MarkerOut), s.up ∧ m ∈ (s.gl g.val).markersOut ∧ m.owner = owner ∧ m.sidx =
      sidx) :=
  ⟨⟨gv, 0, rfl⟩,
   ⟨gv, 0, 1, 0, 0, 0, List.replicate 1024 0x3F800000, rfl, by decide +kernel⟩,
   ⟨gv, 0, 3, 0, 0, 0, List.replicate 1024 0x3F800000, rfl, by decide +kernel⟩,
   ⟨gv, 0, 1, 1, 1, rfl, by decide +kernel⟩,
   ⟨gv, 0, 3, 1, 1, rfl, by decide +kernel⟩,
   ⟨gl0 gv (fun x => {x with markersOut := [⟨1, 0, 1, 1⟩, ⟨2, 0, 1, 1⟩]}), 0, 1, 1, 0, 1, rfl, by decide +kernel⟩,
   ⟨gl0 gv (fun x => {x with markersOut := [⟨1, 0, 1, 1⟩, ⟨2, 0, 1, 1⟩]}), 0, 1, 0, ⟨1, 0, 1, 1⟩, rfl, by decide +kernel⟩⟩

/-- States and operands that meet the hypotheses of each clause of PullsAndVerdicts. -/
theorem test_witness_PullsAndVerdicts :
    (∃ (s : State) (g : GladeId) (lo sidx l b src : Nat), s.up ∧ s.active g.val = true ∧ s.exact g.val = true ∧ s.ownsBlock g.val l b
      = true ∧ (s.gl g.val).covers (lo % 256) sidx l = false ∧ (s.ringBack g.val (lo % 256)).isSome = true ∧ (s.gl g.val).takenIn =
      false ∧ (s.gl g.val).verdictDone = false) ∧
    (∃ (s : State) (g : GladeId) (owner sidx l n : Nat), s.up ∧ (∀ q, q < 12 → (s.qu q).descs = [])) ∧
    (∃ (s : State) (g : GladeId), s.up ∧ s.verdictOpen g.val = true ∧ s.permits g.val 3 = true ∧ (s.gl g.val).takenIn = false ∧
      s.incomplete g.val = [] ∧ s.served (s.regionBase g.val 6) (4096 * s.bloc g.val) = true) ∧
    (∃ (s : State) (g : GladeId), s.up ∧ s.verdictOpen g.val = true ∧ (s.gl g.val).inForce.policy ≠ 0 ∧ (s.gl g.val).inForce.deadline
      ≠ 0 ∧ (s.gl g.val).takenIn = false ∧ s.served (s.regionBase g.val 6) (4096 * s.bloc g.val) = true) ∧
    (∃ (s : State) (g : GladeId), ((s.gl g.val).inForce.policy = 0 ∨ (s.gl g.val).inForce.deadline = 0)) ∧
    (∃ (s : State) (g : GladeId) (r : List Byte), s.up ∧ s.active g.val = true ∧ s.fenced g.val = false ∧ (s.gl g.val).verdictDone =
      false ∧ verdictCrcOk r = false) ∧
    (∃ (s : State) (g : GladeId) (r : List Byte), s.up ∧ s.active g.val = true ∧ s.fenced g.val = false ∧ (s.gl g.val).verdictDone =
      false ∧ verdictCrcOk r = true ∧ r.length = 32 ∧ leAt r 16 8 = s.openRing g.val ∧ verdictApply r = true ∧ (s.gl g.val).takenIn =
      false ∧ s.bloc g.val ≠ 0) ∧
    (∃ (s : State) (g : GladeId) (r : List Byte), s.up ∧ s.active g.val = true ∧ s.fenced g.val = false ∧ (s.gl g.val).verdictDone =
      false ∧ verdictCrcOk r = true ∧ r.length = 32 ∧ leAt r 16 8 = s.openRing g.val ∧ verdictApply r = false ∧ verdictCarry r = false ∧
      s.served (s.regionBase g.val 6) (4096 * s.bloc g.val) = true) ∧
    (∃ (s : State) (g : GladeId) (r : List Byte), s.up ∧ s.active g.val = true ∧ s.fenced g.val = false ∧ (s.gl g.val).verdictDone =
      false ∧ verdictCrcOk r = true ∧ r.length = 32 ∧ leAt r 16 8 = s.openRing g.val ∧ verdictApply r = false ∧ verdictCarry r = true ∧
      (s.gl g.val).held = []) :=
  ⟨⟨gv.wr (R.GLD_CTL 0) F.GLD_CTL_MODE 1, 0, 1, 1, 0, 0, 0x5000, rfl, by decide +kernel⟩,
   ⟨gl0 gv (fun x => {x with noticesOut := [(1, 0, 2)]}), 0, 2, 1, 0, 1, rfl, by decide +kernel⟩,
   ⟨gl0 (perm gv) (fun x => {x with ringOpen := true, streams := (List.range 3).map fun i => ⟨i, some 1, 1⟩ }), 0, rfl,
      by decide +kernel⟩,
   ⟨gl0 (perm gv) (fun x => {x with ringOpen := true, inForce := { x.inForce with policy := 1, deadline := 5 } }), 0, rfl,
      by decide +kernel⟩,
   ⟨gv, 0, by decide +kernel⟩,
   ⟨gv, 0, [1], rfl, by decide +kernel⟩,
   ⟨gv, 0, vrec true false, rfl, by decide +kernel⟩,
   ⟨(gv.writeBytes 0x160000 [1,2,3]), 0, vrec false false, rfl, by decide +kernel⟩,
   ⟨gv, 0, vrec false true, rfl, by decide +kernel⟩⟩

/-- States and operands that meet the hypotheses of each clause of LaneInstructions. -/
theorem test_witness_LaneInstructions :
    (∃ (s : State), s.up ∧ s.lane.ended = false) ∧
    (∃ (s : State) (d : Fin 16) (cls : Fin 4), s.up ∧ s.lane.ended = false) ∧
    (∃ (s : State) (d : Fin 16) (a : Operand), s.up ∧ s.lane.ended = false) ∧
    (∃ (s : State) (cls : Fin 3) (a : Operand), s.up ∧ s.lane.ended = false ∧ s.lane.padding = false) ∧
    (∃ (s : State) (cls : Fin 3) (a : Operand), s.up ∧ s.lane.ended = false ∧ s.lane.padding = true) ∧
    (∃ (s : State) (a : Operand), s.up ∧ s.lane.ended = false ∧ s.lane.padding = false) ∧
    (∃ (s : State) (a : Operand), s.up ∧ s.lane.ended = false ∧ s.lane.padding = true) ∧
    (∃ (s : State) (d : Fin 16) (x : Fin 3) (y : Fin 4) (a b c : Operand) (i : Instr), s.up ∧ s.lane.ended = true ∧ i ∈ [.stepEnd,
      .stepLd d y, .stepSt x a, .stepAdd d a b, .stepSub d a b, .stepMul d a b, .stepFma d a b c, .stepFnma d a b c, .stepDiv d a b,
      .stepSqrt d a, .stepMax d a b, .stepMin d a b, .stepSign d a, .stepSqacc0 a, .stepSqacc1 a, .stepMov d a]) ∧
    (∃ (s : State) (d : Fin 16) (a b c : Operand) (i : Instr) (r : Nat × Exc), s.up ∧ s.lane.ended = false ∧ (i, r) ∈ [ (.stepAdd d a
      b, b32.add (s.lane.operand a).toNat (s.lane.operand b).toNat), (.stepSub d a b, b32.sub (s.lane.operand a).toNat (s.lane.operand
      b).toNat), (.stepMul d a b, b32.mul (s.lane.operand a).toNat (s.lane.operand b).toNat), (.stepFma d a b c, b32.fma false
      (s.lane.operand a).toNat (s.lane.operand b).toNat (s.lane.operand c).toNat), (.stepFnma d a b c, b32.fma true (s.lane.operand
      a).toNat (s.lane.operand b).toNat (s.lane.operand c).toNat), (.stepDiv d a b, b32.div (s.lane.operand a).toNat (s.lane.operand
      b).toNat), (.stepSqrt d a, b32.sqrt (s.lane.operand a).toNat), (.stepMax d a b, b32.maxOp (s.lane.operand a).toNat (s.lane.operand
      b).toNat), (.stepMin d a b, b32.minOp (s.lane.operand a).toNat (s.lane.operand b).toNat), (.stepSign d a, b32.signOf
      (s.lane.operand a).toNat)]) :=
  ⟨⟨lay id, rfl, by decide +kernel⟩,
   ⟨lay id, 3, 2, rfl, by decide +kernel⟩,
   ⟨lay id, 3, 2, rfl, by decide +kernel⟩,
   ⟨lay id, 2, 2, rfl, by decide +kernel⟩,
   ⟨lay fun x => {x with padding := true}, 2, 2, rfl, by decide +kernel⟩,
   ⟨lay id, 2, rfl, by decide +kernel⟩,
   ⟨lay fun x => {x with padding := true}, 2, rfl, by decide +kernel⟩,
   ⟨lay (fun l => { l with ended := true }), 3, 1, 2, 4, 20, 31, .stepEnd, rfl, by decide +kernel, by simp <;> decide +kernel⟩,
   ⟨lay id, 3, 1, 2, 3, .stepAdd 3 1 2, b32.add 0 0, rfl, by decide +kernel, by simp <;> decide +kernel⟩⟩

/-- States and operands that meet the hypotheses of each clause of LaneSpecialCases. -/
theorem test_witness_LaneSpecialCases :
    (∃ (f : Nat → Nat → Nat × Exc) (a b : BitVec 32), f ∈ [b32.add, b32.sub, b32.mul, b32.div, b32.maxOp, b32.minOp] ∧ 0x7F800000 <
      a.toNat % 2 ^ 31) ∧
    (∃ (f : Nat → Nat → Nat × Exc) (a b : BitVec 32), f ∈ [b32.add, b32.sub, b32.mul, b32.div, b32.maxOp, b32.minOp] ∧ a.toNat % 2 ^
      31 ≤ 0x7F800000 ∧ 0x7F800000 < b.toNat % 2 ^ 31) ∧
    (∃ (z y : Nat), z ∈ [0, 0x80000000] ∧ y ∈ [0x7F800000, 0xFF800000]) ∧
    (∃ (a b : BitVec 32), 0 < a.toNat % 2 ^ 31 ∧ a.toNat % 2 ^ 31 < 0x7F800000 ∧ b.toNat % 2 ^ 31 = 0) ∧
    (∃ (a b : BitVec 32), a.toNat % 2 ^ 31 < 0x7F800000 ∧ b.toNat % 2 ^ 31 < 0x7F800000) :=
  ⟨⟨b32.add, 0x7F800001, 0, by simp <;> decide +kernel, by decide +kernel⟩,
   ⟨b32.mul, 0x7F800000, 0xFFC00000, by simp <;> decide +kernel, by decide +kernel⟩,
   ⟨0x80000000, 0xFF800000, by decide +kernel⟩,
   ⟨1, 0x80000000, by decide +kernel⟩,
   ⟨0x7F7FFFFF, 0xFF7FFFFF, by decide +kernel⟩⟩

/-- States and operands that meet the hypotheses of each clause of StepProgramEncoding. -/
theorem test_witness_StepProgramEncoding :
    (∃ (w : Nat) (o : LaneOp), w < 2 ^ 32 ∧ LaneOp.ofWord w = some o) :=
  ⟨0, .fin, by decide +kernel⟩

/-- States and operands that meet the hypotheses of each clause of ApplyAndPrograms. -/
theorem test_witness_ApplyAndPrograms :
    (∃ (s : State) (g : GladeId) (k l b : Nat), s.up ∧ s.applyOpen g.val = true ∧ k < s.bloc g.val ∧ s.firstOpen g.val = false ∧
      s.blockTurn g.val k false = true ∧ s.locate g.val k = some (l, b) ∧ s.blockDead g.val k = false ∧ s.blockWaits g.val k = false) ∧
    (∃ (s : State) (g : GladeId) (k l b : Nat), s.up ∧ s.applyOpen g.val = true ∧ k < s.bloc g.val ∧ s.firstOpen g.val = true ∧
      s.blockTurn g.val k true = true ∧ s.locate g.val k = some (l, b) ∧ s.blockDead g.val k = false ∧ s.blockWaits g.val k = false) ∧
    (∃ (s : State) (g : GladeId) (k : Nat), s.bloc g.val ≤ k) ∧
    (∃ (s : State) (g : GladeId) (l : List LayerSum) (x : LayerSum), s.up ∧ s.active g.val = true ∧ (s.gl g.val).verdictDone = true ∧
      (s.gl g.val).trustDone = false ∧ x ∈ l) ∧
    (∃ (s : State) (k : Fin 256) (v : Word), s.up ∧ s.slotInUse k.val = false ∧ s.programOk (writeByCode (R.STP_SLOT k.val) (s.reg
      (R.STP_SLOT k.val)) v) = true) ∧
    (∃ (s : State) (k : Fin 256) (v : Word), s.up ∧ fget (writeByCode (R.STP_SLOT k.val) (s.reg (R.STP_SLOT k.val)) v)
      F.STP_SLOT_VALID = 1 ∧ s.programOk (writeByCode (R.STP_SLOT k.val) (s.reg (R.STP_SLOT k.val)) v) = false) ∧
    (∃ (s : State) (w : Fin 1024) (v : Word), s.up ∧ s.pmemInUse w.val = false) ∧
    (∃ (s : State) (w : Fin 1024) (v : Word), s.up ∧ s.pmemInUse w.val = true) :=
  ⟨⟨prog1 (ap gv), 0, 0, 0, 0, rfl, by decide +kernel⟩,
   ⟨prog2 (ap gv), 0, 0, 0, 0, rfl, by decide +kernel⟩,
   ⟨gv, 0, 1, by decide +kernel⟩,
   ⟨ap gv, 0, [⟨0, 5, 6⟩], ⟨0, 5, 6⟩, rfl, by decide +kernel⟩,
   ⟨u, 5, 1 <<< 11, rfl, by decide +kernel⟩,
   ⟨u, 5, 1 <<< 34, rfl, by decide +kernel⟩,
   ⟨u, 5, 0xFFFFFFFFFFFFFFFF, rfl, by decide +kernel⟩,
   ⟨(prog1 gv), 0, 0xFFFFFFFFFFFFFFFF, rfl, by decide +kernel⟩⟩

set_option maxRecDepth 200000 in
/-- States and operands that meet the hypotheses of each clause of DeltasAndAnswers. -/
theorem test_witness_DeltasAndAnswers :
    (∃ (s : State) (sender : Nat) (msg : List Byte) (h : DeltaHdr) (d : List Byte) (f : Fold) (r : Nat), s.up ∧ parseDelta true msg =
      some (h, d) ∧ h.glade < 16 ∧ s.foldPermitted h.glade = true ∧ (s.gl h.glade).heldDeltas = [] ∧ s.checkDelta h sender = .inr
      (false, (s.code h.glade).slot) ∧ (s.gl h.glade).building.contains (false, (s.code h.glade).parityLeaf h.row h.pidx) = false ∧
      s.notBuilt h.glade false ((s.code h.glade).parityLeaf h.row h.pidx) = false ∧ h.ringLo = s.openLo h.glade ∧ s.fold h.glade false
      ((s.code h.glade).parityLeaf h.row h.pidx) = some f ∧ f.resv = some r ∧ bitAt f.bits h.didx = false ∧ (s.frames.any fun x =>
      x.glade == h.glade && x.region == 4 && x.unit == s.parityUnit h.glade false ((s.code h.glade).parityLeaf h.row h.pidx)) = true ∧
      d.length = 4096 ∧ s.served (4096 * s.parityUnit h.glade false ((s.code h.glade).parityLeaf h.row h.pidx)) 4096 = true) ∧
    (∃ (s : State) (sender : Nat) (msg : List Byte) (h : DeltaHdr) (d : List Byte) (f : Fold), s.up ∧ parseDelta true msg = some (h,
      d) ∧ h.glade < 16 ∧ s.foldPermitted h.glade = true ∧ (s.gl h.glade).heldDeltas = [] ∧ s.checkDelta h sender = .inr (false, (s.code
      h.glade).slot) ∧ (s.gl h.glade).building.contains (false, (s.code h.glade).parityLeaf h.row h.pidx) = false ∧ s.notBuilt h.glade
      false ((s.code h.glade).parityLeaf h.row h.pidx) = false ∧ h.ringLo = s.openLo h.glade ∧ s.fold h.glade false ((s.code
      h.glade).parityLeaf h.row h.pidx) = some f ∧ bitAt f.bits h.didx = true) ∧
    (∃ (s : State) (sender : Nat) (msg : List Byte) (h : DeltaHdr), s.up ∧ h = DeltaHdr.ofWord (leAt msg 0 8) ∧ parseDelta true msg =
      none ∧ s.foldPermitted h.glade = true ∧ (s.gl h.glade).heldDeltas = [] ∧ s.windowOpen h.glade = false) ∧
    (∃ (s : State) (g : GladeId) (p : Nat), s.up ∧ (s.frames.any fun f => f.glade == g.val && f.region == 4 && f.unit == s.parityUnit
      g.val false p) = true ∧ s.fold g.val false p = none) ∧
    (∃ (s : State) (g : GladeId) (p off : Nat) (f : Fold) (b : List Byte), s.up ∧ (s.frames.any fun f => f.glade == g.val && f.region
      == 4 && f.unit == s.parityUnit g.val false p) = true ∧ s.fold g.val false p = some f ∧ f.resv = some off ∧ b = holderEntry f.bits
      (s.openLo g.val) ⟨0, true, 31, p % max 1 (s.code g.val).m, g.val, (s.code g.val).epoch, s.openLo g.val, (s.code g.val).rowOfParity
      (s.code g.val).slot p⟩ f.net ∧ s.served (s.regionBase g.val 7 + off) b.length = true) ∧
    (∃ (s : State) (g : GladeId) (row pidx code epoch : Nat), s.up ∧ code ∈ [0, 1, 8] ∧ (s.gl g.val).ledgerOld = [] ∧ s.windowOpen
      g.val = false ∧ (s.gl g.val).shadowsIn = [] ∧ ((s.gl g.val).copies.any fun c => c.next == false && c.row == row && c.pidx == pidx)
      = true) ∧
    (∃ (s : State) (g : GladeId) (row pidx : Nat), s.up ∧ (s.gl g.val).ledgerOld = [] ∧ s.windowOpen g.val = false ∧ (s.gl
      g.val).shadowsIn = [] ∧ ((s.gl g.val).copies.any fun c => c.next == false && c.row == row && c.pidx == pidx) = true) ∧
    (∃ (s : State) (g : GladeId) (next : Bool) (row pidx : Nat), s.up ∧ ((s.gl g.val).copies.any fun c => c.next == next && c.row ==
      row && c.pidx == pidx) = true) :=
  ⟨⟨gfold fold0, 1, (encodeDelta true hdr0 del0), {hdr0 with form := 1}, del0, fold0, 0, rfl, by decide +kernel⟩,
   ⟨gfold { fold0 with bits := 1 }, 1, (encodeDelta true hdr0 del0), {hdr0 with form := 1}, del0, { fold0 with bits := 1 }, rfl,
      by decide +kernel⟩,
   ⟨perm gv, 1, [0,0,0,0,0,0,0,0], DeltaHdr.ofWord 0, rfl, by decide +kernel⟩,
   ⟨{ gv with frames := [fr0, { fr0 with unit := 5 }] }, 0, 0, rfl, by decide +kernel⟩,
   ⟨gfold fold0, 0, 0, 0, fold0, holderEntry 0 1 ⟨0, true, 31, 0, 0, 0, 1, 0⟩ [], rfl, by decide +kernel⟩,
   ⟨gcopy, 0, 1, 0, 1, 0, rfl, by decide +kernel⟩,
   ⟨gcopy, 0, 1, 0, rfl, by decide +kernel⟩,
   ⟨gcopy, 0, false, 1, 0, rfl, by decide +kernel⟩⟩

/-- States and operands that meet the hypotheses of each clause of DeltaRoundTrip. -/
theorem test_witness_DeltaRoundTrip :
    (∃ (raw : Bool) (h : DeltaHdr) (d : List Byte), h.scaled = true ∧ h.didx < 32 ∧ h.pidx < 4 ∧ h.glade < 16 ∧ h.epoch < 256 ∧
      h.ringLo < 256 ∧ h.row < 2 ^ 32 ∧ d.length = 4096) :=
  ⟨false, { hdr0 with scaled := true }, del0, by decide +kernel⟩

/-- States and operands that meet the hypotheses of each clause of CodingRecoversErasures. -/
theorem test_witness_CodingRecoversErasures :
    (∃ (k len j e : Nat) (data : Nat → List Byte), k ≤ 28 ∧ e < k ∧ j < 4 ∧ (∀ i, i < k → (data i).length = len)) ∧
    (∃ (a : Byte), a ≠ 0) ∧
    (∃ (j i : Nat), j < 4 ∧ i < 28) :=
  ⟨⟨2, 1, 0, 1, (fun _ => [7]), by decide +kernel⟩,
   ⟨1, by decide +kernel⟩,
   ⟨3, 27, by decide +kernel⟩⟩

/-- States and operands that meet the hypotheses of each clause of PlacementIsOneToOne. -/
theorem test_witness_PlacementIsOneToOne :
    (∃ (c : Code), 1 ≤ c.k ∧ 1 ≤ c.m) :=
  ⟨⟨2, 1, 0, 0, 1⟩, by decide +kernel⟩

/-- States and operands that meet the hypotheses of each clause of RingCloseAndStart. -/
theorem test_witness_RingCloseAndStart :
    (∃ (s : State) (g : GladeId) (stale : List RowPar), s.up ∧ s.active g.val = true ∧ s.fenced g.val = false ∧ (s.gl g.val).ringOpen
      = true) ∧
    (∃ (s : State) (g : GladeId) (r : Nat) (stale : List RowPar), r ≠ s.openRing g.val) ∧
    (∃ (s : State) (g : GladeId), s.up ∧ s.active g.val = true ∧ s.fenced g.val = false ∧ (s.gl g.val).ringOpen = false ∧ (s.gl
      g.val).startEntered = true ∧ (s.gl g.val).started = true ∧ (s.gl g.val).dissolved = false ∧ (s.gl g.val).ledgerLater = []) ∧
    (∃ (s : State) (g : GladeId) (ev : List Nat) (o : PlanOutcome), s.up ∧ s.active g.val = true ∧ s.fenced g.val = false ∧ (s.gl
      g.val).ringOpen = false ∧ s.lmn g.val ∈ ev ∧ (s.gl g.val).plan = none) ∧
    (∃ (s : State) (g : GladeId), s.up ∧ s.active g.val = true ∧ s.fenced g.val = false ∧ s.treeRoot g.val = 0 ∧ s.dense g.val = true
      ∧ (s.gl g.val).ringOpen = false ∧ (s.gl g.val).started = true ∧ (s.gl g.val).replayWait = false ∧ (s.gl g.val).plan = none ∧ (s.gl
      g.val).dissolved = false ∧ s.laggards g.val ≠ [] ∧ s.lmn g.val ∉ s.laggards g.val) :=
  ⟨⟨gl0 gv (fun x => {x with ringOpen := true}), 0, [⟨false, 1, 0⟩], rfl, by decide +kernel⟩,
   ⟨gv, 0, 7, [], by decide +kernel⟩,
   ⟨gl0 gv (fun x => {x with ringOpen := false, startEntered := true, started := true}), 0, rfl, by decide +kernel⟩,
   ⟨gv, 0, [0], .none, rfl, by decide +kernel⟩,
   ⟨gl0 (gv.wr (R.CQ_GSHAPE 0) F.CQ_GSHAPE_DENSE 1) (fun x => {x with ringOpen := false, startEntered := true, started := true}), 0,
      rfl, by decide +kernel⟩⟩

/-- States and operands that meet the hypotheses of each clause of TilesAndGangs. -/
theorem test_witness_TilesAndGangs :
    (∃ (s : State) (k : TileId) (w : Fin 4) (v : Word), s.up ∧ s.tileDisabled k.val = false) ∧
    (∃ (s : State) (k : TileId), s.up ∧ (s.tl k.val).rngPending = true ∧ (s.tl k.val).rngWaiting = 0) ∧
    (∃ (s : State) (k : TileId) (x : Nat), s.up) ∧
    (∃ (s : State) (k : TileId) (c : Context), s.up ∧ (s.tl k.val).contexts = [c] ∧ c.parked = true ∧ c.restarted = false ∧ c.kind ∈
      [1, 2]) ∧
    (∃ (s : State) (k : TileId) (c : Context), s.up ∧ (s.tl k.val).contexts = [c] ∧ c.parked = true ∧ c.restarted = true ∧ c.kind = 2) ∧
    (∃ (s : State) (q : QuadId), s.up) ∧
    (∃ (s : State) (k : TileId) (i : Nat), s.up ∧ (s.tl k.val).gangAsked = true ∧ i ∈ s.quadTiles (k.val / 16) ∧ i ≠ k.val ∧ (s.tl
      i).gangAsked = true ∧ (s.tl i).gangGranted = false) ∧
    (∃ (s : State) (k : TileId), s.up ∧ (s.tl k.val).gangAsked = true ∧ k.val ∈ s.quadTiles (k.val / 16) ∧ (∀ i, i ∈ s.quadTiles
      (k.val / 16) → i ≠ k.val → (s.tl i).gangGranted = true)) ∧
    (∃ (s : State) (q : QuadId) (k : Nat), s.up ∧ k ∈ s.quadTiles q.val ∧ (s.tl k).gangAsked = true) :=
  ⟨⟨u, 3, 2, 77, rfl, by decide +kernel⟩,
   ⟨(u.updTl 3 fun x => { x with rngPending := true}).setReg (R.TIL_RNGIN 3 0) 5, 3, rfl, by decide +kernel⟩,
   ⟨(u.updTl 3 fun x => { x with contexts := [⟨5, 0, 1, 0, false, true, false⟩]}), 3, 5, rfl⟩,
   ⟨(u.updTl 3 fun x => { x with contexts := [⟨5, 0, 1, 0, false, true, false⟩]}), 3, ⟨5, 0, 1, 0, false, true, false⟩, rfl,
      by decide +kernel⟩,
   ⟨(u.updTl 3 fun x => { x with contexts := [⟨5, 0, 2, 0, false, true, true⟩]}), 3, ⟨5, 0, 2, 0, false, true, true⟩, rfl,
      by decide +kernel⟩,
   ⟨u, 0, rfl⟩,
   ⟨tgang (fun _ t => { t with gangAsked := true }), 3, 4, rfl, by decide +kernel⟩,
   ⟨tgang (fun k t => { t with gangAsked := true, gangGranted := k != 3 }), 3, rfl, by decide +kernel⟩,
   ⟨tgang (fun k t => { t with gangAsked := true, gangGranted := k < 7 }), 0, 3, rfl, by decide +kernel⟩⟩

/-- States and operands that meet the hypotheses of each clause of QueuesAndDescriptors. -/
theorem test_witness_QueuesAndDescriptors :
    (∃ (s : State) (q : QueueId) (v : Word), s.up ∧ q.val < 12 ∧ s.halted q.val = false) ∧
    (∃ (s : State) (q : QueueId) (en : Bool), s.up ∧ q.val < 12) ∧
    (∃ (s : State) (q : QueueId), s.up ∧ q.val < 12 ∧ s.halted q.val = true) ∧
    (∃ (s : State) (q : QueueId) (d : Desc), s.up ∧ q.val < 12 ∧ s.halted q.val = true ∧ (s.qu q.val).descs = [d] ∧ d.index = s.rd
      (R.CQ_QSTAT q.val) F.CQ_QSTAT_HEAD) ∧
    (∃ (s : State) (q : QueueId) (v : Word) (en : Bool) (c : Instr), 12 ≤ q.val ∧ c ∈ [.queueDoorbell q v, .queueEnable q en,
      .queueResume q, .queueSkip q]) ∧
    (∃ (s : State) (q : QueueId), s.up ∧ s.mayFetch q.val = true ∧ s.served (4096 * s.rd (R.CQ_QBASE q.val) F.CQ_QBASE_BASE + 64 *
      (s.qu q.val).next) 64 = true) ∧
    (∃ (s : State) (q : QueueId), s.up ∧ s.mayFetch q.val = true ∧ s.activeGlades = []) ∧
    (∃ (s : State) (q : QueueId) (d : Desc), s.up ∧ (s.qu q.val).descs = [d] ∧ d.started = false ∧ s.halted q.val = false ∧ s.rd
      (R.CQ_QCTL q.val) F.CQ_QCTL_EN = 1 ∧ s.tokenReached d = true ∧ s.profileAllows d = true ∧ s.classAllows d = true ∧ s.descErr d =
      0) ∧
    (∃ (s : State) (q : QueueId) (d : Desc), s.up ∧ (s.qu q.val).descs = [d] ∧ d.started = false ∧ s.halted q.val = false ∧ s.rd
      (R.CQ_QCTL q.val) F.CQ_QCTL_EN = 1 ∧ s.tokenReached d = true ∧ s.profileAllows d = true ∧ s.classAllows d = true ∧ s.descErr d ≠
      0) ∧
    (∃ (s : State) (q : QueueId) (d : Desc), s.up ∧ (s.qu q.val).descs = [d] ∧ d.started = true ∧ d.completed = false ∧ d.done = true
      ∧ d.sen = true ∧ d.irq = false ∧ s.halted q.val = false) ∧
    (∃ (s : State) (g : GladeId) (cid q : Nat) (d : Desc), s.up ∧ s.rd R.CQ_CTL F.CQ_CTL_TMO ≠ 0 ∧ s.cidRunning g.val cid = [(q, d)]) :=
  ⟨⟨qon gv, 0, 5, rfl, by decide +kernel⟩,
   ⟨gv, 3, true, rfl, by decide +kernel⟩,
   ⟨halt0 gv, 0, rfl, by decide +kernel⟩,
   ⟨qd (halt0 gv) (dOp 0 0), 0, dOp 0 0, rfl, by decide +kernel⟩,
   ⟨gv, 12, 0, true, .queueSkip 12, by decide +kernel, by simp <;> decide +kernel⟩,
   ⟨(perm ((qon gv).wr (R.CQ_QTAIL 0) F.CQ_QTAIL_TAIL 1)).wr (R.CQ_QBASE 0) F.CQ_QBASE_LOG2N 4, 0, rfl, by decide +kernel⟩,
   ⟨((qon u).wr (R.CQ_QTAIL 0) F.CQ_QTAIL_TAIL 1).wr (R.CQ_QBASE 0) F.CQ_QBASE_LOG2N 4, 0, rfl, by decide +kernel⟩,
   ⟨qd (qon (gl0 gv fun x => {x with started := true})) {dOp 0 0 with started := false}, 0, {dOp 0 0 with started := false}, rfl,
      by decide +kernel⟩,
   ⟨qd (qon (gl0 (perm gv) fun x => {x with started := true})) {dOp 8 4096 with started := false}, 0,
      {dOp 8 4096 with started := false}, rfl, by decide +kernel⟩,
   ⟨qd (qon gv) (dsc [2 ^ 56 + 2 ^ 48 * 5, 0, 0, 0,0,0,0,77] true true), 0, (dsc [2 ^ 56 + 2 ^ 48 * 5, 0, 0, 0,0,0,0,77] true true),
      rfl, by decide +kernel⟩,
   ⟨(qd (qon gv) (dOp 4 4096)).wr R.CQ_CTL F.CQ_CTL_TMO 5, 0, 0, 0, dOp 4 4096, rfl, by decide +kernel⟩⟩

/-- States and operands that meet the hypotheses of each clause of CollectiveData. -/
theorem test_witness_CollectiveData :
    (∃ (s : State) (q : QueueId) (d : Desc), s.up ∧ (s.qu q.val).descs = [d] ∧ d.started = true ∧ d.completed = false ∧ d.done = false
      ∧ d.op = 0) ∧
    (∃ (s : State) (q : QueueId) (d : Desc) (o : List (List F32)) (l : List Byte), s.up ∧ (s.qu q.val).descs = [d] ∧ d.started = true
      ∧ d.completed = false ∧ d.done = false ∧ d.op = 1 ∧ s.matched d (d.count / 4) o = true ∧ d.count ≠ 0 ∧ s.served d.src d.count =
      true ∧ l = f32Bytes (s.sumAll d (f32s (s.readBytes d.src d.count)) o).1 ∧ s.served d.dst l.length = true) ∧
    (∃ (s : State) (q : QueueId) (d : Desc) (o : List (List F32)), s.up ∧ (s.qu q.val).descs = [d] ∧ d.started = true ∧ d.completed =
      false ∧ d.done = false ∧ d.op = 1 ∧ s.matched d (d.count / 4) o = false) ∧
    (∃ (s : State) (q : QueueId) (d : Desc) (o : List (List F32)) (lo hi : Nat) (l : List Byte), s.up ∧ (s.qu q.val).descs = [d] ∧
      d.started = true ∧ d.completed = false ∧ d.done = false ∧ d.op = 2 ∧ s.matched d (d.count / 4) o = true ∧ d.count ≠ 0 ∧ s.served
      d.src d.count = true ∧ lo = s.lmn d.glade * (d.count / 4) / s.members d.glade ∧ hi = (s.lmn d.glade + 1) * (d.count / 4) /
      s.members d.glade ∧ l = f32Bytes (s.sumAll d (((f32s (s.readBytes d.src d.count)).drop lo).take (hi - lo)) (o.map fun v => (v.drop
      lo).take (hi - lo))).1 ∧ s.served d.dst l.length = true) ∧
    (∃ (s : State) (q : QueueId) (d : Desc) (o : List (List Byte)) (l : List Byte), s.up ∧ (s.qu q.val).descs = [d] ∧ d.started = true
      ∧ d.completed = false ∧ d.done = false ∧ d.op = 3 ∧ s.matched d d.count o = true ∧ d.count ≠ 0 ∧ s.served d.src d.count = true ∧ l
      = ((List.range (s.members d.glade)).map (byLmn (s.lmn d.glade) (s.readBytes d.src d.count) o)).flatten ∧ s.served d.dst l.length =
      true) ∧
    (∃ (s : State) (q : QueueId) (d : Desc) (l : List Byte), s.up ∧ (s.qu q.val).descs = [d] ∧ d.started = true ∧ d.completed = false
      ∧ d.done = false ∧ d.op = 4 ∧ s.lmn d.glade ≠ d.root ∧ d.count ≠ 0 ∧ l.length = d.count ∧ s.served d.dst l.length = true) ∧
    (∃ (s : State) (q : QueueId) (d : Desc) (o : Nat) (l : List Byte), s.up ∧ (s.qu q.val).descs = [d] ∧ d.started = true ∧
      d.completed = false ∧ d.done = false ∧ d.op = 6 ∧ d.count ≠ 0 ∧ s.served d.src d.count = true ∧ s.served o l.length = true) :=
  ⟨⟨qd gv (dOp 0 0), 0, dOp 0 0, rfl, by decide +kernel⟩,
   ⟨qd (gv.writeBytes 0x500000 [0,0,0x80,0x3f,0,0,0x80,0x3f]) (dOp 1 8), 0, dOp 1 8, [[0x3F800000, 0], [0x3F800000,0x40000000]],
      f32Bytes [0x40400000, 0x40400000], rfl, by decide +kernel⟩,
   ⟨qd gv (dOp 1 8), 0, dOp 1 8, [[0,0]], rfl, by decide +kernel⟩,
   ⟨qd gv (dOp 2 12), 0, dOp 2 12, [[0x3F800000, 0, 0], [0x3F800000,0x40000000, 0]], 0, 1, f32Bytes [0x40000000], rfl,
      by decide +kernel⟩,
   ⟨qd (gv.writeBytes 0x500000 [1,2]) (dOp 3 2), 0, dOp 3 2, [[3, 4], [5,6]], [1,2,3,4,5,6], rfl, by decide +kernel⟩,
   ⟨qd gv (dsc [4, 0, 2, 0x500000, 0x600000, 2 ^ 32, 0, 7] true false), 0, (dsc [4, 0, 2, 0x500000, 0x600000, 2 ^ 32, 0, 7] true
      false), [7,8], rfl, by decide +kernel⟩,
   ⟨qd gv (dsc [6, 0, 2, 0x500000, 0x600000, 2 ^ 48, 0, 7] true false), 0, (dsc [6, 0, 2, 0x500000, 0x600000, 2 ^ 48, 0, 7] true
      false), 0x700000, [7,8], rfl, by decide +kernel⟩⟩

/-- States and operands that meet the hypotheses of each clause of CollectiveMessages. -/
theorem test_witness_CollectiveMessages :
    (∃ (s : State) (q : QueueId) (d : Desc) (l : List Nat), s.up ∧ (s.qu q.val).descs = [d] ∧ d.started = true ∧ d.completed = false ∧
      d.done = false ∧ d.op = 5 ∧ (s.otherMembers d.glade).all l.contains = true) ∧
    (∃ (s : State) (q : QueueId) (d : Desc), s.up ∧ (s.qu q.val).descs = [d] ∧ d.started = true ∧ d.completed = false ∧ d.done = false
      ∧ d.op = 7 ∧ d.count ≠ 0 ∧ s.served d.src d.count = true) ∧
    (∃ (s : State) (q : QueueId) (d : Desc) (l : List Nat), s.up ∧ (s.qu q.val).descs = [d] ∧ d.started = true ∧ d.completed = false ∧
      d.op = 7) ∧
    (∃ (s : State) (q : QueueId) (d : Desc), s.up ∧ (s.qu q.val).descs = [d] ∧ d.started = true ∧ d.completed = false ∧ d.done = false
      ∧ d.op = 0x10 ∧ d.last = false ∧ s.exact d.glade = false ∧ (s.gl d.glade).noticesOut = [] ∧ (s.qu q.val).resumeAt = none ∧ (∀ b, b
      < s.layerBlocks d.glade d.layer → s.served (d.src + 4096 * b) 4096 = true)) ∧
    (∃ (s : State) (q : QueueId) (d : Desc), s.up ∧ (s.qu q.val).descs = [d] ∧ d.started = true ∧ d.completed = false ∧ d.done = false
      ∧ d.op = 0x10 ∧ d.last = false ∧ s.exact d.glade = true) :=
  ⟨⟨qd gv (dOp 5 0), 0, dOp 5 0, [1, 2], rfl, by decide +kernel⟩,
   ⟨qd gv (dOp 7 8192), 0, dOp 7 8192, rfl, by decide +kernel⟩,
   ⟨qd gv (dOp 7 8192), 0, dOp 7 8192, [9, 11], rfl, by decide +kernel⟩,
   ⟨qd gv (dOp 16 0), 0, dOp 16 0, rfl, by decide +kernel⟩,
   ⟨qd (gv.wr (R.GLD_CTL 0) F.GLD_CTL_MODE 1) (dOp 16 0), 0, dOp 16 0, rfl, by decide +kernel⟩⟩

/-- States and operands that meet the hypotheses of each clause of TreesAndReductions. -/
theorem test_witness_TreesAndReductions :
    (∃ (sz x c : Nat), x < sz) ∧
    (∃ (sz c : Nat), c < sz) ∧
    (∃ (s : State) (g : GladeId) (p : PartialVerdict) (l : List PartialVerdict), s.up ∧ s.active g.val = true ∧ s.fenced g.val = false
      ∧ (s.gl g.val).verdictDone = false ∧ s.permits g.val 3 = true ∧ s.sides g.val = [] ∧ (s.gl g.val).partialV = some p ∧ allChildren
      (s.children g.val) (s.gl g.val).childV = some l ∧ s.parent g.val = none) ∧
    (∃ (s : State) (g : GladeId) (p : PartialVerdict) (l : List PartialVerdict) (x : Nat), s.up ∧ s.active g.val = true ∧ s.fenced
      g.val = false ∧ (s.gl g.val).verdictDone = false ∧ s.permits g.val 3 = true ∧ s.sides g.val = [] ∧ (s.gl g.val).partialV = some p
      ∧ allChildren (s.children g.val) (s.gl g.val).childV = some l ∧ s.parent g.val = some x) ∧
    (∃ (s : State) (g : GladeId), s.up ∧ s.active g.val = true ∧ s.fenced g.val = false ∧ (s.gl g.val).verdictDone = true ∧
      verdictApply (s.gl g.val).verdict = true ∧ (s.gl g.val).trustDone = false ∧ s.twoPassLayers g.val ≠ [] ∧ s.firstDone g.val = true
      ∧ s.permits g.val 3 = true ∧ s.sides g.val = [] ∧ s.children g.val = [] ∧ s.parent g.val = none) ∧
    (∃ (s : State) (g : GladeId), s.up ∧ s.mayClose g.val = true ∧ s.sides g.val = [] ∧ allChildren (s.children g.val) (s.gl
      g.val).childC = none) ∧
    (∃ (s : State) (g : GladeId), s.up ∧ s.mayClose g.val = true ∧ s.sides g.val = [] ∧ s.children g.val = [] ∧ s.parent g.val = none) ∧
    (∃ (s : State) (g : GladeId), s.up ∧ s.mayStart g.val = true ∧ s.sides g.val = [] ∧ allChildren (s.children g.val) (s.gl
      g.val).childS = none) ∧
    (∃ (s : State) (g : GladeId) (c : Nat) (stale : List RowPar), s.up ∧ s.active g.val = true ∧ s.fenced g.val = false ∧ c ∈
      s.allKids g.val ∧ (s.gl g.val).closeEntered = false) ∧
    (∃ (s : State) (g : GladeId) (c : Nat) (p : TreePayload), s.up ∧ s.active g.val = true ∧ s.fenced g.val = false ∧ c ∈ s.allKids
      g.val ∧ c ∉ (s.gl g.val).wrongOnce) :=
  ⟨⟨3, 2, 1, by decide +kernel⟩,
   ⟨3, 2, by decide +kernel⟩,
   ⟨gl0 (perm gv) (fun x => {x with partialV := some pv, childV := [(1, pv), (2, pv)]}), 0, pv, ((allChildren (gv.children 0) [(1,
      pv), (2, pv)]).getD []), rfl, by decide +kernel⟩,
   ⟨gl0 (perm (gv.wr (R.GLD_MEMBER 0) F.GLD_MEMBER_LMN 2)) (fun x => {x with partialV := some pv, childV := [(1, pv), (2, pv)]}), 0,
      pv, ((allChildren ((gv.wr (R.GLD_MEMBER 0) F.GLD_MEMBER_LMN 2).children 0) [(1, pv), (2, pv)]).getD []), ((gv.wr (R.GLD_MEMBER 0)
      F.GLD_MEMBER_LMN 2).parent 0).getD 0, rfl, by decide +kernel⟩,
   ⟨gl0 (prog2 ((perm gv).wr (R.GLD_MEMBER 0) F.GLD_MEMBER_SM1 0)) (fun x =>
      { x with verdict := vrec true false, verdictDone := true, pass1 := [0] }), 0, rfl, by decide +kernel⟩,
   ⟨gl0 (perm gv) (fun x => {x with ringOpen := true, verdictDone := true, verdict := vrec false false}), 0, rfl, by decide +kernel⟩,
   ⟨gl0 ((perm gv).wr (R.GLD_MEMBER 0) F.GLD_MEMBER_SM1 0) (fun x =>
      {x with ringOpen := true, verdictDone := true, verdict := vrec false false}), 0, rfl, by decide +kernel⟩,
   ⟨gl0 (perm gv) (fun x => {x with ringOpen := false, started := true, wrapPending := true}), 0, rfl, by decide +kernel⟩,
   ⟨gv, 0, (gv.children 0).head!, [⟨false, 1, 0⟩], rfl, by decide +kernel⟩,
   ⟨gv, 0, (gv.children 0).head!, .ringClose 1 0 [], rfl, by decide +kernel⟩⟩

/-- States and operands that meet the hypotheses of each clause of DetectionsAndAgreement. -/
theorem test_witness_DetectionsAndAgreement :
    (∃ (s : State) (g : GladeId), s.up ∧ s.inGrove g.val = true ∧ s.fenced g.val = false ∧ s.rangerHalted = false) ∧
    (∃ (s : State) (g : GladeId) (x : Nat), s.up ∧ s.inGrove g.val = true ∧ s.fenced g.val = false ∧ x < s.groveN g.val ∧ x ≠ (s.code
      g.val).slot) ∧
    (∃ (s : State) (g : GladeId) (x : Nat) (b : Beat), s.up ∧ s.inGrove g.val = true ∧ s.fenced g.val = false ∧ x < s.groveN g.val ∧
      s.lmnOfSlot g.val x ≠ s.lmn g.val ∧ (s.gl g.val).agreement = none ∧ b ∈ (s.gl g.val).beats ∧ b.slot = x ∧ b.atTime + 250 ≤ s.now) ∧
    (∃ (s : State) (g : GladeId) (x k cause : Nat) (c : Instr), s.up ∧ s.inGrove g.val = true ∧ s.fenced g.val = false ∧ x < s.groveN
      g.val ∧ s.lmnOfSlot g.val x ≠ s.lmn g.val ∧ (s.gl g.val).agreement = none ∧ k < 16 ∧ (c, cause) ∈ [(.suspicionNotice g
      (s.lmnOfSlot g.val x) k, k), (.fenceNotice g (s.lmnOfSlot g.val x), 8), (.departureNotice g (s.lmnOfSlot g.val x), 4)]) ∧
    (∃ (s : State) (g : GladeId) (q : Nat) (l : List Nat), s.up ∧ s.inGrove g.val = true ∧ s.fenced g.val = false ∧ (s.gl
      g.val).agreement = none ∧ (s.gl g.val).lastSeq < q) ∧
    (∃ (s : State) (g : GladeId) (q : Nat) (l : List Nat), (s.gl g.val).agreement = none ∧ q ≤ (s.gl g.val).lastSeq) ∧
    (∃ (s : State) (g : GladeId) (a : Agreement), s.up ∧ (s.gl g.val).agreement = some a ∧ a.round = 1 ∧ a.probeRounds < 2) ∧
    (∃ (s : State) (g : GladeId) (a : Agreement) (sp : Bool) (x : Nat), s.up ∧ (s.gl g.val).agreement = some a ∧ a.round = 1) ∧
    (∃ (s : State) (g : GladeId) (a : Agreement), s.up ∧ (s.gl g.val).agreement = some a ∧ a.round = 1) ∧
    (∃ (s : State) (g : GladeId) (a : Agreement) (v : View), s.up ∧ (s.gl g.val).agreement = some a ∧ a.round = 2 ∧ (∀ x, x ∈ a.views
      → x.slot ≠ v.slot) ∧ v.slot ≠ (s.code g.val).slot) :=
  ⟨⟨gv, 0, rfl, by decide +kernel⟩,
   ⟨gv, 0, 1, rfl, by decide +kernel⟩,
   ⟨{ gl0 gv (fun x => {x with beats := [⟨1, 0⟩, ⟨2, 0⟩]}) with regs := (gv.wr R.GLB_AOTIME F.GLB_AOTIME_US 250).regs }, 0, 1, ⟨1,
      0⟩, rfl, by decide +kernel⟩,
   ⟨gv, 0, 1, 3, 3, .suspicionNotice 0 (gv.lmnOfSlot 0 1) 3, rfl, by decide +kernel, by decide +kernel, by decide +kernel,
      by decide +kernel, by decide +kernel, by decide +kernel, by simp <;> decide +kernel⟩,
   ⟨gv, 0, 3, [1], rfl, by decide +kernel⟩,
   ⟨gv, 0, 0, [1], by decide +kernel⟩,
   ⟨agr (wrs gv [(R.GRV_SPAREV 0, F.GRV_SPAREV_VALID, 1), (R.GRV_SPARE 0 0, F.GRV_SPARE_PNID0, 20)]) ag0, 0, ag0, rfl,
      by decide +kernel⟩,
   ⟨agr gv ag0, 0, ag0, false, 1, rfl, by decide +kernel⟩,
   ⟨agr gv ag0, 0, ag0, rfl, by decide +kernel⟩,
   ⟨agr gv { ag0 with round := 2 }, 0, { ag0 with round := 2 }, view1, rfl, by decide +kernel⟩⟩

/-- States and operands that meet the hypotheses of each clause of DecisionsAndFences. -/
theorem test_witness_DecisionsAndFences :
    (∃ (s : State) (g : GladeId) (a : Agreement), s.up ∧ (s.gl g.val).agreement = some a ∧ a.round = 2 ∧ a.views.length < s.majority
      g.val ∧ s.fenced g.val = false) ∧
    (∃ (s : State) (g : GladeId) (d : Decision) (a : Agreement), s.up ∧ s.inGrove g.val = true ∧ s.fenced g.val = false ∧ (s.gl
      g.val).agreement = some a ∧ a.seq = d.seq ∧ a.round ≠ 3 ∧ d.lostSlots = [] ∧ d.committed = none ∧ d.inWindow = false ∧ (s.gl
      g.val).nextSuspects = []) ∧
    (∃ (s : State) (g : GladeId) (d : Decision) (a : Agreement) (x : Nat), s.up ∧ s.inGrove g.val = true ∧ s.fenced g.val = false ∧
      (s.gl g.val).agreement = some a ∧ a.seq = d.seq ∧ x < s.groveN g.val ∧ x < 32 ∧ x ≠ (s.code g.val).slot ∧ d.lostSlots = [x] ∧
      d.committed = none ∧ d.inWindow = false ∧ s.windowOpen g.val = false) ∧
    (∃ (s : State) (g : GladeId) (a : Agreement) (l : List Nat), s.up ∧ (s.gl g.val).agreement = some a ∧ l ≠ []) ∧
    (∃ (s : State) (g : GladeId), s.up ∧ s.inGrove g.val = true ∧ (s.gl g.val).sightLow = true ∧ s.rd (R.GRV_MSTAT g.val)
      F.GRV_MSTAT_VIS < s.majority g.val ∧ s.fenced g.val = false) ∧
    (∃ (s : State) (m : BitVec 16), s.up) :=
  ⟨⟨agr gv { ag0 with round := 2, views := [view1] }, 0, { ag0 with round := 2, views := [view1] }, rfl, by decide +kernel⟩,
   ⟨agr (wit1 gv) { ag0 with round := 2 }, 0, ⟨3, [], none, false⟩, { ag0 with round := 2 }, rfl, by decide +kernel⟩,
   ⟨agr (wit1 gv) { ag0 with round := 2 }, 0, ⟨3, [1], none, false⟩, { ag0 with round := 2 }, 1, rfl, by decide +kernel⟩,
   ⟨agr (wit1 gv) { ag0 with round := 2 }, 0, { ag0 with round := 2 }, [2], rfl, by decide +kernel⟩,
   ⟨gl0 (gv.wr (R.GRV_MSTAT 0) F.GRV_MSTAT_VIS 1) (fun x => {x with sightLow := true}), 0, rfl, by decide +kernel⟩,
   ⟨gv, 0x8001, rfl⟩⟩

/-- States and operands that meet the hypotheses of each clause of StandInPlacement. -/
theorem test_witness_StandInPlacement :
    (∃ (s : State) (g : GladeId) (c : Nat) (k : Takeover), s.up ∧ s.inGrove g.val = false ∧ s.rd (R.GLD_CTL g.val) F.GLD_CTL_EN = 0 ∧
      k.plan = none ∧ State.enableErr ((s.wr (R.GLD_MEMBER g.val) F.GLD_MEMBER_LMN k.lmn).setReg (R.GLD_RING g.val) (BitVec.ofNat 64
      k.ring)) g.val = 0) ∧
    (∃ (s : State) (g : GladeId) (l : Nat) (v : Serving), s.up ∧ (s.gl g.val).serving = [v] ∧ v.lmn = l) ∧
    (∃ (s : State) (g : GladeId) (l x : Nat) (v : Serving), s.up ∧ (s.gl g.val).serving = [v] ∧ v.lmn = l ∧ v.spare = some x ∧ v.left
      = [] ∧ x < 16) ∧
    (∃ (s : State) (g : GladeId) (l pn q : Nat), s.up ∧ s.mapNewer g.val q = true ∧ q < 2 ^ 16) ∧
    (∃ (s : State) (g : GladeId) (l pn q : Nat), s.mapNewer g.val q = false) :=
  ⟨⟨cfg0, 0, 5, ⟨2, 4, 0, 0, 0, 1, false, none⟩, rfl, by decide +kernel⟩,
   ⟨gl0 gv (fun x => {x with serving := [⟨1, some 0, 20, [], false⟩]}), 0, 1, ⟨1, some 0, 20, [], false⟩, rfl, by decide +kernel⟩,
   ⟨gl0 (gv.wr (R.GRV_SPAREV 0) F.GRV_SPAREV_VALID 1) (fun x => {x with serving := [⟨1, some 0, 20, [], false⟩]}), 0, 1, 0, ⟨1, some
      0, 20, [], false⟩, rfl, by decide +kernel⟩,
   ⟨gv, 0, 1, 33, 9, rfl, by decide +kernel⟩,
   ⟨gv, 0, 1, 33, 0, by decide +kernel⟩⟩

/-- States and operands that meet the hypotheses of each clause of ClearingReads. -/
theorem test_witness_ClearingReads :
    (∃ (s : State) (g : GladeId) (r : StandIn), s.up ∧ (s.gl g.val).standIn = some r ∧ s.mstate g.val = 4 ∧ r.slot < 32 ∧ (s.gl
      g.val).clearWaits = []) ∧
    (∃ (s : State) (g : GladeId) (i o x : Nat) (l : List (List RowAnswer)), s.up ∧ s.fenced g.val = false ∧ (s.gl g.val).standIn =
      none ∧ (s.gl g.val).hosting = [] ∧ s.lineAway g.val o = false) ∧
    (∃ (s : State) (g : GladeId) (i o x : Nat) (q : Option Nat) (n : Nat × Nat) (l : List RowAnswer) (b : List Byte), s.up ∧ s.fenced
      g.val = false ∧ (i ≠ s.lmn g.val ∧ i ∈ (s.gl g.val).hosting ∨ i = s.lmn g.val ∧ (s.gl g.val).standIn = none ∧ s.lineAway g.val o =
      true) ∧ s.clearNeeds g.val i o = some (q, [n]) ∧ n.1 ∉ (s.gl g.val).deadRows ∧ s.clearLine g.val i n.1 n.2 l = some b ∧ (o <
      s.regionBase g.val 5 ∨ s.regionBase g.val 5 + 4096 * s.regionSize g.val 5 ≤ o)) ∧
    (∃ (s : State) (g : GladeId) (i o x : Nat) (q : Option Nat) (n : Nat × Nat) (l : List RowAnswer), s.up ∧ s.fenced g.val = false ∧
      i ≠ s.lmn g.val ∧ i ∈ (s.gl g.val).hosting ∧ s.clearNeeds g.val i o = some (q, [n]) ∧ n.1 ∉ (s.gl g.val).deadRows ∧ s.clearLine
      g.val i n.1 n.2 l = none ∧ s.rowDeadBy g.val n.1 (s.clearFrom g.val i n.1 n.2 l) = false) ∧
    (∃ (s : State) (g : GladeId) (o x : Nat) (r : StandIn) (l : List (List RowAnswer)), s.up ∧ s.fenced g.val = false ∧ (s.gl
      g.val).standIn = some r ∧ r.clearing = true ∧ (s.regionAt g.val o).isSome = true ∧ s.lineAway g.val o = false) ∧
    (∃ (s : State) (g : GladeId) (o x : Nat) (r : StandIn) (l : List (List RowAnswer)), s.up ∧ s.fenced g.val = false ∧ (s.gl
      g.val).standIn = some r ∧ r.clearing = false ∧ (s.regionAt g.val o).isSome = true) ∧
    (∃ (s : State) (g : GladeId) (i o x : Nat) (l : List (List RowAnswer)), s.up ∧ s.fenced g.val = true) ∧
    (∃ (s : State) (g : GladeId) (row line x : Nat), s.up ∧ s.fenced g.val = false ∧ s.active g.val = true ∧ s.joined g.val = true ∧
      row < (s.code g.val).rows ∧ line < 32) ∧
    (∃ (s : State) (g : GladeId) (row line x : Nat) (e : Bool), s.up ∧ s.fenced g.val = true) ∧
    (∃ (s : State) (g : GladeId) (u : ReadUnit) (a : RowAnswer) (b : List Byte), s.up ∧ (s.gl g.val).reads = [u] ∧ s.clearLine g.val
      u.lmn u.row u.line ((u.answers.filter fun x => x.slot != a.slot) ++ [a]) = some b ∧ (u.offset < s.regionBase g.val 5 ∨
      s.regionBase g.val 5 + 4096 * s.regionSize g.val 5 ≤ u.offset)) :=
  ⟨⟨gsi (gv.setMstate 0 4) sin0, 0, sin0, rfl, by decide +kernel⟩,
   ⟨gv, 0, 0, 0x90000, 5, [], rfl, by decide +kernel⟩,
   ⟨gl0 gv (fun x => {x with hosting := [1]}), 0, 1, 0x100000, 5, some 0, (2, 0), [⟨2, 0, List.replicate 128 5⟩], ((gl0 gv (fun x =>
      {x with hosting := [1]})).clearLine 0 1 2 0 [⟨2, 0, List.replicate 128 5⟩]).getD [], rfl, by decide +kernel⟩,
   ⟨gl0 gv (fun x => {x with hosting := [1]}), 0, 1, 0x100000, 5, some 0, (2, 0), [], rfl, by decide +kernel⟩,
   ⟨gsi gm {sin0 with clearing := true}, 0, 0x100000, 5, {sin0 with clearing := true}, [], rfl, by decide +kernel⟩,
   ⟨gsi gm sin0, 0, 0x100000, 5, sin0, [], rfl, by decide +kernel⟩,
   ⟨gv.setMask R.GRV_FENCE F.GRV_FENCE_FENCED 0, 0, 0, 0x100000, 5, [], rfl, by decide +kernel⟩,
   ⟨perm gv, 0, 1, 3, 5, rfl, by decide +kernel⟩,
   ⟨gv.setMask R.GRV_FENCE F.GRV_FENCE_FENCED 0, 0, 1, 3, 5, false, rfl, by decide +kernel⟩,
   ⟨gl0 (gsi gm sin0) (fun x => {x with reads := [⟨4, 0, 2, 0, 0x110000, 9, 0, [⟨1, 0, List.replicate 128 3⟩], false⟩]}), 0, ⟨4, 0,
      2, 0, 0x110000, 9, 0, [⟨1, 0, List.replicate 128 3⟩], false⟩, ⟨2, 0, List.replicate 128 5⟩, ((gsi gm sin0).clearLine 0 0 2 0 [⟨1,
      0, List.replicate 128 3⟩, ⟨2, 0, List.replicate 128 5⟩]).getD [], rfl, by decide +kernel⟩⟩

set_option maxRecDepth 200000 in
/-- States and operands that meet the hypotheses of each clause of ParityAndRebuild. -/
theorem test_witness_ParityAndRebuild :
    (∃ (s : State) (g : GladeId) (p : Nat), s.up ∧ s.active g.val = true ∧ s.fenced g.val = false ∧ s.toEncode g.val p = true ∧
      s.permits g.val 2 = true ∧ (s.gl g.val).building.contains (false, p) = false ∧ s.contextFree (s.homeTile p) false = true) ∧
    (∃ (s : State) (g : GladeId) (p : Nat) (l : List RowAnswer) (d : List (List Byte)), s.up ∧ s.active g.val = true ∧ s.fenced g.val
      = false ∧ s.toEncode g.val p = true ∧ s.permits g.val 2 = true ∧ l ≠ [] ∧ (s.gl g.val).heldDeltas = [] ∧ s.encodeData g.val
      ((s.code g.val).rowOfParity (s.code g.val).slot p) (s.others g.val l) = some d ∧ s.served (s.parityAddr g.val p) 4096 = true) ∧
    (∃ (s : State) (g : GladeId) (q : Nat) (r : StandIn), s.up ∧ (s.gl g.val).standIn = some r ∧ q ∈ r.dataLeft ∧ s.active g.val =
      true ∧ s.fenced g.val = false ∧ s.permits g.val 2 = true ∧ s.contextFree (s.homeTile (s.leafIndex g.val q)) false = true ∧ ((s.tl
      (s.homeTile (s.leafIndex g.val q))).contexts.any fun x => x.glade == g.val && x.kind == 2 && x.unit == q) = false) ∧
    (∃ (s : State) (g : GladeId) (q i : Nat) (r : StandIn) (l : List RowAnswer) (d : List (List Byte)), s.up ∧ (s.gl g.val).standIn =
      some r ∧ q ∈ r.dataLeft ∧ s.active g.val = true ∧ s.fenced g.val = false ∧ s.permits g.val 2 = true ∧ l ≠ [] ∧ q < (1 + s.moments
      g.val) * s.bloc g.val ∧ q % (1 + s.moments g.val) ≠ 0 ∧ (s.gl g.val).ledgerOld = [] ∧ s.windowOpen g.val = false ∧ s.solveRow
      g.val ((s.code g.val).rowOfLeaf (s.code g.val).slot q) 4096 (s.others g.val l) = some d ∧ (s.code g.val).dataIndex ((s.code
      g.val).rowOfLeaf (s.code g.val).slot q) (s.code g.val).slot = some i ∧ s.served (s.leafAddr g.val q) (d.getD i (zeros
      4096)).length = true) :=
  ⟨⟨gl0 (perm gv) (fun x => {x with unbuilt := [0]}), 0, 0, rfl, by decide +kernel⟩,
   ⟨gl0 (perm gv) (fun x => {x with unbuilt := [0]}), 0, 0, rows2, (gv.encodeData 0 0 rows2).getD [], rfl, by decide +kernel⟩,
   ⟨gsi gm sin0, 0, 1, sin0, rfl, by decide +kernel⟩,
   ⟨gsi gm sin0, 0, 1, ((gm.code 0).dataIndex 2 0).getD 0, sin0, rows2, ((gsi gm sin0).solveRow 0 2 4096 rows2).getD [], rfl,
      by decide +kernel⟩⟩

/-- States and operands that meet the hypotheses of each clause of ReconciliationAndDeadfall. -/
theorem test_witness_ReconciliationAndDeadfall :
    (∃ (s : State) (g : GladeId) (x : Nat), s.up ∧ s.active g.val = true ∧ s.fenced g.val = false ∧ s.exact g.val = false ∧
      s.foldComplete g.val = true ∧ x ≠ (s.code g.val).slot) ∧
    (∃ (s : State) (g : GladeId) (h i : Nat) (rows : List Nat) (r : StandIn), s.up ∧ (s.gl g.val).standIn = some r ∧
      r.staleHolders.contains h = false ∧ i ∈ s.reportsDue g.val ∧ i ≠ h) ∧
    (∃ (s : State) (g : GladeId) (h i : Nat) (r : StandIn), s.up ∧ (s.gl g.val).standIn = some r ∧ h ∈ s.reportsDue g.val ∧ i ∈
      s.reportsDue g.val ∧ i ≠ h) ∧
    (∃ (s : State) (g : GladeId) (row : Nat), s.up ∧ s.active g.val = true ∧ s.heldErased g.val row ≠ [] ∧ (s.gl
      g.val).deadRows.contains row = false) ∧
    (∃ (s : State) (g : GladeId) (l b : Nat) (k : KeyGen), s.up ∧ ((s.gl g.val).wanted.any fun w => w.layer == l && w.block == b) =
      true ∧ s.keyCur g.val = some k ∧ s.sealReady = true ∧ s.seedRoom g.val 128 = true ∧ s.rd (R.GLD_SBOPTR g.val) F.GLD_SBOPTR_WPTR +
      128 ≤ s.seedSize g.val ∧ s.served (4096 * s.rd (R.GLD_SBOUT g.val) F.GLD_SBOUT_BASE + s.rd (R.GLD_SBOPTR g.val) F.GLD_SBOPTR_WPTR)
      128 = true) ∧
    (∃ (s : State) (g : GladeId) (l b : Nat), ((s.gl g.val).wanted.any fun w => w.layer == l && w.block == b) = false) :=
  ⟨⟨gl0 (gfold { fold0 with bits := 1 }) (fun x => {x with verdictDone := true, verdict := vrec false false}), 0, 1, rfl,
      by decide +kernel⟩,
   ⟨gl0 (gsi gm sin0) (fun x => {x with takenIn := true}), 0, 1, 2, [4], sin0, rfl, by decide +kernel⟩,
   ⟨gl0 (gsi gm sin0) (fun x => {x with takenIn := true}), 0, 1, 2, sin0, rfl, by decide +kernel⟩,
   ⟨gsi gm sin0, 0, 2, rfl, by decide +kernel⟩,
   ⟨{ gl0 (wrs gv [(R.SEC_STATUS, F.SEC_STATUS_NOSEAL, 0), (R.GLD_SBOUT 0, F.GLD_SBOUT_BASE, 0x300), (R.GLD_SBOUT 0,
      F.GLD_SBOUT_SIZE, 2)]) (fun x => {x with wanted := [⟨0, 2, none⟩]}) with keys := [(0, ⟨some key0, none, none, 0⟩)] }, 0, 0, 2,
      key0, rfl, by decide +kernel⟩,
   ⟨gv, 0, 0, 2, by decide +kernel⟩⟩

set_option maxHeartbeats 1000000 in
/-- States and operands that meet the hypotheses of each clause of PlansAndBlockCopies. -/
theorem test_witness_PlansAndBlockCopies :
    (∃ (s : State) (g : GladeId) (p : Plan), s.up ∧ p = s.readPlan (4096 * s.rd R.GRV_CPADDR F.GRV_CPADDR_BASE) ∧ s.served (4096 *
      s.rd R.GRV_CPADDR F.GRV_CPADDR_BASE) (248 + 8 * p.ns) = true ∧ s.planErr g.val p = 0) ∧
    (∃ (s : State) (g : GladeId) (p : Plan), s.up ∧ p = s.readPlan (4096 * s.rd R.GRV_CPADDR F.GRV_CPADDR_BASE) ∧ s.served (4096 *
      s.rd R.GRV_CPADDR F.GRV_CPADDR_BASE) (248 + 8 * p.ns) = true ∧ s.planErr g.val p ≠ 0) ∧
    (∃ (s : State) (g : GladeId) (n : Nat), s.up ∧ (s.gl g.val).plan.isSome = true ∧ s.rd (R.GRV_CPSTAT g.val) F.GRV_CPSTAT_STATE = n
      ∧ 0 < n ∧ n < 3 ∧ s.active g.val = true ∧ s.lmn g.val = 0) ∧
    (∃ (s : State) (g : GladeId) (n : Nat), s.up ∧ (s.gl g.val).plan.isSome = true ∧ s.rd (R.GRV_CPSTAT g.val) F.GRV_CPSTAT_STATE = n
      ∧ 0 < n ∧ n < 3 ∧ s.lmn g.val ≠ 0) ∧
    (∃ (s : State) (g : GladeId), s.up ∧ 3 ≤ s.rd (R.GRV_CPSTAT g.val) F.GRV_CPSTAT_STATE) ∧
    (∃ (s : State) (g : GladeId) (u l b : Nat), s.up ∧ s.active g.val = true ∧ s.fenced g.val = false ∧ s.windowOpen g.val = true ∧ u
      < s.bloc g.val ∧ (s.gl g.val).copied.contains u = false ∧ (s.gl g.val).rowLocks.contains u = false ∧ s.permits g.val 4 = true ∧
      s.locate g.val u = some (l, b) ∧ s.staysHere g.val l b = false ∧ s.blockErased g.val u = []) ∧
    (∃ (s : State) (g : GladeId) (u l b : Nat), s.up ∧ s.active g.val = true ∧ s.fenced g.val = false ∧ s.windowOpen g.val = true ∧ u
      < s.bloc g.val ∧ (s.gl g.val).copied.contains u = false ∧ (s.gl g.val).rowLocks.contains u = false ∧ s.permits g.val 4 = true ∧
      s.locate g.val u = some (l, b) ∧ s.staysHere g.val l b = true ∧ s.inPlace g.val = false ∧ s.blockErased g.val u = []) ∧
    (∃ (s : State) (g : GladeId) (x l b : Nat) (d : List Byte), s.up ∧ s.windowOpen g.val = true ∧ s.fencedHere g.val = false ∧
      s.staysHere g.val l b = true ∧ (s.gl g.val).arrived.contains (l, b) = true) ∧
    (∃ (s : State) (g : GladeId) (x l b u : Nat) (d : List Byte), s.up ∧ s.windowOpen g.val = true ∧ s.fencedHere g.val = false ∧
      s.staysHere g.val l b = true ∧ (s.gl g.val).arrived.contains (l, b) = false ∧ u = s.nextLocal g.val l b ∧ s.reusesClass g.val 3 =
      false ∧ s.reusesClass g.val 5 = true ∧ (∀ c, c < 1 + s.moments g.val → s.served (s.nextBase g.val c + 4096 * u) 4096 = true) ∧
      s.served (s.nextBase g.val 3 + 4096 * (u / 256) + 16 * (u % 256)) 16 = true) ∧
    (∃ (s : State) (g : GladeId) (x l b u : Nat), s.up ∧ (s.gl g.val).handovers.contains ⟨0, l, b, x⟩ = true ∧ u = s.localBlock g.val
      (s.members g.val) (s.lmn g.val) l b ∧ (s.gl g.val).rowLocks = [u]) ∧
    (∃ (s : State) (g : GladeId) (x l b k : Nat), (s.gl g.val).handovers.contains ⟨k, if k = 2 then 0 else l, if k = 2 then 0 else b,
      x⟩ = false) :=
  ⟨⟨gplan, 0, gplan.readPlan 0x300000, rfl, congrArg gplan.readPlan (by decide +kernel), by decide +kernel⟩,
   ⟨gplan.writeBytes 0x300005 [1], 0, (gplan.writeBytes 0x300005 [1]).readPlan 0x300000, rfl, congrArg (gplan.writeBytes 0x300005
      [1]).readPlan (by decide +kernel), by decide +kernel⟩,
   ⟨gw, 0, 2, rfl, by decide +kernel⟩,
   ⟨gw.wr (R.GLD_MEMBER 0) F.GLD_MEMBER_LMN 1, 0, 2, rfl, by decide +kernel⟩,
   ⟨gv.wr (R.GRV_CPSTAT 0) F.GRV_CPSTAT_STATE 3, 0, rfl, by decide +kernel⟩,
   ⟨gw.wr (R.GLD_MEMBER 0) F.GLD_MEMBER_LMN 1, 0, 0, 0, 1, rfl, by decide +kernel⟩,
   ⟨gw, 0, 0, 0, 0, rfl, by decide +kernel⟩,
   ⟨gl0 gw (fun x => {x with arrived := [(0,0)]}), 0, 1, 0, 0, [], rfl, by decide +kernel⟩,
   ⟨(gw.wr (R.GRV_CPPROG 0) F.GRV_CPPROG_COPYLEFT 3).wr (R.GLD_NREGION 0 5) F.GLD_NREGION_BASE 0x150, 0, 1, 0, 0, 0, List.replicate
      4112 7, rfl, by decide +kernel, by decide +kernel, by decide +kernel, by decide +kernel, by decide +kernel, by decide +kernel,
      by decide +kernel, by intro c hc; have h0 : c = 0 := Nat.lt_one_iff.mp (Nat.lt_of_lt_of_le hc
      (by decide +kernel)); subst h0; decide +kernel, by decide +kernel⟩,
   ⟨gl0 gw (fun x => {x with rowLocks := [0], handovers := [⟨0, 0, 0, 2⟩]}), 0, 2, 0, 0, 0, rfl, by decide +kernel⟩,
   ⟨gw, 0, 2, 0, 0, 0, rfl⟩⟩

set_option maxRecDepth 200000 in
/-- States and operands that meet the hypotheses of each clause of ShadowsBuildsAndSaplings. -/
theorem test_witness_ShadowsBuildsAndSaplings :
    (∃ (s : State) (g : GladeId) (x l b : Nat) (d : List Byte), s.up ∧ s.windowOpen g.val = true ∧ s.fencedHere g.val = false ∧ (s.gl
      g.val).arrived.contains (l, b) = true ∧ (parseShadow (1 + s.moments g.val) d).isSome = true) ∧
    (∃ (s : State) (g : GladeId) (x : Nat), s.up ∧ s.windowOpen g.val = true ∧ s.fencedHere g.val = false ∧ s.active g.val = true ∧
      s.applyDone g.val = false ∧ (s.gl g.val).ledgerOld = [] ∧ (s.gl g.val).shadowsIn = []) ∧
    (∃ (s : State) (g : GladeId) (x : Nat), s.up ∧ s.windowOpen g.val = true ∧ s.active g.val = false ∧ (s.gl g.val).ledgerOld = [] ∧
      (s.gl g.val).shadowsIn = [] ∧ (s.gl g.val).nextFlushed = true ∧ (s.gl g.val).copies = [] ∧ (∀ y, y ∈ s.copySources g.val → y = x ∨
      y ∈ (s.gl g.val).shadowEndsIn)) ∧
    (∃ (s : State) (g : GladeId) (p row : Nat), s.up ∧ s.windowOpen g.val = true ∧ s.fencedHere g.val = false ∧ (s.gl
      g.val).nextUnbuilt.contains p = true ∧ s.permitsPlan g.val = true ∧ (s.gl g.val).building.contains (true, p) = false ∧
      s.contextFree (s.homeTile p) false = true ∧ row = (s.nextCode g.val).rowOfParity (s.nextCode g.val).slot p) ∧
    (∃ (s : State) (g : GladeId) (p : Nat) (l : List RowAnswer) (d : List (List Byte)), s.up ∧ s.windowOpen g.val = true ∧
      s.fencedHere g.val = false ∧ (s.gl g.val).nextUnbuilt.contains p = true ∧ s.permitsPlan g.val = true ∧ l ≠ [] ∧ (s.gl
      g.val).heldDeltas = [] ∧ s.nextData g.val ((s.nextCode g.val).rowOfParity (s.nextCode g.val).slot p) l = some d ∧ s.served (4096 *
      s.parityUnit g.val true p) 4096 = true) ∧
    (∃ (s : State) (g : GladeId) (l : Nat) (a r : Bool) (p : Plan) (x : Sapling), s.up ∧ (s.gl g.val).plan = some p ∧ ((s.gl
      g.val).saplings.find? fun y => y.lmn == l) = some x ∧ (a = true ∨ x.misses = 0)) ∧
    (∃ (s : State) (g : GladeId) (l : Nat) (r : Bool) (p : Plan) (x : Sapling), s.up ∧ (s.gl g.val).plan = some p ∧ ((s.gl
      g.val).saplings.find? fun y => y.lmn == l) = some x ∧ 0 < x.misses ∧ s.freshSpare g.val p = none) ∧
    (∃ (s : State) (g : GladeId) (l pn : Nat) (r : Bool) (p : Plan) (x : Sapling), s.up ∧ (s.gl g.val).plan = some p ∧ ((s.gl
      g.val).saplings.find? fun y => y.lmn == l) = some x ∧ 0 < x.misses ∧ s.freshSpare g.val p = some pn ∧ s.windowOpen g.val = false) :=
  ⟨⟨gl0 gw (fun x => {x with arrived := [(0,0)]}), 0, 1, 0, 0, shd0, rfl, by decide +kernel⟩,
   ⟨gw, 0, 1, rfl, by decide +kernel⟩,
   ⟨gl0 (gw.wr (R.GLD_STATUS 0) F.GLD_STATUS_ACTIVE 0) (fun x => {x with nextFlushed := true}), 0, 1, rfl, by decide +kernel⟩,
   ⟨gw, 0, 0, 0, rfl, by decide +kernel⟩,
   ⟨gw, 0, 0, rowsN, (gw.nextData 0 0 rowsN).getD [], rfl, by decide +kernel⟩,
   ⟨gl0 gw (fun x => {x with saplings := [⟨2, 0, 0, false⟩]}), 0, 2, true, true, plan0, ⟨2, 0, 0, false⟩, rfl, by decide +kernel⟩,
   ⟨gl0 gw (fun x => {x with saplings := [⟨2, 0, 1, false⟩]}), 0, 2, true, plan0, ⟨2, 0, 1, false⟩, rfl, by decide +kernel⟩,
   ⟨gl0 (wrs gplan [(R.GRV_SPAREV 0, F.GRV_SPAREV_VALID, 1), (R.GRV_SPARE 0 0, F.GRV_SPARE_PNID0, 20)]) (fun x =>
      {x with plan := some plan0, saplings := [⟨2, 0, 1, false⟩]}), 0, 2, 20, true, plan0, ⟨2, 0, 1, false⟩, rfl, by decide +kernel⟩⟩

/-- States and operands that meet the hypotheses of each clause of Publishing. -/
theorem test_witness_Publishing :
    (∃ (s : State) (g : GladeId), s.up) ∧
    (∃ (s : State) (g : GladeId) (x k : Nat), s.up ∧ (s.gl g.val).publishDue = true ∧ (s.gl g.val).publish = none ∧ s.streamSlot
      (s.wpStream g.val) = some x ∧ 0 < s.bloc g.val ∧ k ∈ kidsOf (s.reg (R.GRV_WPKIDS g.val)) (s.rd (R.GRV_WPCTL g.val)
      F.GRV_WPCTL_KIDV)) ∧
    (∃ (s : State) (g : GladeId), s.up ∧ (s.gl g.val).publishDue = true ∧ (s.gl g.val).publish = none ∧ s.streamSlot (s.wpStream
      g.val) = none) ∧
    (∃ (s : State) (g : GladeId) (u l b : Nat) (p : Publish) (d : List Byte), s.up ∧ (s.gl g.val).publish = some p ∧ u < s.bloc g.val
      ∧ p.sent.contains u = false ∧ s.permits g.val 7 = true ∧ s.locate g.val u = some (l, b) ∧ s.wpBaseHolds g.val u = true ∧ s.served
      (s.wpBaseAddr g.val u) 2048 = true ∧ p.sent.length + 1 < s.bloc g.val ∧ d = s.readBytes (s.copyAddr g.val u) 2048 ∧ p.full = false
      ∧ (s.gl g.val).baseRing.isSome = true ∧ (s.gl g.val).lacksBase.contains u = false) ∧
    (∃ (s : State) (g : GladeId) (u l b : Nat) (p : Publish), s.up ∧ (s.gl g.val).publish = some p ∧ u < s.bloc g.val ∧
      p.sent.contains u = false ∧ s.permits g.val 7 = true ∧ s.locate g.val u = some (l, b) ∧ s.wpBaseHolds g.val u = false ∧
      p.sent.length + 1 = s.bloc g.val) :=
  ⟨⟨gv, 0, rfl⟩,
   ⟨gpub, 0, 16, 33, rfl, by decide +kernel⟩,
   ⟨{ gpub with keys := [] }, 0, rfl, by decide +kernel⟩,
   ⟨gl0 (gpub.wr (R.GLD_SIZE 0) F.GLD_SIZE_BLOCKS 2 |>.wr (R.GRV_WPBASE 0) F.GRV_WPBASE_SIZE 4 |>.wr (R.GRV_WPBASE 0)
      F.GRV_WPBASE_BASE 0x400 |>.writeBytes 0x150000 [1,2,3]) (fun x => {x with publish := some ⟨0, false, []⟩, baseRing := some 0}), 0,
      0, 0, 0, ⟨0, false, []⟩, ([1,2,3] ++ zeros 2045), rfl, by decide +kernel⟩,
   ⟨gl0 gpub (fun x => {x with publish := some ⟨0, true, []⟩}), 0, 0, 0, 0, ⟨0, true, []⟩, rfl, by decide +kernel⟩⟩

/-- States and operands that meet the hypotheses of each clause of ImageReceipt. -/
theorem test_witness_ImageReceipt :
    (∃ (s : State) (r : WpRecord) (i k : Nat), s.up ∧ s.imgOf r.stream = some i ∧ s.imgState i ≠ 3 ∧ k ∈ s.imgKids i ∧ s.served
      (s.imgBase i + 2048 * bitsOf r.arg 16 32) ((bitsOf r.arg 16 32 + 7) / 8) = true) ∧
    (∃ (s : State) (r : WpRecord) (i : Nat), s.up ∧ s.imgOf r.stream = some i ∧ s.imgState i = 3) ∧
    (∃ (s : State) (r : WpRecord) (i o q : Nat) (d : List Byte), s.up ∧ s.imgOf r.stream = some i ∧ s.imgState i = 2 ∧ r.ring = (s.im
      i).ring ∧ r.arg < (s.im i).blocks ∧ wpUnbody r.body = some d ∧ r.replace = true ∧ o = s.imgBase i + 2048 * r.arg ∧ q = s.imgBase i
      + 2048 * (s.im i).blocks + r.arg / 8 ∧ s.served o 2048 = true ∧ s.served q 1 = true) ∧
    (∃ (s : State) (r : WpRecord) (i o q : Nat) (d : List Byte), s.up ∧ s.imgOf r.stream = some i ∧ s.imgState i = 2 ∧ r.ring = (s.im
      i).ring ∧ r.arg < (s.im i).blocks ∧ wpUnbody r.body = some d ∧ r.replace = false ∧ o = s.imgBase i + 2048 * r.arg ∧ q = s.imgBase
      i + 2048 * (s.im i).blocks + r.arg / 8 ∧ s.served o 2048 = true) ∧
    (∃ (s : State) (r : WpRecord) (i l : Nat) (e : List (Nat × Nat)), s.up ∧ s.imgOf r.stream = some i ∧ s.imgState i = 2 ∧ r.ring =
      (s.im i).ring ∧ e = ((s.im i).ends.filter fun x => x.1 != l) ++ [(l, r.arg)]) ∧
    (∃ (s : State) (i : ImageId), s.up ∧ s.imgState i.val = 2) ∧
    (∃ (s : State) (x i : Nat), s.up ∧ s.imgOf x = some i) :=
  ⟨⟨(gim 1).writeBytes (0x400000 + 2048 * 5) [7], ⟨6, false, true, 9, 2 + 2 ^ 16 * 5, []⟩, 2, 33, rfl, by decide +kernel⟩,
   ⟨gim 3, ⟨6, false, true, 9, 2 + 2 ^ 16 * 5, []⟩, 2, rfl, by decide +kernel⟩,
   ⟨gimr 2, ⟨6, true, true, 9, 3, wpBody (List.replicate 2048 3)⟩, 2, 0x400000 + 2048 * 3, 0x400000 + 2048 * 5, List.replicate 2048
      3, rfl, by decide +kernel⟩,
   ⟨gimr 2, ⟨6, false, true, 9, 3, wpBody (5 :: zeros 2047)⟩, 2, 0x400000 + 2048 * 3, 0x400000 + 2048 * 5, (5 :: zeros 2047), rfl,
      by decide +kernel⟩,
   ⟨(gimr 2).updIm 2 (fun x => { x with ends := [(0, 2)], seen := [1,2,3,4,0]}), ⟨6, false, true, 9, 3, []⟩, 2, 1, [(0, 2), (1, 3)],
      rfl, by decide +kernel⟩,
   ⟨gimr 2, 2, rfl, by decide +kernel⟩,
   ⟨gimr 2, 6, 2, rfl, by decide +kernel⟩⟩

/-- States and operands that meet the hypotheses of each clause of ImagePool. -/
theorem test_witness_ImagePool :
    (∃ (s : State) (i : ImageId) (u : Nat), s.up ∧ s.on (R.GRV_WIMG_CTL i.val) F.GRV_WIMG_CTL_EN = false ∧ s.imgPlace i.val = some u ∧
      u < 2 ^ 32) ∧
    (∃ (s : State) (i : ImageId) (x u : Nat), s.up ∧ s.on (R.GRV_WIMG_CTL i.val) F.GRV_WIMG_CTL_EN = false ∧ s.imgPlace i.val = none ∧
      s.imgVictim i.val = some x ∧ (s.imgEvict x).imgPlace i.val = some u) ∧
    (∃ (s : State) (i : ImageId), s.up ∧ s.on (R.GRV_WIMG_CTL i.val) F.GRV_WIMG_CTL_EN = false ∧ s.imgPlace i.val = none ∧ s.imgVictim
      i.val = none) ∧
    (∃ (s : State) (i : ImageId), s.up ∧ s.on (R.GRV_WIMG_CTL i.val) F.GRV_WIMG_CTL_EN = true ∧ s.imgFits i.val (s.rd (R.GRV_WIMG_BASE
      i.val) F.GRV_WIMG_BASE_BASE) = true) ∧
    (∃ (s : State) (x n i : Nat), s.up ∧ (s.streamSlot n).isSome = true ∧ s.imgOf n = some i ∧ s.imgState i = 1) ∧
    (∃ (s : State) (x n : Nat), s.up ∧ (s.streamSlot n).isSome = true ∧ (∀ i, s.imgOf n = some i → s.imgState i ≠ 1)) ∧
    (∃ (s : State) (i : ImageId) (q : Nat) (b : List Byte), s.up ∧ s.imgState i.val = 3 ∧ (s.im i.val).missedStart.getD 0 ≤ q ∧
      s.served (s.imgBase i.val) b.length = true) ∧
    (∃ (s : State) (i : ImageId) (a : LoadAnswer), s.up ∧ s.imgState i.val = 3 ∧ (a = .busy ∨ a = .aborted)) ∧
    (∃ (s : State) (i : ImageId), s.up ∧ s.imgState i.val = 3 ∧ (s.im i.val).retries < 8) ∧
    (∃ (s : State) (i : ImageId), s.up) :=
  ⟨⟨gim 1, 3, ((gim 1).imgPlace 3).getD 0, rfl, by decide +kernel⟩,
   ⟨(gim 1).wr (R.GRV_WIMG_BASE 3) F.GRV_WIMG_BASE_SIZE 30, 3, 2, 0x400, rfl, by decide +kernel⟩,
   ⟨(gim 1).wr (R.GRV_WIMG_BASE 3) F.GRV_WIMG_BASE_SIZE 60 |>.wr (R.GRV_WIMG_CTL 2) F.GRV_WIMG_CTL_PIN 1, 3, rfl, by decide +kernel⟩,
   ⟨gim 4, 2, rfl, by decide +kernel⟩,
   ⟨gimr 1, 8, 6, 2, rfl, by decide +kernel⟩,
   ⟨gimr 2, 8, 6, rfl, by decide +kernel⟩,
   ⟨gimr 3, 2, 12, List.replicate 4096 7, rfl, by decide +kernel⟩,
   ⟨gimr 3, 2, .busy, rfl, by decide +kernel, by simp <;> decide +kernel⟩,
   ⟨gimr 3, 2, rfl, by decide +kernel⟩,
   ⟨gimr 3, 2, rfl⟩⟩

/-- States and operands that meet the hypotheses of each clause of SweepsAndRestores. -/
theorem test_witness_SweepsAndRestores :
    (∃ (s : State) (g : GladeId), s.up ∧ (s.gl g.val).sweepDue = true ∧ (s.gl g.val).sweep = none ∧ s.seedSize g.val ≠ 0 ∧ s.on
      (R.GLD_SBCTL g.val) F.GLD_SBCTL_EN = true ∧ s.keyCur g.val = none) ∧
    (∃ (s : State) (g : GladeId) (k : KeyGen) (o : Nat), s.up ∧ (s.gl g.val).sweepDue = true ∧ (s.gl g.val).sweep = none ∧ s.seedSize
      g.val ≠ 0 ∧ s.on (R.GLD_SBCTL g.val) F.GLD_SBCTL_EN = true ∧ s.keyCur g.val = some k ∧ s.seedRoom g.val 128 = true ∧ s.rd
      (R.GLD_SBOPTR g.val) F.GLD_SBOPTR_WPTR + 128 ≤ s.seedSize g.val ∧ o = 4096 * s.rd (R.GLD_SBOUT g.val) F.GLD_SBOUT_BASE + s.rd
      (R.GLD_SBOPTR g.val) F.GLD_SBOPTR_WPTR ∧ s.served o 128 = true) ∧
    (∃ (s : State) (g : GladeId), s.up ∧ (s.gl g.val).sweepDue = true ∧ (s.gl g.val).sweep.isSome = true) ∧
    (∃ (s : State) (g : GladeId) (w : Sweep) (u l b : Nat) (k : KeyGen) (o n : Nat), s.up ∧ (s.gl g.val).sweep = some w ∧ s.active
      g.val = true ∧ s.permits g.val 6 = true ∧ w.partialEnd = false ∧ w.startDone = true ∧ w.strict = false ∧ ((List.range (s.bloc
      g.val)).find? fun x => !w.done.contains x) = some u ∧ s.sweepPaced g.val w = true ∧ (s.gl g.val).applied.contains u = false ∧
      s.locate g.val u = some (l, b) ∧ s.keyCur g.val = some k ∧ n = seedLen (s.blockBody g.val u w.narrow).length ∧ s.seedRoom g.val n
      = true ∧ w.done.length + 1 < s.bloc g.val ∧ s.rd (R.GLD_SBOPTR g.val) F.GLD_SBOPTR_WPTR + n ≤ s.seedSize g.val ∧ o = 4096 * s.rd
      (R.GLD_SBOUT g.val) F.GLD_SBOUT_BASE + s.rd (R.GLD_SBOPTR g.val) F.GLD_SBOPTR_WPTR ∧ s.served o n = true) ∧
    (∃ (s : State) (g : GladeId) (r n : Nat) (h : SeedHdr), s.up ∧ r = s.rd (R.GLD_SBIPTR g.val) F.GLD_SBIPTR_RPTR ∧ r ≠ s.rd
      (R.GLD_SBIPTR g.val) F.GLD_SBIPTR_WPTR ∧ 0 < s.rd (R.GLD_SBIN g.val) F.GLD_SBIN_SIZE ∧ h = SeedHdr.ofBytes (s.restoreBytes g.val r
      64) ∧ n = 64 * max 1 (leAt (s.restoreBytes g.val r 64) 0 2) ∧ h.kind ≠ 0 ∧ (n = seedLen h.bodyLen → s.openRecord g.val h
      (s.restoreBytes g.val r n) = none)) ∧
    (∃ (s : State) (g : GladeId) (r n u : Nat) (h : SeedHdr), s.up ∧ r = s.rd (R.GLD_SBIPTR g.val) F.GLD_SBIPTR_RPTR ∧ r ≠ s.rd
      (R.GLD_SBIPTR g.val) F.GLD_SBIPTR_WPTR ∧ 0 < s.rd (R.GLD_SBIN g.val) F.GLD_SBIN_SIZE ∧ h = SeedHdr.ofBytes (s.restoreBytes g.val r
      64) ∧ n = 64 * max 1 (leAt (s.restoreBytes g.val r 64) 0 2) ∧ h.kind ≠ 0 ∧ n = seedLen h.bodyLen ∧ u = s.localBlock g.val
      (s.members g.val) (s.lmn g.val) h.layer h.block ∧ (∀ c, c < 1 + s.moments g.val → s.served (s.regionBase g.val c + 4096 * u) 4096
      = true) ∧ s.served (s.ledgerAddr g.val u) 16 = true ∧ s.served (s.bufferAddr g.val u) 4096 = true) :=
  ⟨⟨seed0 gv, 0, rfl, by decide +kernel⟩,
   ⟨gkey (seed0 gv), 0, key0, 0x300080, rfl, by decide +kernel⟩,
   ⟨gl0 (seed0 gv) (fun x => {x with sweep := some sw0}), 0, rfl, by decide +kernel⟩,
   ⟨gl0 (gkey (seed0 (perm gv)) |>.wr (R.GLD_SIZE 0) F.GLD_SIZE_BLOCKS 2 |>.wr (R.GLD_SBSTAT 0) F.GLD_SBSTAT_LEFT 2) (fun x =>
      {x with sweep := some sw0}), 0, sw0, 0, 0, 0, key0, 0x300080, 4224, rfl, by decide +kernel⟩,
   ⟨gre 2 4112, 0, 0, seedLen 4112, SeedHdr.ofBytes ((gre 2 4112).restoreBytes 0 0 64), rfl, by decide +kernel⟩,
   ⟨gkey (gre 2 4112), 0, 0, seedLen 4112, 0, SeedHdr.ofBytes ((gre 2 4112).restoreBytes 0 0 64), rfl, by decide +kernel⟩⟩

/-- States and operands that meet the hypotheses of each clause of LinkTraining. -/
theorem test_witness_LinkTraining :
    (∃ (s : State) (p : LinkId) (c : Instr), s.up ∧ s.on R.RTR_SELF F.RTR_SELF_SET = true ∧ s.router.waiting = [] ∧ ((c = .linkEnable
      p ∧ s.on (R.LNK_CTL p.val) F.LNK_CTL_EN = false ∧ s.linkHeld p.val = false) ∨ (s.on (R.LNK_CTL p.val) F.LNK_CTL_EN = true ∧ ((c =
      .retrain p ∧ (s.lk p.val).waitSet = false) ∨ (c = .trainingRetry p ∧ s.lnkState p.val = 5) ∨ (c = .unlockTimeout p ∧ s.lnkState
      p.val = 2 ∧ s.lockedMask p.val = 0 ∧ (s.lk p.val).doze = 0))))) ∧
    (∃ (s : State) (p : LinkId), s.up ∧ s.on R.RTR_SELF F.RTR_SELF_SET = false ∧ s.on (R.LNK_CTL p.val) F.LNK_CTL_EN = false ∧
      s.linkHeld p.val = false) ∧
    (∃ (s : State) (p : LinkId), s.up ∧ s.on (R.LNK_CTL p.val) F.LNK_CTL_EN = true ∧ s.router.waiting = []) ∧
    (∃ (s : State) (p : LinkId), s.up ∧ s.lnkState p.val = 1) ∧
    (∃ (s : State) (p : LinkId) (pn po st now : Nat) (l : Byte), s.up ∧ s.lnkState p.val = 1 ∧ (s.lk p.val).trimStep = 0 ∧ pn < 2 ^ 16
      ∧ po < 2 ^ F.LNK_PEER_PORT.width) ∧
    (∃ (s : State) (p : LinkId) (pn po st ec now rx i : Nat) (r : List Nat) (l : Byte), s.up ∧ s.lnkState p.val = 1 ∧ (s.lk
      p.val).trimStep = 0 ∧ ec ≠ 0 ∧ rx = meet (s.lockedMask p.val) (s.laneMask p.val) ∧ lanesOfMask rx = i :: r ∧ meet l.toNat
      (s.laneMask p.val) ≠ 0) ∧
    (∃ (s : State) (p : LinkId) (pn po v st ec now : Nat) (l : Byte), s.up ∧ s.lnkState p.val = 1 ∧ (s.lk p.val).trimStep = 0 ∧ v ≠ 1) ∧
    (∃ (s : State) (p : LinkId) (i : Nat), s.up ∧ s.lnkState p.val = 1 ∧ (s.lk p.val).trimStep = 2 ∧ (s.lk p.val).trimQueue = [i] ∧
      s.router.waiting = [] ∧ (s.lk p.val).buffer = []) :=
  ⟨⟨(lk 0 id).wr (R.LNK_CTL 0) F.LNK_CTL_EN 0, 0, .linkEnable 0, rfl, by decide +kernel, by decide +kernel,
      by simp <;> decide +kernel⟩,
   ⟨(lk 0 id).wr (R.LNK_CTL 0) F.LNK_CTL_EN 0 |>.wr R.RTR_SELF F.RTR_SELF_SET 0, 0, rfl, by decide +kernel⟩,
   ⟨lk 2 (fun x => {x with buffer := [buf0 0]}), 0, rfl, by decide +kernel⟩,
   ⟨lk 1 id, 0, rfl, by decide +kernel⟩,
   ⟨lk 1 id, 0, 33, 4, 99, 1000, 255, rfl, by decide +kernel⟩,
   ⟨lk 1 id, 0, 33, 4, 99, 100, 1000, 255, 0, [1,2,3,4,5,6,7], 255, rfl, by decide +kernel⟩,
   ⟨lk 1 id, 0, 33, 4, 2, 99, 100, 1000, 255, rfl, by decide +kernel⟩,
   ⟨lk 1 (fun x => {x with trimStep := 2, trimQueue := [7], fails := 3}), 0, 7, rfl, by decide +kernel⟩⟩

/-- States and operands that meet the hypotheses of each clause of LanesAndPeriods. -/
theorem test_witness_LanesAndPeriods :
    (∃ (s : State) (p : LinkId), s.up ∧ s.lnkHears p.val = true ∧ (s.lk p.val).doze = 0 ∧ (s.lk p.val).reqMask = none ∧ (s.lk
      p.val).replayFrom = none ∧ (s.lk p.val).buffer = [] ∧ s.router.waiting = []) ∧
    (∃ (s : State) (p : LinkId) (m : Nat), s.up ∧ s.lnkHears p.val = true ∧ (s.lk p.val).doze = 0 ∧ (s.lk p.val).reqMask = some m ∧ m
      < 256 ∧ m ≠ s.txMask p.val ∧ (s.lk p.val).replayFrom = none ∧ (s.lk p.val).buffer = [] ∧ s.router.waiting = []) ∧
    (∃ (s : State) (p : LinkId) (i : LaneId) (m : Marker) (x : LaneState), s.up ∧ s.lnkHears p.val = true ∧ s.router.waiting = [] ∧ x
      = (s.lk p.val).lane i.val ∧ x.state = 0 ∧ x.atPoint m = none) ∧
    (∃ (s : State) (p : LinkId) (i : LaneId) (m : Marker) (x : LaneState) (d : Candidate), s.up ∧ s.lnkHears p.val = true ∧
      s.router.waiting = [] ∧ x = (s.lk p.val).lane i.val ∧ x.state = 0 ∧ x.candidates = [d] ∧ m.pos = d.pos + 1392768 ∧ (d.hits = 0 ∨
      d.confirms m = false)) ∧
    (∃ (s : State) (p : LinkId) (i : LaneId) (m : Marker) (x : LaneState) (d : Candidate), s.up ∧ s.lnkState p.val = 1 ∧
      s.router.waiting = [] ∧ x = (s.lk p.val).lane i.val ∧ x.state = 0 ∧ x.candidates = [d] ∧ m.pos = d.pos + 1392768 ∧ d.hits = 1 ∧
      d.confirms m = true) ∧
    (∃ (s : State) (p : LinkId) (i : LaneId) (m : Marker) (j : Nat) (c : Instr), s.up ∧ s.lnkState p.val = 2 ∧ s.router.waiting = [] ∧
      ((s.lk p.val).lane i.val).state = 1 ∧ (s.lk p.val).doze = 0 ∧ (s.lk p.val).trimStep = 0 ∧ bitAt (s.rxMask p.val) i.val = true ∧ (c
      = .cdrLockLoss p i ∨ (c = .laneMarker p i m ∧ ((s.lk p.val).lane i.val).expects m = true ∧ ((s.lk p.val).lane i.val).badMarkers =
      3 ∧ m.crcOk = false)) ∧ j < 8 ∧ j ≠ i.val ∧ bitAt (s.rxMask p.val) j = true ∧ bitAt (s.lockedMask p.val) j = true ∧ bitAt
      (s.laneMask p.val) j = true) ∧
    (∃ (s : State) (p : LinkId) (i : LaneId) (n : Nat), s.up ∧ s.lnkHears p.val = true ∧ bitAt (s.rxMask p.val) i.val = true ∧
      ((((true :: List.replicate (min n 16) false) ++ ((s.lk p.val).lane i.val).history).take 16).filter (·)).length < 8) :=
  ⟨⟨lk 2 id, 0, rfl, by decide +kernel⟩,
   ⟨lk 2 (fun x => {x with reqMask := some 15}), 0, 15, rfl, by decide +kernel⟩,
   ⟨lk 1 (fun x => {x with lanes := []}), 0, 3, mk0 7 true, LaneState.reset, rfl, by decide +kernel⟩,
   ⟨lk 1 (fun x => {x with lanes := [(3, { LaneState.reset with candidates := [⟨5, 3, 8, 6, 0⟩]})]}), 0, 3,
      { mk0 7 true with pos := 1392773 }, { LaneState.reset with candidates := [⟨5, 3, 8, 6, 0⟩]}, ⟨5, 3, 8, 6, 0⟩, rfl,
      by decide +kernel⟩,
   ⟨(lk 1 (fun x => {x with lanes := [(3, { LaneState.reset with candidates := [⟨5, 3, 8, 6, 1⟩]})]})).wr (R.LNK_WIDTH 0)
      F.LNK_WIDTH_LOCKED 0, 0, 3, { mk0 7 true with pos := 1392773 }, { LaneState.reset with candidates := [⟨5, 3, 8, 6, 1⟩]}, ⟨5, 3, 8,
      6, 1⟩, rfl, by decide +kernel⟩,
   ⟨lk 2 id, 0, 3, mk0 7 true, 4, .cdrLockLoss 0 3, rfl, by decide +kernel, by decide +kernel, by decide +kernel, by decide +kernel,
      by decide +kernel, by decide +kernel, by simp <;> decide +kernel, by decide +kernel⟩,
   ⟨lk 2 id, 0, 3, 9, rfl, by decide +kernel⟩⟩

/-- States and operands that meet the hypotheses of each clause of LinkTraffic. -/
theorem test_witness_LinkTraffic :
    (∃ (s : State) (p : LinkId) (f : RxFrame) (n q : Nat), s.up ∧ s.lnkState p.val = 2 ∧ (s.lk p.val).ignoring = false ∧ (s.lk
      p.val).resync = false ∧ s.router.waiting = [] ∧ f.firstBad = false ∧ f.anyBad = false ∧ leAt f.bytes 0 1 = 0x1E ∧ leAt f.bytes 30
      2 = crc16 (slice f.bytes 0 30) ∧ n = leAt f.bytes 2 1 ∧ 0 < n ∧ n ≤ 128 ∧ leAt f.bytes (32 * (n + 1) + 28) 4 = crc32c (slice
      f.bytes 0 (32 * (n + 1) + 28)) ∧ frameMalformed f.bytes n = false ∧ q = leAt f.bytes 4 2) ∧
    (∃ (s : State) (p : LinkId) (f : RxFrame), s.up ∧ s.lnkState p.val = 2 ∧ (s.lk p.val).ignoring = false ∧ (s.lk p.val).resync =
      false ∧ s.router.waiting = [] ∧ f.firstBad = false ∧ leAt f.bytes 0 1 = 0x1E ∧ leAt f.bytes 30 2 ≠ crc16 (slice f.bytes 0 30)) ∧
    (∃ (s : State) (p : LinkId), s.up) ∧
    (∃ (s : State) (p : LinkId) (po n : Nat), s.up ∧ s.on (R.LNK_PEER p.val) F.LNK_PEER_VALID = true ∧ s.lnkState p.val = 2 ∧
      s.router.waiting = []) ∧
    (∃ (s : State) (p : LinkId) (x po n : Nat), s.up ∧ s.on (R.LNK_PEER p.val) F.LNK_PEER_VALID = true ∧ s.lnkState p.val = 2 ∧
      s.router.waiting = [] ∧ x ≠ s.peer p.val ∧ s.on (R.LNK_STATUS p.val) F.LNK_STATUS_SILENT = true ∧ s.on (R.LNK_CTL p.val)
      F.LNK_CTL_EN = true ∧ s.on R.RTR_SELF F.RTR_SELF_SET = true) ∧
    (∃ (s : State) (p : LinkId) (a : BitVec 16), s.up ∧ s.router.waiting = []) ∧
    (∃ (s : State) (p : LinkId) (e : BitVec 16) (b : Buffered) (c : Instr), s.up ∧ s.lnkState p.val = 2 ∧ (s.lk p.val).doze = 0 ∧
      (s.lk p.val).reqMask = none ∧ s.router.waiting = [] ∧ (s.lk p.val).buffer = [b] ∧ b.out = true ∧ b.seq = e.toNat ∧ b.replays < 7 ∧
      (c = .nak p e ∨ c = .replayTimeout p)) ∧
    (∃ (s : State) (p : LinkId) (e : BitVec 16) (b : Buffered), s.up ∧ s.lnkState p.val = 2 ∧ (s.lk p.val).doze = 0 ∧ (s.lk
      p.val).reqMask = none ∧ s.router.waiting = [] ∧ (s.lk p.val).buffer = [b] ∧ b.out = true ∧ b.seq = e.toNat ∧ b.replays = 7 ∧ s.on
      (R.LNK_CTL p.val) F.LNK_CTL_EN = true ∧ s.on R.RTR_SELF F.RTR_SELF_SET = true) ∧
    (∃ (s : State) (p : LinkId) (l : List Nat) (n : Nat), s.up ∧ s.router.waiting = []) ∧
    (∃ (s : State) (p : LinkId), s.up ∧ 0 < (s.lk p.val).unreported) ∧
    (∃ (s : State) (p : LinkId), s.up ∧ (s.lk p.val).nakOut = true ∧ s.lnkState p.val = 2) ∧
    (∃ (s : State) (p : LinkId), s.up ∧ s.lnkState p.val = 2 ∧ (s.lk p.val).doze < 3) ∧
    (∃ (s : State) (p : LinkId), s.up ∧ s.lnkState p.val = 2 ∧ (s.lk p.val).doze < 3 ∧ s.router.waiting = [] ∧ s.activeGlades = []) :=
  ⟨⟨lk 2 (fun x => {x with rxExpected := 9, buffer := [buf0 0]}), 0, rx 9 0, 1, 9, rfl, by decide +kernel⟩,
   ⟨lk 2 id, 0, rx 9 1, rfl, by decide +kernel⟩,
   ⟨lk 2 (fun x => {x with resync := true}), 0, rfl⟩,
   ⟨(lk 2 id).wr (R.LNK_STATUS 0) F.LNK_STATUS_SILENT 1, 0, 3, 4, rfl, by decide +kernel⟩,
   ⟨(lk 2 id).wr (R.LNK_STATUS 0) F.LNK_STATUS_SILENT 1, 0, 3, 4, 5, rfl, by decide +kernel⟩,
   ⟨lk 2 (fun x => {x with buffer := [buf0 0, { buf0 0 with seq := 7 }]}), 0, 6, rfl, by decide +kernel⟩,
   ⟨lk 2 (fun x => {x with buffer := [buf0 0]}), 0, 5, buf0 0, .nak 0 5, rfl, by decide +kernel, by decide +kernel,
      by decide +kernel, by decide +kernel, by decide +kernel, by decide +kernel, by decide +kernel, by decide +kernel,
      by simp <;> decide +kernel⟩,
   ⟨lk 2 (fun x => {x with buffer := [buf0 7]}), 0, 5, buf0 7, rfl, by decide +kernel⟩,
   ⟨lk 2 (fun x => {x with usedReserved := [(1, 5)], usedShared := 7}), 0, [1, 2], 3, rfl, by decide +kernel⟩,
   ⟨lk 2 (fun x => {x with unreported := 3}), 0, rfl, by decide +kernel⟩,
   ⟨lk 2 (fun x => {x with nakOut := true}), 0, rfl, by decide +kernel⟩,
   ⟨lk 2 id, 0, rfl, by decide +kernel⟩,
   ⟨(lk 2 id).wr (R.GLD_STATUS 0) F.GLD_STATUS_ACTIVE 0, 0, rfl, by decide +kernel⟩⟩

/-- States and operands that meet the hypotheses of each clause of LinkWidthAndTrims. -/
theorem test_witness_LinkWidthAndTrims :
    (∃ (s : State) (p : LinkId) (m : Byte) (n : Nat), s.up ∧ s.lnkState p.val = 2 ∧ meet m.toNat (s.laneMask p.val) ≠ 0) ∧
    (∃ (s : State) (p : LinkId) (m : Byte) (n : Nat), s.up ∧ s.lnkState p.val = 2 ∧ meet m.toNat (s.laneMask p.val) = 0) ∧
    (∃ (s : State) (p : LinkId), s.up ∧ (s.lk p.val).switching = true ∧ (s.lk p.val).widthTries ≤ 4) ∧
    (∃ (s : State) (p : LinkId), s.up ∧ (s.lk p.val).switching = true ∧ 4 < (s.lk p.val).widthTries ∧ s.on (R.LNK_CTL p.val)
      F.LNK_CTL_EN = true ∧ s.on R.RTR_SELF F.RTR_SELF_SET = true) ∧
    (∃ (s : State) (p : LinkId) (i : LaneId), s.up ∧ s.lnkState p.val = 2 ∧ (s.lk p.val).doze = 0 ∧ (s.lk p.val).switching = false ∧
      (s.lk p.val).trimStep = 0 ∧ bitAt (s.lockedMask p.val) i.val = true ∧ bitAt (s.laneMask p.val) i.val = true ∧ bitAt (s.rxMask
      p.val) i.val = false ∧ (∀ w, (s.lk p.val).widenedAt = some w → w + 100000 ≤ s.now)) ∧
    (∃ (s : State) (p : LinkId) (a b c d n : Nat), s.up ∧ s.lnkState p.val = 2 ∧ s.on (R.LNK_CTL p.val) F.LNK_CTL_TRIMAUTO = false ∧ n
      = min 100 (max (100 * b / max 1 a) (100 * d / max 1 c))) ∧
    (∃ (s : State) (p : LinkId) (i j : Nat) (r : List Nat), s.up ∧ s.lnkState p.val = 2 ∧ s.on (R.LNK_TRIM p.val) F.LNK_TRIM_BUSY =
      false ∧ lanesOfMask (s.rxMask p.val) = i :: j :: r) ∧
    (∃ (s : State) (p : LinkId), s.up ∧ s.lnkState p.val = 2 ∧ (s.lk p.val).trimStep = 2) ∧
    (∃ (s : State) (p : LinkId) (b a i : Nat) (r : List Nat), s.up ∧ (s.lk p.val).trimStep = 3 ∧ (s.lk p.val).trimQueue = i :: r) ∧
    (∃ (s : State) (p : LinkId) (i : LaneId) (n w e4 e8 e12 : Nat), s.up ∧ bitAt (s.rxMask p.val) i.val = true ∧ s.on (R.LNK_CTL
      p.val) F.LNK_CTL_TRIMAUTO = false) :=
  ⟨⟨lk 2 (fun x => {x with resync := true}), 0, 15, 1, rfl, by decide +kernel⟩,
   ⟨lk 2 id, 0, 0, 1, rfl, by decide +kernel⟩,
   ⟨lk 2 (fun x => {x with switching := true, askedMask := 15, widthTries := 2}), 0, rfl, by decide +kernel⟩,
   ⟨lk 2 (fun x => {x with switching := true, askedMask := 15, widthTries := 5}), 0, rfl, by decide +kernel⟩,
   ⟨(lk 2 id).wr (R.LNK_WIDTH 0) F.LNK_WIDTH_RXMASK 15, 0, 6, rfl, by decide +kernel⟩,
   ⟨lk 2 id, 0, 100, 80, 100, 50, 80, rfl, by decide +kernel⟩,
   ⟨lk 2 id, 0, 0, 1, [2,3,4,5,6,7], rfl, by decide +kernel⟩,
   ⟨lk 2 (fun x => {x with trimStep := 2, trimQueue := [1]}), 0, rfl, by decide +kernel⟩,
   ⟨lk 2 (fun x => {x with trimStep := 3, trimQueue := [1]}), 0, 5, 11, 1, [], rfl, by decide +kernel⟩,
   ⟨lk 2 id, 0, 4, 70000, 5, 1, 2, 3, rfl, by decide +kernel⟩⟩

/-- States and operands that meet the hypotheses of each clause of DozeAndWake. -/
theorem test_witness_DozeAndWake :
    (∃ (s : State) (p : LinkId), s.up ∧ s.dozeReady p.val = true ∧ (s.lk p.val).doze = 0 ∧ s.on (R.LNK_DOZE p.val) F.LNK_DOZE_IDLE =
      true) ∧
    (∃ (s : State) (p : LinkId) (c : Instr), s.up ∧ (s.lk p.val).doze = 1 ∧ (c = .dozeReq p ∨ c = .dozeAck p)) ∧
    (∃ (s : State) (p : LinkId), s.up ∧ s.dozeReady p.val = true ∧ (s.lk p.val).doze = 0 ∧ (s.lk p.val).lastData + s.rd (R.LNK_DOZE
      p.val) F.LNK_DOZE_IDLE ≤ s.now) ∧
    (∃ (s : State) (p : LinkId), s.up ∧ s.dozeReady p.val = false ∧ (s.lk p.val).doze = 0 ∧ s.lnkState p.val = 2) ∧
    (∃ (s : State) (p : LinkId) (c : Instr), s.up ∧ (s.lk p.val).buffer = [] ∧ s.router.waiting = [] ∧ ((c = .dozeCancel p ∧ ((s.lk
      p.val).doze = 1 ∨ (s.lk p.val).doze = 2)) ∨ (c = .dozeReqTimeout p ∧ (s.lk p.val).doze = 1))) ∧
    (∃ (s : State) (p : LinkId), s.up ∧ ((s.lk p.val).doze = 2 ∨ (s.lk p.val).doze = 3)) ∧
    (∃ (s : State) (p : LinkId) (c : Instr), s.up ∧ (s.lk p.val).doze = 4 ∧ c ∈ [.wakeBurst p, .signalDetect p, .beaconTimeout p]) ∧
    (∃ (s : State) (p : LinkId) (i : LaneId), s.up ∧ (s.lk p.val).doze = 5 ∧ bitAt (s.rxMask p.val) i.val = true ∧ bitAt (s.lockedMask
      p.val) i.val = false) ∧
    (∃ (s : State) (p : LinkId), s.up ∧ (s.lk p.val).doze = 4) ∧
    (∃ (s : State) (p : LinkId) (n : Nat), s.up ∧ (s.lk p.val).doze = 4 ∧ (∀ a, (s.lk p.val).anchor = some a → 7750 ≤ n - a ∧ n - a ≤
      8250)) ∧
    (∃ (s : State) (p : LinkId) (n a : Nat), s.up ∧ (s.lk p.val).doze = 4 ∧ (s.lk p.val).anchor = some a ∧ n - a < 7750 ∧ ((s.lk
      p.val).slips.filter fun x => n ≤ x + 1000000).length < 3) ∧
    (∃ (s : State) (p : LinkId) (n a : Nat), s.up ∧ (s.lk p.val).doze = 4 ∧ (s.lk p.val).anchor = some a ∧ n - a < 7750 ∧ 3 ≤ ((s.lk
      p.val).slips.filter fun x => n ≤ x + 1000000).length) ∧
    (∃ (s : State) (p : LinkId), s.up ∧ (s.lk p.val).doze = 5 ∧ (s.lk p.val).wakeAnswered = false ∧ s.router.waiting = [] ∧
      s.activeGlades = []) :=
  ⟨⟨(lk 2 id).wr (R.LNK_DOZE 0) F.LNK_DOZE_IDLE 5, 0, rfl, by decide +kernel⟩,
   ⟨lk 2 (fun x => {x with doze := 1}), 0, .dozeReq 0, rfl, by decide +kernel, by simp <;> decide +kernel⟩,
   ⟨(lk 2 id).wr (R.LNK_DOZE 0) F.LNK_DOZE_IDLE 0, 0, rfl, by decide +kernel⟩,
   ⟨(lk 2 id).wr (R.LNK_STATUS 0) F.LNK_STATUS_NODOZE 1, 0, rfl, by decide +kernel⟩,
   ⟨lk 2 (fun x => {x with doze := 2}), 0, .dozeCancel 0, rfl, by decide +kernel, by decide +kernel, by simp <;> decide +kernel⟩,
   ⟨lk 2 (fun x => {x with doze := 2}), 0, rfl, by decide +kernel⟩,
   ⟨lk 3 (fun x => {x with doze := 4}), 0, .wakeBurst 0, rfl, by decide +kernel, by simp <;> decide +kernel⟩,
   ⟨(lk 3 (fun x => {x with doze := 5})).wr (R.LNK_WIDTH 0) F.LNK_WIDTH_LOCKED 15, 0, 6, rfl, by decide +kernel⟩,
   ⟨lk 3 (fun x => {x with doze := 4}), 0, rfl, by decide +kernel⟩,
   ⟨lk 3 (fun x => {x with doze := 4}), 0, 8000, rfl, by decide +kernel⟩,
   ⟨lk 3 (fun x => {x with doze := 4, anchor := some 8000}), 0, 15000, 8000, rfl, by decide +kernel⟩,
   ⟨lk 3 (fun x => {x with doze := 4, anchor := some 8000, slips := [1,2,3]}), 0, 15000, 8000, rfl, by decide +kernel⟩,
   ⟨(lk 3 (fun x => {x with doze := 5})).wr (R.GLD_STATUS 0) F.GLD_STATUS_ACTIVE 0, 0, rfl, by decide +kernel⟩⟩

/-- States and operands that meet the hypotheses of each clause of RoutingAndRouterEdges. -/
theorem test_witness_RoutingAndRouterEdges :
    (∃ (s : State) (x : Fin 44) (f : Frame), s.up ∧ f.dst = s.pnid ∧ f.enc = false ∧ f.msg.segLast = 0 ∧ knownKind f.msg.kind = true ∧
      f.msg.kind ≠ 0x58 ∧ weightKind f.msg.kind = false ∧ s.takesGlade f.glade.val = true ∧ s.knowsSource f.glade.val f.src = true ∧
      s.needsSeal f = false) ∧
    (∃ (s : State) (x : Fin 44) (f : Frame), s.up ∧ x.val < 32 ∧ f.dst = s.pnid ∧ f.enc = true ∧ f.sealOk = false ∧ knownKind
      f.msg.kind = true ∧ f.msg.kind ≠ 0x58 ∧ f.msg.kind ≠ 8 ∧ weightKind f.msg.kind = false ∧ s.takesGlade f.glade.val = true ∧
      s.knowsSource f.glade.val f.src = true) ∧
    (∃ (s : State) (x : Fin 44) (f : Frame) (b : Bool), s.up ∧ x.val < 32 ∧ f.dst ≠ s.pnid ∧ f.ttl = 0) ∧
    (∃ (s : State) (x : Fin 44) (f : Frame) (b : Bool) (p : Nat), s.up ∧ x.val < 32 ∧ f.dst ≠ s.pnid ∧ 0 < f.ttl ∧ f.msg.esc = false ∧
      s.namesNode f.dst = true ∧ s.partnerGone f.dst = false ∧ 0 < f.payload.length ∧ f.payload.length ≤ 4096 ∧ s.bestPort f.vc
      ((s.candidates f.dst).filter fun q => s.outputFree q f.vc f) = some p) ∧
    (∃ (s : State) (x : Fin 44) (f : Frame) (b : Bool), s.up ∧ x.val < 32 ∧ f.dst ≠ s.pnid ∧ 0 < f.ttl ∧ f.msg.esc = false ∧
      s.namesNode f.dst = true ∧ s.partnerGone f.dst = false ∧ s.candidates f.dst ≠ [] ∧ (∀ q, q ∈ s.candidates f.dst → s.outputFree q
      f.vc f = false)) ∧
    (∃ (s : State) (x : Fin 44) (f : Frame) (b : Bool), s.up ∧ f.dst ≠ s.pnid ∧ f.src ≠ s.pnid ∧ f.enc = false ∧ (32 ≤ x.val ∨ 0 <
      f.ttl) ∧ (s.namesNode f.dst = false ∨ s.partnerGone f.dst = true)) ∧
    (∃ (s : State) (w : WaitingFrame) (f : Frame) (d p : Nat) (y : Nat × Bool) (r : List Nat), s.up ∧ s.router.waiting = [w] ∧ w.frame
      = f ∧ w.host = none ∧ w.inPort < 32 ∧ f.dst ≠ s.pnid ∧ 0 < f.ttl ∧ f.msg.esc = false ∧ s.namesNode f.dst = true ∧ s.partnerGone
      f.dst = false ∧ (List.range 4).find? (s.differs f.dst) = some d ∧ w.inPort / 8 ≠ d ∧ (s.productiveIn f.dst d).head? = some y ∧
      s.upPorts y = p :: r ∧ s.crosses y = false ∧ s.outputFree p 0 f = true ∧ 0 < f.payload.length ∧ f.payload.length ≤ 4096) ∧
    (∃ (s : State) (p : LinkId), s.up ∧ (s.lk p.val).owes = true) ∧
    (∃ (s : State) (h : HostId) (f : Frame), s.up ∧ s.hostRefused f = true) ∧
    (∃ (s : State) (h : HostId) (f : Frame), s.up ∧ s.hostRefused f = false ∧ (s.rd (R.RTR_MAPCFG f.glade.val) F.RTR_MAPCFG_COUNT ≤
      f.msg.dlmn ∨ (s.memberEntry f.glade.val f.msg.dlmn).valid = false ∨ (f.msg.kind ≠ 9 ∧ f.msg.offset % 128 ≠ 0))) ∧
    (∃ (s : State) (h : HostId) (f k : Frame) (p n : Nat), s.up ∧ s.hostRefused f = false ∧ f.enc = false ∧ s.needsSeal f = false ∧
      f.msg.kind ≠ 9 ∧ f.msg.dlmn < s.rd (R.RTR_MAPCFG f.glade.val) F.RTR_MAPCFG_COUNT ∧ s.memberEntry f.glade.val f.msg.dlmn = ⟨n,
      true⟩ ∧ f.msg.offset % 128 = 0 ∧ n ≠ s.pnid ∧ s.namesNode n = true ∧ s.partnerGone n = false ∧ 0 < f.payload.length ∧
      f.payload.length ≤ 4096 ∧ k = { f.route 0 false false false with vc := 6, src := s.pnid, dst := n, ttl := 254 } ∧ s.bestPort 6
      ((s.candidates n).filter fun q => s.outputFree q 6 f) = some p) ∧
    (∃ (s : State) (h : HostId) (a b : Nat), s.up ∧ s.router.waiting = []) ∧
    (∃ (s : State) (n : BitVec 16) (x : Nat), (n.toNat, x) ∈ s.router.noRouteAt ∧ s.now < x + 32) ∧
    (∃ (s : State) (n : BitVec 16) (g i : Nat), s.up ∧ (∀ x, x ∈ s.router.noRouteAt → x.1 ≠ n.toNat) ∧ s.activeGlades = [g] ∧ (∀ j, j
      < s.members g → (s.memberEntry g j = ⟨n.toNat, true⟩ ↔ j = i)) ∧ i < s.members g ∧ i ≠ s.lmn g ∧ i / s.groveN g ≠ s.lmn g /
      s.groveN g) ∧
    (∃ (s : State) (f : Frame) (k : Nat), s.up ∧ k = f.msg.offset % 8 ∧ vcCount s.router.hostUsed (8 * k + f.vc) + f.blocks ≤ 512) ∧
    (∃ (s : State) (a b : Nat) (r : Reasm), s.up ∧ s.router.waiting = [] ∧ r ∈ s.router.reasm ∧ r.src = a ∧ r.txid = b) ∧
    (∃ (s : State) (v : Word), s.up ∧ s.anyLinkUp = false ∧ (∀ p, p < 32 → (s.lk p).waitSet = false)) ∧
    (∃ (s : State) (v : Word), s.up ∧ s.anyLinkUp = true) :=
  ⟨⟨rt, 5, fr 7 8, rfl, by decide +kernel⟩,
   ⟨rt, 5, { fr 7 1 with enc := true }, rfl, by decide +kernel⟩,
   ⟨rt, 5, { fr 9 1 with ttl := 0 }, false, rfl, by decide +kernel⟩,
   ⟨rt, 5, fr 9 1, false, 0, rfl, by decide +kernel⟩,
   ⟨rt.updLk 0 (fun x => { x with usedReserved := [(2, 100000)], usedShared := 1000000 }), 5, fr 9 1, false, rfl, by decide +kernel⟩,
   ⟨rt, 5, fr 900 1, false, rfl, by decide +kernel⟩,
   ⟨{ rtr (fun r => {r with waiting := [⟨9, fr 9 1, false, none⟩]}) with pending := [] }, ⟨9, fr 9 1, false, none⟩, fr 9 1, 0, 0, (0,
      true), [], rfl, by decide +kernel⟩,
   ⟨lk 2 (fun x => {x with oweShared := 3, oweReserved := [(2, 4)]}), 0, rfl, by decide +kernel⟩,
   ⟨rt, 3, fr 9 2, rfl, by decide +kernel⟩,
   ⟨rt, 3, frm (fr 9 1) fun m => { m with dlmn := 77 }, rfl, by decide +kernel⟩,
   ⟨rt, 3, frm (fr 9 1) (fun m => { m with dlmn := 1 }), { (frm (fr 9 1) (fun m => { m with dlmn := 1 })).route 0 false false false
      with vc := 6, src := 7, dst := 8, ttl := 254 }, 0, 8, rfl, by decide +kernel⟩,
   ⟨rtr (fun r => {r with hostUsed := [(26, 9), (30, 4)]}), 3, 5, 2, rfl, by decide +kernel⟩,
   ⟨rtr (fun r => {r with noRouteAt := [(44, 0)]}), 44, 0, by decide +kernel⟩,
   ⟨((gv.wr (R.GLD_MEMBER 0) F.GLD_MEMBER_SM1 5).wr (R.RTR_MAPCFG 0) F.RTR_MAPCFG_COUNT 6).setMapEntry 4 ⟨44, true⟩, 44, 0, 4, rfl,
      by decide +kernel⟩,
   ⟨rt, frm (fr 7 9) (fun m => { m with offset := 3}), 3, rfl, by decide +kernel⟩,
   ⟨rtr (fun r => {r with reasm := [⟨1, 8, 5, 2, []⟩]}), 8, 5, ⟨1, 8, 5, 2, []⟩, rfl, by decide +kernel⟩,
   ⟨gv, 0x1FFFFFFFF, rfl, by decide +kernel⟩,
   ⟨rt, 55, rfl, by decide +kernel⟩⟩

/-- States and operands that meet the hypotheses of each clause of RemoteAccess. -/
theorem test_witness_RemoteAccess :
    (∃ (s : State) (f : Frame) (c : Instr) (n : Nat), s.up ∧ s.homeRefusal f = some n ∧ (c = .lrd f ∨ c = .lwr f)) ∧
    (∃ (s : State) (f : Frame), s.up ∧ s.homeRefusal f = none ∧ f.msg.dlmn = s.lmn f.glade.val ∧ (s.gl f.glade.val).standIn = none ∧
      s.lineAway f.glade.val f.msg.offset = false ∧ f.msg.row = false ∧ s.lineServed f.msg.offset = true) ∧
    (∃ (s : State) (f : Frame), s.up ∧ s.homeRefusal f = none ∧ f.msg.dlmn ≠ s.lmn f.glade.val ∧ (s.gl f.glade.val).hosting.contains
      f.msg.dlmn = true ∧ f.msg.row = true) ∧
    (∃ (s : State) (f : Frame), s.up ∧ s.homeRefusal f = none ∧ f.msg.row = false ∧ ((f.msg.dlmn ≠ s.lmn f.glade.val ∧ (s.gl
      f.glade.val).hosting.contains f.msg.dlmn = true) ∨ (f.msg.dlmn = s.lmn f.glade.val ∧ (s.regionAt f.glade.val f.msg.offset).isSome
      = true ∧ ((s.gl f.glade.val).standIn.isSome = true ∨ s.lineAway f.glade.val f.msg.offset = true)))) ∧
    (∃ (s : State) (f : Frame), s.up ∧ s.homeRefusal f = none ∧ (s.watchedLine f.msg.offset = true ∨ (f.msg.dlmn ≠ s.lmn f.glade.val ∧
      (s.gl f.glade.val).hosting.contains f.msg.dlmn = true))) ∧
    (∃ (s : State) (f : Frame), s.up ∧ s.homeRefusal f = none ∧ s.watchedLine f.msg.offset = false ∧ s.lineServed f.msg.offset = true
      ∧ (s.gl f.glade.val).hosting.contains f.msg.dlmn = false) ∧
    (∃ (s : State) (f : Frame) (a : Access) (h : Nat) (c : Instr), s.up ∧ s.accessOf f = some a ∧ s.fromHolder a f = true ∧ a.host =
      some h ∧ vcCount s.router.hostUsed (8 * h + f.vc) + f.blocks ≤ 512 ∧ (c = .lrsp f ∨ c = .lwack f ∨ c = .err f)) ∧
    (∃ (s : State) (f : Frame) (a : Access) (c : Instr), s.up ∧ s.accessOf f = some a ∧ s.fromHolder a f = false ∧ (c = .lrsp f ∨ c =
      .lwack f ∨ c = .err f)) ∧
    (∃ (s : State) (f : Frame) (a : Access), s.up ∧ s.accessOf f = some a ∧ s.fromHolder a f = true ∧ a.host = none ∧ (leAt f.payload
      0 1 = 1 ∨ leAt f.payload 0 1 = 2)) ∧
    (∃ (s : State) (f : Frame), s.up ∧ s.router.hostUsed = [] ∧ f.blocks ≤ 512) ∧
    (∃ (s : State) (f : Frame) (w : InvWait) (i : Nat), s.up ∧ s.lmnOfPnid f.glade.val f.src = some i ∧ s.router.invs = [w] ∧ w.glade
      = f.glade.val ∧ w.txid = f.msg.txid ∧ w.targets = [i] ∧ w.answer = true) ∧
    (∃ (s : State) (g : GladeId) (i j x : Nat) (w : InvWait), s.up ∧ s.router.invs = [w] ∧ w.glade = g.val ∧ w.txid = x ∧ w.targets =
      [i, j] ∧ i ≠ j) :=
  ⟨⟨rt.setMask R.GRV_FENCE F.GRV_FENCE_FENCED 0, fr 7 1, .lrd (fr 7 1), 2, rfl, by decide +kernel, by simp <;> decide +kernel⟩,
   ⟨rt.writeBytes 0x900000 [1,2,3], frm (fr 7 1) (fun m => { m with offset := 0x900000 % 0x800000 + 0x400000}), rfl,
      by decide +kernel⟩,
   ⟨gl0 rt (fun x => {x with hosting := [2]}), frm (fr 7 1) (fun m => { m with offset := 0x500000, dlmn := 2, row := true}), rfl,
      by decide +kernel⟩,
   ⟨gl0 rt (fun x => {x with hosting := [1]}), frm (fr 7 1) (fun m => { m with offset := 0x100000, dlmn := 1}), rfl,
      by decide +kernel⟩,
   ⟨rt, frm (fr 7 4) (fun m => { m with offset := 0x100000}), rfl, by decide +kernel⟩,
   ⟨rt, { frm (fr 7 4) (fun m => { m with offset := 0x500000}) with payload := List.replicate 128 7 }, rfl, by decide +kernel⟩,
   ⟨rtr (fun r => {r with accesses := [acc0 (some 3)]}), fr 7 3, acc0 (some 3), 3, .lrsp (fr 7 3), rfl, by decide +kernel,
      by decide +kernel, by decide +kernel, by decide +kernel, by simp <;> decide +kernel⟩,
   ⟨rtr (fun r => {r with accesses := [{ acc0 (some 3) with lmn := 2 }]}), fr 7 3, { acc0 (some 3) with lmn := 2 }, .lrsp (fr 7 3),
      rfl, by decide +kernel, by decide +kernel, by simp <;> decide +kernel⟩,
   ⟨rtr (fun r => {r with accesses := [acc0 none]}), { fr 7 2 with payload := [1] }, acc0 none, rfl, by decide +kernel⟩,
   ⟨rtr (fun r => {r with accesses := [acc0 none]}), frm (fr 7 6) (fun m => { m with dlmn := 1 }), rfl, by decide +kernel⟩,
   ⟨rtr (fun r => {r with invs := [⟨0, 1, 9, [1], true⟩]}), fr 7 7, ⟨0, 1, 9, [1], true⟩, 1, rfl, by decide +kernel⟩,
   ⟨rtr (fun r => {r with invs := [⟨0, 1, 9, [1, 2], true⟩]}), 0, 1, 2, 1, ⟨0, 1, 9, [1, 2], true⟩, rfl, by decide +kernel⟩⟩

/-- States and operands that meet the hypotheses of each clause of LifeCycleAndBurns. -/
theorem test_witness_LifeCycleAndBurns :
    (∃ (s : State) (n : Nat) (k : BitVec 32) (c : Instr), s.aoUp ∧ (c, n) ∈ [(.enterManufacturing k, 1), (.enterProvisioned k, 2),
      (.enterDeployed k, 3), (.enterScrapped k, 5)]) ∧
    (∃ (s : State) (g : Fin 4) (a : BitVec 44) (r o : Nat), s.up ∧ s.aoUp ∧ s.on R.FUS_LCS F.FUS_LCS_BUSY = false ∧ o = a.toNat / 64 *
      64 ∧ r = (if ¬((s.lcs = 0 ∧ g = 3) ∨ (s.lcs = 1 ∧ 1 ≤ g.val)) then 1 else if s.groupBurnt g.val then 2 else 0) ∧ s.served o (8 *
      (groupWords g.val).2) = true) ∧
    (∃ (s : State) (b : Burn), s.aoUp ∧ s.sec.burn = some b) :=
  ⟨⟨u, 1, 0x0C5A0001, .enterManufacturing 0x0C5A0001, rfl, by simp <;> decide +kernel⟩,
   ⟨gv.writeBytes 0x500000 [1,2,3], 3, 0x500000, 0, 0x500000, rfl, rfl, by decide +kernel⟩,
   ⟨{ u with sec := { u.sec with burn := some ⟨[(3, 4), (5, 6)], some 2, false⟩ } }, ⟨[(3, 4), (5, 6)], some 2, false⟩, rfl,
      by decide +kernel⟩⟩

/-- States and operands that meet the hypotheses of each clause of KeysAndTokens. -/
theorem test_witness_KeysAndTokens :
    (∃ (s : State) (a : BitVec 44) (o q r : Nat) (b : List Byte), s.up ∧ o = a.toNat / 64 * 64 ∧ s.served o 192 = true ∧ b =
      s.readBytes o 192 ∧ r = s.blobResult b true ∧ q = leAt b 1 1 % 32) ∧
    (∃ (s : State) (a : BitVec 44) (c : Instr) (o r : Nat) (b : List Byte), s.up ∧ c ∈ [.debugUnlock a, .enterReturned a,
      .revokeImageKey a, .burnIkh1 a] ∧ o = a.toNat / 64 * 64 ∧ s.served o 264 = true ∧ b = s.readBytes o 264 ∧ r = s.tokenResult b
      true) :=
  ⟨⟨gv, 0x500000, 0x500000, 0, 1, gv.readBytes 0x500000 192, rfl, by decide +kernel⟩,
   ⟨gv, 0x500000, .debugUnlock 0x500000, 0x500000, gv.tokenResult (gv.readBytes 0x500000 264) true, gv.readBytes 0x500000 264, rfl,
      by simp <;> decide +kernel, by decide +kernel⟩⟩

/-- States and operands that meet the hypotheses of each clause of BusCommands. -/
theorem test_witness_BusCommands :
    (∃ (s : State) (w : BusId) (p : Fin 8) (q : Byte) (l : List Byte) (c : Instr), c ∈ [.busPing w p q l, .busRead w p q l, .busWrite
      w p q l, .busEvread w p q l, .busReset w p q l, .busIsolate w p q l, .busRelease w p q l, .busSuspect w p q l] ∧ 5 ≤ s.busState w) ∧
    (∃ (s : State) (w : BusId) (p : Fin 8) (q : Byte) (l : List Byte) (c : Instr) (n : Nat) (k : Kept), s.aoUp ∧ (c, n) ∈ [(.busPing w
      p q l, 1), (.busRead w p q l, 2), (.busWrite w p q l, 3), (.busEvread w p q l, 4), (.busReset w p q l, 5), (.busIsolate w p q l,
      6), (.busRelease w p q l, 7), (.busSuspect w p q l, 8)] ∧ s.busUsable w = true ∧ s.repeated n q l = some k) ∧
    (∃ (s : State) (w : BusId) (p : Fin 8) (q : Byte) (l : List Byte) (c : Instr) (n : Nat), s.aoUp ∧ (c, n) ∈ [(.busRead w p q l, 2),
      (.busEvread w p q l, 4), (.busReset w p q l, 5), (.busIsolate w p q l, 6), (.busRelease w p q l, 7), (.busSuspect w p q l, 8)] ∧
      s.busUsable w = true ∧ s.repeated n q l = none ∧ l.length < 8) ∧
    (∃ (s : State) (w : BusId) (p : Fin 8) (q : Byte) (l : List Byte), s.aoUp ∧ s.busUsable w = true ∧ s.repeated 1 q l = none) ∧
    (∃ (s : State) (w : BusId) (p : Fin 8) (q : Byte) (l : List Byte) (v : Word), s.aoUp ∧ s.busUsable w = true ∧ s.repeated 2 q l =
      none ∧ 8 ≤ l.length ∧ leAt l 0 4 ∈ [R.GLB_ID, R.GLB_BOOT, R.MGB_STATUS] ∧ leAt l 4 1 = 1 ∧ slice l 5 3 = zeros 3 ∧ s.peek (leAt l
      0 4) = some v) ∧
    (∃ (s : State) (w : BusId) (p : Fin 8) (q : Byte) (l : List Byte) (a : Nat) (v : Word), s.aoUp ∧ s.busUsable w = true ∧ s.repeated
      3 q l = none ∧ 16 ≤ l.length ∧ a = leAt l 0 4 ∧ v = BitVec.ofNat 64 (leAt l 8 8) ∧ a % 8 = 0 ∧ a < 0x1000000 ∧ slice l 4 4 = zeros
      4) ∧
    (∃ (s : State) (w : BusId) (p : Fin 8) (q : Byte) (l : List Byte) (r : Record), s.aoUp ∧ s.busUsable w = true ∧ s.repeated 4 q l =
      none ∧ 8 ≤ l.length ∧ slice l 4 4 = zeros 4 ∧ s.shownAt (leAt l 0 4) = some r) :=
  ⟨⟨bst 5, .a, 1, 7, [1,2], .busPing .a 1 7 [1,2], by simp <;> decide +kernel, by decide +kernel⟩,
   ⟨bs (fun b => {b with kept := [kept0 2]}), .a, 1, 7, [1,2], .busRead .a 1 7 [1,2], 2, kept0 2, rfl, by simp <;> decide +kernel,
      by decide +kernel⟩,
   ⟨u, .a, 1, 7, [1,2], .busEvread .a 1 7 [1,2], 4, rfl, by simp <;> decide +kernel, by decide +kernel⟩,
   ⟨u, .a, 1, 7, [1,2], rfl, by decide +kernel⟩,
   ⟨u, .a, 1, 7, leBytes 4 R.MGB_STATUS ++ [1, 0, 0, 0], (u.peek R.MGB_STATUS).getD 0, rfl, by decide +kernel⟩,
   ⟨u, .a, 1, 7, leBytes 4 R.TST_SEED ++ zeros 4 ++ leBytes 8 99, R.TST_SEED, 99, rfl, by decide +kernel⟩,
   ⟨evs (fun e => {e with store := [rec0 2], nextSeq := 1}), .a, 1, 7, l32 0, rec0 2, rfl, by decide +kernel⟩⟩

/-- States and operands that meet the hypotheses of each clause of BusControlAndEvents. -/
theorem test_witness_BusControlAndEvents :
    (∃ (s : State) (w : BusId) (p : Fin 8) (q : Byte) (l : List Byte), s.aoUp ∧ s.busState w < 5 ∧ s.repeated 5 q l = none ∧ 8 ≤
      l.length ∧ slice l 4 4 = zeros 4 ∧ leAt l 0 4 = 0x0C5A0100 ∧ s.on R.MGB_STATUS F.MGB_STATUS_ISOLATED = false ∧ s.on R.GLB_STORM
      F.GLB_STORM_HOLD = false ∧ s.ao.rstN = false) ∧
    (∃ (s : State) (w : BusId) (p : Fin 8) (q : Byte) (l : List Byte), s.aoUp ∧ s.busState w < 5 ∧ s.repeated 6 q l = none ∧ 8 ≤
      l.length ∧ slice l 4 4 = zeros 4 ∧ leAt l 0 4 = 0x0C5A0200 ∧ s.on R.MGB_STATUS F.MGB_STATUS_ISOLATED = false) ∧
    (∃ (s : State) (w : BusId) (p : Fin 8) (q : Byte) (l : List Byte), s.aoUp ∧ s.busState w < 5 ∧ s.repeated 7 q l = none ∧ 8 ≤
      l.length ∧ slice l 4 4 = zeros 4 ∧ leAt l 0 4 = 0x0C5A0300 ∧ s.on R.MGB_STATUS F.MGB_STATUS_ISOLATED = true ∧ (s.wr R.MGB_STATUS
      F.MGB_STATUS_ISOLATED 0).canStart = true ∧ s.startCount < 9) ∧
    (∃ (s : State) (w : BusId) (p : Fin 8) (q : Byte) (l : List Byte) (c : Instr) (n k : Nat), s.aoUp ∧ s.busUsable w = true ∧ (c, n,
      k) ∈ [(.busReset w p q l, 5, 0x0C5A0100), (.busIsolate w p q l, 6, 0x0C5A0200), (.busRelease w p q l, 7, 0x0C5A0300)] ∧ s.repeated
      n q l = none ∧ 8 ≤ l.length ∧ slice l 4 4 = zeros 4 ∧ leAt l 0 4 ≠ k) ∧
    (∃ (s : State) (w : BusId) (p : Fin 8) (q : Byte) (l : List Byte) (n : Byte), s.aoUp ∧ s.busUsable w = true ∧ s.repeated 8 q l =
      none ∧ 8 ≤ l.length ∧ leAt l 0 1 < 16 ∧ slice l 1 1 = [0] ∧ slice l 4 4 = zeros 4 ∧ ((n = 8 ∧ s.rd R.GLB_BOOT F.GLB_BOOT_STAGE ≠
      5) ∨ (n = 7 ∧ s.rd R.GLB_BOOT F.GLB_BOOT_STAGE = 5 ∧ s.rangerHalted = true))) ∧
    (∃ (s : State) (w : BusId) (p : Fin 8) (q : Byte) (l : List Byte) (g m : Nat), s.aoUp ∧ s.busUsable w = true ∧ s.repeated 8 q l =
      none ∧ 8 ≤ l.length ∧ g = leAt l 0 1 ∧ m = leAt l 2 2 ∧ g < 16 ∧ slice l 1 1 = [0] ∧ slice l 4 4 = zeros 4 ∧ s.rd R.GLB_BOOT
      F.GLB_BOOT_STAGE = 5 ∧ s.rangerHalted = false ∧ s.inGrove g = true ∧ s.fenced g = false ∧ m ≠ s.lmn g ∧ s.lmnOfSlot g (m %
      s.groveN g) = m ∧ (s.gl g).agreement = none) ∧
    (∃ (s : State) (w : BusId), s.aoUp ∧ s.busState w < 5 ∧ s.bus.held = []) ∧
    (∃ (s : State) (n : Notice) (w : BusId), s.aoUp ∧ s.nextNotice = some n ∧ s.noticeBus = some w ∧ 0 < s.bus.tokens) ∧
    (∃ (s : State), s.bus.tokens = 0) ∧
    (∃ (s : State), s.aoUp) ∧
    (∃ (s : State), s.aoUp) ∧
    (∃ (s : State) (w : BusId) (e r : Nat), s.aoUp ∧ s.bus.held = [] ∧ s.busState w < 3) ∧
    (∃ (s : State) (w : BusId) (e r : Nat), s.aoUp ∧ s.bus.held = [] ∧ s.busState w < 4) ∧
    (∃ (s : State) (w : BusId), s.aoUp ∧ s.busUsable w = true ∧ s.bus.held = [] ∧ s.sent = []) ∧
    (∃ (s : State) (w : BusId) (n : Nat) (l : List Byte), s.aoUp ∧ s.busUsable w = true ∧ s.busUsable w.other = true ∧ s.bus.held = []
      ∧ s.sent = [.trail w n l] ∧ bitsOf n 13 6 ≠ 0x20 ∧ bitsOf n 13 6 ≠ 0x21) ∧
    (∃ (s : State) (w : BusId), s.aoUp ∧ s.busState w = 4 ∧ s.bus.held = []) ∧
    (∃ (s : State) (h : HeldResponse) (r : List HeldResponse), s.aoUp ∧ s.bus.held = h :: r) :=
  ⟨⟨gv, .a, 1, 7, l32 0x0C5A0100, rfl, by decide +kernel⟩,
   ⟨gv, .a, 1, 7, l32 0x0C5A0200, rfl, by decide +kernel⟩,
   ⟨st0.wr R.MGB_STATUS F.MGB_STATUS_ISOLATED 1, .a, 1, 7, l32 0x0C5A0300, rfl, by decide +kernel⟩,
   ⟨gv, .a, 1, 7, l32 0x0C5A0300, .busReset .a 1 7 (l32 0x0C5A0300), 5, 0x0C5A0100, rfl, by decide +kernel,
      by simp <;> decide +kernel, by decide +kernel⟩,
   ⟨gv, .a, 1, 7, l32 0, 8, rfl, by decide +kernel⟩,
   ⟨gv.wr R.GLB_BOOT F.GLB_BOOT_STAGE 5, .a, 1, 7, l32 0x20000, 0, 2, rfl, by decide +kernel⟩,
   ⟨u, .a, rfl, by decide +kernel⟩,
   ⟨bs (fun b => {b with notices := [not0 1, not0 2]}), not0 2, .a, rfl, by decide +kernel⟩,
   ⟨bs (fun b => {b with tokens := 0}), by decide +kernel⟩,
   ⟨bs (fun b => {b with tokens := 0}), rfl⟩,
   ⟨u, rfl⟩,
   ⟨u, .a, 300, 20, rfl, by decide +kernel⟩,
   ⟨bst 1, .a, 30, 20, rfl, by decide +kernel⟩,
   ⟨u, .a, rfl, by decide +kernel⟩,
   ⟨{ u with sent := [.trail .a (u.trailId 1 2 3 .a) [1]] }, .a, u.trailId 1 2 3 .a, [1], rfl, by decide +kernel⟩,
   ⟨bst 4, .a, rfl, by decide +kernel⟩,
   ⟨bs (fun b => {b with held := [⟨.a, 3, [1]⟩]}), ⟨.a, 3, [1]⟩, [], rfl, by decide +kernel⟩⟩

/-- States and operands that meet the hypotheses of each clause of Recorder. -/
theorem test_witness_Recorder :
    (∃ (s : State) (r : Record), s.aoUp ∧ s.arbiterNext = some r) ∧
    (∃ (s : State) (r : Record) (l : List Record), s.aoUp ∧ s.evr.queue = r :: l ∧ s.evr.store.length < 8192) ∧
    (∃ (s : State) (r : Record) (l : List Record), s.aoUp ∧ s.evr.queue = r :: l ∧ s.evr.store.length = 8192 ∧ s.leastSev ≤ r.sev ∧ (∀
      x, x ∈ s.evr.store → x.sev ≤ 3)) ∧
    (∃ (s : State) (r : Record) (l : List Record), s.aoUp ∧ s.evr.queue = r :: l ∧ 8192 ≤ s.evr.store.length ∧ r.sev < s.leastSev) ∧
    (∃ (s : State) (w : Fin 3) (r : Option Record), s.aoUp ∧ r = (if w = 0 ∨ s.evr.latch = none then s.shown else s.evr.latch)) ∧
    (∃ (s : State) (r : Record), s.aoUp ∧ s.shown.isSome = true ∧ (if s.evr.latch = none then s.shown else s.evr.latch) = some r) ∧
    (∃ (s : State) (v : Word), s.aoUp) :=
  ⟨⟨evs (fun e => {e with holding := [rec0 1, rec0 2]}), rec0 2, rfl, by decide +kernel⟩,
   ⟨evs (fun e => {e with queue := [rec0 2], nextSeq := 4, lostPending := 2}), rec0 2, [], rfl, by decide +kernel⟩,
   ⟨evs (fun e => {e with queue := [rec0 2], store := List.replicate 8192 (rec0 1), nextSeq := 4}), rec0 2, [], rfl,
      by decide +kernel, List.length_replicate, by rw [W.leastSev_full _ 1 rfl]; decide, fun x hx => List.eq_of_mem_replicate hx ▸
      (by decide)⟩,
   ⟨evs (fun e => {e with queue := [rec0 0], store := List.replicate 8192 (rec0 1), nextSeq := 4}), rec0 0, [], rfl,
      by decide +kernel, Nat.le_of_eq (List.length_replicate).symm, by rw [W.leastSev_full _ 1 rfl]; decide⟩,
   ⟨evs (fun e => {e with store := [rec0 1], nextSeq := 1}), 0, some (rec0 1), rfl, by decide +kernel⟩,
   ⟨evs (fun e => {e with store := [rec0 1], nextSeq := 1}), rec0 1, rfl, by decide +kernel, (if_pos
      (by decide +kernel)).trans (by decide +kernel)⟩,
   ⟨evs (fun e => {e with latch := some (rec0 1)}), 0x1FFFFFFFF, rfl⟩⟩

/-- States and operands that meet the hypotheses of each clause of Waypoints. -/
theorem test_witness_Waypoints :
    (∃ (s : State) (v : Word), s.aoUp ∧ fget v F.WPT_CTL_TRIG = 0) ∧
    (∃ (s : State) (c : Instr) (n : Nat), s.aoUp ∧ (c, n) ∈ [(.trig, 1), (.waypointIn, 2)] ∧ (n = 1 ∨ bitAt (s.rd R.WPT_CTL
      F.WPT_CTL_SRCEN) 1 = true) ∧ s.on R.WPT_STAT F.WPT_STAT_TAKEN = true) ∧
    (∃ (s : State) (c : Instr) (n : Nat), s.aoUp ∧ (c, n) ∈ [(.trig, 1), (.waypointIn, 2)] ∧ (n = 1 ∨ bitAt (s.rd R.WPT_CTL
      F.WPT_CTL_SRCEN) 1 = true) ∧ s.on R.WPT_STAT F.WPT_STAT_TAKEN = false ∧ s.on R.WPT_CTL F.WPT_CTL_ARM = true ∧ s.waypoint = none ∧
      s.rd R.WPT_CTL F.WPT_CTL_SCOPE = 0) ∧
    (∃ (s : State) (c : Instr) (n : Nat), s.up ∧ s.aoUp ∧ (c, n) ∈ [(.trig, 1), (.waypointIn, 2)] ∧ (n = 1 ∨ bitAt (s.rd R.WPT_CTL
      F.WPT_CTL_SRCEN) 1 = true) ∧ s.on R.WPT_STAT F.WPT_STAT_TAKEN = false ∧ s.on R.WPT_CTL F.WPT_CTL_ARM = true ∧ s.waypoint = none ∧
      s.rd R.WPT_CTL F.WPT_CTL_SCOPE ≠ 0 ∧ s.rd R.WPT_CTL F.WPT_CTL_GPHASE ≠ 0xFFFF) ∧
    (∃ (s : State) (g : GladeId) (o q : Nat) (f : BitVec 16), s.up ∧ s.wptGlade = g.val ∧ bitAt (s.rd R.WPT_CTL F.WPT_CTL_SRCEN) 3 =
      true ∧ s.on R.WPT_STAT F.WPT_STAT_TAKEN = false ∧ s.on R.WPT_CTL F.WPT_CTL_ARM = true ∧ s.waypoint = none) ∧
    (∃ (s : State) (p : WaypointPending), s.aoUp ∧ s.canonical ∧ s.waypoint = some p ∧ p.due = true ∧ s.wptReady = true ∧ p.cause < 8) ∧
    (∃ (s : State), s.aoUp) :=
  ⟨⟨u, 0, rfl, by decide +kernel⟩,
   ⟨wp [(R.WPT_STAT, F.WPT_STAT_TAKEN, 1)], .waypointIn, 2, rfl, by simp <;> decide +kernel, by decide +kernel⟩,
   ⟨(u.wr R.WPT_CTL F.WPT_CTL_ARM 1), .trig, 1, rfl, by simp <;> decide +kernel, by decide +kernel⟩,
   ⟨wp [(R.WPT_CTL, F.WPT_CTL_SCOPE, 2), (R.WPT_CTL, F.WPT_CTL_GPHASE, 7)], .waypointIn, 2, rfl, rfl, by simp <;> decide +kernel,
      by decide +kernel⟩,
   ⟨wp [], 0, 3, 5, 0xFFFF, rfl, by decide +kernel⟩,
   ⟨{ wp [(R.WPT_MAP 0, F.WPT_MAP_VALID, 1), (R.WPT_MAP 0, F.WPT_MAP_ADDR, R.WPT_CTL / 8), (R.WPT_MAP 7, F.WPT_MAP_VALID, 1), (R.WPT_MAP 7, F.WPT_MAP_ADDR, R.WPT_STAT / 8)] with waypoint := some ⟨true, 0, 0, 1, 7, false⟩ },
      ⟨true, 0, 0, 1, 7, false⟩, rfl, by unfold State.canonical; decide +kernel, by decide +kernel⟩,
   ⟨{ u with ao := { u.ao with waypointOut := true } }, rfl⟩⟩

/-- States and operands that meet the hypotheses of each clause of RangerDebug. -/
theorem test_witness_RangerDebug :
    (∃ (s : State) (c : Instr) (n : Nat), s.up ∧ s.haltOpen = true ∧ s.locks = 0 ∧ ((c = .halt ∧ n = 1 ∧ s.rd R.RGR_DSTAT
      F.RGR_DSTAT_STATE = 0) ∨ (c = .forceHalt 0x0C5A0400 ∧ n = 2 ∧ s.rd R.RGR_DSTAT F.RGR_DSTAT_STATE < 2) ∨ (c = .haltProceed ∧ n =
      s.rd R.RGR_DSTAT F.RGR_DSTAT_CAUSE ∧ s.rd R.RGR_DSTAT F.RGR_DSTAT_STATE = 1))) ∧
    (∃ (s : State), s.up ∧ s.haltOpen = true ∧ s.locks ≠ 0 ∧ s.rd R.RGR_DSTAT F.RGR_DSTAT_STATE = 0) ∧
    (∃ (s : State), s.up ∧ s.haltOpen = true ∧ s.locks ≠ 0 ∧ s.rangerHalted = false) ∧
    (∃ (s : State) (c : Instr), s.up ∧ s.haltOpen = false ∧ c ∈ [.halt, .forceHalt 0x0C5A0400, .rangerStep]) ∧
    (∃ (s : State) (k : BitVec 32), k.toNat ≠ 0x0C5A0400) ∧
    (∃ (s : State), s.up ∧ s.haltOpen = true ∧ s.rangerHalted = true) ∧
    (∃ (s : State), s.up ∧ s.rangerHalted = true) ∧
    (∃ (s : State), s.up ∧ s.rd R.RGR_DSTAT F.RGR_DSTAT_STATE = 1) ∧
    (∃ (s : State) (x : Fin 4), s.up ∧ s.haltOpen = true ∧ s.locks = 0 ∧ s.rd R.RGR_DSTAT F.RGR_DSTAT_STATE = 0 ∧ s.on (R.RGR_BKPT
      x.val) F.RGR_BKPT_EN = true) ∧
    (∃ (s : State) (w : Bool) (v x : Word), s.aoUp ∧ s.peek R.RGR_DDATA = some x) ∧
    (∃ (s : State) (w : Bool) (v : Word), s.aoUp ∧ s.rangerHalted = false) :=
  ⟨⟨dbg [], .halt, 1, rfl, by decide +kernel, by decide +kernel, by simp <;> decide +kernel⟩,
   ⟨agr (dbg []) ag0, rfl, by decide +kernel⟩,
   ⟨agr (dbg []) ag0, rfl, by decide +kernel⟩,
   ⟨gv.wr R.FUS_LCS F.FUS_LCS_STATE 3, .halt, rfl, by decide +kernel, by simp <;> decide +kernel⟩,
   ⟨gv, 5, by decide +kernel⟩,
   ⟨dbg [(R.RGR_DSTAT, F.RGR_DSTAT_STATE, 2)], rfl, by decide +kernel⟩,
   ⟨dbg [(R.RGR_DSTAT, F.RGR_DSTAT_STATE, 2)], rfl, by decide +kernel⟩,
   ⟨dbg [(R.RGR_DSTAT, F.RGR_DSTAT_STATE, 1)], rfl, by decide +kernel⟩,
   ⟨dbg [(R.RGR_BKPT 2, F.RGR_BKPT_EN, 1), (R.RGR_BKPT 2, F.RGR_BKPT_ADDR, 55)], 2, rfl, by decide +kernel⟩,
   ⟨dbg [(R.RGR_DSTAT, F.RGR_DSTAT_STATE, 2), (R.RGR_DADDR, F.RGR_DADDR_ADDR, 8)], true, 77, 0, rfl, by decide +kernel⟩,
   ⟨gv, true, 77, rfl, by decide +kernel⟩⟩

/-- States and operands that meet the hypotheses of each clause of SelfTest. -/
theorem test_witness_SelfTest :
    (∃ (s : State) (c : Instr), s.aoUp ∧ s.runRefusal = 0 ∧ (c = .bistGo ∨ (c = .wsBist ∧ s.test.wir = 6))) ∧
    (∃ (s : State) (c : Instr), s.aoUp ∧ s.runRefusal ≠ 0 ∧ (c = .bistGo ∨ (c = .wsBist ∧ s.test.wir = 6))) ∧
    (∃ (s : State) (x : Nat), s.aoUp ∧ s.on R.TST_STATUS F.TST_STATUS_BUSY = true ∧ s.test.running = [x] ∧ s.test.boot = false ∧ x <
      64) ∧
    (∃ (s : State), s.aoUp ∧ s.lcs ≠ 5 ∧ (∀ g, g < 16 → s.inGrove g = false) ∧ s.testing = false) ∧
    (∃ (s : State) (n : BitVec 32) (l : List (BitVec 8)), s.aoUp ∧ s.on R.TST_LTEST F.TST_LTEST_BUSY = true) ∧
    (∃ (s : State) (x : Fin 8) (d m k l : Nat), s.up ∧ 0 < min k l) ∧
    (∃ (s : State), s.aoUp ∧ s.sramOpen = false) ∧
    (∃ (s : State) (v : Word), s.aoUp ∧ s.sramOpen = true ∧ s.peek R.TST_SRDATA = some v) ∧
    (∃ (s : State) (c : Instr) (l : List Bool) (n : Nat), s.aoUp ∧ (c, n) ∈ [(.wsBypass, 0), (.wsExtest, 1), (.wsPreload l, 2),
      (.wsClamp, 3), (.wsIdcode, 4), (.wsIntestScan, 5)]) :=
  ⟨⟨tst [(R.TST_SELT, ⟨0, 64⟩, 5)] id, .bistGo, rfl, by decide +kernel, by simp <;> decide +kernel⟩,
   ⟨tst [] id, .bistGo, rfl, by decide +kernel, by simp <;> decide +kernel⟩,
   ⟨tst [(R.TST_STATUS, F.TST_STATUS_BUSY, 1)] (fun t => {t with running := [5], boot := false, plog := 9}), 5, rfl,
      by decide +kernel⟩,
   ⟨tst [(R.TST_SELT, ⟨0, 64⟩, 5)] id, rfl, by decide +kernel⟩,
   ⟨tst [(R.TST_LTEST, F.TST_LTEST_BUSY, 1)] (fun t => {t with links := 5}), 4, [3, 4, 5], rfl, by decide +kernel⟩,
   ⟨u, 3, 5, 10, 9, 300, rfl, by decide +kernel⟩,
   ⟨u.wr R.FUS_LCS F.FUS_LCS_STATE 2, rfl, by decide +kernel⟩,
   ⟨u, (u.peek R.TST_SRDATA).getD 0, rfl, by decide +kernel⟩,
   ⟨u, .wsIdcode, [], 4, rfl, by simp <;> decide +kernel⟩⟩

end Sys2Proof.Machine
end

section
/-! PROOF. Access codes (R7): the fields of a register share no bit, so the mask of an access code has, at the bits of a field, exactly
what the field's own code says. -/
namespace Sys2Proof.Machine

/-- The bits that a row of a field table covers. -/
abbrev FieldRow.fld (f : FieldRow) : Fld := ⟨f.lo, f.width⟩

/-- The rows of a field table lie inside a word, and no two share a bit. -/
def separated (l : List FieldRow) : Bool :=
  decide (l.Pairwise fun f g => f.fld.apart g.fld = true) && l.all fun f => f.fld.ok

/-- Every register of a block has a separated field table. -/
def blockSeparated (b : List RegRow) : Bool := b.all fun r => separated r.fields

/-- The register index is separated, block by block (R436 to R451). -/
theorem blockSeparated_blockRows (a : Nat) : blockSeparated (blockRows a) = true := by
  unfold blockRows
  repeat' refine iteInduction (motive := fun b => blockSeparated b = true) (fun _ => ?_) fun _ => ?_
  all_goals decide +kernel

theorem separated_fieldsAt (a : Nat) : separated (fieldsAt a) = true := by
  unfold fieldsAt
  cases h : findReg a with
  | none => rfl
  | some x =>
    obtain ⟨r, hr, hx⟩ := List.exists_of_findSome?_eq_some h
    obtain ⟨ij, -, rfl⟩ := Option.map_eq_some_iff.mp hx
    exact List.all_eq_true.mp (blockSeparated_blockRows a) r hr

/-- Two fields of one register that cover the same bit are one field. -/
theorem fieldsAt_inj {a i : Nat} {f g : FieldRow} (hf : f ∈ fieldsAt a) (hg : g ∈ fieldsAt a)
    (hfi : f.lo ≤ i ∧ i < f.lo + f.width) (hgi : g.lo ≤ i ∧ i < g.lo + g.width) : g = f := by
  have hs := separated_fieldsAt a
  simp only [separated, Bool.and_eq_true, decide_eq_true_eq] at hs
  have hsymm : Std.Symm fun f g : FieldRow => f.fld.apart g.fld = true :=
    ⟨fun f g h => by simpa [Fld.apart, or_comm] using h⟩
  by_contra hne
  have := hs.1.forall hg hf hne
  simp only [Fld.apart, Bool.or_eq_true, decide_eq_true_eq] at this
  omega

theorem fieldsAt_lt {a i : Nat} {f : FieldRow} (hf : f ∈ fieldsAt a) (hi : i < f.lo + f.width) : i < 64 := by
  have hs := separated_fieldsAt a
  simp only [separated, Bool.and_eq_true, List.all_eq_true] at hs
  have := hs.2 f hf
  simp only [Fld.ok, decide_eq_true_eq] at this
  omega

section Masks
variable {step : Word → FieldRow → Word} {p : Acc → Bool}

/-- A mask that is collected from the fields with certain access codes has the bits of those fields. -/
theorem getLsbD_foldl_mask (hstep : ∀ m f, step m f = if p f.acc then m ||| fmask f.fld else m) (l : List FieldRow) (m : Word)
    (i : Nat) :
    (l.foldl step m).getLsbD i = (m.getLsbD i || l.any fun f => p f.acc && (fmask f.fld).getLsbD i) := by
  induction l generalizing m with
  | nil => simp
  | cons f l ih =>
    rw [List.foldl_cons, ih, hstep]
    cases hp : p f.acc <;> simp [hp, Bool.or_assoc]

/-- At a bit of a field, such a mask says whether the field's own access code is among them. -/
theorem getLsbD_mask_fieldsAt (hstep : ∀ m f, step m f = if p f.acc then m ||| fmask f.fld else m) {a i : Nat} {f : FieldRow}
    (hf : f ∈ fieldsAt a) (hlo : f.lo ≤ i) (hhi : i < f.lo + f.width) :
    ((fieldsAt a).foldl step 0).getLsbD i = p f.acc := by
  have hi := fieldsAt_lt hf hhi
  rw [getLsbD_foldl_mask hstep, Bool.eq_iff_iff]
  simp only [BitVec.ofNat_eq_ofNat, BitVec.getLsbD_zero, Bool.false_or, List.any_eq_true]
  constructor
  · rintro ⟨g, hg, hgi⟩
    simp only [getLsbD_fmask, Bool.and_eq_true, decide_eq_true_eq] at hgi
    obtain ⟨hp, ⟨-, hglo⟩, hghi⟩ := hgi
    exact fieldsAt_inj hf hg ⟨hlo, hhi⟩ ⟨hglo, hghi⟩ ▸ hp
  · intro hp
    exact ⟨f, hf, by simp [getLsbD_fmask, hp, hi, hlo, hhi]⟩

end Masks

section Codes
variable {a i : Nat} {f : FieldRow} (hf : f ∈ fieldsAt a) (hlo : f.lo ≤ i) (hhi : i < f.lo + f.width)
include hf hlo hhi

theorem getLsbD_rwMask : (rwMask a).getLsbD i = decide (f.acc = .rw) :=
  getLsbD_mask_fieldsAt (p := fun c => decide (c = .rw)) (fun m g => by simp) hf hlo hhi

theorem getLsbD_w1cMask : (w1cMask a).getLsbD i = decide (f.acc = .w1c) :=
  getLsbD_mask_fieldsAt (p := fun c => decide (c = .w1c)) (fun m g => by simp) hf hlo hhi

theorem getLsbD_w1sMask : (w1sMask a).getLsbD i = decide (f.acc = .w1s) :=
  getLsbD_mask_fieldsAt (p := fun c => decide (c = .w1s)) (fun m g => by simp) hf hlo hhi

theorem getLsbD_rcMask : (rcMask a).getLsbD i = decide (f.acc = .rc) :=
  getLsbD_mask_fieldsAt (p := fun c => decide (c = .rc)) (fun m g => by simp) hf hlo hhi

theorem getLsbD_readMask : (readMask a).getLsbD i = !decide (f.acc = .wo ∨ f.acc = .rsv) := by
  refine getLsbD_mask_fieldsAt (p := fun c => !decide (c = .wo ∨ c = .rsv)) (fun m g => ?_) hf hlo hhi
  cases g.acc <;> simp

/-- What a write does to a bit of a field (R7). -/
theorem getLsbD_writeByCode (old v : Word) :
    (writeByCode a old v).getLsbD i =
      match f.acc with
      | .rw => v.getLsbD i
      | .w1c => old.getLsbD i && !v.getLsbD i
      | .w1s => old.getLsbD i || v.getLsbD i
      | _ => old.getLsbD i := by
  have hi := fieldsAt_lt hf hhi
  simp only [writeByCode, BitVec.getLsbD_or, BitVec.getLsbD_and, BitVec.getLsbD_not, getLsbD_rwMask hf hlo hhi,
    getLsbD_w1cMask hf hlo hhi, getLsbD_w1sMask hf hlo hhi, hi]
  cases f.acc <;> simp

/-- What a read leaves of a bit of a field (R7). -/
theorem getLsbD_readByCode (old : Word) :
    (readByCode a old).getLsbD i = if f.acc = .rc then (resetWord a).getLsbD i else old.getLsbD i := by
  have hi := fieldsAt_lt hf hhi
  simp only [readByCode, BitVec.getLsbD_or, BitVec.getLsbD_and, BitVec.getLsbD_not, getLsbD_rcMask hf hlo hhi, hi]
  by_cases hrc : f.acc = .rc <;> simp [hrc]

/-- What a read shows of a bit of a field (R7, R9). -/
theorem getLsbD_and_readMask (old : Word) :
    (old &&& readMask a).getLsbD i = if f.acc = .wo ∨ f.acc = .rsv then false else old.getLsbD i := by
  rw [BitVec.getLsbD_and, getLsbD_readMask hf hlo hhi]
  by_cases hw : f.acc = .wo ∨ f.acc = .rsv <;> simp [hw]

end Codes

end Sys2Proof.Machine
end

section
/-! PROOF. One access on the register port (R6, R7, R10, R15, R116): which accesses get an error response, and what the others do. -/
namespace Sys2Proof.Machine

namespace State
variable {s : State} {a : Nat}

theorem inAo_of_aoUp (h : s.aoUp) (f : State → State) : s.inAo f = f s := by
  have h' : s.ao.aoReset = false := h
  simp [inAo, h']

/-- An error response sets the response alone (R6). -/
theorem respond_none (s : State) : s.respond none = { s with ao := { s.ao with rspErr := true, rspData := 0 } } := rfl

/-- An answer with data sets the response alone. -/
theorem respond_some (s : State) (w : Word) : s.respond (some w) = { s with ao := { s.ao with rspErr := false, rspData := w } } := rfl

theorem reg_respond (s : State) (r : Option Word) (a : Nat) : (s.respond r).reg a = s.reg a := rfl

/-- Nothing answers at an address: it is misaligned, holds no register, or lies in a block that does not answer (R6, R15). -/
def silent (s : State) (a : Nat) : Prop := a % 8 ≠ 0 ∨ isReg a = false ∨ s.answers a = false

/-- A read of a generator's output waits for it on the port (R116). -/
def rngWaits (s : State) (a : Nat) : Prop :=
  ∃ t, tileOfAddr a = some t ∧ s.answers a = true ∧ (s.tl t).rngPending = true ∧ (a = R.TIL_RNGOUT0 t ∨ a = R.TIL_RNGOUT1 t)

/-! ## Accesses at which nothing answers -/

theorem silent.writeErr (h : s.silent a) : s.writeErr a = true := by
  obtain h | h | h := h <;> simp [State.writeErr, h]

theorem silent.peek (h : s.silent a) : s.peek a = none := by
  obtain h | h | h := h <;> simp [State.peek, h]

theorem silent.ne_srdata (h : s.silent a) : a ≠ R.TST_SRDATA := by
  rintro rfl
  obtain h | h | h := h
  · exact absurd h (by decide)
  · exact absurd h (by decide +kernel)
  · exact absurd h (by simp [answers, show isAoAddr R.TST_SRDATA = true by decide])

/-- The window through which registers are peeked at holds none of its own, so nothing is written there (R10). -/
theorem isReg_peekWindow (h : 0x800000 ≤ a) : isReg a = false := by
  have : blockRows a = [] := by
    unfold blockRows
    iterate 17 rw [if_neg (by omega)]
  simp [isReg, findReg, this]

theorem tileOfAddr_some {t : Nat} (h : tileOfAddr a = some t) :
    0x100000 ≤ a ∧ a < 0x140000 ∧ t = (a - 0x100000) / 0x1000 := by
  unfold tileOfAddr at h
  split at h
  · obtain ⟨hlo, hhi⟩ := ‹_ ∧ _›
    exact ⟨hlo, hhi, (Option.some.inj h).symm⟩
  · cases h

/-- Every tile has its two generator output registers. -/
theorem isReg_rngOut : ∀ t < 64, isReg (R.TIL_RNGOUT0 t) = true ∧ isReg (R.TIL_RNGOUT1 t) = true := by decide +kernel

theorem silent.not_rngWaits (h : s.silent a) : ¬s.rngWaits a := by
  rintro ⟨t, ht, hans, -, hout⟩
  obtain ⟨hlo, hhi, htile⟩ := tileOfAddr_some ht
  obtain ⟨hreg0, hreg1⟩ := isReg_rngOut t (by omega)
  obtain h | h | h := h
  · simp only [R.TIL_RNGOUT0, R.TIL_RNGOUT1] at hout
    omega
  · have hreg : isReg a = true := hout.elim (fun e => e ▸ hreg0) fun e => e ▸ hreg1
    cases hreg.symm.trans h
  · simp [hans] at h

/-- Nothing of a MAIN block answers while MAIN is in reset (R15). -/
theorem silent_of_not_up (h : ¬s.up) (hmain : isAoAddr a = false) : s.silent a := by
  have hrun : s.ao.mainRun = false := by simpa [up] using h
  exact .inr (.inr (by simp [answers, mainUp, hmain, hrun]))

/-! ## Reads -/

theorem not_rngWaits_of_peekWindow (h : 0x800000 ≤ a) : ¬s.rngWaits a := by
  rintro ⟨t, ht, -⟩
  have := tileOfAddr_some ht
  omega

/-- A read on the port that waits for no generator is answered at once. -/
theorem accessRead_port (h : ¬s.rngWaits a) : s.accessRead .port a 0xFF = (s.readReg a).2.respond (s.readReg a).1 := by
  unfold accessRead
  cases ht : tileOfAddr a with
  | none => simp
  | some t =>
    have : ¬(s.answers a && (s.tl t).rngPending && (a = R.TIL_RNGOUT0 t || a = R.TIL_RNGOUT1 t)) = true := fun hw =>
      h ⟨t, ht, by simpa [and_assoc] using hw⟩
    simp [this]

theorem rngSettle_of_not_rngWaits (h : ¬s.rngWaits a) : s.rngSettle a = s := by
  unfold rngSettle
  cases ht : tileOfAddr a with
  | none => rfl
  | some t =>
    refine if_neg fun hw => h ⟨t, ht, ?_⟩
    simp only [Bool.and_eq_true, Bool.or_eq_true, decide_eq_true_eq] at hw
    obtain ⟨⟨hans, hout⟩, hpend⟩ := hw
    exact ⟨hans, hpend, hout⟩

/-- A read through the peek window shows the register and has no side effect (R10). -/
theorem readReg_peekWindow (h : 0x800000 ≤ a) : s.readReg a = (s.peek (a - 0x800000), s) := by simp [readReg, h]

theorem readReg_silent (hlt : a < 0x800000) (h : s.silent a) : s.readReg a = (none, s) := by
  simp [readReg, show ¬0x800000 ≤ a by omega, h.ne_srdata, rngSettle_of_not_rngWaits h.not_rngWaits, h.peek]

/-- A read with no effect beyond its access codes (R7): it answers what the register shows and clears its RC fields. -/
theorem readReg_plain {w : Word} (hlt : a < 0x800000) (hsr : a ≠ R.TST_SRDATA) (hwin : ¬(R.EVR_WIN 0 ≤ a ∧ a ≤ R.EVR_WIN 3))
    (hwait : ¬s.rngWaits a) (hpeek : s.peek a = some w) :
    s.readReg a = (some w, s.setReg a (readByCode a (s.reg a))) := by
  rw [readReg, if_neg (by omega), if_neg hsr, rngSettle_of_not_rngWaits hwait]
  simp only [hpeek, Bool.and_eq_true, decide_eq_true_eq, if_neg hwin]

/-! ## Writes -/

theorem writeReg_error {v : Word} (h : s.writeErr a = true) : s.writeReg a v = (false, s) := by simp [writeReg, h]

theorem writeReg_ao {v : Word} (h : s.writeErr a = false) (hao : isAoAddr a = true) : s.writeReg a v = (true, s.writeAo a v) := by
  simp [writeReg, h, hao]

theorem accessWrite_port (v : Word) :
    s.accessWrite .port a 0xFF v = (s.writeReg a v).2.respond (if (s.writeReg a v).1 then some 0 else none) := by
  simp [accessWrite]

/-! ## A disabled tile (R2) -/

theorem writeMain_disabledTile {t : Nat} (v : Word) (ht : tileOfAddr a = some t) (hdis : s.tileDisabled t = true) :
    s.writeMain a v = s := by
  obtain ⟨hlo, hhi, rfl⟩ := tileOfAddr_some ht
  have : s.writeMain a v = s.writeTil ((a - 0x100000) / 0x1000) a v := by
    unfold writeMain
    iterate 5 rw [if_neg (by omega)]
    rw [if_pos hhi]
  rw [this, writeTil, if_pos hdis]

theorem peek_disabledTile {t : Nat} (hal : a % 8 = 0) (hreg : isReg a = true) (hans : s.answers a = true)
    (ht : tileOfAddr a = some t) (hdis : s.tileDisabled t = true) : s.peek a = some 0 := by
  simp [peek, hal, hreg, hans, deadTile, ht, hdis]

end State

/-! ## The rows on the port -/

section Rows
variable {s : State} {a : BitVec 24}

theorem exec_registerWrite (h : s.aoUp) (via : Via) (be : Byte) (v : Word) :
    exec (.registerWrite via a be v) s = .next (s.accessWrite via a.toNat be v) :=
  congrArg Host.Outcome.next (State.inAo_of_aoUp h _)

theorem exec_rcFieldRead (h : s.aoUp) (via : Via) (be : Byte) :
    exec (.rcFieldRead via a be) s = .next (s.accessRead via a.toNat be) :=
  congrArg Host.Outcome.next (State.inAo_of_aoUp h _)

/-- An access that is not a full 64-bit one gets an error response (R6). -/
theorem exec_partial_access (h : s.aoUp) {be : Byte} (hbe : be ≠ 0xFF) (v : Word) :
    exec (.registerWrite .port a be v) s = .next (s.respond none) ∧ exec (.rcFieldRead .port a be) s = .next (s.respond none) := by
  rw [exec_registerWrite h, exec_rcFieldRead h]
  exact ⟨congrArg _ (if_pos hbe), congrArg _ (if_pos hbe)⟩

theorem exec_write_error (h : s.aoUp) (herr : s.writeErr a.toNat = true) (v : Word) :
    exec (.registerWrite .port a 0xFF v) s = .next (s.respond none) := by
  rw [exec_registerWrite h, State.accessWrite_port, State.writeReg_error herr]
  rfl

theorem exec_read_peekWindow (h : s.aoUp) (hwindow : 0x800000 ≤ a.toNat) :
    exec (.rcFieldRead .port a 0xFF) s = .next (s.respond (s.peek (a.toNat - 0x800000))) := by
  rw [exec_rcFieldRead h, State.accessRead_port (State.not_rngWaits_of_peekWindow hwindow), State.readReg_peekWindow hwindow]

theorem exec_read_silent (h : s.aoUp) (hlt : a.toNat < 0x800000) (hs : s.silent a.toNat) :
    exec (.rcFieldRead .port a 0xFF) s = .next (s.respond none) := by
  rw [exec_rcFieldRead h, State.accessRead_port hs.not_rngWaits, State.readReg_silent hlt hs]

/-- A write of an AO register that has no effect beyond its access codes (R7). -/
theorem exec_write_plainAo (h : s.aoUp) {v : Word} (herr : s.writeErr a.toNat = false) (hao : isAoAddr a.toNat = true)
    (hplain : s.writeAo a.toNat v = s.plainWrite a.toNat v) :
    ∃ t, exec (.registerWrite .port a 0xFF v) s = .next t ∧ t.ao.rspErr = false ∧
      t.reg a.toNat = writeByCode a.toNat (s.reg a.toNat) v ∧ s.sameRegsBut [a.toNat] t ∧ t.mem = s.mem := by
  refine ⟨(s.plainWrite a.toNat v).respond (some 0), ?_, rfl, ?_, fun c hc => ?_, rfl⟩
  · rw [exec_registerWrite h, State.accessWrite_port, State.writeReg_ao herr hao, hplain]
    rfl
  · simp [State.reg_respond, State.plainWrite]
  · have hne : c ≠ a.toNat := by simpa using hc
    simp [State.reg_respond, State.plainWrite, hne]

/-- A read that changes nothing beyond its access codes (R7). -/
theorem exec_read_plain (h : s.aoUp) {w : Word} (hlt : a.toNat < 0x800000) (hsr : a.toNat ≠ R.TST_SRDATA)
    (hwin : ¬(R.EVR_WIN 0 ≤ a.toNat ∧ a.toNat ≤ R.EVR_WIN 3)) (hwait : ¬s.rngWaits a.toNat) (hpeek : s.peek a.toNat = some w) :
    exec (.rcFieldRead .port a 0xFF) s =
      .next ((s.setReg a.toNat (readByCode a.toNat (s.reg a.toNat))).respond (some w)) := by
  rw [exec_rcFieldRead h, State.accessRead_port hwait, State.readReg_plain hlt hsr hwin hwait hpeek]

/-- An access to a register of a disabled tile reads zero and writes nothing (R2). -/
theorem exec_disabledTile {k : Nat} (v : Word) (h : s.aoUp) (hal : a.toNat % 8 = 0)
    (hreg : isReg a.toNat = true) (hans : s.answers a.toNat = true) (ht : tileOfAddr a.toNat = some k)
    (hdis : s.tileDisabled k = true) (hrng : (s.tl k).rngPending = false) :
    exec (.registerWrite .port a 0xFF v) s = .next (s.respond (some 0)) ∧
    exec (.rcFieldRead .port a 0xFF) s =
      .next ((s.setReg a.toNat (readByCode a.toNat (s.reg a.toNat))).respond (some 0)) := by
  obtain ⟨hlo, hhi, -⟩ := State.tileOfAddr_some ht
  have hne : a.toNat ≠ R.RGR_DDATA := by rw [R.RGR_DDATA]; omega
  have herr : s.writeErr a.toNat = false := by simp [State.writeErr, hal, hreg, hans, hne]
  have hmain : isAoAddr a.toNat = false := by
    simp only [isAoAddr, Bool.or_eq_false_iff, Bool.and_eq_false_iff, decide_eq_false_iff_not]
    omega
  constructor
  · rw [exec_registerWrite h, State.accessWrite_port, State.writeReg, herr, hmain]
    simp [State.writeMain_disabledTile v ht hdis]
  · refine exec_read_plain h (by omega) (by rw [R.TST_SRDATA]; omega) (by simp only [R.EVR_WIN]; omega) ?_
      (State.peek_disabledTile hal hreg hans ht hdis)
    rintro ⟨t, ht', -, hpend, -⟩
    obtain rfl : k = t := Option.some.inj (ht ▸ ht')
    simp [hrng] at hpend

/-- A withdrawn access to a MAIN block gets an error response and changes at most a waiting read (R425). -/
theorem exec_withdraw_main (w : Bool) (h : s.aoUp) (hmain : isAoAddr a.toNat = false) :
    ∃ t : State, exec (.registerAccessWithdraw w a) s = .next (t.respond none) ∧ t.regs = s.regs ∧ t.mem = s.mem := by
  change ∃ t : State, execRegisterAccessWithdraw w a s = .next (t.respond none) ∧ _
  rw [execRegisterAccessWithdraw, State.inAo_of_aoUp h]
  simp only [hmain, Bool.false_eq_true, if_false]
  refine ⟨_, rfl, ?_, ?_⟩ <;> (repeat' split) <;> rfl

end Rows

end Sys2Proof.Machine
end

section
/-! PROOF. The statements of the scope chapter: access codes, refused accesses and the rows of the register port. -/
namespace Sys2Proof.Machine

/-- The three configuration registers that a write sets by its access codes and nothing more. -/
theorem write_evrCtl_tstSeed_tstExp {s : State} (a : BitVec 24) (v : Word) (h : s.aoUp)
    (ha : a.toNat ∈ [R.EVR_CTL, R.TST_SEED, R.TST_EXP]) :
    ∃ t, exec (.registerWrite .port a 0xFF v) s = .next t ∧ t.ao.rspErr = false ∧
      t.reg a.toNat = writeByCode a.toNat (s.reg a.toNat) v ∧ s.sameRegsBut [a.toNat] t ∧ t.mem = s.mem := by
  have hreg : ∀ x ∈ [R.EVR_CTL, R.TST_SEED, R.TST_EXP],
      x % 8 = 0 ∧ isReg x = true ∧ isAoAddr x = true ∧ x ≠ R.RGR_DDATA := by decide +kernel
  obtain ⟨hal, hisReg, hao, hne⟩ := hreg _ ha
  refine exec_write_plainAo h (by simp [State.writeErr, State.answers, hal, hisReg, hao, hne]) hao ?_
  simp only [List.mem_cons, List.not_mem_nil, or_false] at ha
  rcases ha with ha | ha | ha <;> rw [ha] <;> rfl

/-- A read of EVR_LOST shows its counts and clears them (R7, R399). -/
theorem read_evrLost {s : State} (h : s.aoUp) :
    exec (.rcFieldRead .port (BitVec.ofNat 24 R.EVR_LOST) 0xFF) s =
      .next ((s.setReg R.EVR_LOST (readByCode R.EVR_LOST (s.reg R.EVR_LOST))).respond
        (some (s.reg R.EVR_LOST &&& readMask R.EVR_LOST))) := by
  refine exec_read_plain (a := BitVec.ofNat 24 R.EVR_LOST) h (by decide) (by decide) (by decide) ?_ rfl
  rintro ⟨t, ht, -⟩
  have := State.tileOfAddr_some ht
  simp [R.EVR_LOST] at this

/-- Settles O5: the mask of an access code has, at a field's bits, what the field's code says. -/
theorem fieldsFollowAccessCodes : Obligations.FieldsFollowAccessCodes := by
  unfold Obligations.FieldsFollowAccessCodes
  refine ⟨fun a old v f i hf hlo hhi => getLsbD_writeByCode hf hlo hhi old v,
    fun a old f i hf hlo hhi => getLsbD_readByCode hf hlo hhi old,
    fun a old f i hf hlo hhi => getLsbD_and_readMask hf hlo hhi old, fun s v h => ?_, fun s h => ?_⟩
  · obtain ⟨t, ht, herr, hreg, hsame, hmem⟩ := write_evrCtl_tstSeed_tstExp (BitVec.ofNat 24 R.EVR_CTL) v h (by decide)
    exact ⟨t, ht, hreg, herr, hsame, hmem⟩
  · refine ⟨_, read_evrLost h, rfl, ?_, rfl, fun c hc => ?_, rfl⟩
    · simp [State.reg_respond]
    · have hne : c ≠ R.EVR_LOST := by simpa using hc
      simp [State.reg_respond, hne]

/-- Settles O6: at each of these accesses nothing answers. -/
theorem refusedPortAccesses : Obligations.RefusedPortAccesses := by
  unfold Obligations.RefusedPortAccesses
  refine ⟨fun s a be v h hbad => ?_, fun s a v h hlt hreg => ?_, fun s a h hwindow hreg => ?_⟩
  · by_cases hbe : be = 0xFF
    · subst hbe
      have hal : a.toNat % 8 ≠ 0 := hbad.resolve_left (not_not_intro rfl)
      refine ⟨exec_write_error h (State.silent.writeErr (.inl hal)) v, ?_⟩
      by_cases hlt : a.toNat < 0x800000
      · exact exec_read_silent h hlt (.inl hal)
      · rw [exec_read_peekWindow h (by omega), State.silent.peek (.inl (by omega)), State.respond_none]
    · exact exec_partial_access h hbe v
  · exact ⟨exec_write_error h (State.silent.writeErr (.inr (.inl hreg))) v, exec_read_silent h hlt (.inr (.inl hreg))⟩
  · rw [exec_read_peekWindow h hwindow, State.silent.peek (.inr (.inl hreg)), State.respond_none]

/-- Settles O7: each access by the reason that decides it. -/
theorem registerAccess : Obligations.RegisterAccess := by
  unfold Obligations.RegisterAccess
  refine ⟨fun s a v h ha => write_evrCtl_tstSeed_tstExp a v h ha, fun s a w h hwindow hpeek => ?_, fun s a v h hwindow => ?_,
    fun s a v h hup hlt hmain => ?_, fun s a v k h _ hal hreg hans ht hdis hrng => ?_, fun s w a h hmain => ?_⟩
  · rw [exec_read_peekWindow h hwindow, hpeek, State.respond_some]
  · exact exec_write_error h (State.silent.writeErr (.inr (.inl (State.isReg_peekWindow hwindow)))) v
  · have hs : s.silent a.toNat := State.silent_of_not_up hup hmain
    exact ⟨exec_write_error h hs.writeErr v, _, exec_read_silent h hlt hs, rfl, rfl, rfl⟩
  · obtain ⟨hwrite, hread⟩ := exec_disabledTile v h hal hreg hans ht hdis hrng
    exact ⟨hwrite, _, hread, rfl, rfl, rfl⟩
  · obtain ⟨t, ht, hregs, hmem⟩ := exec_withdraw_main w h hmain
    exact ⟨_, ht, rfl, hregs, hmem⟩

end Sys2Proof.Machine
end

section
/-! PROOF. What a reset of MAIN does to the registers and to the AO domain (R13, R345, R349). -/
namespace Sys2Proof.Machine

/-- A sparse map restricted to some keys reads as before at those keys and as its default elsewhere. -/
theorem sget_filter_key {α : Type} (d : Nat → α) (p : Nat → Bool) (m : Sparse α) (k : Nat) :
    sget d (m.filter fun c => p c.1) k = if p k then sget d m k else d k := by
  induction m with
  | nil => simp [sget]
  | cons c r ih =>
    by_cases hk : c.1 = k
    · subst hk
      cases hp : p c.1 <;> simp [hp, sget, ih]
    · cases hp : p c.1 <;> simp [hp, sget, ih, hk]

/-- What an outcome keeps, of the state it answers. -/
theorem OutKeeps.keeps {m f u : Bool} {s t : State} {r : Host.Outcome State Fault Refusal} (h : OutKeeps m f u s r)
    (e : r = .next t) : Keeps m f u s t := by
  subst e
  exact h

namespace State
variable (s : State)

/-- A change made for each element of a list keeps what every single change keeps. -/
theorem each_eq {α β : Type} (p : State → β) {g : State → α → State} {l : List α} (hg : ∀ v, ∀ x ∈ l, p (g v x) = p v) :
    p (s.each l g) = p s := by
  unfold each
  induction l generalizing s with
  | nil => rfl
  | cons x r ih => rw [List.foldl_cons, ih _ fun v y hy => hg v y (List.mem_cons_of_mem _ hy), hg s x (List.mem_cons_self ..)]

/-- A reset from RST_N leaves no port DOWN (R297). -/
theorem downPorts_pin : s.downPorts true = [] := rfl

/-- A MAIN reset returns every MAIN register to its reset value but the status of a port that stays DOWN (R297, R345). -/
theorem reg_mainReset {pin : Bool} {a : Nat} (ha : isAoAddr a = false) (hdown : ∀ q ∈ s.downPorts pin, a ≠ R.MPT_STAT q) :
    (s.mainReset pin).reg a = resetWord a := by
  have hboot : a ≠ R.GLB_BOOT := by
    rintro rfl
    exact absurd ha (by decide)
  rw [mainReset, reg_wr_other _ hboot, each_eq _ (·.reg a) fun v q hq => reg_wr_other v (hdown q hq) _ _]
  simp [reg, sget_filter_key, ha]

/-- A MAIN reset keeps every AO register but GLB_BOOT, whose STAGE it sets (R345). -/
theorem reg_mainReset_ao {pin : Bool} {a : Nat} (ha : isAoAddr a = true) (hboot : a ≠ R.GLB_BOOT) :
    (s.mainReset pin).reg a = s.reg a := by
  have hport : ∀ q ∈ s.downPorts pin, a ≠ R.MPT_STAT q := by
    rintro q hq rfl
    obtain ⟨hlt, -⟩ := List.mem_filter.mp hq
    exact absurd ha ((by decide : ∀ q ∈ List.range 8, ¬isAoAddr (R.MPT_STAT q) = true) q hlt)
  rw [mainReset, reg_wr_other _ hboot, each_eq _ (·.reg a) fun v q hq => reg_wr_other v (hport q hq) _ _]
  simp [reg, sget_filter_key, ha]

/-- A MAIN reset stops MAIN, disarms the boot watchdog and asserts every PHYRST_p; the AO domain keeps the rest (R345). -/
theorem mainReset_ao (pin : Bool) :
    (s.mainReset pin).ao = { s.ao with mainRun := false, wdogArmed := false, phyReset := BitVec.allOnes 32 } := by
  rw [mainReset, wr_ao, each_eq _ State.ao fun v q _ => wr_ao v _ _ _]

/-- The cause of a reset is shown in GLB_RSTCAUSE alone (R349). -/
theorem reg_resetCause (f : Option Fld) {a : Nat} (h : a ≠ R.GLB_RSTCAUSE) : (s.resetCause f).reg a = s.reg a := by
  cases f <;> simp [resetCause, reg_wr_other, h]

theorem rd_resetCause_some {f : Fld} (h : f.ok = true) : (s.resetCause (some f)).rd R.GLB_RSTCAUSE f = 1 % 2 ^ f.width :=
  rd_wr_same _ _ h 1

@[simp] theorem resetCause_ao (f : Option Fld) : (s.resetCause f).ao = s.ao := by cases f <;> rfl

/-! ## An assertion of RST_N (R345) -/

/-- The registers do not depend on the AO domain's own state. -/
theorem reg_with_ao (x : AoState) (a : Nat) : State.reg { s with ao := x } a = s.reg a := rfl

theorem reg_assertRst (a : Nat) : s.assertRst.reg a = ((s.mainReset true).resetCause (some F.GLB_RSTCAUSE_PIN)).reg a := by
  rw [assertRst, reg_with_ao]

theorem reg_assertRst_main {a : Nat} (ha : isAoAddr a = false) : s.assertRst.reg a = resetWord a := by
  have hcause : a ≠ R.GLB_RSTCAUSE := by
    rintro rfl
    exact absurd ha (by decide)
  rw [reg_assertRst, reg_resetCause _ _ hcause, reg_mainReset s ha (by simp [downPorts_pin])]

theorem rd_assertRst_pin : s.assertRst.rd R.GLB_RSTCAUSE F.GLB_RSTCAUSE_PIN = 1 := by
  rw [rd, reg_assertRst]
  exact rd_resetCause_some (s.mainReset true) rfl

theorem now_assertRst : ((s.mainReset true).resetCause (some F.GLB_RSTCAUSE_PIN)).now = s.now := by
  rw [now, rd, reg_resetCause _ _ (by decide), reg_mainReset_ao s (by decide) (by decide), now, rd]

theorem assertRst_ao : s.assertRst.ao =
    { s.ao with mainRun := false, wdogArmed := false, phyReset := BitVec.allOnes 32, rstN := true, assertedAt := some s.now } := by
  simp only [assertRst, resetCause_ao, mainReset_ao, now_assertRst]

theorem assertRst_mem : s.assertRst.mem = s.mem :=
  (assertRst_keeps s (Keeps.refl (m := false) (f := false) (u := false) s)).mem rfl

end State

end Sys2Proof.Machine
end

section
/-! PROOF. The rows of the two reset pins, AO_RST_N and RST_N (R13, R344, R345, R346, R370). -/
namespace Sys2Proof.Machine

section Rows
variable {s : State}

/-! ## AO_RST_N -/

/-- AO_RST_N is asserted (R344). -/
theorem exec_aoRstNAssert (h : s.aoUp) :
    ∃ t, exec .aoRstNAssert s = .next t ∧ ¬t.aoUp ∧ ¬t.up ∧ (∀ a, t.reg a = resetWord a) ∧ t.mem = s.mem := by
  have hexec : execAoRstNAssert s = .next _ := congrArg Host.Outcome.next (State.inAo_of_aoUp h _)
  exact ⟨_, hexec, nofun, nofun, fun _ => rfl, ((execAoRstNAssert_keeps s).keeps hexec).mem rfl⟩

/-- AO_RST_N is released: the straps are sampled (R370). -/
theorem exec_aoRstNRelease (h : ¬s.aoUp) (straps : BitVec 6) :
    exec (.aoRstNRelease straps) s =
      .next (State.wr { s with ao := { s.ao with aoReset := false } } R.MGB_STATUS F.MGB_STATUS_ADDR straps.toNat) := by
  have hreset : s.ao.aoReset = true := by simpa [State.aoUp] using h
  exact congrArg Host.Outcome.next (if_pos (by simp [hreset]))

/-! ## RST_N -/

theorem exec_rstNAssert (h : s.aoUp) (hrst : s.ao.rstN = false) (n : Nat) :
    exec (.rstNAssert n) s = .next (if n < 100 then s.inc R.GLB_RSTCAUSE F.GLB_RSTCAUSE_GLITCH else s.assertRst) := by
  have hexec : exec (.rstNAssert n) s = .next _ := congrArg Host.Outcome.next (State.inAo_of_aoUp h _)
  rw [hexec, hrst]
  rfl

theorem exec_rstNHeld (h : s.aoUp) (hrst : s.ao.rstN = true) (hheld : s.rd R.GLB_RSTCAUSE F.GLB_RSTCAUSE_HELD = 0) :
    exec .rstNHeld s = .next ((s.wr R.GLB_RSTCAUSE F.GLB_RSTCAUSE_HELD 1).record
      ((ev Sev.warn Src.glb 0).field R.GLB_RSTCAUSE F.GLB_RSTCAUSE_HELD)) := by
  have hexec : exec .rstNHeld s = .next _ := congrArg Host.Outcome.next (State.inAo_of_aoUp h _)
  rw [hexec, if_pos (by simp [State.on, hrst, hheld])]

theorem exec_rstNRelease (h : s.aoUp) :
    ∃ t, exec .rstNRelease s = .next t ∧ t.ao.rstN = false ∧ t.mem = s.mem ∧
      t.regs = ((s.wr R.GLB_RSTCAUSE F.GLB_RSTCAUSE_HELD 0).wr R.GLB_RSTCTL F.GLB_RSTCTL_RSTIGN 0).regs :=
  ⟨_, congrArg Host.Outcome.next (State.inAo_of_aoUp h _), rfl, rfl, rfl⟩

end Rows

/-- Settles O8: each row of the two pins by what it does to the registers, the AO domain and the memory. -/
theorem resetPins : Obligations.ResetPins := by
  unfold Obligations.ResetPins
  refine ⟨fun s h => exec_aoRstNAssert h, fun s straps h => ⟨_, exec_aoRstNRelease h straps, rfl, ?_, fun a ha => ?_, rfl⟩,
    fun s n h hrst hn => ⟨_, exec_rstNAssert h hrst n, ?_⟩, fun s n h hrst hn => ⟨_, exec_rstNAssert h hrst n, ?_⟩,
    fun s h hrst hheld => ⟨_, exec_rstNHeld h hrst hheld, ?_, fun a ha => ?_, by simp⟩, fun s h => ?_⟩
  · rw [State.rd_wr_same _ _ rfl]
    exact Nat.mod_eq_of_lt straps.isLt
  · exact State.reg_wr_other _ (by simpa using ha) _ _
  · rw [if_pos hn]
    exact ⟨State.rd_inc_same s _ rfl, rfl, fun a ha => State.reg_inc_other s (by simpa using ha) _, rfl⟩
  · rw [if_neg (by omega)]
    have hao := State.assertRst_ao s
    exact ⟨by simp [State.up, hao], by rw [hao], by rw [hao], State.rd_assertRst_pin s, fun _ => State.reg_assertRst_main s,
      State.assertRst_mem s⟩
  · rw [State.rd_record _ _ (by decide), State.rd_wr_same _ _ rfl]
    rfl
  · obtain ⟨hcause, hlost⟩ : a ≠ R.GLB_RSTCAUSE ∧ a ≠ R.EVR_LOST := by simpa using ha
    rw [State.reg_record _ _ hlost, State.reg_wr_other _ hcause]
  · obtain ⟨t, ht, hrst, hmem, hregs⟩ := exec_rstNRelease h
    refine ⟨t, ht, hrst, ?_, ?_, fun a ha => ?_, hmem⟩
    · rw [State.rd_congr hregs, State.rd_wr_other _ (by decide), State.rd_wr_same _ _ rfl]
      rfl
    · rw [State.rd_congr hregs, State.rd_wr_same _ _ rfl]
      rfl
    · obtain ⟨hcause, hctl⟩ : a ≠ R.GLB_RSTCAUSE ∧ a ≠ R.GLB_RSTCTL := by simpa using ha
      rw [State.reg_congr hregs, State.reg_wr_other _ hctl, State.reg_wr_other _ hcause]

end Sys2Proof.Machine
end

section
/-! PROOF. Every step keeps the canonical form: the frame lemmas of the commands, gathered into one of `exec`, and the idle step. -/
namespace Sys2Proof.Machine

/-- CLEARING_START runs the waiting reads through the operation with which CLEARING_READ may store, so that its frame, by its form
alone, allows a store. -/
def startsClearing : Instr → Bool
  | .clearingStart .. => true
  | _ => false

/-- Each command keeps what its frame says: it stores, writes the flash and burns fuses only where the terms of the claims allow it,
CLEARING_START's stores apart. -/
theorem exec_keeps (c : Instr) (s : State) :
    OutKeeps (mayStore c || startsClearing c) (mayWriteFlash c) (mayBurn c) s (exec c s) :=
  match c with
  | .registerWrite .. => execRegisterWrite_keeps ..
  | .rcFieldRead .. => execRcFieldRead_keeps ..
  | .registerAccessWithdraw .. => execRegisterAccessWithdraw_keeps ..
  | .aoRstNAssert => execAoRstNAssert_keeps ..
  | .aoRstNRelease .. => execAoRstNRelease_keeps ..
  | .fuseSensingDone => execFuseSensingDone_keeps ..
  | .flashDiscovery .. => execFlashDiscovery_keeps ..
  | .rstNAssert .. => execRstNAssert_keeps ..
  | .rstNHeld => execRstNHeld_keeps ..
  | .vddMainLoss => execVddMainLoss_keeps ..
  | .mainStart => execMainStart_keeps ..
  | .holdOutEnd => execHoldOutEnd_keeps ..
  | .stormReset => execStormReset_keeps ..
  | .bootWatchdog => execBootWatchdog_keeps ..
  | .swrst .. => execSwrst_keeps ..
  | .rstign => execRstign_keeps ..
  | .hoclr => execHoclr_keeps ..
  | .clkCoreLoss => execClkCoreLoss_keeps ..
  | .clkCoreRestart => execClkCoreRestart_keeps ..
  | .rootDerive => execRootDerive_keeps ..
  | .configApply => execConfigApply_keeps ..
  | .sealEpochPersist => execSealEpochPersist_keeps ..
  | .recordWrite => execRecordWrite_keeps ..
  | .compaction => execCompaction_keeps ..
  | .nvmRead .. => execNvmRead_keeps ..
  | .nvmProgram .. => execNvmProgram_keeps ..
  | .nvmErase .. => execNvmErase_keeps ..
  | .nvmDone .. => execNvmDone_keeps ..
  | .nvmTimeout => execNvmTimeout_keeps ..
  | .phaseStrobe .. => execPhaseStrobe_keeps ..
  | .phsAdv .. => execPhsAdv_keeps ..
  | .phsSelWrite .. => execPhsSelWrite_keeps ..
  | .phaseTableWrite .. => execPhaseTableWrite_keeps ..
  | .gladeEnable .. => execGladeEnable_keeps ..
  | .gladeDisable .. => execGladeDisable_keeps ..
  | .join .. => execJoin_keeps ..
  | .joinResend .. => execJoinResend_keeps ..
  | .writeWatchReport .. => execWriteWatchReport_keeps ..
  | .watchOverflow .. => execWatchOverflow_keeps ..
  | .repairWalk .. => execRepairWalk_keeps ..
  | .skipreq .. => execSkipreq_keeps ..
  | .contribution .. => execContribution_keeps ..
  | .endOfStepMarker .. => execEndOfStepMarker_keeps ..
  | .markerReceipt .. => execMarkerReceipt_keeps ..
  | .markerResend .. => execMarkerResend_keeps ..
  | .readyNotice .. => execReadyNotice_keeps ..
  | .pullDone _ _ _ _ n => execPullDone_keeps (_count := n) ..
  | .partialVerdict .. => execPartialVerdict_keeps ..
  | .stragglerDeadline .. => execStragglerDeadline_keeps ..
  | .verdictReceipt .. => execVerdictReceipt_keeps ..
  | .applyBlock .. => execApplyBlock_keeps ..
  | .stepEnd => execStepEnd_keeps ..
  | .stepLd .. => execStepLd_keeps ..
  | .stepSt .. => execStepSt_keeps ..
  | .stepAdd .. => execStepAdd_keeps ..
  | .stepSub .. => execStepSub_keeps ..
  | .stepMul .. => execStepMul_keeps ..
  | .stepFma .. => execStepFma_keeps ..
  | .stepFnma .. => execStepFnma_keeps ..
  | .stepDiv .. => execStepDiv_keeps ..
  | .stepSqrt .. => execStepSqrt_keeps ..
  | .stepMax .. => execStepMax_keeps ..
  | .stepMin .. => execStepMin_keeps ..
  | .stepSign .. => execStepSign_keeps ..
  | .stepSqacc0 .. => execStepSqacc0_keeps ..
  | .stepSqacc1 .. => execStepSqacc1_keeps ..
  | .stepMov .. => execStepMov_keeps ..
  | .trustRatioResult .. => execTrustRatioResult_keeps ..
  | .programSlotWrite .. => execProgramSlotWrite_keeps ..
  | .pmemWrite .. => execPmemWrite_keeps ..
  | .deltaReceive .. => execDeltaReceive_keeps ..
  | .deltaAnswer .. => execDeltaAnswer_keeps ..
  | .deltaResend .. => execDeltaResend_keeps ..
  | .deltaStale .. => execDeltaStale_keeps ..
  | .parityFrameEvict .. => execParityFrameEvict_keeps ..
  | .ringCloseCompletion .. => execRingCloseCompletion_keeps ..
  | .ringStartCompletion .. => execRingStartCompletion_keeps ..
  | .laggardEviction .. => execLaggardEviction_keeps ..
  | .rngTestWrite .. => execRngTestWrite_keeps ..
  | .rngOutputReady .. => execRngOutputReady_keeps ..
  | .accessComplete .. => execAccessComplete_keeps ..
  | .contextTimeout .. => execContextTimeout_keeps ..
  | .gangRequest .. => execGangRequest_keeps ..
  | .gangGrant .. => execGangGrant_keeps ..
  | .gangGrantTimeout .. => execGangGrantTimeout_keeps ..
  | .queueDoorbell .. => execQueueDoorbell_keeps ..
  | .queueEnable .. => execQueueEnable_keeps ..
  | .queueResume .. => execQueueResume_keeps ..
  | .queueSkip .. => execQueueSkip_keeps ..
  | .descriptorFetch .. => execDescriptorFetch_keeps ..
  | .descriptorStart .. => execDescriptorStart_keeps ..
  | .descriptorComplete .. => execDescriptorComplete_keeps ..
  | .matchTimeout .. => execMatchTimeout_keeps ..
  | .descNop .. => execDescNop_keeps ..
  | .descAllreduce .. => execDescAllreduce_keeps ..
  | .descReducescatter .. => execDescReducescatter_keeps ..
  | .descAllgather .. => execDescAllgather_keeps ..
  | .descBroadcast .. => execDescBroadcast_keeps ..
  | .descBarrier .. => execDescBarrier_keeps ..
  | .descPermute .. => execDescPermute_keeps ..
  | .descMcast .. => execDescMcast_keeps ..
  | .descRsgrad .. => execDescRsgrad_keeps ..
  | .verdictReduction .. => execVerdictReduction_keeps ..
  | .trustRatioReduction .. => execTrustRatioReduction_keeps ..
  | .ringCloseBarrier .. => execRingCloseBarrier_keeps ..
  | .ringStartBarrier .. => execRingStartBarrier_keeps ..
  | .treeEntry .. => execTreeEntry_keeps ..
  | .mcastFallback .. => execMcastFallback_keeps ..
  | .beatTimer .. => execBeatTimer_keeps ..
  | .groveBeat .. => execGroveBeat_keeps ..
  | .beatSilence .. => execBeatSilence_keeps ..
  | .suspicionNotice .. => execSuspicionNotice_keeps ..
  | .start .. => execStart_keeps ..
  | .probe .. => execProbe_keeps ..
  | .probeAnswer .. => execProbeAnswer_keeps ..
  | .round1End .. => execRound1End_keeps ..
  | .view .. => execView_keeps ..
  | .round2End .. => execRound2End_keeps ..
  | .dec .. => execDec_keeps ..
  | .decDeadline .. => execDecDeadline_keeps ..
  | .firebreakSightTimeout .. => execFirebreakSightTimeout_keeps ..
  | .force .. => execForce_keeps ..
  | .fenceNotice .. => execFenceNotice_keeps ..
  | .takeover .. => execTakeover_keeps ..
  | .ready .. => execReady_keeps ..
  | .readyTimeout .. => execReadyTimeout_keeps ..
  | .mapupdate .. => execMapupdate_keeps ..
  | .clearingStart .. => execClearingStart_keeps ..
  | .clearingRead .. => execClearingRead_keeps ..
  | .rowRead .. => execRowRead_keeps ..
  | .rowReadAnswer .. => execRowReadAnswer_keeps ..
  | .encodeParity .. => execEncodeParity_keeps ..
  | .rebuildLeaf .. => execRebuildLeaf_keeps ..
  | .reconcileScan .. => execReconcileScan_keeps ..
  | .reconcileReport .. => execReconcileReport_keeps ..
  | .reconcileTimeout .. => execReconcileTimeout_keeps ..
  | .deadfallNotice .. => execDeadfallNotice_keeps ..
  | .requestResend .. => execRequestResend_keeps ..
  | .planLoad .. => execPlanLoad_keeps ..
  | .planAbort .. => execPlanAbort_keeps ..
  | .blockCopy .. => execBlockCopy_keeps ..
  | .copyArrival .. => execCopyArrival_keeps ..
  | .shadow .. => execShadow_keeps ..
  | .shadowEnd .. => execShadowEnd_keeps ..
  | .nextParityBuild .. => execNextParityBuild_keeps ..
  | .saplingProbe .. => execSaplingProbe_keeps ..
  | .publishGo .. => execPublishGo_keeps ..
  | .publishStart .. => execPublishStart_keeps ..
  | .publishBlock .. => execPublishBlock_keeps ..
  | .wpStart .. => execWpStart_keeps ..
  | .wpBlock .. => execWpBlock_keeps ..
  | .wpEnd .. => execWpEnd_keeps ..
  | .imageTimeout .. => execImageTimeout_keeps ..
  | .imageEnable .. => execImageEnable_keeps ..
  | .imageLoad .. => execImageLoad_keeps ..
  | .loadreq .. => execLoadreq_keeps ..
  | .imageAnswer .. => execImageAnswer_keeps ..
  | .loadRetry .. => execLoadRetry_keeps ..
  | .touch .. => execTouch_keeps ..
  | .orphan .. => execOrphan_keeps ..
  | .sweepStart .. => execSweepStart_keeps ..
  | .sweepRecord .. => execSweepRecord_keeps ..
  | .restoreRecord .. => execRestoreRecord_keeps ..
  | .periodStart .. => execPeriodStart_keeps ..
  | .laneMarker .. => execLaneMarker_keeps ..
  | .cdrLockLoss .. => execCdrLockLoss_keeps ..
  | .dataFrame .. => execDataFrame_keeps ..
  | .idle .. => execIdle_keeps ..
  | .pulse _ _ q n => execPulse_keeps (_port := q) (_counter := n) ..
  | .ack .. => execAck_keeps ..
  | .nak .. => execNak_keeps ..
  | .credit .. => execCredit_keeps ..
  | .widthReq _ _ n => execWidthReq_keeps (_attempt := n) ..
  | .dozeReq .. => execDozeReq_keeps ..
  | .dozeAck .. => execDozeAck_keeps ..
  | .dozeCancel .. => execDozeCancel_keeps ..
  | .train .. => execTrain_keeps ..
  | .ackTimer .. => execAckTimer_keeps ..
  | .replayTimeout .. => execReplayTimeout_keeps ..
  | .nakResend .. => execNakResend_keeps ..
  | .pulseTimer .. => execPulseTimer_keeps ..
  | .linkSilence .. => execLinkSilence_keeps ..
  | .widthSwitchTimeout .. => execWidthSwitchTimeout_keeps ..
  | .laneOfferBack .. => execLaneOfferBack_keeps ..
  | .dozeIdle .. => execDozeIdle_keeps ..
  | .dozeReqTimeout .. => execDozeReqTimeout_keeps ..
  | .signalLoss .. => execSignalLoss_keeps ..
  | .wakeBurst .. => execWakeBurst_keeps ..
  | .signalDetect .. => execSignalDetect_keeps ..
  | .fastRelockTimeout .. => execFastRelockTimeout_keeps ..
  | .beaconTimer .. => execBeaconTimer_keeps ..
  | .linkBeacon .. => execLinkBeacon_keeps ..
  | .beaconTimeout .. => execBeaconTimeout_keeps ..
  | .wakeTimeout .. => execWakeTimeout_keeps ..
  | .linkEnable .. => execLinkEnable_keeps ..
  | .linkDown .. => execLinkDown_keeps ..
  | .retrain .. => execRetrain_keeps ..
  | .trainingTimeout .. => execTrainingTimeout_keeps ..
  | .trainingRetry .. => execTrainingRetry_keeps ..
  | .unlockTimeout .. => execUnlockTimeout_keeps ..
  | .loadSample .. => execLoadSample_keeps ..
  | .trimReq .. => execTrimReq_keeps ..
  | .trimDone .. => execTrimDone_keeps ..
  | .trimWatchEnd .. => execTrimWatchEnd_keeps ..
  | .marginCheck .. => execMarginCheck_keeps ..
  | .routeFrame .. => execRouteFrame_keeps ..
  | .escwait .. => execEscwait_keeps ..
  | .creditTimer .. => execCreditTimer_keeps ..
  | .lrd .. => execLrd_keeps ..
  | .lrsp .. => execLrsp_keeps ..
  | .err .. => execErr_keeps ..
  | .lwr .. => execLwr_keeps ..
  | .lwack .. => execLwack_keeps ..
  | .inv .. => execInv_keeps ..
  | .invack .. => execInvack_keeps ..
  | .noroute .. => execNoroute_keeps ..
  | .hmsg .. => execHmsg_keeps ..
  | .reasmTimeout .. => execReasmTimeout_keeps ..
  | .invTimeout .. => execInvTimeout_keeps ..
  | .pnidWrite .. => execPnidWrite_keeps ..
  | .hostFrame .. => execHostFrame_keeps ..
  | .mpResponse _ _ tag _ _ _ => execMpResponse_keeps (_tag := tag) ..
  | .mpTimeout _ _ tag _ _ => execMpTimeout_keeps (_tag := tag) ..
  | .portDown .. => execPortDown_keeps ..
  | .sramParityError .. => execSramParityError_keeps ..
  | .budgetWindow => execBudgetWindow_keeps ..
  | .budgetSetWrite .. => execBudgetSetWrite_keeps ..
  | .scrubLine .. => execScrubLine_keeps ..
  | .auditStart .. => execAuditStart_keeps ..
  | .auditUnit .. => execAuditUnit_keeps ..
  | .enterManufacturing .. => execEnterManufacturing_keeps ..
  | .enterProvisioned .. => execEnterProvisioned_keeps ..
  | .enterDeployed .. => execEnterDeployed_keeps ..
  | .enterScrapped .. => execEnterScrapped_keeps ..
  | .groupBurn .. => execGroupBurn_keeps ..
  | .burnDone => execBurnDone_keeps ..
  | .keyLoad .. => execKeyLoad_keeps ..
  | .debugUnlock .. => execDebugUnlock_keeps ..
  | .enterReturned .. => execEnterReturned_keeps ..
  | .revokeImageKey .. => execRevokeImageKey_keeps ..
  | .burnIkh1 .. => execBurnIkh1_keeps ..
  | .busPing .. => execBusPing_keeps ..
  | .busRead .. => execBusRead_keeps ..
  | .busWrite .. => execBusWrite_keeps ..
  | .busEvread .. => execBusEvread_keeps ..
  | .busReset .. => execBusReset_keeps ..
  | .busIsolate .. => execBusIsolate_keeps ..
  | .busRelease .. => execBusRelease_keeps ..
  | .busSuspect .. => execBusSuspect_keeps ..
  | .dupaddr .. => execDupaddr_keeps ..
  | .noticeSend => execNoticeSend_keeps ..
  | .noticeTokenRefill => execNoticeTokenRefill_keeps ..
  | .busBeacon => execBusBeacon_keeps ..
  | .busStateChange .. => execBusStateChange_keeps ..
  | .lone .. => execLone_keeps ..
  | .benchedEnd .. => execBenchedEnd_keeps ..
  | .responseHoldTimeout => execResponseHoldTimeout_keeps ..
  | .recordQueue => execRecordQueue_keeps ..
  | .recordStore => execRecordStore_keeps ..
  | .windowRead .. => execWindowRead_keeps ..
  | .windowAdvance => execWindowAdvance_keeps ..
  | .cursorWrite .. => execCursorWrite_keeps ..
  | .arm .. => execArm_keeps ..
  | .trig => execTrig_keeps ..
  | .waypointIn => execWaypointIn_keeps ..
  | .waypointMessage .. => execWaypointMessage_keeps ..
  | .waypointCapture => execWaypointCapture_keeps ..
  | .waypointOutEnd => execWaypointOutEnd_keeps ..
  | .halt => execHalt_keeps ..
  | .forceHalt .. => execForceHalt_keeps ..
  | .rangerStep => execRangerStep_keeps ..
  | .rangerResume => execRangerResume_keeps ..
  | .haltProceed => execHaltProceed_keeps ..
  | .haltPendingTimeout => execHaltPendingTimeout_keeps ..
  | .breakpoint .. => execBreakpoint_keeps ..
  | .debugMemoryAccess .. => execDebugMemoryAccess_keeps ..
  | .bistGo => execBistGo_keeps ..
  | .bistDone => execBistDone_keeps ..
  | .laneTest => execLaneTest_keeps ..
  | .laneTestDone .. => execLaneTestDone_keeps ..
  | .siteCheck .. => execSiteCheck_keeps ..
  | .sramReadout => execSramReadout_keeps ..
  | .wsBypass => execWsBypass_keeps ..
  | .wsExtest => execWsExtest_keeps ..
  | .wsPreload .. => execWsPreload_keeps ..
  | .wsClamp => execWsClamp_keeps ..
  | .wsIdcode => execWsIdcode_keeps ..
  | .wsIntestScan => execWsIntestScan_keeps ..
  | .wsBist => execWsBist_keeps ..
  | .departureNotice .. => execDepartureNotice_keeps ..
  | .uncorrectableCodeword .. => execUncorrectableCodeword_keeps ..
  | .hostCreditReturn .. => execHostCreditReturn_keeps ..
  | .rstNRelease => execRstNRelease_keeps ..
  | .copyAck .. => execCopyAck_keeps ..

/-- A change keeps the canonical form of all four maps. -/
theorem Keeps.canonical {m f u : Bool} {s t : State} (h : Keeps m f u s t) (hs : s.canonical) : t.canonical :=
  have ⟨hmem, hflash, hfuses, hregs⟩ := hs
  ⟨h.memWf hmem, h.flashWf hflash, h.fusesWf hfuses, h.regsWf hregs⟩

/-- Idling keeps everything but the registers that count time. -/
theorem idle_keeps {m f u : Bool} (s : State) : Keeps m f u s (idle s) := State.tick_keeps s (Keeps.refl s)

/-- Settles O3: a step idles, or runs the front command on the rest of the queue, and either keeps the canonical form. -/
theorem stepKeepsCanonicalForm : Obligations.StepKeepsCanonicalForm := by
  unfold Obligations.StepKeepsCanonicalForm
  intro s t hs hstep
  unfold step at hstep
  cases hq : s.pending with
  | nil =>
    rw [hq] at hstep
    cases hstep
    exact (idle_keeps (m := false) (f := false) (u := false) s).canonical hs
  | cons c rest =>
    rw [hq] at hstep
    exact ((exec_keeps c { s with pending := rest }).keeps hstep).canonical hs

end Sys2Proof.Machine
end

section
/-! PROOF. Registers that an operation leaves alone, as steps of `sameRegsBut`, and what sending to members changes. -/
namespace Sys2Proof.Machine

namespace State

section Frame
variable {s t u : State} {l : List Nat} {a : Nat}

theorem sameRegsBut.refl (l : List Nat) (s : State) : s.sameRegsBut l s := fun _ _ => rfl

theorem sameRegsBut.trans (h : s.sameRegsBut l t) (h' : t.sameRegsBut l u) : s.sameRegsBut l u :=
  fun a ha => (h' a ha).trans (h a ha)

theorem sameRegsBut.mono {l' : List Nat} (h : s.sameRegsBut l t) (hl : l ⊆ l') : s.sameRegsBut l' t :=
  fun a ha => h a fun hm => ha (hl hm)

/-- A further change that touches no register. -/
theorem sameRegsBut.of_regs (h : s.sameRegsBut l t) (e : u.regs = t.regs) : s.sameRegsBut l u :=
  fun a ha => (reg_congr e a).trans (h a ha)

theorem sameRegsBut.setReg (h : s.sameRegsBut l t) (ha : a ∈ l) (v : Word) : s.sameRegsBut l (t.setReg a v) := fun c hc => by
  have hne : c ≠ a := fun e => hc (e ▸ ha)
  rw [reg_setReg, if_neg hne, h c hc]

theorem sameRegsBut.wr (h : s.sameRegsBut l t) (ha : a ∈ l) (f : Fld) (n : Nat) : s.sameRegsBut l (t.wr a f n) := h.setReg ha _

theorem sameRegsBut.flag (h : s.sameRegsBut l t) (ha : a ∈ l) (f : Fld) (b : Bool) : s.sameRegsBut l (t.flag a f b) := h.wr ha f _

theorem sameRegsBut.inc (h : s.sameRegsBut l t) (ha : a ∈ l) (f : Fld) : s.sameRegsBut l (t.inc a f) := h.wr ha f _

theorem sameRegsBut.add (h : s.sameRegsBut l t) (ha : a ∈ l) (f : Fld) (n : Nat) : s.sameRegsBut l (t.add a f n) := h.wr ha f _

theorem sameRegsBut.record (h : s.sameRegsBut l t) (hl : R.EVR_LOST ∈ l) (e : Ev) : s.sameRegsBut l (t.record e) := fun c hc => by
  have hne : c ≠ R.EVR_LOST := fun e => hc (e ▸ hl)
  rw [reg_record t e hne, h c hc]

theorem sameRegsBut.each {α : Type} {g : State → α → State} {xs : List α} (h : s.sameRegsBut l t)
    (hg : ∀ v : State, ∀ x ∈ xs, v.sameRegsBut l (g v x)) : s.sameRegsBut l (t.each xs g) := fun a ha =>
  (each_eq t (fun v => v.reg a) fun v x hx => hg v x hx a ha).trans (h a ha)

theorem sameRegsBut.rd (h : s.sameRegsBut l t) (ha : a ∉ l) (f : Fld) : t.rd a f = s.rd a f := by
  simp only [State.rd, h a ha]

end Frame

variable (s : State)

/-- Sending to members changes the list of what is sent alone (assumption 4). -/
theorem toMembers_eq (g : Nat) (l : List Nat) (name : String) (args : List Nat) (data : List Byte) :
    s.toMembers g l name args data = { s with sent := s.sent ++ l.map fun m => .toMember g m name args data } := by
  induction l generalizing s with
  | nil => simp [toMembers, each]
  | cons m r ih =>
    have hcons : s.toMembers g (m :: r) name args data = (s.toMember g m name args data).toMembers g r name args data := rfl
    rw [hcons, ih]
    simp [toMember, send]

theorem toMembers_regs (g : Nat) (l : List Nat) (name : String) (args : List Nat) (data : List Byte) :
    (s.toMembers g l name args data).regs = s.regs := by rw [toMembers_eq]

theorem toMembers_glades (g : Nat) (l : List Nat) (name : String) (args : List Nat) (data : List Byte) :
    (s.toMembers g l name args data).glades = s.glades := by rw [toMembers_eq]

theorem inMain_of_up {s : State} (h : s.up) (f : State → State) : s.inMain f = f s := if_pos h

end State

/-- A command that may not store leaves member memory as it is. -/
theorem exec_mem {c : Instr} {s t : State} (h : exec c s = .next t) (hc : (mayStore c || startsClearing c) = false) : t.mem = s.mem :=
  ((exec_keeps c s).keeps h).mem hc

end Sys2Proof.Machine
end

section
/-! PROOF. The phase context of a glade that is enabled or disabled, and the registers that a waypoint trigger touches (R53, R56, R401
to R403). -/
namespace Sys2Proof.Machine

namespace State
variable (s : State)

/-- A trigger counts a missed waypoint in WPT_STAT and touches no other register. -/
theorem wptTrigger_regs (cause : Nat) : s.sameRegsBut [R.WPT_STAT] (s.wptTrigger cause) := by
  unfold wptTrigger wptDue wptWait
  dsimp only
  repeat' split
  case isTrue => exact (sameRegsBut.refl _ s).inc (by simp) _
  all_goals exact (sameRegsBut.refl _ s).of_regs (by simp [toMembers_regs])

theorem wptTrigger_glades (cause : Nat) : (s.wptTrigger cause).glades = s.glades := by
  unfold wptTrigger wptDue wptWait
  dsimp only
  repeat' split
  all_goals simp [toMembers_eq]

theorem wptPoll_regs : s.wptPoll.regs = s.regs := by
  unfold wptPoll
  dsimp only
  repeat' split
  all_goals rfl

theorem wptPoll_glades : s.wptPoll.glades = s.glades := by
  unfold wptPoll
  dsimp only
  repeat' split
  all_goals rfl

/-- The entry and the NOMATCH bit that a new matching shows in PHS_GSTAT. -/
def showMatch (s : State) (g : Nat) : State :=
  (s.wr (R.PHS_GSTAT g) F.PHS_GSTAT_ENTRY ((s.matchEntry g).getD 0)).flag (R.PHS_GSTAT g) F.PHS_GSTAT_NOMATCH (s.matchEntry g).isNone

/-- A new matching shows its entry, and triggers the waypoint of an entry that fires (R56, R401). -/
theorem rematch_cases (g : Nat) (wrapped : Bool) :
    s.rematch g wrapped = s.showMatch g ∨ s.rematch g wrapped = (s.showMatch g).wptTrigger 3 := by
  unfold rematch wptSource
  dsimp only
  repeat' split
  all_goals simp [showMatch, *]

theorem showMatch_regs (g : Nat) : s.sameRegsBut [R.PHS_GSTAT g] (s.showMatch g) :=
  ((sameRegsBut.refl _ s).wr (by simp) _ _).flag (by simp) _ _

/-- A new matching changes ENTRY and NOMATCH alone of PHS_GSTAT. -/
theorem rd_showMatch (g : Nat) {f : Fld} (hf : f.ok = true) (hentry : F.PHS_GSTAT_ENTRY.apart f = true)
    (hnomatch : F.PHS_GSTAT_NOMATCH.apart f = true) : (s.showMatch g).rd (R.PHS_GSTAT g) f = s.rd (R.PHS_GSTAT g) f := by
  unfold showMatch flag
  rw [rd_wr_apart _ _ hnomatch hf, rd_wr_apart _ _ hentry hf]

/-- A register that no waypoint trigger counts in reads after a new matching as the matching shows it. -/
theorem rd_rematch (g : Nat) (wrapped : Bool) {a : Nat} (ha : a ≠ R.WPT_STAT) (f : Fld) :
    (s.rematch g wrapped).rd a f = (s.showMatch g).rd a f := by
  obtain h | h := s.rematch_cases g wrapped <;> rw [h]
  exact (wptTrigger_regs _ 3).rd (by simpa using ha) f

theorem rematch_regs (g : Nat) (wrapped : Bool) : s.sameRegsBut [R.PHS_GSTAT g, R.WPT_STAT] (s.rematch g wrapped) := by
  have hshow := (s.showMatch_regs g).mono (l' := [R.PHS_GSTAT g, R.WPT_STAT]) (by simp)
  obtain h | h := s.rematch_cases g wrapped <;> rw [h]
  · exact hshow
  · exact hshow.trans ((wptTrigger_regs _ 3).mono (by simp))

theorem rematch_glades (g : Nat) (wrapped : Bool) : (s.rematch g wrapped).glades = s.glades := by
  obtain h | h := s.rematch_cases g wrapped <;> rw [h]
  · rfl
  · exact wptTrigger_glades _ 3

theorem phsGstat_ne_wptStat (g : Nat) (hg : g < 16) : R.PHS_GSTAT g ≠ R.WPT_STAT := by
  unfold R.PHS_GSTAT R.WPT_STAT
  omega

/-- The phase that is set is the one that shows (R50). -/
theorem phase_setPhase {g : Nat} (hg : g < 16) (v : Nat) (wrapped : Bool) : (s.setPhase g v wrapped).phase g = v % 2 ^ 16 := by
  unfold setPhase phase
  rw [rd_congr (wptPoll_regs _), rd_rematch _ _ _ (phsGstat_ne_wptStat g hg), rd_showMatch _ _ rfl rfl rfl, rd_wr_same _ _ rfl]
  rfl

theorem hold_setPhase {g : Nat} (hg : g < 16) (v : Nat) (wrapped : Bool) : (s.setPhase g v wrapped).hold g = s.hold g := by
  unfold setPhase hold on
  rw [rd_congr (wptPoll_regs _), rd_rematch _ _ _ (phsGstat_ne_wptStat g hg), rd_showMatch _ _ rfl rfl rfl,
    rd_wr_apart _ _ rfl rfl]

theorem setPhase_regs (g v : Nat) (wrapped : Bool) : s.sameRegsBut [R.PHS_GSTAT g, R.WPT_STAT] (s.setPhase g v wrapped) :=
  (((sameRegsBut.refl _ s).wr (by simp) _ _).trans (rematch_regs _ g wrapped)).of_regs (wptPoll_regs _)

theorem setPhase_glades (g v : Nat) (wrapped : Bool) : (s.setPhase g v wrapped).glades = s.glades :=
  (wptPoll_glades _).trans (rematch_glades _ g wrapped)

/-! ## The phase context at reset (R53) -/

theorem phase_resetPhase {g : Nat} (hg : g < 16) : (s.resetPhase g).phase g = 0 := phase_setPhase _ hg 0 false

theorem hold_resetPhase {g : Nat} (hg : g < 16) : (s.resetPhase g).hold g = true := by
  unfold resetPhase setHold flag
  rw [hold_setPhase _ hg, hold, on, rd_congr (updGl_regs ..), rd_wr_same _ _ rfl]
  rfl

theorem resetPhase_regs (g : Nat) : s.sameRegsBut [R.PHS_GSTAT g, R.WPT_STAT] (s.resetPhase g) :=
  (((sameRegsBut.refl _ s).flag (by simp) _ _).of_regs (updGl_regs ..)).trans (setPhase_regs _ g 0 false)

/-- Resetting the phase context ends a waiting wrap and leaves the rest of the glade's engines alone. -/
theorem gl_resetPhase (g : Nat) : (s.resetPhase g).gl g = { s.gl g with wrapPending := false } := by
  have h : (s.resetPhase g).glades = ((s.setHold g true).updGl g fun x => { x with wrapPending := false }).glades := setPhase_glades ..
  unfold gl
  rw [h]
  exact (gl_updGl ..).trans (if_pos rfl)

end State
end Sys2Proof.Machine
end

section
/-! PROOF. The grove join and the enable of a glade: the registers that each operation touches (R27, R337, R358, R359). -/
namespace Sys2Proof.Machine

namespace State
variable (s : State)

/-! ## Grove join (R358, R359) -/

theorem sendJoin_regs (g : Nat) (l : List Nat) : (s.sendJoin g l).regs = s.regs := toMembers_regs ..

theorem refreshAbsent_regs (g : Nat) : s.sameRegsBut [R.GRV_JOIN g] (s.refreshAbsent g) := (sameRegsBut.refl _ s).wr (by simp) _ _

theorem gl_refreshAbsent (g x : Nat) : (s.refreshAbsent g).gl x = s.gl x := rfl

theorem refuseSelf_regs (g cause : Nat) : s.sameRegsBut [R.GRV_JOIN g, R.EVR_LOST] (s.refuseSelf g cause) :=
  (((sameRegsBut.refl _ s).wr (by simp) _ _).wr (by simp) _ _).record (by simp) _

theorem checkJoins_regs (g : Nat) : s.sameRegsBut [R.GRV_JOIN g, R.EVR_LOST] (s.checkJoins g) := by
  unfold checkJoins
  dsimp only
  have hkept : ∀ f, s.sameRegsBut [R.GRV_JOIN g, R.EVR_LOST] ((s.updGl g f).refreshAbsent g) := fun f =>
    ((sameRegsBut.refl _ s).of_regs (updGl_regs ..)).trans ((refreshAbsent_regs _ g).mono (by simp))
  repeat' split
  · exact (refreshAbsent_regs s g).mono (by simp)
  · exact (hkept _).trans (refuseSelf_regs _ _ _)
  · exact hkept _

/-- While the JOIN of LMN 0 is not there nothing is checked (R359). -/
theorem checkJoins_without_zero {g : Nat} (h : ((s.gl g).joins.any fun j => j.1 == 0) = false) :
    s.checkJoins g = s.refreshAbsent g := by
  have hnone : ((s.gl g).joins.find? fun j => j.1 == 0) = none := by simpa using h
  unfold checkJoins
  rw [hnone]

theorem startJoin_regs (g : Nat) : s.sameRegsBut [R.GRV_JOIN g, R.EVR_LOST] (s.startJoin g) := by
  unfold startJoin
  dsimp only
  have hwarned : ∀ (l : List Nat) (e : Nat → Ev), s.sameRegsBut [R.GRV_JOIN g, R.EVR_LOST]
      ((s.wr (R.GRV_JOIN g) F.GRV_JOIN_STATE 1).each l fun s c => s.record (e c)) := fun l e =>
    ((sameRegsBut.refl _ s).wr (by simp) _ _).each fun v _ _ => (sameRegsBut.refl _ v).record (by simp) _
  split
  · exact ((hwarned _ _).of_regs ((sendJoin_regs ..).trans (updGl_regs ..))).trans (checkJoins_regs _ _)
  · exact (hwarned _ _).trans ((refreshAbsent_regs _ _).mono (by simp))

/-- This member's JOIN is spelled by registers alone. -/
theorem ownJoin_record (g : Nat) (e : Ev) (hg : g < 16) : (s.record e).ownJoin g = s.ownJoin g := by
  have hreg : ∀ a, a < R.EVR_LOST → (s.record e).reg a = s.reg a := fun a ha => reg_record s e (Nat.ne_of_lt ha)
  unfold ownJoin lmn pnid State.exact moments members spm regionSize ring on rd
  unfold R.EVR_LOST at hreg
  unfold R.GLD_MEMBER R.RTR_SELF R.GLD_LAYERHASH R.GLD_CTL R.GLD_REGION R.GLD_SIZE R.GLD_RING R.CQ_GSRC
  simp (disch := omega) only [hreg]

/-! ## Enable (R27) -/

/-- The registers of a glade as its activation leaves them, before its phase context is reset (R27). -/
def describe (s : State) (g : Nat) : State :=
  let bloc := s.blocOf g (s.members g) (s.lmn g)
  let table := s.readBytes (s.regionBase g 9) (8 * s.layers g)
  let s := s.wr (R.GLD_CTL g) F.GLD_CTL_EN 1
  let s := (s.wr (R.GLD_STATUS g) F.GLD_STATUS_ACTIVE 1).wr (R.GLD_STATUS g) F.GLD_STATUS_ENERR 0
  let s := s.setReg (R.GLD_LAYERHASH g) (BitVec.ofNat 64 (leNat ((digestBytes (Config.sha384 table)).take 8)))
  let s := (s.wr (R.GLD_SIZE g) F.GLD_SIZE_BLOCKS bloc).wr (R.GLD_SIZE g) F.GLD_SIZE_DLEAVES (leavesOf (s.moments g) bloc)
  s.wr (R.CQ_GSRC g) F.CQ_GSRC_N (s.members g * s.spm g)

theorem activate_eq (g : Nat) : s.activate g = ((s.describe g).updGl g fun _ => GladeState.reset).resetPhase g := rfl

theorem rd_setReg_other {s : State} {a c : Nat} (h : c ≠ a) (v : Word) (f : Fld) : (s.setReg a v).rd c f = s.rd c f := by
  simp [rd, h]

/-- The blocks between PHS and WPT, the glades among them, read after the activation as it describes them. -/
theorem rd_activate {g a : Nat} (hg : g < 16) (hlo : 0x020000 ≤ a) (hhi : a < 0x340000) (f : Fld) :
    (s.activate g).rd a f = (s.describe g).rd a f := by
  have hphase : a ≠ R.PHS_GSTAT g ∧ a ≠ R.WPT_STAT := by
    unfold R.PHS_GSTAT R.WPT_STAT
    omega
  rw [activate_eq, (resetPhase_regs _ g).rd (by simp [hphase]), rd_congr (updGl_regs ..)]

/-- The status of a glade that has just been activated (R27, R53). -/
theorem activate_status {g : Nat} (hg : g < 16) :
    (s.activate g).rd (R.GLD_CTL g) F.GLD_CTL_EN = 1 ∧ (s.activate g).rd (R.GLD_STATUS g) F.GLD_STATUS_ACTIVE = 1 ∧
      (s.activate g).rd (R.GLD_STATUS g) F.GLD_STATUS_ENERR = 0 ∧ (s.activate g).phase g = 0 ∧ (s.activate g).hold g = true := by
  have hen : (s.describe g).rd (R.GLD_CTL g) F.GLD_CTL_EN = 1 := by
    unfold describe R.GLD_CTL R.GLD_STATUS R.GLD_LAYERHASH R.GLD_SIZE R.CQ_GSRC
    simp (disch := omega) only [rd_wr_other, rd_setReg_other]
    exact rd_wr_same _ _ rfl 1
  have hstatus : ∀ f, (s.describe g).rd (R.GLD_STATUS g) f =
      (((s.wr (R.GLD_CTL g) F.GLD_CTL_EN 1).wr (R.GLD_STATUS g) F.GLD_STATUS_ACTIVE 1).wr (R.GLD_STATUS g) F.GLD_STATUS_ENERR 0).rd
        (R.GLD_STATUS g) f := fun f => by
    unfold describe R.GLD_CTL R.GLD_STATUS R.GLD_LAYERHASH R.GLD_SIZE R.CQ_GSRC
    simp (disch := omega) only [rd_wr_other, rd_setReg_other]
  have hctl : 0x020000 ≤ R.GLD_CTL g ∧ R.GLD_CTL g < 0x340000 := by unfold R.GLD_CTL; omega
  have hsts : 0x020000 ≤ R.GLD_STATUS g ∧ R.GLD_STATUS g < 0x340000 := by unfold R.GLD_STATUS; omega
  refine ⟨?_, ?_, ?_, phase_resetPhase _ hg, hold_resetPhase _ hg⟩
  · rw [rd_activate s hg hctl.1 hctl.2, hen]
  · rw [rd_activate s hg hsts.1 hsts.2, hstatus, rd_wr_apart _ _ rfl rfl, rd_wr_same _ _ rfl]
    rfl
  · rw [rd_activate s hg hsts.1 hsts.2, hstatus, rd_wr_same _ _ rfl]
    rfl

/-- What follows for a glade that is activated: an empty key slot is warned of (R328), and the glade loads its shard (R233) or joins. -/
def enter (s : State) (g : Nat) : State :=
  let s := if (s.keyCur g).isNone then s.record ((ev Sev.warn Src.gld g).field (R.SEC_KSLOT g) F.SEC_KSLOT_VALID) else s
  if s.on (R.GLD_SBCTL g) F.GLD_SBCTL_LOADALL then
    let s := s.wr (R.GLD_SBSTAT g) F.GLD_SBSTAT_LEFT (s.bloc g)
    if s.bloc g = 0 then (s.wr (R.GLD_SBCTL g) F.GLD_SBCTL_LOADALL 0).startJoin g
    else s.wr (R.GLD_SBSTAT g) F.GLD_SBSTAT_RESTORE 1
  else s.startJoin g

theorem enter_regs (g : Nat) : s.sameRegsBut [R.GLD_SBSTAT g, R.GLD_SBCTL g, R.GRV_JOIN g, R.EVR_LOST] (s.enter g) := by
  have hjoin : ∀ v : State, v.sameRegsBut [R.GLD_SBSTAT g, R.GLD_SBCTL g, R.GRV_JOIN g, R.EVR_LOST] (v.startJoin g) := fun v =>
    (startJoin_regs v g).mono (by simp)
  have hkey : s.sameRegsBut [R.GLD_SBSTAT g, R.GLD_SBCTL g, R.GRV_JOIN g, R.EVR_LOST] (if (s.keyCur g).isNone then
      s.record ((ev Sev.warn Src.gld g).field (R.SEC_KSLOT g) F.SEC_KSLOT_VALID) else s) := by
    split
    · exact (sameRegsBut.refl _ s).record (by simp) _
    · exact sameRegsBut.refl _ s
  unfold enter
  refine hkey.trans ?_
  generalize (if (s.keyCur g).isNone then s.record _ else s) = v
  dsimp only
  repeat' split
  · exact (((sameRegsBut.refl _ _).wr (by simp) _ _).wr (by simp) _ _).trans (hjoin _)
  · exact ((sameRegsBut.refl _ _).wr (by simp) _ _).wr (by simp) _ _
  · exact hjoin _

/-- An enable with nothing but its checks in the way: the glade is validated, and entered when that has activated it (R27). -/
theorem gladeEnable_eq {g : Nat} (hen : s.rd (R.GLD_CTL g) F.GLD_CTL_EN = 0) (hfail : s.ao.failed.contains 74 = false)
    (hact : s.activeGlades = []) :
    s.gladeEnable g = if !(s.validate g).active g then s.validate g else (s.validate g).enter g := by
  have hgmax : ¬(if s.rd R.FUS_POLICY F.FUS_POLICY_GMAX = 0 then 16 else s.rd R.FUS_POLICY F.FUS_POLICY_GMAX) ≤ 0 := by
    split <;> omega
  unfold gladeEnable
  dsimp only
  rw [if_neg (by simp [on, hen]), if_neg (Bool.eq_false_iff.mp hfail), if_neg (by simp [hact]), hact,
    List.length_nil, if_neg hgmax]
  rfl

end State
end Sys2Proof.Machine
end

section
/-! PROOF. The rows GLADE_ENABLE, GLADE_DISABLE, JOIN and JOIN_RESEND (R26, R27, R53, R337, R358). -/
namespace Sys2Proof.Machine

section Rows
variable {s : State} {g : GladeId}

/-! ## GLADE_ENABLE -/

/-- An enable that passes every check (R27, R53). -/
theorem exec_gladeEnable_pass (h : s.up) (hen : s.rd (R.GLD_CTL g.val) F.GLD_CTL_EN = 0) (hfail : s.ao.failed.contains 74 = false)
    (hact : s.activeGlades = []) (herr : s.enableErr g.val = 0) :
    exec (.gladeEnable g) s = .next ((s.activate g.val).enter g.val) := by
  obtain ⟨-, hactive, -⟩ := State.activate_status s g.isLt
  have hval : s.validate g.val = s.activate g.val := if_pos herr
  have hexec : exec (.gladeEnable g) s = .next (s.gladeEnable g.val) := congrArg Host.Outcome.next (State.inMain_of_up h _)
  rw [hexec, State.gladeEnable_eq s hen hfail hact, hval, if_neg (by simp [State.active, State.on, hactive])]

/-- A glade that is not among the active ones is not ACTIVE. -/
theorem State.active_of_activeGlades (hact : s.activeGlades = []) : s.active g.val = false := by
  have hnot : g.val ∉ s.activeGlades := by simp [hact]
  simpa [activeGlades] using hnot

/-- An enable that fails a check (R27). -/
theorem exec_gladeEnable_fail (h : s.up) (hen : s.rd (R.GLD_CTL g.val) F.GLD_CTL_EN = 0) (hfail : s.ao.failed.contains 74 = false)
    (hact : s.activeGlades = []) (herr : s.enableErr g.val ≠ 0) :
    exec (.gladeEnable g) s = .next ((s.wr (R.GLD_STATUS g.val) F.GLD_STATUS_ENERR (s.enableErr g.val)).record
      (((ev Sev.warn Src.gld g.val).field (R.GLD_STATUS g.val) F.GLD_STATUS_ENERR).coded (s.enableErr g.val))) := by
  have hval : s.validate g.val = _ := if_neg herr
  have hexec : exec (.gladeEnable g) s = .next (s.gladeEnable g.val) := congrArg Host.Outcome.next (State.inMain_of_up h _)
  have hne : R.GLD_STATUS g.val ≠ R.EVR_LOST := by unfold R.GLD_STATUS R.EVR_LOST; omega
  have hoff : (s.validate g.val).active g.val = false := by
    rw [hval, State.active, State.on, State.rd_record _ _ hne, State.rd_wr_apart _ _ rfl rfl]
    exact State.active_of_activeGlades hact
  rw [hexec, State.gladeEnable_eq s hen hfail hact, if_pos (by rw [hoff]; rfl), hval]

/-- The code of a failing check fits ENERR (R27). -/
theorem State.enableErr_lt (s : State) (g : Nat) : s.enableErr g < 16 := by
  unfold enableErr
  dsimp only
  repeat' split
  all_goals omega

/-! ## GLADE_DISABLE -/

/-- A disable of a member that belongs to no grove (R26). -/
theorem exec_gladeDisable (h : s.up) (hen : s.rd (R.GLD_CTL g.val) F.GLD_CTL_EN = 1) (hgrove : s.inGrove g.val = false) :
    ∃ t v : State, exec (.gladeDisable g) s = .next t ∧ t.regs = (v.resetPhase g.val).regs ∧
      t.gl g.val = (v.resetPhase g.val).gl g.val ∧ v.gl g.val = GladeState.reset ∧
      v.rd (R.GLD_CTL g.val) F.GLD_CTL_EN = 0 ∧ v.rd (R.GLD_STATUS g.val) F.GLD_STATUS_ACTIVE = 0 := by
  have hexec : exec (.gladeDisable g) s = .next (s.gladeDisable g.val) := congrArg Host.Outcome.next (State.inMain_of_up h _)
  unfold State.gladeDisable at hexec
  rw [if_neg (by simp [State.on, hen]), if_neg (by simp [hgrove])] at hexec
  have hctl : R.GLD_CTL g.val ≠ R.GRV_JOIN g.val ∧ R.GLD_CTL g.val ≠ R.GLD_STATUS g.val := by
    unfold R.GLD_CTL R.GRV_JOIN R.GLD_STATUS
    omega
  have hstatus : R.GLD_STATUS g.val ≠ R.GRV_JOIN g.val := by
    unfold R.GLD_STATUS R.GRV_JOIN
    omega
  refine ⟨_, _, hexec, rfl, rfl, by rw [State.gl_updGl, if_pos rfl], ?_, ?_⟩
  · rw [State.rd_congr (State.updGl_regs ..), State.resetReg, State.rd_setReg_other hctl.1, State.rd_wr_other _ hctl.2,
      State.rd_wr_same _ _ rfl]
    rfl
  · rw [State.rd_congr (State.updGl_regs ..), State.resetReg, State.rd_setReg_other hstatus, State.rd_wr_same _ _ rfl]
    rfl

/-! ## JOIN and JOIN_RESEND -/

/-- A JOIN that comes before the JOIN of LMN 0 is kept (R358). -/
theorem exec_join_kept {j : JoinMsg} (h : s.up) (hen : s.rd (R.GLD_CTL g.val) F.GLD_CTL_EN = 1)
    (hstate : s.rd (R.GRV_JOIN g.val) F.GRV_JOIN_STATE ≠ 2) (hlmn : j.lmn < s.members g.val) (hj : j.lmn ≠ 0)
    (hzero : ((s.gl g.val).joins.any fun x => x.1 == 0) = false) (hnew : ¬(j.lmn, j) ∈ (s.gl g.val).joins) :
    exec (.join g j) s =
      .next ((s.updGl g.val fun e => { e with joins := e.joins ++ [(j.lmn, j)] }).refreshAbsent g.val) := by
  have hexec : exec (.join g j) s = .next _ := congrArg Host.Outcome.next (State.inMain_of_up h _)
  rw [hexec, if_neg (by simp [State.on, hen]), if_neg (by simpa using hnew), if_neg (by simp [hstate, hlmn]),
    State.checkJoins_without_zero]
  simpa [hj] using hzero

/-- A JOIN that is held already is answered with this member's own (R358). -/
theorem exec_join_held {j : JoinMsg} (h : s.up) (hen : s.rd (R.GLD_CTL g.val) F.GLD_CTL_EN = 1)
    (hheld : (j.lmn, j) ∈ (s.gl g.val).joins) : exec (.join g j) s = .next (s.sendJoin g.val [j.lmn]) := by
  have hexec : exec (.join g j) s = .next _ := congrArg Host.Outcome.next (State.inMain_of_up h _)
  rw [hexec, if_neg (by simp [State.on, hen]), if_pos (by simpa using hheld)]

/-- While the join waits for other members, their absence is recorded and the own JOIN goes to them again (R358). -/
theorem exec_joinResend (h : s.up) (hstate : s.rd (R.GRV_JOIN g.val) F.GRV_JOIN_STATE = 1)
    (hown : ((s.gl g.val).joins.any fun x => x.1 == s.lmn g.val) = true) (habsent : s.absentJoins g.val ≠ []) :
    exec (.joinResend g) s = .next ((s.record ((ev Sev.warn Src.grv g.val).field (R.GRV_JOIN g.val) F.GRV_JOIN_ABSENT)).sendJoin
      g.val (s.absentJoins g.val)) := by
  have hexec : exec (.joinResend g) s = .next _ := congrArg Host.Outcome.next (State.inMain_of_up h _)
  rw [hexec, if_neg (by simp [hstate]), if_neg (by simp [hown])]
  dsimp only
  rw [if_neg (by simpa using habsent)]

end Rows

/-- Settles O14: each row by the state that it answers. -/
theorem gladesAndJoins : Obligations.GladesAndJoins := by
  unfold Obligations.GladesAndJoins
  refine ⟨fun s g h hen hfail hact herr => ?_, fun s g h hen hfail hact herr => ?_, fun s g h hen hgrove => ?_,
    fun s g j h hen hstate hlmn hj hzero hnew => ?_, fun s g j h hen hheld => ?_, fun s g h hstate hown habsent => ?_⟩
  · have hexec := exec_gladeEnable_pass h hen hfail hact herr
    obtain ⟨hctl, hactive, henerr, hphase, hhold⟩ := State.activate_status s g.isLt
    have hframe : ∀ a, 0x020000 ≤ a ∧ a < 0x020100 + 0x1000 * g.val ∨ a < 0x020000 → ∀ f,
        ((s.activate g.val).enter g.val).rd a f = (s.activate g.val).rd a f := fun a ha =>
      (State.enter_regs _ g.val).rd (by
        simp only [List.mem_cons, List.not_mem_nil, or_false, R.GLD_SBSTAT, R.GLD_SBCTL, R.GRV_JOIN, R.EVR_LOST]
        omega)
    refine ⟨_, hexec, ?_, ?_, ?_, ?_, ?_, exec_mem hexec rfl⟩
    · rw [hframe _ (by unfold R.GLD_CTL; omega), hctl]
    · rw [hframe _ (by unfold R.GLD_STATUS; omega), hactive]
    · rw [hframe _ (by unfold R.GLD_STATUS; omega), henerr]
    · rw [State.phase, hframe _ (by unfold R.PHS_GSTAT; omega), ← hphase, State.phase]
    · rw [State.hold, State.on, hframe _ (by unfold R.PHS_GSTAT; omega), ← hhold, State.hold, State.on]
  · have hexec := exec_gladeEnable_fail h hen hfail hact herr
    have hne : R.GLD_STATUS g.val ≠ R.EVR_LOST ∧ R.GLD_CTL g.val ≠ R.EVR_LOST ∧ R.GLD_CTL g.val ≠ R.GLD_STATUS g.val := by
      unfold R.GLD_STATUS R.GLD_CTL R.EVR_LOST
      omega
    refine ⟨_, hexec, ?_, ?_, ((State.sameRegsBut.refl _ s).wr (by simp) _ _).record (by simp) _, exec_mem hexec rfl⟩
    · rw [State.rd_record _ _ hne.2.1, State.rd_wr_other _ hne.2.2, hen]
    · rw [State.rd_record _ _ hne.1, State.rd_wr_same _ _ rfl]
      exact Nat.mod_eq_of_lt (State.enableErr_lt s g.val)
  · obtain ⟨t, v, hexec, hregs, hgl, hreset, hen', hactive⟩ := exec_gladeDisable h hen hgrove
    have hframe : ∀ a, 0x020000 ≤ a ∧ a < 0x340000 → ∀ f, t.rd a f = v.rd a f := fun a ha f => by
      rw [State.rd_congr hregs, (State.resetPhase_regs v g.val).rd]
      simp only [List.mem_cons, List.not_mem_nil, or_false, R.PHS_GSTAT, R.WPT_STAT]
      omega
    refine ⟨t, hexec, ?_, ?_, ?_, exec_mem hexec rfl⟩
    · rw [hframe _ (by unfold R.GLD_CTL; omega), hen']
    · rw [hframe _ (by unfold R.GLD_STATUS; omega), hactive]
    · rw [hgl, State.gl_resetPhase, hreset]
      rfl
  · have hexec := exec_join_kept h hen hstate hlmn hj hzero hnew
    refine ⟨_, hexec, ?_, ((State.sameRegsBut.refl _ s).of_regs (State.updGl_regs ..)).trans (State.refreshAbsent_regs _ g.val),
      exec_mem hexec rfl⟩
    rw [State.gl_refreshAbsent, State.gl_updGl, if_pos rfl]
  · exact ⟨_, exec_join_held h hen hheld, rfl, rfl, rfl, rfl⟩
  · have hexec := exec_joinResend h hstate hown habsent
    refine ⟨_, hexec, ?_, ((State.sameRegsBut.refl _ s).record (by simp) _).of_regs (State.sendJoin_regs ..), ?_, exec_mem hexec rfl⟩
    · rw [State.sendJoin, State.toMembers_eq, State.ownJoin_record _ _ _ g.isLt, State.record_sent]
    · rw [State.sendJoin, State.toMembers_glades, State.record_glades]

end Sys2Proof.Machine
end

section
/-! PROOF. The write watch: which registers tell a unit's region, and what a hit touches (R43, R45, R298, R299). -/
namespace Sys2Proof.Machine

namespace State
variable {s t : State}

/-! ## The regions of the active glades -/

/-- Every register below the blocks of the memory ports reads as before: those of the glades are among them. -/
def sameBelowPorts (s t : State) : Prop := ∀ a, a < 0x1C0000 → t.reg a = s.reg a

theorem sameRegsBut.belowPorts {l : List Nat} (h : s.sameRegsBut l t) (hl : ∀ a ∈ l, 0x1C0000 ≤ a) : s.sameBelowPorts t :=
  fun a ha => h a fun hm => Nat.not_le.mpr ha (hl a hm)

theorem sameBelowPorts.activeGlades (h : s.sameBelowPorts t) : t.activeGlades = s.activeGlades :=
  List.filter_congr fun g hg => by
    have hlt := List.mem_range.mp hg
    rw [active, on, rd, h _ (by unfold R.GLD_STATUS; omega)]
    rfl

theorem sameBelowPorts.region (h : s.sameBelowPorts t) {g x : Nat} (hg : g < 16) (hx : x < 10) :
    t.regionBase g x = s.regionBase g x ∧ t.regionSize g x = s.regionSize g x := by
  have hreg : t.reg (R.GLD_REGION g x) = s.reg (R.GLD_REGION g x) := h _ (by unfold R.GLD_REGION; omega)
  simp only [regionBase, regionSize, rd, hreg, and_self]

theorem lt_of_mem_activeGlades {g : Nat} (h : g ∈ s.activeGlades) : g < 16 := List.mem_range.mp (List.mem_of_mem_filter h)

theorem sameBelowPorts.regionOfUnit (h : s.sameBelowPorts t) (u : Nat) : t.regionOfUnit u = s.regionOfUnit u := by
  unfold State.regionOfUnit
  rw [h.activeGlades]
  refine List.find?_congr fun gx hgx => ?_
  obtain ⟨g, hg, x, hx, rfl⟩ : ∃ g ∈ s.activeGlades, ∃ x ∈ List.range 10, (g, x) = gx := by
    simpa only [List.mem_flatMap, List.mem_map] using hgx
  obtain ⟨hbase, hsize⟩ := h.region (lt_of_mem_activeGlades hg) (List.mem_range.mp hx)
  simp only [hbase, hsize]

theorem sameBelowPorts.watchedIn (h : s.sameBelowPorts t) (a b : Nat) : t.watchedIn a b = s.watchedIn a b := by
  have hpresent : ∀ g ∈ s.activeGlades, t.presentRegions g = s.presentRegions g := fun g hg => by
    unfold presentRegions
    congr 1
    refine List.map_congr_left fun x hx => ?_
    obtain ⟨hbase, hsize⟩ := h.region (lt_of_mem_activeGlades hg) (List.mem_range.mp hx)
    rw [hbase, hsize]
  unfold State.watchedIn
  rw [h.activeGlades]
  refine List.flatMap_congr fun g hg => ?_
  rw [hpresent g hg]

/-- The glade of a unit's region is one of the sixteen. -/
theorem regionOfUnit_lt {u g x : Nat} (h : s.regionOfUnit u = some (g, x)) : g < 16 := by
  have hmem := List.mem_of_find?_eq_some h
  obtain ⟨g', hg', x', -, heq⟩ : ∃ g' ∈ s.activeGlades, ∃ x' ∈ List.range 10, (g', x') = (g, x) := by
    simpa only [List.mem_flatMap, List.mem_map] using hmem
  cases heq
  exact lt_of_mem_activeGlades hg'

/-! ## What a hit touches -/

variable (s)

/-- A count leaves the other fields of its register alone. -/
theorem rd_inc_apart (a : Nat) {f g : Fld} (h : f.apart g = true) (hg : g.ok = true) : (s.inc a f).rd a g = s.rd a g :=
  rd_wr_apart s a h hg _

theorem charge_regs (c rd wr blk : Nat) : s.sameRegsBut [R.BGT_USE c] (s.charge c rd wr blk) := by
  unfold charge
  dsimp only
  split
  · exact (((sameRegsBut.refl _ s).of_regs rfl).add (by simp) _ _).add (by simp) _ _
  · exact (sameRegsBut.refl _ s).of_regs rfl

/-- A charge changes the budget and the registers alone (R308). -/
theorem charge_fields (c rd wr blk : Nat) : ∃ r b, s.charge c rd wr blk = { s with regs := r, budget := b } := by
  unfold charge
  dsimp only
  split
  all_goals exact ⟨_, _, rfl⟩

theorem charge_glades (c rd wr blk : Nat) : (s.charge c rd wr blk).glades = s.glades := by
  obtain ⟨r, b, h⟩ := charge_fields s c rd wr blk
  rw [h]

theorem charge_ports (c rd wr blk : Nat) : (s.charge c rd wr blk).ports = s.ports := by
  obtain ⟨r, b, h⟩ := charge_fields s c rd wr blk
  rw [h]

theorem refreshStale_regs (g : Nat) : s.sameRegsBut [R.GRV_LOST g] (s.refreshStale g) := by
  unfold refreshStale
  dsimp only
  split
  all_goals exact (sameRegsBut.refl _ s).wr (by simp) _ _

theorem markStale_regs (g p : Nat) : s.sameRegsBut [R.GRV_LOST g] (s.markStale g p) :=
  ((sameRegsBut.refl _ s).of_regs (updGl_regs ..)).trans (refreshStale_regs _ g)

/-- What a hit leaves to repair shows in a register only where parity leaves become stale (R43, R159). -/
theorem spoilUnit_regs (g x u : Nat) : s.sameRegsBut [R.GRV_LOST g] (s.spoilUnit g x u) := by
  unfold spoilUnit
  dsimp only
  repeat' split
  iterate 6 exact (sameRegsBut.refl _ s).of_regs rfl
  · exact (sameRegsBut.refl _ s).each fun v (f : Fold) _ => markStale_regs v g f.p
  iterate 2 exact (sameRegsBut.refl _ s).of_regs rfl

/-- A hit on a unit of a class of values that the shard holds leaves the class's leaf to repair and touches no register (R43). -/
theorem spoilUnit_value {g x u : Nat} (hx : x < 3) (hmu : x ≤ s.moments g) (hi : u - s.regionBase g x / 4096 < s.bloc g) :
    s.spoilUnit g x u =
      s.updGl g fun e => { e with repair := addOnce e.repair (s.valueLeaf g (u - s.regionBase g x / 4096) x) } := by
  unfold spoilUnit
  dsimp only
  rw [if_pos hx, if_pos (by simp [hmu, hi])]

theorem mem_addOnce {α : Type} [DecidableEq α] (l : List α) (a : α) : a ∈ addOnce l a := by
  unfold addOnce
  split
  · assumption
  · simp

/-- What the change for one element establishes and the changes for the others keep holds after all of them. -/
theorem each_of_mem {α : Type} {p : State → Prop} {f : State → α → State} {l : List α} {x : α} (hx : x ∈ l)
    (hest : ∀ v, p (f v x)) (hkeep : ∀ v, ∀ y ∈ l, p v → p (f v y)) : p (s.each l f) := by
  have hrest : ∀ (r : List α) (v : State), (∀ y ∈ r, y ∈ l) → p v → p (r.foldl f v) := fun r => by
    induction r with
    | nil => exact fun v _ hv => hv
    | cons y r ih => exact fun v hr hv => ih _ (fun z hz => hr z (by simp [hz])) (hkeep v y (hr y (by simp)) hv)
  obtain ⟨before, after, rfl⟩ := List.append_of_mem hx
  unfold each
  rw [List.foldl_append]
  exact hrest after _ (fun y hy => by simp [hy]) (hest _)

end State
end Sys2Proof.Machine
end

section
/-! PROOF. The rows WRITE_WATCH_REPORT, WATCH_OVERFLOW, MP_RESPONSE, MP_TIMEOUT and PORT_DOWN (R43, R45, R295, R296, R298, R299). -/
namespace Sys2Proof.Machine

section Rows
variable {s : State} {q : PortId}

/-! ## WRITE_WATCH_REPORT -/

/-- A count of the write watch stands in a block of the memory ports. -/
theorem belowPorts_inc_ww (s : State) (q : PortId) (f : Fld) : s.sameBelowPorts (s.inc (R.MPT_WW q.val) f) :=
  ((State.sameRegsBut.refl [R.MPT_WW q.val] s).inc (by simp) f).belowPorts (by simp [R.MPT_WW]; omega)

/-- A report outside the active glades' regions is counted, and that is all (R298). -/
theorem exec_writeWatchReport_outside (h : s.up) {l : BitVec 34} (hnone : s.regionOfUnit (offsetOfLine q.val l.toNat / 4096) = none)
    (st : Bool) : exec (.writeWatchReport q l st) s = .next (s.inc (R.MPT_WW q.val) F.MPT_WW_REPORTS) := by
  have hexec : exec (.writeWatchReport q l st) s = .next (s.watchReport q.val l.toNat st) :=
    congrArg Host.Outcome.next (State.inMain_of_up h _)
  rw [hexec, State.watchReport]
  rw [(belowPorts_inc_ww s q _).regionOfUnit, hnone]

/-- The counts of a report that hits a watched unit (R298). -/
def countHit (s : State) (q : PortId) : State := (s.inc (R.MPT_WW q.val) F.MPT_WW_REPORTS).inc (R.MPT_WW q.val) F.MPT_WW_HITS

/-- A report of a hit is counted, and the hit has its outcome (R298, R43). -/
theorem exec_writeWatchReport_hit (h : s.up) {l : BitVec 34} {g x : Nat}
    (hsome : s.regionOfUnit (offsetOfLine q.val l.toNat / 4096) = some (g, x)) (hx : watchedRegion x = true) (st : Bool) :
    exec (.writeWatchReport q l st) s =
      .next ((countHit s q).watchHit q.val g x (offsetOfLine q.val l.toNat / 4096) st) := by
  have hexec : exec (.writeWatchReport q l st) s = .next (s.watchReport q.val l.toNat st) :=
    congrArg Host.Outcome.next (State.inMain_of_up h _)
  rw [hexec, State.watchReport]
  rw [(belowPorts_inc_ww s q _).regionOfUnit, hsome]
  exact congrArg Host.Outcome.next (if_pos hx)

/-- A hit shows in WWHIT and in a record, before its repair (R43). -/
def showHit (s : State) (g u : Nat) : State :=
  (s.wr (R.GLD_STATUS g) F.GLD_STATUS_WWHIT 1).record (((ev Sev.warn Src.gld g).field (R.GLD_STATUS g) F.GLD_STATUS_WWHIT).about u)

theorem showHit_regs (s : State) (g u : Nat) : s.sameRegsBut [R.GLD_STATUS g, R.EVR_LOST] (showHit s g u) :=
  ((State.sameRegsBut.refl _ s).wr (by simp) _ _).record (by simp) _

theorem countHit_regs (s : State) (q : PortId) : s.sameRegsBut [R.MPT_WW q.val] (countHit s q) :=
  ((State.sameRegsBut.refl _ s).inc (by simp) _).inc (by simp) _

theorem rd_showHit (s : State) (g u : Nat) : (showHit s g u).rd (R.GLD_STATUS g) F.GLD_STATUS_WWHIT = 1 := by
  have hne : R.GLD_STATUS g ≠ R.EVR_LOST := by unfold R.GLD_STATUS R.EVR_LOST; omega
  rw [showHit, State.rd_record _ _ hne, State.rd_wr_same _ _ rfl]
  rfl

theorem rd_countHit (s : State) (q : PortId) : (countHit s q).rd (R.MPT_WW q.val) F.MPT_WW_HITS =
    min (s.rd (R.MPT_WW q.val) F.MPT_WW_HITS + 1) (2 ^ F.MPT_WW_HITS.width - 1) := by
  rw [countHit, State.rd_inc_same _ _ rfl, State.rd_inc_apart _ _ rfl rfl]

/-- A hit on a leaf that is staged in tile SRAM is charged for its write-back, and nothing awaits repair (R45). -/
theorem watchHit_staged (s : State) (q g x u : Nat) : s.watchHit q g x u true = (showHit s g u).charge 2 0 32 0 := by
  simp only [State.watchHit, showHit, if_true]

/-- Any other hit leaves its unit to repair (R43). -/
theorem watchHit_unstaged (s : State) (q g x u : Nat) : s.watchHit q g x u false = (showHit s g u).awaitUnit q g x u := by
  simp only [State.watchHit, showHit, Bool.false_eq_true, if_false]

/-- A hit on a master leaf that the shard holds leaves that leaf to repair, and touches no register in doing so (R43). -/
theorem awaitUnit_master {v : State} {p g u : Nat} (hi : u - v.regionBase g 0 / 4096 < v.bloc g) :
    v.valueLeaf g (u - v.regionBase g 0 / 4096) 0 ∈ ((v.awaitUnit p g 0 u).gl g).repair ∧ (v.awaitUnit p g 0 u).regs = v.regs := by
  have hspoil := State.spoilUnit_value v (show 0 < 3 by decide) (Nat.zero_le _) hi
  have hmem : v.valueLeaf g (u - v.regionBase g 0 / 4096) 0 ∈ ((v.spoilUnit g 0 u).gl g).repair := by
    rw [hspoil, State.gl_updGl, if_pos rfl]
    exact State.mem_addOnce _ _
  unfold State.awaitUnit
  dsimp only
  split
  · exact ⟨hmem, by rw [State.updPt_regs, hspoil, State.updGl_regs]⟩
  · exact ⟨hmem, by rw [hspoil, State.updGl_regs]⟩

/-! ## WATCH_OVERFLOW -/

/-- An overflow is counted, and recorded with each end of its range, before its units are treated as hit (R299). -/
def countOverflow (s : State) (q : PortId) (lo hi : BitVec 34) : State :=
  let e := (ev Sev.warn Src.mpt q.val).field (R.MPT_WW q.val) F.MPT_WW_OVF
  ((s.inc (R.MPT_WW q.val) F.MPT_WW_OVF).record ((e.coded 1).about (lo.toNat / 4))).record ((e.coded 2).about (hi.toNat / 4))

theorem countOverflow_regs (s : State) (q : PortId) (lo hi : BitVec 34) :
    s.sameRegsBut [R.MPT_WW q.val, R.EVR_LOST] (countOverflow s q lo hi) :=
  (((State.sameRegsBut.refl _ s).inc (by simp) _).record (by simp) _).record (by simp) _

theorem rd_countOverflow (s : State) (q : PortId) (lo hi : BitVec 34) : (countOverflow s q lo hi).rd (R.MPT_WW q.val) F.MPT_WW_OVF =
    min (s.rd (R.MPT_WW q.val) F.MPT_WW_OVF + 1) (2 ^ F.MPT_WW_OVF.width - 1) := by
  have hne : R.MPT_WW q.val ≠ R.EVR_LOST := by unfold R.MPT_WW R.EVR_LOST; omega
  rw [countOverflow, State.rd_record _ _ hne, State.rd_record _ _ hne, State.rd_inc_same _ _ rfl]

/-- A watched unit that an overflow treats as hit: WWHIT of its glade, and what the units of the entry leave to repair (R299). -/
def overflowHit (s : State) (h : Nat × Nat × Nat × Nat) : State :=
  (s.wr (R.GLD_STATUS h.1) F.GLD_STATUS_WWHIT 1).each (List.range' h.2.2.1 (h.2.2.2 + 1 - h.2.2.1)) fun s u => s.spoilUnit h.1 h.2.1 u

theorem exec_watchOverflow (h : s.up) (lo hi : BitVec 34) :
    exec (.watchOverflow q lo hi) s = .next (
      if (s.watchedIn (lo.toNat / 4) (hi.toNat / 4)).isEmpty then
        (countOverflow s q lo hi).each (s.watchedIn (lo.toNat / 4) (hi.toNat / 4)) overflowHit
      else ((countOverflow s q lo hi).each (s.watchedIn (lo.toNat / 4) (hi.toNat / 4)) overflowHit).updPt q.val
        fun p => p.addRange (lo.toNat / 4, hi.toNat / 4)) := by
  have hexec : exec (.watchOverflow q lo hi) s = .next (s.watchOverflow q.val lo.toNat hi.toNat) :=
    congrArg Host.Outcome.next (State.inMain_of_up h _)
  have hwatched : (countOverflow s q lo hi).watchedIn (lo.toNat / 4) (hi.toNat / 4) = s.watchedIn (lo.toNat / 4) (hi.toNat / 4) :=
    ((countOverflow_regs s q lo hi).belowPorts (by simp [R.MPT_WW, R.EVR_LOST]; omega)).watchedIn _ _
  rw [hexec, ← hwatched]
  rfl

/-- The units of an entry show in WWHIT of the entry's glade, and in no other bit of a status that a hit shows in (R43). -/
theorem overflowHit_regs (s : State) (h : Nat × Nat × Nat × Nat) :
    (s.wr (R.GLD_STATUS h.1) F.GLD_STATUS_WWHIT 1).sameRegsBut [R.GRV_LOST h.1] (overflowHit s h) :=
  (State.sameRegsBut.refl _ _).each fun v u _ => State.spoilUnit_regs v h.1 h.2.1 u

theorem rd_overflowHit {s : State} {h y : Nat × Nat × Nat × Nat} (hlt : h.1 < 16) :
    (overflowHit s y).rd (R.GLD_STATUS h.1) F.GLD_STATUS_WWHIT =
      if y.1 = h.1 then 1 else s.rd (R.GLD_STATUS h.1) F.GLD_STATUS_WWHIT := by
  have hne : R.GLD_STATUS h.1 ≠ R.GRV_LOST y.1 := by unfold R.GLD_STATUS R.GRV_LOST; omega
  rw [(overflowHit_regs s y).rd (by simpa using hne)]
  split
  case isTrue heq =>
    rw [heq, State.rd_wr_same _ _ rfl]
    rfl
  case isFalse hdiff =>
    exact State.rd_wr_other _ (by unfold R.GLD_STATUS; omega) _ _ _

/-! ## MP_RESPONSE and MP_TIMEOUT -/

/-- The count of requests that are outstanding in a direction. -/
def outField (write : Bool) : Fld := if write then F.MPT_STAT_OUTWR else F.MPT_STAT_OUTRD

theorem portDone_regs (s : State) (q : Nat) (write : Bool) : s.sameRegsBut [R.MPT_STAT q] (s.portDone q write) :=
  (State.sameRegsBut.refl _ s).wr (by simp) _ _

/-- A response ends one request (R295). -/
theorem rd_portDone (s : State) (q : Nat) (write : Bool) :
    (s.portDone q write).rd (R.MPT_STAT q) (outField write) = s.rd (R.MPT_STAT q) (outField write) - 1 := by
  have hlt := State.rd_lt s (R.MPT_STAT q) (outField write)
  have hok : (outField write).ok = true := by cases write <;> rfl
  exact (State.rd_wr_same s _ hok _).trans (Nat.mod_eq_of_lt (Nat.lt_of_le_of_lt (Nat.sub_le _ _) hlt))

/-- A write that a port issues once more (R296). -/
def reissue (s : State) (q : PortId) (l : BitVec 34) : State :=
  ((s.inc (R.MPT_ERR q.val) F.MPT_ERR_WERR).updPt q.val fun p => { p with retried := p.retried ++ [l.toNat] }).send
    (.port q.val "WRITE" [l.toNat])

/-- A write that fails for the first time is counted in WERR and issued once more (R296). -/
theorem accessFailed_write {l : BitVec 34} (h : (s.pt q.val).retried.contains l.toNat = false) (u : MpUse) :
    s.accessFailed q.val true l.toNat u = reissue s q l := by
  have hinc : ¬((s.inc (R.MPT_ERR q.val) F.MPT_ERR_WERR).pt q.val).retried.contains l.toNat = true := Bool.eq_false_iff.mp h
  unfold State.accessFailed
  dsimp only
  rw [if_pos rfl, if_neg hinc]
  rfl

theorem reissue_regs (s : State) (q : PortId) (l : BitVec 34) : s.sameRegsBut [R.MPT_ERR q.val] (reissue s q l) :=
  ((State.sameRegsBut.refl _ s).inc (by simp) _).of_regs ((State.send_regs ..).trans (State.updPt_regs ..))

theorem rd_reissue_werr (s : State) (q : PortId) (l : BitVec 34) : (reissue s q l).rd (R.MPT_ERR q.val) F.MPT_ERR_WERR =
    min (s.rd (R.MPT_ERR q.val) F.MPT_ERR_WERR + 1) (2 ^ F.MPT_ERR_WERR.width - 1) :=
  State.rd_inc_same s _ rfl

theorem rd_reissue_apart (s : State) (q : PortId) (l : BitVec 34) {f : Fld} (h : F.MPT_ERR_WERR.apart f = true) (hf : f.ok = true) :
    (reissue s q l).rd (R.MPT_ERR q.val) f = s.rd (R.MPT_ERR q.val) f :=
  State.rd_inc_apart s _ h hf

theorem retried_reissue (s : State) (q : PortId) (l : BitVec 34) :
    ((reissue s q l).pt q.val).retried = (s.pt q.val).retried ++ [l.toNat] := by
  have hpt : (reissue s q l).pt q.val = (State.updPt (s.inc (R.MPT_ERR q.val) F.MPT_ERR_WERR) q.val
    fun p => { p with retried := p.retried ++ [l.toNat] }).pt q.val := rfl
  rw [hpt, State.pt_updPt, if_pos rfl]
  rfl

theorem sent_reissue (s : State) (q : PortId) (l : BitVec 34) : (reissue s q l).sent = s.sent ++ [.port q.val "WRITE" [l.toNat]] := rfl

theorem exec_mpResponse_read_ok (h : s.up) (tag : Nat) (l : BitVec 34) (u : MpUse) :
    exec (.mpResponse q false tag l u .ok) s = .next (s.portDone q.val false) :=
  congrArg Host.Outcome.next (State.inMain_of_up h _)

theorem exec_mpResponse_read_corr (h : s.up) (tag : Nat) (l : BitVec 34) (u : MpUse) :
    exec (.mpResponse q false tag l u .corr) s = .next ((s.portDone q.val false).inc (R.MPT_ERR q.val) F.MPT_ERR_CORR) :=
  congrArg Host.Outcome.next (State.inMain_of_up h _)

theorem exec_mpResponse_write_uncorr (h : s.up) (tag : Nat) {l : BitVec 34} (u : MpUse)
    (hfirst : (s.pt q.val).retried.contains l.toNat = false) :
    exec (.mpResponse q true tag l u .uncorr) s =
      .next (reissue ((s.portDone q.val true).inc (R.MPT_ERR q.val) F.MPT_ERR_UNCORR) q l) :=
  (congrArg Host.Outcome.next (State.inMain_of_up h _)).trans (congrArg Host.Outcome.next
    (accessFailed_write (s := (s.portDone q.val true).inc (R.MPT_ERR q.val) F.MPT_ERR_UNCORR) hfirst u))

/-- A request that times out is counted and recorded (R296). -/
def countTimeout (s : State) (q : PortId) (write : Bool) (l : BitVec 34) : State :=
  ((s.portDone q.val write).inc (R.MPT_ERR q.val) F.MPT_ERR_TMO).record
    (((ev Sev.fault Src.mpt q.val).field (R.MPT_ERR q.val) F.MPT_ERR_TMO).about l.toNat)

theorem countTimeout_regs (s : State) (q : PortId) (write : Bool) (l : BitVec 34) :
    s.sameRegsBut [R.MPT_STAT q.val, R.MPT_ERR q.val, R.EVR_LOST] (countTimeout s q write l) :=
  (((portDone_regs s q.val write).mono (by simp)).inc (by simp) _).record (by simp) _

theorem pt_countTimeout (s : State) (q : PortId) (write : Bool) (l : BitVec 34) : (countTimeout s q write l).pt q.val = s.pt q.val := by
  rw [State.pt, countTimeout, State.record_ports]
  rfl

theorem rd_countTimeout (s : State) (q : PortId) (write : Bool) (l : BitVec 34) :
    (countTimeout s q write l).rd (R.MPT_ERR q.val) F.MPT_ERR_TMO =
      min (s.rd (R.MPT_ERR q.val) F.MPT_ERR_TMO + 1) (2 ^ F.MPT_ERR_TMO.width - 1) := by
  have herr : R.MPT_ERR q.val ≠ R.EVR_LOST ∧ R.MPT_ERR q.val ≠ R.MPT_STAT q.val := by
    unfold R.MPT_ERR R.EVR_LOST R.MPT_STAT
    omega
  rw [countTimeout, State.rd_record _ _ herr.1, State.rd_inc_same _ _ rfl, (portDone_regs s q.val write).rd (by simp [herr.2])]

/-- The timeouts of a port that count towards its going down: those of the last millisecond (R296). -/
def recentTimeouts (s : State) (q : PortId) : List Nat := ((s.pt q.val).timeouts ++ [s.now]).filter fun t => s.now < t + 1000

theorem length_recentTimeouts (h : (s.pt q.val).timeouts = []) : ¬16 ≤ (recentTimeouts s q).length := by
  have hle := List.length_filter_le (fun t => decide (s.now < t + 1000)) ([] ++ [s.now])
  rw [recentTimeouts, h]
  simp only [List.nil_append, List.length_singleton] at hle ⊢
  omega

theorem exec_mpTimeout_write_first (h : s.up) (tag : Nat) {l : BitVec 34} (u : MpUse)
    (hfirst : (s.pt q.val).retried.contains l.toNat = false) (hnone : (s.pt q.val).timeouts = []) :
    exec (.mpTimeout q true tag l u) s = .next (reissue ((countTimeout s q true l).updPt q.val
      fun p => { p with timeouts := recentTimeouts (countTimeout s q true l) q }) q l) := by
  have hexec : exec (.mpTimeout q true tag l u) s = .next (s.mpTimeout q.val true l.toNat u) :=
    congrArg Host.Outcome.next (State.inMain_of_up h _)
  have hpt := pt_countTimeout s q true l
  rw [hexec, ← accessFailed_write (u := u)]
  · exact congrArg Host.Outcome.next (if_neg (length_recentTimeouts ((congrArg PortState.timeouts hpt).trans hnone)))
  · rw [State.pt_updPt, if_pos rfl]
    exact hpt ▸ hfirst

/-! ## PORT_DOWN -/

/-- The messages with which this node's members of a list of glades announce their departure (R162, R296). -/
def departures (s : State) (l : List Nat) : List Sent :=
  l.flatMap fun g => (s.grovePeers g).map fun m => .toMember g m "DEPARTURE" [g, s.lmn g] []

/-- Announcing departures changes the list of what is sent alone. -/
theorem each_departures (s : State) (l : List Nat) :
    (s.each l fun s g => s.toMembers g (s.grovePeers g) "DEPARTURE" [g, s.lmn g]) = { s with sent := s.sent ++ departures s l } := by
  induction l generalizing s with
  | nil => simp [State.each, departures]
  | cons g r ih =>
    refine (ih (s.toMembers g (s.grovePeers g) "DEPARTURE" [g, s.lmn g])).trans ?_
    rw [State.toMembers_eq]
    simp only [departures, List.flatMap_cons, List.append_assoc]
    rfl

/-- A port that goes down shows it and has this node's members announce their departure (R296). -/
theorem exec_portDown (h : s.up) (hdown : s.rd (R.MPT_STAT q.val) F.MPT_STAT_DOWN = 0) :
    exec (.portDown q) s = .next { s.wr (R.MPT_STAT q.val) F.MPT_STAT_DOWN 1 with
      sent := s.sent ++ departures (s.wr (R.MPT_STAT q.val) F.MPT_STAT_DOWN 1)
        ((List.range 16).filter (s.wr (R.MPT_STAT q.val) F.MPT_STAT_DOWN 1).inGrove) } := by
  have hexec : exec (.portDown q) s = .next (s.portDown q.val) := congrArg Host.Outcome.next (State.inMain_of_up h _)
  rw [hexec, State.portDown, if_neg (by simp [State.on, hdown])]
  dsimp only
  rw [each_departures]
  rfl

/-- A port that is down already changes nothing (R296). -/
theorem exec_portDown_again (hdown : s.rd (R.MPT_STAT q.val) F.MPT_STAT_DOWN = 1) : exec (.portDown q) s = .next s := by
  have hstay : s.portDown q.val = s := if_pos (by simp [State.on, hdown])
  have hexec : exec (.portDown q) s = .next (s.inMain fun s => s.portDown q.val) := rfl
  rw [hexec, State.inMain, hstay, ite_self]

end Rows

/-- The grove of a member reads as before where the registers that tell it do. -/
theorem State.sameRegsBut.grove {s t : State} {q : Nat} (h : s.sameRegsBut [R.MPT_STAT q] t) (g : Nat) (hg : g < 16) :
    t.inGrove g = s.inGrove g ∧ t.grovePeers g = s.grovePeers g ∧ t.lmn g = s.lmn g := by
  have hreg : ∀ a, a < 0x1C0000 → t.reg a = s.reg a := fun a ha => h a (by
    simp only [List.mem_singleton, R.MPT_STAT]
    omega)
  have hrow : t.reg (R.GRV_ROWCFG g) = s.reg (R.GRV_ROWCFG g) := hreg _ (by unfold R.GRV_ROWCFG; omega)
  have hmember : t.reg (R.GLD_MEMBER g) = s.reg (R.GLD_MEMBER g) := hreg _ (by unfold R.GLD_MEMBER; omega)
  have hmstat : t.reg (R.GRV_MSTAT g) = s.reg (R.GRV_MSTAT g) := hreg _ (by unfold R.GRV_MSTAT; omega)
  have hcode : t.code g = s.code g := by simp only [State.code, State.rd, hrow]
  have hlmn : t.lmn g = s.lmn g := by simp only [State.lmn, State.rd, hmember]
  have hslot : t.lmnOfSlot g = s.lmnOfSlot g := funext fun x => by simp only [State.lmnOfSlot, State.groveN, hcode, hlmn]
  exact ⟨by simp only [State.inGrove, State.mstate, State.rd, hmstat],
    by simp only [State.grovePeers, State.slots, State.groveN, hcode, hlmn, hslot], hlmn⟩

/-- The registers that show a hit (R43, R298). -/
theorem hitShown_regs (s : State) (q : PortId) (g u : Nat) :
    s.sameRegsBut [R.MPT_WW q.val, R.GLD_STATUS g, R.EVR_LOST] (showHit (countHit s q) g u) :=
  ((countHit_regs s q).mono (by simp)).trans ((showHit_regs _ g u).mono (by simp))

/-- A hit that shows leaves the shape of the glade's shard as it was. -/
theorem State.sameRegsBut.shard {s t : State} {q : PortId} {g : Nat}
    (h : s.sameRegsBut [R.MPT_WW q.val, R.GLD_STATUS g, R.EVR_LOST] t) (x : Nat) (hg : g < 16) (hx : x < 10) :
    t.regionBase g x = s.regionBase g x ∧ t.moments g = s.moments g ∧ t.bloc g = s.bloc g := by
  have hreg : ∀ a, a < 0x1C0000 → a ≠ R.GLD_STATUS g → t.reg a = s.reg a := fun a ha hne => h a (by
    simp only [List.mem_cons, List.not_mem_nil, or_false, R.MPT_WW, R.EVR_LOST]
    omega)
  have hregion : t.reg (R.GLD_REGION g x) = s.reg (R.GLD_REGION g x) := 
    hreg _ (by unfold R.GLD_REGION; omega) (by unfold R.GLD_REGION R.GLD_STATUS; omega)
  have hctl : t.reg (R.GLD_CTL g) = s.reg (R.GLD_CTL g) := hreg _ (by unfold R.GLD_CTL; omega) (by unfold R.GLD_CTL R.GLD_STATUS; omega)
  have hsize : t.reg (R.GLD_SIZE g) = s.reg (R.GLD_SIZE g) :=
    hreg _ (by unfold R.GLD_SIZE; omega) (by unfold R.GLD_SIZE R.GLD_STATUS; omega)
  simp only [State.regionBase, State.moments, State.bloc, State.rd, hregion, hctl, hsize, and_self]

/-- Settles O15: each row by the state that it answers. -/
theorem memoryPorts : Obligations.MemoryPorts := by
  unfold Obligations.MemoryPorts
  refine ⟨fun s q l st h hnone => ?_, fun s q l g x h hsome hx => ?_, fun s q l g h hsome hholds => ?_, fun s q lo hi h hnone => ?_,
    fun s q lo hi hit h hmem hlt => ?_, fun s q tag l u h => ?_, fun s q tag l u h => ?_, fun s q tag l u h hfirst => ?_,
    fun s q tag l u h hfirst hnone => ?_, fun s q h hdown => ?_, fun s q hdown => exec_portDown_again hdown⟩
  · exact ⟨_, exec_writeWatchReport_outside h hnone st, State.rd_inc_same _ _ rfl, (State.sameRegsBut.refl _ s).inc (by simp) _, rfl,
      rfl, rfl⟩
  · have hexec := exec_writeWatchReport_hit h hsome hx true
    rw [watchHit_staged] at hexec
    have hne : R.GLD_STATUS g ≠ R.BGT_USE 2 ∧ R.MPT_WW q.val ≠ R.BGT_USE 2 ∧ R.MPT_WW q.val ≠ R.EVR_LOST ∧
        R.MPT_WW q.val ≠ R.GLD_STATUS g := by
      have := State.regionOfUnit_lt hsome
      unfold R.GLD_STATUS R.BGT_USE R.MPT_WW R.EVR_LOST
      omega
    obtain ⟨hstatus, hww, hlost, hdiff⟩ := hne
    refine ⟨_, hexec, ?_, ?_, ?_, ?_, ?_, exec_mem hexec rfl⟩
    · rw [(State.charge_regs _ 2 0 32 0).rd (by simpa using hstatus), rd_showHit]
    · rw [(State.charge_regs _ 2 0 32 0).rd (by simpa using hww), (showHit_regs _ g _).rd (by simp [hlost, hdiff]), rd_countHit]
    · exact (hitShown_regs s q g _).mono (by simp) |>.trans ((State.charge_regs _ 2 0 32 0).mono (by simp))
    · rw [State.charge_ports, showHit, State.record_ports]
      rfl
    · rw [State.charge_glades, showHit, State.record_glades]
      rfl
  · have hexec := exec_writeWatchReport_hit h hsome rfl false
    rw [watchHit_unstaged] at hexec
    have hkept := hitShown_regs s q g (offsetOfLine q.val l.toNat / 4096)
    obtain ⟨hbase, hmoments, hbloc⟩ := hkept.shard 0 (State.regionOfUnit_lt hsome) (by decide)
    have hi : offsetOfLine q.val l.toNat / 4096 - s.regionBase g 0 / 4096 < s.bloc g := by simpa [State.unitHolds] using hholds
    obtain ⟨hrepair, hregs⟩ := awaitUnit_master (p := q.val) (by rw [hbase, hbloc]; exact hi)
    refine ⟨_, hexec, ?_, ?_, hkept.of_regs hregs, exec_mem hexec rfl⟩
    · rw [State.rd_congr hregs, rd_showHit]
    · rw [hbase] at hrepair
      simpa only [State.valueLeaf, hmoments] using hrepair
  · have hexec := exec_watchOverflow (q := q) h lo hi
    rw [hnone] at hexec
    refine ⟨countOverflow s q lo hi, hexec, rd_countOverflow s q lo hi, countOverflow_regs s q lo hi, ?_, ?_, exec_mem hexec rfl⟩
    · rw [countOverflow, State.record_ports, State.record_ports]
      rfl
    · rw [countOverflow, State.record_glades, State.record_glades]
      rfl
  · have hexec := exec_watchOverflow (q := q) h lo hi
    have hshown : ((countOverflow s q lo hi).each (s.watchedIn (lo.toNat / 4) (hi.toNat / 4)) overflowHit).rd (R.GLD_STATUS hit.1)
        F.GLD_STATUS_WWHIT = 1 := by
      refine State.each_of_mem (p := fun v => v.rd (R.GLD_STATUS hit.1) F.GLD_STATUS_WWHIT = 1) _ hmem (fun v => ?_) fun v y _ hv => ?_
      · rw [rd_overflowHit hlt, if_pos rfl]
      · rw [rd_overflowHit hlt, hv, ite_self]
    refine ⟨_, hexec, ?_, exec_mem hexec rfl⟩
    split
    · exact hshown
    · rw [State.rd_congr (State.updPt_regs ..), hshown]
  · have hexec := exec_mpResponse_read_ok (q := q) h tag l u
    exact ⟨_, hexec, rd_portDone s q.val false, portDone_regs s q.val false, rfl, rfl⟩
  · have hexec := exec_mpResponse_read_corr (q := q) h tag l u
    have hne : R.MPT_ERR q.val ≠ R.MPT_STAT q.val := by unfold R.MPT_ERR R.MPT_STAT; omega
    refine ⟨_, hexec, ?_, ?_, ((portDone_regs s q.val false).mono (by simp)).inc (by simp) _, rfl, rfl⟩
    · exact (State.rd_inc_other _ hne.symm _ _).trans (rd_portDone s q.val false)
    · rw [State.rd_inc_same _ _ rfl, (portDone_regs s q.val false).rd (by simp [hne])]
  · have hexec := exec_mpResponse_write_uncorr h tag u hfirst
    have hne : R.MPT_ERR q.val ≠ R.MPT_STAT q.val := by unfold R.MPT_ERR R.MPT_STAT; omega
    refine ⟨_, hexec, ?_, ?_, ?_, ?_, ?_, ?_, rfl⟩
    · rw [(reissue_regs _ q l).rd (by simp [hne.symm]), State.rd_inc_other _ hne.symm]
      exact rd_portDone s q.val true
    · rw [rd_reissue_apart _ q l rfl rfl, State.rd_inc_same _ _ rfl, (portDone_regs s q.val true).rd (by simp [hne])]
    · rw [rd_reissue_werr, State.rd_inc_apart _ _ rfl rfl, (portDone_regs s q.val true).rd (by simp [hne])]
    · exact retried_reissue _ q l
    · exact sent_reissue _ q l
    · exact (((portDone_regs s q.val true).mono (by simp)).inc (by simp) _).trans ((reissue_regs _ q l).mono (by simp))
  · have hexec := exec_mpTimeout_write_first h tag u hfirst hnone
    refine ⟨_, hexec, ?_, ?_, ?_, ?_, State.record_mem ..⟩
    · rw [rd_reissue_apart _ q l rfl rfl, State.rd_congr (State.updPt_regs ..)]
      exact rd_countTimeout s q true l
    · rw [retried_reissue, State.pt_updPt, if_pos rfl, pt_countTimeout]
    · rw [sent_reissue, State.updPt_sent, countTimeout, State.record_sent]
      rfl
    · exact ((countTimeout_regs s q true l).of_regs (State.updPt_regs ..)).trans ((reissue_regs _ q l).mono (by simp))
  · have hexec := exec_portDown h hdown
    have hregs : s.sameRegsBut [R.MPT_STAT q.val] (s.wr (R.MPT_STAT q.val) F.MPT_STAT_DOWN 1) :=
      (State.sameRegsBut.refl _ s).wr (by simp) _ _
    refine ⟨_, hexec, State.rd_wr_same s _ rfl 1, hregs, fun g m hg hin hm => ?_, rfl, rfl⟩
    obtain ⟨hgrove, hpeers, hlmn⟩ := hregs.grove g hg
    refine List.mem_append_right _ (List.mem_flatMap.mpr ⟨g, ?_, ?_⟩)
    · simp [hg, hgrove, hin]
    · rw [hpeers, hlmn]
      exact List.mem_map.mpr ⟨m, hm, rfl⟩

end Sys2Proof.Machine
end

section
/-! PROOF. What a row of the code shows depends on a member's memory, on the registers that shape the shard and on the engines' lists of
leaves, and neither on GRV_MSTAT nor on the clearing reads that wait (R66 to R69, R181 to R183, R195). -/
namespace Sys2Proof.Machine

/-- Two states hold the same of glade g's rows: memory, the registers but GRV_MSTAT, and the engines but the reads that wait. -/
structure SameRows (g : Nat) (s t : State) : Prop where
  mem : t.mem = s.mem
  regs : s.sameRegsBut [R.GRV_MSTAT g] t
  engines : ∃ l, t.gl g = { s.gl g with reads := l }

namespace SameRows
variable {s t : State} {g : Nat}

section Shape
variable (h : SameRows g s t) (hg : g < 16)
include h

theorem readBytes (a n : Nat) : t.readBytes a n = s.readBytes a n := by
  simp only [State.readBytes, State.readByte, h.mem]

theorem code : t.code g = s.code g := by
  have hreg : t.reg (R.GRV_ROWCFG g) = s.reg (R.GRV_ROWCFG g) := h.regs _ (by
    simp only [List.mem_singleton, R.GRV_ROWCFG, R.GRV_MSTAT]
    omega)
  simp only [State.code, State.rd, hreg]

theorem groveN : t.groveN g = s.groveN g := by simp only [State.groveN, h.code]

include hg

/-- The registers of the glade's own block read the same. -/
theorem rd_glade {a : Nat} (ha : a < 0x030000) (f : Fld) : t.rd a f = s.rd a f := h.regs.rd (by
  simp only [List.mem_singleton, R.GRV_MSTAT]
  omega) f

theorem members : t.members g = s.members g := by
  simp only [State.members, h.rd_glade hg (show R.GLD_MEMBER g < 0x030000 by unfold R.GLD_MEMBER; omega)]

theorem lmn : t.lmn g = s.lmn g := h.rd_glade hg (by unfold R.GLD_MEMBER; omega) _

theorem moments : t.moments g = s.moments g := h.rd_glade hg (by unfold R.GLD_CTL; omega) _

theorem layers : t.layers g = s.layers g := h.rd_glade hg (by unfold R.GLD_LAYERS; omega) _

theorem bloc : t.bloc g = s.bloc g := h.rd_glade hg (by unfold R.GLD_SIZE; omega) _

theorem regionBase {x : Nat} (hx : x < 10) : t.regionBase g x = s.regionBase g x := by
  simp only [State.regionBase, h.rd_glade hg (show R.GLD_REGION g x < 0x030000 by unfold R.GLD_REGION; omega)]

theorem openRing : t.openRing g = s.openRing g := by
  have hreg : t.reg (R.GLD_RING g) = s.reg (R.GLD_RING g) := h.regs _ (by
    simp only [List.mem_singleton, R.GLD_RING, R.GRV_MSTAT]
    omega)
  simp only [State.openRing, State.ring, hreg]

theorem lmnOfSlot (x : Nat) : t.lmnOfSlot g x = s.lmnOfSlot g x := by simp only [State.lmnOfSlot, h.lmn hg, h.groveN]

theorem layerBlocks (l : Nat) : t.layerBlocks g l = s.layerBlocks g l := by
  simp only [State.layerBlocks, State.layerParams, State.layerWord, h.regionBase hg (show 9 < 10 by decide), h.readBytes]

theorem blocOf (sz i : Nat) : t.blocOf g sz i = s.blocOf g sz i := by
  simp only [State.blocOf, State.ownedBlocks, State.blockLo, h.layers hg, h.layerBlocks hg]

theorem isVirtual (slot row : Nat) : t.isVirtual g slot row = s.isVirtual g slot row := by
  have hleaves : t.leavesOfSlot g slot = s.leavesOfSlot g slot := by
    simp only [State.leavesOfSlot, State.leavesOfMember, h.members hg, h.lmnOfSlot hg, h.moments hg, h.blocOf hg]
  rw [State.isVirtual, State.isVirtual, hleaves, h.code]

/-! ## What this member answers (R181, R195) -/

theorem ownErased (row : Nat) : t.ownErased g row = s.ownErased g row := by
  obtain ⟨l, hgl⟩ := h.engines
  simp only [State.ownErased, h.code, h.isVirtual hg, hgl]

theorem leafNew (v : Nat) : t.leafNew g v = s.leafNew g v := by
  obtain ⟨l, hgl⟩ := h.engines
  simp only [State.leafNew, h.moments hg, h.bloc hg, hgl]

theorem statusWord (row : Nat) (busy : Bool) : t.statusWord g row busy = s.statusWord g row busy := by
  obtain ⟨l, hgl⟩ := h.engines
  simp only [State.statusWord, State.foldBits, State.fold, h.code, h.ownErased hg, h.isVirtual hg, h.leafNew hg, h.openRing hg, hgl]

theorem leafAddr (q : Nat) : t.leafAddr g q = s.leafAddr g q := by
  have hmoments : s.moments g < 4 := State.rd_lt s _ _
  have hmod : q % (1 + s.moments g) < 10 := by
    have := Nat.mod_lt q (show 0 < 1 + s.moments g by omega)
    omega
  simp only [State.leafAddr, leafPlace, h.moments hg, h.bloc hg, h.regionBase hg hmod, h.regionBase hg (show 3 < 10 by decide)]

theorem ownLeaf (row : Nat) : t.ownLeaf g row = s.ownLeaf g row := by
  simp only [State.ownLeaf, State.parityAddr, h.code, h.regionBase hg (show 4 < 10 by decide), h.isVirtual hg, h.leafAddr hg, h.readBytes]

theorem ownAnswer (row : Nat) : t.ownAnswer g row = s.ownAnswer g row := by
  simp only [State.ownAnswer, h.code, h.statusWord hg, h.ownLeaf hg]

/-! ## Solving a row (R83, R182) -/

theorem dataOf (row len : Nat) (l : List RowAnswer) (i : Nat) : t.dataOf g row len l i = s.dataOf g row len l i := by
  simp only [State.dataOf, h.code, h.isVirtual hg]

omit hg in
theorem repairing (v : Nat) : t.repairing g v = s.repairing g v := by
  obtain ⟨r, hgl⟩ := h.engines
  simp only [State.repairing, hgl]

omit hg in
theorem decidedSet (row : Nat) : t.decidedSet g row = s.decidedSet g row := by
  obtain ⟨r, hgl⟩ := h.engines
  simp only [State.decidedSet, hgl]

theorem solveRow (row len : Nat) (l : List RowAnswer) : t.solveRow g row len l = s.solveRow g row len l := by
  have hdata : t.dataOf g row len l = s.dataOf g row len l := funext (h.dataOf hg row len l)
  have hnew : t.leafNew g = s.leafNew g := funext (h.leafNew hg)
  have hrepairing : t.repairing g = s.repairing g := funext h.repairing
  unfold State.solveRow
  rw [h.code, hdata, hnew, hrepairing, h.decidedSet]

theorem encodable (row len : Nat) (l : List RowAnswer) : t.encodable g row len l = s.encodable g row len l := by
  simp only [State.encodable, h.code, h.dataOf hg]

theorem clearFrom (lmn row line : Nat) (l : List RowAnswer) : t.clearFrom g lmn row line l = s.clearFrom g lmn row line l := by
  simp only [State.clearFrom, h.code, h.groveN, h.ownAnswer hg]

/-- The line that a row's answers reconstruct is the same (R182, R185). -/
theorem clearLine (lmn row line : Nat) (l : List RowAnswer) : t.clearLine g lmn row line l = s.clearLine g lmn row line l := by
  simp only [State.clearLine, h.code, h.groveN, h.clearFrom hg, h.encodable hg, h.solveRow hg]

end Shape
end SameRows
end Sys2Proof.Machine
end

section
/-! PROOF. The rows CLEARING_START, CLEARING_READ, ROW_READ and ROW_READ_ANSWER (R44, R172, R179, R181 to R187, R189). -/
namespace Sys2Proof.Machine

theorem bitAt_eq_testBit (w i : Nat) : bitAt w i = w.testBit i := by
  rw [bitAt, Nat.testBit_eq_decide_div_mod_eq]
  rfl

namespace State
variable (s : State)

/-- A bit that is set in a mask field reads as set. -/
theorem bitAt_rd_setMask (a : Nat) {f : Fld} (hf : f.ok = true) {i : Nat} (hi : i < f.width) :
    bitAt ((s.setMask a f i).rd a f) i = true := by
  rw [setMask, rd_wr_same _ _ hf, bitAt_eq_testBit, Nat.testBit_mod_two_pow, Nat.testBit_or, Nat.testBit_two_pow_self]
  simp [hi]

/-- The end of recovery changes the router alone (R154, R169). -/
theorem settleProfile_fields (g : Nat) : ∃ r, s.settleProfile g = { s with router := r } := by
  unfold settleProfile
  split
  all_goals exact ⟨_, rfl⟩

theorem settleProfile_regs (g : Nat) : (s.settleProfile g).regs = s.regs := by
  obtain ⟨r, h⟩ := settleProfile_fields s g
  rw [h]

theorem settleProfile_mem (g : Nat) : (s.settleProfile g).mem = s.mem := by
  obtain ⟨r, h⟩ := settleProfile_fields s g
  rw [h]

theorem gl_settleProfile (g x : Nat) : (s.settleProfile g).gl x = s.gl x := by
  obtain ⟨r, h⟩ := settleProfile_fields s g
  rw [h]
  rfl

/-- What the tiles do not show is not changed by closing a unit's contexts. -/
theorem closeContext_other {β : Type} (p : State → β)
    (hp : ∀ (v : State) (x : Nat) (f : TileState → TileState), p (v.updTl x f) = p v) (g kind unit : Nat) :
    p (s.closeContext g kind unit) = p s :=
  each_eq s p fun v x _ => hp v x _

end State

section Rows
variable {s : State} {g : GladeId}

/-! ## CLEARING_START (R154, R184, R189) -/

/-- The engines of a stand-in that serves the lost shard: no read waits for that any more (R184). -/
def serve (r : StandIn) (e : GladeState) : GladeState :=
  { e with standIn := some { r with clearing := true }, awaited := [], clearWaits := [] }

/-- The stand-in serves the lost shard, and its slot is lost until it is rebuilt (R184). -/
def startServing (s : State) (g : Nat) (r : StandIn) : State :=
  (s.updGl g (serve r)).setMask (R.GRV_LOST g) F.GRV_LOST_LOST r.slot

theorem gl_startServing (s : State) (g : Nat) (r : StandIn) : (startServing s g r).gl g = serve r (s.gl g) :=
  (State.gl_updGl s g g (serve r)).trans (if_pos rfl)

theorem lost_startServing (s : State) (g : Nat) {r : StandIn} (hslot : r.slot < 32) :
    bitAt ((startServing s g r).rd (R.GRV_LOST g) F.GRV_LOST_LOST) r.slot = true :=
  State.bitAt_rd_setMask _ (R.GRV_LOST g) (f := F.GRV_LOST_LOST) rfl hslot

theorem startServing_regs (s : State) (g : Nat) (r : StandIn) : s.sameRegsBut [R.GRV_LOST g] (startServing s g r) :=
  ((State.sameRegsBut.refl _ s).of_regs (State.updGl_regs ..)).wr (by simp) _ _

theorem exec_clearingStart {r : StandIn} (h : s.up) (hr : (s.gl g.val).standIn = some r) (hstate : s.mstate g.val = 4)
    (hwaits : (s.gl g.val).clearWaits = []) : exec (.clearingStart g) s = .next ((startServing s g.val r).settleProfile g.val) := by
  have hexec : exec (.clearingStart g) s = .next _ := congrArg Host.Outcome.next (State.inMain_of_up h _)
  rw [hexec]
  dsimp only
  rw [hr]
  dsimp only
  rw [if_pos hstate, hwaits]
  rfl

/-! ## CLEARING_READ (R172, R179, R184 to R187) -/

/-- A fenced member answers with an error (R172). -/
theorem exec_clearingRead_fenced (h : s.up) (hf : s.fenced g.val = true) (i o x : Nat) (l : List (List RowAnswer)) :
    exec (.clearingRead g i o x l) s = .next (s.send (.answer g.val x "ERR" [2] [])) := by
  have hexec : exec (.clearingRead g i o x l) s = .next _ := congrArg Host.Outcome.next (State.inMain_of_up h _)
  rw [hexec, if_pos hf]

theorem exec_clearingRead (h : s.up) (hf : s.fenced g.val = false) (i o x : Nat) (l : List (List RowAnswer)) :
    exec (.clearingRead g i o x l) s =
      .next (s.readShard g.val i o x l (s.send (.answer g.val x "LINE" [] (s.readBytes o 128)))) := by
  have hexec : exec (.clearingRead g i o x l) s = .next _ := congrArg Host.Outcome.next (State.inMain_of_up h _)
  rw [hexec, if_neg (Bool.eq_false_iff.mp hf)]

namespace State

/-- A line of the own shard that is there, and that no loss touches, has its ordinary answer (R184). -/
theorem readShard_ordinary {g : Nat} (hstand : (s.gl g).standIn = none) (hhost : (s.gl g).hosting = []) {o : Nat}
    (hthere : s.lineAway g o = false) (i x : Nat) (l : List (List RowAnswer)) (ordinary : State) :
    s.readShard g i o x l ordinary = ordinary := by
  unfold readShard
  rw [if_neg (by simp [hhost]), hstand]
  dsimp only
  rw [if_neg (Bool.eq_false_iff.mp hthere), ite_self]

/-- A line of a hosted shard is reconstructed (R179). -/
theorem readShard_hosted {g i : Nat} (hi : i ≠ s.lmn g) (hhost : i ∈ (s.gl g).hosting) (o x : Nat) (l : List (List RowAnswer))
    (ordinary : State) : s.readShard g i o x l ordinary = s.clearRead g i o x l :=
  if_pos ⟨hi, by simpa using hhost⟩

/-- A line that is away lies in a region of the glade. -/
theorem regionAt_of_lineAway {g o : Nat} (haway : s.lineAway g o = true) : (s.regionAt g o).isNone = false := by
  cases hx : s.regionAt g o with
  | none => simp [lineAway, hx] at haway
  | some x => rfl

/-- A line of the own shard whose leaf is not there is reconstructed (R44). -/
theorem readShard_away {g : Nat} (hstand : (s.gl g).standIn = none) {o : Nat} (haway : s.lineAway g o = true) (x : Nat)
    (l : List (List RowAnswer)) (ordinary : State) : s.readShard g (s.lmn g) o x l ordinary = s.clearRead g (s.lmn g) o x l := by
  unfold readShard
  rw [if_neg (by simp), if_neg (by simp [s.regionAt_of_lineAway haway]), hstand]
  exact if_pos haway

/-- A line of the lost shard waits until clearing starts, and a leaf that is there again is then answered from memory (R184, R189). -/
theorem readShard_standIn {g o : Nat} {r : StandIn} (hstand : (s.gl g).standIn = some r) (hregion : (s.regionAt g o).isSome = true)
    (x : Nat) (l : List (List RowAnswer)) (ordinary : State) (hthere : r.clearing = true → s.lineAway g o = false) :
    s.readShard g (s.lmn g) o x l ordinary =
      if r.clearing then s.clearAnswer g x (some (s.readBytes o 128))
      else s.updGl g fun e => { e with clearWaits := e.clearWaits ++ [(o, x)] } := by
  unfold readShard
  rw [if_neg (by simp), if_neg (by simp [Option.isSome_iff_ne_none.mp hregion]), hstand]
  dsimp only
  cases hc : r.clearing with
  | false => rfl
  | true => rw [if_neg (by simp), if_neg (Bool.eq_false_iff.mp (hthere hc)), if_pos rfl]

/-! ## A line that is reconstructed from one row -/

/-- The state in which the lines of a clearing read are reconstructed: the leaves of the own shard are asked for first (R186). -/
def wanting (s : State) (g i : Nat) (q : Option Nat) : State := if i = s.lmn g then s.wantLeaves g q.toList else s

/-- Without a stand-in nothing is rebuilt, so that nothing is asked for first. -/
theorem wanting_sameRows {g i : Nat} (hi : i = s.lmn g → (s.gl g).standIn = none) (q : Option Nat) :
    SameRows g s (s.wanting g i q) ∧ (s.wanting g i q).regs = s.regs ∧ (s.wanting g i q).sent = s.sent := by
  unfold wanting
  split
  case isTrue heq =>
    refine ⟨⟨rfl, fun _ _ => rfl, (s.gl g).reads, ?_⟩, rfl, rfl⟩
    rw [wantLeaves, gl_updGl, if_pos rfl, hi heq]
    exact congrArg (fun x => { s.gl g with standIn := x }) (hi heq).symm
  case isFalse => exact ⟨⟨rfl, fun _ _ => rfl, _, rfl⟩, rfl, rfl⟩

/-- One line outside the working copy is served as it is (R187). -/
theorem clearServe_line (g i o x : Nat) (b : List Byte) : s.clearServe g i o x [b] = s.clearAnswer g x (some b) := by
  unfold clearServe
  rw [if_neg (by simp)]
  rfl

/-- The rows of a read that takes one row, with the answers that have come for it. -/
theorem zipIdx_one (n : Nat × Nat) (l : List RowAnswer) : ([n].zipIdx.map fun y => (y.1, [l].getD y.2 [])) = [(n, l)] := rfl

theorem wanting_eq (s : State) (g i : Nat) (q : Option Nat) :
    (if i = s.lmn g then s.wantLeaves g q.toList else s) = s.wanting g i q := rfl

/-- A read whose row's answers give its line is served with that line (R184, R187). -/
theorem clearRead_solved {g i o x : Nat} {q : Option Nat} {n : Nat × Nat} {l : List RowAnswer} {b : List Byte}
    (hneeds : s.clearNeeds g i o = some (q, [n])) (hlive : n.1 ∉ (s.gl g).deadRows)
    (hline : (s.wanting g i q).clearLine g i n.1 n.2 l = some b) :
    s.clearRead g i o x [l] = (s.wanting g i q).clearAnswer g x (some b) := by
  unfold clearRead
  rw [hneeds]
  dsimp only
  rw [if_neg (by simpa using hlive), zipIdx_one, wanting_eq, List.map_singleton, hline, if_pos (by simp)]
  exact clearServe_line ..

/-- A read whose row has not answered enough, and is not deadfall, waits as a unit of its own (R182, R185). -/
theorem clearRead_waits {g i o x : Nat} {q : Option Nat} {n : Nat × Nat} {l : List RowAnswer} (hi : i ≠ s.lmn g)
    (hneeds : s.clearNeeds g i o = some (q, [n])) (hlive : n.1 ∉ (s.gl g).deadRows) (hline : s.clearLine g i n.1 n.2 l = none)
    (halive : s.rowDeadBy g n.1 (s.clearFrom g i n.1 n.2 l) = false) :
    s.clearRead g i o x [l] = s.addUnits g i o x (s.clearTile g i o q) [(n, l)] := by
  have hfind : ([(n, l)].find? fun y => s.rowDeadBy g y.1.1 (s.clearFrom g i y.1.1 y.1.2 y.2)) = none := by simp [halive]
  unfold clearRead
  rw [hneeds]
  dsimp only
  rw [if_neg (by simpa using hlive), zipIdx_one, if_neg hi, List.map_singleton, hline, if_neg (by simp), hfind]

/-- A unit takes a context for a clearing read where one is free (R133). -/
def takeContext (s : State) (t g n : Nat) : State := if s.contextFree t true then s.openContext t g 0 n true else s

theorem takeContext_regs (s : State) (t g n : Nat) : s.sameRegsBut [R.TIL_CTX t] (s.takeContext t g n) := by
  unfold takeContext openContext
  split
  · exact ((sameRegsBut.refl _ s).of_regs (updTl_regs ..)).wr (by simp) _ _
  · exact sameRegsBut.refl _ s

theorem takeContext_fields (s : State) (t g n : Nat) : ∃ r l, s.takeContext t g n = { s with regs := r, tiles := l } := by
  unfold takeContext openContext
  split
  · exact ⟨_, _, rfl⟩
  · exact ⟨_, _, rfl⟩

/-- The unit that waits for a row's answers, and the reads that it sends (R182). -/
theorem addUnits_one (s : State) (g i o x t : Nat) (n : Nat × Nat) (l : List RowAnswer) :
    s.addUnits g i o x t [(n, l)] = ((s.takeContext t g (s.gl g).nextUnit).updGl g fun e => { e with
      reads := e.reads ++ [⟨(s.gl g).nextUnit, i, n.1, n.2, o, x, (s.takeContext t g (s.gl g).nextUnit).now, l, false⟩],
      nextUnit := (s.gl g).nextUnit + 1 }).askLine g n.1 n.2 (s.gl g).nextUnit := rfl

/-- Taking a context neither moves the clock nor changes whom a unit asks. -/
theorem takeContext_now (s : State) (t g n : Nat) : (s.takeContext t g n).now = s.now :=
  (takeContext_regs s t g n).rd (by simp only [List.mem_singleton, R.TIL_CTX, R.GLB_AOTIME]; omega) _

theorem takeContext_asked (s : State) (t n : Nat) {g : Nat} (hg : g < 16) : (s.takeContext t g n).asked g = s.asked g := by
  have hreg : ∀ a, a < 0x100000 → (s.takeContext t g n).reg a = s.reg a := fun a ha => takeContext_regs s t g n a (by
    simp only [List.mem_singleton, R.TIL_CTX]
    omega)
  have hrow : (s.takeContext t g n).reg (R.GRV_ROWCFG g) = s.reg (R.GRV_ROWCFG g) := hreg _ (by unfold R.GRV_ROWCFG; omega)
  have hmember : (s.takeContext t g n).reg (R.GLD_MEMBER g) = s.reg (R.GLD_MEMBER g) := hreg _ (by unfold R.GLD_MEMBER; omega)
  have hlost : (s.takeContext t g n).reg (R.GRV_LOST g) = s.reg (R.GRV_LOST g) := hreg _ (by unfold R.GRV_LOST; omega)
  unfold asked grovePeers slots lmnOfSlot groveN code lmn rd
  simp only [hrow, hmember, hlost]

theorem askLine_eq (s : State) (g row line unit : Nat) : s.askLine g row line unit =
    { s with sent := s.sent ++ (s.asked g).map fun m => .toMember g m "ROW_READ" [g, row, line, unit] [] } := toMembers_eq ..

theorem gl_askLine (s : State) (g row line unit : Nat) : (s.askLine g row line unit).gl g = s.gl g := by
  rw [askLine_eq]
  rfl

theorem gl_takeContext (s : State) (t g n : Nat) : (s.takeContext t g n).gl g = s.gl g := by
  obtain ⟨r, tiles, hfields⟩ := takeContext_fields s t g n
  rw [hfields]
  rfl

/-- The unit that waits keeps the answers that have come (R182). -/
theorem reads_addUnits_one (s : State) (g i o x t : Nat) (n : Nat × Nat) (l : List RowAnswer) :
    ((s.addUnits g i o x t [(n, l)]).gl g).reads =
      (s.gl g).reads ++ [⟨(s.gl g).nextUnit, i, n.1, n.2, o, x, s.now, l, false⟩] := by
  rw [addUnits_one, gl_askLine, gl_updGl, if_pos rfl, takeContext_now, gl_takeContext]

/-- It asks every member of the grove that can answer (R182). -/
theorem sent_addUnits_one (s : State) {g : Nat} (hg : g < 16) (i o x t : Nat) (n : Nat × Nat) (l : List RowAnswer) :
    (s.addUnits g i o x t [(n, l)]).sent =
      s.sent ++ (s.asked g).map fun m => .toMember g m "ROW_READ" [g, n.1, n.2, (s.gl g).nextUnit] [] := by
  have hasked : ∀ (v : State) (f : GladeState → GladeState), (v.updGl g f).asked g = v.asked g := fun _ _ => rfl
  rw [addUnits_one, askLine_eq, hasked, takeContext_asked _ _ _ hg]
  obtain ⟨r, tiles, hfields⟩ := takeContext_fields s t g (s.gl g).nextUnit
  rw [hfields]
  rfl

theorem mem_addUnits_one (s : State) (g i o x t : Nat) (n : Nat × Nat) (l : List RowAnswer) :
    (s.addUnits g i o x t [(n, l)]).mem = s.mem := by
  obtain ⟨r, tiles, hfields⟩ := takeContext_fields s t g (s.gl g).nextUnit
  rw [addUnits_one, askLine_eq, hfields]
  rfl

end State

/-! ## ROW_READ (R172, R181) -/

theorem exec_rowRead_fenced (h : s.up) (hf : s.fenced g.val = true) (row line x : Nat) (e : Bool) :
    exec (.rowRead g row line x e) s = .next (s.send (.answer g.val x "ERR" [2] [])) := by
  have hexec : exec (.rowRead g row line x e) s = .next _ := congrArg Host.Outcome.next (State.inMain_of_up h _)
  rw [hexec]
  exact congrArg Host.Outcome.next (if_pos hf)

/-- A row read answers this member's line of the row with its status word (R181). -/
theorem exec_rowRead {row line : Nat} (h : s.up) (hf : s.fenced g.val = false) (hactive : s.active g.val = true)
    (hjoined : s.joined g.val = true) (hrow : row < (s.code g.val).rows) (hline : line < 32) (x : Nat) :
    exec (.rowRead g row line x false) s = .next ((s.charge 2 1 0 5).send (.answer g.val x "ROW"
      [(s.code g.val).slot, row, line, (s.statusWord g.val row false).toNat] (slice (s.ownLeaf g.val row) (128 * line) 128))) := by
  have hexec : exec (.rowRead g row line x false) s = .next _ := congrArg Host.Outcome.next (State.inMain_of_up h _)
  rw [hexec]
  dsimp only
  rw [if_neg (Bool.eq_false_iff.mp hf), if_neg (by simp [hactive, hjoined, hrow, hline])]
  rfl

/-! ## ROW_READ_ANSWER (R182) -/

namespace State

/-- Dropping a read leaves everything but the tiles and the glade's engines as it was. -/
theorem dropRead_other {β : Type} (p : State → β)
    (htiles : ∀ (v : State) (x : Nat) (f : TileState → TileState), p (v.updTl x f) = p v)
    (hglade : ∀ (v : State) (x : Nat) (f : GladeState → GladeState), p (v.updGl x f) = p v) (s : State) (g : Nat) (u : ReadUnit) :
    p (s.dropRead g u) = p s := by
  unfold dropRead
  dsimp only
  rw [hglade]
  exact each_eq s p fun v x _ => closeContext_other v p htiles g 0 x.id

/-- The only read, once dropped, waits no longer. -/
theorem reads_dropRead (s : State) (g : Nat) (u : ReadUnit) (hreads : (s.gl g).reads = [u]) : ((s.dropRead g u).gl g).reads = [] := by
  have hglades : ∀ v : State, (v.each ((s.gl g).reads.filter fun x => x.txid == u.txid && x.offset == u.offset && x.lmn == u.lmn)
      fun s x => s.closeContext g 0 x.id).gl g = v.gl g := fun v =>
    each_eq v (fun v => v.gl g) fun v x _ => closeContext_other v (fun v => v.gl g) (fun _ _ _ => rfl) g 0 x.id
  unfold dropRead
  dsimp only
  rw [gl_updGl, if_pos rfl, hglades, hreads]
  simp

/-- The only read, once its row's answers give its line, is answered with that line (R182, R187). -/
theorem clearSettle_one {g : Nat} {u : ReadUnit} {b : List Byte} (hreads : (s.gl g).reads = [u])
    (hline : s.clearLine g u.lmn u.row u.line u.answers = some b) :
    s.clearSettle g u = ((s.dropRead g u).noteWait u.atTime).clearAnswer g u.txid (some b) := by
  have hmine : ((s.gl g).reads.filter fun x => x.txid == u.txid && x.offset == u.offset && x.lmn == u.lmn) = [u] := by
    rw [hreads]
    simp
  unfold clearSettle
  dsimp only
  rw [hmine, List.map_singleton, hline, if_pos (by simp)]
  exact clearServe_line ..

end State

/-- A unit with one more answer, which replaces an earlier one of its slot (R182). -/
def withAnswer (u : ReadUnit) (a : RowAnswer) : ReadUnit := { u with answers := (u.answers.filter fun x => x.slot != a.slot) ++ [a] }

/-- The state in which a unit holds one more answer (R182, R195). -/
def State.takeAnswer (s : State) (g : Nat) (u : ReadUnit) (a : RowAnswer) : State :=
  (s.updGl g fun e => { e with reads := e.reads.map fun x => if x.id == u.id then withAnswer u a else x }).refreshEras g

theorem State.gl_takeAnswer (s : State) (g : Nat) (u : ReadUnit) (a : RowAnswer) : (s.takeAnswer g u a).gl g =
    { s.gl g with reads := (s.gl g).reads.map fun x => if x.id == u.id then withAnswer u a else x } := by
  have hgl : (s.takeAnswer g u a).gl g =
      (s.updGl g fun e => { e with reads := e.reads.map fun x => if x.id == u.id then withAnswer u a else x }).gl g := rfl
  rw [hgl, State.gl_updGl, if_pos rfl]

theorem State.reads_takeAnswer {g : Nat} {u : ReadUnit} (a : RowAnswer) (hreads : (s.gl g).reads = [u]) :
    ((s.takeAnswer g u a).gl g).reads = [withAnswer u a] := by
  rw [State.gl_takeAnswer, hreads]
  simp

/-- An answer changes no row: only the reads that wait and GRV_MSTAT ERAS. -/
theorem sameRows_takeAnswer (g : Nat) (u : ReadUnit) (a : RowAnswer) : SameRows g s (s.takeAnswer g u a) where
  mem := rfl
  regs := ((State.sameRegsBut.refl _ s).of_regs (State.updGl_regs ..)).wr (by simp) _ _
  engines := ⟨_, State.gl_takeAnswer s g u a⟩

/-- The answer that the only waiting read lacked settles it (R182, R187). -/
theorem exec_rowReadAnswer_last {u : ReadUnit} {a : RowAnswer} {b : List Byte} (h : s.up) (hreads : (s.gl g.val).reads = [u])
    (hline : s.clearLine g.val u.lmn u.row u.line (withAnswer u a).answers = some b) :
    exec (.rowReadAnswer g u.id a) s = .next ((((s.takeAnswer g.val u a).dropRead g.val (withAnswer u a)).noteWait u.atTime).clearAnswer
      g.val u.txid (some b)) := by
  have hexec : exec (.rowReadAnswer g u.id a) s = .next _ := congrArg Host.Outcome.next (State.inMain_of_up h _)
  have hfind : (s.gl g.val).reads.find? (fun x => x.id == u.id) = some u := by
    rw [hreads]
    simp
  have hsolved := ((sameRows_takeAnswer (s := s) g.val u a).clearLine g.isLt u.lmn u.row u.line _).trans hline
  rw [hexec, hfind]
  exact congrArg Host.Outcome.next (State.clearSettle_one (u := withAnswer u a) (State.reads_takeAnswer a hreads) hsolved)

end Rows

/-- An answer is counted in READS of GRV_CLRCNT and sent, and touches no other register (R187). -/
theorem clearAnswer_regs (s : State) (g x : Nat) (b : List Byte) : s.sameRegsBut [R.GRV_CLRCNT] (s.clearAnswer g x (some b)) :=
  ((State.sameRegsBut.refl _ s).inc (by simp) _).of_regs (State.send_regs ..)

theorem sent_clearAnswer (s : State) (g x : Nat) (b : List Byte) :
    (s.clearAnswer g x (some b)).sent = s.sent ++ [.answer g x "LINE" [] b] := rfl

theorem mem_clearAnswer (s : State) (g x : Nat) (b : List Byte) : (s.clearAnswer g x (some b)).mem = s.mem := rfl

theorem gl_clearAnswer (s : State) (g x : Nat) (b : List Byte) (y : Nat) : (s.clearAnswer g x (some b)).gl y = s.gl y := rfl

theorem noteWait_sent (s : State) (n : Nat) : (s.noteWait n).sent = s.sent := rfl

theorem noteWait_mem (s : State) (n : Nat) : (s.noteWait n).mem = s.mem := rfl

theorem gl_noteWait (s : State) (n y : Nat) : (s.noteWait n).gl y = s.gl y := rfl

theorem rd_clearAnswer (s : State) (g x : Nat) (b : List Byte) :
    (s.clearAnswer g x (some b)).rd R.GRV_CLRCNT F.GRV_CLRCNT_READS =
      min (s.rd R.GRV_CLRCNT F.GRV_CLRCNT_READS + 1) (2 ^ F.GRV_CLRCNT_READS.width - 1) :=
  State.rd_inc_same s _ rfl

/-- Settles O37: each row by the state that it answers. -/
theorem clearingReads : Obligations.ClearingReads := by
  unfold Obligations.ClearingReads
  refine ⟨fun s g r h hr hstate hslot hwaits => ?_, fun s g i o x l h hf hstand hhost hthere => ?_,
    fun s g i o x q n l b h hf hcase hneeds hlive hline _ => ?_, fun s g i o x q n l h hf hi hhost hneeds hlive hline halive => ?_,
    fun s g o x r l h hf hstand hc hregion hthere => ?_, fun s g o x r l h hf hstand hc hregion => ?_,
    fun s g i o x l h hf => ⟨_, exec_clearingRead_fenced h hf i o x l, rfl, rfl, rfl⟩,
    fun s g row line x h hf hactive hjoined hrow hline => ?_,
    fun s g row line x e h hf => ⟨_, exec_rowRead_fenced h hf row line x e, rfl, rfl, rfl⟩,
    fun s g u a b h hreads hline _ => ?_⟩
  · have hexec := exec_clearingStart h hr hstate hwaits
    have hgl := (State.gl_settleProfile (startServing s g.val r) g.val g.val).trans (gl_startServing s g.val r)
    have hregs := State.settleProfile_regs (startServing s g.val r) g.val
    refine ⟨_, hexec, congrArg GladeState.standIn hgl, congrArg GladeState.awaited hgl, ?_,
      (startServing_regs s g.val r).of_regs hregs, ?_⟩
    · rw [State.rd_congr hregs, lost_startServing s g.val hslot]
    · rw [State.settleProfile_mem]
      rfl
  · have hexec := exec_clearingRead h hf i o x l
    rw [State.readShard_ordinary hstand hhost hthere] at hexec
    exact ⟨_, hexec, rfl, rfl, rfl⟩
  · have hexec := exec_clearingRead h hf i o x [l]
    have hread : s.readShard g.val i o x [l] (s.send (.answer g.val x "LINE" [] (s.readBytes o 128))) =
        s.clearRead g.val i o x [l] := by
      obtain ⟨hi, hhost⟩ | ⟨rfl, hstand, haway⟩ := hcase
      · exact State.readShard_hosted hi hhost ..
      · exact State.readShard_away hstand haway ..
    have hown : i = s.lmn g.val → (s.gl g.val).standIn = none := fun hi =>
      hcase.elim (fun hhosted => absurd hi hhosted.1) fun hself => hself.2.1
    obtain ⟨hrows, hregs, hsent⟩ := State.wanting_sameRows hown q
    rw [hread, State.clearRead_solved hneeds hlive ((hrows.clearLine g.isLt ..).trans hline)] at hexec
    refine ⟨_, hexec, ?_, ?_, ?_, hrows.mem⟩
    · exact congrArg (· ++ [Sent.answer g.val x "LINE" [] b]) hsent
    · rw [rd_clearAnswer, State.rd_congr hregs]
    · exact ((State.sameRegsBut.refl _ s).of_regs hregs).trans (clearAnswer_regs _ _ _ _)
  · have hexec := exec_clearingRead h hf i o x [l]
    rw [State.readShard_hosted hi hhost, State.clearRead_waits hi hneeds hlive hline halive] at hexec
    refine ⟨_, hexec, State.reads_addUnits_one .., fun j hj => ?_, State.mem_addUnits_one ..⟩
    rw [State.sent_addUnits_one _ g.isLt]
    exact List.mem_append_right _ (List.mem_map.mpr ⟨j, hj, rfl⟩)
  · have hexec := exec_clearingRead h hf (s.lmn g.val) o x l
    rw [State.readShard_standIn hstand hregion x l _ fun _ => hthere, if_pos hc] at hexec
    exact ⟨_, hexec, rfl, rd_clearAnswer .., clearAnswer_regs _ _ _ _, rfl⟩
  · have hexec := exec_clearingRead h hf (s.lmn g.val) o x l
    rw [State.readShard_standIn hstand hregion x l _ fun hclearing => by simp [hc] at hclearing, if_neg (by simp [hc])] at hexec
    exact ⟨_, hexec, congrArg GladeState.clearWaits ((State.gl_updGl ..).trans (if_pos rfl)), rfl, rfl, rfl⟩
  · have hexec := exec_rowRead h hf hactive hjoined hrow hline x
    refine ⟨_, hexec, rfl, (State.charge_regs s 2 1 0 5).of_regs (State.send_regs ..), ?_, rfl⟩
    exact State.charge_glades s 2 1 0 5
  · have hexec := exec_rowReadAnswer_last h hreads hline
    refine ⟨_, hexec, ?_, ?_, ?_⟩
    · rw [gl_clearAnswer, gl_noteWait, State.reads_dropRead _ _ _ (State.reads_takeAnswer a hreads)]
    · rw [sent_clearAnswer, noteWait_sent, State.dropRead_other State.sent (fun _ _ _ => rfl) fun _ _ _ => rfl]
      rfl
    · rw [mem_clearAnswer, noteWait_mem, State.dropRead_other State.mem (fun _ _ _ => rfl) fun _ _ _ => rfl]
      rfl

end Sys2Proof.Machine
end

section
/-! PROOF. The commit of a ring (R107): which registers the stale list and the commit touch, and what the commit leaves of the glade's
engines. -/
namespace Sys2Proof.Machine

/-- The engines of a glade but the two lists of leaves that a stale list fills. -/
def GladeState.unlisted (e : GladeState) : GladeState := { e with stalePar := [], nextUnbuilt := [] }

namespace State
variable (s : State)

/-! ## The stale list -/

/-- The engines read the same in states that hold the same engines. -/
theorem gl_congr {s t : State} (h : t.glades = s.glades) (g : Nat) : t.gl g = s.gl g := by rw [gl, gl, h]

theorem unlisted_updGl (g : Nat) {f : GladeState → GladeState} (hf : ∀ e, (f e).unlisted = e.unlisted) :
    ((s.updGl g f).gl g).unlisted = (s.gl g).unlisted := by rw [gl_updGl, if_pos rfl, hf]

theorem refreshStale_glades (g : Nat) : (s.refreshStale g).glades = s.glades := by
  unfold refreshStale
  dsimp only
  split
  all_goals rfl

theorem unlisted_markStale (g p : Nat) : ((s.markStale g p).gl g).unlisted = (s.gl g).unlisted := by
  rw [markStale, gl_congr (refreshStale_glades _ g)]
  exact unlisted_updGl s g fun _ => rfl

theorem listedStale_regs (g : Nat) (x : RowPar) : s.sameRegsBut [R.GRV_LOST g, R.GRV_CPPROG g] (s.listedStale g x) := by
  unfold listedStale
  dsimp only
  repeat' split
  · exact sameRegsBut.refl _ s
  · exact (markStale_regs s g _).mono (by simp)
  · exact sameRegsBut.refl _ s
  · exact ((sameRegsBut.refl _ s).of_regs (updGl_regs ..)).add (by simp) _ _

theorem unlisted_listedStale (g : Nat) (x : RowPar) : ((s.listedStale g x).gl g).unlisted = (s.gl g).unlisted := by
  unfold listedStale
  dsimp only
  repeat' split
  · rfl
  · exact unlisted_markStale s g _
  · rfl
  · rw [gl_congr (add_glades ..)]
    exact unlisted_updGl s g fun _ => rfl

/-! ## The reads that ask again (R185) -/

theorem askAgain_regs (g : Nat) : (s.askAgain g).regs = s.regs := each_eq s State.regs fun v u _ => by rw [askLine_eq]

theorem askAgain_glades (g : Nat) : (s.askAgain g).glades = s.glades := each_eq s State.glades fun v u _ => by rw [askLine_eq]

/-! ## The commit -/

/-- The open ring's number and engines as the commit leaves them, before its stale list is acted on. -/
def commitEngines (s : State) (g : Nat) (stale : List RowPar) : State :=
  let v := s.setReg (R.GLD_RING g) (BitVec.ofNat 64 (s.openRing g))
  v.updGl g fun e => { e.closeRing (s.openLo g) with gone := v.hostedLmns g, lastStale := stale }

theorem commitRing_eq (g : Nat) (stale : List RowPar) : s.commitRing g stale =
    (((((s.commitEngines g stale).each stale fun s x => s.listedStale g x).refreshEras g).setStage g 0).askAgain g).wptPoll := rfl

theorem commitRing_regs (g : Nat) (stale : List RowPar) : (s.commitEngines g stale).sameRegsBut
    [R.GRV_LOST g, R.GRV_CPPROG g, R.GRV_MSTAT g, R.STP_GSTAT g] (s.commitRing g stale) := by
  have hlisted : (s.commitEngines g stale).sameRegsBut [R.GRV_LOST g, R.GRV_CPPROG g, R.GRV_MSTAT g, R.STP_GSTAT g]
      ((s.commitEngines g stale).each stale fun s x => s.listedStale g x) :=
    (sameRegsBut.refl _ _).each fun v x _ => (listedStale_regs v g x).mono (by simp)
  exact ((hlisted.wr (by simp) _ _).wr (by simp) _ _).of_regs ((wptPoll_regs _).trans (askAgain_regs ..))

/-- GLD_RING becomes the ring that was open (R107). -/
theorem ring_commitRing {g : Nat} (hg : g < 16) (stale : List RowPar) : (s.commitRing g stale).ring g = s.openRing g := by
  have hreg : (s.commitRing g stale).reg (R.GLD_RING g) = BitVec.ofNat 64 (s.openRing g) :=
    (commitRing_regs s g stale _ (by
      simp only [List.mem_cons, List.not_mem_nil, or_false, R.GLD_RING, R.GRV_LOST, R.GRV_CPPROG, R.GRV_MSTAT, R.STP_GSTAT]
      omega)).trans ((reg_setReg ..).trans (if_pos rfl))
  rw [ring, hreg, BitVec.toNat_ofNat, openRing, Nat.mod_mod]

theorem stage_commitRing (g : Nat) (stale : List RowPar) : (s.commitRing g stale).stage g = 0 := by
  rw [commitRing_eq, stage, rd_congr ((wptPoll_regs _).trans (askAgain_regs ..)), setStage, rd_wr_same _ _ rfl]
  rfl

/-- Nothing of the ring that has committed is left in the engines (R107). -/
theorem unlisted_commitRing (g : Nat) (stale : List RowPar) :
    ((s.commitRing g stale).gl g).unlisted = ((s.commitEngines g stale).gl g).unlisted := by
  have hglades : ∀ v : State, ((((v.refreshEras g).setStage g 0).askAgain g).wptPoll).gl g = v.gl g := fun v =>
    gl_congr ((wptPoll_glades _).trans (askAgain_glades ..)) g
  rw [commitRing_eq, hglades]
  exact each_eq _ (fun v => (v.gl g).unlisted) fun v x _ => unlisted_listedStale v g x

theorem gl_commitEngines (g : Nat) (stale : List RowPar) : ∃ l,
    (s.commitEngines g stale).gl g = { (s.gl g).closeRing (s.openLo g) with gone := l, lastStale := stale } :=
  ⟨_, (gl_updGl ..).trans (if_pos rfl)⟩

/-- The engines wait for the next start with the stale list of the commit (R107, R108). -/
theorem gl_commitRing (g : Nat) (stale : List RowPar) :
    ((s.commitRing g stale).gl g).ringOpen = false ∧ ((s.commitRing g stale).gl g).lastStale = stale ∧
      ((s.commitRing g stale).gl g).copies = [] ∧ ((s.commitRing g stale).gl g).verdictDone = false := by
  obtain ⟨l, hengines⟩ := gl_commitEngines s g stale
  have hgl := (unlisted_commitRing s g stale).trans (congrArg GladeState.unlisted hengines)
  exact ⟨congrArg GladeState.ringOpen hgl, congrArg GladeState.lastStale hgl, congrArg GladeState.copies hgl,
    congrArg GladeState.verdictDone hgl⟩

end State
end Sys2Proof.Machine
end

section
/-! PROOF. What the operations of a ring start send: nothing that was sent is taken back (assumption 4). -/
namespace Sys2Proof.Machine

namespace State
variable (s : State)

/-- Changes that each take back nothing that was sent take back nothing together. -/
theorem sent_subset_each {α : Type} {f : State → α → State} (hf : ∀ v x, v.sent ⊆ (f v x).sent) (l : List α) :
    s.sent ⊆ (s.each l f).sent := by
  unfold each
  induction l generalizing s with
  | nil => exact List.Subset.refl _
  | cons x r ih => exact List.Subset.trans (hf s x) (ih _)

theorem sent_subset_toMembers (g : Nat) (l : List Nat) (name : String) (args : List Nat) (data : List Byte) :
    s.sent ⊆ (s.toMembers g l name args data).sent := by
  rw [toMembers_eq]
  exact List.subset_append_left ..

/-! ## A write through the ports (R296, R306) -/

theorem writeBytes_sent (a : Nat) (l : List Byte) : (s.writeBytes a l).sent = s.sent := by
  induction l generalizing s a with
  | nil => rfl
  | cons v r ih => exact ih (s.writeByte a v) (a + 1)

theorem markStale_sent (g p : Nat) : (s.markStale g p).sent = s.sent := by
  unfold markStale refreshStale
  dsimp only
  split
  all_goals rfl

theorem spoilUnit_sent (g x u : Nat) : (s.spoilUnit g x u).sent = s.sent := by
  unfold spoilUnit
  dsimp only
  repeat' split
  iterate 6 rfl
  · exact each_eq s State.sent fun v (f : Fold) _ => markStale_sent v g f.p
  iterate 2 rfl

theorem awaitUnit_sent (q g x u : Nat) : (s.awaitUnit q g x u).sent = s.sent := by
  unfold awaitUnit
  dsimp only
  split
  · exact spoilUnit_sent s g x u
  · exact spoilUnit_sent s g x u

theorem roundAgain_sent (g t : Nat) : (s.roundAgain g t).sent = s.sent := by
  unfold roundAgain
  split
  · rfl
  · exact writeBytes_sent ..

theorem rememberLedger_sent (g e : Nat) : (s.rememberLedger g e).sent = s.sent := by
  unfold rememberLedger
  split
  all_goals rfl

theorem setLag_sent (g t : Nat) : (s.setLag g t).sent = s.sent := by
  unfold setLag
  dsimp only
  rw [inc_sent, writeBytes_sent, rememberLedger_sent]

theorem bufferLost_sent (g t : Nat) : (s.bufferLost g t).sent = s.sent := by
  unfold bufferLost
  dsimp only
  repeat' split
  iterate 2 rfl
  · exact (record_sent ..).trans (setLag_sent ..)
  · exact setLag_sent ..

theorem lineFailed_sent (q o : Nat) : (s.lineFailed q o).sent = s.sent := by
  unfold lineFailed
  dsimp only
  repeat' split
  · exact (record_sent ..).trans (awaitUnit_sent ..)
  · exact roundAgain_sent ..
  · exact bufferLost_sent ..
  iterate 2 exact record_sent ..

theorem store_sent (o : Nat) (l : List Byte) : (s.store o l).sent = s.sent := by
  unfold store
  split
  · exact writeBytes_sent ..
  · refine each_eq s State.sent fun v a _ => ?_
    dsimp only
    split
    · exact writeBytes_sent ..
    · exact lineFailed_sent ..

/-! ## Waypoints and detections (R162, R164, R401) -/

theorem sent_subset_wptTrigger (cause : Nat) : s.sent ⊆ (s.wptTrigger cause).sent := by
  unfold wptTrigger wptDue wptWait
  dsimp only
  repeat' split
  all_goals simp [toMembers_eq]

theorem wptPoll_sent : s.wptPoll.sent = s.sent := by
  unfold wptPoll
  dsimp only
  repeat' split
  all_goals rfl

theorem sent_subset_setPhase (g v : Nat) (wrapped : Bool) : s.sent ⊆ (s.setPhase g v wrapped).sent := by
  unfold setPhase
  rw [wptPoll_sent]
  obtain h | h := rematch_cases (s.wr (R.PHS_GSTAT g) F.PHS_GSTAT_PHASE v) g wrapped <;> rw [h]
  · exact List.Subset.refl _
  · exact sent_subset_wptTrigger ((s.wr (R.PHS_GSTAT g) F.PHS_GSTAT_PHASE v).showMatch g) 3

theorem joinAgreement_sent (g seq : Nat) (suspects : List Nat) (cause : Option Nat) :
    (s.joinAgreement g seq suspects cause).sent = s.sent := by
  cases cause <;> rfl

theorem joinAgreement_regs (g seq : Nat) (suspects : List Nat) (cause : Option Nat) :
    s.sameRegsBut [R.GRV_MSTAT g, R.GRV_WIT] (s.joinAgreement g seq suspects cause) := by
  have hjoined : ∀ f, s.sameRegsBut [R.GRV_MSTAT g, R.GRV_WIT] (((((s.updGl g f).setMstate g 2).wr R.GRV_WIT F.GRV_WIT_ACTIVE 1).wr
      R.GRV_WIT F.GRV_WIT_GLADE g).inc R.GRV_WIT F.GRV_WIT_ROUNDS) := fun f =>
    (((((sameRegsBut.refl _ s).of_regs (updGl_regs ..)).wr (by simp) _ _).wr (by simp) _ _).wr (by simp) _ _).inc (by simp) _
  cases cause with
  | none => exact (hjoined _).of_regs rfl
  | some c => exact ((hjoined _).wr (by simp) _ _).of_regs rfl

theorem sent_subset_detect (g lmn cause : Nat) : s.sent ⊆ (s.detect g lmn cause).sent := by
  unfold detect startAgreement
  dsimp only
  repeat' split
  · exact List.Subset.refl _
  · rw [← joinAgreement_sent s]
    exact sent_subset_toMembers ..
  · exact List.Subset.refl _
  · exact sent_subset_toMembers (s.addSuspects g _) ..
  · exact List.Subset.refl _

/-- A detection shows in GRV_MSTAT and GRV_WIT alone (R163). -/
theorem detect_regs (g lmn cause : Nat) : s.sameRegsBut [R.GRV_MSTAT g, R.GRV_WIT] (s.detect g lmn cause) := by
  unfold detect startAgreement
  dsimp only
  repeat' split
  · exact sameRegsBut.refl _ s
  · exact (joinAgreement_regs s g _ _ _).of_regs (toMembers_regs ..)
  · exact sameRegsBut.refl _ s
  · exact (sameRegsBut.refl _ s).of_regs (toMembers_regs ..)
  · exact (sameRegsBut.refl _ s).of_regs rfl

end State
end Sys2Proof.Machine
end

section
/-! PROOF. A ring opens on a member (R52, R87, R226, R301, R331), and an evicted member holds (R109). -/
namespace Sys2Proof.Machine

namespace State
variable (s : State)

/-! ## The shadowed values (R87) -/

/-- The skip request is none of the shadowed values. -/
theorem shadowed_wr_skipReq {g : Nat} (hg : g < 16) (n : Nat) :
    (s.wr (R.STP_GCTL g) F.STP_GCTL_SKIPREQ n).shadowed g = s.shadowed g := by
  have hscal : ∀ x, (s.wr (R.STP_GCTL g) F.STP_GCTL_SKIPREQ n).reg (R.STP_SCAL g x) = s.reg (R.STP_SCAL g x) := fun x =>
    reg_wr_other s (by unfold R.STP_SCAL R.STP_GCTL; omega) _ _
  have hctl : ∀ f, F.STP_GCTL_SKIPREQ.apart f = true → f.ok = true →
      (s.wr (R.STP_GCTL g) F.STP_GCTL_SKIPREQ n).rd (R.STP_GCTL g) f = s.rd (R.STP_GCTL g) f := fun f hf hok =>
    rd_wr_apart s _ hf hok n
  simp only [shadowed, on, hscal, hctl F.STP_GCTL_POLICY rfl rfl, hctl F.STP_GCTL_CARRYMAX rfl rfl, hctl F.STP_GCTL_DEADLINE rfl rfl,
    hctl F.STP_GCTL_WCSR rfl rfl]

/-! ## The registers that a ring start shows (R48, R50, R86) -/

/-- STAGE 0, HOLD 0 and phase 0 of a ring that has opened. -/
def showOpen (s : State) (g : Nat) (wrapped : Bool) : State := ((s.setStage g 0).setHold g false).setPhase g 0 wrapped

theorem phase_showOpen {g : Nat} (hg : g < 16) (wrapped : Bool) : (s.showOpen g wrapped).phase g = 0 := phase_setPhase _ hg 0 wrapped

theorem hold_showOpen {g : Nat} (hg : g < 16) (wrapped : Bool) : (s.showOpen g wrapped).hold g = false := by
  rw [showOpen, hold_setPhase _ hg, hold, on, setHold, flag, rd_wr_same _ _ rfl]
  rfl

theorem stage_showOpen {g : Nat} (hg : g < 16) (wrapped : Bool) : (s.showOpen g wrapped).stage g = 0 := by
  have hne : R.STP_GSTAT g ≠ R.PHS_GSTAT g ∧ R.STP_GSTAT g ≠ R.WPT_STAT := by
    unfold R.STP_GSTAT R.PHS_GSTAT R.WPT_STAT
    omega
  rw [stage, showOpen, (setPhase_regs _ g 0 wrapped).rd (by simp [hne]), setHold, flag, rd_wr_other _ hne.1, setStage,
    rd_wr_same _ _ rfl]
  rfl

theorem showOpen_regs (g : Nat) (wrapped : Bool) :
    s.sameRegsBut [R.STP_GSTAT g, R.PHS_GSTAT g, R.WPT_STAT] (s.showOpen g wrapped) :=
  (((sameRegsBut.refl _ s).wr (by simp) _ _).flag (by simp) _ _).trans ((setPhase_regs _ g 0 wrapped).mono (by simp))

theorem gl_showOpen (g : Nat) (wrapped : Bool) (x : Nat) : (s.showOpen g wrapped).gl x = s.gl x :=
  gl_congr (setPhase_glades ..) x

theorem showOpen_mem (g : Nat) (wrapped : Bool) : (s.showOpen g wrapped).mem = s.mem :=
  (setPhase_keeps _ g 0 wrapped (Keeps.refl (m := false) (f := false) (u := false) _)).mem rfl

theorem sent_subset_showOpen (g : Nat) (wrapped : Bool) : s.sent ⊆ (s.showOpen g wrapped).sent :=
  sent_subset_setPhase ((s.setStage g 0).setHold g false) g 0 wrapped

/-! ## The parts of a ring start -/

/-- A skip that the closed ring took is requested no more (R87). -/
def takeSkip (s : State) (g : Nat) : State := if (s.gl g).skipTaken then s.wr (R.STP_GCTL g) F.STP_GCTL_SKIPREQ 0 else s

/-- The engines of a glade whose next ring opens, after the commit of ring r, or again after a replay of that ring. -/
def openEngines (s : State) (g r : Nat) (again : Bool) (e : GladeState) : GladeState :=
  { e with
    wrapPending := false, startEntered := false, childS := [], ringOpen := true, started := true, replayWait := false,
    epochWait := false, skipTaken := false, inForce := s.shadowed g
    sweepDue := if again then e.sweepDue else s.sweepFalls g r
    publishDue := if again then e.publishDue else s.publishFalls g r
    sweep := e.sweep.map fun w => { w with leftAt := s.rd (R.GLD_SBSTAT g) F.GLD_SBSTAT_LEFT, quotaUsed := 0 } }

/-- The engines open the ring. -/
def openGlade (s : State) (g : Nat) : State :=
  (s.takeSkip g).updGl g ((s.takeSkip g).openEngines g (s.ring g) (s.gl g).replayWait)

/-- What else a ring start brings into force: restored ledger entries, the tiles' sets and the glade's stream (R234, R301, R331). -/
def enterForce (s : State) (g : Nat) : State := ((s.lateLedgers g).refreshTiles).switchStream g (s.openRing g)

/-- In exact mode a ring that starts with a hosted shard is warned of. -/
def warnHosting (s : State) (g : Nat) : State :=
  if s.exact g && !(s.gl g).hosting.isEmpty then s.record ((ev Sev.warn Src.grv g).field (R.GRV_MSTAT g) F.GRV_MSTAT_STATE) else s

/-- The next ring opens on a member that has joined (R52). -/
theorem beginRing_eq {g : Nat} (h : (s.gl g).started = true) : s.beginRing g =
    (((s.openGlade g).enterForce g).warnHosting g).showOpen g ((s.gl g).started && !(s.gl g).replayWait) := by
  unfold beginRing
  rw [if_pos h]
  rfl

theorem takeSkip_regs (g : Nat) : s.sameRegsBut [R.STP_GCTL g] (s.takeSkip g) := by
  unfold takeSkip
  split
  · exact (sameRegsBut.refl _ s).wr (by simp) _ _
  · exact sameRegsBut.refl _ s

theorem shadowed_takeSkip {g : Nat} (hg : g < 16) : (s.takeSkip g).shadowed g = s.shadowed g := by
  unfold takeSkip
  split
  · exact shadowed_wr_skipReq s hg 0
  · rfl

/-- Clearing the skip request changes a register alone. -/
theorem takeSkip_fields (g : Nat) : ∃ r, s.takeSkip g = { s with regs := r } := by
  unfold takeSkip
  split
  all_goals exact ⟨_, rfl⟩

theorem openGlade_regs (g : Nat) : s.sameRegsBut [R.STP_GCTL g] (s.openGlade g) := (takeSkip_regs s g).of_regs (updGl_regs ..)

theorem openGlade_mem (g : Nat) : (s.openGlade g).mem = s.mem := by
  obtain ⟨r, h⟩ := takeSkip_fields s g
  rw [openGlade, h]
  rfl

theorem openGlade_sent (g : Nat) : (s.openGlade g).sent = s.sent := by
  obtain ⟨r, h⟩ := takeSkip_fields s g
  rw [openGlade, h]
  rfl

theorem gl_openGlade (g : Nat) : (s.openGlade g).gl g = (s.takeSkip g).openEngines g (s.ring g) (s.gl g).replayWait (s.gl g) := by
  obtain ⟨r, h⟩ := takeSkip_fields s g
  rw [openGlade, gl_updGl, if_pos rfl, h]
  rfl

theorem lateLedgers_sent (g : Nat) : (s.lateLedgers g).sent = s.sent := by
  unfold lateLedgers
  dsimp only
  rw [each_eq _ State.sent fun v x _ => (store_sent ..).trans (rememberLedger_sent ..), updGl_sent]

/-- With no restored ledger entry waiting nothing is stored. -/
theorem lateLedgers_of_nil {g : Nat} (h : (s.gl g).ledgerLater = []) :
    s.lateLedgers g = s.updGl g fun e => { e with ledgerLater := [] } := by
  unfold lateLedgers
  rw [h]
  rfl

/-- The tiles' sets change nothing that the tiles do not show. -/
theorem refreshTiles_other {β : Type} (p : State → β)
    (hp : ∀ (v : State) (x : Nat) (f : TileState → TileState), p (v.updTl x f) = p v) : p s.refreshTiles = p s :=
  each_eq s p fun v x _ => hp v x _

theorem enterForce_sent (g : Nat) : (s.enterForce g).sent = s.sent := by
  rw [enterForce, switchStream, updKs_sent, refreshTiles_other _ State.sent fun _ _ _ => rfl, lateLedgers_sent]

/-- With no restored ledger entry waiting the registers and memory stay as they are. -/
theorem enterForce_of_nil {g : Nat} (h : (s.gl g).ledgerLater = []) :
    (s.enterForce g).regs = s.regs ∧ (s.enterForce g).mem = s.mem ∧ (s.enterForce g).gl g = { s.gl g with ledgerLater := [] } := by
  have hother : ∀ {β : Type} (p : State → β), (∀ (v : State) (x : Nat) (f : TileState → TileState), p (v.updTl x f) = p v) →
      (∀ (v : State) (x : Nat) (f : KeySlot → KeySlot), p (v.updKs x f) = p v) →
      p (s.enterForce g) = p (s.updGl g fun e => { e with ledgerLater := [] }) := fun p htiles hkeys => by
    rw [enterForce, switchStream, hkeys, refreshTiles_other _ p htiles, lateLedgers_of_nil s h]
  refine ⟨(hother State.regs (fun _ _ _ => rfl) fun _ _ _ => rfl).trans (updGl_regs ..),
    (hother State.mem (fun _ _ _ => rfl) fun _ _ _ => rfl).trans (updGl_mem ..),
    (hother (fun v => v.gl g) (fun _ _ _ => rfl) fun _ _ _ => rfl).trans ((gl_updGl ..).trans (if_pos rfl))⟩

/-- The warning is a record, if any. -/
theorem warnHosting_cases (g : Nat) : s.warnHosting g = s ∨ ∃ e, s.warnHosting g = s.record e := by
  unfold warnHosting
  split
  · exact .inr ⟨_, rfl⟩
  · exact .inl rfl

theorem warnHosting_regs (g : Nat) : s.sameRegsBut [R.EVR_LOST] (s.warnHosting g) := by
  obtain h | ⟨e, h⟩ := warnHosting_cases s g <;> rw [h]
  · exact sameRegsBut.refl _ s
  · exact (sameRegsBut.refl _ s).record (by simp) e

theorem warnHosting_mem (g : Nat) : (s.warnHosting g).mem = s.mem := by
  obtain h | ⟨e, h⟩ := warnHosting_cases s g <;> rw [h]
  exact record_mem s e

theorem warnHosting_sent (g : Nat) : (s.warnHosting g).sent = s.sent := by
  obtain h | ⟨e, h⟩ := warnHosting_cases s g <;> rw [h]
  exact record_sent s e

theorem gl_warnHosting (g x : Nat) : (s.warnHosting g).gl x = s.gl x := by
  obtain h | ⟨e, h⟩ := warnHosting_cases s g <;> rw [h]
  exact gl_congr (record_glades s e) x

/-! ## A ring start on a member that has joined (R52) -/

section Begin
variable {s} {g : Nat} (h : (s.gl g).started = true)
include h

theorem sent_subset_beginRing : s.sent ⊆ (s.beginRing g).sent := by
  rw [beginRing_eq s h, ← openGlade_sent s g, ← enterForce_sent (s.openGlade g), ← warnHosting_sent _ g]
  exact sent_subset_showOpen ..

variable (hg : g < 16)
include hg

theorem phase_beginRing : (s.beginRing g).phase g = 0 := by rw [beginRing_eq s h, phase_showOpen _ hg]

theorem hold_beginRing : (s.beginRing g).hold g = false := by rw [beginRing_eq s h, hold_showOpen _ hg]

theorem stage_beginRing : (s.beginRing g).stage g = 0 := by rw [beginRing_eq s h, stage_showOpen _ hg]

end Begin

/-! With no restored ledger entry waiting a ring start stores nothing. -/

section Frame
variable {s} {g : Nat} (hlater : (s.gl g).ledgerLater = [])
include hlater

theorem ledgerLater_openGlade : ((s.openGlade g).gl g).ledgerLater = [] := by
  rw [gl_openGlade]
  exact hlater

/-- The engines open the ring with the values that the registers hold (R52, R87). -/
theorem gl_enterForce_openGlade (hg : g < 16) : (((s.openGlade g).enterForce g).gl g).ringOpen = true ∧
    (((s.openGlade g).enterForce g).gl g).wrapPending = false ∧ (((s.openGlade g).enterForce g).gl g).inForce = s.shadowed g := by
  obtain ⟨-, -, hgl⟩ := enterForce_of_nil _ (ledgerLater_openGlade hlater)
  rw [hgl, gl_openGlade]
  exact ⟨rfl, rfl, shadowed_takeSkip s hg⟩

variable (h : (s.gl g).started = true)
include h

theorem gl_beginRing (hg : g < 16) : ((s.beginRing g).gl g).ringOpen = true ∧ ((s.beginRing g).gl g).wrapPending = false ∧
    ((s.beginRing g).gl g).inForce = s.shadowed g := by
  rw [beginRing_eq s h, gl_showOpen, gl_warnHosting]
  exact gl_enterForce_openGlade hlater hg

theorem beginRing_regs : s.sameRegsBut [R.STP_GCTL g, R.EVR_LOST, R.STP_GSTAT g, R.PHS_GSTAT g, R.WPT_STAT] (s.beginRing g) := by
  obtain ⟨hregs, -, -⟩ := enterForce_of_nil _ (ledgerLater_openGlade hlater)
  rw [beginRing_eq s h]
  exact ((((openGlade_regs s g).of_regs hregs).mono (by simp)).trans ((warnHosting_regs _ g).mono (by simp))).trans
    ((showOpen_regs _ g _).mono (by simp))

theorem ring_beginRing (hg : g < 16) : (s.beginRing g).ring g = s.ring g := by
  rw [ring, beginRing_regs hlater h, ring]
  simp only [List.mem_cons, List.not_mem_nil, or_false, R.GLD_RING, R.STP_GCTL, R.EVR_LOST, R.STP_GSTAT, R.PHS_GSTAT, R.WPT_STAT]
  omega

theorem beginRing_mem : (s.beginRing g).mem = s.mem := by
  obtain ⟨-, hmem, -⟩ := enterForce_of_nil _ (ledgerLater_openGlade hlater)
  rw [beginRing_eq s h, showOpen_mem, warnHosting_mem, hmem, openGlade_mem]

end Frame

/-! ## An eviction of this member (R109) -/

/-- EVICTED, STAGE 9, HOLD 1 and STATE 0 of a member that is evicted. -/
def showEvicted (s : State) (g : Nat) : State :=
  (((s.wr (R.STP_GSTAT g) F.STP_GSTAT_EVICTED 1).setStage g 9).setHold g true).setMstate g 0

theorem showEvicted_regs (g : Nat) : s.sameRegsBut [R.STP_GSTAT g, R.PHS_GSTAT g, R.GRV_MSTAT g] (s.showEvicted g) :=
  ((((sameRegsBut.refl _ s).wr (by simp) _ _).wr (by simp) _ _).flag (by simp) _ _).wr (by simp) _ _

theorem showEvicted_status (g : Nat) : (s.showEvicted g).rd (R.STP_GSTAT g) F.STP_GSTAT_EVICTED = 1 ∧
    (s.showEvicted g).stage g = 9 ∧ (s.showEvicted g).hold g = true ∧ (s.showEvicted g).mstate g = 0 := by
  obtain ⟨hphase, hgrove, hhold⟩ : R.STP_GSTAT g ≠ R.PHS_GSTAT g ∧ R.STP_GSTAT g ≠ R.GRV_MSTAT g ∧
      R.PHS_GSTAT g ≠ R.GRV_MSTAT g := by
    unfold R.STP_GSTAT R.PHS_GSTAT R.GRV_MSTAT
    omega
  refine ⟨?_, ?_, ?_, rd_wr_same _ _ rfl 0⟩
  · rw [showEvicted, setMstate, rd_wr_other _ hgrove, setHold, flag, rd_wr_other _ hphase, setStage, rd_wr_apart _ _ rfl rfl,
      rd_wr_same _ _ rfl]
    rfl
  · rw [stage, showEvicted, setMstate, rd_wr_other _ hgrove, setHold, flag, rd_wr_other _ hphase, setStage, rd_wr_same _ _ rfl]
    rfl
  · rw [hold, on, showEvicted, setMstate, rd_wr_other _ hhold, setHold, flag, rd_wr_same _ _ rfl]
    rfl

/-- Without a plan there is no next shape to drop (R214). -/
theorem dropNextShape_of_no_plan {g : Nat} (h : (s.gl g).plan = none) : s.dropNextShape g = s := if_pos (by simp [h])

/-- An eviction without a plan shows its registers and a record (R109). -/
theorem reg_evictSelf {g a : Nat} (h : (s.gl g).plan = none) (ha : a ≠ R.EVR_LOST) :
    (s.evictSelf g).reg a = (s.showEvicted g).reg a := by
  unfold evictSelf
  dsimp only
  rw [reg_record _ _ ha, dropNextShape_of_no_plan]
  · rfl
  · rw [gl_updGl, if_pos rfl]
    exact h

theorem evictSelf_regs {g : Nat} (h : (s.gl g).plan = none) :
    s.sameRegsBut [R.STP_GSTAT g, R.PHS_GSTAT g, R.GRV_MSTAT g, R.EVR_LOST] (s.evictSelf g) := fun a ha => by
  have hlost : a ≠ R.EVR_LOST := fun e => ha (by simp [e])
  rw [reg_evictSelf s h hlost]
  exact (showEvicted_regs s g).mono (by simp) a ha

theorem evictSelf_mem (g : Nat) : (s.evictSelf g).mem = s.mem :=
  (evictSelf_keeps s g (Keeps.refl (m := false) (f := false) (u := false) s)).mem rfl

theorem evictSelf_status {g : Nat} (hg : g < 16) (h : (s.gl g).plan = none) :
    (s.evictSelf g).rd (R.STP_GSTAT g) F.STP_GSTAT_EVICTED = 1 ∧ (s.evictSelf g).stage g = 9 ∧ (s.evictSelf g).hold g = true ∧
      (s.evictSelf g).mstate g = 0 := by
  have hreg : ∀ a, a < 0x300000 → ∀ f, (s.evictSelf g).rd a f = (s.showEvicted g).rd a f := fun a ha f => by
    rw [rd, reg_evictSelf s h (by unfold R.EVR_LOST; omega), rd]
  have hstatus := showEvicted_status s g
  simp only [stage, hold, mstate, on] at hstatus ⊢
  rw [hreg _ (by unfold R.STP_GSTAT; omega), hreg _ (by unfold R.STP_GSTAT; omega), hreg _ (by unfold R.PHS_GSTAT; omega),
    hreg _ (by unfold R.GRV_MSTAT; omega)]
  exact hstatus

/-! ## The completion of the ring-start barrier (R52, R109, R148) -/

theorem startRing_evicted {g : Nat} {ev : List Nat} (h : s.lmn g ∈ ev) (r : Nat) (o : PlanOutcome) :
    s.startRing g r ev o = s.evictSelf g := if_pos (by simpa using h)

/-- A member that stays opens the ring and loses the evicted ones to its grove (R109, R162). -/
theorem startRing_open {g : Nat} {ev : List Nat} (h : s.lmn g ∉ ev) (hin : (s.gl g).dissolved = false) (hactive : s.active g = true)
    (r : Nat) : s.startRing g r ev .none = (s.beginRing g).each ev fun s i => s.detect g i 6 := by
  unfold startRing
  rw [if_neg (by simpa using h)]
  exact if_neg (by simp [planOutcome, hin, hactive])

/-- A result that came down the tree changes the list of what is sent alone. -/
theorem passOn_fields (g : Nat) (name : String) (args : List Nat) (data : List Byte) :
    ∃ l, s.passOn g name args data = { s with sent := s.sent ++ l } := by
  unfold passOn
  split
  · exact ⟨[], by simp⟩
  · exact ⟨_, toMembers_eq ..⟩

theorem decidePlan_of_no_plan {g : Nat} (h : (s.gl g).plan = none) (e : StartEntry) : s.decidePlan g e = .none := by
  unfold decidePlan
  rw [h]

/-- The completion that LMN 0 sends to every member, and its copies for the saplings (R148, R212). -/
def sendStart (s : State) (g : Nat) (args : List Nat) : State :=
  let v := s.toAll g "RING_START" args
  v.each (v.gl g).saplings fun v x => v.toNode (v.nextPnid g x.lmn) "RING_START" args

theorem sendStart_sent (g : Nat) (args : List Nat) : .toAll g "RING_START" args [] ∈ (s.sendStart g args).sent := by
  have hsent : (s.toAll g "RING_START" args).sent ⊆ (s.sendStart g args).sent :=
    sent_subset_each _ (fun v x => List.subset_append_left ..) _
  exact hsent (by simp [toAll, send])

theorem sendStart_regs (g : Nat) (args : List Nat) : (s.sendStart g args).regs = s.regs :=
  each_eq _ State.regs fun _ _ _ => rfl

theorem sendStart_glades (g : Nat) (args : List Nat) : (s.sendStart g args).glades = s.glades :=
  each_eq _ State.glades fun _ _ _ => rfl

/-- At LMN 0 of a dense glade without a plan the completion goes to every member and the ring starts here (R109, R148). -/
theorem completeStart_eq {g : Nat} (hdense : s.dense g = true) (hplan : (s.gl g).plan = none) (ev : List Nat) (e : StartEntry) :
    s.completeStart g ev e = (s.sendStart g ([g, s.openRing g, 0] ++ ev)).startRing g (s.openRing g) ev .none := by
  unfold completeStart
  rw [decidePlan_of_no_plan s hplan]
  dsimp only [distribute]
  rw [if_pos hdense]
  rfl

end State
end Sys2Proof.Machine
end

section
/-! PROOF. The rows RING_CLOSE_COMPLETION, RING_START_COMPLETION and LAGGARD_EVICTION (R52, R107, R109). -/
namespace Sys2Proof.Machine

section Rows
variable {s : State} {g : GladeId}

/-! ## RING_CLOSE_COMPLETION -/

theorem exec_ringCloseCompletion (h : s.up) (hactive : s.active g.val = true) (hf : s.fenced g.val = false)
    (hopen : (s.gl g.val).ringOpen = true) (stale : List RowPar) :
    exec (.ringCloseCompletion g (s.openRing g.val) stale) s = .next
      ((s.passOn g.val "RING_CLOSE" ([g.val, s.openRing g.val] ++ staleArgs stale)).commitRing g.val stale) := by
  have hexec : exec (.ringCloseCompletion g (s.openRing g.val) stale) s = .next _ := congrArg Host.Outcome.next (State.inMain_of_up h _)
  rw [hexec, if_pos (by simp [hactive, hf, hopen])]

/-- The completion of another ring than the open one changes nothing (R107). -/
theorem exec_ringCloseCompletion_other {r : Nat} (hr : r ≠ s.openRing g.val) (stale : List RowPar) :
    exec (.ringCloseCompletion g r stale) s = .next s :=
  congrArg Host.Outcome.next (ite_eq_right_iff.mpr fun _ => if_neg (by simp [hr]))

/-! ## RING_START_COMPLETION -/

theorem exec_ringStartCompletion (h : s.up) (hactive : s.active g.val = true) (hf : s.fenced g.val = false)
    (hclosed : (s.gl g.val).ringOpen = false) {ev : List Nat} (hmine : (s.gl g.val).startEntered = true ∨ s.lmn g.val ∈ ev)
    (o : PlanOutcome) : exec (.ringStartCompletion g (s.openRing g.val) ev o) s = .next
      ((s.passOn g.val "RING_START" ([g.val, s.openRing g.val, o.code] ++ ev)).startRing g.val (s.openRing g.val) ev o) := by
  have hexec : exec (.ringStartCompletion g (s.openRing g.val) ev o) s = .next _ := congrArg Host.Outcome.next (State.inMain_of_up h _)
  have hacts : ¬((s.gl g.val).ringOpen || s.openRing g.val != s.openRing g.val ||
      !((s.gl g.val).startEntered || ev.contains (s.lmn g.val))) = true := by
    obtain hentered | hev := hmine
    · simp [hclosed, hentered]
    · simp [hclosed, hev]
  rw [hexec]
  dsimp only
  rw [if_neg (by simp [State.fencedHere, hf]), if_pos hactive, if_neg hacts]

/-! ## LAGGARD_EVICTION -/

theorem exec_laggardEviction (h : s.up) (hactive : s.active g.val = true) (hf : s.fenced g.val = false)
    (hroot : s.treeRoot g.val = 0) (hclosed : (s.gl g.val).ringOpen = false) (hstarted : (s.gl g.val).started = true)
    (hreplay : (s.gl g.val).replayWait = false) (hlate : s.laggards g.val ≠ []) :
    ∃ e, exec (.laggardEviction g) s = .next (s.completeStart g.val (s.laggards g.val) e) := by
  have hexec : exec (.laggardEviction g) s = .next _ := congrArg Host.Outcome.next (State.inMain_of_up h _)
  refine ⟨_, hexec.trans (congrArg Host.Outcome.next (if_neg ?_))⟩
  simp [hactive, hf, hroot, hclosed, hstarted, hreplay, hlate]

/-- LMN 0 goes on without the laggards: every member learns of them, and the ring starts at phase 0 (R109). -/
theorem completeStart_laggards (hactive : s.active g.val = true) (hdense : s.dense g.val = true)
    (hstarted : (s.gl g.val).started = true) (hplan : (s.gl g.val).plan = none) (hin : (s.gl g.val).dissolved = false)
    {ev : List Nat} (hev : s.lmn g.val ∉ ev) (e : StartEntry) :
    .toAll g.val "RING_START" ([g.val, s.openRing g.val, 0] ++ ev) [] ∈ (s.completeStart g.val ev e).sent ∧
      (s.completeStart g.val ev e).phase g.val = 0 := by
  have hregs := State.sendStart_regs s g.val ([g.val, s.openRing g.val, 0] ++ ev)
  have hgl := State.gl_congr (State.sendStart_glades s g.val ([g.val, s.openRing g.val, 0] ++ ev)) g.val
  have hmsg := State.sendStart_sent s g.val ([g.val, s.openRing g.val, 0] ++ ev)
  rw [State.completeStart_eq s hdense hplan]
  generalize s.sendStart g.val ([g.val, s.openRing g.val, 0] ++ ev) = v at hregs hgl hmsg ⊢
  have hvstarted : (v.gl g.val).started = true := hgl ▸ hstarted
  have hvlmn : v.lmn g.val = s.lmn g.val := State.rd_congr hregs _ _
  have hvactive : v.active g.val = true := by
    rw [State.active, State.on, State.rd_congr hregs]
    exact hactive
  rw [State.startRing_open v (hvlmn ▸ hev) (hgl ▸ hin) hvactive]
  refine ⟨State.sent_subset_each _ (fun w i => State.sent_subset_detect w g.val i 6) _
    (State.sent_subset_beginRing hvstarted hmsg), ?_⟩
  have hdetect : (v.beginRing g.val).sameRegsBut [R.GRV_MSTAT g.val, R.GRV_WIT]
      ((v.beginRing g.val).each ev fun s i => s.detect g.val i 6) :=
    (State.sameRegsBut.refl _ _).each fun w i _ => State.detect_regs w g.val i 6
  have hphase : R.PHS_GSTAT g.val ∉ [R.GRV_MSTAT g.val, R.GRV_WIT] := by
    simp only [List.mem_cons, List.not_mem_nil, or_false, R.PHS_GSTAT, R.GRV_MSTAT, R.GRV_WIT]
    omega
  exact (hdetect.rd hphase _).trans (State.phase_beginRing hvstarted g.isLt)

end Rows

/-- Settles O28: each row by the state that it answers. -/
theorem ringCloseAndStart : Obligations.RingCloseAndStart := by
  unfold Obligations.RingCloseAndStart
  refine ⟨fun s g stale h hactive hf hopen => ?_, fun s g r stale hr => exec_ringCloseCompletion_other hr stale,
    fun s g h hactive hf hclosed hentered hstarted hin hlater => ?_, fun s g ev o h hactive hf hclosed hev hplan => ?_,
    fun s g h hactive hf hroot hdense hclosed hstarted hreplay hplan hin hlate hmine => ?_⟩
  · have hexec := exec_ringCloseCompletion h hactive hf hopen stale
    obtain ⟨l, hpass⟩ := State.passOn_fields s g.val "RING_CLOSE" ([g.val, s.openRing g.val] ++ staleArgs stale) []
    obtain ⟨hclosed, hstale, hcopies, hverdict⟩ := State.gl_commitRing { s with sent := s.sent ++ l } g.val stale
    refine ⟨_, hexec, ?_⟩
    rw [hpass]
    exact ⟨State.ring_commitRing _ g.isLt stale, hclosed, hstale, hcopies, hverdict, State.stage_commitRing _ g.val stale,
      exec_mem (hpass ▸ hexec) rfl⟩
  · have hexec := exec_ringStartCompletion h hactive hf hclosed (ev := []) (.inl hentered) .none
    obtain ⟨l, hpass⟩ := State.passOn_fields s g.val "RING_START" ([g.val, s.openRing g.val, PlanOutcome.none.code] ++ []) []
    rw [hpass, State.startRing_open { s with sent := s.sent ++ l } List.not_mem_nil hin hactive] at hexec
    obtain ⟨hring, hwrap, hforce⟩ := State.gl_beginRing (s := { s with sent := s.sent ++ l }) hlater hstarted g.isLt
    exact ⟨_, hexec, hring, hwrap, hforce, State.phase_beginRing hstarted g.isLt, State.hold_beginRing hstarted g.isLt,
      State.stage_beginRing hstarted g.isLt, State.ring_beginRing hlater hstarted g.isLt, State.beginRing_mem hlater hstarted⟩
  · have hexec := exec_ringStartCompletion h hactive hf hclosed (.inr hev) o
    obtain ⟨l, hpass⟩ := State.passOn_fields s g.val "RING_START" ([g.val, s.openRing g.val, o.code] ++ ev) []
    rw [hpass, State.startRing_evicted { s with sent := s.sent ++ l } hev] at hexec
    obtain ⟨hevicted, hstage, hhold, hmstate⟩ := State.evictSelf_status { s with sent := s.sent ++ l } g.isLt hplan
    exact ⟨_, hexec, hevicted, hstage, hhold, hmstate, State.evictSelf_regs { s with sent := s.sent ++ l } hplan,
      State.evictSelf_mem ..⟩
  · obtain ⟨e, hexec⟩ := exec_laggardEviction h hactive hf hroot hclosed hstarted hreplay hlate
    exact ⟨_, hexec, completeStart_laggards hactive hdense hstarted hplan hin hmine e⟩

end Sys2Proof.Machine
end

section
/-! PROOF. GF(2⁸) (R63, R64): multiplication is additive in both arguments, so its laws need be checked on the eight powers of x below x⁸
only; squaring is additive too, so the 256th power of a byte is the byte, and the inverse of a non-zero byte is its 254th power. -/
namespace Sys2Proof.Machine

/-! ## Multiplication is additive -/

/-- A byte times x. -/
def gdouble (a : Byte) : Byte := (a <<< 1) ^^^ (if a.msb then 0x1D else 0)

theorem toNat_gdouble : ∀ a : Byte, (gdouble a).toNat = if 2 * a.toNat ≥ 256 then (2 * a.toNat) ^^^ 0x11D else 2 * a.toNat := by
  decide +kernel

theorem gdouble_xor (a b : Byte) : gdouble (a ^^^ b) = gdouble a ^^^ gdouble b := by
  unfold gdouble
  rw [BitVec.shiftLeft_xor_distrib, BitVec.msb_xor]
  generalize a <<< 1 = x, b <<< 1 = y
  cases a.msb <;> cases b.msb <;> simp [BitVec.xor_assoc, BitVec.xor_comm y]

/-- What the first n steps of gmul add to the product: a byte times the n low bits of a number. -/
def gsum : Nat → Byte → Nat → Byte
  | 0, _, _ => 0
  | n + 1, a, b => (if b.testBit 0 then a else 0) ^^^ gsum n (gdouble a) (b / 2)

theorem gmulGo_eq_gsum (n : Nat) (p a : Byte) (b : Nat) : gmulGo n p.toNat a.toNat b = (p ^^^ gsum n a b).toNat := by
  induction n generalizing p a b with
  | zero => simp [gmulGo, gsum]
  | succ n ih =>
    have hp : (if b % 2 = 1 then p.toNat ^^^ a.toNat else p.toNat) = (p ^^^ if b.testBit 0 then a else 0).toNat := by
      rw [Nat.testBit_zero]
      by_cases h : b % 2 = 1 <;> simp [h]
    simp only [gmulGo, gsum, hp, ← toNat_gdouble, ih, BitVec.xor_assoc]

theorem gmul_eq_gsum (a b : Byte) : gmul a b = gsum 8 a b.toNat := by
  have h := gmulGo_eq_gsum 8 0#8 a b.toNat
  rw [BitVec.zero_xor, BitVec.toNat_zero] at h
  rw [gmul, h, BitVec.ofNat_toNat, BitVec.setWidth_eq]

theorem gsum_xor_left (n : Nat) (a c : Byte) (b : Nat) : gsum n (a ^^^ c) b = gsum n a b ^^^ gsum n c b := by
  induction n generalizing a c b with
  | zero => simp [gsum]
  | succ n ih =>
    simp only [gsum, gdouble_xor, ih]
    cases b.testBit 0
    · simp
    · simp only [if_true]
      ac_rfl

theorem gsum_xor_right (n : Nat) (a : Byte) (b c : Nat) : gsum n a (b ^^^ c) = gsum n a b ^^^ gsum n a c := by
  induction n generalizing a b c with
  | zero => simp [gsum]
  | succ n ih =>
    simp only [gsum, Nat.xor_div_two, Nat.testBit_xor, ih]
    generalize gsum n (gdouble a) (b / 2) = x, gsum n (gdouble a) (c / 2) = y
    cases b.testBit 0 <;> cases c.testBit 0 <;> simp [BitVec.xor_assoc, BitVec.xor_comm x]

theorem gmul_xor_left (a b c : Byte) : gmul (a ^^^ b) c = gmul a c ^^^ gmul b c := by
  simp only [gmul_eq_gsum, gsum_xor_left]

theorem gmul_xor_right (a b c : Byte) : gmul a (b ^^^ c) = gmul a b ^^^ gmul a c := by
  simp only [gmul_eq_gsum, BitVec.toNat_xor, gsum_xor_right]

/-! ## Functions that are additive -/

/-- A function of a byte that distributes over exclusive-or. -/
def XorLinear (f : Byte → Byte) : Prop := ∀ a b, f (a ^^^ b) = f a ^^^ f b

/-- Every byte is the sum of the powers of x at which its bits are 1. -/
theorem byte_eq_foldr_bits : ∀ a : Byte, a =
    ((List.finRange 8).filter fun i : Fin 8 => a.getLsbD i).foldr (fun i : Fin 8 => (BitVec.twoPow 8 i ^^^ ·)) 0 := by
  decide +kernel

namespace XorLinear

variable {f g : Byte → Byte}

theorem map_zero (hf : XorLinear f) : f 0 = 0 := by
  simpa using hf 0 0

theorem iterate (hf : XorLinear f) (n : Nat) : XorLinear f^[n] := by
  induction n with
  | zero => exact fun _ _ => rfl
  | succ n ih => exact fun a b => by simp only [Function.iterate_succ_apply', ih a b, hf _ _]

/-- Additive functions that agree on the eight powers of x below x⁸ are equal. -/
theorem eq_of_basis (hf : XorLinear f) (hg : XorLinear g) (h : ∀ i : Fin 8, f (BitVec.twoPow 8 i) = g (BitVec.twoPow 8 i))
    (a : Byte) : f a = g a := by
  rw [byte_eq_foldr_bits a]
  induction (List.finRange 8).filter fun i : Fin 8 => a.getLsbD i with
  | nil => exact hf.map_zero.trans hg.map_zero.symm
  | cons i l ih => rw [List.foldr_cons, hf, hg, h, ih]

end XorLinear

theorem xorLinear_gmul (a : Byte) : XorLinear (gmul a) := gmul_xor_right a

theorem xorLinear_gmul_left (b : Byte) : XorLinear (gmul · b) := fun x y => gmul_xor_left x y b

/-! ## The laws of multiplication -/

theorem gmul_comm (a b : Byte) : gmul a b = gmul b a := by
  have basis : ∀ i j : Fin 8, gmul (.twoPow 8 i) (.twoPow 8 j) = gmul (.twoPow 8 j) (.twoPow 8 i) := by decide +kernel
  refine (xorLinear_gmul_left b).eq_of_basis (xorLinear_gmul b) (fun i => ?_) a
  exact (xorLinear_gmul _).eq_of_basis (xorLinear_gmul_left _) (basis i) b

theorem gmul_assoc (a b c : Byte) : gmul a (gmul b c) = gmul (gmul a b) c := by
  have basis : ∀ i j k : Fin 8, gmul (.twoPow 8 i) (gmul (.twoPow 8 j) (.twoPow 8 k)) =
      gmul (gmul (.twoPow 8 i) (.twoPow 8 j)) (.twoPow 8 k) := by decide +kernel
  refine (xorLinear_gmul_left (gmul b c)).eq_of_basis (g := fun a => gmul (gmul a b) c)
    (fun x y => by simp only [gmul_xor_left]) (fun i => ?_) a
  refine XorLinear.eq_of_basis (f := fun b => gmul (.twoPow 8 i) (gmul b c)) (g := fun b => gmul (gmul (.twoPow 8 i) b) c)
    (fun x y => by simp only [gmul_xor_left, gmul_xor_right]) (fun x y => by simp only [gmul_xor_left, gmul_xor_right])
    (fun j => ?_) b
  exact XorLinear.eq_of_basis (f := fun c => gmul (.twoPow 8 i) (gmul (.twoPow 8 j) c))
    (fun x y => by simp only [gmul_xor_right]) (xorLinear_gmul _) (basis i j) c

theorem gmul_one : ∀ a : Byte, gmul a 1 = a := by decide +kernel

theorem one_gmul (a : Byte) : gmul 1 a = a := (gmul_comm 1 a).trans (gmul_one a)

theorem gmul_zero (a : Byte) : gmul a 0 = 0 := (xorLinear_gmul a).map_zero

/-! ## Powers and inverses -/

theorem gpow_one (a : Byte) : gpow a 1 = a := gmul_one a

theorem gpow_add (a : Byte) (m n : Nat) : gpow a (m + n) = gmul (gpow a m) (gpow a n) := by
  induction m with
  | zero => rw [Nat.zero_add, gpow, one_gmul]
  | succ m ih => rw [Nat.succ_add, gpow, gpow, ih, gmul_assoc]

/-- The square of a byte. -/
def gsquare (a : Byte) : Byte := gmul a a

theorem xorLinear_gsquare : XorLinear gsquare := fun a b => by
  simp only [gsquare, gmul_xor_left, gmul_xor_right, gmul_comm b a, BitVec.xor_assoc, BitVec.xor_right_inj]
  rw [← BitVec.xor_assoc, BitVec.xor_self, BitVec.zero_xor]

theorem gpow_two_pow (a : Byte) (n : Nat) : gpow a (2 ^ n) = gsquare^[n] a := by
  induction n with
  | zero => exact gpow_one a
  | succ n ih => rw [pow_succ, mul_two, gpow_add, ih, Function.iterate_succ_apply', gsquare]

theorem gpow_256 (a : Byte) : gpow a 256 = a := by
  rw [show 256 = 2 ^ 8 from rfl, gpow_two_pow]
  exact (xorLinear_gsquare.iterate 8).eq_of_basis (g := id) (fun _ _ => rfl) (by decide +kernel) a

theorem eq_zero_or_one_of_gmul_self : ∀ a : Byte, gmul a a = a → a = 0 ∨ a = 1 := by decide +kernel

/-- The 255th power of a byte is its own square, so it is 0 or 1; were it 0, the 256th power, which is the byte, would be too. -/
theorem gpow_255 {a : Byte} (ha : a ≠ 0) : gpow a 255 = 1 := by
  have hself : gmul (gpow a 255) (gpow a 255) = gpow a 255 :=
    calc gmul (gpow a 255) (gpow a 255) = gmul (gpow a 256) (gpow a 254) := by rw [← gpow_add, ← gpow_add]
      _ = gmul a (gpow a 254) := by rw [gpow_256]
      _ = gpow a 255 := rfl
  have hne : gpow a 255 ≠ 0 := fun h => ha (by rw [← gpow_256 a, gpow, h, gmul_zero])
  exact (eq_zero_or_one_of_gmul_self _ hself).resolve_left hne

theorem gmul_ginv {a : Byte} (ha : a ≠ 0) : gmul a (ginv a) = 1 := gpow_255 ha

theorem ginv_gmul_cancel {a : Byte} (ha : a ≠ 0) (b : Byte) : gmul (ginv a) (gmul a b) = b := by
  rw [gmul_assoc, gmul_comm (ginv a), gmul_ginv ha, one_gmul]

theorem gmul_ne_zero {a b : Byte} (ha : a ≠ 0) (hb : b ≠ 0) : gmul a b ≠ 0 := fun h =>
  hb (by rw [← ginv_gmul_cancel ha b, h, gmul_zero])

theorem ginv_ne_zero {a : Byte} (ha : a ≠ 0) : ginv a ≠ 0 := fun h => by
  have h1 := gmul_ginv ha
  rw [h, gmul_zero] at h1
  exact absurd h1 (by decide)

/-- The x of parity index j is none of the y of the data indices, so no denominator of a coefficient is zero. -/
theorem coef_ne_zero {j i : Nat} (hj : j < 4) (hi : i < 28) : coef j i ≠ 0 := by
  have hy : BitVec.ofNat 8 (32 + i) ≠ 0 := fun h => by
    have h0 : (32 + i) % 2 ^ 8 = 0 := congrArg BitVec.toNat h
    omega
  have hden : BitVec.ofNat 8 j ^^^ BitVec.ofNat 8 (32 + i) ≠ 0 := fun h => by
    have hxy : j % 2 ^ 8 = (32 + i) % 2 ^ 8 := congrArg BitVec.toNat (BitVec.xor_eq_zero_iff.mp h)
    omega
  exact gmul_ne_zero hy (ginv_ne_zero hden)

end Sys2Proof.Machine
end

section
/-! PROOF. Reconstruction of one erased data string (R70, R83): parity and syndrome sum the same scaled strings but for the erased one. -/
namespace Sys2Proof.Machine

/-! ## Byte strings as vectors over the field -/

theorem xorBytes_comm (a b : List Byte) : xorBytes a b = xorBytes b a :=
  List.zipWith_comm_of_comm BitVec.xor_comm

theorem xorBytes_assoc (a b c : List Byte) : xorBytes (xorBytes a b) c = xorBytes a (xorBytes b c) := by
  induction a generalizing b c with
  | nil => simp [xorBytes]
  | cons x a ih =>
    match b, c with
    | [], _ => simp [xorBytes]
    | _ :: _, [] => simp [xorBytes]
    | y :: b, z :: c => exact congrArg₂ List.cons (BitVec.xor_assoc x y z) (ih b c)

theorem zeros_xorBytes (a : List Byte) : xorBytes (zeros a.length) a = a := by
  induction a with
  | nil => rfl
  | cons x a ih => exact congrArg₂ List.cons (BitVec.zero_xor (x := x)) ih

theorem xorBytes_self (a : List Byte) : xorBytes a a = zeros a.length := by
  simp [xorBytes, zeros, List.zipWith_self]

theorem xorBytes_xorBytes_cancel {a b : List Byte} (h : a.length = b.length) : xorBytes (xorBytes a b) b = a := by
  rw [xorBytes_assoc, xorBytes_self, xorBytes_comm, ← h, zeros_xorBytes]

@[simp] theorem length_gscale (c : Byte) (l : List Byte) : (gscale c l).length = l.length := List.length_map _

theorem gscale_ginv_cancel {c : Byte} (hc : c ≠ 0) (l : List Byte) : gscale (ginv c) (gscale c l) = l := by
  simp [gscale, Function.comp_def, ginv_gmul_cancel hc]

theorem slice_whole (l : List Byte) : slice l 0 l.length = l := by simp [slice]

/-! ## Sums of strings -/

/-- A string with the strings of a list of indices added to it. -/
def xorSum (t : Nat → List Byte) (p : List Byte) (l : List Nat) : List Byte := l.foldl (fun s i => xorBytes s (t i)) p

section Sums
variable (t : Nat → List Byte)

theorem xorSum_cons (p : List Byte) (i : Nat) (l : List Nat) : xorSum t p (i :: l) = xorSum t (xorBytes p (t i)) l := rfl

theorem xorSum_perm {l l' : List Nat} (h : l.Perm l') (p : List Byte) : xorSum t p l = xorSum t p l' :=
  h.foldl_eq' (fun x _ y _ z => by simp only [xorBytes_assoc, xorBytes_comm (t x)]) p

theorem xorSum_xorBytes (p : List Byte) (i : Nat) (l : List Nat) : xorSum t (xorBytes p (t i)) l = xorBytes (xorSum t p l) (t i) := by
  rw [← xorSum_cons, xorSum_perm t (List.perm_append_singleton i l).symm, xorSum, List.foldl_append]
  rfl

variable {t} {len : Nat}

theorem length_xorSum {l : List Nat} (ht : ∀ i ∈ l, (t i).length = len) {p : List Byte} (hp : p.length = len) :
    (xorSum t p l).length = len := by
  induction l generalizing p with
  | nil => exact hp
  | cons i l ih =>
    exact ih (fun j hj => ht j (List.mem_cons_of_mem i hj)) (by simp [xorBytes, hp, ht i List.mem_cons_self])

/-- What is added twice cancels. -/
theorem xorSum_xorSum_cancel {l : List Nat} (ht : ∀ i ∈ l, (t i).length = len) {p : List Byte} (hp : p.length = len) :
    xorSum t (xorSum t p l) l = p := by
  induction l generalizing p with
  | nil => rfl
  | cons i l ih =>
    have hi : (t i).length = len := ht i List.mem_cons_self
    have hl : ∀ j ∈ l, (t j).length = len := fun j hj => ht j (List.mem_cons_of_mem i hj)
    rw [xorSum_cons, xorSum_cons, xorSum_xorBytes t p, xorBytes_xorBytes_cancel ((length_xorSum hl hp).trans hi.symm), ih hl hp]

/-- The sum of all strings but one, added to the sum of all strings, leaves the one. -/
theorem xorSum_range_erase {k e : Nat} (he : e < k) (ht : ∀ i, i < k → (t i).length = len) :
    xorSum t (xorSum t (zeros len) (List.range k)) ((List.range k).erase e) = t e := by
  have hrest : ∀ i ∈ (List.range k).erase e, (t i).length = len := fun i hi => ht i (List.mem_range.mp (List.mem_of_mem_erase hi))
  have hzero : xorBytes (zeros len) (t e) = t e := ht e he ▸ zeros_xorBytes (t e)
  calc xorSum t (xorSum t (zeros len) (List.range k)) ((List.range k).erase e)
    _ = xorSum t (xorSum t (zeros len) (e :: (List.range k).erase e)) ((List.range k).erase e) := by
        rw [xorSum_perm t (List.perm_cons_erase (List.mem_range.mpr he))]
    _ = xorSum t (xorSum t (t e) ((List.range k).erase e)) ((List.range k).erase e) := by rw [xorSum_cons, hzero]
    _ = t e := xorSum_xorSum_cancel hrest (ht e he)

end Sums

/-! ## Parity and its solution -/

theorem encodeParityBytes_range (len j k : Nat) (data : Nat → List Byte) :
    encodeParityBytes len j ((List.range k).map data) = xorSum (fun i => gscale (coef j i) (data i)) (zeros len) (List.range k) := by
  have hzip : ((List.range k).map data).zipIdx = (List.range k).map fun i => (data i, i) := by
    apply List.ext_getElem <;> simp
  rw [encodeParityBytes, hzip, List.foldl_map, xorSum]

theorem gauss_single {c : Byte} (hc : c ≠ 0) (b : List Byte) : (gauss 1 0 [] [([c], b)]).map (·.2) = [gscale (ginv c) b] := by
  have hc : c ≠ 0#8 := hc
  simp [gauss, hc, GfRow.scale]

theorem foldl_eq_xorSum_erase {t : Nat → List Byte} {e : Nat} {f : List Byte → Nat → List Byte}
    (hf : ∀ s i, f s i = if i ≠ e then xorBytes s (t i) else s) {l : List Nat} (hl : l.Nodup) (p : List Byte) :
    l.foldl f p = xorSum t p (l.erase e) := by
  rw [hl.erase_eq_filter, xorSum, List.foldl_filter]
  congr 1
  funext s i
  simp [hf s i]

/-- With one data string erased, the equation of one parity gives it back. -/
theorem reconstruct_single {k len j e : Nat} (hc : coef j e ≠ 0) (data : Nat → List Byte) (p : List Byte) :
    reconstruct k len (fun i => if i = e then none else some (data i)) [(j, p)] [e] =
      [gscale (ginv (coef j e))
        (slice (xorSum (fun i => gscale (coef j i) (data i)) p ((List.range k).erase e)) 0 len)] := by
  simp only [reconstruct, List.map_cons, List.map_nil, List.length_singleton]
  rw [foldl_eq_xorSum_erase (e := e) (t := fun i => gscale (coef j i) (data i)) (fun s i => ?_) List.nodup_range, gauss_single hc]
  by_cases h : i = e <;> simp [h]

theorem reconstruct_encodeParityBytes {k len j e : Nat} {data : Nat → List Byte} (hk : k ≤ 28) (he : e < k) (hj : j < 4)
    (hlen : ∀ i, i < k → (data i).length = len) :
    reconstruct k len (fun i => if i = e then none else some (data i))
      [(j, encodeParityBytes len j ((List.range k).map data))] [e] = [data e] := by
  have hc : coef j e ≠ 0 := coef_ne_zero hj (by omega)
  have hscaled : ∀ i, i < k → (gscale (coef j i) (data i)).length = len := fun i hi => (length_gscale _ _).trans (hlen i hi)
  rw [reconstruct_single hc, encodeParityBytes_range, xorSum_range_erase he hscaled, ← hscaled e he, slice_whole,
    gscale_ginv_cancel hc]

/-- Settles O26: the syndrome of the erased string's parity is the string, scaled by a coefficient that is not zero. -/
theorem codingRecoversErasures : Obligations.CodingRecoversErasures := by
  unfold Obligations.CodingRecoversErasures
  exact ⟨fun _ _ _ _ _ hk he hj hlen => reconstruct_encodeParityBytes hk he hj hlen,
    fun a b c => ⟨gmul_comm a b, gmul_assoc a b c, gmul_xor_right a b c⟩, fun _ ha => gmul_ginv ha, fun _ _ => coef_ne_zero⟩

end Sys2Proof.Machine
end

section
/-! PROOF. Slots and leaves (R67, R68): what a slot holds in a row is told by how many slots it lies after the row's offset, counted around
the grove; parity lies fewer than m slots after it, data m or more. -/
namespace Sys2Proof.Machine

theorem mod_of_lt_two_mul {a n : Nat} (h : a < 2 * n) : a % n = if a < n then a else a - n := by
  split
  case isTrue hlt => exact Nat.mod_eq_of_lt hlt
  case isFalse hge => rw [Nat.mod_eq_sub_mod (by omega), Nat.mod_eq_of_lt (by omega)]

namespace Code

variable {c : Code}

/-- A slot lies `o` slots after a row's offset, counted around the grove. -/
def LiesAfter (c : Code) (row slot o : Nat) : Prop := slot = row % c.n + o ∨ slot + c.n = row % c.n + o

/-! ## Slots (R67) -/

section Slots
variable {row slot o : Nat}

theorem mod_n_lt (hk : 1 ≤ c.k) (a : Nat) : a % c.n < c.n := Nat.mod_lt _ (by unfold n; omega)

theorem parityIndex_of_liesAfter (h : c.LiesAfter row slot o) (ho : o < c.n) :
    c.parityIndex row slot = if o < c.m then some o else none := by
  have hu : row % c.n < c.n := Nat.mod_lt _ (by omega)
  have hdist : (slot + c.n - row % c.n) % c.n = o := by
    unfold LiesAfter at h
    rw [mod_of_lt_two_mul (by omega)]
    split <;> omega
  simp only [parityIndex, hdist]

theorem parityIndex_eq_some (h : c.LiesAfter row slot o) (ho : o < c.m) : c.parityIndex row slot = some o := by
  rw [parityIndex_of_liesAfter h (by unfold n; omega), if_pos ho]

theorem parityIndex_eq_none (h : c.LiesAfter row slot o) (ho : o < c.n) (hm : c.m ≤ o) : c.parityIndex row slot = none := by
  rw [parityIndex_of_liesAfter h ho, if_neg (by omega)]

theorem paritySlot_liesAfter (hk : 1 ≤ c.k) {j : Nat} (hj : j < c.m) : c.LiesAfter row (c.paritySlot row j) j := by
  have hu := mod_n_lt hk row
  have hn : c.n = c.k + c.m := rfl
  rw [LiesAfter, paritySlot, ← Nat.mod_add_mod, mod_of_lt_two_mul (by omega)]
  split <;> omega

theorem dataIndex_eq_none {j : Nat} (h : c.parityIndex row slot = some j) : c.dataIndex row slot = none := by
  simp [dataIndex, h]

theorem dataSlot_liesAfter (hk : 1 ≤ c.k) {i : Nat} (hi : i < c.k) :
    ∃ o, c.LiesAfter row (c.dataSlot row i) o ∧ o < c.n ∧ c.m ≤ o := by
  have hu := mod_n_lt hk row
  have hn : c.n = c.k + c.m := rfl
  unfold LiesAfter dataSlot
  dsimp only
  split
  · split
    · exact ⟨i + c.n - row % c.n, by omega⟩
    · exact ⟨i + c.m - row % c.n, by omega⟩
  · exact ⟨i + c.m, by omega⟩

theorem parityIndex_dataSlot (hk : 1 ≤ c.k) {i : Nat} (hi : i < c.k) : c.parityIndex row (c.dataSlot row i) = none := by
  obtain ⟨o, h, ho, hm⟩ := dataSlot_liesAfter (row := row) hk hi
  exact parityIndex_eq_none h ho hm

theorem dataSlot_lt (hk : 1 ≤ c.k) {i : Nat} (hi : i < c.k) : c.dataSlot row i < c.n := by
  have hu := mod_n_lt hk row
  have hn : c.n = c.k + c.m := rfl
  unfold dataSlot
  dsimp only
  split
  · split <;> omega
  · omega

theorem dataSlot_lt_dataSlot {i j : Nat} (h : i < j) : c.dataSlot row i < c.dataSlot row j := by
  unfold dataSlot
  dsimp only
  split
  · split <;> split <;> omega
  · omega

theorem dataIndex_dataSlot (hk : 1 ≤ c.k) {i : Nat} (hi : i < c.k) : c.dataIndex row (c.dataSlot row i) = some i := by
  unfold dataIndex
  rw [parityIndex_dataSlot hk hi]
  unfold dataSlot
  by_cases hwrap : row % c.n + c.m ≤ c.n
  · by_cases hlow : i < row % c.n
    · simp [hwrap, hlow]
    · simp only [hwrap, hlow, if_true, if_false, Option.isSome_none, Bool.false_eq_true, Option.some.injEq]
      split <;> omega
  · simp [hwrap]

end Slots

/-! ## Local leaves (R68) -/

section Leaves
variable {slot : Nat}

theorem groupRow_mod (g : Nat) {u : Nat} (hu : u < c.n) : (c.n * g + u) % c.n = u := by
  rw [Nat.mul_add_mod, Nat.mod_eq_of_lt hu]

theorem groupRow_div (g : Nat) {u : Nat} (hu : u < c.n) : (c.n * g + u) / c.n = g := by
  rw [Nat.mul_add_div (by omega), Nat.div_eq_of_lt hu, Nat.add_zero]

theorem rowOfLeaf_liesAfter (hk : 1 ≤ c.k) (hs : slot < c.n) (q : Nat) : c.LiesAfter (c.rowOfLeaf slot q) slot (c.n - 1 - q % c.k) := by
  have hh : q % c.k < c.k := Nat.mod_lt _ hk
  have hn : c.n = c.k + c.m := rfl
  rw [LiesAfter, rowOfLeaf, groupRow_mod _ (mod_n_lt hk _), mod_of_lt_two_mul (by omega)]
  split <;> omega

theorem parityIndex_rowOfLeaf (hk : 1 ≤ c.k) (hs : slot < c.n) (q : Nat) : c.parityIndex (c.rowOfLeaf slot q) slot = none := by
  have hh : q % c.k < c.k := Nat.mod_lt _ hk
  have hn : c.n = c.k + c.m := rfl
  exact parityIndex_eq_none (rowOfLeaf_liesAfter hk hs q) (by omega) (by omega)

theorem leafOfRow_rowOfLeaf (hk : 1 ≤ c.k) (hs : slot < c.n) (q : Nat) : c.leafOfRow slot (c.rowOfLeaf slot q) = q := by
  have hh : q % c.k < c.k := Nat.mod_lt _ hk
  have hn : c.n = c.k + c.m := rfl
  have hu := mod_n_lt hk (slot + 1 + q % c.k)
  have hback : ((slot + 1 + q % c.k) % c.n + 2 * c.n - slot - 1) % c.n = q % c.k := by
    have hdist : (slot + 1 + q % c.k) % c.n + 2 * c.n - slot - 1 = q % c.k + c.n ∨
        (slot + 1 + q % c.k) % c.n + 2 * c.n - slot - 1 = q % c.k + c.n * 2 := by
      rw [mod_of_lt_two_mul (by omega)]
      split <;> omega
    rcases hdist with h | h <;> rw [h]
    · rw [Nat.add_mod_right, Nat.mod_eq_of_lt (by omega)]
    · rw [Nat.add_mul_mod_self_left, Nat.mod_eq_of_lt (by omega)]
  rw [leafOfRow, rowOfLeaf, groupRow_mod _ hu, groupRow_div _ hu, hback, Nat.div_add_mod]

theorem rowOfParity_liesAfter (hm : 1 ≤ c.m) (hs : slot < c.n) (p : Nat) : c.LiesAfter (c.rowOfParity slot p) slot (p % c.m) := by
  have hj : p % c.m < c.m := Nat.mod_lt _ hm
  have hn : c.n = c.k + c.m := rfl
  rw [LiesAfter, rowOfParity, groupRow_mod _ (Nat.mod_lt _ (by omega)), mod_of_lt_two_mul (by omega)]
  split <;> omega

theorem parityLeaf_rowOfParity (hs : slot < c.n) (p : Nat) : c.parityLeaf (c.rowOfParity slot p) (p % c.m) = p := by
  rw [parityLeaf, rowOfParity, groupRow_div _ (Nat.mod_lt _ (by omega)), Nat.div_add_mod]

end Leaves
end Code

/-- Settles O27: each slot by how far it lies after the row's offset. -/
theorem placementIsOneToOne : Obligations.PlacementIsOneToOne := by
  unfold Obligations.PlacementIsOneToOne
  intro c hk hm
  refine ⟨fun row j hj => ?_, fun row i hi => ⟨Code.dataSlot_lt hk hi, Code.parityIndex_dataSlot hk hi, Code.dataIndex_dataSlot hk hi⟩,
    fun row i j hij _ => Code.dataSlot_lt_dataSlot hij,
    fun slot q hs => ⟨Code.leafOfRow_rowOfLeaf hk hs q, Code.parityIndex_rowOfLeaf hk hs q⟩,
    fun slot p hs => ⟨Code.parityIndex_eq_some (Code.rowOfParity_liesAfter hm hs p) (Nat.mod_lt p hm), Code.parityLeaf_rowOfParity hs p⟩⟩
  have hparity := Code.parityIndex_eq_some (Code.paritySlot_liesAfter (row := row) hk hj) hj
  exact ⟨rfl, hparity, Code.dataIndex_eq_none hparity⟩

end Sys2Proof.Machine
end

section
/-! PROOF. A delta's bytes (R74 to R77): little-endian numbers read back, a byte mask spreads the non-zero bytes of a chunk over the chunk
again, and the chunk map spreads the chunks over the delta. -/
namespace Sys2Proof.Machine

/-! ## Little-endian numbers -/

@[simp] theorem length_leBytes (n v : Nat) : (leBytes n v).length = n := by
  induction n generalizing v with
  | zero => rfl
  | succ n ih => rw [leBytes, List.length_cons, ih]

theorem leNat_leBytes (n v : Nat) : leNat (leBytes n v) = v % 256 ^ n := by
  induction n generalizing v with
  | zero => rw [pow_zero, Nat.mod_one]; rfl
  | succ n ih => 
    rw [leBytes, leNat, ih, BitVec.toNat_ofNat, pow_succ' 256 n]
    exact Nat.mod_mul.symm

theorem slice_append (a b c : List Byte) : slice (a ++ (b ++ c)) a.length b.length = b := by
  simp [slice]

theorem length_slice (l : List Byte) (i n : Nat) : (slice l i n).length = n := by
  simp only [slice, List.length_append, List.length_replicate, List.length_take]
  omega

theorem slice_eq_take_drop {l : List Byte} {i n : Nat} (h : i + n ≤ l.length) : slice l i n = (l.drop i).take n := by
  have hlen : ((l.drop i).take n).length = n := by
    rw [List.length_take, List.length_drop]
    omega
  rw [slice, hlen, Nat.sub_self, List.replicate_zero, List.append_nil]

/-- A number written at an index of a string is read there. -/
theorem leAt_append_leBytes (a r : List Byte) {n v : Nat} (hv : v < 256 ^ n) : leAt (a ++ (leBytes n v ++ r)) a.length n = v := by
  have h := slice_append a (leBytes n v) r
  rw [length_leBytes] at h
  rw [leAt, h, leNat_leBytes, Nat.mod_eq_of_lt hv]

theorem leAt_leBytes_append (r : List Byte) {n v : Nat} (hv : v < 256 ^ n) : leAt (leBytes n v ++ r) 0 n = v :=
  leAt_append_leBytes [] r hv

/-! ## Masks -/

theorem maskOf_cons (b : Bool) (l : List Bool) : maskOf (b :: l) = 2 * maskOf l + if b then 1 else 0 := rfl

theorem maskOf_true_cons (l : List Bool) : maskOf (true :: l) % 2 = 1 ∧ maskOf (true :: l) / 2 = maskOf l := by
  rw [maskOf_cons, if_pos rfl]
  omega

theorem maskOf_false_cons (l : List Bool) : maskOf (false :: l) % 2 = 0 ∧ maskOf (false :: l) / 2 = maskOf l := by
  rw [maskOf_cons, if_neg Bool.false_ne_true]
  omega

theorem maskOf_lt (l : List Bool) : maskOf l < 2 ^ l.length := by
  induction l with
  | nil => exact Nat.one_pos
  | cons b l ih =>
    rw [maskOf_cons, List.length_cons, pow_succ]
    split <;> omega

theorem maskOf_ne_zero {l : List Bool} (h : true ∈ l) : maskOf l ≠ 0 := by
  induction l with
  | nil => exact absurd h List.not_mem_nil
  | cons b l ih =>
    rw [maskOf_cons]
    cases b with
    | true => exact Nat.succ_ne_zero _
    | false =>
      have := ih (by simpa using h)
      simp only [Bool.false_eq_true, if_false]
      omega

/-! ## One chunk (R75) -/

/-- The mask of a chunk's non-zero bytes. -/
def byteMask (c : List Byte) : Nat := maskOf (c.map (· != 0))

theorem byteMask_lt {c : List Byte} (h : c.length = 64) : byteMask c < 256 ^ 8 := by
  have := maskOf_lt (c.map (· != 0))
  rw [List.length_map, h] at this
  exact this

theorem byteMask_ne_zero {c : List Byte} (h : nonZero c = true) : byteMask c ≠ 0 :=
  maskOf_ne_zero (by simpa [nonZero] using h)

theorem byteMask_cons (b : Byte) (c : List Byte) : byteMask (b :: c) = maskOf ((b != 0) :: c.map (· != 0)) := rfl

theorem unmask_skip {n m : Nat} (hm : m % 2 = 0) {l c r : List Byte} (h : unmask n (m / 2) l = (c, r, true)) :
    unmask (n + 1) m l = (0 :: c, r, true) := by
  simp only [unmask, if_neg (show ¬m % 2 = 1 by omega), h]

theorem unmask_take {n m : Nat} (hm : m % 2 = 1) {b : Byte} (hb : (b != 0) = true) {l c r : List Byte}
    (h : unmask n (m / 2) l = (c, r, true)) : unmask (n + 1) m (b :: l) = (b :: c, r, true) := by
  simp only [unmask, if_pos hm, h, hb, Bool.and_self]

theorem unmask_byteMask (c r : List Byte) : unmask c.length (byteMask c) (c.filter (· != 0) ++ r) = (c, r, true) := by
  induction c with
  | nil => rfl
  | cons b c ih =>
    rw [byteMask_cons, List.filter_cons]
    cases hb : b != 0 with
    | false =>
      obtain ⟨hbit, hrest⟩ := maskOf_false_cons (c.map (· != 0))
      obtain rfl : b = 0 := by simpa using hb
      exact unmask_skip hbit (hrest ▸ ih)
    | true =>
      obtain ⟨hbit, hrest⟩ := maskOf_true_cons (c.map (· != 0))
      exact unmask_take hbit hb (hrest ▸ ih)

theorem eq_zeros_of_not_nonZero {c : List Byte} (h : nonZero c = false) : c = zeros c.length := by
  refine List.eq_replicate_of_mem fun b hb => ?_
  simpa using List.any_eq_false.mp h b hb

/-! ## The chunks of a delta (R75) -/

/-- What the thinned body holds of a chunk that is not zero: its mask and its non-zero bytes. -/
def thinChunk (c : List Byte) : List Byte := leBytes 8 (byteMask c) ++ c.filter (· != 0)

/-- The map of the chunks that are not zero. -/
def chunkMap (cs : List (List Byte)) : Nat := maskOf (cs.map nonZero)

theorem thinBody_eq (d : List Byte) :
    thinBody d = leBytes 8 (chunkMap (deltaChunks d)) ++ ((deltaChunks d).filter nonZero).flatMap thinChunk := rfl

theorem chunkMap_cons (c : List Byte) (cs : List (List Byte)) : chunkMap (c :: cs) = maskOf (nonZero c :: cs.map nonZero) := rfl

theorem unthin_skip {n m : Nat} (hm : m % 2 = 0) {l d r : List Byte} (h : unthin n (m / 2) l = (d, r, true)) :
    unthin (n + 1) m l = (zeros 64 ++ d, r, true) := by
  simp only [unthin, if_neg (show ¬m % 2 = 1 by omega), h]

theorem unthin_take {n m : Nat} (hm : m % 2 = 1) {c : List Byte} (hc : c.length = 64) (hz : nonZero c = true) {l d r : List Byte}
    (h : unthin n (m / 2) l = (d, r, true)) : unthin (n + 1) m (thinChunk c ++ l) = (c ++ d, r, true) := by
  have hmask : leAt (thinChunk c ++ l) 0 8 = byteMask c := by
    rw [thinChunk, List.append_assoc, leAt_leBytes_append _ (byteMask_lt hc)]
  have hrest : (thinChunk c ++ l).drop 8 = c.filter (· != 0) ++ l := by
    rw [thinChunk, List.append_assoc, List.drop_left' (length_leBytes 8 _)]
  have hlen : decide (8 ≤ (thinChunk c ++ l).length) = true := by
    simp [thinChunk]
  have hchunk := unmask_byteMask c l
  rw [hc] at hchunk
  simp only [unthin, if_pos hm, hmask, hrest, hchunk, h, hlen]
  simp [byteMask_ne_zero hz]

theorem unthin_thinChunks {cs : List (List Byte)} (h : ∀ c ∈ cs, c.length = 64) (r : List Byte) :
    unthin cs.length (chunkMap cs) ((cs.filter nonZero).flatMap thinChunk ++ r) = (cs.flatten, r, true) := by
  induction cs with
  | nil => rfl
  | cons c cs ih =>
    have hc : c.length = 64 := h c List.mem_cons_self
    have hcs := ih fun x hx => h x (List.mem_cons_of_mem c hx)
    rw [chunkMap_cons, List.filter_cons, List.flatten_cons]
    cases hz : nonZero c with
    | false =>
      obtain ⟨hbit, hrest⟩ := maskOf_false_cons (cs.map nonZero)
      rw [eq_zeros_of_not_nonZero hz, hc]
      exact unthin_skip hbit (hrest ▸ hcs)
    | true =>
      obtain ⟨hbit, hrest⟩ := maskOf_true_cons (cs.map nonZero)
      rw [if_pos rfl, List.flatMap_cons, List.append_assoc]
      exact unthin_take hbit hc hz (hrest ▸ hcs)

theorem length_of_mem_deltaChunks {d c : List Byte} (h : c ∈ deltaChunks d) : c.length = 64 := by
  obtain ⟨i, -, rfl⟩ := List.mem_map.mp h
  exact length_slice d _ 64

theorem flatten_slices (d : List Byte) {n : Nat} (h : 64 * n ≤ d.length) :
    ((List.range n).map fun c => slice d (64 * c) 64).flatten = d.take (64 * n) := by
  induction n with
  | zero => rfl
  | succ n ih =>
    rw [List.range_succ, List.map_append, List.flatten_append, ih (by omega), Nat.mul_succ, List.take_add,
      ← slice_eq_take_drop (by omega)]
    simp

theorem flatten_deltaChunks {d : List Byte} (h : d.length = 4096) : (deltaChunks d).flatten = d := by
  rw [deltaChunks, flatten_slices d (by omega), List.take_of_length_le (by omega)]

theorem length_deltaChunks (d : List Byte) : (deltaChunks d).length = 64 := by simp [deltaChunks]

theorem chunkMap_deltaChunks_lt (d : List Byte) : chunkMap (deltaChunks d) < 256 ^ 8 := by
  have := maskOf_lt ((deltaChunks d).map nonZero)
  rw [List.length_map, length_deltaChunks] at this
  exact this

/-! ## The header (R74) -/

namespace DeltaHdr

/-- The fields fit their places in the header. -/
structure Fits (h : DeltaHdr) : Prop where
  form : h.form < 2
  didx : h.didx < 32
  pidx : h.pidx < 4
  glade : h.glade < 16
  epoch : h.epoch < 256
  ringLo : h.ringLo < 256
  row : h.row < 2 ^ 32

variable {h : DeltaHdr}

theorem word_lt (h : DeltaHdr) : h.word < 256 ^ 8 := by
  unfold word
  split <;> omega

theorem bitsOf_word_reserved (h : DeltaHdr) : bitsOf h.word 14 2 = 0 := by
  unfold bitsOf word
  split <;> omega

theorem ofWord_word (hf : h.Fits) : ofWord h.word = h := by
  obtain ⟨hform, hdidx, hpidx, hglade, hepoch, hringLo, hrow⟩ := hf
  obtain ⟨form, scaled, didx, pidx, glade, epoch, ringLo, row⟩ := h
  simp only at *
  simp only [ofWord, word, bitsOf, bitAt, DeltaHdr.mk.injEq]
  cases scaled <;> simp only [Bool.false_eq_true, if_true, if_false, beq_iff_eq, beq_eq_false_iff_ne] <;> omega

end DeltaHdr

/-! ## The message (R76, R77) -/

section Message
variable {h : DeltaHdr} {d : List Byte}

theorem parseDelta_thinned (hf : h.Fits) (hs : h.scaled = true) (hform : h.form = 0) (hd : d.length = 4096) (hsize : thinSize d ≤ 4112) :
    parseDelta true (leBytes 8 h.word ++ thinBody d) = some (h, d) := by
  have hlen : (leBytes 8 h.word ++ thinBody d).length = thinSize d := by simp [thinSize]
  have hmin : 16 ≤ thinSize d := by
    rw [thinSize, thinBody_eq, List.length_append, length_leBytes]
    omega
  have hw : leAt (leBytes 8 h.word ++ thinBody d) 0 8 = h.word := leAt_leBytes_append _ h.word_lt
  have hmap : leAt (leBytes 8 h.word ++ thinBody d) 8 8 = chunkMap (deltaChunks d) := by
    rw [thinBody_eq]
    exact leAt_append_leBytes (leBytes 8 h.word) _ (chunkMap_deltaChunks_lt d)
  have hbody : (leBytes 8 h.word ++ thinBody d).drop 16 = ((deltaChunks d).filter nonZero).flatMap thinChunk ++ [] := by
    rw [thinBody_eq, ← List.append_assoc, List.drop_left' (by simp), List.append_nil]
  have hthin := unthin_thinChunks (cs := deltaChunks d) (fun c => length_of_mem_deltaChunks) []
  rw [length_deltaChunks, flatten_deltaChunks hd] at hthin
  simp only [parseDelta, hlen, hw, hmap, hbody, hthin, DeltaHdr.ofWord_word hf, DeltaHdr.bitsOf_word_reserved, hs, hform]
  simp [hsize, hmin]

theorem parseDelta_raw (hf : h.Fits) (hs : h.scaled = true) (hform : h.form = 1) (hd : d.length = 4096) :
    parseDelta true (leBytes 8 h.word ++ leBytes 8 (2 ^ 64 - 1) ++ d) = some (h, d) := by
  have hlen : (leBytes 8 h.word ++ leBytes 8 (2 ^ 64 - 1) ++ d).length = 4112 := by simp [hd]
  have hw : leAt (leBytes 8 h.word ++ leBytes 8 (2 ^ 64 - 1) ++ d) 0 8 = h.word := by
    rw [List.append_assoc, leAt_leBytes_append _ h.word_lt]
  have hmap : leAt (leBytes 8 h.word ++ leBytes 8 (2 ^ 64 - 1) ++ d) 8 8 = 2 ^ 64 - 1 := by
    rw [List.append_assoc]
    exact leAt_append_leBytes (leBytes 8 h.word) d (by decide)
  have hbody : (leBytes 8 h.word ++ leBytes 8 (2 ^ 64 - 1) ++ d).drop 16 = d := List.drop_left' (by simp)
  simp only [parseDelta, hlen, hw, hmap, hbody, DeltaHdr.ofWord_word hf, DeltaHdr.bitsOf_word_reserved, hs, hform]
  simp

end Message

/-- Settles O25: the form that the sender chose is parsed by what that form puts into the message. -/
theorem deltaRoundTrip : Obligations.DeltaRoundTrip := by
  unfold Obligations.DeltaRoundTrip
  intro raw h d hs hdidx hpidx hglade hepoch hringLo hrow hd
  by_cases hraw : raw = true ∨ 4112 < thinSize d
  · rw [encodeDelta, if_pos (by simpa using hraw), if_pos hraw, slice_eq_take_drop (by omega), List.drop_zero,
      List.take_of_length_le (by omega)]
    exact parseDelta_raw ⟨Nat.one_lt_two, hdidx, hpidx, hglade, hepoch, hringLo, hrow⟩ hs rfl hd
  · rw [encodeDelta, if_neg (by simpa using hraw), if_neg hraw]
    exact parseDelta_thinned ⟨Nat.two_pos, hdidx, hpidx, hglade, hepoch, hringLo, hrow⟩ hs rfl hd (by omega)

end Sys2Proof.Machine
end

section
/-! PROOF. The encoding of step-program instructions (R96): the six fields of a word spell it, so an instruction and its word determine each
other. -/
namespace Sys2Proof.Machine

/-! ## The fields of a word -/

variable {op d a b c : Nat}

theorem laneWord_lt (hop : op < 64) (hd : d < 32) (ha : a < 32) (hb : b < 32) (hc : c < 32) : laneWord op d a b c < 2 ^ 32 := by
  unfold laneWord
  omega

theorem bitsOf_laneWord_op (hop : op < 64) (hd : d < 32) (ha : a < 32) (hb : b < 32) (hc : c < 32) :
    bitsOf (laneWord op d a b c) 26 6 = op := by
  unfold bitsOf laneWord
  omega

theorem bitsOf_laneWord_d (hd : d < 32) (ha : a < 32) (hb : b < 32) (hc : c < 32) : bitsOf (laneWord op d a b c) 21 5 = d := by
  unfold bitsOf laneWord
  omega

theorem bitsOf_laneWord_a (ha : a < 32) (hb : b < 32) (hc : c < 32) : bitsOf (laneWord op d a b c) 16 5 = a := by
  unfold bitsOf laneWord
  omega

theorem bitsOf_laneWord_b (hb : b < 32) (hc : c < 32) : bitsOf (laneWord op d a b c) 11 5 = b := by
  unfold bitsOf laneWord
  omega

theorem bitsOf_laneWord_c (hc : c < 32) : bitsOf (laneWord op d a b c) 6 5 = c := by
  unfold bitsOf laneWord
  omega

/-- The six low bits are in no field. -/
theorem bitsOf_laneWord_unused : bitsOf (laneWord op d a b c) 0 6 = 0 := by
  unfold bitsOf laneWord
  omega

@[simp] theorem laneWord_zero : laneWord 0 0 0 0 0 = 0 := rfl

/-- A word whose six low bits are zero is spelled by its fields. -/
theorem laneWord_bitsOf {w : Nat} (hw : w < 2 ^ 32) (hunused : bitsOf w 0 6 = 0) :
    laneWord (bitsOf w 26 6) (bitsOf w 21 5) (bitsOf w 16 5) (bitsOf w 11 5) (bitsOf w 6 5) = w := by
  unfold bitsOf laneWord at *
  omega

/-! ## Operand names -/

@[simp] theorem fin16_val (d : Fin 16) : fin16 d.val = d := Fin.ext (Nat.mod_eq_of_lt d.isLt)

@[simp] theorem fin32_val (a : Operand) : fin32 a.val = a := Fin.ext (Nat.mod_eq_of_lt a.isLt)

theorem val_fin16 {n : Nat} (h : n < 16) : (fin16 n).val = n := Nat.mod_eq_of_lt h

theorem val_fin32_bitsOf (w lo : Nat) : (fin32 (bitsOf w lo 5)).val = bitsOf w lo 5 := Nat.mod_eq_of_lt (Nat.mod_lt _ (by decide))

/-! ## Instructions and words -/

theorem LaneOp.word_lt (o : LaneOp) : o.word < 2 ^ 32 := by
  cases o
  case fin => decide
  all_goals
    refine laneWord_lt ?_ ?_ ?_ ?_ ?_ <;> omega

/-- Each field of an instruction's word holds what the instruction put there, and those that it does not use are zero. -/
theorem LaneOp.ofWord_word (o : LaneOp) : LaneOp.ofWord o.word = some o := by
  cases o
  case fin => rfl
  all_goals
    simp (disch := omega) [ofWord, word, bitsOf_laneWord_op, bitsOf_laneWord_d, bitsOf_laneWord_a, bitsOf_laneWord_b,
      bitsOf_laneWord_c, bitsOf_laneWord_unused, Nat.mod_eq_of_lt]

/-- Under each opcode the fields that the instruction does not use are zero and D and the class are in range, so the fields that it keeps
spell the word. -/
theorem LaneOp.word_of_ofWord {w : Nat} {o : LaneOp} (hw : w < 2 ^ 32) (h : LaneOp.ofWord w = some o) : o.word = w := by
  unfold ofWord at h
  obtain ⟨hunused, h⟩ := Option.ite_none_left_eq_some.mp h
  rw [← laneWord_bitsOf hw (not_not.mp hunused)]
  split at h
  case h_17 => cases h
  all_goals
    obtain ⟨hfields, ho⟩ := Option.ite_none_right_eq_some.mp h
    cases ho
    simp [word, *, val_fin16, val_fin32_bitsOf, Nat.mod_eq_of_lt]

/-- Settles O22: the word of an instruction is spelled by its fields, and a word that decodes by those of the instruction. -/
theorem stepProgramEncoding : Obligations.StepProgramEncoding := by
  unfold Obligations.StepProgramEncoding
  exact ⟨fun o => ⟨o.ofWord_word, o.word_lt⟩, fun _ _ => LaneOp.word_of_ofWord⟩

end Sys2Proof.Machine
end

section
/-! PROOF. The rows of the step-program instructions (R96, R99, R117, R118): each runs one instruction on the lane (assumption 60). -/
namespace Sys2Proof.Machine

variable {s : State}

/-! ## One instruction on the lane -/

/-- Within a pass an instruction changes the lane, as it says, and nothing else of the block. -/
theorem laneStep_in_pass (h : s.up) (hpass : s.lane.ended = false) (o : LaneOp) : s.laneStep o = { s with lane := o.run s.lane } := by
  rw [State.laneStep, State.inMain_of_up h, LaneContext.next, hpass]
  rfl

/-- After END an instruction does what it does in the pass that it begins (R99). -/
theorem laneStep_after_end (h : s.up) (hend : s.lane.ended = true) (o : LaneOp) :
    s.laneStep o = { s with lane := s.lane.begin }.laneStep o := by
  have hbegun : State.up { s with lane := s.lane.begin } := h
  rw [laneStep_in_pass hbegun rfl, State.laneStep, State.inMain_of_up h, LaneContext.next, hend]
  rfl

theorem LaneContext.store_in_block {l : LaneContext} (h : l.padding = false) (cls : Fin 3) (x : F32) : l.store cls x =
    { l with stored := l.stored.set cls.val (some x), nonfinite := if isFinite32 x then l.nonfinite else l.nonfinite + 1 } := by
  simp [store, h]

/-- A padding lane stores +0.0, which is finite (R99, R118). -/
theorem LaneContext.store_padding {l : LaneContext} (h : l.padding = true) (cls : Fin 3) (x : F32) : l.store cls x =
    { l with stored := l.stored.set cls.val (some 0) } := by
  have hfinite : isFinite32 0#32 = true := by decide
  simp [store, h, hfinite]

/-! ## The rows -/

/-- The row of an instruction runs it. -/
theorem exec_lane (h : s.up) (hpass : s.lane.ended = false) {i : Instr} (o : LaneOp) (hrow : exec i s = .next (s.laneStep o)) :
    exec i s = .next { s with lane := o.run s.lane } := by rw [hrow, laneStep_in_pass h hpass]

/-- The sixteen rows, each the row of one instruction. -/
theorem exec_eq_laneStep {d : Fin 16} {x : Fin 3} {y : Fin 4} {a b c : Operand} {i : Instr}
    (hi : i ∈ [.stepEnd, .stepLd d y, .stepSt x a, .stepAdd d a b, .stepSub d a b, .stepMul d a b, .stepFma d a b c, .stepFnma d a b c,
      .stepDiv d a b, .stepSqrt d a, .stepMax d a b, .stepMin d a b, .stepSign d a, .stepSqacc0 a, .stepSqacc1 a, .stepMov d a]) :
    ∃ o : LaneOp, ∀ t, exec i t = .next (t.laneStep o) := by
  simp only [List.mem_cons, List.not_mem_nil, or_false] at hi
  obtain rfl | rfl | rfl | rfl | rfl | rfl | rfl | rfl | rfl | rfl | rfl | rfl | rfl | rfl | rfl | rfl := hi
  all_goals exact ⟨_, fun _ => rfl⟩

/-- Settles O20: each row runs its instruction on the lane of the state. -/
theorem laneInstructions : Obligations.LaneInstructions := by
  unfold Obligations.LaneInstructions
  refine ⟨fun s h hp => exec_lane h hp .fin rfl, fun s d cls h hp => exec_lane h hp (.ld d cls) rfl,
    fun s d a h hp => exec_lane h hp (.mov d a) rfl, fun s cls a h hp hpad => ?_, fun s cls a h hp hpad => ?_,
    fun s a h hp hpad => ?_, fun s a h hp hpad => ?_, fun s d x y a b c i h hend hi => ?_, fun s d a b c i r h hp hi => ?_⟩
  · rw [exec_lane h hp (.st cls a) rfl, LaneOp.run, LaneContext.store_in_block hpad]
  · rw [exec_lane h hp (.st cls a) rfl, LaneOp.run, LaneContext.store_padding hpad]
  · rw [exec_lane h hp (.sqacc0 a) rfl, exec_lane h hp (.sqacc1 a) rfl]
    simp [LaneOp.run, hpad]
  · rw [exec_lane h hp (.sqacc0 a) rfl, exec_lane h hp (.sqacc1 a) rfl]
    simp [LaneOp.run, hpad]
  · obtain ⟨o, hrow⟩ := exec_eq_laneStep hi
    rw [hrow, hrow, laneStep_after_end h hend]
    rfl
  · simp only [List.mem_cons, List.not_mem_nil, or_false, Prod.mk.injEq] at hi
    obtain ⟨rfl, rfl⟩ | ⟨rfl, rfl⟩ | ⟨rfl, rfl⟩ | ⟨rfl, rfl⟩ | ⟨rfl, rfl⟩ | ⟨rfl, rfl⟩ | ⟨rfl, rfl⟩ | ⟨rfl, rfl⟩ | ⟨rfl, rfl⟩ |
      ⟨rfl, rfl⟩ := hi
    · exact exec_lane h hp (.add d a b) rfl
    · exact exec_lane h hp (.sub d a b) rfl
    · exact exec_lane h hp (.mul d a b) rfl
    · exact exec_lane h hp (.fma d a b c) rfl
    · exact exec_lane h hp (.fnma d a b c) rfl
    · exact exec_lane h hp (.div d a b) rfl
    · exact exec_lane h hp (.sqrt d a) rfl
    · exact exec_lane h hp (.max d a b) rfl
    · exact exec_lane h hp (.min d a b) rfl
    · exact exec_lane h hp (.sign d a) rfl

end Sys2Proof.Machine
end

section
/-! PROOF. The ports where every line of a range is served (R295, R296), the ready notices and pulls of exact mode (R145), and the
partial verdict (R90, R91). -/
namespace Sys2Proof.Machine

namespace State
variable (s : State)

/-! ## Changes made for each element of a list -/

theorem each_of_fixed {α : Type} {f : State → α → State} {l : List α} (h : ∀ x ∈ l, f s x = s) : s.each l f = s := by
  unfold each
  induction l with
  | nil => rfl
  | cons x r ih => rw [List.foldl_cons, h x (List.mem_cons_self ..), ih fun y hy => h y (List.mem_cons_of_mem x hy)]

/-- A message for each element changes the list of what is sent alone (assumption 4). -/
theorem each_toMember {α : Type} (g m : Nat) (name : String) (args : α → List Nat) (l : List α) :
    (s.each l fun s x => s.toMember g m name (args x)) =
      { s with sent := s.sent ++ l.map fun x => .toMember g m name (args x) [] } := by
  induction l generalizing s with
  | nil => simp [each]
  | cons x r ih =>
    refine (ih (s.toMember g m name (args x))).trans ?_
    simp [toMember, send]

/-! ## Ranges whose every line is served -/

/-- Whether a line is served depends on the line alone (R294). -/
theorem lineServed_line (o : Nat) : s.lineServed (o / 128 * 128) = s.lineServed o := by
  have hunit : o / 128 * 128 / 4096 = o / 4096 := by omega
  have hport : portOf (o / 128 * 128) = portOf o := by
    unfold portOf bitsOf
    omega
  rw [lineServed, lineServed, hunit, hport]

/-- A read of a range that is served fails nowhere. -/
theorem readCheck_of_served {o n : Nat} (h : s.served o n = true) : s.readCheck o n = s := by
  have hlines : (linesOf o n).filter (fun a => !s.lineServed a) = [] := by
    refine List.filter_eq_nil_iff.mpr fun a ha => ?_
    obtain ⟨i, hi, rfl⟩ := List.mem_map.mp ha
    have hlt := List.mem_range.mp hi
    have hcount : linesIn o n ≤ (o % 128 + n + 127) / 128 := by
      unfold linesIn
      split <;> omega
    have hserved := List.all_eq_true.mp h i (List.mem_range.mpr (Nat.lt_of_lt_of_le hlt hcount))
    have hline : o / 128 * 128 + 128 * i = (o + 128 * i) / 128 * 128 := by omega
    rw [hline, lineServed_line, hserved]
    decide
  rw [readCheck, hlines]
  rfl

/-- A block of a range that is served is served. -/
theorem served_block {o n k : Nat} (ho : o % 128 = 0) (h : s.served o (4096 * n) = true) (hk : k < n) :
    s.served (o + 4096 * k) 4096 = true := by
  refine List.all_eq_true.mpr fun i hi => ?_
  have hlt := List.mem_range.mp hi
  have hserved := List.all_eq_true.mp h (32 * k + i) (List.mem_range.mpr (by omega))
  rwa [show o + 128 * (32 * k + i) = o + 4096 * k + 128 * i by omega] at hserved

theorem store_of_served {o : Nat} {l : List Byte} (h : s.served o l.length = true) : s.store o l = s.writeBytes o l := if_pos h

theorem writeBytes_fields (a : Nat) (l : List Byte) : ∃ m, s.writeBytes a l = { s with mem := m } := by
  induction l generalizing s a with
  | nil => exact ⟨_, rfl⟩
  | cons v r ih =>
    obtain ⟨m, h⟩ := ih (s.writeByte a v) (a + 1)
    exact ⟨m, h⟩

theorem writeBytes_regs (a : Nat) (l : List Byte) : (s.writeBytes a l).regs = s.regs := by
  obtain ⟨m, h⟩ := writeBytes_fields s a l
  rw [h]

theorem writeBytes_glades (a : Nat) (l : List Byte) : (s.writeBytes a l).glades = s.glades := by
  obtain ⟨m, h⟩ := writeBytes_fields s a l
  rw [h]

/-! ## Pulls (R145) -/

theorem openWindow_fields (g : Nat) : ∃ r, s.openWindow g = { s with regs := r } := by
  unfold openWindow
  split
  all_goals exact ⟨_, rfl⟩

theorem openWindow_regs (g : Nat) : s.sameRegsBut [R.STP_GSTAT g] (s.openWindow g) := by
  unfold openWindow
  split
  · exact (sameRegsBut.refl _ s).wr (by simp) _ _
  · exact sameRegsBut.refl _ s

/-- The blocks that a member owns are told by memory and by the registers of its glade. -/
theorem ownedBlocks_congr {s t : State} {g : Nat} (hmem : t.mem = s.mem) (hbase : t.regionBase g 9 = s.regionBase g 9) (sz i l : Nat) :
    t.ownedBlocks g sz i l = s.ownedBlocks g sz i l := by
  simp only [ownedBlocks, blockLo, layerBlocks, layerParams, layerWord, readBytes, readByte, hmem, hbase]

/-- The range that a ready notice names, with the member that gave it. -/
def noticed (s : State) (g lo sidx l b : Nat) : PullRange := ⟨sidx, l, b, sidx / s.spm g, lo % 256⟩

/-- The pull of a range begins, and with it the window when it is the ring's first contribution (R86, R145). -/
def beginPull (s : State) (g : Nat) (p : PullRange) : State := (s.openWindow g).updGl g fun e => { e with pulls := e.pulls ++ [p] }

theorem beginPull_regs (g : Nat) (p : PullRange) : s.sameRegsBut [R.STP_GSTAT g] (s.beginPull g p) :=
  (openWindow_regs s g).of_regs (updGl_regs ..)

theorem beginPull_mem (g : Nat) (p : PullRange) : (s.beginPull g p).mem = s.mem := by
  obtain ⟨r, h⟩ := openWindow_fields s g
  rw [beginPull, h]
  rfl

theorem beginPull_sent (g : Nat) (p : PullRange) : (s.beginPull g p).sent = s.sent := by
  obtain ⟨r, h⟩ := openWindow_fields s g
  rw [beginPull, h]
  rfl

theorem pulls_beginPull (g : Nat) (p : PullRange) : ((s.beginPull g p).gl g).pulls = (s.gl g).pulls ++ [p] := by
  obtain ⟨r, h⟩ := openWindow_fields s g
  rw [beginPull, gl_updGl, if_pos rfl, h]
  rfl

/-- A pull that begins keeps what its range covers. -/
theorem rangeBlocks_beginPull (g : Nat) (p q : PullRange) : (s.beginPull g p).rangeBlocks g q = s.rangeBlocks g q := by
  have hregs := beginPull_regs s g p
  have hmember : R.GLD_MEMBER g ∉ [R.STP_GSTAT g] := by
    simp only [List.mem_singleton, R.GLD_MEMBER, R.STP_GSTAT]
    omega
  have hregion : R.GLD_REGION g 9 ∉ [R.STP_GSTAT g] := by
    simp only [List.mem_singleton, R.GLD_REGION, R.STP_GSTAT]
    omega
  have hbase : (s.beginPull g p).regionBase g 9 = s.regionBase g 9 := by simp only [regionBase, hregs.rd hregion]
  simp only [rangeBlocks, members, lmn, hregs.rd hmember, ownedBlocks_congr (beginPull_mem s g p) hbase]

/-- With no descriptor in any queue no answer completes one. -/
theorem settleRsgrad_of_empty {g : Nat} (h : ∀ q, q < 12 → (s.qu q).descs = []) : s.settleRsgrad g = s :=
  each_of_fixed s fun q hq => by
    rw [h q (List.mem_range.mp hq)]
    rfl

/-! ## The partial verdict (R90, R91, R94) -/

/-- The partial verdict that a member forms of buffers that can be read. -/
def ownPartial (s : State) (g missing : Nat) : PartialVerdict :=
  ⟨(s.measure g).1, (s.measure g).2, min missing 0xFFFF, s.on (R.STP_GCTL g) F.STP_GCTL_SKIPREQ, missing != 0, (s.gl g).lossInRing,
    s.carried g, s.openRing g, (s.code g).epoch, bit (s.exact g)⟩

theorem formPartial_eq {g : Nat} (hin : (s.gl g).takenIn = false)
    (hserved : s.served (s.regionBase g 6) (4096 * s.bloc g) = true) (missing : Nat) :
    s.formPartial g missing = ((s.charge 3 (32 * s.bloc g) 0 0).updGl g fun e =>
      { e with
        partialV := some (s.ownPartial g missing)
        skipTaken := e.skipTaken || s.on (R.STP_GCTL g) F.STP_GCTL_SKIPREQ }).setStage g 2 := by
  unfold formPartial
  dsimp only
  rw [hin, readCheck_of_served s hserved, hserved]
  rfl

theorem charge_mem (c rd wr blk : Nat) : (s.charge c rd wr blk).mem = s.mem := by
  obtain ⟨r, b, h⟩ := charge_fields s c rd wr blk
  rw [h]

/-- A partial verdict of buffers that can be read is kept, and shows in STAGE and in the use of class 3. -/
theorem formPartial_status {g : Nat} (hin : (s.gl g).takenIn = false)
    (hserved : s.served (s.regionBase g 6) (4096 * s.bloc g) = true) (missing : Nat) :
    ((s.formPartial g missing).gl g).partialV = some (s.ownPartial g missing) ∧ (s.formPartial g missing).stage g = 2 ∧
      s.sameRegsBut [R.STP_GSTAT g, R.BGT_USE 3] (s.formPartial g missing) ∧ (s.formPartial g missing).mem = s.mem := by
  rw [formPartial_eq s hin hserved]
  refine ⟨?_, rd_wr_same _ _ rfl 2, ?_, charge_mem ..⟩
  · rw [setStage, gl_congr (wr_glades ..), gl_updGl, if_pos rfl]
  · exact (((charge_regs s 3 _ _ _).mono (by simp)).of_regs (updGl_regs ..)).wr (by simp) _ _

end State
end Sys2Proof.Machine
end

section
/-! PROOF. The verdict as a member acts on it (R89, R92). -/
namespace Sys2Proof.Machine

namespace State
variable (s : State)

/-- The engines hold the verdict of the open ring. -/
def setVerdict (s : State) (g : Nat) (v : List Byte) : State := s.updGl g fun e => { e with verdict := v, verdictDone := true }

theorem gl_setVerdict (g : Nat) (v : List Byte) : (s.setVerdict g v).gl g = { s.gl g with verdict := v, verdictDone := true } :=
  (gl_updGl ..).trans (if_pos rfl)

theorem discardHeld_regs (g : Nat) : s.sameRegsBut [R.STP_CNT g] (s.discardHeld g) :=
  ((sameRegsBut.refl _ s).add (by simp) _ _).of_regs (updGl_regs ..)

theorem gl_discardHeld (g : Nat) : (s.discardHeld g).gl g = { s.gl g with held := [] } :=
  (gl_updGl ..).trans (if_pos rfl)

/-- LASTAPPLY 0, SKIPS and STAGE 5 of a ring that does not apply. -/
def showSkip (s : State) (g : Nat) : State :=
  ((s.wr (R.STP_GSTAT g) F.STP_GSTAT_LASTAPPLY 0).inc (R.STP_CNT g) F.STP_CNT_SKIPS).setStage g 5

/-- The ring is skipped: CARRIED 0, and the contributions that wait are discarded. -/
def skipRing (s : State) (g : Nat) (v : List Byte) : State :=
  (((s.setVerdict g v).showSkip g).wr (R.STP_GSTAT g) F.STP_GSTAT_CARRIED 0).discardHeld g

/-- The ring is carried: CARRIED counts it. -/
def carryRing (s : State) (g : Nat) (v : List Byte) : State :=
  ((s.setVerdict g v).showSkip g).wr (R.STP_GSTAT g) F.STP_GSTAT_CARRIED (verdictCarried v + 1)

/-- The ring applies: LASTAPPLY 1, CARRIED 0 and STAGE 3, and the contributions that wait are discarded. -/
def applyRing (s : State) (g : Nat) (v : List Byte) : State :=
  ((((s.setVerdict g v).wr (R.STP_GSTAT g) F.STP_GSTAT_LASTAPPLY 1).wr (R.STP_GSTAT g) F.STP_GSTAT_CARRIED 0).discardHeld g).setStage g 3

/-! ## The three outcomes -/

section Outcomes
variable {g : Nat} {v : List Byte}

/-- A verdict with APPLY begins the apply at an owner of blocks. -/
theorem takeVerdict_apply (happly : verdictApply v = true) (hin : (s.gl g).takenIn = false) (hbloc : s.bloc g ≠ 0) :
    s.takeVerdict g v = s.applyRing g v := by
  have htaken : ((s.setVerdict g v).gl g).takenIn = false := (congrArg GladeState.takenIn (gl_setVerdict s g v)).trans hin
  have howner : (((s.setVerdict g v).gl g).takenIn || (s.setVerdict g v).bloc g == 0) = false := by
    rw [htaken, Bool.false_or]
    exact beq_false_of_ne hbloc
  unfold takeVerdict
  dsimp only
  rw [if_pos happly, ← setVerdict, howner]
  rfl

/-- A verdict with neither APPLY nor CARRY discards what waits and zeroes the buffers. -/
theorem takeVerdict_skip (happly : verdictApply v = false) (hcarry : verdictCarry v = false) :
    s.takeVerdict g v = (s.skipRing g v).zeroBuffers g := by
  unfold takeVerdict
  dsimp only
  rw [if_neg (Bool.eq_false_iff.mp happly), if_neg (Bool.eq_false_iff.mp hcarry)]
  rfl

/-- A verdict with CARRY counts the carried rings and adds what waits. -/
theorem takeVerdict_carry (happly : verdictApply v = false) (hcarry : verdictCarry v = true) :
    s.takeVerdict g v = (s.carryRing g v).drainHeld g := by
  unfold takeVerdict
  dsimp only
  rw [if_neg (Bool.eq_false_iff.mp happly), if_pos hcarry]
  rfl

theorem drainHeld_of_nil (h : (s.gl g).held = []) : s.drainHeld g = s := by
  rw [drainHeld, h]
  exact ite_self s

end Outcomes

/-! ## What each outcome shows -/

/-- STP_GSTAT and STP_CNT of a glade stand apart. -/
theorem stpGstat_ne_stpCnt (g : Nat) : R.STP_GSTAT g ≠ R.STP_CNT g := by
  unfold R.STP_GSTAT R.STP_CNT
  omega

section Status
variable {g : Nat} (v : List Byte)

theorem gl_applyRing : (s.applyRing g v).gl g = { s.gl g with verdict := v, verdictDone := true, held := [] } := by
  have hgl := gl_setVerdict s g v
  rw [applyRing, setStage, gl_congr (wr_glades ..), gl_discardHeld, gl_congr (wr_glades ..), gl_congr (wr_glades ..), hgl]

theorem applyRing_regs : s.sameRegsBut [R.STP_GSTAT g, R.STP_CNT g] (s.applyRing g v) :=
  (((((sameRegsBut.refl _ s).of_regs (updGl_regs ..)).wr (by simp) _ _).wr (by simp) _ _).trans
    ((discardHeld_regs _ g).mono (by simp))).wr (by simp) _ _

theorem applyRing_status : (s.applyRing g v).stage g = 3 ∧
    (s.applyRing g v).rd (R.STP_GSTAT g) F.STP_GSTAT_LASTAPPLY = 1 ∧
    (s.applyRing g v).rd (R.STP_GSTAT g) F.STP_GSTAT_CARRIED = 0 := by
  have hstat : R.STP_GSTAT g ∉ [R.STP_CNT g] := by simp [stpGstat_ne_stpCnt g]
  refine ⟨rd_wr_same _ _ rfl 3, ?_, ?_⟩
  · rw [applyRing, setStage, rd_wr_apart _ _ rfl rfl, (discardHeld_regs _ g).rd hstat, rd_wr_apart _ _ rfl rfl, rd_wr_same _ _ rfl]
    rfl
  · rw [applyRing, setStage, rd_wr_apart _ _ rfl rfl, (discardHeld_regs _ g).rd hstat, rd_wr_same _ _ rfl]
    rfl

theorem showSkip_regs (g : Nat) : s.sameRegsBut [R.STP_GSTAT g, R.STP_CNT g] (s.showSkip g) :=
  (((sameRegsBut.refl _ s).wr (by simp) _ _).inc (by simp) _).wr (by simp) _ _

/-- A ring that does not apply shows LASTAPPLY 0 and STAGE 5 and is counted in SKIPS (R92). -/
theorem showSkip_status (g : Nat) : (s.showSkip g).stage g = 5 ∧
    (s.showSkip g).rd (R.STP_GSTAT g) F.STP_GSTAT_LASTAPPLY = 0 ∧
    (s.showSkip g).rd (R.STP_CNT g) F.STP_CNT_SKIPS =
      min (s.rd (R.STP_CNT g) F.STP_CNT_SKIPS + 1) (2 ^ F.STP_CNT_SKIPS.width - 1) := by
  have hne := stpGstat_ne_stpCnt g
  refine ⟨rd_wr_same _ _ rfl 5, ?_, ?_⟩
  · rw [showSkip, setStage, rd_wr_apart _ _ rfl rfl, rd_inc_other _ hne, rd_wr_same _ _ rfl]
    rfl
  · rw [showSkip, setStage, rd_wr_other _ hne.symm, rd_inc_same _ _ rfl, rd_wr_other _ hne.symm]

theorem carryRing_regs : s.sameRegsBut [R.STP_GSTAT g, R.STP_CNT g] (s.carryRing g v) :=
  (((sameRegsBut.refl _ s).of_regs (updGl_regs ..)).trans (showSkip_regs _ g)).wr (by simp) _ _

theorem carryRing_status : (s.carryRing g v).stage g = 5 ∧
    (s.carryRing g v).carried g = (verdictCarried v + 1) % 2 ^ F.STP_GSTAT_CARRIED.width :=
  ⟨(rd_wr_apart _ _ rfl rfl _).trans (rd_wr_same _ _ rfl 5), rd_wr_same _ _ rfl _⟩

theorem held_skipRing : ((s.skipRing g v).gl g).held = [] := congrArg GladeState.held (gl_discardHeld _ g)

theorem skipRing_regs : s.sameRegsBut [R.STP_GSTAT g, R.STP_CNT g] (s.skipRing g v) :=
  ((((sameRegsBut.refl _ s).of_regs (updGl_regs ..)).trans (showSkip_regs _ g)).wr (by simp) _ _).trans
    ((discardHeld_regs _ g).mono (by simp))

theorem skipRing_status : (s.skipRing g v).stage g = 5 ∧
    (s.skipRing g v).rd (R.STP_GSTAT g) F.STP_GSTAT_LASTAPPLY = 0 ∧
    (s.skipRing g v).rd (R.STP_CNT g) F.STP_CNT_SKIPS =
      min (s.rd (R.STP_CNT g) F.STP_CNT_SKIPS + 1) (2 ^ F.STP_CNT_SKIPS.width - 1) := by
  have hne := stpGstat_ne_stpCnt g
  have hstat : R.STP_GSTAT g ∉ [R.STP_CNT g] := by simp [hne]
  obtain ⟨hstage, hlast, hskips⟩ := showSkip_status (s.setVerdict g v) g
  refine ⟨?_, ?_, ?_⟩
  · rw [skipRing, stage, (discardHeld_regs _ g).rd hstat, rd_wr_apart _ _ rfl rfl]
    exact hstage
  · rw [skipRing, (discardHeld_regs _ g).rd hstat, rd_wr_apart _ _ rfl rfl]
    exact hlast
  · rw [skipRing, discardHeld, rd_congr (updGl_regs ..), add, rd_wr_apart _ _ rfl rfl, rd_wr_other _ hne.symm]
    exact hskips

end Status

/-! ## Zeroing the buffers (R92) -/

/-- The first n reduction buffers are zero, and nothing else but the use of class 0 differs. -/
structure Zeroed (s : State) (g n : Nat) (t : State) : Prop where
  regs : s.sameRegsBut [R.BGT_USE 0] t
  glades : t.glades = s.glades
  bytes : ∀ a, t.readByte a = if s.regionBase g 6 ≤ a ∧ a < s.regionBase g 6 + 4096 * n then 0 else s.readByte a

/-- The registers of the glades and of the memory ports read the same. -/
def sameLayout (s t : State) : Prop := ∀ a, a < 0x030000 ∨ 0x1C0000 ≤ a ∧ a < 0x1C1000 → t.reg a = s.reg a

theorem sameRegsBut.sameLayout {s t : State} {l : List Nat} (h : s.sameRegsBut l t)
    (hl : ∀ a ∈ l, 0x030000 ≤ a ∧ a < 0x1C0000 ∨ 0x1C1000 ≤ a) : s.sameLayout t := fun a ha => h a fun hm => by
  have := hl a hm
  omega

namespace sameLayout
variable {s t : State} (h : s.sameLayout t)
include h

theorem regionBase {g x : Nat} (hg : g < 16) (hx : x < 10) : t.regionBase g x = s.regionBase g x := by
  rw [State.regionBase, State.rd, h _ (by unfold R.GLD_REGION; omega)]
  rfl

theorem bloc {g : Nat} (hg : g < 16) : t.bloc g = s.bloc g := by
  rw [State.bloc, State.rd, h _ (by unfold R.GLD_SIZE; omega)]
  rfl

theorem memTop : t.memTop = s.memTop := by
  unfold State.memTop
  refine congrArg (2048 * List.foldl min (2 ^ 32) ·) (List.map_congr_left fun q hq => ?_)
  have hlt := List.mem_range.mp hq
  rw [State.rd, h _ (by unfold R.MPT_SIZE; omega)]
  rfl

theorem served (o n : Nat) : t.served o n = s.served o n := by
  have hport : ∀ o, t.reg (R.MPT_STAT (portOf o)) = s.reg (R.MPT_STAT (portOf o)) := fun o => h _ (by
    unfold R.MPT_STAT portOf bitsOf
    omega)
  simp only [State.served, State.lineServed, h.memTop, State.on, State.rd, hport]

end sameLayout

/-- A byte of a zeroed block. -/
theorem readByte_writeBytes_zeros (o n a : Nat) :
    (s.writeBytes o (zeros n)).readByte a = if o ≤ a ∧ a < o + n then 0 else s.readByte a := by
  have hlen : (zeros n).length = n := List.length_replicate
  split
  case isTrue h =>
    obtain ⟨i, rfl⟩ := Nat.exists_eq_add_of_le h.1
    rw [readByte_writeBytes_in s o i (zeros n) (by omega)]
    exact List.getElem_replicate ..
  case isFalse h => exact readByte_writeBytes_out s o a (zeros n) (by omega)

/-- One more buffer is zeroed. -/
theorem Zeroed.step {s t : State} {g n : Nat} (h : Zeroed s g n t) (hg : g < 16)
    (hserved : s.served (s.regionBase g 6 + 4096 * n) 4096 = true) :
    Zeroed s g (n + 1) ((t.store (t.bufferAddr g n) (zeros 4096)).charge 0 0 32 0) := by
  have hlayout := h.regs.sameLayout (by simp [R.BGT_USE])
  have hstore : t.store (t.bufferAddr g n) (zeros 4096) = t.writeBytes (s.regionBase g 6 + 4096 * n) (zeros 4096) := by
    rw [bufferAddr, hlayout.regionBase hg (by decide)]
    exact store_of_served t (by rw [zeros, List.length_replicate, hlayout.served, hserved])
  rw [hstore]
  refine ⟨(h.regs.of_regs (writeBytes_regs ..)).trans (charge_regs _ 0 _ _ _),
    (charge_glades ..).trans ((writeBytes_glades ..).trans h.glades), fun a => ?_⟩
  rw [readByte, charge_mem, ← readByte, readByte_writeBytes_zeros, h.bytes]
  grind

theorem zeroed_zeroBuffers {g : Nat} (hg : g < 16) (hserved : s.served (s.regionBase g 6) (4096 * s.bloc g) = true) :
    Zeroed s g (s.bloc g) (s.zeroBuffers g) := by
  have hall : ∀ n ≤ s.bloc g, Zeroed s g n (s.each (List.range n) fun s t =>
      (s.store (s.bufferAddr g t) (zeros 4096)).charge 0 0 32 0) := fun n hn => by
    induction n with
    | zero => exact ⟨sameRegsBut.refl _ s, rfl, fun a => (if_neg (by omega)).symm⟩
    | succ n ih =>
      have haligned : s.regionBase g 6 % 128 = 0 := by
        unfold regionBase
        omega
      rw [List.range_succ, each, List.foldl_append]
      exact (ih (by omega)).step hg (served_block s haligned hserved hn)
  exact hall _ le_rfl

end State
end Sys2Proof.Machine
end

section
/-! PROOF. The rows READY_NOTICE, PULL_DONE, PARTIAL_VERDICT, STRAGGLER_DEADLINE and VERDICT_RECEIPT (R89 to R94, R145). -/
namespace Sys2Proof.Machine

section Rows
variable {s : State} {g : GladeId}

/-! ## READY_NOTICE and PULL_DONE -/

/-- A ready notice that is not covered yet starts the pull of its range with remote line reads (R145). -/
theorem exec_readyNotice {lo sidx l b src : Nat} (h : s.up) (hactive : s.active g.val = true) (hexact : s.exact g.val = true)
    (howns : s.ownsBlock g.val l b = true) (hnew : (s.gl g.val).covers (lo % 256) sidx l = false)
    (hring : (s.ringBack g.val (lo % 256)).isSome = true) (hin : (s.gl g.val).takenIn = false)
    (hdone : (s.gl g.val).verdictDone = false) : exec (.readyNotice g lo sidx l b src) s = .next
      ((s.beginPull g.val (s.noticed g.val lo sidx l b)).each (s.rangeBlocks g.val (s.noticed g.val lo sidx l b)) fun v x =>
          v.toMember g.val (sidx / s.spm g.val) "LRD" [g.val, src + 4096 * x, 4096]) := by
  have hexec : exec (.readyNotice g lo sidx l b src) s = .next _ := congrArg Host.Outcome.next (State.inMain_of_up h _)
  rw [hexec]
  dsimp only
  rw [if_neg (by simp [hactive, hexact, howns]), if_neg (by simp [hnew]),
    if_neg (by simp [Option.isNone_eq_false_iff.mpr hring, hin, hdone]), ← State.noticed, ← State.beginPull, State.rangeBlocks_beginPull]

theorem exec_pullDone {owner sidx l n : Nat} (h : s.up) (hqueues : ∀ q, q < 12 → (s.qu q).descs = []) :
    exec (.pullDone g owner sidx l n) s = .next (s.updGl g.val fun e =>
      { e with noticesOut := e.noticesOut.filter (· != (sidx, l, owner)) }) := by
  have hexec : exec (.pullDone g owner sidx l n) s = .next _ := congrArg Host.Outcome.next (State.inMain_of_up h _)
  rw [hexec, State.settleRsgrad_of_empty]
  exact hqueues

/-! ## PARTIAL_VERDICT and STRAGGLER_DEADLINE -/

theorem exec_partialVerdict (h : s.up) (hopen : s.verdictOpen g.val = true) (hclass : s.permits g.val 3 = true)
    (hwhole : s.incomplete g.val = []) : exec (.partialVerdict g) s = .next (s.formPartial g.val 0) := by
  have hexec : exec (.partialVerdict g) s = .next _ := congrArg Host.Outcome.next (State.inMain_of_up h _)
  rw [hexec, if_pos (by simp [hopen, hclass, hwhole])]

theorem exec_stragglerDeadline (h : s.up) (hopen : s.verdictOpen g.val = true) (hpolicy : (s.gl g.val).inForce.policy ≠ 0)
    (hdeadline : (s.gl g.val).inForce.deadline ≠ 0) :
    exec (.stragglerDeadline g) s = .next (s.formPartial g.val (s.incomplete g.val).length) := by
  have hexec : exec (.stragglerDeadline g) s = .next _ := congrArg Host.Outcome.next (State.inMain_of_up h _)
  rw [hexec]
  exact congrArg Host.Outcome.next (if_pos (by simp [hopen, hpolicy, hdeadline]))

/-- Under policy 0 and with DEADLINE 0 there is no deadline (R94). -/
theorem exec_stragglerDeadline_off (hoff : (s.gl g.val).inForce.policy = 0 ∨ (s.gl g.val).inForce.deadline = 0) :
    exec (.stragglerDeadline g) s = .next s := by
  refine congrArg Host.Outcome.next (ite_eq_right_iff.mpr fun _ => if_neg ?_)
  obtain hpolicy | hdeadline := hoff
  · simp [hpolicy]
  · simp [hdeadline]

/-! ## VERDICT_RECEIPT -/

section Receipt
variable {r : List Byte} (h : s.up) (hactive : s.active g.val = true) (hf : s.fenced g.val = false)
  (hdone : (s.gl g.val).verdictDone = false)
include h hactive hf hdone

/-- A verdict with a wrong CRC is recorded and asked for again (R93). -/
theorem exec_verdictReceipt_wrong (hcrc : verdictCrcOk r = false) : ∃ e l, exec (.verdictReceipt g r) s =
    .next { s.record e with sent := l } := by
  have hexec : exec (.verdictReceipt g r) s = .next _ := congrArg Host.Outcome.next (State.inMain_of_up h _)
  rw [hexec, if_neg (by simp [hactive, hf, hdone]), if_pos (by simp [hcrc])]
  dsimp only
  split
  · exact ⟨_, _, rfl⟩
  · exact ⟨_, _, rfl⟩

/-- The verdict of the open ring goes on down the tree and is acted on (R92, R148). -/
theorem exec_verdictReceipt (hcrc : verdictCrcOk r = true) (hlen : r.length = 32) (hring : leAt r 16 8 = s.openRing g.val) :
    ∃ l, exec (.verdictReceipt g r) s = .next ({ s with sent := s.sent ++ l }.takeVerdict g.val r) := by
  have hexec : exec (.verdictReceipt g r) s = .next _ := congrArg Host.Outcome.next (State.inMain_of_up h _)
  obtain ⟨l, hpass⟩ := State.passOn_fields s g.val "VERDICT" [g.val] r
  refine ⟨l, ?_⟩
  rw [hexec, if_neg (by simp [hactive, hf, hdone]), if_neg (by simp [hcrc, hlen, hring]), hpass]

end Receipt
end Rows

/-- A ring that is skipped shows it, and its buffers are zero (R92). -/
theorem State.takeVerdict_skip_status (s : State) {g : Nat} {v : List Byte} (hg : g < 16) (happly : verdictApply v = false)
    (hcarry : verdictCarry v = false) (hserved : s.served (s.regionBase g 6) (4096 * s.bloc g) = true) :
    (s.takeVerdict g v).stage g = 5 ∧ (s.takeVerdict g v).rd (R.STP_GSTAT g) F.STP_GSTAT_LASTAPPLY = 0 ∧
      (s.takeVerdict g v).rd (R.STP_CNT g) F.STP_CNT_SKIPS =
        min (s.rd (R.STP_CNT g) F.STP_CNT_SKIPS + 1) (2 ^ F.STP_CNT_SKIPS.width - 1) ∧
      ((s.takeVerdict g v).gl g).held = [] ∧
      (∀ a, (s.takeVerdict g v).readByte a =
        if s.regionBase g 6 ≤ a ∧ a < s.regionBase g 6 + 4096 * s.bloc g then 0 else s.readByte a) := by
  have hlayout : s.sameLayout (s.skipRing g v) := (skipRing_regs s v).sameLayout fun a ha => by
    simp only [List.mem_cons, List.not_mem_nil, or_false, R.STP_GSTAT, R.STP_CNT] at ha
    omega
  have hbase := hlayout.regionBase hg (x := 6) (by decide)
  have hbloc := hlayout.bloc hg
  have hz := zeroed_zeroBuffers (s.skipRing g v) hg (by rw [hlayout.served, hbase, hbloc, hserved])
  obtain ⟨hstage, hlast, hskips⟩ := skipRing_status s (g := g) v
  have hbytes := hz.bytes
  rw [hbase, hbloc] at hbytes
  rw [takeVerdict_skip s happly hcarry]
  refine ⟨(hz.regs.rd ?_ _).trans hstage, (hz.regs.rd ?_ _).trans hlast, (hz.regs.rd ?_ _).trans hskips,
    (congrArg GladeState.held (gl_congr hz.glades g)).trans (held_skipRing s v), hbytes⟩
  all_goals
    simp only [List.mem_singleton, R.STP_GSTAT, R.STP_CNT, R.BGT_USE]
    omega

/-- Settles O19: each row by the state that it answers. -/
theorem pullsAndVerdicts : Obligations.PullsAndVerdicts := by
  unfold Obligations.PullsAndVerdicts
  refine ⟨fun s g lo sidx l b src h hactive hexact howns hnew hring hin hdone => ?_, fun s g owner sidx l n h hqueues => ?_,
    fun s g h hopen hclass hin hwhole hserved => ?_, fun s g h hopen hpolicy hdeadline hin hserved => ?_,
    fun s g hoff => exec_stragglerDeadline_off hoff, fun s g r h hactive hf hdone hcrc => ?_,
    fun s g r h hactive hf hdone hcrc hlen hring happly hin hbloc => ?_,
    fun s g r h hactive hf hdone hcrc hlen hring happly hcarry hserved => ?_,
    fun s g r h hactive hf hdone hcrc hlen hring happly hcarry hheld => ?_⟩
  · refine ⟨_, exec_readyNotice h hactive hexact howns hnew hring hin hdone, ?_⟩
    rw [State.each_toMember]
    have hregs := State.beginPull_regs s g.val (s.noticed g.val lo sidx l b)
    have hmem := State.beginPull_mem s g.val (s.noticed g.val lo sidx l b)
    exact ⟨State.pulls_beginPull .., congrArg (· ++ _) (State.beginPull_sent ..), hregs.of_regs rfl, hmem⟩
  · refine ⟨_, exec_pullDone h hqueues, ?_, rfl, rfl, rfl⟩
    rw [State.gl_updGl, if_pos rfl]
    simp
  · obtain ⟨hpartial, hstage, hregs, hmem⟩ := State.formPartial_status s hin hserved 0
    exact ⟨_, _, exec_partialVerdict h hopen hclass hwhole, hpartial, rfl, rfl, rfl, rfl, hstage, hregs, hmem⟩
  · obtain ⟨hpartial, hstage, -, hmem⟩ := State.formPartial_status s hin hserved (s.incomplete g.val).length
    refine ⟨_, _, exec_stragglerDeadline h hopen hpolicy hdeadline, hpartial, rfl, ?_, rfl, hstage, hmem⟩
    simp [State.ownPartial]
  · obtain ⟨e, l, hexec⟩ := exec_verdictReceipt_wrong h hactive hf hdone hcrc
    exact ⟨_, hexec, ((State.sameRegsBut.refl _ s).record (by simp) e).of_regs rfl, State.record_glades s e, State.record_mem s e⟩
  · obtain ⟨l, hexec⟩ := exec_verdictReceipt h hactive hf hdone hcrc hlen hring
    rw [State.takeVerdict_apply { s with sent := s.sent ++ l } happly hin hbloc] at hexec
    have hgl := State.gl_applyRing { s with sent := s.sent ++ l } (g := g.val) r
    obtain ⟨hstage, hlast, hcarried⟩ := State.applyRing_status { s with sent := s.sent ++ l } (g := g.val) r
    exact ⟨_, hexec, congrArg GladeState.verdict hgl, congrArg GladeState.verdictDone hgl, hstage, hlast, hcarried,
      State.applyRing_regs { s with sent := s.sent ++ l } r, rfl⟩
  · obtain ⟨l, hexec⟩ := exec_verdictReceipt h hactive hf hdone hcrc hlen hring
    exact ⟨_, hexec, State.takeVerdict_skip_status { s with sent := s.sent ++ l } g.isLt happly hcarry hserved⟩
  · obtain ⟨l, hexec⟩ := exec_verdictReceipt h hactive hf hdone hcrc hlen hring
    have hnone : ((State.carryRing { s with sent := s.sent ++ l } g.val r).gl g.val).held = [] :=
      (congrArg GladeState.held (State.gl_setVerdict { s with sent := s.sent ++ l } g.val r)).trans hheld
    rw [State.takeVerdict_carry _ happly hcarry, State.drainHeld_of_nil _ hnone] at hexec
    obtain ⟨hstage, hcarried⟩ := State.carryRing_status { s with sent := s.sent ++ l } (g := g.val) r
    exact ⟨_, hexec, hstage, hcarried, State.carryRing_regs { s with sent := s.sent ++ l } r, rfl⟩

end Sys2Proof.Machine
end

section
/-! PROOF. The reduction tree (R148): the children of a member split the rest of its subtree into contiguous parts, so going down to a
member's children and going up to a member's parent are one relation. -/
namespace Sys2Proof.Machine

/-! ## The parts of a subtree -/

/-- Where part i of the subtree lo to hi − 1 begins: the parts differ by at most 1 in size, the larger first. -/
def partStart (lo hi i : Nat) : Nat :=
  lo + 1 + i * ((hi - lo - 1) / min 8 (hi - lo - 1)) + min i ((hi - lo - 1) % min 8 (hi - lo - 1))

theorem treeParts_eq (lo hi : Nat) :
    treeParts lo hi = (List.range (min 8 (hi - lo - 1))).map fun i => (partStart lo hi i, partStart lo hi (i + 1)) := by
  refine List.map_congr_left fun i hi' => ?_
  have hk : min 8 (hi - lo - 1) ≠ 0 := by
    have := List.mem_range.mp hi'
    omega
  simp only [partStart, if_neg hk, Prod.mk.injEq, true_and, Nat.add_mul, Nat.one_mul]
  split <;> omega

theorem partStart_zero (lo hi : Nat) : partStart lo hi 0 = lo + 1 := by simp [partStart]

/-- The last part ends where the subtree does. -/
theorem partStart_last {lo hi : Nat} (h : lo < hi) : partStart lo hi (min 8 (hi - lo - 1)) = hi := by
  have hdiv := Nat.div_add_mod (hi - lo - 1) (min 8 (hi - lo - 1))
  have hmod : (hi - lo - 1) % min 8 (hi - lo - 1) ≤ min 8 (hi - lo - 1) := by
    rcases Nat.eq_zero_or_pos (min 8 (hi - lo - 1)) with h0 | hpos
    · have : hi - lo - 1 = 0 := by omega
      simp [this]
    · exact (Nat.mod_lt _ hpos).le
  rw [partStart, Nat.min_eq_right hmod]
  omega

theorem partStart_mono (lo hi : Nat) : Monotone (partStart lo hi) := fun i j hij => by
  have := Nat.mul_le_mul_right ((hi - lo - 1) / min 8 (hi - lo - 1)) hij
  unfold partStart
  omega

/-- A part that is there is not empty. -/
theorem partStart_lt_succ {lo hi i : Nat} (h : i < min 8 (hi - lo - 1)) : partStart lo hi i < partStart lo hi (i + 1) := by
  have hsize : 0 < (hi - lo - 1) / min 8 (hi - lo - 1) := Nat.div_pos (Nat.min_le_right _ _) (by omega)
  simp only [partStart, Nat.add_mul, Nat.one_mul]
  omega

/-- A value between the ends of a rising sequence lies in one of its steps. -/
theorem exists_step {A : Nat → Nat} {c : Nat} : ∀ {k : Nat}, A 0 ≤ c → c < A k → ∃ i < k, A i ≤ c ∧ c < A (i + 1)
  | 0, h0, hk => absurd h0 (by omega)
  | k + 1, h0, hk => by
    by_cases h : A k ≤ c
    · exact ⟨k, Nat.lt_succ_self k, h, hk⟩
    · obtain ⟨i, hi, hc⟩ := exists_step h0 (Nat.lt_of_not_le h)
      exact ⟨i, Nat.lt_succ_of_lt hi, hc⟩

section Parts
variable {lo hi c : Nat} {p q : Nat × Nat}

theorem treeParts_bounds (h : p ∈ treeParts lo hi) : lo < p.1 ∧ p.1 < p.2 ∧ p.2 ≤ hi := by
  rw [treeParts_eq] at h
  obtain ⟨i, hi', rfl⟩ := List.mem_map.mp h
  have hlt := List.mem_range.mp hi'
  have hfirst := partStart_mono lo hi (Nat.zero_le i)
  have hlast := partStart_mono lo hi (Nat.succ_le_of_lt hlt)
  rw [partStart_last (by omega)] at hlast
  rw [partStart_zero] at hfirst
  exact ⟨hfirst, partStart_lt_succ hlt, hlast⟩

/-- No two parts share an LMN. -/
theorem treeParts_disjoint (hp : p ∈ treeParts lo hi) (hq : q ∈ treeParts lo hi) (hcp : p.1 ≤ c ∧ c < p.2)
    (hcq : q.1 ≤ c ∧ c < q.2) : p = q := by
  rw [treeParts_eq] at hp hq
  obtain ⟨i, -, rfl⟩ := List.mem_map.mp hp
  obtain ⟨j, -, rfl⟩ := List.mem_map.mp hq
  have hij : i = j := by
    rcases Nat.lt_trichotomy i j with h | h | h
    · have := partStart_mono lo hi (show i + 1 ≤ j from h)
      omega
    · exact h
    · have := partStart_mono lo hi (show j + 1 ≤ i from h)
      omega
  rw [hij]

/-- The part of the subtree lo to hi − 1 in which an LMN lies. -/
def partOf (lo hi c : Nat) : Option (Nat × Nat) := (treeParts lo hi).find? fun p => p.1 ≤ c && c < p.2

theorem partOf_eq_some : partOf lo hi c = some p ↔ p ∈ treeParts lo hi ∧ p.1 ≤ c ∧ c < p.2 := by
  constructor
  · intro h
    have hc := List.find?_some h
    exact ⟨List.mem_of_find?_eq_some h, by simpa using hc⟩
  · rintro ⟨hp, hc⟩
    obtain ⟨q, hq⟩ : ∃ q, partOf lo hi c = some q := by
      rw [← Option.isSome_iff_exists, partOf, List.find?_isSome]
      exact ⟨p, hp, by simpa using hc⟩
    have hcq := List.find?_some hq
    rw [hq, treeParts_disjoint hp (List.mem_of_find?_eq_some hq) hc (by simpa using hcq)]

/-- Every LMN below the root of a subtree lies in one of its parts. -/
theorem partOf_isSome (hlo : lo < c) (hhi : c < hi) : ∃ p, partOf lo hi c = some p := by
  obtain ⟨i, hi', hc⟩ := exists_step (A := partStart lo hi) (c := c) (k := min 8 (hi - lo - 1))
    (by rw [partStart_zero]; exact hlo) (by rw [partStart_last (by omega)]; exact hhi)
  refine ⟨(partStart lo hi i, partStart lo hi (i + 1)), partOf_eq_some.mpr ⟨?_, hc⟩⟩
  rw [treeParts_eq]
  exact List.mem_map.mpr ⟨i, List.mem_range.mpr hi', rfl⟩

end Parts

/-! ## Down to the children and up to the parent -/

/-- The children of LMN x in the subtree lo to hi − 1. -/
def childrenFrom (f lo hi x : Nat) : List Nat :=
  match subtreeFrom f lo hi x with
  | some r => (treeParts r.1 r.2).map (·.1)
  | none => []

theorem treeChildren_eq (sz x : Nat) : treeChildren sz x = childrenFrom sz 0 sz x := rfl

section Levels
variable {f lo hi x c y : Nat} {p : Nat × Nat}

theorem childrenFrom_root (f lo hi : Nat) : childrenFrom (f + 1) lo hi lo = (treeParts lo hi).map (·.1) := by
  simp [childrenFrom, subtreeFrom]

theorem childrenFrom_part (h : partOf lo hi x = some p) : childrenFrom (f + 1) lo hi x = childrenFrom f p.1 p.2 x := by
  obtain ⟨hp, hx, -⟩ := partOf_eq_some.mp h
  obtain ⟨hlo, -, -⟩ := treeParts_bounds hp
  have hsub : subtreeFrom (f + 1) lo hi x = (partOf lo hi x).bind fun p => subtreeFrom f p.1 p.2 x := if_neg (by omega)
  rw [childrenFrom, hsub, h]
  rfl

theorem parentFrom_part (h : partOf lo hi c = some p) :
    parentFrom (f + 1) lo hi c = if c = p.1 then some lo else parentFrom f p.1 p.2 c := by
  have hpar : parentFrom (f + 1) lo hi c = (partOf lo hi c).bind fun p => if c = p.1 then some lo else parentFrom f p.1 p.2 c := rfl
  rw [hpar, h]
  rfl

/-- An LMN that has a parent lies below it, in a part of the subtree. -/
theorem parentFrom_bounds (h : parentFrom f lo hi c = some y) : lo ≤ y ∧ y < c ∧ c < hi := by
  induction f generalizing lo hi with
  | zero => cases h
  | succ f ih =>
    obtain ⟨p, hp⟩ : ∃ p, partOf lo hi c = some p := by
      obtain ⟨p, hp, -⟩ := Option.bind_eq_some_iff.mp h
      exact ⟨p, hp⟩
    obtain ⟨hmem, hc⟩ := partOf_eq_some.mp hp
    have hb := treeParts_bounds hmem
    rw [parentFrom_part hp] at h
    split at h
    · cases h
      omega
    · have := ih h
      omega

/-- A member's parent is the member whose child it is. -/
theorem mem_childrenFrom (hf : hi - lo ≤ f) (hlo : lo ≤ x) (hhi : x < hi) :
    c ∈ childrenFrom f lo hi x ↔ parentFrom f lo hi c = some x := by
  induction f generalizing lo hi with
  | zero => omega
  | succ f ih =>
    rcases hlo.eq_or_lt with rfl | hlt
    · rw [childrenFrom_root, List.mem_map]
      constructor
      · rintro ⟨p, hp, rfl⟩
        have hb := treeParts_bounds hp
        rw [parentFrom_part (partOf_eq_some.mpr ⟨hp, le_refl _, hb.2.1⟩), if_pos rfl]
      · intro h
        obtain ⟨-, hc, hc'⟩ := parentFrom_bounds h
        obtain ⟨p, hp⟩ := partOf_isSome hc hc'
        obtain ⟨hmem, -⟩ := partOf_eq_some.mp hp
        have hb := treeParts_bounds hmem
        rw [parentFrom_part hp] at h
        split at h
        case isTrue heq => exact ⟨p, hmem, heq.symm⟩
        case isFalse =>
          have := parentFrom_bounds h
          omega
    · obtain ⟨p, hp⟩ := partOf_isSome hlt hhi
      obtain ⟨hmem, hx⟩ := partOf_eq_some.mp hp
      have hb := treeParts_bounds hmem
      rw [childrenFrom_part hp, ih (by omega) hx.1 hx.2]
      constructor
      · intro h
        have hc := parentFrom_bounds h
        rw [parentFrom_part (partOf_eq_some.mpr ⟨hmem, by omega, hc.2.2⟩), if_neg (by omega), h]
      · intro h
        obtain ⟨-, hc, hc'⟩ := parentFrom_bounds h
        obtain ⟨q, hq⟩ := partOf_isSome (lo := lo) (c := c) (by omega) hc'
        obtain ⟨hqmem, -⟩ := partOf_eq_some.mp hq
        rw [parentFrom_part hq] at h
        split at h
        case isTrue =>
          cases h
          omega
        case isFalse =>
          have hxq := parentFrom_bounds h
          rwa [treeParts_disjoint hmem hqmem hx (show q.1 ≤ x ∧ x < q.2 by omega)]

/-- Only the root of a subtree has no parent in it. -/
theorem parentFrom_eq_none (hf : hi - lo ≤ f) (hlo : lo ≤ c) (hhi : c < hi) : parentFrom f lo hi c = none ↔ c = lo := by
  induction f generalizing lo hi with
  | zero => omega
  | succ f ih =>
    constructor
    · intro h
      by_contra hne
      obtain ⟨p, hp⟩ := partOf_isSome (lo := lo) (c := c) (by omega) hhi
      obtain ⟨hmem, hc⟩ := partOf_eq_some.mp hp
      have hb := treeParts_bounds hmem
      rw [parentFrom_part hp] at h
      split at h
      case isTrue => cases h
      case isFalse hroot => exact hroot ((ih (by omega) hc.1 hc.2).mp h)
    · rintro rfl
      rw [Option.eq_none_iff_forall_not_mem]
      intro y hy
      have := parentFrom_bounds hy
      omega

end Levels

theorem mem_treeChildren {sz x c : Nat} (hx : x < sz) : c ∈ treeChildren sz x ↔ c < sz ∧ treeParent sz c = some x := by
  rw [treeChildren_eq, mem_childrenFrom (by omega) (Nat.zero_le x) hx]
  exact ⟨fun h => ⟨(parentFrom_bounds h).2.2, h⟩, fun h => h.2⟩

theorem treeParent_eq_none {sz c : Nat} (hc : c < sz) : treeParent sz c = none ↔ c = 0 :=
  parentFrom_eq_none (by omega) (Nat.zero_le c) hc

end Sys2Proof.Machine
end

section
/-! PROOF. A verdict stays decided while contributions are added and buffers are stored (R89, R92, R306). -/
namespace Sys2Proof.Machine

/-- What the engines hold of the verdict. -/
def GladeState.decided (e : GladeState) : List Byte × Bool := (e.verdict, e.verdictDone)

namespace State
variable (s : State)

/-- Every glade's engines hold the same of the verdict. -/
structure SameVerdicts (s t : State) : Prop where
  decided : ∀ x, (t.gl x).decided = (s.gl x).decided

namespace SameVerdicts
variable {s t u : State}

theorem refl (s : State) : SameVerdicts s s := ⟨fun _ => rfl⟩

theorem trans (h : SameVerdicts s t) (h' : SameVerdicts t u) : SameVerdicts s u := ⟨fun x => (h'.decided x).trans (h.decided x)⟩

theorem of_glades (h : SameVerdicts s t) (e : u.glades = t.glades) : SameVerdicts s u :=
  ⟨fun x => (congrArg GladeState.decided (gl_congr e x)).trans (h.decided x)⟩

/-- A change that leaves every glade's engines alone. -/
theorem of_eq (e : t.glades = s.glades) : SameVerdicts s t := (refl s).of_glades e

theorem updGl (h : SameVerdicts s t) (g : Nat) {f : GladeState → GladeState} (hf : ∀ e, (f e).decided = e.decided) :
    SameVerdicts s (t.updGl g f) := ⟨fun x => by
  rw [gl_updGl, ← h.decided x]
  split
  case isTrue heq => rw [hf, heq]
  case isFalse => rfl⟩

theorem each {α : Type} {f : State → α → State} (h : SameVerdicts s t) (hf : ∀ (v : State) (x : α), SameVerdicts v (f v x))
    (l : List α) : SameVerdicts s (t.each l f) :=
  ⟨fun x => (each_eq t (fun v => (v.gl x).decided) fun v y _ => (hf v y).decided x).trans (h.decided x)⟩

end SameVerdicts

/-! ## Accesses that fail (R43, R296, R306) -/

theorem markStale_verdicts (g p : Nat) : SameVerdicts s (s.markStale g p) :=
  ((SameVerdicts.refl s).updGl g fun _ => by rfl).of_glades (refreshStale_glades ..)

theorem dropFold_verdicts (g : Nat) (next : Bool) (p : Nat) : SameVerdicts s (s.dropFold g next p) :=
  ((SameVerdicts.refl s).of_glades (by rfl)).updGl g fun _ => rfl

theorem spoilUnit_verdicts (g x u : Nat) : SameVerdicts s (s.spoilUnit g x u) := by
  unfold spoilUnit
  dsimp only
  have hself := SameVerdicts.refl s
  repeat' split
  · exact hself.updGl g fun _ => rfl
  · exact hself
  · exact hself.updGl g fun _ => rfl
  · exact hself
  · exact (hself.trans (dropFold_verdicts s g _ _)).updGl g fun _ => rfl
  · exact hself
  · exact hself.each (fun v (f : Fold) => markStale_verdicts v g f.p) _
  · exact hself.updGl g fun _ => rfl
  · exact hself

theorem awaitUnit_verdicts (q g x u : Nat) : SameVerdicts s (s.awaitUnit q g x u) := by
  unfold awaitUnit
  dsimp only
  split
  · exact (spoilUnit_verdicts s g x u).of_glades (updPt_glades ..)
  · exact spoilUnit_verdicts s g x u

theorem roundAgain_glades (g t : Nat) : (s.roundAgain g t).glades = s.glades := by
  unfold roundAgain
  split
  · rfl
  · exact writeBytes_glades ..

theorem rememberLedger_verdicts (g e : Nat) : SameVerdicts s (s.rememberLedger g e) := by
  unfold rememberLedger
  split
  · exact SameVerdicts.refl s
  · exact (SameVerdicts.refl s).updGl g fun _ => rfl

theorem setLag_verdicts (g t : Nat) : SameVerdicts s (s.setLag g t) := by
  unfold setLag
  dsimp only
  exact (rememberLedger_verdicts ..).of_glades ((inc_glades ..).trans (writeBytes_glades ..))

theorem bufferLost_verdicts (g t : Nat) : SameVerdicts s (s.bufferLost g t) := by
  have hlag := ((SameVerdicts.refl s).updGl g (f := fun x => { x with notApplied := x.notApplied ++ [t] }) fun _ => rfl).trans
    (setLag_verdicts _ g t)
  unfold bufferLost
  dsimp only
  repeat' split
  · exact (SameVerdicts.refl s).of_glades rfl
  · exact SameVerdicts.refl s
  · exact hlag.of_glades (record_glades ..)
  · exact hlag

theorem lineFailed_verdicts (q o : Nat) : SameVerdicts s (s.lineFailed q o) := by
  unfold lineFailed
  dsimp only
  repeat' split
  · exact (awaitUnit_verdicts ..).of_glades (record_glades ..)
  · exact (SameVerdicts.refl s).of_glades (roundAgain_glades ..)
  · exact bufferLost_verdicts ..
  iterate 2 exact (SameVerdicts.refl s).of_glades (record_glades ..)

theorem readFailed_verdicts (o : Nat) : SameVerdicts s (s.readFailed o) :=
  (SameVerdicts.of_eq (inc_glades ..)).trans (lineFailed_verdicts ..)

theorem writeFailed_verdicts (o : Nat) : SameVerdicts s (s.writeFailed o) :=
  (SameVerdicts.of_eq ((add_glades ..).trans (add_glades ..))).trans (lineFailed_verdicts ..)

theorem readCheck_verdicts (o n : Nat) : SameVerdicts s (s.readCheck o n) :=
  (SameVerdicts.refl s).each (fun v _ => readFailed_verdicts v _) _

theorem store_verdicts (o : Nat) (l : List Byte) : SameVerdicts s (s.store o l) := by
  unfold store
  split
  · exact SameVerdicts.of_eq (writeBytes_glades ..)
  · refine (SameVerdicts.refl s).each (fun v a => ?_) _
    dsimp only
    split
    · exact SameVerdicts.of_eq (writeBytes_glades ..)
    · exact writeFailed_verdicts ..

/-! ## Contributions and buffers (R89, R92, R145) -/

theorem decided_updStream (e : GladeState) (openLo ringLo sidx : Nat) (f : Stream → Stream) :
    (e.updStream openLo ringLo sidx f).decided = e.decided := by
  unfold GladeState.updStream
  dsimp only
  split
  all_goals rfl

theorem addBlock_verdicts (g : Nat) (c : Contribution) : SameVerdicts s (s.addBlock g c) := by
  have hread : ∀ o, SameVerdicts s ((s.readCheck o 4096).charge 3 32 32 0) := fun o =>
    (readCheck_verdicts ..).of_glades (charge_glades ..)
  have hstored : ∀ (v : State) (t : Nat) (e : Exc) (o : Nat) (l : List Byte), SameVerdicts v ((v.raiseExc t e).store o l) :=
    fun v t e o l => (SameVerdicts.of_eq (setReg_glades ..)).trans (store_verdicts ..)
  unfold addBlock
  dsimp only
  refine ((hread _).trans (hstored _ _ _ _ _)).updGl g fun e => ?_
  exact decided_updStream ..

theorem drain_verdicts (g n : Nat) : SameVerdicts s (s.drain g n) := by
  induction n generalizing s with
  | zero => exact SameVerdicts.refl s
  | succ n ih =>
    unfold drain
    split
    · exact SameVerdicts.refl s
    · exact (((SameVerdicts.refl s).updGl g fun _ => by rfl).trans (addBlock_verdicts ..)).trans (ih _)

theorem drainHeld_verdicts (g : Nat) : SameVerdicts s (s.drainHeld g) := by
  unfold drainHeld
  split
  · exact drain_verdicts ..
  · exact SameVerdicts.refl s

theorem zeroBuffers_verdicts (g : Nat) : SameVerdicts s (s.zeroBuffers g) :=
  (SameVerdicts.refl s).each (fun _ _ => (store_verdicts ..).of_glades (charge_glades ..)) _

theorem discardHeld_verdicts (g : Nat) : SameVerdicts s (s.discardHeld g) := by
  unfold discardHeld
  exact (SameVerdicts.of_eq (add_glades ..)).updGl g fun _ => rfl

/-- A member that takes a verdict holds it (R92). -/
theorem decided_takeVerdict (g : Nat) (v : List Byte) : ((s.takeVerdict g v).gl g).decided = (v, true) := by
  have hset : ((s.setVerdict g v).gl g).decided = (v, true) := congrArg GladeState.decided (gl_setVerdict s g v)
  have hkeep : SameVerdicts (s.setVerdict g v) (s.takeVerdict g v) := by
    unfold takeVerdict
    dsimp only
    rw [← setVerdict]
    generalize s.setVerdict g v = w
    repeat' split
    · exact ((SameVerdicts.of_eq (by rfl)).trans (discardHeld_verdicts ..)).of_glades (wr_glades ..)
    · exact ((SameVerdicts.of_eq (by rfl)).trans (discardHeld_verdicts ..)).of_glades (wr_glades ..)
    · exact (SameVerdicts.of_eq (by rfl)).trans (drainHeld_verdicts ..)
    · exact ((SameVerdicts.of_eq (by rfl)).trans (discardHeld_verdicts ..)).trans (zeroBuffers_verdicts ..)
  exact (hkeep.decided g).trans hset

end State
end Sys2Proof.Machine
end

section
/-! PROOF. The operations of the reduction tree (R148): what goes down to the children and up from the hosted places, and what the root
of the verdict and trust-ratio reductions decides (R92, R102). -/
namespace Sys2Proof.Machine

theorem allChildren_nil {α : Type} (l : List (Nat × α)) : allChildren [] l = some [] := rfl

theorem layer_layerAcc (l : List LayerAcc) (k : Nat) : (layerAcc l k).layer = k := by
  unfold layerAcc
  cases h : l.find? fun x => x.layer == k with
  | none => rfl
  | some x => simpa using List.find?_some h

theorem mem_putChild {α : Type} (l : List (Nat × α)) (c : Nat) (x : α) : (c, x) ∈ putChild l c x := by simp [putChild]

namespace State
variable (s : State)

/-! ## Sending -/

/-- Changes that each send, and do nothing else, do nothing else together (assumption 4). -/
theorem each_sends {α : Type} {f : State → α → State} (hf : ∀ v x, ∃ m, f v x = { v with sent := v.sent ++ m }) (l : List α) :
    ∃ m, s.each l f = { s with sent := s.sent ++ m } := by
  induction l generalizing s with
  | nil => exact ⟨[], by simp [each]⟩
  | cons x r ih =>
    obtain ⟨m, hm⟩ := hf s x
    obtain ⟨m', hm'⟩ := ih (f s x)
    refine ⟨m ++ m', hm'.trans ?_⟩
    rw [hm, List.append_assoc]

/-- A result of LMN 0 changes the list of what is sent alone. -/
theorem distribute_fields (g : Nat) (name : String) (args : List Nat) (data : List Byte) :
    ∃ m, s.distribute g name args data = { s with sent := s.sent ++ m } := by
  unfold distribute
  split
  · exact ⟨_, rfl⟩
  · exact ⟨_, toMembers_eq ..⟩

/-- A member that hosts no place apart from its own sends for none (R179). -/
theorem eachSide_of_no_sides {α : Type} {g : Nat} (h : s.sides g = []) (l : List (Nat × α)) (f : State → Nat → Nat → List α → State) :
    s.eachSide g l f = s := by
  rw [eachSide, h]
  rfl

/-! ## The place in the tree -/

/-- A glade's members, and the places among them that a node holds, are the same in two states. -/
structure SameTree (g : Nat) (s t : State) : Prop where
  member : t.reg (R.GLD_MEMBER g) = s.reg (R.GLD_MEMBER g)
  hosting : (t.gl g).hosting = (s.gl g).hosting

namespace SameTree
variable {s t : State} {g : Nat} (h : SameTree g s t)
include h

theorem members : t.members g = s.members g := by simp only [State.members, State.rd, h.member]

theorem heldLmns : t.heldLmns g = s.heldLmns g := by simp only [State.heldLmns, State.lmn, State.rd, h.member, h.hosting]

theorem treeRoot : t.treeRoot g = s.treeRoot g := by
  simp only [State.treeRoot, State.lmn, State.rd, h.member, h.members, h.heldLmns]

theorem children : t.children g = s.children g := by simp only [State.children, h.members, h.heldLmns, h.treeRoot]

theorem parent : t.parent g = s.parent g := by simp only [State.parent, h.members, h.treeRoot]

theorem sides : t.sides g = s.sides g := by simp only [State.sides, h.members, h.heldLmns, h.hosting, h.treeRoot]

end SameTree

/-! ## The verdict at the root and below (R92) -/

section Verdict
variable {g : Nat} {p : PartialVerdict} {l : List PartialVerdict} (hsides : s.sides g = []) (hown : (s.gl g).partialV = some p)
  (hkids : allChildren (s.children g) (s.gl g).childV = some l)
include hsides hown hkids

theorem reduceVerdict_root (hroot : s.parent g = none) : ∃ v, v = verdictRecord (l.foldl PartialVerdict.combine p) g
      (s.judge g (l.foldl PartialVerdict.combine p)).1 (s.judge g (l.foldl PartialVerdict.combine p)).2 ∧
    s.reduceVerdict g = (s.distribute g "VERDICT" [g] v).takeVerdict g v := by
  refine ⟨_, rfl, ?_⟩
  unfold reduceVerdict
  simp only [hown, eachSide_of_no_sides s hsides, hkids, hroot]

theorem reduceVerdict_up {x : Nat} (hup : s.parent g = some x) :
    s.reduceVerdict g = s.sendVerdictUp g x (s.treeRoot g) (l.foldl PartialVerdict.combine p) := by
  unfold reduceVerdict
  simp only [hown, eachSide_of_no_sides s hsides, hkids, hup]

end Verdict

/-! ## The layer sums at a root without children (R102) -/

/-- W2 and U2 of every two-pass layer, of this member's own accumulators. -/
def ownSums (s : State) (g : Nat) : List LayerSum := (s.twoPassLayers g).map fun l =>
  ⟨l, accRound (layerAcc (s.gl g).layerAccs l).acc0, accRound (layerAcc (s.gl g).layerAccs l).acc1⟩

theorem ownSums_eq (g : Nat) : (s.trustSums g (s.gl g).layerAccs []).map
    (fun x => (⟨x.layer, accRound x.acc0, accRound x.acc1⟩ : LayerSum)) = s.ownSums g := by
  simp only [trustSums, ownSums, List.map_map, List.foldl_nil]
  exact List.map_congr_left fun l _ => by simp [layer_layerAcc]

/-- The engines hold layer sums in place of earlier ones of their layers. -/
def putTrust (s : State) (g : Nat) (l : List LayerSum) : State := s.updGl g fun e =>
  { e with trust := (e.trust.filter fun x => !l.any fun y => y.layer == x.layer) ++ l }

theorem putTrust_regs (g : Nat) (l : List LayerSum) : (s.putTrust g l).regs = s.regs := updGl_regs ..

theorem trust_putTrust (g : Nat) (l : List LayerSum) : ((s.putTrust g l).gl g).trust =
    ((s.gl g).trust.filter fun x => !l.any fun y => y.layer == x.layer) ++ l :=
  congrArg GladeState.trust ((gl_updGl ..).trans (if_pos rfl))

/-- Layer sums that name every two-pass layer end the reduction, and the second sweep begins (STAGE 4). -/
theorem takeTrust_whole {g : Nat} {l : List LayerSum} (h : ∀ x ∈ s.twoPassLayers g, ∃ y ∈ l, y.layer = x) :
    s.takeTrust g l = ((s.putTrust g l).updGl g fun e => { e with trustDone := true }).setStage g 4 := by
  refine if_pos (List.all_eq_true.mpr fun x hx => ?_)
  obtain ⟨y, hy, hlayer⟩ := h x hx
  rw [← putTrust, trust_putTrust]
  exact List.any_eq_true.mpr ⟨y, List.mem_append_right _ hy, beq_iff_eq.mpr hlayer⟩

theorem takeTrust_status {g : Nat} {l : List LayerSum} (h : ∀ x ∈ s.twoPassLayers g, ∃ y ∈ l, y.layer = x) :
    ((s.takeTrust g l).gl g).trustDone = true ∧ (s.takeTrust g l).stage g = 4 ∧ (∀ y ∈ l, y ∈ ((s.takeTrust g l).gl g).trust) ∧
      s.sameRegsBut [R.STP_GSTAT g] (s.takeTrust g l) ∧ (s.takeTrust g l).mem = s.mem := by
  rw [takeTrust_whole s h, setStage, gl_congr (wr_glades ..), gl_updGl, if_pos rfl]
  refine ⟨rfl, rd_wr_same _ _ rfl 4, fun y hy => ?_, ((sameRegsBut.refl _ s).of_regs
    ((updGl_regs ..).trans (putTrust_regs s g l))).wr (by simp) _ _, rfl⟩
  rw [trust_putTrust]
  exact List.mem_append_right _ hy

theorem reduceTrust_root {g : Nat} (hsides : s.sides g = []) (hkids : s.children g = []) (hroot : s.parent g = none) :
    ∃ m, s.reduceTrust g = { s with sent := s.sent ++ m }.takeTrust g (s.ownSums g) := by
  obtain ⟨m, hsent⟩ := each_sends s (fun v (c : List LayerSum) => distribute_fields v g "TRUST" (g :: c.map (·.layer)) (trustDownBytes c))
    (chunks 256 ((s.ownSums g).length + 1) (s.ownSums g))
  refine ⟨m, ?_⟩
  unfold reduceTrust
  simp only [eachSide_of_no_sides s hsides, hkids, hroot, allChildren_nil, ownSums_eq, hsent]

/-! ## The ring-close and ring-start barriers (R107, R109) -/

/-- The member has entered the ring-close barrier (STAGE 6). -/
def enterClose (s : State) (g : Nat) : State := (s.updGl g fun e => { e with closeEntered := true }).setStage g 6

theorem gl_enterClose (g : Nat) : (s.enterClose g).gl g = { s.gl g with closeEntered := true } :=
  (gl_congr (wr_glades ..) g).trans ((gl_updGl ..).trans (if_pos rfl))

theorem enterClose_regs (g : Nat) : s.sameRegsBut [R.STP_GSTAT g] (s.enterClose g) :=
  ((sameRegsBut.refl _ s).of_regs (updGl_regs ..)).wr (by simp) _ _

theorem enterClose_tree (g : Nat) : SameTree g s (s.enterClose g) where
  member := enterClose_regs s g _ (by
    simp only [List.mem_singleton, R.GLD_MEMBER, R.STP_GSTAT]
    omega)
  hosting := by rw [gl_enterClose]

theorem openRing_enterClose (g : Nat) : (s.enterClose g).openRing g = s.openRing g := by
  have hring : R.GLD_RING g ∉ [R.STP_GSTAT g] := by
    simp only [List.mem_singleton, R.GLD_RING, R.STP_GSTAT]
    omega
  rw [openRing, ring, enterClose_regs s g _ hring]
  rfl

/-- The member has entered the ring-start barrier. -/
def enterStart (s : State) (g : Nat) : State := s.updGl g fun e => { e with startEntered := true }

theorem gl_enterStart (g : Nat) : (s.enterStart g).gl g = { s.gl g with startEntered := true } := (gl_updGl ..).trans (if_pos rfl)

theorem enterStart_tree (g : Nat) : SameTree g s (s.enterStart g) where
  member := reg_congr (updGl_regs ..) _
  hosting := by rw [gl_enterStart]

section Barriers
variable {g : Nat}

/-- Before the member itself has entered, the barrier waits. -/
theorem reduceClose_not_entered (h : (s.gl g).closeEntered = false) : s.reduceClose g = s := if_pos (by simp [h])

variable (hsides : s.sides g = [])
include hsides

theorem reduceClose_waits (hkids : allChildren (s.children g) (s.gl g).childC = none) : s.reduceClose g = s := by
  unfold reduceClose
  simp only [eachSide_of_no_sides s hsides, hkids, ite_self]

/-- At a root without children the ring commits as soon as the root has entered. -/
theorem reduceClose_root (hentered : (s.gl g).closeEntered = true) (hkids : s.children g = []) (hroot : s.parent g = none) :
    ∃ stale m, s.reduceClose g = { s with sent := s.sent ++ m }.commitRing g stale := by
  obtain ⟨m, hsent⟩ := distribute_fields s g "RING_CLOSE" ([g, s.openRing g] ++ staleArgs ((s.gl g).staleSent ++ []).eraseDups) []
  refine ⟨((s.gl g).staleSent ++ []).eraseDups, m, ?_⟩
  rw [← hsent]
  unfold reduceClose
  simp only [hentered, eachSide_of_no_sides s hsides, hkids, hroot, allChildren_nil, List.flatten_nil]
  rfl

theorem reduceStart_waits (hkids : allChildren (s.children g) (s.gl g).childS = none) : s.reduceStart g = s := by
  unfold reduceStart
  simp only [eachSide_of_no_sides s hsides, hkids, ite_self]

end Barriers
/-! ## Entries with a wrong CRC (R149) -/

/-- The first wrong entry of a child is recorded and asked for again. -/
def askEntry (s : State) (g c : Nat) : State :=
  ((s.updGl g fun e => { e with wrongOnce := e.wrongOnce ++ [c] }).record ((ev Sev.warn Src.grv g).about c)).toMember g c
    "ENTRY_REQUEST" [g, s.lmn g]

theorem wrongEntry_first {g c : Nat} (h : c ∉ (s.gl g).wrongOnce) : s.wrongEntry g c = s.askEntry g c := if_neg (by simpa using h)

theorem askEntry_regs (g c : Nat) : s.sameRegsBut [R.EVR_LOST] (s.askEntry g c) :=
  (((sameRegsBut.refl _ s).of_regs (updGl_regs ..)).record (by simp) _).of_regs (send_regs ..)

theorem askEntry_mem (g c : Nat) : (s.askEntry g c).mem = s.mem := (send_mem ..).trans (record_mem ..)

theorem mem_wrongOnce_askEntry (g c : Nat) : c ∈ ((s.askEntry g c).gl g).wrongOnce := by
  rw [askEntry, toMember, gl_congr (send_glades ..), gl_congr (record_glades ..), gl_updGl, if_pos rfl]
  simp

theorem mem_sent_askEntry (g c : Nat) : .toMember g c "ENTRY_REQUEST" [g, s.lmn g] [] ∈ (s.askEntry g c).sent := by
  simp [askEntry, toMember, send]

end State
end Sys2Proof.Machine
end

section
/-! PROOF. The rows VERDICT_REDUCTION, TRUST_RATIO_REDUCTION, RING_CLOSE_BARRIER, RING_START_BARRIER and TREE_ENTRY (R92, R102, R107, R148,
R149). -/
namespace Sys2Proof.Machine

section Rows
variable {s : State} {g : GladeId}

theorem exec_verdictReduction (h : s.up) (hactive : s.active g.val = true) (hf : s.fenced g.val = false)
    (hopen : (s.gl g.val).verdictDone = false) (hclass : s.permits g.val 3 = true) :
    exec (.verdictReduction g) s = .next (s.reduceVerdict g.val) := by
  have hexec : exec (.verdictReduction g) s = .next _ := congrArg Host.Outcome.next (State.inMain_of_up h _)
  rw [hexec, if_pos (by simp [hactive, hf, hopen, hclass])]

theorem exec_trustRatioReduction (h : s.up) (hactive : s.active g.val = true) (hf : s.fenced g.val = false)
    (hdone : (s.gl g.val).verdictDone = true) (happly : verdictApply (s.gl g.val).verdict = true)
    (hopen : (s.gl g.val).trustDone = false) (htwo : s.twoPassLayers g.val ≠ []) (hfirst : s.firstDone g.val = true)
    (hclass : s.permits g.val 3 = true) : exec (.trustRatioReduction g) s = .next (s.reduceTrust g.val) := by
  have hexec : exec (.trustRatioReduction g) s = .next _ := congrArg Host.Outcome.next (State.inMain_of_up h _)
  rw [hexec, if_pos (by simp [hactive, hf, hdone, happly, hopen, htwo, hfirst, hclass])]

theorem exec_ringCloseBarrier (h : s.up) (hmay : s.mayClose g.val = true) :
    exec (.ringCloseBarrier g) s = .next ((s.enterClose g.val).reduceClose g.val) := by
  have hexec : exec (.ringCloseBarrier g) s = .next _ := congrArg Host.Outcome.next (State.inMain_of_up h _)
  rw [hexec, if_pos hmay]
  rfl

theorem exec_ringStartBarrier (h : s.up) (hmay : s.mayStart g.val = true) :
    exec (.ringStartBarrier g) s = .next ((s.enterStart g.val).reduceStart g.val) := by
  have hexec : exec (.ringStartBarrier g) s = .next _ := congrArg Host.Outcome.next (State.inMain_of_up h _)
  rw [hexec, if_pos hmay]
  rfl

section Entry
variable {c : Nat} (h : s.up) (hactive : s.active g.val = true) (hf : s.fenced g.val = false) (hchild : c ∈ s.allKids g.val)
include h hactive hf hchild

/-- A child's ring-close entry is kept until the member itself enters (R148). -/
theorem exec_treeEntry_close (hnot : (s.gl g.val).closeEntered = false) (stale : List RowPar) :
    exec (.treeEntry g c true (.ringClose (s.openRing g.val) (s.code g.val).epoch stale)) s =
      .next (s.updGl g.val fun e => { e with childC := putChild e.childC c stale }) := by
  have hexec : exec (.treeEntry g c true (.ringClose (s.openRing g.val) (s.code g.val).epoch stale)) s = .next _ :=
    congrArg Host.Outcome.next (State.inMain_of_up h _)
  rw [hexec, State.treeEntry, if_neg (by simp [hactive, hf, hchild]), if_neg (by simp), if_neg (by simp),
    State.reduceClose_not_entered]
  rw [State.gl_updGl, if_pos rfl]
  exact hnot

/-- An entry with a wrong CRC is asked for again, the first time (R149). -/
theorem exec_treeEntry_wrong (hfirst : c ∉ (s.gl g.val).wrongOnce) (p : TreePayload) :
    exec (.treeEntry g c false p) s = .next (s.askEntry g.val c) := by
  have hexec : exec (.treeEntry g c false p) s = .next (s.treeEntry g.val c false p) :=
    congrArg Host.Outcome.next (State.inMain_of_up h _)
  rw [hexec, ← State.wrongEntry_first s hfirst]
  unfold State.treeEntry
  rw [if_neg (by simp [hactive, hf, hchild]), if_pos (by simp)]

end Entry
end Rows

/-- Settles O33: the tree by its parts, and each row by the state that it answers. -/
theorem treesAndReductions : Obligations.TreesAndReductions := by
  unfold Obligations.TreesAndReductions
  refine ⟨fun sz x c hx => mem_treeChildren hx, fun sz c hc => treeParent_eq_none hc,
    fun s g p l h hactive hf hopen hclass hsides hown hkids hroot => ?_,
    fun s g p l x h hactive hf hopen hclass hsides hown hkids hup => ?_,
    fun s g h hactive hf hdone happly hopen htwo hfirst hclass hsides hkids hroot => ?_,
    fun s g h hmay hsides hkids => ?_, fun s g h hmay hsides hkids hroot => ?_, fun s g h hmay hsides hkids => ?_,
    fun s g c stale h hactive hf hchild hnot => ?_, fun s g c p h hactive hf hchild hfirst => ?_⟩
  · obtain ⟨v, hv, hreduce⟩ := State.reduceVerdict_root s hsides hown hkids hroot
    have hdecided := State.decided_takeVerdict (s.distribute g.val "VERDICT" [g.val] v) g.val v
    refine ⟨_, exec_verdictReduction h hactive hf hopen hclass, ?_⟩
    rw [hreduce, ← hv]
    exact ⟨congrArg Prod.snd hdecided, congrArg Prod.fst hdecided⟩
  · exact ⟨_, exec_verdictReduction h hactive hf hopen hclass, State.reduceVerdict_up s hsides hown hkids hup⟩
  · obtain ⟨m, hreduce⟩ := State.reduceTrust_root s hsides hkids hroot
    refine ⟨_, exec_trustRatioReduction h hactive hf hdone happly hopen htwo hfirst hclass, ?_⟩
    have hwhole : ∀ x ∈ s.twoPassLayers g.val, ∃ y ∈ s.ownSums g.val, y.layer = x := fun x hx =>
      ⟨_, List.mem_map_of_mem hx, rfl⟩
    obtain ⟨htrust, hstage, hsums, hregs, hmem⟩ := State.takeTrust_status { s with sent := s.sent ++ m } hwhole
    rw [hreduce]
    exact ⟨htrust, hstage, fun l hl => hsums _ (List.mem_map_of_mem hl), hregs, hmem⟩
  · have htree := State.enterClose_tree s g.val
    have hgl := State.gl_enterClose s g.val
    refine ⟨_, exec_ringCloseBarrier h hmay, ?_⟩
    rw [State.reduceClose_waits _ (htree.sides.trans hsides) (by rw [htree.children, hgl]; exact hkids)]
    exact ⟨congrArg GladeState.closeEntered hgl, State.rd_wr_same _ _ rfl 6, State.enterClose_regs s g.val, rfl, rfl⟩
  · have htree := State.enterClose_tree s g.val
    have hentered : ((s.enterClose g.val).gl g.val).closeEntered = true := by rw [State.gl_enterClose]
    obtain ⟨stale, m, hreduce⟩ := State.reduceClose_root _ (htree.sides.trans hsides) hentered (htree.children.trans hkids)
      (htree.parent.trans hroot)
    have hexec := exec_ringCloseBarrier h hmay
    rw [hreduce] at hexec
    obtain ⟨hclosed, -⟩ := State.gl_commitRing { s.enterClose g.val with sent := (s.enterClose g.val).sent ++ m } g.val stale
    refine ⟨_, hexec, ?_, hclosed, exec_mem hexec rfl⟩
    exact (State.ring_commitRing _ g.isLt stale).trans (State.openRing_enterClose s g.val)
  · have htree := State.enterStart_tree s g.val
    have hgl := State.gl_enterStart s g.val
    refine ⟨_, exec_ringStartBarrier h hmay, ?_⟩
    rw [State.reduceStart_waits _ (htree.sides.trans hsides) (by rw [htree.children, hgl]; exact hkids)]
    exact ⟨congrArg GladeState.startEntered hgl, rfl, rfl, rfl⟩
  · refine ⟨_, exec_treeEntry_close h hactive hf hchild hnot stale, ?_, rfl, rfl⟩
    rw [State.gl_updGl, if_pos rfl]
    exact mem_putChild ..
  · exact ⟨_, exec_treeEntry_wrong h hactive hf hchild hfirst p, State.mem_wrongOnce_askEntry s g.val c,
      State.mem_sent_askEntry s g.val c, State.askEntry_regs s g.val c, State.askEntry_mem s g.val c⟩

end Sys2Proof.Machine
end

section
/-! PROOF. The test registers of a tile's generator (R116, R130), the restart of a context's unit (R131), and the gang that a quadrant
forms (R128). -/
namespace Sys2Proof.Machine

namespace State
variable (s : State)

/-! ## The generator (R116, R130) -/

/-- RNGOUT0 and RNGOUT1 are the two halves of the generator's output. -/
theorem reg_rngDone (k : Nat) :
    ((s.rngDone k).reg (R.TIL_RNGOUT0 k)).toNat + 2 ^ 64 * ((s.rngDone k).reg (R.TIL_RNGOUT1 k)).toNat = s.rngOut k % 2 ^ 128 := by
  have hne : R.TIL_RNGOUT0 k ≠ R.TIL_RNGOUT1 k := by unfold R.TIL_RNGOUT0 R.TIL_RNGOUT1; omega
  have hregs : (s.rngDone k).regs = ((s.setReg (R.TIL_RNGOUT0 k) (BitVec.ofNat 64 (s.rngOut k))).setReg (R.TIL_RNGOUT1 k)
    (BitVec.ofNat 64 (s.rngOut k / 2 ^ 64))).regs := rfl
  rw [reg_congr hregs, reg_congr hregs, reg_setReg, if_neg hne, reg_setReg, if_pos rfl, reg_setReg, if_pos rfl, BitVec.toNat_ofNat,
    BitVec.toNat_ofNat]
  exact Nat.mod_mul.symm

theorem rngDone_regs (k : Nat) : s.sameRegsBut [R.TIL_RNGOUT0 k, R.TIL_RNGOUT1 k] (s.rngDone k) :=
  (((sameRegsBut.refl _ s).setReg (by simp) _).setReg (by simp) _).of_regs (updTl_regs ..)

/-! ## Contexts (R131) -/

theorem tl_record (e : Ev) (k : Nat) : (s.record e).tl k = s.tl k := by rw [tl, record_tiles, tl]

theorem tl_inc (a : Nat) (f : Fld) (k : Nat) : (s.inc a f).tl k = s.tl k := rfl

/-- An encoding or a rebuild that begins again asks its row's holders, and does nothing else. -/
theorem restartUnit_sends {c : Context} (hkind : c.kind ∈ [1, 2]) : ∃ m, s.restartUnit c = { s with sent := s.sent ++ m } := by
  obtain ⟨id, g, kind, unit, clearing, parked, restarted⟩ := c
  obtain rfl | rfl : kind = 1 ∨ kind = 2 := by simpa using hkind
  all_goals exact each_sends s (fun _ _ => ⟨_, rfl⟩) _

/-! ## Gangs (R128) -/

theorem quadTiles_length_lt (q : Nat) : (s.quadTiles q).length < 2 ^ F.TIL_GANG_WIDTH.width :=
  calc (s.quadTiles q).length ≤ ((List.range 16).map (16 * q + ·)).length := List.length_filter_le ..
    _ < 32 := by simp

theorem TIL_GANG_injective {i k : Nat} (h : R.TIL_GANG i = R.TIL_GANG k) : i = k := by
  unfold R.TIL_GANG at h
  omega

/-- A tile takes its place in a gang of `n` tiles. -/
def joinGang (n : Nat) (s : State) (k : Nat) : State :=
  (s.wr (R.TIL_GANG k) F.TIL_GANG_MODE 2).wr (R.TIL_GANG k) F.TIL_GANG_WIDTH n

/-- Tile `k` shows a gang of `n` tiles. -/
def showsGang (n k : Nat) (s : State) : Prop :=
  s.rd (R.TIL_GANG k) F.TIL_GANG_MODE = 2 ∧ s.rd (R.TIL_GANG k) F.TIL_GANG_WIDTH = n % 2 ^ F.TIL_GANG_WIDTH.width

theorem showsGang_joinGang_same (n k : Nat) : (s.joinGang n k).showsGang n k :=
  ⟨(rd_wr_apart _ _ rfl rfl n).trans (rd_wr_same _ _ rfl 2), rd_wr_same _ _ rfl n⟩

theorem showsGang_joinGang_other {n i k : Nat} (hne : i ≠ k) (h : s.showsGang n i) : (s.joinGang n k).showsGang n i := by
  have hreg : R.TIL_GANG i ≠ R.TIL_GANG k := fun e => hne (TIL_GANG_injective e)
  simpa only [showsGang, joinGang, rd_wr_other _ hreg] using h

/-- Every tile of a gang shows it. -/
theorem showsGang_each_joinGang {l : List Nat} {i : Nat} (hi : i ∈ l) (n : Nat) : (s.each l (joinGang n)).showsGang n i := by
  refine each_of_mem s hi (fun v => v.showsGang_joinGang_same n i) fun v k _ hv => ?_
  by_cases hk : i = k
  · exact hk ▸ v.showsGang_joinGang_same n i
  · exact v.showsGang_joinGang_other hk hv

/-- A tile that is asked for a gang has left its last one, and has not granted (assumption 33). -/
theorem each_gangRequest {l : List Nat} {i : Nat} (hi : i ∈ l) :
    let t := s.each l fun v k => (v.resetReg (R.TIL_GANG k)).updTl k fun x => { x with gangAsked := true, gangGranted := false }
    (t.tl i).gangAsked = true ∧ (t.tl i).gangGranted = false ∧ t.reg (R.TIL_GANG i) = resetWord (R.TIL_GANG i) := by
  have hset : ∀ (v : State) (k : Nat), ((v.resetReg (R.TIL_GANG k)).updTl k fun x =>
      { x with gangAsked := true, gangGranted := false }).reg (R.TIL_GANG i) =
      if R.TIL_GANG i = R.TIL_GANG k then resetWord (R.TIL_GANG k) else v.reg (R.TIL_GANG i) := fun v k => reg_setReg ..
  refine each_of_mem s (p := fun v => (v.tl i).gangAsked = true ∧ (v.tl i).gangGranted = false ∧
    v.reg (R.TIL_GANG i) = resetWord (R.TIL_GANG i)) hi (fun v => ⟨by simp, by simp, (hset v i).trans (if_pos rfl)⟩)
    fun v k _ ⟨hasked, hnot, hreg⟩ => ?_
  rw [hset, tl_updTl]
  by_cases hk : i = k
  · subst hk
    simp
  · rw [if_neg hk, if_neg fun e => hk (TIL_GANG_injective e)]
    exact ⟨hasked, hnot, hreg⟩

/-- A gang's formation ends the request for every tile of the quadrant. -/
theorem gangAsked_formGang {q i : Nat} (hi : i ∈ s.quadTiles q) : ((s.formGang q).tl i).gangAsked = false := by
  unfold formGang
  rw [each_eq _ (·.tl i) fun v k _ => by rfl]
  refine each_of_mem s (p := fun v => (v.tl i).gangAsked = false) hi (fun v => by simp) fun v k _ hv => ?_
  rw [tl_updTl]
  split
  · rfl
  · exact hv

/-- The tiles that have granted form the gang, and its width is their number. -/
theorem rd_formGang {q i : Nat} (hi : i ∈ s.quadTiles q) (hgranted : (s.tl i).gangGranted = true) :
    (s.formGang q).rd (R.TIL_GANG i) F.TIL_GANG_MODE = 2 ∧
      (s.formGang q).rd (R.TIL_GANG i) F.TIL_GANG_WIDTH = ((s.quadTiles q).filter fun k => (s.tl k).gangGranted).length := by
  have hlt : ((s.quadTiles q).filter fun k => (s.tl k).gangGranted).length < 2 ^ F.TIL_GANG_WIDTH.width :=
    (List.length_filter_le ..).trans_lt (s.quadTiles_length_lt q)
  have hmem : i ∈ (s.quadTiles q).filter fun k => (s.tl k).gangGranted := List.mem_filter.mpr ⟨hi, hgranted⟩
  obtain ⟨hmode, hwidth⟩ := showsGang_each_joinGang (s.each (s.quadTiles q) fun v k => v.updTl k fun x =>
    { x with gangAsked := false, gangGranted := false }) hmem ((s.quadTiles q).filter fun k => (s.tl k).gangGranted).length
  exact ⟨hmode, hwidth.trans (Nat.mod_eq_of_lt hlt)⟩

/-- With the last grant every tile of the list has granted. -/
theorem gangGranted_grant {l : List Nat} {k : Nat} (h : ∀ i, i ∈ l → i ≠ k → (s.tl i).gangGranted = true) :
    ∀ i ∈ l, ((s.updTl k fun x => { x with gangGranted := true }).tl i).gangGranted = true := fun i hi => by
  by_cases hk : i = k
  · simp [hk]
  · simpa [hk] using h i hi hk

/-- The last grant forms a gang of the whole quadrant. -/
theorem formGang_grant {q k i : Nat} (h : ∀ i, i ∈ s.quadTiles q → i ≠ k → (s.tl i).gangGranted = true)
    (hi : i ∈ s.quadTiles q) :
    let t := (s.updTl k fun x => { x with gangGranted := true }).formGang q
    t.rd (R.TIL_GANG i) F.TIL_GANG_MODE = 2 ∧ t.rd (R.TIL_GANG i) F.TIL_GANG_WIDTH = (s.quadTiles q).length ∧
      (t.tl i).gangAsked = false := by
  have hall := s.gangGranted_grant h
  obtain ⟨hmode, hwidth⟩ := rd_formGang (s.updTl k fun x => { x with gangGranted := true }) hi (hall i hi)
  have hwhole : List.filter _ (s.quadTiles q) = s.quadTiles q := List.filter_eq_self.mpr hall
  exact ⟨hmode, hwidth.trans (congrArg List.length hwhole), gangAsked_formGang _ hi⟩

end State
end Sys2Proof.Machine
end

section
/-! PROOF. The rows RNG_TEST_WRITE, RNG_OUTPUT_READY, ACCESS_COMPLETE, CONTEXT_TIMEOUT, GANG_REQUEST, GANG_GRANT and GANG_GRANT_TIMEOUT
(R116, R128, R130, R131). -/
namespace Sys2Proof.Machine

section Rows
variable {s : State}

/-! ## RNG_TEST_WRITE and RNG_OUTPUT_READY -/

theorem exec_rngTestWrite (h : s.up) {k : TileId} (hen : s.tileDisabled k.val = false) (w : Fin 4) (v : Word) :
    exec (.rngTestWrite k w v) s =
      .next ((s.setReg (R.TIL_RNGIN k.val w.val) v).updTl k.val fun x => { x with rngPending := true }) := by
  have hexec : exec (.rngTestWrite k w v) s = .next (s.writeRngin k.val w.val v) :=
    congrArg Host.Outcome.next (State.inMain_of_up h _)
  rw [hexec, State.writeRngin, if_neg (by simp [hen])]

theorem exec_rngOutputReady (h : s.up) {k : TileId} (hpending : (s.tl k.val).rngPending = true) (hnone : (s.tl k.val).rngWaiting = 0) :
    exec (.rngOutputReady k) s = .next ((s.rngDone k.val).updTl k.val fun x => { x with rngWaiting := 0 }) := by
  have hexec : exec (.rngOutputReady k) s = .next _ := congrArg Host.Outcome.next (State.inMain_of_up h _)
  rw [hexec]
  simp [hpending, hnone]

/-! ## ACCESS_COMPLETE and CONTEXT_TIMEOUT -/

theorem exec_accessComplete (h : s.up) (k : TileId) (x : Nat) : exec (.accessComplete k x) s = .next (s.updTl k.val fun y =>
    { y with contexts := y.contexts.map fun c => if c.id = x then { c with parked := false } else c }) :=
  congrArg Host.Outcome.next (State.inMain_of_up h _)

section Timeout
variable {k : TileId} {c : Context} (h : s.up) (hone : (s.tl k.val).contexts = [c]) (hparked : c.parked = true)
include h hone hparked

theorem exec_contextTimeout_first (hfirst : c.restarted = false) : exec (.contextTimeout k c.id) s =
    .next ((s.updTl k.val fun x => { x with
      contexts := x.contexts.map fun y => if y.id = c.id then { y with restarted := true } else y }).restartUnit c) := by
  have hexec : exec (.contextTimeout k c.id) s = .next _ := congrArg Host.Outcome.next (State.inMain_of_up h _)
  rw [hexec, hone]
  simp [hparked, hfirst]

theorem exec_contextTimeout_second (hsecond : c.restarted = true) : exec (.contextTimeout k c.id) s =
    .next ((((s.updTl k.val fun x => { x with contexts := x.contexts.filter fun y => y.id != c.id }).inc (R.TIL_CTX k.val)
      F.TIL_CTX_TOUT).record
        ((((ev Sev.fault Src.til k.val).field (R.TIL_CTX k.val) F.TIL_CTX_TOUT).about c.unit).ofGlade c.glade)).abandonUnit c) := by
  have hexec : exec (.contextTimeout k c.id) s = .next _ := congrArg Host.Outcome.next (State.inMain_of_up h _)
  rw [hexec, hone]
  simp [hparked, hsecond]

end Timeout

/-! ## GANG_REQUEST, GANG_GRANT and GANG_GRANT_TIMEOUT -/

theorem exec_gangRequest (h : s.up) (q : QuadId) : exec (.gangRequest q) s = .next (s.each (s.quadTiles q.val) fun v k =>
    (v.resetReg (R.TIL_GANG k)).updTl k fun x => { x with gangAsked := true, gangGranted := false }) :=
  congrArg Host.Outcome.next (State.inMain_of_up h _)

section Grant
variable {k : TileId} (h : s.up) (hasked : (s.tl k.val).gangAsked = true)
include h hasked

theorem exec_gangGrant_waits {i : Nat} (hi : i ∈ s.quadTiles (k.val / 16)) (hne : i ≠ k.val) (hiasked : (s.tl i).gangAsked = true)
    (hnot : (s.tl i).gangGranted = false) :
    exec (.gangGrant k) s = .next (s.updTl k.val fun x => { x with gangGranted := true }) := by
  have hexec : exec (.gangGrant k) s = .next _ := congrArg Host.Outcome.next (State.inMain_of_up h _)
  rw [hexec, if_neg (by simp [hasked]), if_neg]
  intro hall
  have hgranted := List.all_eq_true.mp hall i hi
  simp [hne, hiasked, hnot] at hgranted

theorem exec_gangGrant_last (hothers : ∀ i, i ∈ s.quadTiles (k.val / 16) → i ≠ k.val → (s.tl i).gangGranted = true) :
    exec (.gangGrant k) s = .next ((s.updTl k.val fun x => { x with gangGranted := true }).formGang (k.val / 16)) := by
  have hexec : exec (.gangGrant k) s = .next _ := congrArg Host.Outcome.next (State.inMain_of_up h _)
  rw [hexec, if_neg (by simp [hasked]), if_pos]
  exact List.all_eq_true.mpr fun i hi => Bool.or_eq_true_iff.mpr (.inr (s.gangGranted_grant hothers i hi))

end Grant

theorem exec_gangGrantTimeout (h : s.up) {q : QuadId} {k : Nat} (hk : k ∈ s.quadTiles q.val) (hasked : (s.tl k).gangAsked = true) :
    exec (.gangGrantTimeout q) s = .next (s.formGang q.val) := by
  have hexec : exec (.gangGrantTimeout q) s = .next _ := congrArg Host.Outcome.next (State.inMain_of_up h _)
  rw [hexec, if_pos (List.any_eq_true.mpr ⟨k, hk, hasked⟩)]

end Rows

/-- Settles O29: each row by the state that it answers. -/
theorem tilesAndGangs : Obligations.TilesAndGangs := by
  unfold Obligations.TilesAndGangs
  refine ⟨fun s k w v h hen => ?_, fun s k h hpending hnone => ?_, fun s k x h => ?_, fun s k c h hone hparked hfirst hkind => ?_,
    fun s k c h hone hparked hsecond hkind => ?_, fun s q h => ?_, fun s k i h hasked hi hne hiasked hnot => ?_,
    fun s k h hasked hk hothers => ?_, fun s q k h hk hasked => ?_⟩
  · refine ⟨_, exec_rngTestWrite h hen w v, ?_, by simp, ?_, rfl⟩
    · exact (State.reg_setReg ..).trans (if_pos rfl)
    · exact ((State.sameRegsBut.refl _ s).setReg (by simp) v).of_regs (State.updTl_regs ..)
  · have hexec := exec_rngOutputReady h hpending hnone
    refine ⟨_, hexec, by simp [State.rngDone], ?_, (s.rngDone_regs k.val).of_regs (State.updTl_regs ..), exec_mem hexec rfl⟩
    rw [State.reg_congr (State.updTl_regs ..), State.reg_congr (State.updTl_regs ..), State.reg_rngDone, State.rngOut]
  · exact ⟨_, exec_accessComplete h k x, by simp, rfl, rfl⟩
  · obtain ⟨m, hsends⟩ := State.restartUnit_sends (s.updTl k.val fun x => { x with
      contexts := x.contexts.map fun y => if y.id = c.id then { y with restarted := true } else y }) hkind
    refine ⟨_, exec_contextTimeout_first h hone hparked hfirst, ?_⟩
    rw [hsends]
    refine ⟨?_, rfl, rfl, rfl⟩
    have htile : ∀ v : State, State.tl { v with sent := v.sent ++ m } k.val = v.tl k.val := fun _ => rfl
    rw [htile]
    simp [hone]
  · have hlost : R.TIL_CTX k.val ≠ R.EVR_LOST := by unfold R.TIL_CTX R.EVR_LOST; omega
    refine ⟨_, exec_contextTimeout_second h hone hparked hsecond, ?_⟩
    simp only [State.abandonUnit, hkind]
    refine ⟨?_, ?_, ?_, ?_⟩
    · rw [State.tl_record, State.tl_inc, State.tl_updTl, if_pos rfl]
      simp [hone]
    · rw [State.rd_record _ _ hlost, State.rd_inc_same _ _ rfl]
      rfl
    · exact (((State.sameRegsBut.refl _ s).of_regs (State.updTl_regs ..)).inc (by simp) _).record (by simp) _
    · rw [State.record_mem]
      rfl
  · have hexec := exec_gangRequest h q
    refine ⟨_, hexec, fun k hk => s.each_gangRequest hk, fun k hk => ?_, exec_mem hexec rfl⟩
    refine State.each_eq s (·.tl k) fun v i hi => ?_
    have hne : k ≠ i := fun e => hk (e ▸ hi)
    rw [State.tl_updTl, if_neg hne]
    rfl
  · exact ⟨_, exec_gangGrant_waits h hasked hi hne hiasked hnot, by simp, rfl, rfl⟩
  · have hexec := exec_gangGrant_last h hasked hothers
    exact ⟨_, hexec, fun i hi => s.formGang_grant hothers hi, exec_mem hexec rfl⟩
  · have hexec := exec_gangGrantTimeout h hk hasked
    exact ⟨_, hexec, fun i hi => ⟨s.gangAsked_formGang hi, s.rd_formGang hi⟩, exec_mem hexec rfl⟩

end Sys2Proof.Machine
end

section
/-! PROOF. The special cases of lane arithmetic (R117): what number an encoding spells, the NaN that an operation gives, and the
operations on numbers. -/
namespace Sys2Proof.Machine

/-! ## The number that an encoding spells -/

/-- The fields of a binary32 encoding and what they spell. -/
theorem b32_num (x : Nat) : b32.num x =
    if x % 2 ^ 31 / 2 ^ 23 = 255 then
      if x % 2 ^ 31 % 2 ^ 23 = 0 then .inf (x.testBit 31) else .nan (x.testBit 31) (x % 2 ^ 31) (!(x % 2 ^ 31).testBit 22)
    else if x % 2 ^ 31 / 2 ^ 23 = 0 then .fin (x.testBit 31) (x % 2 ^ 31 % 2 ^ 23) b32.qmin
    else .fin (x.testBit 31) (2 ^ 23 + x % 2 ^ 31 % 2 ^ 23) (b32.qmin + (x % 2 ^ 31 / 2 ^ 23 : Nat) - 1) := by
  simp only [Fmt.num, bitAt_eq_testBit]
  rfl

theorem b32_num_of_nan {x : Nat} (h : 0x7F800000 < x % 2 ^ 31) :
    b32.num x = .nan (x.testBit 31) (x % 2 ^ 31) (!x.testBit 22) := by
  have hquiet : (x % 2 ^ 31).testBit 22 = x.testBit 22 := by rw [Nat.testBit_mod_two_pow, decide_eq_true (by decide), Bool.true_and]
  rw [b32_num, if_pos (by omega), if_neg (by omega), hquiet]

theorem b32_num_of_inf {x : Nat} (h : x % 2 ^ 31 = 0x7F800000) : b32.num x = .inf (x.testBit 31) := by
  rw [b32_num, if_pos (by omega), if_pos (by omega)]

/-- Below the infinities an encoding spells a finite value, which is zero for the zeros alone. -/
theorem b32_num_of_fin {x : Nat} (h : x % 2 ^ 31 < 0x7F800000) :
    ∃ m e, b32.num x = .fin (x.testBit 31) m e ∧ (m = 0 ↔ x % 2 ^ 31 = 0) := by
  rw [b32_num, if_neg (by omega)]
  by_cases hsub : x % 2 ^ 31 / 2 ^ 23 = 0
  · exact ⟨_, _, if_pos hsub, by omega⟩
  · exact ⟨_, _, if_neg hsub, by omega⟩

theorem b32_isSnan_of_number {x : Nat} (h : x % 2 ^ 31 ≤ 0x7F800000) : b32.isSnan x = false := by
  obtain hinf | hfin := h.eq_or_lt
  · rw [Fmt.isSnan, b32_num_of_inf hinf]
  · obtain ⟨m, e, hnum, -⟩ := b32_num_of_fin hfin
    rw [Fmt.isSnan, hnum]

theorem b32_isSnan_iff (x : Nat) : b32.isSnan x = true ↔ 0x7F800000 < x % 2 ^ 31 ∧ x.testBit 22 = false := by
  by_cases h : 0x7F800000 < x % 2 ^ 31
  · rw [Fmt.isSnan, b32_num_of_nan h]
    simpa using fun _ => h
  · rw [b32_isSnan_of_number (Nat.le_of_not_lt h)]
    exact ⟨fun hfalse => absurd hfalse (by decide), fun hnan => absurd hnan.1 h⟩

/-! ## NaN operands -/

theorem b32_sign_testBit {x : Nat} (hx : x < 2 ^ 32) : b32.sign (x.testBit 31) = 2 ^ 31 * (x / 2 ^ 31) := by
  obtain hq | hq : x / 2 ^ 31 = 0 ∨ x / 2 ^ 31 = 1 := by omega
  all_goals
    rw [Nat.testBit_eq_decide_div_mod_eq, hq]
    rfl

/-- A NaN made quiet is the NaN with bit 22 set. -/
theorem b32_quiet {x : Nat} (hx : x < 2 ^ 32) : b32.quiet (x.testBit 31) (x % 2 ^ 31) = x ||| 2 ^ 22 := by
  have hlt : x % 2 ^ 31 < 2 ^ 31 := Nat.mod_lt _ (by decide)
  calc b32.quiet (x.testBit 31) (x % 2 ^ 31) = 2 ^ 31 * (x / 2 ^ 31) + (x % 2 ^ 31 ||| 2 ^ 22) := by
        rw [Fmt.quiet, b32_sign_testBit hx]
        rfl
    _ = (2 ^ 31 * (x / 2 ^ 31) ||| x % 2 ^ 31) ||| 2 ^ 22 := by
        rw [Nat.two_pow_add_eq_or_of_lt (Nat.or_lt_two_pow hlt (by decide)), Nat.or_assoc]
    _ = x ||| 2 ^ 22 := by rw [← Nat.two_pow_add_eq_or_of_lt hlt, Nat.div_add_mod]

theorem b32_firstNan_of_nan {x : Nat} (hx : x < 2 ^ 32) (h : 0x7F800000 < x % 2 ^ 31) (l : List Nat) :
    b32.firstNan (x :: l) = some (x ||| 2 ^ 22, excIf ((x :: l).any b32.isSnan) Exc.iv) := by
  rw [Fmt.firstNan, List.findSome?_cons, b32_num_of_nan h]
  simp only [Option.map_some, b32_quiet hx]

/-- An operand that is no NaN is passed over. -/
theorem b32_firstNan_of_number {x : Nat} (h : x % 2 ^ 31 ≤ 0x7F800000) (l : List Nat) :
    b32.firstNan (x :: l) = b32.firstNan l := by
  rw [Fmt.firstNan, List.findSome?_cons, List.any_cons, b32_isSnan_of_number h]
  obtain hinf | hfin := h.eq_or_lt
  · rw [b32_num_of_inf hinf]
    rfl
  · obtain ⟨m, e, hnum, -⟩ := b32_num_of_fin hfin
    rw [hnum]
    rfl

/-- Each operation of two operands gives the first NaN among them. -/
theorem b32_op_of_firstNan {f : Nat → Nat → Nat × Exc} (hf : f ∈ [b32.add, b32.sub, b32.mul, b32.div, b32.maxOp, b32.minOp])
    {a b : Nat} {r : Nat × Exc} (h : b32.firstNan [a, b] = some r) : f a b = r := by
  simp only [List.mem_cons, List.not_mem_nil, or_false] at hf
  obtain rfl | rfl | rfl | rfl | rfl | rfl := hf
  · rw [Fmt.add, h, Option.getD_some]
  · rw [Fmt.sub, h, Option.getD_some]
  · rw [Fmt.mul, h, Option.getD_some]
  · rw [Fmt.div, h, Option.getD_some]
  · rw [Fmt.maxOp, h, Option.getD_some]
  · rw [Fmt.minOp, h, Option.getD_some]

/-! ## Numbers -/

theorem Fmt.sumFin_comm (f : Fmt) (n1 : Bool) (m1 : Nat) (e1 : Int) (n2 : Bool) (m2 : Nat) (e2 : Int) :
    f.sumFin n1 m1 e1 n2 m2 e2 = f.sumFin n2 m2 e2 n1 m1 e1 := by
  simp only [sumFin, min_comm e1, Bool.and_comm n1, Int.add_comm (signed n1 _)]

theorem Num.mul_fin_comm (n1 : Bool) (m1 : Nat) (e1 : Int) (n2 : Bool) (m2 : Nat) (e2 : Int) :
    Num.mul (.fin n1 m1 e1) (.fin n2 m2 e2) = Num.mul (.fin n2 m2 e2) (.fin n1 m1 e1) := by
  simp only [mul, bne_comm (a := n1), Nat.mul_comm m1, Int.add_comm e1]

section Finite
variable {a b : Nat} (ha : a % 2 ^ 31 < 0x7F800000) (hb : b % 2 ^ 31 < 0x7F800000)
include ha hb

theorem b32_firstNan_finite : b32.firstNan [a, b] = none := by
  rw [b32_firstNan_of_number ha.le, b32_firstNan_of_number hb.le]
  rfl

theorem b32_add_comm : b32.add a b = b32.add b a := by
  obtain ⟨m, e, hnuma, -⟩ := b32_num_of_fin ha
  obtain ⟨n, k, hnumb, -⟩ := b32_num_of_fin hb
  rw [Fmt.add, Fmt.add, b32_firstNan_finite ha hb, b32_firstNan_finite hb ha, hnuma, hnumb]
  exact Fmt.sumFin_comm ..

theorem b32_mul_comm : b32.mul a b = b32.mul b a := by
  obtain ⟨m, e, hnuma, -⟩ := b32_num_of_fin ha
  obtain ⟨n, k, hnumb, -⟩ := b32_num_of_fin hb
  rw [Fmt.mul, Fmt.mul, b32_firstNan_finite ha hb, b32_firstNan_finite hb ha, hnuma, hnumb, Num.mul_fin_comm]

end Finite

/-- A non-zero finite value divided by a zero is an infinity, with DZ. -/
theorem b32_div_zero {a b : Nat} (hpos : 0 < a % 2 ^ 31) (ha : a % 2 ^ 31 < 0x7F800000) (hb : b % 2 ^ 31 = 0) :
    b32.div a b = (b32.sign (a.testBit 31 != b.testBit 31) + b32.inf, Exc.dz) := by
  have hfinite : b % 2 ^ 31 < 0x7F800000 := by omega
  obtain ⟨m, e, hnuma, hm⟩ := b32_num_of_fin ha
  obtain ⟨n, k, hnumb, hn⟩ := b32_num_of_fin hfinite
  rw [Fmt.div, b32_firstNan_finite ha hfinite, hnuma, hnumb]
  simp [hn.mpr hb, show m ≠ 0 from fun e => hpos.ne' (hm.mp e)]

/-- The infinity whose sign is that of the product of two values. -/
theorem b32_inf_of_signs (a b : BitVec 32) : (0x7F800000 ||| ((a ^^^ b) &&& 0x80000000)).toNat =
    b32.sign (a.toNat.testBit 31 != b.toNat.testBit 31) + b32.inf := by
  have hsign : (a ^^^ b) &&& 0x80000000 = if (a ^^^ b).getLsbD 31 then BitVec.twoPow 32 31 else 0#32 :=
    BitVec.and_twoPow (a ^^^ b) 31
  rw [hsign, BitVec.getLsbD_xor, BitVec.testBit_toNat, BitVec.testBit_toNat]
  cases a.getLsbD 31 <;> cases b.getLsbD 31 <;> rfl

/-- 0 × ∞ and ∞ / ∞ of every sign give the default NaN, with IV. -/
theorem b32_mul_div_invalid : ∀ z ∈ [0, 0x80000000], ∀ y ∈ [0x7F800000, 0xFF800000],
    b32.mul z y = (0x7FC00000, Exc.iv) ∧ b32.mul y z = (0x7FC00000, Exc.iv) ∧ b32.div y y = (0x7FC00000, Exc.iv) := by
  decide +kernel

/-- Settles O21: the first NaN, the invalid operations, the division by zero, and the order of the zeros. -/
theorem laneSpecialCases : Obligations.LaneSpecialCases := by
  unfold Obligations.LaneSpecialCases
  refine ⟨fun f a b hf ha => ?_, fun f a b hf ha hb => ?_, fun a => b32_isSnan_iff a.toNat, by decide +kernel, by decide +kernel,
    fun z y hz hy => b32_mul_div_invalid z hz y hy, fun a b hpos ha hb => ?_,
    fun a b ha hb => ⟨b32_add_comm ha hb, b32_mul_comm ha hb⟩, by decide +kernel⟩
  · rw [b32_op_of_firstNan hf (b32_firstNan_of_nan a.isLt ha [b.toNat]), BitVec.toNat_or]
    simp [excIf]
  · rw [b32_op_of_firstNan hf ((b32_firstNan_of_number ha _).trans (b32_firstNan_of_nan b.isLt hb [])), BitVec.toNat_or]
    simp [excIf]
  · rw [b32_div_zero hpos ha hb, b32_inf_of_signs]

end Sys2Proof.Machine
end

section
/-! PROOF. The descriptor that a row runs on (R141 to R143): it is found, its effect is marked as done or its queue is halted, and its
source is read where the ports serve it. -/
namespace Sys2Proof.Machine

theorem putAll_cons (w : Word) (x : Fld × Nat) (l : List (Fld × Nat)) : putAll w (x :: l) = putAll (fput w x.1 x.2) l := rfl

/-- Fields apart from a field leave it as it was. -/
theorem fget_putAll_apart (w : Word) {l : List (Fld × Nat)} {f : Fld} (hf : f.ok = true) (hl : l.all (·.1.apart f) = true) :
    fget (putAll w l) f = fget w f := by
  induction l generalizing w with
  | nil => rfl
  | cons x r ih =>
    rw [List.all_cons, Bool.and_eq_true] at hl
    rw [putAll_cons, ih _ hl.2, fget_fput_apart _ _ _ _ hl.1 hf]

theorem fget_putAll_cons (w : Word) (n : Nat) {l : List (Fld × Nat)} {f : Fld} (hf : f.ok = true) (hl : l.all (·.1.apart f) = true) :
    fget (putAll w ((f, n) :: l)) f = n % 2 ^ f.width := by
  rw [putAll_cons, fget_putAll_apart _ hf hl, fget_fput_same _ _ _ hf]

theorem Desc.glade_lt (d : Desc) : d.glade < 16 := Nat.mod_lt _ (by decide)

namespace State
variable {s t : State} {q : Nat} {d : Desc}

/-! ## The running descriptor -/

/-- MAIN runs and a queue's only descriptor is a started one of an operation, whose effect is not done yet. -/
structure RunsOp (s : State) (q : Nat) (d : Desc) (op : Nat) : Prop where
  up : s.up
  descs : (s.qu q).descs = [d]
  started : d.started = true
  uncompleted : d.completed = false
  undone : d.done = false
  op : d.op = op

theorem runningDesc_single (hdescs : (s.qu q).descs = [d]) (hstarted : d.started = true) (hopen : d.completed = false) :
    s.runningDesc q d.index = some d := by
  rw [runningDesc, hdescs]
  exact List.find?_cons_of_pos (by simp [hstarted, hopen])

/-- A row of an operation runs on the descriptor. -/
theorem RunsOp.inMain {op : Nat} (h : s.RunsOp q d op) (f : State → Desc → State) :
    (s.inMain fun s => s.runOp q d.index op f) = f s d := by
  rw [inMain_of_up h.up, runOp, runningDesc_single h.descs h.started h.uncompleted]
  exact if_pos ⟨h.op, h.undone⟩

theorem descs_updDesc_single (hdescs : (s.qu q).descs = [d]) (f : Desc → Desc) :
    ((s.updDesc q d.index f).qu q).descs = [f d] := by
  simp [updDesc, hdescs, mapFirst]

theorem descs_descDone (hdescs : (s.qu q).descs = [d]) : ((s.descDone q d.index).qu q).descs = [{ d with done := true }] :=
  descs_updDesc_single hdescs _

theorem descDone_sent (s : State) (q i : Nat) : (s.descDone q i).sent = s.sent := rfl

theorem qu_congr (h : t.queues = s.queues) (q : Nat) : t.qu q = s.qu q := by rw [qu, qu, h]

/-! ## A halted queue (R137, R143) -/

theorem cqQstat_ne_cqStatus (q : Nat) : R.CQ_QSTAT q ≠ R.CQ_STATUS := by
  unfold R.CQ_QSTAT R.CQ_STATUS
  omega

theorem haltDesc_regs (s : State) (q : Nat) (d : Desc) (code : Nat) :
    s.sameRegsBut [R.CQ_QSTAT q, R.CQ_STATUS] (s.haltDesc q d code) :=
  (((sameRegsBut.refl _ s).of_regs (updQu_regs ..)).setReg (by simp) _).wr (by simp) _ _

/-- A descriptor that halts its queue shows STATE 3 and the code. -/
theorem haltDesc_status (s : State) (q : Nat) (d : Desc) (code : Nat) : (s.haltDesc q d code).halted q = true ∧
    (s.haltDesc q d code).rd (R.CQ_QSTAT q) F.CQ_QSTAT_CODE = code % 2 ^ F.CQ_QSTAT_CODE.width := by
  have hreg : ∀ f, (s.haltDesc q d code).rd (R.CQ_QSTAT q) f = fget (putAll ((s.updDesc q d.index fun d =>
      { d with started := false, done := false }).reg (R.CQ_QSTAT q)) [(F.CQ_QSTAT_STATE, 3), (F.CQ_QSTAT_CODE, code),
        (F.CQ_QSTAT_HEAD, d.index), (F.CQ_QSTAT_TAG, d.tag)]) f := fun f => by
    rw [haltDesc, haltQueue, setMask, rd_wr_other _ (cqQstat_ne_cqStatus q), rd, reg_setReg, if_pos rfl]
  constructor
  · exact congrArg (· == 3) ((hreg _).trans (fget_putAll_cons _ _ rfl rfl))
  · exact (hreg _).trans (fget_putAll_cons (fput _ F.CQ_QSTAT_STATE 3) code rfl rfl)

/-! ## Reading the source and storing the result (R141, R453) -/

/-- The read of a descriptor's source, charged to class 4. -/
def chargeSrc (s : State) (d : Desc) : State := s.charge 4 (linesIn d.src d.count) 0 (d.count / 32)

theorem chargeSrc_regs (s : State) (d : Desc) : s.sameRegsBut [R.BGT_USE 4] (s.chargeSrc d) :=
  charge_regs s 4 _ _ _

theorem chargeSrc_mem (s : State) (d : Desc) : (s.chargeSrc d).mem = s.mem := charge_mem ..

theorem charge_queues (s : State) (c rd wr blk : Nat) : (s.charge c rd wr blk).queues = s.queues := by
  obtain ⟨r, b, h⟩ := charge_fields s c rd wr blk
  rw [h]

theorem charge_sent (s : State) (c rd wr blk : Nat) : (s.charge c rd wr blk).sent = s.sent := by
  obtain ⟨r, b, h⟩ := charge_fields s c rd wr blk
  rw [h]

theorem chargeSrc_queues (s : State) (d : Desc) : (s.chargeSrc d).queues = s.queues := charge_queues ..

theorem withSrc_of_served (hcount : d.count ≠ 0) (hserved : s.served d.src d.count = true) (f : State → List Byte → State) :
    s.withSrc q d f = (f (s.chargeSrc d) (s.readBytes d.src d.count)).descDone q d.index := by
  rw [withSrc, if_neg hcount, if_neg (by simp [hserved])]
  rfl

theorem served_of_bgtUse (h : s.sameRegsBut [R.BGT_USE 4] t) (o n : Nat) : t.served o n = s.served o n :=
  (h.sameLayout (by simp [R.BGT_USE])).served o n

theorem putDst_sent (s : State) (o : Nat) (l : List Byte) : (s.putDst o l).sent = s.sent := (charge_sent ..).trans (store_sent ..)

/-- A result that the ports serve changes memory as its bytes say, and no queue. -/
theorem putDst_of_served {o : Nat} {l : List Byte} (h : s.served o l.length = true) :
    (s.putDst o l).queues = s.queues ∧ (s.putDst o l).mem = (s.writeBytes o l).mem := by
  obtain ⟨m, hm⟩ := writeBytes_fields s o l
  rw [putDst, store_of_served s h, charge_queues, charge_mem]
  exact ⟨by rw [hm], rfl⟩

/-- What a row leaves that stores bytes and is done: its descriptor is marked, and exactly the bytes have changed. -/
structure DoneStoring (s : State) (q : Nat) (d : Desc) (o : Nat) (l : List Byte) (t : State) : Prop where
  descs : (t.qu q).descs = [{ d with done := true }]
  stores : s.stores o l t

/-- A result that the ports serve is stored whole. -/
theorem putDst_done {o : Nat} {l : List Byte} (hdescs : (s.qu q).descs = [d]) (hqueues : t.queues = s.queues) (hmem : t.mem = s.mem)
    (hserved : t.served o l.length = true) : DoneStoring s q d o l ((t.putDst o l).descDone q d.index) := by
  obtain ⟨hq, hm⟩ := putDst_of_served hserved
  have hbyte : ∀ a, ((t.putDst o l).descDone q d.index).readByte a = (t.writeBytes o l).readByte a := fun a =>
    congrArg (sget memDefault · a) hm
  refine ⟨descs_descDone ?_, fun i hi => ?_, fun a ha => ?_⟩
  · rw [qu_congr (hq.trans hqueues), hdescs]
  · rw [hbyte, readByte_writeBytes_in t o i l hi, List.getD_eq_getElem _ _ hi]
  · rw [hbyte, readByte_writeBytes_out t o a l ha, readByte, hmem, readByte]

end State
end Sys2Proof.Machine
end

section
/-! PROOF. The rows DESC_NOP, DESC_ALLREDUCE, DESC_REDUCESCATTER, DESC_ALLGATHER, DESC_BROADCAST and DESC_PERMUTE (R141, R143, R147). -/
namespace Sys2Proof.Machine

namespace State
variable {s t : State} {d : Desc}

/-! ## The sum (R146 to R148, R151) -/

section Congr
variable (h : s.sameRegsBut [R.BGT_USE 4] t)
include h

/-- The registers of the glades and of the command queues tell the members and the algorithm. -/
theorem rd_of_bgtUse {a : Nat} (ha : a < 0x1C0000) (f : Fld) : t.rd a f = s.rd a f := h.rd (by
  simp only [List.mem_singleton, R.BGT_USE]
  omega) f

theorem members_of_bgtUse (d : Desc) : t.members d.glade = s.members d.glade := by
  have hlt := d.glade_lt
  rw [members, rd_of_bgtUse h (by unfold R.GLD_MEMBER; omega), members]

theorem lmn_of_bgtUse (d : Desc) : t.lmn d.glade = s.lmn d.glade := by
  have hlt := d.glade_lt
  exact rd_of_bgtUse h (by unfold R.GLD_MEMBER; omega) _

theorem sumAll_of_bgtUse (d : Desc) (own : List F32) (o : List (List F32)) : t.sumAll d own o = s.sumAll d own o := by
  have hlt := d.glade_lt
  have hdense : t.dense d.glade = s.dense d.glade := by
    rw [dense, on, rd_of_bgtUse h (by unfold R.CQ_GSHAPE; omega), ← on, ← dense]
  have hrule : t.rd R.CQ_ALGO = s.rd R.CQ_ALGO := funext (rd_of_bgtUse h (by decide))
  have halgo : t.algoOf d = s.algoOf d := by
    unfold algoOf
    rw [hdense, hrule, members_of_bgtUse h]
  simp only [sumAll, halgo, members_of_bgtUse h, lmn_of_bgtUse h]

end Congr

theorem homeTile_lt (s : State) (x : Nat) : s.homeTile x < 64 := by
  rw [homeTile, List.getD_eq_getElem?_getD]
  cases hx : s.tilesUp[x % max 1 s.tilesUp.length]? with
  | none => exact Nat.zero_lt_succ _
  | some k => exact List.mem_range.mp (List.mem_of_mem_filter (List.mem_of_getElem? hx))

theorem served_raiseExc {k : Nat} (hk : k < 64) (e : Exc) (o n : Nat) : (s.raiseExc k e).served o n = s.served o n :=
  (((sameRegsBut.refl [R.TIL_EXC k] s).setReg (by simp) _).sameLayout (by
    simp only [List.mem_singleton, forall_eq, R.TIL_EXC]
    omega)).served o n

/-- The sum of the served sources, or a segment of it, is stored and its exceptions are raised at tile 0's home (R117, R141). -/
theorem putSum_done {q : Nat} {r : SumX} (hdescs : (s.qu q).descs = [d]) (hserved : s.served d.dst (f32Bytes r.1).length = true) :
    DoneStoring s q d d.dst (f32Bytes r.1)
      ((((s.chargeSrc d).raiseExc ((s.chargeSrc d).homeTile 0) r.2).putDst d.dst (f32Bytes r.1)).descDone q d.index) := by
  refine putDst_done hdescs (chargeSrc_queues s d) (chargeSrc_mem s d) ?_
  rw [served_raiseExc (homeTile_lt ..), served_of_bgtUse (chargeSrc_regs s d), hserved]

/-- This member's segment of a buffer (R141). -/
def reduceSegment (s : State) (d : Desc) (v : List F32) : List F32 :=
  (v.drop (s.lmn d.glade * (d.count / 4) / s.members d.glade)).take
    ((s.lmn d.glade + 1) * (d.count / 4) / s.members d.glade - s.lmn d.glade * (d.count / 4) / s.members d.glade)

end State

/-! ## The rows -/

section Rows
variable {s : State} {q : QueueId} {d : Desc}

theorem exec_descNop (h : s.RunsOp q.val d 0) : exec (.descNop q d.index) s = .next (s.descDone q.val d.index) :=
  congrArg Host.Outcome.next (h.inMain _)

/-- Buffers that do not fit halt the queue with CODE 3 (R143). -/
theorem exec_descAllreduce_unmatched {o : List (List F32)} (h : s.RunsOp q.val d 1) (hfit : s.matched d (d.count / 4) o = false) :
    exec (.descAllreduce q d.index o) s = .next (s.haltDesc q.val d 3) :=
  congrArg Host.Outcome.next ((h.inMain _).trans (if_pos (by simp [hfit])))

section Served
variable (hcount : d.count ≠ 0) (hsrc : s.served d.src d.count = true)
include hcount hsrc

theorem exec_descAllreduce {o : List (List F32)} (h : s.RunsOp q.val d 1) (hfit : s.matched d (d.count / 4) o = true)
    (hdst : s.served d.dst (f32Bytes (s.sumAll d (f32s (s.readBytes d.src d.count)) o).1).length = true) :
    ∃ t, exec (.descAllreduce q d.index o) s = .next t ∧
      s.DoneStoring q.val d d.dst (f32Bytes (s.sumAll d (f32s (s.readBytes d.src d.count)) o).1) t := by
  refine ⟨_, congrArg Host.Outcome.next (h.inMain _), ?_⟩
  rw [State.allreduce, if_neg (by simp [hfit]), State.withSrc_of_served hcount hsrc]
  dsimp only
  rw [State.sumAll_of_bgtUse (State.chargeSrc_regs s d)]
  exact State.putSum_done h.descs hdst

theorem exec_descReducescatter {o : List (List F32)} (h : s.RunsOp q.val d 2) (hfit : s.matched d (d.count / 4) o = true)
    (hdst : s.served d.dst (f32Bytes (s.sumAll d (s.reduceSegment d (f32s (s.readBytes d.src d.count)))
      (o.map (s.reduceSegment d))).1).length = true) :
    ∃ t, exec (.descReducescatter q d.index o) s = .next t ∧ s.DoneStoring q.val d d.dst
      (f32Bytes (s.sumAll d (s.reduceSegment d (f32s (s.readBytes d.src d.count))) (o.map (s.reduceSegment d))).1) t := by
  refine ⟨_, congrArg Host.Outcome.next (h.inMain _), ?_⟩
  have hregs := State.chargeSrc_regs s d
  rw [State.reducescatter, if_neg (by simp [hfit]), State.withSrc_of_served hcount hsrc]
  dsimp only
  rw [State.sumAll_of_bgtUse hregs, State.members_of_bgtUse hregs, State.lmn_of_bgtUse hregs]
  exact State.putSum_done h.descs hdst

theorem exec_descAllgather {o : List (List Byte)} {l : List Byte} (h : s.RunsOp q.val d 3) (hfit : s.matched d d.count o = true)
    (hl : l = ((List.range (s.members d.glade)).map (byLmn (s.lmn d.glade) (s.readBytes d.src d.count) o)).flatten)
    (hdst : s.served d.dst l.length = true) :
    ∃ t, exec (.descAllgather q d.index o) s = .next t ∧ s.DoneStoring q.val d d.dst l t := by
  refine ⟨_, congrArg Host.Outcome.next (h.inMain _), ?_⟩
  have hregs := State.chargeSrc_regs s d
  rw [State.allgather, if_neg (by simp [hfit]), State.withSrc_of_served hcount hsrc]
  dsimp only
  rw [State.members_of_bgtUse hregs, State.lmn_of_bgtUse hregs, ← hl]
  refine State.putDst_done h.descs (State.chargeSrc_queues s d) (State.chargeSrc_mem s d) ?_
  rw [State.served_of_bgtUse hregs, hdst]

/-- What the member that names this one has sent is stored, and the source goes to the peer (R141). -/
theorem exec_descPermute {o : Nat} {l : List Byte} (h : s.RunsOp q.val d 6) (hdst : s.served o l.length = true) :
    ∃ t, exec (.descPermute q d.index (some (o, l))) s = .next t ∧ s.DoneStoring q.val d o l t ∧
      .toMember d.glade d.peer "PERMUTE" [d.glade, d.cid, d.dst] (s.readBytes d.src d.count) ∈ t.sent := by
  refine ⟨_, congrArg Host.Outcome.next (h.inMain _), ?_⟩
  rw [State.permute, State.withSrc_of_served hcount hsrc]
  dsimp only
  refine ⟨State.putDst_done h.descs (State.chargeSrc_queues s d) (State.chargeSrc_mem s d) ?_, ?_⟩
  · exact (State.served_of_bgtUse ((State.chargeSrc_regs s d).of_regs (State.send_regs ..)) _ _).trans hdst
  · have hsent : ∀ u : State, ((u.putDst o l).descDone q.val d.index).sent = u.sent := fun u => State.putDst_sent u o l
    rw [hsent, State.toMember, State.send]
    exact List.mem_append_right _ (List.mem_singleton_self _)

end Served

theorem exec_descBroadcast {l : List Byte} (h : s.RunsOp q.val d 4) (hroot : s.lmn d.glade ≠ d.root) (hcount : d.count ≠ 0)
    (hlen : l.length = d.count) (hdst : s.served d.dst l.length = true) :
    ∃ t, exec (.descBroadcast q d.index l) s = .next t ∧ s.DoneStoring q.val d d.dst l t := by
  refine ⟨_, congrArg Host.Outcome.next (h.inMain _), ?_⟩
  rw [State.broadcast, if_neg hroot, if_neg hcount, if_neg (by simp [hlen])]
  exact State.putDst_done h.descs rfl rfl hdst

end Rows

/-- Settles O31: each row by the state that it answers. -/
theorem collectiveData : Obligations.CollectiveData := by
  unfold Obligations.CollectiveData
  refine ⟨fun s q d h hdescs hstarted hopen hdone hop => ?_,
    fun s q d o l h hdescs hstarted hopen hdone hop hfit hcount hsrc hl hdst => ?_,
    fun s q d o h hdescs hstarted hopen hdone hop hfit => ?_,
    fun s q d o lo hi l h hdescs hstarted hopen hdone hop hfit hcount hsrc hlo hhi hl hdst => ?_,
    fun s q d o l h hdescs hstarted hopen hdone hop hfit hcount hsrc hl hdst => ?_,
    fun s q d l h hdescs hstarted hopen hdone hop hroot hcount hlen hdst => ?_,
    fun s q d o l h hdescs hstarted hopen hdone hop hcount hsrc hdst => ?_⟩
  · exact ⟨_, exec_descNop ⟨h, hdescs, hstarted, hopen, hdone, hop⟩, State.descs_descDone hdescs, rfl, rfl⟩
  · subst hl
    obtain ⟨t, hexec, hend⟩ := exec_descAllreduce hcount hsrc ⟨h, hdescs, hstarted, hopen, hdone, hop⟩ hfit hdst
    exact ⟨t, hexec, hend.descs, hend.stores⟩
  · obtain ⟨hhalted, hcode⟩ := State.haltDesc_status s q.val d 3
    exact ⟨_, exec_descAllreduce_unmatched ⟨h, hdescs, hstarted, hopen, hdone, hop⟩ hfit, hhalted, hcode,
      State.haltDesc_regs s q.val d 3, rfl⟩
  · subst hlo hhi hl
    obtain ⟨t, hexec, hend⟩ := exec_descReducescatter hcount hsrc ⟨h, hdescs, hstarted, hopen, hdone, hop⟩ hfit hdst
    exact ⟨t, hexec, hend.descs, hend.stores⟩
  · obtain ⟨t, hexec, hend⟩ := exec_descAllgather hcount hsrc ⟨h, hdescs, hstarted, hopen, hdone, hop⟩ hfit hl hdst
    exact ⟨t, hexec, hend.descs, hend.stores⟩
  · obtain ⟨t, hexec, hend⟩ := exec_descBroadcast ⟨h, hdescs, hstarted, hopen, hdone, hop⟩ hroot hcount hlen hdst
    exact ⟨t, hexec, hend.descs, hend.stores⟩
  · obtain ⟨t, hexec, hend, hsent⟩ := exec_descPermute hcount hsrc ⟨h, hdescs, hstarted, hopen, hdone, hop⟩ hdst
    exact ⟨t, hexec, hend.descs, hend.stores, hsent⟩

end Sys2Proof.Machine
end

section
/-! PROOF. What a row only sends (assumption 4), and the blocks, ready notices and counts of an RSGRAD (R144, R145, R150). -/
namespace Sys2Proof.Machine

namespace State
variable {s t u : State} {g : Nat}

/-! ## Sending for each element of a list -/

/-- Where the change for each element only sends, and sends the same whatever was sent before, all of them together send it in order. -/
theorem each_eq_sent {α : Type} {f : State → α → State} {m : α → List Sent} (s : State)
    (hf : ∀ (l : List Sent) (x : α), f { s with sent := l } x = { s with sent := l ++ m x }) (xs : List α) :
    s.each xs f = { s with sent := s.sent ++ xs.flatMap m } := by
  have hall : ∀ l : List Sent, State.each { s with sent := l } xs f = { s with sent := l ++ xs.flatMap m } := by
    unfold each
    induction xs with
    | nil => simp
    | cons x r ih =>
      intro l
      rw [List.foldl_cons, hf, ih, List.flatMap_cons, List.append_assoc]
  exact hall s.sent

/-! ## Multicast (R150) -/

/-- A run of a multicast as it leaves this node. -/
def mcastRun (s : State) (d : Desc) (r : Nat × List Byte) : Sent :=
  .toNode s.pnid "MCAST" [d.glade, d.dim, d.dir, d.hops, d.dst + r.1] r.2

/-- Runs of a multicast leave this node, in order. -/
def sendRuns (s : State) (d : Desc) (rs : List (Nat × List Byte)) : State := { s with sent := s.sent ++ rs.map (s.mcastRun d) }

theorem sendRuns_queues (s : State) (d : Desc) (rs : List (Nat × List Byte)) : (s.sendRuns d rs).queues = s.queues := rfl

theorem each_mcastRun (s : State) (d : Desc) (rs : List (Nat × List Byte)) :
    (s.each rs fun s r => s.toNode s.pnid "MCAST" [d.glade, d.dim, d.dir, d.hops, d.dst + r.1] r.2) = s.sendRuns d rs := by
  rw [sendRuns, List.map_eq_flatMap]
  exact each_eq_sent s (fun _ _ => rfl) rs

/-- A run of a multicast to a node that missed it. -/
def missedRun (d : Desc) (x : Nat) (r : Nat × List Byte) : Sent := .toNode x "MCAST" [d.glade, d.dst + r.1] r.2

theorem mcastMissing_eq (s : State) (d : Desc) (l : List Nat) : s.mcastMissing d l =
    { s with sent := s.sent ++ l.flatMap fun x => (runsOf (s.readBytes d.src d.count)).map (missedRun d x) } := by
  refine each_eq_sent s (fun before x => ?_) l
  rw [List.map_eq_flatMap]
  exact each_eq_sent { s with sent := before } (fun _ _ => rfl) _

/-! ## What an RSGRAD keeps while it sends -/

/-- From one state to another the messages have been sent; the listed registers may differ, and memory and the queues are the same. -/
structure Sends (l : List Nat) (m : List Sent) (s t : State) : Prop where
  regs : s.sameRegsBut l t
  mem : t.mem = s.mem
  queues : t.queues = s.queues
  sent : t.sent = s.sent ++ m

theorem Sends.refl (l : List Nat) (s : State) : Sends l [] s s := ⟨sameRegsBut.refl l s, rfl, rfl, (List.append_nil _).symm⟩

theorem Sends.trans {l : List Nat} {m m' : List Sent} (h : Sends l m s t) (h' : Sends l m' t u) : Sends l (m ++ m') s u :=
  ⟨h.regs.trans h'.regs, h'.mem.trans h.mem, h'.queues.trans h.queues, by rw [h'.sent, h.sent, List.append_assoc]⟩

/-- The registers that a push may touch: STAGE of the glade, and the use of class 3. -/
def pushRegs (g : Nat) : List Nat := [R.STP_GSTAT g, R.BGT_USE 3]

section Congr
variable {m : List Sent} (h : Sends (pushRegs g) m s t) (hg : g < 16)
include h

theorem Sends.reg {a : Nat} (ha : a < 0x080000) : t.reg a = s.reg a := h.regs a (by
  simp only [pushRegs, List.mem_cons, List.not_mem_nil, or_false, R.STP_GSTAT, R.BGT_USE]
  omega)

include hg

theorem Sends.served (o n : Nat) : t.served o n = s.served o n :=
  (h.regs.sameLayout fun a ha => by
    simp only [pushRegs, List.mem_cons, List.not_mem_nil, or_false, R.STP_GSTAT, R.BGT_USE] at ha
    omega).served o n

theorem Sends.members : t.members g = s.members g := by
  rw [State.members, rd, h.reg (by unfold R.GLD_MEMBER; omega), ← rd, ← State.members]

theorem Sends.openRing : t.openRing g = s.openRing g := by
  rw [State.openRing, ring, h.reg (by unfold R.GLD_RING; omega), ← ring, ← State.openRing]

theorem Sends.layerBlocks (l : Nat) : t.layerBlocks g l = s.layerBlocks g l := by
  have hbase : t.regionBase g 9 = s.regionBase g 9 := by
    rw [regionBase, rd, h.reg (by unfold R.GLD_REGION; omega), ← rd, ← regionBase]
  simp only [State.layerBlocks, layerParams, layerWord, readBytes, readByte, h.mem, hbase]

theorem Sends.ownerOf (l b : Nat) : t.ownerOf g (t.members g) l b = s.ownerOf g (s.members g) l b := by
  unfold State.ownerOf blockLo
  rw [h.layerBlocks hg, h.members hg]

end Congr

/-! ## RSGRAD in fast mode -/

/-- A block of a layer as a fast-mode source sends it to its owner (KIND 0, R145). -/
def contribution (s : State) (g sidx l src b : Nat) : Sent :=
  .toMember g (s.ownerOf g (s.members g) l b) "CONTRIBUTION" [g, s.openRing g % 256, sidx, l, b] (s.readBytes (src + 4096 * b) 4096)

theorem Sends.contribution {m : List Sent} (h : Sends (pushRegs g) m s t) (hg : g < 16) (sidx l src b : Nat) :
    t.contribution g sidx l src b = s.contribution g sidx l src b := by
  simp only [State.contribution, h.ownerOf hg, h.openRing hg, readBytes, readByte, h.mem]

/-- The window opens and the block is charged and counted, before it is sent. -/
def countPush (s : State) (g sidx l b : Nat) : State :=
  ((s.openWindow g).charge 3 32 0 129).updGl g fun e => e.sentMore sidx (s.ownerOf g (s.members g) l b) 1

theorem countPush_sends (s : State) (g sidx l b : Nat) : Sends (pushRegs g) [] s (s.countPush g sidx l b) := by
  have hopen := (openWindow_regs s g).mono (show _ ⊆ pushRegs g by simp [pushRegs])
  have hcharge := (charge_regs (s.openWindow g) 3 32 0 129).mono (show _ ⊆ pushRegs g by simp [pushRegs])
  obtain ⟨r, hr⟩ := openWindow_fields s g
  refine ⟨(hopen.trans hcharge).of_regs (updGl_regs ..), ?_, ?_, ?_⟩
  · rw [countPush, updGl_mem, charge_mem, hr]
  · rw [countPush, updGl_queues, charge_queues, hr]
  · rw [countPush, updGl_sent, charge_sent, hr, List.append_nil]

theorem openWindow_glades (s : State) (g : Nat) : (s.openWindow g).glades = s.glades := by
  obtain ⟨r, h⟩ := openWindow_fields s g
  rw [h]

theorem pushBlock_sends (s : State) {g : Nat} (hg : g < 16) (sidx l b src : Nat) :
    Sends (pushRegs g) [s.contribution g sidx l src b] s (s.pushBlock g sidx l b src) := by
  have hcount := countPush_sends s g sidx l b
  refine ⟨hcount.regs.of_regs (send_regs ..), hcount.mem, hcount.queues, ?_⟩
  have hsent : (s.pushBlock g sidx l b src).sent = (s.countPush g sidx l b).sent ++ [.toMember g (s.ownerOf g (s.members g) l b)
    "CONTRIBUTION" [g, (s.countPush g sidx l b).openRing g % 256, sidx, l, b]
    ((s.countPush g sidx l b).readBytes (src + 4096 * b) 4096)] := rfl
  rw [hsent, hcount.sent, List.append_nil, hcount.openRing hg]
  simp only [contribution, readBytes, readByte, hcount.mem]

theorem noticesOut_pushBlock (s : State) (g sidx l b src : Nat) :
    ((s.pushBlock g sidx l b src).gl g).noticesOut = (s.gl g).noticesOut := by
  have hgl : (s.pushBlock g sidx l b src).gl g = (s.countPush g sidx l b).gl g := rfl
  have hbefore : ((s.openWindow g).charge 3 32 0 129).gl g = s.gl g := gl_congr ((charge_glades ..).trans (openWindow_glades s g)) g
  rw [hgl, countPush, gl_updGl, if_pos rfl, hbefore]
  rfl

/-- A push of blocks that can all be read sends each of them, and no read stops it. -/
theorem pushFrom_of_served {g : Nat} (hg : g < 16) (sidx l src n b : Nat) (hn : b + n = s.layerBlocks g l)
    (hserved : ∀ k, k < s.layerBlocks g l → s.served (src + 4096 * k) 4096 = true) :
    ∃ t, s.pushFrom g sidx l src n b = (t, none) ∧
      Sends (pushRegs g) ((List.range' b n).map (s.contribution g sidx l src)) s t ∧ (t.gl g).noticesOut = (s.gl g).noticesOut := by
  induction n generalizing s b with
  | zero => exact ⟨s, rfl, Sends.refl _ s, rfl⟩
  | succ n ih =>
    have hpush := pushBlock_sends s hg sidx l b src
    have hblocks := hpush.layerBlocks hg l
    obtain ⟨t, hrun, hrest, hnotices⟩ := ih (s := s.pushBlock g sidx l b src) (b + 1) (by rw [hblocks]; omega) fun k hk => by
      rw [hpush.served hg, hserved k (hblocks ▸ hk)]
    refine ⟨t, ?_, ?_, hnotices.trans (noticesOut_pushBlock ..)⟩
    · rw [pushFrom, if_neg (by omega), if_neg (by simp [hserved b (by omega)]), hrun]
    · rw [funext (hpush.contribution hg sidx l src)] at hrest
      exact hpush.trans hrest

/-- A descriptor without LAST is done when no owner's answer is awaited. -/
theorem rsgradDone_of_nil {d : Desc} (hlast : d.last = false) (hnotices : (s.gl d.glade).noticesOut = []) : s.rsgradDone d = true := by
  simp [rsgradDone, hlast, hnotices]

/-- A push in fast mode sends every block of the layer, and is done (R145). -/
theorem rsgradFast_done {q : Nat} {d : Desc} (hdescs : (s.qu q).descs = [d]) (hlast : d.last = false)
    (hnotices : (s.gl d.glade).noticesOut = []) (hresume : (s.qu q).resumeAt = none)
    (hserved : ∀ b, b < s.layerBlocks d.glade d.layer → s.served (d.src + 4096 * b) 4096 = true) :
    ∃ t, Sends (pushRegs d.glade) ((List.range' 0 (s.layerBlocks d.glade d.layer)).map
        (s.contribution d.glade (s.sidx d.glade d.srcj) d.layer d.src)) s t ∧
      s.rsgradFast q d = (t.updQu q fun x => { x with resumeAt := none }).descDone q d.index ∧ (t.qu q).descs = [d] := by
  obtain ⟨t, hrun, hsends, hkept⟩ := pushFrom_of_served d.glade_lt (s.sidx d.glade d.srcj) d.layer d.src _ 0 (Nat.zero_add _) hserved
  refine ⟨t, hsends, ?_, (congrArg QueueState.descs (qu_congr hsends.queues q)).trans hdescs⟩
  have hdone : (t.updQu q fun x => { x with resumeAt := none }).rsgradDone d = true := rsgradDone_of_nil hlast (hkept.trans hnotices)
  unfold rsgradFast
  simp only [hresume, Option.getD_none, hrun, hlast, hdone, if_true, Bool.false_eq_true, if_false]

/-! ## RSGRAD in exact mode -/

/-- The ready notice of a layer's blocks of one owner (KIND 2, R145): the owner, its first block and their count. -/
def readyNotice (s : State) (d : Desc) (sidx : Nat) (x : Nat × Nat × Nat) : Sent :=
  .toMember d.glade x.1 "READY_NOTICE" [d.glade, s.openRing d.glade % 256, sidx, d.layer, x.2.1, d.src] []

/-- An owner's blocks are counted, its answer is awaited, and its ready notice is sent. -/
def giveNotice (d : Desc) (sidx : Nat) (s : State) (x : Nat × Nat × Nat) : State :=
  (s.updGl d.glade fun e => { e.sentMore sidx x.1 x.2.2 with noticesOut := e.noticesOut ++ [(sidx, d.layer, x.1)] }).send
    (s.readyNotice d sidx x)

/-- The notices of all owners are sent and awaited, and nothing but the glade's engines changes beside them. -/
theorem each_giveNotice (s : State) (d : Desc) (sidx : Nat) (xs : List (Nat × Nat × Nat)) :
    (∃ l, s.each xs (giveNotice d sidx) = { s with glades := l, sent := s.sent ++ xs.map (s.readyNotice d sidx) }) ∧
      ((s.each xs (giveNotice d sidx)).gl d.glade).noticesOut =
        (s.gl d.glade).noticesOut ++ xs.map fun x => (sidx, d.layer, x.1) := by
  induction xs generalizing s with
  | nil => exact ⟨⟨s.glades, by simp [each]⟩, by simp [each]⟩
  | cons x r ih =>
    obtain ⟨⟨l, hl⟩, hnotices⟩ := ih (giveNotice d sidx s x)
    refine ⟨⟨l, hl.trans ?_⟩, hnotices.trans ?_⟩
    · simp only [giveNotice, send, List.append_assoc]
      rfl
    · rw [giveNotice, gl_congr (send_glades ..), gl_updGl, if_pos rfl, List.append_assoc]
      rfl

/-- The notices of a layer as this member gives them, with the window open (R86, R145). -/
def giveNotices (s : State) (d : Desc) : State :=
  (s.openWindow d.glade).each (s.ownersOf d.glade d.layer) (giveNotice d (s.sidx d.glade d.srcj))

theorem giveNotices_status (s : State) (d : Desc) :
    s.sameRegsBut [R.STP_GSTAT d.glade] (s.giveNotices d) ∧ (s.giveNotices d).mem = s.mem ∧
      (s.giveNotices d).sent = s.sent ++ (s.ownersOf d.glade d.layer).map (s.readyNotice d (s.sidx d.glade d.srcj)) ∧
      ((s.giveNotices d).gl d.glade).noticesOut = (s.gl d.glade).noticesOut ++
        (s.ownersOf d.glade d.layer).map fun x => (s.sidx d.glade d.srcj, d.layer, x.1) := by
  have hregs := openWindow_regs s d.glade
  obtain ⟨r, hopen⟩ := openWindow_fields s d.glade
  obtain ⟨⟨l, hl⟩, hnotices⟩ := each_giveNotice (s.openWindow d.glade) d (s.sidx d.glade d.srcj) (s.ownersOf d.glade d.layer)
  have hring : (s.openWindow d.glade).openRing d.glade = s.openRing d.glade := by
    rw [openRing, ring, hregs _ (by
      have hlt := d.glade_lt
      simp only [List.mem_singleton, R.GLD_RING, R.STP_GSTAT]
      omega), ← ring, ← openRing]
  rw [← giveNotices] at hl hnotices
  have hmessages : (s.openWindow d.glade).readyNotice d (s.sidx d.glade d.srcj) = s.readyNotice d (s.sidx d.glade d.srcj) := by
    unfold readyNotice
    rw [hring]
  refine ⟨hregs.of_regs (by rw [hl]), ?_, ?_, ?_⟩
  · rw [hl, hopen]
  · rw [hl, hmessages, hopen]
  · rw [hnotices, gl_congr (openWindow_glades s d.glade)]

/-- Beside the notices an RSGRAD without LAST in exact mode can only mark its descriptor as done. -/
theorem rsgradExact_fields (s : State) (q : Nat) {d : Desc} (hlast : d.last = false) :
    (s.rsgradExact q d).regs = (s.giveNotices d).regs ∧ (s.rsgradExact q d).mem = (s.giveNotices d).mem ∧
      (s.rsgradExact q d).sent = (s.giveNotices d).sent ∧ (s.rsgradExact q d).glades = (s.giveNotices d).glades := by
  have heq : s.rsgradExact q d = if (s.giveNotices d).rsgradDone d then (s.giveNotices d).descDone q d.index else s.giveNotices d := by
    unfold rsgradExact
    simp only [hlast, Bool.false_eq_true, if_false]
    rfl
  rw [heq]
  split
  · exact ⟨rfl, rfl, rfl, rfl⟩
  · exact ⟨rfl, rfl, rfl, rfl⟩

end State
end Sys2Proof.Machine
end

section
/-! PROOF. The rows DESC_BARRIER, DESC_MCAST, MCAST_FALLBACK and DESC_RSGRAD (R141, R144, R145, R150). -/
namespace Sys2Proof.Machine

section Rows
variable {s : State} {q : QueueId} {d : Desc}

theorem exec_descBarrier {l : List Nat} (h : s.RunsOp q.val d 5) (hall : (s.otherMembers d.glade).all l.contains = true) :
    exec (.descBarrier q d.index l) s = .next (s.descDone q.val d.index) :=
  congrArg Host.Outcome.next ((h.inMain _).trans (if_pos hall))

theorem exec_descMcast (h : s.RunsOp q.val d 7) (hcount : d.count ≠ 0) (hsrc : s.served d.src d.count = true) :
    exec (.descMcast q d.index) s = .next (((s.chargeSrc d).sendRuns d (runsOf (s.readBytes d.src d.count))).descDone q.val d.index) := by
  refine congrArg Host.Outcome.next ((h.inMain _).trans ?_)
  rw [State.mcast, State.withSrc_of_served hcount hsrc, State.each_mcastRun]

theorem exec_mcastFallback (h : s.up) (hdescs : (s.qu q.val).descs = [d]) (hstarted : d.started = true) (hopen : d.completed = false)
    (hop : d.op = 7) (l : List Nat) : exec (.mcastFallback q d.index l) s = .next (s.mcastMissing d l) := by
  refine congrArg Host.Outcome.next ((State.inMain_of_up h _).trans ?_)
  simp only [State.runningDesc_single hdescs hstarted hopen, hop, true_or, if_true]

theorem exec_descRsgrad (h : s.RunsOp q.val d 0x10) : exec (.descRsgrad q d.index) s =
    .next (if s.exact d.glade then s.rsgradExact q.val d else s.rsgradFast q.val d) :=
  congrArg Host.Outcome.next (h.inMain _)

end Rows

/-- Settles O32: each row by the state that it answers. -/
theorem collectiveMessages : Obligations.CollectiveMessages := by
  unfold Obligations.CollectiveMessages
  refine ⟨fun s q d l h hdescs hstarted hopen hdone hop hall => ?_, fun s q d h hdescs hstarted hopen hdone hop hcount hsrc => ?_,
    fun s q d l h hdescs hstarted hopen hop => ?_,
    fun s q d h hdescs hstarted hopen hdone hop hlast hfast hnotices hresume hserved => ?_,
    fun s q d h hdescs hstarted hopen hdone hop hlast hexact => ?_⟩
  · exact ⟨_, exec_descBarrier ⟨h, hdescs, hstarted, hopen, hdone, hop⟩ hall, State.descs_descDone hdescs, rfl, rfl⟩
  · have hregs := State.chargeSrc_regs s d
    have hpnid : (s.chargeSrc d).pnid = s.pnid := State.rd_of_bgtUse hregs (by decide) _
    refine ⟨_, exec_descMcast ⟨h, hdescs, hstarted, hopen, hdone, hop⟩ hcount hsrc, ?_, hregs.of_regs rfl, State.chargeSrc_mem s d,
      fun r hr => ?_⟩
    · refine State.descs_descDone ?_
      rw [State.qu_congr ((State.sendRuns_queues ..).trans (State.chargeSrc_queues s d)), hdescs]
    · rw [← hpnid]
      exact List.mem_append_right _ (List.mem_map_of_mem hr)
  · rw [exec_mcastFallback h hdescs hstarted hopen hop, State.mcastMissing_eq]
    exact ⟨_, rfl, rfl, rfl, rfl, fun x r hx hr =>
      List.mem_append_right _ (List.mem_flatMap.mpr ⟨x, hx, List.mem_map_of_mem hr⟩)⟩
  · have hexec := exec_descRsgrad ⟨h, hdescs, hstarted, hopen, hdone, hop⟩
    obtain ⟨t, hsends, hrun, hkept⟩ := State.rsgradFast_done hdescs hlast hnotices hresume hserved
    rw [if_neg (by simp [hfast]), hrun] at hexec
    refine ⟨_, hexec, State.descs_descDone ?_, hsends.mem, fun b hb => ?_⟩
    · rw [State.qu_updQu, if_pos rfl, hkept]
    · rw [State.descDone_sent, State.updQu_sent, hsends.sent]
      exact List.mem_append_right _ (List.mem_map_of_mem (List.mem_range'_1.mpr ⟨Nat.zero_le b, by omega⟩))
  · have hexec := exec_descRsgrad ⟨h, hdescs, hstarted, hopen, hdone, hop⟩
    obtain ⟨heqregs, heqmem, heqsent, heqglades⟩ := State.rsgradExact_fields s q.val hlast
    obtain ⟨hregs, hmem, hsent, hnotices⟩ := State.giveNotices_status s d
    rw [if_pos hexact] at hexec
    refine ⟨_, hexec, hregs.of_regs heqregs, heqmem.trans hmem, fun x hx => ⟨?_, ?_⟩⟩
    · rw [State.gl_congr heqglades, hnotices]
      exact List.mem_append_right _ (List.mem_map_of_mem hx)
    · rw [heqsent, hsent]
      exact List.mem_append_right _ (List.mem_map_of_mem hx)

end Sys2Proof.Machine
end

section
/-! PROOF. The grove as the registers below GRV_WIT tell it (R66, R159), and the start of a witness agreement (R163, R164). -/
namespace Sys2Proof.Machine

namespace State
variable {s t : State} {g : Nat}

/-! ## The grove -/

/-- Every register below the witness registers reads as before: those that tell a glade's members and its code are among them. -/
def sameBelowWit (s t : State) : Prop := ∀ a, a < 0x040200 → t.reg a = s.reg a

theorem sameRegsBut.belowWit {l : List Nat} (h : s.sameRegsBut l t) (hl : ∀ a ∈ l, 0x040200 ≤ a) : s.sameBelowWit t :=
  fun a ha => h a fun hm => Nat.not_le.mpr ha (hl a hm)

theorem sameRegsBut.belowWit_agreement (h : s.sameRegsBut [R.GRV_MSTAT g, R.GRV_WIT] t) : s.sameBelowWit t :=
  h.belowWit fun a ha => by
    simp only [List.mem_cons, List.not_mem_nil, or_false, R.GRV_MSTAT, R.GRV_WIT] at ha
    omega

section Grove
variable (h : s.sameBelowWit t) (hg : g < 16)
include h hg

theorem sameBelowWit.code : t.code g = s.code g := by
  have hreg : t.reg (R.GRV_ROWCFG g) = s.reg (R.GRV_ROWCFG g) := h _ (by unfold R.GRV_ROWCFG; omega)
  simp only [State.code, rd, hreg]

theorem sameBelowWit.groveN : t.groveN g = s.groveN g := by simp only [State.groveN, h.code hg]

theorem sameBelowWit.lmn : t.lmn g = s.lmn g := by
  have hreg : t.reg (R.GLD_MEMBER g) = s.reg (R.GLD_MEMBER g) := h _ (by unfold R.GLD_MEMBER; omega)
  simp only [State.lmn, rd, hreg]

theorem sameBelowWit.lmnOfSlot (x : Nat) : t.lmnOfSlot g x = s.lmnOfSlot g x := by
  simp only [State.lmnOfSlot, h.groveN hg, h.lmn hg]

theorem sameBelowWit.grovePeers : t.grovePeers g = s.grovePeers g := by
  have hlmn : t.lmnOfSlot g = s.lmnOfSlot g := funext (h.lmnOfSlot hg)
  simp only [State.grovePeers, slots, h.groveN hg, h.lmn hg, hlmn]

end Grove

/-- The slot of an LMN of the grove (R66). -/
theorem lmnOfSlot_mod {x : Nat} (hx : x < s.groveN g) : s.lmnOfSlot g x % s.groveN g = x := by
  rw [lmnOfSlot, Nat.mul_add_mod', Nat.mod_eq_of_lt hx]

/-! ## Sending -/

/-- Several things are sent, in order. -/
def sendAll (s : State) (l : List Sent) : State := { s with sent := s.sent ++ l }

theorem sendAll_sendAll (s : State) (l l' : List Sent) : (s.sendAll l).sendAll l' = s.sendAll (l ++ l') := by
  simp only [sendAll, List.append_assoc]

/-- Where the change for each element sends one thing, and the same whatever was sent before, all of them send theirs in order. -/
theorem each_sendAll {α : Type} {f : State → α → State} {m : α → Sent} (s : State)
    (hf : ∀ (l : List Sent) (x : α), f { s with sent := l } x = { s with sent := l ++ [m x] }) (xs : List α) :
    s.each xs f = s.sendAll (xs.map m) := by
  rw [List.map_eq_flatMap]
  exact each_eq_sent s hf xs

theorem gl_sendAll (s : State) (l : List Sent) (g : Nat) : (s.sendAll l).gl g = s.gl g := rfl

theorem toMembers_eq_sendAll (s : State) (g : Nat) (l : List Nat) (name : String) (args : List Nat) (data : List Byte) :
    s.toMembers g l name args data = s.sendAll (l.map fun m => .toMember g m name args data) := toMembers_eq ..

/-! ## Beats (R161, R171) -/

theorem gl_refreshVis (s : State) (g : Nat) : (s.refreshVis g).gl g =
    { s.gl g with sightLow := decide (1 + (s.gl g).beats.length < s.majority g) } := by
  rw [refreshVis, gl_updGl, if_pos rfl, gl_congr (wr_glades ..)]

/-- VIS counts this member and the slots whose beats are held. -/
theorem vis_refreshVis (s : State) (g : Nat) : (s.refreshVis g).rd (R.GRV_MSTAT g) F.GRV_MSTAT_VIS =
    (1 + (s.gl g).beats.length) % 2 ^ F.GRV_MSTAT_VIS.width :=
  (rd_congr (updGl_regs ..) ..).trans (rd_wr_same s _ rfl _)

theorem mstate_refreshVis (s : State) (g : Nat) : (s.refreshVis g).mstate g = s.mstate g :=
  (rd_congr (updGl_regs ..) ..).trans (rd_wr_apart s _ rfl rfl _)

theorem refreshVis_regs (s : State) (g : Nat) : s.sameRegsBut [R.GRV_MSTAT g] (s.refreshVis g) :=
  ((sameRegsBut.refl _ s).wr (by simp) _ _).of_regs (updGl_regs ..)

/-- A slot's beats leave the beat unit. -/
def dropBeats (s : State) (g slot : Nat) : State :=
  (s.updGl g fun e => { e with beats := e.beats.filter fun b => b.slot != slot }).refreshVis g

theorem gl_dropBeats (s : State) (g slot : Nat) : ∃ b, (s.dropBeats g slot).gl g =
    { s.gl g with beats := (s.gl g).beats.filter (fun b => b.slot != slot), sightLow := b } := by
  rw [dropBeats, gl_refreshVis, gl_updGl, if_pos rfl]
  exact ⟨_, rfl⟩

theorem dropBeats_regs (s : State) (g slot : Nat) : s.sameRegsBut [R.GRV_MSTAT g] (s.dropBeats g slot) :=
  ((sameRegsBut.refl _ s).of_regs (updGl_regs ..)).trans (refreshVis_regs _ g)

theorem inGrove_dropBeats (s : State) (g slot : Nat) : (s.dropBeats g slot).inGrove g = s.inGrove g := by
  unfold inGrove dropBeats
  rw [mstate_refreshVis]
  rfl

/-! ## An agreement starts (R163, R164) -/

/-- The engines of a member that joins an agreement. -/
def joinEngines (seq : Nat) (suspects : List Nat) (cause : Option Nat) (e : GladeState) : GladeState :=
  { e with agreement := some ⟨seq, suspects, [], 0, [], 1, cause.getD 0⟩, lastSeq := seq, nextSuspects := [] }

/-- A member that joins an agreement, but for the source that started it and the router's recovery profile. -/
def joinRound (s : State) (g seq : Nat) (suspects : List Nat) (cause : Option Nat) : State :=
  ((((s.updGl g (joinEngines seq suspects cause)).setMstate g 2).wr R.GRV_WIT F.GRV_WIT_ACTIVE 1).wr R.GRV_WIT F.GRV_WIT_GLADE g).inc
    R.GRV_WIT F.GRV_WIT_ROUNDS

/-- The glade takes recovery profile 3 in the router. -/
def recoverIn (s : State) (g : Nat) : State := { s with router := { s.router with recovering := addOnce s.router.recovering g } }

theorem recoverIn_regs (s : State) (g : Nat) : (s.recoverIn g).regs = s.regs := rfl

theorem recoverIn_glades (s : State) (g : Nat) : (s.recoverIn g).glades = s.glades := rfl

theorem joinAgreement_none (s : State) (g seq : Nat) (suspects : List Nat) :
    s.joinAgreement g seq suspects none = (s.joinRound g seq suspects none).recoverIn g := rfl

theorem joinAgreement_some (s : State) (g seq : Nat) (suspects : List Nat) (c : Nat) : s.joinAgreement g seq suspects (some c) =
    ((s.joinRound g seq suspects (some c)).wr R.GRV_WIT F.GRV_WIT_CAUSE c).recoverIn g := rfl

theorem joinAgreement_glades (s : State) (g seq : Nat) (suspects : List Nat) (cause : Option Nat) :
    (s.joinAgreement g seq suspects cause).glades = (s.joinRound g seq suspects cause).glades := by
  cases cause with
  | none => rw [joinAgreement_none, recoverIn_glades]
  | some c => rw [joinAgreement_some, recoverIn_glades, wr_glades]

theorem gl_joinAgreement (s : State) (g seq : Nat) (suspects : List Nat) (cause : Option Nat) :
    (s.joinAgreement g seq suspects cause).gl g = joinEngines seq suspects cause (s.gl g) := by
  rw [gl_congr (joinAgreement_glades ..), joinRound, gl_congr (inc_glades ..), gl_congr (wr_glades ..), gl_congr (wr_glades ..),
    setMstate, gl_congr (wr_glades ..), gl_updGl, if_pos rfl]

theorem grvMstat_ne_grvWit (g : Nat) : R.GRV_MSTAT g ≠ R.GRV_WIT := by
  unfold R.GRV_MSTAT R.GRV_WIT
  omega

theorem mstate_joinRound (s : State) (g seq : Nat) (suspects : List Nat) (cause : Option Nat) :
    (s.joinRound g seq suspects cause).mstate g = 2 := by
  have hne := grvMstat_ne_grvWit g
  rw [joinRound, mstate, rd_inc_other _ hne, rd_wr_other _ hne, rd_wr_other _ hne, setMstate, rd_wr_same _ _ rfl]
  rfl

theorem mstate_joinAgreement (s : State) (g seq : Nat) (suspects : List Nat) (cause : Option Nat) :
    (s.joinAgreement g seq suspects cause).mstate g = 2 := by
  cases cause with
  | none => rw [joinAgreement_none, mstate, rd_congr (recoverIn_regs ..), ← mstate, mstate_joinRound]
  | some c =>
    rw [joinAgreement_some, mstate, rd_congr (recoverIn_regs ..), rd_wr_other _ (grvMstat_ne_grvWit g), ← mstate, mstate_joinRound]

/-- The agreement shows in GRV_WIT, with the source that started it. -/
theorem witness_joinAgreement (s : State) (g seq : Nat) (suspects : List Nat) {cause : Nat} (hcause : cause < 16) :
    (s.joinAgreement g seq suspects (some cause)).rd R.GRV_WIT F.GRV_WIT_CAUSE = cause ∧
      (s.joinAgreement g seq suspects (some cause)).rd R.GRV_WIT F.GRV_WIT_ACTIVE = 1 := by
  rw [joinAgreement_some, rd_congr (recoverIn_regs ..), rd_congr (recoverIn_regs ..)]
  constructor
  · rw [rd_wr_same _ _ rfl]
    exact Nat.mod_eq_of_lt hcause
  · rw [rd_wr_apart _ _ rfl rfl, joinRound, rd_inc_apart _ _ rfl rfl, rd_wr_apart _ _ rfl rfl, rd_wr_same _ _ rfl]
    rfl

/-- The start of an agreement goes to every other member of the grove. -/
theorem startAgreement_sent (s : State) (g seq : Nat) (suspects : List Nat) (cause : Option Nat) :
    (s.startAgreement g seq suspects cause).sent =
      s.sent ++ (s.grovePeers g).map fun i => .toMember g i "START" ([g, seq] ++ suspects) [] := by
  rw [startAgreement, toMembers_eq, joinAgreement_sent]

theorem startAgreement_rd (s : State) (g seq : Nat) (suspects : List Nat) (cause : Option Nat) (a : Nat) (f : Fld) :
    (s.startAgreement g seq suspects cause).rd a f = (s.joinAgreement g seq suspects cause).rd a f :=
  rd_congr (toMembers_regs ..) a f

theorem mstate_startAgreement (s : State) (g seq : Nat) (suspects : List Nat) (cause : Option Nat) :
    (s.startAgreement g seq suspects cause).mstate g = 2 :=
  (startAgreement_rd ..).trans (mstate_joinAgreement s g seq suspects cause)

theorem startAgreement_regs (s : State) (g seq : Nat) (suspects : List Nat) (cause : Option Nat) :
    s.sameRegsBut [R.GRV_MSTAT g, R.GRV_WIT] (s.startAgreement g seq suspects cause) :=
  (joinAgreement_regs s g seq suspects cause).of_regs (toMembers_regs ..)

theorem gl_startAgreement (s : State) (g seq : Nat) (suspects : List Nat) (cause : Option Nat) :
    (s.startAgreement g seq suspects cause).gl g = joinEngines seq suspects cause (s.gl g) := by
  rw [startAgreement, gl_congr (toMembers_glades ..), gl_joinAgreement]

/-- A detection while no agreement runs starts one over the slot (R163). -/
theorem detect_starts {x : Nat} (hin : s.inGrove g = true) (hf : s.fenced g = false) (hx : x < s.groveN g)
    (hne : s.lmnOfSlot g x ≠ s.lmn g) (hnone : (s.gl g).agreement = none) (cause : Nat) :
    s.detect g (s.lmnOfSlot g x) cause = s.startAgreement g ((s.gl g).lastSeq + 1) [x] (some cause) := by
  unfold detect
  dsimp only
  rw [lmnOfSlot_mod hx, if_neg (by simp [hin, hf, hne]), hnone]

end State
end Sys2Proof.Machine
end

section
/-! PROOF. The rows BEAT_TIMER, GROVE_BEAT, BEAT_SILENCE, SUSPICION_NOTICE, FENCE_NOTICE, DEPARTURE_NOTICE, START, PROBE, PROBE_ANSWER,
ROUND1_END and VIEW (R161 to R167). -/
namespace Sys2Proof.Machine

section Rows
variable {s : State} {g : GladeId}

/-! ## Detections (R161 to R163) -/

theorem exec_beatTimer (h : s.up) (hin : s.inGrove g.val = true) (hf : s.fenced g.val = false) (hrun : s.rangerHalted = false) :
    exec (.beatTimer g) s =
      .next (s.sendAll ((s.grovePeers g.val).map fun i => .toMember g.val i "BEAT" [g.val, (s.code g.val).slot] [])) := by
  have hexec : exec (.beatTimer g) s = .next _ := congrArg Host.Outcome.next (State.inMain_of_up h _)
  rw [hexec, if_pos (by simp [hin, hf, hrun]), State.toMembers_eq_sendAll]

theorem exec_groveBeat {x : Nat} (h : s.up) (hin : s.inGrove g.val = true) (hf : s.fenced g.val = false) (hx : x < s.groveN g.val)
    (hne : x ≠ (s.code g.val).slot) : exec (.groveBeat g x) s = .next ((s.updGl g.val fun e =>
      { e with beats := (e.beats.filter fun b => b.slot != x) ++ [⟨x, s.now⟩] }).refreshVis g.val) := by
  have hexec : exec (.groveBeat g x) s = .next _ := congrArg Host.Outcome.next (State.inMain_of_up h _)
  rw [hexec, if_pos (by simp [hin, hf, hx, hne])]

/-- A slot that falls silent leaves sight, and an agreement over it starts when none runs. -/
theorem exec_beatSilence {x : Nat} {b : Beat} (h : s.up) (hin : s.inGrove g.val = true) (hf : s.fenced g.val = false)
    (hx : x < s.groveN g.val) (hne : s.lmnOfSlot g.val x ≠ s.lmn g.val) (hnone : (s.gl g.val).agreement = none)
    (hb : b ∈ (s.gl g.val).beats) (hslot : b.slot = x) (hlate : b.atTime + 250 ≤ s.now) :
    exec (.beatSilence g x) s =
      .next ((s.dropBeats g.val x).startAgreement g.val ((s.gl g.val).lastSeq + 1) [x] (some 2)) := by
  have hexec : exec (.beatSilence g x) s = .next _ := congrArg Host.Outcome.next (State.inMain_of_up h _)
  have hany : ((s.gl g.val).beats.any fun b => b.slot == x && b.atTime + 250 ≤ s.now) = true :=
    List.any_eq_true.mpr ⟨b, hb, by simp [hslot, hlate]⟩
  have hgrove : s.sameBelowWit (s.dropBeats g.val x) := (State.dropBeats_regs s g.val x).belowWit fun a ha => by
    simp only [List.mem_singleton, R.GRV_MSTAT] at ha
    omega
  have hfence : (s.dropBeats g.val x).fenced g.val = s.fenced g.val := by
    unfold State.fenced
    rw [(State.dropBeats_regs s g.val x).rd (by
      simp only [List.mem_singleton, R.GRV_FENCE, R.GRV_MSTAT]
      omega)]
  obtain ⟨low, hgl⟩ := State.gl_dropBeats s g.val x
  rw [hexec, if_pos hany, ← State.dropBeats, ← hgrove.lmnOfSlot g.isLt, State.detect_starts, hgl]
  · rw [State.inGrove_dropBeats, hin]
  · rw [hfence, hf]
  · rw [hgrove.groveN g.isLt]
    exact hx
  · rw [hgrove.lmnOfSlot g.isLt, hgrove.lmn g.isLt]
    exact hne
  · rw [hgl]
    exact hnone

/-- Each of the three notices is a detection of its source (R162). -/
theorem exec_notice {x k cause : Nat} {c : Instr} (h : s.up) (hin : s.inGrove g.val = true) (hf : s.fenced g.val = false)
    (hx : x < s.groveN g.val) (hne : s.lmnOfSlot g.val x ≠ s.lmn g.val) (hnone : (s.gl g.val).agreement = none)
    (hc : (c, cause) ∈ [(.suspicionNotice g (s.lmnOfSlot g.val x) k, k), (.fenceNotice g (s.lmnOfSlot g.val x), 8),
      (.departureNotice g (s.lmnOfSlot g.val x), 4)]) :
    exec c s = .next (s.startAgreement g.val ((s.gl g.val).lastSeq + 1) [x] (some cause)) := by
  have hdetect : exec c s = .next (s.inMain fun s' => s'.detect g.val (s.lmnOfSlot g.val x) cause) := by
    simp only [List.mem_cons, Prod.mk.injEq, List.not_mem_nil, or_false] at hc
    obtain ⟨rfl, rfl⟩ | ⟨rfl, rfl⟩ | ⟨rfl, rfl⟩ := hc <;> rfl
  rw [hdetect, State.inMain_of_up h, State.detect_starts hin hf hx hne hnone]

/-! ## START (R164, R170) -/

theorem exec_start_later {q : Nat} (h : s.up) (hin : s.inGrove g.val = true) (hf : s.fenced g.val = false)
    (hnone : (s.gl g.val).agreement = none) (hq : (s.gl g.val).lastSeq < q) (l : List Nat) :
    exec (.start g q l) s = .next (s.joinAgreement g.val q l none) := by
  have hexec : exec (.start g q l) s = .next _ := congrArg Host.Outcome.next (State.inMain_of_up h _)
  rw [hexec, if_neg (by simp [hin, hf]), hnone]
  exact congrArg Host.Outcome.next (if_pos hq)

theorem exec_start_earlier {q : Nat} (hnone : (s.gl g.val).agreement = none) (hq : q ≤ (s.gl g.val).lastSeq) (l : List Nat) :
    exec (.start g q l) s = .next s := by
  refine congrArg Host.Outcome.next ?_
  unfold State.inMain
  split
  · dsimp only
    rw [hnone]
    split
    · rfl
    · exact if_neg (Nat.not_lt.mpr hq)
  · rfl

/-! ## The rounds (R165 to R167) -/

/-- The probes of one round, to every suspect but this member and to every spare. -/
def probesOut (s : State) (g : Nat) (a : Agreement) : List Sent :=
  (a.suspects.filter (· != (s.code g).slot)).map (fun x => .toMember g (s.lmnOfSlot g x) "PROBE" [g, a.seq, a.probeRounds] []) ++
    (s.spareEntries g).map fun x => .toNode (s.sparePnid g x) "PROBE" [g, a.seq, a.probeRounds] []

/-- One round of probes is sent. -/
def sendProbes (s : State) (g : Nat) (a : Agreement) : State :=
  let s := s.each (a.suspects.filter (· != (s.code g).slot)) fun s x =>
    s.toMember g (s.lmnOfSlot g x) "PROBE" [g, a.seq, a.probeRounds]
  s.each (s.spareEntries g) fun s x => s.toNode (s.sparePnid g x) "PROBE" [g, a.seq, a.probeRounds]

theorem sendProbes_eq (s : State) (g : Nat) (a : Agreement) : sendProbes s g a = s.sendAll (probesOut s g a) := by
  unfold sendProbes
  dsimp only
  rw [State.each_sendAll (m := fun x => .toMember g (s.lmnOfSlot g x) "PROBE" [g, a.seq, a.probeRounds] []) s fun _ _ => rfl,
    State.each_sendAll (m := fun x => .toNode (s.sparePnid g x) "PROBE" [g, a.seq, a.probeRounds] []) _ fun _ _ => rfl,
    State.sendAll_sendAll]
  rfl

/-- The engines of a glade say nothing of where its probes go. -/
theorem probesOut_updGl (s : State) (g : Nat) (f : GladeState → GladeState) (a : Agreement) :
    probesOut (s.updGl g f) g a = probesOut s g a := rfl

theorem exec_probe {a : Agreement} (h : s.up) (ha : (s.gl g.val).agreement = some a) (hround : a.round = 1) (hleft : a.probeRounds < 2) :
    exec (.probe g) s = .next ((s.updGl g.val fun e =>
      { e with agreement := some { a with probeRounds := a.probeRounds + 1 } }).sendAll (probesOut s g.val a)) := by
  have hexec : exec (.probe g) s = .next _ := congrArg Host.Outcome.next (State.inMain_of_up h _)
  rw [hexec, ha]
  dsimp only
  rw [if_neg (by omega), ← probesOut_updGl s g.val, ← sendProbes_eq]
  rfl

theorem exec_probeAnswer {a : Agreement} (h : s.up) (ha : (s.gl g.val).agreement = some a) (hround : a.round = 1) (sp : Bool) (x : Nat) :
    exec (.probeAnswer g sp x) s = .next (s.updGl g.val fun e =>
      { e with agreement := some { a with probes := addOnce a.probes ⟨sp, x, true⟩ } }) := by
  have hexec : exec (.probeAnswer g sp x) s = .next _ := congrArg Host.Outcome.next (State.inMain_of_up h _)
  rw [hexec, ha]
  exact congrArg Host.Outcome.next (if_neg (by simp [hround]))

/-- Views as they go to every other member of the grove, in order. -/
def viewsOut (s : State) (g seq : Nat) (l : List View) : List Sent :=
  l.flatMap fun v => (s.grovePeers g).map fun i => .toMember g i "VIEW" ([g, seq] ++ v.args) []

theorem each_sendView (s : State) (g seq : Nat) (l : List View) :
    (s.each l fun s v => s.sendView g seq v) = s.sendAll (viewsOut s g seq l) :=
  State.each_eq_sent (m := fun v => (s.grovePeers g).map fun i => .toMember g i "VIEW" ([g, seq] ++ v.args) []) s
    (fun _ _ => State.toMembers_eq ..) l

theorem exec_round1End {a : Agreement} (h : s.up) (ha : (s.gl g.val).agreement = some a) (hround : a.round = 1) :
    exec (.round1End g) s = .next ((s.sendAll (viewsOut s g.val a.seq (s.ownView g.val a :: a.views))).updGl g.val fun e =>
      { e with agreement := some { a.hold (s.ownView g.val a) with round := 2 } }) := by
  have hexec : exec (.round1End g) s = .next _ := congrArg Host.Outcome.next (State.inMain_of_up h _)
  rw [hexec, ha]
  dsimp only
  rw [if_neg (by simp [hround]), each_sendView]

theorem exec_view {a : Agreement} {v : View} (h : s.up) (ha : (s.gl g.val).agreement = some a) (hround : a.round = 2)
    (hnew : ∀ x ∈ a.views, x.slot ≠ v.slot) (hother : v.slot ≠ (s.code g.val).slot) :
    exec (.view g v) s = .next ((s.sendAll
      ((s.grovePeers g.val).map fun i => .toMember g.val i "VIEW" ([g.val, a.seq] ++ v.args) [])).updGl g.val fun e =>
        { e with agreement := some (a.hold v) }) := by
  have hexec : exec (.view g v) s = .next _ := congrArg Host.Outcome.next (State.inMain_of_up h _)
  rw [hexec, ha]
  dsimp only
  rw [if_neg (by simpa [hround, hother] using hnew), if_pos hround, State.sendView, State.toMembers_eq_sendAll]

end Rows

/-- A view that is held is among the views. -/
theorem mem_views_hold (a : Agreement) (v : View) : v ∈ (a.hold v).views := List.mem_append_right _ (List.mem_singleton_self v)

/-- Settles O34: each row by the state that it answers. -/
theorem detectionsAndAgreement : Obligations.DetectionsAndAgreement := by
  unfold Obligations.DetectionsAndAgreement
  refine ⟨fun s g h hin hf hrun => ⟨_, exec_beatTimer h hin hf hrun, rfl, rfl, rfl, rfl⟩, fun s g x h hin hf hx hne => ?_,
    fun s g x b h hin hf hx hne hnone hb hslot hlate => ?_, fun s g x k cause c h hin hf hx hne hnone hk hc => ?_,
    fun s g q l h hin hf hnone hq => ?_, fun s g q l hnone hq => exec_start_earlier hnone hq l,
    fun s g a h ha hround hleft => ?_, fun s g a sp x h ha hround => ?_, fun s g a h ha hround => ?_,
    fun s g a v h ha hround hnew hother => ?_⟩
  · refine ⟨_, exec_groveBeat h hin hf hx hne, ?_, ?_, ?_, rfl, rfl⟩
    · rw [State.gl_refreshVis, State.gl_updGl, if_pos rfl]
      exact List.mem_append_right _ (List.mem_singleton_self _)
    · rw [State.vis_refreshVis, State.gl_refreshVis]
    · exact ((State.sameRegsBut.refl _ s).of_regs (State.updGl_regs ..)).trans (State.refreshVis_regs _ g.val)
  · have hexec := exec_beatSilence h hin hf hx hne hnone hb hslot hlate
    have hgl := State.gl_startAgreement (s.dropBeats g.val x) g.val ((s.gl g.val).lastSeq + 1) [x] (some 2)
    obtain ⟨low, hdrop⟩ := State.gl_dropBeats s g.val x
    refine ⟨_, _, hexec, fun y hy => ?_, congrArg GladeState.agreement hgl, rfl, rfl, rfl, ?_, ?_, ?_, exec_mem hexec rfl⟩
    · rw [hgl, hdrop] at hy
      simpa using (List.mem_filter.mp hy).2
    · exact State.mstate_startAgreement ..
    · rw [State.startAgreement_rd]
      exact (State.witness_joinAgreement _ _ _ _ (by decide)).1
    · exact ((State.dropBeats_regs s g.val x).mono (by simp)).trans (State.startAgreement_regs _ _ _ _ _)
  · have hexec := exec_notice h hin hf hx hne hnone hc
    have hgl := State.gl_startAgreement s g.val ((s.gl g.val).lastSeq + 1) [x] (some cause)
    have hcause : cause < 16 := by
      simp only [List.mem_cons, Prod.mk.injEq, List.not_mem_nil, or_false] at hc
      omega
    obtain ⟨hshow, hactive⟩ := State.witness_joinAgreement s g.val ((s.gl g.val).lastSeq + 1) [x] hcause
    refine ⟨_, _, hexec, congrArg GladeState.agreement hgl, rfl, rfl, rfl, State.mstate_startAgreement .., ?_, ?_,
      State.startAgreement_sent .., State.startAgreement_regs _ _ _ _ _, ?_⟩
    · rw [State.startAgreement_rd, hshow]
    · rw [State.startAgreement_rd, hactive]
    · rw [State.startAgreement, State.toMembers_eq]
      rfl
  · have hexec := exec_start_later h hin hf hnone hq l
    have hgl := State.gl_joinAgreement s g.val q l none
    exact ⟨_, _, hexec, congrArg GladeState.agreement hgl, rfl, rfl, rfl, congrArg GladeState.lastSeq hgl,
      State.mstate_joinAgreement .., State.joinAgreement_regs _ _ _ _ _, State.joinAgreement_sent .., exec_mem hexec rfl⟩
  · refine ⟨_, exec_probe h ha hround hleft, ?_, fun x hx hne => ?_, fun x hx => ?_, rfl, rfl⟩
    · rw [State.gl_sendAll, State.gl_updGl, if_pos rfl]
    · exact List.mem_append_right _ (List.mem_append_left _
        (List.mem_map.mpr ⟨x, List.mem_filter.mpr ⟨hx, bne_iff_ne.mpr hne⟩, rfl⟩))
    · exact List.mem_append_right _ (List.mem_append_right _ (List.mem_map.mpr ⟨x, hx, rfl⟩))
  · refine ⟨_, _, exec_probeAnswer h ha hround sp x, congrArg GladeState.agreement ((State.gl_updGl ..).trans (if_pos rfl)), ?_, rfl,
      rfl, rfl, rfl⟩
    exact List.any_eq_true.mpr ⟨⟨sp, x, true⟩, State.mem_addOnce _ _, by simp⟩
  · refine ⟨_, _, exec_round1End h ha hround, congrArg GladeState.agreement ((State.gl_updGl ..).trans (if_pos rfl)), rfl,
      mem_views_hold .., fun i hi => ?_, rfl, rfl⟩
    exact List.mem_append_right _ (List.mem_flatMap.mpr ⟨_, List.mem_cons_self .., List.mem_map.mpr ⟨i, hi, rfl⟩⟩)
  · exact ⟨_, _, exec_view h ha hround hnew hother, congrArg GladeState.agreement ((State.gl_updGl ..).trans (if_pos rfl)),
      mem_views_hold .., hround, rfl, rfl, rfl⟩

end Sys2Proof.Machine
end

section
/-! PROOF. What a member holds of its standing in the grove (GRV_WIT, GRV_MSTAT, GRV_LOST, GRV_DEAD, its agreement, the lost LMNs, the
deadfall rows and the member map) stays while memory is stored, descriptors complete, contributions are added and deltas leave (R73 to
R111, R145, R207, R234, R296). -/
namespace Sys2Proof.Machine

/-- A glade's engines hold the same agreement, and forget no lost LMN and no deadfall row. -/
structure GladeState.Stands (e e' : GladeState) : Prop where
  agreement : e'.agreement = e.agreement
  gone : e.gone ⊆ e'.gone
  deadRows : e.deadRows ⊆ e'.deadRows

/-- A change that leaves all three alone. -/
theorem GladeState.Stands.of_eq {e e' : GladeState} (ha : e'.agreement = e.agreement) (hg : e'.gone = e.gone)
    (hd : e'.deadRows = e.deadRows) : e.Stands e' := ⟨ha, hg ▸ List.Subset.refl _, hd ▸ List.Subset.refl _⟩

theorem GladeState.Stands.trans {e e' e'' : GladeState} (h : e.Stands e') (h' : e'.Stands e'') : e.Stands e'' :=
  ⟨h'.agreement.trans h.agreement, fun _ hx => h'.gone (h.gone hx), fun _ hx => h'.deadRows (h.deadRows hx)⟩

theorem subset_addOnce {α : Type} [DecidableEq α] (l : List α) (a : α) : l ⊆ addOnce l a := by
  unfold addOnce
  split
  · exact List.Subset.refl l
  · exact List.subset_append_left ..

namespace State

/-- The registers of a member's standing in its grove, and of where the glade's member map lies; of GRV_LOST the relation below names
the field. -/
def standingRegs (g : Nat) : List Nat := [R.GRV_WIT, R.GRV_MSTAT g, R.GRV_DEAD g, R.RTR_MAPCFG g]

/-- A member of glade g keeps its standing from s to t. -/
structure Standing (g : Nat) (s t : State) : Prop where
  regs : ∀ a ∈ standingRegs g, t.reg a = s.reg a
  lost : t.rd (R.GRV_LOST g) F.GRV_LOST_LOST = s.rd (R.GRV_LOST g) F.GRV_LOST_LOST
  nodeMap : t.nodeMap = s.nodeMap
  engines : (s.gl g).Stands (t.gl g)

/-- The registers that the relation does not name lie outside these blocks. -/
theorem elsewhere_standing {g a : Nat} (hg : g < 16) (h : a < 0x040200 ∨ 0x040480 ≤ a ∧ a < 0x140080 ∨ 0x140100 ≤ a) :
    a ∉ R.GRV_LOST g :: standingRegs g := by
  simp only [standingRegs, List.mem_cons, List.not_mem_nil, or_false, R.GRV_LOST, R.GRV_WIT, R.GRV_MSTAT, R.GRV_DEAD, R.RTR_MAPCFG]
  omega

namespace Standing
variable {g : Nat} {s t u : State}

theorem refl (g : Nat) (s : State) : Standing g s s := ⟨fun _ _ => rfl, rfl, rfl, .of_eq rfl rfl rfl⟩

theorem trans (h : Standing g s t) (h' : Standing g t u) : Standing g s u :=
  ⟨fun a ha => (h'.regs a ha).trans (h.regs a ha), h'.lost.trans h.lost, h'.nodeMap.trans h.nodeMap, h.engines.trans h'.engines⟩

theorem rd (h : Standing g s t) {a : Nat} (ha : a ∈ standingRegs g) (f : Fld) : t.rd a f = s.rd a f := by
  simp only [State.rd, h.regs a ha]

/-- A change of other registers alone, with the engines and the map left as they are. -/
theorem of_regs {l : List Nat} (hr : s.sameRegsBut l t) (hl : ∀ a ∈ l, a ∉ R.GRV_LOST g :: standingRegs g)
    (he : t.glades = s.glades) (hm : t.nodeMap = s.nodeMap) : Standing g s t where
  regs a ha := hr a fun hal => hl a hal (List.mem_cons_of_mem _ ha)
  lost := hr.rd (fun hal => hl _ hal (List.mem_cons_self ..)) _
  nodeMap := hm
  engines := by
    rw [gl_congr he]
    exact .of_eq rfl rfl rfl

/-- A change of neither registers nor engines nor the map. -/
theorem of_eq (hr : t.regs = s.regs := by rfl) (he : t.glades = s.glades := by rfl) (hm : t.nodeMap = s.nodeMap := by rfl) :
    Standing g s t :=
  of_regs (l := []) ((sameRegsBut.refl _ s).of_regs hr) (by simp) he hm

theorem setReg {a : Nat} (ha : a ∉ R.GRV_LOST g :: standingRegs g) (v : Word) : Standing g s (s.setReg a v) :=
  of_regs (l := [a]) ((sameRegsBut.refl _ s).setReg (by simp) v) (by simpa using ha) rfl rfl

theorem updGl (s : State) (x : Nat) {f : GladeState → GladeState}
    (hf : ∀ e : GladeState, e.Stands (f e) := by exact fun _ => .of_eq rfl rfl rfl) :
    Standing g s (s.updGl x f) where
  regs _ _ := rfl
  lost := rfl
  nodeMap := rfl
  engines := by
    rw [gl_updGl]
    split
    case isTrue heq =>
      subst heq
      exact hf _
    case isFalse => exact .of_eq rfl rfl rfl

theorem each {α : Type} {f : State → α → State} {l : List α} (s : State) (hf : ∀ v, ∀ x ∈ l, Standing g v (f v x)) :
    Standing g s (s.each l f) := by
  unfold State.each
  induction l generalizing s with
  | nil => exact refl g s
  | cons x r ih =>
    exact (hf s x (List.mem_cons_self ..)).trans (ih (f s x) fun v y hy => hf v y (List.mem_cons_of_mem _ hy))

/-- Either branch. -/
theorem ite {c : Prop} [Decidable c] (ht : c → Standing g s t) (hu : ¬c → Standing g s u) : Standing g s (if c then t else u) := by
  split
  case isTrue h => exact ht h
  case isFalse h => exact hu h

end Standing

section Steps
variable {g : Nat} (hg : g < 16) (s : State)

theorem send_standing (x : Sent) : Standing g s (s.send x) := .of_eq rfl rfl rfl

theorem toMembers_standing (x : Nat) (l : List Nat) (name : String) (args : List Nat) (data : List Byte) :
    Standing g s (s.toMembers x l name args data) := by
  rw [toMembers_eq]
  exact .of_eq rfl rfl rfl

include hg

theorem record_standing (e : Ev) : Standing g s (s.record e) := by
  have hmap : (s.record e).nodeMap = s.nodeMap := by
    obtain ⟨r, v, h⟩ := record_fields s e
    rw [h]
  refine .of_regs (l := [R.EVR_LOST]) ((sameRegsBut.refl _ s).record (by simp) e) (fun a ha => ?_) (record_glades s e) hmap
  rw [List.mem_singleton.mp ha]
  exact elsewhere_standing hg (by decide)

theorem charge_standing (c rd wr blk : Nat) : Standing g s (s.charge c rd wr blk) := by
  obtain ⟨r, b, h⟩ := charge_fields s c rd wr blk
  refine .of_regs (charge_regs s c rd wr blk) (fun a ha => ?_) (charge_glades ..) (by rw [h])
  rw [List.mem_singleton.mp ha]
  exact elsewhere_standing hg (by unfold R.BGT_USE; omega)

/-! ## Accesses that fail (R43, R296, R306) -/

/-- The STALE mask of any glade may change (R159). -/
theorem stale_standing {x : Nat} (hx : x < 16) (n : Nat) : Standing g s (s.wr (R.GRV_LOST x) F.GRV_LOST_STALE n) where
  regs a ha := reg_wr_other s (by
    simp only [standingRegs, List.mem_cons, List.not_mem_nil, or_false, R.GRV_WIT, R.GRV_MSTAT, R.GRV_DEAD, R.RTR_MAPCFG] at ha
    unfold R.GRV_LOST
    omega) _ _
  lost := by
    by_cases heq : x = g
    · subst heq
      exact rd_wr_apart s _ rfl rfl n
    · exact rd_wr_other s (by unfold R.GRV_LOST; omega) _ _ n
  nodeMap := rfl
  engines := .of_eq rfl rfl rfl

theorem refreshStale_standing {x : Nat} (hx : x < 16) : Standing g s (s.refreshStale x) := by
  unfold refreshStale
  exact .ite (fun _ => stale_standing hg s hx _) fun _ => stale_standing hg s hx _

theorem markStale_standing {x : Nat} (hx : x < 16) (p : Nat) : Standing g s (s.markStale x p) :=
  (Standing.updGl s x).trans (refreshStale_standing hg _ hx)

omit hg in
theorem dropFold_standing (x : Nat) (next : Bool) (p : Nat) : Standing g s (s.dropFold x next p) := by
  unfold dropFold
  exact (Standing.of_eq).trans (.updGl _ x)

theorem spoilUnit_standing {y : Nat} (hy : y < 16) (x u : Nat) : Standing g s (s.spoilUnit y x u) := by
  unfold spoilUnit
  dsimp only
  repeat' split
  · exact .updGl s y
  · exact .refl g s
  · exact .updGl s y
  · exact .refl g s
  · exact (dropFold_standing s y _ _).trans (.updGl _ y)
  · exact .refl g s
  · exact .each s fun v f _ => markStale_standing hg v hy f.p
  · exact .updGl s y
  · exact .refl g s

theorem awaitUnit_standing (q : Nat) {y : Nat} (hy : y < 16) (x u : Nat) : Standing g s (s.awaitUnit q y x u) := by
  unfold awaitUnit
  exact .ite (fun _ => (spoilUnit_standing hg s hy x u).trans (.of_eq)) fun _ => spoilUnit_standing hg s hy x u

omit hg in
theorem writeBytes_standing (o : Nat) (l : List Byte) : Standing g s (s.writeBytes o l) := by
  obtain ⟨m, h⟩ := writeBytes_fields s o l
  rw [h]
  exact .of_eq rfl rfl rfl

omit hg in
theorem roundAgain_standing (x k : Nat) : Standing g s (s.roundAgain x k) := by
  unfold roundAgain
  split
  · exact .refl g s
  · exact writeBytes_standing ..

omit hg in
theorem rememberLedger_standing (x e : Nat) : Standing g s (s.rememberLedger x e) :=
  .ite (fun _ => .refl g s) fun _ => .updGl s x

theorem setLag_standing {x : Nat} (hx : x < 16) (k : Nat) : Standing g s (s.setLag x k) :=
  ((rememberLedger_standing s x _).trans (writeBytes_standing ..)).trans
    (.setReg (elsewhere_standing hg (by unfold R.STP_GSTAT; omega)) _)

theorem bufferLost_standing {x : Nat} (hx : x < 16) (k : Nat) : Standing g s (s.bufferLost x k) := by
  have hlag := (Standing.updGl (g := g) s x (f := fun y => { y with notApplied := y.notApplied ++ [k] })).trans
    (setLag_standing hg _ hx k)
  unfold bufferLost
  dsimp only
  repeat' split
  · exact .setReg (elsewhere_standing hg (by unfold R.STP_GCTL; omega)) _
  · exact .refl g s
  · exact hlag.trans (record_standing hg _ _)
  · exact hlag

theorem lineFailed_standing (q o : Nat) : Standing g s (s.lineFailed q o) := by
  unfold lineFailed
  dsimp only
  split
  next x r hx =>
    have hlt := regionOfUnit_lt hx
    repeat' split
    · exact (awaitUnit_standing hg s q hlt _ _).trans (record_standing hg _ _)
    · exact roundAgain_standing ..
    · exact bufferLost_standing hg s hlt _
    · exact record_standing hg ..
  next => exact record_standing hg ..

theorem mptErr_standing (q : Nat) (w : Word) : Standing g s (s.setReg (R.MPT_ERR q) w) :=
  .setReg (elsewhere_standing hg (by unfold R.MPT_ERR; omega)) w

theorem readFailed_standing (o : Nat) : Standing g s (s.readFailed o) :=
  (mptErr_standing hg s _ _).trans (lineFailed_standing hg ..)

theorem writeFailed_standing (o : Nat) : Standing g s (s.writeFailed o) :=
  ((mptErr_standing hg s _ _).trans (mptErr_standing hg _ _ _)).trans (lineFailed_standing hg ..)

theorem readCheck_standing (o n : Nat) : Standing g s (s.readCheck o n) := .each s fun v _ _ => readFailed_standing hg v _

theorem store_standing (o : Nat) (l : List Byte) : Standing g s (s.store o l) :=
  .ite (fun _ => writeBytes_standing ..) fun _ => .each s fun v _ _ =>
    .ite (fun _ => writeBytes_standing ..) fun _ => writeFailed_standing hg v _

/-! ## Contributions and completed descriptors (R89, R142, R145, R155) -/

theorem addBlock_standing (c : Contribution) : Standing g s (s.addBlock g c) := by
  have hread : ∀ o, Standing g s ((s.readCheck o 4096).charge 3 32 32 0) := fun o =>
    (readCheck_standing hg s ..).trans (charge_standing hg ..)
  have hexc : ∀ (v : State) (k : Nat) (e : Exc), Standing g v (v.raiseExc (v.homeTile k) e) := fun v k e => by
    have hlt := homeTile_lt v k
    exact .setReg (elsewhere_standing hg (by unfold R.TIL_EXC; omega)) _
  unfold addBlock
  dsimp only
  refine (((hread _).trans (hexc ..)).trans (store_standing hg ..)).trans (.updGl _ g fun e => ?_)
  unfold GladeState.updStream
  dsimp only
  split
  all_goals exact .of_eq rfl rfl rfl

theorem drain_standing (n : Nat) : Standing g s (s.drain g n) := by
  induction n generalizing s with
  | zero => exact .refl g s
  | succ n ih =>
    unfold drain
    split
    · exact .refl g s
    · exact ((Standing.updGl s g).trans (addBlock_standing hg ..)).trans (ih _)

theorem drainHeld_standing : Standing g s (s.drainHeld g) := .ite (fun _ => drain_standing hg ..) fun _ => .refl g s

theorem cqQstat_standing {q : Nat} (hq : q < 16) (w : Word) : Standing g s (s.setReg (R.CQ_QSTAT q) w) :=
  .setReg (elsewhere_standing hg (by unfold R.CQ_QSTAT; omega)) w

theorem cqStatus_standing (w : Word) : Standing g s (s.setReg R.CQ_STATUS w) := .setReg (elsewhere_standing hg (by decide)) w

theorem refreshQueue_standing {q : Nat} (hq : q < 16) (wait : Bool) : Standing g s (s.refreshQueue q wait) :=
  .ite (fun _ => .refl g s) fun _ => cqQstat_standing hg s hq _

theorem cqTok_standing (d : Desc) (w : Word) : Standing g s (s.setReg (R.CQ_TOK d.stok) w) := by
  have hlt : d.stok < 2 ^ 8 := Nat.mod_lt _ (by decide)
  exact .setReg (elsewhere_standing hg (by unfold R.CQ_TOK; omega)) w

theorem completeDesc_standing {q : Nat} (hq : q < 16) (d : Desc) : Standing g s (s.completeDesc q d) := by
  unfold completeDesc
  dsimp only
  have htok : Standing g s (if d.sen then s.wr (R.CQ_TOK d.stok) F.CQ_TOK_COUNT
      ((s.rd (R.CQ_TOK d.stok) F.CQ_TOK_COUNT + 1) % 2 ^ 32) else s) := .ite (fun _ => cqTok_standing hg s d _) fun _ => .refl g s
  have hirq : ∀ v : State, Standing g v (if d.irq then v.setMask R.CQ_STATUS F.CQ_STATUS_IRQQ q else v) := fun v =>
    .ite (fun _ => cqStatus_standing hg v _) fun _ => .refl g v
  have hpop : ∀ v : State, Standing g v ((v.updDesc q d.index fun d => { d with completed := true }).popDone q) := fun v =>
    .of_eq rfl rfl rfl
  have htag : ∀ v : State, Standing g v (if v.halted q then v else v.wr (R.CQ_QSTAT q) F.CQ_QSTAT_TAG d.tag) := fun v =>
    .ite (fun _ => .refl g v) fun _ => cqQstat_standing hg v hq _
  exact (((htok.trans (hirq _)).trans (hpop _)).trans (htag _)).trans (refreshQueue_standing hg _ hq _)

theorem settleRsgrad_standing (x : Nat) : Standing g s (s.settleRsgrad x) :=
  .each s fun v q hq => .each v fun w d _ =>
    .ite (fun _ => completeDesc_standing hg w (Nat.lt_trans (List.mem_range.mp hq) (by decide)) d) fun _ => .refl g w

/-- A member that is lost is known as such, and this member's standing stays (R155). -/
theorem dropMember_standing (i : Nat) : Standing g s (s.dropMember g i) := by
  unfold dropMember
  refine (Standing.trans (.updGl s g fun e => ?_) (settleRsgrad_standing hg _ g)).trans (drainHeld_standing hg _)
  exact ⟨rfl, subset_addOnce .., List.Subset.refl _⟩

/-! ## Deltas and undo entries (R73 to R76, R105, R111) -/

theorem countGf_standing (k n : Nat) : Standing g s (s.countGf (s.homeTile k) n) := by
  have hlt := homeTile_lt s k
  exact (Standing.setReg (elsewhere_standing hg (by unfold R.TIL_WORK; omega)) _).trans (.of_eq rfl rfl rfl)

omit hg in
theorem sendLmn_standing (x : Nat) (next : Bool) (lmn : Nat) (name : String) (args : List Nat) (data : List Byte) :
    Standing g s (s.sendLmn x next lmn name args data) := .ite (fun _ => send_standing ..) fun _ => send_standing ..

theorem sendCopy_standing (next : Bool) (row didx : Nat) (delta : List Byte) (j : Nat) :
    Standing g s (s.sendCopy g next row didx delta j) :=
  (((Standing.updGl s g).trans (countGf_standing hg _ _ _)).trans (charge_standing hg ..)).trans
    (sendLmn_standing ..)

theorem sendCopies_standing (next : Bool) (q : Nat) (delta : List Byte) : Standing g s (s.sendCopies g next q delta) := by
  unfold sendCopies
  dsimp only
  split
  · exact .refl g s
  · exact .each s fun v j _ => sendCopy_standing hg v ..

theorem grvThin_standing (w : Word) : Standing g s (s.setReg (R.GRV_THIN g) w) :=
  .setReg (elsewhere_standing hg (by unfold R.GRV_THIN; omega)) w

theorem sendDelta_standing (q : Nat) (delta : List Byte) : Standing g s (s.sendDelta g q delta) :=
  (((grvThin_standing hg s _).trans (grvThin_standing hg _ _)).trans (.updGl _ g)).trans
    (sendCopies_standing hg ..)

theorem writeUndo_standing {next : Bool} {q : Nat} {delta : List Byte} {t : State} (h : s.writeUndo g next q delta = some t) :
    Standing g s t := by
  unfold writeUndo at h
  dsimp only at h
  split at h
  · exact absurd h (by simp)
  · refine Option.some.inj h ▸ ?_
    refine (((store_standing hg s _ _).trans (charge_standing hg ..)).trans (.updGl _ g fun e => ?_)).trans
      (.ite (fun _ => .refl g _) fun _ => .setReg (elsewhere_standing hg (by unfold R.GLD_JHWM; omega)) _)
    split
    all_goals exact .of_eq rfl rfl rfl

theorem gldStatus_standing (w : Word) : Standing g s (s.setReg (R.GLD_STATUS g) w) :=
  .setReg (elsewhere_standing hg (by unfold R.GLD_STATUS; omega)) w

theorem undoFull_standing (k : Nat) (leaves : List Nat) : Standing g s (s.undoFull g k leaves) :=
  ((Standing.updGl s g).trans (gldStatus_standing hg _ _)).trans (record_standing hg ..)

theorem sendLedger_standing (e : Nat) : Standing g s (s.sendLedger g e) := by
  unfold sendLedger
  dsimp only
  refine (Standing.trans ?_ (sendDelta_standing hg ..)).trans (.updGl _ g)
  refine .ite (fun _ => ?_) fun _ => .refl g s
  split
  next t ht => exact writeUndo_standing hg s ht
  next => exact undoFull_standing hg ..

theorem flushLedgers_standing : Standing g s (s.flushLedgers g) := .each s fun v _ _ => sendLedger_standing hg v _

theorem nextUndo_standing (q : Nat) (delta : List Byte) : Standing g s (s.nextUndo g q delta) := by
  unfold nextUndo
  refine .ite (fun _ => .refl g s) fun _ => ?_
  split
  next t ht => exact writeUndo_standing hg s ht
  next => exact gldStatus_standing hg ..

theorem flushNextLedgers_standing : Standing g s (s.flushNextLedgers g) := by
  unfold flushNextLedgers
  refine (Standing.each s fun v x _ => ?_).trans (.updGl _ g)
  exact (Standing.ite (fun _ => .refl g v) fun _ => nextUndo_standing hg v _ _).trans (sendCopies_standing hg ..)

/-! ## The end of the apply stage (R86, R106, R207) -/

omit hg in
theorem sendEnds_standing : Standing g s (s.sendEnds g) :=
  .ite (fun _ => .refl g s) fun _ => (Standing.updGl s g).trans
    (.each _ fun v _ _ => (Standing.updGl v g).trans (sendLmn_standing ..))

theorem settleShadows_standing : Standing g s (s.settleShadows g) := by
  have hanswered : ∀ (l : List (Nat × Nat × Nat)) (f : GladeState → List (Nat × Nat × Nat)), Standing g s
      ((s.each l fun s x => s.toMember g x.1 "COPY_ACK" [g, x.2.1, x.2.2, 1]).updGl g fun e => { e with shadowsIn := f e }) :=
    fun l f => (Standing.each s fun v x _ => send_standing v _).trans (.updGl _ g)
  have hends : ∀ (v : State) (l : List Nat), Standing g v
      ((v.each l fun s x => s.toMember g x "COPY_ACK" [g, 0, 0, 2]).updGl g fun e => { e with shadowEndsIn := [] }) :=
    fun v l => (Standing.each v fun w x _ => send_standing w _).trans (.updGl _ g)
  have hflush : ∀ v : State, Standing g v (if (v.gl g).nextFlushed then v else v.flushNextLedgers g) := fun v =>
    .ite (fun _ => .refl g v) fun _ => flushNextLedgers_standing hg v
  unfold settleShadows
  dsimp only
  exact .ite (fun _ => hanswered ..) fun _ => ((hanswered ..).trans (hflush _)).trans
    (.ite (fun _ => .refl g _) fun _ => hends ..)

/-- Settling the apply stage keeps the member's standing. -/
theorem settleApply_standing : Standing g s (s.settleApply g) := by
  unfold settleApply
  refine Standing.trans (((flushLedgers_standing hg s).trans (sendEnds_standing _)).trans (settleShadows_standing hg _)) ?_
  exact .ite (fun _ => .setReg (elsewhere_standing hg (by unfold R.STP_GSTAT; omega)) _) fun _ => .refl g _

/-! ## Requests to Seedbank (R234) -/

theorem seedWrite_standing (rec : List Byte) : Standing g s (s.seedWrite g rec) := by
  unfold seedWrite
  dsimp only
  refine Standing.trans ?_ (((store_standing hg _ _ _).trans (charge_standing hg ..)).trans
    (.setReg (elsewhere_standing hg (by unfold R.GLD_SBOPTR; omega)) _))
  exact .ite (fun _ => store_standing hg s _ _) fun _ => .refl g s

theorem tookSeal_standing : Standing g s s.tookSeal := by
  have hseal : ∀ (v : State) (w : Word), Standing g v (v.setReg R.SEC_SEAL w) := fun v w =>
    .setReg (elsewhere_standing hg (by decide)) w
  have hstatus : ∀ w : Word, Standing g s (s.setReg R.SEC_STATUS w) := fun w => .setReg (elsewhere_standing hg (by decide)) w
  unfold tookSeal advanceEpoch
  dsimp only
  repeat' split
  · exact ((hstatus _).trans (hseal _ _)).trans (record_standing hg _ _)
  · exact ((hstatus _).trans (hseal _ _)).trans (.of_eq rfl rfl rfl)
  · exact .of_eq rfl rfl rfl

theorem seedRequest_standing (l b : Nat) : Standing g s (s.seedRequest g l b) := by
  unfold seedRequest
  split
  · exact .refl g s
  · exact .ite (fun _ => .refl g s) fun _ => (seedWrite_standing hg ..).trans (tookSeal_standing hg _)

theorem wantBlock_standing (row : Nat) (lb : Nat × Nat) : Standing g s (s.wantBlock g row lb) :=
  .ite (fun _ => .refl g s) fun _ => ((Standing.updGl s g).trans
    (.setReg (elsewhere_standing hg (by unfold R.GLD_SBSTAT; omega)) _)).trans (seedRequest_standing hg ..)

end Steps
end State
end Sys2Proof.Machine
end

section
/-! PROOF. The fence of a member (R172), and what an operation keeps of a lost slot (R159, R168). -/
namespace Sys2Proof.Machine

namespace State
variable {s t u : State} {g : Nat}

/-! ## The fence -/

/-- Halting the queues touches the queues' registers alone. -/
theorem reg_haltGladeQueues (s : State) (g : Nat) {a : Nat} (ha : a < 0x0C0000) : (s.haltGladeQueues g).reg a = s.reg a := by
  have hstat : ∀ q : Nat, a ≠ R.CQ_QSTAT q := fun q => by unfold R.CQ_QSTAT; omega
  have hstatus : a ≠ R.CQ_STATUS := by unfold R.CQ_STATUS; omega
  refine each_eq s (fun v => v.reg a) fun v q _ => ?_
  split
  · rw [haltQueue, setMask, reg_wr_other _ hstatus, reg_setReg, if_neg (hstat q)]
  · rfl

theorem haltGladeQueues_glades (s : State) (g : Nat) : (s.haltGladeQueues g).glades = s.glades :=
  each_eq s State.glades fun v q _ => by
    split
    all_goals rfl

theorem dropNextShape_regs (s : State) (g : Nat) :
    s.sameRegsBut [R.GRV_NEXTCFG g, R.GRV_CPSTAT g, R.GRV_CPPROG g] (s.dropNextShape g) := by
  unfold dropNextShape
  split
  · exact .refl _ s
  · exact (((((sameRegsBut.refl _ s).of_regs rfl).wr (by simp) _ _).wr (by simp) _ _).setReg (by simp) _).of_regs (updGl_regs ..)

theorem agreement_dropNextShape (s : State) (g x : Nat) : ((s.dropNextShape g).gl x).agreement = (s.gl x).agreement := by
  unfold dropNextShape
  split
  · rfl
  · dsimp only
    rw [gl_updGl]
    split
    case isTrue heq => rw [heq, resetReg, gl_congr (setReg_glades ..), gl_congr (wr_glades ..), gl_congr (wr_glades ..)]; rfl
    case isFalse => rw [resetReg, gl_congr (setReg_glades ..), gl_congr (wr_glades ..), gl_congr (wr_glades ..)]; rfl

theorem dropNextShape_ao (s : State) (g : Nat) : (s.dropNextShape g).ao = s.ao := by
  unfold dropNextShape
  split
  all_goals rfl

/-- FIREBREAK_OUT is asserted. -/
def raiseFirebreak (s : State) : State := { s with ao := { s.ao with firebreak := true } }

theorem raiseFirebreak_regs (s : State) : s.raiseFirebreak.regs = s.regs := rfl

theorem raiseFirebreak_ao (s : State) : s.raiseFirebreak.ao.firebreak = true := rfl

/-- What a fence shows in registers: HOLD, STATE 6, and FENCED with the glade and VIS. -/
def showFence (s : State) (g : Nat) : State :=
  let vis := s.rd (R.GRV_MSTAT g) F.GRV_MSTAT_VIS
  let s := s.toMembers g (s.grovePeers g) "FENCE" [g, s.lmn g]
  let s := ((s.haltGladeQueues g).setHold g true).setMstate g 6
  let s := s.setMask R.GRV_FENCE F.GRV_FENCE_FENCED g
  (s.wr R.GRV_FENCE F.GRV_FENCE_LASTG g).wr R.GRV_FENCE F.GRV_FENCE_VIS vis

/-- What a fence ends: the agreement, the sweep, the clearing and the plan in hand. -/
def endMember (s : State) (g : Nat) : State :=
  let s := if (s.gl g).agreement.isSome then s.wr R.GRV_WIT F.GRV_WIT_ACTIVE 0 else s
  let s := s.wr (R.GLD_SBSTAT g) F.GLD_SBSTAT_SWEEP 0
  (s.updGl g fun e => { e with
    agreement := none, sweep := none, wrapPending := false, serving := [], standIn := none, reads := [],
    clearWaits := [] }).dropNextShape g

theorem fence_of_unfenced (h : s.fenced g = false) :
    s.fence g = ((s.showFence g).raiseFirebreak.endMember g).record ((ev Sev.fault Src.grv g).field R.GRV_FENCE F.GRV_FENCE_FENCED) := by
  unfold fence
  rw [if_neg (by simp [h])]
  rfl

theorem fence_of_fenced (h : s.fenced g = true) : s.fence g = s := if_pos h

theorem endMember_regs (s : State) (g : Nat) : s.sameRegsBut
    [R.GRV_WIT, R.GLD_SBSTAT g, R.GRV_NEXTCFG g, R.GRV_CPSTAT g, R.GRV_CPPROG g] (s.endMember g) := by
  have hwit : s.sameRegsBut [R.GRV_WIT, R.GLD_SBSTAT g, R.GRV_NEXTCFG g, R.GRV_CPSTAT g, R.GRV_CPPROG g]
      (if (s.gl g).agreement.isSome then s.wr R.GRV_WIT F.GRV_WIT_ACTIVE 0 else s) := by
    split
    · exact (sameRegsBut.refl _ s).wr (by simp) _ _
    · exact .refl _ s
  unfold endMember
  exact ((hwit.wr (by simp) _ _).of_regs (updGl_regs ..)).trans ((dropNextShape_regs _ g).mono (by simp))

theorem agreement_endMember (s : State) (g : Nat) : ((s.endMember g).gl g).agreement = none := by
  unfold endMember
  dsimp only
  rw [agreement_dropNextShape, gl_updGl, if_pos rfl]

theorem endMember_ao (s : State) (g : Nat) : (s.endMember g).ao = s.ao := by
  unfold endMember
  dsimp only
  rw [dropNextShape_ao, updGl_ao, wr_ao]
  split
  all_goals rfl

/-- A register that a fence shows reads after the fence as it is shown. -/
theorem rd_fence (h : s.fenced g = false) {a : Nat} (ha : a ∈ [R.GRV_FENCE, R.GRV_MSTAT g, R.PHS_GSTAT g]) (hg : g < 16) (f : Fld) :
    (s.fence g).rd a f = (s.showFence g).rd a f := by
  simp only [List.mem_cons, List.not_mem_nil, or_false, R.GRV_FENCE, R.GRV_MSTAT, R.PHS_GSTAT] at ha
  rw [fence_of_unfenced h, rd_record _ _ (by unfold R.EVR_LOST; omega), (endMember_regs _ g).rd, rd_congr (raiseFirebreak_regs _)]
  simp only [List.mem_cons, List.not_mem_nil, or_false, R.GRV_WIT, R.GLD_SBSTAT, R.GRV_NEXTCFG, R.GRV_CPSTAT, R.GRV_CPPROG]
  omega

theorem fenced_showFence (s : State) {g x : Nat} (hg : g < 16) (hx : x < 16) :
    (s.showFence g).fenced x = (s.fenced x || decide (g = x)) := by
  have hbefore : (((((s.toMembers g (s.grovePeers g) "FENCE" [g, s.lmn g]).haltGladeQueues g).setHold g true).setMstate g 6)).rd
      R.GRV_FENCE F.GRV_FENCE_FENCED = s.rd R.GRV_FENCE F.GRV_FENCE_FENCED := by
    have hmstat : R.GRV_FENCE ≠ R.GRV_MSTAT g := by unfold R.GRV_FENCE R.GRV_MSTAT; omega
    have hphs : R.GRV_FENCE ≠ R.PHS_GSTAT g := by unfold R.GRV_FENCE R.PHS_GSTAT; omega
    rw [setMstate, rd_wr_other _ hmstat, setHold, flag, rd_wr_other _ hphs, rd, reg_haltGladeQueues _ _ (by decide),
      reg_congr (toMembers_regs ..), ← rd]
  have hshown : (s.showFence g).rd R.GRV_FENCE F.GRV_FENCE_FENCED =
      (s.rd R.GRV_FENCE F.GRV_FENCE_FENCED ||| 2 ^ g) % 2 ^ F.GRV_FENCE_FENCED.width := by
    rw [← hbefore, showFence, rd_wr_apart _ _ rfl rfl, rd_wr_apart _ _ rfl rfl, setMask, rd_wr_same _ _ rfl]
  rw [fenced, hshown, fenced, bitAt_eq_testBit, bitAt_eq_testBit, Nat.testBit_mod_two_pow, Nat.testBit_or, Nat.testBit_two_pow,
    decide_eq_true (show x < F.GRV_FENCE_FENCED.width from hx), Bool.true_and]

theorem mstate_showFence (s : State) (g : Nat) : (s.showFence g).mstate g = 6 := by
  have hne : R.GRV_MSTAT g ≠ R.GRV_FENCE := by unfold R.GRV_FENCE R.GRV_MSTAT; omega
  rw [mstate, showFence, rd_wr_other _ hne, rd_wr_other _ hne, setMask, rd_wr_other _ hne, setMstate, rd_wr_same _ _ rfl]
  rfl

theorem hold_showFence (s : State) (g : Nat) (hg : g < 16) : (s.showFence g).hold g = true := by
  have hfence : R.PHS_GSTAT g ≠ R.GRV_FENCE := by unfold R.GRV_FENCE R.PHS_GSTAT; omega
  have hmstat : R.PHS_GSTAT g ≠ R.GRV_MSTAT g := by unfold R.GRV_MSTAT R.PHS_GSTAT; omega
  have hrd : (s.showFence g).rd (R.PHS_GSTAT g) F.PHS_GSTAT_HOLD = 1 := by
    rw [showFence, rd_wr_other _ hfence, rd_wr_other _ hfence, setMask, rd_wr_other _ hfence, setMstate, rd_wr_other _ hmstat,
      setHold, flag, rd_wr_same _ _ rfl]
    rfl
  rw [hold, on, hrd]
  rfl

/-- A fence adds its own glade to the fenced ones. -/
theorem fenced_fence (s : State) {g x : Nat} (hg : g < 16) (hx : x < 16) : (s.fence g).fenced x = (s.fenced x || decide (g = x)) := by
  cases h : s.fenced g with
  | true =>
    rw [fence_of_fenced h]
    by_cases heq : g = x
    · rw [← heq, h, Bool.true_or]
    · rw [decide_eq_false heq, Bool.or_false]
  | false => rw [fenced, rd_fence h (by simp) hg, ← fenced, fenced_showFence s hg hx]

/-- What a fence leaves of the member (R172). -/
theorem fence_shows (h : s.fenced g = false) (hg : g < 16) : (s.fence g).fenced g = true ∧ (s.fence g).hold g = true ∧
    (s.fence g).mstate g = 6 ∧ (s.fence g).ao.firebreak = true ∧ ((s.fence g).gl g).agreement = none := by
  refine ⟨?_, ?_, ?_, ?_, ?_⟩
  · rw [fenced_fence s hg hg, decide_eq_true rfl, Bool.or_true]
  · rw [hold, on, rd_fence h (by simp) hg, ← on, ← hold, hold_showFence s g hg]
  · rw [mstate, rd_fence h (by simp) hg, ← mstate, mstate_showFence]
  · rw [fence_of_unfenced h, record_ao, endMember_ao, raiseFirebreak_ao]
  · rw [fence_of_unfenced h, gl_congr (record_glades ..), agreement_endMember]

theorem fence_mem (s : State) (g : Nat) : (s.fence g).mem = s.mem :=
  (fence_keeps s g (Keeps.refl (m := false) (f := false) (u := false) s)).mem rfl

end State
end Sys2Proof.Machine
end

section
/-! PROOF. A slot that a decision has declared lost stays lost while the decision is applied (R155, R156, R159, R168, R175 to R179). -/
namespace Sys2Proof.Machine

namespace State
variable {s t u : State} {g : Nat}

/-- The lost slots of glade g's grove stay lost, and none of its lost LMNs is forgotten. -/
structure KeepsLoss (g : Nat) (s t : State) : Prop where
  lost : t.rd (R.GRV_LOST g) F.GRV_LOST_LOST = s.rd (R.GRV_LOST g) F.GRV_LOST_LOST
  gone : (s.gl g).gone ⊆ (t.gl g).gone

theorem Standing.keepsLoss (h : Standing g s t) : KeepsLoss g s t := ⟨h.lost, h.engines.gone⟩

namespace KeepsLoss

theorem refl (g : Nat) (s : State) : KeepsLoss g s s := (Standing.refl g s).keepsLoss

theorem trans (h : KeepsLoss g s t) (h' : KeepsLoss g t u) : KeepsLoss g s u :=
  ⟨h'.lost.trans h.lost, fun _ hx => h'.gone (h.gone hx)⟩

/-- A change of other registers alone, with the engines left as they are. -/
theorem of_regs {l : List Nat} (hr : s.sameRegsBut l t) (hl : R.GRV_LOST g ∉ l) (he : t.glades = s.glades := by rfl) :
    KeepsLoss g s t := ⟨hr.rd hl _, by rw [gl_congr he]; exact List.Subset.refl _⟩

theorem setReg {a : Nat} (ha : R.GRV_LOST g ≠ a) (v : Word) : KeepsLoss g s (s.setReg a v) :=
  of_regs (l := [a]) ((sameRegsBut.refl _ s).setReg (by simp) v) (by simpa using ha)

theorem updGl (s : State) {f : GladeState → GladeState} (hf : ∀ e : GladeState, e.gone ⊆ (f e).gone := by
    exact fun _ => List.Subset.refl _) : KeepsLoss g s (s.updGl g f) := ⟨rfl, by
  rw [gl_updGl, if_pos rfl]
  exact hf _⟩

theorem each {α : Type} {f : State → α → State} {l : List α} (s : State) (hf : ∀ v, ∀ x ∈ l, KeepsLoss g v (f v x)) :
    KeepsLoss g s (s.each l f) := by
  unfold State.each
  induction l generalizing s with
  | nil => exact refl g s
  | cons x r ih =>
    exact (hf s x (List.mem_cons_self ..)).trans (ih (f s x) fun v y hy => hf v y (List.mem_cons_of_mem _ hy))

/-- Either branch. -/
theorem ite {c : Prop} [Decidable c] (ht : KeepsLoss g s t) (hu : KeepsLoss g s u) : KeepsLoss g s (if c then t else u) := by
  split
  · exact ht
  · exact hu

end KeepsLoss

/-! ## The registers of the grove beside GRV_LOST -/

theorem grvMstat_keepsLoss (s : State) (g : Nat) (w : Word) : KeepsLoss g s (s.setReg (R.GRV_MSTAT g) w) :=
  .setReg (by unfold R.GRV_LOST R.GRV_MSTAT; omega) w

theorem grvWit_keepsLoss (s : State) (g : Nat) (w : Word) : KeepsLoss g s (s.setReg R.GRV_WIT w) :=
  .setReg (by unfold R.GRV_LOST R.GRV_WIT; omega) w

/-! ## The steps of a map update (R178) -/

/-- The entry of an LMN takes its PNID, and the entry of the spare that is installed is emptied. -/
def installMap (s : State) (g lmn pnid seq : Nat) : State :=
  let i := (s.rd (R.RTR_MAPCFG g) F.RTR_MAPCFG_BASE + lmn) % 65536
  let s := (s.setMapEntry i ⟨pnid, true⟩).wr (R.RTR_MAPCFG g) F.RTR_MAPCFG_SEQ seq
  s.each ((s.spareEntries g).filter fun x => s.sparePnid g x == pnid) fun s x => s.clearMask (R.GRV_SPAREV g) F.GRV_SPAREV_VALID x

/-- The engines take the LMN's new place in: it is lost at its old one, awaited no longer, and hosted here only if this is the new one. -/
def learnMap (s : State) (g lmn pnid old : Nat) : State :=
  let swap := fun w : Word => if w.toNat % 2 ^ 16 = old then fput w ⟨0, 16⟩ pnid else w
  s.updGl g fun e => { e with
    awaited := e.awaited.erase lmn, gone := addOnce e.gone lmn,
    hosting := if pnid = s.pnid then e.hosting else e.hosting.erase lmn,
    plan := e.plan.map fun p => if p.kind = 0 then { p with map := p.map.map swap } else p }

/-- Accesses that waited for the update are issued again. -/
def issueAgain (s : State) (g lmn : Nat) (l : List Access) : State :=
  s.each l fun s a => s.toMember g lmn (if a.kind = 4 then "LWR" else "LRD") [g, a.offset, a.txid]

/-- A member that hosts no LMN any more is a plain member again. -/
def endHosting (s : State) (g : Nat) : State := if s.mstate g = 7 ∧ (s.gl g).hosting.isEmpty then s.setMstate g 1 else s

/-- The accesses wait no longer. -/
def endWaiting (s : State) (l : List Access) : State :=
  { s with router := { s.router with
      accesses := s.router.accesses.map fun a => if l.contains a then { a with waiting := false } else a } }

/-- The accesses to an LMN that wait for its place. -/
def waitingFor (s : State) (g lmn : Nat) : List Access :=
  s.router.accesses.filter fun a => a.glade == g && a.lmn == lmn && a.host.isNone

theorem applyMap_eq (s : State) (g lmn pnid seq : Nat) : s.applyMap g lmn pnid seq =
    let t := (s.installMap g lmn pnid seq).learnMap g lmn pnid (s.memberEntry g lmn).pnid
    ((t.issueAgain g lmn (t.waitingFor g lmn)).endHosting g).endWaiting (t.waitingFor g lmn) := rfl

section Steps
variable (hg : g < 16) (s : State)

/-! ## A stand-in is chosen (R175 to R179) -/

theorem applyMap_keepsLoss (i pnid seq : Nat) : KeepsLoss g s (s.applyMap g i pnid seq) := by
  have hcfg : ∀ (v : State) (w : Word), KeepsLoss g v (v.setReg (R.RTR_MAPCFG g) w) := fun v w =>
    .setReg (by unfold R.GRV_LOST R.RTR_MAPCFG; omega) w
  have hentry : ∀ (v : State) (j : Nat) (e : MapEntry), KeepsLoss g v (v.setMapEntry j e) := fun v _ _ =>
    .of_regs ((sameRegsBut.refl [] v).of_regs rfl) (by simp)
  have hinstall : KeepsLoss g s (s.installMap g i pnid seq) := ((hentry s _ _).trans (hcfg ..)).trans
    (.each _ fun v x _ => .setReg (by unfold R.GRV_LOST R.GRV_SPAREV; omega) _)
  have hlearn : ∀ v : State, KeepsLoss g v (v.learnMap g i pnid (s.memberEntry g i).pnid) := fun v => by
    unfold learnMap
    exact .updGl v fun e => subset_addOnce ..
  have hissue : ∀ (v : State) (l : List Access), KeepsLoss g v (v.issueAgain g i l) := fun v l =>
    .each v fun w a _ => (send_standing w _).keepsLoss
  have hhosting : ∀ v : State, KeepsLoss g v (v.endHosting g) := fun v => .ite (grvMstat_keepsLoss v g _) (.refl g v)
  have hwaiting : ∀ (v : State) (l : List Access), KeepsLoss g v (v.endWaiting l) := fun v l => (Standing.of_eq).keepsLoss
  rw [applyMap_eq]
  exact (((hinstall.trans (hlearn _)).trans (hissue ..)).trans (hhosting _)).trans (hwaiting ..)

theorem hostLmn_keepsLoss (i : Nat) (hg : g < 16) : KeepsLoss g s (s.hostLmn g i) := by
  unfold hostLmn
  dsimp only
  refine KeepsLoss.trans ?_ (applyMap_keepsLoss ..)
  refine KeepsLoss.trans ?_ (toMembers_standing ..).keepsLoss
  refine KeepsLoss.trans ?_ (record_standing hg ..).keepsLoss
  exact (KeepsLoss.updGl s).trans (grvMstat_keepsLoss ..)

theorem serve_keepsLoss (i : Nat) (cands : List Nat) (inWindow : Bool) (hg : g < 16) :
    KeepsLoss g s (s.serve g i cands inWindow) := by
  unfold serve
  dsimp only
  split
  · exact ((KeepsLoss.updGl s).trans (.updGl _)).trans (send_standing ..).keepsLoss
  · exact (KeepsLoss.updGl s).trans (hostLmn_keepsLoss _ i hg)

theorem serveLost_keepsLoss (d : Decision) (a : Agreement) (hg : g < 16) : KeepsLoss g s (s.serveLost g d a) :=
  .each s fun v _ _ => ((grvWit_keepsLoss v g _).trans (record_standing hg ..).keepsLoss).trans (serve_keepsLoss _ _ _ _ hg)

/-! ## Deadfall and collectives (R156, R197) -/

/-- A row counts as deadfall (R197). -/
def markDead (s : State) (g row : Nat) : State :=
  (s.updGl g fun e => { e with deadRows := e.deadRows ++ [row] }).inc (R.GRV_DEAD g) F.GRV_DEAD_ROWS

theorem countDead_of_new {row : Nat} (h : (s.gl g).deadRows.contains row = false) : s.countDead g row =
    State.each (s.markDead g row) (((s.markDead g row).heldErased g row).flatMap fun x => (s.markDead g row).blocksOfLeaf g x.1 x.2)
      fun s lb => s.wantBlock g row lb := if_neg (by simp only [h, Bool.false_eq_true, not_false_eq_true])

theorem markDead_keepsLoss (row : Nat) : KeepsLoss g s (s.markDead g row) :=
  (KeepsLoss.updGl s).trans (.setReg (by unfold R.GRV_LOST R.GRV_DEAD; omega) _)

theorem countDead_keepsLoss (row : Nat) (hg : g < 16) : KeepsLoss g s (s.countDead g row) := by
  cases h : (s.gl g).deadRows.contains row with
  | true =>
    have hsame : s.countDead g row = s := if_pos h
    rw [hsame]
    exact .refl g s
  | false =>
    rw [countDead_of_new s h]
    exact (markDead_keepsLoss s row).trans (.each _ fun v lb _ => (wantBlock_standing hg v row lb).keepsLoss)

theorem checkRows_keepsLoss (hg : g < 16) : KeepsLoss g s (s.checkRows g) := .each s fun v row _ => by
  unfold checkRow findDead
  refine .ite (.ite (.refl g v) ?_) (.refl g v)
  exact ((record_standing hg ..).keepsLoss.trans (countDead_keepsLoss _ row hg)).trans (toMembers_standing ..).keepsLoss

theorem failCollectives_keepsLoss (hg : g < 16) : KeepsLoss g s (s.failCollectives g) := .each s fun v q hq => by
  have hlt := List.mem_range.mp hq
  split
  · refine .of_regs (haltDesc_regs _ _ _ _) ?_
    simp only [List.mem_cons, List.not_mem_nil, or_false, R.GRV_LOST, R.CQ_QSTAT, R.CQ_STATUS]
    omega
  · exact .refl g v

/-! ## The agreement ends (R163, R164) -/

theorem startAgreement_keepsLoss (seq : Nat) (l : List Nat) (cause : Option Nat) :
    KeepsLoss g s (s.startAgreement g seq l cause) where
  lost := (startAgreement_regs s g seq l cause).rd (by
    simp only [List.mem_cons, List.not_mem_nil, or_false, R.GRV_LOST, R.GRV_MSTAT, R.GRV_WIT]
    omega) _
  gone := by
    rw [gl_startAgreement]
    exact List.Subset.refl _

/-- A member leaves its agreement for the state in which it rests. -/
def leaveAgreement (s : State) (g : Nat) : State :=
  let s := (s.updGl g fun e => { e with agreement := none, nextSuspects := [] }).wr R.GRV_WIT F.GRV_WIT_ACTIVE 0
  s.setMstate g (s.restState g)

theorem endAgreement_eq (s : State) (g : Nat) : s.endAgreement g =
    if (s.gl g).nextSuspects.isEmpty then s.leaveAgreement g
    else (s.leaveAgreement g).startAgreement g (((s.leaveAgreement g).gl g).lastSeq + 1) (s.gl g).nextSuspects none := rfl

theorem endAgreement_keepsLoss : KeepsLoss g s (s.endAgreement g) := by
  have hleft : KeepsLoss g s (s.leaveAgreement g) := by
    unfold leaveAgreement
    refine KeepsLoss.trans ?_ (grvMstat_keepsLoss ..)
    exact (KeepsLoss.updGl s).trans (grvWit_keepsLoss ..)
  rw [endAgreement_eq]
  exact .ite hleft (hleft.trans (startAgreement_keepsLoss ..))

theorem settleProfile_keepsLoss : KeepsLoss g s (s.settleProfile g) := by
  obtain ⟨r, h⟩ := settleProfile_fields s g
  rw [h]
  exact (Standing.of_eq).keepsLoss

end Steps

/-! ## The slot is lost (R155, R168) -/

/-- A slot is lost, and the LMN in it is known as lost. -/
def IsLost (s : State) (g x i : Nat) : Prop := bitAt (s.rd (R.GRV_LOST g) F.GRV_LOST_LOST) x = true ∧ i ∈ (s.gl g).gone

theorem IsLost.keep {x i : Nat} (h : s.IsLost g x i) (hk : KeepsLoss g s t) : t.IsLost g x i := ⟨hk.lost ▸ h.1, hk.gone h.2⟩

/-- A member takes a lost slot as such while no dual-coding window is open. -/
theorem isLost_loseSlot {x : Nat} (hg : g < 16) (hx : x < 32) (hwindow : s.windowOpen g = false) :
    (s.loseSlot g x).IsLost g x (s.lmnOfSlot g x) := by
  have hloss : bitAt ((s.setMask (R.GRV_LOST g) F.GRV_LOST_LOST x).rd (R.GRV_LOST g) F.GRV_LOST_LOST) x = true :=
    bitAt_rd_setMask s _ rfl hx
  unfold loseSlot
  dsimp only
  generalize hw : ((State.updGl _ g _).refreshVis g) = w
  have hregs : (s.setMask (R.GRV_LOST g) F.GRV_LOST_LOST x).sameRegsBut [R.GRV_WIT, R.GRV_MSTAT g] w := by
    rw [← hw]
    exact (((sameRegsBut.refl _ _).wr (by simp) _ _).of_regs (updGl_regs ..)).trans ((refreshVis_regs _ g).mono (by simp))
  have hopen : w.windowOpen g = false := by
    rw [← hwindow, windowOpen, windowOpen, on, on, hregs.rd, setMask, rd_wr_other _ (by unfold R.GRV_NEXTCFG R.GRV_LOST; omega)]
    simp only [List.mem_cons, List.not_mem_nil, or_false, R.GRV_NEXTCFG, R.GRV_WIT, R.GRV_MSTAT]
    omega
  have hplan : w.planLoss g (s.lmnOfSlot g x) = w := if_pos (by simp [hopen])
  rw [hplan]
  constructor
  · rw [(dropMember_standing hg w _).lost, hregs.rd, hloss]
    simp only [List.mem_cons, List.not_mem_nil, or_false, R.GRV_LOST, R.GRV_WIT, R.GRV_MSTAT]
    omega
  · unfold dropMember
    refine ((settleRsgrad_standing hg _ g).trans (drainHeld_standing hg _)).engines.gone ?_
    rw [gl_updGl, if_pos rfl]
    exact mem_addOnce ..

end State
end Sys2Proof.Machine
end

section
/-! PROOF. The rows ROUND2_END, DEC, DEC_DEADLINE, FIREBREAK_SIGHT_TIMEOUT and FORCE (R165, R168, R170 to R174). -/
namespace Sys2Proof.Machine

namespace State
variable {s : State} {g : Nat}

/-! ## A decision that loses no slot (R168) -/

/-- A member takes a decision: its SEQ, and that it is in sight. -/
def takeDecision (s : State) (g seq : Nat) : State :=
  (s.updGl g fun e => { e with lastSeq := max e.lastSeq seq }).updGl g fun e => { e with sightLow := false }

theorem applyDec_lossless {d : Decision} {a : Agreement} (ha : (s.gl g).agreement = some a) (hround : a.round ≠ 3)
    (hlost : d.lostSlots = []) (hcommitted : d.committed = none) (hwindow : d.inWindow = false) :
    s.applyDec g d = (((s.takeDecision g d.seq).endAgreement g).settleProfile g).settleApply g := by
  have hserve : ∀ (v : State) (a : Agreement), v.serveLost g d a = v := fun v a => by
    unfold serveLost
    rw [hlost, List.mergeSort_nil]
    rfl
  unfold applyDec
  simp only [ha, Option.getD_some, hround, decide_false, Bool.false_and, Bool.false_eq_true, if_false, hlost, List.contains_nil,
    List.isEmpty_nil, if_true, hcommitted, hwindow, hserve, Bool.or_self, ite_self]
  rfl

/-- A member that leaves its agreement rests as its engines say. -/
theorem gl_leaveAgreement (s : State) (g : Nat) :
    (s.leaveAgreement g).gl g = { s.gl g with agreement := none, nextSuspects := [] } := by
  rw [leaveAgreement, setMstate, gl_congr (wr_glades ..), gl_congr (wr_glades ..), gl_updGl, if_pos rfl]

theorem restState_congr {t : State} (hstand : (t.gl g).standIn = (s.gl g).standIn) (hhost : (t.gl g).hosting = (s.gl g).hosting) :
    t.restState g = s.restState g := by
  unfold restState
  rw [hstand, hhost]

theorem restState_lt (s : State) (g : Nat) : s.restState g < 8 := by
  unfold restState
  repeat' split
  all_goals decide

theorem mstate_leaveAgreement (s : State) (g : Nat) : (s.leaveAgreement g).mstate g = s.restState g := by
  rw [leaveAgreement, mstate, setMstate, rd_wr_same _ _ rfl, restState_congr (s := s)]
  · exact Nat.mod_eq_of_lt (restState_lt s g)
  all_goals rw [gl_congr (wr_glades ..), gl_updGl, if_pos rfl]

theorem active_leaveAgreement (s : State) (g : Nat) : (s.leaveAgreement g).rd R.GRV_WIT F.GRV_WIT_ACTIVE = 0 := by
  rw [leaveAgreement, setMstate, rd_wr_other _ (grvMstat_ne_grvWit g).symm, rd_wr_same _ _ rfl]
  rfl

/-- What is left of the agreement when a decision loses no slot. -/
theorem applyDec_lossless_shows {d : Decision} {a : Agreement} (hg : g < 16) (ha : (s.gl g).agreement = some a) (hround : a.round ≠ 3)
    (hlost : d.lostSlots = []) (hcommitted : d.committed = none) (hwindow : d.inWindow = false) (hnext : (s.gl g).nextSuspects = []) :
    ((s.applyDec g d).gl g).agreement = none ∧ (s.applyDec g d).mstate g = s.restState g ∧
      (s.applyDec g d).rd R.GRV_WIT F.GRV_WIT_ACTIVE = 0 := by
  have htaken : (s.takeDecision g d.seq).gl g = { s.gl g with lastSeq := max (s.gl g).lastSeq d.seq, sightLow := false } := by
    rw [takeDecision, gl_updGl, if_pos rfl, gl_updGl, if_pos rfl]
  have hend : (s.takeDecision g d.seq).endAgreement g = (s.takeDecision g d.seq).leaveAgreement g := by
    rw [endAgreement_eq, htaken, if_pos (by simp [hnext])]
  rw [applyDec_lossless ha hround hlost hcommitted hwindow, hend]
  generalize hw : (s.takeDecision g d.seq).leaveAgreement g = w
  have hstand := settleApply_standing hg (w.settleProfile g)
  refine ⟨?_, ?_, ?_⟩
  · rw [hstand.engines.agreement, gl_settleProfile, ← hw, gl_leaveAgreement]
  · rw [mstate, hstand.rd (by simp [standingRegs]), rd_congr (settleProfile_regs ..), ← mstate, ← hw, mstate_leaveAgreement]
    exact restState_congr (by rw [htaken]) (by rw [htaken])
  · rw [hstand.rd (by simp [standingRegs]), rd_congr (settleProfile_regs ..), ← hw, active_leaveAgreement]

/-! ## A decision that loses a slot (R155, R168) -/

theorem each_singleton {α : Type} (s : State) (x : α) (f : State → α → State) : s.each [x] f = f s x := rfl

/-- What follows the loss of a slot in a decision forgets no lost slot. -/
theorem settleLoss_keepsLoss (hg : g < 16) (v : State) (d : Decision) (a : Agreement) (p : Prop) [Decidable p] :
    KeepsLoss g v ((((((if p then (v.failCollectives g).serveLost g d a else v.failCollectives g).refreshEras g).checkRows
      g).endAgreement g).settleProfile g).settleApply g) := by
  have hfail := failCollectives_keepsLoss v hg
  have hserved : KeepsLoss g v (if p then (v.failCollectives g).serveLost g d a else v.failCollectives g) :=
    .ite (hfail.trans (serveLost_keepsLoss _ d a hg)) hfail
  exact ((((hserved.trans (grvMstat_keepsLoss ..)).trans (checkRows_keepsLoss _ hg)).trans (endAgreement_keepsLoss _)).trans
    (settleProfile_keepsLoss _)).trans (settleApply_standing hg _).keepsLoss

/-- The slot of a decision that loses one slot is lost for a member whose own slot is another one. -/
theorem isLost_applyDec {d : Decision} {x : Nat} (hg : g < 16) (hx : x < 32) (hother : x ≠ (s.code g).slot) (hlost : d.lostSlots = [x])
    (hcommitted : d.committed = none) (hinside : d.inWindow = false) (hwindow : s.windowOpen g = false) :
    (s.applyDec g d).IsLost g x (s.lmnOfSlot g x) := by
  have hnot : d.lostSlots.contains (s.code g).slot = false := by simp [hlost, hother.symm]
  have hlose : ∀ w, s.sameRegsBut [R.EVR_LOST, R.GRV_MSTAT g] w → (w.loseSlot g x).IsLost g x (s.lmnOfSlot g x) := fun w hw => by
    have hbelow : s.sameBelowWit w := hw.belowWit fun a ha => by
      simp only [List.mem_cons, List.not_mem_nil, or_false, R.EVR_LOST, R.GRV_MSTAT] at ha
      omega
    have hopen : w.windowOpen g = false := by
      rw [← hwindow, windowOpen, windowOpen, on, on, rd, hbelow _ (by unfold R.GRV_NEXTCFG; omega), ← rd]
    rw [← hbelow.lmnOfSlot hg]
    exact isLost_loseSlot hg hx hopen
  unfold applyDec
  dsimp only
  rw [if_neg (by simp only [hnot, Bool.false_eq_true, not_false_eq_true])]
  simp only [hlost, hcommitted, hinside, Bool.false_and, Bool.or_self, Bool.false_eq_true, if_false, List.isEmpty_cons,
    each_singleton]
  refine (hlose _ ?_).keep (settleLoss_keepsLoss hg _ d _ _)
  refine (sameRegsBut.of_regs (sameRegsBut.of_regs ?_ (updGl_regs ..)) (updGl_regs ..)).wr (by simp) _ _
  split
  · exact (sameRegsBut.refl _ s).record (by simp) _
  · exact .refl _ s

end State

section Rows
variable {s : State} {g : GladeId}

theorem exec_round2End_few {a : Agreement} (h : s.up) (ha : (s.gl g.val).agreement = some a) (hround : a.round = 2)
    (hfew : a.views.length < s.majority g.val) : exec (.round2End g) s = .next (s.fence g.val) := by
  have hexec : exec (.round2End g) s = .next _ := congrArg Host.Outcome.next (State.inMain_of_up h _)
  rw [hexec, ha]
  dsimp only
  rw [if_neg (by simp [hround]), if_pos hfew]

theorem exec_dec {d : Decision} {a : Agreement} (h : s.up) (hin : s.inGrove g.val = true) (hf : s.fenced g.val = false)
    (ha : (s.gl g.val).agreement = some a) (hseq : a.seq = d.seq) (hwindow : s.othersSwitched g.val d = false) :
    exec (.dec g d) s = .next (s.applyDec g.val d) := by
  have hexec : exec (.dec g d) s = .next _ := congrArg Host.Outcome.next (State.inMain_of_up h _)
  rw [hexec, if_neg (by simp [hin, hf]), ha]
  refine congrArg Host.Outcome.next ((if_pos hseq).trans ?_)
  unfold State.decision
  rw [hwindow]
  rfl

theorem exec_decDeadline {a : Agreement} {l : List Nat} (h : s.up) (ha : (s.gl g.val).agreement = some a) (hl : l ≠ []) :
    exec (.decDeadline g l) s = .next (s.startAgreement g.val (a.seq + 1) ((a.suspects ++ l).eraseDups) none) := by
  have hexec : exec (.decDeadline g l) s = .next _ := congrArg Host.Outcome.next (State.inMain_of_up h _)
  rw [hexec, ha]
  dsimp only
  rw [if_neg (by simpa using hl), List.append_nil]

theorem exec_firebreakSightTimeout (h : s.up) (hin : s.inGrove g.val = true) (hlow : (s.gl g.val).sightLow = true)
    (hvis : s.rd (R.GRV_MSTAT g.val) F.GRV_MSTAT_VIS < s.majority g.val) :
    exec (.firebreakSightTimeout g) s = .next (s.fence g.val) := by
  have hexec : exec (.firebreakSightTimeout g) s = .next _ := congrArg Host.Outcome.next (State.inMain_of_up h _)
  rw [hexec, if_pos (by simp [hin, hlow, hvis])]

theorem exec_force (h : s.up) (m : BitVec 16) : exec (.force m) s = .next (s.forceFence m.toNat) :=
  congrArg Host.Outcome.next (State.inMain_of_up h _)

/-- Fences add their glades to the fenced ones. -/
theorem State.fenced_each_fence (s : State) {l : List Nat} (hl : ∀ y ∈ l, y < 16) {x : Nat} (hx : x < 16) :
    (s.each l fun s y => s.fence y).fenced x = (s.fenced x || l.contains x) := by
  induction l generalizing s with
  | nil => simp [State.each]
  | cons y l ih =>
    have hstep : (s.each (y :: l) fun s y => s.fence y) = (s.fence y).each l fun s y => s.fence y := rfl
    have hy : decide (y = x) = (x == y) := by rw [Bool.beq_comm]; rfl
    rw [hstep, ih (s.fence y) fun z hz => hl z (List.mem_cons_of_mem _ hz), State.fenced_fence s (hl y (List.mem_cons_self ..)) hx,
      List.contains_cons, Bool.or_assoc, hy]

/-- FORCE fences the members that the mask names, and no other one. -/
theorem State.fenced_forceFence (s : State) (m : BitVec 16) {x : Nat} (hx : x < 16) :
    (s.forceFence m.toNat).fenced x = (s.fenced x || (m.getLsbD x && s.inGrove x)) := by
  have hnamed : ((List.range 16).filter fun y => bitAt m.toNat y && s.inGrove y).contains x = (m.getLsbD x && s.inGrove x) := by
    rw [Bool.eq_iff_iff, List.contains_iff_mem, List.mem_filter, List.mem_range, bitAt_eq_testBit, BitVec.testBit_toNat]
    exact and_iff_right hx
  rw [State.forceFence, State.fenced_each_fence s (fun y hy => List.mem_range.mp (List.mem_of_mem_filter hy)) hx, hnamed]

end Rows

/-- Settles O35: a member that lacks the majority is fenced, and a decision ends the agreement or follows it by the next one. -/
theorem decisionsAndFences : Obligations.DecisionsAndFences := by
  unfold Obligations.DecisionsAndFences
  refine ⟨fun s g a h ha hround hfew hf => ?_, fun s g d a h hin hf ha hseq hround hlost hcommitted hinside hnext => ?_,
    fun s g d a x h hin hf ha hseq _ hx hother hlost hcommitted hinside hwindow => ?_, fun s g a l h ha hl => ?_,
    fun s g h hin hlow hvis hf => ?_, fun s m h => ?_⟩
  · obtain ⟨hfenced, hhold, hstate, hbreak, hnone⟩ := State.fence_shows hf g.isLt
    exact ⟨_, exec_round2End_few h ha hround hfew, hfenced, hhold, hstate, hbreak, hnone, State.fence_mem s g.val⟩
  · have hsame : s.othersSwitched g.val d = false := by simp [State.othersSwitched, hlost]
    exact ⟨_, exec_dec h hin hf ha hseq hsame, State.applyDec_lossless_shows g.isLt ha hround hlost hcommitted hinside hnext⟩
  · have hsame : s.othersSwitched g.val d = false := by simp [State.othersSwitched, hwindow]
    exact ⟨_, exec_dec h hin hf ha hseq hsame, State.isLost_applyDec g.isLt hx hother hlost hcommitted hinside hwindow⟩
  · have hexec := exec_decDeadline h ha hl
    have hgl := State.gl_startAgreement s g.val (a.seq + 1) ((a.suspects ++ l).eraseDups) none
    exact ⟨_, _, hexec, congrArg GladeState.agreement hgl, rfl, rfl, fun x => by simp [List.mem_eraseDups],
      State.startAgreement_regs _ _ _ _ _, exec_mem hexec rfl⟩
  · obtain ⟨hfenced, hhold, hstate, hbreak, -⟩ := State.fence_shows hf g.isLt
    exact ⟨_, exec_firebreakSightTimeout h hin hlow hvis, hfenced, hhold, hstate, hbreak, State.fence_mem s g.val⟩
  · have hexec := exec_force h m
    refine ⟨_, hexec, fun g hg hm hin => ?_, fun g hg hm => ?_, exec_mem hexec rfl⟩
    · rw [State.fenced_forceFence s m hg, hm, hin, Bool.and_self, Bool.or_true]
    · rw [State.fenced_forceFence s m hg, hm, Bool.false_and, Bool.or_false]

end Sys2Proof.Machine
end

section
/-! PROOF. The member map after an update (R178), the spares that are left (R176, R177), and a spare that takes an LMN (R176). -/
namespace Sys2Proof.Machine

/-- A bit that is set is cleared by taking its weight away. -/
theorem testBit_sub_two_pow {n i : Nat} (h : n.testBit i = true) (j : Nat) :
    (n - 2 ^ i).testBit j = (n.testBit j && decide (j ≠ i)) := by
  have hodd : n / 2 ^ i % 2 = 1 := by simpa [Nat.testBit_eq_decide_div_mod_eq] using h
  have hlow : n % 2 ^ i < 2 ^ i := Nat.mod_lt _ (Nat.two_pow_pos i)
  have hhigh : n / 2 ^ i = 2 * (n / 2 ^ i / 2) + 1 := by omega
  have hsplit : n = 2 ^ i * (n / 2 ^ i) + n % 2 ^ i := (Nat.div_add_mod n (2 ^ i)).symm
  have hclear : n - 2 ^ i = 2 ^ i * (2 * (n / 2 ^ i / 2)) + n % 2 ^ i := by
    rw [hhigh, Nat.mul_add, Nat.mul_one] at hsplit
    omega
  rw [hclear, Nat.testBit_two_pow_mul_add _ hlow]
  conv_rhs => rw [hsplit, Nat.testBit_two_pow_mul_add _ hlow]
  rcases Nat.lt_trichotomy j i with hlt | heq | hgt
  · simp [hlt, Nat.ne_of_lt hlt]
  · simp [heq]
  · obtain ⟨k, hk⟩ : ∃ k, j - i = k + 1 := ⟨j - i - 1, by omega⟩
    rw [if_neg (Nat.not_lt.mpr hgt.le), if_neg (Nat.not_lt.mpr hgt.le), hk, Nat.testBit_succ, Nat.testBit_succ]
    simp [Nat.ne_of_gt hgt]

namespace State
variable {s t u : State} {g : Nat}

/-- A bit of a mask that is cleared, and every other one as it was. -/
theorem bitAt_rd_clearMask (s : State) (a : Nat) {f : Fld} (hf : f.ok = true) (i j : Nat) :
    bitAt ((s.clearMask a f i).rd a f) j = (bitAt (s.rd a f) j && decide (j ≠ i)) := by
  have hlt := rd_lt s a f
  rw [clearMask, rd_wr_same _ _ hf, bitAt_eq_testBit, bitAt_eq_testBit, bitAt_eq_testBit]
  cases hbit : (s.rd a f).testBit i with
  | true =>
    rw [if_pos rfl, Nat.mod_eq_of_lt (Nat.lt_of_le_of_lt (Nat.sub_le ..) hlt), testBit_sub_two_pow hbit]
  | false =>
    rw [if_neg Bool.false_ne_true, Nat.mod_eq_of_lt hlt]
    by_cases heq : j = i
    · rw [heq, hbit, Bool.false_and]
    · rw [decide_eq_true heq, Bool.and_true]

/-! ## The member map (R178, R286, R287) -/

/-- The map and the register that says where the glade's entries lie stay as they are. -/
structure SameMap (g : Nat) (s t : State) : Prop where
  nodeMap : t.nodeMap = s.nodeMap
  cfg : t.reg (R.RTR_MAPCFG g) = s.reg (R.RTR_MAPCFG g)

theorem Standing.sameMap (h : Standing g s t) : SameMap g s t := ⟨h.nodeMap, h.regs _ (by simp [standingRegs])⟩

namespace SameMap

theorem trans (h : SameMap g s t) (h' : SameMap g t u) : SameMap g s u := ⟨h'.nodeMap.trans h.nodeMap, h'.cfg.trans h.cfg⟩

theorem refl (g : Nat) (s : State) : SameMap g s s := ⟨rfl, rfl⟩

theorem setReg {a : Nat} (ha : R.RTR_MAPCFG g ≠ a) (v : Word) : SameMap g s (s.setReg a v) := ⟨rfl, by rw [reg_setReg, if_neg ha]⟩

theorem of_eq (hm : t.nodeMap = s.nodeMap := by rfl) (hr : t.regs = s.regs := by rfl) : SameMap g s t := ⟨hm, reg_congr hr _⟩

theorem memberEntry (h : SameMap g s t) (i : Nat) : t.memberEntry g i = s.memberEntry g i := by
  simp only [State.memberEntry, mapEntry, rd, h.nodeMap, h.cfg]

theorem seq (h : SameMap g s t) : t.rd (R.RTR_MAPCFG g) F.RTR_MAPCFG_SEQ = s.rd (R.RTR_MAPCFG g) F.RTR_MAPCFG_SEQ := by
  simp only [rd, h.cfg]

end SameMap

theorem settleProfile_sameMap (s : State) (g : Nat) : SameMap g s (s.settleProfile g) := by
  obtain ⟨r, h⟩ := settleProfile_fields s g
  rw [h]
  exact .of_eq

/-! ## A map update (R178) -/

/-- What the installation leaves of the map, with the spare entries that are left. -/
theorem sameMap_clearSpares (s : State) (g : Nat) (l : List Nat) :
    SameMap g s (s.each l fun s x => s.clearMask (R.GRV_SPAREV g) F.GRV_SPAREV_VALID x) :=
  ⟨each_eq s State.nodeMap fun _ _ _ => rfl, each_eq s (fun v => v.reg (R.RTR_MAPCFG g)) fun v x _ =>
    reg_wr_other v (by unfold R.RTR_MAPCFG R.GRV_SPAREV; omega) _ _⟩

/-- The update puts the LMN at its new place, under the sequence that it carries. -/
theorem memberEntry_installMap (s : State) (g i pnid q : Nat) : (s.installMap g i pnid q).memberEntry g i = ⟨pnid, true⟩ := by
  unfold installMap
  dsimp only
  rw [(sameMap_clearSpares _ g _).memberEntry, memberEntry, rd_wr_apart _ _ rfl rfl]
  exact (mapEntry_setMapEntry ..).trans (if_pos rfl)

theorem seq_installMap (s : State) (g i pnid : Nat) {q : Nat} (hq : q < 2 ^ 16) :
    (s.installMap g i pnid q).rd (R.RTR_MAPCFG g) F.RTR_MAPCFG_SEQ = q := by
  unfold installMap
  dsimp only
  rw [(sameMap_clearSpares _ g _).seq, rd_wr_same _ _ rfl]
  exact Nat.mod_eq_of_lt hq

/-- What follows the installation leaves the map alone. -/
theorem applyMap_sameMap (s : State) (g i pnid q : Nat) : SameMap g (s.installMap g i pnid q) (s.applyMap g i pnid q) := by
  have hissue : ∀ (v : State) (l : List Access), SameMap g v (v.issueAgain g i l) := fun v l =>
    ⟨each_eq v State.nodeMap fun _ _ _ => rfl, each_eq v (fun w => w.reg (R.RTR_MAPCFG g)) fun _ _ _ => rfl⟩
  have hhosting : ∀ v : State, SameMap g v (v.endHosting g) := fun v => by
    unfold endHosting
    split
    · exact .setReg (by unfold R.RTR_MAPCFG R.GRV_MSTAT; omega) _
    · exact .refl g v
  have hlearn : ∀ (v : State) (old : Nat), SameMap g v (v.learnMap g i pnid old) := fun _ _ => .of_eq
  have hwaiting : ∀ (v : State) (l : List Access), SameMap g v (v.endWaiting l) := fun _ _ => .of_eq
  rw [applyMap_eq]
  exact (((hlearn _ _).trans (hissue _ _)).trans (hhosting _)).trans (hwaiting _ _)

theorem memberEntry_applyMap (s : State) (g i pnid q : Nat) : (s.applyMap g i pnid q).memberEntry g i = ⟨pnid, true⟩ := by
  rw [(applyMap_sameMap ..).memberEntry, memberEntry_installMap]

theorem seq_applyMap (s : State) (g i pnid : Nat) {q : Nat} (hq : q < 2 ^ 16) :
    (s.applyMap g i pnid q).rd (R.RTR_MAPCFG g) F.RTR_MAPCFG_SEQ = q := by
  rw [(applyMap_sameMap ..).seq, seq_installMap _ _ _ _ hq]

theorem installMap_glades (s : State) (g i pnid q : Nat) : (s.installMap g i pnid q).glades = s.glades :=
  each_eq _ State.glades fun _ _ _ => rfl

/-- What a map update leaves of the engines. -/
theorem gl_applyMap (s : State) (g i pnid q : Nat) : (s.applyMap g i pnid q).gl g =
    (((s.installMap g i pnid q).learnMap g i pnid (s.memberEntry g i).pnid).gl g) := by
  have hissue : ∀ (v : State) (l : List Access), (v.issueAgain g i l).glades = v.glades := fun v l =>
    each_eq v State.glades fun _ _ _ => rfl
  have hhosting : ∀ v : State, (v.endHosting g).glades = v.glades := fun v => by
    unfold endHosting
    split
    all_goals rfl
  have hwaiting : ∀ (v : State) (l : List Access), (v.endWaiting l).glades = v.glades := fun _ _ => rfl
  rw [applyMap_eq]
  exact gl_congr ((hwaiting ..).trans ((hhosting _).trans (hissue ..))) g

theorem serving_applyMap (s : State) (g i pnid q : Nat) : ((s.applyMap g i pnid q).gl g).serving = (s.gl g).serving := by
  rw [gl_applyMap, learnMap, gl_updGl, if_pos rfl, ← gl_congr (installMap_glades s g i pnid q) g]

/-- What has been sent stays sent. -/
theorem sent_subset_applyMap (s : State) (g i pnid q : Nat) : s.sent ⊆ (s.applyMap g i pnid q).sent := by
  have hinstall : (s.installMap g i pnid q).sent = s.sent := each_eq _ State.sent fun _ _ _ => rfl
  have hlearn : ∀ (v : State) (old : Nat), (v.learnMap g i pnid old).sent = v.sent := fun _ _ => rfl
  have hissue : ∀ (v : State) (l : List Access), v.sent ⊆ (v.issueAgain g i l).sent := fun v l =>
    sent_subset_each v (fun w a => List.subset_append_left ..) l
  have hhosting : ∀ v : State, (v.endHosting g).sent = v.sent := fun v => by
    unfold endHosting
    split
    all_goals rfl
  have hwaiting : ∀ (v : State) (l : List Access), (v.endWaiting l).sent = v.sent := fun _ _ => rfl
  rw [applyMap_eq]
  dsimp only
  rw [hwaiting, hhosting]
  refine fun x hx => hissue _ _ ?_
  rw [hlearn, hinstall]
  exact hx

/-! ## An LMN that the coordinator hosts (R179) -/

theorem installMap_regs (s : State) (g i pnid q : Nat) : s.sameRegsBut [R.RTR_MAPCFG g, R.GRV_SPAREV g] (s.installMap g i pnid q) := by
  have hset : ∀ (j : Nat) (e : MapEntry), s.sameRegsBut [R.RTR_MAPCFG g, R.GRV_SPAREV g] (s.setMapEntry j e) := fun _ _ =>
    (sameRegsBut.refl _ s).of_regs rfl
  unfold installMap
  exact ((hset _ _).wr (by simp) _ _).each fun v _ _ => (sameRegsBut.refl _ v).wr (by simp) _ _

theorem pnid_installMap (s : State) (hg : g < 16) (i pnid q : Nat) : (s.installMap g i pnid q).pnid = s.pnid :=
  (installMap_regs s g i pnid q).rd (by
    simp only [List.mem_cons, List.not_mem_nil, or_false, R.RTR_SELF, R.RTR_MAPCFG, R.GRV_SPAREV]
    omega) _

/-- An update that names this node leaves what it hosts. -/
theorem hosting_applyMap_self (s : State) (hg : g < 16) (i q : Nat) : ((s.applyMap g i s.pnid q).gl g).hosting = (s.gl g).hosting := by
  rw [gl_applyMap, learnMap, gl_updGl, if_pos rfl, ← gl_congr (installMap_glades s g i s.pnid q) g]
  exact if_pos (pnid_installMap s hg ..).symm

theorem issueAgain_glades (s : State) (g i : Nat) (l : List Access) : (s.issueAgain g i l).glades = s.glades :=
  each_eq s State.glades fun _ _ _ => rfl

theorem issueAgain_regs (s : State) (g i : Nat) (l : List Access) : (s.issueAgain g i l).regs = s.regs :=
  each_eq s State.regs fun _ _ _ => rfl

/-- A map update touches no register but those of the map, of the spares and of the member's state. -/
theorem rd_applyMap (s : State) (g i pnid q : Nat) {a : Nat} (ha : a ≠ R.GRV_MSTAT g) (f : Fld) :
    (s.applyMap g i pnid q).rd a f = (s.installMap g i pnid q).rd a f := by
  have hhosting : ∀ v : State, (v.endHosting g).rd a f = v.rd a f := fun v => by
    unfold endHosting
    split
    · exact rd_wr_other v ha ..
    · rfl
  have hwaiting : ∀ (v : State) (l : List Access), (v.endWaiting l).rd a f = v.rd a f := fun _ _ => rfl
  rw [applyMap_eq]
  exact (hwaiting ..).trans ((hhosting _).trans (rd_congr (issueAgain_regs ..) ..))

/-- An update that names this node leaves the state of a member that hosts an LMN. -/
theorem mstate_applyMap_self (s : State) (hg : g < 16) (i q : Nat) (hhost : (s.gl g).hosting ≠ []) :
    (s.applyMap g i s.pnid q).mstate g = s.mstate g := by
  have hstate : (s.installMap g i s.pnid q).mstate g = s.mstate g := (installMap_regs s g i s.pnid q).rd (by
    simp only [List.mem_cons, List.not_mem_nil, or_false, R.GRV_MSTAT, R.RTR_MAPCFG, R.GRV_SPAREV]
    omega) _
  have hwaiting : ∀ (v : State) (l : List Access), (v.endWaiting l).mstate g = v.mstate g := fun _ _ => rfl
  have hissue : ∀ (v : State) (l : List Access), (v.issueAgain g i l).mstate g = v.mstate g := fun v l =>
    rd_congr (issueAgain_regs ..) ..
  have hkept : ∀ v : State, (v.gl g).hosting ≠ [] → v.endHosting g = v := fun v hv => if_neg (by simp [hv])
  have hlearnt := hosting_applyMap_self s hg i q
  rw [gl_applyMap] at hlearnt
  rw [applyMap_eq]
  dsimp only
  rw [hwaiting, hkept, hissue]
  · exact hstate
  · rw [gl_congr (issueAgain_glades ..), hlearnt]
    exact hhost

/-- A spare entry that is empty stays empty while other entries are emptied. -/
theorem bitAt_clearSpares (s : State) (g : Nat) (l : List Nat) {x : Nat}
    (h : bitAt (s.rd (R.GRV_SPAREV g) F.GRV_SPAREV_VALID) x = false) :
    bitAt ((s.each l fun s y => s.clearMask (R.GRV_SPAREV g) F.GRV_SPAREV_VALID y).rd (R.GRV_SPAREV g) F.GRV_SPAREV_VALID) x = false := by
  induction l generalizing s with
  | nil => exact h
  | cons y l ih =>
    refine ih (s.clearMask (R.GRV_SPAREV g) F.GRV_SPAREV_VALID y) ?_
    rw [bitAt_rd_clearMask s _ rfl, h, Bool.false_and]

theorem empty_applyMap (s : State) (g i pnid q : Nat) {x : Nat}
    (h : bitAt (s.rd (R.GRV_SPAREV g) F.GRV_SPAREV_VALID) x = false) :
    bitAt ((s.applyMap g i pnid q).rd (R.GRV_SPAREV g) F.GRV_SPAREV_VALID) x = false := by
  rw [rd_applyMap _ _ _ _ _ (by unfold R.GRV_SPAREV R.GRV_MSTAT; omega)]
  refine bitAt_clearSpares _ g _ ?_
  rw [rd_wr_other _ (by unfold R.GRV_SPAREV R.RTR_MAPCFG; omega)]
  exact h

/-- The coordinator that hosts an LMN, before it tells the glade. -/
def beginHosting (s : State) (g i : Nat) : State :=
  ((s.updGl g fun e => { e with hosting := addOnce e.hosting i, serving := e.serving.filter fun v => v.lmn != i }).setMstate g
    7).record (((ev Sev.fault Src.grv g).field (R.GRV_MSTAT g) F.GRV_MSTAT_STATE).about i)

theorem hostLmn_eq (s : State) (g i : Nat) : s.hostLmn g i =
    State.applyMap ((s.beginHosting g i).sendMapUpdate g i (s.beginHosting g i).pnid ((s.beginHosting g i).nextMapSeq g)) g i
      (s.beginHosting g i).pnid ((s.beginHosting g i).nextMapSeq g) := rfl

/-- The coordinator that hosts an LMN shows STATE 7, and an empty spare entry stays empty (R179). -/
theorem hostLmn_shows (s : State) (hg : g < 16) (i : Nat) {x : Nat}
    (h : bitAt (s.rd (R.GRV_SPAREV g) F.GRV_SPAREV_VALID) x = false) : i ∈ ((s.hostLmn g i).gl g).hosting ∧
      (s.hostLmn g i).mstate g = 7 ∧ bitAt ((s.hostLmn g i).rd (R.GRV_SPAREV g) F.GRV_SPAREV_VALID) x = false := by
  rw [hostLmn_eq]
  generalize hw : (s.beginHosting g i).sendMapUpdate g i (s.beginHosting g i).pnid ((s.beginHosting g i).nextMapSeq g) = w
  have hregs : w.regs = (s.beginHosting g i).regs := by
    rw [← hw]
    exact toMembers_regs ..
  have hpnid : (s.beginHosting g i).pnid = w.pnid := (rd_congr hregs ..).symm
  have hhost : (w.gl g).hosting = addOnce (s.gl g).hosting i := by
    rw [← hw, sendMapUpdate, gl_congr (toMembers_glades ..), beginHosting, gl_congr (record_glades ..), setMstate,
      gl_congr (wr_glades ..), gl_updGl, if_pos rfl]
  have hmem : i ∈ (w.gl g).hosting := by
    rw [hhost]
    exact mem_addOnce ..
  have hmstat : R.GRV_MSTAT g ≠ R.EVR_LOST := by unfold R.GRV_MSTAT R.EVR_LOST; omega
  have hsparev : R.GRV_SPAREV g ≠ R.EVR_LOST := by unfold R.GRV_SPAREV R.EVR_LOST; omega
  rw [hpnid]
  refine ⟨?_, ?_, ?_⟩
  · rw [hosting_applyMap_self w hg]
    exact hmem
  · rw [mstate_applyMap_self w hg _ _ (List.ne_nil_of_mem hmem), mstate, rd_congr hregs, beginHosting, rd_record _ _ hmstat, setMstate,
      rd_wr_same _ _ rfl]
    rfl
  · refine empty_applyMap _ _ _ _ _ ?_
    rw [rd_congr hregs, beginHosting, rd_record _ _ hsparev, setMstate,
      rd_wr_other _ (by unfold R.GRV_SPAREV R.GRV_MSTAT; omega), rd_congr (updGl_regs ..), h]

/-! ## A spare takes an LMN (R176) -/

/-- The descriptor and the ring of the glade in which the spare takes an LMN. -/
def receiveDescriptor (s : State) (g : Nat) (k : Takeover) : State :=
  (s.wr (R.GLD_MEMBER g) F.GLD_MEMBER_LMN k.lmn).setReg (R.GLD_RING g) (BitVec.ofNat 64 k.ring)

/-- The code, the join, CARRIED and the map sequence that come with the takeover. -/
def receiveCode (s : State) (g : Nat) (k : Takeover) : State :=
  let s := s.endFence g
  let s := (s.setReg (R.GRV_ROWCFG g) k.rowcfg).wr (R.GRV_ROWCFG g) F.GRV_ROWCFG_JOINED 1
  let s := s.setReg (R.GRV_NEXTCFG g) k.nextcfg
  let s := (s.wr (R.GRV_JOIN g) F.GRV_JOIN_STATE 2).wr (R.STP_GSTAT g) F.STP_GSTAT_CARRIED k.carried
  s.wr (R.RTR_MAPCFG g) F.RTR_MAPCFG_SEQ k.mapSeq

/-- The stand-in shows its grove, STATE 3, its coordinator and its own slot as lost. -/
def showStandIn (s : State) (g coord : Nat) : State :=
  let s := (s.showGrove g 3).wr (R.GRV_MSTAT g) F.GRV_MSTAT_COORD coord
  s.setMask (R.GRV_LOST g) F.GRV_LOST_LOST (s.code g).slot

/-- The engines of the stand-in as it starts. -/
def startStandIn (s : State) (g : Nat) (k : Takeover) : State :=
  s.updGl g fun e => { e with
    ringOpen := true, started := true, wrapPending := true, takenIn := k.inWindow, lossInRing := k.inWindow,
    gone := [k.lmn], inForce := s.shadowed g, standIn := some (s.standInFor g) }

theorem takeOver_of_active (coord : Nat) {k : Takeover} (h : ((s.receiveDescriptor g k).validate g).active g = true) :
    s.takeOver g coord k = (((((((s.receiveDescriptor g k).validate g).receiveCode g k).showStandIn g coord).startStandIn g
      k).refreshLeft g).refreshEras g).toMember g coord "READY" [g, k.lmn] := by
  have hactive : ¬(!((s.receiveDescriptor g k).validate g).active g) = true := by simp [h]
  exact if_neg hactive

theorem startStandIn_regs (s : State) (g : Nat) (k : Takeover) : (s.startStandIn g k).regs = s.regs := rfl

theorem toMember_regs (s : State) (g i : Nat) (name : String) (args : List Nat) : (s.toMember g i name args).regs = s.regs := rfl

theorem toMember_glades (s : State) (g i : Nat) (name : String) (args : List Nat) : (s.toMember g i name args).glades = s.glades := rfl

theorem refreshEras_regs (s : State) (g : Nat) : s.sameRegsBut [R.GRV_MSTAT g] (s.refreshEras g) :=
  (sameRegsBut.refl _ s).wr (by simp) _ _

theorem refreshEras_glades (s : State) (g : Nat) : (s.refreshEras g).glades = s.glades := rfl

theorem endFence_regs (s : State) (g : Nat) : s.sameRegsBut [R.GRV_FENCE] (s.endFence g) := by
  unfold endFence
  split
  · exact .refl _ s
  · exact ((sameRegsBut.refl _ s).wr (by simp) _ _).of_regs rfl

theorem receiveCode_regs (s : State) (g : Nat) (k : Takeover) : s.sameRegsBut
    [R.GRV_FENCE, R.GRV_ROWCFG g, R.GRV_NEXTCFG g, R.GRV_JOIN g, R.STP_GSTAT g, R.RTR_MAPCFG g] (s.receiveCode g k) := by
  unfold receiveCode
  exact (((((((endFence_regs s g).mono (by simp)).setReg (by simp) _).wr (by simp) _ _).setReg (by simp) _).wr (by simp) _ _).wr
    (by simp) _ _).wr (by simp) _ _

theorem refreshLeft_regs (s : State) (g : Nat) : s.sameRegsBut [R.GRV_RBLD g] (s.refreshLeft g) := by
  unfold refreshLeft
  split
  all_goals exact (sameRegsBut.refl _ s).wr (by simp) _ _

theorem refreshLeft_glades (s : State) (g : Nat) : (s.refreshLeft g).glades = s.glades := by
  unfold refreshLeft
  split
  all_goals rfl

theorem showStandIn_regs (s : State) (g coord : Nat) : s.sameRegsBut [R.GRV_MSTAT g, R.GRV_LOST g] (s.showStandIn g coord) := by
  unfold showStandIn showGrove
  have hgrove : s.sameRegsBut [R.GRV_MSTAT g, R.GRV_LOST g] ((((s.setMstate g 3).wr (R.GRV_MSTAT g) F.GRV_MSTAT_MAJ (s.majority g)).wr
      (R.GRV_MSTAT g) F.GRV_MSTAT_GROVE (s.lmn g / s.groveN g)).refreshVis g) :=
    ((((sameRegsBut.refl _ s).wr (by simp) _ _).wr (by simp) _ _).wr (by simp) _ _).trans ((refreshVis_regs _ g).mono (by simp))
  exact (hgrove.wr (by simp) _ _).wr (by simp) _ _

theorem mstate_showStandIn (s : State) (g coord : Nat) : (s.showStandIn g coord).mstate g = 3 := by
  have hne : R.GRV_MSTAT g ≠ R.GRV_LOST g := by unfold R.GRV_MSTAT R.GRV_LOST; omega
  have hgrove : (s.showGrove g 3).mstate g = 3 := by
    rw [showGrove, mstate_refreshVis, mstate, rd_wr_apart _ _ rfl rfl, rd_wr_apart _ _ rfl rfl, setMstate, rd_wr_same _ _ rfl]
    rfl
  rw [showStandIn, mstate, setMask, rd_wr_other _ hne, rd_wr_apart _ _ rfl rfl, ← mstate, hgrove]

/-- The registers below those of the grove are left as the enable leaves them. -/
theorem reg_takeOver (coord : Nat) {k : Takeover} (h : ((s.receiveDescriptor g k).validate g).active g = true) {a : Nat}
    (ha : a < 0x040000) : (s.takeOver g coord k).reg a = ((s.receiveDescriptor g k).validate g).reg a := by
  rw [takeOver_of_active coord h, reg_congr (toMember_regs ..), refreshEras_regs _ g a, refreshLeft_regs _ g a,
    reg_congr (startStandIn_regs ..), showStandIn_regs _ g coord a, receiveCode_regs _ g k a]
  all_goals
    simp only [List.mem_cons, List.not_mem_nil, or_false, R.GRV_MSTAT, R.GRV_RBLD, R.GRV_LOST, R.GRV_FENCE, R.GRV_ROWCFG,
      R.GRV_NEXTCFG, R.GRV_JOIN, R.STP_GSTAT, R.RTR_MAPCFG]
    omega

theorem mstate_takeOver (coord : Nat) {k : Takeover} (h : ((s.receiveDescriptor g k).validate g).active g = true) :
    (s.takeOver g coord k).mstate g = 3 := by
  have hleft : R.GRV_MSTAT g ∉ [R.GRV_RBLD g] := by
    simp only [List.mem_singleton, R.GRV_MSTAT, R.GRV_RBLD]
    omega
  rw [takeOver_of_active coord h, mstate, rd_congr (toMember_regs ..), refreshEras, rd_wr_apart _ _ rfl rfl,
    (refreshLeft_regs _ g).rd hleft, rd_congr (startStandIn_regs ..), ← mstate, mstate_showStandIn]

theorem standIn_takeOver (coord : Nat) {k : Takeover} (h : ((s.receiveDescriptor g k).validate g).active g = true) :
    ((s.takeOver g coord k).gl g).standIn.isSome = true := by
  rw [takeOver_of_active coord h, gl_congr (toMember_glades ..), gl_congr (refreshEras_glades ..), gl_congr (refreshLeft_glades ..),
    startStandIn, gl_updGl, if_pos rfl]
  rfl

/-- A spare whose enable passes is active as the LMN that it takes, in the ring of the takeover (R176). -/
theorem takeOver_shows (hg : g < 16) (coord : Nat) {k : Takeover} (herr : (s.receiveDescriptor g k).enableErr g = 0) :
    ((s.receiveDescriptor g k).validate g).active g = true ∧ (s.takeOver g coord k).active g = true ∧
      (s.takeOver g coord k).lmn g = k.lmn % 2 ^ F.GLD_MEMBER_LMN.width ∧ (s.takeOver g coord k).ring g = k.ring % 2 ^ 64 := by
  have hval : (s.receiveDescriptor g k).validate g = (s.receiveDescriptor g k).activate g := if_pos herr
  obtain ⟨-, hstatus, -⟩ := activate_status (s.receiveDescriptor g k) hg
  have hactive : ((s.receiveDescriptor g k).validate g).active g = true := by
    rw [hval, active, on, hstatus]
    rfl
  have hdescribed : ∀ a, a ∈ [R.GLD_MEMBER g, R.GLD_RING g] →
      (s.takeOver g coord k).reg a = (s.receiveDescriptor g k).reg a := fun a ha => by
    simp only [List.mem_cons, List.not_mem_nil, or_false, R.GLD_MEMBER, R.GLD_RING] at ha
    rw [reg_takeOver coord hactive (by omega), hval, activate_eq, (resetPhase_regs _ g) a, reg_congr (updGl_regs ..)]
    · unfold describe R.GLD_CTL R.GLD_STATUS R.GLD_LAYERHASH R.GLD_SIZE R.CQ_GSRC
      simp (disch := omega) only [reg_wr_other, reg_setReg, if_neg]
    · simp only [List.mem_cons, List.not_mem_nil, or_false, R.PHS_GSTAT, R.WPT_STAT]
      omega
  refine ⟨hactive, ?_, ?_, ?_⟩
  · rw [active, on, rd, reg_takeOver coord hactive (by unfold R.GLD_STATUS; omega), ← rd, ← on, ← active, hactive]
  · rw [lmn, rd, hdescribed _ (by simp), ← rd, receiveDescriptor, rd_setReg_other (by unfold R.GLD_MEMBER R.GLD_RING; omega),
      rd_wr_same _ _ rfl]
  · rw [ring, hdescribed _ (by simp), receiveDescriptor, reg_setReg, if_pos rfl, BitVec.toNat_ofNat]

end State
end Sys2Proof.Machine
end

section
/-! PROOF. The rows TAKEOVER, READY, READY_TIMEOUT and MAPUPDATE (R176 to R179). -/
namespace Sys2Proof.Machine

section Rows
variable {s : State} {g : GladeId}

theorem exec_takeover {c : Nat} {k : Takeover} (h : s.up) (hin : s.inGrove g.val = false) (hen : s.rd (R.GLD_CTL g.val) F.GLD_CTL_EN = 0)
    (hplan : k.plan = none) : exec (.takeover g c k) s = .next (s.takeOver g.val c k) := by
  have hexec : exec (.takeover g c k) s = .next _ := congrArg Host.Outcome.next (State.inMain_of_up h _)
  rw [hexec, if_neg (by simp [hin, State.on, hen]), hplan]

/-- The LMN is served no longer. -/
def dropServing (s : State) (g lmn : Nat) : State :=
  s.updGl g fun e => { e with serving := e.serving.filter fun v => v.lmn != lmn }

theorem exec_ready {v : Serving} (h : s.up) (hserving : (s.gl g.val).serving = [v]) :
    exec (.ready g v.lmn) s = .next ((State.applyMap ((dropServing s g.val v.lmn).sendMapUpdate g.val v.lmn v.pnid (s.nextMapSeq g.val))
      g.val v.lmn v.pnid (s.nextMapSeq g.val)).settleProfile g.val) := by
  have hexec : exec (.ready g v.lmn) s = .next _ := congrArg Host.Outcome.next (State.inMain_of_up h _)
  have hfind : (s.gl g.val).serving.find? (fun w => w.lmn == v.lmn) = some v := by simp [hserving]
  rw [hexec, hfind]
  rfl

theorem exec_readyTimeout_last {v : Serving} {x : Nat} (h : s.up) (hserving : (s.gl g.val).serving = [v]) (hspare : v.spare = some x)
    (hleft : v.left = []) : exec (.readyTimeout g v.lmn) s = .next ((State.hostLmn (dropServing
      (s.clearMask (R.GRV_SPAREV g.val) F.GRV_SPAREV_VALID x) g.val v.lmn) g.val v.lmn).settleProfile g.val) := by
  have hexec : exec (.readyTimeout g v.lmn) s = .next _ := congrArg Host.Outcome.next (State.inMain_of_up h _)
  have hfind : (s.gl g.val).serving.find? (fun w => w.lmn == v.lmn) = some v := by simp [hserving]
  rw [hexec, hfind]
  dsimp only
  rw [hspare, hleft]
  rfl

theorem exec_mapupdate_older {l pn q : Nat} (hq : s.mapNewer g.val q = false) : exec (.mapupdate g l pn q) s = .next s := by
  refine congrArg Host.Outcome.next ?_
  unfold State.inMain
  split
  · exact if_pos (by simp [hq])
  · rfl

/-- What a member does about the loss that a map update tells of (R155, R178, R184). -/
def afterUpdate (s : State) (g lmn pnid : Nat) : State :=
  let slot := lmn % s.groveN g
  let grove := s.inGrove g && s.lmnOfSlot g slot == lmn
  if lmn = s.lmn g ∧ pnid = s.pnid then
    (if s.mstate g = 3 then s.setMstate g 4 else s).settleProfile g
  else
    let s := if grove then s.setMask (R.GRV_LOST g) F.GRV_LOST_LOST slot else s
    let s := if s.active g && !grove then s.dropMember g lmn else s
    ((s.refreshEras g).settleProfile g).settleApply g

theorem exec_mapupdate_newer {l pn q : Nat} (h : s.up) (hq : s.mapNewer g.val q = true) :
    exec (.mapupdate g l pn q) s = .next (afterUpdate (s.applyMap g.val l pn q) g.val l pn) := by
  have hexec : exec (.mapupdate g l pn q) s = .next _ := congrArg Host.Outcome.next (State.inMain_of_up h _)
  rw [hexec, if_neg (by simp [hq])]
  rfl

/-- It leaves the member map as the update has set it. -/
theorem afterUpdate_sameMap (s : State) {g : Nat} (hg : g < 16) (lmn pnid : Nat) : State.SameMap g s (afterUpdate s g lmn pnid) := by
  have hmstat : ∀ (v : State) (w : Word), State.SameMap g v (v.setReg (R.GRV_MSTAT g) w) := fun v w =>
    .setReg (by unfold R.RTR_MAPCFG R.GRV_MSTAT; omega) w
  have hlost : ∀ (v : State) (w : Word), State.SameMap g v (v.setReg (R.GRV_LOST g) w) := fun v w =>
    .setReg (by unfold R.RTR_MAPCFG R.GRV_LOST; omega) w
  have hmember : ∀ v : State, State.SameMap g v (((v.refreshEras g).settleProfile g).settleApply g) := fun v =>
    ((hmstat ..).trans (State.settleProfile_sameMap ..)).trans (State.settleApply_standing hg _).sameMap
  unfold afterUpdate
  dsimp only
  repeat' split
  · exact (hmstat ..).trans (State.settleProfile_sameMap ..)
  · exact State.settleProfile_sameMap ..
  · exact ((hlost ..).trans (State.dropMember_standing hg _ _).sameMap).trans (hmember _)
  · exact (hlost ..).trans (hmember _)
  · exact (State.dropMember_standing hg _ _).sameMap.trans (hmember _)
  · exact hmember _

end Rows

/-- Settles O36: each row by the state that it answers. -/
theorem standInPlacement : Obligations.StandInPlacement := by
  unfold Obligations.StandInPlacement
  refine ⟨fun s g c k h hin hen hplan herr => ?_, fun s g l v h hserving hl => ?_, fun s g l x v h hserving hl hspare hleft hx => ?_,
    fun s g l pn q h hq hlt => ?_, fun s g l pn q hq => exec_mapupdate_older hq⟩
  · have hexec := exec_takeover (c := c) h hin hen hplan
    obtain ⟨hvalid, hactive, hlmn, hring⟩ := State.takeOver_shows g.isLt c herr
    refine ⟨_, hexec, hactive, State.mstate_takeOver c hvalid, hlmn, hring, State.standIn_takeOver c hvalid, ?_, exec_mem hexec rfl⟩
    rw [State.takeOver_of_active c hvalid]
    exact List.mem_append_right _ (List.mem_singleton_self _)
  · subst hl
    have hexec := exec_ready h hserving
    refine ⟨_, hexec, ?_, ?_, fun i hi => ?_, exec_mem hexec rfl⟩
    · rw [State.gl_settleProfile, State.serving_applyMap, State.sendMapUpdate, State.gl_congr (State.toMembers_glades ..), dropServing,
        State.gl_updGl, if_pos rfl, hserving]
      simp
    · rw [(State.settleProfile_sameMap ..).memberEntry, State.memberEntry_applyMap]
    · obtain ⟨r, hr⟩ := State.settleProfile_fields (State.applyMap ((dropServing s g.val v.lmn).sendMapUpdate g.val v.lmn v.pnid
        (s.nextMapSeq g.val)) g.val v.lmn v.pnid (s.nextMapSeq g.val)) g.val
      rw [hr]
      refine State.sent_subset_applyMap _ _ _ _ _ ?_
      rw [State.sendMapUpdate, State.toMembers_eq]
      exact List.mem_append_right _ (List.mem_map.mpr ⟨i, hi, rfl⟩)
  · subst hl
    have hexec := exec_readyTimeout_last h hserving hspare hleft
    have hempty : bitAt (State.rd (dropServing (s.clearMask (R.GRV_SPAREV g.val) F.GRV_SPAREV_VALID x) g.val v.lmn)
        (R.GRV_SPAREV g.val) F.GRV_SPAREV_VALID) x = false := by
      rw [dropServing, State.rd_congr (State.updGl_regs ..), State.bitAt_rd_clearMask _ _ rfl, decide_eq_false (not_not_intro rfl),
        Bool.and_false]
    obtain ⟨hhost, hstate, hvalid⟩ := State.hostLmn_shows _ g.isLt v.lmn hempty
    refine ⟨_, hexec, ?_, ?_, ?_, exec_mem hexec rfl⟩
    · rw [State.gl_settleProfile]
      exact hhost
    · rw [State.mstate, State.rd_congr (State.settleProfile_regs ..)]
      exact hstate
    · rw [State.rd_congr (State.settleProfile_regs ..)]
      exact hvalid
  · have hsame := afterUpdate_sameMap (s.applyMap g.val l pn q) g.isLt l pn
    refine ⟨_, exec_mapupdate_newer h hq, ?_, ?_⟩
    · rw [hsame.memberEntry, State.memberEntry_applyMap]
    · rw [hsame.seq, State.seq_applyMap _ _ _ _ hlt]

end Sys2Proof.Machine
end

section
/-! PROOF. What encoding and rebuilding a leaf touch: the leaf's bytes, its lists, and no row (R131, R183, R192, R193). -/
namespace Sys2Proof.Machine

/-- A parity string is no longer than its length says (R83). -/
theorem length_encodeParityBytes_le (len j : Nat) (d : List (List Byte)) : (encodeParityBytes len j d).length ≤ len := by
  have hfold : ∀ (l : List (List Byte × Nat)) (p : List Byte),
      (l.foldl (fun p d => xorBytes p (gscale (coef j d.2) d.1)) p).length ≤ p.length := fun l => by
    induction l with
    | nil => exact fun p => Nat.le_refl _
    | cons x l ih =>
      refine fun p => (ih _).trans ?_
      have hzip : (List.zipWith (· ^^^ ·) p (gscale (coef j x.2) x.1)).length ≤ p.length := by
        rw [List.length_zipWith]
        exact Nat.min_le_left ..
      exact hzip
  refine (hfold d.zipIdx (zeros len)).trans ?_
  rw [zeros, List.length_replicate]

/-- What the engines hold of the parity leaves: the stale ones, the unbuilt ones, and the deltas that wait for a build. -/
def GladeState.parity (e : GladeState) : List Nat × List Nat × List (Nat × List Byte) := (e.stalePar, e.unbuilt, e.heldDeltas)

namespace State
variable {s t : State} {g : Nat}

/-! ## Stored bytes (R295) -/

/-- What the ports serve they serve in part as well. -/
theorem served_of_le {o m n : Nat} (h : s.served o n = true) (hle : m ≤ n) : s.served o m = true := by
  refine List.all_eq_true.mpr fun i hi => List.all_eq_true.mp h i (List.mem_range.mpr ?_)
  have hlt := List.mem_range.mp hi
  omega

/-- A state that holds the memory of a write has stored its bytes. -/
theorem stores_of_mem {v : State} {o : Nat} {l : List Byte} (hbefore : v.mem = s.mem) (hafter : t.mem = (v.writeBytes o l).mem) :
    s.stores o l t := by
  have hbyte : ∀ a, t.readByte a = (v.writeBytes o l).readByte a := fun a => congrArg (sget memDefault · a) hafter
  refine ⟨fun i hi => ?_, fun a ha => ?_⟩
  · rw [hbyte, readByte_writeBytes_in v o i l hi, List.getD_eq_getElem _ _ hi]
  · rw [hbyte, readByte_writeBytes_out v o a l ha, readByte, hbefore, readByte]

/-! ## The contexts of a unit (R131, R133) -/

/-- Closing a unit's contexts changes nothing that the rows show. -/
theorem closeContext_sameRows (s : State) (g kind unit : Nat) : SameRows g s (s.closeContext g kind unit) where
  mem := closeContext_other s State.mem (fun _ _ _ => rfl) g kind unit
  regs := (sameRegsBut.refl _ s).of_regs (closeContext_other s State.regs (fun _ _ _ => rfl) g kind unit)
  engines := ⟨_, gl_congr (closeContext_other s State.glades (fun _ _ _ => rfl) g kind unit) g⟩

theorem closeContext_glades (s : State) (g kind unit : Nat) : (s.closeContext g kind unit).glades = s.glades :=
  closeContext_other s State.glades (fun _ _ _ => rfl) g kind unit

theorem closeContext_regs (s : State) (g kind unit : Nat) : (s.closeContext g kind unit).regs = s.regs :=
  closeContext_other s State.regs (fun _ _ _ => rfl) g kind unit

theorem served_closeContext (s : State) (g kind unit o n : Nat) : (s.closeContext g kind unit).served o n = s.served o n :=
  closeContext_other s (fun v => v.served o n) (fun _ _ _ => rfl) g kind unit

/-- A unit that takes a context has one that is parked. -/
theorem contexts_openContext (s : State) (k g kind unit : Nat) :
    (((s.openContext k g kind unit false).tl k).contexts.any fun c => c.glade == g && c.kind == kind && c.unit == unit && c.parked) =
      true := by
  have hraise : ∀ (v : State) (a : Nat) (f : Fld) (n : Nat), (v.raise a f n).tl k = v.tl k := fun _ _ _ _ => rfl
  rw [openContext, hraise, tl_updTl, if_pos rfl]
  simp

theorem openContext_regs (s : State) (k g kind unit : Nat) (clearing : Bool) :
    s.sameRegsBut [R.TIL_CTX k] (s.openContext k g kind unit clearing) :=
  ((sameRegsBut.refl _ s).of_regs (updTl_regs ..)).wr (by simp) _ _

/-- Asking the holders of a row only sends. -/
theorem askRow_sends (s : State) (g row : Nat) (encode : Bool) : ∃ m, s.askRow g row encode = s.sendAll m :=
  each_sends s (fun _ _ => ⟨_, rfl⟩) _

/-! ## A leaf of the stand-in is there (R192, R193) -/

theorem rebuilt_mem (s : State) (g : Nat) : (s.rebuilt g).mem = s.mem :=
  (rebuilt_keeps s g (Keeps.refl (m := false) (f := false) (u := false) s)).mem rfl

theorem leafRebuilt_mem (s : State) (g : Nat) : (s.leafRebuilt g).mem = s.mem :=
  (leafRebuilt_keeps s g (Keeps.refl (m := false) (f := false) (u := false) s)).mem rfl

/-- The engines of a member whose leaf is rebuilt change at most in that the member is no stand-in any more. -/
theorem gl_rebuilt (s : State) (g : Nat) : ∃ r, (s.rebuilt g).gl g = { s.gl g with standIn := r } := by
  unfold rebuilt
  split
  · dsimp only
    split
    · exact ⟨_, gl_congr (refreshLeft_glades ..) g⟩
    · refine ⟨none, ?_⟩
      have hstate : ∀ (v : State) (p : Prop) [Decidable p] (n : Nat), (if p then v.setMstate g n else v).glades = v.glades :=
          fun v p _ n => by
        split
        all_goals rfl
      rw [gl_congr (record_glades ..), gl_congr (refreshEras_glades ..), gl_congr (refreshLeft_glades ..), gl_congr (hstate ..), gl_updGl,
        if_pos rfl, gl_congr (toMembers_glades ..), clearMask, gl_congr (wr_glades ..)]
  · exact ⟨_, rfl⟩

theorem rebuilt_regs (s : State) (g : Nat) : s.sameRegsBut [R.GRV_LOST g, R.GRV_MSTAT g, R.GRV_RBLD g, R.EVR_LOST] (s.rebuilt g) := by
  have hleft : ∀ v : State, v.sameRegsBut [R.GRV_LOST g, R.GRV_MSTAT g, R.GRV_RBLD g, R.EVR_LOST] (v.refreshLeft g) := fun v =>
    (refreshLeft_regs v g).mono (by simp)
  have hstate : ∀ (v : State) (p : Prop) [Decidable p] (n : Nat),
      v.sameRegsBut [R.GRV_LOST g, R.GRV_MSTAT g, R.GRV_RBLD g, R.EVR_LOST] (if p then v.setMstate g n else v) := fun v p _ n => by
    split
    · exact (sameRegsBut.refl _ v).wr (by simp) _ _
    · exact .refl _ v
  unfold rebuilt
  split
  · dsimp only
    split
    · exact hleft s
    · refine sameRegsBut.record (sameRegsBut.trans (sameRegsBut.trans (sameRegsBut.trans ?_ (hstate _ _ _)) (hleft _))
        ((refreshEras_regs _ g).mono (by simp))) (by simp) _
      exact (((sameRegsBut.refl _ s).wr (by simp) _ _).of_regs (toMembers_regs ..)).of_regs (updGl_regs ..)
  · exact .refl _ s

/-- DONE counts leaves, and nothing but a leaf that is there changes it. -/
theorem done_rebuilt (s : State) {g : Nat} (hg : g < 16) :
    (s.rebuilt g).rd (R.GRV_RBLD g) F.GRV_RBLD_DONE = s.rd (R.GRV_RBLD g) F.GRV_RBLD_DONE := by
  have hleft : ∀ v : State, (v.refreshLeft g).rd (R.GRV_RBLD g) F.GRV_RBLD_DONE = v.rd (R.GRV_RBLD g) F.GRV_RBLD_DONE := fun v => by
    unfold refreshLeft
    split
    all_goals exact rd_wr_apart v _ rfl rfl _
  have hmstat : R.GRV_RBLD g ≠ R.GRV_MSTAT g := by unfold R.GRV_RBLD R.GRV_MSTAT; omega
  have hlost : R.GRV_RBLD g ≠ R.GRV_LOST g := by unfold R.GRV_RBLD R.GRV_LOST; omega
  have hevr : R.GRV_RBLD g ≠ R.EVR_LOST := by unfold R.GRV_RBLD R.EVR_LOST; omega
  have hstate : ∀ (v : State) (p : Prop) [Decidable p] (n : Nat), (if p then v.setMstate g n else v).rd (R.GRV_RBLD g) F.GRV_RBLD_DONE =
      v.rd (R.GRV_RBLD g) F.GRV_RBLD_DONE := fun v p _ n => by
    split
    · exact rd_wr_other v hmstat ..
    · rfl
  unfold rebuilt
  split
  · dsimp only
    split
    · exact hleft s
    · rw [rd_record _ _ hevr, refreshEras, rd_wr_other _ hmstat, hleft, hstate, rd_congr (updGl_regs ..), rd_congr (toMembers_regs ..),
        clearMask, rd_wr_other _ hlost]
  · rfl

theorem done_leafRebuilt (s : State) {g : Nat} (hg : g < 16) : (s.leafRebuilt g).rd (R.GRV_RBLD g) F.GRV_RBLD_DONE =
    min (s.rd (R.GRV_RBLD g) F.GRV_RBLD_DONE + 1) (2 ^ F.GRV_RBLD_DONE.width - 1) := by
  rw [leafRebuilt, done_rebuilt _ hg, rd_inc_same _ _ rfl]

/-! ## The end of the apply stage with no window open and no ledger leaf changed (R105, R207) -/

theorem settleShadows_closed (h : s.windowOpen g = false) : ∃ m f, s.settleShadows g = (s.sendAll m).updGl g f := by
  have hsends : ∀ l : List (Nat × Nat × Nat), ∃ m,
      (s.each l fun s x => s.toMember g x.1 "COPY_ACK" [g, x.2.1, x.2.2, 1]) = s.sendAll m := fun l =>
    each_sends s (fun _ _ => ⟨_, rfl⟩) l
  unfold settleShadows
  dsimp only
  generalize (s.gl g).shadowsIn.filter _ = l
  obtain ⟨m, hm⟩ := hsends l
  rw [hm]
  have hclosed : ∀ f, ((s.sendAll m).updGl g f).windowOpen g = false := fun _ => h
  exact ⟨m, _, if_pos (by rw [hclosed]; rfl)⟩

/-- Settling the apply stage then neither stores nor touches a register but STAGE. -/
theorem settleApply_closed (hledger : (s.gl g).ledgerOld = []) (hwindow : s.windowOpen g = false) :
    (s.settleApply g).mem = s.mem ∧ s.sameRegsBut [R.STP_GSTAT g] (s.settleApply g) := by
  have hflush : s.flushLedgers g = s := by
    unfold flushLedgers
    rw [hledger]
    rfl
  have hends : s.sendEnds g = s := if_pos (by rw [hwindow]; rfl)
  obtain ⟨m, f, hshadows⟩ := settleShadows_closed hwindow
  unfold settleApply
  rw [hflush, hends, hshadows]
  have hself : s.sameRegsBut [R.STP_GSTAT g] ((s.sendAll m).updGl g f) := (sameRegsBut.refl _ s).of_regs (updGl_regs ..)
  dsimp only
  split
  · exact ⟨rfl, hself.wr (by simp) _ _⟩
  · exact ⟨rfl, hself⟩

/-! ## A parity leaf is encoded (R183) -/

theorem countEncoded_mem (s : State) (g : Nat) : (s.countEncoded g).mem = s.mem :=
  (countEncoded_keeps s g (Keeps.refl (m := false) (f := false) (u := false) s)).mem rfl

theorem countEncoded_glades (s : State) (g : Nat) : (s.countEncoded g).glades = s.glades := by
  unfold countEncoded
  dsimp only
  repeat' split
  · rfl
  · exact record_glades ..
  · rfl

theorem countGf_glades (s : State) (k n : Nat) : (s.countGf k n).glades = s.glades := rfl

theorem countGf_mem (s : State) (k n : Nat) : (s.countGf k n).mem = s.mem := rfl

/-- Deltas that do not wait for a build need not be taken up after it. -/
theorem takeHeld_of_none (h : (s.gl g).heldDeltas = []) : s.takeHeld g = s := by
  unfold takeHeld
  rw [h]
  rfl

theorem refreshStale_mem (s : State) (g : Nat) : (s.refreshStale g).mem = s.mem :=
  (refreshStale_keeps s g (Keeps.refl (m := false) (f := false) (u := false) s)).mem rfl

theorem refreshEras_mem (s : State) (g : Nat) : (s.refreshEras g).mem = s.mem := rfl

theorem dropFold_mem (s : State) (g : Nat) (next : Bool) (p : Nat) : (s.dropFold g next p).mem = s.mem := rfl

theorem gl_dropFold (s : State) (g : Nat) (next : Bool) (p : Nat) : (s.dropFold g next p).gl g =
    { s.gl g with folds := (s.gl g).folds.filter fun f => !(f.next == next && f.p == p) } := by
  have hframe : (s.dropFrame g next p).glades = s.glades := rfl
  rw [dropFold, gl_updGl, if_pos rfl, gl_congr hframe]

/-- A parity leaf is written from its row's data. -/
def writeParity (s : State) (g p : Nat) (d : List (List Byte)) : State :=
  ((s.store (s.parityAddr g p) (encodeParityBytes 4096 (p % max 1 (s.code g).m) d)).charge 2 0 32 0).countGf (s.homeTile p) 4096

/-- A parity leaf that has been encoded leaves the lists of those to encode. -/
def parityThere (s : State) (g p : Nat) : State :=
  (s.dropFold g false p).updGl g fun e => { e with
    stalePar := e.stalePar.erase p, unbuilt := e.unbuilt.erase p, building := e.building.erase (false, p),
    standIn := e.standIn.map fun r => { r with parityLeft := r.parityLeft.erase p } }

theorem gl_parityThere (s : State) (g p : Nat) :
    ((s.parityThere g p).gl g).parity = ((s.gl g).stalePar.erase p, (s.gl g).unbuilt.erase p, (s.gl g).heldDeltas) := by
  rw [parityThere, gl_updGl, if_pos rfl, gl_dropFold, GladeState.parity]

/-- A parity leaf that is encoded holds its row's string, and is neither stale nor unbuilt any more (R183). -/
theorem encodeFrom_shows {p : Nat} (hserved : s.served (s.parityAddr g p) 4096 = true) (d : List (List Byte)) :
    (s.encodeFrom g p d).mem = (s.writeBytes (s.parityAddr g p) (encodeParityBytes 4096 (p % max 1 (s.code g).m) d)).mem ∧
      ((s.encodeFrom g p d).gl g).parity = ((s.gl g).stalePar.erase p, (s.gl g).unbuilt.erase p, (s.gl g).heldDeltas) := by
  have heq : s.encodeFrom g p d = (((s.writeParity g p d).parityThere g p).refreshStale g).refreshEras g := rfl
  have hstore := store_of_served s (served_of_le hserved (length_encodeParityBytes_le 4096 (p % max 1 (s.code g).m) d))
  have hglades : (s.writeParity g p d).glades = s.glades := by
    rw [writeParity, hstore, countGf_glades, charge_glades, writeBytes_glades]
  constructor
  · rw [heq, refreshEras_mem, refreshStale_mem, parityThere, updGl_mem, dropFold_mem, writeParity, hstore, countGf_mem, charge_mem]
  · rw [heq, gl_congr (refreshEras_glades ..), gl_congr (refreshStale_glades ..), gl_parityThere, gl_congr hglades]

/-- The encoding of a parity leaf from the data of its row, while no delta waits for it. -/
theorem encodeLeaf_shows {p : Nat} {l : List RowAnswer} {d : List (List Byte)} (hheld : (s.gl g).heldDeltas = [])
    (hd : s.encodeData g ((s.code g).rowOfParity (s.code g).slot p) (s.others g l) = some d)
    (hserved : s.served (s.parityAddr g p) 4096 = true) :
    (s.encodeLeaf g p l).mem = (s.writeBytes (s.parityAddr g p) (encodeParityBytes 4096 (p % max 1 (s.code g).m) d)).mem ∧
      ((s.encodeLeaf g p l).gl g).parity = ((s.gl g).stalePar.erase p, (s.gl g).unbuilt.erase p, []) := by
  obtain ⟨hmem, hparity⟩ := encodeFrom_shows hserved d
  have hcount : ∀ (w : State) (b : Bool), (if b then w.countEncoded g else w).mem = w.mem ∧
      ((if b then w.countEncoded g else w).gl g).parity = (w.gl g).parity := fun w b => by
    cases b with
    | true => exact ⟨countEncoded_mem w g, congrArg GladeState.parity (gl_congr (countEncoded_glades ..) g)⟩
    | false => exact ⟨rfl, rfl⟩
  have hmine : ∀ (w : State) (b : Bool), (if b then w.leafRebuilt g else w).mem = w.mem ∧
      ((if b then w.leafRebuilt g else w).gl g).parity = (w.gl g).parity := fun w b => by
    cases b with
    | true =>
      obtain ⟨r, hr⟩ := gl_rebuilt (w.inc (R.GRV_RBLD g) F.GRV_RBLD_DONE) g
      exact ⟨leafRebuilt_mem w g, (congrArg GladeState.parity hr).trans rfl⟩
    | false => exact ⟨rfl, rfl⟩
  have htaken : ∀ w : State, (w.gl g).parity = ((s.gl g).stalePar.erase p, (s.gl g).unbuilt.erase p, []) → w.takeHeld g = w :=
    fun w hw => takeHeld_of_none (congrArg (·.2.2) hw)
  have hfinal : ∀ b c : Bool, ((if c then (if b then (s.encodeFrom g p d).countEncoded g else s.encodeFrom g p d).leafRebuilt g
      else if b then (s.encodeFrom g p d).countEncoded g else s.encodeFrom g p d).gl g).parity =
        ((s.gl g).stalePar.erase p, (s.gl g).unbuilt.erase p, []) := fun b c => by
    rw [(hmine _ c).2, (hcount _ b).2, hparity, hheld]
  unfold encodeLeaf
  dsimp only
  rw [hd]
  dsimp only
  rw [htaken _ (hfinal _ _)]
  exact ⟨by rw [(hmine _ _).1, (hcount _ _).1, hmem], hfinal _ _⟩

/-! ## A data leaf is rebuilt (R193) -/

/-- A data leaf is written from the solution of its row. -/
def writeLeaf (s : State) (g q : Nat) (b : List Byte) : State :=
  ((s.store (s.leafAddr g q) b).charge 2 0 32 0).countGf (s.homeTile (s.leafIndex g q)) 4096

section Leaf
variable {q : Nat} {b : List Byte} (hserved : s.served (s.leafAddr g q) b.length = true)
include hserved

theorem writeLeaf_glades : (s.writeLeaf g q b).glades = s.glades := by
  rw [writeLeaf, store_of_served s hserved, countGf_glades, charge_glades, writeBytes_glades]

theorem writeLeaf_mem : (s.writeLeaf g q b).mem = (s.writeBytes (s.leafAddr g q) b).mem := by
  rw [writeLeaf, store_of_served s hserved, countGf_mem, charge_mem]

/-- The registers below those of the tiles stay as they are. -/
theorem writeLeaf_rd {a : Nat} (ha : a < 0x100000) (f : Fld) : (s.writeLeaf g q b).rd a f = s.rd a f := by
  have hwork : ∀ (v : State) (k n : Nat), (v.countGf k n).rd a f = v.rd a f := fun v k n =>
    rd_wr_other v (by unfold R.TIL_WORK; omega) ..
  rw [writeLeaf, store_of_served s hserved, hwork, (charge_regs _ 2 0 32 0).rd, rd_congr (writeBytes_regs ..)]
  simp only [List.mem_singleton, R.BGT_USE]
  omega

end Leaf

/-- A leaf of a moment calls neither for a ledger entry nor for a working copy. -/
theorem afterLeaf_moment {q : Nat} (hq : q < (1 + s.moments g) * s.bloc g) (hmoment : q % (1 + s.moments g) ≠ 0) :
    s.afterLeaf g q = s := (if_pos hq).trans (if_neg hmoment)

theorem leafThere_regs (s : State) (g q : Nat) : (s.leafThere g q).regs = s.regs := rfl

theorem leafThere_mem (s : State) (g q : Nat) : (s.leafThere g q).mem = s.mem := rfl

/-- A moment leaf that is rebuilt holds its row's solution, and DONE counts it (R193). -/
theorem rebuildData_shows {q i : Nat} {l : List RowAnswer} {d : List (List Byte)} (hg : g < 16)
    (hq : q < (1 + s.moments g) * s.bloc g) (hmoment : q % (1 + s.moments g) ≠ 0) (hledger : (s.gl g).ledgerOld = [])
    (hwindow : s.windowOpen g = false) (hd : s.solveRow g ((s.code g).rowOfLeaf (s.code g).slot q) 4096 (s.others g l) = some d)
    (hi : (s.code g).dataIndex ((s.code g).rowOfLeaf (s.code g).slot q) (s.code g).slot = some i)
    (hserved : s.served (s.leafAddr g q) (d.getD i (zeros 4096)).length = true) :
    (s.rebuildData g q l).mem = (s.writeBytes (s.leafAddr g q) (d.getD i (zeros 4096))).mem ∧
      (s.rebuildData g q l).rd (R.GRV_RBLD g) F.GRV_RBLD_DONE =
        min (s.rd (R.GRV_RBLD g) F.GRV_RBLD_DONE + 1) (2 ^ F.GRV_RBLD_DONE.width - 1) := by
  have hglades := writeLeaf_glades hserved
  have hrd : ∀ a, a < 0x100000 → ∀ f, (s.writeLeaf g q (d.getD i (zeros 4096))).rd a f = s.rd a f := fun a ha f =>
    writeLeaf_rd hserved ha f
  have heq : s.rebuildData g q l =
      (((((s.writeLeaf g q (d.getD i (zeros 4096))).leafThere g q).afterLeaf g q).leafRebuilt g).settleApply g) := by
    unfold rebuildData
    dsimp only
    rw [hd, hi]
    rfl
  generalize hw : (s.writeLeaf g q (d.getD i (zeros 4096))).leafThere g q = w at heq
  have hwrd : ∀ a, a < 0x100000 → ∀ f, w.rd a f = s.rd a f := fun a ha f => by rw [← hw, rd_congr (leafThere_regs ..), hrd a ha]
  have hafter : w.afterLeaf g q = w := by
    have hmoments : w.moments g = s.moments g := hwrd _ (by unfold R.GLD_CTL; omega) _
    have hbloc : w.bloc g = s.bloc g := hwrd _ (by unfold R.GLD_SIZE; omega) _
    exact afterLeaf_moment (by rw [hmoments, hbloc]; exact hq) (by rw [hmoments]; exact hmoment)
  have hold : ((w.leafRebuilt g).gl g).ledgerOld = [] := by
    obtain ⟨r, hr⟩ := gl_rebuilt (w.inc (R.GRV_RBLD g) F.GRV_RBLD_DONE) g
    rw [leafRebuilt, hr, gl_congr (inc_glades ..), ← hw, leafThere, gl_updGl, if_pos rfl, gl_congr hglades]
    exact hledger
  have hclosed : (w.leafRebuilt g).windowOpen g = false := by
    have hinc : (w.inc (R.GRV_RBLD g) F.GRV_RBLD_DONE).rd (R.GRV_NEXTCFG g) F.GRV_NEXTCFG_VALID =
        s.rd (R.GRV_NEXTCFG g) F.GRV_NEXTCFG_VALID := by
      rw [rd_inc_other _ (by unfold R.GRV_NEXTCFG R.GRV_RBLD; omega), hwrd _ (by unfold R.GRV_NEXTCFG; omega)]
    rw [← hwindow, windowOpen, windowOpen, on, on, leafRebuilt, (rebuilt_regs _ g).rd, hinc]
    simp only [List.mem_cons, List.not_mem_nil, or_false, R.GRV_NEXTCFG, R.GRV_LOST, R.GRV_MSTAT, R.GRV_RBLD, R.EVR_LOST]
    omega
  obtain ⟨hmem, hregs⟩ := settleApply_closed hold hclosed
  rw [heq, hafter]
  constructor
  · rw [hmem, leafRebuilt_mem, ← hw, leafThere_mem, writeLeaf_mem hserved]
  · rw [hregs.rd, done_leafRebuilt w hg, hwrd _ (by unfold R.GRV_RBLD; omega)]
    simp only [List.mem_singleton, R.GRV_RBLD, R.STP_GSTAT]
    omega

end State
end Sys2Proof.Machine
end

section
/-! PROOF. The rows ENCODE_PARITY and REBUILD_LEAF (R183, R186, R192, R193). -/
namespace Sys2Proof.Machine

section Rows
variable {s : State} {g : GladeId}

/-! ## The reads of the row leave (R131, R133) -/

/-- The encoding of parity leaf p has taken its context. -/
def startEncode (s : State) (g p : Nat) : State :=
  (s.openContext (s.homeTile p) g 1 p false).updGl g fun e => { e with building := e.building ++ [(false, p)] }

theorem startEncode_regs (s : State) (g p : Nat) : (startEncode s g p).regs = (s.openContext (s.homeTile p) g 1 p false).regs := rfl

theorem beginEncode_free {g p : Nat} (hnew : (s.gl g).building.contains (false, p) = false)
    (hfree : s.contextFree (s.homeTile p) false = true) :
    s.beginEncode g p = (startEncode s g p).askRow g ((s.code g).rowOfParity (s.code g).slot p) true :=
  if_neg (by simpa [hfree] using hnew)

theorem beginRebuild_free {g q : Nat} (hfree : s.contextFree (s.homeTile (s.leafIndex g q)) false = true)
    (hnew : ((s.tl (s.homeTile (s.leafIndex g q))).contexts.any fun x => x.glade == g && x.kind == 2 && x.unit == q) = false) :
    s.beginRebuild g q = (s.openContext (s.homeTile (s.leafIndex g q)) g 2 q false).askRow g
      ((s.code g).rowOfLeaf (s.code g).slot q) false :=
  if_neg (by simp [hnew, hfree])

theorem exec_encodeParity_reads {p : Nat} (h : s.up) (hactive : s.active g.val = true) (hf : s.fenced g.val = false)
    (hto : s.toEncode g.val p = true) (hpermits : s.permits g.val 2 = true)
    (hnew : (s.gl g.val).building.contains (false, p) = false) (hfree : s.contextFree (s.homeTile p) false = true) :
    ∃ m, exec (.encodeParity g p []) s = .next ((startEncode s g.val p).sendAll m) := by
  have hexec : exec (.encodeParity g p []) s = .next _ := congrArg Host.Outcome.next (State.inMain_of_up h _)
  obtain ⟨m, hm⟩ := State.askRow_sends (startEncode s g.val p) g.val ((s.code g.val).rowOfParity (s.code g.val).slot p) true
  refine ⟨m, ?_⟩
  rw [hexec, ← hm]
  dsimp only
  rw [if_neg (by simp [hactive, hf, hto, hpermits]), if_pos List.isEmpty_nil, beginEncode_free hnew hfree]

theorem exec_rebuildLeaf_reads {q : Nat} {r : StandIn} (h : s.up) (hr : (s.gl g.val).standIn = some r) (hq : q ∈ r.dataLeft)
    (hactive : s.active g.val = true) (hf : s.fenced g.val = false) (hpermits : s.permits g.val 2 = true)
    (hfree : s.contextFree (s.homeTile (s.leafIndex g.val q)) false = true)
    (hnew : ((s.tl (s.homeTile (s.leafIndex g.val q))).contexts.any fun x => x.glade == g.val && x.kind == 2 && x.unit == q) = false) :
    ∃ m, exec (.rebuildLeaf g false q []) s =
      .next ((s.openContext (s.homeTile (s.leafIndex g.val q)) g.val 2 q false).sendAll m) := by
  have hexec : exec (.rebuildLeaf g false q []) s = .next _ := congrArg Host.Outcome.next (State.inMain_of_up h _)
  obtain ⟨m, hm⟩ := State.askRow_sends (s.openContext (s.homeTile (s.leafIndex g.val q)) g.val 2 q false) g.val
    ((s.code g.val).rowOfLeaf (s.code g.val).slot q) false
  refine ⟨m, ?_⟩
  rw [hexec, ← hm]
  dsimp only
  rw [hr]
  dsimp only
  rw [if_neg (by simp [hactive, hf, hpermits, hq]), if_pos List.isEmpty_nil, if_neg Bool.false_ne_true, beginRebuild_free hfree hnew]

/-! ## The leaf is written (R183, R193) -/

theorem exec_encodeParity_answered {p : Nat} {l : List RowAnswer} (h : s.up) (hactive : s.active g.val = true) (hf : s.fenced g.val = false)
    (hto : s.toEncode g.val p = true) (hpermits : s.permits g.val 2 = true) (hl : l ≠ []) :
    exec (.encodeParity g p l) s = .next ((s.closeContext g.val 1 p).encodeLeaf g.val p l) := by
  have hexec : exec (.encodeParity g p l) s = .next _ := congrArg Host.Outcome.next (State.inMain_of_up h _)
  rw [hexec]
  dsimp only
  rw [if_neg (by simp [hactive, hf, hto, hpermits]), if_neg (by simpa using hl)]

theorem exec_rebuildLeaf_answered {q : Nat} {r : StandIn} {l : List RowAnswer} (h : s.up) (hr : (s.gl g.val).standIn = some r)
    (hq : q ∈ r.dataLeft) (hactive : s.active g.val = true) (hf : s.fenced g.val = false) (hpermits : s.permits g.val 2 = true)
    (hl : l ≠ []) : exec (.rebuildLeaf g false q l) s = .next ((s.closeContext g.val 2 q).rebuildData g.val q l) := by
  have hexec : exec (.rebuildLeaf g false q l) s = .next _ := congrArg Host.Outcome.next (State.inMain_of_up h _)
  rw [hexec]
  dsimp only
  rw [hr]
  dsimp only
  rw [if_neg (by simp [hactive, hf, hpermits, hq]), if_neg (by simpa using hl), if_neg Bool.false_ne_true]

end Rows

/-- Settles O38: each row without answers and with them. -/
theorem parityAndRebuild : Obligations.ParityAndRebuild := by
  unfold Obligations.ParityAndRebuild
  refine ⟨fun s g p h hactive hf hto hpermits hnew hfree => ?_, fun s g p l d h hactive hf hto hpermits hl hheld hd hserved => ?_,
    fun s g q r h hr hq hactive hf hpermits hfree hnew => ?_,
    fun s g q i r l d h hr hq hactive hf hpermits hl hlt hmoment hledger hwindow hd hi hserved => ?_⟩
  · obtain ⟨m, hm⟩ := exec_encodeParity_reads h hactive hf hto hpermits hnew hfree
    refine ⟨_, hm, ?_, State.contexts_openContext s (s.homeTile p) g.val 1 p, ?_, rfl⟩
    · rw [State.gl_sendAll, startEncode, State.gl_updGl, if_pos rfl]
      exact List.mem_append_right _ (List.mem_singleton_self _)
    · exact (State.openContext_regs s (s.homeTile p) g.val 1 p false).of_regs (startEncode_regs s g.val p)
  · have hsame := State.closeContext_sameRows s g.val 1 p
    have hcode := hsame.code
    have hothers : (s.closeContext g.val 1 p).others g.val l = s.others g.val l := by rw [State.others, State.others, hcode]
    have haddr : (s.closeContext g.val 1 p).parityAddr g.val p = s.parityAddr g.val p := by
      rw [State.parityAddr, State.parityAddr, hsame.regionBase g.isLt (by decide)]
    have hgl := State.gl_congr (State.closeContext_glades s g.val 1 p) g.val
    have hdata : (s.closeContext g.val 1 p).encodeData g.val (((s.closeContext g.val 1 p).code g.val).rowOfParity
        ((s.closeContext g.val 1 p).code g.val).slot p) ((s.closeContext g.val 1 p).others g.val l) = some d := by
      rw [hothers, hcode, State.encodeData, hsame.encodable g.isLt, hsame.solveRow g.isLt, ← State.encodeData, hd]
    obtain ⟨hmem, hparity⟩ := State.encodeLeaf_shows (by rw [hgl, hheld]) hdata (by rw [haddr, State.served_closeContext, hserved])
    rw [haddr, hcode] at hmem
    rw [hgl] at hparity
    exact ⟨_, exec_encodeParity_answered h hactive hf hto hpermits hl, State.stores_of_mem hsame.mem hmem,
      congrArg (·.2.1) hparity, congrArg (·.1) hparity⟩
  · obtain ⟨m, hm⟩ := exec_rebuildLeaf_reads h hr hq hactive hf hpermits hfree hnew
    exact ⟨_, hm, State.contexts_openContext s (s.homeTile (s.leafIndex g.val q)) g.val 2 q, rfl⟩
  · have hsame := State.closeContext_sameRows s g.val 2 q
    have hcode := hsame.code
    have hothers : (s.closeContext g.val 2 q).others g.val l = s.others g.val l := by rw [State.others, State.others, hcode]
    have hgl := State.gl_congr (State.closeContext_glades s g.val 2 q) g.val
    have hregs := State.closeContext_regs s g.val 2 q
    obtain ⟨hmem, hdone⟩ := State.rebuildData_shows (s := s.closeContext g.val 2 q) (l := l) (d := d) (i := i) g.isLt
      (by rw [hsame.moments g.isLt, hsame.bloc g.isLt]; exact hlt) (by rw [hsame.moments g.isLt]; exact hmoment)
      (by rw [hgl, hledger]) (by rw [State.windowOpen, State.on, State.rd_congr hregs]; exact hwindow)
      (by rw [hothers, hcode, hsame.solveRow g.isLt, hd]) (by rw [hcode, hi])
      (by rw [hsame.leafAddr g.isLt, State.served_closeContext, hserved])
    rw [hsame.leafAddr g.isLt] at hmem
    rw [State.rd_congr hregs] at hdone
    exact ⟨_, exec_rebuildLeaf_answered h hr hq hactive hf hpermits hl, State.stores_of_mem hsame.mem hmem, hdone⟩

end Sys2Proof.Machine
end

section
/-! PROOF. A sealed REQUEST: the record's fields, and where it is stored (R225, R230, R234). -/
namespace Sys2Proof.Machine

/-- A part of a string, at the index that the bytes before it fill. -/
theorem slice_of_eq {l a b r : List Byte} {i n : Nat} (h : l = a ++ (b ++ r)) (ha : a.length = i) (hb : b.length = n) :
    slice l i n = b := by
  rw [h, ← ha, ← hb, slice_append]

namespace SeedHdr
variable (h : SeedHdr) (key : BitVec 256)

/-! ## The fields of a record, at the bytes where R230 puts them -/

theorem slice_seal_kind (body : List Byte) : slice (h.seal key body) 2 1 = leBytes 1 h.kind :=
  slice_of_eq (a := leBytes 2 (seedLen body.length / 64)) (by simp only [SeedHdr.seal, bytes, List.append_assoc]; rfl) (by simp) (by simp)

theorem slice_seal_layer (body : List Byte) : slice (h.seal key body) 16 4 = leBytes 4 (h.layer % 2 ^ 15) :=
  slice_of_eq (a := leBytes 2 (seedLen body.length / 64) ++ (leBytes 1 h.kind ++
    (leBytes 1 (bit h.narrow + 2 * bit h.ragged + 4 * bit h.part + 8 * (h.moments % 4)) ++
      (leBytes 1 (h.glade % 16) ++ (zeros 3 ++ leBytes 8 h.sweep)))))
    (by simp only [SeedHdr.seal, bytes, List.append_assoc]; rfl) (by simp [zeros]) (by simp)

theorem slice_seal_block (body : List Byte) : slice (h.seal key body) 20 4 = leBytes 4 h.block :=
  slice_of_eq (a := leBytes 2 (seedLen body.length / 64) ++ (leBytes 1 h.kind ++
    (leBytes 1 (bit h.narrow + 2 * bit h.ragged + 4 * bit h.part + 8 * (h.moments % 4)) ++
      (leBytes 1 (h.glade % 16) ++ (zeros 3 ++ (leBytes 8 h.sweep ++ leBytes 4 (h.layer % 2 ^ 15)))))))
    (by simp only [SeedHdr.seal, bytes, List.append_assoc]; rfl) (by simp [zeros]) (by simp)

theorem length_bytes (len : Nat) : (h.bytes len).length = 64 := by simp [bytes, zeros]

/-- A record without a body takes two units of 64 bytes. -/
theorem length_seal_nil : (h.seal key []).length = 128 := by
  simp [SeedHdr.seal, length_bytes, length_slice, zeros, seedLen]

end SeedHdr

/-- An element joins a list, and no other one does. -/
theorem contains_addOnce_of_ne {a x : Nat} (h : x ≠ a) (l : List Nat) : (addOnce l a).contains x = l.contains x := by
  unfold addOnce
  split
  · rfl
  · simp [h]

namespace State
variable {s : State} {g : Nat}

/-! ## A REQUEST is written at WPTR (R225, R234) -/

/-- The header of a block's REQUEST. -/
def requestHdr (s : State) (g l b : Nat) : SeedHdr :=
  ⟨4, false, false, false, s.moments g, g, s.openRing g, l, b, s.lmn g, s.members g - 1, (s.code g).epoch, s.sealNext,
    s.reg (R.GLD_LAYERHASH g), s.pnid + 2 ^ 16 * s.sealEpoch, 0⟩

theorem seedRequest_sealed {k : KeyGen} (hkey : s.keyCur g = some k) (hready : s.sealReady = true) (hroom : s.seedRoom g 128 = true)
    (l b : Nat) : s.seedRequest g l b = (s.seedWrite g ((s.requestHdr g l b).seal (seedKey k.key g) [])).tookSeal := by
  have hroom' : s.seedRoom g (seedLen 0) = true := hroom
  unfold seedRequest
  rw [hkey]
  exact if_neg (by simp [hready, hroom'])

theorem tookSeal_mem (s : State) : s.tookSeal.mem = s.mem :=
  (tookSeal_keeps s (Keeps.refl (m := false) (f := false) (u := false) s)).mem rfl

/-- A record that does not pass the ring's end is stored at WPTR. -/
theorem seedWrite_mem {rec : List Byte} (hfits : s.rd (R.GLD_SBOPTR g) F.GLD_SBOPTR_WPTR + rec.length ≤ s.seedSize g)
    (hserved : s.served (4096 * s.rd (R.GLD_SBOUT g) F.GLD_SBOUT_BASE + s.rd (R.GLD_SBOPTR g) F.GLD_SBOPTR_WPTR) rec.length = true) :
    (s.seedWrite g rec).mem =
      (s.writeBytes (4096 * s.rd (R.GLD_SBOUT g) F.GLD_SBOUT_BASE + s.rd (R.GLD_SBOPTR g) F.GLD_SBOPTR_WPTR) rec).mem := by
  have hwrap : ¬ s.seedSize g < s.rd (R.GLD_SBOPTR g) F.GLD_SBOPTR_WPTR + rec.length := by omega
  unfold seedWrite
  dsimp only
  rw [wr_mem, charge_mem, if_neg hwrap, if_neg hwrap, store_of_served s hserved]

/-- With a key, an epoch and room, the block's record is stored. -/
theorem seedRequest_mem {k : KeyGen} (hkey : s.keyCur g = some k) (hready : s.sealReady = true) (hroom : s.seedRoom g 128 = true)
    (hfits : s.rd (R.GLD_SBOPTR g) F.GLD_SBOPTR_WPTR + 128 ≤ s.seedSize g)
    (hserved : s.served (4096 * s.rd (R.GLD_SBOUT g) F.GLD_SBOUT_BASE + s.rd (R.GLD_SBOPTR g) F.GLD_SBOPTR_WPTR) 128 = true) (l b : Nat) :
    (s.seedRequest g l b).mem = (s.writeBytes (4096 * s.rd (R.GLD_SBOUT g) F.GLD_SBOUT_BASE + s.rd (R.GLD_SBOPTR g) F.GLD_SBOPTR_WPTR)
      ((s.requestHdr g l b).seal (seedKey k.key g) [])).mem := by
  have hlen := SeedHdr.length_seal_nil (s.requestHdr g l b) (seedKey k.key g)
  rw [seedRequest_sealed hkey hready hroom, tookSeal_mem, seedWrite_mem (by rw [hlen]; exact hfits) (by rw [hlen]; exact hserved)]

/-! ## What a record in the recorder leaves of Seedbank's ring -/

theorem seedSize_record (s : State) (e : Ev) (g : Nat) (hg : g < 16) : (s.record e).seedSize g = s.seedSize g := by
  rw [seedSize, seedSize, rd_record s e (by unfold R.GLD_SBOUT R.EVR_LOST; omega)]

theorem seedRoom_record (s : State) (e : Ev) (g : Nat) (hg : g < 16) (len : Nat) : (s.record e).seedRoom g len = s.seedRoom g len := by
  have hptr : ∀ f, (s.record e).rd (R.GLD_SBOPTR g) f = s.rd (R.GLD_SBOPTR g) f :=
    rd_record s e (by unfold R.GLD_SBOPTR R.EVR_LOST; omega)
  unfold seedRoom seedNeed seedFree
  rw [seedSize_record s e g hg, hptr, hptr]

theorem keyCur_record (s : State) (e : Ev) (g : Nat) : (s.record e).keyCur g = s.keyCur g := by rw [keyCur, ks, record_keys, keyCur, ks]

theorem sealReady_record (s : State) (e : Ev) : (s.record e).sealReady = s.sealReady := by
  rw [sealReady, sealReady, on, on, rd_record s e (by decide)]

theorem served_record (s : State) (e : Ev) (o n : Nat) : (s.record e).served o n = s.served o n :=
  (((sameRegsBut.refl [R.EVR_LOST] s).record (List.mem_singleton_self _) e).sameLayout (by simp [R.EVR_LOST])).served o n

/-! ## The reports that a stand-in waits for (R190, R191) -/

/-- A holder from which a report is due: a peer of a slot that is not lost, that is no stale holder and has not reported. -/
theorem mem_reportsDue {r : StandIn} (hr : (s.gl g).standIn = some r) {i : Nat} : i ∈ s.reportsDue g ↔
    ((s.exact g || !(s.gl g).takenIn) = false ∧ i ∈ s.grovePeers g ∧ i % s.groveN g ∉ s.lostSlots g) ∧
      r.staleHolders.contains i = false ∧ (r.reports.any fun x => x.1 == i) = false := by
  unfold reportsDue
  rw [hr]
  dsimp only
  split
  next hoff => simp [hoff]
  next hon => simp [hon, and_assoc]

/-- While a report is due nothing is settled. -/
theorem reconcile_of_due {i : Nat} (h : i ∈ s.reportsDue g) : s.reconcile g = s := by
  have hdue : (s.reportsDue g).isEmpty = false := List.isEmpty_eq_false_iff.mpr (List.ne_nil_of_mem h)
  unfold reconcile
  split
  · rfl
  · exact if_pos (by rw [hdue]; rfl)

/-- The stand-in's reports and stale holders change. -/
def setStandIn (s : State) (g : Nat) (r : StandIn) : State := s.updGl g fun e => { e with standIn := some r }

theorem standIn_setStandIn (s : State) (g : Nat) (r : StandIn) : ((s.setStandIn g r).gl g).standIn = some r := by
  rw [setStandIn, gl_updGl, if_pos rfl]

/-- A holder that neither has reported nor is stale afterwards stays due. -/
theorem mem_reportsDue_setStandIn {r r' : StandIn} (hr : (s.gl g).standIn = some r) {i : Nat} (hdue : i ∈ s.reportsDue g)
    (hstale : r'.staleHolders.contains i = false) (hreports : (r'.reports.any fun x => x.1 == i) = false) :
    i ∈ (s.setStandIn g r').reportsDue g := by
  obtain ⟨⟨hon, hpeer, hlost⟩, -⟩ := (mem_reportsDue hr).mp hdue
  have htaken : ((s.setStandIn g r').gl g).takenIn = (s.gl g).takenIn := by rw [setStandIn, gl_updGl, if_pos rfl]
  exact (mem_reportsDue (standIn_setStandIn s g r')).mpr ⟨⟨by rw [htaken]; exact hon, hpeer, hlost⟩, hstale, hreports⟩

/-! ## Deadfall rows (R197) -/

theorem markDead_shows (s : State) (g row : Nat) : row ∈ ((s.markDead g row).gl g).deadRows ∧
    (s.markDead g row).rd (R.GRV_DEAD g) F.GRV_DEAD_ROWS =
      min (s.rd (R.GRV_DEAD g) F.GRV_DEAD_ROWS + 1) (2 ^ F.GRV_DEAD_ROWS.width - 1) := by
  constructor
  · rw [markDead, gl_congr (inc_glades ..), gl_updGl, if_pos rfl]
    exact List.mem_append_right _ (List.mem_singleton_self _)
  · rw [markDead, rd_inc_same _ _ rfl, rd_congr (updGl_regs ..)]

/-- A row that counts anew shows in the list and in the counter, and the requests that follow change neither. -/
theorem countDead_shows {row : Nat} (hg : g < 16) (hnew : (s.gl g).deadRows.contains row = false) :
    row ∈ ((s.countDead g row).gl g).deadRows ∧ (s.countDead g row).rd (R.GRV_DEAD g) F.GRV_DEAD_ROWS =
      min (s.rd (R.GRV_DEAD g) F.GRV_DEAD_ROWS + 1) (2 ^ F.GRV_DEAD_ROWS.width - 1) := by
  obtain ⟨hrow, hcount⟩ := markDead_shows s g row
  have hstand : Standing g (s.markDead g row) (s.countDead g row) := by
    rw [countDead_of_new s hnew]
    exact .each _ fun v lb _ => wantBlock_standing hg v row lb
  exact ⟨hstand.engines.deadRows hrow, (hstand.rd (by simp [standingRegs]) _).trans hcount⟩

end State
end Sys2Proof.Machine
end

section
/-! PROOF. The rows RECONCILE_SCAN, RECONCILE_REPORT, RECONCILE_TIMEOUT, DEADFALL_NOTICE and REQUEST_RESEND (R190, R191, R197, R199,
R234). -/
namespace Sys2Proof.Machine

/-- The rows that a holder's scan reports for a lost slot (R190). -/
def State.foldedRows (s : State) (g slot : Nat) : List Nat :=
  (s.gl g).folds.filterMap fun f =>
    let row := (s.code g).rowOfParity (s.code g).slot f.p
    if f.next then none
    else match (s.code g).dataIndex row slot with
      | some i => if bitAt f.bits i then some row else none
      | none => none

/-- They are the rows in which the lost slot's data index is folded. -/
theorem State.mem_foldedRows {s : State} {g slot row : Nat} : row ∈ s.foldedRows g slot ↔
    ∃ f i, f ∈ (s.gl g).folds ∧ f.next = false ∧ row = (s.code g).rowOfParity (s.code g).slot f.p ∧
      (s.code g).dataIndex row slot = some i ∧ bitAt f.bits i = true := by
  rw [foldedRows, List.mem_filterMap]
  constructor
  · rintro ⟨f, hf, hrow⟩
    split at hrow
    · cases hrow
    next hnext =>
      dsimp only at hrow
      split at hrow
      next i hi =>
        split at hrow
        next hbit =>
          cases hrow
          exact ⟨f, i, hf, by simpa using hnext, rfl, hi, hbit⟩
        · cases hrow
      · cases hrow
  · rintro ⟨f, i, hf, hnext, rfl, hi, hbit⟩
    exact ⟨f, hf, by simp [hnext, hi, hbit]⟩

section Rows
variable {s : State} {g : GladeId}

theorem exec_reconcileScan {x : Nat} (h : s.up) (hactive : s.active g.val = true) (hf : s.fenced g.val = false)
    (hexact : s.exact g.val = false) (hcomplete : s.foldComplete g.val = true) (hx : x ≠ (s.code g.val).slot) :
    exec (.reconcileScan g x) s = .next ((s.charge 2 (s.parityLeaves g.val) 0 0).toMember g.val (s.lmnOfSlot g.val x) "RECONCILE_REPORT"
      ([g.val, s.lmn g.val] ++ s.foldedRows g.val x)) := by
  have hexec : exec (.reconcileScan g x) s = .next _ := congrArg Host.Outcome.next (State.inMain_of_up h _)
  rw [hexec]
  dsimp only
  rw [if_neg (by simp [hactive, hf, hexact, hcomplete, hx])]
  rfl

theorem exec_reconcileReport {h : Nat} {rows : List Nat} {r : StandIn} (hup : s.up) (hr : (s.gl g.val).standIn = some r)
    (hstale : r.staleHolders.contains h = false) (hdue : s.reportsDue g.val ≠ []) : exec (.reconcileReport g h rows) s = .next
      ((s.setStandIn g.val { r with reports := (r.reports.filter fun x => x.1 != h) ++ [(h, rows)] }).reconcile g.val) := by
  have hexec : exec (.reconcileReport g h rows) s = .next _ := congrArg Host.Outcome.next (State.inMain_of_up hup _)
  rw [hexec, hr]
  dsimp only
  rw [if_neg (by rw [hstale, List.isEmpty_eq_false_iff.mpr hdue]; exact Bool.false_ne_true)]
  rfl

theorem exec_reconcileTimeout {h : Nat} {r : StandIn} (hup : s.up) (hr : (s.gl g.val).standIn = some r)
    (hdue : h ∈ s.reportsDue g.val) : exec (.reconcileTimeout g h) s = .next
      ((s.setStandIn g.val { r with staleHolders := addOnce r.staleHolders h }).reconcile g.val) := by
  have hexec : exec (.reconcileTimeout g h) s = .next _ := congrArg Host.Outcome.next (State.inMain_of_up hup _)
  rw [hexec, hr]
  dsimp only
  rw [if_neg (by simp [hdue])]
  rfl

theorem exec_deadfallNotice {row : Nat} (h : s.up) (hactive : s.active g.val = true) (hheld : s.heldErased g.val row ≠ []) :
    exec (.deadfallNotice g row) s = .next (s.countDead g.val row) := by
  have hexec : exec (.deadfallNotice g row) s = .next _ := congrArg Host.Outcome.next (State.inMain_of_up h _)
  rw [hexec, if_pos (by simp [hactive, hheld])]

/-- The Warn record of a request that is written again (R234). -/
def resendRecord (g : Nat) : Ev := (ev Sev.warn Src.gld g).field (R.GLD_SBSTAT g) F.GLD_SBSTAT_RESTORE

theorem exec_requestResend_open {l b : Nat} (h : s.up)
    (hopen : ((s.gl g.val).wanted.any fun w => w.layer == l && w.block == b) = true) :
    exec (.requestResend g l b) s = .next ((s.record (resendRecord g.val)).seedRequest g.val l b) := by
  have hexec : exec (.requestResend g l b) s = .next _ := congrArg Host.Outcome.next (State.inMain_of_up h _)
  rw [hexec, if_pos hopen]
  rfl

theorem exec_requestResend_closed {l b : Nat} (hclosed : ((s.gl g.val).wanted.any fun w => w.layer == l && w.block == b) = false) :
    exec (.requestResend g l b) s = .next s := by
  refine congrArg Host.Outcome.next ?_
  unfold State.inMain
  split
  · exact if_neg (by simp [hclosed])
  · rfl

end Rows

/-- Settles O39: each row, with the reports that are still due, the row counted once, and the record at WPTR. -/
theorem reconciliationAndDeadfall : Obligations.ReconciliationAndDeadfall := by
  unfold Obligations.ReconciliationAndDeadfall
  refine ⟨fun s g x h hactive hf hexact hcomplete hx => ?_, fun s g h i rows r hup hr hstale hdue hi => ?_,
    fun s g h i r hup hr hholder hdue hi => ?_, fun s g row h hactive hheld hnew => ?_,
    fun s g l b k h hopen hkey hready hroom hfits hserved => ?_, fun s g l b hclosed => exec_requestResend_closed hclosed⟩
  · exact ⟨_, s.foldedRows g.val x, exec_reconcileScan h hactive hf hexact hcomplete hx, congrArg (· ++ _) (State.charge_sent ..),
      fun row => State.mem_foldedRows, State.charge_regs s 2 _ 0 0, State.charge_glades .., State.charge_mem ..⟩
  · obtain ⟨-, histale, hireports⟩ := (State.mem_reportsDue hr).mp hdue
    have hstill := State.mem_reportsDue_setStandIn (r' := { r with reports := (r.reports.filter fun x => x.1 != h) ++ [(h, rows)] })
      hr hdue histale (by
        simp only [List.any_eq_false, List.mem_append, List.mem_filter, List.mem_singleton] at hireports ⊢
        rintro y (⟨hy, -⟩ | rfl)
        · exact hireports y hy
        · simpa using hi.symm)
    refine ⟨_, exec_reconcileReport hup hr hstale (List.ne_nil_of_mem hdue), ?_⟩
    rw [State.reconcile_of_due hstill]
    exact ⟨State.standIn_setStandIn .., rfl, rfl⟩
  · obtain ⟨-, histale, hireports⟩ := (State.mem_reportsDue hr).mp hdue
    have hstill := State.mem_reportsDue_setStandIn (r' := { r with staleHolders := addOnce r.staleHolders h }) hr hdue
      ((contains_addOnce_of_ne hi _).trans histale) hireports
    refine ⟨_, exec_reconcileTimeout hup hr hholder, ?_⟩
    rw [State.reconcile_of_due hstill]
    exact ⟨State.standIn_setStandIn .., rfl, rfl⟩
  · exact ⟨_, exec_deadfallNotice h hactive hheld, State.countDead_shows g.isLt hnew⟩
  · have hptr := State.rd_record s (resendRecord g.val) (a := R.GLD_SBOPTR g.val) (by unfold R.GLD_SBOPTR R.EVR_LOST; omega)
      F.GLD_SBOPTR_WPTR
    have hbase := State.rd_record s (resendRecord g.val) (a := R.GLD_SBOUT g.val) (by unfold R.GLD_SBOUT R.EVR_LOST; omega)
      F.GLD_SBOUT_BASE
    have hmem := State.seedRequest_mem (s := s.record (resendRecord g.val)) (g := g.val)
      (by rw [State.keyCur_record, hkey]) (by rw [State.sealReady_record, hready]) (by rw [State.seedRoom_record _ _ _ g.isLt, hroom])
      (by rw [State.seedSize_record _ _ _ g.isLt, hptr]; exact hfits) (by rw [State.served_record, hptr, hbase, hserved]) l b
    rw [hptr, hbase] at hmem
    refine ⟨_, _, exec_requestResend_open h hopen, SeedHdr.length_seal_nil _ _, ?_, ?_, ?_,
      State.stores_of_mem (State.record_mem ..) hmem⟩
    · rw [leAt, SeedHdr.slice_seal_kind, leNat_leBytes]
      rfl
    · have hlt : l % 2 ^ 15 < 256 ^ 4 := by omega
      rw [leAt, SeedHdr.slice_seal_layer, leNat_leBytes]
      exact Nat.mod_eq_of_lt hlt
    · rw [leAt, SeedHdr.slice_seal_block, leNat_leBytes]
      rfl

end Sys2Proof.Machine
end

section
/-! PROOF. A copy that arrives where the next ledger region, the layer table and the working copies share their place (R204, R206): the
row's own stores change the layer table that says whose block it is. -/
namespace Sys2Proof.Machine

/-! ## The counterexample -/

/-- A plan for two members, of which this node, PNID 9, is the second. -/
def overlapPlan : Plan := ⟨1, 0, 0, 0, 0, 9, 0, 2, 1, 2, 0, [], [], [7, 9], 0, true⟩

/-- An open window in which the next ledger region lies on the layer table and on the working copies; layer 0 has two blocks. -/
@[irreducible] def overlapState : State :=
  let s : State := { State.reset with ao := { AoState.reset with mainRun := true } }
  let s := s.each (List.range 8) fun s q => s.wr (R.MPT_SIZE q) F.MPT_SIZE_SIZE 1
  let s := (s.wr R.RTR_SELF F.RTR_SELF_PNID 9).wr (R.GRV_NEXTCFG 0) F.GRV_NEXTCFG_VALID 1
  let s := (s.wr (R.GLD_REGION 0 9) F.GLD_REGION_BASE 2).wr (R.GLD_NREGION 0 3) F.GLD_NREGION_BASE 2
  let s := (s.wr (R.GLD_REGION 0 5) F.GLD_REGION_BASE 2).wr (R.GLD_NREGION 0 5) F.GLD_NREGION_BASE 2
  (s.updGl 0 fun e => { e with plan := some overlapPlan }).writeBytes (4096 * 2) (leBytes 8 2048)

/-- A copy whose ledger entry has RING 0 and counts one step. -/
@[irreducible] def overlapCopy : List Byte := zeros (4096 + 8) ++ [1]

/-- The ledger entry of the copy is stored, over the entry of layer 0. -/
@[irreducible] def overlapEntry : State := overlapState.store (4096 * 2) (slice overlapCopy 4096 16)

theorem overlapState_takes_copy : overlapState.ao.mainRun = true ∧ overlapState.windowOpen 0 = true ∧
    overlapState.fencedHere 0 = false ∧ overlapState.staysHere 0 0 1 = true ∧ (overlapState.gl 0).arrived.contains (0, 1) = false ∧ overlapState.nextLocal 0 0 1 = 0 := by
  decide +kernel

theorem overlapState_regions : overlapState.moments 0 = 0 ∧ overlapState.nextBase 0 0 = 0 ∧ overlapState.nextBase 0 3 = 4096 * 2 ∧
    overlapState.reusesClass 0 0 = true ∧ overlapState.reusesClass 0 3 = false ∧ overlapState.reusesClass 0 5 = true := by
  decide +kernel

theorem overlapState_served : overlapState.served 0 4096 = true ∧ overlapState.served (4096 * 2) 16 = true := by decide +kernel

theorem store_overlapEntry : overlapState.store (4096 * 2) (slice overlapCopy 4096 16) = overlapEntry := by rw [overlapEntry]

/-- With the layer table overwritten layer 0 has no block: none is this node's, and none has a lane. -/
theorem overlapEntry_layout : overlapEntry.staysHere 0 0 1 = false ∧ overlapEntry.lanesOf 0 0 1 = 0 ∧
    overlapEntry.nextBase 0 5 = 4096 * 2 ∧ overlapEntry.served (4096 * 2) 2048 = true := by
  decide +kernel

/-! ## The working copy is written over the entry -/

/-- Two zeros for each element of a list, after zeros. -/
theorem foldl_two_zeros (xs : List Nat) {n m : Nat} (h : m = n + 2 * xs.length) (e : Exc) :
    xs.foldl (fun (r : List Byte × Exc) _ => (r.1 ++ [0, 0], r.2)) (zeros n, e) = (zeros m, e) := by
  induction xs generalizing n with
  | nil => rw [h, List.length_nil, List.foldl_nil, Nat.mul_zero, Nat.add_zero]
  | cons x r ih =>
    have hzeros : zeros n ++ [0, 0] = zeros (n + 2) := List.replicate_append_replicate (m := 2)
    rw [List.foldl_cons, hzeros]
    exact ih (by rw [h, List.length_cons]; omega)

/-- The working copy of a block without lanes is all zeros (R30). -/
theorem State.roundCopy_of_no_lanes {s : State} {g l b : Nat} (h : s.lanesOf g l b = 0) (ring : Nat) (v : List F32) :
    (s.roundCopy g l b ring v).1 = zeros 2048 := by
  unfold State.roundCopy
  simp only [h, Nat.zero_le, if_true]
  have hlen : 2048 = 0 + 2 * (List.range 1024).length := by rw [List.length_range]
  generalize List.range 1024 = xs at hlen ⊢
  exact congrArg Prod.fst (foldl_two_zeros xs hlen 0)

/-- The row rounds the working copy although the next shape reuses its region, since the entry has just emptied layer 0. -/
theorem overlapState_placeNext : ∃ ring, (overlapState.placeNext 0 0 1 overlapCopy).mem = (overlapEntry.nextRound 0 0 1 0 ring).mem := by
  obtain ⟨-, -, -, hstays, -, hlocal⟩ := overlapState_takes_copy
  obtain ⟨hmoments, -, hbase, hleaf, hentry, -⟩ := overlapState_regions
  obtain ⟨haway, -⟩ := overlapEntry_layout
  refine ⟨(Ledger.ofBytes (slice overlapCopy 4096 16)).ring, ?_⟩
  unfold State.placeNext
  simp only [hlocal, hmoments, Nat.add_zero, List.range_one, State.each_singleton, hleaf, hstays, hentry, hbase, Bool.and_self,
    if_true, Bool.false_and, Bool.false_eq_true, if_false, Nat.mul_one, Nat.zero_div, Nat.zero_mod, Nat.mul_zero,
    store_overlapEntry, haway, Bool.and_false, State.charge_mem]

/-- The rounded working copy takes the place of the entry. -/
theorem overlapEntry_nextRound (ring : Nat) :
    overlapEntry.nextRound 0 0 1 0 ring = overlapEntry.writeBytes (4096 * 2) (zeros 2048) := by
  obtain ⟨-, hlanes, hbase, hserved⟩ := overlapEntry_layout
  have hlen : (zeros 2048).length = 2048 := List.length_replicate
  unfold State.nextRound
  dsimp only
  rw [State.roundCopy_of_no_lanes hlanes, hbase]
  exact State.store_of_served _ (hlen.symm ▸ hserved)

/-- A copy that arrives stores what takes its place under the next shape, and nothing else (R206). -/
theorem State.copyArrive_mem {s : State} {g x l b : Nat} {d : List Byte} (hopen : s.windowOpen g = true) (hfence : s.fencedHere g = false)
    (hstays : s.staysHere g l b = true) (hnew : (s.gl g).arrived.contains (l, b) = false) :
    (s.copyArrive g x l b d).mem = (s.placeNext g l b d).mem := by
  unfold copyArrive
  rw [if_neg (by simp [hopen, hfence, hstays])]
  dsimp only
  rw [if_neg (by rw [hnew]; exact Bool.false_ne_true), toMember, send_mem, updGl_mem, blockHere, wr_mem]

/-- The count of steps is gone from the entry when the row has run. -/
theorem readByte_overlap : (overlapState.copyArrive 0 0 0 1 overlapCopy).readByte (4096 * 2 + 8) = 0 := by
  obtain ⟨-, hopen, hfence, hstays, hnew, -⟩ := overlapState_takes_copy
  obtain ⟨ring, hmem⟩ := overlapState_placeNext
  have hafter : (overlapState.copyArrive 0 0 0 1 overlapCopy).mem = (overlapEntry.writeBytes (4096 * 2) (zeros 2048)).mem := by
    rw [State.copyArrive_mem hopen hfence hstays hnew, hmem, overlapEntry_nextRound]
  have hbyte : (overlapState.copyArrive 0 0 0 1 overlapCopy).readByte (4096 * 2 + 8) =
      (overlapEntry.writeBytes (4096 * 2) (zeros 2048)).readByte (4096 * 2 + 8) := congrArg (sget memDefault · _) hafter
  rw [hbyte, State.readByte_writeBytes_zeros, if_pos ⟨by omega, by omega⟩]

end Sys2Proof.Machine
end

section
/-! PROOF. The row COPY_ARRIVAL (R206). -/
namespace Sys2Proof.Machine

theorem exec_copyArrival {s : State} (h : s.up) (g : GladeId) (x l b : Nat) (d : List Byte) :
    exec (.copyArrival g x l b d) s = .next (s.copyArrive g.val x l b d) := congrArg Host.Outcome.next (State.inMain_of_up h _)

/-- The entry of the copy counts one step, in its ninth byte (R35). -/
theorem slice_overlapCopy : (slice overlapCopy 4096 16).getD 8 0 = 1 := by decide +kernel

/-- Refutes O40: COPY_ARRIVAL judges afresh, after each of its stores, whether the block stays with this node. A next region 3 on the
layer table makes the answer change: with class 5 reused the working copy is rounded all the same, here over the entry just stored. The
plan check 6 (R203) refuses such regions, but the clause does not assume that they are apart. -/
theorem not_plansAndBlockCopies : ¬ Obligations.PlansAndBlockCopies := by
  unfold Obligations.PlansAndBlockCopies
  rintro ⟨-, -, -, -, -, -, -, -, harrival, -, -⟩
  obtain ⟨hup, hopen, hfence, hstays, hnew, hlocal⟩ := overlapState_takes_copy
  obtain ⟨hmoments, hmaster, hledger, -, hentry, hcopy⟩ := overlapState_regions
  obtain ⟨hleafServed, hentryServed⟩ := overlapState_served
  have harrival := harrival overlapState 0 0 0 1 0 overlapCopy hup hopen hfence hstays hnew hlocal.symm hentry hcopy
  simp only [Fin.val_zero, hmoments, hledger, Nat.zero_div, Nat.zero_mod, Nat.mul_zero, Nat.add_zero, Nat.mul_one] at harrival
  obtain ⟨t, hexec, -, hread, -⟩ := harrival (fun c hc => by rwa [Nat.lt_one_iff.mp hc, hmaster]) hentryServed
  have ht : t = overlapState.copyArrive 0 0 0 1 overlapCopy := Host.Outcome.next.inj (hexec.symm.trans (exec_copyArrival hup ..))
  have hcount : t.readByte (4096 * 2 + 8) = 1 := (congrArg (·.getD 8 0) hread).trans slice_overlapCopy
  rw [ht, readByte_overlap] at hcount
  exact absurd hcount (by decide)

end Sys2Proof.Machine
end

section
/-! PROOF. Publishing (R217 to R219): the records that a publish sends to its KIDS, its start, and a block of it. -/
namespace Sys2Proof.Machine

namespace State
variable {s t u : State} {g : Nat}

/-! ## The shape of the glade where its registers read the same -/

section Layout
variable (h : s.sameLayout t) (hg : g < 16)
include h hg

theorem sameLayout.members : t.members g = s.members g := by
  rw [State.members, State.rd, h _ (by unfold R.GLD_MEMBER; omega)]
  rfl

theorem sameLayout.ring : t.ring g = s.ring g := by
  rw [State.ring, h _ (by unfold R.GLD_RING; omega)]
  rfl

theorem sameLayout.layers : t.layers g = s.layers g := by
  rw [State.layers, State.rd, h _ (by unfold R.GLD_LAYERS; omega)]
  rfl

theorem sameLayout.layerBlocks (hmem : t.mem = s.mem) (l : Nat) : t.layerBlocks g l = s.layerBlocks g l := by
  simp only [State.layerBlocks, layerParams, layerWord, readBytes, readByte, hmem, h.regionBase hg (show 9 < 10 by decide)]

end Layout

/-! ## What is sent is charged (R308) -/

theorem Sends.each {α : Type} {l : List Nat} {f : State → α → State} {m : α → Sent} (hf : ∀ v x, Sends l [m x] v (f v x))
    (xs : List α) (s : State) : Sends l (xs.map m) s (s.each xs f) := by
  induction xs generalizing s with
  | nil => exact Sends.refl l s
  | cons x r ih => exact (hf s x).trans (ih (f s x))

theorem charge_send_sends (s : State) (c rd wr blk : Nat) (x : Sent) : Sends [R.BGT_USE c] [x] s ((s.charge c rd wr blk).send x) :=
  ⟨(charge_regs s c rd wr blk).of_regs (send_regs ..), charge_mem .., charge_queues .., congrArg (· ++ [x]) (charge_sent ..)⟩

theorem gl_updGl_same (s : State) (g : Nat) (f : GladeState → GladeState) : (s.updGl g f).gl g = f (s.gl g) :=
  (gl_updGl s g g f).trans (if_pos rfl)

theorem gl_wr (s : State) (a : Nat) (f : Fld) (n g : Nat) : (s.wr a f n).gl g = s.gl g := rfl

/-! ## Records to the KIDS (R219) -/

/-- The KIDS of glade g's publish. -/
def wpKids (s : State) (g : Nat) : List Nat := kidsOf (s.reg (R.GRV_WPKIDS g)) (s.rd (R.GRV_WPCTL g) F.GRV_WPCTL_KIDV)

/-- A record as it goes to a kid. -/
def wpOut (kind : Nat) (r : WpRecord) (k : Nat) : Sent := .toNode k "WEIGHTS" [r.stream, kind] (r.bytes kind)

theorem wpSend_sends (s : State) (g kind : Nat) (r : WpRecord) :
    Sends [R.BGT_USE 7] ((s.wpKids g).map (wpOut kind r)) s (s.wpSend g kind r) := by
  unfold wpSend
  dsimp only
  exact Sends.each (fun v k => charge_send_sends v 7 0 0 (msgBlocks (r.bytes kind).length) (wpOut kind r k)) (s.wpKids g) s

/-- A record reaches every kid. -/
theorem mem_wpSend_sent {k : Nat} (hk : k ∈ s.wpKids g) (kind : Nat) (r : WpRecord) : wpOut kind r k ∈ (s.wpSend g kind r).sent := by
  rw [(wpSend_sends s g kind r).sent]
  exact List.mem_append_right _ (List.mem_map_of_mem hk)

/-- What has been sent stays sent when a further record goes out. -/
theorem mem_wpSend_of_mem {x : Sent} (hx : x ∈ s.sent) (kind : Nat) (r : WpRecord) : x ∈ (s.wpSend g kind r).sent := by
  rw [(wpSend_sends s g kind r).sent]
  exact List.mem_append_left _ hx

section Registers
variable {l : List Nat} (h : s.sameRegsBut l t) (hl : ∀ a ∈ l, a ∉ [R.GRV_WPCTL g, R.GRV_WPKIDS g])
include h hl

theorem sameRegsBut.wpKids : t.wpKids g = s.wpKids g := by
  have hctl : R.GRV_WPCTL g ∉ l := fun hm => hl _ hm (by simp)
  have hkids : R.GRV_WPKIDS g ∉ l := fun hm => hl _ hm (by simp)
  rw [State.wpKids, h _ hkids, h.rd hctl, State.wpKids]

theorem sameRegsBut.wpStream : t.wpStream g = s.wpStream g := h.rd (fun hm => hl _ hm (by simp)) _

end Registers

/-- The uses of class 7 are counted apart from the publish. -/
theorem bgtUse_not_wp (hg : g < 16) : ∀ a ∈ [R.BGT_USE 7], a ∉ [R.GRV_WPCTL g, R.GRV_WPKIDS g] := fun a ha => by
  simp only [List.mem_cons, List.not_mem_nil, or_false, R.BGT_USE, R.GRV_WPCTL, R.GRV_WPKIDS] at ha ⊢
  omega

/-- The uses of class 7 stand apart from the registers of the glades and of the memory ports. -/
theorem sameRegsBut.layout_of_bgtUse (h : s.sameRegsBut [R.BGT_USE 7] t) : s.sameLayout t := h.sameLayout fun a ha => by
  simp only [List.mem_singleton, R.BGT_USE] at ha
  omega

/-! ## A publish starts (R218) -/

/-- A due publish is taken up: GO and FULL clear, and no trigger is held. -/
def takePublish (s : State) (g : Nat) : State :=
  (((s.updGl g fun e => { e with publishDue := false }).wr (R.GRV_WPCTL g) F.GRV_WPCTL_GO 0).wr (R.GRV_WPCTL g)
    F.GRV_WPCTL_FULL 0).updGl g fun e => { e with publishHeld := false }

theorem takePublish_regs (s : State) (g : Nat) : s.sameRegsBut [R.GRV_WPCTL g] (s.takePublish g) :=
  ((((sameRegsBut.refl _ s).of_regs (updGl_regs ..)).wr (by simp) _ _).wr (by simp) _ _).of_regs (updGl_regs ..)

theorem rd_takePublish (s : State) (g : Nat) {f : Fld} (hf : f.ok = true) (hgo : F.GRV_WPCTL_GO.apart f = true)
    (hfull : F.GRV_WPCTL_FULL.apart f = true) : (s.takePublish g).rd (R.GRV_WPCTL g) f = s.rd (R.GRV_WPCTL g) f := by
  unfold takePublish
  rw [rd_congr (updGl_regs ..), rd_wr_apart _ _ hfull hf, rd_wr_apart _ _ hgo hf, rd_congr (updGl_regs ..)]

theorem wpStream_takePublish (s : State) (g : Nat) : (s.takePublish g).wpStream g = s.wpStream g :=
  rd_takePublish s g rfl rfl rfl

theorem takePublish_shows (s : State) (g : Nat) : (s.takePublish g).rd (R.GRV_WPCTL g) F.GRV_WPCTL_GO = 0 ∧
    (s.takePublish g).rd (R.GRV_WPCTL g) F.GRV_WPCTL_FULL = 0 ∧ ((s.takePublish g).gl g).publish = (s.gl g).publish := by
  unfold takePublish
  refine ⟨?_, ?_, ?_⟩
  · rw [rd_congr (updGl_regs ..), rd_wr_apart _ _ rfl rfl, rd_wr_same _ _ rfl]
    rfl
  · rw [rd_congr (updGl_regs ..), rd_wr_same _ _ rfl]
    rfl
  · rw [gl_updGl_same, gl_wr, gl_wr, gl_updGl_same]

/-- The publish is under way: BUSY shows it, and the stream's key moves on where its next generation is due (R331). -/
def openPublish (s : State) (g x : Nat) : State :=
  ((s.takePublish g).wr (R.GRV_WPCTL g) F.GRV_WPCTL_BUSY 1).switchStream x (s.ring g)

/-- The START record of a publish that is under way. -/
def startRecord (s : State) (g : Nat) (full : Bool) (ring : Nat) : WpRecord :=
  ⟨s.wpStream g, false, full, ring, s.members g + 2 ^ 16 * ((List.range (s.layers g)).map (s.layerBlocks g)).sum, []⟩

theorem streamSlot_takePublish (s : State) (g : Nat) :
    (s.takePublish g).streamSlot ((s.takePublish g).wpStream g) = s.streamSlot (s.wpStream g) := by
  rw [wpStream_takePublish]
  rfl

theorem startPublish_without_key (hdue : (s.gl g).publishDue = true) (hnone : (s.gl g).publish = none)
    (hkey : s.streamSlot (s.wpStream g) = none) :
    s.startPublish g = (s.takePublish g).record ((ev Sev.warn Src.grv g).field (R.GRV_WPCTL g) F.GRV_WPCTL_STREAM) := by
  unfold startPublish
  rw [if_neg (by rw [hdue]; exact Bool.false_ne_true)]
  dsimp only
  rw [if_neg (by rw [gl_updGl_same, hnone]; exact Bool.false_ne_true), ← takePublish, streamSlot_takePublish, hkey]

/-- A publish with blocks to send does not end. -/
theorem publishEnd_of_left {p : Publish} (h : p.sent.length < s.bloc g) : s.publishEnd g p = s := if_pos h

theorem openPublish_regs (s : State) (g x : Nat) : s.sameRegsBut [R.GRV_WPCTL g] (s.openPublish g x) :=
  ((takePublish_regs s g).wr (by simp) _ _).of_regs (updKs_regs ..)

/-- The publish is under way in WPCTL: GO and FULL are taken up, and the stream and the KIDS stay. -/
theorem openPublish_shows (s : State) (g x : Nat) : (s.openPublish g x).rd (R.GRV_WPCTL g) F.GRV_WPCTL_GO = 0 ∧
    (s.openPublish g x).rd (R.GRV_WPCTL g) F.GRV_WPCTL_FULL = 0 ∧ (s.openPublish g x).rd (R.GRV_WPCTL g) F.GRV_WPCTL_BUSY = 1 ∧
    (s.openPublish g x).wpStream g = s.wpStream g ∧ (s.openPublish g x).wpKids g = s.wpKids g := by
  obtain ⟨hgo, hfull, -⟩ := takePublish_shows s g
  have hfield : ∀ f : Fld, (s.openPublish g x).rd (R.GRV_WPCTL g) f =
      ((s.takePublish g).wr (R.GRV_WPCTL g) F.GRV_WPCTL_BUSY 1).rd (R.GRV_WPCTL g) f := fun f => rd_congr (updKs_regs ..) _ f
  have hkids : (s.openPublish g x).reg (R.GRV_WPKIDS g) = s.reg (R.GRV_WPKIDS g) := openPublish_regs s g x _ (by
    simp only [List.mem_singleton, R.GRV_WPKIDS, R.GRV_WPCTL]
    omega)
  refine ⟨?_, ?_, ?_, ?_, ?_⟩
  · rw [hfield, rd_wr_apart _ _ rfl rfl, hgo]
  · rw [hfield, rd_wr_apart _ _ rfl rfl, hfull]
  · rw [hfield, rd_wr_same _ _ rfl]
    rfl
  · rw [wpStream, hfield, rd_wr_apart _ _ rfl rfl, ← wpStream, wpStream_takePublish]
  · rw [wpKids, hkids, hfield, rd_wr_apart _ _ rfl rfl, rd_takePublish _ _ rfl rfl rfl, wpKids]

/-- The glade's own registers stand apart from WPCTL. -/
theorem sameRegsBut.layout_of_wpctl (hg : g < 16) (h : s.sameRegsBut [R.GRV_WPCTL g] t) : s.sameLayout t := h.sameLayout fun a ha => by
  simp only [List.mem_singleton, R.GRV_WPCTL] at ha
  omega

theorem on_updGl (s : State) (g : Nat) (f : GladeState → GladeState) (a : Nat) (x : Fld) : (s.updGl g f).on a x = s.on a x := rfl

theorem bloc_updGl (s : State) (g : Nat) (f : GladeState → GladeState) : (s.updGl g f).bloc g = s.bloc g := rfl

theorem startPublish_with_key {x : Nat} (hg : g < 16) (hdue : (s.gl g).publishDue = true) (hnone : (s.gl g).publish = none)
    (hkey : s.streamSlot (s.wpStream g) = some x) (hblocks : 0 < s.bloc g) :
    s.startPublish g = ((s.openPublish g x).wpSend g 0 (s.startRecord g (s.on (R.GRV_WPCTL g) F.GRV_WPCTL_FULL) (s.ring g))).updGl g
      fun e => { e with publish := some ⟨s.ring g, s.on (R.GRV_WPCTL g) F.GRV_WPCTL_FULL, []⟩ } := by
  have htake := (takePublish_regs s g).layout_of_wpctl hg
  have hopen := (openPublish_regs s g x).layout_of_wpctl hg
  have htable : (s.takePublish g).layerBlocks g = s.layerBlocks g := funext (htake.layerBlocks hg rfl)
  obtain ⟨-, -, -, hstream, -⟩ := openPublish_shows s g x
  unfold startPublish
  rw [if_neg (by rw [hdue]; exact Bool.false_ne_true)]
  dsimp only
  rw [if_neg (by rw [gl_updGl_same, hnone]; exact Bool.false_ne_true), ← takePublish, streamSlot_takePublish, hkey]
  dsimp only
  rw [htake.ring hg, htake.layers hg, htable, ← openPublish, hstream, hopen.members hg, on_updGl, publishEnd_of_left, ← startRecord]
  rw [bloc_updGl, (wpSend_sends ..).regs.layout_of_bgtUse.bloc hg, hopen.bloc hg]
  exact hblocks

/-! ## A block of a publish (R218, R219) -/

theorem wpBase_of_bgtUse (h : s.sameRegsBut [R.BGT_USE 7] t) (hg : g < 16) (k : Nat) :
    t.wpBaseAddr g k = s.wpBaseAddr g k ∧ t.wpBaseHolds g k = s.wpBaseHolds g k := by
  have hne : R.GRV_WPBASE g ∉ [R.BGT_USE 7] := by
    simp only [List.mem_singleton, R.GRV_WPBASE, R.BGT_USE]
    omega
  rw [wpBaseAddr, wpBaseHolds, h.rd hne, h.rd hne]
  exact ⟨rfl, rfl⟩

/-- The BLOCK record of a block, which replaces the block or changes it. -/
def blockRecord (s : State) (g l b : Nat) (p : Publish) (replace : Bool) (body : List Byte) : WpRecord :=
  ⟨s.wpStream g, replace, false, p.ring, s.globalBlock g l b, wpBody body⟩

theorem bloc_of_bgtUse (h : s.sameRegsBut [R.BGT_USE 7] t) (hg : g < 16) : t.bloc g = s.bloc g := h.layout_of_bgtUse.bloc hg

/-- A block goes out as its change against the base, and its working copy becomes the base. -/
theorem publishOne_change {k l b : Nat} {p : Publish} {d : List Byte} (hg : g < 16) (hat : s.locate g k = some (l, b))
    (hholds : s.wpBaseHolds g k = true) (hserved : s.served (s.wpBaseAddr g k) 2048 = true) (hleft : p.sent.length + 1 < s.bloc g)
    (hd : d = s.readBytes (s.copyAddr g k) 2048) (hfull : p.full = false) (hbase : (s.gl g).baseRing.isSome = true)
    (hhas : (s.gl g).lacksBase.contains k = false) : s.publishOne g k p =
      (((s.wpSend g 1 (s.blockRecord g l b p false (xorBytes (s.readBytes (s.wpBaseAddr g k) 2048) d))).writeBytes
        (s.wpBaseAddr g k) d).charge 7 16 16 0).updGl g fun e => { e with publish := some { p with sent := p.sent ++ [k] } } := by
  have hreplace : (p.full || (s.gl g).baseRing.isNone || (s.gl g).lacksBase.contains k || !s.wpBaseHolds g k) = false := by
    rw [hfull, hhas, hholds, Option.isNone_eq_false_iff.mpr hbase]
    rfl
  have hlen : d.length = 2048 := by rw [hd, readBytes, List.length_map, List.length_range]
  have hsend := (wpSend_sends s g 1 (s.blockRecord g l b p false (xorBytes (s.readBytes (s.wpBaseAddr g k) 2048) d))).regs
  obtain ⟨haddr, hstill⟩ := wpBase_of_bgtUse hsend hg k
  unfold publishOne
  rw [hat]
  dsimp only
  rw [hreplace, ← hd, if_neg Bool.false_ne_true, ← blockRecord, hstill, if_pos hholds, haddr, store_of_served, publishEnd_of_left]
  · rw [bloc_updGl, bloc_of_bgtUse (((sameRegsBut.refl _ _).of_regs (writeBytes_regs ..)).trans (charge_regs _ _ _ _ _)) hg,
      bloc_of_bgtUse hsend hg, List.length_append]
    exact hleft
  · rw [hlen, hsend.layout_of_bgtUse.served, hserved]

/-- A block has gone out whole, and counts as sent. -/
def sendWhole (s : State) (g k l b : Nat) (p : Publish) : State :=
  ((s.wpSend g 1 (s.blockRecord g l b p true (s.readBytes (s.copyAddr g k) 2048))).charge 7 16 0 0).updGl g
    fun e => { e with publish := some { p with sent := p.sent ++ [k] } }

theorem sendWhole_frame (s : State) (g k l b : Nat) (p : Publish) : s.sameRegsBut [R.BGT_USE 7] (s.sendWhole g k l b p) ∧
    (s.sendWhole g k l b p).mem = s.mem ∧ (s.sendWhole g k l b p).sent =
      (s.wpSend g 1 (s.blockRecord g l b p true (s.readBytes (s.copyAddr g k) 2048))).sent := by
  have hsends := wpSend_sends s g 1 (s.blockRecord g l b p true (s.readBytes (s.copyAddr g k) 2048))
  exact ⟨(hsends.regs.trans (charge_regs _ _ _ _ _)).of_regs (updGl_regs ..), (charge_mem ..).trans hsends.mem, charge_sent ..⟩

/-- A block whose base copy has no place goes out whole. -/
theorem publishOne_whole {k l b : Nat} {p : Publish} (hg : g < 16) (hat : s.locate g k = some (l, b))
    (hholds : s.wpBaseHolds g k = false) :
    s.publishOne g k p = (s.sendWhole g k l b p).publishEnd g { p with sent := p.sent ++ [k] } := by
  have hreplace : (p.full || (s.gl g).baseRing.isNone || (s.gl g).lacksBase.contains k || !s.wpBaseHolds g k) = true := by
    rw [hholds]
    exact Bool.or_true _
  obtain ⟨-, hstill⟩ := wpBase_of_bgtUse
    (wpSend_sends s g 1 (s.blockRecord g l b p true (s.readBytes (s.copyAddr g k) 2048))).regs hg k
  unfold publishOne
  rw [hat]
  dsimp only
  rw [hreplace, if_pos rfl, ← blockRecord, hstill, if_neg (by rw [hholds]; exact Bool.false_ne_true), ← sendWhole]

/-! ## A publish ends (R218) -/

/-- The END record of a publish. -/
def endRecord (s : State) (g : Nat) (p : Publish) : WpRecord := ⟨s.wpStream g, false, false, p.ring, p.sent.length, []⟩

/-- A publish whose blocks have all been sent is over: its END goes out, and its ring is that of the base. -/
theorem publishEnd_of_whole {p : Publish} (h : s.bloc g ≤ p.sent.length) : s.publishEnd g p =
    (((s.wpSend g 2 (s.endRecord g p)).wr (R.GRV_WPCTL g) F.GRV_WPCTL_BUSY 0).wr (R.GRV_WPRING g) F.GRV_WPRING_RING p.ring).updGl g
      fun e => { e with publish := none, lacksBase := [], baseRing := some p.ring } :=
  if_neg (Nat.not_lt.mpr h)

theorem publishEnd_shows {p : Publish} (h : s.bloc g ≤ p.sent.length) : ((s.publishEnd g p).gl g).publish = none ∧
    ((s.publishEnd g p).gl g).baseRing = some p.ring ∧ (s.publishEnd g p).rd (R.GRV_WPCTL g) F.GRV_WPCTL_BUSY = 0 ∧
    (s.publishEnd g p).rd (R.GRV_WPRING g) F.GRV_WPRING_RING = p.ring % 2 ^ 64 := by
  have hne : R.GRV_WPCTL g ≠ R.GRV_WPRING g := by
    unfold R.GRV_WPCTL R.GRV_WPRING
    omega
  rw [publishEnd_of_whole h, gl_updGl_same]
  refine ⟨rfl, rfl, ?_, ?_⟩
  · rw [rd_congr (updGl_regs ..), rd_wr_other _ hne, rd_wr_same _ _ rfl]
    rfl
  · rw [rd_congr (updGl_regs ..), rd_wr_same _ _ rfl]
    rfl

theorem publishEnd_frame {p : Publish} (h : s.bloc g ≤ p.sent.length) :
    s.sameRegsBut [R.GRV_WPCTL g, R.GRV_WPRING g, R.BGT_USE 7] (s.publishEnd g p) ∧ (s.publishEnd g p).mem = s.mem ∧
      (s.publishEnd g p).sent = (s.wpSend g 2 (s.endRecord g p)).sent := by
  have hsends := wpSend_sends s g 2 (s.endRecord g p)
  rw [publishEnd_of_whole h]
  exact ⟨(((hsends.regs.mono (by simp)).wr (by simp) _ _).wr (by simp) _ _).of_regs (updGl_regs ..), hsends.mem, rfl⟩

end State
end Sys2Proof.Machine
end

section
/-! PROOF. The rows PUBLISH_GO, PUBLISH_START and PUBLISH_BLOCK (R217 to R219). -/
namespace Sys2Proof.Machine

section Rows
variable {s : State} {g : GladeId} (h : s.up)
include h

theorem exec_publishGo : exec (.publishGo g) s = .next (s.wr (R.GRV_WPCTL g.val) F.GRV_WPCTL_GO 1) :=
  congrArg Host.Outcome.next (State.inMain_of_up h _)

theorem exec_publishStart : exec (.publishStart g) s = .next (s.startPublish g.val) :=
  congrArg Host.Outcome.next (State.inMain_of_up h _)

theorem exec_publishBlock {u : Nat} {p : Publish} (hp : (s.gl g.val).publish = some p) (hu : u < s.bloc g.val)
    (hnew : p.sent.contains u = false) (hpermits : s.permits g.val 7 = true) :
    exec (.publishBlock g u) s = .next (s.publishOne g.val u p) := by
  have hexec : exec (.publishBlock g u) s = .next _ := congrArg Host.Outcome.next (State.inMain_of_up h _)
  rw [hexec, hp]
  dsimp only
  rw [if_pos (by rw [hnew, hpermits, decide_eq_true hu]; rfl)]

end Rows

/-- Settles O42: each row by the state that it answers. -/
theorem publishing : Obligations.Publishing := by
  unfold Obligations.Publishing
  refine ⟨fun s g h => ?_, fun s g x k h hdue hnone hkey hblocks hk => ?_, fun s g h hdue hnone hkey => ?_,
    fun s g u l b p d h hp hu hnew hpermits hat hholds hserved hleft hd hfull hbase hhas => ?_,
    fun s g u l b p h hp hu hnew hpermits hat hholds hlast => ?_⟩
  · exact ⟨_, exec_publishGo h, State.rd_wr_same _ _ rfl 1, (State.sameRegsBut.refl _ s).wr (by simp) _ _, rfl, rfl, rfl⟩
  · obtain ⟨hgo, hfull, hbusy, -, hkids⟩ := s.openPublish_shows g.val x
    have hsends := (s.openPublish g.val x).wpSend_sends g.val 0
      (s.startRecord g.val (s.on (R.GRV_WPCTL g.val) F.GRV_WPCTL_FULL) (s.ring g.val))
    have hctl : ∀ f : Fld, _ := fun f => hsends.regs.rd (a := R.GRV_WPCTL g.val) (by
      simp only [List.mem_singleton, R.GRV_WPCTL, R.BGT_USE]
      omega) f
    refine ⟨_, (exec_publishStart h).trans (congrArg Host.Outcome.next (State.startPublish_with_key g.isLt hdue hnone hkey hblocks)),
      congrArg GladeState.publish (State.gl_updGl_same ..), (hctl _).trans hgo, (hctl _).trans hfull, (hctl _).trans hbusy,
      State.mem_wpSend_sent (hkids ▸ hk) _ _, ?_, hsends.mem⟩
    exact (((s.openPublish_regs g.val x).mono (by simp)).trans (hsends.regs.mono (by simp))).of_regs (State.updGl_regs ..)
  · have hne : R.GRV_WPCTL g.val ≠ R.EVR_LOST := by
      unfold R.GRV_WPCTL R.EVR_LOST
      omega
    obtain ⟨hgo, -, hpublish⟩ := s.takePublish_shows g.val
    refine ⟨_, (exec_publishStart h).trans (congrArg Host.Outcome.next (State.startPublish_without_key hdue hnone hkey)), ?_,
      (State.rd_record _ _ hne _).trans hgo, ((s.takePublish_regs g.val).mono (by simp)).record (by simp) _, State.record_sent ..,
      State.record_mem ..⟩
    rw [State.gl_congr (State.record_glades ..), hpublish, hnone]
  · have hsends := s.wpSend_sends g.val 1
      (s.blockRecord g.val l b p false (xorBytes (s.readBytes (s.wpBaseAddr g.val u) 2048) d))
    refine ⟨_, (exec_publishBlock h hp hu hnew hpermits).trans (congrArg Host.Outcome.next
      (State.publishOne_change g.isLt hat hholds hserved hleft hd hfull hbase hhas)), ?_, ?_, fun k hk => ?_, ?_⟩
    · exact State.stores_of_mem hsends.mem (State.charge_mem ..)
    · exact congrArg GladeState.publish (State.gl_updGl_same ..)
    · have hsent : State.sent (State.charge ((s.wpSend g.val 1 (s.blockRecord g.val l b p false
          (xorBytes (s.readBytes (s.wpBaseAddr g.val u) 2048) d))).writeBytes (s.wpBaseAddr g.val u) d) 7 16 16 0) = _ :=
        (State.charge_sent ..).trans (State.writeBytes_sent ..)
      exact hsent ▸ State.mem_wpSend_sent hk _ _
    · exact ((hsends.regs.of_regs (State.writeBytes_regs ..)).trans (State.charge_regs _ _ _ _ _)).of_regs (State.updGl_regs ..)
  · obtain ⟨hregs, hmem, hsent⟩ := s.sendWhole_frame g.val u l b p
    have hlen : (p.sent ++ [u]).length = s.bloc g.val := List.length_append.trans hlast
    have hend := Nat.le_of_eq ((State.bloc_of_bgtUse hregs g.isLt).trans hlen.symm)
    obtain ⟨hnone, hring, hbusy, hshown⟩ := State.publishEnd_shows (p := { p with sent := p.sent ++ [u] }) hend
    obtain ⟨hframe, hkept, hout⟩ := State.publishEnd_frame (p := { p with sent := p.sent ++ [u] }) hend
    refine ⟨_, (exec_publishBlock h hp hu hnew hpermits).trans
      (congrArg Host.Outcome.next (State.publishOne_whole g.isLt hat hholds)), hnone, hring, hbusy, hshown, fun k hk => ⟨?_, ?_⟩,
      (hregs.mono (by simp)).trans hframe, hkept.trans hmem⟩
    · rw [hout]
      exact State.mem_wpSend_of_mem (hsent ▸ State.mem_wpSend_sent hk _ _) _ _
    · have hkid : k ∈ (s.sendWhole g.val u l b p).wpKids g.val := (hregs.wpKids (State.bgtUse_not_wp g.isLt)).symm ▸ hk
      rw [hout, State.endRecord, hregs.wpStream (State.bgtUse_not_wp g.isLt), hlen]
      exact State.mem_wpSend_sent hkid _ _

end Sys2Proof.Machine
end

section
/-! PROOF. The pool of rollout images (R223): the place of an image, the image that is evicted for another, and the requests and counts
of an image (R220, R222). -/
namespace Sys2Proof.Machine

namespace State
variable (s : State)

/-! ## Allocation (R223) -/

section Allocate
variable {s} {i n : Nat}

theorem imgAllocate_of_place {u : Nat} (h : s.imgPlace i = some u) :
    s.imgAllocate i (n + 1) = (s.wr (R.GRV_WIMG_BASE i) F.GRV_WIMG_BASE_BASE u, true) := by
  rw [imgAllocate, h]

theorem imgAllocate_of_victim {x : Nat} (h : s.imgPlace i = none) (hx : s.imgVictim i = some x) :
    s.imgAllocate i (n + 1) = (s.imgEvict x).imgAllocate i n := by
  rw [imgAllocate, h, hx]

theorem imgAllocate_of_full (h : s.imgPlace i = none) (hx : s.imgVictim i = none) : s.imgAllocate i (n + 1) = (s, false) := by
  rw [imgAllocate, h, hx]

/-- The image that is evicted is one of the sixteen that may be. -/
theorem imgVictim_evictable {x : Nat} (h : s.imgVictim i = some x) : s.imgEvictable i x = true ∧ x < 16 := by
  have hmem : ∀ y, s.imgVictim i = some y → y ∈ (List.range 16).filter (s.imgEvictable i) := by
    unfold imgVictim
    refine List.foldlRecOn (motive := fun m : Option Nat => ∀ y, m = some y → y ∈ (List.range 16).filter (s.imgEvictable i))
      _ _ nofun fun m hm x hx y hy => ?_
    split at hy
    · cases hy
      exact hx
    · split at hy
      · cases hy
        exact hx
      · exact hm y hy
  obtain ⟨hlt, hevict⟩ := List.mem_filter.mp (hmem x h)
  exact ⟨hevict, List.mem_range.mp hlt⟩

theorem ne_of_imgEvictable {x : Nat} (h : s.imgEvictable i x = true) : x ≠ i := by
  unfold imgEvictable at h
  simp only [Bool.and_eq_true, bne_iff_ne] at h
  obtain ⟨⟨⟨⟨hne, -⟩, -⟩, -⟩, -⟩ := h
  exact hne

end Allocate

/-! ## Eviction (R223) -/

/-- The registers of an image, all of them in their reset values, and its place empty. -/
def clearImg (s : State) (x : Nat) : State :=
  (((((s.resetReg (R.GRV_WIMG_CTL x)).resetReg (R.GRV_WIMG_BASE x)).resetReg (R.GRV_WIMG_GEN x)).resetReg
    (R.GRV_WIMG_USE x)).resetReg (R.GRV_WIMG_KIDS x)).updIm x fun _ => ImageState.reset

/-- The COUNT of every image but one is halved. -/
def halveCounts (s : State) (x : Nat) : State :=
  s.each ((List.range 16).filter (· != x)) fun s y =>
    s.wr (R.GRV_WIMG_USE y) F.GRV_WIMG_USE_COUNT (s.rd (R.GRV_WIMG_USE y) F.GRV_WIMG_USE_COUNT / 2)

/-- What the KIDS of an image are told when it is evicted. -/
def orphansOut (s : State) (x : Nat) : List Sent :=
  (s.imgKids x).map fun k => .toNode k "ORPHAN" [s.rd (R.GRV_WIMG_CTL x) F.GRV_WIMG_CTL_STREAM] []

/-- The Note record of an eviction. -/
def evictRecord (x : Nat) : Ev := { (ev Sev.note Src.grv 0).field (R.GRV_WIMG_CTL x) F.GRV_WIMG_CTL_EN with glade := none }

theorem imgEvict_eq (x : Nat) :
    s.imgEvict x = (((s.sendAll (s.orphansOut x)).clearImg x).record (evictRecord x)).halveCounts x := by
  unfold imgEvict
  dsimp only
  rw [each_sendAll (m := fun k => .toNode k "ORPHAN" [s.rd (R.GRV_WIMG_CTL x) F.GRV_WIMG_CTL_STREAM] []) s (fun _ _ => rfl)]
  rfl

theorem halveCounts_mem (x : Nat) : (s.halveCounts x).mem = s.mem := each_eq s State.mem fun _ _ _ => rfl

theorem halveCounts_sent (x : Nat) : (s.halveCounts x).sent = s.sent := each_eq s State.sent fun _ _ _ => rfl

/-- Halving the counts leaves the control registers of the images alone. -/
theorem rd_ctl_halveCounts (x y : Nat) (f : Fld) : (s.halveCounts x).rd (R.GRV_WIMG_CTL y) f = s.rd (R.GRV_WIMG_CTL y) f :=
  each_eq s (fun v => v.rd (R.GRV_WIMG_CTL y) f) fun v z _ => rd_wr_other v (by unfold R.GRV_WIMG_CTL R.GRV_WIMG_USE; omega) _ _ _

/-- The control register of an image that is cleared holds its reset value. -/
theorem reg_ctl_clearImg {x : Nat} (hx : x < 16) : (s.clearImg x).reg (R.GRV_WIMG_CTL x) = resetWord (R.GRV_WIMG_CTL x) := by
  unfold clearImg resetReg
  rw [reg_congr (updIm_regs ..)]
  unfold R.GRV_WIMG_CTL R.GRV_WIMG_BASE R.GRV_WIMG_GEN R.GRV_WIMG_USE R.GRV_WIMG_KIDS
  simp only [reg_setReg]
  rw [if_neg (by omega), if_neg (by omega), if_neg (by omega), if_neg (by omega), if_pos True.intro]

/-- An image slot is not in use after reset (R433). -/
theorem resetWord_wimgCtl_en {x : Nat} (hx : x < 16) : fget (resetWord (R.GRV_WIMG_CTL x)) F.GRV_WIMG_CTL_EN = 0 := by
  have hall : ∀ x : Fin 16, fget (resetWord (R.GRV_WIMG_CTL x.val)) F.GRV_WIMG_CTL_EN = 0 := by decide +kernel
  exact hall ⟨x, hx⟩

/-- An eviction frees the slot, tells the KIDS of the image, and stores nothing. -/
theorem imgEvict_shows {x : Nat} (hx : x < 16) : (s.imgEvict x).rd (R.GRV_WIMG_CTL x) F.GRV_WIMG_CTL_EN = 0 ∧
    (s.imgEvict x).sent = s.sent ++ s.orphansOut x ∧ (s.imgEvict x).mem = s.mem := by
  have hlost : R.GRV_WIMG_CTL x ≠ R.EVR_LOST := by
    unfold R.GRV_WIMG_CTL R.EVR_LOST
    omega
  rw [imgEvict_eq]
  refine ⟨?_, ?_, ?_⟩
  · rw [rd_ctl_halveCounts, rd_record _ _ hlost, rd, reg_ctl_clearImg _ hx, resetWord_wimgCtl_en hx]
  · rw [halveCounts_sent, record_sent]
    rfl
  · rw [halveCounts_mem, record_mem]
    rfl

/-! ## A slot is taken into use (R220) -/

/-- The slot of an image that has its place: EN is 1 and STATE 0. -/
def takeSlot (s : State) (i : Nat) : State :=
  ((s.wr (R.GRV_WIMG_CTL i) F.GRV_WIMG_CTL_EN 1).setImg i 0).updIm i fun _ => ImageState.reset

theorem takeSlot_regs (i : Nat) : s.sameRegsBut [R.GRV_WIMG_CTL i] (s.takeSlot i) :=
  (((sameRegsBut.refl _ s).wr (by simp) _ _).wr (by simp) _ _).of_regs (updIm_regs ..)

theorem takeSlot_shows (i : Nat) :
    (s.takeSlot i).rd (R.GRV_WIMG_CTL i) F.GRV_WIMG_CTL_EN = 1 ∧ (s.takeSlot i).imgState i = 0 := by
  unfold takeSlot imgState setImg
  rw [rd_congr (updIm_regs ..), rd_congr (updIm_regs ..)]
  exact ⟨(rd_wr_apart _ _ rfl rfl _).trans (rd_wr_same _ _ rfl 1), rd_wr_same _ _ rfl 0⟩

/-- The place of an image is where its BASE is set (R223). -/
theorem imageEnable_placed {i : Nat} {v : State} {b : Nat} (hen : s.on (R.GRV_WIMG_CTL i) F.GRV_WIMG_CTL_EN = false)
    (h : s.imgAllocate i 17 = (v.wr (R.GRV_WIMG_BASE i) F.GRV_WIMG_BASE_BASE b, true)) :
    s.imageEnable i = (v.wr (R.GRV_WIMG_BASE i) F.GRV_WIMG_BASE_BASE b).takeSlot i := by
  unfold imageEnable
  simp only [hen, h, Bool.false_eq_true, if_false, if_true]
  rfl

theorem imageEnable_refused {i : Nat} (hen : s.on (R.GRV_WIMG_CTL i) F.GRV_WIMG_CTL_EN = false)
    (h : s.imgAllocate i 17 = (s, false)) : s.imageEnable i = s.imgRefuse i := by
  unfold imageEnable
  simp only [hen, h, Bool.false_eq_true, if_false]

/-! ## Loads (R222) -/

/-- The request that asks SRC for an image. -/
def loadreqOut (s : State) (i : Nat) : Sent :=
  .toNode (s.rd (R.GRV_WIMG_CTL i) F.GRV_WIMG_CTL_SRC) "LOADREQ" [s.pnid, s.rd (R.GRV_WIMG_CTL i) F.GRV_WIMG_CTL_STREAM] []

theorem loadreqOut_setImg {i : Nat} (hi : i < 16) (n : Nat) : (s.setImg i n).loadreqOut i = s.loadreqOut i := by
  have hself : R.RTR_SELF ≠ R.GRV_WIMG_CTL i := by
    unfold R.RTR_SELF R.GRV_WIMG_CTL
    omega
  unfold loadreqOut setImg pnid
  rw [rd_wr_apart _ _ rfl rfl, rd_wr_apart _ _ rfl rfl, rd_wr_other _ hself]

/-- An image whose load begins: STATE 3 with no START dropped and no retry made, and the request to SRC. -/
theorem imageLoad_placed {i : Nat} (hi : i < 16) (hen : s.on (R.GRV_WIMG_CTL i) F.GRV_WIMG_CTL_EN = true)
    (hfits : s.imgFits i (s.rd (R.GRV_WIMG_BASE i) F.GRV_WIMG_BASE_BASE) = true) : s.imageLoad i =
      ((s.setImg i 3).updIm i fun m => { m with missedStart := none, retries := 0 }).send (s.loadreqOut i) := by
  rw [← loadreqOut_setImg s hi 3]
  unfold imageLoad
  simp only [hen, hfits, Bool.not_true, Bool.false_eq_true, if_false, if_true]
  rfl

theorem imgState_setImg (i n : Nat) : (s.setImg i n).imgState i = n % 8 := rd_wr_same s _ rfl n

theorem setImg_regs (i n : Nat) : s.sameRegsBut [R.GRV_WIMG_CTL i] (s.setImg i n) := (sameRegsBut.refl _ s).wr (by simp) _ _

theorem im_setImg_updIm (i n : Nat) (f : ImageState → ImageState) : ((s.updIm i f).setImg i n).im i = f (s.im i) :=
  (im_updIm s i i f).trans (if_pos rfl)

theorem im_send_updIm (i : Nat) (f : ImageState → ImageState) (x : Sent) : ((s.updIm i f).send x).im i = f (s.im i) :=
  (im_updIm s i i f).trans (if_pos rfl)

/-- A load that is given up leaves the image incomplete. -/
theorem loadFailed_shows {i : Nat} (hi : i < 16) : (s.loadFailed i).imgState i = 4 ∧
    s.sameRegsBut [R.GRV_WIMG_CTL i, R.EVR_LOST] (s.loadFailed i) ∧ (s.loadFailed i).mem = s.mem := by
  have hlost : R.GRV_WIMG_CTL i ≠ R.EVR_LOST := by
    unfold R.GRV_WIMG_CTL R.EVR_LOST
    omega
  unfold loadFailed
  refine ⟨?_, ((setImg_regs s i 4).mono (by simp)).record (by simp) _, record_mem ..⟩
  rw [imgState, rd_record _ _ hlost]
  exact imgState_setImg s i 4

/-- The slot that holds a stream is one of the sixteen. -/
theorem imgOf_lt {n i : Nat} (h : s.imgOf n = some i) : i < 16 := List.mem_range.mp (List.mem_of_find?_eq_some h)

/-! ## Use (R220) -/

theorem imgUse_regs (i : Nat) : s.sameRegsBut [R.GRV_WIMG_USE i] (s.imgUse i) :=
  ((sameRegsBut.refl _ s).inc (by simp) _).wr (by simp) _ _

theorem imgUse_shows (i : Nat) :
    (s.imgUse i).rd (R.GRV_WIMG_USE i) F.GRV_WIMG_USE_COUNT = min (s.rd (R.GRV_WIMG_USE i) F.GRV_WIMG_USE_COUNT + 1) (2 ^ 16 - 1) ∧
      (s.imgUse i).rd (R.GRV_WIMG_USE i) F.GRV_WIMG_USE_LAST = s.now / 1000 % 2 ^ 32 := by
  unfold imgUse
  exact ⟨(rd_wr_apart _ _ rfl rfl _).trans (rd_inc_same _ _ rfl), rd_wr_same _ _ rfl _⟩

end State
end Sys2Proof.Machine
end

section
/-! PROOF. The rows IMAGE_ENABLE, IMAGE_LOAD, LOADREQ, IMAGE_ANSWER, LOAD_RETRY and TOUCH (R220, R222, R223). -/
namespace Sys2Proof.Machine

section Rows
variable {s : State} {i : ImageId} (h : s.up)
include h

theorem exec_imageEnable_placed {u : Nat} (hen : s.on (R.GRV_WIMG_CTL i.val) F.GRV_WIMG_CTL_EN = false)
    (hplace : s.imgPlace i.val = some u) :
    exec (.imageEnable i) s = .next ((s.wr (R.GRV_WIMG_BASE i.val) F.GRV_WIMG_BASE_BASE u).takeSlot i.val) :=
  (congrArg Host.Outcome.next (State.inMain_of_up h _)).trans
    (congrArg Host.Outcome.next (State.imageEnable_placed s hen (State.imgAllocate_of_place hplace)))

theorem exec_imageEnable_evicting {x u : Nat} (hen : s.on (R.GRV_WIMG_CTL i.val) F.GRV_WIMG_CTL_EN = false)
    (hnone : s.imgPlace i.val = none) (hx : s.imgVictim i.val = some x) (hplace : (s.imgEvict x).imgPlace i.val = some u) :
    exec (.imageEnable i) s = .next (((s.imgEvict x).wr (R.GRV_WIMG_BASE i.val) F.GRV_WIMG_BASE_BASE u).takeSlot i.val) :=
  (congrArg Host.Outcome.next (State.inMain_of_up h _)).trans (congrArg Host.Outcome.next (State.imageEnable_placed s hen
    ((State.imgAllocate_of_victim hnone hx).trans (State.imgAllocate_of_place hplace))))

theorem exec_imageEnable_refused (hen : s.on (R.GRV_WIMG_CTL i.val) F.GRV_WIMG_CTL_EN = false)
    (hnone : s.imgPlace i.val = none) (hx : s.imgVictim i.val = none) : exec (.imageEnable i) s = .next (s.imgRefuse i.val) :=
  (congrArg Host.Outcome.next (State.inMain_of_up h _)).trans
    (congrArg Host.Outcome.next (State.imageEnable_refused s hen (State.imgAllocate_of_full hnone hx)))

theorem exec_imageLoad (hen : s.on (R.GRV_WIMG_CTL i.val) F.GRV_WIMG_CTL_EN = true)
    (hfits : s.imgFits i.val (s.rd (R.GRV_WIMG_BASE i.val) F.GRV_WIMG_BASE_BASE) = true) : exec (.imageLoad i) s = .next
      (((s.setImg i.val 3).updIm i.val fun m => { m with missedStart := none, retries := 0 }).send (s.loadreqOut i.val)) :=
  (congrArg Host.Outcome.next (State.inMain_of_up h _)).trans
    (congrArg Host.Outcome.next (State.imageLoad_placed s i.isLt hen hfits))

/-- SRC sends a current image, and counts the use (R220, R222). -/
theorem exec_loadreq_current {x n k : Nat} (hkey : (s.streamSlot n).isSome = true) (hk : s.imgOf n = some k)
    (hcurrent : s.imgState k = 1) : exec (.loadreq x n) s = .next (((s.imgUse k).charge 7
      (linesIn (s.imgBase k) (2048 * (s.im k).blocks)) 0 (msgBlocks (2048 * (s.im k).blocks))).toNode x "LOAD_IMAGE"
        [n, (s.reg (R.GRV_WIMG_GEN k)).toNat] (s.readBytes (s.imgBase k) (2048 * (s.im k).blocks))) := by
  have hexec : exec (.loadreq x n) s = .next _ := congrArg Host.Outcome.next (State.inMain_of_up h _)
  rw [hexec, if_neg (by simpa [Option.isSome_iff_ne_none] using hkey), hk]
  exact congrArg Host.Outcome.next (if_pos hcurrent)

theorem exec_loadreq_busy {x n : Nat} (hkey : (s.streamSlot n).isSome = true) (hbusy : ∀ k, s.imgOf n = some k → s.imgState k ≠ 1) :
    exec (.loadreq x n) s = .next (s.toNode x "LOAD_BUSY" [n]) := by
  have hexec : exec (.loadreq x n) s = .next _ := congrArg Host.Outcome.next (State.inMain_of_up h _)
  rw [hexec, if_neg (by simpa [Option.isSome_iff_ne_none] using hkey)]
  cases hk : s.imgOf n with
  | none => rfl
  | some k => exact congrArg Host.Outcome.next (if_neg (hbusy k hk))

/-- The image that arrives is written, unless a newer START was dropped it is current (R222). -/
theorem exec_imageAnswer_image {q : Nat} {b : List Byte} (hload : s.imgState i.val = 3)
    (hnew : (s.im i.val).missedStart.getD 0 ≤ q) (hserved : s.served (s.imgBase i.val) b.length = true) :
    exec (.imageAnswer i (.image q b)) s = .next (((((s.writeBytes (s.imgBase i.val) b).charge 7 0
      (linesIn (s.imgBase i.val) b.length) 0).wr (R.GRV_WIMG_GEN i.val) F.GRV_WIMG_GEN_RING q).updIm i.val
        fun m => { m with blocks := b.length / 2048, ends := [], seen := [], ring := q }).setImg i.val 1) := by
  have hexec : exec (.imageAnswer i (.image q b)) s = .next _ := congrArg Host.Outcome.next (State.inMain_of_up h _)
  rw [hexec, if_neg (not_not_intro hload)]
  dsimp only
  rw [if_neg (Nat.not_lt.mpr hnew), State.store_of_served s hserved]

/-- A refused load waits for its retry, or is given up after the eighth (R222). -/
theorem exec_imageAnswer_refused {a : LoadAnswer} (hload : s.imgState i.val = 3) (ha : a = .busy ∨ a = .aborted) :
    exec (.imageAnswer i a) s = .next (if 8 ≤ (s.im i.val).retries then s.loadFailed i.val else s) := by
  have hexec : exec (.imageAnswer i a) s = .next _ := congrArg Host.Outcome.next (State.inMain_of_up h _)
  rw [hexec, if_neg (not_not_intro hload)]
  rcases ha with rfl | rfl <;> rfl

theorem exec_loadRetry (hload : s.imgState i.val = 3) (hfew : (s.im i.val).retries < 8) : exec (.loadRetry i) s =
    .next ((s.updIm i.val fun m => { m with retries := m.retries + 1 }).send (s.loadreqOut i.val)) := by
  have hexec : exec (.loadRetry i) s = .next _ := congrArg Host.Outcome.next (State.inMain_of_up h _)
  rw [hexec, if_neg (not_not_intro hload), if_neg (Nat.not_le.mpr hfew)]
  rfl

theorem exec_touch : exec (.touch i) s = .next (s.imgUse i.val) := congrArg Host.Outcome.next (State.inMain_of_up h _)

end Rows

/-- Settles O44: each row by the state that it answers. -/
theorem imagePool : Obligations.ImagePool := by
  unfold Obligations.ImagePool
  refine ⟨fun s i u h hen hplace hu => ?_, fun s i x u h hen hnone hx hplace => ?_, fun s i h hen hnone hx => ?_,
    fun s i h hen hfits => ?_, fun s x n k h hkey hk hcurrent => ?_, fun s x n h hkey hbusy => ?_,
    fun s i q b h hload hnew hserved => ?_, fun s i a h hload ha => ?_, fun s i h hload hfew => ?_, fun s i h => ?_⟩
  · have hne : R.GRV_WIMG_BASE i.val ≠ R.GRV_WIMG_CTL i.val := by
      unfold R.GRV_WIMG_BASE R.GRV_WIMG_CTL
      omega
    obtain ⟨hone, hzero⟩ := (s.wr (R.GRV_WIMG_BASE i.val) F.GRV_WIMG_BASE_BASE u).takeSlot_shows i.val
    have hregs := (s.wr (R.GRV_WIMG_BASE i.val) F.GRV_WIMG_BASE_BASE u).takeSlot_regs i.val
    refine ⟨_, exec_imageEnable_placed h hen hplace, hone, hzero, ?_, ?_, rfl, rfl⟩
    · rw [hregs.rd (by simpa using hne), State.rd_wr_same _ _ rfl]
      exact Nat.mod_eq_of_lt hu
    · exact ((State.sameRegsBut.refl _ s).wr (by simp) _ _).trans (hregs.mono (by simp))
  · obtain ⟨hevictable, hlt⟩ := State.imgVictim_evictable hx
    have hxi := State.ne_of_imgEvictable hevictable
    have hne : R.GRV_WIMG_CTL x ≠ R.GRV_WIMG_BASE i.val ∧ R.GRV_WIMG_CTL x ≠ R.GRV_WIMG_CTL i.val := by
      unfold R.GRV_WIMG_CTL R.GRV_WIMG_BASE
      omega
    obtain ⟨hfree, hsent, hmem⟩ := s.imgEvict_shows hlt
    obtain ⟨hone, -⟩ := ((s.imgEvict x).wr (R.GRV_WIMG_BASE i.val) F.GRV_WIMG_BASE_BASE u).takeSlot_shows i.val
    refine ⟨_, exec_imageEnable_evicting h hen hnone hx hplace, hone, ?_, fun k hk => ?_, hmem⟩
    · rw [(State.takeSlot_regs _ i.val).rd (by simpa using hne.2), State.rd_wr_other _ hne.1, hfree]
    · have hout : State.sent (((s.imgEvict x).wr (R.GRV_WIMG_BASE i.val) F.GRV_WIMG_BASE_BASE u).takeSlot i.val) =
          s.sent ++ s.orphansOut x := hsent
      rw [hout]
      exact List.mem_append_right _ (List.mem_map_of_mem hk)
  · exact ⟨_, exec_imageEnable_refused h hen hnone hx, (State.sameRegsBut.refl _ s).record (by simp) _, State.record_images ..,
      State.record_sent .., State.record_mem ..⟩
  · exact ⟨_, exec_imageLoad h hen hfits, s.imgState_setImg i.val 3, rfl, s.setImg_regs i.val 3, rfl⟩
  · have hne : R.GRV_WIMG_USE k ≠ R.BGT_USE 7 := by
      have := s.imgOf_lt hk
      unfold R.GRV_WIMG_USE R.BGT_USE
      omega
    have hcharge := (s.imgUse k).charge_regs 7 (linesIn (s.imgBase k) (2048 * (s.im k).blocks)) 0
      (msgBlocks (2048 * (s.im k).blocks))
    refine ⟨_, exec_loadreq_current h hkey hk hcurrent, ?_, ?_, ?_, ?_⟩
    · exact congrArg (· ++ _) (State.charge_sent ..)
    · exact (hcharge.rd (by simpa using hne) _).trans (s.imgUse_shows k).1
    · exact ((s.imgUse_regs k).mono (by simp)).trans (hcharge.mono (by simp))
    · exact State.charge_mem ..
  · exact ⟨_, exec_loadreq_busy h hkey hbusy, rfl, rfl, rfl⟩
  · have hne : R.GRV_WIMG_GEN i.val ≠ R.GRV_WIMG_CTL i.val := by
      unfold R.GRV_WIMG_GEN R.GRV_WIMG_CTL
      omega
    have hexec := exec_imageAnswer_image h hload hnew hserved
    have hcharge := (s.writeBytes (s.imgBase i.val) b).charge_regs 7 0 (linesIn (s.imgBase i.val) b.length) 0
    refine ⟨_, hexec, State.imgState_setImg .., ?_, ?_, State.stores_of_mem rfl (State.charge_mem ..), ?_, ?_⟩
    · rw [(State.setImg_regs _ i.val 1).rd (by simpa using hne), State.rd_congr (State.updIm_regs ..)]
      exact State.rd_wr_same _ _ rfl q
    · exact congrArg ImageState.blocks (State.im_setImg_updIm ..)
    · refine State.sameRegsBut.wr (State.sameRegsBut.of_regs (State.sameRegsBut.wr ?_ (by simp) _ _) (State.updIm_regs ..)) (by simp) _ _
      exact ((State.sameRegsBut.refl _ s).of_regs (State.writeBytes_regs ..)).trans (hcharge.mono (by simp))
    · exact (State.charge_sent ..).trans (State.writeBytes_sent ..)
  · refine ⟨_, exec_imageAnswer_refused h hload ha, ?_⟩
    split
    · exact s.loadFailed_shows i.isLt
    · exact ⟨hload, State.sameRegsBut.refl _ s, rfl⟩
  · exact ⟨_, exec_loadRetry h hload hfew, State.im_send_updIm .., rfl, rfl, rfl⟩
  · obtain ⟨hcount, hlast⟩ := s.imgUse_shows i.val
    exact ⟨_, exec_touch h, hcount, hlast, s.imgUse_regs i.val, rfl, rfl⟩

end Sys2Proof.Machine
end

section
/-! PROOF. What the rows of a link share (R242, R253 to R265): its masks and its registers, the reads of its state, training that starts,
frames that wait for nobody, and silence where no glade is active. -/
namespace Sys2Proof.Machine

/-! ## Masks of lanes (R242, R259) -/

/-- Bit i of a mask is entry i of the list that it is made from. -/
theorem bitAt_maskOf (l : List Bool) (i : Nat) : bitAt (maskOf l) i = l.getD i false := by
  rw [bitAt_eq_testBit]
  induction l generalizing i with
  | nil => simp [maskOf]
  | cons b l ih =>
    rw [maskOf_cons]
    cases i with
    | zero => cases b <;> simp [Nat.testBit_zero]
    | succ i =>
      have hhalf : (2 * maskOf l + if b = true then 1 else 0) / 2 = maskOf l := by split <;> omega
      rw [Nat.testBit_succ, hhalf, ih i, List.getD_cons_succ]

theorem maskOfLanes_lt (l : List Nat) : maskOfLanes l < 2 ^ 8 := by
  simpa [maskOfLanes] using maskOf_lt ((List.range 8).map l.contains)

theorem meet_lt (a b : Nat) : meet a b < 2 ^ 8 := maskOfLanes_lt _

theorem mem_lanesOfMask {m i : Nat} : i ∈ lanesOfMask m ↔ i < 8 ∧ bitAt m i = true := by simp [lanesOfMask]

theorem lanesOfMask_nodup (m : Nat) : (lanesOfMask m).Nodup := List.nodup_range.filter _

theorem bitAt_maskOfLanes {l : List Nat} {i : Nat} (hi : i < 8) : bitAt (maskOfLanes l) i = l.contains i := by
  rw [maskOfLanes, bitAt_maskOf, List.getD_eq_getElem?_getD, List.getElem?_map, List.getElem?_range hi]
  rfl

theorem bitAt_meet {a b i : Nat} (hi : i < 8) : bitAt (meet a b) i = (bitAt a i && bitAt b i) := by
  rw [meet, bitAt_maskOfLanes hi, Bool.eq_iff_iff]
  simp [mem_lanesOfMask, hi]

theorem ne_zero_of_bitAt {m i : Nat} (h : bitAt m i = true) : m ≠ 0 := fun e => by simp [e, bitAt] at h

/-- A mask with lanes in it is not empty. -/
theorem ne_zero_of_lanesOfMask {m i : Nat} {r : List Nat} (h : lanesOfMask m = i :: r) : m ≠ 0 :=
  ne_zero_of_bitAt (mem_lanesOfMask.mp (h ▸ List.mem_cons_self ..)).2

/-- The lanes of a mask but the first one. -/
theorem filter_ne_of_lanesOfMask {m i : Nat} {r : List Nat} (h : lanesOfMask m = i :: r) :
    (lanesOfMask m).filter (· != i) = r := by
  obtain ⟨hi, -⟩ := List.nodup_cons.mp (h ▸ lanesOfMask_nodup m)
  rw [h, List.filter_cons_of_neg (by simp), List.filter_eq_self]
  intro j hj
  simpa using fun e : j = i => hi (e ▸ hj)

/-! ## The registers of a link -/

/-- The registers below the recorder's are not EVR_LOST. -/
theorem ne_evrLost_of_lt {a : Nat} (h : a < 0x300000) : a ≠ R.EVR_LOST := by
  unfold R.EVR_LOST
  omega

section Addresses
variable {p : Nat}

theorem lnkStatus_ne_lost (hp : p < 32) : R.LNK_STATUS p ≠ R.EVR_LOST := ne_evrLost_of_lt (by unfold R.LNK_STATUS; omega)

theorem lnkWidth_ne_lost (hp : p < 32) : R.LNK_WIDTH p ≠ R.EVR_LOST := ne_evrLost_of_lt (by unfold R.LNK_WIDTH; omega)

theorem lnkDoze_ne_lost (hp : p < 32) : R.LNK_DOZE p ≠ R.EVR_LOST := ne_evrLost_of_lt (by unfold R.LNK_DOZE; omega)

theorem lnkPeer_ne_lost (hp : p < 32) : R.LNK_PEER p ≠ R.EVR_LOST := ne_evrLost_of_lt (by unfold R.LNK_PEER; omega)

end Addresses

namespace State
variable (s : State)

/-! ## Reads of a link -/

theorem lk_congr {s t : State} (h : t.links = s.links) (p : Nat) : t.lk p = s.lk p := by rw [lk, lk, h]

@[simp] theorem lk_send (x : Sent) (p : Nat) : (s.send x).lk p = s.lk p := lk_congr (send_links s x) p

@[simp] theorem lk_setReg (a : Nat) (v : Word) (p : Nat) : (s.setReg a v).lk p = s.lk p := lk_congr (setReg_links s a v) p

@[simp] theorem lk_wr (a : Nat) (f : Fld) (n p : Nat) : (s.wr a f n).lk p = s.lk p := lk_congr (wr_links s a f n) p

@[simp] theorem lk_add (a : Nat) (f : Fld) (n p : Nat) : (s.add a f n).lk p = s.lk p := lk_wr ..

@[simp] theorem lk_inc (a : Nat) (f : Fld) (p : Nat) : (s.inc a f).lk p = s.lk p := lk_wr ..

@[simp] theorem lk_throttle (p : Nat) : s.throttle.lk p = s.lk p := lk_congr (t := s.throttle) rfl p

@[simp] theorem rd_send (x : Sent) (a : Nat) (f : Fld) : (s.send x).rd a f = s.rd a f := rd_congr (send_regs s x) a f

@[simp] theorem rd_updLk (p : Nat) (g : LinkState → LinkState) (a : Nat) (f : Fld) : (s.updLk p g).rd a f = s.rd a f :=
  rd_congr (updLk_regs s p g) a f

@[simp] theorem rd_throttle (a : Nat) (f : Fld) : s.throttle.rd a f = s.rd a f := rd_congr (t := s.throttle) rfl a f

@[simp] theorem lk_record (e : Ev) (p : Nat) : (s.record e).lk p = s.lk p := lk_congr (record_links s e) p

theorem lk_updLk_same (p : Nat) (f : LinkState → LinkState) : (s.updLk p f).lk p = f (s.lk p) :=
  (lk_updLk s p p f).trans (if_pos rfl)

/-- Two changes of one link are one. -/
theorem lk_updLk_updLk (p : Nat) (f g : LinkState → LinkState) : ((s.updLk p f).updLk p g).lk p = g (f (s.lk p)) := by
  rw [lk_updLk_same, lk_updLk_same]

theorem lane_updLane_same (p i : Nat) (f : LaneState → LaneState) : ((s.updLane p i f).lk p).lane i = f ((s.lk p).lane i) := by
  simp [updLane, LinkState.lane]

theorem throttle_regs : s.throttle.regs = s.regs := rfl

@[simp] theorem on_throttle (a : Nat) (f : Fld) : s.throttle.on a f = s.on a f := by rw [on, on, rd_throttle]

@[simp] theorem lnkState_throttle (p : Nat) : s.throttle.lnkState p = s.lnkState p := rd_throttle ..

@[simp] theorem rxMask_throttle (p : Nat) : s.throttle.rxMask p = s.rxMask p := rd_throttle ..

@[simp] theorem txMask_throttle (p : Nat) : s.throttle.txMask p = s.txMask p := rd_throttle ..

@[simp] theorem lockedMask_throttle (p : Nat) : s.throttle.lockedMask p = s.lockedMask p := rd_throttle ..

theorem sameRegsBut.updLk {s t : State} {l : List Nat} (h : s.sameRegsBut l t) (p : Nat) (f : LinkState → LinkState) :
    s.sameRegsBut l (t.updLk p f) :=
  h.of_regs (updLk_regs ..)

theorem sameRegsBut.updLane {s t : State} {l : List Nat} (h : s.sameRegsBut l t) (p i : Nat) (f : LaneState → LaneState) :
    s.sameRegsBut l (t.updLane p i f) :=
  h.updLk _ _

theorem sameRegsBut.send {s t : State} {l : List Nat} (h : s.sameRegsBut l t) (x : Sent) : s.sameRegsBut l (t.send x) :=
  h.of_regs (send_regs ..)

theorem sameRegsBut.throttle {s t : State} {l : List Nat} (h : s.sameRegsBut l t) : s.sameRegsBut l t.throttle :=
  h.of_regs (u := t.throttle) rfl

theorem on_congr {s t : State} {a : Nat} {f : Fld} (h : t.rd a f = s.rd a f) : t.on a f = s.on a f := by rw [on, on, h]

/-- A one-bit field that is not zero reads 1. -/
theorem rd_eq_one {a : Nat} {f : Fld} (hf : f.width = 1) (h : s.on a f = true) : s.rd a f = 1 := by
  have hlt := s.rd_lt a f
  have hne : s.rd a f ≠ 0 := by simpa [on] using h
  rw [hf] at hlt
  omega

/-! ## What an operation of a link sends -/

/-- Where no frame waits and the router is as it was, none is tried. -/
theorem pump_of_router {s t : State} (h : t.router = s.router) (hw : s.router.waiting = []) : t.pump = t.throttle := by
  have hnone : t.router.waiting = [] := by rw [h, hw]
  have hsame : { t with router := { t.router with waiting := [] } } = t := by rw [← hnone]
  rw [pump, hnone, hsame]
  rfl

/-- Between two states nothing of the router has changed, and `out` has been sent. -/
structure Emits (out : List Sent) (s t : State) : Prop where
  router : t.router = s.router
  sent : t.sent = s.sent ++ out

namespace Emits
variable {s t u : State} {o o' : List Sent}

theorem refl (s : State) : Emits [] s s := ⟨rfl, (List.append_nil _).symm⟩

theorem trans (h : Emits o s t) (h' : Emits o' t u) : Emits (o ++ o') s u :=
  ⟨h'.router.trans h.router, by rw [h'.sent, h.sent, List.append_assoc]⟩

theorem setReg (h : Emits o s t) (a : Nat) (v : Word) : Emits o s (t.setReg a v) := ⟨h.router, h.sent⟩

theorem wr (h : Emits o s t) (a : Nat) (f : Fld) (n : Nat) : Emits o s (t.wr a f n) := h.setReg a _

theorem add (h : Emits o s t) (a : Nat) (f : Fld) (n : Nat) : Emits o s (t.add a f n) := h.wr a f _

theorem inc (h : Emits o s t) (a : Nat) (f : Fld) : Emits o s (t.inc a f) := h.add a f 1

theorem updLk (h : Emits o s t) (p : Nat) (f : LinkState → LinkState) : Emits o s (t.updLk p f) := ⟨h.router, h.sent⟩

theorem updLane (h : Emits o s t) (p i : Nat) (f : LaneState → LaneState) : Emits o s (t.updLane p i f) := h.updLk ..

theorem record (h : Emits o s t) (e : Ev) : Emits o s (t.record e) :=
  ⟨(record_router t e).trans h.router, (record_sent t e).trans h.sent⟩

theorem send (h : Emits o s t) (x : Sent) : Emits (o ++ [x]) s (t.send x) :=
  ⟨h.router, (congrArg (· ++ [x]) h.sent).trans (List.append_assoc ..)⟩

theorem throttle (h : Emits o s t) : t.throttle.sent = s.sent ++ o := h.sent

/-- With no frame waiting before, none waits after it. -/
theorem pump (h : Emits o s t) (hw : s.router.waiting = []) : t.pump = t.throttle := pump_of_router h.router hw

end Emits

/-! ## The retry buffer (R253) -/

/-- With every buffered frame sent, there is none to send. -/
theorem flush_of_all_out {p : Nat} (h : ∀ b ∈ (s.lk p).buffer, b.out = true) : s.flush p = s := by
  have hnew : ((s.lk p).buffer.filter fun b => !b.out) = [] := List.filter_eq_nil_iff.mpr fun b hb => by simp [h b hb]
  unfold flush
  simp [hnew]

theorem flush_of_buffer_nil {p : Nat} (h : (s.lk p).buffer = []) : s.flush p = s :=
  flush_of_all_out s (by simp [h])

/-! ## Training starts, and a link goes down (R256, R265, R270) -/

/-- The masks of a link and its LOCKED are cleared. -/
def noMasks (s : State) (p : Nat) : State :=
  s.setReg (R.LNK_WIDTH p) (putAll (s.reg (R.LNK_WIDTH p)) [(F.LNK_WIDTH_RXMASK, 0), (F.LNK_WIDTH_TXMASK, 0), (F.LNK_WIDTH_LOCKED, 0)])

theorem noMasks_shows (p : Nat) : (s.noMasks p).rxMask p = 0 ∧ (s.noMasks p).txMask p = 0 ∧ (s.noMasks p).lockedMask p = 0 := by
  have hread : ∀ f, (s.noMasks p).rd (R.LNK_WIDTH p) f = fget (fput (fput (fput (s.reg (R.LNK_WIDTH p)) F.LNK_WIDTH_RXMASK 0)
      F.LNK_WIDTH_TXMASK 0) F.LNK_WIDTH_LOCKED 0) f := fun f => by
    rw [rd, noMasks, reg_setReg, if_pos rfl]
    rfl
  refine ⟨(hread _).trans ?_, (hread _).trans ?_, (hread _).trans ?_⟩
  · rw [fget_fput_apart _ _ _ _ rfl rfl, fget_fput_apart _ _ _ _ rfl rfl, fget_fput_same _ _ _ rfl]
    rfl
  · rw [fget_fput_apart _ _ _ _ rfl rfl, fget_fput_same _ _ _ rfl]
    rfl
  · rw [fget_fput_same _ _ _ rfl]
    rfl

/-- The link starts afresh with its retry buffer dropped (R256), and waits for no SET. -/
def startAfresh (s : State) (p : Nat) : State :=
  ((s.dropBuffer p).updLk p LinkState.fresh).updLk p fun l => { l with waitSet := false }

theorem lk_startAfresh (p : Nat) :
    (s.startAfresh p).lk p = { LinkState.fresh { s.lk p with buffer := [] } with waitSet := false } := by
  rw [startAfresh, lk_updLk_updLk, dropBuffer, lk_updLk_same]
  rfl

theorem rd_startAfresh (p a : Nat) (f : Fld) : (s.startAfresh p).rd a f =
    (s.add (R.LNK_RETRY p) F.LNK_RETRY_DROPPED (s.lk p).buffer.length).rd a f := by
  rw [startAfresh, rd_updLk, rd_updLk, dropBuffer, rd_updLk]

theorem startAfresh_regs (p : Nat) : s.sameRegsBut [R.LNK_RETRY p] (s.startAfresh p) := by
  have hdrop : s.sameRegsBut [R.LNK_RETRY p] (s.dropBuffer p) := ((sameRegsBut.refl _ s).add (by simp) _ _).of_regs (updLk_regs ..)
  exact (hdrop.of_regs (updLk_regs ..)).of_regs (updLk_regs ..)

theorem startAfresh_emits (p : Nat) : Emits [] s (s.startAfresh p) := ((((Emits.refl s).add ..).updLk ..).updLk ..).updLk ..

/-- NODOZE and the BUSY of the trims are cleared (R264, R267). -/
def clearNodozeBusy (s : State) (p : Nat) : State :=
  (s.wr (R.LNK_STATUS p) F.LNK_STATUS_NODOZE 0).wr (R.LNK_TRIM p) F.LNK_TRIM_BUSY 0

theorem lnkState_clearNodozeBusy (p : Nat) : (s.clearNodozeBusy p).lnkState p = s.lnkState p :=
  (rd_wr_other _ (by simp [R.LNK_STATUS, R.LNK_TRIM]) _ _ _).trans (rd_wr_apart _ _ rfl rfl _)

theorem clearNodozeBusy_regs (p : Nat) : s.sameRegsBut [R.LNK_STATUS p, R.LNK_TRIM p] (s.clearNodozeBusy p) :=
  ((sameRegsBut.refl _ s).wr (by simp) _ _).wr (by simp) _ _

theorem rd_clearNodozeBusy_width (p : Nat) (f : Fld) : (s.clearNodozeBusy p).rd (R.LNK_WIDTH p) f = s.rd (R.LNK_WIDTH p) f :=
  (s.clearNodozeBusy_regs p).rd (by simp [R.LNK_WIDTH, R.LNK_STATUS, R.LNK_TRIM]) f

/-- PHYRST is asserted for 1 µs and training is shown (R265). -/
def pulsePhyrst (s : State) (p : Nat) : State :=
  let t := ((s.send (.lane p "PHYRST" [1])).send (.lane p "PHYRST" [0])).setLnk p 1
  { t with ao := { t.ao with phyReset := t.ao.phyReset &&& ~~~(BitVec.ofNat 32 (2 ^ p)) } }

theorem reg_pulsePhyrst (p a : Nat) : (s.pulsePhyrst p).reg a = (s.setLnk p 1).reg a :=
  reg_congr (t := s.pulsePhyrst p) (s := s.setLnk p 1) rfl a

theorem pulsePhyrst_regs (p : Nat) : s.sameRegsBut [R.LNK_STATUS p] (s.pulsePhyrst p) :=
  sameRegsBut.of_regs (t := s.setLnk p 1) ((sameRegsBut.refl _ s).wr (by simp) _ _) rfl

theorem pulsePhyrst_emits (p : Nat) : Emits [.lane p "PHYRST" [1], .lane p "PHYRST" [0]] s (s.pulsePhyrst p) :=
  ⟨rfl, by simp [pulsePhyrst, setLnk, send]⟩

/-- A training that starts (R265). -/
def startTraining (s : State) (p : Nat) : State := (((s.startAfresh p).pulsePhyrst p).noMasks p).clearNodozeBusy p

theorem train_of_enabled {p : Nat} (hen : s.on (R.LNK_CTL p) F.LNK_CTL_EN = true) (hset : s.on R.RTR_SELF F.RTR_SELF_SET = true) :
    s.train p = s.startTraining p := by
  unfold train
  rw [if_neg (by simp [hen]), if_neg (by simp [hset])]
  rfl

theorem train_of_not_set {p : Nat} (hen : s.on (R.LNK_CTL p) F.LNK_CTL_EN = true) (hset : s.on R.RTR_SELF F.RTR_SELF_SET = false) :
    s.train p = s.updLk p fun l => { l with waitSet := true } := by
  unfold train
  rw [if_neg (by simp [hen]), if_pos (by simp [hset])]

theorem lk_startTraining (p : Nat) :
    (s.startTraining p).lk p = { LinkState.fresh { s.lk p with buffer := [] } with waitSet := false } := by
  have hpulse : ∀ t : State, (t.pulsePhyrst p).lk p = t.lk p := fun t => lk_congr (t := t.pulsePhyrst p) rfl p
  rw [startTraining, clearNodozeBusy, lk_wr, lk_wr, noMasks, lk_setReg, hpulse, lk_startAfresh]

theorem lnkState_startTraining (p : Nat) : (s.startTraining p).lnkState p = 1 := by
  refine (lnkState_clearNodozeBusy _ p).trans ?_
  refine (rd_setReg_other (by simp [R.LNK_STATUS, R.LNK_WIDTH]) _ _).trans ?_
  rw [rd, reg_pulsePhyrst]
  exact rd_wr_same _ _ rfl 1

theorem startTraining_masks (p : Nat) :
    (s.startTraining p).rxMask p = 0 ∧ (s.startTraining p).txMask p = 0 ∧ (s.startTraining p).lockedMask p = 0 := by
  simp only [startTraining, rxMask, txMask, lockedMask, rd_clearNodozeBusy_width]
  exact noMasks_shows _ p

theorem startTraining_regs (p : Nat) :
    s.sameRegsBut [R.LNK_STATUS p, R.LNK_WIDTH p, R.LNK_RETRY p, R.LNK_TRIM p] (s.startTraining p) := by
  refine sameRegsBut.trans (sameRegsBut.setReg ?_ (by simp) _) ((clearNodozeBusy_regs _ p).mono (by simp))
  exact ((startAfresh_regs s p).mono (by simp)).trans ((pulsePhyrst_regs _ p).mono (by simp))

theorem rd_startTraining_dropped (p : Nat) : (s.startTraining p).rd (R.LNK_RETRY p) F.LNK_RETRY_DROPPED =
    min (s.rd (R.LNK_RETRY p) F.LNK_RETRY_DROPPED + (s.lk p).buffer.length) (2 ^ F.LNK_RETRY_DROPPED.width - 1) := by
  refine ((clearNodozeBusy_regs _ p).rd (by simp [R.LNK_RETRY, R.LNK_STATUS, R.LNK_TRIM]) _).trans ?_
  refine (rd_setReg_other (by simp [R.LNK_RETRY, R.LNK_WIDTH]) _ _).trans ?_
  rw [(pulsePhyrst_regs _ p).rd (by simp [R.LNK_RETRY, R.LNK_STATUS]), rd_startAfresh, rd_add_same _ _ rfl]

theorem startTraining_emits (p : Nat) : Emits [.lane p "PHYRST" [1], .lane p "PHYRST" [0]] s (s.startTraining p) := by
  have hpulse := (startAfresh_emits s p).trans (pulsePhyrst_emits _ p)
  exact ((hpulse.setReg ..).wr ..).wr ..

/-- A link that is taken down (R256, R270). -/
def takenDown (s : State) (p : Nat) : State :=
  (((((s.wr (R.LNK_CTL p) F.LNK_CTL_EN 0).startAfresh p).send (.lane p "TXIDLE" [1])).noMasks p).setLnk p 0).clearNodozeBusy p

theorem linkDown_of_enabled {p : Nat} (hen : s.on (R.LNK_CTL p) F.LNK_CTL_EN = true) : s.linkDown p = s.takenDown p := by
  unfold linkDown
  rw [if_neg (by simp [hen])]
  rfl

theorem lk_takenDown (p : Nat) :
    (s.takenDown p).lk p = { LinkState.fresh { s.lk p with buffer := [] } with waitSet := false } := by
  rw [takenDown, clearNodozeBusy, lk_wr, lk_wr, setLnk, lk_wr, noMasks, lk_setReg, lk_send, lk_startAfresh, lk_wr]

theorem takenDown_shows (p : Nat) : (s.takenDown p).lnkState p = 0 ∧ (s.takenDown p).on (R.LNK_CTL p) F.LNK_CTL_EN = false ∧
    (s.takenDown p).rxMask p = 0 ∧ (s.takenDown p).txMask p = 0 ∧ (s.takenDown p).lockedMask p = 0 := by
  have hwidth : ∀ (t : State) f, (t.setLnk p 0).rd (R.LNK_WIDTH p) f = t.rd (R.LNK_WIDTH p) f := fun t f =>
    rd_wr_other _ (by simp [R.LNK_WIDTH, R.LNK_STATUS]) _ _ _
  refine ⟨(lnkState_clearNodozeBusy _ p).trans (rd_wr_same _ _ rfl 0), ?_, ?_⟩
  · have hzero : (s.takenDown p).rd (R.LNK_CTL p) F.LNK_CTL_EN = 0 := by
      refine ((clearNodozeBusy_regs _ p).rd (by simp [R.LNK_CTL, R.LNK_STATUS, R.LNK_TRIM]) _).trans ?_
      refine (rd_wr_other _ (by simp [R.LNK_CTL, R.LNK_STATUS]) _ _ _).trans ?_
      refine (rd_setReg_other (by simp [R.LNK_CTL, R.LNK_WIDTH]) _ _).trans ?_
      rw [rd_send, (startAfresh_regs _ p).rd (by simp [R.LNK_CTL, R.LNK_RETRY]), rd_wr_same _ _ rfl]
      rfl
    rw [on, hzero]
    rfl
  · simp only [takenDown, rxMask, txMask, lockedMask, rd_clearNodozeBusy_width, hwidth]
    exact noMasks_shows _ p

theorem takenDown_regs (p : Nat) :
    s.sameRegsBut [R.LNK_CTL p, R.LNK_STATUS p, R.LNK_WIDTH p, R.LNK_RETRY p, R.LNK_TRIM p] (s.takenDown p) := by
  refine sameRegsBut.trans ?_ ((clearNodozeBusy_regs _ p).mono (by simp))
  refine sameRegsBut.wr (sameRegsBut.setReg (sameRegsBut.of_regs ?_ (send_regs ..)) (by simp) _) (by simp) _ _
  exact ((sameRegsBut.refl _ s).wr (by simp) _ _).trans ((startAfresh_regs _ p).mono (by simp))

theorem takenDown_emits (p : Nat) : Emits [.lane p "TXIDLE" [1]] s (s.takenDown p) :=
  ((((((((Emits.refl s).wr ..).trans (startAfresh_emits _ p)).send _).setReg ..).wr ..).wr ..).wr ..)

end State
end Sys2Proof.Machine
end

section
/-! PROOF. The rows LINK_ENABLE, LINK_DOWN, RETRAIN, TRAINING_TIMEOUT, TRAINING_RETRY, UNLOCK_TIMEOUT, TRAIN and TRIM_DONE in training
(R256, R265, R270, R274). -/
namespace Sys2Proof.Machine

/-! ## Training starts or waits, and a link goes down -/

/-- The commands that make an enabled link train (R265, R270). -/
def startsTraining (s : State) (p : LinkId) (c : Instr) : Prop :=
  (c = .retrain p ∧ (s.lk p.val).waitSet = false) ∨ (c = .trainingRetry p ∧ s.lnkState p.val = 5) ∨
    (c = .unlockTimeout p ∧ s.lnkState p.val = 2 ∧ s.lockedMask p.val = 0 ∧ (s.lk p.val).doze = 0)

/-- The commands that make a link train: EN of one that is not held, or a command on an enabled one. -/
def trains (s : State) (p : LinkId) (c : Instr) : Prop :=
  (c = .linkEnable p ∧ s.on (R.LNK_CTL p.val) F.LNK_CTL_EN = false ∧ s.linkHeld p.val = false) ∨
    (s.on (R.LNK_CTL p.val) F.LNK_CTL_EN = true ∧ startsTraining s p c)

theorem mayStore_trains {s : State} {p : LinkId} {c : Instr} (hc : trains s p c) : (mayStore c || startsClearing c) = false := by
  rcases hc with ⟨rfl, -⟩ | ⟨-, ⟨rfl, -⟩ | ⟨rfl, -⟩ | ⟨rfl, -⟩⟩ <;> rfl

namespace State

/-- Training of a link has started between two states (R256, R265): what the link shows, what was sent and which registers changed. -/
structure TrainingStarted (s t : State) (p : Nat) : Prop where
  state : t.lnkState p = 1
  enabled : t.on (R.LNK_CTL p) F.LNK_CTL_EN = true
  rxMask : t.rxMask p = 0
  txMask : t.txMask p = 0
  lockedMask : t.lockedMask p = 0
  buffer : (t.lk p).buffer = []
  txSeq : (t.lk p).txSeq = 0
  accepted : (t.lk p).accepted = false
  dropped : t.rd (R.LNK_RETRY p) F.LNK_RETRY_DROPPED =
    min (s.rd (R.LNK_RETRY p) F.LNK_RETRY_DROPPED + (s.lk p).buffer.length) (2 ^ F.LNK_RETRY_DROPPED.width - 1)
  sent : t.sent = s.sent ++ [.lane p "PHYRST" [1], .lane p "PHYRST" [0]]
  regs : s.sameRegsBut [R.LNK_CTL p, R.LNK_STATUS p, R.LNK_WIDTH p, R.LNK_RETRY p, R.LNK_TRIM p] t

theorem trainingStarted_startTraining {s : State} {p : Nat} (hen : s.on (R.LNK_CTL p) F.LNK_CTL_EN = true) :
    TrainingStarted s (s.startTraining p) p := by
  obtain ⟨hrx, htx, hlocked⟩ := s.startTraining_masks p
  have hlk := s.lk_startTraining p
  have hregs := s.startTraining_regs p
  have hctl := hregs.rd (a := R.LNK_CTL p) (by simp [R.LNK_CTL, R.LNK_STATUS, R.LNK_WIDTH, R.LNK_RETRY, R.LNK_TRIM]) F.LNK_CTL_EN
  exact ⟨s.lnkState_startTraining p, (on_congr hctl).trans hen, hrx, htx, hlocked, by rw [hlk]; rfl, by rw [hlk]; rfl, by rw [hlk]; rfl,
    s.rd_startTraining_dropped p, (s.startTraining_emits p).sent, hregs.mono (by simp)⟩

/-- A change of LNK_CTL before the training starts does not show in the rest. -/
theorem TrainingStarted.of_wr_ctl {s t : State} {p : Nat} {f : Fld} {n : Nat} (h : TrainingStarted (s.wr (R.LNK_CTL p) f n) t p) :
    TrainingStarted s t p := by
  have hne : R.LNK_RETRY p ≠ R.LNK_CTL p := by simp [R.LNK_RETRY, R.LNK_CTL]
  have hdropped := h.dropped
  rw [rd_wr_other _ hne, lk_wr] at hdropped
  exact { h with dropped := hdropped, sent := h.sent, regs := ((sameRegsBut.refl _ s).wr (by simp) _ _).trans h.regs }

theorem TrainingStarted.throttle {s t : State} {p : Nat} (h : TrainingStarted s t p) : TrainingStarted s t.throttle p where
  state := (lnkState_throttle ..).trans h.state
  enabled := (on_throttle ..).trans h.enabled
  rxMask := (rxMask_throttle ..).trans h.rxMask
  txMask := (txMask_throttle ..).trans h.txMask
  lockedMask := (lockedMask_throttle ..).trans h.lockedMask
  buffer := (congrArg LinkState.buffer (lk_throttle ..)).trans h.buffer
  txSeq := (congrArg LinkState.txSeq (lk_throttle ..)).trans h.txSeq
  accepted := (congrArg LinkState.accepted (lk_throttle ..)).trans h.accepted
  dropped := (rd_throttle ..).trans h.dropped
  sent := h.sent
  regs := h.regs.throttle

end State

section Rows
variable {s : State} {p : LinkId} (h : s.up)
include h

/-- EN of a link that is not held makes it train (R265, R413). -/
theorem exec_linkEnable (hoff : s.on (R.LNK_CTL p.val) F.LNK_CTL_EN = false) (hheld : s.linkHeld p.val = false) :
    exec (.linkEnable p) s = .next ((s.wr (R.LNK_CTL p.val) F.LNK_CTL_EN 1).train p.val) := by
  have hexec : exec (.linkEnable p) s = .next (s.linkEnable p.val) := congrArg Host.Outcome.next (State.inMain_of_up h _)
  rw [hexec, State.linkEnable, if_neg (by simp [hoff, hheld])]

theorem exec_linkDown (hen : s.on (R.LNK_CTL p.val) F.LNK_CTL_EN = true) (hw : s.router.waiting = []) :
    exec (.linkDown p) s = .next (s.takenDown p.val).throttle := by
  have hexec : exec (.linkDown p) s = .next (s.linkDown p.val).pump := congrArg Host.Outcome.next (State.inMain_of_up h _)
  rw [hexec, State.linkDown_of_enabled s hen, (s.takenDown_emits p.val).pump hw]

/-- An enabled link trains when SET names its node: at once, or once the frames that wait have been tried. -/
theorem exec_startsTraining {c : Instr} (hc : startsTraining s p c) (hen : s.on (R.LNK_CTL p.val) F.LNK_CTL_EN = true)
    (hset : s.on R.RTR_SELF F.RTR_SELF_SET = true) (hw : s.router.waiting = []) :
    ∃ t, exec c s = .next t ∧ (t = s.startTraining p.val ∨ t = (s.startTraining p.val).throttle) := by
  have htrain := s.train_of_enabled hen hset
  have hpump : (s.train p.val).pump = (s.startTraining p.val).throttle := by rw [htrain, (s.startTraining_emits p.val).pump hw]
  rcases hc with ⟨rfl, hwait⟩ | ⟨rfl, hstate⟩ | ⟨rfl, hstate, hlocked, hdoze⟩
  · have hexec : exec (.retrain p) s = .next _ := congrArg Host.Outcome.next (State.inMain_of_up h _)
    exact ⟨_, hexec, .inr (by rw [if_neg (by simp [hwait]), hpump])⟩
  · have hexec : exec (.trainingRetry p) s = .next _ := congrArg Host.Outcome.next (State.inMain_of_up h _)
    exact ⟨_, hexec, .inl (by rw [if_pos hstate, htrain])⟩
  · have hexec : exec (.unlockTimeout p) s = .next _ := congrArg Host.Outcome.next (State.inMain_of_up h _)
    exact ⟨_, hexec, .inr (by rw [if_pos (by simp [hstate, hlocked, hdoze]), hpump])⟩

theorem exec_trainingTimeout (hstate : s.lnkState p.val = 1) :
    exec (.trainingTimeout p) s = .next (s.trainFailed p.val) := by
  have hexec : exec (.trainingTimeout p) s = .next _ := congrArg Host.Outcome.next (State.inMain_of_up h _)
  rw [hexec, if_pos hstate]

theorem exec_train (pn po v st ec now : Nat) (l : Byte) :
    exec (.train p pn po v l st ec now) s = .next (s.trainRow p.val pn po v l.toNat st ec now) :=
  congrArg Host.Outcome.next (State.inMain_of_up h _)

end Rows

namespace State

/-- The register of EN reads 1 once it is written. -/
theorem on_wr_en (s : State) (p : Nat) : (s.wr (R.LNK_CTL p) F.LNK_CTL_EN 1).on (R.LNK_CTL p) F.LNK_CTL_EN = true := by
  rw [on, rd_wr_same _ _ rfl]
  rfl

theorem on_set_wr_en (s : State) {p : Nat} (hp : p < 32) :
    (s.wr (R.LNK_CTL p) F.LNK_CTL_EN 1).on R.RTR_SELF F.RTR_SELF_SET = s.on R.RTR_SELF F.RTR_SELF_SET := by
  have hself : R.RTR_SELF ≠ R.LNK_CTL p := by
    unfold R.RTR_SELF R.LNK_CTL
    omega
  exact on_congr (rd_wr_other s hself _ _ 1)

end State

/-- LINK_ENABLE or a command that starts training makes a link of a named node train. -/
theorem exec_trains {s : State} {p : LinkId} {c : Instr} (h : s.up) (hset : s.on R.RTR_SELF F.RTR_SELF_SET = true)
    (hw : s.router.waiting = []) (hc : trains s p c) : ∃ t, exec c s = .next t ∧ State.TrainingStarted s t p.val := by
  rcases hc with ⟨rfl, hoff, hheld⟩ | ⟨hen, hc⟩
  · refine ⟨_, exec_linkEnable h hoff hheld, State.TrainingStarted.of_wr_ctl (f := F.LNK_CTL_EN) (n := 1) ?_⟩
    rw [State.train_of_enabled _ (s.on_wr_en p.val) ((s.on_set_wr_en p.isLt).trans hset)]
    exact State.trainingStarted_startTraining (s.on_wr_en p.val)
  · obtain ⟨t, hexec, rfl | rfl⟩ := exec_startsTraining h hc hen hset hw
    · exact ⟨_, hexec, State.trainingStarted_startTraining hen⟩
    · exact ⟨_, hexec, (State.trainingStarted_startTraining hen).throttle⟩

namespace State
variable {s : State} {p : Nat}

/-! ## A training attempt fails -/

theorem trainFailed_shows (hp : p < 32) :
    (s.trainFailed p).lnkState p = 5 ∧
      (s.trainFailed p).rd (R.LNK_STATUS p) F.LNK_STATUS_FAILS =
        min (s.rd (R.LNK_STATUS p) F.LNK_STATUS_FAILS + 1) (2 ^ F.LNK_STATUS_FAILS.width - 1) ∧
      s.sameRegsBut [R.LNK_STATUS p, R.EVR_LOST] (s.trainFailed p) ∧
      (s.trainFailed p).sent = s.sent ++ [.lane p "RETRY" [min 1000 (20 * 2 ^ (s.lk p).fails)]] := by
  have hlost := lnkStatus_ne_lost hp
  unfold trainFailed lnkRecord
  refine ⟨?_, ?_, sameRegsBut.of_regs (sameRegsBut.record ?_ (by simp) _) (send_regs ..), ?_⟩
  · rw [lnkState, rd_send, rd_record _ _ hlost]
    exact rd_wr_same _ _ rfl 5
  · rw [rd_send, rd_record _ _ hlost, setLnk, rd_wr_apart _ _ rfl rfl, rd_inc_same _ _ rfl, rd_updLk]
  · exact (((sameRegsBut.refl _ s).of_regs (updLk_regs ..)).inc (by simp) _).wr (by simp) _ _
  · exact (((((Emits.refl s).updLk ..).inc ..).wr ..).record _).send _ |>.sent

/-! ## TRAIN (R265) -/

/-- What a TRAIN of version 1 tells of the partner, and the TRAIN that answers it. -/
def takePeer (s : State) (p pn po l st now : Nat) : State :=
  ((((s.ctl p).wr (R.LNK_PEER p) F.LNK_PEER_PNID pn).wr (R.LNK_PEER p) F.LNK_PEER_PORT po).updLk p fun x =>
    { x with peerStamp := st, peerMask := l }).sendTrain p now

theorem takePeer_shows (pn po l st now : Nat) (hpn : pn < 2 ^ 16) (hpo : po < 2 ^ F.LNK_PEER_PORT.width) :
    (s.takePeer p pn po l st now).peer p = pn ∧ (s.takePeer p pn po l st now).rd (R.LNK_PEER p) F.LNK_PEER_PORT = po := by
  unfold takePeer sendTrain control peer
  simp only [rd_send, rd_updLk]
  exact ⟨((rd_wr_apart _ _ rfl rfl _).trans (rd_wr_same _ _ rfl pn)).trans (Nat.mod_eq_of_lt hpn),
    (rd_wr_same _ _ rfl po).trans (Nat.mod_eq_of_lt hpo)⟩

theorem takePeer_regs (pn po l st now : Nat) : s.sameRegsBut [R.LNK_PEER p] (s.takePeer p pn po l st now) := by
  refine sameRegsBut.of_regs (sameRegsBut.of_regs (sameRegsBut.wr (sameRegsBut.wr ?_ ?_ _ _) ?_ _ _) (updLk_regs ..)) (send_regs ..)
  · exact (sameRegsBut.refl _ s).of_regs (updLk_regs ..)
  all_goals exact List.mem_singleton_self _

theorem lk_takePeer (pn po l st now : Nat) :
    (s.takePeer p pn po l st now).lk p = { s.lk p with resync := false, peerStamp := st, peerMask := l } := by
  rw [takePeer, sendTrain, control, lk_send, lk_updLk_same, lk_wr, lk_wr, ctl, lk_updLk_same]

/-- The registers that TRAIN tells of are this node's PNID and the link's LOCKED. -/
theorem takePeer_emits (hp : p < 32) (pn po l st now : Nat) :
    Emits [.control p 0x09 [s.pnid, p, 1, s.lockedMask p, now, st]] s (s.takePeer p pn po l st now) := by
  have hself : R.RTR_SELF ≠ R.LNK_PEER p := by
    unfold R.RTR_SELF R.LNK_PEER
    omega
  have hwidth : R.LNK_WIDTH p ≠ R.LNK_PEER p := by simp [R.LNK_WIDTH, R.LNK_PEER]
  have hout := ((((Emits.refl s).updLk p fun l => { l with resync := false }).wr (R.LNK_PEER p) F.LNK_PEER_PNID pn).wr
    (R.LNK_PEER p) F.LNK_PEER_PORT po).updLk p fun x => { x with peerStamp := st, peerMask := l }
  unfold takePeer sendTrain control
  simp only [pnid, lockedMask, rd_updLk, rd_wr_other _ hself, rd_wr_other _ hwidth, lk_updLk_same, ctl]
  exact hout.send _

theorem trainRow_version {pn po v l st ec now : Nat} (hstate : s.lnkState p = 1) (hstep : (s.lk p).trimStep = 0) (hv : v ≠ 1) :
    s.trainRow p pn po v l st ec now =
      (s.ctl p).record (((ev Sev.fault Src.lnk p).field (R.LNK_PEER p) F.LNK_PEER_VALID).about pn) := by
  unfold trainRow
  rw [if_neg, if_pos hv]
  simp [ctl, lnkState, hstep, show s.rd (R.LNK_STATUS p) F.LNK_STATUS_STATE = 1 from hstate]

theorem trainRow_first {pn po l st now : Nat} (hstate : s.lnkState p = 1) (hstep : (s.lk p).trimStep = 0) :
    s.trainRow p pn po 1 l st 0 now = s.takePeer p pn po l st now := by
  unfold trainRow
  rw [if_neg]
  · rfl
  · simp [ctl, lnkState, hstep, show s.rd (R.LNK_STATUS p) F.LNK_STATUS_STATE = 1 from hstate]

/-- The round trip that a TRAIN with a timestamp tells (R265). -/
def takeRtt (s : State) (p rtt : Nat) : State :=
  let t := s.wr (R.LNK_PEER p) F.LNK_PEER_RTT (min rtt 0xFFFF)
  if 2610 < rtt then t.lnkRecord Sev.warn p (R.LNK_PEER p) F.LNK_PEER_RTT else t

theorem takeRtt_shows (hp : p < 32) (rtt : Nat) : (s.takeRtt p rtt).rd (R.LNK_PEER p) F.LNK_PEER_RTT = min rtt 0xFFFF := by
  have hrtt : (s.wr (R.LNK_PEER p) F.LNK_PEER_RTT (min rtt 0xFFFF)).rd (R.LNK_PEER p) F.LNK_PEER_RTT = min rtt 0xFFFF :=
    (rd_wr_same _ _ rfl _).trans (Nat.mod_eq_of_lt (Nat.lt_of_le_of_lt (Nat.min_le_right ..) (by decide)))
  unfold takeRtt lnkRecord
  split
  · rw [rd_record _ _ (lnkPeer_ne_lost hp), hrtt]
  · exact hrtt

theorem takeRtt_regs (rtt : Nat) : s.sameRegsBut [R.LNK_PEER p, R.EVR_LOST] (s.takeRtt p rtt) := by
  unfold takeRtt
  split
  · exact ((sameRegsBut.refl _ s).wr (by simp) _ _).record (by simp) _
  · exact (sameRegsBut.refl _ s).wr (by simp) _ _

theorem lk_takeRtt (rtt x : Nat) : (s.takeRtt p rtt).lk x = s.lk x := by
  unfold takeRtt lnkRecord
  split
  · rw [lk_record, lk_wr]
  · rw [lk_wr]

/-- The masks of both directions are taken, and the first lane of the receiver is trimmed (R265). -/
def useMasks (s : State) (p rx tx i : Nat) : State :=
  (((s.wr (R.LNK_WIDTH p) F.LNK_WIDTH_RXMASK rx).wr (R.LNK_WIDTH p) F.LNK_WIDTH_TXMASK tx).updLk p fun l =>
    { l with trimQueue := lanesOfMask rx }).trimLane p i

theorem useMasks_shows {rx tx : Nat} (hrx : rx < 2 ^ 8) (htx : tx < 2 ^ 8) (i : Nat) :
    (s.useMasks p rx tx i).rxMask p = rx ∧ (s.useMasks p rx tx i).txMask p = tx := by
  unfold useMasks trimLane rxMask txMask
  simp only [rd_updLk, rd_send]
  exact ⟨((rd_wr_apart _ _ rfl rfl _).trans (rd_wr_same _ _ rfl rx)).trans (Nat.mod_eq_of_lt hrx),
    (rd_wr_same _ _ rfl tx).trans (Nat.mod_eq_of_lt htx)⟩

theorem useMasks_regs (rx tx i : Nat) : s.sameRegsBut [R.LNK_WIDTH p] (s.useMasks p rx tx i) := by
  refine sameRegsBut.of_regs (sameRegsBut.of_regs (sameRegsBut.of_regs ?_ (updLk_regs ..)) (send_regs ..)) (updLk_regs ..)
  exact ((sameRegsBut.refl _ s).wr (by simp) _ _).wr (by simp) _ _

theorem lk_useMasks (rx tx i : Nat) :
    (s.useMasks p rx tx i).lk p = { s.lk p with trimQueue := lanesOfMask rx, trimStep := 2 } := by
  rw [useMasks, trimLane, lk_updLk_same, lk_send, lk_updLk_same, lk_wr, lk_wr]

theorem mem_sent_useMasks (rx tx i : Nat) : .lane p "TRIMREQ" [i] ∈ (s.useMasks p rx tx i).sent :=
  List.mem_append_right _ (List.mem_singleton_self _)

/-- A TRAIN with a timestamp, once lanes are locked and offered in both directions, takes the round trip and the masks (R265). -/
theorem trainRow_complete {pn po l st ec now rx i : Nat} {r : List Nat} (hstate : s.lnkState p = 1) (hstep : (s.lk p).trimStep = 0)
    (hec : ec ≠ 0) (hrx : rx = meet (s.lockedMask p) (s.laneMask p)) (hlanes : lanesOfMask rx = i :: r)
    (htx : meet l (s.laneMask p) ≠ 0) : s.trainRow p pn po 1 l st ec now =
      ((s.takePeer p pn po l st now).takeRtt p ((now - ec) / 2)).useMasks p rx (meet l (s.laneMask p)) i := by
  have hlane : (s.ctl p).laneMask p = s.laneMask p := rd_updLk ..
  have hlocked : (s.ctl p).lockedMask p = s.lockedMask p := rd_updLk ..
  have hnone := ne_zero_of_lanesOfMask hlanes
  unfold trainRow
  rw [if_neg, if_neg (by simp)]
  · simp only [hlane, hlocked, ← hrx]
    rw [if_neg (by simp [hec, hnone, htx]), hlanes]
    simp only [useMasks, hlanes]
    rfl
  · simp [ctl, lnkState, hstep, show s.rd (R.LNK_STATUS p) F.LNK_STATUS_STATE = 1 from hstate]

/-- What such a TRAIN leaves: the masks, the round trip, the trims to come, and the link still in training. -/
theorem useMasks_takeRtt_shows (hp : p < 32) {rx tx : Nat} (hrx : rx < 2 ^ 8) (htx : tx < 2 ^ 8) (rtt i : Nat) :
    let t := (s.takeRtt p rtt).useMasks p rx tx i
    t.rxMask p = rx ∧ t.txMask p = tx ∧ t.rd (R.LNK_PEER p) F.LNK_PEER_RTT = min rtt 0xFFFF ∧
      t.lk p = { s.lk p with trimQueue := lanesOfMask rx, trimStep := 2 } ∧ t.lnkState p = s.lnkState p := by
  have hlost := lnkStatus_ne_lost hp
  have hpeer : R.LNK_STATUS p ≠ R.LNK_PEER p := by simp [R.LNK_STATUS, R.LNK_PEER]
  have hmasks := useMasks_regs (s := s.takeRtt p rtt) (p := p) rx tx i
  obtain ⟨hr, ht⟩ := useMasks_shows (s := s.takeRtt p rtt) (p := p) hrx htx i
  refine ⟨hr, ht, ?_, by rw [lk_useMasks, lk_takeRtt], ?_⟩
  · rw [hmasks.rd (by simp [R.LNK_PEER, R.LNK_WIDTH]), takeRtt_shows hp]
  · rw [lnkState, hmasks.rd (by simp [R.LNK_STATUS, R.LNK_WIDTH]),
      (takeRtt_regs rtt).rd (List.not_mem_cons_of_ne_of_not_mem hpeer (by simp [hlost]))]
    rfl

/-! ## The link becomes active (R265) -/

theorem trained_shows (hbuf : (s.lk p).buffer = []) :
    (s.trained p).lnkState p = 2 ∧ (s.trained p).rd (R.LNK_PEER p) F.LNK_PEER_VALID = 1 ∧ ((s.trained p).lk p).trimStep = 0 ∧
      ((s.trained p).lk p).fails = 0 ∧ s.sameRegsBut [R.LNK_STATUS p, R.LNK_PEER p, R.LNK_TRIM p] (s.trained p) ∧
      Emits [] s (s.trained p) := by
  have hpeer : R.LNK_STATUS p ≠ R.LNK_PEER p := by simp [R.LNK_STATUS, R.LNK_PEER]
  have htrim : R.LNK_STATUS p ≠ R.LNK_TRIM p ∧ R.LNK_PEER p ≠ R.LNK_TRIM p := by simp [R.LNK_STATUS, R.LNK_PEER, R.LNK_TRIM]
  unfold trained
  rw [flush_of_buffer_nil _ (by simp [setLnk, hbuf])]
  refine ⟨?_, ?_, by rw [lk_updLk_same], by rw [lk_updLk_same], ?_, ?_⟩
  · rw [lnkState, rd_updLk, rd_wr_other _ htrim.1, rd_wr_other _ hpeer]
    exact rd_wr_same _ _ rfl 2
  · rw [rd_updLk, rd_wr_other _ htrim.2]
    exact rd_wr_same _ _ rfl 1
  · refine sameRegsBut.of_regs ?_ (updLk_regs ..)
    exact (((sameRegsBut.refl _ s).wr (by simp) _ _).wr (by simp) _ _).wr (by simp) _ _
  · refine Emits.updLk ?_ ..
    exact (((Emits.refl s).wr ..).wr ..).wr ..

end State

theorem exec_trimDone_last {s : State} {p : LinkId} {i : Nat} (h : s.up) (hstate : s.lnkState p.val = 1)
    (hstep : (s.lk p.val).trimStep = 2) (hqueue : (s.lk p.val).trimQueue = [i]) (hw : s.router.waiting = [])
    (hbuf : (s.lk p.val).buffer = []) :
    exec (.trimDone p) s = .next ((s.updLk p.val fun l => { l with trimQueue := l.trimQueue.drop 1 }).trained p.val).throttle := by
  have hexec : exec (.trimDone p) s = .next _ := congrArg Host.Outcome.next (State.inMain_of_up h _)
  obtain ⟨-, -, -, -, -, hemits⟩ := State.trained_shows (s := s.updLk p.val fun l => { l with trimQueue := l.trimQueue.drop 1 })
    (p := p.val) (by rw [State.lk_updLk_same]; exact hbuf)
  rw [hexec, if_neg (by simp [hstep]), if_pos hstate, ← hemits.pump hw]
  simp only [State.lk_updLk_same, hqueue, List.drop_succ_cons, List.drop_nil]

/-- Settles O46: each row by the state that it answers. -/
theorem linkTraining : Obligations.LinkTraining := by
  unfold Obligations.LinkTraining
  refine ⟨fun s p c h hset hw hc => ?_, fun s p h hset hoff hheld => ?_, fun s p h hen hw => ?_, fun s p h hstate => ?_,
    fun s p pn po st now l h hstate hstep hpn hpo => ?_, fun s p pn po st ec now rx i r l h hstate hstep hec hrx hlanes htx => ?_,
    fun s p pn po v st ec now l h hstate hstep hv => ?_, fun s p i h hstate hstep hqueue hw hbuf => ?_⟩
  · obtain ⟨t, hexec, hstarted⟩ := exec_trains h hset hw hc
    obtain ⟨hstate, hen, hrx, htx, hlocked, hbuf, hseq, haccepted, hdropped, hsent, hregs⟩ := hstarted
    have hmem := exec_mem hexec (mayStore_trains hc)
    exact ⟨t, hexec, hstate, hen, hrx, htx, hlocked, hbuf, hseq, haccepted, hdropped, hsent, hregs, hmem⟩
  · have hon : (s.wr (R.LNK_CTL p.val) F.LNK_CTL_EN 1).on (R.LNK_CTL p.val) F.LNK_CTL_EN = true := s.on_wr_en p.val
    have hexec := exec_linkEnable h hoff hheld
    rw [State.train_of_not_set _ hon ((s.on_set_wr_en p.isLt).trans hset)] at hexec
    refine ⟨_, hexec, (State.on_congr (State.rd_updLk ..)).trans hon, by rw [State.lk_updLk_same], ?_, rfl, rfl⟩
    exact ((State.sameRegsBut.refl _ s).wr (by simp) _ _).of_regs (State.updLk_regs ..)
  · have hexec := exec_linkDown h hen hw
    obtain ⟨hstate, hoff, hrx, htx, hlocked⟩ := s.takenDown_shows p.val
    have hlk := (State.lk_throttle _ p.val).trans (s.lk_takenDown p.val)
    exact ⟨_, hexec, (State.lnkState_throttle ..).trans hstate, (State.on_throttle ..).trans hoff, (State.rxMask_throttle ..).trans hrx,
      (State.txMask_throttle ..).trans htx, (State.lockedMask_throttle ..).trans hlocked, congrArg LinkState.buffer hlk,
      congrArg LinkState.waitSet hlk, (s.takenDown_emits p.val).throttle, (s.takenDown_regs p.val).throttle, exec_mem hexec rfl⟩
  · have hexec := exec_trainingTimeout h hstate
    obtain ⟨hfive, hfails, hregs, hsent⟩ := State.trainFailed_shows (s := s) p.isLt
    exact ⟨_, hexec, hfive, hfails, hsent, hregs, exec_mem hexec rfl⟩
  · have hexec := exec_train (p := p) h pn po 1 st 0 now l
    rw [State.trainRow_first hstate hstep] at hexec
    obtain ⟨hpeer, hport⟩ := State.takePeer_shows (s := s) (p := p.val) pn po l.toNat st now hpn hpo
    refine ⟨_, hexec, hpeer, hport, ?_, ?_, (State.takePeer_emits p.isLt ..).sent,
      State.takePeer_regs pn po l.toNat st now, exec_mem hexec rfl⟩
    all_goals rw [State.lk_takePeer]
  · have hexec := exec_train (p := p) h pn po 1 st ec now l
    rw [State.trainRow_complete hstate hstep hec hrx hlanes htx] at hexec
    have hkept := (State.takePeer_regs (s := s) (p := p.val) pn po l.toNat st now).rd (a := R.LNK_STATUS p.val)
      (by simp [R.LNK_STATUS, R.LNK_PEER]) F.LNK_STATUS_STATE
    obtain ⟨hr, ht, hrtt, hlk, hsame⟩ := State.useMasks_takeRtt_shows (s := s.takePeer p.val pn po l.toNat st now) p.isLt
      (rx := rx) (hrx ▸ meet_lt ..) (meet_lt l.toNat (s.laneMask p.val)) ((now - ec) / 2) i
    refine ⟨_, hexec, hr, ht, hrtt, ?_, ?_, State.mem_sent_useMasks .., (hsame.trans hkept).trans hstate, exec_mem hexec rfl⟩
    · rw [hlk]
    · rw [hlk, hlanes]
  · have hexec := exec_train (p := p) h pn po v st ec now l
    rw [State.trainRow_version hstate hstep hv] at hexec
    exact ⟨_, hexec, ((State.sameRegsBut.refl _ s).of_regs (State.updLk_regs ..)).record (by simp) _,
      State.record_sent .., exec_mem hexec rfl⟩
  · have hexec := exec_trimDone_last h hstate hstep hqueue hw hbuf
    obtain ⟨hactive, hvalid, hzero, hfails, hregs, hemits⟩ := State.trained_shows
      (s := s.updLk p.val fun l => { l with trimQueue := l.trimQueue.drop 1 }) (p := p.val) (by rw [State.lk_updLk_same]; exact hbuf)
    refine ⟨_, hexec, (State.lnkState_throttle ..).trans hactive, (State.rd_throttle ..).trans hvalid,
      (congrArg LinkState.trimStep (State.lk_throttle ..)).trans hzero, (congrArg LinkState.fails (State.lk_throttle ..)).trans hfails, ?_,
      hemits.throttle.trans (List.append_nil _), exec_mem hexec rfl⟩
    exact (((State.sameRegsBut.refl _ s).of_regs (State.updLk_regs ..)).trans hregs).throttle

end Sys2Proof.Machine
end

section
/-! PROOF. The rows PERIOD_START, LANE_MARKER, CDR_LOCK_LOSS and UNCORRECTABLE_CODEWORD (R239 to R244, R259, R419). -/
namespace Sys2Proof.Machine

theorem lnkHears_of_state {s : State} {p n : Nat} (h : s.lnkState p = n) (hn : [1, 2, 3, 4].contains n = true) :
    s.lnkHears p = true := by
  rw [State.lnkHears, h, hn]

namespace State
variable {s : State} {p : Nat}

/-! ## Period starts (R239, R259) -/

/-- The period counter advances, and the marker of the new period goes out. -/
def startPeriod (s : State) (p : Nat) : State :=
  (s.send (.lane p "MARKER" [((s.lk p).cntTx + 1) % 2 ^ 16, widthOf (s.txMask p), bit (s.lk p).wakeFirst])).updLk p fun l =>
    { l with cntTx := ((s.lk p).cntTx + 1) % 2 ^ 16, wakeFirst := false }

theorem lk_startPeriod (s : State) (p : Nat) :
    (s.startPeriod p).lk p = { s.lk p with cntTx := ((s.lk p).cntTx + 1) % 2 ^ 16, wakeFirst := false } := by
  rw [startPeriod, lk_updLk_same, lk_send]

theorem startPeriod_emits (s : State) (p : Nat) :
    Emits [.lane p "MARKER" [((s.lk p).cntTx + 1) % 2 ^ 16, widthOf (s.txMask p), bit (s.lk p).wakeFirst]] s (s.startPeriod p) :=
  ((Emits.refl s).send _).updLk ..

theorem startPeriod_regs (s : State) (p : Nat) : (s.startPeriod p).regs = s.regs := (updLk_regs ..).trans (send_regs ..)

/-- A width change takes effect (R259, R260). -/
def newTxMask (s : State) (p m : Nat) : State :=
  ((s.wr (R.LNK_WIDTH p) F.LNK_WIDTH_TXMASK m).widthChanged p).updLk p fun l => { l with reqMask := none }

theorem newTxMask_shows (hp : p < 32) {m : Nat} (hm : m < 256) :
    (s.newTxMask p m).txMask p = m ∧ (s.newTxMask p m).rd (R.LNK_WIDTH p) F.LNK_WIDTH_CHANGES =
      min (s.rd (R.LNK_WIDTH p) F.LNK_WIDTH_CHANGES + 1) (2 ^ F.LNK_WIDTH_CHANGES.width - 1) := by
  have hlost := lnkWidth_ne_lost hp
  unfold newTxMask widthChanged lnkRecord txMask
  simp only [rd_updLk, rd_record _ _ hlost]
  constructor
  · rw [rd_inc_apart _ _ rfl rfl, rd_wr_same _ _ rfl]
    exact Nat.mod_eq_of_lt hm
  · rw [rd_inc_same _ _ rfl, rd_wr_apart _ _ rfl rfl]

theorem lk_newTxMask (m : Nat) : (s.newTxMask p m).lk p = { s.lk p with reqMask := none } := by
  rw [newTxMask, lk_updLk_same, widthChanged, lnkRecord, lk_record, lk_inc, lk_wr]

theorem newTxMask_emits (m : Nat) : Emits [] s (s.newTxMask p m) := ((((Emits.refl s).wr ..).inc ..).record _).updLk ..

theorem newTxMask_regs (m : Nat) : s.sameRegsBut [R.LNK_WIDTH p, R.EVR_LOST] (s.newTxMask p m) :=
  ((((sameRegsBut.refl _ s).wr (by simp) _ _).inc (by simp) _).record (by simp) _).updLk _ _

/-- With nothing to replay and nothing buffered, a period's start ends with the marker. -/
theorem startPeriod_pump {u : State} {out : List Sent} (hout : Emits out s u) (hw : s.router.waiting = [])
    (hbuf : (u.lk p).buffer = []) : ((u.startPeriod p).flush p).pump = (u.startPeriod p).throttle := by
  rw [flush_of_buffer_nil _ (by rw [lk_startPeriod]; exact hbuf), (hout.trans (startPeriod_emits u p)).pump hw]

end State

section Rows
variable {s : State} {p : LinkId} (h : s.up) (hears : s.lnkHears p.val = true) (hdoze : (s.lk p.val).doze = 0)
  (hreplay : (s.lk p.val).replayFrom = none) (hbuf : (s.lk p.val).buffer = []) (hw : s.router.waiting = [])
include h hears hdoze hreplay hbuf hw

theorem exec_periodStart_same (hreq : (s.lk p.val).reqMask = none) :
    exec (.periodStart p) s = .next (s.startPeriod p.val).throttle := by
  have hexec : exec (.periodStart p) s = .next _ := congrArg Host.Outcome.next (State.inMain_of_up h _)
  rw [hexec, if_neg (by simp [hears, hdoze]), ← State.startPeriod_pump (State.Emits.refl s) hw hbuf]
  simp only [hreq, hreplay]
  rfl

theorem exec_periodStart_change {m : Nat} (hreq : (s.lk p.val).reqMask = some m) (hne : m ≠ s.txMask p.val) :
    exec (.periodStart p) s = .next ((s.newTxMask p.val m).startPeriod p.val).throttle := by
  have hexec : exec (.periodStart p) s = .next _ := congrArg Host.Outcome.next (State.inMain_of_up h _)
  have hnew := State.lk_newTxMask (s := s) (p := p.val) m
  rw [hexec, if_neg (by simp [hears, hdoze]), ← State.startPeriod_pump (State.newTxMask_emits m) hw (by rw [hnew]; exact hbuf)]
  have hnone : ((s.newTxMask p.val m).lk p.val).replayFrom = none := by rw [hnew]; exact hreplay
  simp only [hreq, if_neg hne]
  change Host.Outcome.next (match ((s.newTxMask p.val m).lk p.val).replayFrom with
    | some e => _
    | none => _) = _
  rw [hnone]
  rfl

end Rows

namespace State
variable {s : State} {p i : Nat} {m : Marker}

/-! ## Lane markers (R243, R244) -/

theorem laneMarker_of_hunting (h : ((s.lk p).lane i).state = 0) (hlocks : ((s.lk p).lane i).locks m = false) :
    s.laneMarker p i m = s.updLane p i fun x => x.hunt m := by
  unfold laneMarker
  simp only [h, hlocks, Bool.false_eq_true, if_false]

theorem laneMarker_of_locks (h : ((s.lk p).lane i).state = 0) (hlocks : ((s.lk p).lane i).locks m = true) :
    s.laneMarker p i m = (s.updLane p i fun x => x.lockOn m).laneLocked p i := by
  unfold laneMarker
  simp only [h, hlocks, if_true]

/-- The fourth bad marker in a row at the place where one is expected. -/
theorem laneMarker_of_fourth_bad (h : ((s.lk p).lane i).state = 1) (hat : ((s.lk p).lane i).expects m = true)
    (hbad : ((s.lk p).lane i).badMarkers = 3) (hcrc : m.crcOk = false) : s.laneMarker p i m =
      (s.updLane p i fun x =>
        { x with badMarkers := x.badMarkers + 1, pos := m.pos, cnt := (((s.lk p).lane i).cnt + 1) % 2 ^ 16 }).laneUnlocked p i := by
  unfold laneMarker
  simp [h, hat, hbad, hcrc]

theorem updLane_emits (f : LaneState → LaneState) : Emits [] s (s.updLane p i f) := (Emits.refl s).updLane ..

end State

namespace LaneState
variable {x : LaneState} {m : Marker} {d : Candidate}

/-- A marker at the confirmation point of the only candidate is its marker. -/
theorem atPoint_of_single (hcand : x.candidates = [d]) (hpos : m.pos = d.pos + 1392768) :
    x.tracked m = [d] ∧ x.atPoint m = some d := by
  have htracked : x.tracked m = [d] := by simp [tracked, hcand, hpos, lanePeriod]
  exact ⟨htracked, by simp [atPoint, htracked, hpos, lanePeriod]⟩

theorem locks_of_atPoint (h : x.atPoint m = some d) : x.locks m = (d.confirms m && d.hits == 1) := by
  unfold locks
  rw [h]

theorem locks_of_atPoint_none (h : x.atPoint m = none) : x.locks m = false := by
  unfold locks
  rw [h]

theorem hunt_of_atPoint_none (h : x.atPoint m = none) : x.hunt m = { x with
    candidates := (if m.hunts = true ∧ (x.tracked m).length < 8
      then x.tracked m ++ [⟨m.pos, m.lane, m.width, m.cnt, 0⟩] else x.tracked m) } := by
  unfold hunt
  simp only [h, Bool.and_eq_true, decide_eq_true_eq]

/-- The only candidate is confirmed or discarded at its point. -/
theorem hunt_of_single (hcand : x.candidates = [d]) (hpos : m.pos = d.pos + 1392768) (hmay : d.hits = 0 ∨ d.confirms m = false) :
    x.hunt m = { x with
      candidates := (if d.confirms m = true then [⟨m.pos, d.lane, d.width, m.cnt, 1⟩]
        else if m.hunts = true then [⟨m.pos, m.lane, m.width, m.cnt, 0⟩] else []) } := by
  obtain ⟨htracked, hpoint⟩ := atPoint_of_single hcand hpos
  unfold hunt
  simp only [hpoint, htracked]
  by_cases hconfirms : d.confirms m = true
  · have hhits : d.hits = 0 := hmay.resolve_right (by simp [hconfirms])
    simp [hconfirms, hhits]
  · simp [hconfirms]

end LaneState

theorem exec_laneMarker {s : State} {p : LinkId} (h : s.up) (hears : s.lnkHears p.val = true) (i : LaneId) (m : Marker) :
    exec (.laneMarker p i m) s = .next (s.laneMarker p.val i.val m).pump := by
  have hexec : exec (.laneMarker p i m) s = .next _ := congrArg Host.Outcome.next (State.inMain_of_up h _)
  rw [hexec, if_pos hears]

/-- A hunting lane that does not lock hunts on. -/
theorem exec_laneMarker_hunt {s : State} {p : LinkId} {i : LaneId} {m : Marker} (h : s.up) (hears : s.lnkHears p.val = true)
    (hw : s.router.waiting = []) (hstate : ((s.lk p.val).lane i.val).state = 0)
    (hlocks : ((s.lk p.val).lane i.val).locks m = false) :
    ∃ t, exec (.laneMarker p i m) s = .next t ∧ (t.lk p.val).lane i.val = ((s.lk p.val).lane i.val).hunt m ∧
      t.regs = s.regs ∧ t.sent = s.sent ∧ t.mem = s.mem := by
  have hexec := exec_laneMarker h hears i m
  rw [State.laneMarker_of_hunting hstate hlocks, State.updLane_emits _ |>.pump hw] at hexec
  refine ⟨_, hexec, ?_, (State.throttle_regs _).trans (State.updLk_regs ..),
    (State.updLane_emits _).throttle.trans (List.append_nil _), exec_mem hexec rfl⟩
  rw [State.lk_throttle, State.lane_updLane_same]

namespace State
variable {s : State} {p i : Nat}

/-- A lane that locks in training: LOCKED, and a TRAIN that tells of it (R265). -/
theorem laneLocked_training (hstate : s.lnkState p = 1) :
    s.laneLocked p i = (s.setLocked p i true).sendTrain p (2000 * s.now) := by
  have hsame : (s.setLocked p i true).lnkState p = 1 :=
    (rd_wr_other _ (by simp [R.LNK_STATUS, R.LNK_WIDTH]) _ _ _).trans hstate
  have hnow : (s.setLocked p i true).now = s.now := rd_wr_other _ (by simp [R.GLB_AOTIME, R.LNK_WIDTH]; omega) _ _ _
  unfold laneLocked
  rw [if_pos hsame, hnow]

/-- A lane that locks on a marker in training. -/
def lockInTraining (s : State) (p i : Nat) (m : Marker) : State :=
  ((s.updLane p i fun x => x.lockOn m).setLocked p i true).sendTrain p (2000 * s.now)

theorem lk_lockInTraining (s : State) (p i : Nat) (m : Marker) :
    (s.lockInTraining p i m).lk p = (s.updLane p i fun x => x.lockOn m).lk p :=
  (lk_send ..).trans (lk_wr ..)

theorem bitAt_lockInTraining (m : Marker) (hi : i < 8) : bitAt ((s.lockInTraining p i m).lockedMask p) i = true := by
  rw [lockInTraining, sendTrain, control, lockedMask, rd_send, setLocked, if_pos rfl]
  exact bitAt_rd_setMask _ _ rfl hi

theorem lockInTraining_regs (s : State) (p i : Nat) (m : Marker) : s.sameRegsBut [R.LNK_WIDTH p] (s.lockInTraining p i m) :=
  (((sameRegsBut.refl _ s).updLane _ _ _).wr (by simp) _ _).send _

theorem lockInTraining_emits (s : State) (p i : Nat) (m : Marker) : Emits [.control p 0x09
    [s.pnid, p, 1, (s.lockInTraining p i m).lockedMask p, 2000 * s.now, (s.lk p).peerStamp]] s (s.lockInTraining p i m) := by
  have hself : R.RTR_SELF ≠ R.LNK_WIDTH p := by
    unfold R.RTR_SELF R.LNK_WIDTH
    omega
  have hpnid : ((s.updLane p i fun x => x.lockOn m).setLocked p i true).pnid = s.pnid := (rd_wr_other _ hself _ _ _).trans (rd_updLk ..)
  have hstamp : (((s.updLane p i fun x => x.lockOn m).setLocked p i true).lk p).peerStamp = (s.lk p).peerStamp := by
    rw [setLocked, if_pos rfl, setMask, lk_wr, updLane, lk_updLk_same]
  unfold lockInTraining sendTrain control
  rw [lockedMask, rd_send, ← lockedMask, hpnid, hstamp]
  exact (((Emits.refl s).updLane ..).wr ..).send _

/-- What a lane that has lost its lock leaves. -/
def huntAgain (s : State) (p i : Nat) : State :=
  (s.updLane p i fun x => { x with state := 0, candidates := [], badMarkers := 0, history := [] }).setLocked p i false

theorem bitAt_lockedMask_huntAgain (k : Nat) :
    bitAt ((s.huntAgain p i).lockedMask p) k = (bitAt (s.lockedMask p) k && k != i) := by
  rw [huntAgain, setLocked, if_neg (by simp), lockedMask, bitAt_rd_clearMask _ _ rfl, updLane, rd_updLk]
  congr 1
  simp [bne, Bool.beq_eq_decide_eq]

theorem lk_huntAgain (s : State) (p i : Nat) : (s.huntAgain p i).lk p =
    (s.updLane p i fun x => { x with state := 0, candidates := [], badMarkers := 0, history := [] }).lk p := lk_wr ..

theorem rxMask_huntAgain (s : State) (p i : Nat) : (s.huntAgain p i).rxMask p = s.rxMask p :=
  (rd_wr_apart _ _ rfl rfl _).trans (rd_updLk ..)

theorem huntAgain_regs (s : State) (p i : Nat) : s.sameRegsBut [R.LNK_WIDTH p] (s.huntAgain p i) :=
  ((sameRegsBut.refl _ s).updLk _ _).wr (by simp) _ _

theorem huntAgain_emits (s : State) (p i : Nat) : Emits [] s (s.huntAgain p i) := ((Emits.refl s).updLk ..).wr ..

theorem laneUnlocked_of_locked (hstate : ((s.lk p).lane i).state = 1) (hdoze : (s.lk p).doze = 0) (hlnk : s.lnkState p = 2)
    (hused : bitAt (s.rxMask p) i = true) : s.laneUnlocked p i = (s.huntAgain p i).renegotiate p (s.rxMask p) := by
  have hsame : (s.huntAgain p i).lnkState p = 2 :=
    ((huntAgain_regs s p i).rd (by simp [R.LNK_STATUS, R.LNK_WIDTH]) _).trans hlnk
  unfold laneUnlocked
  rw [if_neg (by simp [hstate]), if_neg (by simp [hdoze])]
  change (if (bitAt ((s.huntAgain p i).rxMask p) i && (s.huntAgain p i).lnkState p == 2) = true
    then (s.huntAgain p i).renegotiate p ((s.huntAgain p i).rxMask p) else s.huntAgain p i) = _
  rw [rxMask_huntAgain, if_pos (by simp [hused, hsame])]

/-- A renegotiation that has lanes left asks for them, and ignores frames until the switch (R259). -/
theorem renegotiate_of_left {keep m : Nat} (hstep : (s.lk p).trimStep = 0)
    (hm : meet (meet (s.lockedMask p) (s.laneMask p)) keep = m) (hleft : m ≠ 0) :
    s.renegotiate p keep = ((s.sendNak p).askWidth p m 1).updLk p fun l => { l with ignoring := true } := by
  unfold renegotiate
  simp only [hm, hstep]
  rw [if_neg (show ¬ (0 = 1) by decide), if_neg hleft]

/-- The registers of a renegotiation are those of the NAKs. -/
theorem askAfterNak_regs (m : Nat) : s.sameRegsBut [R.LNK_RETRY p]
    (((s.sendNak p).askWidth p m 1).updLk p fun l => { l with ignoring := true }) :=
  ((((((sameRegsBut.refl _ s).send _).updLk _ _).inc (by simp) _).send _).updLk _ _).updLk _ _

theorem askAfterNak_emits (m : Nat) : Emits [.control p 0x03 [(s.lk p).rxExpected], .control p 0x05 [m, 1]] s
    (((s.sendNak p).askWidth p m 1).updLk p fun l => { l with ignoring := true }) :=
  ((((((Emits.refl s).send _).updLk ..).inc ..).send _).updLk ..).updLk ..

theorem lk_askAfterNak (m : Nat) : (((s.sendNak p).askWidth p m 1).updLk p fun l => { l with ignoring := true }).lk p =
    { s.lk p with nakOut := true, switching := true, askedMask := m, widthTries := 1, ignoring := true } := by
  simp only [lk_updLk_same, askWidth, control, lk_send, sendNak, lk_inc]

/-- A lane in use has been lost between two states, and others are left: it hunts, and the partner is asked for them (R244, R259). -/
structure LaneLost (s t : State) (p i : Nat) : Prop where
  hunts : ((t.lk p).lane i).state = 0
  locked : ∀ k, bitAt (t.lockedMask p) k = (bitAt (s.lockedMask p) k && k != i)
  sent : t.sent = s.sent ++ [.control p 0x03 [(s.lk p).rxExpected],
    .control p 0x05 [meet (meet (t.lockedMask p) (s.laneMask p)) (s.rxMask p), 1]]
  ignoring : (t.lk p).ignoring = true
  switching : (t.lk p).switching = true
  nakOut : (t.lk p).nakOut = true
  regs : s.sameRegsBut [R.LNK_WIDTH p, R.LNK_RETRY p] t

section Lost
variable {j : Nat} (hstate : ((s.lk p).lane i).state = 1) (hdoze : (s.lk p).doze = 0) (hlnk : s.lnkState p = 2)
  (hstep : (s.lk p).trimStep = 0) (hused : bitAt (s.rxMask p) i = true) (hj : j < 8) (hne : j ≠ i)
  (hjrx : bitAt (s.rxMask p) j = true) (hjlocked : bitAt (s.lockedMask p) j = true) (hjlane : bitAt (s.laneMask p) j = true)
include hstate hdoze hlnk hstep hused hj hne hjrx hjlocked hjlane

/-- A lane that is lost while another one in use is locked: the link asks for the lanes that are left. -/
theorem laneUnlocked_of_left : ∃ m, m = meet (meet ((s.huntAgain p i).lockedMask p) (s.laneMask p)) (s.rxMask p) ∧
    s.laneUnlocked p i = (((s.huntAgain p i).sendNak p).askWidth p m 1).updLk p fun l => { l with ignoring := true } := by
  have hlane : (s.huntAgain p i).laneMask p = s.laneMask p :=
    (huntAgain_regs s p i).rd (by simp [R.LNK_CTL, R.LNK_WIDTH]) _
  have hleft : meet (meet ((s.huntAgain p i).lockedMask p) (s.laneMask p)) (s.rxMask p) ≠ 0 := by
    refine ne_zero_of_bitAt (i := j) ?_
    rw [bitAt_meet hj, bitAt_meet hj, bitAt_lockedMask_huntAgain]
    simp [hne, hjrx, hjlocked, hjlane]
  have hsteps : ((s.huntAgain p i).lk p).trimStep = 0 := by
    rw [lk_huntAgain, updLane, lk_updLk_same]
    exact hstep
  exact ⟨_, rfl, by rw [laneUnlocked_of_locked hstate hdoze hlnk hused, renegotiate_of_left hsteps (by rw [hlane]) hleft]⟩

theorem laneLost_laneUnlocked : LaneLost s (s.laneUnlocked p i) p i ∧ (s.laneUnlocked p i).router = s.router := by
  obtain ⟨m, hm, hunlocked⟩ := laneUnlocked_of_left hstate hdoze hlnk hstep hused hj hne hjrx hjlocked hjlane
  have hlk := lk_huntAgain s p i
  have hafter := lk_askAfterNak (s := s.huntAgain p i) (p := p) m
  have hregs := askAfterNak_regs (s := s.huntAgain p i) (p := p) m
  have hout := (huntAgain_emits s p i).trans (askAfterNak_emits (p := p) m)
  have hlocked := hregs.rd (a := R.LNK_WIDTH p) (by simp [R.LNK_WIDTH, R.LNK_RETRY]) F.LNK_WIDTH_LOCKED
  have hexpected : ((s.huntAgain p i).lk p).rxExpected = (s.lk p).rxExpected := by
    rw [hlk, updLane, lk_updLk_same]
  rw [hunlocked]
  refine ⟨⟨?_, fun k => ?_, ?_, ?_, ?_, ?_, ((huntAgain_regs s p i).mono (by simp)).trans (hregs.mono (by simp))⟩, hout.router⟩
  · rw [hafter]
    exact congrArg LaneState.state ((congrArg (LinkState.lane · i) hlk).trans (lane_updLane_same s p i _))
  · rw [lockedMask, hlocked, ← lockedMask, bitAt_lockedMask_huntAgain]
  · rw [lockedMask, hlocked, ← lockedMask, ← hexpected, ← hm]
    exact hout.sent
  all_goals rw [hafter]

end Lost

/-- A change of the lane alone, before it is lost, does not show. -/
theorem LaneLost.of_updLane {t : State} {f : LaneState → LaneState} (h : LaneLost (s.updLane p i f) t p i) : LaneLost s t p i := by
  have hrx : (s.updLane p i f).rxMask p = s.rxMask p := rd_updLk ..
  have hlane : (s.updLane p i f).laneMask p = s.laneMask p := rd_updLk ..
  have hlocked : (s.updLane p i f).lockedMask p = s.lockedMask p := rd_updLk ..
  have hexpected : ((s.updLane p i f).lk p).rxExpected = (s.lk p).rxExpected := by rw [updLane, lk_updLk_same]
  obtain ⟨hhunts, hbits, hsent, hignoring, hswitching, hnak, hregs⟩ := h
  rw [hlocked] at hbits
  rw [hrx, hlane, hexpected] at hsent
  exact ⟨hhunts, hbits, hsent, hignoring, hswitching, hnak, ((sameRegsBut.refl _ s).updLk _ _).trans hregs⟩

theorem LaneLost.throttle {t : State} (h : LaneLost s t p i) : LaneLost s t.throttle p i := by
  obtain ⟨hhunts, hbits, hsent, hignoring, hswitching, hnak, hregs⟩ := h
  have hlk := lk_throttle t p
  refine ⟨by rw [hlk, hhunts], fun k => by rw [lockedMask_throttle, hbits], ?_, by rw [hlk, hignoring], by rw [hlk, hswitching],
    by rw [hlk, hnak], hregs.throttle⟩
  rw [lockedMask_throttle]
  exact hsent

end State

/-- A hunting lane whose candidate is confirmed twice locks, and in training the partner is told (R243, R265). -/
theorem exec_laneMarker_lock {s : State} {p : LinkId} {i : LaneId} {m : Marker} (h : s.up) (hlnk : s.lnkState p.val = 1)
    (hw : s.router.waiting = []) (hstate : ((s.lk p.val).lane i.val).state = 0)
    (hlocks : ((s.lk p.val).lane i.val).locks m = true) :
    ∃ t, exec (.laneMarker p i m) s = .next t ∧ ((t.lk p.val).lane i.val).state = 1 ∧ bitAt (t.lockedMask p.val) i.val = true ∧
      t.sent = s.sent ++ [.control p.val 0x09 [s.pnid, p.val, 1, t.lockedMask p.val, 2000 * s.now, (s.lk p.val).peerStamp]] ∧
      s.sameRegsBut [R.LNK_WIDTH p.val] t ∧ t.mem = s.mem := by
  have hexec := exec_laneMarker h (lnkHears_of_state hlnk rfl) i m
  have hnow : (s.updLane p.val i.val fun x => x.lockOn m).now = s.now := State.rd_updLk ..
  have hsame : (s.updLane p.val i.val fun x => x.lockOn m).lnkState p.val = 1 := (State.rd_updLk ..).trans hlnk
  have hout := s.lockInTraining_emits p.val i.val m
  have hlocked : s.laneMarker p.val i.val m = s.lockInTraining p.val i.val m := by
    rw [State.laneMarker_of_locks hstate hlocks, State.laneLocked_training hsame, hnow]
    rfl
  rw [hlocked, hout.pump hw] at hexec
  refine ⟨_, hexec, ?_, ?_, ?_, (s.lockInTraining_regs p.val i.val m).throttle, exec_mem hexec rfl⟩
  · rw [State.lk_throttle, State.lk_lockInTraining, State.lane_updLane_same]
    rfl
  · rw [State.lockedMask_throttle]
    exact State.bitAt_lockInTraining m i.isLt
  · rw [State.lockedMask_throttle]
    exact hout.throttle

/-- The loss of its clock, or the fourth bad marker in a row, loses a lane in use (R244). -/
theorem exec_laneLost {s : State} {p : LinkId} {i : LaneId} {m : Marker} {j : Nat} {c : Instr} (h : s.up)
    (hlnk : s.lnkState p.val = 2) (hw : s.router.waiting = []) (hstate : ((s.lk p.val).lane i.val).state = 1)
    (hdoze : (s.lk p.val).doze = 0) (hstep : (s.lk p.val).trimStep = 0) (hused : bitAt (s.rxMask p.val) i.val = true)
    (hc : c = .cdrLockLoss p i ∨ (c = .laneMarker p i m ∧ ((s.lk p.val).lane i.val).expects m = true ∧
      ((s.lk p.val).lane i.val).badMarkers = 3 ∧ m.crcOk = false)) (hj : j < 8) (hne : j ≠ i.val)
    (hjrx : bitAt (s.rxMask p.val) j = true) (hjlocked : bitAt (s.lockedMask p.val) j = true)
    (hjlane : bitAt (s.laneMask p.val) j = true) :
    ∃ t, exec c s = .next t ∧ State.LaneLost s t p.val i.val ∧ t.mem = s.mem := by
  rcases hc with rfl | ⟨rfl, hat, hbad, hcrc⟩
  · have hexec : exec (.cdrLockLoss p i) s = .next _ := congrArg Host.Outcome.next (State.inMain_of_up h _)
    exact ⟨_, hexec, (State.laneLost_laneUnlocked hstate hdoze hlnk hstep hused hj hne hjrx hjlocked hjlane).1, exec_mem hexec rfl⟩
  · have hexec := exec_laneMarker h (lnkHears_of_state hlnk rfl) i m
    rw [State.laneMarker_of_fourth_bad hstate hat hbad hcrc] at hexec
    have hlk : ∀ f, ((s.updLane p.val i.val f).lk p.val) = { s.lk p.val with
        lanes := sset (fun _ => LaneState.reset) (s.lk p.val).lanes i.val (f ((s.lk p.val).lane i.val)) } := fun f => by
      rw [State.updLane, State.lk_updLk_same]
    obtain ⟨hlost, hrouter⟩ := State.laneLost_laneUnlocked (s := s.updLane p.val i.val fun x =>
        { x with badMarkers := x.badMarkers + 1, pos := m.pos, cnt := (((s.lk p.val).lane i.val).cnt + 1) % 2 ^ 16 })
      (by rw [State.lane_updLane_same]; exact hstate) (by rw [hlk]; exact hdoze) ((State.rd_updLk ..).trans hlnk)
      (by rw [hlk]; exact hstep) (by rw [State.rxMask, State.updLane, State.rd_updLk]; exact hused) hj hne
      (by rw [State.rxMask, State.updLane, State.rd_updLk]; exact hjrx)
      (by rw [State.lockedMask, State.updLane, State.rd_updLk]; exact hjlocked)
      (by rw [State.laneMask, State.updLane, State.rd_updLk]; exact hjlane)
    rw [State.pump_of_router hrouter hw] at hexec
    exact ⟨_, hexec, hlost.of_updLane.throttle, exec_mem hexec rfl⟩

/-! ## Uncorrectable codewords (R271, R419) -/

namespace State

/-- A codeword that could not be corrected, on a lane in use: the link and the lane count it. -/
def countUncorrectable (s : State) (p i n : Nat) : State :=
  (((s.inc (R.LNK_FEC p) F.LNK_FEC_UNCORR).inc (R.LNK_LHIST p i) F.LNK_LHIST_UNC).updLane p i fun x =>
    { x with uncs := x.uncs + 1 }).updLane p i fun x =>
      { x with history := ((true :: List.replicate (min n 16) false) ++ x.history).take 16 }

theorem lane_countUncorrectable (s : State) (p i n : Nat) :
    ((s.countUncorrectable p i n).lk p).lane i = { (s.lk p).lane i with
      uncs := ((s.lk p).lane i).uncs + 1,
      history := ((true :: List.replicate (min n 16) false) ++ ((s.lk p).lane i).history).take 16 } := by
  rw [countUncorrectable, lane_updLane_same, lane_updLane_same, lk_inc, lk_inc]

theorem countUncorrectable_shows (s : State) {p i : Nat} (hne : R.LNK_FEC p ≠ R.LNK_LHIST p i) (n : Nat) :
    (s.countUncorrectable p i n).rd (R.LNK_FEC p) F.LNK_FEC_UNCORR =
        min (s.rd (R.LNK_FEC p) F.LNK_FEC_UNCORR + 1) (2 ^ F.LNK_FEC_UNCORR.width - 1) ∧
      (s.countUncorrectable p i n).rd (R.LNK_LHIST p i) F.LNK_LHIST_UNC =
        min (s.rd (R.LNK_LHIST p i) F.LNK_LHIST_UNC + 1) (2 ^ F.LNK_LHIST_UNC.width - 1) := by
  unfold countUncorrectable updLane
  simp only [rd_updLk]
  constructor
  · rw [rd_inc_other _ hne, rd_inc_same _ _ rfl]
  · rw [rd_inc_same _ _ rfl, rd_inc_other _ hne.symm]

theorem countUncorrectable_regs (s : State) (p i n : Nat) :
    s.sameRegsBut [R.LNK_FEC p, R.LNK_LHIST p i] (s.countUncorrectable p i n) :=
  ((((sameRegsBut.refl _ s).inc (by simp) _).inc (by simp) _).updLane _ _ _).updLane _ _ _

theorem countUncorrectable_emits (s : State) (p i n : Nat) : Emits [] s (s.countUncorrectable p i n) :=
  ((((Emits.refl s).inc ..).inc ..).updLane ..).updLane ..

end State

theorem lnkFec_ne_lnkLhist (p : Nat) (i : LaneId) : R.LNK_FEC p ≠ R.LNK_LHIST p i.val := by
  unfold R.LNK_FEC R.LNK_LHIST
  omega

theorem exec_uncorrectableCodeword {s : State} {p : LinkId} {i : LaneId} {n : Nat} (h : s.up) (hears : s.lnkHears p.val = true)
    (hused : bitAt (s.rxMask p.val) i.val = true)
    (hfew : ((((true :: List.replicate (min n 16) false) ++ ((s.lk p.val).lane i.val).history).take 16).filter (·)).length < 8) :
    exec (.uncorrectableCodeword p i n) s = .next (s.countUncorrectable p.val i.val n) := by
  have hexec : exec (.uncorrectableCodeword p i n) s = .next _ := congrArg Host.Outcome.next (State.inMain_of_up h _)
  have hne : R.LNK_WIDTH p.val ≠ R.LNK_FEC p.val := by simp [R.LNK_WIDTH, R.LNK_FEC]
  have hrx : (s.inc (R.LNK_FEC p.val) F.LNK_FEC_UNCORR).rxMask p.val = s.rxMask p.val := State.rd_inc_other s hne _ _
  have hlane := s.lane_countUncorrectable p.val i.val n
  rw [hexec, if_neg (by simp [hears])]
  simp only [hrx, hused, if_true]
  change Host.Outcome.next (if 8 ≤ ((((s.countUncorrectable p.val i.val n).lk p.val).lane i.val).history.filter (·)).length then _
    else s.countUncorrectable p.val i.val n) = _
  rw [hlane]
  exact congrArg Host.Outcome.next (if_neg (Nat.not_le.mpr hfew))

/-- Settles O47: each row by the state that it answers. -/
theorem lanesAndPeriods : Obligations.LanesAndPeriods := by
  unfold Obligations.LanesAndPeriods
  refine ⟨fun s p h hears hdoze hreq hreplay hbuf hw => ?_, fun s p m h hears hdoze hreq hm hne hreplay hbuf hw => ?_,
    fun s p i m x h hears hw hx hstate hpoint => ?_, fun s p i m x d h hears hw hx hstate hcand hpos hmay => ?_,
    fun s p i m x d h hlnk hw hx hstate hcand hpos hhits hconfirms => ?_,
    fun s p i m j c h hlnk hw hstate hdoze hstep hused hc hj hne hjrx hjlocked hjlane => ?_, fun s p i n h hears hused hfew => ?_⟩
  · have hexec := exec_periodStart_same h hears hdoze hreplay hbuf hw hreq
    exact ⟨_, hexec, (State.startPeriod_emits ..).throttle, (State.lk_throttle ..).trans (State.lk_startPeriod ..),
      (State.throttle_regs _).trans (State.startPeriod_regs ..), exec_mem hexec rfl⟩
  · have hexec := exec_periodStart_change h hears hdoze hreplay hbuf hw hreq hne
    have hregs := State.startPeriod_regs (s.newTxMask p.val m) p.val
    obtain ⟨htx, hchanges⟩ := State.newTxMask_shows (s := s) p.isLt hm
    have hlk := State.lk_newTxMask (s := s) (p := p.val) m
    have hout := (State.newTxMask_emits (s := s) (p := p.val) m).trans (State.startPeriod_emits _ p.val)
    rw [htx, hlk] at hout
    refine ⟨_, hexec, ?_, ?_, ?_, hout.throttle, ((State.newTxMask_regs m).of_regs hregs).throttle, exec_mem hexec rfl⟩
    · rw [State.txMask_throttle, State.txMask, State.rd_congr hregs]
      exact htx
    · rw [State.lk_throttle, State.lk_startPeriod, hlk]
    · rw [State.rd_throttle, State.rd_congr hregs, hchanges]
  · subst hx
    rw [← LaneState.hunt_of_atPoint_none hpoint]
    exact exec_laneMarker_hunt h hears hw hstate (LaneState.locks_of_atPoint_none hpoint)
  · subst hx
    obtain ⟨-, hpoint⟩ := LaneState.atPoint_of_single hcand hpos
    rw [← LaneState.hunt_of_single hcand hpos hmay]
    refine exec_laneMarker_hunt h hears hw hstate ((LaneState.locks_of_atPoint hpoint).trans ?_)
    rcases hmay with hhits | hconfirms
    · simp [hhits]
    · simp [hconfirms]
  · subst hx
    obtain ⟨-, hpoint⟩ := LaneState.atPoint_of_single hcand hpos
    have hlocks : ((s.lk p.val).lane i.val).locks m = true := (LaneState.locks_of_atPoint hpoint).trans (by simp [hhits, hconfirms])
    exact exec_laneMarker_lock h hlnk hw hstate hlocks
  · obtain ⟨t, hexec, hlost, hmem⟩ := exec_laneLost h hlnk hw hstate hdoze hstep hused hc hj hne hjrx hjlocked hjlane
    obtain ⟨hhunts, hbits, hsent, hignoring, hswitching, hnak, hregs⟩ := hlost
    exact ⟨t, hexec, hhunts, fun k _ => hbits k, hsent, hignoring, hswitching, hnak, hregs, hmem⟩
  · have hexec := exec_uncorrectableCodeword h hears hused hfew
    obtain ⟨hfec, hunc⟩ := s.countUncorrectable_shows (lnkFec_ne_lnkLhist p.val i) n
    exact ⟨_, hexec, hfec, hunc, congrArg LaneState.uncs (s.lane_countUncorrectable ..), s.countUncorrectable_regs p.val i.val n,
      (s.countUncorrectable_emits ..).sent.trans (List.append_nil _), exec_mem hexec rfl⟩

end Sys2Proof.Machine
end

section
/-! PROOF. The rows DATA_FRAME, IDLE, PULSE, ACK, NAK, CREDIT and the timers of a link (R246, R250 to R258, R275). -/
namespace Sys2Proof.Machine

namespace State
variable {s : State} {p : Nat}

/-! ## Acknowledgements and NAKs (R253 to R255) -/

theorem lk_sendAck (s : State) (p : Nat) : (s.sendAck p).lk p = { s.lk p with unreported := 0 } := by
  rw [sendAck, lk_updLk_same, control, lk_send]

theorem sendAck_regs (s : State) (p : Nat) : (s.sendAck p).regs = s.regs := (updLk_regs ..).trans (send_regs ..)

theorem sendAck_emits (s : State) (p : Nat) : Emits [.control p 0x02 [(s.lk p).ackSeq]] s (s.sendAck p) :=
  ((Emits.refl s).send _).updLk ..

theorem lk_sendNak (s : State) (p : Nat) : (s.sendNak p).lk p = { s.lk p with nakOut := true } := by
  rw [sendNak, lk_inc, lk_updLk_same, control, lk_send]

theorem sendNak_regs (s : State) (p : Nat) : s.sameRegsBut [R.LNK_RETRY p] (s.sendNak p) :=
  (((sameRegsBut.refl _ s).send _).updLk _ _).inc (by simp) _

theorem rd_sendNak_naks (s : State) (p : Nat) : (s.sendNak p).rd (R.LNK_RETRY p) F.LNK_RETRY_NAKS =
    min (s.rd (R.LNK_RETRY p) F.LNK_RETRY_NAKS + 1) (2 ^ F.LNK_RETRY_NAKS.width - 1) := by
  rw [sendNak, rd_inc_same _ _ rfl, rd_updLk, control, rd_send]

theorem sendNak_emits (s : State) (p : Nat) : Emits [.control p 0x03 [(s.lk p).rxExpected]] s (s.sendNak p) :=
  (((Emits.refl s).send _).updLk ..).inc ..

/-- The frames that stay after an ACKSEQ (R253). -/
def stillHeld (l : List Buffered) (ack : Nat) : List Buffered :=
  l.filter fun b => 2 ^ 15 ≤ (ack + 2 ^ 16 - b.seq) % 2 ^ 16 || !b.out

theorem lk_ackFrames (s : State) (p ack : Nat) :
    (s.ackFrames p ack).lk p = { s.lk p with buffer := stillHeld (s.lk p).buffer ack } := by
  rw [ackFrames, lk_updLk_same]
  rfl

theorem ackFrames_emits (s : State) (p ack : Nat) : Emits [] s (s.ackFrames p ack) := (Emits.refl s).updLk ..

theorem ackFrames_regs (s : State) (p ack : Nat) : (s.ackFrames p ack).regs = s.regs := updLk_regs ..

theorem ctl_regs (s : State) (p : Nat) : (s.ctl p).regs = s.regs := updLk_regs ..

theorem lk_ctl (s : State) (p : Nat) : (s.ctl p).lk p = { s.lk p with resync := false } := lk_updLk_same ..

theorem lnkState_ctl (s : State) (p : Nat) : (s.ctl p).lnkState p = s.lnkState p := rd_updLk ..

theorem rd_ctl (s : State) (p a : Nat) (f : Fld) : (s.ctl p).rd a f = s.rd a f := rd_updLk ..

theorem ctl_emits (s : State) (p : Nat) : Emits [] s (s.ctl p) := (Emits.refl s).updLk ..

/-! ## Data frames (R250, R254) -/

/-- A frame of a sequence number through R250's last conditions. -/
def takeSeq (s : State) (p seq : Nat) : State :=
  let d := ((s.lk p).rxExpected + 2 ^ 16 - seq) % 2 ^ 16
  if d = 0 then s.acceptSeq p seq
  else if d ≤ 2 ^ 15 then s.sendAck p
  else if (s.lk p).nakOut then s
  else s.sendNak p

/-- What the taking of a sequence number leaves of the buffer and the router. -/
structure KeepsBuffer (s t : State) (p : Nat) : Prop where
  buffer : (t.lk p).buffer = (s.lk p).buffer
  router : t.router = s.router

theorem keepsBuffer_sendAck (s : State) (p : Nat) : KeepsBuffer s (s.sendAck p) p := ⟨by rw [lk_sendAck], (sendAck_emits s p).router⟩

theorem keepsBuffer_sendNak (s : State) (p : Nat) : KeepsBuffer s (s.sendNak p) p := ⟨by rw [lk_sendNak], (sendNak_emits s p).router⟩

/-- The frame with the number expected is taken (R254). -/
def takeNext (s : State) (p seq : Nat) : State := s.updLk p fun l =>
  { l with rxExpected := (seq + 1) % 2 ^ 16, accepted := true, nakOut := false, unreported := l.unreported + 1 }

theorem acceptSeq_of_next {seq : Nat} (h : (s.lk p).rxExpected = seq) : s.acceptSeq p seq =
    if 32 ≤ ((s.takeNext p seq).lk p).unreported then (s.takeNext p seq).sendAck p else s.takeNext p seq := by
  unfold acceptSeq
  rw [if_neg (by simp [h])]
  rfl

theorem keepsBuffer_takeNext (s : State) (p seq : Nat) : KeepsBuffer s (s.takeNext p seq) p :=
  ⟨by rw [takeNext, lk_updLk_same], updLk_router ..⟩

theorem KeepsBuffer.trans {s t u : State} {p : Nat} (h : KeepsBuffer s t p) (h' : KeepsBuffer t u p) : KeepsBuffer s u p :=
  ⟨h'.buffer.trans h.buffer, h'.router.trans h.router⟩

theorem keepsBuffer_acceptSeq (s : State) (p seq : Nat) : KeepsBuffer s (s.acceptSeq p seq) p := by
  by_cases h : (s.lk p).rxExpected = seq
  · rw [acceptSeq_of_next h]
    split
    · exact (keepsBuffer_takeNext s p seq).trans (keepsBuffer_sendAck _ p)
    · exact keepsBuffer_takeNext s p seq
  · unfold acceptSeq
    rw [if_pos h]
    split
    · exact keepsBuffer_sendAck s p
    · exact ⟨rfl, rfl⟩

theorem keepsBuffer_takeSeq (s : State) (p seq : Nat) : KeepsBuffer s (s.takeSeq p seq) p := by
  unfold takeSeq
  dsimp only
  split
  · exact keepsBuffer_acceptSeq s p seq
  split
  · exact keepsBuffer_sendAck s p
  split
  · exact ⟨rfl, rfl⟩
  · exact keepsBuffer_sendNak s p

theorem takeSeq_of_next {seq : Nat} (h : seq = (s.lk p).rxExpected) (hfew : (s.lk p).unreported < 31) :
    s.takeSeq p seq = s.takeNext p seq := by
  have hzero : ((s.lk p).rxExpected + 2 ^ 16 - seq) % 2 ^ 16 = 0 := by omega
  have hno : ¬ 32 ≤ ((s.takeNext p seq).lk p).unreported := by
    rw [takeNext, lk_updLk_same]
    simp only
    omega
  unfold takeSeq
  rw [if_pos hzero, acceptSeq_of_next h.symm, if_neg hno]

/-- A frame seen before is acknowledged again (R250). -/
theorem takeSeq_of_last {seq : Nat} (h : seq + 1 = (s.lk p).rxExpected) : s.takeSeq p seq = s.sendAck p := by
  have hone : ((s.lk p).rxExpected + 2 ^ 16 - seq) % 2 ^ 16 = 1 := by omega
  unfold takeSeq
  simp only [hone]
  rw [if_neg Nat.one_ne_zero, if_pos (by decide)]

theorem ne_xor_self {a b : Nat} (hb : b ≠ 0) : a ≠ a ^^^ b := fun h => hb (by
  have hzero := congrArg (a ^^^ ·) h
  simpa [← Nat.xor_assoc] using hzero.symm)

/-- A correct data frame frees what it acknowledges and takes its number (R250, R253). -/
theorem dataFrame_of_good {f : RxFrame} {n : Nat} (hfirst : f.firstBad = false) (hany : f.anyBad = false)
    (hkind : leAt f.bytes 0 1 = 0x1E) (hhcrc : leAt f.bytes 30 2 = crc16 (slice f.bytes 0 30)) (hlen : n = leAt f.bytes 2 1)
    (hpos : 0 < n) (hmax : n ≤ 128)
    (hfcrc : leAt f.bytes (32 * (n + 1) + 28) 4 = crc32c (slice f.bytes 0 (32 * (n + 1) + 28)))
    (hform : frameMalformed f.bytes n = false) :
    s.dataFrame p f = (s.ackFrames p (leAt f.bytes 6 2)).takeSeq p (leAt f.bytes 4 2) := by
  unfold dataFrame
  simp only [← hlen, hfirst, hany, hkind, hhcrc, hfcrc, hform]
  rw [if_neg (by simp), if_neg (by simp), if_neg (by simp), if_neg (by simp; omega), if_neg (ne_xor_self (by simp)), if_neg (by simp),
    if_neg (by simp)]
  rfl

/-- A frame whose header does not check is lost (R250, R251). -/
theorem dataFrame_of_bad_header {f : RxFrame} (hfirst : f.firstBad = false) (hkind : leAt f.bytes 0 1 = 0x1E)
    (hhcrc : leAt f.bytes 30 2 ≠ crc16 (slice f.bytes 0 30)) :
    s.dataFrame p f = (s.inc (R.LNK_ERR p) F.LNK_ERR_HCRC).lostFrame p := by
  unfold dataFrame
  simp only [hfirst, hkind]
  rw [if_neg (by simp), if_neg (by simp), if_pos hhcrc]

theorem lk_lostFrame (s : State) (p : Nat) : (s.lostFrame p).lk p = { s.lk p with resync := true, nakOut := true } := by
  rw [lostFrame, lk_sendNak, lk_updLk_same]

theorem lostFrame_regs (s : State) (p : Nat) : s.sameRegsBut [R.LNK_RETRY p] (s.lostFrame p) :=
  ((sameRegsBut.refl _ s).updLk _ _).trans (sendNak_regs _ p)

theorem lostFrame_emits (s : State) (p : Nat) : Emits [.control p 0x03 [(s.lk p).rxExpected]] s (s.lostFrame p) := by
  have hnak := sendNak_emits (s.updLk p fun l => { l with resync := true }) p
  rw [lk_updLk_same] at hnak
  exact ((Emits.refl s).updLk ..).trans hnak

end State

theorem exec_dataFrame {s : State} {p : LinkId} {f : RxFrame} (h : s.up) (hlnk : s.lnkState p.val = 2)
    (hignoring : (s.lk p.val).ignoring = false) (hresync : (s.lk p.val).resync = false) (hkind : leAt f.bytes 0 1 = 0x1E) :
    exec (.dataFrame p f) s = .next (s.dataFrame p.val f).pump := by
  have hexec : exec (.dataFrame p f) s = .next _ := congrArg Host.Outcome.next (State.inMain_of_up h _)
  rw [hexec, if_neg (by simp [lnkHears_of_state hlnk rfl]), if_neg (by simp [hresync]), if_neg (by simp [hkind, hlnk, hignoring])]

/-! ## Pulses and silence (R257, R258) -/

namespace State
variable {s : State} {p : Nat}

/-- The registers of the glades lie below those of the links. -/
theorem activeGlades_of_sameRegsBut {t : State} {l : List Nat} (h : s.sameRegsBut l t) (hl : ∀ a ∈ l, 0x180000 ≤ a) :
    t.activeGlades = s.activeGlades :=
  List.filter_congr fun g hg => by
    have hlt := List.mem_range.mp hg
    have hout : R.GLD_STATUS g ∉ l := fun hm => Nat.not_lt.mpr (hl _ hm) (by unfold R.GLD_STATUS; omega)
    rw [active, active, on, on, h.rd hout]

theorem pulse_of_peer (hvalid : s.on (R.LNK_PEER p) F.LNK_PEER_VALID = true) (hlnk : s.lnkState p = 2) :
    s.pulse p (s.peer p) = (s.ctl p).wr (R.LNK_STATUS p) F.LNK_STATUS_SILENT 0 := by
  have hon : (s.ctl p).on (R.LNK_PEER p) F.LNK_PEER_VALID = true := (on_congr (rd_ctl ..)).trans hvalid
  have hstate : (s.ctl p).lnkState p = 2 := (lnkState_ctl ..).trans hlnk
  have hpeer : s.peer p = (s.ctl p).peer p := (rd_ctl ..).symm
  have hafter : ((s.ctl p).wr (R.LNK_STATUS p) F.LNK_STATUS_SILENT 0).lnkState p = 2 := (rd_wr_apart _ _ rfl rfl _).trans hstate
  unfold pulse
  simp only [hon, hstate, hafter]
  rw [if_neg (by simp), if_neg (not_not.mpr hpeer), if_neg (by simp)]

/-- A PULSE of another node on a silent link makes it train (R257, R258). -/
theorem pulse_of_other {x : Nat} (hvalid : s.on (R.LNK_PEER p) F.LNK_PEER_VALID = true) (hlnk : s.lnkState p = 2)
    (hx : x ≠ s.peer p) (hsilent : s.on (R.LNK_STATUS p) F.LNK_STATUS_SILENT = true)
    (hen : s.on (R.LNK_CTL p) F.LNK_CTL_EN = true) (hset : s.on R.RTR_SELF F.RTR_SELF_SET = true) :
    s.pulse p x = (s.ctl p).startTraining p := by
  have hon : ∀ a f, (s.ctl p).on a f = s.on a f := fun a f => on_congr (rd_ctl ..)
  have hstate : (s.ctl p).lnkState p = 2 := (lnkState_ctl ..).trans hlnk
  have hpeer : (s.ctl p).peer p = s.peer p := rd_ctl ..
  have hsame : (s.ctl p).silence p = s.ctl p := by
    unfold silence
    rw [if_pos ((hon ..).trans hsilent)]
  unfold pulse
  rw [if_neg (by simp [hon, hvalid, hstate]), if_pos (by rw [hpeer]; exact hx), hsame,
    train_of_enabled _ ((hon ..).trans hen) ((hon ..).trans hset)]

/-- Silence where no glade is active: SILENT is set, and with SILENT set before nothing changes (R258). -/
theorem silence_shows (hp : p < 32) (hact : s.activeGlades = []) :
    (s.silence p).rd (R.LNK_STATUS p) F.LNK_STATUS_SILENT = 1 ∧ s.sameRegsBut [R.LNK_STATUS p, R.EVR_LOST] (s.silence p) ∧
      Emits [] s (s.silence p) ∧ (s.silence p).lk p = s.lk p ∧ (s.silence p).lnkState p = s.lnkState p := by
  by_cases hsilent : s.on (R.LNK_STATUS p) F.LNK_STATUS_SILENT = true
  · have hsame : s.silence p = s := if_pos hsilent
    rw [hsame]
    exact ⟨rd_eq_one s rfl hsilent, sameRegsBut.refl _ s, Emits.refl s, rfl, rfl⟩
  · have hlost := lnkStatus_ne_lost hp
    have hregs : s.sameRegsBut [R.LNK_STATUS p, R.EVR_LOST]
        ((s.wr (R.LNK_STATUS p) F.LNK_STATUS_SILENT 1).lnkRecord Sev.fault p (R.LNK_STATUS p) F.LNK_STATUS_SILENT) :=
      ((sameRegsBut.refl _ s).wr (by simp) _ _).record (by simp) _
    have hnone : ∀ pnid cause, ((s.wr (R.LNK_STATUS p) F.LNK_STATUS_SILENT 1).lnkRecord Sev.fault p (R.LNK_STATUS p)
        F.LNK_STATUS_SILENT).suspectNode pnid cause =
          (s.wr (R.LNK_STATUS p) F.LNK_STATUS_SILENT 1).lnkRecord Sev.fault p (R.LNK_STATUS p) F.LNK_STATUS_SILENT := fun pnid cause => by
      rw [suspectNode, activeGlades_of_sameRegsBut hregs (by simp [R.LNK_STATUS, R.EVR_LOST]; omega), hact]
      rfl
    have hsame : s.silence p =
        (s.wr (R.LNK_STATUS p) F.LNK_STATUS_SILENT 1).lnkRecord Sev.fault p (R.LNK_STATUS p) F.LNK_STATUS_SILENT := by
      unfold silence
      simp only [if_neg hsilent, hnone, ite_self]
    rw [hsame]
    refine ⟨?_, hregs, ((Emits.refl s).wr ..).record _, by rw [lnkRecord, lk_record, lk_wr], ?_⟩
    · rw [lnkRecord, rd_record _ _ hlost]
      exact rd_wr_same _ _ rfl 1
    · rw [lnkState, lnkRecord, rd_record _ _ hlost, rd_wr_apart _ _ rfl rfl]
      rfl

/-! ## Replays (R255) -/

theorem updLk_congr {f g : LinkState → LinkState} (h : f (s.lk p) = g (s.lk p)) : s.updLk p f = s.updLk p g := by
  rw [updLk, h]
  rfl

/-- The one frame of the buffer is sent again, and counted. -/
def resend (s : State) (p : Nat) (b : Buffered) : State :=
  (((s.send (.data p b.seq)).updLk p fun l =>
    { l with buffer := [{ b with replays := b.replays + 1 }], replayFrom := none, unreported := 0 }).add
      (R.LNK_RETRY p) F.LNK_RETRY_REPLAYS 1).raise (R.LNK_RETRY p) F.LNK_RETRY_MAXREP (min (b.replays + 1) 255)

theorem lk_resend (s : State) (p : Nat) (b : Buffered) : (s.resend p b).lk p =
    { s.lk p with buffer := [{ b with replays := b.replays + 1 }], replayFrom := none, unreported := 0 } := by
  rw [resend, raise, lk_wr, lk_add, lk_updLk_same, lk_send]

theorem resend_regs (s : State) (p : Nat) (b : Buffered) : s.sameRegsBut [R.LNK_RETRY p] (s.resend p b) :=
  ((((sameRegsBut.refl _ s).send _).updLk _ _).add (by simp) _ _).wr (by simp) _ _

theorem rd_resend (s : State) (p : Nat) (b : Buffered) :
    (s.resend p b).rd (R.LNK_RETRY p) F.LNK_RETRY_REPLAYS =
        min (s.rd (R.LNK_RETRY p) F.LNK_RETRY_REPLAYS + 1) (2 ^ F.LNK_RETRY_REPLAYS.width - 1) ∧
      (s.resend p b).rd (R.LNK_RETRY p) F.LNK_RETRY_TMO = s.rd (R.LNK_RETRY p) F.LNK_RETRY_TMO := by
  unfold resend raise add
  constructor
  · rw [rd_wr_apart _ _ rfl rfl, ← add, rd_add_same _ _ rfl, rd_updLk, rd_send]
  · rw [rd_wr_apart _ _ rfl rfl, rd_wr_apart _ _ rfl rfl, rd_updLk, rd_send]

theorem resend_emits (s : State) (p : Nat) (b : Buffered) : Emits [.data p b.seq] s (s.resend p b) :=
  ((((Emits.refl s).send _).updLk ..).add ..).wr ..

/-- A buffer of one frame that has been sent is replayed from it; at the eighth replay the link trains. -/
theorem replayFrames_of_single {b : Buffered} (hbuf : (s.lk p).buffer = [b]) (hout : b.out = true) :
    s.replayFrames p b.seq = if 8 ≤ b.replays + 1 then (s.resend p b).train p else s.resend p b := by
  have hlate : (b.out && decide ((b.seq + 2 ^ 16 - b.seq) % 2 ^ 16 < 2 ^ 15)) = true := by simp [hout]
  have hflush : (s.resend p b).flush p = s.resend p b := flush_of_all_out _ (by rw [lk_resend]; simp [hout])
  have hone : (s.send (.data p b.seq)).updLk p (fun l => { l with
        buffer := l.buffer.map fun x =>
          if (x.out && decide ((x.seq + 2 ^ 16 - b.seq) % 2 ^ 16 < 2 ^ 15)) = true then { x with replays := x.replays + 1 } else x
        replayFrom := none, unreported := 0 }) =
      (s.send (.data p b.seq)).updLk p fun l =>
        { l with buffer := [{ b with replays := b.replays + 1 }], replayFrom := none, unreported := 0 } :=
    updLk_congr (by simp only [lk_send, hbuf, List.map_cons, List.map_nil, hlate, if_true])
  unfold replayFrames
  simp only [hbuf, List.filter_cons, hlate, if_true, List.filter_nil, List.isEmpty_cons, Bool.false_eq_true, if_false, each,
    List.foldl_cons, List.foldl_nil, hone, lk_updLk_same, List.map_cons, List.map_nil, Nat.zero_max, List.length_singleton]
  exact congrArg (ite (8 ≤ b.replays + 1) ((s.resend p b).train p)) hflush

/-- Two IDLE blocks, and the one frame of the buffer again. -/
def replayOne (s : State) (p : Nat) (b : Buffered) : State := ((s.control p 0x00).control p 0x00).resend p b

theorem lk_replayOne (s : State) (p : Nat) (b : Buffered) : (s.replayOne p b).lk p =
    { s.lk p with buffer := [{ b with replays := b.replays + 1 }], replayFrom := none, unreported := 0 } := by
  rw [replayOne, lk_resend, control, control, lk_send, lk_send]

theorem replayOne_regs (s : State) (p : Nat) (b : Buffered) : s.sameRegsBut [R.LNK_RETRY p] (s.replayOne p b) :=
  (((sameRegsBut.refl _ s).send _).send _).trans (resend_regs _ p b)

theorem rd_replayOne (s : State) (p : Nat) (b : Buffered) :
    (s.replayOne p b).rd (R.LNK_RETRY p) F.LNK_RETRY_REPLAYS =
        min (s.rd (R.LNK_RETRY p) F.LNK_RETRY_REPLAYS + 1) (2 ^ F.LNK_RETRY_REPLAYS.width - 1) ∧
      (s.replayOne p b).rd (R.LNK_RETRY p) F.LNK_RETRY_TMO = s.rd (R.LNK_RETRY p) F.LNK_RETRY_TMO := by
  obtain ⟨hreplays, htmo⟩ := rd_resend ((s.control p 0x00).control p 0x00) p b
  simp only [control, rd_send] at hreplays htmo
  exact ⟨hreplays, htmo⟩

theorem replayOne_emits (s : State) (p : Nat) (b : Buffered) :
    Emits [.control p 0x00 [], .control p 0x00 [], .data p b.seq] s (s.replayOne p b) :=
  (((Emits.refl s).send _).send _).trans (resend_emits _ p b)

theorem replayLink_of_single {b : Buffered} (hmay : s.mayTransmit p = true) (hbuf : (s.lk p).buffer = [b]) (hout : b.out = true) :
    s.replayLink p b.seq = if 8 ≤ b.replays + 1 then (s.replayOne p b).train p else s.replayOne p b := by
  unfold replayLink
  rw [if_pos hmay, replayFrames_of_single (by rw [control, control, lk_send, lk_send, hbuf]) hout]
  rfl

theorem mayTransmit_of (hlnk : s.lnkState p = 2) (hdoze : (s.lk p).doze = 0) (hreq : (s.lk p).reqMask = none) :
    s.mayTransmit p = true := by
  simp [mayTransmit, hlnk, hdoze, hreq]

/-! ## Credits (R275) -/

theorem vcCount_vcSet (m : Sparse Nat) (v n w : Nat) : vcCount (vcSet m v n) w = if w = v then n else vcCount m w := by
  rw [vcCount, vcSet, sget_sset]
  rfl

/-- Credits that return, VC by VC. -/
theorem vcCount_foldl_sub (f : Nat → Nat) (l : List Nat) (hl : l.Nodup) (m : Sparse Nat) (w : Nat) :
    vcCount (l.foldl (fun m v => vcSet m v (vcCount m v - f v)) m) w = if w ∈ l then vcCount m w - f w else vcCount m w := by
  induction l generalizing m with
  | nil => simp
  | cons v l ih =>
    obtain ⟨hv, hl⟩ := List.nodup_cons.mp hl
    rw [List.foldl_cons, ih hl, vcCount_vcSet]
    by_cases hw : w = v
    · simp [hw, hv]
    · simp [hw]

/-- The credits of a CREDIT block return to the pools that they were taken from. -/
def returnCredits (s : State) (p : Nat) (l : List Nat) (n : Nat) : State := (s.ctl p).updLk p fun x => { x with
  usedReserved := (List.range 8).foldl (fun m v => vcSet m v (vcCount m v - l.getD v 0)) x.usedReserved
  usedShared := x.usedShared - n }

theorem returnCredits_shows (s : State) (p : Nat) (l : List Nat) (n : Nat) :
    (∀ v, v < 8 → vcCount ((s.returnCredits p l n).lk p).usedReserved v = vcCount (s.lk p).usedReserved v - l.getD v 0) ∧
      ((s.returnCredits p l n).lk p).usedShared = (s.lk p).usedShared - n := by
  rw [returnCredits, lk_updLk_same, lk_ctl]
  refine ⟨fun v hv => ?_, rfl⟩
  rw [vcCount_foldl_sub _ _ List.nodup_range, if_pos (List.mem_range.mpr hv)]

theorem returnCredits_regs (s : State) (p : Nat) (l : List Nat) (n : Nat) : (s.returnCredits p l n).regs = s.regs :=
  (updLk_regs ..).trans (ctl_regs s p)

theorem returnCredits_emits (s : State) (p : Nat) (l : List Nat) (n : Nat) : Emits [] s (s.returnCredits p l n) :=
  (ctl_emits s p).updLk ..

end State

/-! ## The rows -/

section Rows
variable {s : State} {p : LinkId} (h : s.up)
include h

theorem exec_pulse (hw : s.router.waiting = []) (x po n : Nat) (hr : (s.pulse p.val x).router = s.router) :
    exec (.pulse p x po n) s = .next (s.pulse p.val x).throttle := by
  have hexec : exec (.pulse p x po n) s = .next _ := congrArg Host.Outcome.next (State.inMain_of_up h _)
  rw [hexec, State.pump_of_router hr hw]

theorem exec_ack (hw : s.router.waiting = []) (a : BitVec 16) :
    exec (.ack p a) s = .next ((s.ctl p.val).ackFrames p.val a.toNat).throttle := by
  have hexec : exec (.ack p a) s = .next ((s.ctl p.val).ackFrames p.val a.toNat).pump :=
    congrArg Host.Outcome.next (State.inMain_of_up h _)
  rw [hexec, ((State.ctl_emits s p.val).trans (State.ackFrames_emits ..)).pump hw]

theorem exec_credit (hw : s.router.waiting = []) (l : List Nat) (n : Nat) :
    exec (.credit p l n) s = .next (s.returnCredits p.val l n).throttle := by
  have hexec : exec (.credit p l n) s = .next (s.returnCredits p.val l n).pump := congrArg Host.Outcome.next (State.inMain_of_up h _)
  rw [hexec, (State.returnCredits_emits ..).pump hw]

theorem exec_nakResend (hnak : (s.lk p.val).nakOut = true) (hlnk : s.lnkState p.val = 2) :
    exec (.nakResend p) s = .next (s.sendNak p.val) := by
  have hexec : exec (.nakResend p) s = .next _ := congrArg Host.Outcome.next (State.inMain_of_up h _)
  rw [hexec, if_pos (by simp [hnak, hlnk])]

theorem exec_ackTimer (hun : 0 < (s.lk p.val).unreported) : exec (.ackTimer p) s = .next (s.sendAck p.val) := by
  have hexec : exec (.ackTimer p) s = .next _ := congrArg Host.Outcome.next (State.inMain_of_up h _)
  rw [hexec, if_pos hun]

theorem exec_pulseTimer (hlnk : s.lnkState p.val = 2) (hdoze : (s.lk p.val).doze < 3) :
    exec (.pulseTimer p) s = .next ((s.control p.val 0x01 [s.pnid, p.val, (s.lk p.val).pulseTx]).updLk p.val fun l =>
      { l with pulseTx := ((s.lk p.val).pulseTx + 1) % 2 ^ 32 }) := by
  have hexec : exec (.pulseTimer p) s = .next _ := congrArg Host.Outcome.next (State.inMain_of_up h _)
  rw [hexec, if_pos (by simp [hlnk, hdoze])]

theorem exec_linkSilence (hlnk : s.lnkState p.val = 2) (hdoze : (s.lk p.val).doze < 3) (hw : s.router.waiting = [])
    (hact : s.activeGlades = []) : exec (.linkSilence p) s = .next (s.silence p.val).throttle := by
  have hexec : exec (.linkSilence p) s = .next _ := congrArg Host.Outcome.next (State.inMain_of_up h _)
  obtain ⟨-, -, hout, -, -⟩ := State.silence_shows p.isLt hact
  rw [hexec, if_pos (by simp [hlnk, hdoze]), hout.pump hw]

section Replay
variable {b : Buffered} (hlnk : s.lnkState p.val = 2) (hdoze : (s.lk p.val).doze = 0) (hreq : (s.lk p.val).reqMask = none)
  (hbuf : (s.lk p.val).buffer = [b]) (hout : b.out = true)
include hlnk hdoze hreq hbuf hout

/-- A NAK replays the frame that it names; at the eighth replay the link trains. -/
theorem exec_nak_single {e : BitVec 16} (hseq : b.seq = e.toNat) : exec (.nak p e) s = .next
    (if 8 ≤ b.replays + 1 then ((s.ctl p.val).replayOne p.val b).train p.val else (s.ctl p.val).replayOne p.val b).pump := by
  have hexec : exec (.nak p e) s = .next (s.nakRow p.val e.toNat).pump := congrArg Host.Outcome.next (State.inMain_of_up h _)
  have hlk := s.lk_ctl p.val
  have hstate : (s.ctl p.val).lnkState p.val = 2 := (State.lnkState_ctl ..).trans hlnk
  have hmay : (s.ctl p.val).mayTransmit p.val = true := State.mayTransmit_of hstate (by rw [hlk]; exact hdoze) (by rw [hlk]; exact hreq)
  rw [hexec, ← State.replayLink_of_single hmay (by rw [hlk]; exact hbuf) hout, hseq]
  unfold State.nakRow
  rw [if_pos hstate]

/-- The timeout replays the oldest frame (R255). -/
theorem exec_replayTimeout_single (hfew : b.replays < 7) : exec (.replayTimeout p) s = .next
    ((s.inc (R.LNK_RETRY p.val) F.LNK_RETRY_TMO).replayOne p.val b).pump := by
  have hexec : exec (.replayTimeout p) s = .next _ := congrArg Host.Outcome.next (State.inMain_of_up h _)
  have hlk := State.lk_inc s (R.LNK_RETRY p.val) F.LNK_RETRY_TMO p.val
  have hne : R.LNK_STATUS p.val ≠ R.LNK_RETRY p.val := by simp [R.LNK_STATUS, R.LNK_RETRY]
  have hmay : (s.inc (R.LNK_RETRY p.val) F.LNK_RETRY_TMO).mayTransmit p.val = true :=
    State.mayTransmit_of ((State.rd_inc_other _ hne _ _).trans hlnk) (by rw [hlk, hdoze]) (by rw [hlk, hreq])
  have hreplay := State.replayLink_of_single hmay (by rw [hlk, hbuf]) hout
  rw [if_neg (by omega)] at hreplay
  rw [hexec]
  simp only [hbuf, hlnk, ne_eq, not_true_eq_false, if_false, hreplay]

end Replay
end Rows

/-- What a replay of the one frame leaves, whoever asks for it (R255). -/
theorem exec_replay_single {s : State} {p : LinkId} {e : BitVec 16} {b : Buffered} {c : Instr} (h : s.up) (hlnk : s.lnkState p.val = 2)
    (hdoze : (s.lk p.val).doze = 0) (hreq : (s.lk p.val).reqMask = none) (hw : s.router.waiting = [])
    (hbuf : (s.lk p.val).buffer = [b]) (hout : b.out = true) (hseq : b.seq = e.toNat) (hfew : b.replays < 7)
    (hc : c = .nak p e ∨ c = .replayTimeout p) :
    ∃ u, exec c s = .next (u.replayOne p.val b).throttle ∧ State.Emits [] s u ∧ s.sameRegsBut [R.LNK_RETRY p.val] u ∧
      u.rd (R.LNK_RETRY p.val) F.LNK_RETRY_REPLAYS = s.rd (R.LNK_RETRY p.val) F.LNK_RETRY_REPLAYS ∧
      (c = .replayTimeout p → u.rd (R.LNK_RETRY p.val) F.LNK_RETRY_TMO =
        min (s.rd (R.LNK_RETRY p.val) F.LNK_RETRY_TMO + 1) (2 ^ F.LNK_RETRY_TMO.width - 1)) := by
  rcases hc with rfl | rfl
  · have hexec := exec_nak_single h hlnk hdoze hreq hbuf hout hseq
    rw [if_neg (by omega), ((State.ctl_emits s p.val).trans (State.replayOne_emits _ p.val b)).pump hw] at hexec
    exact ⟨_, hexec, State.ctl_emits s p.val, (State.sameRegsBut.refl _ s).updLk _ _, State.rd_ctl .., nofun⟩
  · have hexec := exec_replayTimeout_single h hlnk hdoze hreq hbuf hout hfew
    have hinc := (State.Emits.refl s).inc (R.LNK_RETRY p.val) F.LNK_RETRY_TMO
    rw [(hinc.trans (State.replayOne_emits _ p.val b)).pump hw] at hexec
    refine ⟨_, hexec, hinc, (State.sameRegsBut.refl _ s).inc (by simp) _, ?_, fun _ => ?_⟩
    · rw [State.rd_inc_apart _ _ rfl rfl]
    · rw [State.rd_inc_same _ _ rfl]

/-- Settles O48: each row by the state that it answers. -/
theorem linkTraffic : Obligations.LinkTraffic := by
  unfold Obligations.LinkTraffic
  refine ⟨fun s p f n q h hlnk hignoring hresync hw hfirst hany hkind hhcrc hn hpos hmax hfcrc hform hq => ?_,
    fun s p f h hlnk hignoring hresync hw hfirst hkind hhcrc => ?_, fun s p h => ?_, fun s p po n h hvalid hlnk hw => ?_,
    fun s p x po n h hvalid hlnk hw hx hsilent hen hset => ?_, fun s p a h hw => ?_,
    fun s p e b c h hlnk hdoze hreq hw hbuf hout hseq hfew hc => ?_,
    fun s p e b h hlnk hdoze hreq hw hbuf hout hseq hseven hen hset => ?_, fun s p l n h hw => ?_, fun s p h hun => ?_,
    fun s p h hnak hlnk => ?_, fun s p h hlnk hdoze => ?_, fun s p h hlnk hdoze hw hact => ?_⟩
  · have hexec := exec_dataFrame h hlnk hignoring hresync hkind
    have hack := State.lk_ackFrames s p.val (leAt f.bytes 6 2)
    have hkeeps := State.keepsBuffer_takeSeq (s.ackFrames p.val (leAt f.bytes 6 2)) p.val q
    rw [State.dataFrame_of_good hfirst hany hkind hhcrc hn hpos hmax hfcrc hform, ← hq, State.pump_of_router hkeeps.router hw] at hexec
    refine ⟨_, hexec, exec_mem hexec rfl, ?_, fun hnext hfew => ?_, fun hlast => ?_⟩
    · rw [State.lk_throttle, hkeeps.buffer, hack]
      rfl
    · have htake := State.takeSeq_of_next (s := s.ackFrames p.val (leAt f.bytes 6 2)) (p := p.val) (seq := q)
        (by rw [hack]; exact hnext) (by rw [hack]; exact hfew)
      rw [htake, State.lk_throttle, State.takeNext, State.lk_updLk_same, hack]
      refine ⟨rfl, rfl, rfl, rfl, ((State.ackFrames_emits ..).updLk ..).throttle.trans (List.append_nil _), ?_⟩
      exact (State.throttle_regs _).trans ((State.updLk_regs ..).trans (State.ackFrames_regs ..))
    · have htake := State.takeSeq_of_last (s := s.ackFrames p.val (leAt f.bytes 6 2)) (p := p.val) (seq := q)
        (by rw [hack]; exact hlast)
      have hsent := State.sendAck_emits (s.ackFrames p.val (leAt f.bytes 6 2)) p.val
      rw [hack] at hsent
      rw [htake, State.lk_throttle, State.lk_sendAck, hack]
      exact ⟨rfl, hsent.throttle, (State.throttle_regs _).trans (State.sendAck_regs ..)⟩
  · have hexec := exec_dataFrame h hlnk hignoring hresync hkind
    have hout := ((State.Emits.refl s).inc (R.LNK_ERR p.val) F.LNK_ERR_HCRC).trans (State.lostFrame_emits _ p.val)
    have hlk := State.lk_lostFrame (s.inc (R.LNK_ERR p.val) F.LNK_ERR_HCRC) p.val
    have hregs := State.lostFrame_regs (s.inc (R.LNK_ERR p.val) F.LNK_ERR_HCRC) p.val
    rw [State.dataFrame_of_bad_header hfirst hkind hhcrc, hout.pump hw] at hexec
    rw [State.lk_inc] at hout hlk
    refine ⟨_, hexec, ?_, ?_, ?_, hout.throttle, ?_, ?_, exec_mem hexec rfl⟩
    · rw [State.lk_throttle, hlk]
    · rw [State.lk_throttle, hlk]
    · rw [State.lk_throttle, hlk]
    · rw [State.rd_throttle, hregs.rd (by simp [R.LNK_ERR, R.LNK_RETRY]), State.rd_inc_same _ _ rfl]
    · exact (((State.sameRegsBut.refl _ s).inc (by simp) _).trans (hregs.mono (by simp))).throttle
  · have hexec : exec (.idle p) s = .next (s.ctl p.val) := congrArg Host.Outcome.next (State.inMain_of_up h _)
    exact ⟨_, hexec, s.lk_ctl p.val, State.updLk_regs .., State.updLk_sent .., State.updLk_mem ..⟩
  · have hpulse := State.pulse_of_peer hvalid hlnk
    have hout := (State.ctl_emits s p.val).wr (R.LNK_STATUS p.val) F.LNK_STATUS_SILENT 0
    have hexec := exec_pulse h hw (p := p) (s.peer p.val) po n (by rw [hpulse]; exact hout.router)
    rw [hpulse] at hexec
    refine ⟨_, hexec, ?_, ?_, ?_, hout.throttle.trans (List.append_nil _), exec_mem hexec rfl⟩
    · rw [State.rd_throttle, State.rd_wr_same _ _ rfl]
      rfl
    · rw [State.lk_throttle, State.lk_wr, State.lk_ctl]
    · exact ((((State.sameRegsBut.refl _ s).updLk _ _).wr (by simp) _ _)).throttle
  · have hpulse := State.pulse_of_other hvalid hlnk hx hsilent hen hset
    have hout := (State.ctl_emits s p.val).trans (State.startTraining_emits _ p.val)
    have hexec := exec_pulse h hw (p := p) x po n (by rw [hpulse]; exact hout.router)
    rw [hpulse] at hexec
    exact ⟨_, hexec, (State.lnkState_throttle ..).trans (State.lnkState_startTraining ..), exec_mem hexec rfl⟩
  · have hexec := exec_ack (p := p) h hw a
    refine ⟨_, hexec, ?_, (State.throttle_regs _).trans ((State.ackFrames_regs ..).trans (State.ctl_regs ..)),
      ((State.ctl_emits s p.val).trans (State.ackFrames_emits ..)).throttle.trans (List.append_nil _), exec_mem hexec rfl⟩
    rw [State.lk_throttle, State.lk_ackFrames, State.lk_ctl]
    rfl
  · obtain ⟨u, hexec, hout', hregs, hreplays, htmo⟩ := exec_replay_single h hlnk hdoze hreq hw hbuf hout hseq hfew hc
    obtain ⟨hcount, hkept⟩ := u.rd_replayOne p.val b
    have hmem : (mayStore c || startsClearing c) = false := by rcases hc with rfl | rfl <;> rfl
    refine ⟨_, hexec, ?_, ?_, (hout'.trans (u.replayOne_emits p.val b)).throttle, ?_, fun htimeout => ?_,
      (hregs.trans (u.replayOne_regs p.val b)).throttle, exec_mem hexec hmem⟩
    · rw [State.lk_throttle, State.lk_replayOne]
    · rw [State.lk_throttle, State.lk_replayOne]
    · rw [State.rd_throttle, hcount, hreplays]
    · rw [State.rd_throttle, hkept, htmo htimeout]
  · have hexec := exec_nak_single h hlnk hdoze hreq hbuf hout hseq
    have hregs : s.sameRegsBut [R.LNK_RETRY p.val] ((s.ctl p.val).replayOne p.val b) :=
      ((State.sameRegsBut.refl _ s).updLk _ _).trans (State.replayOne_regs _ p.val b)
    have hself : R.RTR_SELF ∉ [R.LNK_RETRY p.val] := by
      simp only [List.mem_singleton]
      unfold R.RTR_SELF R.LNK_RETRY
      omega
    have hemits := ((State.ctl_emits s p.val).trans (State.replayOne_emits _ p.val b)).trans (State.startTraining_emits _ p.val)
    rw [if_pos (by omega), State.train_of_enabled _ ((State.on_congr (hregs.rd (by simp [R.LNK_CTL, R.LNK_RETRY]) _)).trans hen)
      ((State.on_congr (hregs.rd hself _)).trans hset), hemits.pump hw] at hexec
    refine ⟨_, hexec, (State.lnkState_throttle ..).trans (State.lnkState_startTraining ..), ?_, exec_mem hexec rfl⟩
    rw [State.lk_throttle, State.lk_startTraining]
    rfl
  · have hexec := exec_credit (p := p) h hw l n
    obtain ⟨hreserved, hshared⟩ := s.returnCredits_shows p.val l n
    refine ⟨_, hexec, fun v hv => ?_, ?_, (State.throttle_regs _).trans (State.returnCredits_regs ..),
      (State.returnCredits_emits ..).throttle.trans (List.append_nil _), exec_mem hexec rfl⟩
    · rw [State.lk_throttle, hreserved v hv]
    · rw [State.lk_throttle, hshared]
  · have hexec := exec_ackTimer h hun
    exact ⟨_, hexec, (s.sendAck_emits p.val).sent, s.lk_sendAck p.val, s.sendAck_regs p.val, exec_mem hexec rfl⟩
  · have hexec := exec_nakResend h hnak hlnk
    exact ⟨_, hexec, (State.sendNak_emits ..).sent, State.rd_sendNak_naks .., s.sendNak_regs p.val, exec_mem hexec rfl⟩
  · have hexec := exec_pulseTimer h hlnk hdoze
    refine ⟨_, hexec, (((State.Emits.refl s).send _).updLk ..).sent, ?_, (State.updLk_regs ..).trans (State.send_regs ..),
      exec_mem hexec rfl⟩
    rw [State.lk_updLk_same, State.control, State.lk_send]
  · have hexec := exec_linkSilence h hlnk hdoze hw hact
    obtain ⟨hsilent, hregs, hout, -, -⟩ := State.silence_shows p.isLt hact
    exact ⟨_, hexec, (State.rd_throttle ..).trans hsilent, hregs.throttle, hout.throttle.trans (List.append_nil _), exec_mem hexec rfl⟩

end Sys2Proof.Machine
end

section
/-! PROOF. The rows WIDTH_REQ, WIDTH_SWITCH_TIMEOUT, LANE_OFFER_BACK, LOAD_SAMPLE, TRIM_REQ, TRIM_DONE, TRIM_WATCH_END and MARGIN_CHECK
(R259, R260, R266, R267, R420). -/
namespace Sys2Proof.Machine

namespace State
variable {s : State} {p : Nat}

/-! ## Width requests (R259) -/

theorem lk_askWidth (s : State) (p m n : Nat) :
    (s.askWidth p m n).lk p = { s.lk p with switching := true, askedMask := m, widthTries := n } := by
  rw [askWidth, lk_updLk_same, control, lk_send]

theorem askWidth_regs (s : State) (p m n : Nat) : (s.askWidth p m n).regs = s.regs := (updLk_regs ..).trans (send_regs ..)

theorem askWidth_emits (s : State) (p m n : Nat) : Emits [.control p 0x05 [m, n]] s (s.askWidth p m n) :=
  ((Emits.refl s).send _).updLk ..

/-! ## A change of several lanes -/

section Lanes
variable (f : LaneState → LaneState)

theorem lane_each_updLane (j : Nat) (l : List Nat) (hl : l.Nodup) : (((s.each l fun s i => s.updLane p i f).lk p).lane j) =
    if j ∈ l then f ((s.lk p).lane j) else (s.lk p).lane j := by
  induction l generalizing s with
  | nil => rfl
  | cons i l ih =>
    obtain ⟨hi, hl⟩ := List.nodup_cons.mp hl
    have hstep : ((s.updLane p i f).lk p).lane j = if j = i then f ((s.lk p).lane i) else (s.lk p).lane j := by
      rw [updLane, lk_updLk_same]
      exact sget_sset ..
    change (((s.updLane p i f).each l fun s i => s.updLane p i f).lk p).lane j = _
    rw [ih hl, hstep]
    by_cases hj : j = i
    · simp [hj, hi]
    · simp [hj]

/-- Nothing but the lanes of the link changes. -/
theorem each_updLane_keeps (l : List Nat) : (∃ x, (s.each l fun s i => s.updLane p i f).lk p = { s.lk p with lanes := x }) ∧
    (s.each l fun s i => s.updLane p i f).regs = s.regs ∧ Emits [] s (s.each l fun s i => s.updLane p i f) := by
  induction l generalizing s with
  | nil => exact ⟨⟨_, rfl⟩, rfl, Emits.refl s⟩
  | cons i l ih =>
    obtain ⟨⟨x, hx⟩, hregs, hout⟩ := ih (s := s.updLane p i f)
    refine ⟨⟨x, hx.trans ?_⟩, hregs.trans (updLk_regs ..), ((Emits.refl s).updLane ..).trans hout⟩
    rw [updLane, lk_updLk_same]

end Lanes

/-! ## A full relock (R245) -/

/-- Every lane of the link hunts. -/
def huntLanes (s : State) (p : Nat) : State :=
  s.each (List.range 8) fun s i => s.updLane p i fun x => { x with state := 0, candidates := [], badMarkers := 0, history := [] }

theorem fullRelock_eq (s : State) (p : Nat) : s.fullRelock p = ((((s.huntLanes p).updLk p fun l => { l with
    switching := false, ignoring := true, doze := 0, wakeAnswered := false, trimStep := 0, trimQueue := [] }).wr (R.LNK_WIDTH p)
      F.LNK_WIDTH_LOCKED 0).wr (R.LNK_TRIM p) F.LNK_TRIM_BUSY 0).setLnk p 4 := rfl

theorem lk_fullRelock (s : State) (p : Nat) : (s.fullRelock p).lk p = { (s.huntLanes p).lk p with
    switching := false, ignoring := true, doze := 0, wakeAnswered := false, trimStep := 0, trimQueue := [] } := by
  rw [fullRelock_eq, setLnk, lk_wr, lk_wr, lk_wr, lk_updLk_same]

theorem lane_fullRelock (s : State) (p : Nat) {i : Nat} (hi : i < 8) : (((s.fullRelock p).lk p).lane i).state = 0 := by
  have hhunts : ((s.huntLanes p).lk p).lane i = _ := lane_each_updLane _ i _ List.nodup_range
  have hkept : ∀ l : LinkState, LinkState.lane { l with
      switching := false, ignoring := true, doze := 0, wakeAnswered := false, trimStep := 0, trimQueue := [] } i = l.lane i :=
    fun _ => rfl
  rw [lk_fullRelock, hkept, hhunts, if_pos (List.mem_range.mpr hi)]

theorem fullRelock_shows (s : State) (p : Nat) : (s.fullRelock p).lnkState p = 4 ∧ (s.fullRelock p).lockedMask p = 0 := by
  have htrim : R.LNK_WIDTH p ≠ R.LNK_TRIM p := by simp [R.LNK_WIDTH, R.LNK_TRIM]
  have hstatus : R.LNK_WIDTH p ≠ R.LNK_STATUS p := by simp [R.LNK_WIDTH, R.LNK_STATUS]
  refine ⟨rd_wr_same _ _ rfl 4, ?_⟩
  rw [fullRelock_eq, lockedMask, setLnk, rd_wr_other _ hstatus, rd_wr_other _ htrim, rd_wr_same _ _ rfl]
  rfl

theorem fullRelock_regs (s : State) (p : Nat) :
    s.sameRegsBut [R.LNK_WIDTH p, R.LNK_STATUS p, R.LNK_TRIM p] (s.fullRelock p) := by
  obtain ⟨-, hregs, -⟩ := each_updLane_keeps (s := s) (p := p)
    (fun x => { x with state := 0, candidates := [], badMarkers := 0, history := [] }) (List.range 8)
  exact (((((sameRegsBut.refl _ s).of_regs hregs).updLk _ _).wr (by simp) _ _).wr (by simp) _ _).wr (by simp) _ _

theorem fullRelock_emits (s : State) (p : Nat) : Emits [] s (s.fullRelock p) := by
  obtain ⟨-, -, hout⟩ := each_updLane_keeps (s := s) (p := p)
    (fun x => { x with state := 0, candidates := [], badMarkers := 0, history := [] }) (List.range 8)
  exact (((hout.updLk ..).wr ..).wr ..).wr ..

theorem widthReq_of_some {m : Nat} (hlnk : s.lnkState p = 2) (hm : meet m (s.laneMask p) ≠ 0) : s.widthReq p m =
    (s.ctl p).updLk p fun l => { l with reqMask := some (meet m (s.laneMask p)), peerMask := m } := by
  have hlane : (s.ctl p).laneMask p = s.laneMask p := rd_ctl ..
  unfold widthReq
  simp only [hlane, lnkState_ctl, hlnk]
  rw [if_neg (by simp), if_neg hm]

theorem widthReq_of_none {m : Nat} (hlnk : s.lnkState p = 2) (hm : meet m (s.laneMask p) = 0) :
    s.widthReq p m = (s.ctl p).fullRelock p := by
  have hlane : (s.ctl p).laneMask p = s.laneMask p := rd_ctl ..
  unfold widthReq
  simp only [hlane, lnkState_ctl, hlnk]
  rw [if_neg (by simp), if_pos hm]

/-! ## Trims (R266, R267) -/

/-- The busier direction's load of the last 1 ms (R266). -/
def sampleLoad (s : State) (p n : Nat) : State :=
  (s.wr (R.LNK_TRIM p) F.LNK_TRIM_LOAD n).updLk p fun l => { l with atFull := decide (75 ≤ n) }

theorem rd_sampleLoad {n : Nat} (f : Fld) (hf : F.LNK_TRIM_LOAD.apart f = true) (hok : f.ok = true) :
    (s.sampleLoad p n).rd (R.LNK_TRIM p) f = s.rd (R.LNK_TRIM p) f := by
  rw [sampleLoad, rd_updLk, rd_wr_apart _ _ hf hok]

theorem rd_sampleLoad_load {n : Nat} (hn : n ≤ 100) : (s.sampleLoad p n).rd (R.LNK_TRIM p) F.LNK_TRIM_LOAD = n := by
  rw [sampleLoad, rd_updLk, rd_wr_same _ _ rfl]
  exact Nat.mod_eq_of_lt (Nat.lt_of_le_of_lt hn (by decide))

theorem sampleLoad_regs (s : State) (p n : Nat) : s.sameRegsBut [R.LNK_TRIM p] (s.sampleLoad p n) :=
  ((sameRegsBut.refl _ s).wr (by simp) _ _).updLk _ _

theorem sampleLoad_emits (s : State) (p n : Nat) : Emits [] s (s.sampleLoad p n) := ((Emits.refl s).wr ..).updLk ..

theorem lk_sampleLoad (s : State) (p n : Nat) : (s.sampleLoad p n).lk p = { s.lk p with atFull := decide (75 ≤ n) } := by
  rw [sampleLoad, lk_updLk_same, lk_wr]

/-- The next lane of the trims is excluded from the mask. -/
def excludeLane (s : State) (p : Nat) (l : List Nat) : State :=
  (((s.updLk p fun x => { x with trimQueue := x.trimQueue.dropWhile fun i => !bitAt (s.rxMask p) i }).askWidth p (maskOfLanes l) 1)).updLk p
    fun x => { x with trimStep := 1 }

theorem trimNext_of_head {i j : Nat} {q r : List Nat} (hqueue : (s.lk p).trimQueue = i :: q)
    (hlanes : lanesOfMask (s.rxMask p) = i :: j :: r) :
    s.trimNext p = s.excludeLane p (j :: r) ∧ ((s.excludeLane p (j :: r)).lk p).trimQueue = i :: q ∧
      ((s.excludeLane p (j :: r)).lk p).trimStep = 1 := by
  have hbit : bitAt (s.rxMask p) i = true := (mem_lanesOfMask.mp (hlanes ▸ List.mem_cons_self ..)).2
  have hkept : (i :: q).dropWhile (fun i => !bitAt (s.rxMask p) i) = i :: q := List.dropWhile_cons_of_neg (by simp [hbit])
  have hrx : ∀ f, (s.updLk p f).rxMask p = s.rxMask p := fun f => rd_updLk ..
  have hfilter := filter_ne_of_lanesOfMask hlanes
  rw [hlanes] at hfilter
  refine ⟨?_, ?_, ?_⟩
  · unfold trimNext
    simp only [lk_updLk_same, hqueue, hkept, hrx, widthOf, hlanes, hfilter]
    rw [if_neg (by simp)]
    simp only [excludeLane]
  all_goals rw [excludeLane, lk_updLk_same]
  rw [lk_askWidth, lk_updLk_same, hqueue, hkept]

theorem excludeLane_regs (s : State) (p : Nat) (l : List Nat) : (s.excludeLane p l).regs = s.regs :=
  (updLk_regs ..).trans ((askWidth_regs ..).trans (updLk_regs ..))

theorem excludeLane_emits (s : State) (p : Nat) (l : List Nat) : Emits [.control p 0x05 [maskOfLanes l, 1]] s (s.excludeLane p l) :=
  (((Emits.refl s).updLk ..).trans (askWidth_emits ..)).updLk ..

/-- A re-trim starts with its first lane (R267). -/
def beginTrim (s : State) (p : Nat) (l : List Nat) : State := (s.wr (R.LNK_TRIM p) F.LNK_TRIM_BUSY 1).updLk p fun x =>
  { x with trimQueue := l, trimFull := true, trimLoad := s.rd (R.LNK_TRIM p) F.LNK_TRIM_LOAD }

theorem retrim_of_idle {i j : Nat} {r : List Nat} (hlnk : s.lnkState p = 2) (hidle : s.on (R.LNK_TRIM p) F.LNK_TRIM_BUSY = false)
    (hlanes : lanesOfMask (s.rxMask p) = i :: j :: r) : s.retrim p = (s.beginTrim p (i :: j :: r)).trimNext p := by
  unfold retrim startTrim
  rw [if_neg (by simp [hlnk, hidle, widthOf, hlanes]), hlanes]
  rfl

theorem rd_beginTrim (s : State) (p : Nat) (l : List Nat) : (s.beginTrim p l).rd (R.LNK_TRIM p) F.LNK_TRIM_BUSY = 1 := by
  rw [beginTrim, rd_updLk, rd_wr_same _ _ rfl]
  rfl

theorem rxMask_beginTrim (s : State) (p : Nat) (l : List Nat) : (s.beginTrim p l).rxMask p = s.rxMask p :=
  (rd_updLk ..).trans (rd_wr_other _ (by simp [R.LNK_WIDTH, R.LNK_TRIM]) _ _ _)

theorem beginTrim_regs (s : State) (p : Nat) (l : List Nat) : s.sameRegsBut [R.LNK_TRIM p] (s.beginTrim p l) :=
  ((sameRegsBut.refl _ s).wr (by simp) _ _).updLk _ _

theorem beginTrim_emits (s : State) (p : Nat) (l : List Nat) : Emits [] s (s.beginTrim p l) := ((Emits.refl s).wr ..).updLk ..

theorem lk_beginTrim_queue (s : State) (p : Nat) (l : List Nat) : ((s.beginTrim p l).lk p).trimQueue = l := by
  rw [beginTrim, lk_updLk_same]

/-- A lane whose trim made it worse is reverted (R267). -/
def watched (s : State) (p i before after : Nat) : State :=
  if 2 * before < after then (s.send (.lane p "TRIMREVERT" [i])).lnkRecord Sev.warn p (R.LNK_TRIM p) F.LNK_TRIM_BUSY else s

theorem watched_emits (s : State) (p i b a : Nat) :
    Emits (if 2 * b < a then [.lane p "TRIMREVERT" [i]] else []) s (s.watched p i b a) := by
  unfold watched
  split
  · exact ((Emits.refl s).send _).record _
  · exact Emits.refl s

theorem watched_regs (s : State) (p i b a : Nat) : s.sameRegsBut [R.EVR_LOST] (s.watched p i b a) := by
  unfold watched
  split
  · exact ((sameRegsBut.refl _ s).send _).record (by simp) _
  · exact sameRegsBut.refl _ s

/-- The trimmed lane is offered back (R267). -/
def offerTrimmed (s : State) (p i m : Nat) : State :=
  ((s.updLane p i fun x => { x with trimmedAt := if x.pred then some s.now else x.trimmedAt }).askWidth p m 1).updLk p fun l =>
    { l with trimStep := 4 }

theorem lk_offerTrimmed (s : State) (p i m : Nat) :
    ((s.offerTrimmed p i m).lk p).trimStep = 4 ∧ ((s.offerTrimmed p i m).lk p).switching = true := by
  rw [offerTrimmed, lk_updLk_same, lk_askWidth]
  exact ⟨rfl, rfl⟩

theorem offerTrimmed_regs (s : State) (p i m : Nat) : (s.offerTrimmed p i m).regs = s.regs :=
  (updLk_regs ..).trans ((askWidth_regs ..).trans (updLk_regs ..))

theorem offerTrimmed_emits (s : State) (p i m : Nat) : Emits [.control p 0x05 [m, 1]] s (s.offerTrimmed p i m) :=
  (((Emits.refl s).updLane ..).trans (askWidth_emits ..)).updLk ..

/-! ## Margins (R419, R420) -/

section Margins
variable (i n w e4 e8 e12 : Nat)

/-- The second's counts of a lane join its margin registers. -/
def countMargins (s : State) (p i n w e4 e8 e12 : Nat) : State :=
  (((((((s.add (R.LNK_FEC p) F.LNK_FEC_CORR n).add (R.LNK_LMARG p i) F.LNK_LMARG_CORR n).raise (R.LNK_LMARG p i) F.LNK_LMARG_WORST
    (min w 15)).add (R.LNK_LHIST p i) F.LNK_LHIST_E4 e4).add (R.LNK_LHIST p i) F.LNK_LHIST_E8 e8).add (R.LNK_LHIST p i)
      F.LNK_LHIST_E12 e12).updLane p i fun x => { x with uncs := 0 })

/-- A field of the margin register after the counts: those of the history lie in another register. -/
theorem rd_countMargins (f : Fld) :
    (s.countMargins p i n w e4 e8 e12).rd (R.LNK_LMARG p i) f =
      (((s.add (R.LNK_FEC p) F.LNK_FEC_CORR n).add (R.LNK_LMARG p i) F.LNK_LMARG_CORR n).raise (R.LNK_LMARG p i) F.LNK_LMARG_WORST
        (min w 15)).rd (R.LNK_LMARG p i) f := by
  have hhist : R.LNK_LMARG p i ≠ R.LNK_LHIST p i := by simp [R.LNK_LMARG, R.LNK_LHIST]
  rw [countMargins, updLane, rd_updLk, rd_add_other _ hhist, rd_add_other _ hhist, rd_add_other _ hhist]

theorem countMargins_shows (hfec : R.LNK_LMARG p i ≠ R.LNK_FEC p) :
    (s.countMargins p i n w e4 e8 e12).rd (R.LNK_LMARG p i) F.LNK_LMARG_CORR =
        min (s.rd (R.LNK_LMARG p i) F.LNK_LMARG_CORR + n) (2 ^ F.LNK_LMARG_CORR.width - 1) ∧
      (s.countMargins p i n w e4 e8 e12).rd (R.LNK_LMARG p i) F.LNK_LMARG_WORST =
        max (s.rd (R.LNK_LMARG p i) F.LNK_LMARG_WORST) (min w 15) ∧
      (s.countMargins p i n w e4 e8 e12).rd (R.LNK_LMARG p i) F.LNK_LMARG_PRED = s.rd (R.LNK_LMARG p i) F.LNK_LMARG_PRED := by
  simp only [rd_countMargins i n w e4 e8 e12]
  refine ⟨?_, ?_, ?_⟩
  · rw [raise, rd_wr_apart _ _ rfl rfl, rd_add_same _ _ rfl, rd_add_other _ hfec]
  · have hlt := rd_lt s (R.LNK_LMARG p i) F.LNK_LMARG_WORST
    have hwidth : 2 ^ F.LNK_LMARG_WORST.width = 16 := rfl
    rw [raise, rd_wr_same _ _ rfl, add, rd_wr_apart _ _ rfl rfl, rd_add_other _ hfec, hwidth]
    omega
  · rw [raise, rd_wr_apart _ _ rfl rfl, add, rd_wr_apart _ _ rfl rfl, rd_add_other _ hfec]

theorem countMargins_regs (s : State) (p : Nat) :
    s.sameRegsBut [R.LNK_FEC p, R.LNK_LMARG p i, R.LNK_LHIST p i, R.EVR_LOST] (s.countMargins p i n w e4 e8 e12) := by
  have hmargins : s.sameRegsBut [R.LNK_FEC p, R.LNK_LMARG p i, R.LNK_LHIST p i, R.EVR_LOST] (((s.add (R.LNK_FEC p) F.LNK_FEC_CORR n).add
      (R.LNK_LMARG p i) F.LNK_LMARG_CORR n).raise (R.LNK_LMARG p i) F.LNK_LMARG_WORST (min w 15)) :=
    (((sameRegsBut.refl _ s).add (by simp) _ _).add (by simp) _ _).wr (by simp) _ _
  exact (((hmargins.add (by simp) _ _).add (by simp) _ _).add (by simp) _ _).updLane _ _ _

theorem countMargins_emits (s : State) (p : Nat) : Emits [] s (s.countMargins p i n w e4 e8 e12) :=
  (((((((Emits.refl s).add ..).add ..).wr ..).add ..).add ..).add ..).updLane ..

/-- A lane beyond a threshold sets PRED, with a Warn record. -/
def setPred (s : State) (p i : Nat) : State :=
  (s.wr (R.LNK_LMARG p i) F.LNK_LMARG_PRED 1).lnkRecord Sev.warn p (R.LNK_LMARG p i) F.LNK_LMARG_PRED

/-- Whether 1 s has not passed since the lane's trim. -/
def trimmedSoon (s : State) (x : LaneState) : Bool :=
  match x.trimmedAt with
  | some t => decide (s.now ≤ t + 1000000)
  | none => false

/-- Within 1 s of the lane's trim that is a Fault record too. -/
def notePred (s : State) (p i : Nat) (soon : Bool) : State :=
  (if soon then (s.setPred p i).lnkRecord Sev.fault p (R.LNK_LMARG p i) F.LNK_LMARG_PRED else s.setPred p i).updLane p i fun x =>
    { x with pred := true, trimmedAt := none }

variable {i}

theorem rd_notePred (hlost : R.LNK_LMARG p i ≠ R.EVR_LOST) (soon : Bool) (f : Fld) : (s.notePred p i soon).rd (R.LNK_LMARG p i) f =
    (s.wr (R.LNK_LMARG p i) F.LNK_LMARG_PRED 1).rd (R.LNK_LMARG p i) f := by
  have hset : (s.setPred p i).rd (R.LNK_LMARG p i) f = (s.wr (R.LNK_LMARG p i) F.LNK_LMARG_PRED 1).rd (R.LNK_LMARG p i) f :=
    rd_record _ _ hlost f
  rw [notePred, updLane, rd_updLk]
  split
  · rw [lnkRecord, rd_record _ _ hlost, hset]
  · exact hset

theorem notePred_regs (s : State) (p i : Nat) (soon : Bool) : s.sameRegsBut [R.LNK_LMARG p i, R.EVR_LOST] (s.notePred p i soon) := by
  have hset : s.sameRegsBut [R.LNK_LMARG p i, R.EVR_LOST] (s.setPred p i) := ((sameRegsBut.refl _ s).wr (by simp) _ _).record (by simp) _
  refine sameRegsBut.updLane ?_ _ _ _
  split
  · exact hset.record (by simp) _
  · exact hset

theorem notePred_emits (s : State) (p i : Nat) (soon : Bool) : Emits [] s (s.notePred p i soon) := by
  have hset : Emits [] s (s.setPred p i) := ((Emits.refl s).wr ..).record _
  refine Emits.updLane ?_ ..
  split
  · exact hset.record _
  · exact hset

end Margins
end State

/-! ## The rows -/

/-- The registers that a margin check changes are neither the thresholds nor the controls. -/
theorem tstMthr_not_margins (p : LinkId) (i : LaneId) :
    R.TST_MTHR ∉ [R.LNK_FEC p.val, R.LNK_LMARG p.val i.val, R.LNK_LHIST p.val i.val, R.EVR_LOST] := by
  simp only [List.mem_cons, List.not_mem_nil, or_false]
  unfold R.TST_MTHR R.LNK_FEC R.LNK_LMARG R.LNK_LHIST R.EVR_LOST
  omega

theorem lnkCtl_not_margins (p : LinkId) (i : LaneId) :
    R.LNK_CTL p.val ∉ [R.LNK_FEC p.val, R.LNK_LMARG p.val i.val, R.LNK_LHIST p.val i.val, R.EVR_LOST] := by
  simp only [List.mem_cons, List.not_mem_nil, or_false]
  unfold R.LNK_CTL R.LNK_FEC R.LNK_LMARG R.LNK_LHIST R.EVR_LOST
  omega

theorem lnkLmarg_ne_lnkFec (p : LinkId) (i : LaneId) : R.LNK_LMARG p.val i.val ≠ R.LNK_FEC p.val := by
  unfold R.LNK_LMARG R.LNK_FEC
  omega

theorem lnkLmarg_ne_lost (p : LinkId) (i : LaneId) : R.LNK_LMARG p.val i.val ≠ R.EVR_LOST :=
  ne_evrLost_of_lt (by unfold R.LNK_LMARG; omega)

section Rows
variable {s : State} {p : LinkId} (h : s.up)
include h

theorem exec_widthReq (m : Byte) (n : Nat) : exec (.widthReq p m n) s = .next (s.widthReq p.val m.toNat) :=
  congrArg Host.Outcome.next (State.inMain_of_up h _)

theorem exec_widthSwitchTimeout_again (hsw : (s.lk p.val).switching = true) (htries : (s.lk p.val).widthTries ≤ 4) :
    exec (.widthSwitchTimeout p) s = .next (s.askWidth p.val (s.lk p.val).askedMask ((s.lk p.val).widthTries + 1)) := by
  have hexec : exec (.widthSwitchTimeout p) s = .next _ := congrArg Host.Outcome.next (State.inMain_of_up h _)
  rw [hexec, if_neg (by simp [hsw]), if_pos htries]

theorem exec_widthSwitchTimeout_train (hsw : (s.lk p.val).switching = true) (htries : 4 < (s.lk p.val).widthTries) :
    exec (.widthSwitchTimeout p) s = .next (s.train p.val) := by
  have hexec : exec (.widthSwitchTimeout p) s = .next _ := congrArg Host.Outcome.next (State.inMain_of_up h _)
  rw [hexec, if_neg (by simp [hsw]), if_neg (by omega)]

theorem exec_laneOfferBack {i : LaneId} (hlnk : s.lnkState p.val = 2) (hdoze : (s.lk p.val).doze = 0)
    (hsw : (s.lk p.val).switching = false) (hstep : (s.lk p.val).trimStep = 0) (hlocked : bitAt (s.lockedMask p.val) i.val = true)
    (hlane : bitAt (s.laneMask p.val) i.val = true) (hrx : bitAt (s.rxMask p.val) i.val = false)
    (hsoon : ∀ w, (s.lk p.val).widenedAt = some w → w + 100000 ≤ s.now) :
    exec (.laneOfferBack p i) s = .next (s.askWidth p.val (maskOfLanes (i.val :: lanesOfMask (s.rxMask p.val))) 1) := by
  have hexec : exec (.laneOfferBack p i) s = .next _ := congrArg Host.Outcome.next (State.inMain_of_up h _)
  rw [hexec, if_pos]
  cases hwidened : (s.lk p.val).widenedAt with
  | none => simp [hlnk, hdoze, hsw, hstep, hlocked, hlane, hrx]
  | some w => simp [hlnk, hdoze, hsw, hstep, hlocked, hlane, hrx, hsoon w hwidened]

/-- The load of the last 1 ms is kept, and entering full load with a low LASTLOAD sets DUE. -/
theorem exec_loadSample {a b c d n : Nat} (hlnk : s.lnkState p.val = 2) (hauto : s.on (R.LNK_CTL p.val) F.LNK_CTL_TRIMAUTO = false)
    (hn : n = min 100 (max (100 * b / max 1 a) (100 * d / max 1 c))) : exec (.loadSample p a b c d) s = .next
      (if 75 ≤ n ∧ (s.lk p.val).atFull = false ∧ s.rd (R.LNK_TRIM p.val) F.LNK_TRIM_LASTLOAD < 75
        then (s.sampleLoad p.val n).wr (R.LNK_TRIM p.val) F.LNK_TRIM_DUE 1 else s.sampleLoad p.val n) := by
  have hexec : exec (.loadSample p a b c d) s = .next _ := congrArg Host.Outcome.next (State.inMain_of_up h _)
  have hlast := State.rd_sampleLoad (s := s) (p := p.val) (n := n) F.LNK_TRIM_LASTLOAD rfl rfl
  have hoff : ((s.sampleLoad p.val n).wr (R.LNK_TRIM p.val) F.LNK_TRIM_DUE 1).on (R.LNK_CTL p.val) F.LNK_CTL_TRIMAUTO = false :=
    (State.on_congr (((s.sampleLoad_regs p.val n).wr (by simp) _ _).rd (by simp [R.LNK_CTL, R.LNK_TRIM]) _)).trans hauto
  rw [hexec, if_neg (by simp [hlnk])]
  dsimp only
  rw [← hn]
  change Host.Outcome.next (if (decide (75 ≤ n) && !(s.lk p.val).atFull &&
      decide ((s.sampleLoad p.val n).rd (R.LNK_TRIM p.val) F.LNK_TRIM_LASTLOAD < 75)) = true then
    (if ((s.sampleLoad p.val n).wr (R.LNK_TRIM p.val) F.LNK_TRIM_DUE 1).on (R.LNK_CTL p.val) F.LNK_CTL_TRIMAUTO = true then _
      else (s.sampleLoad p.val n).wr (R.LNK_TRIM p.val) F.LNK_TRIM_DUE 1) else s.sampleLoad p.val n) = _
  rw [hlast, hoff]
  simp only [Bool.and_eq_true, decide_eq_true_eq, Bool.not_eq_true', and_assoc, Bool.false_eq_true, if_false]

theorem exec_trimReq {i j : Nat} {r : List Nat} (hlnk : s.lnkState p.val = 2)
    (hidle : s.on (R.LNK_TRIM p.val) F.LNK_TRIM_BUSY = false) (hlanes : lanesOfMask (s.rxMask p.val) = i :: j :: r) :
    exec (.trimReq p) s = .next ((s.beginTrim p.val (i :: j :: r)).excludeLane p.val (j :: r)) := by
  have hexec : exec (.trimReq p) s = .next (s.retrim p.val) := congrArg Host.Outcome.next (State.inMain_of_up h _)
  obtain ⟨hnext, -, -⟩ := State.trimNext_of_head (s.lk_beginTrim_queue p.val (i :: j :: r))
    ((congrArg lanesOfMask (s.rxMask_beginTrim ..)).trans hlanes)
  rw [hexec, State.retrim_of_idle hlnk hidle hlanes, hnext]

theorem exec_trimDone_active (hlnk : s.lnkState p.val = 2) (hstep : (s.lk p.val).trimStep = 2) :
    exec (.trimDone p) s = .next (s.updLk p.val fun l => { l with trimStep := 3 }) := by
  have hexec : exec (.trimDone p) s = .next _ := congrArg Host.Outcome.next (State.inMain_of_up h _)
  rw [hexec, if_neg (by simp [hstep]), if_neg (by simp [hlnk])]

theorem exec_trimWatchEnd {i : Nat} {r : List Nat} (hstep : (s.lk p.val).trimStep = 3) (hqueue : (s.lk p.val).trimQueue = i :: r)
    (b a : Nat) : exec (.trimWatchEnd p b a) s = .next
      ((s.watched p.val i b a).offerTrimmed p.val i (maskOfLanes (i :: lanesOfMask (s.rxMask p.val)))) := by
  have hexec : exec (.trimWatchEnd p b a) s = .next _ := congrArg Host.Outcome.next (State.inMain_of_up h _)
  have hrx : ((s.watched p.val i b a).updLane p.val i fun x =>
      { x with trimmedAt := if x.pred then some (s.watched p.val i b a).now else x.trimmedAt }).rxMask p.val = s.rxMask p.val :=
    (State.rd_updLk ..).trans ((s.watched_regs p.val i b a).rd (by simpa using lnkWidth_ne_lost p.isLt) _)
  rw [hexec]
  simp only [hstep, hqueue]
  rw [State.offerTrimmed, ← hrx]
  rfl

theorem exec_marginCheck {i : LaneId} (n w e4 e8 e12 : Nat) (hrx : bitAt (s.rxMask p.val) i.val = true)
    (hauto : s.on (R.LNK_CTL p.val) F.LNK_CTL_TRIMAUTO = false) : ∃ soon, exec (.marginCheck p i n w e4 e8 e12) s = .next
      (if n ≤ 65536 * s.rd R.TST_MTHR F.TST_MTHR_CTHR ∧ e12 + ((s.lk p.val).lane i.val).uncs ≤ s.rd R.TST_MTHR F.TST_MTHR_TTHR
        then s.countMargins p.val i.val n w e4 e8 e12
        else (s.countMargins p.val i.val n w e4 e8 e12).notePred p.val i.val soon) := by
  have hexec : exec (.marginCheck p i n w e4 e8 e12) s = .next _ := congrArg Host.Outcome.next (State.inMain_of_up h _)
  have hcounts := State.countMargins_regs i.val n w e4 e8 e12 s p.val
  have hlimit : ∀ f, (s.countMargins p.val i.val n w e4 e8 e12).rd R.TST_MTHR f = s.rd R.TST_MTHR f :=
    hcounts.rd (tstMthr_not_margins p i)
  have hoff : ∀ soon, ((s.countMargins p.val i.val n w e4 e8 e12).notePred p.val i.val soon).on (R.LNK_CTL p.val) F.LNK_CTL_TRIMAUTO =
      false := fun soon =>
    (State.on_congr ((hcounts.trans ((State.notePred_regs _ p.val i.val soon).mono (by simp))).rd (lnkCtl_not_margins p i) _)).trans hauto
  refine ⟨(s.countMargins p.val i.val n w e4 e8 e12).trimmedSoon ((s.lk p.val).lane i.val), hexec.trans ?_⟩
  rw [if_neg (by simp [hrx])]
  change Host.Outcome.next (if (decide (n ≤ 65536 * (s.countMargins p.val i.val n w e4 e8 e12).rd R.TST_MTHR F.TST_MTHR_CTHR) &&
      decide (e12 + ((s.lk p.val).lane i.val).uncs ≤ (s.countMargins p.val i.val n w e4 e8 e12).rd R.TST_MTHR F.TST_MTHR_TTHR)) = true
    then s.countMargins p.val i.val n w e4 e8 e12
    else if (!((s.countMargins p.val i.val n w e4 e8 e12).notePred p.val i.val _).on (R.LNK_CTL p.val) F.LNK_CTL_TRIMAUTO) = true
      then (s.countMargins p.val i.val n w e4 e8 e12).notePred p.val i.val _ else _) = _
  rw [hoff]
  simp only [hlimit, Bool.and_eq_true, decide_eq_true_eq, Bool.not_false, if_true]
  rfl

end Rows

/-- Settles O49: each row by the state that it answers. -/
theorem linkWidthAndTrims : Obligations.LinkWidthAndTrims := by
  unfold Obligations.LinkWidthAndTrims
  refine ⟨fun s p m n h hlnk hm => ?_, fun s p m n h hlnk hm => ?_, fun s p h hsw htries => ?_,
    fun s p h hsw htries hen hset => ?_, fun s p i h hlnk hdoze hsw hstep hlocked hlane hrx hsoon => ?_,
    fun s p a b c d n h hlnk hauto hn => ?_, fun s p i j r h hlnk hidle hlanes => ?_, fun s p h hlnk hstep => ?_,
    fun s p b a i r h hstep hqueue => ?_, fun s p i n w e4 e8 e12 h hrx hauto => ?_⟩
  · have hexec := exec_widthReq (p := p) h m n
    rw [State.widthReq_of_some hlnk hm] at hexec
    refine ⟨_, hexec, ?_, (State.updLk_regs ..).trans (State.ctl_regs ..),
      ((State.ctl_emits ..).updLk ..).sent.trans (List.append_nil _), exec_mem hexec rfl⟩
    rw [State.lk_updLk_same, State.lk_ctl]
  · have hexec := exec_widthReq (p := p) h m n
    rw [State.widthReq_of_none hlnk hm] at hexec
    obtain ⟨hstate, hlocked⟩ := (s.ctl p.val).fullRelock_shows p.val
    refine ⟨_, hexec, hstate, hlocked, by rw [State.lk_fullRelock], fun i hi => State.lane_fullRelock _ _ hi,
      ((State.sameRegsBut.refl _ s).of_regs (State.ctl_regs ..)).trans (State.fullRelock_regs _ p.val),
      ((State.ctl_emits ..).trans (State.fullRelock_emits ..)).sent.trans (List.append_nil _), exec_mem hexec rfl⟩
  · have hexec := exec_widthSwitchTimeout_again h hsw htries
    exact ⟨_, hexec, (s.askWidth_emits ..).sent, by rw [State.lk_askWidth], State.askWidth_regs .., exec_mem hexec rfl⟩
  · have hexec := exec_widthSwitchTimeout_train h hsw htries
    rw [State.train_of_enabled _ hen hset] at hexec
    exact ⟨_, hexec, State.lnkState_startTraining .., exec_mem hexec rfl⟩
  · have hexec := exec_laneOfferBack h hlnk hdoze hsw hstep hlocked hlane hrx hsoon
    exact ⟨_, hexec, (s.askWidth_emits ..).sent, by rw [State.lk_askWidth], State.askWidth_regs .., exec_mem hexec rfl⟩
  · have hexec := exec_loadSample h hlnk hauto hn
    have hload := State.rd_sampleLoad_load (s := s) (p := p.val) (n := n) (hn ▸ Nat.min_le_left ..)
    have hdue := State.rd_sampleLoad (s := s) (p := p.val) (n := n) F.LNK_TRIM_DUE rfl rfl
    have hfull := congrArg LinkState.atFull (s.lk_sampleLoad p.val n)
    have hregs := s.sampleLoad_regs p.val n
    refine ⟨_, hexec, ?_⟩
    by_cases hdo : 75 ≤ n ∧ (s.lk p.val).atFull = false ∧ s.rd (R.LNK_TRIM p.val) F.LNK_TRIM_LASTLOAD < 75
    · rw [if_pos hdo] at hexec ⊢
      rw [if_pos hdo, State.rd_wr_apart _ _ rfl rfl, State.rd_wr_same _ _ rfl, State.lk_wr]
      exact ⟨hload, hfull, rfl, hregs.wr (by simp) _ _,
        ((s.sampleLoad_emits ..).wr ..).sent.trans (List.append_nil _), exec_mem hexec rfl⟩
    · rw [if_neg hdo] at hexec ⊢
      rw [if_neg hdo]
      exact ⟨hload, hfull, hdue, hregs, (s.sampleLoad_emits ..).sent.trans (List.append_nil _), exec_mem hexec rfl⟩
  · have hexec := exec_trimReq h hlnk hidle hlanes
    obtain ⟨-, hqueue, hstep⟩ := State.trimNext_of_head (s.lk_beginTrim_queue p.val (i :: j :: r))
      ((congrArg lanesOfMask (s.rxMask_beginTrim ..)).trans hlanes)
    have hregs := State.excludeLane_regs (s.beginTrim p.val (i :: j :: r)) p.val (j :: r)
    exact ⟨_, hexec, (State.rd_congr hregs ..).trans (s.rd_beginTrim ..), hstep, hqueue,
      ((s.beginTrim_emits ..).trans (State.excludeLane_emits ..)).sent, (s.beginTrim_regs p.val _).of_regs hregs, exec_mem hexec rfl⟩
  · have hexec := exec_trimDone_active h hlnk hstep
    exact ⟨_, hexec, State.lk_updLk_same .., State.updLk_regs .., State.updLk_sent .., exec_mem hexec rfl⟩
  · have hexec := exec_trimWatchEnd h hstep hqueue b a
    obtain ⟨hfour, hsw⟩ := State.lk_offerTrimmed (s.watched p.val i b a) p.val i (maskOfLanes (i :: lanesOfMask (s.rxMask p.val)))
    exact ⟨_, hexec, hfour, hsw, ((s.watched_emits ..).trans (State.offerTrimmed_emits ..)).sent.trans (List.append_assoc ..).symm,
      (s.watched_regs p.val i b a).of_regs (State.offerTrimmed_regs ..), exec_mem hexec rfl⟩
  · obtain ⟨soon, hexec⟩ := exec_marginCheck h n w e4 e8 e12 hrx hauto
    obtain ⟨hcorr, hworst, hpred⟩ := State.countMargins_shows (s := s) i.val n w e4 e8 e12 (lnkLmarg_ne_lnkFec p i)
    have hregs := State.countMargins_regs i.val n w e4 e8 e12 s p.val
    have hnote := State.rd_notePred (s := s.countMargins p.val i.val n w e4 e8 e12) (lnkLmarg_ne_lost p i) soon
    refine ⟨_, hexec, ?_⟩
    by_cases hok : n ≤ 65536 * s.rd R.TST_MTHR F.TST_MTHR_CTHR ∧
        e12 + ((s.lk p.val).lane i.val).uncs ≤ s.rd R.TST_MTHR F.TST_MTHR_TTHR
    · rw [if_pos hok] at hexec ⊢
      rw [if_pos hok]
      exact ⟨hcorr, hworst, hpred, hregs, (State.countMargins_emits ..).sent.trans (List.append_nil _), exec_mem hexec rfl⟩
    · rw [if_neg hok] at hexec ⊢
      rw [if_neg hok, hnote, hnote, hnote, State.rd_wr_apart _ _ rfl rfl, State.rd_wr_apart _ _ rfl rfl, State.rd_wr_same _ _ rfl]
      exact ⟨hcorr, hworst, rfl, hregs.trans ((State.notePred_regs _ p.val i.val soon).mono (by simp)),
        ((State.countMargins_emits ..).trans (State.notePred_emits ..)).sent.trans (List.append_nil _), exec_mem hexec rfl⟩

end Sys2Proof.Machine
end

section
/-! PROOF. The rows DOZE_IDLE, DOZE_REQ, DOZE_ACK, DOZE_CANCEL, DOZE_REQ_TIMEOUT, SIGNAL_LOSS, WAKE_BURST, SIGNAL_DETECT,
FAST_RELOCK_TIMEOUT, BEACON_TIMER, LINK_BEACON, BEACON_TIMEOUT and WAKE_TIMEOUT (R261 to R264). -/
namespace Sys2Proof.Machine

namespace State
variable {s : State} {p : Nat}

/-! ## Into doze (R261, R262) -/

/-- A control block does not change the conditions for doze. -/
theorem dozeReady_ctl (s : State) (p : Nat) : (s.ctl p).dozeReady p = s.dozeReady p := by
  have hon : ∀ a f, (s.ctl p).on a f = s.on a f := fun a f => on_congr (rd_ctl ..)
  have hrouter : (s.ctl p).router = s.router := updLk_router ..
  simp only [dozeReady, hon, lnkState_ctl, lk_ctl, hrouter]

theorem lk_txIdle (s : State) (p : Nat) : (s.txIdle p).lk p = { s.lk p with doze := 3 } := by
  rw [txIdle, lk_updLk_same, lk_send]

theorem txIdle_regs (s : State) (p : Nat) : (s.txIdle p).regs = s.regs := (updLk_regs ..).trans (send_regs ..)

theorem txIdle_emits (s : State) (p : Nat) : Emits [.lane p "TXIDLE" [1]] s (s.txIdle p) := ((Emits.refl s).send _).updLk ..

/-- Crossing requests are each other's answer (R261). -/
theorem dozeReq_of_asked (hdoze : (s.lk p).doze = 1) : s.dozeReq p = (s.ctl p).txIdle p := by
  unfold dozeReq
  exact if_pos (by rw [lk_ctl]; exact hdoze)

theorem dozeAck_of_asked (hdoze : (s.lk p).doze = 1) : s.dozeAck p = (s.ctl p).txIdle p := by
  unfold dozeAck
  exact if_pos (by rw [lk_ctl]; exact hdoze)

/-- DOZE_ACK and two IDLE blocks go out. -/
def answerDoze (s : State) (p : Nat) : State :=
  (((s.control p 0x07).control p 0x00).control p 0x00).updLk p fun l => { l with doze := 2 }

theorem lk_answerDoze (s : State) (p : Nat) : (s.answerDoze p).lk p = { s.lk p with doze := 2 } := by
  rw [answerDoze, lk_updLk_same, control, control, control, lk_send, lk_send, lk_send]

theorem answerDoze_regs (s : State) (p : Nat) : (s.answerDoze p).regs = s.regs :=
  (updLk_regs ..).trans ((send_regs ..).trans ((send_regs ..).trans (send_regs ..)))

theorem answerDoze_emits (s : State) (p : Nat) :
    Emits [.control p 0x07 [], .control p 0x00 [], .control p 0x00 []] s (s.answerDoze p) :=
  ((((Emits.refl s).send _).send _).send _).updLk ..

theorem dozeReq_of_ready (hready : s.dozeReady p = true) (hdoze : (s.lk p).doze = 0)
    (hidle : (s.lk p).lastData + s.rd (R.LNK_DOZE p) F.LNK_DOZE_IDLE ≤ s.now) : s.dozeReq p = (s.ctl p).answerDoze p := by
  have hnow : (s.ctl p).now = s.now := rd_ctl ..
  unfold dozeReq
  simp only [lk_ctl, dozeReady_ctl, rd_ctl, hnow, hready, hdoze]
  rw [if_neg (by simp), if_pos (by simpa using hidle)]
  rfl

theorem dozeReq_of_not_ready (hready : s.dozeReady p = false) (hdoze : (s.lk p).doze = 0) (hlnk : s.lnkState p = 2) :
    s.dozeReq p = (s.ctl p).control p 0x08 := by
  unfold dozeReq
  simp only [lk_ctl, dozeReady_ctl, lnkState_ctl, hready, hdoze, hlnk]
  rw [if_neg (by simp), if_neg (by simp), if_pos (by simp)]

/-- The side stays active, with nothing to send. -/
def stayActive (s : State) (p : Nat) : State := s.updLk p fun l => { l with doze := 0 }

theorem flush_stayActive (hbuf : (s.lk p).buffer = []) : (s.stayActive p).flush p = s.stayActive p :=
  flush_of_buffer_nil _ (by rw [stayActive, lk_updLk_same]; exact hbuf)

theorem doze_stayActive (s : State) (p : Nat) : ((s.stayActive p).lk p).doze = 0 := by rw [stayActive, lk_updLk_same]

theorem dozeCancel_of_handshake (hbuf : (s.lk p).buffer = []) (hdoze : (s.lk p).doze = 1 ∨ (s.lk p).doze = 2) :
    s.dozeCancel p = (s.ctl p).stayActive p := by
  have hflush := flush_stayActive (s := s.ctl p) (p := p) (by rw [lk_ctl]; exact hbuf)
  unfold dozeCancel
  simp only [lk_ctl]
  rw [if_pos (by rcases hdoze with h | h <;> simp [h]), if_neg (by rcases hdoze with h | h <;> simp [h])]
  exact hflush

/-- The partner's signal has fallen: the link is in doze (R261). -/
def dozeOff (s : State) (p : Nat) : State := ((s.setLnk p 3).inc (R.LNK_DOZE p) F.LNK_DOZE_DOZES).updLk p fun l =>
  { l with doze := 4, anchor := none, slips := [], slipWarned := false }

theorem lk_dozeOff (s : State) (p : Nat) :
    (s.dozeOff p).lk p = { s.lk p with doze := 4, anchor := none, slips := [], slipWarned := false } := by
  rw [dozeOff, lk_updLk_same, lk_inc, setLnk, lk_wr]

theorem dozeOff_shows (s : State) (p : Nat) : (s.dozeOff p).lnkState p = 3 ∧ (s.dozeOff p).rd (R.LNK_DOZE p) F.LNK_DOZE_DOZES =
    min (s.rd (R.LNK_DOZE p) F.LNK_DOZE_DOZES + 1) (2 ^ F.LNK_DOZE_DOZES.width - 1) := by
  have hne : R.LNK_STATUS p ≠ R.LNK_DOZE p := by simp [R.LNK_STATUS, R.LNK_DOZE]
  unfold dozeOff setLnk lnkState
  simp only [rd_updLk]
  constructor
  · rw [rd_inc_other _ hne, rd_wr_same _ _ rfl]
    rfl
  · rw [rd_inc_same _ _ rfl, rd_wr_other _ hne.symm]

theorem dozeOff_regs (s : State) (p : Nat) : s.sameRegsBut [R.LNK_STATUS p, R.LNK_DOZE p] (s.dozeOff p) :=
  (((sameRegsBut.refl _ s).wr (by simp) _ _).inc (by simp) _).updLk _ _

theorem dozeOff_emits (s : State) (p : Nat) : Emits [] s (s.dozeOff p) := (((Emits.refl s).wr ..).inc ..).updLk ..

/-! ## Wake (R263, R264) -/

/-- The lanes of a mask wait for the partner's first marker. -/
def awaitLanes (s : State) (p : Nat) (l : List Nat) : State :=
  s.each l fun s i => s.updLane p i fun x => { x with state := 2, badMarkers := 0, candidates := [] }

theorem wakeLink_eq (s : State) (p : Nat) : s.wakeLink p =
    ((((s.send (.lane p "WAKE" [(s.lk p).cntTx])).awaitLanes p (lanesOfMask (s.rxMask p))).wr (R.LNK_WIDTH p)
      F.LNK_WIDTH_LOCKED 0).updLk p fun l => { l with doze := 5, wakeFirst := true, wakeAnswered := false }) := by
  have hrx : (s.send (.lane p "WAKE" [(s.lk p).cntTx])).rxMask p = s.rxMask p := rd_send ..
  rw [← hrx]
  rfl

theorem lk_wakeLink (s : State) (p : Nat) : (s.wakeLink p).lk p =
    { ((s.send (.lane p "WAKE" [(s.lk p).cntTx])).awaitLanes p (lanesOfMask (s.rxMask p))).lk p with
      doze := 5, wakeFirst := true, wakeAnswered := false } := by
  rw [wakeLink_eq, lk_updLk_same, lk_wr]

theorem lane_wakeLink (s : State) (p : Nat) {i : Nat} (hi : i < 8) (hrx : bitAt (s.rxMask p) i = true) :
    (((s.wakeLink p).lk p).lane i).state = 2 := by
  have hawaits := lane_each_updLane (s := s.send (.lane p "WAKE" [(s.lk p).cntTx])) (p := p)
    (fun x => { x with state := 2, badMarkers := 0, candidates := [] }) i _ (lanesOfMask_nodup (s.rxMask p))
  have hkept : ∀ l : LinkState, LinkState.lane { l with doze := 5, wakeFirst := true, wakeAnswered := false } i = l.lane i :=
    fun _ => rfl
  rw [lk_wakeLink, hkept, awaitLanes, hawaits, if_pos (mem_lanesOfMask.mpr ⟨hi, hrx⟩)]

theorem lockedMask_wakeLink (s : State) (p : Nat) : (s.wakeLink p).lockedMask p = 0 := by
  rw [wakeLink_eq, lockedMask, rd_updLk, rd_wr_same _ _ rfl]
  rfl

theorem wakeLink_regs (s : State) (p : Nat) : s.sameRegsBut [R.LNK_WIDTH p] (s.wakeLink p) := by
  obtain ⟨-, hregs, -⟩ := each_updLane_keeps (s := s.send (.lane p "WAKE" [(s.lk p).cntTx])) (p := p)
    (fun x => { x with state := 2, badMarkers := 0, candidates := [] }) (lanesOfMask (s.rxMask p))
  rw [wakeLink_eq]
  exact ((((sameRegsBut.refl _ s).send _).of_regs hregs).wr (by simp) _ _).updLk _ _

theorem wakeLink_emits (s : State) (p : Nat) : Emits [.lane p "WAKE" [(s.lk p).cntTx]] s (s.wakeLink p) := by
  obtain ⟨-, -, hout⟩ := each_updLane_keeps (s := s.send (.lane p "WAKE" [(s.lk p).cntTx])) (p := p)
    (fun x => { x with state := 2, badMarkers := 0, candidates := [] }) (lanesOfMask (s.rxMask p))
  rw [wakeLink_eq]
  exact ((((Emits.refl s).send _).trans hout).wr ..).updLk ..

/-- The link has woken between two states (R263), and has been answered or not. -/
structure Woken (s t : State) (p : Nat) (answered : Bool) : Prop where
  doze : (t.lk p).doze = 5
  wakeFirst : (t.lk p).wakeFirst = true
  wakeAnswered : (t.lk p).wakeAnswered = answered
  lanes : ∀ i, i < 8 → bitAt (s.rxMask p) i = true → ((t.lk p).lane i).state = 2
  locked : t.lockedMask p = 0
  sent : t.sent = s.sent ++ [.lane p "WAKE" [(s.lk p).cntTx]]
  regs : s.sameRegsBut [R.LNK_WIDTH p] t

theorem woken_wakeLink (s : State) (p : Nat) : Woken s (s.wakeLink p) p false := by
  have hlk := lk_wakeLink s p
  exact ⟨by rw [hlk], by rw [hlk], by rw [hlk], fun i hi hrx => lane_wakeLink s p hi hrx, lockedMask_wakeLink s p,
    (wakeLink_emits s p).sent, wakeLink_regs s p⟩

theorem Woken.answered {t : State} {b : Bool} (h : Woken s t p b) :
    Woken s (t.updLk p fun l => { l with wakeAnswered := true }) p true := by
  obtain ⟨hdoze, hfirst, -, hlanes, hlocked, hsent, hregs⟩ := h
  have hlk := lk_updLk_same t p fun l => { l with wakeAnswered := true }
  have hkept : ∀ (l : LinkState) i, LinkState.lane { l with wakeAnswered := true } i = l.lane i := fun _ _ => rfl
  refine ⟨by rw [hlk, hdoze], by rw [hlk, hfirst], by rw [hlk], fun i hi hrx => ?_, ?_, hsent, hregs.updLk _ _⟩
  · rw [hlk, hkept, hlanes i hi hrx]
  · rw [lockedMask, rd_updLk]
    exact hlocked

/-! ## Beacons (R264) -/

/-- A beacon has slipped: counted, and a Warn record for the first one. -/
def slipped (s : State) (p n : Nat) : State :=
  let t := (s.updLk p fun l => { l with anchor := some n }).inc (R.LNK_DOZE p) F.LNK_DOZE_SLIP
  if (s.lk p).slipWarned then t else t.lnkRecord Sev.warn p (R.LNK_DOZE p) F.LNK_DOZE_SLIP

theorem lk_slipped (s : State) (p n : Nat) : (s.slipped p n).lk p = { s.lk p with anchor := some n } := by
  unfold slipped
  dsimp only
  split
  · rw [lk_inc, lk_updLk_same]
  · rw [lnkRecord, lk_record, lk_inc, lk_updLk_same]

theorem rd_slipped (s : State) {p : Nat} (hp : p < 32) (n : Nat) : (s.slipped p n).rd (R.LNK_DOZE p) F.LNK_DOZE_SLIP =
    min (s.rd (R.LNK_DOZE p) F.LNK_DOZE_SLIP + 1) (2 ^ F.LNK_DOZE_SLIP.width - 1) := by
  unfold slipped
  dsimp only
  split
  · rw [rd_inc_same _ _ rfl, rd_updLk]
  · rw [lnkRecord, rd_record _ _ (lnkDoze_ne_lost hp), rd_inc_same _ _ rfl, rd_updLk]

theorem slipped_regs (s : State) (p n : Nat) : s.sameRegsBut [R.LNK_DOZE p, R.EVR_LOST] (s.slipped p n) := by
  have hinc : s.sameRegsBut [R.LNK_DOZE p, R.EVR_LOST]
      ((s.updLk p fun l => { l with anchor := some n }).inc (R.LNK_DOZE p) F.LNK_DOZE_SLIP) :=
    ((sameRegsBut.refl _ s).updLk _ _).inc (by simp) _
  unfold slipped
  dsimp only
  split
  · exact hinc
  · exact hinc.record (by simp) _

theorem slipped_emits (s : State) (p n : Nat) : Emits [] s (s.slipped p n) := by
  have hinc := ((Emits.refl s).updLk p fun l => { l with anchor := some n }).inc (R.LNK_DOZE p) F.LNK_DOZE_SLIP
  unfold slipped
  dsimp only
  split
  · exact hinc
  · exact hinc.record _

/-- The slips of the last 1 ms, this one with them. -/
def recentSlips (l : List Nat) (n : Nat) : List Nat := (l ++ [n]).filter fun t => n ≤ t + 1000000

theorem length_recentSlips (l : List Nat) (n : Nat) :
    (recentSlips l n).length = (l.filter fun x => n ≤ x + 1000000).length + 1 := by
  simp [recentSlips]

/-- The slips are kept. -/
def keepSlips (s : State) (p : Nat) (l : List Nat) : State := s.updLk p fun x => { x with slips := l, slipWarned := true }

theorem lk_keepSlips (s : State) (p : Nat) (l : List Nat) : (s.keepSlips p l).lk p = { s.lk p with slips := l, slipWarned := true } :=
  lk_updLk_same ..

/-- The link wakes and dozes no more until it trains again. -/
def wakeForGood (s : State) (p : Nat) : State :=
  ((s.wakeLink p).wr (R.LNK_STATUS p) F.LNK_STATUS_NODOZE 1).lnkRecord Sev.warn p (R.LNK_STATUS p) F.LNK_STATUS_NODOZE

theorem wakeForGood_shows (s : State) {p : Nat} (hp : p < 32) : ((s.wakeForGood p).lk p).doze = 5 ∧
    (s.wakeForGood p).rd (R.LNK_STATUS p) F.LNK_STATUS_NODOZE = 1 ∧ Emits [.lane p "WAKE" [(s.lk p).cntTx]] s (s.wakeForGood p) := by
  refine ⟨?_, ?_, ((wakeLink_emits s p).wr ..).record _⟩
  · rw [wakeForGood, lnkRecord, lk_record, lk_wr, lk_wakeLink]
  · rw [wakeForGood, lnkRecord, rd_record _ _ (lnkStatus_ne_lost hp), rd_wr_same _ _ rfl]
    rfl

end State

/-! ## The rows -/

section Rows
variable {s : State} {p : LinkId} (h : s.up)
include h

theorem exec_dozeIdle (hready : s.dozeReady p.val = true) (hdoze : (s.lk p.val).doze = 0)
    (hidle : s.on (R.LNK_DOZE p.val) F.LNK_DOZE_IDLE = true) :
    exec (.dozeIdle p) s = .next ((s.control p.val 0x06).updLk p.val fun l => { l with doze := 1 }) := by
  have hexec : exec (.dozeIdle p) s = .next _ := congrArg Host.Outcome.next (State.inMain_of_up h _)
  rw [hexec, if_pos (by simp [hready, hdoze, hidle])]

theorem exec_dozeReq : exec (.dozeReq p) s = .next (s.dozeReq p.val) := congrArg Host.Outcome.next (State.inMain_of_up h _)

theorem exec_dozeAck : exec (.dozeAck p) s = .next (s.dozeAck p.val) := congrArg Host.Outcome.next (State.inMain_of_up h _)

/-- A cancelled handshake leaves the side active, with nothing to send. -/
theorem exec_dozeEnds {c : Instr} (hbuf : (s.lk p.val).buffer = []) (hw : s.router.waiting = [])
    (hc : (c = .dozeCancel p ∧ ((s.lk p.val).doze = 1 ∨ (s.lk p.val).doze = 2)) ∨ (c = .dozeReqTimeout p ∧ (s.lk p.val).doze = 1)) :
    exec c s = .next ((s.ctl p.val).stayActive p.val).throttle ∨ exec c s = .next (s.stayActive p.val) := by
  rcases hc with ⟨rfl, hdoze⟩ | ⟨rfl, hdoze⟩
  · have hexec : exec (.dozeCancel p) s = .next (s.dozeCancel p.val).pump := congrArg Host.Outcome.next (State.inMain_of_up h _)
    have hout : State.Emits [] s ((s.ctl p.val).stayActive p.val) := (State.ctl_emits ..).updLk ..
    exact .inl (by rw [hexec, State.dozeCancel_of_handshake hbuf hdoze, hout.pump hw])
  · have hexec : exec (.dozeReqTimeout p) s = .next _ := congrArg Host.Outcome.next (State.inMain_of_up h _)
    refine .inr (hexec.trans (congrArg Host.Outcome.next ?_))
    rw [if_pos hdoze]
    exact State.flush_stayActive hbuf

/-- The partner's signal falls on a side that has answered, whose transmitters idle now, or whose transmitters are idle. -/
theorem exec_signalLoss (hdoze : (s.lk p.val).doze = 2 ∨ (s.lk p.val).doze = 3) : exec (.signalLoss p) s = .next
    ((if (s.lk p.val).doze = 2 then s.send (.lane p.val "TXIDLE" [1]) else s).dozeOff p.val) := by
  have hexec : exec (.signalLoss p) s = .next _ := congrArg Host.Outcome.next (State.inMain_of_up h _)
  rw [hexec, if_pos (by simpa using hdoze)]
  rfl

/-- A burst, a signal or the beacons' timeout wakes a link in doze; the signal answers it too. -/
theorem exec_wakes {c : Instr} (hdoze : (s.lk p.val).doze = 4) (hc : c ∈ [Instr.wakeBurst p, .signalDetect p, .beaconTimeout p]) :
    ∃ t, exec c s = .next t ∧ State.Woken s t p.val (decide (c = .signalDetect p)) := by
  simp only [List.mem_cons, List.not_mem_nil, or_false] at hc
  rcases hc with rfl | rfl | rfl
  · have hexec : exec (.wakeBurst p) s = .next _ := congrArg Host.Outcome.next (State.inMain_of_up h _)
    exact ⟨_, hexec.trans (congrArg Host.Outcome.next (if_pos (by simp [hdoze]))), State.woken_wakeLink s p.val⟩
  · have hexec : exec (.signalDetect p) s = .next _ := congrArg Host.Outcome.next (State.inMain_of_up h _)
    exact ⟨_, hexec.trans (congrArg Host.Outcome.next (if_pos (by simp [hdoze]))),
      by simpa using (State.woken_wakeLink s p.val).answered⟩
  · have hexec : exec (.beaconTimeout p) s = .next _ := congrArg Host.Outcome.next (State.inMain_of_up h _)
    exact ⟨_, hexec.trans (congrArg Host.Outcome.next (if_pos hdoze)), State.woken_wakeLink s p.val⟩

theorem exec_fastRelockTimeout {i : LaneId} (hdoze : (s.lk p.val).doze = 5) (hrx : bitAt (s.rxMask p.val) i.val = true)
    (hlocked : bitAt (s.lockedMask p.val) i.val = false) :
    exec (.fastRelockTimeout p i) s = .next ((s.inc (R.LNK_DOZE p.val) F.LNK_DOZE_WAKEFAIL).fullRelock p.val) := by
  have hexec : exec (.fastRelockTimeout p i) s = .next _ := congrArg Host.Outcome.next (State.inMain_of_up h _)
  rw [hexec, if_pos (by simp [hdoze, hrx, hlocked])]

theorem exec_beaconTimer (hdoze : (s.lk p.val).doze = 4) : exec (.beaconTimer p) s = .next (s.send (.lane p.val "BEACON" [])) := by
  have hexec : exec (.beaconTimer p) s = .next _ := congrArg Host.Outcome.next (State.inMain_of_up h _)
  rw [hexec, if_pos hdoze]

theorem exec_linkBeacon_onTime {n : Nat} (hdoze : (s.lk p.val).doze = 4)
    (hanchor : ∀ a, (s.lk p.val).anchor = some a → 7750 ≤ n - a ∧ n - a ≤ 8250) :
    exec (.linkBeacon p n) s = .next (s.updLk p.val fun l => { l with anchor := some n }) := by
  have hexec : exec (.linkBeacon p n) s = .next _ := congrArg Host.Outcome.next (State.inMain_of_up h _)
  rw [hexec, if_neg (by simp [hdoze])]
  cases ha : (s.lk p.val).anchor with
  | none => rfl
  | some a => exact congrArg Host.Outcome.next (if_pos (by simpa using hanchor a ha))

/-- A slip is counted; the fourth one in 1 ms wakes the link. -/
theorem exec_linkBeacon_slip {n a : Nat} (hdoze : (s.lk p.val).doze = 4) (hanchor : (s.lk p.val).anchor = some a)
    (hearly : n - a < 7750) : exec (.linkBeacon p n) s = .next
      (if 4 ≤ (State.recentSlips (s.lk p.val).slips n).length
        then ((s.slipped p.val n).keepSlips p.val (State.recentSlips (s.lk p.val).slips n)).wakeForGood p.val
        else (s.slipped p.val n).keepSlips p.val (State.recentSlips (s.lk p.val).slips n)) := by
  have hexec : exec (.linkBeacon p n) s = .next _ := congrArg Host.Outcome.next (State.inMain_of_up h _)
  rw [hexec, if_neg (by simp [hdoze])]
  simp only [hanchor]
  rw [if_neg (by simp; omega)]
  rfl

theorem exec_wakeTimeout (hdoze : (s.lk p.val).doze = 5) (hans : (s.lk p.val).wakeAnswered = false) :
    exec (.wakeTimeout p) s = .next ((s.fullRelock p.val).silence p.val).pump := by
  have hexec : exec (.wakeTimeout p) s = .next _ := congrArg Host.Outcome.next (State.inMain_of_up h _)
  rw [hexec, if_pos (by simp [hdoze, hans])]

end Rows

/-- Settles O50: each row by the state that it answers. -/
theorem dozeAndWake : Obligations.DozeAndWake := by
  unfold Obligations.DozeAndWake
  refine ⟨fun s p h hready hdoze hidle => ?_, fun s p c h hdoze hc => ?_, fun s p h hready hdoze hidle => ?_,
    fun s p h hready hdoze hlnk => ?_, fun s p c h hbuf hw hc => ?_, fun s p h hdoze => ?_, fun s p c h hdoze hc => ?_,
    fun s p i h hdoze hrx hlocked => ?_, fun s p h hdoze => ?_, fun s p n h hdoze hanchor => ?_,
    fun s p n a h hdoze hanchor hearly hfew => ?_, fun s p n a h hdoze hanchor hearly hmany => ?_, fun s p h hdoze hans hw hact => ?_⟩
  · have hexec := exec_dozeIdle h hready hdoze hidle
    refine ⟨_, hexec, (((State.Emits.refl s).send _).updLk ..).sent, ?_, (State.updLk_regs ..).trans (State.send_regs ..),
      exec_mem hexec rfl⟩
    rw [State.lk_updLk_same, State.control, State.lk_send]
  · have hexec : exec c s = .next ((s.ctl p.val).txIdle p.val) := by
      rcases hc with rfl | rfl
      · rw [exec_dozeReq h, State.dozeReq_of_asked hdoze]
      · rw [exec_dozeAck h, State.dozeAck_of_asked hdoze]
    have hmem : (mayStore c || startsClearing c) = false := by rcases hc with rfl | rfl <;> rfl
    exact ⟨_, hexec, ((State.ctl_emits ..).trans (State.txIdle_emits ..)).sent, by rw [State.lk_txIdle, State.lk_ctl],
      (State.txIdle_regs ..).trans (State.ctl_regs ..), exec_mem hexec hmem⟩
  · have hexec := exec_dozeReq (p := p) h
    rw [State.dozeReq_of_ready hready hdoze hidle] at hexec
    exact ⟨_, hexec, ((State.ctl_emits ..).trans (State.answerDoze_emits ..)).sent, by rw [State.lk_answerDoze, State.lk_ctl],
      (State.answerDoze_regs ..).trans (State.ctl_regs ..), exec_mem hexec rfl⟩
  · have hexec := exec_dozeReq (p := p) h
    rw [State.dozeReq_of_not_ready hready hdoze hlnk] at hexec
    exact ⟨_, hexec, ((State.ctl_emits ..).send _).sent, by rw [State.control, State.lk_send, State.lk_ctl],
      (State.send_regs ..).trans (State.ctl_regs ..), exec_mem hexec rfl⟩
  · have hmem : (mayStore c || startsClearing c) = false := by rcases hc with ⟨rfl, -⟩ | ⟨rfl, -⟩ <;> rfl
    rcases exec_dozeEnds h hbuf hw hc with hexec | hexec
    · have hout : State.Emits [] s ((s.ctl p.val).stayActive p.val) := (State.ctl_emits ..).updLk ..
      exact ⟨_, hexec, by rw [State.lk_throttle, State.doze_stayActive],
        (State.throttle_regs _).trans ((State.updLk_regs ..).trans (State.ctl_regs ..)), hout.throttle.trans (List.append_nil _),
        exec_mem hexec hmem⟩
    · have hout : State.Emits [] s (s.stayActive p.val) := (State.Emits.refl s).updLk ..
      exact ⟨_, hexec, s.doze_stayActive p.val, State.updLk_regs .., hout.sent.trans (List.append_nil _), exec_mem hexec hmem⟩
  · have hexec := exec_signalLoss h hdoze
    by_cases htwo : (s.lk p.val).doze = 2
    · rw [if_pos htwo] at hexec ⊢
      obtain ⟨hstate, hdozes⟩ := (s.send (.lane p.val "TXIDLE" [1])).dozeOff_shows p.val
      rw [State.rd_send] at hdozes
      exact ⟨_, hexec, hstate, by rw [State.lk_dozeOff, State.lk_send], hdozes,
        ((State.sameRegsBut.refl _ s).send _).trans (State.dozeOff_regs _ p.val), exec_mem hexec rfl,
        (((State.Emits.refl s).send _).trans (State.dozeOff_emits ..)).sent⟩
    · rw [if_neg htwo] at hexec ⊢
      obtain ⟨hstate, hdozes⟩ := s.dozeOff_shows p.val
      exact ⟨_, hexec, hstate, s.lk_dozeOff p.val, hdozes, s.dozeOff_regs p.val, exec_mem hexec rfl, (s.dozeOff_emits p.val).sent⟩
  · obtain ⟨t, hexec, hfive, hfirst, hans, hlanes, hlocked, hsent, hregs⟩ := exec_wakes h hdoze hc
    have hmem : (mayStore c || startsClearing c) = false := by
      simp only [List.mem_cons, List.not_mem_nil, or_false] at hc
      rcases hc with rfl | rfl | rfl <;> rfl
    exact ⟨t, hexec, hfive, hfirst, hans, hlanes, hlocked, hsent, hregs, exec_mem hexec hmem⟩
  · have hexec := exec_fastRelockTimeout h hdoze hrx hlocked
    obtain ⟨hstate, hzero⟩ := (s.inc (R.LNK_DOZE p.val) F.LNK_DOZE_WAKEFAIL).fullRelock_shows p.val
    have hregs := (s.inc (R.LNK_DOZE p.val) F.LNK_DOZE_WAKEFAIL).fullRelock_regs p.val
    refine ⟨_, hexec, hstate, by rw [State.lk_fullRelock], hzero, ?_,
      ((State.sameRegsBut.refl _ s).inc (by simp) _).trans (hregs.mono (by simp)),
      (((State.Emits.refl s).inc ..).trans (State.fullRelock_emits ..)).sent.trans (List.append_nil _), exec_mem hexec rfl⟩
    rw [hregs.rd (by simp [R.LNK_DOZE, R.LNK_WIDTH, R.LNK_STATUS, R.LNK_TRIM]), State.rd_inc_same _ _ rfl]
  · have hexec := exec_beaconTimer h hdoze
    exact ⟨_, hexec, rfl, State.send_regs .., State.send_links .., exec_mem hexec rfl⟩
  · have hexec := exec_linkBeacon_onTime h hdoze hanchor
    exact ⟨_, hexec, State.lk_updLk_same .., State.updLk_regs .., State.updLk_sent .., exec_mem hexec rfl⟩
  · have hexec := exec_linkBeacon_slip h hdoze hanchor hearly
    have hlen := State.length_recentSlips (s.lk p.val).slips n
    rw [if_neg (by omega)] at hexec
    refine ⟨_, hexec, ?_, ?_, (State.rd_updLk ..).trans (s.rd_slipped p.isLt n), (s.slipped_regs p.val n).updLk _ _,
      ((s.slipped_emits p.val n).updLk ..).sent.trans (List.append_nil _), exec_mem hexec rfl⟩
    · rw [State.lk_keepSlips, State.lk_slipped]
      exact hdoze
    · rw [State.lk_keepSlips, State.lk_slipped]
  · have hexec := exec_linkBeacon_slip h hdoze hanchor hearly
    have hlen := State.length_recentSlips (s.lk p.val).slips n
    obtain ⟨hfive, hnodoze, hwake⟩ := State.wakeForGood_shows
      ((s.slipped p.val n).keepSlips p.val (State.recentSlips (s.lk p.val).slips n)) p.isLt
    have hout : State.Emits [] s ((s.slipped p.val n).keepSlips p.val (State.recentSlips (s.lk p.val).slips n)) :=
      (s.slipped_emits p.val n).updLk ..
    rw [if_pos (by omega)] at hexec
    rw [State.lk_keepSlips, State.lk_slipped] at hwake
    exact ⟨_, hexec, hfive, hnodoze, (hout.trans hwake).sent, exec_mem hexec rfl⟩
  · have hexec := exec_wakeTimeout h hdoze hans
    obtain ⟨hstate, -⟩ := s.fullRelock_shows p.val
    have hrelock := s.fullRelock_regs p.val
    have hnone : (s.fullRelock p.val).activeGlades = [] :=
      (State.activeGlades_of_sameRegsBut hrelock (by simp [R.LNK_WIDTH, R.LNK_STATUS, R.LNK_TRIM]; omega)).trans hact
    obtain ⟨hsilent, hregs, hout, hlk, hsame⟩ := State.silence_shows p.isLt hnone
    have hall := (s.fullRelock_emits p.val).trans hout
    rw [hall.pump hw] at hexec
    refine ⟨_, hexec, (State.lnkState_throttle ..).trans (hsame.trans hstate), ?_, (State.rd_throttle ..).trans hsilent,
      ((hrelock.mono (by simp)).trans (hregs.mono (by simp))).throttle, hall.throttle.trans (List.append_nil _), exec_mem hexec rfl⟩
    rw [State.lk_throttle, hlk, State.lk_fullRelock]

end Sys2Proof.Machine
end

section
/-! PROOF. What the rows of the router share (R249, R253, R275 to R279): changes of the links and of what is sent alone, a frame that a link
has taken, the frames that end at this node, and those that go on. -/
namespace Sys2Proof.Machine.State
variable {s t u : State} {p : Nat}

/-! ## Changes of the links and of what is sent -/

/-- Between two states the links have changed and things have been sent, and nothing else. -/
def LinksOnly (s t : State) : Prop := ∃ l x, t = { s with links := l, sent := s.sent ++ x }

namespace LinksOnly

theorem refl (s : State) : LinksOnly s s := ⟨s.links, [], by rw [List.append_nil]⟩

theorem trans (h : LinksOnly s t) (h' : LinksOnly t u) : LinksOnly s u := by
  obtain ⟨l, x, rfl⟩ := h
  obtain ⟨l', x', rfl⟩ := h'
  exact ⟨l', x ++ x', by rw [List.append_assoc]⟩

theorem updLk (h : LinksOnly s t) (p : Nat) (f : LinkState → LinkState) : LinksOnly s (t.updLk p f) :=
  h.trans ⟨_, [], by rw [List.append_nil]; rfl⟩

theorem send (h : LinksOnly s t) (x : Sent) : LinksOnly s (t.send x) := h.trans ⟨t.links, [x], rfl⟩

theorem regs (h : LinksOnly s t) : t.regs = s.regs := by
  obtain ⟨l, x, rfl⟩ := h
  rfl

theorem router (h : LinksOnly s t) : t.router = s.router := by
  obtain ⟨l, x, rfl⟩ := h
  rfl

theorem mem_sent (h : LinksOnly s t) {m : Sent} (hm : m ∈ s.sent) : m ∈ t.sent := by
  obtain ⟨l, x, rfl⟩ := h
  exact List.mem_append_left _ hm

end LinksOnly

theorem linksOnly_sends {α : Type} {f : State → α → State} (hf : ∀ v x, ∃ m, f v x = { v with sent := v.sent ++ m })
    (l : List α) : LinksOnly s (s.each l f) := by
  obtain ⟨m, hm⟩ := each_sends s hf l
  exact ⟨s.links, m, hm⟩

theorem flush_linksOnly (s : State) (p : Nat) : LinksOnly s (s.flush p) := by
  unfold flush
  split
  · exact LinksOnly.refl s
  dsimp only
  split
  · exact LinksOnly.refl s
  · exact (linksOnly_sends (fun v (b : Buffered) => ⟨[.data p b.seq], rfl⟩) _).updLk _ _

theorem cancelDoze_linksOnly (s : State) (p : Nat) : LinksOnly s (s.cancelDoze p) :=
  (((LinksOnly.refl s).send _).updLk _ _).trans (flush_linksOnly _ p)

/-- The credits of n blocks of a link's input are owed (R275). -/
def owing (s : State) (p vc n : Nat) : State := s.updLk p fun l =>
  let r := if vc < 2 then n else min n (reservedPool - vcCount l.oweReserved vc)
  { l with oweReserved := vcSet l.oweReserved vc (vcCount l.oweReserved vc + r), oweShared := l.oweShared + (n - r) }

/-- They go back at once, or later. -/
theorem oweCredits_cases (s : State) (p vc n : Nat) :
    s.oweCredits p vc n = (s.owing p vc n).sendCredits p ∨ s.oweCredits p vc n = s.owing p vc n :=
  ite_eq_or_eq ..

theorem sendCredits_linksOnly (s : State) (p : Nat) : LinksOnly s (s.sendCredits p) := by
  unfold sendCredits
  exact ((LinksOnly.refl s).send _).updLk _ _

theorem oweCredits_linksOnly (s : State) (p vc n : Nat) : LinksOnly s (s.oweCredits p vc n) := by
  have howing : LinksOnly s (s.owing p vc n) := (LinksOnly.refl s).updLk _ _
  rcases oweCredits_cases s p vc n with heq | heq
  · exact heq ▸ howing.trans (sendCredits_linksOnly _ p)
  · exact heq ▸ howing

theorem leaveInput_linksOnly (s : State) (x vc n : Nat) : LinksOnly s (s.leaveInput x vc n) := by
  unfold leaveInput
  split
  · exact oweCredits_linksOnly s x vc n
  · exact LinksOnly.refl s

/-! ## A frame that a link has taken (R253) -/

/-- A link holds a frame in its retry buffer, as the one that it took last. -/
structure Took (t : State) (p q : Nat) (f : Frame) (b : Bool) : Prop where
  txSeq : (t.lk p).txSeq = (q + 1) % 2 ^ 16
  held : ∃ u, u ∈ (t.lk p).buffer ∧ u.seq = q ∧ u.frame = f ∧ u.stomped = b

/-- A change of a link that keeps the number to come and every frame of the buffer. -/
def keepsFrames (g : LinkState → LinkState) : Prop := ∀ l, (g l).txSeq = l.txSeq ∧
  ∀ u ∈ l.buffer, ∃ v ∈ (g l).buffer, v.seq = u.seq ∧ v.frame = u.frame ∧ v.stomped = u.stomped

theorem keepsFrames_of_same {g : LinkState → LinkState} (h : ∀ l, (g l).txSeq = l.txSeq ∧ (g l).buffer = l.buffer) : keepsFrames g :=
  fun l => ⟨(h l).1, fun u hu => ⟨u, (h l).2 ▸ hu, rfl, rfl, rfl⟩⟩

namespace Took
variable {q : Nat} {f : Frame} {b : Bool}

theorem of_lk (h : Took s p q f b) (hlk : t.lk p = s.lk p) : Took t p q f b := ⟨hlk ▸ h.txSeq, hlk ▸ h.held⟩

theorem updLk (h : Took t p q f b) (x : Nat) {g : LinkState → LinkState} (hg : keepsFrames g) : Took (t.updLk x g) p q f b := by
  have hlk := lk_updLk t x p g
  by_cases hx : p = x
  · subst hx
    rw [if_pos rfl] at hlk
    obtain ⟨u, hu, hseq, hframe, hstomped⟩ := h.held
    obtain ⟨htx, hkept⟩ := hg (t.lk p)
    obtain ⟨v, hv, hvseq, hvframe, hvstomped⟩ := hkept u hu
    exact ⟨by rw [hlk, htx, h.txSeq], v, by rw [hlk]; exact hv, hvseq.trans hseq, hvframe.trans hframe, hvstomped.trans hstomped⟩
  · rw [if_neg hx] at hlk
    exact h.of_lk hlk

theorem send (h : Took t p q f b) (x : Sent) : Took (t.send x) p q f b := h.of_lk (lk_send ..)

theorem flush (h : Took t p q f b) (x : Nat) : Took (t.flush x) p q f b := by
  unfold State.flush
  split
  · exact h
  dsimp only
  split
  · exact h
  · refine Took.updLk (h.of_lk ?_) x fun l => ⟨rfl, fun u hu => ⟨_, List.mem_map_of_mem hu, rfl, rfl, rfl⟩⟩
    obtain ⟨m, hm⟩ := each_sends t (fun v (b : Buffered) => ⟨[Sent.data x b.seq], rfl⟩) ((t.lk x).buffer.filter fun b => !b.out)
    exact lk_congr (congrArg State.links hm) p

theorem cancelDoze (h : Took t p q f b) (x : Nat) : Took (t.cancelDoze x) p q f b := by
  unfold State.cancelDoze
  refine Took.flush (Took.updLk (h.send _) x ?_) x
  exact keepsFrames_of_same fun _ => ⟨rfl, rfl⟩

theorem sendCredits (h : Took t p q f b) (x : Nat) : Took (t.sendCredits x) p q f b := by
  unfold State.sendCredits
  refine Took.updLk (h.send _) x ?_
  exact keepsFrames_of_same fun _ => ⟨rfl, rfl⟩

theorem leaveInput (h : Took t p q f b) (x vc n : Nat) : Took (t.leaveInput x vc n) p q f b := by
  have howing : Took (t.owing x vc n) p q f b := h.updLk x (keepsFrames_of_same fun _ => ⟨rfl, rfl⟩)
  unfold State.leaveInput
  split
  · rcases oweCredits_cases t x vc n with heq | heq
    · exact heq ▸ howing.sendCredits x
    · exact heq ▸ howing
  · exact h

end Took

/-- The frame enters the retry buffer with the next SEQ, and is sent. -/
def takeFrame (s : State) (p : Nat) (f : Frame) (b : Bool) : State := (s.updLk p fun l => { l with
  txSeq := ((s.lk p).txSeq + 1) % 2 ^ 16, buffer := l.buffer ++ [⟨(s.lk p).txSeq, false, 0, b, f⟩] }).send (.frame p f.vc f)

theorem takeFrame_takes (s : State) (p : Nat) (f : Frame) (b : Bool) : Took (s.takeFrame p f b) p (s.lk p).txSeq f b ∧
    .frame p f.vc f ∈ (s.takeFrame p f b).sent ∧ LinksOnly s (s.takeFrame p f b) := by
  refine ⟨⟨?_, ⟨(s.lk p).txSeq, false, 0, b, f⟩, ?_, rfl, rfl, rfl⟩, List.mem_append_right _ (List.mem_singleton_self _),
    ((LinksOnly.refl s).updLk _ _).send _⟩
  all_goals rw [takeFrame, lk_send, lk_updLk_same]
  exact List.mem_append_right _ (List.mem_singleton_self _)

/-- A frame that fits is taken; it ends a doze handshake, or is sent as soon as it may (R249, R262). -/
theorem linkSend_cases {f : Frame} (hne : 0 < f.payload.length) (hmax : f.payload.length ≤ 4096) (b : Bool) :
    s.linkSend p f b = (s.takeFrame p f b).cancelDoze p ∨ s.linkSend p f b = (s.takeFrame p f b).flush p := by
  have hsize : ¬ (f.payload.isEmpty || decide (4096 < f.payload.length)) = true := by
    simp [List.isEmpty_iff, ← List.length_eq_zero_iff]
    omega
  unfold linkSend
  rw [if_neg hsize]
  exact ite_eq_or_eq ..

/-- A link takes a frame that fits (R249, R253): it holds it and has sent it, and only links have changed. -/
theorem linkSend_takes {f : Frame} (hne : 0 < f.payload.length) (hmax : f.payload.length ≤ 4096) (b : Bool) :
    Took (s.linkSend p f b) p (s.lk p).txSeq f b ∧ .frame p f.vc f ∈ (s.linkSend p f b).sent ∧ LinksOnly s (s.linkSend p f b) := by
  obtain ⟨htook, hsent, honly⟩ := takeFrame_takes s p f b
  rcases linkSend_cases (s := s) (p := p) hne hmax b with heq | heq
  · have hcancel := cancelDoze_linksOnly (s.takeFrame p f b) p
    exact heq ▸ ⟨htook.cancelDoze p, hcancel.mem_sent hsent, honly.trans hcancel⟩
  · have hflush := flush_linksOnly (s.takeFrame p f b) p
    exact heq ▸ ⟨htook.flush p, hflush.mem_sent hsent, honly.trans hflush⟩

/-- A frame that is forwarded onto a link leaves with TTL less 1 (R275, R279). -/
theorem forward_takes {f : Frame} (hne : 0 < f.payload.length) (hmax : f.payload.length ≤ 4096) (vc : Nat) (b : Bool) :
    Took (s.forward p vc f b) p (s.lk p).txSeq { f with ttl := f.ttl - 1 } b ∧
      .frame p f.vc { f with ttl := f.ttl - 1 } ∈ (s.forward p vc f b).sent ∧ LinksOnly s (s.forward p vc f b) := by
  obtain ⟨htook, hsent, honly⟩ := linkSend_takes (s := s.takeCredits p vc f.blocks) (p := p) (f := { f with ttl := f.ttl - 1 })
    hne hmax b
  have hseq : ((s.takeCredits p vc f.blocks).lk p).txSeq = (s.lk p).txSeq := by rw [takeCredits, lk_updLk_same]
  rw [hseq] at htook
  exact ⟨htook, hsent, ((LinksOnly.refl s).updLk _ _).trans honly⟩

end Sys2Proof.Machine.State
end

section
/-! PROOF. The rows ROUTE_FRAME and ESCWAIT (R252, R269, R276 to R279, R292, R332). -/
namespace Sys2Proof.Machine

namespace State
variable {s t : State} {x : Nat} {f : Frame} {b : Bool}

theorem throttle_waiting (s : State) : s.throttle.router.waiting = s.router.waiting := rfl

theorem throttle_accesses (s : State) : s.throttle.router.accesses = s.router.accesses := rfl

/-! ## Where a frame goes (R252, R276 to R279) -/

/-- A frame that this node does not seal: it comes from a link, or without a seal (R333). -/
def unsealedHere (x : Nat) (f : Frame) : Prop := x < 32 ∨ f.enc = false

theorem sealWaits_of_unsealedHere (h : unsealedHere x f) : s.sealWaits x f = false := by
  rcases h with hx | henc
  · simp [sealWaits, hx]
  · simp [sealWaits, henc]

theorem sealFrame_of_unsealedHere (h : unsealedHere x f) : s.sealFrame x f = s := by
  refine if_neg ?_
  rcases h with hx | henc
  · simp [hx]
  · simp [henc]

/-- A frame that ends here and finds its place is checked and delivered. -/
theorem routeFrame_here (hun : unsealedHere x f) (hdst : f.dst = s.pnid) (hslot : s.slotWaits f = false) :
    s.routeFrame x f false = (s.leaveInput x f.vc f.blocks).deliver x f := by
  unfold routeFrame
  rw [if_neg (by simp [sealWaits_of_unsealedHere hun]), if_neg (by simp [hslot]), if_pos hdst, sealFrame_of_unsealedHere hun]
  rfl

/-- A frame from a link without TTL is dropped and counted (R279). -/
theorem routeFrame_expired (hx : x < 32) (hdst : f.dst ≠ s.pnid) (httl : f.ttl = 0) : s.routeFrame x f b =
    ((s.inc R.RTR_DROP F.RTR_DROP_TTL).record (((ev Sev.fault Src.rtr x).field R.RTR_DROP F.RTR_DROP_TTL).about f.dst)).leaveInput
      x f.vc f.blocks := by
  unfold routeFrame
  rw [if_neg (by simp [sealWaits_of_unsealedHere (.inl hx)]), if_neg (by simp [hdst]), if_neg hdst, if_pos (by simp [hx, httl])]

/-- The frame as it is routed: one that is injected here has its whole TTL (R279). -/
def routed (x : Nat) (f : Frame) : Frame := if 32 ≤ x then { f with ttl := 255 } else f

theorem routed_of_link (hx : x < 32) : routed x f = f := if_neg (Nat.not_le.mpr hx)

/-- A frame for another node goes where its next hop says. -/
theorem routeFrame_away (hun : unsealedHere x f) (hdst : f.dst ≠ s.pnid) (httl : 32 ≤ x ∨ 0 < f.ttl) : s.routeFrame x f b =
    match s.nextHop x (routed x f) with
    | .go p vc h => (s.forward p vc h b).leaveInput x f.vc f.blocks
    | .wait h => s.waitFrame x { h with vc := f.vc } b none
    | .drop => (s.dropNoRoute f).leaveInput x f.vc f.blocks := by
  have hlive : ¬ (decide (x < 32) && decide (f.ttl = 0)) = true := by
    simp only [Bool.and_eq_true, decide_eq_true_eq]
    omega
  unfold routeFrame
  rw [if_neg (by simp [sealWaits_of_unsealedHere hun]), if_neg (by simp [hdst]), if_neg hdst, if_neg hlive, sealFrame_of_unsealedHere hun]
  rfl

theorem nextHop_of_lost (h : s.namesNode f.dst = false ∨ s.partnerGone f.dst = true) : s.nextHop x f = .drop := by
  refine if_pos ?_
  rcases h with h | h
  · simp [h]
  · simp [h]

section Known
variable (hnames : s.namesNode f.dst = true) (hgone : s.partnerGone f.dst = false)
include hnames hgone

theorem nextHop_adaptive (hesc : f.msg.esc = false) : s.nextHop x f = s.adaptiveHop f := by
  unfold nextHop
  rw [if_neg (by simp [hnames, hgone]), if_neg (by simp [hesc])]

theorem nextHop_escape (hesc : f.msg.esc = true) : s.nextHop x f = s.escapeHop x f := by
  unfold nextHop
  rw [if_neg (by simp [hnames, hgone]), if_pos hesc]

end Known

theorem bestPort_nil (vc : Nat) : s.bestPort vc [] = none := rfl

/-- An adaptive frame takes the free candidate with the most credits (R276). -/
theorem adaptiveHop_go {p : Nat} (h : s.bestPort f.vc ((s.candidates f.dst).filter fun q => s.outputFree q f.vc f) = some p) :
    s.adaptiveHop f = .go p f.vc f := by
  have hsome : (s.candidates f.dst).isEmpty = false := by
    cases hcand : s.candidates f.dst with
    | nil => simp [hcand, bestPort_nil] at h
    | cons q r => rfl
  unfold adaptiveHop
  simp only [hsome, h, Bool.false_eq_true, if_false]

/-- With no candidate free it waits. -/
theorem adaptiveHop_wait (hcand : s.candidates f.dst ≠ []) (hbusy : ∀ q, q ∈ s.candidates f.dst → s.outputFree q f.vc f = false) :
    s.adaptiveHop f = .wait f := by
  have hnone : (s.candidates f.dst).filter (fun q => s.outputFree q f.vc f) = [] :=
    List.filter_eq_nil_iff.mpr fun q hq => by simp [hbusy q hq]
  have hsome : (s.candidates f.dst).isEmpty = false := by simpa using hcand
  unfold adaptiveHop
  simp only [hsome, hnone, bestPort_nil, Bool.false_eq_true, if_false]

/-- A frame that comes from another dimension takes the escape pair in the lowest dimension that differs, on VC0 (R277). -/
theorem escapeHop_turns {d p : Nat} {y : Nat × Bool} {r : List Nat} (hdiff : (List.range 4).find? (s.differs f.dst) = some d)
    (hturn : x / 8 ≠ d) (hway : (s.productiveIn f.dst d).head? = some y) (hports : s.upPorts y = p :: r) (hcross : s.crosses y = false)
    (hfree : s.outputFree p 0 f = true) : s.escapeHop x f = .go p 0 { f.route f.msg.dtr true false false with vc := 0 } := by
  have hother : (x / 8 == d) = false := by simpa using hturn
  have hroute : s.outputFree p 0 (f.route f.msg.dtr true false false) = true := hfree
  unfold escapeHop
  simp only [hdiff, hother, hway, Option.getD_some, Bool.and_false, Bool.false_and, Bool.false_eq_true, if_false, hports,
    hcross, Bool.or_false]
  exact if_pos hroute

/-- No frame waits any more. -/
def noneWaiting (s : State) : State := { s with router := { s.router with waiting := [] } }

/-! ## A frame at its destination (R269, R292, R332) -/

theorem LinksOnly.frameKnown (h : LinksOnly s t) (f : Frame) : t.frameKnown f = s.frameKnown f := by
  obtain ⟨l, m, rfl⟩ := h
  rfl

theorem LinksOnly.needsSeal (h : LinksOnly s t) (f : Frame) : t.needsSeal f = s.needsSeal f := by
  obtain ⟨l, m, rfl⟩ := h
  rfl

theorem LinksOnly.servingPort (h : LinksOnly s t) (f : Frame) : t.servingPort f = s.servingPort f := by
  obtain ⟨l, m, rfl⟩ := h
  rfl

theorem frameKnown_of (hweight : weightKind f.msg.kind = false) (htakes : s.takesGlade f.glade.val = true)
    (hsource : s.knowsSource f.glade.val f.src = true) : s.frameKnown f = true := by
  simp [State.frameKnown, hweight, htakes, hsource]

theorem slotWaits_of_whole (hseg : f.msg.segLast = 0) : s.slotWaits f = false := by simp [slotWaits, hseg]

theorem slotWaits_of_forged (henc : f.enc = true) (hbad : f.sealOk = false) : s.slotWaits f = false := by
  simp [slotWaits, henc, hbad]

section Deliver
variable (hkind : knownKind f.msg.kind = true) (hword : f.msg.kind ≠ 0x58) (hknown : s.frameKnown f = true)
include hkind hword hknown

/-- A frame that needs no seal and carries its whole message is handed over. -/
theorem deliver_plain (henc : f.enc = false) (hseal : s.needsSeal f = false) (hseg : f.msg.segLast = 0) :
    s.deliver x f = s.handOver f := by
  unfold deliver
  simp [hkind, hword, hknown, henc, hseal, hseg]

/-- A frame whose tag fails is refused. -/
theorem deliver_forged (hnote : f.msg.kind ≠ 8) (henc : f.enc = true) (hbad : f.sealOk = false) :
    s.deliver x f = (s.authFailed x f).refuseFrame f := by
  unfold deliver
  simp [hkind, hword, hknown, hnote, henc, hbad]

end Deliver

/-- What the refusal of a frame whose tag fails leaves (R269, R292). -/
theorem refuse_authFailed_shows (hx : x < 32) :
    ((s.authFailed x f).refuseFrame f).rd (R.LNK_FEC x) F.LNK_FEC_AUTH =
        min (s.rd (R.LNK_FEC x) F.LNK_FEC_AUTH + 1) (2 ^ F.LNK_FEC_AUTH.width - 1) ∧
      ((s.authFailed x f).refuseFrame f).rd R.RTR_DROP F.RTR_DROP_TAG = min (s.rd R.RTR_DROP F.RTR_DROP_TAG + 1) (2 ^ 16 - 1) ∧
      (requestKind f.msg.kind = true →
        .toNode f.src "ERR" [f.glade.val, f.msg.txid, 4] [] ∈ ((s.authFailed x f).refuseFrame f).sent) ∧
      s.sameRegsBut [R.LNK_FEC x, R.RTR_DROP, R.EVR_LOST] ((s.authFailed x f).refuseFrame f) := by
  have hlost : R.LNK_FEC x ≠ R.EVR_LOST := ne_evrLost_of_lt (by unfold R.LNK_FEC; omega)
  have hne : R.LNK_FEC x ≠ R.RTR_DROP := by
    unfold R.LNK_FEC R.RTR_DROP
    omega
  have hdrop : R.RTR_DROP ≠ R.EVR_LOST := by decide
  have hfailed : s.authFailed x f = (s.inc (R.LNK_FEC x) F.LNK_FEC_AUTH).record
      ((((ev Sev.fault Src.lnk x).field (R.LNK_FEC x) F.LNK_FEC_AUTH).about f.src).ofGlade f.glade.val) := if_pos hx
  have hregs : ((s.authFailed x f).refuseFrame f).regs = ((s.authFailed x f).inc R.RTR_DROP F.RTR_DROP_TAG).regs := by
    unfold refuseFrame
    dsimp only
    split
    · exact send_regs ..
    · rfl
  refine ⟨?_, ?_, fun hreq => ?_, sameRegsBut.of_regs (sameRegsBut.inc ?_ (by simp) _) hregs⟩
  · rw [rd_congr hregs, rd_inc_other _ hne, hfailed, rd_record _ _ hlost, rd_inc_same _ _ rfl]
  · rw [rd_congr hregs, rd_inc_same _ _ rfl, hfailed, rd_record _ _ hdrop, rd_inc_other _ hne.symm]
    rfl
  · unfold refuseFrame
    rw [if_pos hreq]
    exact List.mem_append_right _ (List.mem_singleton_self _)
  · rw [hfailed]
    exact ((sameRegsBut.refl _ s).inc (by simp) _).record (by simp) _

end State

/-! ## The rows -/

section Rows
variable {s : State} (h : s.up)
include h

theorem exec_routeFrame (x : Fin 44) (f : Frame) (b : Bool) :
    exec (.routeFrame x f b) s = .next (s.routeFrame x.val f b).throttle := congrArg Host.Outcome.next (State.inMain_of_up h _)

/-- A frame that waits alone, for a link, tries the escape pair. -/
theorem exec_escwait {w : WaitingFrame} {f : Frame} (hw : s.router.waiting = [w]) (hf : w.frame = f) (hhost : w.host = none)
    (hdst : f.dst ≠ s.pnid) (hesc : f.msg.esc = false) : exec (.escwait f) s = .next
      (s.noneWaiting.routeFrame w.inPort (f.route f.msg.dtr true false false) w.stomped).throttle := by
  have hexec : exec (.escwait f) s = .next _ := congrArg Host.Outcome.next (State.inMain_of_up h _)
  rw [hexec]
  simp [hw, hf, hhost, hdst, hesc, State.noneWaiting]

end Rows

end Sys2Proof.Machine
end

section
/-! PROOF. The rows CREDIT_TIMER, HOST_FRAME, HOST_CREDIT_RETURN, NOROUTE, HMSG, REASM_TIMEOUT and PNID_WRITE (R274, R275, R278,
R285, R426). -/
namespace Sys2Proof.Machine

/-- The access that a host's frame asks for (R288). -/
def Frame.hostAccess (f : Frame) (h : Nat) : Access :=
  ⟨f.msg.kind, f.glade.val, f.msg.dlmn, f.msg.offset, f.msg.txid, some h, f.msg.cache, false, false⟩

namespace State
variable {s : State}

/-! ## Hosts (R275, R426) -/

/-- An access is kept until its answer comes (R288). -/
def keepAccess (s : State) (a : Access) : State := { s with router := { s.router with accesses := s.router.accesses ++ [a] } }

/-- A host's frame completed (R286). -/
def hosted (s : State) (f : Frame) (n : Nat) : Frame :=
  Frame.route { f with vc := 6, src := s.pnid, dst := n, ttl := 255 } 0 false false false

/-- A frame that is not sealed and needs no seal stays as it is. -/
theorem hostSeal_of_plain {f : Frame} (henc : f.enc = false) (hseal : s.needsSeal f = false) : s.hostSeal f = f :=
  if_neg (by simp [henc, hseal])

/-- A frame that fits the host port's buffer is handed to it, and takes its credits. -/
theorem hostSend_shows {h : Nat} {f : Frame} (hroom : vcCount s.router.hostUsed (8 * h + f.vc) + f.blocks ≤ 512) :
    (s.hostSend h f).sent = s.sent ++ [.frame (32 + h) f.vc f] ∧
      vcCount (s.hostSend h f).router.hostUsed (8 * h + f.vc) = vcCount s.router.hostUsed (8 * h + f.vc) + f.blocks ∧
      (s.hostSend h f).regs = s.regs := by
  have hsend : s.hostSend h f = State.send { s with router := { s.router with
      hostUsed := vcSet s.router.hostUsed (8 * h + f.vc) (vcCount s.router.hostUsed (8 * h + f.vc) + f.blocks) } }
      (.frame (32 + h) f.vc f) := if_pos hroom
  rw [hsend]
  refine ⟨rfl, ?_, rfl⟩
  rw [send_router, vcCount_vcSet, if_pos rfl]

/-- Credits of VC2 and VC6 come back from the host. -/
def returned (m : Sparse Nat) (h a b : Nat) : Sparse Nat :=
  let m' := vcSet m (8 * h + 2) (vcCount m (8 * h + 2) - a)
  vcSet m' (8 * h + 6) (vcCount m' (8 * h + 6) - b)

theorem vcCount_returned (m : Sparse Nat) (h a b k : Nat) : vcCount (returned m h a b) k =
    if k = 8 * h + 6 then vcCount m (8 * h + 6) - b else if k = 8 * h + 2 then vcCount m (8 * h + 2) - a else vcCount m k := by
  have hne : ¬ 8 * h + 6 = 8 * h + 2 := by omega
  simp only [returned, vcCount_vcSet, if_neg hne]

/-! ## Nodes that cannot be reached (R278) -/

/-- The one place of a list that a condition picks. -/
theorem filter_range_eq_singleton {q : Nat → Bool} {n i : Nat} (hi : i < n) (hq : ∀ j, j < n → (q j = true ↔ j = i)) :
    (List.range n).filter q = [i] := by
  have hcongr : (List.range n).filter q = (List.range n).filter (· == i) := List.filter_congr fun j hj => by
    rw [Bool.eq_iff_iff, hq j (List.mem_range.mp hj), beq_iff_eq]
  rw [hcongr, List.filter_beq, List.count_eq_one_of_mem List.nodup_range (List.mem_range.mpr hi)]
  rfl

/-- A node that holds one LMN of the only active glade, in another grove, is suspected: its grove is told (R162, R278). -/
theorem suspectNode_of_single {n g i c : Nat} (hact : s.activeGlades = [g])
    (hholds : ∀ j, j < s.members g → (s.memberEntry g j = ⟨n, true⟩ ↔ j = i)) (hi : i < s.members g) (hself : i ≠ s.lmn g)
    (hgrove : i / s.groveN g ≠ s.lmn g / s.groveN g) : s.suspectNode n c =
      s.toMembers g (((List.range (s.groveN g)).map (i / s.groveN g * s.groveN g + ·)).filter (· != i)) "SUSPICION" [g, i, c] := by
  have hone : (List.range (s.members g)).filter
      (fun j => (s.memberEntry g j).valid && (s.memberEntry g j).pnid == n && j != s.lmn g) = [i] := by
    refine filter_range_eq_singleton hi fun j hj => ?_
    have hentry : s.memberEntry g j = ⟨n, true⟩ ↔ (s.memberEntry g j).pnid = n ∧ (s.memberEntry g j).valid = true := by
      rcases s.memberEntry g j with ⟨q, v⟩
      simp
    rw [← hholds j hj, hentry]
    simp only [Bool.and_eq_true, beq_iff_eq, bne_iff_ne]
    refine ⟨fun ⟨⟨hv, hp⟩, _⟩ => ⟨hp, hv⟩, fun ⟨hp, hv⟩ => ⟨⟨hv, hp⟩, ?_⟩⟩
    rw [(hholds j hj).mp (hentry.mpr ⟨hp, hv⟩)]
    exact hself
  unfold suspectNode
  simp only [hact, each, List.foldl_cons, List.foldl_nil, hone, if_neg hgrove]

/-- The NOROUTE of a node is noted with its time. -/
def noteNoRoute (s : State) (n : Nat) : State :=
  { s with router := { s.router with noRouteAt := (s.router.noRouteAt.filter fun x => x.1 != n) ++ [(n, s.now)] } }

/-! ## Reassembly and PNID (R274, R285) -/

/-- The slots of a message are given up, and counted. -/
def dropReasm (s : State) (a b : Nat) : State :=
  State.inc { s with router := { s.router with reasm := s.router.reasm.filter fun x => !(x.src == a && x.txid == b) } }
    R.RTR_XSTAT F.RTR_XSTAT_REASM

/-- The PNID is set. -/
def setPnid (s : State) (n : Nat) : State := (s.wr R.RTR_SELF F.RTR_SELF_PNID n).wr R.RTR_SELF F.RTR_SELF_SET 1

theorem setPnid_shows (v : Word) : (s.setPnid (fget v F.RTR_SELF_PNID)).pnid = fget v F.RTR_SELF_PNID ∧
    (s.setPnid (fget v F.RTR_SELF_PNID)).rd R.RTR_SELF F.RTR_SELF_SET = 1 := by
  unfold setPnid pnid
  constructor
  · rw [rd_wr_apart _ _ rfl rfl, rd_wr_same _ _ rfl]
    exact Nat.mod_eq_of_lt (fget_lt v F.RTR_SELF_PNID)
  · rw [rd_wr_same _ _ rfl]
    rfl

theorem setPnid_regs (n : Nat) : s.sameRegsBut [R.RTR_SELF] (s.setPnid n) :=
  ((sameRegsBut.refl _ s).wr (by simp) _ _).wr (by simp) _ _

theorem setPnid_emits (n : Nat) : Emits [] s (s.setPnid n) := ((Emits.refl s).wr ..).wr ..

/-- The PNID is written while every link is down and none waits for it. -/
theorem writeRtrSelf_of_down {v : Word} (hdown : s.anyLinkUp = false) (hwait : ∀ p, p < 32 → (s.lk p).waitSet = false) :
    s.writeRtrSelf v = s.setPnid (fget v F.RTR_SELF_PNID) := by
  have hnone : (List.range 32).filter (fun p => ((s.setPnid (fget v F.RTR_SELF_PNID)).lk p).waitSet) = [] := by
    refine List.filter_eq_nil_iff.mpr fun p hp => ?_
    rw [setPnid, lk_wr, lk_wr, hwait p (List.mem_range.mp hp)]
    exact Bool.false_ne_true
  unfold writeRtrSelf
  rw [if_neg (by simp [hdown])]
  change (s.setPnid (fget v F.RTR_SELF_PNID)).each _ _ = _
  rw [← setPnid, hnone]
  rfl

/-- A write of the PNID while a link is not down changes nothing but the recorder. -/
theorem writeRtrSelf_of_up {v : Word} (hup : s.anyLinkUp = true) : s.sameRegsBut [R.EVR_LOST] (s.writeRtrSelf v) ∧
    (s.writeRtrSelf v).sent = s.sent := by
  unfold writeRtrSelf
  dsimp only
  rw [if_pos hup]
  split
  · exact ⟨sameRegsBut.refl _ s, rfl⟩
  · exact ⟨(sameRegsBut.refl _ s).record (by simp) _, record_sent ..⟩

end State

/-! ## The rows -/

section Rows
variable {s : State} (h : s.up)
include h

theorem exec_creditTimer {p : LinkId} (howes : (s.lk p.val).owes = true) : exec (.creditTimer p) s = .next (s.sendCredits p.val) := by
  have hexec : exec (.creditTimer p) s = .next _ := congrArg Host.Outcome.next (State.inMain_of_up h _)
  rw [hexec, if_pos howes]

theorem exec_hostFrame_refused {i : HostId} {f : Frame} (href : s.hostRefused f = true) :
    exec (.hostFrame i f) s = .next ((s.inc R.RTR_XSTAT F.RTR_XSTAT_BAD).hostErr i.val f 5) := by
  have hexec : exec (.hostFrame i f) s = .next _ := congrArg Host.Outcome.next (State.inMain_of_up h _)
  rw [hexec, if_pos href]

theorem exec_hostFrame_error {i : HostId} {f : Frame} (href : s.hostRefused f = false)
    (hbad : s.rd (R.RTR_MAPCFG f.glade.val) F.RTR_MAPCFG_COUNT ≤ f.msg.dlmn ∨ (s.memberEntry f.glade.val f.msg.dlmn).valid = false ∨
      (f.msg.kind ≠ 9 ∧ f.msg.offset % 128 ≠ 0)) : exec (.hostFrame i f) s = .next (s.hostErr i.val f 5) := by
  have hexec : exec (.hostFrame i f) s = .next _ := congrArg Host.Outcome.next (State.inMain_of_up h _)
  rw [hexec, if_neg (by simp [href]), if_pos]
  simpa [or_assoc] using hbad

/-- A host's line access that passes is kept and routed. -/
theorem exec_hostFrame_routed {i : HostId} {f : Frame} {n : Nat} (href : s.hostRefused f = false) (henc : f.enc = false)
    (hseal : s.needsSeal f = false) (hkind : f.msg.kind ≠ 9) (hcount : f.msg.dlmn < s.rd (R.RTR_MAPCFG f.glade.val) F.RTR_MAPCFG_COUNT)
    (hentry : s.memberEntry f.glade.val f.msg.dlmn = ⟨n, true⟩) (hline : f.msg.offset % 128 = 0) :
    exec (.hostFrame i f) s = .next ((s.keepAccess (f.hostAccess i.val)).routeFrame (32 + i.val) (s.hosted f n) false).throttle := by
  have hexec : exec (.hostFrame i f) s = .next _ := congrArg Host.Outcome.next (State.inMain_of_up h _)
  have hplain := fun a => State.hostSeal_of_plain (s := s.keepAccess a) (f := s.hosted f n) henc hseal
  rw [hexec, if_neg (by simp [href]), if_neg (by simp [hentry, hline, hcount]), hentry]
  change Host.Outcome.next (State.throttle (State.routeFrame (if f.msg.kind = 9 then s else s.keepAccess _) _
    (State.hostSeal (if f.msg.kind = 9 then s else s.keepAccess _) (s.hosted f n)) false)) = _
  rw [if_neg hkind, hplain]
  rfl

theorem exec_hostCreditReturn {i : HostId} {a b : Nat} (hw : s.router.waiting = []) : exec (.hostCreditReturn i a b) s = .next
    (State.throttle { s with router := { s.router with hostUsed := State.returned s.router.hostUsed i.val a b } }) := by
  have hexec : exec (.hostCreditReturn i a b) s = .next
      (State.pump { s with router := { s.router with hostUsed := State.returned s.router.hostUsed i.val a b } }) :=
    congrArg Host.Outcome.next (State.inMain_of_up h _)
  rw [hexec, State.pump_of_router (s := { s with router := { s.router with hostUsed := State.returned s.router.hostUsed i.val a b } })
    rfl hw]

theorem exec_noroute_new {n : BitVec 16} (hnew : ∀ x, x ∈ s.router.noRouteAt → x.1 ≠ n.toNat) :
    exec (.noroute n) s = .next ((s.noteNoRoute n.toNat).suspectNode n.toNat 3) := by
  have hexec : exec (.noroute n) s = .next _ := congrArg Host.Outcome.next (State.inMain_of_up h _)
  have hnone : (s.router.noRouteAt.any fun x => x.1 == n.toNat && decide (s.now < x.2 + 32)) = false := by
    rw [List.any_eq_false]
    intro x hx
    simp [hnew x hx]
  rw [hexec, if_neg (by simp [hnone])]
  rfl

theorem exec_hmsg (f : Frame) : exec (.hmsg f) s = .next (s.hostSend (f.msg.offset % 8) f) :=
  congrArg Host.Outcome.next (State.inMain_of_up h _)

theorem exec_reasmTimeout {a b : Nat} {r : Reasm} (hw : s.router.waiting = []) (hr : r ∈ s.router.reasm) (ha : r.src = a)
    (hb : r.txid = b) : exec (.reasmTimeout a b) s = .next (s.dropReasm a b).throttle := by
  have hexec : exec (.reasmTimeout a b) s = .next _ := congrArg Host.Outcome.next (State.inMain_of_up h _)
  have hany : (s.router.reasm.any fun x => x.src == a && x.txid == b) = true := List.any_eq_true.mpr ⟨r, hr, by simp [ha, hb]⟩
  rw [hexec, if_pos hany]
  exact congrArg Host.Outcome.next (State.pump_of_router (s := s.dropReasm a b) rfl hw)

theorem exec_pnidWrite (v : Word) : exec (.pnidWrite v) s = .next (s.writeRtrSelf v) :=
  congrArg Host.Outcome.next (State.inMain_of_up h _)

end Rows

/-- A NOROUTE of a node within 32 µs of the last one is nothing (R278). -/
theorem exec_noroute_again {s : State} {n : BitVec 16} {x : Nat} (hx : (n.toNat, x) ∈ s.router.noRouteAt) (hsoon : s.now < x + 32) :
    exec (.noroute n) s = .next s := by
  have hany : (s.router.noRouteAt.any fun x => x.1 == n.toNat && decide (s.now < x.2 + 32)) = true :=
    List.any_eq_true.mpr ⟨_, hx, by simp [hsoon]⟩
  refine congrArg Host.Outcome.next (?_ : s.inMain _ = s)
  unfold State.inMain
  split
  · exact if_pos hany
  · rfl

/-! ## The frames of ROUTE_FRAME, ESCWAIT and HOST_FRAME -/

namespace State
variable {s : State} {x p vc : Nat} {f k : Frame} {b : Bool}

theorem dst_routed (x : Nat) (f : Frame) : (routed x f).dst = f.dst := by
  unfold routed
  split
  · rfl
  · rfl

/-- A host's frame has its whole TTL. -/
theorem routed_hosted (s : State) (f : Frame) (i n : Nat) : routed (32 + i) (s.hosted f n) = s.hosted f n :=
  if_pos (Nat.le_add_right ..)

/-- NOROUTE goes back to a source that is another node. -/
theorem dropNoRoute_of_other (hsrc : f.src ≠ s.pnid) :
    s.dropNoRoute f = (s.inc R.RTR_DROP F.RTR_DROP_NOROUTE).toNode f.src "NOROUTE" [f.dst] := by
  have hpnid : (s.inc R.RTR_DROP F.RTR_DROP_NOROUTE).pnid = s.pnid := rd_inc_other s (by decide) _ _
  unfold dropNoRoute
  exact if_neg (by rw [hpnid]; exact hsrc)

/-- What a frame that goes on leaves, after its input and the throttle (R275, R279). -/
theorem forwarded_shows (hne : 0 < k.payload.length) (hmax : k.payload.length ≤ 4096) :
    let t := (((s.forward p vc k b).leaveInput x f.vc f.blocks).throttle)
    Took t p (s.lk p).txSeq { k with ttl := k.ttl - 1 } b ∧ .frame p k.vc { k with ttl := k.ttl - 1 } ∈ t.sent ∧ t.regs = s.regs ∧
      t.router.waiting = s.router.waiting ∧ t.router.accesses = s.router.accesses := by
  obtain ⟨htook, hsent, honly⟩ := forward_takes (s := s) (p := p) hne hmax vc b
  have hleave := leaveInput_linksOnly (s.forward p vc k b) x f.vc f.blocks
  have hall := honly.trans hleave
  exact ⟨(htook.leaveInput x f.vc f.blocks).of_lk (lk_throttle ..), hleave.mem_sent hsent, (throttle_regs _).trans hall.regs,
    (throttle_waiting _).trans (congrArg RouterState.waiting hall.router),
    (throttle_accesses _).trans (congrArg RouterState.accesses hall.router)⟩

end State

/-- Settles O51: each row by the state that it answers. -/
theorem routingAndRouterEdges : Obligations.RoutingAndRouterEdges := by
  unfold Obligations.RoutingAndRouterEdges
  refine ⟨fun s x f h hdst henc hseg hkind hword hweight htakes hsource hseal => ?_,
    fun s x f h hx hdst henc hbad hkind hword hnote hweight htakes hsource => ?_, fun s x f b h hx hdst httl => ?_,
    fun s x f b p h hx hdst httl hesc hnames hgone hne hmax hbest => ?_, fun s x f b h hx hdst httl hesc hnames hgone hcand hbusy => ?_,
    fun s x f b h hdst hsrc henc httl hlost => ?_,
    fun s w f d p y r h hw hf hhost hport hdst httl hesc hnames hgone hdiff hturn hway hports hcross hfree hne hmax => ?_,
    fun s p h howes => ?_, fun s i f h href => ?_, fun s i f h href hbad => ?_,
    fun s i f k p n h href henc hseal hkind hcount hentry hline hself hnames hgone hne hmax hk hbest => ?_, fun s i a b h hw => ?_,
    fun s n x hx hsoon => exec_noroute_again hx hsoon, fun s n g i h hnew hact hholds hi hself hgrove => ?_, fun s f k h hk hroom => ?_,
    fun s a b r h hw hr ha hb => ?_, fun s v h hdown hwait => ?_, fun s v h hup => ?_⟩
  · have hexec := exec_routeFrame h x f false
    have honly := State.leaveInput_linksOnly s x.val f.vc f.blocks
    have hknown := State.frameKnown_of (s := s) hweight htakes hsource
    rw [State.routeFrame_here (.inr henc) hdst (State.slotWaits_of_whole hseg),
      State.deliver_plain hkind hword ((honly.frameKnown f).trans hknown) henc ((honly.needsSeal f).trans hseal) hseg,
      State.handOver, honly.servingPort] at hexec
    exact ⟨_, hexec, List.mem_append_right _ (List.mem_singleton_self _),
      (State.throttle_regs _).trans ((State.send_regs ..).trans honly.regs),
      (State.throttle_waiting _).trans (congrArg RouterState.waiting honly.router), exec_mem hexec rfl⟩
  · have hexec := exec_routeFrame h x f false
    have honly := State.leaveInput_linksOnly s x.val f.vc f.blocks
    have hknown := State.frameKnown_of (s := s) hweight htakes hsource
    obtain ⟨hauth, htag, herr, hregs⟩ := State.refuse_authFailed_shows (s := s.leaveInput x.val f.vc f.blocks) (f := f) hx
    rw [State.routeFrame_here (.inl hx) hdst (State.slotWaits_of_forged henc hbad),
      State.deliver_forged hkind hword ((honly.frameKnown f).trans hknown) hnote henc hbad] at hexec
    rw [State.rd_congr honly.regs] at hauth htag
    exact ⟨_, hexec, (State.rd_throttle ..).trans hauth, (State.rd_throttle ..).trans htag, herr,
      (((State.sameRegsBut.refl _ s).of_regs honly.regs).trans hregs).throttle, exec_mem hexec rfl⟩
  · have hexec := exec_routeFrame h x f b
    rw [State.routeFrame_expired hx hdst httl] at hexec
    have hdropped := (((State.Emits.refl s).inc R.RTR_DROP F.RTR_DROP_TTL).record
      (((ev Sev.fault Src.rtr x.val).field R.RTR_DROP F.RTR_DROP_TTL).about f.dst)).router
    have honly := State.leaveInput_linksOnly ((s.inc R.RTR_DROP F.RTR_DROP_TTL).record
      (((ev Sev.fault Src.rtr x.val).field R.RTR_DROP F.RTR_DROP_TTL).about f.dst)) x.val f.vc f.blocks
    refine ⟨_, hexec, ?_, (State.throttle_waiting _).trans (congrArg RouterState.waiting (honly.router.trans hdropped)),
      (State.sameRegsBut.of_regs (((State.sameRegsBut.refl _ s).inc (by simp) _).record (by simp) _) honly.regs).throttle,
      exec_mem hexec rfl⟩
    rw [State.rd_throttle, State.rd_congr honly.regs, State.rd_record _ _ (by decide), State.rd_inc_same _ _ rfl]
    rfl
  · have hexec := exec_routeFrame h x f b
    rw [State.routeFrame_away (.inl hx) hdst (.inr httl), State.routed_of_link hx, State.nextHop_adaptive hnames hgone hesc,
      State.adaptiveHop_go hbest] at hexec
    obtain ⟨htook, hsent, hregs, hwaiting, -⟩ := State.forwarded_shows (s := s) (x := x.val) (p := p) (vc := f.vc) (f := f) (k := f)
      (b := b) hne hmax
    exact ⟨_, hexec, hsent, htook.held, htook.txSeq, hregs, hwaiting, exec_mem hexec rfl⟩
  · have hexec := exec_routeFrame h x f b
    rw [State.routeFrame_away (.inl hx) hdst (.inr httl), State.routed_of_link hx, State.nextHop_adaptive hnames hgone hesc,
      State.adaptiveHop_wait hcand hbusy] at hexec
    exact ⟨_, hexec, rfl, rfl, rfl, exec_mem hexec rfl⟩
  · have hexec := exec_routeFrame h x f b
    have honly := State.leaveInput_linksOnly (s.dropNoRoute f) x.val f.vc f.blocks
    have hdrop := State.dropNoRoute_of_other (s := s) hsrc
    have hnone : s.nextHop x.val (State.routed x.val f) = .drop := State.nextHop_of_lost (by rw [State.dst_routed]; exact hlost)
    rw [State.routeFrame_away (.inr henc) hdst httl, hnone] at hexec
    refine ⟨_, hexec, ?_, honly.mem_sent ?_, (State.sameRegsBut.of_regs ?_ honly.regs).throttle, exec_mem hexec rfl⟩
    · rw [State.rd_throttle, State.rd_congr honly.regs, hdrop, State.toNode, State.rd_send, State.rd_inc_same _ _ rfl]
      rfl
    · rw [hdrop]
      exact List.mem_append_right _ (List.mem_singleton_self _)
    · rw [hdrop]
      exact ((State.sameRegsBut.refl _ s).inc (by simp) _).send _
  · have hexec := exec_escwait h hw hf hhost hdst hesc
    have hnext : s.noneWaiting.nextHop w.inPort (f.route f.msg.dtr true false false) =
        .go p 0 { f.route f.msg.dtr true false false with vc := 0 } :=
      (State.nextHop_escape (s := s.noneWaiting) (f := f.route f.msg.dtr true false false) hnames hgone rfl).trans
        (State.escapeHop_turns (s := s.noneWaiting) (f := f.route f.msg.dtr true false false) hdiff hturn hway hports hcross hfree)
    rw [State.routeFrame_away (s := s.noneWaiting) (f := f.route f.msg.dtr true false false) (.inl hport) hdst (.inr httl),
      State.routed_of_link hport, hnext] at hexec
    obtain ⟨-, hsent, hregs, hwaiting, -⟩ := State.forwarded_shows (s := s.noneWaiting) (x := w.inPort) (p := p) (vc := 0)
      (f := f.route f.msg.dtr true false false) (k := { f.route f.msg.dtr true false false with vc := 0 }) (b := w.stomped) hne hmax
    exact ⟨_, hexec, hwaiting, hsent, hregs, exec_mem hexec rfl⟩
  · have hexec := exec_creditTimer h howes
    refine ⟨_, hexec, rfl, ?_, (s.sendCredits_linksOnly p.val).regs, exec_mem hexec rfl⟩
    unfold State.sendCredits
    rw [State.lk_updLk_same, State.control, State.lk_send]
  · have hexec := exec_hostFrame_refused h (i := i) href
    refine ⟨_, hexec, rfl, ?_, ((State.sameRegsBut.refl _ s).inc (by simp) _).send _, rfl, exec_mem hexec rfl⟩
    rw [State.hostErr, State.rd_send, State.rd_inc_same _ _ rfl]
    rfl
  · have hexec := exec_hostFrame_error h (i := i) href hbad
    exact ⟨_, hexec, rfl, State.send_regs .., State.send_router .., exec_mem hexec rfl⟩
  · have hexec := exec_hostFrame_routed h (i := i) href henc hseal hkind hcount hentry hline
    have hnext : State.nextHop (s.keepAccess (f.hostAccess i.val)) (32 + i.val) (s.hosted f n) = .go p 6 (s.hosted f n) :=
      (State.nextHop_adaptive (s := s.keepAccess _) (f := s.hosted f n) hnames hgone rfl).trans
        (State.adaptiveHop_go (s := s.keepAccess _) (f := s.hosted f n) hbest)
    rw [State.routeFrame_away (s := s.keepAccess _) (f := s.hosted f n) (.inr henc) hself (.inl (Nat.le_add_right ..)),
      State.routed_hosted, hnext] at hexec
    obtain ⟨-, hsent, hregs, -, haccesses⟩ := State.forwarded_shows (s := s.keepAccess (f.hostAccess i.val)) (x := 32 + i.val) (p := p)
      (vc := 6) (f := s.hosted f n) (k := s.hosted f n)
      (b := false) hne hmax
    exact ⟨_, hexec, hk ▸ hsent, haccesses, hregs, exec_mem hexec rfl⟩
  · have hexec := exec_hostCreditReturn h (i := i) (a := a) (b := b) hw
    have hcount := State.vcCount_returned s.router.hostUsed i.val a b
    refine ⟨_, hexec, (hcount _).trans ?_, (hcount _).trans (if_pos rfl), fun k htwo hsix => (hcount k).trans ?_, rfl, rfl,
      exec_mem hexec rfl⟩
    · rw [if_neg (by omega), if_pos rfl]
    · rw [if_neg hsix, if_neg htwo]
  · have hexec := exec_noroute_new h hnew
    rw [State.suspectNode_of_single (s := s.noteNoRoute n.toNat) hact hholds hi hself hgrove, State.toMembers_eq] at hexec
    refine ⟨_, hexec, List.mem_append_right _ (List.mem_singleton_self _), fun j hj hne => List.mem_append_right _ ?_, rfl,
      exec_mem hexec rfl⟩
    refine List.mem_map.mpr ⟨_, List.mem_filter.mpr ⟨List.mem_map.mpr ⟨j, List.mem_range.mpr hj, rfl⟩, ?_⟩, rfl⟩
    exact bne_iff_ne.mpr hne
  · subst hk
    have hexec := exec_hmsg h f
    obtain ⟨hsent, hused, hregs⟩ := State.hostSend_shows hroom
    exact ⟨_, hexec, hsent, hused, hregs, exec_mem hexec rfl⟩
  · have hexec := exec_reasmTimeout h hw hr ha hb
    have hbase : s.sameRegsBut [R.RTR_XSTAT] { s with router := { s.router with
      reasm := s.router.reasm.filter fun x => !(x.src == a && x.txid == b) } } := (State.sameRegsBut.refl _ s).of_regs rfl
    refine ⟨_, hexec, rfl, ?_, (hbase.inc (by simp) _).throttle, rfl, exec_mem hexec rfl⟩
    rw [State.rd_throttle, State.dropReasm, State.rd_inc_same _ _ rfl]
    rfl
  · have hexec := exec_pnidWrite h v
    rw [State.writeRtrSelf_of_down hdown hwait] at hexec
    obtain ⟨hpnid, hset⟩ := State.setPnid_shows (s := s) v
    exact ⟨_, hexec, hpnid, hset, State.setPnid_regs _, (State.setPnid_emits _).sent.trans (List.append_nil _), exec_mem hexec rfl⟩
  · have hexec := exec_pnidWrite h v
    obtain ⟨hregs, hsent⟩ := State.writeRtrSelf_of_up (v := v) hup
    exact ⟨_, hexec, hregs.rd (by decide) _, hregs, hsent, exec_mem hexec rfl⟩

end Sys2Proof.Machine
end

section
/-! PROOF. The queue and the state after reset (R349, assumptions 1, 3, 5 and 7). -/
namespace Sys2Proof.Machine

/-- The count of throttled cycles is the only register that a throttled microsecond touches besides the clock (R280). -/
theorem State.throttleTick_regs (s : State) : s.sameRegsBut [R.RTR_XSTAT] s.throttleTick := by
  unfold throttleTick
  split
  · exact .refl _ s
  · exact ((sameRegsBut.refl _ s).of_regs (by rfl)).add (by simp) _ _

/-- While AO_RST_N is released, an idle microsecond moves GLB_AOTIME on by one (R349). -/
theorem now_idle {s : State} (h : s.aoUp) : (idle s).now = (s.now + 1) % 2 ^ F.GLB_AOTIME_US.width := by
  have hrun : s.ao.aoReset = false := h
  rw [idle, State.tick, if_neg (by simp [hrun]), State.now, (State.throttleTick_regs _).rd (by decide), State.rd_wr_same _ _ rfl,
    Nat.mod_mod]

/-- Settles O1: a queue with a front command by definition, an empty one by the idle microsecond. -/
theorem stepRunsTheFrontCommand : Obligations.StepRunsTheFrontCommand := by
  unfold Obligations.StepRunsTheFrontCommand
  refine ⟨fun c rest s => rfl, fun s hempty h => ⟨idle s, ?_, now_idle h⟩⟩
  rw [step, hempty]

/-- Settles O4: every map of the reset state is empty. -/
theorem resetIsCanonical : Obligations.ResetIsCanonical := by
  unfold Obligations.ResetIsCanonical State.canonical
  exact ⟨⟨rfl, rfl, rfl, rfl⟩, rfl, rfl⟩

end Sys2Proof.Machine
end

section
/-! PROOF. The rows VDD_MAIN_LOSS, CLK_CORE_LOSS, SWRST and BOOT_WATCHDOG (R13, R347, R405, R428, R429). -/
namespace Sys2Proof.Machine

namespace State
variable (s : State)

theorem not_up_mainReset (pin : Bool) : ¬(s.mainReset pin).up := by simp [up, mainReset_ao]

/-- A software reset puts MAIN in reset and shows CMD (R347, R349). -/
theorem softReset_shows : ¬s.softReset.up ∧ s.softReset.rd R.GLB_RSTCAUSE F.GLB_RSTCAUSE_CMD = 1 := by
  unfold softReset
  exact ⟨by simp [up, mainReset_ao], rd_resetCause_some _ rfl⟩

end State

section Rows
variable {s : State}

theorem exec_vddMainLoss (h : s.aoUp) : ∃ t, exec .vddMainLoss s = .next t ∧ ¬t.up ∧ t.ao.vddMain = false := by
  refine ⟨_, congrArg Host.Outcome.next (State.inAo_of_aoUp h _), ?_⟩
  dsimp only
  split
  · exact ⟨State.not_up_mainReset _ true, by rw [State.mainReset_ao]⟩
  · exact ⟨by simp [State.up, State.assertRst_ao], by rw [State.assertRst_ao]⟩

theorem exec_clkCoreLoss (h : s.up) : ∃ t, exec .clkCoreLoss s = .next t ∧ ¬t.up ∧ t.ao.clkCore = false := by
  refine ⟨_, congrArg Host.Outcome.next (State.inMain_of_up h _), ?_, ?_⟩
  · simp [State.up, State.mainReset_ao]
  · rw [State.record_ao]

theorem exec_swrst (h : s.aoUp) (c : BitVec 32) : exec (.swrst c) s = .next (s.writeSwrst c.toNat) :=
  congrArg Host.Outcome.next (State.inAo_of_aoUp h _)

/-- A boot that has not reached STAGE 5 in time resets MAIN and shows WDOG (R347). -/
theorem exec_bootWatchdog (h : s.up) (harmed : s.ao.wdogArmed = true) (hstage : s.rd R.GLB_BOOT F.GLB_BOOT_STAGE < 5)
    (hrun : s.rangerHalted = false) : exec .bootWatchdog s =
      .next (((s.mainReset false).resetCause (some F.GLB_RSTCAUSE_WDOG)).record
        ((ev Sev.fault Src.glb 0).field R.GLB_RSTCAUSE F.GLB_RSTCAUSE_WDOG)) := by
  have hexec : exec .bootWatchdog s = .next _ := congrArg Host.Outcome.next (State.inMain_of_up h _)
  rw [hexec]
  refine congrArg Host.Outcome.next (if_pos ?_)
  simp [harmed, hrun, show s.rd R.GLB_BOOT F.GLB_BOOT_STAGE ≠ 5 by omega, show s.rd R.GLB_BOOT F.GLB_BOOT_STAGE ≠ 6 by omega]

end Rows

/-- Settles O9: each row by the reset that it makes. -/
theorem otherMainResets : Obligations.OtherMainResets := by
  unfold Obligations.OtherMainResets
  refine ⟨fun s h => ?_, fun s h => ?_, fun s h => ?_, fun s c h hc => ?_, fun s h harmed hstage hrun => ?_⟩
  · obtain ⟨t, hexec, hup, hvdd⟩ := exec_vddMainLoss h
    exact ⟨t, hexec, hup, hvdd, exec_mem hexec rfl⟩
  · obtain ⟨t, hexec, hup, hclk⟩ := exec_clkCoreLoss h
    exact ⟨t, hexec, hup, hclk, exec_mem hexec rfl⟩
  · have hexec : exec (.swrst 0x0C5A0100) s = .next s.softReset := exec_swrst h _
    obtain ⟨hup, hcmd⟩ := s.softReset_shows
    exact ⟨_, hexec, hup, hcmd, exec_mem hexec rfl⟩
  · have hne : c.toNat ≠ 0x0C5A0100 := fun e => hc (BitVec.eq_of_toNat_eq e)
    rw [exec_swrst h, State.writeSwrst, if_neg hne]
  · have hexec := exec_bootWatchdog h harmed hstage hrun
    refine ⟨_, hexec, by simp [State.up, State.mainReset_ao], ?_, exec_mem hexec rfl⟩
    rw [State.rd_record _ _ (by decide)]
    exact State.rd_resetCause_some _ rfl

end Sys2Proof.Machine
end

section
/-! PROOF. What the boot of MAIN leaves of the AO domain (R343, R347, R348, R354, R363, R414): everything but the boot watchdog. -/
namespace Sys2Proof.Machine

namespace State
variable (s : State)

/-! ## The record area (R363, R398) -/

theorem programFlash_ao (a : Nat) (l : List Byte) : (s.programFlash a l).ao = s.ao := by
  induction l generalizing s a with
  | nil => rfl
  | cons b r ih => exact ih ..

theorem eraseFlash_ao (a n : Nat) : (s.eraseFlash a n).ao = s.ao := rfl

theorem eraseAhead_ao : s.eraseAhead.ao = s.ao := by
  unfold eraseAhead
  dsimp only
  split <;> rfl

theorem newBank_ao : s.newBank.ao = s.ao := by
  unfold newBank
  simp [eraseAhead_ao, programFlash_ao, eraseFlash_ao]

theorem loadEntry_ao (e : List Byte) : (s.loadEntry e).ao = s.ao := by
  unfold loadEntry
  dsimp only
  split
  case h_5 => exact each_eq s State.ao fun _ _ _ => rfl
  all_goals rfl

theorem loadBank_ao (b seq : Nat) : (s.loadBank b seq).ao = s.ao := by
  unfold loadBank
  dsimp only
  rw [compactDue, flag_ao, eraseAhead_ao, each_eq _ State.ao fun v e _ => loadEntry_ao v e, wr_ao, wr_ao,
    each_eq _ State.ao fun v x _ => by rw [record_ao, inc_ao], add_ao]

theorem bootError_ao (err : Nat) : (s.bootError err).ao = s.ao := by rw [bootError, record_ao, wr_ao]

theorem loadArea_ao : s.loadArea.ao = s.ao := by
  unfold loadArea
  split
  · exact bootError_ao _ 9
  · split
    · exact loadBank_ao ..
    · exact newBank_ao s

/-! ## The tiles, the images and the keys (R305, R328, R353, R414) -/

theorem initTiles_ao : s.initTiles.ao = s.ao := each_eq s State.ao fun v t _ => by
  dsimp only
  split
  · rw [record_ao, useFree_ao, wr_ao]
  · rfl

theorem slotWarn_ao (x check : Nat) : (s.slotWarn x check).ao = s.ao := record_ao ..

theorem takeImage_ao (l : List Nat) : (s.takeImage l).1.ao = s.ao := by
  induction l generalizing s with
  | nil => rfl
  | cons x r ih =>
    unfold takeImage
    split
    · rfl
    · rw [ih, slotWarn_ao]

theorem loadImage_ao (x : Nat) : (s.loadImage x).ao = s.ao := each_eq s State.ao fun _ _ _ => rfl

theorem testKeys_ao : s.testKeys.ao = s.ao := by
  unfold testKeys
  split
  · rfl
  · exact each_eq s State.ao fun _ _ _ => rfl

theorem startRun_ao (l : List Nat) (plog : Nat) (rom boot : Bool) : (s.startRun l plog rom boot).ao = s.ao := by
  unfold startRun
  dsimp only
  split <;> rfl

/-! ## The boot stages (R343, R354) -/

/-- The AO domain apart from the boot watchdog, which the start of the firmware disarms. -/
def unwatched : AoState := { s.ao with wdogArmed := false }

theorem unwatched_startFirmware : s.startFirmware.unwatched = s.unwatched := rfl

theorem unwatched_of_ao {s t : State} (h : t.ao = s.ao) : t.unwatched = s.unwatched := by rw [unwatched, h, unwatched]

theorem unwatched_bootFail (err : Nat) : (s.bootFail err).unwatched = s.unwatched := unwatched_of_ao (bootError_ao s err)

theorem unwatched_bootConfig : s.bootConfig.unwatched = s.unwatched := by
  unfold bootConfig
  split
  · exact unwatched_startFirmware _
  · exact (unwatched_startFirmware _).trans (unwatched_of_ao (bootError_ao _ 8))

theorem unwatched_runBoot : s.runBoot.unwatched = s.unwatched := by
  have hwarned : ∀ (v : State) (n : Nat), (v.each [0, 1] fun s x =>
      if s.imageCheck x n = 0 then s else s.slotWarn x (s.imageCheck x n)).ao = v.ao := fun v n =>
    each_eq v State.ao fun v x _ => by
      split
      · rfl
      · exact slotWarn_ao ..
  have hloaded : s.loadArea.initTiles.ao = s.ao := (initTiles_ao _).trans (loadArea_ao s)
  unfold runBoot
  dsimp only
  split
  · exact unwatched_bootFail ..
  · split
    · rfl
    · split
      all_goals
        rename_i hx
        have htaken := (congrArg (fun y => y.1.ao) hx).symm.trans ((takeImage_ao ..).trans ((hwarned ..).trans hloaded))
      · exact (unwatched_bootConfig _).trans (unwatched_of_ao ((loadImage_ao ..).trans htaken))
      · exact (unwatched_bootFail ..).trans (unwatched_of_ao htaken)

/-- The release of MAIN starts it and notes when; it leaves the rest of the AO domain but the boot watchdog (R343, R348). -/
theorem unwatched_releaseMain : s.releaseMain.unwatched =
    { s.ao with mainRun := true, wdogArmed := false, startedAt := some s.now } := by
  unfold releaseMain
  dsimp only
  split
  · rw [unwatched, startRun_ao, testKeys_ao]
    rfl
  · rw [unwatched_runBoot, unwatched, testKeys_ao]
    rfl

end State
end Sys2Proof.Machine
end

section
/-! PROOF. The rows MAIN_START, HOLD_OUT_END, RSTIGN, HOCLR, CLK_CORE_RESTART and STORM_RESET (R343, R346, R348, R379, R428). -/
namespace Sys2Proof.Machine

namespace State
variable {s : State}

/-! ## A start (R343, R348) -/

theorem tryStart_of_held (h : s.canStart = false) : s.tryStart = s := if_pos (by simp [h])

theorem tryStart_of_storm (h : s.canStart = true) (hcount : 9 ≤ s.startCount) : s.tryStart = s.holdOut := by
  rw [tryStart, if_neg (by simp [h]), if_pos hcount]

/-- MAIN runs after a start that the storm's count allows; the start is noted, and the boot watchdog is the rest of what changes of the
AO domain. -/
theorem unwatched_tryStart (h : s.canStart = true) (hcount : s.startCount < 9) : s.tryStart.unwatched =
    { s.ao with mainRun := true, wdogArmed := false, startedAt := some s.now } := by
  rw [tryStart, if_neg (by simp [h]), if_neg (by omega), unwatched_releaseMain, now, rd_wr_other _ (by decide), now, wr_ao]

theorem up_tryStart (h : s.canStart = true) (hcount : s.startCount < 9) : s.tryStart.up :=
  congrArg AoState.mainRun (unwatched_tryStart h hcount)

theorem not_up_of_canStart (h : s.canStart = true) : ¬s.up := fun hup => by
  have hrun : s.ao.mainRun = true := hup
  simp [canStart, hrun] at h

/-! ## Hold-outs (R348) -/

theorem startCount_congr {t : State} (hao : t.ao = s.ao) (hnow : t.now = s.now)
    (hcount : t.rd R.GLB_STORM F.GLB_STORM_COUNT = s.rd R.GLB_STORM F.GLB_STORM_COUNT) : t.startCount = s.startCount := by
  unfold startCount
  rw [hao, hnow, hcount]

theorem holdOut_ao : s.holdOut.ao = { s.ao with holdUntil := some (s.now + 1000000 * 2 ^ s.rd R.GLB_STORM F.GLB_STORM_LEVEL) } := by
  unfold holdOut
  rw [record_ao]
  rfl

/-- A hold-out shows in HOLD and in STAGE (R348). -/
theorem holdOut_shows : s.holdOut.rd R.GLB_STORM F.GLB_STORM_HOLD = 1 ∧ s.holdOut.rd R.GLB_BOOT F.GLB_BOOT_STAGE = 7 := by
  unfold holdOut
  dsimp only
  constructor
  · rw [rd_record _ _ (by decide), rd_wr_other _ (by decide), rd_wr_apart _ _ rfl rfl, rd_wr_same _ _ rfl]
    rfl
  · rw [rd_record _ _ (by decide), rd_wr_same _ _ rfl]
    rfl

theorem holdEnd_ao : s.holdEnd.ao = { s.ao with holdUntil := none } := rfl

/-- The start that ends a hold-out is the first of a new count. -/
theorem startCount_holdEnd : s.holdEnd.startCount < 9 := by
  have hcount : s.holdEnd.rd R.GLB_STORM F.GLB_STORM_COUNT = 0 :=
    (rd_wr_other _ (by decide) ..).trans (rd_wr_same (s.wr R.GLB_STORM F.GLB_STORM_HOLD 0) _ rfl 0)
  unfold startCount
  split
  · split <;> omega
  · omega

/-- A hold-out that ends is over whether MAIN starts then or something else still holds it in reset. -/
theorem holdUntil_tryStart_holdEnd : s.holdEnd.tryStart.ao.holdUntil = none := by
  cases h : s.holdEnd.canStart with
  | false => rw [tryStart_of_held h, holdEnd_ao]
  | true => exact congrArg AoState.holdUntil (unwatched_tryStart h startCount_holdEnd)

/-! ## Isolation (R379) -/

/-- Isolation holds MAIN in reset whatever else comes. -/
theorem tryStart_of_isolated (h : s.rd R.MGB_STATUS F.MGB_STATUS_ISOLATED = 1) : s.tryStart = s :=
  tryStart_of_held (by simp [canStart, on, h])

theorem not_up_tryStart (hiso : s.rd R.MGB_STATUS F.MGB_STATUS_ISOLATED = 1) (hdown : ¬s.up) : ¬s.tryStart.up := by
  rwa [tryStart_of_isolated hiso]

theorem holdEnd_regs : s.sameRegsBut [R.GLB_STORM, R.GLB_BOOT] s.holdEnd :=
  ((((sameRegsBut.refl _ s).wr (by simp) _ _).wr (by simp) _ _).of_regs rfl).wr (by simp) _ _

theorem not_up_tryStart_holdEnd (hiso : s.rd R.MGB_STATUS F.MGB_STATUS_ISOLATED = 1) (hdown : ¬s.up) : ¬s.holdEnd.tryStart.up :=
  not_up_tryStart ((holdEnd_regs.rd (by decide) _).trans hiso) hdown

theorem inAo_cases (s : State) (f : State → State) : s.inAo f = s ∨ s.inAo f = f s := by
  unfold inAo
  split
  · exact .inl rfl
  · exact .inr rfl

end State

section Rows
variable {s : State}

theorem exec_mainStart (h : s.aoUp) : exec .mainStart s = .next s.tryStart := congrArg Host.Outcome.next (State.inAo_of_aoUp h _)

theorem exec_holdOutEnd (h : s.aoUp) (hhold : s.rd R.GLB_STORM F.GLB_STORM_HOLD = 1) :
    exec .holdOutEnd s = .next s.holdEnd.tryStart := by
  have hexec : exec .holdOutEnd s = .next _ := congrArg Host.Outcome.next (State.inAo_of_aoUp h _)
  rw [hexec, if_pos (by simp [State.on, hhold])]

theorem exec_rstign (h : s.aoUp) : exec .rstign s = .next s.writeRstign := congrArg Host.Outcome.next (State.inAo_of_aoUp h _)

theorem exec_hoclr (h : s.aoUp) : exec .hoclr s = .next s.writeHoclr := congrArg Host.Outcome.next (State.inAo_of_aoUp h _)

theorem exec_clkCoreRestart (h : s.aoUp) : exec .clkCoreRestart s =
    .next (if s.ao.clkCore then s else State.tryStart { s with ao := { s.ao with clkCore := true } }) :=
  congrArg Host.Outcome.next (State.inAo_of_aoUp h _)

theorem exec_stormReset (h : s.up) : exec .stormReset s =
    .next ((s.wr R.GLB_STORM F.GLB_STORM_COUNT 0).wr R.GLB_STORM F.GLB_STORM_LEVEL 0) :=
  congrArg Host.Outcome.next (State.inMain_of_up h _)

/-- Clearing LEVEL leaves HOLD, and so whether a hold-out runs. -/
theorem State.hold_wr_level (n : Nat) : (s.wr R.GLB_STORM F.GLB_STORM_LEVEL n).on R.GLB_STORM F.GLB_STORM_HOLD =
    s.on R.GLB_STORM F.GLB_STORM_HOLD := State.on_congr (State.rd_wr_apart _ _ rfl rfl _)

theorem State.writeHoclr_of_hold (h : s.rd R.GLB_STORM F.GLB_STORM_HOLD = 1) :
    s.writeHoclr = (s.wr R.GLB_STORM F.GLB_STORM_LEVEL 0).holdEnd.tryStart :=
  if_pos (by rw [State.hold_wr_level, State.on, h]; rfl)

theorem State.writeHoclr_of_no_hold (h : s.rd R.GLB_STORM F.GLB_STORM_HOLD = 0) :
    s.writeHoclr = s.wr R.GLB_STORM F.GLB_STORM_LEVEL 0 :=
  if_neg (by rw [State.hold_wr_level, State.on, h]; decide)

/-- None of the rows that start MAIN releases it while it is isolated (R379). -/
theorem not_up_of_isolated {c : Instr} {t : State}
    (hc : c ∈ [Instr.mainStart, .holdOutEnd, .rstign, .hoclr, .clkCoreRestart, .rstNRelease])
    (hiso : s.rd R.MGB_STATUS F.MGB_STATUS_ISOLATED = 1) (hdown : ¬s.up) (hexec : exec c s = .next t) : ¬t.up := by
  have hstays : ∀ f : State → State, exec c s = .next (s.inAo f) → ¬(f s).up → ¬t.up := fun f hf hdown' => by
    obtain rfl := Host.Outcome.next.inj (hf.symm.trans hexec)
    obtain hs | hs := s.inAo_cases f <;> rwa [hs]
  simp only [List.mem_cons, List.not_mem_nil, or_false] at hc
  obtain rfl | rfl | rfl | rfl | rfl | rfl := hc
  · exact hstays _ rfl (State.not_up_tryStart hiso hdown)
  · refine hstays _ rfl ?_
    split
    · exact State.not_up_tryStart_holdEnd hiso hdown
    · exact hdown
  · refine hstays _ rfl ?_
    unfold State.writeRstign
    split
    · exact State.not_up_tryStart ((State.rd_wr_other _ (by decide) ..).trans hiso) hdown
    · exact hdown
  · refine hstays _ rfl ?_
    unfold State.writeHoclr
    dsimp only
    split
    · exact State.not_up_tryStart_holdEnd ((State.rd_wr_other _ (by decide) ..).trans hiso) hdown
    · exact hdown
  · refine hstays _ rfl ?_
    dsimp only
    split
    · exact hdown
    · exact State.not_up_tryStart (s := { s with ao := { s.ao with clkCore := true } }) hiso hdown
  · exact hstays _ rfl hdown

end Rows

/-- Settles O10: each row by the start that it tries. -/
theorem mainStarts : Obligations.MainStarts := by
  unfold Obligations.MainStarts
  refine ⟨fun s h hcan hcount => ?_, fun s h hcan hcount => ?_, fun s h hhold hcan => ?_, fun s h hheld hcan hcount => ?_,
    fun s h hhold => ?_, fun s h hhold => ?_, fun s h hclk hcan hcount => ?_, fun s h => ?_,
    fun c s t hc hiso hdown hexec => not_up_of_isolated hc hiso hdown hexec⟩
  · have hexec := exec_mainStart h
    exact ⟨_, hexec, State.up_tryStart hcan hcount, congrArg AoState.startedAt (State.unwatched_tryStart hcan hcount),
      exec_mem hexec rfl⟩
  · have hexec := exec_mainStart h
    rw [State.tryStart_of_storm hcan hcount] at hexec
    obtain ⟨hhold, hstage⟩ := s.holdOut_shows
    refine ⟨_, hexec, ?_, hhold, hstage, by rw [State.holdOut_ao], exec_mem hexec rfl⟩
    rw [State.up, State.holdOut_ao]
    exact State.not_up_of_canStart hcan
  · have hexec := exec_holdOutEnd h hhold
    exact ⟨_, hexec, State.up_tryStart hcan State.startCount_holdEnd, State.holdUntil_tryStart_holdEnd, exec_mem hexec rfl⟩
  · have hexec := exec_rstign h
    rw [State.writeRstign, if_pos (by simp [State.on, hheld])] at hexec
    have hsame : (s.wr R.GLB_RSTCTL F.GLB_RSTCTL_RSTIGN 1).startCount = s.startCount :=
      State.startCount_congr rfl (State.rd_wr_other _ (by decide) ..) (State.rd_wr_other _ (by decide) ..)
    exact ⟨_, hexec, State.up_tryStart hcan (hsame ▸ hcount), exec_mem hexec rfl⟩
  · have hexec := exec_hoclr h
    rw [State.writeHoclr_of_no_hold hhold] at hexec
    exact ⟨_, hexec, State.rd_wr_same _ _ rfl _, (State.sameRegsBut.refl _ s).wr (by simp) _ _, rfl, rfl⟩
  · have hexec := exec_hoclr h
    rw [State.writeHoclr_of_hold hhold] at hexec
    exact ⟨_, hexec, State.holdUntil_tryStart_holdEnd, exec_mem hexec rfl⟩
  · have hexec := exec_clkCoreRestart h
    rw [if_neg (by simp [hclk])] at hexec
    have hsame : State.startCount { s with ao := { s.ao with clkCore := true } } = s.startCount := rfl
    exact ⟨_, hexec, congrArg AoState.clkCore (State.unwatched_tryStart hcan (hsame ▸ hcount)),
      State.up_tryStart hcan (hsame ▸ hcount),
      exec_mem hexec rfl⟩
  · have hexec := exec_stormReset h
    refine ⟨_, hexec, ?_, State.rd_wr_same _ _ rfl _, ((State.sameRegsBut.refl _ s).wr (by simp) _ _).wr (by simp) _ _, rfl, rfl⟩
    rw [State.rd_wr_apart _ _ rfl rfl, State.rd_wr_same _ _ rfl]
    rfl

end Sys2Proof.Machine
end

section
/-! PROOF. Flash bytes after a program, an erase and a cut-off operation (R365), and the bytes of NVM_BUF (R366). -/
namespace Sys2Proof.Machine

/-! ## Bytes -/

theorem leBytes_leNat (l : List Byte) : leBytes l.length (leNat l) = l := by
  induction l with
  | nil => rfl
  | cons b r ih =>
    have hlow : (b.toNat + 256 * leNat r) / 256 = leNat r := by omega
    rw [List.length_cons, leBytes, leNat, hlow, ih, List.cons.injEq]
    refine ⟨BitVec.eq_of_toNat_eq ?_, rfl⟩
    rw [BitVec.toNat_ofNat]
    omega

theorem leNat_lt (l : List Byte) : leNat l < 256 ^ l.length := by
  have h := leNat_leBytes l.length (leNat l)
  rw [leBytes_leNat] at h
  exact h ▸ Nat.mod_lt _ (by positivity)

/-- Slices of one length, one after the other, are the start of the string. -/
theorem flatMap_slices (d : List Byte) (m : Nat) {n : Nat} (h : m * n ≤ d.length) :
    ((List.range n).flatMap fun c => slice d (m * c) m) = d.take (m * n) := by
  induction n with
  | zero => rfl
  | succ n ih =>
    rw [Nat.mul_succ] at h
    rw [List.range_succ, List.flatMap_append, ih (by omega), Nat.mul_succ, List.take_add, ← slice_eq_take_drop (by omega)]
    simp

namespace State
variable (s : State)

/-! ## Flash bytes (R365) -/

theorem flashByte_congr {s t : State} (h : t.flash = s.flash) (a : Nat) : t.flashByte a = s.flashByte a := by simp [flashByte, h]

theorem flashByte_setFlashByte (a c : Nat) (v : Byte) :
    (s.setFlashByte a v).flashByte c = if c = a then v else s.flashByte c := by simp [flashByte, setFlashByte, sget_sset]

theorem flashByte_programFlash_out {a c : Nat} {l : List Byte} (h : c < a ∨ a + l.length ≤ c) :
    (s.programFlash a l).flashByte c = s.flashByte c := by
  induction l generalizing s a with
  | nil => rfl
  | cons v r ih =>
    rw [List.length_cons] at h
    rw [programFlash, ih _ (by omega), flashByte_setFlashByte, if_neg (by omega)]

/-- A program makes each byte old AND new. -/
theorem flashByte_programFlash_in {a i : Nat} {l : List Byte} (h : i < l.length) :
    (s.programFlash a l).flashByte (a + i) = s.flashByte (a + i) &&& l.getD i 0 := by
  induction l generalizing s a i with
  | nil => simp at h
  | cons v r ih =>
    cases i with
    | zero =>
      rw [programFlash, flashByte_programFlash_out _ (by omega), flashByte_setFlashByte, if_pos (Nat.add_zero a)]
      rfl
    | succ i =>
      have hstep := ih (s.setFlashByte a (s.flashByte a &&& v)) (a := a + 1) (i := i) (by simpa using h)
      rw [programFlash, ← Nat.add_assoc, Nat.add_right_comm, hstep, flashByte_setFlashByte, if_neg (by omega)]
      rfl

theorem programFlash_regs (a : Nat) (l : List Byte) : (s.programFlash a l).regs = s.regs := by
  induction l generalizing s a with
  | nil => rfl
  | cons v r ih => exact ih ..

theorem flashByte_eraseFlash (a n x : Nat) :
    (s.eraseFlash a n).flashByte x = if a ≤ x ∧ x < a + n then 0xFF else s.flashByte x := by
  rw [flashByte, eraseFlash, sget_filter_key (fun _ => (0xFF : Byte)) (fun k => k < a || a + n ≤ k), flashByte]
  by_cases h : a ≤ x ∧ x < a + n
  · rw [if_neg (by simp only [Bool.or_eq_true, decide_eq_true_eq]; omega), if_pos h]
  · rw [if_pos (by simp only [Bool.or_eq_true, decide_eq_true_eq]; omega), if_neg h]

/-- A cut-off operation leaves the bytes outside its range (assumption 2). -/
theorem flashByte_spoilFlash {a n x : Nat} (h : x < a ∨ a + n ≤ x) : (s.spoilFlash a n).flashByte x = s.flashByte x :=
  each_eq s (fun v => v.flashByte x) fun v i hi => by
    have := List.mem_range.mp hi
    exact (flashByte_setFlashByte ..).trans (if_neg (by omega))

theorem spoilFlash_regs (a n : Nat) : (s.spoilFlash a n).regs = s.regs := each_eq s State.regs fun _ _ _ => rfl

/-! ## NVM_BUF (R366) -/

theorem length_flashBuf : s.flashBuf.length = 256 := by simp [flashBuf, length_leBytes]

theorem reg_each_setReg {l : List Nat} {a : Nat → Nat} (v : Nat → Word) (ha : ∀ i ∈ l, ∀ j ∈ l, a i = a j → i = j) {i : Nat}
    (hi : i ∈ l) : (s.each l fun s w => s.setReg (a w) (v w)).reg (a i) = v i := by
  have hkept : ∀ (t : State) (r : List Nat), (∀ j ∈ r, a i ≠ a j) → (t.each r fun s w => s.setReg (a w) (v w)).reg (a i) =
      t.reg (a i) := fun t r hr => each_eq t (fun u => u.reg (a i)) fun u j hj => by rw [reg_setReg, if_neg (hr j hj)]
  induction l generalizing s with
  | nil => simp at hi
  | cons x r ih =>
    have hcons : s.each (x :: r) (fun s w => s.setReg (a w) (v w)) =
      (s.setReg (a x) (v x)).each r fun s w => s.setReg (a w) (v w) := rfl
    rw [hcons]
    by_cases hir : i ∈ r
    · exact ih _ (fun j hj k hk => ha j (List.mem_cons_of_mem _ hj) k (List.mem_cons_of_mem _ hk)) hir
    · obtain rfl : i = x := (List.mem_cons.mp hi).resolve_right hir
      rw [hkept _ _ fun j hj he => hir (ha i hi j (List.mem_cons_of_mem _ hj) he ▸ hj), reg_setReg, if_pos rfl]

theorem reg_fillBuf_other {a : Nat} (h : ∀ w, w < 32 → a ≠ R.NVM_BUF w) (l : List Byte) : (s.fillBuf l).reg a = s.reg a :=
  each_eq s (fun v => v.reg a) fun v w hw => by rw [reg_setReg, if_neg (h w (List.mem_range.mp hw))]

/-- What is read fills the start of NVM_BUF, and the rest keeps its value. -/
theorem flashBuf_fillBuf {l : List Byte} (h : l.length ≤ 256) : (s.fillBuf l).flashBuf = l ++ s.flashBuf.drop l.length := by
  have hlen : (l ++ s.flashBuf.drop l.length).length = 256 := by
    rw [List.length_append, List.length_drop, length_flashBuf]
    omega
  have hword : ∀ w ∈ List.range 32, leBytes 8 ((s.fillBuf l).reg (R.NVM_BUF w)).toNat =
      slice (l ++ s.flashBuf.drop l.length) (8 * w) 8 := fun w hw => by
    have hbytes := length_slice (l ++ s.flashBuf.drop l.length) (8 * w) 8
    have hlt := leNat_lt (slice (l ++ s.flashBuf.drop l.length) (8 * w) 8)
    have hback := leBytes_leNat (slice (l ++ s.flashBuf.drop l.length) (8 * w) 8)
    rw [hbytes] at hback
    rw [hbytes, show (256 : Nat) ^ 8 = 2 ^ 64 from rfl] at hlt
    rw [fillBuf, reg_each_setReg s (fun w => BitVec.ofNat 64 (leAt (l ++ s.flashBuf.drop l.length) (8 * w) 8))
      (fun i _ j _ he => by unfold R.NVM_BUF at he; omega) hw, BitVec.toNat_ofNat, leAt, Nat.mod_eq_of_lt hlt]
    exact hback
  rw [flashBuf, List.flatMap_congr hword, flatMap_slices _ 8 (by omega), List.take_of_length_le (by omega)]

end State
end Sys2Proof.Machine
end

section
/-! PROOF. The rows NVM_READ, NVM_PROGRAM, NVM_ERASE, NVM_DONE and NVM_TIMEOUT (R365, R366). -/
namespace Sys2Proof.Machine

namespace State
variable {s : State}

/-! ## The start of a command (R366) -/

/-- The operands of a command are shown in NVM_CMD. -/
def flashArgs (s : State) (op a lenM1 : Nat) : State :=
  ((s.wr R.NVM_CMD F.NVM_CMD_OP op).wr R.NVM_CMD F.NVM_CMD_ADDR a).wr R.NVM_CMD F.NVM_CMD_LENM1 lenM1

theorem flashArgs_regs (s : State) (op a lenM1 : Nat) : s.sameRegsBut [R.NVM_CMD] (s.flashArgs op a lenM1) :=
  (((sameRegsBut.refl _ s).wr (by simp) _ _).wr (by simp) _ _).wr (by simp) _ _

theorem flashArgs_rd (s : State) (op a lenM1 : Nat) (f : Fld) : (s.flashArgs op a lenM1).rd R.NVM_STATUS f = s.rd R.NVM_STATUS f :=
  (s.flashArgs_regs op a lenM1).rd (by decide) f

theorem flashArgs_mem (s : State) (op a lenM1 : Nat) : (s.flashArgs op a lenM1).mem = s.mem := rfl

theorem flashArgs_flash (s : State) (op a lenM1 : Nat) : (s.flashArgs op a lenM1).flash = s.flash := rfl

/-- A command while another is in progress only sets its operands. -/
theorem flashGo_busy (h : s.rd R.NVM_STATUS F.NVM_STATUS_BUSY = 1) (op a lenM1 : Nat) :
    s.flashGo op a lenM1 = s.flashArgs op a lenM1 :=
  if_pos (by rw [on, ← flashArgs, flashArgs_rd, h]; rfl)

/-- A command before the flash is ready is refused with RESULT 6. -/
theorem flashGo_not_ready (hbusy : s.rd R.NVM_STATUS F.NVM_STATUS_BUSY = 0) (hready : s.rd R.NVM_STATUS F.NVM_STATUS_READY = 0)
    (op a lenM1 : Nat) : s.flashGo op a lenM1 = (s.flashArgs op a lenM1).wr R.NVM_STATUS F.NVM_STATUS_RESULT 6 := by
  unfold flashGo
  dsimp only
  rw [← flashArgs, if_neg (by rw [on, flashArgs_rd, hbusy]; decide), if_pos (by rw [on, flashArgs_rd, hready]; rfl)]
  rfl

/-- The state that shows the operands, with the operation in progress. -/
def flashOp (s : State) (op a lenM1 n : Nat) : State :=
  { s.flashArgs op a lenM1 with nvm := { s.nvm with op := some ⟨op, a, n⟩ } }

theorem flashOp_op (s : State) (op a lenM1 n : Nat) : (s.flashOp op a lenM1 n).nvm.op = some ⟨op, a, n⟩ := rfl

theorem flashOp_regs (s : State) (op a lenM1 n : Nat) : s.sameRegsBut [R.NVM_CMD] (s.flashOp op a lenM1 n) :=
  (s.flashArgs_regs op a lenM1).of_regs rfl

theorem flashOp_mem (s : State) (op a lenM1 n : Nat) : (s.flashOp op a lenM1 n).mem = s.mem := rfl

theorem flashOp_flash (s : State) (op a lenM1 n : Nat) : (s.flashOp op a lenM1 n).flash = s.flash := rfl

/-- A command that nothing refuses waits as the operation in progress. -/
theorem flashGo_accepted {op a lenM1 n : Nat} (hn : n = if op = 2 then 4096 else lenM1 + 1)
    (hbusy : s.rd R.NVM_STATUS F.NVM_STATUS_BUSY = 0) (hready : s.rd R.NVM_STATUS F.NVM_STATUS_READY = 1)
    (hprot : s.flashProtected op a n = false) (hargs : s.flashArgsBad op a n = false) : s.flashGo op a lenM1 =
      (s.flashOp op a lenM1 n).wr R.NVM_STATUS F.NVM_STATUS_BUSY 1 := by
  have hboot : ∀ f, (s.flashArgs op a lenM1).rd R.GLB_BOOT f = s.rd R.GLB_BOOT f := (s.flashArgs_regs op a lenM1).rd (by decide)
  have hprot' : (s.flashArgs op a lenM1).flashProtected op a n = false := by
    rw [← hprot, flashProtected, hboot, hboot]
    rfl
  have hargs' : (s.flashArgs op a lenM1).flashArgsBad op a n = false := by
    rw [← hargs, flashArgsBad, flashArgsBad, flashSize, flashSize, flashArgs_rd, flashArgs_rd]
  unfold flashGo
  dsimp only
  rw [← flashArgs, ← hn, if_neg (by rw [on, flashArgs_rd, hbusy]; decide), if_neg (by rw [on, flashArgs_rd, hready]; decide),
    if_neg (by rw [hprot']; decide), if_neg (by rw [hargs']; decide)]
  rfl

/-! ## The end of a command (R365, R366) -/

theorem flashEnd_regs (s : State) (n : Nat) : s.sameRegsBut [R.NVM_STATUS] (s.flashEnd n) :=
  (((sameRegsBut.refl _ s).of_regs rfl).wr (by simp) _ _).wr (by simp) _ _

/-- The end of a command clears BUSY and shows the RESULT. -/
theorem flashEnd_shows (s : State) {n : Nat} (hn : n < 8) : (s.flashEnd n).nvm.op = none ∧
    (s.flashEnd n).rd R.NVM_STATUS F.NVM_STATUS_BUSY = 0 ∧ (s.flashEnd n).rd R.NVM_STATUS F.NVM_STATUS_RESULT = n := by
  unfold flashEnd
  refine ⟨rfl, ?_, ?_⟩
  · rw [rd_wr_apart _ _ rfl rfl, rd_wr_same _ _ rfl]
    rfl
  · rw [rd_wr_same _ _ rfl]
    exact Nat.mod_eq_of_lt hn

theorem flashTimedOut_regs (s : State) (a : Nat) : s.sameRegsBut [R.NVM_STATUS, R.EVR_LOST] (s.flashTimedOut a) :=
  ((flashEnd_regs s 5).mono (by simp)).record (by simp) _

theorem flashTimedOut_shows (s : State) (a : Nat) : (s.flashTimedOut a).nvm.op = none ∧
    (s.flashTimedOut a).rd R.NVM_STATUS F.NVM_STATUS_BUSY = 0 ∧ (s.flashTimedOut a).rd R.NVM_STATUS F.NVM_STATUS_RESULT = 5 := by
  obtain ⟨hop, hbusy, hresult⟩ := s.flashEnd_shows (n := 5) (by decide)
  unfold flashTimedOut
  rw [record_nvm, rd_record _ _ (by decide), rd_record _ _ (by decide)]
  exact ⟨hop, hbusy, hresult⟩

theorem record_flash (s : State) (e : Ev) : (s.record e).flash = s.flash := by
  obtain ⟨r, v, h⟩ := s.record_fields e
  rw [h]

theorem flashTimedOut_flash (s : State) (a : Nat) : (s.flashTimedOut a).flash = s.flash := record_flash ..

/-! ## The end of a program (R365) -/

/-- A program's bytes clear bits alone when every byte of NVM_BUF is kept by the AND with the byte in the flash. -/
theorem programClears_iff {a n : Nat} (hn : n ≤ 256) :
    ((List.zip (s.flashBytes a n) (s.flashBuf.take n)).all fun x => x.1 &&& x.2 == x.2) = true ↔
      ∀ i, i < n → s.flashByte (a + i) &&& s.flashBuf.getD i 0 = s.flashBuf.getD i 0 := by
  have hbuf := s.length_flashBuf
  have hzip : (List.zip (s.flashBytes a n) (s.flashBuf.take n)).length = n := by
    simp only [flashBytes, List.length_zip, List.length_map, List.length_range, List.length_take, hbuf]
    omega
  rw [List.all_eq_true, List.forall_mem_iff_forall_getElem]
  constructor
  · intro h i hi
    have := h i (by omega)
    simpa [flashBytes, List.getD_eq_getElem?_getD, List.getElem?_eq_getElem (hbuf ▸ by omega : i < s.flashBuf.length)] using this
  · intro h i hi
    have := h i (by omega)
    simpa [flashBytes, List.getD_eq_getElem?_getD, List.getElem?_eq_getElem (hbuf ▸ by omega : i < s.flashBuf.length)] using this

/-- A program that reads back right ends with RESULT 0 (R365). -/
theorem programDone_good {o : FlashOp} (hn : o.len ≤ 256)
    (hclears : ∀ i, i < o.len → s.flashByte (o.addr + i) &&& s.flashBuf.getD i 0 = s.flashBuf.getD i 0) :
    s.programDone o true = (s.programFlash o.addr (s.flashBuf.take o.len)).flashEnd 0 := by
  unfold programDone
  dsimp only
  rw [(programClears_iff hn).mpr hclears]
  rfl

/-- A program that would set a bit is refused with RESULT 1 (R365). -/
theorem programDone_refused {o : FlashOp} (hn : o.len ≤ 256) {i : Nat} (hi : i < o.len)
    (hsets : s.flashByte (o.addr + i) &&& s.flashBuf.getD i 0 ≠ s.flashBuf.getD i 0) (good : Bool) :
    ∃ e, s.programDone o good = ((s.flashEnd 1).inc R.NVM_ERR F.NVM_ERR_REFUSED).record e := by
  have hbad : ((List.zip (s.flashBytes o.addr o.len) (s.flashBuf.take o.len)).all fun x => x.1 &&& x.2 == x.2) = false :=
    Bool.eq_false_iff.mpr fun h => hsets ((programClears_iff hn).mp h i hi)
  unfold programDone
  dsimp only
  rw [hbad]
  exact ⟨_, if_pos rfl⟩

/-- Each byte that a program names becomes old AND new, and every other byte stays. -/
theorem flashByte_program {a n : Nat} (hn : n ≤ 256) :
    (∀ i, i < n → (s.programFlash a (s.flashBuf.take n)).flashByte (a + i) = s.flashByte (a + i) &&& s.flashBuf.getD i 0) ∧
      ∀ x, x < a ∨ a + n ≤ x → (s.programFlash a (s.flashBuf.take n)).flashByte x = s.flashByte x := by
  have hlen : (s.flashBuf.take n).length = n := by
    rw [List.length_take, length_flashBuf]
    omega
  refine ⟨fun i hi => ?_, fun x hx => flashByte_programFlash_out _ (hlen.symm ▸ hx)⟩
  rw [flashByte_programFlash_in _ (hlen.symm ▸ hi), List.getD_eq_getElem?_getD, List.getElem?_take_of_lt hi,
    ← List.getD_eq_getElem?_getD]

end State

section Rows
variable {s : State}

theorem exec_nvmRead (h : s.aoUp) (a : BitVec 24) (n : Byte) : exec (.nvmRead a n) s = .next (s.flashGo 0 a.toNat n.toNat) :=
  congrArg Host.Outcome.next (State.inAo_of_aoUp h _)

theorem exec_nvmProgram (h : s.aoUp) (a : BitVec 24) (n : Byte) : exec (.nvmProgram a n) s = .next (s.flashGo 1 a.toNat n.toNat) :=
  congrArg Host.Outcome.next (State.inAo_of_aoUp h _)

theorem exec_nvmErase (h : s.aoUp) (a : BitVec 24) :
    exec (.nvmErase a) s = .next (s.flashGo 2 a.toNat (s.rd R.NVM_CMD F.NVM_CMD_LENM1)) :=
  congrArg Host.Outcome.next (State.inAo_of_aoUp h _)

/-- Each of the three rows is a GO of NVM_CMD. -/
theorem exec_flashCommand (h : s.aoUp) {a : BitVec 24} {n : Byte} {c : Instr}
    (hc : c ∈ [Instr.nvmRead a n, .nvmProgram a n, .nvmErase a]) : ∃ op m, exec c s = .next (s.flashGo op a.toNat m) := by
  simp only [List.mem_cons, List.not_mem_nil, or_false] at hc
  obtain rfl | rfl | rfl := hc
  · exact ⟨_, _, exec_nvmRead h a n⟩
  · exact ⟨_, _, exec_nvmProgram h a n⟩
  · exact ⟨_, _, exec_nvmErase h a⟩

/-- A command that nothing refuses, as the state that it answers. -/
theorem accepted_shows {c : Instr} {op a lenM1 n : Nat} (hexec : exec c s = .next (s.flashGo op a lenM1))
    (hn : n = if op = 2 then 4096 else lenM1 + 1)
    (hbusy : s.rd R.NVM_STATUS F.NVM_STATUS_BUSY = 0) (hready : s.rd R.NVM_STATUS F.NVM_STATUS_READY = 1)
    (hprot : s.flashProtected op a n = false) (hargs : s.flashArgsBad op a n = false) : ∃ t, exec c s = .next t ∧
      t.nvm.op = some ⟨op, a, n⟩ ∧ t.rd R.NVM_STATUS F.NVM_STATUS_BUSY = 1 ∧
      s.sameRegsBut [R.NVM_CMD, R.NVM_STATUS] t ∧ t.flash = s.flash ∧ t.mem = s.mem := by
  rw [State.flashGo_accepted hn hbusy hready hprot hargs] at hexec
  refine ⟨_, hexec, ?_, ?_, ((s.flashOp_regs op a lenM1 n).mono (by simp)).wr (by simp) _ _, ?_, ?_⟩
  · rw [State.wr_nvm, State.flashOp_op]
  · rw [State.rd_wr_same _ _ rfl]
    rfl
  · rw [State.wr_flash, State.flashOp_flash]
  · rw [State.wr_mem, State.flashOp_mem]

theorem exec_nvmDone (h : s.aoUp) {o : FlashOp} (ho : s.nvm.op = some o) (g : Bool) : exec (.nvmDone g) s =
    .next (if o.op = 0 then (s.fillBuf (s.flashBytes o.addr o.len)).flashEnd 0
      else if o.op = 1 then s.programDone o g else (s.eraseFlash o.addr o.len).flashEnd 0) := by
  have hexec : exec (.nvmDone g) s = .next _ := congrArg Host.Outcome.next (State.inAo_of_aoUp h _)
  rw [hexec, ho]

theorem exec_nvmTimeout (h : s.aoUp) {o : FlashOp} (ho : s.nvm.op = some o) : exec .nvmTimeout s =
    .next ((if o.op = 0 then s else s.spoilFlash o.addr o.len).flashTimedOut o.addr) := by
  have hexec : exec .nvmTimeout s = .next _ := congrArg Host.Outcome.next (State.inAo_of_aoUp h _)
  rw [hexec, ho]

end Rows

/-- Settles O12: a command by what refuses it, and its end by the operation in progress. -/
theorem flashCommands : Obligations.FlashCommands := by
  unfold Obligations.FlashCommands
  refine ⟨fun s a n h hbusy hready hprot hargs => accepted_shows (exec_nvmRead h a n) rfl hbusy hready hprot hargs,
    fun s a n h hbusy hready hprot hargs => accepted_shows (exec_nvmProgram h a n) rfl hbusy hready hprot hargs,
    fun s a h hbusy hready hprot hargs => accepted_shows (exec_nvmErase h a) rfl hbusy hready hprot hargs,
    fun s a n c h hc hbusy hready => ?_, fun s a n c h hc hbusy => ?_, fun s g a n h hop hn => ?_, fun s a n h hop hn hclears => ?_,
    fun s g a n i h hop hn hi hsets => ?_, fun s g a n h hop => ?_, fun s op a n h hop => ?_⟩
  · obtain ⟨op, m, hexec⟩ := exec_flashCommand h hc
    rw [State.flashGo_not_ready hbusy hready] at hexec
    refine ⟨_, hexec, rfl, ?_, ((s.flashArgs_regs _ _ _).mono (by simp)).wr (by simp) _ _⟩
    rw [State.rd_wr_same _ _ rfl]
    rfl
  · obtain ⟨op, m, hexec⟩ := exec_flashCommand h hc
    rw [State.flashGo_busy hbusy] at hexec
    exact ⟨_, hexec, rfl, s.flashArgs_regs _ _ _⟩
  · have hexec := exec_nvmDone h hop g
    rw [if_pos rfl] at hexec
    have hlen : (s.flashBytes a n).length = n := by rw [State.flashBytes, List.length_map, List.length_range]
    obtain ⟨hnone, hidle, hresult⟩ := (s.fillBuf (s.flashBytes a n)).flashEnd_shows (n := 0) (by decide)
    refine ⟨_, hexec, hnone, hidle, hresult, fun i hi => ?_, ?_, exec_mem hexec rfl⟩
    · have hbuf : ((s.fillBuf (s.flashBytes a n)).flashEnd 0).flashBuf = (s.fillBuf (s.flashBytes a n)).flashBuf :=
        List.flatMap_congr fun w hw => by
          rw [State.flashEnd_regs _ _ (R.NVM_BUF w) (by simp only [List.mem_singleton, R.NVM_BUF, R.NVM_STATUS]; omega)]
      rw [hbuf, State.flashBuf_fillBuf _ (hlen.symm ▸ hn), List.getD_append _ _ _ _ (hlen.symm ▸ hi)]
      simp [State.flashBytes, hi]
    · exact State.each_eq s State.flash fun _ _ _ => rfl
  · have hexec := exec_nvmDone h hop true
    rw [if_neg one_ne_zero, if_pos rfl, State.programDone_good (o := ⟨1, a, n⟩) hn hclears] at hexec
    obtain ⟨hnone, hidle, hresult⟩ := (s.programFlash a (s.flashBuf.take n)).flashEnd_shows (n := 0) (by decide)
    obtain ⟨hin, hout⟩ := State.flashByte_program (s := s) (a := a) hn
    exact ⟨_, hexec, hnone, hidle, hresult, hin, hout,
      ((State.sameRegsBut.refl _ s).of_regs (State.programFlash_regs ..)).trans (State.flashEnd_regs _ _), exec_mem hexec rfl⟩
  · have hexec := exec_nvmDone h hop g
    obtain ⟨e, he⟩ := State.programDone_refused (o := ⟨1, a, n⟩) hn hi hsets g
    rw [if_neg one_ne_zero, if_pos rfl, he] at hexec
    obtain ⟨hnone, -, hresult⟩ := s.flashEnd_shows (n := 1) (by decide)
    refine ⟨_, hexec, ?_, ?_, ?_, exec_mem hexec rfl⟩
    · rw [State.record_nvm, State.inc_nvm, hnone]
    · rw [State.rd_record _ _ (by decide), State.rd_inc_other _ (by decide), hresult]
    · exact State.record_flash ..
  · have hexec := exec_nvmDone h hop g
    rw [if_neg (by decide : ¬2 = 0), if_neg (by decide : ¬2 = 1)] at hexec
    obtain ⟨hnone, hidle, hresult⟩ := (s.eraseFlash a n).flashEnd_shows (n := 0) (by decide)
    exact ⟨_, hexec, hnone, hidle, hresult, State.flashByte_eraseFlash s a n,
      ((State.sameRegsBut.refl _ s).of_regs rfl).trans (State.flashEnd_regs _ _), exec_mem hexec rfl⟩
  · have hexec := exec_nvmTimeout h hop
    obtain ⟨hnone, hidle, hresult⟩ := State.flashTimedOut_shows (if op = 0 then s else s.spoilFlash a n) a
    refine ⟨_, hexec, hnone, hidle, hresult, fun x hx => ?_, ?_, exec_mem hexec rfl⟩
    · rw [State.flashByte_congr (State.flashTimedOut_flash ..)]
      split
      · rfl
      · exact State.flashByte_spoilFlash s hx
    · refine State.sameRegsBut.trans ?_ (State.flashTimedOut_regs _ _)
      split
      · exact .refl _ s
      · exact (State.sameRegsBut.refl _ s).of_regs (State.spoilFlash_regs ..)

end Sys2Proof.Machine
end

section
/-! PROOF. The rows LRD, LRSP, ERR, LWR, LWACK, INV, INVACK and INV_TIMEOUT (R284, R288 to R291, R336). -/
namespace Sys2Proof.Machine

namespace State
variable {s : State}

/-! ## Reads of a shard (R179, R184, R289) -/

/-- A line of the own shard that is there has its ordinary answer. -/
theorem readShard_own {g o : Nat} (hstand : (s.gl g).standIn = none) (haway : s.lineAway g o = false) (x : Nat)
    (l : List (List RowAnswer)) (ordinary : State) : s.readShard g (s.lmn g) o x l ordinary = ordinary := by
  unfold readShard
  rw [if_neg (fun h => h.1 rfl), hstand]
  dsimp only
  rw [if_neg (Bool.eq_false_iff.mp haway), ite_self]

/-- A line of a hosted shard, of a shard in clearing or that is to be repaired never has its ordinary answer. -/
theorem readShard_clearing {g i o : Nat}
    (h : (i ≠ s.lmn g ∧ (s.gl g).hosting.contains i = true) ∨ (i = s.lmn g ∧ (s.regionAt g o).isSome = true ∧
      ((s.gl g).standIn.isSome = true ∨ s.lineAway g o = true))) (x : Nat) (l : List (List RowAnswer)) (a b : State) :
    s.readShard g i o x l a = s.readShard g i o x l b := by
  unfold readShard
  obtain hhost | ⟨hown, hregion, hlost⟩ := h
  · rw [if_pos hhost, if_pos hhost]
  · have hnone : ¬ (s.regionAt g o).isNone = true := by simp [Option.isSome_iff_ne_none.mp hregion]
    have hown' : ¬ (i ≠ s.lmn g ∧ (s.gl g).hosting.contains i = true) := fun h => h.1 hown
    rw [if_neg hown', if_neg hown', if_neg hnone, if_neg hnone]
    cases hstand : (s.gl g).standIn with
    | some r => rfl
    | none =>
      have haway : s.lineAway g o = true := hlost.resolve_left (by simp [hstand])
      dsimp only
      rw [if_pos haway, if_pos haway]

/-- A home that serves an access is not fenced. -/
theorem not_fenced_of_homeRefusal {f : Frame} (h : s.homeRefusal f = none) : s.fenced f.glade.val = false := by
  unfold homeRefusal at h
  exact Bool.eq_false_iff.mpr fun hf => by simp [hf] at h

/-- A home serves accesses of whole lines alone: one line is invalidated. -/
theorem linesIn_of_homeRefusal {f : Frame} (h : s.homeRefusal f = none) : linesIn f.msg.offset 128 = 1 := by
  have hline : f.msg.offset % 128 = 0 := by
    by_contra hne
    unfold homeRefusal at h
    simp only [hne, ne_eq, not_false_eq_true, true_or, if_true] at h
    split at h
    · cases h
    · cases h
  simp [linesIn, hline]

/-! ## Frames toward the hosts (R275) -/

/-- The credits of host port h that a frame takes. -/
def takeHost (s : State) (h : Nat) (f : Frame) : State := { s with router := { s.router with
  hostUsed := vcSet s.router.hostUsed (8 * h + f.vc) (vcCount s.router.hostUsed (8 * h + f.vc) + f.blocks) } }

theorem hostSend_of_room {h : Nat} {f : Frame} (hroom : vcCount s.router.hostUsed (8 * h + f.vc) + f.blocks ≤ 512) :
    s.hostSend h f = (s.takeHost h f).send (.frame (32 + h) f.vc f) := if_pos hroom

/-- A frame for each of several host ports that have room. -/
theorem each_hostSend {f : Frame} {l : List Nat} (hl : l.Nodup)
    (hroom : ∀ h, h ∈ l → vcCount s.router.hostUsed (8 * h + f.vc) + f.blocks ≤ 512) :
    (s.each l fun s h => s.hostSend h f).sent = s.sent ++ l.map (fun h => .frame (32 + h) f.vc f) ∧
      (s.each l fun s h => s.hostSend h f).router.accesses = s.router.accesses ∧
      (s.each l fun s h => s.hostSend h f).regs = s.regs ∧ (s.each l fun s h => s.hostSend h f).mem = s.mem := by
  induction l generalizing s with
  | nil => exact ⟨(List.append_nil _).symm, rfl, rfl, rfl⟩
  | cons h r ih =>
    obtain ⟨hnot, hr⟩ := List.nodup_cons.mp hl
    have hsend := hostSend_of_room (hroom h List.mem_cons_self)
    have hroom' : ∀ j, j ∈ r → vcCount (s.hostSend h f).router.hostUsed (8 * j + f.vc) + f.blocks ≤ 512 := fun j hj => by
      have hne : ¬ 8 * j + f.vc = 8 * h + f.vc := fun e => hnot (by rwa [show h = j by omega])
      rw [hsend, send_router, takeHost, vcCount_vcSet, if_neg hne]
      exact hroom j (List.mem_cons_of_mem _ hj)
    obtain ⟨hsent, haccesses, hregs, hmem⟩ := ih hr hroom'
    rw [each, List.foldl_cons, ← each]
    refine ⟨hsent.trans ?_, haccesses.trans ?_, hregs.trans ?_, hmem.trans ?_⟩
    · rw [hsend, List.map_cons, List.append_cons]
      rfl
    all_goals
      rw [hsend]
      rfl

/-! ## The waits for INVACKs (R291) -/

/-- The last INVACK of a LWR lets the home answer it. -/
theorem invTarget_last {g i x : Nat} {w : InvWait} (hw : s.router.invs = [w]) (hg : w.glade = g) (hx : w.txid = x)
    (ht : w.targets = [i]) (hanswer : w.answer = true) :
    s.invTarget g i x = State.toNode { s with router := { s.router with invs := [] } } w.requester "LWACK" [g, x] := by
  subst hg hx
  simp [invTarget, hw, ht, hanswer]

/-- An INVACK that is not the last one takes its target from the wait. -/
theorem invTarget_more {g i j x : Nat} {w : InvWait} (hw : s.router.invs = [w]) (hg : w.glade = g) (hx : w.txid = x)
    (ht : w.targets = [i, j]) :
    s.invTarget g i x = { s with router := { s.router with invs := [{ w with targets := [j] }] } } := by
  subst hg hx
  simp [invTarget, hw, ht]

end State

/-! ## The rows -/

section Rows
variable {s : State} {f : Frame} {a : Access} (h : s.up)
include h

/-- A refused access is answered with its error; one to another glade's line is counted (R336). -/
theorem exec_refusedAccess {n : Nat} (href : s.homeRefusal f = some n) {c : Instr} (hc : c = .lrd f ∨ c = .lwr f) :
    exec c s = .next ((if n = 4 then s.inc R.SEC_ERR F.SEC_ERR_ISO else s).homeErr f n) := by
  have hmatch : ∀ k : State, (match some n with
      | some 4 => (s.inc R.SEC_ERR F.SEC_ERR_ISO).homeErr f 4
      | some c => s.homeErr f c
      | none => k) = (if n = 4 then s.inc R.SEC_ERR F.SEC_ERR_ISO else s).homeErr f n := fun k => by
    split
    case h_1 e => cases e; rfl
    case h_2 m hm e => cases e; rw [if_neg hm]
    case h_3 e => cases e
  obtain rfl | rfl := hc
  · have hexec : exec (.lrd f) s = .next _ := congrArg Host.Outcome.next (State.inMain_of_up h _)
    rw [href] at hexec
    exact hexec.trans (congrArg Host.Outcome.next (hmatch _))
  · have hexec : exec (.lwr f) s = .next _ := congrArg Host.Outcome.next (State.inMain_of_up h _)
    rw [href] at hexec
    exact hexec.trans (congrArg Host.Outcome.next (hmatch _))

theorem exec_lrd (href : s.homeRefusal f = none) : exec (.lrd f) s = .next (s.readLine f) := by
  have hexec : exec (.lrd f) s = .next _ := congrArg Host.Outcome.next (State.inMain_of_up h _)
  rw [hexec, href]

/-- A write of a watched line, or of a hosted shard, is refused (R40, R289). -/
theorem exec_lwr_refused (href : s.homeRefusal f = none) (hbad : s.watchedLine f.msg.offset = true ∨
    (f.msg.dlmn ≠ s.lmn f.glade.val ∧ (s.gl f.glade.val).hosting.contains f.msg.dlmn = true)) :
    exec (.lwr f) s = .next (s.homeErr f 5) := by
  have hexec : exec (.lwr f) s = .next _ := congrArg Host.Outcome.next (State.inMain_of_up h _)
  rw [hexec, href]
  exact congrArg Host.Outcome.next (if_pos (by simpa using hbad))

/-- A line that is written is answered, after the INVACKs when INV asks for them. -/
theorem exec_lwr_served (href : s.homeRefusal f = none) (hwatch : s.watchedLine f.msg.offset = false)
    (hserved : s.lineServed f.msg.offset = true) (hhost : (s.gl f.glade.val).hosting.contains f.msg.dlmn = false) :
    exec (.lwr f) s = .next (
      let t := s.writeBytes f.msg.offset (slice f.payload 0 128)
      if f.msg.inv && !(t.spanOf f.glade.val).isEmpty then t.invalidate f.glade.val f.msg.offset 128 f.src f.msg.txid true
      else t.homeAnswer f "LWACK" [] []) := by
  have hexec : exec (.lwr f) s = .next _ := congrArg Host.Outcome.next (State.inMain_of_up h _)
  rw [hexec, href]
  dsimp only
  rw [if_neg (by simp only [hwatch, hhost]; simp), if_neg (by simp [hserved])]

theorem exec_answer_held (ha : s.accessOf f = some a) (hheld : s.fromHolder a f = true) {i : Nat} (hi : a.host = some i) {c : Instr}
    (hc : c = .lrsp f ∨ c = .lwack f ∨ c = .err f) :
    exec c s = .next ((s.endAccess a).hostSend i { f with msg := { f.msg with nocache := f.msg.nocache || a.marked } }) := by
  have hto : (s.endAccess a).toRequester a f =
      (s.endAccess a).hostSend i { f with msg := { f.msg with nocache := f.msg.nocache || a.marked } } := by
    unfold State.toRequester
    rw [hi]
  have hend : ∀ k : State → Access → State, s.answered f k = k s a := fun k => by
    unfold State.answered
    rw [ha]
    exact if_pos hheld
  obtain rfl | rfl | rfl := hc
  · have hexec : exec (.lrsp f) s = .next _ := congrArg Host.Outcome.next (State.inMain_of_up h _)
    rw [hexec, hend, hto]
  · have hexec : exec (.lwack f) s = .next _ := congrArg Host.Outcome.next (State.inMain_of_up h _)
    rw [hexec, hend, hto]
  · have hexec : exec (.err f) s = .next _ := congrArg Host.Outcome.next (State.inMain_of_up h _)
    rw [hexec, hend, if_neg (by simp [hi]), hto]

/-- An answer from a node that no longer holds the LMN is dropped and counted (R288). -/
theorem exec_answer_stale (ha : s.accessOf f = some a) (hheld : s.fromHolder a f = false) {c : Instr}
    (hc : c = .lrsp f ∨ c = .lwack f ∨ c = .err f) : exec c s = .next (s.inc R.RTR_DROP F.RTR_DROP_MAPSTALE) := by
  have hdrop : ∀ k : State → Access → State, s.answered f k = s.inc R.RTR_DROP F.RTR_DROP_MAPSTALE := fun k => by
    unfold State.answered
    rw [ha]
    exact if_neg (Bool.eq_false_iff.mp hheld)
  obtain rfl | rfl | rfl := hc
  all_goals exact congrArg Host.Outcome.next ((State.inMain_of_up h _).trans (hdrop _))

/-- A context's access that meets ERR 1 or 2 waits for the map (R284). -/
theorem exec_err_waits (ha : s.accessOf f = some a) (hheld : s.fromHolder a f = true) (hnone : a.host = none)
    (hcode : leAt f.payload 0 1 = 1 ∨ leAt f.payload 0 1 = 2) : exec (.err f) s = .next { s with router := { s.router with
      accesses := s.router.accesses.map fun x => if x = a then { x with waiting := true } else x } } := by
  have hexec : exec (.err f) s = .next _ := congrArg Host.Outcome.next (State.inMain_of_up h _)
  rw [hexec, State.answered, ha]
  dsimp only
  rw [if_pos hheld, if_pos (by simpa [hnone] using hcode)]

end Rows

/-- Whether an INV names the line of a CACHE read (R290). -/
def Frame.invHits (f : Frame) (a : Access) : Bool := a.cache && a.kind == 1 && a.glade == f.glade.val && f.msg.dlmn == a.lmn &&
  f.msg.offset ≤ a.offset && a.offset < f.msg.offset + 128 * f.invLines

/-- The reads that an INV names are marked. -/
def State.markReads (s : State) (f : Frame) : State := { s with router := { s.router with
  accesses := s.router.accesses.map fun a => if f.invHits a then { a with marked := true } else a } }

theorem exec_inv {s : State} (h : s.up) (f : Frame) : exec (.inv f) s =
    .next (((s.markReads f).each (List.range 8) fun s i => s.hostSend i { f with vc := 2 }).homeAnswer f "INVACK" [] []) :=
  congrArg Host.Outcome.next (State.inMain_of_up h _)

theorem exec_invack {s : State} {f : Frame} {i : Nat} (h : s.up) (hi : s.lmnOfPnid f.glade.val f.src = some i) :
    exec (.invack f) s = .next (s.invTarget f.glade.val i f.msg.txid) := by
  have hexec : exec (.invack f) s = .next _ := congrArg Host.Outcome.next (State.inMain_of_up h _)
  rw [hexec, hi]

/-- A target that does not answer in time is abandoned: it is counted and recorded (R291). -/
theorem exec_invTimeout {s : State} {g : GladeId} {i x : Nat} {w : InvWait} (h : s.up) (hw : s.router.invs = [w])
    (hg : w.glade = g.val) (hx : w.txid = x) (hi : i ∈ w.targets) : ∃ e, exec (.invTimeout g i x) s =
      .next (((s.inc R.RTR_XSTAT F.RTR_XSTAT_INVTMO).record e).invTarget g.val i x) := by
  have hexec : exec (.invTimeout g i x) s = .next _ := congrArg Host.Outcome.next (State.inMain_of_up h _)
  rw [hexec, if_pos (by simp [hw, hg, hx, hi])]
  exact ⟨_, rfl⟩

/-- Settles O52: each row by the state that it answers. -/
theorem remoteAccess : Obligations.RemoteAccess := by
  unfold Obligations.RemoteAccess
  refine ⟨fun s f c n h href hc => ?_, fun s f h href hown hstand haway hrow hserved => ?_, fun s f h href hne hhost hrow => ?_,
    fun s f h href hrow hlost => ?_, fun s f h href hbad => ?_, fun s f h href hwatch hserved hhost => ?_,
    fun s f a i c h ha hheld hi hroom hc => ?_, fun s f a c h ha hheld hc => ?_, fun s f a h ha hheld hnone hcode => ?_,
    fun s f h hused hblocks => ?_, fun s f w i h hi hw hg hx ht hanswer => ?_, fun s g i j x w h hw hg hx ht hne => ?_⟩
  · have hexec := exec_refusedAccess h href hc
    by_cases hn : n = 4
    · rw [if_pos hn] at hexec
      refine ⟨_, hexec, rfl, fun _ => ?_, fun hne => absurd hn hne, ((State.sameRegsBut.refl _ s).inc (by simp) _).send _, rfl⟩
      exact (State.rd_send ..).trans (State.rd_inc_same _ _ rfl)
    · rw [if_neg hn] at hexec
      exact ⟨_, hexec, rfl, fun h4 => absurd h4 hn, fun _ => rfl, (State.sameRegsBut.refl _ s).send _, rfl⟩
  · have hexec := exec_lrd h href
    rw [State.readLine, if_neg (by simp [hrow]), hown, State.readShard_own hstand haway, if_neg (by simp [hserved])] at hexec
    exact ⟨_, hexec, rfl, rfl, rfl⟩
  · have hexec := exec_lrd h href
    rw [State.readLine, if_pos hrow, if_pos ⟨hne, hhost⟩] at hexec
    exact ⟨_, _, hexec, by simp, rfl, rfl, rfl⟩
  · rw [exec_lrd h href, exec_clearingRead h (State.not_fenced_of_homeRefusal href), State.readLine, if_neg (by simp [hrow])]
    exact congrArg Host.Outcome.next (State.readShard_clearing hlost _ _ _ _)
  · exact ⟨_, exec_lwr_refused h href hbad, rfl, rfl, rfl⟩
  · have hexec := exec_lwr_served h href hwatch hserved hhost
    obtain ⟨m, hm⟩ := s.writeBytes_fields f.msg.offset (slice f.payload 0 128)
    have hspan : (s.writeBytes f.msg.offset (slice f.payload 0 128)).spanOf f.glade.val = s.spanOf f.glade.val := by
      rw [hm]
      rfl
    dsimp only at hexec
    by_cases hinv : f.msg.inv = true ∧ s.spanOf f.glade.val ≠ []
    · have hempty : ¬ (s.spanOf f.glade.val).isEmpty = true := by simpa using hinv.2
      rw [if_pos (by simpa [hspan] using hinv), State.invalidate, hspan, if_neg hempty,
        State.linesIn_of_homeRefusal href, State.toMembers_eq] at hexec
      refine ⟨_, hexec, State.stores_of_mem (v := s) rfl rfl, State.writeBytes_regs .., fun hno => ?_, fun _ _ => ⟨?_, ?_⟩⟩
      · exact absurd hno (by simp [hinv])
      · rw [hm]
      · rw [hm]
        rfl
    · rw [if_neg (by simpa [hspan] using hinv)] at hexec
      refine ⟨_, hexec, State.stores_of_mem (v := s) rfl rfl, State.writeBytes_regs .., fun _ => ⟨?_, ?_⟩,
        fun h1 h2 => absurd ⟨h1, h2⟩ hinv⟩
      · rw [hm]
        rfl
      · rw [hm]
        rfl
  · have hexec := exec_answer_held h ha hheld hi hc
    rw [State.hostSend_of_room (s := s.endAccess a) (by exact hroom)] at hexec
    exact ⟨_, hexec, rfl, rfl, rfl, rfl⟩
  · refine ⟨_, exec_answer_stale h ha hheld hc, rfl, State.rd_inc_same _ _ rfl, (State.sameRegsBut.refl _ s).inc (by simp) _, rfl, rfl⟩
  · refine ⟨_, exec_err_waits h ha hheld hnone hcode, List.mem_map.mpr ⟨a, List.mem_of_find?_eq_some ha, if_pos rfl⟩, rfl, rfl, rfl⟩
  · have hexec := exec_inv h f
    have hroom : ∀ i, i ∈ List.range 8 → vcCount (s.markReads f).router.hostUsed (8 * i + 2) + f.blocks ≤ 512 := fun i _ => by
      have hnone : vcCount (s.markReads f).router.hostUsed (8 * i + 2) = 0 := by
        change vcCount s.router.hostUsed (8 * i + 2) = 0
        rw [hused]
        rfl
      omega
    obtain ⟨hsent, haccesses, hregs, hmem⟩ := State.each_hostSend (s := s.markReads f) (f := { f with vc := 2 }) List.nodup_range hroom
    refine ⟨_, hexec, ?_, fun a ha hcache hkind hg hlmn hlow hhigh => ?_, hregs, hmem⟩
    · rw [State.homeAnswer, State.toNode, State.send, hsent]
      rfl
    · rw [State.homeAnswer, State.toNode, State.send_router, haccesses]
      exact List.mem_map.mpr ⟨a, ha, if_pos (by simp [Frame.invHits, hcache, hkind, hg, hlmn, hlow, hhigh])⟩
  · have hexec := exec_invack h hi
    rw [State.invTarget_last hw hg hx ht hanswer] at hexec
    exact ⟨_, hexec, rfl, rfl, rfl, rfl⟩
  · obtain ⟨e, hexec⟩ := exec_invTimeout h hw hg hx (i := i) (by simp [ht])
    have hw' : ((s.inc R.RTR_XSTAT F.RTR_XSTAT_INVTMO).record e).router.invs = [w] := by rw [State.record_router, State.inc_router, hw]
    rw [State.invTarget_more hw' hg hx ht] at hexec
    refine ⟨_, hexec, rfl, ?_, (((State.sameRegsBut.refl _ s).inc (by simp) _).record (by simp) _).of_regs rfl, ?_, ?_⟩
    · exact (State.rd_record _ _ (by decide) _).trans (State.rd_inc_same _ _ rfl)
    · exact State.record_sent ..
    · exact State.record_mem ..

end Sys2Proof.Machine
end

section
/-! PROOF. The rows REPAIR_WALK and SRAM_PARITY_ERROR (R183, R300, R306, R307). -/
namespace Sys2Proof.Machine

namespace State
variable {s : State}

/-! ## The repair walker (R300) -/

theorem refreshStale_ports (s : State) (g : Nat) : (s.refreshStale g).ports = s.ports := by
  unfold refreshStale
  dsimp only
  split
  · rfl
  · rfl

theorem countGf_ports (s : State) (k n : Nat) : (s.countGf k n).ports = s.ports := rfl

theorem parityThere_ports (s : State) (g p : Nat) : (s.parityThere g p).ports = s.ports := rfl

/-- The encoding of a parity leaf leaves the ports' lists. -/
theorem encodeFrom_ports {g p : Nat} (hserved : s.served (s.parityAddr g p) 4096 = true) (d : List (List Byte)) :
    (s.encodeFrom g p d).ports = s.ports := by
  have heq : s.encodeFrom g p d = (((s.writeParity g p d).parityThere g p).refreshStale g).refreshEras g := rfl
  have hstore := store_of_served s (served_of_le hserved (length_encodeParityBytes_le 4096 (p % max 1 (s.code g).m) d))
  obtain ⟨m, hm⟩ := s.writeBytes_fields (s.parityAddr g p) (encodeParityBytes 4096 (p % max 1 (s.code g).m) d)
  have hwrite : (s.writeParity g p d).ports = s.ports := by
    rw [writeParity, hstore, countGf_ports, charge_ports, hm]
  rw [heq, refreshEras, wr_ports, refreshStale_ports, parityThere_ports, hwrite]

theorem pt_encodeFrom {g p : Nat} (hserved : s.served (s.parityAddr g p) 4096 = true) (d : List (List Byte)) (q : Nat) :
    (s.encodeFrom g p d).pt q = s.pt q := congrArg (sget (fun _ => PortState.reset) · q) (encodeFrom_ports hserved d)

/-- A unit that holds nothing to repair is passed. -/
theorem repairUnit_empty {q g x u : Nat} (hempty : s.unitHolds g x u = false) (rows : List RowAnswer) :
    s.repairUnit q g x u rows = s.updPt q fun p => p.passed u := if_pos (by simp [hempty])

/-- A parity leaf that waits for repair is encoded again from its row's data. -/
theorem repairUnit_parity {q g u : Nat} (hholds : s.unitHolds g 4 u = true) {rows : List RowAnswer} {d : List (List Byte)}
    (hd : s.encodeData g ((s.code g).rowOfParity (s.code g).slot (u - s.regionBase g 4 / 4096)) rows = some d) :
    s.repairUnit q g 4 u rows = (s.encodeFrom g (u - s.regionBase g 4 / 4096) d).updPt q fun p => p.passed u := by
  unfold repairUnit
  dsimp only
  rw [if_neg (by simp [hholds]), if_pos rfl, hd]

/-! ## SRAM parity (R306, R307) -/

/-- A word's parity error is counted, with its word and its time. -/
def countParity (s : State) (k w : Nat) : State :=
  ((s.inc (R.TIL_PERR k) F.TIL_PERR_PERR).wr (R.TIL_PERR k) F.TIL_PERR_LASTWORD w).updTl k fun x => { x with
    errors := (x.errors.filter fun e => e.1 != w) ++ [(w, s.now)] }

theorem countParity_regs (s : State) (k w : Nat) : s.sameRegsBut [R.TIL_PERR k] (s.countParity k w) :=
  (((sameRegsBut.refl _ s).inc (by simp) _).wr (by simp) _ _).of_regs (updTl_regs ..)

theorem countParity_shows (s : State) {k w : Nat} (hw : w < 32768) :
    (s.countParity k w).rd (R.TIL_PERR k) F.TIL_PERR_PERR =
      min (s.rd (R.TIL_PERR k) F.TIL_PERR_PERR + 1) (2 ^ F.TIL_PERR_PERR.width - 1) ∧
      (s.countParity k w).rd (R.TIL_PERR k) F.TIL_PERR_LASTWORD = w := by
  unfold countParity
  rw [rd_congr (updTl_regs ..), rd_congr (updTl_regs ..)]
  constructor
  · rw [rd_wr_apart _ _ rfl rfl, rd_inc_same _ _ rfl]
  · rw [rd_wr_same _ _ rfl]
    exact Nat.mod_eq_of_lt hw

/-- A word that no frame stages loses no line; one that failed within an hour is remapped. -/
theorem sramError_unstaged {k w : Nat} (hframes : s.framesOf k = []) : s.sramError k w =
    if ((s.tl k).errors.any fun e => e.1 == w && s.now < e.2 + 3600000000) then (s.countParity k w).remapWord k w
      else s.countParity k w := by
  have hnow : ((s.inc (R.TIL_PERR k) F.TIL_PERR_PERR).wr (R.TIL_PERR k) F.TIL_PERR_LASTWORD w).now = s.now := by
    have hne : R.GLB_AOTIME ≠ R.TIL_PERR k := by unfold R.GLB_AOTIME R.TIL_PERR; omega
    rw [now, rd_wr_other _ hne, rd_inc_other _ hne, now]
  have hnone : ((s.inc (R.TIL_PERR k) F.TIL_PERR_PERR).wr (R.TIL_PERR k) F.TIL_PERR_LASTWORD w).framesOf k = [] := hframes
  have htile : ((s.inc (R.TIL_PERR k) F.TIL_PERR_PERR).wr (R.TIL_PERR k) F.TIL_PERR_LASTWORD w).tl k = s.tl k := rfl
  unfold sramError
  dsimp only
  rw [hnone]
  simp only [List.getElem?_nil, htile, hnow]
  rw [countParity]

theorem queueEntry_regs (s : State) (n : Nat) (l : List Byte) : (s.queueEntry n l).regs = s.regs := rfl

theorem queueEntry_mem (s : State) (n : Nat) (l : List Byte) : (s.queueEntry n l).mem = s.mem := rfl

/-- The first spare of a tile takes the word. -/
theorem remapWord_first {k w : Nat} (hfree : s.rd (R.TIL_REMAP k 0) F.TIL_REMAP_VALID = 0) : ∃ e l, s.remapWord k w =
    (((s.wr (R.TIL_REMAP k 0) F.TIL_REMAP_WORD w).wr (R.TIL_REMAP k 0) F.TIL_REMAP_VALID 1).record e).queueEntry 2 l := by
  have hfind : (List.range 16).find? (fun x => !s.on (R.TIL_REMAP k x) F.TIL_REMAP_VALID) = some 0 := by
    rw [show List.range 16 = 0 :: List.range' 1 15 from rfl, List.find?_cons_of_pos (by simp [on, hfree])]
  unfold remapWord
  rw [hfind]
  dsimp only
  exact ⟨_, _, rfl⟩

end State

section Rows
variable {s : State}

theorem exec_repairWalk_none (h : s.up) {q : PortId} (hlow : (s.pt q.val).lowest = none) (rows : List RowAnswer) :
    exec (.repairWalk q rows) s = .next s := by
  have hexec : exec (.repairWalk q rows) s = .next _ := congrArg Host.Outcome.next (State.inMain_of_up h _)
  rw [hexec, hlow]

theorem exec_repairWalk (h : s.up) {q : PortId} {u g x : Nat} (hlow : (s.pt q.val).lowest = some u)
    (hunit : s.regionOfUnit u = some (g, x)) (rows : List RowAnswer) :
    exec (.repairWalk q rows) s = .next (s.repairUnit q.val g x u rows) := by
  have hexec : exec (.repairWalk q rows) s = .next _ := congrArg Host.Outcome.next (State.inMain_of_up h _)
  rw [hexec, hlow]
  dsimp only
  rw [hunit]

theorem exec_sramParityError (h : s.up) {k : TileId} (hdis : s.tileDisabled k.val = false) (hret : s.tileRetired k.val = false)
    (w : Fin 32768) : exec (.sramParityError k w) s = .next (s.sramError k.val w.val) := by
  have hexec : exec (.sramParityError k w) s = .next _ := congrArg Host.Outcome.next (State.inMain_of_up h _)
  rw [hexec, if_neg (by simp [hdis, hret])]

theorem exec_sramParityError_unused {k : TileId} (hunused : s.tileDisabled k.val = true ∨ s.tileRetired k.val = true) (w : Fin 32768) :
    exec (.sramParityError k w) s = .next s := by
  refine congrArg Host.Outcome.next (?_ : s.inMain _ = s)
  unfold State.inMain
  split
  · exact if_pos (by simpa using hunused)
  · rfl

end Rows

/-- Settles O16: the walker by what the unit holds, a parity error by the word's earlier ones. -/
theorem repairAndSramParity : Obligations.RepairAndSramParity := by
  unfold Obligations.RepairAndSramParity
  refine ⟨fun s q rows h hlow => exec_repairWalk_none h hlow rows, fun s q rows u g x h hlow hunit hempty => ?_,
    fun s q rows u g d h hlow hunit hholds hd hserved => ?_, fun s k w h hdis hret hframes herrors => ?_,
    fun s k w time h hdis hret hframes herrors hsoon hfree => ?_, fun s k w hunused => exec_sramParityError_unused hunused w⟩
  · have hexec := exec_repairWalk h hlow hunit rows
    rw [State.repairUnit_empty hempty] at hexec
    exact ⟨_, hexec, by rw [State.pt_updPt, if_pos rfl], State.updPt_regs .., State.updPt_mem ..⟩
  · have hexec := exec_repairWalk h hlow hunit rows
    rw [State.repairUnit_parity hholds hd] at hexec
    refine ⟨_, hexec, ?_, State.stores_of_mem (v := s) rfl ((State.updPt_mem ..).trans (State.encodeFrom_shows hserved d).1)⟩
    rw [State.pt_updPt, if_pos rfl, State.pt_encodeFrom hserved]
  · have hexec := exec_sramParityError h hdis hret w
    rw [State.sramError_unstaged hframes, herrors, if_neg (by simp)] at hexec
    obtain ⟨hcount, hword⟩ := s.countParity_shows (k := k.val) w.isLt
    exact ⟨_, hexec, hcount, hword, s.countParity_regs _ _, rfl⟩
  · have hexec := exec_sramParityError h hdis hret w
    have hsame := s.countParity_regs k.val w.val
    have hapart : R.TIL_REMAP k.val 0 ≠ R.TIL_PERR k.val := by unfold R.TIL_REMAP R.TIL_PERR; omega
    have hlost : R.TIL_REMAP k.val 0 ≠ R.EVR_LOST := by unfold R.TIL_REMAP R.EVR_LOST; omega
    obtain ⟨e, l, hremap⟩ := State.remapWord_first (w := w.val) (k := k.val) (s := s.countParity k.val w.val)
      ((hsame.rd (by simp [hapart]) _).trans hfree)
    rw [State.sramError_unstaged hframes, herrors, if_pos (by simp [hsoon]), hremap] at hexec
    refine ⟨_, hexec, ?_, ?_, ?_, (State.queueEntry_mem ..).trans (State.record_mem ..)⟩
    · rw [State.rd_congr (State.queueEntry_regs ..), State.rd_record _ _ hlost, State.rd_wr_same _ _ rfl]
      rfl
    · rw [State.rd_congr (State.queueEntry_regs ..), State.rd_record _ _ hlost, State.rd_wr_apart _ _ rfl rfl, State.rd_wr_same _ _ rfl]
      exact Nat.mod_eq_of_lt w.isLt
    · exact ((((hsame.mono (by simp)).wr (by simp) _ _).wr (by simp) _ _).record (by simp) _).of_regs (State.queueEntry_regs ..)

end Sys2Proof.Machine
end

section
/-! PROOF. The rows KEY_LOAD, DEBUG_UNLOCK, ENTER_RETURNED, REVOKE_IMAGE_KEY and BURN_IKH1 (R329 to R331, R339, R340). -/
namespace Sys2Proof.Machine

namespace State
variable {s t : State}

/-! ## KEY_LOAD (R329 to R331) -/

/-- Whether a stream is in use is not shown by SEC_KLOAD. -/
theorem streamBusy_congr (h : s.sameRegsBut [R.SEC_KLOAD] t) (hglades : t.glades = s.glades) (x : Nat) :
    t.streamBusy x = s.streamBusy x := by
  have himg : ∀ i f, t.rd (R.GRV_WIMG_CTL i) f = s.rd (R.GRV_WIMG_CTL i) f := fun i =>
    h.rd (by unfold R.SEC_KLOAD R.GRV_WIMG_CTL; simp; omega)
  have hof : t.imgOf x = s.imgOf x := by
    unfold imgOf on
    simp only [himg]
  have hpublish : ((List.range 16).any fun g => (t.gl g).publish.isSome && t.rd (R.GRV_WPCTL g) F.GRV_WPCTL_STREAM == x) =
      (List.range 16).any fun g => (s.gl g).publish.isSome && s.rd (R.GRV_WPCTL g) F.GRV_WPCTL_STREAM == x := by
    rw [Bool.eq_iff_iff, List.any_eq_true, List.any_eq_true]
    refine exists_congr fun g => and_congr_right fun hg => ?_
    have hlt := List.mem_range.mp hg
    rw [gl_congr hglades, h.rd (by unfold R.SEC_KLOAD R.GRV_WPCTL; simp; omega)]
  unfold streamBusy
  rw [hpublish, hof]
  simp only [imgState, himg]

theorem slotBusy_congr (h : s.sameRegsBut [R.SEC_KLOAD] t) (hglades : t.glades = s.glades) (hkeys : t.keys = s.keys) (x : Nat) :
    t.slotBusy x = s.slotBusy x := by
  have hks : t.ks x = s.ks x := congrArg (sget (fun _ => KeySlot.reset) · x) hkeys
  have hactive : t.active x = s.active x := by
    rw [active, on, h.rd (by unfold R.SEC_KLOAD R.GLD_STATUS; simp; omega), active, on]
  rw [slotBusy, slotBusy, hactive, hks, streamBusy_congr h hglades]

/-- The checks of a blob do not read SEC_KLOAD. -/
theorem blobResult_congr (h : s.sameRegsBut [R.SEC_KLOAD] t) (hglades : t.glades = s.glades) (hkeys : t.keys = s.keys)
    (hsec : t.sec = s.sec) (b : List Byte) (r : Bool) : t.blobResult b r = s.blobResult b r := by
  have hks : ∀ x, t.ks x = s.ks x := fun x => congrArg (sget (fun _ => KeySlot.reset) · x) hkeys
  have hbusy := slotBusy_congr h hglades hkeys
  have hid : t.reg R.SEC_DEVID = s.reg R.SEC_DEVID := h _ (by decide)
  have hlcs : t.lcs = s.lcs := h.rd (by decide) _
  have hstatus : ∀ f, t.on R.SEC_STATUS f = s.on R.SEC_STATUS f := fun f => by rw [on, h.rd (by decide), on]
  have hpolicy : ∀ f, t.on R.FUS_POLICY f = s.on R.FUS_POLICY f := fun f => by rw [on, h.rd (by decide), on]
  have hactive : ∀ x, t.active x = s.active x := fun x => by
    rw [active, on, h.rd (by unfold R.SEC_KLOAD R.GLD_STATUS; simp; omega), active, on]
  have hring : ∀ x, t.ring x = s.ring x := fun x => by
    rw [ring, h _ (by unfold R.SEC_KLOAD R.GLD_RING; simp; omega), ring]
  have hkek : t.kek b = s.kek b := by rw [kek, kek, hsec, hid]
  unfold blobResult
  simp only [hks, hbusy, hid, hlcs, hstatus, hpolicy, hactive, hring, hkek]

/-- The RESULT of a check. -/
theorem blobResult_le (b : List Byte) : s.blobResult b true < 10 := by
  unfold blobResult
  dsimp only
  repeat' split
  all_goals simp_all

/-- The address and the RESULT of a load, as SEC_KLOAD shows them. -/
def showLoad (s : State) (addr r : Nat) : State := (s.wr R.SEC_KLOAD F.SEC_KLOAD_ADDR (addr / 64)).wr R.SEC_KLOAD F.SEC_KLOAD_RESULT r

theorem showLoad_regs (s : State) (addr r : Nat) : s.sameRegsBut [R.SEC_KLOAD] (s.showLoad addr r) :=
  ((sameRegsBut.refl _ s).wr (by simp) _ _).wr (by simp) _ _

theorem rd_showLoad (s : State) (addr : Nat) {r : Nat} (hr : r < 10) :
    (s.showLoad addr r).rd R.SEC_KLOAD F.SEC_KLOAD_RESULT = r := by
  rw [showLoad, rd_wr_same _ _ rfl]
  exact Nat.mod_eq_of_lt (by rw [show F.SEC_KLOAD_RESULT.width = 4 from rfl]; omega)

theorem showLoad_keys (s : State) (addr r : Nat) : (s.showLoad addr r).keys = s.keys := rfl

theorem ks_showLoad (s : State) (addr r x : Nat) : (s.showLoad addr r).ks x = s.ks x := rfl

theorem showLoad_mem (s : State) (addr r : Nat) : (s.showLoad addr r).mem = s.mem := rfl

theorem showLoad_glades (s : State) (addr r : Nat) : (s.showLoad addr r).glades = s.glades := rfl

theorem showLoad_sent (s : State) (addr r : Nat) : (s.showLoad addr r).sent = s.sent := rfl

/-- A load whose blob can be read shows the RESULT of its checks; the key is taken, or the refusal is counted and recorded. -/
theorem keyLoad_read {addr o : Nat} (ho : o = addr / 64 * 64) (hserved : s.served o 192 = true) :
    (s.blobResult (s.readBytes o 192) true = 0 → ∃ key stream, s.keyLoad addr =
      (s.showLoad addr 0).updKs (leAt (s.readBytes o 192) 1 1 % 32) fun k => k.take
        (s.slotBusy (leAt (s.readBytes o 192) 1 1 % 32)) (leAt (s.readBytes o 192) 4 4) key (leAt (s.readBytes o 192) 24 8) stream) ∧
      (s.blobResult (s.readBytes o 192) true ≠ 0 → ∃ e, s.keyLoad addr =
        ((s.showLoad addr (s.blobResult (s.readBytes o 192) true)).inc R.SEC_ERR F.SEC_ERR_KREF).record e) := by
  have hshown : s.sameRegsBut [R.SEC_KLOAD] (s.wr R.SEC_KLOAD F.SEC_KLOAD_ADDR (addr / 64)) := (sameRegsBut.refl _ s).wr (by simp) _ _
  have hserved' : (s.wr R.SEC_KLOAD F.SEC_KLOAD_ADDR (addr / 64)).served o 192 = true :=
    ((hshown.sameLayout (by decide)).served o 192).trans hserved
  have hbytes : (s.wr R.SEC_KLOAD F.SEC_KLOAD_ADDR (addr / 64)).readBytes o 192 = s.readBytes o 192 := rfl
  have hresult := blobResult_congr hshown (wr_glades ..) (wr_keys ..) (wr_sec ..) (s.readBytes o 192) true
  unfold keyLoad
  dsimp only
  rw [← ho, hserved', if_pos rfl, hbytes, hresult, ← showLoad]
  constructor
  · intro hr
    rw [if_pos hr, hr, slotBusy_congr (s.showLoad_regs addr 0) (s.showLoad_glades ..) (s.showLoad_keys ..)]
    exact ⟨_, _, rfl⟩
  · intro hr
    have hlt := s.blobResult_le (s.readBytes o 192)
    rw [if_neg hr, if_neg (by omega)]
    exact ⟨_, rfl⟩

/-! ## Tokens (R339, R340) -/

/-- The challenge as the peek alias reads it (R446): it follows the counts of seals and of challenges. -/
theorem peekVal_chal (s : State) : s.peekVal R.SEC_CHAL =
    if s.answers R.SEC_CHAL then BitVec.ofNat 64 (s.sealEpoch * 2 ^ 40 + s.sec.chalCount % 2 ^ 40) else 0 := by
  have hreg : isReg R.SEC_CHAL = true := by decide +kernel
  have hdead : s.deadTile R.SEC_CHAL = false := rfl
  have hao : isAoAddr R.SEC_CHAL = false := by decide
  have hlive : ∀ w, s.liveMain R.SEC_CHAL w = BitVec.ofNat 64 (s.sealEpoch * 2 ^ 40 + s.sec.chalCount % 2 ^ 40) := fun w => by
    unfold liveMain
    simp only [show R.SEC_CHAL = 0x200028 from rfl, R.PHS_STATUS, R.GRV_FENCE, R.CQ_STATUS, R.BGT_CTL, R.MPT_TOP, R.RTR_SELF,
      R.RTR_PORTUP, R.RTR_MAPDATA, R.STP_VREC, R.SEC_SEAL]
    rfl
  unfold peekVal peek
  simp only [hreg, hdead, hao, hlive, Bool.not_true, Bool.false_eq_true, if_false, Bool.or_false]
  cases s.answers R.SEC_CHAL <;> rfl

/-- The checks of a token do not read SEC_TOKEN. -/
theorem tokenResult_congr (h : s.sameRegsBut [R.SEC_TOKEN] t) (hsec : t.sec = s.sec) (hao : t.ao = s.ao) (htest : t.test = s.test)
    (hfuses : t.fuses = s.fuses) (b : List Byte) (r : Bool) : t.tokenResult b r = s.tokenResult b r := by
  have hid : t.reg R.SEC_DEVID = s.reg R.SEC_DEVID := h _ (by decide)
  have hlcs : t.lcs = s.lcs := h.rd (by decide) _
  have hon : ∀ a f, a ≠ R.SEC_TOKEN → t.on a f = s.on a f := fun a f ha => by rw [on, h.rd (by simp [ha]), on]
  have hburnt : t.groupBurnt 2 = s.groupBurnt 2 := by
    have hfuse : ∀ w, t.fuse w = s.fuse w := fun w => congrArg (sget (fun _ => 0) · w) hfuses
    simp only [groupBurnt, groupCrc, hfuse]
  have hchal : t.peekVal R.SEC_CHAL = s.peekVal R.SEC_CHAL := by
    have hanswers : t.answers R.SEC_CHAL = s.answers R.SEC_CHAL := by rw [answers, mainUp, hao, htest, answers, mainUp]
    have hepoch : t.sealEpoch = s.sealEpoch := h.rd (by decide) _
    rw [peekVal_chal, peekVal_chal, hanswers, hepoch, hsec]
  have hkey : ∀ l, t.signerKey l = s.signerKey l := fun l => by
    have hdigest : ∀ w, t.reg (R.FUS_IKH w) = s.reg (R.FUS_IKH w) := fun w => h _ (by unfold R.SEC_TOKEN R.FUS_IKH; simp; omega)
    simp only [signerKey, hdigest, h.rd (show R.FUS_IKREV ∉ [R.SEC_TOKEN] by decide)]
  have hallowed : ∀ n, t.actionAllowed n = s.actionAllowed n := fun n => by
    simp only [actionAllowed, hlcs, lcsFree, hburnt, hon R.FUS_POLICY _ (by decide), hon R.FUS_LCS _ (by decide)]
  unfold tokenResult
  simp only [hid, hlcs, hchal, hkey, hallowed]

theorem tokenResult_le (b : List Byte) : s.tokenResult b true < 6 := by
  unfold tokenResult
  dsimp only
  repeat' split
  all_goals simp_all

/-- A token's address and RESULT, as SEC_TOKEN shows them, with the next challenge. -/
def showToken (s : State) (addr r : Nat) : State := State.wr { s.wr R.SEC_TOKEN F.SEC_TOKEN_ADDR (addr / 64) with
  sec := { s.sec with chalCount := (s.sec.chalCount + 1) % 2 ^ 40 } } R.SEC_TOKEN F.SEC_TOKEN_RESULT r

theorem showToken_regs (s : State) (addr r : Nat) : s.sameRegsBut [R.SEC_TOKEN] (s.showToken addr r) :=
  (((sameRegsBut.refl _ s).wr (by simp) F.SEC_TOKEN_ADDR (addr / 64)).of_regs rfl).wr (by simp) _ _

theorem rd_showToken (s : State) (addr : Nat) {r : Nat} (hr : r < 6) :
    (s.showToken addr r).rd R.SEC_TOKEN F.SEC_TOKEN_RESULT = r := by
  rw [showToken, rd_wr_same _ _ rfl]
  exact Nat.mod_eq_of_lt (by rw [show F.SEC_TOKEN_RESULT.width = 4 from rfl]; omega)

theorem showToken_sec (s : State) (addr r : Nat) :
    (s.showToken addr r).sec = { s.sec with chalCount := (s.sec.chalCount + 1) % 2 ^ 40 } := rfl

theorem showToken_keys (s : State) (addr r : Nat) : (s.showToken addr r).keys = s.keys := rfl

theorem showToken_fuses (s : State) (addr r : Nat) : (s.showToken addr r).fuses = s.fuses := rfl

/-- The burn or the unlock that a token's action starts. -/
def tokenAction (s : State) (b : List Byte) : State :=
  match leAt b 1 1 with
  | 1 => s.debugUnlock
  | 2 => s.startBurn ⟨s.lcsBits 4, some 4, false⟩
  | 3 => s.startBurn ⟨s.newBits 13 1, none, false⟩
  | _ => s.startBurn ⟨s.groupBits 2 (slice b 24 48), none, false⟩

/-- A token that can be read shows the RESULT of its checks, and does its action when they pass. -/
theorem token_read {addr o : Nat} (ho : o = addr / 64 * 64) (hserved : s.served o 264 = true) :
    (s.tokenResult (s.readBytes o 264) true = 0 → s.token addr = (s.showToken addr 0).tokenAction (s.readBytes o 264)) ∧
      (s.tokenResult (s.readBytes o 264) true ≠ 0 → s.token addr = s.showToken addr (s.tokenResult (s.readBytes o 264) true) ∨
        ∃ e, s.token addr = (s.showToken addr (s.tokenResult (s.readBytes o 264) true)).record e) := by
  have hshown : s.sameRegsBut [R.SEC_TOKEN] (s.wr R.SEC_TOKEN F.SEC_TOKEN_ADDR (addr / 64)) := (sameRegsBut.refl _ s).wr (by simp) _ _
  have hserved' : (s.wr R.SEC_TOKEN F.SEC_TOKEN_ADDR (addr / 64)).served o 264 = true :=
    ((hshown.sameLayout (by decide)).served o 264).trans hserved
  have hbytes : (s.wr R.SEC_TOKEN F.SEC_TOKEN_ADDR (addr / 64)).readBytes o 264 = s.readBytes o 264 := rfl
  have hresult := tokenResult_congr hshown (wr_sec ..) (wr_ao ..) (wr_test ..) (wr_fuses ..) (s.readBytes o 264) true
  have hsec : (s.wr R.SEC_TOKEN F.SEC_TOKEN_ADDR (addr / 64)).sec = s.sec := wr_sec ..
  unfold token
  dsimp only
  rw [← ho, hserved', if_pos rfl, if_pos rfl, hbytes, hresult, hsec, ← showToken]
  constructor
  · intro hr
    rw [if_neg (by simp [hr]), if_neg (by simp [hr]), hr]
    rfl
  · intro hr
    split
    · exact .inr ⟨_, rfl⟩
    · exact .inl rfl

/-! ## The fence of a debug unlock (R172, R340) -/

/-- What no engine of a member changes by a fence: the keys, the security unit, the fuses and member memory. -/
def vault (s : State) : Sparse KeySlot × SecState × Sparse Word × Sparse Byte := (s.keys, s.sec, s.fuses, s.mem)

theorem wr_vault (s : State) (a : Nat) (f : Fld) (n : Nat) : (s.wr a f n).vault = s.vault := rfl

theorem record_fuses (s : State) (e : Ev) : (s.record e).fuses = s.fuses := by
  obtain ⟨r, v, h⟩ := s.record_fields e
  rw [h]

theorem record_vault (s : State) (e : Ev) : (s.record e).vault = s.vault := by
  rw [vault, record_keys, record_sec, record_fuses, record_mem, vault]

theorem raiseFirebreak_vault (s : State) : s.raiseFirebreak.vault = s.vault := rfl

theorem haltGladeQueues_vault (s : State) (g : Nat) : (s.haltGladeQueues g).vault = s.vault := each_eq s vault fun v q _ => by
  split
  · rfl
  · rfl

theorem dropNextShape_vault (s : State) (g : Nat) : (s.dropNextShape g).vault = s.vault := by
  unfold dropNextShape
  split
  · rfl
  · rfl

theorem showFence_vault (s : State) (g : Nat) : (s.showFence g).vault = s.vault := by
  rw [showFence, wr_vault, wr_vault, setMask, wr_vault, setMstate, wr_vault, setHold, flag, wr_vault, haltGladeQueues_vault,
    toMembers_eq]
  rfl

theorem endMember_vault (s : State) (g : Nat) : (s.endMember g).vault = s.vault := by
  unfold endMember
  refine (dropNextShape_vault ..).trans ?_
  split
  · rfl
  · rfl

theorem fence_vault (s : State) (g : Nat) : (s.fence g).vault = s.vault := by
  cases h : s.fenced g with
  | true => rw [fence_of_fenced h]
  | false =>
    rw [fence_of_unfenced h, record_vault, endMember_vault, raiseFirebreak_vault, showFence_vault]

/-- A fence leaves the registers of the security unit, of the fuses and of Ranger. -/
theorem reg_fence_high (s : State) {g a : Nat} (hg : g < 16) (hbounds : 0x200000 ≤ a ∧ a < 0x280000) :
    (s.fence g).reg a = s.reg a := by
  have hhalt : ∀ v : State, (v.haltGladeQueues g).reg a = v.reg a := fun v => each_eq v (fun v => v.reg a) fun v q hq => by
    have hlt := List.mem_range.mp hq
    split
    · rw [haltQueue, setMask, reg_wr_other _ (by unfold R.CQ_STATUS; omega), reg_setReg, if_neg (by unfold R.CQ_QSTAT; omega)]
    · rfl
  have hshow : (s.showFence g).reg a = s.reg a := by
    have hfence : a ≠ R.GRV_FENCE := by unfold R.GRV_FENCE; omega
    rw [showFence, reg_wr_other _ hfence, reg_wr_other _ hfence, setMask, reg_wr_other _ hfence, setMstate,
      reg_wr_other _ (by unfold R.GRV_MSTAT; omega), setHold, flag, reg_wr_other _ (by unfold R.PHS_GSTAT; omega), hhalt,
      reg_congr (toMembers_regs ..)]
  cases h : s.fenced g with
  | true => rw [fence_of_fenced h]
  | false =>
    have hend := endMember_regs (s.showFence g).raiseFirebreak g a (by
      simp only [List.mem_cons, List.not_mem_nil, or_false, R.GRV_WIT, R.GLD_SBSTAT, R.GRV_NEXTCFG, R.GRV_CPSTAT, R.GRV_CPPROG]
      omega)
    rw [fence_of_unfenced h, reg_record _ _ (by unfold R.EVR_LOST; omega), hend, reg_congr (raiseFirebreak_regs _), hshow]

/-- A debug unlock clears every key, fences every member and sets UNLOCK (R340). -/
theorem debugUnlock_shows (s : State) : s.debugUnlock.keys = [] ∧ s.debugUnlock.sec = s.sec ∧
    s.debugUnlock.fuses = s.fuses ∧ s.debugUnlock.mem = s.mem ∧ s.debugUnlock.rd R.SEC_STATUS F.SEC_STATUS_UNLOCK = 1 ∧
    (∀ f, s.debugUnlock.rd R.SEC_TOKEN f = s.rd R.SEC_TOKEN f) ∧
    ∀ g, g < 16 → s.inGrove g = true → s.debugUnlock.fenced g = true := by
  have hvault : (({ s with keys := [] } : State).forceFence 0xFFFF).vault = ([], s.sec, s.fuses, s.mem) :=
    each_eq { s with keys := [] } vault fun v g _ => fence_vault v g
  have htoken : (({ s with keys := [] } : State).forceFence 0xFFFF).reg R.SEC_TOKEN = s.reg R.SEC_TOKEN :=
    each_eq { s with keys := [] } (fun v => v.reg R.SEC_TOKEN) fun v g hg =>
      reg_fence_high v (List.mem_range.mp (List.mem_of_mem_filter hg)) (by decide)
  obtain ⟨hkeys, hsec, hfuses, hmem⟩ := Prod.mk.inj hvault |>.imp_right fun h => Prod.mk.inj h |>.imp_right Prod.mk.inj
  refine ⟨hkeys, hsec, hfuses, hmem, ?_, fun f => ?_, fun g hg hin => ?_⟩
  · rw [debugUnlock, rd_wr_same _ _ rfl]
    rfl
  · rw [debugUnlock, rd_wr_other _ (by decide), rd, htoken, rd]
  · have hmask : (0xFFFF : BitVec 16).getLsbD g = true := by
      have hall : ∀ i : Fin 16, (0xFFFF : BitVec 16).getLsbD i.val = true := by decide
      exact hall ⟨g, hg⟩
    have hfenced := fenced_forceFence { s with keys := [] } 0xFFFF hg
    rw [debugUnlock, fenced, rd_wr_other _ (by decide), ← fenced]
    refine hfenced.trans ?_
    rw [hmask, Bool.true_and, Bool.or_eq_true]
    exact .inr hin

theorem startBurn_shows (s : State) (b : Burn) : (s.startBurn b).sec = { s.sec with burn := some b } ∧ (s.startBurn b).keys = s.keys ∧
    (s.startBurn b).rd R.FUS_LCS F.FUS_LCS_BUSY = 1 ∧ s.sameRegsBut [R.FUS_LCS] (s.startBurn b) := by
  refine ⟨rfl, rfl, ?_, ((sameRegsBut.refl _ s).of_regs rfl).wr (by simp) _ _⟩
  rw [startBurn, rd_wr_same _ _ rfl]
  rfl

theorem tokenAction_unlocks {b : List Byte} (hb : leAt b 1 1 = 1) : s.tokenAction b = s.debugUnlock := by
  unfold tokenAction
  split
  case h_1 => rfl
  case h_2 h => exact absurd (h.symm.trans hb) (by decide)
  case h_3 h => exact absurd (h.symm.trans hb) (by decide)
  case h_4 h _ _ => exact absurd hb h

/-- An action other than a debug unlock starts a burn. -/
theorem tokenAction_burns {b : List Byte} (hb : leAt b 1 1 ≠ 1) : ∃ x, s.tokenAction b = s.startBurn x ∧
    (leAt b 1 1 = 2 → x = ⟨s.lcsBits 4, some 4, false⟩) ∧ (leAt b 1 1 = 3 → x = ⟨s.newBits 13 1, none, false⟩) ∧
    (leAt b 1 1 = 4 → x = ⟨s.groupBits 2 (slice b 24 48), none, false⟩) := by
  unfold tokenAction
  split
  case h_1 h => exact absurd h hb
  case h_2 h => exact ⟨_, rfl, fun _ => rfl, fun e => absurd (h.symm.trans e) (by decide), fun e => absurd (h.symm.trans e) (by decide)⟩
  case h_3 h => exact ⟨_, rfl, fun e => absurd (h.symm.trans e) (by decide), fun _ => rfl, fun e => absurd (h.symm.trans e) (by decide)⟩
  case h_4 _ h2 h3 => exact ⟨_, rfl, fun e => absurd e h2, fun e => absurd e h3, fun _ => rfl⟩

end State

section Rows
variable {s : State} (h : s.up)
include h

theorem exec_keyLoad (a : BitVec 44) : exec (.keyLoad a) s = .next (s.keyLoad a.toNat) :=
  congrArg Host.Outcome.next (State.inMain_of_up h _)

/-- Each of the four rows is a GO of SEC_TOKEN: its blob names the action. -/
theorem exec_token {a : BitVec 44} {c : Instr} (hc : c ∈ [.debugUnlock a, .enterReturned a, .revokeImageKey a, .burnIkh1 a]) :
    exec c s = .next (s.token a.toNat) := by
  simp only [List.mem_cons, List.not_mem_nil, or_false] at hc
  obtain rfl | rfl | rfl | rfl := hc
  all_goals exact congrArg Host.Outcome.next (State.inMain_of_up h _)

end Rows

/-- A generation takes its place by whether the slot is in use (R331). -/
theorem KeySlot.take_shows (k : KeySlot) (kgen sw stream : Nat) (key : BitVec 256) : ∃ n : KeyGen, n.kgen = kgen ∧
    ((k.take false kgen key sw stream).cur = some n ∧ (k.take false kgen key sw stream).prev = k.cur ∧
      (k.take false kgen key sw stream).next = none) ∧
    (k.take true kgen key sw stream).cur = k.cur ∧ (k.take true kgen key sw stream).prev = none ∧
      (k.take true kgen key sw stream).next = some n := ⟨_, rfl, ⟨rfl, rfl, rfl⟩, rfl, rfl, rfl⟩

/-- Settles O54: a blob and a token by the RESULT of their checks. -/
theorem keysAndTokens : Obligations.KeysAndTokens := by
  unfold Obligations.KeysAndTokens
  refine ⟨fun s a o q r b h ho hserved hb hr hq => ?_, fun s a c o r b h hc ho hserved hb hr => ?_⟩
  · subst hb hr hq
    have hexec := exec_keyLoad h a
    have hlt := s.blobResult_le (s.readBytes o 192)
    obtain ⟨htaken, hrefused⟩ := State.keyLoad_read ho hserved
    by_cases hr : s.blobResult (s.readBytes o 192) true = 0
    · obtain ⟨key, stream, hload⟩ := htaken hr
      rw [hload] at hexec
      refine ⟨_, hexec, ?_, fun x hx => ?_, (State.updKs_sent ..).trans (s.showLoad_sent ..),
        (State.updKs_mem ..).trans (s.showLoad_mem ..),
        fun _ => ⟨(s.showLoad_regs a.toNat 0).of_regs (State.updKs_regs ..), ?_⟩, fun hne => absurd hr hne⟩
      · rw [hr, State.rd_congr (State.updKs_regs ..), s.rd_showLoad a.toNat (by decide)]
      · rw [State.ks_updKs, if_neg hx, s.ks_showLoad]
      · rw [State.ks_updKs, if_pos rfl, s.ks_showLoad]
        obtain ⟨n, hgen, hidle, hbusy⟩ := (s.ks (leAt (s.readBytes o 192) 1 1 % 32)).take_shows (leAt (s.readBytes o 192) 4 4)
          (leAt (s.readBytes o 192) 24 8) stream key
        exact ⟨n, hgen, fun e => by rw [e]; exact hidle, fun e => by rw [e]; exact hbusy⟩
    · obtain ⟨e, hload⟩ := hrefused hr
      rw [hload] at hexec
      have hregs := s.showLoad_regs a.toNat (s.blobResult (s.readBytes o 192) true)
      refine ⟨_, hexec, ?_, fun x _ => ?_, ?_, State.record_mem .., fun h0 => absurd h0 hr, fun _ => ⟨?_, ?_, ?_⟩⟩
      · rw [State.rd_record _ _ (by decide), State.rd_inc_other _ (by decide), s.rd_showLoad _ hlt]
      · exact congrArg (sget (fun _ => KeySlot.reset) · x) (State.record_keys ..)
      · exact State.record_sent ..
      · exact State.record_keys ..
      · rw [State.rd_record _ _ (by decide), State.rd_inc_same _ _ rfl, hregs.rd (by decide)]
        rfl
      · exact ((hregs.mono (by simp)).inc (by simp) _).record (by simp) _
  · subst hb hr
    have hexec := exec_token h hc
    have hlt := s.tokenResult_le (s.readBytes o 264)
    have hregs := s.showToken_regs a.toNat
    obtain ⟨hdone, hrefused⟩ := State.token_read ho hserved
    by_cases hr : s.tokenResult (s.readBytes o 264) true = 0
    · rw [hdone hr] at hexec
      by_cases hact : leAt (s.readBytes o 264) 1 1 = 1
      · obtain ⟨hkeys, hsec, hfuses, hmem, hunlock, htoken, hfenced⟩ := (s.showToken a.toNat 0).debugUnlock_shows
        have hother : ∀ n, n ≠ 1 → leAt (s.readBytes o 264) 1 1 ≠ n := fun n hn e => hn (e.symm.trans hact)
        rw [State.tokenAction_unlocks hact] at hexec
        refine ⟨_, hexec, ?_, ?_, hfuses, hmem, fun hne => absurd hr hne,
          fun _ _ => ⟨hkeys, hunlock, fun g hg hin => hfenced g hg ?_⟩,
          fun _ hne => absurd hact hne, fun _ e => absurd e (hother _ (by decide)), fun _ e => absurd e (hother _ (by decide)),
          fun _ e => absurd e (hother _ (by decide))⟩
        · rw [htoken, hr, s.rd_showToken _ (by decide)]
        · rw [hsec, State.showToken_sec]
        · rw [State.inGrove, State.mstate, (hregs 0).rd (by unfold R.SEC_TOKEN R.GRV_MSTAT; simp; omega)]
          exact hin
      · obtain ⟨x, hstart, htwo, hthree, hfour⟩ := State.tokenAction_burns (s := s.showToken a.toNat 0) hact
        obtain ⟨hsec, hkeys, hbusy, hburn⟩ := (s.showToken a.toNat 0).startBurn_shows x
        rw [hstart] at hexec
        refine ⟨_, hexec, ?_, ?_, rfl, rfl, fun hne => absurd hr hne, fun _ e => absurd e hact,
          fun _ _ => ⟨hkeys.trans (s.showToken_keys ..), hbusy, ((hregs 0).mono (by simp)).trans (hburn.mono (by simp))⟩,
          fun _ e => ?_, fun _ e => ?_, fun _ e => ?_⟩
        · rw [hburn.rd (by decide), hr, s.rd_showToken _ (by decide)]
        · rw [hsec, State.showToken_sec]
        · rw [hsec, htwo e]
          rfl
        · rw [hsec, hthree e]
          rfl
        · rw [hsec, hfour e]
          rfl
    · obtain hload | ⟨e, hload⟩ := hrefused hr
      all_goals rw [hload] at hexec
      · exact ⟨_, hexec, s.rd_showToken _ hlt, rfl, rfl, rfl, fun _ => ⟨rfl, rfl, (hregs _).mono (by simp)⟩,
          fun h0 => absurd h0 hr, fun h0 => absurd h0 hr, fun h0 => absurd h0 hr, fun h0 => absurd h0 hr, fun h0 => absurd h0 hr⟩
      · refine ⟨_, hexec, ?_, ?_, State.record_fuses .., State.record_mem ..,
          fun _ => ⟨?_, ?_, ((hregs _).mono (by simp)).record (by simp) _⟩,
          fun h0 => absurd h0 hr, fun h0 => absurd h0 hr, fun h0 => absurd h0 hr, fun h0 => absurd h0 hr, fun h0 => absurd h0 hr⟩
        · rw [State.rd_record _ _ (by decide), s.rd_showToken _ hlt]
        · rw [State.record_sec, State.showToken_sec]
        · exact State.record_keys ..
        · rw [State.record_sec, State.showToken_sec]

end Sys2Proof.Machine
end

section
/-! PROOF. The rows HALT, FORCE_HALT, STEP, RANGER_RESUME, HALT_PROCEED, HALT_PENDING_TIMEOUT, BREAKPOINT and DEBUG_MEMORY_ACCESS
(R338, R405, R406). -/
namespace Sys2Proof.Machine

namespace State
variable {s : State}

/-! ## Locks (R405) -/

/-- A glade without an agreement and without a stand-in that it serves holds no lock. -/
def unlocked (s : State) (g : Nat) : Prop := (s.gl g).agreement = none ∧ (s.gl g).serving = []

theorem unlocked_congr {t : State} (h : t.glades = s.glades) (g : Nat) : t.unlocked g ↔ s.unlocked g := by
  rw [unlocked, unlocked, gl_congr h]

/-- LOCKS shows the glades that hold a lock. -/
theorem bitAt_locks {g : Nat} (hg : g < 16) : bitAt s.locks g = false ↔ s.unlocked g := by
  rw [locks, bitAt_maskOf, List.getD_eq_getElem?_getD, List.getElem?_map, List.getElem?_range hg]
  simp [unlocked]

theorem locks_eq_zero (h : ∀ g, g < 16 → s.unlocked g) : s.locks = 0 := by
  refine Nat.eq_of_testBit_eq fun i => ?_
  rw [Nat.zero_testBit, ← bitAt_eq_testBit]
  by_cases hi : i < 16
  · exact (bitAt_locks hi).mpr (h i hi)
  · rw [locks, bitAt_maskOf, List.getD_eq_getElem?_getD, List.getElem?_eq_none (by simpa using hi)]
    rfl

theorem unlocked_dropNextShape (g x : Nat) : (s.dropNextShape g).unlocked x ↔ s.unlocked x := by
  unfold dropNextShape
  split
  · rfl
  · rw [unlocked, gl_updGl]
    split
    case isTrue heq => rw [heq]; rfl
    case isFalse => rfl

theorem raiseFirebreak_glades (s : State) : s.raiseFirebreak.glades = s.glades := rfl

/-- The registers that a fence shows once the queues have halted. -/
def showHeld (s : State) (g vis : Nat) : State :=
  ((((s.setHold g true).setMstate g 6).setMask R.GRV_FENCE F.GRV_FENCE_FENCED g).wr R.GRV_FENCE F.GRV_FENCE_LASTG g).wr
    R.GRV_FENCE F.GRV_FENCE_VIS vis

theorem showHeld_glades (s : State) (g vis : Nat) : (s.showHeld g vis).glades = s.glades := rfl

/-- The notices of a fence, and the queues halted. -/
def haltMember (s : State) (g : Nat) : State := (s.toMembers g (s.grovePeers g) "FENCE" [g, s.lmn g]).haltGladeQueues g

theorem haltMember_glades (s : State) (g : Nat) : (s.haltMember g).glades = s.glades :=
  (haltGladeQueues_glades _ g).trans (toMembers_glades ..)

theorem showFence_eq (s : State) (g : Nat) :
    s.showFence g = (s.haltMember g).showHeld g (s.rd (R.GRV_MSTAT g) F.GRV_MSTAT_VIS) := rfl

theorem showFence_glades (s : State) (g : Nat) : (s.showFence g).glades = s.glades :=
  (congrArg State.glades (showFence_eq s g)).trans ((showHeld_glades (s.haltMember g) g _).trans (haltMember_glades s g))

/-- What a fence ends takes no lock. -/
theorem unlocked_endMember (g : Nat) {x : Nat} (h : s.unlocked x) : (s.endMember g).unlocked x := by
  have hwit : (if (s.gl g).agreement.isSome then s.wr R.GRV_WIT F.GRV_WIT_ACTIVE 0 else s).unlocked x := by
    split
    · exact (unlocked_congr (wr_glades ..) x).mpr h
    · exact h
  unfold endMember
  refine (unlocked_dropNextShape ..).mpr ?_
  rw [unlocked, gl_updGl]
  split
  · exact ⟨rfl, rfl⟩
  · exact (unlocked_congr (wr_glades ..) x).mpr hwit

/-- A fence takes no lock. -/
theorem unlocked_fence (g : Nat) {x : Nat} (h : s.unlocked x) : (s.fence g).unlocked x := by
  cases hf : s.fenced g with
  | true => rwa [fence_of_fenced hf]
  | false =>
    have hglades : (s.showFence g).raiseFirebreak.glades = s.glades := (raiseFirebreak_glades _).trans (s.showFence_glades g)
    rw [fence_of_unfenced hf]
    exact (unlocked_congr (record_glades _ _) x).mpr (unlocked_endMember g ((unlocked_congr hglades x).mpr h))

/-! ## The halt (R405) -/

theorem forceFence_vault (s : State) (m : Nat) : (s.forceFence m).vault = s.vault := each_eq s vault fun v g _ => fence_vault v g

theorem reg_forceFence_high (s : State) (m : Nat) {a : Nat} (ha : 0x200000 ≤ a ∧ a < 0x280000) : (s.forceFence m).reg a = s.reg a :=
  each_eq s (fun v => v.reg a) fun v _ hg => reg_fence_high v (List.mem_range.mp (List.mem_of_mem_filter hg)) ha

theorem forceFence_mem (s : State) (m : Nat) : (s.forceFence m).mem = s.mem :=
  congrArg (fun x => x.2.2.2) (s.forceFence_vault m)

theorem unlocked_forceFence (m : Nat) {g : Nat} (h : s.unlocked g) : (s.forceFence m).unlocked g := by
  have hall : ∀ (l : List Nat) (v : State), v.unlocked g → (v.each l fun v x => v.fence x).unlocked g := fun l => by
    induction l with
    | nil => exact fun v hv => hv
    | cons x r ih => exact fun v hv => ih _ (unlocked_fence x hv)
  exact hall _ s h

theorem freePc_regs (s : State) : s.sameRegsBut [R.RGR_PC] s.freePc := ((sameRegsBut.refl _ s).wr (by simp) _ _).of_regs rfl

/-- A halt shows its cause and its STATE, and fences every joined member. -/
theorem haltNow_shows (s : State) {cause n : Nat} (hcause : cause < 8) (hn : n < 4) :
    (s.haltNow cause n).rd R.RGR_DSTAT F.RGR_DSTAT_STATE = n ∧ (s.haltNow cause n).rd R.RGR_DSTAT F.RGR_DSTAT_CAUSE = cause ∧
      (∀ g, g < 16 → s.inGrove g = true → (s.haltNow cause n).fenced g = true) ∧ (s.haltNow cause n).mem = s.mem ∧
      ∀ g, s.unlocked g → (s.haltNow cause n).unlocked g := by
  have hpc : ∀ (v : State) a f, a ≠ R.RGR_PC → v.freePc.rd a f = v.rd a f := fun v a f ha => (freePc_regs v).rd (by simp [ha]) f
  unfold haltNow
  dsimp only
  refine ⟨?_, ?_, fun g hg hin => ?_, s.forceFence_mem 0xFFFF, fun g => unlocked_forceFence 0xFFFF⟩
  · rw [hpc _ _ _ (by decide), rd_wr_apart _ _ rfl rfl, rd_wr_same _ _ rfl]
    exact Nat.mod_eq_of_lt hn
  · rw [hpc _ _ _ (by decide), rd_wr_same _ _ rfl]
    exact Nat.mod_eq_of_lt hcause
  · have hmask : (0xFFFF : BitVec 16).getLsbD g = true := by
      have hall : ∀ i : Fin 16, (0xFFFF : BitVec 16).getLsbD i.val = true := by decide
      exact hall ⟨g, hg⟩
    have hfenced := s.fenced_forceFence 0xFFFF hg
    rw [hmask, hin, Bool.and_self, Bool.or_true] at hfenced
    rw [fenced, hpc _ _ _ (by decide), rd_wr_other _ (by decide), rd_wr_other _ (by decide), ← fenced]
    exact hfenced

theorem rangerHalted_of {n : Nat} (h : s.rd R.RGR_DSTAT F.RGR_DSTAT_STATE = n) : s.rangerHalted = decide (2 ≤ n) := by
  rw [rangerHalted, h]

/-- A request that nothing refuses halts Ranger at once where no lock is held, and waits for the locks otherwise. -/
theorem haltRequest_open (hopen : s.haltOpen = true) (hrun : s.rd R.RGR_DSTAT F.RGR_DSTAT_STATE = 0) (cause : Nat) :
    s.haltRequest cause = if s.locks = 0 then s.haltNow cause 2 else s.haltPend cause := by
  unfold haltRequest
  rw [if_neg (by simp [hopen]), if_neg (by simp [hrun])]

/-- A force gives up the locks that it finds. -/
def abandonLocks (s : State) (l : Nat) : State := s.each ((List.range 16).filter (bitAt l)) fun s g => s.updGl g fun e =>
  { e with agreement := none, serving := [] }

theorem abandonLocks_regs (s : State) (l : Nat) : (s.abandonLocks l).regs = s.regs := each_eq s State.regs fun _ _ _ => rfl

theorem abandonLocks_mem (s : State) (l : Nat) : (s.abandonLocks l).mem = s.mem := each_eq s State.mem fun _ _ _ => rfl

/-- Every glade that the mask names, and every other one that held no lock, holds none. -/
theorem unlocked_abandonLocks {l g : Nat} (hg : g < 16) (h : bitAt l g = false → s.unlocked g) : (s.abandonLocks l).unlocked g := by
  have hkeep : ∀ (v : State) (y : Nat), v.unlocked g →
      (v.updGl y fun e => { e with agreement := none, serving := [] }).unlocked g := fun v y hv => by
    rw [unlocked, gl_updGl]
    split
    · exact ⟨rfl, rfl⟩
    · exact hv
  have hall : ∀ (r : List Nat) (v : State), v.unlocked g →
      (v.each r fun s y => s.updGl y fun e => { e with agreement := none, serving := [] }).unlocked g := fun r => by
    induction r with
    | nil => exact fun v hv => hv
    | cons y r ih => exact fun v hv => ih _ (hkeep v y hv)
  cases hbit : bitAt l g with
  | false => exact hall _ s (h hbit)
  | true =>
    refine each_of_mem s (p := fun v => v.unlocked g) (x := g) (List.mem_filter.mpr ⟨List.mem_range.mpr hg, hbit⟩) (fun v => ?_)
      fun v y _ hv => hkeep v y hv
    rw [unlocked, gl_updGl, if_pos rfl]
    exact ⟨rfl, rfl⟩

theorem forceHalt_open (hopen : s.haltOpen = true) (hrun : s.rangerHalted = false) : s.forceHalt 0x0C5A0400 =
    if s.locks = 0 then s.haltNow 2 2 else ((s.haltNow 2 3).abandonLocks s.locks).record
      (((ev Sev.warn Src.fw 0).field R.RGR_DSTAT F.RGR_DSTAT_LOCKS).about s.locks) := by
  unfold forceHalt
  rw [if_neg (by simp), if_neg (by simp [hopen]), if_neg (by simp [hrun])]
  rfl

/-- A request while halt is closed sets REFUSED, and is recorded. -/
theorem haltRefused_shows (s : State) : s.haltRefused.rd R.RGR_DSTAT F.RGR_DSTAT_REFUSED = 1 ∧
    s.sameRegsBut [R.RGR_DSTAT, R.EVR_LOST] s.haltRefused ∧ s.haltRefused.sent = s.sent ∧ s.haltRefused.mem = s.mem := by
  unfold haltRefused
  refine ⟨?_, ((sameRegsBut.refl _ s).wr (by simp) _ _).record (by simp) _, record_sent .., record_mem ..⟩
  rw [rd_record _ _ (by decide), rd_wr_same _ _ rfl]
  rfl

/-! ## Local memory (R406) -/

/-- Local memory does not answer while Ranger runs. -/
theorem peek_localMemory (hrun : s.rangerHalted = false) : s.peek R.RGR_DDATA = none := by
  have hdead : s.deadTile R.RGR_DDATA = false := rfl
  unfold peek
  rw [hdead, hrun]
  split
  · rfl
  · rfl

theorem sget_writeLocal (v : Word) (a : Nat) : sget (fun _ => 0) (s.writeLocal v).rangerMem a =
    if a = s.rd R.RGR_DADDR F.RGR_DADDR_ADDR then v else sget (fun _ => 0) s.rangerMem a := sget_sset ..

end State

/-! ## The rows -/

section Rows
variable {s : State}

theorem exec_halt (h : s.up) : exec .halt s = .next (s.haltRequest 1) := congrArg Host.Outcome.next (State.inMain_of_up h _)

theorem exec_forceHalt (h : s.up) : exec (.forceHalt 0x0C5A0400) s = .next (s.forceHalt 0x0C5A0400) :=
  congrArg Host.Outcome.next (State.inMain_of_up h _)

theorem exec_rangerStep (h : s.up) : exec .rangerStep s = .next s.rangerStep := congrArg Host.Outcome.next (State.inMain_of_up h _)

theorem exec_rangerResume (h : s.up) (hhalt : s.rangerHalted = true) : exec .rangerResume s =
    .next ((s.wr R.RGR_DSTAT F.RGR_DSTAT_STATE 0).wr R.RGR_DSTAT F.RGR_DSTAT_CAUSE 0) := by
  have hexec : exec .rangerResume s = .next s.rangerResume := congrArg Host.Outcome.next (State.inMain_of_up h _)
  rw [hexec, State.rangerResume, if_pos hhalt]

theorem exec_haltProceed (h : s.up) (hpend : s.rd R.RGR_DSTAT F.RGR_DSTAT_STATE = 1) (hlocks : s.locks = 0) :
    exec .haltProceed s = .next (s.haltNow (s.rd R.RGR_DSTAT F.RGR_DSTAT_CAUSE) 2) := by
  have hexec : exec .haltProceed s = .next _ := congrArg Host.Outcome.next (State.inMain_of_up h _)
  rw [hexec, if_pos (by simp [hpend, hlocks])]

theorem exec_haltPendingTimeout (h : s.up) (hpend : s.rd R.RGR_DSTAT F.RGR_DSTAT_STATE = 1) :
    ∃ e, exec .haltPendingTimeout s = .next (s.record e) := by
  have hexec : exec .haltPendingTimeout s = .next _ := congrArg Host.Outcome.next (State.inMain_of_up h _)
  rw [hexec, if_pos hpend]
  exact ⟨_, rfl⟩

/-- A breakpoint with EN = 1 halts Ranger before its instruction (R406). -/
theorem exec_breakpoint {x : Fin 4} (h : s.up) (hopen : s.haltOpen = true) (hlocks : s.locks = 0)
    (hrun : s.rd R.RGR_DSTAT F.RGR_DSTAT_STATE = 0) (hen : s.on (R.RGR_BKPT x.val) F.RGR_BKPT_EN = true) :
    exec (.breakpoint x) s = .next ((s.haltNow 3 2).wr R.RGR_PC F.RGR_PC_PC
      (4 * (s.haltNow 3 2).rd (R.RGR_BKPT x.val) F.RGR_BKPT_ADDR)) := by
  have hexec : exec (.breakpoint x) s = .next _ := congrArg Host.Outcome.next (State.inMain_of_up h _)
  obtain ⟨hstate, -⟩ := s.haltNow_shows (cause := 3) (n := 2) (by decide) (by decide)
  have hhalted : (s.haltNow 3 2).rangerHalted = true := State.rangerHalted_of hstate
  rw [hexec, if_pos (by simp [hen, State.rangerHalted_of hrun]), State.haltRequest_open hopen hrun, if_pos hlocks]
  dsimp only
  rw [if_pos hhalted]

theorem exec_debugMemoryAccess (h : s.aoUp) (w : Bool) (v : Word) : exec (.debugMemoryAccess w v) s =
    .next (match s.peek R.RGR_DDATA with
      | none => s.respond none
      | some x => if w then (s.writeLocal v).respond (some 0) else s.respond (some x)) :=
  congrArg Host.Outcome.next (State.inAo_of_aoUp h _)

end Rows

/-- A FORCE without its CONFIRM value does nothing (R405). -/
theorem exec_forceHalt_unconfirmed {s : State} {k : BitVec 32} (hk : k.toNat ≠ 0x0C5A0400) : exec (.forceHalt k) s = .next s := by
  refine congrArg Host.Outcome.next (?_ : s.inMain _ = s)
  unfold State.inMain
  split
  · exact if_pos hk
  · rfl

/-- Settles O59: each row by whether halt is open, Ranger halted and a lock held. -/
theorem rangerDebug : Obligations.RangerDebug := by
  unfold Obligations.RangerDebug
  refine ⟨fun s c n h hopen hlocks hc => ?_, fun s h hopen hlocks hrun => ?_, fun s h hopen hlocks hrun => ?_,
    fun s c h hclosed hc => ?_, fun s k hk => exec_forceHalt_unconfirmed hk, fun s h hopen hhalt => ?_, fun s h hhalt => ?_,
    fun s h hpend => ?_, fun s x h hopen hlocks hrun hen => ?_, fun s w v x h hpeek => ?_, fun s w v h hrun => ?_⟩
  · have hnow : exec c s = .next (s.haltNow n 2) ∧ n < 8 := by
      obtain ⟨rfl, rfl, hrun⟩ | ⟨rfl, rfl, hrun⟩ | ⟨rfl, rfl, hpend⟩ := hc
      · exact ⟨by rw [exec_halt h, State.haltRequest_open hopen hrun, if_pos hlocks], by decide⟩
      · have hrun' : s.rangerHalted = false := decide_eq_false (by omega)
        exact ⟨by rw [exec_forceHalt h, State.forceHalt_open hopen hrun', if_pos hlocks], by decide⟩
      · exact ⟨exec_haltProceed h hpend hlocks, s.rd_lt _ F.RGR_DSTAT_CAUSE⟩
    obtain ⟨hexec, hn⟩ := hnow
    obtain ⟨hstate, hcause, hfenced, hmem, -⟩ := s.haltNow_shows hn (show 2 < 4 by decide)
    exact ⟨_, hexec, hstate, hcause, State.rangerHalted_of hstate, hfenced, hmem⟩
  · have hexec := exec_halt h
    rw [State.haltRequest_open hopen hrun, if_neg hlocks, State.haltPend] at hexec
    refine ⟨_, hexec, ?_, ?_, ((State.sameRegsBut.refl _ s).wr (by simp) _ _).wr (by simp) _ _, rfl, rfl⟩
    · rw [State.rd_wr_apart _ _ rfl rfl, State.rd_wr_same _ _ rfl]
      rfl
    · rw [State.rd_wr_same _ _ rfl]
      rfl
  · have hexec := exec_forceHalt h
    rw [State.forceHalt_open hopen hrun, if_neg hlocks] at hexec
    obtain ⟨hstate, hcause, -, hmem, hkeep⟩ := s.haltNow_shows (cause := 2) (n := 3) (by decide) (by decide)
    refine ⟨_, hexec, ?_, ?_, State.locks_eq_zero fun g hg => (State.unlocked_congr (State.record_glades ..) g).mpr ?_, ?_⟩
    · rw [State.rd_record _ _ (by decide), State.rd_congr (State.abandonLocks_regs ..), hstate]
    · rw [State.rd_record _ _ (by decide), State.rd_congr (State.abandonLocks_regs ..), hcause]
    · exact State.unlocked_abandonLocks hg fun hbit => hkeep g ((State.bitAt_locks hg).mp hbit)
    · exact (State.record_mem ..).trans ((State.abandonLocks_mem ..).trans hmem)
  · have hexec : exec c s = .next s.haltRefused := by
      simp only [List.mem_cons, List.not_mem_nil, or_false] at hc
      obtain rfl | rfl | rfl := hc
      · rw [exec_halt h, State.haltRequest, if_pos (by simp [hclosed])]
      · rw [exec_forceHalt h, State.forceHalt, if_neg (by simp), if_pos (by simp [hclosed])]
      · rw [exec_rangerStep h, State.rangerStep, if_pos (by simp [hclosed])]
    obtain ⟨hrefused, hregs, hsent, hmem⟩ := s.haltRefused_shows
    exact ⟨_, hexec, hrefused, hregs, hsent, hmem⟩
  · have hexec := exec_rangerStep h
    rw [State.rangerStep, if_neg (by simp [hopen]), if_pos hhalt] at hexec
    have hpc := State.freePc_regs (s.wr R.RGR_DSTAT F.RGR_DSTAT_CAUSE 4)
    refine ⟨_, hexec, ?_, ?_, rfl, ((State.sameRegsBut.refl _ s).wr (by simp) _ _).trans (hpc.mono (by simp)), rfl, rfl⟩
    · rw [hpc.rd (by decide), State.rd_wr_same _ _ rfl]
      rfl
    · rw [← hhalt, State.rangerHalted, hpc.rd (by decide), State.rd_wr_apart _ _ rfl rfl, State.rangerHalted]
  · have hexec := exec_rangerResume h hhalt
    refine ⟨_, hexec, ?_, ((State.sameRegsBut.refl _ s).wr (by simp) _ _).wr (by simp) _ _, fun g => ?_, rfl, rfl⟩
    · rw [State.rangerHalted, State.rd_wr_apart _ _ rfl rfl, State.rd_wr_same _ _ rfl]
      rfl
    · rw [State.fenced, State.rd_wr_other _ (by decide), State.rd_wr_other _ (by decide), State.fenced]
  · obtain ⟨e, hexec⟩ := exec_haltPendingTimeout h hpend
    exact ⟨_, hexec, by rw [State.rd_record _ _ (by decide), hpend], (State.sameRegsBut.refl _ s).record (by simp) _,
      State.record_sent .., State.record_mem ..⟩
  · have hexec := exec_breakpoint h hopen hlocks hrun hen
    obtain ⟨hstate, hcause, -, hmem, -⟩ := s.haltNow_shows (cause := 3) (n := 2) (by decide) (by decide)
    have haddr : (s.haltNow 3 2).rd (R.RGR_BKPT x.val) F.RGR_BKPT_ADDR = s.rd (R.RGR_BKPT x.val) F.RGR_BKPT_ADDR := by
      have hdstat : R.RGR_BKPT x.val ≠ R.RGR_DSTAT := by unfold R.RGR_BKPT R.RGR_DSTAT; omega
      rw [State.haltNow, (State.freePc_regs _).rd (by unfold R.RGR_BKPT R.RGR_PC; simp; omega), State.rd_wr_other _ hdstat,
        State.rd_wr_other _ hdstat, State.rd, s.reg_forceFence_high 0xFFFF (by unfold R.RGR_BKPT; omega), State.rd]
    rw [haddr] at hexec
    refine ⟨_, hexec, ?_, ?_, ?_, hmem⟩
    · exact State.rangerHalted_of ((State.rd_wr_other _ (by decide) _ _ _).trans hstate)
    · rw [State.rd_wr_other _ (by decide), hcause]
    · exact State.rd_wr_same _ _ rfl _
  · have hexec := exec_debugMemoryAccess h w v
    rw [hpeek] at hexec
    cases w with
    | false => exact ⟨_, hexec, rfl, fun _ => ⟨rfl, rfl⟩, (fun hw => absurd hw (by decide)), rfl, rfl⟩
    | true => exact ⟨_, hexec, rfl, (fun hw => absurd hw (by decide)), fun _ a => State.sget_writeLocal v a, rfl, rfl⟩
  · have hexec := exec_debugMemoryAccess h w v
    rw [State.peek_localMemory hrun] at hexec
    exact ⟨_, hexec, rfl, rfl, rfl, rfl, rfl⟩

end Sys2Proof.Machine
end

section
/-! PROOF. The boot of MAIN leaves the registers of the management bus (R343, R354, R363, R387). -/
namespace Sys2Proof.Machine

namespace State
variable (s : State) {a : Nat} (ha : 0x2C0000 ≤ a ∧ a < 0x300000)
include ha

/-! ## The record area (R363, R398) -/

omit ha in
theorem reg_with_nvm (x : NvmState) (a : Nat) : State.reg { s with nvm := x } a = s.reg a := rfl

omit ha in
theorem eraseAhead_regs : s.eraseAhead.regs = s.regs := by
  unfold eraseAhead
  dsimp only
  split <;> rfl

theorem reg_bus_newBank : s.newBank.reg a = s.reg a := by
  have hrec : a ≠ R.NVM_REC := by unfold R.NVM_REC; omega
  unfold newBank
  rw [reg_record _ _ (by unfold R.EVR_LOST; omega), reg_congr (eraseAhead_regs _)]
  rw [reg_with_nvm, reg_wr_other _ hrec, reg_wr_other _ hrec, reg_congr (programFlash_regs ..)]
  rfl

theorem reg_bus_loadEntry (e : List Byte) : (s.loadEntry e).reg a = s.reg a := by
  have htile : leAt (entryPayload e) 0 1 % 64 < 64 := Nat.mod_lt _ (by decide)
  have hspare : leAt (entryPayload e) 1 1 % 16 < 16 := Nat.mod_lt _ (by decide)
  unfold loadEntry
  dsimp only
  split
  · exact reg_wr_other _ (by unfold R.SEC_SEAL; omega) _ _
  · have hremap : a ≠ R.TIL_REMAP (leAt (entryPayload e) 0 1 % 64) (leAt (entryPayload e) 1 1 % 16) := by unfold R.TIL_REMAP; omega
    rw [reg_wr_other _ hremap, reg_wr_other _ hremap]
  · exact reg_inc_other _ (by unfold R.TIL_SRAMSTAT; omega) _
  · exact reg_wr_other _ (by unfold R.TIL_SRAMSTAT; omega) _ _
  · rw [reg_wr_other _ (by unfold R.EVR_LASTST; omega)]
    refine each_eq s (fun v => v.reg a) fun v w _ => ?_
    rw [reg_setReg, if_neg (by unfold R.EVR_LASTW; omega)]
  · rfl

theorem reg_bus_loadBank (b seq : Nat) : (s.loadBank b seq).reg a = s.reg a := by
  have hrec : a ≠ R.NVM_REC := by unfold R.NVM_REC; omega
  have herr : a ≠ R.NVM_ERR := by unfold R.NVM_ERR; omega
  have hloaded : ∀ (v : State) l, (v.each l loadEntry).reg a = v.reg a := fun v l =>
    each_eq v (fun v => v.reg a) fun v e _ => reg_bus_loadEntry v ha e
  unfold loadBank
  dsimp only
  rw [compactDue, flag, reg_wr_other _ hrec, reg_congr (eraseAhead_regs _), hloaded]
  rw [reg_with_nvm, reg_wr_other _ hrec, reg_wr_other _ hrec,
    each_eq _ (fun v => v.reg a) fun v x _ => by rw [reg_record _ _ (by unfold R.EVR_LOST; omega), reg_inc_other _ herr],
    reg_add_other _ herr]

theorem reg_bus_bootError (err : Nat) : (s.bootError err).reg a = s.reg a := by
  rw [bootError, reg_record _ _ (by unfold R.EVR_LOST; omega), reg_wr_other _ (by unfold R.GLB_BOOT; omega)]

theorem reg_bus_loadArea : s.loadArea.reg a = s.reg a := by
  unfold loadArea
  split
  · exact reg_bus_bootError _ ha 9
  · split
    · exact reg_bus_loadBank s ha _ _
    · exact reg_bus_newBank s ha

/-! ## The tiles and the images (R305, R353) -/

theorem reg_bus_initTiles : s.initTiles.reg a = s.reg a := each_eq s (fun v => v.reg a) fun v t ht => by
  have hlt := List.mem_range.mp (List.mem_of_mem_filter ht)
  have hstat : a ≠ R.TIL_SRAMSTAT t := by unfold R.TIL_SRAMSTAT; omega
  dsimp only
  split
  · rw [reg_record _ _ (by unfold R.EVR_LOST; omega), reg_congr (useFree_regs _), reg_wr_other _ hstat]
  · rw [reg_wr_other _ hstat]

theorem reg_bus_slotWarn (x check : Nat) : (s.slotWarn x check).reg a = s.reg a := reg_record _ _ (by unfold R.EVR_LOST; omega)

theorem reg_bus_takeImage (l : List Nat) : (s.takeImage l).1.reg a = s.reg a := by
  induction l generalizing s with
  | nil => rfl
  | cons x r ih =>
    unfold takeImage
    split
    · rfl
    · rw [ih, reg_bus_slotWarn _ ha]

omit ha in
/-- The registers of a loaded image: its slot, its version and its first program address. -/
theorem loadImage_regs (x : Nat) : (s.loadImage x).regs = (((((s.loadLocal (s.payloadAt (slotBase x))).wr R.GLB_BOOT F.GLB_BOOT_SLOT x).wr
    R.GLB_BOOT F.GLB_BOOT_UNSIGNED (bit (hdrKey (s.headerAt (slotBase x)) == 0xFF))).wr R.GLB_BOOT F.GLB_BOOT_VERSION
      (hdrVersion (s.headerAt (slotBase x)))).wr R.RGR_PC F.RGR_PC_PC (leAt (s.headerAt (slotBase x)) 20 4)).regs := rfl

theorem reg_bus_loadImage (x : Nat) : (s.loadImage x).reg a = s.reg a := by
  have hboot : a ≠ R.GLB_BOOT := by unfold R.GLB_BOOT; omega
  have hlocal : ∀ l, (s.loadLocal l).reg a = s.reg a := fun l => each_eq s (fun v => v.reg a) fun _ _ _ => rfl
  rw [reg_congr (loadImage_regs s x), reg_wr_other _ (by unfold R.RGR_PC; omega), reg_wr_other _ hboot, reg_wr_other _ hboot,
    reg_wr_other _ hboot, hlocal]

/-! ## The boot (R343, R354) -/

theorem reg_bus_startFirmware : s.startFirmware.reg a = s.reg a := by
  have hboot : a ≠ R.GLB_BOOT := by unfold R.GLB_BOOT; omega
  unfold startFirmware
  have hafter : ∀ (v : State) x y, State.reg { v with ao := x, nvm := y } a = v.reg a := fun _ _ _ => rfl
  rw [hafter, reg_wr_other _ hboot, reg_congr (useFree_regs _), reg_wr_other _ hboot]

theorem reg_bus_bootConfig : s.bootConfig.reg a = s.reg a := by
  unfold bootConfig
  split
  · dsimp only
    rw [reg_bus_startFirmware _ ha, reg_with_nvm, reg_wr_other _ (by unfold R.GLB_BOOT; omega)]
  · rw [reg_bus_startFirmware _ ha, reg_bus_bootError _ ha, reg_with_nvm]

theorem reg_bus_bootFail (err : Nat) : (s.bootFail err).reg a = s.reg a := by
  rw [bootFail, reg_wr_other _ (by unfold R.GLB_BOOT; omega), reg_bus_bootError s ha]

theorem reg_bus_runBoot : s.runBoot.reg a = s.reg a := by
  have hwarned : ∀ (v : State) (n : Nat), (v.each [0, 1] fun s x =>
      if s.imageCheck x n = 0 then s else s.slotWarn x (s.imageCheck x n)).reg a = v.reg a := fun v n =>
    each_eq v (fun v => v.reg a) fun v x _ => by
      split
      · rfl
      · exact reg_bus_slotWarn v ha _ _
  have hloaded : s.loadArea.initTiles.reg a = s.reg a := (reg_bus_initTiles _ ha).trans (reg_bus_loadArea s ha)
  unfold runBoot
  dsimp only
  split
  · exact reg_bus_bootFail s ha _
  · split
    · rfl
    · split
      all_goals
        rename_i hx
        have htaken := (congrArg (fun y => y.1.reg a) hx).symm.trans ((reg_bus_takeImage _ ha _).trans ((hwarned ..).trans hloaded))
      · exact (reg_bus_bootConfig _ ha).trans ((reg_bus_loadImage _ ha _).trans htaken)
      · exact (reg_bus_bootFail _ ha _).trans htaken

theorem reg_bus_startRun (l : List Nat) (plog : Nat) (rom boot : Bool) : (s.startRun l plog rom boot).reg a = s.reg a := by
  have hstatus : a ≠ R.TST_STATUS := by unfold R.TST_STATUS; omega
  unfold startRun
  dsimp only
  split
  · exact reg_wr_other s hstatus _ _
  · exact reg_wr_other s hstatus _ _

omit ha in
theorem testKeys_regs : s.testKeys.regs = s.regs := by
  unfold testKeys
  split
  · rfl
  · exact each_eq s State.regs fun _ _ _ => rfl

theorem reg_bus_releaseMain : s.releaseMain.reg a = s.reg a := by
  have hboot : a ≠ R.GLB_BOOT := by unfold R.GLB_BOOT; omega
  have hstorm : a ≠ R.GLB_STORM := by unfold R.GLB_STORM; omega
  have hkeys : ∀ v : State, v.testKeys.reg a = v.reg a := fun v => reg_congr (testKeys_regs v) a
  unfold releaseMain
  dsimp only
  split
  · refine (reg_bus_startRun _ ha _ _ _ _).trans ((hkeys _).trans ?_)
    rw [reg_wr_other _ hboot, reg_inc_other _ hstorm, reg_with_ao]
  · refine (reg_bus_runBoot _ ha).trans ((hkeys _).trans ?_)
    rw [reg_wr_other _ hboot, reg_inc_other _ hstorm, reg_with_ao]

/-- A start leaves the bus registers, whether MAIN is released, held out or held in reset. -/
theorem reg_bus_tryStart : s.tryStart.reg a = s.reg a := by
  have hboot : a ≠ R.GLB_BOOT := by unfold R.GLB_BOOT; omega
  have hstorm : a ≠ R.GLB_STORM := by unfold R.GLB_STORM; omega
  unfold tryStart
  split
  · rfl
  · split
    · unfold holdOut
      rw [reg_record _ _ (by unfold R.EVR_LOST; omega), reg_wr_other _ hboot, reg_wr_other _ hstorm, reg_wr_other _ hstorm,
        reg_with_ao]
    · rw [reg_bus_releaseMain _ ha, reg_wr_other _ hstorm]

end State
end Sys2Proof.Machine
end

section
/-! PROOF. The commands of the management bus: how one is executed and answered, and the rows RESET, ISOLATE, RELEASE and SUSPECT (R374
to R379, R385). -/
namespace Sys2Proof.Machine

/-! ## The payload of a command (R374) -/

theorem slice_take {l : List Byte} {i k n : Nat} (h : i + k ≤ n) : slice (l.take n) i k = slice l i k := by
  have hpart : ((l.take n).drop i).take k = (l.drop i).take k := by
    rw [List.drop_take, List.take_take, Nat.min_eq_left (by omega)]
  rw [slice, hpart, slice]

theorem leAt_take {l : List Byte} {i k n : Nat} (h : i + k ≤ n) : leAt (l.take n) i k = leAt l i k := by
  rw [leAt, slice_take h, leAt]

/-- The bytes of a command that are to be zero. -/
theorem zeroFrom_take {l : List Byte} {i k n : Nat} (h : i + k ≤ n) (hzero : slice l i k = zeros k) :
    zeroFrom (l.take n) i k = true := by
  rw [zeroFrom, slice_take h, hzero, allZero, zeros]
  simp

namespace State
variable (s : State)

/-! ## How a command is answered (R374 to R376, R385) -/

theorem sendResponse_regs (w : BusId) (p n q : Nat) (l : List Byte) : (s.sendResponse w p n q l).regs = s.regs := by
  unfold sendResponse
  dsimp only
  repeat' split
  all_goals rfl

/-- A response goes out on its own bus while that is usable. -/
theorem sendResponse_usable {w : BusId} (h : s.busUsable w = true) (p n q : Nat) (l : List Byte) :
    s.sendResponse w p n q l = s.trail w (s.trailId p n q w) (padTrail l) := if_pos h

/-- What a response does not touch: the AO domain and the engines. -/
theorem sendResponse_engines (w : BusId) (p n q : Nat) (l : List Byte) :
    (s.sendResponse w p n q l).ao = s.ao ∧ (s.sendResponse w p n q l).glades = s.glades := by
  unfold sendResponse
  dsimp only
  repeat' split
  all_goals exact ⟨rfl, rfl⟩

/-- The counts and the kept response of an executed command. -/
def keepAnswer (s : State) (n : Nat) (q : Byte) (l : List Byte) (r : Answer) : State :=
  let s := s.inc R.MGB_CNT F.MGB_CNT_CMDS
  let s := if 2 ≤ r.status && r.status ≤ 5 then s.inc R.MGB_CNT F.MGB_CNT_BADCMD else s
  let kept := (s.bus.kept ++ [⟨n, q.toNat, BitVec.ofNat 32 (crc32c l), r.bytes, s.now⟩])
  { s with bus := { s.bus with kept := kept.drop (kept.length - 4) } }

theorem complete_eq (w : BusId) (p : Fin 8) (n : Nat) (q : Byte) (l : List Byte) (r : Answer) :
    s.complete w p n q l r = (s.keepAnswer n q l r).sendResponse w p.val n q.toNat r.bytes := rfl

theorem keepAnswer_shows (n : Nat) (q : Byte) (l : List Byte) (r : Answer) : s.sameRegsBut [R.MGB_CNT] (s.keepAnswer n q l r) ∧
    (s.keepAnswer n q l r).ao = s.ao ∧ (s.keepAnswer n q l r).glades = s.glades ∧ (s.keepAnswer n q l r).sent = s.sent := by
  have hcmds : s.sameRegsBut [R.MGB_CNT] (s.inc R.MGB_CNT F.MGB_CNT_CMDS) := (sameRegsBut.refl _ s).inc (by simp) _
  unfold keepAnswer
  dsimp only
  split
  · exact ⟨(hcmds.inc (by simp) _).of_regs rfl, rfl, rfl, rfl⟩
  · exact ⟨hcmds.of_regs rfl, rfl, rfl, rfl⟩

/-- An executed command changes the counts of the bus beside what it does itself. -/
theorem complete_shows (w : BusId) (p : Fin 8) (n : Nat) (q : Byte) (l : List Byte) (r : Answer) :
    s.sameRegsBut [R.MGB_CNT] (s.complete w p n q l r) ∧ (s.complete w p n q l r).ao = s.ao ∧
      (s.complete w p n q l r).glades = s.glades := by
  obtain ⟨hregs, hao, hglades, -⟩ := s.keepAnswer_shows n q l r
  obtain ⟨hao', hglades'⟩ := (s.keepAnswer n q l r).sendResponse_engines w p.val n q.toNat r.bytes
  rw [complete_eq]
  exact ⟨hregs.of_regs (sendResponse_regs ..), hao'.trans hao, hglades'.trans hglades⟩

theorem trailId_congr {s t : State} (h : s.sameRegsBut [R.MGB_CNT] t) (p n q : Nat) (w : BusId) : t.trailId p n q w = s.trailId p n q w := by
  rw [trailId, h.rd (by decide), trailId]

theorem busState_congr {s t : State} (h : s.sameRegsBut [R.MGB_CNT] t) (w : BusId) : t.busState w = s.busState w := h.rd (by decide) _

/-- On a usable bus the answer is sent under the identifier of this node. -/
theorem sent_complete {w : BusId} (h : s.busUsable w = true) (p : Fin 8) (n : Nat) (q : Byte) (l : List Byte) (r : Answer) :
    (s.complete w p n q l r).sent = s.sent ++ [.trail w (s.trailId p.val n q.toNat w) (padTrail r.bytes)] := by
  obtain ⟨hregs, -, -, hsent⟩ := s.keepAnswer_shows n q l r
  have husable : (s.keepAnswer n q l r).busUsable w = true := by rw [busUsable, busState_congr hregs]; exact h
  rw [complete_eq, sendResponse_usable _ husable, trail, send, trailId_congr hregs, hsent]

/-- A status alone is answered as eight bytes. -/
theorem padTrail_just {n : Nat} : padTrail (Answer.just n).bytes = leBytes 1 n ++ [0, 0, 0, 0, 0, 0, 0] := by
  have hbytes : (Answer.just n).bytes = leBytes 1 n ++ [0, 0, 0, 0, 0, 0, 0] := by
    simp only [Answer.just, Answer.bytes, List.append_assoc]
    rfl
  have hlen : (leBytes 1 n ++ [0, 0, 0, 0, 0, 0, 0]).length = 8 := by simp
  rw [padTrail, hbytes, hlen, show (dataLengths.find? (8 ≤ ·)).getD 8 = (leBytes 1 n ++ [0, 0, 0, 0, 0, 0, 0]).length from by
    rw [hlen]; rfl, slice_whole]

/-- A command that is not a repeated or a short one is executed, and answered. -/
theorem command_run {s : State} (h : s.aoUp) {w : BusId} (hbus : s.busState w < 5) {n : Nat} {q : Byte} {l : List Byte}
    (hnew : s.repeated n q l = none) {k : Nat} (hlen : k ≤ l.length) (p : Fin 8) (run : State → List Byte → Answer × State) :
    s.command w p n k q l run = (run s (l.take k)).2.complete w p n q l (run s (l.take k)).1 := by
  rw [command, inAo_of_aoUp h, if_neg (by omega), hnew]
  exact if_neg (by omega)

theorem busState_lt_of_usable {s : State} {w : BusId} (h : s.busUsable w = true) : s.busState w < 5 := by
  have := of_decide_eq_true h
  omega

/-! ## What each command does (R378, R379) -/

theorem busReset_open {s : State} {l : List Byte} (hzero : slice l 4 4 = zeros 4) (hconfirm : leAt l 0 4 = 0x0C5A0100)
    (hiso : s.on R.MGB_STATUS F.MGB_STATUS_ISOLATED = false) (hhold : s.on R.GLB_STORM F.GLB_STORM_HOLD = false)
    (hpin : s.ao.rstN = false) : s.busReset (l.take 8) = (Answer.just 0, s.softReset) := by
  rw [busReset, if_neg (by simp [zeroFrom_take (show 4 + 4 ≤ 8 by decide) hzero]), leAt_take (by decide),
    if_neg (by simp [hconfirm, hiso, hhold, hpin])]

theorem isolate_open {s : State} {l : List Byte} (hzero : slice l 4 4 = zeros 4) (hconfirm : leAt l 0 4 = 0x0C5A0200)
    (hiso : s.on R.MGB_STATUS F.MGB_STATUS_ISOLATED = false) :
    s.isolate (l.take 8) = (Answer.just 0, s.raiseFirebreak.softReset.wr R.MGB_STATUS F.MGB_STATUS_ISOLATED 1) := by
  rw [isolate, if_neg (by simp [zeroFrom_take (show 4 + 4 ≤ 8 by decide) hzero]), leAt_take (by decide),
    if_neg (by simp [hconfirm, hiso])]
  rfl

theorem release_open {s : State} {l : List Byte} (hzero : slice l 4 4 = zeros 4) (hconfirm : leAt l 0 4 = 0x0C5A0300)
    (hiso : s.on R.MGB_STATUS F.MGB_STATUS_ISOLATED = true) :
    s.release (l.take 8) = (Answer.just 0, (s.wr R.MGB_STATUS F.MGB_STATUS_ISOLATED 0).tryStart) := by
  rw [release, if_neg (by simp [zeroFrom_take (show 4 + 4 ≤ 8 by decide) hzero]), leAt_take (by decide),
    if_neg (by simp [hconfirm, hiso])]

/-- Without its CONFIRM value a command is refused, and does nothing. -/
theorem unconfirmed {s : State} {l : List Byte} (hzero : slice l 4 4 = zeros 4) :
    (leAt l 0 4 ≠ 0x0C5A0100 → s.busReset (l.take 8) = (Answer.just 5, s)) ∧
      (leAt l 0 4 ≠ 0x0C5A0200 → s.isolate (l.take 8) = (Answer.just 5, s)) ∧
      (leAt l 0 4 ≠ 0x0C5A0300 → s.release (l.take 8) = (Answer.just 5, s)) := by
  have hz := zeroFrom_take (show 4 + 4 ≤ 8 by decide) hzero
  have hle : leAt (l.take 8) 0 4 = leAt l 0 4 := leAt_take (by decide)
  refine ⟨fun h => ?_, fun h => ?_, fun h => ?_⟩
  · rw [busReset, if_neg (by simp [hz]), hle, if_pos (by simp [h])]
  · rw [isolate, if_neg (by simp [hz]), hle, if_pos (by simp [h])]
  · rw [release, if_neg (by simp [hz]), hle, if_pos (by simp [h])]

/-- SUSPECT of a well-formed payload, by the stage of the boot and by whether Ranger runs. -/
theorem suspect_formed {s : State} {l : List Byte} (hg : leAt l 0 1 < 16) (hone : slice l 1 1 = [0]) (hzero : slice l 4 4 = zeros 4) :
    s.suspect (l.take 8) = if s.rd R.GLB_BOOT F.GLB_BOOT_STAGE ≠ 5 then (Answer.just 8, s)
      else if s.rangerHalted then (Answer.just 7, s)
      else if !s.inGrove (leAt l 0 1) then (Answer.just 0, s.record ((ev Sev.warn Src.grv (leAt l 0 1)).about (leAt l 2 2)))
      else (Answer.just 0, s.detect (leAt l 0 1) (leAt l 2 2) 7) := by
  have hz := zeroFrom_take (show 4 + 4 ≤ 8 by decide) hzero
  have hz' : zeroFrom (l.take 8) 1 1 = true := zeroFrom_take (by decide) hone
  have hle : leAt (l.take 8) 0 1 = leAt l 0 1 := leAt_take (by decide)
  have hle' : leAt (l.take 8) 2 2 = leAt l 2 2 := leAt_take (by decide)
  unfold suspect
  dsimp only
  rw [hle, hle', hz, hz', if_neg (by simp; omega)]

end State
end Sys2Proof.Machine
end

section
/-! PROOF. The rows RESET, ISOLATE, RELEASE, SUSPECT, DUPADDR, NOTICE_SEND, NOTICE_TOKEN_REFILL, BUS_BEACON, BUS_STATE_CHANGE, LONE,
BENCHED_END and RESPONSE_HOLD_TIMEOUT (R371, R378 to R385). -/
namespace Sys2Proof.Machine

theorem BusId.errReg_ne (w : BusId) : w.errReg ≠ R.MGB_STATUS ∧ w.errReg ≠ R.EVR_LOST ∧ w.errReg ≠ R.GLB_AOTIME := by
  cases w
  · decide
  · decide

namespace State
variable {s : State}

/-! ## Bus states (R383) -/

/-- With no response held back, nothing is sent when a bus becomes usable. -/
theorem flushHeld_of_none (h : s.bus.held = []) :
    s.flushHeld.regs = s.regs ∧ s.flushHeld.sent = s.sent ∧ s.flushHeld.mem = s.mem := by
  unfold flushHeld
  split
  · exact ⟨rfl, rfl, rfl⟩
  · dsimp only
    rw [h]
    exact ⟨rfl, rfl, rfl⟩

theorem busState_wr_other (s : State) (w : BusId) (n : Nat) :
    (s.wr R.MGB_STATUS w.stateFld n).busState w.other = s.busState w.other := by
  cases w
  · exact rd_wr_apart _ _ rfl rfl _
  · exact rd_wr_apart _ _ rfl rfl _

theorem busState_wr_same (s : State) (w : BusId) {n : Nat} (hn : n < 8) : (s.wr R.MGB_STATUS w.stateFld n).busState w = n := by
  cases w
  · exact (rd_wr_same _ _ rfl _).trans (Nat.mod_eq_of_lt hn)
  · exact (rd_wr_same _ _ rfl _).trans (Nat.mod_eq_of_lt hn)

theorem busState_of_reg {t : State} (h : t.reg R.MGB_STATUS = s.reg R.MGB_STATUS) (w : BusId) : t.busState w = s.busState w := by
  rw [busState, rd, h, busState, rd]

/-- A bus that changes state shows it; with no response held back nothing is sent. -/
theorem setBusState_shows (hheld : s.bus.held = []) (w : BusId) {n : Nat} (hn : n < 8) : (s.setBusState w n).busState w = n ∧
    (s.setBusState w n).busState w.other = s.busState w.other ∧ s.sameRegsBut [R.MGB_STATUS, R.EVR_LOST] (s.setBusState w n) ∧
    (s.setBusState w n).rd R.MGB_STATUS F.MGB_STATUS_DUPADDR = s.rd R.MGB_STATUS F.MGB_STATUS_DUPADDR ∧
    (s.setBusState w n).sent = s.sent ∧ (s.setBusState w n).mem = s.mem := by
  unfold setBusState
  split
  case isTrue h => exact ⟨h, rfl, sameRegsBut.refl _ s, rfl, rfl, rfl⟩
  case isFalse =>
    dsimp only
    generalize (((ev (if n = 0 then Sev.note else Sev.warn) Src.mgb w.num).field R.MGB_STATUS w.stateFld).coded n) = e
    obtain ⟨hregs, hsent, hmem⟩ := flushHeld_of_none (s := (s.wr R.MGB_STATUS w.stateFld n).record e) ((congrArg BusState.held
      (record_bus ..)).trans hheld)
    have hreg : ((s.wr R.MGB_STATUS w.stateFld n).record e).flushHeld.reg R.MGB_STATUS = (s.wr R.MGB_STATUS w.stateFld n).reg R.MGB_STATUS :=
      (reg_congr hregs _).trans (reg_record _ _ (by decide))
    refine ⟨?_, ?_, ?_, ?_, hsent.trans (record_sent ..), hmem.trans (record_mem ..)⟩
    · rw [busState_of_reg hreg, busState_wr_same _ _ hn]
    · rw [busState_of_reg hreg, busState_wr_other]
    · exact (((sameRegsBut.refl _ s).wr (by simp) _ _).record (by simp) _).of_regs hregs
    · rw [rd, hreg, ← rd]
      cases w
      · exact rd_wr_apart _ _ rfl rfl _
      · exact rd_wr_apart _ _ rfl rfl _

/-! ## Error counters and bus-offs (R383) -/

/-- The error counters of a controller. -/
def noteErrors (s : State) (w : BusId) (tec rec : Nat) : State :=
  (s.wr w.errReg F.MGB_ERRA_TEC tec).wr w.errReg F.MGB_ERRA_REC rec

theorem noteErrors_regs (s : State) (w : BusId) (tec rec : Nat) : s.sameRegsBut [w.errReg] (s.noteErrors w tec rec) :=
  ((sameRegsBut.refl _ s).wr (by simp) _ _).wr (by simp) _ _

theorem rd_noteErrors (s : State) (w : BusId) {tec rec : Nat} (htec : tec < 256) (hrec : rec < 256) :
    (s.noteErrors w tec rec).rd w.errReg F.MGB_ERRA_TEC = tec ∧ (s.noteErrors w tec rec).rd w.errReg F.MGB_ERRA_REC = rec ∧
      (s.noteErrors w tec rec).rd w.errReg F.MGB_ERRA_BUSOFFS = s.rd w.errReg F.MGB_ERRA_BUSOFFS := by
  unfold noteErrors
  refine ⟨?_, ?_, ?_⟩
  · rw [rd_wr_apart _ _ rfl rfl, rd_wr_same _ _ rfl]
    exact Nat.mod_eq_of_lt htec
  · rw [rd_wr_same _ _ rfl]
    exact Nat.mod_eq_of_lt hrec
  · rw [rd_wr_apart _ _ rfl rfl, rd_wr_apart _ _ rfl rfl]

theorem busState_noteErrors (s : State) (w x : BusId) (tec rec : Nat) : (s.noteErrors w tec rec).busState x = s.busState x :=
  (noteErrors_regs s w tec rec).rd (by simp [w.errReg_ne.1.symm]) _

theorem busOffs_congr {t : State} (hnow : t.now = s.now) (hbus : t.bus = s.bus) (w : BusId) : t.busOffs w = s.busOffs w := by
  unfold busOffs
  rw [hnow, hbus]

/-- A bus-off is counted, with its time. -/
def noteOff (s : State) (w : BusId) (l : List Nat) : State :=
  match w with
  | .a => { s.inc w.errReg F.MGB_ERRA_BUSOFFS with bus := { s.bus with offsA := l } }
  | .b => { s.inc w.errReg F.MGB_ERRA_BUSOFFS with bus := { s.bus with offsB := l } }

theorem noteOff_shows (s : State) (w : BusId) (l : List Nat) : (s.noteOff w l).regs = (s.inc w.errReg F.MGB_ERRA_BUSOFFS).regs ∧
    (s.noteOff w l).bus.held = s.bus.held ∧ (s.noteOff w l).sent = s.sent ∧ (s.noteOff w l).mem = s.mem := by
  cases w
  · exact ⟨rfl, rfl, rfl, rfl⟩
  · exact ⟨rfl, rfl, rfl, rfl⟩

theorem busOff_eq (s : State) (w : BusId) :
    s.busOff w = (s.noteOff w (s.busOffs w)).setBusState w (if 4 ≤ (s.busOffs w).length then 4 else 3) := by
  cases w
  · rfl
  · rfl

/-! ## Notices and beacons (R381, R382) -/

/-- No notice that waits is more severe than the one that is sent next. -/
theorem sev_le_of_nextNotice {n m : Notice} (h : s.nextNotice = some n) (hm : m ∈ s.bus.notices) (hsev : m.sev ≤ 3) : m.sev ≤ n.sev := by
  have hmiss : ∀ v, s.bus.notices.find? (·.sev == v) = none → m.sev ≠ v := fun v hv e => by
    have := List.find?_eq_none.mp hv m hm
    simp [e] at this
  have hhit : ∀ v, s.bus.notices.find? (·.sev == v) = some n → n.sev = v := fun v hv => by
    have := List.find?_some hv
    simpa using this
  simp only [nextNotice, List.findSome?_cons, List.findSome?_nil, Sev.fatal, Sev.fault, Sev.warn, Sev.note] at h
  cases h3 : s.bus.notices.find? (·.sev == 3) with
  | some k =>
    have := hhit 3 (by simpa [h3] using h)
    omega
  | none =>
    have hthree := hmiss 3 h3
    simp only [h3] at h
    cases h2 : s.bus.notices.find? (·.sev == 2) with
    | some k =>
      have := hhit 2 (by simpa [h2] using h)
      omega
    | none =>
      have htwo := hmiss 2 h2
      simp only [h2] at h
      cases h1 : s.bus.notices.find? (·.sev == 1) with
      | some k =>
        have := hhit 1 (by simpa [h1] using h)
        omega
      | none =>
        have hone := hmiss 1 h1
        omega

/-- The last frame sent on a bus, as its identifier and its bytes. -/
def lastOn (s : State) (w : BusId) : Option (Nat × List Byte) := s.sent.reverse.findSome? fun x => match x with
  | .trail v id bytes => if v = w then some (id, bytes) else none
  | _ => none

end State

/-! ## The rows -/

section Commands
variable {s : State} (h : s.aoUp) {w : BusId} (hbus : s.busState w < 5) {l : List Byte} (hlen : 8 ≤ l.length) (p : Fin 8) {q : Byte}
include h hbus hlen

theorem exec_busReset (hnew : s.repeated 5 q l = none) : exec (.busReset w p q l) s =
    .next ((s.busReset (l.take 8)).2.complete w p 5 q l (s.busReset (l.take 8)).1) :=
  congrArg Host.Outcome.next (State.command_run h hbus hnew hlen p State.busReset)

theorem exec_busIsolate (hnew : s.repeated 6 q l = none) : exec (.busIsolate w p q l) s =
    .next ((s.isolate (l.take 8)).2.complete w p 6 q l (s.isolate (l.take 8)).1) :=
  congrArg Host.Outcome.next (State.command_run h hbus hnew hlen p State.isolate)

theorem exec_busRelease (hnew : s.repeated 7 q l = none) : exec (.busRelease w p q l) s =
    .next ((s.release (l.take 8)).2.complete w p 7 q l (s.release (l.take 8)).1) :=
  congrArg Host.Outcome.next (State.command_run h hbus hnew hlen p State.release)

theorem exec_busSuspect (hnew : s.repeated 8 q l = none) : exec (.busSuspect w p q l) s =
    .next ((s.suspect (l.take 8)).2.complete w p 8 q l (s.suspect (l.take 8)).1) :=
  congrArg Host.Outcome.next (State.command_run h hbus hnew hlen p State.suspect)

end Commands

section Events
variable {s : State} (h : s.aoUp)
include h

theorem exec_dupaddr {w : BusId} (hbus : s.busState w < 5) : ∃ e, exec (.dupaddr w) s =
    .next (((s.wr R.MGB_STATUS F.MGB_STATUS_DUPADDR 1).record e).setBusState w 6) := by
  have hexec : exec (.dupaddr w) s = .next _ := congrArg Host.Outcome.next (State.inAo_of_aoUp h _)
  rw [hexec, if_neg (by omega)]
  exact ⟨_, rfl⟩

theorem exec_noticeSend {n : Notice} {w : BusId} (hn : s.nextNotice = some n) (hw : s.noticeBus = some w) (htokens : 0 < s.bus.tokens) :
    exec .noticeSend s = .next { s.trail w (s.trailId (7 - n.sev) 0x20 0 w) (n.bytes s.bus.lost) with
      bus := { s.bus with notices := s.bus.notices.erase n, lost := 0, tokens := s.bus.tokens - 1 } } := by
  have hexec : exec .noticeSend s = .next _ := congrArg Host.Outcome.next (State.inAo_of_aoUp h _)
  rw [hexec, hn, hw]
  dsimp only
  rw [if_neg (by omega)]
  rfl

theorem exec_noticeTokenRefill : exec .noticeTokenRefill s = .next { s with bus := { s.bus with tokens := min 8 (s.bus.tokens + 1) } } :=
  congrArg Host.Outcome.next (State.inAo_of_aoUp h _)

theorem exec_busBeacon : exec .busBeacon s = .next (s.sendAll (([BusId.a, BusId.b].filter fun w => s.busState w ≤ 2).map
    fun w => .trail w (s.trailId 6 0x21 0 w) s.beaconBytes)) := by
  have hexec : exec .busBeacon s = .next _ := congrArg Host.Outcome.next (State.inAo_of_aoUp h _)
  rw [hexec]
  exact congrArg Host.Outcome.next
    (State.each_sendAll (m := fun w => .trail w (s.trailId 6 0x21 0 w) s.beaconBytes) s (fun _ _ => rfl) _)

theorem exec_busStateChange_off {w : BusId} (hbus : s.busState w < 3) (e r : Nat) :
    exec (.busStateChange w .busOff e r) s = .next ((s.noteErrors w (min e 255) (min r 255)).busOff w) := by
  have hexec : exec (.busStateChange w .busOff e r) s = .next _ := congrArg Host.Outcome.next (State.inAo_of_aoUp h _)
  have hsame := s.busState_noteErrors w w (min e 255) (min r 255)
  rw [hexec]
  dsimp only
  rw [← State.noteErrors, hsame, if_neg (by omega), if_neg (by omega)]

theorem exec_busStateChange_active {w : BusId} (hbus : s.busState w < 4) (e r : Nat) :
    exec (.busStateChange w .errorActive e r) s = .next ((s.noteErrors w (min e 255) (min r 255)).setBusState w 0) := by
  have hexec : exec (.busStateChange w .errorActive e r) s = .next _ := congrArg Host.Outcome.next (State.inAo_of_aoUp h _)
  have hsame := s.busState_noteErrors w w (min e 255) (min r 255)
  rw [hexec]
  dsimp only
  rw [← State.noteErrors, hsame, if_neg (by omega)]

theorem exec_benchedEnd {w : BusId} (hbus : s.busState w = 4) :
    exec (.benchedEnd w) s = .next ((s.noteErrors w 0 0).setBusState w 0) := by
  have hexec : exec (.benchedEnd w) s = .next _ := congrArg Host.Outcome.next (State.inAo_of_aoUp h _)
  rw [hexec, if_pos hbus]
  rfl

/-- LONE of a usable bus, by the last frame that was sent on it (R384). -/
theorem exec_lone {w : BusId} (hbus : s.busUsable w = true) : exec (.lone w) s = .next (
    let t := (s.inc w.errReg F.MGB_ERRA_NOACK).setBusState w 2
    match s.lastOn w with
    | none => t
    | some (n, l) =>
      if bitsOf n 13 6 = 0x21 then t
      else if t.busUsable w.other then t.trail w.other (idOn w.other n) l
      else if bitsOf n 13 6 = 0x20 then
        State.inc { t with bus := { t.bus with lost := min (t.bus.lost + 1) 0xFFFF } } R.MGB_CNT F.MGB_CNT_DROPPED
      else t) := by
  have hexec : exec (.lone w) s = .next _ := congrArg Host.Outcome.next (State.inAo_of_aoUp h _)
  rw [hexec, if_neg (by simp [hbus])]
  rfl

theorem exec_responseHoldTimeout : exec .responseHoldTimeout s = .next { s with bus := { s.bus with held := s.bus.held.drop 1 } } :=
  congrArg Host.Outcome.next (State.inAo_of_aoUp h _)

end Events

/-- No notice is sent without a token (R381). -/
theorem exec_noticeSend_empty {s : State} (htokens : s.bus.tokens = 0) : exec .noticeSend s = .next s := by
  refine congrArg Host.Outcome.next (?_ : s.inAo _ = s)
  unfold State.inAo
  split
  · rfl
  · dsimp only
    split
    · exact if_pos htokens
    · rfl

/-- Settles O56: each command and each event by the state that it answers. -/
theorem busControlAndEvents : Obligations.BusControlAndEvents := by
  unfold Obligations.BusControlAndEvents
  refine ⟨fun s w p q l h hbus hnew hlen hzero hconfirm hiso hhold hpin => ?_, fun s w p q l h hbus hnew hlen hzero hconfirm hiso => ?_,
    fun s w p q l h hbus hnew hlen hzero hconfirm hiso hcan hcount => ?_, fun s w p q l c n k h hbus hc hnew hlen hzero hne => ?_,
    fun s w p q l n h hbus hnew hlen hg hone hzero hn => ?_,
    fun s w p q l g m h hbus hnew hlen hg hm hlt hone hzero hstage hrun hin hf hne hslot hnone => ?_, fun s w h hbus hheld => ?_,
    fun s n w h hn hw htokens => ?_, fun s htokens => exec_noticeSend_empty htokens,
    fun s h => ⟨_, exec_noticeTokenRefill h, rfl, rfl, rfl, rfl⟩, fun s h => ⟨_, exec_busBeacon h, rfl, rfl, rfl, rfl⟩,
    fun s w e r h hheld hbus => ?_, fun s w e r h hheld hbus => ?_, fun s w h hbus hheld hsent => ?_,
    fun s w n l h hbus hother hheld hsent hnotice hbeacon => ?_, fun s w h hbus hheld => ?_, fun s k r h hheld => ?_⟩
  · have hexec := exec_busReset h hbus hlen p hnew
    rw [State.busReset_open hzero hconfirm hiso hhold hpin] at hexec
    obtain ⟨hup, hcmd⟩ := s.softReset_shows
    obtain ⟨hregs, hao, -⟩ := s.softReset.complete_shows w p 5 q l (Answer.just 0)
    refine ⟨_, hexec, ?_, (hregs.rd (by decide) _).trans hcmd, fun a ha hports => ?_, exec_mem hexec rfl⟩
    · rw [State.up, hao]
      exact hup
    · have hcnt : a ∉ [R.MGB_CNT] := fun e => by
        rw [List.mem_singleton.mp e] at ha
        exact absurd ha (by decide)
      have hcause : a ≠ R.GLB_RSTCAUSE := fun e => by
        rw [e] at ha
        exact absurd ha (by decide)
      rw [hregs a hcnt, State.softReset, State.reg_resetCause _ _ hcause]
      exact State.reg_mainReset s ha fun i hi => hports i (List.mem_range.mp (List.mem_of_mem_filter hi))
  · have hexec := exec_busIsolate h hbus hlen p hnew
    rw [State.isolate_open hzero hconfirm hiso] at hexec
    obtain ⟨hregs, hao, -⟩ := (s.raiseFirebreak.softReset.wr R.MGB_STATUS F.MGB_STATUS_ISOLATED 1).complete_shows w p 6 q l (Answer.just 0)
    have hafter : s.raiseFirebreak.softReset.ao =
        { s.raiseFirebreak.ao with mainRun := false, wdogArmed := false, phyReset := BitVec.allOnes 32 } := by
      rw [State.softReset, State.resetCause_ao, State.mainReset_ao]
    refine ⟨_, hexec, ?_, ?_, ?_, exec_mem hexec rfl⟩
    · rw [State.up, hao, State.wr_ao]
      exact s.raiseFirebreak.softReset_shows.1
    · rw [hregs.rd (by decide), State.rd_wr_same _ _ rfl]
      rfl
    · rw [hao, State.wr_ao, hafter]
      exact s.raiseFirebreak_ao
  · have hexec := exec_busRelease h hbus hlen p hnew
    rw [State.release_open hzero hconfirm hiso] at hexec
    obtain ⟨hregs, hao, -⟩ := (s.wr R.MGB_STATUS F.MGB_STATUS_ISOLATED 0).tryStart.complete_shows w p 7 q l (Answer.just 0)
    have hcount' : (s.wr R.MGB_STATUS F.MGB_STATUS_ISOLATED 0).startCount = s.startCount :=
      State.startCount_congr (State.wr_ao ..) (State.rd_wr_other _ (by decide) ..) (State.rd_wr_other _ (by decide) ..)
    refine ⟨_, hexec, ?_, ?_, exec_mem hexec rfl⟩
    · rw [State.up, hao]
      exact State.up_tryStart hcan (hcount' ▸ hcount)
    · rw [hregs.rd (by decide), State.rd, State.reg_bus_tryStart _ (by decide), ← State.rd, State.rd_wr_same _ _ rfl]
      rfl
  · have hlt := State.busState_lt_of_usable hbus
    obtain ⟨hreset, hisolate, hrelease⟩ := State.unconfirmed (s := s) hzero
    have hexec : exec c s = .next (s.complete w p n q l (Answer.just 5)) := by
      simp only [List.mem_cons, Prod.mk.injEq, List.not_mem_nil, or_false] at hc
      obtain ⟨rfl, rfl, rfl⟩ | ⟨rfl, rfl, rfl⟩ | ⟨rfl, rfl, rfl⟩ := hc
      · rw [exec_busReset h hlt hlen p hnew, hreset hne]
      · rw [exec_busIsolate h hlt hlen p hnew, hisolate hne]
      · rw [exec_busRelease h hlt hlen p hnew, hrelease hne]
    obtain ⟨hregs, hao, -⟩ := s.complete_shows w p n q l (Answer.just 5)
    refine ⟨_, hexec, ?_, hao, hregs, ?_⟩
    · rw [s.sent_complete hbus, State.padTrail_just]
      rfl
    · simp only [List.mem_cons, Prod.mk.injEq, List.not_mem_nil, or_false] at hc
      obtain ⟨rfl, -, -⟩ | ⟨rfl, -, -⟩ | ⟨rfl, -, -⟩ := hc
      all_goals exact exec_mem hexec rfl
  · have hexec := exec_busSuspect h (State.busState_lt_of_usable hbus) hlen p hnew
    have hrefused : s.suspect (l.take 8) = (Answer.just n.toNat, s) := by
      rw [State.suspect_formed hg hone hzero]
      obtain ⟨rfl, hstage⟩ | ⟨rfl, hstage, hhalt⟩ := hn
      · exact if_pos hstage
      · rw [if_neg (by simp [hstage]), if_pos hhalt]
        rfl
    rw [hrefused] at hexec
    obtain ⟨hregs, -, hglades⟩ := s.complete_shows w p 8 q l (Answer.just n.toNat)
    refine ⟨_, hexec, ?_, hglades, hregs, exec_mem hexec rfl⟩
    rw [s.sent_complete hbus, State.padTrail_just]
    obtain ⟨rfl, -⟩ | ⟨rfl, -, -⟩ := hn
    · rfl
    · rfl
  · subst hg hm
    have hexec := exec_busSuspect h (State.busState_lt_of_usable hbus) hlen p hnew
    have hx : leAt l 2 2 % s.groveN (leAt l 0 1) < s.groveN (leAt l 0 1) :=
      Nat.mod_lt _ (Nat.lt_of_lt_of_le Nat.zero_lt_one (Nat.le_max_left ..))
    have hdetect := State.detect_starts hin hf hx (hslot.symm ▸ hne) hnone 7
    rw [hslot] at hdetect
    rw [State.suspect_formed hlt hone hzero, if_neg (by simp [hstage]), if_neg (by simp [hrun]), if_neg (by simp [hin]), hdetect]
      at hexec
    obtain ⟨hregs, -, hglades⟩ := (s.startAgreement (leAt l 0 1) ((s.gl (leAt l 0 1)).lastSeq + 1)
      [leAt l 2 2 % s.groveN (leAt l 0 1)] (some 7)).complete_shows w p 8 q l (Answer.just 0)
    refine ⟨_, ⟨(s.gl (leAt l 0 1)).lastSeq + 1, _, [], 0, [], 1, 7⟩, hexec, ?_, rfl, rfl, ?_,
      ((s.startAgreement_regs _ _ _ _).mono (by simp)).trans (hregs.mono (by simp)),
      exec_mem hexec rfl⟩
    · rw [State.gl_congr hglades, State.gl_startAgreement]
      rfl
    · rw [hregs.rd (by decide), State.startAgreement_rd]
      exact (s.witness_joinAgreement _ _ _ (by decide)).1
  · obtain ⟨e, hexec⟩ := exec_dupaddr h hbus
    obtain ⟨hstate, hother, hregs, hdup, hsent, hmem⟩ := State.setBusState_shows
      (s := (s.wr R.MGB_STATUS F.MGB_STATUS_DUPADDR 1).record e) ((congrArg BusState.held (State.record_bus ..)).trans hheld) w
      (n := 6) (by decide)
    have hbase : s.sameRegsBut [R.MGB_STATUS, R.EVR_LOST] ((s.wr R.MGB_STATUS F.MGB_STATUS_DUPADDR 1).record e) :=
      ((State.sameRegsBut.refl _ s).wr (by simp) _ _).record (by simp) _
    refine ⟨_, hexec, hstate, ?_, hother.trans ?_, hbase.trans hregs, hsent.trans (State.record_sent ..), hmem.trans (State.record_mem ..)⟩
    · rw [hdup, State.rd_record _ _ (by decide), State.rd_wr_same _ _ rfl]
      rfl
    · rw [State.busState, State.rd_record _ _ (by decide)]
      cases w
      · exact State.rd_wr_apart _ _ rfl rfl _
      · exact State.rd_wr_apart _ _ rfl rfl _
  · exact ⟨_, exec_noticeSend h hn hw htokens, rfl, rfl, fun m hm hsev => State.sev_le_of_nextNotice hn hm hsev, rfl, rfl⟩
  · have hexec := exec_busStateChange_off h hbus e r
    obtain ⟨hmgb, hlost, htime⟩ := w.errReg_ne
    have hnoted := s.noteErrors_regs w (min e 255) (min r 255)
    obtain ⟨htec, hrec, hoffs⟩ := s.rd_noteErrors w (tec := min e 255) (rec := min r 255) (by omega) (by omega)
    have hsame : (s.noteErrors w (min e 255) (min r 255)).busOffs w = s.busOffs w :=
      State.busOffs_congr (hnoted.rd (by simp [htime.symm]) _) rfl w
    obtain ⟨hcount, hheld', hsent', hmem'⟩ := (s.noteErrors w (min e 255) (min r 255)).noteOff_shows w (s.busOffs w)
    have hn : (if 4 ≤ (s.busOffs w).length then 4 else 3) < 8 := by split <;> decide
    obtain ⟨hstate, -, hregs, -, hsent, hmem⟩ := State.setBusState_shows (hheld'.trans hheld) w hn
    have hrd : ∀ f, ((State.noteOff (s.noteErrors w (min e 255) (min r 255)) w (s.busOffs w)).setBusState w
        (if 4 ≤ (s.busOffs w).length then 4 else 3)).rd w.errReg f =
          ((s.noteErrors w (min e 255) (min r 255)).inc w.errReg F.MGB_ERRA_BUSOFFS).rd w.errReg f := fun f =>
      (hregs.rd (by simp [hmgb, hlost]) f).trans (State.rd_congr hcount _ f)
    rw [State.busOff_eq, hsame] at hexec
    refine ⟨_, hexec, hstate, ?_, ?_, ?_, ?_, hsent.trans hsent', hmem.trans hmem'⟩
    · rw [hrd, State.rd_inc_same _ _ rfl, hoffs]
    · rw [hrd, State.inc, State.add, State.rd_wr_apart _ _ rfl rfl, htec]
    · rw [hrd, State.inc, State.add, State.rd_wr_apart _ _ rfl rfl, hrec]
    · exact (((hnoted.mono (by simp)).inc (by simp) _).of_regs hcount).trans (hregs.mono (by simp))
  · have hexec := exec_busStateChange_active h hbus e r
    obtain ⟨hstate, -, hregs, -, hsent, hmem⟩ := State.setBusState_shows (s := s.noteErrors w (min e 255) (min r 255)) hheld w
      (n := 0) (by decide)
    exact ⟨_, hexec, hstate, ((s.noteErrors_regs w _ _).mono (by simp)).trans (hregs.mono (by simp)), hsent, hmem⟩
  · have hexec := exec_lone h hbus
    have hnone : s.lastOn w = none := by rw [State.lastOn, hsent]; rfl
    rw [hnone] at hexec
    obtain ⟨hmgb, hlost, -⟩ := w.errReg_ne
    obtain ⟨hstate, -, hregs, -, hsent', hmem⟩ := State.setBusState_shows (s := s.inc w.errReg F.MGB_ERRA_NOACK) hheld w
      (n := 2) (by decide)
    refine ⟨_, hexec, hstate, ?_, ((State.sameRegsBut.refl _ s).inc (by simp) _).trans (hregs.mono (by simp)),
      hsent'.trans hsent, hmem⟩
    rw [hregs.rd (by simp [hmgb, hlost]), State.rd_inc_same _ _ rfl]
  · have hexec := exec_lone h hbus
    have hlast : s.lastOn w = some (n, l) := by
      rw [State.lastOn, hsent]
      simp
    obtain ⟨hmgb, hlost, -⟩ := w.errReg_ne
    obtain ⟨hstate, hkeep, hregs, -, hsent', hmem⟩ := State.setBusState_shows (s := s.inc w.errReg F.MGB_ERRA_NOACK) hheld w
      (n := 2) (by decide)
    have husable : ((s.inc w.errReg F.MGB_ERRA_NOACK).setBusState w 2).busUsable w.other = true := by
      rw [State.busUsable, hkeep, State.busState, State.rd_inc_other _ hmgb.symm, ← State.busState]
      exact hother
    rw [hlast] at hexec
    dsimp only at hexec
    rw [if_neg hbeacon, if_pos husable] at hexec
    refine ⟨_, hexec, hstate, ?_, ((State.sameRegsBut.refl _ s).inc (by simp) _).trans (hregs.mono (by simp)), hmem⟩
    rw [State.trail, State.send, hsent', State.inc_sent, hsent]
    rfl
  · have hexec := exec_benchedEnd h hbus
    obtain ⟨hmgb, hlost, -⟩ := w.errReg_ne
    obtain ⟨htec, hrec, -⟩ := s.rd_noteErrors w (tec := 0) (rec := 0) (by decide) (by decide)
    obtain ⟨hstate, -, hregs, -, hsent, hmem⟩ := State.setBusState_shows (s := s.noteErrors w 0 0) hheld w (n := 0) (by decide)
    have hrd : ∀ f, ((s.noteErrors w 0 0).setBusState w 0).rd w.errReg f = (s.noteErrors w 0 0).rd w.errReg f :=
      hregs.rd (by simp [hmgb, hlost])
    exact ⟨_, hexec, hstate, (hrd _).trans htec, (hrd _).trans hrec, ((s.noteErrors_regs w _ _).mono (by simp)).trans (hregs.mono (by simp)),
      hsent, hmem⟩
  · have hexec := exec_responseHoldTimeout h
    rw [hheld] at hexec
    exact ⟨_, hexec, rfl, rfl, rfl, rfl⟩

end Sys2Proof.Machine
end

section
/-! PROOF. The rows ARM, TRIG, WAYPOINT_IN, WAYPOINT_MESSAGE, WAYPOINT_CAPTURE and WAYPOINT_OUT_END (R400 to R404). -/
namespace Sys2Proof.Machine

/-! ## Entries of a map in canonical form -/

theorem key_ge_of_swfFrom {α : Type} [DecidableEq α] {d : Nat → α} {m : Sparse α} {e : Nat} (h : swfFrom d e m = true) {c : Nat × α}
    (hc : c ∈ m) : e ≤ c.1 := by
  induction m generalizing e with
  | nil => cases hc
  | cons x r ih =>
    simp only [swfFrom, Bool.and_eq_true, decide_eq_true_eq] at h
    obtain rfl | hc := List.mem_cons.mp hc
    · exact h.1.1
    · have := ih h.2 hc
      omega

/-- An entry of a map is what the map holds at its key. -/
theorem sget_of_mem {α : Type} [DecidableEq α] {d : Nat → α} {m : Sparse α} {e : Nat} (h : swfFrom d e m = true) {c : Nat × α}
    (hc : c ∈ m) : sget d m c.1 = c.2 := by
  induction m generalizing e with
  | nil => cases hc
  | cons x r ih =>
    simp only [swfFrom, Bool.and_eq_true, decide_eq_true_eq] at h
    obtain rfl | hc := List.mem_cons.mp hc
    · exact if_pos rfl
    · have hlt := key_ge_of_swfFrom h.2 hc
      rw [sget, if_neg (by omega), ih h.2 hc]

/-- A map has an entry where it does not hold the default. -/
theorem mem_of_sget_ne {α : Type} {d : Nat → α} {m : Sparse α} {k : Nat} (h : sget d m k ≠ d k) : (k, sget d m k) ∈ m := by
  induction m with
  | nil => exact absurd rfl h
  | cons x r ih =>
    rw [sget] at h ⊢
    split
    case isTrue heq => exact heq ▸ List.mem_cons_self
    case isFalse hne =>
      rw [if_neg hne] at h
      exact List.mem_cons_of_mem _ (ih h)

/-! ## The registers of the waypoint unit (R404, R450) -/

/-- Every waypoint register but WPT_CTL is zero after reset. -/
theorem resetWord_wpt {a : Nat} (hlo : 0x340008 ≤ a) (hhi : a < 0x380000) : resetWord a = 0 := by
  have hrows : blockRows a = block_WPT := by
    unfold blockRows
    repeat rw [if_neg (by omega)]
    rw [if_pos hhi]
  have hctl : row_WPT_CTL.inst a = none := by
    have hdiv : ¬ (a - row_WPT_CTL.base) / row_WPT_CTL.s1 < row_WPT_CTL.n1 := by
      change ¬ (a - 0x340000) / 8 < 1
      omega
    unfold RegRow.inst
    split
    · rfl
    · dsimp only
      rw [decide_eq_false hdiv, Bool.false_and, Bool.false_and, if_neg Bool.false_ne_true]
  have hzero : ∀ r ∈ [row_WPT_STAT, row_WPT_RING, row_WPT_TIME, row_WPT_MAP, row_WPT_SNAP], ∀ i j, r.reset i j = 0 := by
    intro r hr i j
    simp only [List.mem_cons, List.not_mem_nil, or_false] at hr
    obtain rfl | rfl | rfl | rfl | rfl := hr
    all_goals rfl
  unfold resetWord findReg
  rw [hrows, block_WPT, List.findSome?_cons, hctl, Option.map_none]
  dsimp only
  split
  case h_1 r i j hsome =>
    obtain ⟨x, hx, hinst⟩ := List.exists_of_findSome?_eq_some hsome
    obtain ⟨ij, -, heq⟩ := Option.map_eq_some_iff.mp hinst
    have hr : x = r := congrArg Prod.fst heq
    rw [← hr, hzero x hx]
    rfl
  case h_2 => rfl

theorem lt_wptSnap {x : Nat} (hx : x < 2048) : 0x348000 ≤ R.WPT_SNAP x ∧ R.WPT_SNAP x < 0x34C000 := by
  unfold R.WPT_SNAP
  omega

namespace State
variable {s t : State}

/-! ## The capture (R400) -/

/-- The slots that capture are those whose WPT_MAP is valid, each with its register's address. -/
theorem mem_wptSlots (h : swf resetWord s.regs = true) {x a : Nat} (hx : x < 2048) : (x, a) ∈ s.wptSlots ↔
    fget (s.reg (R.WPT_MAP x)) F.WPT_MAP_VALID = 1 ∧ a = 8 * fget (s.reg (R.WPT_MAP x)) F.WPT_MAP_ADDR := by
  unfold wptSlots
  rw [List.mem_map]
  constructor
  · rintro ⟨c, hc, heq⟩
    obtain ⟨hmem, hcond⟩ := List.mem_filter.mp hc
    obtain ⟨hslot, haddr⟩ := Prod.mk.inj heq
    simp only [Bool.and_eq_true, decide_eq_true_eq, beq_iff_eq] at hcond
    obtain ⟨⟨⟨hlo, -⟩, halign⟩, hvalid⟩ := hcond
    have hkey : R.WPT_MAP x = c.1 := by
      unfold R.WPT_MAP at *
      omega
    rw [reg, hkey, sget_of_mem h hmem]
    exact ⟨hvalid, haddr.symm⟩
  · rintro ⟨hvalid, rfl⟩
    have hreset : resetWord (R.WPT_MAP x) = 0 := resetWord_wpt (by unfold R.WPT_MAP; omega) (by unfold R.WPT_MAP; omega)
    have hne : s.reg (R.WPT_MAP x) ≠ resetWord (R.WPT_MAP x) := fun e => by
      rw [e, hreset] at hvalid
      exact absurd hvalid (by decide)
    refine ⟨_, List.mem_filter.mpr ⟨mem_of_sget_ne hne, ?_⟩, ?_⟩
    · simp only [Bool.and_eq_true, decide_eq_true_eq, beq_iff_eq]
      exact ⟨⟨⟨by unfold R.WPT_MAP; omega, by unfold R.WPT_MAP; omega⟩, by unfold R.WPT_MAP; omega⟩, hvalid⟩
    · refine Prod.ext ?_ rfl
      change (R.WPT_MAP x - R.WPT_MAP 0) / 8 = x
      unfold R.WPT_MAP
      omega

/-- The snapshot without what an earlier capture left. -/
def blankSnap (s : State) : State := { s with regs := s.regs.filter fun c => !(R.WPT_SNAP 0 ≤ c.1 && c.1 ≤ R.WPT_SNAP 2047) }

theorem reg_blankSnap {x : Nat} (hx : x < 2048) : s.blankSnap.reg (R.WPT_SNAP x) = 0 := by
  have hin : (!(decide (R.WPT_SNAP 0 ≤ R.WPT_SNAP x) && decide (R.WPT_SNAP x ≤ R.WPT_SNAP 2047))) = false := by
    rw [decide_eq_true (by unfold R.WPT_SNAP; omega), decide_eq_true (by unfold R.WPT_SNAP; omega)]
    rfl
  have hkey := sget_filter_key resetWord (fun a => !(decide (R.WPT_SNAP 0 ≤ a) && decide (a ≤ R.WPT_SNAP 2047))) s.regs (R.WPT_SNAP x)
  rw [hin, if_neg Bool.false_ne_true, resetWord_wpt (by unfold R.WPT_SNAP; omega) (by unfold R.WPT_SNAP; omega)] at hkey
  exact hkey

/-- Every slot takes its register's value. -/
def snapshot (s : State) : State := s.blankSnap.each s.wptSlots fun t x => t.setReg (R.WPT_SNAP x.1) (s.peekVal x.2)

/-- A slot that captures takes its register as the peek alias reads it; any other one reads zero. -/
theorem reg_snapshot (h : swf resetWord s.regs = true) {x : Nat} (hx : x < 2048) : s.snapshot.reg (R.WPT_SNAP x) =
    if fget (s.reg (R.WPT_MAP x)) F.WPT_MAP_VALID = 1 then s.peekVal (8 * fget (s.reg (R.WPT_MAP x)) F.WPT_MAP_ADDR) else 0 := by
  have hinj : ∀ y, R.WPT_SNAP x = R.WPT_SNAP y ↔ y = x := fun y => by
    unfold R.WPT_SNAP
    omega
  split
  case isTrue hvalid =>
    refine each_of_mem _ (p := fun t => t.reg (R.WPT_SNAP x) = s.peekVal (8 * fget (s.reg (R.WPT_MAP x)) F.WPT_MAP_ADDR))
      ((mem_wptSlots h hx).mpr ⟨hvalid, rfl⟩) (fun t => by rw [reg_setReg, if_pos rfl]) fun t y hy ht => ?_
    rw [reg_setReg]
    split
    case isTrue heq =>
      obtain ⟨z, a⟩ := y
      obtain rfl : z = x := (hinj z).mp heq
      rw [((mem_wptSlots h hx).mp hy).2]
    case isFalse => exact ht
  case isFalse hinvalid =>
    refine (each_eq s.blankSnap (fun t => t.reg (R.WPT_SNAP x)) fun t y hy => ?_).trans (reg_blankSnap hx)
    rw [reg_setReg, if_neg]
    intro heq
    obtain ⟨z, a⟩ := y
    obtain rfl : z = x := (hinj z).mp heq
    exact hinvalid ((mem_wptSlots h hx).mp hy).1

/-- The status, the ring and the time of a capture. -/
def showCapture (t : State) (p : WaypointPending) (off : Bool) (phase ring now : Nat) : State :=
  let t := (((t.wr R.WPT_STAT F.WPT_STAT_TAKEN 1).wr R.WPT_STAT F.WPT_STAT_CAUSE p.cause).flag
    R.WPT_STAT F.WPT_STAT_LATE p.late).flag R.WPT_STAT F.WPT_STAT_MAINOFF off
  let t := (t.wr R.WPT_STAT F.WPT_STAT_PHASE phase).wr R.WPT_STAT F.WPT_STAT_ORIGIN p.origin
  (t.setReg R.WPT_RING (BitVec.ofNat 64 ring)).setReg R.WPT_TIME (BitVec.ofNat 64 now)

/-- The capture is over, and the pin shows it. -/
def captured (t : State) : State := { t with waypoint := none, ao := { t.ao with waypointOut := true } }

theorem wptCapture_eq (s : State) (p : WaypointPending) : ∃ off phase ring e,
    s.wptCapture p = (s.snapshot.showCapture p off phase ring s.now).captured.record e := ⟨_, _, _, _, rfl⟩

theorem showCapture_shows (t : State) {p : WaypointPending} (hcause : p.cause < 8) (off : Bool) (phase ring now : Nat) :
    (t.showCapture p off phase ring now).rd R.WPT_STAT F.WPT_STAT_TAKEN = 1 ∧
      (t.showCapture p off phase ring now).rd R.WPT_STAT F.WPT_STAT_CAUSE = p.cause ∧
      (t.showCapture p off phase ring now).reg R.WPT_TIME = BitVec.ofNat 64 now ∧
      t.sameRegsBut [R.WPT_STAT, R.WPT_RING, R.WPT_TIME] (t.showCapture p off phase ring now) := by
  have hother : ∀ (v : State) w f, ((v.setReg R.WPT_RING (BitVec.ofNat 64 ring)).setReg R.WPT_TIME w).rd R.WPT_STAT f =
      v.rd R.WPT_STAT f := fun v w f => by
    rw [rd, reg_setReg, if_neg (by decide), reg_setReg, if_neg (by decide), rd]
  unfold showCapture
  dsimp only
  refine ⟨?_, ?_, by rw [reg_setReg, if_pos rfl], ?_⟩
  · rw [hother, rd_wr_apart _ _ rfl rfl, rd_wr_apart _ _ rfl rfl, flag, rd_wr_apart _ _ rfl rfl, flag, rd_wr_apart _ _ rfl rfl,
      rd_wr_apart _ _ rfl rfl, rd_wr_same _ _ rfl]
    rfl
  · rw [hother, rd_wr_apart _ _ rfl rfl, rd_wr_apart _ _ rfl rfl, flag, rd_wr_apart _ _ rfl rfl, flag, rd_wr_apart _ _ rfl rfl,
      rd_wr_same _ _ rfl]
    exact Nat.mod_eq_of_lt hcause
  · exact ((((((((sameRegsBut.refl _ t).wr (by simp) _ _).wr (by simp) _ _).flag (by simp) _ _).flag (by simp) _ _).wr (by simp) _ _).wr
      (by simp) _ _).setReg (by simp) _).setReg (by simp) _

theorem snapshot_sent (s : State) : s.snapshot.sent = s.sent := each_eq s.blankSnap State.sent fun _ _ _ => rfl

theorem snapshot_mem (s : State) : s.snapshot.mem = s.mem := each_eq s.blankSnap State.mem fun _ _ _ => rfl

theorem showCapture_fields (t : State) (p : WaypointPending) (off : Bool) (phase ring now : Nat) :
    (t.showCapture p off phase ring now).sent = t.sent ∧ (t.showCapture p off phase ring now).mem = t.mem := ⟨rfl, rfl⟩

theorem captured_fields (t : State) : t.captured.waypoint = none ∧ t.captured.ao.waypointOut = true ∧ t.captured.regs = t.regs ∧
    t.captured.sent = t.sent ∧ t.captured.mem = t.mem := ⟨rfl, rfl, rfl, rfl, rfl⟩

theorem record_waypoint (s : State) (e : Ev) : (s.record e).waypoint = s.waypoint := by
  obtain ⟨r, v, h⟩ := s.record_fields e
  rw [h]

/-! ## Triggers (R401 to R403) -/

theorem wptDue_of_none (h : s.waypoint = none) (cause origin : Nat) (late : Bool) :
    s.wptDue cause origin late = { s with waypoint := some ⟨true, 0, 0, cause, origin, late⟩ } := by
  unfold wptDue
  rw [h]

theorem wptWait_of_none (h : s.waypoint = none) (ring phase cause origin : Nat) :
    s.wptWait ring phase cause origin = { s with waypoint := some ⟨false, ring, phase, cause, origin, false⟩ } := by
  unfold wptWait
  rw [h]

theorem wptTrigger_missed (h : s.on R.WPT_STAT F.WPT_STAT_TAKEN = true) (cause : Nat) :
    s.wptTrigger cause = s.inc R.WPT_STAT F.WPT_STAT_MISSED := if_pos h

theorem wptTrigger_local (htaken : s.on R.WPT_STAT F.WPT_STAT_TAKEN = false) (harm : s.on R.WPT_CTL F.WPT_CTL_ARM = true)
    (hscope : s.rd R.WPT_CTL F.WPT_CTL_SCOPE = 0) (cause : Nat) : s.wptTrigger cause = s.wptDue cause s.pnid false := by
  unfold wptTrigger
  rw [if_neg (by simp [htaken]), if_neg (by simp [harm]), if_pos (by simp [hscope])]

/-- A trigger with a scope tells the other members, and waits for its phase of the next ring (R402, R403). -/
theorem wptTrigger_scoped (h : s.up) (htaken : s.on R.WPT_STAT F.WPT_STAT_TAKEN = false) (harm : s.on R.WPT_CTL F.WPT_CTL_ARM = true)
    (hscope : s.rd R.WPT_CTL F.WPT_CTL_SCOPE ≠ 0) (hphase : s.rd R.WPT_CTL F.WPT_CTL_GPHASE ≠ 0xFFFF) (cause : Nat) :
    s.wptTrigger cause = (s.toMembers s.wptGlade (s.wptReceivers s.wptGlade) "WAYPOINT"
      [s.wptGlade, s.pnid, s.openRing s.wptGlade + 1, s.rd R.WPT_CTL F.WPT_CTL_GPHASE]).wptWait (s.openRing s.wptGlade + 1)
        (s.rd R.WPT_CTL F.WPT_CTL_GPHASE) cause s.pnid := by
  have hup : s.mainUp = true := h
  have hpnid : ∀ g l x y, (s.toMembers g l x y).pnid = s.pnid := fun g l x y => rd_congr (toMembers_regs ..) _ _
  unfold wptTrigger
  rw [if_neg (by simp [htaken]), if_neg (by simp [harm]), if_neg (by simp [hscope, hup])]
  dsimp only
  rw [if_neg hphase, hpnid]

/-! ## Arming (R401) -/

/-- The fields that arming clears. -/
def clearStatus (s : State) : State := s.setReg R.WPT_STAT (putAll (s.reg R.WPT_STAT) [(F.WPT_STAT_TAKEN, 0), (F.WPT_STAT_LATE, 0),
  (F.WPT_STAT_MAINOFF, 0), (F.WPT_STAT_CAUSE, 0)])

theorem clearStatus_shows (s : State) : s.clearStatus.rd R.WPT_STAT F.WPT_STAT_TAKEN = 0 ∧
    s.clearStatus.rd R.WPT_STAT F.WPT_STAT_CAUSE = 0 ∧ s.clearStatus.rd R.WPT_STAT F.WPT_STAT_LATE = 0 ∧
    s.sameRegsBut [R.WPT_STAT] s.clearStatus := by
  have hreg : s.clearStatus.reg R.WPT_STAT = putAll (s.reg R.WPT_STAT) [(F.WPT_STAT_TAKEN, 0), (F.WPT_STAT_LATE, 0),
      (F.WPT_STAT_MAINOFF, 0), (F.WPT_STAT_CAUSE, 0)] := by rw [clearStatus, reg_setReg, if_pos rfl]
  refine ⟨?_, ?_, ?_, (sameRegsBut.refl _ s).setReg (by simp) _⟩
  · rw [rd, hreg]
    exact fget_putAll_cons _ 0 rfl rfl
  · rw [rd, hreg, putAll_cons, putAll_cons, putAll_cons]
    exact fget_putAll_cons _ 0 rfl rfl
  · rw [rd, hreg, putAll_cons]
    exact fget_putAll_cons _ 0 rfl rfl

/-- The value that ARM writes to WPT_CTL: its own settings with ARM = 1. -/
theorem armValue_shows (v : Word) : fget (v ||| 1) F.WPT_CTL_TRIG = fget v F.WPT_CTL_TRIG ∧
    fget ((v ||| 1) &&& readMask R.WPT_CTL) F.WPT_CTL_ARM ≠ 0 := by
  have hmask : (readMask R.WPT_CTL).getLsbD 0 = true := by decide +kernel
  constructor
  · have htrig : ∀ w : Word, fget w F.WPT_CTL_TRIG = (w.getLsbD 1).toNat := fun w => by
      rw [fget, BitVec.getLsbD, Nat.toNat_testBit]
      rfl
    rw [htrig, htrig, BitVec.getLsbD_or, show (1 : Word).getLsbD 1 = false from rfl, Bool.or_false]
  · have harm : ∀ w : Word, fget w F.WPT_CTL_ARM = (w.getLsbD 0).toNat := fun w => by
      rw [fget, BitVec.getLsbD, Nat.toNat_testBit]
      rfl
    rw [harm, BitVec.getLsbD_and, BitVec.getLsbD_or, hmask, show (1 : Word).getLsbD 0 = true from rfl, Bool.or_true]
    decide

/-- Arming without a trigger sets WPT_CTL and clears the status. -/
theorem writeWptCtl_arm {v : Word} (htrig : fget v F.WPT_CTL_TRIG = 0) :
    s.writeWptCtl (v ||| 1) = (s.setReg R.WPT_CTL ((v ||| 1) &&& readMask R.WPT_CTL)).clearStatus := by
  obtain ⟨hsame, harm⟩ := armValue_shows v
  have hon : (s.setReg R.WPT_CTL ((v ||| 1) &&& readMask R.WPT_CTL)).on R.WPT_CTL F.WPT_CTL_ARM = true := by
    rw [on, rd, reg_setReg, if_pos rfl]
    exact bne_iff_ne.mpr harm
  unfold writeWptCtl
  dsimp only
  rw [hon, if_pos rfl, if_neg (by rw [hsame, htrig]; decide)]
  rfl

end State

/-! ## The rows -/

section Rows
variable {s : State}

theorem exec_arm (h : s.aoUp) {v : Word} (htrig : fget v F.WPT_CTL_TRIG = 0) :
    exec (.arm v) s = .next (s.setReg R.WPT_CTL ((v ||| 1) &&& readMask R.WPT_CTL)).clearStatus := by
  have hexec : exec (.arm v) s = .next _ := congrArg Host.Outcome.next (State.inAo_of_aoUp h _)
  rw [hexec, State.writeWptCtl_arm htrig]

/-- TRIG, and the pin while it is an enabled source, are triggers (R401). -/
theorem exec_trigger (h : s.aoUp) {c : Instr} {n : Nat} (hc : (c, n) ∈ [(.trig, 1), (.waypointIn, 2)])
    (hsource : n = 1 ∨ bitAt (s.rd R.WPT_CTL F.WPT_CTL_SRCEN) 1 = true) : exec c s = .next (s.wptTrigger n) := by
  simp only [List.mem_cons, Prod.mk.injEq, List.not_mem_nil, or_false] at hc
  obtain ⟨rfl, rfl⟩ | ⟨rfl, rfl⟩ := hc
  · exact congrArg Host.Outcome.next (State.inAo_of_aoUp h _)
  · have hexec : exec .waypointIn s = .next (s.wptSource 1 2) := congrArg Host.Outcome.next (State.inAo_of_aoUp h _)
    rw [hexec, State.wptSource, if_pos (hsource.resolve_left (by decide))]

theorem exec_waypointMessage (h : s.up) {g : GladeId} {o q : Nat} {f : BitVec 16} (hglade : s.wptGlade = g.val)
    (hsource : bitAt (s.rd R.WPT_CTL F.WPT_CTL_SRCEN) 3 = true) (htaken : s.on R.WPT_STAT F.WPT_STAT_TAKEN = false)
    (harm : s.on R.WPT_CTL F.WPT_CTL_ARM = true) : exec (.waypointMessage g o q f) s = .next (
      if f = 0xFFFF then s.wptDue 5 o false
      else if s.openRing g.val > q ∨ s.openRing g.val = q ∧ f.toNat ≤ s.phase g.val then s.wptDue 5 o true
      else s.wptWait q f.toNat 5 o) := by
  have hexec : exec (.waypointMessage g o q f) s = .next _ := congrArg Host.Outcome.next (State.inMain_of_up h _)
  rw [hexec, if_neg (by simp [hglade, hsource]), if_neg (by simp [htaken]), if_neg (by simp [harm])]

theorem exec_waypointCapture (h : s.aoUp) {p : WaypointPending} (hp : s.waypoint = some p) (hdue : p.due = true)
    (hready : s.wptReady = true) : exec .waypointCapture s = .next (s.wptCapture p) := by
  have hexec : exec .waypointCapture s = .next _ := congrArg Host.Outcome.next (State.inAo_of_aoUp h _)
  rw [hexec, hp]
  exact congrArg Host.Outcome.next (if_pos (by simp [hdue, hready]))

end Rows

/-- Settles O58: each row by the trigger's instant, and the capture by its slots. -/
theorem waypoints : Obligations.Waypoints := by
  unfold Obligations.Waypoints
  refine ⟨fun s v h htrig => ?_, fun s c n h hc hsource htaken => ?_, fun s c n h hc hsource htaken harm hnone hscope => ?_,
    fun s c n hup h hc hsource htaken harm hnone hscope hphase => ?_, fun s g o q f h hglade hsource htaken harm hnone => ?_,
    fun s p h hcanon hp hdue hready hcause => ?_,
    fun s h => ⟨_, congrArg Host.Outcome.next (State.inAo_of_aoUp h _), rfl, rfl, rfl, rfl⟩⟩
  · have hexec := exec_arm h htrig
    obtain ⟨htaken, hcause, hlate, hregs⟩ := (s.setReg R.WPT_CTL ((v ||| 1) &&& readMask R.WPT_CTL)).clearStatus_shows
    have hctl : (s.setReg R.WPT_CTL ((v ||| 1) &&& readMask R.WPT_CTL)).clearStatus.reg R.WPT_CTL =
        (v ||| 1) &&& readMask R.WPT_CTL := by rw [hregs _ (by decide), State.reg_setReg, if_pos rfl]
    refine ⟨_, hexec, hctl, ?_, htaken, hcause, hlate, ((State.sameRegsBut.refl _ s).setReg (by simp) _).trans (hregs.mono (by simp)),
      rfl, rfl⟩
    rw [State.on, State.rd, hctl]
    exact bne_iff_ne.mpr (State.armValue_shows v).2
  · have hexec := exec_trigger h hc hsource
    rw [State.wptTrigger_missed htaken] at hexec
    exact ⟨_, hexec, State.rd_inc_same _ _ rfl, rfl, (State.sameRegsBut.refl _ s).inc (by simp) _, rfl, rfl⟩
  · have hexec := exec_trigger h hc hsource
    rw [State.wptTrigger_local htaken harm hscope, State.wptDue_of_none hnone] at hexec
    exact ⟨_, hexec, rfl, rfl, rfl, rfl⟩
  · have hexec := exec_trigger h hc hsource
    rw [State.wptTrigger_scoped hup htaken harm hscope hphase, State.toMembers_eq, State.wptWait_of_none (by exact hnone)] at hexec
    exact ⟨_, hexec, rfl, rfl, rfl, rfl⟩
  · have hexec := exec_waypointMessage h (o := o) (q := q) (f := f) hglade hsource htaken harm
    rw [State.wptDue_of_none hnone, State.wptDue_of_none hnone, State.wptWait_of_none hnone] at hexec
    by_cases hnow : f = 0xFFFF
    · rw [if_pos hnow] at hexec
      exact ⟨_, hexec, fun _ => rfl, fun hf => absurd hnow hf, fun hf => absurd hnow hf, rfl, rfl, rfl⟩
    · rw [if_neg hnow] at hexec
      by_cases hcome : s.openRing g.val > q ∨ s.openRing g.val = q ∧ f.toNat ≤ s.phase g.val
      · rw [if_pos hcome] at hexec
        exact ⟨_, hexec, fun hf => absurd hf hnow, fun _ _ => rfl, fun _ hlt => by omega, rfl, rfl, rfl⟩
      · rw [if_neg hcome] at hexec
        exact ⟨_, hexec, fun hf => absurd hf hnow, fun _ hgt => absurd (.inl hgt) hcome, fun _ _ => rfl, rfl, rfl, rfl⟩
  · have hexec := exec_waypointCapture h hp hdue hready
    obtain ⟨off, phase, ring, e, hcapture⟩ := s.wptCapture_eq p
    obtain ⟨htaken, hshown, htime, hregs⟩ := s.snapshot.showCapture_shows hcause off phase ring s.now
    obtain ⟨hsent, hmem⟩ := s.snapshot.showCapture_fields p off phase ring s.now
    obtain ⟨hnone, hout, hsame, hsent', hmem'⟩ := (s.snapshot.showCapture p off phase ring s.now).captured_fields
    have hreg : ∀ a, a ≠ R.EVR_LOST → ((s.snapshot.showCapture p off phase ring s.now).captured.record e).reg a =
        (s.snapshot.showCapture p off phase ring s.now).reg a := fun a ha => by
      rw [State.reg_record _ _ ha, State.reg_congr hsame]
    rw [hcapture] at hexec
    refine ⟨_, hexec, (State.record_waypoint ..).trans hnone, (congrArg AoState.waypointOut (State.record_ao ..)).trans hout, ?_, ?_, ?_,
      fun x hx => ?_, (State.record_sent ..).trans (hsent'.trans (hsent.trans s.snapshot_sent)),
      (State.record_mem ..).trans (hmem'.trans (hmem.trans s.snapshot_mem))⟩
    · rw [State.rd, hreg _ (by decide), ← State.rd, htaken]
    · rw [State.rd, hreg _ (by decide), ← State.rd, hshown]
    · rw [hreg _ (by decide), htime]
    · rw [hreg _ (by unfold R.WPT_SNAP R.EVR_LOST; omega),
        hregs _ (by simp only [List.mem_cons, List.not_mem_nil, or_false, R.WPT_SNAP, R.WPT_STAT, R.WPT_RING, R.WPT_TIME]; omega),
        State.reg_snapshot hcanon.2.2.2 hx]

end Sys2Proof.Machine
end

section
/-! PROOF. The rows BIST_GO, BIST_DONE, LANE_TEST, LANE_TEST_DONE, SITE_CHECK, SRAM_READOUT and the wrapper's rows (R409 to R418, R421). -/
namespace Sys2Proof.Machine

namespace State
variable (s : State)

/-! ## The start of a run (R409) -/

theorem reg_startRun (l : List Nat) (n : Nat) (rom boot : Bool) (a : Nat) :
    (s.startRun l n rom boot).reg a = (s.wr R.TST_STATUS F.TST_STATUS_BUSY 1).reg a := by
  unfold startRun
  dsimp only
  split <;> rfl

theorem startRun_test (l : List Nat) (n : Nat) (rom boot : Bool) : (s.startRun l n rom boot).test =
    { s.test with running := l, plog := n, rom := rom, boot := boot, laneView := false } := by
  unfold startRun
  dsimp only
  split <;> rfl

theorem startRun_sent (l : List Nat) (n : Nat) (rom boot : Bool) : (s.startRun l n rom boot).sent = s.sent := by
  unfold startRun
  dsimp only
  split <;> rfl

theorem selection_congr {s t : State} (ht : t.reg R.TST_SELT = s.reg R.TST_SELT) (hx : t.reg R.TST_SELX = s.reg R.TST_SELX)
    (hm : t.reg R.FUS_TILEMAP = s.reg R.FUS_TILEMAP) : t.selection = s.selection := by
  simp only [selection, tileDisabled, ht, hx, hm]

/-- A run that nothing refuses starts over the selected partitions (R409). -/
theorem bistGo_accepted (h : s.runRefusal = 0) : s.bistGo.rd R.TST_STATUS F.TST_STATUS_RESULT = 0 ∧
    s.bistGo.rd R.TST_STATUS F.TST_STATUS_BUSY = 1 ∧ s.bistGo.test.running = s.selection ∧ s.bistGo.test.plog = s.plog ∧
    s.sameRegsBut [R.TST_STATUS] s.bistGo ∧ s.bistGo.sent = s.sent := by
  have hsel : (s.wr R.TST_STATUS F.TST_STATUS_RESULT 0).selection = s.selection :=
    selection_congr (reg_wr_other s (by decide) _ _) (reg_wr_other s (by decide) _ _) (reg_wr_other s (by decide) _ _)
  have hplog : (s.wr R.TST_STATUS F.TST_STATUS_RESULT 0).plog = s.plog :=
    congrArg (max 8) (rd_wr_other s (by decide) _ _ _)
  have hgo : s.bistGo = (s.wr R.TST_STATUS F.TST_STATUS_RESULT 0).startRun s.selection s.plog
      (!(s.wr R.TST_STATUS F.TST_STATUS_RESULT 0).on R.TST_CTL F.TST_CTL_SEEDSEL) false := by
    simp only [bistGo, h, ne_eq, not_true_eq_false, if_false, hsel, hplog]
  rw [hgo]
  refine ⟨?_, ?_, ?_, ?_, fun a ha => ?_, ?_⟩
  · rw [rd, reg_startRun, ← rd, rd_wr_apart _ _ rfl rfl, rd_wr_same _ _ rfl]
    rfl
  · rw [rd, reg_startRun, ← rd, rd_wr_same _ _ rfl]
    rfl
  · rw [startRun_test]
  · rw [startRun_test]
  · rw [reg_startRun]
    exact (((sameRegsBut.refl _ s).wr (by simp) _ _).wr (by simp) _ _) a ha
  · rw [startRun_sent, wr_sent]

theorem runRefusal_lt : s.runRefusal < 2 ^ F.TST_STATUS_RESULT.width := by
  show _ < 8
  unfold runRefusal
  dsimp only
  repeat' split
  all_goals decide

/-- A run that is refused sets RESULT alone (R409). -/
theorem bistGo_refused (h : s.runRefusal ≠ 0) : s.bistGo = s.wr R.TST_STATUS F.TST_STATUS_RESULT s.runRefusal := by
  simp only [bistGo, ne_eq, h, not_false_eq_true, if_true]

/-! ## The end of a run (R410, R412, R413) -/

theorem freshTile_regs (t : Nat) : (s.freshTile t).regs = s.regs := rfl

theorem freshTile_ao (t : Nat) : (s.freshTile t).ao = s.ao := rfl

theorem freshTile_test (t : Nat) : (s.freshTile t).test = s.test := rfl

theorem freshPart_tile {x : Nat} (hx : x < 64) : s.freshPart x = if s.mainUp then s.freshTile x else s := by
  unfold freshPart
  cases s.mainUp <;> simp [hx]

/-- A tested tile keeps the registers, the test's state and the run of MAIN. -/
theorem freshPart_shows {x : Nat} (hx : x < 64) : (s.freshPart x).regs = s.regs ∧ (s.freshPart x).test = s.test ∧
    (s.freshPart x).ao = s.ao := by
  rw [freshPart_tile s hx]
  split
  · exact ⟨freshTile_regs .., freshTile_test .., freshTile_ao ..⟩
  · exact ⟨rfl, rfl, rfl⟩

/-- The state in which a tile's failure is shown, before the tile retires (R413). -/
def failureShown (x : Nat) : State :=
  let v := (s.setMask R.TST_FAILT F.TST_FAILT_TILES x).record (((ev Sev.fault Src.tst x).field R.TST_FAILT F.TST_FAILT_TILES).about x)
  { v with ao := { v.ao with failed := addOnce v.ao.failed x } }

theorem failureShown_shows {x : Nat} (hx : x < 64) :
    bitAt ((s.failureShown x).rd R.TST_FAILT F.TST_FAILT_TILES) x = true ∧ (s.failureShown x).ao.mainRun = s.ao.mainRun ∧
    (s.failureShown x).test = s.test := by
  have hbit : bitAt ((s.setMask R.TST_FAILT F.TST_FAILT_TILES x).rd R.TST_FAILT F.TST_FAILT_TILES) x = true :=
    bitAt_rd_setMask s _ rfl hx
  refine ⟨(congrArg (bitAt · x) (rd_record _ _ (by decide) _)).trans hbit, ?_, ?_⟩ <;> simp [failureShown, setMask]

/-- The retirement of a tile that failed its test (R413). -/
def retireFailed (x : Nat) : State :=
  ((s.wr (R.TIL_SRAMSTAT x) F.TIL_SRAMSTAT_RETIRED 1).updTl x fun t => { t with retiring := true }).queueEntry 4 (leBytes 1 x)

theorem rd_retireFailed (x : Nat) : (s.retireFailed x).rd R.TST_FAILT F.TST_FAILT_TILES = s.rd R.TST_FAILT F.TST_FAILT_TILES := by
  have hne : R.TST_FAILT ≠ R.TIL_SRAMSTAT x := by unfold R.TST_FAILT R.TIL_SRAMSTAT; omega
  rw [retireFailed, rd_congr (queueEntry_regs ..), rd_congr (updTl_regs ..), rd_wr_other _ hne]

theorem retireFailed_ao (x : Nat) : (s.retireFailed x).ao = s.ao := rfl

theorem retireFailed_test (x : Nat) : (s.retireFailed x).test = s.test := rfl

theorem partFailed_tile {x : Nat} (hx : x < 64) :
    s.partFailed x = if (s.failureShown x).mainUp then (s.failureShown x).retireFailed x else s.failureShown x := by
  have hplace : failPlace x = (R.TST_FAILT, F.TST_FAILT_TILES) := if_pos hx
  have hsev : (decide (x < 64) || decide (65 ≤ x) && decide (x ≤ 72)) = true := by simp [hx]
  have hrest : (decide (x = 64) || decide (x = 73)) = false := by
    simp [show x ≠ 64 by omega, show x ≠ 73 by omega]
  unfold partFailed
  simp only [hplace, Nat.mod_eq_of_lt hx, hsev, if_true]
  rw [← failureShown]
  simp only [hx, decide_true, Bool.true_and, hrest, retireFailed, Bool.false_eq_true, if_false]

/-- A tile that fails shows in TST_FAILT (R413). -/
theorem partFailed_shows {x : Nat} (hx : x < 64) : bitAt ((s.partFailed x).rd R.TST_FAILT F.TST_FAILT_TILES) x = true ∧
    (s.partFailed x).ao.mainRun = s.ao.mainRun ∧ (s.partFailed x).test = s.test := by
  rw [partFailed_tile s hx]
  split
  · rw [rd_retireFailed, retireFailed_ao, retireFailed_test]
    exact s.failureShown_shows hx
  · exact s.failureShown_shows hx

/-- A tile that passes clears its bit of TST_FAILT (R413). -/
theorem partPassed_shows {x : Nat} (hx : x < 64) : bitAt ((s.partPassed x).rd R.TST_FAILT F.TST_FAILT_TILES) x = false ∧
    (s.partPassed x).ao.mainRun = s.ao.mainRun ∧ (s.partPassed x).test = s.test := by
  have hplace : failPlace x = (R.TST_FAILT, F.TST_FAILT_TILES) := if_pos hx
  have hmod : x % 64 = x := Nat.mod_eq_of_lt hx
  unfold partPassed
  simp only [hplace, hmod]
  refine ⟨(bitAt_rd_clearMask s _ rfl x x).trans ?_, rfl, rfl⟩
  simp

/-- The end of one tile's test shows whether its signature is wrong (R410, R413). -/
theorem partDone_shows {x : Nat} (hx : x < 64) :
    bitAt ((s.partDone x).rd R.TST_FAILT F.TST_FAILT_TILES) x = !(s.signature x s.test.plog s.test.rom).1 ∧
    (s.partDone x).ao.mainRun = s.ao.mainRun ∧ (s.partDone x).test.boot = s.test.boot := by
  unfold partDone
  obtain ⟨good, word⟩ := s.signature x s.test.plog s.test.rom
  dsimp only
  obtain ⟨hregs, htest, hao⟩ := freshPart_shows (x := x) (if good = true then
    partPassed { s.useFree with test := { s.useFree.test with sigs := sset (fun _ => 0) s.useFree.test.sigs x word } } x else
    partFailed { s.useFree with test := { s.useFree.test with sigs := sset (fun _ => 0) s.useFree.test.sigs x word } } x) hx
  rw [rd_congr hregs, hao, htest]
  cases good with
  | true =>
    obtain ⟨hbit, hrun, hkept⟩ := partPassed_shows _ hx
    exact ⟨hbit, hrun, (congrArg TestState.boot hkept :)⟩
  | false =>
    obtain ⟨hbit, hrun, hkept⟩ := partFailed_shows _ hx
    exact ⟨hbit, hrun, (congrArg TestState.boot hkept :)⟩

/-- A run that tested one tile, and is no boot run, resets nothing (R412). -/
theorem runEnds_tile {x : Nat} (hx : x < 64) : s.runEnds [x] false = s := by
  unfold runEnds
  have hlow : ¬74 ≤ x := by omega
  simp [hlow]

/-- The end of a run is shown in TST_STATUS, and no partition is under test (R410). -/
def runShown : State :=
  let v := (s.wr R.TST_STATUS F.TST_STATUS_BUSY 0).wr R.TST_STATUS F.TST_STATUS_DONE 1
  { v with test := { v.test with running := [], boot := false } }

theorem runShown_shows : s.runShown.rd R.TST_STATUS F.TST_STATUS_BUSY = 0 ∧ s.runShown.rd R.TST_STATUS F.TST_STATUS_DONE = 1 ∧
    s.runShown.rd R.TST_FAILT F.TST_FAILT_TILES = s.rd R.TST_FAILT F.TST_FAILT_TILES := by
  have hregs : s.runShown.regs = ((s.wr R.TST_STATUS F.TST_STATUS_BUSY 0).wr R.TST_STATUS F.TST_STATUS_DONE 1).regs := rfl
  simp only [rd_congr hregs]
  refine ⟨?_, ?_, ?_⟩
  · rw [rd_wr_apart _ _ rfl rfl, rd_wr_same _ _ rfl]
    rfl
  · rw [rd_wr_same _ _ rfl]
    rfl
  · rw [rd_wr_other _ (by decide), rd_wr_other _ (by decide)]

theorem runShown_ao : s.runShown.ao = s.ao := rfl

/-! ## The wrapper (R416) -/

theorem wirLeave_kept (h : s.test.wir ≠ 1 ∧ s.test.wir ≠ 3) : s.wirLeave = s := by
  simp [wirLeave, h.1, h.2]

theorem wirLeave_reset (h : s.test.wir = 1 ∨ s.test.wir = 3) : s.wirLeave = s.mainReset false := by
  simpa [wirLeave] using fun h₁ h₃ => absurd h (by simp [h₁, h₃])

theorem mainReset_sent (pin : Bool) : (s.mainReset pin).sent = s.sent := by
  rw [mainReset, wr_sent, each_eq _ State.sent fun v q _ => wr_sent v _ _ _]

theorem lcs_mainReset (pin : Bool) : (s.mainReset pin).lcs = s.lcs := by
  rw [lcs, rd, reg_mainReset_ao s (by decide) (by decide), lcs, rd]

/-- The state in which an instruction is loaded: MAIN is in reset where the wrapper left WS_EXTEST or WS_CLAMP (R416). -/
def wirLeft (op : Nat) : State := if s.test.wir = op then s else s.wirLeave

theorem wirLeft_cases (op : Nat) :
    (s.wirLeft op = s ∧ (s.test.wir = op ∨ s.test.wir ≠ 1 ∧ s.test.wir ≠ 3)) ∨
    (s.wirLeft op = s.mainReset false ∧ (s.test.wir = 1 ∨ s.test.wir = 3) ∧ s.test.wir ≠ op) := by
  unfold wirLeft
  by_cases hsame : s.test.wir = op
  · exact .inl ⟨if_pos hsame, .inl hsame⟩
  · rw [if_neg hsame]
    by_cases hleave : s.test.wir = 1 ∨ s.test.wir = 3
    · exact .inr ⟨s.wirLeave_reset hleave, hleave, hsame⟩
    · have hkept : s.test.wir ≠ 1 ∧ s.test.wir ≠ 3 := by simpa using hleave
      exact .inl ⟨s.wirLeave_kept hkept, .inr hkept⟩

theorem loadWir_eq (op : Nat) : s.loadWir op =
    if wirOpen (s.wirLeft op).lcs op then { s.wirLeft op with test := { (s.wirLeft op).test with wir := op } }
    else State.record { s.wirLeft op with test := { (s.wirLeft op).test with wir := 0 } } (ev Sev.warn Src.tst 0) := rfl

theorem wirLeft_sent (op : Nat) : (s.wirLeft op).sent = s.sent := by
  obtain ⟨h, -⟩ | ⟨h, -⟩ := s.wirLeft_cases op
  · rw [h]
  · rw [h, mainReset_sent]

theorem lcs_wirLeft (op : Nat) : (s.wirLeft op).lcs = s.lcs := by
  obtain ⟨h, -⟩ | ⟨h, -⟩ := s.wirLeft_cases op
  · rw [h]
  · rw [h, lcs_mainReset]

/-- What a load of an instruction leaves of the state that the wrapper's present instruction was left in (R416). -/
theorem loadWir_shows (op : Nat) : (s.loadWir op).test.wir = (if wirOpen s.lcs op then op else 0) ∧
    (s.loadWir op).sent = s.sent ∧ (s.wirLeft op).sameRegsBut [R.EVR_LOST] (s.loadWir op) ∧
    (s.loadWir op).ao = (s.wirLeft op).ao := by
  rw [loadWir_eq, lcs_wirLeft]
  split
  · exact ⟨rfl, s.wirLeft_sent op, (sameRegsBut.refl _ _).of_regs rfl, rfl⟩
  · refine ⟨?_, ?_, sameRegsBut.record ((sameRegsBut.refl _ _).of_regs rfl) (by simp) _, ?_⟩
    · rw [record_test]
    · rw [record_sent]
      exact s.wirLeft_sent op
    · rw [record_ao]

/-- An instruction loaded over WS_EXTEST or WS_CLAMP resets MAIN; any other load keeps the registers and MAIN's run (R416). -/
theorem loadWir_main (op : Nat) :
    (s.test.wir = op ∨ (s.test.wir ≠ 1 ∧ s.test.wir ≠ 3) →
      s.sameRegsBut [R.EVR_LOST] (s.loadWir op) ∧ ((s.loadWir op).up ↔ s.up)) ∧
    ((s.test.wir = 1 ∨ s.test.wir = 3) → s.test.wir ≠ op → ¬(s.loadWir op).up) := by
  obtain ⟨-, -, hregs, hao⟩ := s.loadWir_shows op
  obtain ⟨h, hkept⟩ | ⟨h, hleave, hne⟩ := s.wirLeft_cases op
  · rw [h] at hregs hao
    refine ⟨fun _ => ⟨hregs, by rw [up, hao, up]⟩, fun hleave hne => ?_⟩
    omega
  · rw [h] at hao
    refine ⟨fun hkept => ?_, fun _ _ => ?_⟩
    · omega
    · rw [up, hao]
      exact s.not_up_mainReset false

/-- The wrapper loads the instruction that it holds. -/
theorem loadWir_same {op : Nat} (h : s.test.wir = op) (hopen : wirOpen s.lcs op = true) : s.loadWir op = s := by
  rw [loadWir_eq, wirLeft, if_pos h, if_pos hopen, ← h]

/-! ## Lane tests and sensor sites (R418, R421) -/

theorem laneTest_accepted (hlcs : s.lcs ≠ 5) (hgrove : ∀ g, g < 16 → s.inGrove g = false) (htest : s.testing = false) :
    s.laneTest = { (s.wr R.TST_STATUS F.TST_STATUS_RESULT 0).wr R.TST_LTEST F.TST_LTEST_BUSY 1 with
      test := { s.test with links := (s.reg R.TST_SELT).toNat % 2 ^ 32 } } := by
  have hout : (List.range 16).any s.inGrove = false := by simpa using hgrove
  have hsel : ((s.wr R.TST_STATUS F.TST_STATUS_RESULT 0).wr R.TST_LTEST F.TST_LTEST_BUSY 1).reg R.TST_SELT = s.reg R.TST_SELT := by
    rw [reg_wr_other _ (by decide), reg_wr_other _ (by decide)]
  unfold laneTest
  simp only [hlcs, hout, htest, if_false, Bool.false_eq_true, ne_eq, not_true_eq_false, hsel, wr_test]

/-- A site's registers after one second (R421). -/
def siteCounted (x d m k l : Nat) : State :=
  let v := (s.add (R.TST_SITE x) F.TST_SITE_DCNT d).raise (R.TST_SITE x) F.TST_SITE_DMAX (min m 255)
  (v.wr (R.TST_SITE x) F.TST_SITE_SLK (min k 255)).wr (R.TST_SITE x) F.TST_SITE_SLKMIN
    (min (min k l) (v.rd (R.TST_SITE x) F.TST_SITE_SLKMIN))

theorem siteCounted_shows (x d m k l : Nat) :
    (s.siteCounted x d m k l).rd (R.TST_SITE x) F.TST_SITE_DCNT =
      min (s.rd (R.TST_SITE x) F.TST_SITE_DCNT + d) (2 ^ F.TST_SITE_DCNT.width - 1) ∧
    (s.siteCounted x d m k l).rd (R.TST_SITE x) F.TST_SITE_SLK = min k 255 ∧
    (s.siteCounted x d m k l).rd (R.TST_SITE x) F.TST_SITE_SLKMIN = min (min k l) (s.rd (R.TST_SITE x) F.TST_SITE_SLKMIN) ∧
    s.sameRegsBut [R.TST_SITE x] (s.siteCounted x d m k l) := by
  have hleast : s.rd (R.TST_SITE x) F.TST_SITE_SLKMIN < 2 ^ 8 := s.rd_lt _ F.TST_SITE_SLKMIN
  unfold siteCounted raise
  dsimp only
  refine ⟨?_, ?_, ?_, ?_⟩
  · rw [rd_wr_apart _ _ rfl rfl, rd_wr_apart _ _ rfl rfl, rd_wr_apart _ _ rfl rfl, rd_add_same _ _ rfl]
  · rw [rd_wr_apart _ _ rfl rfl, rd_wr_same _ _ rfl]
    exact Nat.mod_eq_of_lt (show min k 255 < 2 ^ 8 by omega)
  · rw [rd_wr_same _ _ rfl, rd_wr_apart _ _ rfl rfl, add, rd_wr_apart _ _ rfl rfl]
    exact Nat.mod_eq_of_lt (show min (min k l) _ < 2 ^ 8 by omega)
  · exact ((((sameRegsBut.refl _ s).add (by simp) _ _).wr (by simp) _ _).wr (by simp) _ _).wr (by simp) _ _

end State

section Rows
variable {s : State}

theorem exec_bistGo (h : s.aoUp) {c : Instr} (hc : c = .bistGo ∨ (c = .wsBist ∧ s.test.wir = 6)) : exec c s = .next s.bistGo := by
  obtain rfl | ⟨rfl, hwir⟩ := hc
  · exact congrArg Host.Outcome.next (State.inAo_of_aoUp h _)
  · have hexec : exec .wsBist s = .next _ := congrArg Host.Outcome.next (State.inAo_of_aoUp h _)
    rw [hexec, s.loadWir_same hwir rfl]

theorem exec_bistDone (h : s.aoUp) (hbusy : s.on R.TST_STATUS F.TST_STATUS_BUSY = true) {x : Nat} (hrun : s.test.running = [x])
    (hboot : s.test.boot = false) (hx : x < 64) : exec .bistDone s = .next (s.partDone x).runShown := by
  have hexec : exec .bistDone s = .next _ := congrArg Host.Outcome.next (State.inAo_of_aoUp h _)
  obtain ⟨-, -, hkept⟩ := s.partDone_shows hx
  rw [hexec, if_neg (by simp [hbusy]), hrun]
  show Host.Outcome.next ((s.partDone x).runShown.runEnds [x] (s.partDone x).test.boot) = _
  rw [hkept, hboot, State.runEnds_tile _ hx]

theorem exec_laneTest (h : s.aoUp) : exec .laneTest s = .next s.laneTest := congrArg Host.Outcome.next (State.inAo_of_aoUp h _)

theorem exec_laneTestDone (h : s.aoUp) (hbusy : s.on R.TST_LTEST F.TST_LTEST_BUSY = true) (n : BitVec 32) (l : List (BitVec 8)) :
    ∃ t, exec (.laneTestDone n l) s = .next t ∧
      t.regs = ((s.wr R.TST_LTEST F.TST_LTEST_BUSY 0).wr R.TST_FAILT ⟨0, 32⟩ (n.toNat &&& s.test.links)).regs ∧
      t.test.laneView = true ∧ t.test.laneFails = ((List.range 32).map fun p =>
        if bitAt s.test.links p && !bitAt (n.toNat &&& s.test.links) p then l.getD p 0 else 0) ∧ t.sent = s.sent := by
  have hexec : exec (.laneTestDone n l) s = .next _ := congrArg Host.Outcome.next (State.inAo_of_aoUp h _)
  rw [if_neg (by simp [hbusy])] at hexec
  exact ⟨_, hexec, rfl, rfl, rfl, rfl⟩

/-- A second of a site with slack left: the registers of the site, and a record where one is due (R421). -/
theorem exec_siteCheck (h : s.up) (x : Fin 8) (d m : Nat) {k l : Nat} (hslack : 0 < min k l) :
    exec (.siteCheck x d m k l) s = .next (s.siteCounted x.val d m k l) ∨
    ∃ e, exec (.siteCheck x d m k l) s = .next ((s.siteCounted x.val d m k l).record e) := by
  have hexec : exec (.siteCheck x d m k l) s = .next _ := congrArg Host.Outcome.next (State.inMain_of_up h _)
  rw [if_neg (by omega)] at hexec
  split at hexec
  · exact .inr ⟨_, hexec⟩
  · exact .inl hexec

theorem exec_sramReadout (h : s.aoUp) : exec .sramReadout s = .next (s.sramRead.2.respond s.sramRead.1) :=
  congrArg Host.Outcome.next (State.inAo_of_aoUp h _)

/-- What the wrapper shows after a row that loads instruction n (R416, R417). -/
def wrapperAfter (c : Instr) (n : Nat) (l : List Bool) (s t : State) : Prop :=
  exec c s = .next t ∧ t.test.wir = (s.loadWir n).test.wir ∧ t.regs = (s.loadWir n).regs ∧ t.ao = (s.loadWir n).ao ∧
    (c = .wsPreload l → t.test.boundary = l) ∧ (c = .wsIdcode → t.sent = (s.loadWir n).sent ++ [.wso 0x0C64BB4B]) ∧
    (c ≠ .wsIdcode → t.sent = (s.loadWir n).sent)

theorem exec_wrapper (h : s.aoUp) {c : Instr} {n : Nat} {l : List Bool}
    (hc : (c, n) ∈ [(.wsBypass, 0), (.wsExtest, 1), (.wsPreload l, 2), (.wsClamp, 3), (.wsIdcode, 4), (.wsIntestScan, 5)]) :
    ∃ t, wrapperAfter c n l s t ∧ t.mem = s.mem := by
  simp only [List.mem_cons, Prod.mk.injEq, List.not_mem_nil, or_false] at hc
  obtain ⟨rfl, rfl⟩ | ⟨rfl, rfl⟩ | ⟨rfl, rfl⟩ | ⟨rfl, rfl⟩ | ⟨rfl, rfl⟩ | ⟨rfl, rfl⟩ := hc
  · have hexec : exec .wsBypass s = .next (s.loadWir 0) :=
      congrArg Host.Outcome.next (State.inAo_of_aoUp h _)
    exact ⟨_, ⟨hexec, rfl, rfl, rfl, nofun, nofun, fun _ => rfl⟩, exec_mem hexec rfl⟩
  · have hexec : exec .wsExtest s = .next (s.loadWir 1) :=
      congrArg Host.Outcome.next (State.inAo_of_aoUp h _)
    exact ⟨_, ⟨hexec, rfl, rfl, rfl, nofun, nofun, fun _ => rfl⟩, exec_mem hexec rfl⟩
  · have hexec : exec (.wsPreload l) s = .next { s.loadWir 2 with test := { (s.loadWir 2).test with boundary := l } } :=
      congrArg Host.Outcome.next (State.inAo_of_aoUp h _)
    exact ⟨_, ⟨hexec, rfl, rfl, rfl, fun _ => rfl, nofun, fun _ => rfl⟩, exec_mem hexec rfl⟩
  · have hexec : exec .wsClamp s = .next (s.loadWir 3) :=
      congrArg Host.Outcome.next (State.inAo_of_aoUp h _)
    exact ⟨_, ⟨hexec, rfl, rfl, rfl, nofun, nofun, fun _ => rfl⟩, exec_mem hexec rfl⟩
  · have hexec : exec .wsIdcode s = .next ((s.loadWir 4).send (.wso idcode.toNat)) :=
      congrArg Host.Outcome.next (State.inAo_of_aoUp h _)
    exact ⟨_, ⟨hexec, rfl, rfl, rfl, nofun, fun _ => rfl, fun hne => absurd rfl hne⟩, exec_mem hexec rfl⟩
  · have hexec : exec .wsIntestScan s = .next (s.loadWir 5) :=
      congrArg Host.Outcome.next (State.inAo_of_aoUp h _)
    exact ⟨_, ⟨hexec, rfl, rfl, rfl, nofun, nofun, fun _ => rfl⟩, exec_mem hexec rfl⟩

end Rows

/-- Settles O60: each row of self-test by the operation that it runs. -/
theorem selfTest : Obligations.SelfTest := by
  unfold Obligations.SelfTest
  refine ⟨fun s c h hfree hc => ?_, fun s c h hrefused hc => ?_, fun s x h hbusy hrun hboot hx => ?_,
    fun s h hlcs hgrove htest => ?_, fun s n l h hbusy => ?_, fun s x d m k l h hslack => ?_, fun s h hopen => ?_,
    fun s v h hopen hpeek => ?_, fun s c l n h hc => ?_⟩
  · have hexec := exec_bistGo h hc
    obtain ⟨hresult, hbusy, hrun, hplog, hregs, hsent⟩ := s.bistGo_accepted hfree
    exact ⟨_, hexec, hresult, hbusy, hrun, hplog, hregs, hsent, exec_mem hexec (by obtain rfl | ⟨rfl, -⟩ := hc <;> rfl)⟩
  · have hexec := exec_bistGo h hc
    rw [s.bistGo_refused hrefused] at hexec
    refine ⟨_, hexec, ?_, State.wr_test .., (State.sameRegsBut.refl _ s).wr (by simp) _ _, State.wr_sent .., State.wr_mem ..⟩
    rw [State.rd_wr_same _ _ rfl]
    exact Nat.mod_eq_of_lt s.runRefusal_lt
  · have hexec := exec_bistDone h hbusy hrun hboot hx
    obtain ⟨hbit, hup, -⟩ := s.partDone_shows hx
    obtain ⟨hidle, hdone, hfail⟩ := (s.partDone x).runShown_shows
    refine ⟨_, hexec, hidle, hdone, rfl, by rw [hfail, hbit], ?_, exec_mem hexec rfl⟩
    rw [State.up, State.runShown_ao, hup, State.up]
  · have hexec := exec_laneTest h
    rw [s.laneTest_accepted hlcs hgrove htest] at hexec
    refine ⟨_, hexec, ?_, ?_, rfl, ?_, rfl, rfl⟩
    · exact (State.rd_wr_other _ (by decide) _ _ _).trans (State.rd_wr_same _ _ rfl _)
    · exact State.rd_wr_same _ _ rfl _
    · exact (((State.sameRegsBut.refl _ s).wr (by simp) _ _).wr (by simp) _ _).of_regs rfl
  · obtain ⟨t, hexec, hregs, hview, hfails, hsent⟩ := exec_laneTestDone h hbusy n l
    refine ⟨t, hexec, ?_, hview, fun p hp => ?_, ?_, hsent, exec_mem hexec rfl⟩
    · rw [State.rd_congr hregs, State.rd_wr_other _ (by decide), State.rd_wr_same _ _ rfl]
      rfl
    · rw [hfails, List.getD_eq_getElem?_getD, List.getElem?_map, List.getElem?_range hp]
      rfl
    · exact (((State.sameRegsBut.refl _ s).wr (by simp) _ _).wr (by simp) _ _).of_regs hregs
  · obtain ⟨hcount, hslk, hleast, hregs⟩ := s.siteCounted_shows x.val d m k l
    have hlost : R.TST_SITE x.val ≠ R.EVR_LOST := by unfold R.TST_SITE R.EVR_LOST; omega
    obtain hexec | ⟨e, hexec⟩ := exec_siteCheck h x d m hslack
    · exact ⟨_, hexec, hcount, hslk, hleast, hregs.mono (by simp), rfl, exec_mem hexec rfl⟩
    · refine ⟨_, hexec, ?_, ?_, ?_, (hregs.mono (by simp)).record (by simp) e, State.record_sent .., exec_mem hexec rfl⟩
      · rw [State.rd_record _ _ hlost, hcount]
      · rw [State.rd_record _ _ hlost, hslk]
      · rw [State.rd_record _ _ hlost, hleast]
  · have hexec := exec_sramReadout h
    rw [State.sramRead, hopen] at hexec
    exact ⟨_, hexec, rfl, rfl, ((State.sameRegsBut.refl _ s).record (by simp) _).of_regs rfl, State.record_sent .., State.record_mem ..⟩
  · have hexec := exec_sramReadout h
    rw [State.sramRead, hopen, hpeek] at hexec
    exact ⟨_, hexec, rfl, rfl, rfl, rfl, rfl⟩
  · obtain ⟨t, ⟨hexec, hwir, hregs, hao, hcells, hid, hsent⟩, hmem⟩ := exec_wrapper h hc
    obtain ⟨hload, hkept, -, -⟩ := s.loadWir_shows n
    obtain ⟨hstay, hreset⟩ := s.loadWir_main n
    have hup : t.up ↔ (s.loadWir n).up := by rw [State.up, hao, State.up]
    refine ⟨t, hexec, hwir.trans hload, hcells, fun e => (hid e).trans (by rw [hkept]), fun e => (hsent e).trans hkept,
      fun hstays => ?_, fun hleave hne => ?_, hmem⟩
    · obtain ⟨hsame, hrun⟩ := hstay hstays
      exact ⟨hsame.of_regs hregs, hup.trans hrun⟩
    · exact fun hrun => hreset hleave hne (hup.mp hrun)

end Sys2Proof.Machine
end

section
/-! PROOF. The frame of every command (R324): CLEARING_START may store, through the waiting reads that it serves (R184, R185). -/
namespace Sys2Proof.Machine

/-- A stand-in of glade 0 with no code in force, so that its lines are reconstructed from nothing. Layer 0 has one block with one lane,
whose master leaf is not rebuilt; one read waits, of the second line of the block's working copy, at the offset 8320, where a byte is 1. -/
@[irreducible] def readWaits : State :=
  let s : State := { State.reset with ao := { AoState.reset with mainRun := true } }
  let s := s.each (List.range 8) fun s q => s.wr (R.MPT_SIZE q) F.MPT_SIZE_SIZE 1
  let s := (s.wr (R.GLD_REGION 0 5) F.GLD_REGION_BASE 2).wr (R.GLD_REGION 0 5) F.GLD_REGION_SIZE 1
  let s := ((s.wr (R.GLD_REGION 0 9) F.GLD_REGION_BASE 3).wr (R.GLD_LAYERS 0) F.GLD_LAYERS_COUNT 1).setMstate 0 4
  let s := s.updGl 0 fun e => { e with standIn := some ⟨0, false, [0], [], [], [], []⟩, clearWaits := [(8320, 1)] }
  (s.writeBytes (4096 * 3) [1]).writeBytes 8320 [1]

theorem readByte_readWaits : readWaits.readByte 8320 = 1 := by decide +kernel

/-- The read that waits is served from the reconstructed lines, and the working-copy line that they spell is stored. -/
theorem exec_clearingStart_readWaits : ∃ t, exec (.clearingStart 0) readWaits = .next t ∧ t.readByte 8320 = 0 :=
  ⟨_, rfl, by decide +kernel⟩

/-- Refutes O2: CLEARING_START is not among the commands that may store, and it serves the reads that have waited first (R184); a
waiting read of the working copy that is reconstructed is written to region 5 (R185). With no code in force (K = 0) it is reconstructed
at once, and the byte at its offset changes. -/
theorem not_everyCommandAnswersWithinItsFrame : ¬ Obligations.EveryCommandAnswersWithinItsFrame := by
  unfold Obligations.EveryCommandAnswersWithinItsFrame
  rintro ⟨-, hframe, -⟩
  obtain ⟨t, hexec, hbyte⟩ := exec_clearingStart_readWaits
  obtain ⟨hmem, -, -⟩ := hframe _ _ _ hexec
  have hsame : t.readByte 8320 = readWaits.readByte 8320 := hmem rfl 8320
  rw [hbyte, readByte_readWaits] at hsame
  exact absurd hsame (by decide)

end Sys2Proof.Machine
end
